-- ==== Sys2Proof/Word.lean ====
section
/-! DEFINITION. The plainest words of the model: bytes, octet strings, and the sparse tables that
hold every indexed part of the device. -/

namespace Sys2Proof

/-- One byte (an octet of a packet, a memory cell, a pixel). -/
abbrev Byte := BitVec 8

/-- An octet string, first octet first. -/
abbrev Bytes := List Byte

/-- A sparse table: the entries that differ from the table's default, keys strictly rising. -/
abbrev Tbl (α : Type) := List (Nat × α)

end Sys2Proof
end

