-- ==== Sys2Proof/Syntax.lean ====
section
/-! DEFINITION. The commands of the BF4816: one constructor of `Instr` per row of
spec/opcode_table.json, with the row's operands. Every row carries the device time `t` in ns at
which it comes about (R21); a host command carries it in its header `Hdr`. Operands that the
outside world supplies (a frame, a measured value, what an error check finds) are operands of the
row, so that a statement about a row holds for all of them. -/

namespace Sys2Proof

/-- The part of a command packet's header that lives on past the dispatcher (R403), and the device
time at which the command is executed. -/
structure Hdr where
  t : Nat
  tag : BitVec 32
  prio : Nat
  deriving DecidableEq, Repr

/-- What an error check finds in the words it reads (R208, R219). -/
inductive Ecc where
  | clean
  | corrected
  | uncorrectable
  deriving DecidableEq, Repr

/-- What the word check of a read of a shuttle queue finds: words corrected, and whether the packet is lost to an
uncorrectable one (R267). -/
inductive WordEcc where
  | clean
  | corrected (words : Nat)
  | uncorrectable (words : Nat)
  deriving DecidableEq, Repr

/-- The words corrected. -/
def WordEcc.words : WordEcc → Nat
  | .clean => 0
  | .corrected n => n
  | .uncorrectable n => n

/-- Whether the packet is lost. -/
def WordEcc.lost : WordEcc → Bool
  | .uncorrectable _ => true
  | _ => false

/-- One entry WIN[w] of JOB_ADMIT or JOB_SUBMIT (R435). -/
structure WinSpec where
  base : Nat
  pitch : Nat
  depth : Nat
  deriving DecidableEq, Repr

/-- JOB_ADMIT's parameters (R435). `mapA` and `mapB` give the physical pillow of each logical
pillow, 255 for none. -/
structure AdmitParams where
  template : Nat
  prk : Nat
  stream : Nat
  asid : Nat
  instances : Nat
  looseOk : Bool
  period : Nat
  vRated : Nat
  d : Nat
  lag : Nat
  seed : BitVec 32
  wmask : BitVec 16
  len : List Nat
  instB : BitVec 64
  mapA : List Nat
  mapB : List Nat
  win : List WinSpec
  deriving DecidableEq, Repr

/-- JOB_SUBMIT's and PARTIAL_CAPTURE's parameters (R436). -/
structure SubmitParams where
  prk : Nat
  port : Nat
  asid : Nat
  seed : BitVec 32
  recTag : BitVec 32
  wmask : BitVec 16
  len : List Nat
  map : List Nat
  win : List WinSpec
  deriving DecidableEq, Repr

/-- MAP_PAGE's parameters (R426). -/
structure MapPageParams where
  asid : Nat
  op : Nat
  big : Bool
  r : Bool
  w : Bool
  va : Nat
  pa : Nat
  deriving DecidableEq, Repr

/-- TB_CONFIG's parameters (R438). -/
structure TbConfigParams where
  num : Nat
  den : Nat
  encEn : Bool
  dirInv : Bool
  preset : Bool
  filt : Nat
  sheetSrc : Nat
  sheetPin : Nat
  rep : Nat
  wp : Nat
  deriving DecidableEq, Repr

/-- STREAM_OPEN's parameters (R440). `secondary` is none for 0xFF. -/
structure StreamOpenParams where
  stream : Nat
  primary : Nat
  secondary : Option Nat
  camera : Nat
  pixfmt : Nat
  rport : Nat
  udp : Nat
  origin : Nat
  sheetOfs : Nat
  gbBase : Nat
  pitch : Nat
  depth : Nat
  deriving DecidableEq, Repr

/-- PORT_CONFIG, LINK section (R442). -/
structure LinkParams where
  port : Nat
  en : Bool
  fast : Bool
  fec : Nat
  mac : Bytes
  vid : Nat
  ipv4 : Bytes
  deriving DecidableEq, Repr

/-- PORT_CONFIG, SERVICE section (R442). -/
structure ServiceParams where
  port : Nat
  rasterUdp : Nat
  asid : Nat
  domain : Nat
  pinClass : Nat
  looseClass : Nat
  intakeBase : Nat
  intakeSize : Nat
  dstMac : Bytes
  maxRecs : Nat
  dstIp : Bytes
  srcUdp : Nat
  dstUdp : Nat
  deriving DecidableEq, Repr

/-- One entry of a gate control list (R302). -/
structure GateEntry where
  mask : BitVec 8
  interval : Nat
  deriving DecidableEq, Repr

/-- PORT_CONFIG, GATES section (R442). -/
structure GatesParams where
  port : Nat
  first : Nat
  entries : List GateEntry
  commit : Bool
  gateEn : Bool
  total : Nat
  baseSec : Nat
  baseNs : Nat
  deriving DecidableEq, Repr

/-- Channel options: byte 0 of OPT in HC_CONFIG and OPT of HC_READ (R443, R444). -/
structure HcOpt where
  ext : Nat
  ow : Nat
  pullI : Nat
  pullDown : Bool
  deriving DecidableEq, Repr

/-- One step of a house-converter sequence (R366, R443). -/
structure HcStep where
  ch : Nat
  opt : HcOpt
  winEn : Bool
  lo : Nat
  hi : Nat
  deriving DecidableEq, Repr

/-- HC_CONFIG OP 0 (R443). -/
structure HcEnableParams where
  seq : Nat
  thread : Bool
  pin : Nat
  edge : Nat
  delay : Nat
  steps : List HcStep
  deriving DecidableEq, Repr

/-- The classes of calibrated element of R340, in the table's order. -/
inductive ElemClass where
  | hcFactor
  | refDac
  | vread
  | convOffset
  | convLin
  | pathGain
  | bobbinK
  deriving DecidableEq, Repr

/-- One measured element of a calibration: its class, its bobbin (17 × pillow + physical bobbin, 0
for device-wide classes), its index within the class (a converter's element: 4 × converter + range or
bit, bits 7 to 4 as 0 to 3), the first measured value and that of the repeat which R341 makes when the
first is implausible. A measurement whose output misses a limit of its class other than the field's
(R340) has a value outside the field. In a DWELL_END the index is the range or bit alone, and an
offset's value is the sum of the 128 codes. -/
structure Meas where
  cls : ElemClass
  bobbin : Nat
  index : Nat
  value : Int
  again : Int
  deriving DecidableEq, Repr

/-- What a CAL_RUN measured: the elements whose measurement is not the nominal value of their class,
and the converters (bobbin, converter) that failed step 6 of R343. -/
structure CalResult where
  meas : List Meas
  failed6 : List (Nat × Nat)
  tj : Int
  deriving DecidableEq, Repr

/-- What a port's link shows when it goes down or comes up: the port, hi_ber, and the FEC codewords corrected and
uncorrectable since the port's link last changed (R280, R306). -/
structure LinkEvent where
  port : Nat
  hiBer : Bool := false
  corr : Nat := 0
  uncorr : Nat := 0
  deriving DecidableEq, Repr

/-- What verification sees of a firmware image (R501, R502): the fields of its signed header, whether the form checks of
R502 step 1 hold, whether the signature verifies under its key and the digest matches the body (step 4), and the digest
of the signed bytes. -/
structure FwImage where
  formOk : Bool
  key : Nat
  rollback : Nat
  fwVer : BitVec 32
  revokeFw : BitVec 4
  revokeBn : BitVec 8
  bkeys : List Bool
  sigOk : Bool
  digest : BitVec 256
  deriving DecidableEq, Repr

/-- What stands in one half of the boot flash: its bytes from the half's start, and whether the signature in them
verifies under the key they name (R480, R501; FIPS 205 decides it). -/
structure FlashImage where
  bytes : Bytes
  sigOk : Bool
  deriving DecidableEq, Repr

/-- What the boot ROM finds in the boot flash (R480); a flash without SFDP or below 8 MiB has `sfdp` false. -/
structure FlashRead where
  sfdp : Bool
  width : Nat
  addr4 : Bool
  primary : FlashImage
  secondary : FlashImage
  deriving DecidableEq, Repr

/-- The memories a scrubber or a fault names, with the codes of R486. -/
inductive MemKind where
  | staging
  | scratchpad
  | ground
  | context
  | firmware
  | hbm
  | bank
  deriving DecidableEq, Repr

/-- What an error in a stored unit is when the next read meets it: one bit, more than one, or, in HBM, one that
the stack's own on-die ECC corrects (R208, R219). -/
inductive Strike where
  | single
  | multi
  | onDie
  deriving DecidableEq, Repr

/-- A unit of memory in which an error has arisen: the memory, the pillow of a pillow's own memory, and the address
(physical, or counted over a pillow's staging buffers). -/
structure Struck where
  mem : MemKind
  pillow : Nat
  addr : Nat
  kind : Strike
  deriving DecidableEq, Repr

/-- A finished DMA burst: the transfer's place in the engine, and the errors that have arisen in the memories and
that its reads, or later ones, will meet (R208, R219). -/
structure BurstIn where
  xfer : Nat
  struck : List Struck := []
  deriving DecidableEq, Repr

/-- The instructions of the test access port (R509). -/
inductive TapIns where
  | idcode
  | bypass
  | sample
  | extest
  | clamp
  | highz
  deriving DecidableEq, Repr

/-- A row of codes or of deviations, sparse: (index, value); an unlisted index is 0. -/
abbrev SparseInt := List (Nat × Int)

/-- The commands and events of the BF4816, one constructor per row of spec/opcode_table.json. -/
inductive Instr where
  -- host commands: device and registers
  | devInfo (h : Hdr)
  | devReset (h : Hdr) (confirm : BitVec 32)
  | regRead (h : Hdr) (addr : BitVec 32) (count : Nat)
  | regWrite (h : Hdr) (addr : BitVec 32) (vals : List (BitVec 32))
  | hcDataRead (h : Hdr)
  | tbWpLoRead (h : Hdr)
  | pkPick0Read (h : Hdr)
  | qcCommit (h : Hdr) (pillow : Nat)
  | wrReq (h : Hdr) (pillow : Nat) (logical : Nat)
  | shqErrPop (h : Hdr) (ecc : WordEcc)
  | pwrReq (h : Hdr) (domain : Nat) (ungate : Bool)
  | frCtrlEnter (h : Hdr)
  | frCtrlLeave (h : Hdr)
  | secArm (h : Hdr) (key : BitVec 32)
  | secOpSeal (h : Hdr)
  | secOpRevoke (h : Hdr) (mask : BitVec 8)
  -- calibration
  | calRun (h : Hdr)
  | calRunEnd (t : Nat) (res : CalResult)
  | trimRead (h : Hdr) (offset length : Nat)
  | trimSnapshotReady (t : Nat)
  | trimWrite (h : Hdr)
  | trimWriteCheck (t : Nat)
  -- memory
  | mapCreate (h : Hdr) (asid op : Nat)
  | mapPage (h : Hdr) (p : MapPageParams)
  | mapPageDrainEnd (t : Nat) (tag : BitVec 32)
  | mapPin (h : Hdr) (asid op va size : Nat)
  | marchRun (h : Hdr) (target form index : Nat)
  | marchRunEnd (t : Nat) (fails : List Nat)
  -- weights
  | shardBeginManifest (h : Hdr) (handle : Nat)
  | shardBeginShard (h : Hdr) (handle index : Nat)
  | shardBeginDiscard (h : Hdr) (handle : Nat)
  | shardEnd (h : Hdr) (handle : Nat) (sigOk : Bool)
  | shardTimeout (t : Nat) (handle : Nat)
  | bundleCheckEnd (t : Nat) (handle : Nat)
  | redigestPass (t : Nat)
  | slotProgram (h : Hdr) (slot handle : Nat) (map : List Nat)
  | slotProgramEnd (t : Nat) (slot : Nat)
  | slotActivate (h : Hdr) (slot : Nat) (handle : Option Nat)
  | slotDrainEnd (t : Nat) (slot : Nat)
  | slotReprogramEnd (t : Nat) (slot : Nat)
  | slotRetire (h : Hdr) (slot : Nat)
  | slotRetireEnd (t : Nat) (slot : Nat)
  -- work
  | prickLoadOpen (h : Hdr) (prk size : Nat)
  | prickLoadData (h : Hdr) (prk offset : Nat) (data : Bytes)
  | prickLoadClose (h : Hdr) (prk : Nat)
  | prickLoadDiscard (h : Hdr) (prk : Nat)
  | jobAdmit (h : Hdr) (p : AdmitParams)
  | jobAdmitAccept (t : Nat) (template : Nat)
  | jobSubmit (h : Hdr) (p : SubmitParams)
  | partialCapture (h : Hdr) (p : SubmitParams) (capbuf mode : Nat)
  | jobAbortLoose (h : Hdr) (ctx : Nat)
  | jobAbortTemplate (h : Hdr) (template : Nat)
  | templateWithdrawn (t : Nat) (template : Nat)
  -- time base, streams, ports
  | tbConfig (h : Hdr) (p : TbConfigParams)
  | tbClaimClaim (h : Hdr) (unit : Option Nat) (action arg period target : Nat)
  | tbClaimRelease (h : Hdr) (unit : Nat)
  | streamOpen (h : Hdr) (p : StreamOpenParams)
  | streamClose (h : Hdr) (stream : Nat)
  | streamCloseEffect (t : Nat) (stream : Nat)
  | portConfigLink (h : Hdr) (p : LinkParams)
  | portConfigService (h : Hdr) (p : ServiceParams)
  | portConfigGates (h : Hdr) (p : GatesParams)
  -- house converter and Picot
  | hcConfigEnable (h : Hdr) (p : HcEnableParams)
  | hcConfigDisable (h : Hdr) (seq : Nat)
  | hcConfigMode (h : Hdr) (lp : Bool) (owTh : Nat)
  | hcSelfcal (h : Hdr)
  | hcSelfcalEnd (t : Nat) (res : CalResult)
  | hcReadData (h : Hdr)
  | hcReadConvert (h : Hdr) (ch : Nat) (opt : HcOpt)
  | hcReadUrgent (h : Hdr) (ch : Nat) (opt : HcOpt)
  | pkConfigEnable (h : Hdr) (streams : BitVec 16) (origin : Nat)
  | pkConfigDisable (h : Hdr)
  -- queues, firmware, attestation
  | queueFlush (h : Hdr) (q : Nat)
  | queueFlushEffect (t : Nat) (q : Nat)
  | queueDrop (h : Hdr) (q : Nat) (write : Bool) (writer : Nat)
  | fwUpdateOpen (h : Hdr) (length : Nat)
  | fwUpdateClose (h : Hdr) (image : Bool)
  | fwUpdateDiscard (h : Hdr)
  | flashWriteStageEnd (t : Nat) (ok : Bool)
  | attestForm (h : Hdr) (nonce : Bytes)
  | attestRead (h : Hdr) (offset : Nat)
  | dispatch (t : Nat) (ecc : WordEcc)
  -- the SDIO bus
  | cmd0 (t : Nat)
  | cmd5 (t : Nat)
  | cmd11 (t : Nat)
  | cmd19 (t : Nat)
  | mailboxWrite (t : Nat) (data : Bytes) (crcOk : Bool)
  | mailboxPacketEnter (t : Nat)
  | replyWindowRead (t : Nat) (n : Nat) (ecc : WordEcc)
  | transportByteWrite (t : Nat) (fn addr : Nat) (value : Byte)
  | f2BlockWrite (t : Nat) (data : Bytes) (crcOk : Bool)
  | f2BlockRead (t : Nat)
  | ioAbort (t : Nat) (fn : Nat) (inCmd : Bool)
  | ioReset (t : Nat)
  -- shuttle queues
  | packetEnter (t : Nat) (q : Nat)
  | errorEntryEnter (t : Nat) (cls : Nat)
  | hostNoteDrain (t : Nat)
  | recordMove (t : Nat) (pillow : Nat) (ecc : WordEcc)
  -- the time base
  | encoderCount (t : Nat) (a b : Bool)
  | indexPulse (t : Nat)
  | threadTriggerEdge (t : Nat) (pin : Nat) (rising : Bool)
  | pulseEnd (t : Nat) (pin : Nat)
  | encoderLoss (t : Nat) (pairs : BitVec 3)
  | encoderLossEnd (t : Nat)
  | stall (t : Nat)
  -- the pillows' work
  | stageReady (t : Nat) (pillow ctx stage : Nat)
  | saveComplete (t : Nat) (pillow : Nat)
  | restoreComplete (t : Nat) (pillow : Nat) (ecc : Ecc)
  | tokenConditioned (t : Nat) (pillow : Nat)
  | passComplete (t : Nat) (pillow : Nat) (noise : List (Nat × SparseInt))
  | epilogueWriteEnd (t : Nat) (pillow : Nat)
  | dmaBurstComplete (t : Nat) (pillow : Nat) (burst : BurstIn)
  | translationWalkEnd (t : Nat) (pillow asid va : Nat) (ecc : Ecc)
  | tattingInstructionEnd (t : Nat) (pillow : Nat)
  | setlen (t : Nat) (pillow : Nat)
  | fenceWaitEnd (t : Nat) (pillow : Nat)
  | windowWaitEnd (t : Nat) (pillow : Nat)
  | recordCommit (t : Nat) (pillow : Nat)
  | faultWaitExpiry (t : Nat) (ctx : Nat)
  -- the Ethernet ports
  | streamFrame (t : Nat) (port : Nat) (frame : Bytes)
  | linkDown (t : Nat) (link : LinkEvent)
  | linkUp (t : Nat) (link : LinkEvent)
  | arpRequest (t : Nat) (port : Nat) (frame : Bytes)
  | icmpEcho (t : Nat) (port : Nat) (frame : Bytes)
  | rasterPacket (t : Nat) (port : Nat) (frame : Bytes)
  | ptpMessage (t : Nat) (port : Nat) (frame : Bytes)
  | delayReq (t : Nat) (port : Nat)
  | ptpSyncTimeout (t : Nat)
  | gateEntryChange (t : Nat) (sp : Nat)
  -- Picot port and house converter events
  | picotSlotEnd (t : Nat) (picked : Bytes)
  | throwBurstEnd (t : Nat)
  | sequenceReady (t : Nat) (seq : Nat)
  | conversionEnd (t : Nat) (raw rawLo rawHi : BitVec 12)
  -- calibration in service
  | calibrationPass (t : Nat) (pillow bobbin : Nat) (codes noise : SparseInt)
  | dwellEnd (t : Nat) (pillow bobbin group : Nat) (res : List Meas)
  | levelScanEnd (t : Nat) (pillow bobbin : Nat) (means : List Int)
  | sealEpoch (t : Nat) (dev : Int)
  | ageRefreshRequest (t : Nat) (pillow logical : Nat)
  | refreshStart (t : Nat) (pillow : Nat)
  | bobbinProgrammingStart (t : Nat) (pillow : Nat)
  | bobbinProgrammingEnd (t : Nat) (pillow bobbin vfail iters : Nat)
  -- memory integrity, management, power, reset, thermal
  | sramScrub (t : Nat) (mem : MemKind) (pillow addr : Nat) (ecc : Ecc)
  | hbmScrub (t : Nat) (addr : Nat) (ecc : Ecc)
  | hbmLinkRetrain (t : Nat) (stack channel ns : Nat) (ok : Bool)
  | mgmtCoreFault (t : Nat) (core cause : Nat)
  | domainSwitched (t : Nat)
  | pwrgdFall (t : Nat)
  | nrstFall (t : Nat)
  | nrstRise (t : Nat)
  | strapLatch (t : Nat) (pkd : BitVec 8)
  | watchdog (t : Nat)
  | internalResetEnd (t : Nat)
  | thermalReading (t : Nat) (die : List Int) (hbm : List Int)
  | throttleStepFall (t : Nat)
  | thermalTrip (t : Nat)
  | thermalTripEnd (t : Nat)
  | pllLock (t : Nat) (marchOk : Bool)
  | firmwareLoadEnd (t : Nat) (flash : FlashRead)
  | firmwareInitEnd (t : Nat)
  -- test access port, and the rows the table lists last
  | debugToken (t : Nat) (device : BitVec 64) (challenge : BitVec 256) (key : Nat) (sigOk : Bool)
  | tapInstruction (t : Nat) (ins : TapIns)
  | ptpMasterLost (t : Nat)
  | frameTransmitEnd (t : Nat) (sp : Nat)
  | cmd3 (t : Nat)
  | cmd7 (t : Nat) (select : Bool)
  | cmd15 (t : Nat)
  | cccrWrite (t : Nat) (addr : Nat) (value : Byte)
  | transportByteRead (t : Nat) (fn addr : Nat)
  | tapReset (t : Nat)
  deriving DecidableEq, Repr

end Sys2Proof
end

