-- ==== Sys2Proof/Decode.lean ====
section
/-! DEFINITION. The decoder over the rows of spec/opcode_table.json that give bits. -/

namespace Sys2Proof

/-- The command a word of the table's bits spells. No row of the table gives any bits (the host
commands travel as packets, `Machine.packetCommand`), so no word spells a command. -/
def decodeTableWord (_nbits _w : Nat) : Option Instr := none

end Sys2Proof
end

