-- ==== Sys2Proof/Config.lean ====
section
/-! DEFINITION. What an implementation of the BF4816 fixes and the spec leaves open: opaque
constants without a body, so that no proof can lean on a value of them. -/

namespace Sys2Proof.Config

/-- The exp of the vector engine, R188, taken where it lies within 2 ulp of the exact value; the spec gives no
algorithm. The argument and the result are binary32 words. Assumption 9. -/
opaque expBits : BitVec 32 → BitVec 32

/-- The distance in places of the vector engine's reciprocal from the correctly rounded one, taken where the word lies
within 1 ulp of the exact value (R188). Assumption 9. -/
opaque recipUlp : BitVec 32 → Int

/-- The same for the reciprocal square root (R188). Assumption 9. -/
opaque rsqrtUlp : BitVec 32 → Int

/-- The bytes of the n-th SLH-DSA-SHAKE-128f signature the device makes (R506): the attestation
secret is held in unreadable fuses (R498). Assumption 10. -/
opaque quoteSignature : Nat → Bytes → Bytes

/-- The bytes of the identity record that the spec gives no value: DATE, AKEY and the signature
(R499). Assumption 10. -/
opaque identityByte : Nat → Byte

/-- The cells that a failed programming run did not accept, of those it could not (R80: the spec does not name
them). Assumption 12. -/
opaque missedCells : Nat → List Nat

/-- The n-th challenge of the TAP's token register (R510). Assumption 11. -/
opaque challenge : Nat → BitVec 256

/-- The level that a cell whose write was cut off holds (R470, R471: undefined). Assumption 12. -/
opaque cutCell : Nat → Nat

/-- Whether the calibration machinery converts at a device time inside a CAL_RUN or an HC_SELFCAL (bit 0), and the
channel (bits 5 to 1): the spec does not give the moments (R343, R364). Assumption 108. -/
opaque calConversion : Nat → BitVec 6

/-- The codes of the CCCR/FBR format and the SDIO version, CCCR byte 0: the SDIO specification's, which R384 names
without their values. Assumption 18. -/
opaque cccrVersion : BitVec 8

/-- The value that fills place i of a narrow block whose vector has too few outputs, from the vector's values: the spec
names the masked outputs alone (R125). Assumption 13. -/
opaque spillFill : List Int → Nat → BitVec 43

/-- A result the spec does not state, taken from a counter of the state. Assumption 13. -/
opaque freeWord : Nat → BitVec 64

end Sys2Proof.Config
end

