-- ==== Sys2Proof/Machine/State.lean ====
section
/-! DEFINITION. The state of the BF4816 as plain data, the reasons a step can stop, and the state
right after reset. Every field's default value is its value at reset; where the spec states none the
assumption log names the value (assumptions 1 to 8). Indexed parts are sparse tables (`Tbl`) whose
unlisted entries hold the part's reset value. -/

namespace Sys2Proof.Machine

/-! ## The time base (R13 to R36) -/

/-- A stitch compare unit, TB_CMPn (R27, R32). -/
structure CmpUnit where
  target : Nat := 0
  period : Nat := 0
  claimed : Bool := false
  armed : Bool := false
  action : Nat := 0
  arg : Nat := 0
  holder : Nat := 0
  deriving DecidableEq, Repr

/-- The snapshot registers of R22. -/
structure Snapshot where
  wp : Nat := 0
  ptp : Int := 0
  deriving DecidableEq, Repr

/-- Encoder, divider, web position, sheets and compare hits (R13 to R32). -/
structure TimeBase where
  encEn : Bool := false
  dirInv : Bool := false
  sheetSrc : Nat := 0
  sheetPin : Nat := 0
  filt : Nat := 0
  num : Nat := 1
  den : Nat := 1
  rep : Nat := 0
  acc : Nat := 0
  encA : Bool := false
  encB : Bool := false
  los : BitVec 3 := 0
  wp : Int := 0
  hwm : Nat := 0
  stall : Bool := false
  stallBase : Nat := 0
  encIllegal : Bool := false
  sheetOld : Bool := false
  overspeedSeen : Bool := false
  illegal : Nat := 0
  overspeed : Nat := 0
  stamps : List (Nat × Nat) := []
  snap : Snapshot := {}
  frozen : Option Snapshot := none
  deriving DecidableEq, Repr

/-- Sheet numbering and boundaries (R25, R26), and the unit or pin TB_CONFIG holds for them. -/
structure Sheets where
  sheet : Nat := 0
  sheetWp : Nat := 0
  bounds : List (Nat × Nat) := []
  indexPend : Bool := false
  threadPend : Bool := false
  unit : Option Nat := none
  pin : Option Nat := none
  hit : BitVec 64 := 0
  deriving DecidableEq, Repr

/-! ## THREAD pins and the Picot port (R449 to R467) -/

/-- A THREAD pin (R464 to R467). `pulse` is the device time at which the pulse in progress ends. -/
structure ThreadPin where
  width : Nat := 100
  pol : Bool := false
  role : Nat := 0
  level : Bool := false
  holder : Nat := 0
  users : Nat := 0
  seq : Nat := 0
  edgeWp : Nat := 0
  pulses : Nat := 0
  retrig : Nat := 0
  pulse : Option Nat := none
  deriving DecidableEq, Repr

/-- The frame in progress on the Picot port (R455, R456). `slot` is 0 pick-up, 1 turnaround A,
2 throw, 3 turnaround B; `burst` the time at which the burst in progress ends; `cut` marks a slot that a
stall ends at once (R463). -/
structure PkFrame where
  f : Nat
  slot : Nat
  start : Nat
  timer : Bool
  deferred : Bool
  burst : Option Nat
  cut : Bool
  deriving DecidableEq, Repr

/-- The Picot port (R455 to R463, R467). `lastBurst` is the burst last sent, CRC included. -/
structure Picot where
  en : Bool := false
  unit : Nat := 0
  stopping : Bool := false
  streams : BitVec 16 := 0
  frame : Option PkFrame := none
  deferred : Option Nat := none
  frames : Nat := 0
  frameWp : Nat := 0
  pick : Bytes := [0, 0, 0, 0, 0, 0, 0, 0]
  pickWp : Nat := 0
  pickFr : Nat := 0
  pickFrozen : Option (Bytes × Nat × Nat) := none
  buf : List Bytes := []
  lostSince : Bool := false
  statLost : Bool := false
  statOverrun : Bool := false
  statStalled : Bool := false
  statCut : Bool := false
  thrown : Nat := 0
  dropFull : Nat := 0
  dropFilt : Nat := 0
  deferredCnt : Nat := 0
  skipped : Nat := 0
  short : Nat := 0
  long : Nat := 0
  stallF : Nat := 0
  lastBurst : Bytes := []
  deriving DecidableEq, Repr

/-! ## Shuttle queues and error latches (R261 to R276) -/

/-- A packet in a shuttle queue: the header word's fields and the data bytes of its items (R262). -/
structure QPacket where
  prio : Nat
  writer : Nat
  tag : BitVec 32
  data : Bytes
  deriving DecidableEq, Repr

/-- One item of a packet as the queue holds it: the fields of its header word, and its data (R261, R262). -/
structure QItem where
  prio : Nat
  len : Nat
  first : Bool
  isLast : Bool
  writer : Nat
  tag : BitVec 32
  data : Bytes
  deriving DecidableEq, Repr

/-- The item of zeros that stands for the last item read after reset and after a flush (R266). -/
def noItem : QItem := { prio := 0, len := 0, first := false, isLast := false, writer := 0, tag := 0, data := [] }

/-- A shuttle queue (R261 to R271). `vis` holds the visible packets in the order their last items
entered; `part` is the packet partly read, with the bytes of it already delivered; `wait` the
packets of waiting writers; `wpart` an invisible partial packet with the number of its items that have entered;
`last` the last item read. -/
structure Queue where
  vis : List QPacket := []
  part : Option (QPacket × Nat) := none
  wait : List QPacket := []
  wpart : Option (QPacket × Nat) := none
  last : QItem := noItem
  flush : Bool := false
  flushReplies : List Hdr := []
  underrun : Bool := false
  fullSeen : Bool := false
  dropped : Nat := 0
  ce : Nat := 0
  ue : Nat := 0
  deriving DecidableEq, Repr

/-- An error-class latch (R272 to R274). `outside` holds while its entry waits for the queue. -/
structure Latch where
  held : Bool := false
  outside : Bool := false
  count : Nat := 0
  lost : Bool := false
  time : Nat := 0
  detail : Bytes := []
  deriving DecidableEq, Repr

/-- The error window SHQ_ERRW (R274, R276). -/
structure ErrWindow where
  cls : Nat := 0
  sev : Nat := 0
  lost : Bool := false
  valid : Bool := false
  count : Nat := 0
  time : Nat := 0
  detail : Bytes := []
  deriving DecidableEq, Repr

/-! ## The SDIO attachment (R379 to R401) -/

/-- The card states the CMD rows move between (SDIO 4.10, R379, R380). -/
inductive CardState where
  | idle
  | initialised
  | standby
  | selected
  | inactive
  deriving DecidableEq, Repr

/-- The function 2 transfer that is open (R392). `total` is none while a manifest's length is
unknown; `taken` counts the blocks moved; `buf` keeps the bytes received or to be read. -/
structure Xfer where
  kind : Nat
  handle : Nat
  index : Nat
  opcode : Nat
  hdr : Hdr
  total : Option Nat
  taken : Nat := 0
  buf : Bytes := []
  ready : Bool := false
  deriving DecidableEq, Repr

/-- What the card answered last on SD_CMD (R380, R383, R401): nothing, the relative address of CMD3,
CMD5's card-ready bit, number of functions, memory-present and S18A bits, a plain acknowledgement, R5 with its
OUT_OF_RANGE flag, or the CRC status of a written data block, positive or negative (R387, R393, R394). -/
inductive SdResp where
  | silent
  | address (rca : BitVec 16)
  | cmd5 (ready : Bool) (functions : Nat) (memory s18a : Bool)
  | ack
  | r5 (outOfRange : Bool)
  | crcStatus (good : Bool)
  deriving DecidableEq, Repr

/-- The card, its CCCR, and the transport bytes of functions 1 and 2 (R384, R391, R397). `mailbox` is the packet held
in the mailbox, and `mbxNext` that of a further write, which is answered with busy until the held one has entered
(R387). -/
structure Sdio where
  card : CardState := .idle
  rca : BitVec 16 := 0
  uhs : Bool := false
  tuned : Bool := false
  ioEnable : BitVec 8 := 0
  ioReady : BitVec 8 := 0
  intEnable : BitVec 8 := 0
  busWidth : Nat := 0
  speedSel : Nat := 0
  e4mi : Bool := false
  eai : Bool := false
  resp : SdResp := .silent
  mailbox : Option QPacket := none
  mbxNext : Option QPacket := none
  mbxBusy : Bool := false
  credit : Bool := false
  underrun : Bool := false
  noteLostFlag : Bool := false
  crcErr : Bool := false
  f1IntEn : BitVec 8 := 0
  creditTh : Nat := 8
  rplHi : Option Nat := none
  noteLost : Nat := 0
  noteHi : Option Nat := none
  crcCnt : Nat := 0
  readOut : Bytes := []
  notes : List QPacket := []
  deriving DecidableEq, Repr

/-- Function 2: the transfer and its transport bytes (R392 to R397). `bar` is the shard or manifest
that an excess block has closed and that its SHARD_END has still to answer; `arrived` the trim image and `image`
the boot image whose last block has come. -/
structure Bulk where
  xfer : Option Xfer := none
  bar : Option Xfer := none
  arrived : Option Xfer := none
  image : Option Xfer := none
  excess : Bool := false
  noxfer : Bool := false
  aborted : Bool := false
  closed : Bool := false
  intEn : BitVec 8 := 0
  remHi : Option Nat := none
  readOut : Bytes := []
  deriving DecidableEq, Repr

/-! ## Management: dispatcher, cores, device state (R404 to R417, R478, R487 to R492) -/

/-- A command packet the dispatcher has handed on (R412). -/
structure CmdPacket where
  prio : Nat
  tag : BitVec 32
  data : Bytes
  deriving DecidableEq, Repr

/-- The causes of a reset in force (R475). -/
inductive ResetSource where
  | nrst
  | devReset
  | watchdog
  | thermal
  deriving DecidableEq, Repr

/-- The dispatcher, the fast decoder and the management cores, and the device state. `cores` is bit
k for core k + 1 executing; `busy` the packet each core holds and has not accepted. -/
structure Mgmt where
  devState : Nat := 0
  prior : Nat := 0
  fatal : Nat := 0
  reset : Option ResetSource := none
  resetAt : Nat := 0
  fwStarted : Bool := false
  romMarchOk : Bool := false
  pllLocked : Bool := false
  cores : BitVec 4 := 0b0111
  standby : Bool := true
  busy : Tbl (Option CmdPacket) := []
  fast : List CmdPacket := []
  held : List CmdPacket := []
  testReplied : Bool := false
  nfSev : Nat := 7
  covered : Nat := 0
  maxInt : Nat := 0
  recomp : Nat := 0
  withdrawn : Nat := 0
  pilOut : BitVec 48 := 0
  deriving DecidableEq, Repr

/-! ## Power, security, thermal (R468 to R484, R498 to R513, R525 to R528) -/

/-- Power, straps and the switched domains (R449 to R453, R472 to R484). -/
structure Power where
  nrst : Bool := true
  pwrgd : Bool := true
  straps : BitVec 8 := 0
  latched : Bool := false
  causePin : Bool := true
  causeDev : Bool := false
  causeWd : Bool := false
  causeTh : Bool := false
  pwrgdLost : Bool := false
  bootFrom : Nat := 0
  bootErr : Nat := 0
  qspi4b : Bool := false
  qspiWidth : Nat := 0
  bootUs : Nat := 0
  initUs : Nat := 0
  reqDomain : Nat := 0
  reqUngate : Bool := false
  resDomain : Nat := 0
  switching : Option (Nat × Bool) := none
  refused : Bool := false
  reason : Nat := 0
  on : BitVec 314 := 0
  deriving DecidableEq, Repr

/-- Identity, keys, fuses, firmware update and attestation (R498 to R513). -/
structure Security where
  device : BitVec 64 := 0
  grade : Nat := 0
  step : Nat := 1
  fwVer : BitVec 32 := 0
  romVer : BitVec 32 := 0
  lock : Nat := 1
  floor : Nat := 0
  revFw : BitVec 4 := 0
  revBn : BitVec 8 := 0
  debug : Bool := false
  scanPins : Bool := false
  scanRefused : Bool := false
  tapIns : TapIns := .idcode
  fusePend : Bool := false
  runRb : Nat := 0
  runRevFw : BitVec 4 := 0
  runRevBn : BitVec 8 := 0
  bkeys : List Bool := []
  runDigest : BitVec 256 := 0
  upd : Nat := 0
  updImage : Option FwImage := none
  armed : Bool := false
  sigFail : Nat := 0
  rollback : Nat := 0
  challenge : Nat := 0
  quotes : Nat := 0
  quote : Bytes := []
  deriving DecidableEq, Repr

/-- The thermal monitor (R525 to R528). Temperatures are in 0.1 °C. -/
structure Thermal where
  die : List Int := [0, 0, 0, 0]
  dieMax : List Int := [-32768, -32768, -32768, -32768]
  hbm : List Int := [0, 0]
  step : Nat := 0
  source : Nat := 0
  rises : Nat := 0
  margin : Nat := 0
  ms : Nat := 0
  cool : Option Nat := none
  tripSince : Option Nat := none
  stepSince : Option Nat := none
  deriving DecidableEq, Repr

/-! ## The Ethernet ports (R277 to R306) -/

/-- A port: its LINK configuration and the NP group (R280, R306, R442). -/
structure Port where
  en : Bool := false
  fast : Bool := false
  fec : Nat := 0
  mac : Bytes := [0, 0, 0, 0, 0, 0]
  vid : Nat := 0
  ipv4 : Bytes := [0, 0, 0, 0]
  link : Bool := false
  linkLost : Bool := false
  hiBer : Bool := false
  downs : Nat := 0
  rxf : Nat := 0
  rxd : Nat := 0
  dup : Nat := 0
  txf : Nat := 0
  fecCorr : Nat := 0
  fecUncorr : Nat := 0
  stream : Option Nat := none
  icmp : List Nat := []
  deriving DecidableEq, Repr

/-- A line in progress: the 64 B units received, whether R215 refused it, and the receive stamp of the frame
that completed it (R286). -/
structure LineMap where
  line : Nat
  units : List Nat
  refused : Bool
  full : Option Nat
  deriving DecidableEq, Repr

/-- A stream, its binding, its ground-buffer window and landing state (R213 to R215, R284 to R289).
`landed` holds the landed lines that still stand in their slots, with their landing times, newest first. -/
structure Stream where
  bound : Bool := false
  primary : Nat := 0
  secondary : Option Nat := none
  camera : Nat := 0
  pixfmt : Nat := 0
  rport : Nat := 0
  udp : Nat := 0
  origin : Nat := 0
  sheetOfs : Nat := 0
  base : Nat := 0
  pitch : Nat := 0
  depth : Nat := 0
  claimed : Bool := false
  holder : Nat := 0
  next : Nat := 0
  inProg : List LineMap := []
  landed : List (Nat × Nat) := []
  lastRefused : Option Nat := none
  overrun : Nat := 0
  late : Nat := 0
  missing : Nat := 0
  badHdr : Nat := 0
  skew : Nat := 0
  closing : Option Hdr := none
  deriving DecidableEq, Repr

/-- A full record waiting for egress (R303, R304). -/
structure EgRec where
  bytes : Bytes
  pinned : Bool
  deriving DecidableEq, Repr

/-- A gate control list with its base time (R302). -/
structure GateList where
  entries : List GateEntry := []
  base : Nat := 0
  en : Bool := false
  deriving DecidableEq, Repr

/-- A frame waiting for egress that carries no record (R290, R294, R301): its class, its bytes on the wire, its
destination address and body, and the sequence number of a Delay_Req. -/
structure EgFrame where
  cls : Nat
  wire : Nat
  dst : Bytes
  body : Bytes
  req : Option Nat
  deriving DecidableEq, Repr

/-- A service port: SERVICE section, raster intake, gates and egress (R290 to R306). -/
structure Service where
  rasterUdp : Nat := 0
  asid : Nat := 0
  domain : Nat := 0
  pinClass : Nat := 6
  looseClass : Nat := 2
  intakeBase : Nat := 0
  intakeSize : Nat := 0
  dstMac : Bytes := [0, 0, 0, 0, 0, 0]
  maxRecs : Nat := 5
  dstIp : Bytes := [0, 0, 0, 0]
  srcUdp : Nat := 0
  dstUdp : Nat := 0
  raster : Option (BitVec 32) := none
  rbytes : Nat := 0
  rdone : Bool := false
  rshort : Nat := 0
  rbad : Nat := 0
  gates : GateList := {}
  staged : Tbl (Option GateEntry) := []
  pendingList : Option GateList := none
  seq : Nat := 0
  buf : List EgRec := []
  drop : Nat := 0
  sending : Bool := false
  lastTx : Bytes := []
  replies : List EgFrame := []
  deriving DecidableEq, Repr

/-- The PTP state of one service port (R294): its state, the grandmaster it takes and its rank, and the port
identity of the master that announces it. -/
structure PtpPort where
  state : Nat := 0
  master : Option (BitVec 64 × Nat) := none
  source : BitVec 80 := 0
  deriving DecidableEq, Repr

/-- The PTP servo (R21, R296). The PTP time at device time d is d + offset + ratio × (d − ref)
/ 2^40. `sync` is the two-step Sync that waits for its Follow_Up; `req` the send time of the last
Delay_Req and `syncPair` the last (origin, receive) pair; `reqNs` the interval that the master announces for
Delay_Req and `lastReq` the time of the last one. -/
structure Ptp where
  lock : Bool := false
  good : Nat := 0
  offset : Int := 0
  ratio : Int := 0
  ref : Nat := 0
  gm : BitVec 64 := 0
  mpd : Nat := 0
  lastSync : Nat := 0
  interval : Nat := 0
  sync : Option (Nat × Int × Nat) := none
  syncPair : Option (Int × Nat) := none
  req : Option (Nat × Nat) := none
  reqSeq : Nat := 0
  reqNs : Nat := 1_000_000_000
  lastReq : Option Nat := none
  deriving DecidableEq, Repr

/-! ## The house converter (R360 to R378) -/

/-- A channel's claim, options and window (R378). -/
structure HcChan where
  claimed : Bool := false
  seq : Nat := 0
  opt : HcOpt := { ext := 0, ow := 0, pullI := 0, pullDown := false }
  winEn : Bool := false
  holder : Nat := 0
  lo : Nat := 0
  hi : Nat := 4095
  deriving DecidableEq, Repr

/-- Where a sequence stands (R368, R369). -/
inductive SeqPhase where
  | idle
  | delay (until_ : Nat)
  | ready (since : Nat)
  | running (step : Nat)
  deriving DecidableEq, Repr

/-- A sequence (R366 to R370). `ending` holds while a disable waits for its last conversion. -/
structure HcSeq where
  en : Bool := false
  thread : Bool := false
  pin : Nat := 0
  edge : Nat := 0
  delay : Nat := 0
  steps : List Nat := []
  phase : SeqPhase := .idle
  trigWp : Nat := 0
  ending : Bool := false
  claimsPin : Bool := false
  runs : Nat := 0
  lost : Nat := 0
  deriving DecidableEq, Repr

/-- A conversion, in progress or waiting (R369, R373); `check` is the calibration machinery's conversion of the
reference DAC before a seal (R357). -/
inductive ConvKind where
  | step (seq : Nat) (i : Nat)
  | read (h : Hdr)
  | urgent (h : Hdr)
  | check
  deriving DecidableEq, Repr

/-- A conversion with its channel and options. `lp` and `owTh` are the mode and the probe threshold that it took
at its start (R362). -/
structure Conv where
  kind : ConvKind
  ch : Nat
  opt : HcOpt
  restarted : Bool := false
  start : Nat := 0
  lp : Bool := false
  owTh : Nat := 1024
  deriving DecidableEq, Repr

/-- HC_DATA and HC_DATA_WP (R371). -/
structure HcData where
  code : Nat := 0
  ch : Nat := 0
  seq : Nat := 0
  isOpen : Bool := false
  pull : Bool := false
  restarted : Bool := false
  lp : Bool := false
  overrun : Bool := false
  valid : Bool := false
  wp : Nat := 0
  frozenWp : Option Nat := none
  deriving DecidableEq, Repr

/-- The converter itself (R361 to R376). `fact` is HC_FACT0 to HC_FACT13 as signed values;
bit k of `factOk` says that factor k has been measured or restored. `selfcals` are the runs accepted during a run;
`checked` holds once the conversion of R357 for the seal now due has been made, and `checkFrom` is the time of the
last one that held a seal back. -/
structure House where
  lp : Bool := false
  owTh : Nat := 1024
  conv : Option Conv := none
  aborted : List Conv := []
  urgents : List Conv := []
  reads : List Conv := []
  selfcal : Option Hdr := none
  selfcals : List Hdr := []
  checked : Bool := false
  checkFrom : Nat := 0
  data : HcData := {}
  ovr : Nat := 0
  abort : Nat := 0
  owStat : BitVec 16 := 0
  wout : BitVec 16 := 0
  wcnt : Tbl Nat := []
  fact : List Int := [0, 32768, 0, 32768, 0, 0, 0, 0, 0, 0, 0, 0, 0, 0]
  factOk : BitVec 12 := 0
  deriving DecidableEq, Repr

/-! ## Calibration (R340 to R359) -/

/-- Device-wide calibration state and the TRIM block. `binds` pairs a sealed epoch with the sheet it
is bound to, newest first; `unbound` is a sealed epoch that waits for a boundary; `sealBase` is the time the seal
interval counts from (R356). -/
structure Trim where
  cal : Option Hdr := none
  calStart : Nat := 0
  calDone : Bool := false
  verdict : Bool := false
  restored : Bool := false
  holdPwr : Bool := true
  sealHeld : Bool := false
  sealMs : Nat := 1000
  driftTh : Nat := 48
  grpTh : Nat := 30
  epoch : Nat := 0
  bindSheet : Nat := 0
  bound : Bool := false
  unbound : Option Nat := none
  binds : List (Nat × Nat) := []
  kept : Nat := 0
  failBb : Nat := 0
  calUs : Nat := 0
  calPasses : Nat := 0
  refDev : Int := 0
  sealBase : Nat := 0
  sel : Nat := 0
  refGain : Option Int := none
  refOfs : Option Int := none
  vread : Tbl (Option Int) := []
  vreadKept : List Nat := []
  serviceOff : Bool := false
  deriving DecidableEq, Repr

/-! ## Model weights (R307 to R339) -/

/-- A staged bundle (R307 to R323). `units` are its 4 MiB units, `attempts` the failed attempts of each shard,
`timer` the time its shard timer last started, `checking` that the check of R313 runs, `checked` that it has
passed. -/
structure Bundle where
  state : Nat := 0
  id : BitVec 64 := 0
  model : Nat := 0
  shards : Nat := 0
  bodySize : Nat := 0
  units : List Nat := []
  digests : List (BitVec 256) := []
  verified : List Nat := []
  stale : List Nat := []
  attempts : Tbl Nat := []
  timer : Nat := 0
  checking : Bool := false
  checked : Bool := false
  deriving DecidableEq, Repr

/-- A target of a slot: one image on one logical bobbin of one placement pillow (R312). -/
structure Target where
  image : Nat
  ppil : Nat
  logical : Nat
  twin : Nat
  csum : Nat
  fmt : Nat
  rot : Nat
  kRows : Nat
  ncol : Nat
  ofs : Nat
  deriving DecidableEq, Repr

/-- A column-factor block of a slot (R312). -/
structure FactorBlock where
  ppil : Nat
  count : Nat
  base : Nat
  ofs : Nat
  deriving DecidableEq, Repr

/-- A model slot (R324 to R332). `left` lists the (physical pillow, logical bobbin) programmings
still to end; `hdr` the command whose reply is outstanding; `op` the opcode that put it here. -/
structure Slot where
  state : Nat := 0
  handle : Nat := 0
  next : Option Nat := none
  model : Nat := 0
  sheet : Nat := 0
  fromSheet : Nat := 0
  map : List Nat := []
  targets : List Target := []
  factors : List FactorBlock := []
  left : List (Nat × Nat) := []
  failedAt : Option (Nat × Nat) := none
  start : Nat := 0
  hdr : Option Hdr := none
  op : Nat := 0
  deriving DecidableEq, Repr

/-- The weight registers (R338); `redigestAt` is when the last re-digest pass started (R321). -/
structure Weights where
  shardTo : Nat := 2000
  redigest : Nat := 10
  ageH : Nat := 24
  staleCnt : Nat := 0
  retry : Nat := 0
  passes : Nat := 0
  redigestAt : Nat := 0
  deriving DecidableEq, Repr

/-! ## Memory management and memory registers (R200 to R237) -/

/-- A mapped page (R229, R230): its size, permissions and pin. -/
structure Page where
  asid : Nat
  va : Nat
  pa : Nat
  big : Bool
  r : Bool
  w : Bool
  pin : Bool
  deriving DecidableEq, Repr

/-- A page table: its level, address space, the virtual prefix it serves, and its byte offset in the
table pool (R231). -/
structure PTable where
  level : Nat
  asid : Nat
  pre : Nat
  ofs : Nat
  deriving DecidableEq, Repr

/-- A MAP_PAGE whose cache drop and drain have not ended (R233); `gone` holds once its address space has been
deleted. -/
structure MapPending where
  h : Hdr
  p : MapPageParams
  gone : Bool := false
  deriving DecidableEq, Repr

/-- A write of the current core cycle to a four-port memory (R205): its bytes, its port, the job that issued it, and
the 64 B words in which it has lost a byte. -/
structure CycleWrite where
  addr : Nat
  n : Nat
  port : Nat
  ctx : Option Nat
  lost : List Nat
  deriving DecidableEq, Repr

/-- Address spaces, tables and the MEM registers of R227 and R260. `hbmAcc` and `sramAcc` are the ns of scrubbing
in the passes under way, counted up to `scrubAt` (R209). `errs` lists the 8 B units whose stored bits hold an error
that no read has met; `cycle` the writes of the core cycle `cycleAt`; `marchWait` the writes that wait for the end of
a March test (R223). -/
structure MemSys where
  asids : List Nat := []
  pages : List Page := []
  tables : List PTable := []
  pendings : List MapPending := []
  faultWait : Nat := 100
  mirror : Nat := 0
  poison : List Nat := []
  errs : List (Nat × Strike) := []
  cycle : List CycleWrite := []
  cycleAt : Nat := 0
  marchWait : List (Nat × Bytes) := []
  march : Option (Hdr × Nat × Nat × Nat) := none
  marchFail : Bool := false
  marchForm : Nat := 0
  marchTarget : Nat := 0
  marchFails : Nat := 0
  marchAddr : Nat := 0
  gbBcw : Tbl Nat := []
  gbWcoll : Nat := 0
  gbPorts : BitVec 4 := 0
  eccCe : Tbl Nat := []
  eccUe : Tbl Nat := []
  hbmDie : Tbl Nat := []
  hbmH : Nat := 24
  sramMs : Nat := 1000
  hbmAcc : Nat := 0
  sramAcc : Nat := 0
  scrubAt : Nat := 0
  hbmPasses : Nat := 0
  sramPasses : Nat := 0
  csCols : Nat := 0
  fwCols : Nat := 0
  deriving DecidableEq, Repr

/-! ## Prickings, templates, jobs (R143 to R186, R435 to R437) -/

/-- A pricking number of the store (R434). -/
structure Prick where
  loaded : Bool
  size : Nat
  bytes : Tbl (Option Byte)
  deriving DecidableEq, Repr

/-- A patch row whose instances have been released and not all delivered (R33, R214). -/
structure PatchRow where
  first : Nat
  last : Nat
  sheet : Nat
  waiting : Nat
  deriving DecidableEq, Repr

/-- An admitted template (R435). `nextRow` is the first stitch of the next row to be released;
`ctxBase` the first of the `ctxCount` contexts reserved for it. -/
structure Template where
  p : AdmitParams
  accepted : Bool
  withdrawn : Bool
  hdr : Option Hdr
  ctxs : List Nat
  nextRow : Nat
  rowIdx : Nat
  rows : List PatchRow
  reply : Bytes
  deriving DecidableEq, Repr

/-- The progress of one stage of a job (R147, R148, R153). -/
inductive StagePhase where
  | waiting
  | ready
  | running
  | suspended
  | stopped
  | done
  deriving DecidableEq, Repr

/-- A stage of a job: where it runs and when it becomes ready. -/
structure StageSt where
  pillow : Nat
  phase : StagePhase := .waiting
  readyAt : Nat := 0
  deadline : Nat := 0
  deriving DecidableEq, Repr

/-- A job context (R148, R163, R250): identity, run-time lengths, fence counters (by pillow and
counter), window line counters with the lines completed above LANDED, and the figures its records carry.
`len0` holds the lengths at release or submission; `zeroed` says that a later one was 0 (R168).
`dead` marks an aborted job whose record is still due; `faults` counts the faults of R495; `qkeys` the
scale sets in force at its first stage on a pillow without sheet boundaries (R109); `spills` the spill
vectors that wait for a stage (8 × stage + spill stage, R123); `figures` EPOCH and MODEL of its records once the
compact one has entered its queue (R269). -/
structure Job where
  pinned : Bool
  template : Nat
  inst : Nat
  stream : Nat
  prk : Nat
  asid : Nat
  seed : BitVec 32
  sr : Nat
  tRel : Nat
  tLast : Nat
  firstLine : Int
  deadline : Nat
  sheet : Nat
  slotTag : Nat
  recTag : BitVec 32
  port : Nat
  order : Nat
  ctxIdx : Nat
  map : List Nat
  len : List Nat
  len0 : List Nat := []
  zeroed : Bool := false
  clamp : BitVec 4 := 0
  fences : Tbl Nat := []
  landedCnt : Tbl Nat := []
  released : Tbl Nat := []
  stages : Tbl StageSt := []
  capBuf : Nat := 0
  capMode : Nat := 0
  tokens : Nat := 0
  result : Nat := 0
  empty : Bool := false
  offline : Bool := false
  clip : Nat := 0
  outsat : Nat := 0
  repeats : Nat := 0
  satKept : Nat := 0
  occ : Tbl (Int × Int) := []
  degenerate : Bool := false
  nonfinite : Bool := false
  wcoll : Bool := false
  recomputed : Bool := false
  worked : Bool := false
  epochs : List Nat := []
  overspeed : Bool := false
  lineLag : Bool := false
  withdrawn : Bool := false
  dead : Bool := false
  faults : Nat := 0
  qkeys : Tbl Nat := []
  spills : Tbl Nat := []
  figures : Option (Nat × Nat) := none
  ahead : Tbl (List Nat) := []
  aborting : Option Hdr := none
  deriving DecidableEq, Repr

/-! ## A pillow (R55 to R260) -/

/-- A bobbin's values in one trim epoch: converter offsets (4 × converter + range) and the bobbin
factor (R68, R340). -/
structure TrimSet where
  epoch : Nat
  o : Tbl Int
  k : Nat
  deriving DecidableEq, Repr

/-- A physical bobbin (R55 to R87) with its calibration figures (R348, R352 to R355). `cells` holds
the programmed levels by 1040 × row + cell; `u` the out-of-service converter of each group and whether
it steps upward; `sets` the trims by epoch, newest first, `live` the (sheet, epoch) pairs it holds, at
most two, newest first; `blocked` and `adoptFrom` are R54's wait for a sheet's release. `sumP` and
`grpP` keep the sums of R354 apart by the K they were taken under (65536 × group + K). `offs` (4 × converter +
range), `lin` (4 × converter + bit) and `g0` hold the values of R340's classes: where `valued` holds, an unlisted
element has its nominal value (0, 32, 16,384), else none. `pendO` and `pendLin` keep what the visits
since the last seal found, summed, and their count; `kNow` is K in the newest sealed epoch or restored.
`calFailed` and `dead` are the two causes of FAILED: a CAL_RUN (R344), and anything else (R80, R335), which only a
later successful programming mends. `mapped` says that the bobbin has its place in the map, or had it when it
failed. `scanP` and `scanN` are the sums P_g (16 × g + level) and the passes by level of the level scan under way
(R354). `made` counts passes of any kind, `dwell` keeps it as it stood at a group's last step (R352). `pathGain` and
`convOfs` are properties of the part that R67 names. -/
structure Bobbin where
  state : Nat := 6
  w4 : Bool := false
  logical : Nat := 0
  mapped : Bool := true
  slot : Nat := 0
  vfail : Nat := 0
  iterMax : Nat := 0
  progFail : Bool := false
  u : Tbl (Nat × Bool) := []
  fuse : Tbl (Option Nat) := []
  passes : Nat := 0
  satpass : Nat := 0
  cells : Tbl Nat := []
  staging : Tbl Byte := []
  stagePoison : List Nat := []
  stageErrs : List (Nat × Strike) := []
  sets : List TrimSet := []
  live : List (Nat × Nat) := []
  blocked : Bool := false
  adoptFrom : Nat := 0
  valued : Bool := false
  lin : Tbl (Option Int) := []
  offs : Tbl (Option Int) := []
  g0 : Tbl (Option Int) := []
  kNow : Option Nat := none
  pendO : Tbl (Int × Nat) := []
  pendLin : Tbl (Int × Nat) := []
  pendK : Option Nat := none
  sumE : Nat := 0
  sumP : Tbl Nat := []
  grpE : Tbl Nat := []
  grpP : Tbl Nat := []
  refRec : List (Int × Int) := []
  bad : Tbl Nat := []
  strikes : Tbl Nat := []
  grpDev : Nat := 0
  k0 : Nat := 16384
  drift : Nat := 0
  base : List Int := []
  scans : List (List Int) := []
  made : Nat := 0
  dwell : Tbl Nat := []
  progCount : Nat := 0
  programmed : Bool := false
  calFailed : Bool := false
  dead : Bool := false
  kept : List Nat := []
  scanP : Tbl Int := []
  scanN : Tbl Nat := []
  progTime : Nat := 0
  image : Option Target := none
  pathGain : Tbl Nat := []
  convOfs : Tbl Int := []
  deriving DecidableEq, Repr

/-- A refresh request (R333): its source (1 to 4), its logical bobbin and the age that orders it. -/
structure RefreshReq where
  source : Nat
  logical : Nat
  age : Nat
  deriving DecidableEq, Repr

/-- A bobbin programming asked for and not ended (R81). `forSlot` is none for a refresh; `stopped` holds for one
that stops at the end of its row (R323, R331, R335), `cut` for one that a fall of PWRGD has stopped (R471). -/
structure ProgReq where
  bobbin : Nat
  logical : Nat
  forSlot : Option Nat
  target : Target
  handle : Nat
  started : Bool
  stopped : Bool := false
  cut : Bool := false
  deriving DecidableEq, Repr

/-- A scratchpad window SWn (R210 to R212). -/
structure SpWindow where
  base : Nat := 0
  pitch : Nat := 0
  depth : Nat := 0
  claimed : Bool := false
  pinned : Bool := false
  holder : Nat := 0
  owner : Nat := 0
  deriving DecidableEq, Repr

/-- An entry of the translation cache (R234). `fresh` marks one that a walk has filled and no access has used yet: the
access that waited for the walk is its first, and no hit. -/
structure TcEntry where
  asid : Nat
  va : Nat
  big : Bool
  locks : List Nat
  fresh : Bool := false
  deriving DecidableEq, Repr

/-- A scale set of a static descriptor: code step and zero point (R94, R109). -/
structure ScaleSet where
  scale : BitVec 32
  zq : Nat
  deriving DecidableEq, Repr

/-- An entry of the quantisation-descriptor table (R94, R109). `live` pairs the scale sets it holds with
their keys, newest first: 2^32 × the sheet they bound to + the count of bindings. -/
structure QEntry where
  owner : Nat
  index : Nat
  bytes : Bytes
  live : List (Nat × ScaleSet)
  deriving DecidableEq, Repr

/-- An entry of the epilogue or activation tables placed by the loader (R132, R145). -/
structure EEntry where
  owner : Nat
  index : Nat
  bytes : Bytes
  deriving DecidableEq, Repr

/-- A fault of one unit of a stage (R242, R245, R250): unit 0 conditioner, 1 epilogue, 2 tatting, 3 DMA,
4 tile index; `win` marks an access through a scratchpad window (R211). -/
structure FaultRec where
  va : Nat
  kind : Nat
  unit : Nat
  write : Bool
  asid : Nat
  win : Bool := false
  deriving DecidableEq, Repr

/-- A token that has passed the conditioner (R90, R92): its position (the indices of the six levels and
the token within its tile), its masking, its reduction length, the half of the staging buffers its codes
stand in, the code step and zero point its epilogue uses; for a degenerate token its constant as
significand and exponent (R106). -/
structure StagedTok where
  idx : List Nat
  tok : Nat
  masked : Bool
  k : Nat
  half : Nat
  scale : BitVec 32
  zq : Int
  degen : Option (Int × Int)
  deriving DecidableEq, Repr

/-- A vector on its way through the epilogue (R133, R138): its values T or D in column order, the
exponent of a degenerate token's factor, and the leaves to be captured with the token's number (65,536 ×
leaf + column). `accs` holds the accumulators retained until the write has completed (R138, R250), and `zq` the zero
point. -/
structure EpiVec where
  idx : List Nat
  tok : Nat
  masked : Bool
  scale : BitVec 32
  vals : List Int
  degen : Option Int
  caps : Option (Nat × Tbl Int)
  accs : List Int := []
  zq : Int := 0
  deriving DecidableEq, Repr

/-- A DMA transfer in the engine (R238, R240): its operation, the indices of its iteration, the
bytes of it that have moved, and the lengths and line table it runs with (R164, R174). -/
structure DmaXfer where
  op : Nat
  idx : List Nat
  ofs : Nat
  async : Bool
  fault : Option FaultRec
  lens : List Nat := []
  tab : List Nat := []
  deriving DecidableEq, Repr

/-- The conditioner's partial state on a token (R93): whether the second read of R92 is under way, the values read, the
running minimum and maximum, the first value and the constancy flag. -/
structure Cond where
  second : Bool
  pos : Nat
  lo : BitVec 32
  hi : BitVec 32
  first : Nat
  same : Bool
  deriving DecidableEq, Repr

/-- What a stage that has been asked to stop has still under way before it can leave (R39, R245, R248): a pass, an
epilogue write, a DMA burst, a tatting instruction; `cond` says that the conditioner may still finish its token. -/
structure Stop where
  pass : Bool := false
  epi : Bool := false
  burst : Bool := false
  instr : Bool := false
  cond : Bool := false
  deriving DecidableEq, Repr

/-- The live state of one stage on a pillow (R185, R198, R212, R246): what a state bank holds. `next`
is the position the conditioner or the tatting unit stands at; `wave`, `low`, `attempt` and `rep` the
pass due next of the first staged token; `hi` the held high-nibble partials by logical bobbin; `acc`
and `csum` the accumulators by column (lanes or matrix accumulators of a TAT operation); `again` the
staged tokens that a resume conditions a second time; `tau` numbers the tokens whose leaves a capture or
replay takes; `scal` the tatting scalars; `waitWin` the
window, line and direction waited for; `lens` and `tab` the lengths and the line table of the operation in progress
(R164, R174); `cond` the conditioner's partial state that a resume takes up (R93, R248); `stop` what a stage asked to
stop still finishes. -/
structure Run where
  ctx : Nat
  stage : Nat
  op : Nat := 0
  started : Bool := false
  next : Option (List Nat × Nat) := none
  staged : List StagedTok := []
  half : Nat := 0
  again : Nat := 0
  wave : Nat := 0
  low : Bool := false
  attempt : Nat := 0
  rep : List Nat := []
  hi : Tbl (List Int) := []
  acc : Tbl Int := []
  csum : Tbl Int := []
  leaves : Tbl Int := []
  tau : Nat := 0
  epi : List EpiVec := []
  dma : List DmaXfer := []
  turn : Nat := 0
  tatRead : Nat := 1
  tatPos : Nat := 0
  scal : List Int := []
  waitWin : Option (Nat × Int × Bool) := none
  waitFence : Bool := false
  waitSince : Nat := 0
  fault : Option FaultRec := none
  lens : List Nat := []
  tab : List Nat := []
  cond : Option Cond := none
  stop : Option Stop := none
  deriving DecidableEq, Repr

/-- A save slot in use: the stage saved and its live state (R249, R250). -/
structure Saved where
  slot : Nat
  run : Run
  suspended : Bool
  since : Nat
  bytes : Nat
  deriving DecidableEq, Repr

/-- The counters and monitors of a pillow's register maps (R111, R142, R186, R199, R226, R259). -/
structure PilCnt where
  qcJobs : Nat := 0
  qcClip : Nat := 0
  qcCoarse : Nat := 0
  qcDegen : Nat := 0
  qcNonfin : Nat := 0
  aeRepeat : Nat := 0
  aeSatKept : Nat := 0
  aeSpillW : Nat := 0
  aeSpillN : Nat := 0
  aeExpMax : Nat := 0
  aeOutsat : Nat := 0
  sqSkip : Nat := 0
  sqMasked : Nat := 0
  sqTrunc : Nat := 0
  sqWinWait : Nat := 0
  sqFenceWait : Nat := 0
  sqEmpty : Nat := 0
  ttVecNs : Nat := 0
  ttMatNs : Nat := 0
  ttOutsat : Nat := 0
  ttNonfin : Nat := 0
  ttPreempt : Nat := 0
  deriving DecidableEq, Repr

/-- The memory and translation counters of a pillow (R226, R259). -/
structure PilMem where
  bcw : Tbl Nat := []
  wcoll : Nat := 0
  ports : BitVec 4 := 0
  spCe : Nat := 0
  spUe : Nat := 0
  sgCe : Nat := 0
  sgUe : Nat := 0
  ptHit : Nat := 0
  ptMiss : Nat := 0
  ptWalkNs : Nat := 0
  ptAborts : Nat := 0
  ptPreempt : Nat := 0
  saveMax : Nat := 0
  restoreMax : Nat := 0
  deriving DecidableEq, Repr

/-- The conditioner's staging and monitor registers (R109 to R111); `gen` counts the pending sets that
have bound. -/
structure QcRegs where
  desc : Nat := 0
  scale : BitVec 32 := 0
  zq : Nat := 0
  refused : Bool := false
  sheet : Nat := 0
  monDesc : Nat := 0
  gen : Nat := 0
  thresh : Nat := 64
  pend : Tbl (Option ScaleSet) := []
  deriving DecidableEq, Repr

/-- A pillow. `map` sends logical to physical bobbins; `alt` is the RETIRING bobbin and the logical bobbin it still
serves; `spareFailed` holds while the pillow has no spare because it is FAILED. `readyQ` holds the ready pinned
stages, `looseQ` the ready loose ones, as (context, stage). -/
structure Pillow where
  map : Tbl Nat := []
  spare : Option Nat := some 16
  alt : Option (Nat × Nat) := none
  swapSheet : Nat := 0
  spareLost : Nat := 0
  spareFailed : Bool := false
  bobbins : Tbl Bobbin := []
  progs : List ProgReq := []
  refresh : List RefreshReq := []
  refreshing : Option RefreshReq := none
  wrDone : Nat := 0
  looseEn : Bool := true
  taint : Bool := false
  readyQ : List (Nat × Nat) := []
  looseQ : List (Nat × Nat) := []
  run : Option Run := none
  standby : Option Run := none
  bankPoison : Option Nat := none
  saving : Option Saved := none
  restoring : Option Saved := none
  saves : List Saved := []
  tc : List TcEntry := []
  windows : Tbl SpWindow := []
  qdesc : Tbl (Option QEntry) := []
  edesc : Tbl (Option EEntry) := []
  act : Tbl (Option EEntry) := []
  csum : Tbl (Int × Int) := []
  cfac : Tbl (BitVec 32 × BitVec 32) := []
  qc : QcRegs := {}
  cnt : PilCnt := {}
  mem : PilMem := {}
  deriving DecidableEq, Repr

/-! ## Stopping -/

/-- Why the machine stops with a fault. -/
inductive Fault where
  /-- Raised by no command of this model: kept for an access outside the device's memory map (R217),
  which every operation here rules out before it is made. Safe. -/
  | badAddress
  deriving DecidableEq, Repr

/-- Why a command has no meaning. -/
inductive Refusal where
  /-- Raised by an arm of `exec` whose row has no meaning yet. Safe. -/
  | notModelled (mnemonic : String)
  deriving DecidableEq, Repr

/-! ## The whole state -/

/-- The state of the block: device time, the commands waiting, and every part above. `mem` is the
physical memory of R217 by byte address; `fwMem` the firmware memory. `free` counts the free values
drawn. -/
structure State where
  now : Nat
  pending : List Instr
  tb : TimeBase
  sheets : Sheets
  units : Tbl CmpUnit
  pins : Tbl ThreadPin
  pk : Picot
  queues : Tbl Queue
  latches : Tbl Latch
  errw : ErrWindow
  sdio : Sdio
  bulk : Bulk
  mgmt : Mgmt
  power : Power
  sec : Security
  therm : Thermal
  ports : Tbl Port
  streams : Tbl Stream
  services : Tbl Service
  ptpPorts : Tbl PtpPort
  ptp : Ptp
  chans : Tbl HcChan
  seqs : Tbl HcSeq
  hc : House
  trim : Trim
  bundles : Tbl Bundle
  slots : Tbl Slot
  wt : Weights
  mem : List Host.Cell
  fwMem : List Host.Cell
  ms : MemSys
  pricks : Tbl (Option Prick)
  templates : Tbl (Option Template)
  jobs : Tbl (Option Job)
  order : Nat
  pillows : Tbl Pillow
  free : Nat
  deriving DecidableEq, Repr

/-- The device right after a reset ends: state 0, nothing listed anywhere, every register at its
reset value (R475 to R478). -/
def State.reset : State where
  now := 0
  pending := []
  tb := {}
  sheets := {}
  units := []
  pins := []
  pk := {}
  queues := []
  latches := []
  errw := {}
  sdio := {}
  bulk := {}
  mgmt := {}
  power := {}
  sec := {}
  therm := {}
  ports := []
  streams := []
  services := []
  ptpPorts := []
  ptp := {}
  chans := []
  seqs := []
  hc := {}
  trim := {}
  bundles := []
  slots := []
  wt := {}
  mem := []
  fwMem := []
  ms := {}
  pricks := []
  templates := []
  jobs := []
  order := 0
  pillows := []
  free := 0

end Sys2Proof.Machine
end

