-- ==== Sys2Proof/Machine/Ops.lean ====
section
/-! DEFINITION. The named operations on the sparse tables, on bytes, bits and memory, and the one
accessor of every indexed part of the state. -/

namespace Sys2Proof.Machine

/-- What a meaning answers. -/
abbrev Out := Host.Outcome State Fault Refusal

/-! ## Sparse tables -/

/-- The entry of key k; an unlisted key holds its default. -/
def tget {α : Type} (d : Nat → α) : Tbl α → Nat → α
  | [], k => d k
  | (j, v) :: t, k => if j = k then v else tget d t k

/-- Lists the entry of key k in rising order, in place of an older one. -/
def tput {α : Type} (k : Nat) (v : α) : Tbl α → Tbl α
  | [] => [(k, v)]
  | (j, w) :: t =>
    if k < j then (k, v) :: (j, w) :: t
    else if j = k then (k, v) :: t
    else (j, w) :: tput k v t

/-- Removes the entry of key k. -/
def tdel {α : Type} (k : Nat) : Tbl α → Tbl α
  | [] => []
  | (j, w) :: t => if j = k then tdel k t else (j, w) :: tdel k t

/-- Writes the entry of key k; an entry equal to its default is not listed. -/
def tset {α : Type} [DecidableEq α] (d : Nat → α) (k : Nat) (v : α) (t : Tbl α) : Tbl α :=
  if v = d k then tdel k t else tput k v t

/-- The canonical form of a table: keys strictly rising above `lo`, no entry equal to its default. -/
def tblWfFrom {α : Type} [DecidableEq α] (d : Nat → α) : Option Nat → Tbl α → Bool
  | _, [] => true
  | lo, (j, v) :: t =>
    (match lo with
      | none => true
      | some l => decide (l < j)) && decide (v ≠ d j) && tblWfFrom d (some j) t

/-- The canonical form of a table. -/
def tblWf {α : Type} [DecidableEq α] (d : Nat → α) (t : Tbl α) : Bool := tblWfFrom d none t

/-! ## Numbers, bits and bytes (R5 to R7) -/

/-- The bits [lo + w − 1 : lo] of v. -/
def bitsOf (lo w v : Nat) : Nat := v / 2 ^ lo % 2 ^ w

/-- Bit i of v. -/
def bitOf (i v : Nat) : Bool := v / 2 ^ i % 2 == 1

/-- A field of width w placed at bit lo. -/
def fld (lo w v : Nat) : Nat := v % 2 ^ w * 2 ^ lo

/-- A flag placed at bit lo. -/
def flag (lo : Nat) (b : Bool) : Nat := if b then 2 ^ lo else 0

/-- A count that saturates at `top`. -/
def satAdd (top v d : Nat) : Nat := min top (v + d)

/-- ⌈a / b⌉. -/
def ceilDiv (a b : Nat) : Nat := (a + b - 1) / b

/-- The n low bytes of v, little-endian (R6). -/
def leBytes : Nat → Nat → Bytes
  | 0, _ => []
  | n + 1, v => BitVec.ofNat 8 v :: leBytes n (v / 256)

/-- The n low bytes of v, most significant first, as the published network headers have them. -/
def beBytes (n v : Nat) : Bytes := (leBytes n v).reverse

/-- The unsigned number of a little-endian octet string. -/
def leNat : Bytes → Nat
  | [] => 0
  | b :: r => b.toNat + 256 * leNat r

/-- The unsigned number of a big-endian octet string. -/
def beNat (b : Bytes) : Nat := leNat b.reverse

/-- Two's complement of width w (R7). -/
def toSigned (w v : Nat) : Int :=
  if v % 2 ^ w < 2 ^ (w - 1) then (v % 2 ^ w : Nat) else (v % 2 ^ w : Nat) - (2 ^ w : Nat)

/-- The w-bit pattern of a signed number (R7). -/
def ofSigned (w : Nat) (v : Int) : Nat := (v % (2 ^ w : Nat)).toNat

/-- An integer in w bits of two's complement. -/
def wrapTo (w : Nat) (v : Int) : Int := toSigned w (ofSigned w v)

/-- `len` bytes from offset `ofs`; bytes past the end read 0. -/
def sliceBytes (ofs len : Nat) (b : Bytes) : Bytes :=
  ((b.drop ofs).take len) ++ List.replicate (len - ((b.drop ofs).take len).length) 0

/-- The little-endian number of `len` bytes at `ofs`. -/
def numAt (ofs len : Nat) (b : Bytes) : Nat := leNat ((b.drop ofs).take len)

/-- The signed little-endian number of `len` bytes at `ofs`. -/
def intAt (ofs len : Nat) (b : Bytes) : Int := toSigned (8 * len) (numAt ofs len b)

/-- n zero bytes. -/
def zeros (n : Nat) : Bytes := List.replicate n 0

/-- Entry i of a list of numbers, 0 past its end. -/
def nth (l : List Nat) (i : Nat) : Nat := l.getD i 0

/-- Replaces entry i of a list. -/
def setNth {α : Type} : List α → Nat → α → List α
  | [], _, _ => []
  | _ :: t, 0, v => v :: t
  | x :: t, i + 1, v => x :: setNth t i v

/-- Whether n lies in [lo, hi]. -/
def inRange (lo n hi : Nat) : Bool := decide (lo ≤ n) && decide (n ≤ hi)

/-- The numbers 0 to n − 1 that meet p. -/
def indices (n : Nat) (p : Nat → Bool) : List Nat := (List.range n).filter p

/-- The lowest number below n that meets p. -/
def lowest (n : Nat) (p : Nat → Bool) : Option Nat := (List.range n).find? p

/-- Rounds a / b to the nearest integer, halves to even (R7, R68); b is positive. -/
def roundHalfEven (a : Int) (b : Nat) : Int :=
  let q := a / (b : Int)
  let r := a % (b : Int)
  if 2 * r < b then q
  else if 2 * r > b then q + 1
  else if q % 2 = 0 then q else q + 1

/-- Rounds a / b to the nearest integer, halves away from zero; b is positive. -/
def roundHalfAway (a : Int) (b : Nat) : Int :=
  if 0 ≤ a then (2 * a + b) / (2 * (b : Int)) else -((2 * (-a) + b) / (2 * (b : Int)))

/-- Holds v to [lo, hi]. -/
def clampInt (lo hi v : Int) : Int := max lo (min hi v)

/-! ## Memory (R200, R217) -/

/-- What a byte of memory that nothing has written reads as: firmware initialisation writes every
memory with zeros (R483). Before that the spec gives nothing: DESIGN CHOICE, assumption 3. -/
def memDefault (_ : Nat) : Byte := 0

/-- The canonical form of a memory. -/
def Memory.wf (m : List Host.Cell) : Bool := tblWf memDefault m

/-- Reads one byte. -/
def memByte (m : List Host.Cell) (a : Nat) : Byte := tget memDefault m a

/-- Writes one byte. -/
def memPut (m : List Host.Cell) (a : Nat) (v : Byte) : List Host.Cell := tset memDefault a v m

/-- Reads n bytes from a. -/
def memRead (m : List Host.Cell) (a n : Nat) : Bytes := (List.range n).map fun i => memByte m (a + i)

/-- Writes a run of bytes from a. -/
def memWrite (m : List Host.Cell) (a : Nat) : Bytes → List Host.Cell
  | [] => m
  | b :: r => memWrite (memPut m a b) (a + 1) r

/-- Drops every byte of [lo, hi): the bytes read as nothing had written them. -/
def memClear (m : List Host.Cell) (lo hi : Nat) : List Host.Cell :=
  m.filter fun c => decide (c.1 < lo) || decide (hi ≤ c.1)

/-- Fills [lo, lo + n) with one byte. -/
def memFill (m : List Host.Cell) (lo n : Nat) (v : Byte) : List Host.Cell :=
  m.filter (fun c => decide (c.1 < lo)) ++ ((List.range n).filterMap fun i =>
      if v = memDefault (lo + i) then none else some (lo + i, v))
    ++ m.filter fun c => decide (lo + n ≤ c.1)

/-- What a byte of the firmware memory that nothing has written since the boot ROM's destructive test reads as
(R221, R479). Before that test the spec gives nothing: DESIGN CHOICE, assumption 3. -/
def fwDefault (_ : Nat) : Byte := 0x55

/-- The canonical form of the firmware memory. -/
def Firmware.wf (m : List Host.Cell) : Bool := tblWf fwDefault m

/-- Reads one byte of the firmware memory. -/
def State.fwByte (s : State) (a : Nat) : Byte := tget fwDefault s.fwMem a

/-- Reads one byte of the physical memory of R217. -/
def State.byteAt (s : State) (a : Nat) : Byte := memByte s.mem a

/-- Writes a run of bytes at physical address a; a full write of a unit makes its check bits anew and clears its
poison (R208). -/
def State.store (a : Nat) (b : Bytes) (s : State) : State :=
  let whole (u : Nat) : Bool := decide (a ≤ u) && decide (u + 8 ≤ a + b.length)
  { s with
    mem := memWrite s.mem a b
    ms := { s.ms with
      poison := s.ms.poison.filter fun u => !whole u
      errs := s.ms.errs.filter fun u => !whole u.1 } }

/-- Makes the check bits of [lo, hi) valid: no poisoned mark, no error. -/
def State.unpoison (lo hi : Nat) (s : State) : State :=
  let out (u : Nat) : Bool := decide (u < lo) || decide (hi ≤ u)
  { s with ms := { s.ms with
    poison := s.ms.poison.filter out
    errs := s.ms.errs.filter fun u => out u.1 } }

/-- [lo, lo + n) holds zeros with valid check bits (R473). -/
def State.wipe (lo n : Nat) (s : State) : State :=
  { (s.unpoison lo (lo + n)) with mem := memClear s.mem lo (lo + n) }

/-- [lo, lo + n) holds one byte throughout, with valid check bits (R221). -/
def State.fill (lo n : Nat) (v : Byte) (s : State) : State :=
  { (s.unpoison lo (lo + n)) with mem := memFill s.mem lo n v }

/-- Reads n bytes at physical address a. -/
def State.load (s : State) (a n : Nat) : Bytes := memRead s.mem a n

/-- Whether a poisoned 8 B unit (R208) meets [a, a + n). -/
def State.poisonIn (s : State) (a n : Nat) : Option Nat :=
  s.ms.poison.find? fun u => decide (u < a + n) && decide (a < u + 8)

/-- The physical base of the ground buffer (R217). -/
def gbBase : Nat := 0x10_0000_0000

/-- The physical base of pillow nn's scratchpad (R217). -/
def spBase (nn : Nat) : Nat := 0x11_0000_0000 + nn * 0x20_0000

/-- The physical base of the context store (R217). -/
def csBase : Nat := 0x12_0000_0000

/-! ## The bytes of a staged bundle (R307, R309) -/

/-- The bytes of a shard: 4 MiB. -/
def shardBytes : Nat := 0x40_0000

/-- The byte count of shard i. -/
def Bundle.shardLen (b : Bundle) (i : Nat) : Nat := min shardBytes (b.bodySize - shardBytes * i)

/-- The HBM address of body byte a. -/
def Bundle.addr (b : Bundle) (a : Nat) : Nat := nth b.units (a / shardBytes) * shardBytes + a % shardBytes

/-! ## Device time -/

/-- Device time moves to t; it never steps back (R21). -/
def State.advance (t : Nat) (s : State) : State := { s with now := max s.now t }

/-! ## The indexed parts -/

/-- Compare unit number k. -/
def State.unit (s : State) (k : Nat) : CmpUnit := tget (fun _ => {}) s.units k

/-- Replaces compare unit number k. -/
def State.setUnit (k : Nat) (v : CmpUnit) (s : State) : State :=
  { s with units := tset (fun _ => {}) k v s.units }

/-- Changes compare unit number k. -/
def State.modUnit (k : Nat) (f : CmpUnit → CmpUnit) (s : State) : State :=
  s.setUnit k (f (s.unit k))

/-- THREAD pin number k. -/
def State.pin (s : State) (k : Nat) : ThreadPin := tget (fun _ => {}) s.pins k

/-- Replaces THREAD pin number k. -/
def State.setPin (k : Nat) (v : ThreadPin) (s : State) : State :=
  { s with pins := tset (fun _ => {}) k v s.pins }

/-- Changes THREAD pin number k. -/
def State.modPin (k : Nat) (f : ThreadPin → ThreadPin) (s : State) : State :=
  s.setPin k (f (s.pin k))

/-- Shuttle queue number k. -/
def State.queue (s : State) (k : Nat) : Queue := tget (fun _ => {}) s.queues k

/-- Replaces shuttle queue number k. -/
def State.setQueue (k : Nat) (v : Queue) (s : State) : State :=
  { s with queues := tset (fun _ => {}) k v s.queues }

/-- Changes shuttle queue number k. -/
def State.modQueue (k : Nat) (f : Queue → Queue) (s : State) : State :=
  s.setQueue k (f (s.queue k))

/-- Error-class latch number k. -/
def State.latch (s : State) (k : Nat) : Latch := tget (fun _ => {}) s.latches k

/-- Replaces error-class latch number k. -/
def State.setLatch (k : Nat) (v : Latch) (s : State) : State :=
  { s with latches := tset (fun _ => {}) k v s.latches }

/-- Changes error-class latch number k. -/
def State.modLatch (k : Nat) (f : Latch → Latch) (s : State) : State :=
  s.setLatch k (f (s.latch k))

/-- Ethernet port number k. -/
def State.port (s : State) (k : Nat) : Port := tget (fun _ => {}) s.ports k

/-- Replaces Ethernet port number k. -/
def State.setPort (k : Nat) (v : Port) (s : State) : State :=
  { s with ports := tset (fun _ => {}) k v s.ports }

/-- Changes Ethernet port number k. -/
def State.modPort (k : Nat) (f : Port → Port) (s : State) : State :=
  s.setPort k (f (s.port k))

/-- Stream number k. -/
def State.stream (s : State) (k : Nat) : Stream := tget (fun _ => {}) s.streams k

/-- Replaces stream number k. -/
def State.setStream (k : Nat) (v : Stream) (s : State) : State :=
  { s with streams := tset (fun _ => {}) k v s.streams }

/-- Changes stream number k. -/
def State.modStream (k : Nat) (f : Stream → Stream) (s : State) : State :=
  s.setStream k (f (s.stream k))

/-- Service port number k. -/
def State.service (s : State) (k : Nat) : Service := tget (fun _ => {}) s.services k

/-- Replaces service port number k. -/
def State.setService (k : Nat) (v : Service) (s : State) : State :=
  { s with services := tset (fun _ => {}) k v s.services }

/-- Changes service port number k. -/
def State.modService (k : Nat) (f : Service → Service) (s : State) : State :=
  s.setService k (f (s.service k))

/-- PTP port number k. -/
def State.ptpPort (s : State) (k : Nat) : PtpPort := tget (fun _ => {}) s.ptpPorts k

/-- Replaces PTP port number k. -/
def State.setPtpPort (k : Nat) (v : PtpPort) (s : State) : State :=
  { s with ptpPorts := tset (fun _ => {}) k v s.ptpPorts }

/-- Changes PTP port number k. -/
def State.modPtpPort (k : Nat) (f : PtpPort → PtpPort) (s : State) : State :=
  s.setPtpPort k (f (s.ptpPort k))

/-- House-converter channel number k. -/
def State.chan (s : State) (k : Nat) : HcChan := tget (fun _ => {}) s.chans k

/-- Replaces house-converter channel number k. -/
def State.setChan (k : Nat) (v : HcChan) (s : State) : State :=
  { s with chans := tset (fun _ => {}) k v s.chans }

/-- Changes house-converter channel number k. -/
def State.modChan (k : Nat) (f : HcChan → HcChan) (s : State) : State :=
  s.setChan k (f (s.chan k))

/-- House-converter sequence number k. -/
def State.hseq (s : State) (k : Nat) : HcSeq := tget (fun _ => {}) s.seqs k

/-- Replaces house-converter sequence number k. -/
def State.setHseq (k : Nat) (v : HcSeq) (s : State) : State :=
  { s with seqs := tset (fun _ => {}) k v s.seqs }

/-- Changes house-converter sequence number k. -/
def State.modHseq (k : Nat) (f : HcSeq → HcSeq) (s : State) : State :=
  s.setHseq k (f (s.hseq k))

/-- Bundle handle number k. -/
def State.bundle (s : State) (k : Nat) : Bundle := tget (fun _ => {}) s.bundles k

/-- Replaces bundle handle number k. -/
def State.setBundle (k : Nat) (v : Bundle) (s : State) : State :=
  { s with bundles := tset (fun _ => {}) k v s.bundles }

/-- Changes bundle handle number k. -/
def State.modBundle (k : Nat) (f : Bundle → Bundle) (s : State) : State :=
  s.setBundle k (f (s.bundle k))

/-- Model slot number k. -/
def State.slot (s : State) (k : Nat) : Slot := tget (fun _ => {}) s.slots k

/-- Replaces model slot number k. -/
def State.setSlot (k : Nat) (v : Slot) (s : State) : State :=
  { s with slots := tset (fun _ => {}) k v s.slots }

/-- Changes model slot number k. -/
def State.modSlot (k : Nat) (f : Slot → Slot) (s : State) : State :=
  s.setSlot k (f (s.slot k))

/-- Pricking number number k. -/
def State.prick (s : State) (k : Nat) : Option Prick := tget (fun _ => none) s.pricks k

/-- Replaces pricking number number k. -/
def State.setPrick (k : Nat) (v : Option Prick) (s : State) : State :=
  { s with pricks := tset (fun _ => none) k v s.pricks }

/-- Changes pricking number number k where it is in use. -/
def State.modPrick (k : Nat) (f : Prick → Prick) (s : State) : State :=
  s.setPrick k ((s.prick k).map f)

/-- Template number k. -/
def State.template (s : State) (k : Nat) : Option Template := tget (fun _ => none) s.templates k

/-- Replaces template number k. -/
def State.setTemplate (k : Nat) (v : Option Template) (s : State) : State :=
  { s with templates := tset (fun _ => none) k v s.templates }

/-- Changes template number k where it is in use. -/
def State.modTemplate (k : Nat) (f : Template → Template) (s : State) : State :=
  s.setTemplate k ((s.template k).map f)

/-- Job context number k. -/
def State.job (s : State) (k : Nat) : Option Job := tget (fun _ => none) s.jobs k

/-- Replaces job context number k. -/
def State.setJob (k : Nat) (v : Option Job) (s : State) : State :=
  { s with jobs := tset (fun _ => none) k v s.jobs }

/-- Changes job context number k where it is in use. -/
def State.modJob (k : Nat) (f : Job → Job) (s : State) : State :=
  s.setJob k ((s.job k).map f)

/-- Pillow number k. -/
def State.pillow (s : State) (k : Nat) : Pillow := tget (fun _ => {}) s.pillows k

/-- Replaces pillow number k. -/
def State.setPillow (k : Nat) (v : Pillow) (s : State) : State :=
  { s with pillows := tset (fun _ => {}) k v s.pillows }

/-- Changes pillow number k. -/
def State.modPillow (k : Nat) (f : Pillow → Pillow) (s : State) : State :=
  s.setPillow k (f (s.pillow k))

/-- A bobbin at reset (R85): physical bobbins 0 to 15 carry logical 0 to 15 and are IDLE, physical
bobbin 16 is the SPARE_EMPTY spare. -/
def bobbinAtReset (b : Nat) : Bobbin :=
  if b < 16 then { state := 6, logical := b, mapped := true } else { state := 1, mapped := false }

/-- Physical bobbin b of pillow p. -/
def State.bobbin (s : State) (p b : Nat) : Bobbin := tget bobbinAtReset (s.pillow p).bobbins b

/-- Replaces physical bobbin b of pillow p. -/
def State.setBobbin (p b : Nat) (v : Bobbin) (s : State) : State :=
  s.modPillow p fun x => { x with bobbins := tset bobbinAtReset b v x.bobbins }

/-- Changes physical bobbin b of pillow p. -/
def State.modBobbin (p b : Nat) (f : Bobbin → Bobbin) (s : State) : State :=
  s.setBobbin p b (f (s.bobbin p b))

/-- The physical bobbin that carries logical bobbin l of pillow p (R83). -/
def Pillow.physOf (x : Pillow) (l : Nat) : Nat := tget (fun l => l) x.map l

/-- The scratchpad window SWw of pillow p (R210). -/
def Pillow.window (x : Pillow) (w : Nat) : SpWindow := tget (fun _ => {}) x.windows w

/-- Draws a free value (assumption 13): the counter advances, and the value is an opaque function of
it. -/
def State.draw (s : State) : BitVec 64 × State := (Config.freeWord s.free, { s with free := s.free + 1 })

/-- The number of pillows (R2). -/
def nPillows : Nat := 48

end Sys2Proof.Machine
end

