-- ==== Sys2Proof/Machine/Keccak.lean ====
section
/-! DEFINITION. SHAKE256 with a 256-bit output, the digest of shards, images and security reports
(R307, R316, R501, R512). The spec names the function; its steps are those of FIPS 202 (PRESUMED,
assumption 16). -/

namespace Sys2Proof.Machine

/-- The 25 lanes of the permutation's state, lane x + 5y. -/
abbrev Lanes := List (BitVec 64)

/-- Lane (x, y), indices modulo 5. -/
def lane (a : Lanes) (x y : Nat) : BitVec 64 := a.getD (x % 5 + 5 * (y % 5)) 0

/-- A state from a function of (x, y). -/
def lanesOf (f : Nat → Nat → BitVec 64) : Lanes := (List.range 25).map fun i => f (i % 5) (i / 5)

/-- The rotation of lane x + 5y. -/
def keccakRot : List Nat :=
  [0, 1, 62, 28, 27, 36, 44, 6, 55, 20, 3, 10, 43, 25, 39, 41, 45, 15, 21, 8, 18, 2, 61, 56, 14]

/-- The round constants. -/
def keccakRc : List (BitVec 64) :=
  [0x0000000000000001, 0x0000000000008082, 0x800000000000808A, 0x8000000080008000,
   0x000000000000808B, 0x0000000080000001, 0x8000000080008081, 0x8000000000008009,
   0x000000000000008A, 0x0000000000000088, 0x0000000080008009, 0x000000008000000A] ++
  [0x000000008000808B, 0x800000000000008B, 0x8000000000008089, 0x8000000000008003,
   0x8000000000008002, 0x8000000000000080, 0x000000000000800A, 0x800000008000000A,
   0x8000000080008081, 0x8000000000008080, 0x0000000080000001, 0x8000000080008008]

/-- One round. -/
def keccakRound (a : Lanes) (rc : BitVec 64) : Lanes :=
  let col (x : Nat) := lane a x 0 ^^^ lane a x 1 ^^^ lane a x 2 ^^^ lane a x 3 ^^^ lane a x 4
  let cols := (List.range 5).map col
  let par (x : Nat) := cols.getD (x % 5) 0
  let theta := lanesOf fun x y => lane a x y ^^^ par (x + 4) ^^^ (par (x + 1)).rotateLeft 1
  let rho := (theta.zip keccakRot).map fun (l, r) => l.rotateLeft r
  let pi := lanesOf fun x y => lane rho (x + 3 * y) x
  let chi := lanesOf fun x y => lane pi x y ^^^ (~~~(lane pi (x + 1) y) &&& lane pi (x + 2) y)
  match chi with
  | [] => []
  | l :: t => (l ^^^ rc) :: t

/-- The permutation of 24 rounds. -/
def keccakF (a : Lanes) : Lanes := keccakRc.foldl keccakRound a

/-- Absorbs one block of 136 bytes. -/
def absorbBlock (a : Lanes) (block : Bytes) : Lanes :=
  keccakF (lanesOf fun x y =>
    let i := x + 5 * y
    lane a x y ^^^ (if i < 17 then BitVec.ofNat 64 (numAt (8 * i) 8 block) else 0))

/-- Absorbs whole blocks, `fuel` of them at most, then the padded last one. -/
def absorb : Nat → Lanes → Bytes → Lanes
  | 0, a, _ => a
  | fuel + 1, a, m =>
    if 136 ≤ m.length then absorb fuel (absorbBlock a (m.take 136)) (m.drop 136)
    else
      let body := m ++ leBytes 1 0x1F ++ zeros (135 - m.length)
      absorbBlock a (setNth body 135 ((body.getD 135 0) ||| 0x80))

/-- SHAKE256 of a message, 256-bit output, as its 32 octets. -/
def shake256 (m : Bytes) : Bytes :=
  let a := absorb (m.length / 136 + 1) (List.replicate 25 0) m
  (a.take 4).flatMap fun l => leBytes 8 l.toNat

/-- The same as one number, octet 0 least significant. -/
def digestOf (m : Bytes) : BitVec 256 := BitVec.ofNat 256 (leNat (shake256 m))

end Sys2Proof.Machine
end

