-- ==== Sys2Proof/Machine/Report.lean ====
section
/-! DEFINITION. Status codes (R418), shuttle queues (R261 to R271), replies, events and refusals
(R404 to R409), and error reports (R272, R273, R485 to R489). -/

namespace Sys2Proof.Machine

/-! ## Status codes (R418) -/

namespace Status

def ok : Nat := 0x0000
def okEmpty : Nat := 0x0001
def okRepeated : Nat := 0x0002
def admitDemand : Nat := 0x0101
def overspeed : Nat := 0x0102
def deadlineMiss : Nat := 0x0103
def lineLag : Nat := 0x0104
def admitSpeed : Nat := 0x0105
def resHeld : Nat := 0x0201
def tableFull : Nat := 0x0210
def queueRefused : Nat := 0x0211
def stageFull : Nat := 0x0212
def stateRefused : Nat := 0x0213
def xferAborted : Nat := 0x0214
def ctxFull : Nat := 0x0215
def mapFault : Nat := 0x0301
def truncated : Nat := 0x0302
def lengthBad : Nat := 0x0303
def tbPast : Nat := 0x0304
def quantBad : Nat := 0x0305
def reduceBad : Nat := 0x0306
def captureBad : Nat := 0x0307
def prickBad : Nat := 0x0308
def portBad : Nat := 0x0309
def bundleBad : Nat := 0x030A
def hcBad : Nat := 0x030B
def opcodeBad : Nat := 0x030C
def paramBad : Nat := 0x030D
def guaranteeWithdrawn : Nat := 0x0401
def slotOffline : Nat := 0x0402
def dataPoisoned : Nat := 0x0410
def marchFail : Nat := 0x0411
def digestBad : Nat := 0x0501
def stale : Nat := 0x0502
def shardMissing : Nat := 0x0503
def calFail : Nat := 0x0601
def trimBad : Nat := 0x0602
def sigBad : Nat := 0x0701
def rollback : Nat := 0x0702
def locked : Nat := 0x0703

end Status

/-! ## Opcodes (R402) -/

namespace Op

def devInfo : Nat := 0x00
def devReset : Nat := 0x01
def regRead : Nat := 0x02
def regWrite : Nat := 0x03
def calRun : Nat := 0x10
def trimRead : Nat := 0x11
def trimWrite : Nat := 0x12
def mapCreate : Nat := 0x20
def mapPage : Nat := 0x21
def mapPin : Nat := 0x22
def marchRun : Nat := 0x23
def shardBegin : Nat := 0x30
def shardEnd : Nat := 0x31
def slotProgram : Nat := 0x32
def slotActivate : Nat := 0x33
def slotRetire : Nat := 0x34
def prickLoad : Nat := 0x40
def jobAdmit : Nat := 0x41
def jobSubmit : Nat := 0x42
def jobAbort : Nat := 0x43
def tbConfig : Nat := 0x50
def tbClaim : Nat := 0x51
def streamOpen : Nat := 0x60
def streamClose : Nat := 0x61
def portConfig : Nat := 0x62
def hcConfig : Nat := 0x70
def hcSelfcal : Nat := 0x71
def hcRead : Nat := 0x72
def pkConfig : Nat := 0x80
def queueFlush : Nat := 0x90
def queueDrop : Nat := 0x91
def partialCapture : Nat := 0x92
def fwUpdate : Nat := 0xA0
def attest : Nat := 0xA1

end Op

/-- A refusal of a command: its status and the payload R408 gives it. -/
structure Reject where
  status : Nat
  payload : Bytes := []
  deriving DecidableEq, Repr

/-- The check passes where b holds; otherwise the command is refused with r. -/
def require (b : Bool) (r : Reject) : Option Reject := if b then none else some r

/-- The first check that fails decides the reply (R404). -/
def firstOf : List (Option Reject) → Option Reject
  | [] => none
  | some r :: _ => some r
  | none :: t => firstOf t

/-- PARAM_BAD with the offset of the first field refused (R408). -/
def paramBadAt (ofs : Nat) : Reject := { status := Status.paramBad, payload := leBytes 2 ofs }

/-- STATE_REFUSED, which carries no payload (R408). -/
def stateRefused : Reject := { status := Status.stateRefused }

/-- RES_HELD with its payload (R408, R409). -/
def resHeld (holderOp claimOp kind index pillow owner : Nat) : Reject :=
  { status := Status.resHeld
    payload := leBytes 1 holderOp ++ leBytes 1 claimOp ++ leBytes 1 kind ++ zeros 1 ++ leBytes 2 index
      ++ leBytes 1 pillow ++ zeros 1 ++ leBytes 4 owner }

/-- The OWNER and PILLOW values that stand for none (R408). -/
def noOwner : Nat := 0xFFFF_FFFF

/-- The PILLOW value that stands for none. -/
def noPillow : Nat := 0xFF

/-- MAP_FAULT with its payload (R408). -/
def mapFault (asid kind va : Nat) : Reject :=
  { status := Status.mapFault
    payload := leBytes 2 asid ++ leBytes 1 kind ++ zeros 5 ++ leBytes 8 va }

/-- PRICK_BAD, QUANT_BAD, REDUCE_BAD or LENGTH_BAD with their payload (R408). -/
def imageBad (status sect index ofs : Nat) : Reject :=
  { status := status
    payload := leBytes 1 sect ++ zeros 1 ++ leBytes 2 index ++ leBytes 4 ofs }

/-! ## Shuttle queues -/

/-- The capacity of queue q in items (R269). -/
def queueCap (q : Nat) : Nat := if q = 2 then 64 else 32

/-- The items of a packet: one for each 64 B of data begun (R261). -/
def QPacket.items (p : QPacket) : Nat := max 1 (ceilDiv p.data.length 64)

/-- The items of the partly read packet still in the queue: an item leaves with its last byte
(R388). -/
def Queue.partItems (x : Queue) : Nat :=
  match x.part with
  | none => 0
  | some (p, d) => p.items - d / 64

/-- The items present (R268). -/
def Queue.items (x : Queue) : Nat :=
  (x.vis.map QPacket.items).sum + x.partItems + (match x.wpart with | none => 0 | some w => w.2)

/-- Item i of a packet, marked FIRST and LAST where it is (R261, R262). -/
def QPacket.qitem (i : Nat) (p : QPacket) : QItem :=
  let d := (p.data.drop (64 * i)).take 64
  { prio := p.prio, len := d.length, first := i == 0, isLast := i + 1 == p.items, writer := p.writer, tag := p.tag, data := d }

/-- The last item of a packet. -/
def QPacket.lastItem (p : QPacket) : QItem := p.qitem (p.items - 1)

/-- The header word of an item (R262). -/
def QItem.header (x : QItem) : Nat :=
  fld 0 3 x.prio + fld 3 7 x.len + flag 10 x.first + flag 11 x.isLast + fld 12 8 x.writer + fld 32 32 x.tag.toNat

/-- Whether a packet of n items finds free stages for all of them (R263). -/
def Queue.fits (q n : Nat) (x : Queue) : Bool := decide (x.items + n ≤ queueCap q)

/-- The visible packets, the partly read one among them. -/
def Queue.packets (x : Queue) : Nat := x.vis.length + (if x.part.isSome then 1 else 0)

/-- The packet R265 takes next from a list in entry order, and the rest: the highest PRIO, of those
the one that entered earliest. -/
def selectPacket : List QPacket → Option (QPacket × List QPacket)
  | [] => none
  | p :: r =>
    match selectPacket r with
    | none => some (p, [])
    | some (b, r') => if b.prio > p.prio then some (b, p :: r') else some (p, r)

/-- A waiting writer's place: ascending WRITER, and in order of arrival for one writer (R263). -/
def insertWaiting (p : QPacket) : List QPacket → List QPacket
  | [] => [p]
  | w :: r => if p.writer < w.writer then p :: w :: r else w :: insertWaiting p r

/-- The free stages of the command queue that the next mailbox packet finds, less a held packet's
items (R386, R387). -/
def State.mbxCredit (s : State) : Nat :=
  queueCap 0 - (s.queue 0).items - (match s.sdio.mailbox with | none => 0 | some p => p.items)

/-- Writes queue q. Where that raises MBX_CREDIT from below CREDIT_TH to it or above, F1_STAT.CREDIT
is set (R391). -/
def State.putQueue (q : Nat) (x : Queue) (s : State) : State :=
  let s' := s.setQueue q x
  if q = 0 ∧ s.mbxCredit < s.sdio.creditTh ∧ s.sdio.creditTh ≤ s'.mbxCredit then
    { s' with sdio := { s'.sdio with credit := true } }
  else s'

/-- A writer presents a packet to queue q: it enters whole where it fits and no other writer waits,
and waits otherwise (R263, R264). -/
def State.present (q : Nat) (p : QPacket) (s : State) : State :=
  let x := s.queue q
  if x.wait.isEmpty && x.wpart.isNone && x.fits q p.items then
    s.putQueue q { x with vis := x.vis ++ [p] }
  else
    s.putQueue q { x with wait := insertWaiting p x.wait, fullSeen := true }

/-! ## Error reports -/

/-- The severity of each class, 0 to 31 (R486). -/
def severities : List Nat :=
  [7, 5, 6, 6, 5, 4, 5, 3, 4, 2, 2, 4, 4, 3, 3, 2, 1, 6, 1, 2, 1, 4, 6, 2, 2, 1, 4, 4, 3, 4, 5, 0]

/-- The severity of a class. -/
def severity (cls : Nat) : Nat := nth severities cls

/-- A report: its class, the pillow, context and template it concerns, and its class detail (R485,
R486). -/
structure ErrReport where
  cls : Nat
  pillow : Nat := 0xFF
  ctx : Option Nat := none
  template : Nat := 0xFFFF
  body : Bytes := []
  deriving DecidableEq, Repr

/-- The detail of a report: the 16 B head of R485 and the class detail. -/
def ErrReport.detail (r : ErrReport) (wp : Int) : Bytes :=
  leBytes 1 r.cls ++ leBytes 1 (severity r.cls) ++ leBytes 1 r.pillow ++ zeros 1
    ++ leBytes 2 (match r.ctx with | some c => c % 2 ^ 14 | none => 2 ^ 14)
    ++ leBytes 2 r.template ++ leBytes 6 (ofSigned 48 wp) ++ zeros 2 ++ r.body

/-- The entry a held latch presents to the error queue (R269, R273). -/
def latchEntry (cls : Nat) (l : Latch) : QPacket :=
  { prio := severity cls, writer := cls, tag := BitVec.ofNat 32 cls, data := l.detail }

/-- The lowest class whose entry waits outside the error queue (R263, R273). -/
def State.outsideClass (s : State) : Option Nat :=
  lowest 32 fun c => (s.latch c).held && (s.latch c).outside

/-- A held latch whose entry stands outside enters the error queue where it has room and no lower class waits
(R263); otherwise it stays and LOST is set (R273). -/
def State.presentLatch (cls : Nat) (s : State) : State :=
  let l := s.latch cls
  let p := latchEntry cls l
  let x := s.queue 2
  if x.fits 2 p.items && !(s.outsideClass.any fun c => decide (c < cls)) then
    (s.putQueue 2 { x with vis := x.vis ++ [p] }).setLatch cls { l with outside := false }
  else (s.setLatch cls { l with outside := true, lost := true }).modQueue 2
    fun y => { y with fullSeen := true }

/-- A source reports into its class's latch (R272, R273). -/
def State.report (r : ErrReport) (s : State) : State :=
  let l := s.latch r.cls
  if l.held then s.setLatch r.cls { l with count := satAdd 0xFFFF l.count 1 }
  else
    (s.setLatch r.cls
      { held := true, outside := false, count := 1, lost := false, time := s.now,
        detail := r.detail s.tb.wp }).presentLatch r.cls

/-- Reports one after another. -/
def State.reportAll : List ErrReport → State → State
  | [], s => s
  | r :: t, s => (s.report r).reportAll t

/-- A latch re-armed by a pop, or by a flush that discards its entry (R270, R274). -/
def State.rearm (cls : Nat) (s : State) : State := s.setLatch cls {}

/-! ## Replies, events and the commands in hand -/

/-- The lowest-numbered management core that executes commands (R407), 1 when none does. -/
def State.lowestCore (s : State) : Nat :=
  ((List.range 4).find? fun k => s.mgmt.cores.getLsbD k).elim 1 (· + 1)

/-- Whether the fast decoder serves an opcode (R413); HC_READ DATA and URGENT are told by `form`. -/
def isFast (op form : Nat) : Bool :=
  op == Op.devInfo || op == Op.regRead || op == Op.regWrite || op == Op.jobSubmit
    || (op == Op.hcRead && (form == 0 || form == 2))

/-- Whether a packet in hand is the command with this opcode and tag. -/
def CmdPacket.answers (op : Nat) (tag : BitVec 32) (c : CmdPacket) : Bool :=
  decide (numAt 0 1 c.data = op) && decide (c.tag = tag)

/-- The packet management core k (1 to 4) holds. -/
def State.coreCmd (s : State) (k : Nat) : Option CmdPacket := tget (fun _ => none) s.mgmt.busy k

/-- The core that holds the command with this opcode and tag. -/
def State.coreOf (op : Nat) (tag : BitVec 32) (s : State) : Option Nat :=
  [1, 2, 3, 4].find? fun k => (s.coreCmd k).elim false (CmdPacket.answers op tag)

/-- The WRITER of a reply (R269, R413): 0 for the fast decoder, also where no core executes (R417) and
for the boot ROM, the core that holds the command, and for a command whose core is free again the
lowest executing core (assumption 14). -/
def State.replyWriter (op form : Nat) (tag : BitVec 32) (s : State) : Nat :=
  if isFast op form || s.mgmt.devState == 0 || s.mgmt.cores == 0 then 0
  else (s.coreOf op tag).getD s.lowestCore

/-- The 16 B header of R405 and the payload. -/
def replyBytes (op status now : Nat) (tag : BitVec 32) (payload : Bytes) : Bytes :=
  leBytes 1 1 ++ leBytes 1 op ++ leBytes 2 (16 + payload.length) ++ leBytes 4 tag.toNat ++ leBytes 2 status
    ++ zeros 2 ++ leBytes 4 now ++ payload

/-- Forms a reply and presents it to the reply queue (R405, R406, R411). -/
def State.reply (h : Hdr) (op form status : Nat) (payload : Bytes) (s : State) : State :=
  s.present 1
    { prio := h.prio, writer := s.replyWriter op form h.tag, tag := h.tag,
      data := replyBytes op status s.now h.tag payload }

/-- A command's core is free from its acceptance or refusal; the fast decoder's packet is done
(R412, R415). -/
def State.release (op : Nat) (tag : BitVec 32) (s : State) : State :=
  let m := s.mgmt
  let m := match s.coreOf op tag with
    | some k => { m with busy := tset (fun _ => none) k none m.busy }
    | none => { m with fast := m.fast.eraseP (CmdPacket.answers op tag) }
  { s with mgmt := m }

/-- Forms an event packet: PRIO 6, under the WRITER index of the lowest executing core (R407). -/
def State.event (code status : Nat) (payload : Bytes) (s : State) : State :=
  s.present 1
    { prio := 6, writer := s.lowestCore, tag := 0,
      data := leBytes 1 2 ++ leBytes 1 code ++ leBytes 2 (16 + payload.length) ++ zeros 4
        ++ leBytes 2 status ++ zeros 2 ++ leBytes 4 s.now ++ payload }

/-! ## Device states -/

/-- Whether the boot ROM accepts FW_UPDATE: the boot source is SDIO, or QSPI then SDIO after both
images failed (R453, R481). A reserved boot-source value is taken as SDIO (R454). -/
def State.bootBySdio (s : State) : Bool :=
  let src := bitsOf 3 2 s.power.straps.toNat
  src == 0 || src == 3 || (src == 2 && s.power.bootErr != 0)

/-- Whether the present device state accepts an opcode (R417, R479, R481). `sec` says that a
REG_READ is of the SEC block. -/
def State.accepts (op : Nat) (sec : Bool) (s : State) : Bool :=
  let m := s.mgmt
  if m.devState = 0 then
    op == Op.devInfo || op == Op.devReset || (op == Op.regRead && sec)
      || (op == Op.fwUpdate && s.bootBySdio)
  else if m.devState = 5 then
    if m.fatal = 4 then op == Op.devInfo || op == Op.devReset || (op == Op.regRead && sec)
    else if m.fatal = 2 then
      op == Op.devInfo || op == Op.devReset || op == Op.regRead || op == Op.regWrite
    else
      op == Op.devInfo || op == Op.devReset || op == Op.regRead || op == Op.regWrite
        || (op == Op.trimRead && m.fatal != 3) || op == Op.queueFlush || op == Op.queueDrop
        || op == Op.attest
  else true

/-- Sends a refusal and frees the command's core. -/
def State.refuse (h : Hdr) (op form : Nat) (r : Reject) (s : State) : State :=
  (s.reply h op form r.status r.payload).release op h.tag

/-- The reply of a command that ends at once: OK with its payload, and its core is free. -/
def State.done (h : Hdr) (op form : Nat) (payload : Bytes) (s : State) : State :=
  (s.reply h op form Status.ok payload).release op h.tag

/-- A host command (R404): device time moves on, then the checks of the parameters' ranges, of the
device state, and the command's own in that order; the first that fails decides the reply and the
command has no other effect. -/
def hostCommand (h : Hdr) (op form : Nat) (sec : Bool) (params : Option Reject)
    (own : State → Option Reject) (eff : State → State) (s : State) : Out :=
  let s := s.advance h.t
  match firstOf [params, require (s.accepts op sec) stateRefused, own s] with
  | some r => .next (s.refuse h op form r)
  | none => .next (eff s)

/-- Every REG_WRITE but an arming one disarms SEC_OP (R511). -/
def State.disarm (s : State) : State := { s with sec := { s.sec with armed := false } }

/-! ## NFAULT and the fault-side states -/

/-- Whether NFAULT is driven low (R487). -/
def State.nfault (s : State) : Bool :=
  !s.power.nrst || s.mgmt.reset.isSome || (s.mgmt.devState == 0 && !s.mgmt.romMarchOk)
    || s.mgmt.devState == 5
    || (List.range 32).any fun c => (s.latch c).held && decide (s.mgmt.nfSev ≤ severity c)

/-- The device enters state 4 from state 1, 2 or 3; PRIOR keeps the state it left (R489). -/
def State.enterRecovery (cause : Nat) (s : State) : State :=
  let d := s.mgmt.devState
  if d = 1 ∨ d = 2 ∨ d = 3 then
    ({ s with mgmt := { s.mgmt with devState := 4, prior := d, testReplied := false } }).report
      { cls := 29, body := leBytes 1 cause ++ leBytes 1 1 }
  else s

/-- A packet lost to an uncorrectable word (R267): counted, reported, and on queues 0 and 1 the
device enters recovery (R489). -/
def State.packetLost (q : Nat) (p : QPacket) (s : State) : State :=
  let s := s.modQueue q fun x => { x with ue := satAdd 0xFFFF x.ue 1 }
  let s := s.report
    { cls := 8, body := leBytes 1 q ++ leBytes 1 p.writer ++ leBytes 4 p.tag.toNat }
  if q ≤ 1 then s.enterRecovery 2 else s

/-- Corrected words (R267). -/
def State.wordsCorrected (q n : Nat) (s : State) : State :=
  s.modQueue q fun x => { x with ce := satAdd 0xFFFF x.ce n }

/-- Takes the next whole packet of queue q with no word in error (R265, R266): a read with nothing
visible answers none and sets UNDERRUN. -/
def State.takeClean (q : Nat) (s : State) : Option QPacket × State :=
  let x := s.queue q
  match selectPacket x.vis with
  | none => (none, s.modQueue q fun y => { y with underrun := true })
  | some (p, rest) => (some p, s.putQueue q { x with vis := rest, last := p.lastItem })

/-- Takes the next whole packet of queue q for a reader that takes packets whole (R265 to R267). A packet with an
uncorrectable word is removed, and the read proceeds as if it were absent; the loss is answered, and reported by
`packetLost` when the read is complete, so that no report of the read's own cycle is returned by it (R266). -/
def State.takePacket (q : Nat) (ecc : WordEcc) (s : State) : Option QPacket × Option QPacket × State :=
  let x := s.queue q
  match selectPacket x.vis with
  | none => (none, s.takeClean q)
  | some (p, rest) =>
    let s := s.wordsCorrected q ecc.words
    if ecc.lost then (some p, (s.putQueue q { s.queue q with vis := rest }).takeClean q)
    else (none, s.takeClean q)

/-- What a read that lost a packet reports (R267). -/
def State.afterLoss (q : Nat) (p : Option QPacket) (s : State) : State := p.elim s fun p => s.packetLost q p

end Sys2Proof.Machine
end

