-- ==== Sys2Proof/Machine/Faults.lean ====
section
/-! DEFINITION. The fault state (R488), security reports (R512), what a reset keeps and loses (R475 to
R477), and the management-core takeover (R492). -/

namespace Sys2Proof.Machine

/-- Whether the device is out of reset. -/
def State.up (s : State) : Bool := s.power.nrst && s.mgmt.reset.isNone

/-- Whether the device's machinery runs: out of reset and outside the fault state (R488). -/
def State.alive (s : State) : Bool := s.up && s.mgmt.devState != 5

/-- PTP time in ns at device time d (R21, R296). -/
def State.ptpAt (s : State) (d : Nat) : Int :=
  (d : Int) + s.ptp.offset + s.ptp.ratio * ((d : Int) - (s.ptp.ref : Int)) / (2 : Int) ^ 40

/-- The security class with its detail (R512). -/
def State.security (cause key : Nat) (fwVer : BitVec 32) (digest : Nat) (s : State) : State :=
  s.report
    { cls := 27
      body := leBytes 1 cause ++ leBytes 1 key ++ zeros 2 ++ leBytes 4 fwVer.toNat ++ leBytes 32 digest }

/-! ## The fault state -/

/-- The Picot pins released: the frame in progress ends, a burst in progress is cut (R450). -/
def Picot.released (x : Picot) : Picot :=
  let cut := match x.frame with
    | some f => f.burst.isSome
    | none => false
  { x with frame := none, deferred := none, statCut := x.statCut || cut }

/-- A THREAD pin released: high impedance, so the board holds its inactive level (R450, R451). -/
def ThreadPin.released (x : ThreadPin) : ThreadPin := { x with pulse := none, level := x.pol }

/-- Applies f to entry k of a table for every k below n. -/
def tmapTo {α : Type} [DecidableEq α] (d : Nat → α) (f : Nat → α → α) : Nat → Tbl α → Tbl α
  | 0, t => t
  | n + 1, t => let t := tmapTo d f n t; tset d n (f n (tget d t n)) t

/-- The device enters state 5 (R488); only a reset leaves it. -/
def State.enterFatal (cause addr : Nat) (s : State) : State :=
  if s.mgmt.devState = 5 then s
  else
    ({ s with
        mgmt := { s.mgmt with devState := 5, fatal := cause }
        pk := s.pk.released
        pins := tmapTo (fun _ => {}) (fun _ x => x.released) 4 s.pins }).report
      { cls := 0, body := leBytes 1 cause ++ leBytes 8 addr }

/-! ## Reset -/

/-- What a bobbin keeps over a reset: the cell levels, the fuses of R72, and the part's own analogue
properties (R476, R477). -/
def Bobbin.afterReset (b : Nat) (x : Bobbin) : Bobbin :=
  { bobbinAtReset b with
    cells := x.cells, fuse := x.fuse, pathGain := x.pathGain, convOfs := x.convOfs }

/-- A pillow over a reset (R85, R476). -/
def Pillow.afterReset (x : Pillow) : Pillow :=
  { bobbins := (List.range 17).foldl
      (fun t b => tset bobbinAtReset b (Bobbin.afterReset b (tget bobbinAtReset x.bobbins b)) t) [] }

/-- What the security block keeps over a reset: the fuses and the rollback floor (R476, R498). -/
def Security.afterReset (x : Security) : Security :=
  { device := x.device, grade := x.grade, step := x.step, romVer := x.romVer, lock := x.lock,
    floor := x.floor, revFw := x.revFw, revBn := x.revBn, challenge := x.challenge,
    quotes := x.quotes }

/-- PWR_CAUSE and the pins over a reset (R475, R484). An NRST reset clears the internal causes and
opens the strap window, and the byte reads 0 until it closes (assumption 135); an internal reset keeps it. -/
def Power.afterReset (src : ResetSource) (x : Power) : Power :=
  match src with
  | .nrst => { nrst := false, pwrgd := x.pwrgd, causePin := true }
  | .devReset =>
    { nrst := x.nrst, pwrgd := x.pwrgd, straps := x.straps, latched := x.latched, causePin := false,
      causeDev := true, causeWd := x.causeWd, causeTh := x.causeTh }
  | .watchdog =>
    { nrst := x.nrst, pwrgd := x.pwrgd, straps := x.straps, latched := x.latched, causePin := false,
      causeDev := x.causeDev, causeWd := true, causeTh := x.causeTh }
  | .thermal =>
    { nrst := x.nrst, pwrgd := x.pwrgd, straps := x.straps, latched := x.latched, causePin := false,
      causeDev := x.causeDev, causeWd := x.causeWd, causeTh := true }

/-- The device goes into reset: everything but what R476 keeps is lost. Device time runs on (R21,
assumption 17); the queue of waiting commands and the count of free values are the model's own. -/
def State.intoReset (src : ResetSource) (s : State) : State :=
  { State.reset with
    now := s.now
    pending := s.pending
    free := s.free
    mgmt := { reset := some src, resetAt := s.now }
    power := s.power.afterReset src
    sec := s.sec.afterReset
    ms := { csCols := s.ms.csCols, fwCols := s.ms.fwCols }
    pillows := (List.range nPillows).foldl
      (fun t p => tset (fun _ => {}) p (tget (fun _ => {}) s.pillows p).afterReset t) [] }

/-- A reset ends: the boot ROM starts in state 0 (R478, R479). -/
def State.endReset (s : State) : State :=
  { s with mgmt := { s.mgmt with reset := none, resetAt := s.now }, ms := { s.ms with scrubAt := s.now } }

/-! ## Management cores -/

/-- Moves the command a faulted core held to core k, or behind the held ones where core k is busy. -/
def State.restart (k : Nat) (c : CmdPacket) (s : State) : State :=
  if (s.coreCmd k).isNone then
    { s with mgmt := { s.mgmt with busy := tset (fun _ => none) k (some c) s.mgmt.busy } }
  else { s with mgmt := { s.mgmt with held := s.mgmt.held ++ [c] } }

/-- Takes core k's command from it. -/
def State.clearCore (k : Nat) (s : State) : State :=
  { s with mgmt := { s.mgmt with busy := tset (fun _ => none) k none s.mgmt.busy } }

/-- Step 1 of R492: a partial reply packet of the faulted core's WRITER is dropped. -/
def State.dropPartial (q w : Nat) (s : State) : State :=
  s.modQueue q fun x =>
    match x.wpart with
    | some (p, n) => if p.writer = w then { x with wpart := none, dropped := satAdd 0xFFFF x.dropped n } else x
    | none => x

/-- The report of a core fault (R486, class 1). -/
def coreReport (core cause : Nat) (c : Option CmdPacket) (takeover : Nat) : ErrReport :=
  { cls := 1
    body := leBytes 1 core ++ leBytes 1 cause
      ++ leBytes 1 (match c with | some p => numAt 0 1 p.data | none => 0xFF)
      ++ leBytes 4 (match c with | some p => p.tag.toNat | none => 0) ++ leBytes 4 takeover }

/-- A fault of a core that executes commands (R492): core 4 takes over where it stands by, else the
lowest core that still executes; with none left the device enters state 5. The takeover time of the
report lies within 20 µs and is otherwise free (assumption 13). -/
def State.coreFault (core cause : Nat) (s : State) : State :=
  let c := s.coreCmd core
  let s := (s.clearCore core).dropPartial 1 core
  let left := s.mgmt.cores &&& ~~~(1#4 <<< (core - 1))
  if s.mgmt.standby then
    let (d, s) := s.draw
    let s := { s with mgmt := { s.mgmt with cores := left ||| 0b1000, standby := false,
                                            covered := satAdd 0xFFFF_FFFF s.mgmt.covered 1 } }
    let s := match c with | some p => s.restart 4 p | none => s
    (s.report (coreReport core cause c (d.toNat % 20001))).enterRecovery 3
  else if left = 0 then
    let s := { s with mgmt := { s.mgmt with cores := left } }
    (s.report (coreReport core cause c 0)).enterFatal 2 0
  else
    let s := { s with mgmt := { s.mgmt with cores := left } }
    let s := match c with | some p => s.restart s.lowestCore p | none => s
    (s.report (coreReport core cause c 0)).enterRecovery 3

end Sys2Proof.Machine
end

