-- ==== Sys2Proof/Machine/House.lean ====
section
/-! DEFINITION. The house converter (R361 to R378): codes, sequences and their triggers, the order of
conversions, HC_CONFIG, HC_SELFCAL's start, HC_READ, and the events of a delay's and a conversion's end. -/

namespace Sys2Proof.Machine

/-! ## Codes (R363) -/

/-- Entry k of HC_FACT. -/
def House.factor (x : House) (k : Nat) : Int := x.fact.getD k 0

/-- Σ of the bit weights' corrections: HC_FACT4 to HC_FACT11 are W_11 down to W_4. -/
def House.weights (x : House) (raw : Nat) : Int :=
  ((List.range 8).map fun k => if bitOf (11 - k) raw then x.factor (4 + k) else 0).sum

/-- The code of raw SAR bits under the factors of a mode. -/
def House.code (x : House) (lp : Bool) (raw : BitVec 12) : Nat :=
  let n : Int := 64 * (raw.toNat : Int) + x.weights raw.toNat - 4 * x.factor (if lp then 2 else 0)
  (clampInt 0 4095 (roundHalfEven (n * x.factor (if lp then 3 else 1)) (2 ^ 21))).toNat

/-- The word of HC_DATA (R378). -/
def HcData.word (d : HcData) : Nat :=
  d.code % 4096 + fld 12 5 d.ch + fld 17 4 d.seq + flag 21 d.isOpen + flag 22 d.pull + flag 23 d.restarted
    + flag 24 d.lp + flag 30 d.overrun + flag 31 d.valid

/-! ## Sequences (R366 to R370) -/

/-- A trigger of sequence q (R368): one that finds it disabled, or not idle, is lost. An edge of its pin and a
compare unit's action reach it here. -/
def State.hcTrigger (q : Nat) (s : State) : State :=
  let x := s.hseq q
  if x.en && !x.ending && x.phase == .idle then
    s.setHseq q { x with phase := .delay (s.now + 10 * x.delay), trigWp := ofSigned 32 s.tb.wp }
  else s.setHseq q { x with lost := satAdd 0xFFFF x.lost 1 }

/-- The HC_TRIGGER action of a compare unit (R28, R368): it is no trigger of an enabled sequence whose trigger is a
THREAD pin, which it leaves as it is (DESIGN CHOICE, assumption 106). -/
def State.hcAction (q : Nat) (s : State) : State :=
  if (s.hseq q).en && (s.hseq q).thread then s else s.hcTrigger q

/-- Whether a sequence watches this edge of a pin. -/
def HcSeq.watches (p : Nat) (rising : Bool) (x : HcSeq) : Bool :=
  x.en && x.thread && x.pin == p && (if rising then bitOf 0 x.edge else bitOf 1 x.edge)

/-- An edge of THREAD pin p triggers the sequences that watch it (R368). -/
def State.hcEdge (p : Nat) (rising : Bool) (s : State) : State :=
  (List.range 16).foldl (fun s q => if (s.hseq q).watches p rising then s.hcTrigger q else s) s

/-- A step's conversion, with the options of its channel. -/
def State.stepConv (q i : Nat) (s : State) : Conv :=
  let c := nth (s.hseq q).steps i
  { kind := .step q i, ch := c, opt := (s.chan c).opt }

/-- The sequence whose next step is due. -/
def State.runningSeq (s : State) : Option (Nat × Nat) :=
  (List.range 16).findSome? fun q => match (s.hseq q).phase with | .running i => some (q, i) | _ => none

/-- The ready sequence whose delay ended earliest, the lower number on a tie. -/
def State.readySeq (s : State) : Option Nat :=
  ((List.range 16).foldl (fun (m : Option (Nat × Nat)) q =>
    match (s.hseq q).phase, m with
    | .ready t, none => some (q, t)
    | .ready t, some (_, u) => if t < u then some (q, t) else m
    | _, _ => m) none).map Prod.fst

/-- Whether the calibration machinery's conversions are made in this one: they run in normal mode (R362). -/
def Conv.isCheck (c : Conv) : Bool := c.kind == .check

/-- The converter takes a conversion, under the mode and the threshold set now (R362). -/
def State.convert (c : Conv) (s : State) : State :=
  { s with hc := { s.hc with
    conv := some { c with start := s.now, lp := s.hc.lp && !c.isCheck, owTh := s.hc.owTh } } }

/-- Whether the seal interval has run out (R356). -/
def State.sealTime (s : State) : Bool :=
  s.alive && s.trim.verdict && s.trim.cal.isNone && decide (s.trim.sealBase + s.trim.sealMs * 1_000_000 ≤ s.now)

/-- The conversion of R357 that waits, with the time since which it has waited. One that held a seal back is
followed by the next (assumption 107). -/
def State.checkWaits (s : State) : Option Nat :=
  if s.sealTime && !s.hc.checked && decide (s.therm.step < 2) then
    some (max (s.trim.sealBase + s.trim.sealMs * 1_000_000) s.hc.checkFrom)
  else none

/-- The reference DAC's conversion on internal channel 28 (R357). -/
def checkConv : Conv := { kind := .check, ch := 28, opt := { ext := 0, ow := 0, pullI := 0, pullDown := false } }

/-- Positions 4 to 6 of R369: a ready sequence, an ordinary HC_READ, a calibration conversion. -/
def State.hcIdle (s : State) : State :=
  match s.readySeq with
  | some q => (s.modHseq q fun y => { y with phase := .running 0 }).convert (s.stepConv q 0)
  | none =>
    match s.hc.reads with
    | c :: r => ({ s with hc := { s.hc with reads := r } }).convert c
    | [] => if s.checkWaits.isSome then s.convert checkConv else s

/-- A free converter takes the first of R369 that is waiting. The conversions of CAL_RUN and HC_SELFCAL stand in
the operands of their ends, and nothing else starts during them (R365). -/
def State.hcNext (s : State) : State :=
  let x := s.hc
  if x.conv.isSome || x.selfcal.isSome || s.trim.cal.isSome then s
  else match x.aborted, x.urgents with
    | c :: r, _ => ({ s with hc := { x with aborted := r } }).convert c
    | [], c :: r => ({ s with hc := { x with urgents := r } }).convert c
    | [], [] =>
      match s.runningSeq with
      | some (q, i) => s.convert (s.stepConv q i)
      | none => if s.checkWaits.any fun w => decide (w + 1_000_000 ≤ s.now) then s.convert checkConv else s.hcIdle

/-- SEQUENCE_READY: a sequence's delay ends; during a self-calibration the trigger is lost (R365, R368). -/
def execSequenceReady (t seq : Nat) (s : State) : Out :=
  let s := s.advance t
  .next
    (match (s.hseq seq).phase with
      | .delay u =>
        if !(s.up && decide (u ≤ s.now)) then s
        else if s.hc.selfcal.isSome || s.trim.cal.isSome then
          s.modHseq seq fun x => { x with phase := .idle, lost := satAdd 0xFFFF x.lost 1 }
        else (s.modHseq seq fun x => { x with phase := .ready u }).hcNext
      | _ => s)

/-! ## HC_CONFIG (R366, R367, R443) -/

/-- Channel options without a reserved code; the pull test only on channels 0 to 15. -/
def hcOptOk (ch : Nat) (o : HcOpt) : Bool :=
  decide (o.ow ≤ 2) && decide (o.pullI ≤ 2) && (o.ow != 2 || decide (ch ≤ 15))

/-- HC_BAD of a sequence (R366). -/
def hcSeqOk (p : HcEnableParams) : Bool :=
  inRange 1 p.steps.length 8 && (!p.thread || inRange 1 p.edge 3) && p.steps.all fun x => hcOptOk x.ch x.opt

/-- The holds of R342. -/
def State.hcHeld (s : State) : Bool := s.trim.holdPwr || s.trim.cal.isSome

/-- A channel the calibration machinery holds. -/
def State.chanHeld (claim ch : Nat) (s : State) : Option Reject :=
  require (!(s.hcHeld || inRange 28 ch 31)) (resHeld Op.calRun claim 5 ch noPillow noOwner)

/-- The owner that a pin's holder names. -/
def ThreadPin.owner (x : ThreadPin) : Nat := if x.holder = Op.hcConfig then x.seq else noOwner

/-- HC_CONFIG OP 0's own checks, in the order of R366 and R368 (R404). -/
def hcEnableCheck (p : HcEnableParams) (s : State) : Option Reject :=
  firstOf
    ((p.steps.map fun x =>
        let c := s.chan x.ch
        require (!c.claimed || c.seq == p.seq) (resHeld Op.hcConfig Op.hcConfig 5 x.ch noPillow c.seq))
      ++ (p.steps.map fun x => s.chanHeld Op.hcConfig x.ch)
      ++ [require (!(s.hseq p.seq).en) (resHeld Op.hcConfig Op.hcConfig 6 p.seq noPillow p.seq),
          require (hcSeqOk p) { status := Status.hcBad },
          require (!p.thread || (s.pin p.pin).role != 2)
            (resHeld (s.pin p.pin).holder Op.hcConfig 2 p.pin noPillow (s.pin p.pin).owner)])

/-- A channel takes the options of the first step that names it. -/
def State.claimChan (q : Nat) (x : HcStep) (s : State) : State :=
  if (s.chan x.ch).claimed then s
  else s.setChan x.ch
    { claimed := true, seq := q, opt := x.opt, winEn := x.winEn && decide (x.ch < 16), holder := Op.hcConfig
      lo := x.lo, hi := x.hi }

/-- HC_CONFIG OP 0's effect: channels, the trigger pin where it is free, and the sequence. -/
def hcEnableDo (h : Hdr) (p : HcEnableParams) (s : State) : State :=
  let s := p.steps.foldl (fun s x => s.claimChan p.seq x) s
  let takes := p.thread && (s.pin p.pin).role == 0
  let s := if takes then s.modPin p.pin fun x => { x with role := 2, holder := Op.hcConfig, seq := p.seq } else s
  (s.modHseq p.seq fun x =>
    { en := true, thread := p.thread, pin := p.pin, edge := p.edge, delay := p.delay
      steps := p.steps.map HcStep.ch, claimsPin := takes, runs := x.runs, lost := x.lost }).done h Op.hcConfig 0 []

/-- HC_CONFIG, OP 0 (R366, R443). -/
def execHcConfigEnable (h : Hdr) (p : HcEnableParams) (s : State) : Out :=
  hostCommand h Op.hcConfig 0 false
    (firstOf ([require (decide (p.seq ≤ 15)) (paramBadAt 8)]
      ++ (p.steps.zipIdx.map fun (x, i) => require (decide (x.ch ≤ 31)) (paramBadAt (0x10 + i)))
      ++ (p.steps.zipIdx.map fun (x, i) =>
        firstOf [require (decide (x.lo ≤ 4095)) (paramBadAt (0x1A + 8 * i)),
          require (decide (x.hi ≤ 4095)) (paramBadAt (0x1C + 8 * i))])))
    (hcEnableCheck p) (hcEnableDo h p) s

/-- A disabled sequence gives back its channels and its pin (R367). -/
def State.endSeq (q : Nat) (s : State) : State :=
  let x := s.hseq q
  let s := (List.range 32).foldl (fun s c =>
    if (s.chan c).claimed && (s.chan c).seq == q then s.setChan c {} else s) s
  let s := if x.claimsPin then s.modPin x.pin fun y => { y with role := 0, holder := 0, seq := 0 } else s
  s.setHseq q { runs := x.runs, lost := x.lost }

/-- Whether a conversion of the sequence is in progress, or waits to restart. -/
def State.seqConverting (q : Nat) (s : State) : Bool :=
  let mine (c : Conv) : Bool := match c.kind with | .step p _ => p == q | _ => false
  s.hc.conv.any mine || s.hc.aborted.any mine

/-- HC_CONFIG, OP 1 (R367). -/
def execHcConfigDisable (h : Hdr) (seq : Nat) (s : State) : Out :=
  hostCommand h Op.hcConfig 1 false (require (decide (seq ≤ 15)) (paramBadAt 8)) (fun _ => none)
    (fun s =>
      let s := if !(s.hseq seq).en then s
        else if s.seqConverting seq then s.modHseq seq fun x => { x with ending := true }
        else s.endSeq seq
      s.done h Op.hcConfig 1 []) s

/-- HC_CONFIG, OP 2: the mode and the probe threshold (R362, R443). -/
def execHcConfigMode (h : Hdr) (lp : Bool) (owTh : Nat) (s : State) : Out :=
  hostCommand h Op.hcConfig 2 false (require (inRange 1 owTh 2047) (paramBadAt 0x0E)) (fun _ => none)
    (fun s => ({ s with hc := { s.hc with lp := lp, owTh := owTh } }).done h Op.hcConfig 2 []) s

/-! ## HC_SELFCAL and HC_READ (R364, R365, R371, R373) -/

/-- HC_SELFCAL starts: no further conversion starts until the run ends. One accepted during a run follows it
(R365; assumption 74). -/
def execHcSelfcal (h : Hdr) (s : State) : Out :=
  hostCommand h Op.hcSelfcal 0 false none
    (fun s => require (!s.hcHeld) (resHeld Op.calRun Op.hcSelfcal 7 0 noPillow noOwner))
    (fun s =>
      let x := s.hc
      ({ s with hc :=
          if x.selfcal.isSome then { x with selfcals := x.selfcals ++ [h] } else { x with selfcal := some h } }).release
        Op.hcSelfcal h.tag) s

/-- A read of HC_DATA: VALID and OVERRUN clear and HC_DATA_WP freezes (R371). -/
def State.readHcData (s : State) : Nat × State :=
  let d := s.hc.data
  (d.word, { s with hc := { s.hc with data := { d with valid := false, overrun := false, frozenWp := some (d.frozenWp.getD d.wp) } } })

/-- A read of HC_DATA_WP ends the freeze. -/
def State.readHcWp (s : State) : Nat × State :=
  let d := s.hc.data
  (d.frozenWp.getD d.wp, { s with hc := { s.hc with data := { d with frozenWp := none } } })

/-- HC_READ, DATA form: both registers are read (R373). -/
def execHcReadData (h : Hdr) (s : State) : Out :=
  hostCommand h Op.hcRead 0 false none (fun _ => none)
    (fun s =>
      let (d, s) := s.readHcData
      let (w, s) := s.readHcWp
      s.done h Op.hcRead 0 (leBytes 4 d ++ leBytes 4 w)) s

/-- The checks of CONVERT and URGENT (R373). -/
def hcReadCheck (ch : Nat) (opt : HcOpt) (s : State) : Option Reject :=
  firstOf
    [require ((s.chan ch).claimed || hcOptOk ch opt) { status := Status.hcBad }, s.chanHeld Op.hcRead ch,
     require s.hc.selfcal.isNone (resHeld Op.hcSelfcal Op.hcRead 7 0 noPillow noOwner)]

/-- The options of a host read: the channel's own where a sequence holds it. -/
def State.readOpt (ch : Nat) (opt : HcOpt) (s : State) : HcOpt :=
  if (s.chan ch).claimed then (s.chan ch).opt else opt

/-- HC_READ, CONVERT form. -/
def execHcReadConvert (h : Hdr) (ch : Nat) (opt : HcOpt) (s : State) : Out :=
  hostCommand h Op.hcRead 1 false (require (decide (ch ≤ 31)) (paramBadAt 9)) (hcReadCheck ch opt)
    (fun s =>
      let c : Conv := { kind := .read h, ch := ch, opt := s.readOpt ch opt }
      ({ s with hc := { s.hc with reads := s.hc.reads ++ [c] } }).hcNext) s

/-- HC_READ, URGENT form: another conversion in progress is aborted, but no urgent one. -/
def execHcReadUrgent (h : Hdr) (ch : Nat) (opt : HcOpt) (s : State) : Out :=
  hostCommand h Op.hcRead 2 false (require (decide (ch ≤ 31)) (paramBadAt 9)) (hcReadCheck ch opt)
    (fun s =>
      let c : Conv := { kind := .urgent h, ch := ch, opt := s.readOpt ch opt }
      let x := s.hc
      match x.conv with
      | none => ({ s with hc := { x with urgents := x.urgents ++ [c] } }).hcNext
      | some d =>
        match d.kind with
        | .urgent _ => { s with hc := { x with urgents := x.urgents ++ [c] } }
        | _ =>
          let x := { x with
            conv := none, aborted := x.aborted ++ [{ d with restarted := true }]
            abort := satAdd 0xFFFF x.abort 1 }
          ({ s with hc := x }).convert c) s

/-! ## CONVERSION_END -/

/-- What a conversion found. -/
structure ConvOut where
  code : Nat
  isOpen : Bool
  lo : Nat
  hi : Nat
  deriving DecidableEq, Repr

/-- The result of a conversion with its open-wire test (R363, R374, R375). -/
def House.result (x : House) (c : Conv) (raw rawLo rawHi : BitVec 12) : ConvOut :=
  let q := x.code c.lp raw
  let a := x.code c.lp rawLo
  let b := x.code c.lp rawHi
  { code := q
    isOpen :=
      if c.opt.ow = 1 then decide (c.owTh ≤ ((b : Int) - (a : Int)).natAbs)
      else if c.opt.ow = 2 then (if c.opt.pullDown then decide (q ≤ 63) else decide (4032 ≤ q))
      else false
    lo := if c.opt.ow = 1 then a else q, hi := if c.opt.ow = 1 then b else 0 }

/-- A test writes the channel's bit of HC_OWSTAT; its rise is reported (R376). -/
def State.openWire (c : Conv) (o : ConvOut) (s : State) : State :=
  if c.opt.ow = 0 ∨ 16 ≤ c.ch then s
  else
    let was := s.hc.owStat.getLsbD c.ch
    let bit : BitVec 16 := 1#16 <<< c.ch
    let st := if o.isOpen then s.hc.owStat ||| bit else s.hc.owStat &&& ~~~bit
    let s := { s with hc := { s.hc with owStat := st } }
    if o.isOpen && !was then
      s.report
        { cls := 16, body := leBytes 1 c.ch ++ leBytes 1 c.opt.ow ++ leBytes 2 o.lo ++ leBytes 2 o.hi }
    else s

/-- The register form of a result. -/
def hcResult (c : Conv) (q : Nat) (o : ConvOut) (wp : Nat) : HcData :=
  { code := o.code, ch := c.ch, seq := q, isOpen := o.isOpen, pull := c.opt.ow == 2, restarted := c.restarted
    lp := c.lp, valid := true, wp := wp }

/-- A sequence's result lands in HC_DATA, and its window is checked (R370 to R372). -/
def State.landResult (c : Conv) (q : Nat) (o : ConvOut) (s : State) : State :=
  let old := s.hc.data
  let d := { hcResult c q o (s.hseq q).trigWp with overrun := old.valid, frozenWp := old.frozenWp }
  let s := { s with hc := { s.hc with data := d, ovr := satAdd 0xFFFF s.hc.ovr (if old.valid then 1 else 0) } }
  let w := s.chan c.ch
  if decide (c.ch < 16) && w.winEn && (decide (o.code < w.lo) || decide (w.hi < o.code)) then
    let n := tget (fun _ => 0) s.hc.wcnt c.ch
    { s with hc := { s.hc with
      wout := s.hc.wout ||| (1#16 <<< c.ch), wcnt := tset (fun _ => 0) c.ch (satAdd 0xFFFF n 1) s.hc.wcnt } }
  else s

/-- A step ends: the next one is due, or the sequence's run is complete; a disabled one is released. -/
def State.stepEnd (q i : Nat) (s : State) : State :=
  let x := s.hseq q
  let last := decide (x.steps.length ≤ i + 1)
  let s := s.setHseq q { x with
    phase := if last then .idle else .running (i + 1), runs := satAdd 0xFFFF x.runs (if last then 1 else 0) }
  if x.ending then s.endSeq q else s

/-- CONVERSION_END with the raw SAR bits of the conversion and of the probe test's two (R363, R369 to R376). -/
def execConversionEnd (t : Nat) (raw rawLo rawHi : BitVec 12) (s : State) : Out :=
  let s := s.advance t
  .next
    (match s.hc.conv with
      | none => s
      | some c =>
        if !s.up then s
        else
          let o := s.hc.result c raw rawLo rawHi
          let s := { s with hc := { s.hc with conv := none } }
          let s := if c.isCheck then s else s.openWire c o
          match c.kind with
          | .check => ({ s with hc := { s.hc with checked := true } }).hcNext
          | .step q i => ((s.landResult c q o).stepEnd q i).hcNext
          | .read h => (s.done h Op.hcRead 1 (leBytes 4 (hcResult c 0 o 0).word ++ leBytes 4 0)).hcNext
          | .urgent h => (s.done h Op.hcRead 2 (leBytes 4 (hcResult c 0 o 0).word ++ leBytes 4 0)).hcNext)

end Sys2Proof.Machine
end

