-- ==== Sys2Proof/Machine/Bobbin.lean ====
section
/-! DEFINITION. One bobbin: cells and pairs (R55 to R59), the pass and its conversions (R62 to R68, R70,
R74), the combiner (R60), the trims of a sheet (R53, R54, R340) and the sums taken from the reference
pairs (R354). -/

namespace Sys2Proof.Machine

/-! ## Cells -/

/-- The level of a cell; one that no image has programmed reads level 0 (R57). -/
def Bobbin.level (b : Bobbin) (row cell : Nat) : Nat := tget (fun _ => 0) b.cells (1040 * row + cell)

/-- The value of a column pair on a row (R56). -/
def Bobbin.pair (b : Bobbin) (row j : Nat) : Int := (b.level row (2 * j) : Int) - (b.level row (2 * j + 1) : Int)

/-- The exact column sum of pair j under the rows' codes (R62, R64). -/
def Bobbin.sum (b : Bobbin) (codes : List Nat) (j : Nat) : Int :=
  (codes.zipIdx.map fun (n, i) => if n = 0 then 0 else (n : Int) * b.pair i j).sum

/-- What reference pair g holds on row i (R73). -/
def refLevel (g i : Nat) : Int :=
  if i % 8 = g then (if g < 4 then ((i / 8 % 16 : Nat) : Int) else -((i / 8 % 16 : Nat) : Int)) else 0

/-- The expected reference sum E_g of a pass's codes (R74). -/
def refSum (codes : List Nat) (g : Nat) : Int :=
  (codes.zipIdx.map fun (n, i) => (n : Int) * refLevel g i).sum

/-! ## Converters and trims -/

/-- The out-of-service converter u_g of group g and whether it steps upward; u_g is 32 at reset (R70,
R352). -/
def Bobbin.uOf (b : Bobbin) (g : Nat) : Nat × Bool := tget (fun _ => (32, false)) b.u g

/-- The converter that serves main pair j: slot k of its group by converter k, or k + 1 from u_g on
(R70). Converters are numbered 33 × group + local number. -/
def Bobbin.convOf (b : Bobbin) (j : Nat) : Nat :=
  let g := j / 64
  let k := j % 64 / 2
  33 * g + (if k < (b.uOf g).1 then k else k + 1)

/-- The path gain Γ_j, a property of the part (R67). -/
def Bobbin.gamma (b : Bobbin) (j : Nat) : Nat := tget (fun _ => 16384) b.pathGain j

/-- The offset o_(c,r) of converter c at range r, a property of the part (R67). -/
def Bobbin.ofs (b : Bobbin) (c r : Nat) : Int := tget (fun _ => 0) b.convOfs (4 * c + r)

/-- The code of a conversion of the sum S at range r (R67). `eps` is the conversion's read noise and
residual non-linearity in 1/65,536 LSB. -/
def convCode (sum : Int) (gamma r : Nat) (o eps : Int) : Int :=
  clampInt (-128) 127
    ((sum * (gamma : Int) + o * 2 ^ (14 + r) + eps * 2 ^ (4 + r) + 2 ^ (19 + r)) / 2 ^ (20 + r))

/-- The partial P of a code (R68). -/
def trimStage (q o : Int) (g r : Nat) : Int := roundHalfEven ((64 * q - o) * (g : Int) * 2 ^ r) 16384

/-- The trims of an epoch: the newest set that is not newer (R356). Before the first sealed epoch every
offset is 0 and K is 16,384 (assumption 24). -/
def Bobbin.set (b : Bobbin) (epoch : Nat) : TrimSet :=
  (b.sets.find? fun x => decide (x.epoch ≤ epoch)).getD { epoch := 0, o := [], k := 16384 }

/-- The offset trim O of converter c at range r. -/
def TrimSet.ofs (x : TrimSet) (c r : Nat) : Int := tget (fun _ => 0) x.o (4 * c + r)

/-- The column-path gain G_0 of a pair, 16,384 while it has none. -/
def Bobbin.gain0 (b : Bobbin) (j : Nat) : Nat := ((tget (fun _ => some 16384) b.g0 j).getD 16384).toNat

/-- The gain of R68: G_0 × K / 16,384, rounded to nearest with ties to even (R340). -/
def gainOf (g0 k : Nat) : Nat := natRound (g0 * k)
where
  /-- n / 16,384 to nearest, ties to even. -/
  natRound (n : Nat) : Nat := (roundHalfEven (n : Int) 16384).toNat

/-! ## The pass (R64) -/

/-- What a pass delivers: the partials of the 512 main pairs, whether it is saturated, whether a
saturated conversion belongs to a range field below 3 (R117), and (E_g, P_g) of the eight reference
pairs. -/
structure PassOut where
  ps : List Int
  sat : Bool
  low : Bool
  refs : List (Int × Int)
  deriving DecidableEq, Repr

/-- The range of main pair j: the high field for every pair of a W4 bobbin and for the high slices of a
W8 bobbin, the low field for the low slices (R66). -/
def Bobbin.rangeOf (b : Bobbin) (j rh rl : Nat) : Nat := if b.w4 || j % 2 == 0 then rh else rl

/-- The noise of conversion j: the operand's figure, 0 where it lists none. -/
def noiseAt (noise : SparseInt) (j : Nat) : Int :=
  ((noise.find? fun x => x.1 == j).map Prod.snd).getD 0

/-- One pass of a bobbin under the rows' codes, the range fields, an epoch's trims and the noise of each
conversion, index 0 to 511 the main pairs and 512 to 519 the reference pairs (R64 to R68, R74). -/
def Bobbin.pass (b : Bobbin) (codes : List Nat) (rh rl epoch : Nat) (noise : SparseInt) : PassOut :=
  let t := b.set epoch
  let qs := (List.range 512).map fun j =>
    let r := b.rangeOf j rh rl
    convCode (b.sum codes j) (b.gamma j) r (b.ofs (b.convOf j) r) (noiseAt noise j)
  let sat (j : Nat) (q : Int) : Bool := q == -128 || q == 127
  let ps := qs.zipIdx.map fun (q, j) =>
    let r := b.rangeOf j rh rl
    trimStage q (t.ofs (b.convOf j) r) (gainOf (b.gain0 j) t.k) r
  let refs := (List.range 8).map fun g =>
    let c := 33 * g + (b.uOf g).1
    let q := convCode (b.sum codes (512 + g)) (b.gamma (512 + g)) 2 (b.ofs c 2) (noiseAt noise (512 + g))
    (refSum codes g, trimStage q (t.ofs c 2) (gainOf (b.gain0 (512 + g)) t.k) 2)
  { ps := ps
    sat := qs.zipIdx.any fun (q, j) => sat j q
    low := qs.zipIdx.any fun (q, j) => sat j q && decide (b.rangeOf j rh rl < 3)
    refs := refs }

/-! ## The combiner (R60, R61) -/

/-- Entry i of a list of partials. -/
def intNth (l : List Int) (i : Nat) : Int := l.getD i 0

/-- The partials of one pass recombined by format: a W8 bobbin joins its slices. -/
def slices (w4 : Bool) (ps : List Int) (j : Nat) : Int :=
  if w4 then intNth ps j else 16 * intNth ps (2 * j) + intNth ps (2 * j + 1)

/-- out_j of A4 work from its one pass, of A8 work from the held high-nibble partials and the low-nibble
ones. -/
def combine (w4 a4 : Bool) (hi lo : List Int) (j : Nat) : Int :=
  if a4 then slices w4 lo j else 16 * slices w4 hi j + slices w4 lo j

/-! ## Sums over the reference pairs (R354) -/

/-- Adds n under key k. -/
def tadd (k n : Nat) (t : Tbl Nat) : Tbl Nat := tset (fun _ => 0) k (tget (fun _ => 0) t k + n) t

/-- The sums of R354 over one pass: |E_g| and |P_g|, every pair with E_g ≠ 0, the latter apart by the K
in force. -/
def Bobbin.takeRefs (k : Nat) (refs : List (Int × Int)) (b : Bobbin) : Bobbin :=
  refs.zipIdx.foldl (fun b x =>
    let ((e, p), g) := x
    if e = 0 then b
    else
      { b with
        sumE := b.sumE + e.natAbs
        sumP := tadd k p.natAbs b.sumP
        grpE := tadd g e.natAbs b.grpE
        grpP := tadd (65536 * g + k) p.natAbs b.grpP })
    { b with refRec := refs }

/-- Whether a reference pair is beyond the pass check's limits (R493). -/
def refBad (x : Int × Int) : Bool := decide (4096 ≤ x.1.natAbs) && decide (2048 < (x.2 - x.1).natAbs)

/-- Counts, for each group, the consecutive passes beyond the limits. -/
def Bobbin.countBad (refs : List (Int × Int)) (b : Bobbin) : Bobbin :=
  { b with bad := refs.zipIdx.foldl (fun t x =>
      tset (fun _ => 0) x.2 (if refBad x.1 then tget (fun _ => 0) t x.2 + 1 else 0) t) b.bad }

/-- Whether the pass check fails: a group beyond the limits on two consecutive passes. -/
def Bobbin.passFails (b : Bobbin) : Bool := (List.range 8).any fun g => decide (2 ≤ tget (fun _ => 0) b.bad g)

/-! ## Trims of a sheet (R53, R54) -/

/-- The newest epoch bound to a sheet at or before n (R53), 0 when none is. -/
def Trim.epochOf (x : Trim) (n : Nat) : Nat := ((x.binds.find? fun b => decide (b.2 ≤ n)).map Prod.fst).getD 0

/-- The epoch a pass of sheet n asks for: the newest sealed one at a bobbin's first pass after its domain was
ungated, else the one bound to the sheet (R53, R473). -/
def Bobbin.wants (x : Trim) (n : Nat) (b : Bobbin) : Nat := if b.live = [] then x.epoch else x.epochOf n

/-- The epoch a bobbin holds for a pass of sheet n: that of the newest sheet it holds that is not later;
of the oldest one it holds when all are later. -/
def Bobbin.held (b : Bobbin) (n : Nat) : Option Nat :=
  match b.live.find? fun x => decide (x.1 ≤ n) with
  | some x => some x.2
  | none => b.live.getLast?.map Prod.snd

/-- A pass of sheet n comes to a bobbin: it adopts the epoch bound to the sheet where it holds a place
for it, else it keeps on with the trims it holds, and waits (R53, R54). Sheets that run on one epoch share one set of
trims and take one place of the two (DESIGN CHOICE, assumption 133). Answers the epoch the pass uses. -/
def Bobbin.adopt (want n : Nat) (b : Bobbin) : Nat × Bobbin :=
  match b.live with
  | [] => (want, { b with live := [(n, want)] })
  | (m, e) :: rest =>
    if n ≤ m ∨ want = e then ((b.held n).getD e, b)
    else if n < b.adoptFrom then (e, b)
    else if rest = [] then (want, { b with live := [(n, want), (m, e)] })
    else (e, { b with blocked := true })

/-- The trims of the older sheet are released; a bobbin that waited adopts from the first sheet whose
boundary falls after the release (R54). -/
def Bobbin.release (sheet : Nat) (b : Bobbin) : Bobbin :=
  { b with
    live := b.live.take 1
    blocked := false
    adoptFrom := if b.blocked then sheet + 1 else b.adoptFrom }

end Sys2Proof.Machine
end

