-- ==== Sys2Proof/Machine/Float.lean ====
section
/-! DEFINITION. IEEE 754 binary32 and bfloat16 (R7): values as sign, significand and exponent, rounding
to nearest with ties to even, and the screens of R91 and R137. -/

namespace Sys2Proof.Machine

/-- A floating-point datum: not a number, an infinity, or (−1)^neg × m × 2^e. -/
inductive Fp where
  | nan
  | inf (neg : Bool)
  | fin (neg : Bool) (m : Nat) (e : Int)
  deriving DecidableEq, Repr

/-- The datum of a binary32 word. -/
def f32Decode (w : BitVec 32) : Fp :=
  let n := w.toNat
  let neg := bitOf 31 n
  let ex := bitsOf 23 8 n
  let fr := bitsOf 0 23 n
  if ex = 255 then (if fr = 0 then .inf neg else .nan)
  else if ex = 0 then .fin neg fr (-149)
  else .fin neg (fr + 2 ^ 23) ((ex : Int) - 150)

/-- The quiet NaN that an invalid operation gives. -/
def f32NaN : BitVec 32 := 0x7FC0_0000

/-- An infinity. -/
def f32Inf (neg : Bool) : BitVec 32 := BitVec.ofNat 32 (flag 31 neg + 0x7F80_0000)

/-- The largest finite binary32 of a sign. -/
def f32Max (neg : Bool) : BitVec 32 := BitVec.ofNat 32 (flag 31 neg + 0x7F7F_FFFF)

/-- A zero. -/
def f32Zero (neg : Bool) : BitVec 32 := BitVec.ofNat 32 (flag 31 neg)

/-- n / d rounded to the nearest integer, halves to even; d is positive. -/
def natRoundEven (n d : Nat) : Nat := (roundHalfEven (n : Int) d).toNat

/-- (n / d) × 2^e rounded to binary32; d is positive. -/
def f32Pack (neg : Bool) (n d : Nat) (e : Int) : BitVec 32 :=
  if n = 0 then f32Zero neg
  else
    let k0 : Int := (n.log2 : Int) - (d.log2 : Int)
    -- the exponent of the leading bit of n / d
    let ge : Bool := if 0 ≤ k0 then d * 2 ^ k0.toNat ≤ n else d ≤ n * 2 ^ (-k0).toNat
    let k : Int := if ge then k0 else k0 - 1
    -- the last place: 23 below the leading bit, never below 2^-149
    let q : Int := max (k + e - 23) (-149)
    let sh : Int := e - q
    let r := if 0 ≤ sh then natRoundEven (n * 2 ^ sh.toNat) d else natRoundEven n (d * 2 ^ (-sh).toNat)
    let (r, q) := if r = 2 ^ 24 then (2 ^ 23, q + 1) else (r, q)
    if r < 2 ^ 23 then BitVec.ofNat 32 (flag 31 neg + r)
    else
      let ex := q + 150
      if 255 ≤ ex then f32Inf neg
      else BitVec.ofNat 32 (flag 31 neg + ex.toNat * 2 ^ 23 + (r - 2 ^ 23))

/-- An exact integer to binary32, rounded once. -/
def f32OfInt (v : Int) : BitVec 32 := f32Pack (decide (v < 0)) v.natAbs 1 0

/-- An exact integer times 2^e to binary32, rounded once. -/
def f32OfScaled (v : Int) (e : Int) : BitVec 32 := f32Pack (decide (v < 0)) v.natAbs 1 e

/-- A signed finite datum as an integer at exponent `at_`, which is not above its own. -/
def scaledAt (neg : Bool) (m : Nat) (e at_ : Int) : Int :=
  let v : Int := (m * 2 ^ (e - at_).toNat : Nat)
  if neg then -v else v

/-- Addition. -/
def f32Add (a b : BitVec 32) : BitVec 32 :=
  match f32Decode a, f32Decode b with
  | .nan, _ | _, .nan => f32NaN
  | .inf s, .inf t => if s = t then f32Inf s else f32NaN
  | .inf s, _ | _, .inf s => f32Inf s
  | .fin s m e, .fin t n f =>
    let at_ := min e f
    let v := scaledAt s m e at_ + scaledAt t n f at_
    if v = 0 then f32Zero (s && t) else f32OfScaled v at_

/-- The sign turned. -/
def f32Neg (a : BitVec 32) : BitVec 32 := a ^^^ 0x8000_0000

/-- Subtraction. -/
def f32Sub (a b : BitVec 32) : BitVec 32 :=
  match f32Decode b with
  | .nan => f32NaN
  | _ => f32Add a (f32Neg b)

/-- Multiplication. -/
def f32Mul (a b : BitVec 32) : BitVec 32 :=
  match f32Decode a, f32Decode b with
  | .nan, _ | _, .nan => f32NaN
  | .inf s, .inf t => f32Inf (s != t)
  | .inf s, .fin t n _ => if n = 0 then f32NaN else f32Inf (s != t)
  | .fin s m _, .inf t => if m = 0 then f32NaN else f32Inf (s != t)
  | .fin s m e, .fin t n f => f32Pack (s != t) (m * n) 1 (e + f)

/-- Division. -/
def f32Div (a b : BitVec 32) : BitVec 32 :=
  match f32Decode a, f32Decode b with
  | .nan, _ | _, .nan => f32NaN
  | .inf _, .inf _ => f32NaN
  | .inf s, .fin t _ _ => f32Inf (s != t)
  | .fin s _ _, .inf t => f32Zero (s != t)
  | .fin s m e, .fin t n f =>
    if n = 0 then (if m = 0 then f32NaN else f32Inf (s != t)) else f32Pack (s != t) m n (e - f)

/-- a < b; no NaN is below or above anything. -/
def f32Lt (a b : BitVec 32) : Bool :=
  match f32Decode a, f32Decode b with
  | .nan, _ | _, .nan => false
  | .inf s, .inf t => s && !t
  | .inf s, .fin _ _ _ => s
  | .fin _ _ _, .inf t => !t
  | .fin s m e, .fin t n f => decide (scaledAt s m e (min e f) < scaledAt t n f (min e f))

/-- Whether a word is finite. -/
def f32Finite (a : BitVec 32) : Bool := bitsOf 23 8 a.toNat != 255

/-- Whether a word is positive, finite and normal (R94, R132, R191). -/
def f32PosNormal (a : BitVec 32) : Bool := !bitOf 31 a.toNat && inRange 1 (bitsOf 23 8 a.toNat) 254

/-- A finite word rounded to an integer, ties to even; an infinity counts as 2^200 of its sign. -/
def f32Round (a : BitVec 32) : Int :=
  match f32Decode a with
  | .nan => 0
  | .inf s => if s then -(2 ^ 200) else 2 ^ 200
  | .fin s m e =>
    if 0 ≤ e then scaledAt s m e 0
    else roundHalfEven (if s then -(m : Int) else (m : Int)) (2 ^ (-e).toNat)

/-- The floor of a finite word. -/
def f32Floor (a : BitVec 32) : Int :=
  match f32Decode a with
  | .nan => 0
  | .inf s => if s then -(2 ^ 200) else 2 ^ 200
  | .fin s m e =>
    if 0 ≤ e then scaledAt s m e 0
    else (if s then -(m : Int) else (m : Int)) / ((2 ^ (-e).toNat : Nat) : Int)

/-- A word that is not finite replaced as R137 does for an intermediate: NaN by 0, an infinity by the
largest finite word of its sign; and whether it was replaced. -/
def f32Screen (a : BitVec 32) : BitVec 32 × Bool :=
  match f32Decode a with
  | .nan => (0, true)
  | .inf s => (f32Max s, true)
  | .fin _ _ _ => (a, false)

/-! ## bfloat16 -/

/-- A bfloat16 datum as a binary32 word, exactly. -/
def bf16ToF32 (v : Nat) : BitVec 32 := BitVec.ofNat 32 (v % 2 ^ 16 * 2 ^ 16)

/-- The screen of R91 on raw bfloat16: NaN is 0, an infinity the largest finite bfloat16 of its sign. -/
def bf16Screen (v : Nat) : Nat × Bool :=
  if bitsOf 7 8 v = 255 then
    if bitsOf 0 7 v = 0 then (flag 15 (bitOf 15 v) + 0x7F7F, true) else (0, true)
  else (v, false)

/-- A finite word rounded to bfloat16; where that gives an infinity, the largest finite bfloat16 of its
sign, and the second component says so (R137). -/
def bf16OfF32 (a : BitVec 32) : Nat × Bool :=
  let n := a.toNat
  let r := natRoundEven (n % 2 ^ 31) (2 ^ 16)
  let s := flag 15 (bitOf 31 n)
  if 0x7F80 ≤ r then (s + 0x7F7F, true) else (s + r, false)

/-! ## The transcendental steps (R188) -/

/-- The exponent of the last place of (n / d) × 2^e, n and d positive: 23 below the leading bit, never below 2^-149. -/
def lastPlace (n d : Nat) (e : Int) : Int :=
  let k0 : Int := (n.log2 : Int) - (d.log2 : Int)
  let ge : Bool := if 0 ≤ k0 then d * 2 ^ k0.toNat ≤ n else d ≤ n * 2 ^ (-k0).toNat
  max ((if ge then k0 else k0 - 1) + e - 23) (-149)

/-- Whether a finite word lies within u ulp of ±(n / d) × 2^e. -/
def nearBy (u : Nat) (neg : Bool) (n d : Nat) (e : Int) (w : BitVec 32) : Bool :=
  match f32Decode w with
  | .fin s m f =>
    let q := lastPlace n d e
    let t := min (min e f) q
    let x : Int := scaledAt s (m * d) f t - scaledAt neg n e t
    decide (x.natAbs ≤ u * d * 2 ^ (q - t).toNat)
  | _ => false

/-- The free word w where it lies within u ulp of ±(n / d) × 2^e, else the nearest word (R188, assumption 9). -/
def heldNear (u : Nat) (neg : Bool) (n d : Nat) (e : Int) (w : BitVec 32) : BitVec 32 :=
  if nearBy u neg n d e w then w else f32Pack neg n d e

/-- A word moved by at most two places within its sign. -/
def ulpMove (a : BitVec 32) (d : Int) : BitVec 32 :=
  let n : Nat := a.toNat % 2 ^ 31
  let m := clampInt 0 0x7F7F_FFFF ((n : Int) + clampInt (-2) 2 d)
  BitVec.ofNat 32 (flag 31 (bitOf 31 a.toNat) + m.toNat)

/-- The reciprocal, within 1 ulp of the exact one (R188, assumption 9); 1 / 1 is 1. -/
def f32Recip (a : BitVec 32) : BitVec 32 :=
  let near := f32Div 0x3F80_0000 a
  match f32Decode a, f32Decode near with
  | .fin s m e, .fin _ _ _ =>
    if a = 0x3F80_0000 then a else heldNear 1 s 1 m (-e) (ulpMove near (Config.recipUlp a))
  | _, _ => near

/-- The floor of the square root of n, by `fuel` steps of bisection between lo and hi. -/
def sqrtBetween (n : Nat) : Nat → Nat → Nat → Nat
  | 0, lo, _ => lo
  | fuel + 1, lo, hi =>
    let m := (lo + hi) / 2
    if m * m ≤ n then sqrtBetween n fuel m hi else sqrtBetween n fuel lo m

/-- The floor of the square root of a number below 2^128. -/
def natSqrt (n : Nat) : Nat := sqrtBetween n 65 0 (2 ^ 64)

/-- The reciprocal square root, within 1 ulp of the exact one (R188, assumption 9): infinite at zero, NaN below it.
The root of 2^120 / m is taken to 47 bits or more, well inside an ulp of the result. -/
def f32Rsqrt (a : BitVec 32) : BitVec 32 :=
  match f32Decode a with
  | .nan => f32NaN
  | .inf s => if s then f32NaN else 0
  | .fin s m e =>
    if m = 0 then f32Inf s
    else if s then f32NaN
    else
      let (m, e) := if e % 2 = 0 then (m, e) else (2 * m, e - 1)
      let r := natSqrt (2 ^ 120 / m)
      let x := -60 - e / 2
      heldNear 1 false r 1 x (ulpMove (f32Pack false r 1 x) (Config.rsqrtUlp a))

/-- ln 2 in 1/2^128. -/
def ln2Fixed : Nat := 235865763225513294137944142764154484399

/-- exp of r / 2^128, r below ln 2, in 1/2^128: the first 40 terms of the series. -/
def expSeries (r : Nat) : Nat :=
  ((List.range 40).foldl (fun (x : Nat × Nat) i =>
    let t := x.1 * r / 2 ^ 128 / (i + 1)
    (t, x.2 + t)) (2 ^ 128, 2 ^ 128)).2

/-- exp of a finite number as m × 2^e, to 100 bits and more. A number of magnitude 256 or above counts as ±256, beyond
the range of binary32 either way. -/
def expParts (neg : Bool) (m : Nat) (e : Int) : Nat × Int :=
  let x : Nat := if 0 ≤ e + 128 then m * 2 ^ (e + 128).toNat else m / 2 ^ (-(e + 128)).toNat
  let x := min x (256 * 2 ^ 128)
  let v : Int := if neg then -(x : Int) else (x : Int)
  let k := v / (ln2Fixed : Int)
  (expSeries (v - k * (ln2Fixed : Int)).toNat, k - 128)

/-- The exponential, within 2 ulp of the exact one and otherwise free (R188, assumption 9); exp(0) is 1 (R193). -/
def f32Exp (a : BitVec 32) : BitVec 32 :=
  match f32Decode a with
  | .nan => f32NaN
  | .inf s => if s then 0 else f32Inf false
  | .fin s m e =>
    if m = 0 then 0x3F80_0000
    else let (n, x) := expParts s m e; heldNear 2 false n 1 x (Config.expBits a)

end Sys2Proof.Machine
end

