-- ==== Sys2Proof/Machine/Image.lean ====
section
/-! DEFINITION. The pricking image as records (R143 to R159, R94, R132): the fields read from its bytes,
the iteration counts of R156, the parts of a split (R122, R173, R174) and the tiles a token drives
(R159 to R161). -/

namespace Sys2Proof.Machine

/-! ## Fields -/

/-- Byte a of a stored image; a byte never written reads 0. -/
def Prick.byte (p : Prick) (a : Nat) : Byte := (tget (fun _ => none) p.bytes a).getD 0

/-- n bytes from a. -/
def Prick.slice (p : Prick) (a n : Nat) : Bytes := (List.range n).map fun i => p.byte (a + i)

/-- The unsigned field of n bytes at a. -/
def Prick.num (p : Prick) (a n : Nat) : Nat := leNat (p.slice a n)

/-- FLAGS of the header (R143). -/
def Prick.flags (p : Prick) : Nat := p.num 0x06 2
/-- FLAGS.PLAN. -/
def Prick.plan (p : Prick) : Bool := bitOf 0 p.flags
/-- FLAGS.LINES. -/
def Prick.lines (p : Prick) : Bool := bitOf 1 p.flags
/-- N_OPS. -/
def Prick.nOps (p : Prick) : Nat := p.num 0x08 2
/-- N_TILES. -/
def Prick.nTiles (p : Prick) : Nat := p.num 0x0A 2
/-- N_QDESC. -/
def Prick.nQdesc (p : Prick) : Nat := p.num 0x0C 2
/-- N_EDESC. -/
def Prick.nEdesc (p : Prick) : Nat := p.num 0x0E 1
/-- N_ACT. -/
def Prick.nAct (p : Prick) : Nat := p.num 0x0F 1
/-- N_STAGES. -/
def Prick.nStages (p : Prick) : Nat := p.num 0x10 1
/-- N_PILLOWS. -/
def Prick.nPil (p : Prick) : Nat := p.num 0x11 1
/-- N_LEN. -/
def Prick.nLen (p : Prick) : Nat := p.num 0x12 1
/-- LEN_MAX[i]. -/
def Prick.lenMax (p : Prick) (i : Nat) : Nat := p.num (0x14 + 4 * i) 4
/-- INST_STRIDE. -/
def Prick.instStride (p : Prick) : Nat := p.num 0x24 4
/-- PRIV_SP_BASE. -/
def Prick.privSpBase (p : Prick) : Nat := p.num 0x28 6
/-- PRIV_SP_SIZE. -/
def Prick.privSpSize (p : Prick) : Nat := p.num 0x30 4
/-- PRIV_HBM_SIZE. -/
def Prick.privHbmSize (p : Prick) : Nat := p.num 0x34 4
/-- PRIV_HBM_BASE. -/
def Prick.privHbmBase (p : Prick) : Nat := p.num 0x38 6

/-- The sections of R144: the header's offset field, the entry count and the entry size. -/
def Prick.sections (p : Prick) : List (Nat × Nat × Nat) :=
  [(0x40, p.nOps, 256), (0x44, p.nTiles, 16), (0x48, p.nQdesc, 16), (0x4C, p.nEdesc, 32),
   (0x50, p.nAct, 272), (0x54, p.nStages, 16)]

/-! ## Records -/

/-- An operand reference (R151). -/
structure Opnd where
  base : Nat
  win : Nat
  oflags : Nat
  extent : Nat
  tok : Nat
  deriving DecidableEq, Repr

/-- The operand names a window. -/
def Opnd.windowed (o : Opnd) : Bool := bitOf 4 o.win
/-- The window number. -/
def Opnd.window (o : Opnd) : Nat := o.win % 16
/-- The window is a ground-buffer window. -/
def Opnd.ground (o : Opnd) : Bool := bitOf 5 o.win
/-- OFLAGS.CTX. -/
def Opnd.ctx (o : Opnd) : Bool := bitOf 0 o.oflags
/-- OFLAGS.INST. -/
def Opnd.inst (o : Opnd) : Bool := bitOf 1 o.oflags
/-- The operand's fields are all 0. -/
def Opnd.isZero (o : Opnd) : Bool :=
  o.base == 0 && o.win == 0 && o.oflags == 0 && o.extent == 0 && o.tok == 0

/-- The operand at byte a. -/
def Prick.opnd (p : Prick) (a : Nat) : Opnd :=
  { base := p.num a 6, win := p.num (a + 6) 1, oflags := p.num (a + 7) 1, extent := p.num (a + 8) 4
    tok := p.num (a + 12) 4 }

/-- A loop level (R154). -/
structure Level where
  dim : Nat
  lflags : Nat
  div : Nat
  bound : Nat
  strA : Int
  strE : Int
  strO : Int
  strT : Int
  deriving DecidableEq, Repr

/-- LINE_ADV. -/
def Level.lineAdv (l : Level) : Bool := bitOf 0 l.lflags
/-- LEN: the length is a run-time length. -/
def Level.runTime (l : Level) : Bool := bitOf 1 l.lflags
/-- LEN_ID. -/
def Level.lenId (l : Level) : Nat := bitsOf 2 2 l.lflags
/-- RELEASE. -/
def Level.rel (l : Level) : Bool := bitOf 4 l.lflags

/-- The level at byte a. -/
def Prick.level (p : Prick) (a : Nat) : Level :=
  let s (o : Nat) : Int := toSigned 32 (p.num (a + o) 4)
  { dim := p.num a 1, lflags := p.num (a + 1) 1, div := p.num (a + 2) 2, bound := p.num (a + 4) 4
    strA := s 8, strE := s 12, strO := s 16, strT := s 20 }

/-- An operation record (R149) with its token gather (R152). -/
structure OpRec where
  kind : Nat
  stage : Nat
  flags : Nat
  tileBase : Nat
  qdesc : Nat
  edesc : Nat
  grid : Nat
  split : Nat
  fence : Nat
  arg : Nat
  count : Nat
  a : Opnd
  e : Opnd
  o : Opnd
  segLen : Nat
  segN : Nat
  gflags : Nat
  segStride : Int
  levels : List Level
  ltab : Nat
  ltabCtrl : Nat
  mcast : Nat
  deriving DecidableEq, Repr

/-- KIND values (R150). -/
def kXbar : Nat := 1
/-- TAT. -/
def kTat : Nat := 2
/-- DMA. -/
def kDma : Nat := 3
/-- FENCE. -/
def kFence : Nat := 4
/-- SETLEN. -/
def kSetlen : Nat := 5
/-- RECORD. -/
def kRecord : Nat := 6

/-- The byte at which operation i stands. -/
def Prick.opAt (p : Prick) (i : Nat) : Nat := p.num 0x40 4 + 256 * i

/-- Operation i. -/
def Prick.op (p : Prick) (i : Nat) : OpRec :=
  let b := p.opAt i
  { kind := p.num b 1, stage := p.num (b + 1) 1, flags := p.num (b + 2) 2, tileBase := p.num (b + 4) 2
    qdesc := p.num (b + 6) 1, edesc := p.num (b + 7) 1, grid := p.num (b + 8) 1
    split := p.num (b + 9) 1, fence := p.num (b + 0x0A) 1, arg := p.num (b + 0x0B) 1
    count := p.num (b + 0x0C) 4, a := p.opnd (b + 0x10), e := p.opnd (b + 0x20)
    o := p.opnd (b + 0x30), segLen := p.num (b + 0x40) 2, segN := p.num (b + 0x42) 1
    gflags := p.num (b + 0x43) 1, segStride := toSigned 32 (p.num (b + 0x44) 4)
    levels := (List.range 6).map fun l => p.level (b + 0x50 + 24 * l)
    ltab := p.num (b + 0xE0) 6, ltabCtrl := p.num (b + 0xE6) 1, mcast := p.num (b + 0x20) 6 }

/-- ASYNC. -/
def OpRec.async (o : OpRec) : Bool := bitOf 0 o.flags
/-- PAR_N. -/
def OpRec.parN (o : OpRec) : Bool := bitOf 1 o.flags
/-- GRID_M. -/
def OpRec.gm (o : OpRec) : Nat := 2 ^ bitsOf 0 2 o.grid
/-- GRID_N. -/
def OpRec.gn (o : OpRec) : Nat := 2 ^ bitsOf 4 2 o.grid
/-- The split P of R122. -/
def OpRec.parts (o : OpRec) : Nat := 2 ^ bitsOf 0 2 o.split
/-- The stages an operation runs on (R173). -/
def OpRec.nStages (o : OpRec) : Nat := if o.kind = kXbar then o.gm * o.gn * o.parts else 1
/-- The line table sets a length. -/
def OpRec.lineTable (o : OpRec) : Bool := bitOf 7 o.ltabCtrl
/-- Elements of one gathered token (R152, R190). -/
def OpRec.tokLen (o : OpRec) : Nat := o.segN * o.segLen

/-- The unused level. -/
def noLevel : Level :=
  { dim := 0, lflags := 0, div := 0, bound := 0, strA := 0, strE := 0, strO := 0, strT := 0 }

/-- Level l of an operation. -/
def OpRec.lv (o : OpRec) (l : Nat) : Level := o.levels.getD l noLevel

/-- The level that carries dimension d. -/
def OpRec.dimLevel (o : OpRec) (d : Nat) : Option Nat := lowest 6 fun l => (o.lv l).dim == d

/-- A tile descriptor (R159). -/
structure TileD where
  slot : Nat
  logical : Nat
  col0 : Nat
  ncol : Nat
  kOfs : Nat
  kRows : Nat
  rangeH : Nat
  rangeL : Nat
  w4 : Bool
  a4 : Bool
  csum : Nat
  deriving DecidableEq, Repr

/-- Tile i. -/
def Prick.tile (p : Prick) (i : Nat) : TileD :=
  let b := p.num 0x44 4 + 16 * i
  let r := p.num (b + 0x0A) 1
  let f := p.num (b + 0x0B) 1
  { slot := p.num b 1, logical := p.num (b + 1) 1 % 16, col0 := p.num (b + 2) 2
    ncol := p.num (b + 4) 2, kOfs := p.num (b + 6) 2, kRows := p.num (b + 8) 2
    rangeH := r % 4, rangeL := bitsOf 2 2 r, w4 := bitOf 0 f, a4 := bitOf 1 f
    csum := p.num (b + 0x0C) 4 }

/-- A quantisation descriptor (R94). -/
structure QDesc where
  mode : Nat
  inFmt : Nat
  zq : Nat
  scale : BitVec 32
  rotTag : Nat
  deriving DecidableEq, Repr

/-- The descriptor in 16 bytes. -/
def qdescOf (b : Bytes) : QDesc :=
  { mode := numAt 0 1 b, inFmt := numAt 1 1 b, zq := numAt 2 2 b
    scale := BitVec.ofNat 32 (numAt 4 4 b), rotTag := numAt 8 2 b }

/-- The descriptor is dynamic. -/
def QDesc.dynamic (q : QDesc) : Bool := bitOf 0 q.mode
/-- The descriptor is A4. -/
def QDesc.a4 (q : QDesc) : Bool := bitOf 1 q.mode
/-- The rotation code. -/
def QDesc.rot (q : QDesc) : Nat := bitsOf 2 2 q.mode
/-- The rotation block of R102, 1 when rotation is off. -/
def QDesc.block (q : QDesc) : Nat := if q.rot = 0 then 1 else 32 * 2 ^ q.rot
/-- Bytes of one raw element. -/
def QDesc.esize (q : QDesc) : Nat := if q.inFmt = 0 ∨ q.inFmt = 3 then 1 else 2
/-- The largest static zero point of a width (R94). -/
def zqMax (a4 : Bool) : Nat := if a4 then 3840 else 65280

/-- Byte offset of quantisation descriptor i. -/
def Prick.qdescBytes (p : Prick) (i : Nat) : Bytes := p.slice (p.num 0x48 4 + 16 * i) 16
/-- Quantisation descriptor i. -/
def Prick.qdesc (p : Prick) (i : Nat) : QDesc := qdescOf (p.qdescBytes i)

/-- An epilogue descriptor (R132). -/
structure EDesc where
  outFmt : Nat
  elem : Nat
  act : Nat
  flags : Nat
  sOut : BitVec 32
  zOut : Int
  sElem : BitVec 32
  colf : Nat
  deriving DecidableEq, Repr

/-- The descriptor in 32 bytes. -/
def edescOf (b : Bytes) : EDesc :=
  { outFmt := numAt 0 1 b, elem := numAt 1 1 b, act := numAt 2 1 b, flags := numAt 3 1 b
    sOut := BitVec.ofNat 32 (numAt 4 4 b), zOut := intAt 8 2 b
    sElem := BitVec.ofNat 32 (numAt 0x0C 4 b), colf := numAt 0x10 4 b }

/-- Bytes of epilogue descriptor i. -/
def Prick.edescBytes (p : Prick) (i : Nat) : Bytes := p.slice (p.num 0x4C 4 + 32 * i) 32
/-- Epilogue descriptor i. -/
def Prick.edesc (p : Prick) (i : Nat) : EDesc := edescOf (p.edescBytes i)
/-- Bytes of activation table i. -/
def Prick.actBytes (p : Prick) (i : Nat) : Bytes := p.slice (p.num 0x50 4 + 272 * i) 272

/-- The elementwise operation of an epilogue descriptor: 0 none, 1 add, 2 multiply. -/
def EDesc.elemOp (d : EDesc) : Nat := d.elem % 4
/-- Bytes of an element of the second tensor (R132). -/
def EDesc.elemSize (d : EDesc) : Nat := if bitsOf 2 2 d.elem = 0 then 1 else 2
/-- The output is a spill format. -/
def EDesc.spill (d : EDesc) : Bool := d.outFmt == 3 || d.outFmt == 4
/-- Bytes of one output element; a narrow block is no multiple of one. -/
def EDesc.outSize (d : EDesc) : Nat :=
  if d.outFmt = 0 then 1 else if d.outFmt = 3 then 8 else if d.outFmt = 4 then 4 else 2

/-- A stage entry (R146). -/
structure StageD where
  pillow : Nat
  pred : Nat
  ofs : Nat
  dl : Nat
  deriving DecidableEq, Repr

/-- Stage i. -/
def Prick.stage (p : Prick) (i : Nat) : StageD :=
  let b := p.num 0x54 4 + 16 * i
  { pillow := p.num b 1, pred := p.num (b + 1) 1, ofs := p.num (b + 4) 4, dl := p.num (b + 8) 4 }

/-- The stages in order. -/
def Prick.stages (p : Prick) : List StageD := (List.range p.nStages).map p.stage

/-- A final stage: no other stage names it as PRED. -/
def Prick.isFinal (p : Prick) (i : Nat) : Bool := !p.stages.any fun d => d.pred == i

/-- The stages before a stage, nearest first; a chain is cut after `fuel` links. -/
def Prick.before (p : Prick) : Nat → Nat → List Nat
  | 0, _ => []
  | fuel + 1, i =>
    let q := (p.stage i).pred
    if p.nStages ≤ q then [] else q :: p.before fuel q

/-- The operations that run on stage k, in record order (R153, R173). -/
def Prick.opsOf (p : Prick) (k : Nat) : List Nat :=
  (List.range p.nOps).filter fun i =>
    let o := p.op i
    decide (o.stage ≤ k) && decide (k < o.stage + o.nStages)

/-! ## Iterations (R156, R167, R174) -/

/-- A level's length under the lengths `len`; none while they leave it open. -/
def Level.length (len : Nat → Option Nat) (l : Level) : Option Nat :=
  if l.runTime then len l.lenId else some l.bound

/-- Iterations of a level of length n. -/
def Level.count (l : Level) (n : Nat) : Nat := if l.dim = 0 then 1 else ceilDiv n (max 1 l.div)

/-- The iterations [lo, hi) of share a of g of a level (R174). -/
def share (a g n : Nat) : Nat × Nat := (a * n / g, (a + 1) * n / g)

/-- The part of a split operation that stage k runs: grid row, grid column, reduction part (R173). -/
def OpRec.part (o : OpRec) (k : Nat) : Nat × Nat × Nat :=
  let i := k - o.stage
  (i / (o.gn * o.parts), i / o.parts % o.gn, i % o.parts)

/-- The smallest power of two that is at least n (R112). -/
def padPow (n : Nat) : Nat := if n ≤ 1 then 1 else 2 ^ ((n - 1).log2 + 1)

/-- The leaves that one part of a reduction of n leaves holds (R122). Where a run-time length leaves fewer leaves than
parts, a part holds one, so that the first parts hold them all (DESIGN CHOICE, assumption 125). -/
def partLeaves (parts n : Nat) : Nat := max 1 (padPow n / parts)

/-- The iterations [lo, hi) of level l that a stage runs, `n` the level's iteration count (R122,
R174). -/
def OpRec.range (o : OpRec) (k l n : Nat) : Nat × Nat :=
  let (a, b, q) := o.part k
  let d := (o.lv l).dim
  if o.kind ≠ kXbar then (0, n)
  else if d = 2 then share a o.gm n
  else if d = 3 then share b o.gn n
  else if d = 5 ∧ o.parts ≠ 1 then
    let w := partLeaves o.parts n
    (min n (q * w), min n ((q + 1) * w))
  else (0, n)

/-- The iteration counts of the six levels under given lengths; a level left open counts 1 (`tilesOpen` says where
that decides no tile). -/
def OpRec.counts (o : OpRec) (len : Nat → Option Nat) : List Nat :=
  o.levels.map fun l => l.count ((l.length len).getD 1)

/-- Whether every unit is run by no iteration: some level has none. -/
def OpRec.isEmpty (o : OpRec) (len : Nat → Option Nat) : Bool := (o.counts len).any (· == 0)

/-- Whether the tiles that an operation selects rest on a level whose length the given lengths leave open: it is the K
level, the N level under PAR_N, or steps the tile index (R530). -/
def OpRec.tilesOpen (o : OpRec) (len : Nat → Option Nat) : Bool :=
  (List.range 6).any fun i =>
    let l := o.lv i
    l.dim != 0 && (l.length len).isNone && (l.strT != 0 || l.dim == 5 || (o.parN && l.dim == 3))

/-! ## Tiles -/

/-- The tile-index offsets that the levels `ls` add, each level l with its iterations [lo, hi). -/
def tileOffsets : List (Level × Nat × Nat) → List Int
  | [] => [0]
  | (l, lo, hi) :: r =>
    let rest := tileOffsets r
    if l.dim = 0 ∨ l.strT = 0 then (if lo < hi ∨ l.dim = 0 then rest else [])
    else (List.range (hi - lo)).flatMap fun i =>
      rest.map fun x => x + ((lo + i : Nat) : Int) * l.strT

/-- A level's iterations on a stage. -/
def OpRec.span (o : OpRec) (len : Nat → Option Nat) (k l : Nat) : Nat × Nat :=
  o.range k l (nth (o.counts len) l)

/-- The tile indices that one token drives, for every choice of the iterations outside the K level and,
with PAR_N, the N level: each entry lists, in tile order, the N iteration and tile index of a selection
(R159 to R161). `k` is the stage. -/
def OpRec.selections (o : OpRec) (len : Nat → Option Nat) (k : Nat) : List (List (Nat × Int)) :=
  let sp (l : Nat) : Level × Nat × Nat := (o.lv l, o.span len k l)
  let outer := (indices 5 fun l => !(o.parN && l == 4) && (o.lv l).dim != 3).map sp
  let nl := o.dimLevel 3
  let nIter (l : Nat) : List (Nat × Int) :=
    let (lo, hi) := o.span len k l
    (List.range (hi - lo)).map fun i => (lo + i, ((lo + i : Nat) : Int) * (o.lv l).strT)
  let ns : List (List (Nat × Int)) :=
    match nl with
    | none => [[(0, 0)]]
    | some l => if o.parN then [nIter l] else (nIter l).map fun x => [x]
  let (klo, khi) := o.span len k 5
  let ks := (List.range (khi - klo)).map fun i => ((klo + i : Nat) : Int) * (o.lv 5).strT
  (tileOffsets outer).flatMap fun b =>
    ns.map fun g => g.flatMap fun (n, t) => ks.map fun x => (n, (o.tileBase : Int) + b + t + x)

end Sys2Proof.Machine
end

