-- ==== Sys2Proof/Machine/Packet.lean ====
section
/-! DEFINITION. Command packets: the layout of every opcode (R402, R403, R420 to R448), the first
three checks of R404, and the command a packet carries. -/

namespace Sys2Proof.Machine

/-- A packet layout: the end of its last field and its reserved bits as (byte, mask). -/
structure Layout where
  size : Nat
  resv : List (Nat × Nat)
  deriving DecidableEq, Repr

/-- Whole reserved bytes lo to hi. -/
def resvBytes (lo hi : Nat) : List (Nat × Nat) := (List.range (hi + 1 - lo)).map fun i => (lo + i, 0xFF)

/-- The reserved bytes of WIN[0..15] at `base` (R435). -/
def resvWin (base : Nat) : List (Nat × Nat) :=
  (List.range 16).flatMap fun w => resvBytes (base + 16 * w + 6) (base + 16 * w + 7)
    ++ resvBytes (base + 16 * w + 12) (base + 16 * w + 15)

/-- The reserved bits of INST_B for a number of instances (R435). -/
def resvInst (n : Nat) : List (Nat × Nat) :=
  (List.range 8).map fun i => (0x38 + i, 255 - (2 ^ (min 8 (n - 8 * i)) - 1))

/-- The layout the opcode of a packet gives it (R403, R404); none for a reserved opcode. A PORT_CONFIG
with a SECTION outside the table has no layout, and its SECTION byte is what is refused. -/
def layoutOf (b : Bytes) : Option Layout :=
  let op := numAt 0 1 b
  if op = Op.devInfo then some ⟨8, []⟩
  else if op = Op.devReset then some ⟨0x0C, []⟩
  else if op = Op.regRead then some ⟨0x10, resvBytes 0x0E 0x0F⟩
  else if op = Op.regWrite then some ⟨0x10 + 4 * numAt 0x0C 2 b, resvBytes 0x0E 0x0F⟩
  else if op = Op.calRun then some ⟨8, []⟩
  else if op = Op.trimRead then some ⟨0x10, []⟩
  else if op = Op.trimWrite then some ⟨8, []⟩
  else if op = Op.mapCreate then some ⟨0x0C, resvBytes 0x0B 0x0B⟩
  else if op = Op.mapPage then
    some ⟨0x1C, (0x0B, 0xF8) :: (resvBytes 0x12 0x13 ++ resvBytes 0x1A 0x1B)⟩
  else if op = Op.mapPin then some ⟨0x1C, resvBytes 0x0B 0x0B⟩
  else if op = Op.marchRun then some ⟨0x0C, resvBytes 0x0B 0x0B⟩
  else if op = Op.shardBegin then some ⟨0x10, resvBytes 0x09 0x0B⟩
  else if op = Op.shardEnd then some ⟨0x0C, resvBytes 0x09 0x0B⟩
  else if op = Op.slotProgram then some ⟨0x3C, resvBytes 0x0A 0x0B⟩
  else if op = Op.slotActivate then some ⟨0x0A, []⟩
  else if op = Op.slotRetire then some ⟨0x09, []⟩
  else if op = Op.prickLoad then
    some ⟨if numAt 9 1 b = 1 then max 0x10 b.length else 0x10, resvBytes 0x0A 0x0B⟩
  else if op = Op.jobAdmit then
    some ⟨0x1A0, (0x0F, 0xFE) :: (resvBytes 0x26 0x27 ++ resvInst (numAt 0x0E 1 b) ++ resvWin 0xA0)⟩
  else if op = Op.jobSubmit ∨ op = Op.partialCapture then
    some ⟨0x168, resvBytes 0x16 0x17 ++ resvBytes 0x5E 0x5F ++ resvBytes 0x61 0x67 ++ resvWin 0x68⟩
  else if op = Op.jobAbort then some ⟨0x0C, resvBytes 0x09 0x09⟩
  else if op = Op.tbConfig then
    some ⟨0x20, (0x0C, 0xF8) :: (resvBytes 0x14 0x17 ++ resvBytes 0x1E 0x1F)⟩
  else if op = Op.tbClaim then some ⟨0x18, resvBytes 0x16 0x17⟩
  else if op = Op.streamOpen then
    some ⟨0x28, resvBytes 0x16 0x17 ++ (0x1F, 0xFE) :: resvBytes 0x24 0x27⟩
  else if op = Op.streamClose then some ⟨0x09, []⟩
  else if op = Op.portConfig then
    if numAt 9 1 b = 0 then some ⟨0x18, (0x0A, 0xF0) :: resvBytes 0x0B 0x0B⟩
    else if numAt 9 1 b = 1 then
      some ⟨0x30, (0x0F, 0xC0) :: (resvBytes 0x16 0x17 ++ resvBytes 0x27 0x27)⟩
    else if numAt 9 1 b = 2 then
      some ⟨0x20 + 8 * numAt 0x0E 1 b,
        resvBytes 0x0A 0x0B ++ (0x0F, 0xFC) :: (resvBytes 0x1C 0x1F
          ++ (List.range (numAt 0x0E 1 b)).flatMap fun i => resvBytes (0x21 + 8 * i) (0x23 + 8 * i))⟩
    else some ⟨b.length, [(0x09, 0xFF)]⟩
  else if op = Op.hcConfig then
    some ⟨0x58, (0x0A, 0xC0) :: (List.range 8).flatMap fun i =>
      (0x19 + 8 * i, 0xFE) :: resvBytes (0x1E + 8 * i) (0x1F + 8 * i)⟩
  else if op = Op.hcSelfcal then some ⟨8, []⟩
  else if op = Op.hcRead then some ⟨0x0B, []⟩
  else if op = Op.pkConfig then
    some ⟨0x18, resvBytes 0x09 0x09 ++ resvBytes 0x0C 0x0F ++ resvBytes 0x16 0x17⟩
  else if op = Op.queueFlush then some ⟨0x09, []⟩
  else if op = Op.queueDrop then some ⟨0x0B, []⟩
  else if op = Op.fwUpdate then some ⟨0x10, resvBytes 0x09 0x0B⟩
  else if op = Op.attest then some ⟨0x30, resvBytes 0x09 0x0B⟩
  else none

/-- The lengths a layout accepts: its end, or that rounded up to a multiple of 4 (R404). -/
def Layout.accepts (l : Layout) (n : Nat) : Bool := n == l.size || n == 4 * ceilDiv l.size 4

/-- The reserved bits of a packet of n bytes: FLAGS [7:4], the layout's own, and the added bytes. -/
def Layout.reserved (l : Layout) (n : Nat) : List (Nat × Nat) :=
  l.resv ++ (if l.size < n then resvBytes l.size (n - 1) else [])

/-- Check 3 of R404. The offset is that of the first field refused: FLAGS, LENGTH, then the reserved
fields in ascending order. -/
def checkLayout (b : Bytes) (l : Layout) : Option Reject :=
  if 16 ≤ numAt 1 1 b then some (paramBadAt 1)
  else if numAt 2 2 b ≠ b.length ∨ l.accepts b.length = false then some (paramBadAt 2)
  else
    match (l.reserved b.length).find? fun (o, m) => numAt o 1 b &&& m != 0 with
    | some (o, _) => some (paramBadAt o)
    | none => none

/-- Check 1 of R404: a packet shorter than its header. -/
def checkShort (b : Bytes) : Option Reject := require (decide (8 ≤ b.length)) (paramBadAt b.length)

/-- Check 2 of R404: a reserved opcode. -/
def checkOpcode (b : Bytes) : Option Reject :=
  require (layoutOf b).isSome { status := Status.opcodeBad }

/-! ## The command in a packet -/

/-- A list of n numbers of w bytes each from offset o. -/
def numsAt (o w n : Nat) (b : Bytes) : List Nat := (List.range n).map fun i => numAt (o + w * i) w b

/-- WIN[0..15] at `base` (R435). -/
def winAt (base : Nat) (b : Bytes) : List WinSpec :=
  (List.range 16).map fun w =>
    { base := numAt (base + 16 * w) 6 b, pitch := numAt (base + 16 * w + 8) 2 b,
      depth := numAt (base + 16 * w + 10) 2 b }

/-- Byte 0 of OPT (R443). -/
def hcOptOf (v : Nat) : HcOpt :=
  { ext := bitsOf 0 3 v, ow := bitsOf 3 2 v, pullI := bitsOf 5 2 v, pullDown := bitOf 7 v }

/-- JOB_SUBMIT's and PARTIAL_CAPTURE's common fields (R436). -/
def submitAt (b : Bytes) : SubmitParams :=
  { prk := numAt 8 1 b, port := numAt 9 1 b, asid := numAt 0x0A 2 b,
    seed := BitVec.ofNat 32 (numAt 0x0C 4 b), recTag := BitVec.ofNat 32 (numAt 0x10 4 b),
    wmask := BitVec.ofNat 16 (numAt 0x14 2 b), len := numsAt 0x18 4 4 b, map := numsAt 0x28 1 48 b,
    win := winAt 0x68 b }

/-- JOB_ADMIT's fields (R435). -/
def admitAt (b : Bytes) : AdmitParams :=
  { template := numAt 8 2 b, prk := numAt 0x0A 1 b, stream := numAt 0x0B 1 b,
    asid := numAt 0x0C 2 b, instances := numAt 0x0E 1 b, looseOk := bitOf 0 (numAt 0x0F 1 b),
    period := numAt 0x10 4 b, vRated := numAt 0x14 4 b, d := numAt 0x18 4 b, lag := numAt 0x1C 4 b,
    seed := BitVec.ofNat 32 (numAt 0x20 4 b), wmask := BitVec.ofNat 16 (numAt 0x24 2 b),
    len := numsAt 0x28 4 4 b, instB := BitVec.ofNat 64 (numAt 0x38 8 b),
    mapA := numsAt 0x40 1 48 b, mapB := numsAt 0x70 1 48 b, win := winAt 0xA0 b }

/-- The command a packet that passes checks 1 to 3 carries, executed at device time t. Operands that
the outside world supplies stand at their idle values. A FORM, OP, PHASE, KIND or SECTION value
outside its table is taken with the last form, whose own range check refuses it. A STEPS above 8 names steps that the
packet has no fields for; R366 refuses it. -/
def packetCommand (t : Nat) (b : Bytes) : Instr :=
  let h : Hdr := { t := t, tag := BitVec.ofNat 32 (numAt 4 4 b), prio := bitsOf 0 3 (numAt 1 1 b) }
  let op := numAt 0 1 b
  let f := numAt 8 1 b
  if op = Op.devInfo then .devInfo h
  else if op = Op.devReset then .devReset h (BitVec.ofNat 32 (numAt 8 4 b))
  else if op = Op.regRead then .regRead h (BitVec.ofNat 32 (numAt 8 4 b)) (numAt 0x0C 2 b)
  else if op = Op.regWrite then
    .regWrite h (BitVec.ofNat 32 (numAt 8 4 b))
      ((numsAt 0x10 4 (numAt 0x0C 2 b) b).map (BitVec.ofNat 32))
  else if op = Op.calRun then .calRun h
  else if op = Op.trimRead then .trimRead h (numAt 8 4 b) (numAt 0x0C 4 b)
  else if op = Op.trimWrite then .trimWrite h
  else if op = Op.mapCreate then .mapCreate h (numAt 8 2 b) (numAt 0x0A 1 b)
  else if op = Op.mapPage then
    .mapPage h { asid := numAt 8 2 b, op := numAt 0x0A 1 b, big := bitOf 0 (numAt 0x0B 1 b),
                 r := bitOf 1 (numAt 0x0B 1 b), w := bitOf 2 (numAt 0x0B 1 b),
                 va := numAt 0x0C 8 b, pa := numAt 0x14 8 b }
  else if op = Op.mapPin then
    .mapPin h (numAt 8 2 b) (numAt 0x0A 1 b) (numAt 0x0C 8 b) (numAt 0x14 8 b)
  else if op = Op.marchRun then .marchRun h f (numAt 9 1 b) (numAt 0x0A 1 b)
  else if op = Op.shardBegin then
    if numAt 0x0C 4 b = 0xFFFF_FFFF then .shardBeginManifest h f
    else if numAt 0x0C 4 b = 0xFFFF_FFFE then .shardBeginDiscard h f
    else .shardBeginShard h f (numAt 0x0C 4 b)
  else if op = Op.shardEnd then .shardEnd h f false
  else if op = Op.slotProgram then .slotProgram h f (numAt 9 1 b) (numsAt 0x0C 1 48 b)
  else if op = Op.slotActivate then
    .slotActivate h f (if numAt 9 1 b = 0xFF then none else some (numAt 9 1 b))
  else if op = Op.slotRetire then .slotRetire h f
  else if op = Op.prickLoad then
    if numAt 9 1 b = 0 then .prickLoadOpen h f (numAt 0x0C 4 b)
    else if numAt 9 1 b = 1 then .prickLoadData h f (numAt 0x0C 4 b) (b.drop 0x10)
    else if numAt 9 1 b = 2 then .prickLoadClose h f
    else .prickLoadDiscard h f
  else if op = Op.jobAdmit then .jobAdmit h (admitAt b)
  else if op = Op.jobSubmit then .jobSubmit h (submitAt b)
  else if op = Op.jobAbort then
    if f = 0 then .jobAbortTemplate h (numAt 0x0A 2 b) else .jobAbortLoose h (numAt 0x0A 2 b)
  else if op = Op.tbConfig then
    .tbConfig h { num := numAt 8 2 b, den := numAt 0x0A 2 b, encEn := bitOf 0 (numAt 0x0C 1 b),
                  dirInv := bitOf 1 (numAt 0x0C 1 b), preset := bitOf 2 (numAt 0x0C 1 b),
                  filt := numAt 0x0D 1 b, sheetSrc := numAt 0x0E 1 b, sheetPin := numAt 0x0F 1 b,
                  rep := numAt 0x10 4 b, wp := numAt 0x18 8 b }
  else if op = Op.tbClaim then
    if f = 0 then
      .tbClaimClaim h (if numAt 9 1 b = 0xFF then none else some (numAt 9 1 b)) (numAt 0x0A 1 b)
        (numAt 0x0B 1 b) (numAt 0x0C 4 b) (numAt 0x10 8 b)
    else .tbClaimRelease h (numAt 9 1 b)
  else if op = Op.streamOpen then
    .streamOpen h { stream := f, primary := numAt 9 1 b,
                    secondary := if numAt 0x0A 1 b = 0xFF then none else some (numAt 0x0A 1 b),
                    camera := numAt 0x0B 1 b, pixfmt := numAt 0x0C 1 b, rport := numAt 0x0D 1 b,
                    udp := numAt 0x0E 2 b, origin := numAt 0x10 8 b, sheetOfs := numAt 0x18 4 b,
                    gbBase := numAt 0x1C 4 b, pitch := numAt 0x20 2 b, depth := numAt 0x22 2 b }
  else if op = Op.streamClose then .streamClose h f
  else if op = Op.portConfig then
    if numAt 9 1 b = 0 then
      .portConfigLink h { port := f, en := bitOf 0 (numAt 0x0A 1 b), fast := bitOf 1 (numAt 0x0A 1 b),
                          fec := bitsOf 2 2 (numAt 0x0A 1 b), mac := sliceBytes 0x0C 6 b,
                          vid := numAt 0x12 2 b, ipv4 := sliceBytes 0x14 4 b }
    else if numAt 9 1 b = 1 then
      .portConfigService h { port := f, rasterUdp := numAt 0x0A 2 b, asid := numAt 0x0C 2 b,
                             domain := numAt 0x0E 1 b, pinClass := bitsOf 0 3 (numAt 0x0F 1 b),
                             looseClass := bitsOf 3 3 (numAt 0x0F 1 b),
                             intakeBase := numAt 0x10 6 b, intakeSize := numAt 0x18 8 b,
                             dstMac := sliceBytes 0x20 6 b, maxRecs := numAt 0x26 1 b,
                             dstIp := sliceBytes 0x28 4 b, srcUdp := numAt 0x2C 2 b,
                             dstUdp := numAt 0x2E 2 b }
    else
      .portConfigGates h { port := f, first := numAt 0x0C 2 b,
                           entries := (List.range (numAt 0x0E 1 b)).map fun i =>
                             { mask := BitVec.ofNat 8 (numAt (0x20 + 8 * i) 1 b),
                               interval := numAt (0x24 + 8 * i) 4 b },
                           commit := bitOf 0 (numAt 0x0F 1 b), gateEn := bitOf 1 (numAt 0x0F 1 b),
                           total := numAt 0x10 2 b, baseSec := numAt 0x12 6 b,
                           baseNs := numAt 0x18 4 b }
  else if op = Op.hcConfig then
    if numAt 9 1 b = 0 then
      .hcConfigEnable h { seq := f, thread := bitOf 1 (numAt 0x0A 1 b),
                          pin := bitsOf 2 2 (numAt 0x0A 1 b), edge := bitsOf 4 2 (numAt 0x0A 1 b),
                          delay := numAt 0x0C 2 b,
                          steps := (List.range (numAt 0x0B 1 b)).map fun i =>
                            if 8 ≤ i then { ch := 0, opt := hcOptOf 0, winEn := false, lo := 0, hi := 0 } else
                            { ch := numAt (0x10 + i) 1 b, opt := hcOptOf (numAt (0x18 + 8 * i) 1 b),
                              winEn := bitOf 0 (numAt (0x19 + 8 * i) 1 b),
                              lo := numAt (0x1A + 8 * i) 2 b, hi := numAt (0x1C + 8 * i) 2 b } }
    else if numAt 9 1 b = 1 then .hcConfigDisable h f
    else .hcConfigMode h (bitOf 0 (numAt 0x0A 1 b)) (numAt 0x0E 2 b)
  else if op = Op.hcSelfcal then .hcSelfcal h
  else if op = Op.hcRead then
    if f = 0 then .hcReadData h
    else if f = 1 then .hcReadConvert h (numAt 9 1 b) (hcOptOf (numAt 0x0A 1 b))
    else .hcReadUrgent h (numAt 9 1 b) (hcOptOf (numAt 0x0A 1 b))
  else if op = Op.pkConfig then
    if f = 0 then .pkConfigEnable h (BitVec.ofNat 16 (numAt 0x0A 2 b)) (numAt 0x10 8 b)
    else .pkConfigDisable h
  else if op = Op.queueFlush then .queueFlush h f
  else if op = Op.queueDrop then .queueDrop h f (numAt 9 1 b == 1) (numAt 0x0A 1 b)
  else if op = Op.partialCapture then .partialCapture h (submitAt b) (numAt 0x58 6 b) (numAt 0x60 1 b)
  else if op = Op.fwUpdate then
    if f = 0 then .fwUpdateOpen h (numAt 0x0C 4 b)
    else if f = 1 then .fwUpdateClose h false
    else .fwUpdateDiscard h
  else
    if f = 0 then .attestForm h (sliceBytes 0x10 32 b) else .attestRead h (numAt 0x0C 4 b)

/-- The first of the bytes o to o + n − 1 whose value is refused. -/
def firstByte (o n : Nat) (bad : Nat → Nat → Bool) (b : Bytes) : Option Reject :=
  firstOf ((List.range n).map fun i => require (!bad i (numAt (o + i) 1 b)) (paramBadAt (o + i)))

/-- The fields of a JOB_SUBMIT up to MODE: CAPBUF and MODE are 0 (R436). -/
def checkSubmitForm (b : Bytes) : Option Reject :=
  firstOf
    [require (decide (numAt 9 1 b ≤ 3)) (paramBadAt 9), require (decide (numAt 0x0A 2 b ≤ 1023)) (paramBadAt 0x0A),
     firstByte 0x28 48 (fun _ v => decide (48 ≤ v) && v != 0xFF) b,
     require (numAt 0x58 6 b == 0) (paramBadAt 0x58), require (numAt 0x60 1 b == 0) (paramBadAt 0x60)]

/-- Check 4 of R404 for the fields that no row of the command table carries: those that choose a form, FORM, OP, PHASE,
KIND, SECTION and SIDE, and those that a form holds at 0 (R434, R436, R443). -/
def checkForm (b : Bytes) : Option Reject :=
  let op := numAt 0 1 b
  let sel (o top : Nat) : Option Reject := require (decide (numAt o 1 b ≤ top)) (paramBadAt o)
  if op = Op.prickLoad then
    firstOf [sel 9 3, require (decide (numAt 9 1 b ≤ 1) || numAt 0x0C 4 b == 0) (paramBadAt 0x0C)]
  else if op = Op.jobSubmit then checkSubmitForm b
  else if op = Op.jobAbort then sel 8 1
  else if op = Op.tbClaim then sel 8 1
  else if op = Op.portConfig then sel 9 2
  else if op = Op.hcConfig then
    firstOf [sel 9 2,
      if numAt 9 1 b = 0 then firstByte 0x10 8 (fun i v => decide (numAt 0x0B 1 b ≤ i) && v != 0) b else none]
  else if op = Op.hcRead then sel 8 2
  else if op = Op.pkConfig then sel 8 1
  else if op = Op.queueDrop then sel 9 1
  else if op = Op.fwUpdate then sel 8 2
  else if op = Op.attest then sel 8 1
  else none

/-- Checks 1 to 3 of R404 and the form fields of check 4, in order. -/
def checkPacket (b : Bytes) : Option Reject :=
  firstOf [checkShort b, checkOpcode b,
    (match layoutOf b with | some l => checkLayout b l | none => none), checkForm b]

end Sys2Proof.Machine
end

