-- ==== Sys2Proof/Machine/Queues.lean ====
section
/-! DEFINITION. The shuttle queues' commands and events (R261 to R276), the dispatcher (R412 to R415),
recovery (R489) and the management cores (R492). -/

namespace Sys2Proof.Machine

/-! ## Writers that wait -/

/-- The waiting writer that is granted first enters its packet where all its items fit (R263). -/
def State.grantWaiting (q : Nat) (s : State) : State :=
  let x := s.queue q
  match x.wait with
  | [] => s
  | p :: rest =>
    if x.wpart.isNone && x.fits q p.items then
      s.putQueue q { x with vis := x.vis ++ [p], wait := rest }
    else s

/-- Grants waiting writers as long as they fit, `fuel` of them at most. -/
def State.grantAll (q : Nat) : Nat → State → State
  | 0, s => s
  | fuel + 1, s => (s.grantWaiting q).grantAll q fuel

/-- The packet held in the mailbox enters the command queue where it fits: its busy ends, and a further write's packet
is the next to be held (R386, R387). -/
def State.mailboxEnter (s : State) : State :=
  match s.sdio.mailbox with
  | none => s
  | some p =>
    let x := s.queue 0
    if x.wpart.isNone && x.fits 0 p.items then
      let d := s.sdio
      ({ s with sdio := { d with mailbox := d.mbxNext, mbxBusy := d.mbxNext.isSome, mbxNext := none } }).putQueue 0
        { x with vis := x.vis ++ [p] }
    else s

/-- The packets of the mailbox enter, the held one first, as far as they fit. -/
def State.grantMailbox (s : State) : State := s.mailboxEnter.mailboxEnter

/-- The entry of that class enters the error queue where it has room (R273). -/
def State.grantLatch (s : State) : State :=
  match s.outsideClass with
  | none => s
  | some c => if (s.queue 2).fits 2 (latchEntry c (s.latch c)).items then s.presentLatch c else s

/-- Grants waiting latches as long as they fit. -/
def State.grantLatches : Nat → State → State
  | 0, s => s
  | fuel + 1, s => s.grantLatch.grantLatches fuel

/-- PACKET_ENTER: a waiting writer's packet enters queue q (R263, R264). -/
def execPacketEnter (t q : Nat) (s : State) : Out :=
  let s := s.advance t
  .next (if q = 0 then s.grantMailbox else if q = 2 then s.grantLatch else s.grantWaiting q)

/-- ERROR_ENTRY_ENTER: the entry of a held latch enters the error queue when room frees, in the order
of R263 (R273). -/
def execErrorEntryEnter (t cls : Nat) (s : State) : Out :=
  let s := s.advance t
  .next (if s.outsideClass = some cls then s.grantLatch else s)

/-- The oldest event of the holding buffer enters the reply queue where it fits and no lower WRITER waits (R390). -/
def State.grantNote (s : State) : State :=
  match s.sdio.notes with
  | [] => s
  | p :: rest =>
    let x := s.queue 1
    if x.wait.isEmpty && x.wpart.isNone && x.fits 1 p.items then
      ({ s with sdio := { s.sdio with notes := rest } }).putQueue 1 { x with vis := x.vis ++ [p] }
    else s

/-- Grants waiting events as long as they fit. -/
def State.grantNotes : Nat → State → State
  | 0, s => s
  | n + 1, s => s.grantNote.grantNotes n

/-- HOST_NOTE_DRAIN: the oldest event of the holding buffer enters the reply queue behind every lower
WRITER that waits (R390). -/
def execHostNoteDrain (t : Nat) (s : State) : Out := .next (s.advance t).grantNote

/-! ## Flush and drop -/

/-- Whether an admitted template has a stage on pillow p: a map sends the logical pillow of a stage of its
pricking there (R270, R435). -/
def State.stageOn (p : Nat) (s : State) : Bool :=
  s.templates.any fun (_, t) => t.any fun t =>
    ((s.prick t.p.prk).elim [] Prick.stages).any fun k =>
      t.p.mapA[k.pillow]? == some p || t.p.mapB[k.pillow]? == some p

/-- Whether the device is in start-up, test, recovery or fault (R270, R271). -/
def State.offService (s : State) : Bool :=
  let d := s.mgmt.devState
  d == 1 || d == 3 || d == 4 || d == 5

/-- QUEUE_FLUSH's own check (R270). -/
def queueFlushCheck (q : Nat) (s : State) : Option Reject :=
  require (decide (q ≤ 1) || (q == 2 && s.offService) || (decide (3 ≤ q) && !s.stageOn (q - 3)))
    { status := Status.queueRefused }

/-- QUEUE_FLUSH: FLUSH is set, and the reply waits for the flush (R270, R446). A flush of queue 1 is of
class X and frees its core now (R415). -/
def queueFlushDo (h : Hdr) (q : Nat) (s : State) : State :=
  let s := s.modQueue q fun x => { x with flush := true, flushReplies := x.flushReplies ++ [h] }
  if q = 1 then s.release Op.queueFlush h.tag else s

/-- QUEUE_FLUSH (R446). -/
def execQueueFlush (h : Hdr) (q : Nat) (s : State) : Out :=
  hostCommand h Op.queueFlush 0 false (require (decide (q ≤ 50)) (paramBadAt 8)) (queueFlushCheck q)
    (queueFlushDo h q) s

/-- The latches whose entries a flush of the error queue discards are re-armed (R270). -/
def State.rearmAll : List QPacket → State → State
  | [], s => s
  | p :: r, s => (s.rearm p.writer).rearmAll r

/-- The replies of the flushes that have taken effect. -/
def State.flushAnswers (n : Nat) : List Hdr → State → State
  | [], s => s
  | h :: r, s => (s.done h Op.queueFlush 0 (leBytes 2 n)).flushAnswers n r

/-- The items of a partly entered packet that its writer has still to present: they are discarded as they come, in
the cycles that follow, and the writer's hold ends with the last (R263, R270). -/
def Queue.toPresent (x : Queue) : Nat := x.wpart.elim 0 fun w => w.1.items - w.2

/-- The flush of queue q takes effect: every item goes, DROPPED counts them, writers held complete
(R270). -/
def State.flushQueue (q : Nat) (s : State) : State :=
  let x := s.queue q
  let n := x.items + x.toPresent
  let s := s.putQueue q
    { x with vis := [], part := none, wpart := none, flush := false, flushReplies := [],
             last := noItem,
             dropped := satAdd 0xFFFF x.dropped n }
  let s := if q = 2 then (s.rearmAll x.vis).grantLatches 32 else s
  let s := if q = 0 then s.grantMailbox else s.grantAll q x.wait.length
  let s := if q = 1 then s.grantNotes s.sdio.notes.length else s
  s.flushAnswers n x.flushReplies

/-- QUEUE_FLUSH_EFFECT: arises with a flush pending and no packet of the queue partly read (R270). -/
def execQueueFlushEffect (t q : Nat) (s : State) : Out :=
  let s := s.advance t
  .next (if (s.queue q).flush && (s.queue q).part.isNone then s.flushQueue q else s)

/-- QUEUE_DROP of the packet partly read at the head; answers the items dropped (R271). -/
def State.dropRead (q : Nat) (s : State) : Nat × State :=
  let x := s.queue q
  (x.partItems,
    s.putQueue q { x with part := none, dropped := satAdd 0xFFFF x.dropped x.partItems })

/-- QUEUE_DROP of a named writer's invisible partial packet (R271). -/
def State.dropWrite (q w : Nat) (s : State) : Nat × State :=
  match (s.queue q).wpart with
  | some (p, n) => if p.writer = w then (n, s.dropPartial q w) else (0, s)
  | none => (0, s)

/-- QUEUE_DROP's effect and reply (R271, R446). -/
def queueDropDo (h : Hdr) (q : Nat) (write : Bool) (w : Nat) (s : State) : State :=
  let (n, s) := if write then s.dropWrite q w else s.dropRead q
  s.done h Op.queueDrop 0 (leBytes 2 n)

/-- QUEUE_DROP (R271, R446). -/
def execQueueDrop (h : Hdr) (q : Nat) (write : Bool) (writer : Nat) (s : State) : Out :=
  hostCommand h Op.queueDrop 0 false (require (decide (q ≤ 50)) (paramBadAt 8))
    (fun s => require s.offService { status := Status.queueRefused })
    (queueDropDo h q write writer) s

/-! ## Error entries -/

/-- A pop of the error queue (R274): the window takes the entry with the latch's count and LOST as they
stand, and the latch is re-armed; a report of the pop's own cycle comes after it. -/
def State.errPop (ecc : WordEcc) (s : State) : State :=
  match s.takePacket 2 ecc with
  | (lost, none, s) => s.afterLoss 2 lost
  | (lost, some p, s) =>
    let l := s.latch p.writer
    (({ s with errw := { cls := p.writer, sev := severity p.writer, lost := l.lost, valid := true,
                         count := l.count, time := l.time, detail := p.data } }).rearm p.writer).afterLoss 2 lost

/-- SHQ_ERR_POP: a REG_WRITE of POP = 1 (R274, R276). -/
def execShqErrPop (h : Hdr) (ecc : WordEcc) (s : State) : Out :=
  hostCommand h Op.regWrite 0 false none (fun _ => none)
    (fun s => (s.disarm.errPop ecc).done h Op.regWrite 0 []) s

/-! ## Recovery -/

/-- LEAVE returns the device to its prior state; a PRIOR of 3 returns to 2 when the test command has
replied meanwhile (R489). -/
def State.leaveRecovery (s : State) : State :=
  if s.mgmt.devState = 4 then
    let d := if s.mgmt.prior = 3 ∧ s.mgmt.testReplied then 2 else s.mgmt.prior
    ({ s with mgmt := { s.mgmt with devState := d } }).report { cls := 29, body := leBytes 1 1 ++ leBytes 1 2 }
  else s

/-- FR_CTRL_ENTER: a REG_WRITE of ENTER = 1 (R489, R497). -/
def execFrCtrlEnter (h : Hdr) (s : State) : Out :=
  hostCommand h Op.regWrite 0 false none (fun _ => none)
    (fun s => (s.disarm.enterRecovery 1).done h Op.regWrite 0 []) s

/-- FR_CTRL_LEAVE: a REG_WRITE of LEAVE = 1 (R489, R497). -/
def execFrCtrlLeave (h : Hdr) (s : State) : Out :=
  hostCommand h Op.regWrite 0 false none (fun _ => none)
    (fun s => s.disarm.leaveRecovery.done h Op.regWrite 0 []) s

/-- MGMT_CORE_FAULT: a fault of an executing core (R492), or of core 4 while it stands by, which loses
only the standby. -/
def execMgmtCoreFault (t core cause : Nat) (s : State) : Out :=
  let s := s.advance t
  .next
    (if s.up && s.mgmt.devState != 5 then
      if inRange 1 core 4 && s.mgmt.cores.getLsbD (core - 1) then s.coreFault core cause
      else if core = 4 ∧ s.mgmt.standby then
        ({ s with mgmt := { s.mgmt with standby := false } }).report (coreReport 4 cause none 0)
      else s
    else s)

/-! ## The dispatcher -/

/-- Whether a packet goes to the fast decoder: its opcode and form say so, it fails check 1 or 2, no
core executes, or the boot ROM serves (R413, R417, R481). -/
def State.goesFast (b : Bytes) (s : State) : Bool :=
  (checkShort b).isSome || (checkOpcode b).isSome || isFast (numAt 0 1 b) (numAt 8 1 b)
    || s.mgmt.devState == 0 || s.mgmt.cores == 0

/-- The lowest-numbered executing core with no command. -/
def State.freeCore (s : State) : Option Nat :=
  [1, 2, 3, 4].find? fun k => s.mgmt.cores.getLsbD (k - 1) && (s.coreCmd k).isNone

/-- Whether a packet has ORDER set (R403). -/
def CmdPacket.ordered (c : CmdPacket) : Bool := bitOf 3 (numAt 1 1 c.data)

/-- Whether a command handed to a core or to the fast decoder has not been accepted, refused or answered yet. -/
def State.inHand (s : State) : Bool := !s.mgmt.busy.isEmpty || !s.mgmt.fast.isEmpty

/-- A packet in hand for the fast decoder or the boot ROM. Checks 1 to 3 of R404 answer at once; check
1 answers with opcode 0xFF and TAG 0. -/
def State.handFast (c : CmdPacket) (s : State) : State :=
  let op := numAt 0 1 c.data
  match checkPacket c.data with
  | some r =>
    let short := decide (c.data.length < 8)
    s.present 1
      { prio := c.prio, writer := 0, tag := c.tag
        data := replyBytes (if short then 0xFF else op) r.status s.now (if short then 0 else c.tag)
          r.payload }
  | none => { s with mgmt := { s.mgmt with fast := s.mgmt.fast ++ [c] } }

/-- A management command handed to core k. A packet that fails check 3 is answered by it at once. -/
def State.handCore (k : Nat) (c : CmdPacket) (s : State) : State :=
  match checkPacket c.data with
  | some r =>
    s.present 1
      { prio := c.prio, writer := k, tag := c.tag
        data := replyBytes (numAt 0 1 c.data) r.status s.now c.tag r.payload }
  | none => { s with mgmt := { s.mgmt with busy := tset (fun _ => none) k (some c) s.mgmt.busy } }

/-- Hands a packet on (R412): to the fast decoder, to a free executing core, or it is held. A packet with ORDER is
held, too, while one dispatched before it is in hand or held (R415). -/
def State.handOn (c : CmdPacket) (s : State) : State :=
  if c.ordered && (s.inHand || !s.mgmt.held.isEmpty) then { s with mgmt := { s.mgmt with held := s.mgmt.held ++ [c] } }
  else if s.goesFast c.data then s.handFast c
  else match s.freeCore with
    | some k => s.handCore k c
    | none => { s with mgmt := { s.mgmt with held := s.mgmt.held ++ [c] } }

/-- The dispatcher reads the next packet of the command queue, no word of it in error, and hands it on
(R265, R412). -/
def State.readClean (s : State) : State :=
  match selectPacket (s.queue 0).vis with
  | none => s
  | some (p, _) => (s.takeClean 0).2.handOn { prio := p.prio, tag := p.tag, data := p.data }

/-- The same read with the finding of the word check: a packet lost to an uncorrectable word gets no
reply, and the read proceeds as if it were absent (R267, R404). -/
def State.readCommand (ecc : WordEcc) (s : State) : State :=
  match selectPacket (s.queue 0).vis with
  | none => s
  | some (p, rest) =>
    let s := s.wordsCorrected 0 ecc.words
    if !ecc.lost then s.readClean
    else
      let s := (s.putQueue 0 { s.queue 0 with vis := rest }).packetLost 0 p
      if rest = [] then s.modQueue 0 fun x => { x with underrun := true } else s.readClean

/-- The held packet that stands first is handed on where it may be: one with ORDER once nothing dispatched before it
is in hand, another to a core that has become free. While a packet without ORDER is held, the dispatcher reads on
where the next packet is for the fast decoder; while one with ORDER waits, it reads nothing (R412, R415). -/
def State.dispatchHeld (c : CmdPacket) (rest : List CmdPacket) (ecc : WordEcc) (s : State) : State :=
  let s' := { s with mgmt := { s.mgmt with held := rest } }
  if c.ordered && s.inHand then s
  else if s.goesFast c.data then s'.handFast c
  else match s.freeCore with
    | some k => s'.handCore k c
    | none =>
      if c.ordered || !rest.isEmpty then s
      else match selectPacket (s.queue 0).vis with
        | some (p, _) => if s.goesFast p.data then s.readCommand ecc else s
        | none => s

/-- DISPATCH (R412): the held packet, or the next one of the command queue. A command received after the
firmware's start and before state 1 waits (R482). -/
def execDispatch (t : Nat) (ecc : WordEcc) (s : State) : Out :=
  let s := s.advance t
  if !s.up || (s.mgmt.devState == 0 && s.mgmt.fwStarted) then .next s
  else match s.mgmt.held with
    | c :: rest => .next (s.dispatchHeld c rest ecc)
    | [] => .next (s.readCommand ecc)

end Sys2Proof.Machine
end

