-- ==== Sys2Proof/Machine/Power.lean ====
section
/-! DEFINITION. Power domains (R471 to R474), reset and boot (R475 to R483), straps (R452 to R454), and
the straps' events. -/

namespace Sys2Proof.Machine

/-! ## Switched domains -/

/-- Whether domain d is on (R472). -/
def State.domainOn (d : Nat) (s : State) : Bool := s.power.on.getLsbD d

/-- Whether pillow p has failed out (R496). -/
def State.failedOut (p : Nat) (s : State) : Bool := s.mgmt.pilOut.getLsbD p

/-- Whether pillow p is powered. -/
def State.pillowOn (p : Nat) (s : State) : Bool := s.domainOn (6 * p)

/-- Whether pillow p is in service: powered and not failed out (R422, R473, R496). -/
def State.inService (p : Nat) (s : State) : Bool := s.pillowOn p && !s.failedOut p

/-- The bank domain that holds physical bobbin b of pillow p (R472). -/
def bankOf (p b : Nat) : Nat := 6 * p + (if b ≤ 5 then 3 else if b ≤ 11 then 4 else 5)

/-- The Picot role in force (R453, R454): 0 off, 1 full, 2 throw only. -/
def State.picotRole (s : State) : Nat :=
  let v := bitsOf 0 2 s.power.straps.toNat
  if v = 3 then 0 else v

/-- The contexts in use with their jobs. -/
def State.liveJobs (s : State) : List (Nat × Job) :=
  s.jobs.filterMap fun (c, j) => j.map fun j => (c, j)

/-- The opcode that names a loose job as a holder (R402, R436). -/
def Job.op (j : Job) : Nat := if j.capMode = 0 then Op.jobSubmit else Op.partialCapture

/-- The admitted templates with their numbers. -/
def State.admitted (s : State) : List (Nat × Template) :=
  s.templates.filterMap fun (n, t) => t.map fun t => (n, t)

/-- The physical pillow a slot's MAP gives placement pillow k (R431). -/
def Slot.physPillow (sl : Slot) (k : Nat) : Nat := sl.map.getD k 0xFF

/-- The physical pillows on which a slot has targets. -/
def Slot.targetPillows (sl : Slot) : List Nat := sl.targets.map fun t => sl.physPillow t.ppil

/-- Whether a slot outside EMPTY has a target on pillow p. -/
def State.slotOn (p : Nat) (s : State) : Bool :=
  s.slots.any fun (_, sl) => sl.state != 0 && sl.targetPillows.contains p

/-- Whether an admitted template has a stage on pillow p: its maps name p. -/
def State.templateOn (p : Nat) (s : State) : Bool :=
  s.templates.any fun (_, t) =>
    match t with
    | some t => t.p.mapA.contains p || t.p.mapB.contains p
    | none => false

/-- Whether a held loose job names pillow p. -/
def State.looseOn (p : Nat) (s : State) : Bool :=
  s.liveJobs.any fun (_, j) => !j.pinned && j.map.contains p

/-- Whether a mapped page meets the physical range [lo, hi). -/
def State.pageIn (lo hi : Nat) (s : State) : Bool :=
  s.ms.pages.any fun g => decide (g.pa < hi) && decide (lo < g.pa + (if g.big then 0x20_0000 else 0x1_0000))

/-- Whether a MARCH_RUN uses the scratchpad or staging buffers of pillow p. -/
def State.marchOn (p : Nat) (s : State) : Bool :=
  match s.ms.march with
  | some (_, target, _, index) => target == 2 || (decide (target ≤ 1) && index == p)
  | none => false

/-- Whether a MARCH_RUN uses ground-buffer quarter q. -/
def State.marchOnQuarter (q : Nat) (s : State) : Bool :=
  match s.ms.march with
  | some (_, target, _, index) => target == 4 || (target == 3 && index == q)
  | none => false

/-- Whether a whole pillow is in use (R473). -/
def State.pillowInUse (p : Nat) (s : State) : Bool :=
  let x := s.pillow p
  s.slotOn p || s.templateOn p || s.looseOn p || (x.windows.any fun (_, w) => w.claimed)
    || s.pageIn (spBase p) (spBase (p + 1)) || s.marchOn p || !x.progs.isEmpty || x.refreshing.isSome

/-- The bobbins of bank k (0 to 2). -/
def bankBobbins (k : Nat) : List Nat :=
  if k = 0 then [0, 1, 2, 3, 4, 5] else if k = 1 then [6, 7, 8, 9, 10, 11] else [12, 13, 14, 15, 16]

/-- Whether bank k of pillow p is in use: a bobbin of it is PROGRAMMING, ACTIVE, SPARE_READY or
RETIRING, or it holds the spare of a pillow with targets (R473). Bobbin states are those of R83. -/
def State.bankInUse (p k : Nat) (s : State) : Bool :=
  (bankBobbins k).any fun b =>
    let st := (s.bobbin p b).state
    st == 0 || inRange 2 st 4 || (st == 1 && s.slotOn p)

/-- Whether a ground-buffer window or page lies in quarter q, or a March test uses it (R473). -/
def State.quarterInUse (q : Nat) (s : State) : Bool :=
  let lo := 0x80_0000 * q
  (s.streams.any fun (_, x) => x.bound && decide (x.base < lo + 0x80_0000)
      && decide (lo < x.base + x.pitch * x.depth))
    || s.pageIn (gbBase + lo) (gbBase + lo + 0x80_0000) || s.marchOnQuarter q

/-- The reason a request is refused, 0 for none (R473, R474, R484). A bank is switched only while its
pillow is on, and a failed-out pillow stays off until the next reset (R496). -/
def State.domainReason (d : Nat) (ungate : Bool) (s : State) : Nat :=
  if s.power.switching.isSome then 4
  else if d < 288 then
    if d % 6 = 0 then
      if s.failedOut (d / 6) then 2 else if !ungate && s.pillowInUse (d / 6) then 1 else 0
    else if 3 ≤ d % 6 then
      if s.pillowOn (d / 6) then (if !ungate && s.bankInUse (d / 6) (d % 6 - 3) then 1 else 0) else 2
    else 2
  else if d < 306 then
    if !ungate && ((s.port (d - 288)).en || (s.port (d - 288)).stream.isSome) then 1 else 0
  else if inRange 308 d 311 then
    if !ungate && s.quarterInUse (d - 308) then 1 else 0
  else if d = 313 then
    if s.picotRole = 0 then 3 else if !ungate && s.pk.en then 1 else 0
  else 2

/-- The domains a request switches: a pillow's six, or the one named (R473). -/
def domainSet (d : Nat) : List Nat :=
  if d < 288 ∧ d % 6 = 0 then (List.range 6).map (d + ·) else [d]

/-- Sets or clears the domains' ON bits. -/
def setDomains (v : Bool) : List Nat → BitVec 314 → BitVec 314
  | [], on => on
  | d :: r, on => setDomains v r (if v then on ||| (1#314 <<< d) else on &&& ~~~(1#314 <<< d))

/-- What a gated pillow keeps: its bobbins' levels, states and figures, the map and the spare (R473). -/
def Pillow.gated (x : Pillow) : Pillow :=
  { map := x.map, spare := x.spare, alt := x.alt, swapSheet := x.swapSheet,
    spareLost := x.spareLost, refresh := x.refresh, wrDone := x.wrDone, looseEn := x.looseEn,
    bobbins := (List.range 17).foldl (fun t b =>
      tset bobbinAtReset b { tget bobbinAtReset x.bobbins b with staging := [], stagePoison := [], live := [] } t)
      x.bobbins }

/-- A gated domain loses its contents; an ungated memory holds zeros (R473). A port's are its configuration and its
registers (DEDUCED, assumption 136). -/
def State.loseDomain (d : Nat) (s : State) : State :=
  if d < 288 then
    if d % 6 = 0 then
      let p := d / 6
      (s.modPillow p Pillow.gated).wipe (spBase p) 0x20_0000
    else (bankBobbins (d % 6 - 3)).foldl
      (fun s b => s.modBobbin (d / 6) b fun x => { x with staging := [], stagePoison := [], live := [] }) s
  else if d < 304 then s.setPort (d - 288) {}
  else if d < 306 then (s.setPort (d - 288) {}).setService (d - 304) {}
  else if inRange 308 d 311 then
    s.wipe (gbBase + 0x80_0000 * (d - 308)) 0x80_0000
  else s

/-- PWR_REQ with GO = 1 (R474): refused with a reason, done at once where the domain already stands as
asked, or switching starts. A gated domain is off and its contents are lost from here on. -/
def State.powerRequest (d : Nat) (ungate : Bool) (s : State) : State :=
  let r := s.domainReason d ungate
  let s := { s with power := { s.power with reqDomain := d, reqUngate := ungate, resDomain := d } }
  if r ≠ 0 then { s with power := { s.power with refused := true, reason := r } }
  else
    let s := { s with power := { s.power with reason := 0 } }
    if s.domainOn d = ungate then s
    else if ungate then { s with power := { s.power with switching := some (d, true) } }
    else s.loseDomain d |> fun s =>
      { s with power := { s.power with
        switching := some (d, false), on := setDomains false (domainSet d) s.power.on } }

/-- PWR_REQ: a REG_WRITE of DOMAIN, UNGATE and GO = 1 (R474, R484). -/
def execPwrReq (h : Hdr) (domain : Nat) (ungate : Bool) (s : State) : Out :=
  hostCommand h Op.regWrite 0 false none (fun _ => none)
    (fun s => (s.disarm.powerRequest (domain % 512) ungate).done h Op.regWrite 0 []) s

/-- DOMAIN_SWITCHED: the domain of the request has switched and BUSY clears (R474). -/
def execDomainSwitched (t : Nat) (s : State) : Out :=
  let s := s.advance t
  .next (match s.power.switching with
    | some (d, ungate) =>
      { s with power := { s.power with
        switching := none, on := if ungate then setDomains true (domainSet d) s.power.on else s.power.on } }
    | none => s)

/-! ## Scrubbing (R209) -/

/-- Brings the passes of both scrubbers up to now; they pause at throttle step 1 and above (R526). -/
def State.scrubTime (s : State) : State :=
  let m := s.ms
  let n := if s.up && s.therm.step == 0 then s.now - m.scrubAt else 0
  let hp := m.hbmH * 3_600_000_000_000
  let sp := m.sramMs * 1_000_000
  { s with ms := { m with
    scrubAt := s.now
    hbmAcc := (m.hbmAcc + n) % hp, hbmPasses := (m.hbmPasses + (m.hbmAcc + n) / hp) % 65536
    sramAcc := (m.sramAcc + n) % sp, sramPasses := (m.sramPasses + (m.sramAcc + n) / sp) % 65536 } }

/-- The register that counts the units of a memory by its code: 2 ground buffer, 3 context store, 4 firmware
memory, 5 and 6 the HBM stacks (R227). -/
def State.countMem (k : Nat) (ue : Bool) (s : State) : State :=
  let up (t : Tbl Nat) : Tbl Nat := tset (fun _ => 0) k (satAdd 0xFFFF (tget (fun _ => 0) t k) 1) t
  { s with ms :=
    if ue then { s.ms with eccUe := up s.ms.eccUe } else { s.ms with eccCe := up s.ms.eccCe } }

/-- The count of the HBM stack that holds address a (R218, R219). -/
def State.countHbm (a : Nat) (ue : Bool) (s : State) : State := s.countMem (5 + a / 256 % 2) ue

/-! ## Reset sources -/

/-- DEV_RESET with the correct CONFIRM: no reply, and the device goes into reset (R421, R475). -/
def execDevReset (h : Hdr) (confirm : BitVec 32) (s : State) : Out :=
  hostCommand h Op.devReset 0 false (require (confirm == 0x5445_5352) (paramBadAt 8))
    (fun _ => none) (fun s => s.intoReset .devReset) s

/-- NRST_FALL: the device resets and the strap window opens (R452, R475). -/
def execNrstFall (t : Nat) (s : State) : Out :=
  let s := s.advance t
  .next (if s.power.nrst then s.intoReset .nrst else s)

/-- NRST_RISE: the reset ends and the boot ROM starts (R475, R478). The board raises NRST only with
PWRGD high (R469). -/
def execNrstRise (t : Nat) (s : State) : Out :=
  let s := s.advance t
  .next (if s.power.nrst then s
    else ({ s with power := { s.power with nrst := true, pwrgd := true } }).endReset)

/-- STRAP_LATCH: the strap window closes 10 µs after NRST rises (R452). -/
def execStrapLatch (t : Nat) (pkd : BitVec 8) (s : State) : Out :=
  let s := s.advance t
  .next (if s.up && !s.power.latched && decide (s.mgmt.resetAt + 10_000 ≤ s.now) then
      { s with power := { s.power with straps := pkd, latched := true } }
    else s)

/-- WATCHDOG: no core has serviced the watchdog for 50 ms (R475). -/
def execWatchdog (t : Nat) (s : State) : Out :=
  let s := s.advance t
  .next (if s.up then s.intoReset .watchdog else s)

/-- INTERNAL_RESET_END: a watchdog reset ends 20 µs after it began, a DEV_RESET 20 µs after its dispatch, which
lies at most 10 µs before the reset began (R421, R475). -/
def execInternalResetEnd (t : Nat) (s : State) : Out :=
  let s := s.advance t
  .next (if (s.mgmt.reset == some .devReset && decide (s.mgmt.resetAt + 10_000 ≤ s.now))
        || (s.mgmt.reset == some .watchdog && decide (s.mgmt.resetAt + 20_000 ≤ s.now)) then s.endReset else s)

/-- Every programming that has started is stopped (R471). -/
def Pillow.progsStopped (x : Pillow) : Pillow :=
  { x with progs := x.progs.map fun q => { q with cut := q.cut || q.started } }

/-- PWRGD_FALL: every bobbin programming is stopped, which fails it when its end comes (R80), further
ones are refused (R79), and the supply class is raised (R471). -/
def execPwrgdFall (t : Nat) (s : State) : Out :=
  let s := s.advance t
  let s := { s with power := { s.power with pwrgd := false } }
  .next (if s.up then
      ({ s with
          power := { s.power with pwrgdLost := true }
          pillows := tmapTo (fun _ => {}) (fun _ x => x.progsStopped) nPillows s.pillows }).report
        { cls := 17, body := leBytes 1 0 }
    else s)

end Sys2Proof.Machine
end

