-- ==== Sys2Proof/Machine/Words.lean ====
section
/-! DEFINITION. The words of the memories under their ports: where a physical address lies, reads of units in error
(R208, R219), writes of several ports in one core cycle (R201, R205, R206), and the memory a March test uses (R223). -/

namespace Sys2Proof.Machine

/-! ## Where an address lies (R217) -/

/-- Whether a physical address lies in the ground buffer. -/
def inGround (pa : Nat) : Bool := decide (gbBase ≤ pa) && decide (pa < gbBase + 0x200_0000)

/-- Whether a physical address lies in pillow p's scratchpad. -/
def inScratch (p pa : Nat) : Bool := decide (spBase p ≤ pa) && decide (pa < spBase (p + 1))

/-- Whether a March test uses the memory at a physical address (R223). -/
def State.marchAt (pa : Nat) (s : State) : Bool :=
  if inGround pa then s.marchOnQuarter ((pa - gbBase) / 0x80_0000)
  else decide (spBase 0 ≤ pa) && decide (pa < spBase 48)
    && s.ms.march.any fun (_, target, _, index) => target == 2 || (target == 1 && index == (pa - spBase 0) / 0x20_0000)

/-! ## Reads of words in error, and writes that meet in one core cycle (R205 to R208) -/

/-- The memory code of a physical address (R486). -/
def memCode (pa : Nat) : Nat :=
  if inGround pa then 2
  else if spBase 0 ≤ pa ∧ pa < spBase 48 then 1
  else if csBase ≤ pa ∧ pa < csBase + 0x40_0000 then 3
  else 5

/-- Counts a unit corrected or found uncorrectable in the register of its memory (R208, R226, R227). -/
def State.countUnit (a : Nat) (ue : Bool) (s : State) : State :=
  if memCode a = 1 then s.modPillow ((a - spBase 0) / 0x20_0000) fun x => { x with mem :=
    if ue then { x.mem with spUe := satAdd 0xFFFF x.mem.spUe 1 } else { x.mem with spCe := satAdd 0xFFFF x.mem.spCe 1 } }
  else if memCode a = 5 then s.countHbm a ue
  else s.countMem (memCode a) ue

/-- A correction that a stack's on-die ECC reports (R219). -/
def State.countDie (a : Nat) (s : State) : State :=
  let k := a / 256 % 2
  let n := satAdd 0xFFFF (tget (fun _ => 0) s.ms.hbmDie k) 1
  { s with ms := { s.ms with hbmDie := tset (fun _ => 0) k n s.ms.hbmDie } }

/-- The unit at a physical address is marked poisoned. -/
def State.markPoison (a : Nat) (s : State) : State :=
  let u := a / 8 * 8
  if s.ms.poison.contains u then s else { s with ms := { s.ms with poison := u :: s.ms.poison } }

/-- A read meets one error: corrected, written back and counted, or marked poisoned and counted (R208, R219). -/
def State.meetErr (e : Nat × Strike) (s : State) : State :=
  let s := { s with ms := { s.ms with errs := s.ms.errs.erase e } }
  match e.2 with
  | .single => s.countUnit e.1 false
  | .onDie => s.countDie e.1
  | .multi => (s.markPoison e.1).countUnit e.1 true

/-- A read of [a, a + n) meets the errors that have arisen there. -/
def State.meetErrs (a n : Nat) (s : State) : State :=
  (s.ms.errs.filter fun e => decide (e.1 < a + n) && decide (a < e.1 + 8)).foldl (fun s e => s.meetErr e) s

/-- A read of bytes [lo, hi) of a staging buffer meets the errors that have arisen there (R208). -/
def State.meetStaging (p b lo hi : Nat) (s : State) : State :=
  let es := (s.bobbin p b).stageErrs.filter fun e => decide (e.1 < hi) && decide (lo < e.1 + 8)
  let n (k : Strike) : Nat := es.countP fun e => e.2 == k
  let bad := (es.filter fun e => e.2 == .multi).map Prod.fst
  let s := s.modBobbin p b fun y => { y with
    stageErrs := y.stageErrs.filter fun e => !es.contains e
    stagePoison := y.stagePoison ++ bad.filter fun u => !y.stagePoison.contains u }
  if es = [] then s
  else s.modPillow p fun x => { x with mem := { x.mem with
    sgCe := satAdd 0xFFFF x.mem.sgCe (n .single), sgUe := satAdd 0xFFFF x.mem.sgUe (n .multi) } }

/-- The 64 B words that [lo, hi) meets. -/
def wordsOf (lo hi : Nat) : List Nat := (List.range (ceilDiv hi 64 - lo / 64)).map (· + lo / 64)

/-- Whether an address lies in a four-port memory: a scratchpad or the ground buffer (R200). -/
def fourPort (a : Nat) : Bool := memCode a == 1 || memCode a == 2

/-- The bytes that two writes both enable. -/
def CycleWrite.common (x : CycleWrite) (a n : Nat) : List Nat :=
  if max x.addr a < min (x.addr + x.n) (a + n) then wordsOf (max x.addr a) (min (x.addr + x.n) (a + n)) else []

/-- n words written by a port at a complete with WCOLL: the memory's count and the port's bit, and in the job that
issued the write the flag WCOLL and, once, the memory-collision class (R206). PORTS of its detail is the losing
port's bit (DESIGN CHOICE, assumption 115). -/
def State.collided (port : Nat) (ctx : Option Nat) (a n : Nat) (s : State) : State :=
  let bit : BitVec 4 := 1#4 <<< port
  let s := if memCode a = 1 then
      s.modPillow ((a - spBase 0) / 0x20_0000) fun x => { x with mem := { x.mem with
        wcoll := satAdd 0xFFFF x.mem.wcoll n, ports := x.mem.ports ||| bit } }
    else { s with ms := { s.ms with gbWcoll := satAdd 0xFFFF s.ms.gbWcoll n, gbPorts := s.ms.gbPorts ||| bit } }
  match ctx with
  | none => s
  | some c =>
    match s.job c with
    | none => s
    | some j =>
      if j.wcoll then s
      else (s.setJob c (some { j with wcoll := true })).report
        { cls := 20
          pillow := if memCode a = 1 then (a - spBase 0) / 0x20_0000 else 0xFF
          ctx := some c
          template := if j.pinned then j.template else 0xFFFF
          body := leBytes 1 (memCode a) ++ leBytes 8 a ++ leBytes 1 bit.toNat }

/-- The writes of the current core cycle: those of this device time (DESIGN CHOICE, assumption 115). -/
def State.cycleWrites (s : State) : List CycleWrite := if s.ms.cycleAt = s.now then s.ms.cycle else []

/-- A write by a port of a four-port memory (R205, R206): where writes of one cycle enable a common byte, it takes
the data of the lowest-numbered port, and every other such write completes with WCOLL. -/
def State.storeBy (port : Nat) (ctx : Option Nat) (a : Nat) (b : Bytes) (s : State) : State :=
  if !fourPort a then s.store a b
  else
    let met := s.cycleWrites.filter fun x => x.port != port && x.common a b.length != []
    let wins := met.filter fun x => decide (x.port < port)
    let kept := b.zipIdx.map fun (v, i) =>
      if wins.any fun x => decide (x.addr ≤ a + i) && decide (a + i < x.addr + x.n) then s.byteAt (a + i) else v
    let mine := (wins.flatMap fun x => x.common a b.length).eraseDups
    let beaten (x : CycleWrite) : List Nat :=
      if met.contains x && decide (port < x.port) then (x.common a b.length).filter fun k => !x.lost.contains k else []
    let old := s.cycleWrites
    let s := s.store a kept
    let s := if mine = [] then s else s.collided port ctx a mine.length
    let s := old.foldl (fun s x => if beaten x = [] then s else s.collided x.port x.ctx x.addr (beaten x).length) s
    { s with ms := { s.ms with
      cycleAt := s.now
      cycle := old.map (fun x => { x with lost := x.lost ++ beaten x })
        ++ [{ addr := a, n := b.length, port := port, ctx := ctx, lost := mine }] } }

/-- An error arises in a stored unit. -/
def State.strike (x : Struck) (s : State) : State :=
  match x.mem with
  | .staging => s.modBobbin x.pillow (x.addr / 65536) fun y =>
      { y with stageErrs := y.stageErrs ++ [(x.addr % 65536 / 8 * 8, x.kind)] }
  | .bank | .firmware => s
  | _ => { s with ms := { s.ms with errs := s.ms.errs ++ [(x.addr / 8 * 8, x.kind)] } }

end Sys2Proof.Machine
end

