-- ==== Sys2Proof/Machine/Mapping.lean ====
section
/-! DEFINITION. Address spaces, pages and tables (R228 to R236), legal accesses (R232, R242), the resume
of suspended stages (R251), MAP_CREATE, MAP_PAGE, MAP_PIN and the start of MARCH_RUN (R220 to R223). -/

namespace Sys2Proof.Machine

/-! ## Pages -/

/-- A page's size in bytes (R229). -/
def pageBytes (big : Bool) : Nat := if big then 0x20_0000 else 0x1_0000

/-- The virtual range of a page meets [lo, hi). -/
def Page.meets (g : Page) (lo hi : Nat) : Bool := decide (g.va < hi) && decide (lo < g.va + pageBytes g.big)

/-- The page of an address space that covers a virtual address (R230). -/
def State.pageAt (asid va : Nat) (s : State) : Option Page :=
  s.ms.pages.find? fun g => g.asid == asid && g.meets va (va + 1)

/-- The physical address of a virtual address under its page. -/
def Page.physical (g : Page) (va : Nat) : Nat := g.pa + (va - g.va)

/-- Whether [pa, pa + n) lies in a region marked Mappable (R217). -/
def mappable (pa n : Nat) : Bool :=
  (decide (0x8_0000_0000 ≤ pa) && decide (pa + n ≤ 0xB_C000_0000))
    || (decide (gbBase ≤ pa) && decide (pa + n ≤ gbBase + 0x200_0000))
    || (decide (spBase 0 ≤ pa) && decide (pa + n ≤ spBase 48))

/-- Whether a physical page overlaps a claimed ground-buffer window (R213). -/
def State.overWindow (pa n : Nat) (s : State) : Bool :=
  s.streams.any fun (_, x) => x.bound && decide (gbBase + x.base < pa + n)
    && decide (pa < gbBase + x.base + x.pitch * x.depth)

/-- Whether a physical address lies in memory that is gated off (R473). -/
def State.gatedAt (pa : Nat) (s : State) : Bool :=
  if inGround pa then !s.domainOn (308 + (pa - gbBase) / 0x80_0000)
  else if spBase 0 ≤ pa ∧ pa < spBase 48 then !s.inService ((pa - spBase 0) / 0x20_0000)
  else false

/-! ## Table pool (R231) -/

/-- A table's size in bytes: 64 KiB, 128 KiB and 256 B for levels 1 to 3. -/
def tableBytes (level : Nat) : Nat := if level = 1 then 0x1_0000 else if level = 2 then 0x2_0000 else 0x100

/-- The pool's size: 128 MiB. -/
def poolBytes : Nat := 0x800_0000

/-- Whether a table overlaps [o, o + n) of the pool. -/
def PTable.overlaps (t : PTable) (o n : Nat) : Bool :=
  decide (t.ofs < o + n) && decide (o < t.ofs + tableBytes t.level)

/-- The first free aligned extent of n bytes at or after offset o, skipping one table at a time, with at
most `fuel` skips. -/
def freeExtent (ts : List PTable) (n : Nat) : Nat → Nat → Option Nat
  | 0, _ => none
  | fuel + 1, o =>
    if poolBytes < o + n then none
    else match ts.find? (·.overlaps o n) with
      | none => some o
      | some t => freeExtent ts n fuel (ceilDiv (t.ofs + tableBytes t.level) n * n)

/-- Where the table pool begins (R231). -/
def poolBase : Nat := 0xB_D800_0000
/-- Where its mirror begins (R231). -/
def mirrorBase : Nat := 0xB_E000_0000

/-- Allocates a table: the lowest free aligned extent (DESIGN CHOICE, assumption 20). -/
def allocTable (ts : List PTable) (level asid pre : Nat) : Option (List PTable) :=
  (freeExtent ts (tableBytes level) (ts.length + 1) 0).map fun o =>
    { level := level, asid := asid, pre := pre, ofs := o } :: ts

/-- Whether the tables hold one of this level for this range. -/
def hasTable (ts : List PTable) (level asid pre : Nat) : Bool :=
  ts.any fun t => t.level == level && t.asid == asid && t.pre == pre

/-- Allocates a table where it is missing. -/
def ensureTable (level asid pre : Nat) (ts : List PTable) : Option (List PTable) :=
  if hasTable ts level asid pre then some ts else allocTable ts level asid pre

/-- The tables a page at va needs below level 1 (R230, R231). -/
def pageTables (asid va : Nat) (big : Bool) (ts : List PTable) : Option (List PTable) :=
  match ensureTable 2 asid (va / 2 ^ 35) ts with
  | none => none
  | some ts => if big then some ts else ensureTable 3 asid (va / 2 ^ 21) ts

/-- The free bytes of the pool in whole 64 KiB units (R231, R260). -/
def MemSys.poolFree (m : MemSys) : Nat :=
  (poolBytes - (m.tables.map fun t => tableBytes t.level).sum) / 0x1_0000

/-- Whether a level-3 table still holds a valid entry, or a mapping on its way needs it. -/
def MemSys.l3Used (m : MemSys) (t : PTable) : Bool :=
  (m.pages.any fun g => !g.big && g.asid == t.asid && g.va / 2 ^ 21 == t.pre)
    || m.pendings.any fun q => q.p.op == 0 && !q.gone && !q.p.big && q.p.asid == t.asid && q.p.va / 2 ^ 21 == t.pre

/-- Whether a level-2 table still holds a valid entry, or a mapping on its way needs it. -/
def MemSys.l2Used (m : MemSys) (t : PTable) : Bool :=
  (m.pages.any fun g => g.big && g.asid == t.asid && g.va / 2 ^ 35 == t.pre)
    || (m.tables.any fun u => u.level == 3 && u.asid == t.asid && u.pre / 2 ^ 14 == t.pre)
    || m.pendings.any fun q => q.p.op == 0 && !q.gone && q.p.asid == t.asid && q.p.va / 2 ^ 35 == t.pre

/-- Returns the tables whose last valid entry is gone: level 3 first, then level 2 (R231). -/
def MemSys.returnTables (m : MemSys) : MemSys :=
  let m := { m with tables := m.tables.filter fun t => t.level != 3 || m.l3Used t }
  { m with tables := m.tables.filter fun t => t.level != 2 || m.l2Used t }

/-! ## The entries of the tables (R230) -/

/-- A table of a list by its level, address space and prefix. -/
def tableAt (ts : List PTable) (level asid pre : Nat) : Option PTable :=
  ts.find? fun t => t.level == level && t.asid == asid && t.pre == pre

/-- An entry's word: V, LEAF, R, W, PIN and PA (R230). -/
def entryWord (leaf r w pin : Bool) (pa : Nat) : Nat :=
  flag 0 true + flag 1 leaf + flag 2 r + flag 3 w + flag 4 pin + pa / 256 % 2 ^ 40 * 256

/-- A pointer to a table, or the invalid entry. -/
def pointerWord (t : Option PTable) : Nat := t.elim 0 fun t => entryWord false false false false (poolBase + t.ofs)

/-- A page's entry, or the invalid one. -/
def Page.word (g : Option Page) : Nat := g.elim 0 fun g => entryWord g.big g.r g.w g.pin g.pa

/-- The pool offset and the word of each entry that covers va, by the pages and tables held. -/
def MemSys.entries (m : MemSys) (asid va : Nat) : List (Nat × Nat) :=
  let page (big : Bool) : Option Page := m.pages.find? fun g =>
    g.asid == asid && g.big == big && g.meets va (va + 1)
  let t2 := tableAt m.tables 2 asid (va / 2 ^ 35)
  let t3 := tableAt m.tables 3 asid (va / 2 ^ 21)
  let at_ (t : Option PTable) (i v : Nat) : List (Nat × Nat) := (t.map fun t => (t.ofs + 8 * i, v)).toList
  at_ (tableAt m.tables 1 asid 0) (va / 2 ^ 35) (pointerWord t2)
    ++ at_ t2 (va / 2 ^ 21 % 2 ^ 14) (if (page true).isSome then Page.word (page true) else pointerWord t3)
    ++ at_ t3 (va / 2 ^ 16 % 32) (Page.word (page false))

/-- Writes both copies of an entry (R231). -/
def State.putEntry (o v : Nat) (s : State) : State :=
  (s.store (poolBase + o) (leBytes 8 v)).store (mirrorBase + o) (leBytes 8 v)

/-- Writes the entries that cover va as the pages and tables held give them: those whose word changes and, where
the page itself is rewritten, its own (R230, R231). -/
def State.putEntries (own : Bool) (asid va : Nat) (s : State) : State :=
  let es := s.ms.entries asid va
  (es.zipIdx.filter fun (e, i) =>
      (own && i + 1 == es.length) || leNat (s.load (poolBase + e.1) 8) != e.2).foldl
    (fun s (e, _) => s.putEntry e.1 e.2) s

/-- Clears the tables that a list holds beyond another: a new table has no valid entry. -/
def State.clearTables (old : List PTable) (s : State) : State :=
  (s.ms.tables.filter fun t => !old.contains t).foldl
    (fun s t => (s.wipe (poolBase + t.ofs) (tableBytes t.level)).wipe (mirrorBase + t.ofs) (tableBytes t.level)) s

/-! ## Who holds an address space or a page -/

/-- The lowest admitted template that names an address space (R228). -/
def State.asidTemplate (asid : Nat) (s : State) : Option Nat :=
  (s.admitted.find? fun (_, t) => t.p.asid == asid).map Prod.fst

/-- The lowest held loose job that names an address space (R228). -/
def State.asidJob (asid : Nat) (s : State) : Option (Nat × Job) :=
  s.liveJobs.find? fun (_, j) => !j.pinned && j.asid == asid

/-- Whether a cache entry is a lock of the page at va. -/
def TcEntry.locksPage (asid va : Nat) (e : TcEntry) : Bool := e.asid == asid && e.va == va && !e.locks.isEmpty

/-- The templates that lock the page at va on some pillow (R236). -/
def State.pageLocks (asid va : Nat) (s : State) : List Nat :=
  s.pillows.flatMap fun (_, x) => (x.tc.filter (·.locksPage asid va)).flatMap TcEntry.locks

/-- The lowest of a list of numbers. -/
def lowestOf : List Nat → Option Nat
  | [] => none
  | a :: r => some ((lowestOf r).elim a (min a))

/-- The refusal of a change to a pinned page: the lowest template that locks it, or MAP_PIN (R233). -/
def State.pageHeld (claim asid va : Nat) (s : State) : Reject :=
  match lowestOf (s.pageLocks asid va) with
  | some n => resHeld Op.jobAdmit claim 10 0 noPillow n
  | none => resHeld Op.mapPin claim 10 0 noPillow noOwner

/-! ## Legal accesses (R232, R242) -/

/-- Whether a unit of pillow p may reach a physical address: the conditioner (0) and the tatting unit
(2) only their own scratchpad and the ground buffer; a scratchpad window only the own scratchpad
(R211, R232). -/
def unitReaches (p unit : Nat) (win : Bool) (pa : Nat) : Bool :=
  if win then inScratch p pa
  else if unit == 0 || unit == 2 then inScratch p pa || inGround pa
  else true

/-- The fault of an access, none when it is legal (R242): NOT_PRESENT 0, PERMISSION 1. -/
def State.accessFault (p unit : Nat) (win write : Bool) (asid va : Nat) (s : State) : Option Nat :=
  match s.pageAt asid va with
  | none => some 0
  | some g =>
    if (if write then g.w else g.r) && unitReaches p unit win (g.physical va) then none else some 1

/-- Whether a fault record has been made legal (R251). -/
def State.madeLegal (p : Nat) (f : FaultRec) (s : State) : Bool :=
  decide (f.kind ≤ 1) && (s.accessFault p f.unit f.win f.write f.asid f.va).isNone

/-- The fault records of a stage: one of the sequencer's side, one per DMA transfer (R245). -/
def Run.faults (r : Run) : List FaultRec := r.fault.toList ++ r.dma.filterMap DmaXfer.fault

/-- The same stage with its fault records cleared. -/
def Run.clearFaults (r : Run) : Run :=
  { r with fault := none, dma := r.dma.map fun x => { x with fault := none } }

/-- The place of a loose stage in submission order (R41). -/
def State.looseOrder (s : State) (e : Nat × Nat) : Nat := (s.job e.1).elim 0 Job.order

/-- Inserts a loose stage in submission order, behind the stages of the same job. -/
def State.insertLoose (s : State) (e : Nat × Nat) : List (Nat × Nat) → List (Nat × Nat)
  | [] => [e]
  | x :: r => if s.looseOrder e < s.looseOrder x then e :: x :: r else x :: s.insertLoose e r

/-- Sets the phase of a job's stage. -/
def Job.setPhase (k : Nat) (ph : StagePhase) (j : Job) : Job :=
  let d : Nat → StageSt := fun _ => { pillow := 0xFF }
  { j with stages := tset d k { tget d j.stages k with phase := ph } j.stages }

/-- A stage of a job. -/
def Job.stage (j : Job) (k : Nat) : StageSt := tget (fun _ => { pillow := 0xFF }) j.stages k

/-- The saved stages of a list that become ready again, and the list with them marked (R251). -/
def State.resumed (s : State) (p : Nat) : List Saved → List (Nat × Nat) × List Saved
  | [] => ([], [])
  | v :: r =>
    let (es, vs) := s.resumed p r
    if v.suspended && (v.run.faults.all fun f => s.madeLegal p f) then
      ((v.run.ctx, v.run.stage) :: es, { v with suspended := false, run := v.run.clearFaults } :: vs)
    else (es, v :: vs)

/-- Every suspended loose stage of pillow p whose last fault record has been made legal becomes ready
again in its place in the submission order (R251). -/
def State.resumeOn (p : Nat) (s : State) : State :=
  let (es, vs) := s.resumed p (s.pillow p).saves
  let s := s.modPillow p fun x => { x with saves := vs, looseQ := es.foldl (fun q e => s.insertLoose e q) x.looseQ }
  es.foldl (fun s e => s.modJob e.1 (Job.setPhase e.2 .ready)) s

/-- The same on every pillow. -/
def State.resumeLegal : Nat → State → State
  | 0, s => s
  | n + 1, s => (s.resumeOn n).resumeLegal n

/-! ## MAP_CREATE -/

/-- MAP_FAULT for an address space that does not exist, with KIND 0 and the command's own VA, 0 where it has none
(assumption 21). -/
def State.needAsid (asid va : Nat) (s : State) : Option Reject :=
  require (s.ms.asids.contains asid) (mapFault asid 0 va)

/-- MAP_CREATE's own checks (R228, R231, R425). -/
def mapCreateCheck (asid op : Nat) (s : State) : Option Reject :=
  if op = 0 then
    firstOf
      [require (!s.ms.asids.contains asid) (resHeld Op.mapCreate Op.mapCreate 9 asid noPillow noOwner),
       require (allocTable s.ms.tables 1 asid 0).isSome { status := Status.tableFull }]
  else
    firstOf
      [s.needAsid asid 0,
       (s.asidTemplate asid).map fun n => resHeld Op.jobAdmit Op.mapCreate 9 asid noPillow n,
       (s.asidJob asid).map fun (c, j) => resHeld j.op Op.mapCreate 9 asid noPillow c]

/-- Drops the cache entries of an address space, or of one page of it, on every pillow (R233). -/
def State.dropCached (asid : Nat) (va : Option Nat) (s : State) : State :=
  let drop (x : Pillow) : Pillow :=
    { x with tc := x.tc.filter fun e => !(e.asid == asid && (va.elim true fun v => e.va == v)) }
  { s with pillows := tmapTo (fun _ => {}) (fun _ x => drop x) nPillows s.pillows }

/-- Creates an address space with its level-1 table, or deletes one with its pages and tables; a MAP_PAGE of it
that waits for its drain maps nothing (DESIGN CHOICE, assumption 114). -/
def State.mapCreate (asid op : Nat) (s : State) : State :=
  let m := s.ms
  if op = 0 then
    let ts := (allocTable m.tables 1 asid 0).getD m.tables
    ({ s with ms := { m with asids := asid :: m.asids, tables := ts } }).clearTables m.tables
  else
    let m := { m with
      asids := m.asids.filter (· != asid)
      pages := m.pages.filter fun g => g.asid != asid
      pendings := m.pendings.map fun q => if q.p.asid = asid then { q with gone := true } else q
      tables := m.tables.filter fun t => t.asid != asid }
    ({ s with ms := m }).dropCached asid none

/-- MAP_CREATE (R228, R425). -/
def execMapCreate (h : Hdr) (asid op : Nat) (s : State) : Out :=
  hostCommand h Op.mapCreate 0 false
    (firstOf [require (decide (asid ≤ 1023)) (paramBadAt 8), require (decide (op ≤ 1)) (paramBadAt 0x0A)])
    (mapCreateCheck asid op) (fun s => (s.mapCreate asid op).done h Op.mapCreate 0 []) s

/-! ## MAP_PAGE -/

/-- The mapped page that a MAP_PAGE names: same address, same size. -/
def State.namedPage (p : MapPageParams) (s : State) : Option Page :=
  s.ms.pages.find? fun g => g.asid == p.asid && g.va == p.va && g.big == p.big

/-- Checks of a new mapping's addresses (R213, R217, R229, R473). -/
def State.targetCheck (p : MapPageParams) (s : State) : Option Reject :=
  let n := pageBytes p.big
  let bad (kind : Nat) : Reject := mapFault p.asid kind p.va
  firstOf
    [require (decide (p.va % n = 0) && decide (p.pa % n = 0)) (bad 0xFF),
     require (mappable p.pa n) (bad 0xFF),
     require (!(p.big && inGround p.pa)) (bad 0xFF),
     require (!s.overWindow p.pa n) (bad 0xFF),
     require (!s.gatedAt p.pa) (bad 0xFF),
     require (!(s.ms.pages.any fun g =>
        g.asid == p.asid && g.big != p.big && g.meets p.va (p.va + n))) (bad 0xFF)]

/-- MAP_PAGE's own checks (R229, R231, R233, R426). -/
def mapPageCheck (p : MapPageParams) (s : State) : Option Reject :=
  let held := match s.namedPage p with
    | some g => require (!g.pin) (s.pageHeld Op.mapPage p.asid p.va)
    | none => none
  if p.op = 0 then
    firstOf [s.needAsid p.asid p.va, s.targetCheck p, held,
      require (pageTables p.asid p.va p.big s.ms.tables).isSome { status := Status.tableFull }]
  else
    firstOf [s.needAsid p.asid p.va,
      require (s.namedPage p).isSome (mapFault p.asid 0 p.va), held]

/-- MAP_PAGE is accepted: a new mapping's tables are allocated; the change and the reply wait for the
cache drop and the drain (R233). -/
def mapPageDo (h : Hdr) (p : MapPageParams) (s : State) : State :=
  let m := s.ms
  let ts := if p.op = 0 then (pageTables p.asid p.va p.big m.tables).getD m.tables else m.tables
  let q : MapPending := { h := h, p := p }
  let s := { s with ms := { m with tables := ts, pendings := m.pendings ++ [q] } }
  if p.op = 0 then (s.clearTables m.tables).putEntries false p.asid p.va else s

/-- MAP_PAGE (R426). -/
def execMapPage (h : Hdr) (p : MapPageParams) (s : State) : Out :=
  hostCommand h Op.mapPage 0 false
    (firstOf [require (decide (p.asid ≤ 1023)) (paramBadAt 8), require (decide (p.op ≤ 2)) (paramBadAt 0x0A),
              require (decide (p.va < 2 ^ 48)) (paramBadAt 0x0C),
              require (decide (p.pa < 2 ^ 48) && (p.op == 0 || p.pa == 0)) (paramBadAt 0x14)])
    (mapPageCheck p) (mapPageDo h p) s

/-- The change of a page itself, atomic (R233, R426). -/
def MemSys.changePage (p : MapPageParams) (m : MemSys) : MemSys :=
  let same (g : Page) : Bool := g.asid == p.asid && g.va == p.va && g.big == p.big
  if p.op = 0 then
    let g : Page :=
      { asid := p.asid, va := p.va, pa := p.pa, big := p.big, r := p.r, w := p.w, pin := false }
    { m with pages := g :: m.pages.filter fun g => !same g }
  else if p.op = 1 then
    { m with pages := m.pages.map fun g => if same g then { g with r := p.r, w := p.w } else g }
  else { m with pages := m.pages.filter fun g => !same g }

/-! ## MAP_PIN -/

/-- The lowest address of [va, hi) that no page covers, stepping over at most `fuel` pages. -/
def State.firstHole (asid hi : Nat) (s : State) : Nat → Nat → Option Nat
  | 0, va => if va < hi then some va else none
  | fuel + 1, va =>
    if hi ≤ va then none
    else match s.pageAt asid va with
      | none => some va
      | some g => s.firstHole asid hi fuel (g.va + pageBytes g.big)

/-- The refusal of an unpin by the lowest page that a template locks (R235). -/
def State.lockedIn (asid lo hi : Nat) (s : State) : Option Reject :=
  match s.ms.pages.find? fun g => g.asid == asid && g.meets lo hi && !(s.pageLocks asid g.va).isEmpty with
  | some g => some (s.pageHeld Op.mapPin asid g.va)
  | none => none

/-- MAP_PIN's own checks (R235, R427). -/
def mapPinCheck (asid op va size : Nat) (s : State) : Option Reject :=
  firstOf [s.needAsid asid va,
    if op = 0 then
      (s.firstHole asid (va + size) (s.ms.pages.length + 1) va).map fun v => mapFault asid 0 v
    else s.lockedIn asid va (va + size)]

/-- Whether a page is one that MAP_PIN changes. -/
def pinChanges (asid op lo hi : Nat) (g : Page) : Bool :=
  g.asid == asid && g.meets lo hi && g.pin != (op == 0)

/-! ## MARCH_RUN -/

/-- RES_HELD of a March target: kind 15, the index its TARGET (R223, R409, R428). -/
def marchHeld (holder target pillow owner : Nat) : Reject := resHeld holder Op.marchRun 15 target pillow owner

/-- What holds a pillow's memories against a March test: an admitted template, a held loose job or a
claimed window (R223). -/
def State.pillowHolder (target p : Nat) (s : State) : Option Reject :=
  firstOf
    [(s.admitted.find? fun (_, t) => t.p.mapA.contains p || t.p.mapB.contains p).map fun (n, _) =>
        marchHeld Op.jobAdmit target p n,
     (s.liveJobs.find? fun (_, j) => !j.pinned && j.map.contains p).map fun (c, j) =>
        marchHeld j.op target p c,
     ((s.pillow p).windows.find? fun (_, w) => w.claimed).map fun (_, w) =>
        marchHeld w.holder target p w.owner]

/-- What holds a ground-buffer quarter: a window that overlaps it, or a mapped page (R223). -/
def State.quarterHolder (target q : Nat) (s : State) : Option Reject :=
  let lo := 0x80_0000 * q
  firstOf
    [(s.streams.find? fun (_, x) => x.bound && decide (x.base < lo + 0x80_0000)
        && decide (lo < x.base + x.pitch * x.depth)).map fun (n, _) =>
        marchHeld Op.streamOpen target noPillow n,
     if s.pageIn (gbBase + lo) (gbBase + lo + 0x80_0000) then
       some (marchHeld Op.mapPage target noPillow noOwner) else none]

/-- The holder of a MARCH_RUN target, none when it is out of use (R223). One test runs at a time
(assumption 22). -/
def State.marchHolder (target index : Nat) (s : State) : Option Reject :=
  if s.ms.march.isSome then some (marchHeld Op.marchRun target noPillow noOwner)
  else if target ≤ 1 then s.pillowHolder target index
  else if target = 2 then firstOf ((List.range nPillows).map fun p => s.pillowHolder 2 p)
  else if target = 3 then s.quarterHolder 3 index
  else if target = 4 then firstOf ((List.range 4).map fun q => s.quarterHolder 4 q)
  else firstOf
    [(s.admitted.head?).map fun (n, _) => marchHeld Op.jobAdmit 5 noPillow n,
     (s.liveJobs.find? fun (_, j) => !j.pinned).map fun (c, j) => marchHeld j.op 5 noPillow c]

/-- A test command accepted in state 2 with no template admitted moves the device to state 3 (R478). -/
def State.enterTest (s : State) : State :=
  if s.mgmt.devState = 2 ∧ s.admitted = [] then { s with mgmt := { s.mgmt with devState := 3 } } else s

/-- MARCH_RUN is accepted: the run starts and the core is free; the reply comes at its end (R223,
R478). -/
def marchRunDo (h : Hdr) (target form index : Nat) (s : State) : State :=
  let s := s.enterTest
  let m := { s.ms with
    march := some (h, target, form, index), marchForm := form, marchTarget := target }
  ({ s with ms := m }).release Op.marchRun h.tag

/-- MARCH_RUN (R222, R223, R428); at throttle step 2 or above it is refused (R526). -/
def execMarchRun (h : Hdr) (target form index : Nat) (s : State) : Out :=
  hostCommand h Op.marchRun 0 false
    (firstOf [require (decide (target ≤ 5)) (paramBadAt 8), require (decide (form ≤ 1)) (paramBadAt 9),
      require (if target ≤ 1 then decide (index < 48) else if target = 3 then decide (index < 4)
        else index == 0) (paramBadAt 0x0A)])
    (fun s => firstOf [require (decide (s.therm.step < 2)) stateRefused, s.marchHolder target index])
    (marchRunDo h target form index) s

end Sys2Proof.Machine
end

