-- ==== Sys2Proof/Machine/Pricking.lean ====
section
/-! DEFINITION. The pricking store and PRICK_LOAD (R434), and the verification of an image (R180, R530,
R95, R114, R122, R132, R191 to R195, R298). -/

namespace Sys2Proof.Machine

/-- PRICK_BAD at a byte of an entry. -/
def prickBad (sect index ofs : Nat) : Reject := imageBad Status.prickBad sect index ofs

/-- The first refusal among the entries below n. -/
def firstEntry (n : Nat) (f : Nat → Option Reject) : Option Reject := firstOf ((List.range n).map f)

/-- Whether n bytes from a are 0. -/
def Prick.blank (p : Prick) (a n : Nat) : Bool := (p.slice a n).all (· == 0)

/-! ## Header and sections (R143, R144) -/

/-- The header's fields. -/
def Prick.headerCheck (p : Prick) : Option Reject :=
  let bad (b : Bool) (o : Nat) := require b (prickBad 0 0 o)
  firstOf
    [bad (p.num 0 4 == 0x4B49_5250) 0x00, bad (p.num 4 2 == 1) 0x04, bad (decide (p.flags < 4)) 0x06,
     bad (inRange 1 p.nOps 1024) 0x08, bad (decide (p.nTiles ≤ 4096)) 0x0A,
     bad (decide (p.nQdesc ≤ 256)) 0x0C, bad (decide (p.nEdesc ≤ 64)) 0x0E,
     bad (decide (p.nAct ≤ 8)) 0x0F, bad (inRange 1 p.nStages 64) 0x10, bad (inRange 1 p.nPil 48) 0x11,
     bad (decide (p.nLen ≤ 4)) 0x12, bad (p.blank 0x13 1) 0x13, bad (p.blank 0x2E 2) 0x2E,
     bad (p.blank 0x3E 2) 0x3E, bad (p.num 0x58 4 == p.size) 0x58, bad (p.blank 0x5C 36) 0x5C]

/-- One section: a count of 0 has offset 0; another starts 16 B aligned beyond the header and lies
within SIZE. -/
def Prick.sectionCheck (p : Prick) (x : Nat × Nat × Nat) : Option Reject :=
  let (f, n, sz) := x
  let o := p.num f 4
  require
    (if n = 0 then o == 0
     else o % 16 == 0 && decide (0x80 ≤ o) && decide (o + n * sz ≤ p.size)) (prickBad 0 0 f)

/-- Two sections share no byte. -/
def Prick.apart (p : Prick) (x y : Nat × Nat × Nat) : Bool :=
  x.1 == y.1 || x.2.1 == 0 || y.2.1 == 0
    || decide (p.num x.1 4 + x.2.1 * x.2.2 ≤ p.num y.1 4)
    || decide (p.num y.1 4 + y.2.1 * y.2.2 ≤ p.num x.1 4)

/-- The section rules of R144. -/
def Prick.sectionsCheck (p : Prick) : Option Reject :=
  firstOf (p.sections.map p.sectionCheck
    ++ p.sections.map fun x => require (p.sections.all fun y => p.apart x y) (prickBad 0 0 x.1))

/-! ## Descriptors and stages (R94, R95, R132, R136, R146) -/

/-- A quantisation descriptor (R94, R95). A reserved byte that is not 0 counts as a reserved code (DESIGN CHOICE,
assumption 127). -/
def Prick.qdescCheck (p : Prick) (i : Nat) : Option Reject :=
  let q := p.qdesc i
  let bad (b : Bool) (o : Nat) := require b (imageBad Status.quantBad 3 i o)
  firstOf
    [bad (decide (q.mode < 16)) 0, bad (decide (q.inFmt ≤ 4)) 1,
     bad (q.dynamic || decide (q.zq ≤ zqMax q.a4)) 2, bad (q.dynamic || f32PosNormal q.scale) 4,
     bad (q.rotTag == q.rot) 8, bad ((p.qdescBytes i).drop 10 |>.all (· == 0)) 0x0A]

/-- An epilogue descriptor (R132). -/
def Prick.edescCheck (p : Prick) (i : Nat) : Option Reject :=
  let d := p.edesc i
  let b := p.edescBytes i
  let bad (c : Bool) (o : Nat) := require c (imageBad Status.reduceBad 4 i o)
  let int := decide (d.outFmt ≤ 1)
  let lim : Int := if d.outFmt = 0 then 128 else 32768
  firstOf
    [bad (decide (d.outFmt ≤ 4)) 0,
     bad (decide (d.elem < 32) && decide (d.elemOp ≤ 2) && decide (bitsOf 2 2 d.elem ≤ 2)) 1,
     bad (decide (d.act < 16) && (!bitOf 3 d.act || decide (d.act % 8 < p.nAct))) 2,
     bad (decide (d.flags < 2)) 3, bad (!d.spill || d.elem == 0) 1, bad (!d.spill || d.act == 0) 2,
     bad (!int || f32PosNormal d.sOut) 4, bad (!int || (decide (-lim ≤ d.zOut) && decide (d.zOut < lim))) 8,
     bad ((b.drop 0x0A).take 2 |>.all (· == 0)) 0x0A, bad (b.drop 0x14 |>.all (· == 0)) 0x14]

/-- An activation table: LO below HI, and the reserved bytes. -/
def Prick.actCheck (p : Prick) (i : Nat) : Option Reject :=
  let b := p.actBytes i
  firstOf
    [require (f32Finite (BitVec.ofNat 32 (numAt 0 4 b)) && f32Finite (BitVec.ofNat 32 (numAt 4 4 b))
        && f32Lt (BitVec.ofNat 32 (numAt 0 4 b)) (BitVec.ofNat 32 (numAt 4 4 b))) (prickBad 5 i 0),
     require (b.drop 268 |>.all (· == 0)) (prickBad 5 i 268)]

/-- A stage entry (R146): a final stage has STAGE_DL 0. OFFSET and the other stages' STAGE_DL are the loader's matter at
JOB_ADMIT (R147, R148). -/
def Prick.stageCheck (p : Prick) (i : Nat) : Option Reject :=
  let d := p.stage i
  let b := p.num 0x54 4 + 16 * i
  let bad (c : Bool) (o : Nat) := require c (prickBad 6 i o)
  firstOf
    [bad (decide (d.pillow < p.nPil)) 0, bad (d.pred == 0xFF || decide (d.pred < p.nStages)) 1,
     bad (!(p.before 64 i).contains i) 1, bad (p.blank (b + 2) 2) 2, bad (!p.isFinal i || d.dl == 0) 8,
     bad (p.blank (b + 12) 4) 12]

/-- A tile descriptor's own fields (R159, R160). -/
def Prick.tileCheck (p : Prick) (i : Nat) : Option Reject :=
  let t := p.tile i
  let b := p.num 0x44 4 + 16 * i
  let bad (c : Bool) (o : Nat) := require c (prickBad 2 i o)
  firstOf
    [bad (decide (t.slot < 64)) 0, bad (decide (p.num (b + 1) 1 < 16)) 1,
     bad (decide (1 ≤ t.ncol) && decide (t.col0 + t.ncol ≤ if t.w4 then 512 else 256)) 4,
     bad (inRange 1 t.kRows 1024) 8, bad (decide (p.num (b + 0x0A) 1 < 16)) 0x0A,
     bad (decide (p.num (b + 0x0B) 1 < 4)) 0x0B]

/-! ## Operations (R149 to R155, R177, R190 to R195) -/

/-- Whether the kind and, for a TAT operation, the kernel reads OPND_E (R192). -/
def tatUsesE (kernel : Nat) : Bool :=
  inRange 1 kernel 5 || decide (9 ≤ kernel)

/-- Whether an operation uses its operands A, E and O (R151). E of a DMA is MCAST. -/
def Prick.uses (p : Prick) (o : OpRec) : Bool × Bool × Bool :=
  if o.kind = kXbar then (true, (p.edesc o.edesc).elemOp != 0, true)
  else if o.kind = kTat then (true, tatUsesE o.arg, true)
  else if o.kind = kDma then (true, false, true)
  else if o.kind = kSetlen then (true, false, false)
  else if o.kind = kRecord then (o.count != 0, false, false)
  else (false, false, false)

/-- An operand's reserved bits, and all its fields when it is not used. -/
def opndCheck (i ofs : Nat) (used : Bool) (x : Opnd) : Option Reject :=
  firstOf
    [require (decide (x.win < 64)) (prickBad 1 i (ofs + 6)),
     require (decide (x.oflags < 4)) (prickBad 1 i (ofs + 7)),
     require (used || x.isZero) (prickBad 1 i ofs)]

/-- The alignment of an operand: BASE, TOK_STRIDE and byte strides are multiples of n (R180). -/
def alignCheck (i ofs : Nat) (x : Opnd) (ls : List Level) (str : Level → Int) (so n : Nat) :
    Option Reject :=
  let base := if x.windowed then x.base % 2 ^ 32 else x.base
  firstOf
    [require (base % n == 0) (prickBad 1 i ofs), require (x.tok % n == 0) (prickBad 1 i (ofs + 12)),
     firstOf (ls.zipIdx.map fun (l, j) =>
       require (l.dim == 0 || (x.windowed && l.lineAdv) || str l % (n : Int) == 0)
         (prickBad 1 i (0x50 + 24 * j + so)))]

/-- The largest DIV of a level (R155, R160). -/
def divMax (d : Nat) : Nat := if d = 5 then 1024 else if d = 2 then 32 else if d = 3 then 512 else 1

/-- A loop level's own fields (R154, R155). -/
def levelCheck (i j : Nat) (l : Level) : Option Reject :=
  let b := 0x50 + 24 * j
  let bad (c : Bool) (o : Nat) := require c (prickBad 1 i (b + o))
  firstOf
    [bad (decide (l.dim ≤ 5)) 0, bad (decide (l.lflags < 32)) 1,
     bad (l.dim == 0 || inRange 1 l.div (divMax l.dim)) 2, bad (!l.runTime || l.bound == 0) 4,
     bad (!(l.dim == 3 || l.dim == 5) || l.strA == 0) 8, bad (!(l.dim == 3 || l.dim == 5) || l.strE == 0) 12,
     bad (!(l.dim == 3 || l.dim == 5) || l.strO == 0) 16]

/-- The order of the levels (R155, R161). -/
def orderCheck (i : Nat) (o : OpRec) : Option Reject :=
  let n (d : Nat) : Nat := o.levels.countP (·.dim == d)
  let bad (c : Bool) (ofs : Nat) := require c (prickBad 1 i ofs)
  let inner := o.levels.dropWhile (·.dim == 0)
  firstOf
    [bad (inner.all (·.dim != 0)) 0x50,
     bad (decide (n 1 ≤ 1) && decide (n 2 ≤ 1) && decide (n 3 ≤ 1) && decide (n 4 ≤ 2)) 0x50,
     bad (if o.kind = kXbar then (o.lv 5).dim == 5 && n 5 == 1 else n 5 == 0) 0xC8,
     bad (!o.parN || (o.lv 4).dim == 3) 2]

/-- The fields every operation has (R149, R150). -/
def Prick.opFields (p : Prick) (i : Nat) (o : OpRec) : Option Reject :=
  let b := p.opAt i
  let bad (c : Bool) (ofs : Nat) := require c (prickBad 1 i ofs)
  let (ua, ue, uo) := p.uses o
  let gathers := o.kind == kXbar || o.kind == kTat
  firstOf
    [bad (inRange 1 o.kind 6) 0, bad (decide (o.stage + o.nStages ≤ p.nStages)) 1,
     bad (decide (o.flags < 4) && (!o.async || o.kind == kDma) && (!o.parN || o.kind == kXbar)) 2,
     bad (!gathers || decide (o.qdesc < p.nQdesc)) 6, bad (!gathers || decide (o.edesc < p.nEdesc)) 7,
     bad (bitsOf 2 2 o.grid == 0 && bitsOf 6 2 o.grid == 0 && (o.kind == kXbar || o.grid == 0)) 8,
     bad (decide (o.split < 4) && (o.kind == kXbar || o.split == 0)) 9,
     bad (decide (o.fence ≤ 31) || (o.fence == 0xFF && o.kind != kFence)) 0x0A,
     bad (o.kind == kTat || (o.kind == kSetlen && decide (o.arg ≤ 3)) || o.arg == 0) 0x0B,
     bad (o.kind != kRecord || decide (o.count ≤ 160)) 0x0C,
     opndCheck i 0x10 ua o.a,
     (if o.kind = kDma then bad (p.blank (b + 0x26) 10 && decide (o.mcast < 2 ^ p.nPil)) 0x20
      else opndCheck i 0x20 ue o.e),
     opndCheck i 0x30 uo o.o,
     bad (!gathers || inRange 1 o.segLen 4096) 0x40, bad (!gathers || inRange 1 o.segN 16) 0x42,
     bad (decide (o.gflags < 2)) 0x43, bad (p.blank (b + 0x48) 8) 0x48,
     firstOf (o.levels.zipIdx.map fun (l, j) => levelCheck i j l), orderCheck i o,
     bad (bitsOf 2 5 o.ltabCtrl == 0) 0xE6, bad (p.blank (b + 0xE7) 25) 0xE7]

/-- The alignment an operation's operands need (R177, R180). -/
def Prick.opAlign (p : Prick) (i : Nat) (o : OpRec) : Option Reject :=
  let d := p.edesc o.edesc
  let q := p.qdesc o.qdesc
  let seg (n : Nat) := require (bitOf 0 o.gflags || o.segStride % (n : Int) == 0) (prickBad 1 i 0x44)
  if o.kind = kXbar then
    firstOf
      [alignCheck i 0x10 o.a o.levels Level.strA 8 q.esize, seg q.esize,
       (if d.elemOp = 0 then none else alignCheck i 0x20 o.e o.levels Level.strE 12 d.elemSize),
       alignCheck i 0x30 o.o o.levels Level.strO 16 d.outSize]
  else if o.kind = kTat then
    firstOf
      [alignCheck i 0x10 o.a o.levels Level.strA 8 q.esize, seg q.esize,
       alignCheck i 0x20 o.e o.levels Level.strE 12 (if o.arg = 4 ∨ o.arg = 5 then 2 else q.esize),
       alignCheck i 0x30 o.o o.levels Level.strO 16 d.outSize]
  else if o.kind = kDma then
    firstOf
      [alignCheck i 0x10 o.a o.levels Level.strA 8 64, alignCheck i 0x30 o.o o.levels Level.strO 16 64,
       require (o.count % 64 == 0) (prickBad 1 i 0x0C),
       require (o.mcast == 0 || !o.o.windowed) (prickBad 1 i 0x36)]
  else if o.kind = kSetlen then require (o.a.base % 4 == 0) (prickBad 1 i 0x10)
  else none

/-- C of a TAT operation (R190). -/
def OpRec.tatC (o : OpRec) : Nat := o.count % 2 ^ 16
/-- W of a TAT operation. -/
def OpRec.tatW (o : OpRec) : Nat := bitsOf 16 4 o.count
/-- The taps of POOL and DW (R195). -/
def OpRec.taps (o : OpRec) : Nat := o.segN * o.tatW

/-- A TAT operation's shape and descriptors (R190 to R195). -/
def Prick.tatCheck (p : Prick) (i : Nat) (o : OpRec) : Option Reject :=
  let q := p.qdesc o.qdesc
  let d := p.edesc o.edesc
  let bad (c : Bool) (ofs : Nat) := require c (prickBad 1 i ofs)
  let badE (c : Bool) (ofs : Nat) := require c (prickBad 4 o.edesc ofs)
  let pool := inRange 7 o.arg 9
  let norm := o.arg == 4 || o.arg == 5
  let mm := decide (10 ≤ o.arg)
  let eps := BitVec.ofNat 32 d.colf
  firstOf
    [bad (decide (o.arg ≤ 11)) 0x0B, bad (o.fence == 0xFF) 0x0A,
     bad (decide (o.count < 2 ^ 20) && decide (1 ≤ o.tatC) && (pool == (o.tatW != 0))) 0x0C,
     bad (decide (7 ≤ o.arg) || o.tatC == o.tokLen) 0x0C,
     bad (!pool || (o.segLen == o.tatW * o.tatC && inRange 1 o.taps 240)) 0x40,
     bad (!mm || (decide (o.tokLen ≤ 65536) && decide (o.tatC ≤ 4096))) 0x0C,
     bad (!mm || q.inFmt == 0) 6, bad (o.dimLevel 3).isNone 0x50,
     badE (decide (d.outFmt ≤ 2)) 0, badE (d.elem == 0) 1, badE (d.flags == 0) 3,
     badE (f32PosNormal d.sElem) 0x0C,
     badE (if norm then !bitOf 31 d.colf && f32Finite eps else d.colf == 0) 0x10]

/-! ## What depends on the iterations (R530) -/

/-- The K level's length and iteration count under given lengths. -/
def OpRec.kLen (o : OpRec) (len : Nat → Option Nat) : Option Nat := (o.lv 5).length len

/-- QUANT_BAD of R95 for the descriptor of an XBAR operation. -/
def Prick.quantCheck (p : Prick) (o : OpRec) : Option Reject :=
  let q := p.qdesc o.qdesc
  let bad (c : Bool) := require c (imageBad Status.quantBad 3 o.qdesc 0)
  firstOf
    [bad (!(q.dynamic && o.parts != 1)), bad (!((o.lv 5).runTime && (q.dynamic || q.zq != 0)))]

/-- The leaf limits of R114 and R122. -/
def OpRec.leafCheck (o : OpRec) (i : Nat) (len : Nat → Option Nat) : Option Reject :=
  match o.kLen len with
  | none => none
  | some k =>
    let t := (o.lv 5).count k
    require (k == 0 || (decide (padPow t / o.parts ≤ 64) && decide (o.parts ≤ padPow t)))
      (imageBad Status.reduceBad 1 i (if o.parts = 1 then 0xCA else 9))

/-- A tile selected by a token: its index and format (R160, R180). -/
def Prick.selectedCheck (p : Prick) (i : Nat) (o : OpRec) (len : Nat → Option Nat) (x : Int) :
    Option Reject :=
  let q := p.qdesc o.qdesc
  let t := p.tile x.toNat
  let b := q.block
  let rows := match o.kLen len with
    | none => 0
    | some k => ceilDiv (min t.kRows (k - t.kOfs)) b * b
  firstOf
    [require (decide (0 ≤ x) && decide (x < p.nTiles)) (prickBad 1 i 4),
     require (t.a4 == q.a4) (prickBad 2 x.toNat 0x0B),
     require (t.w4 || (match o.dimLevel 3 with | some l => decide ((o.lv l).div ≤ 256) | none => true))
       (prickBad 2 x.toNat 0x0B),
     require (b == 1 || decide (rows ≤ t.kRows)) (imageBad Status.quantBad 3 o.qdesc 0)]

/-- Two tiles have no column in common. -/
def TileD.disjoint (t u : TileD) : Bool := decide (t.col0 + t.ncol ≤ u.col0) || decide (u.col0 + u.ncol ≤ t.col0)

/-- Whether every later tile on the same bobbin keeps off a tile's columns. -/
def clear : List TileD → Bool
  | [] => true
  | t :: r => (r.all fun u => u.logical != t.logical || t.disjoint u) && clear r

/-- The sharing factor s of a token's tiles (R160). -/
def sharing (ts : List TileD) : Nat :=
  (List.range 16).foldl (fun m l => max m (ts.countP (·.logical == l))) 0

/-- The tiles one token drives: each selected tile, their columns and their count on one bobbin. -/
def Prick.tokenCheck (p : Prick) (i : Nat) (o : OpRec) (len : Nat → Option Nat)
    (sel : List (Nat × Int)) : Option Reject :=
  let ts := sel.map fun x => p.tile x.2.toNat
  let s := sharing ts
  firstOf
    [firstOf (sel.map fun x => p.selectedCheck i o len x.2),
     require (clear ts) (prickBad 2 o.tileBase 2), require (decide (s ≤ 4)) (prickBad 2 o.tileBase 1),
     (match o.dimLevel 2 with
      | some l => require (decide ((o.lv l).div * max 1 s ≤ 32)) (prickBad 1 i (0x50 + 24 * l + 2))
      | none => none)]

/-- An XBAR operation under given lengths: the token length of R152, the leaf limits and the tiles of
every iteration, on every stage it runs on (R180, R530). An operation of no iteration selects none, and tiles that rest
on a length still open are not judged. -/
def Prick.xbarJudge (p : Prick) (i : Nat) (o : OpRec) (len : Nat → Option Nat) : Option Reject :=
  if o.isEmpty len then none
  else
    firstOf
      [(match o.kLen len with
        | some k => require (decide (k ≤ o.tokLen)) (prickBad 1 i 0x42)
        | none => none),
       o.leafCheck i len,
       if o.tilesOpen len then none else firstOf ((List.range o.nStages).map fun j =>
         firstOf ((o.selections len (o.stage + j)).map fun sel => p.tokenCheck i o len sel))]


/-- The lengths PRICK_LOAD judges at: LEN_MAX with FLAGS.PLAN, else none (R530). -/
def Prick.loadLen (p : Prick) (i : Nat) : Option Nat := if p.plan then some (p.lenMax i) else none

/-- The iteration-dependent checks of every XBAR operation under given lengths (R182, R530). -/
def Prick.judge (p : Prick) (len : Nat → Option Nat) : Option Reject :=
  firstEntry p.nOps fun i =>
    let o := p.op i
    if o.kind = kXbar then p.xbarJudge i o len else none

/-- The stages of a split: distinct pillows, equal PRED, OFFSET and STAGE_DL, within N_PILLOWS (R173). -/
def Prick.gridCheck (p : Prick) (i : Nat) (o : OpRec) : Option Reject :=
  let ss := (List.range o.nStages).map fun j => p.stage (o.stage + j)
  let s0 := p.stage o.stage
  require
    (decide (o.nStages ≤ p.nPil) && decide (ss.map StageD.pillow).Nodup
      && ss.all fun s => s.pred == s0.pred && s.ofs == s0.ofs && s.dl == s0.dl)
    (prickBad 1 i 8)

/-- One operation at PRICK_LOAD. -/
def Prick.opCheck (p : Prick) (i : Nat) : Option Reject :=
  let o := p.op i
  firstOf
    [p.opFields i o, p.opAlign i o,
     (if o.kind = kXbar then firstOf
        [p.gridCheck i o, p.quantCheck o, p.xbarJudge i o p.loadLen]
      else if o.kind = kTat then p.tatCheck i o else none)]
/-! ## Fences and the RECORD (R153, R180) -/

/-- The part a spill of part q goes to: q less its lowest set bit; part 0 sends nothing (R123). -/
def spillTo (q : Nat) : Option Nat :=
  if q = 0 then none
  else if q % 2 = 1 then some (q - 1) else if q % 4 = 2 then some (q - 2) else some (q - 4)

/-- The logical pillows on which operation j, run on stage k, increments its fence counter (R123,
R177). -/
def Prick.fenceTargets (p : Prick) (j k : Nat) : List Nat :=
  let o := p.op j
  if o.kind = kDma then
    if o.mcast = 0 then [(p.stage k).pillow] else indices 48 fun b => bitOf b o.mcast
  else if o.kind = kXbar then
    match spillTo (o.part k).2.2 with
    | some r => [(p.stage (k - (o.part k).2.2 + r)).pillow]
    | none => []
  else []

/-- Whether stages k and m belong to one split run (R173). -/
def Prick.sameRun (p : Prick) (k m : Nat) : Bool :=
  (List.range p.nOps).any fun j =>
    let o := p.op j
    decide (1 < o.nStages) && decide (o.stage ≤ k) && decide (k < o.stage + o.nStages)
      && decide (o.stage ≤ m) && decide (m < o.stage + o.nStages)

/-- The increments that can reach the FENCE operation i before it runs (R180). -/
def Prick.increments (p : Prick) (i : Nat) : Nat :=
  let f := p.op i
  let pil := (p.stage f.stage).pillow
  let counts (j k : Nat) : Bool :=
    ((k == f.stage && decide (j < i)) || (p.before 64 f.stage).contains k
      || (k != f.stage && p.sameRun k f.stage))
      && (p.fenceTargets j k).contains pil
  ((List.range p.nOps).map fun j =>
    let o := p.op j
    if o.fence = f.fence then (List.range o.nStages).countP fun m => counts j (o.stage + m) else 0).sum

/-- A FENCE that cannot be satisfied. -/
def Prick.fenceCheck (p : Prick) (i : Nat) : Option Reject :=
  require ((p.op i).kind != kFence || decide ((p.op i).count ≤ p.increments i)) (prickBad 1 i 0x0C)

/-- Exactly one RECORD, in a final stage (R153). -/
def Prick.recordCheck (p : Prick) : Option Reject :=
  match (List.range p.nOps).filter fun i => (p.op i).kind == kRecord with
  | [i] => require (p.isFinal (p.op i).stage) (prickBad 1 i 1)
  | _ :: i :: _ => some (prickBad 1 i 0)
  | [] => some (prickBad 1 0 0)

/-- The verification of PRICK_LOAD CLOSE. The spec fixes no order among its grounds; this one is the
model's (assumption 23). -/
def Prick.verify (p : Prick) : Option Reject :=
  firstOf
    [require (decide (p.bytes.length = p.size)) (prickBad 0 0 0), p.headerCheck, p.sectionsCheck,
     firstEntry p.nQdesc p.qdescCheck, firstEntry p.nAct p.actCheck, firstEntry p.nEdesc p.edescCheck,
     firstEntry p.nStages p.stageCheck, firstEntry p.nTiles p.tileCheck, firstEntry p.nOps p.opCheck,
     firstEntry p.nOps p.fenceCheck, p.recordCheck]

/-! ## PRICK_LOAD (R434) -/

/-- The size of the pricking store: 32 MiB. -/
def storeBytes : Nat := 0x200_0000

/-- The prickings in the store. -/
def State.stored (s : State) : List (Nat × Prick) := s.pricks.filterMap fun (n, p) => p.map fun p => (n, p)

/-- The bytes the store has reserved. -/
def State.storeUsed (s : State) : Nat := (s.stored.map fun x => x.2.size).sum

/-- The range checks of PRICK_LOAD's fields. -/
def prickParams (prk : Nat) (more : List (Option Reject)) : Option Reject :=
  firstOf (require (decide (prk ≤ 255)) (paramBadAt 8) :: more)

/-- A pricking number that is in use, or the fifth open one. -/
def prickHeld (prk owner : Nat) : Reject :=
  resHeld Op.prickLoad Op.prickLoad 16 prk noPillow owner

/-- OPEN's own checks. -/
def prickOpenCheck (prk size : Nat) (s : State) : Option Reject :=
  let opens := s.stored.filter fun x => !x.2.loaded
  firstOf
    [require (s.prick prk).isNone (prickHeld prk noOwner),
     require (decide (s.storeUsed + size ≤ storeBytes)) { status := Status.stageFull },
     require (decide (opens.length < 4)) (prickHeld prk noOwner)]

/-- PRICK_LOAD_OPEN: reserves the number and the store's space. -/
def execPrickLoadOpen (h : Hdr) (prk size : Nat) (s : State) : Out :=
  hostCommand h Op.prickLoad 0 false (prickParams prk [require (inRange 128 size 393216) (paramBadAt 0x0C)])
    (prickOpenCheck prk size)
    (fun s => (s.setPrick prk (some { loaded := false, size := size, bytes := [] })).done h Op.prickLoad 0 []) s

/-- Writes image bytes in place. -/
def Prick.write (ofs : Nat) (data : Bytes) (p : Prick) : Prick :=
  { p with bytes := data.zipIdx.foldl (fun t (b, i) => tset (fun _ => none) (ofs + i) (some b) t) p.bytes }

/-- DATA and CLOSE act on an open number. -/
def prickOpenOnly (prk : Nat) (s : State) : Option Reject :=
  require ((s.prick prk).elim false fun p => !p.loaded) stateRefused

/-- PRICK_LOAD_DATA. -/
def execPrickLoadData (h : Hdr) (prk offset : Nat) (data : Bytes) (s : State) : Out :=
  hostCommand h Op.prickLoad 1 false
    (prickParams prk [require (offset % 16 == 0) (paramBadAt 0x0C)])
    (fun s => firstOf [prickOpenOnly prk s,
      require (decide (offset + data.length ≤ (s.prick prk).elim 0 Prick.size)) (paramBadAt 0x0C)])
    (fun s => (s.modPrick prk (Prick.write offset data)).done h Op.prickLoad 1 []) s

/-- CLOSE's effect: the verified image is loaded; a failed CLOSE frees the number and answers its
refusal. -/
def prickCloseDo (h : Hdr) (prk : Nat) (s : State) : State :=
  match (s.prick prk).bind Prick.verify with
  | none => (s.modPrick prk fun p => { p with loaded := true }).done h Op.prickLoad 2 []
  | some r => (s.setPrick prk none).refuse h Op.prickLoad 2 r

/-- PRICK_LOAD_CLOSE. -/
def execPrickLoadClose (h : Hdr) (prk : Nat) (s : State) : Out :=
  hostCommand h Op.prickLoad 2 false (prickParams prk []) (prickOpenOnly prk) (prickCloseDo h prk) s

/-- The admitted template or held loose job that names a pricking. -/
def State.prickUser (prk : Nat) (s : State) : Option Reject :=
  firstOf
    [(s.admitted.find? fun (_, t) => t.p.prk == prk).map fun (n, _) =>
        resHeld Op.jobAdmit Op.prickLoad 16 prk noPillow n,
     (s.liveJobs.find? fun (_, j) => !j.pinned && j.prk == prk).map fun (c, j) =>
        resHeld j.op Op.prickLoad 16 prk noPillow c]

/-- PRICK_LOAD_DISCARD: frees an open or loaded number. -/
def execPrickLoadDiscard (h : Hdr) (prk : Nat) (s : State) : Out :=
  hostCommand h Op.prickLoad 3 false (prickParams prk [])
    (fun s => firstOf [require (s.prick prk).isSome stateRefused, s.prickUser prk])
    (fun s => (s.setPrick prk none).done h Op.prickLoad 3 []) s

end Sys2Proof.Machine
end

