-- ==== Sys2Proof/Machine/Operands.lean ====
section
/-! DEFINITION. Every operand form of a pricking: the run-time lengths and positions of an operation's
loops (R154 to R169, R174), the addresses of R157, the windows of R158, R179, R211 and R212, translation
(R230 to R236, R256), and the reads and writes of the pillow's units, with the recovery of poisoned units
(R208, R491). -/

namespace Sys2Proof.Machine

/-- A stage at work on a pillow: its job, pricking, live state and current operation, with the lengths that the
operation runs with and the entries of its line table (R164, R174). -/
structure Work where
  p : Nat
  job : Job
  prk : Prick
  run : Run
  op : OpRec
  len : List Nat
  tab : List Nat
  deriving DecidableEq, Repr

/-- The image a job without a pricking would have. -/
def emptyPrick : Prick := { loaded := false, size := 0, bytes := [] }

/-- The pricking of a job. -/
def State.prkOf (j : Job) (s : State) : Prick := (s.prick j.prk).getD emptyPrick

/-- A stage's work on pillow p: an operation under way keeps the lengths that it started with (R164, R174). -/
def State.workOf (p : Nat) (r : Run) (s : State) : Option Work :=
  (s.job r.ctx).map fun j =>
    let k := s.prkOf j
    { p := p, job := j, prk := k, run := r, op := k.op r.op, len := if r.started then r.lens else j.len, tab := r.tab }

/-- The address space of the work. -/
def Work.asid (w : Work) : Nat := w.job.asid

/-! ## Lengths and loops -/

/-- A length as used: a pinned one is clamped to LEN_MAX (R169). -/
def Work.clampLen (w : Work) (id v : Nat) : Nat := if w.job.pinned then min v (w.prk.lenMax id) else v

/-- The run-time length that the operation's line table sets. -/
def Work.tabId (w : Work) : Nat := w.op.ltabCtrl % 4

/-- The length of level l at the given indices (R156, R164): inside the LINE level a line table's entry
takes the place of the length it sets. -/
def Work.levelLen (w : Work) (idx : List Nat) (l : Nat) : Nat :=
  let v := w.op.lv l
  if !v.runTime then v.bound
  else
    let own := w.clampLen v.lenId (nth w.len v.lenId)
    match w.op.dimLevel 1 with
    | some m =>
      if w.op.lineTable && v.lenId == w.tabId && decide (m < l) then w.clampLen v.lenId (nth w.tab (nth idx m))
      else own
    | none => own

/-- The iterations [lo, hi) of level l on this stage (R156, R174). -/
def Work.levelSpan (w : Work) (idx : List Nat) (l : Nat) : Nat × Nat :=
  w.op.range w.run.stage l ((w.op.lv l).count (w.levelLen idx l))

/-- A level that one position of the operation takes whole: K, and N under PAR_N (R156, R161). -/
def Work.folded (w : Work) (l : Nat) : Bool :=
  w.op.kind == kXbar && (l == 5 || (w.op.parN && l == 4))

/-- The iterations of level l that positions step through. -/
def Work.posSpan (w : Work) (idx : List Nat) (l : Nat) : Nat × Nat :=
  let (lo, hi) := w.levelSpan idx l
  if w.folded l then (0, if lo < hi then 1 else 0) else (lo, hi)

/-- Sets n levels from l on to their first iterations. -/
def fillLow (sp : List Nat → Nat → Nat × Nat) : Nat → Nat → List Nat → List Nat
  | 0, _, idx => idx
  | n + 1, l, idx => fillLow sp n (l + 1) (setNth idx l (sp idx l).1)

/-- The innermost of the first l levels that has a further iteration takes it. -/
def bump (sp : List Nat → Nat → Nat × Nat) : Nat → List Nat → Option (List Nat)
  | 0, _ => none
  | l + 1, idx =>
    let v := nth idx l + 1
    if v < (sp idx l).2 then some (fillLow sp (5 - l) (l + 1) (setNth idx l v)) else bump sp l idx

/-- The first indices from these on at which no level is empty (R164, R167). -/
def seek (sp : List Nat → Nat → Nat × Nat) : Nat → Option (List Nat) → Option (List Nat)
  | _, none => none
  | 0, some _ => none
  | fuel + 1, some idx =>
    match lowest 6 fun l => decide ((sp idx l).2 ≤ (sp idx l).1) with
    | none => some idx
    | some e => seek sp fuel (bump sp e idx)

/-- A bound on the indices that `seek` passes over. -/
def Work.seekFuel (w : Work) : Nat :=
  ((List.range 6).map fun l => (w.levelSpan [] l).2 + 1).foldl (· * ·) 1

/-- The tokens of a token tile (R155, R162). -/
def Work.tileToks (w : Work) : Nat :=
  if w.op.kind = kXbar ∨ w.op.kind = kTat then
    match w.op.dimLevel 2 with
    | some l => max 1 (w.op.lv l).div
    | none => 1
  else 1

/-- The first position of the operation on this stage, none when its share is empty. -/
def Work.firstPos (w : Work) : Option (List Nat) :=
  seek (w.posSpan) (w.seekFuel) (some (fillLow (w.posSpan) 6 0 [0, 0, 0, 0, 0, 0]))

/-- The indices after these. -/
def Work.nextIdx (w : Work) (idx : List Nat) : Option (List Nat) :=
  seek (w.posSpan) (w.seekFuel) (bump (w.posSpan) 6 idx)

/-- The position after this one; tokens are innermost (R156). -/
def Work.nextPos (w : Work) (x : List Nat × Nat) : Option (List Nat × Nat) :=
  if x.2 + 1 < w.tileToks then some (x.1, x.2 + 1) else (w.nextIdx x.1).map fun i => (i, 0)

/-- Whether a token lies beyond the length of its M level (R165). -/
def Work.maskedTok (w : Work) (idx : List Nat) (tok : Nat) : Bool :=
  match w.op.dimLevel 2 with
  | some l => decide (w.levelLen idx l ≤ nth idx l * (w.op.lv l).div + tok)
  | none => false

/-- The reduction length K of a position. -/
def Work.kOf (w : Work) (idx : List Nat) : Nat := w.levelLen idx 5

/-- Whether two index lists differ at one of the first n levels. -/
def leaves (n : Nat) (a b : List Nat) : Bool := a.take n != b.take n

/-! ## Addresses (R153, R157) -/

/-- The private base that CTX adds: the scratchpad region for windows and for operands whose WIN[5] is
0, else the HBM region (DESIGN CHOICE, assumption 25). -/
def Work.ctxBase (w : Work) (x : Opnd) : Nat :=
  if bitOf 5 x.win then w.prk.privHbmBase + w.job.ctxIdx * w.prk.privHbmSize
  else w.prk.privSpBase + w.job.ctxIdx * w.prk.privSpSize

/-- The byte offset and line of an operand at a position (R157). -/
def Work.address (w : Work) (x : Opnd) (str : Level → Int) (idx : List Nat) (tok : Nat) : Int × Int :=
  let off0 : Int := if x.windowed then (x.base % 2 ^ 32 : Nat) else (x.base : Nat)
  let line0 : Int := if x.windowed then toSigned 16 (x.base / 2 ^ 32) else 0
  let off1 : Int := off0 + (if x.ctx then (w.ctxBase x : Int) else 0)
    + (if x.inst && w.job.pinned then ((w.job.inst * w.prk.instStride : Nat) : Int) else 0)
  let (off, line) := w.op.levels.zipIdx.foldl (fun (o, l) (v, k) =>
    if v.dim = 0 then (o, l)
    else if x.windowed && v.lineAdv then (o, l + (nth idx k : Int) * str v)
    else (o + (nth idx k : Int) * str v, l)) (off1, line0)
  (off + ((tok * x.tok : Nat) : Int), line)

/-- The offset and line of gather segment g of the A operand. -/
def Work.segAddress (w : Work) (idx : List Nat) (tok g : Nat) : Int × Int :=
  let (off, line) := w.address w.op.a Level.strA idx tok
  let d := (g : Int) * w.op.segStride
  if bitOf 0 w.op.gflags then (off, line + d) else (off + d, line)

/-- A virtual address within 48 bits. -/
def vaOf (a : Int) : Nat := (a % (2 ^ 48 : Int)).toNat

/-! ## Translation (R230 to R236, R256) -/

/-- The pool offsets of the entries that a walk reads, level by level (R230). -/
def MemSys.walkEntries (m : MemSys) (asid va : Nat) : List Nat :=
  let at_ (level pre i : Nat) : List Nat := ((tableAt m.tables level asid pre).map fun t => t.ofs + 8 * i).toList
  at_ 1 0 (va / 2 ^ 35) ++ at_ 2 (va / 2 ^ 35) (va / 2 ^ 21 % 2 ^ 14) ++ at_ 3 (va / 2 ^ 21) (va / 2 ^ 16 % 32)

/-- A walk reads its entries in order: one whose mirror is sound is served from it and written back to both, and
the walk is counted; at one whose copies are both poisoned the walk ends, uncorrectable (R256, R260). -/
def State.walkCheck (asid va : Nat) (s : State) : Bool × State :=
  let es := s.ms.walkEntries asid va
  let bad (b e : Nat) : Bool := s.ms.poison.contains (b + e)
  let sound := es.takeWhile fun e => !(bad poolBase e && bad mirrorBase e)
  let fix := sound.filter (bad poolBase)
  let m := { s.ms with
    poison := s.ms.poison.filter fun u =>
      !(fix.any fun e => u == poolBase + e || u == mirrorBase + e)
    mirror := satAdd 0xFFFF_FFFF s.ms.mirror (if fix = [] then 0 else 1) }
  (sound.length == es.length, { s with ms := m })

/-- The entry of a cache that covers an address. -/
def TcEntry.covers (asid va : Nat) (e : TcEntry) : Bool :=
  e.asid == asid && decide (e.va ≤ va) && decide (va < e.va + pageBytes e.big)

/-- The least recently used unlocked entry leaves (R234); the list is in order of use. -/
def evict (tc : List TcEntry) : List TcEntry := (tc.reverse.eraseP fun e => e.locks.isEmpty).reverse

/-- A new entry in front, one leaving where the cache of 512 is full. -/
def fillTc (e : TcEntry) (tc : List TcEntry) : List TcEntry :=
  e :: if tc.length < 512 then tc else evict tc

/-- A miss: the walk's time lies within 350 ns per level and is otherwise free (assumption 13). `fresh` says that the
access which waits for it comes after it. -/
def State.walk (p asid va : Nat) (fresh : Bool) (s : State) : Bool × State :=
  let n := (s.ms.walkEntries asid va).length
  let (d, s) := s.draw
  let s := s.modPillow p fun x =>
    { x with mem := { x.mem with
      ptMiss := satAdd 0xFFFF_FFFF x.mem.ptMiss 1
      ptWalkNs := satAdd 0xFFFF_FFFF x.mem.ptWalkNs (d.toNat % (350 * n + 1)) } }
  let (ok, s) := s.walkCheck asid va
  match s.pageAt asid va with
  | some g =>
    (ok, if ok then s.modPillow p fun x =>
      { x with tc := fillTc { asid := asid, va := g.va, big := g.big, locks := [], fresh := fresh } x.tc } else s)
  | none => (ok, s)

/-- The physical address of an access, or its fault (R234, R242). The access walks where its page is not
in the cache; the first access to what a walk has just filled is the one that walked, and no hit (R259). -/
def State.translate (p unit : Nat) (win write : Bool) (asid va : Nat) (s : State) :
    Except FaultRec Nat × State :=
  let x := s.pillow p
  let (ok, s) := match x.tc.find? (TcEntry.covers asid va) with
    | some e =>
      (true, s.setPillow p
        { x with tc := { e with fresh := false } :: x.tc.erase e
                 mem := { x.mem with ptHit := satAdd 0xFFFF_FFFF x.mem.ptHit (if e.fresh then 0 else 1) } })
    | none => s.walk p asid va false
  let bad (k : Nat) : Except FaultRec Nat :=
    .error { va := va, kind := k, unit := unit, write := write, asid := asid, win := win }
  if !ok then (bad 3, s)
  else match s.accessFault p unit win write asid va with
    | some k => (bad k, s)
    | none => (.ok ((s.pageAt asid va).elim 0 fun g => g.physical va), s)

/-! ## Writes that meet in one core cycle (R201, R205, R206) -/

/-- The port by which a unit of the work writes (R201): on the own scratchpad the epilogue's, the tatting unit's or
the local DMA engine's; on another pillow's the ground side's; on the ground buffer that of the mesh's writes. -/
def Work.port (w : Work) (unit pa : Nat) : Nat :=
  if inScratch w.p pa then unit - 1 else if inGround pa then 2 else 3

/-! ## Poisoned units read by pinned work (R491) -/

/-- A fault counts against every pinned instance with work left on the pillow (R495). -/
def State.faultOn (p : Nat) (s : State) : State :=
  { s with jobs := s.jobs.map fun (c, j) => (c, j.map fun j =>
      if j.pinned && j.stages.any fun x => x.2.pillow == p && x.2.phase != .done then
        { j with faults := j.faults + 1 }
      else j) }

/-- A GUARANTEE report (R486, R494): 1 withdrawn or 2 restored, the template and the model slot concerned, and the
count of contexts. -/
def State.guarantee (op template slot count p : Nat) (s : State) : State :=
  s.report
    { cls := 22, pillow := p, template := template
      body := leBytes 1 op ++ leBytes 1 slot ++ leBytes 2 count }

/-- The guarantee of one context is withdrawn (R494). -/
def State.withdrawCtx (c p : Nat) (s : State) : State :=
  let slot := (s.job c).elim 0xFF Job.slotTag
  let template := (s.job c).elim 0xFFFF Job.template
  let s := s.modJob c fun j => { j with withdrawn := true }
  s.guarantee 1 template slot 1 p

/-- A covered fault is counted, and its interruption kept where it is the longest (R497). -/
def State.covered (ns : Nat) (s : State) : State :=
  { s with mgmt := { s.mgmt with
    covered := satAdd 0xFFFF_FFFF s.mgmt.covered 1, maxInt := max s.mgmt.maxInt ns } }

/-- Whether a pinned stage's read is of an activation buffer: a scratchpad, or its private region of HBM
(R491). -/
def Work.activation (w : Work) (va pa : Nat) : Bool :=
  let lo := w.prk.privHbmBase + w.job.ctxIdx * w.prk.privHbmSize
  (decide (spBase 0 ≤ pa) && decide (pa < spBase 48))
    || (!inGround pa && decide (lo ≤ va) && decide (va < lo + w.prk.privHbmSize))

/-- A pinned stage meets one poisoned unit (R491): an activation buffer's unit is rebuilt and its poison
cleared (assumption 26); a unit of input data stays poisoned, and the guarantee is withdrawn. -/
def State.poisonedUnit (w : Work) (act : Bool) (u : Nat) (s : State) : State :=
  let rep (o t : Nat) : ErrReport :=
    { cls := 6, pillow := w.p, ctx := some w.run.ctx, template := w.job.template
      body := leBytes 1 (memCode u) ++ leBytes 8 u ++ leBytes 1 o ++ leBytes 4 t }
  let s := s.faultOn w.p
  if act then
    let (d, s) := s.draw
    let t := d.toNat % 18001
    let s := { s with ms := { s.ms with poison := s.ms.poison.filter (· != u) } }
    ((s.modJob w.run.ctx fun j => { j with recomputed := true }).covered t).report (rep 1 t)
  else (s.withdrawCtx w.run.ctx w.p).report (rep 2 0)

/-- What came of an access: its bytes and the state after it, a fault, or a wait for a window's line. -/
inductive Access where
  | ok (b : Bytes) (s : State)
  | fault (f : FaultRec) (s : State)
  | wait (win : Nat) (line : Int) (write : Bool)

/-- Reads n bytes at a physical address reached as va. The read meets the errors that have arisen there first
(R208, R219). -/
def State.readPhys (w : Work) (unit : Nat) (win : Bool) (va pa n : Nat) (s : State) : Access :=
  let s := s.meetErrs pa n
  let us := s.ms.poison.filter fun u => decide (u < pa + n) && decide (pa < u + 8)
  if us.isEmpty then .ok (s.load pa n) s
  else if !w.job.pinned then
    .fault { va := va, kind := 3, unit := unit, write := false, asid := w.asid, win := win } s
  else
    let act := w.activation va pa
    let b := (List.range n).map fun i =>
      if !act && us.any fun u => decide (u ≤ pa + i) && decide (pa + i < u + 8) then 0
      else s.byteAt (pa + i)
    .ok b (us.foldl (fun s u => s.poisonedUnit w act u) s)

/-- The pieces of [va, va + n) that lie in one 64 KiB page each. -/
def pieces : Nat → Nat → Nat → List (Nat × Nat)
  | 0, _, _ => []
  | fuel + 1, va, n =>
    if n = 0 then []
    else
      let k := min n (0x1_0000 - va % 0x1_0000)
      (va, k) :: pieces fuel (va + k) (n - k)

/-- The pieces of a virtual range. -/
def vaPieces (va n : Nat) : List (Nat × Nat) := pieces (n / 0x1_0000 + 2) va n

/-- Reads pieces one after another. -/
def readPieces (w : Work) (unit : Nat) (win : Bool) : List (Nat × Nat) → State → Access
  | [], s => .ok [] s
  | (va, n) :: r, s =>
    match s.translate w.p unit win false w.asid va with
    | (.error f, s) => .fault f s
    | (.ok pa, s) =>
      match s.readPhys w unit win va pa n with
      | .ok b s =>
        match readPieces w unit win r s with
        | .ok c s => .ok (b ++ c) s
        | x => x
      | x => x

/-- Reads n bytes of virtual memory. -/
def State.readVa (w : Work) (unit : Nat) (win : Bool) (va n : Nat) (s : State) : Access :=
  readPieces w unit win (vaPieces va n) s

/-- Translates every piece of a write before a byte of it is written (R243). -/
def writePages (w : Work) (unit : Nat) (win : Bool) : List (Nat × Nat) → State →
    Except FaultRec (List (Nat × Nat)) × State
  | [], s => (.ok [], s)
  | (va, n) :: r, s =>
    match s.translate w.p unit win true w.asid va with
    | (.error f, s) => (.error f, s)
    | (.ok pa, s) =>
      match writePages w unit win r s with
      | (.ok l, s) => (.ok ((pa, n) :: l), s)
      | x => x

/-- Writes bytes over translated pieces. -/
def storePieces (w : Work) (unit : Nat) : List (Nat × Nat) → Bytes → State → State
  | [], _, s => s
  | (pa, n) :: r, b, s => storePieces w unit r (b.drop n) (s.storeBy (w.port unit pa) (some w.run.ctx) pa (b.take n))

/-- Writes bytes to virtual memory: all of them or none. -/
def State.writeVa (w : Work) (unit : Nat) (win : Bool) (va : Nat) (b : Bytes) (s : State) : Access :=
  match writePages w unit win (vaPieces va b.length) s with
  | (.error f, s) => .fault f s
  | (.ok l, s) => .ok [] (storePieces w unit l b s)

/-! ## Windows (R158, R179, R211 to R214) -/

/-- The key of a job's counters of scratchpad window win on pillow p. -/
def winKey (p win : Nat) : Nat := 16 * p + win

/-- LANDED of a window. -/
def Job.landed (j : Job) (k : Nat) : Nat := tget (fun _ => 0) j.landedCnt k
/-- RELEASED of a window. -/
def Job.released_ (j : Job) (k : Nat) : Nat := tget (fun _ => 0) j.released k

/-- LANDED passes the completed lines that follow it. -/
def passLanded : Nat → Nat → List Nat → Nat × List Nat
  | 0, n, l => (n, l)
  | fuel + 1, n, l => if l.contains n then passLanded fuel (n + 1) (l.filter (· != n)) else (n, l)

/-- A line's writing iteration has completed (R212). -/
def Job.land (k line : Nat) (j : Job) : Job :=
  let l := tget (fun _ => []) j.ahead k
  if line < j.landed k then j
  else
    let (n, l) := passLanded (l.length + 1) (j.landed k) (line :: l.filter (· != line))
    { j with landedCnt := tset (fun _ => 0) k n j.landedCnt, ahead := tset (fun _ => []) k l j.ahead }

/-- Lines below `line` are released (R179). -/
def Job.releaseBelow (k : Nat) (line : Int) (j : Job) : Job :=
  if (j.released_ k : Int) < line then { j with released := tset (fun _ => 0) k line.toNat j.released }
  else j

/-- The virtual address at which a scratchpad window holds a line (R211). -/
def SpWindow.lineVa (x : SpWindow) (line off : Int) : Nat :=
  vaOf ((x.base : Int) + line % (max 1 x.depth : Int) * (x.pitch : Int) + off)

/-- The physical address at which a stream's ground-buffer window holds a line (R213, R214). -/
def Stream.lineAddr (x : Stream) (line off : Int) : Nat :=
  gbBase + ((x.base : Int) + line % (max 1 x.depth : Int) * (x.pitch : Int) + off).toNat % 0x200_0000

/-- Whether a patch of a template that still needs it contains a stitch (R214). -/
def Template.holds (st : Int) (t : Template) : Bool :=
  (!t.withdrawn && t.accepted && decide ((t.nextRow : Int) ≤ st))
    || t.rows.any fun r => r.waiting != 0 && decide ((r.first : Int) ≤ st) && decide (st ≤ r.last)

/-- Whether a stream's window holds a line: it stands in its slot and a patch still needs it (R214). -/
def State.lineHeld (n : Nat) (line : Int) (s : State) : Bool :=
  let x := s.stream n
  (x.landed.any fun l => (l.1 : Int) == line)
    && s.admitted.any fun (_, t) => t.p.stream == n && t.holds ((x.origin : Int) + line)

/-- Reads n bytes of an operand at an offset and line (R158). -/
def State.readOpnd (w : Work) (unit : Nat) (x : Opnd) (off line : Int) (n : Nat) (s : State) : Access :=
  if !x.windowed then s.readVa w unit false (vaOf off) n
  else if x.ground then
    let st := s.stream x.window
    if w.job.pinned then
      if line < 0 ∨ (nth w.len 0 : Int) ≤ line then .ok (zeros n) s
      else
        let a := st.lineAddr (w.job.firstLine + line) off
        s.readPhys w unit false a a n
    else
      let a := st.lineAddr line off
      if s.lineHeld x.window line then s.readPhys w unit false a a n
      else .fault { va := a, kind := 2, unit := unit, write := false, asid := w.asid } s
  else
    let v := (s.pillow w.p).window x.window
    let k := winKey w.p x.window
    if line < (w.job.released_ k : Int) then
      .fault { va := v.lineVa line off, kind := 2, unit := unit, write := false, asid := w.asid, win := true } s
    else if (w.job.landed k : Int) ≤ line then .wait x.window line false
    else s.readVa w unit true (v.lineVa line off) n

/-- The virtual address, the window mark and the wait of a write of an operand; a write into a
ground-buffer window breaks R232 (assumption 27). -/
def State.writeTarget (w : Work) (x : Opnd) (off line : Int) (s : State) :
    Option (Nat × Int × Bool) × Option Nat × Bool :=
  if !x.windowed then (none, some (vaOf off), false)
  else if x.ground then (none, none, false)
  else
    let v := (s.pillow w.p).window x.window
    let k := winKey w.p x.window
    if ((w.job.released_ k + v.depth : Nat) : Int) ≤ line then (some (x.window, line, true), none, true)
    else (none, some (v.lineVa line off), true)

/-- Writes bytes of an operand at an offset and line (R179, R243). -/
def State.writeOpnd (w : Work) (unit : Nat) (x : Opnd) (off line : Int) (b : Bytes) (s : State) : Access :=
  match s.writeTarget w x off line with
  | (some (n, l, d), _, _) => .wait n l d
  | (none, some va, win) => s.writeVa w unit win va b
  | (none, none, _) =>
    .fault { va := (s.stream x.window).lineAddr line off, kind := 1, unit := unit, write := true
             asid := w.asid } s

/-- Whether the line a stage waits for has come (R212). -/
def State.lineReady (p : Nat) (j : Job) (x : Nat × Int × Bool) (s : State) : Bool :=
  let k := winKey p x.1
  if x.2.2 then decide (x.2.1 < ((j.released_ k + ((s.pillow p).window x.1).depth : Nat) : Int))
  else decide (x.2.1 < (j.landed k : Int))

/-- An operand that lies in a scratchpad window. -/
def Opnd.ring (x : Opnd) : Bool := x.windowed && !x.ground

/-- The innermost level whose strides count lines. -/
def OpRec.lineLevel (o : OpRec) : Option Nat :=
  (List.range 6).reverse.find? fun l => (o.lv l).dim != 0 && (o.lv l).lineAdv

/-- The lines that end with this position of the output operand (R179): its iteration of the innermost
LINE_ADV level is the last to write them. `nxt` is the next position. -/
def Work.landsAt (w : Work) (idx : List Nat) (nxt : Option (List Nat)) : Option Nat :=
  let last := match nxt with
    | none => true
    | some i => match w.op.lineLevel with
      | some l => leaves (l + 1) idx i
      | none => false
  let line := (w.address w.op.o Level.strO idx 0).2
  if w.op.o.ring && last && decide (0 ≤ line) then some line.toNat else none

/-- The lines written by a finished position land. -/
def State.landAt (w : Work) (idx : List Nat) (nxt : Option (List Nat)) (s : State) : State :=
  match w.landsAt idx nxt with
  | some l => s.modJob w.run.ctx (Job.land (winKey w.p w.op.o.window) l)
  | none => s

/-- The lowest and the highest line, relative to its starting line, that an operand meets in the iterations of n levels
from l on below the indices given; none where they run none. A line table can differ from line to line. -/
def Work.lineExt (w : Work) (x : Opnd) (str : Level → Int) : Nat → Nat → List Nat → Option (Int × Int)
  | 0, _, _ => some (0, 0)
  | n + 1, l, idx =>
    let v := w.op.lv l
    let (lo, hi) := w.posSpan idx l
    let st : Int := if v.dim != 0 && x.windowed && v.lineAdv then str v else 0
    let is := if hi ≤ lo then []
      else if v.dim == 1 && w.op.lineTable then (List.range (hi - lo)).map (lo + ·) else [lo, hi - 1]
    (is.filterMap fun i => (w.lineExt x str n (l + 1) (setNth idx l i)).map fun (a, b) =>
      ((i : Int) * st + a, (i : Int) * st + b)).foldl (fun m (a, b) =>
        some (m.elim (a, b) fun (c, d) => (min a c, max b d))) none

/-- The lowest and the highest line of an operand that the operation's iterations meet whose first n indices are
those given; `gather` says that the operand is gathered (R157). -/
def Work.lines (w : Work) (x : Opnd) (str : Level → Int) (gather : Bool) (n : Nat) (idx : List Nat) :
    Option (Int × Int) :=
  let line0 := (w.address x str (idx.take n) 0).2
  let g : Int := if gather && bitOf 0 w.op.gflags then ((w.op.segN - 1 : Nat) : Int) * w.op.segStride else 0
  (w.lineExt x str (6 - n) n (idx.take n)).map fun (a, b) => (line0 + a + min 0 g, line0 + b + max 0 g)

/-- The release at the end of a position's last pass (R179): where an iteration of a RELEASE level ends, the lines of
the A operand's window below the lowest one that the level's next iteration reads; after the last iteration, every
line read. -/
def State.releaseAt (w : Work) (idx : List Nat) (nxt : Option (List Nat)) (s : State) : State :=
  if !w.op.a.ring then s
  else
    let below (l : Option Int) (s : State) : State :=
      l.elim s fun l => s.modJob w.run.ctx (Job.releaseBelow (winKey w.p w.op.a.window) l)
    let ext (n : Nat) (i : List Nat) : Option (Int × Int) := w.lines w.op.a Level.strA (w.op.kind != kDma) n i
    match nxt with
    | none => below ((ext 0 []).map fun x => x.2 + 1) s
    | some i =>
      (List.range 6).foldl (fun s l =>
        if (w.op.lv l).dim != 0 && (w.op.lv l).rel && leaves (l + 1) idx i then
          below ((ext (l + 1) i).map Prod.fst) s
        else s) s

/-- The lines that a finished operation has read through a windowed OPND_E are released (R179). -/
def State.releaseE (w : Work) (s : State) : State :=
  if (w.prk.uses w.op).2.1 && w.op.e.ring then
    match w.lines w.op.e Level.strE false 0 [] with
    | some (_, b) => s.modJob w.run.ctx (Job.releaseBelow (winKey w.p w.op.e.window) (b + 1))
    | none => s
  else s

/-! ## Fences (R177, R178) -/

/-- The key of fence counter id on pillow p. -/
def fenceKey (p id : Nat) : Nat := 32 * p + id

/-- A fence counter of a job. -/
def Job.fence (j : Job) (k : Nat) : Nat := tget (fun _ => 0) j.fences k

/-- Increments counter id of the job's context on pillow p; a saturation raises PRICKING (R178). -/
def State.fenceUp (w : Work) (p id : Nat) (s : State) : State :=
  if id = 0xFF then s
  else
    match s.job w.run.ctx with
    | none => s
    | some j =>
      let k := fenceKey p id
      let n := j.fence k
      let s := s.setJob w.run.ctx (some { j with fences := tset (fun _ => 0) k (satAdd 65535 n 1) j.fences })
      if n < 65535 then s
      else s.report
        { cls := 19, pillow := p, ctx := some w.run.ctx, template := w.job.template
          body := leBytes 1 w.job.prk ++ leBytes 2 w.run.op ++ leBytes 1 id }

end Sys2Proof.Machine
end

