-- ==== Sys2Proof/Machine/Admission.lean ====
section
/-! DEFINITION. The loader's figures (R147, R183, R192, R239), the single-fault rebuild time (R491), twins
(R332) and the demand-bound test (R43, R44). -/

namespace Sys2Proof.Machine

/-! ## Sheets of a stream (R26) -/

/-- The sheet of a stream that a stitch lies in, and the stitch at which it begins, from which the stream's patch rows
are counted. `bounds` is newest first. For a stitch that no kept boundary covers, where the spec gives no beginning,
the rows are counted from SHEET_OFS, as if a boundary lay at WP 0 (DESIGN CHOICE, assumption 37). -/
def State.sheetAt (ofs : Nat) (st : Int) (s : State) : Nat × Int :=
  match s.sheets.bounds.find? fun b => decide (((b.2 + ofs : Nat) : Int) ≤ st) with
  | some (n, w) => (n, ((w + ofs : Nat) : Int))
  | none =>
    (match s.sheets.bounds.getLast? with
      | some (n, _) => if s.sheets.bounds.length = 4 then n else n - 1
      | none => s.sheets.sheet, (ofs : Int))

/-! ## The loader's time of an operation -/

/-- The lengths the loader plans with. -/
def Prick.plan? (p : Prick) (i : Nat) : Option Nat := some (p.lenMax i)

/-- Bytes of an element of IN_FMT, for TAT operands as for conditioned ones. -/
def Prick.elemBytes (p : Prick) (o : OpRec) : Nat := (p.qdesc o.qdesc).esize

/-- The positions an operation steps through on stage k at the planned lengths, tokens not counted. -/
def Prick.positions (p : Prick) (o : OpRec) (k : Nat) : Nat :=
  (List.range 6).foldl (fun n l =>
    if o.kind = kXbar ∧ (l = 5 ∨ (o.parN ∧ l = 4)) then n
    else let (lo, hi) := o.span p.plan? k l; n * (hi - lo)) 1

/-- DIV of the M level, 1 without one. -/
def OpRec.mDiv (o : OpRec) : Nat :=
  match o.dimLevel 2 with
  | some l => max 1 (o.lv l).div
  | none => 1

/-- The columns of an output vector: those of the first tile of each N iteration selected. -/
def Prick.vecLen (p : Prick) (sel : List (Nat × Int)) : Nat :=
  ((sel.map Prod.fst).eraseDups.map fun n =>
    ((sel.find? fun x => x.1 == n).map fun x => (p.tile x.2.toNat).ncol).getD 0).sum

/-- c_k of R183. -/
def conditionNs (k : Nat) (dynamic : Bool) : Nat :=
  (12 + ceilDiv k 128) * (if dynamic then 2 else 1)

/-- The time of an XBAR part (R183). -/
def Prick.xbarNs (p : Prick) (o : OpRec) (k : Nat) : Nat :=
  let sels := o.selections p.plan? k
  let n := p.positions o k * o.mDiv
  if n = 0 ∨ sels.isEmpty then 0
  else
    let q := p.qdesc o.qdesc
    let step := if q.a4 then 100 else 200
    let c := conditionNs ((o.kLen p.plan?).getD 0) q.dynamic
    let s := sels.foldl (fun m x => max m (sharing (x.map fun y => p.tile y.2.toNat))) 1
    let v := sels.foldl (fun m x => max m (p.vecLen x)) 0
    c + n * max (s * step) c + 6 + ceilDiv v 64

/-- The time of one token of a vector kernel, or of one A tile of a matrix kernel (R192). -/
def tatUnitNs (o : OpRec) : Nat :=
  let l := o.tokLen
  if o.arg ≤ 3 then ceilDiv l 64
  else if o.arg ≤ 5 then 2 * ceilDiv l 64 + 12
  else if o.arg = 6 then 3 * ceilDiv l 64 + 28
  else if o.arg ≤ 9 then o.taps * ceilDiv o.tatC 64
  else ceilDiv o.tatC 32 * (l + 32)

/-- The time of a TAT operation (R192). -/
def Prick.tatNs (p : Prick) (o : OpRec) (k : Nat) : Nat :=
  8 + p.positions o k * (if o.arg ≤ 9 then o.mDiv else 1) * tatUnitNs o

/-- The lowest offset and the end of an operand's bytes relative to its BASE, over every iteration of stage k
at the planned lengths; lines do not count. -/
def Prick.reach (p : Prick) (o : OpRec) (k ofs : Nat) (x : Opnd) (str : Level → Int) (toks n : Nat) : Int × Int :=
  let (lo, hi) := (List.range 6).foldl (fun (lo, hi) l =>
    let v := o.lv l
    if v.dim = 0 ∨ (x.windowed ∧ v.lineAdv) then (lo, hi)
    else
      let (a, b) := o.span p.plan? k l
      let u := (a : Int) * str v
      let w := ((b - 1 : Nat) : Int) * str v
      (lo + min u w, hi + max u w)) ((0 : Int), (0 : Int))
  let g : Int := if ofs = 0x10 ∧ (o.kind = kXbar ∨ o.kind = kTat) ∧ !bitOf 0 o.gflags then
      ((o.segN - 1 : Nat) : Int) * o.segStride else 0
  (lo + min 0 g, hi + max 0 g + ((toks + n : Nat) : Int))

/-- The offset that CTX adds to an operand for context c (R153, assumption 25). -/
def Prick.ctxOfs (p : Prick) (x : Opnd) (c : Nat) : Nat :=
  if bitOf 5 x.win then p.privHbmBase + c * p.privHbmSize else p.privSpBase + c * p.privSpSize

/-- ⌈D / t⌉ + 1 contexts for each instance of a row (R45). -/
def ctxCount (a : AdmitParams) : Nat := (ceilDiv (a.d * a.vRated) (max 1 a.period * 10 ^ 9) + 1) * a.instances

/-- Whether a physical address lies in HBM. -/
def hbmAt (pa : Nat) : Bool := !(inGround pa || (decide (spBase 0 ≤ pa) && decide (pa < spBase 48)))

/-- Whether a template's DMA operand reaches HBM on stage k: a plain one, for some context and instance, over the pages
of its reach at the planned lengths (R153, R157, R239). -/
def State.inHbm (a : AdmitParams) (p : Prick) (o : OpRec) (k ofs : Nat) (x : Opnd) (str : Level → Int) (s : State) :
    Bool :=
  let (lo, hi) := p.reach o k ofs x str 0 o.count
  !x.windowed && (List.range a.instances).any fun j =>
    (List.range (if x.ctx then ctxCount a else 1)).any fun c =>
      let base : Nat := x.base + (if x.ctx then p.ctxOfs x c else 0) + (if x.inst then j * p.instStride else 0)
      let u := ((base : Int) + lo).toNat
      let v := ((base : Int) + hi).toNat
      (s.pageAt a.asid u).isNone || s.ms.pages.any fun g => g.asid == a.asid && g.meets u v && hbmAt g.pa

/-- The DMA rate in bytes per ns (R239). -/
def State.dmaRate (a : AdmitParams) (p : Prick) (o : OpRec) (k : Nat) (s : State) : Nat :=
  if s.inHbm a p o k 0x10 o.a Level.strA || (o.mcast == 0 && s.inHbm a p o k 0x30 o.o Level.strO) then 32 else 64

/-- Whether a later operation of the stage waits for an ASYNC DMA: a FENCE for its counter, a read of a window that it
fills, or a write of one whose lines it reads and releases (R158, R178, R179). -/
def Prick.awaited (p : Prick) (i k : Nat) : Bool :=
  let d := p.op i
  (p.opsOf k).any fun j =>
    let o := p.op j
    let (ua, ue, uo) := p.uses o
    let meets (used : Bool) (x y : Opnd) : Bool := used && x.ring && y.ring && x.window == y.window
    decide (i < j) && ((o.kind == kFence && o.fence == d.fence) || meets ua o.a d.o || meets ue o.e d.o || meets uo o.o d.a)

/-- The time of operation i on stage k (R183). -/
def State.opNs (a : AdmitParams) (p : Prick) (k i : Nat) (s : State) : Nat :=
  let o := p.op i
  if o.kind = kXbar then p.xbarNs o k
  else if o.kind = kTat then p.tatNs o k
  else if o.kind = kDma then
    if o.async && !p.awaited i k then 0
    else 120 + p.positions o k * ceilDiv o.count (s.dmaRate a p o k)
  else 100

/-- C of stage k before the repeat reserve (R183). -/
def State.stageC (a : AdmitParams) (p : Prick) (k : Nat) (s : State) : Nat :=
  ((p.opsOf k).map fun i => s.opNs a p k i).sum

/-- W of R491: the longest time to rebuild one unit that an XBAR, TAT or DMA operation of the pricking
writes: one output vector, one token or output tile, one burst (DESIGN CHOICE, assumption 28). -/
def State.rebuildNs (a : AdmitParams) (p : Prick) (s : State) : Nat :=
  (List.range p.nOps).foldl (fun m i =>
    let o := p.op i
    let t :=
      if o.kind = kXbar then
        let q := p.qdesc o.qdesc
        2 * conditionNs ((o.kLen p.plan?).getD 0) q.dynamic + 4 * (if q.a4 then 100 else 200) + 14
      else if o.kind = kTat then 8 + (if o.arg ≤ 9 then tatUnitNs o else o.tokLen + 32)
      else if o.kind = kDma then 120 + ceilDiv 2048 (s.dmaRate a p o o.stage)
      else 0
    max m t) 0

/-! ## Stage offsets and deadlines (R40, R147) -/

/-- The offset O of a stage from release. -/
def Prick.offset (p : Prick) (lag k : Nat) : Nat :=
  if (p.stage k).pred = 0xFF then lag else (p.stage k).ofs

/-- The deadline of a stage from release. -/
def Prick.relDeadline (p : Prick) (d k : Nat) : Nat := if p.isFinal k then d else (p.stage k).dl

/-! ## Twins (R332, R493) -/

/-- The physical twins that ACTIVE or READY slots give physical pillow q. -/
def Slot.twins (sl : Slot) (q : Nat) : List Nat :=
  (sl.targets.filter fun t => sl.physPillow t.ppil == q && t.twin != 0xFF).map fun t => sl.physPillow t.twin

/-- The first model slot that a pricking's tiles name; 0xFF without tiles. -/
def Prick.slotTag (p : Prick) : Nat := if p.nTiles = 0 then 0xFF else (p.tile 0).slot

/-- The slots that a pricking's tiles name. -/
def Prick.slots (p : Prick) : List Nat := ((List.range p.nTiles).map fun i => (p.tile i).slot).eraseDups

/-- The twin of a physical pillow under the slots of a pricking. -/
def State.twinOf (p : Prick) (q : Nat) (s : State) : Option Nat :=
  (p.slots.flatMap fun n => (s.slot n).twins q).head?

/-! ## The demand-bound test (R43) -/

/-- An entry of s[] of R43. -/
structure Demand where
  t : Nat
  d : Nat
  c : Nat
  deriving DecidableEq, Repr

/-- A fraction with a positive denominator. -/
abbrev Frac := Int × Nat

/-- The sum of two fractions, reduced. -/
def Frac.plus (a b : Frac) : Frac :=
  let n := a.1 * (b.2 : Int) + b.1 * (a.2 : Int)
  let d := a.2 * b.2
  let g := max 1 (Nat.gcd n.natAbs d)
  (n / (g : Int), d / g)

/-- Utilisation u with the repeat reserve in c. -/
def utilisation (es : List Demand) : Frac :=
  es.foldl (fun u e => Frac.plus u ((e.c : Int), max 1 e.t)) (0, 1)

/-- The weight w. -/
def backlog (es : List Demand) : Frac :=
  es.foldl (fun u e => Frac.plus u (((e.t : Int) - (e.d : Int)) * (e.c : Int), max 1 e.t)) (0, 1)

/-- ⌈(b + f + w) / (1 − u)⌉, u below 1. -/
def horizonOf (bf : Nat) (w u : Frac) : Nat :=
  let n := ((bf : Int) * (w.2 : Int) + w.1) * (u.2 : Int)
  let d := ((u.2 : Int) - u.1) * (w.2 : Int)
  if d ≤ 0 then 0 else (-((-n) / d)).toNat

/-- The test points d + k × t up to a horizon of one entry. -/
def pointsOf (h : Nat) (e : Demand) : List Nat :=
  if h < e.d then [] else (List.range ((h - e.d) / max 1 e.t + 1)).map fun k => e.d + k * e.t

/-- The demand at x. -/
def demandAt (es : List Demand) (x : Nat) : Nat :=
  (es.map fun e => if e.d ≤ x then ((x - e.d) / max 1 e.t + 1) * e.c else 0).sum

/-- What the test of one pillow answers: the reason (0 none, 1 UTIL, 2 HORIZON, 3 POINT), the utilisation
in 1/65,536, the test point, and the smallest slack. -/
structure Verdict where
  reason : Nat
  u : Nat
  x : Nat
  slack : Option Nat
  deriving DecidableEq, Repr

/-- A utilisation in 1/65,536, rounded to the nearest (R7, R435). -/
def uField (u : Frac) : Nat := min 0xFFFF (roundHalfEven (u.1 * 65536) u.2).toNat

/-- The test of R43, in exact arithmetic, with the entries before their repeat reserve. The limit of
65,536 counts distinct points (DEDUCED, assumption 29). -/
def admitPillow (es : List Demand) (loose : Bool) : Verdict :=
  let es := es.map fun e => { e with c := e.c + 100 }
  let bf := (if loose then 5000 else 200) + 20000
  let u := utilisation es
  let uf := uField u
  if u.1 * 20 > 19 * (u.2 : Int) then { reason := 1, u := uf, x := 0, slack := none }
  else
    let h := max (es.foldl (fun m e => max m e.d) 0) (horizonOf bf (backlog es) u)
    let kinds := (es.map fun e => (e.t, e.d)).eraseDups
    let tooMany := kinds.any fun k => decide (65536 < (h - k.2) / max 1 k.1)
    let pts := if tooMany then [] else
      ((kinds.flatMap fun k => pointsOf h { t := k.1, d := k.2, c := 0 }).mergeSort (· ≤ ·)).eraseDups
    if tooMany ∨ 65536 < pts.length then { reason := 2, u := uf, x := 0, slack := none }
    else match pts.find? fun x => decide (x < bf + demandAt es x) with
      | some x => { reason := 3, u := uf, x := x, slack := none }
      | none =>
        let sl := pts.map fun x => x - (bf + demandAt es x)
        { reason := 0, u := uf, x := 0,
          slack := sl.foldl (fun m v => some (m.elim v (min v))) none }

/-- The minimum inter-release time of a template in ns. -/
def minInter (a : AdmitParams) : Nat := a.period * 10 ^ 9 / max 1 a.vRated

/-- The map that instance i of a template uses. -/
def mapOf (a : AdmitParams) (i : Nat) : List Nat := if a.instB.getLsbD i then a.mapB else a.mapA

/-- The entries a template puts on pillow q; with `lost`, also the share of a lost twin (R44). -/
def State.entries (a : AdmitParams) (q : Nat) (lost : Option Nat) (s : State) : List Demand :=
  let p := (s.prick a.prk).getD emptyPrick
  (List.range a.instances).flatMap fun i =>
    (List.range p.nStages).flatMap fun k =>
      let m := nth (mapOf a i) (p.stage k).pillow
      let here := m == q || (lost == some m && s.twinOf p m == some q)
      let o := p.offset a.lag k
      if here then [{ t := minInter a, d := p.relDeadline a.d k - o, c := s.stageC a p k }] else []

/-- The cases of one pillow: the normal share, and each twin lost (R43, R44). -/
def State.lossCases (ts : List AdmitParams) (q : Nat) (s : State) : List (Option Nat) :=
  let qs := ts.flatMap fun a =>
    ((s.prick a.prk).getD emptyPrick).slots.flatMap fun n => (s.slot n).twins q
  none :: qs.eraseDups.map some

/-- The verdicts of every case of a pillow under the templates `ts`. -/
def State.verdicts (ts : List AdmitParams) (q : Nat) (loose : Bool) (s : State) : List Verdict :=
  (s.lossCases ts q).map fun l => admitPillow (ts.flatMap fun a => s.entries a q l) loose

end Sys2Proof.Machine
end

