-- ==== Sys2Proof/Machine/Flags.lean ====
section
/-! DEFINITION. The figures, flags and statuses of a job's records (R49, R108, R121, R140, R168, R171,
R172, R253) and the bytes of the full and the compact record (R297, R299). -/

namespace Sys2Proof.Machine

/-- The whole result status of a record: the first of R171 that applies; DATA_POISONED stands in the place
of MAP_FAULT (R253). `Job.result` keeps one of the first two. -/
def Job.resultStatus (j : Job) : Nat :=
  if j.offline then Status.slotOffline
  else if j.result ≠ 0 then j.result
  else if (j.empty ∨ j.zeroed) ∧ !j.worked then Status.okEmpty
  else if j.clamp ≠ 0 then Status.truncated
  else if j.repeats ≠ 0 then Status.okRepeated
  else Status.ok

/-- The guarantee status of a record committed at `now` (R49); a loose job has none to miss. Two faults in
an instance's lifetime withdraw it (R495). -/
def Job.guaranteeStatus (now : Nat) (j : Job) : Nat :=
  if !j.pinned then Status.ok
  else if j.withdrawn ∨ 2 ≤ j.faults then Status.guaranteeWithdrawn
  else if j.overspeed then Status.overspeed
  else if j.lineLag then Status.lineLag
  else if j.deadline < now then Status.deadlineMiss
  else Status.ok

/-- The code span of a static descriptor over the pillows that used it (R108). -/
def Job.spanOf (desc : Nat) (j : Job) : Option Nat :=
  let es := j.occ.filter fun x => x.1 % 256 == desc
  match es with
  | [] => none
  | (_, lo, hi) :: r =>
    some (r.foldl (fun m x => max m x.2.2) hi - r.foldl (fun m x => min m x.2.1) lo).toNat

/-- OCC: the smallest code span over the static descriptors used, 255 when none was (R108). The spans are
kept scaled for A4, by 256 × pillow + descriptor. -/
def Job.occFigure (j : Job) : Nat :=
  (j.occ.map fun x => x.1 % 256).foldl (fun m d => min m ((j.spanOf d).getD 255)) 255

/-- The oldest epoch of any pass, and whether there was more than one (R36). -/
def Job.oldestEpoch (j : Job) : Nat :=
  match j.epochs with
  | [] => 0
  | e :: r => r.foldl min e

/-- FLAGS of the full record (R297). -/
def Job.recordFlags (j : Job) : Nat :=
  flag 0 j.degenerate + flag 1 j.nonfinite + flag 2 (j.satKept != 0) + flag 3 j.wcoll
    + flag 4 (!j.pinned) + flag 5 j.recomputed + flag 6 (decide (1 < j.epochs.eraseDups.length))

/-- An instance field: all ones for a loose job (R297). -/
def Job.inst? (j : Job) (w v : Nat) : Bytes := leBytes w (if j.pinned then v else 2 ^ (8 * w) - 1)

/-- The full record, 256 B (R297). `epoch` is the oldest epoch, `model` the model version. -/
def Job.fullRecord (ctx epoch model now : Nat) (payload : Bytes) (j : Job) : Bytes :=
  leBytes 1 1 ++ leBytes 1 1 ++ leBytes 2 j.resultStatus ++ leBytes 2 (j.guaranteeStatus now)
    ++ leBytes 2 j.recordFlags ++ j.inst? 2 j.template ++ j.inst? 1 j.stream ++ leBytes 1 j.slotTag
    ++ j.inst? 2 j.inst ++ leBytes 2 ctx
    ++ (if j.pinned then leBytes 8 j.sr else leBytes 8 (2 ^ 48 - 1)) ++ leBytes 8 j.tRel
    ++ leBytes 8 j.tLast ++ leBytes 8 now ++ leBytes 4 j.sheet ++ leBytes 2 epoch ++ leBytes 2 model
    ++ leBytes 4 j.seed.toNat ++ leBytes 2 (min 0xFFFF j.repeats) ++ leBytes 1 j.occFigure
    ++ leBytes 1 j.clamp.toNat ++ leBytes 4 (min 0xFFFF_FFFF j.clip)
    ++ leBytes 4 (min 0xFFFF_FFFF j.outsat) ++ (List.range 4).flatMap (fun i => leBytes 4 (nth j.len i))
    ++ leBytes 4 (if j.pinned then 0 else j.recTag.toNat) ++ zeros 4 ++ sliceBytes 0 160 payload

/-- The compact code of a result status (R299). -/
def resultCode (st : Nat) : Nat :=
  if st = Status.ok then 0 else if st = Status.okEmpty then 1 else if st = Status.okRepeated then 2
  else if st = Status.truncated then 3 else if st = Status.mapFault then 4
  else if st = Status.slotOffline then 5 else if st = Status.dataPoisoned then 6 else 15

/-- The compact code of a guarantee status (R299). -/
def guaranteeCode (st : Nat) : Nat :=
  if st = Status.lineLag then 1 else if st = Status.deadlineMiss then 2
  else if st = Status.overspeed then 3 else if st = Status.guaranteeWithdrawn then 4 else 0

/-- The compact record, 16 B (R299). The fields of a loose job that the full record reads as ones read
ones here too. -/
def Job.compactRecord (epoch model now : Nat) (payload : Bytes) (j : Job) : Bytes :=
  leBytes 1 ((if j.pinned then j.stream % 16 else 15) + flag 7 (!j.pinned)) ++ j.inst? 1 j.inst
    ++ j.inst? 2 j.sr ++ leBytes 1 (resultCode j.resultStatus + 16 * guaranteeCode (j.guaranteeStatus now))
    ++ leBytes 1 j.sheet ++ leBytes 1 model ++ leBytes 1 epoch ++ sliceBytes 0 8 payload

/-! ## Counting a job's figures -/

/-- Non-finite replacements and clamps count in CLIP_COUNT; the former set NONFINITE (R91, R108, R137). -/
def Job.countClips (clips nonfin : Nat) (j : Job) : Job :=
  { j with clip := satAdd 0xFFFF_FFFF j.clip (clips + nonfin), nonfinite := j.nonfinite || nonfin != 0 }

/-- Outputs clamped or limited (R137, R140). -/
def Job.countOutsat (n : Nat) (j : Job) : Job := { j with outsat := satAdd 0xFFFF_FFFF j.outsat n }

/-- The codes of a static descriptor's token widen its span (R108); A4 spans scale by 17. -/
def Job.countOcc (desc : Nat) (a4 : Bool) (codes : List Nat) (j : Job) : Job :=
  let m : Int := if a4 then 17 else 1
  match codes with
  | [] => j
  | c :: r =>
    let lo : Int := m * (r.foldl min c : Nat)
    let hi : Int := m * (r.foldl max c : Nat)
    let (a, b) := tget (fun _ => (lo, hi)) j.occ desc
    { j with occ := tput desc (min a lo, max b hi) j.occ }

/-- A pass of epoch e (R36). -/
def Job.countEpoch (e : Nat) (j : Job) : Job :=
  { j with epochs := if j.epochs.contains e then j.epochs else e :: j.epochs, worked := true }

end Sys2Proof.Machine
end

