-- ==== Sys2Proof/Machine/Security.lean ====
section
/-! DEFINITION. Firmware images and boot (R479 to R483, R500 to R505), attestation (R498, R499, R506,
R507), the lock state and fuses (R503, R511), the test access port (R508 to R510), and DEV_INFO. -/

namespace Sys2Proof.Machine

/-! ## Firmware images -/

/-- The image that bytes hold (R501). `sigOk` says whether SIG verifies under the key that KEY names; the body's digest
is formed here. -/
def fwImageOf (sigOk : Bool) (b : Bytes) : FwImage :=
  let n := numAt 0x0C 4 b
  let blank (o len : Nat) : Bool := (sliceBytes o len b).all (· == 0)
  { formOk := numAt 0 4 b == 0x4D57_465A && numAt 4 2 b == 1 && inRange 65536 n 2_031_616
      && decide (numAt 0x10 1 b < 16) && blank 0x12 6 && blank 0x38 8
    key := numAt 6 1 b, rollback := numAt 7 1 b, fwVer := BitVec.ofNat 32 (numAt 8 4 b)
    revokeFw := BitVec.ofNat 4 (numAt 0x10 1 b), revokeBn := BitVec.ofNat 8 (numAt 0x11 1 b)
    bkeys := (List.range 8).map fun k => !blank (0x40 + 64 * k) 64
    sigOk := sigOk && sliceBytes 0x18 32 b == shake256 (sliceBytes 0x76A0 n b)
    digest := digestOf (sliceBytes 0 0x240 b) }

/-- Verification of an image (R502): none when it passes, else the cause of R512: 1 signature,
2 rollback. -/
def State.imageFails (x : FwImage) (s : State) : Option Nat :=
  if !x.formOk || decide (4 ≤ x.key) || s.sec.revFw.getLsbD x.key || x.revokeFw.getLsbD x.key
      || !x.sigOk then some 1
  else if x.rollback < s.sec.floor then some 2
  else none

/-- A failed verification counts and is reported (R502, R512). -/
def State.imageFailed (cause : Nat) (x : FwImage) (s : State) : State :=
  let c := s.sec
  let s := { s with sec :=
    if cause = 1 then { c with sigFail := satAdd 0xFFFF c.sigFail 1 }
    else { c with rollback := satAdd 0xFFFF c.rollback 1 } }
  s.security cause x.key x.fwVer x.digest.toNat

/-- The domains the firmware ungates: every one, but the Picot I/O with the role strap off (R483). -/
def State.bootDomains (s : State) : BitVec 314 :=
  if s.picotRole = 0 then setDomains false [313] (BitVec.allOnes 314) else BitVec.allOnes 314

/-- The firmware starts from a verified image (R483, R501, R503). -/
def State.startFirmware (source : Nat) (x : FwImage) (s : State) : State :=
  let c := s.sec
  { s with
    mgmt := { s.mgmt with fwStarted := true }
    power := { s.power with
      bootFrom := source, bootUs := (s.now - s.mgmt.resetAt) / 1000, on := s.bootDomains }
    sec := { c with
      fwVer := x.fwVer, runRb := x.rollback, runRevFw := x.revokeFw, runRevBn := x.revokeBn
      bkeys := x.bkeys, runDigest := x.digest, upd := 0, updImage := none
      fusePend := decide (c.floor < min 64 x.rollback) || (x.revokeFw &&& ~~~c.revFw) != 0
        || (x.revokeBn &&& ~~~c.revBn) != 0 } }

/-- One half of the boot flash: started where it verifies, else the failure is recorded (R480, R482).
-/
def State.tryImage (source : Nat) (x : FlashImage) (s : State) : State :=
  let img := fwImageOf x.sigOk x.bytes
  match s.imageFails img with
  | none => s.startFirmware source img
  | some cause => ({ s with power := { s.power with bootErr := if cause = 1 then 3 else 4 } }).imageFailed cause img

/-- The boot from the QSPI flash (R480). -/
def State.bootFlash (f : FlashRead) (s : State) : State :=
  let s := { s with power := { s.power with qspi4b := f.addr4, qspiWidth := f.width } }
  if !f.sfdp then { s with power := { s.power with bootErr := 2 } }
  else
    let s := s.tryImage 1 f.primary
    if s.mgmt.fwStarted then s else s.tryImage 2 f.secondary

/-- FIRMWARE_LOAD_END: the boot image has been read and verified (R480 to R482). An image that
FW_UPDATE CLOSE has verified in state 0 starts; otherwise a QSPI boot source is read. -/
def execFirmwareLoadEnd (t : Nat) (flash : FlashRead) (s : State) : Out :=
  let s := s.advance t
  let src := bitsOf 3 2 s.power.straps.toNat
  .next (if s.up && s.mgmt.devState == 0 && s.mgmt.romMarchOk && !s.mgmt.fwStarted then
      match s.sec.updImage with
      | some x => s.startFirmware 3 x
      | none => if (src = 1 ∨ src = 2) ∧ s.power.bootErr = 0 then s.bootFlash flash else s
    else s)

/-- FIRMWARE_INIT_END: every memory holds zeros with valid check bits and state 1 begins (R478,
R483). -/
def execFirmwareInitEnd (t : Nat) (s : State) : Out :=
  let s := s.advance t
  .next (if s.up && s.mgmt.devState == 0 && s.mgmt.fwStarted then
      { s with
        mem := []
        ms := { s.ms with poison := [], errs := [] }
        mgmt := { s.mgmt with devState := 1 }
        power := { s.power with initUs := (s.now - s.mgmt.resetAt) / 1000 } }
    else s)

/-- PLL_LOCK: the core PLL has locked and the boot ROM has run the destructive March test of the firmware memory,
whose verdict the event carries and which leaves 0x55 in every byte (R221, R479). A fail enters state 5 with
BOOT_ERR 1. -/
def execPllLock (t : Nat) (marchOk : Bool) (s : State) : Out :=
  let s := s.advance t
  .next (if s.up && s.mgmt.devState == 0 && !s.mgmt.pllLocked then
      let s := { s with mgmt := { s.mgmt with pllLocked := true, romMarchOk := marchOk }, fwMem := [] }
      if marchOk then s
      else ({ s with power := { s.power with bootErr := 1 } }).enterFatal 4 0
    else s)

/-! ## FW_UPDATE -/

/-- Whether a function 2 transfer is open. -/
def State.xferOpen (s : State) : Bool := s.bulk.xfer.isSome

/-- RES_HELD by a function 2 transfer: kind 14, index its F2_KIND (R409, R424, R447). -/
def State.xferHeld (claim : Nat) (s : State) : Reject :=
  match s.bulk.xfer with
  | some x => resHeld x.opcode claim 14 x.kind noPillow noOwner
  | none => resHeld Op.fwUpdate claim 14 5 noPillow noOwner

/-- Whether the boot flash is being written (R505). -/
def State.flashBusy (s : State) : Bool := s.sec.upd == 3 || s.sec.upd == 4

/-- FW_UPDATE OPEN's own checks (R447, R504, R505). -/
def fwUpdateOpenCheck (s : State) : Option Reject :=
  let src := bitsOf 3 2 s.power.straps.toNat
  firstOf
    [require (s.mgmt.devState == 0 || src == 1 || src == 2) stateRefused,
     require (!s.xferOpen && !s.flashBusy) (s.xferHeld Op.fwUpdate)]

/-- FW_UPDATE OPEN opens a transfer of kind 5 (R392, R447). -/
def fwUpdateOpenDo (h : Hdr) (length : Nat) (s : State) : State :=
  ({ s with
      bulk := { s.bulk with
        image := none
        xfer := some { kind := 5, handle := 0, index := 0, opcode := Op.fwUpdate, hdr := h,
                       total := some length } }
      sec := { s.sec with upd := 1, updImage := none } }).done h Op.fwUpdate 0 []

/-- FW_UPDATE OPEN (R447). -/
def execFwUpdateOpen (h : Hdr) (length : Nat) (s : State) : Out :=
  hostCommand h Op.fwUpdate 0 false none fwUpdateOpenCheck (fwUpdateOpenDo h length) s

/-- Whether a whole boot image has arrived. -/
def State.imageArrived (s : State) : Bool := s.bulk.image.isSome

/-- The image that function 2 has delivered (R392, R447). -/
def State.updateImage (sigOk : Bool) (s : State) : FwImage :=
  fwImageOf sigOk (s.bulk.image.elim [] fun x => x.buf.take (x.total.getD 0))

/-- FW_UPDATE CLOSE verifies the image (R447, R502): a verified one is kept, and in service its writing
to the boot flash starts with the secondary half (R505). -/
def fwUpdateCloseDo (h : Hdr) (sigOk : Bool) (s : State) : State :=
  let image := s.updateImage sigOk
  let s := { s with bulk := { s.bulk with image := none } }
  match s.imageFails image with
  | some cause =>
    (({ s with sec := { s.sec with upd := 0, updImage := none } }).imageFailed cause image).refuse h
      Op.fwUpdate 0 { status := if cause = 1 then Status.sigBad else Status.rollback }
  | none =>
    ({ s with sec := { s.sec with
        upd := if s.mgmt.devState = 0 then 2 else 3, updImage := some image } }).done h Op.fwUpdate 0 []

/-- FW_UPDATE CLOSE (R447, R502); with no arrived image it is refused (R531). -/
def execFwUpdateClose (h : Hdr) (sigOk : Bool) (s : State) : Out :=
  hostCommand h Op.fwUpdate 0 false none (fun s => require s.imageArrived stateRefused)
    (fwUpdateCloseDo h sigOk) s

/-- Whether a boot-image transfer is open, an image has arrived, or a verified one is held. -/
def State.hasUpdate (s : State) : Bool :=
  (s.bulk.xfer.elim false fun x => x.kind == 5) || s.imageArrived || s.sec.upd == 2

/-- FW_UPDATE DISCARD ends the transfer or drops a verified image (R447, R505, R531). -/
def execFwUpdateDiscard (h : Hdr) (s : State) : Out :=
  hostCommand h Op.fwUpdate 0 false none
    (fun s => firstOf [require (!s.flashBusy) (resHeld Op.fwUpdate Op.fwUpdate 14 5 noPillow noOwner),
                       require s.hasUpdate stateRefused])
    (fun s =>
      let b := s.bulk
      ({ s with
          bulk := { b with
            xfer := if (b.xfer.elim false fun x => x.kind == 5) then none else b.xfer
            image := none }
          sec := { s.sec with upd := 0, updImage := none } }).done h Op.fwUpdate 0 []) s

/-- FLASH_WRITE_STAGE_END: one half has been written and read back; `ok` says that it compared equal
(R505). -/
def execFlashWriteStageEnd (t : Nat) (ok : Bool) (s : State) : Out :=
  let s := s.advance t
  .next (if s.up && s.flashBusy then
      if ok then { s with sec := { s.sec with upd := s.sec.upd + 1 } }
      else
        let x := s.sec.updImage
        ({ s with sec := { s.sec with upd := 6 } }).security 7 (x.elim 0 FwImage.key)
          (x.elim 0 FwImage.fwVer) (x.elim 0 fun i => i.digest.toNat)
    else s)

/-! ## Fuses -/

/-- One report for each fuse burned, cause 5 with its number as KEY (R503, R512; assumption 19). -/
def State.burns : List Nat → State → State
  | [], s => s
  | k :: r, s => (s.security 5 k s.sec.fwVer 0).burns r

/-- The fuse changes of the running image, made when it first reaches state 2: the rollback floor, then
the revocation fuses (R503). The floor has 64 fuses (R498, assumption 19). -/
def State.burnAtService (s : State) : State :=
  if s.sec.fusePend then
    let c := s.sec
    let rb := min 64 c.runRb
    let floorBurns := (List.range (rb - c.floor)).map (c.floor + ·)
    let fw := indices 4 fun k => c.runRevFw.getLsbD k && !c.revFw.getLsbD k
    let bn := indices 8 fun k => c.runRevBn.getLsbD k && !c.revBn.getLsbD k
    ({ s with sec := { c with
        floor := max c.floor rb, revFw := c.revFw ||| c.runRevFw, revBn := c.revBn ||| c.runRevBn
        fusePend := false } }).burns (floorBurns ++ fw ++ bn)
  else s

/-- SEC_ARM written with a value: only the key arms the next REG_WRITE (R511). -/
def State.arm (key : BitVec 32) (s : State) : State :=
  { s with sec := { s.sec with armed := key == 0x4C4F_434B } }

/-- Whether a SEC_OP write is refused with LOCKED (R511). -/
def State.opLocked (op : Nat) (s : State) : Bool :=
  !s.sec.armed || (op == 1 && s.sec.lock != 1) || s.mgmt.devState == 0 || s.mgmt.devState == 5

/-- OP 1: FIELD to SEALED (R511). -/
def State.sealOff (s : State) : State :=
  ({ s with sec := { s.sec with lock := 2 } }).security 6 0 s.sec.fwVer 0

/-- OP 2: burns the bundle revocation fuses named (R511). -/
def State.revoke (mask : BitVec 8) (s : State) : State :=
  let fresh := indices 8 fun k => mask.getLsbD k && !s.sec.revBn.getLsbD k
  ({ s with sec := { s.sec with revBn := s.sec.revBn ||| mask } }).burns fresh

/-- SEC_OP written with OP and MASK: OP 0 and 3 name no operation (R511). -/
def State.secOp (op : Nat) (mask : BitVec 8) (s : State) : State :=
  if op = 1 then s.sealOff else if op = 2 then s.revoke mask else s

/-- SEC_ARM: a REG_WRITE of the key register (R511). -/
def execSecArm (h : Hdr) (key : BitVec 32) (s : State) : Out :=
  hostCommand h Op.regWrite 0 true none (fun _ => none)
    (fun s => (s.arm key).done h Op.regWrite 0 []) s

/-- SEC_OP_SEAL: a REG_WRITE of SEC_OP with OP 1 (R511). -/
def execSecOpSeal (h : Hdr) (s : State) : Out :=
  hostCommand h Op.regWrite 0 true none
    (fun s => require (!s.opLocked 1) { status := Status.locked })
    (fun s => s.disarm.sealOff.done h Op.regWrite 0 []) s

/-- SEC_OP_REVOKE: a REG_WRITE of SEC_OP with OP 2 and MASK (R511). -/
def execSecOpRevoke (h : Hdr) (mask : BitVec 8) (s : State) : Out :=
  hostCommand h Op.regWrite 0 true none
    (fun s => require (!s.opLocked 2) { status := Status.locked })
    (fun s => (s.disarm.revoke mask).done h Op.regWrite 0 []) s

/-! ## Attestation -/

/-- Whether debug access is open: by a token, or in MANUFACTURE (R509, R510). -/
def State.debugOpen (s : State) : Bool := s.sec.debug || s.sec.lock == 0

/-- DEV_INFO's FLAGS (R422). -/
def State.infoFlags (s : State) : Nat :=
  flag 0 s.trim.calDone + flag 1 s.trim.restored + flag 2 s.ptp.lock

/-- Slot s in the quote (R506). -/
def State.quoteSlot (s : State) (k : Nat) : Bytes :=
  let sl := s.slot k
  leBytes 1 sl.state ++ leBytes 1 sl.handle ++ leBytes 2 sl.model ++ zeros 4
    ++ leBytes 8 (if sl.state = 0 then 0 else (s.bundle sl.handle).id.toNat)

/-- PTP time for a quote: ns since the PTP epoch, 0 without lock (R506). -/
def State.quotePtp (s : State) : Nat := if s.ptp.lock then ofSigned 64 (s.ptpAt s.now) else 0

/-- Bytes 0x000 to 0x4FF of the quote (R506). -/
def State.quoteBody (nonce : Bytes) (s : State) : Bytes :=
  let c := s.sec
  leBytes 4 0x5154_415A ++ leBytes 2 1
    ++ leBytes 1 (c.lock % 4 + flag 2 s.debugOpen + flag 3 c.scanPins) ++ leBytes 1 s.power.straps.toNat
    ++ leBytes 8 c.device.toNat ++ leBytes 2 0x4816 ++ leBytes 1 c.grade ++ leBytes 1 c.step
    ++ leBytes 4 c.romVer.toNat ++ leBytes 4 c.fwVer.toNat ++ leBytes 1 c.floor ++ leBytes 1 c.runRb
    ++ leBytes 1 c.revFw.toNat ++ leBytes 1 c.revBn.toNat ++ leBytes 32 c.runDigest.toNat
    ++ sliceBytes 0 32 nonce ++ leBytes 8 s.now ++ leBytes 8 s.quotePtp
    ++ leBytes 6 (ofSigned 48 s.tb.wp) ++ zeros 2 ++ leBytes 1 s.mgmt.devState ++ leBytes 1 s.infoFlags
    ++ zeros 6 ++ leBytes 4 s.trim.epoch ++ zeros 124
    ++ (List.range 64).flatMap s.quoteSlot

/-- ATTEST FORM: the quote over NONCE, signed; the reply gives its length (R448, R506). -/
def attestFormDo (h : Hdr) (nonce : Bytes) (s : State) : State :=
  let body := s.quoteBody nonce
  let q := body ++ sliceBytes 0 17088 (Config.quoteSignature s.sec.quotes body)
  ({ s with sec := { s.sec with quote := q, quotes := s.sec.quotes + 1 } }).done h Op.attest 0
    (leBytes 4 18368)

/-- ATTEST FORM (R448). -/
def execAttestForm (h : Hdr) (nonce : Bytes) (s : State) : Out :=
  hostCommand h Op.attest 0 false none (fun _ => none) (attestFormDo h nonce) s

/-- Byte n of the identity record (R499): the fields the spec gives, the rest free. -/
def State.identityByte (s : State) (n : Nat) : Byte :=
  let head := leBytes 4 0x4449_425A ++ leBytes 2 1 ++ zeros 2 ++ leBytes 8 s.sec.device.toNat
    ++ leBytes 2 0x4816 ++ leBytes 1 s.sec.grade ++ leBytes 1 s.sec.step
  if n < 0x14 then head.getD n 0
  else if inRange 0x18 n 0x1F then 0
  else Config.identityByte n

/-- The bytes an ATTEST READ returns: at most 480 from OFFSET, none beyond the end; from 0x0001_0000 on
the identity record (R448, R507). -/
def State.attestBytes (ofs : Nat) (s : State) : Bytes :=
  if ofs < 0x1_0000 then (s.sec.quote.drop ofs).take 480
  else (List.range (min 480 (29856 - (ofs - 0x1_0000)))).map fun i => s.identityByte (ofs - 0x1_0000 + i)

/-- ATTEST READ (R448, R507): of the quote only once one has been formed. -/
def execAttestRead (h : Hdr) (offset : Nat) (s : State) : Out :=
  hostCommand h Op.attest 0 false none
    (fun s => require (decide (0x1_0000 ≤ offset) || !s.sec.quote.isEmpty) stateRefused)
    (fun s => s.done h Op.attest 0 (s.attestBytes offset)) s

/-! ## The test access port -/

/-- DEBUG_TOKEN: a token shifted in through the TAP (R509, R510). In FIELD it opens debug where it names
this device and the challenge last placed and its signature verifies; each challenge serves one attempt.
A refused or failing token raises the class. -/
def execDebugToken (t : Nat) (device : BitVec 64) (challenge : BitVec 256) (key : Nat) (sigOk : Bool)
    (s : State) : Out :=
  let s := s.advance t
  if !s.up || s.sec.lock == 0 then .next s
  else
    let good := s.sec.lock == 1 && device == s.sec.device && challenge == Config.challenge s.sec.challenge
      && decide (key < 4) && sigOk
    let digest := (digestOf (leBytes 8 device.toNat ++ leBytes 32 challenge.toNat)).toNat
    let s := { s with sec := { s.sec with challenge := s.sec.challenge + 1 } }
    .next (if good then ({ s with sec := { s.sec with debug := true } }).security 3 key 0 digest
      else s.security 4 key 0 digest)

/-- Whether an instruction takes the pins (R509). -/
def tapTakesPins : TapIns → Bool
  | .extest => true
  | .clamp => true
  | .highz => true
  | .idcode => false
  | .bypass => false
  | .sample => false

/-- Whether the lock state lets an instruction act (R509). -/
def State.tapActs (i : TapIns) (s : State) : Bool :=
  match i with
  | .idcode => true
  | .bypass => true
  | .sample => s.sec.lock != 2
  | .extest => s.sec.lock == 0 || (s.sec.lock == 1 && decide (s.mgmt.devState ≤ 1))
  | .clamp => s.sec.lock == 0 || (s.sec.lock == 1 && decide (s.mgmt.devState ≤ 1))
  | .highz => s.sec.lock == 0 || (s.sec.lock == 1 && decide (s.mgmt.devState ≤ 1))

/-- TAP_INSTRUCTION (R509): one that does not act is loaded as BYPASS; a pin-taking one then sets
SCAN_REFUSED, and one that acts keeps the pins until the next device reset. -/
def execTapInstruction (t : Nat) (ins : TapIns) (s : State) : Out :=
  let s := s.advance t
  .next (if s.tapActs ins then
      { s with sec := { s.sec with tapIns := ins, scanPins := s.sec.scanPins || tapTakesPins ins } }
    else
      { s with sec := { s.sec with
          tapIns := .bypass, scanRefused := s.sec.scanRefused || tapTakesPins ins } })

/-- TAP_RESET: the port alone is reset, IDCODE is loaded (IEEE 1149.1), and a pin-taking instruction
stays in effect (R475, R509). -/
def execTapReset (t : Nat) (s : State) : Out :=
  let s := s.advance t
  .next { s with sec := { s.sec with tapIns := .idcode } }

/-- The IDCODE the port shifts out (R508). -/
def State.idcode (s : State) : BitVec 32 :=
  BitVec.ofNat 32 (fld 28 4 s.sec.step + fld 12 16 0x4816 + fld 1 11 0x2A5 + 1)

/-! ## DEV_INFO -/

/-- DEV_INFO's payload (R422). -/
def State.devInfoBytes (s : State) : Bytes :=
  let c := s.sec
  leBytes 8 c.device.toNat ++ leBytes 2 0x4816 ++ leBytes 1 c.grade ++ leBytes 1 c.step
    ++ leBytes 4 c.fwVer.toNat ++ leBytes 4 c.romVer.toNat ++ leBytes 1 s.power.straps.toNat
    ++ leBytes 1 s.mgmt.devState ++ leBytes 2 s.infoFlags
    ++ leBytes 8 (((List.range nPillows).map fun p => flag p (s.inService p)).sum)

/-- DEV_INFO (R422). -/
def execDevInfo (h : Hdr) (s : State) : Out :=
  hostCommand h Op.devInfo 0 false none (fun _ => none)
    (fun s => s.done h Op.devInfo 0 s.devInfoBytes) s

end Sys2Proof.Machine
end

