-- ==== Sys2Proof/Machine/Refresh.lean ====
section
/-! DEFINITION. Staged bundles' bytes, digests and staleness (R309, R322, R323), bobbin programming (R78 to
R83, R355), refresh and swaps (R84, R333 to R336), and what a pillow adopts and releases with a sheet
(R53, R54, R109, R356). -/

namespace Sys2Proof.Machine

/-! ## Bytes of a staged bundle (R307, R309) -/

/-- n body bytes from a. -/
def State.body (b : Bundle) (a n : Nat) (s : State) : Bytes :=
  (List.range n).map fun i => s.byteAt (b.addr (a + i))

/-- The 32 B that precede a shard's bytes in its digest (R309). -/
def Bundle.shardHead (b : Bundle) (i : Nat) : Bytes :=
  leBytes 8 b.id.toNat ++ leBytes 4 i ++ leBytes 4 (b.shardLen i) ++ zeros 16

/-- The digest of shard i as it stands (R309). -/
def State.shardDigest (b : Bundle) (i : Nat) (s : State) : BitVec 256 :=
  digestOf (b.shardHead i ++ s.body b (shardBytes * i) (b.shardLen i))

/-- Whether shard i holds a poisoned unit. -/
def State.shardPoisoned (b : Bundle) (i : Nat) (s : State) : Bool :=
  (s.poisonIn (b.addr (shardBytes * i)) (b.shardLen i)).isSome

/-- The fault of shard i found by a digest of it: 3 poisoned, 1 mismatch, none when sound (R322). -/
def State.shardFault (b : Bundle) (i : Nat) (s : State) : Option Nat :=
  if s.shardPoisoned b i then some 3
  else if s.shardDigest b i = b.digests.getD i 0 then none else some 1

/-- The report of the weight-integrity class. -/
def weightReport (handle shard cause : Nat) : ErrReport :=
  { cls := 14, body := leBytes 1 handle ++ leBytes 4 shard ++ leBytes 1 cause }

/-- A shard found stale marks its bundle STALE (R322). -/
def State.markStale (handle i cause : Nat) (s : State) : State :=
  let b := s.bundle handle
  if b.stale.contains i then s
  else
    let s := s.setBundle handle
      { b with
        state := 3, checking := false, stale := i :: b.stale, verified := b.verified.filter (· != i)
        attempts := tdel i b.attempts }
    ({ s with wt := { s.wt with staleCnt := satAdd 0xFFFF_FFFF s.wt.staleCnt 1 } }).report
      (weightReport handle i cause)

/-- The reads of a shard meet the errors that have arisen in it (R208, R219). -/
def State.meetShard (handle i : Nat) (s : State) : State :=
  let b := s.bundle handle
  s.meetErrs (b.addr (shardBytes * i)) (b.shardLen i)

/-- Digests a list of shards; every one found faulty marks the bundle STALE. -/
def State.digestShards (handle : Nat) : List Nat → State → State
  | [], s => s
  | i :: r, s =>
    let s := s.meetShard handle i
    (match s.shardFault (s.bundle handle) i with
      | some c => s.markStale handle i c
      | none => s).digestShards handle r

/-- The bytes of a bobbin image: levels and column sums (R311). -/
def imageBytes : Nat := 536_576

/-- The shards that hold bytes [a, a + n) of the body. -/
def shardsOf (a n : Nat) : List Nat :=
  (List.range (ceilDiv (a + n) shardBytes - a / shardBytes)).map (a / shardBytes + ·)

/-- The shards that hold a target's image. -/
def Target.shards (t : Target) : List Nat := shardsOf t.ofs imageBytes

/-! ## Images and cells (R311) -/

/-- The level of cell c of row r in an image at body offset o. -/
def State.imageLevel (b : Bundle) (o r c : Nat) (s : State) : Nat :=
  let v := (s.byteAt (b.addr (o + r * 520 + c / 2))).toNat
  if c % 2 = 0 then v % 16 else v / 16

/-- The cells an image programs, level 0 not listed. -/
def State.imageCells (b : Bundle) (o : Nat) (s : State) : Tbl Nat :=
  ((List.range 1024).flatMap fun r =>
    (List.range 1040).map fun c => (1040 * r + c, s.imageLevel b o r c)).filter fun x => x.2 != 0

/-- The cells not accepted in a run that reached `rows` rows: `vfail` of those with a target above 0, which the spec
does not name (R80, assumption 12). -/
def missedCells (target : Tbl Nat) (rows vfail seed : Nat) : List Nat :=
  let open_ := (target.filter fun x => decide (x.1 < 1040 * rows)).map Prod.fst
  (((Config.missedCells seed).filter open_.contains ++ open_).eraseDups).take vfail

/-- The cells after a run over the first `rows` rows (R78, R80): accepted cells at their target, those not accepted
at the level they reached, which is free, and the rows beyond as they were; with `torn` the next row was being
written, and its cells are free (R471). -/
def runCells (target old : Tbl Nat) (rows vfail seed : Nat) (torn : Bool) : Tbl Nat :=
  let miss := missedCells target rows vfail seed
  let free (i : Nat) : Nat := Config.cutCell (seed * 2 ^ 21 + i) % 16
  ((List.range (1024 * 1040)).map fun i =>
    (i, if i < 1040 * rows then (if miss.contains i then free i else tget (fun _ => 0) target i)
        else if torn && decide (i < 1040 * (rows + 1)) then free i
        else tget (fun _ => 0) old i)).filter fun x => x.2 != 0

/-! ## What a sheet still needs of a pillow -/

/-- Whether a template that can run on pillow p has still rows to release of sheets before n: with an offset a
stream releases a sheet's last rows after the boundary (R26). -/
def State.toCome (p n : Nat) (s : State) : Bool :=
  s.admitted.any fun (_, t) =>
    !t.withdrawn && (t.p.mapA.contains p || t.p.mapB.contains p)
      && decide ((s.sheetAt (s.stream t.p.stream).sheetOfs (t.nextRow : Int)).1 < n)

/-- Whether passes of sheets before n are outstanding on pillow p: of an unfinished job with work left there, or of
rows still to be released (R53, R54, R84). -/
def State.earlier (p n : Nat) (s : State) : Bool :=
  (s.liveJobs.any fun (_, j) =>
      decide (j.sheet < n) && j.stages.any fun x => x.2.pillow == p && x.2.phase != .done)
    || (s.tb.sheetSrc != 0 && s.toCome p n)

/-- Whether a stage of the pillow is in progress: running, standing by, or saved. -/
def State.busyPillow (p : Nat) (s : State) : Bool :=
  let x := s.pillow p
  x.run.isSome || x.standby.isSome || x.saving.isSome || x.restoring.isSome || !x.saves.isEmpty

/-! ## Scale sets (R109) -/

/-- The key under which a job's tokens look up scale sets on pillow p: its sheet's latest binding, or with
SHEET_SRC = NONE the sets in force when its first stage there started. -/
def State.setKey (p : Nat) (j : Job) (s : State) : Nat :=
  if s.tb.sheetSrc ≠ 0 then 2 ^ 32 * (j.sheet + 1) - 1
  else tget (fun _ => 2 ^ 32 * (s.sheets.sheet + 1) - 1) j.qkeys p

/-- The scale set a key selects: the newest that is not later. -/
def QEntry.setAt (e : QEntry) (key : Nat) : Option ScaleSet :=
  ((e.live.find? fun x => decide (x.1 ≤ key)).orElse fun _ => e.live.getLast?).map Prod.snd

/-- The owner of placed table entries: the template of a pinned job, 65,536 + context of a loose one. -/
def Job.owner (c : Nat) (j : Job) : Nat := if j.pinned then j.template else 0x1_0000 + c

/-- Whether the older of an entry's two sets still serves an instance: one of the owner's that has not committed, or a
row of an older sheet still to be released (R109). -/
def State.oldSetUsed (p : Nat) (e : QEntry) (s : State) : Bool :=
  match e.live with
  | (k, _) :: _ :: _ =>
    (s.liveJobs.any fun (c, j) =>
      j.owner c == e.owner && decide (s.setKey p j < k) && j.stages.any fun x => x.2.pillow == p)
      || (s.tb.sheetSrc != 0 && s.admitted.any fun (n, t) =>
        n == e.owner && !t.withdrawn
          && decide ((s.sheetAt (s.stream t.p.stream).sheetOfs (t.nextRow : Int)).1 < k / 2 ^ 32))
  | _ => false

/-- A pending entry binds where its descriptor has room for it; the others stay pending. One whose descriptor is no
longer placed is dropped (DESIGN CHOICE, assumption 128). -/
def State.bindSets (p key : Nat) : List (Nat × Option ScaleSet) → Pillow → State → Pillow
  | [], x, _ => x
  | (d, v) :: r, x, s =>
    match tget (fun _ => none) x.qdesc d, v with
    | some e, some v =>
      let x := if s.oldSetUsed p e then x
        else { x with
          qdesc := tset (fun _ => none) d (some { e with live := (key, v) :: e.live.take 1 }) x.qdesc
          qc := { x.qc with pend := tset (fun _ => none) d none x.qc.pend } }
      s.bindSets p key r x
    | _, _ =>
      s.bindSets p key r { x with qc := { x.qc with pend := tset (fun _ => none) d none x.qc.pend } }

/-- The pending set of pillow p binds (R109); `sheet` names the sheet a boundary begins, which SHEET takes where an
entry binds (R111). -/
def State.bindPending (p : Nat) (sheet : Option Nat) (s : State) : State :=
  let x := s.pillow p
  if x.qc.pend.isEmpty then s
  else
    let key := 2 ^ 32 * s.sheets.sheet + x.qc.gen + 1
    let y := s.bindSets p key x.qc.pend x
    if y.qdesc = x.qdesc then s.setPillow p y
    else s.setPillow p { y with qc := { y.qc with
      gen := y.qc.gen + 1, sheet := sheet.elim y.qc.sheet (· % 65536) } }

/-! ## Swaps and releases (R54, R84, R336) -/

/-- The SPARE_READY bobbin takes over its logical bobbin; the replaced one becomes RETIRING, or
SPARE_EMPTY at once where no earlier pass can need it. -/
def State.swapIn (p : Nat) (retire : Bool) (s : State) : State :=
  let x := s.pillow p
  match x.spare with
  | none => s
  | some b =>
    let nb := s.bobbin p b
    if nb.state ≠ 3 then s
    else
      let l := nb.logical
      let o := x.physOf l
      let ob := s.bobbin p o
      let s := s.setPillow p
        { x with map := tset (fun l => l) l b x.map, spare := some o,
                 alt := if retire then some (o, l) else none }
      let s := s.setBobbin p b { nb with state := 0, mapped := true, slot := ob.slot }
      s.setBobbin p o { ob with state := if retire then 4 else 1, mapped := retire }

/-- A RETIRING bobbin with no earlier pass left becomes the spare (R84). -/
def State.retireEnd (p : Nat) (s : State) : State :=
  let x := s.pillow p
  match x.alt with
  | none => s
  | some (o, _) =>
    if s.earlier p x.swapSheet then s
    else (s.setPillow p { x with alt := none, spare := some o }).modBobbin p o fun b =>
      { b with state := 1, mapped := false }

/-- The bobbins of a pillow release the trims of sheets that no unfinished job needs (R54). -/
def State.releaseTrims (p : Nat) (s : State) : State :=
  (List.range 17).foldl (fun s b =>
    let x := s.bobbin p b
    match x.live with
    | (m, _) :: _ :: _ => if s.earlier p m then s else s.setBobbin p b (x.release s.sheets.sheet)
    | _ => s) s

/-- The newest sealed epoch that may be in force. -/
def Trim.newest (x : Trim) : Nat := (x.binds.head?.map Prod.fst).getD 0

/-- With SHEET_SRC = NONE an idle pillow adopts what waits: pending scale sets, the newest epoch, a
refreshed spare (R109, R336, R356). -/
def State.idleAdopt (p : Nat) (s : State) : State :=
  if s.tb.sheetSrc ≠ 0 ∨ s.busyPillow p then s
  else
    let s := (s.bindPending p none).swapIn p false
    let e := s.trim.newest
    (List.range 17).foldl (fun s b =>
      let x := s.bobbin p b
      if x.live = [(s.sheets.sheet, e)] ∨ e = 0 then s
      else s.setBobbin p b { x with live := [(s.sheets.sheet, e)], blocked := false }) s

/-- What the end of work on a pillow frees. -/
def State.settle (p : Nat) (s : State) : State := ((s.retireEnd p).releaseTrims p).idleAdopt p

/-! ## The spare (R83) -/

/-- The failed-spare class (R83, R486): PHYS is the failed spare, 0x1F for the other causes. -/
def spareReport (p phys cause : Nat) : ErrReport :=
  { cls := 5, pillow := p, body := leBytes 1 (if cause = 1 then phys else 0x1F) ++ leBytes 1 cause }

/-- A pillow loses its spare: PB_SPARE shows none, and the class is raised once. -/
def State.loseSpare (p phys cause : Nat) (s : State) : State :=
  let x := s.pillow p
  let x := { x with spareFailed := x.spareFailed || (s.bobbin p phys).state == 5 }
  if x.spareLost ≠ 0 then s.setPillow p { x with spare := none }
  else (s.setPillow p { x with spare := none, spareLost := cause }).report (spareReport p phys cause)

/-- A physical bobbin outside FAILED and outside the map becomes the spare where the pillow has none
(R83). -/
def State.regainSpare (p : Nat) (s : State) : State :=
  let x := s.pillow p
  if x.spare.isSome then s
  else
    match lowest 17 fun b => !(s.bobbin p b).mapped && (s.bobbin p b).state != 5 && (s.bobbin p b).state != 2 with
    | none => s
    | some b =>
      (s.setPillow p { x with spare := some b, spareLost := 0, spareFailed := false }).modBobbin p b
        fun y => { y with state := 1 }

/-! ## Refresh requests (R333, R335) -/

/-- A pillow keeps one request per logical bobbin; an earlier source takes a later one's place. -/
def State.requestRefresh (p : Nat) (q : RefreshReq) (s : State) : State :=
  s.modPillow p fun x =>
    match x.refresh.find? fun r => r.logical == q.logical with
    | none => { x with refresh := x.refresh ++ [q] }
    | some r =>
      if r.source ≤ q.source then x
      else { x with refresh := (x.refresh.filter fun r => r.logical != q.logical) ++ [q] }

/-- Whether a request's bobbin may be refreshed: ACTIVE in an ACTIVE slot, or FAILED there for a
replacement. -/
def State.refreshable (p : Nat) (q : RefreshReq) (s : State) : Bool :=
  let b := s.bobbin p ((s.pillow p).physOf q.logical)
  decide (b.state = if q.source = 1 then 5 else 0) && (s.slot b.slot).state == 3

/-- The target that places a logical bobbin of physical pillow p in a slot. -/
def Slot.targetOf (sl : Slot) (p l : Nat) : Option Target :=
  sl.targets.find? fun t => sl.physPillow t.ppil == p && t.logical == l

/-- The request a pillow serves next: the lowest source, of those the oldest (R333). -/
def firstRequest : List RefreshReq → Option RefreshReq
  | [] => none
  | q :: r =>
    match firstRequest r with
    | none => some q
    | some b => if b.source < q.source ∨ (b.source = q.source ∧ b.age < q.age) then some b else some q

/-- Drops the requests whose bobbin has left the condition. -/
def State.dropRequests (p : Nat) (s : State) : State :=
  s.modPillow p fun x => { x with refresh := x.refresh.filter fun q => s.refreshable p q }

/-- A refresh is refused with CAL_FAIL while CAL_DONE is 0 and while PWRGD is low: its request goes, with no reply
but where a WR_REQ asks (R79, R345). -/
def State.refreshRefused (s : State) : Bool := !(s.trim.calDone && s.power.pwrgd)

/-- A refresh starts (R334, step 1): its shards are digested first, and a faulty one writes no cell
(R323). At throttle step 1 or above only a replacement starts (R526). -/
def State.refreshBegin (p : Nat) (s : State) : State :=
  let s := s.dropRequests p
  let x := s.pillow p
  match firstRequest (x.refresh.filter fun q => q.source == 1 || s.therm.step == 0), x.spare with
  | some q, some sp =>
    if s.refreshRefused then s.modPillow p fun x => { x with refresh := x.refresh.erase q }
    else
    let b := s.bobbin p (x.physOf q.logical)
    let sl := s.slot b.slot
    match sl.targetOf p q.logical with
    | none => s
    | some t =>
      if (s.bundle sl.handle).state ≠ 2 then s
      else
        let s := s.modPillow p fun x => { x with refresh := x.refresh.erase q }
        let s := s.digestShards sl.handle t.shards
        if (s.bundle sl.handle).state ≠ 2 then s
        else
          let r : ProgReq :=
            { bobbin := sp, logical := q.logical, forSlot := none, target := t, handle := sl.handle
              started := false }
          s.modPillow p fun x => { x with refreshing := some q, progs := x.progs ++ [r] }
  | _, _ => s

/-- REFRESH_START: arises on a pillow with an empty spare, no refresh in progress and a request (R334). -/
def execRefreshStart (t pillow : Nat) (s : State) : Out :=
  let s := s.advance t
  let x := s.pillow pillow
  let idle := match x.spare with
    | some b => (s.bobbin pillow b).state == 1
    | none => false
  .next
    (if s.alive && s.inService pillow && s.trim.cal.isNone && idle
        && x.refreshing.isNone then
      s.refreshBegin pillow
    else s)

/-- AGE_REFRESH_REQUEST (R333): arises when an ACTIVE bobbin's last programming is older than AGE_H
hours. -/
def execAgeRefreshRequest (t pillow logical : Nat) (s : State) : Out :=
  let s := s.advance t
  let b := s.bobbin pillow ((s.pillow pillow).physOf logical)
  let q : RefreshReq := { source := 4, logical := logical, age := b.progTime }
  .next
    (if s.alive && decide (logical < 16) && s.wt.ageH != 0
        && decide (b.progTime + s.wt.ageH * 3_600_000_000_000 < s.now) && s.refreshable pillow q then
      s.requestRefresh pillow q
    else s)

/-! ## Programming (R78 to R82) -/

/-- A slot programming that failed or met a poisoned unit leaves the slot FAILED when its other bobbins
are done (R325, R431). -/
def State.slotFailed (n p b : Nat) (s : State) : State :=
  s.modSlot n fun x => { x with failedAt := x.failedAt.orElse fun _ => some (p, b) }

/-- The programming of a pillow that is next in request order, where one of the four places is free and no run of its
bobbin is still coming to the end of its row (R81). -/
def Pillow.nextProg (x : Pillow) : Option ProgReq :=
  if 4 ≤ x.progs.countP (·.started) then none
  else (x.progs.find? fun q => !q.started).filter fun q => !(x.progs.any fun r => r.started && r.bobbin == q.bobbin)

/-- A programming request that is refused when its turn comes, since VDD_XBAR is out of range or its bundle is not
VERIFIED any more (R79, R320; assumption 109): its slot will be FAILED, its refresh is dropped. -/
def State.progRefused (p : Nat) (q : ProgReq) (s : State) : State :=
  let s := s.modPillow p fun x =>
    { x with progs := x.progs.erase q, refreshing := if q.forSlot.isNone then none else x.refreshing }
  match q.forSlot with
  | some n => (s.modSlot n fun y => { y with left := y.left.erase (p, q.logical) }).slotFailed n p q.bobbin
  | none => s

/-- BOBBIN_PROGRAMMING_START: the oldest waiting programming of the pillow starts while fewer than four
run; it is refused where VDD_XBAR is out of range or its bundle is not VERIFIED (R79, R81, R320, R322). -/
def execBobbinProgrammingStart (t pillow : Nat) (s : State) : Out :=
  let s := s.advance t
  .next
    (match (s.pillow pillow).nextProg with
      | some q =>
        if !s.alive then s
        else if s.power.pwrgd && (s.bundle q.handle).state == 2 then
          (s.modPillow pillow fun x =>
            { x with progs := x.progs.map fun r => if r = q then { r with started := true } else r }).modBobbin
              pillow q.bobbin fun b =>
                { b with state := 2, logical := q.logical, progFail := false, image := some q.target }
        else s.progRefused pillow q
      | none => s)

/-- The bobbin after a run whose every cell was accepted (R78, R355). -/
def State.programmed (q : ProgReq) (iters : Nat) (b : Bobbin) (s : State) : Bobbin :=
  { b with
    cells := s.imageCells (s.bundle q.handle) q.target.ofs
    w4 := q.target.fmt == 1
    vfail := 0, iterMax := iters, progFail := false, calFailed := false, dead := false
    pendK := some 16384, sets := b.sets.map fun x => { x with k := 16384 }
    base := [], scans := [], scanP := [], scanN := [], drift := 0, k0 := 16384
    bad := [], strikes := []
    progCount := b.progCount + 1, programmed := true, progTime := s.now }

/-- The programming count above its rating is reported (R355). -/
def State.reportLife (p b : Nat) (s : State) : State :=
  let n := (s.bobbin p b).progCount
  if 10_000 < n then
    s.report { cls := 15, pillow := p
               body := leBytes 1 0xFF ++ leBytes 2 (17 * p + b) ++ leBytes 2 0 ++ leBytes 4 n }
  else s

/-- How a run without success ended: the rows it completed, the cells not accepted, the most iterations, whether a
row was left torn, and whether the bobbin is FAILED for it (R80, R323, R471). -/
structure RunEnd where
  rows : Nat
  vfail : Nat
  iters : Nat
  torn : Bool
  fail : Bool
  deriving DecidableEq, Repr

/-- The bobbin after a run without success: its cells as the rows it completed left them; FAILED where the run
failed (R80), else IDLE or the spare again. -/
def Bobbin.progFailed (target : Tbl Nat) (e : RunEnd) (seed rest : Nat) (b : Bobbin) : Bobbin :=
  { b with
    cells := runCells target b.cells e.rows e.vfail seed e.torn
    vfail := e.vfail, iterMax := e.iters, image := none
    state := if e.fail then 5 else rest
    progFail := e.fail
    dead := b.dead || e.fail }

/-- The lowest admitted template with a map that names pillow p whose pricking names a slot, any slot for 0xFF. -/
def State.templateUsing (p slot : Nat) (s : State) : Option Nat :=
  (s.admitted.find? fun (_, t) => (t.p.mapA.contains p || t.p.mapB.contains p)
    && (slot == 0xFF || ((s.prick t.p.prk).getD emptyPrick).slots.contains slot)).map Prod.fst

/-- The restored guarantee after a replacement under single placement (R494): the test of R43 holds, since
the template's own demand was admitted (assumption 30). -/
def State.restoreGuarantee (p slot : Nat) (s : State) : State :=
  if ((s.slot slot).twins p).isEmpty then
    match s.templateUsing p slot with
    | some n => s.guarantee 2 n slot 0 p
    | none => s
  else s

/-- The end of a refresh's programming (R334, R335). -/
def State.refreshDone (p : Nat) (q : RefreshReq) (b : Nat) (s : State) : State :=
  let x := s.pillow p
  let done := min 0xFFFF (x.wrDone + 1)
  if q.source = 1 then
    let o := x.physOf q.logical
    let slot := (s.bobbin p o).slot
    let s := s.setPillow p
      { x with map := tset (fun l => l) q.logical b x.map, refreshing := none, wrDone := done }
    let s := s.modBobbin p b fun y => { y with state := 0, mapped := true, slot := slot, logical := q.logical }
    let s := s.modBobbin p o fun y => { y with mapped := false }
    ((s.loseSpare p b 2).regainSpare p).restoreGuarantee p slot
  else
    let s := s.setPillow p
      { x with refreshing := none, wrDone := done, swapSheet := s.sheets.sheet + 1 }
    (s.modBobbin p b fun y => { y with state := 3 }).idleAdopt p

/-- A programming that succeeded. -/
def State.progGood (p : Nat) (q : ProgReq) (iters : Nat) (s : State) : State :=
  let s := (s.setBobbin p q.bobbin (s.programmed q iters (s.bobbin p q.bobbin))).reportLife p q.bobbin
  match q.forSlot with
  | some n =>
    s.modBobbin p q.bobbin fun b => { b with state := 6, slot := n, logical := q.logical }
  | none =>
    match (s.pillow p).refreshing with
    | some r => s.refreshDone p r q.bobbin
    | none => s.modBobbin p q.bobbin fun b => { b with state := 1 }

/-- A pillow's refresh is dropped: a spare in PROGRAMMING stops at the end of its row, a SPARE_READY shadow
is discarded (R331, R335). -/
def State.dropRefresh (p : Nat) (s : State) : State :=
  let x := s.pillow p
  let s := s.setPillow p
    { x with refreshing := none
             progs := x.progs.filterMap fun q =>
               if q.forSlot.isSome then some q else if q.started then some { q with stopped := true } else none }
  match x.spare with
  | some b => if (s.bobbin p b).state = 3 then s.modBobbin p b fun y => { y with state := 1 } else s
  | none => s

/-- A host request for a refresh is queued where its bobbin may be refreshed (R333). -/
def State.hostRefresh (p l : Nat) (s : State) : State :=
  let q : RefreshReq := { source := 3, logical := l, age := s.now }
  if decide (l < 16) && s.refreshable p q then s.requestRefresh p q else s

/-- A host's refresh of a bobbin of pillow p is refused while CAL_DONE is 0 (R345, R408). -/
def State.wrReqRefused (p : Nat) (s : State) : Option Reject :=
  require s.trim.calDone { status := Status.calFail, payload := leBytes 1 p ++ leBytes 1 0xFF }

/-- WR_REQ: a REG_WRITE of REQ = 1 queues a host request (R333, R339). -/
def execWrReq (h : Hdr) (pillow logical : Nat) (s : State) : Out :=
  hostCommand h Op.regWrite 0 false none
    (fun s => firstOf [require (s.inService pillow) stateRefused, s.wrReqRefused pillow])
    (fun s => (s.disarm.hostRefresh pillow logical).done h Op.regWrite 0 []) s

end Sys2Proof.Machine
end

