-- ==== Sys2Proof/Machine/Conditioner.lean ====
section
/-! DEFINITION. What one token of an XBAR operation drives (R159 to R161, R84) and the input conditioner
(R89 to R107): reading, screen, constancy, rotation and quantisation of one token. -/

namespace Sys2Proof.Machine

/-! ## Owners and tables (R94, R145) -/

/-- The table index and entry of a quantisation descriptor of the work. -/
def Pillow.qentry (x : Pillow) (owner index : Nat) : Option (Nat × QEntry) :=
  (x.qdesc.filterMap fun (i, e) => e.map fun e => (i, e)).find? fun (_, e) =>
    e.owner == owner && e.index == index

/-- The scale and zero point of a static descriptor for the work's tokens (R109). -/
def State.scaleOf (w : Work) (s : State) : BitVec 32 × Nat :=
  let q := w.prk.qdesc w.op.qdesc
  match ((s.pillow w.p).qentry (w.job.owner w.run.ctx) w.op.qdesc).bind fun (_, e) =>
      e.setAt (s.setKey w.p w.job) with
  | some v => (v.scale, v.zq)
  | none => (q.scale, q.zq)

/-! ## Tiles of a position (R159 to R161) -/

/-- One tile that a token drives: its N and K iterations, its index and the descriptor. -/
structure Drive where
  n : Nat
  k : Nat
  index : Int
  tile : TileD
  rows : Nat
  wave : Nat
  deriving DecidableEq, Repr

/-- The actual reduction length of a tile, or K_B under rotation (R102, R159). -/
def tileRows (block k : Nat) (t : TileD) : Nat :=
  min 1024 (ceilDiv (min t.kRows (k - t.kOfs)) block * block)

/-- The tile selections of a position over the iterations `sp` of its folded levels: (N iteration, K iteration, tile
index). -/
def Work.selectIn (w : Work) (sp : Nat → Nat × Nat) (idx : List Nat) : List (Nat × Nat × Int) :=
  let base : Int := (List.range 5).foldl (fun a l =>
    if (w.op.lv l).dim = 0 ∨ w.folded l then a else a + (nth idx l : Int) * (w.op.lv l).strT) w.op.tileBase
  let ns : List (Nat × Int) :=
    match w.op.dimLevel 3 with
    | none => [(0, 0)]
    | some l =>
      if w.op.parN then
        let (lo, hi) := sp l
        (List.range (hi - lo)).map fun i => (lo + i, ((lo + i : Nat) : Int) * (w.op.lv l).strT)
      else [(nth idx l, 0)]
  let (klo, khi) := sp 5
  ns.flatMap fun (n, t) => (List.range (khi - klo)).map fun i =>
    (n, klo + i, base + t + ((klo + i : Nat) : Int) * (w.op.lv 5).strT)

/-- The tile selections of a position on this stage. -/
def Work.selected (w : Work) (idx : List Nat) : List (Nat × Nat × Int) := w.selectIn (w.levelSpan idx) idx

/-- Every iteration of a level, whichever stage runs it. -/
def Work.whole (w : Work) (idx : List Nat) (l : Nat) : Nat × Nat := (0, (w.op.lv l).count (w.levelLen idx l))

/-- The first selection that no tile or leaf stands for (R170). -/
def Work.badTile (w : Work) (idx : List Nat) : Option Int :=
  let (klo, _) := w.levelSpan idx 5
  ((w.selected idx).find? fun x =>
    decide (x.2.2 < 0) || decide ((w.prk.nTiles : Int) ≤ x.2.2) || decide (64 ≤ x.2.1 - klo)).map fun x => x.2.2

/-- Numbers the tiles of each bobbin in tile order: wave w holds its w-th (R161). -/
def numberWaves : List Drive → List Drive → List Drive
  | _, [] => []
  | seen, d :: r =>
    let d := { d with wave := seen.countP fun e => e.tile.logical == d.tile.logical }
    d :: numberWaves (d :: seen) r

/-- The tiles whose passes a token of this position makes, with their waves; a tile wholly beyond the
length is skipped (R101, R167). -/
def Work.drives (w : Work) (idx : List Nat) : List Drive :=
  let k := w.kOf idx
  let b := (w.prk.qdesc w.op.qdesc).block
  let ds := (w.selected idx).map fun (n, t, i) =>
    let d := w.prk.tile i.toNat
    { n := n, k := t, index := i, tile := d, rows := tileRows b k d, wave := 0 }
  numberWaves [] ((ds.filter fun d => d.rows != 0).mergeSort fun a b => decide (a.index ≤ b.index))

/-- The waves of a position. -/
def waveCount (ds : List Drive) : Nat := ds.foldl (fun m d => max m (d.wave + 1)) 0

/-- The columns that some selections reach, in order: N iteration × DIV + column within its tile. -/
def columnsOf (prk : Prick) (div : Nat) (sel : List (Nat × Int)) : List Nat :=
  let cs := (sel.filter fun x => decide (0 ≤ x.2) && decide (x.2 < (prk.nTiles : Int))).flatMap fun (n, i) =>
    (List.range (prk.tile i.toNat).ncol).map fun j => n * div + j
  (cs.mergeSort (· ≤ ·)).eraseDups

/-- DIV of the N level, 0 without one. -/
def OpRec.nDiv (o : OpRec) : Nat :=
  match o.dimLevel 3 with
  | some l => (o.lv l).div
  | none => 0

/-- The output columns of a position's vector on this stage: those of every tile of its N iterations, so that the parts
of a reduction agree on them (R122). -/
def Work.columns (w : Work) (idx : List Nat) : List Nat :=
  columnsOf w.prk w.op.nDiv
    ((w.selectIn (fun l => if l = 5 then w.whole idx 5 else w.levelSpan idx l) idx).map fun x => (x.1, x.2.2))

/-- The output columns of a position over all the stages of its run. -/
def Work.allColumns (w : Work) (idx : List Nat) : List Nat :=
  columnsOf w.prk w.op.nDiv ((w.selectIn (w.whole idx) idx).map fun x => (x.1, x.2.2))

/-! ## Physical bobbins (R84, R324) -/

/-- Whether a slot serves instances of a sheet (R324, R328): ACTIVE for it, or draining with an earlier
binding. -/
def State.serves (n sheet : Nat) (s : State) : Bool :=
  let sl := s.slot n
  let bound := s.tb.sheetSrc == 0 || decide (sl.fromSheet ≤ sheet)
  (sl.state == 3 && bound) || (sl.state == 4 && (s.tb.sheetSrc == 0 || decide (sheet < sl.sheet)))

/-- The physical bobbin that makes the passes of a logical bobbin for a sheet (R84). -/
def State.routeOf (p l sheet : Nat) (s : State) : Nat :=
  let x := s.pillow p
  let retiring := match x.alt with
    | some (o, m) => m == l && decide (sheet < x.swapSheet)
    | none => false
  if retiring then (x.alt.map Prod.fst).getD 0
  else match x.spare with
    | some b =>
      if (s.bobbin p b).state == 3 && (s.bobbin p b).logical == l && decide (x.swapSheet ≤ sheet)
          && s.tb.sheetSrc != 0 then b
      else x.physOf l
    | none => x.physOf l

/-- Whether a tile's bobbin can make its passes now: its slot serves the sheet and the bobbin is ACTIVE,
RETIRING, or a spare about to be swapped in. -/
def State.canPass (p : Nat) (t : TileD) (sheet : Nat) (s : State) : Bool :=
  let st := (s.bobbin p (s.routeOf p t.logical sheet)).state
  s.serves t.slot sheet && (st == 0 || st == 3 || st == 4)

/-! ## One token (R89 to R107) -/

/-- What the conditioner makes of one token: its codes by slice of the token (first value, codes), the code
step, the zero point, the constant of a degenerate token, and the figures. -/
structure Conditioned where
  codes : List (Nat × List Nat)
  scale : BitVec 32
  zq : Int
  degen : Option (Int × Int)
  clips : Nat
  nonfin : Nat
  deriving DecidableEq, Repr

/-- The raw patterns of n elements. -/
def rawElems (size n : Nat) (b : Bytes) : List Nat := (List.range n).map fun i => numAt (size * i) size b

/-- The value of a raw integer pattern by IN_FMT. -/
def rawInt (fmt v : Nat) : Int :=
  if fmt = 0 then toSigned 8 v else if fmt = 1 then toSigned 16 v else (v : Int)

/-- A raw pattern in binary32, exactly. -/
def rawF32 (fmt v : Nat) : BitVec 32 := if fmt = 2 then bf16ToF32 v else f32OfInt (rawInt fmt v)

/-- The screen of R91 and how many values it replaced. -/
def screenRaw (fmt : Nat) (l : List Nat) : List Nat × Nat :=
  if fmt = 2 then ((l.map fun v => (bf16Screen v).1), l.countP fun v => (bf16Screen v).2) else (l, 0)

/-- Whether two raw patterns are equal values, +0 and −0 alike (R104). -/
def sameRaw (fmt a b : Nat) : Bool := a == b || (fmt == 2 && a % 0x8000 == 0 && b % 0x8000 == 0)

/-- The constancy check (R104). -/
def constantToken (fmt : Nat) : List Nat → Bool
  | [] => false
  | a :: r => r.all (sameRaw fmt a)

/-- The constant of a degenerate token: an integer with exponent 0, or a bfloat16's signed significand
and exponent (R106). -/
def constantOf (fmt v : Nat) : Int × Int :=
  if fmt = 2 then
    match f32Decode (bf16ToF32 v) with
    | .fin s m e => (scaledAt s (m / 2 ^ 16) 0 0, e + 16)
    | _ => (0, 0)
  else (rawInt fmt v, 0)

/-- One butterfly stage of stride h (R102). -/
def butterfly {α : Type} (d : α) (add sub : α → α → α) (h : Nat) (l : List α) : List α :=
  (List.range l.length).map fun i =>
    if i / h % 2 = 0 then add (l.getD i d) (l.getD (i + h) d) else sub (l.getD (i - h) d) (l.getD i d)

/-- The rotation of integers in blocks of 2^n, exact. -/
def rotateInts (n : Nat) (l : List Int) : List Int :=
  (List.range n).foldl (fun l k => butterfly 0 (· + ·) (· - ·) (2 ^ k) l) l

/-- The rotation of binary32 words with the screen after each stage, and its replacements. -/
def rotateWords (n : Nat) (l : List (BitVec 32)) : List (BitVec 32) × Nat :=
  (List.range n).foldl (fun (l, c) k =>
    let r := butterfly 0 f32Add f32Sub (2 ^ k) l
    (r.map fun v => (f32Screen v).1, c + r.countP fun v => (f32Screen v).2)) (l, 0)

/-- The values of a slice after rotation, in binary32, and the replacements (R102). -/
def rotateSlice (fmt block : Nat) (l : List Nat) : List (BitVec 32) × Nat :=
  if block ≤ 1 then (l.map (rawF32 fmt), 0)
  else
    let l := l ++ List.replicate (ceilDiv l.length block * block - l.length) 0
    if fmt = 2 then rotateWords block.log2 (l.map bf16ToF32)
    else ((rotateInts block.log2 (l.map (rawInt fmt))).map f32OfInt, 0)

/-- A static code and whether the clamp changed it (R97). -/
def staticCode (scale : BitVec 32) (z top : Nat) (r : BitVec 32) : Nat × Bool :=
  let v := f32Round (f32Add (f32Div r scale) (f32OfScaled z (-8)))
  let c := clampInt 0 (top : Int) v
  (c.toNat, decide (c ≠ v))

/-- A rounded quotient held to 0 and `top` (R98). Where the step has underflowed to 0 and the quotient is
no number, the spec states no code: `free` stands for it (assumption 13). -/
def heldRound (free top : Nat) (v : BitVec 32) : Nat :=
  match f32Decode v with
  | .nan => free % (top + 1)
  | _ => (clampInt 0 (top : Int) (f32Round v)).toNat

/-- A range widened to some values (R98). -/
def widen (r : BitVec 32 × BitVec 32) (l : List (BitVec 32)) : BitVec 32 × BitVec 32 :=
  l.foldl (fun (m, x) v => (if f32Lt v m then v else m, if f32Lt x v then v else x)) r

/-- The range of a token, zero included (R98). A token that a resume takes up with the running values of its first
dynamic read keeps them, and widens them to the values not yet read (R93, R248): `rs` are the rotated slices with
their first values. -/
def tokenRange (pre : Option Cond) (rs : List (Nat × List (BitVec 32))) : BitVec 32 × BitVec 32 :=
  match pre with
  | none => widen (0, 0) (rs.flatMap Prod.snd)
  | some c => if c.second then (c.lo, c.hi) else widen (c.lo, c.hi) (rs.flatMap fun r => r.2.drop (c.pos - r.1))

/-- The constancy check of a token that a resume may take up (R93, R104): one in its second read is not constant. -/
def constantFrom (fmt : Nat) (pre : Option Cond) (raw : List Nat) : Bool :=
  match pre with
  | none => constantToken fmt raw
  | some c => !c.second && c.same && (raw.drop c.pos).all (sameRaw fmt c.first)

/-- The conditioner's partial state on a token whose reads it has made as far as value `pos` (R93). -/
def condAt (second : Bool) (pos : Nat) (q : QDesc) (raw : List Nat) (slices : List (Nat × Nat)) : Cond :=
  let raw := (screenRaw q.inFmt raw).1
  let n := if second then raw.length else pos
  let r := widen (0, 0) (slices.flatMap fun (o, k) =>
    ((rotateSlice q.inFmt q.block ((raw.drop o).take k)).1).take (n - o))
  { second := second, pos := pos, lo := r.1, hi := r.2, first := nth raw 0
    same := n == 0 || constantToken q.inFmt (raw.take n) }

/-- Conditions one token of raw values, cut into the slices that its tiles take (R89). `whole` says that
the reduction is held on one pillow, `pre` what an interrupted dynamic read of it has found. -/
def conditionToken (q : QDesc) (scale : BitVec 32) (z free : Nat) (whole : Bool) (pre : Option Cond) (raw : List Nat)
    (slices : List (Nat × Nat)) : Conditioned :=
  let (raw, nf) := screenRaw q.inFmt raw
  let pre := if q.dynamic then pre else none
  if whole && constantFrom q.inFmt pre raw then
    { codes := [], scale := 0, zq := 0, degen := some (constantOf q.inFmt (pre.elim (nth raw 0) Cond.first)), clips := 0
      nonfin := nf }
  else
    let rs := slices.map fun (o, n) => (o, rotateSlice q.inFmt q.block ((raw.drop o).take n))
    let nf := nf + (rs.map fun x => x.2.2).sum
    let top : Nat := if q.a4 then 15 else 255
    if q.dynamic then
      let (m, x) := tokenRange pre (rs.map fun r => (r.1, r.2.1))
      let st := f32Div (f32Sub x m) (f32OfInt top)
      { codes := rs.map fun r => (r.1, r.2.1.map fun v => heldRound free top (f32Div (f32Sub v m) st))
        scale := st
        zq := heldRound free (zqMax q.a4) (f32Div (f32Mul (f32OfInt (-256)) m) st)
        degen := none, clips := 0, nonfin := nf }
    else
      let cs := rs.map fun r => (r.1, r.2.1.map (staticCode scale z top))
      { codes := cs.map fun r => (r.1, r.2.map Prod.fst)
        scale := scale, zq := z, degen := none
        clips := (cs.map fun r => r.2.countP Prod.snd).sum, nonfin := nf }

/-! ## Reading a token (R152, R157) -/

/-- Reads the segments of a token: `n` elements are still due from segment g on. -/
def readSegs (w : Work) (unit : Nat) (x : Opnd) (es : Nat) (at_ : Nat → Int × Int) :
    Nat → Nat → Nat → State → Access
  | 0, _, _, s => .ok [] s
  | fuel + 1, g, n, s =>
    if n = 0 then .ok [] s
    else
      let k := min n w.op.segLen
      let (off, line) := at_ g
      match s.readOpnd w unit x off line (k * es) with
      | .ok b s =>
        match readSegs w unit x es at_ fuel (g + 1) (n - k) s with
        | .ok c s => .ok (b ++ c) s
        | r => r
      | r => r

/-- Reads the first n elements of the gathered token of a position. -/
def State.readToken (w : Work) (unit es : Nat) (idx : List Nat) (tok n : Nat) (s : State) : Access :=
  readSegs w unit w.op.a es (w.segAddress idx tok) 17 0 n s

/-- The slices of a token that its tiles take; the whole token without rotation. -/
def slicesOf (q : QDesc) (k : Nat) (ds : List Drive) : List (Nat × Nat) :=
  if q.block ≤ 1 then [(0, k)]
  else (ds.map fun d => (d.tile.kOfs, min d.tile.kRows (k - d.tile.kOfs))).eraseDups

/-- The codes of one tile's rows. -/
def Conditioned.rowsOf (c : Conditioned) (q : QDesc) (d : Drive) : List Nat :=
  if q.block ≤ 1 then (((c.codes.head?.map Prod.snd).getD []).drop d.tile.kOfs).take d.rows
  else
    (((c.codes.find? fun x => x.1 == d.tile.kOfs).map Prod.snd).getD []).take d.rows

/-! ## Staging (R90, R204) -/

/-- The first byte of an entry of a staging buffer: 32 entries of 1 KiB in each half. -/
def stageAt (half entry : Nat) : Nat := half * 32768 + entry * 1024

/-- Writes an entry: one code byte per row, rows beyond the codes at 0; its poison goes with it. -/
def Bobbin.stage (base : Nat) (codes : List Nat) (b : Bobbin) : Bobbin :=
  let row (i : Nat) : Byte := BitVec.ofNat 8 (nth codes i)
  { b with
    staging := (List.range 1024).foldl (fun t i => tset (fun _ => 0) (base + i) (row i) t) b.staging
    stagePoison := b.stagePoison.filter fun u => !(decide (base ≤ u) && decide (u < base + 1024)) }

/-- The codes that an entry's first n rows hold. -/
def Bobbin.staged (base n : Nat) (b : Bobbin) : List Nat :=
  (List.range n).map fun i => (tget (fun _ => (0 : Byte)) b.staging (base + i)).toNat

/-- Stages a token's codes on every bobbin that takes it. -/
def State.stageCodes (w : Work) (q : QDesc) (sheet half tok waves : Nat) (c : Conditioned) :
    List Drive → State → State
  | [], s => s
  | d :: r, s =>
    let b := s.routeOf w.p d.tile.logical sheet
    (s.modBobbin w.p b (Bobbin.stage (stageAt half (tok * waves + d.wave)) (c.rowsOf q d))).stageCodes w q
      sheet half tok waves c r

end Sys2Proof.Machine
end

