-- ==== Sys2Proof/Machine/Epilogue.lean ====
section
/-! DEFINITION. The output epilogue (R132 to R139), the spill formats and sends of a split reduction
(R122 to R128), and the writes of a capture buffer (R129, R130). -/

namespace Sys2Proof.Machine

/-! ## Descriptors of the pillow's tables (R132, R145) -/

/-- The epilogue descriptor of the work's operation, from the pillow's table. -/
def State.edescOf (w : Work) (s : State) : EDesc :=
  let o := w.job.owner w.run.ctx
  match (s.pillow w.p).edesc.findSome? fun (_, e) => e.filter fun e => e.owner == o && e.index == w.op.edesc with
  | some e => Machine.edescOf e.bytes
  | none => w.prk.edesc w.op.edesc

/-- The activation table that a descriptor names. -/
def State.actOf (w : Work) (d : EDesc) (s : State) : Bytes :=
  let o := w.job.owner w.run.ctx
  match (s.pillow w.p).act.findSome? fun (_, e) => e.filter fun e => e.owner == o && e.index == d.act % 8 with
  | some e => e.bytes
  | none => w.prk.actBytes (d.act % 8)

/-- A binary32 word of a byte string. -/
def wordAt (ofs : Nat) (b : Bytes) : BitVec 32 := BitVec.ofNat 32 (numAt ofs 4 b)

/-! ## One output (R133 to R137) -/

/-- A value with the count of non-finite replacements so far. -/
abbrev Counted := BitVec 32 × Nat

/-- Screens an intermediate and counts its replacement (R137). -/
def Counted.take (c : Counted) (v : BitVec 32) : Counted :=
  let (w, b) := f32Screen v
  (w, c.2 + if b then 1 else 0)

/-- Step 2: y = fp32(X) × σ × g, and + b with the bias (R134). -/
def scaleStep (x : Int) (sigma g b : BitVec 32) (bias : Bool) : Counted :=
  let y : Counted := Counted.take (0, 0) (f32Mul (f32OfInt x) sigma)
  let y := y.take (f32Mul y.1 g)
  if bias then y.take (f32Add y.1 b) else y

/-- Step 3: an add or multiply of S_ELEM × e (R135). -/
def elemStep (op : Nat) (se e : BitVec 32) (y : Counted) : Counted :=
  if op = 0 then y
  else
    let t := y.take (f32Mul se e)
    t.take (if op = 1 then f32Add y.1 t.1 else f32Mul y.1 t.1)

/-- Step 4: the table lookup (R136). -/
def actStep (t : Bytes) (y : Counted) : Counted :=
  let lo := wordAt 0 t
  let d := y.take (f32Sub (wordAt 4 t) lo)
  let r := d.take (f32Div 0x4280_0000 d.1)
  let a := r.take (f32Sub y.1 lo)
  let u := a.take (f32Mul a.1 r.1)
  let i := (clampInt 0 63 (f32Floor u.1)).toNat
  let f := u.take (f32Sub u.1 (f32OfInt i))
  let k (n : Nat) : BitVec 32 := wordAt (8 + 4 * n) t
  let e := f.take (f32Sub (k (i + 1)) (k i))
  let m := e.take (f32Mul f.1 e.1)
  m.take (f32Add (k i) m.1)

/-- An output element: its bytes, and whether it was clamped or limited. -/
structure OutElem where
  bytes : Bytes
  sat : Bool
  bad : Nat
  deriving DecidableEq, Repr

/-- Step 5: the output format (R137). -/
def outStep (fmt : Nat) (sOut : BitVec 32) (zOut : Int) (y : Counted) : OutElem :=
  if fmt = 2 then
    let (v, lim) := bf16OfF32 y.1
    { bytes := leBytes 2 v, sat := lim, bad := y.2 }
  else
    let b := if fmt = 0 then 8 else 16
    let v := f32Round (f32Div y.1 sOut) + zOut
    let q := clampInt (-(2 ^ (b - 1))) (2 ^ (b - 1) - 1) v
    { bytes := leBytes (b / 8) (ofSigned b q), sat := decide (q ≠ v), bad := y.2 }

/-- Steps 2 to 5 of one output, `e` the element of the second tensor with its own replacements. -/
def finishOne (d : EDesc) (act : Bytes) (x : Int) (sigma g b : BitVec 32) (e : Counted) : OutElem :=
  let y := scaleStep x sigma g b (bitOf 0 d.flags)
  let y := elemStep d.elemOp d.sElem e.1 (y.1, y.2 + e.2)
  let y := if bitOf 3 d.act then actStep act y else y
  outStep d.outFmt d.sOut d.zOut y

/-- An element of the second tensor in binary32, screened (R135, R137). -/
def elemValue (fmt v : Nat) : Counted :=
  if fmt = 2 then let (w, b) := bf16Screen v; (bf16ToF32 w, if b then 1 else 0)
  else (f32OfInt (if fmt = 0 then toSigned 8 v else toSigned 16 v), 0)

/-! ## Writes of a vector (R138, R243) -/

/-- Joins elements of consecutive columns. -/
def spansOf : List (Nat × Bytes) → List (Nat × Bytes)
  | [] => []
  | (c, b) :: r =>
    match spansOf r, r with
    | (d, e) :: t, (c', _) :: _ => if c + 1 = c' then (c, b ++ e) :: t else (c, b) :: (d, e) :: t
    | _, _ => [(c, b)]

/-- Writes runs of columns of an operand: every page is translated before a byte is written. -/
def State.writeSpans (w : Work) (unit : Nat) (x : Opnd) (off line : Int) (size : Nat)
    (sp : List (Nat × Bytes)) (s : State) : Access :=
  if sp = [] then .ok [] s
  else
    match s.writeTarget w x off line with
    | (some (n, l, d), _, _) => .wait n l d
    | (none, none, _) =>
      .fault { va := (s.stream x.window).lineAddr line off, kind := 1, unit := unit, write := true
               asid := w.asid } s
    | (none, some _, win) =>
      let vas := sp.map fun (c, b) =>
        (((s.writeTarget w x (off + ((c * size : Nat) : Int)) line).2.1).getD 0, b)
      match writePages w unit win (vas.flatMap fun (va, b) => vaPieces va b.length) s with
      | (.error f, s) => .fault f s
      | (.ok l, s) => .ok [] (storePieces w unit l (vas.flatMap Prod.snd) s)

/-- The length of the N level at a position; without one every column is within it. -/
def Work.nLen (w : Work) (idx : List Nat) : Option Nat :=
  (w.op.dimLevel 3).map fun l => w.levelLen idx l

/-- The columns of a vector that are written. -/
def Work.live (w : Work) (v : EpiVec) (c : Nat) : Bool :=
  !v.masked && (match w.nLen v.idx with | some n => decide (c < n) | none => true)

/-- Reads the elements of the second tensor for the columns [c0, c1]. -/
def State.readElems (w : Work) (d : EDesc) (v : EpiVec) (c0 c1 : Nat) (s : State) : Access :=
  if d.elemOp = 0 then .ok [] s
  else
    let (off, line) := w.address w.op.e Level.strE v.idx (if bitOf 4 d.elem then 0 else v.tok)
    s.readOpnd w 1 w.op.e (off + ((c0 * d.elemSize : Nat) : Int)) line ((c1 + 1 - c0) * d.elemSize)

/-- σ of R134. -/
def EpiVec.sigma (v : EpiVec) : BitVec 32 :=
  match v.degen with
  | some e => f32OfScaled 1 e
  | none => f32Div v.scale 0x4380_0000

/-- Counts the outputs of a written vector (R108, R137, R140, R142). -/
def State.countOuts (w : Work) (es : List OutElem) (s : State) : State :=
  let sat := es.countP OutElem.sat
  let bad := (es.map OutElem.bad).sum
  (s.modJob w.run.ctx fun j => (j.countClips 0 bad).countOutsat sat).modPillow w.p fun x =>
    { x with cnt := { x.cnt with aeOutsat := satAdd 0xFFFF_FFFF x.cnt.aeOutsat sat } }

/-- The whole epilogue of a vector and its write (R133, R138). -/
def State.finishVec (w : Work) (v : EpiVec) (cols : List Nat) (vals : List Int) (s : State) : Access :=
  let d := s.edescOf w
  let c0 := cols.headD 0
  match s.readElems w d v c0 (cols.getLastD 0) with
  | .ok eb s =>
    let act := s.actOf w d
    let outs := (cols.zip vals).map fun (c, x) =>
      let (g, b) := tget (fun _ => ((0 : BitVec 32), (0 : BitVec 32))) (s.pillow w.p).cfac (d.colf + c)
      let e := elemValue (bitsOf 2 2 d.elem) (numAt ((c - c0) * d.elemSize) d.elemSize eb)
      (c, finishOne d act x v.sigma g b e)
    let ws := outs.filter fun x => w.live v x.1
    let (off, line) := w.address w.op.o Level.strO v.idx v.tok
    match s.writeSpans w 1 w.op.o off line d.outSize (spansOf (ws.map fun x => (x.1, x.2.bytes))) with
    | .ok _ s => .ok [] (s.countOuts w (ws.map Prod.snd))
    | r => r
  | r => r

/-! ## Spills (R123 to R127) -/

/-- The parts of a part's spill: the stage number in which part q of P sends, none for part 0. -/
def sendStage (q : Nat) : Option Nat :=
  if q = 0 then none else if q % 2 = 1 then some 1 else if q % 4 = 2 then some 2 else some 3

/-- The spill stages in which part q of P receives, with the sending parts. -/
def recvStages (q parts : Nat) : List (Nat × Nat) :=
  ([1, 2, 3].filter fun t => q % 2 ^ t == 0 && decide (q + 2 ^ (t - 1) < parts)).map fun t =>
    (t, q + 2 ^ (t - 1))

/-- The stage that runs part q of the work's split, in the same grid row and column. -/
def Work.partStage (w : Work) (q : Nat) : Nat := w.run.stage - (w.op.part w.run.stage).2.2 + q

/-- The mixing function of R126. -/
def srBits (seed idx g : BitVec 32) : BitVec 32 :=
  let x := seed ^^^ idx
  let x := x ^^^ (g * 0x9E37_79B9)
  let x := x ^^^ (x >>> 16)
  let x := x * 0x7FEB_352D
  let x := x ^^^ (x >>> 15)
  let x := x * 0x846C_A68B
  x ^^^ (x >>> 16)

/-- The exponent of a narrow block: the smallest that holds every value. -/
def blockExp (vs : List Int) : Nat :=
  ((List.range 64).find? fun e => vs.all fun v => decide (v.natAbs ≤ 32767 * 2 ^ e)).getD 29

/-- A narrow block: mantissas, exponent, stage code and block index (R125). `o` is the first output
index. -/
def narrowBlock (seed : BitVec 32) (g o b : Nat) (vs : List Int) : Bytes :=
  let e := blockExp vs
  let m := vs.zipIdx.map fun (v, i) =>
    let r := (srBits seed (BitVec.ofNat 32 (o + i)) (BitVec.ofNat 32 g)).toNat % 2 ^ e
    (v + (r : Int)) / ((2 ^ e : Nat) : Int)
  m.flatMap (fun x => leBytes 2 (ofSigned 16 x)) ++ leBytes 1 e ++ leBytes 1 g ++ leBytes 2 b ++ zeros 4

/-- The values of a narrow block. -/
def narrowValues (b : Bytes) : List Int :=
  let e := numAt 0x40 1 b
  (List.range 32).map fun i => intAt (2 * i) 2 b * ((2 ^ e : Nat) : Int)

/-- Whether an operation spills in narrow blocks. -/
def EDesc.narrow (d : EDesc) : Bool := d.outFmt == 4

/-- The bytes of n outputs in a spill format (R124, R125). -/
def spillSize (narrow : Bool) (n : Nat) : Nat := if narrow then 72 * ceilDiv n 32 else 8 * n

/-- The flat index of column c of a token in the operation's output tensor, row by row; without an N level a row is the
vector of a position (DESIGN CHOICE, assumption 31). -/
def Work.flatIndex (w : Work) (idx : List Nat) (tok c : Nat) : Nat :=
  let row := (List.range 5).foldl (fun a l =>
    let v := w.op.lv l
    let n := w.levelLen idx l
    if v.dim = 1 ∨ v.dim = 4 then a * n + nth idx l
    else if v.dim = 2 then a * n + (nth idx l * v.div + tok)
    else a) 0
  row * ((w.nLen idx).getD (w.allColumns idx).length) + c

/-- A vector's written values in its spill format, c0 their first column. A last block that is not full is filled with
`rest`, the values computed for the masked outputs; beyond those the spec names none, and the fill is open, one for
each vector (R125, R127, assumption 13). -/
def Work.spillBytes (w : Work) (narrow : Bool) (g : Nat) (v : EpiVec) (c0 : Nat) (vals rest : List Int) :
    Bytes × List Nat :=
  if narrow then
    let n := ceilDiv vals.length 32
    let known := vals ++ rest.take (32 * n - vals.length)
    let vs := known ++ (List.range (32 * n - known.length)).map fun i =>
      toSigned 43 (Config.spillFill known i).toNat
    let o := w.flatIndex v.idx v.tok c0
    let blk (i : Nat) : List Int := (vs.drop (32 * i)).take 32
    ((List.range n).flatMap fun i => narrowBlock w.job.seed g (o + 32 * i) i (blk i),
      (List.range n).map fun i => blockExp (blk i))
  else (vals.flatMap fun x => leBytes 8 (ofSigned 64 x), [])

/-- The first n values of a spill. -/
def spillValues (narrow : Bool) (n : Nat) (b : Bytes) : List Int :=
  if narrow then ((List.range (ceilDiv n 32)).flatMap fun i => narrowValues ((b.drop (72 * i)).take 72)).take n
  else (List.range n).map fun i => toSigned 64 (numAt (8 * i) 8 b)

/-- Counts a spill (R142). -/
def State.countSpill (w : Work) (narrow : Bool) (n : Nat) (es : List Nat) (s : State) : State :=
  s.modPillow w.p fun x =>
    { x with cnt := { x.cnt with
      aeSpillW := if narrow then x.cnt.aeSpillW else satAdd 0xFFFF_FFFF x.cnt.aeSpillW n
      aeSpillN := if narrow then satAdd 0xFFFF_FFFF x.cnt.aeSpillN es.length else x.cnt.aeSpillN
      aeExpMax := es.foldl max x.cnt.aeExpMax } }

/-- Where a spill of stage t for this token lies in the receiver's scratchpad (DESIGN CHOICE, assumption
32): the output operand's offset, the spill stages one after another, each of `bytes`, the size of a whole vector. -/
def Work.spillOfs (w : Work) (v : EpiVec) (bytes t : Nat) : Nat :=
  (w.address w.op.o Level.strO v.idx v.tok).1.toNat % 0x20_0000 + (t - 1) * bytes

/-- The key of the spill that waits for a stage. -/
def spillKey (stage t : Nat) : Nat := 8 * stage + t

/-- Whether part q of the work's split has a share of the reduction. -/
def Work.partWorks (w : Work) (idx : List Nat) (q : Nat) : Bool :=
  let n := (w.op.lv 5).count (w.kOf idx)
  let (lo, hi) := w.op.range (w.partStage q) 5 n
  decide (lo < hi)

/-- Whether a vector can leave: every spill it takes has come, and the place of its own send is free. A
masked token sends nothing. -/
def State.spillsReady (w : Work) (v : EpiVec) (s : State) : Bool :=
  let q := (w.op.part w.run.stage).2.2
  let has (k : Nat) : Bool := tget (fun _ => 0) w.job.spills k != 0
  v.masked || ((recvStages q w.op.parts).all fun (t, p) =>
      !w.partWorks v.idx p || has (spillKey w.run.stage t))
    && (match sendStage q with
      | some t => !has (spillKey (w.partStage (q - 2 ^ (t - 1))) t)
      | none => true)

/-- A received spill's place is free again, and the fence that announced it has its count subtracted (R123, R178). -/
def State.spillTaken (w : Work) (t : Nat) (s : State) : State :=
  s.modJob w.run.ctx fun j =>
    let k := fenceKey w.p w.op.fence
    { j with
      spills := tset (fun _ => 0) (spillKey w.run.stage t) 0 j.spills
      fences := if w.op.fence = 0xFF then j.fences else tset (fun _ => 0) k (j.fence k - 1) j.fences }

/-- Adds the spills that have come to the first n values of a vector of `size` bytes (R123); a poisoned unit of the
scratchpad is a fault of the access (R208, R242). -/
def State.takeSpills (w : Work) (narrow : Bool) (v : EpiVec) (size n : Nat) : List (Nat × Nat) → List Int → State →
    Except FaultRec (List Int) × State
  | [], vals, s => (.ok vals, s)
  | (t, p) :: r, vals, s =>
    if w.partWorks v.idx p then
      let o := w.spillOfs v size t
      match s.readPhys w 1 false o (spBase w.p + o) (spillSize narrow n) with
      | .ok b s =>
        (s.spillTaken w t).takeSpills w narrow v size n r
          ((vals.take n).zipWith (· + ·) (spillValues narrow n b) ++ vals.drop n)
      | .fault f s => (.error f, s)
      | .wait _ _ _ => (.ok vals, s)
    else s.takeSpills w narrow v size n r vals

/-- Sends the first n of a part's values to the part that takes them (R123, R177). -/
def State.sendSpill (w : Work) (narrow : Bool) (v : EpiVec) (cols : List Nat) (n : Nat) (vals : List Int) (t q : Nat)
    (s : State) : Access :=
  let k := w.partStage (q - 2 ^ (t - 1))
  let p := (w.job.stage k).pillow
  let o := w.spillOfs v (spillSize narrow cols.length) t
  if 0x20_0000 < o + spillSize narrow n then
    .fault { va := o, kind := 2, unit := 1, write := true, asid := w.asid } s
  else
    let (b, es) := w.spillBytes narrow (8 * t + q) v (cols.headD 0) (vals.take n) (vals.drop n)
    let s := s.storeBy (if p = w.p then 2 else 3) (some w.run.ctx) (spBase p + o) b
    let s := s.modJob w.run.ctx fun j =>
      { j with spills := tset (fun _ => 0) (spillKey k t) 1 j.spills }
    .ok [] ((s.fenceUp w p w.op.fence).countSpill w narrow n es)

/-- Part 0, or an operation without a split, writes the first n of its values in a spill format (R133, DEDUCED,
assumption 129): wide values at their columns, narrow blocks one N iteration after another. Such a block belongs to no
spill stage and has stage code 0 (DESIGN CHOICE, assumption 129). -/
def State.writeSpill (w : Work) (narrow : Bool) (v : EpiVec) (cols : List Nat) (n : Nat) (vals : List Int) (s : State) :
    Access :=
  let c0 := cols.headD 0
  let (b, es) := w.spillBytes narrow 0 v c0 (vals.take n) (vals.drop n)
  let (off, line) := w.address w.op.o Level.strO v.idx v.tok
  let sp : List (Nat × Bytes) :=
    if narrow then [(c0 / max 1 w.op.nDiv * spillSize true w.op.nDiv, b)]
    else spansOf ((cols.take n).zipIdx.map fun (c, i) => (c, (b.drop (8 * i)).take 8))
  match s.writeSpans w 1 w.op.o off line (if narrow then 1 else 8) sp with
  | .ok _ s => .ok [] (s.countSpill w narrow n es)
  | r => r

/-! ## Capture (R129 to R131) -/

/-- The crossbar operations that run under some lengths. -/
def Prick.captureOps (p : Prick) (len : Nat → Option Nat) : List Nat :=
  indices p.nOps fun i => (p.op i).kind == kXbar && !(p.op i).isEmpty len

/-- The tokens of a crossbar operation under some lengths: one for each output vector of all its stages, masked and
degenerate ones included (DESIGN CHOICE, assumption 130). -/
def OpRec.captureTokens (o : OpRec) (len : Nat → Option Nat) : Nat :=
  ((List.range 6).foldl (fun n l =>
    if l = 5 ∨ (o.parN ∧ l = 4) then n else n * nth (o.counts len) l) 1) * o.mDiv

/-- LEAVES, OUTPUTS and TOKENS of a pricking's crossbar operations under some lengths (R130, R131): the most leaves, the
most columns of a vector, and all tokens (DESIGN CHOICE, assumption 130). -/
def Prick.captureShape (p : Prick) (len : Nat → Option Nat) : Nat × Nat × Nat :=
  (p.captureOps len).foldl (fun (l, n, t) i =>
    let o := { p.op i with grid := 0, split := 0 }
    let cols := (o.selections len o.stage).foldl (fun m g => max m (columnsOf p o.nDiv g).length) 0
    (max l (padPow (nth (o.counts len) 5)), max n cols, t + (p.op i).captureTokens len)) (0, 0, 0)

/-- A job's lengths as they were at its submission. -/
def Job.len0? (j : Job) (i : Nat) : Option Nat := some (nth j.len0 i)

/-- The number τ of a token: those of the operations before it, then the place of its position, then its place in the
token tile (R130; DESIGN CHOICE, assumption 130). -/
def Work.tokenNo (w : Work) (idx : List Nat) (tok : Nat) : Nat :=
  let len := w.job.len0?
  let before := (((w.prk.captureOps len).filter (· < w.run.op)).map fun i => (w.prk.op i).captureTokens len).sum
  let place := (List.range 6).foldl (fun a l =>
    if w.folded l then a else a * nth (w.op.counts len) l + nth idx l) 0
  before + place * w.op.mDiv + tok

/-- The leaves [lo, hi) of a position that this part holds (R112, R122). -/
def Work.leafShare (w : Work) (idx : List Nat) : Nat × Nat := w.levelSpan idx 5

/-- The virtual address of leaf t, output j of token τ in the capture buffer, under LEAVES and OUTPUTS (R130). -/
def Work.leafVa (w : Work) (leaves outs tau t j : Nat) : Nat :=
  vaOf (w.job.capBuf + 0x40 + 4 * ((tau * leaves + t) * outs + j) : Nat)

/-- The header of a capture buffer. -/
def captureHead (w8 a8 : Bool) (leaves outs : Nat) (j : Job) : Bytes :=
  leBytes 4 0x4641_454C ++ leBytes 2 1 ++ leBytes 2 (flag 0 w8 + flag 1 a8) ++ leBytes 4 j.seed.toNat
    ++ leBytes 4 j.tokens ++ leBytes 2 leaves ++ leBytes 2 outs ++ leBytes 4 j.repeats
    ++ leBytes 4 j.satKept ++ zeros 36

/-- Writes runs of bytes one after another. -/
def writeRuns (w : Work) : List (Nat × Bytes) → State → Access
  | [], s => .ok [] s
  | (va, b) :: r, s =>
    match s.writeVa w 1 false va b with
    | .ok _ s => writeRuns w r s
    | x => x

/-- The rows of a token that a stage writes to the capture buffer: its leaves and columns. The last part that holds
leaves writes the padding leaves, the last columns' stage those beyond the vector's, all as 0 (R130). -/
def Work.captureRuns (w : Work) (v : EpiVec) (cols : List Nat) (leaves outs tau : Nat) (ls : Tbl Int) :
    List (Nat × Bytes) :=
  let (lo, hi) := w.leafShare v.idx
  let hi := if (w.whole v.idx 5).2 ≤ hi then leaves else hi
  let all := w.allColumns v.idx
  let j0 := all.idxOf (cols.headD 0)
  let j1 := if cols.getLast? = all.getLast? then max outs (j0 + cols.length) else j0 + cols.length
  (List.range (hi - lo)).map fun i =>
    (w.leafVa leaves outs tau (lo + i) j0, (List.range (j1 - j0)).flatMap fun j =>
      leBytes 4 (ofSigned 32 (if j0 + j < all.length then
        tget (fun _ => 0) ls (65536 * (lo + i) + nth all (j0 + j)) else 0)))

/-- Writes a token's leaves and the header to the capture buffer. The token counts with its first leaf and column. -/
def State.capture (w : Work) (v : EpiVec) (cols : List Nat) (s : State) : Access :=
  match v.caps with
  | none => .ok [] s
  | some (tau, ls) =>
    let (leaves, outs, _) := w.prk.captureShape w.job.len0?
    match writeRuns w (w.captureRuns v cols leaves outs tau ls) s with
    | .ok _ s =>
      let first := (w.leafShare v.idx).1 == 0 && cols.head? == (w.allColumns v.idx).head?
      let s := if first then s.modJob w.run.ctx fun j => { j with tokens := j.tokens + 1 } else s
      let w8 := !(w.prk.tile w.op.tileBase).w4
      let a8 := !(w.prk.qdesc w.op.qdesc).a4
      s.writeVa w 1 false w.job.capBuf (captureHead w8 a8 leaves outs ((s.job w.run.ctx).getD w.job))
    | r => r

/-! ## A finished vector -/

/-- The vector's own end: sent to the part that takes it, written in a spill format, or taken through steps
2 to 5 (R123, R133). Masked outputs are neither sent nor written (R138, R165). -/
def State.leaveVector (w : Work) (v : EpiVec) (cols : List Nat) (s : State) : Access :=
  let d := s.edescOf w
  let q := (w.op.part w.run.stage).2.2
  let n := (cols.takeWhile (w.live v)).length
  match s.takeSpills w d.narrow v (spillSize d.narrow cols.length) n
      (if v.masked then [] else recvStages q w.op.parts) v.vals with
  | (.error f, s) => .fault f s
  | (.ok vals, s) =>
    match sendStage q with
    | some t => if v.masked then .ok [] s else s.sendSpill w d.narrow v cols n vals t q
    | none =>
      if !d.spill then s.finishVec w v cols vals
      else if v.masked then .ok [] s
      else s.writeSpill w d.narrow v cols n vals

/-- A finished vector leaves, captured first (R129). A write stopped by a fault leaves the job as it was:
it is issued again whole (R138). -/
def State.writeVector (w : Work) (v : EpiVec) (s : State) : Access :=
  let cols := w.columns v.idx
  match s.capture w v cols with
  | .ok _ s1 =>
    match s1.leaveVector w v cols with
    | .fault f s2 => .fault f { s2 with jobs := s.jobs }
    | r => r
  | r => r

end Sys2Proof.Machine
end

