-- ==== Sys2Proof/Machine/Dma.lean ====
section
/-! DEFINITION. One burst of a DMA transfer (R176, R177, R238 to R243). -/

namespace Sys2Proof.Machine

/-- Where an operand's bytes lie physically: an address, the zero halo of R158, a fault, or a wait. -/
inductive Reach where
  | place (pa : Nat)
  | halo
  | fault (f : FaultRec)
  | wait (win : Nat) (line : Int) (write : Bool)
  deriving DecidableEq, Repr

/-- A translated address. -/
def reachOf : Except FaultRec Nat × State → Reach × State
  | (.ok pa, s) => (.place pa, s)
  | (.error f, s) => (.fault f, s)

/-- The virtual or physical address at which an operand's bytes at an offset and line stand. -/
def State.opndVa (w : Work) (x : Opnd) (off line : Int) (s : State) : Nat :=
  if !x.windowed then vaOf off
  else if x.ground then
    (s.stream x.window).lineAddr (if w.job.pinned then w.job.firstLine + line else line) off
  else ((s.pillow w.p).window x.window).lineVa line off

/-- Where a DMA source lies (R158, R211, R212). -/
def State.reachRead (w : Work) (x : Opnd) (off line : Int) (s : State) : Reach × State :=
  let a := s.opndVa w x off line
  if !x.windowed then reachOf (s.translate w.p 3 false false w.asid a)
  else if x.ground then
    if w.job.pinned then
      (if line < 0 ∨ (nth w.len 0 : Int) ≤ line then .halo else .place a, s)
    else if s.lineHeld x.window line then (.place a, s)
    else (.fault { va := a, kind := 2, unit := 3, write := false, asid := w.asid }, s)
  else
    let k := winKey w.p x.window
    if line < (w.job.released_ k : Int) then
      (.fault { va := a, kind := 2, unit := 3, write := false, asid := w.asid, win := true }, s)
    else if (w.job.landed k : Int) ≤ line then (.wait x.window line false, s)
    else reachOf (s.translate w.p 3 true false w.asid a)

/-- Where a DMA destination lies (R179, R211). -/
def State.reachWrite (w : Work) (x : Opnd) (off line : Int) (s : State) : Reach × State :=
  match s.writeTarget w x off line with
  | (some (n, l, d), _, _) => (.wait n l d, s)
  | (none, some va, win) => reachOf (s.translate w.p 3 win true w.asid va)
  | (none, none, _) =>
    (.fault { va := s.opndVa w x off line, kind := 1, unit := 3, write := true, asid := w.asid }, s)

/-- The work of a transfer: its own operation, with the lengths and the table it started with (R164, R174). -/
def Work.ofXfer (w : Work) (x : DmaXfer) : Work := { w with op := w.prk.op x.op, len := x.lens, tab := x.tab }

/-- The source and destination of a transfer's next burst: offsets and lines. -/
def Work.burstEnds (w : Work) (x : DmaXfer) : (Int × Int) × (Int × Int) :=
  let (so, sl) := w.address w.op.a Level.strA x.idx 0
  let (d, dl) := w.address w.op.o Level.strO x.idx 0
  ((so + (x.ofs : Int), sl), (d + (x.ofs : Int), dl))

/-- The bytes of a transfer's next burst (R238). -/
def State.burstLen (w : Work) (x : DmaXfer) (s : State) : Nat :=
  let ((so, sl), (d, dl)) := w.burstEnds x
  let sv := s.opndVa w w.op.a so sl
  let dv := if w.op.mcast = 0 then s.opndVa w w.op.o d dl else d.toNat
  min (w.op.count - x.ofs) (min (2048 - dv % 2048) (0x1_0000 - sv % 0x1_0000))

/-- The physical pillows that a transfer writes to (R176). -/
def Work.dests (w : Work) : List Nat :=
  if w.op.mcast = 0 then [w.p] else (indices 48 fun b => bitOf b w.op.mcast).map fun b => nth w.job.map b

/-- Whether an address maps to memory that a March test uses: the access waits until it ends (R223). -/
def State.marchBars (w : Work) (va : Nat) (s : State) : Bool :=
  match s.pageAt w.asid va with
  | some g => s.marchAt (g.physical va)
  | none => false

/-- The window's line that a transfer's next burst waits for: its source's, else its destination's (R158, R179). -/
def State.xferLine (w : Work) (x : DmaXfer) (s : State) : Option (Nat × Int × Bool) :=
  let w := w.ofXfer x
  let ((_, sl), (d, dl)) := w.burstEnds x
  let a := w.op.a
  let k := winKey w.p a.window
  if a.ring && decide (w.job.released_ k ≤ sl) && decide ((w.job.landed k : Int) ≤ sl) then some (a.window, sl, false)
  else if w.op.mcast = 0 then (s.writeTarget w w.op.o d dl).1 else none

/-- Whether a transfer's next burst waits: for a window's line, or for the end of a March test. -/
def State.xferWaits (w : Work) (x : DmaXfer) (s : State) : Bool :=
  let v := w.ofXfer x
  let ((so, sl), (d, dl)) := v.burstEnds x
  (s.xferLine w x).isSome || s.marchBars v (s.opndVa v v.op.a so sl)
    || (v.op.mcast == 0 && s.marchBars v (s.opndVa v v.op.o d dl))

/-- The physical places that a burst writes, or its fault or wait. -/
def State.burstTarget (w : Work) (x : DmaXfer) (s : State) : Except Reach (List Nat) × State :=
  let (_, (d, dl)) := w.burstEnds x
  if w.op.mcast = 0 then
    match s.reachWrite w w.op.o d dl with
    | (.place pa, s) => (.ok [pa], s)
    | (r, s) => (.error r, s)
  else if 0x20_0000 ≤ d.toNat then
    (.error (.fault { va := d.toNat, kind := 2, unit := 3, write := true, asid := w.asid }), s)
  else (.ok (w.dests.map fun q => spBase q + d.toNat), s)

/-- Writes a burst's bytes to each destination. -/
def State.storeAll (w : Work) (b : Bytes) : List Nat → State → State
  | [], s => s
  | a :: r, s => (s.storeBy (w.port 3 a) (some w.run.ctx) a b).storeAll w b r

/-- One burst: source, then destination, then the bytes. A poisoned unit of the source leaves the bytes
before it written (R243). -/
def State.burst (w : Work) (x : DmaXfer) (s : State) : Access :=
  let ((so, sl), _) := w.burstEnds x
  let n := s.burstLen w x
  match s.reachRead w w.op.a so sl with
  | (.fault f, s) => .fault f s
  | (.wait k l d, _) => .wait k l d
  | (src, s) =>
    match s.burstTarget w x with
    | (.error (.wait k l d), _) => .wait k l d
    | (.error (.fault f), s) => .fault f s
    | (.error _, s) => .ok [] s
    | (.ok ps, s) =>
      match src with
      | .place pa =>
        match s.readPhys w 3 w.op.a.ring (s.opndVa w w.op.a so sl) pa n with
        | .ok b s => .ok [] (s.storeAll w b ps)
        | .fault f s =>
          let u := (s.poisonIn pa n).getD pa
          .fault f (s.storeAll w (s.load pa (u - pa)) ps)
        | r => r
      | _ => .ok [] (s.storeAll w (zeros n) ps)

/-- A finished transfer: its fences rise on every destination, and the lines it read are released (R177,
R179). -/
def State.xferDone (w : Work) (idx : List Nat) (s : State) : State :=
  w.dests.foldl (fun s q => s.fenceUp w q w.op.fence) (s.releaseAt w idx none)

/-- A transfer after a burst of n bytes: the next place of it, none when it is complete. -/
def State.xferNext (w : Work) (x : DmaXfer) (n : Nat) (s : State) : Option DmaXfer × State :=
  if x.ofs + n < w.op.count then (some { x with ofs := x.ofs + n }, s)
  else
    let nxt := w.nextIdx x.idx
    let s := s.landAt w x.idx nxt
    match nxt with
    | some i => (some { x with idx := i, ofs := 0 }, s)
    | none => (none, s.xferDone w x.idx)

end Sys2Proof.Machine
end

