-- ==== Sys2Proof/Machine/Sched.lean ====
section
/-! DEFINITION. Scheduling on a pillow (R38 to R42, R52, R153, R246 to R250): the ready queues, the two state
banks, the entry of an operation, the end of a stage, aborts (R252 to R254), failed bobbins and pillows
(R493 to R496), and the events that make stages ready or end their waits. -/

namespace Sys2Proof.Machine

/-! ## Ready stages (R38, R40, R41) -/

/-- The place of a pinned stage in its pillow's queue: deadline, then S_r, template and instance (R38). -/
def State.edfKey (s : State) (e : Nat × Nat) : List Nat :=
  match s.job e.1 with
  | some j => [(j.stage e.2).deadline, j.sr, j.template, j.inst, e.2]
  | none => []

/-- Whether a list of numbers comes before another. -/
def lexLt : List Nat → List Nat → Bool
  | _, [] => false
  | [], _ :: _ => true
  | a :: r, b :: t => decide (a < b) || (decide (a = b) && lexLt r t)

/-- Inserts a pinned stage in its place. -/
def State.insertPinned (s : State) (e : Nat × Nat) : List (Nat × Nat) → List (Nat × Nat)
  | [] => [e]
  | x :: r => if lexLt (s.edfKey e) (s.edfKey x) then e :: x :: r else x :: s.insertPinned e r

/-- A stage becomes ready on its pillow. -/
def State.makeReady (c k : Nat) (s : State) : State :=
  match s.job c with
  | none => s
  | some j =>
    let s := s.setJob c (some (j.setPhase k .ready))
    s.modPillow (j.stage k).pillow fun x =>
      if j.pinned then { x with readyQ := s.insertPinned (c, k) x.readyQ }
      else { x with looseQ := s.insertLoose (c, k) x.looseQ }

/-- Changes the run of a pillow. -/
def State.modRun (p : Nat) (f : Run → Run) (s : State) : State :=
  s.modPillow p fun x => { x with run := x.run.map f }

/-! ## What a stage has under way (R39, R245, R248) -/

/-- The transfer that has the engine: the next in turn that neither waits nor has met a fault (R240). -/
def State.turnOf (w : Work) (s : State) : Option Nat :=
  let n := w.run.dma.length
  ((List.range n).map fun i => (w.run.turn + i) % n).find? fun i =>
    (w.run.dma.drop i).head?.any fun x => x.fault.isNone && !s.xferWaits w x

/-- The half of the staging buffers that a token's tile takes. -/
def Run.halfFor (r : Run) (tok : Nat) : Nat := if tok = 0 then 1 - r.half else r.half

/-- Whether the staging buffers have room for the token's tile: at most two token tiles are staged (R160). -/
def Run.hasRoom (r : Run) (pos : List Nat × Nat) : Bool :=
  r.staged.all fun t => t.half != r.halfFor pos.2 || t.idx == pos.1

/-- Whether this pass is the token's last one. -/
def Work.lastPass (w : Work) (waves : Nat) : Bool :=
  ((w.prk.qdesc w.op.qdesc).a4 || w.run.low) && decide (waves ≤ w.run.wave + 1)

/-- Whether the oldest vector of the epilogue can be written: the spills it takes have come, and it waits for no line.
-/
def State.epiReady (w : Work) (s : State) : Bool :=
  match w.run.epi with
  | [] => false
  | v :: _ => w.op.kind == kXbar && s.spillsReady w v && !(w.run.waitWin.any fun x => x.2.2)

/-- Whether the first staged token has a pass under way; its last one needs room in the epilogue. -/
def State.passDue (w : Work) (s : State) : Bool :=
  match w.run.staged with
  | [] => false
  | k :: _ =>
    let all := w.drives k.idx
    w.op.kind == kXbar && k.degen.isNone && w.job.capMode != 2 && (all.any fun d => d.wave == w.run.wave)
      && (!w.lastPass (waveCount all) || w.run.epi.isEmpty || s.epiReady w)

/-- Whether the conditioner is at a token. -/
def Work.atToken (w : Work) : Bool :=
  w.op.kind == kXbar && w.run.started && w.run.waitWin.isNone && w.run.next.any w.run.hasRoom

/-- The sections that the units of a stage are in. -/
def State.underWay (w : Work) (s : State) : Stop :=
  { pass := s.passDue w, epi := s.epiReady w, burst := (s.turnOf w).isSome
    instr := w.op.kind == kTat && w.run.started && w.run.waitWin.isNone && w.run.next.isSome, cond := w.atToken }

/-- Whether a unit may still finish its section: 0 and 4 the conditioner, 1 the epilogue, 2 the tatting unit, 3 the DMA
engine, 5 the bobbins; no other work begins. -/
def Stop.has (u : Nat) (t : Stop) : Bool :=
  if u = 1 then t.epi else if u = 2 then t.instr else if u = 3 then t.burst else if u = 5 then t.pass
  else (u == 0 || u == 4) && t.cond

/-- A unit has reached its pre-emption point. -/
def Stop.clear (u : Nat) (t : Stop) : Stop :=
  { pass := t.pass && u != 5, epi := t.epi && u != 1, burst := t.burst && u != 3, instr := t.instr && u != 2
    cond := t.cond && u != 0 && u != 4 }

/-- Whether a unit of a stage may go on: it has not been asked to stop, or is in the section it was in then. -/
def Run.may (u : Nat) (r : Run) : Bool := r.stop.elim true (Stop.has u)

/-- The stage on pillow p is asked to stop: every unit ends the section it is in, but unit u, which is at its
pre-emption point (R39, R245). -/
def State.askStop (p u : Nat) (s : State) : State :=
  match (s.pillow p).run.bind fun r => s.workOf p r with
  | none => s
  | some w => s.modRun p fun r => { r with stop := some ((r.stop.getD (s.underWay w)).clear u) }

/-- Whether every unit of a stage that has been asked to stop is at its pre-emption point. The conditioner is at one
after each 1,024 values (R93). -/
def State.atRest (w : Work) (s : State) : Bool :=
  match w.run.stop with
  | none => false
  | some t =>
    let n := s.underWay w
    !((t.pass && n.pass) || (t.epi && n.epi) || (t.burst && n.burst) || (t.instr && n.instr))

/-! ## Stages leave the banks -/

/-- Takes the stages of a context that meet f from a pillow's queues, banks and save slots. -/
def Pillow.without (c : Nat) (f : Nat → Bool) (x : Pillow) : Pillow :=
  let stays (d k : Nat) : Bool := !(d == c && f k)
  let run (r : Run) : Bool := stays r.ctx r.stage
  { x with
    readyQ := x.readyQ.filter fun e => stays e.1 e.2
    looseQ := x.looseQ.filter fun e => stays e.1 e.2
    run := x.run.filter run
    standby := x.standby.filter run
    saving := x.saving.filter fun v => run v.run
    restoring := x.restoring.filter fun v => run v.run
    saves := x.saves.filter fun v => run v.run }

/-- Every stage of a context leaves every pillow. -/
def State.stopJob (c : Nat) (s : State) : State :=
  { s with pillows := tmapTo (fun _ => {}) (fun _ x => x.without c fun _ => true) nPillows s.pillows }

/-- The table entries of an owner, and the windows of a template or of a loose job's context, are free
(R145, R210). -/
def Pillow.freeOwner (owner : Nat) (pinned : Bool) (n : Nat) (x : Pillow) : Pillow :=
  { x with
    qdesc := x.qdesc.filter fun e => e.2.elim true fun e => e.owner != owner
    edesc := x.edesc.filter fun e => e.2.elim true fun e => e.owner != owner
    act := x.act.filter fun e => e.2.elim true fun e => e.owner != owner
    windows := x.windows.filter fun e => !(e.2.claimed && e.2.pinned == pinned && e.2.owner == n) }

/-- The same on every pillow. -/
def State.freeOwner (owner : Nat) (pinned : Bool) (n : Nat) (s : State) : State :=
  { s with pillows := tmapTo (fun _ => {}) (fun _ x => x.freeOwner owner pinned n) nPillows s.pillows }

/-- The physical pillows a job has stages on. -/
def Job.pillows (j : Job) : List Nat := (j.stages.map fun x => x.2.pillow).eraseDups

/-- The monitors of R111 take a job that ends: it used the watched descriptor in static mode, and its span
was coarse. -/
def State.countMonitors (c : Nat) (j : Job) (s : State) : State :=
  j.pillows.foldl (fun s p =>
    s.modPillow p fun x =>
      match tget (fun _ => none) x.qdesc x.qc.monDesc with
      | some e =>
        match (j.occ.find? fun o => o.1 == 256 * p + e.index && e.owner == j.owner c), j.spanOf e.index with
        | some _, some n =>
          { x with cnt := { x.cnt with
            qcJobs := satAdd 0xFFFF_FFFF x.cnt.qcJobs 1
            qcCoarse := satAdd 0xFFFF_FFFF x.cnt.qcCoarse (if n < x.qc.thresh then 1 else 0) } }
        | _, _ => x
      | none => x) s

/-- A job ends: its context is free, a loose job's entries and windows with it, and what its pillows held
for its sheet (R54, R145, R210). -/
def State.dropJob (c : Nat) (s : State) : State :=
  match s.job c with
  | none => s
  | some j =>
    let s := (s.countMonitors c j).setJob c none
    let s := if j.pinned then s else s.freeOwner (j.owner c) false c
    j.pillows.foldl (fun s p => s.settle p) s

/-- The stage that holds the RECORD (R153). -/
def Prick.recordStage (p : Prick) : Nat :=
  ((List.range p.nOps).find? fun i => (p.op i).kind == kRecord).elim 0 fun i => (p.op i).stage

/-- The pillow that commits a job's records. -/
def State.recordPillow (j : Job) (s : State) : Nat := (j.stage (s.prkOf j).recordStage).pillow

/-- No further work of a job runs: every stage is done, and its record is due. -/
def Job.ended (j : Job) : Job :=
  { j with dead := true, stages := j.stages.map fun (k, x) => (k, { x with phase := .done }) }

/-- Whether a context's stage runs on a pillow. -/
def State.inRun (c : Nat) (s : State) : Bool := s.pillows.any fun (_, x) => x.run.any fun r => r.ctx == c

/-- The last running stage of an aborted loose job has stopped: its entries and windows are free, and a JOB_ABORT of it
is answered (R145, R210, R253, R254, R437). -/
def State.deadLeft (c : Nat) (s : State) : State :=
  match s.job c with
  | none => s
  | some j =>
    if !j.dead || j.pinned || s.inRun c then s
    else
      let s := (s.countMonitors c j).freeOwner (j.owner c) false c
      let s := j.pillows.foldl (fun s p => s.settle p) s
      match j.aborting with
      | some h => (s.modJob c fun j => { j with aborting := none }).done h Op.jobAbort 1 []
      | none => s

/-- A loose job is aborted with a result status (R253); DATA_POISONED takes the place of MAP_FAULT. Its slots are free,
and its running stages stop at their next pre-emption points. -/
def State.abortJob (c status : Nat) (s : State) : State :=
  match s.job c with
  | none => s
  | some j =>
    let st := if j.result = Status.dataPoisoned then j.result else status
    let out (x : Pillow) : Pillow := { x.without c (fun _ => true) with run := x.run }
    let s := { s with pillows := tmapTo (fun _ => {}) (fun _ x => out x) nPillows s.pillows }
    let s := s.setJob c (some { j.ended with result := st })
    (j.pillows.foldl (fun s p => if (s.pillow p).run.any fun r => r.ctx == c then s.askStop p 6 else s) s).deadLeft c

/-- A job that a JOB_ABORT has asked to stop ends when none of its stages is in progress: the reply goes,
and no record (R254, R437). -/
def State.abortAsked (c : Nat) (s : State) : State :=
  match s.job c with
  | some j =>
    match j.aborting with
    | some h =>
      let busy := s.pillows.any fun (_, x) =>
        (x.run.any fun r => r.ctx == c) || (x.saving.any fun v => v.run.ctx == c)
          || x.restoring.any fun v => v.run.ctx == c
      if j.dead || busy then s else ((s.stopJob c).dropJob c).done h Op.jobAbort 1 []
    | none => s
  | none => s

/-! ## Displaced work (R493, R494, R496) -/

/-- Whether a job's pricking names one of some slots; an empty list names every job. -/
def State.usesSlot (slots : List Nat) (j : Job) (s : State) : Bool :=
  slots.isEmpty || (s.prkOf j).slots.any slots.contains

/-- The pillow to which a pinned job's stage moves: the other map's, where that pillow is the twin of p and
in service (R435, R493). -/
def State.moveTo (p k : Nat) (j : Job) (s : State) : Option Nat :=
  match s.template j.template with
  | none => none
  | some t =>
    let other := if (mapOf t.p j.inst) = t.p.mapA then t.p.mapB else t.p.mapA
    let l := ((s.prkOf j).stage k).pillow
    let q := if nth j.map l = nth t.p.mapA l then nth t.p.mapB l else nth t.p.mapA l
    let q := if q = p then nth other l else q
    if q ≠ p ∧ q < nPillows ∧ s.inService q then some q else none

/-- Moves the fence counters of a job from one pillow to another. -/
def moveFences (p q : Nat) (t : Tbl Nat) : Tbl Nat :=
  (List.range 32).foldl (fun t i =>
    let n := tget (fun _ => 0) t (fenceKey p i)
    tset (fun _ => 0) (fenceKey p i) 0 (tset (fun _ => 0) (fenceKey q i) (tget (fun _ => 0) t (fenceKey q i) + n) t)) t

/-- The stages of a job on pillow p move to pillow q: what has started begins again (R493). -/
def State.moveJob (c p q : Nat) (s : State) : State :=
  match s.job c with
  | none => s
  | some j =>
    let ks := (j.stages.filter fun x => x.2.pillow == p && x.2.phase != .done).map Prod.fst
    let started := ks.any fun k => (j.stage k).phase == .running || (j.stage k).phase == .suspended
    let ready := ks.filter fun k => (j.stage k).phase != .waiting
    let j := { j with
      stages := j.stages.map fun (k, x) =>
        (k, if ks.contains k then { x with pillow := q } else x)
      map := j.map.map fun m => if m = p then q else m
      fences := moveFences p q j.fences
      recomputed := j.recomputed || started }
    let s := (s.modPillow p fun x => x.without c ks.contains).setJob c (some j)
    ready.foldl (fun s k => s.makeReady c k) s

/-- A pinned job that has lost its pillow runs no more work: SLOT_OFFLINE, its guarantee withdrawn
(R494). -/
def State.offlineJob (c : Nat) (s : State) : State :=
  (s.stopJob c).modJob c fun j => { j.ended with offline := true, withdrawn := true }

/-- A pillow's taint ends when its queue of ready pinned stages is empty: none is ready, runs or stands by (R52). -/
def State.endTaint (p : Nat) (s : State) : State :=
  let x := s.pillow p
  let runs := x.run.any fun r => (s.job r.ctx).any Job.pinned
  if x.taint && x.readyQ.isEmpty && x.standby.isNone && !runs then s.setPillow p { x with taint := false } else s

/-- The pinned work on pillow p of some slots' templates moves to the twin, or is withdrawn. Answers how
many jobs moved, how many lost their guarantee, and the pillows that have new work. -/
def State.displace (p : Nat) (slots : List Nat) (s : State) : Nat × Nat × List Nat × State :=
  s.liveJobs.foldl (fun (m, n, ps, s) (c, j) =>
    let ks := (j.stages.filter fun x => x.2.pillow == p && x.2.phase != .done).map Prod.fst
    match ks with
    | [] => (m, n, ps, s)
    | k :: _ =>
      if !j.pinned || !s.usesSlot slots j then (m, n, ps, s)
      else match s.moveTo p k j with
        | some q => (m + 1, n, q :: ps, s.moveJob c p q)
        | none => (m, n + 1, ps, s.offlineJob c)) (0, 0, [], s)

/-- The loose jobs that meet f are aborted with DATA_POISONED. -/
def State.abortLoose (f : Nat → Job → Bool) (s : State) : State :=
  s.liveJobs.foldl (fun s (c, j) =>
    if !j.pinned && !j.dead && f c j then s.abortJob c Status.dataPoisoned else s) s

/-- Whether a template's share of a pillow that has failed out has no other pillow in service to stand on. -/
def State.shareLost (p : Nat) (t : Template) (s : State) : Bool :=
  (List.range nPillows).any fun l =>
    let a := nth t.p.mapA l
    let b := nth t.p.mapB l
    (a == p && (b == p || decide (nPillows ≤ b) || !s.inService b))
      || (b == p && (a == p || decide (nPillows ≤ a) || !s.inService a))

/-- The GUARANTEE report of a pillow that has failed out, for the lowest template whose share is of single
placement there; n contexts have lost theirs (R494, R496). -/
def State.reportOut (p n : Nat) (s : State) : State :=
  match s.admitted.find? fun (_, t) => s.shareLost p t with
  | some (k, _) => s.guarantee 1 k 0xFF n p
  | none => if n = 0 then s else s.guarantee 1 0xFFFF 0xFF n p

/-- A pillow fails out (R496). `cause` is that of PILLOW_OUT. The interruption of a move to the twin lies
within 10 µs and is otherwise free (R490, assumption 13). -/
def State.failOut (p cause : Nat) (s : State) : List Nat × State :=
  if s.failedOut p then ([], s)
  else
    let s := s.faultOn p
    let s := s.abortLoose fun _ j => j.stages.any fun x => x.2.pillow == p
    let (m, n, ps, s) := s.displace p []
    let s := { s with mgmt := { s.mgmt with pilOut := s.mgmt.pilOut ||| (1#48 <<< p) } }
    let s := (domainSet (6 * p)).foldl (fun s d => s.loseDomain d) s
    let s := { s with power := { s.power with on := setDomains false (domainSet (6 * p)) s.power.on } }
    let s := s.modPillow p fun x =>
      { x with windows := [], tc := [], qdesc := [], edesc := [], act := [], readyQ := [], looseQ := []
               run := none, standby := none, saving := none, restoring := none, saves := [] }
    let s := s.report
      { cls := 3, pillow := p, body := leBytes 1 cause ++ leBytes 2 m ++ leBytes 2 n }
    let s := s.reportOut p n
    let (d, s) := s.draw
    let s := if m = 0 then s else s.covered (d.toNat % 10_001)
    let s := s.liveJobs.foldl (fun s (c, _) => s.deadLeft c) s
    (ps, if s.mgmt.pilOut = BitVec.allOnes 48 then s.enterFatal 5 0 else s)

/-- A fault in a save area fails the pillow out (R257). -/
def State.saveArea (p addr slot : Nat) (s : State) : List Nat × State :=
  (s.report { cls := 2, pillow := p, body := leBytes 8 addr ++ leBytes 1 slot }).failOut p 1

/-- An ACTIVE bobbin enters FAILED (R493, R494): 1 pass check, 2 group check, 3 programming. -/
def State.bobbinFail (p b cause : Nat) (s : State) : List Nat × State :=
  let x := s.bobbin p b
  let n := x.slot
  let serving := ((s.slot n).twins p).filter s.inService
  let placement := if ((s.slot n).twins p).isEmpty then 0 else if serving.isEmpty then 2 else 1
  let s := s.setBobbin p b { x with state := 5, dead := true }
  let s := s.report
    { cls := 4, pillow := p
      body := leBytes 1 b ++ leBytes 1 x.logical ++ leBytes 1 n ++ leBytes 1 cause ++ leBytes 1 placement }
  let s := s.faultOn p
  let s := if cause = 1 then s.abortLoose fun c _ => (s.pillow p).run.any fun r => r.ctx == c else s
  let (_, w, ps, s) := s.displace p [n]
  let s := (s.endTaint p).dropRefresh p
  let s := s.requestRefresh p { source := 1, logical := x.logical, age := s.now }
  let (d, s) := s.draw
  let s := if placement = 1 then s.covered (d.toNat % 10_001)
    else s.guarantee 1 ((s.templateUsing p n).getD 0xFFFF) n w p
  let sound := (List.range 17).countP fun i => (s.bobbin p i).state != 5
  let (ps2, s) := if sound < 16 then s.failOut p 4 else ([], s)
  (p :: ps ++ ps2, s)

/-! ## Save images (R249, R250) -/

/-- The address of a save slot (R249). -/
def slotAddr (p k : Nat) : Nat := 0xB_C000_0000 + p * 0x80_0000 + k * 0x1_0000

/-- The lowest free save slot. -/
def Pillow.freeSlot (x : Pillow) : Option Nat := lowest 128 fun k => !(x.saves.any fun v => v.slot == k)

/-- A fault record as FLT holds it (R250). -/
def fltWord (f : Option FaultRec) : Nat :=
  f.elim 0 fun f => f.va % 2 ^ 48 + fld 48 2 f.kind + fld 50 3 f.unit + flag 53 f.write + flag 54 true

/-- Pads bytes with zeros to n. -/
def padTo (n : Nat) (b : Bytes) : Bytes := b.take n ++ zeros (n - b.length)

/-- The indices of the six levels. -/
def idxBytes (idx : List Nat) : Bytes := (List.range 6).flatMap fun l => leBytes 4 (nth idx l)

/-- SEQ (R185, R250): operation, level indices, token, wave, next nibble, attempts, the bobbins of a pending repeat
with their ranges, the four lengths, and the bobbins that hold partials (layout: DESIGN CHOICE, assumption 51). -/
def Work.seqImage (w : Work) : Bytes :=
  let r := w.run
  let (idx, tok) := r.next.getD ([], 0)
  let ds := (w.drives idx).filter fun d => d.wave == r.wave && r.rep.contains d.tile.logical
  let range (l : Nat) : Nat := match ds.find? fun d => d.tile.logical == l with
    | some d => min 3 (d.tile.rangeH + r.attempt) + 4 * min 3 (d.tile.rangeL + r.attempt)
    | none => 0
  let mask (ls : List Nat) : Nat := ((List.range 16).map fun l => flag l (ls.contains l)).sum
  padTo 64 (leBytes 2 r.op ++ idxBytes idx ++ leBytes 1 tok ++ leBytes 1 r.wave ++ leBytes 1 (flag 0 r.low)
    ++ leBytes 1 r.attempt ++ leBytes 2 (mask r.rep)
    ++ leBytes 8 ((List.range 16).map fun l => range l * 16 ^ l).sum
    ++ (List.range 4).flatMap (fun i => leBytes 4 (nth w.job.len i)) ++ leBytes 2 (mask (r.hi.map Prod.fst)))

/-- COND (R93, R250): read position, running minimum and maximum, first value, constancy flag and read. -/
def Cond.image (c : Option Cond) : Bytes :=
  padTo 32 (c.elim [] fun c => leBytes 4 c.pos ++ leBytes 4 c.lo.toNat ++ leBytes 4 c.hi.toNat ++ leBytes 4 c.first
    ++ leBytes 1 (flag 0 c.same + flag 1 c.second))

/-- WIN (R212, R250): LANDED and RELEASED of windows 0 to 15. -/
def Work.winImage (w : Work) : Bytes :=
  (List.range 16).flatMap fun i => leBytes 4 (w.job.landed (winKey w.p i)) ++ leBytes 4 (w.job.released_ (winKey w.p i))

/-- One entry of DMA (R250). -/
def DmaXfer.image (x : DmaXfer) : Bytes :=
  padTo 64 (leBytes 4 x.op ++ idxBytes x.idx ++ leBytes 4 x.ofs ++ leBytes 8 (fltWord x.fault))

/-- EPI (R250): s, z_q and the output index of the first element. -/
def Work.epiImage (w : Work) (v : EpiVec) : Bytes :=
  leBytes 4 v.scale.toNat ++ leBytes 4 (ofSigned 32 v.zq)
    ++ leBytes 8 (w.flatIndex v.idx v.tok ((w.columns v.idx).headD 0))

/-- The tatting part with its offsets in TAT (R198): position, lanes and token scalars of a vector kernel, accumulators
and coordinates of a matrix kernel. -/
def Work.tatImage (w : Work) : List (Nat × Bytes) :=
  let r := w.run
  let acc (i : Nat) : Int := tget (fun _ => 0) r.acc i
  let head := (0, leBytes 4 (r.tatPos % 2 ^ 24 + fld 24 8 r.tatRead))
  if w.op.arg ≤ 9 then
    let lanes := (List.range 64).flatMap fun l =>
      if inRange 4 w.op.arg 6 then leBytes 4 (ofSigned 32 (acc l)) ++ leBytes 4 (ofSigned 32 (acc (64 + l)))
      else leBytes 8 (ofSigned 64 (acc l))
    let scal := (516, (List.range 4).flatMap fun i => leBytes 4 (ofSigned 32 (r.scal.getD i 0)))
    [head, (4, lanes)] ++ if inRange 4 w.op.arg 6 then [scal] else []
  else
    let nk := max 1 (ceilDiv w.op.tokLen 32)
    [head, (532, (List.range 1024).flatMap fun i => leBytes 4 (ofSigned 32 (acc i))),
     (4628, leBytes 2 (r.tatPos / nk) ++ leBytes 2 (r.tatPos / nk) ++ leBytes 4 (32 * (r.tatPos % nk)))]

/-- The parts of a save image with their offsets (R250): the header, SEQ, and the parts that are present. -/
def Work.saveImage (w : Work) (suspended : Bool) : List (Nat × Bytes) :=
  let r := w.run
  let part (b : Bool) (l : List (Nat × Bytes)) : List (Nat × Bytes) := if b then l else []
  let cond := w.op.kind == kXbar && r.started
  let win := (List.range 16).any fun i =>
    w.job.landed (winKey w.p i) != 0 || w.job.released_ (winKey w.p i) != 0
  let tat := w.op.kind == kTat && r.started
  let tree := w.op.kind == kXbar && !r.acc.isEmpty
  let cols := w.columns ((r.next.map Prod.fst).getD [])
  let state := flag 0 suspended + flag 8 cond + flag 9 win + flag 10 (!r.dma.isEmpty) + flag 11 (!r.epi.isEmpty)
    + flag 12 tat + flag 13 tree + flag 14 (!r.hi.isEmpty)
  [(0x0000, padTo 64 (leBytes 4 (r.ctx % 2 ^ 14 + fld 14 6 r.stage) ++ leBytes 4 state ++ leBytes 8 (fltWord r.fault))),
   (0x0040, w.seqImage)]
    ++ part cond [(0x0080, Cond.image r.cond)] ++ part win [(0x00A0, w.winImage)]
    ++ part (!r.dma.isEmpty) [(0x0120, (r.dma.take 8).flatMap DmaXfer.image)]
    ++ (r.epi.take 1).flatMap (fun v => [(0x0400, w.epiImage v),
      (0x0410, v.accs.flatMap fun x => leBytes 4 (ofSigned 32 x))])
    ++ part tat (w.tatImage.map fun x => (0x2800 + x.1, x.2))
    ++ part tree [(0x4000, cols.flatMap fun c => leBytes 4 (ofSigned 32 (tget (fun _ => 0) r.acc c)))]
    ++ r.hi.map fun x => (0x6000 + 2048 * x.1, padTo 2048 (x.2.flatMap fun v => leBytes 4 (ofSigned 32 v)))

/-- The bytes of a save image (R248, R250). -/
def Work.saveBytes (w : Work) (suspended : Bool) : Nat := ((w.saveImage suspended).map fun x => x.2.length).sum

/-- A stage's staged tokens go, and the conditioner will begin again with the first one still needed (R185, R248). -/
def Run.stopped (r : Run) : Run :=
  match r.staged with
  | [] => r
  | t :: _ => { r with staged := [], again := r.again + r.staged.length, next := some (t.idx, t.tok) }

/-- The conditioner's partial state where it is at a token: its read position is a multiple of 1,024 values that the
spec leaves open, and the running values are those of the values read (R93, assumption 131). One that a resume has not
used yet stays. -/
def State.condState (w : Work) (s : State) : Option Cond × State :=
  match w.run.next with
  | some (idx, tok) =>
    let q := w.prk.qdesc w.op.qdesc
    let k := w.kOf idx
    if !w.atToken then (none, s)
    else if w.run.again = 0 ∧ w.run.cond.isSome then (w.run.cond, s)
    else match s.readToken w 0 q.esize idx tok k with
      | .ok b _ =>
        let (d, s) := s.draw
        let n := d.toNat
        (some (condAt (q.dynamic && n % 2 == 1) (n / 2 % (k / 1024 + 1) * 1024) q (rawElems q.esize k b)
          (slicesOf q k (w.drives idx))), s)
      | _ => (none, s)
  | none => (none, s)

/-- The state that a stage leaves the pillow with. -/
def State.parked (w : Work) (s : State) : Run × State :=
  let (c, s) := s.condState w
  ({ w.run.stopped with cond := c, stop := none }, s)

/-- A loose stage leaves its bank for a save slot. -/
def State.startSave (w : Work) (suspended : Bool) (s : State) : State :=
  let (r, s) := s.parked w
  let x := s.pillow w.p
  let old := x.saves.find? fun v => v.run.ctx == r.ctx && v.run.stage == r.stage
  let slot := match old with
    | some v => v.slot
    | none => x.freeSlot.getD 0
  let v : Saved :=
    { slot := slot, run := r, suspended := suspended, since := s.now
      bytes := ({ w with run := r } : Work).saveBytes suspended }
  let saves := (x.saves.filter fun v => v.slot != slot) ++ [v]
  let s := s.setPillow w.p { x with run := none, saving := some v, saves := saves }
  s.modJob r.ctx (Job.setPhase r.stage (if suspended then .suspended else .ready))

/-- Counts a pre-emption (R199, R259). -/
def State.countPreempt (p : Nat) (s : State) : State :=
  let tat := match (s.pillow p).run.bind fun r => s.workOf p r with
    | some w => w.op.kind == kTat
    | none => false
  s.modPillow p fun x =>
    { x with
      mem := { x.mem with ptPreempt := satAdd 0xFFFF_FFFF x.mem.ptPreempt 1 }
      cnt := { x.cnt with ttPreempt := satAdd 0xFFFF_FFFF x.cnt.ttPreempt (if tat then 1 else 0) } }

/-! ## Operations of a stage (R153) -/

/-- The first operation of a stage from record i on; N_OPS when there is none. -/
def Prick.opFrom (p : Prick) (k i : Nat) : Nat := ((p.opsOf k).find? fun j => decide (i ≤ j)).getD p.nOps

/-- The stage moves to its next operation. -/
def Work.nextOp (w : Work) : Run :=
  { w.run with
    op := w.prk.opFrom w.run.stage (w.run.op + 1), started := false, next := none, staged := [], again := 0
    wave := 0, low := false, attempt := 0, rep := [], hi := [], acc := [], csum := [], leaves := []
    tatRead := 1, tatPos := 0, scal := [], waitWin := none, waitFence := false, lens := [], tab := [], cond := none }

/-- Replaces the run of a pillow. -/
def State.setRun (p : Nat) (r : Run) (s : State) : State := s.modPillow p fun x => { x with run := some r }

/-- The entries of a line table that the operation's iterations use (R164). -/
def Work.tableSpan (w : Work) : Nat :=
  match w.op.dimLevel 1 with
  | some l => if w.op.lineTable then (w.levelSpan [] l).2 else 0
  | none => 0

/-- The work as its operation starts: its lengths and the entries of its line table stand until it ends (R164, R174). -/
def Work.begun (w : Work) (table : Bytes) : Work :=
  { w with tab := (List.range (table.length / 4)).map fun i => numAt (4 * i) 4 table }

/-- The planned count of a level: at LEN_MAX, or without a plan at the length the job was submitted with (R167; DESIGN
CHOICE, assumption 132). -/
def Work.planned (w : Work) (l : Nat) : Nat :=
  let v := w.op.lv l
  let n := v.count (if w.prk.plan then w.prk.lenMax v.lenId else nth w.job.len0 v.lenId)
  let (lo, hi) := w.op.range w.run.stage l n
  hi - lo

/-- The K, M and N iterations, of n levels from l on below the given indices, that a run-time length leaves out of this
stage's share of an operation; those of a level that every token goes through count once a token (R167). -/
def Work.skippedIn (w : Work) : Nat → Nat → List Nat → Nat
  | 0, _, _ => 0
  | n + 1, l, idx =>
    let v := w.op.lv l
    let (lo, hi) := w.levelSpan idx l
    let own := if v.runTime && (v.dim == 2 || v.dim == 3 || v.dim == 5) then
        (w.planned l - (hi - lo)) * (if w.folded l then w.tileToks else 1) else 0
    own + (if v.dim == 1 && w.op.lineTable then
        ((List.range (hi - lo)).map fun i => w.skippedIn n (l + 1) (setNth idx l (lo + i))).sum
      else (hi - lo) * w.skippedIn n (l + 1) idx)

/-- The iterations that run-time lengths leave out of an operation on this stage (R167). -/
def Work.skipped (w : Work) : Nat := w.skippedIn 6 0 [0, 0, 0, 0, 0, 0]

/-- What the start of an operation counts: the clamped entries of a pinned job's line table, the skipped iterations,
and a length that an entry sets to 0 (R164, R167 to R169, R172). -/
def State.countStart (w : Work) (s : State) : State :=
  let cl := if w.job.pinned then w.tab.countP fun v => decide (w.prk.lenMax w.tabId < v) else 0
  let s := s.modJob w.run.ctx fun j =>
    { j with
      clamp := if cl = 0 then j.clamp else j.clamp ||| (1#4 <<< w.tabId)
      zeroed := j.zeroed || w.tab.any fun v => w.clampLen w.tabId v == 0 }
  s.modPillow w.p fun x => { x with cnt := { x.cnt with
    sqTrunc := satAdd 0xFFFF_FFFF x.cnt.sqTrunc cl
    sqSkip := satAdd 0xFFFF_FFFF x.cnt.sqSkip w.skipped } }

/-- A loop operation starts: its line table is read, and then it goes on as `f` says (R164). -/
def State.startOp (w : Work) (f : Work → State → State) (s : State) : Access :=
  match s.readVa w 1 false w.op.ltab (4 * w.tableSpan) with
  | .ok b s =>
    let w := w.begun b
    .ok [] (f w (s.countStart w))
  | r => r

/-- The run of a started operation. -/
def Work.startedRun (w : Work) : Run := { w.run with started := true, lens := w.len, tab := w.tab }

/-- A crossbar or tatting operation starts at its first position; one without any ends at once (R174). -/
def State.enterLoop (w : Work) (s : State) : State :=
  match w.firstPos with
  | none => s.setRun w.p w.nextOp
  | some pos =>
    let s := if w.op.kind = kTat then s.modJob w.run.ctx fun j => { j with worked := true } else s
    s.setRun w.p { w.startedRun with next := some (pos, 0) }

/-- A DMA operation is handed to the engine (R153, R240): one of no iteration completes at once. -/
def State.enterDma (w : Work) (s : State) : State :=
  match w.firstPos with
  | none => (w.dests.foldl (fun s q => s.fenceUp w q w.op.fence) s).setRun w.p w.nextOp
  | some idx =>
    let x : DmaXfer :=
      { op := w.run.op, idx := idx, ofs := 0, async := w.op.async, fault := none, lens := w.len, tab := w.tab }
    let r := if w.op.async then w.nextOp else w.startedRun
    s.setRun w.p { r with dma := w.run.dma ++ [x] }

/-- Whether a DMA operation waits for a place in the engine. -/
def Work.dmaFull (w : Work) : Bool := decide (8 ≤ w.run.dma.length)

/-- A fault is kept in the record of its unit: that of its transfer, which holds it already, or the one of the
sequencer's side, whose first stands (R245, R255). -/
def Run.keepFault (f : FaultRec) (r : Run) : Run :=
  if f.unit = 3 then r else { r with fault := r.fault.orElse fun _ => some f }

/-- The pillow's loose stage meets a fault (R242, R245, R251 to R253): its units stop at their next pre-emption points,
and it will be suspended; or the job is aborted. -/
def State.unitFault (p : Nat) (f : FaultRec) (s : State) : State :=
  match (s.pillow p).run with
  | none => s
  | some r =>
    match s.job r.ctx with
    | none => s
    | some j =>
      let at_ := if f.unit = 3 then 6 else f.unit
      if j.pinned then s
      else if j.dead then
        (s.modJob r.ctx fun j => if f.kind = 3 then { j with result := Status.dataPoisoned } else j).askStop p at_
      else if 2 ≤ f.kind ∨ s.ms.faultWait = 0 then
        let s := s.modPillow p fun x =>
          { x with mem := { x.mem with ptAborts := satAdd 0xFFFF x.mem.ptAborts 1 } }
        (s.abortJob r.ctx (if f.kind = 3 then Status.dataPoisoned else Status.mapFault)).askStop p at_
      else
        let s := s.report
          { cls := 18, pillow := p, ctx := some r.ctx
            body := leBytes 2 f.asid ++ leBytes 8 f.va ++ leBytes 1 f.kind }
        (s.modRun p (Run.keepFault f)).askStop p at_

/-- A unit of the stage waits for a window's line: it is at a pre-emption point (R179). -/
def State.unitWait (p u win : Nat) (line : Int) (write : Bool) (s : State) : State :=
  s.modRun p fun r =>
    { r with waitWin := some (win, line, write), waitSince := s.now, stop := r.stop.map (Stop.clear u) }

/-- A stage ends: its loose successors become ready (R148), its save slot is free (R249), and a job whose
stages are all done ends. Answers the pillows with new work. -/
def State.stageEnd (p : Nat) (r : Run) (s : State) : List Nat × State :=
  match s.job r.ctx with
  | none => ([p], s.modPillow p fun x => { x with run := none })
  | some j =>
    let k := s.prkOf j
    let s := s.setPillow p ((s.pillow p).without r.ctx (· == r.stage))
    let s := s.modJob r.ctx (Job.setPhase r.stage .done)
    let next := if j.pinned then [] else
      (List.range k.nStages).filter fun m => (k.stage m).pred == r.stage
    let s := next.foldl (fun s m => s.makeReady r.ctx m) s
    let left := ((s.job r.ctx).getD j).stages.any fun x => x.2.phase != .done
    let s := if left then s.settle p else s.dropJob r.ctx
    (p :: j.pillows, s.endTaint p)

/-! ## What runs next (R39, R41, R246) -/

/-- A fence that a stage waits for (R178). -/
def State.fenceMet (w : Work) : Bool :=
  decide (w.op.count ≤ w.job.fence (fenceKey w.p w.op.fence))

/-- Whether every other stage of the job has completed (R153). -/
def Work.othersDone (w : Work) : Bool :=
  w.job.stages.all fun x => x.1 == w.run.stage || x.2.phase == .done

/-- Whether no unit of a stage can go on: it waits, and so do its transfers (R179). -/
def State.blocked (p : Nat) (r : Run) (s : State) : Bool :=
  match s.workOf p r with
  | none => true
  | some w =>
    let stuck :=
      match r.waitWin with
      | some x => !s.lineReady p w.job x && r.staged.isEmpty && (r.epi.isEmpty || x.2.2)
      | none =>
        if w.prk.nOps ≤ r.op then true
        else if w.op.kind = kFence then r.waitFence && !State.fenceMet w
        else if w.op.kind = kRecord then !w.othersDone
        else w.op.kind == kDma && (r.started || decide (8 ≤ r.dma.length))
    stuck && !(w.prk.nOps ≤ r.op && r.dma.isEmpty)
      && r.dma.all fun x => x.fault.isSome || s.xferWaits w x

/-- A pinned stage takes the pillow: what runs on a tainted pillow carries OVERSPEED (R52). -/
def State.placeRun (p : Nat) (r : Run) (s : State) : State :=
  let x := s.pillow p
  let s := s.setPillow p { x with run := some r }
  s.modJob r.ctx fun j =>
    let j := j.setPhase r.stage .running
    if x.taint && j.pinned then { j with overspeed := true } else j

/-- A stage starts on a pillow: the context is read (R257), and without sheet boundaries the scale sets in
force are kept for the job (R109). Answers the pillows with new work where the read fails it out; what is placed
again writes the entry anew. -/
def State.startRun (p c k : Nat) (s : State) : List Nat × State :=
  let s := (s.idleAdopt p).meetErrs (csBase + 256 * c) 256
  match s.poisonIn (csBase + 256 * c) 256 with
  | some a => (s.unpoison (csBase + 256 * c) (csBase + 256 * (c + 1))).saveArea p a 0xFF
  | none =>
    match s.job c with
    | none => ([p], s)
    | some j =>
      let key := 2 ^ 32 * s.sheets.sheet + (s.pillow p).qc.gen
      let s := if s.tb.sheetSrc = 0 ∧ (j.qkeys.any fun x => x.1 == p) = false then
          s.setJob c (some { j with qkeys := tput p key j.qkeys }) else s
      ([p], s.placeRun p { ctx := c, stage := k, op := (s.prkOf j).opFrom k 0 })

/-- Whether a pillow's loose work may start or go on (R41): not at throttle step 2 or above (R526). -/
def State.looseMay (p : Nat) (s : State) : Bool := (s.pillow p).looseEn && decide (s.therm.step < 2)

/-- The first loose stage that may take an idle pillow, with its save slot (R41, R249). -/
def State.nextLoose (p : Nat) (s : State) : Option ((Nat × Nat) × Option Saved) :=
  let x := s.pillow p
  let entry (e : Nat × Nat) : Option Saved := x.saves.find? fun v => v.run.ctx == e.1 && v.run.stage == e.2
  if !s.looseMay p then none
  else
    (x.looseQ.find? fun e =>
      match entry e with
      | some v => !s.blocked p v.run
      | none => decide (x.saves.length < 128)).map fun e => (e, entry e)

/-- The pinned stage that should run next: from the standby bank, or the head of the queue. -/
inductive PinnedNext where
  | standby (r : Run)
  | queued (c k : Nat)
  deriving DecidableEq, Repr

/-- The earliest pinned stage that can run. -/
def State.nextPinned (p : Nat) (s : State) : Option PinnedNext :=
  let x := s.pillow p
  let sb := x.standby.filter fun r => !s.blocked p r
  match sb, x.readyQ.head? with
  | some r, some e => some (if lexLt (s.edfKey e) (s.edfKey (r.ctx, r.stage)) then .queued e.1 e.2 else .standby r)
  | some r, none => some (.standby r)
  | none, some e => some (.queued e.1 e.2)
  | none, none => none

/-- The standby stage where it is the one to run next. -/
def State.standbyNext (p : Nat) (s : State) : Option Run :=
  match s.nextPinned p with
  | some (.standby r) => some r
  | _ => none

/-- The deadline of the next pinned stage. -/
def State.pinnedDeadline (n : PinnedNext) (s : State) : Nat :=
  let d (c k : Nat) : Nat := (s.job c).elim 0 fun j => (j.stage k).deadline
  match n with
  | .standby r => d r.ctx r.stage
  | .queued c k => d c k

/-- The banks in use beside the run (R246). -/
def Pillow.banks (x : Pillow) : Nat :=
  (if x.standby.isSome then 1 else 0) + (if x.saving.isSome then 1 else 0) + (if x.restoring.isSome then 1 else 0)

/-- The standby stage runs again from its bank; an uncorrectable unit there fails the pillow out (R257). -/
def State.resume (p : Nat) (r : Run) (s : State) : List Nat × State :=
  match (s.pillow p).bankPoison with
  | some a => (s.modPillow p fun x => { x with bankPoison := none }).saveArea p a 0xFF
  | none => ([p], s.placeRun p r)

/-- An idle pillow takes its next stage: pinned first, then loose (R38, R41). Loose work starts, or is read back, only
while no bank is in use, so that a pinned stage always finds one (R246; DEDUCED, assumption 123). Answers the pillows
to look at again; none when nothing starts. -/
def State.pick (p : Nat) (s : State) : List Nat × State :=
  let x := s.pillow p
  match s.nextPinned p with
  | some (.standby r) => (s.setPillow p { x with standby := none }).resume p r
  | some (.queued c k) =>
    if x.banks ≤ 1 then (s.setPillow p { x with readyQ := x.readyQ.erase (c, k) }).startRun p c k
    else ([], s)
  | none =>
    match s.nextLoose p with
    | some (e, v) =>
      if x.banks = 0 then
        let y := { x with looseQ := x.looseQ.erase e }
        match v with
        | some v => ([], s.setPillow p { y with restoring := some v })
        | none => (s.setPillow p y).startRun p e.1 e.2
      else ([], s)
    | none => ([], s)

/-- The run leaves the pillow for other work: a pinned stage stands by, a loose one is saved and stays in the
submission order (R246). -/
def State.putAside (w : Work) (s : State) : State :=
  if w.job.pinned then
    let (r, s) := s.parked w
    s.modPillow w.p fun x => { x with run := none, standby := some r, bankPoison := none }
  else
    let s := s.startSave w false
    s.modPillow w.p fun x => { x with looseQ := s.insertLoose (w.run.ctx, w.run.stage) x.looseQ }

/-- A pinned run gives way to the standby stage q: the two change places. -/
def State.swapBanks (w : Work) (q : Run) (s : State) : List Nat × State :=
  let (r, s) := s.parked w
  (s.modPillow w.p fun x => { x with standby := some r }).resume w.p q

/-- Whether the run must leave at a boundary (R39, R41): its job has ended or a JOB_ABORT asks it to; or an earlier
deadline, pinned work over loose, or a loose-enable bit of 0, where a bank is free for it (R246). -/
def State.mustLeave (p : Nat) (r : Run) (s : State) : Bool :=
  match s.job r.ctx with
  | none => true
  | some j =>
    let n := s.nextPinned p
    let free := (s.pillow p).banks == 0
    j.dead || j.aborting.isSome || (if j.pinned then
        (n.any fun n => decide (s.pinnedDeadline n < (j.stage r.stage).deadline)) && ((s.standbyNext p).isSome || free)
      else (n.isSome || !s.looseMay p) && free)

/-- Whether a blocked run gives way to other work (R179): a pinned one to pinned work, so that at most two stages hold
live state (R246; DEDUCED, assumption 123), a loose one to loose work. -/
def State.givesWay (w : Work) (s : State) : Bool :=
  (s.pillow w.p).banks == 0 && (if w.job.pinned then (s.nextPinned w.p).isSome else (s.nextLoose w.p).isSome)

/-- A pre-empted run leaves (R39, R41): it changes places with the standby stage, or frees the pillow. Without a bank
for it, it goes on. -/
def State.preempted (w : Work) (s : State) : List Nat × State :=
  match s.standbyNext w.p, w.job.pinned with
  | some q, true => (s.countPreempt w.p).swapBanks w q
  | _, _ =>
    if (s.pillow w.p).banks = 0 then ([w.p], (s.countPreempt w.p).putAside w)
    else ([], s.modRun w.p fun r => { r with stop := none })

/-- A run whose units are all at their pre-emption points leaves the pillow (R39, R245, R253, R254): the stage of an
ended or aborted job is gone; one that met a fault is suspended, unless a MAP_PAGE has made every record legal
meanwhile; another is pre-empted. -/
def State.leaveRun (w : Work) (s : State) : List Nat × State :=
  let p := w.p
  let r := w.run
  if w.job.dead then ([p], (s.modPillow p fun x => { x with run := none }).deadLeft r.ctx)
  else if w.job.aborting.isSome then
    ([p], (s.setPillow p ((s.pillow p).without r.ctx (· == r.stage))).abortAsked r.ctx)
  else if r.faults = [] then s.preempted w
  else if (s.pillow p).banks ≠ 0 then ([], s)
  else if r.faults.all fun f => s.madeLegal p f then
    ([p], s.putAside { w with run := r.clearFaults })
  else ([p], s.startSave w true)

/-- A run that stands still while its transfers wait for lines waits for the first of them (R186). -/
def State.noteWait (w : Work) (s : State) : State :=
  let r := w.run
  if r.waitWin.isSome || !(w.op.kind == kDma || decide (w.prk.nOps ≤ r.op)) then s
  else match r.dma.findSome? fun x => s.xferLine w x with
    | some l => s.modRun w.p fun r => { r with waitWin := some l, waitSince := s.now }
    | none => s

/-- The wait of the pillow's run for a window's line is over: its time is counted (R186). -/
def State.endWait (p : Nat) (s : State) : State :=
  match (s.pillow p).run with
  | some r =>
    if r.waitWin.isNone then s
    else (s.setRun p { r with waitWin := none }).modPillow p fun y =>
      { y with cnt := { y.cnt with sqWinWait := satAdd 0xFFFF_FFFF y.cnt.sqWinWait (s.now - r.waitSince) } }
  | none => s

/-- The next operation of a run that stands at none starts. -/
def State.startNext (w : Work) (s : State) : List Nat × State :=
  let p := w.p
  let enter (f : Work → State → State) : List Nat × State :=
    match s.startOp w f with
    | .ok _ s => ([p], s)
    | .fault f s => ([p], s.unitFault p f)
    | .wait n l d => ([], s.unitWait p 6 n l d)
  if w.prk.nOps ≤ w.run.op then
    if w.run.dma.isEmpty && w.run.epi.isEmpty then s.stageEnd p w.run else ([], s)
  else if w.op.kind = kXbar ∨ w.op.kind = kTat then enter State.enterLoop
  else if w.op.kind = kDma then if w.dmaFull then ([], s) else enter State.enterDma
  else ([p], s.setRun p { w.startedRun with waitFence := w.op.kind == kFence, waitSince := s.now })

/-- One move of a pillow's sequencer; answers the pillows to look at again, none when it stands. -/
def State.advanceRun (p : Nat) (s : State) : List Nat × State :=
  match (s.pillow p).run with
  | none => s.pick p
  | some r =>
    match s.workOf p r with
    | none => ([p], s.modPillow p fun x => { x with run := none })
    | some w =>
      if r.stop.isSome then if s.atRest w then s.leaveRun w else ([], s)
      else if s.blocked p r then
        if s.mustLeave p r then s.leaveRun w
        else match s.standbyNext p, w.job.pinned with
          | some q, true => s.swapBanks w q
          | _, _ => if s.givesWay w then ([p], s.putAside w) else ([], s.noteWait w)
      else if s.mustLeave p r then ([p], s.askStop p 6)
      else if r.started then ([], s)
      else s.startNext w

/-- Moves the pillows of a list until every one stands, at most `fuel` moves. -/
def State.pump : Nat → List Nat → State → State
  | 0, _, s => s
  | _ + 1, [], s => s
  | fuel + 1, p :: r, s =>
    let (more, s) := s.advanceRun p
    s.pump fuel (more ++ r)

/-- A bound on the moves: every stage of every job and each of its operations, several times over. -/
def State.moves (s : State) : Nat :=
  64 + 64 * (s.liveJobs.map fun (_, j) => (j.stages.length + 1) * ((s.prkOf j).nOps + 4)).sum

/-- Moves pillows as far as they go. -/
def State.settlePillows (ps : List Nat) (s : State) : State := s.pump s.moves ps

/-- Unit u of the pillow's run is at its pre-emption point (R39): a run that must leave is asked to stop, and the
pillow goes on. -/
def State.boundary (p u : Nat) (s : State) : State :=
  (match (s.pillow p).run with
    | some r => if r.stop.isSome || s.mustLeave p r then s.askStop p u else s
    | none => s).settlePillows [p]

/-! ## Events of the scheduler -/

/-- Whether a pillow's machinery works: the device is out of reset and of the fault state, and the pillow is
in service. -/
def State.pillowAlive (p : Nat) (s : State) : Bool := s.alive && s.inService p

/-- STAGE_READY (R40): arises for a pinned stage when device time reaches t_r + O. -/
def execStageReady (t pillow ctx stage : Nat) (s : State) : Out :=
  let s := s.advance t
  .next
    (match s.job ctx with
      | some j =>
        let x := j.stage stage
        if s.alive && j.pinned && !j.dead && x.phase == .waiting && x.pillow == pillow
            && decide (x.readyAt ≤ s.now) then
          (s.makeReady ctx stage).settlePillows [pillow]
        else s
      | none => s)

/-- Writes the parts of a save image to its slot; a unit written over is no longer poisoned. -/
def State.writeImage (a : Nat) (im : List (Nat × Bytes)) (s : State) : State :=
  im.foldl (fun s x => s.store (a + x.1) x.2) s

/-- SAVE_COMPLETE (R248 to R250): the image has been written to its slot and the bank is free. -/
def execSaveComplete (t pillow : Nat) (s : State) : Out :=
  let s := s.advance t
  .next
    (match (s.pillow pillow).saving with
      | some v =>
        if s.alive then
          let a := slotAddr pillow v.slot
          let s := match s.workOf pillow v.run with
            | some w => s.writeImage a (w.saveImage v.suspended)
            | none => s
          let s := s.modPillow pillow fun x =>
            { x with saving := none
                     mem := { x.mem with saveMax := max x.mem.saveMax (min 0xFFFF (200 + ceilDiv v.bytes 32)) } }
          (s.abortAsked v.run.ctx).settlePillows [pillow]
        else s
      | none => s)

/-- A restored stage goes on: it runs where the pillow may take it, waits for its turn, or stops for an abort
(R249, R254). -/
def State.restored (p : Nat) (v : Saved) (s : State) : State :=
  let s := s.modPillow p fun x =>
    { x with restoring := none
             mem := { x.mem with
               restoreMax := max x.mem.restoreMax (min 0xFFFF (200 + ceilDiv v.bytes 32)) } }
  let x := s.pillow p
  let e := (v.run.ctx, v.run.stage)
  if ((s.job v.run.ctx).bind Job.aborting).isSome then (s.abortAsked v.run.ctx).settlePillows [p]
  else if x.run.isSome || (s.nextPinned p).isSome || !s.looseMay p then
    (s.setPillow p { x with looseQ := s.insertLoose e x.looseQ }).settlePillows [p]
  else (s.placeRun p v.run).settlePillows [p]

/-- RESTORE_COMPLETE (R248, R257): the stage runs again, unless pinned work has taken the pillow. An
uncorrectable unit of the slot fails the pillow out. -/
def execRestoreComplete (t pillow : Nat) (ecc : Ecc) (s : State) : Out :=
  let s := s.advance t
  .next
    (match (s.pillow pillow).restoring with
      | some v =>
        if s.alive then
          let a := slotAddr pillow v.slot
          let s := if ecc = .clean then s else s.countHbm a (ecc == .uncorrectable)
          let im := (s.workOf pillow v.run).elim [] fun w => w.saveImage v.suspended
          let s := im.foldl (fun s x => s.meetErrs (a + x.1) x.2.length) s
          if ecc = .uncorrectable ∨ im.any fun x => (s.poisonIn (a + x.1) x.2.length).isSome then
            let x := s.saveArea pillow a v.slot
            x.2.settlePillows (pillow :: x.1)
          else s.restored pillow v
        else s
      | none => s)

/-- FENCE_WAIT_END (R178): the FENCE of the pillow's run has its count; it subtracts COUNT and completes. -/
def execFenceWaitEnd (t pillow : Nat) (s : State) : Out :=
  let s := (s.advance t).settlePillows (if s.alive then [pillow] else [])
  .next
    (match (s.pillow pillow).run.bind fun r => s.workOf pillow r with
      | some w =>
        if s.alive && w.run.waitFence && w.run.stop.isNone && State.fenceMet w then
          let k := fenceKey pillow w.op.fence
          let s := s.modJob w.run.ctx fun j =>
            { j with fences := tset (fun _ => 0) k (j.fence k - w.op.count) j.fences }
          let s := s.modPillow pillow fun x =>
            { x with cnt := { x.cnt with
              sqFenceWait := satAdd 0xFFFF_FFFF x.cnt.sqFenceWait (s.now - w.run.waitSince) } }
          (s.setRun pillow w.nextOp).boundary pillow 6
        else s
      | none => s)

/-- WINDOW_WAIT_END (R212): the line that the pillow's run waits for has landed or been released. -/
def execWindowWaitEnd (t pillow : Nat) (s : State) : Out :=
  let s := (s.advance t).settlePillows (if s.alive then [pillow] else [])
  .next
    (match (s.pillow pillow).run with
      | some r =>
        match r.waitWin, s.job r.ctx with
        | some x, some j =>
          if s.alive && s.lineReady pillow j x then (s.endWait pillow).settlePillows [pillow] else s
        | _, _ => s
      | none => s)

/-- FAULT_WAIT_EXPIRY (R252): a suspended stage of the context has waited FAULT_WAIT with a fault still
illegal. -/
def execFaultWaitExpiry (t ctx : Nat) (s : State) : Out :=
  let s := s.advance t
  let late (v : Saved) : Bool :=
    v.suspended && v.run.ctx == ctx && decide (v.since + s.ms.faultWait * 1_000_000 ≤ s.now)
  .next
    (match (List.range nPillows).find? fun p => (s.pillow p).saves.any late with
      | some p =>
        if s.alive then
          let s := s.modPillow p fun x =>
            { x with mem := { x.mem with ptAborts := satAdd 0xFFFF x.mem.ptAborts 1 } }
          let ps := (s.job ctx).elim [] Job.pillows
          (s.abortJob ctx Status.mapFault).settlePillows ps
        else s
      | none => s)

end Sys2Proof.Machine
end

