-- ==== Sys2Proof/Machine/Sdio.lean ====
section
/-! DEFINITION. The SDIO attachment (R379 to R401): the card's commands, function 0, the mailbox and
reply window of function 1, the data port of function 2, and the transport bytes. -/

namespace Sys2Proof.Machine

/-- The card answers on the bus: out of reset, and from 1 ms after the reset's end (R400, R401). -/
def State.sdServes (s : State) : Bool := s.up && decide (s.mgmt.resetAt + 1_000_000 ≤ s.now)

/-- The card answers CMD52 and CMD53: it serves and is selected. -/
def State.sdSelected (s : State) : Bool := s.sdServes && s.sdio.card == .selected

/-- A function can be reached: the card is selected and the function is ready (R401). -/
def State.sdFunction (fn : Nat) (s : State) : Bool := s.sdSelected && s.sdio.ioReady.getLsbD fn

/-- The 1.8 V signalling strap (R381, R453). -/
def State.sd18 (s : State) : Bool := bitOf 2 s.power.straps.toNat

/-- Sets the card's state and answer. -/
def State.sdAnswer (c : CardState) (r : SdResp) (s : State) : State :=
  { s with sdio := { s.sdio with card := c, resp := r } }

/-! ## The card -/

/-- CMD0: the card's idle state, in SD mode (R380). -/
def execCmd0 (t : Nat) (s : State) : Out :=
  let s := s.advance t
  .next (if s.sdServes && s.sdio.card != .inactive then
      { s with sdio := { s.sdio with card := .idle, rca := 0, resp := .silent } }
    else s)

/-- Whether CMD5's response carries the card-ready bit: from 5 ms after the reset's end it does;
between 1 ms and 5 ms the spec leaves it open (R401) and a free value decides. -/
def State.cardReady (s : State) : Bool × State :=
  if 5_000_000 ≤ s.now - s.mgmt.resetAt then (true, s)
  else let (w, s) := s.draw; (w.getLsbD 0, s)

/-- The answer to CMD5 in the idle or initialised state: an I/O-only card of two functions beside function 0 (R379,
R383); a ready card leaves its idle state (R381). -/
def State.cmd5 (s : State) : State :=
  s.cardReady.2.sdAnswer (if s.cardReady.1 then .initialised else s.sdio.card) (.cmd5 s.cardReady.1 2 false s.sd18)

/-- CMD5: the I/O-only response, with S18A under the 1.8 V strap (R381, R401). -/
def execCmd5 (t : Nat) (s : State) : Out :=
  let s := s.advance t
  .next (if s.sdServes && (s.sdio.card == .idle || s.sdio.card == .initialised) then s.cmd5 else s)

/-- CMD3: the card publishes a relative address, whose value the spec leaves open (R380): a free value,
not 0. -/
def execCmd3 (t : Nat) (s : State) : Out :=
  let s := s.advance t
  if s.sdServes && (s.sdio.card == .initialised || s.sdio.card == .standby) then
    let (w, s) := s.draw
    let rca : BitVec 16 := if w.truncate 16 = 0#16 then 1 else w.truncate 16
    .next { s with sdio := { s.sdio with card := .standby, rca := rca, resp := .address rca } }
  else .next s

/-- CMD7: selects a card in standby, deselects a selected one (R380). -/
def execCmd7 (t : Nat) (select : Bool) (s : State) : Out :=
  let s := s.advance t
  .next (if !s.sdServes then s
    else if select && s.sdio.card == .standby then s.sdAnswer .selected .ack
    else if !select && s.sdio.card == .selected then s.sdAnswer .standby .silent
    else s)

/-- CMD11: answered only under the 1.8 V strap; the lines already stand at 1.8 V (R381). -/
def execCmd11 (t : Nat) (s : State) : Out :=
  let s := s.advance t
  .next (if s.sdServes && s.sd18 && s.sdio.card == .initialised then
      { s with sdio := { s.sdio with uhs := true, resp := .ack } }
    else s)

/-- CMD15: the card's inactive state (R380). -/
def execCmd15 (t : Nat) (s : State) : Out :=
  let s := s.advance t
  .next (if s.sdServes && (s.sdio.card == .standby || s.sdio.card == .selected) then
      s.sdAnswer .inactive .silent
    else s)

/-- CMD19: tuning, in a UHS-I mode (R379, R380). -/
def execCmd19 (t : Nat) (s : State) : Out :=
  let s := s.advance t
  .next (if s.sdSelected && s.sdio.uhs then
      { s with sdio := { s.sdio with tuned := true, resp := .ack } }
    else s)

/-! ## Function 2 transfers -/

/-- The blocks of a transfer of n bytes (R392). -/
def f2Blocks (n : Nat) : Nat := ceilDiv n 2048

/-- Whether a transfer runs device to host: the trim read (R392). -/
def Xfer.toHost (x : Xfer) : Bool := x.kind == 4

/-- Blocks still to move; 0xFFFF while a manifest's length is unknown (R397). -/
def Xfer.remain (x : Xfer) : Nat :=
  match x.total with
  | none => 0xFFFF
  | some n => min 0xFFFF (f2Blocks n - x.taken)

/-- Whether the transfer has moved its last block. -/
def Xfer.full (x : Xfer) : Bool :=
  match x.total with
  | none => false
  | some n => decide (f2Blocks n ≤ x.taken)

/-- A block taken. A manifest's length, SIG_OFS + SIG_LEN, is known once its bytes 0x30 to 0x37 have arrived
(R308, R392). -/
def Xfer.take (x : Xfer) (d : Bytes) : Xfer :=
  let buf := x.buf ++ d
  { x with
    taken := x.taken + 1, buf := buf
    total := if x.kind = 1 ∧ x.total.isNone ∧ 0x38 ≤ buf.length then some (numAt 0x30 4 buf + numAt 0x34 4 buf)
      else x.total }

/-- A block of a shard goes to its final place in HBM as it arrives; one already verified and not stale is taken in
and discarded, as are the bytes past the shard's count (R315). -/
def State.placeBlock (x : Xfer) (d : Bytes) (s : State) : State :=
  let b := s.bundle x.handle
  let o := 2048 * x.taken
  if x.kind = 2 ∧ (b.state = 1 ∨ b.state = 3) ∧ !b.verified.contains x.index then
    s.store (b.addr (shardBytes * x.index) + o) (d.take (b.shardLen x.index - o))
  else s

/-- A block with a good CRC taken into the open transfer: a trim write or boot image closes at its last
block, a block past the end of a shard or manifest closes it as a mismatch (R392, R394). -/
def State.takeBlock (d : Bytes) (s : State) : State :=
  let b := s.bulk
  match b.xfer with
  | none => { s with bulk := { b with noxfer := true } }
  | some x =>
    if x.toHost then { s with bulk := { b with noxfer := true } }
    else if x.full then
      { s with bulk := { b with excess := true, closed := true, xfer := none, bar := some x } }
    else
      let y := x.take d
      if y.kind = 3 ∧ y.full then { s with bulk := { b with xfer := none, arrived := some y, closed := true } }
      else if y.kind = 5 ∧ y.full then { s with bulk := { b with xfer := none, image := some y, closed := true } }
      else { (s.placeBlock x d) with bulk := { b with xfer := some y } }

/-- A write block with a data CRC error: a negative CRC status and a count (R393, R394). -/
def State.crcFailed (s : State) : State :=
  { s with sdio := { s.sdio with crcCnt := satAdd 0xFF s.sdio.crcCnt 1 } }

/-- F2_BLOCK_WRITE: one data block written to the data port (R383, R393, R394). -/
def execF2BlockWrite (t : Nat) (data : Bytes) (crcOk : Bool) (s : State) : Out :=
  let s := s.advance t
  .next (if !s.sdFunction 2 then s
    else if data.length ≠ 2048 then s.sdAnswer .selected (.r5 true)
    else if crcOk then (s.takeBlock data).sdAnswer .selected (.crcStatus true)
    else s.crcFailed.sdAnswer .selected (.crcStatus false))

/-- The next block of an open trim read; zeros with nothing to serve (R393, R395). -/
def State.serveBlock (s : State) : State :=
  let b := s.bulk
  match b.xfer with
  | some x =>
    if x.toHost && x.ready then
      let y := { x with taken := x.taken + 1 }
      let out := sliceBytes (2048 * x.taken) 2048 x.buf
      if y.full then { s with bulk := { b with xfer := none, closed := true, readOut := out } }
      else { s with bulk := { b with xfer := some y, readOut := out } }
    else { s with bulk := { b with noxfer := true, readOut := zeros 2048 } }
  | none => { s with bulk := { b with noxfer := true, readOut := zeros 2048 } }

/-- F2_BLOCK_READ: one data block read from the data port (R393, R395). -/
def execF2BlockRead (t : Nat) (s : State) : Out :=
  let s := s.advance t
  .next (if s.sdFunction 2 then s.serveBlock else s)

/-! ## The mailbox -/

/-- The packet a mailbox write carries: PRIO and TAG from the header, missing bytes as 0 (R385). -/
def mailboxPacket (data : Bytes) : QPacket :=
  { prio := bitsOf 0 3 (numAt 1 1 data), writer := 0, tag := BitVec.ofNat 32 (numAt 4 4 data),
    data := data }

/-- A complete packet goes whole into the command queue, or is held with the busy on (R386, R387). -/
def State.mailboxTake (data : Bytes) (s : State) : State :=
  let p := mailboxPacket data
  let x := s.queue 0
  if x.wpart.isNone && x.fits 0 p.items then s.putQueue 0 { x with vis := x.vis ++ [p] }
  else ({ s with sdio := { s.sdio with mailbox := some p, mbxBusy := true } }).modQueue 0
    fun y => { y with fullSeen := true }

/-- A further write while a packet is held is answered with busy, and its packet follows the held one (R387). -/
def State.mailboxWait (data : Bytes) (s : State) : State :=
  let d := s.sdio
  { s with sdio := { d with
    mbxBusy := true
    mbxNext := some (d.mbxNext.getD (mailboxPacket data))
    resp := .crcStatus true } }

/-- MAILBOX_WRITE: one CMD53 write to the mailbox (R383, R385 to R387). -/
def execMailboxWrite (t : Nat) (data : Bytes) (crcOk : Bool) (s : State) : Out :=
  let s := s.advance t
  .next (if !s.sdFunction 1 then s
    else if !inRange 1 data.length 512 then s.sdAnswer .selected (.r5 true)
    else if !crcOk then
      let s := s.crcFailed
      { s with sdio := { s.sdio with crcErr := true, resp := .crcStatus false } }
    else if s.sdio.mailbox.isSome then s.mailboxWait data
    else (s.mailboxTake data).sdAnswer .selected (.crcStatus true))

/-- MAILBOX_PACKET_ENTER: the held packet enters when room frees, and the busy ends (R387). -/
def execMailboxPacketEnter (t : Nat) (s : State) : Out := .next (s.advance t).grantMailbox

/-! ## The reply window -/

/-- Bytes remaining of the partly read packet, or of the one R265 selects next (R388). -/
def State.rplLen (s : State) : Nat :=
  let x := s.queue 1
  match x.part with
  | some (p, d) => p.data.length - d
  | none =>
    match selectPacket x.vis with
    | some (p, _) => p.data.length
    | none => 0

/-- The data of item i of a packet. -/
def QPacket.item (p : QPacket) (i : Nat) : Bytes := (p.data.drop (64 * i)).take 64

/-- n bytes delivered from byte d of a packet: the items whose last byte is sent leave the queue, and
bytes beyond the packet read 0 (R388). -/
def State.deliver (p : QPacket) (d n : Nat) (s : State) : State :=
  let x := s.queue 1
  let e := d + n
  let out := sliceBytes d n p.data
  let s := { s with sdio := { s.sdio with readOut := out, resp := .r5 false } }
  if p.data.length ≤ e then
    s.putQueue 1 { x with part := none, last := p.lastItem }
  else
    s.putQueue 1 { x with
      part := some (p, e), last := if e / 64 = d / 64 then x.last else p.qitem (e / 64 - 1) }

/-- A read of n bytes with no word in error: of the partly read packet, else of the one R265 selects;
with none, the last item again, and UNDERRUN (R388, R389). -/
def State.windowClean (n : Nat) (s : State) : State :=
  let x := s.queue 1
  match x.part with
  | some (p, d) => s.deliver p d n
  | none =>
    match selectPacket x.vis with
    | some (p, rest) => (s.putQueue 1 { x with vis := rest }).deliver p 0 n
    | none =>
      ({ s with sdio := { s.sdio with underrun := true, resp := .r5 false,
                                      readOut := sliceBytes 0 n x.last.data } }).putQueue 1
        { x with underrun := true }

/-- The same with the finding of the word check (R267): the rest of a packet with an uncorrectable word
is discarded and the read proceeds as if the packet were absent. -/
def State.windowRead (n : Nat) (ecc : WordEcc) (s : State) : State :=
  let x := s.queue 1
  let s := if x.part.isNone && x.vis = [] then s else s.wordsCorrected 1 ecc.words
  let y := s.queue 1
  match ecc.lost, x.part, selectPacket x.vis with
  | true, some (p, _), _ => ((s.putQueue 1 { y with part := none }).windowClean n).packetLost 1 p
  | true, none, some (p, rest) => ((s.putQueue 1 { y with vis := rest }).windowClean n).packetLost 1 p
  | _, _, _ => s.windowClean n

/-- REPLY_WINDOW_READ: a CMD53 read of n bytes in byte mode (R383, R388, R389). -/
def execReplyWindowRead (t n : Nat) (ecc : WordEcc) (s : State) : Out :=
  let s := s.advance t
  .next (if !s.sdFunction 1 then s
    else if !inRange 1 n 512 then s.sdAnswer .selected (.r5 true)
    else s.windowRead n ecc)

/-! ## Transport bytes -/

/-- F1_STAT (R391). -/
def State.f1Stat (s : State) : Nat :=
  flag 0 (decide (0 < (s.queue 1).packets)) + flag 1 (decide (0 < (s.queue 2).packets))
    + flag 2 s.sdio.credit + flag 3 s.sdio.underrun + flag 4 s.sdio.noteLostFlag + flag 5 s.sdio.crcErr

/-- F2_STAT (R397). -/
def State.f2Stat (s : State) : Nat :=
  flag 0 s.bulk.xfer.isSome + flag 1 (s.bulk.xfer.elim false Xfer.toHost)
    + flag 2 (s.bulk.xfer.elim false fun x => x.toHost && x.ready)
    + flag 3 s.bulk.excess + flag 4 s.bulk.noxfer + flag 5 s.bulk.aborted

/-- F2_REMAIN (R397). -/
def State.f2Remain (s : State) : Nat := s.bulk.xfer.elim 0 Xfer.remain

/-- Clears the flags whose bit of v is 1 (W1C). -/
def w1c (v i : Nat) (b : Bool) : Bool := b && !bitOf i v

/-- A write of a function 1 transport byte (R391). -/
def State.f1Write (addr v : Nat) (s : State) : State :=
  let d := s.sdio
  let d :=
    if addr = 0x1000 then
      { d with credit := w1c v 2 d.credit, underrun := w1c v 3 d.underrun,
               noteLostFlag := w1c v 4 d.noteLostFlag, crcErr := w1c v 5 d.crcErr }
    else if addr = 0x1001 then { d with f1IntEn := BitVec.ofNat 8 (v % 8) }
    else if addr = 0x1003 then
      { d with creditTh := if inRange 1 (v % 64) 32 then v % 64 else d.creditTh }
    else d
  { s with sdio := d }

/-- A write of a function 2 transport byte (R397). -/
def State.f2Write (addr v : Nat) (s : State) : State :=
  let b := s.bulk
  let b :=
    if addr = 0x1000 then
      { b with excess := w1c v 3 b.excess, noxfer := w1c v 4 b.noxfer, aborted := w1c v 5 b.aborted }
    else if addr = 0x1002 then { b with intEn := BitVec.ofNat 8 (v % 4) }
    else if addr = 0x1003 then { b with closed := w1c v 0 b.closed }
    else b
  { s with bulk := b }

/-- TRANSPORT_BYTE_WRITE: a CMD52 write, or one byte of a byte-mode CMD53 (R391, R397). -/
def execTransportByteWrite (t fn addr : Nat) (value : Byte) (s : State) : Out :=
  let s := s.advance t
  .next (if !s.sdFunction fn then s
    else
      let s := { s with sdio := { s.sdio with resp := .r5 false } }
      if fn = 1 then s.f1Write addr value.toNat else if fn = 2 then s.f2Write addr value.toNat else s)

/-- What a function 1 transport byte reads (R391): the upper byte of a pair is the one its lower byte froze. -/
def State.f1Value (addr : Nat) (s : State) : Nat :=
  let d := s.sdio
  if addr = 0x1000 then s.f1Stat
  else if addr = 0x1001 then d.f1IntEn.toNat
  else if addr = 0x1002 then s.mbxCredit
  else if addr = 0x1003 then d.creditTh
  else if addr = 0x1004 then s.rplLen % 256
  else if addr = 0x1005 then d.rplHi.getD (s.rplLen / 256)
  else if addr = 0x1006 then (s.queue 1).packets
  else if addr = 0x1007 then s.mgmt.devState
  else if addr = 0x1008 then d.noteLost % 256
  else if addr = 0x1009 then d.noteHi.getD (d.noteLost / 256)
  else if addr = 0x100A then d.crcCnt
  else 0

/-- What a read of a function 1 transport byte freezes, ends or clears (R391); `len` is RPL_LEN. -/
def Sdio.f1Clear (addr len : Nat) (d : Sdio) : Sdio :=
  if addr = 0x1004 then { d with rplHi := some (len / 256) }
  else if addr = 0x1005 then { d with rplHi := none }
  else if addr = 0x1008 then { d with noteHi := some (d.noteLost / 256), noteLost := 0 }
  else if addr = 0x1009 then
    { d with noteHi := none, noteLost := if d.noteHi.isSome then d.noteLost else d.noteLost % 256 }
  else if addr = 0x100A then { d with crcCnt := 0 }
  else d

/-- A read of a function 1 transport byte. -/
def State.f1Read (addr : Nat) (s : State) : Nat × State :=
  (s.f1Value addr, { s with sdio := s.sdio.f1Clear addr s.rplLen })

/-- What a function 2 transport byte reads (R397). -/
def State.f2Value (addr : Nat) (s : State) : Nat :=
  let b := s.bulk
  if addr = 0x1000 then s.f2Stat
  else if addr = 0x1001 then b.xfer.elim 0 Xfer.kind
  else if addr = 0x1002 then b.intEn.toNat
  else if addr = 0x1003 then flag 0 b.closed
  else if addr = 0x1004 then s.f2Remain % 256
  else if addr = 0x1005 then b.remHi.getD (s.f2Remain / 256)
  else 0

/-- What a read of a function 2 transport byte freezes or ends (R397); `n` is F2_REMAIN. -/
def Bulk.f2Clear (addr n : Nat) (b : Bulk) : Bulk :=
  if addr = 0x1004 then { b with remHi := some (n / 256) }
  else if addr = 0x1005 then { b with remHi := none }
  else b

/-- A read of a function 2 transport byte. -/
def State.f2Read (addr : Nat) (s : State) : Nat × State :=
  (s.f2Value addr, { s with bulk := s.bulk.f2Clear addr s.f2Remain })

/-! ## Aborts and the I/O reset -/

/-- An I/O abort of a function (R387, R396). Of function 2 it sets ABORTED where it ends a CMD53 that
moves data of an open transfer; of function 1 it ends the mailbox busy: the held packet stays, a further write that has
met the busy enters nothing. -/
def State.ioAbort (fn : Nat) (inCmd : Bool) (s : State) : State :=
  if fn = 2 then
    if inCmd && s.bulk.xfer.isSome then { s with bulk := { s.bulk with aborted := true } } else s
  else if fn = 1 then { s with sdio := { s.sdio with mbxBusy := false, mbxNext := none } }
  else s

/-- IO_ABORT (R387, R396). -/
def execIoAbort (t fn : Nat) (inCmd : Bool) (s : State) : Out :=
  let s := s.advance t
  .next (if s.sdSelected then s.ioAbort fn inCmd else s)

/-- The end of an open transfer by an I/O reset: a TRIM_READ or TRIM_WRITE replies XFER_ABORTED (R424);
a manifest or shard is discarded, which is no attempt (R396). An open manifest frees its handle; a
bundle that a manifest opened holds nothing yet. -/
def State.endXfer (s : State) : State :=
  match s.bulk.xfer with
  | none => s
  | some x =>
    let s := { s with bulk := { s.bulk with xfer := none } }
    if x.kind = 3 ∨ x.kind = 4 then s.reply x.hdr x.opcode 0 Status.xferAborted []
    else if x.kind = 5 then { s with sec := { s.sec with upd := 0 } }
    else s

/-- The rest of a partly read reply is discarded (R396). -/
def State.dropPartRead (s : State) : State :=
  let x := s.queue 1
  s.putQueue 1 { x with part := none, last := noItem,
                        dropped := satAdd 0xFFFF x.dropped x.partItems }

/-- An I/O reset, CCCR RES (R387, R389, R396): transfers end, a partly read reply goes, the transport
bytes but NOTE_LOST and CRC_CNT and the CCCR return to their reset values, and the card waits to be
initialised again (R400). -/
def State.ioReset (s : State) : State :=
  let had := s.bulk.xfer.isSome
  let s := s.endXfer.dropPartRead
  let d := s.sdio
  { s with
    sdio := { noteLost := d.noteLost, crcCnt := d.crcCnt, mailbox := d.mailbox, notes := d.notes,
              uhs := d.uhs }
    bulk := { aborted := had, arrived := s.bulk.arrived, image := s.bulk.image } }

/-- IO_RESET (R396). -/
def execIoReset (t : Nat) (s : State) : Out :=
  let s := s.advance t
  .next (if s.sdServes then s.ioReset else s)

/-! ## Function 0 -/

/-- CCCR_WRITE: a CMD52 write to the CCCR (R384, R401). SDR50 and SDR104 are taken only after CMD11 and on the 4-bit
bus, which they keep (R379, R381); CMD19 tunes SDR104 once it is selected, as the SDIO specification orders it. The
register addresses are those of the SDIO specification R379 names (PRESUMED, assumption 18): I/O Enable 0x02, Int
Enable 0x04, I/O Abort 0x06, Bus Interface Control 0x07, Card Capability 0x08, Bus Speed Select 0x13, Interrupt
Extension 0x16. -/
def State.cccrWrite (addr v : Nat) (s : State) : State :=
  let d := s.sdio
  if addr = 0x02 then
    { s with sdio := { d with ioEnable := BitVec.ofNat 8 v &&& 0b110, ioReady := BitVec.ofNat 8 v &&& 0b110 } }
  else if addr = 0x04 then { s with sdio := { d with intEnable := BitVec.ofNat 8 v &&& 0b111 } }
  else if addr = 0x06 then
    if bitOf 3 v then s.ioReset else s.ioAbort (v % 8) true
  else if addr = 0x07 then
    { s with sdio := { d with
      busWidth := if v % 4 = 2 ∨ (v % 4 = 0 ∧ d.speedSel ≤ 1) then v % 4 else d.busWidth } }
  else if addr = 0x08 then { s with sdio := { d with e4mi := bitOf 5 v } }
  else if addr = 0x13 then
    let b := bitsOf 1 3 v
    { s with sdio := { d with
      speedSel := if b ≤ 1 ∨ (b ≤ 3 ∧ s.sd18 ∧ d.uhs ∧ d.busWidth = 2) then b else d.speedSel } }
  else if addr = 0x16 then { s with sdio := { d with eai := bitOf 1 v } }
  else s

/-- CCCR_WRITE (R384, R401). -/
def execCccrWrite (t addr : Nat) (value : Byte) (s : State) : Out :=
  let s := s.advance t
  .next (if s.sdSelected then
      let s := { s with sdio := { s.sdio with resp := .r5 false } }
      s.cccrWrite addr value.toNat
    else s)

/-! ## The interrupt -/

/-- Function 1's interrupt request (R398). -/
def State.f1Irq (s : State) : Bool :=
  (s.sdio.f1IntEn.getLsbD 0 && decide (0 < (s.queue 1).packets))
    || (s.sdio.f1IntEn.getLsbD 1 && decide (0 < (s.queue 2).packets))
    || (s.sdio.f1IntEn.getLsbD 2 && s.sdio.credit)

/-- Function 2's interrupt request (R398). -/
def State.f2Irq (s : State) : Bool :=
  (s.bulk.intEn.getLsbD 0 && s.bulk.xfer.elim false fun x => x.toHost && x.ready)
    || (s.bulk.intEn.getLsbD 1 && s.bulk.closed)

/-- Whether the device signals its interrupt on SD_DAT[1] in an interrupt period: in 4-bit mode, with
the function's bit and the master bit set in CCCR Int Enable (R398). -/
def State.sdIrq (s : State) : Bool :=
  s.sdSelected && s.sdio.busWidth == 2 && s.sdio.intEnable.getLsbD 0
    && ((s.sdio.intEnable.getLsbD 1 && s.f1Irq) || (s.sdio.intEnable.getLsbD 2 && s.f2Irq))

/-! ## What function 0 reads -/

/-- A tuple of a CIS: its code, its length and its body. -/
def cisTuple (code : Nat) (body : Bytes) : Bytes := leBytes 1 code ++ leBytes 1 body.length ++ body

/-- The CIS of a function (R384): for function 0 the manufacturer and card codes, its block size and the highest clock
rate; for functions 1 and 2 the largest block and the enable timeout. The tuple codes and their layouts are those of the
SDIO specification (PRESUMED, assumption 18). -/
def cisBytes (fn : Nat) : Bytes :=
  (if fn = 0 then cisTuple 0x20 (leBytes 2 0x5A4E ++ leBytes 2 0x4816) ++ cisTuple 0x22 (leBytes 1 0 ++ leBytes 2 512 ++ leBytes 1 0x2B)
   else cisTuple 0x22 (leBytes 1 1 ++ zeros 11 ++ leBytes 2 (if fn = 1 then 512 else 2048) ++ zeros 14 ++ leBytes 2 2
     ++ zeros 12)) ++ leBytes 1 0xFF

/-- What the CCCR reads (R383, R384, R398, R401). The codes of the CCCR's and SDIO's versions are the SDIO
specification's and stand in no rule; the registers' places are that specification's (PRESUMED, assumption 18). -/
def State.cccrValue (addr : Nat) (s : State) : Nat :=
  let d := s.sdio
  if addr = 0x00 then Config.cccrVersion.toNat
  else if addr = 0x02 then d.ioEnable.toNat
  else if addr = 0x03 then d.ioReady.toNat
  else if addr = 0x04 then d.intEnable.toNat
  else if addr = 0x05 then flag 1 s.f1Irq + flag 2 s.f2Irq
  else if addr = 0x07 then d.busWidth
  else if addr = 0x08 then 0x13 + flag 5 d.e4mi
  else if addr = 0x0A then 0x10
  else if addr = 0x11 then 2
  else if addr = 0x13 then 1 + 2 * d.speedSel
  else if addr = 0x14 then 3
  else if addr = 0x15 then 1
  else if addr = 0x16 then 1 + flag 1 d.eai
  else 0

/-- What function 0 reads: the CCCR, the pointers and block sizes of the FBRs, and the CISs, which stand 256 B apart
from 0x1000 (PRESUMED, assumption 18). -/
def State.f0Value (addr : Nat) (s : State) : Nat :=
  if addr < 0x100 then s.cccrValue addr
  else if addr = 0x10A ∨ addr = 0x20A then 0x10 + addr / 256
  else if addr = 0x111 then 2
  else if addr = 0x211 then 8
  else if inRange 0x1000 addr 0x12FF then ((cisBytes ((addr - 0x1000) / 256)).getD (addr % 256) 0).toNat
  else 0

/-- TRANSPORT_BYTE_READ: a CMD52 read, or one byte of a byte-mode CMD53 (R383, R384, R391, R397). -/
def execTransportByteRead (t fn addr : Nat) (s : State) : Out :=
  let s := s.advance t
  .next (if !(if fn = 0 then s.sdSelected else s.sdFunction fn) then s
    else
      let (v, s) := if fn = 1 then s.f1Read addr else if fn = 2 then s.f2Read addr else (s.f0Value addr, s)
      { s with sdio := { s.sdio with resp := .r5 false, readOut := leBytes 1 v } })

end Sys2Proof.Machine
end

