-- ==== Sys2Proof/Machine/Calibration.lean ====
section
/-! DEFINITION. Calibration (R340 to R357, R364): CAL_RUN and HC_SELFCAL, the trim image (R346 to R350), and
calibration in service: passes, dwells, level scans and seals. -/

namespace Sys2Proof.Machine

/-! ## Elements (R340, R341) -/

/-- The absolute limits of an element (R340, R378). -/
def elemLimits (c : ElemClass) (i : Nat) : Int × Int :=
  match c with
  | .hcFactor => if i = 0 ∨ i = 2 then (-512, 512) else if i = 1 ∨ i = 3 then (31130, 34406) else (-256, 256)
  | .refDac => (0, 4095)
  | .vread => (0, 63)
  | .convOffset => (-128, 128)
  | .convLin => (0, 63)
  | .pathGain => (13107, 19661)
  | .bobbinK => (14746, 18022)

/-- The nominal value of an element, which a CAL_RUN measured where its operand lists none. -/
def elemNominal (c : ElemClass) (i : Nat) : Int :=
  match c with
  | .hcFactor => if i = 1 ∨ i = 3 then 32768 else 0
  | .refDac => 2048
  | .vread => 32
  | .convOffset => 0
  | .convLin => 32
  | .pathGain => 16384
  | .bobbinK => 16384

/-- The row of R340 that names a class in a report. -/
def elemRow (c : ElemClass) : Nat :=
  match c with
  | .hcFactor => 0
  | .refDac => 1
  | .vread => 2
  | .convOffset => 3
  | .convLin => 4
  | .pathGain => 5
  | .bobbinK => 6

/-- Whether a value lies within the absolute limits of its element. -/
def plausible (c : ElemClass) (i : Nat) (v : Int) : Bool :=
  decide ((elemLimits c i).1 ≤ v) && decide (v ≤ (elemLimits c i).2)

/-- A prior value counts only within the absolute limits (R344). -/
def soundPrior (c : ElemClass) (i : Nat) (v : Option Int) : Option Int := v.filter (plausible c i)

/-- What comes of a power-up measurement (R341, R344): its value, else that of its repeat, else the prior value;
and whether the measurement was not adopted. -/
def measJudge (m : Meas) (prior : Option Int) : Option Int × Bool :=
  if plausible m.cls m.index m.value then (some m.value, false)
  else if plausible m.cls m.index m.again then (some m.again, false)
  else (soundPrior m.cls m.index prior, true)

/-- The BOBBIN value of a report on a device-wide element. -/
def noBobbin : Nat := 0xFFFF

/-- The report of the calibration class (R341, R486). -/
def calReport (row bob index : Nat) (v : Int) : ErrReport :=
  { cls := 15, pillow := if bob = noBobbin then 0xFF else bob / 17
    body := leBytes 1 row ++ leBytes 2 bob ++ leBytes 2 index ++ leBytes 4 (ofSigned 32 v) }

/-- Measurements not adopted are counted and raised (R341). -/
def State.keepAll : List ErrReport → State → State
  | [], s => s
  | r :: t, s =>
    (({ s with trim := { s.trim with kept := satAdd 0xFFFF_FFFF s.trim.kept 1 } }).report r).keepAll t

/-- The measurement of an element in a run's operand. -/
def calMeas (x : CalResult) (c : ElemClass) (bob i : Nat) : Option Meas :=
  x.meas.find? fun m => m.cls = c && m.bobbin == bob && m.index == i

/-- A device-wide element's new value, and its report where the measurement was not adopted. -/
def calElement (x : CalResult) (c : ElemClass) (i : Nat) (prior : Option Int) :
    Option Int × List ErrReport :=
  match calMeas x c 0 i with
  | none => (some (elemNominal c i), [])
  | some m =>
    let (v, kept) := measJudge m prior
    (v, if kept then [calReport (elemRow c) noBobbin i m.again] else [])

/-! ## The house converter's factors (R364) -/

/-- Factor k where it has been measured or restored. -/
def House.prior (k : Nat) (x : House) : Option Int := if x.factOk.getLsbD k then some (x.factor k) else none

/-- The twelve factors that a run leaves, each with the reports of its measurement. -/
def House.measured (r : CalResult) (x : House) : List (Option Int × List ErrReport) :=
  (List.range 12).map fun k => calElement r .hcFactor k (x.prior k)

/-- The factors after a run: adopted at once, with TJ and RUNS (R364, R378). -/
def House.calibrated (r : CalResult) (x : House) : House :=
  let vs := (x.measured r).map Prod.fst
  { x with
    fact := (vs.zipIdx.map fun (v, k) => v.getD (x.factor k)) ++ [r.tj, min 0xFFFF (x.factor 13 + 1)]
    factOk := vs.zipIdx.foldl (fun b (v, k) => if v.isSome then b ||| (1#12 <<< k) else b) 0 }

/-- HC_SELFCAL_END: the reply is OK when every factor was adopted (R364); a factor is measured once. The
conversions that waited start (R365). -/
def execHcSelfcalEnd (t : Nat) (res : CalResult) (s : State) : Out :=
  let s := s.advance t
  .next
    (match s.hc.selfcal with
      | none => s
      | some h =>
        if !s.up then s
        else
          let once : CalResult := { res with meas := res.meas.map fun m => { m with again := m.value } }
          let rs := (s.hc.measured once).flatMap Prod.snd
          let s := { s with hc := { s.hc.calibrated once with
            selfcal := s.hc.selfcals.head?, selfcals := s.hc.selfcals.tail } }
          let s := s.keepAll rs
          (if rs = [] then s.reply h Op.hcSelfcal 0 Status.ok []
            else s.reply h Op.hcSelfcal 0 Status.calFail (leBytes 1 0xFF ++ leBytes 1 0xFF)).hcNext)

/-! ## CAL_RUN (R342, R423) -/

/-- The lowest slot in a state that keeps CAL_RUN out. -/
def State.calSlot (s : State) : Option Nat :=
  lowest 64 fun n => let x := (s.slot n).state; x != 0 && x != 2 && x != 6

/-- The lowest pillow with a refresh in progress, and its logical bobbin. -/
def State.calRefresh (s : State) : Option (Nat × Nat) :=
  (List.range nPillows).findSome? fun p => (s.pillow p).refreshing.map fun q => (p, q.logical)

/-- The lowest claimed channel and its sequence. -/
def State.calChannel (s : State) : Option (Nat × Nat) :=
  (lowest 32 fun c => (s.chan c).claimed).map fun c => (c, (s.chan c).seq)

/-- The lowest pillow with a refresh's programming still coming to the end of its row, and its logical bobbin. -/
def State.calDropped (s : State) : Option (Nat × Nat) :=
  (List.range nPillows).findSome? fun p =>
    ((s.pillow p).progs.find? fun q => q.forSlot.isNone || q.stopped).map fun q => (p, q.logical)

/-- Whether a trim transfer is open. -/
def State.trimOpen (s : State) : Bool := s.bulk.xfer.elim false fun x => x.kind == 3 || x.kind == 4

/-- RES_HELD by a running CAL_RUN. -/
def heldByCal (claim : Nat) : Reject := resHeld Op.calRun claim 7 0 noPillow noOwner

/-- What refuses a CAL_RUN that is not the first since reset, in R342's order. -/
def State.calBarred (s : State) : Option Reject :=
  firstOf
    [s.calSlot.map fun n =>
       resHeld (if (s.slot n).state = 1 then Op.slotProgram else Op.slotActivate) Op.calRun 11 n noPillow n,
     s.calRefresh.map fun (p, l) => resHeld Op.calRun Op.calRun 12 l p noOwner,
     s.calDropped.map fun (p, l) => resHeld Op.calRun Op.calRun 12 l p noOwner,
     s.calChannel.map fun (c, q) => resHeld Op.hcConfig Op.calRun 5 c noPillow q,
     require (!s.trimOpen) (s.xferHeld Op.calRun)]

/-- CAL_RUN's own checks (R342, R526). -/
def calRunCheck (s : State) : Option Reject :=
  firstOf
    [require (decide (s.therm.step < 2)) stateRefused,
     require s.trim.cal.isNone (heldByCal Op.calRun),
     if s.trim.holdPwr then none else s.calBarred]

/-- CAL_RUN is accepted: the run starts, and the reply waits for its end (R342, R478). -/
def calRunDo (h : Hdr) (s : State) : State :=
  let s := s.enterTest
  ({ s with trim := { s.trim with cal := some h, calStart := s.now } }).release Op.calRun h.tag

/-- CAL_RUN (R423). -/
def execCalRun (h : Hdr) (s : State) : Out :=
  hostCommand h Op.calRun 0 false none calRunCheck (calRunDo h) s

/-! ## The values of a bobbin -/

/-- The value in force of an element of a bobbin, none where it has none. -/
def Bobbin.value (c : ElemClass) (i : Nat) (b : Bobbin) : Option Int :=
  let nom : Nat → Option Int := fun i => if b.valued then some (elemNominal c i) else none
  match c with
  | .convOffset => tget nom b.offs i
  | .convLin => tget nom b.lin i
  | .pathGain => tget nom b.g0 i
  | .bobbinK => b.kNow.map fun k => (k : Int)
  | .hcFactor => none
  | .refDac => none
  | .vread => none

/-- The measurements of one bobbin, one of each element. -/
def calOfBobbin (x : CalResult) (bob : Nat) : List Meas :=
  x.meas.filter fun m =>
    m.bobbin == bob && (m.cls == .convOffset || m.cls == .convLin || m.cls == .pathGain)
      && calMeas x m.cls bob m.index == some m

/-- The table of a class that a run leaves in a bobbin; an element it does not list is nominal. -/
def Bobbin.newTable (c : ElemClass) (ms : List Meas) (b : Bobbin) : Tbl (Option Int) :=
  (ms.filter fun m => m.cls = c).foldl
    (fun t m => tset (fun i => some (elemNominal c i)) m.index (measJudge m (b.value c m.index)).1 t) []

/-- Whether a run leaves the bobbin without a value, or with a converter that failed step 6 (R344). -/
def Bobbin.unsound (bob : Nat) (r : CalResult) (b : Bobbin) : Bool :=
  ((calOfBobbin r bob).any fun m => (measJudge m (b.value m.cls m.index)).1.isNone)
    || r.failed6.any fun x => x.1 == bob

/-- The reports of a bobbin's measurements that were not adopted. -/
def Bobbin.keptReports (bob : Nat) (r : CalResult) (b : Bobbin) : List ErrReport :=
  ((calOfBobbin r bob).filter fun m => (measJudge m (b.value m.cls m.index)).2).map fun m =>
    calReport (elemRow m.cls) bob m.index m.again

/-- The converters whose KEPT flag a run sets. -/
def Bobbin.keptConvs (bob : Nat) (r : CalResult) (b : Bobbin) : List Nat :=
  ((calOfBobbin r bob).filter fun m =>
    (measJudge m (b.value m.cls m.index)).2 && m.cls != .pathGain).map fun m => m.index / 4

/-- The offsets of an epoch: those in force that are not 0. -/
def Bobbin.offsetTable (b : Bobbin) : Tbl Int :=
  b.offs.filterMap fun (i, v) => match v with
    | some o => if o = 0 then none else some (i, o)
    | none => none

/-- A new epoch's trims are kept where they differ from those of the epoch before. -/
def Bobbin.newSet (e : Nat) (b : Bobbin) : Bobbin :=
  let x : TrimSet := { epoch := e, o := b.offsetTable, k := b.kNow.getD 16384 }
  let old := b.sets.headD { epoch := 0, o := [], k := 16384 }
  if x.o = old.o ∧ x.k = old.k then b else { b with sets := x :: b.sets }

/-- What waits for the next seal is dropped. -/
def Bobbin.noPending (b : Bobbin) : Bobbin :=
  { b with pendO := [], pendLin := [], pendK := none, sumE := 0, sumP := [], grpE := [], grpP := [] }

/-- The bobbin under the epoch that a PASS seals: the measured values, K as it stands or as a programming has
set it, in force at once (R345, R355). -/
def Bobbin.passed (bob e : Nat) (r : CalResult) (b : Bobbin) : Bobbin :=
  let ms := calOfBobbin r bob
  let c := { b with
    valued := true
    offs := b.newTable .convOffset ms
    lin := b.newTable .convLin ms
    g0 := b.newTable .pathGain ms
    kNow := some (b.pendK.getD (b.kNow.getD 16384)) }
  { (c.newSet e).noPending with live := [(0, e)], blocked := false, adoptFrom := 0 }

/-! ## FAILED bobbins (R83, R344) -/

/-- A bobbin that an earlier CAL_RUN failed is found sound: back in its place, or the spare where the pillow has
none. One that is FAILED for another cause stays so (R80). -/
def State.calRecover (p b : Nat) (s : State) : State :=
  let x := s.bobbin p b
  if x.dead then s.setBobbin p b { x with calFailed := false }
  else if x.mapped then s.setBobbin p b { x with state := 6, calFailed := false }
  else (s.setBobbin p b { x with state := 1, calFailed := false }).regainSpare p

/-- A bobbin that a CAL_RUN fails; the spare takes its place in the map, and a pillow with exactly 16 sound
bobbins has no spare (R83, R344). -/
def State.calFailOne (p b : Nat) (s : State) : State :=
  let x := s.bobbin p b
  let y := s.pillow p
  if x.state = 5 then s.setBobbin p b { x with calFailed := true }
  else if y.spare = some b then
    (s.setBobbin p b { x with state := 5, mapped := false, calFailed := true }).loseSpare p b 3
  else
    match y.spare with
    | none => s.setBobbin p b { x with state := 5, calFailed := true }
    | some q =>
      let s := s.setPillow p { y with map := tset (fun l => l) x.logical q y.map }
      let s := s.setBobbin p b { x with state := 5, mapped := false, calFailed := true }
      let s := s.modBobbin p q fun z =>
        { z with state := 6, mapped := true, logical := x.logical, image := none }
      s.loseSpare p 0x1F 3

/-- The bobbins of a pillow outside FAILED. -/
def State.soundCount (p : Nat) (s : State) : Nat := (List.range 17).countP fun b => (s.bobbin p b).state != 5

/-- One pillow's bobbins after a run: recoveries first, then the failures. -/
def State.calPillow (r : CalResult) (p : Nat) (s : State) : State :=
  let bad := (List.range 17).filter fun b => (s.bobbin p b).unsound (17 * p + b) r
  let reps := (List.range 17).flatMap fun b => (s.bobbin p b).keptReports (17 * p + b) r
  let s := (List.range 17).foldl (fun s b =>
    let k := (s.bobbin p b).keptConvs (17 * p + b) r
    s.modBobbin p b fun x => { x with kept := k }) s
  let s := s.keepAll reps
  let s := (List.range 17).foldl (fun s b =>
    if (s.bobbin p b).calFailed && !bad.contains b then s.calRecover p b else s) s
  bad.foldl (fun s b => s.calFailOne p b) s

/-! ## CAL_RUN_END (R343 to R346) -/

/-- The device-wide elements as a run leaves them: the reference DAC's codes, and each pillow's VREAD. -/
structure DieValues where
  refGain : Option Int
  refOfs : Option Int
  vread : List (Option Int)
  reports : List ErrReport
  vreadKept : List Nat
  deriving DecidableEq, Repr

/-- What a run makes of the device-wide elements outside the house converter. -/
def State.dieValues (r : CalResult) (s : State) : DieValues :=
  let g := calElement r .refDac 0 s.trim.refGain
  let o := calElement r .refDac 1 s.trim.refOfs
  let vs := (List.range nPillows).map fun p => calElement r .vread p (tget (fun _ => none) s.trim.vread p)
  { refGain := g.1, refOfs := o.1, vread := vs.map Prod.fst, reports := g.2 ++ o.2 ++ vs.flatMap Prod.snd
    vreadKept := (vs.zipIdx.filter fun x => x.1.2 != []).map Prod.snd }

/-- Whether the reference DAC or the house converter is without a value (R344, R345). -/
def calSourceBad (d : DieValues) (x : House) : Bool :=
  d.refGain.isNone || d.refOfs.isNone || x.factOk != BitVec.allOnes 12

/-- The device state after a CAL_RUN's reply (R478, R489). -/
def State.afterTest (pass : Bool) (s : State) : State :=
  let m := s.mgmt
  if pass ∧ (m.devState = 1 ∨ m.devState = 3) then
    ({ s with mgmt := { m with devState := 2 } }).burnAtService
  else if m.devState = 3 then { s with mgmt := { m with devState := if pass then 2 else 1 } }
  else if m.devState = 4 then { s with mgmt := { m with testReplied := true } }
  else s

/-- A PASS seals the next epoch, which takes effect at once on every bobbin (R345). -/
def State.calPass (r : CalResult) (d : DieValues) (s : State) : State :=
  let e := s.trim.epoch + 1
  let s := (List.range nPillows).foldl (fun s p =>
    (List.range 17).foldl (fun s b => s.modBobbin p b (Bobbin.passed (17 * p + b) e r)) s) s
  { s with trim := { s.trim with
    epoch := e
    binds := [(e, 0)]
    unbound := none
    bound := true
    bindSheet := s.sheets.sheet
    calDone := true
    verdict := true
    serviceOff := false
    sealHeld := false
    sealBase := s.now
    refGain := d.refGain
    refOfs := d.refOfs
    refDev := 0
    vread := d.vread.zipIdx.foldl (fun t (v, p) => tset (fun _ => none) p v t) [] } }

/-- A FAIL clears CAL_DONE; one of the reference DAC or the house converter ends calibration in service
(R345). -/
def State.calFail (source : Bool) (s : State) : State :=
  { s with trim := { s.trim with
    calDone := false, verdict := false, serviceOff := s.trim.serviceOff || source } }

/-- The holds of the run end, and its figures are kept (R342, R346, R359). -/
def State.calOver (s : State) : State :=
  let n := ((List.range nPillows).map fun p => (List.range 17).countP fun b => (s.bobbin p b).calFailed).sum
  { s with trim := { s.trim with
    cal := none, holdPwr := false, failBb := n, calUs := min 0x3_FFFF ((s.now - s.trim.calStart) / 1000) } }

/-- The pillows left with fewer than 16 sound bobbins fail out (R496). -/
def State.calFailOuts : List Nat → List Nat × State → List Nat × State
  | [], x => x
  | p :: r, (ps, s) =>
    let (qs, s) := s.failOut p 4
    State.calFailOuts r (ps ++ qs, s)

/-- What a run's measurements leave: the converter's factors, the device-wide values and what each pillow's
bobbins took (R341, R343). -/
def State.calTake (res : CalResult) (s : State) : State :=
  let reps := (s.hc.measured res).flatMap Prod.snd
  let s := { s with hc := s.hc.calibrated res }
  let d := s.dieValues res
  let s := ({ s with trim := { s.trim with vreadKept := d.vreadKept } }).keepAll (reps ++ d.reports)
  (List.range nPillows).foldl (fun s p => s.calPillow res p) s

/-- The pillows that a run leaves with fewer than 16 sound bobbins. -/
def State.calShort (s : State) : List Nat := (List.range nPillows).filter fun p => decide (s.soundCount p < 16)

/-- The end of a run for CAL_RUN of header h: verdict, fail-outs, reply and device state (R342, R345, R359). `d` are
the device-wide values that were measured. -/
def State.calEnd (h : Hdr) (res : CalResult) (d : DieValues) (s : State) : List Nat × State :=
  let source := calSourceBad d s.hc
  let short := s.calShort
  let wide := source || d.vread.any Option.isNone
  let pass := !wide && short.isEmpty
  let x := State.calFailOuts short ([], (if pass then s.calPass res d else s.calFail source).calOver)
  let s := if pass then x.2.reply h Op.calRun 0 Status.ok []
    else x.2.reply h Op.calRun 0 Status.calFail
      (leBytes 1 (if wide then 0xFF else short.headD 0xFF) ++ leBytes 1 0xFF)
  (x.1, (s.afterTest pass).hcNext)

/-- CAL_RUN_END: arises 180 ms after a CAL_RUN was accepted (R343 to R346, R423). -/
def execCalRunEnd (t : Nat) (res : CalResult) (s : State) : Out :=
  let s := s.advance t
  .next
    (match s.trim.cal with
      | none => s
      | some h =>
        if !(s.alive && decide (s.trim.calStart + 180_000_000 ≤ s.now)) then s
        else
          let x := (s.calTake res).calEnd h res (s.dieValues res)
          x.2.settlePillows x.1)

/-! ## The trim image (R347, R348) -/

/-- The image's size. -/
def trimBytes : Nat := 5_015_552

/-- VREAD's entry of a pillow. -/
def State.vreadField (s : State) (p : Nat) : Nat :=
  ofSigned 6 ((tget (fun _ => none) s.trim.vread p).getD 0) + flag 15 (s.trim.vreadKept.contains p)

/-- A converter's entry; an element without a value stands as a value outside its limits. -/
def Bobbin.convField (b : Bobbin) (c : Nat) : Bytes :=
  ((List.range 4).flatMap fun r => leBytes 2 (ofSigned 16 ((b.value .convOffset (4 * c + r)).getD (-32768))))
    ++ ((List.range 4).flatMap fun k => leBytes 1 (ofSigned 8 ((b.value .convLin (4 * c + k)).getD 0xFF)))
    ++ leBytes 4 (flag 0 (b.kept.contains c))

/-- A bobbin's section (R348). -/
def Bobbin.section (n : Nat) (b : Bobbin) : Bytes :=
  leBytes 2 n ++ leBytes 1 (flag 0 b.valued + flag 1 b.programmed + flag 2 b.calFailed) ++ zeros 1
    ++ leBytes 2 (b.kNow.getD 0) ++ leBytes 2 b.k0 ++ leBytes 2 b.drift ++ zeros 2 ++ leBytes 4 b.progCount
    ++ zeros 48 ++ ((List.range 264).flatMap b.convField)
    ++ ((List.range 520).flatMap fun j => leBytes 2 (ofSigned 16 ((b.value .pathGain j).getD 0)))
    ++ ((List.range 128).flatMap fun i => leBytes 2 (ofSigned 16 (b.base.getD i 0))) ++ zeros 560

/-- The device section before CHECK (R347). -/
def State.trimHead (s : State) : Bytes :=
  leBytes 4 0x4D49_5254 ++ leBytes 2 1 ++ leBytes 2 816 ++ leBytes 8 s.sec.device.toNat ++ leBytes 4 s.trim.epoch
    ++ leBytes 4 (flag 0 s.trim.verdict) ++ leBytes 8 s.now
    ++ leBytes 4 (ofSigned 12 (s.trim.refGain.getD 0) + fld 16 12 (ofSigned 12 (s.trim.refOfs.getD 0))) ++ zeros 12
    ++ ((List.range 16).flatMap fun k => leBytes 4 (ofSigned 16 (s.hc.factor k))) ++ zeros 144
    ++ ((List.range nPillows).flatMap fun p => leBytes 2 (s.vreadField p)) ++ zeros 1688

/-- CHECK: the first 8 B of SHAKE256 over the image with the field zero. -/
def trimCheck (head rest : Bytes) : Bytes := (shake256 (head ++ zeros 8 ++ rest)).take 8

/-- The whole image of the newest sealed epoch. -/
def State.trimImage (s : State) : Bytes :=
  let rest := (List.range 816).flatMap fun n => (s.bobbin (n / 17) (n % 17)).section n
  s.trimHead ++ trimCheck s.trimHead rest ++ rest

/-! ## TRIM_READ (R349, R424) -/

/-- RES_HELD by the function 2 transfer that is open, by the shard whose SHARD_END is still due, or by the trim image
that still awaits its check (assumption 111). -/
def State.trimHeld (claim : Nat) (s : State) : Option Reject :=
  match (s.bulk.xfer.orElse fun _ => s.bulk.bar).orElse fun _ => s.bulk.arrived with
  | some x => some (resHeld x.opcode claim 14 x.kind noPillow noOwner)
  | none => none

/-- TRIM_READ's effect and reply: the snapshot is taken at once, and the bytes follow when its buffer is
ready. -/
def trimReadDo (h : Hdr) (offset length : Nat) (s : State) : State :=
  let x : Xfer :=
    { kind := 4, handle := 0, index := 0, opcode := Op.trimRead, hdr := h, total := some length
      buf := sliceBytes offset length s.trimImage }
  ({ s with bulk := { s.bulk with xfer := some x } }).done h Op.trimRead 0
    (leBytes 4 s.trim.epoch ++ leBytes 4 (f2Blocks length))

/-- TRIM_READ (R424). -/
def execTrimRead (h : Hdr) (offset length : Nat) (s : State) : Out :=
  hostCommand h Op.trimRead 0 false
    (firstOf
      [require (decide (offset % 2048 = 0) && decide (offset < trimBytes)) (paramBadAt 8),
       require (decide (length % 2048 = 0) && decide (0 < length) && decide (offset + length ≤ trimBytes))
        (paramBadAt 0x0C)])
    (fun s => s.trimHeld Op.trimRead) (trimReadDo h offset length) s

/-- TRIM_SNAPSHOT_READY: the buffer of an open trim read is formed (R349, R395). -/
def execTrimSnapshotReady (t : Nat) (s : State) : Out :=
  let s := s.advance t
  .next
    (match s.bulk.xfer with
      | some x =>
        if s.up && x.kind == 4 then { s with bulk := { s.bulk with xfer := some { x with ready := true } } } else s
      | none => s)

/-! ## TRIM_WRITE (R350, R424) -/

/-- The opcode that put a slot in its state. -/
def State.slotHolder (n : Nat) (s : State) : Nat := (s.slot n).op

/-- TRIM_WRITE's own checks. -/
def trimWriteCheck (s : State) : Option Reject :=
  firstOf
    [(lowest 64 fun n => (s.slot n).state != 0).map fun n =>
       resHeld (s.slotHolder n) Op.trimWrite 11 n noPillow n,
     require s.trim.cal.isNone (heldByCal Op.trimWrite), s.trimHeld Op.trimWrite]

/-- TRIM_WRITE is accepted: its transfer opens, and the device goes back to state 1 (R350, R478). -/
def trimWriteDo (h : Hdr) (s : State) : State :=
  let x : Xfer :=
    { kind := 3, handle := 0, index := 0, opcode := Op.trimWrite, hdr := h, total := some trimBytes }
  ({ s with
    bulk := { s.bulk with xfer := some x }
    mgmt := { s.mgmt with devState := if s.mgmt.devState = 2 then 1 else s.mgmt.devState } }).release
      Op.trimWrite h.tag

/-- TRIM_WRITE (R424). -/
def execTrimWrite (h : Hdr) (s : State) : Out :=
  hostCommand h Op.trimWrite 0 false none trimWriteCheck (trimWriteDo h) s

/-- Whether n bytes from o are 0. -/
def zeroAt (o n : Nat) (b : Bytes) : Bool := numAt o n b == 0

/-- The reserved fields of the device section. -/
def trimHeadReserved (b : Bytes) : Bool :=
  decide (numAt 0x14 4 b < 2) && bitsOf 12 4 (numAt 0x20 4 b) == 0 && bitsOf 28 4 (numAt 0x20 4 b) == 0
    && zeroAt 0x24 12 b && ((List.range 16).all fun k => zeroAt (0x32 + 4 * k) 2 b) && zeroAt 0x68 8 b
    && zeroAt 0x70 144 b && ((List.range nPillows).all fun p => bitsOf 6 9 (numAt (0x100 + 2 * p) 2 b) == 0)
    && zeroAt 0x160 1688 b

/-- The reserved fields of a bobbin's section at o. -/
def trimBobbinReserved (o : Nat) (b : Bytes) : Bool :=
  decide (numAt (o + 2) 1 b < 8) && zeroAt (o + 3) 1 b && zeroAt (o + 0xA) 2 b && zeroAt (o + 0x10) 48 b
    && ((List.range 264).all fun c => decide (numAt (o + 0x40 + 16 * c + 12) 4 b < 2)) && zeroAt (o + 0x15D0) 560 b

/-- The checks of a trim image (R350). -/
def State.trimGood (b : Bytes) (s : State) : Bool :=
  decide (b.length = trimBytes) && numAt 0 4 b == 0x4D49_5254 && numAt 4 2 b == 1 && numAt 6 2 b == 816
    && numAt 8 8 b == s.sec.device.toNat && sliceBytes 0x7F8 8 b == trimCheck (b.take 0x7F8) (b.drop 0x800)
    && trimHeadReserved b && (List.range 816).all fun n => trimBobbinReserved (0x800 + 0x1800 * n) b

/-- The table of a class read from an image: an element outside its limits has no value. -/
def restoreTable (c : ElemClass) (n : Nat) (f : Nat → Int) : Tbl (Option Int) :=
  (List.range n).foldl
    (fun t i => tset (fun i => some (elemNominal c i)) i (soundPrior c i (some (f i))) t) []

/-- A bobbin restored from its section at o (R348, R350). -/
def Bobbin.restored (o : Nat) (img : Bytes) (b : Bobbin) : Bobbin :=
  let fl := numAt (o + 2) 1 img
  let conv (i : Nat) : Nat := o + 0x40 + 16 * (i / 4)
  let base := (List.range 128).map fun i => intAt (o + 0x14D0 + 2 * i) 2 img
  { b with
    valued := bitOf 0 fl
    offs := if bitOf 0 fl then restoreTable .convOffset 1056 fun i => intAt (conv i + 2 * (i % 4)) 2 img else []
    lin := if bitOf 0 fl then restoreTable .convLin 1056 fun i => (numAt (conv i + 8 + i % 4) 1 img : Int) else []
    g0 := if bitOf 0 fl then restoreTable .pathGain 520 fun j => (numAt (o + 0x10C0 + 2 * j) 2 img : Int) else []
    programmed := bitOf 1 fl
    kNow :=
      if bitOf 1 fl then (soundPrior .bobbinK 0 (some (numAt (o + 4) 2 img : Int))).map Int.toNat else none
    k0 := numAt (o + 6) 2 img
    drift := numAt (o + 8) 2 img
    progCount := numAt (o + 0xC) 4 img
    base := if bitOf 1 fl && base.any (· != 0) then base else []
    scans := [], scanP := [], scanN := [], pendK := none }

/-- An accepted image gives every element its prior value (R350, R364). A factor outside its limits has none; its
register keeps the value the converter works with (assumption 112). -/
def State.restoreTrim (b : Bytes) (s : State) : State :=
  let s := (List.range 816).foldl (fun s n =>
    s.modBobbin (n / 17) (n % 17) (Bobbin.restored (0x800 + 0x1800 * n) b)) s
  let fs := (List.range 12).map fun k =>
    let v := numAt (0x30 + 4 * k) 2 b
    soundPrior .hcFactor k (some (if k = 1 ∨ k = 3 then (v : Int) else toSigned 16 v))
  { s with
    hc := { s.hc with
      fact := (fs.zipIdx.map fun (v, k) => v.getD (s.hc.factor k)) ++ [s.hc.factor 12, s.hc.factor 13]
      factOk := fs.zipIdx.foldl (fun m (v, k) => if v.isSome then m ||| (1#12 <<< k) else m) 0 }
    trim := { s.trim with
      refGain := some (bitsOf 0 12 (numAt 0x20 4 b) : Int)
      refOfs := some (bitsOf 16 12 (numAt 0x20 4 b) : Int)
      vread := (List.range nPillows).map fun p => (p, some (bitsOf 0 6 (numAt (0x100 + 2 * p) 2 b) : Int))
      calDone := false
      restored := true } }

/-- TRIM_WRITE_CHECK: arises when the whole image has arrived; it is checked and restored, or refused with
TRIM_BAD and nothing changes (R350). -/
def execTrimWriteCheck (t : Nat) (s : State) : Out :=
  let s := s.advance t
  .next
    (match s.bulk.arrived with
      | some x =>
        if !(s.alive && x.kind == 3) then s
        else
          let img := x.buf.take trimBytes
          let s := { s with bulk := { s.bulk with arrived := none } }
          if s.trimGood img then (s.restoreTrim img).reply x.hdr Op.trimWrite 0 Status.ok []
          else s.reply x.hdr Op.trimWrite 0 Status.trimBad []
      | none => s)

/-! ## Calibration in service (R351 to R354) -/

/-- Whether the calibration machinery works in service: a CAL_RUN has completed, none runs, and none has failed
by the reference DAC or the house converter (R342, R345). -/
def State.calServes (s : State) : Bool :=
  s.alive && !s.trim.holdPwr && s.trim.cal.isNone && !s.trim.serviceOff

/-- Whether a bobbin is of those that take calibration passes: powered, and ACTIVE, IDLE, SPARE_EMPTY or
SPARE_READY (R351, R473). -/
def State.calBobbin (p b : Nat) (s : State) : Bool :=
  let st := (s.bobbin p b).state
  decide (p < nPillows) && decide (b < 17) && s.inService p && s.domainOn (bankOf p b)
    && (st == 0 || st == 6 || st == 1 || st == 3)

/-- The codes a calibration pass drives. -/
def calCodes (codes : SparseInt) : List Nat := (List.range 1024).map fun i => (noiseAt codes i).toNat % 16

/-- The level whose rows a pass drives with code 15 and no other, none where it is no pass of a level scan (R354). -/
def scanLevel (codes : List Nat) : Option Nat :=
  lowest 16 fun l => decide (codes = (List.range 1024).map fun i => if i / 8 % 16 = l then 15 else 0)

/-- A pass of a level scan adds its P_g (R354). -/
def Bobbin.scanPass (codes : List Nat) (refs : List (Int × Int)) (b : Bobbin) : Bobbin :=
  match scanLevel codes with
  | none => b
  | some l =>
    { b with
      scanN := tadd l 1 b.scanN
      scanP := refs.zipIdx.foldl (fun t x =>
        tset (fun _ => 0) (16 * x.2 + l) (tget (fun _ => 0) t (16 * x.2 + l) + x.1.2) t) b.scanP }

/-- A calibration pass of a bobbin on the trims it holds: its partials go nowhere (R351, R354, R493). -/
def Bobbin.calPass (x : Trim) (sheet : Nat) (codes noise : SparseInt) (b : Bobbin) : Bobbin :=
  let b := if b.live = [] then { b with live := [(sheet, x.epoch)] } else b
  let e := (b.live.head?.map Prod.snd).getD 0
  let o := b.pass (calCodes codes) 0 0 e noise
  let b := ((b.takeRefs (b.set e).k o.refs).countBad o.refs).scanPass (calCodes codes) o.refs
  { b with made := b.made + 1 }

/-- CALIBRATION_PASS: arises on a bobbin of a pillow on which no stage is running (R351), below throttle step 3
(R526). -/
def execCalibrationPass (t pillow bobbin : Nat) (codes noise : SparseInt) (s : State) : Out :=
  let s := s.advance t
  .next
    (if !(s.calServes && s.calBobbin pillow bobbin && (s.pillow pillow).run.isNone
        && decide (s.therm.step < 3)) then s
    else
      let b := (s.bobbin pillow bobbin).calPass s.trim s.sheets.sheet codes noise
      let s := s.setBobbin pillow bobbin b
      let s := { s with trim := { s.trim with calPasses := satAdd 0xFFFF_FFFF s.trim.calPasses 1 } }
      if b.passFails && b.state == 0 then
        let (ps, s) := s.bobbinFail pillow bobbin 1
        s.settlePillows ps
      else s)

/-- The next converter out of service: 32 down to 0 and up again, 64 dwells a cycle (R352). -/
def nextConv (u : Nat × Bool) : Nat × Bool :=
  if u.2 then (if u.1 + 1 ≥ 32 then (32, false) else (u.1 + 1, true))
  else if u.1 ≤ 1 then (0, true) else (u.1 - 1, false)

/-- Adds a visit's finding to what waits for the next seal. -/
def addVisit (k : Nat) (v : Int) (t : Tbl (Int × Nat)) : Tbl (Int × Nat) :=
  let x := tget (fun _ => ((0 : Int), (0 : Nat))) t k
  tput k (x.1 + v, x.2 + 1) t

/-- The end of group g's dwell: its converter's offsets and linearity wait for the next seal, and u_g steps
(R352, R353). -/
def Bobbin.dwellEnd (g : Nat) (res : List Meas) (b : Bobbin) : Bobbin :=
  let c := 33 * g + (b.uOf g).1
  let val (k : ElemClass) (i : Nat) (d : Int) : Int :=
    ((res.find? fun m => m.cls = k && m.index == i).map Meas.value).getD d
  { b with
    pendO := (List.range 4).foldl (fun t r => addVisit (4 * c + r) (val .convOffset r 0) t) b.pendO
    pendLin := (List.range 4).foldl (fun t k => addVisit (4 * c + k) (val .convLin k 32) t) b.pendLin
    u := tset (fun _ => (32, false)) g (nextConv (b.uOf g)) b.u
    dwell := tset (fun _ => 0) g b.made b.dwell }

/-- DWELL_END: arises after 1,024 passes of any kind of the bobbin (R352). -/
def execDwellEnd (t pillow bobbin group : Nat) (res : List Meas) (s : State) : Out :=
  let s := s.advance t
  let b := s.bobbin pillow bobbin
  .next
    (if s.calServes && (s.calBobbin pillow bobbin || (s.inService pillow && b.state == 4)) && decide (group < 8)
        && decide (tget (fun _ => 0) b.dwell group + 1024 ≤ b.made) then
      s.setBobbin pillow bobbin (b.dwellEnd group res)
    else s)

/-- The mean of the scans kept, by entry. -/
def scanMeans (scans : List (List Int)) : List Int :=
  (List.range 128).map fun i => roundHalfEven (scans.map fun x => x.getD i 0).sum (max 1 scans.length)

/-- Whether a level scan is complete: 4,096 passes of each of the 16 levels (R354). -/
def Bobbin.scanDone (b : Bobbin) : Bool :=
  (List.range 16).all fun l => decide (4096 ≤ tget (fun _ => 0) b.scanN l)

/-- The mean levels of a scan, m_(g,L) = P_g / 120 in 1/1,024 level, index 16 g + L (R348, R354). -/
def Bobbin.scanLevels (b : Bobbin) : List Int :=
  (List.range 128).map fun i =>
    roundHalfEven (1024 * tget (fun _ => 0) b.scanP i) (120 * max 1 (tget (fun _ => 0) b.scanN (i % 16)))

/-- A completed level scan: the first four make BASE and K0, later ones D_b (R354); the next one starts. -/
def Bobbin.levelScan (b : Bobbin) : Bobbin :=
  let scans := (b.scanLevels :: b.scans).take 4
  let b := { b with scanP := [], scanN := [] }
  if scans.length < 4 then { b with scans := scans }
  else if b.base = [] then
    { b with scans := scans, base := scanMeans scans, k0 := b.kNow.getD 16384, drift := 0 }
  else
    let d := ((scanMeans scans).zip b.base).foldl (fun m x => max m (x.1 - x.2).natAbs) 0
    { b with scans := scans, drift := min 0xFFFF d }

/-- LEVEL_SCAN_END: arises when a bobbin's level scan is complete, with the mean levels that its passes give; a D_b
above DRIFT_TH asks for a refresh (R333, R354). -/
def execLevelScanEnd (t pillow bobbin : Nat) (means : List Int) (s : State) : Out :=
  let s := s.advance t
  .next
    (if !(s.calServes && s.calBobbin pillow bobbin && (s.bobbin pillow bobbin).programmed
        && (s.bobbin pillow bobbin).scanDone && means == (s.bobbin pillow bobbin).scanLevels) then s
    else
      let b := (s.bobbin pillow bobbin).levelScan
      let s := s.setBobbin pillow bobbin b
      let q : RefreshReq := { source := 2, logical := b.logical, age := s.now }
      if decide (s.trim.driftTh < b.drift) && b.mapped && s.refreshable pillow q then s.requestRefresh pillow q
      else s)

/-! ## Seals (R354, R356, R357) -/

/-- What a seal makes of one class of a bobbin: its table, and the elements whose measurement was not adopted
with that measurement. -/
structure Sealed where
  vals : Tbl (Option Int)
  kept : List (Nat × Int)
  deriving DecidableEq, Repr

/-- The pending findings of a class, each judged by its limits and its step limit (R340, R341, R353). -/
def Bobbin.sealClass (c : ElemClass) (step : Int) (per : Nat) (pend : Tbl (Int × Nat)) (old : Tbl (Option Int))
    (b : Bobbin) : Sealed :=
  pend.foldl (fun x (i, n) =>
    let v := roundHalfEven n.1 (per * max 1 n.2)
    let near := match b.value c i with
      | some o => decide ((v - o).natAbs ≤ step.natAbs)
      | none => true
    if plausible c i v && near then { x with vals := tset (fun i => some (elemNominal c i)) i (some v) x.vals }
    else { x with kept := x.kept ++ [(i, v)] }) { vals := old, kept := [] }

/-- The sum Σ P / K of reference sums kept apart by K, as a fraction. -/
def sumOverK (t : List (Nat × Nat)) : Nat × Nat :=
  t.foldl (fun x (k, p) => (x.1 * max 1 k + p * x.2, x.2 * max 1 k)) (0, 1)

/-- The entries of one group of the sums. -/
def groupOf (g : Nat) (t : Tbl Nat) : List (Nat × Nat) :=
  (t.filter fun x => x.1 / 65536 == g).map fun x => (x.1 % 65536, x.2)

/-- The K that the reference sums give, none without sums (R354). -/
def Bobbin.measuredK (b : Bobbin) : Option Nat :=
  let (n, d) := sumOverK b.sumP
  if n = 0 then none else some (roundHalfEven ((b.sumE * d : Nat) : Int) n).toNat

/-- Whether a new K is plausible: its limits, its step, and every G_j it forms (R340, R341). -/
def Bobbin.plausibleK (k : Nat) (b : Bobbin) : Bool :=
  plausible .bobbinK 0 k && decide (((k : Int) - (b.kNow.getD 16384 : Nat)).natAbs ≤ 164)
    && b.g0.all fun x => inRange 12288 (gainOf (x.2.getD 16384).toNat k) 20480

/-- The deviation of group g's own ratio from K, in 0.1 %: whether it passes a threshold, and rounded. -/
def Bobbin.groupDev (k th g : Nat) (b : Bobbin) : Bool × Nat :=
  let e := tget (fun _ => 0) b.grpE g
  let (n, d) := sumOverK (groupOf g b.grpP)
  if n = 0 ∨ e = 0 then (false, 0)
  else
    let x := 1000 * (((e * d : Nat) : Int) - ((k * n : Nat) : Int)).natAbs
    (decide (th * (k * n) < x), (roundHalfEven (x : Int) (k * n)).toNat)

/-- The group check of a seal (R354). -/
def Bobbin.groupCheck (th : Nat) (b : Bobbin) : Bobbin :=
  let k := b.kNow.getD 16384
  let ds := (List.range 8).map fun g => b.groupDev k th g
  { b with
    strikes := ds.zipIdx.foldl (fun t x =>
      tset (fun _ => 0) x.2 (if x.1.1 then min 3 (tget (fun _ => 0) t x.2 + 1) else 0) t) b.strikes
    grpDev := ds.foldl (fun m x => max m (min 255 x.2)) 0 }

/-- Consecutive failures of the group check: the largest of the groups'. -/
def Bobbin.strikeMax (b : Bobbin) : Nat := b.strikes.foldl (fun m x => max m x.2) 0

/-- The new epoch's K: a programming's 16,384, else the measured one where it is plausible (R354, R355). -/
def Bobbin.sealK (b : Bobbin) : Option Nat × List Nat :=
  match b.pendK, b.measuredK with
  | some k, _ => (some k, [])
  | none, some k => if b.plausibleK k then (some k, []) else (b.kNow, [k])
  | none, none => (b.kNow, [])

/-- A bobbin at the seal of epoch e: its plausible pending values come into force, and the group check is made;
with the reports of what was not adopted (R341, R354, R356). -/
def Bobbin.sealed (bob e th : Nat) (b : Bobbin) : Bobbin × List ErrReport :=
  let o := b.sealClass .convOffset 16 2 b.pendO b.offs
  let l := b.sealClass .convLin 2 1 b.pendLin b.lin
  let (k, bad) := b.sealK
  let seen := (b.pendO.map fun x => x.1 / 4).eraseDups
  let keptNow := ((o.kept ++ l.kept).map fun x => x.1 / 4).eraseDups
  let c := { b with
    offs := o.vals, lin := l.vals, kNow := k
    kept := (b.kept.filter fun x => !seen.contains x) ++ keptNow }
  let c := if b.pendK.isSome then { c with strikes := [], grpDev := 0 } else c.groupCheck th
  ((c.newSet e).noPending,
    (o.kept.map fun x => calReport 3 bob x.1 x.2) ++ (l.kept.map fun x => calReport 4 bob x.1 x.2)
      ++ bad.map fun (v : Nat) => calReport 6 bob 0 (v : Int))

/-- A bobbin that the group check fails: an ACTIVE one leaves service, another is FAILED where it stands (R83,
R354, R493). -/
def State.groupFail (p b : Nat) (s : State) : List Nat × State :=
  let x := s.bobbin p b
  if x.state = 0 then s.bobbinFail p b 2
  else
    let y := s.pillow p
    let s := s.setBobbin p b { x with state := 5, dead := true, mapped := x.mapped && x.state == 6 }
    let s := if y.spare = some b then
        (s.setPillow p { y with alt := if (y.alt.map Prod.fst) = some b then none else y.alt }).loseSpare p b 1
      else s
    if s.soundCount p < 16 then s.failOut p 4 else ([], s)

/-- The bobbins whose third strike a seal brought. -/
def State.groupFails : List Nat → List Nat × State → List Nat × State
  | [], x => x
  | n :: r, (ps, s) =>
    let (qs, s) := s.groupFail (n / 17) (n % 17)
    State.groupFails r (ps ++ qs, s)

/-- Every bobbin takes the new epoch. -/
def State.sealBobbins (e : Nat) (s : State) : State :=
  (List.range 816).foldl (fun s n =>
    let (b, rs) := (s.bobbin (n / 17) (n % 17)).sealed n e s.trim.grpTh
    (s.setBobbin (n / 17) (n % 17) b).keepAll rs) s

/-- The epoch is sealed and waits for a sheet boundary; with SHEET_SRC = NONE it is bound at once and idle
pillows adopt it (R53, R356). -/
def State.sealEpoch (s : State) : State :=
  let e := s.trim.epoch + 1
  let s := s.sealBobbins e
  let n := s.sheets.sheet
  if s.tb.sheetSrc = 0 then
    let s := { s with trim := { s.trim with
      epoch := e, binds := (e, n) :: s.trim.binds, bindSheet := n, bound := true, unbound := none, sealBase := s.now
      sealHeld := false } }
    (List.range nPillows).foldl (fun s p => s.idleAdopt p) s
  else
    { s with trim := { s.trim with
      epoch := e, unbound := some e, bound := false, sealBase := s.now, sealHeld := false } }

/-- Whether the converter has converted the reference DAC for the seal, or can do so now: it is free, and nothing
waits for it (R357, R369). -/
def State.checkMade (s : State) : Bool :=
  s.hc.checked || (s.hc.conv.isNone && s.hc.aborted.isEmpty && s.hc.urgents.isEmpty && s.runningSeq.isNone)

/-- Whether a seal falls due (R356, R357, R365). -/
def State.sealDue (s : State) : Bool :=
  s.sealTime && s.hc.selfcal.isNone && (s.checkMade || decide (2 ≤ s.therm.step))

/-- A seal with the reference deviation in range: the epoch is sealed, and bobbins with a group's third strike
leave service (R354, R356). -/
def State.sealNow (s : State) : State :=
  let was := (List.range 816).filter fun n => decide ((s.bobbin (n / 17) (n % 17)).strikeMax < 3)
  let s := s.sealEpoch
  let out := was.filter fun n =>
    (s.bobbin (n / 17) (n % 17)).strikeMax == 3 && (s.bobbin (n / 17) (n % 17)).state != 5
  let x := State.groupFails out ([], s)
  x.2.settlePillows x.1

/-- SEAL with the reference DAC's deviation in 0.01 %: beyond 0.5 % nothing is sealed (R356, R357), nor at
throttle step 2 or above (R526). -/
def execSealEpoch (t : Nat) (dev : Int) (s : State) : Out :=
  let s := s.advance t
  .next
    (if !s.sealDue then s
    else if 2 ≤ s.therm.step then { s with trim := { s.trim with sealHeld := true } }
    else if 50 < dev.natAbs then
      ({ s with
          trim := { s.trim with refDev := dev, sealHeld := true }
          hc := { s.hc with checked := false, checkFrom := s.now } }).report (calReport 1 noBobbin 0 dev)
    else ({ s with trim := { s.trim with refDev := dev }, hc := { s.hc with checked := false } }).sealNow)

end Sys2Proof.Machine
end

