-- ==== Sys2Proof/Machine/DmaEvents.lean ====
section
/-! DEFINITION. The events of the DMA engine (R238 to R243) and of SETLEN (R164, R169). -/

namespace Sys2Proof.Machine

/-! ## DMA_BURST_COMPLETE -/

/-- The place of transfer i after a burst: the next one in turn follows, and a finished one leaves. -/
def Run.afterBurst (i : Nat) (x : Option DmaXfer) (r : Run) : Run :=
  match x with
  | some y => { r with dma := setNth r.dma i y, turn := i + 1 }
  | none => { r with dma := r.dma.eraseIdx i, turn := i }

/-- A finished burst: the transfer moves on, and the operation it completes ends with it unless it was handed
over (R153). -/
def State.burstDone (w : Work) (i : Nat) (x : DmaXfer) (n : Nat) (s : State) : State :=
  let (y, s) := s.xferNext (w.ofXfer x) x n
  let s := s.modRun w.p (Run.afterBurst i y)
  let s := if y.isNone && !x.async then
      s.modRun w.p fun r => { w.nextOp with dma := r.dma, turn := r.turn }
    else s
  (s.boundary w.p 3).settlePillows (w.p :: w.job.pillows)

/-- A transfer that meets a fault keeps its record, and the engine may still serve the others (R245). -/
def State.burstFault (w : Work) (i : Nat) (x : DmaXfer) (f : FaultRec) (s : State) : State :=
  let s := if w.job.pinned then s else
    s.modRun w.p fun r => { r with dma := setNth r.dma i { x with fault := some f } }
  (s.unitFault w.p f).settlePillows (w.p :: w.job.pillows)

/-- DMA_BURST_COMPLETE: arises for the transfer that has the engine of the pillow's run. -/
def execDmaBurstComplete (t pillow : Nat) (b : BurstIn) (s : State) : Out :=
  let s := b.struck.foldl (fun s x => s.strike x) (s.advance t)
  let xfer := b.xfer
  .next
    (match (s.pillow pillow).run.bind fun r => s.workOf pillow r with
      | none => s
      | some w =>
        match (w.run.dma.drop xfer).head? with
        | none => s
        | some x =>
          if !(s.pillowAlive pillow && w.run.may 3 && s.turnOf w == some xfer) then s
          else
            let s := if w.op.kind = kDma ∨ w.prk.nOps ≤ w.run.op then s.endWait pillow else s
            let n := s.burstLen (w.ofXfer x) x
            match s.burst (w.ofXfer x) x with
            | .ok _ s => s.burstDone w xfer x n
            | .fault f s => s.burstFault w xfer x f
            | .wait _ _ _ => s)

/-! ## SETLEN -/

/-- A run-time length takes a new value from the next operation on; a pinned one above LEN_MAX is clamped and counted
(R164, R168, R169). -/
def State.setLen (w : Work) (id v : Nat) (s : State) : State :=
  let cl := w.job.pinned && decide (w.prk.lenMax id < v)
  let s := s.modJob w.run.ctx fun j =>
    { j with
      len := setNth (j.len ++ List.replicate (4 - j.len.length) 0) id (w.clampLen id v)
      zeroed := j.zeroed || w.clampLen id v == 0
      clamp := if cl then j.clamp ||| (1#4 <<< id) else j.clamp }
  s.modPillow w.p fun x =>
    { x with cnt := { x.cnt with sqTrunc := satAdd 0xFFFF_FFFF x.cnt.sqTrunc (if cl then 1 else 0) } }

/-- SETLEN: arises while a SETLEN operation of the pillow's run is in progress. -/
def execSetlen (t pillow : Nat) (s : State) : Out :=
  let s := s.advance t
  .next
    (match (s.pillow pillow).run.bind fun r => s.workOf pillow r with
      | none => s
      | some w =>
        if !(s.pillowAlive pillow && w.op.kind == kSetlen && w.run.started && w.run.stop.isNone
            && w.run.waitWin.isNone) then s
        else
          let (off, line) := w.address w.op.a Level.strA [] 0
          match s.readOpnd w 1 w.op.a off line 4 with
          | .ok b s => ((s.setLen w w.op.arg (leNat b)).modRun pillow fun _ => w.nextOp).boundary pillow 6
          | .fault f s => (s.unitFault pillow f).settlePillows (pillow :: w.job.pillows)
          | .wait n l d => (s.unitWait pillow 6 n l d).settlePillows [pillow])

end Sys2Proof.Machine
end

