-- ==== Sys2Proof/Machine/Loader.lean ====
section
/-! DEFINITION. The loader: window claims (R210, R211), descriptor tables (R145), placement (R175), extents and
pages (R181, R236), stage deadlines (R147, R247), and what JOB_ADMIT and JOB_SUBMIT place on the pillows. -/

namespace Sys2Proof.Machine

/-- LENGTH_BAD at a byte of an entry (R408). -/
def lengthBad (sect index ofs : Nat) : Reject := imageBad Status.lengthBad sect index ofs

/-- The pricking number's image, where it is loaded. -/
def State.loadedPrick (n : Nat) (s : State) : Option Prick := (s.prick n).filter fun p => p.loaded

/-! ## Maps and pillows -/

/-- The physical pillow of stage k under a map. -/
def Prick.physOf (p : Prick) (map : List Nat) (k : Nat) : Nat := map.getD (p.stage k).pillow 0xFF

/-- The physical pillows that the stages run on under some maps. -/
def Prick.pillowsOf (p : Prick) (maps : List (List Nat)) : List Nat :=
  ((maps.flatMap fun m => (List.range p.nStages).map (p.physOf m)).filter (· != 0xFF)).eraseDups

/-- The maps of a template's instances. -/
def mapsOf (a : AdmitParams) : List (List Nat) :=
  ((List.range a.instances).map fun i => mapOf a i).eraseDups

/-- The maps that a template names at all. -/
def bothMaps (a : AdmitParams) : List (List Nat) := [a.mapA, a.mapB]

/-- A map gives every stage a pillow; `base` is the map's byte in the packet (R175). -/
def Prick.mapped (p : Prick) (map : List Nat) (base : Nat) : Option Reject :=
  ((List.range p.nStages).find? fun k => p.physOf map k == 0xFF).map fun k =>
    lengthBad 7 0 (base + (p.stage k).pillow)

/-- A map names only pillows in service (R473). -/
def State.mapServed (maps : List (List Nat)) (s : State) : Bool :=
  maps.all fun m => m.all fun q => q == 0xFF || s.inService q

/-! ## Parameter ranges (R435, R436) -/

/-- The entries of a map: pillow numbers or 0xFF. -/
def mapParams (base : Nat) (map : List Nat) : Option Reject :=
  firstOf (map.zipIdx.map fun (q, k) => require (decide (q < nPillows) || q == 0xFF) (paramBadAt (base + k)))

/-- The entries of WIN: in range where given, 0 where not (R211). -/
def winParams (base : Nat) (mask : BitVec 16) (ws : List WinSpec) : Option Reject :=
  firstOf (ws.zipIdx.map fun (w, i) =>
    let o := base + 16 * i
    if mask.getLsbD i then
      firstOf [require (w.base % 64 == 0) (paramBadAt o),
        require (w.pitch % 64 == 0 && inRange 64 w.pitch 65472) (paramBadAt (o + 8)),
        require (inRange 1 w.depth 1024) (paramBadAt (o + 10))]
    else require (w.base == 0 && w.pitch == 0 && w.depth == 0) (paramBadAt o))

/-! ## Windows (R210, R181) -/

/-- The operands of an operation in use. -/
def Prick.opnds (p : Prick) (o : OpRec) : List Opnd :=
  let (a, e, x) := p.uses o
  (if a then [o.a] else []) ++ (if e then [o.e] else []) ++ (if x then [o.o] else [])

/-- The scratchpad windows that stage k's operands name. -/
def Prick.ringsOf (p : Prick) (k : Nat) : List Nat :=
  ((p.opsOf k).flatMap fun i => ((p.opnds (p.op i)).filter Opnd.ring).map Opnd.window).eraseDups

/-- The scratchpad windows that a pricking's operands name on each pillow: (physical pillow, window). -/
def Prick.ringClaims (p : Prick) (maps : List (List Nat)) : List (Nat × Nat) :=
  (maps.flatMap fun m => (List.range p.nStages).flatMap fun k =>
    let q := p.physOf m k
    if q = 0xFF then [] else (p.ringsOf k).map fun w => (q, w)).eraseDups

/-- The claims of a pricking under some maps: on each pillow where it runs, every window that its operands name
(R210). -/
def Prick.claims (p : Prick) (maps : List (List Nat)) : List (Nat × Nat) :=
  let ws := ((List.range p.nStages).flatMap p.ringsOf).eraseDups
  (p.pillowsOf maps).flatMap fun q => ws.map fun w => (q, w)

/-- Every window named is given; `base` is the byte of WIN in the packet. -/
def Prick.windowsGiven (p : Prick) (base : Nat) (mask : BitVec 16) : Option Reject :=
  ((List.range p.nStages).flatMap p.ringsOf |>.find? fun w => !mask.getLsbD w).map fun w =>
    lengthBad 7 w (base + 16 * w)

/-- No window claimed is held. -/
def State.windowsFree (claim : Nat) (cs : List (Nat × Nat)) (s : State) : Option Reject :=
  firstOf (cs.map fun (q, w) =>
    let x := (s.pillow q).window w
    require (!x.claimed) (resHeld x.holder claim 3 w q x.owner))

/-- Claims a window. -/
def claimWindow (holder : Nat) (pinned : Bool) (owner : Nat) (ws : List WinSpec) (s : State) (c : Nat × Nat) :
    State :=
  let w := ws.getD c.2 { base := 0, pitch := 0, depth := 0 }
  let v : SpWindow :=
    { base := w.base, pitch := w.pitch, depth := w.depth, claimed := true, pinned := pinned, holder := holder
      owner := owner }
  s.modPillow c.1 fun x => { x with windows := tset (fun _ => {}) c.2 v x.windows }

/-- The lowest and the highest line, from its starting line, that one iteration of an operation's innermost RELEASE
level reads through an operand: the reach of the levels inside it, and `g` of the gather. -/
def Prick.lineReach (o : OpRec) (len : Nat → Option Nat) (k : Nat) (str : Level → Int) (g : Int) : Int × Int :=
  let rel := ((List.range 6).reverse.find? fun l => (o.lv l).dim != 0 && (o.lv l).rel).getD 0
  let (lo, hi) := (List.range 6).foldl (fun (x : Int × Int) l =>
    let v := o.lv l
    let (a, b) := o.span len k l
    let n : Int := ((b - a - 1 : Nat) : Int) * str v
    if rel < l ∧ v.dim ≠ 0 ∧ v.lineAdv then (x.1 + min 0 n, x.2 + max 0 n) else x) (0, 0)
  (lo + min 0 g, hi + max 0 g)

/-- The starting line of a windowed operand. -/
def Opnd.line0 (x : Opnd) : Int := toSigned 16 (x.base / 2 ^ 32)

/-- The lines that one iteration of an operation reads of window w, through A, through E, or through both. -/
def Prick.linesRead (p : Prick) (o : OpRec) (len : Nat → Option Nat) (k w : Nat) : Nat :=
  let (ua, ue, _) := p.uses o
  let g : Int := if bitOf 0 o.gflags then ((o.segN - 1 : Nat) : Int) * o.segStride else 0
  let named (used : Bool) (x : Opnd) : Bool := used && x.ring && x.window == w
  let span (x : Opnd) (r : Int × Int) : Int × Int := (x.line0 + r.1, x.line0 + r.2)
  let rs := (if named ua o.a then [span o.a (Prick.lineReach o len k Level.strA g)] else [])
    ++ (if named ue o.e then [span o.e (Prick.lineReach o len k Level.strE 0)] else [])
  match rs with
  | [] => 0
  | r :: t => (t.foldl (fun m x => max m x.2) r.2 - t.foldl (fun m x => min m x.1) r.1).toNat + 1

/-- The depth of each window of stage k: the lines that one iteration reads, and one for each writer of it. -/
def Prick.depthCheck (p : Prick) (len : Nat → Option Nat) (base : Nat) (ws : List WinSpec) (k : Nat) :
    Option Reject :=
  firstOf ((p.ringsOf k).map fun w =>
    let ops := (p.opsOf k).map p.op
    let writers := ops.countP fun o => (p.uses o).2.2 && o.o.ring && o.o.window == w
    let reads := ops.foldl (fun n o => max n (p.linesRead o len k w)) 0
    require (decide (reads + writers ≤ (ws.getD w { base := 0, pitch := 0, depth := 0 }).depth))
      (lengthBad 7 w (base + 16 * w + 10)))

/-! ## Descriptor tables (R145) -/

/-- Places entries in the lowest free places of a table of n, in the order of the pricking's sections: the spec does
not say which index a placed descriptor takes (DESIGN CHOICE, assumption 126). -/
def placeAll {α : Type} (n : Nat) : List α → Tbl (Option α) → Option (Tbl (Option α))
  | [], t => some t
  | e :: r, t =>
    match lowest n fun i => (tget (fun _ => none) t i).isNone with
    | some i => placeAll n r (tput i (some e) t)
    | none => none

/-- The pillow with a pricking's quantisation descriptors, epilogue descriptors and activation tables placed, none where
its tables cannot take them (R94, R132, R145). -/
def Pillow.placed (p : Prick) (owner : Nat) (x : Pillow) : Option Pillow :=
  let qs := (List.range p.nQdesc).map fun i =>
    let d := p.qdesc i
    ({ owner := owner, index := i, bytes := p.qdescBytes i
       live := [(0, { scale := d.scale, zq := d.zq })] } : QEntry)
  let es := (List.range p.nEdesc).map fun i => ({ owner := owner, index := i, bytes := p.edescBytes i } : EEntry)
  let as := (List.range p.nAct).map fun i => ({ owner := owner, index := i, bytes := p.actBytes i } : EEntry)
  match placeAll 256 qs x.qdesc, placeAll 64 es x.edesc, placeAll 8 as x.act with
  | some q, some e, some a => some { x with qdesc := q, edesc := e, act := a }
  | _, _, _ => none

/-- Every pillow's tables can take a pricking. -/
def State.tablesTake (p : Prick) (qs : List Nat) (s : State) : Option Reject :=
  require (qs.all fun q => ((s.pillow q).placed p 0).isSome) (lengthBad 3 0 0)

/-- Places a pricking on a pillow. -/
def State.place (p : Prick) (owner : Nat) (s : State) (q : Nat) : State :=
  match (s.pillow q).placed p owner with
  | some x => s.setPillow q x
  | none => s

/-! ## Placement of tiles (R175, R95, R160) -/

/-- One tile of stage k on physical pillow q: its slot places its bobbin there, with its rotation and
format. -/
def State.tileCheck (p : Prick) (o : OpRec) (q : Nat) (i : Nat) (s : State) : Option Reject :=
  let t := p.tile i
  match (s.slot t.slot).targetOf q t.logical with
  | none => some (lengthBad 2 i 1)
  | some g =>
    firstOf
      [require (g.rot == (p.qdesc o.qdesc).rot) (imageBad Status.quantBad 3 o.qdesc 0),
       require ((g.fmt == 1) == t.w4) (prickBad 2 i 0x0B)]

/-- Every tile that operation i selects is placed where its parts run. -/
def State.opPlaced (p : Prick) (len : Nat → Option Nat) (maps : List (List Nat)) (s : State) (i : Nat) :
    Option Reject :=
  let o := p.op i
  if o.kind ≠ kXbar ∨ o.isEmpty len then none
  else
    firstOf ((List.range o.nStages).map fun j =>
      let k := o.stage + j
      let ts := ((o.selections len k).flatMap fun sel => sel.map fun x => x.2.toNat).eraseDups
      firstOf (maps.map fun m => firstOf (ts.map fun t => s.tileCheck p o (p.physOf m k) t)))

/-- The placement check of R175 over the pricking. -/
def State.placementCheck (p : Prick) (len : Nat → Option Nat) (maps : List (List Nat)) (s : State) :
    Option Reject :=
  firstEntry p.nOps fun i => s.opPlaced p len maps i

/-! ## Extents (R157, R181) -/

/-- The output columns of an operation: the length of its N level, else the widest tile. -/
def Prick.nTotal (p : Prick) (o : OpRec) (k : Nat) : Nat :=
  match o.dimLevel 3 with
  | some l => ((o.lv l).length p.plan?).getD 0
  | none => ((o.selections p.plan? k).flatMap id).foldl (fun n x => max n (p.tile x.2.toNat).ncol) 0

/-- The bytes of a vector of n outputs in an epilogue format. -/
def EDesc.vecBytes (d : EDesc) (n : Nat) : Nat :=
  if d.outFmt = 3 then 8 * n else if d.outFmt = 4 then 72 * ceilDiv n 32 else n * d.outSize

/-- The E bytes of a TAT operation from a token's address on. -/
def OpRec.tatEBytes (o : OpRec) (es : Nat) : Nat :=
  if o.arg ≤ 3 then o.tokLen * es
  else if o.arg = 4 then 4 * o.tokLen
  else if o.arg = 5 then 2 * o.tokLen
  else if o.arg = 9 then o.taps * o.tatC * es
  else if o.arg = 10 then (o.tatC - 1) * o.e.tok + o.tokLen
  else (o.tokLen - 1) * o.e.tok + o.tatC

/-- The operands of an operation with the level strides each takes, the reach of the tokens, the bytes touched
at one address, and the unit and direction of the access. -/
def Prick.touches (p : Prick) (o : OpRec) (k : Nat) :
    List (Nat × Opnd × (Level → Int) × Nat × Nat × Nat × Bool) :=
  let q := p.qdesc o.qdesc
  let d := p.edesc o.edesc
  let m := o.mDiv - 1
  let n := p.nTotal o k
  if o.kind = kXbar then
    [(0x10, o.a, Level.strA, m * o.a.tok, o.segLen * q.esize, 0, false),
     (0x30, o.o, Level.strO, m * o.o.tok, d.vecBytes n, 1, true)]
      ++ (if d.elemOp = 0 then [] else
        [(0x20, o.e, Level.strE, if bitOf 4 d.elem then 0 else m * o.e.tok, n * d.elemSize, 1, false)])
  else if o.kind = kTat then
    [(0x10, o.a, Level.strA, m * o.a.tok, o.segLen * q.esize, 2, false),
     (0x30, o.o, Level.strO, m * o.o.tok, o.tatC * d.outSize, 2, true)]
      ++ (if tatUsesE o.arg then
        [(0x20, o.e, Level.strE, if o.arg ≤ 9 then m * o.e.tok else 0, o.tatEBytes q.esize, 2, false)] else [])
  else if o.kind = kDma then
    [(0x10, o.a, Level.strA, 0, o.count, 3, false), (0x30, o.o, Level.strO, 0, o.count, 3, true)]
  else if o.kind = kSetlen then [(0x10, o.a, Level.strA, 0, 4, 1, false)]
  else if o.kind = kRecord ∧ o.count ≠ 0 then [(0x10, o.a, Level.strA, 0, o.count, 1, false)]
  else []

/-- One operand against its EXTENT and, where it is windowed, the window's pitch, for every instance (R181). The
extent of a plain operand moves with its context and instance (DEDUCED, assumption 35). -/
def State.extentCheck (a : AdmitParams) (p : Prick) (i k : Nat) (s : State)
    (t : Nat × Opnd × (Level → Int) × Nat × Nat × Nat × Bool) : Option Reject :=
  let (ofs, x, str, toks, n, _, _) := t
  let o := p.op i
  let (lo, hi) := p.reach o k ofs x str toks n
  let bad := lengthBad 1 i (ofs + 8)
  if !x.windowed then require (decide (0 ≤ lo) && decide (hi ≤ (x.extent : Int))) bad
  else
    let pitch := if x.ground then (s.stream x.window).pitch
      else (a.win.getD x.window { base := 0, pitch := 0, depth := 0 }).pitch
    let b : Int := ((x.base % 2 ^ 32 : Nat) : Int)
    let top : Int := if x.inst then (((a.instances - 1) * p.instStride : Nat) : Int) else 0
    require (decide (0 ≤ b + lo) && decide (b + top + hi ≤ (min x.extent pitch : Nat))) bad

/-- The extents of every operation on every stage. -/
def State.extentsCheck (a : AdmitParams) (p : Prick) (s : State) : Option Reject :=
  firstEntry p.nOps fun i =>
    let o := p.op i
    if o.isEmpty p.plan? then none
    else firstOf ((List.range o.nStages).map fun j =>
      firstOf ((p.touches o (o.stage + j)).map fun t => s.extentCheck a p i (o.stage + j) t))

/-! ## Pages (R181, R236) -/

/-- A virtual range that a template's work reaches on some pillow: the pillow, the range, the unit, whether it
is a window's, and the direction. `perm` says that the unit's access must be permitted, too. -/
structure PageNeed where
  pillow : Nat
  lo : Nat
  hi : Nat
  unit : Nat
  win : Bool
  write : Bool
  perm : Bool := true
  deriving DecidableEq, Repr

/-- The ranges of one plain operand: one for each context and instance that it distinguishes. -/
def Prick.plainNeeds (a : AdmitParams) (p : Prick) (n i k : Nat)
    (t : Nat × Opnd × (Level → Int) × Nat × Nat × Nat × Bool) : List PageNeed :=
  let (ofs, x, str, toks, b, u, w) := t
  if x.windowed ∨ ((p.op i).kind = kDma ∧ ofs = 0x30 ∧ (p.op i).mcast ≠ 0) then []
  else
    let (lo, hi) := p.reach (p.op i) k ofs x str toks b
    (List.range a.instances).flatMap fun j =>
      (List.range (if x.ctx then n else 1)).map fun c =>
        let base : Nat := x.base + (if x.ctx then p.ctxOfs x c else 0) + (if x.inst then j * p.instStride else 0)
        { pillow := p.physOf (mapOf a j) k, lo := ((base : Int) + lo).toNat, hi := ((base : Int) + hi).toNat
          unit := u, win := false, write := w }

/-- The ranges of one plain operand's EXTENT: every page within it must be mapped and pinned (R181). -/
def Prick.extentRanges (a : AdmitParams) (p : Prick) (n i k : Nat)
    (t : Nat × Opnd × (Level → Int) × Nat × Nat × Nat × Bool) : List PageNeed :=
  (p.plainNeeds a n i k t).map fun x =>
    let lo := ((x.lo : Int) - (p.reach (p.op i) k t.1 t.2.1 t.2.2.1 t.2.2.2.1 t.2.2.2.2.1).1).toNat
    { x with lo := lo, hi := lo + t.2.1.extent, perm := false }

/-- The ranges of the windows' slots. -/
def Prick.windowNeeds (a : AdmitParams) (p : Prick) (n : Nat) : List PageNeed :=
  (p.ringClaims (mapsOf a)).flatMap fun (q, w) =>
    let x := a.win.getD w { base := 0, pitch := 0, depth := 0 }
    let ctx := (List.range p.nOps).any fun i => (p.opnds (p.op i)).any fun o => o.ring && o.window == w && o.ctx
    (List.range (if ctx then n else 1)).map fun c =>
      let b := x.base + (if ctx then p.privSpBase + c * p.privSpSize else 0)
      { pillow := q, lo := b, hi := b + x.depth * x.pitch, unit := 1, win := true, write := true }

/-- The ranges of the line tables. -/
def Prick.tableNeeds (a : AdmitParams) (p : Prick) : List PageNeed :=
  (List.range p.nOps).flatMap fun i =>
    let o := p.op i
    match o.dimLevel 1 with
    | some l =>
      if o.lineTable then
        let n := (o.lv l).count (((o.lv l).length p.plan?).getD 0)
        (mapsOf a).map fun m =>
          { pillow := p.physOf m o.stage, lo := o.ltab, hi := o.ltab + 4 * n, unit := 1, win := false
            write := false }
      else []
    | none => []

/-- Every context's private regions, on every pillow of the template. -/
def Prick.privateNeeds (a : AdmitParams) (p : Prick) (n : Nat) : List PageNeed :=
  (p.pillowsOf (mapsOf a)).flatMap fun q => (List.range n).flatMap fun c =>
    [{ pillow := q, lo := p.privSpBase + c * p.privSpSize, hi := p.privSpBase + (c + 1) * p.privSpSize
       unit := 1, win := false, write := false },
     { pillow := q, lo := p.privHbmBase + c * p.privHbmSize, hi := p.privHbmBase + (c + 1) * p.privHbmSize
       unit := 1, win := false, write := false }]

/-- Everything a template reaches, n its count of contexts. -/
def Prick.pageNeeds (a : AdmitParams) (p : Prick) (n : Nat) : List PageNeed :=
  let ops := (List.range p.nOps).flatMap fun i =>
    let o := p.op i
    if o.isEmpty p.plan? then []
    else (List.range o.nStages).flatMap fun j =>
      (p.touches o (o.stage + j)).flatMap fun t => p.plainNeeds a n i (o.stage + j) t
  (ops ++ p.windowNeeds a n ++ p.tableNeeds a ++ p.privateNeeds a n).filter fun x => decide (x.lo < x.hi)

/-- The EXTENTs of every operation's plain operands, n the count of contexts. -/
def Prick.extentNeeds (a : AdmitParams) (p : Prick) (n : Nat) : List PageNeed :=
  ((List.range p.nOps).flatMap fun i =>
    let o := p.op i
    if o.isEmpty p.plan? then []
    else (List.range o.nStages).flatMap fun j =>
      (p.touches o (o.stage + j)).flatMap fun t => p.extentRanges a n i (o.stage + j) t).filter
    fun x => decide (x.lo < x.hi)

/-- The first page of a range that pinned work may not use: absent (kind 0), or not pinned or not permitted to
its unit (kind 1; DESIGN CHOICE, assumption 36). -/
def State.needFault (asid : Nat) (x : PageNeed) (s : State) : Nat → Nat → Option (Nat × Nat)
  | 0, _ => none
  | fuel + 1, va =>
    if x.hi ≤ va then none
    else match s.pageAt asid va with
      | none => some (0, va)
      | some g =>
        if !g.pin || (x.perm && (s.accessFault x.pillow x.unit x.win x.write asid va).isSome) then some (1, va)
        else s.needFault asid x fuel (g.va + pageBytes g.big)

/-- MAP_FAULT of R181. -/
def State.pagesCheck (asid : Nat) (ns : List PageNeed) (s : State) : Option Reject :=
  firstOf (ns.map fun x =>
    (s.needFault asid x (s.ms.pages.length + 1) x.lo).map fun (k, va) => mapFault asid k va)

/-- The pages of a range. -/
def State.pagesOf (asid : Nat) (x : PageNeed) (s : State) : List Page :=
  s.ms.pages.filter fun g => g.asid == asid && g.meets x.lo x.hi

/-- The pages that a template locks on pillow q: those reached there, and those of a pillow whose twin q is. -/
def State.locksOn (a : AdmitParams) (p : Prick) (ns : List PageNeed) (q : Nat) (s : State) : List Page :=
  ((ns.filter fun x => x.pillow == q || s.twinOf p x.pillow == some q).flatMap fun x => s.pagesOf a.asid x).eraseDups

/-- Locks a page in a cache for a template. -/
def lockPage (n : Nat) (tc : List TcEntry) (g : Page) : List TcEntry :=
  if tc.any fun e => e.asid == g.asid && e.va == g.va then
    tc.map fun e => if e.asid == g.asid && e.va == g.va then { e with locks := n :: e.locks.filter (· != n) } else e
  else fillTc { asid := g.asid, va := g.va, big := g.big, locks := [n] } tc

/-- The pillow's cache with a template's pages locked. -/
def Pillow.locked (n : Nat) (gs : List Page) (x : Pillow) : Pillow := { x with tc := gs.foldl (lockPage n) x.tc }

/-- The locked entries of a cache. -/
def Pillow.lockCount (x : Pillow) : Nat := x.tc.countP fun e => !e.locks.isEmpty

/-- R236: at most 256 locked entries on each pillow. -/
def State.locksCheck (a : AdmitParams) (p : Prick) (ns : List PageNeed) (qs : List Nat) (s : State) :
    Option Reject :=
  require (qs.all fun q =>
    decide (((s.pillow q).locked a.template (s.locksOn a p ns q)).lockCount ≤ 256)) (lengthBad 7 0 0)

/-- A template's locks are dropped (R236, R437). -/
def Pillow.unlock (n : Nat) (x : Pillow) : Pillow :=
  { x with tc := x.tc.map fun e => { e with locks := e.locks.filter (· != n) } }

/-! ## Stage offsets and deadlines (R40, R147) -/

/-- OFFSET and STAGE_DL of stage k for pinned work. -/
def Prick.stageTimes (p : Prick) (a : AdmitParams) (k : Nat) : Option Reject :=
  let d := p.stage k
  let o := p.offset a.lag k
  firstOf
    [require (if d.pred = 0xFF then d.ofs == 0 else decide ((p.stage d.pred).dl ≤ d.ofs)) (lengthBad 6 k 4),
     require (p.isFinal k || (decide (o < d.dl) && decide (d.dl ≤ a.d))) (lengthBad 6 k 8)]

/-- The levels bound to a length name one of N_LEN. -/
def Prick.lenIds (p : Prick) : Option Reject :=
  firstEntry p.nOps fun i =>
    firstOf ((p.op i).levels.zipIdx.map fun (l, j) =>
      require (l.dim == 0 || !l.runTime || decide (l.lenId < p.nLen)) (lengthBad 1 i (0x50 + 24 * j + 1)))

/-! ## The stages of a job (R148) -/

/-- The stage table of a job: every stage waits on its pillow; pinned ones become ready at t_r + O and have the
deadlines of R147. -/
def Prick.stageTable (p : Prick) (map : List Nat) (rel lag d : Nat) : Tbl StageSt :=
  (List.range p.nStages).map fun k =>
    (k, { pillow := p.physOf map k, readyAt := rel + p.offset lag k, deadline := rel + p.relDeadline d k })

/-- Whether a run-time length that the pricking has is 0 (R168). -/
def Prick.emptyLen (p : Prick) (len : List Nat) : Bool := (List.range p.nLen).any fun i => nth len i == 0

end Sys2Proof.Machine
end

