-- ==== Sys2Proof/Machine/Jobs.lean ====
section
/-! DEFINITION. JOB_ADMIT with its acceptance (R43 to R46, R181, R216, R236, R247, R435), JOB_SUBMIT and
PARTIAL_CAPTURE (R129, R131, R182, R436), JOB_ABORT (R254, R437), QC_COMMIT (R109, R110). -/

namespace Sys2Proof.Machine

/-! ## Sheets and patch rows (R26, R35) -/

/-- The first stitch of the patch row that a stitch lies in (R35); a row that would begin before WP 0 begins there
(assumption 37). -/
def State.rowStart (t : Template) (st : Nat) (s : State) : Nat :=
  let o := (s.stream t.p.stream).sheetOfs
  let (_, b) := s.sheetAt o st
  (b + ((st : Int) - b) / (max 1 t.p.period : Int) * (max 1 t.p.period : Int)).toNat

/-! ## Contexts (R45) -/

/-- Whether a context is free and not reserved. -/
def State.ctxFree (s : State) (c : Nat) : Bool :=
  (s.job c).isNone && !(s.admitted.any fun (_, t) => t.ctxs.contains c)

/-- The first n free contexts among the next `fuel` from c on. -/
def takeFree (f : Nat → Bool) : Nat → Nat → Nat → List Nat
  | 0, _, _ => []
  | fuel + 1, c, n =>
    if n = 0 then [] else if f c then c :: takeFree f fuel (c + 1) (n - 1) else takeFree f fuel (c + 1) n

/-- Contexts for a template or a job: the lowest free ones of the 16,384. -/
def State.freeCtxs (n : Nat) (s : State) : List Nat := takeFree s.ctxFree 16384 0 n

/-! ## JOB_ADMIT's checks -/

/-- R46. -/
def State.speedCheck (a : AdmitParams) (s : State) : Option Reject :=
  let bad (r : Nat) : Reject := { status := Status.admitSpeed, payload := leBytes 1 r }
  firstOf
    [require (inRange 1000 a.vRated 1_000_000) (bad 1),
     require (decide (a.vRated * s.tb.num ≤ 20_000_000 * s.tb.den)) (bad 2),
     require (inRange 100_000 a.d 10_000_000) (bad 3), require (decide (a.lag < a.d)) (bad 4)]

/-- The pillows that the demand test looks at: those of the maps, and their twins (R44, R332). -/
def State.testPillows (a : AdmitParams) (p : Prick) (s : State) : List Nat :=
  let qs := p.pillowsOf (bothMaps a)
  (qs ++ qs.filterMap fun q => s.twinOf p q).eraseDups

/-- The admitted templates' parameters with an offered one's. -/
def State.offered (a : AdmitParams) (s : State) : List AdmitParams := (s.admitted.map fun x => x.2.p) ++ [a]

/-- Whether the loose-enable bit of a pillow stands under some templates (R435). -/
def looseUnder (ts : List AdmitParams) (q : Nat) : Bool :=
  !(ts.any fun a => !a.looseOk && (a.mapA.contains q || a.mapB.contains q))

/-- R247: at most two relative deadlines on a pillow. -/
def State.deadlinesCheck (a : AdmitParams) (qs : List Nat) (s : State) : Option Reject :=
  let ts := s.offered a
  require (qs.all fun q =>
    let es := (s.lossCases ts q).flatMap fun l => ts.flatMap fun t => s.entries t q l
    decide ((es.map Demand.d).eraseDups.length ≤ 2)) (lengthBad 6 0 8)

/-- The verdicts of every case, with their pillows. -/
def State.allVerdicts (a : AdmitParams) (qs : List Nat) (s : State) : List (Nat × Verdict) :=
  let ts := s.offered a
  qs.flatMap fun q => (s.verdicts ts q (looseUnder ts q)).map fun v => (q, v)

/-- ADMIT_DEMAND with its payload. -/
def admitDemand (reason pillow u x : Nat) : Reject :=
  { status := Status.admitDemand
    payload := leBytes 1 reason ++ leBytes 1 pillow ++ leBytes 2 u ++ leBytes 8 x }

/-- Releases per second of some templates (R45). -/
def releaseRate (ts : List AdmitParams) : Frac :=
  ts.foldl (fun r a => Frac.plus r (((a.instances * a.vRated : Nat) : Int), max 1 a.period)) (0, 1)

/-- R43 to R45. -/
def State.demandCheck (a : AdmitParams) (vs : List (Nat × Verdict)) (s : State) : Option Reject :=
  let rate := releaseRate (s.offered a)
  firstOf
    [(vs.find? fun v => v.2.reason != 0).map fun (q, v) => admitDemand v.reason q v.u v.x,
     require (decide (rate.1 ≤ 131072 * (rate.2 : Int))) (admitDemand 4 noPillow 0 0),
     require (decide ((s.freeCtxs (ctxCount a)).length = ctxCount a)) (admitDemand 5 noPillow 0 0)]

/-- Check 6 of JOB_ADMIT: R181, R216, R236, R247. A count of contexts beyond the whole store is LENGTH_BAD; one
beyond its free part is R45's refusal (DEDUCED, assumption 38). -/
def State.loadCheck (a : AdmitParams) (p : Prick) (s : State) : Option Reject :=
  let n := ctxCount a
  let qs := s.testPillows a p
  let ns := p.pageNeeds a n
  firstOf
    [require p.plan (lengthBad 0 0 6), p.lenIds, firstEntry p.nStages (p.stageTimes a),
     firstOf ((mapsOf a).map fun m => p.mapped m (if m = a.mapA then 0x40 else 0x70)),
     s.placementCheck p p.plan? (mapsOf a), s.extentsCheck a p,
     firstEntry p.nStages (p.depthCheck p.plan? 0xA0 a.win), s.tablesTake p (p.pillowsOf (bothMaps a)),
     require (decide (n ≤ 16384)) (lengthBad 7 0 0x18), s.pagesCheck a.asid (ns ++ p.extentNeeds a n),
     require (decide (256 + ceilDiv (a.d * a.vRated) (10 ^ 9) + 1 ≤ (s.stream a.stream).depth)) (lengthBad 7 0 0x0B),
     s.locksCheck a p ns qs, s.deadlinesCheck a qs]

/-- JOB_ADMIT's own checks, in the order of R435. -/
def State.admitCheck (a : AdmitParams) (s : State) : Option Reject :=
  match firstOf
    [(s.template a.template).map fun _ => resHeld Op.jobAdmit Op.jobAdmit 17 a.template noPillow a.template,
     require (s.loadedPrick a.prk).isSome stateRefused, s.speedCheck a,
     require ((s.stream a.stream).bound && (s.stream a.stream).closing.isNone) stateRefused,
     require (s.mapServed (bothMaps a)) stateRefused,
     s.needAsid a.asid 0] with
  | some r => some r
  | none =>
    let p := (s.loadedPrick a.prk).getD emptyPrick
    firstOf
      [p.windowsGiven 0xA0 a.wmask, s.windowsFree Op.jobAdmit (p.claims (bothMaps a)), s.loadCheck a p,
       s.demandCheck a (s.allVerdicts a (s.testPillows a p))]

/-! ## Acceptance (R41, R435) -/

/-- Every pillow's loose-enable bit as the templates stand. -/
def State.setLooseBits (s : State) : State :=
  let ts := s.admitted.map fun x => x.2.p
  { s with pillows := tmapTo (fun _ => {}) (fun q x => { x with looseEn := looseUnder ts q }) nPillows s.pillows }

/-- Whether loose work that has started is still on a pillow. -/
def State.looseLeft (q : Nat) (s : State) : Bool :=
  let x := s.pillow q
  let loose (r : Run) : Bool := (s.job r.ctx).any fun j => !j.pinned
  x.run.any loose || x.saving.isSome || x.restoring.isSome

/-- Whether a template's acceptance still waits for loose work to be saved. -/
def State.acceptWaits (a : AdmitParams) (s : State) : Bool :=
  !a.looseOk && (List.range nPillows).any fun q => (a.mapA.contains q || a.mapB.contains q) && s.looseLeft q

/-- A template is accepted: it releases from the row of HWM + 1 on, and the reply goes. -/
def State.accept (n : Nat) (s : State) : State :=
  match s.template n with
  | none => s
  | some t =>
    let t := { t with accepted := true, hdr := none, nextRow := s.rowStart t (s.tb.hwm + 1) }
    let h := (s.template n).bind Template.hdr
    let s := s.setTemplate n (some t)
    match h with
    | some h => s.done h Op.jobAdmit 0 t.reply
    | none => s

/-- Loose stages that a cleared bit stops leave their pillows at their next pre-emption points. -/
def State.stopLoose (a : AdmitParams) (s : State) : State :=
  if a.looseOk then s
  else s.settlePillows ((List.range nPillows).filter fun q => a.mapA.contains q || a.mapB.contains q)

/-- The reply of R435 after the 16 B header. -/
def State.admitReply (a : AdmitParams) (p : Prick) (vs : List (Nat × Verdict)) (s : State) : Bytes :=
  let (sp, sl) := vs.foldl (fun (m : Nat × Option Nat) (q, v) =>
    match v.slack, m.2 with
    | some x, some y => if x < y then (q, some x) else m
    | some x, none => (q, some x)
    | none, _ => m) (noPillow, none)
  let c := (List.range p.nStages).foldl (fun m k => max m (s.stageC a p k)) 0
  leBytes 2 (ctxCount a) ++ leBytes 2 (vs.foldl (fun m x => max m x.2.u) 0) ++ leBytes 1 sp ++ zeros 3
    ++ leBytes 4 (min 0xFFFF_FFFF (sl.getD 0)) ++ leBytes 4 (min 0xFFFF_FFFF c)

/-- JOB_ADMIT's effect: contexts, windows, tables and locks are the template's; it is accepted at once unless
loose work has to leave first. -/
def State.admitDo (h : Hdr) (a : AdmitParams) (s : State) : State :=
  let p := (s.loadedPrick a.prk).getD emptyPrick
  let n := ctxCount a
  let ns := p.pageNeeds a n
  let reply := s.admitReply a p (s.allVerdicts a (s.testPillows a p))
  let locks := (s.testPillows a p).map fun q => (q, s.locksOn a p ns q)
  let t : Template :=
    { p := a, accepted := false, withdrawn := false, hdr := some h, ctxs := s.freeCtxs n, nextRow := 0
      rowIdx := 0, rows := [], reply := reply }
  let s := (p.claims (bothMaps a)).foldl (claimWindow Op.jobAdmit true a.template a.win) s
  let s := (p.pillowsOf (bothMaps a)).foldl (State.place p a.template) s
  let s := locks.foldl (fun s x => s.modPillow x.1 (Pillow.locked a.template x.2)) s
  let s := ((s.setTemplate a.template (some t)).release Op.jobAdmit h.tag).setLooseBits.stopLoose a
  if s.acceptWaits a then s else s.accept a.template

/-- The parameter ranges of JOB_ADMIT. -/
def admitParams (a : AdmitParams) : Option Reject :=
  firstOf
    [require (decide (a.template ≤ 255)) (paramBadAt 8), require (decide (a.stream ≤ 15)) (paramBadAt 0x0B),
     require (decide (a.asid ≤ 1023)) (paramBadAt 0x0C), require (inRange 1 a.instances 64) (paramBadAt 0x0E),
     require (inRange 1 a.period 65535) (paramBadAt 0x10), mapParams 0x40 a.mapA, mapParams 0x70 a.mapB,
     winParams 0xA0 a.wmask a.win]

/-- JOB_ADMIT (R435). -/
def execJobAdmit (h : Hdr) (p : AdmitParams) (s : State) : Out :=
  hostCommand h Op.jobAdmit 0 false (admitParams p) (State.admitCheck p) (State.admitDo h p) s

/-- JOB_ADMIT_ACCEPT: the last loose stage that the acceptance waited for has been saved (R435). -/
def execJobAdmitAccept (t template : Nat) (s : State) : Out :=
  let s := s.advance t
  .next
    (match s.template template with
      | some x => if s.alive && !x.accepted && !s.acceptWaits x.p then s.accept template else s
      | none => s)

/-! ## JOB_SUBMIT and PARTIAL_CAPTURE -/

/-- The parameter ranges of a submission. -/
def submitParams (x : SubmitParams) (more : List (Option Reject)) : Option Reject :=
  firstOf
    ([require (decide (x.port ≤ 3)) (paramBadAt 9), require (decide (x.asid ≤ 1023)) (paramBadAt 0x0A),
      mapParams 0x28 x.map] ++ more ++ [winParams 0x68 x.wmask x.win])

/-- The lengths submitted. -/
def submitLen (x : SubmitParams) (i : Nat) : Option Nat := some (nth x.len i)

/-- The checks of a submission (R182, R436). -/
def State.submitCheck (claim : Nat) (x : SubmitParams) (s : State) : Option Reject :=
  match firstOf
    [require (s.loadedPrick x.prk).isSome stateRefused, require (s.mapServed [x.map]) stateRefused,
     s.needAsid x.asid 0] with
  | some r => some r
  | none =>
    let p := (s.loadedPrick x.prk).getD emptyPrick
    let len := submitLen x
    firstOf
      [p.mapped x.map 0x28, p.windowsGiven 0x68 x.wmask, s.windowsFree claim (p.claims [x.map]),
       (if p.plan then none else p.judge len), s.placementCheck p len [x.map],
       firstEntry p.nStages (p.depthCheck len 0x68 x.win), s.tablesTake p (p.pillowsOf [x.map]),
       require (!(s.freeCtxs 1).isEmpty) { status := Status.ctxFull }]

/-- The job of a submission (R127, R148, R436). -/
def State.looseJob (x : SubmitParams) (cap mode : Nat) (seed : BitVec 32) (s : State) : Job :=
  let p := (s.loadedPrick x.prk).getD emptyPrick
  { pinned := false, template := 0xFFFF, inst := 0, stream := 0, prk := x.prk, asid := x.asid, seed := seed
    sr := 0, tRel := s.now, tLast := 0, firstLine := 0, deadline := 0, sheet := s.sheets.sheet
    slotTag := p.slotTag, recTag := x.recTag, port := x.port, order := s.order, ctxIdx := 0, map := x.map
    len := x.len, len0 := x.len, stages := p.stageTable x.map 0 0 0, capBuf := cap, capMode := mode
    empty := p.emptyLen x.len }

/-- The first stages of a loose job become ready; one with an empty length runs no work, and its record is due
at once (R148, R168). -/
def State.startLoose (c : Nat) (s : State) : State :=
  match s.job c with
  | none => s
  | some j =>
    if j.empty then s.setJob c (some j.ended)
    else
      let p := s.prkOf j
      let ks := (List.range p.nStages).filter fun k => (p.stage k).pred == 0xFF
      (ks.foldl (fun s k => s.makeReady c k) s).settlePillows j.pillows

/-- A submission's effect: a context, the windows, the tables, and the reply with CTX. -/
def State.submitDo (h : Hdr) (op : Nat) (x : SubmitParams) (cap mode : Nat) (seed : BitVec 32) (s : State) :
    State :=
  let p := (s.loadedPrick x.prk).getD emptyPrick
  match s.freeCtxs 1 with
  | c :: _ =>
    let (d, s) := s.draw
    let j := { s.looseJob x cap mode seed with tLast := d.toNat }
    let s := (p.claims [x.map]).foldl (claimWindow op false c x.win) s
    let s := (p.pillowsOf [x.map]).foldl (State.place p (0x1_0000 + c)) s
    let s := ({ s with order := s.order + 1 }).setJob c (some j)
    let s := s.unpoison (csBase + 256 * c) (csBase + 256 * (c + 1))
    (s.startLoose c).done h op 0 (leBytes 2 c)
  | [] => s

/-- JOB_SUBMIT (R436). -/
def execJobSubmit (h : Hdr) (p : SubmitParams) (s : State) : Out :=
  hostCommand h Op.jobSubmit 0 false (submitParams p []) (State.submitCheck Op.jobSubmit p)
    (State.submitDo h Op.jobSubmit p 0 0 p.seed) s

/-- n bytes of virtual memory, where an address space maps them for reading. -/
def State.peek (asid va n : Nat) (s : State) : Option Bytes :=
  (vaPieces va n).foldl (fun b (v, k) => b.bind fun b =>
    match s.pageAt asid v with
    | some g => if g.r then some (b ++ s.load (g.physical v) k) else none
    | none => none) (some [])

/-- R131: a replay's buffer agrees with the pricking. -/
def State.replayCheck (x : SubmitParams) (cap mode : Nat) (s : State) : Option Reject :=
  if mode ≠ 2 then none
  else
    let (l, o, t) := ((s.loadedPrick x.prk).getD emptyPrick).captureShape (submitLen x)
    let ok := (s.peek x.asid cap 64).any fun b =>
      numAt 0 4 b == 0x4641_454C && numAt 4 2 b == 1 && numAt 0x10 2 b == l && numAt 0x12 2 b == o
        && numAt 0x0C 4 b == t
    require ok { status := Status.captureBad }

/-- The seed of a capture or replay (R131). -/
def State.captureSeed (x : SubmitParams) (cap mode : Nat) (s : State) : BitVec 32 :=
  if mode = 2 then BitVec.ofNat 32 (numAt 8 4 ((s.peek x.asid cap 64).getD [])) else x.seed

/-- PARTIAL_CAPTURE (R129, R131, R436). Only a loose job can be submitted with it. -/
def execPartialCapture (h : Hdr) (p : SubmitParams) (capbuf mode : Nat) (s : State) : Out :=
  hostCommand h Op.partialCapture 0 false
    (submitParams p [require (decide (capbuf < 2 ^ 48)) (paramBadAt 0x58), require (inRange 1 mode 2) (paramBadAt 0x60)])
    (fun s => firstOf [State.submitCheck Op.partialCapture p s, s.replayCheck p capbuf mode])
    (fun s => s.submitDo h Op.partialCapture p capbuf mode (s.captureSeed p capbuf mode)) s

/-! ## JOB_ABORT -/

/-- Whether a loose job waits suspended on a fault. -/
def State.suspendedJob (c : Nat) (s : State) : Bool :=
  s.pillows.any fun (_, x) => x.saves.any fun v => v.suspended && v.run.ctx == c

/-- JOB_ABORT of a loose job (R254, R437): every stage stops, at its next pre-emption point where it runs, and the reply
goes then; a suspended one ends with MAP_FAULT records, another commits none. -/
def State.abortLooseDo (h : Hdr) (c : Nat) (s : State) : State :=
  let s := s.release Op.jobAbort h.tag
  match s.job c with
  | none => s
  | some j =>
    if j.dead then s.done h Op.jobAbort 1 []
    else if s.suspendedJob c then
      (((s.modJob c fun j => { j with aborting := some h }).abortJob c Status.mapFault)).settlePillows j.pillows
    else
      let s := s.modJob c fun j => { j with aborting := some h }
      let out (x : Pillow) : Pillow :=
        { x with
          readyQ := x.readyQ.filter fun e => e.1 != c
          looseQ := x.looseQ.filter fun e => e.1 != c
          saves := x.saves.filter fun v => v.run.ctx != c || x.saving.any fun y => y.slot == v.slot }
      let s := { s with pillows := tmapTo (fun _ => {}) (fun _ x => out x) nPillows s.pillows }
      (s.settlePillows j.pillows).abortAsked c

/-- JOB_ABORT_LOOSE (R437). A job whose abort is under way is not in a state the opcode acts on (R531, assumption 73). -/
def execJobAbortLoose (h : Hdr) (ctx : Nat) (s : State) : Out :=
  hostCommand h Op.jobAbort 1 false none
    (fun s => firstOf
      [require ((s.job ctx).any fun j => !j.pinned) (paramBadAt 0x0A),
       require ((s.job ctx).any fun j => j.aborting.isNone) stateRefused])
    (State.abortLooseDo h ctx) s

/-- JOB_ABORT_TEMPLATE: no instance is released after it (R437). A template not yet accepted, or withdrawn already, is
not in a state the opcode acts on (R531, assumption 73). -/
def execJobAbortTemplate (h : Hdr) (template : Nat) (s : State) : Out :=
  hostCommand h Op.jobAbort 0 false none
    (fun s => firstOf
      [require (s.template template).isSome (paramBadAt 0x0A),
       require ((s.template template).any fun t => t.accepted && !t.withdrawn) stateRefused])
    (fun s =>
      (s.modTemplate template fun t => { t with withdrawn := true, hdr := some h }).release Op.jobAbort h.tag) s

/-- A withdrawn template's contexts, windows, entries, locks and rate are free, and the reply goes. -/
def State.dropTemplate (n : Nat) (t : Template) (s : State) : State :=
  let s := (s.setTemplate n none).freeOwner n true n
  let s := { s with pillows := tmapTo (fun _ => {}) (fun _ x => x.unlock n) nPillows s.pillows }
  let s := s.setLooseBits
  let s := match t.hdr with
    | some h => s.done h Op.jobAbort 0 []
    | none => s
  s.settlePillows (List.range nPillows)

/-- TEMPLATE_WITHDRAWN: the last instance of a withdrawn template has committed (R437). -/
def execTemplateWithdrawn (t template : Nat) (s : State) : Out :=
  let s := s.advance t
  .next
    (match s.template template with
      | some x =>
        if s.alive && x.withdrawn && !(s.liveJobs.any fun (_, j) => j.pinned && j.template == template) then
          s.dropTemplate template x
        else s
      | none => s)

/-! ## QC_COMMIT (R109, R110) -/

/-- Whether a commit of the staged set is refused. -/
def Pillow.commitRefused (x : Pillow) : Bool :=
  match tget (fun _ => none) x.qdesc x.qc.desc with
  | none => true
  | some e =>
    let q := qdescOf e.bytes
    q.dynamic || !f32PosNormal x.qc.scale || decide (zqMax q.a4 < x.qc.zq)
      || (tget (fun _ => none) x.qc.pend x.qc.desc).isSome || decide (16 ≤ x.qc.pend.length)

/-- COMMIT adds the staged set to the pending set, or is refused and changes nothing but REFUSED (R109, R110). An
idle pillow without sheet boundaries takes the set at once. -/
def State.qcCommit (p : Nat) (s : State) : State :=
  let x := s.pillow p
  if x.commitRefused then s.setPillow p { x with qc := { x.qc with refused := true } }
  else
    let v : ScaleSet := { scale := x.qc.scale, zq := x.qc.zq }
    (s.setPillow p { x with qc := { x.qc with pend := tput x.qc.desc (some v) x.qc.pend } }).idleAdopt p

/-- QC_COMMIT: a REG_WRITE of COMMIT = 1 (R109, R110). -/
def execQcCommit (h : Hdr) (pillow : Nat) (s : State) : Out :=
  hostCommand h Op.regWrite 0 false none (fun s => require (s.inService pillow) stateRefused)
    (fun s => (s.disarm.qcCommit pillow).done h Op.regWrite 0 []) s

end Sys2Proof.Machine
end

