-- ==== Sys2Proof/Machine/PicotPort.lean ====
section
/-! DEFINITION. The stamps and the speed of the web (R22, R23), the THREAD pins (R464 to R466), compare units'
claims and releases (R29 to R31, R439), and the Picot port: frames, slots, bursts and pick-ups (R455 to R463,
R445). -/

namespace Sys2Proof.Machine

/-! ## Stamps and speed -/

/-- The stamp of stitch st, where it is in the ring (R22). The ring holds consecutive stitches below HWM,
newest first. -/
def State.stampOf (st : Nat) (s : State) : Option Nat :=
  if s.tb.hwm < st then none
  else match s.tb.stamps[s.tb.hwm - st]? with
    | some (n, t) => if n = st then some t else none
    | none => none

/-- TB_SPEED in 1/256 st/s (R23), rounded to the nearest with halves to even and held at 0xFFFF_FFFF; two stamps of
one device time count as 1 ns apart (DESIGN CHOICE, assumption 119). -/
def State.speed (s : State) : Nat :=
  match s.tb.stamps.take 64 with
  | [] => 0
  | (_, t) :: r =>
    match r.getLast? with
    | none => 0
    | some (_, u) =>
      min 0xFFFF_FFFF (roundHalfEven ((r.length * 256 * 10 ^ 9 : Nat) : Int) (max 1 (t - u))).toNat

/-! ## THREAD pins -/

/-- A THREAD_PULSE action on pin p (R465). -/
def State.pulse (p : Nat) (s : State) : State :=
  let x := s.pin p
  if x.role ≠ 1 then s
  else
    let e := some (s.now + 10 * x.width)
    if x.pulse.isSome then s.setPin p { x with pulse := e, retrig := satAdd 0xFFFF x.retrig 1 }
    else
      (s.setPin p { x with pulse := e, level := !x.pol, pulses := satAdd 0xFFFF x.pulses 1 }).hcEdge p (!x.pol)

/-- PULSE_END: the pin returns to its inactive level, and is free when no unit names it any more (R464,
R465). -/
def execPulseEnd (t pin : Nat) (s : State) : Out :=
  let s := s.advance t
  let x := s.pin pin
  .next
    (match x.pulse with
      | some e =>
        if s.alive && decide (e ≤ s.now) then
          let x := { x with pulse := none, level := x.pol }
          let x := if x.users = 0 then { x with role := 0, holder := 0 } else x
          (s.setPin pin x).hcEdge pin x.pol
        else s
      | none => s)

/-- THREAD_TRIGGER_EDGE: a filtered edge of a pin in the TRIGGER role (R25, R368, R466). Every row is an edge,
whatever the level was when the pin was claimed; of a FREE pin, an input too, only the level follows. -/
def execThreadTriggerEdge (t pin : Nat) (rising : Bool) (s : State) : Out :=
  let s := s.advance t
  let x := s.pin pin
  .next
    (if s.alive && x.role == 0 then s.setPin pin { x with level := rising }
    else if s.alive && x.role == 2 then
      let wp := ofSigned 32 s.tb.wp
      let s := s.setPin pin { x with level := rising, edgeWp := if rising then wp else x.edgeWp }
      let s := if rising && s.sheets.pin == some pin then
        { s with sheets := { s.sheets with threadPend := true } } else s
      s.hcEdge pin rising
    else s)

/-! ## Compare units (R29 to R31) -/

/-- The lowest free compare unit. -/
def State.freeUnit (s : State) : Option Nat := lowest 64 fun n => !(s.unit n).claimed

/-- RES_HELD for a unit, naming its holder. -/
def State.unitHeld (claim n : Nat) (s : State) : Reject := resHeld (s.unit n).holder claim 1 n noPillow noOwner

/-- The target armed for a claim, none where it is past (R31). -/
def State.armTarget (target period : Nat) (s : State) : Option Nat :=
  let lim := s.tb.hwm + 1
  if lim < target then some target
  else if period = 0 then none
  else some (target + ((lim - target) / period + 1) * period)

/-- A unit is claimed and armed. -/
def State.claimUnit (n holder action arg period target : Nat) (s : State) : State :=
  s.setUnit n
    { target := target, period := period, claimed := true, armed := true, action := action, arg := arg
      holder := holder }

/-- A strobe pin loses a user; it is free when the last has gone and no pulse is in progress (R464). -/
def State.dropStrobe (p : Nat) (s : State) : State :=
  let x := s.pin p
  let x := { x with users := x.users - 1 }
  s.setPin p (if x.users = 0 ∧ x.pulse = none then { x with role := 0, holder := 0 } else x)

/-- A unit is free, and its strobe pin with it. -/
def State.releaseUnit (n : Nat) (s : State) : State :=
  let u := s.unit n
  let s := s.setUnit n {}
  if u.claimed ∧ u.action = 1 then s.dropStrobe u.arg else s

/-! ## Frames (R455 to R457, R463) -/

/-- Nominal slot ends in st from F. -/
def slotEnds : List Nat := [4, 6, 14, 16]

/-- Minimum slot lengths in ns. -/
def slotMins : List Nat := [2000, 1000, 1000, 1000]

/-- Timer slot lengths in ns (R463). -/
def timerSlots : List Nat := [25000, 12500, 50000, 12500]

/-- A frame starts with its pick-up slot. -/
def State.pkBegin (f : Nat) (deferred : Bool) (s : State) : State :=
  let x := s.pk
  let timer := s.tb.stall
  { s with pk := { x with
    frame := some { f := f, slot := 0, start := s.now, timer := timer, deferred := deferred, burst := none
                    cut := false }
    frames := (x.frames + 1) % 2 ^ 32, frameWp := f
    statStalled := x.statStalled || timer
    stallF := satAdd 0xFFFF_FFFF x.stallF (if timer then 1 else 0) } }

/-- Frames stop: the unit is free and the throw buffer is emptied (R457). -/
def State.pkStop (s : State) : State :=
  let s := s.releaseUnit s.pk.unit
  let x := s.pk
  { s with pk := { x with
    en := false, stopping := false, unit := 0, frame := none, deferred := none, buf := []
    dropFilt := satAdd 0xFFFF x.dropFilt x.buf.length } }

/-- A frame has ended: frames stop, a deferred frame starts, or in stall mode the next timer frame. -/
def State.pkFrameEnd (s : State) : State :=
  let s := { s with pk := { s.pk with frame := none } }
  if s.pk.stopping then s.pkStop
  else match s.pk.deferred with
    | some f => { s with pk := { s.pk with deferred := none } }.pkBegin f true
    | none => if s.tb.stall && s.pk.en then s.pkBegin s.tb.hwm false else s

/-- Whether the slot in progress ends now (R456, R463). -/
def State.slotDue (x : PkFrame) (s : State) : Bool :=
  x.burst.isNone
    && (x.cut
      || (if x.timer then decide (x.start + nth timerSlots x.slot ≤ s.now)
          else decide (x.f + nth slotEnds x.slot ≤ s.tb.hwm) && decide (x.start + nth slotMins x.slot ≤ s.now)))

/-- A PICOT_FRAME unit fires at stitch f (R455, R457). A last slot whose end is this stitch ends first. -/
def State.pkFire (f : Nat) (s : State) : State :=
  if !s.pk.en || s.pk.stopping then s
  else
    let s := match s.pk.frame with
      | some x => if x.slot = 3 ∧ s.slotDue x then s.pkFrameEnd else s
      | none => s
    let x := s.pk
    if x.frame.isNone then s.pkBegin f false
    else if x.deferred.isNone then
      { s with pk := { x with deferred := some f, deferredCnt := satAdd 0xFFFF x.deferredCnt 1 } }
    else { s with pk := { x with skipped := satAdd 0xFFFF x.skipped 1 } }

/-- STALL sets (R463): the slot in progress is due, and what follows runs on the timer. -/
def State.pkStall (s : State) : State :=
  match s.pk.frame with
  | some x =>
    let y := s.pk
    { s with pk := { y with
      frame := some { x with timer := true, cut := true }
      statStalled := y.statStalled || !x.timer
      stallF := satAdd 0xFFFF_FFFF y.stallF (if x.timer then 0 else 1) } }
  | none => if s.pk.en then s.pkBegin s.tb.hwm false else s

/-! ## The throw burst (R458 to R461) -/

/-- CRC-16, polynomial 0x1021, initial value 0xFFFF (R460). -/
def crc16 (b : Bytes) : Nat :=
  b.foldl (fun (c : Nat) x =>
    (List.range 8).foldl (fun (c : Nat) _ =>
      if 0x8000 ≤ c then (2 * c % 2 ^ 16) ^^^ 0x1021 else 2 * c) (c ^^^ (256 * x.toNat))) 0xFFFF

/-- The records that a throw slot's burst may hold (R458). -/
def State.burstFit (x : PkFrame) (s : State) : Nat :=
  let (num, den) :=
    if x.timer then (50000, 1)
    else if s.speed = 0 then (1000, 1)
    else ((x.f + 14 - s.tb.hwm) * 256 * 10 ^ 9, s.speed)
  let (num, den) := if num < 1000 * den then (1000, 1) else (num, den)
  (3 * num - 1280 * den) / (1280 * den)

/-- The burst of the throw slot that starts now (R458, R459, R461). -/
def State.throwBurst (x : PkFrame) (s : State) : State :=
  let k := s.pk
  let n := min k.buf.length (min 128 (s.burstFit x))
  let head := leBytes 1 0xA5 ++ leBytes 1 k.frames ++ leBytes 1 n
    ++ leBytes 1 (flag 0 x.timer + flag 1 k.lostSince + flag 2 x.deferred)
  let body := head ++ (k.buf.take n).flatten
  let burst := body ++ leBytes 2 (crc16 body)
  { s with pk := { k with
    frame := some { x with burst := some (s.now + 200 + 20 * burst.length) }
    buf := k.buf.drop n, lostSince := false, lastBurst := burst
    thrown := satAdd 0xFFFF_FFFF k.thrown n } }

/-- A pinned compact record of a stream is delivered to the port, or another one (R461). -/
def State.pkDeliver (stream : Option Nat) (rec : Bytes) (s : State) : State :=
  let x := s.pk
  if !(x.en && stream.any fun n => x.streams.getLsbD n) then
    { s with pk := { x with dropFilt := satAdd 0xFFFF x.dropFilt 1 } }
  else if x.buf.length < 1024 then { s with pk := { x with buf := x.buf ++ [rec] } }
  else
    ({ s with pk := { x with
      buf := x.buf.drop 1 ++ [rec], dropFull := satAdd 0xFFFF x.dropFull 1, statLost := true
      lostSince := true } }).report { cls := 13, body := leBytes 1 0x80 ++ leBytes 4 0 }

/-- THROW_BURST_END: the CRC has been sent; a burst that outlasted its slot sets OVERRUN (R456, R458). -/
def execThrowBurstEnd (t : Nat) (s : State) : Out :=
  let s := s.advance t
  .next
    (match s.pk.frame with
      | some x =>
        match x.burst with
        | some e =>
          if s.alive && decide (e ≤ s.now) then
            let late := !x.cut
              && (if x.timer then decide (x.start + nth timerSlots 2 < e)
                  else decide (x.start + nth slotMins 2 < e) && (s.stampOf (x.f + 14)).any fun u => decide (u < e))
            { s with pk := { s.pk with
              frame := some { x with burst := none }, statOverrun := s.pk.statOverrun || late } }
          else s
        | none => s
      | none => s)

/-! ## The pick-up (R462) -/

/-- The pick-up slot of a frame ends with the bytes that the press strobed. -/
def State.pickUp (f : Nat) (bytes : Bytes) (s : State) : State :=
  let x := s.pk
  if bytes.length < 8 then { s with pk := { x with short := satAdd 0xFFFF x.short 1 } }
  else
    { s with pk := { x with
      pick := bytes.take 8, pickWp := f % 2 ^ 32, pickFr := x.frames
      long := satAdd 0xFFFF x.long (if 8 < bytes.length then 1 else 0) } }

/-- PICOT_SLOT_END (R456): the next slot begins, or the frame ends; with it, the burst or the pick-up. -/
def execPicotSlotEnd (t : Nat) (picked : Bytes) (s : State) : Out :=
  let s := s.advance t
  .next
    (match s.pk.frame with
      | some x =>
        if !s.alive || !s.slotDue x then s
        else if x.slot = 3 then s.pkFrameEnd
        else
          let s := if x.slot = 0 ∧ s.picotRole = 1 then s.pickUp x.f picked else s
          let y := { x with slot := x.slot + 1, start := s.now, cut := false }
          let s := { s with pk := { s.pk with frame := some y } }
          if y.slot = 2 then s.throwBurst y else s
      | none => s)

/-! ## PK_CONFIG (R445, R454, R455) -/

/-- PK_CONFIG OP 0's own checks. -/
def pkEnableCheck (origin : Nat) (s : State) : Option Reject :=
  firstOf
    [require (s.picotRole != 0) stateRefused,
     require (!s.pk.en) (resHeld Op.pkConfig Op.pkConfig 1 s.pk.unit noPillow noOwner),
     require s.freeUnit.isSome (s.unitHeld Op.pkConfig 63),
     require (decide (s.tb.hwm + 1 < origin)) { status := Status.tbPast }]

/-- PK_CONFIG OP 0's effect: the Picot I/O domain is on, the unit is claimed, and frames count from 0. In stall
mode a timer frame starts at once. -/
def pkEnableDo (h : Hdr) (streams : BitVec 16) (origin : Nat) (s : State) : State :=
  match s.freeUnit with
  | none => s
  | some n =>
    let s := s.claimUnit n Op.pkConfig 4 0 16 origin
    let s := { s with
      power := { s.power with on := setDomains true [313] s.power.on }
      pk := { s.pk with en := true, unit := n, streams := streams, frames := 0 } }
    let s := if s.tb.stall then s.pkBegin s.tb.hwm false else s
    s.done h Op.pkConfig 0 (leBytes 1 n)

/-- PK_CONFIG, OP 0. -/
def execPkConfigEnable (h : Hdr) (streams : BitVec 16) (origin : Nat) (s : State) : Out :=
  hostCommand h Op.pkConfig 0 false none (pkEnableCheck origin) (pkEnableDo h streams origin) s

/-- PK_CONFIG, OP 1: frames stop at the end of the frame in progress, or at once (R457). -/
def execPkConfigDisable (h : Hdr) (s : State) : Out :=
  hostCommand h Op.pkConfig 1 false none (fun s => require (s.picotRole != 0) stateRefused)
    (fun s =>
      let s := if !s.pk.en then s
        else if s.pk.frame.isNone then s.pkStop
        else { s with pk := { s.pk with stopping := true } }
      s.done h Op.pkConfig 1 (leBytes 1 0xFF)) s

end Sys2Proof.Machine
end

