-- ==== Sys2Proof/Machine/Release.lean ====
section
/-! DEFINITION. The release of patch rows (R33 to R37, R51, R52, R163, R169, R494): when a row is due, and the
jobs of its instances. -/

namespace Sys2Proof.Machine

/-! ## Rows (R33 to R35) -/

/-- The last stitch of a template's next row: the row's own, or the last of a sheet that ends before it. -/
def State.rowLast (t : Template) (s : State) : Nat :=
  let o := (s.stream t.p.stream).sheetOfs
  let full := t.nextRow + max 1 t.p.period - 1
  ((s.sheets.bounds.map fun b => b.2 + o).filter fun b => decide (t.nextRow < b) && decide (b ≤ full)).foldl
    (fun m b => min m (b - 1)) full

/-- Whether the stream's lines up to a stitch have landed or been passed over. -/
def Stream.passed (st : Nat) (x : Stream) : Bool := decide ((st : Int) - x.origin < x.next)

/-- The line-lag budget in st (R34). -/
def lagStitches (a : AdmitParams) : Nat := ceilDiv (a.lag * a.vRated) (10 ^ 9)

/-- Whether a template's next row is to be released: its last stitch is behind, its last line has landed or been
passed over or its lag budget is used up, and its contexts are free. -/
def State.rowDue (t : Template) (s : State) : Bool :=
  let st := s.rowLast t
  t.accepted && !t.withdrawn && decide (st ≤ s.tb.hwm)
    && ((s.stream t.p.stream).passed st || decide (st + lagStitches t.p ≤ s.tb.hwm))
    && decide (t.p.instances ≤ t.ctxs.countP fun c => (s.job c).isNone)

/-- The landing time of a stitch's line. -/
def Stream.landTime (st : Int) (x : Stream) : Option Nat :=
  (x.landed.find? fun l => (l.1 : Int) == st - x.origin).map Prod.snd

/-- The landed count of the n stitches from f on (R286). -/
def Stream.landedRun (f n : Nat) (x : Stream) : Nat :=
  ((List.range n).takeWhile fun i => (x.landTime ((f + i : Nat) : Int)).isSome).length

/-! ## What serves (R37, R324, R494) -/

/-- Whether a slot serves instances of a sheet (R324, R327). -/
def Slot.serves (sheet : Nat) (x : Slot) : Bool :=
  (x.state == 3 && decide (x.fromSheet ≤ sheet))
    || (x.state == 4 && decide (x.fromSheet ≤ sheet) && decide (sheet < x.sheet))

/-- Whether instances of a pricking cannot run on physical pillow q: it is out of service, or a bobbin of the
pricking's slots there is FAILED (R494). -/
def State.pillowLost (p : Prick) (q : Nat) (s : State) : Bool :=
  !s.inService q || p.slots.any fun n =>
    let sl := s.slot n
    sl.targets.any fun g => sl.physPillow g.ppil == q && (s.bobbin q ((s.pillow q).physOf g.logical)).state == 5

/-- The map of an instance: the other map's pillow stands in for one that is lost (R493). -/
def State.mapNow (a : AdmitParams) (p : Prick) (i : Nat) (s : State) : List Nat :=
  let m := mapOf a i
  let other := if m = a.mapA then a.mapB else a.mapA
  m.zipIdx.map fun (q, l) => if q != 0xFF && s.pillowLost p q && nth other l < nPillows then nth other l else q

/-! ## The release -/

/-- A release as it was judged. -/
structure Rel where
  sr : Nat
  first : Nat
  tRel : Nat
  tLast : Nat
  landed : Nat
  sheet : Nat
  lag : Bool
  fast : Bool
  offline : Bool
  deriving DecidableEq, Repr

/-- Run-time length i of an instance, and whether it is clamped (R163, R169). -/
def instLen (a : AdmitParams) (p : Prick) (landed i : Nat) : Nat × Bool :=
  let v := if i = 0 ∧ p.lines then landed else nth a.len i
  if i < p.nLen ∧ p.lenMax i < v then (p.lenMax i, true) else (v, false)

/-- The job of instance i in context c (R36, R38, R127). -/
def State.instJob (n : Nat) (t : Template) (r : Rel) (i c : Nat) (s : State) : Job :=
  let a := t.p
  let p := (s.prick a.prk).getD emptyPrick
  let map := s.mapNow a p i
  let lens := (List.range 4).map (instLen a p r.landed)
  let x := s.stream a.stream
  let j : Job :=
    { pinned := true, template := n, inst := i, stream := a.stream, prk := a.prk, asid := a.asid
      seed := a.seed ^^^ BitVec.ofNat 32 r.sr, sr := r.sr, tRel := r.tRel, tLast := r.tLast
      firstLine := (r.first : Int) - x.origin, deadline := r.tRel + a.d, sheet := r.sheet
      slotTag := p.slotTag, recTag := 0, port := x.rport, order := 0, ctxIdx := t.ctxs.idxOf c, map := map
      len := lens.map Prod.fst, len0 := lens.map Prod.fst
      clamp := lens.zipIdx.foldl (fun m x => if x.1.2 then m ||| (1#4 <<< x.2) else m) 0
      stages := p.stageTable map r.tRel a.lag a.d, lineLag := r.lag }
  let lost := (p.pillowsOf [map]).any (s.pillowLost p)
  if lost then { j.ended with offline := true, withdrawn := true }
  else if r.offline then { j.ended with offline := true }
  else if p.emptyLen j.len then { j.ended with empty := true }
  else j

/-- An overspeed release taints a pillow: the pinned stage that runs there runs inside the taint (R52). -/
def State.taintPillow (p : Nat) (s : State) : State :=
  let s := s.modPillow p fun x => { x with taint := true }
  match (s.pillow p).run with
  | some r => s.modJob r.ctx fun j => if j.pinned then { j with overspeed := true } else j
  | none => s

/-- An instance is released: its context's entry is written and in use, clamps are counted, and an overspeed release
taints its pillows (R52, R186). -/
def State.startInst (r : Rel) (c : Nat) (j : Job) (s : State) : State :=
  let s := (s.setJob c (some j)).unpoison (csBase + 256 * c) (csBase + 256 * (c + 1))
  let k := ((List.range 4).filter fun i => j.clamp.getLsbD i).length
  let s := s.modPillow (s.recordPillow j) fun x =>
    { x with cnt := { x.cnt with sqTrunc := satAdd 0xFFFF_FFFF x.cnt.sqTrunc k } }
  if r.fast && !j.dead then
    j.pillows.foldl (fun s q => s.taintPillow q) s
  else s

/-- The patch speed of a release in 1/256 st/s, where the stamp of S_r − 255 is still in the ring (R51). -/
def State.patchSpeed (sr tRel : Nat) (s : State) : Option Nat :=
  if sr < 255 then none
  else (s.stampOf (sr - 255)).map fun u =>
    min 0xFFFF_FFFF (roundHalfEven ((255 * 256 * 10 ^ 9 : Nat) : Int) (max 1 (tRel - u))).toNat

/-- Whether a release is overspeed: 255 st / Δt above v_rated, or the stamp has left the ring (R51). A stamp that was
never taken (S_r below 255, or a stitch before a preset or a start) counts as one that has left the ring (DESIGN
CHOICE, assumption 120). -/
def State.tooFast (vRated sr tRel : Nat) (s : State) : Bool :=
  if sr < 255 then true
  else match s.stampOf (sr - 255) with
    | some u => decide (vRated * (tRel - u) < 255 * 10 ^ 9)
    | none => true

/-- An overspeed release is counted and reported (R51); the speed reported without a stamp is not stated
(assumption 13). -/
def State.reportFast (n sr tRel : Nat) (s : State) : State :=
  let s := { s with tb := { s.tb with
    overspeed := satAdd 0xFFFF s.tb.overspeed 1, overspeedSeen := true } }
  match s.patchSpeed sr tRel with
  | some v => s.report { cls := 23, template := n, body := leBytes 4 v }
  | none =>
    let (d, s) := s.draw
    s.report { cls := 23, template := n, body := leBytes 4 d.toNat }

/-- The release time: the stamp of S_r; one that has left the ring is a time up to now that the spec does not
state (R33, assumption 13). -/
def State.releaseTime (sr : Nat) (s : State) : Nat × State :=
  match s.stampOf sr with
  | some u => (u, s)
  | none => let (d, s) := s.draw; (d.toNat % (s.now + 1), s)

/-- T_LAST of a patch: the landing time of its last landed line; not stated when none has landed. -/
def State.lastLanding (x : Stream) (f n : Nat) (s : State) : Nat × State :=
  match (List.range n).reverse.findSome? fun i => x.landTime ((f + i : Nat) : Int) with
  | some u => (u, s)
  | none => let (d, s) := s.draw; (d.toNat, s)

/-- A release whose sheet lies before the oldest boundary kept is counted (R26). -/
def State.noteOld (ofs sr : Nat) (s : State) : State :=
  match s.sheets.bounds.getLast? with
  | some (_, w) =>
    if s.sheets.bounds.length = 4 ∧ sr < w + ofs then { s with tb := { s.tb with sheetOld := true } } else s
  | none => s

/-- The next row of template n is released (R33 to R37, R51). The row counts as one release in TB_OVERSPEED, with all
its instances (DESIGN CHOICE, assumption 120: R45 counts every instance as a release). -/
def State.releaseRow (n : Nat) (t : Template) (s : State) : State :=
  let a := t.p
  let x := s.stream a.stream
  let sr := s.rowLast t
  let len := sr + 1 - t.nextRow
  let (tRel, s) := s.releaseTime sr
  let (tLast, s) := s.lastLanding x t.nextRow len
  let landed := x.landedRun t.nextRow len
  let lag := !x.passed sr || decide (landed < len) || (x.landTime sr).any fun u => decide (tRel + a.lag < u)
  let sheet := (s.sheetAt x.sheetOfs sr).1
  let fast := s.tooFast a.vRated sr tRel
  let p := (s.prick a.prk).getD emptyPrick
  let r : Rel :=
    { sr := sr, first := t.nextRow, tRel := tRel, tLast := tLast, landed := landed, sheet := sheet, lag := lag
      fast := fast, offline := p.slots.any fun k => !(s.slot k).serves sheet }
  let s := s.noteOld x.sheetOfs sr
  let s := if lag then
      s.report { cls := 24, template := n, body := leBytes 1 a.stream ++ leBytes 6 sr ++ leBytes 2 landed }
    else s
  let s := if fast then s.reportFast n sr tRel else s
  let cs := (t.ctxs.filter fun c => (s.job c).isNone).take a.instances
  let js := cs.zipIdx.map fun (c, i) => (c, s.instJob n t r i c)
  let s := js.foldl (fun s (c, j) => s.startInst r c j) s
  let row : PatchRow := { first := t.nextRow, last := sr, sheet := sheet, waiting := a.instances }
  s.setTemplate n (some { t with
    nextRow := sr + 1, rowIdx := t.rowIdx + 1
    rows := (t.rows.filter fun r => r.waiting != 0 || !x.passed r.last) ++ [row] })

/-- The rows of template n that are due, at most `fuel` of them. -/
def State.releaseRows (n : Nat) : Nat → State → State
  | 0, s => s
  | fuel + 1, s =>
    match s.template n with
    | some t => if s.rowDue t then (s.releaseRow n t).releaseRows n fuel else s
    | none => s

/-- The rows that are due on the streams that meet f. -/
def State.releaseDue (f : Nat → Bool) (s : State) : State :=
  s.admitted.foldl (fun s (n, t) => if f t.p.stream then s.releaseRows n 64 else s) s

/-- A record of a row's instance has been delivered (R214). -/
def State.rowDelivered (j : Job) (s : State) : State :=
  let x := s.stream j.stream
  s.modTemplate j.template fun t => { t with
    rows := (t.rows.map fun r =>
      if (r.first : Int) - x.origin = j.firstLine then { r with waiting := r.waiting - 1 } else r).filter
        fun r => r.waiting != 0 || !x.passed r.last }

/-- Whether a line belongs to a patch that has been released (R286). -/
def State.lineReleased (n line : Nat) (s : State) : Bool :=
  let st : Nat := (s.stream n).origin + line
  s.admitted.any fun (_, t) =>
    t.p.stream == n && t.rows.any fun r => decide (r.first ≤ st) && decide (st ≤ r.last)

end Sys2Proof.Machine
end

