-- ==== Sys2Proof/Machine/Streams.lean ====
section
/-! DEFINITION. Frames on the ports (R278, R281, R290), streams: STREAM_OPEN and STREAM_CLOSE (R213, R284, R289,
R440, R441), line packets and landing (R214, R215, R282 to R288), and the links (R280). -/

namespace Sys2Proof.Machine

/-! ## Frames (R281) -/

/-- The ones-complement sum of an octet string's 16-bit words, folded. -/
def onesSum (b : Bytes) : Nat :=
  let words : Nat → Bytes → Nat := fun fuel b =>
    (List.range fuel).foldl (fun n i => n + 256 * numAt (2 * i) 1 b + numAt (2 * i + 1) 1 b) 0
  let n := words (ceilDiv b.length 2) b
  let n := n % 65536 + n / 65536
  n % 65536 + n / 65536

/-- Whether an internet checksum over an octet string that contains it is good. -/
def sumGood (b : Bytes) : Bool := onesSum b == 0xFFFF

/-- An Ethernet frame's parts: destination and source address, the 802.1Q VID where it carries one tag, the
EtherType and what follows it. -/
structure EthFrame where
  dst : Bytes
  src : Bytes
  vid : Option Nat
  etype : Nat
  rest : Bytes
  deriving DecidableEq, Repr

/-- The parts of a frame given without its FCS. -/
def ethOf (f : Bytes) : EthFrame :=
  let ty := beNat (sliceBytes 12 2 f)
  if ty = 0x8100 then
    { dst := f.take 6, src := sliceBytes 6 6 f, vid := some (beNat (sliceBytes 14 2 f) % 4096)
      etype := beNat (sliceBytes 16 2 f), rest := f.drop 18 }
  else { dst := f.take 6, src := sliceBytes 6 6 f, vid := none, etype := ty, rest := f.drop 14 }

/-- The frames of 64 B to 9,216 B, FCS included (R280). -/
def sizeOk (f : Bytes) : Bool := inRange 60 f.length 9212

/-- Untagged, or tagged with the port's VID; a VID of 0 accepts untagged frames only (R281, R442). -/
def Port.tagOk (x : Port) (e : EthFrame) : Bool := e.vid.all fun v => x.vid != 0 && v == x.vid

/-- A whole IPv4 packet: its source and destination address, protocol and payload. -/
structure IpPacket where
  src : Bytes
  dst : Bytes
  proto : Nat
  body : Bytes
  deriving DecidableEq, Repr

/-- The IPv4 packet of a frame: IHL 5, MF 0, fragment offset 0, a good header checksum (R281). -/
def ipOf (b : Bytes) : Option IpPacket :=
  let len := beNat (sliceBytes 2 2 b)
  if numAt 0 1 b = 0x45 ∧ beNat (sliceBytes 6 2 b) % 0x4000 = 0 ∧ sumGood (b.take 20) ∧ 20 ≤ len
      ∧ len ≤ b.length then
    some { src := sliceBytes 12 4 b, dst := sliceBytes 16 4 b, proto := numAt 9 1 b
           body := (b.take len).drop 20 }
  else none

/-- A UDP datagram: its ports and payload. -/
structure Datagram where
  srcPort : Nat
  dstPort : Nat
  data : Bytes
  deriving DecidableEq, Repr

/-- The datagram of an IPv4 packet with a good checksum or a checksum of 0. -/
def udpOf (p : IpPacket) : Option Datagram :=
  let b := p.body
  let len := beNat (sliceBytes 4 2 b)
  let whole := b.take len
  if p.proto = 17 ∧ 8 ≤ len ∧ len ≤ b.length
      ∧ (beNat (sliceBytes 6 2 b) = 0 ∨ sumGood (p.src ++ p.dst ++ [0, 17] ++ beBytes 2 len ++ whole)) then
    some { srcPort := beNat (sliceBytes 0 2 b), dstPort := beNat (sliceBytes 2 2 b), data := whole.drop 8 }
  else none

/-- The IPv4 packet of a frame to the port's own MAC address, under the tag rule. -/
def Port.ipFor (x : Port) (f : Bytes) : Option IpPacket :=
  let e := ethOf f
  if sizeOk f ∧ e.dst = x.mac ∧ x.tagOk e ∧ e.etype = 0x0800 then ipOf e.rest else none

/-- The datagram of a frame to the port's own addresses (R281). -/
def Port.udpFor (x : Port) (f : Bytes) : Option Datagram :=
  (x.ipFor f).bind fun p => if p.dst = x.ipv4 then udpOf p else none

/-- Whether frames arise on a port. -/
def State.portUp (p : Nat) (s : State) : Bool :=
  s.alive && s.domainOn (288 + p) && (s.port p).en && (s.port p).link

/-- A frame is discarded. -/
def State.discard (p : Nat) (s : State) : State :=
  s.modPort p fun x => { x with rxd := satAdd 0xFFFF_FFFF x.rxd 1 }

/-- A frame is accepted. -/
def State.accepted (p : Nat) (s : State) : State :=
  s.modPort p fun x => { x with rxf := satAdd 0xFFFF_FFFF x.rxf 1 }

/-! ## Landing (R286) -/

/-- The line-packet class. -/
def State.lineReport (port cause line : Nat) (s : State) : State :=
  s.report { cls := 10, body := leBytes 1 port ++ leBytes 1 cause ++ leBytes 4 line ++ leBytes 6 s.tb.hwm }

/-- Changes the line NEXT moves over. -/
def Stream.step (x : Stream) : Stream := { x with inProg := x.inProg.filter (·.line != x.next), next := x.next + 1 }

/-- Line NEXT lands with its landing time (R286, R288). Of a line of a patch already released, R34 says that it does
not move NEXT, R286 that it lands as any other line does: the model moves NEXT with it (DESIGN CHOICE, assumption
116). -/
def State.landLine (n port time : Nat) (s : State) : State :=
  let x := s.stream n
  let l := x.next
  let st := x.origin + l
  let late := s.lineReleased n l
  let skew := decide (s.tb.hwm + 16 < st) || decide (st + 4096 < s.tb.hwm)
  let x := { x.step with
    landed := (l, time) :: x.landed.filter fun y => y.1 % max 1 x.depth != l % max 1 x.depth
    late := satAdd 0xFFFF_FFFF x.late (if late then 1 else 0)
    skew := satAdd 0xFFFF_FFFF x.skew (if skew then 1 else 0) }
  let s := s.setStream n x
  if skew then s.lineReport port 2 l else s

/-- NEXT passes over refused lines and lands complete ones. -/
def State.landMore (n port : Nat) : Nat → State → State
  | 0, s => s
  | fuel + 1, s =>
    let x := s.stream n
    match x.inProg.find? fun m => m.line == x.next with
    | some m =>
      if m.refused then (s.setStream n x.step).landMore n port fuel
      else match m.full with
        | some u => (s.landLine n port u).landMore n port fuel
        | none => s
    | none => s

/-- Line NEXT is declared missing; a refused line is only passed over. -/
def State.missLine (n port : Nat) (s : State) : State :=
  let x := s.stream n
  let refused := x.inProg.any fun m => m.line == x.next && m.refused
  (s.setStream n { x.step with missing := satAdd 0xFFFF_FFFF x.missing (if refused then 0 else 1) }).landMore n
    port 4

/-- Lines are declared missing until line `top` lies in progress: those that anything came of one by one, the
rest at once. -/
def State.missTo (n port top : Nat) (s : State) : State :=
  let s := (List.range 4).foldl (fun s _ => if (s.stream n).next + 4 ≤ top then s.missLine n port else s) s
  let x := s.stream n
  if x.next + 4 ≤ top then
    s.setStream n { x with
      next := top - 3, inProg := [], missing := satAdd 0xFFFF_FFFF x.missing (top - 3 - x.next) }
  else s

/-- Whether a line stands beside a refused one, in the run of consecutive refused lines that has been reported
(R215). -/
def Stream.besideRefused (line : Nat) (x : Stream) : Bool :=
  let beside (k : Nat) : Bool := k + 1 == line || line + 1 == k
  x.lastRefused.any beside || x.inProg.any fun m => m.refused && beside m.line

/-- The first payload of a line: it is refused where its slot still holds a line of the hold (R215), else it
takes the slot. -/
def State.openLine (n line : Nat) (s : State) : State :=
  let x := s.stream n
  let d := max 1 x.depth
  if x.landed.any fun l => l.1 % d == line % d && s.lineHeld n l.1 then
    let s := s.setStream n { x with
      inProg := x.inProg ++ [{ line := line, units := [], refused := true, full := none }]
      overrun := satAdd 0xFFFF x.overrun 1, lastRefused := some line }
    if x.besideRefused line then s else s.report { cls := 9, body := leBytes 1 n ++ leBytes 4 line }
  else
    s.setStream n { x with
      inProg := x.inProg ++ [{ line := line, units := [], refused := false, full := none }]
      landed := x.landed.filter fun l => l.1 % d != line % d }

/-- One 64 B unit of a line in progress: written into the slot, or counted as a duplicate (R285). -/
def State.takeUnit (n port line unit : Nat) (data : Bytes) (s : State) : State :=
  let x := s.stream n
  let known := x.inProg.any fun m => m.line == line && m.units.contains unit
  if known && x.secondary.isSome then s.modPort port fun y => { y with dup := satAdd 0xFFFF_FFFF y.dup 1 }
  else
    let s := s.storeBy 0 none (x.lineAddr line ((64 * unit : Nat) : Int)) data
    s.setStream n { x with inProg := x.inProg.map fun m =>
      if m.line = line ∧ !m.units.contains unit then { m with units := m.units ++ [unit] } else m }

/-- A line whose every unit has come is complete from this frame on. -/
def State.completeLine (n line : Nat) (s : State) : State :=
  s.modStream n fun x => { x with inProg := x.inProg.map fun m =>
    if m.line = line ∧ m.full = none ∧ m.units.length * 64 = x.pitch then { m with full := some s.now } else m }

/-- The payload of a line in progress (R286). -/
def State.takePayload (n port line ofs : Nat) (data : Bytes) (s : State) : State :=
  let has := (s.stream n).inProg.any fun m => m.line == line
  let s := if has then s else s.openLine n line
  let refused := (s.stream n).inProg.any fun m => m.line == line && m.refused
  let s := if refused then s
    else
      ((List.range (data.length / 64)).foldl (fun s i =>
        s.takeUnit n port line (ofs / 64 + i) (sliceBytes (64 * i) 64 data)) s).completeLine n line
  s.landMore n port 8

/-- A payload of a stream line (R286): late, or of a line that NEXT is moved up to. -/
def State.takeLine (n port : Nat) (line : Int) (ofs : Nat) (data : Bytes) (s : State) : State :=
  let x := s.stream n
  if line < x.next then
    if x.secondary.isSome && x.landed.any fun l => (l.1 : Int) == line then
      s.modPort port fun y => { y with dup := satAdd 0xFFFF_FFFF y.dup (data.length / 64) }
    else s.setStream n { x with late := satAdd 0xFFFF_FFFF x.late 1 }
  else (s.missTo n port line.toNat).takePayload n port line.toNat ofs data

/-! ## Line packets (R282, R283, R287) -/

/-- Whether a line packet of stream n is discarded (R283). -/
def Stream.badHeader (n : Nat) (b : Bytes) (x : Stream) : Bool :=
  decide (b.length < 24) || numAt 0 2 b != 0x4E4C || numAt 2 1 b != 1 || numAt 4 1 b != n || numAt 5 1 b != x.camera
    || numAt 0x12 1 b != x.pixfmt || numAt 0x0C 4 b % 64 != 0 || numAt 0x10 2 b % 64 != 0 || numAt 0x10 2 b == 0
    || numAt 0x10 2 b + 24 != b.length || decide (x.pitch < numAt 0x0C 4 b + numAt 0x10 2 b)

/-- The 48-bit stream line number of a packet's LINE (R287). -/
def Stream.lineOf (l : Nat) (x : Stream) : Int := (x.next : Int) + toSigned 32 (ofSigned 32 ((l : Int) - (x.next : Int)))

/-- A line packet of stream n. -/
def State.linePacket (n port : Nat) (b : Bytes) (s : State) : State :=
  let x := s.stream n
  if x.badHeader n b then
    (s.setStream n { x with badHdr := satAdd 0xFFFF_FFFF x.badHdr 1 }).lineReport port 1 (numAt 8 4 b)
  else (s.takeLine n port (x.lineOf (numAt 8 4 b)) (numAt 0x0C 4 b) (b.drop 24)).releaseDue (· == n)

/-- The stream to which a frame on a stream port belongs, with its line packet (R281, R289). -/
def State.lineFrame (port : Nat) (frame : Bytes) (s : State) : Option (Nat × Bytes) :=
  match (s.port port).stream, (s.port port).udpFor frame with
  | some n, some d =>
    let x := s.stream n
    if x.bound && x.closing.isNone && d.dstPort == x.udp then some (n, d.data) else none
  | _, _ => none

/-- STREAM_FRAME: a frame received on a stream port (R281 to R288). -/
def execStreamFrame (t port : Nat) (frame : Bytes) (s : State) : Out :=
  let s := s.advance t
  .next
    (if decide (port < 16) && s.portUp port then
      match s.lineFrame port frame with
      | some (n, b) => (s.accepted port).linePacket n port b
      | none => s.discard port
    else s)

/-! ## STREAM_OPEN and STREAM_CLOSE -/

/-- Whether two ranges of bytes meet. -/
def meet (a n b m : Nat) : Bool := decide (a < b + m) && decide (b < a + n)

/-- The lowest mapping of a page that meets a range of the ground buffer (R213). -/
def State.gbMapping (lo n : Nat) (s : State) : Option (Nat × Nat) :=
  ((s.ms.pages.filter fun g => meet (gbBase + lo) n g.pa (pageBytes g.big)).map fun g => (g.asid, g.va)).foldl
    (fun m g => match m with
      | some b => if g.1 < b.1 ∨ (g.1 = b.1 ∧ g.2 < b.2) then some g else some b
      | none => some g) none

/-- The ports of a binding. -/
def bindPorts (p : StreamOpenParams) : List Nat := p.primary :: p.secondary.toList

/-- The parameter ranges of STREAM_OPEN. -/
def streamParams (p : StreamOpenParams) : Option Reject :=
  firstOf
    [require (decide (p.stream ≤ 15)) (paramBadAt 0x08), require (decide (p.pixfmt ≤ 1)) (paramBadAt 0x0C),
     require (inRange 1 p.rport 3) (paramBadAt 0x0D),
     require (p.gbBase % 64 == 0 && decide (p.gbBase + p.depth * p.pitch ≤ 0x200_0000)) (paramBadAt 0x1C),
     require (p.pitch % 64 == 0 && inRange 64 p.pitch 65472) (paramBadAt 0x20),
     require (inRange 1 p.depth 1024) (paramBadAt 0x22)]

/-- STREAM_OPEN's own checks: R213, the gated quarters (R473), and the ports (R284, R440). -/
def streamOpenCheck (p : StreamOpenParams) (s : State) : Option Reject :=
  let n := p.depth * p.pitch
  let held (m : Nat) : Reject := resHeld Op.streamOpen Op.streamOpen 4 m noPillow m
  let ports := bindPorts p
  firstOf
    [require (!(s.stream p.stream).bound) (held p.stream),
     (lowest 16 fun m => let x := s.stream m; x.bound && meet p.gbBase n x.base (x.depth * x.pitch)).map held,
     (s.gbMapping p.gbBase n).map fun g => mapFault g.1 0xFF g.2,
     require ((List.range 4).all fun q => s.domainOn (308 + q) || !meet p.gbBase n (0x80_0000 * q) 0x80_0000)
       stateRefused,
     require (ports.all (· ≤ 15) && p.secondary != some p.primary) { status := Status.portBad },
     firstOf (ports.map fun q => (s.port q).stream.map fun m =>
       resHeld Op.streamOpen Op.streamOpen 8 q noPillow m),
     require (ports.all fun q => (s.port q).en) { status := Status.portBad }]

/-- STREAM_OPEN's effect. -/
def streamOpenDo (h : Hdr) (p : StreamOpenParams) (s : State) : State :=
  let s := s.modStream p.stream fun x =>
    { bound := true, primary := p.primary, secondary := p.secondary, camera := p.camera, pixfmt := p.pixfmt
      rport := p.rport, udp := p.udp, origin := p.origin, sheetOfs := p.sheetOfs, base := p.gbBase
      pitch := p.pitch, depth := p.depth, claimed := true, holder := Op.streamOpen, overrun := x.overrun
      late := x.late, missing := x.missing, badHdr := x.badHdr, skew := x.skew }
  let s := (bindPorts p).foldl (fun s q => s.modPort q fun y => { y with stream := some p.stream }) s
  s.done h Op.streamOpen 0 []

/-- STREAM_OPEN (R440). -/
def execStreamOpen (h : Hdr) (p : StreamOpenParams) (s : State) : Out :=
  hostCommand h Op.streamOpen 0 false (streamParams p) (streamOpenCheck p) (streamOpenDo h p) s

/-- STREAM_CLOSE's own checks (R441); a stream that is not open, or closes already, is refused. -/
def streamCloseCheck (n : Nat) (s : State) : Option Reject :=
  firstOf
    [require ((s.stream n).bound && (s.stream n).closing.isNone) stateRefused,
     (s.admitted.find? fun x => x.2.p.stream == n).map fun x =>
       resHeld Op.jobAdmit Op.streamClose 17 x.1 noPillow x.1]

/-- STREAM_CLOSE (R289, R441): packets are discarded from here on. -/
def execStreamClose (h : Hdr) (stream : Nat) (s : State) : Out :=
  hostCommand h Op.streamClose 0 false (require (decide (stream ≤ 15)) (paramBadAt 8)) (streamCloseCheck stream)
    (fun s => (s.modStream stream fun x => { x with closing := some h }).release Op.streamClose h.tag) s

/-- Whether an instance on a stream has not committed its records. -/
def State.streamBusy (n : Nat) (s : State) : Bool :=
  s.liveJobs.any fun (_, j) => j.pinned && j.stream == n

/-- STREAM_CLOSE_EFFECT: ports and window are free, and the reply goes (R289). -/
def execStreamCloseEffect (t stream : Nat) (s : State) : Out :=
  let s := s.advance t
  let x := s.stream stream
  .next
    (match x.closing with
      | some h =>
        if s.up && !s.streamBusy stream then
          let s := (x.primary :: x.secondary.toList).foldl (fun s q =>
            s.modPort q fun y => { y with stream := none }) s
          let s := s.setStream stream
            { overrun := x.overrun, late := x.late, missing := x.missing, badHdr := x.badHdr, skew := x.skew }
          s.done h Op.streamClose 0 []
        else s
      | none => s)

/-! ## Links (R280) -/

/-- Whether the stream's other port has its link up. -/
def State.otherUp (n port : Nat) (s : State) : Bool :=
  let x := s.stream n
  let other := if x.primary = port then x.secondary else some x.primary
  other.any fun q => q != port && (s.port q).link

/-- A port's link shows hi_ber, and its FEC has counted codewords where it is on (R280, R306). -/
def Port.linkShows (e : LinkEvent) (x : Port) : Port :=
  { x with
    hiBer := e.hiBer
    fecCorr := satAdd 0xFFFF x.fecCorr (if x.fec = 0 then 0 else e.corr)
    fecUncorr := satAdd 0xFFFF x.fecUncorr (if x.fec = 0 then 0 else e.uncorr) }

/-- LINK_DOWN: the event is counted and reported (R280). -/
def execLinkDown (t : Nat) (e : LinkEvent) (s : State) : Out :=
  let s := s.advance t
  let x := (s.port e.port).linkShows e
  .next
    (if s.up && decide (e.port < 18) && x.link then
      (s.setPort e.port { x with link := false, linkLost := true, downs := satAdd 0xFFFF x.downs 1 }).report
        { cls := 11
          body := leBytes 1 e.port ++ leBytes 1 (x.stream.getD 0xFF)
            ++ leBytes 1 (if x.stream.any fun n => s.otherUp n e.port then 1 else 0) }
    else s)

/-- LINK_UP: block lock and FEC alignment are held and hi_ber is 0 (R280). -/
def execLinkUp (t : Nat) (e : LinkEvent) (s : State) : Out :=
  let s := s.advance t
  .next
    (if s.up && decide (e.port < 18) && (s.port e.port).en && s.domainOn (288 + e.port) && !e.hiBer then
      s.modPort e.port fun x => { x.linkShows e with link := true }
    else s)

end Sys2Proof.Machine
end

