-- ==== Sys2Proof/Machine/Ethernet.lean ====
section
/-! DEFINITION. PORT_CONFIG (R442), the service ports' answers and raster intake (R290 to R293), PTP (R294 to
R296), and scheduled egress: gates, record frames and their buffers (R301 to R304). -/

namespace Sys2Proof.Machine

/-! ## Gates (R302) -/

/-- The cycle time of a list in ns. -/
def GateList.cycle (x : GateList) : Nat := (x.entries.map GateEntry.interval).sum

/-- The list in force at PTP time T: a pending one from its base time on. -/
def Service.listAt (t : Int) (x : Service) : GateList :=
  match x.pendingList with
  | some l => if (l.base : Int) ≤ t then l else x.gates
  | none => x.gates

/-- The entry that stands at a position in the cycle, and the time left of it. -/
def entryAt : List GateEntry → Nat → Nat → Nat × Nat
  | [], i, _ => (i, 0)
  | e :: r, i, pos => if pos < e.interval then (i, e.interval - pos) else entryAt r (i + 1) (pos - e.interval)

/-- The entry of a list in force at PTP time T, and the time left of it. -/
def GateList.entry (t : Int) (x : GateList) : Nat × Nat :=
  entryAt x.entries 0 ((t - x.base) % (max 1 x.cycle : Int)).toNat

/-- The gates open at PTP time T; with gating off every one. -/
def GateList.mask (t : Int) (x : GateList) : BitVec 8 :=
  if x.en then ((x.entries[(x.entry t).1]?).map GateEntry.mask).getD 0xFF else 0xFF

/-- How long the gate of a class stays open over the entries that follow, none when it never closes. -/
def openRun (c : Nat) : List GateEntry → Option Nat
  | [] => none
  | e :: r => if e.mask.getLsbD c then (openRun c r).map (e.interval + ·) else some 0

/-- The time until the gate of a class closes under one list, from PTP time T on. -/
def GateList.openFor (c : Nat) (t : Int) (x : GateList) : Option Nat :=
  if !x.en then none
  else
    let (i, left) := x.entry t
    if ((x.entries[i]?).map GateEntry.mask).any (·.getLsbD c) then
      (openRun c (x.entries.drop (i + 1) ++ x.entries.take (i + 1))).map (left + ·)
    else some 0

/-- The PTP time at which a gate closes, none when it never does. -/
def Service.closesAt (c : Nat) (t : Int) (x : Service) : Option Int :=
  let l := x.listAt t
  let e := (l.openFor c t).map fun n => t + (n : Int)
  match x.pendingList with
  | some p =>
    if (p.base : Int) ≤ t ∨ e.any fun u => decide (u ≤ (p.base : Int)) then e
    else (p.openFor c p.base).map fun n => (p.base : Int) + (n : Int)
  | none => e

/-- A pending list whose base time has come is the operational one. -/
def Service.adoptList (t : Int) (x : Service) : Service :=
  match x.pendingList with
  | some l => if (l.base : Int) ≤ t then { x with gates := l, pendingList := none } else x
  | none => x

/-! ## Egress (R301, R303, R304) -/

/-- The class of a waiting record. -/
def Service.classOf (x : Service) (r : EgRec) : Nat := if r.pinned then x.pinClass else x.looseClass

/-- The records of a class that a frame would take. -/
def Service.records (c : Nat) (x : Service) : List EgRec := (x.buf.filter fun r => x.classOf r == c).take x.maxRecs

/-- The bytes on the wire of the frame that a class would send next, preamble and FCS included. -/
def Service.nextWire (c : Nat) (x : Service) : Option Nat :=
  match x.replies.find? fun f => f.cls == c with
  | some f => some f.wire
  | none =>
    let n := (x.records c).length
    if n = 0 then none else some (8 + 46 + 16 + 256 * n)

/-- The time that bytes take on a port's lane. -/
def Port.wireNs (n : Nat) (x : Port) : Nat := ceilDiv (8 * n) (if x.fast then 25 else 10)

/-- Whether a class may start its next frame: its gate is open and closes after the frame's last bit. -/
def State.mayStart (sp c : Nat) (s : State) : Bool :=
  let x := s.service sp
  let t := s.ptpAt s.now
  (x.nextWire c).any fun n =>
    ((x.listAt t).mask t).getLsbD c
      && (x.closesAt c t).all fun u => decide (s.ptpAt (s.now + (s.port (16 + sp)).wireNs n) ≤ u)

/-- Removes the first n records of a class. -/
def dropRecords (f : EgRec → Bool) : Nat → List EgRec → List EgRec
  | _, [] => []
  | 0, l => l
  | n + 1, r :: l => if f r then dropRecords f n l else r :: dropRecords f (n + 1) l

/-- The frame of waiting records of a class (R303): header, records, and what is left. -/
def State.recordFrame (sp c : Nat) (s : State) : State :=
  let x := s.service sp
  let rs := x.records c
  let head := leBytes 2 0x4552 ++ leBytes 1 1 ++ leBytes 1 rs.length ++ leBytes 4 x.seq
    ++ leBytes 8 (ofSigned 64 (s.ptpAt s.now))
  s.setService sp { x with
    buf := dropRecords (fun r => x.classOf r == c) rs.length x.buf
    seq := (x.seq + rs.length) % 2 ^ 32, sending := true
    lastTx := head ++ (rs.map EgRec.bytes).flatten }

/-- The frame that a class sends next starts: an answer or a Delay_Req before records. -/
def State.startFrame (sp c : Nat) (s : State) : State :=
  let x := s.service sp
  match x.replies.find? fun f => f.cls == c with
  | some f =>
    let s := s.setService sp { x with replies := x.replies.erase f, sending := true, lastTx := f.body }
    match f.req with
    | some q => { s with ptp := { s.ptp with req := some (q, s.now) } }
    | none => s
  | none => s.recordFrame sp c

/-- A free service port starts the frame of the highest class that may (R303). -/
def State.egress (sp : Nat) (s : State) : State :=
  let s := s.modService sp (Service.adoptList (s.ptpAt s.now))
  if (s.service sp).sending || !s.portUp (16 + sp) then s
  else match (List.range 8).reverse.find? fun c => s.mayStart sp c with
    | some c => s.startFrame sp c
    | none => s

/-- A full buffer loses the oldest loose record, or the oldest pinned one (R304). -/
def State.egressLoss (sp : Nat) (s : State) : State :=
  let x := s.service sp
  let k := (x.buf.findIdx? fun r => !r.pinned).getD 0
  (s.setService sp { x with
    buf := x.buf.eraseIdx k, seq := (x.seq + 1) % 2 ^ 32, drop := satAdd 0xFFFF_FFFF x.drop 1 }).report
      { cls := 13, body := leBytes 1 (16 + sp) ++ leBytes 4 x.seq }

/-- The commit time of a full record, which its own bytes carry (R298). -/
def EgRec.committed (r : EgRec) : Nat := numAt 0x28 8 r.bytes

/-- A record takes its place in commit order, behind those committed no later (R303). -/
def insertRec (r : EgRec) : List EgRec → List EgRec
  | [] => [r]
  | x :: t => if r.committed < x.committed then r :: x :: t else x :: insertRec r t

/-- A full record arrives at a service port (R304). -/
def State.egressRecord (sp : Nat) (r : EgRec) (s : State) : State :=
  let s := if (s.service sp).buf.length < 4096 then s else s.egressLoss sp
  (s.modService sp fun x => { x with buf := insertRec r x.buf }).egress sp

/-- FRAME_TRANSMIT_END (R303): the frame counts as sent, and the next may be formed. -/
def execFrameTransmitEnd (t sp : Nat) (s : State) : Out :=
  let s := s.advance t
  .next
    (if s.alive && (s.service sp).sending then
      ((s.modService sp fun x => { x with sending := false }).modPort (16 + sp) fun x =>
        { x with txf := satAdd 0xFFFF_FFFF x.txf 1 }).egress sp
    else s)

/-- GATE_ENTRY_CHANGE (R302): the gates of the entry now in force are open. -/
def execGateEntryChange (t sp : Nat) (s : State) : Out :=
  let s := s.advance t
  .next (if s.alive && decide (sp < 2) then s.egress sp else s)

/-! ## The masters of the two ports (R294) -/

/-- Whether master a is better than b: the lower rank, then the lower identity. -/
def betterMaster (a b : BitVec 64 × Nat) : Bool :=
  decide (a.2 < b.2) || (a.2 == b.2 && decide (a.1.toNat < b.1.toNat))

/-- The best-master comparison of the two ports (R294). -/
def State.compareMasters (s : State) : State :=
  let m0 := (s.ptpPort 0).master
  let m1 := (s.ptpPort 1).master
  let win : Option Nat := match m0, m1 with
    | some a, some b => some (if betterMaster b a then 1 else 0)
    | some _, none => some 0
    | none, some _ => some 1
    | none, none => none
  let set (k : Nat) (s : State) : State := s.modPtpPort k fun x =>
    if x.state = 3 then x
    else { x with state := if win = some k then 1 else if x.master.isSome then 2 else 0 }
  let gm := (win.bind fun k => (s.ptpPort k).master).map Prod.fst
  let s := set 1 (set 0 s)
  { s with ptp := { s.ptp with
    gm := gm.getD s.ptp.gm, sync := none, syncPair := if gm = some s.ptp.gm then s.ptp.syncPair else none } }

/-! ## PORT_CONFIG (R442) -/

/-- A port's link goes down (R280). -/
def State.linkFalls (port : Nat) (s : State) : State :=
  let x := s.port port
  if x.link then
    (s.setPort port { x with link := false, linkLost := true, downs := satAdd 0xFFFF x.downs 1 }).report
      { cls := 11
        body := leBytes 1 port ++ leBytes 1 (x.stream.getD 0xFF)
          ++ leBytes 1 (if x.stream.any fun n => s.otherUp n port then 1 else 0) }
  else s

/-- PORT_CONFIG LINK's own checks (R279, R284, R442). -/
def linkCheck (p : LinkParams) (s : State) : Option Reject :=
  firstOf
    [(s.port p.port).stream.map fun n => resHeld Op.streamOpen Op.portConfig 8 p.port noPillow n,
     require (!(p.fec == 2 && !p.fast)) { status := Status.portBad }]

/-- PORT_CONFIG LINK's effect: an enabled port's domain is on first (R473). A disabled service port has lost its
master, and the ports compare again (R294). -/
def linkDo (h : Hdr) (p : LinkParams) (s : State) : State :=
  let s := if p.en then { s with power := { s.power with on := setDomains true [288 + p.port] s.power.on } }
    else s.linkFalls p.port
  let s := s.modPort p.port fun x =>
    { x with en := p.en, fast := p.fast, fec := p.fec, mac := p.mac, vid := p.vid, ipv4 := p.ipv4 }
  let s := if 16 ≤ p.port then
      (s.modPtpPort (p.port - 16) fun x =>
        { x with state := if p.en then (if x.state = 3 then 0 else x.state) else 3
                 master := if p.en then x.master else none }).compareMasters
    else s
  s.done h Op.portConfig 0 []

/-- PORT_CONFIG, LINK section. -/
def execPortConfigLink (h : Hdr) (p : LinkParams) (s : State) : Out :=
  hostCommand h Op.portConfig 0 false
    (firstOf [require (decide (p.port ≤ 17)) (paramBadAt 8), require (decide (p.fec ≤ 2)) (paramBadAt 0x0A),
      require (decide (p.vid ≤ 4094)) (paramBadAt 0x12)])
    (linkCheck p) (linkDo h p) s

/-- The first address of [va, hi) whose page is not mapped, writable and pinned. -/
def State.intakeHole (asid hi : Nat) (s : State) : Nat → Nat → Option Nat
  | 0, va => if va < hi then some va else none
  | fuel + 1, va =>
    if hi ≤ va then none
    else match s.pageAt asid va with
      | some g => if g.w && g.pin then s.intakeHole asid hi fuel (g.va + pageBytes g.big) else some va
      | none => some va

/-- The same over a range. -/
def State.intakeBad (asid lo n : Nat) (s : State) : Option Nat :=
  s.intakeHole asid (lo + n) (s.ms.pages.length + 1) lo

/-- PORT_CONFIG SERVICE's own checks. -/
def serviceCheck (p : ServiceParams) (s : State) : Option Reject :=
  firstOf
    [require (decide (16 ≤ p.port)) { status := Status.portBad },
     (s.intakeBad p.asid p.intakeBase p.intakeSize).map fun v => mapFault p.asid 0xFF v]

/-- PORT_CONFIG, SERVICE section. -/
def execPortConfigService (h : Hdr) (p : ServiceParams) (s : State) : Out :=
  hostCommand h Op.portConfig 1 false
    (firstOf [require (decide (p.port ≤ 17)) (paramBadAt 8), require (decide (p.asid ≤ 1023)) (paramBadAt 0x0C),
      require (p.intakeSize % 0x1_0000 == 0 && decide (p.intakeBase + p.intakeSize ≤ 2 ^ 48)) (paramBadAt 0x18),
      require (inRange 1 p.maxRecs 32) (paramBadAt 0x26)])
    (serviceCheck p)
    (fun s => ((s.modService (p.port - 16) fun x => { x with
      rasterUdp := p.rasterUdp, asid := p.asid, domain := p.domain, pinClass := p.pinClass
      looseClass := p.looseClass, intakeBase := p.intakeBase, intakeSize := p.intakeSize
      dstMac := p.dstMac, maxRecs := p.maxRecs, dstIp := p.dstIp, srcUdp := p.srcUdp
      dstUdp := p.dstUdp }).egress (p.port - 16)).done h Op.portConfig 1 []) s

/-- The staged list with a chunk written. -/
def stagedWith (p : GatesParams) (t : Tbl (Option GateEntry)) : Tbl (Option GateEntry) :=
  p.entries.zipIdx.foldl (fun t (e, i) => tset (fun _ => none) (p.first + i) (some e) t) t

/-- The list that a commit would make, none where an entry is missing or R302 is broken. -/
def gateListOf (p : GatesParams) (t : Tbl (Option GateEntry)) : Option (List GateEntry) :=
  let es := (List.range p.total).filterMap fun i => tget (fun _ => none) t i
  if es.length = p.total ∧ (es.all fun e => inRange 100 e.interval 10_000_000)
      ∧ (es.map GateEntry.interval).sum ≤ 10 ^ 9 then some es else none

/-- A base time in the past is moved forward by whole cycles (R302). -/
def movedBase (base cycle : Nat) (t : Int) : Nat :=
  if (base : Int) < t then base + ceilDiv (t - (base : Int)).toNat (max 1 cycle) * cycle else base

/-- PORT_CONFIG GATES' own check of the port. -/
def gatesCheck (p : GatesParams) (_s : State) : Option Reject :=
  require (decide (16 ≤ p.port)) { status := Status.portBad }

/-- PORT_CONFIG GATES' effect: the chunk is written to the staged list; a commit makes it the new list, or is
refused and keeps it (R442, assumption 43). -/
def gatesDo (h : Hdr) (p : GatesParams) (s : State) : State :=
  let sp := p.port - 16
  let x := (s.service sp).adoptList (s.ptpAt s.now)
  let st := stagedWith p x.staged
  let kept := s.setService sp { x with staged := st }
  if !p.commit then (kept.egress sp).done h Op.portConfig 2 []
  else match gateListOf p st with
    | none => (kept.egress sp).refuse h Op.portConfig 2 { status := Status.portBad }
    | some es =>
      let l : GateList := { entries := es, en := p.gateEn, base := 0 }
      let base := movedBase (p.baseSec * 10 ^ 9 + p.baseNs) l.cycle (s.ptpAt s.now)
      ((s.setService sp { x with staged := [], pendingList := some { l with base := base } }).egress sp).done h
        Op.portConfig 2 []

/-- PORT_CONFIG, GATES section. -/
def execPortConfigGates (h : Hdr) (p : GatesParams) (s : State) : Out :=
  hostCommand h Op.portConfig 2 false
    (firstOf [require (decide (p.port ≤ 17)) (paramBadAt 8),
      require (decide (p.first + p.entries.length ≤ 256)) (paramBadAt 0x0C),
      require (inRange 1 p.entries.length 60) (paramBadAt 0x0E),
      require (inRange 1 p.total 256) (paramBadAt 0x10), require (decide (p.baseNs < 10 ^ 9)) (paramBadAt 0x18)])
    (gatesCheck p) (gatesDo h p) s

/-! ## ARP and ICMP (R290) -/

/-- An answer waits in the queue of its class. -/
def State.queueReply (sp : Nat) (f : EgFrame) (s : State) : State :=
  (s.modService sp fun x => { x with replies := x.replies ++ [f] }).egress sp

/-- The bytes on the wire of a frame with n bytes after its Ethernet header. -/
def wireOf (n : Nat) : Nat := 8 + max 64 (14 + n + 4)

/-- The sender of an ARP request for an address. -/
def arpFor (ip b : Bytes) : Option (Bytes × Bytes) :=
  if 28 ≤ b.length ∧ b.take 8 = [0, 1, 8, 0, 6, 4, 0, 1] ∧ sliceBytes 24 4 b = ip then
    some (sliceBytes 8 6 b, sliceBytes 14 4 b)
  else none

/-- ARP_REQUEST: answered where it asks for the port's address. It is a broadcast by its nature. -/
def execArpRequest (t port : Nat) (frame : Bytes) (s : State) : Out :=
  let s := s.advance t
  let x := s.port port
  .next
    (if inRange 16 port 17 && s.portUp port then
      let e := ethOf frame
      match arpFor x.ipv4 e.rest with
      | some (mac, ip) =>
        if sizeOk frame && (e.dst == x.mac || e.dst == List.replicate 6 0xFF) && x.tagOk e && e.etype == 0x0806 then
          (s.accepted port).queueReply (port - 16)
            { cls := 0, wire := wireOf 28, dst := e.src, req := none
              body := [0, 1, 8, 0, 6, 4, 0, 2] ++ x.mac ++ x.ipv4 ++ mac ++ ip }
        else s.discard port
      | none => s.discard port
    else s)

/-- The answer to an ICMP echo request. -/
def echoOf (b : Bytes) : Option Bytes :=
  if 8 ≤ b.length ∧ b.length ≤ 1480 ∧ numAt 0 2 b = 8 ∧ sumGood b then
    let rest := b.drop 4
    let sum := onesSum ([0, 0, 0, 0] ++ rest)
    some ([0, 0] ++ beBytes 2 (0xFFFF - sum) ++ rest)
  else none

/-- ICMP_ECHO: answered, at up to 100 within a second. -/
def execIcmpEcho (t port : Nat) (frame : Bytes) (s : State) : Out :=
  let s := s.advance t
  let x := s.port port
  .next
    (if inRange 16 port 17 && s.portUp port then
      let recent := x.icmp.filter fun u => decide (s.now < u + 10 ^ 9)
      match (x.ipFor frame).bind fun p =>
          if p.dst = x.ipv4 ∧ p.proto = 1 then (echoOf p.body).map fun b => (p.src, b) else none with
      | some (ip, b) =>
        if recent.length < 100 then
          ((s.accepted port).modPort port fun y => { y with icmp := recent ++ [s.now] }).queueReply (port - 16)
            { cls := 0, wire := wireOf (20 + b.length), dst := (ethOf frame).src ++ ip, body := b, req := none }
        else s.discard port
      | none => s.discard port
    else s)

/-! ## Raster intake (R291 to R293) -/

/-- A well-formed raster packet. -/
def rasterOk (b : Bytes) : Bool :=
  decide (24 ≤ b.length) && numAt 0 2 b == 0x524C && numAt 2 1 b == 1 && numAt 8 6 b % 64 == 0
    && numAt 0x0E 2 b % 64 == 0 && inRange 64 (numAt 0x0E 2 b) 8192 && numAt 0x0E 2 b + 24 == b.length

/-- The payload of RASTER_DONE and RASTER_SHORT (R407). -/
def rasterPayload (port : Nat) (id : BitVec 32) (n : Nat) : Bytes :=
  leBytes 1 port ++ zeros 3 ++ leBytes 4 id.toNat ++ leBytes 4 n ++ zeros 4

/-- A packet with a new identity ends the raster in progress (R293). -/
def State.newRaster (sp : Nat) (id : BitVec 32) (s : State) : State :=
  let x := s.service sp
  match x.raster with
  | some r =>
    if r = id then s
    else
      let s := s.setService sp { x with
        raster := some id, rbytes := 0, rdone := false
        rshort := satAdd 0xFFFF_FFFF x.rshort (if x.rdone then 0 else 1) }
      if x.rdone then s else s.event 0xE2 Status.ok (rasterPayload (16 + sp) r x.rbytes)
  | none => s.setService sp { x with raster := some id, rbytes := 0, rdone := false }

/-- Writes a packet's bytes page by page; a write into memory under a March test waits for its end (R223). -/
def State.storePages (asid : Nat) : List (Nat × Nat) → Bytes → State → State
  | [], _, s => s
  | (va, n) :: r, b, s =>
    let s := match s.pageAt asid va with
      | some g =>
        if s.marchAt (g.physical va) then
          { s with ms := { s.ms with marchWait := s.ms.marchWait ++ [(g.physical va, b.take n)] } }
        else s.storeBy 3 none (g.physical va) (b.take n)
      | none => s
    s.storePages asid r (b.drop n)

/-- A raster packet on a service port (R292, R293). -/
def State.takeRaster (sp : Nat) (b : Bytes) (s : State) : State :=
  let x := s.service sp
  let ofs := numAt 8 6 b
  let n := numAt 0x0E 2 b
  let va := x.intakeBase + ofs
  if x.intakeSize < ofs + n ∨ (s.intakeBad x.asid va n).isSome then
    s.setService sp { x with rbad := satAdd 0xFFFF_FFFF x.rbad 1 }
  else
    let id := BitVec.ofNat 32 (numAt 4 4 b)
    let s := (s.storePages x.asid (vaPieces va n) (b.drop 24)).newRaster sp id
    let y := s.service sp
    let total := (y.rbytes + n) % 2 ^ 32
    let fin := bitOf 0 (numAt 3 1 b) && decide (numAt 0x10 4 b ≤ y.rbytes + n)
    let s := s.setService sp { y with rbytes := total, rdone := y.rdone || fin }
    if fin then s.event 0xE1 Status.ok (rasterPayload (16 + sp) id total) else s

/-- RASTER_PACKET (R290 to R293). -/
def execRasterPacket (t port : Nat) (frame : Bytes) (s : State) : Out :=
  let s := s.advance t
  .next
    (if inRange 16 port 17 && s.portUp port then
      match (s.port port).udpFor frame with
      | some d =>
        if d.dstPort == (s.service (port - 16)).rasterUdp && rasterOk d.data then
          (s.accepted port).takeRaster (port - 16) d.data
        else s.discard port
      | none => s.discard port
    else s)

/-! ## PTP (R294 to R296) -/

/-- The PTP class (R296). -/
def State.ptpReport (cause : Nat) (s : State) : State :=
  s.report { cls := 25, body := leBytes 1 cause ++ leBytes 8 (ofSigned 64 (s.ptpAt s.now - s.now)) }

/-- Lock is lost. -/
def State.ptpUnlock (s : State) : State :=
  let was := s.ptp.lock
  let s := { s with ptp := { s.ptp with lock := false, good := 0 } }
  if was then s.ptpReport 1 else s

/-- ±200 ppm in 2^−40. -/
def ratioLimit : Int := 219_902_325

/-- The rate between two Syncs, ratio minus 1 in 2^−40. -/
def measuredRatio (o : Int) (r : Nat) (p : Int × Nat) : Int :=
  roundHalfEven (((o - p.1) - ((r : Int) - p.2)) * 2 ^ 40) (max 1 (r - p.2))

/-- A Sync with its origin time and its receive stamp updates the servo (R296). The correction is whole and the
ratio is that of the last two Syncs (DESIGN CHOICE, assumption 39). -/
def State.servo (origin : Int) (recv : Nat) (s : State) : State :=
  let x := s.ptp
  let err : Int := origin + x.mpd - s.ptpAt recv
  let step := decide (1000 < err.natAbs)
  let raw := match x.syncPair with | some p => measuredRatio origin recv p | none => x.ratio
  let far := decide (ratioLimit < raw.natAbs)
  let good := if err.natAbs ≤ 100 then min 8 (x.good + 1) else 0
  let y := { x with
    offset := origin + x.mpd - (recv : Int), ref := recv
    ratio := if step then x.ratio else clampInt (-ratioLimit) ratioLimit raw
    syncPair := some (origin, recv), good := good, lock := x.lock || good == 8 }
  let s := { s with ptp := y }
  let s := if step || far then { s with ptp := { y with lock := x.lock } }.ptpUnlock else s
  if step then s.ptpReport 2 else s

/-- What a PTP message says (IEEE 1588-2019; the layout of its bytes is PRESUMED from that standard, assumption 117).
Times are in ns since the PTP epoch, with the message's correction added. -/
inductive PtpBody where
  | announce (gm : BitVec 64) (rank : Nat)
  | sync (twoStep : Bool) (origin : Int)
  | followUp (origin : Int)
  | delayResp (recv : Int) (requester : BitVec 80)
  | other
  deriving DecidableEq, Repr

/-- A PTP message: its domain, the port identity of its sender, its sequence number, its message interval as a power
of two in seconds, its correction in ns, and what it says. -/
structure PtpMsg where
  domain : Nat
  source : BitVec 80
  seq : Nat
  log : Int
  corr : Int
  body : PtpBody
  deriving DecidableEq, Repr

/-- A timestamp of 48 bits of seconds and 32 of nanoseconds. -/
def ptpStamp (ofs : Nat) (b : Bytes) : Int :=
  ((beNat (sliceBytes ofs 6 b) * 10 ^ 9 + beNat (sliceBytes (ofs + 6) 4 b) : Nat) : Int)

/-- The rank of an Announce: priority 1, clock class, accuracy, variance, priority 2. -/
def announceRank (b : Bytes) : Nat :=
  beNat (sliceBytes 47 1 b) * 2 ^ 40 + beNat (sliceBytes 48 4 b) * 2 ^ 8 + beNat (sliceBytes 52 1 b)

/-- The PTP message of a datagram: events come to UDP port 319 and general messages to 320. -/
def ptpOf (d : Datagram) : Option PtpMsg :=
  let b := d.data
  let ty := numAt 0 1 b % 16
  let len := beNat (sliceBytes 2 2 b)
  let need := if ty = 0xB then 64 else if ty = 9 then 54 else 44
  if d.dstPort = (if ty < 8 then 319 else 320) ∧ numAt 1 1 b % 16 = 2 ∧ need ≤ len ∧ len ≤ b.length then
    let corr := toSigned 64 (beNat (sliceBytes 8 8 b)) / 65536
    some
      { domain := numAt 4 1 b
        source := BitVec.ofNat 80 (beNat (sliceBytes 20 10 b))
        seq := beNat (sliceBytes 30 2 b)
        log := intAt 33 1 b
        corr := corr
        body :=
          if ty = 0xB then .announce (BitVec.ofNat 64 (beNat (sliceBytes 53 8 b))) (announceRank b)
          else if ty = 0 then .sync (bitOf 1 (numAt 6 1 b)) (ptpStamp 34 b + corr)
          else if ty = 8 then .followUp (ptpStamp 34 b + corr)
          else if ty = 9 then .delayResp (ptpStamp 34 b - corr) (BitVec.ofNat 80 (beNat (sliceBytes 44 10 b)))
          else .other }
  else none

/-- 224.0.1.129, to which PTP multicasts (R290). -/
def ptpGroup : Bytes := [224, 0, 1, 129]

/-- The multicast address of an Ethernet frame to that group (RFC 1112). -/
def ptpGroupMac : Bytes := [1, 0, 0x5E, 0, 1, 129]

/-- The PTP message of a frame: unicast to the port's own addresses or multicast to the group, under the checks of
R281 (R290). -/
def Port.ptpFor (x : Port) (f : Bytes) : Option PtpMsg :=
  let group : Port := { x with mac := ptpGroupMac, ipv4 := ptpGroup }
  match x.udpFor f with
  | some d => ptpOf d
  | none => (group.udpFor f).bind ptpOf

/-- The identity of a service port as a PTP port: its MAC address as an EUI-64, and its number from 1 (PRESUMED,
assumption 117). -/
def State.ptpIdentity (k : Nat) (s : State) : BitVec 80 :=
  let m := (s.port (16 + k)).mac
  BitVec.ofNat 80 (beNat (m.take 3 ++ [0xFF, 0xFE] ++ m.drop 3) * 65536 + k + 1)

/-- The interval that a message's power of two stands for, in ns; 0x7F stands for none, and 1 s is taken
(assumption 117). -/
def ptpInterval (n : Int) : Nat :=
  if n = 127 then 10 ^ 9 else if 0 ≤ n then 10 ^ 9 * 2 ^ n.toNat else 10 ^ 9 / 2 ^ (-n).toNat

/-- A PTP message on service port k: an Announce enters the comparison; a Sync, Follow_Up or Delay_Resp counts on the
SLAVE port from its own master (R294, R296). -/
def State.ptpTake (k : Nat) (m : PtpMsg) (s : State) : State :=
  let x := s.ptpPort k
  let ours := x.state == 1 && m.source == x.source
  if m.domain ≠ (s.service k).domain then s
  else match m.body with
  | .announce gm rank =>
    let take := match x.master with
      | some b => m.source == x.source || betterMaster (gm, rank) b
      | none => true
    if take then (s.modPtpPort k fun x => { x with master := some (gm, rank), source := m.source }).compareMasters
    else s
  | .sync twoStep origin =>
    if ours then
      let s := { s with ptp := { s.ptp with
        lastSync := s.now, interval := ptpInterval m.log
        sync := if twoStep then some (m.seq, m.corr, s.now) else none } }
      if twoStep then s else s.servo origin s.now
    else s
  | .followUp origin =>
    if ours then
      match s.ptp.sync with
      | some (q, c, r) =>
        if q = m.seq then { s with ptp := { s.ptp with sync := none } }.servo (origin + c) r else s
      | none => s
    else s
  | .delayResp recv requester =>
    if ours && requester == s.ptpIdentity k then
      let s := { s with ptp := { s.ptp with reqNs := ptpInterval m.log } }
      match s.ptp.req, s.ptp.syncPair with
      | some (q, t3), some (t1, t2) =>
        if q = m.seq then
          let sum : Int := (s.ptpAt t2 - t1) + (recv - s.ptpAt t3)
          { s with ptp := { s.ptp with req := none, mpd := min 0xFFFF_FFFF (roundHalfEven sum 2).toNat } }
        else s
      | _, _ => s
    else s
  | .other => s

/-- PTP_MESSAGE: a frame that is a PTP message to the port is taken, every other one discarded (R281, R290, R294,
R296). -/
def execPtpMessage (t port : Nat) (frame : Bytes) (s : State) : Out :=
  let s := s.advance t
  .next
    (if inRange 16 port 17 && s.portUp port then
      match (s.port port).ptpFor frame with
      | some m => (s.accepted port).ptpTake (port - 16) m
      | none => s.discard port
    else s)

/-- A Delay_Req of service port k (IEEE 1588-2019). -/
def State.delayReqBody (k q : Nat) (s : State) : Bytes :=
  [0x01, 0x02] ++ beBytes 2 44 ++ leBytes 1 (s.service k).domain ++ zeros 15 ++ beBytes 10 (s.ptpIdentity k).toNat
    ++ beBytes 2 q ++ [0x01, 0x7F] ++ zeros 10

/-- DELAY_REQ: the SLAVE port sends a Delay_Req in class 7, at the interval that its master announces (R294,
R301). -/
def execDelayReq (t port : Nat) (s : State) : Out :=
  let s := s.advance t
  .next
    (if inRange 16 port 17 && s.portUp port && (s.ptpPort (port - 16)).state == 1
        && s.ptp.lastReq.all fun u => decide (u + s.ptp.reqNs ≤ s.now) then
      let q := (s.ptp.reqSeq + 1) % 65536
      let s := { s with ptp := { s.ptp with reqSeq := q, lastReq := some s.now } }
      s.queueReply (port - 16)
        { cls := 7, wire := wireOf (28 + 44), dst := ptpGroupMac ++ ptpGroup, body := s.delayReqBody (port - 16) q
          req := some q }
    else s)

/-- PTP_SYNC_TIMEOUT: no Sync for 3 intervals clears the lock (R296). -/
def execPtpSyncTimeout (t : Nat) (s : State) : Out :=
  let s := s.advance t
  .next (if s.up && s.ptp.lock && decide (s.ptp.lastSync + 3 * s.ptp.interval ≤ s.now) then s.ptpUnlock else s)

/-- PTP_MASTER_LOST: the SLAVE port's master is gone, and the ports compare again (R294). -/
def execPtpMasterLost (t : Nat) (s : State) : Out :=
  let s := s.advance t
  .next
    (match [0, 1].find? fun k => (s.ptpPort k).state == 1 with
      | some k => if s.up then (s.modPtpPort k fun x => { x with master := none }).compareMasters else s
      | none => s)

end Sys2Proof.Machine
end

