-- ==== Sys2Proof/Machine/Thermal.lean ====
section
/-! DEFINITION. The thermal monitor (R525 to R528): readings, throttle steps and the thermal trip. -/

namespace Sys2Proof.Machine

/-! ## The thermal monitor -/

/-- T_MAX in 0.1 °C (R2, R526). -/
def State.tMax (s : State) : Int := if s.sec.grade = 6 then 1050 else 950

/-- The die threshold of a step in 0.1 °C, lowered by MARGIN (R526). -/
def State.dieTh (k : Nat) (s : State) : Int :=
  (if k = 1 then s.tMax - 50 else if k = 2 then s.tMax else s.tMax + 100) - 10 * (s.therm.margin : Int)

/-- The HBM threshold of a step in °C, lowered by MARGIN (R526). -/
def State.hbmTh (k : Nat) (s : State) : Int :=
  (if k = 1 then 90 else if k = 2 then 95 else 100) - (s.therm.margin : Int)

/-- The first sensor that reaches the thresholds of a step: 0 to 3 die, 4 and 5 HBM stacks (R527). -/
def State.stepSensor (k : Nat) (s : State) : Option Nat :=
  lowest 6 fun i =>
    if i < 4 then decide (s.dieTh k ≤ s.therm.die.getD i 0) else decide (s.hbmTh k ≤ s.therm.hbm.getD (i - 4) 0)

/-- The step the readings form: the highest one reached, with its sensor (R526). -/
def State.stepReached (s : State) : Nat × Nat :=
  match s.stepSensor 3 with
  | some i => (3, i)
  | none => match s.stepSensor 2 with
    | some i => (2, i)
    | none => match s.stepSensor 1 with
      | some i => (1, i)
      | none => (0, 0)

/-- Whether every reading lies at least 3 °C below the thresholds of the step in force (R527). -/
def State.stepCool (s : State) : Bool :=
  (s.therm.die.all fun v => decide (v + 30 ≤ s.dieTh s.therm.step))
    && s.therm.hbm.all fun v => decide (v + 3 ≤ s.hbmTh s.therm.step)

/-- Whether a trip threshold is reached (R526). -/
def State.tripReached (s : State) : Bool :=
  (s.therm.die.any fun v => decide (s.tMax + 150 ≤ v)) || s.therm.hbm.any fun v => decide (105 ≤ v)

/-- Brings TS_TIME up to now: whole milliseconds spent at step 1 or above (R528). -/
def State.stepTime (s : State) : State :=
  match s.therm.stepSince with
  | none => s
  | some a =>
    let n := (s.now - a) / 1_000_000
    { s with therm := { s.therm with ms := satAdd 0xFFFF_FFFF s.therm.ms n, stepSince := some (a + 1_000_000 * n) } }

/-- Keeps when a condition began to hold. -/
def heldSince (c : Bool) (since : Option Nat) (now : Nat) : Option Nat :=
  if c then some (since.getD now) else none

/-- THERMAL_READING: the sensors' readings; a step rises at the reading that reaches its threshold (R525 to R527). At
step 2 or above the running loose stages are pre-empted and saved (R526). The readings come in 0.1 °C, the stacks' in
°C. -/
def execThermalReading (t : Nat) (die hbm : List Int) (s : State) : Out :=
  let s := s.advance t
  if !s.up then .next s
  else
    let s := s.stepTime.scrubTime
    let th := s.therm
    let s := { s with therm := { th with
      die := (List.range 4).map fun i => die.getD i (th.die.getD i 0)
      dieMax := (List.range 4).map fun i => max (th.dieMax.getD i 0) (die.getD i (th.die.getD i 0))
      hbm := (List.range 2).map fun i => hbm.getD i (th.hbm.getD i 0) } }
    let (k, sensor) := s.stepReached
    let s :=
      if s.therm.step < k then
        let s := ({ s with therm := { s.therm with
            step := k, source := sensor, rises := satAdd 0xFFFF s.therm.rises 1
            stepSince := some (s.therm.stepSince.getD s.now) } }).report
          { cls := 26
            body := leBytes 1 sensor
              ++ leBytes 2 (ofSigned 16 (if sensor < 4 then s.therm.die.getD sensor 0
                  else 10 * s.therm.hbm.getD (sensor - 4) 0))
              ++ leBytes 1 k }
        if k < 2 then s else s.settlePillows (List.range nPillows)
      else s
    .next { s with therm := { s.therm with
      cool := heldSince (s.therm.step != 0 && s.stepCool) s.therm.cool s.now
      tripSince := heldSince s.tripReached s.therm.tripSince s.now } }

/-- THROTTLE_STEP_FALL: 10 ms with every reading 3 °C below the threshold of the step in force, and the
step falls by one (R527); below step 2 loose work starts again (R526). -/
def execThrottleStepFall (t : Nat) (s : State) : Out :=
  let s := s.advance t
  match s.therm.cool with
  | none => .next s
  | some c =>
    if c + 10_000_000 ≤ s.now ∧ s.therm.step ≠ 0 then
      let s := s.stepTime.scrubTime
      let s := { s with therm := { s.therm with
        step := s.therm.step - 1, stepSince := if s.therm.step = 1 then none else s.therm.stepSince } }
      let s := { s with therm := { s.therm with cool := heldSince (s.therm.step != 0 && s.stepCool) none s.now } }
      .next (if s.therm.step = 1 then s.settlePillows (List.range nPillows) else s)
    else .next s

/-- THERMAL_TRIP: the trip threshold held for 1 ms resets the device (R475, R526). -/
def execThermalTrip (t : Nat) (s : State) : Out :=
  let s := s.advance t
  match s.therm.tripSince with
  | none => .next s
  | some c => .next (if s.up && decide (c + 1_000_000 ≤ s.now) then s.intoReset .thermal else s)

/-- THERMAL_TRIP_END: the junction has fallen 10 °C below the trip and the reset ends (R475). -/
def execThermalTripEnd (t : Nat) (s : State) : Out :=
  let s := s.advance t
  .next (if s.mgmt.reset == some .thermal then s.endReset else s)

end Sys2Proof.Machine
end

