-- ==== Sys2Proof/Machine/Integrity.lean ====
section
/-! DEFINITION. The end of a March test (R220 to R224, R428), the scrubbers (R208, R209) and the retraining of an
HBM channel (R486, R488). -/

namespace Sys2Proof.Machine

/-! ## MARCH_RUN_END -/

/-- The staging buffers of a pillow after a destructive test. -/
def State.fillStaging (p : Nat) (v : Byte) (s : State) : State :=
  (List.range 17).foldl (fun s b => s.modBobbin p b fun x =>
    { x with staging := (List.range 65536).map fun i => (i, v), stagePoison := [], stageErrs := [] }) s

/-- What a destructive test leaves in its target: 0x55 throughout, with valid check bits (R221). A preserving test
leaves the words, with their marks, as they were. -/
def State.marchFill (target index : Nat) (s : State) : State :=
  if target = 0 then s.fillStaging index 0x55
  else if target = 1 then s.fill (spBase index) 0x20_0000 0x55
  else if target = 2 then s.fill (spBase 0) (nPillows * 0x20_0000) 0x55
  else if target = 3 then s.fill (gbBase + 0x80_0000 * index) 0x80_0000 0x55
  else if target = 4 then s.fill gbBase 0x200_0000 0x55
  else s.fill csBase 0x40_0000 0x55

/-- A ground-buffer quarter that failed is gated off (R224). -/
def State.gateQuarter (q : Nat) (s : State) : State :=
  let s := s.loseDomain (308 + q)
  { s with power := { s.power with on := setDomains false [308 + q] s.power.on } }

/-- The pillows that fail with their memory fail out, one after another. -/
def State.failMarched : List Nat → List Nat × State → List Nat × State
  | [], x => x
  | p :: r, (ps, s) =>
    let (qs, s) := s.failOut p 2
    State.failMarched r (ps ++ qs, s)

/-- What the verdict "fail" takes from service (R224): the pillows, the quarters, or, for the context store, the
whole device; the spec states no FATAL_CAUSE for that one (assumption 13). -/
def State.marchFailed (target index : Nat) (fails : List Nat) (s : State) : List Nat × State :=
  if target ≤ 1 then s.failOut index 2
  else if target = 2 then
    State.failMarched
      (indices nPillows fun p => fails.any fun a => decide (spBase p ≤ a) && decide (a < spBase (p + 1))) ([], s)
  else if target = 3 then ([], s.gateQuarter index)
  else if target = 4 then
    ([], (indices 4 fun q => fails.any fun a => (a - gbBase) / 0x80_0000 == q).foldl (fun s q => s.gateQuarter q) s)
  else
    let (d, s) := s.draw
    ([], s.enterFatal (d.toNat % 8) (fails.headD 0))

/-- The test command has replied: state 3 ends (R478, R489). -/
def State.marchReplied (s : State) : State :=
  if s.mgmt.devState = 3 then { s with mgmt := { s.mgmt with devState := 2 } }
  else if s.mgmt.devState = 4 then { s with mgmt := { s.mgmt with testReplied := true } }
  else s

/-- MARCH_RUN's payload (R428). -/
def marchBytes (fails : List Nat) : Bytes :=
  leBytes 1 (if fails = [] then 1 else 0) ++ zeros 1 ++ leBytes 2 (min 0xFFFF fails.length) ++ zeros 4
    ++ leBytes 8 (fails.headD 0)

/-- The end of a March run that found these failing addresses: the figures, the fill of a destructive run, the
writes that waited for it, the reply, and what fails (R222, R223, R428). -/
def State.marchEnd (h : Hdr) (target form index : Nat) (fails : List Nat) (s : State) : State :=
  let s := { s with ms := { s.ms with
    march := none
    marchFail := fails != []
    marchFails := min 0xFFFF fails.length
    marchAddr := fails.headD 0 } }
  let s := if form = 0 then s.marchFill target index else s
  let s := s.ms.marchWait.foldl (fun s x => s.storeBy 3 none x.1 x.2) s
  let s := { s with ms := { s.ms with marchWait := [] } }
  let s := s.marchReplied.reply h Op.marchRun 0 (if fails = [] then Status.ok else Status.marchFail)
    (marchBytes fails)
  if fails = [] then s
  else
    let x := s.marchFailed target index fails
    x.2.settlePillows x.1

/-- MARCH_RUN_END with the addresses of the failing words in the order found: the verdict goes to MEM_MARCH and the
reply, and a memory that failed leaves service (R224, R428). -/
def execMarchRunEnd (t : Nat) (fails : List Nat) (s : State) : Out :=
  let s := s.advance t
  .next
    (match s.ms.march with
      | none => s
      | some (h, target, form, index) => if !s.alive then s else s.marchEnd h target form index fails)

/-! ## The scrubbers -/

/-- The memory-integrity class (R209, R486). -/
def integrityReport (mem : MemKind) (pillow addr : Nat) : ErrReport :=
  { cls := 7
    pillow := match mem with
      | .staging | .scratchpad | .bank => pillow
      | _ => 0xFF
    body := leBytes 1 (match mem with
      | .staging => 0
      | .scratchpad => 1
      | .ground => 2
      | .context => 3
      | .firmware => 4
      | .hbm => 5
      | .bank => 6) ++ leBytes 8 addr }

/-- Counts a corrected or an uncorrectable unit in the memory's register (R208, R226, R227); the state banks have
none. -/
def State.countEcc (mem : MemKind) (pillow addr : Nat) (ue : Bool) (s : State) : State :=
  match mem with
  | .staging => s.modPillow pillow fun x => { x with mem :=
      if ue then { x.mem with sgUe := satAdd 0xFFFF x.mem.sgUe 1 } else { x.mem with sgCe := satAdd 0xFFFF x.mem.sgCe 1 } }
  | .scratchpad => s.modPillow pillow fun x => { x with mem :=
      if ue then { x.mem with spUe := satAdd 0xFFFF x.mem.spUe 1 } else { x.mem with spCe := satAdd 0xFFFF x.mem.spCe 1 } }
  | .ground => s.countMem 2 ue
  | .context => s.countMem 3 ue
  | .firmware => s.countMem 4 ue
  | .hbm => s.countHbm addr ue
  | .bank => s

/-- The unit of a staging buffer is marked poisoned; `addr` counts the 64 KiB buffers of the pillow's bobbins in
order. -/
def State.poisonStaging (p addr : Nat) (s : State) : State :=
  s.modBobbin p (addr / 65536) fun x =>
    let u := addr % 65536 / 8 * 8
    if x.stagePoison.contains u then x else { x with stagePoison := u :: x.stagePoison }

/-- A unit of the bank of the stage that stands by: its resumption finds it (R257). -/
def State.poisonBank (p addr : Nat) (s : State) : State :=
  s.modPillow p fun x => if x.standby.isSome then { x with bankPoison := some addr } else x

/-- An uncorrectable unit found by a scrub read (R208, R209): marked, counted and reported. In the firmware memory
it takes the device to state 5 (R488). -/
def State.scrubFault (mem : MemKind) (pillow addr : Nat) (s : State) : State :=
  let s := match mem with
    | .staging => s.poisonStaging pillow addr
    | .bank => s.poisonBank pillow addr
    | .firmware => s
    | _ => s.markPoison addr
  let s := (s.countEcc mem pillow addr true).report (integrityReport mem pillow addr)
  if mem = .firmware then s.enterFatal 1 addr else s

/-- The error that has arisen in the unit a scrub read reads. -/
def State.strikeAt (mem : MemKind) (pillow addr : Nat) (s : State) : Option Strike :=
  match mem with
  | .staging => ((s.bobbin pillow (addr / 65536)).stageErrs.find? fun e => e.1 == addr % 65536 / 8 * 8).map Prod.snd
  | .bank | .firmware => none
  | _ => (s.ms.errs.find? fun e => e.1 == addr / 8 * 8).map Prod.snd

/-- The unit is read and written back, or rewritten with its mark: no error waits in it. -/
def State.dropErrs (mem : MemKind) (pillow addr : Nat) (s : State) : State :=
  match mem with
  | .staging => s.modBobbin pillow (addr / 65536) fun y =>
      { y with stageErrs := y.stageErrs.filter fun e => e.1 != addr % 65536 / 8 * 8 }
  | .bank | .firmware => s
  | _ => { s with ms := { s.ms with errs := s.ms.errs.filter fun e => e.1 != addr / 8 * 8 } }

/-- What a scrub read finds: what its row says, or the error that has arisen there. -/
def scrubFinding (ecc : Ecc) (k : Option Strike) : Ecc :=
  match ecc, k with
  | .uncorrectable, _ | _, some .multi => .uncorrectable
  | .corrected, _ | _, some .single => .corrected
  | _, _ => .clean

/-- What a scrub read does: nothing, a correction counted, or a unit marked (R208, R209); a correction by a stack's
on-die ECC is counted apart (R219). -/
def State.scrubRead (mem : MemKind) (pillow addr : Nat) (ecc : Ecc) (s : State) : State :=
  let k := s.strikeAt mem pillow addr
  let s := s.dropErrs mem pillow addr
  let s := if k = some .onDie then s.countDie addr else s
  match scrubFinding ecc k with
  | .clean => s
  | .corrected => s.countEcc mem pillow addr false
  | .uncorrectable => s.scrubFault mem pillow addr

/-- Whether the March engine is testing the memory a scrub read would read, or the memory is gated (R223,
R473). -/
def State.scrubBarred (mem : MemKind) (pillow addr : Nat) (s : State) : Bool :=
  let on (k : Nat) : Bool := match s.ms.march with
    | some (_, target, _, index) => target == k && (decide (2 ≤ k) || index == pillow)
    | none => false
  match mem with
  | .staging => !s.pillowOn pillow || !s.domainOn (bankOf pillow (addr / 65536)) || on 0
  | .scratchpad => !s.pillowOn pillow || on 1 || on 2
  | .bank => !s.pillowOn pillow
  | .ground =>
    let q := (addr - gbBase) / 0x80_0000
    !s.domainOn (308 + q) || s.marchOnQuarter q
  | .context => on 5
  | _ => false

/-- SRAM_SCRUB: the on-die scrubber reads one unit (R209). It pauses at throttle step 1 and above (R526), and on
the target of a March test (R223). -/
def execSramScrub (t : Nat) (mem : MemKind) (pillow addr : Nat) (ecc : Ecc) (s : State) : Out :=
  let s := s.advance t
  .next
    (if s.up && s.therm.step == 0 && mem != .hbm && !s.scrubBarred mem pillow addr then
      s.scrubRead mem pillow addr ecc
    else s)

/-- HBM_SCRUB: the HBM scrubber reads one unit (R209, R219, R526). -/
def execHbmScrub (t addr : Nat) (ecc : Ecc) (s : State) : Out :=
  let s := s.advance t
  .next (if s.up && s.therm.step == 0 then s.scrubRead .hbm 0xFF (addr % 0xC_0000_0000) ecc else s)

/-! ## HBM_LINK_RETRAIN -/

/-- HBM_LINK_RETRAIN: a channel has been retrained in `ns`, or its stack fails retraining and the device enters
state 5 (R486, R488). -/
def execHbmLinkRetrain (t stack channel ns : Nat) (ok : Bool) (s : State) : Out :=
  let s := s.advance t
  .next
    (if !s.alive then s
    else if ok then
      s.report { cls := 30, body := leBytes 1 stack ++ leBytes 1 channel ++ leBytes 4 ns }
    else s.enterFatal 3 0)

end Sys2Proof.Machine
end

