-- ==== Sys2Proof/Machine/Paging.lean ====
section
/-! DEFINITION. The changes of pages that let a suspended stage go on: the end of MAP_PAGE and MAP_PIN (R233, R235,
R251, R426, R427). -/

namespace Sys2Proof.Machine

/-- Suspended stages whose faults have been made legal are ready again, and their pillows go on (R251). -/
def State.resumeAll (s : State) : State :=
  let s := s.resumeLegal nPillows
  s.settlePillows (s.pillows.map Prod.fst)

/-- What keeps a MAP_PAGE from its change when its drain ends: its address space has been deleted, or a command
since its acceptance has pinned the page, claimed the window it would overlap, or mapped a page of the other size
there (R213, R229, R233; DESIGN CHOICE, assumption 114). -/
def State.lateCheck (q : MapPending) (s : State) : Option Reject :=
  if q.gone then some (mapFault q.p.asid 0 q.p.va)
  else
    let held := match s.namedPage q.p with
      | some g => require (!g.pin) (s.pageHeld Op.mapPage q.p.asid q.p.va)
      | none => if q.p.op = 0 then none else some (mapFault q.p.asid 0 q.p.va)
    firstOf [if q.p.op = 0 then s.targetCheck q.p else none, held]

/-- A MAP_PAGE takes effect: the caches have dropped the page, its entry is written, the tables are returned where
their last entry is gone, suspended stages may resume, and the reply goes (R230, R231, R233, R251). -/
def State.mapPageEffect (q : MapPending) (s : State) : State :=
  let s := { s with ms := { s.ms with pendings := s.ms.pendings.erase q } }
  match s.lateCheck q with
  | some r => (({ s with ms := s.ms.returnTables }).putEntries false q.p.asid q.p.va).refuse q.h Op.mapPage 0 r
  | none =>
    let s := s.dropCached q.p.asid (some q.p.va)
    let s := ({ s with ms := s.ms.changePage q.p }).putEntries true q.p.asid q.p.va
    let s := ({ s with ms := s.ms.returnTables }).putEntries false q.p.asid q.p.va
    s.resumeAll.done q.h Op.mapPage 0 []

/-- MAP_PAGE_DRAIN_END of the MAP_PAGE with this tag (R233). -/
def execMapPageDrainEnd (t : Nat) (tag : BitVec 32) (s : State) : Out :=
  let s := s.advance t
  .next (match s.ms.pendings.find? fun q => q.h.tag == tag with
    | some q => s.mapPageEffect q
    | none => s)

/-- MAP_PIN's effect and reply: PAGES counts the pages whose PIN bit changed (R230, R235, R251, R427). -/
def mapPinDo (h : Hdr) (asid op va size : Nat) (s : State) : State :=
  let ch := pinChanges asid op va (va + size)
  let gs := s.ms.pages.filter ch
  let pages := s.ms.pages.map fun g => if ch g then { g with pin := op == 0 } else g
  let s := { s with ms := { s.ms with pages := pages } }
  let s := gs.foldl (fun s g => s.putEntries true asid g.va) s
  s.resumeAll.done h Op.mapPin 0 (leBytes 4 gs.length)

/-- MAP_PIN (R235, R427). -/
def execMapPin (h : Hdr) (asid op va size : Nat) (s : State) : Out :=
  hostCommand h Op.mapPin 0 false
    (firstOf [require (decide (asid ≤ 1023)) (paramBadAt 8), require (decide (op ≤ 1)) (paramBadAt 0x0A),
      require (decide (va % 0x1_0000 = 0) && decide (va < 2 ^ 48)) (paramBadAt 0x0C),
      require (decide (size ≠ 0) && decide (size % 0x1_0000 = 0)) (paramBadAt 0x14)])
    (mapPinCheck asid op va size) (mapPinDo h asid op va size) s

end Sys2Proof.Machine
end

