-- ==== Sys2Proof/Machine/Weights.lean ====
section
/-! DEFINITION. Model weights: staging bundles (R307 to R323, R429, R430) and model slots (R324 to R332, R431 to
R433). -/

namespace Sys2Proof.Machine

/-! ## The staged-bundle region (R307, R314) -/

/-- The units of the region. -/
def stageUnits : Nat := 8192

/-- The units that a staged bundle holds. -/
def State.unitsHeld (s : State) : List Nat := s.bundles.flatMap fun (_, b) => b.units

/-- The free units in rising order. -/
def State.unitsFree (s : State) : List Nat := let h := s.unitsHeld; indices stageUnits fun u => !h.contains u

/-- The events of R407 on bundles: SHARD_REQUEST and BUNDLE_FAILED. -/
def shardEvent (handle i left : Nat) : Bytes :=
  leBytes 1 handle ++ zeros 3 ++ leBytes 4 i ++ leBytes 1 left ++ zeros 7

/-- BUNDLE_READY (R407). -/
def State.bundleReady (handle slot model : Nat) (s : State) : State :=
  s.event 0xE5 Status.ok (leBytes 1 handle ++ leBytes 1 slot ++ leBytes 2 model ++ zeros 12)

/-- A bundle fails: its units are free, the event goes and the class is raised (R318, R319). -/
def State.failBundle (handle i status cause : Nat) (s : State) : State :=
  ((s.modBundle handle fun b => { b with state := 4, units := [], checking := false, checked := false }).event 0xE4 status
    (shardEvent handle i 0)).report (weightReport handle i cause)

/-- A shard's attempt has failed (R318): the attempts left, with the bundle failed where it was the fourth. -/
def State.missShard (handle i status cause : Nat) (s : State) : Nat × State :=
  let b := s.bundle handle
  let n := tget (fun _ => 0) b.attempts i + 1
  let s := s.setBundle handle { b with attempts := tset (fun _ => 0) i n b.attempts }
  if 4 ≤ n then (0, s.failBundle handle i status cause) else (4 - n, s)

/-- A re-request is counted (R338). -/
def State.countRetry (left : Nat) (s : State) : State :=
  if left = 0 then s else { s with wt := { s.wt with retry := satAdd 0xFFFF_FFFF s.wt.retry 1 } }

/-! ## SHARD_BEGIN (R314, R315, R319, R429) -/

/-- Whether a transfer is a manifest's or a shard's. -/
def Xfer.isShard (x : Xfer) : Bool := x.kind == 1 || x.kind == 2

/-- The function 2 transfer that bars a SHARD_BEGIN: one that is open, or a shard closed by excess. -/
def State.shardHeld (s : State) : Option Reject :=
  match s.bulk.xfer.orElse fun _ => s.bulk.bar with
  | some x => some (resHeld x.opcode Op.shardBegin 14 x.kind noPillow noOwner)
  | none => none

/-- Opens a manifest's or shard's transfer and replies with BLOCKS. -/
def State.openShard (h : Hdr) (kind handle index : Nat) (total : Option Nat) (blocks : Nat) (s : State) : State :=
  let x : Xfer :=
    { kind := kind, handle := handle, index := index, opcode := Op.shardBegin, hdr := h, total := total }
  ({ s with bulk := { s.bulk with xfer := some x } }).done h Op.shardBegin 0 (leBytes 4 blocks)

/-- SHARD_BEGIN of a manifest. -/
def execShardBeginManifest (h : Hdr) (handle : Nat) (s : State) : Out :=
  hostCommand h Op.shardBegin 0 false (require (decide (handle ≤ 15)) (paramBadAt 8)) State.shardHeld
    (fun s => s.openShard h 1 handle 0xFFFF_FFFF none 0xFFFF_FFFF) s

/-- SHARD_BEGIN of a shard: its own checks. -/
def shardBeginCheck (handle index : Nat) (s : State) : Option Reject :=
  let b := s.bundle handle
  firstOf
    [require (b.state == 0 || decide (index < b.shards)) (paramBadAt 0x0C), s.shardHeld,
     require (b.state == 1 || b.state == 3) stateRefused]

/-- SHARD_BEGIN of a shard. -/
def execShardBeginShard (h : Hdr) (handle index : Nat) (s : State) : Out :=
  hostCommand h Op.shardBegin 0 false (require (decide (handle ≤ 15)) (paramBadAt 8))
    (shardBeginCheck handle index)
    (fun s =>
      let n := (s.bundle handle).shardLen index
      s.openShard h 2 handle index (some n) (f2Blocks n)) s

/-- The lowest slot that serves from a bundle or names it for a change (R319, R338). -/
def State.bundleSlot (handle : Nat) (s : State) : Option Nat :=
  lowest 64 fun n =>
    let x := s.slot n
    x.state != 0 && x.state != 6 && (x.handle == handle || x.next == some handle)

/-- SHARD_BEGIN of a discard: its own checks (R315, R319, R531). -/
def shardDiscardCheck (handle : Nat) (s : State) : Option Reject :=
  firstOf
    [s.shardHeld, require ((s.bundle handle).state != 0) stateRefused,
     (s.bundleSlot handle).map fun n => resHeld (s.slot n).op Op.shardBegin 11 n noPillow n]

/-- SHARD_BEGIN of a discard: the units are free at once. -/
def execShardBeginDiscard (h : Hdr) (handle : Nat) (s : State) : Out :=
  hostCommand h Op.shardBegin 0 false (require (decide (handle ≤ 15)) (paramBadAt 8)) (shardDiscardCheck handle)
    (fun s => (s.setBundle handle {}).done h Op.shardBegin 0 (leBytes 4 0)) s

/-! ## SHARD_END (R314, R316, R430) -/

/-- The form of a manifest (R308, R314). -/
def manifestForm (m : Bytes) : Bool :=
  let n := numAt 0x14 4 m
  let size := numAt 0x18 8 m
  numAt 0 4 m == 0x4E4D_5742 && numAt 4 2 m == 1 && numAt 0x12 2 m == 0 && numAt 0x38 8 m == 0
    && inRange 1 n 8192 && inRange 1 size 34_359_738_368 && n == ceilDiv size shardBytes
    && numAt 0x30 4 m == 64 + 32 * n && numAt 0x34 4 m == 29_792 && decide (64 + 32 * n + 29_792 ≤ m.length)

/-- Whether the running firmware's key of a manifest may verify it (R500). -/
def State.bundleKey (k : Nat) (s : State) : Bool :=
  decide (k < 8) && s.sec.bkeys.getD k false && !s.sec.revBn.getLsbD k

/-- What refuses a verified manifest (R314): its handle or its BUNDLE_ID in use, no room, four bundles in
STAGING. -/
def manifestRefused (handle : Nat) (m : Bytes) (s : State) : Option Reject :=
  let held (n : Nat) : Reject := resHeld Op.shardBegin Op.shardEnd 13 n noPillow n
  let id := BitVec.ofNat 64 (numAt 8 8 m)
  firstOf
    [require ((s.bundle handle).state == 0) (held handle),
     (lowest 16 fun n => (s.bundle n).state != 0 && (s.bundle n).id == id).map held,
     require (decide (ceilDiv (numAt 0x18 8 m) shardBytes ≤ s.unitsFree.length)) { status := Status.stageFull },
     if 4 ≤ ((List.range 16).filter fun n => (s.bundle n).state == 1).length then
       (lowest 16 fun n => (s.bundle n).state == 1).map held
     else none]

/-- The bundle that an accepted manifest opens (R314, R317). -/
def State.bundleOf (m : Bytes) (s : State) : Bundle :=
  let n := numAt 0x14 4 m
  { state := 1, id := BitVec.ofNat 64 (numAt 8 8 m), model := numAt 0x10 2 m, shards := n
    bodySize := numAt 0x18 8 m
    units := s.unitsFree.take (ceilDiv (numAt 0x18 8 m) shardBytes)
    digests := (List.range n).map fun i => BitVec.ofNat 256 (numAt (0x40 + 32 * i) 32 m), timer := s.now }

/-- SHARD_END's payload (R430). -/
def shardEndBytes (i count left : Nat) : Bytes := leBytes 4 i ++ leBytes 4 count ++ leBytes 1 left ++ zeros 7

/-- SHARD_END of a manifest: `excess` says that a block too many closed it. -/
def State.endManifest (h : Hdr) (handle : Nat) (x : Xfer) (excess sigOk : Bool) (s : State) : State :=
  let m := match x.total with
    | some n => x.buf.take n
    | none => x.buf
  if excess || !manifestForm m || !s.bundleKey (numAt 6 2 m) || !sigOk then
    s.refuse h Op.shardEnd 0 { status := Status.sigBad }
  else
    match manifestRefused handle m s with
    | some r => s.refuse h Op.shardEnd 0 r
    | none =>
      (s.setBundle handle (s.bundleOf m)).done h Op.shardEnd 0
        (shardEndBytes 0xFFFF_FFFF (numAt 0x14 4 m) 0)

/-- The attempts of a shard that are left. -/
def Bundle.left (i : Nat) (b : Bundle) : Nat := 3 - tget (fun _ => 0) b.attempts i

/-- The state of a bundle once a shard has verified: the check of R313 starts when no shard is missing and it
has not been made; a stale bundle returns to VERIFIED with its last stale shard (R319, R322). -/
def Bundle.settled (b : Bundle) : Bundle :=
  if b.stale ≠ [] then b
  else if b.verified.length < b.shards then { b with state := 1 }
  else if b.checked then { b with state := 2 }
  else { b with state := 1, checking := true }

/-- A shard whose digest matches is verified; its bytes stand in place (R315, R316). -/
def State.shardGood (handle i : Nat) (s : State) : State :=
  let b := s.bundle handle
  s.setBundle handle
    { b with verified := i :: b.verified, stale := b.stale.filter (· != i) }.settled

/-- SHARD_END of a shard (R315 to R317). -/
def State.endShard (h : Hdr) (x : Xfer) (excess : Bool) (s : State) : State :=
  let b := s.bundle x.handle
  let i := x.index
  let reply (s : State) : State :=
    let b := s.bundle x.handle
    s.done h Op.shardEnd 0 (shardEndBytes i b.verified.length (b.left i))
  let s := s.setBundle x.handle { b with timer := s.now }
  if b.verified.contains i then reply s
  else
    let data := x.buf.take (b.shardLen i)
    if !excess && data.length == b.shardLen i && digestOf (b.shardHead i ++ data) == b.digests.getD i 0 then
      reply (s.shardGood x.handle i)
    else
      let (left, s) := s.missShard x.handle i Status.digestBad 1
      (s.countRetry left).refuse h Op.shardEnd 0
        { status := Status.digestBad, payload := shardEndBytes i b.verified.length left }

/-- The manifest or shard of a handle that is open, and whether an excess block has closed its transfer. -/
def State.shardOpen (handle : Nat) (s : State) : Option (Xfer × Bool) :=
  let mine (x : Xfer) : Bool := x.isShard && x.handle == handle
  match s.bulk.xfer.filter mine, s.bulk.bar.filter mine with
  | some x, _ => some (x, false)
  | none, some x => some (x, true)
  | none, none => none

/-- SHARD_END's effect: the transfer closes, and the manifest or shard is judged. A bundle that has left STAGING
and STALE meanwhile takes no shard. -/
def shardEndDo (h : Hdr) (handle : Nat) (sigOk : Bool) (s : State) : State :=
  match s.shardOpen handle with
  | none => s.release Op.shardEnd h.tag
  | some (x, excess) =>
    let s :=
      if excess then { s with bulk := { s.bulk with bar := none } }
      else { s with bulk := { s.bulk with xfer := none, closed := true } }
    if x.kind = 1 then s.endManifest h handle x excess sigOk
    else if (s.bundle handle).state = 1 ∨ (s.bundle handle).state = 3 then s.endShard h x excess
    else s.refuse h Op.shardEnd 0 stateRefused

/-- SHARD_END (R430); `sigOk` is what the signature check of a manifest finds. -/
def execShardEnd (h : Hdr) (handle : Nat) (sigOk : Bool) (s : State) : Out :=
  hostCommand h Op.shardEnd 0 false (require (decide (handle ≤ 15)) (paramBadAt 8))
    (fun s => require (s.shardOpen handle).isSome stateRefused) (shardEndDo h handle sigOk) s

/-! ## SHARD_TIMEOUT (R317, R318) -/

/-- The lowest shard not verified. -/
def Bundle.missing (b : Bundle) : Option Nat := lowest b.shards fun i => !b.verified.contains i

/-- An open shard of a bundle is closed and discarded. -/
def State.closeShard (handle : Nat) (s : State) : State :=
  let mine (x : Xfer) : Bool := x.kind == 2 && x.handle == handle
  { s with bulk := { s.bulk with
    xfer := s.bulk.xfer.filter fun x => !mine x, bar := s.bulk.bar.filter fun x => !mine x } }

/-- SHARD_TIMEOUT: arises when SHARD_TO has passed since the timer of a bundle in STAGING last started. -/
def execShardTimeout (t handle : Nat) (s : State) : Out :=
  let s := s.advance t
  let b := s.bundle handle
  .next
    (match b.missing with
      | none => s
      | some i =>
        if !(s.alive && b.state == 1 && decide (b.timer + s.wt.shardTo * 1_000_000 ≤ s.now)) then s
        else
          let s := (s.closeShard handle).setBundle handle { b with timer := s.now }
          let (left, s) := s.missShard handle i Status.shardMissing 2
          if left = 0 then s
          else (s.countRetry left).event 0xE3 Status.shardMissing (shardEvent handle i left))

/-! ## The body (R310 to R313) -/

/-- The n-byte number at body offset a. -/
def State.bodyNum (b : Bundle) (a n : Nat) (s : State) : Nat := leNat (s.body b a n)

/-- An image table entry (R311). -/
structure ImageEntry where
  fmt : Nat
  rot : Nat
  kRows : Nat
  ncol : Nat
  ofs : Nat
  reserved : Nat
  deriving DecidableEq, Repr

/-- Image table entry i. -/
def State.imageEntry (b : Bundle) (i : Nat) (s : State) : ImageEntry :=
  let o := s.bodyNum b 0x18 8 + 16 * i
  { fmt := s.bodyNum b o 1, rot := s.bodyNum b (o + 1) 1, kRows := s.bodyNum b (o + 2) 2
    ncol := s.bodyNum b (o + 4) 2, ofs := s.bodyNum b (o + 8) 8, reserved := s.bodyNum b (o + 6) 2 }

/-- Target entry i with its image's figures (R312). -/
def State.targetEntry (b : Bundle) (i : Nat) (s : State) : Target :=
  let o := s.bodyNum b 0x20 8 + 16 * i
  let e := s.imageEntry b (s.bodyNum b o 2)
  { image := s.bodyNum b o 2, ppil := s.bodyNum b (o + 2) 1, logical := s.bodyNum b (o + 3) 1
    twin := s.bodyNum b (o + 4) 1, csum := s.bodyNum b (o + 6) 2, fmt := e.fmt, rot := e.rot, kRows := e.kRows
    ncol := e.ncol, ofs := e.ofs }

/-- Column-factor entry i. -/
def State.factorEntry (b : Bundle) (i : Nat) (s : State) : FactorBlock :=
  let o := s.bodyNum b 0x28 8 + 16 * i
  { ppil := s.bodyNum b o 1, count := s.bodyNum b (o + 2) 2, base := s.bodyNum b (o + 4) 2
    ofs := s.bodyNum b (o + 8) 8 }

/-- The targets of a bundle. -/
def State.targetsOf (b : Bundle) (s : State) : List Target :=
  (List.range (s.bodyNum b 0x12 2)).map fun i => s.targetEntry b i

/-- The factor blocks of a bundle. -/
def State.factorsOf (b : Bundle) (s : State) : List FactorBlock :=
  (List.range (s.bodyNum b 0x14 2)).map fun i => s.factorEntry b i

/-- The header's checks (R310, R313). -/
def State.headerGood (b : Bundle) (s : State) : Bool :=
  s.bodyNum b 0 4 == 0x4442_5742 && s.bodyNum b 4 2 == 1 && inRange 1 (s.bodyNum b 6 2) 816
    && s.bodyNum b 8 8 == b.id.toNat && s.bodyNum b 0x10 2 == b.model && inRange 1 (s.bodyNum b 0x12 2) 13_056
    && decide (s.bodyNum b 0x14 2 ≤ 768) && s.bodyNum b 0x16 2 == 0 && s.bodyNum b 0x30 16 == 0

/-- The ranges of the three tables. -/
def State.tables (b : Bundle) (s : State) : List (Nat × Nat) :=
  [(s.bodyNum b 0x18 8, 16 * s.bodyNum b 6 2), (s.bodyNum b 0x20 8, 16 * s.bodyNum b 0x12 2),
   (s.bodyNum b 0x28 8, 16 * s.bodyNum b 0x14 2)]

/-- Whether the levels of a pair hold the form of R56 and a value in [lo, hi]. -/
def pairGood (lo hi : Int) (plus minus : Nat) : Bool :=
  (plus == 0 || minus == 0) && decide (lo ≤ (plus : Int) - minus) && decide ((plus : Int) - minus ≤ hi)

/-- The levels of one row of an image (R59, R73, R313). -/
def State.rowGood (b : Bundle) (e : ImageEntry) (r : Nat) (s : State) : Bool :=
  let lv (c : Nat) : Nat := s.imageLevel b e.ofs r c
  (List.range 512).all (fun j =>
      if e.kRows ≤ r then lv (2 * j) == 0 && lv (2 * j + 1) == 0
      else if e.fmt % 2 = 1 ∨ j % 2 = 0 then pairGood (-8) 7 (lv (2 * j)) (lv (2 * j + 1))
      else pairGood 0 15 (lv (2 * j)) (lv (2 * j + 1)))
    && (List.range 8).all fun g =>
      let v := refLevel g r
      lv (1024 + 2 * g) == (max v 0).toNat && lv (1025 + 2 * g) == (max (-v) 0).toNat

/-- An image: its entry's ranges, its place in the body, its levels and its column sums (R311, R313). -/
def State.imageGood (b : Bundle) (e : ImageEntry) (s : State) : Bool :=
  decide (e.fmt ≤ 1) && decide (e.rot ≤ 3) && inRange 1 e.kRows 1024
    && inRange 1 e.ncol (if e.fmt = 1 then 512 else 256) && e.reserved == 0 && e.ofs % 4096 == 0
    && decide (e.ofs + imageBytes ≤ b.bodySize)
    && ((s.tables b).all fun (o, n) => n == 0 || decide (o + n ≤ e.ofs) || decide (e.ofs + imageBytes ≤ o))
    && ((List.range 1024).all fun r => s.rowGood b e r)
    && ((List.range 512).all fun j => decide (j < e.ncol) || s.bodyNum b (e.ofs + 532_480 + 8 * j) 8 == 0)

/-- A target entry's own fields (R312, R313). -/
def State.targetGood (b : Bundle) (i : Nat) (s : State) : Bool :=
  let o := s.bodyNum b 0x20 8 + 16 * i
  let t := s.targetEntry b i
  decide (t.image < s.bodyNum b 6 2) && decide (t.ppil ≤ 47) && decide (t.logical ≤ 15)
    && (decide (t.twin ≤ 47) || t.twin == 0xFF) && s.bodyNum b (o + 5) 1 == 0 && s.bodyNum b (o + 8) 8 == 0
    && decide (t.csum + t.ncol ≤ 8192)

/-- A column-factor entry (R312, R313). -/
def State.factorGood (b : Bundle) (i : Nat) (s : State) : Bool :=
  let o := s.bodyNum b 0x28 8 + 16 * i
  let f := s.factorEntry b i
  decide (f.ppil ≤ 47) && s.bodyNum b (o + 1) 1 == 0 && s.bodyNum b (o + 6) 2 == 0 && inRange 1 f.count 8192
    && decide (f.base + f.count ≤ 8192) && decide (f.ofs + 8 * f.count ≤ b.bodySize)

/-- No two targets name one place, and every TWIN is answered (R313). -/
def targetsAgree (ts : List Target) : Bool :=
  decide (ts.map fun t => (t.ppil, t.logical)).Nodup
    && ts.all fun t => t.twin == 0xFF
      || ts.any fun u => u.image == t.image && u.ppil == t.twin && u.twin == t.ppil

/-- The body check of R313. -/
def State.bodyGood (b : Bundle) (s : State) : Bool :=
  decide (64 ≤ b.bodySize) && s.headerGood b && ((s.tables b).all fun (o, n) => decide (o + n ≤ b.bodySize))
    && ((List.range (s.bodyNum b 6 2)).all fun i => s.imageGood b (s.imageEntry b i))
    && ((List.range (s.bodyNum b 0x12 2)).all fun i => s.targetGood b i)
    && ((List.range (s.bodyNum b 0x14 2)).all fun i => s.factorGood b i) && targetsAgree (s.targetsOf b)

/-- The shards of a bundle that hold a poisoned unit. -/
def State.poisonedShards (b : Bundle) (s : State) : List Nat := indices b.shards fun i => s.shardPoisoned b i

/-- BUNDLE_CHECK_END: arises when every shard of a bundle has verified and its body is being checked (R319). A
poisoned unit met by the check makes its shard stale (R322). -/
def execBundleCheckEnd (t handle : Nat) (s : State) : Out :=
  let s := s.advance t
  let b := s.bundle handle
  .next
    (if !(s.alive && b.state == 1 && b.checking) then s
    else
    let s := (List.range b.shards).foldl (fun s i => s.meetShard handle i) s
    if s.poisonedShards b ≠ [] then (s.poisonedShards b).foldl (fun s i => s.markStale handle i 3) s
    else if s.bodyGood b then
      (s.setBundle handle { b with state := 2, checking := false, checked := true }).bundleReady handle 0xFF b.model
    else s.failBundle handle 0xFFFF_FFFF Status.bundleBad 4)

/-! ## REDIGEST_PASS (R321, R322) -/

/-- The verified shards of a bundle in order. -/
def Bundle.verifiedInOrder (b : Bundle) : List Nat :=
  if inRange 1 b.state 3 then indices b.shards b.verified.contains else []

/-- REDIGEST_PASS: every REDIGEST minutes, paused at throttle step 1 and above (R321, R526). -/
def execRedigestPass (t : Nat) (s : State) : Out :=
  let s := s.advance t
  .next
    (if !(s.alive && s.mgmt.devState != 0 && s.therm.step == 0
        && decide (max s.wt.redigestAt s.mgmt.resetAt + s.wt.redigest * 60_000_000_000 ≤ s.now)) then s
    else
      let s : State :=
        (List.range 16).foldl (fun s n => s.digestShards n (s.bundle n).verifiedInOrder) s
      { s with wt := { s.wt with passes := (s.wt.passes + 1) % 65536, redigestAt := s.now } })

/-! ## Slots -/

/-- What a slot command answers of a slot in PROGRAMMING, DRAINING or STOPPED (R331). -/
def State.slotBusy (claim n : Nat) (s : State) : Option Reject :=
  let x := s.slot n
  require (x.state != 1 && x.state != 4 && x.state != 5) (resHeld x.op claim 11 n noPillow n)

/-- What a slot command answers of the bundle it names (R320, R531). -/
def State.bundleRefused (handle : Nat) (s : State) : Option Reject :=
  let st := (s.bundle handle).state
  firstOf
    [require (st != 0) stateRefused, require (st != 1) { status := Status.shardMissing },
     require (st != 4) { status := Status.digestBad }, require (st != 3) { status := Status.stale }]

/-- The shards that a programming from a bundle reads (R323). -/
def State.shardsRead (b : Bundle) (s : State) : List Nat :=
  (shardsOf 0 64 ++ ((s.tables b).flatMap fun (o, n) => if n = 0 then [] else shardsOf o n)
    ++ ((s.targetsOf b).flatMap Target.shards)
    ++ (s.factorsOf b).flatMap fun f => shardsOf f.ofs (8 * f.count)).eraseDups

/-- Loads a target's column sums into its pillow's memory (R99, R311). -/
def State.loadSums (b : Bundle) (map : List Nat) (t : Target) (s : State) : State :=
  let o := t.ofs + 532_480
  let p := map.getD t.ppil 0xFF
  s.setPillow p { s.pillow p with
    csum := (List.range t.ncol).foldl (fun c j =>
      tset (fun _ => ((0 : Int), (0 : Int))) (t.csum + j)
        (intAt 0 4 (s.body b (o + 8 * j) 4), intAt 0 4 (s.body b (o + 8 * j + 4) 4)) c) (s.pillow p).csum }

/-- Loads a block of column factors (R134, R312). -/
def State.loadFactors (b : Bundle) (map : List Nat) (f : FactorBlock) (s : State) : State :=
  let p := map.getD f.ppil 0xFF
  s.setPillow p { s.pillow p with
    cfac := (List.range f.count).foldl (fun c k =>
      tset (fun _ => ((0 : BitVec 32), (0 : BitVec 32))) (f.base + k)
        (BitVec.ofNat 32 (s.bodyNum b (f.ofs + 8 * k) 4), BitVec.ofNat 32 (s.bodyNum b (f.ofs + 8 * k + 4) 4)) c)
      (s.pillow p).cfac }

/-- The physical bobbin that a target's programming takes: its own, or the SPARE_EMPTY spare where that is
FAILED; none where there is no such spare (R325, R329). -/
def State.takes (p l : Nat) (s : State) : Option Nat :=
  let x := s.pillow p
  let b := x.physOf l
  if (s.bobbin p b).state ≠ 5 then some b else x.spare.filter fun q => (s.bobbin p q).state == 1

/-- The spare takes a FAILED bobbin's place in the map (R83, R325). -/
def State.takeSpare (p l : Nat) (s : State) : State :=
  let x := s.pillow p
  let b := x.physOf l
  match s.takes p l with
  | some q =>
    if q = b then s
    else
      let s := s.setPillow p { x with map := tset (fun l => l) l q x.map }
      let s := s.modBobbin p b fun y => { y with mapped := false }
      (s.modBobbin p q fun y => { y with state := 6, mapped := true, logical := l, image := none }).loseSpare p q 2
  | none => s

/-- Asks for the programming of a target's bobbin (R81). -/
def State.askProgram (n handle : Nat) (map : List Nat) (t : Target) (s : State) : State :=
  let p := map.getD t.ppil 0xFF
  let s := s.takeSpare p t.logical
  let b := (s.pillow p).physOf t.logical
  let s := s.modBobbin p b fun y => { y with state := 6, slot := n, image := none }
  s.modPillow p fun x => { x with
    progs := x.progs ++ [{ bobbin := b, logical := t.logical, forSlot := some n, target := t, handle := handle
                           started := false }] }

/-- The programming of a slot starts: column sums, factors, and every target (R325). -/
def State.startProgram (n handle : Nat) (map : List Nat) (s : State) : State :=
  let b := s.bundle handle
  let ts := s.targetsOf b
  let fs := s.factorsOf b
  let s := ts.foldl (fun s t => s.loadSums b map t) s
  let s := fs.foldl (fun s f => s.loadFactors b map f) s
  let s := ts.foldl (fun s t => s.askProgram n handle map t) s
  s.modSlot n fun x => { x with
    map := map, targets := ts, factors := fs, failedAt := none, start := s.now
    left := ts.map fun t => (map.getD t.ppil 0xFF, t.logical) }

/-- A slot enters FAILED (R486). -/
def State.slotDown (n p phys : Nat) (s : State) : State :=
  (s.modSlot n fun x => { x with state := 6, next := none, left := [], hdr := none }).report
    { cls := 28, pillow := p, body := leBytes 1 n ++ leBytes 1 phys }

/-! ## SLOT_PROGRAM (R325, R431) -/

/-- The placement pillows that a bundle uses. -/
def State.placements (b : Bundle) (s : State) : List Nat :=
  indices 48 fun k => ((s.targetsOf b).any fun t => t.ppil == k) || (s.factorsOf b).any fun f => f.ppil == k

/-- The check of MAP against the bundle (R431): the first byte refused. -/
def State.mapBad (b : Bundle) (map : List Nat) (s : State) : Option Reject :=
  let ks := s.placements b
  (ks.find? fun k =>
    map.getD k 0xFF == 0xFF || ks.any fun j => decide (j < k) && map.getD j 0xFF == map.getD k 0xFF).map
      fun k => paramBadAt (0x0C + k)

/-- Whether [a, a + n) and [b, b + m) share an entry. -/
def overlap (a n b m : Nat) : Bool := decide (a < b + m) && decide (b < a + n)

/-- The slot, other than n, that holds a target's bobbin or column-sum entries, with the first entry shared. -/
def State.targetHolder (n p : Nat) (t : Target) (s : State) : Option (Nat × Nat) :=
  (List.range 64).findSome? fun k =>
    let x := s.slot k
    if k = n ∨ x.state = 0 then none
    else if (x.targets.any fun u => x.physPillow u.ppil == p && u.logical == t.logical) then some (k, t.logical)
    else if (x.targets.any fun u => x.physPillow u.ppil == p && overlap u.csum u.ncol t.csum t.ncol) then
      some (k, t.csum)
    else none

/-- The slot, other than n, that holds a factor block's entries. -/
def State.factorHolder (n p : Nat) (f : FactorBlock) (s : State) : Option (Nat × Nat) :=
  (List.range 64).findSome? fun k =>
    let x := s.slot k
    if k ≠ n && x.state != 0
        && x.factors.any fun g => x.physPillow g.ppil == p && overlap g.base g.count f.base f.count then
      some (k, f.base)
    else none

/-- SLOT_PROGRAM's and CAL_FAIL's payload (R431). -/
def slotBytes (model pillow bobbin us : Nat) : Bytes :=
  leBytes 2 model ++ leBytes 1 pillow ++ leBytes 1 bobbin ++ leBytes 4 us

/-- CAL_FAIL as SLOT_PROGRAM answers it. -/
def slotCalFail (model pillow bobbin : Nat) : Reject :=
  { status := Status.calFail, payload := slotBytes model pillow bobbin 0 }

/-- SLOT_PROGRAM's own checks (R320, R325, R331, R345, R431, R473, R526, R79). -/
def slotProgramCheck (n handle : Nat) (map : List Nat) (s : State) : Option Reject :=
  let b := s.bundle handle
  let known := b.checked
  let ts := if known then s.targetsOf b else []
  let fs := if known then s.factorsOf b else []
  let pil (k : Nat) : Nat := map.getD k 0xFF
  firstOf
    ([if known then s.mapBad b map else none, require (decide (s.therm.step < 2)) stateRefused,
      s.slotBusy Op.slotProgram n,
      require ((s.slot n).state == 0 || (s.slot n).state == 2 || (s.slot n).state == 6) stateRefused,
      s.bundleRefused handle, require (s.trim.calDone && s.power.pwrgd) (slotCalFail b.model 0xFF 0xFF),
      require ((s.placements b).all fun k => s.inService (pil k)) stateRefused]
    ++ (ts.map fun t => (s.targetHolder n (pil t.ppil) t).map fun (k, i) =>
      resHeld Op.slotProgram Op.slotProgram 12 i (pil t.ppil) k)
    ++ (fs.map fun f => (s.factorHolder n (pil f.ppil) f).map fun (k, i) =>
      resHeld Op.slotProgram Op.slotProgram 12 i (pil f.ppil) k)
    ++ (ts.map fun t => require (s.takes (pil t.ppil) t.logical).isSome
      (slotCalFail b.model (pil t.ppil) ((s.pillow (pil t.ppil)).physOf t.logical)))
    ++ ts.map fun t =>
      require ((s.takes (pil t.ppil) t.logical).any fun q => s.domainOn (bankOf (pil t.ppil) q)) stateRefused)

/-- SLOT_PROGRAM is accepted: the shards it reads are digested first, and a faulty one writes no cell (R323).
The reply waits for the end. -/
def slotProgramDo (h : Hdr) (n handle : Nat) (map : List Nat) (s : State) : State :=
  let s := s.digestShards handle (s.shardsRead (s.bundle handle))
  if (s.bundle handle).state ≠ 2 then
    ((s.modSlot n fun x => { x with handle := handle, op := Op.slotProgram }).slotDown n 0xFF 0xFF).refuse h
      Op.slotProgram 0 { status := Status.stale }
  else
    let s := s.modSlot n fun x =>
      { x with
        state := 1, handle := handle, next := none, model := (s.bundle handle).model, hdr := some h
        op := Op.slotProgram, fromSheet := 0 }
    (s.startProgram n handle map).release Op.slotProgram h.tag

/-- SLOT_PROGRAM (R431). -/
def execSlotProgram (h : Hdr) (slot handle : Nat) (map : List Nat) (s : State) : Out :=
  hostCommand h Op.slotProgram 0 false
    (firstOf
      ([require (decide (slot ≤ 63)) (paramBadAt 8), require (decide (handle ≤ 15)) (paramBadAt 9)]
        ++ (List.range 48).map fun k =>
          require (decide (map.getD k 0xFF ≤ 47) || map.getD k 0xFF == 0xFF) (paramBadAt (0x0C + k))))
    (slotProgramCheck slot handle map) (slotProgramDo h slot handle map) s

/-- What is left of a slot's programming: a pillow that has failed out programs no more. -/
def State.slotLeft (n : Nat) (s : State) : List (Nat × Nat) :=
  (s.slot n).left.filter fun x => s.inService x.1

/-- The bobbin at which a slot's programming failed: one that failed, or one of a pillow that has failed out. -/
def State.slotFault (n : Nat) (s : State) : Option (Nat × Nat) :=
  let x := s.slot n
  x.failedAt.orElse fun _ =>
    (x.left.find? fun e => !s.inService e.1).map fun (p, l) => (p, (s.pillow p).physOf l)

/-- SLOT_PROGRAM_END: arises when the last bobbin of the slot has been programmed (R325, R326, R431). -/
def execSlotProgramEnd (t slot : Nat) (s : State) : Out :=
  let s := s.advance t
  let x := s.slot slot
  let us := (s.now - x.start) / 1000
  .next
    (if !(s.alive && x.state == 1 && (s.slotLeft slot).isEmpty) then s
    else
      let reply (status p b : Nat) (s : State) : State :=
        match x.hdr with
        | some h => s.reply h Op.slotProgram 0 status (slotBytes x.model p b us)
        | none => s
      match s.slotFault slot with
      | some (p, b) => reply Status.calFail p b (s.slotDown slot p b)
      | none => reply Status.ok 0xFF 0xFF (s.setSlot slot { x with state := 2, hdr := none }))

/-! ## SLOT_ACTIVATE (R327 to R329, R432) -/

/-- The sheet that a slot command binds: the next one; 0 with SHEET_SRC = NONE. -/
def State.nextSheet (s : State) : Nat := if s.tb.sheetSrc = 0 then 0 else (s.sheets.sheet + 1) % 2 ^ 32

/-- SLOT_ACTIVATE's payload: the sheet bound, or ones with SHEET_SRC = NONE. -/
def State.sheetBytes (s : State) : Bytes := leBytes 4 (if s.tb.sheetSrc = 0 then 0xFFFF_FFFF else s.nextSheet)

/-- The slot's bobbins that hold its images become ACTIVE. -/
def State.wakeBobbins (n : Nat) (s : State) : State :=
  let x := s.slot n
  x.targets.foldl (fun s t =>
    let p := x.physPillow t.ppil
    s.modBobbin p ((s.pillow p).physOf t.logical) fun y =>
      if y.state = 6 ∧ y.slot = n ∧ y.image.isSome then { y with state := 0 } else y) s

/-- What a replacement must keep of a slot's shape, in the order of its entries (R329). -/
def shapeOf (ts : List Target) (fs : List FactorBlock) : List (List Nat) × List (List Nat) :=
  (ts.map fun t => [t.ppil, t.logical, t.twin, t.fmt, t.rot, t.kRows, t.ncol, t.csum],
   fs.map fun f => [f.ppil, f.count, f.base])

/-- Whether two slots' shapes have the same entries. -/
def sameShape (x y : List (List Nat) × List (List Nat)) : Bool :=
  decide (x.1.Perm y.1) && decide (x.2.Perm y.2)

/-- SLOT_ACTIVATE's own checks without a bundle and with one (R79, R320, R328, R329, R331, R432). -/
def slotActivateCheck (n : Nat) (handle : Option Nat) (s : State) : Option Reject :=
  let x := s.slot n
  match handle with
  | none => firstOf [s.slotBusy Op.slotActivate n, require (x.state == 2) stateRefused]
  | some k =>
    let b := s.bundle k
    firstOf
      ([s.slotBusy Op.slotActivate n, require (x.state == 3) stateRefused, require s.trim.calDone stateRefused,
        s.bundleRefused k, require s.power.pwrgd { status := Status.calFail, payload := leBytes 1 0xFF ++ leBytes 1 0xFF },
        require (sameShape (shapeOf (s.targetsOf b) (s.factorsOf b)) (shapeOf x.targets x.factors))
          { status := Status.bundleBad, payload := leBytes 1 k ++ leBytes 1 5 ++ leBytes 2 0 }]
      ++ x.targets.map fun t =>
        let p := x.physPillow t.ppil
        require (s.takes p t.logical).isSome
          { status := Status.calFail, payload := leBytes 1 p ++ leBytes 1 ((s.pillow p).physOf t.logical) })

/-- The refreshes of a slot's bobbins are dropped as it enters DRAINING; a swap bound to an earlier sheet stays
(R331). -/
def State.dropSlotRefresh (n : Nat) (s : State) : State :=
  let x := s.slot n
  (x.targets.map fun t => (x.physPillow t.ppil, t.logical)).foldl (fun s (p, l) =>
    let y := s.pillow p
    let mine := y.refreshing.any fun q => q.logical == l
    let shadow := y.spare.any fun b =>
      (s.bobbin p b).state == 3 && (s.bobbin p b).logical == l
        && (s.tb.sheetSrc == 0 || decide (s.sheets.sheet < y.swapSheet))
    let s := s.modPillow p fun z => { z with refresh := z.refresh.filter fun q => q.logical != l }
    if mine || shadow then s.dropRefresh p else s) s

/-- A slot enters DRAINING under the opcode given (R328, R330). -/
def State.drain (n op : Nat) (next : Option Nat) (hdr : Option Hdr) (s : State) : State :=
  (s.modSlot n fun x => { x with
    state := 4, op := op, next := next, hdr := hdr, sheet := s.nextSheet }).dropSlotRefresh n

/-- SLOT_ACTIVATE's effect and reply: a READY slot is bound; a replacement's bundle is digested first, and the
slot drains (R327, R328). -/
def slotActivateDo (h : Hdr) (n : Nat) (handle : Option Nat) (s : State) : State :=
  match handle with
  | none =>
    let s := s.modSlot n fun x =>
      { x with state := 3, fromSheet := s.nextSheet, sheet := s.nextSheet, op := Op.slotActivate }
    (s.wakeBobbins n).done h Op.slotActivate 0 s.sheetBytes
  | some k =>
    let s := s.digestShards k (s.shardsRead (s.bundle k))
    if (s.bundle k).state ≠ 2 then s.refuse h Op.slotActivate 0 { status := Status.stale }
    else (s.drain n Op.slotActivate (some k) none).done h Op.slotActivate 0 s.sheetBytes

/-- SLOT_ACTIVATE (R432). -/
def execSlotActivate (h : Hdr) (slot : Nat) (handle : Option Nat) (s : State) : Out :=
  hostCommand h Op.slotActivate 0 false
    (firstOf [require (decide (slot ≤ 63)) (paramBadAt 8),
      require (handle.all fun k => decide (k ≤ 15)) (paramBadAt 9)])
    (slotActivateCheck slot handle) (slotActivateDo h slot handle) s

/-! ## The replacement (R328, R329) -/

/-- Whether a job still has passes to make on a slot for a sheet before the bound one. -/
def State.jobPasses (n bound : Nat) (j : Job) (s : State) : Bool :=
  !j.dead && (s.prkOf j).slots.contains n && decide (j.sheet < bound) && j.stages.any fun x => x.2.phase != .done

/-- Whether a template has still rows to release of sheets before the bound one. -/
def State.templatePasses (n bound : Nat) (t : Template) (s : State) : Bool :=
  !t.withdrawn && ((s.prick t.p.prk).elim false fun _ => ((s.prick t.p.prk).getD emptyPrick).slots.contains n)
    && decide ((s.sheetAt (s.stream t.p.stream).sheetOfs (t.nextRow : Int)).1 < bound)

/-- Whether a DRAINING slot has no pass outstanding from its old version (R328). With SHEET_SRC = NONE no row to come
runs on it, and the jobs that stand finish. -/
def State.drained (n : Nat) (s : State) : Bool :=
  let bound := (s.slot n).sheet
  if s.tb.sheetSrc = 0 then !(s.liveJobs.any fun (_, j) => s.jobPasses n (j.sheet + 1) j)
  else !(s.liveJobs.any fun (_, j) => s.jobPasses n bound j)
    && !(s.admitted.any fun (_, t) => s.templatePasses n bound t)

/-- The swaps of a slot's bobbins that are still due take place, and its bobbins become IDLE (R331). -/
def State.restBobbins (n : Nat) (s : State) : State :=
  let x := s.slot n
  x.targets.foldl (fun s t =>
    let p := x.physPillow t.ppil
    let s := if ((s.pillow p).spare.any fun b =>
        (s.bobbin p b).state == 3 && (s.bobbin p b).logical == t.logical) then s.swapIn p false else s
    let s := s.retireEnd p
    s.modBobbin p ((s.pillow p).physOf t.logical) fun y => if y.state = 0 then { y with state := 6 } else y) s

/-- The first target of a replacement whose bobbin cannot be programmed: FAILED without a spare, or on a pillow
that has failed out (R329). -/
def State.cannotProgram (n : Nat) (s : State) : Option (Nat × Nat) :=
  let x := s.slot n
  (x.targets.find? fun t =>
    let p := x.physPillow t.ppil
    !s.inService p || (s.takes p t.logical).isNone).map fun t =>
      (x.physPillow t.ppil, (s.pillow (x.physPillow t.ppil)).physOf t.logical)

/-- SLOT_DRAIN_END: arises on a slot that drains for a replacement with no old pass outstanding; it is STOPPED and
reprograms every target from the new bundle (R328, R329). A bundle that is not VERIFIED any more is not read, and none
is programmed while VDD_XBAR is out of range: the slot is FAILED (R79, R320; assumption 109). -/
def execSlotDrainEnd (t slot : Nat) (s : State) : Out :=
  let s := s.advance t
  let x := s.slot slot
  .next
    (match x.next with
      | none => s
      | some k =>
        if !(s.alive && x.state == 4 && s.drained slot) then s
        else
          let s := (s.modSlot slot fun y => { y with state := 5 }).restBobbins slot
          if !(s.power.pwrgd && (s.bundle k).state == 2) then s.slotDown slot 0xFF 0xFF
          else match s.cannotProgram slot with
          | some (p, b) => s.slotDown slot p b
          | none => s.startProgram slot k x.map)

/-- SLOT_REPROGRAM_END: arises when a STOPPED slot's last bobbin has been programmed; the slot is ACTIVE with the
new model for the instances released from now on (R328, R329). -/
def execSlotReprogramEnd (t slot : Nat) (s : State) : Out :=
  let s := s.advance t
  let x := s.slot slot
  .next
    (match x.next with
      | none => s
      | some k =>
        if !(s.alive && x.state == 5 && (s.slotLeft slot).isEmpty) then s
        else match s.slotFault slot with
          | some (p, b) => s.slotDown slot p b
          | none =>
            let m := (s.bundle k).model
            let s := s.setSlot slot { x with state := 3, handle := k, next := none, model := m, fromSheet := 0 }
            (s.wakeBobbins slot).bundleReady k slot m)

/-! ## SLOT_RETIRE (R330, R433) -/

/-- The lowest admitted template that names a slot. -/
def State.slotTemplate (n : Nat) (s : State) : Option Nat :=
  (s.admitted.find? fun (_, t) => ((s.prick t.p.prk).getD emptyPrick).slots.contains n).map Prod.fst

/-- SLOT_RETIRE's own checks (R330, R331, R531). -/
def slotRetireCheck (n : Nat) (s : State) : Option Reject :=
  firstOf
    [s.slotBusy Op.slotRetire n, require ((s.slot n).state != 0) stateRefused,
     (s.slotTemplate n).map fun k => resHeld Op.jobAdmit Op.slotRetire 11 n noPillow k]

/-- The slot's bobbins become IDLE, its entries are free, and it is EMPTY. -/
def State.emptySlot (n : Nat) (s : State) : State :=
  let sheet := (s.slot n).sheet
  (s.restBobbins n).setSlot n { sheet := sheet }

/-- SLOT_RETIRE's effect: an ACTIVE slot drains, another is EMPTY at once. -/
def slotRetireDo (h : Hdr) (n : Nat) (s : State) : State :=
  if (s.slot n).state = 3 then (s.drain n Op.slotRetire none (some h)).release Op.slotRetire h.tag
  else (s.emptySlot n).done h Op.slotRetire 0 []

/-- SLOT_RETIRE (R433). -/
def execSlotRetire (h : Hdr) (slot : Nat) (s : State) : Out :=
  hostCommand h Op.slotRetire 0 false (require (decide (slot ≤ 63)) (paramBadAt 8)) (slotRetireCheck slot)
    (slotRetireDo h slot) s

/-- SLOT_RETIRE_END: arises on a retiring slot with no pass outstanding (R330). -/
def execSlotRetireEnd (t slot : Nat) (s : State) : Out :=
  let s := s.advance t
  let x := s.slot slot
  .next
    (if !(s.alive && x.state == 4 && x.next.isNone && s.drained slot) then s
    else
      let s := s.emptySlot slot
      match x.hdr with
      | some h => s.reply h Op.slotRetire 0 Status.ok []
      | none => s)

end Sys2Proof.Machine
end

