-- ==== Sys2Proof/Machine/Programming.lean ====
section
/-! DEFINITION. The end of a bobbin's programming (R80, R323, R325, R335, R496). -/

namespace Sys2Proof.Machine

/-- A programming that ended without success (R80, R323, R331, R335): a refresh's spare is SPARE_EMPTY again
unless it is FAILED, and then the pillow has none. -/
def State.progBad (p : Nat) (q : ProgReq) (x : RunEnd) (s : State) : State :=
  let (d, s) := s.draw
  let target := s.imageCells (s.bundle q.handle) q.target.ofs
  let s := s.modBobbin p q.bobbin
    (Bobbin.progFailed target x (d.toNat % 2 ^ 32) (if q.forSlot.isSome then 6 else 1))
  let s := s.modPillow p fun x => if q.forSlot.isNone then { x with refreshing := none } else x
  match q.forSlot with
  | some n => if x.fail then s.slotFailed n p q.bobbin else s
  | none => if x.fail then s.loseSpare p q.bobbin 1 else s

/-- The programmings of a slot on one pillow: the waiting ones go, those that run stop at the end of their rows. -/
def Pillow.slotStopped (n : Nat) (x : Pillow) : Pillow :=
  { x with progs := x.progs.filterMap fun q =>
      if q.forSlot ≠ some n then some q else if q.started then some { q with stopped := true } else none }

/-- A slot's programming ends at once: its waiting requests go, those that run stop at the end of their rows, and
the slot is FAILED with the command's reply (R323, R431). -/
def State.slotStops (n p b : Nat) (s : State) : State :=
  let y := s.slot n
  let s := { s with pillows := tmapTo (fun _ => {}) (fun _ x => x.slotStopped n) nPillows s.pillows }
  let s := s.slotDown n p b
  match y.hdr with
  | some h => s.reply h Op.slotProgram 0 Status.calFail (slotBytes y.model p b ((s.now - y.start) / 1000))
  | none => s

/-- A programming that failed can leave its pillow with fewer than 16 bobbins outside FAILED, and the pillow fails
out (R80, R496). -/
def State.checkSound (p : Nat) (s : State) : State :=
  if s.alive && s.inService p && decide (s.soundCount p < 16) then
    let (ps, s) := s.failOut p 4
    s.settlePillows ps
  else s

/-- The body offsets of the poisoned units among the 65 that hold row r of an image (R311). -/
def State.poisonedUnits (q : ProgReq) (r : Nat) (s : State) : List Nat :=
  ((List.range 65).map fun i => q.target.ofs + 520 * r + 8 * i).filter fun a =>
    s.ms.poison.contains ((s.bundle q.handle).addr a)

/-- The first row of a programming whose levels stand in a poisoned unit, none where every one reads well (R323). -/
def State.poisonedRow (q : ProgReq) (s : State) : Option Nat :=
  lowest 1024 fun r => !(s.poisonedUnits q r).isEmpty

/-- The row at which a programming stops that the spec does not date: some row, otherwise free. -/
def State.someRow (s : State) : Nat × State :=
  let (d, s) := s.draw
  (d.toNat % 1025, s)

/-- The bundle of a programming is no longer to be read (R320, R322, R323): the poisoned shard is stale, and the
programming stops, with the whole of its slot. -/
def State.progUnread (p : Nat) (q : ProgReq) (row iters : Nat) (s : State) : State :=
  let s := s.progBad p q { rows := row, vfail := 0, iters := iters, torn := false, fail := false }
  match q.forSlot with
  | some n => s.slotStops n p q.bobbin
  | none => s

/-- What the end of a programming run does with its request (R80, R323, R335, R471). Its reads of the shards that
hold its image meet the errors that have arisen there (R219). A run stopped at a row's end is
judged by no cell of it (assumption 110). -/
def State.progEnd (p : Nat) (q : ProgReq) (vfail iters : Nat) (s : State) : State :=
  if q.cut then
    let (r, s) := s.someRow
    (s.progBad p q { rows := r, vfail := vfail, iters := iters, torn := true, fail := true }).checkSound p
  else if q.stopped then
    let (r, s) := s.someRow
    s.progBad p q { rows := r, vfail := 0, iters := iters, torn := false, fail := false }
  else
  let s := [q.target.ofs, q.target.ofs + imageBytes - 1].foldl (fun s a => s.meetShard q.handle (a / shardBytes)) s
  match s.poisonedRow q with
  | some r =>
    let bad := ((s.poisonedUnits q r).map fun a => a / shardBytes).eraseDups
    (bad.foldl (fun s i => s.markStale q.handle i 3) s).progUnread p q r iters
  | none =>
    if (s.bundle q.handle).state ≠ 2 then
      let (r, s) := s.someRow
      s.progUnread p q r iters
    else if vfail ≠ 0 then
      (s.progBad p q { rows := 1024, vfail := vfail, iters := iters, torn := false, fail := true }).checkSound p
    else s.progGood p q iters

/-- BOBBIN_PROGRAMMING_END with the cells not accepted and the largest iteration count (R80). Levels read
from a poisoned unit mark the bundle STALE and stop the run at that row (R323). -/
def execBobbinProgrammingEnd (t pillow bobbin vfail iters : Nat) (s : State) : Out :=
  let s := s.advance t
  let x := s.pillow pillow
  .next
    (match x.progs.find? fun q => q.started && q.bobbin == bobbin with
      | none => s
      | some q =>
        let s := s.setPillow pillow { x with progs := x.progs.erase q }
        let s := match q.forSlot with
          | some n => if q.stopped then s else s.modSlot n fun y => { y with left := y.left.erase (pillow, q.logical) }
          | none => s
        s.progEnd pillow q vfail iters)

end Sys2Proof.Machine
end

