-- ==== Sys2Proof/Machine/Records.lean ====
section
/-! DEFINITION. RECORD: the commit of a job's records (R47, R153, R168, R253, R269, R298, R486, R495) and the
record mover (R300, R304). -/

namespace Sys2Proof.Machine

/-! ## The packets -/

/-- The tag of a record packet, which routes it in the mover: context, instance and the service ports named for
the full record (DESIGN CHOICE, assumption 40). -/
def recordTag (c : Nat) (j : Job) : BitVec 32 :=
  BitVec.ofNat 32 (c % 2 ^ 14 + fld 14 8 j.inst + fld 22 2 j.port)

/-- A record packet of a job. -/
def recordPacket (c : Nat) (j : Job) (b : Bytes) : QPacket :=
  { prio := if j.pinned then 1 else 0, writer := 0, tag := recordTag c j, data := b }

/-- EPOCH of a record: the oldest epoch of its passes; without one the spec states none (assumption 13). -/
def State.recordEpoch (j : Job) (s : State) : Nat × State :=
  if j.epochs.isEmpty then let (d, s) := s.draw; (d.toNat, s) else (j.oldestEpoch, s)

/-- MODEL of a record: that of the slot its pricking names; without one the spec states none (assumption 13). -/
def State.recordModel (j : Job) (s : State) : Nat × State :=
  if j.slotTag = 0xFF then let (d, s) := s.draw; (d.toNat, s) else ((s.slot j.slotTag).model, s)

/-- Whether a result-staging queue takes n more items of a RECORD (R263, R264). -/
def State.itemRoom (p n : Nat) (s : State) : Bool :=
  let x := s.queue (3 + p)
  x.wait.isEmpty && x.wpart.isNone && x.fits (3 + p) n

/-- Whether a result-staging queue takes what a RECORD has still to enter: the compact packet of 1 item, where it has
not entered, and the full one of 4 (R264, R269). -/
def State.recordRoom (p : Nat) (j : Job) (s : State) : Bool := s.itemRoom p (if j.figures.isSome then 4 else 5)

/-- EPOCH and MODEL of a job's records: one pair for both packets. -/
def State.recordFigures (j : Job) (s : State) : (Nat × Nat) × State :=
  match j.figures with
  | some x => (x, s)
  | none =>
    let (e, s) := s.recordEpoch j
    let (m, s) := s.recordModel j
    ((e, m), s)

/-- A RECORD that finds no room for both packets: the compact one enters where it fits, and the wait goes on (R263,
R264, R269). -/
def State.compactFirst (p c : Nat) (j : Job) (payload : Bytes) (s : State) : State :=
  let s :=
    if j.figures.isNone && s.itemRoom p 1 then
      let (x, s) := s.recordFigures j
      (s.present (3 + p) (recordPacket c j (j.compactRecord x.1 x.2 s.now payload))).modJob c
        fun j => { j with figures := some x }
    else s
  s.modQueue (3 + p) fun x => { x with fullSeen := true }

/-- The counters of R186 and R497 and the report of R486 that a commit moves. -/
def State.countCommit (p c : Nat) (j : Job) (s : State) : State :=
  let g := j.guaranteeStatus s.now
  let s := { s with mgmt := { s.mgmt with
    withdrawn := satAdd 0xFFFF_FFFF s.mgmt.withdrawn (if g = Status.guaranteeWithdrawn then 1 else 0)
    recomp := satAdd 0xFFFF_FFFF s.mgmt.recomp (if j.recomputed then 1 else 0) } }
  let s := s.modPillow p fun x => { x with cnt := { x.cnt with
    sqEmpty := satAdd 0xFFFF_FFFF x.cnt.sqEmpty (if j.resultStatus = Status.okEmpty then 1 else 0) } }
  if j.pinned && decide (j.deadline < s.now) then
    s.report
      { cls := 21, pillow := p, ctx := some c, template := j.template
        body := leBytes 4 (min 0xFFFF_FFFF (s.now - j.deadline)) ++ leBytes 6 j.sr }
  else s

/-- A job's records enter the queue of pillow p: the compact packet, where it has not entered, then the full one
(R269). A pinned record is delivered with it (R47, R214). -/
def State.commitRecords (p c : Nat) (j : Job) (payload : Bytes) (s : State) : State :=
  let (x, s) := s.recordFigures j
  let s := if j.figures.isSome then s
    else s.present (3 + p) (recordPacket c j (j.compactRecord x.1 x.2 s.now payload))
  let s := s.present (3 + p) (recordPacket c j (j.fullRecord c x.1 x.2 s.now payload))
  let s := s.countCommit p c j
  if j.pinned then s.rowDelivered j else s

/-! ## The payload (R153, R298) -/

/-- The physical ranges that an operand's bytes stand in. -/
def State.opndRanges (w : Work) (x : Opnd) (off line : Int) (n : Nat) (s : State) : List (Nat × Nat) :=
  if x.windowed && x.ground then
    [((s.stream x.window).lineAddr (w.job.firstLine + line) off, n)]
  else
    let va := if x.windowed then ((s.pillow w.p).window x.window).lineVa line off else vaOf off
    (vaPieces va n).filterMap fun (v, k) => (s.pageAt w.asid v).map fun g => (g.physical v, k)

/-- Reads the payload of a RECORD; one with a unit that stays poisoned reads as zero (R298). -/
def State.readPayload (w : Work) (s : State) : Access :=
  let (off, line) := w.address w.op.a Level.strA [] 0
  if w.op.count = 0 then .ok [] s
  else match s.readOpnd w 1 w.op.a off line w.op.count with
    | .ok b s =>
      .ok (if (s.opndRanges w w.op.a off line w.op.count).any fun x => (s.poisonIn x.1 x.2).isSome then
        zeros w.op.count else b) s
    | r => r

/-! ## RECORD_COMMIT -/

/-- Whether a job without further work commits on pillow p: its last stage has stopped (R253). -/
def State.deadOn (p c : Nat) (j : Job) (s : State) : Bool := j.dead && s.recordPillow j == p && !s.inRun c

/-- The order in which records without work are committed: pinned first, then by release, template and
instance, or by submission. -/
def deadKey (j : Job) : List Nat :=
  if j.pinned then [0, j.sr, j.template, j.inst] else [1, j.order, 0, 0]

/-- The next record without work due on pillow p (R37, R168, R253, R494). -/
def State.deadJob (p : Nat) (s : State) : Option (Nat × Job) :=
  s.liveJobs.foldl (fun m (c, j) =>
    if !s.deadOn p c j then m
    else match m with
      | some (_, k) => if lexLt (deadKey j) (deadKey k) then some (c, j) else m
      | none => some (c, j)) none

/-- The run of pillow p where it stands at a RECORD whose other stages are done (R153). -/
def State.recordWork (p : Nat) (s : State) : Option Work :=
  ((s.pillow p).run.bind fun r => s.workOf p r).filter fun w =>
    s.inService p && decide (w.run.op < w.prk.nOps) && w.op.kind == kRecord && w.run.started
      && w.run.waitWin.isNone && w.othersDone

/-- The RECORD of pillow p's run commits and the stage goes on, or waits for room (R264). -/
def State.runRecord (p : Nat) (w : Work) (s : State) : State :=
  match s.readPayload w with
  | .ok b s =>
    let j := (s.job w.run.ctx).getD w.job
    if s.recordRoom p j then ((s.commitRecords p w.run.ctx j b).modRun p fun _ => w.nextOp).boundary p 6
    else s.compactFirst p w.run.ctx j b
  | .fault f s => (s.unitFault p f).settlePillows (p :: w.job.pillows)
  | .wait n l d => (s.unitWait p 6 n l d).settlePillows [p]

/-- RECORD_COMMIT: a record is due on the pillow: that of a job that runs no more work, or the RECORD that its run
has reached. A full queue makes it wait (R264). -/
def execRecordCommit (t pillow : Nat) (s : State) : Out :=
  let s := s.advance t
  .next
    (if !s.alive then s
    else match s.deadJob pillow, s.recordWork pillow with
      | some (c, j), _ =>
        if s.recordRoom pillow j then
          ((s.commitRecords pillow c j []).dropJob c).settlePillows j.pillows
        else s.compactFirst pillow c j []
      | none, some w =>
        if w.run.stop.isSome || w.job.aborting.isSome then s.settlePillows [pillow] else s.runRecord pillow w
      | none, none => s)

/-! ## RECORD_MOVE (R300) -/

/-- A record that has left its queue goes where R300 routes it. -/
def State.routeRecord (q : QPacket) (s : State) : State :=
  if q.data.length = 16 then
    if q.prio = 1 then s.pkDeliver (some ((q.data.headD 0).toNat % 16)) q.data else s
  else
    let r : EgRec := { bytes := q.data, pinned := q.prio == 1 }
    let s := if q.tag.getLsbD 22 then s.egressRecord 0 r else s
    if q.tag.getLsbD 23 then s.egressRecord 1 r else s

/-- RECORD_MOVE: the mover takes the next packet of a result-staging queue; a wait of RECORD ends with the room
(R269, R300). -/
def execRecordMove (t pillow : Nat) (ecc : WordEcc) (s : State) : Out :=
  let s := s.advance t
  .next
    (if s.alive && !(s.queue (3 + pillow)).vis.isEmpty then
      match s.takePacket (3 + pillow) ecc with
      | (lost, q, s) => (q.elim s s.routeRecord).afterLoss (3 + pillow) lost
    else s)

end Sys2Proof.Machine
end

