-- ==== Sys2Proof/Machine/TimeBase.lean ====
section
/-! DEFINITION. The time base: the encoder and the stitch divider (R13 to R18), new stitches and their stamps
(R18 to R23), sheet boundaries (R25, R53, R54, R109), compare units (R27, R28, R390), stalls (R24), TB_CONFIG
(R20, R438) and TB_CLAIM (R29 to R31, R439). -/

namespace Sys2Proof.Machine

/-! ## Sheet boundaries -/

/-- The bobbins of a pillow that hold the trims of two sheets at a boundary: for them the next epoch waits for the
release of the older, whether a pass of the new sheet comes before it or not (R54). -/
def Pillow.waitTrims (x : Pillow) : Pillow :=
  let f (_ : Nat) (b : Bobbin) : Bobbin := { b with blocked := b.blocked || decide (2 ≤ b.live.length) }
  { x with bobbins := tmapTo bobbinAtReset f 17 x.bobbins }

/-- A pillow at the boundary that begins sheet n: pending scale sets bind, a refreshed spare whose sheet has come
swaps in, and what no earlier sheet needs is released (R53, R54, R84, R109). -/
def State.pillowBoundary (n p : Nat) (s : State) : State :=
  ((s.bindPending p (some n)).settle p).modPillow p Pillow.waitTrims

/-- The sheet that begins at stitch st: its number, and the last four boundary positions (R25, R26). -/
def Sheets.begun (st : Nat) (x : Sheets) : Sheets :=
  { x with
    sheet := (x.sheet + 1) % 2 ^ 32, sheetWp := st
    bounds := ((x.sheet + 1) % 2 ^ 32, st) :: x.bounds.take 3 }

/-- A sealed epoch that waits binds to the sheet that begins; a boundary at the seal's own time counts as before it
(R53, R356). -/
def Trim.bindTo (now n : Nat) (x : Trim) : Trim :=
  match x.unbound with
  | some e =>
    if now ≤ x.sealBase then x
    else { x with unbound := none, binds := (e, n) :: x.binds, bindSheet := n, bound := true }
  | none => x

/-- A sheet boundary at stitch st (R25, R26, R53). -/
def State.sheetBoundary (st : Nat) (s : State) : State :=
  let x := s.sheets.begun st
  (List.range nPillows).foldl (fun s p => s.pillowBoundary x.sheet p)
    { s with sheets := x, trim := s.trim.bindTo s.now x.sheet }

/-! ## Compare units (R27, R28) -/

/-- A HOST_NOTE event in the holding buffer, or lost where that is full (R390, R407). One that finds no room in the
reply queue waits there, a write that waits under R264 (R276). -/
def State.hostNote (unit note : Nat) (s : State) : State :=
  let x := s.sdio
  if 16 ≤ x.notes.length then
    { s with sdio := { x with noteLostFlag := true, noteLost := satAdd 0xFFFF_FFFF x.noteLost 1 } }
  else
    let p : QPacket :=
      { prio := 7, writer := 5, tag := 0
        data := leBytes 1 2 ++ leBytes 1 0xE0 ++ leBytes 2 32 ++ zeros 4 ++ leBytes 2 Status.ok ++ zeros 2
          ++ leBytes 4 s.now ++ leBytes 1 unit ++ leBytes 1 note ++ leBytes 6 (ofSigned 48 s.tb.wp)
          ++ leBytes 8 s.now }
    let s := { s with sdio := { x with notes := x.notes ++ [p] } }
    let y := s.queue 1
    if y.wait.isEmpty && y.wpart.isNone && y.fits 1 p.items && x.notes.isEmpty then s
    else s.modQueue 1 fun y => { y with fullSeen := true }

/-- The action of unit n at stitch st; `pulsed` lists the pins that the stitch has pulsed (R28, R465). -/
def State.unitActs (n st : Nat) (pulsed : List Nat) (s : State) : List Nat × State :=
  let u := s.unit n
  if u.action = 0 then (pulsed, { s with sheets := { s.sheets with hit := s.sheets.hit ||| (1#64 <<< n) } })
  else if u.action = 1 then
    if pulsed.contains u.arg then (pulsed, s) else (u.arg :: pulsed, s.pulse u.arg)
  else if u.action = 2 then (pulsed, s.hcAction u.arg)
  else if u.action = 3 then (pulsed, s.sheetBoundary st)
  else if u.action = 4 then (pulsed, s.pkFire st)
  else (pulsed, s.hostNote n u.arg)

/-- Unit n fires where its target is stitch st: a periodic target advances, a one-shot disarms (R27). -/
def State.fireUnit (st : Nat) (m : List Nat × State) (n : Nat) : List Nat × State :=
  let u := m.2.unit n
  if u.armed && u.target == st then
    let v := if u.period = 0 then { u with armed := false } else { u with target := u.target + u.period }
    (m.2.setUnit n v).unitActs n st m.1
  else m

/-- The units that fire on stitch st, in ascending order (R27). -/
def State.fireUnits (st : Nat) (s : State) : State :=
  ((List.range 64).foldl (State.fireUnit st) ([], s)).2

/-! ## New stitches (R18, R19, R22) -/

/-- The boundary that a Z pulse or a THREAD edge has asked for (R25). -/
def State.askedBoundary (st : Nat) (s : State) : State :=
  if s.sheets.indexPend || s.sheets.threadPend then
    ({ s with sheets := { s.sheets with indexPend := false, threadPend := false } }).sheetBoundary st
  else s

/-- A new stitch: HWM, the stamp, the snapshot and the end of a stall. -/
def State.stamp (s : State) : State :=
  let x := s.tb
  let st := x.wp.toNat
  { s with tb := { x with
    hwm := st, stamps := (st, s.now) :: x.stamps.take 1023, snap := { wp := st, ptp := s.ptpAt s.now }
    stall := false, stallBase := s.now } }

/-- What a new stitch drives: boundaries, compare units, and the rows that fall due (R19, R25, R27, R33). In the
fault state the time base keeps counting alone (R488). -/
def State.newStitch (s : State) : State :=
  let s := s.stamp
  let st := s.tb.hwm
  if s.alive then ((s.askedBoundary st).fireUnits st).releaseDue fun _ => true else s

/-! ## The divider (R13, R17) -/

/-- A forward count. -/
def State.countForward (s : State) : State :=
  let x := s.tb
  if x.num ≤ x.acc + x.den then
    let s := { s with tb := { x with acc := x.acc + x.den - x.num, wp := x.wp + 1 } }
    if (s.tb.hwm : Int) < s.tb.wp then s.newStitch else s
  else { s with tb := { x with acc := x.acc + x.den } }

/-- A reverse count. -/
def State.countReverse (s : State) : State :=
  let x := s.tb
  if x.acc < x.den then { s with tb := { x with acc := x.acc + x.num - x.den, wp := x.wp - 1 } }
  else { s with tb := { x with acc := x.acc - x.den } }

/-- Whether an edge from (a, b) to (a', b') is one with A leading (R13). -/
def aLeads (a b a' b' : Bool) : Bool := if a = a' then a' == b' else if b = b' then a' != b' else false

/-- ENCODER_COUNT: the filtered inputs take the levels a and b (R13 to R17). -/
def execEncoderCount (t : Nat) (a b : Bool) (s : State) : Out :=
  let s := s.advance t
  let x := s.tb
  .next
    (if !s.up then s
    else
      let s := { s with tb := { x with encA := a, encB := b } }
      if !x.encEn || x.los != 0 then s
      else if x.encA ≠ a ∧ x.encB ≠ b then
        { s with tb := { s.tb with encIllegal := true, illegal := satAdd 0xFFFF x.illegal 1 } }
      else if x.encA = a ∧ x.encB = b then s
      else if aLeads x.encA x.encB a b != x.dirInv then s.countForward else s.countReverse)

/-- INDEX_PULSE: a Z pulse marks the next new stitch as a boundary under SHEET_SRC = INDEX (R25). -/
def execIndexPulse (t : Nat) (s : State) : Out :=
  let s := s.advance t
  .next
    (if s.up && s.tb.encEn && s.tb.los == 0 && s.tb.sheetSrc == 2 then
      { s with sheets := { s.sheets with indexPend := true } }
    else s)

/-- ENCODER_LOSS: counting stops, and the class is raised once per loss event (R16). -/
def execEncoderLoss (t : Nat) (pairs : BitVec 3) (s : State) : Out :=
  let s := s.advance t
  .next
    (if s.up then
      let first := s.tb.los == 0 && pairs != 0
      let s := { s with tb := { s.tb with los := s.tb.los ||| pairs } }
      if first then s.report { cls := 12, body := leBytes 1 pairs.toNat } else s
    else s)

/-- ENCODER_LOSS_END: every pair has recovered (R16). -/
def execEncoderLossEnd (t : Nat) (s : State) : Out :=
  let s := s.advance t
  .next (if s.up then { s with tb := { s.tb with los := 0 } } else s)

/-- STALL: 1,000 µs without a new stitch since the end of reset, TB_CONFIG or the last new stitch (R24, R463). -/
def execStall (t : Nat) (s : State) : Out :=
  let s := s.advance t
  .next
    (if s.up && !s.tb.stall && decide (max s.mgmt.resetAt s.tb.stallBase + 1_000_000 ≤ s.now) then
      let s := { s with tb := { s.tb with stall := true } }
      if s.alive then s.pkStall else s
    else s)

/-! ## TB_CONFIG (R20, R25, R438) -/

/-- The lowest compare unit that TB_CLAIM or PK_CONFIG holds. -/
def State.barringUnit (s : State) : Option Nat :=
  lowest 64 fun n => (s.unit n).claimed && (s.unit n).holder != Op.tbConfig

/-- The unit that a TB_CONFIG with SHEET_SRC = REPEAT claims: the lowest free one, the sheet unit of an earlier
TB_CONFIG among them. -/
def State.sheetUnit (s : State) : Option Nat :=
  lowest 64 fun n => !(s.unit n).claimed || s.sheets.unit == some n

/-- TB_CONFIG's own checks. -/
def tbConfigCheck (p : TbConfigParams) (s : State) : Option Reject :=
  firstOf
    [s.admitted.head?.map fun (n, _) => resHeld Op.jobAdmit Op.tbConfig 17 n noPillow n,
     if p.preset then s.barringUnit.map fun n => s.unitHeld Op.tbConfig n else none,
     require (p.sheetSrc != 1 || s.sheetUnit.isSome) (s.unitHeld Op.tbConfig 63),
     require (p.sheetSrc != 3 || (s.pin p.sheetPin).role == 0 || s.sheets.pin == some p.sheetPin)
       (resHeld (s.pin p.sheetPin).holder Op.tbConfig 2 p.sheetPin noPillow (s.pin p.sheetPin).owner)]

/-- The parameter ranges of TB_CONFIG. -/
def tbConfigParams (p : TbConfigParams) : Option Reject :=
  firstOf
    [require (inRange 1 p.num 65535) (paramBadAt 8), require (inRange 1 p.den p.num) (paramBadAt 0x0A),
     require (decide (p.filt ≤ 15)) (paramBadAt 0x0D), require (decide (p.sheetSrc ≤ 3)) (paramBadAt 0x0E),
     require (decide (p.sheetPin ≤ 3)) (paramBadAt 0x0F),
     require (p.sheetSrc != 1 || decide (1 ≤ p.rep)) (paramBadAt 0x10)]

/-- A sheet number of before TB_CONFIG cleared TB_SHEET: 0 for a sheet that has begun, 1 for the one that the
next boundary begins (DESIGN CHOICE, assumption 42). -/
def rebase (sheet n : Nat) : Nat := if n ≤ sheet then 0 else 1

/-- A pillow when TB_SHEET is cleared: what it holds belongs to sheet 0 from here on. -/
def Pillow.rebased (sheet : Nat) (x : Pillow) : Pillow :=
  { x with
    swapSheet := rebase sheet x.swapSheet
    qdesc := x.qdesc.map fun (i, e) =>
      (i, e.map fun e => { e with live := e.live.map fun (k, v) => (k % 2 ^ 32, v) })
    bobbins := (List.range 17).foldl (fun t b =>
      let y := tget bobbinAtReset t b
      tset bobbinAtReset b { y with
        live := (y.live.take 1).map fun z => (0, z.2), blocked := false, adoptFrom := rebase sheet y.adoptFrom } t)
      x.bobbins }

/-- TB_SHEET restarts at 0: what is bound to sheets, and the loose jobs in progress, follow it (assumption 42). -/
def State.newSheets (s : State) : State :=
  let n := s.sheets.sheet
  { s with
    sheets := { s.sheets with sheet := 0, bounds := [], indexPend := false, threadPend := false }
    trim := { s.trim with binds := (s.trim.binds.take 1).map fun x => (x.1, 0) }
    slots := s.slots.map fun (k, x) => (k, { x with
      fromSheet := rebase n x.fromSheet, sheet := rebase n x.sheet })
    jobs := s.jobs.map fun (c, j) => (c, j.map fun j => { j with
      sheet := 0, qkeys := j.qkeys.map fun (p, k) => (p, k % 2 ^ 32) })
    pillows := tmapTo (fun _ => {}) (fun _ x => x.rebased n) nPillows s.pillows }

/-- The unit or pin that an earlier TB_CONFIG held is free, but for a pin that is claimed again. -/
def State.dropSheetSource (keep : Option Nat) (s : State) : State :=
  let s := match s.sheets.unit with
    | some n => s.releaseUnit n
    | none => s
  let s := match s.sheets.pin with
    | some q => if keep = some q then s else s.modPin q fun x => { x with role := 0, holder := 0 }
    | none => s
  { s with sheets := { s.sheets with unit := none, pin := none } }

/-- The new sheet source is claimed. -/
def State.takeSheetSource (p : TbConfigParams) (s : State) : State :=
  if p.sheetSrc = 1 then
    match s.freeUnit with
    | some n =>
      let s := s.claimUnit n Op.tbConfig 3 0 p.rep (s.tb.hwm + p.rep)
      { s with sheets := { s.sheets with unit := some n } }
    | none => s
  else if p.sheetSrc = 3 then
    let s := s.modPin p.sheetPin fun x => { x with role := 2, holder := Op.tbConfig }
    { s with sheets := { s.sheets with pin := some p.sheetPin } }
  else s

/-- TB_CONFIG's effect. -/
def tbConfigDo (h : Hdr) (p : TbConfigParams) (s : State) : State :=
  let s := s.dropSheetSource (if p.sheetSrc = 3 then some p.sheetPin else none)
  let x := s.tb
  let s := { s with tb := { x with
    encEn := p.encEn, dirInv := p.dirInv, sheetSrc := p.sheetSrc, sheetPin := p.sheetPin, filt := p.filt
    num := p.num, den := p.den, rep := p.rep, acc := 0, stallBase := s.now
    wp := if p.preset then (p.wp : Int) else x.wp, hwm := if p.preset then p.wp else x.hwm } }
  let s := s.newSheets.takeSheetSource p
  s.done h Op.tbConfig 0 (leBytes 1 (s.sheets.unit.getD 0xFF))

/-- TB_CONFIG (R438). -/
def execTbConfig (h : Hdr) (p : TbConfigParams) (s : State) : Out :=
  hostCommand h Op.tbConfig 0 false (tbConfigParams p) (tbConfigCheck p) (tbConfigDo h p) s

/-! ## TB_CLAIM (R29 to R31, R439) -/

/-- The parameter ranges of a claim. -/
def tbClaimParams (unit : Option Nat) (action arg : Nat) : Option Reject :=
  firstOf
    [require (decide (unit.getD 0 ≤ 63)) (paramBadAt 9),
     require (action == 0 || action == 1 || action == 2 || action == 5) (paramBadAt 0x0A),
     require (decide (arg ≤ (if action = 1 then 3 else 15))) (paramBadAt 0x0B)]

/-- A claim's own checks: the unit, the pin, the target. -/
def tbClaimCheck (unit : Option Nat) (action arg period target : Nat) (s : State) : Option Reject :=
  firstOf
    [(match unit with
      | some n => require (!(s.unit n).claimed) (s.unitHeld Op.tbClaim n)
      | none => require s.freeUnit.isSome (s.unitHeld Op.tbClaim 63)),
     require (action != 1 || (s.pin arg).role == 0 || (s.pin arg).role == 1)
       (resHeld (s.pin arg).holder Op.tbClaim 2 arg noPillow (s.pin arg).owner),
     require (s.armTarget target period).isSome { status := Status.tbPast }]

/-- A claim's effect: the unit is armed, and a strobe pin has one more user (R30). A free strobe pin stands at its
inactive level. -/
def tbClaimDo (h : Hdr) (unit : Option Nat) (action arg period target : Nat) (s : State) : State :=
  let n := unit.getD (s.freeUnit.getD 63)
  let g := (s.armTarget target period).getD target
  let s := s.claimUnit n Op.tbClaim action arg period g
  let s := if action = 1 then
      s.modPin arg fun x => { x with
        role := 1, holder := Op.tbClaim, users := x.users + 1
        level := if x.role = 0 ∧ x.pulse = none then x.pol else x.level }
    else s
  s.done h Op.tbClaim 0 (leBytes 1 n ++ zeros 7 ++ leBytes 8 g)

/-- TB_CLAIM, OP 0. -/
def execTbClaimClaim (h : Hdr) (unit : Option Nat) (action arg period target : Nat) (s : State) : Out :=
  hostCommand h Op.tbClaim 0 false (tbClaimParams unit action arg) (tbClaimCheck unit action arg period target)
    (tbClaimDo h unit action arg period target) s

/-- TB_CLAIM, OP 1: a unit of another opcode is refused, and a free one is PARAM_BAD (R439). The reply has no
target. -/
def execTbClaimRelease (h : Hdr) (unit : Nat) (s : State) : Out :=
  hostCommand h Op.tbClaim 1 false (require (decide (unit ≤ 63)) (paramBadAt 9))
    (fun s => firstOf
      [require (s.unit unit).claimed (paramBadAt 9),
       require ((s.unit unit).holder == Op.tbClaim) (s.unitHeld Op.tbClaim unit)])
    (fun s => (s.releaseUnit unit).done h Op.tbClaim 1 (leBytes 1 unit ++ zeros 15)) s

end Sys2Proof.Machine
end

