-- ==== Sys2Proof/Machine/RegsFront.lean ====
section
/-! DEFINITION. The register maps of the blocks TB (R32), PK (R467), HC (R378) and TRIM (R359): what a register
reads, what a read of it clears or freezes, and what a write sets (R8 to R11). -/

namespace Sys2Proof.Machine

/-- A signed number in w bits of a register. -/
def sfld (lo w : Nat) (v : Int) : Nat := fld lo w (ofSigned w v)

/-! ## TB -/

/-- A compare unit's registers (R32). -/
def CmpUnit.regs (x : CmpUnit) (o : Nat) : Nat :=
  match o with
  | 0 => x.target % 2 ^ 32
  | 4 => bitsOf 32 16 x.target
  | 8 => x.period % 2 ^ 32
  | 12 => flag 0 x.claimed + flag 1 x.armed + fld 2 3 x.action + fld 5 4 x.arg + fld 16 8 x.holder
  | _ => 0

/-- TB_STATUS. -/
def State.tbStatus (s : State) : Nat :=
  let x := s.tb
  flag 0 (x.los != 0) + flag 1 (decide (x.wp < x.hwm)) + flag 2 x.stall + flag 3 s.ptp.lock + flag 4 x.encIllegal
    + flag 5 x.sheetOld + flag 6 x.overspeedSeen

/-- The snapshot that the registers beside TB_WP_LO show. -/
def TimeBase.shown (x : TimeBase) : Snapshot := x.frozen.getD x.snap

/-- A register of the TB block. -/
def State.tbValue (o : Nat) (s : State) : Nat :=
  let x := s.tb
  let y := s.sheets
  match o with
  | 0x000 => flag 0 x.encEn + flag 1 x.dirInv + fld 2 2 x.sheetSrc + fld 4 2 x.sheetPin + fld 6 4 x.filt
  | 0x004 => fld 0 16 x.num + fld 16 16 x.den
  | 0x008 => x.rep % 2 ^ 32
  | 0x00C => s.tbStatus
  | 0x010 => x.snap.wp % 2 ^ 32
  | 0x014 => bitsOf 32 16 x.shown.wp
  | 0x018 => (x.shown.ptp % 10 ^ 9).toNat
  | 0x01C => (x.shown.ptp / 10 ^ 9 % 2 ^ 32).toNat
  | 0x020 => (x.shown.ptp / 10 ^ 9 / 2 ^ 32 % 2 ^ 16).toNat
  | 0x024 => s.speed
  | 0x028 => x.hwm % 2 ^ 32
  | 0x02C => bitsOf 32 16 x.hwm
  | 0x030 => y.sheet % 2 ^ 32
  | 0x034 => y.sheetWp % 2 ^ 32
  | 0x038 => bitsOf 32 16 y.sheetWp
  | 0x03C => x.illegal % 2 ^ 16
  | 0x040 => x.overspeed % 2 ^ 16
  | 0x048 => y.hit.toNat % 2 ^ 32
  | 0x04C => y.hit.toNat / 2 ^ 32
  | _ => if inRange 0x100 o 0x4FF then (s.unit ((o - 0x100) / 16)).regs (o % 16) else 0

/-- A read of TB_WP_LO freezes the other snapshot registers; one of TB_WP_HI ends that (R32). -/
def State.tbClear (o : Nat) (s : State) : State :=
  let x := s.tb
  match o with
  | 0x010 => { s with tb := { x with frozen := some x.shown } }
  | 0x014 => { s with tb := { x with frozen := none } }
  | 0x03C => { s with tb := { x with illegal := 0 } }
  | 0x040 => { s with tb := { x with overspeed := 0 } }
  | _ => s

/-- A write to the TB block: its W1C bits. -/
def State.tbPut (o v : Nat) (s : State) : State :=
  let x := s.tb
  match o with
  | 0x00C => { s with tb := { x with
      encIllegal := w1c v 4 x.encIllegal
      sheetOld := w1c v 5 x.sheetOld
      overspeedSeen := w1c v 6 x.overspeedSeen } }
  | 0x048 => { s with sheets := { s.sheets with hit := s.sheets.hit &&& ~~~(BitVec.ofNat 64 (v % 2 ^ 32)) } }
  | 0x04C => { s with sheets := { s.sheets with hit := s.sheets.hit &&& ~~~(BitVec.ofNat 64 (v % 2 ^ 32 * 2 ^ 32)) } }
  | _ => s

/-! ## PK -/

/-- Whether a strap value latched is a reserved one (R454). -/
def State.strapReserved (s : State) : Bool :=
  let v := s.power.straps.toNat
  bitsOf 0 2 v == 3 || bitsOf 3 2 v == 3

/-- PK_CTRL. -/
def State.pkCtrl (s : State) : Nat :=
  let x := s.pk
  flag 0 x.en + fld 1 2 s.picotRole + fld 3 6 x.unit + flag 9 ((x.frame.any fun f => f.timer) || (x.en && s.tb.stall))
    + fld 10 2 (x.frame.elim 0 PkFrame.slot) + flag 12 x.frame.isNone + flag 13 x.deferred.isSome

/-- What PK_PICK1, PK_PICK_WP and PK_PICK_FR show. -/
def Picot.shown (x : Picot) : Bytes × Nat × Nat := x.pickFrozen.getD (x.pick, x.pickWp, x.pickFr)

/-- A THREAD pin's registers (R467). -/
def ThreadPin.regs (x : ThreadPin) (o : Nat) : Nat :=
  match o with
  | 0 => fld 0 16 x.width + flag 16 x.pol
  | 4 => fld 0 2 x.role + flag 2 x.level + fld 8 8 x.holder + fld 16 7 x.users
  | 8 => x.edgeWp % 2 ^ 32
  | 12 => fld 0 16 x.pulses + fld 16 16 x.retrig
  | _ => 0

/-- A register of the PK block. -/
def State.pkValue (o : Nat) (s : State) : Nat :=
  let x := s.pk
  match o with
  | 0x000 => s.pkCtrl
  | 0x004 => x.streams.toNat
  | 0x008 => s.power.straps.toNat + flag 8 s.strapReserved
  | 0x00C => x.frames % 2 ^ 32
  | 0x010 => x.frameWp % 2 ^ 32
  | 0x014 => bitsOf 32 16 x.frameWp
  | 0x018 => numAt 0 4 x.pick
  | 0x01C => numAt 4 4 x.shown.1
  | 0x020 => x.shown.2.1 % 2 ^ 32
  | 0x024 => x.shown.2.2 % 2 ^ 32
  | 0x028 => x.buf.length % 2 ^ 11
  | 0x02C => flag 0 x.statLost + flag 1 x.statOverrun + flag 2 x.statStalled + flag 3 x.statCut
  | 0x030 => x.thrown % 2 ^ 32
  | 0x034 => fld 0 16 x.dropFull + fld 16 16 x.dropFilt
  | 0x038 => fld 0 16 x.deferredCnt + fld 16 16 x.skipped
  | 0x03C => fld 0 16 x.short + fld 16 16 x.long
  | 0x040 => x.stallF % 2 ^ 32
  | _ => if inRange 0x080 o 0x0BF then (s.pin ((o - 0x080) / 16)).regs (o % 16) else 0

/-- A read of PK_PICK0 freezes the other pick-up registers until PK_PICK_FR is read; counts clear (R467). -/
def State.pkClear (o : Nat) (s : State) : State :=
  let x := s.pk
  match o with
  | 0x018 => { s with pk := { x with pickFrozen := some x.shown } }
  | 0x024 => { s with pk := { x with pickFrozen := none } }
  | 0x030 => { s with pk := { x with thrown := 0 } }
  | 0x034 => { s with pk := { x with dropFull := 0, dropFilt := 0 } }
  | 0x038 => { s with pk := { x with deferredCnt := 0, skipped := 0 } }
  | 0x03C => { s with pk := { x with short := 0, long := 0 } }
  | 0x040 => { s with pk := { x with stallF := 0 } }
  | _ =>
    if inRange 0x080 o 0x0BF && o % 16 == 12 then
      s.modPin ((o - 0x080) / 16) fun p => { p with pulses := 0, retrig := 0 }
    else s

/-- TH_CFG after a write: WIDTH 0 leaves WIDTH, and a role other than FREE leaves POL (R467). -/
def ThreadPin.configured (v : Nat) (x : ThreadPin) : ThreadPin :=
  { x with
    width := if v % 2 ^ 16 = 0 then x.width else v % 2 ^ 16
    pol := if x.role = 0 then bitOf 16 v else x.pol }

/-- A write to the PK block. -/
def State.pkPut (o v : Nat) (s : State) : State :=
  let x := s.pk
  if o = 0x02C then
    { s with pk := { x with
      statLost := w1c v 0 x.statLost
      statOverrun := w1c v 1 x.statOverrun
      statStalled := w1c v 2 x.statStalled
      statCut := w1c v 3 x.statCut } }
  else if inRange 0x080 o 0x0BF && o % 16 == 0 then s.modPin ((o - 0x080) / 16) (ThreadPin.configured v)
  else s

/-! ## HC -/

/-- The conversion in progress is an urgent one. -/
def Conv.isUrgent (c : Conv) : Bool :=
  match c.kind with
  | .urgent _ => true
  | _ => false

/-- The time a CAL_RUN has run for, none outside one. -/
def State.calAge (s : State) : Option Nat := if s.trim.cal.isSome then some (s.now - s.trim.calStart) else none

/-- Whether HC_SELFCAL is in progress: a host's, or step 1 of CAL_RUN (R343, R364). -/
def State.selfcalOn (s : State) : Bool :=
  s.hc.selfcal.isSome || s.calAge.any fun a => decide (a < 2_050_000)

/-- Whether the calibration machinery converts at moments the spec does not give: during HC_SELFCAL, and in steps
1 to 3 of CAL_RUN (R343). -/
def State.calConverts (s : State) : Bool :=
  s.hc.selfcal.isSome || s.calAge.any fun a => decide (a < 14_000_000)

/-- BUSY and CH of HC_CTRL: those of the conversion in progress; while the calibration machinery converts they are a
free value (assumption 108). -/
def State.busyChannel (s : State) : Bool × Nat :=
  match s.hc.conv with
  | some c => (true, c.ch)
  | none =>
    if s.calConverts then
      let w := (Config.calConversion s.now).toNat
      (bitOf 0 w, bitsOf 1 5 w)
    else (false, 0)

/-- HC_CTRL; SEQ names the sequence running, an urgent read between its steps included. -/
def State.hcCtrl (s : State) : Nat :=
  let x := s.hc
  let b := s.busyChannel
  flag 0 x.lp + flag 1 b.1 + flag 2 s.selfcalOn + flag 3 s.hcHeld + flag 4 (x.conv.any Conv.isUrgent)
    + fld 5 5 b.2 + fld 10 4 (s.runningSeq.elim 0 Prod.fst) + fld 15 12 x.owTh

/-- A sequence's registers (R378). -/
def HcSeq.regs (x : HcSeq) (o : Nat) : Nat :=
  let ch (i : Nat) : Nat := nth x.steps i % 32
  match o with
  | 0 => flag 0 x.en + flag 1 x.thread + fld 2 2 x.pin + fld 4 2 x.edge + fld 6 3 (x.steps.length - 1) + fld 16 16 x.delay
  | 4 => ch 0 + fld 8 5 (ch 1) + fld 16 5 (ch 2) + fld 24 5 (ch 3)
  | 8 => ch 4 + fld 8 5 (ch 5) + fld 16 5 (ch 6) + fld 24 5 (ch 7)
  | 12 => fld 0 16 x.runs + fld 16 16 x.lost
  | _ => 0

/-- HC_CHn; channels 28 to 31 are claimed by CAL_RUN from its first run on (R366, R378). -/
def State.chanWord (n : Nat) (s : State) : Nat :=
  let x := s.chan n
  let cal := inRange 28 n 31 && (s.trim.cal.isSome || !s.trim.holdPwr)
  flag 0 (x.claimed || cal) + fld 1 4 x.seq + fld 5 3 x.opt.ext + fld 8 2 x.opt.ow + fld 10 2 x.opt.pullI
    + flag 12 x.opt.pullDown + flag 13 (x.winEn && decide (n ≤ 15)) + fld 16 8 (if cal then Op.calRun else x.holder)

/-- A register of the HC block. -/
def State.hcValue (o : Nat) (s : State) : Nat :=
  let x := s.hc
  match o with
  | 0x000 => s.hcCtrl
  | 0x004 => x.data.word
  | 0x008 => x.data.frozenWp.getD x.data.wp % 2 ^ 32
  | 0x00C => fld 0 16 x.ovr + fld 16 16 x.abort
  | 0x010 => x.owStat.toNat
  | 0x014 => x.wout.toNat
  | _ =>
    if inRange 0x018 o 0x037 then
      let m := (o - 0x018) / 4
      fld 0 16 (tget (fun _ => 0) x.wcnt (2 * m)) + fld 16 16 (tget (fun _ => 0) x.wcnt (2 * m + 1))
    else if inRange 0x040 o 0x077 then sfld 0 16 (x.fact.getD ((o - 0x040) / 4) 0)
    else if inRange 0x080 o 0x17F then (s.hseq ((o - 0x080) / 16)).regs (o % 16)
    else if inRange 0x180 o 0x1FF then s.chanWord ((o - 0x180) / 4)
    else if inRange 0x200 o 0x23F then
      let c := s.chan ((o - 0x200) / 4)
      fld 0 12 c.lo + fld 16 12 c.hi
    else 0

/-- What a read of an HC register clears (R371, R378). -/
def State.hcClear (o : Nat) (s : State) : State :=
  let x := s.hc
  match o with
  | 0x004 => s.readHcData.2
  | 0x008 => s.readHcWp.2
  | 0x00C => { s with hc := { x with ovr := 0, abort := 0 } }
  | _ =>
    if inRange 0x018 o 0x037 then
      let m := (o - 0x018) / 4
      { s with hc := { x with wcnt := tset (fun _ => 0) (2 * m) 0 (tset (fun _ => 0) (2 * m + 1) 0 x.wcnt) } }
    else if inRange 0x080 o 0x17F && o % 16 == 12 then
      s.modHseq ((o - 0x080) / 16) fun q => { q with runs := 0, lost := 0 }
    else s

/-- A write to the HC block: HC_WOUT's bits. -/
def State.hcPut (o v : Nat) (s : State) : State :=
  if o = 0x014 then { s with hc := { s.hc with wout := s.hc.wout &&& ~~~(BitVec.ofNat 16 v) } } else s

/-! ## TRIM -/

/-- The K that the next seal will take: that of a programming, or what the sums so far give where it is plausible
(R341, R354, R355). -/
def Bobbin.nextK (b : Bobbin) : Nat :=
  match b.pendK, b.measuredK with
  | some k, _ => k
  | none, some k => if b.plausibleK k then k else 0
  | none, none => 0

/-- The bobbin that TRIM_SEL shows. -/
def State.trimShown (s : State) : Bobbin := s.bobbin (s.trim.sel / 17) (s.trim.sel % 17)

/-- K in force on a bobbin: that of the epoch its newest sheet runs on, 0 before it has one (R355, R359). -/
def Bobbin.kShown (x : Trim) (b : Bobbin) : Nat :=
  if b.kNow.isNone then 0 else (b.set ((b.live.head?.map Prod.snd).getD x.epoch)).k

/-- TRIM_CTRL. -/
def State.trimCtrl (s : State) : Nat :=
  let x := s.trim
  flag 0 x.cal.isSome + flag 1 x.calDone + flag 2 x.verdict + flag 3 x.restored + flag 4 s.trimOpen + flag 5 s.hcHeld
    + flag 6 x.sealHeld

/-- A register of the TRIM block. -/
def State.trimValue (o : Nat) (s : State) : Nat :=
  let x := s.trim
  match o with
  | 0x000 => s.trimCtrl
  | 0x004 => fld 0 16 x.sealMs + fld 16 9 x.driftTh + fld 25 7 x.grpTh
  | 0x008 => x.epoch % 2 ^ 32
  | 0x00C => fld 0 16 x.bindSheet + flag 16 x.bound
  | 0x010 => x.kept % 2 ^ 32
  | 0x014 => x.failBb % 2 ^ 10
  | 0x018 => x.calUs % 2 ^ 18
  | 0x01C => x.calPasses % 2 ^ 32
  | 0x020 => sfld 0 16 x.refDev
  | 0x040 => x.sel % 2 ^ 10
  | 0x044 => fld 0 16 (s.trimShown.kShown s.trim) + fld 16 16 s.trimShown.nextK
  | 0x048 => fld 0 16 s.trimShown.drift + fld 16 8 s.trimShown.grpDev + fld 24 2 s.trimShown.strikeMax
  | 0x04C => s.trimShown.progCount % 2 ^ 32
  | _ => 0

/-- What a read of a TRIM register clears. -/
def State.trimClear (o : Nat) (s : State) : State :=
  match o with
  | 0x010 => { s with trim := { s.trim with kept := 0 } }
  | 0x01C => { s with trim := { s.trim with calPasses := 0 } }
  | _ => s

/-- A field after a write of v: unchanged outside its range. -/
def ranged (lo v hi old : Nat) : Nat := if inRange lo v hi then v else old

/-- A write to the TRIM block. -/
def State.trimPut (o v : Nat) (s : State) : State :=
  let x := s.trim
  match o with
  | 0x004 => { s with trim := { x with
      sealMs := ranged 100 (bitsOf 0 16 v) 60_000 x.sealMs
      driftTh := ranged 16 (bitsOf 16 9 v) 511 x.driftTh
      grpTh := ranged 10 (bitsOf 25 7 v) 100 x.grpTh } }
  | 0x040 => { s with trim := { x with sel := ranged 0 (bitsOf 0 10 v) 815 x.sel } }
  | _ => s

end Sys2Proof.Machine
end

