-- ==== Sys2Proof/Machine/RegsBack.lean ====
section
/-! DEFINITION. The register maps of the blocks NET (R306), MEM (R227, R260, R338), SQ (R276, R497) and SEC (R484,
R513, R528). -/

namespace Sys2Proof.Machine

/-! ## NET -/

/-- A port's registers (R306). -/
def Port.regs (x : Port) (o : Nat) : Nat :=
  match o with
  | 0x00 => flag 0 x.en + flag 1 x.fast + fld 2 2 x.fec
  | 0x04 => flag 0 x.link + flag 1 x.linkLost + flag 2 x.hiBer + fld 16 16 x.downs
  | 0x08 => x.rxf % 2 ^ 32
  | 0x0C => x.rxd % 2 ^ 32
  | 0x10 => x.dup % 2 ^ 32
  | 0x14 => x.txf % 2 ^ 32
  | 0x18 => fld 0 16 x.fecCorr + fld 16 16 x.fecUncorr
  | _ => 0

/-- What a read of a port's register clears. -/
def Port.cleared (o : Nat) (x : Port) : Port :=
  match o with
  | 0x04 => { x with downs := 0 }
  | 0x08 => { x with rxf := 0 }
  | 0x0C => { x with rxd := 0 }
  | 0x10 => { x with dup := 0 }
  | 0x14 => { x with txf := 0 }
  | 0x18 => { x with fecCorr := 0, fecUncorr := 0 }
  | _ => x

/-- A stream's registers (R306). -/
def Stream.regs (x : Stream) (o : Nat) : Nat :=
  match o with
  | 0x00 => fld 0 5 x.primary + fld 5 5 (x.secondary.getD 0x1F) + flag 10 x.bound + fld 11 1 x.pixfmt + fld 16 8 x.camera
  | 0x04 => x.origin % 2 ^ 32
  | 0x08 => bitsOf 32 16 x.origin
  | 0x0C => x.udp % 2 ^ 16
  | 0x10 => x.late % 2 ^ 32
  | 0x14 => x.missing % 2 ^ 32
  | 0x18 => x.badHdr % 2 ^ 32
  | 0x1C => x.skew % 2 ^ 32
  | _ => 0

/-- What a read of a stream's register clears. -/
def Stream.cleared (o : Nat) (x : Stream) : Stream :=
  match o with
  | 0x10 => { x with late := 0 }
  | 0x14 => { x with missing := 0 }
  | 0x18 => { x with badHdr := 0 }
  | 0x1C => { x with skew := 0 }
  | _ => x

/-- A service port's EQ registers at PTP time t (R306). -/
def Service.regs (t : Int) (x : Service) (o : Nat) : Nat :=
  let l := x.listAt t
  match o with
  | 0x00 =>
    flag 0 l.en + fld 1 8 (l.entries.length - 1) + flag 9 (x.pendingList.any fun g => decide (t < (g.base : Int)))
      + fld 16 5 x.maxRecs
  | 0x04 => l.cycle % 2 ^ 32
  | 0x08 => (l.mask t).toNat + fld 8 8 (if l.en then (l.entry t).1 else 0)
  | 0x0C => x.seq % 2 ^ 32
  | 0x10 => x.buf.length % 2 ^ 13
  | 0x14 => x.drop % 2 ^ 32
  | 0x18 => x.raster.elim 0 BitVec.toNat
  | 0x1C => x.rbytes % 2 ^ 32
  | 0x20 => x.rshort % 2 ^ 32
  | 0x24 => x.rbad % 2 ^ 32
  | _ => 0

/-- What a read of an EQ register clears. -/
def Service.cleared (o : Nat) (x : Service) : Service :=
  match o with
  | 0x14 => { x with drop := 0 }
  | 0x20 => { x with rshort := 0 }
  | 0x24 => { x with rbad := 0 }
  | _ => x

/-- PTP_OFS: PTP time minus device time (R21, R306). -/
def State.ptpOfs (s : State) : Nat := ofSigned 64 (s.ptpAt s.now - (s.now : Int))

/-- A register of the NET block. PTP_GM_LO is the low word of the grandmaster's clockIdentity taken as a big-endian
number, its first octet highest, and PTP_GM_HI the high word (DESIGN CHOICE, assumption 118). -/
def State.netValue (o : Nat) (s : State) : Nat :=
  match o with
  | 0x600 => fld 0 2 (s.ptpPort 0).state + fld 2 2 (s.ptpPort 1).state + flag 4 s.ptp.lock + fld 8 8 (s.service 0).domain
  | 0x604 => s.ptpOfs % 2 ^ 32
  | 0x608 => s.ptpOfs / 2 ^ 32
  | 0x60C => sfld 0 32 s.ptp.ratio
  | 0x610 => s.ptp.gm.toNat % 2 ^ 32
  | 0x614 => s.ptp.gm.toNat / 2 ^ 32
  | 0x618 => s.ptp.mpd % 2 ^ 32
  | _ =>
    if o < 0x240 then (s.port (o / 0x20)).regs (o % 0x20)
    else if inRange 0x300 o 0x4FF then (s.stream ((o - 0x300) / 0x20)).regs (o % 0x20)
    else if inRange 0x700 o 0x77F then (s.service ((o - 0x700) / 0x40)).regs (s.ptpAt s.now) (o % 0x40)
    else 0

/-- What a read of a NET register clears. -/
def State.netClear (o : Nat) (s : State) : State :=
  if o < 0x240 then s.modPort (o / 0x20) (Port.cleared (o % 0x20))
  else if inRange 0x300 o 0x4FF then s.modStream ((o - 0x300) / 0x20) (Stream.cleared (o % 0x20))
  else if inRange 0x700 o 0x77F then s.modService ((o - 0x700) / 0x40) (Service.cleared (o % 0x40))
  else s

/-- A write to the NET block: NP_STAT.LINK_LOST. -/
def State.netPut (o v : Nat) (s : State) : State :=
  if o < 0x240 ∧ o % 0x20 = 0x04 then
    s.modPort (o / 0x20) fun x => { x with linkLost := w1c v 1 x.linkLost }
  else s

/-! ## MEM -/

/-- MEM_MARCH. -/
def MemSys.marchWord (x : MemSys) : Nat :=
  flag 0 x.march.isSome + flag 1 x.marchFail + fld 2 1 x.marchForm + fld 3 8 x.marchTarget + fld 16 16 x.marchFails

/-- An ECC register: its CE and UE counts. -/
def MemSys.eccWord (k : Nat) (x : MemSys) : Nat :=
  fld 0 16 (tget (fun _ => 0) x.eccCe k) + fld 16 16 (tget (fun _ => 0) x.eccUe k)

/-- Clears both counts of an ECC register. -/
def MemSys.eccClear (k : Nat) (x : MemSys) : MemSys :=
  { x with eccCe := tset (fun _ => 0) k 0 x.eccCe, eccUe := tset (fun _ => 0) k 0 x.eccUe }

/-- The ECC registers' places and keys: ground buffer, context store, firmware memory, HBM stacks 0 and 1. -/
def eccKey (o : Nat) : Option Nat :=
  match o with
  | 0x024 => some 2
  | 0x028 => some 3
  | 0x02C => some 4
  | 0x030 => some 5
  | 0x034 => some 6
  | _ => none

/-- The lowest line of stream n that a patch still holds; NEXT where none is held (R214, R227). -/
def State.oldestLine (n : Nat) (s : State) : Nat :=
  let x := s.stream n
  ((x.landed.filter fun l => s.lineHeld n l.1).map Prod.fst).foldl min x.next

/-- A ground window's registers (R227). -/
def Stream.gwRegs (x : Stream) (o : Nat) : Nat :=
  match o with
  | 0 => x.base % 2 ^ 25
  | 4 => fld 0 16 x.pitch + fld 16 11 x.depth
  | 8 => flag 0 x.claimed + fld 8 8 x.holder
  | 12 => x.overrun % 2 ^ 16
  | _ => 0

/-- The slots that serve from a bundle or change to it (R338). -/
def State.bundleUsers (n : Nat) (s : State) : Nat :=
  (indices 64 fun k =>
    let x := s.slot k
    x.state != 0 && x.state != 6 && (x.handle == n || x.next == some n)).length

/-- A bundle's registers (R338). -/
def State.bundleRegs (n o : Nat) (s : State) : Nat :=
  let b := s.bundle n
  match o with
  | 0 => fld 0 3 b.state + fld 8 8 (s.bundleUsers n) + fld 16 16 b.model
  | 4 => fld 0 14 b.shards + fld 16 14 b.verified.length
  | 8 => b.id.toNat % 2 ^ 32
  | 12 => b.id.toNat / 2 ^ 32
  | _ => 0

/-- A slot's registers (R338). -/
def Slot.regs (x : Slot) (o : Nat) : Nat :=
  match o with
  | 0 => fld 0 3 x.state + fld 4 4 x.handle + fld 8 4 (x.next.getD 0) + flag 12 x.next.isSome + fld 16 16 x.model
  | 4 => x.sheet % 2 ^ 16
  | _ => 0

/-- A register of the MEM block. -/
def State.memValue (o : Nat) (s : State) : Nat :=
  let x := s.ms
  match o with
  | 0x000 => x.marchWord
  | 0x004 => x.marchAddr / 64 % 2 ^ 32
  | 0x020 => fld 0 16 x.gbWcoll + fld 16 4 x.gbPorts.toNat
  | 0x038 => fld 0 16 (tget (fun _ => 0) x.hbmDie 0) + fld 16 16 (tget (fun _ => 0) x.hbmDie 1)
  | 0x03C => fld 0 8 x.hbmH + fld 8 16 x.sramMs
  | 0x040 => fld 0 16 s.scrubTime.ms.hbmPasses + fld 16 16 s.scrubTime.ms.sramPasses
  | 0x044 => fld 0 8 x.csCols + fld 8 8 x.fwCols
  | 0x300 => x.faultWait % 2 ^ 14
  | 0x304 => x.poolFree % 2 ^ 16
  | 0x308 => x.mirror % 2 ^ 32
  | 0x400 => fld 0 16 s.wt.shardTo + fld 16 11 s.wt.redigest
  | 0x404 => s.wt.ageH % 2 ^ 8
  | 0x408 =>
    fld 0 14 s.unitsFree.length
      + flag 14 ((s.bulk.xfer.any Xfer.isShard) || s.bulk.bar.any Xfer.isShard) + fld 16 16 s.wt.passes
  | 0x40C => s.wt.staleCnt % 2 ^ 32
  | 0x410 => s.wt.retry % 2 ^ 32
  | _ =>
    match eccKey o with
    | some k => x.eccWord k
    | none =>
      if inRange 0x010 o 0x01F then tget (fun _ => 0) x.gbBcw ((o - 0x010) / 4) % 2 ^ 32
      else if inRange 0x100 o 0x1FF then (s.stream ((o - 0x100) / 16)).gwRegs (o % 16)
      else if inRange 0x200 o 0x27F then
        let n := (o - 0x200) / 8
        (if o % 8 = 0 then s.oldestLine n else (s.stream n).next) % 2 ^ 32
      else if inRange 0x500 o 0x5FF then s.bundleRegs ((o - 0x500) / 16) (o % 16)
      else if inRange 0x600 o 0x7FF then (s.slot ((o - 0x600) / 8)).regs (o % 8)
      else 0

/-- What a read of a MEM register clears. -/
def State.memClearReg (o : Nat) (s : State) : State :=
  let x := s.ms
  match o with
  | 0x020 => { s with ms := { x with gbWcoll := 0 } }
  | 0x038 => { s with ms := { x with hbmDie := [] } }
  | 0x040 => s.scrubTime
  | 0x308 => { s with ms := { x with mirror := 0 } }
  | 0x40C => { s with wt := { s.wt with staleCnt := 0 } }
  | 0x410 => { s with wt := { s.wt with retry := 0 } }
  | _ =>
    match eccKey o with
    | some k => { s with ms := x.eccClear k }
    | none =>
      if inRange 0x010 o 0x01F then { s with ms := { x with gbBcw := tset (fun _ => 0) ((o - 0x010) / 4) 0 x.gbBcw } }
      else if inRange 0x100 o 0x1FF && o % 16 == 12 then s.modStream ((o - 0x100) / 16) fun y => { y with overrun := 0 }
      else s

/-- A write to the MEM block. -/
def State.memPut (o v : Nat) (s : State) : State :=
  match o with
  | 0x020 => { s with ms := { s.ms with gbPorts := s.ms.gbPorts &&& ~~~(BitVec.ofNat 4 (v / 2 ^ 16)) } }
  | 0x03C =>
    let s := s.scrubTime
    { s with ms := { s.ms with
      hbmH := ranged 1 (bitsOf 0 8 v) 168 s.ms.hbmH
      sramMs := ranged 100 (bitsOf 8 16 v) 60_000 s.ms.sramMs } }
  | 0x300 => { s with ms := { s.ms with faultWait := ranged 0 (bitsOf 0 14 v) 10_000 s.ms.faultWait } }
  | 0x400 => { s with wt := { s.wt with
      shardTo := ranged 10 (bitsOf 0 16 v) 60_000 s.wt.shardTo
      redigest := ranged 1 (bitsOf 16 11 v) 1_440 s.wt.redigest } }
  | 0x404 => { s with wt := { s.wt with ageH := ranged 0 (bitsOf 0 8 v) 168 s.wt.ageH } }
  | _ => s

/-! ## SQ -/

/-- A queue's registers (R276). -/
def Queue.regs (q : Nat) (x : Queue) (o : Nat) : Nat :=
  match o with
  | 0x00 => flag 0 x.flush + fld 1 7 (queueCap q)
  | 0x04 =>
    fld 0 7 x.items + fld 7 7 x.packets + flag 14 x.part.isSome + flag 15 x.wpart.isSome
      + fld 16 8 (x.wpart.elim 0 fun y => y.1.writer)
  | 0x08 => flag 0 x.underrun + flag 1 x.fullSeen + fld 16 16 x.dropped
  | 0x0C => fld 0 16 x.ce + fld 16 16 x.ue
  | _ => 0

/-- The error window at 0x800 (R276). -/
def ErrWindow.regs (x : ErrWindow) (o : Nat) : Nat :=
  match o with
  | 0x800 => fld 0 5 x.cls + fld 5 3 x.sev + flag 8 x.lost + flag 9 x.valid + fld 16 16 x.count
  | 0x804 => x.time % 2 ^ 32
  | 0x808 => bitsOf 32 32 x.time
  | _ => numAt (o - 0x80C) 4 x.detail

/-- The 32 latches' bits of one kind. -/
def State.latchBits (f : Latch → Bool) (s : State) : Nat := ((List.range 32).map fun c => flag c (f (s.latch c))).sum

/-- Whether instances of a template would be released without a pillow they need (R494). -/
def State.templateLost (t : Template) (s : State) : Bool :=
  let p := (s.prick t.p.prk).getD emptyPrick
  (List.range t.p.instances).any fun i => (p.pillowsOf [s.mapNow t.p p i]).any (s.pillowLost p)

/-- Whether slot n has withdrawn contexts: a job of it whose guarantee is withdrawn, or a template of it whose
instances are released so (R494, R497). -/
def State.slotWithdrawn (n : Nat) (s : State) : Bool :=
  (s.liveJobs.any fun (_, j) => j.pinned && j.withdrawn && (s.prkOf j).slots.contains n)
    || s.admitted.any fun (_, t) => ((s.prick t.p.prk).getD emptyPrick).slots.contains n && s.templateLost t

/-- FR_STATE. -/
def State.frState (s : State) : Nat :=
  let m := s.mgmt
  fld 0 3 m.devState + fld 3 3 m.prior + flag 6 s.nfault + fld 7 4 m.cores.toNat + flag 11 m.standby + fld 16 3 m.fatal

/-- A register of the SQ block. -/
def State.sqValue (o : Nat) (s : State) : Nat :=
  let m := s.mgmt
  match o with
  | 0x904 => s.latchBits Latch.held
  | 0x908 => s.latchBits Latch.lost
  | 0xA00 => s.frState
  | 0xA08 => m.nfSev % 8
  | 0xA0C => m.covered % 2 ^ 32
  | 0xA10 => m.maxInt % 2 ^ 32
  | 0xA14 => m.recomp % 2 ^ 32
  | 0xA18 => m.withdrawn % 2 ^ 32
  | 0xA1C => m.pilOut.toNat % 2 ^ 32
  | 0xA20 => m.pilOut.toNat / 2 ^ 32
  | 0xA24 => ((List.range 32).map fun k => flag k (s.slotWithdrawn k)).sum
  | 0xA28 => ((List.range 32).map fun k => flag k (s.slotWithdrawn (32 + k))).sum
  | _ =>
    if o < 0x660 then (s.queue (o / 0x20)).regs (o / 0x20) (o % 0x20)
    else if inRange 0x800 o 0x8FF then s.errw.regs o
    else 0

/-- What a read of an SQ register clears. -/
def State.sqClear (o : Nat) (s : State) : State :=
  let m := s.mgmt
  match o with
  | 0xA0C => { s with mgmt := { m with covered := 0 } }
  | 0xA10 => { s with mgmt := { m with maxInt := 0 } }
  | 0xA14 => { s with mgmt := { m with recomp := 0 } }
  | 0xA18 => { s with mgmt := { m with withdrawn := 0 } }
  | _ =>
    if o < 0x660 ∧ o % 0x20 = 0x08 then s.modQueue (o / 0x20) fun x => { x with dropped := 0 }
    else if o < 0x660 ∧ o % 0x20 = 0x0C then s.modQueue (o / 0x20) fun x => { x with ce := 0, ue := 0 }
    else s

/-- A write to the SQ block: the W1C bits, POP, ENTER and LEAVE, NF_SEV (R276, R497). -/
def State.sqPut (o v : Nat) (s : State) : State :=
  match o with
  | 0x900 => if bitOf 0 v then s.errPop .clean else s
  | 0xA04 =>
    let s := if bitOf 0 v then s.enterRecovery 1 else s
    if bitOf 1 v then s.leaveRecovery else s
  | 0xA08 => { s with mgmt := { s.mgmt with nfSev := v % 8 } }
  | _ =>
    if o < 0x660 ∧ o % 0x20 = 0x08 then
      s.modQueue (o / 0x20) fun x => { x with underrun := w1c v 0 x.underrun, fullSeen := w1c v 1 x.fullSeen }
    else s

/-! ## SEC -/

/-- SEC_LOCK. -/
def State.secLock (s : State) : Nat :=
  fld 0 2 s.sec.lock + flag 2 s.debugOpen + flag 3 s.sec.scanPins + flag 4 s.sec.scanRefused

/-- SEC_FLOOR. -/
def Security.floorWord (x : Security) : Nat :=
  fld 0 7 x.floor + flag 7 x.fusePend + fld 8 7 x.runRb + fld 16 4 x.revFw.toNat + fld 20 8 x.revBn.toNat

/-- The power and reset registers (R484). -/
def Power.regs (x : Power) (o : Nat) : Nat :=
  match o with
  | 0x800 => flag 0 x.causePin + flag 1 x.causeDev + flag 2 x.causeWd + flag 3 x.causeTh
  | 0x804 =>
    flag 0 x.pwrgd + flag 1 x.pwrgdLost + fld 2 2 x.bootFrom + fld 4 4 x.bootErr + flag 8 x.qspi4b
      + fld 9 2 x.qspiWidth
  | 0x808 => x.bootUs % 2 ^ 32
  | 0x80C => x.initUs % 2 ^ 32
  | 0x810 => fld 0 9 x.reqDomain + flag 9 x.reqUngate
  | 0x814 => fld 0 9 x.resDomain + flag 9 x.switching.isSome + flag 10 x.refused + fld 11 4 x.reason
  | _ => if inRange 0x820 o 0x847 then bitsOf (32 * ((o - 0x820) / 4)) 32 x.on.toNat else 0

/-- The thermal registers (R528); temperatures of the die in 0.1 °C. -/
def Thermal.regs (x : Thermal) (o : Nat) : Nat :=
  match o with
  | 0x910 => sfld 0 8 (x.hbm.getD 0 0) + sfld 8 8 (x.hbm.getD 1 0)
  | 0x914 => fld 0 2 x.step + fld 2 3 x.source + fld 16 16 x.rises
  | 0x918 => x.margin % 16
  | 0x91C => x.ms % 2 ^ 32
  | _ =>
    if inRange 0x900 o 0x90F then
      let n := (o - 0x900) / 4
      sfld 0 16 (x.die.getD n 0) + sfld 16 16 (x.dieMax.getD n 0)
    else 0

/-- A register of the SEC block. -/
def State.secValue (o : Nat) (s : State) : Nat :=
  let x := s.sec
  match o with
  | 0x000 => x.device.toNat % 2 ^ 32
  | 0x004 => x.device.toNat / 2 ^ 32
  | 0x008 => s.secLock
  | 0x00C => x.floorWord
  | 0x010 => x.upd % 8
  | 0x01C => fld 0 16 x.sigFail + fld 16 16 x.rollback
  | _ =>
    if inRange 0x800 o 0x84B then s.power.regs o
    else if inRange 0x900 o 0x91F then s.stepTime.therm.regs o
    else 0

/-- What a read of an SEC register clears; a maximum starts anew at its reset value (R528). -/
def State.secClear (o : Nat) (s : State) : State :=
  match o with
  | 0x01C => { s with sec := { s.sec with sigFail := 0, rollback := 0 } }
  | 0x914 => { s with therm := { s.therm with rises := 0 } }
  | 0x91C =>
    let s := s.stepTime
    { s with therm := { s.therm with ms := 0 } }
  | _ =>
    if inRange 0x900 o 0x90F then
      { s with therm := { s.therm with dieMax := setNth s.therm.dieMax ((o - 0x900) / 4) (-32768) } }
    else s

/-- A write of PWR_REQ: DOMAIN and UNGATE are set, and GO makes the request (R474, R484). -/
def State.pwrReqPut (v : Nat) (s : State) : State :=
  if bitOf 10 v then s.powerRequest (bitsOf 0 9 v) (bitOf 9 v)
  else { s with power := { s.power with reqDomain := bitsOf 0 9 v, reqUngate := bitOf 9 v } }

/-- A write to the SEC block; SEC_OP's operation has passed the checks of R511. -/
def State.secPut (o v : Nat) (s : State) : State :=
  let x := s.power
  match o with
  | 0x018 => s.secOp (bitsOf 0 2 v) (BitVec.ofNat 8 (v / 256))
  | 0x800 => { s with power := { x with
      causeDev := w1c v 1 x.causeDev, causeWd := w1c v 2 x.causeWd, causeTh := w1c v 3 x.causeTh } }
  | 0x804 => { s with power := { x with pwrgdLost := w1c v 1 x.pwrgdLost } }
  | 0x810 => s.pwrReqPut v
  | 0x814 => { s with power := { x with refused := w1c v 10 x.refused } }
  | 0x918 => { s with therm := { s.therm with margin := v % 16 } }
  | _ => s

end Sys2Proof.Machine
end

