-- ==== Sys2Proof/Machine/Tatting.lean ====
section
/-! DEFINITION. The tatting unit (R187 to R199): its kernels, one instruction at a time. -/

namespace Sys2Proof.Machine

/-! ## Arithmetic of the vector engine (R188, R189) -/

/-- Adds a count of replacements to a value. -/
def Counted.more (n : Nat) (c : Counted) : Counted := (c.1, c.2 + n)

/-- A binary32 word of the state's tables. -/
def f32OfBits (v : Int) : BitVec 32 := BitVec.ofNat 32 v.toNat

/-- The state's form of a binary32 word. -/
def bitsOfF32 (w : BitVec 32) : Int := (w.toNat : Int)

/-- An element in binary32, a bfloat16 screened (R188). -/
def tatValue (fmt v : Nat) : Counted :=
  if fmt = 2 then let (w, b) := bf16Screen v; (bf16ToF32 w, if b then 1 else 0)
  else (f32OfInt (rawInt fmt v), 0)

/-- One step on two values, screened (R137, R188). -/
def step2 (f : BitVec 32 → BitVec 32 → BitVec 32) (a b : Counted) : Counted :=
  Counted.more b.2 (a.take (f a.1 b.1))

/-- The larger of two finite words. -/
def f32Larger (a b : BitVec 32) : BitVec 32 := if f32Lt a b then b else a

/-- Joins neighbours of a list. -/
def pairUp {α : Type} (f : α → α → α) : List α → List α
  | a :: b :: r => f a b :: pairUp f r
  | l => l

/-- The balanced pairwise tree over the lanes (R113, R189). -/
def laneTree (f : BitVec 32 → BitVec 32 → BitVec 32) (l : List Counted) : Counted :=
  ((List.range 6).foldl (fun l _ => pairUp (step2 f) l) l).headD (0, 0)

/-- The absolute value of a binary32 word. -/
def f32Abs (w : BitVec 32) : BitVec 32 := w &&& 0x7FFF_FFFF

/-! ## Kernels of one element (R192) -/

/-- COPY, ADD, MUL and ABSDIFF on one element, before P. Integer results are exact and converted once. -/
def pointKernel (k fmt a e : Nat) : Counted :=
  if k = 0 then tatValue fmt a
  else if fmt = 2 then
    let x := tatValue fmt a
    let y := tatValue fmt e
    if k = 1 then step2 f32Add x y
    else if k = 2 then step2 f32Mul x y
    else let d := step2 f32Sub x y; (f32Abs d.1, d.2)
  else
    let x := rawInt fmt a
    let y := rawInt fmt e
    (f32OfInt (if k = 1 then x + y else if k = 2 then x * y else ((x - y).natAbs : Int)), 0)

/-- P × a value. -/
def timesP (p : BitVec 32) (x : Counted) : Counted := x.take (f32Mul p x.1)

/-! ## VecLanes -/

/-- The lanes after a piece: what a kernel keeps of it, and the replacements made. -/
structure VecLanes where
  acc : Tbl Int
  bad : Nat
  deriving DecidableEq, Repr

/-- Lane l of accumulator h as a word. -/
def vecLane (acc : Tbl Int) (h l : Nat) : BitVec 32 := f32OfBits (tget (fun _ => 0) acc (64 * h + l))

/-- Lane l of accumulator h takes a word. -/
def putLane (h l : Nat) (w : BitVec 32) (acc : Tbl Int) : Tbl Int :=
  tset (fun _ => 0) (64 * h + l) (bitsOfF32 w) acc

/-- Accumulator h of each lane takes its value of a piece by f; the first piece of all sets it where `fresh`. -/
def accumulate (h : Nat) (fresh : Bool) (f : BitVec 32 → BitVec 32 → BitVec 32) (xs : List Counted)
    (a : VecLanes) : VecLanes :=
  xs.zipIdx.foldl (fun a (x, l) =>
    let y : Counted := if fresh then x else x.take (f (vecLane a.acc h l) x.1)
    { acc := putLane h l y.1 a.acc, bad := a.bad + y.2 }) a

/-- The tree over the first n lanes of accumulator h. -/
def laneTotal (h n : Nat) (f : BitVec 32 → BitVec 32 → BitVec 32) (acc : Tbl Int) : Counted :=
  laneTree f ((List.range n).map fun l => (vecLane acc h l, 0))

/-- The same on exact integers (R195). -/
def accumulateInt (fresh : Bool) (f : Int → Int → Int) (xs : List Int) (acc : Tbl Int) : Tbl Int :=
  xs.zipIdx.foldl (fun a (x, l) =>
    tset (fun _ => 0) l (if fresh then x else f (tget (fun _ => 0) a l) x) a) acc

/-! ## Kernels over a token (R193, R195) -/

/-- What an instruction leaves: the lanes, the token scalars, the values it writes and the replacements that
belong to none of them. -/
structure Instruction where
  acc : Tbl Int
  scal : List Int
  out : List Counted
  bad : Nat
  deriving DecidableEq, Repr

/-- A scalar of the token. -/
def scalar (l : List Int) (i : Nat) : BitVec 32 := f32OfBits (l.getD i 0)

/-- The first read of the NORM kernels: Σx and Σx²; at its end μ and v. -/
def normFirst (layer last : Bool) (len : Nat) (xs : List Counted) (acc : Tbl Int) : Instruction :=
  let clean := xs.map fun x => ((x.1, 0) : Counted)
  let a : VecLanes := { acc := acc, bad := (xs.map Prod.snd).sum }
  let a := if layer then accumulate 0 false f32Add clean a else a
  let a := accumulate 1 false f32Add (clean.map fun x => Counted.take x (f32Mul x.1 x.1)) a
  if !last then { acc := a.acc, scal := [], out := [], bad := a.bad }
  else
    let n := f32OfInt (len : Int)
    let s1 := laneTotal 0 64 f32Add a.acc
    let s2 := laneTotal 1 64 f32Add a.acc
    let mu := s1.take (f32Div s1.1 n)
    let q := s2.take (f32Div s2.1 n)
    let m2 : Counted := Counted.take (0, 0) (f32Mul mu.1 mu.1)
    let d := step2 f32Sub q m2
    let v : Counted := if layer then (f32Larger 0 d.1, d.2) else q
    { acc := [], scal := [bitsOfF32 (if layer then mu.1 else 0), bitsOfF32 v.1], out := []
      bad := a.bad + (if layer then mu.2 else 0) + v.2 }

/-- The second read of the NORM kernels. The reciprocal root is the token's own: its replacement counts with
the first piece. -/
def normSecond (layer first : Bool) (eps : BitVec 32) (scal : List Int) (xs : List Counted)
    (gs bs : List Counted) : Instruction :=
  let t : Counted := Counted.take (0, 0) (f32Add (scalar scal 1) eps)
  let r := t.take (f32Rsqrt t.1)
  let out := (xs.zip (gs.zip bs)).map fun (x, g, b) =>
    let c : Counted := if layer then x.take (f32Sub x.1 (scalar scal 0)) else x
    let c := c.take (f32Mul c.1 r.1)
    let c := step2 f32Mul c g
    if layer then step2 f32Add c b else c
  { acc := [], scal := scal, out := out, bad := if first then r.2 else 0 }

/-- exp(x − m). -/
def expOf (m : BitVec 32) (x : Counted) : Counted :=
  let d := x.take (f32Sub x.1 m)
  d.take (f32Exp d.1)

/-- The three reads of SOFTMAX. -/
def softmaxRead (rd : Nat) (first last : Bool) (len : Nat) (acc : Tbl Int) (scal : List Int)
    (xs : List Counted) : Instruction :=
  if rd = 1 then
    let a := accumulate 0 first f32Larger xs { acc := acc, bad := 0 }
    if last then
      { acc := [], scal := [bitsOfF32 (laneTotal 0 (min 64 len) f32Larger a.acc).1, 0], out := [], bad := a.bad }
    else { acc := a.acc, scal := [], out := [], bad := a.bad }
  else if rd = 2 then
    let a := accumulate 0 false f32Add (xs.map (expOf (scalar scal 0))) { acc := acc, bad := 0 }
    if last then
      let s := laneTotal 0 64 f32Add a.acc
      { acc := [], scal := [scal.getD 0 0, bitsOfF32 s.1], out := [], bad := a.bad + s.2 }
    else { acc := a.acc, scal := scal, out := [], bad := a.bad }
  else
    let r : Counted := Counted.take (0, 0) (f32Recip (scalar scal 1))
    let out := xs.map fun x => let y := expOf (scalar scal 0) x; y.take (f32Mul y.1 r.1)
    { acc := [], scal := scal, out := out, bad := if first then r.2 else 0 }

/-- One tap of POOL_MAX, POOL_AVG or DW on integers. -/
def tapInt (k : Nat) (fresh last : Bool) (taps : Nat) (p : BitVec 32) (as es : List Int) (acc : Tbl Int) :
    Instruction :=
  let xs := if k = 9 then as.zipWith (· * ·) es else as
  let acc := accumulateInt fresh (if k = 7 then max else (· + ·)) xs acc
  if !last then { acc := acc, scal := [], out := [], bad := 0 }
  else
    let out := (List.range as.length).map fun l =>
      let y := timesP p (f32OfInt (tget (fun _ => 0) acc l), 0)
      if k = 8 then y.take (f32Div y.1 (f32OfInt (taps : Int))) else y
    { acc := [], scal := [], out := out, bad := 0 }

/-- One tap of POOL_MAX, POOL_AVG or DW on bfloat16. -/
def tapF32 (k : Nat) (fresh last : Bool) (taps : Nat) (p : BitVec 32) (as es : List Counted) (acc : Tbl Int) :
    Instruction :=
  let xs := if k = 9 then as.zipWith (step2 f32Mul) es else as
  let a := accumulate 0 fresh (if k = 7 then f32Larger else f32Add) xs { acc := acc, bad := 0 }
  if !last then { acc := a.acc, scal := [], out := [], bad := a.bad }
  else
    let out := (List.range as.length).map fun l =>
      let y := timesP p (vecLane a.acc 0 l, 0)
      if k = 8 then y.take (f32Div y.1 (f32OfInt (taps : Int))) else y
    { acc := [], scal := [], out := out, bad := a.bad }

/-! ## Pieces of a token -/

/-- The pieces of one read of a token: steps of 64 elements, or a tap of 64 channels (R195, R197). -/
def OpRec.tatPieces (o : OpRec) : Nat :=
  if inRange 7 o.arg 9 then ceilDiv o.tatC 64 * o.taps else ceilDiv o.tokLen 64

/-- The reads of a token. -/
def OpRec.tatReads (o : OpRec) : Nat := if o.arg = 4 ∨ o.arg = 5 then 2 else if o.arg = 6 then 3 else 1

/-- The first element of A that a piece takes, and how many. -/
def OpRec.tatPiece (o : OpRec) (i : Nat) : Nat × Nat :=
  if inRange 7 o.arg 9 then
    let b := i / max 1 o.taps
    (i % max 1 o.taps * o.tatC + 64 * b, min 64 (o.tatC - 64 * b))
  else (64 * i, min 64 (o.tokLen - 64 * i))

/-- The first element of the output that a piece writes. -/
def OpRec.tatOut (o : OpRec) (i : Nat) : Nat := if inRange 7 o.arg 9 then 64 * (i / max 1 o.taps) else 64 * i

/-- Reads elements [lo, lo + n) of a gathered token, at most `fuel` segments of them. -/
def readPiece (w : Work) (es : Nat) (idx : List Nat) (tok : Nat) : Nat → Nat → Nat → State → Access
  | 0, _, _, s => .ok [] s
  | fuel + 1, lo, n, s =>
    if n = 0 then .ok [] s
    else
      let g := lo / max 1 w.op.segLen
      let o := lo % max 1 w.op.segLen
      let k := min n (max 1 w.op.segLen - o)
      let (off, line) := w.segAddress idx tok g
      match s.readOpnd w 2 w.op.a (off + ((o * es : Nat) : Int)) line (k * es) with
      | .ok b s =>
        match readPiece w es idx tok fuel (lo + k) (n - k) s with
        | .ok c s => .ok (b ++ c) s
        | r => r
      | r => r

/-- Reads n elements of the E operand from element lo on (R157: E is not gathered). -/
def State.readE (w : Work) (es : Nat) (idx : List Nat) (tok lo n : Nat) (s : State) : Access :=
  let (off, line) := w.address w.op.e Level.strE idx tok
  s.readOpnd w 2 w.op.e (off + ((lo * es : Nat) : Int)) line (n * es)

/-- Runs a second read after a first one. -/
def Access.then (a : Access) (f : Bytes → State → Access) : Access :=
  match a with
  | .ok b s => f b s
  | r => r

/-- The bytes of E that a piece needs: none, one run, or γ and β (R192, R193). -/
def State.pieceE (w : Work) (es : Nat) (idx : List Nat) (tok lo n : Nat) (s : State) : Access :=
  let k := w.op.arg
  if inRange 1 k 3 ∨ k = 9 then s.readE w es idx tok lo n
  else if w.run.tatRead = 2 ∧ (k = 4 ∨ k = 5) then
    (s.readE w 2 idx tok lo n).then fun g s =>
      if k = 5 then .ok g s
      else (s.readE w 2 idx tok (w.op.tokLen + lo) n).then fun b s => .ok (g ++ b) s
  else .ok [] s

/-- The arithmetic of one vector instruction on the bytes it has read. -/
def vectorInstr (w : Work) (fmt n : Nat) (d : EDesc) (ab eb : Bytes) : Instruction :=
  let o := w.op
  let es := if fmt = 0 ∨ fmt = 3 then 1 else 2
  let k := o.arg
  let p := d.sElem
  let as := rawElems es n ab
  let i := w.run.tatPos
  let last := decide (o.tatPieces ≤ i + 1)
  let r := w.run
  if k ≤ 3 then
    let bs := rawElems es n eb
    { acc := [], scal := [], bad := 0
      out := as.zipIdx.map fun (a, j) => timesP p (pointKernel k fmt a (nth bs j)) }
  else if 7 ≤ k then
    let t := i % max 1 o.taps
    let fresh := t == 0
    let ends := decide (o.taps ≤ t + 1)
    if fmt = 2 then
      tapF32 k fresh ends o.taps p (as.map (tatValue 2)) ((rawElems es n eb).map (tatValue 2)) r.acc
    else tapInt k fresh ends o.taps p (as.map (rawInt fmt)) ((rawElems es n eb).map (rawInt fmt)) r.acc
  else
    -- a replaced input counts on the first read of it
    let xs := as.map fun a =>
      let v := tatValue fmt a
      timesP p (v.1, if r.tatRead = 1 then v.2 else 0)
    let xs := if r.tatRead = 1 then xs else xs.map fun x => ((x.1, 0) : Counted)
    if k = 6 then softmaxRead r.tatRead (i == 0) last o.tokLen r.acc r.scal xs
    else if r.tatRead = 1 then normFirst (k == 4) last o.tokLen xs r.acc
    else
      let gs := (rawElems 2 n eb).map (tatValue 2)
      let bs := if k = 4 then (rawElems 2 n (eb.drop (2 * n))).map (tatValue 2) else gs
      normSecond (k == 4) (i == 0) (BitVec.ofNat 32 d.colf) r.scal xs gs bs

/-! ## Outputs -/

/-- The activation table and the output format on one value (R191). -/
def tatOutput (d : EDesc) (act : Bytes) (y : Counted) : OutElem :=
  outStep d.outFmt d.sOut d.zOut (if bitOf 3 d.act then actStep act y else y)

/-- The figures of an instruction: outputs clamped, replacements, and the engine's time (R188, R191, R199).
Masked tokens count in the time alone. -/
def State.countTat (w : Work) (masked : Bool) (outs : List OutElem) (bad vec mat : Nat) (s : State) : State :=
  let sat := if masked then 0 else outs.countP OutElem.sat
  let nf := if masked then 0 else bad + (outs.map OutElem.bad).sum
  (s.modJob w.run.ctx fun j => (j.countClips 0 nf).countOutsat sat).modPillow w.p fun x =>
    { x with cnt := { x.cnt with
      ttVecNs := satAdd 0xFFFF_FFFF x.cnt.ttVecNs vec
      ttMatNs := satAdd 0xFFFF_FFFF x.cnt.ttMatNs mat
      ttOutsat := satAdd 0xFFFF_FFFF x.cnt.ttOutsat sat
      ttNonfin := satAdd 0xFFFF_FFFF x.cnt.ttNonfin nf } }

/-- A token or token tile is done: its lines land and are released, and the operation goes to the next one or
ends (R179, R156). -/
def State.tatNext (w : Work) (idx : List Nat) (tok : Nat) (nxt : Option (List Nat × Nat)) (s : State) : State :=
  let s := if w.op.arg ≤ 9 ∧ tok + 1 < w.tileToks then s
    else
      let i := w.nextIdx idx
      let s := (s.landAt w idx i).releaseAt w idx i
      if i.isNone then s.releaseE w else s
  match nxt with
  | some x => s.modRun w.p fun r => { r with next := some x, tatRead := 1, tatPos := 0, acc := [], scal := [] }
  | none => s.modRun w.p fun _ => w.nextOp

/-- The time that the first instruction of an operation adds (R192). -/
def Work.opTime (w : Work) (s : State) : Nat :=
  if w.run.tatPos = 0 ∧ w.run.tatRead = 1 ∧ w.run.next = (w.firstPos).map fun i => (i, 0) then 8 else 0

/-! ## One vector instruction -/

/-- The vector engine's instruction at a position: its bytes are read, and its values written where it is the
last read (R197). -/
def State.vectorStep (w : Work) (idx : List Nat) (tok : Nat) (s : State) : Access :=
  let q := w.prk.qdesc w.op.qdesc
  let d := s.edescOf w
  let i := w.run.tatPos
  let (lo, n) := w.op.tatPiece i
  (readPiece w q.esize idx tok 65 lo n s).then fun ab s =>
    (s.pieceE w q.esize idx tok lo n).then fun eb s =>
      let r := vectorInstr w q.inFmt n d ab eb
      let masked := w.maskedTok idx tok
      let outs := r.out.map (tatOutput d (s.actOf w d))
      let (off, line) := w.address w.op.o Level.strO idx tok
      let sp := if masked ∨ outs = [] then [] else [(w.op.tatOut i, outs.flatMap OutElem.bytes)]
      match s.writeSpans w 2 w.op.o off line d.outSize sp with
      | .ok _ s =>
        let lastPiece := decide (w.op.tatPieces ≤ i + 1)
        let ends := lastPiece && decide (w.op.tatReads ≤ w.run.tatRead)
        let extra := if !ends then 0 else if w.op.arg = 4 ∨ w.op.arg = 5 then 12 else if w.op.arg = 6 then 28 else 0
        let s := s.countTat w masked outs r.bad (1 + extra + w.opTime s) 0
        let s := if ends ∧ masked then
            s.modPillow w.p fun x => { x with cnt := { x.cnt with sqMasked := satAdd 0xFFFF_FFFF x.cnt.sqMasked 1 } }
          else s
        .ok [] (if ends then s.tatNext w idx tok (w.nextPos (idx, tok))
          else s.modRun w.p fun x =>
            { x with
              acc := r.acc, scal := r.scal
              tatRead := if lastPiece then x.tatRead + 1 else x.tatRead
              tatPos := if lastPiece then 0 else i + 1 })
      | x => x

/-! ## One matrix instruction (R194) -/

/-- Inner steps of 32 of a matrix tile. -/
def OpRec.inner (o : OpRec) : Nat := ceilDiv o.tokLen 32

/-- Reads n elements of each of the A tokens 0 to m − 1 from element lo on. -/
def readRows (w : Work) (idx : List Nat) (lo n : Nat) : Nat → State → Access
  | 0, s => .ok [] s
  | m + 1, s =>
    (readRows w idx lo n m s).then fun b s => (readPiece w 1 idx m 33 lo n s).then fun c s => .ok (b ++ c) s

/-- Reads n elements from element lo of each of the E tokens j to j + m − 1. -/
def readRowsE (w : Work) (idx : List Nat) (j lo n : Nat) : Nat → State → Access
  | 0, s => .ok [] s
  | m + 1, s =>
    (readRowsE w idx j lo n m s).then fun b s => (s.readE w 1 idx (j + m) lo n).then fun c s => .ok (b ++ c) s

/-- Adds the products of one inner step to the accumulators, 32 × row + column. -/
def matrixInstr (abt : Bool) (rows cols n : Nat) (ab eb : Bytes) (acc : Tbl Int) : Tbl Int :=
  let a (i t : Nat) : Int := intAt (i * n + t) 1 ab
  let e (j t : Nat) : Int := if abt then intAt (j * n + t) 1 eb else intAt (t * cols + j) 1 eb
  (List.range rows).foldl (fun acc i =>
    (List.range cols).foldl (fun acc j =>
      let v := ((List.range n).map fun t => a i t * e j t).sum
      tset (fun _ => 0) (32 * i + j) (tget (fun _ => 0) acc (32 * i + j) + v) acc) acc) acc

/-- The outputs of a finished tile, row by row with the rows' byte offsets; masked rows are not written. -/
def State.matrixOut (w : Work) (d : EDesc) (idx : List Nat) (ct cols : Nat) (acc : Tbl Int) (s : State) :
    List OutElem × List (Nat × Bytes) :=
  let rows := (List.range w.tileToks).filter fun i => !w.maskedTok idx i
  let row (i : Nat) : List OutElem := (List.range cols).map fun j =>
    tatOutput d (s.actOf w d) (timesP d.sElem (f32OfInt (tget (fun _ => 0) acc (32 * i + j)), 0))
  (rows.flatMap row,
    rows.map fun i => (i * w.op.o.tok + 32 * ct * d.outSize, (row i).flatMap OutElem.bytes))

/-- The matrix array's instruction at a token tile: 32 inner values of one output tile, which is written whole
after its last ones (R194, R197). -/
def State.matrixStep (w : Work) (idx : List Nat) (s : State) : Access :=
  let d := s.edescOf w
  let nk := max 1 w.op.inner
  let ct := w.run.tatPos / nk
  let k := w.run.tatPos % nk
  let n := min 32 (w.op.tokLen - 32 * k)
  let cols := min 32 (w.op.tatC - 32 * ct)
  let abt := w.op.arg == 10
  (readRows w idx (32 * k) n w.tileToks s).then fun ab s =>
    (if abt then readRowsE w idx (32 * ct) (32 * k) n cols s
     else readRowsE w idx (32 * k) (32 * ct) cols n s).then fun eb s =>
      let acc := matrixInstr abt w.tileToks cols n ab eb w.run.acc
      let tileEnd := decide (nk ≤ k + 1)
      let (outs, sp) := if tileEnd then s.matrixOut w d idx ct cols acc else ([], [])
      let (off, line) := w.address w.op.o Level.strO idx 0
      match s.writeSpans w 2 w.op.o off line 1 sp with
      | .ok _ s =>
        let s := s.countTat w false outs 0 0 (n + (if tileEnd then 32 else 0) + w.opTime s)
        let ends := tileEnd && decide (ceilDiv w.op.tatC 32 ≤ ct + 1)
        let masked := (List.range w.tileToks).countP fun i => w.maskedTok idx i
        let s := if !ends then s else s.modPillow w.p fun x =>
          { x with cnt := { x.cnt with sqMasked := satAdd 0xFFFF_FFFF x.cnt.sqMasked masked } }
        .ok [] (if ends then s.tatNext w idx 0 ((w.nextIdx idx).map fun i => (i, 0))
          else s.modRun w.p fun x =>
            { x with acc := if tileEnd then [] else acc, tatPos := w.run.tatPos + 1 })
      | x => x

/-! ## TATTING_INSTRUCTION_END -/

/-- One instruction of a TAT operation at a position, and what comes of it (R39, R197, R211, R245). -/
def State.tatOne (p : Nat) (w : Work) (idx : List Nat) (tok : Nat) (s : State) : State :=
  match (if w.op.arg ≤ 9 then s.vectorStep w idx tok else s.matrixStep w idx) with
  | .ok _ s => (s.boundary p 2).settlePillows w.job.pillows
  | .fault f s => (s.unitFault p f).settlePillows (p :: w.job.pillows)
  | .wait n l d => (s.unitWait p 2 n l d).settlePillows [p]

/-- TATTING_INSTRUCTION_END: arises while a TAT operation of the pillow's run is at an instruction. Every
instruction ends at a boundary (R39, R197); a fault leaves the instruction to be issued again whole. -/
def execTattingInstructionEnd (t pillow : Nat) (s : State) : Out :=
  let s := s.advance t
  .next
    (match (s.pillow pillow).run.bind fun r => s.workOf pillow r with
      | none => s
      | some w =>
        match w.run.next with
        | none => s
        | some (idx, tok) =>
          if !(s.pillowAlive pillow && w.op.kind == kTat && w.run.started && w.run.may 2 && w.run.waitWin.isNone) then s
          else s.tatOne pillow w idx tok)

end Sys2Proof.Machine
end

