-- ==== Sys2Proof/Machine/RegsPillow.lean ====
section
/-! DEFINITION. The register map of the PIL.nn blocks: bobbins (R87), refresh (R339), translation and pre-emption
(R259), conditioner (R111), accumulation (R142), sequencer (R186), tatting (R199), memory and windows (R226). -/

namespace Sys2Proof.Machine

/-! ## The bobbin map and the bobbins -/

/-- The physical bobbin that serves a logical one; 0x1F where that is FAILED and so not in the map (R83; DESIGN CHOICE,
assumption 113). -/
def Pillow.servedBy (x : Pillow) (l : Nat) : Nat :=
  if (tget bobbinAtReset x.bobbins (x.physOf l)).state = 5 then 0x1F else x.physOf l

/-- Whether LOGICAL of a bobbin is meaningful: it serves a logical bobbin, or shadows one (R83, R87). -/
def Bobbin.isMapped (b : Bobbin) : Bool := b.state != 5 && (b.mapped || b.state == 2 || b.state == 3)

/-- PB_MAPm. -/
def Pillow.mapWord (x : Pillow) (m : Nat) : Nat :=
  ((List.range 4).map fun i =>
    let l := 4 * m + i
    fld (8 * i) 5 (x.servedBy l) + flag (8 * i + 5) (x.alt.any fun a => a.2 == l)).sum

/-- PB_SPARE. -/
def Pillow.spareWord (x : Pillow) : Nat :=
  fld 0 5 (x.spare.getD 0x1F) + fld 5 5 (x.alt.elim 0x1F Prod.fst) + fld 10 4 (x.alt.elim 0 Prod.snd)
    + flag 14 x.spareFailed + fld 16 16 x.swapSheet

/-- The epoch of the newest sheet that a bobbin holds trims for; before its first pass that of the newest set. -/
def Bobbin.epochShown (b : Bobbin) : Nat :=
  match b.live, b.sets with
  | (_, e) :: _, _ => e
  | [], x :: _ => x.epoch
  | [], [] => 0

/-- A bobbin's registers (R87). -/
def Pillow.bobbinRegs (x : Pillow) (n o : Nat) : Nat :=
  let b := tget bobbinAtReset x.bobbins n
  let rot (g : Nat) : Nat := ((List.range 4).map fun i => fld (8 * i) 6 (b.uOf (4 * g + i)).1).sum
  let fuse (m : Nat) : Nat := ((List.range 4).map fun i =>
    match tget (fun _ => none) b.fuse (4 * m + i) with
    | some j => fld (8 * i) 6 j + flag (8 * i + 7) true
    | none => 0).sum
  match o with
  | 0x00 => fld 0 3 b.state + flag 3 b.w4 + fld 4 4 b.logical + flag 8 b.isMapped + fld 16 16 b.epochShown
  | 0x04 =>
    fld 0 16 (min 0xFFFF b.vfail) + fld 16 5 b.iterMax + flag 21 b.progFail
      + flag 22 (x.progs.any fun q => q.bobbin == n)
  | 0x08 => rot 0
  | 0x0C => rot 1
  | 0x10 => fuse 0
  | 0x14 => fuse 1
  | 0x18 => fuse 2
  | 0x1C => fuse 3
  | 0x20 => b.passes % 2 ^ 32
  | 0x24 => b.satpass % 2 ^ 32
  | _ => 0

/-- WR_STATE. -/
def Pillow.wrState (x : Pillow) : Nat :=
  fld 0 3 (x.refreshing.elim 0 RefreshReq.source) + fld 4 4 (x.refreshing.elim 0 RefreshReq.logical)
    + fld 8 5 x.refresh.length + fld 16 16 x.wrDone

/-! ## Translation and pre-emption -/

/-- The faults a saved stage waits on: the first of a unit, then those of the DMA engine. -/
def Saved.faults (v : Saved) : List FaultRec := v.run.fault.toList ++ v.run.dma.filterMap DmaXfer.fault

/-- The oldest suspended fault of a pillow, with its context (R254). -/
def Pillow.oldestFault (x : Pillow) : Option (Nat × FaultRec) :=
  let vs := x.saves.filter fun v => v.suspended && !v.faults.isEmpty
  let t := (vs.map Saved.since).foldl min ((vs.map Saved.since).headD 0)
  ((vs.find? fun v => v.since == t).bind fun v => v.faults.head?.map fun f => (v.run.ctx, f))

/-- The stage that the other bank holds: one that stands by, or a loose one being saved or restored (R246). -/
def Pillow.otherBank (x : Pillow) : Option Run :=
  x.standby.orElse fun _ => (x.saving.orElse fun _ => x.restoring).map Saved.run

/-- The registers at 0xC80 (R259). -/
def Pillow.ptRegs (x : Pillow) (pinned : Nat → Bool) (o : Nat) : Nat :=
  let y := x.mem
  match o with
  | 0xC80 => fld 0 9 (x.tc.countP fun e => !e.locks.isEmpty) + fld 9 10 x.tc.length
  | 0xC84 => y.ptHit % 2 ^ 32
  | 0xC88 => y.ptMiss % 2 ^ 32
  | 0xC8C => y.ptWalkNs % 2 ^ 32
  | 0xC90 =>
    x.oldestFault.elim 0 fun (c, f) => fld 0 14 c + fld 14 2 f.kind + fld 16 3 f.unit + flag 19 true + flag 20 f.write
  | 0xC94 => x.oldestFault.elim 0 fun (_, f) => f.va % 2 ^ 32
  | 0xC98 => x.oldestFault.elim 0 fun (_, f) => bitsOf 32 16 f.va + fld 16 10 f.asid
  | 0xC9C => fld 0 8 (x.saves.countP fun v => v.suspended) + fld 8 8 x.saves.length + fld 16 16 y.ptAborts
  | 0xCA0 =>
    (x.otherBank.elim 0 fun r => fld 0 14 r.ctx + flag 14 true + flag 15 (pinned r.ctx))
      + flag 16 x.saving.isSome + flag 17 x.restoring.isSome
  | 0xCA4 => y.ptPreempt % 2 ^ 32
  | 0xCA8 => fld 0 16 y.saveMax + fld 16 16 y.restoreMax
  | _ => 0

/-! ## Conditioner, accumulation, sequencer, tatting -/

/-- The registers at 0xD00 (R111). -/
def Pillow.qcRegs (x : Pillow) (o : Nat) : Nat :=
  let y := x.qc
  match o with
  | 0xD00 => y.desc % 2 ^ 8
  | 0xD04 => y.scale.toNat
  | 0xD08 => y.zq % 2 ^ 16
  | 0xD0C => fld 1 5 y.pend.length + flag 6 y.refused + fld 16 16 y.sheet
  | 0xD10 => fld 0 8 y.monDesc + fld 8 8 y.thresh
  | 0xD14 => x.cnt.qcJobs % 2 ^ 32
  | 0xD18 => x.cnt.qcClip % 2 ^ 32
  | 0xD1C => x.cnt.qcCoarse % 2 ^ 32
  | 0xD20 => x.cnt.qcDegen % 2 ^ 32
  | 0xD24 => x.cnt.qcNonfin % 2 ^ 32
  | _ => 0

/-- The registers at 0xD40 (R142). -/
def Pillow.aeRegs (x : Pillow) (mode : Nat) (o : Nat) : Nat :=
  match o with
  | 0xD40 => x.cnt.aeRepeat % 2 ^ 32
  | 0xD44 => x.cnt.aeSatKept % 2 ^ 32
  | 0xD48 => x.cnt.aeSpillW % 2 ^ 32
  | 0xD4C => x.cnt.aeSpillN % 2 ^ 32
  | 0xD50 => fld 0 8 x.cnt.aeExpMax + flag 8 (mode == 1) + flag 9 (mode == 2)
  | 0xD54 => x.cnt.aeOutsat % 2 ^ 32
  | _ => 0

/-- SQ_STATE (R186). -/
def sqStateWord (w : Option Work) : Nat :=
  w.elim 0 fun w =>
    fld 0 14 w.run.ctx + flag 14 true + flag 15 (!w.job.pinned) + fld 16 10 w.run.op + flag 26 w.run.waitWin.isSome
      + flag 27 w.run.waitFence

/-- The counters at 0xD84 (R186). -/
def Pillow.sqRegs (x : Pillow) (o : Nat) : Nat :=
  match o with
  | 0xD84 => x.cnt.sqSkip % 2 ^ 32
  | 0xD88 => x.cnt.sqMasked % 2 ^ 32
  | 0xD8C => x.cnt.sqTrunc % 2 ^ 32
  | 0xD90 => x.cnt.sqWinWait % 2 ^ 32
  | 0xD94 => x.cnt.sqFenceWait % 2 ^ 32
  | 0xD98 => x.cnt.sqEmpty % 2 ^ 32
  | _ => 0

/-- TT_STATE (R199). -/
def ttStateWord (w : Option Work) : Nat :=
  w.elim 0 fun w =>
    if w.op.kind = kTat ∧ w.run.started then
      fld 0 8 w.op.arg + flag 8 true + fld 9 2 (if w.op.tatReads = 1 then 0 else w.run.tatRead)
    else 0

/-- The registers at 0xDC0 but TT_STATE (R199). -/
def Pillow.ttRegs (x : Pillow) (o : Nat) : Nat :=
  match o with
  | 0xDC0 => 12 + fld 8 8 1
  | 0xDC8 => x.cnt.ttVecNs % 2 ^ 32
  | 0xDCC => x.cnt.ttMatNs % 2 ^ 32
  | 0xDD0 => x.cnt.ttOutsat % 2 ^ 32
  | 0xDD4 => x.cnt.ttNonfin % 2 ^ 32
  | 0xDD8 => x.cnt.ttPreempt % 2 ^ 32
  | _ => 0

/-! ## Memory and windows -/

/-- The registers at 0xE00 (R226). -/
def Pillow.spRegs (x : Pillow) (o : Nat) : Nat :=
  let y := x.mem
  match o with
  | 0xE18 => fld 0 16 y.wcoll + fld 16 4 y.ports.toNat
  | 0xE1C => fld 0 16 y.spCe + fld 16 16 y.spUe
  | 0xE20 => fld 0 16 y.sgCe + fld 16 16 y.sgUe
  | _ => if inRange 0xE00 o 0xE17 then tget (fun _ => 0) y.bcw ((o - 0xE00) / 4) % 2 ^ 32 else 0

/-- SW_LINEn: the line counters of the running context (R212, R226). -/
def swLineWord (p n o : Nat) (w : Option Work) : Nat :=
  w.elim 0 fun w => (if o = 0 then w.job.landed (winKey p n) else w.job.released_ (winKey p n)) % 2 ^ 32

/-- SWn (R226). -/
def SpWindow.regs (x : SpWindow) (o : Nat) : Nat :=
  match o with
  | 0 => x.base % 2 ^ 32
  | 4 => bitsOf 32 16 x.base
  | 8 => fld 0 16 x.pitch + fld 16 11 x.depth
  | 12 => flag 0 x.claimed + flag 1 x.pinned + fld 8 8 x.holder + fld 16 14 x.owner
  | _ => 0

/-! ## The block -/

/-- The work a pillow's run stands in. -/
def State.runningWork (p : Nat) (s : State) : Option Work := (s.pillow p).run.bind fun r => s.workOf p r

/-- A register of block PIL.nn. -/
def State.pilValue (p o : Nat) (s : State) : Nat :=
  let x := s.pillow p
  let w := s.runningWork p
  if inRange 0x800 o 0x80F then x.mapWord ((o - 0x800) / 4)
  else if o = 0x810 then x.spareWord
  else if o = 0x814 then x.wrState
  else if inRange 0x840 o 0xC7F then x.bobbinRegs ((o - 0x840) / 0x40) ((o - 0x840) % 0x40)
  else if inRange 0xC80 o 0xCAF then x.ptRegs (fun c => (s.job c).elim false Job.pinned) o
  else if inRange 0xD00 o 0xD27 then x.qcRegs o
  else if inRange 0xD40 o 0xD57 then x.aeRegs (w.elim 0 fun w => w.job.capMode) o
  else if o = 0xD80 then sqStateWord w
  else if inRange 0xD84 o 0xD9B then x.sqRegs o
  else if o = 0xDC4 then ttStateWord w
  else if inRange 0xDC0 o 0xDDB then x.ttRegs o
  else if inRange 0xE00 o 0xE23 then x.spRegs o
  else if inRange 0xE40 o 0xEBF then swLineWord p ((o - 0xE40) / 8) (o % 8) w
  else if inRange 0xF00 o 0xFFF then (x.window ((o - 0xF00) / 16)).regs (o % 16)
  else 0

/-- The counters that a read clears, by register (R111, R142, R186, R199). -/
def PilCnt.cleared (o : Nat) (c : PilCnt) : PilCnt :=
  match o with
  | 0xD14 => { c with qcJobs := 0 }
  | 0xD18 => { c with qcClip := 0 }
  | 0xD1C => { c with qcCoarse := 0 }
  | 0xD20 => { c with qcDegen := 0 }
  | 0xD24 => { c with qcNonfin := 0 }
  | 0xD40 => { c with aeRepeat := 0 }
  | 0xD44 => { c with aeSatKept := 0 }
  | 0xD48 => { c with aeSpillW := 0 }
  | 0xD4C => { c with aeSpillN := 0 }
  | 0xD50 => { c with aeExpMax := 0 }
  | 0xD54 => { c with aeOutsat := 0 }
  | 0xD84 => { c with sqSkip := 0 }
  | 0xD88 => { c with sqMasked := 0 }
  | 0xD8C => { c with sqTrunc := 0 }
  | 0xD90 => { c with sqWinWait := 0 }
  | 0xD94 => { c with sqFenceWait := 0 }
  | 0xD98 => { c with sqEmpty := 0 }
  | 0xDC8 => { c with ttVecNs := 0 }
  | 0xDCC => { c with ttMatNs := 0 }
  | 0xDD0 => { c with ttOutsat := 0 }
  | 0xDD4 => { c with ttNonfin := 0 }
  | 0xDD8 => { c with ttPreempt := 0 }
  | _ => c

/-- The memory and translation counters that a read clears (R226, R259). -/
def PilMem.cleared (o : Nat) (c : PilMem) : PilMem :=
  match o with
  | 0xC84 => { c with ptHit := 0 }
  | 0xC88 => { c with ptMiss := 0 }
  | 0xC8C => { c with ptWalkNs := 0 }
  | 0xC9C => { c with ptAborts := 0 }
  | 0xCA4 => { c with ptPreempt := 0 }
  | 0xCA8 => { c with saveMax := 0, restoreMax := 0 }
  | 0xE18 => { c with wcoll := 0 }
  | 0xE1C => { c with spCe := 0, spUe := 0 }
  | 0xE20 => { c with sgCe := 0, sgUe := 0 }
  | _ => if inRange 0xE00 o 0xE17 then { c with bcw := tset (fun _ => 0) ((o - 0xE00) / 4) 0 c.bcw } else c

/-- What a read of a register of block PIL.nn clears. -/
def State.pilClear (p o : Nat) (s : State) : State :=
  if o = 0x814 then s.modPillow p fun x => { x with wrDone := 0 }
  else if inRange 0x840 o 0xC7F then
    let n := (o - 0x840) / 0x40
    if (o - 0x840) % 0x40 = 0x20 then s.modBobbin p n fun b => { b with passes := 0 }
    else if (o - 0x840) % 0x40 = 0x24 then s.modBobbin p n fun b => { b with satpass := 0 }
    else s
  else s.modPillow p fun x => { x with cnt := x.cnt.cleared o, mem := x.mem.cleared o }

/-- A write to block PIL.nn. -/
def State.pilPut (p o v : Nat) (s : State) : State :=
  let qc (f : QcRegs → QcRegs) : State := s.modPillow p fun x => { x with qc := f x.qc }
  match o with
  | 0x818 => if bitOf 4 v then s.hostRefresh p (bitsOf 0 4 v) else s
  | 0xD00 => qc fun y => { y with desc := v % 2 ^ 8 }
  | 0xD04 => qc fun y => { y with scale := BitVec.ofNat 32 v }
  | 0xD08 => qc fun y => { y with zq := v % 2 ^ 16 }
  | 0xD0C =>
    let s := s.modPillow p fun x => { x with qc := { x.qc with refused := w1c v 6 x.qc.refused } }
    if bitOf 0 v then s.qcCommit p else s
  | 0xD10 => qc fun y => { y with monDesc := v % 2 ^ 8, thresh := bitsOf 8 8 v }
  | 0xE18 => s.modPillow p fun x => { x with mem := { x.mem with ports := x.mem.ports &&& ~~~(BitVec.ofNat 4 (v / 2 ^ 16)) } }
  | _ =>
    if inRange 0x840 o 0xC7F && (o - 0x840) % 0x40 == 0x04 then
      s.modBobbin p ((o - 0x840) / 0x40) fun b => { b with progFail := w1c v 21 b.progFail }
    else s

end Sys2Proof.Machine
end

