-- ==== Sys2Proof/Machine/Registers.lean ====
section
/-! DEFINITION. REG_READ and REG_WRITE over every block (R8 to R11, R419, R420, R511), and the reads with rows of
their own. -/

namespace Sys2Proof.Machine

/-- The pillow of a PIL.nn block code (R419). -/
def blockPillow (b : Nat) : Option Nat := if inRange 0x100 b 0x12F then some (b - 0x100) else none

/-- Whether a block code is listed (R419). -/
def knownBlock (b : Nat) : Bool := inRange 1 b 8 || (blockPillow b).isSome

/-- The register at offset o of block b; one that no map defines reads 0 (R10). -/
def State.regValue (b o : Nat) (s : State) : Nat :=
  match b with
  | 1 => s.tbValue o
  | 2 => s.pkValue o
  | 3 => s.hcValue o
  | 4 => s.trimValue o
  | 5 => s.netValue o
  | 6 => s.memValue o
  | 7 => s.sqValue o
  | 8 => s.secValue o
  | _ => (blockPillow b).elim 0 fun p => s.pilValue p o

/-- What a read of the register clears and freezes (R9, R420). -/
def State.regClear (b o : Nat) (s : State) : State :=
  match b with
  | 1 => s.tbClear o
  | 2 => s.pkClear o
  | 3 => s.hcClear o
  | 4 => s.trimClear o
  | 5 => s.netClear o
  | 6 => s.memClearReg o
  | 7 => s.sqClear o
  | 8 => s.secClear o
  | _ => (blockPillow b).elim s fun p => s.pilClear p o

/-- A write of the register. -/
def State.regPut (b o v : Nat) (s : State) : State :=
  match b with
  | 1 => s.tbPut o v
  | 2 => s.pkPut o v
  | 3 => s.hcPut o v
  | 4 => s.trimPut o v
  | 5 => s.netPut o v
  | 6 => s.memPut o v
  | 7 => s.sqPut o v
  | 8 => s.secPut o v
  | _ => (blockPillow b).elim s fun p => s.pilPut p o v

/-- Reads n registers from offset o in ascending order (R420). -/
def State.readRegs (b : Nat) : Nat → Nat → State → Bytes × State
  | _, 0, s => ([], s)
  | o, n + 1, s =>
    let v := s.regValue b o
    let (r, s) := State.readRegs b (o + 4) n (s.regClear b o)
    (leBytes 4 v ++ r, s)

/-- Writes registers from offset o in ascending order (R420). -/
def State.writeRegs (b : Nat) : Nat → List (BitVec 32) → State → State
  | _, [], s => s
  | o, v :: r, s => State.writeRegs b (o + 4) r (s.regPut b o v.toNat)

/-- The ranges of ADDR and COUNT (R419, R420): a refusal names the first byte of the field. -/
def regParams (addr : BitVec 32) (count : Nat) : Option Reject :=
  let a := addr.toNat
  firstOf
    [require (knownBlock (a / 2 ^ 16) && bitsOf 12 4 a == 0 && a % 4 == 0) (paramBadAt 8),
     require (inRange 1 count 124 && decide (a % 4096 + 4 * count ≤ 4096)) (paramBadAt 0x0C)]

/-- A PIL.nn block of a gated pillow is refused (R420). -/
def State.regGated (addr : BitVec 32) (s : State) : Option Reject :=
  require ((blockPillow (addr.toNat / 2 ^ 16)).all fun p => s.pillowOn p) stateRefused

/-- REG_READ (R420). -/
def execRegRead (h : Hdr) (addr : BitVec 32) (count : Nat) (s : State) : Out :=
  hostCommand h Op.regRead 0 (addr.toNat / 2 ^ 16 == 8) (regParams addr count) (fun s => s.regGated addr)
    (fun s =>
      let (b, s) := s.readRegs (addr.toNat / 2 ^ 16) (addr.toNat % 4096) count
      s.done h Op.regRead 0 b) s

/-- The value that a REG_WRITE from offset o gives the register at offset k. -/
def valueAt (o k : Nat) (vals : List (BitVec 32)) : Option (BitVec 32) :=
  if o ≤ k ∧ (k - o) % 4 = 0 then vals[(k - o) / 4]? else none

/-- Whether a REG_WRITE to the SEC block is refused with LOCKED (R420, R511). -/
def State.writeLocked (o : Nat) (vals : List (BitVec 32)) (s : State) : Bool :=
  ((valueAt o 0x018 vals).any fun v => s.opLocked (bitsOf 0 2 v.toNat))
    || (s.sec.lock == 2 && (List.range vals.length).any fun i =>
      let k := o + 4 * i
      decide (k < 0x800) && k != 0x014 && k != 0x018)

/-- SEC_OP is armed by a write of the key, and by nothing that does not end so (R511). -/
def State.armAfter (o : Nat) (vals : List (BitVec 32)) (s : State) : State :=
  match valueAt o 0x014 vals with
  | some v => s.arm v
  | none => s.disarm

/-- A REG_WRITE that asks for a refresh with WR_REQ is refused as that is (R339, R345). -/
def State.refreshAsked (b o : Nat) (vals : List (BitVec 32)) (s : State) : Option Reject :=
  match blockPillow b, valueAt o 0x818 vals with
  | some p, some v => if bitOf 4 v.toNat then s.wrReqRefused p else none
  | _, _ => none

/-- REG_WRITE (R420, R511). -/
def execRegWrite (h : Hdr) (addr : BitVec 32) (vals : List (BitVec 32)) (s : State) : Out :=
  let b := addr.toNat / 2 ^ 16
  let o := addr.toNat % 4096
  hostCommand h Op.regWrite 0 (b == 8) (regParams addr vals.length)
    (fun s => firstOf
      [s.regGated addr, s.refreshAsked b o vals, require (!(b == 8 && s.writeLocked o vals)) { status := Status.locked }])
    (fun s =>
      let s := if b = 8 then s.armAfter o vals else s.disarm
      (s.writeRegs b o vals).done h Op.regWrite 0 []) s

/-- HC_DATA_READ: a REG_READ of HC_DATA (R371). -/
def execHcDataRead (h : Hdr) (s : State) : Out :=
  hostCommand h Op.regRead 0 false none (fun _ => none)
    (fun s =>
      let (v, s) := s.readHcData
      s.done h Op.regRead 0 (leBytes 4 v)) s

/-- TB_WP_LO_READ: a REG_READ of TB_WP_LO (R32). -/
def execTbWpLoRead (h : Hdr) (s : State) : Out :=
  hostCommand h Op.regRead 0 false none (fun _ => none)
    (fun s => (s.tbClear 0x010).done h Op.regRead 0 (leBytes 4 (s.tbValue 0x010))) s

/-- PK_PICK0_READ: a REG_READ of PK_PICK0 (R467). -/
def execPkPick0Read (h : Hdr) (s : State) : Out :=
  hostCommand h Op.regRead 0 false none (fun _ => none)
    (fun s => (s.pkClear 0x018).done h Op.regRead 0 (leBytes 4 (s.pkValue 0x018))) s

end Sys2Proof.Machine
end

