-- ==== Sys2Proof/Machine/Xbar.lean ====
section
/-! DEFINITION. The events of a crossbar operation: a conditioned token (R89 to R107), a bobbin pass with its
repeats (R61, R64, R117 to R121, R161), the tree and the zero point (R100, R113), and the end of an epilogue
write (R138). -/

namespace Sys2Proof.Machine

/-! ## A token leaves the bobbins (R100, R106, R113, R131) -/

/-- Adds to a column's figure. -/
def tbump (k : Nat) (v : Int) (t : Tbl Int) : Tbl Int := tset (fun _ => 0) k (tget (fun _ => 0) t k + v) t

/-- Adds to a column's accumulator, which is signed and 32 bits wide (R115). -/
def addAcc (k : Nat) (v : Int) (t : Tbl Int) : Tbl Int := tset (fun _ => 0) k (wrapTo 32 (tget (fun _ => 0) t k + v)) t

/-- Adds a tile's column sums, C_j or E_j (R99). -/
def State.addSums (w : Work) (e : Bool) (d : Drive) (s : State) (t : Tbl Int) : Tbl Int :=
  let div := match w.op.dimLevel 3 with
    | some l => (w.op.lv l).div
    | none => 0
  (List.range d.tile.ncol).foldl (fun t j =>
    let c := tget (fun _ => ((0 : Int), (0 : Int))) (s.pillow w.p).csum (d.tile.csum + j)
    tbump (d.n * div + j) (if e then c.2 else c.1) t) t

/-- The column sums of all the tiles of a position. -/
def State.allSums (w : Work) (e : Bool) (ds : List Drive) (s : State) : Tbl Int :=
  ds.foldl (fun t d => s.addSums w e d t) []

/-- A token with its run cleared for the next one. -/
def Run.nextToken (r : Run) : Run :=
  { r with
    staged := r.staged.drop 1, wave := 0, low := false, attempt := 0, rep := [], hi := [], acc := []
    csum := [], leaves := [] }

/-- The first staged token's vector goes to the epilogue: D_j of a degenerate token, T_j of another in 48 bits (R100,
R106), with its leaves where the job captures them (R129); the window lines that end with it are released (R179). -/
def State.tokenDone (w : Work) (t : StagedTok) (acc csum leaves : Tbl Int) (s : State) : State :=
  let cols := w.columns t.idx
  let tau := w.tokenNo t.idx t.tok
  let val (c : Nat) : Int := match t.degen with
    | some (m, _) => m * tget (fun _ => 0) csum c
    | none => wrapTo 48 (256 * tget (fun _ => 0) acc c - t.zq * tget (fun _ => 0) csum c)
  let v : EpiVec :=
    { idx := t.idx, tok := t.tok, masked := t.masked, scale := t.scale, vals := cols.map val
      degen := t.degen.map Prod.snd, caps := if w.job.capMode = 1 then some (tau, leaves) else none
      accs := cols.map (tget (fun _ => 0) (if t.degen.isSome then csum else acc)), zq := t.zq }
  let r := w.run.nextToken
  let s := s.setRun w.p { r with epi := r.epi ++ [v], tau := tau }
  if t.tok + 1 < w.tileToks then s else s.releaseAt w t.idx (w.nextIdx t.idx)

/-- Reads n bytes from each of some addresses. -/
def readLeaves (w : Work) (n : Nat) : List Nat → State → Access
  | [], s => .ok [] s
  | va :: r, s =>
    match s.readVa w 1 false va n with
    | .ok b s =>
      match readLeaves w n r s with
      | .ok c s => .ok (b ++ c) s
      | x => x
    | x => x

/-- Sums a token's leaves from a capture buffer, in the 32 bits of the accumulators (R115, R131). -/
def State.replayToken (w : Work) (t : StagedTok) (s : State) : Access :=
  let cols := w.columns t.idx
  let (lo, hi) := w.leafShare t.idx
  let (leaves, outs, _) := w.prk.captureShape w.job.len0?
  let m := cols.length
  let j0 := (w.allColumns t.idx).idxOf (cols.headD 0)
  let va (i : Nat) : Nat := w.leafVa leaves outs (w.tokenNo t.idx t.tok) (lo + i) j0
  match readLeaves w (4 * m) ((List.range (hi - lo)).map va) s with
  | .ok b s =>
    let acc := (List.range (hi - lo)).foldl (fun a i =>
      cols.zipIdx.foldl (fun a (c, j) => addAcc c (intAt (4 * (i * m + j)) 4 b) a) a) []
    .ok [] (s.tokenDone w t acc (s.allSums w false (w.drives t.idx)) [])
  | r => r

/-- The first staged token leaves at once where it needs no pass: a degenerate one, one of no tile, one of a
replay; the epilogue takes one vector at a time, and a stage that has been asked to stop gives it none. -/
def State.finishHead (p : Nat) (s : State) : State :=
  match (s.pillow p).run.bind fun r => s.workOf p r with
  | none => s
  | some w =>
    match w.run.staged with
    | [] => s
    | t :: _ =>
      let ds := w.drives t.idx
      if !w.run.epi.isEmpty || w.run.stop.isSome then s
      else if t.degen.isSome then s.tokenDone w t [] (s.allSums w true ds) []
      else if w.job.capMode = 2 then
        match s.replayToken w t with
        | .ok _ s => s
        | .fault f s => s.unitFault p f
        | .wait n l d => s.unitWait p 0 n l d
      else if ds.isEmpty then s.tokenDone w t [] [] []
      else s

/-- A crossbar operation ends when every token is written. -/
def State.xbarEnd (p : Nat) (s : State) : State :=
  match (s.pillow p).run.bind fun r => s.workOf p r with
  | none => s
  | some w =>
    let r := w.run
    if r.started && w.op.kind == kXbar && r.next.isNone && r.staged.isEmpty && r.epi.isEmpty then
      ((s.releaseE w).setRun p w.nextOp).boundary p 6
    else s

/-! ## TOKEN_CONDITIONED -/

/-- The figures that a conditioned token adds (R91, R97, R104, R108, R111, R165). A masked token, which adds nothing to
the record's figures (R165), adds nothing to the monitors either: R111 does not say (DESIGN CHOICE, assumption 134). -/
def State.countToken (w : Work) (masked : Bool) (q : QDesc) (c : Conditioned) (s : State) : State :=
  if w.run.again ≠ 0 then s
  else if masked then
    s.modPillow w.p fun x => { x with cnt := { x.cnt with sqMasked := satAdd 0xFFFF_FFFF x.cnt.sqMasked 1 } }
  else
    let deg := c.degen.isSome
    let s := s.modJob w.run.ctx fun j =>
      let j := j.countClips c.clips c.nonfin
      let j := if deg then { j with degenerate := true } else j
      if deg || q.dynamic then j
      else j.countOcc (256 * w.p + w.op.qdesc) q.a4 (c.codes.flatMap Prod.snd)
    s.modPillow w.p fun x =>
      let watched := (x.qentry (w.job.owner w.run.ctx) w.op.qdesc).any fun e => e.1 == x.qc.monDesc
      { x with cnt := { x.cnt with
        qcClip := satAdd 0xFFFF_FFFF x.cnt.qcClip (if watched then c.clips else 0)
        qcDegen := satAdd 0xFFFF_FFFF x.cnt.qcDegen (if deg then 1 else 0)
        qcNonfin := satAdd 0xFFFF_FFFF x.cnt.qcNonfin c.nonfin } }

/-- A token whose raw bytes have been read is conditioned and staged (R89 to R107). -/
def State.stageToken (w : Work) (pos : List Nat × Nat) (raw : Bytes) (s : State) : State :=
  let q := w.prk.qdesc w.op.qdesc
  let (scale, z) := s.scaleOf w
  let k := w.kOf pos.1
  let ds := w.drives pos.1
  let (d, s) := s.draw
  let c := conditionToken q scale z d.toNat (w.op.parts == 1) (if w.run.again = 0 then w.run.cond else none) (rawElems q.esize k raw) (slicesOf q k ds)
  let masked := w.maskedTok pos.1 pos.2
  let half := w.run.halfFor pos.2
  let s := if c.degen.isSome || w.job.capMode == 2 then s
    else s.stageCodes w q w.job.sheet half pos.2 (waveCount ds) c ds
  let s := s.countToken w masked q c
  let t : StagedTok :=
    { idx := pos.1, tok := pos.2, masked := masked, k := k, half := half, scale := c.scale, zq := c.zq
      degen := c.degen }
  let nxt := w.nextPos pos
  s.modRun w.p fun r =>
    { r with staged := r.staged ++ [t], half := half, next := nxt, again := r.again - 1, cond := none }

/-- A fault of the conditioner on a token: it arises when the work before the token's tile is complete, so that a job
that it aborts has written everything before it (R170); until then the token is not finished. -/
def State.tokenFault (p : Nat) (w : Work) (f : FaultRec) (after before : State) : State :=
  if w.run.staged.isEmpty && w.run.epi.isEmpty then (after.unitFault p f).settlePillows (p :: w.job.pillows) else before

/-- The conditioner's work on a token: a tile index without a tile, or a 65th leaf, is a fault of kind bounds (R170). -/
def State.conditionOne (p : Nat) (w : Work) (pos : List Nat × Nat) (s : State) : State :=
  match w.badTile pos.1 with
  | some i => s.tokenFault p w { va := vaOf i, kind := 2, unit := 4, write := false, asid := w.asid } s
  | none =>
    match s.readToken w 0 (w.prk.qdesc w.op.qdesc).esize pos.1 pos.2 (w.kOf pos.1) with
    | .fault f s' => s'.tokenFault p w f s
    | .wait n l d => (s.unitWait p 0 n l d).settlePillows [p]
    | .ok b s => ((s.stageToken w pos b).finishHead p).boundary p 0

/-- TOKEN_CONDITIONED: arises while the conditioner of the pillow's run has a token to condition and room to
stage it. -/
def execTokenConditioned (t pillow : Nat) (s : State) : Out :=
  let s := s.advance t
  .next
    (match (s.pillow pillow).run.bind fun r => s.workOf pillow r with
      | none => s
      | some w =>
        match w.run.next with
        | none => s
        | some pos =>
          if !(s.pillowAlive pillow && w.atToken && w.run.may 0) then s else s.conditionOne pillow w pos)

/-! ## PASS_COMPLETE -/

/-- The nibbles that drive a pass: the code of A4 work, the high and then the low nibble of A8 work (R61,
R90). -/
def nibbles (a4 low : Bool) (codes : List Nat) : List Nat :=
  codes.map fun c => if a4 || low then c % 16 else c / 16 % 16

/-- What came of the bobbins of one pass: the tables of the run, the bobbins that repeat, and the bobbins
that the pass check fails. -/
structure PassSum where
  hi : Tbl (List Int)
  acc : Tbl Int
  csum : Tbl Int
  leaves : Tbl Int
  rep : List Nat
  failed : List Nat
  deriving DecidableEq, Repr

/-- The partials of one bobbin are used: held, or combined into its leaf (R60, R61, R113). -/
def State.usePartials (w : Work) (a4 : Bool) (d : Drive) (w4 : Bool) (ps : List Int) (a : PassSum) (s : State) :
    PassSum :=
  if !a4 && !w.run.low then { a with hi := tset (fun _ => []) d.tile.logical ps a.hi }
  else
    let hi := tget (fun _ => []) a.hi d.tile.logical
    let div := match w.op.dimLevel 3 with
      | some l => (w.op.lv l).div
      | none => 0
    let (acc, lv) := (List.range d.tile.ncol).foldl (fun (x : Tbl Int × Tbl Int) j =>
      let v := combine w4 a4 hi ps (d.tile.col0 + j)
      let c := d.n * div + j
      (addAcc c v x.1, if w.job.capMode = 1 then tset (fun _ => 0) (65536 * d.k + c) v x.2 else x.2))
      (a.acc, a.leaves)
    { a with acc := acc, leaves := lv, csum := s.addSums w false d a.csum }

/-- The bobbin adopts the sheet's trims, makes the pass, and takes its figures (R53, R54, R64, R354,
R493). -/
def Bobbin.work (x : Trim) (sheet : Nat) (codes : List Nat) (rh rl : Nat) (noise : SparseInt) (b : Bobbin) :
    Nat × PassOut × Bobbin :=
  let (e, b) := b.adopt (b.wants x sheet) sheet
  let o := b.pass codes rh rl e noise
  let b := ((b.takeRefs (b.set e).k o.refs).countBad o.refs)
  (e, o, { b with
    made := b.made + 1, passes := satAdd 0xFFFF_FFFF b.passes 1, satpass := satAdd 0xFFFF_FFFF b.satpass (if o.sat then 1 else 0) })

/-- One bobbin's part of a pass (R64, R84, R117 to R120). A tile whose slot or bobbin does not serve gives a
leaf of 0, and the record carries SLOT_OFFLINE (assumption 34). -/
def State.passBobbin (w : Work) (t : StagedTok) (waves : Nat) (noise : List (Nat × SparseInt)) (d : Drive)
    (a : PassSum) (s : State) : PassSum × State :=
  let l := d.tile.logical
  let sheet := w.job.sheet
  if !s.canPass w.p d.tile sheet then (a, s.modJob w.run.ctx fun j => { j with offline := true })
  else
    let a4 := d.tile.a4
    let b := s.routeOf w.p l sheet
    let s := if (s.bobbin w.p b).state = 3 then s.swapIn w.p (s.earlier w.p (s.pillow w.p).swapSheet) else s
    let x := s.bobbin w.p b
    let codes := nibbles a4 w.run.low (x.staged (stageAt t.half (t.tok * waves + d.wave)) d.rows)
    let ns := ((noise.find? fun n => n.1 == l).map Prod.snd).getD []
    let (e, o, x) := x.work s.trim sheet codes (min 3 (d.tile.rangeH + w.run.attempt))
      (min 3 (d.tile.rangeL + w.run.attempt)) ns
    let s := s.setBobbin w.p b x
    let again := o.sat && o.low && decide (w.run.attempt < 2)
    let kept := if o.sat && !again then 1 else 0
    let s := s.modJob w.run.ctx fun j => { j.countEpoch e with satKept := satAdd 0xFFFF_FFFF j.satKept kept }
    let s := s.modPillow w.p fun y =>
      { y with cnt := { y.cnt with aeSatKept := satAdd 0xFFFF_FFFF y.cnt.aeSatKept kept } }
    let a := if x.passFails then { a with failed := b :: a.failed } else a
    if again then ({ a with rep := a.rep ++ [l] }, s) else (s.usePartials w a4 d x.w4 o.ps a, s)

/-- The bobbins of a pass one after another. -/
def State.passAll (w : Work) (t : StagedTok) (waves : Nat) (noise : List (Nat × SparseInt)) :
    List Drive → PassSum → State → PassSum × State
  | [], a, s => (a, s)
  | d :: r, a, s =>
    let (a, s) := s.passBobbin w t waves noise d a
    s.passAll w t waves noise r a

/-- The reads of a pass meet the errors that have arisen in the entries of the staging buffers (R208). -/
def State.meetPass (w : Work) (t : StagedTok) (waves : Nat) (ds : List Drive) (s : State) : State :=
  ds.foldl (fun s d =>
    let base := stageAt t.half (t.tok * waves + d.wave)
    s.meetStaging w.p (s.routeOf w.p d.tile.logical w.job.sheet) base (base + d.rows)) s

/-- Whether a poisoned unit stands in an entry that this pass reads (R208). -/
def State.stagePoisoned (w : Work) (t : StagedTok) (waves : Nat) (ds : List Drive) (s : State) : Bool :=
  ds.any fun d =>
    let base := stageAt t.half (t.tok * waves + d.wave)
    (s.bobbin w.p (s.routeOf w.p d.tile.logical w.job.sheet)).stagePoison.any fun u =>
      decide (u < base + d.rows) && decide (base < u + 8)

/-- The run after a pass that nothing repeats: the low nibble, the next wave, or the end of the token
(R61, R161). -/
def State.passNext (w : Work) (t : StagedTok) (waves : Nat) (a : PassSum) (s : State) : State :=
  let a4 := (w.prk.qdesc w.op.qdesc).a4
  let r := { w.run with hi := a.hi, acc := a.acc, csum := a.csum, leaves := a.leaves, attempt := 0, rep := [] }
  if !a4 && !r.low then s.setRun w.p { r with low := true }
  else if r.wave + 1 < waves then s.setRun w.p { r with low := false, wave := r.wave + 1, hi := [] }
  else
    s.tokenDone { w with run := r } t a.acc a.csum a.leaves

/-- A pass of the wave, or the repeats of the one before (R117 to R119). -/
def State.passStep (w : Work) (t : StagedTok) (waves : Nat) (ds : List Drive) (noise : List (Nat × SparseInt))
    (s : State) : List Nat × State :=
  let r := w.run
  let ds := ds.filter fun d => r.attempt == 0 || r.rep.contains d.tile.logical
  let (a, s) := s.passAll w t waves noise ds
    { hi := r.hi, acc := r.acc, csum := r.csum, leaves := r.leaves, rep := [], failed := [] }
  let n := if r.attempt = 0 then 0 else 1
  let s := s.modJob r.ctx fun j => { j with repeats := satAdd 0xFFFF_FFFF j.repeats n }
  let s := s.modPillow w.p fun x => { x with cnt := { x.cnt with aeRepeat := satAdd 0xFFFF_FFFF x.cnt.aeRepeat n } }
  let s := if a.rep = [] then s.passNext w t waves a
    else s.setRun w.p
      { r with hi := a.hi, acc := a.acc, csum := a.csum, leaves := a.leaves, attempt := r.attempt + 1
               rep := a.rep }
  (a.failed, s)

/-- The bobbins that the pass check fails leave service (R493). -/
def State.failBobbins (p : Nat) : List Nat → List Nat × State → List Nat × State
  | [], x => x
  | b :: r, (ps, s) =>
    let (qs, s) := s.bobbinFail p b 1
    State.failBobbins p r (ps ++ qs, s)

/-- A pass of the first staged token has ended: its sums go on, its head leaves where it is done, and the
bobbins that the pass check fails leave service (R493). -/
def State.passDone (p : Nat) (w : Work) (k : StagedTok) (waves : Nat) (ds : List Drive)
    (noise : List (Nat × SparseInt)) (s : State) : State :=
  let x := s.passStep w k waves ds noise
  let s := x.2.finishHead p
  if x.1 = [] then s.boundary p 5
  else
    let y := State.failBobbins p x.1 ([], s)
    (y.2.boundary p 5).settlePillows y.1

/-- PASS_COMPLETE: arises while the run's first staged token has a pass to make; its last one waits while a
vector before it is still being written. A poisoned unit of the staging buffers makes the conditioner stage
the token tile again (R208). -/
def execPassComplete (t pillow : Nat) (noise : List (Nat × SparseInt)) (s : State) : Out :=
  let s := s.advance t
  .next
    (match (s.pillow pillow).run.bind fun r => s.workOf pillow r with
      | none => s
      | some w =>
        match w.run.staged with
        | [] => s
        | k :: _ =>
          let all := w.drives k.idx
          let waves := waveCount all
          let ds := all.filter fun d => d.wave == w.run.wave
          if !(s.pillowAlive pillow && s.passDue w && w.run.may 5 && (!w.lastPass waves || w.run.epi.isEmpty)) then s
          else
            let s := s.meetPass w k waves ds
            if s.stagePoisoned w k waves ds then (s.setRun pillow w.run.stopped).settlePillows [pillow]
            else s.passDone pillow w k waves ds noise)

/-! ## EPILOGUE_WRITE_END -/

/-- The write of a vector has ended: its lines land, and the operation goes on (R133, R179). -/
def State.vectorDone (p : Nat) (w : Work) (v : EpiVec) (rest : List EpiVec) (s : State) : State :=
  let s := if v.tok + 1 < w.tileToks then s else s.landAt w v.idx (w.nextIdx v.idx)
  let s := s.modRun p fun r => { r with epi := rest }
  (((s.finishHead p).xbarEnd p).boundary p 1).settlePillows w.job.pillows

/-- What comes of the oldest vector's write (R133, R211, R245). -/
def State.writeOldest (p : Nat) (w : Work) (v : EpiVec) (rest : List EpiVec) (s : State) : State :=
  match s.writeVector w v with
  | .fault f s => (s.unitFault p f).settlePillows (p :: w.job.pillows)
  | .wait n l d => (s.unitWait p 1 n l d).settlePillows [p]
  | .ok _ s => s.vectorDone p w v rest

/-- EPILOGUE_WRITE_END: arises while a vector of the run waits to be written, every spill it takes has come,
and the place of its own spill is free. Its lines land, and its accumulators are released (R138, R179). -/
def execEpilogueWriteEnd (t pillow : Nat) (s : State) : Out :=
  let s := s.advance t
  .next
    (match (s.pillow pillow).run.bind fun r => s.workOf pillow r with
      | none => s
      | some w =>
        match w.run.epi with
        | [] => s
        | v :: rest =>
          if !(s.pillowAlive pillow && w.op.kind == kXbar && w.run.may 1 && s.spillsReady w v) then s
          else s.writeOldest pillow w v rest)

end Sys2Proof.Machine
end

