-- ==== Sys2Proof/Machine/Walks.lean ====
section
/-! DEFINITION. The walks of the translation tables (R230, R234, R242, R256). -/

namespace Sys2Proof.Machine

/-! ## TRANSLATION_WALK_END -/

/-- What the walk's reads of the tables have found: one copy of the last entry poisoned, or both (R256). -/
def State.walkFinding (asid va : Nat) (ecc : Ecc) (s : State) : State :=
  match ecc, (s.ms.walkEntries asid va).getLast? with
  | .corrected, some e =>
    let s := s.countHbm (poolBase + e) true
    { s with ms := { s.ms with poison := (poolBase + e) :: s.ms.poison.erase (poolBase + e) } }
  | .uncorrectable, some e =>
    let s := (s.countHbm (poolBase + e) true).countHbm (mirrorBase + e) true
    let rest := s.ms.poison.filter fun u => u != poolBase + e && u != mirrorBase + e
    { s with ms := { s.ms with poison := (poolBase + e) :: (mirrorBase + e) :: rest } }
  | _, _ => s

/-- Whether a fault is that of an access to the 64 KiB at an address. -/
def FaultRec.atPage (asid va : Nat) (f : FaultRec) : Bool := f.asid == asid && f.va / 0x1_0000 == va / 0x1_0000

/-- What a fault of an access leaves where the access waits for the walk. -/
def Access.faultAt (asid va : Nat) (k : FaultRec → State → State) : Access → Option State
  | .fault f s => if f.atPage asid va then some (k f s) else none
  | _ => none

/-- The DMA engine's access that waits for a walk (R238, R243). -/
def State.dmaWalk (w : Work) (asid va : Nat) (s : State) : Option State :=
  match s.turnOf w with
  | none => none
  | some i =>
    match (w.run.dma.drop i).head? with
    | none => none
    | some x =>
      if w.run.may 3 then (s.burst (w.ofXfer x) x).faultAt asid va fun f s => s.burstFault w i x f else none

/-- The conditioner's access that waits for a walk (R243). -/
def State.tokenWalk (w : Work) (asid va : Nat) (s : State) : Option State :=
  match w.run.next with
  | none => none
  | some pos =>
    if w.atToken && w.run.may 0 && (w.badTile pos.1).isNone then
      (s.readToken w 0 (w.prk.qdesc w.op.qdesc).esize pos.1 pos.2 (w.kOf pos.1)).faultAt asid va
        fun f s' => s'.tokenFault w.p w f s
    else none

/-- The epilogue's write that waits for a walk (R243). -/
def State.epiWalk (w : Work) (asid va : Nat) (s : State) : Option State :=
  match w.run.epi with
  | [] => none
  | v :: _ =>
    if w.op.kind == kXbar && w.run.may 1 && s.spillsReady w v then
      (s.writeVector w v).faultAt asid va fun f s => (s.unitFault w.p f).settlePillows (w.p :: w.job.pillows)
    else none

/-- The tatting unit's instruction that waits for a walk (R197, R243). -/
def State.tatWalk (w : Work) (asid va : Nat) (s : State) : Option State :=
  match w.run.next with
  | none => none
  | some (idx, tok) =>
    if w.op.kind == kTat && w.run.started && w.run.may 2 && w.run.waitWin.isNone then
      (if w.op.arg ≤ 9 then s.vectorStep w idx tok else s.matrixStep w idx).faultAt asid va
        fun f s => (s.unitFault w.p f).settlePillows (w.p :: w.job.pillows)
    else none

/-- The read of a SETLEN that waits for a walk (R164). -/
def State.setLenWalk (w : Work) (asid va : Nat) (s : State) : Option State :=
  if w.op.kind == kSetlen && w.run.started && w.run.stop.isNone && w.run.waitWin.isNone then
    let (off, line) := w.address w.op.a Level.strA [] 0
    (s.readOpnd w 1 w.op.a off line 4).faultAt asid va
      fun f s => (s.unitFault w.p f).settlePillows (w.p :: w.job.pillows)
  else none

/-- The fault of the access that waits for a failed walk: the first of the stage's units whose next access meets it
in the page that was walked (R242, R243). None waits where no unit's next access lies there. -/
def State.walkFault (w : Work) (asid va : Nat) (s : State) : Option State :=
  ((((s.dmaWalk w asid va).or (s.tokenWalk w asid va)).or (s.epiWalk w asid va)).or (s.tatWalk w asid va)).or
    (s.setLenWalk w asid va)

/-- A walk ends: it fills the cache, or the access that waited takes the fault, NOT_PRESENT for an invalid entry and
UNCORRECTABLE for one with both copies poisoned (R234, R242). -/
def State.walkEnd (w : Work) (asid va : Nat) (s : State) : State :=
  if (s.pageAt asid va).isSome && (s.walkCheck asid va).1 then (s.walk w.p asid va true).2
  else (s.walkFault w asid va).getD (s.walk w.p asid va true).2

/-- TRANSLATION_WALK_END: arises while the pillow's loose stage waits for a walk. Pinned work never walks (R236). -/
def execTranslationWalkEnd (t pillow asid va : Nat) (ecc : Ecc) (s : State) : Out :=
  let s := s.advance t
  let va := va % 2 ^ 48
  .next
    (match (s.pillow pillow).run.bind fun r => s.workOf pillow r with
      | none => s
      | some w =>
        if s.pillowAlive pillow && !w.job.pinned && w.asid == asid
            && !((s.pillow pillow).tc.any (TcEntry.covers asid va)) then
          (s.walkFinding asid va ecc).walkEnd w asid va
        else s)

end Sys2Proof.Machine
end

