-- ==== Sys2Proof/Machine/Dispatch.lean ====
section
/-! DEFINITION. One arm per command of spec/opcode_table.json: the command's meaning. -/

namespace Sys2Proof.Machine

/-- The effect of a command on everything but the queue of waiting commands. -/
def exec (i : Instr) (s : State) : Host.Outcome State Fault Refusal :=
  match i with
  | .devInfo h => Sys2Proof.Machine.execDevInfo h s
  | .devReset h confirm => Sys2Proof.Machine.execDevReset h confirm s
  | .regRead h addr count => Sys2Proof.Machine.execRegRead h addr count s
  | .regWrite h addr vals => Sys2Proof.Machine.execRegWrite h addr vals s
  | .hcDataRead h => Sys2Proof.Machine.execHcDataRead h s
  | .tbWpLoRead h => Sys2Proof.Machine.execTbWpLoRead h s
  | .pkPick0Read h => Sys2Proof.Machine.execPkPick0Read h s
  | .qcCommit h pillow => Sys2Proof.Machine.execQcCommit h pillow s
  | .wrReq h pillow logical => Sys2Proof.Machine.execWrReq h pillow logical s
  | .shqErrPop h ecc => Sys2Proof.Machine.execShqErrPop h ecc s
  | .pwrReq h domain ungate => Sys2Proof.Machine.execPwrReq h domain ungate s
  | .frCtrlEnter h => Sys2Proof.Machine.execFrCtrlEnter h s
  | .frCtrlLeave h => Sys2Proof.Machine.execFrCtrlLeave h s
  | .secArm h key => Sys2Proof.Machine.execSecArm h key s
  | .secOpSeal h => Sys2Proof.Machine.execSecOpSeal h s
  | .secOpRevoke h mask => Sys2Proof.Machine.execSecOpRevoke h mask s
  | .calRun h => Sys2Proof.Machine.execCalRun h s
  | .calRunEnd t res => Sys2Proof.Machine.execCalRunEnd t res s
  | .trimRead h offset length => Sys2Proof.Machine.execTrimRead h offset length s
  | .trimSnapshotReady t => Sys2Proof.Machine.execTrimSnapshotReady t s
  | .trimWrite h => Sys2Proof.Machine.execTrimWrite h s
  | .trimWriteCheck t => Sys2Proof.Machine.execTrimWriteCheck t s
  | .mapCreate h asid op => Sys2Proof.Machine.execMapCreate h asid op s
  | .mapPage h p => Sys2Proof.Machine.execMapPage h p s
  | .mapPageDrainEnd t tag => Sys2Proof.Machine.execMapPageDrainEnd t tag s
  | .mapPin h asid op va size => Sys2Proof.Machine.execMapPin h asid op va size s
  | .marchRun h target form index => Sys2Proof.Machine.execMarchRun h target form index s
  | .marchRunEnd t fails => Sys2Proof.Machine.execMarchRunEnd t fails s
  | .shardBeginManifest h handle => Sys2Proof.Machine.execShardBeginManifest h handle s
  | .shardBeginShard h handle index => Sys2Proof.Machine.execShardBeginShard h handle index s
  | .shardBeginDiscard h handle => Sys2Proof.Machine.execShardBeginDiscard h handle s
  | .shardEnd h handle sigOk => Sys2Proof.Machine.execShardEnd h handle sigOk s
  | .shardTimeout t handle => Sys2Proof.Machine.execShardTimeout t handle s
  | .bundleCheckEnd t handle => Sys2Proof.Machine.execBundleCheckEnd t handle s
  | .redigestPass t => Sys2Proof.Machine.execRedigestPass t s
  | .slotProgram h slot handle map => Sys2Proof.Machine.execSlotProgram h slot handle map s
  | .slotProgramEnd t slot => Sys2Proof.Machine.execSlotProgramEnd t slot s
  | .slotActivate h slot handle => Sys2Proof.Machine.execSlotActivate h slot handle s
  | .slotDrainEnd t slot => Sys2Proof.Machine.execSlotDrainEnd t slot s
  | .slotReprogramEnd t slot => Sys2Proof.Machine.execSlotReprogramEnd t slot s
  | .slotRetire h slot => Sys2Proof.Machine.execSlotRetire h slot s
  | .slotRetireEnd t slot => Sys2Proof.Machine.execSlotRetireEnd t slot s
  | .prickLoadOpen h prk size => Sys2Proof.Machine.execPrickLoadOpen h prk size s
  | .prickLoadData h prk offset data => Sys2Proof.Machine.execPrickLoadData h prk offset data s
  | .prickLoadClose h prk => Sys2Proof.Machine.execPrickLoadClose h prk s
  | .prickLoadDiscard h prk => Sys2Proof.Machine.execPrickLoadDiscard h prk s
  | .jobAdmit h p => Sys2Proof.Machine.execJobAdmit h p s
  | .jobAdmitAccept t template => Sys2Proof.Machine.execJobAdmitAccept t template s
  | .jobSubmit h p => Sys2Proof.Machine.execJobSubmit h p s
  | .partialCapture h p capbuf mode => Sys2Proof.Machine.execPartialCapture h p capbuf mode s
  | .jobAbortLoose h ctx => Sys2Proof.Machine.execJobAbortLoose h ctx s
  | .jobAbortTemplate h template => Sys2Proof.Machine.execJobAbortTemplate h template s
  | .templateWithdrawn t template => Sys2Proof.Machine.execTemplateWithdrawn t template s
  | .tbConfig h p => Sys2Proof.Machine.execTbConfig h p s
  | .tbClaimClaim h unit action arg period target => Sys2Proof.Machine.execTbClaimClaim h unit action arg period target s
  | .tbClaimRelease h unit => Sys2Proof.Machine.execTbClaimRelease h unit s
  | .streamOpen h p => Sys2Proof.Machine.execStreamOpen h p s
  | .streamClose h stream => Sys2Proof.Machine.execStreamClose h stream s
  | .streamCloseEffect t stream => Sys2Proof.Machine.execStreamCloseEffect t stream s
  | .portConfigLink h p => Sys2Proof.Machine.execPortConfigLink h p s
  | .portConfigService h p => Sys2Proof.Machine.execPortConfigService h p s
  | .portConfigGates h p => Sys2Proof.Machine.execPortConfigGates h p s
  | .hcConfigEnable h p => Sys2Proof.Machine.execHcConfigEnable h p s
  | .hcConfigDisable h seq => Sys2Proof.Machine.execHcConfigDisable h seq s
  | .hcConfigMode h lp owTh => Sys2Proof.Machine.execHcConfigMode h lp owTh s
  | .hcSelfcal h => Sys2Proof.Machine.execHcSelfcal h s
  | .hcSelfcalEnd t res => Sys2Proof.Machine.execHcSelfcalEnd t res s
  | .hcReadData h => Sys2Proof.Machine.execHcReadData h s
  | .hcReadConvert h ch opt => Sys2Proof.Machine.execHcReadConvert h ch opt s
  | .hcReadUrgent h ch opt => Sys2Proof.Machine.execHcReadUrgent h ch opt s
  | .pkConfigEnable h streams origin => Sys2Proof.Machine.execPkConfigEnable h streams origin s
  | .pkConfigDisable h => Sys2Proof.Machine.execPkConfigDisable h s
  | .queueFlush h q => Sys2Proof.Machine.execQueueFlush h q s
  | .queueFlushEffect t q => Sys2Proof.Machine.execQueueFlushEffect t q s
  | .queueDrop h q write writer => Sys2Proof.Machine.execQueueDrop h q write writer s
  | .fwUpdateOpen h length => Sys2Proof.Machine.execFwUpdateOpen h length s
  | .fwUpdateClose h image => Sys2Proof.Machine.execFwUpdateClose h image s
  | .fwUpdateDiscard h => Sys2Proof.Machine.execFwUpdateDiscard h s
  | .flashWriteStageEnd t ok => Sys2Proof.Machine.execFlashWriteStageEnd t ok s
  | .attestForm h nonce => Sys2Proof.Machine.execAttestForm h nonce s
  | .attestRead h offset => Sys2Proof.Machine.execAttestRead h offset s
  | .dispatch t ecc => Sys2Proof.Machine.execDispatch t ecc s
  | .cmd0 t => Sys2Proof.Machine.execCmd0 t s
  | .cmd5 t => Sys2Proof.Machine.execCmd5 t s
  | .cmd11 t => Sys2Proof.Machine.execCmd11 t s
  | .cmd19 t => Sys2Proof.Machine.execCmd19 t s
  | .mailboxWrite t data crcOk => Sys2Proof.Machine.execMailboxWrite t data crcOk s
  | .mailboxPacketEnter t => Sys2Proof.Machine.execMailboxPacketEnter t s
  | .replyWindowRead t n ecc => Sys2Proof.Machine.execReplyWindowRead t n ecc s
  | .transportByteWrite t fn addr value => Sys2Proof.Machine.execTransportByteWrite t fn addr value s
  | .f2BlockWrite t data crcOk => Sys2Proof.Machine.execF2BlockWrite t data crcOk s
  | .f2BlockRead t => Sys2Proof.Machine.execF2BlockRead t s
  | .ioAbort t fn inCmd => Sys2Proof.Machine.execIoAbort t fn inCmd s
  | .ioReset t => Sys2Proof.Machine.execIoReset t s
  | .packetEnter t q => Sys2Proof.Machine.execPacketEnter t q s
  | .errorEntryEnter t cls => Sys2Proof.Machine.execErrorEntryEnter t cls s
  | .hostNoteDrain t => Sys2Proof.Machine.execHostNoteDrain t s
  | .recordMove t pillow ecc => Sys2Proof.Machine.execRecordMove t pillow ecc s
  | .encoderCount t a b => Sys2Proof.Machine.execEncoderCount t a b s
  | .indexPulse t => Sys2Proof.Machine.execIndexPulse t s
  | .threadTriggerEdge t pin rising => Sys2Proof.Machine.execThreadTriggerEdge t pin rising s
  | .pulseEnd t pin => Sys2Proof.Machine.execPulseEnd t pin s
  | .encoderLoss t pairs => Sys2Proof.Machine.execEncoderLoss t pairs s
  | .encoderLossEnd t => Sys2Proof.Machine.execEncoderLossEnd t s
  | .stall t => Sys2Proof.Machine.execStall t s
  | .stageReady t pillow ctx stage => Sys2Proof.Machine.execStageReady t pillow ctx stage s
  | .saveComplete t pillow => Sys2Proof.Machine.execSaveComplete t pillow s
  | .restoreComplete t pillow ecc => Sys2Proof.Machine.execRestoreComplete t pillow ecc s
  | .tokenConditioned t pillow => Sys2Proof.Machine.execTokenConditioned t pillow s
  | .passComplete t pillow noise => Sys2Proof.Machine.execPassComplete t pillow noise s
  | .epilogueWriteEnd t pillow => Sys2Proof.Machine.execEpilogueWriteEnd t pillow s
  | .dmaBurstComplete t pillow xfer => Sys2Proof.Machine.execDmaBurstComplete t pillow xfer s
  | .translationWalkEnd t pillow asid va ecc => Sys2Proof.Machine.execTranslationWalkEnd t pillow asid va ecc s
  | .tattingInstructionEnd t pillow => Sys2Proof.Machine.execTattingInstructionEnd t pillow s
  | .setlen t pillow => Sys2Proof.Machine.execSetlen t pillow s
  | .fenceWaitEnd t pillow => Sys2Proof.Machine.execFenceWaitEnd t pillow s
  | .windowWaitEnd t pillow => Sys2Proof.Machine.execWindowWaitEnd t pillow s
  | .recordCommit t pillow => Sys2Proof.Machine.execRecordCommit t pillow s
  | .faultWaitExpiry t ctx => Sys2Proof.Machine.execFaultWaitExpiry t ctx s
  | .streamFrame t port frame => Sys2Proof.Machine.execStreamFrame t port frame s
  | .linkDown t port => Sys2Proof.Machine.execLinkDown t port s
  | .linkUp t port => Sys2Proof.Machine.execLinkUp t port s
  | .arpRequest t port frame => Sys2Proof.Machine.execArpRequest t port frame s
  | .icmpEcho t port frame => Sys2Proof.Machine.execIcmpEcho t port frame s
  | .rasterPacket t port frame => Sys2Proof.Machine.execRasterPacket t port frame s
  | .ptpMessage t port m => Sys2Proof.Machine.execPtpMessage t port m s
  | .delayReq t port => Sys2Proof.Machine.execDelayReq t port s
  | .ptpSyncTimeout t => Sys2Proof.Machine.execPtpSyncTimeout t s
  | .gateEntryChange t sp => Sys2Proof.Machine.execGateEntryChange t sp s
  | .picotSlotEnd t picked => Sys2Proof.Machine.execPicotSlotEnd t picked s
  | .throwBurstEnd t => Sys2Proof.Machine.execThrowBurstEnd t s
  | .sequenceReady t seq => Sys2Proof.Machine.execSequenceReady t seq s
  | .conversionEnd t raw rawLo rawHi => Sys2Proof.Machine.execConversionEnd t raw rawLo rawHi s
  | .calibrationPass t pillow bobbin codes noise => Sys2Proof.Machine.execCalibrationPass t pillow bobbin codes noise s
  | .dwellEnd t pillow bobbin group res => Sys2Proof.Machine.execDwellEnd t pillow bobbin group res s
  | .levelScanEnd t pillow bobbin means => Sys2Proof.Machine.execLevelScanEnd t pillow bobbin means s
  | .sealEpoch t dev => Sys2Proof.Machine.execSealEpoch t dev s
  | .ageRefreshRequest t pillow logical => Sys2Proof.Machine.execAgeRefreshRequest t pillow logical s
  | .refreshStart t pillow => Sys2Proof.Machine.execRefreshStart t pillow s
  | .bobbinProgrammingStart t pillow => Sys2Proof.Machine.execBobbinProgrammingStart t pillow s
  | .bobbinProgrammingEnd t pillow bobbin vfail iters => Sys2Proof.Machine.execBobbinProgrammingEnd t pillow bobbin vfail iters s
  | .sramScrub t mem pillow addr ecc => Sys2Proof.Machine.execSramScrub t mem pillow addr ecc s
  | .hbmScrub t addr ecc => Sys2Proof.Machine.execHbmScrub t addr ecc s
  | .hbmLinkRetrain t stack channel ns ok => Sys2Proof.Machine.execHbmLinkRetrain t stack channel ns ok s
  | .mgmtCoreFault t core cause => Sys2Proof.Machine.execMgmtCoreFault t core cause s
  | .domainSwitched t => Sys2Proof.Machine.execDomainSwitched t s
  | .pwrgdFall t => Sys2Proof.Machine.execPwrgdFall t s
  | .nrstFall t => Sys2Proof.Machine.execNrstFall t s
  | .nrstRise t => Sys2Proof.Machine.execNrstRise t s
  | .strapLatch t pkd => Sys2Proof.Machine.execStrapLatch t pkd s
  | .watchdog t => Sys2Proof.Machine.execWatchdog t s
  | .internalResetEnd t => Sys2Proof.Machine.execInternalResetEnd t s
  | .thermalReading t die hbm => Sys2Proof.Machine.execThermalReading t die hbm s
  | .throttleStepFall t => Sys2Proof.Machine.execThrottleStepFall t s
  | .thermalTrip t => Sys2Proof.Machine.execThermalTrip t s
  | .thermalTripEnd t => Sys2Proof.Machine.execThermalTripEnd t s
  | .pllLock t marchOk => Sys2Proof.Machine.execPllLock t marchOk s
  | .firmwareLoadEnd t flash => Sys2Proof.Machine.execFirmwareLoadEnd t flash s
  | .firmwareInitEnd t => Sys2Proof.Machine.execFirmwareInitEnd t s
  | .debugToken t device challenge key sigOk => Sys2Proof.Machine.execDebugToken t device challenge key sigOk s
  | .tapInstruction t ins => Sys2Proof.Machine.execTapInstruction t ins s
  | .ptpMasterLost t => Sys2Proof.Machine.execPtpMasterLost t s
  | .frameTransmitEnd t sp => Sys2Proof.Machine.execFrameTransmitEnd t sp s
  | .cmd3 t => Sys2Proof.Machine.execCmd3 t s
  | .cmd7 t select => Sys2Proof.Machine.execCmd7 t select s
  | .cmd15 t => Sys2Proof.Machine.execCmd15 t s
  | .cccrWrite t addr value => Sys2Proof.Machine.execCccrWrite t addr value s
  | .transportByteRead t fn addr => Sys2Proof.Machine.execTransportByteRead t fn addr s
  | .tapReset t => Sys2Proof.Machine.execTapReset t s

end Sys2Proof.Machine
end

