-- ==== Sys2Proof/WellFormed.lean ====
section
/-! DEFINITION. Which terms of `Instr` stand for commands and events that can come about: every operand
fits the packet field that carries it (R403, R420 to R447), and every number of a part of the device names one that
exists (R2, R13, R27, R55, R261, R277, R360). What a command itself refuses (R404, R408) is well formed and refused by
its meaning. -/

namespace Sys2Proof

/-- Whether n fits a field of w bits. -/
def fitsBits (w n : Nat) : Bool := decide (n < 2 ^ w)

/-- Whether every number of a list fits a field of w bits. -/
def allFit (w : Nat) (l : List Nat) : Bool := l.all (fitsBits w)

/-- A header: PRIO is a 3-bit field (R403). -/
def hdrOk (h : Hdr) : Bool := fitsBits 3 h.prio

/-- WIN[0..15] (R435). -/
def winOk (l : List WinSpec) : Bool :=
  l.length == 16 && l.all fun w => fitsBits 48 w.base && fitsBits 16 w.pitch && fitsBits 16 w.depth

/-- JOB_ADMIT's fields (R435). -/
def admitOk (p : AdmitParams) : Bool :=
  fitsBits 16 p.template && fitsBits 8 p.prk && fitsBits 8 p.stream && fitsBits 16 p.asid && fitsBits 8 p.instances
    && allFit 32 [p.period, p.vRated, p.d, p.lag] && p.len.length == 4 && allFit 32 p.len && p.mapA.length == 48
    && allFit 8 p.mapA && p.mapB.length == 48 && allFit 8 p.mapB && winOk p.win

/-- JOB_SUBMIT's fields (R436). -/
def submitOk (p : SubmitParams) : Bool :=
  fitsBits 8 p.prk && fitsBits 8 p.port && fitsBits 16 p.asid && p.len.length == 4 && allFit 32 p.len
    && p.map.length == 48 && allFit 8 p.map && winOk p.win

/-- Channel options (R443). -/
def hcOptOk (o : HcOpt) : Bool := fitsBits 3 o.ext && fitsBits 2 o.ow && fitsBits 2 o.pullI

/-- One step of a house-converter sequence (R443). -/
def hcStepOk (x : HcStep) : Bool := fitsBits 8 x.ch && hcOptOk x.opt && fitsBits 16 x.lo && fitsBits 16 x.hi

/-- A pillow number (R2). -/
def pillowOk (p : Nat) : Bool := decide (p < 48)

/-- A physical bobbin of a pillow (R55). -/
def bobbinOk (p b : Nat) : Bool := pillowOk p && decide (b < 17)

/-- A measured element: a bobbin of the device, or 0 for a device-wide class (R340). -/
def measOk (m : Meas) : Bool := decide (m.bobbin < 816)

/-- What a CAL_RUN measured (R343). -/
def calResultOk (r : CalResult) : Bool :=
  r.meas.all measOk && r.failed6.all fun (b, c) => decide (b < 816) && decide (c < 264)

/-- A shuttle queue (R261). -/
def queueOk (q : Nat) : Bool := decide (q ≤ 50)

/-- Whether n lies in [lo, hi]. -/
def within (lo n hi : Nat) : Bool := decide (lo ≤ n) && decide (n ≤ hi)

/-- Which commands and events can come about. -/
def wellFormed : Instr → Bool
  | .devInfo h => hdrOk h
  | .devReset h _ => hdrOk h
  | .regRead h _ count => hdrOk h && fitsBits 16 count
  | .regWrite h _ vals => hdrOk h && fitsBits 16 vals.length
  | .hcDataRead h => hdrOk h
  | .tbWpLoRead h => hdrOk h
  | .pkPick0Read h => hdrOk h
  | .qcCommit h p => hdrOk h && pillowOk p
  | .wrReq h p logical => hdrOk h && pillowOk p && fitsBits 4 logical
  | .shqErrPop h _ => hdrOk h
  | .pwrReq h domain _ => hdrOk h && fitsBits 9 domain
  | .frCtrlEnter h => hdrOk h
  | .frCtrlLeave h => hdrOk h
  | .secArm h _ => hdrOk h
  | .secOpSeal h => hdrOk h
  | .secOpRevoke h _ => hdrOk h
  | .calRun h => hdrOk h
  | .calRunEnd _ r => calResultOk r
  | .trimRead h offset length => hdrOk h && allFit 32 [offset, length]
  | .trimSnapshotReady _ => true
  | .trimWrite h => hdrOk h
  | .trimWriteCheck _ => true
  | .mapCreate h asid op => hdrOk h && fitsBits 16 asid && fitsBits 8 op
  | .mapPage h p => hdrOk h && fitsBits 16 p.asid && fitsBits 8 p.op && allFit 64 [p.va, p.pa]
  | .mapPageDrainEnd _ _ => true
  | .mapPin h asid op va size => hdrOk h && fitsBits 16 asid && fitsBits 8 op && allFit 64 [va, size]
  | .marchRun h target form index => hdrOk h && allFit 8 [target, form, index]
  | .marchRunEnd _ _ => true
  | .shardBeginManifest h handle => hdrOk h && fitsBits 8 handle
  | .shardBeginShard h handle index => hdrOk h && fitsBits 8 handle && decide (index < 0xFFFF_FFFE)
  | .shardBeginDiscard h handle => hdrOk h && fitsBits 8 handle
  | .shardEnd h handle _ => hdrOk h && fitsBits 8 handle
  | .shardTimeout _ handle => decide (handle < 16)
  | .bundleCheckEnd _ handle => decide (handle < 16)
  | .redigestPass _ => true
  | .slotProgram h slot handle map => hdrOk h && allFit 8 [slot, handle] && map.length == 48 && allFit 8 map
  | .slotProgramEnd _ slot => decide (slot < 64)
  | .slotActivate h slot handle => hdrOk h && fitsBits 8 slot && handle.all fun k => decide (k < 255)
  | .slotDrainEnd _ slot => decide (slot < 64)
  | .slotReprogramEnd _ slot => decide (slot < 64)
  | .slotRetire h slot => hdrOk h && fitsBits 8 slot
  | .slotRetireEnd _ slot => decide (slot < 64)
  | .prickLoadOpen h prk size => hdrOk h && fitsBits 8 prk && fitsBits 32 size
  | .prickLoadData h prk offset data => hdrOk h && fitsBits 8 prk && fitsBits 32 offset && decide (data.length ≤ 496)
  | .prickLoadClose h prk => hdrOk h && fitsBits 8 prk
  | .prickLoadDiscard h prk => hdrOk h && fitsBits 8 prk
  | .jobAdmit h p => hdrOk h && admitOk p
  | .jobAdmitAccept _ template => decide (template < 256)
  | .jobSubmit h p => hdrOk h && submitOk p
  | .partialCapture h p capbuf mode => hdrOk h && submitOk p && fitsBits 48 capbuf && fitsBits 8 mode
  | .jobAbortLoose h ctx => hdrOk h && fitsBits 16 ctx
  | .jobAbortTemplate h template => hdrOk h && fitsBits 16 template
  | .templateWithdrawn _ template => decide (template < 256)
  | .tbConfig h p => hdrOk h && allFit 16 [p.num, p.den] && allFit 8 [p.filt, p.sheetSrc, p.sheetPin] && fitsBits 32 p.rep
      && fitsBits 48 p.wp
  | .tbClaimClaim h unit action arg period target => hdrOk h && unit.all (fun u => decide (u < 255))
      && allFit 8 [action, arg] && fitsBits 32 period && fitsBits 48 target
  | .tbClaimRelease h unit => hdrOk h && fitsBits 8 unit
  | .streamOpen h p => hdrOk h && allFit 8 [p.stream, p.primary, p.camera, p.pixfmt, p.rport]
      && p.secondary.all (fun q => decide (q < 255)) && allFit 16 [p.udp, p.pitch, p.depth] && fitsBits 48 p.origin
      && allFit 32 [p.sheetOfs, p.gbBase]
  | .streamClose h stream => hdrOk h && fitsBits 8 stream
  | .streamCloseEffect _ stream => decide (stream < 16)
  | .portConfigLink h p => hdrOk h && fitsBits 8 p.port && fitsBits 2 p.fec && p.mac.length == 6 && fitsBits 16 p.vid
      && p.ipv4.length == 4
  | .portConfigService h p => hdrOk h && allFit 8 [p.port, p.domain, p.maxRecs]
      && allFit 16 [p.rasterUdp, p.asid, p.srcUdp, p.dstUdp] && allFit 3 [p.pinClass, p.looseClass]
      && fitsBits 48 p.intakeBase && fitsBits 64 p.intakeSize && p.dstMac.length == 6 && p.dstIp.length == 4
  | .portConfigGates h p => hdrOk h && allFit 16 [p.first, p.total] && allFit 8 [p.port, p.entries.length]
      && p.entries.all (fun e => fitsBits 32 e.interval) && fitsBits 48 p.baseSec && fitsBits 32 p.baseNs
  | .hcConfigEnable h p => hdrOk h && fitsBits 8 p.seq && allFit 2 [p.pin, p.edge] && fitsBits 16 p.delay
      && decide (p.steps.length ≤ 8) && p.steps.all hcStepOk
  | .hcConfigDisable h seq => hdrOk h && fitsBits 8 seq
  | .hcConfigMode h _ owTh => hdrOk h && fitsBits 16 owTh
  | .hcSelfcal h => hdrOk h
  | .hcSelfcalEnd _ r => calResultOk r
  | .hcReadData h => hdrOk h
  | .hcReadConvert h ch opt => hdrOk h && fitsBits 8 ch && hcOptOk opt
  | .hcReadUrgent h ch opt => hdrOk h && fitsBits 8 ch && hcOptOk opt
  | .pkConfigEnable h _ origin => hdrOk h && fitsBits 48 origin
  | .pkConfigDisable h => hdrOk h
  | .queueFlush h q => hdrOk h && fitsBits 8 q
  | .queueFlushEffect _ q => queueOk q
  | .queueDrop h q _ writer => hdrOk h && allFit 8 [q, writer]
  | .fwUpdateOpen h length => hdrOk h && fitsBits 32 length
  | .fwUpdateClose h _ => hdrOk h
  | .fwUpdateDiscard h => hdrOk h
  | .flashWriteStageEnd _ _ => true
  | .attestForm h nonce => hdrOk h && nonce.length == 32
  | .attestRead h offset => hdrOk h && fitsBits 32 offset
  | .dispatch _ _ => true
  | .cmd0 _ => true
  | .cmd5 _ => true
  | .cmd11 _ => true
  | .cmd19 _ => true
  | .mailboxWrite _ data _ => decide (data.length ≤ 2048)
  | .mailboxPacketEnter _ => true
  | .replyWindowRead _ n _ => within 1 n 2048
  | .transportByteWrite _ fn addr _ => decide (fn ≤ 2) && fitsBits 17 addr
  | .f2BlockWrite _ data _ => within 1 data.length 2048
  | .f2BlockRead _ => true
  | .ioAbort _ fn _ => decide (fn ≤ 7)
  | .ioReset _ => true
  | .packetEnter _ q => queueOk q
  | .errorEntryEnter _ cls => decide (cls < 32)
  | .hostNoteDrain _ => true
  | .recordMove _ p _ => pillowOk p
  | .encoderCount _ _ _ => true
  | .indexPulse _ => true
  | .threadTriggerEdge _ pin _ => decide (pin < 4)
  | .pulseEnd _ pin => decide (pin < 4)
  | .encoderLoss _ _ => true
  | .encoderLossEnd _ => true
  | .stall _ => true
  | .stageReady _ p ctx stage => pillowOk p && decide (ctx < 16384) && fitsBits 8 stage
  | .saveComplete _ p => pillowOk p
  | .restoreComplete _ p _ => pillowOk p
  | .tokenConditioned _ p => pillowOk p
  | .passComplete _ p _ => pillowOk p
  | .epilogueWriteEnd _ p => pillowOk p
  | .dmaBurstComplete _ p _ => pillowOk p
  | .translationWalkEnd _ p asid va _ => pillowOk p && decide (asid < 1024) && fitsBits 48 va
  | .tattingInstructionEnd _ p => pillowOk p
  | .setlen _ p => pillowOk p
  | .fenceWaitEnd _ p => pillowOk p
  | .windowWaitEnd _ p => pillowOk p
  | .recordCommit _ p => pillowOk p
  | .faultWaitExpiry _ ctx => decide (ctx < 16384)
  | .streamFrame _ port _ => decide (port < 16)
  | .linkDown _ e => decide (e.port < 18)
  | .linkUp _ e => decide (e.port < 18) && !e.hiBer
  | .arpRequest _ port _ => within 16 port 17
  | .icmpEcho _ port _ => within 16 port 17
  | .rasterPacket _ port _ => within 16 port 17
  | .ptpMessage _ port _ => within 16 port 17
  | .delayReq _ port => within 16 port 17
  | .ptpSyncTimeout _ => true
  | .gateEntryChange _ sp => decide (sp < 2)
  | .picotSlotEnd _ picked => picked.length == 8
  | .throwBurstEnd _ => true
  | .sequenceReady _ seq => decide (seq < 16)
  | .conversionEnd _ _ _ _ => true
  | .calibrationPass _ p b _ _ => bobbinOk p b
  | .dwellEnd _ p b _ res => bobbinOk p b && res.all measOk
  | .levelScanEnd _ p b _ => bobbinOk p b
  | .sealEpoch _ _ => true
  | .ageRefreshRequest _ p logical => pillowOk p && decide (logical < 16)
  | .refreshStart _ p => pillowOk p
  | .bobbinProgrammingStart _ p => pillowOk p
  | .bobbinProgrammingEnd _ p b _ _ => bobbinOk p b
  | .sramScrub _ _ p _ _ => pillowOk p
  | .hbmScrub _ addr _ => decide (addr < 0xC_0000_0000)
  | .hbmLinkRetrain _ stack channel _ _ => decide (stack < 2) && fitsBits 8 channel
  | .mgmtCoreFault _ core _ => within 1 core 4
  | .domainSwitched _ => true
  | .pwrgdFall _ => true
  | .nrstFall _ => true
  | .nrstRise _ => true
  | .strapLatch _ _ => true
  | .watchdog _ => true
  | .internalResetEnd _ => true
  | .thermalReading _ die hbm => die.length == 4 && hbm.length == 2
  | .throttleStepFall _ => true
  | .thermalTrip _ => true
  | .thermalTripEnd _ => true
  | .pllLock _ _ => true
  | .firmwareLoadEnd _ _ => true
  | .firmwareInitEnd _ => true
  | .debugToken _ _ _ key _ => fitsBits 8 key
  | .tapInstruction _ _ => true
  | .ptpMasterLost _ => true
  | .frameTransmitEnd _ sp => decide (sp < 2)
  | .cmd3 _ => true
  | .cmd7 _ _ => true
  | .cmd15 _ => true
  | .cccrWrite _ addr _ => fitsBits 17 addr
  | .transportByteRead _ fn addr => decide (fn ≤ 2) && fitsBits 17 addr
  | .tapReset _ => true

end Sys2Proof
end

