-- ==== Sys2Proof/Safety.lean ====
section
/-! DEFINITION. The words the statements are made of: when a command comes about, which commands are host packets,
what an answered command shows, and which sequences of states are runs. -/

namespace Sys2Proof.Machine

/-- The header of a host command's packet (R403); an event has none. -/
def hdrOf : Instr → Option Hdr
  | .devInfo h => some h
  | .devReset h _ => some h
  | .regRead h _ _ => some h
  | .regWrite h _ _ => some h
  | .hcDataRead h => some h
  | .tbWpLoRead h => some h
  | .pkPick0Read h => some h
  | .qcCommit h _ => some h
  | .wrReq h _ _ => some h
  | .shqErrPop h _ => some h
  | .pwrReq h _ _ => some h
  | .frCtrlEnter h => some h
  | .frCtrlLeave h => some h
  | .secArm h _ => some h
  | .secOpSeal h => some h
  | .secOpRevoke h _ => some h
  | .calRun h => some h
  | .calRunEnd _ _ => none
  | .trimRead h _ _ => some h
  | .trimSnapshotReady _ => none
  | .trimWrite h => some h
  | .trimWriteCheck _ => none
  | .mapCreate h _ _ => some h
  | .mapPage h _ => some h
  | .mapPageDrainEnd _ _ => none
  | .mapPin h _ _ _ _ => some h
  | .marchRun h _ _ _ => some h
  | .marchRunEnd _ _ => none
  | .shardBeginManifest h _ => some h
  | .shardBeginShard h _ _ => some h
  | .shardBeginDiscard h _ => some h
  | .shardEnd h _ _ => some h
  | .shardTimeout _ _ => none
  | .bundleCheckEnd _ _ => none
  | .redigestPass _ => none
  | .slotProgram h _ _ _ => some h
  | .slotProgramEnd _ _ => none
  | .slotActivate h _ _ => some h
  | .slotDrainEnd _ _ => none
  | .slotReprogramEnd _ _ => none
  | .slotRetire h _ => some h
  | .slotRetireEnd _ _ => none
  | .prickLoadOpen h _ _ => some h
  | .prickLoadData h _ _ _ => some h
  | .prickLoadClose h _ => some h
  | .prickLoadDiscard h _ => some h
  | .jobAdmit h _ => some h
  | .jobAdmitAccept _ _ => none
  | .jobSubmit h _ => some h
  | .partialCapture h _ _ _ => some h
  | .jobAbortLoose h _ => some h
  | .jobAbortTemplate h _ => some h
  | .templateWithdrawn _ _ => none
  | .tbConfig h _ => some h
  | .tbClaimClaim h _ _ _ _ _ => some h
  | .tbClaimRelease h _ => some h
  | .streamOpen h _ => some h
  | .streamClose h _ => some h
  | .streamCloseEffect _ _ => none
  | .portConfigLink h _ => some h
  | .portConfigService h _ => some h
  | .portConfigGates h _ => some h
  | .hcConfigEnable h _ => some h
  | .hcConfigDisable h _ => some h
  | .hcConfigMode h _ _ => some h
  | .hcSelfcal h => some h
  | .hcSelfcalEnd _ _ => none
  | .hcReadData h => some h
  | .hcReadConvert h _ _ => some h
  | .hcReadUrgent h _ _ => some h
  | .pkConfigEnable h _ _ => some h
  | .pkConfigDisable h => some h
  | .queueFlush h _ => some h
  | .queueFlushEffect _ _ => none
  | .queueDrop h _ _ _ => some h
  | .fwUpdateOpen h _ => some h
  | .fwUpdateClose h _ => some h
  | .fwUpdateDiscard h => some h
  | .flashWriteStageEnd _ _ => none
  | .attestForm h _ => some h
  | .attestRead h _ => some h
  | .dispatch _ _ => none
  | .cmd0 _ => none
  | .cmd5 _ => none
  | .cmd11 _ => none
  | .cmd19 _ => none
  | .mailboxWrite _ _ _ => none
  | .mailboxPacketEnter _ => none
  | .replyWindowRead _ _ _ => none
  | .transportByteWrite _ _ _ _ => none
  | .f2BlockWrite _ _ _ => none
  | .f2BlockRead _ => none
  | .ioAbort _ _ _ => none
  | .ioReset _ => none
  | .packetEnter _ _ => none
  | .errorEntryEnter _ _ => none
  | .hostNoteDrain _ => none
  | .recordMove _ _ _ => none
  | .encoderCount _ _ _ => none
  | .indexPulse _ => none
  | .threadTriggerEdge _ _ _ => none
  | .pulseEnd _ _ => none
  | .encoderLoss _ _ => none
  | .encoderLossEnd _ => none
  | .stall _ => none
  | .stageReady _ _ _ _ => none
  | .saveComplete _ _ => none
  | .restoreComplete _ _ _ => none
  | .tokenConditioned _ _ => none
  | .passComplete _ _ _ => none
  | .epilogueWriteEnd _ _ => none
  | .dmaBurstComplete _ _ _ => none
  | .translationWalkEnd _ _ _ _ _ => none
  | .tattingInstructionEnd _ _ => none
  | .setlen _ _ => none
  | .fenceWaitEnd _ _ => none
  | .windowWaitEnd _ _ => none
  | .recordCommit _ _ => none
  | .faultWaitExpiry _ _ => none
  | .streamFrame _ _ _ => none
  | .linkDown _ _ => none
  | .linkUp _ _ => none
  | .arpRequest _ _ _ => none
  | .icmpEcho _ _ _ => none
  | .rasterPacket _ _ _ => none
  | .ptpMessage _ _ _ => none
  | .delayReq _ _ => none
  | .ptpSyncTimeout _ => none
  | .gateEntryChange _ _ => none
  | .picotSlotEnd _ _ => none
  | .throwBurstEnd _ => none
  | .sequenceReady _ _ => none
  | .conversionEnd _ _ _ _ => none
  | .calibrationPass _ _ _ _ _ => none
  | .dwellEnd _ _ _ _ _ => none
  | .levelScanEnd _ _ _ _ => none
  | .sealEpoch _ _ => none
  | .ageRefreshRequest _ _ _ => none
  | .refreshStart _ _ => none
  | .bobbinProgrammingStart _ _ => none
  | .bobbinProgrammingEnd _ _ _ _ _ => none
  | .sramScrub _ _ _ _ _ => none
  | .hbmScrub _ _ _ => none
  | .hbmLinkRetrain _ _ _ _ _ => none
  | .mgmtCoreFault _ _ _ => none
  | .domainSwitched _ => none
  | .pwrgdFall _ => none
  | .nrstFall _ => none
  | .nrstRise _ => none
  | .strapLatch _ _ => none
  | .watchdog _ => none
  | .internalResetEnd _ => none
  | .thermalReading _ _ _ => none
  | .throttleStepFall _ => none
  | .thermalTrip _ => none
  | .thermalTripEnd _ => none
  | .pllLock _ _ => none
  | .firmwareLoadEnd _ _ => none
  | .firmwareInitEnd _ => none
  | .debugToken _ _ _ _ _ => none
  | .tapInstruction _ _ => none
  | .ptpMasterLost _ => none
  | .frameTransmitEnd _ _ => none
  | .cmd3 _ => none
  | .cmd7 _ _ => none
  | .cmd15 _ => none
  | .cccrWrite _ _ _ => none
  | .transportByteRead _ _ _ => none
  | .tapReset _ => none

/-- The device time at which a command or event comes about (R21). -/
def timeOf : Instr → Nat
  | .devInfo h => h.t
  | .devReset h _ => h.t
  | .regRead h _ _ => h.t
  | .regWrite h _ _ => h.t
  | .hcDataRead h => h.t
  | .tbWpLoRead h => h.t
  | .pkPick0Read h => h.t
  | .qcCommit h _ => h.t
  | .wrReq h _ _ => h.t
  | .shqErrPop h _ => h.t
  | .pwrReq h _ _ => h.t
  | .frCtrlEnter h => h.t
  | .frCtrlLeave h => h.t
  | .secArm h _ => h.t
  | .secOpSeal h => h.t
  | .secOpRevoke h _ => h.t
  | .calRun h => h.t
  | .calRunEnd t _ => t
  | .trimRead h _ _ => h.t
  | .trimSnapshotReady t => t
  | .trimWrite h => h.t
  | .trimWriteCheck t => t
  | .mapCreate h _ _ => h.t
  | .mapPage h _ => h.t
  | .mapPageDrainEnd t _ => t
  | .mapPin h _ _ _ _ => h.t
  | .marchRun h _ _ _ => h.t
  | .marchRunEnd t _ => t
  | .shardBeginManifest h _ => h.t
  | .shardBeginShard h _ _ => h.t
  | .shardBeginDiscard h _ => h.t
  | .shardEnd h _ _ => h.t
  | .shardTimeout t _ => t
  | .bundleCheckEnd t _ => t
  | .redigestPass t => t
  | .slotProgram h _ _ _ => h.t
  | .slotProgramEnd t _ => t
  | .slotActivate h _ _ => h.t
  | .slotDrainEnd t _ => t
  | .slotReprogramEnd t _ => t
  | .slotRetire h _ => h.t
  | .slotRetireEnd t _ => t
  | .prickLoadOpen h _ _ => h.t
  | .prickLoadData h _ _ _ => h.t
  | .prickLoadClose h _ => h.t
  | .prickLoadDiscard h _ => h.t
  | .jobAdmit h _ => h.t
  | .jobAdmitAccept t _ => t
  | .jobSubmit h _ => h.t
  | .partialCapture h _ _ _ => h.t
  | .jobAbortLoose h _ => h.t
  | .jobAbortTemplate h _ => h.t
  | .templateWithdrawn t _ => t
  | .tbConfig h _ => h.t
  | .tbClaimClaim h _ _ _ _ _ => h.t
  | .tbClaimRelease h _ => h.t
  | .streamOpen h _ => h.t
  | .streamClose h _ => h.t
  | .streamCloseEffect t _ => t
  | .portConfigLink h _ => h.t
  | .portConfigService h _ => h.t
  | .portConfigGates h _ => h.t
  | .hcConfigEnable h _ => h.t
  | .hcConfigDisable h _ => h.t
  | .hcConfigMode h _ _ => h.t
  | .hcSelfcal h => h.t
  | .hcSelfcalEnd t _ => t
  | .hcReadData h => h.t
  | .hcReadConvert h _ _ => h.t
  | .hcReadUrgent h _ _ => h.t
  | .pkConfigEnable h _ _ => h.t
  | .pkConfigDisable h => h.t
  | .queueFlush h _ => h.t
  | .queueFlushEffect t _ => t
  | .queueDrop h _ _ _ => h.t
  | .fwUpdateOpen h _ => h.t
  | .fwUpdateClose h _ => h.t
  | .fwUpdateDiscard h => h.t
  | .flashWriteStageEnd t _ => t
  | .attestForm h _ => h.t
  | .attestRead h _ => h.t
  | .dispatch t _ => t
  | .cmd0 t => t
  | .cmd5 t => t
  | .cmd11 t => t
  | .cmd19 t => t
  | .mailboxWrite t _ _ => t
  | .mailboxPacketEnter t => t
  | .replyWindowRead t _ _ => t
  | .transportByteWrite t _ _ _ => t
  | .f2BlockWrite t _ _ => t
  | .f2BlockRead t => t
  | .ioAbort t _ _ => t
  | .ioReset t => t
  | .packetEnter t _ => t
  | .errorEntryEnter t _ => t
  | .hostNoteDrain t => t
  | .recordMove t _ _ => t
  | .encoderCount t _ _ => t
  | .indexPulse t => t
  | .threadTriggerEdge t _ _ => t
  | .pulseEnd t _ => t
  | .encoderLoss t _ => t
  | .encoderLossEnd t => t
  | .stall t => t
  | .stageReady t _ _ _ => t
  | .saveComplete t _ => t
  | .restoreComplete t _ _ => t
  | .tokenConditioned t _ => t
  | .passComplete t _ _ => t
  | .epilogueWriteEnd t _ => t
  | .dmaBurstComplete t _ _ => t
  | .translationWalkEnd t _ _ _ _ => t
  | .tattingInstructionEnd t _ => t
  | .setlen t _ => t
  | .fenceWaitEnd t _ => t
  | .windowWaitEnd t _ => t
  | .recordCommit t _ => t
  | .faultWaitExpiry t _ => t
  | .streamFrame t _ _ => t
  | .linkDown t _ => t
  | .linkUp t _ => t
  | .arpRequest t _ _ => t
  | .icmpEcho t _ _ => t
  | .rasterPacket t _ _ => t
  | .ptpMessage t _ _ => t
  | .delayReq t _ => t
  | .ptpSyncTimeout t => t
  | .gateEntryChange t _ => t
  | .picotSlotEnd t _ => t
  | .throwBurstEnd t => t
  | .sequenceReady t _ => t
  | .conversionEnd t _ _ _ => t
  | .calibrationPass t _ _ _ _ => t
  | .dwellEnd t _ _ _ _ => t
  | .levelScanEnd t _ _ _ => t
  | .sealEpoch t _ => t
  | .ageRefreshRequest t _ _ => t
  | .refreshStart t _ => t
  | .bobbinProgrammingStart t _ => t
  | .bobbinProgrammingEnd t _ _ _ _ => t
  | .sramScrub t _ _ _ _ => t
  | .hbmScrub t _ _ => t
  | .hbmLinkRetrain t _ _ _ _ => t
  | .mgmtCoreFault t _ _ => t
  | .domainSwitched t => t
  | .pwrgdFall t => t
  | .nrstFall t => t
  | .nrstRise t => t
  | .strapLatch t _ => t
  | .watchdog t => t
  | .internalResetEnd t => t
  | .thermalReading t _ _ => t
  | .throttleStepFall t => t
  | .thermalTrip t => t
  | .thermalTripEnd t => t
  | .pllLock t _ => t
  | .firmwareLoadEnd t _ => t
  | .firmwareInitEnd t => t
  | .debugToken t _ _ _ _ => t
  | .tapInstruction t _ => t
  | .ptpMasterLost t => t
  | .frameTransmitEnd t _ => t
  | .cmd3 t => t
  | .cmd7 t _ => t
  | .cmd15 t => t
  | .cccrWrite t _ _ => t
  | .transportByteRead t _ _ => t
  | .tapReset t => t

/-- The opcode of a host command (R402), its form, and whether it is a register access to the SEC block (R417). A
register access with a row of its own is a REG_READ or REG_WRITE. -/
def opcodeOf : Instr → Option (Nat × Nat × Bool)
  | .devInfo _ => some (Op.devInfo, 0, false)
  | .devReset _ _ => some (Op.devReset, 0, false)
  | .regRead _ addr _ => some (Op.regRead, 0, addr.toNat / 2 ^ 16 == 8)
  | .regWrite _ addr _ => some (Op.regWrite, 0, addr.toNat / 2 ^ 16 == 8)
  | .hcDataRead _ => some (Op.regRead, 0, false)
  | .tbWpLoRead _ => some (Op.regRead, 0, false)
  | .pkPick0Read _ => some (Op.regRead, 0, false)
  | .qcCommit _ _ => some (Op.regWrite, 0, false)
  | .wrReq _ _ _ => some (Op.regWrite, 0, false)
  | .shqErrPop _ _ => some (Op.regWrite, 0, false)
  | .pwrReq _ _ _ => some (Op.regWrite, 0, false)
  | .frCtrlEnter _ => some (Op.regWrite, 0, false)
  | .frCtrlLeave _ => some (Op.regWrite, 0, false)
  | .secArm _ _ => some (Op.regWrite, 0, true)
  | .secOpSeal _ => some (Op.regWrite, 0, true)
  | .secOpRevoke _ _ => some (Op.regWrite, 0, true)
  | .calRun _ => some (Op.calRun, 0, false)
  | .calRunEnd _ _ => none
  | .trimRead _ _ _ => some (Op.trimRead, 0, false)
  | .trimSnapshotReady _ => none
  | .trimWrite _ => some (Op.trimWrite, 0, false)
  | .trimWriteCheck _ => none
  | .mapCreate _ _ _ => some (Op.mapCreate, 0, false)
  | .mapPage _ _ => some (Op.mapPage, 0, false)
  | .mapPageDrainEnd _ _ => none
  | .mapPin _ _ _ _ _ => some (Op.mapPin, 0, false)
  | .marchRun _ _ _ _ => some (Op.marchRun, 0, false)
  | .marchRunEnd _ _ => none
  | .shardBeginManifest _ _ => some (Op.shardBegin, 0, false)
  | .shardBeginShard _ _ _ => some (Op.shardBegin, 0, false)
  | .shardBeginDiscard _ _ => some (Op.shardBegin, 0, false)
  | .shardEnd _ _ _ => some (Op.shardEnd, 0, false)
  | .shardTimeout _ _ => none
  | .bundleCheckEnd _ _ => none
  | .redigestPass _ => none
  | .slotProgram _ _ _ _ => some (Op.slotProgram, 0, false)
  | .slotProgramEnd _ _ => none
  | .slotActivate _ _ _ => some (Op.slotActivate, 0, false)
  | .slotDrainEnd _ _ => none
  | .slotReprogramEnd _ _ => none
  | .slotRetire _ _ => some (Op.slotRetire, 0, false)
  | .slotRetireEnd _ _ => none
  | .prickLoadOpen _ _ _ => some (Op.prickLoad, 0, false)
  | .prickLoadData _ _ _ _ => some (Op.prickLoad, 1, false)
  | .prickLoadClose _ _ => some (Op.prickLoad, 2, false)
  | .prickLoadDiscard _ _ => some (Op.prickLoad, 3, false)
  | .jobAdmit _ _ => some (Op.jobAdmit, 0, false)
  | .jobAdmitAccept _ _ => none
  | .jobSubmit _ _ => some (Op.jobSubmit, 0, false)
  | .partialCapture _ _ _ _ => some (Op.partialCapture, 0, false)
  | .jobAbortLoose _ _ => some (Op.jobAbort, 1, false)
  | .jobAbortTemplate _ _ => some (Op.jobAbort, 0, false)
  | .templateWithdrawn _ _ => none
  | .tbConfig _ _ => some (Op.tbConfig, 0, false)
  | .tbClaimClaim _ _ _ _ _ _ => some (Op.tbClaim, 0, false)
  | .tbClaimRelease _ _ => some (Op.tbClaim, 1, false)
  | .streamOpen _ _ => some (Op.streamOpen, 0, false)
  | .streamClose _ _ => some (Op.streamClose, 0, false)
  | .streamCloseEffect _ _ => none
  | .portConfigLink _ _ => some (Op.portConfig, 0, false)
  | .portConfigService _ _ => some (Op.portConfig, 1, false)
  | .portConfigGates _ _ => some (Op.portConfig, 2, false)
  | .hcConfigEnable _ _ => some (Op.hcConfig, 0, false)
  | .hcConfigDisable _ _ => some (Op.hcConfig, 1, false)
  | .hcConfigMode _ _ _ => some (Op.hcConfig, 2, false)
  | .hcSelfcal _ => some (Op.hcSelfcal, 0, false)
  | .hcSelfcalEnd _ _ => none
  | .hcReadData _ => some (Op.hcRead, 0, false)
  | .hcReadConvert _ _ _ => some (Op.hcRead, 1, false)
  | .hcReadUrgent _ _ _ => some (Op.hcRead, 2, false)
  | .pkConfigEnable _ _ _ => some (Op.pkConfig, 0, false)
  | .pkConfigDisable _ => some (Op.pkConfig, 1, false)
  | .queueFlush _ _ => some (Op.queueFlush, 0, false)
  | .queueFlushEffect _ _ => none
  | .queueDrop _ _ _ _ => some (Op.queueDrop, 0, false)
  | .fwUpdateOpen _ _ => some (Op.fwUpdate, 0, false)
  | .fwUpdateClose _ _ => some (Op.fwUpdate, 0, false)
  | .fwUpdateDiscard _ => some (Op.fwUpdate, 0, false)
  | .flashWriteStageEnd _ _ => none
  | .attestForm _ _ => some (Op.attest, 0, false)
  | .attestRead _ _ => some (Op.attest, 0, false)
  | .dispatch _ _ => none
  | .cmd0 _ => none
  | .cmd5 _ => none
  | .cmd11 _ => none
  | .cmd19 _ => none
  | .mailboxWrite _ _ _ => none
  | .mailboxPacketEnter _ => none
  | .replyWindowRead _ _ _ => none
  | .transportByteWrite _ _ _ _ => none
  | .f2BlockWrite _ _ _ => none
  | .f2BlockRead _ => none
  | .ioAbort _ _ _ => none
  | .ioReset _ => none
  | .packetEnter _ _ => none
  | .errorEntryEnter _ _ => none
  | .hostNoteDrain _ => none
  | .recordMove _ _ _ => none
  | .encoderCount _ _ _ => none
  | .indexPulse _ => none
  | .threadTriggerEdge _ _ _ => none
  | .pulseEnd _ _ => none
  | .encoderLoss _ _ => none
  | .encoderLossEnd _ => none
  | .stall _ => none
  | .stageReady _ _ _ _ => none
  | .saveComplete _ _ => none
  | .restoreComplete _ _ _ => none
  | .tokenConditioned _ _ => none
  | .passComplete _ _ _ => none
  | .epilogueWriteEnd _ _ => none
  | .dmaBurstComplete _ _ _ => none
  | .translationWalkEnd _ _ _ _ _ => none
  | .tattingInstructionEnd _ _ => none
  | .setlen _ _ => none
  | .fenceWaitEnd _ _ => none
  | .windowWaitEnd _ _ => none
  | .recordCommit _ _ => none
  | .faultWaitExpiry _ _ => none
  | .streamFrame _ _ _ => none
  | .linkDown _ _ => none
  | .linkUp _ _ => none
  | .arpRequest _ _ _ => none
  | .icmpEcho _ _ _ => none
  | .rasterPacket _ _ _ => none
  | .ptpMessage _ _ _ => none
  | .delayReq _ _ => none
  | .ptpSyncTimeout _ => none
  | .gateEntryChange _ _ => none
  | .picotSlotEnd _ _ => none
  | .throwBurstEnd _ => none
  | .sequenceReady _ _ => none
  | .conversionEnd _ _ _ _ => none
  | .calibrationPass _ _ _ _ _ => none
  | .dwellEnd _ _ _ _ _ => none
  | .levelScanEnd _ _ _ _ => none
  | .sealEpoch _ _ => none
  | .ageRefreshRequest _ _ _ => none
  | .refreshStart _ _ => none
  | .bobbinProgrammingStart _ _ => none
  | .bobbinProgrammingEnd _ _ _ _ _ => none
  | .sramScrub _ _ _ _ _ => none
  | .hbmScrub _ _ _ => none
  | .hbmLinkRetrain _ _ _ _ _ => none
  | .mgmtCoreFault _ _ _ => none
  | .domainSwitched _ => none
  | .pwrgdFall _ => none
  | .nrstFall _ => none
  | .nrstRise _ => none
  | .strapLatch _ _ => none
  | .watchdog _ => none
  | .internalResetEnd _ => none
  | .thermalReading _ _ _ => none
  | .throttleStepFall _ => none
  | .thermalTrip _ => none
  | .thermalTripEnd _ => none
  | .pllLock _ _ => none
  | .firmwareLoadEnd _ _ => none
  | .firmwareInitEnd _ => none
  | .debugToken _ _ _ _ _ => none
  | .tapInstruction _ _ => none
  | .ptpMasterLost _ => none
  | .frameTransmitEnd _ _ => none
  | .cmd3 _ => none
  | .cmd7 _ _ => none
  | .cmd15 _ => none
  | .cccrWrite _ _ _ => none
  | .transportByteRead _ _ _ => none
  | .tapReset _ => none

/-- What a queue holds once a writer has presented a packet (R263, R264): behind every visible packet where all its
items fit and no other writer waits, else among the waiting writers in the order they are granted. -/
def Queue.joined (q : Nat) (p : QPacket) (x : Queue) : Queue :=
  if x.wait.isEmpty && x.wpart.isNone && x.fits q p.items then { x with vis := x.vis ++ [p] }
  else { x with wait := insertWaiting p x.wait, fullSeen := true }

/-- The one reply that command h gets between s and t (R405, R411): it carries the command's PRIO and TAG and the
device time of t, and joins the reply queue; every other queue is as it was. -/
def Replied (h : Hdr) (op status : Nat) (payload : Bytes) (s t : State) : Prop :=
  (∃ w, t.queue 1 = (s.queue 1).joined 1
    { prio := h.prio, writer := w, tag := h.tag, data := replyBytes op status t.now h.tag payload })
  ∧ ∀ q, q ≠ 1 → t.queue q = s.queue q

/-- Nothing of the dispatcher but the commands in hand differs (R412, R415). -/
def SameButHands (s t : State) : Prop := t.mgmt = { s.mgmt with busy := t.mgmt.busy, fast := t.mgmt.fast }

/-- Command c, with header h and opcode op, answers OK with a payload: at the command's device time its effect on the
state is f, and beside it only the one reply and the commands in hand differ (R404 to R406, R415). -/
def Answers (c : Instr) (h : Hdr) (op : Nat) (payload : State → Bytes) (f : State → State) (s : State) : Prop :=
  ∃ t, exec c s = .next t ∧ Replied h op Status.ok (payload (s.advance h.t)) (f (s.advance h.t)) t
    ∧ SameButHands (f (s.advance h.t)) t
    ∧ t = { f (s.advance h.t) with queues := t.queues, mgmt := t.mgmt }

/-- Command c is refused with a status and payload: beside device time only the one reply and the commands in hand
differ (R404). -/
def Refuses (c : Instr) (h : Hdr) (op : Nat) (r : Reject) (s : State) : Prop :=
  ∃ t, exec c s = .next t ∧ Replied h op r.status r.payload s t ∧ SameButHands s t
    ∧ t = { s with now := max s.now h.t, queues := t.queues, mgmt := t.mgmt }

/-- Command c is accepted and replies later (R406, R415): at its own device time its effect on the state is f, and only
the commands in hand differ beside it. -/
def Accepts (c : Instr) (h : Hdr) (f : State → State) (s : State) : Prop :=
  ∃ t, exec c s = .next t ∧ SameButHands (f (s.advance h.t)) t
    ∧ t = { f (s.advance h.t) with mgmt := t.mgmt }

/-- No pillow has work: nothing runs, stands by, waits or is saved on any of them (R38, R246). -/
def Quiet (s : State) : Prop :=
  ∀ p, (s.pillow p).run = none ∧ (s.pillow p).standby = none ∧ (s.pillow p).readyQ = [] ∧ (s.pillow p).looseQ = []
    ∧ (s.pillow p).saves = []

/-! ## The parts of the device -/

/-- A part of the device that only some commands act on. -/
inductive Part where
  | prickings
  | hcChannels
  | ptpPorts
  | thermal
  | errorWindow
  | slots
  | streams
  | timeBase
  deriving DecidableEq, Repr

/-- Whether a part stands as it did. -/
def samePart (p : Part) (s t : State) : Prop :=
  match p with
  | .prickings => t.pricks = s.pricks
  | .hcChannels => t.chans = s.chans
  | .ptpPorts => t.ptpPorts = s.ptpPorts
  | .thermal => t.therm = s.therm
  | .errorWindow => t.errw = s.errw
  | .slots => t.slots = s.slots
  | .streams => t.streams = s.streams
  | .timeBase => t.tb = s.tb

/-- The commands and events that put the device into reset (R475). -/
def isReset : Instr → Bool
  | .devReset _ _ => true
  | .nrstFall _ => true
  | .watchdog _ => true
  | .thermalTrip _ => true
  | _ => false

/-- The commands and events that act on a part of the device, beside a reset. -/
def actsOn : Part → Instr → Bool
  | .prickings, .prickLoadOpen _ _ _ => true
  | .prickings, .prickLoadData _ _ _ _ => true
  | .prickings, .prickLoadClose _ _ => true
  | .prickings, .prickLoadDiscard _ _ => true
  | .hcChannels, .hcConfigEnable _ _ => true
  | .hcChannels, .hcConfigDisable _ _ => true
  | .hcChannels, .conversionEnd _ _ _ _ => true
  | .ptpPorts, .portConfigLink _ _ => true
  | .ptpPorts, .ptpMessage _ _ _ => true
  | .ptpPorts, .ptpMasterLost _ => true
  | .thermal, .thermalReading _ _ _ => true
  | .thermal, .throttleStepFall _ => true
  | .thermal, .regRead _ _ _ => true
  | .thermal, .regWrite _ _ _ => true
  | .errorWindow, .shqErrPop _ _ => true
  | .errorWindow, .regWrite _ _ _ => true
  | .slots, .slotProgram _ _ _ _ => true
  | .slots, .slotProgramEnd _ _ => true
  | .slots, .slotActivate _ _ _ => true
  | .slots, .slotDrainEnd _ _ => true
  | .slots, .slotReprogramEnd _ _ => true
  | .slots, .slotRetire _ _ => true
  | .slots, .slotRetireEnd _ _ => true
  | .slots, .bobbinProgrammingEnd _ _ _ _ _ => true
  | .slots, .tbConfig _ _ => true
  | .streams, .streamOpen _ _ => true
  | .streams, .streamClose _ _ => true
  | .streams, .streamCloseEffect _ _ => true
  | .streams, .streamFrame _ _ _ => true
  | .streams, .pkConfigEnable _ _ _ => true
  | .streams, .regRead _ _ _ => true
  | .timeBase, .encoderCount _ _ _ => true
  | .timeBase, .encoderLoss _ _ => true
  | .timeBase, .encoderLossEnd _ => true
  | .timeBase, .stall _ => true
  | .timeBase, .streamFrame _ _ _ => true
  | .timeBase, .tbConfig _ _ => true
  | .timeBase, .regRead _ _ _ => true
  | .timeBase, .regWrite _ _ _ => true
  | .timeBase, .tbWpLoRead _ => true
  | _, _ => false

/-! ## Resets -/

/-- What a reset from source `src` keeps of s in t (R476): the fuses, the rollback floor and the identity, each bobbin's
cell levels and fuses with the part's own analogue properties, the column fuses of MEM_RED, after an internal reset the
strap byte (an NRST reset opens the strap window anew, assumption 135) and PWR_CAUSE, which names the source, and the
levels at the pins; device time and the model's queue and count of free values run on. All else is as `State.reset` has
it. -/
def KeptOverReset (src : ResetSource) (s t : State) : Prop :=
  t.mgmt.reset = some src ∧ t.mgmt.devState = 0
    ∧ t.sec = { State.reset.sec with
        device := s.sec.device, grade := s.sec.grade, step := s.sec.step, romVer := s.sec.romVer, lock := s.sec.lock
        floor := s.sec.floor, revFw := s.sec.revFw, revBn := s.sec.revBn, challenge := s.sec.challenge
        quotes := s.sec.quotes }
    ∧ (src = .nrst → t.power = { State.reset.power with nrst := false, pwrgd := s.power.pwrgd })
    ∧ (src ≠ .nrst → t.power = { State.reset.power with
        nrst := s.power.nrst, pwrgd := s.power.pwrgd, straps := s.power.straps, latched := s.power.latched
        causePin := false
        causeDev := s.power.causeDev || src == .devReset
        causeWd := s.power.causeWd || src == .watchdog
        causeTh := s.power.causeTh || src == .thermal })
    ∧ (∀ p b, p < 48 → b < 17 → t.bobbin p b = { bobbinAtReset b with
        cells := (s.bobbin p b).cells, fuse := (s.bobbin p b).fuse, pathGain := (s.bobbin p b).pathGain
        convOfs := (s.bobbin p b).convOfs })
    ∧ (∀ p, p < 48 → t.pillow p = { State.reset.pillow p with bobbins := (t.pillow p).bobbins })
    ∧ t = { State.reset with
        now := s.now, pending := s.pending, free := s.free, mgmt := t.mgmt, power := t.power, sec := t.sec
        ms := { State.reset.ms with csCols := s.ms.csCols, fwCols := s.ms.fwCols }, pillows := t.pillows }

end Sys2Proof.Machine
end

