-- ==== Sys2Proof/Certificates/Slice0/Obligations.lean ====
section
/-! DEFINITION. The statements for the provers. Each says what a rule of spec/ says of the commands it names; a value or an
act that the model chose is named with its row of the assumption log. Facts before a settling of the pillows are stated of
the state that the event leaves before its pillows go on (`settlePillows`, `boundary`: what the sequencers do next). -/

open Sys2Proof Sys2Proof.Machine

/-! ## The machine as a whole -/

/-- A step takes the command at the front of the queue of waiting commands and answers what its meaning answers with the
queue's rest; with no command waiting the block idles. The queue is the model's own, and so is idling (DESIGN CHOICE,
assumption 15). -/
def Obligations.StepRunsFront : Prop :=
  (∀ (c : Instr) (rest : List Instr) (s : State),
    step { s with pending := c :: rest } = exec c { s with pending := rest }) ∧
  (∀ s : State, s.pending = [] → step s = .next s)

/-- Every command and event has a meaning in every state: it answers a next state, takes nothing from the queue of
waiting commands and puts nothing in, and brings device time to its own time, never back (R21, R404). -/
def Obligations.EveryCommandAnswers : Prop :=
  ∀ (c : Instr) (s : State), ∃ t, exec c s = .next t ∧ t.pending = s.pending ∧ t.now = max s.now (timeOf c)

/-- The physical memory and the firmware memory (R200, R217) keep the canonical form the model gives them over every
step: addresses strictly rising, and no listed byte equal to what an unlisted address reads as. -/
def Obligations.StepKeepsMemoryCanonical : Prop :=
  ∀ s t : State, Memory.wf s.mem = true → Firmware.wf s.fwMem = true → step s = .next t →
    Memory.wf t.mem = true ∧ Firmware.wf t.fwMem = true

/-- The same form holds right after reset. -/
def Obligations.ResetMemoryCanonical : Prop :=
  Memory.wf State.reset.mem = true ∧ Firmware.wf State.reset.fwMem = true

/-- A host command that its device state does not accept (R417, R479) is refused, PARAM_BAD where a parameter is out
of its range and STATE_REFUSED otherwise, and has no other effect: only the reply and the commands in hand differ
(R404). -/
def Obligations.UnacceptedCommandsAreRefused : Prop :=
  ∀ (c : Instr) (h : Hdr) (op form : Nat) (sec : Bool) (s : State),
    hdrOf c = some h → opcodeOf c = some (op, form, sec) → s.accepts op sec = false →
    ∃ r : Reject, (r = stateRefused ∨ r.status = Status.paramBad) ∧ Refuses c h op r s

/-- Only a reset leaves state 5 (R488). -/
def Obligations.OnlyResetLeavesStateFive : Prop :=
  ∀ (c : Instr) (s t : State), s.mgmt.devState = 5 → exec c s = .next t →
    t.mgmt.devState = 5 ∨ t.mgmt.reset.isSome = true

/-- Fuses burn and are never restored (R498, R503, R511): over every command and event, every reset among them, the
rollback floor never falls, no revocation fuse clears, and the device's identity stays. -/
def Obligations.FusesNeverClear : Prop :=
  ∀ (c : Instr) (s t : State), exec c s = .next t →
    s.sec.floor ≤ t.sec.floor ∧ s.sec.revFw &&& t.sec.revFw = s.sec.revFw ∧ s.sec.revBn &&& t.sec.revBn = s.sec.revBn
      ∧ t.sec.device = s.sec.device ∧ t.sec.grade = s.sec.grade ∧ t.sec.step = s.sec.step

/-- Each part of the device changes only by the commands that act on it: the pricking store by PRICK_LOAD (R434), the
house converter's channels by HC_CONFIG and the end of a conversion (R366, R367), the PTP ports by PORT_CONFIG and PTP
(R294), the thermal monitor by its readings, a falling step and its registers (R527, R528), the error window by
SHQ_ERR_POP (R274), the model slots by the slot commands and their programmings (R431 to R433), the streams by the
stream commands and frames (R286, R289), the time base by the encoder, TB_CONFIG and its registers (R13 to R32); and
each of them by a reset. Every other command and event leaves that part as it was. -/
def Obligations.PartsChangeOnlyByTheirCommands : Prop :=
  ∀ (p : Part) (c : Instr) (s t : State), actsOn p c = false → isReset c = false → exec c s = .next t → samePart p s t

/-! ## Device, registers, reset and boot -/

/-- DEV_INFO answers in every device state with the identity, version, state and pillow fields of R422; a wrong
CONFIRM of DEV_RESET is refused with PARAM_BAD at offset 8 (R421). -/
def Obligations.DeviceInfoAndConfirm : Prop :=
  (∀ (h : Hdr) (s : State), Answers (.devInfo h) h Op.devInfo
    (fun s => leBytes 8 s.sec.device.toNat ++ leBytes 2 0x4816 ++ leBytes 1 s.sec.grade ++ leBytes 1 s.sec.step
      ++ leBytes 4 s.sec.fwVer.toNat ++ leBytes 4 s.sec.romVer.toNat ++ leBytes 1 s.power.straps.toNat
      ++ leBytes 1 s.mgmt.devState
      ++ leBytes 2 (flag 0 s.trim.calDone + flag 1 s.trim.restored + flag 2 s.ptp.lock)
      ++ leBytes 8 (((List.range 48).map fun p => flag p (s.pillowOn p && !s.failedOut p)).sum)) id s) ∧
  (∀ (h : Hdr) (confirm : BitVec 32) (s : State), confirm ≠ 0x5445_5352 →
    Refuses (.devReset h confirm) h Op.devReset { status := Status.paramBad, payload := leBytes 2 8 } s)

/-- Every reset keeps only the fuses with the identity and the rollback floor, the column fuses of the memories
(R225), the cell levels, and after an internal reset the strap byte and the causes that PWR_CAUSE shows (R476, R484):
DEV_RESET with the right CONFIRM, which sends no reply (R421), NRST falling, the watchdog, and a trip temperature that
has held for 1 ms (R475, R526). -/
def Obligations.EveryResetKeepsOnly : Prop :=
  (∀ (h : Hdr) (s : State), ∃ t, exec (.devReset h 0x5445_5352) s = .next t
    ∧ KeptOverReset .devReset (s.advance h.t) t) ∧
  (∀ (n : Nat) (s : State), s.power.nrst = true →
    ∃ t, exec (.nrstFall n) s = .next t ∧ KeptOverReset .nrst (s.advance n) t ∧ t.power.nrst = false
      ∧ t.power.latched = false) ∧
  (∀ (n : Nat) (s : State), s.up = true →
    ∃ t, exec (.watchdog n) s = .next t ∧ KeptOverReset .watchdog (s.advance n) t) ∧
  (∀ (n c : Nat) (s : State), s.up = true → s.therm.tripSince = some c → c + 1_000_000 ≤ max s.now n →
    ∃ t, exec (.thermalTrip n) s = .next t ∧ KeptOverReset .thermal (s.advance n) t)

/-- A reset ends, the boot ROM starts in state 0 at that time, and nothing else changes: NRST rises, a DEV_RESET or the
watchdog has held the device long enough, or the junction has cooled (R475, R478); the strap window closes 10 µs after
(R452). -/
def Obligations.ResetEnds : Prop :=
  (∀ (n : Nat) (s : State), s.power.nrst = false → exec (.nrstRise n) s = .next { s with
    now := max s.now n
    power := { s.power with nrst := true, pwrgd := true }
    mgmt := { s.mgmt with reset := none, resetAt := max s.now n }
    ms := { s.ms with scrubAt := max s.now n } }) ∧
  (∀ (n : Nat) (s : State),
    (s.mgmt.reset = some .devReset ∧ s.mgmt.resetAt + 10_000 ≤ max s.now n
      ∨ s.mgmt.reset = some .watchdog ∧ s.mgmt.resetAt + 20_000 ≤ max s.now n) →
    exec (.internalResetEnd n) s = .next { s with
      now := max s.now n
      mgmt := { s.mgmt with reset := none, resetAt := max s.now n }
      ms := { s.ms with scrubAt := max s.now n } }) ∧
  (∀ (n : Nat) (s : State), s.mgmt.reset = some .thermal →
    exec (.thermalTripEnd n) s = .next { s with
      now := max s.now n
      mgmt := { s.mgmt with reset := none, resetAt := max s.now n }
      ms := { s.ms with scrubAt := max s.now n } }) ∧
  (∀ (n : Nat) (pkd : BitVec 8) (s : State), s.up = true → s.power.latched = false →
    s.mgmt.resetAt + 10_000 ≤ max s.now n →
    exec (.strapLatch n pkd) s = .next { s with
      now := max s.now n, power := { s.power with straps := pkd, latched := true } })

/-- Boot (R478 to R483): the PLL locks and the firmware memory's March test, which leaves 0x55 in every byte (R221),
decides between going on and state 5 with BOOT_ERR 1; the image that FW_UPDATE has verified starts, or the primary
image of the flash that passes R502; firmware initialisation fills every memory with zeros and enters state 1. -/
def Obligations.BootSequence : Prop :=
  (∀ (n : Nat) (s : State), s.up = true → s.mgmt.devState = 0 → s.mgmt.pllLocked = false →
    ∃ t, exec (.pllLock n true) s = .next t ∧ t.mgmt = { s.mgmt with pllLocked := true, romMarchOk := true }
      ∧ (∀ a, t.fwByte a = 0x55) ∧ t = { s with now := max s.now n, fwMem := t.fwMem, mgmt := t.mgmt }) ∧
  (∀ (n : Nat) (s : State), s.up = true → s.mgmt.devState = 0 → s.mgmt.pllLocked = false →
    ∃ t, exec (.pllLock n false) s = .next t ∧ t.mgmt.devState = 5 ∧ t.mgmt.fatal = 4 ∧ t.power.bootErr = 1
      ∧ t.nfault = true) ∧
  (∀ (n : Nat) (flash : FlashRead) (x : FwImage) (s : State), s.up = true → s.mgmt.devState = 0 →
    s.mgmt.romMarchOk = true → s.mgmt.fwStarted = false → s.sec.updImage = some x →
    ∃ t, exec (.firmwareLoadEnd n flash) s = .next t ∧ t.mgmt = { s.mgmt with fwStarted := true }
      ∧ t.power.bootFrom = 3 ∧ t.sec.fwVer = x.fwVer ∧ t.sec.runRb = x.rollback ∧ t.sec.updImage = none
      ∧ t = { s with now := max s.now n, mgmt := t.mgmt, power := t.power, sec := t.sec }) ∧
  (∀ (n : Nat) (flash : FlashRead) (x : FwImage) (s : State), s.up = true → s.mgmt.devState = 0 →
    s.mgmt.romMarchOk = true → s.mgmt.fwStarted = false → s.sec.updImage = none →
    (bitsOf 3 2 s.power.straps.toNat = 1 ∨ bitsOf 3 2 s.power.straps.toNat = 2) → s.power.bootErr = 0 →
    flash.sfdp = true → x = fwImageOf flash.primary.sigOk flash.primary.bytes → s.imageFails x = none →
    ∃ t, exec (.firmwareLoadEnd n flash) s = .next t ∧ t.mgmt = { s.mgmt with fwStarted := true }
      ∧ t.power.bootFrom = 1 ∧ t.sec.fwVer = x.fwVer ∧ t.sec.runRb = x.rollback
      ∧ t = { s with now := max s.now n, mgmt := t.mgmt, power := t.power, sec := t.sec }) ∧
  (∀ (n : Nat) (s : State), s.up = true → s.mgmt.devState = 0 → s.mgmt.fwStarted = true →
    ∃ t, exec (.firmwareInitEnd n) s = .next t ∧ t.mgmt = { s.mgmt with devState := 1 }
      ∧ (∀ a, t.byteAt a = 0) ∧ t.ms = { s.ms with poison := [], errs := [] }
      ∧ t.power = { s.power with initUs := (max s.now n - s.mgmt.resetAt) / 1000 }
      ∧ t = { s with now := max s.now n, mgmt := t.mgmt, mem := t.mem, ms := t.ms, power := t.power })

/-- Power domains (R473, R474): a PWR_REQ with a reason is refused in its registers and answered; a gate takes the
domain off at once and an ungate starts it, BUSY either way; a request for a domain that already stands as asked is
done at once; DOMAIN_SWITCHED clears BUSY and turns an ungated domain on; a gated ground-buffer quarter loses its
bytes and every other byte stays; a fall of PWRGD is latched and raises the supply class (R471). -/
def Obligations.PowerDomains : Prop :=
  (∀ (h : Hdr) (d r : Nat) (ungate : Bool) (s : State), s.accepts Op.regWrite false = true → d < 512 →
    s.domainReason d ungate = r → r ≠ 0 →
    Answers (.pwrReq h d ungate) h Op.regWrite (fun _ => [])
      (fun s => { s with
        sec := { s.sec with armed := false }
        power := { s.power with
          reqDomain := d, resDomain := d, reqUngate := ungate, refused := true, reason := r } }) s) ∧
  (∀ (h : Hdr) (d : Nat) (ungate : Bool) (s : State), s.accepts Op.regWrite false = true → d < 512 →
    s.domainReason d ungate = 0 → s.domainOn d = ungate →
    Answers (.pwrReq h d ungate) h Op.regWrite (fun _ => [])
      (fun s => { s with
        sec := { s.sec with armed := false }
        power := { s.power with reqDomain := d, resDomain := d, reqUngate := ungate, reason := 0 } }) s) ∧
  (∀ (h : Hdr) (d : Nat) (s : State), s.accepts Op.regWrite false = true → d < 512 → s.domainReason d true = 0 →
    s.domainOn d = false →
    Answers (.pwrReq h d true) h Op.regWrite (fun _ => [])
      (fun s => { s with
        sec := { s.sec with armed := false }
        power := { s.power with reqDomain := d, reqUngate := true, resDomain := d, reason := 0, switching := some (d, true) } }) s) ∧
  (∀ (h : Hdr) (d : Nat) (s : State), s.accepts Op.regWrite false = true → d < 512 → s.domainReason d false = 0 →
    s.domainOn d = true →
    ∃ t, exec (.pwrReq h d false) s = .next t ∧ t.power.switching = some (d, false) ∧ t.domainOn d = false
      ∧ t.power.resDomain = d
      ∧ (308 ≤ d → d ≤ 311 → ∀ a, gbBase + 0x80_0000 * (d - 308) ≤ a → a < gbBase + 0x80_0000 * (d - 307) →
          t.byteAt a = 0)
      ∧ (306 ≤ d → ∀ a, ¬ (gbBase + 0x80_0000 * (d - 308) ≤ a ∧ a < gbBase + 0x80_0000 * (d - 307)) →
          t.byteAt a = s.byteAt a)) ∧
  (∀ (n d : Nat) (ungate : Bool) (s : State), s.power.switching = some (d, ungate) →
    exec (.domainSwitched n) s = .next { s with
      now := max s.now n
      power := { s.power with
        switching := none, on := if ungate then setDomains true (domainSet d) s.power.on else s.power.on } }) ∧
  (∀ (n : Nat) (s : State), s.up = true →
    ∃ t, exec (.pwrgdFall n) s = .next t ∧ t.power = { s.power with pwrgd := false, pwrgdLost := true }
      ∧ (t.latch 17).held = true
      ∧ t = { s with
          now := max s.now n, power := t.power, pillows := t.pillows, latches := t.latches, queues := t.queues
          sdio := t.sdio })

/-! ## Security -/

/-- SEC_ARM is accepted whatever is written and only the key arms; an armed SEC_OP in states 1 to 4 seals a FIELD device
and raises the security class, or burns the revocation fuses named, which raises the class where a fuse that was not yet
burned burns; either disarms (R511, R512). Unarmed it is refused with LOCKED. -/
def Obligations.FuseOperations : Prop :=
  (∀ (h : Hdr) (key : BitVec 32) (s : State), s.accepts Op.regWrite true = true →
    Answers (.secArm h key) h Op.regWrite (fun _ => [])
      (fun s => { s with sec := { s.sec with armed := decide (key = 0x4C4F_434B) } }) s) ∧
  (∀ (h : Hdr) (s : State), s.accepts Op.regWrite true = true → s.sec.armed = true → s.sec.lock = 1 →
    s.mgmt.devState ≠ 0 → s.mgmt.devState ≠ 5 →
    ∃ t, exec (.secOpSeal h) s = .next t ∧ t.sec = { s.sec with armed := false, lock := 2 }
      ∧ (t.latch 27).held = true
      ∧ t = { s with
          now := max s.now h.t, sec := t.sec, latches := t.latches, queues := t.queues, mgmt := t.mgmt, sdio := t.sdio }) ∧
  (∀ (h : Hdr) (mask : BitVec 8) (s : State), s.accepts Op.regWrite true = true → s.sec.armed = true →
    s.mgmt.devState ≠ 0 → s.mgmt.devState ≠ 5 →
    ∃ t, exec (.secOpRevoke h mask) s = .next t
      ∧ t.sec = { s.sec with armed := false, revBn := s.sec.revBn ||| mask }
      ∧ (mask &&& ~~~s.sec.revBn ≠ 0 → (t.latch 27).held = true)
      ∧ (mask &&& ~~~s.sec.revBn = 0 → t.latches = s.latches)
      ∧ t = { s with
          now := max s.now h.t, sec := t.sec, latches := t.latches, queues := t.queues, mgmt := t.mgmt, sdio := t.sdio }) ∧
  (∀ (h : Hdr) (mask : BitVec 8) (s : State), s.accepts Op.regWrite true = true → s.sec.armed = false →
    Refuses (.secOpSeal h) h Op.regWrite { status := Status.locked } s
      ∧ Refuses (.secOpRevoke h mask) h Op.regWrite { status := Status.locked } s)

/-- FW_UPDATE (R447, R502, R504, R505): OPEN opens function 2 transfer kind 5; CLOSE keeps the arrived image where it
verifies, starts its writing outside the boot ROM, and answers SIG_BAD or ROLLBACK, with the security class, where it
does not; with no image arrived it is refused; DISCARD drops a verified image; each half written and read back brings
the update one stage on, and a bad compare fails it. -/
def Obligations.FirmwareUpdate : Prop :=
  (∀ (h : Hdr) (length : Nat) (s : State), s.accepts Op.fwUpdate false = true →
    (s.mgmt.devState = 0 ∨ bitsOf 3 2 s.power.straps.toNat = 1 ∨ bitsOf 3 2 s.power.straps.toNat = 2) →
    s.bulk.xfer = none → s.sec.upd ≠ 3 → s.sec.upd ≠ 4 →
    Answers (.fwUpdateOpen h length) h Op.fwUpdate (fun _ => [])
      (fun s => { s with
        bulk := { s.bulk with
          image := none
          xfer := some { kind := 5, handle := 0, index := 0, opcode := Op.fwUpdate, hdr := h, total := some length } }
        sec := { s.sec with upd := 1, updImage := none } }) s) ∧
  (∀ (h : Hdr) (sigOk : Bool) (x : FwImage) (b : Xfer) (s : State), s.accepts Op.fwUpdate false = true →
    s.bulk.image = some b → x = fwImageOf sigOk (b.buf.take (b.total.getD 0)) → s.imageFails x = none →
    Answers (.fwUpdateClose h sigOk) h Op.fwUpdate (fun _ => [])
      (fun s => { s with
        bulk := { s.bulk with image := none }
        sec := { s.sec with upd := if s.mgmt.devState = 0 then 2 else 3, updImage := some x } }) s) ∧
  (∀ (h : Hdr) (sigOk : Bool) (s : State), s.accepts Op.fwUpdate false = true → s.bulk.image = none →
    Refuses (.fwUpdateClose h sigOk) h Op.fwUpdate stateRefused s) ∧
  (∀ (h : Hdr) (sigOk : Bool) (x : FwImage) (b : Xfer) (cause : Nat) (s : State), s.accepts Op.fwUpdate false = true →
    s.bulk.image = some b → x = fwImageOf sigOk (b.buf.take (b.total.getD 0)) → s.imageFails x = some cause →
    ∃ t, exec (.fwUpdateClose h sigOk) s = .next t ∧ t.sec.updImage = none ∧ t.sec.upd = 0 ∧ (t.latch 27).held = true
      ∧ ∃ w, t.queue 1 = (s.queue 1).joined 1
          { prio := h.prio, writer := w, tag := h.tag
            data := replyBytes Op.fwUpdate (if cause = 1 then Status.sigBad else Status.rollback) (max s.now h.t) h.tag
              [] }) ∧
  (∀ (h : Hdr) (s : State), s.accepts Op.fwUpdate false = true → s.bulk.xfer = none → s.bulk.image = none →
    s.sec.upd = 2 →
    Answers (.fwUpdateDiscard h) h Op.fwUpdate (fun _ => [])
      (fun s => { s with sec := { s.sec with upd := 0, updImage := none } }) s) ∧
  (∀ (n : Nat) (s : State), s.up = true → (s.sec.upd = 3 ∨ s.sec.upd = 4) →
    exec (.flashWriteStageEnd n true) s = .next { s with
      now := max s.now n, sec := { s.sec with upd := s.sec.upd + 1 } }) ∧
  (∀ (n : Nat) (s : State), s.up = true → (s.sec.upd = 3 ∨ s.sec.upd = 4) →
    ∃ t, exec (.flashWriteStageEnd n false) s = .next t ∧ t.sec = { s.sec with upd := 6 } ∧ (t.latch 27).held = true)

/-- ATTEST (R448, R506, R507): FORM forms a quote of 18,368 B whose first 1,280 bytes are the quote body over NONCE and
answers its length; READ answers at most 480 B of the quote, or of the identity record from 0x0001_0000 on, and
changes nothing; a READ of a quote not yet formed is refused. -/
def Obligations.Attestation : Prop :=
  (∀ (h : Hdr) (nonce : Bytes) (s : State), s.accepts Op.attest false = true → nonce.length = 32 →
    ∃ t, exec (.attestForm h nonce) s = .next t
      ∧ Replied h Op.attest Status.ok (leBytes 4 18368) s t ∧ SameButHands s t
      ∧ t.sec.quote.take 1280 = (s.advance h.t).quoteBody nonce ∧ t.sec.quote.length = 18368
      ∧ t.sec = { s.sec with quote := t.sec.quote, quotes := s.sec.quotes + 1 }
      ∧ t = { s with now := max s.now h.t, queues := t.queues, mgmt := t.mgmt, sec := t.sec }) ∧
  (∀ (h : Hdr) (offset : Nat) (s : State), s.accepts Op.attest false = true → s.sec.quote ≠ [] → offset < 0x1_0000 →
    Answers (.attestRead h offset) h Op.attest (fun s => (s.sec.quote.drop offset).take 480) id s) ∧
  (∀ (h : Hdr) (offset : Nat) (s : State), s.accepts Op.attest false = true → 0x1_0000 ≤ offset →
    Answers (.attestRead h offset) h Op.attest
      (fun s => (List.range (min 480 (29856 - (offset - 0x1_0000)))).map fun i =>
        s.identityByte (offset - 0x1_0000 + i)) id s) ∧
  (∀ (h : Hdr) (offset : Nat) (s : State), s.accepts Op.attest false = true → s.sec.quote = [] → offset < 0x1_0000 →
    Refuses (.attestRead h offset) h Op.attest stateRefused s)

/-- The test access port (R508 to R510): an instruction that the lock state lets act is loaded and keeps the pins it
takes; one that it bars is loaded as BYPASS; a port reset loads IDCODE; a token opens debug exactly when it names this
device and the challenge, its key is 0 to 3 and it verifies, and each challenge serves one attempt; IDCODE has the
fields of R508 on a device of any stepping. -/
def Obligations.TestAccessPort : Prop :=
  (∀ (n : Nat) (i : TapIns) (s : State), s.tapActs i = true →
    exec (.tapInstruction n i) s = .next { s with
      now := max s.now n, sec := { s.sec with tapIns := i, scanPins := s.sec.scanPins || tapTakesPins i } }) ∧
  (∀ (n : Nat) (i : TapIns) (s : State), s.tapActs i = false →
    exec (.tapInstruction n i) s = .next { s with
      now := max s.now n, sec := { s.sec with tapIns := .bypass, scanRefused := s.sec.scanRefused || tapTakesPins i } }) ∧
  (∀ (i : TapIns) (s : State), s.sec.lock = 2 → (s.tapActs i = true ↔ i = .idcode ∨ i = .bypass)) ∧
  (∀ (n : Nat) (s : State), exec (.tapReset n) s = .next { s with
      now := max s.now n, sec := { s.sec with tapIns := .idcode } }) ∧
  (∀ (n : Nat) (device : BitVec 64) (challenge : BitVec 256) (key : Nat) (sigOk : Bool) (s : State), s.up = true →
    s.sec.lock ≠ 0 →
    ∃ t, exec (.debugToken n device challenge key sigOk) s = .next t
      ∧ t.sec = { s.sec with
          challenge := s.sec.challenge + 1
          debug := s.sec.debug || (s.sec.lock == 1 && device == s.sec.device
            && challenge == Config.challenge s.sec.challenge && decide (key < 4) && sigOk) }
      ∧ (t.latch 27).held = true
      ∧ t = { s with now := max s.now n, sec := t.sec, latches := t.latches, queues := t.queues, sdio := t.sdio }) ∧
  (∀ (s : State), s.sec.step < 16 →
    s.idcode.extractLsb 31 28 = BitVec.ofNat 4 s.sec.step ∧ s.idcode.extractLsb 27 12 = 0x4816#16
      ∧ s.idcode.extractLsb 11 1 = 0x2A5#11 ∧ s.idcode.getLsbD 0 = true ∧ (s.sec.step = 1 → s.idcode = 0x1481_654B#32))

/-! ## The SDIO attachment -/

/-- The card (R379 to R381, R400, R401): from 1 ms after reset it answers each command from the states the SDIO
specification names, moves to the next state, and changes nothing else. Function 0 and the transport bytes (R384,
R391, R396, R397): a CCCR write of I/O Enable makes its functions ready; a transport byte write sets the function 1
interrupt enables and clears what is written 1; a read of CRC_CNT answers and clears it, and one of the CCCR's I/O Ready
answers it and clears nothing; an abort of function 1 ends the mailbox busy; an I/O reset with a trim transfer open ends
it with XFER_ABORTED and keeps NOTE_LOST, CRC_CNT and a held packet. -/
def Obligations.SdioCard : Prop :=
  (∀ (n : Nat) (s : State), (s.advance n).sdServes = true → s.sdio.card ≠ .inactive →
    exec (.cmd0 n) s = .next { s with
      now := max s.now n, sdio := { s.sdio with card := .idle, rca := 0, resp := .silent } }) ∧
  (∀ (n : Nat) (s : State), (s.advance n).sdServes = true → (s.sdio.card = .idle ∨ s.sdio.card = .initialised) →
    s.mgmt.resetAt + 5_000_000 ≤ max s.now n →
    exec (.cmd5 n) s = .next { s with
      now := max s.now n, sdio := { s.sdio with card := .initialised, resp := .cmd5 true 2 false s.sd18 } }) ∧
  (∀ (n : Nat) (s : State), (s.advance n).sdServes = true →
    (s.sdio.card = .initialised ∨ s.sdio.card = .standby) →
    ∃ r, r ≠ 0 ∧ exec (.cmd3 n) s = .next { s with
      now := max s.now n, free := s.free + 1
      sdio := { s.sdio with card := .standby, rca := r, resp := .address r } }) ∧
  (∀ (n : Nat) (s : State), (s.advance n).sdServes = true → s.sdio.card = .standby →
    exec (.cmd7 n true) s = .next { s with
      now := max s.now n, sdio := { s.sdio with card := .selected, resp := .ack } }) ∧
  (∀ (n : Nat) (s : State), (s.advance n).sdServes = true → s.sdio.card = .selected →
    exec (.cmd7 n false) s = .next { s with
      now := max s.now n, sdio := { s.sdio with card := .standby, resp := .silent } }) ∧
  (∀ (n : Nat) (s : State), (s.advance n).sdServes = true → s.sd18 = true → s.sdio.card = .initialised →
    exec (.cmd11 n) s = .next { s with now := max s.now n, sdio := { s.sdio with uhs := true, resp := .ack } }) ∧
  (∀ (n : Nat) (s : State), (s.advance n).sdServes = true →
    (s.sdio.card = .standby ∨ s.sdio.card = .selected) →
    exec (.cmd15 n) s = .next { s with
      now := max s.now n, sdio := { s.sdio with card := .inactive, resp := .silent } }) ∧
  (∀ (n : Nat) (s : State), (s.advance n).sdSelected = true → s.sdio.uhs = true →
    exec (.cmd19 n) s = .next { s with now := max s.now n, sdio := { s.sdio with tuned := true, resp := .ack } }) ∧
  (∀ (n : Nat) (v : Byte) (s : State), (s.advance n).sdSelected = true →
    exec (.cccrWrite n 0x02 v) s = .next { s with
      now := max s.now n
      sdio := { s.sdio with resp := .r5 false, ioEnable := v &&& 0b110, ioReady := v &&& 0b110 } }) ∧
  (∀ (n : Nat) (v : Byte) (s : State), (s.advance n).sdFunction 1 = true →
    exec (.transportByteWrite n 1 0x1001 v) s = .next { s with
      now := max s.now n, sdio := { s.sdio with resp := .r5 false, f1IntEn := v &&& 0b111 } }) ∧
  (∀ (n : Nat) (v : Byte) (s : State), (s.advance n).sdFunction 2 = true →
    exec (.transportByteWrite n 2 0x1000 v) s = .next { s with
      now := max s.now n, sdio := { s.sdio with resp := .r5 false }
      bulk := { s.bulk with
        excess := s.bulk.excess && !v.getLsbD 3, noxfer := s.bulk.noxfer && !v.getLsbD 4
        aborted := s.bulk.aborted && !v.getLsbD 5 } }) ∧
  (∀ (n : Nat) (s : State), (s.advance n).sdFunction 1 = true →
    exec (.transportByteRead n 1 0x100A) s = .next { s with
      now := max s.now n
      sdio := { s.sdio with crcCnt := 0, resp := .r5 false, readOut := [BitVec.ofNat 8 s.sdio.crcCnt] } }) ∧
  (∀ (n : Nat) (s : State), (s.advance n).sdSelected = true →
    exec (.transportByteRead n 0 0x03) s = .next { s with
      now := max s.now n, sdio := { s.sdio with resp := .r5 false, readOut := [s.sdio.ioReady] } }) ∧
  (∀ (n : Nat) (inCmd : Bool) (s : State), (s.advance n).sdSelected = true →
    exec (.ioAbort n 1 inCmd) s = .next { s with
      now := max s.now n, sdio := { s.sdio with mbxBusy := false, mbxNext := none } }) ∧
  (∀ (n : Nat) (x : Xfer) (s : State), (s.advance n).sdSelected = true → s.bulk.xfer = some x →
    exec (.ioAbort n 2 true) s = .next { s with now := max s.now n, bulk := { s.bulk with aborted := true } }) ∧
  (∀ (n : Nat) (x : Xfer) (s : State), (s.advance n).sdServes = true → s.bulk.xfer = some x →
    (x.kind = 3 ∨ x.kind = 4) →
    ∃ t w, exec (.ioReset n) s = .next t ∧ t.bulk = { aborted := true, arrived := s.bulk.arrived, image := s.bulk.image }
      ∧ t.sdio = { noteLost := s.sdio.noteLost, crcCnt := s.sdio.crcCnt, mailbox := s.sdio.mailbox,
                   notes := s.sdio.notes, uhs := s.sdio.uhs }
      ∧ (t.queue 1).part = none
      ∧ (t.queue 1).vis = ((s.queue 1).joined 1 {
          prio := x.hdr.prio, writer := w, tag := x.hdr.tag
          data := replyBytes x.opcode Status.xferAborted (max s.now n) x.hdr.tag [] }).vis
      ∧ t = { s with now := max s.now n, sdio := t.sdio, bulk := t.bulk, queues := t.queues })

/-- The mailbox and the reply window (R383, R385 to R389): a whole packet that fits enters the command queue with the
PRIO and TAG of its header; one that does not is held and enters when room frees; a further write waits behind the
held one; a read delivers the packet R265 selects, with bytes past its end 0; a read of an empty window answers the
last item again and sets UNDERRUN. -/
def Obligations.MailboxAndWindow : Prop :=
  (∀ (n : Nat) (d : Bytes) (s : State), (s.advance n).sdFunction 1 = true → 1 ≤ d.length → d.length ≤ 512 →
    s.sdio.mailbox = none → (s.queue 0).wpart = none → (s.queue 0).fits 0 (mailboxPacket d).items = true →
    ∃ t, exec (.mailboxWrite n d true) s = .next t
      ∧ (t.queue 0).vis = (s.queue 0).vis ++ [{
          prio := bitsOf 0 3 (numAt 1 1 d), writer := 0, tag := BitVec.ofNat 32 (numAt 4 4 d), data := d }]
      ∧ (∀ q, q ≠ 0 → t.queue q = s.queue q) ∧ t.sdio.mailbox = none
      ∧ t = { s with now := max s.now n, queues := t.queues, sdio := t.sdio }) ∧
  (∀ (n : Nat) (d : Bytes) (s : State), (s.advance n).sdFunction 1 = true → 1 ≤ d.length → d.length ≤ 512 →
    s.sdio.mailbox = none → (s.queue 0).fits 0 (mailboxPacket d).items = false →
    ∃ t, exec (.mailboxWrite n d true) s = .next t ∧ t.sdio.mailbox = some (mailboxPacket d) ∧ t.sdio.mbxBusy = true
      ∧ (t.queue 0).vis = (s.queue 0).vis
      ∧ t = { s with now := max s.now n, queues := t.queues, sdio := t.sdio }) ∧
  (∀ (n : Nat) (d : Bytes) (p : QPacket) (s : State), (s.advance n).sdFunction 1 = true → 1 ≤ d.length →
    d.length ≤ 512 → s.sdio.mailbox = some p → s.sdio.mbxNext = none →
    exec (.mailboxWrite n d true) s = .next { s with
      now := max s.now n
      sdio := { s.sdio with mbxBusy := true, mbxNext := some (mailboxPacket d), resp := .crcStatus true } }) ∧
  (∀ (n : Nat) (p : QPacket) (s : State), s.sdio.mailbox = some p → s.sdio.mbxNext = none →
    (s.queue 0).wpart = none → (s.queue 0).fits 0 p.items = true →
    ∃ t, exec (.mailboxPacketEnter n) s = .next t ∧ t.sdio.mailbox = none ∧ t.sdio.mbxBusy = false
      ∧ t.queue 0 = { s.queue 0 with vis := (s.queue 0).vis ++ [p] }
      ∧ t = { s with now := max s.now n, queues := t.queues, sdio := t.sdio }) ∧
  (∀ (n k : Nat) (p : QPacket) (rest : List QPacket) (s : State), (s.advance n).sdFunction 1 = true → 1 ≤ k → k ≤ 512 →
    (s.queue 1).part = none → selectPacket (s.queue 1).vis = some (p, rest) → p.data.length ≤ k →
    ∃ t, exec (.replyWindowRead n k .clean) s = .next t
      ∧ t.sdio.readOut = p.data ++ List.replicate (k - p.data.length) 0
      ∧ (t.queue 1).vis = rest ∧ (t.queue 1).part = none ∧ (t.queue 1).last = p.lastItem
      ∧ (∀ q, q ≠ 1 → t.queue q = s.queue q)
      ∧ t = { s with now := max s.now n, queues := t.queues, sdio := t.sdio }) ∧
  (∀ (n k : Nat) (s : State), (s.advance n).sdFunction 1 = true → 1 ≤ k → k ≤ 512 →
    (s.queue 1).part = none → (s.queue 1).vis = [] →
    ∃ t, exec (.replyWindowRead n k .clean) s = .next t ∧ t.queue 1 = { s.queue 1 with underrun := true }
      ∧ t.sdio = { s.sdio with
          underrun := true, resp := .r5 false, readOut := sliceBytes 0 k (s.queue 1).last.data }
      ∧ t = { s with now := max s.now n, queues := t.queues, sdio := t.sdio })

/-- Function 2 (R315, R392 to R395): a block of 2,048 B enters the open transfer, and one of a shard goes to its place
in HBM; one of a trim write or boot image that is its last closes it; a block with no transfer open sets NOXFER; a
trim read serves its next block; a bad CRC is counted and takes nothing. Each block is answered with its CRC
status. -/
def Obligations.FunctionTwoBlocks : Prop :=
  (∀ (n : Nat) (d : Bytes) (x : Xfer) (s : State), (s.advance n).sdFunction 2 = true → d.length = 2048 →
    s.bulk.xfer = some x → (x.kind = 1 ∨ x.kind = 3 ∨ x.kind = 5) → x.full = false →
    (x.kind = 1 ∨ (x.take d).full = false) →
    exec (.f2BlockWrite n d true) s = .next { s with
      now := max s.now n, bulk := { s.bulk with xfer := some (x.take d) }
      sdio := { s.sdio with card := .selected, resp := .crcStatus true } }) ∧
  (∀ (n a : Nat) (d : Bytes) (x : Xfer) (b : Bundle) (s : State), (s.advance n).sdFunction 2 = true →
    d.length = 2048 → s.bulk.xfer = some x → x.kind = 2 → x.full = false → b = s.bundle x.handle → b.state = 1 →
    b.verified.contains x.index = false → a = b.addr (shardBytes * x.index) + 2048 * x.taken →
    2048 * x.taken + 2048 ≤ b.shardLen x.index →
    ∃ t, exec (.f2BlockWrite n d true) s = .next t ∧ t.bulk = { s.bulk with xfer := some (x.take d) }
      ∧ (∀ i, t.byteAt i = if a ≤ i ∧ i < a + 2048 then (d[i - a]?).getD 0 else s.byteAt i)
      ∧ t.sdio = { s.sdio with card := .selected, resp := .crcStatus true }
      ∧ t = { s with now := max s.now n, bulk := t.bulk, sdio := t.sdio, mem := t.mem, ms := t.ms }) ∧
  (∀ (n : Nat) (d : Bytes) (x : Xfer) (s : State), (s.advance n).sdFunction 2 = true → d.length = 2048 →
    s.bulk.xfer = some x → x.kind = 3 → x.full = false → (x.take d).full = true →
    exec (.f2BlockWrite n d true) s = .next { s with
      now := max s.now n, bulk := { s.bulk with xfer := none, arrived := some (x.take d), closed := true }
      sdio := { s.sdio with card := .selected, resp := .crcStatus true } }) ∧
  (∀ (n : Nat) (d : Bytes) (x : Xfer) (s : State), (s.advance n).sdFunction 2 = true → d.length = 2048 →
    s.bulk.xfer = some x → x.kind = 5 → x.full = false → (x.take d).full = true →
    exec (.f2BlockWrite n d true) s = .next { s with
      now := max s.now n, bulk := { s.bulk with xfer := none, image := some (x.take d), closed := true }
      sdio := { s.sdio with card := .selected, resp := .crcStatus true } }) ∧
  (∀ (n : Nat) (d : Bytes) (s : State), (s.advance n).sdFunction 2 = true → d.length = 2048 → s.bulk.xfer = none →
    exec (.f2BlockWrite n d true) s = .next { s with
      now := max s.now n, bulk := { s.bulk with noxfer := true }
      sdio := { s.sdio with card := .selected, resp := .crcStatus true } }) ∧
  (∀ (n : Nat) (d : Bytes) (s : State), (s.advance n).sdFunction 2 = true → d.length = 2048 →
    exec (.f2BlockWrite n d false) s = .next { s with
      now := max s.now n
      sdio := { s.sdio with card := .selected, resp := .crcStatus false, crcCnt := min 0xFF (s.sdio.crcCnt + 1) } }) ∧
  (∀ (n : Nat) (x : Xfer) (s : State), (s.advance n).sdFunction 2 = true → s.bulk.xfer = some x → x.kind = 4 →
    x.ready = true →
    exec (.f2BlockRead n) s = .next { s with
      now := max s.now n
      bulk := { s.bulk with
        readOut := sliceBytes (2048 * x.taken) 2048 x.buf
        closed := s.bulk.closed || ({ x with taken := x.taken + 1 } : Xfer).full
        xfer := if ({ x with taken := x.taken + 1 } : Xfer).full then none
          else some { x with taken := x.taken + 1 } } })

/-! ## Shuttle queues, reports and recovery -/

/-- Entering a queue (R263, R273, R390): the writer first in line enters its packet whole when it fits, behind every
visible packet; so do a held error entry and the oldest held HOST_NOTE event. Nothing else changes but the credit flag
of the mailbox. QUEUE_FLUSH and QUEUE_DROP (R270, R271, R446): an accepted flush sets FLUSH and waits for its effect;
the effect takes every packet of queue 1 out, counts its items in DROPPED, and answers with their number; a drop of a
partly read packet takes the rest of it out and answers its items, as a drop of a named writer's partial packet does,
and 0 where there is none; both are refused with QUEUE_REFUSED where R270 and R271 bar them. -/
def Obligations.ShuttleQueues : Prop :=
  (∀ (n : Nat) (p : QPacket) (s : State), s.sdio.mailbox = some p → s.sdio.mbxNext = none →
    (s.queue 0).wpart = none → (s.queue 0).fits 0 p.items = true →
    ∃ t, exec (.packetEnter n 0) s = .next t ∧ t.sdio.mailbox = none
      ∧ t.queue 0 = { s.queue 0 with vis := (s.queue 0).vis ++ [p] }
      ∧ t = { s with now := max s.now n, queues := t.queues, sdio := t.sdio }) ∧
  (∀ (n q : Nat) (p : QPacket) (rest : List QPacket) (s : State), q ≠ 0 → q ≠ 2 → (s.queue q).wait = p :: rest →
    (s.queue q).wpart = none → (s.queue q).fits q p.items = true →
    ∃ t, exec (.packetEnter n q) s = .next t
      ∧ t.queue q = { s.queue q with vis := (s.queue q).vis ++ [p], wait := rest }
      ∧ (∀ r, r ≠ q → t.queue r = s.queue r) ∧ t = { s with now := max s.now n, queues := t.queues }) ∧
  (∀ (n cls : Nat) (s : State), s.outsideClass = some cls →
    (s.queue 2).fits 2 (latchEntry cls (s.latch cls)).items = true →
    ∃ t, exec (.errorEntryEnter n cls) s = .next t
      ∧ t.queue 2 = { s.queue 2 with vis := (s.queue 2).vis ++ [latchEntry cls (s.latch cls)] }
      ∧ t.latch cls = { s.latch cls with outside := false } ∧ (∀ c, c ≠ cls → t.latch c = s.latch c)
      ∧ t = { s with now := max s.now n, queues := t.queues, latches := t.latches }) ∧
  (∀ (n : Nat) (p : QPacket) (rest : List QPacket) (s : State), s.sdio.notes = p :: rest → (s.queue 1).wait = [] →
    (s.queue 1).wpart = none → (s.queue 1).fits 1 p.items = true →
    ∃ t, exec (.hostNoteDrain n) s = .next t ∧ t.sdio = { s.sdio with notes := rest }
      ∧ t.queue 1 = { s.queue 1 with vis := (s.queue 1).vis ++ [p] }
      ∧ t = { s with now := max s.now n, queues := t.queues, sdio := t.sdio }) ∧
  (∀ (h : Hdr) (q : Nat) (s : State), s.accepts Op.queueFlush false = true → q ≤ 50 →
    (q ≤ 1 ∨ q = 2 ∧ s.offService = true ∨ 3 ≤ q ∧ s.stageOn (q - 3) = false) →
    Accepts (.queueFlush h q) h
      (fun s => s.setQueue q { s.queue q with flush := true, flushReplies := (s.queue q).flushReplies ++ [h] }) s) ∧
  (∀ (h : Hdr) (s : State), s.accepts Op.queueFlush false = true → s.offService = false →
    Refuses (.queueFlush h 2) h Op.queueFlush { status := Status.queueRefused } s) ∧
  (∀ (n : Nat) (h : Hdr) (s : State), (s.queue 1).flush = true → (s.queue 1).part = none → (s.queue 1).wait = [] →
    (s.queue 1).wpart = none → s.sdio.notes = [] → (s.queue 1).flushReplies = [h] →
    ∃ t w, exec (.queueFlushEffect n 1) s = .next t ∧ (t.queue 1).flush = false
      ∧ (t.queue 1).dropped = min 0xFFFF ((s.queue 1).dropped + (s.queue 1).items)
      ∧ (t.queue 1).vis = [{
          prio := h.prio, writer := w, tag := h.tag
          data := replyBytes Op.queueFlush Status.ok (max s.now n) h.tag (leBytes 2 (s.queue 1).items) }]
      ∧ (∀ q, q ≠ 1 → t.queue q = s.queue q)
      ∧ t = { s with now := max s.now n, queues := t.queues, mgmt := t.mgmt }) ∧
  (∀ (h : Hdr) (q : Nat) (p : QPacket) (d : Nat) (s : State), s.accepts Op.queueDrop false = true → q ≤ 50 →
    s.offService = true → (s.queue q).part = some (p, d) →
    Answers (.queueDrop h q false 0) h Op.queueDrop (fun _ => leBytes 2 (p.items - d / 64))
      (fun s => s.putQueue q { s.queue q with
        part := none, dropped := min 0xFFFF ((s.queue q).dropped + (p.items - d / 64)) }) s) ∧
  (∀ (h : Hdr) (q k : Nat) (p : QPacket) (s : State), s.accepts Op.queueDrop false = true → q ≤ 50 →
    s.offService = true → (s.queue q).wpart = some (p, k) →
    Answers (.queueDrop h q true p.writer) h Op.queueDrop (fun _ => leBytes 2 k)
      (fun s => s.setQueue q { s.queue q with
        wpart := none, dropped := min 0xFFFF ((s.queue q).dropped + k) }) s) ∧
  (∀ (h : Hdr) (q w : Nat) (s : State), s.accepts Op.queueDrop false = true → q ≤ 50 → s.offService = true →
    (∀ x ∈ (s.queue q).wpart, x.1.writer ≠ w) →
    Answers (.queueDrop h q true w) h Op.queueDrop (fun _ => leBytes 2 0) id s) ∧
  (∀ (h : Hdr) (q : Nat) (side : Bool) (w : Nat) (s : State), s.accepts Op.queueDrop false = true → q ≤ 50 →
    s.offService = false →
    Refuses (.queueDrop h q side w) h Op.queueDrop { status := Status.queueRefused } s)

/-- The dispatcher (R412, R413, R415, R417, R482): it reads the packet R265 selects; one for the fast decoder joins its
commands in order, one for a management core goes to the lowest free executing core, each where the packet's checks 1 to
3 pass; one with ORDER is held while a command is in hand; a held packet goes to a core that has become free. -/
def Obligations.Dispatcher : Prop :=
  (∀ (n : Nat) (p : QPacket) (rest : List QPacket) (s : State), s.up = true → s.mgmt.fwStarted = false →
    s.mgmt.held = [] → selectPacket (s.queue 0).vis = some (p, rest) → (bitOf 3 (numAt 1 1 p.data) = false ∨ s.inHand = false) →
    checkPacket p.data = none → s.goesFast p.data = true →
    ∃ t, exec (.dispatch n .clean) s = .next t ∧ (t.queue 0).vis = rest
      ∧ t.mgmt = { s.mgmt with fast := s.mgmt.fast ++ [{ prio := p.prio, tag := p.tag, data := p.data }] }
      ∧ t = { s with now := max s.now n, queues := t.queues, mgmt := t.mgmt, sdio := t.sdio }) ∧
  (∀ (n k : Nat) (p : QPacket) (rest : List QPacket) (s : State), s.up = true → s.mgmt.devState ≠ 0 →
    s.mgmt.held = [] → selectPacket (s.queue 0).vis = some (p, rest) → (bitOf 3 (numAt 1 1 p.data) = false ∨ s.inHand = false) →
    checkPacket p.data = none → s.goesFast p.data = false → s.freeCore = some k →
    ∃ t, exec (.dispatch n .clean) s = .next t ∧ (t.queue 0).vis = rest
      ∧ t.coreCmd k = some { prio := p.prio, tag := p.tag, data := p.data }
      ∧ (∀ j, j ≠ k → t.coreCmd j = s.coreCmd j)
      ∧ t = { s with now := max s.now n, queues := t.queues, mgmt := t.mgmt, sdio := t.sdio }) ∧
  (∀ (n : Nat) (p : QPacket) (rest : List QPacket) (s : State), s.up = true → s.mgmt.devState ≠ 0 →
    s.mgmt.held = [] → selectPacket (s.queue 0).vis = some (p, rest) → bitOf 3 (numAt 1 1 p.data) = true →
    s.inHand = true →
    ∃ t, exec (.dispatch n .clean) s = .next t ∧ (t.queue 0).vis = rest
      ∧ t.mgmt = { s.mgmt with held := [{ prio := p.prio, tag := p.tag, data := p.data }] }
      ∧ t = { s with now := max s.now n, queues := t.queues, mgmt := t.mgmt, sdio := t.sdio }) ∧
  (∀ (n k : Nat) (c : CmdPacket) (rest : List CmdPacket) (ecc : WordEcc) (s : State), s.up = true →
    s.mgmt.devState ≠ 0 → s.mgmt.held = c :: rest → s.freeCore = some k → s.goesFast c.data = false →
    (bitOf 3 (numAt 1 1 c.data) = false ∨ s.inHand = false) → checkPacket c.data = none →
    ∃ t, exec (.dispatch n ecc) s = .next t ∧ t.coreCmd k = some c ∧ t.mgmt.held = rest
      ∧ t = { s with now := max s.now n, mgmt := t.mgmt })

/-- An error-class latch (R272, R485): an armed one keeps the first report's time and detail, counts 1 and is held; a
held one counts each further report up to 0xFFFF and keeps no further detail. -/
def Obligations.ErrorLatch : Prop :=
  (∀ (r : ErrReport) (s : State), (s.latch r.cls).held = false →
    ((s.report r).latch r.cls).held = true ∧ ((s.report r).latch r.cls).count = 1
      ∧ ((s.report r).latch r.cls).time = s.now ∧ ((s.report r).latch r.cls).detail = r.detail s.tb.wp
      ∧ ∀ c, c ≠ r.cls → (s.report r).latch c = s.latch c) ∧
  (∀ (r : ErrReport) (s : State), (s.latch r.cls).held = true →
    (s.report r).latch r.cls = { s.latch r.cls with count := min 0xFFFF ((s.latch r.cls).count + 1) }
      ∧ (∀ c, c ≠ r.cls → (s.report r).latch c = s.latch c) ∧ ∀ q, (s.report r).queue q = s.queue q)

/-- SHQ_ERR_POP (R274): the window takes the entry R265 selects with its latch's count, LOST and time as they stand, the
latch is re-armed, and every other latch stays. With no visible entry the window stays and UNDERRUN is set (R266).
Recovery (R489): ENTER takes states 1 to 3 to 4 and keeps the state left in PRIOR; LEAVE returns to it, but to 2 from
a test whose command has replied meanwhile; each raises RECOVERY; neither has an effect elsewhere. A fault of an
executing management core (R491, R492): the standby takes over, its command restarts on core 4, and the device enters
recovery; with no standby and no other core left the device enters state 5. -/
def Obligations.PopRecoveryTakeover : Prop :=
  (∀ (h : Hdr) (p : QPacket) (rest : List QPacket) (s : State), s.accepts Op.regWrite false = true →
    selectPacket (s.queue 2).vis = some (p, rest) →
    ∃ t, exec (.shqErrPop h .clean) s = .next t
      ∧ t.errw = { cls := p.writer, sev := severity p.writer, lost := (s.latch p.writer).lost, valid := true,
                   count := (s.latch p.writer).count, time := (s.latch p.writer).time, detail := p.data }
      ∧ t.latch p.writer = {} ∧ (∀ c, c ≠ p.writer → t.latch c = s.latch c) ∧ (t.queue 2).vis = rest
      ∧ (∃ w, t.queue 1 = (s.queue 1).joined 1
          { prio := h.prio, writer := w, tag := h.tag,
            data := replyBytes Op.regWrite Status.ok (max s.now h.t) h.tag [] })
      ∧ t = { s with
          now := max s.now h.t, errw := t.errw, latches := t.latches, queues := t.queues, mgmt := t.mgmt, sec := t.sec }) ∧
  (∀ (h : Hdr) (s : State), s.accepts Op.regWrite false = true → (s.queue 2).vis = [] →
    Answers (.shqErrPop h .clean) h Op.regWrite (fun _ => [])
      (fun s => (s.setQueue 2 { s.queue 2 with underrun := true }).disarm) s) ∧
  (∀ (h : Hdr) (s : State), (s.mgmt.devState = 1 ∨ s.mgmt.devState = 2 ∨ s.mgmt.devState = 3) →
    ∃ t, exec (.frCtrlEnter h) s = .next t ∧ t.mgmt.devState = 4 ∧ t.mgmt.prior = s.mgmt.devState
      ∧ (t.latch 29).held = true
      ∧ t = { s with
          now := max s.now h.t, mgmt := t.mgmt, latches := t.latches, queues := t.queues, sec := t.sec }) ∧
  (∀ (h : Hdr) (s : State), s.mgmt.devState = 4 →
    ∃ t, exec (.frCtrlLeave h) s = .next t
      ∧ t.mgmt.devState = (if s.mgmt.prior = 3 ∧ s.mgmt.testReplied = true then 2 else s.mgmt.prior)
      ∧ (t.latch 29).held = true
      ∧ t = { s with
          now := max s.now h.t, mgmt := t.mgmt, latches := t.latches, queues := t.queues, sec := t.sec }) ∧
  (∀ (h : Hdr) (s : State), s.accepts Op.regWrite false = true → s.mgmt.devState = 5 →
    Answers (.frCtrlEnter h) h Op.regWrite (fun _ => []) State.disarm s
      ∧ Answers (.frCtrlLeave h) h Op.regWrite (fun _ => []) State.disarm s) ∧
  (∀ (n core cause : Nat) (s : State), s.up = true → s.mgmt.devState ≠ 5 → 1 ≤ core → core ≤ 3 →
    s.mgmt.cores.getLsbD (core - 1) = true → s.mgmt.standby = true → s.coreCmd 4 = none →
    ∃ t, exec (.mgmtCoreFault n core cause) s = .next t
      ∧ t.mgmt.cores.getLsbD (core - 1) = false ∧ t.mgmt.cores.getLsbD 3 = true ∧ t.mgmt.standby = false
      ∧ t.coreCmd 4 = s.coreCmd core ∧ t.coreCmd core = none ∧ (t.latch 1).held = true
      ∧ (s.mgmt.devState = 2 → t.mgmt.devState = 4 ∧ t.mgmt.prior = 2)) ∧
  (∀ (n core cause : Nat) (s : State), s.up = true → s.mgmt.devState ≠ 5 → 1 ≤ core → core ≤ 4 →
    s.mgmt.cores = 1#4 <<< (core - 1) → s.mgmt.standby = false →
    ∃ t, exec (.mgmtCoreFault n core cause) s = .next t ∧ t.mgmt.cores = 0 ∧ t.mgmt.devState = 5 ∧ t.mgmt.fatal = 2)

/-! ## The time base -/

/-- A transition in which A and B change within the same sample is illegal: it produces no count, increments
TB_ILLEGAL.COUNT (which saturates) and sets TB_STATUS.ENC_ILLEGAL (R15). Nothing else changes but the levels
themselves. -/
def Obligations.IllegalTransition : Prop :=
  ∀ (n : Nat) (s : State), s.up = true → s.tb.encEn = true → s.tb.los = 0 →
    exec (.encoderCount n (!s.tb.encA) (!s.tb.encB)) s = .next { s with
      now := max s.now n
      tb := { s.tb with
        encA := !s.tb.encA, encB := !s.tb.encB, encIllegal := true, illegal := min 0xFFFF (s.tb.illegal + 1) } }

/-- The divider and the web position (R13, R17, R18): a count that stays inside the divider moves only the accumulator;
one that completes a stitch moves WP by one; WP above HWM is a new stitch, which raises HWM, stamps it with device
time, takes the snapshot and ends a stall. While a pair is lost nothing counts (R16). -/
def Obligations.WebPosition : Prop :=
  (∀ (n : Nat) (a b : Bool) (s : State), s.up = true → s.tb.encEn = true → s.tb.los = 0 →
    (s.tb.encA = a ↔ ¬ s.tb.encB = b) → (aLeads s.tb.encA s.tb.encB a b != s.tb.dirInv) = true →
    s.tb.acc + s.tb.den < s.tb.num →
    exec (.encoderCount n a b) s = .next { s with
      now := max s.now n, tb := { s.tb with encA := a, encB := b, acc := s.tb.acc + s.tb.den } }) ∧
  (∀ (n : Nat) (a b : Bool) (s : State), s.up = true → s.tb.encEn = true → s.tb.los = 0 →
    (s.tb.encA = a ↔ ¬ s.tb.encB = b) → (aLeads s.tb.encA s.tb.encB a b != s.tb.dirInv) = true →
    s.tb.num ≤ s.tb.acc + s.tb.den → s.tb.wp + 1 ≤ s.tb.hwm →
    exec (.encoderCount n a b) s = .next { s with
      now := max s.now n
      tb := { s.tb with encA := a, encB := b, acc := s.tb.acc + s.tb.den - s.tb.num, wp := s.tb.wp + 1 } }) ∧
  (∀ (n : Nat) (a b : Bool) (s : State), s.up = true → s.tb.encEn = true → s.tb.los = 0 →
    (s.tb.encA = a ↔ ¬ s.tb.encB = b) → (aLeads s.tb.encA s.tb.encB a b != s.tb.dirInv) = true →
    s.tb.num ≤ s.tb.acc + s.tb.den → (s.tb.hwm : Int) < s.tb.wp + 1 →
    ∃ t, exec (.encoderCount n a b) s = .next t ∧ t.tb.wp = s.tb.wp + 1 ∧ (t.tb.hwm : Int) = s.tb.wp + 1
      ∧ t.tb.stamps = (t.tb.hwm, max s.now n) :: s.tb.stamps.take 1023 ∧ t.tb.snap.wp = t.tb.hwm
      ∧ t.tb.stall = false ∧ t.tb.stallBase = max s.now n
      ∧ t.tb.acc = s.tb.acc + s.tb.den - s.tb.num) ∧
  (∀ (n : Nat) (a b : Bool) (s : State), s.up = true → s.tb.encEn = true → s.tb.los = 0 →
    (s.tb.encA = a ↔ ¬ s.tb.encB = b) → (aLeads s.tb.encA s.tb.encB a b != s.tb.dirInv) = false →
    exec (.encoderCount n a b) s = .next { s with
      now := max s.now n
      tb := if s.tb.acc < s.tb.den then
          { s.tb with encA := a, encB := b, acc := s.tb.acc + s.tb.num - s.tb.den, wp := s.tb.wp - 1 }
        else { s.tb with encA := a, encB := b, acc := s.tb.acc - s.tb.den } }) ∧
  (∀ (n : Nat) (a b : Bool) (s : State), s.up = true → s.tb.los ≠ 0 →
    exec (.encoderCount n a b) s = .next { s with now := max s.now n, tb := { s.tb with encA := a, encB := b } })

/-- A unit fires where a new stitch equals its target; with a period the target advances by it, without one the unit
disarms and stays claimed (R27). A unit that does not fire stays, and so does every other unit. -/
def Obligations.CompareUnitFires : Prop :=
  (∀ (st k : Nat) (m : List Nat × State), (m.2.unit k).armed = true → (m.2.unit k).target = st →
    (m.2.unit k).action ≤ 2 ∨ (m.2.unit k).action = 5 →
    (State.fireUnit st m k).2.unit k = { m.2.unit k with
        armed := decide ((m.2.unit k).period ≠ 0), target := st + (m.2.unit k).period }
      ∧ ∀ j, j ≠ k → (State.fireUnit st m k).2.unit j = m.2.unit j) ∧
  (∀ (st k : Nat) (m : List Nat × State), ((m.2.unit k).armed = false ∨ (m.2.unit k).target ≠ st) →
    State.fireUnit st m k = m)

/-- Losses and marks of the encoder (R16, R24, R25): a lost pair stops counting and is reported once per event; recovery
clears ENC_LOS; 1,000 µs without a new stitch set STALL; a Z pulse under SHEET_SRC = INDEX asks for a boundary. THREAD
pins (R25, R464 to R466): a rising edge of a TRIGGER pin takes WP[31:0] and, on the sheet pin, asks for a boundary; a
strobe's pulse ends at its inactive level, and a pin without a user is then free. A pin that no house-converter
sequence watches drives nothing else. -/
def Obligations.EncoderAndPins : Prop :=
  (∀ (n : Nat) (pairs : BitVec 3) (s : State), s.up = true → s.tb.los = 0 → pairs ≠ 0 →
    ∃ t, exec (.encoderLoss n pairs) s = .next t ∧ t.tb = { s.tb with los := pairs } ∧ (t.latch 12).held = true
      ∧ t = { s with now := max s.now n, tb := t.tb, latches := t.latches, queues := t.queues }) ∧
  (∀ (n : Nat) (pairs : BitVec 3) (s : State), s.up = true → s.tb.los ≠ 0 →
    exec (.encoderLoss n pairs) s = .next { s with
      now := max s.now n, tb := { s.tb with los := s.tb.los ||| pairs } }) ∧
  (∀ (n : Nat) (s : State), s.up = true →
    exec (.encoderLossEnd n) s = .next { s with now := max s.now n, tb := { s.tb with los := 0 } }) ∧
  (∀ (n : Nat) (s : State), s.up = true → s.tb.stall = false →
    max s.mgmt.resetAt s.tb.stallBase + 1_000_000 ≤ max s.now n →
    ∃ t, exec (.stall n) s = .next t ∧ t.tb = { s.tb with stall := true }
      ∧ t = { s with now := max s.now n, tb := t.tb, pk := t.pk }) ∧
  (∀ (n : Nat) (s : State), s.up = true → s.tb.encEn = true → s.tb.los = 0 → s.tb.sheetSrc = 2 →
    exec (.indexPulse n) s = .next { s with now := max s.now n, sheets := { s.sheets with indexPend := true } }) ∧
  (∀ (n k : Nat) (s : State), s.alive = true → (s.pin k).role = 2 → (s.pin k).level = false →
    ∃ t, exec (.threadTriggerEdge n k true) s = .next t
      ∧ t.pin k = { s.pin k with level := true, edgeWp := ofSigned 32 s.tb.wp }
      ∧ (∀ j, j ≠ k → t.pin j = s.pin j)
      ∧ t.sheets = { s.sheets with threadPend := s.sheets.threadPend || s.sheets.pin == some k }
      ∧ t = { s with now := max s.now n, pins := t.pins, sheets := t.sheets, seqs := t.seqs }) ∧
  (∀ (n k : Nat) (s : State), s.alive = true → (s.pin k).role = 2 → (s.pin k).level = true →
    ∃ t, exec (.threadTriggerEdge n k false) s = .next t ∧ t.pin k = { s.pin k with level := false }
      ∧ t = { s with now := max s.now n, pins := t.pins, seqs := t.seqs }) ∧
  (∀ (n k e : Nat) (s : State), s.alive = true → (s.pin k).pulse = some e → e ≤ max s.now n →
    ∃ t, exec (.pulseEnd n k) s = .next t ∧ (t.pin k).pulse = none ∧ (t.pin k).level = (s.pin k).pol
      ∧ ((s.pin k).users = 0 → (t.pin k).role = 0) ∧ ((s.pin k).users ≠ 0 → (t.pin k).role = (s.pin k).role)
      ∧ (∀ j, j ≠ k → t.pin j = s.pin j)
      ∧ t = { s with now := max s.now n, pins := t.pins, seqs := t.seqs })

/-- TB_CONFIG (R20, R438): where its parameters are in range and its own checks pass, the divider, direction, filter and
sheet source are as given, the accumulator is 0, a preset sets WP and HWM together, TB_SHEET is 0, and the reply names
the sheet unit or 0xFF; while a template is admitted it is refused with RES_HELD, kind 17. -/
def Obligations.TimeBaseConfig : Prop :=
  (∀ (h : Hdr) (p : TbConfigParams) (s : State), s.accepts Op.tbConfig false = true → 1 ≤ p.den → p.den ≤ p.num →
    p.num ≤ 65535 → p.filt ≤ 15 → p.sheetSrc ≤ 3 → p.sheetPin ≤ 3 → (p.sheetSrc = 1 → 1 ≤ p.rep) →
    tbConfigCheck p s = none →
    ∃ t, exec (.tbConfig h p) s = .next t
      ∧ Replied h Op.tbConfig Status.ok (leBytes 1 (t.sheets.unit.getD 0xFF)) s t
      ∧ t.tb = { s.tb with
          encEn := p.encEn, dirInv := p.dirInv, sheetSrc := p.sheetSrc, sheetPin := p.sheetPin, filt := p.filt
          num := p.num, den := p.den, rep := p.rep, acc := 0, stallBase := max s.now h.t
          wp := if p.preset then (p.wp : Int) else s.tb.wp, hwm := if p.preset then p.wp else s.tb.hwm }
      ∧ t.sheets.sheet = 0 ∧ (p.sheetSrc ≠ 1 → t.sheets.unit = none)
      ∧ (p.sheetSrc = 3 → t.sheets.pin = some p.sheetPin ∧ (t.pin p.sheetPin).role = 2)
      ∧ t.streams = s.streams ∧ t.ports = s.ports ∧ t.mem = s.mem ∧ t.power = s.power ∧ t.sec = s.sec) ∧
  (∀ (h : Hdr) (p : TbConfigParams) (k : Nat) (x : Template) (rest : List (Nat × Template)) (s : State),
    s.accepts Op.tbConfig false = true → tbConfigParams p = none → s.admitted = (k, x) :: rest →
    Refuses (.tbConfig h p) h Op.tbConfig (resHeld Op.jobAdmit Op.tbConfig 17 k 0xFF k) s)

/-- A one-shot target at or below HWM + 1 is refused with TB_PAST. A periodic target at or below HWM + 1 is armed at the
first target + k × period that lies above HWM + 1 (R31). Both hold of every action a claim may ask for, and of a unit
that is named and of the lowest free one. -/
def Obligations.ClaimTargets : Prop :=
  (∀ (h : Hdr) (u : Option Nat) (k action arg target : Nat) (s : State), s.accepts Op.tbClaim false = true →
    (u = some k ∧ k ≤ 63 ∧ (s.unit k).claimed = false ∨ u = none ∧ s.freeUnit = some k) →
    (action = 0 ∨ action = 2 ∨ action = 5 ∨ action = 1 ∧ arg ≤ 3 ∧ ((s.pin arg).role = 0 ∨ (s.pin arg).role = 1)) →
    arg ≤ 15 → target ≤ s.tb.hwm + 1 →
    Refuses (.tbClaimClaim h u action arg 0 target) h Op.tbClaim { status := Status.tbPast } s) ∧
  (∀ (h : Hdr) (u : Option Nat) (k action arg period target : Nat) (s : State), s.accepts Op.tbClaim false = true →
    (u = some k ∧ k ≤ 63 ∧ (s.unit k).claimed = false ∨ u = none ∧ s.freeUnit = some k) →
    (action = 0 ∨ action = 2 ∨ action = 5 ∨ action = 1 ∧ arg ≤ 3 ∧ ((s.pin arg).role = 0 ∨ (s.pin arg).role = 1)) →
    arg ≤ 15 → period ≠ 0 → target ≤ s.tb.hwm + 1 →
    ∃ j g, g = target + j * period ∧ s.tb.hwm + 1 < g ∧ (∀ i, i < j → target + i * period ≤ s.tb.hwm + 1)
      ∧ Answers (.tbClaimClaim h u action arg period target) h Op.tbClaim
          (fun _ => leBytes 1 k ++ zeros 7 ++ leBytes 8 g)
          (fun s =>
            let v := s.setUnit k { target := g, period := period, claimed := true, armed := true, action := action,
                                   arg := arg, holder := Op.tbClaim }
            if action = 1 then
              v.setPin arg { s.pin arg with
                role := 1, holder := Op.tbClaim, users := (s.pin arg).users + 1
                level := if (s.pin arg).role = 0 ∧ (s.pin arg).pulse = none then (s.pin arg).pol else (s.pin arg).level }
            else v) s)

/-- TB_CLAIM and its release (R29, R30, R439): a target above HWM + 1 is armed as given on the unit named, or on the
lowest free one; a held unit is refused with its holder; a release of a unit that TB_CLAIM holds frees it alone. A
THREAD_PULSE claim also claims its pin as a strobe output if the pin is free, shares it if TB_CLAIM already holds it
so, is refused with RES_HELD if it is held in any other role, and the pin is freed when the last unit that names it is
released. That a free pin is driven to its inactive level at the claim is the model's reading (assumption 89), and
that a pulse in progress keeps the pin until it ends is R464. -/
def Obligations.ClaimAndRelease : Prop :=
  (∀ (h : Hdr) (k action arg period target : Nat) (s : State), s.accepts Op.tbClaim false = true → k ≤ 63 →
    (action = 0 ∨ action = 2 ∨ action = 5) → arg ≤ 15 → (s.unit k).claimed = false → s.tb.hwm + 1 < target →
    Answers (.tbClaimClaim h (some k) action arg period target) h Op.tbClaim
      (fun _ => leBytes 1 k ++ zeros 7 ++ leBytes 8 target)
      (fun s => s.setUnit k { target := target, period := period, claimed := true, armed := true, action := action,
                              arg := arg, holder := Op.tbClaim }) s) ∧
  (∀ (h : Hdr) (k action arg period target : Nat) (s : State), s.accepts Op.tbClaim false = true →
    (action = 0 ∨ action = 2 ∨ action = 5) → arg ≤ 15 → s.freeUnit = some k → s.tb.hwm + 1 < target →
    Answers (.tbClaimClaim h none action arg period target) h Op.tbClaim
      (fun _ => leBytes 1 k ++ zeros 7 ++ leBytes 8 target)
      (fun s => s.setUnit k { target := target, period := period, claimed := true, armed := true, action := action,
                              arg := arg, holder := Op.tbClaim }) s) ∧
  (∀ (h : Hdr) (k action arg period target : Nat) (s : State), s.accepts Op.tbClaim false = true → k ≤ 63 →
    (action = 0 ∨ action = 2 ∨ action = 5) → arg ≤ 15 → (s.unit k).claimed = true →
    Refuses (.tbClaimClaim h (some k) action arg period target) h Op.tbClaim
      (resHeld (s.unit k).holder Op.tbClaim 1 k 0xFF 0xFFFF_FFFF) s) ∧
  (∀ (h : Hdr) (k : Nat) (s : State), s.accepts Op.tbClaim false = true → k ≤ 63 → (s.unit k).claimed = true →
    (s.unit k).holder = Op.tbClaim → (s.unit k).action ≠ 1 →
    Answers (.tbClaimRelease h k) h Op.tbClaim (fun _ => leBytes 1 k ++ zeros 15) (fun s => s.setUnit k {}) s) ∧
  (∀ (h : Hdr) (k : Nat) (s : State), s.accepts Op.tbClaim false = true → k ≤ 63 → (s.unit k).claimed = true →
    (s.unit k).holder = Op.tbClaim → (s.unit k).action = 1 → (s.pin (s.unit k).arg).users = 1 →
    (s.pin (s.unit k).arg).pulse = none →
    ∃ t, exec (.tbClaimRelease h k) s = .next t ∧ t.unit k = {} ∧ (t.pin (s.unit k).arg).role = 0
      ∧ (∀ j, j ≠ k → t.unit j = s.unit j)
      ∧ t = { s with
          now := max s.now h.t, units := t.units, pins := t.pins, queues := t.queues, mgmt := t.mgmt }) ∧
  (∀ (h : Hdr) (k arg period target : Nat) (s : State), s.accepts Op.tbClaim false = true → k ≤ 63 → arg ≤ 3 →
    (s.unit k).claimed = false → ((s.pin arg).role = 0 ∨ (s.pin arg).role = 1) → s.tb.hwm + 1 < target →
    Answers (.tbClaimClaim h (some k) 1 arg period target) h Op.tbClaim
      (fun _ => leBytes 1 k ++ zeros 7 ++ leBytes 8 target)
      (fun s => (s.setUnit k { target := target, period := period, claimed := true, armed := true, action := 1,
                               arg := arg, holder := Op.tbClaim }).setPin arg { s.pin arg with
          role := 1, holder := Op.tbClaim, users := (s.pin arg).users + 1
          level := if (s.pin arg).role = 0 ∧ (s.pin arg).pulse = none then (s.pin arg).pol else (s.pin arg).level }) s) ∧
  (∀ (h : Hdr) (k arg period target : Nat) (s : State), s.accepts Op.tbClaim false = true → k ≤ 63 → arg ≤ 3 →
    (s.unit k).claimed = false → (s.pin arg).role ≠ 0 → (s.pin arg).role ≠ 1 →
    Refuses (.tbClaimClaim h (some k) 1 arg period target) h Op.tbClaim
      (resHeld (s.pin arg).holder Op.tbClaim 2 arg 0xFF (s.pin arg).owner) s) ∧
  (∀ (h : Hdr) (k n : Nat) (s : State), s.accepts Op.tbClaim false = true → k ≤ 63 → (s.unit k).claimed = true →
    (s.unit k).holder = Op.tbClaim → (s.unit k).action = 1 → (s.pin (s.unit k).arg).users = n + 1 →
    Answers (.tbClaimRelease h k) h Op.tbClaim (fun _ => leBytes 1 k ++ zeros 15)
      (fun s => (s.setUnit k {}).setPin (s.unit k).arg
        (if n = 0 ∧ (s.pin (s.unit k).arg).pulse = none
         then { s.pin (s.unit k).arg with users := 0, role := 0, holder := 0 }
         else { s.pin (s.unit k).arg with users := n })) s)

/-! ## The Picot port -/

/-- PK_CONFIG (R445, R454, R455, R457): OP 0 claims the lowest free unit with the origin and a period of 16, counts
frames from 0, and ungates the Picot I/O; OP 1 with no frame in progress frees the unit and empties the throw buffer;
an origin at or below HWM + 1 is refused with TB_PAST. The frame (R456, R458 to R462): a due pick-up slot ends with
the bytes picked and the turnaround begins; a due turnaround starts the throw burst, whose header, records and CRC-16
are as R459 and R460 lay them out and which takes its records from the buffer in order; a due last slot ends the
frame; a burst ends when its CRC has been sent. -/
def Obligations.PicotPort : Prop :=
  (∀ (h : Hdr) (m : BitVec 16) (origin k : Nat) (s : State), s.accepts Op.pkConfig false = true → s.picotRole ≠ 0 →
    s.pk.en = false → s.freeUnit = some k → s.tb.hwm + 1 < origin → s.tb.stall = false →
    Answers (.pkConfigEnable h m origin) h Op.pkConfig (fun _ => leBytes 1 k)
      (fun s => { s.setUnit k { target := origin, period := 16, claimed := true, armed := true, action := 4, arg := 0,
                                holder := Op.pkConfig } with
        power := { s.power with on := setDomains true [313] s.power.on }
        pk := { s.pk with en := true, unit := k, streams := m, frames := 0 } }) s) ∧
  (∀ (h : Hdr) (m : BitVec 16) (origin k : Nat) (s : State), s.accepts Op.pkConfig false = true → s.picotRole ≠ 0 →
    s.pk.en = false → s.freeUnit = some k → origin ≤ s.tb.hwm + 1 →
    Refuses (.pkConfigEnable h m origin) h Op.pkConfig { status := Status.tbPast } s) ∧
  (∀ (h : Hdr) (s : State), s.accepts Op.pkConfig false = true → s.picotRole ≠ 0 → s.pk.en = true →
    s.pk.frame = none → (s.unit s.pk.unit).action = 4 →
    Answers (.pkConfigDisable h) h Op.pkConfig (fun _ => leBytes 1 0xFF)
      (fun s => { s.setUnit s.pk.unit {} with
        pk := { s.pk with
          en := false, stopping := false, unit := 0, deferred := none, buf := []
          dropFilt := min 0xFFFF (s.pk.dropFilt + s.pk.buf.length) } }) s) ∧
  (∀ (h : Hdr) (x : PkFrame) (s : State), s.accepts Op.pkConfig false = true → s.picotRole ≠ 0 → s.pk.en = true →
    s.pk.frame = some x →
    Answers (.pkConfigDisable h) h Op.pkConfig (fun _ => leBytes 1 0xFF)
      (fun s => { s with pk := { s.pk with stopping := true } }) s) ∧
  (∀ (n : Nat) (b : Bytes) (x : PkFrame) (s : State), s.alive = true → s.pk.frame = some x → x.slot = 0 →
    (s.advance n).slotDue x = true → s.picotRole = 1 → b.length = 8 →
    exec (.picotSlotEnd n b) s = .next { s with
      now := max s.now n
      pk := { s.pk with
        pick := b, pickWp := x.f % 2 ^ 32, pickFr := s.pk.frames, long := min 0xFFFF s.pk.long
        frame := some { x with slot := 1, start := max s.now n, cut := false } } }) ∧
  (∀ (n : Nat) (b : Bytes) (x : PkFrame) (s : State), s.alive = true → s.pk.frame = some x → x.slot = 1 →
    (s.advance n).slotDue x = true →
    ∃ t r k, exec (.picotSlotEnd n b) s = .next t ∧ k ≤ 128 ∧ k ≤ s.pk.buf.length ∧ t.pk.buf = s.pk.buf.drop k
      ∧ r = leBytes 1 0xA5 ++ leBytes 1 s.pk.frames ++ leBytes 1 k
          ++ leBytes 1 (flag 0 x.timer + flag 1 s.pk.lostSince + flag 2 x.deferred) ++ (s.pk.buf.take k).flatten
      ∧ t.pk.lastBurst = r ++ leBytes 2 (crc16 r)
      ∧ t.pk.frame = some { x with
          slot := 2, start := max s.now n, cut := false, burst := some (max s.now n + 200 + 20 * (r.length + 2)) }
      ∧ t.pk.lostSince = false ∧ t = { s with now := max s.now n, pk := t.pk }) ∧
  (∀ (n : Nat) (b : Bytes) (x : PkFrame) (s : State), s.alive = true → s.pk.frame = some x → x.slot = 3 →
    (s.advance n).slotDue x = true → s.pk.stopping = false → s.pk.deferred = none → s.tb.stall = false →
    exec (.picotSlotEnd n b) s = .next { s with now := max s.now n, pk := { s.pk with frame := none } }) ∧
  (∀ (n e : Nat) (x : PkFrame) (s : State), s.alive = true → s.pk.frame = some x → x.burst = some e →
    e ≤ max s.now n →
    ∃ late, exec (.throwBurstEnd n) s = .next { s with
      now := max s.now n
      pk := { s.pk with frame := some { x with burst := none }, statOverrun := s.pk.statOverrun || late } })

/-! ## The house converter -/

/-- The code a conversion forms (R363): the SAR bits with the corrected weights of bits 4 to 11, less OFS / 16, times
GAIN / 32,768 of the mode in use, rounded half to even and held to 0 to 4,095. -/
def Obligations.HouseCode : Prop :=
  ∀ (x : House) (lp : Bool) (raw : BitVec 12),
    let w : Int := ((List.range 8).map fun k => if raw.getLsbD (11 - k) then x.fact.getD (4 + k) 0 else 0).sum
    let bits : Int := ((List.range 12).map fun i => if raw.getLsbD i then (2 : Int) ^ i else 0).sum
    let ofs := x.fact.getD (if lp then 2 else 0) 0
    let gain := x.fact.getD (if lp then 3 else 1) 0
    (x.code lp raw : Int) = max 0 (min 4095 (roundHalfEven ((64 * bits + w - 4 * ofs) * gain) (64 * 32768)))

/-- HC_CONFIG (R362, R366, R367, R443): OP 0 that passes its checks claims the steps' channels, each with the options
and window of the first step that names it, a free trigger pin, and enables the idle sequence; OP 1 on a sequence with
no conversion in progress disables it and frees its channels; OP 2 sets the mode and the probe threshold. -/
def Obligations.HouseConfig : Prop :=
  (∀ (h : Hdr) (p : HcEnableParams) (s : State), s.accepts Op.hcConfig false = true → p.seq ≤ 15 →
    (∀ x ∈ p.steps, x.ch ≤ 31 ∧ x.lo ≤ 4095 ∧ x.hi ≤ 4095) → hcEnableCheck p s = none →
    ∃ t, exec (.hcConfigEnable h p) s = .next t ∧ Replied h Op.hcConfig Status.ok [] s t
      ∧ (∀ x, p.steps.head? = some x → t.chan x.ch = {
          claimed := true, seq := p.seq, opt := x.opt, winEn := x.winEn && decide (x.ch < 16), holder := Op.hcConfig,
          lo := x.lo, hi := x.hi })
      ∧ (∀ x ∈ p.steps, (t.chan x.ch).claimed = true ∧ (t.chan x.ch).seq = p.seq)
      ∧ (∀ c, (∀ x ∈ p.steps, x.ch ≠ c) → t.chan c = s.chan c)
      ∧ t.hseq p.seq = {
          en := true, thread := p.thread, pin := p.pin, edge := p.edge, delay := p.delay, steps := p.steps.map HcStep.ch,
          claimsPin := p.thread && (s.pin p.pin).role == 0, runs := (s.hseq p.seq).runs, lost := (s.hseq p.seq).lost }
      ∧ (∀ q, q ≠ p.seq → t.hseq q = s.hseq q)
      ∧ (p.thread = true → (s.pin p.pin).role = 0 → (t.pin p.pin).role = 2 ∧ (t.pin p.pin).holder = Op.hcConfig)
      ∧ t = { s with
          now := max s.now h.t, chans := t.chans, seqs := t.seqs, pins := t.pins, queues := t.queues, mgmt := t.mgmt }) ∧
  (∀ (h : Hdr) (q : Nat) (s : State), s.accepts Op.hcConfig false = true → q ≤ 15 → (s.hseq q).en = true →
    s.seqConverting q = false →
    ∃ t, exec (.hcConfigDisable h q) s = .next t ∧ Replied h Op.hcConfig Status.ok [] s t
      ∧ t.hseq q = { runs := (s.hseq q).runs, lost := (s.hseq q).lost } ∧ (∀ p, p ≠ q → t.hseq p = s.hseq p)
      ∧ (∀ c, c < 32 → t.chan c = if (s.chan c).claimed = true ∧ (s.chan c).seq = q then {} else s.chan c)
      ∧ ((s.hseq q).claimsPin = true → (t.pin (s.hseq q).pin).role = 0)
      ∧ ((s.hseq q).claimsPin = false → t.pins = s.pins)
      ∧ t = { s with
          now := max s.now h.t, chans := t.chans, seqs := t.seqs, pins := t.pins, queues := t.queues, mgmt := t.mgmt }) ∧
  (∀ (h : Hdr) (q : Nat) (s : State), s.accepts Op.hcConfig false = true → q ≤ 15 → (s.hseq q).en = true →
    s.seqConverting q = true →
    Answers (.hcConfigDisable h q) h Op.hcConfig (fun _ => [])
      (fun s => s.setHseq q { s.hseq q with ending := true }) s) ∧
  (∀ (h : Hdr) (lp : Bool) (owTh : Nat) (s : State), s.accepts Op.hcConfig false = true → 1 ≤ owTh → owTh ≤ 2047 →
    Answers (.hcConfigMode h lp owTh) h Op.hcConfig (fun _ => [])
      (fun s => { s with hc := { s.hc with lp := lp, owTh := owTh } }) s)

/-- HC_READ (R371, R373): DATA answers HC_DATA and HC_DATA_WP and clears VALID and OVERRUN; CONVERT with the converter
free and nothing waiting starts its conversion; URGENT aborts a sequence's conversion, which will restart, and starts
its own; a REG_READ of HC_DATA clears the same flags and freezes HC_DATA_WP. A sequence whose delay has ended is
ready, and the free converter takes its first step; during a self-calibration its trigger is lost (R365, R368, R369).
A conversion of a host read ends with the reply that carries its code, and of a sequence's step with HC_DATA (R370,
R371). A conversion of the calibration machinery answers nobody; it is made once for a seal (R357, R369). -/
def Obligations.HouseConverter : Prop :=
  (∀ (h : Hdr) (s : State), s.accepts Op.hcRead false = true →
    Answers (.hcReadData h) h Op.hcRead
      (fun s => leBytes 4 s.hc.data.word ++ leBytes 4 (s.hc.data.frozenWp.getD s.hc.data.wp))
      (fun s => { s with hc := { s.hc with
        data := { s.hc.data with valid := false, overrun := false, frozenWp := none } } }) s) ∧
  (∀ (h : Hdr) (s : State), s.accepts Op.regRead false = true →
    Answers (.hcDataRead h) h Op.regRead (fun s => leBytes 4 s.hc.data.word)
      (fun s => { s with hc := { s.hc with
        data := { s.hc.data with
          valid := false, overrun := false, frozenWp := some (s.hc.data.frozenWp.getD s.hc.data.wp) } } }) s) ∧
  (∀ (h : Hdr) (ch : Nat) (opt : HcOpt) (s : State), s.accepts Op.hcRead false = true → ch ≤ 31 →
    hcReadCheck ch opt s = none → s.trim.cal = none → s.hc.conv = none → s.hc.aborted = [] → s.hc.urgents = [] →
    s.hc.reads = [] → s.runningSeq = none → s.readySeq = none →
    (∀ w, (s.advance h.t).checkWaits = some w → max s.now h.t < w + 1_000_000) →
    exec (.hcReadConvert h ch opt) s = .next { s with
      now := max s.now h.t
      hc := { s.hc with conv := some {
        kind := .read h, ch := ch, opt := s.readOpt ch opt, start := max s.now h.t, lp := s.hc.lp
        owTh := s.hc.owTh } } }) ∧
  (∀ (h : Hdr) (ch q i : Nat) (opt : HcOpt) (c : Conv) (s : State), s.accepts Op.hcRead false = true → ch ≤ 31 →
    hcReadCheck ch opt s = none → s.hc.conv = some c → c.kind = .step q i →
    exec (.hcReadUrgent h ch opt) s = .next { s with
      now := max s.now h.t
      hc := { s.hc with
        aborted := s.hc.aborted ++ [{ c with restarted := true }], abort := min 0xFFFF (s.hc.abort + 1)
        conv := some {
          kind := .urgent h, ch := ch, opt := s.readOpt ch opt, start := max s.now h.t, lp := s.hc.lp
          owTh := s.hc.owTh } } }) ∧
  (∀ (n q u : Nat) (s : State), s.up = true → (s.hseq q).phase = .delay u → u ≤ max s.now n →
    (s.hc.selfcal.isSome = true ∨ s.trim.cal.isSome = true) →
    exec (.sequenceReady n q) s = .next { s.setHseq q { s.hseq q with
        phase := .idle, lost := min 0xFFFF ((s.hseq q).lost + 1) } with now := max s.now n }) ∧
  (∀ (n q u : Nat) (s : State), s.up = true → q < 16 → (s.hseq q).phase = .delay u → u ≤ max s.now n →
    s.hc.selfcal = none → s.trim.cal = none → s.hc.conv = none → s.hc.aborted = [] → s.hc.urgents = [] →
    s.runningSeq = none → s.readySeq = none →
    (∀ w, (s.advance n).checkWaits = some w → max s.now n < w + 1_000_000) →
    ∃ t, exec (.sequenceReady n q) s = .next t ∧ t.hseq q = { s.hseq q with phase := .running 0 }
      ∧ t.hc = { s.hc with conv := some {
          kind := .step q 0, ch := nth (s.hseq q).steps 0, opt := (s.chan (nth (s.hseq q).steps 0)).opt
          start := max s.now n, lp := s.hc.lp, owTh := s.hc.owTh } }
      ∧ t = { s with now := max s.now n, seqs := t.seqs, hc := t.hc }) ∧
  (∀ (n : Nat) (raw lo hi : BitVec 12) (c : Conv) (h : Hdr) (s : State), s.up = true → s.hc.conv = some c →
    c.kind = .read h → c.opt.ow = 0 → s.hc.aborted = [] → s.hc.urgents = [] → s.hc.reads = [] → s.runningSeq = none →
    s.readySeq = none → (s.advance n).checkWaits = none →
    ∃ t, exec (.conversionEnd n raw lo hi) s = .next t ∧ t.hc = { s.hc with conv := none }
      ∧ Replied h Op.hcRead Status.ok
          (leBytes 4 (s.hc.code c.lp raw % 4096 + fld 12 5 c.ch + flag 23 c.restarted + flag 24 c.lp + flag 31 true)
            ++ leBytes 4 0) s t
      ∧ t = { s with now := max s.now n, hc := t.hc, queues := t.queues, mgmt := t.mgmt }) ∧
  (∀ (n q i : Nat) (raw lo hi : BitVec 12) (c : Conv) (s : State), s.up = true → s.hc.conv = some c →
    c.kind = .step q i → c.opt.ow = 0 → (s.chan c.ch).winEn = false → (s.hseq q).ending = false →
    (s.hseq q).steps.length = i + 1 → s.hc.aborted = [] → s.hc.urgents = [] → s.hc.reads = [] →
    (∀ p, p ≠ q → (s.hseq p).phase = .idle) → (s.advance n).checkWaits = none →
    ∃ t, exec (.conversionEnd n raw lo hi) s = .next t
      ∧ t.hc.data = { code := s.hc.code c.lp raw, ch := c.ch, seq := q, restarted := c.restarted, lp := c.lp,
                      overrun := s.hc.data.valid, valid := true, wp := (s.hseq q).trigWp,
                      frozenWp := s.hc.data.frozenWp }
      ∧ t.hseq q = { s.hseq q with phase := .idle, runs := min 0xFFFF ((s.hseq q).runs + 1) }
      ∧ t = { s with now := max s.now n, hc := t.hc, seqs := t.seqs }) ∧
  (∀ (n : Nat) (raw lo hi : BitVec 12) (c : Conv) (s : State), s.up = true → s.hc.conv = some c → c.kind = .check →
    s.hc.aborted = [] → s.hc.urgents = [] → s.hc.reads = [] → s.runningSeq = none → s.readySeq = none →
    exec (.conversionEnd n raw lo hi) s = .next { s with
      now := max s.now n, hc := { s.hc with conv := none, checked := true } })

/-! ## Registers -/

/-- REG_READ and REG_WRITE (R8 to R11, R419, R420): a read answers the registers in ascending order, four bytes each,
low byte first, and clears what a read clears; an address of block TB that no map defines reads 0; the RC count of
TB_ILLEGAL clears; a write of TB_STATUS clears its W1C bits where it writes 1; a write of a read-only register has no
effect; a block of a gated pillow is refused. Every REG_WRITE but the arming one disarms SEC_OP (R511). The reads with
rows of their own (R32, R467): TB_WP_LO and PK_PICK0 answer their own register and freeze the others of their
snapshot; a snapshot that is frozen already stays. -/
def Obligations.RegisterAccess : Prop :=
  (∀ (h : Hdr) (addr : BitVec 32) (n : Nat) (s : State),
    s.accepts Op.regRead (addr.toNat / 2 ^ 16 == 8) = true → regParams addr n = none → s.regGated addr = none →
    (s.readRegs (addr.toNat / 2 ^ 16) (addr.toNat % 4096) n).1.length = 4 * n ∧
    Answers (.regRead h addr n) h Op.regRead
      (fun s => (s.readRegs (addr.toNat / 2 ^ 16) (addr.toNat % 4096) n).1)
      (fun s => (s.readRegs (addr.toNat / 2 ^ 16) (addr.toNat % 4096) n).2) s) ∧
  (∀ (h : Hdr) (o : Nat) (s : State), s.accepts Op.regRead false = true → o % 4 = 0 → 0x500 ≤ o → o < 4096 →
    Answers (.regRead h (BitVec.ofNat 32 (0x10000 + o)) 1) h Op.regRead (fun _ => leBytes 4 0) id s) ∧
  (∀ (h : Hdr) (s : State), s.accepts Op.regRead false = true →
    Answers (.regRead h 0x1003C 1) h Op.regRead (fun s => leBytes 4 (s.tb.illegal % 2 ^ 16))
      (fun s => { s with tb := { s.tb with illegal := 0 } }) s) ∧
  (∀ (h : Hdr) (v : BitVec 32) (s : State), s.accepts Op.regWrite false = true →
    Answers (.regWrite h 0x1000C [v]) h Op.regWrite (fun _ => [])
      (fun s => { s with
        sec := { s.sec with armed := false }
        tb := { s.tb with
          encIllegal := s.tb.encIllegal && !v.getLsbD 4, sheetOld := s.tb.sheetOld && !v.getLsbD 5
          overspeedSeen := s.tb.overspeedSeen && !v.getLsbD 6 } }) s) ∧
  (∀ (h : Hdr) (v : BitVec 32) (s : State), s.accepts Op.regWrite false = true →
    Answers (.regWrite h 0x10010 [v]) h Op.regWrite (fun _ => [])
      (fun s => { s with sec := { s.sec with armed := false } }) s) ∧
  (∀ (h : Hdr) (addr : BitVec 32) (vals : List (BitVec 32)) (p : Nat) (s : State),
    s.accepts Op.regWrite false = true → regParams addr vals.length = none →
    addr.toNat / 2 ^ 16 = 0x100 + p → s.pillowOn p = false →
    Refuses (.regWrite h addr vals) h Op.regWrite stateRefused s) ∧
  (∀ (h : Hdr) (s : State), s.accepts Op.regRead false = true →
    Answers (.tbWpLoRead h) h Op.regRead (fun s => leBytes 4 (s.tb.snap.wp % 2 ^ 32))
      (fun s => { s with tb := { s.tb with frozen := some (s.tb.frozen.getD s.tb.snap) } }) s) ∧
  (∀ (h : Hdr) (s : State), s.accepts Op.regRead false = true →
    Answers (.pkPick0Read h) h Op.regRead (fun s => leBytes 4 (numAt 0 4 s.pk.pick))
      (fun s => { s with pk := { s.pk with
        pickFrozen := some (s.pk.pickFrozen.getD (s.pk.pick, s.pk.pickWp, s.pk.pickFr)) } }) s)

/-- QC_COMMIT (R109, R110): a valid staged set joins the pending set of its descriptor; a set that R110 refuses changes
nothing but REFUSED. WR_REQ (R333): a request for a bobbin that may be refreshed joins the pillow's queue under source
3; one for a bobbin that may not changes nothing; while CAL_DONE is 0 it is refused with CAL_FAIL (R345). -/
def Obligations.PillowRequests : Prop :=
  (∀ (h : Hdr) (p : Nat) (s : State), s.accepts Op.regWrite false = true → s.inService p = true →
    (s.pillow p).commitRefused = false → (s.tb.sheetSrc ≠ 0 ∨ s.busyPillow p = true) →
    Answers (.qcCommit h p) h Op.regWrite (fun _ => [])
      (fun s => { s.setPillow p { s.pillow p with
          qc := { (s.pillow p).qc with
            pend := tput (s.pillow p).qc.desc
              (some { scale := (s.pillow p).qc.scale, zq := (s.pillow p).qc.zq }) (s.pillow p).qc.pend } } with
        sec := { s.sec with armed := false } }) s) ∧
  (∀ (h : Hdr) (p : Nat) (s : State), s.accepts Op.regWrite false = true → s.inService p = true →
    (s.pillow p).commitRefused = true →
    Answers (.qcCommit h p) h Op.regWrite (fun _ => [])
      (fun s => { s.setPillow p { s.pillow p with qc := { (s.pillow p).qc with refused := true } } with
        sec := { s.sec with armed := false } }) s) ∧
  (∀ (h : Hdr) (p l : Nat) (s : State), s.accepts Op.regWrite false = true → s.inService p = true →
    s.trim.calDone = false →
    Refuses (.wrReq h p l) h Op.regWrite { status := Status.calFail, payload := leBytes 1 p ++ leBytes 1 0xFF } s) ∧
  (∀ (h : Hdr) (p l : Nat) (s : State), s.accepts Op.regWrite false = true → s.inService p = true → l < 16 →
    s.trim.calDone = true →
    (s.bobbin p ((s.pillow p).physOf l)).state = 0 →
    (s.slot (s.bobbin p ((s.pillow p).physOf l)).slot).state = 3 → (∀ r ∈ (s.pillow p).refresh, r.logical ≠ l) →
    Answers (.wrReq h p l) h Op.regWrite (fun _ => [])
      (fun s => { s.setPillow p { s.pillow p with
          refresh := (s.pillow p).refresh ++ [{ source := 3, logical := l, age := s.now }] } with
        sec := { s.sec with armed := false } }) s) ∧
  (∀ (h : Hdr) (p l : Nat) (s : State), s.accepts Op.regWrite false = true → s.inService p = true →
    s.trim.calDone = true → (s.bobbin p ((s.pillow p).physOf l)).state ≠ 0 →
    Answers (.wrReq h p l) h Op.regWrite (fun _ => []) (fun s => { s with sec := { s.sec with armed := false } }) s)

/-! ## Streams and ports -/

/-- STREAM_OPEN and STREAM_CLOSE (R213, R284, R289, R440, R441): a binding that passes its checks takes the stream's
window and its ports, with NEXT 0 and no line landed; an open stream is refused with RES_HELD, kind 4; a close
discards packets from its acceptance on, frees ports and window once no instance on the stream is left, and replies
then. Frames on a stream port (R281, R283, R286): a frame that is not the stream's counts in NP_RXD and does nothing
else; a packet with a bad header counts in BADHDR; a packet that brings the whole of line NEXT lands it: its bytes
stand in the line's slot, NEXT advances and the landing time is the frame's; a packet of a line below NEXT counts in
NS_LATE and writes nothing. -/
def Obligations.Streams : Prop :=
  (∀ (h : Hdr) (p : StreamOpenParams) (s : State), s.accepts Op.streamOpen false = true → streamParams p = none →
    streamOpenCheck p s = none →
    ∃ t, exec (.streamOpen h p) s = .next t ∧ Replied h Op.streamOpen Status.ok [] s t
      ∧ t.stream p.stream = {
          bound := true, primary := p.primary, secondary := p.secondary, camera := p.camera, pixfmt := p.pixfmt
          rport := p.rport, udp := p.udp, origin := p.origin, sheetOfs := p.sheetOfs, base := p.gbBase
          pitch := p.pitch, depth := p.depth, claimed := true, holder := Op.streamOpen
          overrun := (s.stream p.stream).overrun, late := (s.stream p.stream).late
          missing := (s.stream p.stream).missing, badHdr := (s.stream p.stream).badHdr
          skew := (s.stream p.stream).skew }
      ∧ (∀ m, m ≠ p.stream → t.stream m = s.stream m)
      ∧ (∀ q, t.port q = if q = p.primary ∨ p.secondary = some q then { s.port q with stream := some p.stream }
          else s.port q)
      ∧ t = { s with
          now := max s.now h.t, streams := t.streams, ports := t.ports, queues := t.queues, mgmt := t.mgmt }) ∧
  (∀ (h : Hdr) (p : StreamOpenParams) (s : State), s.accepts Op.streamOpen false = true → streamParams p = none →
    (s.stream p.stream).bound = true →
    Refuses (.streamOpen h p) h Op.streamOpen (resHeld Op.streamOpen Op.streamOpen 4 p.stream 0xFF p.stream) s) ∧
  (∀ (h : Hdr) (n : Nat) (s : State), s.accepts Op.streamClose false = true → n ≤ 15 → (s.stream n).bound = true →
    (s.stream n).closing = none → (∀ x ∈ s.admitted, x.2.p.stream ≠ n) →
    Accepts (.streamClose h n) h (fun s => s.setStream n { s.stream n with closing := some h }) s) ∧
  (∀ (k n : Nat) (h : Hdr) (s : State), s.up = true → (s.stream n).closing = some h → s.streamBusy n = false →
    ∃ t, exec (.streamCloseEffect k n) s = .next t ∧ Replied h Op.streamClose Status.ok [] s t
      ∧ t.stream n = {
          overrun := (s.stream n).overrun, late := (s.stream n).late, missing := (s.stream n).missing
          badHdr := (s.stream n).badHdr, skew := (s.stream n).skew }
      ∧ (∀ m, m ≠ n → t.stream m = s.stream m)
      ∧ (∀ q, t.port q = if q = (s.stream n).primary ∨ (s.stream n).secondary = some q then
          { s.port q with stream := none } else s.port q)
      ∧ t = { s with
          now := max s.now k, streams := t.streams, ports := t.ports, queues := t.queues, mgmt := t.mgmt }) ∧
  (∀ (k n : Nat) (s : State), s.streamBusy n = true →
    exec (.streamCloseEffect k n) s = .next { s with now := max s.now k }) ∧
  (∀ (k p : Nat) (f : Bytes) (s : State), p < 16 → s.portUp p = true → s.lineFrame p f = none →
    exec (.streamFrame k p f) s = .next { s.setPort p { s.port p with
      rxd := min 0xFFFF_FFFF ((s.port p).rxd + 1) } with now := max s.now k }) ∧
  (∀ (k p n : Nat) (f b : Bytes) (s : State), p < 16 → s.portUp p = true → s.lineFrame p f = some (n, b) →
    (s.stream n).badHeader n b = true →
    ∃ t, exec (.streamFrame k p f) s = .next t
      ∧ t.stream n = { s.stream n with badHdr := min 0xFFFF_FFFF ((s.stream n).badHdr + 1) }
      ∧ (∀ m, m ≠ n → t.stream m = s.stream m)
      ∧ t.port p = { s.port p with rxf := min 0xFFFF_FFFF ((s.port p).rxf + 1) }
      ∧ (t.latch 10).held = true
      ∧ t = { s with
          now := max s.now k, streams := t.streams, ports := t.ports, latches := t.latches, queues := t.queues }) ∧
  (∀ (k p n : Nat) (f b : Bytes) (s : State), p < 16 → s.portUp p = true → s.lineFrame p f = some (n, b) →
    (s.stream n).badHeader n b = false → (s.stream n).lineOf (numAt 8 4 b) = (s.stream n).next →
    numAt 0x0C 4 b = 0 → numAt 0x10 2 b = (s.stream n).pitch → (s.stream n).inProg = [] →
    (∀ l ∈ (s.stream n).landed, l.1 % max 1 (s.stream n).depth ≠ (s.stream n).next % max 1 (s.stream n).depth) →
    (s.stream n).base + (s.stream n).depth * (s.stream n).pitch ≤ 0x200_0000 → (s.stream n).depth ≠ 0 →
    ∃ t, exec (.streamFrame k p f) s = .next t
      ∧ (t.stream n).next = (s.stream n).next + 1
      ∧ (t.stream n).landed = ((s.stream n).next, max s.now k) :: (s.stream n).landed
      ∧ (t.stream n).inProg = []
      ∧ (∀ i, i < (s.stream n).pitch →
          some (t.byteAt ((s.stream n).lineAddr (s.stream n).next (i : Int))) = b[24 + i]?)) ∧
  (∀ (k p n : Nat) (f b : Bytes) (s : State), p < 16 → s.portUp p = true → s.lineFrame p f = some (n, b) →
    (s.stream n).badHeader n b = false → (s.stream n).lineOf (numAt 8 4 b) < (s.stream n).next →
    (s.stream n).secondary = none →
    ∃ t, exec (.streamFrame k p f) s = .next t
      ∧ t.stream n = { s.stream n with late := min 0xFFFF_FFFF ((s.stream n).late + 1) }
      ∧ t.port p = { s.port p with rxf := min 0xFFFF_FFFF ((s.port p).rxf + 1) } ∧ t.mem = s.mem)

/-- PORT_CONFIG (R279, R284, R302, R442): LINK sets the port's enable, rate, FEC and addresses and ungates its domain; a
port of a bound stream is refused with RES_HELD, kind 8; SERVICE sets the flow, intake and class fields; GATES writes
its chunk to the staged list, and a commit makes the complete list of TOTAL entries the one in force from its base
time on, a base in the past moved forward by whole cycles; a commit with an entry missing or out of range is refused
with PORT_BAD (a chunk that comes with it stays staged, assumption 43). Links (R280, R306): a transition from up to down
sets LINK_LOST, counts in DOWNS, shows hi_ber and raises the link-loss class; an enabled port's link comes up without
hi_ber; each adds the codewords that the port's FEC has counted since the last transition; nothing else of any port
changes. -/
def Obligations.PortsAndLinks : Prop :=
  (∀ (h : Hdr) (p : LinkParams) (s : State), s.accepts Op.portConfig false = true → p.port ≤ 17 → p.fec ≤ 2 →
    p.vid ≤ 4094 → (s.port p.port).stream = none → (p.fec = 2 → p.fast = true) → p.en = true →
    ∃ t, exec (.portConfigLink h p) s = .next t ∧ Replied h Op.portConfig Status.ok [] s t
      ∧ t.port p.port = { s.port p.port with
          en := true, fast := p.fast, fec := p.fec, mac := p.mac, vid := p.vid, ipv4 := p.ipv4 }
      ∧ (∀ q, q ≠ p.port → t.port q = s.port q)
      ∧ t.power = { s.power with on := setDomains true [288 + p.port] s.power.on }
      ∧ (p.port < 16 → t.ptp = s.ptp ∧ t.ptpPorts = s.ptpPorts)
      ∧ t = { s with
          now := max s.now h.t, ports := t.ports, power := t.power, ptpPorts := t.ptpPorts, ptp := t.ptp
          queues := t.queues, mgmt := t.mgmt }) ∧
  (∀ (h : Hdr) (p : LinkParams) (s : State), s.accepts Op.portConfig false = true → p.port ≤ 17 → p.fec ≤ 2 →
    p.vid ≤ 4094 → (s.port p.port).stream = none → (p.fec = 2 → p.fast = true) → p.en = false →
    (s.port p.port).link = false →
    ∃ t, exec (.portConfigLink h p) s = .next t ∧ Replied h Op.portConfig Status.ok [] s t
      ∧ t.port p.port = { s.port p.port with
          en := false, fast := p.fast, fec := p.fec, mac := p.mac, vid := p.vid, ipv4 := p.ipv4 }
      ∧ (16 ≤ p.port → t.ptpPort (p.port - 16) = { s.ptpPort (p.port - 16) with state := 3, master := none })
      ∧ (p.port < 16 → t.ptp = s.ptp ∧ t.ptpPorts = s.ptpPorts)
      ∧ t = { s with
          now := max s.now h.t, ports := t.ports, ptpPorts := t.ptpPorts, ptp := t.ptp, queues := t.queues
          mgmt := t.mgmt }) ∧
  (∀ (h : Hdr) (p : LinkParams) (n : Nat) (s : State), s.accepts Op.portConfig false = true → p.port ≤ 17 →
    p.fec ≤ 2 → p.vid ≤ 4094 → (s.port p.port).stream = some n →
    Refuses (.portConfigLink h p) h Op.portConfig (resHeld Op.streamOpen Op.portConfig 8 p.port 0xFF n) s) ∧
  (∀ (h : Hdr) (p : ServiceParams) (s : State), s.accepts Op.portConfig false = true → 16 ≤ p.port → p.port ≤ 17 →
    p.asid ≤ 1023 → p.intakeSize % 0x1_0000 = 0 → p.intakeBase + p.intakeSize ≤ 2 ^ 48 → 1 ≤ p.maxRecs →
    p.maxRecs ≤ 32 → s.intakeBad p.asid p.intakeBase p.intakeSize = none →
    ∃ t v, exec (.portConfigService h p) s = .next t ∧ Replied h Op.portConfig Status.ok [] s t
      ∧ v = t.service (p.port - 16)
      ∧ v = { s.service (p.port - 16) with
          rasterUdp := p.rasterUdp, asid := p.asid, domain := p.domain, pinClass := p.pinClass
          looseClass := p.looseClass, intakeBase := p.intakeBase, intakeSize := p.intakeSize, dstMac := p.dstMac
          maxRecs := p.maxRecs, dstIp := p.dstIp, srcUdp := p.srcUdp, dstUdp := p.dstUdp
          gates := v.gates, pendingList := v.pendingList, seq := v.seq, buf := v.buf, sending := v.sending
          lastTx := v.lastTx, replies := v.replies }
      ∧ (∀ q, q ≠ p.port - 16 → t.service q = s.service q)
      ∧ t = { s with
          now := max s.now h.t, services := t.services, ptp := t.ptp, queues := t.queues, mgmt := t.mgmt }) ∧
  (∀ (h : Hdr) (p : GatesParams) (s : State), s.accepts Op.portConfig false = true → 16 ≤ p.port → p.port ≤ 17 →
    p.first + p.entries.length ≤ 256 → 1 ≤ p.entries.length → p.entries.length ≤ 60 → 1 ≤ p.total → p.total ≤ 256 →
    p.baseNs < 10 ^ 9 → p.commit = false →
    ∃ t, exec (.portConfigGates h p) s = .next t ∧ Replied h Op.portConfig Status.ok [] s t
      ∧ (∀ i, tget (fun _ => none) (t.service (p.port - 16)).staged i =
          if p.first ≤ i ∧ i < p.first + p.entries.length then p.entries[i - p.first]?
          else tget (fun _ => none) (s.service (p.port - 16)).staged i)
      ∧ (∀ q, q ≠ p.port - 16 → t.service q = s.service q)
      ∧ t = { s with
          now := max s.now h.t, services := t.services, ptp := t.ptp, queues := t.queues, mgmt := t.mgmt }) ∧
  (∀ (h : Hdr) (p : GatesParams) (es : List GateEntry) (s : State), s.accepts Op.portConfig false = true →
    16 ≤ p.port → p.port ≤ 17 → p.first + p.entries.length ≤ 256 → 1 ≤ p.entries.length → p.entries.length ≤ 60 →
    1 ≤ p.total → p.total ≤ 256 → p.baseNs < 10 ^ 9 → p.commit = true → es.length = p.total →
    (∀ i, i < p.total → es[i]? = if p.first ≤ i ∧ i < p.first + p.entries.length then p.entries[i - p.first]?
          else tget (fun _ => none) (s.service (p.port - 16)).staged i) →
    (∀ e ∈ es, 100 ≤ e.interval ∧ e.interval ≤ 10_000_000) → (es.map GateEntry.interval).sum ≤ 10 ^ 9 →
    ∃ t base k, exec (.portConfigGates h p) s = .next t ∧ Replied h Op.portConfig Status.ok [] s t
      ∧ base = p.baseSec * 10 ^ 9 + p.baseNs + k * (es.map GateEntry.interval).sum
      ∧ ((p.baseSec * 10 ^ 9 + p.baseNs : Nat) : Int) + k * (es.map GateEntry.interval).sum
          < max ((p.baseSec * 10 ^ 9 + p.baseNs : Nat) : Int) (s.ptpAt (max s.now h.t))
            + (es.map GateEntry.interval).sum
      ∧ s.ptpAt (max s.now h.t) ≤ base
      ∧ (t.service (p.port - 16)).listAt base = { entries := es, base := base, en := p.gateEn }
      ∧ (t.service (p.port - 16)).staged = []
      ∧ (∀ q, q ≠ p.port - 16 → t.service q = s.service q)) ∧
  (∀ (h : Hdr) (p : GatesParams) (i : Nat) (s : State), s.accepts Op.portConfig false = true → 16 ≤ p.port →
    p.port ≤ 17 → p.first + p.entries.length ≤ 256 → 1 ≤ p.entries.length → p.entries.length ≤ 60 → p.total ≤ 256 →
    p.baseNs < 10 ^ 9 → p.commit = true → i < p.total → (i < p.first ∨ p.first + p.entries.length ≤ i) →
    tget (fun _ => none) (s.service (p.port - 16)).staged i = none →
    ∃ t, exec (.portConfigGates h p) s = .next t ∧ Replied h Op.portConfig Status.portBad [] s t
      ∧ (∀ j, tget (fun _ => none) (t.service (p.port - 16)).staged j =
          if p.first ≤ j ∧ j < p.first + p.entries.length then p.entries[j - p.first]?
          else tget (fun _ => none) (s.service (p.port - 16)).staged j)) ∧
  (∀ (k p : Nat) (e : LinkEvent) (s : State), s.up = true → e.port = p → p < 18 → (s.port p).link = true →
    (s.port p).fec ≠ 0 →
    ∃ t, exec (.linkDown k e) s = .next t
      ∧ t.port p = { s.port p with
          link := false, linkLost := true, downs := min 0xFFFF ((s.port p).downs + 1), hiBer := e.hiBer
          fecCorr := min 0xFFFF ((s.port p).fecCorr + e.corr)
          fecUncorr := min 0xFFFF ((s.port p).fecUncorr + e.uncorr) }
      ∧ (∀ q, q ≠ p → t.port q = s.port q) ∧ (t.latch 11).held = true
      ∧ t = { s with now := max s.now k, ports := t.ports, latches := t.latches, queues := t.queues }) ∧
  (∀ (k p : Nat) (e : LinkEvent) (s : State), s.up = true → e.port = p → p < 18 → (s.port p).en = true →
    s.domainOn (288 + p) = true → e.hiBer = false → (s.port p).fec ≠ 0 →
    exec (.linkUp k e) s = .next { s.setPort p { s.port p with
        link := true, hiBer := false, fecCorr := min 0xFFFF ((s.port p).fecCorr + e.corr)
        fecUncorr := min 0xFFFF ((s.port p).fecUncorr + e.uncorr) } with
      now := max s.now k })

/-- Frames on a service port (R290 to R293, R303): an ARP request for the port's address and an ICMP echo request are
answered, the answer waiting behind a frame that is being sent; the 101st echo within a second and every other frame
are discarded and counted in NP_RXD; a raster packet into pinned, writable memory of the intake range, which no March
test uses and no other port writes in the same cycle, is written there and counted in RBYTES, and one that does not
lie in the range counts in RBAD and writes nothing. -/
def Obligations.ServiceFrames : Prop :=
  (∀ (k p : Nat) (f mac ip : Bytes) (s : State), 16 ≤ p → p ≤ 17 → s.portUp p = true →
    arpFor (s.port p).ipv4 (ethOf f).rest = some (mac, ip) → sizeOk f = true →
    ((ethOf f).dst = (s.port p).mac ∨ (ethOf f).dst = List.replicate 6 0xFF) → (s.port p).tagOk (ethOf f) = true →
    (ethOf f).etype = 0x0806 → (s.service (p - 16)).sending = true → (s.service (p - 16)).pendingList = none →
    ∃ t, exec (.arpRequest k p f) s = .next t
      ∧ t.service (p - 16) = { s.service (p - 16) with
          replies := (s.service (p - 16)).replies ++ [{
            cls := 0, wire := 72, dst := (ethOf f).src, req := none
            body := [0, 1, 8, 0, 6, 4, 0, 2] ++ (s.port p).mac ++ (s.port p).ipv4 ++ mac ++ ip }] }
      ∧ (∀ q, q ≠ p - 16 → t.service q = s.service q)
      ∧ t.port p = { s.port p with rxf := min 0xFFFF_FFFF ((s.port p).rxf + 1) }
      ∧ (∀ q, q ≠ p → t.port q = s.port q)
      ∧ t = { s with now := max s.now k, ports := t.ports, services := t.services }) ∧
  (∀ (k p : Nat) (f : Bytes) (s : State), 16 ≤ p → p ≤ 17 → s.portUp p = true →
    arpFor (s.port p).ipv4 (ethOf f).rest = none →
    exec (.arpRequest k p f) s = .next { s.setPort p { s.port p with
      rxd := min 0xFFFF_FFFF ((s.port p).rxd + 1) } with now := max s.now k }) ∧
  (∀ (k p : Nat) (f b : Bytes) (x : IpPacket) (s : State), 16 ≤ p → p ≤ 17 → s.portUp p = true →
    (s.port p).ipFor f = some x → x.dst = (s.port p).ipv4 → x.proto = 1 → echoOf x.body = some b →
    (((s.port p).icmp.filter fun u => decide (max s.now k < u + 10 ^ 9)).length < 100) →
    (s.service (p - 16)).sending = true → (s.service (p - 16)).pendingList = none →
    ∃ t, exec (.icmpEcho k p f) s = .next t
      ∧ t.service (p - 16) = { s.service (p - 16) with
          replies := (s.service (p - 16)).replies ++ [{
            cls := 0, wire := wireOf (20 + b.length), dst := (ethOf f).src ++ x.src, body := b, req := none }] }
      ∧ (t.port p).rxf = min 0xFFFF_FFFF ((s.port p).rxf + 1)
      ∧ t = { s with now := max s.now k, ports := t.ports, services := t.services }) ∧
  (∀ (k p : Nat) (f : Bytes) (s : State), 16 ≤ p → p ≤ 17 → s.portUp p = true →
    100 ≤ ((s.port p).icmp.filter fun u => decide (max s.now k < u + 10 ^ 9)).length →
    exec (.icmpEcho k p f) s = .next { s.setPort p { s.port p with
      rxd := min 0xFFFF_FFFF ((s.port p).rxd + 1) } with now := max s.now k }) ∧
  (∀ (k p va n : Nat) (f : Bytes) (d : Datagram) (g : Page) (s : State), 16 ≤ p → p ≤ 17 → s.portUp p = true →
    (s.port p).udpFor f = some d → d.dstPort = (s.service (p - 16)).rasterUdp → rasterOk d.data = true →
    n = numAt 0x0E 2 d.data → va = (s.service (p - 16)).intakeBase + numAt 8 6 d.data →
    numAt 8 6 d.data + n ≤ (s.service (p - 16)).intakeSize → va / 65536 = (va + n - 1) / 65536 →
    s.pageAt (s.service (p - 16)).asid va = some g → g.w = true → g.pin = true →
    va + n ≤ g.va + pageBytes g.big → s.marchAt (g.physical va) = false → (s.advance k).cycleWrites = [] →
    bitOf 0 (numAt 3 1 d.data) = false → (s.service (p - 16)).raster = some (BitVec.ofNat 32 (numAt 4 4 d.data)) →
    ∃ t, exec (.rasterPacket k p f) s = .next t
      ∧ (∀ a, t.byteAt a = if g.physical va ≤ a ∧ a < g.physical va + n then (d.data[24 + (a - g.physical va)]?).getD 0
          else s.byteAt a)
      ∧ t.service (p - 16) = { s.service (p - 16) with rbytes := ((s.service (p - 16)).rbytes + n) % 2 ^ 32 }
      ∧ (t.port p).rxf = min 0xFFFF_FFFF ((s.port p).rxf + 1)
      ∧ t = { s with now := max s.now k, ports := t.ports, services := t.services, mem := t.mem, ms := t.ms }) ∧
  (∀ (k p : Nat) (f : Bytes) (d : Datagram) (s : State), 16 ≤ p → p ≤ 17 → s.portUp p = true →
    (s.port p).udpFor f = some d → d.dstPort = (s.service (p - 16)).rasterUdp → rasterOk d.data = true →
    (s.service (p - 16)).intakeSize < numAt 8 6 d.data + numAt 0x0E 2 d.data →
    exec (.rasterPacket k p f) s = .next { (s.setPort p { s.port p with
        rxf := min 0xFFFF_FFFF ((s.port p).rxf + 1) }).setService (p - 16) { s.service (p - 16) with
          rbad := min 0xFFFF_FFFF ((s.service (p - 16)).rbad + 1) } with now := max s.now k })

/-- Egress (R302 to R304): the end of a frame counts it in NP_TXF, and with nothing waiting the port is free; when the
gates open for a class whose records wait, the highest class that may starts its frame, whose header carries the
number of records, the sequence number of the first and the PTP time, and which takes the oldest records of its class;
a gate that is closed starts nothing. -/
def Obligations.Egress : Prop :=
  (∀ (k sp : Nat) (s : State), s.alive = true → (s.service sp).sending = true → (s.service sp).replies = [] →
    (s.service sp).buf = [] → (s.service sp).pendingList = none →
    ∃ t, exec (.frameTransmitEnd k sp) s = .next t ∧ t.service sp = { s.service sp with sending := false }
      ∧ (∀ q, q ≠ sp → t.service q = s.service q)
      ∧ t.port (16 + sp) = { s.port (16 + sp) with txf := min 0xFFFF_FFFF ((s.port (16 + sp)).txf + 1) }
      ∧ (∀ q, q ≠ 16 + sp → t.port q = s.port q)
      ∧ t = { s with now := max s.now k, ports := t.ports, services := t.services }) ∧
  (∀ (k sp c : Nat) (s : State), s.portUp (16 + sp) = true → sp < 2 → (s.service sp).sending = false →
    (s.service sp).pendingList = none → (s.service sp).replies = [] →
    c ≤ 7 → (s.advance k).mayStart sp c = true → (∀ d, c < d → d ≤ 7 → (s.advance k).mayStart sp d = false) →
    ∃ t rs, exec (.gateEntryChange k sp) s = .next t
      ∧ rs = ((s.service sp).buf.filter fun r => (s.service sp).classOf r == c).take (s.service sp).maxRecs
      ∧ rs ≠ []
      ∧ t.service sp = { s.service sp with
          buf := dropRecords (fun r => (s.service sp).classOf r == c) rs.length (s.service sp).buf
          seq := ((s.service sp).seq + rs.length) % 2 ^ 32, sending := true
          lastTx := leBytes 2 0x4552 ++ leBytes 1 1 ++ leBytes 1 rs.length ++ leBytes 4 (s.service sp).seq
            ++ leBytes 8 (ofSigned 64 (s.ptpAt (max s.now k))) ++ (rs.map EgRec.bytes).flatten }
      ∧ t = { s with now := max s.now k, services := t.services }) ∧
  (∀ (k sp : Nat) (s : State), s.portUp (16 + sp) = true → sp < 2 → (s.service sp).pendingList = none →
    (s.service sp).gates.en = true →
    (∀ c, c ≤ 7 → ((s.service sp).gates.mask (s.ptpAt (max s.now k))).getLsbD c = false) →
    ∃ t, exec (.gateEntryChange k sp) s = .next t ∧ (∀ q, t.service q = s.service q)
      ∧ t = { s with now := max s.now k, services := t.services })

/-- PTP (R281, R290, R294, R296): a frame that is no PTP message to the port is discarded; a better Announce of the
port's domain replaces its master; a Sync of the SLAVE port's master is stamped, its interval kept, and a two-step one
waits for its Follow_Up, which a Follow_Up with its sequence number ends; a Delay_Resp that answers the Delay_Req sets
the mean path delay; a Delay_Req that the master's interval allows takes the next sequence number and waits in class 7;
three intervals without a Sync clear the lock with the PTP class, cause 1; a SLAVE that loses its master compares again.
The places of the fields in a message are IEEE 1588's (PRESUMED, assumption 117). -/
def Obligations.PrecisionTime : Prop :=
  (∀ (k p : Nat) (f : Bytes) (s : State), 16 ≤ p → p ≤ 17 → s.portUp p = true → (s.port p).ptpFor f = none →
    exec (.ptpMessage k p f) s = .next { s.setPort p { s.port p with
      rxd := min 0xFFFF_FFFF ((s.port p).rxd + 1) } with now := max s.now k }) ∧
  (∀ (k p rank : Nat) (f : Bytes) (m : PtpMsg) (gm : BitVec 64) (s : State), 16 ≤ p → p ≤ 17 → s.portUp p = true →
    (s.port p).ptpFor f = some m → m.domain = (s.service (p - 16)).domain → m.body = .announce gm rank →
    ((s.ptpPort (p - 16)).master = none ∨ ∃ b, (s.ptpPort (p - 16)).master = some b
      ∧ (rank < b.2 ∨ rank = b.2 ∧ gm.toNat < b.1.toNat)) →
    ∃ t, exec (.ptpMessage k p f) s = .next t
      ∧ (t.ptpPort (p - 16)).master = some (gm, rank) ∧ (t.ptpPort (p - 16)).source = m.source
      ∧ (t.port p).rxf = min 0xFFFF_FFFF ((s.port p).rxf + 1)
      ∧ t.ptp.lock = s.ptp.lock ∧ t.ptp.offset = s.ptp.offset ∧ t.ptp.ratio = s.ptp.ratio
      ∧ t = { s with now := max s.now k, ports := t.ports, ptpPorts := t.ptpPorts, ptp := t.ptp }) ∧
  (∀ (k p : Nat) (o : Int) (f : Bytes) (m : PtpMsg) (s : State), 16 ≤ p → p ≤ 17 → s.portUp p = true →
    (s.port p).ptpFor f = some m → m.domain = (s.service (p - 16)).domain → m.body = .sync true o →
    (s.ptpPort (p - 16)).state = 1 → m.source = (s.ptpPort (p - 16)).source →
    exec (.ptpMessage k p f) s = .next { s.setPort p { s.port p with
        rxf := min 0xFFFF_FFFF ((s.port p).rxf + 1) } with
      now := max s.now k
      ptp := { s.ptp with
        lastSync := max s.now k, interval := ptpInterval m.log, sync := some (m.seq, m.corr, max s.now k) } }) ∧
  (∀ (k p : Nat) (o c : Int) (r : Nat) (f : Bytes) (m : PtpMsg) (s : State), 16 ≤ p → p ≤ 17 → s.portUp p = true →
    (s.port p).ptpFor f = some m → m.domain = (s.service (p - 16)).domain → m.body = .followUp o →
    (s.ptpPort (p - 16)).state = 1 → m.source = (s.ptpPort (p - 16)).source → s.ptp.sync = some (m.seq, c, r) →
    ∃ t, exec (.ptpMessage k p f) s = .next t ∧ t.ptp.sync = none ∧ t.ptp.syncPair = some (o + c, r)
      ∧ t.ptp.ref = r ∧ t.ptp.offset = o + c + s.ptp.mpd - r
      ∧ (t.port p).rxf = min 0xFFFF_FFFF ((s.port p).rxf + 1)) ∧
  (∀ (k p t2 t3 : Nat) (r t1 : Int) (f : Bytes) (m : PtpMsg) (s : State), 16 ≤ p → p ≤ 17 → s.portUp p = true →
    (s.port p).ptpFor f = some m → m.domain = (s.service (p - 16)).domain →
    m.body = .delayResp r (s.ptpIdentity (p - 16)) →
    (s.ptpPort (p - 16)).state = 1 → m.source = (s.ptpPort (p - 16)).source →
    s.ptp.req = some (m.seq, t3) → s.ptp.syncPair = some (t1, t2) →
    exec (.ptpMessage k p f) s = .next { s.setPort p { s.port p with
        rxf := min 0xFFFF_FFFF ((s.port p).rxf + 1) } with
      now := max s.now k
      ptp := { s.ptp with
        req := none, reqNs := ptpInterval m.log
        mpd := min 0xFFFF_FFFF (roundHalfEven ((s.ptpAt t2 - t1) + (r - s.ptpAt t3)) 2).toNat } }) ∧
  (∀ (k p q : Nat) (s : State), 16 ≤ p → p ≤ 17 → s.portUp p = true → (s.ptpPort (p - 16)).state = 1 →
    (∀ u ∈ s.ptp.lastReq, u + s.ptp.reqNs ≤ max s.now k) → q = (s.ptp.reqSeq + 1) % 65536 →
    (s.service (p - 16)).sending = true → (s.service (p - 16)).pendingList = none →
    ∃ t, exec (.delayReq k p) s = .next t
      ∧ t.service (p - 16) = { s.service (p - 16) with
          replies := (s.service (p - 16)).replies ++ [{
            cls := 7, wire := 98, dst := ptpGroupMac ++ ptpGroup, body := s.delayReqBody (p - 16) q, req := some q }] }
      ∧ (∀ q, q ≠ p - 16 → t.service q = s.service q)
      ∧ t = { s with
          now := max s.now k, services := t.services
          ptp := { s.ptp with reqSeq := q, lastReq := some (max s.now k) } }) ∧
  (∀ (k : Nat) (s : State), s.up = true → s.ptp.lock = true → s.ptp.lastSync + 3 * s.ptp.interval ≤ max s.now k →
    ∃ t, exec (.ptpSyncTimeout k) s = .next t ∧ t.ptp = { s.ptp with lock := false, good := 0 }
      ∧ (t.latch 25).held = true
      ∧ t = { s with now := max s.now k, ptp := t.ptp, latches := t.latches, queues := t.queues }) ∧
  (∀ (k : Nat) (gm : BitVec 64) (rank : Nat) (s : State), s.up = true → (s.ptpPort 0).state = 1 →
    (s.ptpPort 1).state = 2 → (s.ptpPort 1).master = some (gm, rank) →
    ∃ t, exec (.ptpMasterLost k) s = .next t ∧ t.ptpPort 0 = { s.ptpPort 0 with state := 0, master := none }
      ∧ t.ptpPort 1 = { s.ptpPort 1 with state := 1 } ∧ t.ptp.gm = gm ∧ t.ptp.lock = s.ptp.lock
      ∧ t = { s with now := max s.now k, ptpPorts := t.ptpPorts, ptp := t.ptp })

/-! ## Thermal and memory integrity -/

/-- The thermal monitor (R525 to R528): a reading that reaches a higher step's threshold raises the step at once, counts
the rise, and raises the thermal class, step 1 moving nothing else of the device but its times and step 2 pre-empting
loose work as well (R526); a reading below it changes neither; 10 ms at 3 °C below the thresholds lower the step by one,
and from step 1 to 0 nothing else of the device moves but its times. -/
def Obligations.ThermalMonitor : Prop :=
  (∀ (k : Nat) (d0 d1 d2 d3 h0 h1 : Int) (s : State), s.up = true → s.therm.step = 0 →
    s.dieTh 2 ≤ d0 → d0 < s.dieTh 3 → d1 < s.dieTh 3 → d2 < s.dieTh 3 → d3 < s.dieTh 3 → h0 < s.hbmTh 3 →
    h1 < s.hbmTh 3 →
    ∃ t, exec (.thermalReading k [d0, d1, d2, d3] [h0, h1]) s = .next t ∧ t.therm.step = 2 ∧ t.therm.source = 0
      ∧ t.therm.die = [d0, d1, d2, d3] ∧ t.therm.hbm = [h0, h1]
      ∧ t.therm.rises = min 0xFFFF (s.therm.rises + 1)) ∧
  (∀ (k : Nat) (d0 d1 d2 d3 h0 h1 : Int) (s : State), s.up = true → s.therm.step = 0 →
    s.dieTh 1 ≤ d0 → d0 < s.dieTh 2 → d1 < s.dieTh 2 → d2 < s.dieTh 2 → d3 < s.dieTh 2 → h0 < s.hbmTh 2 →
    h1 < s.hbmTh 2 →
    ∃ t, exec (.thermalReading k [d0, d1, d2, d3] [h0, h1]) s = .next t ∧ t.therm.step = 1 ∧ t.therm.source = 0
      ∧ t.therm.die = [d0, d1, d2, d3] ∧ t.therm.hbm = [h0, h1]
      ∧ t.therm.rises = min 0xFFFF (s.therm.rises + 1) ∧ (t.latch 26).held = true
      ∧ t = { s with now := max s.now k, therm := t.therm, ms := t.ms, latches := t.latches, queues := t.queues }) ∧
  (∀ (k : Nat) (d0 d1 d2 d3 h0 h1 : Int) (s : State), s.up = true → s.therm.step = 0 →
    d0 < s.dieTh 1 → d1 < s.dieTh 1 → d2 < s.dieTh 1 → d3 < s.dieTh 1 → h0 < s.hbmTh 1 → h1 < s.hbmTh 1 →
    ∃ t, exec (.thermalReading k [d0, d1, d2, d3] [h0, h1]) s = .next t ∧ t.therm.step = 0
      ∧ t.therm.die = [d0, d1, d2, d3] ∧ t.therm.rises = s.therm.rises
      ∧ t = { s with now := max s.now k, therm := t.therm, ms := t.ms }) ∧
  (∀ (k c : Nat) (s : State), s.therm.cool = some c → c + 10_000_000 ≤ max s.now k → s.therm.step ≠ 0 →
    s.therm.step ≠ 2 →
    ∃ t, exec (.throttleStepFall k) s = .next t ∧ t.therm.step = s.therm.step - 1
      ∧ t.therm.die = s.therm.die ∧ t.therm.hbm = s.therm.hbm ∧ t.therm.rises = s.therm.rises
      ∧ t = { s with now := max s.now k, therm := t.therm, ms := t.ms }) ∧
  (∀ (k c : Nat) (s : State), s.therm.cool = some c → c + 10_000_000 ≤ max s.now k → s.therm.step = 2 →
    ∃ t, exec (.throttleStepFall k) s = .next t ∧ t.therm.step = 1)

/-- The scrubbers and the March test (R208, R209, R219 to R224, R428, R486, R488): a scrub read that corrects counts in
its memory's register; one that finds an uncorrectable unit marks it, counts it and raises the class with its address,
and in firmware memory takes the device to state 5; both pause at step 1 and above. A run's end writes its verdict to
MEM_MARCH and its reply; a destructive one leaves 0x55. A retrained link raises its class; a stack that fails takes
the device to state 5. MARCH_RUN (R220 to R223, R428, R478): a run over a memory that nothing holds starts, from state
2 without a template in state 3; while one runs another is refused with RES_HELD, kind 15; at throttle step 2 and
above it is refused. -/
def Obligations.MemoryIntegrity : Prop :=
  (∀ (k p a : Nat) (s : State), s.up = true → s.therm.step = 0 → s.scrubBarred .scratchpad p a = false →
    (∀ e ∈ s.ms.errs, e.1 ≠ a / 8 * 8) →
    exec (.sramScrub k .scratchpad p a .corrected) s = .next { s.setPillow p { s.pillow p with
      mem := { (s.pillow p).mem with spCe := min 0xFFFF ((s.pillow p).mem.spCe + 1) } } with now := max s.now k }) ∧
  (∀ (k p a : Nat) (s : State), s.up = true → s.therm.step = 0 → s.scrubBarred .ground p a = false →
    ∃ t, exec (.sramScrub k .ground p a .uncorrectable) s = .next t ∧ t.ms.poison.contains (a / 8 * 8) = true
      ∧ (t.latch 7).held = true ∧ t.mem = s.mem
      ∧ t = { s with now := max s.now k, ms := t.ms, latches := t.latches, queues := t.queues }) ∧
  (∀ (k p a : Nat) (s : State), s.up = true → s.therm.step = 0 → s.mgmt.devState ≠ 5 →
    ∃ t, exec (.sramScrub k .firmware p a .uncorrectable) s = .next t ∧ t.mgmt.devState = 5 ∧ t.mgmt.fatal = 1) ∧
  (∀ (k p a : Nat) (m : MemKind) (e : Ecc) (s : State), s.therm.step ≠ 0 →
    exec (.sramScrub k m p a e) s = .next { s with now := max s.now k } ∧
    exec (.hbmScrub k a e) s = .next { s with now := max s.now k }) ∧
  (∀ (k a : Nat) (s : State), s.up = true → s.therm.step = 0 → a < 0xC_0000_0000 →
    ∃ t, exec (.hbmScrub k a .uncorrectable) s = .next t ∧ t.ms.poison.contains (a / 8 * 8) = true
      ∧ (t.latch 7).held = true ∧ t.mem = s.mem
      ∧ t = { s with now := max s.now k, ms := t.ms, latches := t.latches, queues := t.queues }) ∧
  (∀ (k st ch ns : Nat) (s : State), s.alive = true →
    ∃ t, exec (.hbmLinkRetrain k st ch ns true) s = .next t ∧ (t.latch 30).held = true
      ∧ t = { s with now := max s.now k, latches := t.latches, queues := t.queues }) ∧
  (∀ (k st ch ns : Nat) (s : State), s.alive = true →
    ∃ t, exec (.hbmLinkRetrain k st ch ns false) s = .next t ∧ t.mgmt.devState = 5 ∧ t.mgmt.fatal = 3) ∧
  (∀ (k : Nat) (h : Hdr) (i : Nat) (s : State), s.alive = true → s.mgmt.devState = 3 →
    s.ms.march = some (h, 3, 0, i) → i < 4 → s.ms.marchWait = [] →
    ∃ t, exec (.marchRunEnd k []) s = .next t
      ∧ Replied h Op.marchRun Status.ok (leBytes 1 1 ++ zeros 15) s t
      ∧ t.ms.march = none ∧ t.ms.marchFail = false ∧ t.ms.marchFails = 0 ∧ t.ms.marchAddr = 0
      ∧ t.mgmt = { s.mgmt with devState := 2 }
      ∧ (∀ a, t.byteAt a = if gbBase + 0x80_0000 * i ≤ a ∧ a < gbBase + 0x80_0000 * (i + 1) then 0x55 else s.byteAt a)
      ∧ t = { s with now := max s.now k, mem := t.mem, ms := t.ms, mgmt := t.mgmt, queues := t.queues }) ∧
  (∀ (h : Hdr) (target form index : Nat) (s : State), s.accepts Op.marchRun false = true → target ≤ 5 → form ≤ 1 →
    (target ≤ 1 → index < 48) → (target = 3 → index < 4) → (target = 2 ∨ 4 ≤ target → index = 0) →
    s.therm.step < 2 → s.marchHolder target index = none → s.mgmt.devState = 2 → s.admitted = [] →
    ∃ t, exec (.marchRun h target form index) s = .next t
      ∧ t.ms = { s.ms with march := some (h, target, form, index), marchForm := form, marchTarget := target }
      ∧ t.mgmt.devState = 3 ∧ t = { s with now := max s.now h.t, ms := t.ms, mgmt := t.mgmt }) ∧
  (∀ (h : Hdr) (target form index : Nat) (x : Hdr × Nat × Nat × Nat) (s : State), s.accepts Op.marchRun false = true →
    target ≤ 5 → form ≤ 1 → (target ≤ 1 → index < 48) → (target = 3 → index < 4) →
    (target = 2 ∨ 4 ≤ target → index = 0) → s.therm.step < 2 → s.ms.march = some x →
    Refuses (.marchRun h target form index) h Op.marchRun
      (resHeld Op.marchRun Op.marchRun 15 target 0xFF 0xFFFF_FFFF) s) ∧
  (∀ (h : Hdr) (target form index : Nat) (s : State), s.accepts Op.marchRun false = true → target ≤ 5 → form ≤ 1 →
    (target ≤ 1 → index < 48) → (target = 3 → index < 4) → (target = 2 ∨ 4 ≤ target → index = 0) → 2 ≤ s.therm.step →
    Refuses (.marchRun h target form index) h Op.marchRun stateRefused s)

/-! ## Address spaces and pages -/

/-- MAP_CREATE, MAP_PAGE and MAP_PIN (R228 to R231, R233, R235, R425 to R427): OP 0 creates an address space with its
level-1 table, which holds no valid entry, and one that exists is refused with RES_HELD, kind 9; OP 1 deletes a space
that no work names with its pages, tables and cached entries; a MAP_PAGE that passes its checks waits, and once the
caches have dropped the page and the accesses have drained the change takes effect whole and the reply goes; MAP_PIN
sets or clears PIN of the pages it meets and counts those it changed. None of them writes memory below the table pool.
That a MAP_PAGE is checked again when its drain ends is the model's choice (assumption 114). -/
def Obligations.AddressSpaces : Prop :=
  (∀ (h : Hdr) (asid : Nat) (x : PTable) (s : State), s.accepts Op.mapCreate false = true → asid ≤ 1023 →
    asid ∉ s.ms.asids → allocTable s.ms.tables 1 asid 0 = some (x :: s.ms.tables) → x ∉ s.ms.tables →
    ∃ t, exec (.mapCreate h asid 0) s = .next t ∧ Replied h Op.mapCreate Status.ok [] s t
      ∧ t.ms.asids = asid :: s.ms.asids ∧ t.ms.tables = x :: s.ms.tables ∧ t.ms.pages = s.ms.pages
      ∧ (∀ a, t.byteAt a =
          if poolBase + x.ofs ≤ a ∧ a < poolBase + x.ofs + tableBytes x.level
            ∨ mirrorBase + x.ofs ≤ a ∧ a < mirrorBase + x.ofs + tableBytes x.level then 0 else s.byteAt a)
      ∧ t = { s with now := max s.now h.t, ms := t.ms, mem := t.mem, queues := t.queues, mgmt := t.mgmt }) ∧
  (∀ (h : Hdr) (asid : Nat) (s : State), s.accepts Op.mapCreate false = true → asid ≤ 1023 → asid ∈ s.ms.asids →
    Refuses (.mapCreate h asid 0) h Op.mapCreate (resHeld Op.mapCreate Op.mapCreate 9 asid 0xFF 0xFFFF_FFFF) s) ∧
  (∀ (h : Hdr) (asid : Nat) (s : State), s.accepts Op.mapCreate false = true → asid ≤ 1023 → asid ∈ s.ms.asids →
    (∀ x ∈ s.admitted, x.2.p.asid ≠ asid) → (∀ x ∈ s.liveJobs, x.2.pinned = false → x.2.asid ≠ asid) →
    ∃ t, exec (.mapCreate h asid 1) s = .next t ∧ Replied h Op.mapCreate Status.ok [] s t
      ∧ t.ms = { s.ms with
          asids := s.ms.asids.filter (· != asid), pages := s.ms.pages.filter (·.asid != asid)
          tables := s.ms.tables.filter (·.asid != asid)
          pendings := s.ms.pendings.map fun q => if q.p.asid = asid then { q with gone := true } else q }
      ∧ (∀ p, p < 48 → t.pillow p = { s.pillow p with tc := (s.pillow p).tc.filter (·.asid != asid) })
      ∧ t = { s with now := max s.now h.t, ms := t.ms, pillows := t.pillows, queues := t.queues, mgmt := t.mgmt }) ∧
  (∀ (h : Hdr) (p : MapPageParams) (s : State), s.accepts Op.mapPage false = true → p.asid ≤ 1023 → p.op ≤ 2 →
    p.va < 2 ^ 48 → p.pa < 2 ^ 48 → (p.op = 0 ∨ p.pa = 0) → mapPageCheck p s = none →
    ∃ t, exec (.mapPage h p) s = .next t ∧ t.ms.pendings = s.ms.pendings ++ [{ h := h, p := p }]
      ∧ t.ms.pages = s.ms.pages ∧ t.ms.asids = s.ms.asids ∧ (∀ a, a < poolBase → t.byteAt a = s.byteAt a)
      ∧ t = { s with now := max s.now h.t, ms := t.ms, mem := t.mem, mgmt := t.mgmt }) ∧
  (∀ (n : Nat) (tag : BitVec 32) (q : MapPending) (s : State), Quiet s →
    s.ms.pendings.find? (fun q => q.h.tag == tag) = some q → q.p.op = 0 → s.lateCheck q = none →
    ∃ t, exec (.mapPageDrainEnd n tag) s = .next t ∧ Replied q.h Op.mapPage Status.ok [] s t
      ∧ (∀ g, g ∈ t.ms.pages ↔ g = { asid := q.p.asid, va := q.p.va, pa := q.p.pa, big := q.p.big, r := q.p.r,
                                      w := q.p.w, pin := false }
          ∨ g ∈ s.ms.pages ∧ ¬ (g.asid = q.p.asid ∧ g.va = q.p.va ∧ g.big = q.p.big))
      ∧ t.ms.pendings = s.ms.pendings.erase q ∧ (∀ a, a < poolBase → t.byteAt a = s.byteAt a)
      ∧ (∀ p, p < 48 → ∀ e ∈ (t.pillow p).tc, e ∈ (s.pillow p).tc ∧ ¬ (e.asid = q.p.asid ∧ e.va = q.p.va))) ∧
  (∀ (n : Nat) (tag : BitVec 32) (q : MapPending) (s : State), Quiet s →
    s.ms.pendings.find? (fun q => q.h.tag == tag) = some q → q.p.op = 2 → s.lateCheck q = none →
    ∃ t, exec (.mapPageDrainEnd n tag) s = .next t ∧ Replied q.h Op.mapPage Status.ok [] s t
      ∧ (∀ g, g ∈ t.ms.pages ↔ g ∈ s.ms.pages ∧ ¬ (g.asid = q.p.asid ∧ g.va = q.p.va ∧ g.big = q.p.big))
      ∧ (∀ a, a < poolBase → t.byteAt a = s.byteAt a)
      ∧ (∀ p, p < 48 → ∀ e ∈ (t.pillow p).tc, e ∈ (s.pillow p).tc ∧ ¬ (e.asid = q.p.asid ∧ e.va = q.p.va))) ∧
  (∀ (h : Hdr) (asid op va size : Nat) (s : State), Quiet s → s.accepts Op.mapPin false = true → asid ≤ 1023 →
    op ≤ 1 → va % 0x1_0000 = 0 → va < 2 ^ 48 → size ≠ 0 → size % 0x1_0000 = 0 → mapPinCheck asid op va size s = none →
    ∃ t, exec (.mapPin h asid op va size) s = .next t
      ∧ Replied h Op.mapPin Status.ok
          (leBytes 4 (s.ms.pages.countP fun g => g.asid == asid && g.meets va (va + size) && g.pin != (op == 0))) s t
      ∧ t.ms.pages = s.ms.pages.map (fun g =>
          if g.asid = asid ∧ g.meets va (va + size) = true then { g with pin := op == 0 } else g)
      ∧ t.ms.tables = s.ms.tables ∧ (∀ a, a < poolBase → t.byteAt a = s.byteAt a)
      ∧ (∀ p, p < 48 → (t.pillow p).tc = (s.pillow p).tc))

/-! ## Model weights -/

/-- Bundles (R314 to R322, R429, R430): a SHARD_BEGIN opens the transfer and replies with its blocks, and a second one
is refused with RES_HELD, kind 14; a manifest whose form, key and signature are good opens its bundle in STAGING on
the lowest free units; a shard whose digest matches is verified, its bytes standing where its blocks were put (R315),
the last one starts the check of the body, and one whose digest does not match counts an attempt; a shard that does
not come in time is requested again; a good body makes the bundle VERIFIED with BUNDLE_READY, another FAILED; a
discard frees it; a re-digest pass over sound shards only counts. -/
def Obligations.StagedBundles : Prop :=
  (∀ (h : Hdr) (k : Nat) (s : State), s.accepts Op.shardBegin false = true → k ≤ 15 → s.bulk.xfer = none →
    s.bulk.bar = none →
    Answers (.shardBeginManifest h k) h Op.shardBegin (fun _ => leBytes 4 0xFFFF_FFFF)
      (fun s => { s with bulk := { s.bulk with xfer := some {
        kind := 1, handle := k, index := 0xFFFF_FFFF, opcode := Op.shardBegin, hdr := h, total := none } } }) s) ∧
  (∀ (h : Hdr) (k i : Nat) (s : State), s.accepts Op.shardBegin false = true → k ≤ 15 → s.bulk.xfer = none →
    s.bulk.bar = none → i < (s.bundle k).shards → ((s.bundle k).state = 1 ∨ (s.bundle k).state = 3) →
    Answers (.shardBeginShard h k i) h Op.shardBegin (fun s => leBytes 4 (f2Blocks ((s.bundle k).shardLen i)))
      (fun s => { s with bulk := { s.bulk with xfer := some {
        kind := 2, handle := k, index := i, opcode := Op.shardBegin, hdr := h
        total := some ((s.bundle k).shardLen i) } } }) s) ∧
  (∀ (h : Hdr) (k : Nat) (x : Xfer) (s : State), s.accepts Op.shardBegin false = true → k ≤ 15 →
    s.bulk.xfer = some x →
    Refuses (.shardBeginManifest h k) h Op.shardBegin (resHeld x.opcode Op.shardBegin 14 x.kind 0xFF 0xFFFF_FFFF) s ∧
    Refuses (.shardBeginDiscard h k) h Op.shardBegin (resHeld x.opcode Op.shardBegin 14 x.kind 0xFF 0xFFFF_FFFF) s) ∧
  (∀ (h : Hdr) (k : Nat) (s : State), s.accepts Op.shardBegin false = true → k ≤ 15 → s.bulk.xfer = none →
    s.bulk.bar = none → (s.bundle k).state ≠ 0 → s.bundleSlot k = none →
    Answers (.shardBeginDiscard h k) h Op.shardBegin (fun _ => leBytes 4 0) (fun s => s.setBundle k {}) s) ∧
  (∀ (h : Hdr) (k : Nat) (x : Xfer) (s : State), s.accepts Op.shardEnd false = true → k ≤ 15 →
    s.bulk.xfer = some x → x.kind = 1 → x.handle = k → x.total = none → manifestForm x.buf = true →
    s.bundleKey (numAt 6 2 x.buf) = true → manifestRefused k x.buf s = none →
    ∃ b, b.state = 1 ∧ b.id.toNat = numAt 8 8 x.buf ∧ b.model = numAt 0x10 2 x.buf ∧ b.shards = numAt 0x14 4 x.buf
      ∧ b.bodySize = numAt 0x18 8 x.buf ∧ b.verified = [] ∧ b.timer = max s.now h.t
      ∧ b.units = s.unitsFree.take (ceilDiv b.bodySize shardBytes)
      ∧ Answers (.shardEnd h k true) h Op.shardEnd
          (fun _ => leBytes 4 0xFFFF_FFFF ++ leBytes 4 b.shards ++ zeros 8)
          (fun s => { s.setBundle k b with bulk := { s.bulk with xfer := none, closed := true } }) s) ∧
  (∀ (h : Hdr) (k : Nat) (x : Xfer) (s : State), s.accepts Op.shardEnd false = true → k ≤ 15 →
    s.bulk.xfer = some x → x.kind = 1 → x.handle = k →
    ∃ t, exec (.shardEnd h k false) s = .next t ∧ Replied h Op.shardEnd Status.sigBad [] s t
      ∧ t.bundles = s.bundles ∧ t.bulk = { s.bulk with xfer := none, closed := true }) ∧
  (∀ (h : Hdr) (k : Nat) (x : Xfer) (b : Bundle) (s : State), s.accepts Op.shardEnd false = true → k ≤ 15 →
    s.bulk.xfer = some x → x.kind = 2 → x.handle = k → s.bundle k = b → b.state = 1 → b.stale = [] →
    b.verified.contains x.index = false → x.buf.length = b.shardLen x.index →
    digestOf (b.shardHead x.index ++ x.buf) = b.digests.getD x.index 0 →
    ∃ t, exec (.shardEnd h k true) s = .next t
      ∧ Replied h Op.shardEnd Status.ok
          (leBytes 4 x.index ++ leBytes 4 (b.verified.length + 1) ++ leBytes 1 (b.left x.index) ++ zeros 7) s t
      ∧ (t.bundle k).verified = x.index :: b.verified ∧ (t.bundle k).timer = max s.now h.t
      ∧ (b.verified.length + 1 < b.shards → (t.bundle k).state = 1)
      ∧ (b.shards ≤ b.verified.length + 1 → b.checked = false →
          (t.bundle k).state = 1 ∧ (t.bundle k).checking = true)
      ∧ (∀ m, m ≠ k → t.bundle m = s.bundle m)
      ∧ t = { s with
          now := max s.now h.t, bulk := { s.bulk with xfer := none, closed := true }, bundles := t.bundles
          queues := t.queues, mgmt := t.mgmt }) ∧
  (∀ (h : Hdr) (k : Nat) (x : Xfer) (b : Bundle) (s : State), s.accepts Op.shardEnd false = true → k ≤ 15 →
    s.bulk.xfer = some x → x.kind = 2 → x.handle = k → s.bundle k = b → b.state = 1 →
    b.verified.contains x.index = false → x.buf.length = b.shardLen x.index →
    digestOf (b.shardHead x.index ++ x.buf) ≠ b.digests.getD x.index 0 → tget (fun _ => 0) b.attempts x.index < 3 →
    ∃ t, exec (.shardEnd h k true) s = .next t
      ∧ Replied h Op.shardEnd Status.digestBad
          (leBytes 4 x.index ++ leBytes 4 b.verified.length
            ++ leBytes 1 (3 - tget (fun _ => 0) b.attempts x.index) ++ zeros 7) s t
      ∧ tget (fun _ => 0) (t.bundle k).attempts x.index = tget (fun _ => 0) b.attempts x.index + 1
      ∧ (t.bundle k).verified = b.verified ∧ t.mem = s.mem) ∧
  (∀ (n k i : Nat) (b : Bundle) (s : State), s.alive = true → s.bundle k = b → b.state = 1 → b.missing = some i →
    b.timer + s.wt.shardTo * 1_000_000 ≤ max s.now n → tget (fun _ => 0) b.attempts i < 3 →
    ∃ t, exec (.shardTimeout n k) s = .next t
      ∧ t.bundle k = { b with
          timer := max s.now n, attempts := tset (fun _ => 0) i (tget (fun _ => 0) b.attempts i + 1) b.attempts }
      ∧ t.wt = { s.wt with retry := min 0xFFFF_FFFF (s.wt.retry + 1) }
      ∧ (∀ m, m ≠ k → t.bundle m = s.bundle m)
      ∧ t = { s with now := max s.now n, bundles := t.bundles, wt := t.wt, bulk := t.bulk, queues := t.queues }) ∧
  (∀ (n k : Nat) (s : State), s.alive = true → (s.bundle k).state = 1 → (s.bundle k).checking = true →
    s.ms.errs = [] → s.ms.poison = [] →
    ∃ t, exec (.bundleCheckEnd n k) s = .next t
      ∧ t.bundle k = (if s.bodyGood (s.bundle k) then { s.bundle k with state := 2, checking := false, checked := true }
          else { s.bundle k with state := 4, units := [], checking := false, checked := false })
      ∧ (∀ m, m ≠ k → t.bundle m = s.bundle m)
      ∧ t = { s with
          now := max s.now n, bundles := t.bundles, queues := t.queues
          latches := if s.bodyGood (s.bundle k) then s.latches else t.latches }) ∧
  (∀ (n : Nat) (s : State), s.alive = true → s.mgmt.devState ≠ 0 → s.therm.step = 0 →
    max s.wt.redigestAt s.mgmt.resetAt + s.wt.redigest * 60_000_000_000 ≤ max s.now n →
    (∀ k, k < 16 → ∀ i ∈ (s.bundle k).verifiedInOrder, s.shardFault (s.bundle k) i = none) → s.ms.errs = [] →
    exec (.redigestPass n) s = .next { s with
      now := max s.now n, wt := { s.wt with passes := (s.wt.passes + 1) % 65536, redigestAt := max s.now n } })

/-- Model slots (R323, R325 to R331, R431 to R433): SLOT_PROGRAM of a verified bundle with sound shards puts the slot
into PROGRAMMING with a programming for each target, and replies at the end of the last one, READY, or FAILED at the
bobbin that failed; SLOT_ACTIVATE binds a READY slot to the next sheet, and with a bundle drains an ACTIVE one, which
is STOPPED once no old pass is outstanding and ACTIVE with the new model at the end, and FAILED where its bundle is no
longer VERIFIED (R320); SLOT_RETIRE empties a slot, an ACTIVE one when it has drained; a slot in PROGRAMMING, DRAINING
or STOPPED refuses with RES_HELD, kind 11. -/
def Obligations.ModelSlots : Prop :=
  (∀ (h : Hdr) (n k : Nat) (map : List Nat) (s : State), s.accepts Op.slotProgram false = true → n ≤ 63 → k ≤ 15 →
    (∀ i, i < 48 → map.getD i 0xFF ≤ 47 ∨ map.getD i 0xFF = 0xFF) → slotProgramCheck n k map s = none →
    (∀ i ∈ s.shardsRead (s.bundle k), s.shardFault (s.bundle k) i = none) → s.ms.errs = [] →
    (s.bundle k).state = 2 →
    ∃ t, exec (.slotProgram h n k map) s = .next t
      ∧ t.slot n = { s.slot n with
          state := 1, handle := k, next := none, model := (s.bundle k).model, hdr := some h, op := Op.slotProgram
          fromSheet := 0, map := map, targets := s.targetsOf (s.bundle k), factors := s.factorsOf (s.bundle k)
          failedAt := none, start := max s.now h.t
          left := (s.targetsOf (s.bundle k)).map fun g => (map.getD g.ppil 0xFF, g.logical) }
      ∧ (∀ m, m ≠ n → t.slot m = s.slot m) ∧ t.bundles = s.bundles ∧ t.mem = s.mem ∧ t.templates = s.templates
      ∧ t.jobs = s.jobs ∧ t.pricks = s.pricks ∧ t.ms = s.ms) ∧
  (∀ (u n : Nat) (h : Hdr) (s : State), s.alive = true → (s.slot n).state = 1 → (s.slot n).left = [] →
    (s.slot n).failedAt = none → (s.slot n).hdr = some h →
    ∃ t, exec (.slotProgramEnd u n) s = .next t
      ∧ Replied h Op.slotProgram Status.ok (leBytes 2 (s.slot n).model ++ leBytes 1 0xFF ++ leBytes 1 0xFF
          ++ leBytes 4 ((max s.now u - (s.slot n).start) / 1000)) s t
      ∧ t.slot n = { s.slot n with state := 2, hdr := none } ∧ (∀ m, m ≠ n → t.slot m = s.slot m)
      ∧ t = { s with now := max s.now u, slots := t.slots, queues := t.queues }) ∧
  (∀ (u n p b : Nat) (h : Hdr) (s : State), s.alive = true → (s.slot n).state = 1 → (s.slot n).left = [] →
    (s.slot n).failedAt = some (p, b) → (s.slot n).hdr = some h →
    ∃ t, exec (.slotProgramEnd u n) s = .next t
      ∧ t.slot n = { s.slot n with state := 6, next := none, left := [], hdr := none } ∧ (t.latch 28).held = true
      ∧ t = { s with now := max s.now u, slots := t.slots, queues := t.queues, latches := t.latches }) ∧
  (∀ (h : Hdr) (n : Nat) (s : State), s.accepts Op.slotActivate false = true → n ≤ 63 → (s.slot n).state = 2 →
    ∃ t, exec (.slotActivate h n none) s = .next t
      ∧ Replied h Op.slotActivate Status.ok
          (leBytes 4 (if s.tb.sheetSrc = 0 then 0xFFFF_FFFF else (s.sheets.sheet + 1) % 2 ^ 32)) s t
      ∧ t.slot n = { s.slot n with
          state := 3, fromSheet := s.nextSheet, sheet := s.nextSheet, op := Op.slotActivate }
      ∧ (∀ m, m ≠ n → t.slot m = s.slot m)
      ∧ t = { s with
          now := max s.now h.t, slots := t.slots, pillows := t.pillows, queues := t.queues, mgmt := t.mgmt }) ∧
  (∀ (h : Hdr) (n k : Nat) (s : State), s.accepts Op.slotActivate false = true → n ≤ 63 → k ≤ 15 →
    slotActivateCheck n (some k) s = none →
    (∀ i ∈ s.shardsRead (s.bundle k), s.shardFault (s.bundle k) i = none) → s.ms.errs = [] →
    (s.bundle k).state = 2 →
    ∃ t, exec (.slotActivate h n (some k)) s = .next t
      ∧ Replied h Op.slotActivate Status.ok
          (leBytes 4 (if s.tb.sheetSrc = 0 then 0xFFFF_FFFF else (s.sheets.sheet + 1) % 2 ^ 32)) s t
      ∧ t.slot n = { s.slot n with
          state := 4, op := Op.slotActivate, next := some k, hdr := none, sheet := s.nextSheet }
      ∧ (∀ m, m ≠ n → t.slot m = s.slot m)
      ∧ t = { s with
          now := max s.now h.t, slots := t.slots, pillows := t.pillows, queues := t.queues, mgmt := t.mgmt }) ∧
  (∀ (u n k : Nat) (s : State), s.alive = true → (s.slot n).next = some k → (s.slot n).state = 4 →
    s.drained n = true → s.power.pwrgd = true → (s.bundle k).state = 2 →
    (((s.advance u).modSlot n fun y => { y with state := 5 }).restBobbins n).cannotProgram n = none →
    ∃ t, exec (.slotDrainEnd u n) s = .next t
      ∧ t.slot n = { s.slot n with
          state := 5, targets := s.targetsOf (s.bundle k), factors := s.factorsOf (s.bundle k), failedAt := none
          start := max s.now u
          left := (s.targetsOf (s.bundle k)).map fun g => ((s.slot n).map.getD g.ppil 0xFF, g.logical) }
      ∧ (∀ m, m ≠ n → t.slot m = s.slot m) ∧ t.bundles = s.bundles ∧ t.mem = s.mem ∧ t.templates = s.templates
      ∧ t.jobs = s.jobs ∧ t.pricks = s.pricks ∧ t.ms = s.ms) ∧
  (∀ (u n k : Nat) (s : State), s.alive = true → (s.slot n).next = some k → (s.slot n).state = 4 →
    s.drained n = true → (s.bundle k).state ≠ 2 →
    ∃ t, exec (.slotDrainEnd u n) s = .next t
      ∧ t.slot n = { s.slot n with state := 6, next := none, left := [], hdr := none } ∧ (t.latch 28).held = true) ∧
  (∀ (u n k p : Nat) (g : Target) (s : State), s.alive = true → (s.slot n).next = some k → (s.slot n).state = 4 →
    s.drained n = true → g ∈ (s.slot n).targets → p = (s.slot n).physPillow g.ppil → s.inService p = false →
    ∃ t, exec (.slotDrainEnd u n) s = .next t
      ∧ t.slot n = { s.slot n with state := 6, next := none, left := [], hdr := none } ∧ (t.latch 28).held = true) ∧
  (∀ (u n k : Nat) (s : State), s.alive = true → (s.slot n).next = some k → (s.slot n).state = 5 →
    (s.slot n).left = [] → (s.slot n).failedAt = none →
    ∃ t, exec (.slotReprogramEnd u n) s = .next t
      ∧ t.slot n = { s.slot n with
          state := 3, handle := k, next := none, model := (s.bundle k).model, fromSheet := 0 }
      ∧ (∀ m, m ≠ n → t.slot m = s.slot m)
      ∧ t = { s with now := max s.now u, slots := t.slots, pillows := t.pillows, queues := t.queues }) ∧
  (∀ (h : Hdr) (n : Nat) (s : State), s.accepts Op.slotRetire false = true → n ≤ 63 →
    ((s.slot n).state = 2 ∨ (s.slot n).state = 6) → s.slotTemplate n = none →
    ∃ t, exec (.slotRetire h n) s = .next t ∧ Replied h Op.slotRetire Status.ok [] s t
      ∧ t.slot n = { sheet := (s.slot n).sheet } ∧ (∀ m, m ≠ n → t.slot m = s.slot m)
      ∧ t = { s with
          now := max s.now h.t, slots := t.slots, pillows := t.pillows, queues := t.queues, mgmt := t.mgmt }) ∧
  (∀ (h : Hdr) (n : Nat) (s : State), s.accepts Op.slotRetire false = true → n ≤ 63 → (s.slot n).state = 3 →
    s.slotTemplate n = none →
    ∃ t, exec (.slotRetire h n) s = .next t
      ∧ t.slot n = { s.slot n with
          state := 4, op := Op.slotRetire, next := none, hdr := some h, sheet := s.nextSheet }
      ∧ (∀ m, m ≠ n → t.slot m = s.slot m) ∧ t.queues = s.queues
      ∧ t = { s with now := max s.now h.t, slots := t.slots, pillows := t.pillows, mgmt := t.mgmt }) ∧
  (∀ (u n : Nat) (h : Hdr) (s : State), s.alive = true → (s.slot n).state = 4 → (s.slot n).next = none →
    s.drained n = true → (s.slot n).hdr = some h →
    ∃ t, exec (.slotRetireEnd u n) s = .next t ∧ Replied h Op.slotRetire Status.ok [] s t
      ∧ t.slot n = { sheet := (s.slot n).sheet } ∧ (∀ m, m ≠ n → t.slot m = s.slot m)
      ∧ t = { s with now := max s.now u, slots := t.slots, pillows := t.pillows, queues := t.queues }) ∧
  (∀ (h : Hdr) (n : Nat) (s : State), s.accepts Op.slotRetire false = true → n ≤ 63 →
    ((s.slot n).state = 1 ∨ (s.slot n).state = 4 ∨ (s.slot n).state = 5) →
    Refuses (.slotRetire h n) h Op.slotRetire (resHeld (s.slot n).op Op.slotRetire 11 n 0xFF n) s)

/-! ## Calibration -/

/-- Runs of the calibration (R341 to R346, R364, R365, R423, R478): CAL_RUN starts where nothing stands against it,
from state 2 without a template in state 3, and is refused with RES_HELD by a run, kind 7; 180 ms later a run whose
measurements are all plausible passes: it seals the next epoch, sets CAL_DONE, replies OK and leads to state 2;
HC_SELFCAL starts, or follows the one that runs, and at its end adopts the plausible factors and replies OK, or
CAL_FAIL where one was not adopted. -/
def Obligations.CalibrationRuns : Prop :=
  (∀ (h : Hdr) (s : State), s.accepts Op.calRun false = true → calRunCheck s = none →
    ∃ t, exec (.calRun h) s = .next t ∧ t.trim = { s.trim with cal := some h, calStart := max s.now h.t }
      ∧ t.mgmt.devState = (if s.mgmt.devState = 2 ∧ s.admitted = [] then 3 else s.mgmt.devState)
      ∧ t = { s with now := max s.now h.t, trim := t.trim, mgmt := t.mgmt }) ∧
  (∀ (h g : Hdr) (s : State), s.accepts Op.calRun false = true → s.therm.step < 2 → s.trim.cal = some g →
    Refuses (.calRun h) h Op.calRun (resHeld Op.calRun Op.calRun 7 0 0xFF 0xFFFF_FFFF) s) ∧
  (∀ (n : Nat) (res : CalResult) (h : Hdr) (s : State), s.alive = true → s.trim.cal = some h →
    s.trim.calStart + 180_000_000 ≤ max s.now n → (∀ m ∈ res.meas, plausible m.cls m.index m.value = true) →
    res.failed6 = [] → (∀ p, p < 48 → 16 ≤ s.soundCount p) → (s.mgmt.devState = 1 ∨ s.mgmt.devState = 3) →
    ∃ t, exec (.calRunEnd n res) s = .next t ∧ Replied h Op.calRun Status.ok [] s t
      ∧ t.trim.cal = none ∧ t.trim.calDone = true ∧ t.trim.verdict = true ∧ t.trim.epoch = s.trim.epoch + 1
      ∧ t.trim.kept = s.trim.kept ∧ t.trim.sealBase = max s.now n ∧ t.trim.serviceOff = false
      ∧ t.mgmt.devState = 2 ∧ t.latches = s.latches ∧ t.mem = s.mem) ∧
  (∀ (h : Hdr) (s : State), s.accepts Op.hcSelfcal false = true → s.hcHeld = false → s.hc.selfcal = none →
    Accepts (.hcSelfcal h) h (fun s => { s with hc := { s.hc with selfcal := some h } }) s) ∧
  (∀ (h g : Hdr) (s : State), s.accepts Op.hcSelfcal false = true → s.hcHeld = false → s.hc.selfcal = some g →
    Accepts (.hcSelfcal h) h (fun s => { s with hc := { s.hc with selfcals := s.hc.selfcals ++ [h] } }) s) ∧
  (∀ (n : Nat) (res : CalResult) (h : Hdr) (s : State), s.up = true → s.hc.selfcal = some h →
    (∀ m ∈ res.meas, plausible m.cls m.index m.value = true) → s.hc.conv = none → s.hc.aborted = [] →
    s.hc.urgents = [] → s.hc.reads = [] → s.runningSeq = none → s.readySeq = none → s.hc.selfcals = [] →
    (s.advance n).checkWaits = none →
    ∃ t, exec (.hcSelfcalEnd n res) s = .next t ∧ Replied h Op.hcSelfcal Status.ok [] s t
      ∧ t.hc.selfcal = none ∧ t.hc.factOk = BitVec.allOnes 12
      ∧ (∀ k, k < 12 → t.hc.fact.getD k 0 = ((res.meas.find? fun m =>
          m.cls = .hcFactor && m.bobbin == 0 && m.index == k).map Meas.value).getD (elemNominal .hcFactor k))
      ∧ t = { s with now := max s.now n, hc := t.hc, queues := t.queues }) ∧
  (∀ (n k : Nat) (v : Int) (h : Hdr) (s : State), s.up = true → s.hc.selfcal = some h → k < 12 →
    plausible .hcFactor k v = false → s.hc.factOk = BitVec.allOnes 12 → s.hc.fact.length = 14 →
    (∀ i, i < 12 → plausible .hcFactor i (s.hc.fact.getD i 0) = true) → s.hc.conv = none → s.hc.aborted = [] →
    s.hc.urgents = [] → s.hc.reads = [] → s.runningSeq = none → s.readySeq = none → s.hc.selfcals = [] →
    (s.advance n).checkWaits = none →
    ∃ t, exec (.hcSelfcalEnd n { meas := [{ cls := .hcFactor, bobbin := 0, index := k, value := v, again := v }],
                                 failed6 := [], tj := 0 }) s = .next t
      ∧ t.hc.fact.getD k 0 = s.hc.fact.getD k 0 ∧ t.trim.kept = min 0xFFFF_FFFF (s.trim.kept + 1)
      ∧ (t.latch 15).held = true
      ∧ (∃ w, t.queue 1 = (s.queue 1).joined 1 {
          prio := h.prio, writer := w, tag := h.tag
          data := replyBytes Op.hcSelfcal Status.calFail (max s.now n) h.tag [0xFF, 0xFF] })
      ∧ t = { s with
          now := max s.now n, hc := t.hc, trim := t.trim, latches := t.latches, queues := t.queues })

/-- Calibration in service (R351 to R357, R526): a pass of a bobbin without a running stage counts; after 1,024 passes a
dwell ends, its converter's four offsets and four linearity words wait for the next seal, and the next converter
leaves service; a level scan of 4,096 passes of each level joins the last four with the mean levels of its passes, and
the fourth makes BASE and K0; a seal that is due makes the next
epoch, which waits for a boundary, one with the reference off by more than 0.5 % seals nothing and raises its class,
and none is made at step 2. -/
def Obligations.CalibrationInService : Prop :=
  (∀ (n p b : Nat) (cs zs : SparseInt) (s : State), s.calServes = true → s.calBobbin p b = true →
    ((s.bobbin p b).state ≠ 0 ∨ ((s.bobbin p b).calPass s.trim s.sheets.sheet cs zs).passFails = false) →
    (s.pillow p).run = none → s.therm.step < 3 →
    ∃ t, exec (.calibrationPass n p b cs zs) s = .next t ∧ (t.bobbin p b).made = (s.bobbin p b).made + 1
      ∧ t.trim = { s.trim with calPasses := min 0xFFFF_FFFF (s.trim.calPasses + 1) }
      ∧ (∀ q c, (q, c) ≠ (p, b) → t.bobbin q c = s.bobbin q c)
      ∧ t = { s with now := max s.now n, trim := t.trim, pillows := t.pillows }) ∧
  (∀ (n p b g c : Nat) (s : State), s.calServes = true → s.calBobbin p b = true → g < 8 →
    tget (fun _ => 0) (s.bobbin p b).dwell g + 1024 ≤ (s.bobbin p b).made → c = 33 * g + ((s.bobbin p b).uOf g).1 →
    ∃ t, exec (.dwellEnd n p b g []) s = .next t ∧ (t.bobbin p b).uOf g = nextConv ((s.bobbin p b).uOf g)
      ∧ tget (fun _ => 0) (t.bobbin p b).dwell g = (s.bobbin p b).made
      ∧ (∀ r, r < 4 → tget (fun _ => ((0 : Int), (0 : Nat))) (t.bobbin p b).pendO (4 * c + r)
          = ((tget (fun _ => ((0 : Int), (0 : Nat))) (s.bobbin p b).pendO (4 * c + r)).1,
             (tget (fun _ => ((0 : Int), (0 : Nat))) (s.bobbin p b).pendO (4 * c + r)).2 + 1))
      ∧ (∀ r, r < 4 → tget (fun _ => ((0 : Int), (0 : Nat))) (t.bobbin p b).pendLin (4 * c + r)
          = ((tget (fun _ => ((0 : Int), (0 : Nat))) (s.bobbin p b).pendLin (4 * c + r)).1 + 32,
             (tget (fun _ => ((0 : Int), (0 : Nat))) (s.bobbin p b).pendLin (4 * c + r)).2 + 1))
      ∧ (∀ q d, (q, d) ≠ (p, b) → t.bobbin q d = s.bobbin q d)
      ∧ t = { s with now := max s.now n, pillows := t.pillows }) ∧
  (∀ (n p b : Nat) (ms : List Int) (s : State), s.calServes = true → s.calBobbin p b = true →
    (s.bobbin p b).programmed = true → (∀ l, l < 16 → 4096 ≤ tget (fun _ => 0) (s.bobbin p b).scanN l) →
    ms = (s.bobbin p b).scanLevels → (s.bobbin p b).base = [] → (s.bobbin p b).scans.length = 3 →
    ∃ t, exec (.levelScanEnd n p b ms) s = .next t
      ∧ (t.bobbin p b).scans = ms :: (s.bobbin p b).scans ∧ (t.bobbin p b).drift = 0
      ∧ (t.bobbin p b).k0 = (s.bobbin p b).kNow.getD 16384
      ∧ (t.bobbin p b).base = (List.range 128).map (fun i =>
          roundHalfEven (((ms :: (s.bobbin p b).scans).map fun x => x.getD i 0).sum) 4)
      ∧ (∀ q d, (q, d) ≠ (p, b) → t.bobbin q d = s.bobbin q d)
      ∧ t = { s with now := max s.now n, pillows := t.pillows }) ∧
  (∀ (n : Nat) (dev : Int) (s : State), (s.advance n).sealDue = true → s.therm.step < 2 → dev.natAbs ≤ 50 → s.tb.sheetSrc ≠ 0 →
    ∃ t, exec (.sealEpoch n dev) s = .next t ∧ t.trim = { s.trim with
        refDev := dev, epoch := s.trim.epoch + 1, unbound := some (s.trim.epoch + 1), bound := false
        sealBase := max s.now n, sealHeld := false, kept := t.trim.kept } ∧ t.hc = { s.hc with checked := false }) ∧
  (∀ (n : Nat) (dev : Int) (s : State), (s.advance n).sealDue = true → s.therm.step < 2 → 50 < dev.natAbs →
    ∃ t, exec (.sealEpoch n dev) s = .next t ∧ t.trim = { s.trim with refDev := dev, sealHeld := true }
      ∧ (t.latch 15).held = true ∧ t.hc = { s.hc with checked := false, checkFrom := max s.now n }
      ∧ t = { s with
          now := max s.now n, trim := t.trim, hc := t.hc, latches := t.latches, queues := t.queues }) ∧
  (∀ (n : Nat) (dev : Int) (s : State), (s.advance n).sealDue = true → 2 ≤ s.therm.step →
    exec (.sealEpoch n dev) s = .next { s with now := max s.now n, trim := { s.trim with sealHeld := true } })

/-- The trim image (R347 to R350, R424, R478): TRIM_READ opens its transfer over the image as it stands and answers the
epoch and the blocks, and its buffer is ready when it has been formed; TRIM_WRITE opens its transfer and takes the
device from state 2 to 1; an image that fails a check is refused with TRIM_BAD and changes nothing, and a good one
sets RESTORED and clears CAL_DONE. -/
def Obligations.TrimImage : Prop :=
  (∀ (h : Hdr) (o l : Nat) (s : State), s.accepts Op.trimRead false = true → o % 2048 = 0 → l % 2048 = 0 → 0 < l →
    o + l ≤ trimBytes → s.bulk.xfer = none → s.bulk.bar = none → s.bulk.arrived = none →
    Answers (.trimRead h o l) h Op.trimRead (fun s => leBytes 4 s.trim.epoch ++ leBytes 4 (f2Blocks l))
      (fun s => { s with bulk := { s.bulk with xfer := some {
        kind := 4, handle := 0, index := 0, opcode := Op.trimRead, hdr := h, total := some l
        buf := sliceBytes o l s.trimImage } } }) s) ∧
  (∀ (n : Nat) (x : Xfer) (s : State), s.up = true → s.bulk.xfer = some x → x.kind = 4 →
    exec (.trimSnapshotReady n) s = .next { s with
      now := max s.now n, bulk := { s.bulk with xfer := some { x with ready := true } } }) ∧
  (∀ (h : Hdr) (s : State), s.accepts Op.trimWrite false = true → trimWriteCheck s = none →
    ∃ t, exec (.trimWrite h) s = .next t
      ∧ t.bulk = { s.bulk with xfer := some {
          kind := 3, handle := 0, index := 0, opcode := Op.trimWrite, hdr := h, total := some trimBytes } }
      ∧ t.mgmt.devState = (if s.mgmt.devState = 2 then 1 else s.mgmt.devState)
      ∧ t = { s with now := max s.now h.t, bulk := t.bulk, mgmt := t.mgmt }) ∧
  (∀ (n : Nat) (x : Xfer) (s : State), s.alive = true → s.bulk.arrived = some x → x.kind = 3 →
    ∃ t, exec (.trimWriteCheck n) s = .next t
      ∧ Replied x.hdr Op.trimWrite (if s.trimGood (x.buf.take trimBytes) then Status.ok else Status.trimBad) [] s t
      ∧ t.bulk = { s.bulk with arrived := none }
      ∧ (if s.trimGood (x.buf.take trimBytes) then
          t.trim.restored = true ∧ t.trim.calDone = false ∧ t.trim.epoch = s.trim.epoch
            ∧ t = { s with
                now := max s.now n, bulk := t.bulk, trim := t.trim, hc := t.hc, pillows := t.pillows
                queues := t.queues }
        else t = { s with now := max s.now n, bulk := t.bulk, queues := t.queues }))

/-! ## Prickings and programming -/

/-- PRICK_LOAD (R434): OPEN reserves a free number and its bytes, and a number in use is refused with RES_HELD, kind 16;
DATA writes its bytes in place; CLOSE loads an image that verifies, and frees a number whose image does not; DISCARD
frees a number that no work names. -/
def Obligations.Prickings : Prop :=
  (∀ (h : Hdr) (k n : Nat) (s : State), s.accepts Op.prickLoad false = true → k ≤ 255 → 128 ≤ n → n ≤ 393216 →
    s.prick k = none → s.storeUsed + n ≤ 0x200_0000 → (s.stored.filter fun x => !x.2.loaded).length < 4 →
    Answers (.prickLoadOpen h k n) h Op.prickLoad (fun _ => [])
      (fun s => s.setPrick k (some { loaded := false, size := n, bytes := [] })) s) ∧
  (∀ (h : Hdr) (k n : Nat) (x : Prick) (s : State), s.accepts Op.prickLoad false = true → k ≤ 255 → 128 ≤ n →
    n ≤ 393216 → s.prick k = some x →
    Refuses (.prickLoadOpen h k n) h Op.prickLoad (resHeld Op.prickLoad Op.prickLoad 16 k 0xFF 0xFFFF_FFFF) s) ∧
  (∀ (h : Hdr) (k o : Nat) (b : Bytes) (x : Prick) (s : State), s.accepts Op.prickLoad false = true → k ≤ 255 →
    o % 16 = 0 → s.prick k = some x → x.loaded = false → o + b.length ≤ x.size →
    ∃ y, (∀ i, tget (fun _ => none) y.bytes i = if o ≤ i ∧ i < o + b.length then b[i - o]?
            else tget (fun _ => none) x.bytes i)
      ∧ y = { x with bytes := y.bytes }
      ∧ Answers (.prickLoadData h k o b) h Op.prickLoad (fun _ => []) (fun s => s.setPrick k (some y)) s) ∧
  (∀ (h : Hdr) (k : Nat) (x : Prick) (s : State), s.accepts Op.prickLoad false = true → k ≤ 255 →
    s.prick k = some x → x.loaded = false → x.verify = none →
    Answers (.prickLoadClose h k) h Op.prickLoad (fun _ => [])
      (fun s => s.setPrick k (some { x with loaded := true })) s) ∧
  (∀ (h : Hdr) (k : Nat) (x : Prick) (r : Reject) (s : State), s.accepts Op.prickLoad false = true → k ≤ 255 →
    s.prick k = some x → x.loaded = false → x.verify = some r →
    ∃ t, exec (.prickLoadClose h k) s = .next t ∧ Replied h Op.prickLoad r.status r.payload s t ∧ t.prick k = none
      ∧ (∀ j, j ≠ k → t.prick j = s.prick j)
      ∧ t = { s with now := max s.now h.t, pricks := t.pricks, queues := t.queues, mgmt := t.mgmt }) ∧
  (∀ (h : Hdr) (k : Nat) (x : Prick) (s : State), s.accepts Op.prickLoad false = true → k ≤ 255 →
    s.prick k = some x → s.prickUser k = none →
    Answers (.prickLoadDiscard h k) h Op.prickLoad (fun _ => []) (fun s => s.setPrick k none) s)

/-- Programming and refresh (R78 to R81, R323, R325, R333, R334, R355): an ACTIVE bobbin older than AGE_H hours asks
for a refresh under source 4; a pillow's first request starts on its empty spare once the shards of its image are
found sound, and is refused while CAL_DONE or PWRGD is 0 (R79, R345); the oldest waiting programming starts where
fewer than four run, the supply stands and its bundle is VERIFIED, and is refused else (R320, assumption 109); a
programming whose every cell was accepted leaves its image's levels in the cells with K at 16,384, and one that failed
leaves the bobbin FAILED with the cells that its rows have reached (R78, R80). -/
def Obligations.BobbinProgramming : Prop :=
  (∀ (n p l : Nat) (b : Bobbin) (s : State), s.alive = true → l < 16 → s.wt.ageH ≠ 0 →
    s.bobbin p ((s.pillow p).physOf l) = b → b.progTime + s.wt.ageH * 3_600_000_000_000 < max s.now n → b.state = 0 →
    (s.slot b.slot).state = 3 → (∀ r ∈ (s.pillow p).refresh, r.logical ≠ l) →
    exec (.ageRefreshRequest n p l) s = .next { s.setPillow p { s.pillow p with
      refresh := (s.pillow p).refresh ++ [{ source := 4, logical := l, age := b.progTime }] } with
        now := max s.now n }) ∧
  (∀ (n p sp : Nat) (q : RefreshReq) (g : Target) (b : Bobbin) (s : State), s.alive = true → s.inService p = true →
    s.trim.calDone = true → s.power.pwrgd = true → s.ms.errs = [] → s.trim.cal = none → s.therm.step = 0 →
    (s.pillow p).spare = some sp →
    (s.bobbin p sp).state = 1 → (s.pillow p).refreshing = none → (s.pillow p).refresh = [q] →
    s.refreshable p q = true → b = s.bobbin p ((s.pillow p).physOf q.logical) →
    (s.slot b.slot).targetOf p q.logical = some g → (s.bundle (s.slot b.slot).handle).state = 2 →
    (∀ i ∈ g.shards, s.shardFault (s.bundle (s.slot b.slot).handle) i = none) →
    ∃ t, exec (.refreshStart n p) s = .next t ∧ t.pillow p = { s.pillow p with
        refresh := [], refreshing := some q
        progs := (s.pillow p).progs ++ [{
          bobbin := sp, logical := q.logical, forSlot := none, target := g, handle := (s.slot b.slot).handle
          started := false }] }
      ∧ (∀ r, r ≠ p → t.pillow r = s.pillow r) ∧ t = { s with now := max s.now n, pillows := t.pillows }) ∧
  (∀ (n p sp : Nat) (q : RefreshReq) (s : State), s.alive = true → s.inService p = true → s.trim.cal = none →
    s.therm.step = 0 → (s.pillow p).spare = some sp → (s.bobbin p sp).state = 1 → (s.pillow p).refreshing = none →
    (s.pillow p).refresh = [q] → s.refreshable p q = true → (s.trim.calDone = false ∨ s.power.pwrgd = false) →
    exec (.refreshStart n p) s = .next { s.setPillow p { s.pillow p with refresh := [] } with now := max s.now n }) ∧
  (∀ (n p m : Nat) (q : ProgReq) (rest : List ProgReq) (s : State), s.alive = true →
    (s.pillow p).progs = q :: rest → q.started = false → rest.countP (·.started) < 4 →
    (∀ r ∈ rest, r.started = true → r.bobbin ≠ q.bobbin) → q.forSlot = some m → m < 64 →
    (s.power.pwrgd = false ∨ (s.bundle q.handle).state ≠ 2) →
    ∃ t, exec (.bobbinProgrammingStart n p) s = .next t ∧ t.pillow p = { s.pillow p with progs := rest }
      ∧ (∀ r, r ≠ p → t.pillow r = s.pillow r) ∧ (t.slot m).left = (s.slot m).left.erase (p, q.logical)
      ∧ ((s.slot m).failedAt = none → (t.slot m).failedAt = some (p, q.bobbin))
      ∧ (∀ k, k ≠ m → t.slot k = s.slot k)
      ∧ t = { s with now := max s.now n, pillows := t.pillows, slots := t.slots }) ∧
  (∀ (n p : Nat) (q : ProgReq) (rest : List ProgReq) (s : State), s.alive = true → s.power.pwrgd = true →
    (s.pillow p).progs = q :: rest → q.started = false → q ∉ rest → rest.countP (·.started) < 4 →
    (∀ r ∈ rest, r.started = true → r.bobbin ≠ q.bobbin) → (s.bundle q.handle).state = 2 →
    ∃ t, exec (.bobbinProgrammingStart n p) s = .next t
      ∧ (t.pillow p).progs = { q with started := true } :: rest
      ∧ t.bobbin p q.bobbin = { s.bobbin p q.bobbin with
          state := 2, logical := q.logical, progFail := false, image := some q.target }
      ∧ (∀ r c, (r, c) ≠ (p, q.bobbin) → t.bobbin r c = s.bobbin r c)
      ∧ t = { s with now := max s.now n, pillows := t.pillows }) ∧
  (∀ (n p u : Nat) (q : ProgReq) (m : Nat) (s : State), (s.pillow p).progs = [q] → q.started = true →
    q.stopped = false → q.cut = false → q.forSlot = some m → s.ms.errs = [] → s.poisonedRow q = none →
    (s.bundle q.handle).state = 2 →
    ∃ t, exec (.bobbinProgrammingEnd n p q.bobbin 0 u) s = .next t ∧ (t.pillow p).progs = []
      ∧ t.bobbin p q.bobbin = { s.bobbin p q.bobbin with
          cells := s.imageCells (s.bundle q.handle) q.target.ofs, w4 := q.target.fmt == 1, vfail := 0, iterMax := u
          progFail := false, calFailed := false, dead := false, pendK := some 16384
          sets := (s.bobbin p q.bobbin).sets.map fun x => { x with k := 16384 }
          base := [], scans := [], scanP := [], scanN := [], drift := 0, k0 := 16384, bad := [], strikes := []
          progCount := (s.bobbin p q.bobbin).progCount + 1, programmed := true, progTime := max s.now n
          state := 6, slot := m, logical := q.logical }
      ∧ t.slot m = { s.slot m with left := (s.slot m).left.erase (p, q.logical) }
      ∧ (∀ j, j ≠ m → t.slot j = s.slot j)
      ∧ t = { s with
          now := max s.now n, pillows := t.pillows, slots := t.slots, latches := t.latches, queues := t.queues }) ∧
  (∀ (n p u v : Nat) (q : ProgReq) (m : Nat) (s : State), (s.pillow p).progs = [q] → q.started = true →
    q.stopped = false → q.cut = false → q.forSlot = some m → s.ms.errs = [] → s.poisonedRow q = none →
    (s.bundle q.handle).state = 2 → v ≠ 0 → (∀ c, c < 17 → c ≠ q.bobbin → (s.bobbin p c).state ≠ 5) →
    ∃ t, exec (.bobbinProgrammingEnd n p q.bobbin v u) s = .next t ∧ (t.bobbin p q.bobbin).state = 5
      ∧ (t.bobbin p q.bobbin).vfail = v ∧ (t.bobbin p q.bobbin).progFail = true
      ∧ (∃ d, (t.bobbin p q.bobbin).cells
          = runCells (s.imageCells (s.bundle q.handle) q.target.ofs) (s.bobbin p q.bobbin).cells 1024 v d false)
      ∧ ((s.slot m).failedAt = none → (t.slot m).failedAt = some (p, q.bobbin))
      ∧ (∀ r c, (r, c) ≠ (p, q.bobbin) → t.bobbin r c = s.bobbin r c)
      ∧ t = { s with now := max s.now n, pillows := t.pillows, slots := t.slots, free := s.free + 1 })

/-! ## Jobs -/

/-- Templates (R38, R41, R43 to R46, R435, R437): an admitted template takes the lowest free contexts and its windows,
clears the loose-enable bits it needs and is accepted with its reply, or waits for loose work to leave; a number in
use is refused with RES_HELD, kind 17, and a rated speed outside its range with ADMIT_SPEED; the abort of a template
withdraws it, and with its last instance gone it frees its number, windows and locks, and replies. -/
def Obligations.Templates : Prop :=
  (∀ (h : Hdr) (a : AdmitParams) (s : State), s.accepts Op.jobAdmit false = true → admitParams a = none →
    (s.advance h.t).admitCheck a = none → (a.looseOk = true ∨ ∀ q, q ∈ a.mapA ++ a.mapB →
      (s.pillow q).run = none ∧ (s.pillow q).standby = none ∧ (s.pillow q).saving = none
        ∧ (s.pillow q).restoring = none ∧ (s.pillow q).readyQ = []) →
    ∃ (t : State) (x : Template), exec (.jobAdmit h a) s = .next t ∧ Replied h Op.jobAdmit Status.ok x.reply s t ∧ SameButHands s t
      ∧ t.template a.template = some x ∧ x.p = a ∧ x.accepted = true ∧ x.withdrawn = false ∧ x.hdr = none
      ∧ x.ctxs = s.freeCtxs (ctxCount a) ∧ x.rows = [] ∧ x.reply.take 2 = leBytes 2 (ctxCount a)
      ∧ (∀ c ∈ ((s.loadedPrick a.prk).getD emptyPrick).claims (bothMaps a),
          ((t.pillow c.1).window c.2).claimed = true ∧ ((t.pillow c.1).window c.2).pinned = true
            ∧ ((t.pillow c.1).window c.2).owner = a.template)
      ∧ (∀ m, m ≠ a.template → t.template m = s.template m)
      ∧ t = { s with
          now := max s.now h.t, templates := t.templates, pillows := t.pillows, queues := t.queues, mgmt := t.mgmt }) ∧
  (∀ (h : Hdr) (a : AdmitParams) (p : Nat) (s : State), s.accepts Op.jobAdmit false = true → admitParams a = none →
    (s.advance h.t).admitCheck a = none → a.looseOk = false → (∀ q, q ∈ a.mapA ++ a.mapB →
      (s.pillow q).run = none ∧ (s.pillow q).standby = none ∧ (s.pillow q).readyQ = []) →
    p ∈ a.mapA → p < 48 → (s.pillow p).saving.isSome = true →
    ∃ (t : State) (x : Template), exec (.jobAdmit h a) s = .next t ∧ t.template a.template = some x ∧ x.p = a ∧ x.accepted = false
      ∧ x.hdr = some h ∧ (t.pillow p).looseEn = false ∧ (∀ m, m ≠ a.template → t.template m = s.template m)
      ∧ t = { s with now := max s.now h.t, templates := t.templates, pillows := t.pillows, mgmt := t.mgmt }) ∧
  (∀ (h : Hdr) (a : AdmitParams) (x : Template) (s : State), s.accepts Op.jobAdmit false = true →
    admitParams a = none → s.template a.template = some x →
    Refuses (.jobAdmit h a) h Op.jobAdmit (resHeld Op.jobAdmit Op.jobAdmit 17 a.template 0xFF a.template) s) ∧
  (∀ (h : Hdr) (a : AdmitParams) (s : State), s.accepts Op.jobAdmit false = true → admitParams a = none →
    s.template a.template = none → (s.loadedPrick a.prk).isSome = true → (a.vRated < 1000 ∨ 1_000_000 < a.vRated) →
    Refuses (.jobAdmit h a) h Op.jobAdmit { status := Status.admitSpeed, payload := leBytes 1 1 } s) ∧
  (∀ (n k : Nat) (x : Template) (h : Hdr) (s : State), s.alive = true → s.template k = some x → x.accepted = false →
    x.hdr = some h → s.acceptWaits x.p = false →
    ∃ t : State, exec (.jobAdmitAccept n k) s = .next t ∧ Replied h Op.jobAdmit Status.ok x.reply s t ∧ SameButHands s t
      ∧ t.template k = some { x with accepted := true, hdr := none, nextRow := s.rowStart x (s.tb.hwm + 1) }
      ∧ (∀ m, m ≠ k → t.template m = s.template m)
      ∧ t = { s with now := max s.now n, templates := t.templates, queues := t.queues, mgmt := t.mgmt }) ∧
  (∀ (h : Hdr) (k : Nat) (x : Template) (s : State), s.accepts Op.jobAbort false = true → s.template k = some x →
    x.accepted = true → x.withdrawn = false →
    Accepts (.jobAbortTemplate h k) h (fun s => s.setTemplate k (some { x with withdrawn := true, hdr := some h })) s) ∧
  (∀ (n k : Nat) (x : Template) (h : Hdr) (s : State), s.alive = true → Quiet s → s.template k = some x →
    x.withdrawn = true → x.hdr = some h → (∀ y ∈ s.liveJobs, y.2.pinned = true → y.2.template ≠ k) →
    ∃ t : State, exec (.templateWithdrawn n k) s = .next t ∧ Replied h Op.jobAbort Status.ok [] s t ∧ SameButHands s t
      ∧ t.template k = none ∧ (∀ m, m ≠ k → t.template m = s.template m)
      ∧ (∀ p, p < 48 → (∀ e ∈ (t.pillow p).tc, k ∉ e.locks)
          ∧ (∀ e ∈ (t.pillow p).windows, ¬(e.2.claimed = true ∧ e.2.pinned = true ∧ e.2.owner = k))
          ∧ (t.pillow p).looseEn = looseUnder (t.admitted.map fun y => y.2.p) p)
      ∧ t = { s with
          now := max s.now n, templates := t.templates, pillows := t.pillows, queues := t.queues, mgmt := t.mgmt })

/-- Loose jobs (R41, R129, R131, R148, R252 to R254, R436, R437): an accepted submission takes the lowest free context,
claims its windows, queues in submission order and replies with CTX, and one whose length is empty runs no work; a
capture keeps its buffer and mode; an abort of a job with no stage in progress frees its context without a record, one
of a suspended job ends it with MAP_FAULT and is answered once none of its stages runs, and so does the end of
FAULT_WAIT, which PT_ABORTS counts. -/
def Obligations.LooseJobs : Prop :=
  (∀ (h : Hdr) (x : SubmitParams) (c : Nat) (l : List Nat) (s : State), s.accepts Op.jobSubmit false = true →
    submitParams x [] = none → (s.advance h.t).submitCheck Op.jobSubmit x = none → s.freeCtxs 1 = c :: l →
    ∃ (u : State) (j : Job), exec (.jobSubmit h x) s = .next ((u.startLoose c).done h Op.jobSubmit 0 (leBytes 2 c))
      ∧ u.job c = some j ∧ (j.pinned = false ∧ j.dead = false ∧ j.aborting = none ∧ j.capMode = 0)
      ∧ (j.prk = x.prk ∧ j.asid = x.asid ∧ j.len = x.len ∧ j.map = x.map ∧ j.seed = x.seed ∧ j.recTag = x.recTag
          ∧ j.port = x.port ∧ j.tRel = max s.now h.t ∧ j.sheet = s.sheets.sheet ∧ j.order = s.order)
      ∧ (∀ w ∈ ((s.loadedPrick x.prk).getD emptyPrick).claims [x.map], ((u.pillow w.1).window w.2).claimed = true
          ∧ ((u.pillow w.1).window w.2).pinned = false ∧ ((u.pillow w.1).window w.2).owner = c)
      ∧ (∀ d, d ≠ c → u.job d = s.job d)
      ∧ u = { s with
          now := max s.now h.t, order := s.order + 1, jobs := u.jobs, pillows := u.pillows, ms := u.ms
          free := s.free + 1 }) ∧
  (∀ (h : Hdr) (x : SubmitParams) (c : Nat) (l : List Nat) (s : State), s.accepts Op.jobSubmit false = true →
    submitParams x [] = none → (s.advance h.t).submitCheck Op.jobSubmit x = none → s.freeCtxs 1 = c :: l →
    ((s.loadedPrick x.prk).getD emptyPrick).emptyLen x.len = true →
    ∃ (t : State) (j : Job), exec (.jobSubmit h x) s = .next t ∧ Replied h Op.jobSubmit Status.ok (leBytes 2 c) s t
      ∧ t.job c = some j ∧ j.dead = true ∧ j.stages.all (fun y => y.2.phase == .done) = true
      ∧ (∀ d, d ≠ c → t.job d = s.job d)) ∧
  (∀ (h : Hdr) (x : SubmitParams) (cap mode c : Nat) (l : List Nat) (s : State),
    s.accepts Op.partialCapture false = true → submitParams x [] = none → cap < 2 ^ 48 → (mode = 1 ∨ mode = 2) →
    (s.advance h.t).submitCheck Op.partialCapture x = none → (s.advance h.t).replayCheck x cap mode = none →
    s.freeCtxs 1 = c :: l →
    ∃ (u : State) (j : Job), exec (.partialCapture h x cap mode) s = .next ((u.startLoose c).done h Op.partialCapture 0 (leBytes 2 c))
      ∧ u.job c = some j ∧ (j.pinned = false ∧ j.capBuf = cap ∧ j.capMode = mode ∧ j.prk = x.prk ∧ j.len = x.len
          ∧ j.map = x.map ∧ j.order = s.order ∧ (mode = 1 → j.seed = x.seed))
      ∧ (∀ d, d ≠ c → u.job d = s.job d)
      ∧ u = { s with
          now := max s.now h.t, order := s.order + 1, jobs := u.jobs, pillows := u.pillows, ms := u.ms
          free := s.free + 1 }) ∧
  (∀ (h : Hdr) (c : Nat) (j : Job) (s : State), s.accepts Op.jobAbort false = true → s.job c = some j →
    j.pinned = false → j.aborting = none → j.dead = false → s.suspendedJob c = false →
    (∀ e ∈ s.pillows, (∀ r, e.2.run = some r → r.ctx ≠ c) ∧ (∀ v, e.2.saving = some v → v.run.ctx ≠ c)
      ∧ (∀ v, e.2.restoring = some v → v.run.ctx ≠ c)) →
    (∀ q ∈ j.pillows, (s.pillow q).run = none ∧ (s.pillow q).standby = none ∧ (s.pillow q).readyQ = []
      ∧ ∀ e ∈ (s.pillow q).looseQ, e.1 = c) →
    ∃ t : State, exec (.jobAbortLoose h c) s = .next t ∧ Replied h Op.jobAbort Status.ok [] s t ∧ SameButHands s t
      ∧ t.job c = none ∧ (∀ d, d ≠ c → t.job d = s.job d) ∧ (∀ p, p < 48 → ∀ e ∈ (t.pillow p).looseQ, e.1 ≠ c)
      ∧ t = { s with
          now := max s.now h.t, jobs := t.jobs, pillows := t.pillows, queues := t.queues, mgmt := t.mgmt }) ∧
  (∀ (h : Hdr) (c p : Nat) (v : Saved) (j : Job) (s : State), s.accepts Op.jobAbort false = true → s.job c = some j →
    j.pinned = false → j.aborting = none → j.dead = false → j.result ≠ Status.dataPoisoned →
    v ∈ (s.pillow p).saves → v.suspended = true → v.run.ctx = c → s.inRun c = false →
    ∃ u : State, exec (.jobAbortLoose h c) s = .next (u.settlePillows j.pillows)
      ∧ Replied h Op.jobAbort Status.ok [] s u ∧ SameButHands s u
      ∧ u.job c = some { j.ended with result := Status.mapFault } ∧ (∀ d, d ≠ c → u.job d = s.job d)
      ∧ (∀ q, q < 48 → ∀ y ∈ (u.pillow q).saves, y.run.ctx ≠ c)
      ∧ u = { s with
          now := max s.now h.t, jobs := u.jobs, pillows := u.pillows, queues := u.queues, mgmt := u.mgmt }) ∧
  (∀ (h : Hdr) (c p : Nat) (v : Saved) (j : Job) (s : State), s.accepts Op.jobAbort false = true → s.job c = some j →
    j.pinned = false → j.aborting = none → j.dead = false → j.result ≠ Status.dataPoisoned →
    v ∈ (s.pillow p).saves → v.suspended = true → v.run.ctx = c → s.inRun c = true →
    ∃ u : State, exec (.jobAbortLoose h c) s = .next (u.settlePillows j.pillows)
      ∧ u.job c = some { j.ended with result := Status.mapFault, aborting := some h }
      ∧ (∀ d, d ≠ c → u.job d = s.job d) ∧ (∀ q, q < 48 → ∀ y ∈ (u.pillow q).saves, y.run.ctx ≠ c)
      ∧ u = { s with now := max s.now h.t, jobs := u.jobs, pillows := u.pillows, mgmt := u.mgmt }) ∧
  (∀ (n c p : Nat) (v : Saved) (j : Job) (s : State), s.alive = true → p < 48 → v ∈ (s.pillow p).saves →
    v.suspended = true → v.run.ctx = c → v.since + s.ms.faultWait * 1_000_000 ≤ max s.now n →
    (∀ q, q < p → (s.pillow q).saves = []) → s.job c = some j → j.aborting = none →
    j.result ≠ Status.dataPoisoned →
    ∃ u : State, exec (.faultWaitExpiry n c) s = .next (u.settlePillows j.pillows)
      ∧ u.job c = some { j.ended with result := Status.mapFault } ∧ (∀ d, d ≠ c → u.job d = s.job d)
      ∧ (∀ q, q < 48 → ∀ y ∈ (u.pillow q).saves, y.run.ctx ≠ c)
      ∧ (u.pillow p).mem.ptAborts = satAdd 0xFFFF (s.pillow p).mem.ptAborts 1
      ∧ u = { s with now := max s.now n, jobs := u.jobs, pillows := u.pillows })

/-! ## The sequencers -/

/-- Stages (R38 to R41, R178, R212, R246 to R250, R257): a pinned stage whose time has come is ready, ahead of every
queued stage of a later key; the parts of a saved stage's image stand in its slot, and nowhere else, and its bank is
free; a restored stage runs
where the pillow is idle and may take loose work, waits where a stage runs, and fails the pillow out on an
uncorrectable unit; a FENCE whose count has come subtracts it and completes; a window wait ends when its line is
there. What follows the event is the pillow's own next move. -/
def Obligations.Stages : Prop :=
  (∀ (n p c k : Nat) (j : Job) (s : State), s.alive = true → s.job c = some j → j.pinned = true → j.dead = false →
    (j.stage k).phase = .waiting → (j.stage k).pillow = p → (j.stage k).readyAt ≤ max s.now n →
    ∃ u : State, exec (.stageReady n p c k) s = .next (u.settlePillows [p])
      ∧ u.job c = some (j.setPhase k .ready) ∧ (∀ d, d ≠ c → u.job d = s.job d)
      ∧ (c, k) ∈ (u.pillow p).readyQ ∧ (u.pillow p).readyQ.length = (s.pillow p).readyQ.length + 1
      ∧ (∀ e r, (s.pillow p).readyQ = e :: r → lexLt (s.edfKey (c, k)) (s.edfKey e) = true →
          (u.pillow p).readyQ = (c, k) :: e :: r)
      ∧ u.pillow p = { s.pillow p with readyQ := (u.pillow p).readyQ } ∧ (∀ q, q ≠ p → u.pillow q = s.pillow q)
      ∧ u = { s with now := max s.now n, jobs := u.jobs, pillows := u.pillows }) ∧
  (∀ (n p : Nat) (v : Saved) (w : Work) (s : State), s.alive = true → (s.pillow p).saving = some v →
    s.workOf p v.run = some w →
    ∃ u : State, exec (.saveComplete n p) s = .next ((u.abortAsked v.run.ctx).settlePillows [p])
      ∧ u.pillow p = { s.pillow p with saving := none, mem := (u.pillow p).mem }
      ∧ (∀ q, q ≠ p → u.pillow q = s.pillow q)
      ∧ u.mem = ((s.advance n).writeImage (slotAddr p v.slot) (w.saveImage v.suspended)).mem
      ∧ (∀ a, (∀ x ∈ w.saveImage v.suspended,
            a < slotAddr p v.slot + x.1 ∨ slotAddr p v.slot + x.1 + x.2.length ≤ a) → u.byteAt a = s.byteAt a)
      ∧ u = { s with now := max s.now n, mem := u.mem, ms := u.ms, pillows := u.pillows }) ∧
  (∀ (n p : Nat) (v : Saved) (j : Job) (s : State), s.alive = true → (s.pillow p).restoring = some v →
    (∀ w, s.workOf p v.run = some w → ∀ x ∈ w.saveImage v.suspended,
      s.poisonIn (slotAddr p v.slot + x.1) x.2.length = none) → s.ms.errs = [] →
    s.job v.run.ctx = some j → j.aborting = none → j.pinned = false →
    (s.pillow p).run = none → (s.pillow p).standby = none → (s.pillow p).readyQ = [] → (s.pillow p).looseEn = true →
    s.therm.step < 2 →
    ∃ u : State, exec (.restoreComplete n p .clean) s = .next (u.settlePillows [p])
      ∧ u.pillow p = { s.pillow p with run := some v.run, restoring := none, mem := (u.pillow p).mem }
      ∧ (∀ q, q ≠ p → u.pillow q = s.pillow q) ∧ u.job v.run.ctx = some (j.setPhase v.run.stage .running)
      ∧ (∀ d, d ≠ v.run.ctx → u.job d = s.job d)
      ∧ u = { s with now := max s.now n, jobs := u.jobs, pillows := u.pillows }) ∧
  (∀ (n p : Nat) (v : Saved) (j : Job) (s : State), s.alive = true → (s.pillow p).restoring = some v →
    (∀ w, s.workOf p v.run = some w → ∀ x ∈ w.saveImage v.suspended,
      s.poisonIn (slotAddr p v.slot + x.1) x.2.length = none) → s.ms.errs = [] →
    s.job v.run.ctx = some j → j.aborting = none → (s.pillow p).run.isSome = true →
    ∃ u : State, exec (.restoreComplete n p .clean) s = .next (u.settlePillows [p]) ∧ (v.run.ctx, v.run.stage) ∈ (u.pillow p).looseQ
      ∧ u.pillow p = { s.pillow p with restoring := none, looseQ := (u.pillow p).looseQ, mem := (u.pillow p).mem }
      ∧ (∀ q, q ≠ p → u.pillow q = s.pillow q) ∧ u = { s with now := max s.now n, pillows := u.pillows }) ∧
  (∀ (n p : Nat) (v : Saved) (s : State), s.alive = true → (s.pillow p).restoring = some v → p < 48 →
    s.failedOut p = false →
    ∃ (u : State) (ps : List Nat), exec (.restoreComplete n p .uncorrectable) s = .next (u.settlePillows (p :: ps))
      ∧ u.mgmt.pilOut.getLsbD p = true ∧ (u.pillow p).run = none ∧ (u.pillow p).restoring = none) ∧
  (∀ (n p : Nat) (r : Run) (w : Work) (s : State), s.alive = true →
    (s.advance n).settlePillows [p] = s.advance n → (s.pillow p).run = some r → s.workOf p r = some w →
    r.waitFence = true → r.stop = none → w.op.count ≤ w.job.fence (fenceKey p w.op.fence) →
    ∃ u : State, exec (.fenceWaitEnd n p) s = .next (u.boundary p 6) ∧ (u.pillow p).run = some w.nextOp
      ∧ (∃ f, u.job r.ctx = some { w.job with fences := f }
          ∧ ∀ k, tget (fun _ => 0) f k = if k = fenceKey p w.op.fence then w.job.fence k - w.op.count else w.job.fence k)
      ∧ (∀ d, d ≠ r.ctx → u.job d = s.job d) ∧ (∀ q, q ≠ p → u.pillow q = s.pillow q)
      ∧ u = { s with now := max s.now n, jobs := u.jobs, pillows := u.pillows }) ∧
  (∀ (n p : Nat) (r : Run) (x : Nat × Int × Bool) (j : Job) (s : State), s.alive = true →
    (s.advance n).settlePillows [p] = s.advance n → (s.pillow p).run = some r → r.waitWin = some x →
    s.job r.ctx = some j → s.lineReady p j x = true →
    ∃ u : State, exec (.windowWaitEnd n p) s = .next (u.settlePillows [p]) ∧ u.pillow p = { s.pillow p with
        run := some { r with waitWin := none }
        cnt := { (s.pillow p).cnt with
          sqWinWait := satAdd 0xFFFF_FFFF (s.pillow p).cnt.sqWinWait (max s.now n - r.waitSince) } }
      ∧ (∀ q, q ≠ p → u.pillow q = s.pillow q) ∧ u = { s with now := max s.now n, pillows := u.pillows })

/-! ## The units of a pillow -/

/-- The crossbar path (R39, R61, R64, R89 to R107, R117, R124, R133, R160, R170, R179, R208): a token read whole is
staged, with its index, half and conditioned scale; the high nibble's pass of an A8 token keeps its partials and the
low one follows; a saturating pass of a low range is repeated; a poisoned unit of the staging buffers stages the token
again; a vector spilled in the wide format is written as 8-byte two's complement numbers at its columns of its output
address and nowhere else. What follows is the pillow's own next move. -/
def Obligations.CrossbarPath : Prop :=
  (∀ (n p : Nat) (r : Run) (w : Work) (pos : List Nat × Nat) (b : Bytes) (v : State) (s : State),
    s.pillowAlive p = true → (s.pillow p).run = some r → s.workOf p r = some w → r.next = some pos → w.op.kind = kXbar →
    r.started = true → r.waitWin = none → r.stop = none → r.hasRoom pos = true → w.badTile pos.1 = none →
    (s.advance n).readToken w 0 (w.prk.qdesc w.op.qdesc).esize pos.1 pos.2 (w.kOf pos.1) = .ok b v →
    ∃ (u : State) (t : StagedTok), exec (.tokenConditioned n p) s = .next ((u.finishHead p).boundary p 0)
      ∧ (t.idx = pos.1 ∧ t.tok = pos.2 ∧ t.k = w.kOf pos.1 ∧ t.half = r.halfFor pos.2
          ∧ t.masked = w.maskedTok pos.1 pos.2)
      ∧ (∃ d c, c = conditionToken (w.prk.qdesc w.op.qdesc) (v.scaleOf w).1 (v.scaleOf w).2 d (w.op.parts == 1)
            (if r.again = 0 then r.cond else none) (rawElems (w.prk.qdesc w.op.qdesc).esize t.k b)
            (slicesOf (w.prk.qdesc w.op.qdesc) t.k (w.drives pos.1))
          ∧ t.scale = c.scale ∧ t.zq = c.zq ∧ t.degen = c.degen)
      ∧ (u.pillow p).run.map Run.staged = (v.pillow p).run.map (fun x => x.staged ++ [t])
      ∧ u.mem = s.mem ∧ u.streams = s.streams ∧ u.templates = s.templates) ∧
  (∀ (n p : Nat) (r : Run) (w : Work) (k : StagedTok) (rest : List StagedTok) (d : Drive) (b : Nat) (o : PassOut)
      (x : Bobbin) (e : Nat) (s : State), s.pillowAlive p = true → (s.pillow p).run = some r → s.workOf p r = some w →
    w.op.kind = kXbar → r.stop = none → r.staged = k :: rest → k.degen = none → w.job.capMode ≠ 2 →
    w.drives k.idx = [d] → (∀ q, (s.bobbin p q).stageErrs = []) → d.wave = r.wave → (w.prk.qdesc w.op.qdesc).a4 = false → d.tile.a4 = false → r.low = false → r.attempt = 0 →
    (s.advance n).stagePoisoned w k (waveCount [d]) [d] = false → (s.advance n).canPass p d.tile w.job.sheet = true →
    b = (s.advance n).routeOf p d.tile.logical w.job.sheet → (s.bobbin p b).state ≠ 3 →
    (s.bobbin p b).work s.trim w.job.sheet
      (nibbles false false ((s.bobbin p b).staged (stageAt k.half (k.tok * waveCount [d] + d.wave)) d.rows))
      (min 3 d.tile.rangeH) (min 3 d.tile.rangeL) [] = (e, o, x) → x.passFails = false →
    ∃ u : State, exec (.passComplete n p []) s = .next ((u.finishHead p).boundary p 5)
      ∧ (o.sat = false → (u.pillow p).run = some { r with
          low := true, rep := [], hi := tset (fun _ => []) d.tile.logical o.ps r.hi })
      ∧ (o.sat = true → o.low = true → (u.pillow p).run = some { r with attempt := 1, rep := [d.tile.logical] })
      ∧ u.bobbin p b = x ∧ x.cells = (s.bobbin p b).cells ∧ x.made = (s.bobbin p b).made + 1
      ∧ x.passes = satAdd 0xFFFF_FFFF (s.bobbin p b).passes 1
      ∧ (∀ q c, (q, c) ≠ (p, b) → u.bobbin q c = s.bobbin q c)
      ∧ u = { s with now := max s.now n, jobs := u.jobs, pillows := u.pillows }) ∧
  (∀ (n p : Nat) (r : Run) (w : Work) (k : StagedTok) (rest : List StagedTok) (s : State), s.pillowAlive p = true →
    (s.pillow p).run = some r → s.workOf p r = some w → w.op.kind = kXbar → r.staged = k :: rest → k.degen = none →
    w.job.capMode ≠ 2 → r.stop = none → r.epi = [] → (∀ q, (s.bobbin p q).stageErrs = []) →
    (w.drives k.idx).filter (fun d => d.wave == r.wave) ≠ [] →
    (s.advance n).stagePoisoned w k (waveCount (w.drives k.idx))
      ((w.drives k.idx).filter fun d => d.wave == r.wave) = true →
    ∃ u : State, exec (.passComplete n p []) s = .next (u.settlePillows [p]) ∧ u.pillow p = { s.pillow p with
        bobbins := (u.pillow p).bobbins
        run := some { r with
          staged := [], again := r.again + (rest.length + 1), next := some (k.idx, k.tok) } }
      ∧ (∀ q c, u.bobbin q c = s.bobbin q c) ∧ (∀ q, q ≠ p → u.pillow q = s.pillow q)
      ∧ u = { s with now := max s.now n, pillows := u.pillows }) ∧
  (∀ (n p : Nat) (r : Run) (w : Work) (v : EpiVec) (rest : List EpiVec) (sp : List (Nat × Bytes)) (l : List (Nat × Nat))
      (y : State) (s : State),
    s.pillowAlive p = true → (s.pillow p).run = some r → s.workOf p r = some w → w.op.kind = kXbar → r.stop = none →
    r.epi = v :: rest → s.spillsReady w v = true → v.caps = none → v.masked = false → w.op.parts = 1 →
    ((s.advance n).edescOf w).spill = true → ((s.advance n).edescOf w).narrow = false → v.vals ≠ [] →
    v.vals.length = (w.columns v.idx).length → (∀ c ∈ w.columns v.idx, w.live v c = true) → w.op.o.windowed = false →
    sp = spansOf (((w.columns v.idx).zip v.vals).map fun x => (x.1, leBytes 8 (ofSigned 64 x.2))) →
    writePages w 1 false (sp.flatMap fun x =>
        vaPieces (vaOf ((w.address w.op.o Level.strO v.idx v.tok).1 + ((x.1 * 8 : Nat) : Int))) x.2.length) (s.advance n)
      = (.ok l, y) →
    ∃ u : State, exec (.epilogueWriteEnd n p) s
        = .next ((((u.finishHead p).xbarEnd p).boundary p 1).settlePillows w.job.pillows)
      ∧ u.mem = (storePieces w 1 l (sp.flatMap Prod.snd) y).mem
      ∧ (∀ a, (∀ z ∈ l, a < z.1 ∨ z.1 + z.2 ≤ a) → u.byteAt a = s.byteAt a)
      ∧ (u.pillow p).run = some { r with epi := rest } ∧ u.streams = s.streams ∧ u.templates = s.templates)

/-- The other units (R39, R169, R176 to R178, R188 to R197, R238 to R243): a tatting instruction writes its outputs at
its output address and nowhere else, and a masked token's writes nothing; a DMA burst copies its bytes from source to
destination and nowhere else; SETLEN gives its run-time length the value read, clamped for pinned work. What follows
is the pillow's own next move. A walk for a loose stage whose page is mapped and whose entries are sound fills the
pillow's cache with the page in front, counts a miss, and leaves every other pillow and all of memory as they were
(R234). A pillow without work walks for nothing. -/
def Obligations.TattingAndTransfers : Prop :=
  (∀ (n p : Nat) (r : Run) (w : Work) (idx : List Nat) (tok : Nat) (ab eb out : Bytes) (l : List (Nat × Nat))
      (v x y : State) (s : State), s.pillowAlive p = true → (s.pillow p).run = some r → s.workOf p r = some w →
    w.op.kind = kTat → r.started = true → r.waitWin = none → r.stop = none → r.next = some (idx, tok) → w.op.arg ≤ 3 →
    r.tatPos + 1 < w.op.tatPieces →
    readPiece w (w.prk.qdesc w.op.qdesc).esize idx tok 65 (w.op.tatPiece r.tatPos).1 (w.op.tatPiece r.tatPos).2
      (s.advance n) = .ok ab v →
    v.pieceE w (w.prk.qdesc w.op.qdesc).esize idx tok (w.op.tatPiece r.tatPos).1 (w.op.tatPiece r.tatPos).2 = .ok eb x →
    w.maskedTok idx tok = false → w.op.o.windowed = false →
    out = ((vectorInstr w (w.prk.qdesc w.op.qdesc).inFmt (w.op.tatPiece r.tatPos).2 ((s.advance n).edescOf w) ab eb).out.map
      (tatOutput ((s.advance n).edescOf w) (x.actOf w ((s.advance n).edescOf w)))).flatMap OutElem.bytes →
    (vectorInstr w (w.prk.qdesc w.op.qdesc).inFmt (w.op.tatPiece r.tatPos).2 ((s.advance n).edescOf w) ab eb).out ≠ [] →
    writePages w 2 false (vaPieces (vaOf ((w.address w.op.o Level.strO idx tok).1
      + ((w.op.tatOut r.tatPos * ((s.advance n).edescOf w).outSize : Nat) : Int))) out.length) x = (.ok l, y) →
    ∃ u : State, exec (.tattingInstructionEnd n p) s = .next ((u.boundary p 2).settlePillows w.job.pillows)
      ∧ u.mem = (storePieces w 2 l out y).mem
      ∧ (∀ a, (∀ z ∈ l, a < z.1 ∨ z.1 + z.2 ≤ a) → u.byteAt a = s.byteAt a)
      ∧ (u.pillow p).run.map Run.tatPos = some (r.tatPos + 1) ∧ (u.pillow p).run.map Run.next = some (some (idx, tok))) ∧
  (∀ (n p : Nat) (r : Run) (w : Work) (idx : List Nat) (tok : Nat) (ab eb : Bytes) (v x : State) (s : State),
    s.pillowAlive p = true → (s.pillow p).run = some r → s.workOf p r = some w → w.op.kind = kTat → r.started = true →
    r.waitWin = none → r.stop = none → r.next = some (idx, tok) → w.op.arg ≤ 9 →
    readPiece w (w.prk.qdesc w.op.qdesc).esize idx tok 65 (w.op.tatPiece r.tatPos).1 (w.op.tatPiece r.tatPos).2
      (s.advance n) = .ok ab v →
    v.pieceE w (w.prk.qdesc w.op.qdesc).esize idx tok (w.op.tatPiece r.tatPos).1 (w.op.tatPiece r.tatPos).2 = .ok eb x →
    w.maskedTok idx tok = true →
    ∃ u : State, exec (.tattingInstructionEnd n p) s = .next ((u.boundary p 2).settlePillows w.job.pillows)
      ∧ u.mem = s.mem ∧ u.streams = s.streams ∧ u.templates = s.templates) ∧
  (∀ (n p i sa pa : Nat) (r : Run) (w wx : Work) (x : DmaXfer) (v y : State) (s : State), s.pillowAlive p = true →
    (s.pillow p).run = some r → s.workOf p r = some w → r.stop = none → (r.dma.drop i).head? = some x →
    s.turnOf w = some i → wx = w.ofXfer x → (r.waitWin = none ∨ (w.op.kind ≠ kDma ∧ r.op < w.prk.nOps)) →
    (s.advance n).reachRead wx wx.op.a (wx.burstEnds x).1.1 (wx.burstEnds x).1.2 = (.place sa, v) →
    v.burstTarget wx x = (.ok [pa], y) → y.poisonIn sa (s.burstLen wx x) = none → s.ms.errs = [] →
    (s.advance n).cycleWrites = [] →
    ∃ u : State, exec (.dmaBurstComplete n p { xfer := i }) s = .next ((u.boundary p 3).settlePillows (p :: w.job.pillows))
      ∧ (∀ a, u.byteAt a = if pa ≤ a ∧ a < pa + s.burstLen wx x then s.byteAt (sa + (a - pa)) else s.byteAt a)) ∧
  (∀ (n p : Nat) (r : Run) (w : Work) (b : Bytes) (j : Job) (v : State) (s : State), s.pillowAlive p = true →
    (s.pillow p).run = some r → s.workOf p r = some w → w.op.kind = kSetlen → r.started = true → r.waitWin = none →
    r.stop = none → w.op.arg < 4 →
    (s.advance n).readOpnd w 1 w.op.a (w.address w.op.a Level.strA [] 0).1 (w.address w.op.a Level.strA [] 0).2 4
      = .ok b v → v.job r.ctx = some j →
    ∃ (u : State) (k : Job), exec (.setlen n p) s = .next (u.boundary p 6) ∧ (u.pillow p).run = some w.nextOp ∧ u.job r.ctx = some k
      ∧ nth k.len w.op.arg = (if w.job.pinned then min (leNat b) (w.prk.lenMax w.op.arg) else leNat b)
      ∧ k = { j with len := k.len, clamp := k.clamp, zeroed := j.zeroed || nth k.len w.op.arg == 0 }
      ∧ (w.job.pinned = true → w.prk.lenMax w.op.arg < leNat b → k.clamp.getLsbD w.op.arg = true)
      ∧ (∀ d, d ≠ r.ctx → u.job d = v.job d) ∧ u = { v with jobs := u.jobs, pillows := u.pillows }) ∧
  (∀ (n p asid va : Nat) (r : Run) (j : Job) (g : Page) (s : State), s.pillowAlive p = true →
    (s.pillow p).run = some r → s.job r.ctx = some j → j.pinned = false → j.asid = asid → va < 2 ^ 48 →
    (∀ e ∈ (s.pillow p).tc, e.covers asid va = false) → s.pageAt asid va = some g → s.ms.poison = [] →
    ∃ t, exec (.translationWalkEnd n p asid va .clean) s = .next t
      ∧ (t.pillow p).tc.head? = some { asid := asid, va := g.va, big := g.big, locks := [], fresh := true }
      ∧ (t.pillow p).mem.ptMiss = min 0xFFFF_FFFF ((s.pillow p).mem.ptMiss + 1)
      ∧ (t.pillow p).run = some r ∧ (∀ q, q ≠ p → t.pillow q = s.pillow q)
      ∧ t = { s with now := max s.now n, pillows := t.pillows, ms := t.ms, free := t.free }) ∧
  (∀ (n p asid va : Nat) (e : Ecc) (s : State), (s.pillow p).run = none →
    exec (.translationWalkEnd n p asid va e) s = .next { s with now := max s.now n })

/-- Records (R47, R153, R253, R264, R269, R298, R300): a job whose work has ended commits its compact and full records
behind what its result queue holds, and its context is free; a RECORD that a stage has reached commits both with its
payload; where the queue takes only the compact packet it enters first and the full one waits, and with no room both
wait; the mover sends a pinned compact record of an enabled stream to the picot port's buffer, a full record to the
service ports its routing names, in its place in commit order, and a loose compact record nowhere. -/
def Obligations.Records : Prop :=
  (∀ (n p c : Nat) (j : Job) (s : State), s.alive = true → s.deadJob p = some (c, j) → s.job c = some j →
    j.pinned = false → j.figures = none → s.recordRoom p j = true → j.epochs ≠ [] → j.slotTag ≠ 0xFF →
    ∃ u : State, exec (.recordCommit n p) s = .next (u.settlePillows j.pillows)
      ∧ u.queue (3 + p) = { s.queue (3 + p) with vis := (s.queue (3 + p)).vis
          ++ [recordPacket c j (j.compactRecord j.oldestEpoch (s.slot j.slotTag).model (max s.now n) []),
              recordPacket c j (j.fullRecord c j.oldestEpoch (s.slot j.slotTag).model (max s.now n) [])] }
      ∧ (∀ q, q ≠ 3 + p → u.queue q = s.queue q) ∧ u.job c = none ∧ (∀ d, d ≠ c → u.job d = s.job d)
      ∧ u = { s with
          now := max s.now n, queues := u.queues, jobs := u.jobs, pillows := u.pillows, mgmt := u.mgmt }) ∧
  (∀ (n p : Nat) (w : Work) (j : Job) (b : Bytes) (v : State) (s : State), s.alive = true → s.deadJob p = none →
    s.recordWork p = some w → w.job.aborting = none → w.run.stop = none → (s.advance n).readPayload w = .ok b v →
    v.job w.run.ctx = some j → j.figures = none → v.recordRoom p j = true → j.epochs ≠ [] → j.slotTag ≠ 0xFF →
    j.pinned = false →
    ∃ u : State, exec (.recordCommit n p) s = .next (u.boundary p 6)
      ∧ u.queue (3 + p) = ((v.queue (3 + p)).joined (3 + p)
          (recordPacket w.run.ctx j (j.compactRecord j.oldestEpoch (v.slot j.slotTag).model (max s.now n) b))).joined (3 + p)
          (recordPacket w.run.ctx j (j.fullRecord w.run.ctx j.oldestEpoch (v.slot j.slotTag).model (max s.now n) b))
      ∧ (∀ q, q ≠ 3 + p → u.queue q = v.queue q) ∧ (u.pillow p).run = (v.pillow p).run.map (fun _ => w.nextOp)
      ∧ u.mem = v.mem ∧ u.jobs = v.jobs) ∧
  (∀ (n p c : Nat) (j : Job) (s : State), s.alive = true → s.deadJob p = some (c, j) → s.job c = some j →
    j.figures = none → s.recordRoom p j = false → s.itemRoom p 1 = true → j.epochs ≠ [] → j.slotTag ≠ 0xFF →
    ∃ t : State, exec (.recordCommit n p) s = .next t
      ∧ t.queue (3 + p) = { s.queue (3 + p) with
          vis := (s.queue (3 + p)).vis
            ++ [recordPacket c j (j.compactRecord j.oldestEpoch (s.slot j.slotTag).model (max s.now n) [])]
          fullSeen := true }
      ∧ t.job c = some { j with figures := some (j.oldestEpoch, (s.slot j.slotTag).model) }
      ∧ (∀ q, q ≠ 3 + p → t.queue q = s.queue q) ∧ (∀ d, d ≠ c → t.job d = s.job d)
      ∧ t = { s with now := max s.now n, queues := t.queues, jobs := t.jobs }) ∧
  (∀ (n p c : Nat) (j : Job) (s : State), s.alive = true → s.deadJob p = some (c, j) → s.recordRoom p j = false →
    (j.figures.isSome = true ∨ s.itemRoom p 1 = false) →
    ∃ t : State, exec (.recordCommit n p) s = .next t ∧ t.queue (3 + p) = { s.queue (3 + p) with fullSeen := true }
      ∧ (∀ q, q ≠ 3 + p → t.queue q = s.queue q) ∧ t = { s with now := max s.now n, queues := t.queues }) ∧
  (∀ (n p : Nat) (q : QPacket) (rest : List QPacket) (s : State), s.alive = true →
    selectPacket (s.queue (3 + p)).vis = some (q, rest) → q.data.length = 16 → q.prio = 0 →
    ∃ t : State, exec (.recordMove n p .clean) s = .next t
      ∧ t.queue (3 + p) = { s.queue (3 + p) with vis := rest, last := q.lastItem, ce := (t.queue (3 + p)).ce }
      ∧ (∀ m, m ≠ 3 + p → t.queue m = s.queue m) ∧ t = { s with now := max s.now n, queues := t.queues }) ∧
  (∀ (n p : Nat) (q : QPacket) (rest : List QPacket) (s : State), s.alive = true →
    selectPacket (s.queue (3 + p)).vis = some (q, rest) → q.data.length = 16 → q.prio = 1 → s.pk.en = true →
    s.pk.streams.getLsbD ((q.data.headD 0).toNat % 16) = true → s.pk.buf.length < 1024 →
    ∃ t : State, exec (.recordMove n p .clean) s = .next t ∧ t.pk = { s.pk with buf := s.pk.buf ++ [q.data] }
      ∧ t.queue (3 + p) = { s.queue (3 + p) with vis := rest, last := q.lastItem, ce := (t.queue (3 + p)).ce }
      ∧ (∀ m, m ≠ 3 + p → t.queue m = s.queue m)
      ∧ t = { s with now := max s.now n, queues := t.queues, pk := t.pk }) ∧
  (∀ (n p : Nat) (q : QPacket) (rest : List QPacket) (s : State), s.alive = true →
    selectPacket (s.queue (3 + p)).vis = some (q, rest) → q.data.length ≠ 16 → q.tag.getLsbD 22 = true →
    q.tag.getLsbD 23 = false → (s.service 0).buf.length < 4096 →
    ∃ u : State, exec (.recordMove n p .clean) s = .next (u.egress 0)
      ∧ u.service 0 = { s.service 0 with
          buf := insertRec { bytes := q.data, pinned := q.prio == 1 } (s.service 0).buf }
      ∧ u.service 1 = s.service 1
      ∧ u.queue (3 + p) = { s.queue (3 + p) with vis := rest, last := q.lastItem, ce := (u.queue (3 + p)).ce }
      ∧ u = { s with now := max s.now n, queues := u.queues, services := u.services })

/-! ## Where each form completes -/

/-- Host commands and the events of the SDIO attachment complete: under conditions on the state and the operands
alone, each of these forms answers a next state that holds its own effect. Resets (R476), register reads and writes
(R419, R420), fuse operations (R511, R512), firmware update (R447, R505) and attestation (R448), the dispatcher
(R415), PRICK_LOAD (R434), admission and withdrawal (R435, R437), loose jobs (R436, R252), the card's commands and
registers (R379 to R381, R384, R396, R400), the mailbox and the reply window (R385, R388), function 2 blocks (R393,
R394). -/
def Obligations.HostFormsComplete : Prop :=
  (∀ (h : Hdr) (s : State),
    ∃ t, exec (.devReset h 0x5445_5352) s = .next t ∧ KeptOverReset .devReset (s.advance h.t) t) ∧
  (∀ (n : Nat) (s : State), s.power.nrst = true →
    ∃ t, exec (.nrstFall n) s = .next t ∧ KeptOverReset .nrst (s.advance n) t) ∧
  (∀ (n : Nat) (s : State), s.up = true →
    ∃ t, exec (.watchdog n) s = .next t ∧ KeptOverReset .watchdog (s.advance n) t) ∧
  (∀ (n c : Nat) (s : State), s.up = true → s.therm.tripSince = some c → c + 1_000_000 ≤ max s.now n →
    ∃ t, exec (.thermalTrip n) s = .next t ∧ KeptOverReset .thermal (s.advance n) t) ∧
  (∀ (h : Hdr) (addr : BitVec 32) (n : Nat) (s : State), s.accepts Op.regRead (addr.toNat / 2 ^ 16 == 8) = true →
    regParams addr n = none → s.regGated addr = none →
    (s.readRegs (addr.toNat / 2 ^ 16) (addr.toNat % 4096) n).1.length = 4 * n
      ∧ Answers (.regRead h addr n) h Op.regRead (fun s => (s.readRegs (addr.toNat / 2 ^ 16) (addr.toNat % 4096) n).1)
        (fun s => (s.readRegs (addr.toNat / 2 ^ 16) (addr.toNat % 4096) n).2) s) ∧
  (∀ (h : Hdr) (v : BitVec 32) (s : State), s.accepts Op.regWrite false = true →
    Answers (.regWrite h 0x1000C [v]) h Op.regWrite (fun _ => []) (fun s => { s with
           sec := { s.sec with armed := false },
           tb := { s.tb with
               encIllegal := s.tb.encIllegal && !v.getLsbD 4, sheetOld := s.tb.sheetOld && !v.getLsbD 5,
               overspeedSeen := s.tb.overspeedSeen && !v.getLsbD 6 } }) s) ∧
  (∀ (h : Hdr) (s : State), s.accepts Op.regRead false = true →
    Answers (.tbWpLoRead h) h Op.regRead (fun s => leBytes 4 (s.tb.snap.wp % 2 ^ 32))
        (fun s => { s with tb := { s.tb with frozen := some (s.tb.frozen.getD s.tb.snap) } }) s) ∧
  (∀ (h : Hdr) (s : State), s.accepts Op.regRead false = true →
    Answers (.pkPick0Read h) h Op.regRead (fun s => leBytes 4 (numAt 0 4 s.pk.pick)) (fun s =>
         { s with
           pk := { s.pk with pickFrozen := some (s.pk.pickFrozen.getD (s.pk.pick, s.pk.pickWp, s.pk.pickFr)) } }) s) ∧
  (∀ (h : Hdr) (key : BitVec 32) (s : State), s.accepts Op.regWrite true = true →
    Answers (.secArm h key) h Op.regWrite (fun _ => [])
        (fun s => { s with sec := { s.sec with armed := decide (key = 0x4C4F_434B) } }) s) ∧
  (∀ (h : Hdr) (s : State), s.accepts Op.regWrite true = true → s.sec.armed = true → s.sec.lock = 1 → s.mgmt.devState
    ≠ 0 → s.mgmt.devState ≠ 5 →
    ∃ t, exec (.secOpSeal h) s = .next t ∧ t.sec = { s.sec with armed := false, lock := 2 }) ∧
  (∀ (h : Hdr) (mask : BitVec 8) (s : State), s.accepts Op.regWrite true = true → s.sec.armed = true → s.mgmt.devState
    ≠ 0 → s.mgmt.devState ≠ 5 →
    ∃ t, exec (.secOpRevoke h mask) s = .next t ∧ t.sec = { s.sec with armed := false, revBn := s.sec.revBn ||| mask }) ∧
  (∀ (h : Hdr) (length : Nat) (s : State), s.accepts Op.fwUpdate false = true →
    (s.mgmt.devState = 0 ∨ bitsOf 3 2 s.power.straps.toNat = 1 ∨ bitsOf 3 2 s.power.straps.toNat = 2) → s.bulk.xfer =
    none → s.sec.upd ≠ 3 → s.sec.upd ≠ 4 →
    Answers (.fwUpdateOpen h length) h Op.fwUpdate (fun _ => []) (fun s => { s with
           bulk := { s.bulk with
               image := none,
               xfer := some
                 { kind := 5, handle := 0, index := 0, opcode := Op.fwUpdate, hdr := h, total := some length } },
           sec := { s.sec with upd := 1, updImage := none } }) s) ∧
  (∀ (h : Hdr) (sigOk : Bool) (x : FwImage) (b : Xfer) (s : State), s.accepts Op.fwUpdate false = true → s.bulk.image
    = some b → x = fwImageOf sigOk (b.buf.take (b.total.getD 0)) → s.imageFails x = none →
    Answers (.fwUpdateClose h sigOk) h Op.fwUpdate (fun _ => []) (fun s => { s with
           bulk := { s.bulk with image := none },
           sec := { s.sec with upd := if s.mgmt.devState = 0 then 2 else 3, updImage := some x } }) s) ∧
  (∀ (h : Hdr) (s : State), s.accepts Op.fwUpdate false = true → s.bulk.xfer = none → s.bulk.image = none → s.sec.upd
    = 2 →
    Answers (.fwUpdateDiscard h) h Op.fwUpdate (fun _ => [])
        (fun s => { s with sec := { s.sec with upd := 0, updImage := none } }) s) ∧
  (∀ (n : Nat) (s : State), s.up = true → (s.sec.upd = 3 ∨ s.sec.upd = 4) →
    exec (.flashWriteStageEnd n true) s = .next
        { s with now := max s.now n, sec := { s.sec with upd := s.sec.upd + 1 } }) ∧
  (∀ (h : Hdr) (nonce : Bytes) (s : State), s.accepts Op.attest false = true → nonce.length = 32 →
    ∃ t, exec (.attestForm h nonce) s = .next t ∧ Replied h Op.attest Status.ok (leBytes 4 18368) s t
      ∧ t.sec.quote.take 1280 = (s.advance h.t).quoteBody nonce ∧ t.sec.quote.length = 18368) ∧
  (∀ (h : Hdr) (offset : Nat) (s : State), s.accepts Op.attest false = true → s.sec.quote ≠ [] → offset < 0x1_0000 →
    Answers (.attestRead h offset) h Op.attest (fun s => (s.sec.quote.drop offset).take 480) id s) ∧
  (∀ (n : Nat) (p : QPacket) (rest : List QPacket) (s : State), s.up = true → s.mgmt.fwStarted = false → s.mgmt.held =
    [] → selectPacket (s.queue 0).vis = some (p, rest) → (bitOf 3 (numAt 1 1 p.data) = false ∨ s.inHand = false) →
    checkPacket p.data = none → s.goesFast p.data = true →
    ∃ t, exec (.dispatch n .clean) s = .next t ∧ (t.queue 0).vis = rest
      ∧ t.mgmt = { s.mgmt with fast := s.mgmt.fast ++ [{ prio := p.prio, tag := p.tag, data := p.data }] }) ∧
  (∀ (h : Hdr) (k n : Nat) (s : State), s.accepts Op.prickLoad false = true → k ≤ 255 → 128 ≤ n → n ≤ 393216 → s.prick
    k = none → s.storeUsed + n ≤ 0x200_0000 → (s.stored.filter fun x => !x.2.loaded).length < 4 →
    Answers (.prickLoadOpen h k n) h Op.prickLoad (fun _ => [])
        (fun s => s.setPrick k (some { loaded := false, size := n, bytes := [] })) s) ∧
  (∀ (h : Hdr) (k o : Nat) (b : Bytes) (x : Prick) (s : State), s.accepts Op.prickLoad false = true → k ≤ 255 → o % 16
    = 0 → s.prick k = some x → x.loaded = false → o + b.length ≤ x.size →
    ∃ y, (∀ i, tget (fun _ => none) y.bytes i = if o ≤ i ∧ i < o + b.length then b[i - o]? else tget (fun _ => none)
         x.bytes i) ∧ y = { x with bytes := y.bytes }
      ∧ Answers (.prickLoadData h k o b) h Op.prickLoad (fun _ => []) (fun s => s.setPrick k (some y)) s) ∧
  (∀ (h : Hdr) (k : Nat) (x : Prick) (s : State), s.accepts Op.prickLoad false = true → k ≤ 255 → s.prick k = some x →
    x.loaded = false → x.verify = none →
    Answers (.prickLoadClose h k) h Op.prickLoad (fun _ => [])
        (fun s => s.setPrick k (some { x with loaded := true })) s) ∧
  (∀ (h : Hdr) (k : Nat) (x : Prick) (s : State), s.accepts Op.prickLoad false = true → k ≤ 255 → s.prick k = some x →
    s.prickUser k = none →
    Answers (.prickLoadDiscard h k) h Op.prickLoad (fun _ => []) (fun s => s.setPrick k none) s) ∧
  (∀ (h : Hdr) (a : AdmitParams) (s : State), s.accepts Op.jobAdmit false = true → admitParams a = none →
    (s.advance h.t).admitCheck a = none → (a.looseOk = true ∨ ∀ q, q ∈ a.mapA ++ a.mapB → (s.pillow q).run = none ∧
     (s.pillow q).standby = none ∧ (s.pillow q).saving = none ∧ (s.pillow q).restoring = none ∧ (s.pillow q).readyQ =
     []) →
    ∃ (t : State) (x : Template), exec (.jobAdmit h a) s = .next t ∧ Replied h Op.jobAdmit Status.ok x.reply s t
      ∧ t.template a.template = some x ∧ x.p = a ∧ x.accepted = true) ∧
  (∀ (n k : Nat) (x : Template) (h : Hdr) (s : State), s.alive = true → s.template k = some x → x.accepted = false →
    x.hdr = some h → s.acceptWaits x.p = false →
    ∃ t : State, exec (.jobAdmitAccept n k) s = .next t ∧ Replied h Op.jobAdmit Status.ok x.reply s t
      ∧ t.template k = some { x with accepted := true, hdr := none, nextRow := s.rowStart x (s.tb.hwm + 1) }) ∧
  (∀ (h : Hdr) (k : Nat) (x : Template) (s : State), s.accepts Op.jobAbort false = true → s.template k = some x →
    x.accepted = true → x.withdrawn = false →
    Accepts (.jobAbortTemplate h k) h (fun s => s.setTemplate k (some { x with withdrawn := true, hdr := some h })) s) ∧
  (∀ (n k : Nat) (x : Template) (h : Hdr) (s : State), s.alive = true → Quiet s → s.template k = some x → x.withdrawn
    = true → x.hdr = some h → (∀ y ∈ s.liveJobs, y.2.pinned = true → y.2.template ≠ k) →
    ∃ t : State, exec (.templateWithdrawn n k) s = .next t ∧ Replied h Op.jobAbort Status.ok [] s t
      ∧ t.template k = none) ∧
  (∀ (h : Hdr) (x : SubmitParams) (c : Nat) (l : List Nat) (s : State), s.accepts Op.jobSubmit false = true →
    submitParams x [] = none → (s.advance h.t).submitCheck Op.jobSubmit x = none → s.freeCtxs 1 = c :: l →
    ∃ (u : State) (j : Job), exec (.jobSubmit h x) s = .next ((u.startLoose c).done h Op.jobSubmit 0 (leBytes 2 c))
      ∧ u.job c = some j
      ∧ (j.prk = x.prk ∧ j.asid = x.asid ∧ j.len = x.len ∧ j.map = x.map ∧ j.seed = x.seed ∧ j.recTag = x.recTag ∧
         j.port = x.port ∧ j.tRel = max s.now h.t ∧ j.sheet = s.sheets.sheet ∧ j.order = s.order)) ∧
  (∀ (h : Hdr) (x : SubmitParams) (cap mode c : Nat) (l : List Nat) (s : State), s.accepts Op.partialCapture false =
    true → submitParams x [] = none → cap < 2 ^ 48 → (mode = 1 ∨ mode = 2) → (s.advance h.t).submitCheck
    Op.partialCapture x = none → (s.advance h.t).replayCheck x cap mode = none → s.freeCtxs 1 = c :: l →
    ∃ (u : State) (j : Job), exec (.partialCapture h x cap mode) s = .next
        ((u.startLoose c).done h Op.partialCapture 0 (leBytes 2 c)) ∧ u.job c = some j
      ∧ (j.pinned = false ∧ j.capBuf = cap ∧ j.capMode = mode ∧ j.prk = x.prk ∧ j.len = x.len ∧ j.map = x.map ∧
         j.order = s.order ∧ (mode = 1 → j.seed = x.seed))) ∧
  (∀ (h : Hdr) (c : Nat) (j : Job) (s : State), s.accepts Op.jobAbort false = true → s.job c = some j → j.pinned =
    false → j.aborting = none → j.dead = false → s.suspendedJob c = false → (∀ e ∈ s.pillows,
     (∀ r, e.2.run = some r → r.ctx ≠ c) ∧ (∀ v, e.2.saving = some v → v.run.ctx ≠ c) ∧
     (∀ v, e.2.restoring = some v → v.run.ctx ≠ c)) → (∀ q ∈ j.pillows, (s.pillow q).run = none ∧ (s.pillow q).standby
     = none ∧ (s.pillow q).readyQ = [] ∧ ∀ e ∈ (s.pillow q).looseQ, e.1 = c) →
    ∃ t : State, exec (.jobAbortLoose h c) s = .next t ∧ Replied h Op.jobAbort Status.ok [] s t ∧ t.job c = none) ∧
  (∀ (n c p : Nat) (v : Saved) (j : Job) (s : State), s.alive = true → p < 48 → v ∈ (s.pillow p).saves → v.suspended =
    true → v.run.ctx = c → v.since + s.ms.faultWait * 1_000_000 ≤ max s.now n → (∀ q, q < p → (s.pillow q).saves = [])
    → s.job c = some j → j.aborting = none → j.result ≠ Status.dataPoisoned →
    ∃ u : State, exec (.faultWaitExpiry n c) s = .next (u.settlePillows j.pillows)
      ∧ u.job c = some { j.ended with result := Status.mapFault }) ∧
  (∀ (n : Nat) (s : State), (s.advance n).sdServes = true → s.sdio.card ≠ .inactive →
    exec (.cmd0 n) s = .next
        { s with now := max s.now n, sdio := { s.sdio with card := .idle, rca := 0, resp := .silent } }) ∧
  (∀ (n : Nat) (s : State), (s.advance n).sdServes = true → (s.sdio.card = .idle ∨ s.sdio.card = .initialised) →
    s.mgmt.resetAt + 5_000_000 ≤ max s.now n →
    exec (.cmd5 n) s = .next
        { s with now := max s.now n, sdio := { s.sdio with card := .initialised, resp := .cmd5 true 2 false s.sd18 } }) ∧
  (∀ (n : Nat) (s : State), (s.advance n).sdServes = true → (s.sdio.card = .initialised ∨ s.sdio.card = .standby) →
    ∃ r, r ≠ 0
      ∧ exec (.cmd3 n) s = .next { s with
          now := max s.now n, free := s.free + 1,
          sdio := { s.sdio with card := .standby, rca := r, resp := .address r } }) ∧
  (∀ (n : Nat) (s : State), (s.advance n).sdServes = true → s.sdio.card = .standby →
    exec (.cmd7 n true) s = .next
        { s with now := max s.now n, sdio := { s.sdio with card := .selected, resp := .ack } }) ∧
  (∀ (n : Nat) (s : State), (s.advance n).sdServes = true → s.sd18 = true → s.sdio.card = .initialised →
    exec (.cmd11 n) s = .next { s with now := max s.now n, sdio := { s.sdio with uhs := true, resp := .ack } }) ∧
  (∀ (n : Nat) (s : State), (s.advance n).sdServes = true → (s.sdio.card = .standby ∨ s.sdio.card = .selected) →
    exec (.cmd15 n) s = .next
        { s with now := max s.now n, sdio := { s.sdio with card := .inactive, resp := .silent } }) ∧
  (∀ (n : Nat) (s : State), (s.advance n).sdSelected = true → s.sdio.uhs = true →
    exec (.cmd19 n) s = .next { s with now := max s.now n, sdio := { s.sdio with tuned := true, resp := .ack } }) ∧
  (∀ (n : Nat) (v : Byte) (s : State), (s.advance n).sdSelected = true →
    exec (.cccrWrite n 0x02 v) s = .next { s with
          now := max s.now n,
          sdio := { s.sdio with resp := .r5 false, ioEnable := v &&& 0b110, ioReady := v &&& 0b110 } }) ∧
  (∀ (n : Nat) (v : Byte) (s : State), (s.advance n).sdFunction 1 = true →
    exec (.transportByteWrite n 1 0x1001 v) s = .next
        { s with now := max s.now n, sdio := { s.sdio with resp := .r5 false, f1IntEn := v &&& 0b111 } }) ∧
  (∀ (n : Nat) (s : State), (s.advance n).sdFunction 1 = true →
    exec (.transportByteRead n 1 0x100A) s = .next { s with
          now := max s.now n,
          sdio := { s.sdio with crcCnt := 0, resp := .r5 false, readOut := [BitVec.ofNat 8 s.sdio.crcCnt] } }) ∧
  (∀ (n : Nat) (inCmd : Bool) (s : State), (s.advance n).sdSelected = true →
    exec (.ioAbort n 1 inCmd) s = .next
        { s with now := max s.now n, sdio := { s.sdio with mbxBusy := false, mbxNext := none } }) ∧
  (∀ (n : Nat) (x : Xfer) (s : State), (s.advance n).sdServes = true → s.bulk.xfer = some x →
    (x.kind = 3 ∨ x.kind = 4) →
    ∃ t, exec (.ioReset n) s = .next t
      ∧ t.bulk = { aborted := true, arrived := s.bulk.arrived, image := s.bulk.image }
      ∧ t.sdio = { noteLost := s.sdio.noteLost, crcCnt := s.sdio.crcCnt, mailbox := s.sdio.mailbox,
                   notes := s.sdio.notes, uhs := s.sdio.uhs }) ∧
  (∀ (n : Nat) (d : Bytes) (s : State), (s.advance n).sdFunction 1 = true → 1 ≤ d.length → d.length ≤ 512 →
    s.sdio.mailbox = none → (s.queue 0).wpart = none → (s.queue 0).fits 0 (mailboxPacket d).items = true →
    ∃ t, exec (.mailboxWrite n d true) s = .next t
      ∧ (t.queue 0).vis = (s.queue 0).vis ++
        [{ prio := bitsOf 0 3 (numAt 1 1 d), writer := 0, tag := BitVec.ofNat 32 (numAt 4 4 d), data := d }]) ∧
  (∀ (n : Nat) (p : QPacket) (s : State), s.sdio.mailbox = some p → s.sdio.mbxNext = none → (s.queue 0).wpart = none →
    (s.queue 0).fits 0 p.items = true →
    ∃ t, exec (.mailboxPacketEnter n) s = .next t ∧ t.sdio.mailbox = none
      ∧ t.queue 0 = { s.queue 0 with vis := (s.queue 0).vis ++ [p] }) ∧
  (∀ (n k : Nat) (p : QPacket) (rest : List QPacket) (s : State), (s.advance n).sdFunction 1 = true → 1 ≤ k → k ≤ 512
    → (s.queue 1).part = none → selectPacket (s.queue 1).vis = some (p, rest) → p.data.length ≤ k →
    ∃ t, exec (.replyWindowRead n k .clean) s = .next t
      ∧ t.sdio.readOut = p.data ++ List.replicate (k - p.data.length) 0 ∧ (t.queue 1).vis = rest) ∧
  (∀ (n : Nat) (d : Bytes) (x : Xfer) (s : State), (s.advance n).sdFunction 2 = true → d.length = 2048 → s.bulk.xfer =
    some x → (x.kind = 1 ∨ x.kind = 3 ∨ x.kind = 5) → x.full = false → (x.kind = 1 ∨ (x.take d).full = false) →
    exec (.f2BlockWrite n d true) s = .next { s with
          now := max s.now n, bulk := { s.bulk with xfer := some (x.take d) },
          sdio := { s.sdio with card := .selected, resp := .crcStatus true } }) ∧
  (∀ (n : Nat) (x : Xfer) (s : State), (s.advance n).sdFunction 2 = true → s.bulk.xfer = some x → x.kind = 4 → x.ready
    = true →
    exec (.f2BlockRead n) s = .next { s with
          now := max s.now n,
          bulk := { s.bulk with
              readOut := sliceBytes (2048 * x.taken) 2048 x.buf,
              closed := s.bulk.closed || ({ x with taken := x.taken + 1 } : Xfer).full,
              xfer := if ({ x with taken := x.taken + 1 } : Xfer).full then none else some
                { x with taken := x.taken + 1 } } })

/-- Events complete: under conditions on the state and the operands alone, each of these forms answers a next state
that holds its own effect. Ends of resets and the boot (R475, R478), the TAP (R508 to R510), the encoder and the pins
(R13, R24, R465, R466), the stages of jobs with their saves and waits (R38, R178, R248), the crossbar path (R89, R117,
R133), the tatting unit, DMA, SETLEN and translation (R192, R177, R169, R239), records (R269), frames on the ports
(R286, R292, R294, R303), calibration in service (R351 to R357) and programming (R78, R333). Facts before a settling
of the pillows or a boundary are stated of the state that the event leaves before its pillows go on. -/
def Obligations.EventFormsComplete : Prop :=
  (∀ (n : Nat) (s : State), s.power.nrst = false →
    exec (.nrstRise n) s = .next { s with
          now := max s.now n, power := { s.power with nrst := true, pwrgd := true },
          mgmt := { s.mgmt with reset := none, resetAt := max s.now n }, ms := { s.ms with scrubAt := max s.now n } }) ∧
  (∀ (n : Nat) (s : State), (s.mgmt.reset = some .devReset ∧ s.mgmt.resetAt + 10_000 ≤ max s.now n ∨ s.mgmt.reset =
     some .watchdog ∧ s.mgmt.resetAt + 20_000 ≤ max s.now n) →
    exec (.internalResetEnd n) s = .next { s with
          now := max s.now n, mgmt := { s.mgmt with reset := none, resetAt := max s.now n },
          ms := { s.ms with scrubAt := max s.now n } }) ∧
  (∀ (n : Nat) (s : State), s.mgmt.reset = some .thermal →
    exec (.thermalTripEnd n) s = .next { s with
          now := max s.now n, mgmt := { s.mgmt with reset := none, resetAt := max s.now n },
          ms := { s.ms with scrubAt := max s.now n } }) ∧
  (∀ (n : Nat) (pkd : BitVec 8) (s : State), s.up = true → s.power.latched = false → s.mgmt.resetAt + 10_000 ≤ max
    s.now n →
    exec (.strapLatch n pkd) s = .next
        { s with now := max s.now n, power := { s.power with straps := pkd, latched := true } }) ∧
  (∀ (n : Nat) (s : State), s.up = true → s.mgmt.devState = 0 → s.mgmt.pllLocked = false →
    ∃ t, exec (.pllLock n true) s = .next t ∧ t.mgmt = { s.mgmt with pllLocked := true, romMarchOk := true }
      ∧ (∀ a, t.fwByte a = 0x55)) ∧
  (∀ (n : Nat) (flash : FlashRead) (x : FwImage) (s : State), s.up = true → s.mgmt.devState = 0 → s.mgmt.romMarchOk =
    true → s.mgmt.fwStarted = false → s.sec.updImage = some x →
    ∃ t, exec (.firmwareLoadEnd n flash) s = .next t ∧ t.mgmt = { s.mgmt with fwStarted := true }
      ∧ t.power.bootFrom = 3 ∧ t.sec.fwVer = x.fwVer) ∧
  (∀ (n : Nat) (s : State), s.up = true → s.mgmt.devState = 0 → s.mgmt.fwStarted = true →
    ∃ t, exec (.firmwareInitEnd n) s = .next t ∧ t.mgmt = { s.mgmt with devState := 1 } ∧ (∀ a, t.byteAt a = 0)) ∧
  (∀ (n : Nat) (i : TapIns) (s : State), s.tapActs i = true →
    exec (.tapInstruction n i) s = .next
        { s with now := max s.now n, sec := { s.sec with tapIns := i, scanPins := s.sec.scanPins || tapTakesPins i } }) ∧
  (∀ (n : Nat) (s : State),
    exec (.tapReset n) s = .next { s with now := max s.now n, sec := { s.sec with tapIns := .idcode } }) ∧
  (∀ (n : Nat) (device : BitVec 64) (challenge : BitVec 256) (key : Nat) (sigOk : Bool) (s : State), s.up = true →
    s.sec.lock ≠ 0 →
    ∃ t, exec (.debugToken n device challenge key sigOk) s = .next t
      ∧ t.sec = { s.sec with
          challenge := s.sec.challenge + 1,
          debug := s.sec.debug || (s.sec.lock == 1 && device == s.sec.device && challenge == Config.challenge
             s.sec.challenge && decide (key < 4) && sigOk) }) ∧
  (∀ (n : Nat) (a b : Bool) (s : State), s.up = true → s.tb.encEn = true → s.tb.los = 0 →
    (s.tb.encA = a ↔ ¬ s.tb.encB = b) → (aLeads s.tb.encA s.tb.encB a b != s.tb.dirInv) = true → s.tb.num ≤ s.tb.acc +
    s.tb.den → s.tb.wp + 1 ≤ s.tb.hwm →
    exec (.encoderCount n a b) s = .next { s with
          now := max s.now n,
          tb := { s.tb with encA := a, encB := b, acc := s.tb.acc + s.tb.den - s.tb.num, wp := s.tb.wp + 1 } }) ∧
  (∀ (n : Nat) (pairs : BitVec 3) (s : State), s.up = true → s.tb.los = 0 → pairs ≠ 0 →
    ∃ t, exec (.encoderLoss n pairs) s = .next t ∧ t.tb = { s.tb with los := pairs } ∧ (t.latch 12).held = true) ∧
  (∀ (n : Nat) (s : State), s.up = true →
    exec (.encoderLossEnd n) s = .next { s with now := max s.now n, tb := { s.tb with los := 0 } }) ∧
  (∀ (n : Nat) (s : State), s.up = true → s.tb.stall = false → max s.mgmt.resetAt s.tb.stallBase + 1_000_000 ≤ max
    s.now n →
    ∃ t, exec (.stall n) s = .next t ∧ t.tb = { s.tb with stall := true }) ∧
  (∀ (n : Nat) (s : State), s.up = true → s.tb.encEn = true → s.tb.los = 0 → s.tb.sheetSrc = 2 →
    exec (.indexPulse n) s = .next { s with now := max s.now n, sheets := { s.sheets with indexPend := true } }) ∧
  (∀ (n k : Nat) (s : State), s.alive = true → (s.pin k).role = 2 → (s.pin k).level = false →
    ∃ t, exec (.threadTriggerEdge n k true) s = .next t
      ∧ t.pin k = { s.pin k with level := true, edgeWp := ofSigned 32 s.tb.wp }) ∧
  (∀ (n k e : Nat) (s : State), s.alive = true → (s.pin k).pulse = some e → e ≤ max s.now n →
    ∃ t, exec (.pulseEnd n k) s = .next t ∧ (t.pin k).pulse = none ∧ (t.pin k).level = (s.pin k).pol) ∧
  (∀ (n p c k : Nat) (j : Job) (s : State), s.alive = true → s.job c = some j → j.pinned = true → j.dead = false →
    (j.stage k).phase = .waiting → (j.stage k).pillow = p → (j.stage k).readyAt ≤ max s.now n →
    ∃ u : State, exec (.stageReady n p c k) s = .next (u.settlePillows [p]) ∧ u.job c = some (j.setPhase k .ready)
      ∧ (c, k) ∈ (u.pillow p).readyQ ∧ u.pillow p = { s.pillow p with readyQ := (u.pillow p).readyQ }) ∧
  (∀ (n p : Nat) (v : Saved) (w : Work) (s : State), s.alive = true → (s.pillow p).saving = some v → s.workOf p v.run
    = some w →
    ∃ u : State, exec (.saveComplete n p) s = .next ((u.abortAsked v.run.ctx).settlePillows [p])
      ∧ u.pillow p = { s.pillow p with saving := none, mem := (u.pillow p).mem }
      ∧ u.mem = ((s.advance n).writeImage (slotAddr p v.slot) (w.saveImage v.suspended)).mem) ∧
  (∀ (n p : Nat) (v : Saved) (j : Job) (s : State), s.alive = true → (s.pillow p).restoring = some v →
    (∀ w, s.workOf p v.run = some w → ∀ x ∈ w.saveImage v.suspended, s.poisonIn (slotAddr p v.slot + x.1) x.2.length =
     none) → s.ms.errs = [] → s.job v.run.ctx = some j → j.aborting = none → j.pinned = false → (s.pillow p).run =
    none → (s.pillow p).standby = none → (s.pillow p).readyQ = [] → (s.pillow p).looseEn = true → s.therm.step < 2 →
    ∃ u : State, exec (.restoreComplete n p .clean) s = .next (u.settlePillows [p])
      ∧ u.pillow p = { s.pillow p with run := some v.run, restoring := none, mem := (u.pillow p).mem }
      ∧ u.job v.run.ctx = some (j.setPhase v.run.stage .running)) ∧
  (∀ (n p : Nat) (r : Run) (w : Work) (s : State), s.alive = true → (s.advance n).settlePillows [p] = s.advance n →
    (s.pillow p).run = some r → s.workOf p r = some w → r.waitFence = true → r.stop = none → w.op.count ≤ w.job.fence
    (fenceKey p w.op.fence) →
    ∃ u : State, exec (.fenceWaitEnd n p) s = .next (u.boundary p 6) ∧ (u.pillow p).run = some w.nextOp
      ∧ (∃ f, u.job r.ctx = some { w.job with fences := f } ∧ ∀ k, tget (fun _ => 0) f k = if k = fenceKey p
         w.op.fence then w.job.fence k - w.op.count else w.job.fence k)) ∧
  (∀ (n p : Nat) (r : Run) (x : Nat × Int × Bool) (j : Job) (s : State), s.alive = true → (s.advance n).settlePillows
    [p] = s.advance n → (s.pillow p).run = some r → r.waitWin = some x → s.job r.ctx = some j → s.lineReady p j x =
    true →
    ∃ u : State, exec (.windowWaitEnd n p) s = .next (u.settlePillows [p])
      ∧ u.pillow p = { s.pillow p with
          run := some { r with waitWin := none },
          cnt := { (s.pillow p).cnt with
              sqWinWait := satAdd 0xFFFF_FFFF (s.pillow p).cnt.sqWinWait (max s.now n - r.waitSince) } }) ∧
  (∀ (n p : Nat) (r : Run) (w : Work) (pos : List Nat × Nat) (b : Bytes) (v : State) (s : State), s.pillowAlive p =
    true → (s.pillow p).run = some r → s.workOf p r = some w → r.next = some pos → w.op.kind = kXbar → r.started =
    true → r.waitWin = none → r.stop = none → r.hasRoom pos = true → w.badTile pos.1 = none → (s.advance n).readToken
    w 0 (w.prk.qdesc w.op.qdesc).esize pos.1 pos.2 (w.kOf pos.1) = .ok b v →
    ∃ (u : State) (t : StagedTok), exec (.tokenConditioned n p) s = .next ((u.finishHead p).boundary p 0)
      ∧ (t.idx = pos.1 ∧ t.tok = pos.2 ∧ t.k = w.kOf pos.1 ∧ t.half = r.halfFor pos.2 ∧ t.masked = w.maskedTok pos.1
         pos.2) ∧ (u.pillow p).run.map Run.staged = (v.pillow p).run.map (fun x => x.staged ++ [t])) ∧
  (∀ (n p : Nat) (r : Run) (w : Work) (k : StagedTok) (rest : List StagedTok) (d : Drive) (b : Nat) (o : PassOut)
    (x : Bobbin) (e : Nat) (s : State), s.pillowAlive p = true → (s.pillow p).run = some r → s.workOf p r = some w →
    w.op.kind = kXbar → r.stop = none → r.staged = k :: rest → k.degen = none → w.job.capMode ≠ 2 → w.drives k.idx =
    [d] → (∀ q, (s.bobbin p q).stageErrs = []) → d.wave = r.wave → (w.prk.qdesc w.op.qdesc).a4 = false → d.tile.a4 =
    false → r.low = false → r.attempt = 0 → (s.advance n).stagePoisoned w k (waveCount [d]) [d] = false →
    (s.advance n).canPass p d.tile w.job.sheet = true → b = (s.advance n).routeOf p d.tile.logical w.job.sheet →
    (s.bobbin p b).state ≠ 3 → (s.bobbin p b).work s.trim w.job.sheet
    (nibbles false false ((s.bobbin p b).staged (stageAt k.half (k.tok * waveCount [d] + d.wave)) d.rows))
    (min 3 d.tile.rangeH) (min 3 d.tile.rangeL) [] = (e, o, x) → x.passFails = false →
    ∃ u : State, exec (.passComplete n p []) s = .next ((u.finishHead p).boundary p 5)
      ∧ (o.sat = false → (u.pillow p).run = some
         { r with low := true, rep := [], hi := tset (fun _ => []) d.tile.logical o.ps r.hi }) ∧ u.bobbin p b = x) ∧
  (∀ (n p : Nat) (r : Run) (w : Work) (v : EpiVec) (rest : List EpiVec) (sp : List (Nat × Bytes))
    (l : List (Nat × Nat)) (y : State) (s : State), s.pillowAlive p = true → (s.pillow p).run = some r → s.workOf p r
    = some w → w.op.kind = kXbar → r.stop = none → r.epi = v :: rest → s.spillsReady w v = true → v.caps = none →
    v.masked = false → w.op.parts = 1 → ((s.advance n).edescOf w).spill = true → ((s.advance n).edescOf w).narrow =
    false → v.vals ≠ [] → v.vals.length = (w.columns v.idx).length → (∀ c ∈ w.columns v.idx, w.live v c = true) →
    w.op.o.windowed = false → sp = spansOf
    (((w.columns v.idx).zip v.vals).map fun x => (x.1, leBytes 8 (ofSigned 64 x.2))) → writePages w 1 false
    (sp.flatMap fun x => vaPieces (vaOf ((w.address w.op.o Level.strO v.idx v.tok).1 + ((x.1 * 8 : Nat) : Int)))
     x.2.length) (s.advance n) = (.ok l, y) →
    ∃ u : State, exec (.epilogueWriteEnd n p) s = .next
        ((((u.finishHead p).xbarEnd p).boundary p 1).settlePillows w.job.pillows)
      ∧ u.mem = (storePieces w 1 l (sp.flatMap Prod.snd) y).mem ∧ (u.pillow p).run = some { r with epi := rest }) ∧
  (∀ (n p : Nat) (r : Run) (w : Work) (idx : List Nat) (tok : Nat) (ab eb out : Bytes) (l : List (Nat × Nat))
    (v x y : State) (s : State), s.pillowAlive p = true → (s.pillow p).run = some r → s.workOf p r = some w →
    w.op.kind = kTat → r.started = true → r.waitWin = none → r.stop = none → r.next = some (idx, tok) → w.op.arg ≤ 3 →
    r.tatPos + 1 < w.op.tatPieces → readPiece w (w.prk.qdesc w.op.qdesc).esize idx tok 65 (w.op.tatPiece r.tatPos).1
    (w.op.tatPiece r.tatPos).2 (s.advance n) = .ok ab v → v.pieceE w (w.prk.qdesc w.op.qdesc).esize idx tok
    (w.op.tatPiece r.tatPos).1 (w.op.tatPiece r.tatPos).2 = .ok eb x → w.maskedTok idx tok = false → w.op.o.windowed =
    false → out = ((vectorInstr w (w.prk.qdesc w.op.qdesc).inFmt (w.op.tatPiece r.tatPos).2 ((s.advance n).edescOf w)
      ab eb).out.map (tatOutput ((s.advance n).edescOf w) (x.actOf w ((s.advance n).edescOf w)))).flatMap
    OutElem.bytes →
    (vectorInstr w (w.prk.qdesc w.op.qdesc).inFmt (w.op.tatPiece r.tatPos).2 ((s.advance n).edescOf w) ab eb).out ≠ []
    → writePages w 2 false (vaPieces (vaOf ((w.address w.op.o Level.strO idx tok).1 +
       ((w.op.tatOut r.tatPos * ((s.advance n).edescOf w).outSize : Nat) : Int))) out.length) x = (.ok l, y) →
    ∃ u : State, exec (.tattingInstructionEnd n p) s = .next ((u.boundary p 2).settlePillows w.job.pillows)
      ∧ u.mem = (storePieces w 2 l out y).mem ∧ (u.pillow p).run.map Run.tatPos = some (r.tatPos + 1)) ∧
  (∀ (n p i sa pa : Nat) (r : Run) (w wx : Work) (x : DmaXfer) (v y : State) (s : State), s.pillowAlive p = true →
    (s.pillow p).run = some r → s.workOf p r = some w → r.stop = none → (r.dma.drop i).head? = some x → s.turnOf w =
    some i → wx = w.ofXfer x → (r.waitWin = none ∨ (w.op.kind ≠ kDma ∧ r.op < w.prk.nOps)) → (s.advance n).reachRead
    wx wx.op.a (wx.burstEnds x).1.1 (wx.burstEnds x).1.2 = (.place sa, v) → v.burstTarget wx x = (.ok [pa], y) →
    y.poisonIn sa (s.burstLen wx x) = none → s.ms.errs = [] → (s.advance n).cycleWrites = [] →
    ∃ u : State, exec (.dmaBurstComplete n p { xfer := i }) s = .next
        ((u.boundary p 3).settlePillows (p :: w.job.pillows))
      ∧ (∀ a, u.byteAt a = if pa ≤ a ∧ a < pa + s.burstLen wx x then s.byteAt (sa + (a - pa)) else s.byteAt a)) ∧
  (∀ (n p : Nat) (r : Run) (w : Work) (b : Bytes) (j : Job) (v : State) (s : State), s.pillowAlive p = true →
    (s.pillow p).run = some r → s.workOf p r = some w → w.op.kind = kSetlen → r.started = true → r.waitWin = none →
    r.stop = none → w.op.arg < 4 → (s.advance n).readOpnd w 1 w.op.a (w.address w.op.a Level.strA [] 0).1
    (w.address w.op.a Level.strA [] 0).2 4 = .ok b v → v.job r.ctx = some j →
    ∃ (u : State) (k : Job), exec (.setlen n p) s = .next (u.boundary p 6) ∧ (u.pillow p).run = some w.nextOp
      ∧ u.job r.ctx = some k
      ∧ nth k.len w.op.arg = (if w.job.pinned then min (leNat b) (w.prk.lenMax w.op.arg) else leNat b)) ∧
  (∀ (n p asid va : Nat) (r : Run) (j : Job) (g : Page) (s : State), s.pillowAlive p = true → (s.pillow p).run = some
    r → s.job r.ctx = some j → j.pinned = false → j.asid = asid → va < 2 ^ 48 →
    (∀ e ∈ (s.pillow p).tc, e.covers asid va = false) → s.pageAt asid va = some g → s.ms.poison = [] →
    ∃ t, exec (.translationWalkEnd n p asid va .clean) s = .next t
      ∧ (t.pillow p).tc.head? = some { asid := asid, va := g.va, big := g.big, locks := [], fresh := true }
      ∧ (t.pillow p).mem.ptMiss = min 0xFFFF_FFFF ((s.pillow p).mem.ptMiss + 1)) ∧
  (∀ (n p c : Nat) (j : Job) (s : State), s.alive = true → s.deadJob p = some (c, j) → s.job c = some j → j.pinned =
    false → j.figures = none → s.recordRoom p j = true → j.epochs ≠ [] → j.slotTag ≠ 0xFF →
    ∃ u : State, exec (.recordCommit n p) s = .next (u.settlePillows j.pillows)
      ∧ u.queue (3 + p) = { s.queue (3 + p) with
          vis := (s.queue (3 + p)).vis ++ [recordPacket c j
             (j.compactRecord j.oldestEpoch (s.slot j.slotTag).model (max s.now n) []), recordPacket c j
             (j.fullRecord c j.oldestEpoch (s.slot j.slotTag).model (max s.now n) [])] } ∧ u.job c = none) ∧
  (∀ (n p : Nat) (q : QPacket) (rest : List QPacket) (s : State), s.alive = true → selectPacket (s.queue (3 + p)).vis
    = some (q, rest) → q.data.length = 16 → q.prio = 1 → s.pk.en = true → s.pk.streams.getLsbD
    ((q.data.headD 0).toNat % 16) = true → s.pk.buf.length < 1024 →
    ∃ t : State, exec (.recordMove n p .clean) s = .next t ∧ t.pk = { s.pk with buf := s.pk.buf ++ [q.data] }
      ∧ t.queue (3 + p) = { s.queue (3 + p) with vis := rest, last := q.lastItem, ce := (t.queue (3 + p)).ce }) ∧
  (∀ (k p n : Nat) (f b : Bytes) (s : State), p < 16 → s.portUp p = true → s.lineFrame p f = some (n, b) →
    (s.stream n).badHeader n b = false → (s.stream n).lineOf (numAt 8 4 b) = (s.stream n).next → numAt 0x0C 4 b = 0 →
    numAt 0x10 2 b = (s.stream n).pitch → (s.stream n).inProg = [] →
    (∀ l ∈ (s.stream n).landed, l.1 % max 1 (s.stream n).depth ≠ (s.stream n).next % max 1 (s.stream n).depth) →
    (s.stream n).base + (s.stream n).depth * (s.stream n).pitch ≤ 0x200_0000 → (s.stream n).depth ≠ 0 →
    ∃ t, exec (.streamFrame k p f) s = .next t ∧ (t.stream n).next = (s.stream n).next + 1
      ∧ (t.stream n).landed = ((s.stream n).next, max s.now k) :: (s.stream n).landed
      ∧ (∀ i, i < (s.stream n).pitch → some (t.byteAt ((s.stream n).lineAddr (s.stream n).next (i : Int))) =
         b[24 + i]?)) ∧
  (∀ (k p : Nat) (f mac ip : Bytes) (s : State), 16 ≤ p → p ≤ 17 → s.portUp p = true → arpFor (s.port p).ipv4
    (ethOf f).rest = some (mac, ip) → sizeOk f = true →
    ((ethOf f).dst = (s.port p).mac ∨ (ethOf f).dst = List.replicate 6 0xFF) → (s.port p).tagOk (ethOf f) = true →
    (ethOf f).etype = 0x0806 → (s.service (p - 16)).sending = true → (s.service (p - 16)).pendingList = none →
    ∃ t, exec (.arpRequest k p f) s = .next t
      ∧ t.service (p - 16) = { s.service (p - 16) with
          replies := (s.service (p - 16)).replies ++ [{ cls := 0, wire := 72, dst := (ethOf f).src, req := none,
                                                        body := [0, 1, 8, 0, 6, 4, 0, 2] ++ (s.port p).mac ++ (s.port p).ipv4 ++ mac ++ ip }] }
      ∧ t.port p = { s.port p with rxf := min 0xFFFF_FFFF ((s.port p).rxf + 1) }) ∧
  (∀ (k p : Nat) (f b : Bytes) (x : IpPacket) (s : State), 16 ≤ p → p ≤ 17 → s.portUp p = true → (s.port p).ipFor f =
    some x → x.dst = (s.port p).ipv4 → x.proto = 1 → echoOf x.body = some b →
    (((s.port p).icmp.filter fun u => decide (max s.now k < u + 10 ^ 9)).length < 100) → (s.service (p - 16)).sending
    = true → (s.service (p - 16)).pendingList = none →
    ∃ t, exec (.icmpEcho k p f) s = .next t
      ∧ t.service (p - 16) = { s.service (p - 16) with
          replies := (s.service (p - 16)).replies ++
            [{ cls := 0, wire := wireOf (20 + b.length), dst := (ethOf f).src ++ x.src, body := b, req := none }] }
      ∧ (t.port p).rxf = min 0xFFFF_FFFF ((s.port p).rxf + 1)) ∧
  (∀ (k p va n : Nat) (f : Bytes) (d : Datagram) (g : Page) (s : State), 16 ≤ p → p ≤ 17 → s.portUp p = true →
    (s.port p).udpFor f = some d → d.dstPort = (s.service (p - 16)).rasterUdp → rasterOk d.data = true → n = numAt
    0x0E 2 d.data → va = (s.service (p - 16)).intakeBase + numAt 8 6 d.data → numAt 8 6 d.data + n ≤
    (s.service (p - 16)).intakeSize → va / 65536 = (va + n - 1) / 65536 → s.pageAt (s.service (p - 16)).asid va = some
    g → g.w = true → g.pin = true → va + n ≤ g.va + pageBytes g.big → s.marchAt (g.physical va) = false →
    (s.advance k).cycleWrites = [] → bitOf 0 (numAt 3 1 d.data) = false → (s.service (p - 16)).raster = some
    (BitVec.ofNat 32 (numAt 4 4 d.data)) →
    ∃ t, exec (.rasterPacket k p f) s = .next t
      ∧ (∀ a, t.byteAt a = if g.physical va ≤ a ∧ a < g.physical va + n then (d.data[24 + (a - g.physical va)]?).getD
         0 else s.byteAt a)
      ∧ t.service (p - 16) = { s.service (p - 16) with rbytes := ((s.service (p - 16)).rbytes + n) % 2 ^ 32 }) ∧
  (∀ (k p : Nat) (o : Int) (f : Bytes) (m : PtpMsg) (s : State), 16 ≤ p → p ≤ 17 → s.portUp p = true →
    (s.port p).ptpFor f = some m → m.domain = (s.service (p - 16)).domain → m.body = .sync true o →
    (s.ptpPort (p - 16)).state = 1 → m.source = (s.ptpPort (p - 16)).source →
    exec (.ptpMessage k p f) s = .next { s.setPort p { s.port p with rxf := min 0xFFFF_FFFF ((s.port p).rxf + 1) } with
          now := max s.now k,
          ptp := { s.ptp with
              lastSync := max s.now k, interval := ptpInterval m.log, sync := some (m.seq, m.corr, max s.now k) } }) ∧
  (∀ (k p q : Nat) (s : State), 16 ≤ p → p ≤ 17 → s.portUp p = true → (s.ptpPort (p - 16)).state = 1 →
    (∀ u ∈ s.ptp.lastReq, u + s.ptp.reqNs ≤ max s.now k) → q = (s.ptp.reqSeq + 1) % 65536 →
    (s.service (p - 16)).sending = true → (s.service (p - 16)).pendingList = none →
    ∃ t, exec (.delayReq k p) s = .next t
      ∧ t.service (p - 16) = { s.service (p - 16) with
          replies := (s.service (p - 16)).replies ++ [{ cls := 7, wire := 98, dst := ptpGroupMac ++ ptpGroup,
                                                        body := s.delayReqBody (p - 16) q, req := some q }] }) ∧
  (∀ (k : Nat) (s : State), s.up = true → s.ptp.lock = true → s.ptp.lastSync + 3 * s.ptp.interval ≤ max s.now k →
    ∃ t, exec (.ptpSyncTimeout k) s = .next t ∧ t.ptp = { s.ptp with lock := false, good := 0 }
      ∧ (t.latch 25).held = true) ∧
  (∀ (k : Nat) (gm : BitVec 64) (rank : Nat) (s : State), s.up = true → (s.ptpPort 0).state = 1 → (s.ptpPort 1).state
    = 2 → (s.ptpPort 1).master = some (gm, rank) →
    ∃ t, exec (.ptpMasterLost k) s = .next t ∧ t.ptpPort 0 = { s.ptpPort 0 with state := 0, master := none }
      ∧ t.ptpPort 1 = { s.ptpPort 1 with state := 1 }) ∧
  (∀ (k sp : Nat) (s : State), s.alive = true → (s.service sp).sending = true → (s.service sp).replies = [] →
    (s.service sp).buf = [] → (s.service sp).pendingList = none →
    ∃ t, exec (.frameTransmitEnd k sp) s = .next t ∧ t.service sp = { s.service sp with sending := false }
      ∧ t.port (16 + sp) = { s.port (16 + sp) with txf := min 0xFFFF_FFFF ((s.port (16 + sp)).txf + 1) }) ∧
  (∀ (k sp c : Nat) (s : State), s.portUp (16 + sp) = true → sp < 2 → (s.service sp).sending = false →
    (s.service sp).pendingList = none → (s.service sp).replies = [] → c ≤ 7 → (s.advance k).mayStart sp c = true →
    (∀ d, c < d → d ≤ 7 → (s.advance k).mayStart sp d = false) →
    ∃ t rs, exec (.gateEntryChange k sp) s = .next t
      ∧ rs = ((s.service sp).buf.filter fun r => (s.service sp).classOf r == c).take (s.service sp).maxRecs ∧ rs ≠ []
      ∧ t.service sp = { s.service sp with
          buf := dropRecords (fun r => (s.service sp).classOf r == c) rs.length (s.service sp).buf,
          seq := ((s.service sp).seq + rs.length) % 2 ^ 32, sending := true,
          lastTx := leBytes 2 0x4552 ++ leBytes 1 1 ++ leBytes 1 rs.length ++ leBytes 4 (s.service sp).seq ++ leBytes
            8 (ofSigned 64 (s.ptpAt (max s.now k))) ++ (rs.map EgRec.bytes).flatten }) ∧
  (∀ (n p b : Nat) (cs zs : SparseInt) (s : State), s.calServes = true → s.calBobbin p b = true →
    ((s.bobbin p b).state ≠ 0 ∨ ((s.bobbin p b).calPass s.trim s.sheets.sheet cs zs).passFails = false) →
    (s.pillow p).run = none → s.therm.step < 3 →
    ∃ t, exec (.calibrationPass n p b cs zs) s = .next t ∧ (t.bobbin p b).made = (s.bobbin p b).made + 1
      ∧ t.trim = { s.trim with calPasses := min 0xFFFF_FFFF (s.trim.calPasses + 1) }) ∧
  (∀ (n p b g c : Nat) (s : State), s.calServes = true → s.calBobbin p b = true → g < 8 → tget (fun _ => 0)
    (s.bobbin p b).dwell g + 1024 ≤ (s.bobbin p b).made → c = 33 * g + ((s.bobbin p b).uOf g).1 →
    ∃ t, exec (.dwellEnd n p b g []) s = .next t ∧ (t.bobbin p b).uOf g = nextConv ((s.bobbin p b).uOf g)
      ∧ tget (fun _ => 0) (t.bobbin p b).dwell g = (s.bobbin p b).made) ∧
  (∀ (n p b : Nat) (ms : List Int) (s : State), s.calServes = true → s.calBobbin p b = true →
    (s.bobbin p b).programmed = true → (∀ l, l < 16 → 4096 ≤ tget (fun _ => 0) (s.bobbin p b).scanN l) → ms =
    (s.bobbin p b).scanLevels → (s.bobbin p b).base = [] → (s.bobbin p b).scans.length = 3 →
    ∃ t, exec (.levelScanEnd n p b ms) s = .next t ∧ (t.bobbin p b).scans = ms :: (s.bobbin p b).scans
      ∧ (t.bobbin p b).base = (List.range 128).map
        (fun i => roundHalfEven (((ms :: (s.bobbin p b).scans).map fun x => x.getD i 0).sum) 4)) ∧
  (∀ (n : Nat) (dev : Int) (s : State), (s.advance n).sealDue = true → s.therm.step < 2 → dev.natAbs ≤ 50 →
    s.tb.sheetSrc ≠ 0 →
    ∃ t, exec (.sealEpoch n dev) s = .next t
      ∧ t.trim = { s.trim with
          refDev := dev, epoch := s.trim.epoch + 1, unbound := some (s.trim.epoch + 1), bound := false,
          sealBase := max s.now n, sealHeld := false, kept := t.trim.kept }) ∧
  (∀ (n p l : Nat) (b : Bobbin) (s : State), s.alive = true → l < 16 → s.wt.ageH ≠ 0 → s.bobbin p
    ((s.pillow p).physOf l) = b → b.progTime + s.wt.ageH * 3_600_000_000_000 < max s.now n → b.state = 0 →
    (s.slot b.slot).state = 3 → (∀ r ∈ (s.pillow p).refresh, r.logical ≠ l) →
    exec (.ageRefreshRequest n p l) s = .next { s.setPillow p { s.pillow p with refresh := (s.pillow p).refresh ++ [{ source := 4, logical := l, age := b.progTime }] } with
          now := max s.now n }) ∧
  (∀ (n p sp : Nat) (q : RefreshReq) (g : Target) (b : Bobbin) (s : State), s.alive = true → s.inService p = true →
    s.trim.calDone = true → s.power.pwrgd = true → s.ms.errs = [] → s.trim.cal = none → s.therm.step = 0 →
    (s.pillow p).spare = some sp → (s.bobbin p sp).state = 1 → (s.pillow p).refreshing = none → (s.pillow p).refresh =
    [q] → s.refreshable p q = true → b = s.bobbin p ((s.pillow p).physOf q.logical) → (s.slot b.slot).targetOf p
    q.logical = some g → (s.bundle (s.slot b.slot).handle).state = 2 →
    (∀ i ∈ g.shards, s.shardFault (s.bundle (s.slot b.slot).handle) i = none) →
    ∃ t, exec (.refreshStart n p) s = .next t
      ∧ t.pillow p = { s.pillow p with
          refresh := [], refreshing := some q,
          progs := (s.pillow p).progs ++ [{ bobbin := sp, logical := q.logical, forSlot := none, target := g,
                                            handle := (s.slot b.slot).handle, started := false }] }) ∧
  (∀ (n p : Nat) (q : ProgReq) (rest : List ProgReq) (s : State), s.alive = true → s.power.pwrgd = true →
    (s.pillow p).progs = q :: rest → q.started = false → q ∉ rest → rest.countP (·.started) < 4 →
    (∀ r ∈ rest, r.started = true → r.bobbin ≠ q.bobbin) → (s.bundle q.handle).state = 2 →
    ∃ t, exec (.bobbinProgrammingStart n p) s = .next t ∧ (t.pillow p).progs = { q with started := true } :: rest
      ∧ t.bobbin p q.bobbin =
        { s.bobbin p q.bobbin with state := 2, logical := q.logical, progFail := false, image := some q.target }) ∧
  (∀ (n p u : Nat) (q : ProgReq) (m : Nat) (s : State), (s.pillow p).progs = [q] → q.started = true → q.stopped =
    false → q.cut = false → q.forSlot = some m → s.ms.errs = [] → s.poisonedRow q = none → (s.bundle q.handle).state =
    2 →
    ∃ t, exec (.bobbinProgrammingEnd n p q.bobbin 0 u) s = .next t ∧ (t.pillow p).progs = []
      ∧ t.bobbin p q.bobbin = { s.bobbin p q.bobbin with
          cells := s.imageCells (s.bundle q.handle) q.target.ofs, w4 := q.target.fmt == 1, vfail := 0, iterMax := u,
          progFail := false, calFailed := false, dead := false, pendK := some 16384,
          sets := (s.bobbin p q.bobbin).sets.map fun x => { x with k := 16384 }, base := [], scans := [],
          scanP := [], scanN := [], drift := 0, k0 := 16384, bad := [], strikes := [],
          progCount := (s.bobbin p q.bobbin).progCount + 1, programmed := true, progTime := max s.now n, state := 6,
          slot := m, logical := q.logical })
end

