-- ==== Sys2Proof/Laws/Exec.lean ====
section
/-! SUPPORT. What `exec` answers to each command: its meaning. -/

namespace Sys2Proof.Machine

@[simp] theorem exec_devInfo (h : Hdr) (s : State) :
    exec (.devInfo h) s = execDevInfo h s := rfl

@[simp] theorem exec_devReset (h : Hdr) (confirm : BitVec 32) (s : State) :
    exec (.devReset h confirm) s = execDevReset h confirm s := rfl

@[simp] theorem exec_regRead (h : Hdr) (addr : BitVec 32) (count : Nat) (s : State) :
    exec (.regRead h addr count) s = execRegRead h addr count s := rfl

@[simp] theorem exec_regWrite (h : Hdr) (addr : BitVec 32) (vals : List (BitVec 32)) (s : State) :
    exec (.regWrite h addr vals) s = execRegWrite h addr vals s := rfl

@[simp] theorem exec_hcDataRead (h : Hdr) (s : State) :
    exec (.hcDataRead h) s = execHcDataRead h s := rfl

@[simp] theorem exec_tbWpLoRead (h : Hdr) (s : State) :
    exec (.tbWpLoRead h) s = execTbWpLoRead h s := rfl

@[simp] theorem exec_pkPick0Read (h : Hdr) (s : State) :
    exec (.pkPick0Read h) s = execPkPick0Read h s := rfl

@[simp] theorem exec_qcCommit (h : Hdr) (pillow : Nat) (s : State) :
    exec (.qcCommit h pillow) s = execQcCommit h pillow s := rfl

@[simp] theorem exec_wrReq (h : Hdr) (pillow : Nat) (logical : Nat) (s : State) :
    exec (.wrReq h pillow logical) s = execWrReq h pillow logical s := rfl

@[simp] theorem exec_shqErrPop (h : Hdr) (ecc : WordEcc) (s : State) :
    exec (.shqErrPop h ecc) s = execShqErrPop h ecc s := rfl

@[simp] theorem exec_pwrReq (h : Hdr) (domain : Nat) (ungate : Bool) (s : State) :
    exec (.pwrReq h domain ungate) s = execPwrReq h domain ungate s := rfl

@[simp] theorem exec_frCtrlEnter (h : Hdr) (s : State) :
    exec (.frCtrlEnter h) s = execFrCtrlEnter h s := rfl

@[simp] theorem exec_frCtrlLeave (h : Hdr) (s : State) :
    exec (.frCtrlLeave h) s = execFrCtrlLeave h s := rfl

@[simp] theorem exec_secArm (h : Hdr) (key : BitVec 32) (s : State) :
    exec (.secArm h key) s = execSecArm h key s := rfl

@[simp] theorem exec_secOpSeal (h : Hdr) (s : State) :
    exec (.secOpSeal h) s = execSecOpSeal h s := rfl

@[simp] theorem exec_secOpRevoke (h : Hdr) (mask : BitVec 8) (s : State) :
    exec (.secOpRevoke h mask) s = execSecOpRevoke h mask s := rfl

@[simp] theorem exec_calRun (h : Hdr) (s : State) :
    exec (.calRun h) s = execCalRun h s := rfl

@[simp] theorem exec_calRunEnd (t : Nat) (res : CalResult) (s : State) :
    exec (.calRunEnd t res) s = execCalRunEnd t res s := rfl

@[simp] theorem exec_trimRead (h : Hdr) (offset : Nat) (length : Nat) (s : State) :
    exec (.trimRead h offset length) s = execTrimRead h offset length s := rfl

@[simp] theorem exec_trimSnapshotReady (t : Nat) (s : State) :
    exec (.trimSnapshotReady t) s = execTrimSnapshotReady t s := rfl

@[simp] theorem exec_trimWrite (h : Hdr) (s : State) :
    exec (.trimWrite h) s = execTrimWrite h s := rfl

@[simp] theorem exec_trimWriteCheck (t : Nat) (s : State) :
    exec (.trimWriteCheck t) s = execTrimWriteCheck t s := rfl

@[simp] theorem exec_mapCreate (h : Hdr) (asid : Nat) (op : Nat) (s : State) :
    exec (.mapCreate h asid op) s = execMapCreate h asid op s := rfl

@[simp] theorem exec_mapPage (h : Hdr) (p : MapPageParams) (s : State) :
    exec (.mapPage h p) s = execMapPage h p s := rfl

@[simp] theorem exec_mapPageDrainEnd (t : Nat) (tag : BitVec 32) (s : State) :
    exec (.mapPageDrainEnd t tag) s = execMapPageDrainEnd t tag s := rfl

@[simp] theorem exec_mapPin (h : Hdr) (asid : Nat) (op : Nat) (va : Nat) (size : Nat) (s : State) :
    exec (.mapPin h asid op va size) s = execMapPin h asid op va size s := rfl

@[simp] theorem exec_marchRun (h : Hdr) (target : Nat) (form : Nat) (index : Nat) (s : State) :
    exec (.marchRun h target form index) s = execMarchRun h target form index s := rfl

@[simp] theorem exec_marchRunEnd (t : Nat) (fails : List Nat) (s : State) :
    exec (.marchRunEnd t fails) s = execMarchRunEnd t fails s := rfl

@[simp] theorem exec_shardBeginManifest (h : Hdr) (handle : Nat) (s : State) :
    exec (.shardBeginManifest h handle) s = execShardBeginManifest h handle s := rfl

@[simp] theorem exec_shardBeginShard (h : Hdr) (handle : Nat) (index : Nat) (s : State) :
    exec (.shardBeginShard h handle index) s = execShardBeginShard h handle index s := rfl

@[simp] theorem exec_shardBeginDiscard (h : Hdr) (handle : Nat) (s : State) :
    exec (.shardBeginDiscard h handle) s = execShardBeginDiscard h handle s := rfl

@[simp] theorem exec_shardEnd (h : Hdr) (handle : Nat) (sigOk : Bool) (s : State) :
    exec (.shardEnd h handle sigOk) s = execShardEnd h handle sigOk s := rfl

@[simp] theorem exec_shardTimeout (t : Nat) (handle : Nat) (s : State) :
    exec (.shardTimeout t handle) s = execShardTimeout t handle s := rfl

@[simp] theorem exec_bundleCheckEnd (t : Nat) (handle : Nat) (s : State) :
    exec (.bundleCheckEnd t handle) s = execBundleCheckEnd t handle s := rfl

@[simp] theorem exec_redigestPass (t : Nat) (s : State) :
    exec (.redigestPass t) s = execRedigestPass t s := rfl

@[simp] theorem exec_slotProgram (h : Hdr) (slot : Nat) (handle : Nat) (map : List Nat) (s : State) :
    exec (.slotProgram h slot handle map) s = execSlotProgram h slot handle map s := rfl

@[simp] theorem exec_slotProgramEnd (t : Nat) (slot : Nat) (s : State) :
    exec (.slotProgramEnd t slot) s = execSlotProgramEnd t slot s := rfl

@[simp] theorem exec_slotActivate (h : Hdr) (slot : Nat) (handle : Option Nat) (s : State) :
    exec (.slotActivate h slot handle) s = execSlotActivate h slot handle s := rfl

@[simp] theorem exec_slotDrainEnd (t : Nat) (slot : Nat) (s : State) :
    exec (.slotDrainEnd t slot) s = execSlotDrainEnd t slot s := rfl

@[simp] theorem exec_slotReprogramEnd (t : Nat) (slot : Nat) (s : State) :
    exec (.slotReprogramEnd t slot) s = execSlotReprogramEnd t slot s := rfl

@[simp] theorem exec_slotRetire (h : Hdr) (slot : Nat) (s : State) :
    exec (.slotRetire h slot) s = execSlotRetire h slot s := rfl

@[simp] theorem exec_slotRetireEnd (t : Nat) (slot : Nat) (s : State) :
    exec (.slotRetireEnd t slot) s = execSlotRetireEnd t slot s := rfl

@[simp] theorem exec_prickLoadOpen (h : Hdr) (prk : Nat) (size : Nat) (s : State) :
    exec (.prickLoadOpen h prk size) s = execPrickLoadOpen h prk size s := rfl

@[simp] theorem exec_prickLoadData (h : Hdr) (prk : Nat) (offset : Nat) (data : Bytes) (s : State) :
    exec (.prickLoadData h prk offset data) s = execPrickLoadData h prk offset data s := rfl

@[simp] theorem exec_prickLoadClose (h : Hdr) (prk : Nat) (s : State) :
    exec (.prickLoadClose h prk) s = execPrickLoadClose h prk s := rfl

@[simp] theorem exec_prickLoadDiscard (h : Hdr) (prk : Nat) (s : State) :
    exec (.prickLoadDiscard h prk) s = execPrickLoadDiscard h prk s := rfl

@[simp] theorem exec_jobAdmit (h : Hdr) (p : AdmitParams) (s : State) :
    exec (.jobAdmit h p) s = execJobAdmit h p s := rfl

@[simp] theorem exec_jobAdmitAccept (t : Nat) (template : Nat) (s : State) :
    exec (.jobAdmitAccept t template) s = execJobAdmitAccept t template s := rfl

@[simp] theorem exec_jobSubmit (h : Hdr) (p : SubmitParams) (s : State) :
    exec (.jobSubmit h p) s = execJobSubmit h p s := rfl

@[simp] theorem exec_partialCapture (h : Hdr) (p : SubmitParams) (capbuf : Nat) (mode : Nat) (s : State) :
    exec (.partialCapture h p capbuf mode) s = execPartialCapture h p capbuf mode s := rfl

@[simp] theorem exec_jobAbortLoose (h : Hdr) (ctx : Nat) (s : State) :
    exec (.jobAbortLoose h ctx) s = execJobAbortLoose h ctx s := rfl

@[simp] theorem exec_jobAbortTemplate (h : Hdr) (template : Nat) (s : State) :
    exec (.jobAbortTemplate h template) s = execJobAbortTemplate h template s := rfl

@[simp] theorem exec_templateWithdrawn (t : Nat) (template : Nat) (s : State) :
    exec (.templateWithdrawn t template) s = execTemplateWithdrawn t template s := rfl

@[simp] theorem exec_tbConfig (h : Hdr) (p : TbConfigParams) (s : State) :
    exec (.tbConfig h p) s = execTbConfig h p s := rfl

@[simp] theorem exec_tbClaimClaim (h : Hdr) (unit : Option Nat) (action : Nat) (arg : Nat) (period : Nat) (target : Nat) (s : State) :
    exec (.tbClaimClaim h unit action arg period target) s = execTbClaimClaim h unit action arg period target s := rfl

@[simp] theorem exec_tbClaimRelease (h : Hdr) (unit : Nat) (s : State) :
    exec (.tbClaimRelease h unit) s = execTbClaimRelease h unit s := rfl

@[simp] theorem exec_streamOpen (h : Hdr) (p : StreamOpenParams) (s : State) :
    exec (.streamOpen h p) s = execStreamOpen h p s := rfl

@[simp] theorem exec_streamClose (h : Hdr) (stream : Nat) (s : State) :
    exec (.streamClose h stream) s = execStreamClose h stream s := rfl

@[simp] theorem exec_streamCloseEffect (t : Nat) (stream : Nat) (s : State) :
    exec (.streamCloseEffect t stream) s = execStreamCloseEffect t stream s := rfl

@[simp] theorem exec_portConfigLink (h : Hdr) (p : LinkParams) (s : State) :
    exec (.portConfigLink h p) s = execPortConfigLink h p s := rfl

@[simp] theorem exec_portConfigService (h : Hdr) (p : ServiceParams) (s : State) :
    exec (.portConfigService h p) s = execPortConfigService h p s := rfl

@[simp] theorem exec_portConfigGates (h : Hdr) (p : GatesParams) (s : State) :
    exec (.portConfigGates h p) s = execPortConfigGates h p s := rfl

@[simp] theorem exec_hcConfigEnable (h : Hdr) (p : HcEnableParams) (s : State) :
    exec (.hcConfigEnable h p) s = execHcConfigEnable h p s := rfl

@[simp] theorem exec_hcConfigDisable (h : Hdr) (seq : Nat) (s : State) :
    exec (.hcConfigDisable h seq) s = execHcConfigDisable h seq s := rfl

@[simp] theorem exec_hcConfigMode (h : Hdr) (lp : Bool) (owTh : Nat) (s : State) :
    exec (.hcConfigMode h lp owTh) s = execHcConfigMode h lp owTh s := rfl

@[simp] theorem exec_hcSelfcal (h : Hdr) (s : State) :
    exec (.hcSelfcal h) s = execHcSelfcal h s := rfl

@[simp] theorem exec_hcSelfcalEnd (t : Nat) (res : CalResult) (s : State) :
    exec (.hcSelfcalEnd t res) s = execHcSelfcalEnd t res s := rfl

@[simp] theorem exec_hcReadData (h : Hdr) (s : State) :
    exec (.hcReadData h) s = execHcReadData h s := rfl

@[simp] theorem exec_hcReadConvert (h : Hdr) (ch : Nat) (opt : HcOpt) (s : State) :
    exec (.hcReadConvert h ch opt) s = execHcReadConvert h ch opt s := rfl

@[simp] theorem exec_hcReadUrgent (h : Hdr) (ch : Nat) (opt : HcOpt) (s : State) :
    exec (.hcReadUrgent h ch opt) s = execHcReadUrgent h ch opt s := rfl

@[simp] theorem exec_pkConfigEnable (h : Hdr) (streams : BitVec 16) (origin : Nat) (s : State) :
    exec (.pkConfigEnable h streams origin) s = execPkConfigEnable h streams origin s := rfl

@[simp] theorem exec_pkConfigDisable (h : Hdr) (s : State) :
    exec (.pkConfigDisable h) s = execPkConfigDisable h s := rfl

@[simp] theorem exec_queueFlush (h : Hdr) (q : Nat) (s : State) :
    exec (.queueFlush h q) s = execQueueFlush h q s := rfl

@[simp] theorem exec_queueFlushEffect (t : Nat) (q : Nat) (s : State) :
    exec (.queueFlushEffect t q) s = execQueueFlushEffect t q s := rfl

@[simp] theorem exec_queueDrop (h : Hdr) (q : Nat) (write : Bool) (writer : Nat) (s : State) :
    exec (.queueDrop h q write writer) s = execQueueDrop h q write writer s := rfl

@[simp] theorem exec_fwUpdateOpen (h : Hdr) (length : Nat) (s : State) :
    exec (.fwUpdateOpen h length) s = execFwUpdateOpen h length s := rfl

@[simp] theorem exec_fwUpdateClose (h : Hdr) (image : Bool) (s : State) :
    exec (.fwUpdateClose h image) s = execFwUpdateClose h image s := rfl

@[simp] theorem exec_fwUpdateDiscard (h : Hdr) (s : State) :
    exec (.fwUpdateDiscard h) s = execFwUpdateDiscard h s := rfl

@[simp] theorem exec_flashWriteStageEnd (t : Nat) (ok : Bool) (s : State) :
    exec (.flashWriteStageEnd t ok) s = execFlashWriteStageEnd t ok s := rfl

@[simp] theorem exec_attestForm (h : Hdr) (nonce : Bytes) (s : State) :
    exec (.attestForm h nonce) s = execAttestForm h nonce s := rfl

@[simp] theorem exec_attestRead (h : Hdr) (offset : Nat) (s : State) :
    exec (.attestRead h offset) s = execAttestRead h offset s := rfl

@[simp] theorem exec_dispatch (t : Nat) (ecc : WordEcc) (s : State) :
    exec (.dispatch t ecc) s = execDispatch t ecc s := rfl

@[simp] theorem exec_cmd0 (t : Nat) (s : State) :
    exec (.cmd0 t) s = execCmd0 t s := rfl

@[simp] theorem exec_cmd5 (t : Nat) (s : State) :
    exec (.cmd5 t) s = execCmd5 t s := rfl

@[simp] theorem exec_cmd11 (t : Nat) (s : State) :
    exec (.cmd11 t) s = execCmd11 t s := rfl

@[simp] theorem exec_cmd19 (t : Nat) (s : State) :
    exec (.cmd19 t) s = execCmd19 t s := rfl

@[simp] theorem exec_mailboxWrite (t : Nat) (data : Bytes) (crcOk : Bool) (s : State) :
    exec (.mailboxWrite t data crcOk) s = execMailboxWrite t data crcOk s := rfl

@[simp] theorem exec_mailboxPacketEnter (t : Nat) (s : State) :
    exec (.mailboxPacketEnter t) s = execMailboxPacketEnter t s := rfl

@[simp] theorem exec_replyWindowRead (t : Nat) (n : Nat) (ecc : WordEcc) (s : State) :
    exec (.replyWindowRead t n ecc) s = execReplyWindowRead t n ecc s := rfl

@[simp] theorem exec_transportByteWrite (t : Nat) (fn : Nat) (addr : Nat) (value : Byte) (s : State) :
    exec (.transportByteWrite t fn addr value) s = execTransportByteWrite t fn addr value s := rfl

@[simp] theorem exec_f2BlockWrite (t : Nat) (data : Bytes) (crcOk : Bool) (s : State) :
    exec (.f2BlockWrite t data crcOk) s = execF2BlockWrite t data crcOk s := rfl

@[simp] theorem exec_f2BlockRead (t : Nat) (s : State) :
    exec (.f2BlockRead t) s = execF2BlockRead t s := rfl

@[simp] theorem exec_ioAbort (t : Nat) (fn : Nat) (inCmd : Bool) (s : State) :
    exec (.ioAbort t fn inCmd) s = execIoAbort t fn inCmd s := rfl

@[simp] theorem exec_ioReset (t : Nat) (s : State) :
    exec (.ioReset t) s = execIoReset t s := rfl

@[simp] theorem exec_packetEnter (t : Nat) (q : Nat) (s : State) :
    exec (.packetEnter t q) s = execPacketEnter t q s := rfl

@[simp] theorem exec_errorEntryEnter (t : Nat) (cls : Nat) (s : State) :
    exec (.errorEntryEnter t cls) s = execErrorEntryEnter t cls s := rfl

@[simp] theorem exec_hostNoteDrain (t : Nat) (s : State) :
    exec (.hostNoteDrain t) s = execHostNoteDrain t s := rfl

@[simp] theorem exec_recordMove (t : Nat) (pillow : Nat) (ecc : WordEcc) (s : State) :
    exec (.recordMove t pillow ecc) s = execRecordMove t pillow ecc s := rfl

@[simp] theorem exec_encoderCount (t : Nat) (a : Bool) (b : Bool) (s : State) :
    exec (.encoderCount t a b) s = execEncoderCount t a b s := rfl

@[simp] theorem exec_indexPulse (t : Nat) (s : State) :
    exec (.indexPulse t) s = execIndexPulse t s := rfl

@[simp] theorem exec_threadTriggerEdge (t : Nat) (pin : Nat) (rising : Bool) (s : State) :
    exec (.threadTriggerEdge t pin rising) s = execThreadTriggerEdge t pin rising s := rfl

@[simp] theorem exec_pulseEnd (t : Nat) (pin : Nat) (s : State) :
    exec (.pulseEnd t pin) s = execPulseEnd t pin s := rfl

@[simp] theorem exec_encoderLoss (t : Nat) (pairs : BitVec 3) (s : State) :
    exec (.encoderLoss t pairs) s = execEncoderLoss t pairs s := rfl

@[simp] theorem exec_encoderLossEnd (t : Nat) (s : State) :
    exec (.encoderLossEnd t) s = execEncoderLossEnd t s := rfl

@[simp] theorem exec_stall (t : Nat) (s : State) :
    exec (.stall t) s = execStall t s := rfl

@[simp] theorem exec_stageReady (t : Nat) (pillow : Nat) (ctx : Nat) (stage : Nat) (s : State) :
    exec (.stageReady t pillow ctx stage) s = execStageReady t pillow ctx stage s := rfl

@[simp] theorem exec_saveComplete (t : Nat) (pillow : Nat) (s : State) :
    exec (.saveComplete t pillow) s = execSaveComplete t pillow s := rfl

@[simp] theorem exec_restoreComplete (t : Nat) (pillow : Nat) (ecc : Ecc) (s : State) :
    exec (.restoreComplete t pillow ecc) s = execRestoreComplete t pillow ecc s := rfl

@[simp] theorem exec_tokenConditioned (t : Nat) (pillow : Nat) (s : State) :
    exec (.tokenConditioned t pillow) s = execTokenConditioned t pillow s := rfl

@[simp] theorem exec_passComplete (t : Nat) (pillow : Nat) (noise : List (Nat × SparseInt)) (s : State) :
    exec (.passComplete t pillow noise) s = execPassComplete t pillow noise s := rfl

@[simp] theorem exec_epilogueWriteEnd (t : Nat) (pillow : Nat) (s : State) :
    exec (.epilogueWriteEnd t pillow) s = execEpilogueWriteEnd t pillow s := rfl

@[simp] theorem exec_dmaBurstComplete (t : Nat) (pillow : Nat) (burst : BurstIn) (s : State) :
    exec (.dmaBurstComplete t pillow burst) s = execDmaBurstComplete t pillow burst s := rfl

@[simp] theorem exec_translationWalkEnd (t : Nat) (pillow : Nat) (asid : Nat) (va : Nat) (ecc : Ecc) (s : State) :
    exec (.translationWalkEnd t pillow asid va ecc) s = execTranslationWalkEnd t pillow asid va ecc s := rfl

@[simp] theorem exec_tattingInstructionEnd (t : Nat) (pillow : Nat) (s : State) :
    exec (.tattingInstructionEnd t pillow) s = execTattingInstructionEnd t pillow s := rfl

@[simp] theorem exec_setlen (t : Nat) (pillow : Nat) (s : State) :
    exec (.setlen t pillow) s = execSetlen t pillow s := rfl

@[simp] theorem exec_fenceWaitEnd (t : Nat) (pillow : Nat) (s : State) :
    exec (.fenceWaitEnd t pillow) s = execFenceWaitEnd t pillow s := rfl

@[simp] theorem exec_windowWaitEnd (t : Nat) (pillow : Nat) (s : State) :
    exec (.windowWaitEnd t pillow) s = execWindowWaitEnd t pillow s := rfl

@[simp] theorem exec_recordCommit (t : Nat) (pillow : Nat) (s : State) :
    exec (.recordCommit t pillow) s = execRecordCommit t pillow s := rfl

@[simp] theorem exec_faultWaitExpiry (t : Nat) (ctx : Nat) (s : State) :
    exec (.faultWaitExpiry t ctx) s = execFaultWaitExpiry t ctx s := rfl

@[simp] theorem exec_streamFrame (t : Nat) (port : Nat) (frame : Bytes) (s : State) :
    exec (.streamFrame t port frame) s = execStreamFrame t port frame s := rfl

@[simp] theorem exec_linkDown (t : Nat) (link : LinkEvent) (s : State) :
    exec (.linkDown t link) s = execLinkDown t link s := rfl

@[simp] theorem exec_linkUp (t : Nat) (link : LinkEvent) (s : State) :
    exec (.linkUp t link) s = execLinkUp t link s := rfl

@[simp] theorem exec_arpRequest (t : Nat) (port : Nat) (frame : Bytes) (s : State) :
    exec (.arpRequest t port frame) s = execArpRequest t port frame s := rfl

@[simp] theorem exec_icmpEcho (t : Nat) (port : Nat) (frame : Bytes) (s : State) :
    exec (.icmpEcho t port frame) s = execIcmpEcho t port frame s := rfl

@[simp] theorem exec_rasterPacket (t : Nat) (port : Nat) (frame : Bytes) (s : State) :
    exec (.rasterPacket t port frame) s = execRasterPacket t port frame s := rfl

@[simp] theorem exec_ptpMessage (t : Nat) (port : Nat) (frame : Bytes) (s : State) :
    exec (.ptpMessage t port frame) s = execPtpMessage t port frame s := rfl

@[simp] theorem exec_delayReq (t : Nat) (port : Nat) (s : State) :
    exec (.delayReq t port) s = execDelayReq t port s := rfl

@[simp] theorem exec_ptpSyncTimeout (t : Nat) (s : State) :
    exec (.ptpSyncTimeout t) s = execPtpSyncTimeout t s := rfl

@[simp] theorem exec_gateEntryChange (t : Nat) (sp : Nat) (s : State) :
    exec (.gateEntryChange t sp) s = execGateEntryChange t sp s := rfl

@[simp] theorem exec_picotSlotEnd (t : Nat) (picked : Bytes) (s : State) :
    exec (.picotSlotEnd t picked) s = execPicotSlotEnd t picked s := rfl

@[simp] theorem exec_throwBurstEnd (t : Nat) (s : State) :
    exec (.throwBurstEnd t) s = execThrowBurstEnd t s := rfl

@[simp] theorem exec_sequenceReady (t : Nat) (seq : Nat) (s : State) :
    exec (.sequenceReady t seq) s = execSequenceReady t seq s := rfl

@[simp] theorem exec_conversionEnd (t : Nat) (raw : BitVec 12) (rawLo : BitVec 12) (rawHi : BitVec 12) (s : State) :
    exec (.conversionEnd t raw rawLo rawHi) s = execConversionEnd t raw rawLo rawHi s := rfl

@[simp] theorem exec_calibrationPass (t : Nat) (pillow : Nat) (bobbin : Nat) (codes : SparseInt) (noise : SparseInt) (s : State) :
    exec (.calibrationPass t pillow bobbin codes noise) s = execCalibrationPass t pillow bobbin codes noise s := rfl

@[simp] theorem exec_dwellEnd (t : Nat) (pillow : Nat) (bobbin : Nat) (group : Nat) (res : List Meas) (s : State) :
    exec (.dwellEnd t pillow bobbin group res) s = execDwellEnd t pillow bobbin group res s := rfl

@[simp] theorem exec_levelScanEnd (t : Nat) (pillow : Nat) (bobbin : Nat) (means : List Int) (s : State) :
    exec (.levelScanEnd t pillow bobbin means) s = execLevelScanEnd t pillow bobbin means s := rfl

@[simp] theorem exec_sealEpoch (t : Nat) (dev : Int) (s : State) :
    exec (.sealEpoch t dev) s = execSealEpoch t dev s := rfl

@[simp] theorem exec_ageRefreshRequest (t : Nat) (pillow : Nat) (logical : Nat) (s : State) :
    exec (.ageRefreshRequest t pillow logical) s = execAgeRefreshRequest t pillow logical s := rfl

@[simp] theorem exec_refreshStart (t : Nat) (pillow : Nat) (s : State) :
    exec (.refreshStart t pillow) s = execRefreshStart t pillow s := rfl

@[simp] theorem exec_bobbinProgrammingStart (t : Nat) (pillow : Nat) (s : State) :
    exec (.bobbinProgrammingStart t pillow) s = execBobbinProgrammingStart t pillow s := rfl

@[simp] theorem exec_bobbinProgrammingEnd (t : Nat) (pillow : Nat) (bobbin : Nat) (vfail : Nat) (iters : Nat) (s : State) :
    exec (.bobbinProgrammingEnd t pillow bobbin vfail iters) s = execBobbinProgrammingEnd t pillow bobbin vfail iters s := rfl

@[simp] theorem exec_sramScrub (t : Nat) (mem : MemKind) (pillow : Nat) (addr : Nat) (ecc : Ecc) (s : State) :
    exec (.sramScrub t mem pillow addr ecc) s = execSramScrub t mem pillow addr ecc s := rfl

@[simp] theorem exec_hbmScrub (t : Nat) (addr : Nat) (ecc : Ecc) (s : State) :
    exec (.hbmScrub t addr ecc) s = execHbmScrub t addr ecc s := rfl

@[simp] theorem exec_hbmLinkRetrain (t : Nat) (stack : Nat) (channel : Nat) (ns : Nat) (ok : Bool) (s : State) :
    exec (.hbmLinkRetrain t stack channel ns ok) s = execHbmLinkRetrain t stack channel ns ok s := rfl

@[simp] theorem exec_mgmtCoreFault (t : Nat) (core : Nat) (cause : Nat) (s : State) :
    exec (.mgmtCoreFault t core cause) s = execMgmtCoreFault t core cause s := rfl

@[simp] theorem exec_domainSwitched (t : Nat) (s : State) :
    exec (.domainSwitched t) s = execDomainSwitched t s := rfl

@[simp] theorem exec_pwrgdFall (t : Nat) (s : State) :
    exec (.pwrgdFall t) s = execPwrgdFall t s := rfl

@[simp] theorem exec_nrstFall (t : Nat) (s : State) :
    exec (.nrstFall t) s = execNrstFall t s := rfl

@[simp] theorem exec_nrstRise (t : Nat) (s : State) :
    exec (.nrstRise t) s = execNrstRise t s := rfl

@[simp] theorem exec_strapLatch (t : Nat) (pkd : BitVec 8) (s : State) :
    exec (.strapLatch t pkd) s = execStrapLatch t pkd s := rfl

@[simp] theorem exec_watchdog (t : Nat) (s : State) :
    exec (.watchdog t) s = execWatchdog t s := rfl

@[simp] theorem exec_internalResetEnd (t : Nat) (s : State) :
    exec (.internalResetEnd t) s = execInternalResetEnd t s := rfl

@[simp] theorem exec_thermalReading (t : Nat) (die : List Int) (hbm : List Int) (s : State) :
    exec (.thermalReading t die hbm) s = execThermalReading t die hbm s := rfl

@[simp] theorem exec_throttleStepFall (t : Nat) (s : State) :
    exec (.throttleStepFall t) s = execThrottleStepFall t s := rfl

@[simp] theorem exec_thermalTrip (t : Nat) (s : State) :
    exec (.thermalTrip t) s = execThermalTrip t s := rfl

@[simp] theorem exec_thermalTripEnd (t : Nat) (s : State) :
    exec (.thermalTripEnd t) s = execThermalTripEnd t s := rfl

@[simp] theorem exec_pllLock (t : Nat) (marchOk : Bool) (s : State) :
    exec (.pllLock t marchOk) s = execPllLock t marchOk s := rfl

@[simp] theorem exec_firmwareLoadEnd (t : Nat) (flash : FlashRead) (s : State) :
    exec (.firmwareLoadEnd t flash) s = execFirmwareLoadEnd t flash s := rfl

@[simp] theorem exec_firmwareInitEnd (t : Nat) (s : State) :
    exec (.firmwareInitEnd t) s = execFirmwareInitEnd t s := rfl

@[simp] theorem exec_debugToken (t : Nat) (device : BitVec 64) (challenge : BitVec 256) (key : Nat) (sigOk : Bool) (s : State) :
    exec (.debugToken t device challenge key sigOk) s = execDebugToken t device challenge key sigOk s := rfl

@[simp] theorem exec_tapInstruction (t : Nat) (ins : TapIns) (s : State) :
    exec (.tapInstruction t ins) s = execTapInstruction t ins s := rfl

@[simp] theorem exec_ptpMasterLost (t : Nat) (s : State) :
    exec (.ptpMasterLost t) s = execPtpMasterLost t s := rfl

@[simp] theorem exec_frameTransmitEnd (t : Nat) (sp : Nat) (s : State) :
    exec (.frameTransmitEnd t sp) s = execFrameTransmitEnd t sp s := rfl

@[simp] theorem exec_cmd3 (t : Nat) (s : State) :
    exec (.cmd3 t) s = execCmd3 t s := rfl

@[simp] theorem exec_cmd7 (t : Nat) (select : Bool) (s : State) :
    exec (.cmd7 t select) s = execCmd7 t select s := rfl

@[simp] theorem exec_cmd15 (t : Nat) (s : State) :
    exec (.cmd15 t) s = execCmd15 t s := rfl

@[simp] theorem exec_cccrWrite (t : Nat) (addr : Nat) (value : Byte) (s : State) :
    exec (.cccrWrite t addr value) s = execCccrWrite t addr value s := rfl

@[simp] theorem exec_transportByteRead (t : Nat) (fn : Nat) (addr : Nat) (s : State) :
    exec (.transportByteRead t fn addr) s = execTransportByteRead t fn addr s := rfl

@[simp] theorem exec_tapReset (t : Nat) (s : State) :
    exec (.tapReset t) s = execTapReset t s := rfl

end Sys2Proof.Machine
end

