-- ==== Sys2Proof/Laws/Table.lean ====
section
/-! SUPPORT. Laws of the sparse tables and of memory: a read after a write, and every operation keeps the
canonical form. -/

namespace Sys2Proof.Machine

/-! ## Reading back -/

@[simp] theorem tget_nil {α : Type} (d : Nat → α) (k : Nat) : tget d [] k = d k := rfl

theorem tget_cons {α : Type} (d : Nat → α) (j : Nat) (v : α) (t : Tbl α) (k : Nat) :
    tget d ((j, v) :: t) k = if j = k then v else tget d t k := rfl

theorem tget_tput {α : Type} (d : Nat → α) (k : Nat) (v : α) (t : Tbl α) (j : Nat) :
    tget d (tput k v t) j = if j = k then v else tget d t j := by
  induction t with
  | nil => simp [tput, tget_cons, eq_comm]
  | cons e t ih =>
    obtain ⟨i, w⟩ := e
    simp only [tput]
    split_ifs with h1 h2 <;> simp only [tget_cons, ih] <;> split_ifs <;> first | rfl | omega

theorem tget_tdel {α : Type} (d : Nat → α) (k : Nat) (t : Tbl α) (j : Nat) :
    tget d (tdel k t) j = if j = k then d j else tget d t j := by
  induction t with
  | nil => simp [tdel]
  | cons e t ih =>
    obtain ⟨i, w⟩ := e
    simp only [tdel]
    split_ifs with h1 <;> simp only [tget_cons, ih] <;> split_ifs <;> first | rfl | omega

/-- What a table reads after a write: the new entry at its key, and what it was at every other. -/
theorem tget_tset {α : Type} [DecidableEq α] (d : Nat → α) (k : Nat) (v : α) (t : Tbl α) (j : Nat) :
    tget d (tset d k v t) j = if j = k then v else tget d t j := by
  unfold tset
  split_ifs with h1 h2 h2
  · simp [tget_tdel, h1, h2]
  · simp [tget_tdel, h2]
  · simp [tget_tput, h2]
  · simp [tget_tput, h2]

@[simp] theorem tget_tset_same {α : Type} [DecidableEq α] (d : Nat → α) (k : Nat) (v : α) (t : Tbl α) :
    tget d (tset d k v t) k = v := by simp [tget_tset]

theorem tget_tset_ne {α : Type} [DecidableEq α] (d : Nat → α) {k j : Nat} (v : α) (t : Tbl α) (h : j ≠ k) :
    tget d (tset d k v t) j = tget d t j := by simp [tget_tset, h]

/-! ## The canonical form -/

/-- Whether a key lies above a lower bound. -/
def above (lo : Option Nat) (k : Nat) : Prop := ∀ l, lo = some l → l < k

theorem tblWfFrom_cons {α : Type} [DecidableEq α] (d : Nat → α) (lo : Option Nat) (j : Nat) (v : α) (t : Tbl α) :
    tblWfFrom d lo ((j, v) :: t) = true ↔ above lo j ∧ v ≠ d j ∧ tblWfFrom d (some j) t = true := by
  cases lo <;> simp [tblWfFrom, above, and_assoc]

theorem tblWfFrom_weaken {α : Type} [DecidableEq α] (d : Nat → α) {lo lo' : Option Nat}
    (h : ∀ k, above lo k → above lo' k) {t : Tbl α} (ht : tblWfFrom d lo t = true) :
    tblWfFrom d lo' t = true := by
  cases t with
  | nil => rfl
  | cons e t =>
    obtain ⟨j, v⟩ := e
    rw [tblWfFrom_cons] at ht ⊢
    exact ⟨h j ht.1, ht.2⟩

theorem tblWfFrom_tput {α : Type} [DecidableEq α] (d : Nat → α) {k : Nat} {v : α} (hv : v ≠ d k) :
    ∀ (lo : Option Nat) (t : Tbl α), above lo k → tblWfFrom d lo t = true → tblWfFrom d lo (tput k v t) = true := by
  intro lo t
  induction t generalizing lo with
  | nil => intro ha _; simp only [tput]; rw [tblWfFrom_cons]; exact ⟨ha, hv, rfl⟩
  | cons e t ih =>
    obtain ⟨j, w⟩ := e
    intro ha ht
    rw [tblWfFrom_cons] at ht
    simp only [tput]
    split_ifs with h1 h2
    · rw [tblWfFrom_cons, tblWfFrom_cons]
      exact ⟨ha, hv, fun l hl => by cases hl; exact h1, ht.2⟩
    · subst h2
      rw [tblWfFrom_cons]
      exact ⟨ha, hv, ht.2.2⟩
    · rw [tblWfFrom_cons]
      exact ⟨ht.1, ht.2.1, ih (some j) (fun l hl => by cases hl; omega) ht.2.2⟩

theorem tblWfFrom_tdel {α : Type} [DecidableEq α] (d : Nat → α) (k : Nat) :
    ∀ (lo : Option Nat) (t : Tbl α), tblWfFrom d lo t = true → tblWfFrom d lo (tdel k t) = true := by
  intro lo t
  induction t generalizing lo with
  | nil => intro _; rfl
  | cons e t ih =>
    obtain ⟨j, w⟩ := e
    intro ht
    rw [tblWfFrom_cons] at ht
    simp only [tdel]
    split_ifs with h1
    · exact ih lo (tblWfFrom_weaken d (fun i hi l hl => Nat.lt_trans (ht.1 l hl) (hi j rfl)) ht.2.2)
    · rw [tblWfFrom_cons]
      exact ⟨ht.1, ht.2.1, ih (some j) ht.2.2⟩

/-- A write keeps a table canonical. -/
theorem tblWf_tset {α : Type} [DecidableEq α] (d : Nat → α) (k : Nat) (v : α) {t : Tbl α}
    (h : tblWf d t = true) : tblWf d (tset d k v t) = true := by
  unfold tset
  split_ifs with hv
  · exact tblWfFrom_tdel d k none t h
  · exact tblWfFrom_tput d hv none t (fun l hl => by cases hl) h

theorem tblWfFrom_filter {α : Type} [DecidableEq α] (d : Nat → α) (p : Nat × α → Bool) :
    ∀ (lo : Option Nat) (t : Tbl α), tblWfFrom d lo t = true → tblWfFrom d lo (t.filter p) = true := by
  intro lo t
  induction t generalizing lo with
  | nil => intro _; rfl
  | cons e t ih =>
    obtain ⟨j, w⟩ := e
    intro ht
    rw [tblWfFrom_cons] at ht
    rw [List.filter_cons]
    split_ifs
    · rw [tblWfFrom_cons]
      exact ⟨ht.1, ht.2.1, ih (some j) ht.2.2⟩
    · exact ih lo (tblWfFrom_weaken d (fun i hi l hl => Nat.lt_trans (ht.1 l hl) (hi j rfl)) ht.2.2)

/-- Two canonical tables, all keys of the first below all of the second, join to a canonical one. -/
theorem tblWfFrom_append {α : Type} [DecidableEq α] (d : Nat → α) (b : Nat) {u : Tbl α}
    (hu : tblWfFrom d none u = true) (hb : ∀ e ∈ u, b ≤ e.1) :
    ∀ (lo : Option Nat) (t : Tbl α), above lo b → (∀ e ∈ t, e.1 < b) → tblWfFrom d lo t = true →
      tblWfFrom d lo (t ++ u) = true := by
  intro lo t
  induction t generalizing lo with
  | nil =>
    intro ha _ _
    cases u with
    | nil => rfl
    | cons e u =>
      obtain ⟨j, v⟩ := e
      rw [List.nil_append, tblWfFrom_cons]
      rw [tblWfFrom_cons] at hu
      exact ⟨fun l hl => Nat.lt_of_lt_of_le (ha l hl) (hb (j, v) (by simp)), hu.2⟩
  | cons e t ih =>
    obtain ⟨j, w⟩ := e
    intro ha hl ht
    rw [tblWfFrom_cons] at ht
    rw [List.cons_append, tblWfFrom_cons]
    exact ⟨ht.1, ht.2.1,
      ih (some j) (fun l h => by cases h; exact hl (j, w) (by simp)) (fun e he => hl e (by simp [he])) ht.2.2⟩

/-! ## Memory -/

@[simp] theorem Memory.wf_nil : Memory.wf [] = true := rfl

/-- A byte reads back as it was written. -/
@[simp] theorem memByte_memPut_same (m : List Host.Cell) (a : Nat) (v : Byte) : memByte (memPut m a v) a = v := by
  simp [memByte, memPut]

/-- A write of one byte leaves every other byte alone. -/
theorem memByte_memPut_ne (m : List Host.Cell) {a b : Nat} (v : Byte) (h : b ≠ a) :
    memByte (memPut m a v) b = memByte m b := tget_tset_ne _ v m h

/-- What memory reads after a run of bytes has been written. -/
theorem memByte_memWrite (v : Bytes) (m : List Host.Cell) (a b : Nat) :
    memByte (memWrite m a v) b = if a ≤ b ∧ b < a + v.length then v.getD (b - a) 0 else memByte m b := by
  induction v generalizing m a with
  | nil => rw [memWrite, if_neg (by simp)]
  | cons x v ih =>
    rw [memWrite, ih]
    simp only [List.length_cons]
    by_cases h1 : b = a
    · subst h1
      rw [if_neg (by omega), if_pos (by omega)]
      simp
    · by_cases h2 : a + 1 ≤ b ∧ b < a + 1 + v.length
      · rw [if_pos h2, if_pos (by omega)]
        have : b - a = (b - (a + 1)) + 1 := by omega
        rw [this, List.getD_cons_succ]
      · rw [if_neg h2, if_neg (by omega), memByte_memPut_ne _ _ h1]

@[simp] theorem memPut_wf {m : List Host.Cell} (a : Nat) (v : Byte) (h : Memory.wf m = true) :
    Memory.wf (memPut m a v) = true := tblWf_tset _ a v h

@[simp] theorem memWrite_wf (v : Bytes) {m : List Host.Cell} (a : Nat) (h : Memory.wf m = true) :
    Memory.wf (memWrite m a v) = true := by
  induction v generalizing m a with
  | nil => exact h
  | cons x v ih => exact ih (a + 1) (memPut_wf a x h)

@[simp] theorem memClear_wf {m : List Host.Cell} (lo hi : Nat) (h : Memory.wf m = true) :
    Memory.wf (memClear m lo hi) = true := tblWfFrom_filter _ _ none m h

theorem fill_wfFrom (v : Byte) (lo : Nat) :
    ∀ n k, tblWfFrom memDefault (if k = 0 then none else some (lo + k - 1))
      ((List.range' k n).filterMap fun i => if v = memDefault (lo + i) then none else some (lo + i, v)) = true := by
  intro n
  induction n with
  | zero => intro k; rfl
  | succ n ih =>
    intro k
    rw [List.range'_succ, List.filterMap_cons]
    have hk := ih (k + 1)
    simp only [Nat.add_eq_zero_iff, Nat.one_ne_zero, and_false, if_false] at hk
    by_cases hv : v = memDefault (lo + k)
    · rw [if_pos hv]
      refine tblWfFrom_weaken _ ?_ hk
      intro i hi l hl
      have := hi (lo + (k + 1) - 1) rfl
      split_ifs at hl
      cases hl
      omega
    · rw [if_neg hv]
      dsimp only
      rw [tblWfFrom_cons]
      refine ⟨fun l hl => ?_, hv, by simpa using hk⟩
      split_ifs at hl
      cases hl
      omega

@[simp] theorem memFill_wf {m : List Host.Cell} (lo n : Nat) (v : Byte) (h : Memory.wf m = true) :
    Memory.wf (memFill m lo n v) = true := by
  unfold memFill
  have hmid : tblWfFrom memDefault none ((List.range n).filterMap fun i =>
      if v = memDefault (lo + i) then none else some (lo + i, v)) = true := by
    have := fill_wfFrom v lo n 0
    simpa [List.range_eq_range'] using this
  have hmem : ∀ e ∈ ((List.range n).filterMap fun i =>
      if v = memDefault (lo + i) then none else some (lo + i, v)), lo ≤ e.1 ∧ e.1 < lo + n := by
    intro e he
    rw [List.mem_filterMap] at he
    obtain ⟨i, hi, he⟩ := he
    split_ifs at he
    cases he
    rw [List.mem_range] at hi
    exact ⟨by simp, by simpa using hi⟩
  have hhi := tblWfFrom_filter memDefault (fun c : Nat × Byte => decide (lo + n ≤ c.1)) none m h
  have hlo := tblWfFrom_filter memDefault (fun c : Nat × Byte => decide (c.1 < lo)) none m h
  rw [List.append_assoc]
  refine tblWfFrom_append memDefault lo ?_ ?_ none _ (fun l hl => by cases hl) ?_ hlo
  · refine tblWfFrom_append memDefault (lo + n) hhi ?_ none _ (fun l hl => by cases hl) (fun e he => (hmem e he).2) hmid
    intro e he
    simpa using (List.mem_filter.mp he).2
  · intro e he
    rcases List.mem_append.mp he with he | he
    · exact (hmem e he).1
    · have : lo + n ≤ e.1 := by simpa using (List.mem_filter.mp he).2
      omega
  · intro e he
    simpa using (List.mem_filter.mp he).2

/-- A store changes memory at the bytes stored and nowhere else. -/
theorem State.byteAt_store (s : State) (a : Nat) (v : Bytes) (b : Nat) :
    (s.store a v).byteAt b = if a ≤ b ∧ b < a + v.length then v.getD (b - a) 0 else s.byteAt b :=
  memByte_memWrite v s.mem a b

end Sys2Proof.Machine
end

