-- ==== Sys2Proof/Laws/State.lean ====
section
/-! SUPPORT. What every operation on the state leaves unchanged: the base lemmas and the operations of
Machine/Ops.lean, one lemma per operation that names every untouched field, and what a table
entry reads after a write. -/

namespace Sys2Proof.Machine

/-! ## One field of a choice or of a fold -/

@[simp] theorem State.ite_now (c : Prop) [Decidable c] (a b : State) :
    (if c then a else b).now = if c then a.now else b.now := apply_ite State.now c a b
@[simp] theorem State.ite_snd_now {α : Type} (c : Prop) [Decidable c] (a b : α × State) :
    (if c then a else b).2.now = if c then a.2.now else b.2.now := apply_ite (fun x : α × State => x.2.now) c a b
@[simp] theorem State.foldl_now {α : Type} (g : State → α → State) (l : List α) (s : State)
    (h : ∀ s a, (g s a).now = s.now) : (l.foldl g s).now = s.now := by
  induction l generalizing s with
  | nil => rfl
  | cons a l ih => simp only [List.foldl_cons, ih, h]
@[simp] theorem State.foldl_snd_now {α β : Type} (g : β × State → α → β × State) (l : List α) (s : β × State)
    (h : ∀ s a, (g s a).2.now = s.2.now) : (l.foldl g s).2.now = s.2.now := by
  induction l generalizing s with
  | nil => rfl
  | cons a l ih => simp only [List.foldl_cons, ih, h]
@[simp] theorem State.ite_pending (c : Prop) [Decidable c] (a b : State) :
    (if c then a else b).pending = if c then a.pending else b.pending := apply_ite State.pending c a b
@[simp] theorem State.ite_snd_pending {α : Type} (c : Prop) [Decidable c] (a b : α × State) :
    (if c then a else b).2.pending = if c then a.2.pending else b.2.pending := apply_ite (fun x : α × State => x.2.pending) c a b
@[simp] theorem State.foldl_pending {α : Type} (g : State → α → State) (l : List α) (s : State)
    (h : ∀ s a, (g s a).pending = s.pending) : (l.foldl g s).pending = s.pending := by
  induction l generalizing s with
  | nil => rfl
  | cons a l ih => simp only [List.foldl_cons, ih, h]
@[simp] theorem State.foldl_snd_pending {α β : Type} (g : β × State → α → β × State) (l : List α) (s : β × State)
    (h : ∀ s a, (g s a).2.pending = s.2.pending) : (l.foldl g s).2.pending = s.2.pending := by
  induction l generalizing s with
  | nil => rfl
  | cons a l ih => simp only [List.foldl_cons, ih, h]
@[simp] theorem State.ite_tb (c : Prop) [Decidable c] (a b : State) :
    (if c then a else b).tb = if c then a.tb else b.tb := apply_ite State.tb c a b
@[simp] theorem State.ite_snd_tb {α : Type} (c : Prop) [Decidable c] (a b : α × State) :
    (if c then a else b).2.tb = if c then a.2.tb else b.2.tb := apply_ite (fun x : α × State => x.2.tb) c a b
@[simp] theorem State.foldl_tb {α : Type} (g : State → α → State) (l : List α) (s : State)
    (h : ∀ s a, (g s a).tb = s.tb) : (l.foldl g s).tb = s.tb := by
  induction l generalizing s with
  | nil => rfl
  | cons a l ih => simp only [List.foldl_cons, ih, h]
@[simp] theorem State.foldl_snd_tb {α β : Type} (g : β × State → α → β × State) (l : List α) (s : β × State)
    (h : ∀ s a, (g s a).2.tb = s.2.tb) : (l.foldl g s).2.tb = s.2.tb := by
  induction l generalizing s with
  | nil => rfl
  | cons a l ih => simp only [List.foldl_cons, ih, h]
@[simp] theorem State.ite_sheets (c : Prop) [Decidable c] (a b : State) :
    (if c then a else b).sheets = if c then a.sheets else b.sheets := apply_ite State.sheets c a b
@[simp] theorem State.ite_snd_sheets {α : Type} (c : Prop) [Decidable c] (a b : α × State) :
    (if c then a else b).2.sheets = if c then a.2.sheets else b.2.sheets := apply_ite (fun x : α × State => x.2.sheets) c a b
@[simp] theorem State.foldl_sheets {α : Type} (g : State → α → State) (l : List α) (s : State)
    (h : ∀ s a, (g s a).sheets = s.sheets) : (l.foldl g s).sheets = s.sheets := by
  induction l generalizing s with
  | nil => rfl
  | cons a l ih => simp only [List.foldl_cons, ih, h]
@[simp] theorem State.foldl_snd_sheets {α β : Type} (g : β × State → α → β × State) (l : List α) (s : β × State)
    (h : ∀ s a, (g s a).2.sheets = s.2.sheets) : (l.foldl g s).2.sheets = s.2.sheets := by
  induction l generalizing s with
  | nil => rfl
  | cons a l ih => simp only [List.foldl_cons, ih, h]
@[simp] theorem State.ite_units (c : Prop) [Decidable c] (a b : State) :
    (if c then a else b).units = if c then a.units else b.units := apply_ite State.units c a b
@[simp] theorem State.ite_snd_units {α : Type} (c : Prop) [Decidable c] (a b : α × State) :
    (if c then a else b).2.units = if c then a.2.units else b.2.units := apply_ite (fun x : α × State => x.2.units) c a b
@[simp] theorem State.foldl_units {α : Type} (g : State → α → State) (l : List α) (s : State)
    (h : ∀ s a, (g s a).units = s.units) : (l.foldl g s).units = s.units := by
  induction l generalizing s with
  | nil => rfl
  | cons a l ih => simp only [List.foldl_cons, ih, h]
@[simp] theorem State.foldl_snd_units {α β : Type} (g : β × State → α → β × State) (l : List α) (s : β × State)
    (h : ∀ s a, (g s a).2.units = s.2.units) : (l.foldl g s).2.units = s.2.units := by
  induction l generalizing s with
  | nil => rfl
  | cons a l ih => simp only [List.foldl_cons, ih, h]
@[simp] theorem State.ite_pins (c : Prop) [Decidable c] (a b : State) :
    (if c then a else b).pins = if c then a.pins else b.pins := apply_ite State.pins c a b
@[simp] theorem State.ite_snd_pins {α : Type} (c : Prop) [Decidable c] (a b : α × State) :
    (if c then a else b).2.pins = if c then a.2.pins else b.2.pins := apply_ite (fun x : α × State => x.2.pins) c a b
@[simp] theorem State.foldl_pins {α : Type} (g : State → α → State) (l : List α) (s : State)
    (h : ∀ s a, (g s a).pins = s.pins) : (l.foldl g s).pins = s.pins := by
  induction l generalizing s with
  | nil => rfl
  | cons a l ih => simp only [List.foldl_cons, ih, h]
@[simp] theorem State.foldl_snd_pins {α β : Type} (g : β × State → α → β × State) (l : List α) (s : β × State)
    (h : ∀ s a, (g s a).2.pins = s.2.pins) : (l.foldl g s).2.pins = s.2.pins := by
  induction l generalizing s with
  | nil => rfl
  | cons a l ih => simp only [List.foldl_cons, ih, h]
@[simp] theorem State.ite_pk (c : Prop) [Decidable c] (a b : State) :
    (if c then a else b).pk = if c then a.pk else b.pk := apply_ite State.pk c a b
@[simp] theorem State.ite_snd_pk {α : Type} (c : Prop) [Decidable c] (a b : α × State) :
    (if c then a else b).2.pk = if c then a.2.pk else b.2.pk := apply_ite (fun x : α × State => x.2.pk) c a b
@[simp] theorem State.foldl_pk {α : Type} (g : State → α → State) (l : List α) (s : State)
    (h : ∀ s a, (g s a).pk = s.pk) : (l.foldl g s).pk = s.pk := by
  induction l generalizing s with
  | nil => rfl
  | cons a l ih => simp only [List.foldl_cons, ih, h]
@[simp] theorem State.foldl_snd_pk {α β : Type} (g : β × State → α → β × State) (l : List α) (s : β × State)
    (h : ∀ s a, (g s a).2.pk = s.2.pk) : (l.foldl g s).2.pk = s.2.pk := by
  induction l generalizing s with
  | nil => rfl
  | cons a l ih => simp only [List.foldl_cons, ih, h]
@[simp] theorem State.ite_queues (c : Prop) [Decidable c] (a b : State) :
    (if c then a else b).queues = if c then a.queues else b.queues := apply_ite State.queues c a b
@[simp] theorem State.ite_snd_queues {α : Type} (c : Prop) [Decidable c] (a b : α × State) :
    (if c then a else b).2.queues = if c then a.2.queues else b.2.queues := apply_ite (fun x : α × State => x.2.queues) c a b
@[simp] theorem State.foldl_queues {α : Type} (g : State → α → State) (l : List α) (s : State)
    (h : ∀ s a, (g s a).queues = s.queues) : (l.foldl g s).queues = s.queues := by
  induction l generalizing s with
  | nil => rfl
  | cons a l ih => simp only [List.foldl_cons, ih, h]
@[simp] theorem State.foldl_snd_queues {α β : Type} (g : β × State → α → β × State) (l : List α) (s : β × State)
    (h : ∀ s a, (g s a).2.queues = s.2.queues) : (l.foldl g s).2.queues = s.2.queues := by
  induction l generalizing s with
  | nil => rfl
  | cons a l ih => simp only [List.foldl_cons, ih, h]
@[simp] theorem State.ite_latches (c : Prop) [Decidable c] (a b : State) :
    (if c then a else b).latches = if c then a.latches else b.latches := apply_ite State.latches c a b
@[simp] theorem State.ite_snd_latches {α : Type} (c : Prop) [Decidable c] (a b : α × State) :
    (if c then a else b).2.latches = if c then a.2.latches else b.2.latches := apply_ite (fun x : α × State => x.2.latches) c a b
@[simp] theorem State.foldl_latches {α : Type} (g : State → α → State) (l : List α) (s : State)
    (h : ∀ s a, (g s a).latches = s.latches) : (l.foldl g s).latches = s.latches := by
  induction l generalizing s with
  | nil => rfl
  | cons a l ih => simp only [List.foldl_cons, ih, h]
@[simp] theorem State.foldl_snd_latches {α β : Type} (g : β × State → α → β × State) (l : List α) (s : β × State)
    (h : ∀ s a, (g s a).2.latches = s.2.latches) : (l.foldl g s).2.latches = s.2.latches := by
  induction l generalizing s with
  | nil => rfl
  | cons a l ih => simp only [List.foldl_cons, ih, h]
@[simp] theorem State.ite_errw (c : Prop) [Decidable c] (a b : State) :
    (if c then a else b).errw = if c then a.errw else b.errw := apply_ite State.errw c a b
@[simp] theorem State.ite_snd_errw {α : Type} (c : Prop) [Decidable c] (a b : α × State) :
    (if c then a else b).2.errw = if c then a.2.errw else b.2.errw := apply_ite (fun x : α × State => x.2.errw) c a b
@[simp] theorem State.foldl_errw {α : Type} (g : State → α → State) (l : List α) (s : State)
    (h : ∀ s a, (g s a).errw = s.errw) : (l.foldl g s).errw = s.errw := by
  induction l generalizing s with
  | nil => rfl
  | cons a l ih => simp only [List.foldl_cons, ih, h]
@[simp] theorem State.foldl_snd_errw {α β : Type} (g : β × State → α → β × State) (l : List α) (s : β × State)
    (h : ∀ s a, (g s a).2.errw = s.2.errw) : (l.foldl g s).2.errw = s.2.errw := by
  induction l generalizing s with
  | nil => rfl
  | cons a l ih => simp only [List.foldl_cons, ih, h]
@[simp] theorem State.ite_sdio (c : Prop) [Decidable c] (a b : State) :
    (if c then a else b).sdio = if c then a.sdio else b.sdio := apply_ite State.sdio c a b
@[simp] theorem State.ite_snd_sdio {α : Type} (c : Prop) [Decidable c] (a b : α × State) :
    (if c then a else b).2.sdio = if c then a.2.sdio else b.2.sdio := apply_ite (fun x : α × State => x.2.sdio) c a b
@[simp] theorem State.foldl_sdio {α : Type} (g : State → α → State) (l : List α) (s : State)
    (h : ∀ s a, (g s a).sdio = s.sdio) : (l.foldl g s).sdio = s.sdio := by
  induction l generalizing s with
  | nil => rfl
  | cons a l ih => simp only [List.foldl_cons, ih, h]
@[simp] theorem State.foldl_snd_sdio {α β : Type} (g : β × State → α → β × State) (l : List α) (s : β × State)
    (h : ∀ s a, (g s a).2.sdio = s.2.sdio) : (l.foldl g s).2.sdio = s.2.sdio := by
  induction l generalizing s with
  | nil => rfl
  | cons a l ih => simp only [List.foldl_cons, ih, h]
@[simp] theorem State.ite_bulk (c : Prop) [Decidable c] (a b : State) :
    (if c then a else b).bulk = if c then a.bulk else b.bulk := apply_ite State.bulk c a b
@[simp] theorem State.ite_snd_bulk {α : Type} (c : Prop) [Decidable c] (a b : α × State) :
    (if c then a else b).2.bulk = if c then a.2.bulk else b.2.bulk := apply_ite (fun x : α × State => x.2.bulk) c a b
@[simp] theorem State.foldl_bulk {α : Type} (g : State → α → State) (l : List α) (s : State)
    (h : ∀ s a, (g s a).bulk = s.bulk) : (l.foldl g s).bulk = s.bulk := by
  induction l generalizing s with
  | nil => rfl
  | cons a l ih => simp only [List.foldl_cons, ih, h]
@[simp] theorem State.foldl_snd_bulk {α β : Type} (g : β × State → α → β × State) (l : List α) (s : β × State)
    (h : ∀ s a, (g s a).2.bulk = s.2.bulk) : (l.foldl g s).2.bulk = s.2.bulk := by
  induction l generalizing s with
  | nil => rfl
  | cons a l ih => simp only [List.foldl_cons, ih, h]
@[simp] theorem State.ite_mgmt (c : Prop) [Decidable c] (a b : State) :
    (if c then a else b).mgmt = if c then a.mgmt else b.mgmt := apply_ite State.mgmt c a b
@[simp] theorem State.ite_snd_mgmt {α : Type} (c : Prop) [Decidable c] (a b : α × State) :
    (if c then a else b).2.mgmt = if c then a.2.mgmt else b.2.mgmt := apply_ite (fun x : α × State => x.2.mgmt) c a b
@[simp] theorem State.foldl_mgmt {α : Type} (g : State → α → State) (l : List α) (s : State)
    (h : ∀ s a, (g s a).mgmt = s.mgmt) : (l.foldl g s).mgmt = s.mgmt := by
  induction l generalizing s with
  | nil => rfl
  | cons a l ih => simp only [List.foldl_cons, ih, h]
@[simp] theorem State.foldl_snd_mgmt {α β : Type} (g : β × State → α → β × State) (l : List α) (s : β × State)
    (h : ∀ s a, (g s a).2.mgmt = s.2.mgmt) : (l.foldl g s).2.mgmt = s.2.mgmt := by
  induction l generalizing s with
  | nil => rfl
  | cons a l ih => simp only [List.foldl_cons, ih, h]
@[simp] theorem State.ite_power (c : Prop) [Decidable c] (a b : State) :
    (if c then a else b).power = if c then a.power else b.power := apply_ite State.power c a b
@[simp] theorem State.ite_snd_power {α : Type} (c : Prop) [Decidable c] (a b : α × State) :
    (if c then a else b).2.power = if c then a.2.power else b.2.power := apply_ite (fun x : α × State => x.2.power) c a b
@[simp] theorem State.foldl_power {α : Type} (g : State → α → State) (l : List α) (s : State)
    (h : ∀ s a, (g s a).power = s.power) : (l.foldl g s).power = s.power := by
  induction l generalizing s with
  | nil => rfl
  | cons a l ih => simp only [List.foldl_cons, ih, h]
@[simp] theorem State.foldl_snd_power {α β : Type} (g : β × State → α → β × State) (l : List α) (s : β × State)
    (h : ∀ s a, (g s a).2.power = s.2.power) : (l.foldl g s).2.power = s.2.power := by
  induction l generalizing s with
  | nil => rfl
  | cons a l ih => simp only [List.foldl_cons, ih, h]
@[simp] theorem State.ite_sec (c : Prop) [Decidable c] (a b : State) :
    (if c then a else b).sec = if c then a.sec else b.sec := apply_ite State.sec c a b
@[simp] theorem State.ite_snd_sec {α : Type} (c : Prop) [Decidable c] (a b : α × State) :
    (if c then a else b).2.sec = if c then a.2.sec else b.2.sec := apply_ite (fun x : α × State => x.2.sec) c a b
@[simp] theorem State.foldl_sec {α : Type} (g : State → α → State) (l : List α) (s : State)
    (h : ∀ s a, (g s a).sec = s.sec) : (l.foldl g s).sec = s.sec := by
  induction l generalizing s with
  | nil => rfl
  | cons a l ih => simp only [List.foldl_cons, ih, h]
@[simp] theorem State.foldl_snd_sec {α β : Type} (g : β × State → α → β × State) (l : List α) (s : β × State)
    (h : ∀ s a, (g s a).2.sec = s.2.sec) : (l.foldl g s).2.sec = s.2.sec := by
  induction l generalizing s with
  | nil => rfl
  | cons a l ih => simp only [List.foldl_cons, ih, h]
@[simp] theorem State.ite_therm (c : Prop) [Decidable c] (a b : State) :
    (if c then a else b).therm = if c then a.therm else b.therm := apply_ite State.therm c a b
@[simp] theorem State.ite_snd_therm {α : Type} (c : Prop) [Decidable c] (a b : α × State) :
    (if c then a else b).2.therm = if c then a.2.therm else b.2.therm := apply_ite (fun x : α × State => x.2.therm) c a b
@[simp] theorem State.foldl_therm {α : Type} (g : State → α → State) (l : List α) (s : State)
    (h : ∀ s a, (g s a).therm = s.therm) : (l.foldl g s).therm = s.therm := by
  induction l generalizing s with
  | nil => rfl
  | cons a l ih => simp only [List.foldl_cons, ih, h]
@[simp] theorem State.foldl_snd_therm {α β : Type} (g : β × State → α → β × State) (l : List α) (s : β × State)
    (h : ∀ s a, (g s a).2.therm = s.2.therm) : (l.foldl g s).2.therm = s.2.therm := by
  induction l generalizing s with
  | nil => rfl
  | cons a l ih => simp only [List.foldl_cons, ih, h]
@[simp] theorem State.ite_ports (c : Prop) [Decidable c] (a b : State) :
    (if c then a else b).ports = if c then a.ports else b.ports := apply_ite State.ports c a b
@[simp] theorem State.ite_snd_ports {α : Type} (c : Prop) [Decidable c] (a b : α × State) :
    (if c then a else b).2.ports = if c then a.2.ports else b.2.ports := apply_ite (fun x : α × State => x.2.ports) c a b
@[simp] theorem State.foldl_ports {α : Type} (g : State → α → State) (l : List α) (s : State)
    (h : ∀ s a, (g s a).ports = s.ports) : (l.foldl g s).ports = s.ports := by
  induction l generalizing s with
  | nil => rfl
  | cons a l ih => simp only [List.foldl_cons, ih, h]
@[simp] theorem State.foldl_snd_ports {α β : Type} (g : β × State → α → β × State) (l : List α) (s : β × State)
    (h : ∀ s a, (g s a).2.ports = s.2.ports) : (l.foldl g s).2.ports = s.2.ports := by
  induction l generalizing s with
  | nil => rfl
  | cons a l ih => simp only [List.foldl_cons, ih, h]
@[simp] theorem State.ite_streams (c : Prop) [Decidable c] (a b : State) :
    (if c then a else b).streams = if c then a.streams else b.streams := apply_ite State.streams c a b
@[simp] theorem State.ite_snd_streams {α : Type} (c : Prop) [Decidable c] (a b : α × State) :
    (if c then a else b).2.streams = if c then a.2.streams else b.2.streams := apply_ite (fun x : α × State => x.2.streams) c a b
@[simp] theorem State.foldl_streams {α : Type} (g : State → α → State) (l : List α) (s : State)
    (h : ∀ s a, (g s a).streams = s.streams) : (l.foldl g s).streams = s.streams := by
  induction l generalizing s with
  | nil => rfl
  | cons a l ih => simp only [List.foldl_cons, ih, h]
@[simp] theorem State.foldl_snd_streams {α β : Type} (g : β × State → α → β × State) (l : List α) (s : β × State)
    (h : ∀ s a, (g s a).2.streams = s.2.streams) : (l.foldl g s).2.streams = s.2.streams := by
  induction l generalizing s with
  | nil => rfl
  | cons a l ih => simp only [List.foldl_cons, ih, h]
@[simp] theorem State.ite_services (c : Prop) [Decidable c] (a b : State) :
    (if c then a else b).services = if c then a.services else b.services := apply_ite State.services c a b
@[simp] theorem State.ite_snd_services {α : Type} (c : Prop) [Decidable c] (a b : α × State) :
    (if c then a else b).2.services = if c then a.2.services else b.2.services := apply_ite (fun x : α × State => x.2.services) c a b
@[simp] theorem State.foldl_services {α : Type} (g : State → α → State) (l : List α) (s : State)
    (h : ∀ s a, (g s a).services = s.services) : (l.foldl g s).services = s.services := by
  induction l generalizing s with
  | nil => rfl
  | cons a l ih => simp only [List.foldl_cons, ih, h]
@[simp] theorem State.foldl_snd_services {α β : Type} (g : β × State → α → β × State) (l : List α) (s : β × State)
    (h : ∀ s a, (g s a).2.services = s.2.services) : (l.foldl g s).2.services = s.2.services := by
  induction l generalizing s with
  | nil => rfl
  | cons a l ih => simp only [List.foldl_cons, ih, h]
@[simp] theorem State.ite_ptpPorts (c : Prop) [Decidable c] (a b : State) :
    (if c then a else b).ptpPorts = if c then a.ptpPorts else b.ptpPorts := apply_ite State.ptpPorts c a b
@[simp] theorem State.ite_snd_ptpPorts {α : Type} (c : Prop) [Decidable c] (a b : α × State) :
    (if c then a else b).2.ptpPorts = if c then a.2.ptpPorts else b.2.ptpPorts := apply_ite (fun x : α × State => x.2.ptpPorts) c a b
@[simp] theorem State.foldl_ptpPorts {α : Type} (g : State → α → State) (l : List α) (s : State)
    (h : ∀ s a, (g s a).ptpPorts = s.ptpPorts) : (l.foldl g s).ptpPorts = s.ptpPorts := by
  induction l generalizing s with
  | nil => rfl
  | cons a l ih => simp only [List.foldl_cons, ih, h]
@[simp] theorem State.foldl_snd_ptpPorts {α β : Type} (g : β × State → α → β × State) (l : List α) (s : β × State)
    (h : ∀ s a, (g s a).2.ptpPorts = s.2.ptpPorts) : (l.foldl g s).2.ptpPorts = s.2.ptpPorts := by
  induction l generalizing s with
  | nil => rfl
  | cons a l ih => simp only [List.foldl_cons, ih, h]
@[simp] theorem State.ite_ptp (c : Prop) [Decidable c] (a b : State) :
    (if c then a else b).ptp = if c then a.ptp else b.ptp := apply_ite State.ptp c a b
@[simp] theorem State.ite_snd_ptp {α : Type} (c : Prop) [Decidable c] (a b : α × State) :
    (if c then a else b).2.ptp = if c then a.2.ptp else b.2.ptp := apply_ite (fun x : α × State => x.2.ptp) c a b
@[simp] theorem State.foldl_ptp {α : Type} (g : State → α → State) (l : List α) (s : State)
    (h : ∀ s a, (g s a).ptp = s.ptp) : (l.foldl g s).ptp = s.ptp := by
  induction l generalizing s with
  | nil => rfl
  | cons a l ih => simp only [List.foldl_cons, ih, h]
@[simp] theorem State.foldl_snd_ptp {α β : Type} (g : β × State → α → β × State) (l : List α) (s : β × State)
    (h : ∀ s a, (g s a).2.ptp = s.2.ptp) : (l.foldl g s).2.ptp = s.2.ptp := by
  induction l generalizing s with
  | nil => rfl
  | cons a l ih => simp only [List.foldl_cons, ih, h]
@[simp] theorem State.ite_chans (c : Prop) [Decidable c] (a b : State) :
    (if c then a else b).chans = if c then a.chans else b.chans := apply_ite State.chans c a b
@[simp] theorem State.ite_snd_chans {α : Type} (c : Prop) [Decidable c] (a b : α × State) :
    (if c then a else b).2.chans = if c then a.2.chans else b.2.chans := apply_ite (fun x : α × State => x.2.chans) c a b
@[simp] theorem State.foldl_chans {α : Type} (g : State → α → State) (l : List α) (s : State)
    (h : ∀ s a, (g s a).chans = s.chans) : (l.foldl g s).chans = s.chans := by
  induction l generalizing s with
  | nil => rfl
  | cons a l ih => simp only [List.foldl_cons, ih, h]
@[simp] theorem State.foldl_snd_chans {α β : Type} (g : β × State → α → β × State) (l : List α) (s : β × State)
    (h : ∀ s a, (g s a).2.chans = s.2.chans) : (l.foldl g s).2.chans = s.2.chans := by
  induction l generalizing s with
  | nil => rfl
  | cons a l ih => simp only [List.foldl_cons, ih, h]
@[simp] theorem State.ite_seqs (c : Prop) [Decidable c] (a b : State) :
    (if c then a else b).seqs = if c then a.seqs else b.seqs := apply_ite State.seqs c a b
@[simp] theorem State.ite_snd_seqs {α : Type} (c : Prop) [Decidable c] (a b : α × State) :
    (if c then a else b).2.seqs = if c then a.2.seqs else b.2.seqs := apply_ite (fun x : α × State => x.2.seqs) c a b
@[simp] theorem State.foldl_seqs {α : Type} (g : State → α → State) (l : List α) (s : State)
    (h : ∀ s a, (g s a).seqs = s.seqs) : (l.foldl g s).seqs = s.seqs := by
  induction l generalizing s with
  | nil => rfl
  | cons a l ih => simp only [List.foldl_cons, ih, h]
@[simp] theorem State.foldl_snd_seqs {α β : Type} (g : β × State → α → β × State) (l : List α) (s : β × State)
    (h : ∀ s a, (g s a).2.seqs = s.2.seqs) : (l.foldl g s).2.seqs = s.2.seqs := by
  induction l generalizing s with
  | nil => rfl
  | cons a l ih => simp only [List.foldl_cons, ih, h]
@[simp] theorem State.ite_hc (c : Prop) [Decidable c] (a b : State) :
    (if c then a else b).hc = if c then a.hc else b.hc := apply_ite State.hc c a b
@[simp] theorem State.ite_snd_hc {α : Type} (c : Prop) [Decidable c] (a b : α × State) :
    (if c then a else b).2.hc = if c then a.2.hc else b.2.hc := apply_ite (fun x : α × State => x.2.hc) c a b
@[simp] theorem State.foldl_hc {α : Type} (g : State → α → State) (l : List α) (s : State)
    (h : ∀ s a, (g s a).hc = s.hc) : (l.foldl g s).hc = s.hc := by
  induction l generalizing s with
  | nil => rfl
  | cons a l ih => simp only [List.foldl_cons, ih, h]
@[simp] theorem State.foldl_snd_hc {α β : Type} (g : β × State → α → β × State) (l : List α) (s : β × State)
    (h : ∀ s a, (g s a).2.hc = s.2.hc) : (l.foldl g s).2.hc = s.2.hc := by
  induction l generalizing s with
  | nil => rfl
  | cons a l ih => simp only [List.foldl_cons, ih, h]
@[simp] theorem State.ite_trim (c : Prop) [Decidable c] (a b : State) :
    (if c then a else b).trim = if c then a.trim else b.trim := apply_ite State.trim c a b
@[simp] theorem State.ite_snd_trim {α : Type} (c : Prop) [Decidable c] (a b : α × State) :
    (if c then a else b).2.trim = if c then a.2.trim else b.2.trim := apply_ite (fun x : α × State => x.2.trim) c a b
@[simp] theorem State.foldl_trim {α : Type} (g : State → α → State) (l : List α) (s : State)
    (h : ∀ s a, (g s a).trim = s.trim) : (l.foldl g s).trim = s.trim := by
  induction l generalizing s with
  | nil => rfl
  | cons a l ih => simp only [List.foldl_cons, ih, h]
@[simp] theorem State.foldl_snd_trim {α β : Type} (g : β × State → α → β × State) (l : List α) (s : β × State)
    (h : ∀ s a, (g s a).2.trim = s.2.trim) : (l.foldl g s).2.trim = s.2.trim := by
  induction l generalizing s with
  | nil => rfl
  | cons a l ih => simp only [List.foldl_cons, ih, h]
@[simp] theorem State.ite_bundles (c : Prop) [Decidable c] (a b : State) :
    (if c then a else b).bundles = if c then a.bundles else b.bundles := apply_ite State.bundles c a b
@[simp] theorem State.ite_snd_bundles {α : Type} (c : Prop) [Decidable c] (a b : α × State) :
    (if c then a else b).2.bundles = if c then a.2.bundles else b.2.bundles := apply_ite (fun x : α × State => x.2.bundles) c a b
@[simp] theorem State.foldl_bundles {α : Type} (g : State → α → State) (l : List α) (s : State)
    (h : ∀ s a, (g s a).bundles = s.bundles) : (l.foldl g s).bundles = s.bundles := by
  induction l generalizing s with
  | nil => rfl
  | cons a l ih => simp only [List.foldl_cons, ih, h]
@[simp] theorem State.foldl_snd_bundles {α β : Type} (g : β × State → α → β × State) (l : List α) (s : β × State)
    (h : ∀ s a, (g s a).2.bundles = s.2.bundles) : (l.foldl g s).2.bundles = s.2.bundles := by
  induction l generalizing s with
  | nil => rfl
  | cons a l ih => simp only [List.foldl_cons, ih, h]
@[simp] theorem State.ite_slots (c : Prop) [Decidable c] (a b : State) :
    (if c then a else b).slots = if c then a.slots else b.slots := apply_ite State.slots c a b
@[simp] theorem State.ite_snd_slots {α : Type} (c : Prop) [Decidable c] (a b : α × State) :
    (if c then a else b).2.slots = if c then a.2.slots else b.2.slots := apply_ite (fun x : α × State => x.2.slots) c a b
@[simp] theorem State.foldl_slots {α : Type} (g : State → α → State) (l : List α) (s : State)
    (h : ∀ s a, (g s a).slots = s.slots) : (l.foldl g s).slots = s.slots := by
  induction l generalizing s with
  | nil => rfl
  | cons a l ih => simp only [List.foldl_cons, ih, h]
@[simp] theorem State.foldl_snd_slots {α β : Type} (g : β × State → α → β × State) (l : List α) (s : β × State)
    (h : ∀ s a, (g s a).2.slots = s.2.slots) : (l.foldl g s).2.slots = s.2.slots := by
  induction l generalizing s with
  | nil => rfl
  | cons a l ih => simp only [List.foldl_cons, ih, h]
@[simp] theorem State.ite_wt (c : Prop) [Decidable c] (a b : State) :
    (if c then a else b).wt = if c then a.wt else b.wt := apply_ite State.wt c a b
@[simp] theorem State.ite_snd_wt {α : Type} (c : Prop) [Decidable c] (a b : α × State) :
    (if c then a else b).2.wt = if c then a.2.wt else b.2.wt := apply_ite (fun x : α × State => x.2.wt) c a b
@[simp] theorem State.foldl_wt {α : Type} (g : State → α → State) (l : List α) (s : State)
    (h : ∀ s a, (g s a).wt = s.wt) : (l.foldl g s).wt = s.wt := by
  induction l generalizing s with
  | nil => rfl
  | cons a l ih => simp only [List.foldl_cons, ih, h]
@[simp] theorem State.foldl_snd_wt {α β : Type} (g : β × State → α → β × State) (l : List α) (s : β × State)
    (h : ∀ s a, (g s a).2.wt = s.2.wt) : (l.foldl g s).2.wt = s.2.wt := by
  induction l generalizing s with
  | nil => rfl
  | cons a l ih => simp only [List.foldl_cons, ih, h]
@[simp] theorem State.ite_mem (c : Prop) [Decidable c] (a b : State) :
    (if c then a else b).mem = if c then a.mem else b.mem := apply_ite State.mem c a b
@[simp] theorem State.ite_snd_mem {α : Type} (c : Prop) [Decidable c] (a b : α × State) :
    (if c then a else b).2.mem = if c then a.2.mem else b.2.mem := apply_ite (fun x : α × State => x.2.mem) c a b
@[simp] theorem State.foldl_mem {α : Type} (g : State → α → State) (l : List α) (s : State)
    (h : ∀ s a, (g s a).mem = s.mem) : (l.foldl g s).mem = s.mem := by
  induction l generalizing s with
  | nil => rfl
  | cons a l ih => simp only [List.foldl_cons, ih, h]
@[simp] theorem State.foldl_snd_mem {α β : Type} (g : β × State → α → β × State) (l : List α) (s : β × State)
    (h : ∀ s a, (g s a).2.mem = s.2.mem) : (l.foldl g s).2.mem = s.2.mem := by
  induction l generalizing s with
  | nil => rfl
  | cons a l ih => simp only [List.foldl_cons, ih, h]
@[simp] theorem State.ite_fwMem (c : Prop) [Decidable c] (a b : State) :
    (if c then a else b).fwMem = if c then a.fwMem else b.fwMem := apply_ite State.fwMem c a b
@[simp] theorem State.ite_snd_fwMem {α : Type} (c : Prop) [Decidable c] (a b : α × State) :
    (if c then a else b).2.fwMem = if c then a.2.fwMem else b.2.fwMem := apply_ite (fun x : α × State => x.2.fwMem) c a b
@[simp] theorem State.foldl_fwMem {α : Type} (g : State → α → State) (l : List α) (s : State)
    (h : ∀ s a, (g s a).fwMem = s.fwMem) : (l.foldl g s).fwMem = s.fwMem := by
  induction l generalizing s with
  | nil => rfl
  | cons a l ih => simp only [List.foldl_cons, ih, h]
@[simp] theorem State.foldl_snd_fwMem {α β : Type} (g : β × State → α → β × State) (l : List α) (s : β × State)
    (h : ∀ s a, (g s a).2.fwMem = s.2.fwMem) : (l.foldl g s).2.fwMem = s.2.fwMem := by
  induction l generalizing s with
  | nil => rfl
  | cons a l ih => simp only [List.foldl_cons, ih, h]
@[simp] theorem State.ite_ms (c : Prop) [Decidable c] (a b : State) :
    (if c then a else b).ms = if c then a.ms else b.ms := apply_ite State.ms c a b
@[simp] theorem State.ite_snd_ms {α : Type} (c : Prop) [Decidable c] (a b : α × State) :
    (if c then a else b).2.ms = if c then a.2.ms else b.2.ms := apply_ite (fun x : α × State => x.2.ms) c a b
@[simp] theorem State.foldl_ms {α : Type} (g : State → α → State) (l : List α) (s : State)
    (h : ∀ s a, (g s a).ms = s.ms) : (l.foldl g s).ms = s.ms := by
  induction l generalizing s with
  | nil => rfl
  | cons a l ih => simp only [List.foldl_cons, ih, h]
@[simp] theorem State.foldl_snd_ms {α β : Type} (g : β × State → α → β × State) (l : List α) (s : β × State)
    (h : ∀ s a, (g s a).2.ms = s.2.ms) : (l.foldl g s).2.ms = s.2.ms := by
  induction l generalizing s with
  | nil => rfl
  | cons a l ih => simp only [List.foldl_cons, ih, h]
@[simp] theorem State.ite_pricks (c : Prop) [Decidable c] (a b : State) :
    (if c then a else b).pricks = if c then a.pricks else b.pricks := apply_ite State.pricks c a b
@[simp] theorem State.ite_snd_pricks {α : Type} (c : Prop) [Decidable c] (a b : α × State) :
    (if c then a else b).2.pricks = if c then a.2.pricks else b.2.pricks := apply_ite (fun x : α × State => x.2.pricks) c a b
@[simp] theorem State.foldl_pricks {α : Type} (g : State → α → State) (l : List α) (s : State)
    (h : ∀ s a, (g s a).pricks = s.pricks) : (l.foldl g s).pricks = s.pricks := by
  induction l generalizing s with
  | nil => rfl
  | cons a l ih => simp only [List.foldl_cons, ih, h]
@[simp] theorem State.foldl_snd_pricks {α β : Type} (g : β × State → α → β × State) (l : List α) (s : β × State)
    (h : ∀ s a, (g s a).2.pricks = s.2.pricks) : (l.foldl g s).2.pricks = s.2.pricks := by
  induction l generalizing s with
  | nil => rfl
  | cons a l ih => simp only [List.foldl_cons, ih, h]
@[simp] theorem State.ite_templates (c : Prop) [Decidable c] (a b : State) :
    (if c then a else b).templates = if c then a.templates else b.templates := apply_ite State.templates c a b
@[simp] theorem State.ite_snd_templates {α : Type} (c : Prop) [Decidable c] (a b : α × State) :
    (if c then a else b).2.templates = if c then a.2.templates else b.2.templates := apply_ite (fun x : α × State => x.2.templates) c a b
@[simp] theorem State.foldl_templates {α : Type} (g : State → α → State) (l : List α) (s : State)
    (h : ∀ s a, (g s a).templates = s.templates) : (l.foldl g s).templates = s.templates := by
  induction l generalizing s with
  | nil => rfl
  | cons a l ih => simp only [List.foldl_cons, ih, h]
@[simp] theorem State.foldl_snd_templates {α β : Type} (g : β × State → α → β × State) (l : List α) (s : β × State)
    (h : ∀ s a, (g s a).2.templates = s.2.templates) : (l.foldl g s).2.templates = s.2.templates := by
  induction l generalizing s with
  | nil => rfl
  | cons a l ih => simp only [List.foldl_cons, ih, h]
@[simp] theorem State.ite_jobs (c : Prop) [Decidable c] (a b : State) :
    (if c then a else b).jobs = if c then a.jobs else b.jobs := apply_ite State.jobs c a b
@[simp] theorem State.ite_snd_jobs {α : Type} (c : Prop) [Decidable c] (a b : α × State) :
    (if c then a else b).2.jobs = if c then a.2.jobs else b.2.jobs := apply_ite (fun x : α × State => x.2.jobs) c a b
@[simp] theorem State.foldl_jobs {α : Type} (g : State → α → State) (l : List α) (s : State)
    (h : ∀ s a, (g s a).jobs = s.jobs) : (l.foldl g s).jobs = s.jobs := by
  induction l generalizing s with
  | nil => rfl
  | cons a l ih => simp only [List.foldl_cons, ih, h]
@[simp] theorem State.foldl_snd_jobs {α β : Type} (g : β × State → α → β × State) (l : List α) (s : β × State)
    (h : ∀ s a, (g s a).2.jobs = s.2.jobs) : (l.foldl g s).2.jobs = s.2.jobs := by
  induction l generalizing s with
  | nil => rfl
  | cons a l ih => simp only [List.foldl_cons, ih, h]
@[simp] theorem State.ite_order (c : Prop) [Decidable c] (a b : State) :
    (if c then a else b).order = if c then a.order else b.order := apply_ite State.order c a b
@[simp] theorem State.ite_snd_order {α : Type} (c : Prop) [Decidable c] (a b : α × State) :
    (if c then a else b).2.order = if c then a.2.order else b.2.order := apply_ite (fun x : α × State => x.2.order) c a b
@[simp] theorem State.foldl_order {α : Type} (g : State → α → State) (l : List α) (s : State)
    (h : ∀ s a, (g s a).order = s.order) : (l.foldl g s).order = s.order := by
  induction l generalizing s with
  | nil => rfl
  | cons a l ih => simp only [List.foldl_cons, ih, h]
@[simp] theorem State.foldl_snd_order {α β : Type} (g : β × State → α → β × State) (l : List α) (s : β × State)
    (h : ∀ s a, (g s a).2.order = s.2.order) : (l.foldl g s).2.order = s.2.order := by
  induction l generalizing s with
  | nil => rfl
  | cons a l ih => simp only [List.foldl_cons, ih, h]
@[simp] theorem State.ite_pillows (c : Prop) [Decidable c] (a b : State) :
    (if c then a else b).pillows = if c then a.pillows else b.pillows := apply_ite State.pillows c a b
@[simp] theorem State.ite_snd_pillows {α : Type} (c : Prop) [Decidable c] (a b : α × State) :
    (if c then a else b).2.pillows = if c then a.2.pillows else b.2.pillows := apply_ite (fun x : α × State => x.2.pillows) c a b
@[simp] theorem State.foldl_pillows {α : Type} (g : State → α → State) (l : List α) (s : State)
    (h : ∀ s a, (g s a).pillows = s.pillows) : (l.foldl g s).pillows = s.pillows := by
  induction l generalizing s with
  | nil => rfl
  | cons a l ih => simp only [List.foldl_cons, ih, h]
@[simp] theorem State.foldl_snd_pillows {α β : Type} (g : β × State → α → β × State) (l : List α) (s : β × State)
    (h : ∀ s a, (g s a).2.pillows = s.2.pillows) : (l.foldl g s).2.pillows = s.2.pillows := by
  induction l generalizing s with
  | nil => rfl
  | cons a l ih => simp only [List.foldl_cons, ih, h]
@[simp] theorem State.ite_free (c : Prop) [Decidable c] (a b : State) :
    (if c then a else b).free = if c then a.free else b.free := apply_ite State.free c a b
@[simp] theorem State.ite_snd_free {α : Type} (c : Prop) [Decidable c] (a b : α × State) :
    (if c then a else b).2.free = if c then a.2.free else b.2.free := apply_ite (fun x : α × State => x.2.free) c a b
@[simp] theorem State.foldl_free {α : Type} (g : State → α → State) (l : List α) (s : State)
    (h : ∀ s a, (g s a).free = s.free) : (l.foldl g s).free = s.free := by
  induction l generalizing s with
  | nil => rfl
  | cons a l ih => simp only [List.foldl_cons, ih, h]
@[simp] theorem State.foldl_snd_free {α β : Type} (g : β × State → α → β × State) (l : List α) (s : β × State)
    (h : ∀ s a, (g s a).2.free = s.2.free) : (l.foldl g s).2.free = s.2.free := by
  induction l generalizing s with
  | nil => rfl
  | cons a l ih => simp only [List.foldl_cons, ih, h]
@[simp] theorem Memory.wf_ite (c : Prop) [Decidable c] (a b : List Host.Cell) :
    Memory.wf (if c then a else b) = if c then Memory.wf a else Memory.wf b := apply_ite Memory.wf c a b
@[simp] theorem State.foldl_wf {α : Type} (g : State → α → State) (l : List α) (s : State)
    (h : ∀ s a, Memory.wf s.mem = true → Memory.wf (g s a).mem = true) (hm : Memory.wf s.mem = true) :
    Memory.wf (l.foldl g s).mem = true := by
  induction l generalizing s with
  | nil => exact hm
  | cons a l ih => exact ih _ (h _ _ hm)
@[simp] theorem State.foldl_snd_wf {α β : Type} (g : β × State → α → β × State) (l : List α) (s : β × State)
    (h : ∀ s a, Memory.wf s.2.mem = true → Memory.wf (g s a).2.mem = true) (hm : Memory.wf s.2.mem = true) :
    Memory.wf (l.foldl g s).2.mem = true := by
  induction l generalizing s with
  | nil => exact hm
  | cons a l ih => exact ih _ (h _ _ hm)

@[simp] theorem State.advance_now (t : Nat) (s : State) : (s.advance t).now = max s.now t := rfl

theorem foldl_keeps {α β : Type} (R : β → Prop) (g : β → α → β) (l : List α) (b : β) (h0 : R b)
    (hs : ∀ b a, R b → R (g b a)) : R (l.foldl g b) := by
  induction l generalizing b with
  | nil => exact h0
  | cons a l ih => exact ih _ (hs b a h0)

/-! ## Ops -/

theorem State.store_frame (a : Nat) (b : Bytes) (s : State) : (State.store a b s).now = s.now ∧
    (State.store a b s).pending = s.pending ∧ (State.store a b s).tb = s.tb ∧
    (State.store a b s).sheets = s.sheets ∧ (State.store a b s).units = s.units ∧
    (State.store a b s).pins = s.pins ∧ (State.store a b s).pk = s.pk ∧
    (State.store a b s).queues = s.queues ∧ (State.store a b s).latches = s.latches ∧
    (State.store a b s).errw = s.errw ∧ (State.store a b s).sdio = s.sdio ∧
    (State.store a b s).bulk = s.bulk ∧ (State.store a b s).mgmt = s.mgmt ∧
    (State.store a b s).power = s.power ∧ (State.store a b s).sec = s.sec ∧
    (State.store a b s).therm = s.therm ∧ (State.store a b s).ports = s.ports ∧
    (State.store a b s).streams = s.streams ∧ (State.store a b s).services = s.services ∧
    (State.store a b s).ptpPorts = s.ptpPorts ∧ (State.store a b s).ptp = s.ptp ∧
    (State.store a b s).chans = s.chans ∧ (State.store a b s).seqs = s.seqs ∧
    (State.store a b s).hc = s.hc ∧ (State.store a b s).trim = s.trim ∧
    (State.store a b s).bundles = s.bundles ∧ (State.store a b s).slots = s.slots ∧
    (State.store a b s).wt = s.wt ∧ (State.store a b s).fwMem = s.fwMem ∧
    (State.store a b s).pricks = s.pricks ∧ (State.store a b s).templates = s.templates ∧
    (State.store a b s).jobs = s.jobs ∧ (State.store a b s).order = s.order ∧
    (State.store a b s).pillows = s.pillows ∧ (State.store a b s).free = s.free := by
  unfold State.store; simp

@[simp] theorem State.store_wf (a : Nat) (b : Bytes) (s : State) (hm : Memory.wf s.mem = true) :
    Memory.wf (State.store a b s).mem = true := by
  unfold State.store; simp [hm]

theorem State.unpoison_frame (lo : Nat) (hi : Nat) (s : State) :
    (State.unpoison lo hi s).now = s.now ∧ (State.unpoison lo hi s).pending = s.pending ∧
    (State.unpoison lo hi s).tb = s.tb ∧ (State.unpoison lo hi s).sheets = s.sheets ∧
    (State.unpoison lo hi s).units = s.units ∧ (State.unpoison lo hi s).pins = s.pins ∧
    (State.unpoison lo hi s).pk = s.pk ∧ (State.unpoison lo hi s).queues = s.queues ∧
    (State.unpoison lo hi s).latches = s.latches ∧ (State.unpoison lo hi s).errw = s.errw ∧
    (State.unpoison lo hi s).sdio = s.sdio ∧ (State.unpoison lo hi s).bulk = s.bulk ∧
    (State.unpoison lo hi s).mgmt = s.mgmt ∧ (State.unpoison lo hi s).power = s.power ∧
    (State.unpoison lo hi s).sec = s.sec ∧ (State.unpoison lo hi s).therm = s.therm ∧
    (State.unpoison lo hi s).ports = s.ports ∧ (State.unpoison lo hi s).streams = s.streams ∧
    (State.unpoison lo hi s).services = s.services ∧ (State.unpoison lo hi s).ptpPorts = s.ptpPorts ∧
    (State.unpoison lo hi s).ptp = s.ptp ∧ (State.unpoison lo hi s).chans = s.chans ∧
    (State.unpoison lo hi s).seqs = s.seqs ∧ (State.unpoison lo hi s).hc = s.hc ∧
    (State.unpoison lo hi s).trim = s.trim ∧ (State.unpoison lo hi s).bundles = s.bundles ∧
    (State.unpoison lo hi s).slots = s.slots ∧ (State.unpoison lo hi s).wt = s.wt ∧
    (State.unpoison lo hi s).mem = s.mem ∧ (State.unpoison lo hi s).fwMem = s.fwMem ∧
    (State.unpoison lo hi s).pricks = s.pricks ∧ (State.unpoison lo hi s).templates = s.templates ∧
    (State.unpoison lo hi s).jobs = s.jobs ∧ (State.unpoison lo hi s).order = s.order ∧
    (State.unpoison lo hi s).pillows = s.pillows ∧ (State.unpoison lo hi s).free = s.free := by
  unfold State.unpoison; simp

theorem State.wipe_frame (lo : Nat) (n : Nat) (s : State) : (State.wipe lo n s).now = s.now ∧
    (State.wipe lo n s).pending = s.pending ∧ (State.wipe lo n s).tb = s.tb ∧
    (State.wipe lo n s).sheets = s.sheets ∧ (State.wipe lo n s).units = s.units ∧
    (State.wipe lo n s).pins = s.pins ∧ (State.wipe lo n s).pk = s.pk ∧
    (State.wipe lo n s).queues = s.queues ∧ (State.wipe lo n s).latches = s.latches ∧
    (State.wipe lo n s).errw = s.errw ∧ (State.wipe lo n s).sdio = s.sdio ∧
    (State.wipe lo n s).bulk = s.bulk ∧ (State.wipe lo n s).mgmt = s.mgmt ∧
    (State.wipe lo n s).power = s.power ∧ (State.wipe lo n s).sec = s.sec ∧
    (State.wipe lo n s).therm = s.therm ∧ (State.wipe lo n s).ports = s.ports ∧
    (State.wipe lo n s).streams = s.streams ∧ (State.wipe lo n s).services = s.services ∧
    (State.wipe lo n s).ptpPorts = s.ptpPorts ∧ (State.wipe lo n s).ptp = s.ptp ∧
    (State.wipe lo n s).chans = s.chans ∧ (State.wipe lo n s).seqs = s.seqs ∧
    (State.wipe lo n s).hc = s.hc ∧ (State.wipe lo n s).trim = s.trim ∧
    (State.wipe lo n s).bundles = s.bundles ∧ (State.wipe lo n s).slots = s.slots ∧
    (State.wipe lo n s).wt = s.wt ∧ (State.wipe lo n s).fwMem = s.fwMem ∧
    (State.wipe lo n s).pricks = s.pricks ∧ (State.wipe lo n s).templates = s.templates ∧
    (State.wipe lo n s).jobs = s.jobs ∧ (State.wipe lo n s).order = s.order ∧
    (State.wipe lo n s).pillows = s.pillows ∧ (State.wipe lo n s).free = s.free := by
  have hF0 := @State.unpoison_frame
  unfold State.wipe; simp [hF0]

@[simp] theorem State.wipe_wf (lo : Nat) (n : Nat) (s : State) (hm : Memory.wf s.mem = true) :
    Memory.wf (State.wipe lo n s).mem = true := by
  unfold State.wipe; simp [hm]

theorem State.fill_frame (lo : Nat) (n : Nat) (v : Byte) (s : State) :
    (State.fill lo n v s).now = s.now ∧ (State.fill lo n v s).pending = s.pending ∧
    (State.fill lo n v s).tb = s.tb ∧ (State.fill lo n v s).sheets = s.sheets ∧
    (State.fill lo n v s).units = s.units ∧ (State.fill lo n v s).pins = s.pins ∧
    (State.fill lo n v s).pk = s.pk ∧ (State.fill lo n v s).queues = s.queues ∧
    (State.fill lo n v s).latches = s.latches ∧ (State.fill lo n v s).errw = s.errw ∧
    (State.fill lo n v s).sdio = s.sdio ∧ (State.fill lo n v s).bulk = s.bulk ∧
    (State.fill lo n v s).mgmt = s.mgmt ∧ (State.fill lo n v s).power = s.power ∧
    (State.fill lo n v s).sec = s.sec ∧ (State.fill lo n v s).therm = s.therm ∧
    (State.fill lo n v s).ports = s.ports ∧ (State.fill lo n v s).streams = s.streams ∧
    (State.fill lo n v s).services = s.services ∧ (State.fill lo n v s).ptpPorts = s.ptpPorts ∧
    (State.fill lo n v s).ptp = s.ptp ∧ (State.fill lo n v s).chans = s.chans ∧
    (State.fill lo n v s).seqs = s.seqs ∧ (State.fill lo n v s).hc = s.hc ∧
    (State.fill lo n v s).trim = s.trim ∧ (State.fill lo n v s).bundles = s.bundles ∧
    (State.fill lo n v s).slots = s.slots ∧ (State.fill lo n v s).wt = s.wt ∧
    (State.fill lo n v s).fwMem = s.fwMem ∧ (State.fill lo n v s).pricks = s.pricks ∧
    (State.fill lo n v s).templates = s.templates ∧ (State.fill lo n v s).jobs = s.jobs ∧
    (State.fill lo n v s).order = s.order ∧ (State.fill lo n v s).pillows = s.pillows ∧
    (State.fill lo n v s).free = s.free := by
  have hF0 := @State.unpoison_frame
  unfold State.fill; simp [hF0]

@[simp] theorem State.fill_wf (lo : Nat) (n : Nat) (v : Byte) (s : State) (hm : Memory.wf s.mem = true) :
    Memory.wf (State.fill lo n v s).mem = true := by
  unfold State.fill; simp [hm]

theorem State.advance_frame (t : Nat) (s : State) : (State.advance t s).pending = s.pending ∧
    (State.advance t s).tb = s.tb ∧ (State.advance t s).sheets = s.sheets ∧
    (State.advance t s).units = s.units ∧ (State.advance t s).pins = s.pins ∧
    (State.advance t s).pk = s.pk ∧ (State.advance t s).queues = s.queues ∧
    (State.advance t s).latches = s.latches ∧ (State.advance t s).errw = s.errw ∧
    (State.advance t s).sdio = s.sdio ∧ (State.advance t s).bulk = s.bulk ∧
    (State.advance t s).mgmt = s.mgmt ∧ (State.advance t s).power = s.power ∧
    (State.advance t s).sec = s.sec ∧ (State.advance t s).therm = s.therm ∧
    (State.advance t s).ports = s.ports ∧ (State.advance t s).streams = s.streams ∧
    (State.advance t s).services = s.services ∧ (State.advance t s).ptpPorts = s.ptpPorts ∧
    (State.advance t s).ptp = s.ptp ∧ (State.advance t s).chans = s.chans ∧
    (State.advance t s).seqs = s.seqs ∧ (State.advance t s).hc = s.hc ∧ (State.advance t s).trim = s.trim ∧
    (State.advance t s).bundles = s.bundles ∧ (State.advance t s).slots = s.slots ∧
    (State.advance t s).wt = s.wt ∧ (State.advance t s).mem = s.mem ∧ (State.advance t s).fwMem = s.fwMem ∧
    (State.advance t s).ms = s.ms ∧ (State.advance t s).pricks = s.pricks ∧
    (State.advance t s).templates = s.templates ∧ (State.advance t s).jobs = s.jobs ∧
    (State.advance t s).order = s.order ∧ (State.advance t s).pillows = s.pillows ∧
    (State.advance t s).free = s.free := by
  unfold State.advance; simp

theorem State.setUnit_frame (k : Nat) (v : CmpUnit) (s : State) :
    (State.setUnit k v s).now = s.now ∧ (State.setUnit k v s).pending = s.pending ∧
    (State.setUnit k v s).tb = s.tb ∧ (State.setUnit k v s).sheets = s.sheets ∧
    (State.setUnit k v s).pins = s.pins ∧ (State.setUnit k v s).pk = s.pk ∧
    (State.setUnit k v s).queues = s.queues ∧ (State.setUnit k v s).latches = s.latches ∧
    (State.setUnit k v s).errw = s.errw ∧ (State.setUnit k v s).sdio = s.sdio ∧
    (State.setUnit k v s).bulk = s.bulk ∧ (State.setUnit k v s).mgmt = s.mgmt ∧
    (State.setUnit k v s).power = s.power ∧ (State.setUnit k v s).sec = s.sec ∧
    (State.setUnit k v s).therm = s.therm ∧ (State.setUnit k v s).ports = s.ports ∧
    (State.setUnit k v s).streams = s.streams ∧ (State.setUnit k v s).services = s.services ∧
    (State.setUnit k v s).ptpPorts = s.ptpPorts ∧ (State.setUnit k v s).ptp = s.ptp ∧
    (State.setUnit k v s).chans = s.chans ∧ (State.setUnit k v s).seqs = s.seqs ∧
    (State.setUnit k v s).hc = s.hc ∧ (State.setUnit k v s).trim = s.trim ∧
    (State.setUnit k v s).bundles = s.bundles ∧ (State.setUnit k v s).slots = s.slots ∧
    (State.setUnit k v s).wt = s.wt ∧ (State.setUnit k v s).mem = s.mem ∧
    (State.setUnit k v s).fwMem = s.fwMem ∧ (State.setUnit k v s).ms = s.ms ∧
    (State.setUnit k v s).pricks = s.pricks ∧ (State.setUnit k v s).templates = s.templates ∧
    (State.setUnit k v s).jobs = s.jobs ∧ (State.setUnit k v s).order = s.order ∧
    (State.setUnit k v s).pillows = s.pillows ∧ (State.setUnit k v s).free = s.free := by
  unfold State.setUnit; simp

theorem State.modUnit_frame (k : Nat) (f : CmpUnit → CmpUnit) (s : State) :
    (State.modUnit k f s).now = s.now ∧ (State.modUnit k f s).pending = s.pending ∧
    (State.modUnit k f s).tb = s.tb ∧ (State.modUnit k f s).sheets = s.sheets ∧
    (State.modUnit k f s).pins = s.pins ∧ (State.modUnit k f s).pk = s.pk ∧
    (State.modUnit k f s).queues = s.queues ∧ (State.modUnit k f s).latches = s.latches ∧
    (State.modUnit k f s).errw = s.errw ∧ (State.modUnit k f s).sdio = s.sdio ∧
    (State.modUnit k f s).bulk = s.bulk ∧ (State.modUnit k f s).mgmt = s.mgmt ∧
    (State.modUnit k f s).power = s.power ∧ (State.modUnit k f s).sec = s.sec ∧
    (State.modUnit k f s).therm = s.therm ∧ (State.modUnit k f s).ports = s.ports ∧
    (State.modUnit k f s).streams = s.streams ∧ (State.modUnit k f s).services = s.services ∧
    (State.modUnit k f s).ptpPorts = s.ptpPorts ∧ (State.modUnit k f s).ptp = s.ptp ∧
    (State.modUnit k f s).chans = s.chans ∧ (State.modUnit k f s).seqs = s.seqs ∧
    (State.modUnit k f s).hc = s.hc ∧ (State.modUnit k f s).trim = s.trim ∧
    (State.modUnit k f s).bundles = s.bundles ∧ (State.modUnit k f s).slots = s.slots ∧
    (State.modUnit k f s).wt = s.wt ∧ (State.modUnit k f s).mem = s.mem ∧
    (State.modUnit k f s).fwMem = s.fwMem ∧ (State.modUnit k f s).ms = s.ms ∧
    (State.modUnit k f s).pricks = s.pricks ∧ (State.modUnit k f s).templates = s.templates ∧
    (State.modUnit k f s).jobs = s.jobs ∧ (State.modUnit k f s).order = s.order ∧
    (State.modUnit k f s).pillows = s.pillows ∧ (State.modUnit k f s).free = s.free := by
  have hF0 := @State.setUnit_frame
  unfold State.modUnit; simp [hF0]

theorem State.setPin_frame (k : Nat) (v : ThreadPin) (s : State) :
    (State.setPin k v s).now = s.now ∧ (State.setPin k v s).pending = s.pending ∧
    (State.setPin k v s).tb = s.tb ∧ (State.setPin k v s).sheets = s.sheets ∧
    (State.setPin k v s).units = s.units ∧ (State.setPin k v s).pk = s.pk ∧
    (State.setPin k v s).queues = s.queues ∧ (State.setPin k v s).latches = s.latches ∧
    (State.setPin k v s).errw = s.errw ∧ (State.setPin k v s).sdio = s.sdio ∧
    (State.setPin k v s).bulk = s.bulk ∧ (State.setPin k v s).mgmt = s.mgmt ∧
    (State.setPin k v s).power = s.power ∧ (State.setPin k v s).sec = s.sec ∧
    (State.setPin k v s).therm = s.therm ∧ (State.setPin k v s).ports = s.ports ∧
    (State.setPin k v s).streams = s.streams ∧ (State.setPin k v s).services = s.services ∧
    (State.setPin k v s).ptpPorts = s.ptpPorts ∧ (State.setPin k v s).ptp = s.ptp ∧
    (State.setPin k v s).chans = s.chans ∧ (State.setPin k v s).seqs = s.seqs ∧
    (State.setPin k v s).hc = s.hc ∧ (State.setPin k v s).trim = s.trim ∧
    (State.setPin k v s).bundles = s.bundles ∧ (State.setPin k v s).slots = s.slots ∧
    (State.setPin k v s).wt = s.wt ∧ (State.setPin k v s).mem = s.mem ∧
    (State.setPin k v s).fwMem = s.fwMem ∧ (State.setPin k v s).ms = s.ms ∧
    (State.setPin k v s).pricks = s.pricks ∧ (State.setPin k v s).templates = s.templates ∧
    (State.setPin k v s).jobs = s.jobs ∧ (State.setPin k v s).order = s.order ∧
    (State.setPin k v s).pillows = s.pillows ∧ (State.setPin k v s).free = s.free := by
  unfold State.setPin; simp

theorem State.modPin_frame (k : Nat) (f : ThreadPin → ThreadPin) (s : State) :
    (State.modPin k f s).now = s.now ∧ (State.modPin k f s).pending = s.pending ∧
    (State.modPin k f s).tb = s.tb ∧ (State.modPin k f s).sheets = s.sheets ∧
    (State.modPin k f s).units = s.units ∧ (State.modPin k f s).pk = s.pk ∧
    (State.modPin k f s).queues = s.queues ∧ (State.modPin k f s).latches = s.latches ∧
    (State.modPin k f s).errw = s.errw ∧ (State.modPin k f s).sdio = s.sdio ∧
    (State.modPin k f s).bulk = s.bulk ∧ (State.modPin k f s).mgmt = s.mgmt ∧
    (State.modPin k f s).power = s.power ∧ (State.modPin k f s).sec = s.sec ∧
    (State.modPin k f s).therm = s.therm ∧ (State.modPin k f s).ports = s.ports ∧
    (State.modPin k f s).streams = s.streams ∧ (State.modPin k f s).services = s.services ∧
    (State.modPin k f s).ptpPorts = s.ptpPorts ∧ (State.modPin k f s).ptp = s.ptp ∧
    (State.modPin k f s).chans = s.chans ∧ (State.modPin k f s).seqs = s.seqs ∧
    (State.modPin k f s).hc = s.hc ∧ (State.modPin k f s).trim = s.trim ∧
    (State.modPin k f s).bundles = s.bundles ∧ (State.modPin k f s).slots = s.slots ∧
    (State.modPin k f s).wt = s.wt ∧ (State.modPin k f s).mem = s.mem ∧
    (State.modPin k f s).fwMem = s.fwMem ∧ (State.modPin k f s).ms = s.ms ∧
    (State.modPin k f s).pricks = s.pricks ∧ (State.modPin k f s).templates = s.templates ∧
    (State.modPin k f s).jobs = s.jobs ∧ (State.modPin k f s).order = s.order ∧
    (State.modPin k f s).pillows = s.pillows ∧ (State.modPin k f s).free = s.free := by
  have hF0 := @State.setPin_frame
  unfold State.modPin; simp [hF0]

theorem State.setQueue_frame (k : Nat) (v : Queue) (s : State) :
    (State.setQueue k v s).now = s.now ∧ (State.setQueue k v s).pending = s.pending ∧
    (State.setQueue k v s).tb = s.tb ∧ (State.setQueue k v s).sheets = s.sheets ∧
    (State.setQueue k v s).units = s.units ∧ (State.setQueue k v s).pins = s.pins ∧
    (State.setQueue k v s).pk = s.pk ∧ (State.setQueue k v s).latches = s.latches ∧
    (State.setQueue k v s).errw = s.errw ∧ (State.setQueue k v s).sdio = s.sdio ∧
    (State.setQueue k v s).bulk = s.bulk ∧ (State.setQueue k v s).mgmt = s.mgmt ∧
    (State.setQueue k v s).power = s.power ∧ (State.setQueue k v s).sec = s.sec ∧
    (State.setQueue k v s).therm = s.therm ∧ (State.setQueue k v s).ports = s.ports ∧
    (State.setQueue k v s).streams = s.streams ∧ (State.setQueue k v s).services = s.services ∧
    (State.setQueue k v s).ptpPorts = s.ptpPorts ∧ (State.setQueue k v s).ptp = s.ptp ∧
    (State.setQueue k v s).chans = s.chans ∧ (State.setQueue k v s).seqs = s.seqs ∧
    (State.setQueue k v s).hc = s.hc ∧ (State.setQueue k v s).trim = s.trim ∧
    (State.setQueue k v s).bundles = s.bundles ∧ (State.setQueue k v s).slots = s.slots ∧
    (State.setQueue k v s).wt = s.wt ∧ (State.setQueue k v s).mem = s.mem ∧
    (State.setQueue k v s).fwMem = s.fwMem ∧ (State.setQueue k v s).ms = s.ms ∧
    (State.setQueue k v s).pricks = s.pricks ∧ (State.setQueue k v s).templates = s.templates ∧
    (State.setQueue k v s).jobs = s.jobs ∧ (State.setQueue k v s).order = s.order ∧
    (State.setQueue k v s).pillows = s.pillows ∧ (State.setQueue k v s).free = s.free := by
  unfold State.setQueue; simp

theorem State.modQueue_frame (k : Nat) (f : Queue → Queue) (s : State) :
    (State.modQueue k f s).now = s.now ∧ (State.modQueue k f s).pending = s.pending ∧
    (State.modQueue k f s).tb = s.tb ∧ (State.modQueue k f s).sheets = s.sheets ∧
    (State.modQueue k f s).units = s.units ∧ (State.modQueue k f s).pins = s.pins ∧
    (State.modQueue k f s).pk = s.pk ∧ (State.modQueue k f s).latches = s.latches ∧
    (State.modQueue k f s).errw = s.errw ∧ (State.modQueue k f s).sdio = s.sdio ∧
    (State.modQueue k f s).bulk = s.bulk ∧ (State.modQueue k f s).mgmt = s.mgmt ∧
    (State.modQueue k f s).power = s.power ∧ (State.modQueue k f s).sec = s.sec ∧
    (State.modQueue k f s).therm = s.therm ∧ (State.modQueue k f s).ports = s.ports ∧
    (State.modQueue k f s).streams = s.streams ∧ (State.modQueue k f s).services = s.services ∧
    (State.modQueue k f s).ptpPorts = s.ptpPorts ∧ (State.modQueue k f s).ptp = s.ptp ∧
    (State.modQueue k f s).chans = s.chans ∧ (State.modQueue k f s).seqs = s.seqs ∧
    (State.modQueue k f s).hc = s.hc ∧ (State.modQueue k f s).trim = s.trim ∧
    (State.modQueue k f s).bundles = s.bundles ∧ (State.modQueue k f s).slots = s.slots ∧
    (State.modQueue k f s).wt = s.wt ∧ (State.modQueue k f s).mem = s.mem ∧
    (State.modQueue k f s).fwMem = s.fwMem ∧ (State.modQueue k f s).ms = s.ms ∧
    (State.modQueue k f s).pricks = s.pricks ∧ (State.modQueue k f s).templates = s.templates ∧
    (State.modQueue k f s).jobs = s.jobs ∧ (State.modQueue k f s).order = s.order ∧
    (State.modQueue k f s).pillows = s.pillows ∧ (State.modQueue k f s).free = s.free := by
  have hF0 := @State.setQueue_frame
  unfold State.modQueue; simp [hF0]

theorem State.setLatch_frame (k : Nat) (v : Latch) (s : State) :
    (State.setLatch k v s).now = s.now ∧ (State.setLatch k v s).pending = s.pending ∧
    (State.setLatch k v s).tb = s.tb ∧ (State.setLatch k v s).sheets = s.sheets ∧
    (State.setLatch k v s).units = s.units ∧ (State.setLatch k v s).pins = s.pins ∧
    (State.setLatch k v s).pk = s.pk ∧ (State.setLatch k v s).queues = s.queues ∧
    (State.setLatch k v s).errw = s.errw ∧ (State.setLatch k v s).sdio = s.sdio ∧
    (State.setLatch k v s).bulk = s.bulk ∧ (State.setLatch k v s).mgmt = s.mgmt ∧
    (State.setLatch k v s).power = s.power ∧ (State.setLatch k v s).sec = s.sec ∧
    (State.setLatch k v s).therm = s.therm ∧ (State.setLatch k v s).ports = s.ports ∧
    (State.setLatch k v s).streams = s.streams ∧ (State.setLatch k v s).services = s.services ∧
    (State.setLatch k v s).ptpPorts = s.ptpPorts ∧ (State.setLatch k v s).ptp = s.ptp ∧
    (State.setLatch k v s).chans = s.chans ∧ (State.setLatch k v s).seqs = s.seqs ∧
    (State.setLatch k v s).hc = s.hc ∧ (State.setLatch k v s).trim = s.trim ∧
    (State.setLatch k v s).bundles = s.bundles ∧ (State.setLatch k v s).slots = s.slots ∧
    (State.setLatch k v s).wt = s.wt ∧ (State.setLatch k v s).mem = s.mem ∧
    (State.setLatch k v s).fwMem = s.fwMem ∧ (State.setLatch k v s).ms = s.ms ∧
    (State.setLatch k v s).pricks = s.pricks ∧ (State.setLatch k v s).templates = s.templates ∧
    (State.setLatch k v s).jobs = s.jobs ∧ (State.setLatch k v s).order = s.order ∧
    (State.setLatch k v s).pillows = s.pillows ∧ (State.setLatch k v s).free = s.free := by
  unfold State.setLatch; simp

theorem State.modLatch_frame (k : Nat) (f : Latch → Latch) (s : State) :
    (State.modLatch k f s).now = s.now ∧ (State.modLatch k f s).pending = s.pending ∧
    (State.modLatch k f s).tb = s.tb ∧ (State.modLatch k f s).sheets = s.sheets ∧
    (State.modLatch k f s).units = s.units ∧ (State.modLatch k f s).pins = s.pins ∧
    (State.modLatch k f s).pk = s.pk ∧ (State.modLatch k f s).queues = s.queues ∧
    (State.modLatch k f s).errw = s.errw ∧ (State.modLatch k f s).sdio = s.sdio ∧
    (State.modLatch k f s).bulk = s.bulk ∧ (State.modLatch k f s).mgmt = s.mgmt ∧
    (State.modLatch k f s).power = s.power ∧ (State.modLatch k f s).sec = s.sec ∧
    (State.modLatch k f s).therm = s.therm ∧ (State.modLatch k f s).ports = s.ports ∧
    (State.modLatch k f s).streams = s.streams ∧ (State.modLatch k f s).services = s.services ∧
    (State.modLatch k f s).ptpPorts = s.ptpPorts ∧ (State.modLatch k f s).ptp = s.ptp ∧
    (State.modLatch k f s).chans = s.chans ∧ (State.modLatch k f s).seqs = s.seqs ∧
    (State.modLatch k f s).hc = s.hc ∧ (State.modLatch k f s).trim = s.trim ∧
    (State.modLatch k f s).bundles = s.bundles ∧ (State.modLatch k f s).slots = s.slots ∧
    (State.modLatch k f s).wt = s.wt ∧ (State.modLatch k f s).mem = s.mem ∧
    (State.modLatch k f s).fwMem = s.fwMem ∧ (State.modLatch k f s).ms = s.ms ∧
    (State.modLatch k f s).pricks = s.pricks ∧ (State.modLatch k f s).templates = s.templates ∧
    (State.modLatch k f s).jobs = s.jobs ∧ (State.modLatch k f s).order = s.order ∧
    (State.modLatch k f s).pillows = s.pillows ∧ (State.modLatch k f s).free = s.free := by
  have hF0 := @State.setLatch_frame
  unfold State.modLatch; simp [hF0]

theorem State.setPort_frame (k : Nat) (v : Port) (s : State) : (State.setPort k v s).now = s.now ∧
    (State.setPort k v s).pending = s.pending ∧ (State.setPort k v s).tb = s.tb ∧
    (State.setPort k v s).sheets = s.sheets ∧ (State.setPort k v s).units = s.units ∧
    (State.setPort k v s).pins = s.pins ∧ (State.setPort k v s).pk = s.pk ∧
    (State.setPort k v s).queues = s.queues ∧ (State.setPort k v s).latches = s.latches ∧
    (State.setPort k v s).errw = s.errw ∧ (State.setPort k v s).sdio = s.sdio ∧
    (State.setPort k v s).bulk = s.bulk ∧ (State.setPort k v s).mgmt = s.mgmt ∧
    (State.setPort k v s).power = s.power ∧ (State.setPort k v s).sec = s.sec ∧
    (State.setPort k v s).therm = s.therm ∧ (State.setPort k v s).streams = s.streams ∧
    (State.setPort k v s).services = s.services ∧ (State.setPort k v s).ptpPorts = s.ptpPorts ∧
    (State.setPort k v s).ptp = s.ptp ∧ (State.setPort k v s).chans = s.chans ∧
    (State.setPort k v s).seqs = s.seqs ∧ (State.setPort k v s).hc = s.hc ∧
    (State.setPort k v s).trim = s.trim ∧ (State.setPort k v s).bundles = s.bundles ∧
    (State.setPort k v s).slots = s.slots ∧ (State.setPort k v s).wt = s.wt ∧
    (State.setPort k v s).mem = s.mem ∧ (State.setPort k v s).fwMem = s.fwMem ∧
    (State.setPort k v s).ms = s.ms ∧ (State.setPort k v s).pricks = s.pricks ∧
    (State.setPort k v s).templates = s.templates ∧ (State.setPort k v s).jobs = s.jobs ∧
    (State.setPort k v s).order = s.order ∧ (State.setPort k v s).pillows = s.pillows ∧
    (State.setPort k v s).free = s.free := by
  unfold State.setPort; simp

theorem State.modPort_frame (k : Nat) (f : Port → Port) (s : State) :
    (State.modPort k f s).now = s.now ∧ (State.modPort k f s).pending = s.pending ∧
    (State.modPort k f s).tb = s.tb ∧ (State.modPort k f s).sheets = s.sheets ∧
    (State.modPort k f s).units = s.units ∧ (State.modPort k f s).pins = s.pins ∧
    (State.modPort k f s).pk = s.pk ∧ (State.modPort k f s).queues = s.queues ∧
    (State.modPort k f s).latches = s.latches ∧ (State.modPort k f s).errw = s.errw ∧
    (State.modPort k f s).sdio = s.sdio ∧ (State.modPort k f s).bulk = s.bulk ∧
    (State.modPort k f s).mgmt = s.mgmt ∧ (State.modPort k f s).power = s.power ∧
    (State.modPort k f s).sec = s.sec ∧ (State.modPort k f s).therm = s.therm ∧
    (State.modPort k f s).streams = s.streams ∧ (State.modPort k f s).services = s.services ∧
    (State.modPort k f s).ptpPorts = s.ptpPorts ∧ (State.modPort k f s).ptp = s.ptp ∧
    (State.modPort k f s).chans = s.chans ∧ (State.modPort k f s).seqs = s.seqs ∧
    (State.modPort k f s).hc = s.hc ∧ (State.modPort k f s).trim = s.trim ∧
    (State.modPort k f s).bundles = s.bundles ∧ (State.modPort k f s).slots = s.slots ∧
    (State.modPort k f s).wt = s.wt ∧ (State.modPort k f s).mem = s.mem ∧
    (State.modPort k f s).fwMem = s.fwMem ∧ (State.modPort k f s).ms = s.ms ∧
    (State.modPort k f s).pricks = s.pricks ∧ (State.modPort k f s).templates = s.templates ∧
    (State.modPort k f s).jobs = s.jobs ∧ (State.modPort k f s).order = s.order ∧
    (State.modPort k f s).pillows = s.pillows ∧ (State.modPort k f s).free = s.free := by
  have hF0 := @State.setPort_frame
  unfold State.modPort; simp [hF0]

theorem State.setStream_frame (k : Nat) (v : Stream) (s : State) :
    (State.setStream k v s).now = s.now ∧ (State.setStream k v s).pending = s.pending ∧
    (State.setStream k v s).tb = s.tb ∧ (State.setStream k v s).sheets = s.sheets ∧
    (State.setStream k v s).units = s.units ∧ (State.setStream k v s).pins = s.pins ∧
    (State.setStream k v s).pk = s.pk ∧ (State.setStream k v s).queues = s.queues ∧
    (State.setStream k v s).latches = s.latches ∧ (State.setStream k v s).errw = s.errw ∧
    (State.setStream k v s).sdio = s.sdio ∧ (State.setStream k v s).bulk = s.bulk ∧
    (State.setStream k v s).mgmt = s.mgmt ∧ (State.setStream k v s).power = s.power ∧
    (State.setStream k v s).sec = s.sec ∧ (State.setStream k v s).therm = s.therm ∧
    (State.setStream k v s).ports = s.ports ∧ (State.setStream k v s).services = s.services ∧
    (State.setStream k v s).ptpPorts = s.ptpPorts ∧ (State.setStream k v s).ptp = s.ptp ∧
    (State.setStream k v s).chans = s.chans ∧ (State.setStream k v s).seqs = s.seqs ∧
    (State.setStream k v s).hc = s.hc ∧ (State.setStream k v s).trim = s.trim ∧
    (State.setStream k v s).bundles = s.bundles ∧ (State.setStream k v s).slots = s.slots ∧
    (State.setStream k v s).wt = s.wt ∧ (State.setStream k v s).mem = s.mem ∧
    (State.setStream k v s).fwMem = s.fwMem ∧ (State.setStream k v s).ms = s.ms ∧
    (State.setStream k v s).pricks = s.pricks ∧ (State.setStream k v s).templates = s.templates ∧
    (State.setStream k v s).jobs = s.jobs ∧ (State.setStream k v s).order = s.order ∧
    (State.setStream k v s).pillows = s.pillows ∧ (State.setStream k v s).free = s.free := by
  unfold State.setStream; simp

theorem State.modStream_frame (k : Nat) (f : Stream → Stream) (s : State) :
    (State.modStream k f s).now = s.now ∧ (State.modStream k f s).pending = s.pending ∧
    (State.modStream k f s).tb = s.tb ∧ (State.modStream k f s).sheets = s.sheets ∧
    (State.modStream k f s).units = s.units ∧ (State.modStream k f s).pins = s.pins ∧
    (State.modStream k f s).pk = s.pk ∧ (State.modStream k f s).queues = s.queues ∧
    (State.modStream k f s).latches = s.latches ∧ (State.modStream k f s).errw = s.errw ∧
    (State.modStream k f s).sdio = s.sdio ∧ (State.modStream k f s).bulk = s.bulk ∧
    (State.modStream k f s).mgmt = s.mgmt ∧ (State.modStream k f s).power = s.power ∧
    (State.modStream k f s).sec = s.sec ∧ (State.modStream k f s).therm = s.therm ∧
    (State.modStream k f s).ports = s.ports ∧ (State.modStream k f s).services = s.services ∧
    (State.modStream k f s).ptpPorts = s.ptpPorts ∧ (State.modStream k f s).ptp = s.ptp ∧
    (State.modStream k f s).chans = s.chans ∧ (State.modStream k f s).seqs = s.seqs ∧
    (State.modStream k f s).hc = s.hc ∧ (State.modStream k f s).trim = s.trim ∧
    (State.modStream k f s).bundles = s.bundles ∧ (State.modStream k f s).slots = s.slots ∧
    (State.modStream k f s).wt = s.wt ∧ (State.modStream k f s).mem = s.mem ∧
    (State.modStream k f s).fwMem = s.fwMem ∧ (State.modStream k f s).ms = s.ms ∧
    (State.modStream k f s).pricks = s.pricks ∧ (State.modStream k f s).templates = s.templates ∧
    (State.modStream k f s).jobs = s.jobs ∧ (State.modStream k f s).order = s.order ∧
    (State.modStream k f s).pillows = s.pillows ∧ (State.modStream k f s).free = s.free := by
  have hF0 := @State.setStream_frame
  unfold State.modStream; simp [hF0]

theorem State.setService_frame (k : Nat) (v : Service) (s : State) :
    (State.setService k v s).now = s.now ∧ (State.setService k v s).pending = s.pending ∧
    (State.setService k v s).tb = s.tb ∧ (State.setService k v s).sheets = s.sheets ∧
    (State.setService k v s).units = s.units ∧ (State.setService k v s).pins = s.pins ∧
    (State.setService k v s).pk = s.pk ∧ (State.setService k v s).queues = s.queues ∧
    (State.setService k v s).latches = s.latches ∧ (State.setService k v s).errw = s.errw ∧
    (State.setService k v s).sdio = s.sdio ∧ (State.setService k v s).bulk = s.bulk ∧
    (State.setService k v s).mgmt = s.mgmt ∧ (State.setService k v s).power = s.power ∧
    (State.setService k v s).sec = s.sec ∧ (State.setService k v s).therm = s.therm ∧
    (State.setService k v s).ports = s.ports ∧ (State.setService k v s).streams = s.streams ∧
    (State.setService k v s).ptpPorts = s.ptpPorts ∧ (State.setService k v s).ptp = s.ptp ∧
    (State.setService k v s).chans = s.chans ∧ (State.setService k v s).seqs = s.seqs ∧
    (State.setService k v s).hc = s.hc ∧ (State.setService k v s).trim = s.trim ∧
    (State.setService k v s).bundles = s.bundles ∧ (State.setService k v s).slots = s.slots ∧
    (State.setService k v s).wt = s.wt ∧ (State.setService k v s).mem = s.mem ∧
    (State.setService k v s).fwMem = s.fwMem ∧ (State.setService k v s).ms = s.ms ∧
    (State.setService k v s).pricks = s.pricks ∧ (State.setService k v s).templates = s.templates ∧
    (State.setService k v s).jobs = s.jobs ∧ (State.setService k v s).order = s.order ∧
    (State.setService k v s).pillows = s.pillows ∧ (State.setService k v s).free = s.free := by
  unfold State.setService; simp

theorem State.modService_frame (k : Nat) (f : Service → Service) (s : State) :
    (State.modService k f s).now = s.now ∧ (State.modService k f s).pending = s.pending ∧
    (State.modService k f s).tb = s.tb ∧ (State.modService k f s).sheets = s.sheets ∧
    (State.modService k f s).units = s.units ∧ (State.modService k f s).pins = s.pins ∧
    (State.modService k f s).pk = s.pk ∧ (State.modService k f s).queues = s.queues ∧
    (State.modService k f s).latches = s.latches ∧ (State.modService k f s).errw = s.errw ∧
    (State.modService k f s).sdio = s.sdio ∧ (State.modService k f s).bulk = s.bulk ∧
    (State.modService k f s).mgmt = s.mgmt ∧ (State.modService k f s).power = s.power ∧
    (State.modService k f s).sec = s.sec ∧ (State.modService k f s).therm = s.therm ∧
    (State.modService k f s).ports = s.ports ∧ (State.modService k f s).streams = s.streams ∧
    (State.modService k f s).ptpPorts = s.ptpPorts ∧ (State.modService k f s).ptp = s.ptp ∧
    (State.modService k f s).chans = s.chans ∧ (State.modService k f s).seqs = s.seqs ∧
    (State.modService k f s).hc = s.hc ∧ (State.modService k f s).trim = s.trim ∧
    (State.modService k f s).bundles = s.bundles ∧ (State.modService k f s).slots = s.slots ∧
    (State.modService k f s).wt = s.wt ∧ (State.modService k f s).mem = s.mem ∧
    (State.modService k f s).fwMem = s.fwMem ∧ (State.modService k f s).ms = s.ms ∧
    (State.modService k f s).pricks = s.pricks ∧ (State.modService k f s).templates = s.templates ∧
    (State.modService k f s).jobs = s.jobs ∧ (State.modService k f s).order = s.order ∧
    (State.modService k f s).pillows = s.pillows ∧ (State.modService k f s).free = s.free := by
  have hF0 := @State.setService_frame
  unfold State.modService; simp [hF0]

theorem State.setPtpPort_frame (k : Nat) (v : PtpPort) (s : State) :
    (State.setPtpPort k v s).now = s.now ∧ (State.setPtpPort k v s).pending = s.pending ∧
    (State.setPtpPort k v s).tb = s.tb ∧ (State.setPtpPort k v s).sheets = s.sheets ∧
    (State.setPtpPort k v s).units = s.units ∧ (State.setPtpPort k v s).pins = s.pins ∧
    (State.setPtpPort k v s).pk = s.pk ∧ (State.setPtpPort k v s).queues = s.queues ∧
    (State.setPtpPort k v s).latches = s.latches ∧ (State.setPtpPort k v s).errw = s.errw ∧
    (State.setPtpPort k v s).sdio = s.sdio ∧ (State.setPtpPort k v s).bulk = s.bulk ∧
    (State.setPtpPort k v s).mgmt = s.mgmt ∧ (State.setPtpPort k v s).power = s.power ∧
    (State.setPtpPort k v s).sec = s.sec ∧ (State.setPtpPort k v s).therm = s.therm ∧
    (State.setPtpPort k v s).ports = s.ports ∧ (State.setPtpPort k v s).streams = s.streams ∧
    (State.setPtpPort k v s).services = s.services ∧ (State.setPtpPort k v s).ptp = s.ptp ∧
    (State.setPtpPort k v s).chans = s.chans ∧ (State.setPtpPort k v s).seqs = s.seqs ∧
    (State.setPtpPort k v s).hc = s.hc ∧ (State.setPtpPort k v s).trim = s.trim ∧
    (State.setPtpPort k v s).bundles = s.bundles ∧ (State.setPtpPort k v s).slots = s.slots ∧
    (State.setPtpPort k v s).wt = s.wt ∧ (State.setPtpPort k v s).mem = s.mem ∧
    (State.setPtpPort k v s).fwMem = s.fwMem ∧ (State.setPtpPort k v s).ms = s.ms ∧
    (State.setPtpPort k v s).pricks = s.pricks ∧ (State.setPtpPort k v s).templates = s.templates ∧
    (State.setPtpPort k v s).jobs = s.jobs ∧ (State.setPtpPort k v s).order = s.order ∧
    (State.setPtpPort k v s).pillows = s.pillows ∧ (State.setPtpPort k v s).free = s.free := by
  unfold State.setPtpPort; simp

theorem State.modPtpPort_frame (k : Nat) (f : PtpPort → PtpPort) (s : State) :
    (State.modPtpPort k f s).now = s.now ∧ (State.modPtpPort k f s).pending = s.pending ∧
    (State.modPtpPort k f s).tb = s.tb ∧ (State.modPtpPort k f s).sheets = s.sheets ∧
    (State.modPtpPort k f s).units = s.units ∧ (State.modPtpPort k f s).pins = s.pins ∧
    (State.modPtpPort k f s).pk = s.pk ∧ (State.modPtpPort k f s).queues = s.queues ∧
    (State.modPtpPort k f s).latches = s.latches ∧ (State.modPtpPort k f s).errw = s.errw ∧
    (State.modPtpPort k f s).sdio = s.sdio ∧ (State.modPtpPort k f s).bulk = s.bulk ∧
    (State.modPtpPort k f s).mgmt = s.mgmt ∧ (State.modPtpPort k f s).power = s.power ∧
    (State.modPtpPort k f s).sec = s.sec ∧ (State.modPtpPort k f s).therm = s.therm ∧
    (State.modPtpPort k f s).ports = s.ports ∧ (State.modPtpPort k f s).streams = s.streams ∧
    (State.modPtpPort k f s).services = s.services ∧ (State.modPtpPort k f s).ptp = s.ptp ∧
    (State.modPtpPort k f s).chans = s.chans ∧ (State.modPtpPort k f s).seqs = s.seqs ∧
    (State.modPtpPort k f s).hc = s.hc ∧ (State.modPtpPort k f s).trim = s.trim ∧
    (State.modPtpPort k f s).bundles = s.bundles ∧ (State.modPtpPort k f s).slots = s.slots ∧
    (State.modPtpPort k f s).wt = s.wt ∧ (State.modPtpPort k f s).mem = s.mem ∧
    (State.modPtpPort k f s).fwMem = s.fwMem ∧ (State.modPtpPort k f s).ms = s.ms ∧
    (State.modPtpPort k f s).pricks = s.pricks ∧ (State.modPtpPort k f s).templates = s.templates ∧
    (State.modPtpPort k f s).jobs = s.jobs ∧ (State.modPtpPort k f s).order = s.order ∧
    (State.modPtpPort k f s).pillows = s.pillows ∧ (State.modPtpPort k f s).free = s.free := by
  have hF0 := @State.setPtpPort_frame
  unfold State.modPtpPort; simp [hF0]

theorem State.setChan_frame (k : Nat) (v : HcChan) (s : State) : (State.setChan k v s).now = s.now ∧
    (State.setChan k v s).pending = s.pending ∧ (State.setChan k v s).tb = s.tb ∧
    (State.setChan k v s).sheets = s.sheets ∧ (State.setChan k v s).units = s.units ∧
    (State.setChan k v s).pins = s.pins ∧ (State.setChan k v s).pk = s.pk ∧
    (State.setChan k v s).queues = s.queues ∧ (State.setChan k v s).latches = s.latches ∧
    (State.setChan k v s).errw = s.errw ∧ (State.setChan k v s).sdio = s.sdio ∧
    (State.setChan k v s).bulk = s.bulk ∧ (State.setChan k v s).mgmt = s.mgmt ∧
    (State.setChan k v s).power = s.power ∧ (State.setChan k v s).sec = s.sec ∧
    (State.setChan k v s).therm = s.therm ∧ (State.setChan k v s).ports = s.ports ∧
    (State.setChan k v s).streams = s.streams ∧ (State.setChan k v s).services = s.services ∧
    (State.setChan k v s).ptpPorts = s.ptpPorts ∧ (State.setChan k v s).ptp = s.ptp ∧
    (State.setChan k v s).seqs = s.seqs ∧ (State.setChan k v s).hc = s.hc ∧
    (State.setChan k v s).trim = s.trim ∧ (State.setChan k v s).bundles = s.bundles ∧
    (State.setChan k v s).slots = s.slots ∧ (State.setChan k v s).wt = s.wt ∧
    (State.setChan k v s).mem = s.mem ∧ (State.setChan k v s).fwMem = s.fwMem ∧
    (State.setChan k v s).ms = s.ms ∧ (State.setChan k v s).pricks = s.pricks ∧
    (State.setChan k v s).templates = s.templates ∧ (State.setChan k v s).jobs = s.jobs ∧
    (State.setChan k v s).order = s.order ∧ (State.setChan k v s).pillows = s.pillows ∧
    (State.setChan k v s).free = s.free := by
  unfold State.setChan; simp

theorem State.modChan_frame (k : Nat) (f : HcChan → HcChan) (s : State) :
    (State.modChan k f s).now = s.now ∧ (State.modChan k f s).pending = s.pending ∧
    (State.modChan k f s).tb = s.tb ∧ (State.modChan k f s).sheets = s.sheets ∧
    (State.modChan k f s).units = s.units ∧ (State.modChan k f s).pins = s.pins ∧
    (State.modChan k f s).pk = s.pk ∧ (State.modChan k f s).queues = s.queues ∧
    (State.modChan k f s).latches = s.latches ∧ (State.modChan k f s).errw = s.errw ∧
    (State.modChan k f s).sdio = s.sdio ∧ (State.modChan k f s).bulk = s.bulk ∧
    (State.modChan k f s).mgmt = s.mgmt ∧ (State.modChan k f s).power = s.power ∧
    (State.modChan k f s).sec = s.sec ∧ (State.modChan k f s).therm = s.therm ∧
    (State.modChan k f s).ports = s.ports ∧ (State.modChan k f s).streams = s.streams ∧
    (State.modChan k f s).services = s.services ∧ (State.modChan k f s).ptpPorts = s.ptpPorts ∧
    (State.modChan k f s).ptp = s.ptp ∧ (State.modChan k f s).seqs = s.seqs ∧
    (State.modChan k f s).hc = s.hc ∧ (State.modChan k f s).trim = s.trim ∧
    (State.modChan k f s).bundles = s.bundles ∧ (State.modChan k f s).slots = s.slots ∧
    (State.modChan k f s).wt = s.wt ∧ (State.modChan k f s).mem = s.mem ∧
    (State.modChan k f s).fwMem = s.fwMem ∧ (State.modChan k f s).ms = s.ms ∧
    (State.modChan k f s).pricks = s.pricks ∧ (State.modChan k f s).templates = s.templates ∧
    (State.modChan k f s).jobs = s.jobs ∧ (State.modChan k f s).order = s.order ∧
    (State.modChan k f s).pillows = s.pillows ∧ (State.modChan k f s).free = s.free := by
  have hF0 := @State.setChan_frame
  unfold State.modChan; simp [hF0]

theorem State.setHseq_frame (k : Nat) (v : HcSeq) (s : State) : (State.setHseq k v s).now = s.now ∧
    (State.setHseq k v s).pending = s.pending ∧ (State.setHseq k v s).tb = s.tb ∧
    (State.setHseq k v s).sheets = s.sheets ∧ (State.setHseq k v s).units = s.units ∧
    (State.setHseq k v s).pins = s.pins ∧ (State.setHseq k v s).pk = s.pk ∧
    (State.setHseq k v s).queues = s.queues ∧ (State.setHseq k v s).latches = s.latches ∧
    (State.setHseq k v s).errw = s.errw ∧ (State.setHseq k v s).sdio = s.sdio ∧
    (State.setHseq k v s).bulk = s.bulk ∧ (State.setHseq k v s).mgmt = s.mgmt ∧
    (State.setHseq k v s).power = s.power ∧ (State.setHseq k v s).sec = s.sec ∧
    (State.setHseq k v s).therm = s.therm ∧ (State.setHseq k v s).ports = s.ports ∧
    (State.setHseq k v s).streams = s.streams ∧ (State.setHseq k v s).services = s.services ∧
    (State.setHseq k v s).ptpPorts = s.ptpPorts ∧ (State.setHseq k v s).ptp = s.ptp ∧
    (State.setHseq k v s).chans = s.chans ∧ (State.setHseq k v s).hc = s.hc ∧
    (State.setHseq k v s).trim = s.trim ∧ (State.setHseq k v s).bundles = s.bundles ∧
    (State.setHseq k v s).slots = s.slots ∧ (State.setHseq k v s).wt = s.wt ∧
    (State.setHseq k v s).mem = s.mem ∧ (State.setHseq k v s).fwMem = s.fwMem ∧
    (State.setHseq k v s).ms = s.ms ∧ (State.setHseq k v s).pricks = s.pricks ∧
    (State.setHseq k v s).templates = s.templates ∧ (State.setHseq k v s).jobs = s.jobs ∧
    (State.setHseq k v s).order = s.order ∧ (State.setHseq k v s).pillows = s.pillows ∧
    (State.setHseq k v s).free = s.free := by
  unfold State.setHseq; simp

theorem State.modHseq_frame (k : Nat) (f : HcSeq → HcSeq) (s : State) :
    (State.modHseq k f s).now = s.now ∧ (State.modHseq k f s).pending = s.pending ∧
    (State.modHseq k f s).tb = s.tb ∧ (State.modHseq k f s).sheets = s.sheets ∧
    (State.modHseq k f s).units = s.units ∧ (State.modHseq k f s).pins = s.pins ∧
    (State.modHseq k f s).pk = s.pk ∧ (State.modHseq k f s).queues = s.queues ∧
    (State.modHseq k f s).latches = s.latches ∧ (State.modHseq k f s).errw = s.errw ∧
    (State.modHseq k f s).sdio = s.sdio ∧ (State.modHseq k f s).bulk = s.bulk ∧
    (State.modHseq k f s).mgmt = s.mgmt ∧ (State.modHseq k f s).power = s.power ∧
    (State.modHseq k f s).sec = s.sec ∧ (State.modHseq k f s).therm = s.therm ∧
    (State.modHseq k f s).ports = s.ports ∧ (State.modHseq k f s).streams = s.streams ∧
    (State.modHseq k f s).services = s.services ∧ (State.modHseq k f s).ptpPorts = s.ptpPorts ∧
    (State.modHseq k f s).ptp = s.ptp ∧ (State.modHseq k f s).chans = s.chans ∧
    (State.modHseq k f s).hc = s.hc ∧ (State.modHseq k f s).trim = s.trim ∧
    (State.modHseq k f s).bundles = s.bundles ∧ (State.modHseq k f s).slots = s.slots ∧
    (State.modHseq k f s).wt = s.wt ∧ (State.modHseq k f s).mem = s.mem ∧
    (State.modHseq k f s).fwMem = s.fwMem ∧ (State.modHseq k f s).ms = s.ms ∧
    (State.modHseq k f s).pricks = s.pricks ∧ (State.modHseq k f s).templates = s.templates ∧
    (State.modHseq k f s).jobs = s.jobs ∧ (State.modHseq k f s).order = s.order ∧
    (State.modHseq k f s).pillows = s.pillows ∧ (State.modHseq k f s).free = s.free := by
  have hF0 := @State.setHseq_frame
  unfold State.modHseq; simp [hF0]

theorem State.setBundle_frame (k : Nat) (v : Bundle) (s : State) :
    (State.setBundle k v s).now = s.now ∧ (State.setBundle k v s).pending = s.pending ∧
    (State.setBundle k v s).tb = s.tb ∧ (State.setBundle k v s).sheets = s.sheets ∧
    (State.setBundle k v s).units = s.units ∧ (State.setBundle k v s).pins = s.pins ∧
    (State.setBundle k v s).pk = s.pk ∧ (State.setBundle k v s).queues = s.queues ∧
    (State.setBundle k v s).latches = s.latches ∧ (State.setBundle k v s).errw = s.errw ∧
    (State.setBundle k v s).sdio = s.sdio ∧ (State.setBundle k v s).bulk = s.bulk ∧
    (State.setBundle k v s).mgmt = s.mgmt ∧ (State.setBundle k v s).power = s.power ∧
    (State.setBundle k v s).sec = s.sec ∧ (State.setBundle k v s).therm = s.therm ∧
    (State.setBundle k v s).ports = s.ports ∧ (State.setBundle k v s).streams = s.streams ∧
    (State.setBundle k v s).services = s.services ∧ (State.setBundle k v s).ptpPorts = s.ptpPorts ∧
    (State.setBundle k v s).ptp = s.ptp ∧ (State.setBundle k v s).chans = s.chans ∧
    (State.setBundle k v s).seqs = s.seqs ∧ (State.setBundle k v s).hc = s.hc ∧
    (State.setBundle k v s).trim = s.trim ∧ (State.setBundle k v s).slots = s.slots ∧
    (State.setBundle k v s).wt = s.wt ∧ (State.setBundle k v s).mem = s.mem ∧
    (State.setBundle k v s).fwMem = s.fwMem ∧ (State.setBundle k v s).ms = s.ms ∧
    (State.setBundle k v s).pricks = s.pricks ∧ (State.setBundle k v s).templates = s.templates ∧
    (State.setBundle k v s).jobs = s.jobs ∧ (State.setBundle k v s).order = s.order ∧
    (State.setBundle k v s).pillows = s.pillows ∧ (State.setBundle k v s).free = s.free := by
  unfold State.setBundle; simp

theorem State.modBundle_frame (k : Nat) (f : Bundle → Bundle) (s : State) :
    (State.modBundle k f s).now = s.now ∧ (State.modBundle k f s).pending = s.pending ∧
    (State.modBundle k f s).tb = s.tb ∧ (State.modBundle k f s).sheets = s.sheets ∧
    (State.modBundle k f s).units = s.units ∧ (State.modBundle k f s).pins = s.pins ∧
    (State.modBundle k f s).pk = s.pk ∧ (State.modBundle k f s).queues = s.queues ∧
    (State.modBundle k f s).latches = s.latches ∧ (State.modBundle k f s).errw = s.errw ∧
    (State.modBundle k f s).sdio = s.sdio ∧ (State.modBundle k f s).bulk = s.bulk ∧
    (State.modBundle k f s).mgmt = s.mgmt ∧ (State.modBundle k f s).power = s.power ∧
    (State.modBundle k f s).sec = s.sec ∧ (State.modBundle k f s).therm = s.therm ∧
    (State.modBundle k f s).ports = s.ports ∧ (State.modBundle k f s).streams = s.streams ∧
    (State.modBundle k f s).services = s.services ∧ (State.modBundle k f s).ptpPorts = s.ptpPorts ∧
    (State.modBundle k f s).ptp = s.ptp ∧ (State.modBundle k f s).chans = s.chans ∧
    (State.modBundle k f s).seqs = s.seqs ∧ (State.modBundle k f s).hc = s.hc ∧
    (State.modBundle k f s).trim = s.trim ∧ (State.modBundle k f s).slots = s.slots ∧
    (State.modBundle k f s).wt = s.wt ∧ (State.modBundle k f s).mem = s.mem ∧
    (State.modBundle k f s).fwMem = s.fwMem ∧ (State.modBundle k f s).ms = s.ms ∧
    (State.modBundle k f s).pricks = s.pricks ∧ (State.modBundle k f s).templates = s.templates ∧
    (State.modBundle k f s).jobs = s.jobs ∧ (State.modBundle k f s).order = s.order ∧
    (State.modBundle k f s).pillows = s.pillows ∧ (State.modBundle k f s).free = s.free := by
  have hF0 := @State.setBundle_frame
  unfold State.modBundle; simp [hF0]

theorem State.setSlot_frame (k : Nat) (v : Slot) (s : State) : (State.setSlot k v s).now = s.now ∧
    (State.setSlot k v s).pending = s.pending ∧ (State.setSlot k v s).tb = s.tb ∧
    (State.setSlot k v s).sheets = s.sheets ∧ (State.setSlot k v s).units = s.units ∧
    (State.setSlot k v s).pins = s.pins ∧ (State.setSlot k v s).pk = s.pk ∧
    (State.setSlot k v s).queues = s.queues ∧ (State.setSlot k v s).latches = s.latches ∧
    (State.setSlot k v s).errw = s.errw ∧ (State.setSlot k v s).sdio = s.sdio ∧
    (State.setSlot k v s).bulk = s.bulk ∧ (State.setSlot k v s).mgmt = s.mgmt ∧
    (State.setSlot k v s).power = s.power ∧ (State.setSlot k v s).sec = s.sec ∧
    (State.setSlot k v s).therm = s.therm ∧ (State.setSlot k v s).ports = s.ports ∧
    (State.setSlot k v s).streams = s.streams ∧ (State.setSlot k v s).services = s.services ∧
    (State.setSlot k v s).ptpPorts = s.ptpPorts ∧ (State.setSlot k v s).ptp = s.ptp ∧
    (State.setSlot k v s).chans = s.chans ∧ (State.setSlot k v s).seqs = s.seqs ∧
    (State.setSlot k v s).hc = s.hc ∧ (State.setSlot k v s).trim = s.trim ∧
    (State.setSlot k v s).bundles = s.bundles ∧ (State.setSlot k v s).wt = s.wt ∧
    (State.setSlot k v s).mem = s.mem ∧ (State.setSlot k v s).fwMem = s.fwMem ∧
    (State.setSlot k v s).ms = s.ms ∧ (State.setSlot k v s).pricks = s.pricks ∧
    (State.setSlot k v s).templates = s.templates ∧ (State.setSlot k v s).jobs = s.jobs ∧
    (State.setSlot k v s).order = s.order ∧ (State.setSlot k v s).pillows = s.pillows ∧
    (State.setSlot k v s).free = s.free := by
  unfold State.setSlot; simp

theorem State.modSlot_frame (k : Nat) (f : Slot → Slot) (s : State) :
    (State.modSlot k f s).now = s.now ∧ (State.modSlot k f s).pending = s.pending ∧
    (State.modSlot k f s).tb = s.tb ∧ (State.modSlot k f s).sheets = s.sheets ∧
    (State.modSlot k f s).units = s.units ∧ (State.modSlot k f s).pins = s.pins ∧
    (State.modSlot k f s).pk = s.pk ∧ (State.modSlot k f s).queues = s.queues ∧
    (State.modSlot k f s).latches = s.latches ∧ (State.modSlot k f s).errw = s.errw ∧
    (State.modSlot k f s).sdio = s.sdio ∧ (State.modSlot k f s).bulk = s.bulk ∧
    (State.modSlot k f s).mgmt = s.mgmt ∧ (State.modSlot k f s).power = s.power ∧
    (State.modSlot k f s).sec = s.sec ∧ (State.modSlot k f s).therm = s.therm ∧
    (State.modSlot k f s).ports = s.ports ∧ (State.modSlot k f s).streams = s.streams ∧
    (State.modSlot k f s).services = s.services ∧ (State.modSlot k f s).ptpPorts = s.ptpPorts ∧
    (State.modSlot k f s).ptp = s.ptp ∧ (State.modSlot k f s).chans = s.chans ∧
    (State.modSlot k f s).seqs = s.seqs ∧ (State.modSlot k f s).hc = s.hc ∧
    (State.modSlot k f s).trim = s.trim ∧ (State.modSlot k f s).bundles = s.bundles ∧
    (State.modSlot k f s).wt = s.wt ∧ (State.modSlot k f s).mem = s.mem ∧
    (State.modSlot k f s).fwMem = s.fwMem ∧ (State.modSlot k f s).ms = s.ms ∧
    (State.modSlot k f s).pricks = s.pricks ∧ (State.modSlot k f s).templates = s.templates ∧
    (State.modSlot k f s).jobs = s.jobs ∧ (State.modSlot k f s).order = s.order ∧
    (State.modSlot k f s).pillows = s.pillows ∧ (State.modSlot k f s).free = s.free := by
  have hF0 := @State.setSlot_frame
  unfold State.modSlot; simp [hF0]

theorem State.setPrick_frame (k : Nat) (v : Option Prick) (s : State) :
    (State.setPrick k v s).now = s.now ∧ (State.setPrick k v s).pending = s.pending ∧
    (State.setPrick k v s).tb = s.tb ∧ (State.setPrick k v s).sheets = s.sheets ∧
    (State.setPrick k v s).units = s.units ∧ (State.setPrick k v s).pins = s.pins ∧
    (State.setPrick k v s).pk = s.pk ∧ (State.setPrick k v s).queues = s.queues ∧
    (State.setPrick k v s).latches = s.latches ∧ (State.setPrick k v s).errw = s.errw ∧
    (State.setPrick k v s).sdio = s.sdio ∧ (State.setPrick k v s).bulk = s.bulk ∧
    (State.setPrick k v s).mgmt = s.mgmt ∧ (State.setPrick k v s).power = s.power ∧
    (State.setPrick k v s).sec = s.sec ∧ (State.setPrick k v s).therm = s.therm ∧
    (State.setPrick k v s).ports = s.ports ∧ (State.setPrick k v s).streams = s.streams ∧
    (State.setPrick k v s).services = s.services ∧ (State.setPrick k v s).ptpPorts = s.ptpPorts ∧
    (State.setPrick k v s).ptp = s.ptp ∧ (State.setPrick k v s).chans = s.chans ∧
    (State.setPrick k v s).seqs = s.seqs ∧ (State.setPrick k v s).hc = s.hc ∧
    (State.setPrick k v s).trim = s.trim ∧ (State.setPrick k v s).bundles = s.bundles ∧
    (State.setPrick k v s).slots = s.slots ∧ (State.setPrick k v s).wt = s.wt ∧
    (State.setPrick k v s).mem = s.mem ∧ (State.setPrick k v s).fwMem = s.fwMem ∧
    (State.setPrick k v s).ms = s.ms ∧ (State.setPrick k v s).templates = s.templates ∧
    (State.setPrick k v s).jobs = s.jobs ∧ (State.setPrick k v s).order = s.order ∧
    (State.setPrick k v s).pillows = s.pillows ∧ (State.setPrick k v s).free = s.free := by
  unfold State.setPrick; simp

theorem State.modPrick_frame (k : Nat) (f : Prick → Prick) (s : State) :
    (State.modPrick k f s).now = s.now ∧ (State.modPrick k f s).pending = s.pending ∧
    (State.modPrick k f s).tb = s.tb ∧ (State.modPrick k f s).sheets = s.sheets ∧
    (State.modPrick k f s).units = s.units ∧ (State.modPrick k f s).pins = s.pins ∧
    (State.modPrick k f s).pk = s.pk ∧ (State.modPrick k f s).queues = s.queues ∧
    (State.modPrick k f s).latches = s.latches ∧ (State.modPrick k f s).errw = s.errw ∧
    (State.modPrick k f s).sdio = s.sdio ∧ (State.modPrick k f s).bulk = s.bulk ∧
    (State.modPrick k f s).mgmt = s.mgmt ∧ (State.modPrick k f s).power = s.power ∧
    (State.modPrick k f s).sec = s.sec ∧ (State.modPrick k f s).therm = s.therm ∧
    (State.modPrick k f s).ports = s.ports ∧ (State.modPrick k f s).streams = s.streams ∧
    (State.modPrick k f s).services = s.services ∧ (State.modPrick k f s).ptpPorts = s.ptpPorts ∧
    (State.modPrick k f s).ptp = s.ptp ∧ (State.modPrick k f s).chans = s.chans ∧
    (State.modPrick k f s).seqs = s.seqs ∧ (State.modPrick k f s).hc = s.hc ∧
    (State.modPrick k f s).trim = s.trim ∧ (State.modPrick k f s).bundles = s.bundles ∧
    (State.modPrick k f s).slots = s.slots ∧ (State.modPrick k f s).wt = s.wt ∧
    (State.modPrick k f s).mem = s.mem ∧ (State.modPrick k f s).fwMem = s.fwMem ∧
    (State.modPrick k f s).ms = s.ms ∧ (State.modPrick k f s).templates = s.templates ∧
    (State.modPrick k f s).jobs = s.jobs ∧ (State.modPrick k f s).order = s.order ∧
    (State.modPrick k f s).pillows = s.pillows ∧ (State.modPrick k f s).free = s.free := by
  have hF0 := @State.setPrick_frame
  unfold State.modPrick; simp [hF0]

theorem State.setTemplate_frame (k : Nat) (v : Option Template) (s : State) :
    (State.setTemplate k v s).now = s.now ∧ (State.setTemplate k v s).pending = s.pending ∧
    (State.setTemplate k v s).tb = s.tb ∧ (State.setTemplate k v s).sheets = s.sheets ∧
    (State.setTemplate k v s).units = s.units ∧ (State.setTemplate k v s).pins = s.pins ∧
    (State.setTemplate k v s).pk = s.pk ∧ (State.setTemplate k v s).queues = s.queues ∧
    (State.setTemplate k v s).latches = s.latches ∧ (State.setTemplate k v s).errw = s.errw ∧
    (State.setTemplate k v s).sdio = s.sdio ∧ (State.setTemplate k v s).bulk = s.bulk ∧
    (State.setTemplate k v s).mgmt = s.mgmt ∧ (State.setTemplate k v s).power = s.power ∧
    (State.setTemplate k v s).sec = s.sec ∧ (State.setTemplate k v s).therm = s.therm ∧
    (State.setTemplate k v s).ports = s.ports ∧ (State.setTemplate k v s).streams = s.streams ∧
    (State.setTemplate k v s).services = s.services ∧ (State.setTemplate k v s).ptpPorts = s.ptpPorts ∧
    (State.setTemplate k v s).ptp = s.ptp ∧ (State.setTemplate k v s).chans = s.chans ∧
    (State.setTemplate k v s).seqs = s.seqs ∧ (State.setTemplate k v s).hc = s.hc ∧
    (State.setTemplate k v s).trim = s.trim ∧ (State.setTemplate k v s).bundles = s.bundles ∧
    (State.setTemplate k v s).slots = s.slots ∧ (State.setTemplate k v s).wt = s.wt ∧
    (State.setTemplate k v s).mem = s.mem ∧ (State.setTemplate k v s).fwMem = s.fwMem ∧
    (State.setTemplate k v s).ms = s.ms ∧ (State.setTemplate k v s).pricks = s.pricks ∧
    (State.setTemplate k v s).jobs = s.jobs ∧ (State.setTemplate k v s).order = s.order ∧
    (State.setTemplate k v s).pillows = s.pillows ∧ (State.setTemplate k v s).free = s.free := by
  unfold State.setTemplate; simp

theorem State.modTemplate_frame (k : Nat) (f : Template → Template) (s : State) :
    (State.modTemplate k f s).now = s.now ∧ (State.modTemplate k f s).pending = s.pending ∧
    (State.modTemplate k f s).tb = s.tb ∧ (State.modTemplate k f s).sheets = s.sheets ∧
    (State.modTemplate k f s).units = s.units ∧ (State.modTemplate k f s).pins = s.pins ∧
    (State.modTemplate k f s).pk = s.pk ∧ (State.modTemplate k f s).queues = s.queues ∧
    (State.modTemplate k f s).latches = s.latches ∧ (State.modTemplate k f s).errw = s.errw ∧
    (State.modTemplate k f s).sdio = s.sdio ∧ (State.modTemplate k f s).bulk = s.bulk ∧
    (State.modTemplate k f s).mgmt = s.mgmt ∧ (State.modTemplate k f s).power = s.power ∧
    (State.modTemplate k f s).sec = s.sec ∧ (State.modTemplate k f s).therm = s.therm ∧
    (State.modTemplate k f s).ports = s.ports ∧ (State.modTemplate k f s).streams = s.streams ∧
    (State.modTemplate k f s).services = s.services ∧ (State.modTemplate k f s).ptpPorts = s.ptpPorts ∧
    (State.modTemplate k f s).ptp = s.ptp ∧ (State.modTemplate k f s).chans = s.chans ∧
    (State.modTemplate k f s).seqs = s.seqs ∧ (State.modTemplate k f s).hc = s.hc ∧
    (State.modTemplate k f s).trim = s.trim ∧ (State.modTemplate k f s).bundles = s.bundles ∧
    (State.modTemplate k f s).slots = s.slots ∧ (State.modTemplate k f s).wt = s.wt ∧
    (State.modTemplate k f s).mem = s.mem ∧ (State.modTemplate k f s).fwMem = s.fwMem ∧
    (State.modTemplate k f s).ms = s.ms ∧ (State.modTemplate k f s).pricks = s.pricks ∧
    (State.modTemplate k f s).jobs = s.jobs ∧ (State.modTemplate k f s).order = s.order ∧
    (State.modTemplate k f s).pillows = s.pillows ∧ (State.modTemplate k f s).free = s.free := by
  have hF0 := @State.setTemplate_frame
  unfold State.modTemplate; simp [hF0]

theorem State.setJob_frame (k : Nat) (v : Option Job) (s : State) :
    (State.setJob k v s).now = s.now ∧ (State.setJob k v s).pending = s.pending ∧
    (State.setJob k v s).tb = s.tb ∧ (State.setJob k v s).sheets = s.sheets ∧
    (State.setJob k v s).units = s.units ∧ (State.setJob k v s).pins = s.pins ∧
    (State.setJob k v s).pk = s.pk ∧ (State.setJob k v s).queues = s.queues ∧
    (State.setJob k v s).latches = s.latches ∧ (State.setJob k v s).errw = s.errw ∧
    (State.setJob k v s).sdio = s.sdio ∧ (State.setJob k v s).bulk = s.bulk ∧
    (State.setJob k v s).mgmt = s.mgmt ∧ (State.setJob k v s).power = s.power ∧
    (State.setJob k v s).sec = s.sec ∧ (State.setJob k v s).therm = s.therm ∧
    (State.setJob k v s).ports = s.ports ∧ (State.setJob k v s).streams = s.streams ∧
    (State.setJob k v s).services = s.services ∧ (State.setJob k v s).ptpPorts = s.ptpPorts ∧
    (State.setJob k v s).ptp = s.ptp ∧ (State.setJob k v s).chans = s.chans ∧
    (State.setJob k v s).seqs = s.seqs ∧ (State.setJob k v s).hc = s.hc ∧
    (State.setJob k v s).trim = s.trim ∧ (State.setJob k v s).bundles = s.bundles ∧
    (State.setJob k v s).slots = s.slots ∧ (State.setJob k v s).wt = s.wt ∧
    (State.setJob k v s).mem = s.mem ∧ (State.setJob k v s).fwMem = s.fwMem ∧
    (State.setJob k v s).ms = s.ms ∧ (State.setJob k v s).pricks = s.pricks ∧
    (State.setJob k v s).templates = s.templates ∧ (State.setJob k v s).order = s.order ∧
    (State.setJob k v s).pillows = s.pillows ∧ (State.setJob k v s).free = s.free := by
  unfold State.setJob; simp

theorem State.modJob_frame (k : Nat) (f : Job → Job) (s : State) :
    (State.modJob k f s).now = s.now ∧ (State.modJob k f s).pending = s.pending ∧
    (State.modJob k f s).tb = s.tb ∧ (State.modJob k f s).sheets = s.sheets ∧
    (State.modJob k f s).units = s.units ∧ (State.modJob k f s).pins = s.pins ∧
    (State.modJob k f s).pk = s.pk ∧ (State.modJob k f s).queues = s.queues ∧
    (State.modJob k f s).latches = s.latches ∧ (State.modJob k f s).errw = s.errw ∧
    (State.modJob k f s).sdio = s.sdio ∧ (State.modJob k f s).bulk = s.bulk ∧
    (State.modJob k f s).mgmt = s.mgmt ∧ (State.modJob k f s).power = s.power ∧
    (State.modJob k f s).sec = s.sec ∧ (State.modJob k f s).therm = s.therm ∧
    (State.modJob k f s).ports = s.ports ∧ (State.modJob k f s).streams = s.streams ∧
    (State.modJob k f s).services = s.services ∧ (State.modJob k f s).ptpPorts = s.ptpPorts ∧
    (State.modJob k f s).ptp = s.ptp ∧ (State.modJob k f s).chans = s.chans ∧
    (State.modJob k f s).seqs = s.seqs ∧ (State.modJob k f s).hc = s.hc ∧
    (State.modJob k f s).trim = s.trim ∧ (State.modJob k f s).bundles = s.bundles ∧
    (State.modJob k f s).slots = s.slots ∧ (State.modJob k f s).wt = s.wt ∧
    (State.modJob k f s).mem = s.mem ∧ (State.modJob k f s).fwMem = s.fwMem ∧
    (State.modJob k f s).ms = s.ms ∧ (State.modJob k f s).pricks = s.pricks ∧
    (State.modJob k f s).templates = s.templates ∧ (State.modJob k f s).order = s.order ∧
    (State.modJob k f s).pillows = s.pillows ∧ (State.modJob k f s).free = s.free := by
  have hF0 := @State.setJob_frame
  unfold State.modJob; simp [hF0]

theorem State.setPillow_frame (k : Nat) (v : Pillow) (s : State) :
    (State.setPillow k v s).now = s.now ∧ (State.setPillow k v s).pending = s.pending ∧
    (State.setPillow k v s).tb = s.tb ∧ (State.setPillow k v s).sheets = s.sheets ∧
    (State.setPillow k v s).units = s.units ∧ (State.setPillow k v s).pins = s.pins ∧
    (State.setPillow k v s).pk = s.pk ∧ (State.setPillow k v s).queues = s.queues ∧
    (State.setPillow k v s).latches = s.latches ∧ (State.setPillow k v s).errw = s.errw ∧
    (State.setPillow k v s).sdio = s.sdio ∧ (State.setPillow k v s).bulk = s.bulk ∧
    (State.setPillow k v s).mgmt = s.mgmt ∧ (State.setPillow k v s).power = s.power ∧
    (State.setPillow k v s).sec = s.sec ∧ (State.setPillow k v s).therm = s.therm ∧
    (State.setPillow k v s).ports = s.ports ∧ (State.setPillow k v s).streams = s.streams ∧
    (State.setPillow k v s).services = s.services ∧ (State.setPillow k v s).ptpPorts = s.ptpPorts ∧
    (State.setPillow k v s).ptp = s.ptp ∧ (State.setPillow k v s).chans = s.chans ∧
    (State.setPillow k v s).seqs = s.seqs ∧ (State.setPillow k v s).hc = s.hc ∧
    (State.setPillow k v s).trim = s.trim ∧ (State.setPillow k v s).bundles = s.bundles ∧
    (State.setPillow k v s).slots = s.slots ∧ (State.setPillow k v s).wt = s.wt ∧
    (State.setPillow k v s).mem = s.mem ∧ (State.setPillow k v s).fwMem = s.fwMem ∧
    (State.setPillow k v s).ms = s.ms ∧ (State.setPillow k v s).pricks = s.pricks ∧
    (State.setPillow k v s).templates = s.templates ∧ (State.setPillow k v s).jobs = s.jobs ∧
    (State.setPillow k v s).order = s.order ∧ (State.setPillow k v s).free = s.free := by
  unfold State.setPillow; simp

theorem State.modPillow_frame (k : Nat) (f : Pillow → Pillow) (s : State) :
    (State.modPillow k f s).now = s.now ∧ (State.modPillow k f s).pending = s.pending ∧
    (State.modPillow k f s).tb = s.tb ∧ (State.modPillow k f s).sheets = s.sheets ∧
    (State.modPillow k f s).units = s.units ∧ (State.modPillow k f s).pins = s.pins ∧
    (State.modPillow k f s).pk = s.pk ∧ (State.modPillow k f s).queues = s.queues ∧
    (State.modPillow k f s).latches = s.latches ∧ (State.modPillow k f s).errw = s.errw ∧
    (State.modPillow k f s).sdio = s.sdio ∧ (State.modPillow k f s).bulk = s.bulk ∧
    (State.modPillow k f s).mgmt = s.mgmt ∧ (State.modPillow k f s).power = s.power ∧
    (State.modPillow k f s).sec = s.sec ∧ (State.modPillow k f s).therm = s.therm ∧
    (State.modPillow k f s).ports = s.ports ∧ (State.modPillow k f s).streams = s.streams ∧
    (State.modPillow k f s).services = s.services ∧ (State.modPillow k f s).ptpPorts = s.ptpPorts ∧
    (State.modPillow k f s).ptp = s.ptp ∧ (State.modPillow k f s).chans = s.chans ∧
    (State.modPillow k f s).seqs = s.seqs ∧ (State.modPillow k f s).hc = s.hc ∧
    (State.modPillow k f s).trim = s.trim ∧ (State.modPillow k f s).bundles = s.bundles ∧
    (State.modPillow k f s).slots = s.slots ∧ (State.modPillow k f s).wt = s.wt ∧
    (State.modPillow k f s).mem = s.mem ∧ (State.modPillow k f s).fwMem = s.fwMem ∧
    (State.modPillow k f s).ms = s.ms ∧ (State.modPillow k f s).pricks = s.pricks ∧
    (State.modPillow k f s).templates = s.templates ∧ (State.modPillow k f s).jobs = s.jobs ∧
    (State.modPillow k f s).order = s.order ∧ (State.modPillow k f s).free = s.free := by
  have hF0 := @State.setPillow_frame
  unfold State.modPillow; simp [hF0]

theorem State.setBobbin_frame (p : Nat) (b : Nat) (v : Bobbin) (s : State) :
    (State.setBobbin p b v s).now = s.now ∧ (State.setBobbin p b v s).pending = s.pending ∧
    (State.setBobbin p b v s).tb = s.tb ∧ (State.setBobbin p b v s).sheets = s.sheets ∧
    (State.setBobbin p b v s).units = s.units ∧ (State.setBobbin p b v s).pins = s.pins ∧
    (State.setBobbin p b v s).pk = s.pk ∧ (State.setBobbin p b v s).queues = s.queues ∧
    (State.setBobbin p b v s).latches = s.latches ∧ (State.setBobbin p b v s).errw = s.errw ∧
    (State.setBobbin p b v s).sdio = s.sdio ∧ (State.setBobbin p b v s).bulk = s.bulk ∧
    (State.setBobbin p b v s).mgmt = s.mgmt ∧ (State.setBobbin p b v s).power = s.power ∧
    (State.setBobbin p b v s).sec = s.sec ∧ (State.setBobbin p b v s).therm = s.therm ∧
    (State.setBobbin p b v s).ports = s.ports ∧ (State.setBobbin p b v s).streams = s.streams ∧
    (State.setBobbin p b v s).services = s.services ∧ (State.setBobbin p b v s).ptpPorts = s.ptpPorts ∧
    (State.setBobbin p b v s).ptp = s.ptp ∧ (State.setBobbin p b v s).chans = s.chans ∧
    (State.setBobbin p b v s).seqs = s.seqs ∧ (State.setBobbin p b v s).hc = s.hc ∧
    (State.setBobbin p b v s).trim = s.trim ∧ (State.setBobbin p b v s).bundles = s.bundles ∧
    (State.setBobbin p b v s).slots = s.slots ∧ (State.setBobbin p b v s).wt = s.wt ∧
    (State.setBobbin p b v s).mem = s.mem ∧ (State.setBobbin p b v s).fwMem = s.fwMem ∧
    (State.setBobbin p b v s).ms = s.ms ∧ (State.setBobbin p b v s).pricks = s.pricks ∧
    (State.setBobbin p b v s).templates = s.templates ∧ (State.setBobbin p b v s).jobs = s.jobs ∧
    (State.setBobbin p b v s).order = s.order ∧ (State.setBobbin p b v s).free = s.free := by
  have hF0 := @State.modPillow_frame
  unfold State.setBobbin; simp [hF0]

theorem State.modBobbin_frame (p : Nat) (b : Nat) (f : Bobbin → Bobbin) (s : State) :
    (State.modBobbin p b f s).now = s.now ∧ (State.modBobbin p b f s).pending = s.pending ∧
    (State.modBobbin p b f s).tb = s.tb ∧ (State.modBobbin p b f s).sheets = s.sheets ∧
    (State.modBobbin p b f s).units = s.units ∧ (State.modBobbin p b f s).pins = s.pins ∧
    (State.modBobbin p b f s).pk = s.pk ∧ (State.modBobbin p b f s).queues = s.queues ∧
    (State.modBobbin p b f s).latches = s.latches ∧ (State.modBobbin p b f s).errw = s.errw ∧
    (State.modBobbin p b f s).sdio = s.sdio ∧ (State.modBobbin p b f s).bulk = s.bulk ∧
    (State.modBobbin p b f s).mgmt = s.mgmt ∧ (State.modBobbin p b f s).power = s.power ∧
    (State.modBobbin p b f s).sec = s.sec ∧ (State.modBobbin p b f s).therm = s.therm ∧
    (State.modBobbin p b f s).ports = s.ports ∧ (State.modBobbin p b f s).streams = s.streams ∧
    (State.modBobbin p b f s).services = s.services ∧ (State.modBobbin p b f s).ptpPorts = s.ptpPorts ∧
    (State.modBobbin p b f s).ptp = s.ptp ∧ (State.modBobbin p b f s).chans = s.chans ∧
    (State.modBobbin p b f s).seqs = s.seqs ∧ (State.modBobbin p b f s).hc = s.hc ∧
    (State.modBobbin p b f s).trim = s.trim ∧ (State.modBobbin p b f s).bundles = s.bundles ∧
    (State.modBobbin p b f s).slots = s.slots ∧ (State.modBobbin p b f s).wt = s.wt ∧
    (State.modBobbin p b f s).mem = s.mem ∧ (State.modBobbin p b f s).fwMem = s.fwMem ∧
    (State.modBobbin p b f s).ms = s.ms ∧ (State.modBobbin p b f s).pricks = s.pricks ∧
    (State.modBobbin p b f s).templates = s.templates ∧ (State.modBobbin p b f s).jobs = s.jobs ∧
    (State.modBobbin p b f s).order = s.order ∧ (State.modBobbin p b f s).free = s.free := by
  have hF0 := @State.setBobbin_frame
  unfold State.modBobbin; simp [hF0]

theorem State.draw_frame (s : State) : (State.draw s).2.now = s.now ∧
    (State.draw s).2.pending = s.pending ∧ (State.draw s).2.tb = s.tb ∧ (State.draw s).2.sheets = s.sheets ∧
    (State.draw s).2.units = s.units ∧ (State.draw s).2.pins = s.pins ∧ (State.draw s).2.pk = s.pk ∧
    (State.draw s).2.queues = s.queues ∧ (State.draw s).2.latches = s.latches ∧
    (State.draw s).2.errw = s.errw ∧ (State.draw s).2.sdio = s.sdio ∧ (State.draw s).2.bulk = s.bulk ∧
    (State.draw s).2.mgmt = s.mgmt ∧ (State.draw s).2.power = s.power ∧ (State.draw s).2.sec = s.sec ∧
    (State.draw s).2.therm = s.therm ∧ (State.draw s).2.ports = s.ports ∧
    (State.draw s).2.streams = s.streams ∧ (State.draw s).2.services = s.services ∧
    (State.draw s).2.ptpPorts = s.ptpPorts ∧ (State.draw s).2.ptp = s.ptp ∧
    (State.draw s).2.chans = s.chans ∧ (State.draw s).2.seqs = s.seqs ∧ (State.draw s).2.hc = s.hc ∧
    (State.draw s).2.trim = s.trim ∧ (State.draw s).2.bundles = s.bundles ∧
    (State.draw s).2.slots = s.slots ∧ (State.draw s).2.wt = s.wt ∧ (State.draw s).2.mem = s.mem ∧
    (State.draw s).2.fwMem = s.fwMem ∧ (State.draw s).2.ms = s.ms ∧ (State.draw s).2.pricks = s.pricks ∧
    (State.draw s).2.templates = s.templates ∧ (State.draw s).2.jobs = s.jobs ∧
    (State.draw s).2.order = s.order ∧ (State.draw s).2.pillows = s.pillows := by
  unfold State.draw; simp

/-! ## What an indexed part reads after a write -/

theorem State.unit_setUnit (k j : Nat) (v) (s : State) :
    (s.setUnit k v).unit j = if j = k then v else s.unit j := by
  unfold State.setUnit State.unit; exact tget_tset _ _ _ _ _

@[simp] theorem State.unit_setUnit_same (k : Nat) (v) (s : State) : (s.setUnit k v).unit k = v := by
  simp [State.unit_setUnit]

theorem State.pin_setPin (k j : Nat) (v) (s : State) :
    (s.setPin k v).pin j = if j = k then v else s.pin j := by
  unfold State.setPin State.pin; exact tget_tset _ _ _ _ _

@[simp] theorem State.pin_setPin_same (k : Nat) (v) (s : State) : (s.setPin k v).pin k = v := by
  simp [State.pin_setPin]

theorem State.queue_setQueue (k j : Nat) (v) (s : State) :
    (s.setQueue k v).queue j = if j = k then v else s.queue j := by
  unfold State.setQueue State.queue; exact tget_tset _ _ _ _ _

@[simp] theorem State.queue_setQueue_same (k : Nat) (v) (s : State) : (s.setQueue k v).queue k = v := by
  simp [State.queue_setQueue]

theorem State.latch_setLatch (k j : Nat) (v) (s : State) :
    (s.setLatch k v).latch j = if j = k then v else s.latch j := by
  unfold State.setLatch State.latch; exact tget_tset _ _ _ _ _

@[simp] theorem State.latch_setLatch_same (k : Nat) (v) (s : State) : (s.setLatch k v).latch k = v := by
  simp [State.latch_setLatch]

theorem State.port_setPort (k j : Nat) (v) (s : State) :
    (s.setPort k v).port j = if j = k then v else s.port j := by
  unfold State.setPort State.port; exact tget_tset _ _ _ _ _

@[simp] theorem State.port_setPort_same (k : Nat) (v) (s : State) : (s.setPort k v).port k = v := by
  simp [State.port_setPort]

theorem State.stream_setStream (k j : Nat) (v) (s : State) :
    (s.setStream k v).stream j = if j = k then v else s.stream j := by
  unfold State.setStream State.stream; exact tget_tset _ _ _ _ _

@[simp] theorem State.stream_setStream_same (k : Nat) (v) (s : State) : (s.setStream k v).stream k = v := by
  simp [State.stream_setStream]

theorem State.service_setService (k j : Nat) (v) (s : State) :
    (s.setService k v).service j = if j = k then v else s.service j := by
  unfold State.setService State.service; exact tget_tset _ _ _ _ _

@[simp] theorem State.service_setService_same (k : Nat) (v) (s : State) : (s.setService k v).service k = v := by
  simp [State.service_setService]

theorem State.ptpPort_setPtpPort (k j : Nat) (v) (s : State) :
    (s.setPtpPort k v).ptpPort j = if j = k then v else s.ptpPort j := by
  unfold State.setPtpPort State.ptpPort; exact tget_tset _ _ _ _ _

@[simp] theorem State.ptpPort_setPtpPort_same (k : Nat) (v) (s : State) : (s.setPtpPort k v).ptpPort k = v := by
  simp [State.ptpPort_setPtpPort]

theorem State.chan_setChan (k j : Nat) (v) (s : State) :
    (s.setChan k v).chan j = if j = k then v else s.chan j := by
  unfold State.setChan State.chan; exact tget_tset _ _ _ _ _

@[simp] theorem State.chan_setChan_same (k : Nat) (v) (s : State) : (s.setChan k v).chan k = v := by
  simp [State.chan_setChan]

theorem State.hseq_setHseq (k j : Nat) (v) (s : State) :
    (s.setHseq k v).hseq j = if j = k then v else s.hseq j := by
  unfold State.setHseq State.hseq; exact tget_tset _ _ _ _ _

@[simp] theorem State.hseq_setHseq_same (k : Nat) (v) (s : State) : (s.setHseq k v).hseq k = v := by
  simp [State.hseq_setHseq]

theorem State.bundle_setBundle (k j : Nat) (v) (s : State) :
    (s.setBundle k v).bundle j = if j = k then v else s.bundle j := by
  unfold State.setBundle State.bundle; exact tget_tset _ _ _ _ _

@[simp] theorem State.bundle_setBundle_same (k : Nat) (v) (s : State) : (s.setBundle k v).bundle k = v := by
  simp [State.bundle_setBundle]

theorem State.slot_setSlot (k j : Nat) (v) (s : State) :
    (s.setSlot k v).slot j = if j = k then v else s.slot j := by
  unfold State.setSlot State.slot; exact tget_tset _ _ _ _ _

@[simp] theorem State.slot_setSlot_same (k : Nat) (v) (s : State) : (s.setSlot k v).slot k = v := by
  simp [State.slot_setSlot]

theorem State.pillow_setPillow (k j : Nat) (v) (s : State) :
    (s.setPillow k v).pillow j = if j = k then v else s.pillow j := by
  unfold State.setPillow State.pillow; exact tget_tset _ _ _ _ _

@[simp] theorem State.pillow_setPillow_same (k : Nat) (v) (s : State) : (s.setPillow k v).pillow k = v := by
  simp [State.pillow_setPillow]

theorem State.prick_setPrick (k j : Nat) (v) (s : State) :
    (s.setPrick k v).prick j = if j = k then v else s.prick j := by
  unfold State.setPrick State.prick; exact tget_tset _ _ _ _ _

@[simp] theorem State.prick_setPrick_same (k : Nat) (v) (s : State) : (s.setPrick k v).prick k = v := by
  simp [State.prick_setPrick]

theorem State.template_setTemplate (k j : Nat) (v) (s : State) :
    (s.setTemplate k v).template j = if j = k then v else s.template j := by
  unfold State.setTemplate State.template; exact tget_tset _ _ _ _ _

@[simp] theorem State.template_setTemplate_same (k : Nat) (v) (s : State) : (s.setTemplate k v).template k = v := by
  simp [State.template_setTemplate]

theorem State.job_setJob (k j : Nat) (v) (s : State) :
    (s.setJob k v).job j = if j = k then v else s.job j := by
  unfold State.setJob State.job; exact tget_tset _ _ _ _ _

@[simp] theorem State.job_setJob_same (k : Nat) (v) (s : State) : (s.setJob k v).job k = v := by
  simp [State.job_setJob]

end Sys2Proof.Machine
end

