-- ==== Sys2Proof/Laws/FrameDevice.lean ====
section
/-! SUPPORT. Frames of the reporting, fault, house-converter, queue, power, memory-word and mapping
operations. -/

namespace Sys2Proof.Machine

/-! ## Report -/

theorem State.putQueue_frame (q : Nat) (x : Queue) (s : State) : (State.putQueue q x s).now = s.now ∧
    (State.putQueue q x s).pending = s.pending ∧ (State.putQueue q x s).tb = s.tb ∧
    (State.putQueue q x s).sheets = s.sheets ∧ (State.putQueue q x s).units = s.units ∧
    (State.putQueue q x s).pins = s.pins ∧ (State.putQueue q x s).pk = s.pk ∧
    (State.putQueue q x s).latches = s.latches ∧ (State.putQueue q x s).errw = s.errw ∧
    (State.putQueue q x s).bulk = s.bulk ∧ (State.putQueue q x s).mgmt = s.mgmt ∧
    (State.putQueue q x s).power = s.power ∧ (State.putQueue q x s).sec = s.sec ∧
    (State.putQueue q x s).therm = s.therm ∧ (State.putQueue q x s).ports = s.ports ∧
    (State.putQueue q x s).streams = s.streams ∧ (State.putQueue q x s).services = s.services ∧
    (State.putQueue q x s).ptpPorts = s.ptpPorts ∧ (State.putQueue q x s).ptp = s.ptp ∧
    (State.putQueue q x s).chans = s.chans ∧ (State.putQueue q x s).seqs = s.seqs ∧
    (State.putQueue q x s).hc = s.hc ∧ (State.putQueue q x s).trim = s.trim ∧
    (State.putQueue q x s).bundles = s.bundles ∧ (State.putQueue q x s).slots = s.slots ∧
    (State.putQueue q x s).wt = s.wt ∧ (State.putQueue q x s).mem = s.mem ∧
    (State.putQueue q x s).fwMem = s.fwMem ∧ (State.putQueue q x s).ms = s.ms ∧
    (State.putQueue q x s).pricks = s.pricks ∧ (State.putQueue q x s).templates = s.templates ∧
    (State.putQueue q x s).jobs = s.jobs ∧ (State.putQueue q x s).order = s.order ∧
    (State.putQueue q x s).pillows = s.pillows ∧ (State.putQueue q x s).free = s.free := by
  have hF0 := @State.setQueue_frame
  unfold State.putQueue; simp [hF0]

theorem State.present_frame (q : Nat) (p : QPacket) (s : State) : (State.present q p s).now = s.now ∧
    (State.present q p s).pending = s.pending ∧ (State.present q p s).tb = s.tb ∧
    (State.present q p s).sheets = s.sheets ∧ (State.present q p s).units = s.units ∧
    (State.present q p s).pins = s.pins ∧ (State.present q p s).pk = s.pk ∧
    (State.present q p s).latches = s.latches ∧ (State.present q p s).errw = s.errw ∧
    (State.present q p s).bulk = s.bulk ∧ (State.present q p s).mgmt = s.mgmt ∧
    (State.present q p s).power = s.power ∧ (State.present q p s).sec = s.sec ∧
    (State.present q p s).therm = s.therm ∧ (State.present q p s).ports = s.ports ∧
    (State.present q p s).streams = s.streams ∧ (State.present q p s).services = s.services ∧
    (State.present q p s).ptpPorts = s.ptpPorts ∧ (State.present q p s).ptp = s.ptp ∧
    (State.present q p s).chans = s.chans ∧ (State.present q p s).seqs = s.seqs ∧
    (State.present q p s).hc = s.hc ∧ (State.present q p s).trim = s.trim ∧
    (State.present q p s).bundles = s.bundles ∧ (State.present q p s).slots = s.slots ∧
    (State.present q p s).wt = s.wt ∧ (State.present q p s).mem = s.mem ∧
    (State.present q p s).fwMem = s.fwMem ∧ (State.present q p s).ms = s.ms ∧
    (State.present q p s).pricks = s.pricks ∧ (State.present q p s).templates = s.templates ∧
    (State.present q p s).jobs = s.jobs ∧ (State.present q p s).order = s.order ∧
    (State.present q p s).pillows = s.pillows ∧ (State.present q p s).free = s.free := by
  have hF0 := @State.putQueue_frame
  unfold State.present; simp [hF0]

theorem State.presentLatch_frame (cls : Nat) (s : State) : (State.presentLatch cls s).now = s.now ∧
    (State.presentLatch cls s).pending = s.pending ∧ (State.presentLatch cls s).tb = s.tb ∧
    (State.presentLatch cls s).sheets = s.sheets ∧ (State.presentLatch cls s).units = s.units ∧
    (State.presentLatch cls s).pins = s.pins ∧ (State.presentLatch cls s).pk = s.pk ∧
    (State.presentLatch cls s).errw = s.errw ∧ (State.presentLatch cls s).bulk = s.bulk ∧
    (State.presentLatch cls s).mgmt = s.mgmt ∧ (State.presentLatch cls s).power = s.power ∧
    (State.presentLatch cls s).sec = s.sec ∧ (State.presentLatch cls s).therm = s.therm ∧
    (State.presentLatch cls s).ports = s.ports ∧ (State.presentLatch cls s).streams = s.streams ∧
    (State.presentLatch cls s).services = s.services ∧ (State.presentLatch cls s).ptpPorts = s.ptpPorts ∧
    (State.presentLatch cls s).ptp = s.ptp ∧ (State.presentLatch cls s).chans = s.chans ∧
    (State.presentLatch cls s).seqs = s.seqs ∧ (State.presentLatch cls s).hc = s.hc ∧
    (State.presentLatch cls s).trim = s.trim ∧ (State.presentLatch cls s).bundles = s.bundles ∧
    (State.presentLatch cls s).slots = s.slots ∧ (State.presentLatch cls s).wt = s.wt ∧
    (State.presentLatch cls s).mem = s.mem ∧ (State.presentLatch cls s).fwMem = s.fwMem ∧
    (State.presentLatch cls s).ms = s.ms ∧ (State.presentLatch cls s).pricks = s.pricks ∧
    (State.presentLatch cls s).templates = s.templates ∧ (State.presentLatch cls s).jobs = s.jobs ∧
    (State.presentLatch cls s).order = s.order ∧ (State.presentLatch cls s).pillows = s.pillows ∧
    (State.presentLatch cls s).free = s.free := by
  have hF0 := @State.setLatch_frame
  have hF1 := @State.putQueue_frame
  have hF2 := @State.modQueue_frame
  unfold State.presentLatch; simp [hF0, hF1, hF2]

theorem State.report_frame (r : ErrReport) (s : State) : (State.report r s).now = s.now ∧
    (State.report r s).pending = s.pending ∧ (State.report r s).tb = s.tb ∧
    (State.report r s).sheets = s.sheets ∧ (State.report r s).units = s.units ∧
    (State.report r s).pins = s.pins ∧ (State.report r s).pk = s.pk ∧ (State.report r s).errw = s.errw ∧
    (State.report r s).bulk = s.bulk ∧ (State.report r s).mgmt = s.mgmt ∧
    (State.report r s).power = s.power ∧ (State.report r s).sec = s.sec ∧
    (State.report r s).therm = s.therm ∧ (State.report r s).ports = s.ports ∧
    (State.report r s).streams = s.streams ∧ (State.report r s).services = s.services ∧
    (State.report r s).ptpPorts = s.ptpPorts ∧ (State.report r s).ptp = s.ptp ∧
    (State.report r s).chans = s.chans ∧ (State.report r s).seqs = s.seqs ∧ (State.report r s).hc = s.hc ∧
    (State.report r s).trim = s.trim ∧ (State.report r s).bundles = s.bundles ∧
    (State.report r s).slots = s.slots ∧ (State.report r s).wt = s.wt ∧ (State.report r s).mem = s.mem ∧
    (State.report r s).fwMem = s.fwMem ∧ (State.report r s).ms = s.ms ∧
    (State.report r s).pricks = s.pricks ∧ (State.report r s).templates = s.templates ∧
    (State.report r s).jobs = s.jobs ∧ (State.report r s).order = s.order ∧
    (State.report r s).pillows = s.pillows ∧ (State.report r s).free = s.free := by
  have hF0 := @State.setLatch_frame
  have hF1 := @State.presentLatch_frame
  unfold State.report; simp [hF0, hF1]

theorem State.reportAll_frame (x0 : List ErrReport) (x1 : State) : (State.reportAll x0 x1).now = x1.now ∧
    (State.reportAll x0 x1).pending = x1.pending ∧ (State.reportAll x0 x1).tb = x1.tb ∧
    (State.reportAll x0 x1).sheets = x1.sheets ∧ (State.reportAll x0 x1).units = x1.units ∧
    (State.reportAll x0 x1).pins = x1.pins ∧ (State.reportAll x0 x1).pk = x1.pk ∧
    (State.reportAll x0 x1).errw = x1.errw ∧ (State.reportAll x0 x1).bulk = x1.bulk ∧
    (State.reportAll x0 x1).mgmt = x1.mgmt ∧ (State.reportAll x0 x1).power = x1.power ∧
    (State.reportAll x0 x1).sec = x1.sec ∧ (State.reportAll x0 x1).therm = x1.therm ∧
    (State.reportAll x0 x1).ports = x1.ports ∧ (State.reportAll x0 x1).streams = x1.streams ∧
    (State.reportAll x0 x1).services = x1.services ∧ (State.reportAll x0 x1).ptpPorts = x1.ptpPorts ∧
    (State.reportAll x0 x1).ptp = x1.ptp ∧ (State.reportAll x0 x1).chans = x1.chans ∧
    (State.reportAll x0 x1).seqs = x1.seqs ∧ (State.reportAll x0 x1).hc = x1.hc ∧
    (State.reportAll x0 x1).trim = x1.trim ∧ (State.reportAll x0 x1).bundles = x1.bundles ∧
    (State.reportAll x0 x1).slots = x1.slots ∧ (State.reportAll x0 x1).wt = x1.wt ∧
    (State.reportAll x0 x1).mem = x1.mem ∧ (State.reportAll x0 x1).fwMem = x1.fwMem ∧
    (State.reportAll x0 x1).ms = x1.ms ∧ (State.reportAll x0 x1).pricks = x1.pricks ∧
    (State.reportAll x0 x1).templates = x1.templates ∧ (State.reportAll x0 x1).jobs = x1.jobs ∧
    (State.reportAll x0 x1).order = x1.order ∧ (State.reportAll x0 x1).pillows = x1.pillows ∧
    (State.reportAll x0 x1).free = x1.free := by
  have hF0 := @State.report_frame
  induction x0 generalizing x1 <;> simp_all [State.reportAll]

theorem State.rearm_frame (cls : Nat) (s : State) : (State.rearm cls s).now = s.now ∧
    (State.rearm cls s).pending = s.pending ∧ (State.rearm cls s).tb = s.tb ∧
    (State.rearm cls s).sheets = s.sheets ∧ (State.rearm cls s).units = s.units ∧
    (State.rearm cls s).pins = s.pins ∧ (State.rearm cls s).pk = s.pk ∧
    (State.rearm cls s).queues = s.queues ∧ (State.rearm cls s).errw = s.errw ∧
    (State.rearm cls s).sdio = s.sdio ∧ (State.rearm cls s).bulk = s.bulk ∧
    (State.rearm cls s).mgmt = s.mgmt ∧ (State.rearm cls s).power = s.power ∧
    (State.rearm cls s).sec = s.sec ∧ (State.rearm cls s).therm = s.therm ∧
    (State.rearm cls s).ports = s.ports ∧ (State.rearm cls s).streams = s.streams ∧
    (State.rearm cls s).services = s.services ∧ (State.rearm cls s).ptpPorts = s.ptpPorts ∧
    (State.rearm cls s).ptp = s.ptp ∧ (State.rearm cls s).chans = s.chans ∧
    (State.rearm cls s).seqs = s.seqs ∧ (State.rearm cls s).hc = s.hc ∧ (State.rearm cls s).trim = s.trim ∧
    (State.rearm cls s).bundles = s.bundles ∧ (State.rearm cls s).slots = s.slots ∧
    (State.rearm cls s).wt = s.wt ∧ (State.rearm cls s).mem = s.mem ∧ (State.rearm cls s).fwMem = s.fwMem ∧
    (State.rearm cls s).ms = s.ms ∧ (State.rearm cls s).pricks = s.pricks ∧
    (State.rearm cls s).templates = s.templates ∧ (State.rearm cls s).jobs = s.jobs ∧
    (State.rearm cls s).order = s.order ∧ (State.rearm cls s).pillows = s.pillows ∧
    (State.rearm cls s).free = s.free := by
  have hF0 := @State.setLatch_frame
  unfold State.rearm; simp [hF0]

theorem State.reply_frame (h : Hdr) (op : Nat) (form : Nat) (status : Nat) (payload : Bytes) (s : State) :
    (State.reply h op form status payload s).now = s.now ∧
    (State.reply h op form status payload s).pending = s.pending ∧
    (State.reply h op form status payload s).tb = s.tb ∧
    (State.reply h op form status payload s).sheets = s.sheets ∧
    (State.reply h op form status payload s).units = s.units ∧
    (State.reply h op form status payload s).pins = s.pins ∧
    (State.reply h op form status payload s).pk = s.pk ∧
    (State.reply h op form status payload s).latches = s.latches ∧
    (State.reply h op form status payload s).errw = s.errw ∧
    (State.reply h op form status payload s).bulk = s.bulk ∧
    (State.reply h op form status payload s).mgmt = s.mgmt ∧
    (State.reply h op form status payload s).power = s.power ∧
    (State.reply h op form status payload s).sec = s.sec ∧
    (State.reply h op form status payload s).therm = s.therm ∧
    (State.reply h op form status payload s).ports = s.ports ∧
    (State.reply h op form status payload s).streams = s.streams ∧
    (State.reply h op form status payload s).services = s.services ∧
    (State.reply h op form status payload s).ptpPorts = s.ptpPorts ∧
    (State.reply h op form status payload s).ptp = s.ptp ∧
    (State.reply h op form status payload s).chans = s.chans ∧
    (State.reply h op form status payload s).seqs = s.seqs ∧
    (State.reply h op form status payload s).hc = s.hc ∧
    (State.reply h op form status payload s).trim = s.trim ∧
    (State.reply h op form status payload s).bundles = s.bundles ∧
    (State.reply h op form status payload s).slots = s.slots ∧
    (State.reply h op form status payload s).wt = s.wt ∧
    (State.reply h op form status payload s).mem = s.mem ∧
    (State.reply h op form status payload s).fwMem = s.fwMem ∧
    (State.reply h op form status payload s).ms = s.ms ∧
    (State.reply h op form status payload s).pricks = s.pricks ∧
    (State.reply h op form status payload s).templates = s.templates ∧
    (State.reply h op form status payload s).jobs = s.jobs ∧
    (State.reply h op form status payload s).order = s.order ∧
    (State.reply h op form status payload s).pillows = s.pillows ∧
    (State.reply h op form status payload s).free = s.free := by
  have hF0 := @State.present_frame
  unfold State.reply; simp [hF0]

theorem State.release_frame (op : Nat) (tag : BitVec 32) (s : State) :
    (State.release op tag s).now = s.now ∧ (State.release op tag s).pending = s.pending ∧
    (State.release op tag s).tb = s.tb ∧ (State.release op tag s).sheets = s.sheets ∧
    (State.release op tag s).units = s.units ∧ (State.release op tag s).pins = s.pins ∧
    (State.release op tag s).pk = s.pk ∧ (State.release op tag s).queues = s.queues ∧
    (State.release op tag s).latches = s.latches ∧ (State.release op tag s).errw = s.errw ∧
    (State.release op tag s).sdio = s.sdio ∧ (State.release op tag s).bulk = s.bulk ∧
    (State.release op tag s).power = s.power ∧ (State.release op tag s).sec = s.sec ∧
    (State.release op tag s).therm = s.therm ∧ (State.release op tag s).ports = s.ports ∧
    (State.release op tag s).streams = s.streams ∧ (State.release op tag s).services = s.services ∧
    (State.release op tag s).ptpPorts = s.ptpPorts ∧ (State.release op tag s).ptp = s.ptp ∧
    (State.release op tag s).chans = s.chans ∧ (State.release op tag s).seqs = s.seqs ∧
    (State.release op tag s).hc = s.hc ∧ (State.release op tag s).trim = s.trim ∧
    (State.release op tag s).bundles = s.bundles ∧ (State.release op tag s).slots = s.slots ∧
    (State.release op tag s).wt = s.wt ∧ (State.release op tag s).mem = s.mem ∧
    (State.release op tag s).fwMem = s.fwMem ∧ (State.release op tag s).ms = s.ms ∧
    (State.release op tag s).pricks = s.pricks ∧ (State.release op tag s).templates = s.templates ∧
    (State.release op tag s).jobs = s.jobs ∧ (State.release op tag s).order = s.order ∧
    (State.release op tag s).pillows = s.pillows ∧ (State.release op tag s).free = s.free := by
  unfold State.release; simp

theorem State.event_frame (code : Nat) (status : Nat) (payload : Bytes) (s : State) :
    (State.event code status payload s).now = s.now ∧
    (State.event code status payload s).pending = s.pending ∧
    (State.event code status payload s).tb = s.tb ∧ (State.event code status payload s).sheets = s.sheets ∧
    (State.event code status payload s).units = s.units ∧
    (State.event code status payload s).pins = s.pins ∧ (State.event code status payload s).pk = s.pk ∧
    (State.event code status payload s).latches = s.latches ∧
    (State.event code status payload s).errw = s.errw ∧ (State.event code status payload s).bulk = s.bulk ∧
    (State.event code status payload s).mgmt = s.mgmt ∧
    (State.event code status payload s).power = s.power ∧ (State.event code status payload s).sec = s.sec ∧
    (State.event code status payload s).therm = s.therm ∧
    (State.event code status payload s).ports = s.ports ∧
    (State.event code status payload s).streams = s.streams ∧
    (State.event code status payload s).services = s.services ∧
    (State.event code status payload s).ptpPorts = s.ptpPorts ∧
    (State.event code status payload s).ptp = s.ptp ∧ (State.event code status payload s).chans = s.chans ∧
    (State.event code status payload s).seqs = s.seqs ∧ (State.event code status payload s).hc = s.hc ∧
    (State.event code status payload s).trim = s.trim ∧
    (State.event code status payload s).bundles = s.bundles ∧
    (State.event code status payload s).slots = s.slots ∧ (State.event code status payload s).wt = s.wt ∧
    (State.event code status payload s).mem = s.mem ∧ (State.event code status payload s).fwMem = s.fwMem ∧
    (State.event code status payload s).ms = s.ms ∧ (State.event code status payload s).pricks = s.pricks ∧
    (State.event code status payload s).templates = s.templates ∧
    (State.event code status payload s).jobs = s.jobs ∧
    (State.event code status payload s).order = s.order ∧
    (State.event code status payload s).pillows = s.pillows ∧
    (State.event code status payload s).free = s.free := by
  have hF0 := @State.present_frame
  unfold State.event; simp [hF0]

theorem State.refuse_frame (h : Hdr) (op : Nat) (form : Nat) (r : Reject) (s : State) :
    (State.refuse h op form r s).now = s.now ∧ (State.refuse h op form r s).pending = s.pending ∧
    (State.refuse h op form r s).tb = s.tb ∧ (State.refuse h op form r s).sheets = s.sheets ∧
    (State.refuse h op form r s).units = s.units ∧ (State.refuse h op form r s).pins = s.pins ∧
    (State.refuse h op form r s).pk = s.pk ∧ (State.refuse h op form r s).latches = s.latches ∧
    (State.refuse h op form r s).errw = s.errw ∧ (State.refuse h op form r s).bulk = s.bulk ∧
    (State.refuse h op form r s).power = s.power ∧ (State.refuse h op form r s).sec = s.sec ∧
    (State.refuse h op form r s).therm = s.therm ∧ (State.refuse h op form r s).ports = s.ports ∧
    (State.refuse h op form r s).streams = s.streams ∧ (State.refuse h op form r s).services = s.services ∧
    (State.refuse h op form r s).ptpPorts = s.ptpPorts ∧ (State.refuse h op form r s).ptp = s.ptp ∧
    (State.refuse h op form r s).chans = s.chans ∧ (State.refuse h op form r s).seqs = s.seqs ∧
    (State.refuse h op form r s).hc = s.hc ∧ (State.refuse h op form r s).trim = s.trim ∧
    (State.refuse h op form r s).bundles = s.bundles ∧ (State.refuse h op form r s).slots = s.slots ∧
    (State.refuse h op form r s).wt = s.wt ∧ (State.refuse h op form r s).mem = s.mem ∧
    (State.refuse h op form r s).fwMem = s.fwMem ∧ (State.refuse h op form r s).ms = s.ms ∧
    (State.refuse h op form r s).pricks = s.pricks ∧ (State.refuse h op form r s).templates = s.templates ∧
    (State.refuse h op form r s).jobs = s.jobs ∧ (State.refuse h op form r s).order = s.order ∧
    (State.refuse h op form r s).pillows = s.pillows ∧ (State.refuse h op form r s).free = s.free := by
  have hF0 := @State.release_frame
  have hF1 := @State.reply_frame
  unfold State.refuse; simp [hF0, hF1]

theorem State.done_frame (h : Hdr) (op : Nat) (form : Nat) (payload : Bytes) (s : State) :
    (State.done h op form payload s).now = s.now ∧ (State.done h op form payload s).pending = s.pending ∧
    (State.done h op form payload s).tb = s.tb ∧ (State.done h op form payload s).sheets = s.sheets ∧
    (State.done h op form payload s).units = s.units ∧ (State.done h op form payload s).pins = s.pins ∧
    (State.done h op form payload s).pk = s.pk ∧ (State.done h op form payload s).latches = s.latches ∧
    (State.done h op form payload s).errw = s.errw ∧ (State.done h op form payload s).bulk = s.bulk ∧
    (State.done h op form payload s).power = s.power ∧ (State.done h op form payload s).sec = s.sec ∧
    (State.done h op form payload s).therm = s.therm ∧ (State.done h op form payload s).ports = s.ports ∧
    (State.done h op form payload s).streams = s.streams ∧
    (State.done h op form payload s).services = s.services ∧
    (State.done h op form payload s).ptpPorts = s.ptpPorts ∧ (State.done h op form payload s).ptp = s.ptp ∧
    (State.done h op form payload s).chans = s.chans ∧ (State.done h op form payload s).seqs = s.seqs ∧
    (State.done h op form payload s).hc = s.hc ∧ (State.done h op form payload s).trim = s.trim ∧
    (State.done h op form payload s).bundles = s.bundles ∧
    (State.done h op form payload s).slots = s.slots ∧ (State.done h op form payload s).wt = s.wt ∧
    (State.done h op form payload s).mem = s.mem ∧ (State.done h op form payload s).fwMem = s.fwMem ∧
    (State.done h op form payload s).ms = s.ms ∧ (State.done h op form payload s).pricks = s.pricks ∧
    (State.done h op form payload s).templates = s.templates ∧
    (State.done h op form payload s).jobs = s.jobs ∧ (State.done h op form payload s).order = s.order ∧
    (State.done h op form payload s).pillows = s.pillows ∧
    (State.done h op form payload s).free = s.free := by
  have hF0 := @State.release_frame
  have hF1 := @State.reply_frame
  unfold State.done; simp [hF0, hF1]

theorem State.disarm_frame (s : State) : (State.disarm s).now = s.now ∧
    (State.disarm s).pending = s.pending ∧ (State.disarm s).tb = s.tb ∧ (State.disarm s).sheets = s.sheets ∧
    (State.disarm s).units = s.units ∧ (State.disarm s).pins = s.pins ∧ (State.disarm s).pk = s.pk ∧
    (State.disarm s).queues = s.queues ∧ (State.disarm s).latches = s.latches ∧
    (State.disarm s).errw = s.errw ∧ (State.disarm s).sdio = s.sdio ∧ (State.disarm s).bulk = s.bulk ∧
    (State.disarm s).mgmt = s.mgmt ∧ (State.disarm s).power = s.power ∧ (State.disarm s).therm = s.therm ∧
    (State.disarm s).ports = s.ports ∧ (State.disarm s).streams = s.streams ∧
    (State.disarm s).services = s.services ∧ (State.disarm s).ptpPorts = s.ptpPorts ∧
    (State.disarm s).ptp = s.ptp ∧ (State.disarm s).chans = s.chans ∧ (State.disarm s).seqs = s.seqs ∧
    (State.disarm s).hc = s.hc ∧ (State.disarm s).trim = s.trim ∧ (State.disarm s).bundles = s.bundles ∧
    (State.disarm s).slots = s.slots ∧ (State.disarm s).wt = s.wt ∧ (State.disarm s).mem = s.mem ∧
    (State.disarm s).fwMem = s.fwMem ∧ (State.disarm s).ms = s.ms ∧ (State.disarm s).pricks = s.pricks ∧
    (State.disarm s).templates = s.templates ∧ (State.disarm s).jobs = s.jobs ∧
    (State.disarm s).order = s.order ∧ (State.disarm s).pillows = s.pillows ∧
    (State.disarm s).free = s.free := by
  unfold State.disarm; simp

theorem State.enterRecovery_frame (cause : Nat) (s : State) : (State.enterRecovery cause s).now = s.now ∧
    (State.enterRecovery cause s).pending = s.pending ∧ (State.enterRecovery cause s).tb = s.tb ∧
    (State.enterRecovery cause s).sheets = s.sheets ∧ (State.enterRecovery cause s).units = s.units ∧
    (State.enterRecovery cause s).pins = s.pins ∧ (State.enterRecovery cause s).pk = s.pk ∧
    (State.enterRecovery cause s).errw = s.errw ∧ (State.enterRecovery cause s).bulk = s.bulk ∧
    (State.enterRecovery cause s).power = s.power ∧ (State.enterRecovery cause s).sec = s.sec ∧
    (State.enterRecovery cause s).therm = s.therm ∧ (State.enterRecovery cause s).ports = s.ports ∧
    (State.enterRecovery cause s).streams = s.streams ∧
    (State.enterRecovery cause s).services = s.services ∧
    (State.enterRecovery cause s).ptpPorts = s.ptpPorts ∧ (State.enterRecovery cause s).ptp = s.ptp ∧
    (State.enterRecovery cause s).chans = s.chans ∧ (State.enterRecovery cause s).seqs = s.seqs ∧
    (State.enterRecovery cause s).hc = s.hc ∧ (State.enterRecovery cause s).trim = s.trim ∧
    (State.enterRecovery cause s).bundles = s.bundles ∧ (State.enterRecovery cause s).slots = s.slots ∧
    (State.enterRecovery cause s).wt = s.wt ∧ (State.enterRecovery cause s).mem = s.mem ∧
    (State.enterRecovery cause s).fwMem = s.fwMem ∧ (State.enterRecovery cause s).ms = s.ms ∧
    (State.enterRecovery cause s).pricks = s.pricks ∧
    (State.enterRecovery cause s).templates = s.templates ∧ (State.enterRecovery cause s).jobs = s.jobs ∧
    (State.enterRecovery cause s).order = s.order ∧ (State.enterRecovery cause s).pillows = s.pillows ∧
    (State.enterRecovery cause s).free = s.free := by
  have hF0 := @State.report_frame
  unfold State.enterRecovery; simp [hF0]

theorem State.packetLost_frame (q : Nat) (p : QPacket) (s : State) : (State.packetLost q p s).now = s.now ∧
    (State.packetLost q p s).pending = s.pending ∧ (State.packetLost q p s).tb = s.tb ∧
    (State.packetLost q p s).sheets = s.sheets ∧ (State.packetLost q p s).units = s.units ∧
    (State.packetLost q p s).pins = s.pins ∧ (State.packetLost q p s).pk = s.pk ∧
    (State.packetLost q p s).errw = s.errw ∧ (State.packetLost q p s).bulk = s.bulk ∧
    (State.packetLost q p s).power = s.power ∧ (State.packetLost q p s).sec = s.sec ∧
    (State.packetLost q p s).therm = s.therm ∧ (State.packetLost q p s).ports = s.ports ∧
    (State.packetLost q p s).streams = s.streams ∧ (State.packetLost q p s).services = s.services ∧
    (State.packetLost q p s).ptpPorts = s.ptpPorts ∧ (State.packetLost q p s).ptp = s.ptp ∧
    (State.packetLost q p s).chans = s.chans ∧ (State.packetLost q p s).seqs = s.seqs ∧
    (State.packetLost q p s).hc = s.hc ∧ (State.packetLost q p s).trim = s.trim ∧
    (State.packetLost q p s).bundles = s.bundles ∧ (State.packetLost q p s).slots = s.slots ∧
    (State.packetLost q p s).wt = s.wt ∧ (State.packetLost q p s).mem = s.mem ∧
    (State.packetLost q p s).fwMem = s.fwMem ∧ (State.packetLost q p s).ms = s.ms ∧
    (State.packetLost q p s).pricks = s.pricks ∧ (State.packetLost q p s).templates = s.templates ∧
    (State.packetLost q p s).jobs = s.jobs ∧ (State.packetLost q p s).order = s.order ∧
    (State.packetLost q p s).pillows = s.pillows ∧ (State.packetLost q p s).free = s.free := by
  have hF0 := @State.enterRecovery_frame
  have hF1 := @State.report_frame
  have hF2 := @State.modQueue_frame
  unfold State.packetLost; simp [hF0, hF1, hF2]

theorem State.wordsCorrected_frame (q : Nat) (n : Nat) (s : State) :
    (State.wordsCorrected q n s).now = s.now ∧ (State.wordsCorrected q n s).pending = s.pending ∧
    (State.wordsCorrected q n s).tb = s.tb ∧ (State.wordsCorrected q n s).sheets = s.sheets ∧
    (State.wordsCorrected q n s).units = s.units ∧ (State.wordsCorrected q n s).pins = s.pins ∧
    (State.wordsCorrected q n s).pk = s.pk ∧ (State.wordsCorrected q n s).latches = s.latches ∧
    (State.wordsCorrected q n s).errw = s.errw ∧ (State.wordsCorrected q n s).sdio = s.sdio ∧
    (State.wordsCorrected q n s).bulk = s.bulk ∧ (State.wordsCorrected q n s).mgmt = s.mgmt ∧
    (State.wordsCorrected q n s).power = s.power ∧ (State.wordsCorrected q n s).sec = s.sec ∧
    (State.wordsCorrected q n s).therm = s.therm ∧ (State.wordsCorrected q n s).ports = s.ports ∧
    (State.wordsCorrected q n s).streams = s.streams ∧ (State.wordsCorrected q n s).services = s.services ∧
    (State.wordsCorrected q n s).ptpPorts = s.ptpPorts ∧ (State.wordsCorrected q n s).ptp = s.ptp ∧
    (State.wordsCorrected q n s).chans = s.chans ∧ (State.wordsCorrected q n s).seqs = s.seqs ∧
    (State.wordsCorrected q n s).hc = s.hc ∧ (State.wordsCorrected q n s).trim = s.trim ∧
    (State.wordsCorrected q n s).bundles = s.bundles ∧ (State.wordsCorrected q n s).slots = s.slots ∧
    (State.wordsCorrected q n s).wt = s.wt ∧ (State.wordsCorrected q n s).mem = s.mem ∧
    (State.wordsCorrected q n s).fwMem = s.fwMem ∧ (State.wordsCorrected q n s).ms = s.ms ∧
    (State.wordsCorrected q n s).pricks = s.pricks ∧ (State.wordsCorrected q n s).templates = s.templates ∧
    (State.wordsCorrected q n s).jobs = s.jobs ∧ (State.wordsCorrected q n s).order = s.order ∧
    (State.wordsCorrected q n s).pillows = s.pillows ∧ (State.wordsCorrected q n s).free = s.free := by
  have hF0 := @State.modQueue_frame
  unfold State.wordsCorrected; simp [hF0]

theorem State.takeClean_frame (q : Nat) (s : State) : (State.takeClean q s).2.now = s.now ∧
    (State.takeClean q s).2.pending = s.pending ∧ (State.takeClean q s).2.tb = s.tb ∧
    (State.takeClean q s).2.sheets = s.sheets ∧ (State.takeClean q s).2.units = s.units ∧
    (State.takeClean q s).2.pins = s.pins ∧ (State.takeClean q s).2.pk = s.pk ∧
    (State.takeClean q s).2.latches = s.latches ∧ (State.takeClean q s).2.errw = s.errw ∧
    (State.takeClean q s).2.bulk = s.bulk ∧ (State.takeClean q s).2.mgmt = s.mgmt ∧
    (State.takeClean q s).2.power = s.power ∧ (State.takeClean q s).2.sec = s.sec ∧
    (State.takeClean q s).2.therm = s.therm ∧ (State.takeClean q s).2.ports = s.ports ∧
    (State.takeClean q s).2.streams = s.streams ∧ (State.takeClean q s).2.services = s.services ∧
    (State.takeClean q s).2.ptpPorts = s.ptpPorts ∧ (State.takeClean q s).2.ptp = s.ptp ∧
    (State.takeClean q s).2.chans = s.chans ∧ (State.takeClean q s).2.seqs = s.seqs ∧
    (State.takeClean q s).2.hc = s.hc ∧ (State.takeClean q s).2.trim = s.trim ∧
    (State.takeClean q s).2.bundles = s.bundles ∧ (State.takeClean q s).2.slots = s.slots ∧
    (State.takeClean q s).2.wt = s.wt ∧ (State.takeClean q s).2.mem = s.mem ∧
    (State.takeClean q s).2.fwMem = s.fwMem ∧ (State.takeClean q s).2.ms = s.ms ∧
    (State.takeClean q s).2.pricks = s.pricks ∧ (State.takeClean q s).2.templates = s.templates ∧
    (State.takeClean q s).2.jobs = s.jobs ∧ (State.takeClean q s).2.order = s.order ∧
    (State.takeClean q s).2.pillows = s.pillows ∧ (State.takeClean q s).2.free = s.free := by
  have hF0 := @State.modQueue_frame
  have hF1 := @State.putQueue_frame
  unfold State.takeClean; dsimp only; (repeat' split) <;> simp [hF0, hF1]

theorem State.takePacket_frame (q : Nat) (ecc : WordEcc) (s : State) :
    (State.takePacket q ecc s).2.2.now = s.now ∧ (State.takePacket q ecc s).2.2.pending = s.pending ∧
    (State.takePacket q ecc s).2.2.tb = s.tb ∧ (State.takePacket q ecc s).2.2.sheets = s.sheets ∧
    (State.takePacket q ecc s).2.2.units = s.units ∧ (State.takePacket q ecc s).2.2.pins = s.pins ∧
    (State.takePacket q ecc s).2.2.pk = s.pk ∧ (State.takePacket q ecc s).2.2.latches = s.latches ∧
    (State.takePacket q ecc s).2.2.errw = s.errw ∧ (State.takePacket q ecc s).2.2.bulk = s.bulk ∧
    (State.takePacket q ecc s).2.2.mgmt = s.mgmt ∧ (State.takePacket q ecc s).2.2.power = s.power ∧
    (State.takePacket q ecc s).2.2.sec = s.sec ∧ (State.takePacket q ecc s).2.2.therm = s.therm ∧
    (State.takePacket q ecc s).2.2.ports = s.ports ∧ (State.takePacket q ecc s).2.2.streams = s.streams ∧
    (State.takePacket q ecc s).2.2.services = s.services ∧
    (State.takePacket q ecc s).2.2.ptpPorts = s.ptpPorts ∧ (State.takePacket q ecc s).2.2.ptp = s.ptp ∧
    (State.takePacket q ecc s).2.2.chans = s.chans ∧ (State.takePacket q ecc s).2.2.seqs = s.seqs ∧
    (State.takePacket q ecc s).2.2.hc = s.hc ∧ (State.takePacket q ecc s).2.2.trim = s.trim ∧
    (State.takePacket q ecc s).2.2.bundles = s.bundles ∧ (State.takePacket q ecc s).2.2.slots = s.slots ∧
    (State.takePacket q ecc s).2.2.wt = s.wt ∧ (State.takePacket q ecc s).2.2.mem = s.mem ∧
    (State.takePacket q ecc s).2.2.fwMem = s.fwMem ∧ (State.takePacket q ecc s).2.2.ms = s.ms ∧
    (State.takePacket q ecc s).2.2.pricks = s.pricks ∧
    (State.takePacket q ecc s).2.2.templates = s.templates ∧ (State.takePacket q ecc s).2.2.jobs = s.jobs ∧
    (State.takePacket q ecc s).2.2.order = s.order ∧ (State.takePacket q ecc s).2.2.pillows = s.pillows ∧
    (State.takePacket q ecc s).2.2.free = s.free := by
  have hF0 := @State.putQueue_frame
  have hF1 := @State.wordsCorrected_frame
  have hF2 := @State.takeClean_frame
  unfold State.takePacket; dsimp only; (repeat' split) <;> simp [hF0, hF1, hF2]

theorem State.afterLoss_frame (q : Nat) (p : Option QPacket) (s : State) :
    (State.afterLoss q p s).now = s.now ∧ (State.afterLoss q p s).pending = s.pending ∧
    (State.afterLoss q p s).tb = s.tb ∧ (State.afterLoss q p s).sheets = s.sheets ∧
    (State.afterLoss q p s).units = s.units ∧ (State.afterLoss q p s).pins = s.pins ∧
    (State.afterLoss q p s).pk = s.pk ∧ (State.afterLoss q p s).errw = s.errw ∧
    (State.afterLoss q p s).bulk = s.bulk ∧ (State.afterLoss q p s).power = s.power ∧
    (State.afterLoss q p s).sec = s.sec ∧ (State.afterLoss q p s).therm = s.therm ∧
    (State.afterLoss q p s).ports = s.ports ∧ (State.afterLoss q p s).streams = s.streams ∧
    (State.afterLoss q p s).services = s.services ∧ (State.afterLoss q p s).ptpPorts = s.ptpPorts ∧
    (State.afterLoss q p s).ptp = s.ptp ∧ (State.afterLoss q p s).chans = s.chans ∧
    (State.afterLoss q p s).seqs = s.seqs ∧ (State.afterLoss q p s).hc = s.hc ∧
    (State.afterLoss q p s).trim = s.trim ∧ (State.afterLoss q p s).bundles = s.bundles ∧
    (State.afterLoss q p s).slots = s.slots ∧ (State.afterLoss q p s).wt = s.wt ∧
    (State.afterLoss q p s).mem = s.mem ∧ (State.afterLoss q p s).fwMem = s.fwMem ∧
    (State.afterLoss q p s).ms = s.ms ∧ (State.afterLoss q p s).pricks = s.pricks ∧
    (State.afterLoss q p s).templates = s.templates ∧ (State.afterLoss q p s).jobs = s.jobs ∧
    (State.afterLoss q p s).order = s.order ∧ (State.afterLoss q p s).pillows = s.pillows ∧
    (State.afterLoss q p s).free = s.free := by
  have hF0 := @State.packetLost_frame
  unfold State.afterLoss; cases p <;> simp [hF0]

/-! ## Faults -/

theorem State.security_frame (cause : Nat) (key : Nat) (fwVer : BitVec 32) (digest : Nat) (s : State) :
    (State.security cause key fwVer digest s).now = s.now ∧
    (State.security cause key fwVer digest s).pending = s.pending ∧
    (State.security cause key fwVer digest s).tb = s.tb ∧
    (State.security cause key fwVer digest s).sheets = s.sheets ∧
    (State.security cause key fwVer digest s).units = s.units ∧
    (State.security cause key fwVer digest s).pins = s.pins ∧
    (State.security cause key fwVer digest s).pk = s.pk ∧
    (State.security cause key fwVer digest s).errw = s.errw ∧
    (State.security cause key fwVer digest s).bulk = s.bulk ∧
    (State.security cause key fwVer digest s).mgmt = s.mgmt ∧
    (State.security cause key fwVer digest s).power = s.power ∧
    (State.security cause key fwVer digest s).sec = s.sec ∧
    (State.security cause key fwVer digest s).therm = s.therm ∧
    (State.security cause key fwVer digest s).ports = s.ports ∧
    (State.security cause key fwVer digest s).streams = s.streams ∧
    (State.security cause key fwVer digest s).services = s.services ∧
    (State.security cause key fwVer digest s).ptpPorts = s.ptpPorts ∧
    (State.security cause key fwVer digest s).ptp = s.ptp ∧
    (State.security cause key fwVer digest s).chans = s.chans ∧
    (State.security cause key fwVer digest s).seqs = s.seqs ∧
    (State.security cause key fwVer digest s).hc = s.hc ∧
    (State.security cause key fwVer digest s).trim = s.trim ∧
    (State.security cause key fwVer digest s).bundles = s.bundles ∧
    (State.security cause key fwVer digest s).slots = s.slots ∧
    (State.security cause key fwVer digest s).wt = s.wt ∧
    (State.security cause key fwVer digest s).mem = s.mem ∧
    (State.security cause key fwVer digest s).fwMem = s.fwMem ∧
    (State.security cause key fwVer digest s).ms = s.ms ∧
    (State.security cause key fwVer digest s).pricks = s.pricks ∧
    (State.security cause key fwVer digest s).templates = s.templates ∧
    (State.security cause key fwVer digest s).jobs = s.jobs ∧
    (State.security cause key fwVer digest s).order = s.order ∧
    (State.security cause key fwVer digest s).pillows = s.pillows ∧
    (State.security cause key fwVer digest s).free = s.free := by
  have hF0 := @State.report_frame
  unfold State.security; simp [hF0]

theorem State.enterFatal_frame (cause : Nat) (addr : Nat) (s : State) :
    (State.enterFatal cause addr s).now = s.now ∧ (State.enterFatal cause addr s).pending = s.pending ∧
    (State.enterFatal cause addr s).tb = s.tb ∧ (State.enterFatal cause addr s).sheets = s.sheets ∧
    (State.enterFatal cause addr s).units = s.units ∧ (State.enterFatal cause addr s).errw = s.errw ∧
    (State.enterFatal cause addr s).bulk = s.bulk ∧ (State.enterFatal cause addr s).power = s.power ∧
    (State.enterFatal cause addr s).sec = s.sec ∧ (State.enterFatal cause addr s).therm = s.therm ∧
    (State.enterFatal cause addr s).ports = s.ports ∧ (State.enterFatal cause addr s).streams = s.streams ∧
    (State.enterFatal cause addr s).services = s.services ∧
    (State.enterFatal cause addr s).ptpPorts = s.ptpPorts ∧ (State.enterFatal cause addr s).ptp = s.ptp ∧
    (State.enterFatal cause addr s).chans = s.chans ∧ (State.enterFatal cause addr s).seqs = s.seqs ∧
    (State.enterFatal cause addr s).hc = s.hc ∧ (State.enterFatal cause addr s).trim = s.trim ∧
    (State.enterFatal cause addr s).bundles = s.bundles ∧ (State.enterFatal cause addr s).slots = s.slots ∧
    (State.enterFatal cause addr s).wt = s.wt ∧ (State.enterFatal cause addr s).mem = s.mem ∧
    (State.enterFatal cause addr s).fwMem = s.fwMem ∧ (State.enterFatal cause addr s).ms = s.ms ∧
    (State.enterFatal cause addr s).pricks = s.pricks ∧
    (State.enterFatal cause addr s).templates = s.templates ∧
    (State.enterFatal cause addr s).jobs = s.jobs ∧ (State.enterFatal cause addr s).order = s.order ∧
    (State.enterFatal cause addr s).pillows = s.pillows ∧
    (State.enterFatal cause addr s).free = s.free := by
  have hF0 := @State.report_frame
  unfold State.enterFatal; simp [hF0]

theorem State.intoReset_frame (src : ResetSource) (s : State) : (State.intoReset src s).now = s.now ∧
    (State.intoReset src s).pending = s.pending := by
  unfold State.intoReset; simp

@[simp] theorem State.intoReset_mem (src : ResetSource) (s : State) : (s.intoReset src).mem = [] := rfl

@[simp] theorem State.intoReset_fwMem (src : ResetSource) (s : State) : (s.intoReset src).fwMem = [] := rfl

@[simp] theorem State.intoReset_free (src : ResetSource) (s : State) : (s.intoReset src).free = s.free := rfl

theorem State.endReset_frame (s : State) : (State.endReset s).now = s.now ∧
    (State.endReset s).pending = s.pending ∧ (State.endReset s).tb = s.tb ∧
    (State.endReset s).sheets = s.sheets ∧ (State.endReset s).units = s.units ∧
    (State.endReset s).pins = s.pins ∧ (State.endReset s).pk = s.pk ∧ (State.endReset s).queues = s.queues ∧
    (State.endReset s).latches = s.latches ∧ (State.endReset s).errw = s.errw ∧
    (State.endReset s).sdio = s.sdio ∧ (State.endReset s).bulk = s.bulk ∧
    (State.endReset s).power = s.power ∧ (State.endReset s).sec = s.sec ∧
    (State.endReset s).therm = s.therm ∧ (State.endReset s).ports = s.ports ∧
    (State.endReset s).streams = s.streams ∧ (State.endReset s).services = s.services ∧
    (State.endReset s).ptpPorts = s.ptpPorts ∧ (State.endReset s).ptp = s.ptp ∧
    (State.endReset s).chans = s.chans ∧ (State.endReset s).seqs = s.seqs ∧ (State.endReset s).hc = s.hc ∧
    (State.endReset s).trim = s.trim ∧ (State.endReset s).bundles = s.bundles ∧
    (State.endReset s).slots = s.slots ∧ (State.endReset s).wt = s.wt ∧ (State.endReset s).mem = s.mem ∧
    (State.endReset s).fwMem = s.fwMem ∧ (State.endReset s).pricks = s.pricks ∧
    (State.endReset s).templates = s.templates ∧ (State.endReset s).jobs = s.jobs ∧
    (State.endReset s).order = s.order ∧ (State.endReset s).pillows = s.pillows ∧
    (State.endReset s).free = s.free := by
  unfold State.endReset; simp

theorem State.restart_frame (k : Nat) (c : CmdPacket) (s : State) : (State.restart k c s).now = s.now ∧
    (State.restart k c s).pending = s.pending ∧ (State.restart k c s).tb = s.tb ∧
    (State.restart k c s).sheets = s.sheets ∧ (State.restart k c s).units = s.units ∧
    (State.restart k c s).pins = s.pins ∧ (State.restart k c s).pk = s.pk ∧
    (State.restart k c s).queues = s.queues ∧ (State.restart k c s).latches = s.latches ∧
    (State.restart k c s).errw = s.errw ∧ (State.restart k c s).sdio = s.sdio ∧
    (State.restart k c s).bulk = s.bulk ∧ (State.restart k c s).power = s.power ∧
    (State.restart k c s).sec = s.sec ∧ (State.restart k c s).therm = s.therm ∧
    (State.restart k c s).ports = s.ports ∧ (State.restart k c s).streams = s.streams ∧
    (State.restart k c s).services = s.services ∧ (State.restart k c s).ptpPorts = s.ptpPorts ∧
    (State.restart k c s).ptp = s.ptp ∧ (State.restart k c s).chans = s.chans ∧
    (State.restart k c s).seqs = s.seqs ∧ (State.restart k c s).hc = s.hc ∧
    (State.restart k c s).trim = s.trim ∧ (State.restart k c s).bundles = s.bundles ∧
    (State.restart k c s).slots = s.slots ∧ (State.restart k c s).wt = s.wt ∧
    (State.restart k c s).mem = s.mem ∧ (State.restart k c s).fwMem = s.fwMem ∧
    (State.restart k c s).ms = s.ms ∧ (State.restart k c s).pricks = s.pricks ∧
    (State.restart k c s).templates = s.templates ∧ (State.restart k c s).jobs = s.jobs ∧
    (State.restart k c s).order = s.order ∧ (State.restart k c s).pillows = s.pillows ∧
    (State.restart k c s).free = s.free := by
  unfold State.restart; simp

theorem State.clearCore_frame (k : Nat) (s : State) : (State.clearCore k s).now = s.now ∧
    (State.clearCore k s).pending = s.pending ∧ (State.clearCore k s).tb = s.tb ∧
    (State.clearCore k s).sheets = s.sheets ∧ (State.clearCore k s).units = s.units ∧
    (State.clearCore k s).pins = s.pins ∧ (State.clearCore k s).pk = s.pk ∧
    (State.clearCore k s).queues = s.queues ∧ (State.clearCore k s).latches = s.latches ∧
    (State.clearCore k s).errw = s.errw ∧ (State.clearCore k s).sdio = s.sdio ∧
    (State.clearCore k s).bulk = s.bulk ∧ (State.clearCore k s).power = s.power ∧
    (State.clearCore k s).sec = s.sec ∧ (State.clearCore k s).therm = s.therm ∧
    (State.clearCore k s).ports = s.ports ∧ (State.clearCore k s).streams = s.streams ∧
    (State.clearCore k s).services = s.services ∧ (State.clearCore k s).ptpPorts = s.ptpPorts ∧
    (State.clearCore k s).ptp = s.ptp ∧ (State.clearCore k s).chans = s.chans ∧
    (State.clearCore k s).seqs = s.seqs ∧ (State.clearCore k s).hc = s.hc ∧
    (State.clearCore k s).trim = s.trim ∧ (State.clearCore k s).bundles = s.bundles ∧
    (State.clearCore k s).slots = s.slots ∧ (State.clearCore k s).wt = s.wt ∧
    (State.clearCore k s).mem = s.mem ∧ (State.clearCore k s).fwMem = s.fwMem ∧
    (State.clearCore k s).ms = s.ms ∧ (State.clearCore k s).pricks = s.pricks ∧
    (State.clearCore k s).templates = s.templates ∧ (State.clearCore k s).jobs = s.jobs ∧
    (State.clearCore k s).order = s.order ∧ (State.clearCore k s).pillows = s.pillows ∧
    (State.clearCore k s).free = s.free := by
  unfold State.clearCore; simp

theorem State.dropPartial_frame (q : Nat) (w : Nat) (s : State) : (State.dropPartial q w s).now = s.now ∧
    (State.dropPartial q w s).pending = s.pending ∧ (State.dropPartial q w s).tb = s.tb ∧
    (State.dropPartial q w s).sheets = s.sheets ∧ (State.dropPartial q w s).units = s.units ∧
    (State.dropPartial q w s).pins = s.pins ∧ (State.dropPartial q w s).pk = s.pk ∧
    (State.dropPartial q w s).latches = s.latches ∧ (State.dropPartial q w s).errw = s.errw ∧
    (State.dropPartial q w s).sdio = s.sdio ∧ (State.dropPartial q w s).bulk = s.bulk ∧
    (State.dropPartial q w s).mgmt = s.mgmt ∧ (State.dropPartial q w s).power = s.power ∧
    (State.dropPartial q w s).sec = s.sec ∧ (State.dropPartial q w s).therm = s.therm ∧
    (State.dropPartial q w s).ports = s.ports ∧ (State.dropPartial q w s).streams = s.streams ∧
    (State.dropPartial q w s).services = s.services ∧ (State.dropPartial q w s).ptpPorts = s.ptpPorts ∧
    (State.dropPartial q w s).ptp = s.ptp ∧ (State.dropPartial q w s).chans = s.chans ∧
    (State.dropPartial q w s).seqs = s.seqs ∧ (State.dropPartial q w s).hc = s.hc ∧
    (State.dropPartial q w s).trim = s.trim ∧ (State.dropPartial q w s).bundles = s.bundles ∧
    (State.dropPartial q w s).slots = s.slots ∧ (State.dropPartial q w s).wt = s.wt ∧
    (State.dropPartial q w s).mem = s.mem ∧ (State.dropPartial q w s).fwMem = s.fwMem ∧
    (State.dropPartial q w s).ms = s.ms ∧ (State.dropPartial q w s).pricks = s.pricks ∧
    (State.dropPartial q w s).templates = s.templates ∧ (State.dropPartial q w s).jobs = s.jobs ∧
    (State.dropPartial q w s).order = s.order ∧ (State.dropPartial q w s).pillows = s.pillows ∧
    (State.dropPartial q w s).free = s.free := by
  have hF0 := @State.modQueue_frame
  unfold State.dropPartial; simp [hF0]

theorem State.coreFault_frame (core : Nat) (cause : Nat) (s : State) :
    (State.coreFault core cause s).now = s.now ∧ (State.coreFault core cause s).pending = s.pending ∧
    (State.coreFault core cause s).tb = s.tb ∧ (State.coreFault core cause s).sheets = s.sheets ∧
    (State.coreFault core cause s).units = s.units ∧ (State.coreFault core cause s).errw = s.errw ∧
    (State.coreFault core cause s).bulk = s.bulk ∧ (State.coreFault core cause s).power = s.power ∧
    (State.coreFault core cause s).sec = s.sec ∧ (State.coreFault core cause s).therm = s.therm ∧
    (State.coreFault core cause s).ports = s.ports ∧ (State.coreFault core cause s).streams = s.streams ∧
    (State.coreFault core cause s).services = s.services ∧
    (State.coreFault core cause s).ptpPorts = s.ptpPorts ∧ (State.coreFault core cause s).ptp = s.ptp ∧
    (State.coreFault core cause s).chans = s.chans ∧ (State.coreFault core cause s).seqs = s.seqs ∧
    (State.coreFault core cause s).hc = s.hc ∧ (State.coreFault core cause s).trim = s.trim ∧
    (State.coreFault core cause s).bundles = s.bundles ∧ (State.coreFault core cause s).slots = s.slots ∧
    (State.coreFault core cause s).wt = s.wt ∧ (State.coreFault core cause s).mem = s.mem ∧
    (State.coreFault core cause s).fwMem = s.fwMem ∧ (State.coreFault core cause s).ms = s.ms ∧
    (State.coreFault core cause s).pricks = s.pricks ∧
    (State.coreFault core cause s).templates = s.templates ∧ (State.coreFault core cause s).jobs = s.jobs ∧
    (State.coreFault core cause s).order = s.order ∧
    (State.coreFault core cause s).pillows = s.pillows := by
  have hF0 := @State.dropPartial_frame
  have hF1 := @State.clearCore_frame
  have hF2 := @State.enterRecovery_frame
  have hF3 := @State.report_frame
  have hF4 := @State.restart_frame
  have hF5 := @State.enterFatal_frame
  have hF6 := @State.draw_frame
  unfold State.coreFault; dsimp only; (repeat' split) <;> simp [hF0, hF1, hF2, hF3, hF4, hF5, hF6]

/-! ## House -/

theorem State.hcTrigger_frame (q : Nat) (s : State) : (State.hcTrigger q s).now = s.now ∧
    (State.hcTrigger q s).pending = s.pending ∧ (State.hcTrigger q s).tb = s.tb ∧
    (State.hcTrigger q s).sheets = s.sheets ∧ (State.hcTrigger q s).units = s.units ∧
    (State.hcTrigger q s).pins = s.pins ∧ (State.hcTrigger q s).pk = s.pk ∧
    (State.hcTrigger q s).queues = s.queues ∧ (State.hcTrigger q s).latches = s.latches ∧
    (State.hcTrigger q s).errw = s.errw ∧ (State.hcTrigger q s).sdio = s.sdio ∧
    (State.hcTrigger q s).bulk = s.bulk ∧ (State.hcTrigger q s).mgmt = s.mgmt ∧
    (State.hcTrigger q s).power = s.power ∧ (State.hcTrigger q s).sec = s.sec ∧
    (State.hcTrigger q s).therm = s.therm ∧ (State.hcTrigger q s).ports = s.ports ∧
    (State.hcTrigger q s).streams = s.streams ∧ (State.hcTrigger q s).services = s.services ∧
    (State.hcTrigger q s).ptpPorts = s.ptpPorts ∧ (State.hcTrigger q s).ptp = s.ptp ∧
    (State.hcTrigger q s).chans = s.chans ∧ (State.hcTrigger q s).hc = s.hc ∧
    (State.hcTrigger q s).trim = s.trim ∧ (State.hcTrigger q s).bundles = s.bundles ∧
    (State.hcTrigger q s).slots = s.slots ∧ (State.hcTrigger q s).wt = s.wt ∧
    (State.hcTrigger q s).mem = s.mem ∧ (State.hcTrigger q s).fwMem = s.fwMem ∧
    (State.hcTrigger q s).ms = s.ms ∧ (State.hcTrigger q s).pricks = s.pricks ∧
    (State.hcTrigger q s).templates = s.templates ∧ (State.hcTrigger q s).jobs = s.jobs ∧
    (State.hcTrigger q s).order = s.order ∧ (State.hcTrigger q s).pillows = s.pillows ∧
    (State.hcTrigger q s).free = s.free := by
  have hF0 := @State.setHseq_frame
  unfold State.hcTrigger; simp [hF0]

theorem State.hcAction_frame (q : Nat) (s : State) : (State.hcAction q s).now = s.now ∧
    (State.hcAction q s).pending = s.pending ∧ (State.hcAction q s).tb = s.tb ∧
    (State.hcAction q s).sheets = s.sheets ∧ (State.hcAction q s).units = s.units ∧
    (State.hcAction q s).pins = s.pins ∧ (State.hcAction q s).pk = s.pk ∧
    (State.hcAction q s).queues = s.queues ∧ (State.hcAction q s).latches = s.latches ∧
    (State.hcAction q s).errw = s.errw ∧ (State.hcAction q s).sdio = s.sdio ∧
    (State.hcAction q s).bulk = s.bulk ∧ (State.hcAction q s).mgmt = s.mgmt ∧
    (State.hcAction q s).power = s.power ∧ (State.hcAction q s).sec = s.sec ∧
    (State.hcAction q s).therm = s.therm ∧ (State.hcAction q s).ports = s.ports ∧
    (State.hcAction q s).streams = s.streams ∧ (State.hcAction q s).services = s.services ∧
    (State.hcAction q s).ptpPorts = s.ptpPorts ∧ (State.hcAction q s).ptp = s.ptp ∧
    (State.hcAction q s).chans = s.chans ∧ (State.hcAction q s).hc = s.hc ∧
    (State.hcAction q s).trim = s.trim ∧ (State.hcAction q s).bundles = s.bundles ∧
    (State.hcAction q s).slots = s.slots ∧ (State.hcAction q s).wt = s.wt ∧
    (State.hcAction q s).mem = s.mem ∧ (State.hcAction q s).fwMem = s.fwMem ∧
    (State.hcAction q s).ms = s.ms ∧ (State.hcAction q s).pricks = s.pricks ∧
    (State.hcAction q s).templates = s.templates ∧ (State.hcAction q s).jobs = s.jobs ∧
    (State.hcAction q s).order = s.order ∧ (State.hcAction q s).pillows = s.pillows ∧
    (State.hcAction q s).free = s.free := by
  have hF0 := @State.hcTrigger_frame
  unfold State.hcAction; simp [hF0]

theorem State.hcEdge_frame (p : Nat) (rising : Bool) (s : State) : (State.hcEdge p rising s).now = s.now ∧
    (State.hcEdge p rising s).pending = s.pending ∧ (State.hcEdge p rising s).tb = s.tb ∧
    (State.hcEdge p rising s).sheets = s.sheets ∧ (State.hcEdge p rising s).units = s.units ∧
    (State.hcEdge p rising s).pins = s.pins ∧ (State.hcEdge p rising s).pk = s.pk ∧
    (State.hcEdge p rising s).queues = s.queues ∧ (State.hcEdge p rising s).latches = s.latches ∧
    (State.hcEdge p rising s).errw = s.errw ∧ (State.hcEdge p rising s).sdio = s.sdio ∧
    (State.hcEdge p rising s).bulk = s.bulk ∧ (State.hcEdge p rising s).mgmt = s.mgmt ∧
    (State.hcEdge p rising s).power = s.power ∧ (State.hcEdge p rising s).sec = s.sec ∧
    (State.hcEdge p rising s).therm = s.therm ∧ (State.hcEdge p rising s).ports = s.ports ∧
    (State.hcEdge p rising s).streams = s.streams ∧ (State.hcEdge p rising s).services = s.services ∧
    (State.hcEdge p rising s).ptpPorts = s.ptpPorts ∧ (State.hcEdge p rising s).ptp = s.ptp ∧
    (State.hcEdge p rising s).chans = s.chans ∧ (State.hcEdge p rising s).hc = s.hc ∧
    (State.hcEdge p rising s).trim = s.trim ∧ (State.hcEdge p rising s).bundles = s.bundles ∧
    (State.hcEdge p rising s).slots = s.slots ∧ (State.hcEdge p rising s).wt = s.wt ∧
    (State.hcEdge p rising s).mem = s.mem ∧ (State.hcEdge p rising s).fwMem = s.fwMem ∧
    (State.hcEdge p rising s).ms = s.ms ∧ (State.hcEdge p rising s).pricks = s.pricks ∧
    (State.hcEdge p rising s).templates = s.templates ∧ (State.hcEdge p rising s).jobs = s.jobs ∧
    (State.hcEdge p rising s).order = s.order ∧ (State.hcEdge p rising s).pillows = s.pillows ∧
    (State.hcEdge p rising s).free = s.free := by
  have hF0 := @State.hcTrigger_frame
  unfold State.hcEdge; simp [hF0]

theorem State.convert_frame (c : Conv) (s : State) : (State.convert c s).now = s.now ∧
    (State.convert c s).pending = s.pending ∧ (State.convert c s).tb = s.tb ∧
    (State.convert c s).sheets = s.sheets ∧ (State.convert c s).units = s.units ∧
    (State.convert c s).pins = s.pins ∧ (State.convert c s).pk = s.pk ∧
    (State.convert c s).queues = s.queues ∧ (State.convert c s).latches = s.latches ∧
    (State.convert c s).errw = s.errw ∧ (State.convert c s).sdio = s.sdio ∧
    (State.convert c s).bulk = s.bulk ∧ (State.convert c s).mgmt = s.mgmt ∧
    (State.convert c s).power = s.power ∧ (State.convert c s).sec = s.sec ∧
    (State.convert c s).therm = s.therm ∧ (State.convert c s).ports = s.ports ∧
    (State.convert c s).streams = s.streams ∧ (State.convert c s).services = s.services ∧
    (State.convert c s).ptpPorts = s.ptpPorts ∧ (State.convert c s).ptp = s.ptp ∧
    (State.convert c s).chans = s.chans ∧ (State.convert c s).seqs = s.seqs ∧
    (State.convert c s).trim = s.trim ∧ (State.convert c s).bundles = s.bundles ∧
    (State.convert c s).slots = s.slots ∧ (State.convert c s).wt = s.wt ∧ (State.convert c s).mem = s.mem ∧
    (State.convert c s).fwMem = s.fwMem ∧ (State.convert c s).ms = s.ms ∧
    (State.convert c s).pricks = s.pricks ∧ (State.convert c s).templates = s.templates ∧
    (State.convert c s).jobs = s.jobs ∧ (State.convert c s).order = s.order ∧
    (State.convert c s).pillows = s.pillows ∧ (State.convert c s).free = s.free := by
  unfold State.convert; simp

theorem State.hcIdle_frame (s : State) : (State.hcIdle s).now = s.now ∧
    (State.hcIdle s).pending = s.pending ∧ (State.hcIdle s).tb = s.tb ∧ (State.hcIdle s).sheets = s.sheets ∧
    (State.hcIdle s).units = s.units ∧ (State.hcIdle s).pins = s.pins ∧ (State.hcIdle s).pk = s.pk ∧
    (State.hcIdle s).queues = s.queues ∧ (State.hcIdle s).latches = s.latches ∧
    (State.hcIdle s).errw = s.errw ∧ (State.hcIdle s).sdio = s.sdio ∧ (State.hcIdle s).bulk = s.bulk ∧
    (State.hcIdle s).mgmt = s.mgmt ∧ (State.hcIdle s).power = s.power ∧ (State.hcIdle s).sec = s.sec ∧
    (State.hcIdle s).therm = s.therm ∧ (State.hcIdle s).ports = s.ports ∧
    (State.hcIdle s).streams = s.streams ∧ (State.hcIdle s).services = s.services ∧
    (State.hcIdle s).ptpPorts = s.ptpPorts ∧ (State.hcIdle s).ptp = s.ptp ∧
    (State.hcIdle s).chans = s.chans ∧ (State.hcIdle s).trim = s.trim ∧
    (State.hcIdle s).bundles = s.bundles ∧ (State.hcIdle s).slots = s.slots ∧ (State.hcIdle s).wt = s.wt ∧
    (State.hcIdle s).mem = s.mem ∧ (State.hcIdle s).fwMem = s.fwMem ∧ (State.hcIdle s).ms = s.ms ∧
    (State.hcIdle s).pricks = s.pricks ∧ (State.hcIdle s).templates = s.templates ∧
    (State.hcIdle s).jobs = s.jobs ∧ (State.hcIdle s).order = s.order ∧
    (State.hcIdle s).pillows = s.pillows ∧ (State.hcIdle s).free = s.free := by
  have hF0 := @State.modHseq_frame
  have hF1 := @State.convert_frame
  unfold State.hcIdle; dsimp only; (repeat' split) <;> simp [hF0, hF1]

theorem State.hcNext_frame (s : State) : (State.hcNext s).now = s.now ∧
    (State.hcNext s).pending = s.pending ∧ (State.hcNext s).tb = s.tb ∧ (State.hcNext s).sheets = s.sheets ∧
    (State.hcNext s).units = s.units ∧ (State.hcNext s).pins = s.pins ∧ (State.hcNext s).pk = s.pk ∧
    (State.hcNext s).queues = s.queues ∧ (State.hcNext s).latches = s.latches ∧
    (State.hcNext s).errw = s.errw ∧ (State.hcNext s).sdio = s.sdio ∧ (State.hcNext s).bulk = s.bulk ∧
    (State.hcNext s).mgmt = s.mgmt ∧ (State.hcNext s).power = s.power ∧ (State.hcNext s).sec = s.sec ∧
    (State.hcNext s).therm = s.therm ∧ (State.hcNext s).ports = s.ports ∧
    (State.hcNext s).streams = s.streams ∧ (State.hcNext s).services = s.services ∧
    (State.hcNext s).ptpPorts = s.ptpPorts ∧ (State.hcNext s).ptp = s.ptp ∧
    (State.hcNext s).chans = s.chans ∧ (State.hcNext s).trim = s.trim ∧
    (State.hcNext s).bundles = s.bundles ∧ (State.hcNext s).slots = s.slots ∧ (State.hcNext s).wt = s.wt ∧
    (State.hcNext s).mem = s.mem ∧ (State.hcNext s).fwMem = s.fwMem ∧ (State.hcNext s).ms = s.ms ∧
    (State.hcNext s).pricks = s.pricks ∧ (State.hcNext s).templates = s.templates ∧
    (State.hcNext s).jobs = s.jobs ∧ (State.hcNext s).order = s.order ∧
    (State.hcNext s).pillows = s.pillows ∧ (State.hcNext s).free = s.free := by
  have hF0 := @State.convert_frame
  have hF1 := @State.hcIdle_frame
  unfold State.hcNext; dsimp only; (repeat' split) <;> simp [hF0, hF1]

theorem State.claimChan_frame (q : Nat) (x : HcStep) (s : State) : (State.claimChan q x s).now = s.now ∧
    (State.claimChan q x s).pending = s.pending ∧ (State.claimChan q x s).tb = s.tb ∧
    (State.claimChan q x s).sheets = s.sheets ∧ (State.claimChan q x s).units = s.units ∧
    (State.claimChan q x s).pins = s.pins ∧ (State.claimChan q x s).pk = s.pk ∧
    (State.claimChan q x s).queues = s.queues ∧ (State.claimChan q x s).latches = s.latches ∧
    (State.claimChan q x s).errw = s.errw ∧ (State.claimChan q x s).sdio = s.sdio ∧
    (State.claimChan q x s).bulk = s.bulk ∧ (State.claimChan q x s).mgmt = s.mgmt ∧
    (State.claimChan q x s).power = s.power ∧ (State.claimChan q x s).sec = s.sec ∧
    (State.claimChan q x s).therm = s.therm ∧ (State.claimChan q x s).ports = s.ports ∧
    (State.claimChan q x s).streams = s.streams ∧ (State.claimChan q x s).services = s.services ∧
    (State.claimChan q x s).ptpPorts = s.ptpPorts ∧ (State.claimChan q x s).ptp = s.ptp ∧
    (State.claimChan q x s).seqs = s.seqs ∧ (State.claimChan q x s).hc = s.hc ∧
    (State.claimChan q x s).trim = s.trim ∧ (State.claimChan q x s).bundles = s.bundles ∧
    (State.claimChan q x s).slots = s.slots ∧ (State.claimChan q x s).wt = s.wt ∧
    (State.claimChan q x s).mem = s.mem ∧ (State.claimChan q x s).fwMem = s.fwMem ∧
    (State.claimChan q x s).ms = s.ms ∧ (State.claimChan q x s).pricks = s.pricks ∧
    (State.claimChan q x s).templates = s.templates ∧ (State.claimChan q x s).jobs = s.jobs ∧
    (State.claimChan q x s).order = s.order ∧ (State.claimChan q x s).pillows = s.pillows ∧
    (State.claimChan q x s).free = s.free := by
  have hF0 := @State.setChan_frame
  unfold State.claimChan; simp [hF0]

theorem hcEnableDo_frame (h : Hdr) (p : HcEnableParams) (s : State) : (hcEnableDo h p s).now = s.now ∧
    (hcEnableDo h p s).pending = s.pending ∧ (hcEnableDo h p s).tb = s.tb ∧
    (hcEnableDo h p s).sheets = s.sheets ∧ (hcEnableDo h p s).units = s.units ∧
    (hcEnableDo h p s).pk = s.pk ∧ (hcEnableDo h p s).latches = s.latches ∧
    (hcEnableDo h p s).errw = s.errw ∧ (hcEnableDo h p s).bulk = s.bulk ∧
    (hcEnableDo h p s).power = s.power ∧ (hcEnableDo h p s).sec = s.sec ∧
    (hcEnableDo h p s).therm = s.therm ∧ (hcEnableDo h p s).ports = s.ports ∧
    (hcEnableDo h p s).streams = s.streams ∧ (hcEnableDo h p s).services = s.services ∧
    (hcEnableDo h p s).ptpPorts = s.ptpPorts ∧ (hcEnableDo h p s).ptp = s.ptp ∧
    (hcEnableDo h p s).hc = s.hc ∧ (hcEnableDo h p s).trim = s.trim ∧
    (hcEnableDo h p s).bundles = s.bundles ∧ (hcEnableDo h p s).slots = s.slots ∧
    (hcEnableDo h p s).wt = s.wt ∧ (hcEnableDo h p s).mem = s.mem ∧ (hcEnableDo h p s).fwMem = s.fwMem ∧
    (hcEnableDo h p s).ms = s.ms ∧ (hcEnableDo h p s).pricks = s.pricks ∧
    (hcEnableDo h p s).templates = s.templates ∧ (hcEnableDo h p s).jobs = s.jobs ∧
    (hcEnableDo h p s).order = s.order ∧ (hcEnableDo h p s).pillows = s.pillows ∧
    (hcEnableDo h p s).free = s.free := by
  have hF0 := @State.done_frame
  have hF1 := @State.modHseq_frame
  have hF2 := @State.modPin_frame
  have hF3 := @State.claimChan_frame
  unfold hcEnableDo; simp [hF0, hF1, hF2, hF3]

theorem State.endSeq_frame (q : Nat) (s : State) : (State.endSeq q s).now = s.now ∧
    (State.endSeq q s).pending = s.pending ∧ (State.endSeq q s).tb = s.tb ∧
    (State.endSeq q s).sheets = s.sheets ∧ (State.endSeq q s).units = s.units ∧
    (State.endSeq q s).pk = s.pk ∧ (State.endSeq q s).queues = s.queues ∧
    (State.endSeq q s).latches = s.latches ∧ (State.endSeq q s).errw = s.errw ∧
    (State.endSeq q s).sdio = s.sdio ∧ (State.endSeq q s).bulk = s.bulk ∧ (State.endSeq q s).mgmt = s.mgmt ∧
    (State.endSeq q s).power = s.power ∧ (State.endSeq q s).sec = s.sec ∧
    (State.endSeq q s).therm = s.therm ∧ (State.endSeq q s).ports = s.ports ∧
    (State.endSeq q s).streams = s.streams ∧ (State.endSeq q s).services = s.services ∧
    (State.endSeq q s).ptpPorts = s.ptpPorts ∧ (State.endSeq q s).ptp = s.ptp ∧
    (State.endSeq q s).hc = s.hc ∧ (State.endSeq q s).trim = s.trim ∧
    (State.endSeq q s).bundles = s.bundles ∧ (State.endSeq q s).slots = s.slots ∧
    (State.endSeq q s).wt = s.wt ∧ (State.endSeq q s).mem = s.mem ∧ (State.endSeq q s).fwMem = s.fwMem ∧
    (State.endSeq q s).ms = s.ms ∧ (State.endSeq q s).pricks = s.pricks ∧
    (State.endSeq q s).templates = s.templates ∧ (State.endSeq q s).jobs = s.jobs ∧
    (State.endSeq q s).order = s.order ∧ (State.endSeq q s).pillows = s.pillows ∧
    (State.endSeq q s).free = s.free := by
  have hF0 := @State.setHseq_frame
  have hF1 := @State.modPin_frame
  have hF2 := @State.setChan_frame
  unfold State.endSeq; simp [hF0, hF1, hF2]

theorem State.readHcData_frame (s : State) : (State.readHcData s).2.now = s.now ∧
    (State.readHcData s).2.pending = s.pending ∧ (State.readHcData s).2.tb = s.tb ∧
    (State.readHcData s).2.sheets = s.sheets ∧ (State.readHcData s).2.units = s.units ∧
    (State.readHcData s).2.pins = s.pins ∧ (State.readHcData s).2.pk = s.pk ∧
    (State.readHcData s).2.queues = s.queues ∧ (State.readHcData s).2.latches = s.latches ∧
    (State.readHcData s).2.errw = s.errw ∧ (State.readHcData s).2.sdio = s.sdio ∧
    (State.readHcData s).2.bulk = s.bulk ∧ (State.readHcData s).2.mgmt = s.mgmt ∧
    (State.readHcData s).2.power = s.power ∧ (State.readHcData s).2.sec = s.sec ∧
    (State.readHcData s).2.therm = s.therm ∧ (State.readHcData s).2.ports = s.ports ∧
    (State.readHcData s).2.streams = s.streams ∧ (State.readHcData s).2.services = s.services ∧
    (State.readHcData s).2.ptpPorts = s.ptpPorts ∧ (State.readHcData s).2.ptp = s.ptp ∧
    (State.readHcData s).2.chans = s.chans ∧ (State.readHcData s).2.seqs = s.seqs ∧
    (State.readHcData s).2.trim = s.trim ∧ (State.readHcData s).2.bundles = s.bundles ∧
    (State.readHcData s).2.slots = s.slots ∧ (State.readHcData s).2.wt = s.wt ∧
    (State.readHcData s).2.mem = s.mem ∧ (State.readHcData s).2.fwMem = s.fwMem ∧
    (State.readHcData s).2.ms = s.ms ∧ (State.readHcData s).2.pricks = s.pricks ∧
    (State.readHcData s).2.templates = s.templates ∧ (State.readHcData s).2.jobs = s.jobs ∧
    (State.readHcData s).2.order = s.order ∧ (State.readHcData s).2.pillows = s.pillows ∧
    (State.readHcData s).2.free = s.free := by
  unfold State.readHcData; simp

theorem State.readHcWp_frame (s : State) : (State.readHcWp s).2.now = s.now ∧
    (State.readHcWp s).2.pending = s.pending ∧ (State.readHcWp s).2.tb = s.tb ∧
    (State.readHcWp s).2.sheets = s.sheets ∧ (State.readHcWp s).2.units = s.units ∧
    (State.readHcWp s).2.pins = s.pins ∧ (State.readHcWp s).2.pk = s.pk ∧
    (State.readHcWp s).2.queues = s.queues ∧ (State.readHcWp s).2.latches = s.latches ∧
    (State.readHcWp s).2.errw = s.errw ∧ (State.readHcWp s).2.sdio = s.sdio ∧
    (State.readHcWp s).2.bulk = s.bulk ∧ (State.readHcWp s).2.mgmt = s.mgmt ∧
    (State.readHcWp s).2.power = s.power ∧ (State.readHcWp s).2.sec = s.sec ∧
    (State.readHcWp s).2.therm = s.therm ∧ (State.readHcWp s).2.ports = s.ports ∧
    (State.readHcWp s).2.streams = s.streams ∧ (State.readHcWp s).2.services = s.services ∧
    (State.readHcWp s).2.ptpPorts = s.ptpPorts ∧ (State.readHcWp s).2.ptp = s.ptp ∧
    (State.readHcWp s).2.chans = s.chans ∧ (State.readHcWp s).2.seqs = s.seqs ∧
    (State.readHcWp s).2.trim = s.trim ∧ (State.readHcWp s).2.bundles = s.bundles ∧
    (State.readHcWp s).2.slots = s.slots ∧ (State.readHcWp s).2.wt = s.wt ∧
    (State.readHcWp s).2.mem = s.mem ∧ (State.readHcWp s).2.fwMem = s.fwMem ∧
    (State.readHcWp s).2.ms = s.ms ∧ (State.readHcWp s).2.pricks = s.pricks ∧
    (State.readHcWp s).2.templates = s.templates ∧ (State.readHcWp s).2.jobs = s.jobs ∧
    (State.readHcWp s).2.order = s.order ∧ (State.readHcWp s).2.pillows = s.pillows ∧
    (State.readHcWp s).2.free = s.free := by
  unfold State.readHcWp; simp

theorem State.openWire_frame (c : Conv) (o : ConvOut) (s : State) : (State.openWire c o s).now = s.now ∧
    (State.openWire c o s).pending = s.pending ∧ (State.openWire c o s).tb = s.tb ∧
    (State.openWire c o s).sheets = s.sheets ∧ (State.openWire c o s).units = s.units ∧
    (State.openWire c o s).pins = s.pins ∧ (State.openWire c o s).pk = s.pk ∧
    (State.openWire c o s).errw = s.errw ∧ (State.openWire c o s).bulk = s.bulk ∧
    (State.openWire c o s).mgmt = s.mgmt ∧ (State.openWire c o s).power = s.power ∧
    (State.openWire c o s).sec = s.sec ∧ (State.openWire c o s).therm = s.therm ∧
    (State.openWire c o s).ports = s.ports ∧ (State.openWire c o s).streams = s.streams ∧
    (State.openWire c o s).services = s.services ∧ (State.openWire c o s).ptpPorts = s.ptpPorts ∧
    (State.openWire c o s).ptp = s.ptp ∧ (State.openWire c o s).chans = s.chans ∧
    (State.openWire c o s).seqs = s.seqs ∧ (State.openWire c o s).trim = s.trim ∧
    (State.openWire c o s).bundles = s.bundles ∧ (State.openWire c o s).slots = s.slots ∧
    (State.openWire c o s).wt = s.wt ∧ (State.openWire c o s).mem = s.mem ∧
    (State.openWire c o s).fwMem = s.fwMem ∧ (State.openWire c o s).ms = s.ms ∧
    (State.openWire c o s).pricks = s.pricks ∧ (State.openWire c o s).templates = s.templates ∧
    (State.openWire c o s).jobs = s.jobs ∧ (State.openWire c o s).order = s.order ∧
    (State.openWire c o s).pillows = s.pillows ∧ (State.openWire c o s).free = s.free := by
  have hF0 := @State.report_frame
  unfold State.openWire; simp [hF0]

theorem State.landResult_frame (c : Conv) (q : Nat) (o : ConvOut) (s : State) :
    (State.landResult c q o s).now = s.now ∧ (State.landResult c q o s).pending = s.pending ∧
    (State.landResult c q o s).tb = s.tb ∧ (State.landResult c q o s).sheets = s.sheets ∧
    (State.landResult c q o s).units = s.units ∧ (State.landResult c q o s).pins = s.pins ∧
    (State.landResult c q o s).pk = s.pk ∧ (State.landResult c q o s).queues = s.queues ∧
    (State.landResult c q o s).latches = s.latches ∧ (State.landResult c q o s).errw = s.errw ∧
    (State.landResult c q o s).sdio = s.sdio ∧ (State.landResult c q o s).bulk = s.bulk ∧
    (State.landResult c q o s).mgmt = s.mgmt ∧ (State.landResult c q o s).power = s.power ∧
    (State.landResult c q o s).sec = s.sec ∧ (State.landResult c q o s).therm = s.therm ∧
    (State.landResult c q o s).ports = s.ports ∧ (State.landResult c q o s).streams = s.streams ∧
    (State.landResult c q o s).services = s.services ∧ (State.landResult c q o s).ptpPorts = s.ptpPorts ∧
    (State.landResult c q o s).ptp = s.ptp ∧ (State.landResult c q o s).chans = s.chans ∧
    (State.landResult c q o s).seqs = s.seqs ∧ (State.landResult c q o s).trim = s.trim ∧
    (State.landResult c q o s).bundles = s.bundles ∧ (State.landResult c q o s).slots = s.slots ∧
    (State.landResult c q o s).wt = s.wt ∧ (State.landResult c q o s).mem = s.mem ∧
    (State.landResult c q o s).fwMem = s.fwMem ∧ (State.landResult c q o s).ms = s.ms ∧
    (State.landResult c q o s).pricks = s.pricks ∧ (State.landResult c q o s).templates = s.templates ∧
    (State.landResult c q o s).jobs = s.jobs ∧ (State.landResult c q o s).order = s.order ∧
    (State.landResult c q o s).pillows = s.pillows ∧ (State.landResult c q o s).free = s.free := by
  unfold State.landResult; simp

theorem State.stepEnd_frame (q : Nat) (i : Nat) (s : State) : (State.stepEnd q i s).now = s.now ∧
    (State.stepEnd q i s).pending = s.pending ∧ (State.stepEnd q i s).tb = s.tb ∧
    (State.stepEnd q i s).sheets = s.sheets ∧ (State.stepEnd q i s).units = s.units ∧
    (State.stepEnd q i s).pk = s.pk ∧ (State.stepEnd q i s).queues = s.queues ∧
    (State.stepEnd q i s).latches = s.latches ∧ (State.stepEnd q i s).errw = s.errw ∧
    (State.stepEnd q i s).sdio = s.sdio ∧ (State.stepEnd q i s).bulk = s.bulk ∧
    (State.stepEnd q i s).mgmt = s.mgmt ∧ (State.stepEnd q i s).power = s.power ∧
    (State.stepEnd q i s).sec = s.sec ∧ (State.stepEnd q i s).therm = s.therm ∧
    (State.stepEnd q i s).ports = s.ports ∧ (State.stepEnd q i s).streams = s.streams ∧
    (State.stepEnd q i s).services = s.services ∧ (State.stepEnd q i s).ptpPorts = s.ptpPorts ∧
    (State.stepEnd q i s).ptp = s.ptp ∧ (State.stepEnd q i s).hc = s.hc ∧
    (State.stepEnd q i s).trim = s.trim ∧ (State.stepEnd q i s).bundles = s.bundles ∧
    (State.stepEnd q i s).slots = s.slots ∧ (State.stepEnd q i s).wt = s.wt ∧
    (State.stepEnd q i s).mem = s.mem ∧ (State.stepEnd q i s).fwMem = s.fwMem ∧
    (State.stepEnd q i s).ms = s.ms ∧ (State.stepEnd q i s).pricks = s.pricks ∧
    (State.stepEnd q i s).templates = s.templates ∧ (State.stepEnd q i s).jobs = s.jobs ∧
    (State.stepEnd q i s).order = s.order ∧ (State.stepEnd q i s).pillows = s.pillows ∧
    (State.stepEnd q i s).free = s.free := by
  have hF0 := @State.endSeq_frame
  have hF1 := @State.setHseq_frame
  unfold State.stepEnd; simp [hF0, hF1]

/-! ## Queues -/

theorem State.grantWaiting_frame (q : Nat) (s : State) : (State.grantWaiting q s).now = s.now ∧
    (State.grantWaiting q s).pending = s.pending ∧ (State.grantWaiting q s).tb = s.tb ∧
    (State.grantWaiting q s).sheets = s.sheets ∧ (State.grantWaiting q s).units = s.units ∧
    (State.grantWaiting q s).pins = s.pins ∧ (State.grantWaiting q s).pk = s.pk ∧
    (State.grantWaiting q s).latches = s.latches ∧ (State.grantWaiting q s).errw = s.errw ∧
    (State.grantWaiting q s).bulk = s.bulk ∧ (State.grantWaiting q s).mgmt = s.mgmt ∧
    (State.grantWaiting q s).power = s.power ∧ (State.grantWaiting q s).sec = s.sec ∧
    (State.grantWaiting q s).therm = s.therm ∧ (State.grantWaiting q s).ports = s.ports ∧
    (State.grantWaiting q s).streams = s.streams ∧ (State.grantWaiting q s).services = s.services ∧
    (State.grantWaiting q s).ptpPorts = s.ptpPorts ∧ (State.grantWaiting q s).ptp = s.ptp ∧
    (State.grantWaiting q s).chans = s.chans ∧ (State.grantWaiting q s).seqs = s.seqs ∧
    (State.grantWaiting q s).hc = s.hc ∧ (State.grantWaiting q s).trim = s.trim ∧
    (State.grantWaiting q s).bundles = s.bundles ∧ (State.grantWaiting q s).slots = s.slots ∧
    (State.grantWaiting q s).wt = s.wt ∧ (State.grantWaiting q s).mem = s.mem ∧
    (State.grantWaiting q s).fwMem = s.fwMem ∧ (State.grantWaiting q s).ms = s.ms ∧
    (State.grantWaiting q s).pricks = s.pricks ∧ (State.grantWaiting q s).templates = s.templates ∧
    (State.grantWaiting q s).jobs = s.jobs ∧ (State.grantWaiting q s).order = s.order ∧
    (State.grantWaiting q s).pillows = s.pillows ∧ (State.grantWaiting q s).free = s.free := by
  have hF0 := @State.putQueue_frame
  unfold State.grantWaiting; dsimp only; (repeat' split) <;> simp [hF0]

theorem State.grantAll_frame (q : Nat) (x0 : Nat) (x1 : State) : (State.grantAll q x0 x1).now = x1.now ∧
    (State.grantAll q x0 x1).pending = x1.pending ∧ (State.grantAll q x0 x1).tb = x1.tb ∧
    (State.grantAll q x0 x1).sheets = x1.sheets ∧ (State.grantAll q x0 x1).units = x1.units ∧
    (State.grantAll q x0 x1).pins = x1.pins ∧ (State.grantAll q x0 x1).pk = x1.pk ∧
    (State.grantAll q x0 x1).latches = x1.latches ∧ (State.grantAll q x0 x1).errw = x1.errw ∧
    (State.grantAll q x0 x1).bulk = x1.bulk ∧ (State.grantAll q x0 x1).mgmt = x1.mgmt ∧
    (State.grantAll q x0 x1).power = x1.power ∧ (State.grantAll q x0 x1).sec = x1.sec ∧
    (State.grantAll q x0 x1).therm = x1.therm ∧ (State.grantAll q x0 x1).ports = x1.ports ∧
    (State.grantAll q x0 x1).streams = x1.streams ∧ (State.grantAll q x0 x1).services = x1.services ∧
    (State.grantAll q x0 x1).ptpPorts = x1.ptpPorts ∧ (State.grantAll q x0 x1).ptp = x1.ptp ∧
    (State.grantAll q x0 x1).chans = x1.chans ∧ (State.grantAll q x0 x1).seqs = x1.seqs ∧
    (State.grantAll q x0 x1).hc = x1.hc ∧ (State.grantAll q x0 x1).trim = x1.trim ∧
    (State.grantAll q x0 x1).bundles = x1.bundles ∧ (State.grantAll q x0 x1).slots = x1.slots ∧
    (State.grantAll q x0 x1).wt = x1.wt ∧ (State.grantAll q x0 x1).mem = x1.mem ∧
    (State.grantAll q x0 x1).fwMem = x1.fwMem ∧ (State.grantAll q x0 x1).ms = x1.ms ∧
    (State.grantAll q x0 x1).pricks = x1.pricks ∧ (State.grantAll q x0 x1).templates = x1.templates ∧
    (State.grantAll q x0 x1).jobs = x1.jobs ∧ (State.grantAll q x0 x1).order = x1.order ∧
    (State.grantAll q x0 x1).pillows = x1.pillows ∧ (State.grantAll q x0 x1).free = x1.free := by
  have hF0 := @State.grantWaiting_frame
  induction x0 generalizing x1 <;> simp_all [State.grantAll]

theorem State.mailboxEnter_frame (s : State) : (State.mailboxEnter s).now = s.now ∧
    (State.mailboxEnter s).pending = s.pending ∧ (State.mailboxEnter s).tb = s.tb ∧
    (State.mailboxEnter s).sheets = s.sheets ∧ (State.mailboxEnter s).units = s.units ∧
    (State.mailboxEnter s).pins = s.pins ∧ (State.mailboxEnter s).pk = s.pk ∧
    (State.mailboxEnter s).latches = s.latches ∧ (State.mailboxEnter s).errw = s.errw ∧
    (State.mailboxEnter s).bulk = s.bulk ∧ (State.mailboxEnter s).mgmt = s.mgmt ∧
    (State.mailboxEnter s).power = s.power ∧ (State.mailboxEnter s).sec = s.sec ∧
    (State.mailboxEnter s).therm = s.therm ∧ (State.mailboxEnter s).ports = s.ports ∧
    (State.mailboxEnter s).streams = s.streams ∧ (State.mailboxEnter s).services = s.services ∧
    (State.mailboxEnter s).ptpPorts = s.ptpPorts ∧ (State.mailboxEnter s).ptp = s.ptp ∧
    (State.mailboxEnter s).chans = s.chans ∧ (State.mailboxEnter s).seqs = s.seqs ∧
    (State.mailboxEnter s).hc = s.hc ∧ (State.mailboxEnter s).trim = s.trim ∧
    (State.mailboxEnter s).bundles = s.bundles ∧ (State.mailboxEnter s).slots = s.slots ∧
    (State.mailboxEnter s).wt = s.wt ∧ (State.mailboxEnter s).mem = s.mem ∧
    (State.mailboxEnter s).fwMem = s.fwMem ∧ (State.mailboxEnter s).ms = s.ms ∧
    (State.mailboxEnter s).pricks = s.pricks ∧ (State.mailboxEnter s).templates = s.templates ∧
    (State.mailboxEnter s).jobs = s.jobs ∧ (State.mailboxEnter s).order = s.order ∧
    (State.mailboxEnter s).pillows = s.pillows ∧ (State.mailboxEnter s).free = s.free := by
  have hF0 := @State.putQueue_frame
  unfold State.mailboxEnter; dsimp only; (repeat' split) <;> simp [hF0]

theorem State.grantMailbox_frame (s : State) : (State.grantMailbox s).now = s.now ∧
    (State.grantMailbox s).pending = s.pending ∧ (State.grantMailbox s).tb = s.tb ∧
    (State.grantMailbox s).sheets = s.sheets ∧ (State.grantMailbox s).units = s.units ∧
    (State.grantMailbox s).pins = s.pins ∧ (State.grantMailbox s).pk = s.pk ∧
    (State.grantMailbox s).latches = s.latches ∧ (State.grantMailbox s).errw = s.errw ∧
    (State.grantMailbox s).bulk = s.bulk ∧ (State.grantMailbox s).mgmt = s.mgmt ∧
    (State.grantMailbox s).power = s.power ∧ (State.grantMailbox s).sec = s.sec ∧
    (State.grantMailbox s).therm = s.therm ∧ (State.grantMailbox s).ports = s.ports ∧
    (State.grantMailbox s).streams = s.streams ∧ (State.grantMailbox s).services = s.services ∧
    (State.grantMailbox s).ptpPorts = s.ptpPorts ∧ (State.grantMailbox s).ptp = s.ptp ∧
    (State.grantMailbox s).chans = s.chans ∧ (State.grantMailbox s).seqs = s.seqs ∧
    (State.grantMailbox s).hc = s.hc ∧ (State.grantMailbox s).trim = s.trim ∧
    (State.grantMailbox s).bundles = s.bundles ∧ (State.grantMailbox s).slots = s.slots ∧
    (State.grantMailbox s).wt = s.wt ∧ (State.grantMailbox s).mem = s.mem ∧
    (State.grantMailbox s).fwMem = s.fwMem ∧ (State.grantMailbox s).ms = s.ms ∧
    (State.grantMailbox s).pricks = s.pricks ∧ (State.grantMailbox s).templates = s.templates ∧
    (State.grantMailbox s).jobs = s.jobs ∧ (State.grantMailbox s).order = s.order ∧
    (State.grantMailbox s).pillows = s.pillows ∧ (State.grantMailbox s).free = s.free := by
  have hF0 := @State.mailboxEnter_frame
  unfold State.grantMailbox; simp [hF0]

theorem State.grantLatch_frame (s : State) : (State.grantLatch s).now = s.now ∧
    (State.grantLatch s).pending = s.pending ∧ (State.grantLatch s).tb = s.tb ∧
    (State.grantLatch s).sheets = s.sheets ∧ (State.grantLatch s).units = s.units ∧
    (State.grantLatch s).pins = s.pins ∧ (State.grantLatch s).pk = s.pk ∧
    (State.grantLatch s).errw = s.errw ∧ (State.grantLatch s).bulk = s.bulk ∧
    (State.grantLatch s).mgmt = s.mgmt ∧ (State.grantLatch s).power = s.power ∧
    (State.grantLatch s).sec = s.sec ∧ (State.grantLatch s).therm = s.therm ∧
    (State.grantLatch s).ports = s.ports ∧ (State.grantLatch s).streams = s.streams ∧
    (State.grantLatch s).services = s.services ∧ (State.grantLatch s).ptpPorts = s.ptpPorts ∧
    (State.grantLatch s).ptp = s.ptp ∧ (State.grantLatch s).chans = s.chans ∧
    (State.grantLatch s).seqs = s.seqs ∧ (State.grantLatch s).hc = s.hc ∧
    (State.grantLatch s).trim = s.trim ∧ (State.grantLatch s).bundles = s.bundles ∧
    (State.grantLatch s).slots = s.slots ∧ (State.grantLatch s).wt = s.wt ∧
    (State.grantLatch s).mem = s.mem ∧ (State.grantLatch s).fwMem = s.fwMem ∧
    (State.grantLatch s).ms = s.ms ∧ (State.grantLatch s).pricks = s.pricks ∧
    (State.grantLatch s).templates = s.templates ∧ (State.grantLatch s).jobs = s.jobs ∧
    (State.grantLatch s).order = s.order ∧ (State.grantLatch s).pillows = s.pillows ∧
    (State.grantLatch s).free = s.free := by
  have hF0 := @State.presentLatch_frame
  unfold State.grantLatch; (repeat' split) <;> simp [hF0]

theorem State.grantLatches_frame (x0 : Nat) (x1 : State) : (State.grantLatches x0 x1).now = x1.now ∧
    (State.grantLatches x0 x1).pending = x1.pending ∧ (State.grantLatches x0 x1).tb = x1.tb ∧
    (State.grantLatches x0 x1).sheets = x1.sheets ∧ (State.grantLatches x0 x1).units = x1.units ∧
    (State.grantLatches x0 x1).pins = x1.pins ∧ (State.grantLatches x0 x1).pk = x1.pk ∧
    (State.grantLatches x0 x1).errw = x1.errw ∧ (State.grantLatches x0 x1).bulk = x1.bulk ∧
    (State.grantLatches x0 x1).mgmt = x1.mgmt ∧ (State.grantLatches x0 x1).power = x1.power ∧
    (State.grantLatches x0 x1).sec = x1.sec ∧ (State.grantLatches x0 x1).therm = x1.therm ∧
    (State.grantLatches x0 x1).ports = x1.ports ∧ (State.grantLatches x0 x1).streams = x1.streams ∧
    (State.grantLatches x0 x1).services = x1.services ∧ (State.grantLatches x0 x1).ptpPorts = x1.ptpPorts ∧
    (State.grantLatches x0 x1).ptp = x1.ptp ∧ (State.grantLatches x0 x1).chans = x1.chans ∧
    (State.grantLatches x0 x1).seqs = x1.seqs ∧ (State.grantLatches x0 x1).hc = x1.hc ∧
    (State.grantLatches x0 x1).trim = x1.trim ∧ (State.grantLatches x0 x1).bundles = x1.bundles ∧
    (State.grantLatches x0 x1).slots = x1.slots ∧ (State.grantLatches x0 x1).wt = x1.wt ∧
    (State.grantLatches x0 x1).mem = x1.mem ∧ (State.grantLatches x0 x1).fwMem = x1.fwMem ∧
    (State.grantLatches x0 x1).ms = x1.ms ∧ (State.grantLatches x0 x1).pricks = x1.pricks ∧
    (State.grantLatches x0 x1).templates = x1.templates ∧ (State.grantLatches x0 x1).jobs = x1.jobs ∧
    (State.grantLatches x0 x1).order = x1.order ∧ (State.grantLatches x0 x1).pillows = x1.pillows ∧
    (State.grantLatches x0 x1).free = x1.free := by
  have hF0 := @State.grantLatch_frame
  induction x0 generalizing x1 <;> simp_all [State.grantLatches]

theorem State.grantNote_frame (s : State) : (State.grantNote s).now = s.now ∧
    (State.grantNote s).pending = s.pending ∧ (State.grantNote s).tb = s.tb ∧
    (State.grantNote s).sheets = s.sheets ∧ (State.grantNote s).units = s.units ∧
    (State.grantNote s).pins = s.pins ∧ (State.grantNote s).pk = s.pk ∧
    (State.grantNote s).latches = s.latches ∧ (State.grantNote s).errw = s.errw ∧
    (State.grantNote s).bulk = s.bulk ∧ (State.grantNote s).mgmt = s.mgmt ∧
    (State.grantNote s).power = s.power ∧ (State.grantNote s).sec = s.sec ∧
    (State.grantNote s).therm = s.therm ∧ (State.grantNote s).ports = s.ports ∧
    (State.grantNote s).streams = s.streams ∧ (State.grantNote s).services = s.services ∧
    (State.grantNote s).ptpPorts = s.ptpPorts ∧ (State.grantNote s).ptp = s.ptp ∧
    (State.grantNote s).chans = s.chans ∧ (State.grantNote s).seqs = s.seqs ∧
    (State.grantNote s).hc = s.hc ∧ (State.grantNote s).trim = s.trim ∧
    (State.grantNote s).bundles = s.bundles ∧ (State.grantNote s).slots = s.slots ∧
    (State.grantNote s).wt = s.wt ∧ (State.grantNote s).mem = s.mem ∧ (State.grantNote s).fwMem = s.fwMem ∧
    (State.grantNote s).ms = s.ms ∧ (State.grantNote s).pricks = s.pricks ∧
    (State.grantNote s).templates = s.templates ∧ (State.grantNote s).jobs = s.jobs ∧
    (State.grantNote s).order = s.order ∧ (State.grantNote s).pillows = s.pillows ∧
    (State.grantNote s).free = s.free := by
  have hF0 := @State.putQueue_frame
  unfold State.grantNote; dsimp only; (repeat' split) <;> simp [hF0]

theorem State.grantNotes_frame (x0 : Nat) (x1 : State) : (State.grantNotes x0 x1).now = x1.now ∧
    (State.grantNotes x0 x1).pending = x1.pending ∧ (State.grantNotes x0 x1).tb = x1.tb ∧
    (State.grantNotes x0 x1).sheets = x1.sheets ∧ (State.grantNotes x0 x1).units = x1.units ∧
    (State.grantNotes x0 x1).pins = x1.pins ∧ (State.grantNotes x0 x1).pk = x1.pk ∧
    (State.grantNotes x0 x1).latches = x1.latches ∧ (State.grantNotes x0 x1).errw = x1.errw ∧
    (State.grantNotes x0 x1).bulk = x1.bulk ∧ (State.grantNotes x0 x1).mgmt = x1.mgmt ∧
    (State.grantNotes x0 x1).power = x1.power ∧ (State.grantNotes x0 x1).sec = x1.sec ∧
    (State.grantNotes x0 x1).therm = x1.therm ∧ (State.grantNotes x0 x1).ports = x1.ports ∧
    (State.grantNotes x0 x1).streams = x1.streams ∧ (State.grantNotes x0 x1).services = x1.services ∧
    (State.grantNotes x0 x1).ptpPorts = x1.ptpPorts ∧ (State.grantNotes x0 x1).ptp = x1.ptp ∧
    (State.grantNotes x0 x1).chans = x1.chans ∧ (State.grantNotes x0 x1).seqs = x1.seqs ∧
    (State.grantNotes x0 x1).hc = x1.hc ∧ (State.grantNotes x0 x1).trim = x1.trim ∧
    (State.grantNotes x0 x1).bundles = x1.bundles ∧ (State.grantNotes x0 x1).slots = x1.slots ∧
    (State.grantNotes x0 x1).wt = x1.wt ∧ (State.grantNotes x0 x1).mem = x1.mem ∧
    (State.grantNotes x0 x1).fwMem = x1.fwMem ∧ (State.grantNotes x0 x1).ms = x1.ms ∧
    (State.grantNotes x0 x1).pricks = x1.pricks ∧ (State.grantNotes x0 x1).templates = x1.templates ∧
    (State.grantNotes x0 x1).jobs = x1.jobs ∧ (State.grantNotes x0 x1).order = x1.order ∧
    (State.grantNotes x0 x1).pillows = x1.pillows ∧ (State.grantNotes x0 x1).free = x1.free := by
  have hF0 := @State.grantNote_frame
  induction x0 generalizing x1 <;> simp_all [State.grantNotes]

theorem queueFlushDo_frame (h : Hdr) (q : Nat) (s : State) : (queueFlushDo h q s).now = s.now ∧
    (queueFlushDo h q s).pending = s.pending ∧ (queueFlushDo h q s).tb = s.tb ∧
    (queueFlushDo h q s).sheets = s.sheets ∧ (queueFlushDo h q s).units = s.units ∧
    (queueFlushDo h q s).pins = s.pins ∧ (queueFlushDo h q s).pk = s.pk ∧
    (queueFlushDo h q s).latches = s.latches ∧ (queueFlushDo h q s).errw = s.errw ∧
    (queueFlushDo h q s).sdio = s.sdio ∧ (queueFlushDo h q s).bulk = s.bulk ∧
    (queueFlushDo h q s).power = s.power ∧ (queueFlushDo h q s).sec = s.sec ∧
    (queueFlushDo h q s).therm = s.therm ∧ (queueFlushDo h q s).ports = s.ports ∧
    (queueFlushDo h q s).streams = s.streams ∧ (queueFlushDo h q s).services = s.services ∧
    (queueFlushDo h q s).ptpPorts = s.ptpPorts ∧ (queueFlushDo h q s).ptp = s.ptp ∧
    (queueFlushDo h q s).chans = s.chans ∧ (queueFlushDo h q s).seqs = s.seqs ∧
    (queueFlushDo h q s).hc = s.hc ∧ (queueFlushDo h q s).trim = s.trim ∧
    (queueFlushDo h q s).bundles = s.bundles ∧ (queueFlushDo h q s).slots = s.slots ∧
    (queueFlushDo h q s).wt = s.wt ∧ (queueFlushDo h q s).mem = s.mem ∧
    (queueFlushDo h q s).fwMem = s.fwMem ∧ (queueFlushDo h q s).ms = s.ms ∧
    (queueFlushDo h q s).pricks = s.pricks ∧ (queueFlushDo h q s).templates = s.templates ∧
    (queueFlushDo h q s).jobs = s.jobs ∧ (queueFlushDo h q s).order = s.order ∧
    (queueFlushDo h q s).pillows = s.pillows ∧ (queueFlushDo h q s).free = s.free := by
  have hF0 := @State.release_frame
  have hF1 := @State.modQueue_frame
  unfold queueFlushDo; simp [hF0, hF1]

theorem State.rearmAll_frame (x0 : List QPacket) (x1 : State) : (State.rearmAll x0 x1).now = x1.now ∧
    (State.rearmAll x0 x1).pending = x1.pending ∧ (State.rearmAll x0 x1).tb = x1.tb ∧
    (State.rearmAll x0 x1).sheets = x1.sheets ∧ (State.rearmAll x0 x1).units = x1.units ∧
    (State.rearmAll x0 x1).pins = x1.pins ∧ (State.rearmAll x0 x1).pk = x1.pk ∧
    (State.rearmAll x0 x1).queues = x1.queues ∧ (State.rearmAll x0 x1).errw = x1.errw ∧
    (State.rearmAll x0 x1).sdio = x1.sdio ∧ (State.rearmAll x0 x1).bulk = x1.bulk ∧
    (State.rearmAll x0 x1).mgmt = x1.mgmt ∧ (State.rearmAll x0 x1).power = x1.power ∧
    (State.rearmAll x0 x1).sec = x1.sec ∧ (State.rearmAll x0 x1).therm = x1.therm ∧
    (State.rearmAll x0 x1).ports = x1.ports ∧ (State.rearmAll x0 x1).streams = x1.streams ∧
    (State.rearmAll x0 x1).services = x1.services ∧ (State.rearmAll x0 x1).ptpPorts = x1.ptpPorts ∧
    (State.rearmAll x0 x1).ptp = x1.ptp ∧ (State.rearmAll x0 x1).chans = x1.chans ∧
    (State.rearmAll x0 x1).seqs = x1.seqs ∧ (State.rearmAll x0 x1).hc = x1.hc ∧
    (State.rearmAll x0 x1).trim = x1.trim ∧ (State.rearmAll x0 x1).bundles = x1.bundles ∧
    (State.rearmAll x0 x1).slots = x1.slots ∧ (State.rearmAll x0 x1).wt = x1.wt ∧
    (State.rearmAll x0 x1).mem = x1.mem ∧ (State.rearmAll x0 x1).fwMem = x1.fwMem ∧
    (State.rearmAll x0 x1).ms = x1.ms ∧ (State.rearmAll x0 x1).pricks = x1.pricks ∧
    (State.rearmAll x0 x1).templates = x1.templates ∧ (State.rearmAll x0 x1).jobs = x1.jobs ∧
    (State.rearmAll x0 x1).order = x1.order ∧ (State.rearmAll x0 x1).pillows = x1.pillows ∧
    (State.rearmAll x0 x1).free = x1.free := by
  have hF0 := @State.rearm_frame
  induction x0 generalizing x1 <;> simp_all [State.rearmAll]

theorem State.flushAnswers_frame (n : Nat) (x0 : List Hdr) (x1 : State) :
    (State.flushAnswers n x0 x1).now = x1.now ∧ (State.flushAnswers n x0 x1).pending = x1.pending ∧
    (State.flushAnswers n x0 x1).tb = x1.tb ∧ (State.flushAnswers n x0 x1).sheets = x1.sheets ∧
    (State.flushAnswers n x0 x1).units = x1.units ∧ (State.flushAnswers n x0 x1).pins = x1.pins ∧
    (State.flushAnswers n x0 x1).pk = x1.pk ∧ (State.flushAnswers n x0 x1).latches = x1.latches ∧
    (State.flushAnswers n x0 x1).errw = x1.errw ∧ (State.flushAnswers n x0 x1).bulk = x1.bulk ∧
    (State.flushAnswers n x0 x1).power = x1.power ∧ (State.flushAnswers n x0 x1).sec = x1.sec ∧
    (State.flushAnswers n x0 x1).therm = x1.therm ∧ (State.flushAnswers n x0 x1).ports = x1.ports ∧
    (State.flushAnswers n x0 x1).streams = x1.streams ∧
    (State.flushAnswers n x0 x1).services = x1.services ∧
    (State.flushAnswers n x0 x1).ptpPorts = x1.ptpPorts ∧ (State.flushAnswers n x0 x1).ptp = x1.ptp ∧
    (State.flushAnswers n x0 x1).chans = x1.chans ∧ (State.flushAnswers n x0 x1).seqs = x1.seqs ∧
    (State.flushAnswers n x0 x1).hc = x1.hc ∧ (State.flushAnswers n x0 x1).trim = x1.trim ∧
    (State.flushAnswers n x0 x1).bundles = x1.bundles ∧ (State.flushAnswers n x0 x1).slots = x1.slots ∧
    (State.flushAnswers n x0 x1).wt = x1.wt ∧ (State.flushAnswers n x0 x1).mem = x1.mem ∧
    (State.flushAnswers n x0 x1).fwMem = x1.fwMem ∧ (State.flushAnswers n x0 x1).ms = x1.ms ∧
    (State.flushAnswers n x0 x1).pricks = x1.pricks ∧
    (State.flushAnswers n x0 x1).templates = x1.templates ∧ (State.flushAnswers n x0 x1).jobs = x1.jobs ∧
    (State.flushAnswers n x0 x1).order = x1.order ∧ (State.flushAnswers n x0 x1).pillows = x1.pillows ∧
    (State.flushAnswers n x0 x1).free = x1.free := by
  have hF0 := @State.done_frame
  induction x0 generalizing x1 <;> simp_all [State.flushAnswers]

theorem State.flushQueue_frame (q : Nat) (s : State) : (State.flushQueue q s).now = s.now ∧
    (State.flushQueue q s).pending = s.pending ∧ (State.flushQueue q s).tb = s.tb ∧
    (State.flushQueue q s).sheets = s.sheets ∧ (State.flushQueue q s).units = s.units ∧
    (State.flushQueue q s).pins = s.pins ∧ (State.flushQueue q s).pk = s.pk ∧
    (State.flushQueue q s).errw = s.errw ∧ (State.flushQueue q s).bulk = s.bulk ∧
    (State.flushQueue q s).power = s.power ∧ (State.flushQueue q s).sec = s.sec ∧
    (State.flushQueue q s).therm = s.therm ∧ (State.flushQueue q s).ports = s.ports ∧
    (State.flushQueue q s).streams = s.streams ∧ (State.flushQueue q s).services = s.services ∧
    (State.flushQueue q s).ptpPorts = s.ptpPorts ∧ (State.flushQueue q s).ptp = s.ptp ∧
    (State.flushQueue q s).chans = s.chans ∧ (State.flushQueue q s).seqs = s.seqs ∧
    (State.flushQueue q s).hc = s.hc ∧ (State.flushQueue q s).trim = s.trim ∧
    (State.flushQueue q s).bundles = s.bundles ∧ (State.flushQueue q s).slots = s.slots ∧
    (State.flushQueue q s).wt = s.wt ∧ (State.flushQueue q s).mem = s.mem ∧
    (State.flushQueue q s).fwMem = s.fwMem ∧ (State.flushQueue q s).ms = s.ms ∧
    (State.flushQueue q s).pricks = s.pricks ∧ (State.flushQueue q s).templates = s.templates ∧
    (State.flushQueue q s).jobs = s.jobs ∧ (State.flushQueue q s).order = s.order ∧
    (State.flushQueue q s).pillows = s.pillows ∧ (State.flushQueue q s).free = s.free := by
  have hF0 := @State.putQueue_frame
  have hF1 := @State.grantAll_frame
  have hF2 := @State.grantMailbox_frame
  have hF3 := @State.grantLatches_frame
  have hF4 := @State.grantNotes_frame
  have hF5 := @State.rearmAll_frame
  have hF6 := @State.flushAnswers_frame
  unfold State.flushQueue; simp [hF0, hF1, hF2, hF3, hF4, hF5, hF6]

theorem State.dropRead_frame (q : Nat) (s : State) : (State.dropRead q s).2.now = s.now ∧
    (State.dropRead q s).2.pending = s.pending ∧ (State.dropRead q s).2.tb = s.tb ∧
    (State.dropRead q s).2.sheets = s.sheets ∧ (State.dropRead q s).2.units = s.units ∧
    (State.dropRead q s).2.pins = s.pins ∧ (State.dropRead q s).2.pk = s.pk ∧
    (State.dropRead q s).2.latches = s.latches ∧ (State.dropRead q s).2.errw = s.errw ∧
    (State.dropRead q s).2.bulk = s.bulk ∧ (State.dropRead q s).2.mgmt = s.mgmt ∧
    (State.dropRead q s).2.power = s.power ∧ (State.dropRead q s).2.sec = s.sec ∧
    (State.dropRead q s).2.therm = s.therm ∧ (State.dropRead q s).2.ports = s.ports ∧
    (State.dropRead q s).2.streams = s.streams ∧ (State.dropRead q s).2.services = s.services ∧
    (State.dropRead q s).2.ptpPorts = s.ptpPorts ∧ (State.dropRead q s).2.ptp = s.ptp ∧
    (State.dropRead q s).2.chans = s.chans ∧ (State.dropRead q s).2.seqs = s.seqs ∧
    (State.dropRead q s).2.hc = s.hc ∧ (State.dropRead q s).2.trim = s.trim ∧
    (State.dropRead q s).2.bundles = s.bundles ∧ (State.dropRead q s).2.slots = s.slots ∧
    (State.dropRead q s).2.wt = s.wt ∧ (State.dropRead q s).2.mem = s.mem ∧
    (State.dropRead q s).2.fwMem = s.fwMem ∧ (State.dropRead q s).2.ms = s.ms ∧
    (State.dropRead q s).2.pricks = s.pricks ∧ (State.dropRead q s).2.templates = s.templates ∧
    (State.dropRead q s).2.jobs = s.jobs ∧ (State.dropRead q s).2.order = s.order ∧
    (State.dropRead q s).2.pillows = s.pillows ∧ (State.dropRead q s).2.free = s.free := by
  have hF0 := @State.putQueue_frame
  unfold State.dropRead; simp [hF0]

theorem State.dropWrite_frame (q : Nat) (w : Nat) (s : State) : (State.dropWrite q w s).2.now = s.now ∧
    (State.dropWrite q w s).2.pending = s.pending ∧ (State.dropWrite q w s).2.tb = s.tb ∧
    (State.dropWrite q w s).2.sheets = s.sheets ∧ (State.dropWrite q w s).2.units = s.units ∧
    (State.dropWrite q w s).2.pins = s.pins ∧ (State.dropWrite q w s).2.pk = s.pk ∧
    (State.dropWrite q w s).2.latches = s.latches ∧ (State.dropWrite q w s).2.errw = s.errw ∧
    (State.dropWrite q w s).2.sdio = s.sdio ∧ (State.dropWrite q w s).2.bulk = s.bulk ∧
    (State.dropWrite q w s).2.mgmt = s.mgmt ∧ (State.dropWrite q w s).2.power = s.power ∧
    (State.dropWrite q w s).2.sec = s.sec ∧ (State.dropWrite q w s).2.therm = s.therm ∧
    (State.dropWrite q w s).2.ports = s.ports ∧ (State.dropWrite q w s).2.streams = s.streams ∧
    (State.dropWrite q w s).2.services = s.services ∧ (State.dropWrite q w s).2.ptpPorts = s.ptpPorts ∧
    (State.dropWrite q w s).2.ptp = s.ptp ∧ (State.dropWrite q w s).2.chans = s.chans ∧
    (State.dropWrite q w s).2.seqs = s.seqs ∧ (State.dropWrite q w s).2.hc = s.hc ∧
    (State.dropWrite q w s).2.trim = s.trim ∧ (State.dropWrite q w s).2.bundles = s.bundles ∧
    (State.dropWrite q w s).2.slots = s.slots ∧ (State.dropWrite q w s).2.wt = s.wt ∧
    (State.dropWrite q w s).2.mem = s.mem ∧ (State.dropWrite q w s).2.fwMem = s.fwMem ∧
    (State.dropWrite q w s).2.ms = s.ms ∧ (State.dropWrite q w s).2.pricks = s.pricks ∧
    (State.dropWrite q w s).2.templates = s.templates ∧ (State.dropWrite q w s).2.jobs = s.jobs ∧
    (State.dropWrite q w s).2.order = s.order ∧ (State.dropWrite q w s).2.pillows = s.pillows ∧
    (State.dropWrite q w s).2.free = s.free := by
  have hF0 := @State.dropPartial_frame
  unfold State.dropWrite; (repeat' split) <;> simp [hF0]

theorem queueDropDo_frame (h : Hdr) (q : Nat) (write : Bool) (w : Nat) (s : State) :
    (queueDropDo h q write w s).now = s.now ∧ (queueDropDo h q write w s).pending = s.pending ∧
    (queueDropDo h q write w s).tb = s.tb ∧ (queueDropDo h q write w s).sheets = s.sheets ∧
    (queueDropDo h q write w s).units = s.units ∧ (queueDropDo h q write w s).pins = s.pins ∧
    (queueDropDo h q write w s).pk = s.pk ∧ (queueDropDo h q write w s).latches = s.latches ∧
    (queueDropDo h q write w s).errw = s.errw ∧ (queueDropDo h q write w s).bulk = s.bulk ∧
    (queueDropDo h q write w s).power = s.power ∧ (queueDropDo h q write w s).sec = s.sec ∧
    (queueDropDo h q write w s).therm = s.therm ∧ (queueDropDo h q write w s).ports = s.ports ∧
    (queueDropDo h q write w s).streams = s.streams ∧ (queueDropDo h q write w s).services = s.services ∧
    (queueDropDo h q write w s).ptpPorts = s.ptpPorts ∧ (queueDropDo h q write w s).ptp = s.ptp ∧
    (queueDropDo h q write w s).chans = s.chans ∧ (queueDropDo h q write w s).seqs = s.seqs ∧
    (queueDropDo h q write w s).hc = s.hc ∧ (queueDropDo h q write w s).trim = s.trim ∧
    (queueDropDo h q write w s).bundles = s.bundles ∧ (queueDropDo h q write w s).slots = s.slots ∧
    (queueDropDo h q write w s).wt = s.wt ∧ (queueDropDo h q write w s).mem = s.mem ∧
    (queueDropDo h q write w s).fwMem = s.fwMem ∧ (queueDropDo h q write w s).ms = s.ms ∧
    (queueDropDo h q write w s).pricks = s.pricks ∧ (queueDropDo h q write w s).templates = s.templates ∧
    (queueDropDo h q write w s).jobs = s.jobs ∧ (queueDropDo h q write w s).order = s.order ∧
    (queueDropDo h q write w s).pillows = s.pillows ∧ (queueDropDo h q write w s).free = s.free := by
  have hF0 := @State.done_frame
  have hF1 := @State.dropWrite_frame
  have hF2 := @State.dropRead_frame
  unfold queueDropDo; simp [hF0, hF1, hF2]

theorem State.errPop_frame (ecc : WordEcc) (s : State) : (State.errPop ecc s).now = s.now ∧
    (State.errPop ecc s).pending = s.pending ∧ (State.errPop ecc s).tb = s.tb ∧
    (State.errPop ecc s).sheets = s.sheets ∧ (State.errPop ecc s).units = s.units ∧
    (State.errPop ecc s).pins = s.pins ∧ (State.errPop ecc s).pk = s.pk ∧
    (State.errPop ecc s).bulk = s.bulk ∧ (State.errPop ecc s).power = s.power ∧
    (State.errPop ecc s).sec = s.sec ∧ (State.errPop ecc s).therm = s.therm ∧
    (State.errPop ecc s).ports = s.ports ∧ (State.errPop ecc s).streams = s.streams ∧
    (State.errPop ecc s).services = s.services ∧ (State.errPop ecc s).ptpPorts = s.ptpPorts ∧
    (State.errPop ecc s).ptp = s.ptp ∧ (State.errPop ecc s).chans = s.chans ∧
    (State.errPop ecc s).seqs = s.seqs ∧ (State.errPop ecc s).hc = s.hc ∧
    (State.errPop ecc s).trim = s.trim ∧ (State.errPop ecc s).bundles = s.bundles ∧
    (State.errPop ecc s).slots = s.slots ∧ (State.errPop ecc s).wt = s.wt ∧
    (State.errPop ecc s).mem = s.mem ∧ (State.errPop ecc s).fwMem = s.fwMem ∧
    (State.errPop ecc s).ms = s.ms ∧ (State.errPop ecc s).pricks = s.pricks ∧
    (State.errPop ecc s).templates = s.templates ∧ (State.errPop ecc s).jobs = s.jobs ∧
    (State.errPop ecc s).order = s.order ∧ (State.errPop ecc s).pillows = s.pillows ∧
    (State.errPop ecc s).free = s.free := by
  have hF0 := @State.afterLoss_frame
  have hF1 := @State.rearm_frame
  have ht := State.takePacket_frame 2 ecc s
  unfold State.errPop
  rcases hx : State.takePacket 2 ecc s with ⟨lost, e, t⟩
  rw [hx] at ht
  dsimp only at ht
  cases e <;> simp [hF0, hF1, ht]

theorem State.leaveRecovery_frame (s : State) : (State.leaveRecovery s).now = s.now ∧
    (State.leaveRecovery s).pending = s.pending ∧ (State.leaveRecovery s).tb = s.tb ∧
    (State.leaveRecovery s).sheets = s.sheets ∧ (State.leaveRecovery s).units = s.units ∧
    (State.leaveRecovery s).pins = s.pins ∧ (State.leaveRecovery s).pk = s.pk ∧
    (State.leaveRecovery s).errw = s.errw ∧ (State.leaveRecovery s).bulk = s.bulk ∧
    (State.leaveRecovery s).power = s.power ∧ (State.leaveRecovery s).sec = s.sec ∧
    (State.leaveRecovery s).therm = s.therm ∧ (State.leaveRecovery s).ports = s.ports ∧
    (State.leaveRecovery s).streams = s.streams ∧ (State.leaveRecovery s).services = s.services ∧
    (State.leaveRecovery s).ptpPorts = s.ptpPorts ∧ (State.leaveRecovery s).ptp = s.ptp ∧
    (State.leaveRecovery s).chans = s.chans ∧ (State.leaveRecovery s).seqs = s.seqs ∧
    (State.leaveRecovery s).hc = s.hc ∧ (State.leaveRecovery s).trim = s.trim ∧
    (State.leaveRecovery s).bundles = s.bundles ∧ (State.leaveRecovery s).slots = s.slots ∧
    (State.leaveRecovery s).wt = s.wt ∧ (State.leaveRecovery s).mem = s.mem ∧
    (State.leaveRecovery s).fwMem = s.fwMem ∧ (State.leaveRecovery s).ms = s.ms ∧
    (State.leaveRecovery s).pricks = s.pricks ∧ (State.leaveRecovery s).templates = s.templates ∧
    (State.leaveRecovery s).jobs = s.jobs ∧ (State.leaveRecovery s).order = s.order ∧
    (State.leaveRecovery s).pillows = s.pillows ∧ (State.leaveRecovery s).free = s.free := by
  have hF0 := @State.report_frame
  unfold State.leaveRecovery; simp [hF0]

theorem State.handFast_frame (c : CmdPacket) (s : State) : (State.handFast c s).now = s.now ∧
    (State.handFast c s).pending = s.pending ∧ (State.handFast c s).tb = s.tb ∧
    (State.handFast c s).sheets = s.sheets ∧ (State.handFast c s).units = s.units ∧
    (State.handFast c s).pins = s.pins ∧ (State.handFast c s).pk = s.pk ∧
    (State.handFast c s).latches = s.latches ∧ (State.handFast c s).errw = s.errw ∧
    (State.handFast c s).bulk = s.bulk ∧ (State.handFast c s).power = s.power ∧
    (State.handFast c s).sec = s.sec ∧ (State.handFast c s).therm = s.therm ∧
    (State.handFast c s).ports = s.ports ∧ (State.handFast c s).streams = s.streams ∧
    (State.handFast c s).services = s.services ∧ (State.handFast c s).ptpPorts = s.ptpPorts ∧
    (State.handFast c s).ptp = s.ptp ∧ (State.handFast c s).chans = s.chans ∧
    (State.handFast c s).seqs = s.seqs ∧ (State.handFast c s).hc = s.hc ∧
    (State.handFast c s).trim = s.trim ∧ (State.handFast c s).bundles = s.bundles ∧
    (State.handFast c s).slots = s.slots ∧ (State.handFast c s).wt = s.wt ∧
    (State.handFast c s).mem = s.mem ∧ (State.handFast c s).fwMem = s.fwMem ∧
    (State.handFast c s).ms = s.ms ∧ (State.handFast c s).pricks = s.pricks ∧
    (State.handFast c s).templates = s.templates ∧ (State.handFast c s).jobs = s.jobs ∧
    (State.handFast c s).order = s.order ∧ (State.handFast c s).pillows = s.pillows ∧
    (State.handFast c s).free = s.free := by
  have hF0 := @State.present_frame
  unfold State.handFast; dsimp only; (repeat' split) <;> simp [hF0]

theorem State.handCore_frame (k : Nat) (c : CmdPacket) (s : State) : (State.handCore k c s).now = s.now ∧
    (State.handCore k c s).pending = s.pending ∧ (State.handCore k c s).tb = s.tb ∧
    (State.handCore k c s).sheets = s.sheets ∧ (State.handCore k c s).units = s.units ∧
    (State.handCore k c s).pins = s.pins ∧ (State.handCore k c s).pk = s.pk ∧
    (State.handCore k c s).latches = s.latches ∧ (State.handCore k c s).errw = s.errw ∧
    (State.handCore k c s).bulk = s.bulk ∧ (State.handCore k c s).power = s.power ∧
    (State.handCore k c s).sec = s.sec ∧ (State.handCore k c s).therm = s.therm ∧
    (State.handCore k c s).ports = s.ports ∧ (State.handCore k c s).streams = s.streams ∧
    (State.handCore k c s).services = s.services ∧ (State.handCore k c s).ptpPorts = s.ptpPorts ∧
    (State.handCore k c s).ptp = s.ptp ∧ (State.handCore k c s).chans = s.chans ∧
    (State.handCore k c s).seqs = s.seqs ∧ (State.handCore k c s).hc = s.hc ∧
    (State.handCore k c s).trim = s.trim ∧ (State.handCore k c s).bundles = s.bundles ∧
    (State.handCore k c s).slots = s.slots ∧ (State.handCore k c s).wt = s.wt ∧
    (State.handCore k c s).mem = s.mem ∧ (State.handCore k c s).fwMem = s.fwMem ∧
    (State.handCore k c s).ms = s.ms ∧ (State.handCore k c s).pricks = s.pricks ∧
    (State.handCore k c s).templates = s.templates ∧ (State.handCore k c s).jobs = s.jobs ∧
    (State.handCore k c s).order = s.order ∧ (State.handCore k c s).pillows = s.pillows ∧
    (State.handCore k c s).free = s.free := by
  have hF0 := @State.present_frame
  unfold State.handCore; dsimp only; (repeat' split) <;> simp [hF0]

theorem State.handOn_frame (c : CmdPacket) (s : State) : (State.handOn c s).now = s.now ∧
    (State.handOn c s).pending = s.pending ∧ (State.handOn c s).tb = s.tb ∧
    (State.handOn c s).sheets = s.sheets ∧ (State.handOn c s).units = s.units ∧
    (State.handOn c s).pins = s.pins ∧ (State.handOn c s).pk = s.pk ∧
    (State.handOn c s).latches = s.latches ∧ (State.handOn c s).errw = s.errw ∧
    (State.handOn c s).bulk = s.bulk ∧ (State.handOn c s).power = s.power ∧ (State.handOn c s).sec = s.sec ∧
    (State.handOn c s).therm = s.therm ∧ (State.handOn c s).ports = s.ports ∧
    (State.handOn c s).streams = s.streams ∧ (State.handOn c s).services = s.services ∧
    (State.handOn c s).ptpPorts = s.ptpPorts ∧ (State.handOn c s).ptp = s.ptp ∧
    (State.handOn c s).chans = s.chans ∧ (State.handOn c s).seqs = s.seqs ∧ (State.handOn c s).hc = s.hc ∧
    (State.handOn c s).trim = s.trim ∧ (State.handOn c s).bundles = s.bundles ∧
    (State.handOn c s).slots = s.slots ∧ (State.handOn c s).wt = s.wt ∧ (State.handOn c s).mem = s.mem ∧
    (State.handOn c s).fwMem = s.fwMem ∧ (State.handOn c s).ms = s.ms ∧
    (State.handOn c s).pricks = s.pricks ∧ (State.handOn c s).templates = s.templates ∧
    (State.handOn c s).jobs = s.jobs ∧ (State.handOn c s).order = s.order ∧
    (State.handOn c s).pillows = s.pillows ∧ (State.handOn c s).free = s.free := by
  have hF0 := @State.handCore_frame
  have hF1 := @State.handFast_frame
  unfold State.handOn; dsimp only; (repeat' split) <;> simp [hF0, hF1]

theorem State.readClean_frame (s : State) : (State.readClean s).now = s.now ∧
    (State.readClean s).pending = s.pending ∧ (State.readClean s).tb = s.tb ∧
    (State.readClean s).sheets = s.sheets ∧ (State.readClean s).units = s.units ∧
    (State.readClean s).pins = s.pins ∧ (State.readClean s).pk = s.pk ∧
    (State.readClean s).latches = s.latches ∧ (State.readClean s).errw = s.errw ∧
    (State.readClean s).bulk = s.bulk ∧ (State.readClean s).power = s.power ∧
    (State.readClean s).sec = s.sec ∧ (State.readClean s).therm = s.therm ∧
    (State.readClean s).ports = s.ports ∧ (State.readClean s).streams = s.streams ∧
    (State.readClean s).services = s.services ∧ (State.readClean s).ptpPorts = s.ptpPorts ∧
    (State.readClean s).ptp = s.ptp ∧ (State.readClean s).chans = s.chans ∧
    (State.readClean s).seqs = s.seqs ∧ (State.readClean s).hc = s.hc ∧ (State.readClean s).trim = s.trim ∧
    (State.readClean s).bundles = s.bundles ∧ (State.readClean s).slots = s.slots ∧
    (State.readClean s).wt = s.wt ∧ (State.readClean s).mem = s.mem ∧ (State.readClean s).fwMem = s.fwMem ∧
    (State.readClean s).ms = s.ms ∧ (State.readClean s).pricks = s.pricks ∧
    (State.readClean s).templates = s.templates ∧ (State.readClean s).jobs = s.jobs ∧
    (State.readClean s).order = s.order ∧ (State.readClean s).pillows = s.pillows ∧
    (State.readClean s).free = s.free := by
  have hF0 := @State.handOn_frame
  have hF1 := @State.takeClean_frame
  unfold State.readClean; (repeat' split) <;> simp [hF0, hF1]

theorem State.readCommand_frame (ecc : WordEcc) (s : State) : (State.readCommand ecc s).now = s.now ∧
    (State.readCommand ecc s).pending = s.pending ∧ (State.readCommand ecc s).tb = s.tb ∧
    (State.readCommand ecc s).sheets = s.sheets ∧ (State.readCommand ecc s).units = s.units ∧
    (State.readCommand ecc s).pins = s.pins ∧ (State.readCommand ecc s).pk = s.pk ∧
    (State.readCommand ecc s).errw = s.errw ∧ (State.readCommand ecc s).bulk = s.bulk ∧
    (State.readCommand ecc s).power = s.power ∧ (State.readCommand ecc s).sec = s.sec ∧
    (State.readCommand ecc s).therm = s.therm ∧ (State.readCommand ecc s).ports = s.ports ∧
    (State.readCommand ecc s).streams = s.streams ∧ (State.readCommand ecc s).services = s.services ∧
    (State.readCommand ecc s).ptpPorts = s.ptpPorts ∧ (State.readCommand ecc s).ptp = s.ptp ∧
    (State.readCommand ecc s).chans = s.chans ∧ (State.readCommand ecc s).seqs = s.seqs ∧
    (State.readCommand ecc s).hc = s.hc ∧ (State.readCommand ecc s).trim = s.trim ∧
    (State.readCommand ecc s).bundles = s.bundles ∧ (State.readCommand ecc s).slots = s.slots ∧
    (State.readCommand ecc s).wt = s.wt ∧ (State.readCommand ecc s).mem = s.mem ∧
    (State.readCommand ecc s).fwMem = s.fwMem ∧ (State.readCommand ecc s).ms = s.ms ∧
    (State.readCommand ecc s).pricks = s.pricks ∧ (State.readCommand ecc s).templates = s.templates ∧
    (State.readCommand ecc s).jobs = s.jobs ∧ (State.readCommand ecc s).order = s.order ∧
    (State.readCommand ecc s).pillows = s.pillows ∧ (State.readCommand ecc s).free = s.free := by
  have hF0 := @State.modQueue_frame
  have hF1 := @State.putQueue_frame
  have hF2 := @State.packetLost_frame
  have hF3 := @State.wordsCorrected_frame
  have hF4 := @State.readClean_frame
  unfold State.readCommand; dsimp only; (repeat' split) <;> simp [hF0, hF1, hF2, hF3, hF4]

theorem State.dispatchHeld_frame (c : CmdPacket) (rest : List CmdPacket) (ecc : WordEcc) (s : State) :
    (State.dispatchHeld c rest ecc s).now = s.now ∧ (State.dispatchHeld c rest ecc s).pending = s.pending ∧
    (State.dispatchHeld c rest ecc s).tb = s.tb ∧ (State.dispatchHeld c rest ecc s).sheets = s.sheets ∧
    (State.dispatchHeld c rest ecc s).units = s.units ∧ (State.dispatchHeld c rest ecc s).pins = s.pins ∧
    (State.dispatchHeld c rest ecc s).pk = s.pk ∧ (State.dispatchHeld c rest ecc s).errw = s.errw ∧
    (State.dispatchHeld c rest ecc s).bulk = s.bulk ∧ (State.dispatchHeld c rest ecc s).power = s.power ∧
    (State.dispatchHeld c rest ecc s).sec = s.sec ∧ (State.dispatchHeld c rest ecc s).therm = s.therm ∧
    (State.dispatchHeld c rest ecc s).ports = s.ports ∧
    (State.dispatchHeld c rest ecc s).streams = s.streams ∧
    (State.dispatchHeld c rest ecc s).services = s.services ∧
    (State.dispatchHeld c rest ecc s).ptpPorts = s.ptpPorts ∧
    (State.dispatchHeld c rest ecc s).ptp = s.ptp ∧ (State.dispatchHeld c rest ecc s).chans = s.chans ∧
    (State.dispatchHeld c rest ecc s).seqs = s.seqs ∧ (State.dispatchHeld c rest ecc s).hc = s.hc ∧
    (State.dispatchHeld c rest ecc s).trim = s.trim ∧
    (State.dispatchHeld c rest ecc s).bundles = s.bundles ∧
    (State.dispatchHeld c rest ecc s).slots = s.slots ∧ (State.dispatchHeld c rest ecc s).wt = s.wt ∧
    (State.dispatchHeld c rest ecc s).mem = s.mem ∧ (State.dispatchHeld c rest ecc s).fwMem = s.fwMem ∧
    (State.dispatchHeld c rest ecc s).ms = s.ms ∧ (State.dispatchHeld c rest ecc s).pricks = s.pricks ∧
    (State.dispatchHeld c rest ecc s).templates = s.templates ∧
    (State.dispatchHeld c rest ecc s).jobs = s.jobs ∧ (State.dispatchHeld c rest ecc s).order = s.order ∧
    (State.dispatchHeld c rest ecc s).pillows = s.pillows ∧
    (State.dispatchHeld c rest ecc s).free = s.free := by
  have hF0 := @State.handFast_frame
  have hF1 := @State.handCore_frame
  have hF2 := @State.readCommand_frame
  unfold State.dispatchHeld; dsimp only; (repeat' split) <;> simp [hF0, hF1, hF2]

/-! ## Power -/

theorem State.loseDomain_frame (d : Nat) (s : State) : (State.loseDomain d s).now = s.now ∧
    (State.loseDomain d s).pending = s.pending ∧ (State.loseDomain d s).tb = s.tb ∧
    (State.loseDomain d s).sheets = s.sheets ∧ (State.loseDomain d s).units = s.units ∧
    (State.loseDomain d s).pins = s.pins ∧ (State.loseDomain d s).pk = s.pk ∧
    (State.loseDomain d s).queues = s.queues ∧ (State.loseDomain d s).latches = s.latches ∧
    (State.loseDomain d s).errw = s.errw ∧ (State.loseDomain d s).sdio = s.sdio ∧
    (State.loseDomain d s).bulk = s.bulk ∧ (State.loseDomain d s).mgmt = s.mgmt ∧
    (State.loseDomain d s).power = s.power ∧ (State.loseDomain d s).sec = s.sec ∧
    (State.loseDomain d s).therm = s.therm ∧ (State.loseDomain d s).streams = s.streams ∧
    (State.loseDomain d s).ptpPorts = s.ptpPorts ∧ (State.loseDomain d s).ptp = s.ptp ∧
    (State.loseDomain d s).chans = s.chans ∧ (State.loseDomain d s).seqs = s.seqs ∧
    (State.loseDomain d s).hc = s.hc ∧ (State.loseDomain d s).trim = s.trim ∧
    (State.loseDomain d s).bundles = s.bundles ∧ (State.loseDomain d s).slots = s.slots ∧
    (State.loseDomain d s).wt = s.wt ∧ (State.loseDomain d s).fwMem = s.fwMem ∧
    (State.loseDomain d s).pricks = s.pricks ∧ (State.loseDomain d s).templates = s.templates ∧
    (State.loseDomain d s).jobs = s.jobs ∧ (State.loseDomain d s).order = s.order ∧
    (State.loseDomain d s).free = s.free := by
  have hF0 := @State.wipe_frame
  have hF1 := @State.setPort_frame
  have hF2 := @State.setService_frame
  have hF3 := @State.modPillow_frame
  have hF4 := @State.modBobbin_frame
  unfold State.loseDomain; simp [hF0, hF1, hF2, hF3, hF4]

@[simp] theorem State.loseDomain_wf (d : Nat) (s : State) (hm : Memory.wf s.mem = true) :
    Memory.wf (State.loseDomain d s).mem = true := by
  have hF0 := @State.setPort_frame
  have hF1 := @State.setService_frame
  have hF2 := @State.modPillow_frame
  have hF3 := @State.modBobbin_frame
  unfold State.loseDomain; simp [hF0, hF1, hF2, hF3, hm]

theorem State.powerRequest_frame (d : Nat) (ungate : Bool) (s : State) :
    (State.powerRequest d ungate s).now = s.now ∧ (State.powerRequest d ungate s).pending = s.pending ∧
    (State.powerRequest d ungate s).tb = s.tb ∧ (State.powerRequest d ungate s).sheets = s.sheets ∧
    (State.powerRequest d ungate s).units = s.units ∧ (State.powerRequest d ungate s).pins = s.pins ∧
    (State.powerRequest d ungate s).pk = s.pk ∧ (State.powerRequest d ungate s).queues = s.queues ∧
    (State.powerRequest d ungate s).latches = s.latches ∧ (State.powerRequest d ungate s).errw = s.errw ∧
    (State.powerRequest d ungate s).sdio = s.sdio ∧ (State.powerRequest d ungate s).bulk = s.bulk ∧
    (State.powerRequest d ungate s).mgmt = s.mgmt ∧ (State.powerRequest d ungate s).sec = s.sec ∧
    (State.powerRequest d ungate s).therm = s.therm ∧ (State.powerRequest d ungate s).streams = s.streams ∧
    (State.powerRequest d ungate s).ptpPorts = s.ptpPorts ∧ (State.powerRequest d ungate s).ptp = s.ptp ∧
    (State.powerRequest d ungate s).chans = s.chans ∧ (State.powerRequest d ungate s).seqs = s.seqs ∧
    (State.powerRequest d ungate s).hc = s.hc ∧ (State.powerRequest d ungate s).trim = s.trim ∧
    (State.powerRequest d ungate s).bundles = s.bundles ∧ (State.powerRequest d ungate s).slots = s.slots ∧
    (State.powerRequest d ungate s).wt = s.wt ∧ (State.powerRequest d ungate s).fwMem = s.fwMem ∧
    (State.powerRequest d ungate s).pricks = s.pricks ∧
    (State.powerRequest d ungate s).templates = s.templates ∧
    (State.powerRequest d ungate s).jobs = s.jobs ∧ (State.powerRequest d ungate s).order = s.order ∧
    (State.powerRequest d ungate s).free = s.free := by
  have hF0 := @State.loseDomain_frame
  unfold State.powerRequest; simp [hF0]

@[simp] theorem State.powerRequest_wf (d : Nat) (ungate : Bool) (s : State) (hm : Memory.wf s.mem = true) :
    Memory.wf (State.powerRequest d ungate s).mem = true := by
  have hF0 := @State.loseDomain_frame
  unfold State.powerRequest; simp [hF0, hm]

theorem State.scrubTime_frame (s : State) : (State.scrubTime s).now = s.now ∧
    (State.scrubTime s).pending = s.pending ∧ (State.scrubTime s).tb = s.tb ∧
    (State.scrubTime s).sheets = s.sheets ∧ (State.scrubTime s).units = s.units ∧
    (State.scrubTime s).pins = s.pins ∧ (State.scrubTime s).pk = s.pk ∧
    (State.scrubTime s).queues = s.queues ∧ (State.scrubTime s).latches = s.latches ∧
    (State.scrubTime s).errw = s.errw ∧ (State.scrubTime s).sdio = s.sdio ∧
    (State.scrubTime s).bulk = s.bulk ∧ (State.scrubTime s).mgmt = s.mgmt ∧
    (State.scrubTime s).power = s.power ∧ (State.scrubTime s).sec = s.sec ∧
    (State.scrubTime s).therm = s.therm ∧ (State.scrubTime s).ports = s.ports ∧
    (State.scrubTime s).streams = s.streams ∧ (State.scrubTime s).services = s.services ∧
    (State.scrubTime s).ptpPorts = s.ptpPorts ∧ (State.scrubTime s).ptp = s.ptp ∧
    (State.scrubTime s).chans = s.chans ∧ (State.scrubTime s).seqs = s.seqs ∧
    (State.scrubTime s).hc = s.hc ∧ (State.scrubTime s).trim = s.trim ∧
    (State.scrubTime s).bundles = s.bundles ∧ (State.scrubTime s).slots = s.slots ∧
    (State.scrubTime s).wt = s.wt ∧ (State.scrubTime s).mem = s.mem ∧ (State.scrubTime s).fwMem = s.fwMem ∧
    (State.scrubTime s).pricks = s.pricks ∧ (State.scrubTime s).templates = s.templates ∧
    (State.scrubTime s).jobs = s.jobs ∧ (State.scrubTime s).order = s.order ∧
    (State.scrubTime s).pillows = s.pillows ∧ (State.scrubTime s).free = s.free := by
  unfold State.scrubTime; simp

theorem State.countMem_frame (k : Nat) (ue : Bool) (s : State) : (State.countMem k ue s).now = s.now ∧
    (State.countMem k ue s).pending = s.pending ∧ (State.countMem k ue s).tb = s.tb ∧
    (State.countMem k ue s).sheets = s.sheets ∧ (State.countMem k ue s).units = s.units ∧
    (State.countMem k ue s).pins = s.pins ∧ (State.countMem k ue s).pk = s.pk ∧
    (State.countMem k ue s).queues = s.queues ∧ (State.countMem k ue s).latches = s.latches ∧
    (State.countMem k ue s).errw = s.errw ∧ (State.countMem k ue s).sdio = s.sdio ∧
    (State.countMem k ue s).bulk = s.bulk ∧ (State.countMem k ue s).mgmt = s.mgmt ∧
    (State.countMem k ue s).power = s.power ∧ (State.countMem k ue s).sec = s.sec ∧
    (State.countMem k ue s).therm = s.therm ∧ (State.countMem k ue s).ports = s.ports ∧
    (State.countMem k ue s).streams = s.streams ∧ (State.countMem k ue s).services = s.services ∧
    (State.countMem k ue s).ptpPorts = s.ptpPorts ∧ (State.countMem k ue s).ptp = s.ptp ∧
    (State.countMem k ue s).chans = s.chans ∧ (State.countMem k ue s).seqs = s.seqs ∧
    (State.countMem k ue s).hc = s.hc ∧ (State.countMem k ue s).trim = s.trim ∧
    (State.countMem k ue s).bundles = s.bundles ∧ (State.countMem k ue s).slots = s.slots ∧
    (State.countMem k ue s).wt = s.wt ∧ (State.countMem k ue s).mem = s.mem ∧
    (State.countMem k ue s).fwMem = s.fwMem ∧ (State.countMem k ue s).pricks = s.pricks ∧
    (State.countMem k ue s).templates = s.templates ∧ (State.countMem k ue s).jobs = s.jobs ∧
    (State.countMem k ue s).order = s.order ∧ (State.countMem k ue s).pillows = s.pillows ∧
    (State.countMem k ue s).free = s.free := by
  unfold State.countMem; simp

theorem State.countHbm_frame (a : Nat) (ue : Bool) (s : State) : (State.countHbm a ue s).now = s.now ∧
    (State.countHbm a ue s).pending = s.pending ∧ (State.countHbm a ue s).tb = s.tb ∧
    (State.countHbm a ue s).sheets = s.sheets ∧ (State.countHbm a ue s).units = s.units ∧
    (State.countHbm a ue s).pins = s.pins ∧ (State.countHbm a ue s).pk = s.pk ∧
    (State.countHbm a ue s).queues = s.queues ∧ (State.countHbm a ue s).latches = s.latches ∧
    (State.countHbm a ue s).errw = s.errw ∧ (State.countHbm a ue s).sdio = s.sdio ∧
    (State.countHbm a ue s).bulk = s.bulk ∧ (State.countHbm a ue s).mgmt = s.mgmt ∧
    (State.countHbm a ue s).power = s.power ∧ (State.countHbm a ue s).sec = s.sec ∧
    (State.countHbm a ue s).therm = s.therm ∧ (State.countHbm a ue s).ports = s.ports ∧
    (State.countHbm a ue s).streams = s.streams ∧ (State.countHbm a ue s).services = s.services ∧
    (State.countHbm a ue s).ptpPorts = s.ptpPorts ∧ (State.countHbm a ue s).ptp = s.ptp ∧
    (State.countHbm a ue s).chans = s.chans ∧ (State.countHbm a ue s).seqs = s.seqs ∧
    (State.countHbm a ue s).hc = s.hc ∧ (State.countHbm a ue s).trim = s.trim ∧
    (State.countHbm a ue s).bundles = s.bundles ∧ (State.countHbm a ue s).slots = s.slots ∧
    (State.countHbm a ue s).wt = s.wt ∧ (State.countHbm a ue s).mem = s.mem ∧
    (State.countHbm a ue s).fwMem = s.fwMem ∧ (State.countHbm a ue s).pricks = s.pricks ∧
    (State.countHbm a ue s).templates = s.templates ∧ (State.countHbm a ue s).jobs = s.jobs ∧
    (State.countHbm a ue s).order = s.order ∧ (State.countHbm a ue s).pillows = s.pillows ∧
    (State.countHbm a ue s).free = s.free := by
  have hF0 := @State.countMem_frame
  unfold State.countHbm; simp [hF0]

/-! ## Words -/

theorem State.countUnit_frame (a : Nat) (ue : Bool) (s : State) : (State.countUnit a ue s).now = s.now ∧
    (State.countUnit a ue s).pending = s.pending ∧ (State.countUnit a ue s).tb = s.tb ∧
    (State.countUnit a ue s).sheets = s.sheets ∧ (State.countUnit a ue s).units = s.units ∧
    (State.countUnit a ue s).pins = s.pins ∧ (State.countUnit a ue s).pk = s.pk ∧
    (State.countUnit a ue s).queues = s.queues ∧ (State.countUnit a ue s).latches = s.latches ∧
    (State.countUnit a ue s).errw = s.errw ∧ (State.countUnit a ue s).sdio = s.sdio ∧
    (State.countUnit a ue s).bulk = s.bulk ∧ (State.countUnit a ue s).mgmt = s.mgmt ∧
    (State.countUnit a ue s).power = s.power ∧ (State.countUnit a ue s).sec = s.sec ∧
    (State.countUnit a ue s).therm = s.therm ∧ (State.countUnit a ue s).ports = s.ports ∧
    (State.countUnit a ue s).streams = s.streams ∧ (State.countUnit a ue s).services = s.services ∧
    (State.countUnit a ue s).ptpPorts = s.ptpPorts ∧ (State.countUnit a ue s).ptp = s.ptp ∧
    (State.countUnit a ue s).chans = s.chans ∧ (State.countUnit a ue s).seqs = s.seqs ∧
    (State.countUnit a ue s).hc = s.hc ∧ (State.countUnit a ue s).trim = s.trim ∧
    (State.countUnit a ue s).bundles = s.bundles ∧ (State.countUnit a ue s).slots = s.slots ∧
    (State.countUnit a ue s).wt = s.wt ∧ (State.countUnit a ue s).mem = s.mem ∧
    (State.countUnit a ue s).fwMem = s.fwMem ∧ (State.countUnit a ue s).pricks = s.pricks ∧
    (State.countUnit a ue s).templates = s.templates ∧ (State.countUnit a ue s).jobs = s.jobs ∧
    (State.countUnit a ue s).order = s.order ∧ (State.countUnit a ue s).free = s.free := by
  have hF0 := @State.modPillow_frame
  have hF1 := @State.countMem_frame
  have hF2 := @State.countHbm_frame
  unfold State.countUnit; simp [hF0, hF1, hF2]

theorem State.countDie_frame (a : Nat) (s : State) : (State.countDie a s).now = s.now ∧
    (State.countDie a s).pending = s.pending ∧ (State.countDie a s).tb = s.tb ∧
    (State.countDie a s).sheets = s.sheets ∧ (State.countDie a s).units = s.units ∧
    (State.countDie a s).pins = s.pins ∧ (State.countDie a s).pk = s.pk ∧
    (State.countDie a s).queues = s.queues ∧ (State.countDie a s).latches = s.latches ∧
    (State.countDie a s).errw = s.errw ∧ (State.countDie a s).sdio = s.sdio ∧
    (State.countDie a s).bulk = s.bulk ∧ (State.countDie a s).mgmt = s.mgmt ∧
    (State.countDie a s).power = s.power ∧ (State.countDie a s).sec = s.sec ∧
    (State.countDie a s).therm = s.therm ∧ (State.countDie a s).ports = s.ports ∧
    (State.countDie a s).streams = s.streams ∧ (State.countDie a s).services = s.services ∧
    (State.countDie a s).ptpPorts = s.ptpPorts ∧ (State.countDie a s).ptp = s.ptp ∧
    (State.countDie a s).chans = s.chans ∧ (State.countDie a s).seqs = s.seqs ∧
    (State.countDie a s).hc = s.hc ∧ (State.countDie a s).trim = s.trim ∧
    (State.countDie a s).bundles = s.bundles ∧ (State.countDie a s).slots = s.slots ∧
    (State.countDie a s).wt = s.wt ∧ (State.countDie a s).mem = s.mem ∧
    (State.countDie a s).fwMem = s.fwMem ∧ (State.countDie a s).pricks = s.pricks ∧
    (State.countDie a s).templates = s.templates ∧ (State.countDie a s).jobs = s.jobs ∧
    (State.countDie a s).order = s.order ∧ (State.countDie a s).pillows = s.pillows ∧
    (State.countDie a s).free = s.free := by
  unfold State.countDie; simp

theorem State.markPoison_frame (a : Nat) (s : State) : (State.markPoison a s).now = s.now ∧
    (State.markPoison a s).pending = s.pending ∧ (State.markPoison a s).tb = s.tb ∧
    (State.markPoison a s).sheets = s.sheets ∧ (State.markPoison a s).units = s.units ∧
    (State.markPoison a s).pins = s.pins ∧ (State.markPoison a s).pk = s.pk ∧
    (State.markPoison a s).queues = s.queues ∧ (State.markPoison a s).latches = s.latches ∧
    (State.markPoison a s).errw = s.errw ∧ (State.markPoison a s).sdio = s.sdio ∧
    (State.markPoison a s).bulk = s.bulk ∧ (State.markPoison a s).mgmt = s.mgmt ∧
    (State.markPoison a s).power = s.power ∧ (State.markPoison a s).sec = s.sec ∧
    (State.markPoison a s).therm = s.therm ∧ (State.markPoison a s).ports = s.ports ∧
    (State.markPoison a s).streams = s.streams ∧ (State.markPoison a s).services = s.services ∧
    (State.markPoison a s).ptpPorts = s.ptpPorts ∧ (State.markPoison a s).ptp = s.ptp ∧
    (State.markPoison a s).chans = s.chans ∧ (State.markPoison a s).seqs = s.seqs ∧
    (State.markPoison a s).hc = s.hc ∧ (State.markPoison a s).trim = s.trim ∧
    (State.markPoison a s).bundles = s.bundles ∧ (State.markPoison a s).slots = s.slots ∧
    (State.markPoison a s).wt = s.wt ∧ (State.markPoison a s).mem = s.mem ∧
    (State.markPoison a s).fwMem = s.fwMem ∧ (State.markPoison a s).pricks = s.pricks ∧
    (State.markPoison a s).templates = s.templates ∧ (State.markPoison a s).jobs = s.jobs ∧
    (State.markPoison a s).order = s.order ∧ (State.markPoison a s).pillows = s.pillows ∧
    (State.markPoison a s).free = s.free := by
  unfold State.markPoison; simp

theorem State.meetErr_frame (e : Nat × Strike) (s : State) : (State.meetErr e s).now = s.now ∧
    (State.meetErr e s).pending = s.pending ∧ (State.meetErr e s).tb = s.tb ∧
    (State.meetErr e s).sheets = s.sheets ∧ (State.meetErr e s).units = s.units ∧
    (State.meetErr e s).pins = s.pins ∧ (State.meetErr e s).pk = s.pk ∧
    (State.meetErr e s).queues = s.queues ∧ (State.meetErr e s).latches = s.latches ∧
    (State.meetErr e s).errw = s.errw ∧ (State.meetErr e s).sdio = s.sdio ∧
    (State.meetErr e s).bulk = s.bulk ∧ (State.meetErr e s).mgmt = s.mgmt ∧
    (State.meetErr e s).power = s.power ∧ (State.meetErr e s).sec = s.sec ∧
    (State.meetErr e s).therm = s.therm ∧ (State.meetErr e s).ports = s.ports ∧
    (State.meetErr e s).streams = s.streams ∧ (State.meetErr e s).services = s.services ∧
    (State.meetErr e s).ptpPorts = s.ptpPorts ∧ (State.meetErr e s).ptp = s.ptp ∧
    (State.meetErr e s).chans = s.chans ∧ (State.meetErr e s).seqs = s.seqs ∧
    (State.meetErr e s).hc = s.hc ∧ (State.meetErr e s).trim = s.trim ∧
    (State.meetErr e s).bundles = s.bundles ∧ (State.meetErr e s).slots = s.slots ∧
    (State.meetErr e s).wt = s.wt ∧ (State.meetErr e s).mem = s.mem ∧ (State.meetErr e s).fwMem = s.fwMem ∧
    (State.meetErr e s).pricks = s.pricks ∧ (State.meetErr e s).templates = s.templates ∧
    (State.meetErr e s).jobs = s.jobs ∧ (State.meetErr e s).order = s.order ∧
    (State.meetErr e s).free = s.free := by
  have hF0 := @State.countUnit_frame
  have hF1 := @State.countDie_frame
  have hF2 := @State.markPoison_frame
  unfold State.meetErr; dsimp only; (repeat' split) <;> simp [hF0, hF1, hF2]

theorem State.meetErrs_frame (a : Nat) (n : Nat) (s : State) : (State.meetErrs a n s).now = s.now ∧
    (State.meetErrs a n s).pending = s.pending ∧ (State.meetErrs a n s).tb = s.tb ∧
    (State.meetErrs a n s).sheets = s.sheets ∧ (State.meetErrs a n s).units = s.units ∧
    (State.meetErrs a n s).pins = s.pins ∧ (State.meetErrs a n s).pk = s.pk ∧
    (State.meetErrs a n s).queues = s.queues ∧ (State.meetErrs a n s).latches = s.latches ∧
    (State.meetErrs a n s).errw = s.errw ∧ (State.meetErrs a n s).sdio = s.sdio ∧
    (State.meetErrs a n s).bulk = s.bulk ∧ (State.meetErrs a n s).mgmt = s.mgmt ∧
    (State.meetErrs a n s).power = s.power ∧ (State.meetErrs a n s).sec = s.sec ∧
    (State.meetErrs a n s).therm = s.therm ∧ (State.meetErrs a n s).ports = s.ports ∧
    (State.meetErrs a n s).streams = s.streams ∧ (State.meetErrs a n s).services = s.services ∧
    (State.meetErrs a n s).ptpPorts = s.ptpPorts ∧ (State.meetErrs a n s).ptp = s.ptp ∧
    (State.meetErrs a n s).chans = s.chans ∧ (State.meetErrs a n s).seqs = s.seqs ∧
    (State.meetErrs a n s).hc = s.hc ∧ (State.meetErrs a n s).trim = s.trim ∧
    (State.meetErrs a n s).bundles = s.bundles ∧ (State.meetErrs a n s).slots = s.slots ∧
    (State.meetErrs a n s).wt = s.wt ∧ (State.meetErrs a n s).mem = s.mem ∧
    (State.meetErrs a n s).fwMem = s.fwMem ∧ (State.meetErrs a n s).pricks = s.pricks ∧
    (State.meetErrs a n s).templates = s.templates ∧ (State.meetErrs a n s).jobs = s.jobs ∧
    (State.meetErrs a n s).order = s.order ∧ (State.meetErrs a n s).free = s.free := by
  have hF0 := @State.meetErr_frame
  unfold State.meetErrs; simp [hF0]

theorem State.meetStaging_frame (p : Nat) (b : Nat) (lo : Nat) (hi : Nat) (s : State) :
    (State.meetStaging p b lo hi s).now = s.now ∧ (State.meetStaging p b lo hi s).pending = s.pending ∧
    (State.meetStaging p b lo hi s).tb = s.tb ∧ (State.meetStaging p b lo hi s).sheets = s.sheets ∧
    (State.meetStaging p b lo hi s).units = s.units ∧ (State.meetStaging p b lo hi s).pins = s.pins ∧
    (State.meetStaging p b lo hi s).pk = s.pk ∧ (State.meetStaging p b lo hi s).queues = s.queues ∧
    (State.meetStaging p b lo hi s).latches = s.latches ∧ (State.meetStaging p b lo hi s).errw = s.errw ∧
    (State.meetStaging p b lo hi s).sdio = s.sdio ∧ (State.meetStaging p b lo hi s).bulk = s.bulk ∧
    (State.meetStaging p b lo hi s).mgmt = s.mgmt ∧ (State.meetStaging p b lo hi s).power = s.power ∧
    (State.meetStaging p b lo hi s).sec = s.sec ∧ (State.meetStaging p b lo hi s).therm = s.therm ∧
    (State.meetStaging p b lo hi s).ports = s.ports ∧ (State.meetStaging p b lo hi s).streams = s.streams ∧
    (State.meetStaging p b lo hi s).services = s.services ∧
    (State.meetStaging p b lo hi s).ptpPorts = s.ptpPorts ∧ (State.meetStaging p b lo hi s).ptp = s.ptp ∧
    (State.meetStaging p b lo hi s).chans = s.chans ∧ (State.meetStaging p b lo hi s).seqs = s.seqs ∧
    (State.meetStaging p b lo hi s).hc = s.hc ∧ (State.meetStaging p b lo hi s).trim = s.trim ∧
    (State.meetStaging p b lo hi s).bundles = s.bundles ∧ (State.meetStaging p b lo hi s).slots = s.slots ∧
    (State.meetStaging p b lo hi s).wt = s.wt ∧ (State.meetStaging p b lo hi s).mem = s.mem ∧
    (State.meetStaging p b lo hi s).fwMem = s.fwMem ∧ (State.meetStaging p b lo hi s).ms = s.ms ∧
    (State.meetStaging p b lo hi s).pricks = s.pricks ∧
    (State.meetStaging p b lo hi s).templates = s.templates ∧
    (State.meetStaging p b lo hi s).jobs = s.jobs ∧ (State.meetStaging p b lo hi s).order = s.order ∧
    (State.meetStaging p b lo hi s).free = s.free := by
  have hF0 := @State.modPillow_frame
  have hF1 := @State.modBobbin_frame
  unfold State.meetStaging; simp [hF0, hF1]

theorem State.collided_frame (port : Nat) (ctx : Option Nat) (a : Nat) (n : Nat) (s : State) :
    (State.collided port ctx a n s).now = s.now ∧ (State.collided port ctx a n s).pending = s.pending ∧
    (State.collided port ctx a n s).tb = s.tb ∧ (State.collided port ctx a n s).sheets = s.sheets ∧
    (State.collided port ctx a n s).units = s.units ∧ (State.collided port ctx a n s).pins = s.pins ∧
    (State.collided port ctx a n s).pk = s.pk ∧ (State.collided port ctx a n s).errw = s.errw ∧
    (State.collided port ctx a n s).bulk = s.bulk ∧ (State.collided port ctx a n s).mgmt = s.mgmt ∧
    (State.collided port ctx a n s).power = s.power ∧ (State.collided port ctx a n s).sec = s.sec ∧
    (State.collided port ctx a n s).therm = s.therm ∧ (State.collided port ctx a n s).streams = s.streams ∧
    (State.collided port ctx a n s).services = s.services ∧
    (State.collided port ctx a n s).ptpPorts = s.ptpPorts ∧ (State.collided port ctx a n s).ptp = s.ptp ∧
    (State.collided port ctx a n s).chans = s.chans ∧ (State.collided port ctx a n s).seqs = s.seqs ∧
    (State.collided port ctx a n s).hc = s.hc ∧ (State.collided port ctx a n s).trim = s.trim ∧
    (State.collided port ctx a n s).bundles = s.bundles ∧ (State.collided port ctx a n s).slots = s.slots ∧
    (State.collided port ctx a n s).wt = s.wt ∧ (State.collided port ctx a n s).mem = s.mem ∧
    (State.collided port ctx a n s).fwMem = s.fwMem ∧ (State.collided port ctx a n s).pricks = s.pricks ∧
    (State.collided port ctx a n s).templates = s.templates ∧
    (State.collided port ctx a n s).order = s.order ∧ (State.collided port ctx a n s).free = s.free := by
  have hF0 := @State.setJob_frame
  have hF1 := @State.modPillow_frame
  have hF2 := @State.report_frame
  unfold State.collided; dsimp only; (repeat' split) <;> simp [hF0, hF1, hF2]

theorem State.storeBy_frame (port : Nat) (ctx : Option Nat) (a : Nat) (b : Bytes) (s : State) :
    (State.storeBy port ctx a b s).now = s.now ∧ (State.storeBy port ctx a b s).pending = s.pending ∧
    (State.storeBy port ctx a b s).tb = s.tb ∧ (State.storeBy port ctx a b s).sheets = s.sheets ∧
    (State.storeBy port ctx a b s).units = s.units ∧ (State.storeBy port ctx a b s).pins = s.pins ∧
    (State.storeBy port ctx a b s).pk = s.pk ∧ (State.storeBy port ctx a b s).errw = s.errw ∧
    (State.storeBy port ctx a b s).bulk = s.bulk ∧ (State.storeBy port ctx a b s).mgmt = s.mgmt ∧
    (State.storeBy port ctx a b s).power = s.power ∧ (State.storeBy port ctx a b s).sec = s.sec ∧
    (State.storeBy port ctx a b s).therm = s.therm ∧ (State.storeBy port ctx a b s).streams = s.streams ∧
    (State.storeBy port ctx a b s).services = s.services ∧
    (State.storeBy port ctx a b s).ptpPorts = s.ptpPorts ∧ (State.storeBy port ctx a b s).ptp = s.ptp ∧
    (State.storeBy port ctx a b s).chans = s.chans ∧ (State.storeBy port ctx a b s).seqs = s.seqs ∧
    (State.storeBy port ctx a b s).hc = s.hc ∧ (State.storeBy port ctx a b s).trim = s.trim ∧
    (State.storeBy port ctx a b s).bundles = s.bundles ∧ (State.storeBy port ctx a b s).slots = s.slots ∧
    (State.storeBy port ctx a b s).wt = s.wt ∧ (State.storeBy port ctx a b s).fwMem = s.fwMem ∧
    (State.storeBy port ctx a b s).pricks = s.pricks ∧
    (State.storeBy port ctx a b s).templates = s.templates ∧
    (State.storeBy port ctx a b s).order = s.order ∧ (State.storeBy port ctx a b s).free = s.free := by
  have hF0 := @State.store_frame
  have hF1 := @State.collided_frame
  unfold State.storeBy; simp [hF0, hF1]

@[simp] theorem State.storeBy_wf (port : Nat) (ctx : Option Nat) (a : Nat) (b : Bytes) (s : State) (hm : Memory.wf s.mem = true) :
    Memory.wf (State.storeBy port ctx a b s).mem = true := by
  have hF0 := @State.collided_frame
  unfold State.storeBy; simp [hF0, hm]

theorem State.strike_frame (x : Struck) (s : State) : (State.strike x s).now = s.now ∧
    (State.strike x s).pending = s.pending ∧ (State.strike x s).tb = s.tb ∧
    (State.strike x s).sheets = s.sheets ∧ (State.strike x s).units = s.units ∧
    (State.strike x s).pins = s.pins ∧ (State.strike x s).pk = s.pk ∧ (State.strike x s).queues = s.queues ∧
    (State.strike x s).latches = s.latches ∧ (State.strike x s).errw = s.errw ∧
    (State.strike x s).sdio = s.sdio ∧ (State.strike x s).bulk = s.bulk ∧ (State.strike x s).mgmt = s.mgmt ∧
    (State.strike x s).power = s.power ∧ (State.strike x s).sec = s.sec ∧
    (State.strike x s).therm = s.therm ∧ (State.strike x s).ports = s.ports ∧
    (State.strike x s).streams = s.streams ∧ (State.strike x s).services = s.services ∧
    (State.strike x s).ptpPorts = s.ptpPorts ∧ (State.strike x s).ptp = s.ptp ∧
    (State.strike x s).chans = s.chans ∧ (State.strike x s).seqs = s.seqs ∧ (State.strike x s).hc = s.hc ∧
    (State.strike x s).trim = s.trim ∧ (State.strike x s).bundles = s.bundles ∧
    (State.strike x s).slots = s.slots ∧ (State.strike x s).wt = s.wt ∧ (State.strike x s).mem = s.mem ∧
    (State.strike x s).fwMem = s.fwMem ∧ (State.strike x s).pricks = s.pricks ∧
    (State.strike x s).templates = s.templates ∧ (State.strike x s).jobs = s.jobs ∧
    (State.strike x s).order = s.order ∧ (State.strike x s).free = s.free := by
  have hF0 := @State.modBobbin_frame
  unfold State.strike; dsimp only; (repeat' split) <;> simp [hF0]

/-! ## Mapping -/

theorem State.putEntry_frame (o : Nat) (v : Nat) (s : State) : (State.putEntry o v s).now = s.now ∧
    (State.putEntry o v s).pending = s.pending ∧ (State.putEntry o v s).tb = s.tb ∧
    (State.putEntry o v s).sheets = s.sheets ∧ (State.putEntry o v s).units = s.units ∧
    (State.putEntry o v s).pins = s.pins ∧ (State.putEntry o v s).pk = s.pk ∧
    (State.putEntry o v s).queues = s.queues ∧ (State.putEntry o v s).latches = s.latches ∧
    (State.putEntry o v s).errw = s.errw ∧ (State.putEntry o v s).sdio = s.sdio ∧
    (State.putEntry o v s).bulk = s.bulk ∧ (State.putEntry o v s).mgmt = s.mgmt ∧
    (State.putEntry o v s).power = s.power ∧ (State.putEntry o v s).sec = s.sec ∧
    (State.putEntry o v s).therm = s.therm ∧ (State.putEntry o v s).ports = s.ports ∧
    (State.putEntry o v s).streams = s.streams ∧ (State.putEntry o v s).services = s.services ∧
    (State.putEntry o v s).ptpPorts = s.ptpPorts ∧ (State.putEntry o v s).ptp = s.ptp ∧
    (State.putEntry o v s).chans = s.chans ∧ (State.putEntry o v s).seqs = s.seqs ∧
    (State.putEntry o v s).hc = s.hc ∧ (State.putEntry o v s).trim = s.trim ∧
    (State.putEntry o v s).bundles = s.bundles ∧ (State.putEntry o v s).slots = s.slots ∧
    (State.putEntry o v s).wt = s.wt ∧ (State.putEntry o v s).fwMem = s.fwMem ∧
    (State.putEntry o v s).pricks = s.pricks ∧ (State.putEntry o v s).templates = s.templates ∧
    (State.putEntry o v s).jobs = s.jobs ∧ (State.putEntry o v s).order = s.order ∧
    (State.putEntry o v s).pillows = s.pillows ∧ (State.putEntry o v s).free = s.free := by
  have hF0 := @State.store_frame
  unfold State.putEntry; simp [hF0]

@[simp] theorem State.putEntry_wf (o : Nat) (v : Nat) (s : State) (hm : Memory.wf s.mem = true) :
    Memory.wf (State.putEntry o v s).mem = true := by
  unfold State.putEntry; simp [hm]

theorem State.putEntries_frame (own : Bool) (asid : Nat) (va : Nat) (s : State) :
    (State.putEntries own asid va s).now = s.now ∧ (State.putEntries own asid va s).pending = s.pending ∧
    (State.putEntries own asid va s).tb = s.tb ∧ (State.putEntries own asid va s).sheets = s.sheets ∧
    (State.putEntries own asid va s).units = s.units ∧ (State.putEntries own asid va s).pins = s.pins ∧
    (State.putEntries own asid va s).pk = s.pk ∧ (State.putEntries own asid va s).queues = s.queues ∧
    (State.putEntries own asid va s).latches = s.latches ∧ (State.putEntries own asid va s).errw = s.errw ∧
    (State.putEntries own asid va s).sdio = s.sdio ∧ (State.putEntries own asid va s).bulk = s.bulk ∧
    (State.putEntries own asid va s).mgmt = s.mgmt ∧ (State.putEntries own asid va s).power = s.power ∧
    (State.putEntries own asid va s).sec = s.sec ∧ (State.putEntries own asid va s).therm = s.therm ∧
    (State.putEntries own asid va s).ports = s.ports ∧
    (State.putEntries own asid va s).streams = s.streams ∧
    (State.putEntries own asid va s).services = s.services ∧
    (State.putEntries own asid va s).ptpPorts = s.ptpPorts ∧ (State.putEntries own asid va s).ptp = s.ptp ∧
    (State.putEntries own asid va s).chans = s.chans ∧ (State.putEntries own asid va s).seqs = s.seqs ∧
    (State.putEntries own asid va s).hc = s.hc ∧ (State.putEntries own asid va s).trim = s.trim ∧
    (State.putEntries own asid va s).bundles = s.bundles ∧
    (State.putEntries own asid va s).slots = s.slots ∧ (State.putEntries own asid va s).wt = s.wt ∧
    (State.putEntries own asid va s).fwMem = s.fwMem ∧ (State.putEntries own asid va s).pricks = s.pricks ∧
    (State.putEntries own asid va s).templates = s.templates ∧
    (State.putEntries own asid va s).jobs = s.jobs ∧ (State.putEntries own asid va s).order = s.order ∧
    (State.putEntries own asid va s).pillows = s.pillows ∧
    (State.putEntries own asid va s).free = s.free := by
  have hF0 := @State.putEntry_frame
  unfold State.putEntries; simp [hF0]

@[simp] theorem State.putEntries_wf (own : Bool) (asid : Nat) (va : Nat) (s : State) (hm : Memory.wf s.mem = true) :
    Memory.wf (State.putEntries own asid va s).mem = true := by
  unfold State.putEntries; (repeat' (first | split | dsimp only)) <;> simp_all

theorem State.clearTables_frame (old : List PTable) (s : State) : (State.clearTables old s).now = s.now ∧
    (State.clearTables old s).pending = s.pending ∧ (State.clearTables old s).tb = s.tb ∧
    (State.clearTables old s).sheets = s.sheets ∧ (State.clearTables old s).units = s.units ∧
    (State.clearTables old s).pins = s.pins ∧ (State.clearTables old s).pk = s.pk ∧
    (State.clearTables old s).queues = s.queues ∧ (State.clearTables old s).latches = s.latches ∧
    (State.clearTables old s).errw = s.errw ∧ (State.clearTables old s).sdio = s.sdio ∧
    (State.clearTables old s).bulk = s.bulk ∧ (State.clearTables old s).mgmt = s.mgmt ∧
    (State.clearTables old s).power = s.power ∧ (State.clearTables old s).sec = s.sec ∧
    (State.clearTables old s).therm = s.therm ∧ (State.clearTables old s).ports = s.ports ∧
    (State.clearTables old s).streams = s.streams ∧ (State.clearTables old s).services = s.services ∧
    (State.clearTables old s).ptpPorts = s.ptpPorts ∧ (State.clearTables old s).ptp = s.ptp ∧
    (State.clearTables old s).chans = s.chans ∧ (State.clearTables old s).seqs = s.seqs ∧
    (State.clearTables old s).hc = s.hc ∧ (State.clearTables old s).trim = s.trim ∧
    (State.clearTables old s).bundles = s.bundles ∧ (State.clearTables old s).slots = s.slots ∧
    (State.clearTables old s).wt = s.wt ∧ (State.clearTables old s).fwMem = s.fwMem ∧
    (State.clearTables old s).pricks = s.pricks ∧ (State.clearTables old s).templates = s.templates ∧
    (State.clearTables old s).jobs = s.jobs ∧ (State.clearTables old s).order = s.order ∧
    (State.clearTables old s).pillows = s.pillows ∧ (State.clearTables old s).free = s.free := by
  have hF0 := @State.wipe_frame
  unfold State.clearTables; simp [hF0]

@[simp] theorem State.clearTables_wf (old : List PTable) (s : State) (hm : Memory.wf s.mem = true) :
    Memory.wf (State.clearTables old s).mem = true := by
  unfold State.clearTables
  exact State.foldl_wf _ _ _ (fun t a ht => by simp [ht]) hm

theorem State.resumeOn_frame (p : Nat) (s : State) : (State.resumeOn p s).now = s.now ∧
    (State.resumeOn p s).pending = s.pending ∧ (State.resumeOn p s).tb = s.tb ∧
    (State.resumeOn p s).sheets = s.sheets ∧ (State.resumeOn p s).units = s.units ∧
    (State.resumeOn p s).pins = s.pins ∧ (State.resumeOn p s).pk = s.pk ∧
    (State.resumeOn p s).queues = s.queues ∧ (State.resumeOn p s).latches = s.latches ∧
    (State.resumeOn p s).errw = s.errw ∧ (State.resumeOn p s).sdio = s.sdio ∧
    (State.resumeOn p s).bulk = s.bulk ∧ (State.resumeOn p s).mgmt = s.mgmt ∧
    (State.resumeOn p s).power = s.power ∧ (State.resumeOn p s).sec = s.sec ∧
    (State.resumeOn p s).therm = s.therm ∧ (State.resumeOn p s).ports = s.ports ∧
    (State.resumeOn p s).streams = s.streams ∧ (State.resumeOn p s).services = s.services ∧
    (State.resumeOn p s).ptpPorts = s.ptpPorts ∧ (State.resumeOn p s).ptp = s.ptp ∧
    (State.resumeOn p s).chans = s.chans ∧ (State.resumeOn p s).seqs = s.seqs ∧
    (State.resumeOn p s).hc = s.hc ∧ (State.resumeOn p s).trim = s.trim ∧
    (State.resumeOn p s).bundles = s.bundles ∧ (State.resumeOn p s).slots = s.slots ∧
    (State.resumeOn p s).wt = s.wt ∧ (State.resumeOn p s).mem = s.mem ∧
    (State.resumeOn p s).fwMem = s.fwMem ∧ (State.resumeOn p s).ms = s.ms ∧
    (State.resumeOn p s).pricks = s.pricks ∧ (State.resumeOn p s).templates = s.templates ∧
    (State.resumeOn p s).order = s.order ∧ (State.resumeOn p s).free = s.free := by
  have hF0 := @State.modJob_frame
  have hF1 := @State.modPillow_frame
  unfold State.resumeOn; simp [hF0, hF1]

theorem State.resumeLegal_frame (x0 : Nat) (x1 : State) : (State.resumeLegal x0 x1).now = x1.now ∧
    (State.resumeLegal x0 x1).pending = x1.pending ∧ (State.resumeLegal x0 x1).tb = x1.tb ∧
    (State.resumeLegal x0 x1).sheets = x1.sheets ∧ (State.resumeLegal x0 x1).units = x1.units ∧
    (State.resumeLegal x0 x1).pins = x1.pins ∧ (State.resumeLegal x0 x1).pk = x1.pk ∧
    (State.resumeLegal x0 x1).queues = x1.queues ∧ (State.resumeLegal x0 x1).latches = x1.latches ∧
    (State.resumeLegal x0 x1).errw = x1.errw ∧ (State.resumeLegal x0 x1).sdio = x1.sdio ∧
    (State.resumeLegal x0 x1).bulk = x1.bulk ∧ (State.resumeLegal x0 x1).mgmt = x1.mgmt ∧
    (State.resumeLegal x0 x1).power = x1.power ∧ (State.resumeLegal x0 x1).sec = x1.sec ∧
    (State.resumeLegal x0 x1).therm = x1.therm ∧ (State.resumeLegal x0 x1).ports = x1.ports ∧
    (State.resumeLegal x0 x1).streams = x1.streams ∧ (State.resumeLegal x0 x1).services = x1.services ∧
    (State.resumeLegal x0 x1).ptpPorts = x1.ptpPorts ∧ (State.resumeLegal x0 x1).ptp = x1.ptp ∧
    (State.resumeLegal x0 x1).chans = x1.chans ∧ (State.resumeLegal x0 x1).seqs = x1.seqs ∧
    (State.resumeLegal x0 x1).hc = x1.hc ∧ (State.resumeLegal x0 x1).trim = x1.trim ∧
    (State.resumeLegal x0 x1).bundles = x1.bundles ∧ (State.resumeLegal x0 x1).slots = x1.slots ∧
    (State.resumeLegal x0 x1).wt = x1.wt ∧ (State.resumeLegal x0 x1).mem = x1.mem ∧
    (State.resumeLegal x0 x1).fwMem = x1.fwMem ∧ (State.resumeLegal x0 x1).ms = x1.ms ∧
    (State.resumeLegal x0 x1).pricks = x1.pricks ∧ (State.resumeLegal x0 x1).templates = x1.templates ∧
    (State.resumeLegal x0 x1).order = x1.order ∧ (State.resumeLegal x0 x1).free = x1.free := by
  have hF0 := @State.resumeOn_frame
  induction x0 generalizing x1 <;> simp_all [State.resumeLegal]

theorem State.dropCached_frame (asid : Nat) (va : Option Nat) (s : State) :
    (State.dropCached asid va s).now = s.now ∧ (State.dropCached asid va s).pending = s.pending ∧
    (State.dropCached asid va s).tb = s.tb ∧ (State.dropCached asid va s).sheets = s.sheets ∧
    (State.dropCached asid va s).units = s.units ∧ (State.dropCached asid va s).pins = s.pins ∧
    (State.dropCached asid va s).pk = s.pk ∧ (State.dropCached asid va s).queues = s.queues ∧
    (State.dropCached asid va s).latches = s.latches ∧ (State.dropCached asid va s).errw = s.errw ∧
    (State.dropCached asid va s).sdio = s.sdio ∧ (State.dropCached asid va s).bulk = s.bulk ∧
    (State.dropCached asid va s).mgmt = s.mgmt ∧ (State.dropCached asid va s).power = s.power ∧
    (State.dropCached asid va s).sec = s.sec ∧ (State.dropCached asid va s).therm = s.therm ∧
    (State.dropCached asid va s).ports = s.ports ∧ (State.dropCached asid va s).streams = s.streams ∧
    (State.dropCached asid va s).services = s.services ∧
    (State.dropCached asid va s).ptpPorts = s.ptpPorts ∧ (State.dropCached asid va s).ptp = s.ptp ∧
    (State.dropCached asid va s).chans = s.chans ∧ (State.dropCached asid va s).seqs = s.seqs ∧
    (State.dropCached asid va s).hc = s.hc ∧ (State.dropCached asid va s).trim = s.trim ∧
    (State.dropCached asid va s).bundles = s.bundles ∧ (State.dropCached asid va s).slots = s.slots ∧
    (State.dropCached asid va s).wt = s.wt ∧ (State.dropCached asid va s).mem = s.mem ∧
    (State.dropCached asid va s).fwMem = s.fwMem ∧ (State.dropCached asid va s).ms = s.ms ∧
    (State.dropCached asid va s).pricks = s.pricks ∧ (State.dropCached asid va s).templates = s.templates ∧
    (State.dropCached asid va s).jobs = s.jobs ∧ (State.dropCached asid va s).order = s.order ∧
    (State.dropCached asid va s).free = s.free := by
  unfold State.dropCached; simp

theorem State.mapCreate_frame (asid : Nat) (op : Nat) (s : State) :
    (State.mapCreate asid op s).now = s.now ∧ (State.mapCreate asid op s).pending = s.pending ∧
    (State.mapCreate asid op s).tb = s.tb ∧ (State.mapCreate asid op s).sheets = s.sheets ∧
    (State.mapCreate asid op s).units = s.units ∧ (State.mapCreate asid op s).pins = s.pins ∧
    (State.mapCreate asid op s).pk = s.pk ∧ (State.mapCreate asid op s).queues = s.queues ∧
    (State.mapCreate asid op s).latches = s.latches ∧ (State.mapCreate asid op s).errw = s.errw ∧
    (State.mapCreate asid op s).sdio = s.sdio ∧ (State.mapCreate asid op s).bulk = s.bulk ∧
    (State.mapCreate asid op s).mgmt = s.mgmt ∧ (State.mapCreate asid op s).power = s.power ∧
    (State.mapCreate asid op s).sec = s.sec ∧ (State.mapCreate asid op s).therm = s.therm ∧
    (State.mapCreate asid op s).ports = s.ports ∧ (State.mapCreate asid op s).streams = s.streams ∧
    (State.mapCreate asid op s).services = s.services ∧ (State.mapCreate asid op s).ptpPorts = s.ptpPorts ∧
    (State.mapCreate asid op s).ptp = s.ptp ∧ (State.mapCreate asid op s).chans = s.chans ∧
    (State.mapCreate asid op s).seqs = s.seqs ∧ (State.mapCreate asid op s).hc = s.hc ∧
    (State.mapCreate asid op s).trim = s.trim ∧ (State.mapCreate asid op s).bundles = s.bundles ∧
    (State.mapCreate asid op s).slots = s.slots ∧ (State.mapCreate asid op s).wt = s.wt ∧
    (State.mapCreate asid op s).fwMem = s.fwMem ∧ (State.mapCreate asid op s).pricks = s.pricks ∧
    (State.mapCreate asid op s).templates = s.templates ∧ (State.mapCreate asid op s).jobs = s.jobs ∧
    (State.mapCreate asid op s).order = s.order ∧ (State.mapCreate asid op s).free = s.free := by
  have hF0 := @State.clearTables_frame
  have hF1 := @State.dropCached_frame
  unfold State.mapCreate; simp [hF0, hF1]

@[simp] theorem State.mapCreate_wf (asid : Nat) (op : Nat) (s : State) (hm : Memory.wf s.mem = true) :
    Memory.wf (State.mapCreate asid op s).mem = true := by
  have hF0 := @State.dropCached_frame
  unfold State.mapCreate; simp [hF0, hm]

theorem mapPageDo_frame (h : Hdr) (p : MapPageParams) (s : State) : (mapPageDo h p s).now = s.now ∧
    (mapPageDo h p s).pending = s.pending ∧ (mapPageDo h p s).tb = s.tb ∧
    (mapPageDo h p s).sheets = s.sheets ∧ (mapPageDo h p s).units = s.units ∧
    (mapPageDo h p s).pins = s.pins ∧ (mapPageDo h p s).pk = s.pk ∧ (mapPageDo h p s).queues = s.queues ∧
    (mapPageDo h p s).latches = s.latches ∧ (mapPageDo h p s).errw = s.errw ∧
    (mapPageDo h p s).sdio = s.sdio ∧ (mapPageDo h p s).bulk = s.bulk ∧ (mapPageDo h p s).mgmt = s.mgmt ∧
    (mapPageDo h p s).power = s.power ∧ (mapPageDo h p s).sec = s.sec ∧ (mapPageDo h p s).therm = s.therm ∧
    (mapPageDo h p s).ports = s.ports ∧ (mapPageDo h p s).streams = s.streams ∧
    (mapPageDo h p s).services = s.services ∧ (mapPageDo h p s).ptpPorts = s.ptpPorts ∧
    (mapPageDo h p s).ptp = s.ptp ∧ (mapPageDo h p s).chans = s.chans ∧ (mapPageDo h p s).seqs = s.seqs ∧
    (mapPageDo h p s).hc = s.hc ∧ (mapPageDo h p s).trim = s.trim ∧ (mapPageDo h p s).bundles = s.bundles ∧
    (mapPageDo h p s).slots = s.slots ∧ (mapPageDo h p s).wt = s.wt ∧ (mapPageDo h p s).fwMem = s.fwMem ∧
    (mapPageDo h p s).pricks = s.pricks ∧ (mapPageDo h p s).templates = s.templates ∧
    (mapPageDo h p s).jobs = s.jobs ∧ (mapPageDo h p s).order = s.order ∧
    (mapPageDo h p s).pillows = s.pillows ∧ (mapPageDo h p s).free = s.free := by
  have hF0 := @State.putEntries_frame
  have hF1 := @State.clearTables_frame
  unfold mapPageDo; simp [hF0, hF1]

@[simp] theorem mapPageDo_wf (h : Hdr) (p : MapPageParams) (s : State) (hm : Memory.wf s.mem = true) :
    Memory.wf (mapPageDo h p s).mem = true := by
  unfold mapPageDo; simp [hm]

theorem State.enterTest_frame (s : State) : (State.enterTest s).now = s.now ∧
    (State.enterTest s).pending = s.pending ∧ (State.enterTest s).tb = s.tb ∧
    (State.enterTest s).sheets = s.sheets ∧ (State.enterTest s).units = s.units ∧
    (State.enterTest s).pins = s.pins ∧ (State.enterTest s).pk = s.pk ∧
    (State.enterTest s).queues = s.queues ∧ (State.enterTest s).latches = s.latches ∧
    (State.enterTest s).errw = s.errw ∧ (State.enterTest s).sdio = s.sdio ∧
    (State.enterTest s).bulk = s.bulk ∧ (State.enterTest s).power = s.power ∧
    (State.enterTest s).sec = s.sec ∧ (State.enterTest s).therm = s.therm ∧
    (State.enterTest s).ports = s.ports ∧ (State.enterTest s).streams = s.streams ∧
    (State.enterTest s).services = s.services ∧ (State.enterTest s).ptpPorts = s.ptpPorts ∧
    (State.enterTest s).ptp = s.ptp ∧ (State.enterTest s).chans = s.chans ∧
    (State.enterTest s).seqs = s.seqs ∧ (State.enterTest s).hc = s.hc ∧ (State.enterTest s).trim = s.trim ∧
    (State.enterTest s).bundles = s.bundles ∧ (State.enterTest s).slots = s.slots ∧
    (State.enterTest s).wt = s.wt ∧ (State.enterTest s).mem = s.mem ∧ (State.enterTest s).fwMem = s.fwMem ∧
    (State.enterTest s).ms = s.ms ∧ (State.enterTest s).pricks = s.pricks ∧
    (State.enterTest s).templates = s.templates ∧ (State.enterTest s).jobs = s.jobs ∧
    (State.enterTest s).order = s.order ∧ (State.enterTest s).pillows = s.pillows ∧
    (State.enterTest s).free = s.free := by
  unfold State.enterTest; simp

theorem marchRunDo_frame (h : Hdr) (target : Nat) (form : Nat) (index : Nat) (s : State) :
    (marchRunDo h target form index s).now = s.now ∧
    (marchRunDo h target form index s).pending = s.pending ∧ (marchRunDo h target form index s).tb = s.tb ∧
    (marchRunDo h target form index s).sheets = s.sheets ∧
    (marchRunDo h target form index s).units = s.units ∧ (marchRunDo h target form index s).pins = s.pins ∧
    (marchRunDo h target form index s).pk = s.pk ∧ (marchRunDo h target form index s).queues = s.queues ∧
    (marchRunDo h target form index s).latches = s.latches ∧
    (marchRunDo h target form index s).errw = s.errw ∧ (marchRunDo h target form index s).sdio = s.sdio ∧
    (marchRunDo h target form index s).bulk = s.bulk ∧ (marchRunDo h target form index s).power = s.power ∧
    (marchRunDo h target form index s).sec = s.sec ∧ (marchRunDo h target form index s).therm = s.therm ∧
    (marchRunDo h target form index s).ports = s.ports ∧
    (marchRunDo h target form index s).streams = s.streams ∧
    (marchRunDo h target form index s).services = s.services ∧
    (marchRunDo h target form index s).ptpPorts = s.ptpPorts ∧
    (marchRunDo h target form index s).ptp = s.ptp ∧ (marchRunDo h target form index s).chans = s.chans ∧
    (marchRunDo h target form index s).seqs = s.seqs ∧ (marchRunDo h target form index s).hc = s.hc ∧
    (marchRunDo h target form index s).trim = s.trim ∧
    (marchRunDo h target form index s).bundles = s.bundles ∧
    (marchRunDo h target form index s).slots = s.slots ∧ (marchRunDo h target form index s).wt = s.wt ∧
    (marchRunDo h target form index s).mem = s.mem ∧ (marchRunDo h target form index s).fwMem = s.fwMem ∧
    (marchRunDo h target form index s).pricks = s.pricks ∧
    (marchRunDo h target form index s).templates = s.templates ∧
    (marchRunDo h target form index s).jobs = s.jobs ∧ (marchRunDo h target form index s).order = s.order ∧
    (marchRunDo h target form index s).pillows = s.pillows ∧
    (marchRunDo h target form index s).free = s.free := by
  have hF0 := @State.enterTest_frame
  have hF1 := @State.release_frame
  unfold marchRunDo; simp [hF0, hF1]

end Sys2Proof.Machine
end

