-- ==== Sys2Proof/Laws/FrameStage.lean ====
section
/-! SUPPORT. Frames of the operations a running stage is made of, of the scheduler and of the security
operations. -/

namespace Sys2Proof.Machine

/-! ## Accesses that wait -/

/-- Whether an access waits. -/
def Access.isWait : Access → Bool
  | .wait _ _ _ => true
  | _ => false
/-- The state an access leaves where it does not wait. -/
def Access.okState : Access → State
  | .ok _ s => s
  | .fault _ s => s
  | .wait _ _ _ => State.reset
@[simp] theorem Access.okState_ok (b : Bytes) (s : State) : (Access.ok b s).okState = s := rfl
@[simp] theorem Access.okState_fault (b : FaultRec) (s : State) : (Access.fault b s).okState = s := rfl
@[simp] theorem Access.isWait_ok (b : Bytes) (s : State) : (Access.ok b s).isWait = false := rfl
@[simp] theorem Access.isWait_fault (b : FaultRec) (s : State) : (Access.fault b s).isWait = false := rfl
@[simp] theorem Access.isWait_wait (a : Nat) (b : Int) (c : Bool) : (Access.wait a b c).isWait = true := rfl
theorem Access.ok_elim {a : Access} {b : Bytes} {t : State} (h : a = .ok b t) : a.isWait = false ∧ a.okState = t := by
  subst h; exact ⟨rfl, rfl⟩
theorem Access.fault_elim {a : Access} {b : FaultRec} {t : State} (h : a = .fault b t) : a.isWait = false ∧ a.okState = t := by
  subst h; exact ⟨rfl, rfl⟩

/-! ## Pricking -/

theorem prickCloseDo_frame (h : Hdr) (prk : Nat) (s : State) : (prickCloseDo h prk s).now = s.now ∧
    (prickCloseDo h prk s).pending = s.pending ∧ (prickCloseDo h prk s).tb = s.tb ∧
    (prickCloseDo h prk s).sheets = s.sheets ∧ (prickCloseDo h prk s).units = s.units ∧
    (prickCloseDo h prk s).pins = s.pins ∧ (prickCloseDo h prk s).pk = s.pk ∧
    (prickCloseDo h prk s).latches = s.latches ∧ (prickCloseDo h prk s).errw = s.errw ∧
    (prickCloseDo h prk s).bulk = s.bulk ∧ (prickCloseDo h prk s).power = s.power ∧
    (prickCloseDo h prk s).sec = s.sec ∧ (prickCloseDo h prk s).therm = s.therm ∧
    (prickCloseDo h prk s).ports = s.ports ∧ (prickCloseDo h prk s).streams = s.streams ∧
    (prickCloseDo h prk s).services = s.services ∧ (prickCloseDo h prk s).ptpPorts = s.ptpPorts ∧
    (prickCloseDo h prk s).ptp = s.ptp ∧ (prickCloseDo h prk s).chans = s.chans ∧
    (prickCloseDo h prk s).seqs = s.seqs ∧ (prickCloseDo h prk s).hc = s.hc ∧
    (prickCloseDo h prk s).trim = s.trim ∧ (prickCloseDo h prk s).bundles = s.bundles ∧
    (prickCloseDo h prk s).slots = s.slots ∧ (prickCloseDo h prk s).wt = s.wt ∧
    (prickCloseDo h prk s).mem = s.mem ∧ (prickCloseDo h prk s).fwMem = s.fwMem ∧
    (prickCloseDo h prk s).ms = s.ms ∧ (prickCloseDo h prk s).templates = s.templates ∧
    (prickCloseDo h prk s).jobs = s.jobs ∧ (prickCloseDo h prk s).order = s.order ∧
    (prickCloseDo h prk s).pillows = s.pillows ∧ (prickCloseDo h prk s).free = s.free := by
  have hF0 := @State.done_frame
  have hF1 := @State.modPrick_frame
  have hF2 := @State.refuse_frame
  have hF3 := @State.setPrick_frame
  unfold prickCloseDo; (repeat' split) <;> simp [hF0, hF1, hF2, hF3]

/-! ## Operands -/

theorem State.walkCheck_frame (asid : Nat) (va : Nat) (s : State) :
    (State.walkCheck asid va s).2.now = s.now ∧ (State.walkCheck asid va s).2.pending = s.pending ∧
    (State.walkCheck asid va s).2.tb = s.tb ∧ (State.walkCheck asid va s).2.sheets = s.sheets ∧
    (State.walkCheck asid va s).2.units = s.units ∧ (State.walkCheck asid va s).2.pins = s.pins ∧
    (State.walkCheck asid va s).2.pk = s.pk ∧ (State.walkCheck asid va s).2.queues = s.queues ∧
    (State.walkCheck asid va s).2.latches = s.latches ∧ (State.walkCheck asid va s).2.errw = s.errw ∧
    (State.walkCheck asid va s).2.sdio = s.sdio ∧ (State.walkCheck asid va s).2.bulk = s.bulk ∧
    (State.walkCheck asid va s).2.mgmt = s.mgmt ∧ (State.walkCheck asid va s).2.power = s.power ∧
    (State.walkCheck asid va s).2.sec = s.sec ∧ (State.walkCheck asid va s).2.therm = s.therm ∧
    (State.walkCheck asid va s).2.ports = s.ports ∧ (State.walkCheck asid va s).2.streams = s.streams ∧
    (State.walkCheck asid va s).2.services = s.services ∧
    (State.walkCheck asid va s).2.ptpPorts = s.ptpPorts ∧ (State.walkCheck asid va s).2.ptp = s.ptp ∧
    (State.walkCheck asid va s).2.chans = s.chans ∧ (State.walkCheck asid va s).2.seqs = s.seqs ∧
    (State.walkCheck asid va s).2.hc = s.hc ∧ (State.walkCheck asid va s).2.trim = s.trim ∧
    (State.walkCheck asid va s).2.bundles = s.bundles ∧ (State.walkCheck asid va s).2.slots = s.slots ∧
    (State.walkCheck asid va s).2.wt = s.wt ∧ (State.walkCheck asid va s).2.mem = s.mem ∧
    (State.walkCheck asid va s).2.fwMem = s.fwMem ∧ (State.walkCheck asid va s).2.pricks = s.pricks ∧
    (State.walkCheck asid va s).2.templates = s.templates ∧ (State.walkCheck asid va s).2.jobs = s.jobs ∧
    (State.walkCheck asid va s).2.order = s.order ∧ (State.walkCheck asid va s).2.pillows = s.pillows ∧
    (State.walkCheck asid va s).2.free = s.free := by
  unfold State.walkCheck; simp

theorem State.walk_frame (p : Nat) (asid : Nat) (va : Nat) (fresh : Bool) (s : State) :
    (State.walk p asid va fresh s).2.now = s.now ∧ (State.walk p asid va fresh s).2.pending = s.pending ∧
    (State.walk p asid va fresh s).2.tb = s.tb ∧ (State.walk p asid va fresh s).2.sheets = s.sheets ∧
    (State.walk p asid va fresh s).2.units = s.units ∧ (State.walk p asid va fresh s).2.pins = s.pins ∧
    (State.walk p asid va fresh s).2.pk = s.pk ∧ (State.walk p asid va fresh s).2.queues = s.queues ∧
    (State.walk p asid va fresh s).2.latches = s.latches ∧ (State.walk p asid va fresh s).2.errw = s.errw ∧
    (State.walk p asid va fresh s).2.sdio = s.sdio ∧ (State.walk p asid va fresh s).2.bulk = s.bulk ∧
    (State.walk p asid va fresh s).2.mgmt = s.mgmt ∧ (State.walk p asid va fresh s).2.power = s.power ∧
    (State.walk p asid va fresh s).2.sec = s.sec ∧ (State.walk p asid va fresh s).2.therm = s.therm ∧
    (State.walk p asid va fresh s).2.ports = s.ports ∧
    (State.walk p asid va fresh s).2.streams = s.streams ∧
    (State.walk p asid va fresh s).2.services = s.services ∧
    (State.walk p asid va fresh s).2.ptpPorts = s.ptpPorts ∧ (State.walk p asid va fresh s).2.ptp = s.ptp ∧
    (State.walk p asid va fresh s).2.chans = s.chans ∧ (State.walk p asid va fresh s).2.seqs = s.seqs ∧
    (State.walk p asid va fresh s).2.hc = s.hc ∧ (State.walk p asid va fresh s).2.trim = s.trim ∧
    (State.walk p asid va fresh s).2.bundles = s.bundles ∧
    (State.walk p asid va fresh s).2.slots = s.slots ∧ (State.walk p asid va fresh s).2.wt = s.wt ∧
    (State.walk p asid va fresh s).2.mem = s.mem ∧ (State.walk p asid va fresh s).2.fwMem = s.fwMem ∧
    (State.walk p asid va fresh s).2.pricks = s.pricks ∧
    (State.walk p asid va fresh s).2.templates = s.templates ∧
    (State.walk p asid va fresh s).2.jobs = s.jobs ∧ (State.walk p asid va fresh s).2.order = s.order := by
  have hF0 := @State.walkCheck_frame
  have hF1 := @State.modPillow_frame
  have hF2 := @State.draw_frame
  unfold State.walk; dsimp only; (repeat' split) <;> simp [hF0, hF1, hF2]

theorem State.translate_frame (p : Nat) (unit : Nat) (win : Bool) (write : Bool) (asid : Nat) (va : Nat) (s : State) :
    (State.translate p unit win write asid va s).2.now = s.now ∧
    (State.translate p unit win write asid va s).2.pending = s.pending ∧
    (State.translate p unit win write asid va s).2.tb = s.tb ∧
    (State.translate p unit win write asid va s).2.sheets = s.sheets ∧
    (State.translate p unit win write asid va s).2.units = s.units ∧
    (State.translate p unit win write asid va s).2.pins = s.pins ∧
    (State.translate p unit win write asid va s).2.pk = s.pk ∧
    (State.translate p unit win write asid va s).2.queues = s.queues ∧
    (State.translate p unit win write asid va s).2.latches = s.latches ∧
    (State.translate p unit win write asid va s).2.errw = s.errw ∧
    (State.translate p unit win write asid va s).2.sdio = s.sdio ∧
    (State.translate p unit win write asid va s).2.bulk = s.bulk ∧
    (State.translate p unit win write asid va s).2.mgmt = s.mgmt ∧
    (State.translate p unit win write asid va s).2.power = s.power ∧
    (State.translate p unit win write asid va s).2.sec = s.sec ∧
    (State.translate p unit win write asid va s).2.therm = s.therm ∧
    (State.translate p unit win write asid va s).2.ports = s.ports ∧
    (State.translate p unit win write asid va s).2.streams = s.streams ∧
    (State.translate p unit win write asid va s).2.services = s.services ∧
    (State.translate p unit win write asid va s).2.ptpPorts = s.ptpPorts ∧
    (State.translate p unit win write asid va s).2.ptp = s.ptp ∧
    (State.translate p unit win write asid va s).2.chans = s.chans ∧
    (State.translate p unit win write asid va s).2.seqs = s.seqs ∧
    (State.translate p unit win write asid va s).2.hc = s.hc ∧
    (State.translate p unit win write asid va s).2.trim = s.trim ∧
    (State.translate p unit win write asid va s).2.bundles = s.bundles ∧
    (State.translate p unit win write asid va s).2.slots = s.slots ∧
    (State.translate p unit win write asid va s).2.wt = s.wt ∧
    (State.translate p unit win write asid va s).2.mem = s.mem ∧
    (State.translate p unit win write asid va s).2.fwMem = s.fwMem ∧
    (State.translate p unit win write asid va s).2.pricks = s.pricks ∧
    (State.translate p unit win write asid va s).2.templates = s.templates ∧
    (State.translate p unit win write asid va s).2.jobs = s.jobs ∧
    (State.translate p unit win write asid va s).2.order = s.order := by
  have hF0 := @State.setPillow_frame
  have hF1 := @State.walk_frame
  unfold State.translate; dsimp only; (repeat' split) <;> simp [hF0, hF1]

theorem State.faultOn_frame (p : Nat) (s : State) : (State.faultOn p s).now = s.now ∧
    (State.faultOn p s).pending = s.pending ∧ (State.faultOn p s).tb = s.tb ∧
    (State.faultOn p s).sheets = s.sheets ∧ (State.faultOn p s).units = s.units ∧
    (State.faultOn p s).pins = s.pins ∧ (State.faultOn p s).pk = s.pk ∧
    (State.faultOn p s).latches = s.latches ∧ (State.faultOn p s).errw = s.errw ∧
    (State.faultOn p s).bulk = s.bulk ∧ (State.faultOn p s).power = s.power ∧
    (State.faultOn p s).sec = s.sec ∧ (State.faultOn p s).therm = s.therm ∧
    (State.faultOn p s).ports = s.ports ∧ (State.faultOn p s).streams = s.streams ∧
    (State.faultOn p s).services = s.services ∧ (State.faultOn p s).ptpPorts = s.ptpPorts ∧
    (State.faultOn p s).ptp = s.ptp ∧ (State.faultOn p s).chans = s.chans ∧
    (State.faultOn p s).seqs = s.seqs ∧ (State.faultOn p s).hc = s.hc ∧ (State.faultOn p s).trim = s.trim ∧
    (State.faultOn p s).bundles = s.bundles ∧ (State.faultOn p s).slots = s.slots ∧
    (State.faultOn p s).wt = s.wt ∧ (State.faultOn p s).mem = s.mem ∧ (State.faultOn p s).fwMem = s.fwMem ∧
    (State.faultOn p s).ms = s.ms ∧ (State.faultOn p s).pricks = s.pricks ∧
    (State.faultOn p s).templates = s.templates ∧ (State.faultOn p s).order = s.order ∧
    (State.faultOn p s).pillows = s.pillows ∧ (State.faultOn p s).free = s.free := by
  unfold State.faultOn; simp

theorem State.guarantee_frame (op : Nat) (template : Nat) (slot : Nat) (count : Nat) (p : Nat) (s : State) :
    (State.guarantee op template slot count p s).now = s.now ∧
    (State.guarantee op template slot count p s).pending = s.pending ∧
    (State.guarantee op template slot count p s).tb = s.tb ∧
    (State.guarantee op template slot count p s).sheets = s.sheets ∧
    (State.guarantee op template slot count p s).units = s.units ∧
    (State.guarantee op template slot count p s).pins = s.pins ∧
    (State.guarantee op template slot count p s).pk = s.pk ∧
    (State.guarantee op template slot count p s).errw = s.errw ∧
    (State.guarantee op template slot count p s).bulk = s.bulk ∧
    (State.guarantee op template slot count p s).mgmt = s.mgmt ∧
    (State.guarantee op template slot count p s).power = s.power ∧
    (State.guarantee op template slot count p s).sec = s.sec ∧
    (State.guarantee op template slot count p s).therm = s.therm ∧
    (State.guarantee op template slot count p s).ports = s.ports ∧
    (State.guarantee op template slot count p s).streams = s.streams ∧
    (State.guarantee op template slot count p s).services = s.services ∧
    (State.guarantee op template slot count p s).ptpPorts = s.ptpPorts ∧
    (State.guarantee op template slot count p s).ptp = s.ptp ∧
    (State.guarantee op template slot count p s).chans = s.chans ∧
    (State.guarantee op template slot count p s).seqs = s.seqs ∧
    (State.guarantee op template slot count p s).hc = s.hc ∧
    (State.guarantee op template slot count p s).trim = s.trim ∧
    (State.guarantee op template slot count p s).bundles = s.bundles ∧
    (State.guarantee op template slot count p s).slots = s.slots ∧
    (State.guarantee op template slot count p s).wt = s.wt ∧
    (State.guarantee op template slot count p s).mem = s.mem ∧
    (State.guarantee op template slot count p s).fwMem = s.fwMem ∧
    (State.guarantee op template slot count p s).ms = s.ms ∧
    (State.guarantee op template slot count p s).pricks = s.pricks ∧
    (State.guarantee op template slot count p s).templates = s.templates ∧
    (State.guarantee op template slot count p s).jobs = s.jobs ∧
    (State.guarantee op template slot count p s).order = s.order ∧
    (State.guarantee op template slot count p s).pillows = s.pillows ∧
    (State.guarantee op template slot count p s).free = s.free := by
  have hF0 := @State.report_frame
  unfold State.guarantee; simp [hF0]

theorem State.withdrawCtx_frame (c : Nat) (p : Nat) (s : State) : (State.withdrawCtx c p s).now = s.now ∧
    (State.withdrawCtx c p s).pending = s.pending ∧ (State.withdrawCtx c p s).tb = s.tb ∧
    (State.withdrawCtx c p s).sheets = s.sheets ∧ (State.withdrawCtx c p s).units = s.units ∧
    (State.withdrawCtx c p s).pins = s.pins ∧ (State.withdrawCtx c p s).pk = s.pk ∧
    (State.withdrawCtx c p s).errw = s.errw ∧ (State.withdrawCtx c p s).bulk = s.bulk ∧
    (State.withdrawCtx c p s).mgmt = s.mgmt ∧ (State.withdrawCtx c p s).power = s.power ∧
    (State.withdrawCtx c p s).sec = s.sec ∧ (State.withdrawCtx c p s).therm = s.therm ∧
    (State.withdrawCtx c p s).ports = s.ports ∧ (State.withdrawCtx c p s).streams = s.streams ∧
    (State.withdrawCtx c p s).services = s.services ∧ (State.withdrawCtx c p s).ptpPorts = s.ptpPorts ∧
    (State.withdrawCtx c p s).ptp = s.ptp ∧ (State.withdrawCtx c p s).chans = s.chans ∧
    (State.withdrawCtx c p s).seqs = s.seqs ∧ (State.withdrawCtx c p s).hc = s.hc ∧
    (State.withdrawCtx c p s).trim = s.trim ∧ (State.withdrawCtx c p s).bundles = s.bundles ∧
    (State.withdrawCtx c p s).slots = s.slots ∧ (State.withdrawCtx c p s).wt = s.wt ∧
    (State.withdrawCtx c p s).mem = s.mem ∧ (State.withdrawCtx c p s).fwMem = s.fwMem ∧
    (State.withdrawCtx c p s).ms = s.ms ∧ (State.withdrawCtx c p s).pricks = s.pricks ∧
    (State.withdrawCtx c p s).templates = s.templates ∧ (State.withdrawCtx c p s).order = s.order ∧
    (State.withdrawCtx c p s).pillows = s.pillows ∧ (State.withdrawCtx c p s).free = s.free := by
  have hF0 := @State.guarantee_frame
  have hF1 := @State.modJob_frame
  unfold State.withdrawCtx; simp [hF0, hF1]

theorem State.covered_frame (ns : Nat) (s : State) : (State.covered ns s).now = s.now ∧
    (State.covered ns s).pending = s.pending ∧ (State.covered ns s).tb = s.tb ∧
    (State.covered ns s).sheets = s.sheets ∧ (State.covered ns s).units = s.units ∧
    (State.covered ns s).pins = s.pins ∧ (State.covered ns s).pk = s.pk ∧
    (State.covered ns s).queues = s.queues ∧ (State.covered ns s).latches = s.latches ∧
    (State.covered ns s).errw = s.errw ∧ (State.covered ns s).sdio = s.sdio ∧
    (State.covered ns s).bulk = s.bulk ∧ (State.covered ns s).power = s.power ∧
    (State.covered ns s).sec = s.sec ∧ (State.covered ns s).therm = s.therm ∧
    (State.covered ns s).ports = s.ports ∧ (State.covered ns s).streams = s.streams ∧
    (State.covered ns s).services = s.services ∧ (State.covered ns s).ptpPorts = s.ptpPorts ∧
    (State.covered ns s).ptp = s.ptp ∧ (State.covered ns s).chans = s.chans ∧
    (State.covered ns s).seqs = s.seqs ∧ (State.covered ns s).hc = s.hc ∧
    (State.covered ns s).trim = s.trim ∧ (State.covered ns s).bundles = s.bundles ∧
    (State.covered ns s).slots = s.slots ∧ (State.covered ns s).wt = s.wt ∧
    (State.covered ns s).mem = s.mem ∧ (State.covered ns s).fwMem = s.fwMem ∧
    (State.covered ns s).ms = s.ms ∧ (State.covered ns s).pricks = s.pricks ∧
    (State.covered ns s).templates = s.templates ∧ (State.covered ns s).jobs = s.jobs ∧
    (State.covered ns s).order = s.order ∧ (State.covered ns s).pillows = s.pillows ∧
    (State.covered ns s).free = s.free := by
  unfold State.covered; simp

theorem State.poisonedUnit_frame (w : Work) (act : Bool) (u : Nat) (s : State) :
    (State.poisonedUnit w act u s).now = s.now ∧ (State.poisonedUnit w act u s).pending = s.pending ∧
    (State.poisonedUnit w act u s).tb = s.tb ∧ (State.poisonedUnit w act u s).sheets = s.sheets ∧
    (State.poisonedUnit w act u s).units = s.units ∧ (State.poisonedUnit w act u s).pins = s.pins ∧
    (State.poisonedUnit w act u s).pk = s.pk ∧ (State.poisonedUnit w act u s).errw = s.errw ∧
    (State.poisonedUnit w act u s).bulk = s.bulk ∧ (State.poisonedUnit w act u s).power = s.power ∧
    (State.poisonedUnit w act u s).sec = s.sec ∧ (State.poisonedUnit w act u s).therm = s.therm ∧
    (State.poisonedUnit w act u s).ports = s.ports ∧ (State.poisonedUnit w act u s).streams = s.streams ∧
    (State.poisonedUnit w act u s).services = s.services ∧
    (State.poisonedUnit w act u s).ptpPorts = s.ptpPorts ∧ (State.poisonedUnit w act u s).ptp = s.ptp ∧
    (State.poisonedUnit w act u s).chans = s.chans ∧ (State.poisonedUnit w act u s).seqs = s.seqs ∧
    (State.poisonedUnit w act u s).hc = s.hc ∧ (State.poisonedUnit w act u s).trim = s.trim ∧
    (State.poisonedUnit w act u s).bundles = s.bundles ∧ (State.poisonedUnit w act u s).slots = s.slots ∧
    (State.poisonedUnit w act u s).wt = s.wt ∧ (State.poisonedUnit w act u s).mem = s.mem ∧
    (State.poisonedUnit w act u s).fwMem = s.fwMem ∧ (State.poisonedUnit w act u s).pricks = s.pricks ∧
    (State.poisonedUnit w act u s).templates = s.templates ∧
    (State.poisonedUnit w act u s).order = s.order ∧
    (State.poisonedUnit w act u s).pillows = s.pillows := by
  have hF0 := @State.draw_frame
  have hF1 := @State.faultOn_frame
  have hF2 := @State.report_frame
  have hF3 := @State.covered_frame
  have hF4 := @State.modJob_frame
  have hF5 := @State.withdrawCtx_frame
  unfold State.poisonedUnit; simp [hF0, hF1, hF2, hF3, hF4, hF5]

theorem State.readPhys_frame (w : Work) (unit : Nat) (win : Bool) (va : Nat) (pa : Nat) (n : Nat) (s : State) (h : (State.readPhys w unit win va pa n s).isWait = false) :
    (State.readPhys w unit win va pa n s).okState.now = s.now ∧
    (State.readPhys w unit win va pa n s).okState.pending = s.pending ∧
    (State.readPhys w unit win va pa n s).okState.tb = s.tb ∧
    (State.readPhys w unit win va pa n s).okState.sheets = s.sheets ∧
    (State.readPhys w unit win va pa n s).okState.units = s.units ∧
    (State.readPhys w unit win va pa n s).okState.pins = s.pins ∧
    (State.readPhys w unit win va pa n s).okState.pk = s.pk ∧
    (State.readPhys w unit win va pa n s).okState.errw = s.errw ∧
    (State.readPhys w unit win va pa n s).okState.bulk = s.bulk ∧
    (State.readPhys w unit win va pa n s).okState.power = s.power ∧
    (State.readPhys w unit win va pa n s).okState.sec = s.sec ∧
    (State.readPhys w unit win va pa n s).okState.therm = s.therm ∧
    (State.readPhys w unit win va pa n s).okState.ports = s.ports ∧
    (State.readPhys w unit win va pa n s).okState.streams = s.streams ∧
    (State.readPhys w unit win va pa n s).okState.services = s.services ∧
    (State.readPhys w unit win va pa n s).okState.ptpPorts = s.ptpPorts ∧
    (State.readPhys w unit win va pa n s).okState.ptp = s.ptp ∧
    (State.readPhys w unit win va pa n s).okState.chans = s.chans ∧
    (State.readPhys w unit win va pa n s).okState.seqs = s.seqs ∧
    (State.readPhys w unit win va pa n s).okState.hc = s.hc ∧
    (State.readPhys w unit win va pa n s).okState.trim = s.trim ∧
    (State.readPhys w unit win va pa n s).okState.bundles = s.bundles ∧
    (State.readPhys w unit win va pa n s).okState.slots = s.slots ∧
    (State.readPhys w unit win va pa n s).okState.wt = s.wt ∧
    (State.readPhys w unit win va pa n s).okState.mem = s.mem ∧
    (State.readPhys w unit win va pa n s).okState.fwMem = s.fwMem ∧
    (State.readPhys w unit win va pa n s).okState.pricks = s.pricks ∧
    (State.readPhys w unit win va pa n s).okState.templates = s.templates ∧
    (State.readPhys w unit win va pa n s).okState.order = s.order := by
  have hF0 := @State.meetErrs_frame
  have hF1 := @State.poisonedUnit_frame
  revert h; unfold State.readPhys; dsimp only; (repeat' split) <;> (intro h; simp [hF0, hF1])

theorem readPieces_frame (w : Work) (unit : Nat) (win : Bool) (x0 : List (Nat × Nat)) (x1 : State) (h : (readPieces w unit win x0 x1).isWait = false) :
    (readPieces w unit win x0 x1).okState.now = x1.now ∧
    (readPieces w unit win x0 x1).okState.pending = x1.pending ∧
    (readPieces w unit win x0 x1).okState.tb = x1.tb ∧
    (readPieces w unit win x0 x1).okState.sheets = x1.sheets ∧
    (readPieces w unit win x0 x1).okState.units = x1.units ∧
    (readPieces w unit win x0 x1).okState.pins = x1.pins ∧
    (readPieces w unit win x0 x1).okState.pk = x1.pk ∧
    (readPieces w unit win x0 x1).okState.errw = x1.errw ∧
    (readPieces w unit win x0 x1).okState.bulk = x1.bulk ∧
    (readPieces w unit win x0 x1).okState.power = x1.power ∧
    (readPieces w unit win x0 x1).okState.sec = x1.sec ∧
    (readPieces w unit win x0 x1).okState.therm = x1.therm ∧
    (readPieces w unit win x0 x1).okState.ports = x1.ports ∧
    (readPieces w unit win x0 x1).okState.streams = x1.streams ∧
    (readPieces w unit win x0 x1).okState.services = x1.services ∧
    (readPieces w unit win x0 x1).okState.ptpPorts = x1.ptpPorts ∧
    (readPieces w unit win x0 x1).okState.ptp = x1.ptp ∧
    (readPieces w unit win x0 x1).okState.chans = x1.chans ∧
    (readPieces w unit win x0 x1).okState.seqs = x1.seqs ∧
    (readPieces w unit win x0 x1).okState.hc = x1.hc ∧
    (readPieces w unit win x0 x1).okState.trim = x1.trim ∧
    (readPieces w unit win x0 x1).okState.bundles = x1.bundles ∧
    (readPieces w unit win x0 x1).okState.slots = x1.slots ∧
    (readPieces w unit win x0 x1).okState.wt = x1.wt ∧ (readPieces w unit win x0 x1).okState.mem = x1.mem ∧
    (readPieces w unit win x0 x1).okState.fwMem = x1.fwMem ∧
    (readPieces w unit win x0 x1).okState.pricks = x1.pricks ∧
    (readPieces w unit win x0 x1).okState.templates = x1.templates ∧
    (readPieces w unit win x0 x1).okState.order = x1.order := by
  have hF0 := @State.translate_frame
  have hF1 := @State.readPhys_frame
  induction x0 generalizing x1 with
  | nil => simp [readPieces]
  | cons a l ih =>
    revert h
    unfold readPieces
    (repeat' (first | split | dsimp only)) <;> (repeat (rename _ = (_, _) => hx; obtain ⟨_, rfl⟩ := Prod.ext_iff.mp hx; clear hx)) <;> (repeat (rename _ = Access.ok _ _ => hx; obtain ⟨hw, rfl⟩ := Access.ok_elim hx; clear hx)) <;> (intro h; simp [*])

theorem State.readVa_frame (w : Work) (unit : Nat) (win : Bool) (va : Nat) (n : Nat) (s : State) (h : (State.readVa w unit win va n s).isWait = false) :
    (State.readVa w unit win va n s).okState.now = s.now ∧
    (State.readVa w unit win va n s).okState.pending = s.pending ∧
    (State.readVa w unit win va n s).okState.tb = s.tb ∧
    (State.readVa w unit win va n s).okState.sheets = s.sheets ∧
    (State.readVa w unit win va n s).okState.units = s.units ∧
    (State.readVa w unit win va n s).okState.pins = s.pins ∧
    (State.readVa w unit win va n s).okState.pk = s.pk ∧
    (State.readVa w unit win va n s).okState.errw = s.errw ∧
    (State.readVa w unit win va n s).okState.bulk = s.bulk ∧
    (State.readVa w unit win va n s).okState.power = s.power ∧
    (State.readVa w unit win va n s).okState.sec = s.sec ∧
    (State.readVa w unit win va n s).okState.therm = s.therm ∧
    (State.readVa w unit win va n s).okState.ports = s.ports ∧
    (State.readVa w unit win va n s).okState.streams = s.streams ∧
    (State.readVa w unit win va n s).okState.services = s.services ∧
    (State.readVa w unit win va n s).okState.ptpPorts = s.ptpPorts ∧
    (State.readVa w unit win va n s).okState.ptp = s.ptp ∧
    (State.readVa w unit win va n s).okState.chans = s.chans ∧
    (State.readVa w unit win va n s).okState.seqs = s.seqs ∧
    (State.readVa w unit win va n s).okState.hc = s.hc ∧
    (State.readVa w unit win va n s).okState.trim = s.trim ∧
    (State.readVa w unit win va n s).okState.bundles = s.bundles ∧
    (State.readVa w unit win va n s).okState.slots = s.slots ∧
    (State.readVa w unit win va n s).okState.wt = s.wt ∧
    (State.readVa w unit win va n s).okState.mem = s.mem ∧
    (State.readVa w unit win va n s).okState.fwMem = s.fwMem ∧
    (State.readVa w unit win va n s).okState.pricks = s.pricks ∧
    (State.readVa w unit win va n s).okState.templates = s.templates ∧
    (State.readVa w unit win va n s).okState.order = s.order := by
  have hF0 := @readPieces_frame
  revert h; unfold State.readVa; (repeat' (first | split | dsimp only)) <;> (intro h; simp [*])

theorem writePages_frame (w : Work) (unit : Nat) (win : Bool) (x0 : List (Nat × Nat)) (x1 : State) :
    (writePages w unit win x0 x1).2.now = x1.now ∧ (writePages w unit win x0 x1).2.pending = x1.pending ∧
    (writePages w unit win x0 x1).2.tb = x1.tb ∧ (writePages w unit win x0 x1).2.sheets = x1.sheets ∧
    (writePages w unit win x0 x1).2.units = x1.units ∧ (writePages w unit win x0 x1).2.pins = x1.pins ∧
    (writePages w unit win x0 x1).2.pk = x1.pk ∧ (writePages w unit win x0 x1).2.queues = x1.queues ∧
    (writePages w unit win x0 x1).2.latches = x1.latches ∧ (writePages w unit win x0 x1).2.errw = x1.errw ∧
    (writePages w unit win x0 x1).2.sdio = x1.sdio ∧ (writePages w unit win x0 x1).2.bulk = x1.bulk ∧
    (writePages w unit win x0 x1).2.mgmt = x1.mgmt ∧ (writePages w unit win x0 x1).2.power = x1.power ∧
    (writePages w unit win x0 x1).2.sec = x1.sec ∧ (writePages w unit win x0 x1).2.therm = x1.therm ∧
    (writePages w unit win x0 x1).2.ports = x1.ports ∧
    (writePages w unit win x0 x1).2.streams = x1.streams ∧
    (writePages w unit win x0 x1).2.services = x1.services ∧
    (writePages w unit win x0 x1).2.ptpPorts = x1.ptpPorts ∧ (writePages w unit win x0 x1).2.ptp = x1.ptp ∧
    (writePages w unit win x0 x1).2.chans = x1.chans ∧ (writePages w unit win x0 x1).2.seqs = x1.seqs ∧
    (writePages w unit win x0 x1).2.hc = x1.hc ∧ (writePages w unit win x0 x1).2.trim = x1.trim ∧
    (writePages w unit win x0 x1).2.bundles = x1.bundles ∧
    (writePages w unit win x0 x1).2.slots = x1.slots ∧ (writePages w unit win x0 x1).2.wt = x1.wt ∧
    (writePages w unit win x0 x1).2.mem = x1.mem ∧ (writePages w unit win x0 x1).2.fwMem = x1.fwMem ∧
    (writePages w unit win x0 x1).2.pricks = x1.pricks ∧
    (writePages w unit win x0 x1).2.templates = x1.templates ∧
    (writePages w unit win x0 x1).2.jobs = x1.jobs ∧ (writePages w unit win x0 x1).2.order = x1.order := by
  induction x0 generalizing x1 with
  | nil => simp [writePages]
  | cons a l ih =>
    obtain ⟨va, n⟩ := a
    have ht := State.translate_frame w.p unit win true w.asid va x1
    unfold writePages
    rcases hx : State.translate w.p unit win true w.asid va x1 with ⟨e, t⟩
    rw [hx] at ht
    cases e with
    | error f => simpa using ht
    | ok pa =>
      have h2 := ih t
      rcases hy : writePages w unit win l t with ⟨e2, t2⟩
      rw [hy] at h2
      dsimp only at ht h2 ⊢
      rw [hy]
      cases e2 <;> simp_all

theorem storePieces_frame (w : Work) (unit : Nat) (x0 : List (Nat × Nat)) (x1 : Bytes) (x2 : State) :
    (storePieces w unit x0 x1 x2).now = x2.now ∧ (storePieces w unit x0 x1 x2).pending = x2.pending ∧
    (storePieces w unit x0 x1 x2).tb = x2.tb ∧ (storePieces w unit x0 x1 x2).sheets = x2.sheets ∧
    (storePieces w unit x0 x1 x2).units = x2.units ∧ (storePieces w unit x0 x1 x2).pins = x2.pins ∧
    (storePieces w unit x0 x1 x2).pk = x2.pk ∧ (storePieces w unit x0 x1 x2).errw = x2.errw ∧
    (storePieces w unit x0 x1 x2).bulk = x2.bulk ∧ (storePieces w unit x0 x1 x2).mgmt = x2.mgmt ∧
    (storePieces w unit x0 x1 x2).power = x2.power ∧ (storePieces w unit x0 x1 x2).sec = x2.sec ∧
    (storePieces w unit x0 x1 x2).therm = x2.therm ∧ (storePieces w unit x0 x1 x2).streams = x2.streams ∧
    (storePieces w unit x0 x1 x2).services = x2.services ∧
    (storePieces w unit x0 x1 x2).ptpPorts = x2.ptpPorts ∧ (storePieces w unit x0 x1 x2).ptp = x2.ptp ∧
    (storePieces w unit x0 x1 x2).chans = x2.chans ∧ (storePieces w unit x0 x1 x2).seqs = x2.seqs ∧
    (storePieces w unit x0 x1 x2).hc = x2.hc ∧ (storePieces w unit x0 x1 x2).trim = x2.trim ∧
    (storePieces w unit x0 x1 x2).bundles = x2.bundles ∧ (storePieces w unit x0 x1 x2).slots = x2.slots ∧
    (storePieces w unit x0 x1 x2).wt = x2.wt ∧ (storePieces w unit x0 x1 x2).fwMem = x2.fwMem ∧
    (storePieces w unit x0 x1 x2).pricks = x2.pricks ∧
    (storePieces w unit x0 x1 x2).templates = x2.templates ∧
    (storePieces w unit x0 x1 x2).order = x2.order ∧ (storePieces w unit x0 x1 x2).free = x2.free := by
  have hF0 := @State.storeBy_frame
  induction x0 generalizing x1 x2 <;> simp_all [storePieces]

@[simp] theorem storePieces_wf (w : Work) (unit : Nat) (x0 : List (Nat × Nat)) (x1 : Bytes) (x2 : State) (hm : Memory.wf x2.mem = true) :
    Memory.wf (storePieces w unit x0 x1 x2).mem = true := by
  induction x0 generalizing x1 x2 hm <;> simp_all [storePieces]

theorem State.writeVa_frame (w : Work) (unit : Nat) (win : Bool) (va : Nat) (b : Bytes) (s : State) (h : (State.writeVa w unit win va b s).isWait = false) :
    (State.writeVa w unit win va b s).okState.now = s.now ∧
    (State.writeVa w unit win va b s).okState.pending = s.pending ∧
    (State.writeVa w unit win va b s).okState.tb = s.tb ∧
    (State.writeVa w unit win va b s).okState.sheets = s.sheets ∧
    (State.writeVa w unit win va b s).okState.units = s.units ∧
    (State.writeVa w unit win va b s).okState.pins = s.pins ∧
    (State.writeVa w unit win va b s).okState.pk = s.pk ∧
    (State.writeVa w unit win va b s).okState.errw = s.errw ∧
    (State.writeVa w unit win va b s).okState.bulk = s.bulk ∧
    (State.writeVa w unit win va b s).okState.mgmt = s.mgmt ∧
    (State.writeVa w unit win va b s).okState.power = s.power ∧
    (State.writeVa w unit win va b s).okState.sec = s.sec ∧
    (State.writeVa w unit win va b s).okState.therm = s.therm ∧
    (State.writeVa w unit win va b s).okState.streams = s.streams ∧
    (State.writeVa w unit win va b s).okState.services = s.services ∧
    (State.writeVa w unit win va b s).okState.ptpPorts = s.ptpPorts ∧
    (State.writeVa w unit win va b s).okState.ptp = s.ptp ∧
    (State.writeVa w unit win va b s).okState.chans = s.chans ∧
    (State.writeVa w unit win va b s).okState.seqs = s.seqs ∧
    (State.writeVa w unit win va b s).okState.hc = s.hc ∧
    (State.writeVa w unit win va b s).okState.trim = s.trim ∧
    (State.writeVa w unit win va b s).okState.bundles = s.bundles ∧
    (State.writeVa w unit win va b s).okState.slots = s.slots ∧
    (State.writeVa w unit win va b s).okState.wt = s.wt ∧
    (State.writeVa w unit win va b s).okState.fwMem = s.fwMem ∧
    (State.writeVa w unit win va b s).okState.pricks = s.pricks ∧
    (State.writeVa w unit win va b s).okState.templates = s.templates ∧
    (State.writeVa w unit win va b s).okState.order = s.order := by
  have hF0 := @storePieces_frame
  have hp := writePages_frame w unit win (vaPieces va b.length) s
  revert h
  unfold State.writeVa
  rcases hx : writePages w unit win (vaPieces va b.length) s with ⟨e, t⟩
  rw [hx] at hp
  dsimp only at hp ⊢
  cases e <;> simp_all

@[simp] theorem State.writeVa_wf (w : Work) (unit : Nat) (win : Bool) (va : Nat) (b : Bytes) (s : State) (hm : Memory.wf s.mem = true) (h : (State.writeVa w unit win va b s).isWait = false) :
    Memory.wf (State.writeVa w unit win va b s).okState.mem = true := by
  have hF0 := @writePages_frame
  revert h; unfold State.writeVa; (repeat' (first | split | dsimp only)) <;> (repeat (rename _ = (_, _) => hx; obtain ⟨_, rfl⟩ := Prod.ext_iff.mp hx; clear hx)) <;> (intro h; simp [*])

theorem State.readOpnd_frame (w : Work) (unit : Nat) (x : Opnd) (off : Int) (line : Int) (n : Nat) (s : State) (h : (State.readOpnd w unit x off line n s).isWait = false) :
    (State.readOpnd w unit x off line n s).okState.now = s.now ∧
    (State.readOpnd w unit x off line n s).okState.pending = s.pending ∧
    (State.readOpnd w unit x off line n s).okState.tb = s.tb ∧
    (State.readOpnd w unit x off line n s).okState.sheets = s.sheets ∧
    (State.readOpnd w unit x off line n s).okState.units = s.units ∧
    (State.readOpnd w unit x off line n s).okState.pins = s.pins ∧
    (State.readOpnd w unit x off line n s).okState.pk = s.pk ∧
    (State.readOpnd w unit x off line n s).okState.errw = s.errw ∧
    (State.readOpnd w unit x off line n s).okState.bulk = s.bulk ∧
    (State.readOpnd w unit x off line n s).okState.power = s.power ∧
    (State.readOpnd w unit x off line n s).okState.sec = s.sec ∧
    (State.readOpnd w unit x off line n s).okState.therm = s.therm ∧
    (State.readOpnd w unit x off line n s).okState.ports = s.ports ∧
    (State.readOpnd w unit x off line n s).okState.streams = s.streams ∧
    (State.readOpnd w unit x off line n s).okState.services = s.services ∧
    (State.readOpnd w unit x off line n s).okState.ptpPorts = s.ptpPorts ∧
    (State.readOpnd w unit x off line n s).okState.ptp = s.ptp ∧
    (State.readOpnd w unit x off line n s).okState.chans = s.chans ∧
    (State.readOpnd w unit x off line n s).okState.seqs = s.seqs ∧
    (State.readOpnd w unit x off line n s).okState.hc = s.hc ∧
    (State.readOpnd w unit x off line n s).okState.trim = s.trim ∧
    (State.readOpnd w unit x off line n s).okState.bundles = s.bundles ∧
    (State.readOpnd w unit x off line n s).okState.slots = s.slots ∧
    (State.readOpnd w unit x off line n s).okState.wt = s.wt ∧
    (State.readOpnd w unit x off line n s).okState.mem = s.mem ∧
    (State.readOpnd w unit x off line n s).okState.fwMem = s.fwMem ∧
    (State.readOpnd w unit x off line n s).okState.pricks = s.pricks ∧
    (State.readOpnd w unit x off line n s).okState.templates = s.templates ∧
    (State.readOpnd w unit x off line n s).okState.order = s.order := by
  have hF0 := @State.readVa_frame
  have hF1 := @State.readPhys_frame
  revert h; unfold State.readOpnd; dsimp only; (repeat' split) <;> (intro h; first | (simp; done) | (simp [*]; done) | (simp at h; done))

theorem State.writeOpnd_frame (w : Work) (unit : Nat) (x : Opnd) (off : Int) (line : Int) (b : Bytes) (s : State) (h : (State.writeOpnd w unit x off line b s).isWait = false) :
    (State.writeOpnd w unit x off line b s).okState.now = s.now ∧
    (State.writeOpnd w unit x off line b s).okState.pending = s.pending ∧
    (State.writeOpnd w unit x off line b s).okState.tb = s.tb ∧
    (State.writeOpnd w unit x off line b s).okState.sheets = s.sheets ∧
    (State.writeOpnd w unit x off line b s).okState.units = s.units ∧
    (State.writeOpnd w unit x off line b s).okState.pins = s.pins ∧
    (State.writeOpnd w unit x off line b s).okState.pk = s.pk ∧
    (State.writeOpnd w unit x off line b s).okState.errw = s.errw ∧
    (State.writeOpnd w unit x off line b s).okState.bulk = s.bulk ∧
    (State.writeOpnd w unit x off line b s).okState.mgmt = s.mgmt ∧
    (State.writeOpnd w unit x off line b s).okState.power = s.power ∧
    (State.writeOpnd w unit x off line b s).okState.sec = s.sec ∧
    (State.writeOpnd w unit x off line b s).okState.therm = s.therm ∧
    (State.writeOpnd w unit x off line b s).okState.streams = s.streams ∧
    (State.writeOpnd w unit x off line b s).okState.services = s.services ∧
    (State.writeOpnd w unit x off line b s).okState.ptpPorts = s.ptpPorts ∧
    (State.writeOpnd w unit x off line b s).okState.ptp = s.ptp ∧
    (State.writeOpnd w unit x off line b s).okState.chans = s.chans ∧
    (State.writeOpnd w unit x off line b s).okState.seqs = s.seqs ∧
    (State.writeOpnd w unit x off line b s).okState.hc = s.hc ∧
    (State.writeOpnd w unit x off line b s).okState.trim = s.trim ∧
    (State.writeOpnd w unit x off line b s).okState.bundles = s.bundles ∧
    (State.writeOpnd w unit x off line b s).okState.slots = s.slots ∧
    (State.writeOpnd w unit x off line b s).okState.wt = s.wt ∧
    (State.writeOpnd w unit x off line b s).okState.fwMem = s.fwMem ∧
    (State.writeOpnd w unit x off line b s).okState.pricks = s.pricks ∧
    (State.writeOpnd w unit x off line b s).okState.templates = s.templates ∧
    (State.writeOpnd w unit x off line b s).okState.order = s.order := by
  have hF0 := @State.writeVa_frame
  revert h; unfold State.writeOpnd; (repeat' (first | split | dsimp only)) <;> (intro h; first | (simp; done) | (simp [*]; done) | (simp at h; done))

@[simp] theorem State.writeOpnd_wf (w : Work) (unit : Nat) (x : Opnd) (off : Int) (line : Int) (b : Bytes) (s : State) (hm : Memory.wf s.mem = true) (h : (State.writeOpnd w unit x off line b s).isWait = false) :
    Memory.wf (State.writeOpnd w unit x off line b s).okState.mem = true := by
  revert h; unfold State.writeOpnd; (repeat' (first | split | dsimp only)) <;> (intro h; first | (simp; done) | (simp [*]; done) | (simp at h; done))

theorem State.landAt_frame (w : Work) (idx : List Nat) (nxt : Option (List Nat)) (s : State) :
    (State.landAt w idx nxt s).now = s.now ∧ (State.landAt w idx nxt s).pending = s.pending ∧
    (State.landAt w idx nxt s).tb = s.tb ∧ (State.landAt w idx nxt s).sheets = s.sheets ∧
    (State.landAt w idx nxt s).units = s.units ∧ (State.landAt w idx nxt s).pins = s.pins ∧
    (State.landAt w idx nxt s).pk = s.pk ∧ (State.landAt w idx nxt s).queues = s.queues ∧
    (State.landAt w idx nxt s).latches = s.latches ∧ (State.landAt w idx nxt s).errw = s.errw ∧
    (State.landAt w idx nxt s).sdio = s.sdio ∧ (State.landAt w idx nxt s).bulk = s.bulk ∧
    (State.landAt w idx nxt s).mgmt = s.mgmt ∧ (State.landAt w idx nxt s).power = s.power ∧
    (State.landAt w idx nxt s).sec = s.sec ∧ (State.landAt w idx nxt s).therm = s.therm ∧
    (State.landAt w idx nxt s).ports = s.ports ∧ (State.landAt w idx nxt s).streams = s.streams ∧
    (State.landAt w idx nxt s).services = s.services ∧ (State.landAt w idx nxt s).ptpPorts = s.ptpPorts ∧
    (State.landAt w idx nxt s).ptp = s.ptp ∧ (State.landAt w idx nxt s).chans = s.chans ∧
    (State.landAt w idx nxt s).seqs = s.seqs ∧ (State.landAt w idx nxt s).hc = s.hc ∧
    (State.landAt w idx nxt s).trim = s.trim ∧ (State.landAt w idx nxt s).bundles = s.bundles ∧
    (State.landAt w idx nxt s).slots = s.slots ∧ (State.landAt w idx nxt s).wt = s.wt ∧
    (State.landAt w idx nxt s).mem = s.mem ∧ (State.landAt w idx nxt s).fwMem = s.fwMem ∧
    (State.landAt w idx nxt s).ms = s.ms ∧ (State.landAt w idx nxt s).pricks = s.pricks ∧
    (State.landAt w idx nxt s).templates = s.templates ∧ (State.landAt w idx nxt s).order = s.order ∧
    (State.landAt w idx nxt s).pillows = s.pillows ∧ (State.landAt w idx nxt s).free = s.free := by
  have hF0 := @State.modJob_frame
  unfold State.landAt; (repeat' split) <;> simp [hF0]

theorem State.releaseAt_frame (w : Work) (idx : List Nat) (nxt : Option (List Nat)) (s : State) :
    (State.releaseAt w idx nxt s).now = s.now ∧ (State.releaseAt w idx nxt s).pending = s.pending ∧
    (State.releaseAt w idx nxt s).tb = s.tb ∧ (State.releaseAt w idx nxt s).sheets = s.sheets ∧
    (State.releaseAt w idx nxt s).units = s.units ∧ (State.releaseAt w idx nxt s).pins = s.pins ∧
    (State.releaseAt w idx nxt s).pk = s.pk ∧ (State.releaseAt w idx nxt s).queues = s.queues ∧
    (State.releaseAt w idx nxt s).latches = s.latches ∧ (State.releaseAt w idx nxt s).errw = s.errw ∧
    (State.releaseAt w idx nxt s).sdio = s.sdio ∧ (State.releaseAt w idx nxt s).bulk = s.bulk ∧
    (State.releaseAt w idx nxt s).mgmt = s.mgmt ∧ (State.releaseAt w idx nxt s).power = s.power ∧
    (State.releaseAt w idx nxt s).sec = s.sec ∧ (State.releaseAt w idx nxt s).therm = s.therm ∧
    (State.releaseAt w idx nxt s).ports = s.ports ∧ (State.releaseAt w idx nxt s).streams = s.streams ∧
    (State.releaseAt w idx nxt s).services = s.services ∧
    (State.releaseAt w idx nxt s).ptpPorts = s.ptpPorts ∧ (State.releaseAt w idx nxt s).ptp = s.ptp ∧
    (State.releaseAt w idx nxt s).chans = s.chans ∧ (State.releaseAt w idx nxt s).seqs = s.seqs ∧
    (State.releaseAt w idx nxt s).hc = s.hc ∧ (State.releaseAt w idx nxt s).trim = s.trim ∧
    (State.releaseAt w idx nxt s).bundles = s.bundles ∧ (State.releaseAt w idx nxt s).slots = s.slots ∧
    (State.releaseAt w idx nxt s).wt = s.wt ∧ (State.releaseAt w idx nxt s).mem = s.mem ∧
    (State.releaseAt w idx nxt s).fwMem = s.fwMem ∧ (State.releaseAt w idx nxt s).ms = s.ms ∧
    (State.releaseAt w idx nxt s).pricks = s.pricks ∧
    (State.releaseAt w idx nxt s).templates = s.templates ∧ (State.releaseAt w idx nxt s).order = s.order ∧
    (State.releaseAt w idx nxt s).pillows = s.pillows ∧ (State.releaseAt w idx nxt s).free = s.free := by
  have hF0 := @State.modJob_frame
  unfold State.releaseAt
  dsimp only
  split
  · simp
  · split
    · cases h : (w.lines w.op.a Level.strA (w.op.kind != kDma) 0 []) <;> simp [hF0, h]
    · rename_i i
      refine foldl_keeps (fun z : State => z.now = s.now ∧ z.pending = s.pending ∧ z.tb = s.tb ∧ z.sheets = s.sheets ∧ z.units = s.units ∧ z.pins = s.pins ∧ z.pk = s.pk ∧ z.queues = s.queues ∧ z.latches = s.latches ∧ z.errw = s.errw ∧ z.sdio = s.sdio ∧ z.bulk = s.bulk ∧ z.mgmt = s.mgmt ∧ z.power = s.power ∧ z.sec = s.sec ∧ z.therm = s.therm ∧ z.ports = s.ports ∧ z.streams = s.streams ∧ z.services = s.services ∧ z.ptpPorts = s.ptpPorts ∧ z.ptp = s.ptp ∧ z.chans = s.chans ∧ z.seqs = s.seqs ∧ z.hc = s.hc ∧ z.trim = s.trim ∧ z.bundles = s.bundles ∧ z.slots = s.slots ∧ z.wt = s.wt ∧ z.mem = s.mem ∧ z.fwMem = s.fwMem ∧ z.ms = s.ms ∧ z.pricks = s.pricks ∧ z.templates = s.templates ∧ z.order = s.order ∧ z.pillows = s.pillows ∧ z.free = s.free) _ _ _ (by simp) ?_
      intro t l ht
      split
      · cases h : (w.lines w.op.a Level.strA (w.op.kind != kDma) (l + 1) i) <;> simp [hF0, ht]
      · exact ht

theorem State.releaseE_frame (w : Work) (s : State) : (State.releaseE w s).now = s.now ∧
    (State.releaseE w s).pending = s.pending ∧ (State.releaseE w s).tb = s.tb ∧
    (State.releaseE w s).sheets = s.sheets ∧ (State.releaseE w s).units = s.units ∧
    (State.releaseE w s).pins = s.pins ∧ (State.releaseE w s).pk = s.pk ∧
    (State.releaseE w s).queues = s.queues ∧ (State.releaseE w s).latches = s.latches ∧
    (State.releaseE w s).errw = s.errw ∧ (State.releaseE w s).sdio = s.sdio ∧
    (State.releaseE w s).bulk = s.bulk ∧ (State.releaseE w s).mgmt = s.mgmt ∧
    (State.releaseE w s).power = s.power ∧ (State.releaseE w s).sec = s.sec ∧
    (State.releaseE w s).therm = s.therm ∧ (State.releaseE w s).ports = s.ports ∧
    (State.releaseE w s).streams = s.streams ∧ (State.releaseE w s).services = s.services ∧
    (State.releaseE w s).ptpPorts = s.ptpPorts ∧ (State.releaseE w s).ptp = s.ptp ∧
    (State.releaseE w s).chans = s.chans ∧ (State.releaseE w s).seqs = s.seqs ∧
    (State.releaseE w s).hc = s.hc ∧ (State.releaseE w s).trim = s.trim ∧
    (State.releaseE w s).bundles = s.bundles ∧ (State.releaseE w s).slots = s.slots ∧
    (State.releaseE w s).wt = s.wt ∧ (State.releaseE w s).mem = s.mem ∧
    (State.releaseE w s).fwMem = s.fwMem ∧ (State.releaseE w s).ms = s.ms ∧
    (State.releaseE w s).pricks = s.pricks ∧ (State.releaseE w s).templates = s.templates ∧
    (State.releaseE w s).order = s.order ∧ (State.releaseE w s).pillows = s.pillows ∧
    (State.releaseE w s).free = s.free := by
  have hF0 := @State.modJob_frame
  unfold State.releaseE; (repeat' split) <;> simp [hF0]

theorem State.fenceUp_frame (w : Work) (p : Nat) (id : Nat) (s : State) :
    (State.fenceUp w p id s).now = s.now ∧ (State.fenceUp w p id s).pending = s.pending ∧
    (State.fenceUp w p id s).tb = s.tb ∧ (State.fenceUp w p id s).sheets = s.sheets ∧
    (State.fenceUp w p id s).units = s.units ∧ (State.fenceUp w p id s).pins = s.pins ∧
    (State.fenceUp w p id s).pk = s.pk ∧ (State.fenceUp w p id s).errw = s.errw ∧
    (State.fenceUp w p id s).bulk = s.bulk ∧ (State.fenceUp w p id s).mgmt = s.mgmt ∧
    (State.fenceUp w p id s).power = s.power ∧ (State.fenceUp w p id s).sec = s.sec ∧
    (State.fenceUp w p id s).therm = s.therm ∧ (State.fenceUp w p id s).ports = s.ports ∧
    (State.fenceUp w p id s).streams = s.streams ∧ (State.fenceUp w p id s).services = s.services ∧
    (State.fenceUp w p id s).ptpPorts = s.ptpPorts ∧ (State.fenceUp w p id s).ptp = s.ptp ∧
    (State.fenceUp w p id s).chans = s.chans ∧ (State.fenceUp w p id s).seqs = s.seqs ∧
    (State.fenceUp w p id s).hc = s.hc ∧ (State.fenceUp w p id s).trim = s.trim ∧
    (State.fenceUp w p id s).bundles = s.bundles ∧ (State.fenceUp w p id s).slots = s.slots ∧
    (State.fenceUp w p id s).wt = s.wt ∧ (State.fenceUp w p id s).mem = s.mem ∧
    (State.fenceUp w p id s).fwMem = s.fwMem ∧ (State.fenceUp w p id s).ms = s.ms ∧
    (State.fenceUp w p id s).pricks = s.pricks ∧ (State.fenceUp w p id s).templates = s.templates ∧
    (State.fenceUp w p id s).order = s.order ∧ (State.fenceUp w p id s).pillows = s.pillows ∧
    (State.fenceUp w p id s).free = s.free := by
  have hF0 := @State.report_frame
  have hF1 := @State.setJob_frame
  unfold State.fenceUp; dsimp only; (repeat' split) <;> simp [hF0, hF1]

/-! ## Security -/

theorem State.imageFailed_frame (cause : Nat) (x : FwImage) (s : State) :
    (State.imageFailed cause x s).now = s.now ∧ (State.imageFailed cause x s).pending = s.pending ∧
    (State.imageFailed cause x s).tb = s.tb ∧ (State.imageFailed cause x s).sheets = s.sheets ∧
    (State.imageFailed cause x s).units = s.units ∧ (State.imageFailed cause x s).pins = s.pins ∧
    (State.imageFailed cause x s).pk = s.pk ∧ (State.imageFailed cause x s).errw = s.errw ∧
    (State.imageFailed cause x s).bulk = s.bulk ∧ (State.imageFailed cause x s).mgmt = s.mgmt ∧
    (State.imageFailed cause x s).power = s.power ∧ (State.imageFailed cause x s).therm = s.therm ∧
    (State.imageFailed cause x s).ports = s.ports ∧ (State.imageFailed cause x s).streams = s.streams ∧
    (State.imageFailed cause x s).services = s.services ∧
    (State.imageFailed cause x s).ptpPorts = s.ptpPorts ∧ (State.imageFailed cause x s).ptp = s.ptp ∧
    (State.imageFailed cause x s).chans = s.chans ∧ (State.imageFailed cause x s).seqs = s.seqs ∧
    (State.imageFailed cause x s).hc = s.hc ∧ (State.imageFailed cause x s).trim = s.trim ∧
    (State.imageFailed cause x s).bundles = s.bundles ∧ (State.imageFailed cause x s).slots = s.slots ∧
    (State.imageFailed cause x s).wt = s.wt ∧ (State.imageFailed cause x s).mem = s.mem ∧
    (State.imageFailed cause x s).fwMem = s.fwMem ∧ (State.imageFailed cause x s).ms = s.ms ∧
    (State.imageFailed cause x s).pricks = s.pricks ∧
    (State.imageFailed cause x s).templates = s.templates ∧ (State.imageFailed cause x s).jobs = s.jobs ∧
    (State.imageFailed cause x s).order = s.order ∧ (State.imageFailed cause x s).pillows = s.pillows ∧
    (State.imageFailed cause x s).free = s.free := by
  have hF0 := @State.security_frame
  unfold State.imageFailed; simp [hF0]

theorem State.startFirmware_frame (source : Nat) (x : FwImage) (s : State) :
    (State.startFirmware source x s).now = s.now ∧ (State.startFirmware source x s).pending = s.pending ∧
    (State.startFirmware source x s).tb = s.tb ∧ (State.startFirmware source x s).sheets = s.sheets ∧
    (State.startFirmware source x s).units = s.units ∧ (State.startFirmware source x s).pins = s.pins ∧
    (State.startFirmware source x s).pk = s.pk ∧ (State.startFirmware source x s).queues = s.queues ∧
    (State.startFirmware source x s).latches = s.latches ∧ (State.startFirmware source x s).errw = s.errw ∧
    (State.startFirmware source x s).sdio = s.sdio ∧ (State.startFirmware source x s).bulk = s.bulk ∧
    (State.startFirmware source x s).therm = s.therm ∧ (State.startFirmware source x s).ports = s.ports ∧
    (State.startFirmware source x s).streams = s.streams ∧
    (State.startFirmware source x s).services = s.services ∧
    (State.startFirmware source x s).ptpPorts = s.ptpPorts ∧ (State.startFirmware source x s).ptp = s.ptp ∧
    (State.startFirmware source x s).chans = s.chans ∧ (State.startFirmware source x s).seqs = s.seqs ∧
    (State.startFirmware source x s).hc = s.hc ∧ (State.startFirmware source x s).trim = s.trim ∧
    (State.startFirmware source x s).bundles = s.bundles ∧
    (State.startFirmware source x s).slots = s.slots ∧ (State.startFirmware source x s).wt = s.wt ∧
    (State.startFirmware source x s).mem = s.mem ∧ (State.startFirmware source x s).fwMem = s.fwMem ∧
    (State.startFirmware source x s).ms = s.ms ∧ (State.startFirmware source x s).pricks = s.pricks ∧
    (State.startFirmware source x s).templates = s.templates ∧
    (State.startFirmware source x s).jobs = s.jobs ∧ (State.startFirmware source x s).order = s.order ∧
    (State.startFirmware source x s).pillows = s.pillows ∧
    (State.startFirmware source x s).free = s.free := by
  unfold State.startFirmware; simp

theorem State.tryImage_frame (source : Nat) (x : FlashImage) (s : State) :
    (State.tryImage source x s).now = s.now ∧ (State.tryImage source x s).pending = s.pending ∧
    (State.tryImage source x s).tb = s.tb ∧ (State.tryImage source x s).sheets = s.sheets ∧
    (State.tryImage source x s).units = s.units ∧ (State.tryImage source x s).pins = s.pins ∧
    (State.tryImage source x s).pk = s.pk ∧ (State.tryImage source x s).errw = s.errw ∧
    (State.tryImage source x s).bulk = s.bulk ∧ (State.tryImage source x s).therm = s.therm ∧
    (State.tryImage source x s).ports = s.ports ∧ (State.tryImage source x s).streams = s.streams ∧
    (State.tryImage source x s).services = s.services ∧ (State.tryImage source x s).ptpPorts = s.ptpPorts ∧
    (State.tryImage source x s).ptp = s.ptp ∧ (State.tryImage source x s).chans = s.chans ∧
    (State.tryImage source x s).seqs = s.seqs ∧ (State.tryImage source x s).hc = s.hc ∧
    (State.tryImage source x s).trim = s.trim ∧ (State.tryImage source x s).bundles = s.bundles ∧
    (State.tryImage source x s).slots = s.slots ∧ (State.tryImage source x s).wt = s.wt ∧
    (State.tryImage source x s).mem = s.mem ∧ (State.tryImage source x s).fwMem = s.fwMem ∧
    (State.tryImage source x s).ms = s.ms ∧ (State.tryImage source x s).pricks = s.pricks ∧
    (State.tryImage source x s).templates = s.templates ∧ (State.tryImage source x s).jobs = s.jobs ∧
    (State.tryImage source x s).order = s.order ∧ (State.tryImage source x s).pillows = s.pillows ∧
    (State.tryImage source x s).free = s.free := by
  have hF0 := @State.startFirmware_frame
  have hF1 := @State.imageFailed_frame
  unfold State.tryImage; dsimp only; (repeat' split) <;> simp [hF0, hF1]

theorem State.bootFlash_frame (f : FlashRead) (s : State) : (State.bootFlash f s).now = s.now ∧
    (State.bootFlash f s).pending = s.pending ∧ (State.bootFlash f s).tb = s.tb ∧
    (State.bootFlash f s).sheets = s.sheets ∧ (State.bootFlash f s).units = s.units ∧
    (State.bootFlash f s).pins = s.pins ∧ (State.bootFlash f s).pk = s.pk ∧
    (State.bootFlash f s).errw = s.errw ∧ (State.bootFlash f s).bulk = s.bulk ∧
    (State.bootFlash f s).therm = s.therm ∧ (State.bootFlash f s).ports = s.ports ∧
    (State.bootFlash f s).streams = s.streams ∧ (State.bootFlash f s).services = s.services ∧
    (State.bootFlash f s).ptpPorts = s.ptpPorts ∧ (State.bootFlash f s).ptp = s.ptp ∧
    (State.bootFlash f s).chans = s.chans ∧ (State.bootFlash f s).seqs = s.seqs ∧
    (State.bootFlash f s).hc = s.hc ∧ (State.bootFlash f s).trim = s.trim ∧
    (State.bootFlash f s).bundles = s.bundles ∧ (State.bootFlash f s).slots = s.slots ∧
    (State.bootFlash f s).wt = s.wt ∧ (State.bootFlash f s).mem = s.mem ∧
    (State.bootFlash f s).fwMem = s.fwMem ∧ (State.bootFlash f s).ms = s.ms ∧
    (State.bootFlash f s).pricks = s.pricks ∧ (State.bootFlash f s).templates = s.templates ∧
    (State.bootFlash f s).jobs = s.jobs ∧ (State.bootFlash f s).order = s.order ∧
    (State.bootFlash f s).pillows = s.pillows ∧ (State.bootFlash f s).free = s.free := by
  have hF0 := @State.tryImage_frame
  unfold State.bootFlash; simp [hF0]

theorem fwUpdateOpenDo_frame (h : Hdr) (length : Nat) (s : State) :
    (fwUpdateOpenDo h length s).now = s.now ∧ (fwUpdateOpenDo h length s).pending = s.pending ∧
    (fwUpdateOpenDo h length s).tb = s.tb ∧ (fwUpdateOpenDo h length s).sheets = s.sheets ∧
    (fwUpdateOpenDo h length s).units = s.units ∧ (fwUpdateOpenDo h length s).pins = s.pins ∧
    (fwUpdateOpenDo h length s).pk = s.pk ∧ (fwUpdateOpenDo h length s).latches = s.latches ∧
    (fwUpdateOpenDo h length s).errw = s.errw ∧ (fwUpdateOpenDo h length s).power = s.power ∧
    (fwUpdateOpenDo h length s).therm = s.therm ∧ (fwUpdateOpenDo h length s).ports = s.ports ∧
    (fwUpdateOpenDo h length s).streams = s.streams ∧ (fwUpdateOpenDo h length s).services = s.services ∧
    (fwUpdateOpenDo h length s).ptpPorts = s.ptpPorts ∧ (fwUpdateOpenDo h length s).ptp = s.ptp ∧
    (fwUpdateOpenDo h length s).chans = s.chans ∧ (fwUpdateOpenDo h length s).seqs = s.seqs ∧
    (fwUpdateOpenDo h length s).hc = s.hc ∧ (fwUpdateOpenDo h length s).trim = s.trim ∧
    (fwUpdateOpenDo h length s).bundles = s.bundles ∧ (fwUpdateOpenDo h length s).slots = s.slots ∧
    (fwUpdateOpenDo h length s).wt = s.wt ∧ (fwUpdateOpenDo h length s).mem = s.mem ∧
    (fwUpdateOpenDo h length s).fwMem = s.fwMem ∧ (fwUpdateOpenDo h length s).ms = s.ms ∧
    (fwUpdateOpenDo h length s).pricks = s.pricks ∧ (fwUpdateOpenDo h length s).templates = s.templates ∧
    (fwUpdateOpenDo h length s).jobs = s.jobs ∧ (fwUpdateOpenDo h length s).order = s.order ∧
    (fwUpdateOpenDo h length s).pillows = s.pillows ∧ (fwUpdateOpenDo h length s).free = s.free := by
  have hF0 := @State.done_frame
  unfold fwUpdateOpenDo; simp [hF0]

theorem fwUpdateCloseDo_frame (h : Hdr) (sigOk : Bool) (s : State) :
    (fwUpdateCloseDo h sigOk s).now = s.now ∧ (fwUpdateCloseDo h sigOk s).pending = s.pending ∧
    (fwUpdateCloseDo h sigOk s).tb = s.tb ∧ (fwUpdateCloseDo h sigOk s).sheets = s.sheets ∧
    (fwUpdateCloseDo h sigOk s).units = s.units ∧ (fwUpdateCloseDo h sigOk s).pins = s.pins ∧
    (fwUpdateCloseDo h sigOk s).pk = s.pk ∧ (fwUpdateCloseDo h sigOk s).errw = s.errw ∧
    (fwUpdateCloseDo h sigOk s).power = s.power ∧ (fwUpdateCloseDo h sigOk s).therm = s.therm ∧
    (fwUpdateCloseDo h sigOk s).ports = s.ports ∧ (fwUpdateCloseDo h sigOk s).streams = s.streams ∧
    (fwUpdateCloseDo h sigOk s).services = s.services ∧ (fwUpdateCloseDo h sigOk s).ptpPorts = s.ptpPorts ∧
    (fwUpdateCloseDo h sigOk s).ptp = s.ptp ∧ (fwUpdateCloseDo h sigOk s).chans = s.chans ∧
    (fwUpdateCloseDo h sigOk s).seqs = s.seqs ∧ (fwUpdateCloseDo h sigOk s).hc = s.hc ∧
    (fwUpdateCloseDo h sigOk s).trim = s.trim ∧ (fwUpdateCloseDo h sigOk s).bundles = s.bundles ∧
    (fwUpdateCloseDo h sigOk s).slots = s.slots ∧ (fwUpdateCloseDo h sigOk s).wt = s.wt ∧
    (fwUpdateCloseDo h sigOk s).mem = s.mem ∧ (fwUpdateCloseDo h sigOk s).fwMem = s.fwMem ∧
    (fwUpdateCloseDo h sigOk s).ms = s.ms ∧ (fwUpdateCloseDo h sigOk s).pricks = s.pricks ∧
    (fwUpdateCloseDo h sigOk s).templates = s.templates ∧ (fwUpdateCloseDo h sigOk s).jobs = s.jobs ∧
    (fwUpdateCloseDo h sigOk s).order = s.order ∧ (fwUpdateCloseDo h sigOk s).pillows = s.pillows ∧
    (fwUpdateCloseDo h sigOk s).free = s.free := by
  have hF0 := @State.refuse_frame
  have hF1 := @State.imageFailed_frame
  have hF2 := @State.done_frame
  unfold fwUpdateCloseDo; dsimp only; (repeat' split) <;> simp [hF0, hF1, hF2]

theorem State.burns_frame (x0 : List Nat) (x1 : State) : (State.burns x0 x1).now = x1.now ∧
    (State.burns x0 x1).pending = x1.pending ∧ (State.burns x0 x1).tb = x1.tb ∧
    (State.burns x0 x1).sheets = x1.sheets ∧ (State.burns x0 x1).units = x1.units ∧
    (State.burns x0 x1).pins = x1.pins ∧ (State.burns x0 x1).pk = x1.pk ∧
    (State.burns x0 x1).errw = x1.errw ∧ (State.burns x0 x1).bulk = x1.bulk ∧
    (State.burns x0 x1).mgmt = x1.mgmt ∧ (State.burns x0 x1).power = x1.power ∧
    (State.burns x0 x1).sec = x1.sec ∧ (State.burns x0 x1).therm = x1.therm ∧
    (State.burns x0 x1).ports = x1.ports ∧ (State.burns x0 x1).streams = x1.streams ∧
    (State.burns x0 x1).services = x1.services ∧ (State.burns x0 x1).ptpPorts = x1.ptpPorts ∧
    (State.burns x0 x1).ptp = x1.ptp ∧ (State.burns x0 x1).chans = x1.chans ∧
    (State.burns x0 x1).seqs = x1.seqs ∧ (State.burns x0 x1).hc = x1.hc ∧
    (State.burns x0 x1).trim = x1.trim ∧ (State.burns x0 x1).bundles = x1.bundles ∧
    (State.burns x0 x1).slots = x1.slots ∧ (State.burns x0 x1).wt = x1.wt ∧
    (State.burns x0 x1).mem = x1.mem ∧ (State.burns x0 x1).fwMem = x1.fwMem ∧
    (State.burns x0 x1).ms = x1.ms ∧ (State.burns x0 x1).pricks = x1.pricks ∧
    (State.burns x0 x1).templates = x1.templates ∧ (State.burns x0 x1).jobs = x1.jobs ∧
    (State.burns x0 x1).order = x1.order ∧ (State.burns x0 x1).pillows = x1.pillows ∧
    (State.burns x0 x1).free = x1.free := by
  have hF0 := @State.security_frame
  induction x0 generalizing x1 <;> simp_all [State.burns]

theorem State.burnAtService_frame (s : State) : (State.burnAtService s).now = s.now ∧
    (State.burnAtService s).pending = s.pending ∧ (State.burnAtService s).tb = s.tb ∧
    (State.burnAtService s).sheets = s.sheets ∧ (State.burnAtService s).units = s.units ∧
    (State.burnAtService s).pins = s.pins ∧ (State.burnAtService s).pk = s.pk ∧
    (State.burnAtService s).errw = s.errw ∧ (State.burnAtService s).bulk = s.bulk ∧
    (State.burnAtService s).mgmt = s.mgmt ∧ (State.burnAtService s).power = s.power ∧
    (State.burnAtService s).therm = s.therm ∧ (State.burnAtService s).ports = s.ports ∧
    (State.burnAtService s).streams = s.streams ∧ (State.burnAtService s).services = s.services ∧
    (State.burnAtService s).ptpPorts = s.ptpPorts ∧ (State.burnAtService s).ptp = s.ptp ∧
    (State.burnAtService s).chans = s.chans ∧ (State.burnAtService s).seqs = s.seqs ∧
    (State.burnAtService s).hc = s.hc ∧ (State.burnAtService s).trim = s.trim ∧
    (State.burnAtService s).bundles = s.bundles ∧ (State.burnAtService s).slots = s.slots ∧
    (State.burnAtService s).wt = s.wt ∧ (State.burnAtService s).mem = s.mem ∧
    (State.burnAtService s).fwMem = s.fwMem ∧ (State.burnAtService s).ms = s.ms ∧
    (State.burnAtService s).pricks = s.pricks ∧ (State.burnAtService s).templates = s.templates ∧
    (State.burnAtService s).jobs = s.jobs ∧ (State.burnAtService s).order = s.order ∧
    (State.burnAtService s).pillows = s.pillows ∧ (State.burnAtService s).free = s.free := by
  have hF0 := @State.burns_frame
  unfold State.burnAtService; simp [hF0]

theorem State.arm_frame (key : BitVec 32) (s : State) : (State.arm key s).now = s.now ∧
    (State.arm key s).pending = s.pending ∧ (State.arm key s).tb = s.tb ∧
    (State.arm key s).sheets = s.sheets ∧ (State.arm key s).units = s.units ∧
    (State.arm key s).pins = s.pins ∧ (State.arm key s).pk = s.pk ∧ (State.arm key s).queues = s.queues ∧
    (State.arm key s).latches = s.latches ∧ (State.arm key s).errw = s.errw ∧
    (State.arm key s).sdio = s.sdio ∧ (State.arm key s).bulk = s.bulk ∧ (State.arm key s).mgmt = s.mgmt ∧
    (State.arm key s).power = s.power ∧ (State.arm key s).therm = s.therm ∧
    (State.arm key s).ports = s.ports ∧ (State.arm key s).streams = s.streams ∧
    (State.arm key s).services = s.services ∧ (State.arm key s).ptpPorts = s.ptpPorts ∧
    (State.arm key s).ptp = s.ptp ∧ (State.arm key s).chans = s.chans ∧ (State.arm key s).seqs = s.seqs ∧
    (State.arm key s).hc = s.hc ∧ (State.arm key s).trim = s.trim ∧ (State.arm key s).bundles = s.bundles ∧
    (State.arm key s).slots = s.slots ∧ (State.arm key s).wt = s.wt ∧ (State.arm key s).mem = s.mem ∧
    (State.arm key s).fwMem = s.fwMem ∧ (State.arm key s).ms = s.ms ∧ (State.arm key s).pricks = s.pricks ∧
    (State.arm key s).templates = s.templates ∧ (State.arm key s).jobs = s.jobs ∧
    (State.arm key s).order = s.order ∧ (State.arm key s).pillows = s.pillows ∧
    (State.arm key s).free = s.free := by
  unfold State.arm; simp

theorem State.sealOff_frame (s : State) : (State.sealOff s).now = s.now ∧
    (State.sealOff s).pending = s.pending ∧ (State.sealOff s).tb = s.tb ∧
    (State.sealOff s).sheets = s.sheets ∧ (State.sealOff s).units = s.units ∧
    (State.sealOff s).pins = s.pins ∧ (State.sealOff s).pk = s.pk ∧ (State.sealOff s).errw = s.errw ∧
    (State.sealOff s).bulk = s.bulk ∧ (State.sealOff s).mgmt = s.mgmt ∧ (State.sealOff s).power = s.power ∧
    (State.sealOff s).therm = s.therm ∧ (State.sealOff s).ports = s.ports ∧
    (State.sealOff s).streams = s.streams ∧ (State.sealOff s).services = s.services ∧
    (State.sealOff s).ptpPorts = s.ptpPorts ∧ (State.sealOff s).ptp = s.ptp ∧
    (State.sealOff s).chans = s.chans ∧ (State.sealOff s).seqs = s.seqs ∧ (State.sealOff s).hc = s.hc ∧
    (State.sealOff s).trim = s.trim ∧ (State.sealOff s).bundles = s.bundles ∧
    (State.sealOff s).slots = s.slots ∧ (State.sealOff s).wt = s.wt ∧ (State.sealOff s).mem = s.mem ∧
    (State.sealOff s).fwMem = s.fwMem ∧ (State.sealOff s).ms = s.ms ∧ (State.sealOff s).pricks = s.pricks ∧
    (State.sealOff s).templates = s.templates ∧ (State.sealOff s).jobs = s.jobs ∧
    (State.sealOff s).order = s.order ∧ (State.sealOff s).pillows = s.pillows ∧
    (State.sealOff s).free = s.free := by
  have hF0 := @State.security_frame
  unfold State.sealOff; simp [hF0]

theorem State.revoke_frame (mask : BitVec 8) (s : State) : (State.revoke mask s).now = s.now ∧
    (State.revoke mask s).pending = s.pending ∧ (State.revoke mask s).tb = s.tb ∧
    (State.revoke mask s).sheets = s.sheets ∧ (State.revoke mask s).units = s.units ∧
    (State.revoke mask s).pins = s.pins ∧ (State.revoke mask s).pk = s.pk ∧
    (State.revoke mask s).errw = s.errw ∧ (State.revoke mask s).bulk = s.bulk ∧
    (State.revoke mask s).mgmt = s.mgmt ∧ (State.revoke mask s).power = s.power ∧
    (State.revoke mask s).therm = s.therm ∧ (State.revoke mask s).ports = s.ports ∧
    (State.revoke mask s).streams = s.streams ∧ (State.revoke mask s).services = s.services ∧
    (State.revoke mask s).ptpPorts = s.ptpPorts ∧ (State.revoke mask s).ptp = s.ptp ∧
    (State.revoke mask s).chans = s.chans ∧ (State.revoke mask s).seqs = s.seqs ∧
    (State.revoke mask s).hc = s.hc ∧ (State.revoke mask s).trim = s.trim ∧
    (State.revoke mask s).bundles = s.bundles ∧ (State.revoke mask s).slots = s.slots ∧
    (State.revoke mask s).wt = s.wt ∧ (State.revoke mask s).mem = s.mem ∧
    (State.revoke mask s).fwMem = s.fwMem ∧ (State.revoke mask s).ms = s.ms ∧
    (State.revoke mask s).pricks = s.pricks ∧ (State.revoke mask s).templates = s.templates ∧
    (State.revoke mask s).jobs = s.jobs ∧ (State.revoke mask s).order = s.order ∧
    (State.revoke mask s).pillows = s.pillows ∧ (State.revoke mask s).free = s.free := by
  have hF0 := @State.burns_frame
  unfold State.revoke; simp [hF0]

theorem State.secOp_frame (op : Nat) (mask : BitVec 8) (s : State) : (State.secOp op mask s).now = s.now ∧
    (State.secOp op mask s).pending = s.pending ∧ (State.secOp op mask s).tb = s.tb ∧
    (State.secOp op mask s).sheets = s.sheets ∧ (State.secOp op mask s).units = s.units ∧
    (State.secOp op mask s).pins = s.pins ∧ (State.secOp op mask s).pk = s.pk ∧
    (State.secOp op mask s).errw = s.errw ∧ (State.secOp op mask s).bulk = s.bulk ∧
    (State.secOp op mask s).mgmt = s.mgmt ∧ (State.secOp op mask s).power = s.power ∧
    (State.secOp op mask s).therm = s.therm ∧ (State.secOp op mask s).ports = s.ports ∧
    (State.secOp op mask s).streams = s.streams ∧ (State.secOp op mask s).services = s.services ∧
    (State.secOp op mask s).ptpPorts = s.ptpPorts ∧ (State.secOp op mask s).ptp = s.ptp ∧
    (State.secOp op mask s).chans = s.chans ∧ (State.secOp op mask s).seqs = s.seqs ∧
    (State.secOp op mask s).hc = s.hc ∧ (State.secOp op mask s).trim = s.trim ∧
    (State.secOp op mask s).bundles = s.bundles ∧ (State.secOp op mask s).slots = s.slots ∧
    (State.secOp op mask s).wt = s.wt ∧ (State.secOp op mask s).mem = s.mem ∧
    (State.secOp op mask s).fwMem = s.fwMem ∧ (State.secOp op mask s).ms = s.ms ∧
    (State.secOp op mask s).pricks = s.pricks ∧ (State.secOp op mask s).templates = s.templates ∧
    (State.secOp op mask s).jobs = s.jobs ∧ (State.secOp op mask s).order = s.order ∧
    (State.secOp op mask s).pillows = s.pillows ∧ (State.secOp op mask s).free = s.free := by
  have hF0 := @State.sealOff_frame
  have hF1 := @State.revoke_frame
  unfold State.secOp; simp [hF0, hF1]

theorem attestFormDo_frame (h : Hdr) (nonce : Bytes) (s : State) : (attestFormDo h nonce s).now = s.now ∧
    (attestFormDo h nonce s).pending = s.pending ∧ (attestFormDo h nonce s).tb = s.tb ∧
    (attestFormDo h nonce s).sheets = s.sheets ∧ (attestFormDo h nonce s).units = s.units ∧
    (attestFormDo h nonce s).pins = s.pins ∧ (attestFormDo h nonce s).pk = s.pk ∧
    (attestFormDo h nonce s).latches = s.latches ∧ (attestFormDo h nonce s).errw = s.errw ∧
    (attestFormDo h nonce s).bulk = s.bulk ∧ (attestFormDo h nonce s).power = s.power ∧
    (attestFormDo h nonce s).therm = s.therm ∧ (attestFormDo h nonce s).ports = s.ports ∧
    (attestFormDo h nonce s).streams = s.streams ∧ (attestFormDo h nonce s).services = s.services ∧
    (attestFormDo h nonce s).ptpPorts = s.ptpPorts ∧ (attestFormDo h nonce s).ptp = s.ptp ∧
    (attestFormDo h nonce s).chans = s.chans ∧ (attestFormDo h nonce s).seqs = s.seqs ∧
    (attestFormDo h nonce s).hc = s.hc ∧ (attestFormDo h nonce s).trim = s.trim ∧
    (attestFormDo h nonce s).bundles = s.bundles ∧ (attestFormDo h nonce s).slots = s.slots ∧
    (attestFormDo h nonce s).wt = s.wt ∧ (attestFormDo h nonce s).mem = s.mem ∧
    (attestFormDo h nonce s).fwMem = s.fwMem ∧ (attestFormDo h nonce s).ms = s.ms ∧
    (attestFormDo h nonce s).pricks = s.pricks ∧ (attestFormDo h nonce s).templates = s.templates ∧
    (attestFormDo h nonce s).jobs = s.jobs ∧ (attestFormDo h nonce s).order = s.order ∧
    (attestFormDo h nonce s).pillows = s.pillows ∧ (attestFormDo h nonce s).free = s.free := by
  have hF0 := @State.done_frame
  unfold attestFormDo; simp [hF0]

/-! ## Refresh -/

theorem State.markStale_frame (handle : Nat) (i : Nat) (cause : Nat) (s : State) :
    (State.markStale handle i cause s).now = s.now ∧
    (State.markStale handle i cause s).pending = s.pending ∧ (State.markStale handle i cause s).tb = s.tb ∧
    (State.markStale handle i cause s).sheets = s.sheets ∧
    (State.markStale handle i cause s).units = s.units ∧ (State.markStale handle i cause s).pins = s.pins ∧
    (State.markStale handle i cause s).pk = s.pk ∧ (State.markStale handle i cause s).errw = s.errw ∧
    (State.markStale handle i cause s).bulk = s.bulk ∧ (State.markStale handle i cause s).mgmt = s.mgmt ∧
    (State.markStale handle i cause s).power = s.power ∧ (State.markStale handle i cause s).sec = s.sec ∧
    (State.markStale handle i cause s).therm = s.therm ∧
    (State.markStale handle i cause s).ports = s.ports ∧
    (State.markStale handle i cause s).streams = s.streams ∧
    (State.markStale handle i cause s).services = s.services ∧
    (State.markStale handle i cause s).ptpPorts = s.ptpPorts ∧
    (State.markStale handle i cause s).ptp = s.ptp ∧ (State.markStale handle i cause s).chans = s.chans ∧
    (State.markStale handle i cause s).seqs = s.seqs ∧ (State.markStale handle i cause s).hc = s.hc ∧
    (State.markStale handle i cause s).trim = s.trim ∧ (State.markStale handle i cause s).slots = s.slots ∧
    (State.markStale handle i cause s).mem = s.mem ∧ (State.markStale handle i cause s).fwMem = s.fwMem ∧
    (State.markStale handle i cause s).ms = s.ms ∧ (State.markStale handle i cause s).pricks = s.pricks ∧
    (State.markStale handle i cause s).templates = s.templates ∧
    (State.markStale handle i cause s).jobs = s.jobs ∧ (State.markStale handle i cause s).order = s.order ∧
    (State.markStale handle i cause s).pillows = s.pillows ∧
    (State.markStale handle i cause s).free = s.free := by
  have hF0 := @State.setBundle_frame
  have hF1 := @State.report_frame
  unfold State.markStale; simp [hF0, hF1]

theorem State.meetShard_frame (handle : Nat) (i : Nat) (s : State) :
    (State.meetShard handle i s).now = s.now ∧ (State.meetShard handle i s).pending = s.pending ∧
    (State.meetShard handle i s).tb = s.tb ∧ (State.meetShard handle i s).sheets = s.sheets ∧
    (State.meetShard handle i s).units = s.units ∧ (State.meetShard handle i s).pins = s.pins ∧
    (State.meetShard handle i s).pk = s.pk ∧ (State.meetShard handle i s).queues = s.queues ∧
    (State.meetShard handle i s).latches = s.latches ∧ (State.meetShard handle i s).errw = s.errw ∧
    (State.meetShard handle i s).sdio = s.sdio ∧ (State.meetShard handle i s).bulk = s.bulk ∧
    (State.meetShard handle i s).mgmt = s.mgmt ∧ (State.meetShard handle i s).power = s.power ∧
    (State.meetShard handle i s).sec = s.sec ∧ (State.meetShard handle i s).therm = s.therm ∧
    (State.meetShard handle i s).ports = s.ports ∧ (State.meetShard handle i s).streams = s.streams ∧
    (State.meetShard handle i s).services = s.services ∧
    (State.meetShard handle i s).ptpPorts = s.ptpPorts ∧ (State.meetShard handle i s).ptp = s.ptp ∧
    (State.meetShard handle i s).chans = s.chans ∧ (State.meetShard handle i s).seqs = s.seqs ∧
    (State.meetShard handle i s).hc = s.hc ∧ (State.meetShard handle i s).trim = s.trim ∧
    (State.meetShard handle i s).bundles = s.bundles ∧ (State.meetShard handle i s).slots = s.slots ∧
    (State.meetShard handle i s).wt = s.wt ∧ (State.meetShard handle i s).mem = s.mem ∧
    (State.meetShard handle i s).fwMem = s.fwMem ∧ (State.meetShard handle i s).pricks = s.pricks ∧
    (State.meetShard handle i s).templates = s.templates ∧ (State.meetShard handle i s).jobs = s.jobs ∧
    (State.meetShard handle i s).order = s.order ∧ (State.meetShard handle i s).free = s.free := by
  have hF0 := @State.meetErrs_frame
  unfold State.meetShard; simp [hF0]

theorem State.digestShards_frame (handle : Nat) (x0 : List Nat) (x1 : State) :
    (State.digestShards handle x0 x1).now = x1.now ∧
    (State.digestShards handle x0 x1).pending = x1.pending ∧ (State.digestShards handle x0 x1).tb = x1.tb ∧
    (State.digestShards handle x0 x1).sheets = x1.sheets ∧
    (State.digestShards handle x0 x1).units = x1.units ∧ (State.digestShards handle x0 x1).pins = x1.pins ∧
    (State.digestShards handle x0 x1).pk = x1.pk ∧ (State.digestShards handle x0 x1).errw = x1.errw ∧
    (State.digestShards handle x0 x1).bulk = x1.bulk ∧ (State.digestShards handle x0 x1).mgmt = x1.mgmt ∧
    (State.digestShards handle x0 x1).power = x1.power ∧ (State.digestShards handle x0 x1).sec = x1.sec ∧
    (State.digestShards handle x0 x1).therm = x1.therm ∧
    (State.digestShards handle x0 x1).ports = x1.ports ∧
    (State.digestShards handle x0 x1).streams = x1.streams ∧
    (State.digestShards handle x0 x1).services = x1.services ∧
    (State.digestShards handle x0 x1).ptpPorts = x1.ptpPorts ∧
    (State.digestShards handle x0 x1).ptp = x1.ptp ∧ (State.digestShards handle x0 x1).chans = x1.chans ∧
    (State.digestShards handle x0 x1).seqs = x1.seqs ∧ (State.digestShards handle x0 x1).hc = x1.hc ∧
    (State.digestShards handle x0 x1).trim = x1.trim ∧ (State.digestShards handle x0 x1).slots = x1.slots ∧
    (State.digestShards handle x0 x1).mem = x1.mem ∧ (State.digestShards handle x0 x1).fwMem = x1.fwMem ∧
    (State.digestShards handle x0 x1).pricks = x1.pricks ∧
    (State.digestShards handle x0 x1).templates = x1.templates ∧
    (State.digestShards handle x0 x1).jobs = x1.jobs ∧ (State.digestShards handle x0 x1).order = x1.order ∧
    (State.digestShards handle x0 x1).free = x1.free := by
  have hF0 := @State.markStale_frame
  have hF1 := @State.meetShard_frame
  induction x0 generalizing x1 with
  | nil => simp [State.digestShards]
  | cons i r ih =>
    unfold State.digestShards
    dsimp only
    split <;> simp [ih, hF0, hF1]

theorem State.bindPending_frame (p : Nat) (sheet : Option Nat) (s : State) :
    (State.bindPending p sheet s).now = s.now ∧ (State.bindPending p sheet s).pending = s.pending ∧
    (State.bindPending p sheet s).tb = s.tb ∧ (State.bindPending p sheet s).sheets = s.sheets ∧
    (State.bindPending p sheet s).units = s.units ∧ (State.bindPending p sheet s).pins = s.pins ∧
    (State.bindPending p sheet s).pk = s.pk ∧ (State.bindPending p sheet s).queues = s.queues ∧
    (State.bindPending p sheet s).latches = s.latches ∧ (State.bindPending p sheet s).errw = s.errw ∧
    (State.bindPending p sheet s).sdio = s.sdio ∧ (State.bindPending p sheet s).bulk = s.bulk ∧
    (State.bindPending p sheet s).mgmt = s.mgmt ∧ (State.bindPending p sheet s).power = s.power ∧
    (State.bindPending p sheet s).sec = s.sec ∧ (State.bindPending p sheet s).therm = s.therm ∧
    (State.bindPending p sheet s).ports = s.ports ∧ (State.bindPending p sheet s).streams = s.streams ∧
    (State.bindPending p sheet s).services = s.services ∧
    (State.bindPending p sheet s).ptpPorts = s.ptpPorts ∧ (State.bindPending p sheet s).ptp = s.ptp ∧
    (State.bindPending p sheet s).chans = s.chans ∧ (State.bindPending p sheet s).seqs = s.seqs ∧
    (State.bindPending p sheet s).hc = s.hc ∧ (State.bindPending p sheet s).trim = s.trim ∧
    (State.bindPending p sheet s).bundles = s.bundles ∧ (State.bindPending p sheet s).slots = s.slots ∧
    (State.bindPending p sheet s).wt = s.wt ∧ (State.bindPending p sheet s).mem = s.mem ∧
    (State.bindPending p sheet s).fwMem = s.fwMem ∧ (State.bindPending p sheet s).ms = s.ms ∧
    (State.bindPending p sheet s).pricks = s.pricks ∧
    (State.bindPending p sheet s).templates = s.templates ∧ (State.bindPending p sheet s).jobs = s.jobs ∧
    (State.bindPending p sheet s).order = s.order ∧ (State.bindPending p sheet s).free = s.free := by
  have hF0 := @State.setPillow_frame
  unfold State.bindPending; simp [hF0]

theorem State.swapIn_frame (p : Nat) (retire : Bool) (s : State) : (State.swapIn p retire s).now = s.now ∧
    (State.swapIn p retire s).pending = s.pending ∧ (State.swapIn p retire s).tb = s.tb ∧
    (State.swapIn p retire s).sheets = s.sheets ∧ (State.swapIn p retire s).units = s.units ∧
    (State.swapIn p retire s).pins = s.pins ∧ (State.swapIn p retire s).pk = s.pk ∧
    (State.swapIn p retire s).queues = s.queues ∧ (State.swapIn p retire s).latches = s.latches ∧
    (State.swapIn p retire s).errw = s.errw ∧ (State.swapIn p retire s).sdio = s.sdio ∧
    (State.swapIn p retire s).bulk = s.bulk ∧ (State.swapIn p retire s).mgmt = s.mgmt ∧
    (State.swapIn p retire s).power = s.power ∧ (State.swapIn p retire s).sec = s.sec ∧
    (State.swapIn p retire s).therm = s.therm ∧ (State.swapIn p retire s).ports = s.ports ∧
    (State.swapIn p retire s).streams = s.streams ∧ (State.swapIn p retire s).services = s.services ∧
    (State.swapIn p retire s).ptpPorts = s.ptpPorts ∧ (State.swapIn p retire s).ptp = s.ptp ∧
    (State.swapIn p retire s).chans = s.chans ∧ (State.swapIn p retire s).seqs = s.seqs ∧
    (State.swapIn p retire s).hc = s.hc ∧ (State.swapIn p retire s).trim = s.trim ∧
    (State.swapIn p retire s).bundles = s.bundles ∧ (State.swapIn p retire s).slots = s.slots ∧
    (State.swapIn p retire s).wt = s.wt ∧ (State.swapIn p retire s).mem = s.mem ∧
    (State.swapIn p retire s).fwMem = s.fwMem ∧ (State.swapIn p retire s).ms = s.ms ∧
    (State.swapIn p retire s).pricks = s.pricks ∧ (State.swapIn p retire s).templates = s.templates ∧
    (State.swapIn p retire s).jobs = s.jobs ∧ (State.swapIn p retire s).order = s.order ∧
    (State.swapIn p retire s).free = s.free := by
  have hF0 := @State.setBobbin_frame
  have hF1 := @State.setPillow_frame
  unfold State.swapIn; dsimp only; (repeat' split) <;> simp [hF0, hF1]

theorem State.retireEnd_frame (p : Nat) (s : State) : (State.retireEnd p s).now = s.now ∧
    (State.retireEnd p s).pending = s.pending ∧ (State.retireEnd p s).tb = s.tb ∧
    (State.retireEnd p s).sheets = s.sheets ∧ (State.retireEnd p s).units = s.units ∧
    (State.retireEnd p s).pins = s.pins ∧ (State.retireEnd p s).pk = s.pk ∧
    (State.retireEnd p s).queues = s.queues ∧ (State.retireEnd p s).latches = s.latches ∧
    (State.retireEnd p s).errw = s.errw ∧ (State.retireEnd p s).sdio = s.sdio ∧
    (State.retireEnd p s).bulk = s.bulk ∧ (State.retireEnd p s).mgmt = s.mgmt ∧
    (State.retireEnd p s).power = s.power ∧ (State.retireEnd p s).sec = s.sec ∧
    (State.retireEnd p s).therm = s.therm ∧ (State.retireEnd p s).ports = s.ports ∧
    (State.retireEnd p s).streams = s.streams ∧ (State.retireEnd p s).services = s.services ∧
    (State.retireEnd p s).ptpPorts = s.ptpPorts ∧ (State.retireEnd p s).ptp = s.ptp ∧
    (State.retireEnd p s).chans = s.chans ∧ (State.retireEnd p s).seqs = s.seqs ∧
    (State.retireEnd p s).hc = s.hc ∧ (State.retireEnd p s).trim = s.trim ∧
    (State.retireEnd p s).bundles = s.bundles ∧ (State.retireEnd p s).slots = s.slots ∧
    (State.retireEnd p s).wt = s.wt ∧ (State.retireEnd p s).mem = s.mem ∧
    (State.retireEnd p s).fwMem = s.fwMem ∧ (State.retireEnd p s).ms = s.ms ∧
    (State.retireEnd p s).pricks = s.pricks ∧ (State.retireEnd p s).templates = s.templates ∧
    (State.retireEnd p s).jobs = s.jobs ∧ (State.retireEnd p s).order = s.order ∧
    (State.retireEnd p s).free = s.free := by
  have hF0 := @State.modBobbin_frame
  have hF1 := @State.setPillow_frame
  unfold State.retireEnd; dsimp only; (repeat' split) <;> simp [hF0, hF1]

theorem State.releaseTrims_frame (p : Nat) (s : State) : (State.releaseTrims p s).now = s.now ∧
    (State.releaseTrims p s).pending = s.pending ∧ (State.releaseTrims p s).tb = s.tb ∧
    (State.releaseTrims p s).sheets = s.sheets ∧ (State.releaseTrims p s).units = s.units ∧
    (State.releaseTrims p s).pins = s.pins ∧ (State.releaseTrims p s).pk = s.pk ∧
    (State.releaseTrims p s).queues = s.queues ∧ (State.releaseTrims p s).latches = s.latches ∧
    (State.releaseTrims p s).errw = s.errw ∧ (State.releaseTrims p s).sdio = s.sdio ∧
    (State.releaseTrims p s).bulk = s.bulk ∧ (State.releaseTrims p s).power = s.power ∧
    (State.releaseTrims p s).sec = s.sec ∧ (State.releaseTrims p s).therm = s.therm ∧
    (State.releaseTrims p s).ports = s.ports ∧ (State.releaseTrims p s).streams = s.streams ∧
    (State.releaseTrims p s).services = s.services ∧ (State.releaseTrims p s).ptpPorts = s.ptpPorts ∧
    (State.releaseTrims p s).ptp = s.ptp ∧ (State.releaseTrims p s).chans = s.chans ∧
    (State.releaseTrims p s).seqs = s.seqs ∧ (State.releaseTrims p s).hc = s.hc ∧
    (State.releaseTrims p s).trim = s.trim ∧ (State.releaseTrims p s).bundles = s.bundles ∧
    (State.releaseTrims p s).slots = s.slots ∧ (State.releaseTrims p s).wt = s.wt ∧
    (State.releaseTrims p s).mem = s.mem ∧ (State.releaseTrims p s).fwMem = s.fwMem ∧
    (State.releaseTrims p s).ms = s.ms ∧ (State.releaseTrims p s).pricks = s.pricks ∧
    (State.releaseTrims p s).templates = s.templates ∧ (State.releaseTrims p s).jobs = s.jobs ∧
    (State.releaseTrims p s).order = s.order ∧ (State.releaseTrims p s).free = s.free := by
  have hF0 := @State.setBobbin_frame
  unfold State.releaseTrims; exact foldl_keeps (fun z : State => z.now = s.now ∧ z.pending = s.pending ∧ z.tb = s.tb ∧ z.sheets = s.sheets ∧ z.units = s.units ∧ z.pins = s.pins ∧ z.pk = s.pk ∧ z.queues = s.queues ∧ z.latches = s.latches ∧ z.errw = s.errw ∧ z.sdio = s.sdio ∧ z.bulk = s.bulk ∧ z.power = s.power ∧ z.sec = s.sec ∧ z.therm = s.therm ∧ z.ports = s.ports ∧ z.streams = s.streams ∧ z.services = s.services ∧ z.ptpPorts = s.ptpPorts ∧ z.ptp = s.ptp ∧ z.chans = s.chans ∧ z.seqs = s.seqs ∧ z.hc = s.hc ∧ z.trim = s.trim ∧ z.bundles = s.bundles ∧ z.slots = s.slots ∧ z.wt = s.wt ∧ z.mem = s.mem ∧ z.fwMem = s.fwMem ∧ z.ms = s.ms ∧ z.pricks = s.pricks ∧ z.templates = s.templates ∧ z.jobs = s.jobs ∧ z.order = s.order ∧ z.free = s.free) _ _ _ (by simp) (by
    intro t b ht
    dsimp only
    (repeat' split) <;> simp [hF0, ht])

theorem State.idleAdopt_frame (p : Nat) (s : State) : (State.idleAdopt p s).now = s.now ∧
    (State.idleAdopt p s).pending = s.pending ∧ (State.idleAdopt p s).tb = s.tb ∧
    (State.idleAdopt p s).sheets = s.sheets ∧ (State.idleAdopt p s).units = s.units ∧
    (State.idleAdopt p s).pins = s.pins ∧ (State.idleAdopt p s).pk = s.pk ∧
    (State.idleAdopt p s).queues = s.queues ∧ (State.idleAdopt p s).latches = s.latches ∧
    (State.idleAdopt p s).errw = s.errw ∧ (State.idleAdopt p s).sdio = s.sdio ∧
    (State.idleAdopt p s).bulk = s.bulk ∧ (State.idleAdopt p s).mgmt = s.mgmt ∧
    (State.idleAdopt p s).power = s.power ∧ (State.idleAdopt p s).sec = s.sec ∧
    (State.idleAdopt p s).therm = s.therm ∧ (State.idleAdopt p s).ports = s.ports ∧
    (State.idleAdopt p s).streams = s.streams ∧ (State.idleAdopt p s).services = s.services ∧
    (State.idleAdopt p s).ptpPorts = s.ptpPorts ∧ (State.idleAdopt p s).ptp = s.ptp ∧
    (State.idleAdopt p s).chans = s.chans ∧ (State.idleAdopt p s).seqs = s.seqs ∧
    (State.idleAdopt p s).hc = s.hc ∧ (State.idleAdopt p s).trim = s.trim ∧
    (State.idleAdopt p s).bundles = s.bundles ∧ (State.idleAdopt p s).slots = s.slots ∧
    (State.idleAdopt p s).wt = s.wt ∧ (State.idleAdopt p s).mem = s.mem ∧
    (State.idleAdopt p s).fwMem = s.fwMem ∧ (State.idleAdopt p s).ms = s.ms ∧
    (State.idleAdopt p s).pricks = s.pricks ∧ (State.idleAdopt p s).templates = s.templates ∧
    (State.idleAdopt p s).jobs = s.jobs ∧ (State.idleAdopt p s).order = s.order ∧
    (State.idleAdopt p s).free = s.free := by
  have hF0 := @State.swapIn_frame
  have hF1 := @State.bindPending_frame
  have hF2 := @State.setBobbin_frame
  unfold State.idleAdopt; simp [hF0, hF1, hF2]

theorem State.settle_frame (p : Nat) (s : State) : (State.settle p s).now = s.now ∧
    (State.settle p s).pending = s.pending ∧ (State.settle p s).tb = s.tb ∧
    (State.settle p s).sheets = s.sheets ∧ (State.settle p s).units = s.units ∧
    (State.settle p s).pins = s.pins ∧ (State.settle p s).pk = s.pk ∧ (State.settle p s).queues = s.queues ∧
    (State.settle p s).latches = s.latches ∧ (State.settle p s).errw = s.errw ∧
    (State.settle p s).sdio = s.sdio ∧ (State.settle p s).bulk = s.bulk ∧
    (State.settle p s).power = s.power ∧ (State.settle p s).sec = s.sec ∧
    (State.settle p s).therm = s.therm ∧ (State.settle p s).ports = s.ports ∧
    (State.settle p s).streams = s.streams ∧ (State.settle p s).services = s.services ∧
    (State.settle p s).ptpPorts = s.ptpPorts ∧ (State.settle p s).ptp = s.ptp ∧
    (State.settle p s).chans = s.chans ∧ (State.settle p s).seqs = s.seqs ∧ (State.settle p s).hc = s.hc ∧
    (State.settle p s).trim = s.trim ∧ (State.settle p s).bundles = s.bundles ∧
    (State.settle p s).slots = s.slots ∧ (State.settle p s).wt = s.wt ∧ (State.settle p s).mem = s.mem ∧
    (State.settle p s).fwMem = s.fwMem ∧ (State.settle p s).ms = s.ms ∧
    (State.settle p s).pricks = s.pricks ∧ (State.settle p s).templates = s.templates ∧
    (State.settle p s).jobs = s.jobs ∧ (State.settle p s).order = s.order ∧
    (State.settle p s).free = s.free := by
  have hF0 := @State.idleAdopt_frame
  have hF1 := @State.releaseTrims_frame
  have hF2 := @State.retireEnd_frame
  unfold State.settle; simp [hF0, hF1, hF2]

theorem State.loseSpare_frame (p : Nat) (phys : Nat) (cause : Nat) (s : State) :
    (State.loseSpare p phys cause s).now = s.now ∧ (State.loseSpare p phys cause s).pending = s.pending ∧
    (State.loseSpare p phys cause s).tb = s.tb ∧ (State.loseSpare p phys cause s).sheets = s.sheets ∧
    (State.loseSpare p phys cause s).units = s.units ∧ (State.loseSpare p phys cause s).pins = s.pins ∧
    (State.loseSpare p phys cause s).pk = s.pk ∧ (State.loseSpare p phys cause s).errw = s.errw ∧
    (State.loseSpare p phys cause s).bulk = s.bulk ∧ (State.loseSpare p phys cause s).mgmt = s.mgmt ∧
    (State.loseSpare p phys cause s).power = s.power ∧ (State.loseSpare p phys cause s).sec = s.sec ∧
    (State.loseSpare p phys cause s).therm = s.therm ∧ (State.loseSpare p phys cause s).ports = s.ports ∧
    (State.loseSpare p phys cause s).streams = s.streams ∧
    (State.loseSpare p phys cause s).services = s.services ∧
    (State.loseSpare p phys cause s).ptpPorts = s.ptpPorts ∧ (State.loseSpare p phys cause s).ptp = s.ptp ∧
    (State.loseSpare p phys cause s).chans = s.chans ∧ (State.loseSpare p phys cause s).seqs = s.seqs ∧
    (State.loseSpare p phys cause s).hc = s.hc ∧ (State.loseSpare p phys cause s).trim = s.trim ∧
    (State.loseSpare p phys cause s).bundles = s.bundles ∧
    (State.loseSpare p phys cause s).slots = s.slots ∧ (State.loseSpare p phys cause s).wt = s.wt ∧
    (State.loseSpare p phys cause s).mem = s.mem ∧ (State.loseSpare p phys cause s).fwMem = s.fwMem ∧
    (State.loseSpare p phys cause s).ms = s.ms ∧ (State.loseSpare p phys cause s).pricks = s.pricks ∧
    (State.loseSpare p phys cause s).templates = s.templates ∧
    (State.loseSpare p phys cause s).jobs = s.jobs ∧ (State.loseSpare p phys cause s).order = s.order ∧
    (State.loseSpare p phys cause s).free = s.free := by
  have hF0 := @State.report_frame
  have hF1 := @State.setPillow_frame
  unfold State.loseSpare; simp [hF0, hF1]

theorem State.regainSpare_frame (p : Nat) (s : State) : (State.regainSpare p s).now = s.now ∧
    (State.regainSpare p s).pending = s.pending ∧ (State.regainSpare p s).tb = s.tb ∧
    (State.regainSpare p s).sheets = s.sheets ∧ (State.regainSpare p s).units = s.units ∧
    (State.regainSpare p s).pins = s.pins ∧ (State.regainSpare p s).pk = s.pk ∧
    (State.regainSpare p s).queues = s.queues ∧ (State.regainSpare p s).latches = s.latches ∧
    (State.regainSpare p s).errw = s.errw ∧ (State.regainSpare p s).sdio = s.sdio ∧
    (State.regainSpare p s).bulk = s.bulk ∧ (State.regainSpare p s).mgmt = s.mgmt ∧
    (State.regainSpare p s).power = s.power ∧ (State.regainSpare p s).sec = s.sec ∧
    (State.regainSpare p s).therm = s.therm ∧ (State.regainSpare p s).ports = s.ports ∧
    (State.regainSpare p s).streams = s.streams ∧ (State.regainSpare p s).services = s.services ∧
    (State.regainSpare p s).ptpPorts = s.ptpPorts ∧ (State.regainSpare p s).ptp = s.ptp ∧
    (State.regainSpare p s).chans = s.chans ∧ (State.regainSpare p s).seqs = s.seqs ∧
    (State.regainSpare p s).hc = s.hc ∧ (State.regainSpare p s).trim = s.trim ∧
    (State.regainSpare p s).bundles = s.bundles ∧ (State.regainSpare p s).slots = s.slots ∧
    (State.regainSpare p s).wt = s.wt ∧ (State.regainSpare p s).mem = s.mem ∧
    (State.regainSpare p s).fwMem = s.fwMem ∧ (State.regainSpare p s).ms = s.ms ∧
    (State.regainSpare p s).pricks = s.pricks ∧ (State.regainSpare p s).templates = s.templates ∧
    (State.regainSpare p s).jobs = s.jobs ∧ (State.regainSpare p s).order = s.order ∧
    (State.regainSpare p s).free = s.free := by
  have hF0 := @State.modBobbin_frame
  have hF1 := @State.setPillow_frame
  unfold State.regainSpare; dsimp only; (repeat' split) <;> simp [hF0, hF1]

theorem State.requestRefresh_frame (p : Nat) (q : RefreshReq) (s : State) :
    (State.requestRefresh p q s).now = s.now ∧ (State.requestRefresh p q s).pending = s.pending ∧
    (State.requestRefresh p q s).tb = s.tb ∧ (State.requestRefresh p q s).sheets = s.sheets ∧
    (State.requestRefresh p q s).units = s.units ∧ (State.requestRefresh p q s).pins = s.pins ∧
    (State.requestRefresh p q s).pk = s.pk ∧ (State.requestRefresh p q s).queues = s.queues ∧
    (State.requestRefresh p q s).latches = s.latches ∧ (State.requestRefresh p q s).errw = s.errw ∧
    (State.requestRefresh p q s).sdio = s.sdio ∧ (State.requestRefresh p q s).bulk = s.bulk ∧
    (State.requestRefresh p q s).mgmt = s.mgmt ∧ (State.requestRefresh p q s).power = s.power ∧
    (State.requestRefresh p q s).sec = s.sec ∧ (State.requestRefresh p q s).therm = s.therm ∧
    (State.requestRefresh p q s).ports = s.ports ∧ (State.requestRefresh p q s).streams = s.streams ∧
    (State.requestRefresh p q s).services = s.services ∧
    (State.requestRefresh p q s).ptpPorts = s.ptpPorts ∧ (State.requestRefresh p q s).ptp = s.ptp ∧
    (State.requestRefresh p q s).chans = s.chans ∧ (State.requestRefresh p q s).seqs = s.seqs ∧
    (State.requestRefresh p q s).hc = s.hc ∧ (State.requestRefresh p q s).trim = s.trim ∧
    (State.requestRefresh p q s).bundles = s.bundles ∧ (State.requestRefresh p q s).slots = s.slots ∧
    (State.requestRefresh p q s).wt = s.wt ∧ (State.requestRefresh p q s).mem = s.mem ∧
    (State.requestRefresh p q s).fwMem = s.fwMem ∧ (State.requestRefresh p q s).ms = s.ms ∧
    (State.requestRefresh p q s).pricks = s.pricks ∧ (State.requestRefresh p q s).templates = s.templates ∧
    (State.requestRefresh p q s).jobs = s.jobs ∧ (State.requestRefresh p q s).order = s.order ∧
    (State.requestRefresh p q s).free = s.free := by
  have hF0 := @State.modPillow_frame
  unfold State.requestRefresh; simp [hF0]

theorem State.dropRequests_frame (p : Nat) (s : State) : (State.dropRequests p s).now = s.now ∧
    (State.dropRequests p s).pending = s.pending ∧ (State.dropRequests p s).tb = s.tb ∧
    (State.dropRequests p s).sheets = s.sheets ∧ (State.dropRequests p s).units = s.units ∧
    (State.dropRequests p s).pins = s.pins ∧ (State.dropRequests p s).pk = s.pk ∧
    (State.dropRequests p s).queues = s.queues ∧ (State.dropRequests p s).latches = s.latches ∧
    (State.dropRequests p s).errw = s.errw ∧ (State.dropRequests p s).sdio = s.sdio ∧
    (State.dropRequests p s).bulk = s.bulk ∧ (State.dropRequests p s).mgmt = s.mgmt ∧
    (State.dropRequests p s).power = s.power ∧ (State.dropRequests p s).sec = s.sec ∧
    (State.dropRequests p s).therm = s.therm ∧ (State.dropRequests p s).ports = s.ports ∧
    (State.dropRequests p s).streams = s.streams ∧ (State.dropRequests p s).services = s.services ∧
    (State.dropRequests p s).ptpPorts = s.ptpPorts ∧ (State.dropRequests p s).ptp = s.ptp ∧
    (State.dropRequests p s).chans = s.chans ∧ (State.dropRequests p s).seqs = s.seqs ∧
    (State.dropRequests p s).hc = s.hc ∧ (State.dropRequests p s).trim = s.trim ∧
    (State.dropRequests p s).bundles = s.bundles ∧ (State.dropRequests p s).slots = s.slots ∧
    (State.dropRequests p s).wt = s.wt ∧ (State.dropRequests p s).mem = s.mem ∧
    (State.dropRequests p s).fwMem = s.fwMem ∧ (State.dropRequests p s).ms = s.ms ∧
    (State.dropRequests p s).pricks = s.pricks ∧ (State.dropRequests p s).templates = s.templates ∧
    (State.dropRequests p s).jobs = s.jobs ∧ (State.dropRequests p s).order = s.order ∧
    (State.dropRequests p s).free = s.free := by
  have hF0 := @State.modPillow_frame
  unfold State.dropRequests; simp [hF0]

theorem State.refreshBegin_frame (p : Nat) (s : State) : (State.refreshBegin p s).now = s.now ∧
    (State.refreshBegin p s).pending = s.pending ∧ (State.refreshBegin p s).tb = s.tb ∧
    (State.refreshBegin p s).sheets = s.sheets ∧ (State.refreshBegin p s).units = s.units ∧
    (State.refreshBegin p s).pins = s.pins ∧ (State.refreshBegin p s).pk = s.pk ∧
    (State.refreshBegin p s).errw = s.errw ∧ (State.refreshBegin p s).bulk = s.bulk ∧
    (State.refreshBegin p s).mgmt = s.mgmt ∧ (State.refreshBegin p s).power = s.power ∧
    (State.refreshBegin p s).sec = s.sec ∧ (State.refreshBegin p s).therm = s.therm ∧
    (State.refreshBegin p s).ports = s.ports ∧ (State.refreshBegin p s).streams = s.streams ∧
    (State.refreshBegin p s).services = s.services ∧ (State.refreshBegin p s).ptpPorts = s.ptpPorts ∧
    (State.refreshBegin p s).ptp = s.ptp ∧ (State.refreshBegin p s).chans = s.chans ∧
    (State.refreshBegin p s).seqs = s.seqs ∧ (State.refreshBegin p s).hc = s.hc ∧
    (State.refreshBegin p s).trim = s.trim ∧ (State.refreshBegin p s).slots = s.slots ∧
    (State.refreshBegin p s).mem = s.mem ∧ (State.refreshBegin p s).fwMem = s.fwMem ∧
    (State.refreshBegin p s).pricks = s.pricks ∧ (State.refreshBegin p s).templates = s.templates ∧
    (State.refreshBegin p s).jobs = s.jobs ∧ (State.refreshBegin p s).order = s.order ∧
    (State.refreshBegin p s).free = s.free := by
  have hF0 := @State.dropRequests_frame
  have hF1 := @State.modPillow_frame
  have hF2 := @State.digestShards_frame
  unfold State.refreshBegin; dsimp only; (repeat' split) <;> simp [hF0, hF1, hF2]

theorem State.slotFailed_frame (n : Nat) (p : Nat) (b : Nat) (s : State) :
    (State.slotFailed n p b s).now = s.now ∧ (State.slotFailed n p b s).pending = s.pending ∧
    (State.slotFailed n p b s).tb = s.tb ∧ (State.slotFailed n p b s).sheets = s.sheets ∧
    (State.slotFailed n p b s).units = s.units ∧ (State.slotFailed n p b s).pins = s.pins ∧
    (State.slotFailed n p b s).pk = s.pk ∧ (State.slotFailed n p b s).queues = s.queues ∧
    (State.slotFailed n p b s).latches = s.latches ∧ (State.slotFailed n p b s).errw = s.errw ∧
    (State.slotFailed n p b s).sdio = s.sdio ∧ (State.slotFailed n p b s).bulk = s.bulk ∧
    (State.slotFailed n p b s).mgmt = s.mgmt ∧ (State.slotFailed n p b s).power = s.power ∧
    (State.slotFailed n p b s).sec = s.sec ∧ (State.slotFailed n p b s).therm = s.therm ∧
    (State.slotFailed n p b s).ports = s.ports ∧ (State.slotFailed n p b s).streams = s.streams ∧
    (State.slotFailed n p b s).services = s.services ∧ (State.slotFailed n p b s).ptpPorts = s.ptpPorts ∧
    (State.slotFailed n p b s).ptp = s.ptp ∧ (State.slotFailed n p b s).chans = s.chans ∧
    (State.slotFailed n p b s).seqs = s.seqs ∧ (State.slotFailed n p b s).hc = s.hc ∧
    (State.slotFailed n p b s).trim = s.trim ∧ (State.slotFailed n p b s).bundles = s.bundles ∧
    (State.slotFailed n p b s).wt = s.wt ∧ (State.slotFailed n p b s).mem = s.mem ∧
    (State.slotFailed n p b s).fwMem = s.fwMem ∧ (State.slotFailed n p b s).ms = s.ms ∧
    (State.slotFailed n p b s).pricks = s.pricks ∧ (State.slotFailed n p b s).templates = s.templates ∧
    (State.slotFailed n p b s).jobs = s.jobs ∧ (State.slotFailed n p b s).order = s.order ∧
    (State.slotFailed n p b s).pillows = s.pillows ∧ (State.slotFailed n p b s).free = s.free := by
  have hF0 := @State.modSlot_frame
  unfold State.slotFailed; simp [hF0]

theorem State.progRefused_frame (p : Nat) (q : ProgReq) (s : State) :
    (State.progRefused p q s).now = s.now ∧ (State.progRefused p q s).pending = s.pending ∧
    (State.progRefused p q s).tb = s.tb ∧ (State.progRefused p q s).sheets = s.sheets ∧
    (State.progRefused p q s).units = s.units ∧ (State.progRefused p q s).pins = s.pins ∧
    (State.progRefused p q s).pk = s.pk ∧ (State.progRefused p q s).queues = s.queues ∧
    (State.progRefused p q s).latches = s.latches ∧ (State.progRefused p q s).errw = s.errw ∧
    (State.progRefused p q s).sdio = s.sdio ∧ (State.progRefused p q s).bulk = s.bulk ∧
    (State.progRefused p q s).mgmt = s.mgmt ∧ (State.progRefused p q s).power = s.power ∧
    (State.progRefused p q s).sec = s.sec ∧ (State.progRefused p q s).therm = s.therm ∧
    (State.progRefused p q s).ports = s.ports ∧ (State.progRefused p q s).streams = s.streams ∧
    (State.progRefused p q s).services = s.services ∧ (State.progRefused p q s).ptpPorts = s.ptpPorts ∧
    (State.progRefused p q s).ptp = s.ptp ∧ (State.progRefused p q s).chans = s.chans ∧
    (State.progRefused p q s).seqs = s.seqs ∧ (State.progRefused p q s).hc = s.hc ∧
    (State.progRefused p q s).trim = s.trim ∧ (State.progRefused p q s).bundles = s.bundles ∧
    (State.progRefused p q s).wt = s.wt ∧ (State.progRefused p q s).mem = s.mem ∧
    (State.progRefused p q s).fwMem = s.fwMem ∧ (State.progRefused p q s).ms = s.ms ∧
    (State.progRefused p q s).pricks = s.pricks ∧ (State.progRefused p q s).templates = s.templates ∧
    (State.progRefused p q s).jobs = s.jobs ∧ (State.progRefused p q s).order = s.order ∧
    (State.progRefused p q s).free = s.free := by
  have hF0 := @State.modSlot_frame
  have hF1 := @State.modPillow_frame
  have hF2 := @State.slotFailed_frame
  unfold State.progRefused; dsimp only; (repeat' split) <;> simp [hF0, hF1, hF2]

theorem State.reportLife_frame (p : Nat) (b : Nat) (s : State) : (State.reportLife p b s).now = s.now ∧
    (State.reportLife p b s).pending = s.pending ∧ (State.reportLife p b s).tb = s.tb ∧
    (State.reportLife p b s).sheets = s.sheets ∧ (State.reportLife p b s).units = s.units ∧
    (State.reportLife p b s).pins = s.pins ∧ (State.reportLife p b s).pk = s.pk ∧
    (State.reportLife p b s).errw = s.errw ∧ (State.reportLife p b s).bulk = s.bulk ∧
    (State.reportLife p b s).mgmt = s.mgmt ∧ (State.reportLife p b s).power = s.power ∧
    (State.reportLife p b s).sec = s.sec ∧ (State.reportLife p b s).therm = s.therm ∧
    (State.reportLife p b s).ports = s.ports ∧ (State.reportLife p b s).streams = s.streams ∧
    (State.reportLife p b s).services = s.services ∧ (State.reportLife p b s).ptpPorts = s.ptpPorts ∧
    (State.reportLife p b s).ptp = s.ptp ∧ (State.reportLife p b s).chans = s.chans ∧
    (State.reportLife p b s).seqs = s.seqs ∧ (State.reportLife p b s).hc = s.hc ∧
    (State.reportLife p b s).trim = s.trim ∧ (State.reportLife p b s).bundles = s.bundles ∧
    (State.reportLife p b s).slots = s.slots ∧ (State.reportLife p b s).wt = s.wt ∧
    (State.reportLife p b s).mem = s.mem ∧ (State.reportLife p b s).fwMem = s.fwMem ∧
    (State.reportLife p b s).ms = s.ms ∧ (State.reportLife p b s).pricks = s.pricks ∧
    (State.reportLife p b s).templates = s.templates ∧ (State.reportLife p b s).jobs = s.jobs ∧
    (State.reportLife p b s).order = s.order ∧ (State.reportLife p b s).pillows = s.pillows ∧
    (State.reportLife p b s).free = s.free := by
  have hF0 := @State.report_frame
  unfold State.reportLife; simp [hF0]

theorem State.restoreGuarantee_frame (p : Nat) (slot : Nat) (s : State) :
    (State.restoreGuarantee p slot s).now = s.now ∧ (State.restoreGuarantee p slot s).pending = s.pending ∧
    (State.restoreGuarantee p slot s).tb = s.tb ∧ (State.restoreGuarantee p slot s).sheets = s.sheets ∧
    (State.restoreGuarantee p slot s).units = s.units ∧ (State.restoreGuarantee p slot s).pins = s.pins ∧
    (State.restoreGuarantee p slot s).pk = s.pk ∧ (State.restoreGuarantee p slot s).errw = s.errw ∧
    (State.restoreGuarantee p slot s).bulk = s.bulk ∧ (State.restoreGuarantee p slot s).mgmt = s.mgmt ∧
    (State.restoreGuarantee p slot s).power = s.power ∧ (State.restoreGuarantee p slot s).sec = s.sec ∧
    (State.restoreGuarantee p slot s).therm = s.therm ∧ (State.restoreGuarantee p slot s).ports = s.ports ∧
    (State.restoreGuarantee p slot s).streams = s.streams ∧
    (State.restoreGuarantee p slot s).services = s.services ∧
    (State.restoreGuarantee p slot s).ptpPorts = s.ptpPorts ∧
    (State.restoreGuarantee p slot s).ptp = s.ptp ∧ (State.restoreGuarantee p slot s).chans = s.chans ∧
    (State.restoreGuarantee p slot s).seqs = s.seqs ∧ (State.restoreGuarantee p slot s).hc = s.hc ∧
    (State.restoreGuarantee p slot s).trim = s.trim ∧
    (State.restoreGuarantee p slot s).bundles = s.bundles ∧
    (State.restoreGuarantee p slot s).slots = s.slots ∧ (State.restoreGuarantee p slot s).wt = s.wt ∧
    (State.restoreGuarantee p slot s).mem = s.mem ∧ (State.restoreGuarantee p slot s).fwMem = s.fwMem ∧
    (State.restoreGuarantee p slot s).ms = s.ms ∧ (State.restoreGuarantee p slot s).pricks = s.pricks ∧
    (State.restoreGuarantee p slot s).templates = s.templates ∧
    (State.restoreGuarantee p slot s).jobs = s.jobs ∧ (State.restoreGuarantee p slot s).order = s.order ∧
    (State.restoreGuarantee p slot s).pillows = s.pillows ∧
    (State.restoreGuarantee p slot s).free = s.free := by
  have hF0 := @State.guarantee_frame
  unfold State.restoreGuarantee; (repeat' split) <;> simp [hF0]

theorem State.refreshDone_frame (p : Nat) (q : RefreshReq) (b : Nat) (s : State) :
    (State.refreshDone p q b s).now = s.now ∧ (State.refreshDone p q b s).pending = s.pending ∧
    (State.refreshDone p q b s).tb = s.tb ∧ (State.refreshDone p q b s).sheets = s.sheets ∧
    (State.refreshDone p q b s).units = s.units ∧ (State.refreshDone p q b s).pins = s.pins ∧
    (State.refreshDone p q b s).pk = s.pk ∧ (State.refreshDone p q b s).errw = s.errw ∧
    (State.refreshDone p q b s).bulk = s.bulk ∧ (State.refreshDone p q b s).mgmt = s.mgmt ∧
    (State.refreshDone p q b s).power = s.power ∧ (State.refreshDone p q b s).sec = s.sec ∧
    (State.refreshDone p q b s).therm = s.therm ∧ (State.refreshDone p q b s).ports = s.ports ∧
    (State.refreshDone p q b s).streams = s.streams ∧ (State.refreshDone p q b s).services = s.services ∧
    (State.refreshDone p q b s).ptpPorts = s.ptpPorts ∧ (State.refreshDone p q b s).ptp = s.ptp ∧
    (State.refreshDone p q b s).chans = s.chans ∧ (State.refreshDone p q b s).seqs = s.seqs ∧
    (State.refreshDone p q b s).hc = s.hc ∧ (State.refreshDone p q b s).trim = s.trim ∧
    (State.refreshDone p q b s).bundles = s.bundles ∧ (State.refreshDone p q b s).slots = s.slots ∧
    (State.refreshDone p q b s).wt = s.wt ∧ (State.refreshDone p q b s).mem = s.mem ∧
    (State.refreshDone p q b s).fwMem = s.fwMem ∧ (State.refreshDone p q b s).ms = s.ms ∧
    (State.refreshDone p q b s).pricks = s.pricks ∧ (State.refreshDone p q b s).templates = s.templates ∧
    (State.refreshDone p q b s).jobs = s.jobs ∧ (State.refreshDone p q b s).order = s.order ∧
    (State.refreshDone p q b s).free = s.free := by
  have hF0 := @State.restoreGuarantee_frame
  have hF1 := @State.regainSpare_frame
  have hF2 := @State.loseSpare_frame
  have hF3 := @State.modBobbin_frame
  have hF4 := @State.setPillow_frame
  have hF5 := @State.idleAdopt_frame
  unfold State.refreshDone; simp [hF0, hF1, hF2, hF3, hF4, hF5]

theorem State.progGood_frame (p : Nat) (q : ProgReq) (iters : Nat) (s : State) :
    (State.progGood p q iters s).now = s.now ∧ (State.progGood p q iters s).pending = s.pending ∧
    (State.progGood p q iters s).tb = s.tb ∧ (State.progGood p q iters s).sheets = s.sheets ∧
    (State.progGood p q iters s).units = s.units ∧ (State.progGood p q iters s).pins = s.pins ∧
    (State.progGood p q iters s).pk = s.pk ∧ (State.progGood p q iters s).errw = s.errw ∧
    (State.progGood p q iters s).bulk = s.bulk ∧ (State.progGood p q iters s).mgmt = s.mgmt ∧
    (State.progGood p q iters s).power = s.power ∧ (State.progGood p q iters s).sec = s.sec ∧
    (State.progGood p q iters s).therm = s.therm ∧ (State.progGood p q iters s).ports = s.ports ∧
    (State.progGood p q iters s).streams = s.streams ∧ (State.progGood p q iters s).services = s.services ∧
    (State.progGood p q iters s).ptpPorts = s.ptpPorts ∧ (State.progGood p q iters s).ptp = s.ptp ∧
    (State.progGood p q iters s).chans = s.chans ∧ (State.progGood p q iters s).seqs = s.seqs ∧
    (State.progGood p q iters s).hc = s.hc ∧ (State.progGood p q iters s).trim = s.trim ∧
    (State.progGood p q iters s).bundles = s.bundles ∧ (State.progGood p q iters s).slots = s.slots ∧
    (State.progGood p q iters s).wt = s.wt ∧ (State.progGood p q iters s).mem = s.mem ∧
    (State.progGood p q iters s).fwMem = s.fwMem ∧ (State.progGood p q iters s).ms = s.ms ∧
    (State.progGood p q iters s).pricks = s.pricks ∧ (State.progGood p q iters s).templates = s.templates ∧
    (State.progGood p q iters s).jobs = s.jobs ∧ (State.progGood p q iters s).order = s.order ∧
    (State.progGood p q iters s).free = s.free := by
  have hF0 := @State.modBobbin_frame
  have hF1 := @State.reportLife_frame
  have hF2 := @State.setBobbin_frame
  have hF3 := @State.refreshDone_frame
  unfold State.progGood; dsimp only; (repeat' split) <;> simp [hF0, hF1, hF2, hF3]

theorem State.dropRefresh_frame (p : Nat) (s : State) : (State.dropRefresh p s).now = s.now ∧
    (State.dropRefresh p s).pending = s.pending ∧ (State.dropRefresh p s).tb = s.tb ∧
    (State.dropRefresh p s).sheets = s.sheets ∧ (State.dropRefresh p s).units = s.units ∧
    (State.dropRefresh p s).pins = s.pins ∧ (State.dropRefresh p s).pk = s.pk ∧
    (State.dropRefresh p s).queues = s.queues ∧ (State.dropRefresh p s).latches = s.latches ∧
    (State.dropRefresh p s).errw = s.errw ∧ (State.dropRefresh p s).sdio = s.sdio ∧
    (State.dropRefresh p s).bulk = s.bulk ∧ (State.dropRefresh p s).mgmt = s.mgmt ∧
    (State.dropRefresh p s).power = s.power ∧ (State.dropRefresh p s).sec = s.sec ∧
    (State.dropRefresh p s).therm = s.therm ∧ (State.dropRefresh p s).ports = s.ports ∧
    (State.dropRefresh p s).streams = s.streams ∧ (State.dropRefresh p s).services = s.services ∧
    (State.dropRefresh p s).ptpPorts = s.ptpPorts ∧ (State.dropRefresh p s).ptp = s.ptp ∧
    (State.dropRefresh p s).chans = s.chans ∧ (State.dropRefresh p s).seqs = s.seqs ∧
    (State.dropRefresh p s).hc = s.hc ∧ (State.dropRefresh p s).trim = s.trim ∧
    (State.dropRefresh p s).bundles = s.bundles ∧ (State.dropRefresh p s).slots = s.slots ∧
    (State.dropRefresh p s).wt = s.wt ∧ (State.dropRefresh p s).mem = s.mem ∧
    (State.dropRefresh p s).fwMem = s.fwMem ∧ (State.dropRefresh p s).ms = s.ms ∧
    (State.dropRefresh p s).pricks = s.pricks ∧ (State.dropRefresh p s).templates = s.templates ∧
    (State.dropRefresh p s).jobs = s.jobs ∧ (State.dropRefresh p s).order = s.order ∧
    (State.dropRefresh p s).free = s.free := by
  have hF0 := @State.setPillow_frame
  have hF1 := @State.modBobbin_frame
  unfold State.dropRefresh; dsimp only; (repeat' split) <;> simp [hF0, hF1]

theorem State.hostRefresh_frame (p : Nat) (l : Nat) (s : State) : (State.hostRefresh p l s).now = s.now ∧
    (State.hostRefresh p l s).pending = s.pending ∧ (State.hostRefresh p l s).tb = s.tb ∧
    (State.hostRefresh p l s).sheets = s.sheets ∧ (State.hostRefresh p l s).units = s.units ∧
    (State.hostRefresh p l s).pins = s.pins ∧ (State.hostRefresh p l s).pk = s.pk ∧
    (State.hostRefresh p l s).queues = s.queues ∧ (State.hostRefresh p l s).latches = s.latches ∧
    (State.hostRefresh p l s).errw = s.errw ∧ (State.hostRefresh p l s).sdio = s.sdio ∧
    (State.hostRefresh p l s).bulk = s.bulk ∧ (State.hostRefresh p l s).mgmt = s.mgmt ∧
    (State.hostRefresh p l s).power = s.power ∧ (State.hostRefresh p l s).sec = s.sec ∧
    (State.hostRefresh p l s).therm = s.therm ∧ (State.hostRefresh p l s).ports = s.ports ∧
    (State.hostRefresh p l s).streams = s.streams ∧ (State.hostRefresh p l s).services = s.services ∧
    (State.hostRefresh p l s).ptpPorts = s.ptpPorts ∧ (State.hostRefresh p l s).ptp = s.ptp ∧
    (State.hostRefresh p l s).chans = s.chans ∧ (State.hostRefresh p l s).seqs = s.seqs ∧
    (State.hostRefresh p l s).hc = s.hc ∧ (State.hostRefresh p l s).trim = s.trim ∧
    (State.hostRefresh p l s).bundles = s.bundles ∧ (State.hostRefresh p l s).slots = s.slots ∧
    (State.hostRefresh p l s).wt = s.wt ∧ (State.hostRefresh p l s).mem = s.mem ∧
    (State.hostRefresh p l s).fwMem = s.fwMem ∧ (State.hostRefresh p l s).ms = s.ms ∧
    (State.hostRefresh p l s).pricks = s.pricks ∧ (State.hostRefresh p l s).templates = s.templates ∧
    (State.hostRefresh p l s).jobs = s.jobs ∧ (State.hostRefresh p l s).order = s.order ∧
    (State.hostRefresh p l s).free = s.free := by
  have hF0 := @State.requestRefresh_frame
  unfold State.hostRefresh; simp [hF0]

/-! ## Conditioner -/

theorem readSegs_frame (w : Work) (unit : Nat) (x : Opnd) (es : Nat) (at_ : Nat → Int × Int) (x0 : Nat) (x1 : Nat) (x2 : Nat) (x3 : State) (h : (readSegs w unit x es at_ x0 x1 x2 x3).isWait = false) :
    (readSegs w unit x es at_ x0 x1 x2 x3).okState.now = x3.now ∧
    (readSegs w unit x es at_ x0 x1 x2 x3).okState.pending = x3.pending ∧
    (readSegs w unit x es at_ x0 x1 x2 x3).okState.tb = x3.tb ∧
    (readSegs w unit x es at_ x0 x1 x2 x3).okState.sheets = x3.sheets ∧
    (readSegs w unit x es at_ x0 x1 x2 x3).okState.units = x3.units ∧
    (readSegs w unit x es at_ x0 x1 x2 x3).okState.pins = x3.pins ∧
    (readSegs w unit x es at_ x0 x1 x2 x3).okState.pk = x3.pk ∧
    (readSegs w unit x es at_ x0 x1 x2 x3).okState.errw = x3.errw ∧
    (readSegs w unit x es at_ x0 x1 x2 x3).okState.bulk = x3.bulk ∧
    (readSegs w unit x es at_ x0 x1 x2 x3).okState.power = x3.power ∧
    (readSegs w unit x es at_ x0 x1 x2 x3).okState.sec = x3.sec ∧
    (readSegs w unit x es at_ x0 x1 x2 x3).okState.therm = x3.therm ∧
    (readSegs w unit x es at_ x0 x1 x2 x3).okState.ports = x3.ports ∧
    (readSegs w unit x es at_ x0 x1 x2 x3).okState.streams = x3.streams ∧
    (readSegs w unit x es at_ x0 x1 x2 x3).okState.services = x3.services ∧
    (readSegs w unit x es at_ x0 x1 x2 x3).okState.ptpPorts = x3.ptpPorts ∧
    (readSegs w unit x es at_ x0 x1 x2 x3).okState.ptp = x3.ptp ∧
    (readSegs w unit x es at_ x0 x1 x2 x3).okState.chans = x3.chans ∧
    (readSegs w unit x es at_ x0 x1 x2 x3).okState.seqs = x3.seqs ∧
    (readSegs w unit x es at_ x0 x1 x2 x3).okState.hc = x3.hc ∧
    (readSegs w unit x es at_ x0 x1 x2 x3).okState.trim = x3.trim ∧
    (readSegs w unit x es at_ x0 x1 x2 x3).okState.bundles = x3.bundles ∧
    (readSegs w unit x es at_ x0 x1 x2 x3).okState.slots = x3.slots ∧
    (readSegs w unit x es at_ x0 x1 x2 x3).okState.wt = x3.wt ∧
    (readSegs w unit x es at_ x0 x1 x2 x3).okState.mem = x3.mem ∧
    (readSegs w unit x es at_ x0 x1 x2 x3).okState.fwMem = x3.fwMem ∧
    (readSegs w unit x es at_ x0 x1 x2 x3).okState.pricks = x3.pricks ∧
    (readSegs w unit x es at_ x0 x1 x2 x3).okState.templates = x3.templates ∧
    (readSegs w unit x es at_ x0 x1 x2 x3).okState.order = x3.order := by
  have hF0 := @State.readOpnd_frame
  induction x0 generalizing x1 x2 x3 with
  | zero => simp [readSegs]
  | succ k ih =>
    revert h
    unfold readSegs
    (repeat' (first | split | dsimp only)) <;> (repeat (rename _ = Access.ok _ _ => hx; obtain ⟨hw, rfl⟩ := Access.ok_elim hx; clear hx)) <;> (intro h; simp [*])

theorem State.readToken_frame (w : Work) (unit : Nat) (es : Nat) (idx : List Nat) (tok : Nat) (n : Nat) (s : State) (h : (State.readToken w unit es idx tok n s).isWait = false) :
    (State.readToken w unit es idx tok n s).okState.now = s.now ∧
    (State.readToken w unit es idx tok n s).okState.pending = s.pending ∧
    (State.readToken w unit es idx tok n s).okState.tb = s.tb ∧
    (State.readToken w unit es idx tok n s).okState.sheets = s.sheets ∧
    (State.readToken w unit es idx tok n s).okState.units = s.units ∧
    (State.readToken w unit es idx tok n s).okState.pins = s.pins ∧
    (State.readToken w unit es idx tok n s).okState.pk = s.pk ∧
    (State.readToken w unit es idx tok n s).okState.errw = s.errw ∧
    (State.readToken w unit es idx tok n s).okState.bulk = s.bulk ∧
    (State.readToken w unit es idx tok n s).okState.power = s.power ∧
    (State.readToken w unit es idx tok n s).okState.sec = s.sec ∧
    (State.readToken w unit es idx tok n s).okState.therm = s.therm ∧
    (State.readToken w unit es idx tok n s).okState.ports = s.ports ∧
    (State.readToken w unit es idx tok n s).okState.streams = s.streams ∧
    (State.readToken w unit es idx tok n s).okState.services = s.services ∧
    (State.readToken w unit es idx tok n s).okState.ptpPorts = s.ptpPorts ∧
    (State.readToken w unit es idx tok n s).okState.ptp = s.ptp ∧
    (State.readToken w unit es idx tok n s).okState.chans = s.chans ∧
    (State.readToken w unit es idx tok n s).okState.seqs = s.seqs ∧
    (State.readToken w unit es idx tok n s).okState.hc = s.hc ∧
    (State.readToken w unit es idx tok n s).okState.trim = s.trim ∧
    (State.readToken w unit es idx tok n s).okState.bundles = s.bundles ∧
    (State.readToken w unit es idx tok n s).okState.slots = s.slots ∧
    (State.readToken w unit es idx tok n s).okState.wt = s.wt ∧
    (State.readToken w unit es idx tok n s).okState.mem = s.mem ∧
    (State.readToken w unit es idx tok n s).okState.fwMem = s.fwMem ∧
    (State.readToken w unit es idx tok n s).okState.pricks = s.pricks ∧
    (State.readToken w unit es idx tok n s).okState.templates = s.templates ∧
    (State.readToken w unit es idx tok n s).okState.order = s.order := by
  have hF0 := @readSegs_frame
  revert h; unfold State.readToken; (repeat' (first | split | dsimp only)) <;> (intro h; simp [*])

theorem State.stageCodes_frame (w : Work) (q : QDesc) (sheet : Nat) (half : Nat) (tok : Nat) (waves : Nat) (c : Conditioned) (x0 : List Drive) (x1 : State) :
    (State.stageCodes w q sheet half tok waves c x0 x1).now = x1.now ∧
    (State.stageCodes w q sheet half tok waves c x0 x1).pending = x1.pending ∧
    (State.stageCodes w q sheet half tok waves c x0 x1).tb = x1.tb ∧
    (State.stageCodes w q sheet half tok waves c x0 x1).sheets = x1.sheets ∧
    (State.stageCodes w q sheet half tok waves c x0 x1).units = x1.units ∧
    (State.stageCodes w q sheet half tok waves c x0 x1).pins = x1.pins ∧
    (State.stageCodes w q sheet half tok waves c x0 x1).pk = x1.pk ∧
    (State.stageCodes w q sheet half tok waves c x0 x1).queues = x1.queues ∧
    (State.stageCodes w q sheet half tok waves c x0 x1).latches = x1.latches ∧
    (State.stageCodes w q sheet half tok waves c x0 x1).errw = x1.errw ∧
    (State.stageCodes w q sheet half tok waves c x0 x1).sdio = x1.sdio ∧
    (State.stageCodes w q sheet half tok waves c x0 x1).bulk = x1.bulk ∧
    (State.stageCodes w q sheet half tok waves c x0 x1).mgmt = x1.mgmt ∧
    (State.stageCodes w q sheet half tok waves c x0 x1).power = x1.power ∧
    (State.stageCodes w q sheet half tok waves c x0 x1).sec = x1.sec ∧
    (State.stageCodes w q sheet half tok waves c x0 x1).therm = x1.therm ∧
    (State.stageCodes w q sheet half tok waves c x0 x1).ports = x1.ports ∧
    (State.stageCodes w q sheet half tok waves c x0 x1).streams = x1.streams ∧
    (State.stageCodes w q sheet half tok waves c x0 x1).services = x1.services ∧
    (State.stageCodes w q sheet half tok waves c x0 x1).ptpPorts = x1.ptpPorts ∧
    (State.stageCodes w q sheet half tok waves c x0 x1).ptp = x1.ptp ∧
    (State.stageCodes w q sheet half tok waves c x0 x1).chans = x1.chans ∧
    (State.stageCodes w q sheet half tok waves c x0 x1).seqs = x1.seqs ∧
    (State.stageCodes w q sheet half tok waves c x0 x1).hc = x1.hc ∧
    (State.stageCodes w q sheet half tok waves c x0 x1).trim = x1.trim ∧
    (State.stageCodes w q sheet half tok waves c x0 x1).bundles = x1.bundles ∧
    (State.stageCodes w q sheet half tok waves c x0 x1).slots = x1.slots ∧
    (State.stageCodes w q sheet half tok waves c x0 x1).wt = x1.wt ∧
    (State.stageCodes w q sheet half tok waves c x0 x1).mem = x1.mem ∧
    (State.stageCodes w q sheet half tok waves c x0 x1).fwMem = x1.fwMem ∧
    (State.stageCodes w q sheet half tok waves c x0 x1).ms = x1.ms ∧
    (State.stageCodes w q sheet half tok waves c x0 x1).pricks = x1.pricks ∧
    (State.stageCodes w q sheet half tok waves c x0 x1).templates = x1.templates ∧
    (State.stageCodes w q sheet half tok waves c x0 x1).jobs = x1.jobs ∧
    (State.stageCodes w q sheet half tok waves c x0 x1).order = x1.order ∧
    (State.stageCodes w q sheet half tok waves c x0 x1).free = x1.free := by
  have hF0 := @State.modBobbin_frame
  induction x0 generalizing x1 <;> simp_all [State.stageCodes]

/-! ## Epilogue -/

theorem State.writeSpans_frame (w : Work) (unit : Nat) (x : Opnd) (off : Int) (line : Int) (size : Nat) (sp : List (Nat × Bytes)) (s : State) (h : (State.writeSpans w unit x off line size sp s).isWait = false) :
    (State.writeSpans w unit x off line size sp s).okState.now = s.now ∧
    (State.writeSpans w unit x off line size sp s).okState.pending = s.pending ∧
    (State.writeSpans w unit x off line size sp s).okState.tb = s.tb ∧
    (State.writeSpans w unit x off line size sp s).okState.sheets = s.sheets ∧
    (State.writeSpans w unit x off line size sp s).okState.units = s.units ∧
    (State.writeSpans w unit x off line size sp s).okState.pins = s.pins ∧
    (State.writeSpans w unit x off line size sp s).okState.pk = s.pk ∧
    (State.writeSpans w unit x off line size sp s).okState.errw = s.errw ∧
    (State.writeSpans w unit x off line size sp s).okState.bulk = s.bulk ∧
    (State.writeSpans w unit x off line size sp s).okState.mgmt = s.mgmt ∧
    (State.writeSpans w unit x off line size sp s).okState.power = s.power ∧
    (State.writeSpans w unit x off line size sp s).okState.sec = s.sec ∧
    (State.writeSpans w unit x off line size sp s).okState.therm = s.therm ∧
    (State.writeSpans w unit x off line size sp s).okState.streams = s.streams ∧
    (State.writeSpans w unit x off line size sp s).okState.services = s.services ∧
    (State.writeSpans w unit x off line size sp s).okState.ptpPorts = s.ptpPorts ∧
    (State.writeSpans w unit x off line size sp s).okState.ptp = s.ptp ∧
    (State.writeSpans w unit x off line size sp s).okState.chans = s.chans ∧
    (State.writeSpans w unit x off line size sp s).okState.seqs = s.seqs ∧
    (State.writeSpans w unit x off line size sp s).okState.hc = s.hc ∧
    (State.writeSpans w unit x off line size sp s).okState.trim = s.trim ∧
    (State.writeSpans w unit x off line size sp s).okState.bundles = s.bundles ∧
    (State.writeSpans w unit x off line size sp s).okState.slots = s.slots ∧
    (State.writeSpans w unit x off line size sp s).okState.wt = s.wt ∧
    (State.writeSpans w unit x off line size sp s).okState.fwMem = s.fwMem ∧
    (State.writeSpans w unit x off line size sp s).okState.pricks = s.pricks ∧
    (State.writeSpans w unit x off line size sp s).okState.templates = s.templates ∧
    (State.writeSpans w unit x off line size sp s).okState.order = s.order := by
  have hF0 := @storePieces_frame
  revert h
  unfold State.writeSpans
  split
  · simp
  · split
    · simp
    · simp
    · dsimp only
      generalize List.flatMap (fun x : Nat × Bytes => vaPieces x.1 x.2.length) _ = ps
      rename_i win _
      have hp := writePages_frame w unit win ps s
      rcases hx : writePages w unit win ps s with ⟨e, t⟩
      rw [hx] at hp
      dsimp only at hp ⊢
      cases e <;> simp_all

@[simp] theorem State.writeSpans_wf (w : Work) (unit : Nat) (x : Opnd) (off : Int) (line : Int) (size : Nat) (sp : List (Nat × Bytes)) (s : State) (hm : Memory.wf s.mem = true) (h : (State.writeSpans w unit x off line size sp s).isWait = false) :
    Memory.wf (State.writeSpans w unit x off line size sp s).okState.mem = true := by
  have hF0 := @writePages_frame
  revert h; unfold State.writeSpans; dsimp only; (repeat' split) <;> (repeat (rename _ = (_, _) => hx; obtain ⟨_, rfl⟩ := Prod.ext_iff.mp hx; clear hx)) <;> (intro h; first | (simp [hF0]; done) | (simp [*]; done) | (simp at h; done))

theorem State.readElems_frame (w : Work) (d : EDesc) (v : EpiVec) (c0 : Nat) (c1 : Nat) (s : State) (h : (State.readElems w d v c0 c1 s).isWait = false) :
    (State.readElems w d v c0 c1 s).okState.now = s.now ∧
    (State.readElems w d v c0 c1 s).okState.pending = s.pending ∧
    (State.readElems w d v c0 c1 s).okState.tb = s.tb ∧
    (State.readElems w d v c0 c1 s).okState.sheets = s.sheets ∧
    (State.readElems w d v c0 c1 s).okState.units = s.units ∧
    (State.readElems w d v c0 c1 s).okState.pins = s.pins ∧
    (State.readElems w d v c0 c1 s).okState.pk = s.pk ∧
    (State.readElems w d v c0 c1 s).okState.errw = s.errw ∧
    (State.readElems w d v c0 c1 s).okState.bulk = s.bulk ∧
    (State.readElems w d v c0 c1 s).okState.power = s.power ∧
    (State.readElems w d v c0 c1 s).okState.sec = s.sec ∧
    (State.readElems w d v c0 c1 s).okState.therm = s.therm ∧
    (State.readElems w d v c0 c1 s).okState.ports = s.ports ∧
    (State.readElems w d v c0 c1 s).okState.streams = s.streams ∧
    (State.readElems w d v c0 c1 s).okState.services = s.services ∧
    (State.readElems w d v c0 c1 s).okState.ptpPorts = s.ptpPorts ∧
    (State.readElems w d v c0 c1 s).okState.ptp = s.ptp ∧
    (State.readElems w d v c0 c1 s).okState.chans = s.chans ∧
    (State.readElems w d v c0 c1 s).okState.seqs = s.seqs ∧
    (State.readElems w d v c0 c1 s).okState.hc = s.hc ∧
    (State.readElems w d v c0 c1 s).okState.trim = s.trim ∧
    (State.readElems w d v c0 c1 s).okState.bundles = s.bundles ∧
    (State.readElems w d v c0 c1 s).okState.slots = s.slots ∧
    (State.readElems w d v c0 c1 s).okState.wt = s.wt ∧
    (State.readElems w d v c0 c1 s).okState.mem = s.mem ∧
    (State.readElems w d v c0 c1 s).okState.fwMem = s.fwMem ∧
    (State.readElems w d v c0 c1 s).okState.pricks = s.pricks ∧
    (State.readElems w d v c0 c1 s).okState.templates = s.templates ∧
    (State.readElems w d v c0 c1 s).okState.order = s.order := by
  revert h
  unfold State.readElems
  split
  · simp
  · dsimp only
    exact fun h => State.readOpnd_frame _ _ _ _ _ _ _ h

theorem State.countOuts_frame (w : Work) (es : List OutElem) (s : State) :
    (State.countOuts w es s).now = s.now ∧ (State.countOuts w es s).pending = s.pending ∧
    (State.countOuts w es s).tb = s.tb ∧ (State.countOuts w es s).sheets = s.sheets ∧
    (State.countOuts w es s).units = s.units ∧ (State.countOuts w es s).pins = s.pins ∧
    (State.countOuts w es s).pk = s.pk ∧ (State.countOuts w es s).queues = s.queues ∧
    (State.countOuts w es s).latches = s.latches ∧ (State.countOuts w es s).errw = s.errw ∧
    (State.countOuts w es s).sdio = s.sdio ∧ (State.countOuts w es s).bulk = s.bulk ∧
    (State.countOuts w es s).mgmt = s.mgmt ∧ (State.countOuts w es s).power = s.power ∧
    (State.countOuts w es s).sec = s.sec ∧ (State.countOuts w es s).therm = s.therm ∧
    (State.countOuts w es s).ports = s.ports ∧ (State.countOuts w es s).streams = s.streams ∧
    (State.countOuts w es s).services = s.services ∧ (State.countOuts w es s).ptpPorts = s.ptpPorts ∧
    (State.countOuts w es s).ptp = s.ptp ∧ (State.countOuts w es s).chans = s.chans ∧
    (State.countOuts w es s).seqs = s.seqs ∧ (State.countOuts w es s).hc = s.hc ∧
    (State.countOuts w es s).trim = s.trim ∧ (State.countOuts w es s).bundles = s.bundles ∧
    (State.countOuts w es s).slots = s.slots ∧ (State.countOuts w es s).wt = s.wt ∧
    (State.countOuts w es s).mem = s.mem ∧ (State.countOuts w es s).fwMem = s.fwMem ∧
    (State.countOuts w es s).ms = s.ms ∧ (State.countOuts w es s).pricks = s.pricks ∧
    (State.countOuts w es s).templates = s.templates ∧ (State.countOuts w es s).order = s.order ∧
    (State.countOuts w es s).free = s.free := by
  have hF0 := @State.modPillow_frame
  have hF1 := @State.modJob_frame
  unfold State.countOuts; simp [hF0, hF1]

theorem State.finishVec_frame (w : Work) (v : EpiVec) (cols : List Nat) (vals : List Int) (s : State) (h : (State.finishVec w v cols vals s).isWait = false) :
    (State.finishVec w v cols vals s).okState.now = s.now ∧
    (State.finishVec w v cols vals s).okState.pending = s.pending ∧
    (State.finishVec w v cols vals s).okState.tb = s.tb ∧
    (State.finishVec w v cols vals s).okState.sheets = s.sheets ∧
    (State.finishVec w v cols vals s).okState.units = s.units ∧
    (State.finishVec w v cols vals s).okState.pins = s.pins ∧
    (State.finishVec w v cols vals s).okState.pk = s.pk ∧
    (State.finishVec w v cols vals s).okState.errw = s.errw ∧
    (State.finishVec w v cols vals s).okState.bulk = s.bulk ∧
    (State.finishVec w v cols vals s).okState.power = s.power ∧
    (State.finishVec w v cols vals s).okState.sec = s.sec ∧
    (State.finishVec w v cols vals s).okState.therm = s.therm ∧
    (State.finishVec w v cols vals s).okState.streams = s.streams ∧
    (State.finishVec w v cols vals s).okState.services = s.services ∧
    (State.finishVec w v cols vals s).okState.ptpPorts = s.ptpPorts ∧
    (State.finishVec w v cols vals s).okState.ptp = s.ptp ∧
    (State.finishVec w v cols vals s).okState.chans = s.chans ∧
    (State.finishVec w v cols vals s).okState.seqs = s.seqs ∧
    (State.finishVec w v cols vals s).okState.hc = s.hc ∧
    (State.finishVec w v cols vals s).okState.trim = s.trim ∧
    (State.finishVec w v cols vals s).okState.bundles = s.bundles ∧
    (State.finishVec w v cols vals s).okState.slots = s.slots ∧
    (State.finishVec w v cols vals s).okState.wt = s.wt ∧
    (State.finishVec w v cols vals s).okState.fwMem = s.fwMem ∧
    (State.finishVec w v cols vals s).okState.pricks = s.pricks ∧
    (State.finishVec w v cols vals s).okState.templates = s.templates ∧
    (State.finishVec w v cols vals s).okState.order = s.order := by
  have hF0 := @State.countOuts_frame
  revert h
  unfold State.finishVec
  dsimp only
  generalize hqa : State.readElems w _ v _ _ s = a
  have hka : a.isWait = false → (fun z : State => z.now = s.now ∧ z.pending = s.pending ∧ z.tb = s.tb ∧ z.sheets = s.sheets ∧ z.units = s.units ∧ z.pins = s.pins ∧ z.pk = s.pk ∧ z.errw = s.errw ∧ z.bulk = s.bulk ∧ z.power = s.power ∧ z.sec = s.sec ∧ z.therm = s.therm ∧ z.ports = s.ports ∧ z.streams = s.streams ∧ z.services = s.services ∧ z.ptpPorts = s.ptpPorts ∧ z.ptp = s.ptp ∧ z.chans = s.chans ∧ z.seqs = s.seqs ∧ z.hc = s.hc ∧ z.trim = s.trim ∧ z.bundles = s.bundles ∧ z.slots = s.slots ∧ z.wt = s.wt ∧ z.mem = s.mem ∧ z.fwMem = s.fwMem ∧ z.pricks = s.pricks ∧ z.templates = s.templates ∧ z.order = s.order) a.okState := by
    intro ha
    subst hqa
    exact State.readElems_frame _ _ _ _ _ _ ha
  cases a with
  | ok bt t =>
    have ht := hka rfl
    dsimp only [Access.okState_ok] at ht ⊢
    generalize hqc : State.writeSpans w 1 w.op.o _ _ _ _ t = c
    have hkc : c.isWait = false → (fun z : State => z.now = t.now ∧ z.pending = t.pending ∧ z.tb = t.tb ∧ z.sheets = t.sheets ∧ z.units = t.units ∧ z.pins = t.pins ∧ z.pk = t.pk ∧ z.errw = t.errw ∧ z.bulk = t.bulk ∧ z.mgmt = t.mgmt ∧ z.power = t.power ∧ z.sec = t.sec ∧ z.therm = t.therm ∧ z.streams = t.streams ∧ z.services = t.services ∧ z.ptpPorts = t.ptpPorts ∧ z.ptp = t.ptp ∧ z.chans = t.chans ∧ z.seqs = t.seqs ∧ z.hc = t.hc ∧ z.trim = t.trim ∧ z.bundles = t.bundles ∧ z.slots = t.slots ∧ z.wt = t.wt ∧ z.fwMem = t.fwMem ∧ z.pricks = t.pricks ∧ z.templates = t.templates ∧ z.order = t.order) c.okState := by
      intro ha
      subst hqc
      exact State.writeSpans_frame _ _ _ _ _ _ _ _ ha
    cases c with
    | ok bu u =>
      have hu := hkc rfl
      dsimp only [Access.okState_ok] at hu ⊢
      exact fun _ => by simp [hF0, hu, ht]
    | fault f u =>
      have hu := hkc rfl
      dsimp only [Access.okState_fault] at hu ⊢
      exact fun _ => by simp [hu, ht]
    | wait n l d => exact fun h => by cases h
  | fault f t =>
    have ht := hka rfl
    dsimp only [Access.okState_fault] at ht ⊢
    exact fun _ => by simp [ht]
  | wait n l d => exact fun h => by cases h

@[simp] theorem State.finishVec_wf (w : Work) (v : EpiVec) (cols : List Nat) (vals : List Int) (s : State) (hm : Memory.wf s.mem = true) (h : (State.finishVec w v cols vals s).isWait = false) :
    Memory.wf (State.finishVec w v cols vals s).okState.mem = true := by
  have hF0 := @State.countOuts_frame
  revert h
  unfold State.finishVec
  dsimp only
  generalize hqa : State.readElems w _ v _ _ s = a
  have hka : a.isWait = false → (fun t : State => Memory.wf t.mem = true) a.okState := by
    intro ha
    subst hqa
    have hf := State.readElems_frame _ _ _ _ _ _ ha
    simp only [hf]
    exact hm
  cases a with
  | ok bt t =>
    have ht := hka rfl
    dsimp only [Access.okState_ok] at ht ⊢
    generalize hqc : State.writeSpans w 1 w.op.o _ _ _ _ t = c
    have hkc : c.isWait = false → (fun t : State => Memory.wf t.mem = true) c.okState := by
      intro ha
      subst hqc
      exact State.writeSpans_wf _ _ _ _ _ _ _ _ ht ha
    cases c with
    | ok bu u =>
      have hu := hkc rfl
      dsimp only [Access.okState_ok] at hu ⊢
      exact fun _ => by simpa [hF0] using hu
    | fault f u =>
      have hu := hkc rfl
      dsimp only [Access.okState_fault] at hu ⊢
      exact fun _ => by simpa [hF0] using hu
    | wait n l d => exact fun h => by cases h
  | fault f t =>
    have ht := hka rfl
    dsimp only [Access.okState_fault] at ht ⊢
    exact fun _ => by simpa [hF0] using ht
  | wait n l d => exact fun h => by cases h

theorem State.countSpill_frame (w : Work) (narrow : Bool) (n : Nat) (es : List Nat) (s : State) :
    (State.countSpill w narrow n es s).now = s.now ∧
    (State.countSpill w narrow n es s).pending = s.pending ∧ (State.countSpill w narrow n es s).tb = s.tb ∧
    (State.countSpill w narrow n es s).sheets = s.sheets ∧
    (State.countSpill w narrow n es s).units = s.units ∧ (State.countSpill w narrow n es s).pins = s.pins ∧
    (State.countSpill w narrow n es s).pk = s.pk ∧ (State.countSpill w narrow n es s).queues = s.queues ∧
    (State.countSpill w narrow n es s).latches = s.latches ∧
    (State.countSpill w narrow n es s).errw = s.errw ∧ (State.countSpill w narrow n es s).sdio = s.sdio ∧
    (State.countSpill w narrow n es s).bulk = s.bulk ∧ (State.countSpill w narrow n es s).mgmt = s.mgmt ∧
    (State.countSpill w narrow n es s).power = s.power ∧ (State.countSpill w narrow n es s).sec = s.sec ∧
    (State.countSpill w narrow n es s).therm = s.therm ∧
    (State.countSpill w narrow n es s).ports = s.ports ∧
    (State.countSpill w narrow n es s).streams = s.streams ∧
    (State.countSpill w narrow n es s).services = s.services ∧
    (State.countSpill w narrow n es s).ptpPorts = s.ptpPorts ∧
    (State.countSpill w narrow n es s).ptp = s.ptp ∧ (State.countSpill w narrow n es s).chans = s.chans ∧
    (State.countSpill w narrow n es s).seqs = s.seqs ∧ (State.countSpill w narrow n es s).hc = s.hc ∧
    (State.countSpill w narrow n es s).trim = s.trim ∧
    (State.countSpill w narrow n es s).bundles = s.bundles ∧
    (State.countSpill w narrow n es s).slots = s.slots ∧ (State.countSpill w narrow n es s).wt = s.wt ∧
    (State.countSpill w narrow n es s).mem = s.mem ∧ (State.countSpill w narrow n es s).fwMem = s.fwMem ∧
    (State.countSpill w narrow n es s).ms = s.ms ∧ (State.countSpill w narrow n es s).pricks = s.pricks ∧
    (State.countSpill w narrow n es s).templates = s.templates ∧
    (State.countSpill w narrow n es s).jobs = s.jobs ∧ (State.countSpill w narrow n es s).order = s.order ∧
    (State.countSpill w narrow n es s).free = s.free := by
  have hF0 := @State.modPillow_frame
  unfold State.countSpill; simp [hF0]

theorem State.spillTaken_frame (w : Work) (t : Nat) (s : State) : (State.spillTaken w t s).now = s.now ∧
    (State.spillTaken w t s).pending = s.pending ∧ (State.spillTaken w t s).tb = s.tb ∧
    (State.spillTaken w t s).sheets = s.sheets ∧ (State.spillTaken w t s).units = s.units ∧
    (State.spillTaken w t s).pins = s.pins ∧ (State.spillTaken w t s).pk = s.pk ∧
    (State.spillTaken w t s).queues = s.queues ∧ (State.spillTaken w t s).latches = s.latches ∧
    (State.spillTaken w t s).errw = s.errw ∧ (State.spillTaken w t s).sdio = s.sdio ∧
    (State.spillTaken w t s).bulk = s.bulk ∧ (State.spillTaken w t s).mgmt = s.mgmt ∧
    (State.spillTaken w t s).power = s.power ∧ (State.spillTaken w t s).sec = s.sec ∧
    (State.spillTaken w t s).therm = s.therm ∧ (State.spillTaken w t s).ports = s.ports ∧
    (State.spillTaken w t s).streams = s.streams ∧ (State.spillTaken w t s).services = s.services ∧
    (State.spillTaken w t s).ptpPorts = s.ptpPorts ∧ (State.spillTaken w t s).ptp = s.ptp ∧
    (State.spillTaken w t s).chans = s.chans ∧ (State.spillTaken w t s).seqs = s.seqs ∧
    (State.spillTaken w t s).hc = s.hc ∧ (State.spillTaken w t s).trim = s.trim ∧
    (State.spillTaken w t s).bundles = s.bundles ∧ (State.spillTaken w t s).slots = s.slots ∧
    (State.spillTaken w t s).wt = s.wt ∧ (State.spillTaken w t s).mem = s.mem ∧
    (State.spillTaken w t s).fwMem = s.fwMem ∧ (State.spillTaken w t s).ms = s.ms ∧
    (State.spillTaken w t s).pricks = s.pricks ∧ (State.spillTaken w t s).templates = s.templates ∧
    (State.spillTaken w t s).order = s.order ∧ (State.spillTaken w t s).pillows = s.pillows ∧
    (State.spillTaken w t s).free = s.free := by
  have hF0 := @State.modJob_frame
  unfold State.spillTaken; simp [hF0]

theorem State.takeSpills_frame (w : Work) (narrow : Bool) (v : EpiVec) (size : Nat) (n : Nat) (x0 : List (Nat × Nat)) (x1 : List Int) (x2 : State) :
    (State.takeSpills w narrow v size n x0 x1 x2).2.now = x2.now ∧
    (State.takeSpills w narrow v size n x0 x1 x2).2.pending = x2.pending ∧
    (State.takeSpills w narrow v size n x0 x1 x2).2.tb = x2.tb ∧
    (State.takeSpills w narrow v size n x0 x1 x2).2.sheets = x2.sheets ∧
    (State.takeSpills w narrow v size n x0 x1 x2).2.units = x2.units ∧
    (State.takeSpills w narrow v size n x0 x1 x2).2.pins = x2.pins ∧
    (State.takeSpills w narrow v size n x0 x1 x2).2.pk = x2.pk ∧
    (State.takeSpills w narrow v size n x0 x1 x2).2.errw = x2.errw ∧
    (State.takeSpills w narrow v size n x0 x1 x2).2.bulk = x2.bulk ∧
    (State.takeSpills w narrow v size n x0 x1 x2).2.power = x2.power ∧
    (State.takeSpills w narrow v size n x0 x1 x2).2.sec = x2.sec ∧
    (State.takeSpills w narrow v size n x0 x1 x2).2.therm = x2.therm ∧
    (State.takeSpills w narrow v size n x0 x1 x2).2.ports = x2.ports ∧
    (State.takeSpills w narrow v size n x0 x1 x2).2.streams = x2.streams ∧
    (State.takeSpills w narrow v size n x0 x1 x2).2.services = x2.services ∧
    (State.takeSpills w narrow v size n x0 x1 x2).2.ptpPorts = x2.ptpPorts ∧
    (State.takeSpills w narrow v size n x0 x1 x2).2.ptp = x2.ptp ∧
    (State.takeSpills w narrow v size n x0 x1 x2).2.chans = x2.chans ∧
    (State.takeSpills w narrow v size n x0 x1 x2).2.seqs = x2.seqs ∧
    (State.takeSpills w narrow v size n x0 x1 x2).2.hc = x2.hc ∧
    (State.takeSpills w narrow v size n x0 x1 x2).2.trim = x2.trim ∧
    (State.takeSpills w narrow v size n x0 x1 x2).2.bundles = x2.bundles ∧
    (State.takeSpills w narrow v size n x0 x1 x2).2.slots = x2.slots ∧
    (State.takeSpills w narrow v size n x0 x1 x2).2.wt = x2.wt ∧
    (State.takeSpills w narrow v size n x0 x1 x2).2.mem = x2.mem ∧
    (State.takeSpills w narrow v size n x0 x1 x2).2.fwMem = x2.fwMem ∧
    (State.takeSpills w narrow v size n x0 x1 x2).2.pricks = x2.pricks ∧
    (State.takeSpills w narrow v size n x0 x1 x2).2.templates = x2.templates ∧
    (State.takeSpills w narrow v size n x0 x1 x2).2.order = x2.order := by
  have hF0 := @State.spillTaken_frame
  induction x0 generalizing x1 x2 with
  | nil => simp [State.takeSpills]
  | cons a l ih =>
    obtain ⟨t, p⟩ := a
    unfold State.takeSpills
    dsimp only
    split
    · have hr := State.readPhys_frame w 1 false (w.spillOfs v size t) (spBase w.p + w.spillOfs v size t) (spillSize narrow n) x2
      rcases hx : State.readPhys w 1 false (w.spillOfs v size t) (spBase w.p + w.spillOfs v size t) (spillSize narrow n) x2
        with ⟨b, u⟩ | ⟨f, u⟩ | ⟨k, m, d⟩ <;> rw [hx] at hr
      · have := hr rfl
        simp only [Access.okState_ok] at this
        simp [ih, hF0, this]
      · have := hr rfl
        simp only [Access.okState_fault] at this
        simp [this]
      · simp
    · simp [ih]

theorem State.sendSpill_frame (w : Work) (narrow : Bool) (v : EpiVec) (cols : List Nat) (n : Nat) (vals : List Int) (t : Nat) (q : Nat) (s : State) (h : (State.sendSpill w narrow v cols n vals t q s).isWait = false) :
    (State.sendSpill w narrow v cols n vals t q s).okState.now = s.now ∧
    (State.sendSpill w narrow v cols n vals t q s).okState.pending = s.pending ∧
    (State.sendSpill w narrow v cols n vals t q s).okState.tb = s.tb ∧
    (State.sendSpill w narrow v cols n vals t q s).okState.sheets = s.sheets ∧
    (State.sendSpill w narrow v cols n vals t q s).okState.units = s.units ∧
    (State.sendSpill w narrow v cols n vals t q s).okState.pins = s.pins ∧
    (State.sendSpill w narrow v cols n vals t q s).okState.pk = s.pk ∧
    (State.sendSpill w narrow v cols n vals t q s).okState.errw = s.errw ∧
    (State.sendSpill w narrow v cols n vals t q s).okState.bulk = s.bulk ∧
    (State.sendSpill w narrow v cols n vals t q s).okState.mgmt = s.mgmt ∧
    (State.sendSpill w narrow v cols n vals t q s).okState.power = s.power ∧
    (State.sendSpill w narrow v cols n vals t q s).okState.sec = s.sec ∧
    (State.sendSpill w narrow v cols n vals t q s).okState.therm = s.therm ∧
    (State.sendSpill w narrow v cols n vals t q s).okState.streams = s.streams ∧
    (State.sendSpill w narrow v cols n vals t q s).okState.services = s.services ∧
    (State.sendSpill w narrow v cols n vals t q s).okState.ptpPorts = s.ptpPorts ∧
    (State.sendSpill w narrow v cols n vals t q s).okState.ptp = s.ptp ∧
    (State.sendSpill w narrow v cols n vals t q s).okState.chans = s.chans ∧
    (State.sendSpill w narrow v cols n vals t q s).okState.seqs = s.seqs ∧
    (State.sendSpill w narrow v cols n vals t q s).okState.hc = s.hc ∧
    (State.sendSpill w narrow v cols n vals t q s).okState.trim = s.trim ∧
    (State.sendSpill w narrow v cols n vals t q s).okState.bundles = s.bundles ∧
    (State.sendSpill w narrow v cols n vals t q s).okState.slots = s.slots ∧
    (State.sendSpill w narrow v cols n vals t q s).okState.wt = s.wt ∧
    (State.sendSpill w narrow v cols n vals t q s).okState.fwMem = s.fwMem ∧
    (State.sendSpill w narrow v cols n vals t q s).okState.pricks = s.pricks ∧
    (State.sendSpill w narrow v cols n vals t q s).okState.templates = s.templates ∧
    (State.sendSpill w narrow v cols n vals t q s).okState.order = s.order ∧
    (State.sendSpill w narrow v cols n vals t q s).okState.free = s.free := by
  have hF0 := @State.modJob_frame
  have hF1 := @State.storeBy_frame
  have hF2 := @State.fenceUp_frame
  have hF3 := @State.countSpill_frame
  revert h; unfold State.sendSpill; dsimp only; (repeat' split) <;> (intro h; simp [hF0, hF1, hF2, hF3])

@[simp] theorem State.sendSpill_wf (w : Work) (narrow : Bool) (v : EpiVec) (cols : List Nat) (n : Nat) (vals : List Int) (t : Nat) (q : Nat) (s : State) (hm : Memory.wf s.mem = true) (h : (State.sendSpill w narrow v cols n vals t q s).isWait = false) :
    Memory.wf (State.sendSpill w narrow v cols n vals t q s).okState.mem = true := by
  have hF0 := @State.modJob_frame
  have hF1 := @State.fenceUp_frame
  have hF2 := @State.countSpill_frame
  revert h; unfold State.sendSpill; dsimp only; (repeat' split) <;> (intro h; simp [hF0, hF1, hF2, hm])

theorem State.writeSpill_frame (w : Work) (narrow : Bool) (v : EpiVec) (cols : List Nat) (n : Nat) (vals : List Int) (s : State) (h : (State.writeSpill w narrow v cols n vals s).isWait = false) :
    (State.writeSpill w narrow v cols n vals s).okState.now = s.now ∧
    (State.writeSpill w narrow v cols n vals s).okState.pending = s.pending ∧
    (State.writeSpill w narrow v cols n vals s).okState.tb = s.tb ∧
    (State.writeSpill w narrow v cols n vals s).okState.sheets = s.sheets ∧
    (State.writeSpill w narrow v cols n vals s).okState.units = s.units ∧
    (State.writeSpill w narrow v cols n vals s).okState.pins = s.pins ∧
    (State.writeSpill w narrow v cols n vals s).okState.pk = s.pk ∧
    (State.writeSpill w narrow v cols n vals s).okState.errw = s.errw ∧
    (State.writeSpill w narrow v cols n vals s).okState.bulk = s.bulk ∧
    (State.writeSpill w narrow v cols n vals s).okState.mgmt = s.mgmt ∧
    (State.writeSpill w narrow v cols n vals s).okState.power = s.power ∧
    (State.writeSpill w narrow v cols n vals s).okState.sec = s.sec ∧
    (State.writeSpill w narrow v cols n vals s).okState.therm = s.therm ∧
    (State.writeSpill w narrow v cols n vals s).okState.streams = s.streams ∧
    (State.writeSpill w narrow v cols n vals s).okState.services = s.services ∧
    (State.writeSpill w narrow v cols n vals s).okState.ptpPorts = s.ptpPorts ∧
    (State.writeSpill w narrow v cols n vals s).okState.ptp = s.ptp ∧
    (State.writeSpill w narrow v cols n vals s).okState.chans = s.chans ∧
    (State.writeSpill w narrow v cols n vals s).okState.seqs = s.seqs ∧
    (State.writeSpill w narrow v cols n vals s).okState.hc = s.hc ∧
    (State.writeSpill w narrow v cols n vals s).okState.trim = s.trim ∧
    (State.writeSpill w narrow v cols n vals s).okState.bundles = s.bundles ∧
    (State.writeSpill w narrow v cols n vals s).okState.slots = s.slots ∧
    (State.writeSpill w narrow v cols n vals s).okState.wt = s.wt ∧
    (State.writeSpill w narrow v cols n vals s).okState.fwMem = s.fwMem ∧
    (State.writeSpill w narrow v cols n vals s).okState.pricks = s.pricks ∧
    (State.writeSpill w narrow v cols n vals s).okState.templates = s.templates ∧
    (State.writeSpill w narrow v cols n vals s).okState.order = s.order := by
  have hF0 := @State.countSpill_frame
  revert h
  unfold State.writeSpill
  dsimp only
  generalize hqc : State.writeSpans w 1 w.op.o _ _ _ _ s = c
  have hkc : c.isWait = false → (fun z : State => z.now = s.now ∧ z.pending = s.pending ∧ z.tb = s.tb ∧ z.sheets = s.sheets ∧ z.units = s.units ∧ z.pins = s.pins ∧ z.pk = s.pk ∧ z.errw = s.errw ∧ z.bulk = s.bulk ∧ z.mgmt = s.mgmt ∧ z.power = s.power ∧ z.sec = s.sec ∧ z.therm = s.therm ∧ z.streams = s.streams ∧ z.services = s.services ∧ z.ptpPorts = s.ptpPorts ∧ z.ptp = s.ptp ∧ z.chans = s.chans ∧ z.seqs = s.seqs ∧ z.hc = s.hc ∧ z.trim = s.trim ∧ z.bundles = s.bundles ∧ z.slots = s.slots ∧ z.wt = s.wt ∧ z.fwMem = s.fwMem ∧ z.pricks = s.pricks ∧ z.templates = s.templates ∧ z.order = s.order) c.okState := by
    intro ha
    subst hqc
    exact State.writeSpans_frame _ _ _ _ _ _ _ _ ha
  cases c with
  | ok bu u =>
    have hu := hkc rfl
    dsimp only [Access.okState_ok] at hu ⊢
    exact fun _ => by simp [hF0, hu]
  | fault f u =>
    have hu := hkc rfl
    dsimp only [Access.okState_fault] at hu ⊢
    exact fun _ => by simp [hu]
  | wait n l d => exact fun h => by cases h

@[simp] theorem State.writeSpill_wf (w : Work) (narrow : Bool) (v : EpiVec) (cols : List Nat) (n : Nat) (vals : List Int) (s : State) (hm : Memory.wf s.mem = true) (h : (State.writeSpill w narrow v cols n vals s).isWait = false) :
    Memory.wf (State.writeSpill w narrow v cols n vals s).okState.mem = true := by
  have hF0 := @State.countSpill_frame
  revert h
  unfold State.writeSpill
  dsimp only
  generalize hqc : State.writeSpans w 1 w.op.o _ _ _ _ s = c
  have hkc : c.isWait = false → Memory.wf c.okState.mem = true := by
    intro ha
    subst hqc
    exact State.writeSpans_wf _ _ _ _ _ _ _ _ hm ha
  cases c with
  | ok bu u =>
    have hu := hkc rfl
    dsimp only [Access.okState_ok] at hu ⊢
    exact fun _ => by simp [hF0, hu]
  | fault f u => exact fun _ => hkc rfl
  | wait n l d => exact fun h => by cases h

theorem writeRuns_frame (w : Work) (x0 : List (Nat × Bytes)) (x1 : State) (h : (writeRuns w x0 x1).isWait = false) :
    (writeRuns w x0 x1).okState.now = x1.now ∧ (writeRuns w x0 x1).okState.pending = x1.pending ∧
    (writeRuns w x0 x1).okState.tb = x1.tb ∧ (writeRuns w x0 x1).okState.sheets = x1.sheets ∧
    (writeRuns w x0 x1).okState.units = x1.units ∧ (writeRuns w x0 x1).okState.pins = x1.pins ∧
    (writeRuns w x0 x1).okState.pk = x1.pk ∧ (writeRuns w x0 x1).okState.errw = x1.errw ∧
    (writeRuns w x0 x1).okState.bulk = x1.bulk ∧ (writeRuns w x0 x1).okState.mgmt = x1.mgmt ∧
    (writeRuns w x0 x1).okState.power = x1.power ∧ (writeRuns w x0 x1).okState.sec = x1.sec ∧
    (writeRuns w x0 x1).okState.therm = x1.therm ∧ (writeRuns w x0 x1).okState.streams = x1.streams ∧
    (writeRuns w x0 x1).okState.services = x1.services ∧
    (writeRuns w x0 x1).okState.ptpPorts = x1.ptpPorts ∧ (writeRuns w x0 x1).okState.ptp = x1.ptp ∧
    (writeRuns w x0 x1).okState.chans = x1.chans ∧ (writeRuns w x0 x1).okState.seqs = x1.seqs ∧
    (writeRuns w x0 x1).okState.hc = x1.hc ∧ (writeRuns w x0 x1).okState.trim = x1.trim ∧
    (writeRuns w x0 x1).okState.bundles = x1.bundles ∧ (writeRuns w x0 x1).okState.slots = x1.slots ∧
    (writeRuns w x0 x1).okState.wt = x1.wt ∧ (writeRuns w x0 x1).okState.fwMem = x1.fwMem ∧
    (writeRuns w x0 x1).okState.pricks = x1.pricks ∧ (writeRuns w x0 x1).okState.templates = x1.templates ∧
    (writeRuns w x0 x1).okState.order = x1.order := by
  have hF0 := @State.writeVa_frame
  induction x0 generalizing x1 with
  | nil => simp [writeRuns]
  | cons a l ih =>
    revert h
    unfold writeRuns
    (repeat' (first | split | dsimp only)) <;> (repeat (rename _ = Access.ok _ _ => hx; obtain ⟨hw, rfl⟩ := Access.ok_elim hx; clear hx)) <;> (intro h; simp [*])

@[simp] theorem writeRuns_wf (w : Work) (x0 : List (Nat × Bytes)) (x1 : State) (hm : Memory.wf x1.mem = true) (h : (writeRuns w x0 x1).isWait = false) :
    Memory.wf (writeRuns w x0 x1).okState.mem = true := by
  induction x0 generalizing x1 with
  | nil => simpa [writeRuns] using hm
  | cons a l ih =>
    obtain ⟨va, b⟩ := a
    revert h
    unfold writeRuns
    have hw := State.writeVa_wf w 1 false va b x1 hm
    rcases hx : State.writeVa w 1 false va b x1 with ⟨c, t⟩ | ⟨f, t⟩ | ⟨k, m, d⟩ <;> rw [hx] at hw
    · exact fun h => ih _ (hw rfl) h
    · exact fun _ => hw rfl
    · exact fun h => by cases h

theorem State.capture_frame (w : Work) (v : EpiVec) (cols : List Nat) (s : State) (h : (State.capture w v cols s).isWait = false) :
    (State.capture w v cols s).okState.now = s.now ∧
    (State.capture w v cols s).okState.pending = s.pending ∧ (State.capture w v cols s).okState.tb = s.tb ∧
    (State.capture w v cols s).okState.sheets = s.sheets ∧
    (State.capture w v cols s).okState.units = s.units ∧ (State.capture w v cols s).okState.pins = s.pins ∧
    (State.capture w v cols s).okState.pk = s.pk ∧ (State.capture w v cols s).okState.errw = s.errw ∧
    (State.capture w v cols s).okState.bulk = s.bulk ∧ (State.capture w v cols s).okState.mgmt = s.mgmt ∧
    (State.capture w v cols s).okState.power = s.power ∧ (State.capture w v cols s).okState.sec = s.sec ∧
    (State.capture w v cols s).okState.therm = s.therm ∧
    (State.capture w v cols s).okState.streams = s.streams ∧
    (State.capture w v cols s).okState.services = s.services ∧
    (State.capture w v cols s).okState.ptpPorts = s.ptpPorts ∧
    (State.capture w v cols s).okState.ptp = s.ptp ∧ (State.capture w v cols s).okState.chans = s.chans ∧
    (State.capture w v cols s).okState.seqs = s.seqs ∧ (State.capture w v cols s).okState.hc = s.hc ∧
    (State.capture w v cols s).okState.trim = s.trim ∧
    (State.capture w v cols s).okState.bundles = s.bundles ∧
    (State.capture w v cols s).okState.slots = s.slots ∧ (State.capture w v cols s).okState.wt = s.wt ∧
    (State.capture w v cols s).okState.fwMem = s.fwMem ∧
    (State.capture w v cols s).okState.pricks = s.pricks ∧
    (State.capture w v cols s).okState.templates = s.templates ∧
    (State.capture w v cols s).okState.order = s.order := by
  have hF0 := @State.modJob_frame
  have hF1 := @State.writeVa_frame
  have hF2 := @writeRuns_frame
  revert h; unfold State.capture; dsimp only; (repeat' split) <;> (repeat (rename _ = Access.ok _ _ => hx; obtain ⟨hw, rfl⟩ := Access.ok_elim hx; clear hx)) <;> (intro h; simp [*])

@[simp] theorem State.capture_wf (w : Work) (v : EpiVec) (cols : List Nat) (s : State) (hm : Memory.wf s.mem = true) (h : (State.capture w v cols s).isWait = false) :
    Memory.wf (State.capture w v cols s).okState.mem = true := by
  have hF0 := @State.modJob_frame
  revert h; unfold State.capture; dsimp only; (repeat' split) <;> (repeat (rename _ = Access.ok _ _ => hx; obtain ⟨hw, rfl⟩ := Access.ok_elim hx; clear hx)) <;> (intro h; simp [*])

theorem State.leaveVector_frame (w : Work) (v : EpiVec) (cols : List Nat) (s : State) (h : (State.leaveVector w v cols s).isWait = false) :
    (State.leaveVector w v cols s).okState.now = s.now ∧
    (State.leaveVector w v cols s).okState.pending = s.pending ∧
    (State.leaveVector w v cols s).okState.tb = s.tb ∧
    (State.leaveVector w v cols s).okState.sheets = s.sheets ∧
    (State.leaveVector w v cols s).okState.units = s.units ∧
    (State.leaveVector w v cols s).okState.pins = s.pins ∧
    (State.leaveVector w v cols s).okState.pk = s.pk ∧
    (State.leaveVector w v cols s).okState.errw = s.errw ∧
    (State.leaveVector w v cols s).okState.bulk = s.bulk ∧
    (State.leaveVector w v cols s).okState.power = s.power ∧
    (State.leaveVector w v cols s).okState.sec = s.sec ∧
    (State.leaveVector w v cols s).okState.therm = s.therm ∧
    (State.leaveVector w v cols s).okState.streams = s.streams ∧
    (State.leaveVector w v cols s).okState.services = s.services ∧
    (State.leaveVector w v cols s).okState.ptpPorts = s.ptpPorts ∧
    (State.leaveVector w v cols s).okState.ptp = s.ptp ∧
    (State.leaveVector w v cols s).okState.chans = s.chans ∧
    (State.leaveVector w v cols s).okState.seqs = s.seqs ∧
    (State.leaveVector w v cols s).okState.hc = s.hc ∧
    (State.leaveVector w v cols s).okState.trim = s.trim ∧
    (State.leaveVector w v cols s).okState.bundles = s.bundles ∧
    (State.leaveVector w v cols s).okState.slots = s.slots ∧
    (State.leaveVector w v cols s).okState.wt = s.wt ∧
    (State.leaveVector w v cols s).okState.fwMem = s.fwMem ∧
    (State.leaveVector w v cols s).okState.pricks = s.pricks ∧
    (State.leaveVector w v cols s).okState.templates = s.templates ∧
    (State.leaveVector w v cols s).okState.order = s.order := by
  have hF0 := @State.finishVec_frame
  have hF1 := @State.takeSpills_frame
  have hF2 := @State.sendSpill_frame
  have hF3 := @State.writeSpill_frame
  revert h; unfold State.leaveVector; (repeat' (first | split | dsimp only)) <;> (repeat (rename _ = (_, _) => hx; obtain ⟨_, rfl⟩ := Prod.ext_iff.mp hx; clear hx)) <;> (intro h; simp [*])

@[simp] theorem State.leaveVector_wf (w : Work) (v : EpiVec) (cols : List Nat) (s : State) (hm : Memory.wf s.mem = true) (h : (State.leaveVector w v cols s).isWait = false) :
    Memory.wf (State.leaveVector w v cols s).okState.mem = true := by
  have hF0 := @State.takeSpills_frame
  revert h; unfold State.leaveVector; (repeat' (first | split | dsimp only)) <;> (repeat (rename _ = (_, _) => hx; obtain ⟨_, rfl⟩ := Prod.ext_iff.mp hx; clear hx)) <;> (intro h; simp [*])

theorem State.writeVector_frame (w : Work) (v : EpiVec) (s : State) (h : (State.writeVector w v s).isWait = false) :
    (State.writeVector w v s).okState.now = s.now ∧ (State.writeVector w v s).okState.pending = s.pending ∧
    (State.writeVector w v s).okState.tb = s.tb ∧ (State.writeVector w v s).okState.sheets = s.sheets ∧
    (State.writeVector w v s).okState.units = s.units ∧ (State.writeVector w v s).okState.pins = s.pins ∧
    (State.writeVector w v s).okState.pk = s.pk ∧ (State.writeVector w v s).okState.errw = s.errw ∧
    (State.writeVector w v s).okState.bulk = s.bulk ∧ (State.writeVector w v s).okState.power = s.power ∧
    (State.writeVector w v s).okState.sec = s.sec ∧ (State.writeVector w v s).okState.therm = s.therm ∧
    (State.writeVector w v s).okState.streams = s.streams ∧
    (State.writeVector w v s).okState.services = s.services ∧
    (State.writeVector w v s).okState.ptpPorts = s.ptpPorts ∧
    (State.writeVector w v s).okState.ptp = s.ptp ∧ (State.writeVector w v s).okState.chans = s.chans ∧
    (State.writeVector w v s).okState.seqs = s.seqs ∧ (State.writeVector w v s).okState.hc = s.hc ∧
    (State.writeVector w v s).okState.trim = s.trim ∧
    (State.writeVector w v s).okState.bundles = s.bundles ∧
    (State.writeVector w v s).okState.slots = s.slots ∧ (State.writeVector w v s).okState.wt = s.wt ∧
    (State.writeVector w v s).okState.fwMem = s.fwMem ∧
    (State.writeVector w v s).okState.pricks = s.pricks ∧
    (State.writeVector w v s).okState.templates = s.templates ∧
    (State.writeVector w v s).okState.order = s.order := by
  have hF0 := @State.leaveVector_frame
  have hF1 := @State.capture_frame
  revert h; unfold State.writeVector; dsimp only; (repeat' split) <;> (repeat (rename _ = Access.ok _ _ => hx; obtain ⟨hw, rfl⟩ := Access.ok_elim hx; clear hx)) <;> (repeat (rename _ = Access.fault _ _ => hx; obtain ⟨hw, rfl⟩ := Access.fault_elim hx; clear hx)) <;> (intro h; simp [*])

@[simp] theorem State.writeVector_wf (w : Work) (v : EpiVec) (s : State) (hm : Memory.wf s.mem = true) (h : (State.writeVector w v s).isWait = false) :
    Memory.wf (State.writeVector w v s).okState.mem = true := by
  have hF0 := @State.leaveVector_frame
  have hF1 := @State.capture_frame
  revert h; unfold State.writeVector; dsimp only; (repeat' split) <;> (repeat (rename _ = Access.ok _ _ => hx; obtain ⟨hw, rfl⟩ := Access.ok_elim hx; clear hx)) <;> (repeat (rename _ = Access.fault _ _ => hx; obtain ⟨hw, rfl⟩ := Access.fault_elim hx; clear hx)) <;> (intro h; simp [*])

/-! ## Dma -/

theorem reachOf_frame (x0 : Except FaultRec Nat × State) : (reachOf x0).2.now = x0.2.now ∧
    (reachOf x0).2.pending = x0.2.pending ∧ (reachOf x0).2.tb = x0.2.tb ∧
    (reachOf x0).2.sheets = x0.2.sheets ∧ (reachOf x0).2.units = x0.2.units ∧
    (reachOf x0).2.pins = x0.2.pins ∧ (reachOf x0).2.pk = x0.2.pk ∧ (reachOf x0).2.queues = x0.2.queues ∧
    (reachOf x0).2.latches = x0.2.latches ∧ (reachOf x0).2.errw = x0.2.errw ∧
    (reachOf x0).2.sdio = x0.2.sdio ∧ (reachOf x0).2.bulk = x0.2.bulk ∧ (reachOf x0).2.mgmt = x0.2.mgmt ∧
    (reachOf x0).2.power = x0.2.power ∧ (reachOf x0).2.sec = x0.2.sec ∧ (reachOf x0).2.therm = x0.2.therm ∧
    (reachOf x0).2.ports = x0.2.ports ∧ (reachOf x0).2.streams = x0.2.streams ∧
    (reachOf x0).2.services = x0.2.services ∧ (reachOf x0).2.ptpPorts = x0.2.ptpPorts ∧
    (reachOf x0).2.ptp = x0.2.ptp ∧ (reachOf x0).2.chans = x0.2.chans ∧ (reachOf x0).2.seqs = x0.2.seqs ∧
    (reachOf x0).2.hc = x0.2.hc ∧ (reachOf x0).2.trim = x0.2.trim ∧ (reachOf x0).2.bundles = x0.2.bundles ∧
    (reachOf x0).2.slots = x0.2.slots ∧ (reachOf x0).2.wt = x0.2.wt ∧ (reachOf x0).2.mem = x0.2.mem ∧
    (reachOf x0).2.fwMem = x0.2.fwMem ∧ (reachOf x0).2.ms = x0.2.ms ∧ (reachOf x0).2.pricks = x0.2.pricks ∧
    (reachOf x0).2.templates = x0.2.templates ∧ (reachOf x0).2.jobs = x0.2.jobs ∧
    (reachOf x0).2.order = x0.2.order ∧ (reachOf x0).2.free = x0.2.free := by
  unfold reachOf; (repeat' split) <;> simp

theorem State.reachRead_frame (w : Work) (x : Opnd) (off : Int) (line : Int) (s : State) :
    (State.reachRead w x off line s).2.now = s.now ∧
    (State.reachRead w x off line s).2.pending = s.pending ∧ (State.reachRead w x off line s).2.tb = s.tb ∧
    (State.reachRead w x off line s).2.sheets = s.sheets ∧
    (State.reachRead w x off line s).2.units = s.units ∧ (State.reachRead w x off line s).2.pins = s.pins ∧
    (State.reachRead w x off line s).2.pk = s.pk ∧ (State.reachRead w x off line s).2.queues = s.queues ∧
    (State.reachRead w x off line s).2.latches = s.latches ∧
    (State.reachRead w x off line s).2.errw = s.errw ∧ (State.reachRead w x off line s).2.sdio = s.sdio ∧
    (State.reachRead w x off line s).2.bulk = s.bulk ∧ (State.reachRead w x off line s).2.mgmt = s.mgmt ∧
    (State.reachRead w x off line s).2.power = s.power ∧ (State.reachRead w x off line s).2.sec = s.sec ∧
    (State.reachRead w x off line s).2.therm = s.therm ∧
    (State.reachRead w x off line s).2.ports = s.ports ∧
    (State.reachRead w x off line s).2.streams = s.streams ∧
    (State.reachRead w x off line s).2.services = s.services ∧
    (State.reachRead w x off line s).2.ptpPorts = s.ptpPorts ∧
    (State.reachRead w x off line s).2.ptp = s.ptp ∧ (State.reachRead w x off line s).2.chans = s.chans ∧
    (State.reachRead w x off line s).2.seqs = s.seqs ∧ (State.reachRead w x off line s).2.hc = s.hc ∧
    (State.reachRead w x off line s).2.trim = s.trim ∧
    (State.reachRead w x off line s).2.bundles = s.bundles ∧
    (State.reachRead w x off line s).2.slots = s.slots ∧ (State.reachRead w x off line s).2.wt = s.wt ∧
    (State.reachRead w x off line s).2.mem = s.mem ∧ (State.reachRead w x off line s).2.fwMem = s.fwMem ∧
    (State.reachRead w x off line s).2.pricks = s.pricks ∧
    (State.reachRead w x off line s).2.templates = s.templates ∧
    (State.reachRead w x off line s).2.jobs = s.jobs ∧
    (State.reachRead w x off line s).2.order = s.order := by
  have hF0 := @reachOf_frame
  have hF1 := @State.translate_frame
  unfold State.reachRead; simp [hF0, hF1]

theorem State.reachWrite_frame (w : Work) (x : Opnd) (off : Int) (line : Int) (s : State) :
    (State.reachWrite w x off line s).2.now = s.now ∧
    (State.reachWrite w x off line s).2.pending = s.pending ∧
    (State.reachWrite w x off line s).2.tb = s.tb ∧ (State.reachWrite w x off line s).2.sheets = s.sheets ∧
    (State.reachWrite w x off line s).2.units = s.units ∧
    (State.reachWrite w x off line s).2.pins = s.pins ∧ (State.reachWrite w x off line s).2.pk = s.pk ∧
    (State.reachWrite w x off line s).2.queues = s.queues ∧
    (State.reachWrite w x off line s).2.latches = s.latches ∧
    (State.reachWrite w x off line s).2.errw = s.errw ∧ (State.reachWrite w x off line s).2.sdio = s.sdio ∧
    (State.reachWrite w x off line s).2.bulk = s.bulk ∧ (State.reachWrite w x off line s).2.mgmt = s.mgmt ∧
    (State.reachWrite w x off line s).2.power = s.power ∧ (State.reachWrite w x off line s).2.sec = s.sec ∧
    (State.reachWrite w x off line s).2.therm = s.therm ∧
    (State.reachWrite w x off line s).2.ports = s.ports ∧
    (State.reachWrite w x off line s).2.streams = s.streams ∧
    (State.reachWrite w x off line s).2.services = s.services ∧
    (State.reachWrite w x off line s).2.ptpPorts = s.ptpPorts ∧
    (State.reachWrite w x off line s).2.ptp = s.ptp ∧ (State.reachWrite w x off line s).2.chans = s.chans ∧
    (State.reachWrite w x off line s).2.seqs = s.seqs ∧ (State.reachWrite w x off line s).2.hc = s.hc ∧
    (State.reachWrite w x off line s).2.trim = s.trim ∧
    (State.reachWrite w x off line s).2.bundles = s.bundles ∧
    (State.reachWrite w x off line s).2.slots = s.slots ∧ (State.reachWrite w x off line s).2.wt = s.wt ∧
    (State.reachWrite w x off line s).2.mem = s.mem ∧ (State.reachWrite w x off line s).2.fwMem = s.fwMem ∧
    (State.reachWrite w x off line s).2.pricks = s.pricks ∧
    (State.reachWrite w x off line s).2.templates = s.templates ∧
    (State.reachWrite w x off line s).2.jobs = s.jobs ∧
    (State.reachWrite w x off line s).2.order = s.order := by
  have hF0 := @reachOf_frame
  have hF1 := @State.translate_frame
  unfold State.reachWrite; (repeat' split) <;> simp [hF0, hF1]

theorem State.burstTarget_frame (w : Work) (x : DmaXfer) (s : State) :
    (State.burstTarget w x s).2.now = s.now ∧ (State.burstTarget w x s).2.pending = s.pending ∧
    (State.burstTarget w x s).2.tb = s.tb ∧ (State.burstTarget w x s).2.sheets = s.sheets ∧
    (State.burstTarget w x s).2.units = s.units ∧ (State.burstTarget w x s).2.pins = s.pins ∧
    (State.burstTarget w x s).2.pk = s.pk ∧ (State.burstTarget w x s).2.queues = s.queues ∧
    (State.burstTarget w x s).2.latches = s.latches ∧ (State.burstTarget w x s).2.errw = s.errw ∧
    (State.burstTarget w x s).2.sdio = s.sdio ∧ (State.burstTarget w x s).2.bulk = s.bulk ∧
    (State.burstTarget w x s).2.mgmt = s.mgmt ∧ (State.burstTarget w x s).2.power = s.power ∧
    (State.burstTarget w x s).2.sec = s.sec ∧ (State.burstTarget w x s).2.therm = s.therm ∧
    (State.burstTarget w x s).2.ports = s.ports ∧ (State.burstTarget w x s).2.streams = s.streams ∧
    (State.burstTarget w x s).2.services = s.services ∧ (State.burstTarget w x s).2.ptpPorts = s.ptpPorts ∧
    (State.burstTarget w x s).2.ptp = s.ptp ∧ (State.burstTarget w x s).2.chans = s.chans ∧
    (State.burstTarget w x s).2.seqs = s.seqs ∧ (State.burstTarget w x s).2.hc = s.hc ∧
    (State.burstTarget w x s).2.trim = s.trim ∧ (State.burstTarget w x s).2.bundles = s.bundles ∧
    (State.burstTarget w x s).2.slots = s.slots ∧ (State.burstTarget w x s).2.wt = s.wt ∧
    (State.burstTarget w x s).2.mem = s.mem ∧ (State.burstTarget w x s).2.fwMem = s.fwMem ∧
    (State.burstTarget w x s).2.pricks = s.pricks ∧ (State.burstTarget w x s).2.templates = s.templates ∧
    (State.burstTarget w x s).2.jobs = s.jobs ∧ (State.burstTarget w x s).2.order = s.order := by
  have hF0 := @State.reachWrite_frame
  unfold State.burstTarget; dsimp only; (repeat' split) <;> (repeat (rename _ = (_, _) => hx; obtain ⟨_, rfl⟩ := Prod.ext_iff.mp hx; clear hx)) <;> simp [hF0]

theorem State.storeAll_frame (w : Work) (b : Bytes) (x0 : List Nat) (x1 : State) :
    (State.storeAll w b x0 x1).now = x1.now ∧ (State.storeAll w b x0 x1).pending = x1.pending ∧
    (State.storeAll w b x0 x1).tb = x1.tb ∧ (State.storeAll w b x0 x1).sheets = x1.sheets ∧
    (State.storeAll w b x0 x1).units = x1.units ∧ (State.storeAll w b x0 x1).pins = x1.pins ∧
    (State.storeAll w b x0 x1).pk = x1.pk ∧ (State.storeAll w b x0 x1).errw = x1.errw ∧
    (State.storeAll w b x0 x1).bulk = x1.bulk ∧ (State.storeAll w b x0 x1).mgmt = x1.mgmt ∧
    (State.storeAll w b x0 x1).power = x1.power ∧ (State.storeAll w b x0 x1).sec = x1.sec ∧
    (State.storeAll w b x0 x1).therm = x1.therm ∧ (State.storeAll w b x0 x1).streams = x1.streams ∧
    (State.storeAll w b x0 x1).services = x1.services ∧ (State.storeAll w b x0 x1).ptpPorts = x1.ptpPorts ∧
    (State.storeAll w b x0 x1).ptp = x1.ptp ∧ (State.storeAll w b x0 x1).chans = x1.chans ∧
    (State.storeAll w b x0 x1).seqs = x1.seqs ∧ (State.storeAll w b x0 x1).hc = x1.hc ∧
    (State.storeAll w b x0 x1).trim = x1.trim ∧ (State.storeAll w b x0 x1).bundles = x1.bundles ∧
    (State.storeAll w b x0 x1).slots = x1.slots ∧ (State.storeAll w b x0 x1).wt = x1.wt ∧
    (State.storeAll w b x0 x1).fwMem = x1.fwMem ∧ (State.storeAll w b x0 x1).pricks = x1.pricks ∧
    (State.storeAll w b x0 x1).templates = x1.templates ∧ (State.storeAll w b x0 x1).order = x1.order ∧
    (State.storeAll w b x0 x1).free = x1.free := by
  have hF0 := @State.storeBy_frame
  induction x0 generalizing x1 <;> simp_all [State.storeAll]

@[simp] theorem State.storeAll_wf (w : Work) (b : Bytes) (x0 : List Nat) (x1 : State) (hm : Memory.wf x1.mem = true) :
    Memory.wf (State.storeAll w b x0 x1).mem = true := by
  induction x0 generalizing x1 hm <;> simp_all [State.storeAll]

theorem State.burst_frame (w : Work) (x : DmaXfer) (s : State) (h : (State.burst w x s).isWait = false) :
    (State.burst w x s).okState.now = s.now ∧ (State.burst w x s).okState.pending = s.pending ∧
    (State.burst w x s).okState.tb = s.tb ∧ (State.burst w x s).okState.sheets = s.sheets ∧
    (State.burst w x s).okState.units = s.units ∧ (State.burst w x s).okState.pins = s.pins ∧
    (State.burst w x s).okState.pk = s.pk ∧ (State.burst w x s).okState.errw = s.errw ∧
    (State.burst w x s).okState.bulk = s.bulk ∧ (State.burst w x s).okState.power = s.power ∧
    (State.burst w x s).okState.sec = s.sec ∧ (State.burst w x s).okState.therm = s.therm ∧
    (State.burst w x s).okState.streams = s.streams ∧ (State.burst w x s).okState.services = s.services ∧
    (State.burst w x s).okState.ptpPorts = s.ptpPorts ∧ (State.burst w x s).okState.ptp = s.ptp ∧
    (State.burst w x s).okState.chans = s.chans ∧ (State.burst w x s).okState.seqs = s.seqs ∧
    (State.burst w x s).okState.hc = s.hc ∧ (State.burst w x s).okState.trim = s.trim ∧
    (State.burst w x s).okState.bundles = s.bundles ∧ (State.burst w x s).okState.slots = s.slots ∧
    (State.burst w x s).okState.wt = s.wt ∧ (State.burst w x s).okState.fwMem = s.fwMem ∧
    (State.burst w x s).okState.pricks = s.pricks ∧ (State.burst w x s).okState.templates = s.templates ∧
    (State.burst w x s).okState.order = s.order := by
  have hF0 := @State.reachRead_frame
  have hF1 := @State.burstTarget_frame
  have hF2 := @State.storeAll_frame
  have hF3 := @State.readPhys_frame
  revert h; unfold State.burst; dsimp only; (repeat' split) <;> (repeat (rename _ = (_, _) => hx; obtain ⟨_, rfl⟩ := Prod.ext_iff.mp hx; clear hx)) <;> (repeat (rename _ = Access.ok _ _ => hx; obtain ⟨hw, rfl⟩ := Access.ok_elim hx; clear hx)) <;> (repeat (rename _ = Access.fault _ _ => hx; obtain ⟨hw, rfl⟩ := Access.fault_elim hx; clear hx)) <;> (intro h; first | (simp [hF0, hF1, hF2]; done) | (simp [*]; done) | (simp at h; done))

@[simp] theorem State.burst_wf (w : Work) (x : DmaXfer) (s : State) (hm : Memory.wf s.mem = true) (h : (State.burst w x s).isWait = false) :
    Memory.wf (State.burst w x s).okState.mem = true := by
  have hF0 := @State.reachRead_frame
  have hF1 := @State.burstTarget_frame
  have hF2 := @State.readPhys_frame
  revert h; unfold State.burst; dsimp only; (repeat' split) <;> (repeat (rename _ = (_, _) => hx; obtain ⟨_, rfl⟩ := Prod.ext_iff.mp hx; clear hx)) <;> (repeat (rename _ = Access.ok _ _ => hx; obtain ⟨hw, rfl⟩ := Access.ok_elim hx; clear hx)) <;> (repeat (rename _ = Access.fault _ _ => hx; obtain ⟨hw, rfl⟩ := Access.fault_elim hx; clear hx)) <;> (intro h; first | (simp [hF0, hF1]; done) | (simp [*]; done) | (simp at h; done))

theorem State.xferDone_frame (w : Work) (idx : List Nat) (s : State) :
    (State.xferDone w idx s).now = s.now ∧ (State.xferDone w idx s).pending = s.pending ∧
    (State.xferDone w idx s).tb = s.tb ∧ (State.xferDone w idx s).sheets = s.sheets ∧
    (State.xferDone w idx s).units = s.units ∧ (State.xferDone w idx s).pins = s.pins ∧
    (State.xferDone w idx s).pk = s.pk ∧ (State.xferDone w idx s).errw = s.errw ∧
    (State.xferDone w idx s).bulk = s.bulk ∧ (State.xferDone w idx s).mgmt = s.mgmt ∧
    (State.xferDone w idx s).power = s.power ∧ (State.xferDone w idx s).sec = s.sec ∧
    (State.xferDone w idx s).therm = s.therm ∧ (State.xferDone w idx s).ports = s.ports ∧
    (State.xferDone w idx s).streams = s.streams ∧ (State.xferDone w idx s).services = s.services ∧
    (State.xferDone w idx s).ptpPorts = s.ptpPorts ∧ (State.xferDone w idx s).ptp = s.ptp ∧
    (State.xferDone w idx s).chans = s.chans ∧ (State.xferDone w idx s).seqs = s.seqs ∧
    (State.xferDone w idx s).hc = s.hc ∧ (State.xferDone w idx s).trim = s.trim ∧
    (State.xferDone w idx s).bundles = s.bundles ∧ (State.xferDone w idx s).slots = s.slots ∧
    (State.xferDone w idx s).wt = s.wt ∧ (State.xferDone w idx s).mem = s.mem ∧
    (State.xferDone w idx s).fwMem = s.fwMem ∧ (State.xferDone w idx s).ms = s.ms ∧
    (State.xferDone w idx s).pricks = s.pricks ∧ (State.xferDone w idx s).templates = s.templates ∧
    (State.xferDone w idx s).order = s.order ∧ (State.xferDone w idx s).pillows = s.pillows ∧
    (State.xferDone w idx s).free = s.free := by
  have hF0 := @State.fenceUp_frame
  have hF1 := @State.releaseAt_frame
  unfold State.xferDone; simp [hF0, hF1]

theorem State.xferNext_frame (w : Work) (x : DmaXfer) (n : Nat) (s : State) :
    (State.xferNext w x n s).2.now = s.now ∧ (State.xferNext w x n s).2.pending = s.pending ∧
    (State.xferNext w x n s).2.tb = s.tb ∧ (State.xferNext w x n s).2.sheets = s.sheets ∧
    (State.xferNext w x n s).2.units = s.units ∧ (State.xferNext w x n s).2.pins = s.pins ∧
    (State.xferNext w x n s).2.pk = s.pk ∧ (State.xferNext w x n s).2.errw = s.errw ∧
    (State.xferNext w x n s).2.bulk = s.bulk ∧ (State.xferNext w x n s).2.mgmt = s.mgmt ∧
    (State.xferNext w x n s).2.power = s.power ∧ (State.xferNext w x n s).2.sec = s.sec ∧
    (State.xferNext w x n s).2.therm = s.therm ∧ (State.xferNext w x n s).2.ports = s.ports ∧
    (State.xferNext w x n s).2.streams = s.streams ∧ (State.xferNext w x n s).2.services = s.services ∧
    (State.xferNext w x n s).2.ptpPorts = s.ptpPorts ∧ (State.xferNext w x n s).2.ptp = s.ptp ∧
    (State.xferNext w x n s).2.chans = s.chans ∧ (State.xferNext w x n s).2.seqs = s.seqs ∧
    (State.xferNext w x n s).2.hc = s.hc ∧ (State.xferNext w x n s).2.trim = s.trim ∧
    (State.xferNext w x n s).2.bundles = s.bundles ∧ (State.xferNext w x n s).2.slots = s.slots ∧
    (State.xferNext w x n s).2.wt = s.wt ∧ (State.xferNext w x n s).2.mem = s.mem ∧
    (State.xferNext w x n s).2.fwMem = s.fwMem ∧ (State.xferNext w x n s).2.ms = s.ms ∧
    (State.xferNext w x n s).2.pricks = s.pricks ∧ (State.xferNext w x n s).2.templates = s.templates ∧
    (State.xferNext w x n s).2.order = s.order ∧ (State.xferNext w x n s).2.pillows = s.pillows ∧
    (State.xferNext w x n s).2.free = s.free := by
  have hF0 := @State.landAt_frame
  have hF1 := @State.xferDone_frame
  unfold State.xferNext; dsimp only; (repeat' split) <;> simp [hF0, hF1]

/-! ## Sched -/

theorem State.makeReady_frame (c : Nat) (k : Nat) (s : State) : (State.makeReady c k s).now = s.now ∧
    (State.makeReady c k s).pending = s.pending ∧ (State.makeReady c k s).tb = s.tb ∧
    (State.makeReady c k s).sheets = s.sheets ∧ (State.makeReady c k s).units = s.units ∧
    (State.makeReady c k s).pins = s.pins ∧ (State.makeReady c k s).pk = s.pk ∧
    (State.makeReady c k s).queues = s.queues ∧ (State.makeReady c k s).latches = s.latches ∧
    (State.makeReady c k s).errw = s.errw ∧ (State.makeReady c k s).sdio = s.sdio ∧
    (State.makeReady c k s).bulk = s.bulk ∧ (State.makeReady c k s).mgmt = s.mgmt ∧
    (State.makeReady c k s).power = s.power ∧ (State.makeReady c k s).sec = s.sec ∧
    (State.makeReady c k s).therm = s.therm ∧ (State.makeReady c k s).ports = s.ports ∧
    (State.makeReady c k s).streams = s.streams ∧ (State.makeReady c k s).services = s.services ∧
    (State.makeReady c k s).ptpPorts = s.ptpPorts ∧ (State.makeReady c k s).ptp = s.ptp ∧
    (State.makeReady c k s).chans = s.chans ∧ (State.makeReady c k s).seqs = s.seqs ∧
    (State.makeReady c k s).hc = s.hc ∧ (State.makeReady c k s).trim = s.trim ∧
    (State.makeReady c k s).bundles = s.bundles ∧ (State.makeReady c k s).slots = s.slots ∧
    (State.makeReady c k s).wt = s.wt ∧ (State.makeReady c k s).mem = s.mem ∧
    (State.makeReady c k s).fwMem = s.fwMem ∧ (State.makeReady c k s).ms = s.ms ∧
    (State.makeReady c k s).pricks = s.pricks ∧ (State.makeReady c k s).templates = s.templates ∧
    (State.makeReady c k s).order = s.order ∧ (State.makeReady c k s).free = s.free := by
  have hF0 := @State.modPillow_frame
  have hF1 := @State.setJob_frame
  unfold State.makeReady; dsimp only; (repeat' split) <;> simp [hF0, hF1]

theorem State.modRun_frame (p : Nat) (f : Run → Run) (s : State) : (State.modRun p f s).now = s.now ∧
    (State.modRun p f s).pending = s.pending ∧ (State.modRun p f s).tb = s.tb ∧
    (State.modRun p f s).sheets = s.sheets ∧ (State.modRun p f s).units = s.units ∧
    (State.modRun p f s).pins = s.pins ∧ (State.modRun p f s).pk = s.pk ∧
    (State.modRun p f s).queues = s.queues ∧ (State.modRun p f s).latches = s.latches ∧
    (State.modRun p f s).errw = s.errw ∧ (State.modRun p f s).sdio = s.sdio ∧
    (State.modRun p f s).bulk = s.bulk ∧ (State.modRun p f s).mgmt = s.mgmt ∧
    (State.modRun p f s).power = s.power ∧ (State.modRun p f s).sec = s.sec ∧
    (State.modRun p f s).therm = s.therm ∧ (State.modRun p f s).ports = s.ports ∧
    (State.modRun p f s).streams = s.streams ∧ (State.modRun p f s).services = s.services ∧
    (State.modRun p f s).ptpPorts = s.ptpPorts ∧ (State.modRun p f s).ptp = s.ptp ∧
    (State.modRun p f s).chans = s.chans ∧ (State.modRun p f s).seqs = s.seqs ∧
    (State.modRun p f s).hc = s.hc ∧ (State.modRun p f s).trim = s.trim ∧
    (State.modRun p f s).bundles = s.bundles ∧ (State.modRun p f s).slots = s.slots ∧
    (State.modRun p f s).wt = s.wt ∧ (State.modRun p f s).mem = s.mem ∧
    (State.modRun p f s).fwMem = s.fwMem ∧ (State.modRun p f s).ms = s.ms ∧
    (State.modRun p f s).pricks = s.pricks ∧ (State.modRun p f s).templates = s.templates ∧
    (State.modRun p f s).jobs = s.jobs ∧ (State.modRun p f s).order = s.order ∧
    (State.modRun p f s).free = s.free := by
  have hF0 := @State.modPillow_frame
  unfold State.modRun; simp [hF0]

theorem State.askStop_frame (p : Nat) (u : Nat) (s : State) : (State.askStop p u s).now = s.now ∧
    (State.askStop p u s).pending = s.pending ∧ (State.askStop p u s).tb = s.tb ∧
    (State.askStop p u s).sheets = s.sheets ∧ (State.askStop p u s).units = s.units ∧
    (State.askStop p u s).pins = s.pins ∧ (State.askStop p u s).pk = s.pk ∧
    (State.askStop p u s).queues = s.queues ∧ (State.askStop p u s).latches = s.latches ∧
    (State.askStop p u s).errw = s.errw ∧ (State.askStop p u s).sdio = s.sdio ∧
    (State.askStop p u s).bulk = s.bulk ∧ (State.askStop p u s).mgmt = s.mgmt ∧
    (State.askStop p u s).power = s.power ∧ (State.askStop p u s).sec = s.sec ∧
    (State.askStop p u s).therm = s.therm ∧ (State.askStop p u s).ports = s.ports ∧
    (State.askStop p u s).streams = s.streams ∧ (State.askStop p u s).services = s.services ∧
    (State.askStop p u s).ptpPorts = s.ptpPorts ∧ (State.askStop p u s).ptp = s.ptp ∧
    (State.askStop p u s).chans = s.chans ∧ (State.askStop p u s).seqs = s.seqs ∧
    (State.askStop p u s).hc = s.hc ∧ (State.askStop p u s).trim = s.trim ∧
    (State.askStop p u s).bundles = s.bundles ∧ (State.askStop p u s).slots = s.slots ∧
    (State.askStop p u s).wt = s.wt ∧ (State.askStop p u s).mem = s.mem ∧
    (State.askStop p u s).fwMem = s.fwMem ∧ (State.askStop p u s).ms = s.ms ∧
    (State.askStop p u s).pricks = s.pricks ∧ (State.askStop p u s).templates = s.templates ∧
    (State.askStop p u s).jobs = s.jobs ∧ (State.askStop p u s).order = s.order ∧
    (State.askStop p u s).free = s.free := by
  have hF0 := @State.modRun_frame
  unfold State.askStop; (repeat' split) <;> simp [hF0]

theorem State.stopJob_frame (c : Nat) (s : State) : (State.stopJob c s).now = s.now ∧
    (State.stopJob c s).pending = s.pending ∧ (State.stopJob c s).tb = s.tb ∧
    (State.stopJob c s).sheets = s.sheets ∧ (State.stopJob c s).units = s.units ∧
    (State.stopJob c s).pins = s.pins ∧ (State.stopJob c s).pk = s.pk ∧
    (State.stopJob c s).queues = s.queues ∧ (State.stopJob c s).latches = s.latches ∧
    (State.stopJob c s).errw = s.errw ∧ (State.stopJob c s).sdio = s.sdio ∧
    (State.stopJob c s).bulk = s.bulk ∧ (State.stopJob c s).mgmt = s.mgmt ∧
    (State.stopJob c s).power = s.power ∧ (State.stopJob c s).sec = s.sec ∧
    (State.stopJob c s).therm = s.therm ∧ (State.stopJob c s).ports = s.ports ∧
    (State.stopJob c s).streams = s.streams ∧ (State.stopJob c s).services = s.services ∧
    (State.stopJob c s).ptpPorts = s.ptpPorts ∧ (State.stopJob c s).ptp = s.ptp ∧
    (State.stopJob c s).chans = s.chans ∧ (State.stopJob c s).seqs = s.seqs ∧
    (State.stopJob c s).hc = s.hc ∧ (State.stopJob c s).trim = s.trim ∧
    (State.stopJob c s).bundles = s.bundles ∧ (State.stopJob c s).slots = s.slots ∧
    (State.stopJob c s).wt = s.wt ∧ (State.stopJob c s).mem = s.mem ∧ (State.stopJob c s).fwMem = s.fwMem ∧
    (State.stopJob c s).ms = s.ms ∧ (State.stopJob c s).pricks = s.pricks ∧
    (State.stopJob c s).templates = s.templates ∧ (State.stopJob c s).jobs = s.jobs ∧
    (State.stopJob c s).order = s.order ∧ (State.stopJob c s).free = s.free := by
  unfold State.stopJob; simp

theorem State.freeOwner_frame (owner : Nat) (pinned : Bool) (n : Nat) (s : State) :
    (State.freeOwner owner pinned n s).now = s.now ∧
    (State.freeOwner owner pinned n s).pending = s.pending ∧ (State.freeOwner owner pinned n s).tb = s.tb ∧
    (State.freeOwner owner pinned n s).sheets = s.sheets ∧
    (State.freeOwner owner pinned n s).units = s.units ∧ (State.freeOwner owner pinned n s).pins = s.pins ∧
    (State.freeOwner owner pinned n s).pk = s.pk ∧ (State.freeOwner owner pinned n s).queues = s.queues ∧
    (State.freeOwner owner pinned n s).latches = s.latches ∧
    (State.freeOwner owner pinned n s).errw = s.errw ∧ (State.freeOwner owner pinned n s).sdio = s.sdio ∧
    (State.freeOwner owner pinned n s).bulk = s.bulk ∧ (State.freeOwner owner pinned n s).mgmt = s.mgmt ∧
    (State.freeOwner owner pinned n s).power = s.power ∧ (State.freeOwner owner pinned n s).sec = s.sec ∧
    (State.freeOwner owner pinned n s).therm = s.therm ∧
    (State.freeOwner owner pinned n s).ports = s.ports ∧
    (State.freeOwner owner pinned n s).streams = s.streams ∧
    (State.freeOwner owner pinned n s).services = s.services ∧
    (State.freeOwner owner pinned n s).ptpPorts = s.ptpPorts ∧
    (State.freeOwner owner pinned n s).ptp = s.ptp ∧ (State.freeOwner owner pinned n s).chans = s.chans ∧
    (State.freeOwner owner pinned n s).seqs = s.seqs ∧ (State.freeOwner owner pinned n s).hc = s.hc ∧
    (State.freeOwner owner pinned n s).trim = s.trim ∧
    (State.freeOwner owner pinned n s).bundles = s.bundles ∧
    (State.freeOwner owner pinned n s).slots = s.slots ∧ (State.freeOwner owner pinned n s).wt = s.wt ∧
    (State.freeOwner owner pinned n s).mem = s.mem ∧ (State.freeOwner owner pinned n s).fwMem = s.fwMem ∧
    (State.freeOwner owner pinned n s).ms = s.ms ∧ (State.freeOwner owner pinned n s).pricks = s.pricks ∧
    (State.freeOwner owner pinned n s).templates = s.templates ∧
    (State.freeOwner owner pinned n s).jobs = s.jobs ∧ (State.freeOwner owner pinned n s).order = s.order ∧
    (State.freeOwner owner pinned n s).free = s.free := by
  unfold State.freeOwner; simp

theorem State.countMonitors_frame (c : Nat) (j : Job) (s : State) :
    (State.countMonitors c j s).now = s.now ∧ (State.countMonitors c j s).pending = s.pending ∧
    (State.countMonitors c j s).tb = s.tb ∧ (State.countMonitors c j s).sheets = s.sheets ∧
    (State.countMonitors c j s).units = s.units ∧ (State.countMonitors c j s).pins = s.pins ∧
    (State.countMonitors c j s).pk = s.pk ∧ (State.countMonitors c j s).queues = s.queues ∧
    (State.countMonitors c j s).latches = s.latches ∧ (State.countMonitors c j s).errw = s.errw ∧
    (State.countMonitors c j s).sdio = s.sdio ∧ (State.countMonitors c j s).bulk = s.bulk ∧
    (State.countMonitors c j s).mgmt = s.mgmt ∧ (State.countMonitors c j s).power = s.power ∧
    (State.countMonitors c j s).sec = s.sec ∧ (State.countMonitors c j s).therm = s.therm ∧
    (State.countMonitors c j s).ports = s.ports ∧ (State.countMonitors c j s).streams = s.streams ∧
    (State.countMonitors c j s).services = s.services ∧ (State.countMonitors c j s).ptpPorts = s.ptpPorts ∧
    (State.countMonitors c j s).ptp = s.ptp ∧ (State.countMonitors c j s).chans = s.chans ∧
    (State.countMonitors c j s).seqs = s.seqs ∧ (State.countMonitors c j s).hc = s.hc ∧
    (State.countMonitors c j s).trim = s.trim ∧ (State.countMonitors c j s).bundles = s.bundles ∧
    (State.countMonitors c j s).slots = s.slots ∧ (State.countMonitors c j s).wt = s.wt ∧
    (State.countMonitors c j s).mem = s.mem ∧ (State.countMonitors c j s).fwMem = s.fwMem ∧
    (State.countMonitors c j s).ms = s.ms ∧ (State.countMonitors c j s).pricks = s.pricks ∧
    (State.countMonitors c j s).templates = s.templates ∧ (State.countMonitors c j s).jobs = s.jobs ∧
    (State.countMonitors c j s).order = s.order ∧ (State.countMonitors c j s).free = s.free := by
  have hF0 := @State.modPillow_frame
  unfold State.countMonitors; simp [hF0]

theorem State.dropJob_frame (c : Nat) (s : State) : (State.dropJob c s).now = s.now ∧
    (State.dropJob c s).pending = s.pending ∧ (State.dropJob c s).tb = s.tb ∧
    (State.dropJob c s).sheets = s.sheets ∧ (State.dropJob c s).units = s.units ∧
    (State.dropJob c s).pins = s.pins ∧ (State.dropJob c s).pk = s.pk ∧
    (State.dropJob c s).queues = s.queues ∧ (State.dropJob c s).latches = s.latches ∧
    (State.dropJob c s).errw = s.errw ∧ (State.dropJob c s).sdio = s.sdio ∧
    (State.dropJob c s).bulk = s.bulk ∧ (State.dropJob c s).power = s.power ∧
    (State.dropJob c s).sec = s.sec ∧ (State.dropJob c s).therm = s.therm ∧
    (State.dropJob c s).ports = s.ports ∧ (State.dropJob c s).streams = s.streams ∧
    (State.dropJob c s).services = s.services ∧ (State.dropJob c s).ptpPorts = s.ptpPorts ∧
    (State.dropJob c s).ptp = s.ptp ∧ (State.dropJob c s).chans = s.chans ∧
    (State.dropJob c s).seqs = s.seqs ∧ (State.dropJob c s).hc = s.hc ∧ (State.dropJob c s).trim = s.trim ∧
    (State.dropJob c s).bundles = s.bundles ∧ (State.dropJob c s).slots = s.slots ∧
    (State.dropJob c s).wt = s.wt ∧ (State.dropJob c s).mem = s.mem ∧ (State.dropJob c s).fwMem = s.fwMem ∧
    (State.dropJob c s).ms = s.ms ∧ (State.dropJob c s).pricks = s.pricks ∧
    (State.dropJob c s).templates = s.templates ∧ (State.dropJob c s).order = s.order ∧
    (State.dropJob c s).free = s.free := by
  have hF0 := @State.settle_frame
  have hF1 := @State.freeOwner_frame
  have hF2 := @State.setJob_frame
  have hF3 := @State.countMonitors_frame
  unfold State.dropJob; dsimp only; (repeat' split) <;> simp [hF0, hF1, hF2, hF3]

theorem State.deadLeft_frame (c : Nat) (s : State) : (State.deadLeft c s).now = s.now ∧
    (State.deadLeft c s).pending = s.pending ∧ (State.deadLeft c s).tb = s.tb ∧
    (State.deadLeft c s).sheets = s.sheets ∧ (State.deadLeft c s).units = s.units ∧
    (State.deadLeft c s).pins = s.pins ∧ (State.deadLeft c s).pk = s.pk ∧
    (State.deadLeft c s).latches = s.latches ∧ (State.deadLeft c s).errw = s.errw ∧
    (State.deadLeft c s).bulk = s.bulk ∧ (State.deadLeft c s).power = s.power ∧
    (State.deadLeft c s).sec = s.sec ∧ (State.deadLeft c s).therm = s.therm ∧
    (State.deadLeft c s).ports = s.ports ∧ (State.deadLeft c s).streams = s.streams ∧
    (State.deadLeft c s).services = s.services ∧ (State.deadLeft c s).ptpPorts = s.ptpPorts ∧
    (State.deadLeft c s).ptp = s.ptp ∧ (State.deadLeft c s).chans = s.chans ∧
    (State.deadLeft c s).seqs = s.seqs ∧ (State.deadLeft c s).hc = s.hc ∧
    (State.deadLeft c s).trim = s.trim ∧ (State.deadLeft c s).bundles = s.bundles ∧
    (State.deadLeft c s).slots = s.slots ∧ (State.deadLeft c s).wt = s.wt ∧
    (State.deadLeft c s).mem = s.mem ∧ (State.deadLeft c s).fwMem = s.fwMem ∧
    (State.deadLeft c s).ms = s.ms ∧ (State.deadLeft c s).pricks = s.pricks ∧
    (State.deadLeft c s).templates = s.templates ∧ (State.deadLeft c s).order = s.order ∧
    (State.deadLeft c s).free = s.free := by
  have hF0 := @State.modJob_frame
  have hF1 := @State.done_frame
  have hF2 := @State.settle_frame
  have hF3 := @State.freeOwner_frame
  have hF4 := @State.countMonitors_frame
  unfold State.deadLeft; dsimp only; (repeat' split) <;> simp [hF0, hF1, hF2, hF3, hF4]

theorem State.abortJob_frame (c : Nat) (status : Nat) (s : State) :
    (State.abortJob c status s).now = s.now ∧ (State.abortJob c status s).pending = s.pending ∧
    (State.abortJob c status s).tb = s.tb ∧ (State.abortJob c status s).sheets = s.sheets ∧
    (State.abortJob c status s).units = s.units ∧ (State.abortJob c status s).pins = s.pins ∧
    (State.abortJob c status s).pk = s.pk ∧ (State.abortJob c status s).latches = s.latches ∧
    (State.abortJob c status s).errw = s.errw ∧ (State.abortJob c status s).bulk = s.bulk ∧
    (State.abortJob c status s).power = s.power ∧ (State.abortJob c status s).sec = s.sec ∧
    (State.abortJob c status s).therm = s.therm ∧ (State.abortJob c status s).ports = s.ports ∧
    (State.abortJob c status s).streams = s.streams ∧ (State.abortJob c status s).services = s.services ∧
    (State.abortJob c status s).ptpPorts = s.ptpPorts ∧ (State.abortJob c status s).ptp = s.ptp ∧
    (State.abortJob c status s).chans = s.chans ∧ (State.abortJob c status s).seqs = s.seqs ∧
    (State.abortJob c status s).hc = s.hc ∧ (State.abortJob c status s).trim = s.trim ∧
    (State.abortJob c status s).bundles = s.bundles ∧ (State.abortJob c status s).slots = s.slots ∧
    (State.abortJob c status s).wt = s.wt ∧ (State.abortJob c status s).mem = s.mem ∧
    (State.abortJob c status s).fwMem = s.fwMem ∧ (State.abortJob c status s).ms = s.ms ∧
    (State.abortJob c status s).pricks = s.pricks ∧ (State.abortJob c status s).templates = s.templates ∧
    (State.abortJob c status s).order = s.order ∧ (State.abortJob c status s).free = s.free := by
  have hF0 := @State.setJob_frame
  have hF1 := @State.askStop_frame
  have hF2 := @State.deadLeft_frame
  unfold State.abortJob; dsimp only; (repeat' split) <;> simp [hF0, hF1, hF2]

theorem State.abortAsked_frame (c : Nat) (s : State) : (State.abortAsked c s).now = s.now ∧
    (State.abortAsked c s).pending = s.pending ∧ (State.abortAsked c s).tb = s.tb ∧
    (State.abortAsked c s).sheets = s.sheets ∧ (State.abortAsked c s).units = s.units ∧
    (State.abortAsked c s).pins = s.pins ∧ (State.abortAsked c s).pk = s.pk ∧
    (State.abortAsked c s).latches = s.latches ∧ (State.abortAsked c s).errw = s.errw ∧
    (State.abortAsked c s).bulk = s.bulk ∧ (State.abortAsked c s).power = s.power ∧
    (State.abortAsked c s).sec = s.sec ∧ (State.abortAsked c s).therm = s.therm ∧
    (State.abortAsked c s).ports = s.ports ∧ (State.abortAsked c s).streams = s.streams ∧
    (State.abortAsked c s).services = s.services ∧ (State.abortAsked c s).ptpPorts = s.ptpPorts ∧
    (State.abortAsked c s).ptp = s.ptp ∧ (State.abortAsked c s).chans = s.chans ∧
    (State.abortAsked c s).seqs = s.seqs ∧ (State.abortAsked c s).hc = s.hc ∧
    (State.abortAsked c s).trim = s.trim ∧ (State.abortAsked c s).bundles = s.bundles ∧
    (State.abortAsked c s).slots = s.slots ∧ (State.abortAsked c s).wt = s.wt ∧
    (State.abortAsked c s).mem = s.mem ∧ (State.abortAsked c s).fwMem = s.fwMem ∧
    (State.abortAsked c s).ms = s.ms ∧ (State.abortAsked c s).pricks = s.pricks ∧
    (State.abortAsked c s).templates = s.templates ∧ (State.abortAsked c s).order = s.order ∧
    (State.abortAsked c s).free = s.free := by
  have hF0 := @State.done_frame
  have hF1 := @State.dropJob_frame
  have hF2 := @State.stopJob_frame
  unfold State.abortAsked; dsimp only; (repeat' split) <;> simp [hF0, hF1, hF2]

theorem State.moveJob_frame (c : Nat) (p : Nat) (q : Nat) (s : State) :
    (State.moveJob c p q s).now = s.now ∧ (State.moveJob c p q s).pending = s.pending ∧
    (State.moveJob c p q s).tb = s.tb ∧ (State.moveJob c p q s).sheets = s.sheets ∧
    (State.moveJob c p q s).units = s.units ∧ (State.moveJob c p q s).pins = s.pins ∧
    (State.moveJob c p q s).pk = s.pk ∧ (State.moveJob c p q s).latches = s.latches ∧
    (State.moveJob c p q s).errw = s.errw ∧ (State.moveJob c p q s).bulk = s.bulk ∧
    (State.moveJob c p q s).power = s.power ∧ (State.moveJob c p q s).sec = s.sec ∧
    (State.moveJob c p q s).therm = s.therm ∧ (State.moveJob c p q s).ports = s.ports ∧
    (State.moveJob c p q s).streams = s.streams ∧ (State.moveJob c p q s).services = s.services ∧
    (State.moveJob c p q s).ptpPorts = s.ptpPorts ∧ (State.moveJob c p q s).ptp = s.ptp ∧
    (State.moveJob c p q s).chans = s.chans ∧ (State.moveJob c p q s).seqs = s.seqs ∧
    (State.moveJob c p q s).hc = s.hc ∧ (State.moveJob c p q s).trim = s.trim ∧
    (State.moveJob c p q s).bundles = s.bundles ∧ (State.moveJob c p q s).slots = s.slots ∧
    (State.moveJob c p q s).wt = s.wt ∧ (State.moveJob c p q s).mem = s.mem ∧
    (State.moveJob c p q s).fwMem = s.fwMem ∧ (State.moveJob c p q s).ms = s.ms ∧
    (State.moveJob c p q s).pricks = s.pricks ∧ (State.moveJob c p q s).templates = s.templates ∧
    (State.moveJob c p q s).order = s.order ∧ (State.moveJob c p q s).free = s.free := by
  have hF0 := @State.makeReady_frame
  have hF1 := @State.setJob_frame
  have hF2 := @State.modPillow_frame
  unfold State.moveJob; dsimp only; (repeat' split) <;> simp [hF0, hF1, hF2]

theorem State.offlineJob_frame (c : Nat) (s : State) : (State.offlineJob c s).now = s.now ∧
    (State.offlineJob c s).pending = s.pending ∧ (State.offlineJob c s).tb = s.tb ∧
    (State.offlineJob c s).sheets = s.sheets ∧ (State.offlineJob c s).units = s.units ∧
    (State.offlineJob c s).pins = s.pins ∧ (State.offlineJob c s).pk = s.pk ∧
    (State.offlineJob c s).queues = s.queues ∧ (State.offlineJob c s).latches = s.latches ∧
    (State.offlineJob c s).errw = s.errw ∧ (State.offlineJob c s).sdio = s.sdio ∧
    (State.offlineJob c s).bulk = s.bulk ∧ (State.offlineJob c s).mgmt = s.mgmt ∧
    (State.offlineJob c s).power = s.power ∧ (State.offlineJob c s).sec = s.sec ∧
    (State.offlineJob c s).therm = s.therm ∧ (State.offlineJob c s).ports = s.ports ∧
    (State.offlineJob c s).streams = s.streams ∧ (State.offlineJob c s).services = s.services ∧
    (State.offlineJob c s).ptpPorts = s.ptpPorts ∧ (State.offlineJob c s).ptp = s.ptp ∧
    (State.offlineJob c s).chans = s.chans ∧ (State.offlineJob c s).seqs = s.seqs ∧
    (State.offlineJob c s).hc = s.hc ∧ (State.offlineJob c s).trim = s.trim ∧
    (State.offlineJob c s).bundles = s.bundles ∧ (State.offlineJob c s).slots = s.slots ∧
    (State.offlineJob c s).wt = s.wt ∧ (State.offlineJob c s).mem = s.mem ∧
    (State.offlineJob c s).fwMem = s.fwMem ∧ (State.offlineJob c s).ms = s.ms ∧
    (State.offlineJob c s).pricks = s.pricks ∧ (State.offlineJob c s).templates = s.templates ∧
    (State.offlineJob c s).order = s.order ∧ (State.offlineJob c s).free = s.free := by
  have hF0 := @State.modJob_frame
  have hF1 := @State.stopJob_frame
  unfold State.offlineJob; simp [hF0, hF1]

theorem State.endTaint_frame (p : Nat) (s : State) : (State.endTaint p s).now = s.now ∧
    (State.endTaint p s).pending = s.pending ∧ (State.endTaint p s).tb = s.tb ∧
    (State.endTaint p s).sheets = s.sheets ∧ (State.endTaint p s).units = s.units ∧
    (State.endTaint p s).pins = s.pins ∧ (State.endTaint p s).pk = s.pk ∧
    (State.endTaint p s).queues = s.queues ∧ (State.endTaint p s).latches = s.latches ∧
    (State.endTaint p s).errw = s.errw ∧ (State.endTaint p s).sdio = s.sdio ∧
    (State.endTaint p s).bulk = s.bulk ∧ (State.endTaint p s).mgmt = s.mgmt ∧
    (State.endTaint p s).power = s.power ∧ (State.endTaint p s).sec = s.sec ∧
    (State.endTaint p s).therm = s.therm ∧ (State.endTaint p s).ports = s.ports ∧
    (State.endTaint p s).streams = s.streams ∧ (State.endTaint p s).services = s.services ∧
    (State.endTaint p s).ptpPorts = s.ptpPorts ∧ (State.endTaint p s).ptp = s.ptp ∧
    (State.endTaint p s).chans = s.chans ∧ (State.endTaint p s).seqs = s.seqs ∧
    (State.endTaint p s).hc = s.hc ∧ (State.endTaint p s).trim = s.trim ∧
    (State.endTaint p s).bundles = s.bundles ∧ (State.endTaint p s).slots = s.slots ∧
    (State.endTaint p s).wt = s.wt ∧ (State.endTaint p s).mem = s.mem ∧
    (State.endTaint p s).fwMem = s.fwMem ∧ (State.endTaint p s).ms = s.ms ∧
    (State.endTaint p s).pricks = s.pricks ∧ (State.endTaint p s).templates = s.templates ∧
    (State.endTaint p s).jobs = s.jobs ∧ (State.endTaint p s).order = s.order ∧
    (State.endTaint p s).free = s.free := by
  have hF0 := @State.setPillow_frame
  unfold State.endTaint; simp [hF0]

theorem State.displace_frame (p : Nat) (slots : List Nat) (s : State) :
    (State.displace p slots s).2.2.2.now = s.now ∧ (State.displace p slots s).2.2.2.pending = s.pending ∧
    (State.displace p slots s).2.2.2.tb = s.tb ∧ (State.displace p slots s).2.2.2.sheets = s.sheets ∧
    (State.displace p slots s).2.2.2.units = s.units ∧ (State.displace p slots s).2.2.2.pins = s.pins ∧
    (State.displace p slots s).2.2.2.pk = s.pk ∧ (State.displace p slots s).2.2.2.latches = s.latches ∧
    (State.displace p slots s).2.2.2.errw = s.errw ∧ (State.displace p slots s).2.2.2.bulk = s.bulk ∧
    (State.displace p slots s).2.2.2.power = s.power ∧ (State.displace p slots s).2.2.2.sec = s.sec ∧
    (State.displace p slots s).2.2.2.therm = s.therm ∧ (State.displace p slots s).2.2.2.ports = s.ports ∧
    (State.displace p slots s).2.2.2.streams = s.streams ∧
    (State.displace p slots s).2.2.2.services = s.services ∧
    (State.displace p slots s).2.2.2.ptpPorts = s.ptpPorts ∧ (State.displace p slots s).2.2.2.ptp = s.ptp ∧
    (State.displace p slots s).2.2.2.chans = s.chans ∧ (State.displace p slots s).2.2.2.seqs = s.seqs ∧
    (State.displace p slots s).2.2.2.hc = s.hc ∧ (State.displace p slots s).2.2.2.trim = s.trim ∧
    (State.displace p slots s).2.2.2.bundles = s.bundles ∧
    (State.displace p slots s).2.2.2.slots = s.slots ∧ (State.displace p slots s).2.2.2.wt = s.wt ∧
    (State.displace p slots s).2.2.2.mem = s.mem ∧ (State.displace p slots s).2.2.2.fwMem = s.fwMem ∧
    (State.displace p slots s).2.2.2.ms = s.ms ∧ (State.displace p slots s).2.2.2.pricks = s.pricks ∧
    (State.displace p slots s).2.2.2.templates = s.templates ∧
    (State.displace p slots s).2.2.2.order = s.order ∧ (State.displace p slots s).2.2.2.free = s.free := by
  have hF0 := @State.moveJob_frame
  have hF1 := @State.offlineJob_frame
  unfold State.displace; exact foldl_keeps (fun b : Nat × Nat × List Nat × State => b.2.2.2.now = s.now ∧ b.2.2.2.pending = s.pending ∧ b.2.2.2.tb = s.tb ∧ b.2.2.2.sheets = s.sheets ∧ b.2.2.2.units = s.units ∧ b.2.2.2.pins = s.pins ∧ b.2.2.2.pk = s.pk ∧ b.2.2.2.latches = s.latches ∧ b.2.2.2.errw = s.errw ∧ b.2.2.2.bulk = s.bulk ∧ b.2.2.2.power = s.power ∧ b.2.2.2.sec = s.sec ∧ b.2.2.2.therm = s.therm ∧ b.2.2.2.ports = s.ports ∧ b.2.2.2.streams = s.streams ∧ b.2.2.2.services = s.services ∧ b.2.2.2.ptpPorts = s.ptpPorts ∧ b.2.2.2.ptp = s.ptp ∧ b.2.2.2.chans = s.chans ∧ b.2.2.2.seqs = s.seqs ∧ b.2.2.2.hc = s.hc ∧ b.2.2.2.trim = s.trim ∧ b.2.2.2.bundles = s.bundles ∧ b.2.2.2.slots = s.slots ∧ b.2.2.2.wt = s.wt ∧ b.2.2.2.mem = s.mem ∧ b.2.2.2.fwMem = s.fwMem ∧ b.2.2.2.ms = s.ms ∧ b.2.2.2.pricks = s.pricks ∧ b.2.2.2.templates = s.templates ∧ b.2.2.2.order = s.order ∧ b.2.2.2.free = s.free) _ _ _ (by simp) (by
  rintro ⟨m, n, ps, t⟩ ⟨c, j⟩ hR
  dsimp only at hR ⊢
  (repeat' split) <;> simp_all)

theorem State.abortLoose_frame (f : Nat → Job → Bool) (s : State) : (State.abortLoose f s).now = s.now ∧
    (State.abortLoose f s).pending = s.pending ∧ (State.abortLoose f s).tb = s.tb ∧
    (State.abortLoose f s).sheets = s.sheets ∧ (State.abortLoose f s).units = s.units ∧
    (State.abortLoose f s).pins = s.pins ∧ (State.abortLoose f s).pk = s.pk ∧
    (State.abortLoose f s).latches = s.latches ∧ (State.abortLoose f s).errw = s.errw ∧
    (State.abortLoose f s).bulk = s.bulk ∧ (State.abortLoose f s).power = s.power ∧
    (State.abortLoose f s).sec = s.sec ∧ (State.abortLoose f s).therm = s.therm ∧
    (State.abortLoose f s).ports = s.ports ∧ (State.abortLoose f s).streams = s.streams ∧
    (State.abortLoose f s).services = s.services ∧ (State.abortLoose f s).ptpPorts = s.ptpPorts ∧
    (State.abortLoose f s).ptp = s.ptp ∧ (State.abortLoose f s).chans = s.chans ∧
    (State.abortLoose f s).seqs = s.seqs ∧ (State.abortLoose f s).hc = s.hc ∧
    (State.abortLoose f s).trim = s.trim ∧ (State.abortLoose f s).bundles = s.bundles ∧
    (State.abortLoose f s).slots = s.slots ∧ (State.abortLoose f s).wt = s.wt ∧
    (State.abortLoose f s).mem = s.mem ∧ (State.abortLoose f s).fwMem = s.fwMem ∧
    (State.abortLoose f s).ms = s.ms ∧ (State.abortLoose f s).pricks = s.pricks ∧
    (State.abortLoose f s).templates = s.templates ∧ (State.abortLoose f s).order = s.order ∧
    (State.abortLoose f s).free = s.free := by
  have hF0 := @State.abortJob_frame
  unfold State.abortLoose; simp [hF0]

theorem State.reportOut_frame (p : Nat) (n : Nat) (s : State) : (State.reportOut p n s).now = s.now ∧
    (State.reportOut p n s).pending = s.pending ∧ (State.reportOut p n s).tb = s.tb ∧
    (State.reportOut p n s).sheets = s.sheets ∧ (State.reportOut p n s).units = s.units ∧
    (State.reportOut p n s).pins = s.pins ∧ (State.reportOut p n s).pk = s.pk ∧
    (State.reportOut p n s).errw = s.errw ∧ (State.reportOut p n s).bulk = s.bulk ∧
    (State.reportOut p n s).mgmt = s.mgmt ∧ (State.reportOut p n s).power = s.power ∧
    (State.reportOut p n s).sec = s.sec ∧ (State.reportOut p n s).therm = s.therm ∧
    (State.reportOut p n s).ports = s.ports ∧ (State.reportOut p n s).streams = s.streams ∧
    (State.reportOut p n s).services = s.services ∧ (State.reportOut p n s).ptpPorts = s.ptpPorts ∧
    (State.reportOut p n s).ptp = s.ptp ∧ (State.reportOut p n s).chans = s.chans ∧
    (State.reportOut p n s).seqs = s.seqs ∧ (State.reportOut p n s).hc = s.hc ∧
    (State.reportOut p n s).trim = s.trim ∧ (State.reportOut p n s).bundles = s.bundles ∧
    (State.reportOut p n s).slots = s.slots ∧ (State.reportOut p n s).wt = s.wt ∧
    (State.reportOut p n s).mem = s.mem ∧ (State.reportOut p n s).fwMem = s.fwMem ∧
    (State.reportOut p n s).ms = s.ms ∧ (State.reportOut p n s).pricks = s.pricks ∧
    (State.reportOut p n s).templates = s.templates ∧ (State.reportOut p n s).jobs = s.jobs ∧
    (State.reportOut p n s).order = s.order ∧ (State.reportOut p n s).pillows = s.pillows ∧
    (State.reportOut p n s).free = s.free := by
  have hF0 := @State.guarantee_frame
  unfold State.reportOut; dsimp only; (repeat' split) <;> simp [hF0]

theorem State.failOut_frame (p : Nat) (cause : Nat) (s : State) : (State.failOut p cause s).2.now = s.now ∧
    (State.failOut p cause s).2.pending = s.pending ∧ (State.failOut p cause s).2.tb = s.tb ∧
    (State.failOut p cause s).2.sheets = s.sheets ∧ (State.failOut p cause s).2.units = s.units ∧
    (State.failOut p cause s).2.errw = s.errw ∧ (State.failOut p cause s).2.bulk = s.bulk ∧
    (State.failOut p cause s).2.sec = s.sec ∧ (State.failOut p cause s).2.therm = s.therm ∧
    (State.failOut p cause s).2.streams = s.streams ∧ (State.failOut p cause s).2.ptpPorts = s.ptpPorts ∧
    (State.failOut p cause s).2.ptp = s.ptp ∧ (State.failOut p cause s).2.chans = s.chans ∧
    (State.failOut p cause s).2.seqs = s.seqs ∧ (State.failOut p cause s).2.hc = s.hc ∧
    (State.failOut p cause s).2.trim = s.trim ∧ (State.failOut p cause s).2.bundles = s.bundles ∧
    (State.failOut p cause s).2.slots = s.slots ∧ (State.failOut p cause s).2.wt = s.wt ∧
    (State.failOut p cause s).2.fwMem = s.fwMem ∧ (State.failOut p cause s).2.pricks = s.pricks ∧
    (State.failOut p cause s).2.templates = s.templates ∧ (State.failOut p cause s).2.order = s.order := by
  have hF0 := @State.modPillow_frame
  have hF1 := @State.draw_frame
  have hF2 := @State.report_frame
  have hF3 := @State.enterFatal_frame
  have hF4 := @State.loseDomain_frame
  have hF5 := @State.faultOn_frame
  have hF6 := @State.covered_frame
  have hF7 := @State.deadLeft_frame
  have hF8 := @State.displace_frame
  have hF9 := @State.abortLoose_frame
  have hF10 := @State.reportOut_frame
  unfold State.failOut; simp [hF0, hF1, hF2, hF3, hF4, hF5, hF6, hF7, hF8, hF9, hF10]

@[simp] theorem State.failOut_wf (p : Nat) (cause : Nat) (s : State) (hm : Memory.wf s.mem = true) :
    Memory.wf (State.failOut p cause s).2.mem = true := by
  have hF0 := @State.modPillow_frame
  have hF1 := @State.draw_frame
  have hF2 := @State.report_frame
  have hF3 := @State.enterFatal_frame
  have hF4 := @State.faultOn_frame
  have hF5 := @State.covered_frame
  have hF6 := @State.deadLeft_frame
  have hF7 := @State.displace_frame
  have hF8 := @State.abortLoose_frame
  have hF9 := @State.reportOut_frame
  unfold State.failOut; (repeat' (first | split | dsimp only)) <;> (repeat (rename _ = (_, _) => hx; obtain ⟨_, rfl⟩ := Prod.ext_iff.mp hx; clear hx)) <;> (repeat (rename _ = Access.ok _ _ => hx; obtain ⟨hw, rfl⟩ := Access.ok_elim hx; clear hx)) <;> (repeat (rename _ = Access.fault _ _ => hx; obtain ⟨hw, rfl⟩ := Access.fault_elim hx; clear hx)) <;> simp_all

theorem State.saveArea_frame (p : Nat) (addr : Nat) (slot : Nat) (s : State) :
    (State.saveArea p addr slot s).2.now = s.now ∧ (State.saveArea p addr slot s).2.pending = s.pending ∧
    (State.saveArea p addr slot s).2.tb = s.tb ∧ (State.saveArea p addr slot s).2.sheets = s.sheets ∧
    (State.saveArea p addr slot s).2.units = s.units ∧ (State.saveArea p addr slot s).2.errw = s.errw ∧
    (State.saveArea p addr slot s).2.bulk = s.bulk ∧ (State.saveArea p addr slot s).2.sec = s.sec ∧
    (State.saveArea p addr slot s).2.therm = s.therm ∧
    (State.saveArea p addr slot s).2.streams = s.streams ∧
    (State.saveArea p addr slot s).2.ptpPorts = s.ptpPorts ∧ (State.saveArea p addr slot s).2.ptp = s.ptp ∧
    (State.saveArea p addr slot s).2.chans = s.chans ∧ (State.saveArea p addr slot s).2.seqs = s.seqs ∧
    (State.saveArea p addr slot s).2.hc = s.hc ∧ (State.saveArea p addr slot s).2.trim = s.trim ∧
    (State.saveArea p addr slot s).2.bundles = s.bundles ∧
    (State.saveArea p addr slot s).2.slots = s.slots ∧ (State.saveArea p addr slot s).2.wt = s.wt ∧
    (State.saveArea p addr slot s).2.fwMem = s.fwMem ∧ (State.saveArea p addr slot s).2.pricks = s.pricks ∧
    (State.saveArea p addr slot s).2.templates = s.templates ∧
    (State.saveArea p addr slot s).2.order = s.order := by
  have hF0 := @State.failOut_frame
  have hF1 := @State.report_frame
  unfold State.saveArea; simp [hF0, hF1]

@[simp] theorem State.saveArea_wf (p : Nat) (addr : Nat) (slot : Nat) (s : State) (hm : Memory.wf s.mem = true) :
    Memory.wf (State.saveArea p addr slot s).2.mem = true := by
  have hF0 := @State.report_frame
  unfold State.saveArea; simp [hF0, hm]

theorem State.bobbinFail_frame (p : Nat) (b : Nat) (cause : Nat) (s : State) :
    (State.bobbinFail p b cause s).2.now = s.now ∧ (State.bobbinFail p b cause s).2.pending = s.pending ∧
    (State.bobbinFail p b cause s).2.tb = s.tb ∧ (State.bobbinFail p b cause s).2.sheets = s.sheets ∧
    (State.bobbinFail p b cause s).2.units = s.units ∧ (State.bobbinFail p b cause s).2.errw = s.errw ∧
    (State.bobbinFail p b cause s).2.bulk = s.bulk ∧ (State.bobbinFail p b cause s).2.sec = s.sec ∧
    (State.bobbinFail p b cause s).2.therm = s.therm ∧
    (State.bobbinFail p b cause s).2.streams = s.streams ∧
    (State.bobbinFail p b cause s).2.ptpPorts = s.ptpPorts ∧ (State.bobbinFail p b cause s).2.ptp = s.ptp ∧
    (State.bobbinFail p b cause s).2.chans = s.chans ∧ (State.bobbinFail p b cause s).2.seqs = s.seqs ∧
    (State.bobbinFail p b cause s).2.hc = s.hc ∧ (State.bobbinFail p b cause s).2.trim = s.trim ∧
    (State.bobbinFail p b cause s).2.bundles = s.bundles ∧
    (State.bobbinFail p b cause s).2.slots = s.slots ∧ (State.bobbinFail p b cause s).2.wt = s.wt ∧
    (State.bobbinFail p b cause s).2.fwMem = s.fwMem ∧ (State.bobbinFail p b cause s).2.pricks = s.pricks ∧
    (State.bobbinFail p b cause s).2.templates = s.templates ∧
    (State.bobbinFail p b cause s).2.order = s.order := by
  have hF0 := @State.setBobbin_frame
  have hF1 := @State.draw_frame
  have hF2 := @State.report_frame
  have hF3 := @State.faultOn_frame
  have hF4 := @State.guarantee_frame
  have hF5 := @State.covered_frame
  have hF6 := @State.requestRefresh_frame
  have hF7 := @State.dropRefresh_frame
  have hF8 := @State.endTaint_frame
  have hF9 := @State.displace_frame
  have hF10 := @State.abortLoose_frame
  have hF11 := @State.failOut_frame
  unfold State.bobbinFail; simp [hF0, hF1, hF2, hF3, hF4, hF5, hF6, hF7, hF8, hF9, hF10, hF11]

@[simp] theorem State.bobbinFail_wf (p : Nat) (b : Nat) (cause : Nat) (s : State) (hm : Memory.wf s.mem = true) :
    Memory.wf (State.bobbinFail p b cause s).2.mem = true := by
  have hF0 := @State.setBobbin_frame
  have hF1 := @State.draw_frame
  have hF2 := @State.report_frame
  have hF3 := @State.faultOn_frame
  have hF4 := @State.guarantee_frame
  have hF5 := @State.covered_frame
  have hF6 := @State.requestRefresh_frame
  have hF7 := @State.dropRefresh_frame
  have hF8 := @State.endTaint_frame
  have hF9 := @State.displace_frame
  have hF10 := @State.abortLoose_frame
  unfold State.bobbinFail; simp [hF0, hF1, hF2, hF3, hF4, hF5, hF6, hF7, hF8, hF9, hF10, hm]

theorem State.condState_frame (w : Work) (s : State) : (State.condState w s).2.now = s.now ∧
    (State.condState w s).2.pending = s.pending ∧ (State.condState w s).2.tb = s.tb ∧
    (State.condState w s).2.sheets = s.sheets ∧ (State.condState w s).2.units = s.units ∧
    (State.condState w s).2.pins = s.pins ∧ (State.condState w s).2.pk = s.pk ∧
    (State.condState w s).2.errw = s.errw ∧ (State.condState w s).2.bulk = s.bulk ∧
    (State.condState w s).2.power = s.power ∧ (State.condState w s).2.sec = s.sec ∧
    (State.condState w s).2.therm = s.therm ∧ (State.condState w s).2.ports = s.ports ∧
    (State.condState w s).2.streams = s.streams ∧ (State.condState w s).2.services = s.services ∧
    (State.condState w s).2.ptpPorts = s.ptpPorts ∧ (State.condState w s).2.ptp = s.ptp ∧
    (State.condState w s).2.chans = s.chans ∧ (State.condState w s).2.seqs = s.seqs ∧
    (State.condState w s).2.hc = s.hc ∧ (State.condState w s).2.trim = s.trim ∧
    (State.condState w s).2.bundles = s.bundles ∧ (State.condState w s).2.slots = s.slots ∧
    (State.condState w s).2.wt = s.wt ∧ (State.condState w s).2.mem = s.mem ∧
    (State.condState w s).2.fwMem = s.fwMem ∧ (State.condState w s).2.pricks = s.pricks ∧
    (State.condState w s).2.templates = s.templates ∧ (State.condState w s).2.order = s.order := by
  have hF0 := @State.draw_frame
  have hF1 := @State.readToken_frame
  unfold State.condState; dsimp only; (repeat' split) <;> simp [hF0, hF1]

theorem State.parked_frame (w : Work) (s : State) : (State.parked w s).2.now = s.now ∧
    (State.parked w s).2.pending = s.pending ∧ (State.parked w s).2.tb = s.tb ∧
    (State.parked w s).2.sheets = s.sheets ∧ (State.parked w s).2.units = s.units ∧
    (State.parked w s).2.pins = s.pins ∧ (State.parked w s).2.pk = s.pk ∧
    (State.parked w s).2.errw = s.errw ∧ (State.parked w s).2.bulk = s.bulk ∧
    (State.parked w s).2.power = s.power ∧ (State.parked w s).2.sec = s.sec ∧
    (State.parked w s).2.therm = s.therm ∧ (State.parked w s).2.ports = s.ports ∧
    (State.parked w s).2.streams = s.streams ∧ (State.parked w s).2.services = s.services ∧
    (State.parked w s).2.ptpPorts = s.ptpPorts ∧ (State.parked w s).2.ptp = s.ptp ∧
    (State.parked w s).2.chans = s.chans ∧ (State.parked w s).2.seqs = s.seqs ∧
    (State.parked w s).2.hc = s.hc ∧ (State.parked w s).2.trim = s.trim ∧
    (State.parked w s).2.bundles = s.bundles ∧ (State.parked w s).2.slots = s.slots ∧
    (State.parked w s).2.wt = s.wt ∧ (State.parked w s).2.mem = s.mem ∧
    (State.parked w s).2.fwMem = s.fwMem ∧ (State.parked w s).2.pricks = s.pricks ∧
    (State.parked w s).2.templates = s.templates ∧ (State.parked w s).2.order = s.order := by
  have hF0 := @State.condState_frame
  unfold State.parked; simp [hF0]

theorem State.startSave_frame (w : Work) (suspended : Bool) (s : State) :
    (State.startSave w suspended s).now = s.now ∧ (State.startSave w suspended s).pending = s.pending ∧
    (State.startSave w suspended s).tb = s.tb ∧ (State.startSave w suspended s).sheets = s.sheets ∧
    (State.startSave w suspended s).units = s.units ∧ (State.startSave w suspended s).pins = s.pins ∧
    (State.startSave w suspended s).pk = s.pk ∧ (State.startSave w suspended s).errw = s.errw ∧
    (State.startSave w suspended s).bulk = s.bulk ∧ (State.startSave w suspended s).power = s.power ∧
    (State.startSave w suspended s).sec = s.sec ∧ (State.startSave w suspended s).therm = s.therm ∧
    (State.startSave w suspended s).ports = s.ports ∧ (State.startSave w suspended s).streams = s.streams ∧
    (State.startSave w suspended s).services = s.services ∧
    (State.startSave w suspended s).ptpPorts = s.ptpPorts ∧ (State.startSave w suspended s).ptp = s.ptp ∧
    (State.startSave w suspended s).chans = s.chans ∧ (State.startSave w suspended s).seqs = s.seqs ∧
    (State.startSave w suspended s).hc = s.hc ∧ (State.startSave w suspended s).trim = s.trim ∧
    (State.startSave w suspended s).bundles = s.bundles ∧ (State.startSave w suspended s).slots = s.slots ∧
    (State.startSave w suspended s).wt = s.wt ∧ (State.startSave w suspended s).mem = s.mem ∧
    (State.startSave w suspended s).fwMem = s.fwMem ∧ (State.startSave w suspended s).pricks = s.pricks ∧
    (State.startSave w suspended s).templates = s.templates ∧
    (State.startSave w suspended s).order = s.order := by
  have hF0 := @State.modJob_frame
  have hF1 := @State.setPillow_frame
  have hF2 := @State.parked_frame
  unfold State.startSave; simp [hF0, hF1, hF2]

theorem State.countPreempt_frame (p : Nat) (s : State) : (State.countPreempt p s).now = s.now ∧
    (State.countPreempt p s).pending = s.pending ∧ (State.countPreempt p s).tb = s.tb ∧
    (State.countPreempt p s).sheets = s.sheets ∧ (State.countPreempt p s).units = s.units ∧
    (State.countPreempt p s).pins = s.pins ∧ (State.countPreempt p s).pk = s.pk ∧
    (State.countPreempt p s).queues = s.queues ∧ (State.countPreempt p s).latches = s.latches ∧
    (State.countPreempt p s).errw = s.errw ∧ (State.countPreempt p s).sdio = s.sdio ∧
    (State.countPreempt p s).bulk = s.bulk ∧ (State.countPreempt p s).mgmt = s.mgmt ∧
    (State.countPreempt p s).power = s.power ∧ (State.countPreempt p s).sec = s.sec ∧
    (State.countPreempt p s).therm = s.therm ∧ (State.countPreempt p s).ports = s.ports ∧
    (State.countPreempt p s).streams = s.streams ∧ (State.countPreempt p s).services = s.services ∧
    (State.countPreempt p s).ptpPorts = s.ptpPorts ∧ (State.countPreempt p s).ptp = s.ptp ∧
    (State.countPreempt p s).chans = s.chans ∧ (State.countPreempt p s).seqs = s.seqs ∧
    (State.countPreempt p s).hc = s.hc ∧ (State.countPreempt p s).trim = s.trim ∧
    (State.countPreempt p s).bundles = s.bundles ∧ (State.countPreempt p s).slots = s.slots ∧
    (State.countPreempt p s).wt = s.wt ∧ (State.countPreempt p s).mem = s.mem ∧
    (State.countPreempt p s).fwMem = s.fwMem ∧ (State.countPreempt p s).ms = s.ms ∧
    (State.countPreempt p s).pricks = s.pricks ∧ (State.countPreempt p s).templates = s.templates ∧
    (State.countPreempt p s).jobs = s.jobs ∧ (State.countPreempt p s).order = s.order ∧
    (State.countPreempt p s).free = s.free := by
  have hF0 := @State.modPillow_frame
  unfold State.countPreempt; simp [hF0]

theorem State.setRun_frame (p : Nat) (r : Run) (s : State) : (State.setRun p r s).now = s.now ∧
    (State.setRun p r s).pending = s.pending ∧ (State.setRun p r s).tb = s.tb ∧
    (State.setRun p r s).sheets = s.sheets ∧ (State.setRun p r s).units = s.units ∧
    (State.setRun p r s).pins = s.pins ∧ (State.setRun p r s).pk = s.pk ∧
    (State.setRun p r s).queues = s.queues ∧ (State.setRun p r s).latches = s.latches ∧
    (State.setRun p r s).errw = s.errw ∧ (State.setRun p r s).sdio = s.sdio ∧
    (State.setRun p r s).bulk = s.bulk ∧ (State.setRun p r s).mgmt = s.mgmt ∧
    (State.setRun p r s).power = s.power ∧ (State.setRun p r s).sec = s.sec ∧
    (State.setRun p r s).therm = s.therm ∧ (State.setRun p r s).ports = s.ports ∧
    (State.setRun p r s).streams = s.streams ∧ (State.setRun p r s).services = s.services ∧
    (State.setRun p r s).ptpPorts = s.ptpPorts ∧ (State.setRun p r s).ptp = s.ptp ∧
    (State.setRun p r s).chans = s.chans ∧ (State.setRun p r s).seqs = s.seqs ∧
    (State.setRun p r s).hc = s.hc ∧ (State.setRun p r s).trim = s.trim ∧
    (State.setRun p r s).bundles = s.bundles ∧ (State.setRun p r s).slots = s.slots ∧
    (State.setRun p r s).wt = s.wt ∧ (State.setRun p r s).mem = s.mem ∧
    (State.setRun p r s).fwMem = s.fwMem ∧ (State.setRun p r s).ms = s.ms ∧
    (State.setRun p r s).pricks = s.pricks ∧ (State.setRun p r s).templates = s.templates ∧
    (State.setRun p r s).jobs = s.jobs ∧ (State.setRun p r s).order = s.order ∧
    (State.setRun p r s).free = s.free := by
  have hF0 := @State.modPillow_frame
  unfold State.setRun; simp [hF0]

theorem State.countStart_frame (w : Work) (s : State) : (State.countStart w s).now = s.now ∧
    (State.countStart w s).pending = s.pending ∧ (State.countStart w s).tb = s.tb ∧
    (State.countStart w s).sheets = s.sheets ∧ (State.countStart w s).units = s.units ∧
    (State.countStart w s).pins = s.pins ∧ (State.countStart w s).pk = s.pk ∧
    (State.countStart w s).queues = s.queues ∧ (State.countStart w s).latches = s.latches ∧
    (State.countStart w s).errw = s.errw ∧ (State.countStart w s).sdio = s.sdio ∧
    (State.countStart w s).bulk = s.bulk ∧ (State.countStart w s).mgmt = s.mgmt ∧
    (State.countStart w s).power = s.power ∧ (State.countStart w s).sec = s.sec ∧
    (State.countStart w s).therm = s.therm ∧ (State.countStart w s).ports = s.ports ∧
    (State.countStart w s).streams = s.streams ∧ (State.countStart w s).services = s.services ∧
    (State.countStart w s).ptpPorts = s.ptpPorts ∧ (State.countStart w s).ptp = s.ptp ∧
    (State.countStart w s).chans = s.chans ∧ (State.countStart w s).seqs = s.seqs ∧
    (State.countStart w s).hc = s.hc ∧ (State.countStart w s).trim = s.trim ∧
    (State.countStart w s).bundles = s.bundles ∧ (State.countStart w s).slots = s.slots ∧
    (State.countStart w s).wt = s.wt ∧ (State.countStart w s).mem = s.mem ∧
    (State.countStart w s).fwMem = s.fwMem ∧ (State.countStart w s).ms = s.ms ∧
    (State.countStart w s).pricks = s.pricks ∧ (State.countStart w s).templates = s.templates ∧
    (State.countStart w s).order = s.order ∧ (State.countStart w s).free = s.free := by
  have hF0 := @State.modJob_frame
  have hF1 := @State.modPillow_frame
  unfold State.countStart; simp [hF0, hF1]

theorem State.startOp_frame (w : Work) (f : Work → State → State) (s : State) (hf : ∀ w t, (f w t).now = t.now ∧ (f w t).pending = t.pending ∧ (f w t).tb = t.tb ∧ (f w t).sheets = t.sheets ∧ (f w t).units = t.units ∧ (f w t).pins = t.pins ∧ (f w t).pk = t.pk ∧ (f w t).errw = t.errw ∧ (f w t).bulk = t.bulk ∧ (f w t).power = t.power ∧ (f w t).sec = t.sec ∧ (f w t).therm = t.therm ∧ (f w t).ports = t.ports ∧ (f w t).streams = t.streams ∧ (f w t).services = t.services ∧ (f w t).ptpPorts = t.ptpPorts ∧ (f w t).ptp = t.ptp ∧ (f w t).chans = t.chans ∧ (f w t).seqs = t.seqs ∧ (f w t).hc = t.hc ∧ (f w t).trim = t.trim ∧ (f w t).bundles = t.bundles ∧ (f w t).slots = t.slots ∧ (f w t).wt = t.wt ∧ (f w t).mem = t.mem ∧ (f w t).fwMem = t.fwMem ∧ (f w t).pricks = t.pricks ∧ (f w t).templates = t.templates ∧ (f w t).order = t.order) (h : (State.startOp w f s).isWait = false) :
    (State.startOp w f s).okState.now = s.now ∧ (State.startOp w f s).okState.pending = s.pending ∧
    (State.startOp w f s).okState.tb = s.tb ∧ (State.startOp w f s).okState.sheets = s.sheets ∧
    (State.startOp w f s).okState.units = s.units ∧ (State.startOp w f s).okState.pins = s.pins ∧
    (State.startOp w f s).okState.pk = s.pk ∧ (State.startOp w f s).okState.errw = s.errw ∧
    (State.startOp w f s).okState.bulk = s.bulk ∧ (State.startOp w f s).okState.power = s.power ∧
    (State.startOp w f s).okState.sec = s.sec ∧ (State.startOp w f s).okState.therm = s.therm ∧
    (State.startOp w f s).okState.ports = s.ports ∧ (State.startOp w f s).okState.streams = s.streams ∧
    (State.startOp w f s).okState.services = s.services ∧
    (State.startOp w f s).okState.ptpPorts = s.ptpPorts ∧ (State.startOp w f s).okState.ptp = s.ptp ∧
    (State.startOp w f s).okState.chans = s.chans ∧ (State.startOp w f s).okState.seqs = s.seqs ∧
    (State.startOp w f s).okState.hc = s.hc ∧ (State.startOp w f s).okState.trim = s.trim ∧
    (State.startOp w f s).okState.bundles = s.bundles ∧ (State.startOp w f s).okState.slots = s.slots ∧
    (State.startOp w f s).okState.wt = s.wt ∧ (State.startOp w f s).okState.mem = s.mem ∧
    (State.startOp w f s).okState.fwMem = s.fwMem ∧ (State.startOp w f s).okState.pricks = s.pricks ∧
    (State.startOp w f s).okState.templates = s.templates ∧
    (State.startOp w f s).okState.order = s.order := by
  have hF0 := @State.countStart_frame
  revert h
  unfold State.startOp
  dsimp only
  generalize hqa : State.readVa w 1 false _ _ s = a
  have hka : a.isWait = false → (fun z : State => z.now = s.now ∧ z.pending = s.pending ∧ z.tb = s.tb ∧ z.sheets = s.sheets ∧ z.units = s.units ∧ z.pins = s.pins ∧ z.pk = s.pk ∧ z.errw = s.errw ∧ z.bulk = s.bulk ∧ z.power = s.power ∧ z.sec = s.sec ∧ z.therm = s.therm ∧ z.ports = s.ports ∧ z.streams = s.streams ∧ z.services = s.services ∧ z.ptpPorts = s.ptpPorts ∧ z.ptp = s.ptp ∧ z.chans = s.chans ∧ z.seqs = s.seqs ∧ z.hc = s.hc ∧ z.trim = s.trim ∧ z.bundles = s.bundles ∧ z.slots = s.slots ∧ z.wt = s.wt ∧ z.mem = s.mem ∧ z.fwMem = s.fwMem ∧ z.pricks = s.pricks ∧ z.templates = s.templates ∧ z.order = s.order) a.okState := by
    intro ha
    subst hqa
    exact State.readVa_frame _ _ _ _ _ _ ha
  cases a with
  | ok b t =>
    have ht := hka rfl
    dsimp only [Access.okState_ok] at ht ⊢
    exact fun _ => by simp [hf, hF0, ht]
  | fault g t =>
    have ht := hka rfl
    dsimp only [Access.okState_fault] at ht ⊢
    exact fun _ => by simp [ht]
  | wait n l d => exact fun h => by cases h

theorem State.enterLoop_frame (w : Work) (s : State) : (State.enterLoop w s).now = s.now ∧
    (State.enterLoop w s).pending = s.pending ∧ (State.enterLoop w s).tb = s.tb ∧
    (State.enterLoop w s).sheets = s.sheets ∧ (State.enterLoop w s).units = s.units ∧
    (State.enterLoop w s).pins = s.pins ∧ (State.enterLoop w s).pk = s.pk ∧
    (State.enterLoop w s).queues = s.queues ∧ (State.enterLoop w s).latches = s.latches ∧
    (State.enterLoop w s).errw = s.errw ∧ (State.enterLoop w s).sdio = s.sdio ∧
    (State.enterLoop w s).bulk = s.bulk ∧ (State.enterLoop w s).mgmt = s.mgmt ∧
    (State.enterLoop w s).power = s.power ∧ (State.enterLoop w s).sec = s.sec ∧
    (State.enterLoop w s).therm = s.therm ∧ (State.enterLoop w s).ports = s.ports ∧
    (State.enterLoop w s).streams = s.streams ∧ (State.enterLoop w s).services = s.services ∧
    (State.enterLoop w s).ptpPorts = s.ptpPorts ∧ (State.enterLoop w s).ptp = s.ptp ∧
    (State.enterLoop w s).chans = s.chans ∧ (State.enterLoop w s).seqs = s.seqs ∧
    (State.enterLoop w s).hc = s.hc ∧ (State.enterLoop w s).trim = s.trim ∧
    (State.enterLoop w s).bundles = s.bundles ∧ (State.enterLoop w s).slots = s.slots ∧
    (State.enterLoop w s).wt = s.wt ∧ (State.enterLoop w s).mem = s.mem ∧
    (State.enterLoop w s).fwMem = s.fwMem ∧ (State.enterLoop w s).ms = s.ms ∧
    (State.enterLoop w s).pricks = s.pricks ∧ (State.enterLoop w s).templates = s.templates ∧
    (State.enterLoop w s).order = s.order ∧ (State.enterLoop w s).free = s.free := by
  have hF0 := @State.modJob_frame
  have hF1 := @State.setRun_frame
  unfold State.enterLoop; dsimp only; (repeat' split) <;> simp [hF0, hF1]

theorem State.enterDma_frame (w : Work) (s : State) : (State.enterDma w s).now = s.now ∧
    (State.enterDma w s).pending = s.pending ∧ (State.enterDma w s).tb = s.tb ∧
    (State.enterDma w s).sheets = s.sheets ∧ (State.enterDma w s).units = s.units ∧
    (State.enterDma w s).pins = s.pins ∧ (State.enterDma w s).pk = s.pk ∧
    (State.enterDma w s).errw = s.errw ∧ (State.enterDma w s).bulk = s.bulk ∧
    (State.enterDma w s).mgmt = s.mgmt ∧ (State.enterDma w s).power = s.power ∧
    (State.enterDma w s).sec = s.sec ∧ (State.enterDma w s).therm = s.therm ∧
    (State.enterDma w s).ports = s.ports ∧ (State.enterDma w s).streams = s.streams ∧
    (State.enterDma w s).services = s.services ∧ (State.enterDma w s).ptpPorts = s.ptpPorts ∧
    (State.enterDma w s).ptp = s.ptp ∧ (State.enterDma w s).chans = s.chans ∧
    (State.enterDma w s).seqs = s.seqs ∧ (State.enterDma w s).hc = s.hc ∧
    (State.enterDma w s).trim = s.trim ∧ (State.enterDma w s).bundles = s.bundles ∧
    (State.enterDma w s).slots = s.slots ∧ (State.enterDma w s).wt = s.wt ∧
    (State.enterDma w s).mem = s.mem ∧ (State.enterDma w s).fwMem = s.fwMem ∧
    (State.enterDma w s).ms = s.ms ∧ (State.enterDma w s).pricks = s.pricks ∧
    (State.enterDma w s).templates = s.templates ∧ (State.enterDma w s).order = s.order ∧
    (State.enterDma w s).free = s.free := by
  have hF0 := @State.setRun_frame
  have hF1 := @State.fenceUp_frame
  unfold State.enterDma; dsimp only; (repeat' split) <;> simp [hF0, hF1]

theorem State.unitFault_frame (p : Nat) (f : FaultRec) (s : State) : (State.unitFault p f s).now = s.now ∧
    (State.unitFault p f s).pending = s.pending ∧ (State.unitFault p f s).tb = s.tb ∧
    (State.unitFault p f s).sheets = s.sheets ∧ (State.unitFault p f s).units = s.units ∧
    (State.unitFault p f s).pins = s.pins ∧ (State.unitFault p f s).pk = s.pk ∧
    (State.unitFault p f s).errw = s.errw ∧ (State.unitFault p f s).bulk = s.bulk ∧
    (State.unitFault p f s).power = s.power ∧ (State.unitFault p f s).sec = s.sec ∧
    (State.unitFault p f s).therm = s.therm ∧ (State.unitFault p f s).ports = s.ports ∧
    (State.unitFault p f s).streams = s.streams ∧ (State.unitFault p f s).services = s.services ∧
    (State.unitFault p f s).ptpPorts = s.ptpPorts ∧ (State.unitFault p f s).ptp = s.ptp ∧
    (State.unitFault p f s).chans = s.chans ∧ (State.unitFault p f s).seqs = s.seqs ∧
    (State.unitFault p f s).hc = s.hc ∧ (State.unitFault p f s).trim = s.trim ∧
    (State.unitFault p f s).bundles = s.bundles ∧ (State.unitFault p f s).slots = s.slots ∧
    (State.unitFault p f s).wt = s.wt ∧ (State.unitFault p f s).mem = s.mem ∧
    (State.unitFault p f s).fwMem = s.fwMem ∧ (State.unitFault p f s).ms = s.ms ∧
    (State.unitFault p f s).pricks = s.pricks ∧ (State.unitFault p f s).templates = s.templates ∧
    (State.unitFault p f s).order = s.order ∧ (State.unitFault p f s).free = s.free := by
  have hF0 := @State.modJob_frame
  have hF1 := @State.modPillow_frame
  have hF2 := @State.report_frame
  have hF3 := @State.modRun_frame
  have hF4 := @State.askStop_frame
  have hF5 := @State.abortJob_frame
  unfold State.unitFault; dsimp only; (repeat' split) <;> simp [hF0, hF1, hF2, hF3, hF4, hF5]

theorem State.unitWait_frame (p : Nat) (u : Nat) (win : Nat) (line : Int) (write : Bool) (s : State) :
    (State.unitWait p u win line write s).now = s.now ∧
    (State.unitWait p u win line write s).pending = s.pending ∧
    (State.unitWait p u win line write s).tb = s.tb ∧
    (State.unitWait p u win line write s).sheets = s.sheets ∧
    (State.unitWait p u win line write s).units = s.units ∧
    (State.unitWait p u win line write s).pins = s.pins ∧ (State.unitWait p u win line write s).pk = s.pk ∧
    (State.unitWait p u win line write s).queues = s.queues ∧
    (State.unitWait p u win line write s).latches = s.latches ∧
    (State.unitWait p u win line write s).errw = s.errw ∧
    (State.unitWait p u win line write s).sdio = s.sdio ∧
    (State.unitWait p u win line write s).bulk = s.bulk ∧
    (State.unitWait p u win line write s).mgmt = s.mgmt ∧
    (State.unitWait p u win line write s).power = s.power ∧
    (State.unitWait p u win line write s).sec = s.sec ∧
    (State.unitWait p u win line write s).therm = s.therm ∧
    (State.unitWait p u win line write s).ports = s.ports ∧
    (State.unitWait p u win line write s).streams = s.streams ∧
    (State.unitWait p u win line write s).services = s.services ∧
    (State.unitWait p u win line write s).ptpPorts = s.ptpPorts ∧
    (State.unitWait p u win line write s).ptp = s.ptp ∧
    (State.unitWait p u win line write s).chans = s.chans ∧
    (State.unitWait p u win line write s).seqs = s.seqs ∧ (State.unitWait p u win line write s).hc = s.hc ∧
    (State.unitWait p u win line write s).trim = s.trim ∧
    (State.unitWait p u win line write s).bundles = s.bundles ∧
    (State.unitWait p u win line write s).slots = s.slots ∧
    (State.unitWait p u win line write s).wt = s.wt ∧ (State.unitWait p u win line write s).mem = s.mem ∧
    (State.unitWait p u win line write s).fwMem = s.fwMem ∧
    (State.unitWait p u win line write s).ms = s.ms ∧
    (State.unitWait p u win line write s).pricks = s.pricks ∧
    (State.unitWait p u win line write s).templates = s.templates ∧
    (State.unitWait p u win line write s).jobs = s.jobs ∧
    (State.unitWait p u win line write s).order = s.order ∧
    (State.unitWait p u win line write s).free = s.free := by
  have hF0 := @State.modRun_frame
  unfold State.unitWait; simp [hF0]

theorem State.stageEnd_frame (p : Nat) (r : Run) (s : State) : (State.stageEnd p r s).2.now = s.now ∧
    (State.stageEnd p r s).2.pending = s.pending ∧ (State.stageEnd p r s).2.tb = s.tb ∧
    (State.stageEnd p r s).2.sheets = s.sheets ∧ (State.stageEnd p r s).2.units = s.units ∧
    (State.stageEnd p r s).2.pins = s.pins ∧ (State.stageEnd p r s).2.pk = s.pk ∧
    (State.stageEnd p r s).2.latches = s.latches ∧ (State.stageEnd p r s).2.errw = s.errw ∧
    (State.stageEnd p r s).2.bulk = s.bulk ∧ (State.stageEnd p r s).2.power = s.power ∧
    (State.stageEnd p r s).2.sec = s.sec ∧ (State.stageEnd p r s).2.therm = s.therm ∧
    (State.stageEnd p r s).2.ports = s.ports ∧ (State.stageEnd p r s).2.streams = s.streams ∧
    (State.stageEnd p r s).2.services = s.services ∧ (State.stageEnd p r s).2.ptpPorts = s.ptpPorts ∧
    (State.stageEnd p r s).2.ptp = s.ptp ∧ (State.stageEnd p r s).2.chans = s.chans ∧
    (State.stageEnd p r s).2.seqs = s.seqs ∧ (State.stageEnd p r s).2.hc = s.hc ∧
    (State.stageEnd p r s).2.trim = s.trim ∧ (State.stageEnd p r s).2.bundles = s.bundles ∧
    (State.stageEnd p r s).2.slots = s.slots ∧ (State.stageEnd p r s).2.wt = s.wt ∧
    (State.stageEnd p r s).2.mem = s.mem ∧ (State.stageEnd p r s).2.fwMem = s.fwMem ∧
    (State.stageEnd p r s).2.ms = s.ms ∧ (State.stageEnd p r s).2.pricks = s.pricks ∧
    (State.stageEnd p r s).2.templates = s.templates ∧ (State.stageEnd p r s).2.order = s.order ∧
    (State.stageEnd p r s).2.free = s.free := by
  have hF0 := @State.modJob_frame
  have hF1 := @State.setPillow_frame
  have hF2 := @State.modPillow_frame
  have hF3 := @State.done_frame
  have hF4 := @State.settle_frame
  have hF5 := @State.makeReady_frame
  have hF6 := @State.dropJob_frame
  have hF7 := @State.endTaint_frame
  unfold State.stageEnd; dsimp only; (repeat' split) <;> simp [hF0, hF1, hF2, hF3, hF4, hF5, hF6, hF7]

theorem State.placeRun_frame (p : Nat) (r : Run) (s : State) : (State.placeRun p r s).now = s.now ∧
    (State.placeRun p r s).pending = s.pending ∧ (State.placeRun p r s).tb = s.tb ∧
    (State.placeRun p r s).sheets = s.sheets ∧ (State.placeRun p r s).units = s.units ∧
    (State.placeRun p r s).pins = s.pins ∧ (State.placeRun p r s).pk = s.pk ∧
    (State.placeRun p r s).queues = s.queues ∧ (State.placeRun p r s).latches = s.latches ∧
    (State.placeRun p r s).errw = s.errw ∧ (State.placeRun p r s).sdio = s.sdio ∧
    (State.placeRun p r s).bulk = s.bulk ∧ (State.placeRun p r s).mgmt = s.mgmt ∧
    (State.placeRun p r s).power = s.power ∧ (State.placeRun p r s).sec = s.sec ∧
    (State.placeRun p r s).therm = s.therm ∧ (State.placeRun p r s).ports = s.ports ∧
    (State.placeRun p r s).streams = s.streams ∧ (State.placeRun p r s).services = s.services ∧
    (State.placeRun p r s).ptpPorts = s.ptpPorts ∧ (State.placeRun p r s).ptp = s.ptp ∧
    (State.placeRun p r s).chans = s.chans ∧ (State.placeRun p r s).seqs = s.seqs ∧
    (State.placeRun p r s).hc = s.hc ∧ (State.placeRun p r s).trim = s.trim ∧
    (State.placeRun p r s).bundles = s.bundles ∧ (State.placeRun p r s).slots = s.slots ∧
    (State.placeRun p r s).wt = s.wt ∧ (State.placeRun p r s).mem = s.mem ∧
    (State.placeRun p r s).fwMem = s.fwMem ∧ (State.placeRun p r s).ms = s.ms ∧
    (State.placeRun p r s).pricks = s.pricks ∧ (State.placeRun p r s).templates = s.templates ∧
    (State.placeRun p r s).order = s.order ∧ (State.placeRun p r s).free = s.free := by
  have hF0 := @State.modJob_frame
  have hF1 := @State.setPillow_frame
  unfold State.placeRun; simp [hF0, hF1]

theorem State.startRun_frame (p : Nat) (c : Nat) (k : Nat) (s : State) :
    (State.startRun p c k s).2.now = s.now ∧ (State.startRun p c k s).2.pending = s.pending ∧
    (State.startRun p c k s).2.tb = s.tb ∧ (State.startRun p c k s).2.sheets = s.sheets ∧
    (State.startRun p c k s).2.units = s.units ∧ (State.startRun p c k s).2.errw = s.errw ∧
    (State.startRun p c k s).2.bulk = s.bulk ∧ (State.startRun p c k s).2.sec = s.sec ∧
    (State.startRun p c k s).2.therm = s.therm ∧ (State.startRun p c k s).2.streams = s.streams ∧
    (State.startRun p c k s).2.ptpPorts = s.ptpPorts ∧ (State.startRun p c k s).2.ptp = s.ptp ∧
    (State.startRun p c k s).2.chans = s.chans ∧ (State.startRun p c k s).2.seqs = s.seqs ∧
    (State.startRun p c k s).2.hc = s.hc ∧ (State.startRun p c k s).2.trim = s.trim ∧
    (State.startRun p c k s).2.bundles = s.bundles ∧ (State.startRun p c k s).2.slots = s.slots ∧
    (State.startRun p c k s).2.wt = s.wt ∧ (State.startRun p c k s).2.fwMem = s.fwMem ∧
    (State.startRun p c k s).2.pricks = s.pricks ∧ (State.startRun p c k s).2.templates = s.templates ∧
    (State.startRun p c k s).2.order = s.order := by
  have hF0 := @State.unpoison_frame
  have hF1 := @State.setJob_frame
  have hF2 := @State.meetErrs_frame
  have hF3 := @State.idleAdopt_frame
  have hF4 := @State.saveArea_frame
  have hF5 := @State.placeRun_frame
  unfold State.startRun; dsimp only; (repeat' split) <;> simp [hF0, hF1, hF2, hF3, hF4, hF5]

@[simp] theorem State.startRun_wf (p : Nat) (c : Nat) (k : Nat) (s : State) (hm : Memory.wf s.mem = true) :
    Memory.wf (State.startRun p c k s).2.mem = true := by
  have hF0 := @State.unpoison_frame
  have hF1 := @State.setJob_frame
  have hF2 := @State.meetErrs_frame
  have hF3 := @State.idleAdopt_frame
  have hF4 := @State.placeRun_frame
  unfold State.startRun; dsimp only; (repeat' split) <;> simp [hF0, hF1, hF2, hF3, hF4, hm]

theorem State.resume_frame (p : Nat) (r : Run) (s : State) : (State.resume p r s).2.now = s.now ∧
    (State.resume p r s).2.pending = s.pending ∧ (State.resume p r s).2.tb = s.tb ∧
    (State.resume p r s).2.sheets = s.sheets ∧ (State.resume p r s).2.units = s.units ∧
    (State.resume p r s).2.errw = s.errw ∧ (State.resume p r s).2.bulk = s.bulk ∧
    (State.resume p r s).2.sec = s.sec ∧ (State.resume p r s).2.therm = s.therm ∧
    (State.resume p r s).2.streams = s.streams ∧ (State.resume p r s).2.ptpPorts = s.ptpPorts ∧
    (State.resume p r s).2.ptp = s.ptp ∧ (State.resume p r s).2.chans = s.chans ∧
    (State.resume p r s).2.seqs = s.seqs ∧ (State.resume p r s).2.hc = s.hc ∧
    (State.resume p r s).2.trim = s.trim ∧ (State.resume p r s).2.bundles = s.bundles ∧
    (State.resume p r s).2.slots = s.slots ∧ (State.resume p r s).2.wt = s.wt ∧
    (State.resume p r s).2.fwMem = s.fwMem ∧ (State.resume p r s).2.pricks = s.pricks ∧
    (State.resume p r s).2.templates = s.templates ∧ (State.resume p r s).2.order = s.order := by
  have hF0 := @State.saveArea_frame
  have hF1 := @State.modPillow_frame
  have hF2 := @State.placeRun_frame
  unfold State.resume; (repeat' split) <;> simp [hF0, hF1, hF2]

@[simp] theorem State.resume_wf (p : Nat) (r : Run) (s : State) (hm : Memory.wf s.mem = true) :
    Memory.wf (State.resume p r s).2.mem = true := by
  have hF0 := @State.modPillow_frame
  have hF1 := @State.placeRun_frame
  unfold State.resume; (repeat' split) <;> simp [hF0, hF1, hm]

theorem State.pick_frame (p : Nat) (s : State) : (State.pick p s).2.now = s.now ∧
    (State.pick p s).2.pending = s.pending ∧ (State.pick p s).2.tb = s.tb ∧
    (State.pick p s).2.sheets = s.sheets ∧ (State.pick p s).2.units = s.units ∧
    (State.pick p s).2.errw = s.errw ∧ (State.pick p s).2.bulk = s.bulk ∧ (State.pick p s).2.sec = s.sec ∧
    (State.pick p s).2.therm = s.therm ∧ (State.pick p s).2.streams = s.streams ∧
    (State.pick p s).2.ptpPorts = s.ptpPorts ∧ (State.pick p s).2.ptp = s.ptp ∧
    (State.pick p s).2.chans = s.chans ∧ (State.pick p s).2.seqs = s.seqs ∧ (State.pick p s).2.hc = s.hc ∧
    (State.pick p s).2.trim = s.trim ∧ (State.pick p s).2.bundles = s.bundles ∧
    (State.pick p s).2.slots = s.slots ∧ (State.pick p s).2.wt = s.wt ∧ (State.pick p s).2.fwMem = s.fwMem ∧
    (State.pick p s).2.pricks = s.pricks ∧ (State.pick p s).2.templates = s.templates ∧
    (State.pick p s).2.order = s.order := by
  have hF0 := @State.resume_frame
  have hF1 := @State.setPillow_frame
  have hF2 := @State.startRun_frame
  unfold State.pick; dsimp only; (repeat' split) <;> simp [hF0, hF1, hF2]

@[simp] theorem State.pick_wf (p : Nat) (s : State) (hm : Memory.wf s.mem = true) :
    Memory.wf (State.pick p s).2.mem = true := by
  have hF0 := @State.setPillow_frame
  unfold State.pick; dsimp only; (repeat' split) <;> simp [hF0, hm]

theorem State.putAside_frame (w : Work) (s : State) : (State.putAside w s).now = s.now ∧
    (State.putAside w s).pending = s.pending ∧ (State.putAside w s).tb = s.tb ∧
    (State.putAside w s).sheets = s.sheets ∧ (State.putAside w s).units = s.units ∧
    (State.putAside w s).pins = s.pins ∧ (State.putAside w s).pk = s.pk ∧
    (State.putAside w s).errw = s.errw ∧ (State.putAside w s).bulk = s.bulk ∧
    (State.putAside w s).power = s.power ∧ (State.putAside w s).sec = s.sec ∧
    (State.putAside w s).therm = s.therm ∧ (State.putAside w s).ports = s.ports ∧
    (State.putAside w s).streams = s.streams ∧ (State.putAside w s).services = s.services ∧
    (State.putAside w s).ptpPorts = s.ptpPorts ∧ (State.putAside w s).ptp = s.ptp ∧
    (State.putAside w s).chans = s.chans ∧ (State.putAside w s).seqs = s.seqs ∧
    (State.putAside w s).hc = s.hc ∧ (State.putAside w s).trim = s.trim ∧
    (State.putAside w s).bundles = s.bundles ∧ (State.putAside w s).slots = s.slots ∧
    (State.putAside w s).wt = s.wt ∧ (State.putAside w s).mem = s.mem ∧
    (State.putAside w s).fwMem = s.fwMem ∧ (State.putAside w s).pricks = s.pricks ∧
    (State.putAside w s).templates = s.templates ∧ (State.putAside w s).order = s.order := by
  have hF0 := @State.modPillow_frame
  have hF1 := @State.parked_frame
  have hF2 := @State.startSave_frame
  unfold State.putAside; simp [hF0, hF1, hF2]

theorem State.swapBanks_frame (w : Work) (q : Run) (s : State) : (State.swapBanks w q s).2.now = s.now ∧
    (State.swapBanks w q s).2.pending = s.pending ∧ (State.swapBanks w q s).2.tb = s.tb ∧
    (State.swapBanks w q s).2.sheets = s.sheets ∧ (State.swapBanks w q s).2.units = s.units ∧
    (State.swapBanks w q s).2.errw = s.errw ∧ (State.swapBanks w q s).2.bulk = s.bulk ∧
    (State.swapBanks w q s).2.sec = s.sec ∧ (State.swapBanks w q s).2.therm = s.therm ∧
    (State.swapBanks w q s).2.streams = s.streams ∧ (State.swapBanks w q s).2.ptpPorts = s.ptpPorts ∧
    (State.swapBanks w q s).2.ptp = s.ptp ∧ (State.swapBanks w q s).2.chans = s.chans ∧
    (State.swapBanks w q s).2.seqs = s.seqs ∧ (State.swapBanks w q s).2.hc = s.hc ∧
    (State.swapBanks w q s).2.trim = s.trim ∧ (State.swapBanks w q s).2.bundles = s.bundles ∧
    (State.swapBanks w q s).2.slots = s.slots ∧ (State.swapBanks w q s).2.wt = s.wt ∧
    (State.swapBanks w q s).2.fwMem = s.fwMem ∧ (State.swapBanks w q s).2.pricks = s.pricks ∧
    (State.swapBanks w q s).2.templates = s.templates ∧ (State.swapBanks w q s).2.order = s.order := by
  have hF0 := @State.modPillow_frame
  have hF1 := @State.parked_frame
  have hF2 := @State.resume_frame
  unfold State.swapBanks; simp [hF0, hF1, hF2]

@[simp] theorem State.swapBanks_wf (w : Work) (q : Run) (s : State) (hm : Memory.wf s.mem = true) :
    Memory.wf (State.swapBanks w q s).2.mem = true := by
  have hF0 := @State.modPillow_frame
  have hF1 := @State.parked_frame
  unfold State.swapBanks; simp [hF0, hF1, hm]

theorem State.preempted_frame (w : Work) (s : State) : (State.preempted w s).2.now = s.now ∧
    (State.preempted w s).2.pending = s.pending ∧ (State.preempted w s).2.tb = s.tb ∧
    (State.preempted w s).2.sheets = s.sheets ∧ (State.preempted w s).2.units = s.units ∧
    (State.preempted w s).2.errw = s.errw ∧ (State.preempted w s).2.bulk = s.bulk ∧
    (State.preempted w s).2.sec = s.sec ∧ (State.preempted w s).2.therm = s.therm ∧
    (State.preempted w s).2.streams = s.streams ∧ (State.preempted w s).2.ptpPorts = s.ptpPorts ∧
    (State.preempted w s).2.ptp = s.ptp ∧ (State.preempted w s).2.chans = s.chans ∧
    (State.preempted w s).2.seqs = s.seqs ∧ (State.preempted w s).2.hc = s.hc ∧
    (State.preempted w s).2.trim = s.trim ∧ (State.preempted w s).2.bundles = s.bundles ∧
    (State.preempted w s).2.slots = s.slots ∧ (State.preempted w s).2.wt = s.wt ∧
    (State.preempted w s).2.fwMem = s.fwMem ∧ (State.preempted w s).2.pricks = s.pricks ∧
    (State.preempted w s).2.templates = s.templates ∧ (State.preempted w s).2.order = s.order := by
  have hF0 := @State.modRun_frame
  have hF1 := @State.countPreempt_frame
  have hF2 := @State.putAside_frame
  have hF3 := @State.swapBanks_frame
  unfold State.preempted; (repeat' split) <;> simp [hF0, hF1, hF2, hF3]

@[simp] theorem State.preempted_wf (w : Work) (s : State) (hm : Memory.wf s.mem = true) :
    Memory.wf (State.preempted w s).2.mem = true := by
  have hF0 := @State.modRun_frame
  have hF1 := @State.countPreempt_frame
  have hF2 := @State.putAside_frame
  unfold State.preempted; (repeat' split) <;> simp [hF0, hF1, hF2, hm]

theorem State.leaveRun_frame (w : Work) (s : State) : (State.leaveRun w s).2.now = s.now ∧
    (State.leaveRun w s).2.pending = s.pending ∧ (State.leaveRun w s).2.tb = s.tb ∧
    (State.leaveRun w s).2.sheets = s.sheets ∧ (State.leaveRun w s).2.units = s.units ∧
    (State.leaveRun w s).2.errw = s.errw ∧ (State.leaveRun w s).2.bulk = s.bulk ∧
    (State.leaveRun w s).2.sec = s.sec ∧ (State.leaveRun w s).2.therm = s.therm ∧
    (State.leaveRun w s).2.streams = s.streams ∧ (State.leaveRun w s).2.ptpPorts = s.ptpPorts ∧
    (State.leaveRun w s).2.ptp = s.ptp ∧ (State.leaveRun w s).2.chans = s.chans ∧
    (State.leaveRun w s).2.seqs = s.seqs ∧ (State.leaveRun w s).2.hc = s.hc ∧
    (State.leaveRun w s).2.trim = s.trim ∧ (State.leaveRun w s).2.bundles = s.bundles ∧
    (State.leaveRun w s).2.slots = s.slots ∧ (State.leaveRun w s).2.wt = s.wt ∧
    (State.leaveRun w s).2.fwMem = s.fwMem ∧ (State.leaveRun w s).2.pricks = s.pricks ∧
    (State.leaveRun w s).2.templates = s.templates ∧ (State.leaveRun w s).2.order = s.order := by
  have hF0 := @State.setPillow_frame
  have hF1 := @State.modPillow_frame
  have hF2 := @State.deadLeft_frame
  have hF3 := @State.abortAsked_frame
  have hF4 := @State.startSave_frame
  have hF5 := @State.putAside_frame
  have hF6 := @State.preempted_frame
  unfold State.leaveRun; simp [hF0, hF1, hF2, hF3, hF4, hF5, hF6]

@[simp] theorem State.leaveRun_wf (w : Work) (s : State) (hm : Memory.wf s.mem = true) :
    Memory.wf (State.leaveRun w s).2.mem = true := by
  have hF0 := @State.setPillow_frame
  have hF1 := @State.modPillow_frame
  have hF2 := @State.deadLeft_frame
  have hF3 := @State.abortAsked_frame
  have hF4 := @State.startSave_frame
  have hF5 := @State.putAside_frame
  unfold State.leaveRun; simp [hF0, hF1, hF2, hF3, hF4, hF5, hm]

theorem State.noteWait_frame (w : Work) (s : State) : (State.noteWait w s).now = s.now ∧
    (State.noteWait w s).pending = s.pending ∧ (State.noteWait w s).tb = s.tb ∧
    (State.noteWait w s).sheets = s.sheets ∧ (State.noteWait w s).units = s.units ∧
    (State.noteWait w s).pins = s.pins ∧ (State.noteWait w s).pk = s.pk ∧
    (State.noteWait w s).queues = s.queues ∧ (State.noteWait w s).latches = s.latches ∧
    (State.noteWait w s).errw = s.errw ∧ (State.noteWait w s).sdio = s.sdio ∧
    (State.noteWait w s).bulk = s.bulk ∧ (State.noteWait w s).mgmt = s.mgmt ∧
    (State.noteWait w s).power = s.power ∧ (State.noteWait w s).sec = s.sec ∧
    (State.noteWait w s).therm = s.therm ∧ (State.noteWait w s).ports = s.ports ∧
    (State.noteWait w s).streams = s.streams ∧ (State.noteWait w s).services = s.services ∧
    (State.noteWait w s).ptpPorts = s.ptpPorts ∧ (State.noteWait w s).ptp = s.ptp ∧
    (State.noteWait w s).chans = s.chans ∧ (State.noteWait w s).seqs = s.seqs ∧
    (State.noteWait w s).hc = s.hc ∧ (State.noteWait w s).trim = s.trim ∧
    (State.noteWait w s).bundles = s.bundles ∧ (State.noteWait w s).slots = s.slots ∧
    (State.noteWait w s).wt = s.wt ∧ (State.noteWait w s).mem = s.mem ∧
    (State.noteWait w s).fwMem = s.fwMem ∧ (State.noteWait w s).ms = s.ms ∧
    (State.noteWait w s).pricks = s.pricks ∧ (State.noteWait w s).templates = s.templates ∧
    (State.noteWait w s).jobs = s.jobs ∧ (State.noteWait w s).order = s.order ∧
    (State.noteWait w s).free = s.free := by
  have hF0 := @State.modRun_frame
  unfold State.noteWait; dsimp only; (repeat' split) <;> simp [hF0]

theorem State.endWait_frame (p : Nat) (s : State) : (State.endWait p s).now = s.now ∧
    (State.endWait p s).pending = s.pending ∧ (State.endWait p s).tb = s.tb ∧
    (State.endWait p s).sheets = s.sheets ∧ (State.endWait p s).units = s.units ∧
    (State.endWait p s).pins = s.pins ∧ (State.endWait p s).pk = s.pk ∧
    (State.endWait p s).queues = s.queues ∧ (State.endWait p s).latches = s.latches ∧
    (State.endWait p s).errw = s.errw ∧ (State.endWait p s).sdio = s.sdio ∧
    (State.endWait p s).bulk = s.bulk ∧ (State.endWait p s).mgmt = s.mgmt ∧
    (State.endWait p s).power = s.power ∧ (State.endWait p s).sec = s.sec ∧
    (State.endWait p s).therm = s.therm ∧ (State.endWait p s).ports = s.ports ∧
    (State.endWait p s).streams = s.streams ∧ (State.endWait p s).services = s.services ∧
    (State.endWait p s).ptpPorts = s.ptpPorts ∧ (State.endWait p s).ptp = s.ptp ∧
    (State.endWait p s).chans = s.chans ∧ (State.endWait p s).seqs = s.seqs ∧
    (State.endWait p s).hc = s.hc ∧ (State.endWait p s).trim = s.trim ∧
    (State.endWait p s).bundles = s.bundles ∧ (State.endWait p s).slots = s.slots ∧
    (State.endWait p s).wt = s.wt ∧ (State.endWait p s).mem = s.mem ∧ (State.endWait p s).fwMem = s.fwMem ∧
    (State.endWait p s).ms = s.ms ∧ (State.endWait p s).pricks = s.pricks ∧
    (State.endWait p s).templates = s.templates ∧ (State.endWait p s).jobs = s.jobs ∧
    (State.endWait p s).order = s.order ∧ (State.endWait p s).free = s.free := by
  have hF0 := @State.modPillow_frame
  have hF1 := @State.setRun_frame
  unfold State.endWait; dsimp only; (repeat' split) <;> simp [hF0, hF1]

theorem State.startNext_frame (w : Work) (s : State) : (State.startNext w s).2.now = s.now ∧
    (State.startNext w s).2.pending = s.pending ∧ (State.startNext w s).2.tb = s.tb ∧
    (State.startNext w s).2.sheets = s.sheets ∧ (State.startNext w s).2.units = s.units ∧
    (State.startNext w s).2.pins = s.pins ∧ (State.startNext w s).2.pk = s.pk ∧
    (State.startNext w s).2.errw = s.errw ∧ (State.startNext w s).2.bulk = s.bulk ∧
    (State.startNext w s).2.power = s.power ∧ (State.startNext w s).2.sec = s.sec ∧
    (State.startNext w s).2.therm = s.therm ∧ (State.startNext w s).2.ports = s.ports ∧
    (State.startNext w s).2.streams = s.streams ∧ (State.startNext w s).2.services = s.services ∧
    (State.startNext w s).2.ptpPorts = s.ptpPorts ∧ (State.startNext w s).2.ptp = s.ptp ∧
    (State.startNext w s).2.chans = s.chans ∧ (State.startNext w s).2.seqs = s.seqs ∧
    (State.startNext w s).2.hc = s.hc ∧ (State.startNext w s).2.trim = s.trim ∧
    (State.startNext w s).2.bundles = s.bundles ∧ (State.startNext w s).2.slots = s.slots ∧
    (State.startNext w s).2.wt = s.wt ∧ (State.startNext w s).2.mem = s.mem ∧
    (State.startNext w s).2.fwMem = s.fwMem ∧ (State.startNext w s).2.pricks = s.pricks ∧
    (State.startNext w s).2.templates = s.templates ∧ (State.startNext w s).2.order = s.order := by
  have hF0 := @State.stageEnd_frame
  have hF1 := @State.setRun_frame
  have hF2 := @State.unitWait_frame
  have hF3 := @State.unitFault_frame
  have key : ∀ f : Work → State → State, (∀ w t, (f w t).now = t.now ∧ (f w t).pending = t.pending ∧ (f w t).tb = t.tb ∧ (f w t).sheets = t.sheets ∧ (f w t).units = t.units ∧ (f w t).pins = t.pins ∧ (f w t).pk = t.pk ∧ (f w t).errw = t.errw ∧ (f w t).bulk = t.bulk ∧ (f w t).power = t.power ∧ (f w t).sec = t.sec ∧ (f w t).therm = t.therm ∧ (f w t).ports = t.ports ∧ (f w t).streams = t.streams ∧ (f w t).services = t.services ∧ (f w t).ptpPorts = t.ptpPorts ∧ (f w t).ptp = t.ptp ∧ (f w t).chans = t.chans ∧ (f w t).seqs = t.seqs ∧ (f w t).hc = t.hc ∧ (f w t).trim = t.trim ∧ (f w t).bundles = t.bundles ∧ (f w t).slots = t.slots ∧ (f w t).wt = t.wt ∧ (f w t).mem = t.mem ∧ (f w t).fwMem = t.fwMem ∧ (f w t).pricks = t.pricks ∧ (f w t).templates = t.templates ∧ (f w t).order = t.order) →
      (fun z : State => z.now = s.now ∧ z.pending = s.pending ∧ z.tb = s.tb ∧ z.sheets = s.sheets ∧ z.units = s.units ∧ z.pins = s.pins ∧ z.pk = s.pk ∧ z.errw = s.errw ∧ z.bulk = s.bulk ∧ z.power = s.power ∧ z.sec = s.sec ∧ z.therm = s.therm ∧ z.ports = s.ports ∧ z.streams = s.streams ∧ z.services = s.services ∧ z.ptpPorts = s.ptpPorts ∧ z.ptp = s.ptp ∧ z.chans = s.chans ∧ z.seqs = s.seqs ∧ z.hc = s.hc ∧ z.trim = s.trim ∧ z.bundles = s.bundles ∧ z.slots = s.slots ∧ z.wt = s.wt ∧ z.mem = s.mem ∧ z.fwMem = s.fwMem ∧ z.pricks = s.pricks ∧ z.templates = s.templates ∧ z.order = s.order)
        (match s.startOp w f with
          | .ok _ s => ([w.p], s)
          | .fault f s => ([w.p], s.unitFault w.p f)
          | .wait n l d => ([], s.unitWait w.p 6 n l d)).2 := by
    intro f hf
    have hs := State.startOp_frame w f s hf
    rcases hx : State.startOp w f s with ⟨b, t⟩ | ⟨g, t⟩ | ⟨k, l, d⟩ <;> rw [hx] at hs
    · simpa using hs rfl
    · have := hs rfl
      simp only [Access.okState_fault] at this
      simp [hF3, this]
    · simp [hF2]
  unfold State.startNext
  dsimp only
  split
  · split
    · simp [hF0]
    · simp
  · split
    · exact key _ (by simp [@State.enterLoop_frame])
    · split
      · split
        · simp
        · exact key _ (by simp [@State.enterDma_frame])
      · simp [hF1]

theorem State.advanceRun_frame (p : Nat) (s : State) : (State.advanceRun p s).2.now = s.now ∧
    (State.advanceRun p s).2.pending = s.pending ∧ (State.advanceRun p s).2.tb = s.tb ∧
    (State.advanceRun p s).2.sheets = s.sheets ∧ (State.advanceRun p s).2.units = s.units ∧
    (State.advanceRun p s).2.errw = s.errw ∧ (State.advanceRun p s).2.bulk = s.bulk ∧
    (State.advanceRun p s).2.sec = s.sec ∧ (State.advanceRun p s).2.therm = s.therm ∧
    (State.advanceRun p s).2.streams = s.streams ∧ (State.advanceRun p s).2.ptpPorts = s.ptpPorts ∧
    (State.advanceRun p s).2.ptp = s.ptp ∧ (State.advanceRun p s).2.chans = s.chans ∧
    (State.advanceRun p s).2.seqs = s.seqs ∧ (State.advanceRun p s).2.hc = s.hc ∧
    (State.advanceRun p s).2.trim = s.trim ∧ (State.advanceRun p s).2.bundles = s.bundles ∧
    (State.advanceRun p s).2.slots = s.slots ∧ (State.advanceRun p s).2.wt = s.wt ∧
    (State.advanceRun p s).2.fwMem = s.fwMem ∧ (State.advanceRun p s).2.pricks = s.pricks ∧
    (State.advanceRun p s).2.templates = s.templates ∧ (State.advanceRun p s).2.order = s.order := by
  have hF0 := @State.modPillow_frame
  have hF1 := @State.askStop_frame
  have hF2 := @State.pick_frame
  have hF3 := @State.putAside_frame
  have hF4 := @State.swapBanks_frame
  have hF5 := @State.leaveRun_frame
  have hF6 := @State.noteWait_frame
  have hF7 := @State.startNext_frame
  unfold State.advanceRun; (repeat' split) <;> simp [hF0, hF1, hF2, hF3, hF4, hF5, hF6, hF7]

@[simp] theorem State.advanceRun_wf (p : Nat) (s : State) (hm : Memory.wf s.mem = true) :
    Memory.wf (State.advanceRun p s).2.mem = true := by
  have hF0 := @State.modPillow_frame
  have hF1 := @State.askStop_frame
  have hF2 := @State.putAside_frame
  have hF3 := @State.noteWait_frame
  have hF4 := @State.startNext_frame
  unfold State.advanceRun; (repeat' split) <;> simp [hF0, hF1, hF2, hF3, hF4, hm]

theorem State.pump_frame (x0 : Nat) (x1 : List Nat) (x2 : State) : (State.pump x0 x1 x2).now = x2.now ∧
    (State.pump x0 x1 x2).pending = x2.pending ∧ (State.pump x0 x1 x2).tb = x2.tb ∧
    (State.pump x0 x1 x2).sheets = x2.sheets ∧ (State.pump x0 x1 x2).units = x2.units ∧
    (State.pump x0 x1 x2).errw = x2.errw ∧ (State.pump x0 x1 x2).bulk = x2.bulk ∧
    (State.pump x0 x1 x2).sec = x2.sec ∧ (State.pump x0 x1 x2).therm = x2.therm ∧
    (State.pump x0 x1 x2).streams = x2.streams ∧ (State.pump x0 x1 x2).ptpPorts = x2.ptpPorts ∧
    (State.pump x0 x1 x2).ptp = x2.ptp ∧ (State.pump x0 x1 x2).chans = x2.chans ∧
    (State.pump x0 x1 x2).seqs = x2.seqs ∧ (State.pump x0 x1 x2).hc = x2.hc ∧
    (State.pump x0 x1 x2).trim = x2.trim ∧ (State.pump x0 x1 x2).bundles = x2.bundles ∧
    (State.pump x0 x1 x2).slots = x2.slots ∧ (State.pump x0 x1 x2).wt = x2.wt ∧
    (State.pump x0 x1 x2).fwMem = x2.fwMem ∧ (State.pump x0 x1 x2).pricks = x2.pricks ∧
    (State.pump x0 x1 x2).templates = x2.templates ∧ (State.pump x0 x1 x2).order = x2.order := by
  have hF0 := @State.advanceRun_frame
  induction x0 generalizing x1 x2 with
  | zero => simp [State.pump]
  | succ k ih =>
    cases x1 with
    | nil => simp [State.pump]
    | cons p r =>
      unfold State.pump
      simp [hF0, ih]

@[simp] theorem State.pump_wf (x0 : Nat) (x1 : List Nat) (x2 : State) (hm : Memory.wf x2.mem = true) :
    Memory.wf (State.pump x0 x1 x2).mem = true := by
  induction x0 generalizing x1 x2 with
  | zero => simpa [State.pump] using hm
  | succ k ih =>
    cases x1 with
    | nil => simpa [State.pump] using hm
    | cons p r =>
      unfold State.pump
      dsimp only
      exact ih _ _ (by simp [hm])

theorem State.settlePillows_frame (ps : List Nat) (s : State) : (State.settlePillows ps s).now = s.now ∧
    (State.settlePillows ps s).pending = s.pending ∧ (State.settlePillows ps s).tb = s.tb ∧
    (State.settlePillows ps s).sheets = s.sheets ∧ (State.settlePillows ps s).units = s.units ∧
    (State.settlePillows ps s).errw = s.errw ∧ (State.settlePillows ps s).bulk = s.bulk ∧
    (State.settlePillows ps s).sec = s.sec ∧ (State.settlePillows ps s).therm = s.therm ∧
    (State.settlePillows ps s).streams = s.streams ∧ (State.settlePillows ps s).ptpPorts = s.ptpPorts ∧
    (State.settlePillows ps s).ptp = s.ptp ∧ (State.settlePillows ps s).chans = s.chans ∧
    (State.settlePillows ps s).seqs = s.seqs ∧ (State.settlePillows ps s).hc = s.hc ∧
    (State.settlePillows ps s).trim = s.trim ∧ (State.settlePillows ps s).bundles = s.bundles ∧
    (State.settlePillows ps s).slots = s.slots ∧ (State.settlePillows ps s).wt = s.wt ∧
    (State.settlePillows ps s).fwMem = s.fwMem ∧ (State.settlePillows ps s).pricks = s.pricks ∧
    (State.settlePillows ps s).templates = s.templates ∧ (State.settlePillows ps s).order = s.order := by
  have hF0 := @State.pump_frame
  unfold State.settlePillows; simp [hF0]

@[simp] theorem State.settlePillows_wf (ps : List Nat) (s : State) (hm : Memory.wf s.mem = true) :
    Memory.wf (State.settlePillows ps s).mem = true := by
  unfold State.settlePillows; simp [hm]

theorem State.boundary_frame (p : Nat) (u : Nat) (s : State) : (State.boundary p u s).now = s.now ∧
    (State.boundary p u s).pending = s.pending ∧ (State.boundary p u s).tb = s.tb ∧
    (State.boundary p u s).sheets = s.sheets ∧ (State.boundary p u s).units = s.units ∧
    (State.boundary p u s).errw = s.errw ∧ (State.boundary p u s).bulk = s.bulk ∧
    (State.boundary p u s).sec = s.sec ∧ (State.boundary p u s).therm = s.therm ∧
    (State.boundary p u s).streams = s.streams ∧ (State.boundary p u s).ptpPorts = s.ptpPorts ∧
    (State.boundary p u s).ptp = s.ptp ∧ (State.boundary p u s).chans = s.chans ∧
    (State.boundary p u s).seqs = s.seqs ∧ (State.boundary p u s).hc = s.hc ∧
    (State.boundary p u s).trim = s.trim ∧ (State.boundary p u s).bundles = s.bundles ∧
    (State.boundary p u s).slots = s.slots ∧ (State.boundary p u s).wt = s.wt ∧
    (State.boundary p u s).fwMem = s.fwMem ∧ (State.boundary p u s).pricks = s.pricks ∧
    (State.boundary p u s).templates = s.templates ∧ (State.boundary p u s).order = s.order := by
  have hF0 := @State.askStop_frame
  have hF1 := @State.settlePillows_frame
  unfold State.boundary; (repeat' split) <;> simp [hF0, hF1]

@[simp] theorem State.boundary_wf (p : Nat) (u : Nat) (s : State) (hm : Memory.wf s.mem = true) :
    Memory.wf (State.boundary p u s).mem = true := by
  have hF0 := @State.askStop_frame
  unfold State.boundary; (repeat' split) <;> simp [hF0, hm]

theorem State.writeImage_frame (a : Nat) (im : List (Nat × Bytes)) (s : State) :
    (State.writeImage a im s).now = s.now ∧ (State.writeImage a im s).pending = s.pending ∧
    (State.writeImage a im s).tb = s.tb ∧ (State.writeImage a im s).sheets = s.sheets ∧
    (State.writeImage a im s).units = s.units ∧ (State.writeImage a im s).pins = s.pins ∧
    (State.writeImage a im s).pk = s.pk ∧ (State.writeImage a im s).queues = s.queues ∧
    (State.writeImage a im s).latches = s.latches ∧ (State.writeImage a im s).errw = s.errw ∧
    (State.writeImage a im s).sdio = s.sdio ∧ (State.writeImage a im s).bulk = s.bulk ∧
    (State.writeImage a im s).mgmt = s.mgmt ∧ (State.writeImage a im s).power = s.power ∧
    (State.writeImage a im s).sec = s.sec ∧ (State.writeImage a im s).therm = s.therm ∧
    (State.writeImage a im s).ports = s.ports ∧ (State.writeImage a im s).streams = s.streams ∧
    (State.writeImage a im s).services = s.services ∧ (State.writeImage a im s).ptpPorts = s.ptpPorts ∧
    (State.writeImage a im s).ptp = s.ptp ∧ (State.writeImage a im s).chans = s.chans ∧
    (State.writeImage a im s).seqs = s.seqs ∧ (State.writeImage a im s).hc = s.hc ∧
    (State.writeImage a im s).trim = s.trim ∧ (State.writeImage a im s).bundles = s.bundles ∧
    (State.writeImage a im s).slots = s.slots ∧ (State.writeImage a im s).wt = s.wt ∧
    (State.writeImage a im s).fwMem = s.fwMem ∧ (State.writeImage a im s).pricks = s.pricks ∧
    (State.writeImage a im s).templates = s.templates ∧ (State.writeImage a im s).jobs = s.jobs ∧
    (State.writeImage a im s).order = s.order ∧ (State.writeImage a im s).pillows = s.pillows ∧
    (State.writeImage a im s).free = s.free := by
  have hF0 := @State.store_frame
  unfold State.writeImage; simp [hF0]

@[simp] theorem State.writeImage_wf (a : Nat) (im : List (Nat × Bytes)) (s : State) (hm : Memory.wf s.mem = true) :
    Memory.wf (State.writeImage a im s).mem = true := by
  unfold State.writeImage; (repeat' (first | split | dsimp only)) <;> simp_all

theorem State.restored_frame (p : Nat) (v : Saved) (s : State) : (State.restored p v s).now = s.now ∧
    (State.restored p v s).pending = s.pending ∧ (State.restored p v s).tb = s.tb ∧
    (State.restored p v s).sheets = s.sheets ∧ (State.restored p v s).units = s.units ∧
    (State.restored p v s).errw = s.errw ∧ (State.restored p v s).bulk = s.bulk ∧
    (State.restored p v s).sec = s.sec ∧ (State.restored p v s).therm = s.therm ∧
    (State.restored p v s).streams = s.streams ∧ (State.restored p v s).ptpPorts = s.ptpPorts ∧
    (State.restored p v s).ptp = s.ptp ∧ (State.restored p v s).chans = s.chans ∧
    (State.restored p v s).seqs = s.seqs ∧ (State.restored p v s).hc = s.hc ∧
    (State.restored p v s).trim = s.trim ∧ (State.restored p v s).bundles = s.bundles ∧
    (State.restored p v s).slots = s.slots ∧ (State.restored p v s).wt = s.wt ∧
    (State.restored p v s).fwMem = s.fwMem ∧ (State.restored p v s).pricks = s.pricks ∧
    (State.restored p v s).templates = s.templates ∧ (State.restored p v s).order = s.order := by
  have hF0 := @State.settlePillows_frame
  have hF1 := @State.abortAsked_frame
  have hF2 := @State.modPillow_frame
  have hF3 := @State.setPillow_frame
  have hF4 := @State.placeRun_frame
  unfold State.restored; simp [hF0, hF1, hF2, hF3, hF4]

@[simp] theorem State.restored_wf (p : Nat) (v : Saved) (s : State) (hm : Memory.wf s.mem = true) :
    Memory.wf (State.restored p v s).mem = true := by
  have hF0 := @State.abortAsked_frame
  have hF1 := @State.modPillow_frame
  have hF2 := @State.setPillow_frame
  have hF3 := @State.placeRun_frame
  unfold State.restored; simp [hF0, hF1, hF2, hF3, hm]

end Sys2Proof.Machine
end

