-- ==== Sys2Proof/Laws/FrameJobs.lean ====
section
/-! SUPPORT. Frames of the SDIO, calibration, DMA, loader, job, Picot and release operations. -/

namespace Sys2Proof.Machine

/-! ## Sdio -/

theorem State.sdAnswer_frame (c : CardState) (r : SdResp) (s : State) : (State.sdAnswer c r s).now = s.now ∧
    (State.sdAnswer c r s).pending = s.pending ∧ (State.sdAnswer c r s).tb = s.tb ∧
    (State.sdAnswer c r s).sheets = s.sheets ∧ (State.sdAnswer c r s).units = s.units ∧
    (State.sdAnswer c r s).pins = s.pins ∧ (State.sdAnswer c r s).pk = s.pk ∧
    (State.sdAnswer c r s).queues = s.queues ∧ (State.sdAnswer c r s).latches = s.latches ∧
    (State.sdAnswer c r s).errw = s.errw ∧ (State.sdAnswer c r s).bulk = s.bulk ∧
    (State.sdAnswer c r s).mgmt = s.mgmt ∧ (State.sdAnswer c r s).power = s.power ∧
    (State.sdAnswer c r s).sec = s.sec ∧ (State.sdAnswer c r s).therm = s.therm ∧
    (State.sdAnswer c r s).ports = s.ports ∧ (State.sdAnswer c r s).streams = s.streams ∧
    (State.sdAnswer c r s).services = s.services ∧ (State.sdAnswer c r s).ptpPorts = s.ptpPorts ∧
    (State.sdAnswer c r s).ptp = s.ptp ∧ (State.sdAnswer c r s).chans = s.chans ∧
    (State.sdAnswer c r s).seqs = s.seqs ∧ (State.sdAnswer c r s).hc = s.hc ∧
    (State.sdAnswer c r s).trim = s.trim ∧ (State.sdAnswer c r s).bundles = s.bundles ∧
    (State.sdAnswer c r s).slots = s.slots ∧ (State.sdAnswer c r s).wt = s.wt ∧
    (State.sdAnswer c r s).mem = s.mem ∧ (State.sdAnswer c r s).fwMem = s.fwMem ∧
    (State.sdAnswer c r s).ms = s.ms ∧ (State.sdAnswer c r s).pricks = s.pricks ∧
    (State.sdAnswer c r s).templates = s.templates ∧ (State.sdAnswer c r s).jobs = s.jobs ∧
    (State.sdAnswer c r s).order = s.order ∧ (State.sdAnswer c r s).pillows = s.pillows ∧
    (State.sdAnswer c r s).free = s.free := by
  unfold State.sdAnswer; simp

theorem State.cardReady_frame (s : State) : (State.cardReady s).2.now = s.now ∧
    (State.cardReady s).2.pending = s.pending ∧ (State.cardReady s).2.tb = s.tb ∧
    (State.cardReady s).2.sheets = s.sheets ∧ (State.cardReady s).2.units = s.units ∧
    (State.cardReady s).2.pins = s.pins ∧ (State.cardReady s).2.pk = s.pk ∧
    (State.cardReady s).2.queues = s.queues ∧ (State.cardReady s).2.latches = s.latches ∧
    (State.cardReady s).2.errw = s.errw ∧ (State.cardReady s).2.sdio = s.sdio ∧
    (State.cardReady s).2.bulk = s.bulk ∧ (State.cardReady s).2.mgmt = s.mgmt ∧
    (State.cardReady s).2.power = s.power ∧ (State.cardReady s).2.sec = s.sec ∧
    (State.cardReady s).2.therm = s.therm ∧ (State.cardReady s).2.ports = s.ports ∧
    (State.cardReady s).2.streams = s.streams ∧ (State.cardReady s).2.services = s.services ∧
    (State.cardReady s).2.ptpPorts = s.ptpPorts ∧ (State.cardReady s).2.ptp = s.ptp ∧
    (State.cardReady s).2.chans = s.chans ∧ (State.cardReady s).2.seqs = s.seqs ∧
    (State.cardReady s).2.hc = s.hc ∧ (State.cardReady s).2.trim = s.trim ∧
    (State.cardReady s).2.bundles = s.bundles ∧ (State.cardReady s).2.slots = s.slots ∧
    (State.cardReady s).2.wt = s.wt ∧ (State.cardReady s).2.mem = s.mem ∧
    (State.cardReady s).2.fwMem = s.fwMem ∧ (State.cardReady s).2.ms = s.ms ∧
    (State.cardReady s).2.pricks = s.pricks ∧ (State.cardReady s).2.templates = s.templates ∧
    (State.cardReady s).2.jobs = s.jobs ∧ (State.cardReady s).2.order = s.order ∧
    (State.cardReady s).2.pillows = s.pillows := by
  have hF0 := @State.draw_frame
  unfold State.cardReady; simp [hF0]

theorem State.cmd5_frame (s : State) : (State.cmd5 s).now = s.now ∧ (State.cmd5 s).pending = s.pending ∧
    (State.cmd5 s).tb = s.tb ∧ (State.cmd5 s).sheets = s.sheets ∧ (State.cmd5 s).units = s.units ∧
    (State.cmd5 s).pins = s.pins ∧ (State.cmd5 s).pk = s.pk ∧ (State.cmd5 s).queues = s.queues ∧
    (State.cmd5 s).latches = s.latches ∧ (State.cmd5 s).errw = s.errw ∧ (State.cmd5 s).bulk = s.bulk ∧
    (State.cmd5 s).mgmt = s.mgmt ∧ (State.cmd5 s).power = s.power ∧ (State.cmd5 s).sec = s.sec ∧
    (State.cmd5 s).therm = s.therm ∧ (State.cmd5 s).ports = s.ports ∧ (State.cmd5 s).streams = s.streams ∧
    (State.cmd5 s).services = s.services ∧ (State.cmd5 s).ptpPorts = s.ptpPorts ∧
    (State.cmd5 s).ptp = s.ptp ∧ (State.cmd5 s).chans = s.chans ∧ (State.cmd5 s).seqs = s.seqs ∧
    (State.cmd5 s).hc = s.hc ∧ (State.cmd5 s).trim = s.trim ∧ (State.cmd5 s).bundles = s.bundles ∧
    (State.cmd5 s).slots = s.slots ∧ (State.cmd5 s).wt = s.wt ∧ (State.cmd5 s).mem = s.mem ∧
    (State.cmd5 s).fwMem = s.fwMem ∧ (State.cmd5 s).ms = s.ms ∧ (State.cmd5 s).pricks = s.pricks ∧
    (State.cmd5 s).templates = s.templates ∧ (State.cmd5 s).jobs = s.jobs ∧ (State.cmd5 s).order = s.order ∧
    (State.cmd5 s).pillows = s.pillows := by
  have hF0 := @State.sdAnswer_frame
  have hF1 := @State.cardReady_frame
  unfold State.cmd5; simp [hF0, hF1]

theorem State.placeBlock_frame (x : Xfer) (d : Bytes) (s : State) : (State.placeBlock x d s).now = s.now ∧
    (State.placeBlock x d s).pending = s.pending ∧ (State.placeBlock x d s).tb = s.tb ∧
    (State.placeBlock x d s).sheets = s.sheets ∧ (State.placeBlock x d s).units = s.units ∧
    (State.placeBlock x d s).pins = s.pins ∧ (State.placeBlock x d s).pk = s.pk ∧
    (State.placeBlock x d s).queues = s.queues ∧ (State.placeBlock x d s).latches = s.latches ∧
    (State.placeBlock x d s).errw = s.errw ∧ (State.placeBlock x d s).sdio = s.sdio ∧
    (State.placeBlock x d s).bulk = s.bulk ∧ (State.placeBlock x d s).mgmt = s.mgmt ∧
    (State.placeBlock x d s).power = s.power ∧ (State.placeBlock x d s).sec = s.sec ∧
    (State.placeBlock x d s).therm = s.therm ∧ (State.placeBlock x d s).ports = s.ports ∧
    (State.placeBlock x d s).streams = s.streams ∧ (State.placeBlock x d s).services = s.services ∧
    (State.placeBlock x d s).ptpPorts = s.ptpPorts ∧ (State.placeBlock x d s).ptp = s.ptp ∧
    (State.placeBlock x d s).chans = s.chans ∧ (State.placeBlock x d s).seqs = s.seqs ∧
    (State.placeBlock x d s).hc = s.hc ∧ (State.placeBlock x d s).trim = s.trim ∧
    (State.placeBlock x d s).bundles = s.bundles ∧ (State.placeBlock x d s).slots = s.slots ∧
    (State.placeBlock x d s).wt = s.wt ∧ (State.placeBlock x d s).fwMem = s.fwMem ∧
    (State.placeBlock x d s).pricks = s.pricks ∧ (State.placeBlock x d s).templates = s.templates ∧
    (State.placeBlock x d s).jobs = s.jobs ∧ (State.placeBlock x d s).order = s.order ∧
    (State.placeBlock x d s).pillows = s.pillows ∧ (State.placeBlock x d s).free = s.free := by
  have hF0 := @State.store_frame
  unfold State.placeBlock; simp [hF0]

@[simp] theorem State.placeBlock_wf (x : Xfer) (d : Bytes) (s : State) (hm : Memory.wf s.mem = true) :
    Memory.wf (State.placeBlock x d s).mem = true := by
  unfold State.placeBlock; simp [hm]

theorem State.takeBlock_frame (d : Bytes) (s : State) : (State.takeBlock d s).now = s.now ∧
    (State.takeBlock d s).pending = s.pending ∧ (State.takeBlock d s).tb = s.tb ∧
    (State.takeBlock d s).sheets = s.sheets ∧ (State.takeBlock d s).units = s.units ∧
    (State.takeBlock d s).pins = s.pins ∧ (State.takeBlock d s).pk = s.pk ∧
    (State.takeBlock d s).queues = s.queues ∧ (State.takeBlock d s).latches = s.latches ∧
    (State.takeBlock d s).errw = s.errw ∧ (State.takeBlock d s).sdio = s.sdio ∧
    (State.takeBlock d s).mgmt = s.mgmt ∧ (State.takeBlock d s).power = s.power ∧
    (State.takeBlock d s).sec = s.sec ∧ (State.takeBlock d s).therm = s.therm ∧
    (State.takeBlock d s).ports = s.ports ∧ (State.takeBlock d s).streams = s.streams ∧
    (State.takeBlock d s).services = s.services ∧ (State.takeBlock d s).ptpPorts = s.ptpPorts ∧
    (State.takeBlock d s).ptp = s.ptp ∧ (State.takeBlock d s).chans = s.chans ∧
    (State.takeBlock d s).seqs = s.seqs ∧ (State.takeBlock d s).hc = s.hc ∧
    (State.takeBlock d s).trim = s.trim ∧ (State.takeBlock d s).bundles = s.bundles ∧
    (State.takeBlock d s).slots = s.slots ∧ (State.takeBlock d s).wt = s.wt ∧
    (State.takeBlock d s).fwMem = s.fwMem ∧ (State.takeBlock d s).pricks = s.pricks ∧
    (State.takeBlock d s).templates = s.templates ∧ (State.takeBlock d s).jobs = s.jobs ∧
    (State.takeBlock d s).order = s.order ∧ (State.takeBlock d s).pillows = s.pillows ∧
    (State.takeBlock d s).free = s.free := by
  have hF0 := @State.placeBlock_frame
  unfold State.takeBlock; dsimp only; (repeat' split) <;> simp [hF0]

@[simp] theorem State.takeBlock_wf (d : Bytes) (s : State) (hm : Memory.wf s.mem = true) :
    Memory.wf (State.takeBlock d s).mem = true := by
  unfold State.takeBlock; dsimp only; (repeat' split) <;> simp [hm]

theorem State.crcFailed_frame (s : State) : (State.crcFailed s).now = s.now ∧
    (State.crcFailed s).pending = s.pending ∧ (State.crcFailed s).tb = s.tb ∧
    (State.crcFailed s).sheets = s.sheets ∧ (State.crcFailed s).units = s.units ∧
    (State.crcFailed s).pins = s.pins ∧ (State.crcFailed s).pk = s.pk ∧
    (State.crcFailed s).queues = s.queues ∧ (State.crcFailed s).latches = s.latches ∧
    (State.crcFailed s).errw = s.errw ∧ (State.crcFailed s).bulk = s.bulk ∧
    (State.crcFailed s).mgmt = s.mgmt ∧ (State.crcFailed s).power = s.power ∧
    (State.crcFailed s).sec = s.sec ∧ (State.crcFailed s).therm = s.therm ∧
    (State.crcFailed s).ports = s.ports ∧ (State.crcFailed s).streams = s.streams ∧
    (State.crcFailed s).services = s.services ∧ (State.crcFailed s).ptpPorts = s.ptpPorts ∧
    (State.crcFailed s).ptp = s.ptp ∧ (State.crcFailed s).chans = s.chans ∧
    (State.crcFailed s).seqs = s.seqs ∧ (State.crcFailed s).hc = s.hc ∧ (State.crcFailed s).trim = s.trim ∧
    (State.crcFailed s).bundles = s.bundles ∧ (State.crcFailed s).slots = s.slots ∧
    (State.crcFailed s).wt = s.wt ∧ (State.crcFailed s).mem = s.mem ∧ (State.crcFailed s).fwMem = s.fwMem ∧
    (State.crcFailed s).ms = s.ms ∧ (State.crcFailed s).pricks = s.pricks ∧
    (State.crcFailed s).templates = s.templates ∧ (State.crcFailed s).jobs = s.jobs ∧
    (State.crcFailed s).order = s.order ∧ (State.crcFailed s).pillows = s.pillows ∧
    (State.crcFailed s).free = s.free := by
  unfold State.crcFailed; simp

theorem State.serveBlock_frame (s : State) : (State.serveBlock s).now = s.now ∧
    (State.serveBlock s).pending = s.pending ∧ (State.serveBlock s).tb = s.tb ∧
    (State.serveBlock s).sheets = s.sheets ∧ (State.serveBlock s).units = s.units ∧
    (State.serveBlock s).pins = s.pins ∧ (State.serveBlock s).pk = s.pk ∧
    (State.serveBlock s).queues = s.queues ∧ (State.serveBlock s).latches = s.latches ∧
    (State.serveBlock s).errw = s.errw ∧ (State.serveBlock s).sdio = s.sdio ∧
    (State.serveBlock s).mgmt = s.mgmt ∧ (State.serveBlock s).power = s.power ∧
    (State.serveBlock s).sec = s.sec ∧ (State.serveBlock s).therm = s.therm ∧
    (State.serveBlock s).ports = s.ports ∧ (State.serveBlock s).streams = s.streams ∧
    (State.serveBlock s).services = s.services ∧ (State.serveBlock s).ptpPorts = s.ptpPorts ∧
    (State.serveBlock s).ptp = s.ptp ∧ (State.serveBlock s).chans = s.chans ∧
    (State.serveBlock s).seqs = s.seqs ∧ (State.serveBlock s).hc = s.hc ∧
    (State.serveBlock s).trim = s.trim ∧ (State.serveBlock s).bundles = s.bundles ∧
    (State.serveBlock s).slots = s.slots ∧ (State.serveBlock s).wt = s.wt ∧
    (State.serveBlock s).mem = s.mem ∧ (State.serveBlock s).fwMem = s.fwMem ∧
    (State.serveBlock s).ms = s.ms ∧ (State.serveBlock s).pricks = s.pricks ∧
    (State.serveBlock s).templates = s.templates ∧ (State.serveBlock s).jobs = s.jobs ∧
    (State.serveBlock s).order = s.order ∧ (State.serveBlock s).pillows = s.pillows ∧
    (State.serveBlock s).free = s.free := by
  unfold State.serveBlock; dsimp only; (repeat' split) <;> simp

theorem State.mailboxTake_frame (data : Bytes) (s : State) : (State.mailboxTake data s).now = s.now ∧
    (State.mailboxTake data s).pending = s.pending ∧ (State.mailboxTake data s).tb = s.tb ∧
    (State.mailboxTake data s).sheets = s.sheets ∧ (State.mailboxTake data s).units = s.units ∧
    (State.mailboxTake data s).pins = s.pins ∧ (State.mailboxTake data s).pk = s.pk ∧
    (State.mailboxTake data s).latches = s.latches ∧ (State.mailboxTake data s).errw = s.errw ∧
    (State.mailboxTake data s).bulk = s.bulk ∧ (State.mailboxTake data s).mgmt = s.mgmt ∧
    (State.mailboxTake data s).power = s.power ∧ (State.mailboxTake data s).sec = s.sec ∧
    (State.mailboxTake data s).therm = s.therm ∧ (State.mailboxTake data s).ports = s.ports ∧
    (State.mailboxTake data s).streams = s.streams ∧ (State.mailboxTake data s).services = s.services ∧
    (State.mailboxTake data s).ptpPorts = s.ptpPorts ∧ (State.mailboxTake data s).ptp = s.ptp ∧
    (State.mailboxTake data s).chans = s.chans ∧ (State.mailboxTake data s).seqs = s.seqs ∧
    (State.mailboxTake data s).hc = s.hc ∧ (State.mailboxTake data s).trim = s.trim ∧
    (State.mailboxTake data s).bundles = s.bundles ∧ (State.mailboxTake data s).slots = s.slots ∧
    (State.mailboxTake data s).wt = s.wt ∧ (State.mailboxTake data s).mem = s.mem ∧
    (State.mailboxTake data s).fwMem = s.fwMem ∧ (State.mailboxTake data s).ms = s.ms ∧
    (State.mailboxTake data s).pricks = s.pricks ∧ (State.mailboxTake data s).templates = s.templates ∧
    (State.mailboxTake data s).jobs = s.jobs ∧ (State.mailboxTake data s).order = s.order ∧
    (State.mailboxTake data s).pillows = s.pillows ∧ (State.mailboxTake data s).free = s.free := by
  have hF0 := @State.putQueue_frame
  have hF1 := @State.modQueue_frame
  unfold State.mailboxTake; simp [hF0, hF1]

theorem State.mailboxWait_frame (data : Bytes) (s : State) : (State.mailboxWait data s).now = s.now ∧
    (State.mailboxWait data s).pending = s.pending ∧ (State.mailboxWait data s).tb = s.tb ∧
    (State.mailboxWait data s).sheets = s.sheets ∧ (State.mailboxWait data s).units = s.units ∧
    (State.mailboxWait data s).pins = s.pins ∧ (State.mailboxWait data s).pk = s.pk ∧
    (State.mailboxWait data s).queues = s.queues ∧ (State.mailboxWait data s).latches = s.latches ∧
    (State.mailboxWait data s).errw = s.errw ∧ (State.mailboxWait data s).bulk = s.bulk ∧
    (State.mailboxWait data s).mgmt = s.mgmt ∧ (State.mailboxWait data s).power = s.power ∧
    (State.mailboxWait data s).sec = s.sec ∧ (State.mailboxWait data s).therm = s.therm ∧
    (State.mailboxWait data s).ports = s.ports ∧ (State.mailboxWait data s).streams = s.streams ∧
    (State.mailboxWait data s).services = s.services ∧ (State.mailboxWait data s).ptpPorts = s.ptpPorts ∧
    (State.mailboxWait data s).ptp = s.ptp ∧ (State.mailboxWait data s).chans = s.chans ∧
    (State.mailboxWait data s).seqs = s.seqs ∧ (State.mailboxWait data s).hc = s.hc ∧
    (State.mailboxWait data s).trim = s.trim ∧ (State.mailboxWait data s).bundles = s.bundles ∧
    (State.mailboxWait data s).slots = s.slots ∧ (State.mailboxWait data s).wt = s.wt ∧
    (State.mailboxWait data s).mem = s.mem ∧ (State.mailboxWait data s).fwMem = s.fwMem ∧
    (State.mailboxWait data s).ms = s.ms ∧ (State.mailboxWait data s).pricks = s.pricks ∧
    (State.mailboxWait data s).templates = s.templates ∧ (State.mailboxWait data s).jobs = s.jobs ∧
    (State.mailboxWait data s).order = s.order ∧ (State.mailboxWait data s).pillows = s.pillows ∧
    (State.mailboxWait data s).free = s.free := by
  unfold State.mailboxWait; simp

theorem State.deliver_frame (p : QPacket) (d : Nat) (n : Nat) (s : State) :
    (State.deliver p d n s).now = s.now ∧ (State.deliver p d n s).pending = s.pending ∧
    (State.deliver p d n s).tb = s.tb ∧ (State.deliver p d n s).sheets = s.sheets ∧
    (State.deliver p d n s).units = s.units ∧ (State.deliver p d n s).pins = s.pins ∧
    (State.deliver p d n s).pk = s.pk ∧ (State.deliver p d n s).latches = s.latches ∧
    (State.deliver p d n s).errw = s.errw ∧ (State.deliver p d n s).bulk = s.bulk ∧
    (State.deliver p d n s).mgmt = s.mgmt ∧ (State.deliver p d n s).power = s.power ∧
    (State.deliver p d n s).sec = s.sec ∧ (State.deliver p d n s).therm = s.therm ∧
    (State.deliver p d n s).ports = s.ports ∧ (State.deliver p d n s).streams = s.streams ∧
    (State.deliver p d n s).services = s.services ∧ (State.deliver p d n s).ptpPorts = s.ptpPorts ∧
    (State.deliver p d n s).ptp = s.ptp ∧ (State.deliver p d n s).chans = s.chans ∧
    (State.deliver p d n s).seqs = s.seqs ∧ (State.deliver p d n s).hc = s.hc ∧
    (State.deliver p d n s).trim = s.trim ∧ (State.deliver p d n s).bundles = s.bundles ∧
    (State.deliver p d n s).slots = s.slots ∧ (State.deliver p d n s).wt = s.wt ∧
    (State.deliver p d n s).mem = s.mem ∧ (State.deliver p d n s).fwMem = s.fwMem ∧
    (State.deliver p d n s).ms = s.ms ∧ (State.deliver p d n s).pricks = s.pricks ∧
    (State.deliver p d n s).templates = s.templates ∧ (State.deliver p d n s).jobs = s.jobs ∧
    (State.deliver p d n s).order = s.order ∧ (State.deliver p d n s).pillows = s.pillows ∧
    (State.deliver p d n s).free = s.free := by
  have hF0 := @State.putQueue_frame
  unfold State.deliver; simp [hF0]

theorem State.windowClean_frame (n : Nat) (s : State) : (State.windowClean n s).now = s.now ∧
    (State.windowClean n s).pending = s.pending ∧ (State.windowClean n s).tb = s.tb ∧
    (State.windowClean n s).sheets = s.sheets ∧ (State.windowClean n s).units = s.units ∧
    (State.windowClean n s).pins = s.pins ∧ (State.windowClean n s).pk = s.pk ∧
    (State.windowClean n s).latches = s.latches ∧ (State.windowClean n s).errw = s.errw ∧
    (State.windowClean n s).bulk = s.bulk ∧ (State.windowClean n s).mgmt = s.mgmt ∧
    (State.windowClean n s).power = s.power ∧ (State.windowClean n s).sec = s.sec ∧
    (State.windowClean n s).therm = s.therm ∧ (State.windowClean n s).ports = s.ports ∧
    (State.windowClean n s).streams = s.streams ∧ (State.windowClean n s).services = s.services ∧
    (State.windowClean n s).ptpPorts = s.ptpPorts ∧ (State.windowClean n s).ptp = s.ptp ∧
    (State.windowClean n s).chans = s.chans ∧ (State.windowClean n s).seqs = s.seqs ∧
    (State.windowClean n s).hc = s.hc ∧ (State.windowClean n s).trim = s.trim ∧
    (State.windowClean n s).bundles = s.bundles ∧ (State.windowClean n s).slots = s.slots ∧
    (State.windowClean n s).wt = s.wt ∧ (State.windowClean n s).mem = s.mem ∧
    (State.windowClean n s).fwMem = s.fwMem ∧ (State.windowClean n s).ms = s.ms ∧
    (State.windowClean n s).pricks = s.pricks ∧ (State.windowClean n s).templates = s.templates ∧
    (State.windowClean n s).jobs = s.jobs ∧ (State.windowClean n s).order = s.order ∧
    (State.windowClean n s).pillows = s.pillows ∧ (State.windowClean n s).free = s.free := by
  have hF0 := @State.deliver_frame
  have hF1 := @State.putQueue_frame
  unfold State.windowClean; dsimp only; (repeat' split) <;> simp [hF0, hF1]

theorem State.windowRead_frame (n : Nat) (ecc : WordEcc) (s : State) :
    (State.windowRead n ecc s).now = s.now ∧ (State.windowRead n ecc s).pending = s.pending ∧
    (State.windowRead n ecc s).tb = s.tb ∧ (State.windowRead n ecc s).sheets = s.sheets ∧
    (State.windowRead n ecc s).units = s.units ∧ (State.windowRead n ecc s).pins = s.pins ∧
    (State.windowRead n ecc s).pk = s.pk ∧ (State.windowRead n ecc s).errw = s.errw ∧
    (State.windowRead n ecc s).bulk = s.bulk ∧ (State.windowRead n ecc s).power = s.power ∧
    (State.windowRead n ecc s).sec = s.sec ∧ (State.windowRead n ecc s).therm = s.therm ∧
    (State.windowRead n ecc s).ports = s.ports ∧ (State.windowRead n ecc s).streams = s.streams ∧
    (State.windowRead n ecc s).services = s.services ∧ (State.windowRead n ecc s).ptpPorts = s.ptpPorts ∧
    (State.windowRead n ecc s).ptp = s.ptp ∧ (State.windowRead n ecc s).chans = s.chans ∧
    (State.windowRead n ecc s).seqs = s.seqs ∧ (State.windowRead n ecc s).hc = s.hc ∧
    (State.windowRead n ecc s).trim = s.trim ∧ (State.windowRead n ecc s).bundles = s.bundles ∧
    (State.windowRead n ecc s).slots = s.slots ∧ (State.windowRead n ecc s).wt = s.wt ∧
    (State.windowRead n ecc s).mem = s.mem ∧ (State.windowRead n ecc s).fwMem = s.fwMem ∧
    (State.windowRead n ecc s).ms = s.ms ∧ (State.windowRead n ecc s).pricks = s.pricks ∧
    (State.windowRead n ecc s).templates = s.templates ∧ (State.windowRead n ecc s).jobs = s.jobs ∧
    (State.windowRead n ecc s).order = s.order ∧ (State.windowRead n ecc s).pillows = s.pillows ∧
    (State.windowRead n ecc s).free = s.free := by
  have hF0 := @State.putQueue_frame
  have hF1 := @State.packetLost_frame
  have hF2 := @State.wordsCorrected_frame
  have hF3 := @State.windowClean_frame
  unfold State.windowRead; dsimp only; (repeat' split) <;> simp [hF0, hF1, hF2, hF3]

theorem State.f1Write_frame (addr : Nat) (v : Nat) (s : State) : (State.f1Write addr v s).now = s.now ∧
    (State.f1Write addr v s).pending = s.pending ∧ (State.f1Write addr v s).tb = s.tb ∧
    (State.f1Write addr v s).sheets = s.sheets ∧ (State.f1Write addr v s).units = s.units ∧
    (State.f1Write addr v s).pins = s.pins ∧ (State.f1Write addr v s).pk = s.pk ∧
    (State.f1Write addr v s).queues = s.queues ∧ (State.f1Write addr v s).latches = s.latches ∧
    (State.f1Write addr v s).errw = s.errw ∧ (State.f1Write addr v s).bulk = s.bulk ∧
    (State.f1Write addr v s).mgmt = s.mgmt ∧ (State.f1Write addr v s).power = s.power ∧
    (State.f1Write addr v s).sec = s.sec ∧ (State.f1Write addr v s).therm = s.therm ∧
    (State.f1Write addr v s).ports = s.ports ∧ (State.f1Write addr v s).streams = s.streams ∧
    (State.f1Write addr v s).services = s.services ∧ (State.f1Write addr v s).ptpPorts = s.ptpPorts ∧
    (State.f1Write addr v s).ptp = s.ptp ∧ (State.f1Write addr v s).chans = s.chans ∧
    (State.f1Write addr v s).seqs = s.seqs ∧ (State.f1Write addr v s).hc = s.hc ∧
    (State.f1Write addr v s).trim = s.trim ∧ (State.f1Write addr v s).bundles = s.bundles ∧
    (State.f1Write addr v s).slots = s.slots ∧ (State.f1Write addr v s).wt = s.wt ∧
    (State.f1Write addr v s).mem = s.mem ∧ (State.f1Write addr v s).fwMem = s.fwMem ∧
    (State.f1Write addr v s).ms = s.ms ∧ (State.f1Write addr v s).pricks = s.pricks ∧
    (State.f1Write addr v s).templates = s.templates ∧ (State.f1Write addr v s).jobs = s.jobs ∧
    (State.f1Write addr v s).order = s.order ∧ (State.f1Write addr v s).pillows = s.pillows ∧
    (State.f1Write addr v s).free = s.free := by
  unfold State.f1Write; simp

theorem State.f2Write_frame (addr : Nat) (v : Nat) (s : State) : (State.f2Write addr v s).now = s.now ∧
    (State.f2Write addr v s).pending = s.pending ∧ (State.f2Write addr v s).tb = s.tb ∧
    (State.f2Write addr v s).sheets = s.sheets ∧ (State.f2Write addr v s).units = s.units ∧
    (State.f2Write addr v s).pins = s.pins ∧ (State.f2Write addr v s).pk = s.pk ∧
    (State.f2Write addr v s).queues = s.queues ∧ (State.f2Write addr v s).latches = s.latches ∧
    (State.f2Write addr v s).errw = s.errw ∧ (State.f2Write addr v s).sdio = s.sdio ∧
    (State.f2Write addr v s).mgmt = s.mgmt ∧ (State.f2Write addr v s).power = s.power ∧
    (State.f2Write addr v s).sec = s.sec ∧ (State.f2Write addr v s).therm = s.therm ∧
    (State.f2Write addr v s).ports = s.ports ∧ (State.f2Write addr v s).streams = s.streams ∧
    (State.f2Write addr v s).services = s.services ∧ (State.f2Write addr v s).ptpPorts = s.ptpPorts ∧
    (State.f2Write addr v s).ptp = s.ptp ∧ (State.f2Write addr v s).chans = s.chans ∧
    (State.f2Write addr v s).seqs = s.seqs ∧ (State.f2Write addr v s).hc = s.hc ∧
    (State.f2Write addr v s).trim = s.trim ∧ (State.f2Write addr v s).bundles = s.bundles ∧
    (State.f2Write addr v s).slots = s.slots ∧ (State.f2Write addr v s).wt = s.wt ∧
    (State.f2Write addr v s).mem = s.mem ∧ (State.f2Write addr v s).fwMem = s.fwMem ∧
    (State.f2Write addr v s).ms = s.ms ∧ (State.f2Write addr v s).pricks = s.pricks ∧
    (State.f2Write addr v s).templates = s.templates ∧ (State.f2Write addr v s).jobs = s.jobs ∧
    (State.f2Write addr v s).order = s.order ∧ (State.f2Write addr v s).pillows = s.pillows ∧
    (State.f2Write addr v s).free = s.free := by
  unfold State.f2Write; simp

theorem State.f1Read_frame (addr : Nat) (s : State) : (State.f1Read addr s).2.now = s.now ∧
    (State.f1Read addr s).2.pending = s.pending ∧ (State.f1Read addr s).2.tb = s.tb ∧
    (State.f1Read addr s).2.sheets = s.sheets ∧ (State.f1Read addr s).2.units = s.units ∧
    (State.f1Read addr s).2.pins = s.pins ∧ (State.f1Read addr s).2.pk = s.pk ∧
    (State.f1Read addr s).2.queues = s.queues ∧ (State.f1Read addr s).2.latches = s.latches ∧
    (State.f1Read addr s).2.errw = s.errw ∧ (State.f1Read addr s).2.bulk = s.bulk ∧
    (State.f1Read addr s).2.mgmt = s.mgmt ∧ (State.f1Read addr s).2.power = s.power ∧
    (State.f1Read addr s).2.sec = s.sec ∧ (State.f1Read addr s).2.therm = s.therm ∧
    (State.f1Read addr s).2.ports = s.ports ∧ (State.f1Read addr s).2.streams = s.streams ∧
    (State.f1Read addr s).2.services = s.services ∧ (State.f1Read addr s).2.ptpPorts = s.ptpPorts ∧
    (State.f1Read addr s).2.ptp = s.ptp ∧ (State.f1Read addr s).2.chans = s.chans ∧
    (State.f1Read addr s).2.seqs = s.seqs ∧ (State.f1Read addr s).2.hc = s.hc ∧
    (State.f1Read addr s).2.trim = s.trim ∧ (State.f1Read addr s).2.bundles = s.bundles ∧
    (State.f1Read addr s).2.slots = s.slots ∧ (State.f1Read addr s).2.wt = s.wt ∧
    (State.f1Read addr s).2.mem = s.mem ∧ (State.f1Read addr s).2.fwMem = s.fwMem ∧
    (State.f1Read addr s).2.ms = s.ms ∧ (State.f1Read addr s).2.pricks = s.pricks ∧
    (State.f1Read addr s).2.templates = s.templates ∧ (State.f1Read addr s).2.jobs = s.jobs ∧
    (State.f1Read addr s).2.order = s.order ∧ (State.f1Read addr s).2.pillows = s.pillows ∧
    (State.f1Read addr s).2.free = s.free := by
  unfold State.f1Read; simp

theorem State.f2Read_frame (addr : Nat) (s : State) : (State.f2Read addr s).2.now = s.now ∧
    (State.f2Read addr s).2.pending = s.pending ∧ (State.f2Read addr s).2.tb = s.tb ∧
    (State.f2Read addr s).2.sheets = s.sheets ∧ (State.f2Read addr s).2.units = s.units ∧
    (State.f2Read addr s).2.pins = s.pins ∧ (State.f2Read addr s).2.pk = s.pk ∧
    (State.f2Read addr s).2.queues = s.queues ∧ (State.f2Read addr s).2.latches = s.latches ∧
    (State.f2Read addr s).2.errw = s.errw ∧ (State.f2Read addr s).2.sdio = s.sdio ∧
    (State.f2Read addr s).2.mgmt = s.mgmt ∧ (State.f2Read addr s).2.power = s.power ∧
    (State.f2Read addr s).2.sec = s.sec ∧ (State.f2Read addr s).2.therm = s.therm ∧
    (State.f2Read addr s).2.ports = s.ports ∧ (State.f2Read addr s).2.streams = s.streams ∧
    (State.f2Read addr s).2.services = s.services ∧ (State.f2Read addr s).2.ptpPorts = s.ptpPorts ∧
    (State.f2Read addr s).2.ptp = s.ptp ∧ (State.f2Read addr s).2.chans = s.chans ∧
    (State.f2Read addr s).2.seqs = s.seqs ∧ (State.f2Read addr s).2.hc = s.hc ∧
    (State.f2Read addr s).2.trim = s.trim ∧ (State.f2Read addr s).2.bundles = s.bundles ∧
    (State.f2Read addr s).2.slots = s.slots ∧ (State.f2Read addr s).2.wt = s.wt ∧
    (State.f2Read addr s).2.mem = s.mem ∧ (State.f2Read addr s).2.fwMem = s.fwMem ∧
    (State.f2Read addr s).2.ms = s.ms ∧ (State.f2Read addr s).2.pricks = s.pricks ∧
    (State.f2Read addr s).2.templates = s.templates ∧ (State.f2Read addr s).2.jobs = s.jobs ∧
    (State.f2Read addr s).2.order = s.order ∧ (State.f2Read addr s).2.pillows = s.pillows ∧
    (State.f2Read addr s).2.free = s.free := by
  unfold State.f2Read; simp

theorem State.ioAbort_frame (fn : Nat) (inCmd : Bool) (s : State) : (State.ioAbort fn inCmd s).now = s.now ∧
    (State.ioAbort fn inCmd s).pending = s.pending ∧ (State.ioAbort fn inCmd s).tb = s.tb ∧
    (State.ioAbort fn inCmd s).sheets = s.sheets ∧ (State.ioAbort fn inCmd s).units = s.units ∧
    (State.ioAbort fn inCmd s).pins = s.pins ∧ (State.ioAbort fn inCmd s).pk = s.pk ∧
    (State.ioAbort fn inCmd s).queues = s.queues ∧ (State.ioAbort fn inCmd s).latches = s.latches ∧
    (State.ioAbort fn inCmd s).errw = s.errw ∧ (State.ioAbort fn inCmd s).mgmt = s.mgmt ∧
    (State.ioAbort fn inCmd s).power = s.power ∧ (State.ioAbort fn inCmd s).sec = s.sec ∧
    (State.ioAbort fn inCmd s).therm = s.therm ∧ (State.ioAbort fn inCmd s).ports = s.ports ∧
    (State.ioAbort fn inCmd s).streams = s.streams ∧ (State.ioAbort fn inCmd s).services = s.services ∧
    (State.ioAbort fn inCmd s).ptpPorts = s.ptpPorts ∧ (State.ioAbort fn inCmd s).ptp = s.ptp ∧
    (State.ioAbort fn inCmd s).chans = s.chans ∧ (State.ioAbort fn inCmd s).seqs = s.seqs ∧
    (State.ioAbort fn inCmd s).hc = s.hc ∧ (State.ioAbort fn inCmd s).trim = s.trim ∧
    (State.ioAbort fn inCmd s).bundles = s.bundles ∧ (State.ioAbort fn inCmd s).slots = s.slots ∧
    (State.ioAbort fn inCmd s).wt = s.wt ∧ (State.ioAbort fn inCmd s).mem = s.mem ∧
    (State.ioAbort fn inCmd s).fwMem = s.fwMem ∧ (State.ioAbort fn inCmd s).ms = s.ms ∧
    (State.ioAbort fn inCmd s).pricks = s.pricks ∧ (State.ioAbort fn inCmd s).templates = s.templates ∧
    (State.ioAbort fn inCmd s).jobs = s.jobs ∧ (State.ioAbort fn inCmd s).order = s.order ∧
    (State.ioAbort fn inCmd s).pillows = s.pillows ∧ (State.ioAbort fn inCmd s).free = s.free := by
  unfold State.ioAbort; simp

theorem State.endXfer_frame (s : State) : (State.endXfer s).now = s.now ∧
    (State.endXfer s).pending = s.pending ∧ (State.endXfer s).tb = s.tb ∧
    (State.endXfer s).sheets = s.sheets ∧ (State.endXfer s).units = s.units ∧
    (State.endXfer s).pins = s.pins ∧ (State.endXfer s).pk = s.pk ∧ (State.endXfer s).latches = s.latches ∧
    (State.endXfer s).errw = s.errw ∧ (State.endXfer s).mgmt = s.mgmt ∧ (State.endXfer s).power = s.power ∧
    (State.endXfer s).therm = s.therm ∧ (State.endXfer s).ports = s.ports ∧
    (State.endXfer s).streams = s.streams ∧ (State.endXfer s).services = s.services ∧
    (State.endXfer s).ptpPorts = s.ptpPorts ∧ (State.endXfer s).ptp = s.ptp ∧
    (State.endXfer s).chans = s.chans ∧ (State.endXfer s).seqs = s.seqs ∧ (State.endXfer s).hc = s.hc ∧
    (State.endXfer s).trim = s.trim ∧ (State.endXfer s).bundles = s.bundles ∧
    (State.endXfer s).slots = s.slots ∧ (State.endXfer s).wt = s.wt ∧ (State.endXfer s).mem = s.mem ∧
    (State.endXfer s).fwMem = s.fwMem ∧ (State.endXfer s).ms = s.ms ∧ (State.endXfer s).pricks = s.pricks ∧
    (State.endXfer s).templates = s.templates ∧ (State.endXfer s).jobs = s.jobs ∧
    (State.endXfer s).order = s.order ∧ (State.endXfer s).pillows = s.pillows ∧
    (State.endXfer s).free = s.free := by
  have hF0 := @State.reply_frame
  unfold State.endXfer; dsimp only; (repeat' split) <;> simp [hF0]

theorem State.dropPartRead_frame (s : State) : (State.dropPartRead s).now = s.now ∧
    (State.dropPartRead s).pending = s.pending ∧ (State.dropPartRead s).tb = s.tb ∧
    (State.dropPartRead s).sheets = s.sheets ∧ (State.dropPartRead s).units = s.units ∧
    (State.dropPartRead s).pins = s.pins ∧ (State.dropPartRead s).pk = s.pk ∧
    (State.dropPartRead s).latches = s.latches ∧ (State.dropPartRead s).errw = s.errw ∧
    (State.dropPartRead s).bulk = s.bulk ∧ (State.dropPartRead s).mgmt = s.mgmt ∧
    (State.dropPartRead s).power = s.power ∧ (State.dropPartRead s).sec = s.sec ∧
    (State.dropPartRead s).therm = s.therm ∧ (State.dropPartRead s).ports = s.ports ∧
    (State.dropPartRead s).streams = s.streams ∧ (State.dropPartRead s).services = s.services ∧
    (State.dropPartRead s).ptpPorts = s.ptpPorts ∧ (State.dropPartRead s).ptp = s.ptp ∧
    (State.dropPartRead s).chans = s.chans ∧ (State.dropPartRead s).seqs = s.seqs ∧
    (State.dropPartRead s).hc = s.hc ∧ (State.dropPartRead s).trim = s.trim ∧
    (State.dropPartRead s).bundles = s.bundles ∧ (State.dropPartRead s).slots = s.slots ∧
    (State.dropPartRead s).wt = s.wt ∧ (State.dropPartRead s).mem = s.mem ∧
    (State.dropPartRead s).fwMem = s.fwMem ∧ (State.dropPartRead s).ms = s.ms ∧
    (State.dropPartRead s).pricks = s.pricks ∧ (State.dropPartRead s).templates = s.templates ∧
    (State.dropPartRead s).jobs = s.jobs ∧ (State.dropPartRead s).order = s.order ∧
    (State.dropPartRead s).pillows = s.pillows ∧ (State.dropPartRead s).free = s.free := by
  have hF0 := @State.putQueue_frame
  unfold State.dropPartRead; simp [hF0]

theorem State.ioReset_frame (s : State) : (State.ioReset s).now = s.now ∧
    (State.ioReset s).pending = s.pending ∧ (State.ioReset s).tb = s.tb ∧
    (State.ioReset s).sheets = s.sheets ∧ (State.ioReset s).units = s.units ∧
    (State.ioReset s).pins = s.pins ∧ (State.ioReset s).pk = s.pk ∧ (State.ioReset s).latches = s.latches ∧
    (State.ioReset s).errw = s.errw ∧ (State.ioReset s).mgmt = s.mgmt ∧ (State.ioReset s).power = s.power ∧
    (State.ioReset s).therm = s.therm ∧ (State.ioReset s).ports = s.ports ∧
    (State.ioReset s).streams = s.streams ∧ (State.ioReset s).services = s.services ∧
    (State.ioReset s).ptpPorts = s.ptpPorts ∧ (State.ioReset s).ptp = s.ptp ∧
    (State.ioReset s).chans = s.chans ∧ (State.ioReset s).seqs = s.seqs ∧ (State.ioReset s).hc = s.hc ∧
    (State.ioReset s).trim = s.trim ∧ (State.ioReset s).bundles = s.bundles ∧
    (State.ioReset s).slots = s.slots ∧ (State.ioReset s).wt = s.wt ∧ (State.ioReset s).mem = s.mem ∧
    (State.ioReset s).fwMem = s.fwMem ∧ (State.ioReset s).ms = s.ms ∧ (State.ioReset s).pricks = s.pricks ∧
    (State.ioReset s).templates = s.templates ∧ (State.ioReset s).jobs = s.jobs ∧
    (State.ioReset s).order = s.order ∧ (State.ioReset s).pillows = s.pillows ∧
    (State.ioReset s).free = s.free := by
  have hF0 := @State.dropPartRead_frame
  have hF1 := @State.endXfer_frame
  unfold State.ioReset; simp [hF0, hF1]

theorem State.cccrWrite_frame (addr : Nat) (v : Nat) (s : State) : (State.cccrWrite addr v s).now = s.now ∧
    (State.cccrWrite addr v s).pending = s.pending ∧ (State.cccrWrite addr v s).tb = s.tb ∧
    (State.cccrWrite addr v s).sheets = s.sheets ∧ (State.cccrWrite addr v s).units = s.units ∧
    (State.cccrWrite addr v s).pins = s.pins ∧ (State.cccrWrite addr v s).pk = s.pk ∧
    (State.cccrWrite addr v s).latches = s.latches ∧ (State.cccrWrite addr v s).errw = s.errw ∧
    (State.cccrWrite addr v s).mgmt = s.mgmt ∧ (State.cccrWrite addr v s).power = s.power ∧
    (State.cccrWrite addr v s).therm = s.therm ∧ (State.cccrWrite addr v s).ports = s.ports ∧
    (State.cccrWrite addr v s).streams = s.streams ∧ (State.cccrWrite addr v s).services = s.services ∧
    (State.cccrWrite addr v s).ptpPorts = s.ptpPorts ∧ (State.cccrWrite addr v s).ptp = s.ptp ∧
    (State.cccrWrite addr v s).chans = s.chans ∧ (State.cccrWrite addr v s).seqs = s.seqs ∧
    (State.cccrWrite addr v s).hc = s.hc ∧ (State.cccrWrite addr v s).trim = s.trim ∧
    (State.cccrWrite addr v s).bundles = s.bundles ∧ (State.cccrWrite addr v s).slots = s.slots ∧
    (State.cccrWrite addr v s).wt = s.wt ∧ (State.cccrWrite addr v s).mem = s.mem ∧
    (State.cccrWrite addr v s).fwMem = s.fwMem ∧ (State.cccrWrite addr v s).ms = s.ms ∧
    (State.cccrWrite addr v s).pricks = s.pricks ∧ (State.cccrWrite addr v s).templates = s.templates ∧
    (State.cccrWrite addr v s).jobs = s.jobs ∧ (State.cccrWrite addr v s).order = s.order ∧
    (State.cccrWrite addr v s).pillows = s.pillows ∧ (State.cccrWrite addr v s).free = s.free := by
  have hF0 := @State.ioReset_frame
  have hF1 := @State.ioAbort_frame
  unfold State.cccrWrite; simp [hF0, hF1]

/-! ## Calibration -/

theorem State.keepAll_frame (x0 : List ErrReport) (x1 : State) : (State.keepAll x0 x1).now = x1.now ∧
    (State.keepAll x0 x1).pending = x1.pending ∧ (State.keepAll x0 x1).tb = x1.tb ∧
    (State.keepAll x0 x1).sheets = x1.sheets ∧ (State.keepAll x0 x1).units = x1.units ∧
    (State.keepAll x0 x1).pins = x1.pins ∧ (State.keepAll x0 x1).pk = x1.pk ∧
    (State.keepAll x0 x1).errw = x1.errw ∧ (State.keepAll x0 x1).bulk = x1.bulk ∧
    (State.keepAll x0 x1).mgmt = x1.mgmt ∧ (State.keepAll x0 x1).power = x1.power ∧
    (State.keepAll x0 x1).sec = x1.sec ∧ (State.keepAll x0 x1).therm = x1.therm ∧
    (State.keepAll x0 x1).ports = x1.ports ∧ (State.keepAll x0 x1).streams = x1.streams ∧
    (State.keepAll x0 x1).services = x1.services ∧ (State.keepAll x0 x1).ptpPorts = x1.ptpPorts ∧
    (State.keepAll x0 x1).ptp = x1.ptp ∧ (State.keepAll x0 x1).chans = x1.chans ∧
    (State.keepAll x0 x1).seqs = x1.seqs ∧ (State.keepAll x0 x1).hc = x1.hc ∧
    (State.keepAll x0 x1).bundles = x1.bundles ∧ (State.keepAll x0 x1).slots = x1.slots ∧
    (State.keepAll x0 x1).wt = x1.wt ∧ (State.keepAll x0 x1).mem = x1.mem ∧
    (State.keepAll x0 x1).fwMem = x1.fwMem ∧ (State.keepAll x0 x1).ms = x1.ms ∧
    (State.keepAll x0 x1).pricks = x1.pricks ∧ (State.keepAll x0 x1).templates = x1.templates ∧
    (State.keepAll x0 x1).jobs = x1.jobs ∧ (State.keepAll x0 x1).order = x1.order ∧
    (State.keepAll x0 x1).pillows = x1.pillows ∧ (State.keepAll x0 x1).free = x1.free := by
  have hF0 := @State.report_frame
  induction x0 generalizing x1 <;> simp_all [State.keepAll]

theorem calRunDo_frame (h : Hdr) (s : State) : (calRunDo h s).now = s.now ∧
    (calRunDo h s).pending = s.pending ∧ (calRunDo h s).tb = s.tb ∧ (calRunDo h s).sheets = s.sheets ∧
    (calRunDo h s).units = s.units ∧ (calRunDo h s).pins = s.pins ∧ (calRunDo h s).pk = s.pk ∧
    (calRunDo h s).queues = s.queues ∧ (calRunDo h s).latches = s.latches ∧ (calRunDo h s).errw = s.errw ∧
    (calRunDo h s).sdio = s.sdio ∧ (calRunDo h s).bulk = s.bulk ∧ (calRunDo h s).power = s.power ∧
    (calRunDo h s).sec = s.sec ∧ (calRunDo h s).therm = s.therm ∧ (calRunDo h s).ports = s.ports ∧
    (calRunDo h s).streams = s.streams ∧ (calRunDo h s).services = s.services ∧
    (calRunDo h s).ptpPorts = s.ptpPorts ∧ (calRunDo h s).ptp = s.ptp ∧ (calRunDo h s).chans = s.chans ∧
    (calRunDo h s).seqs = s.seqs ∧ (calRunDo h s).hc = s.hc ∧ (calRunDo h s).bundles = s.bundles ∧
    (calRunDo h s).slots = s.slots ∧ (calRunDo h s).wt = s.wt ∧ (calRunDo h s).mem = s.mem ∧
    (calRunDo h s).fwMem = s.fwMem ∧ (calRunDo h s).ms = s.ms ∧ (calRunDo h s).pricks = s.pricks ∧
    (calRunDo h s).templates = s.templates ∧ (calRunDo h s).jobs = s.jobs ∧ (calRunDo h s).order = s.order ∧
    (calRunDo h s).pillows = s.pillows ∧ (calRunDo h s).free = s.free := by
  have hF0 := @State.enterTest_frame
  have hF1 := @State.release_frame
  unfold calRunDo; simp [hF0, hF1]

theorem State.calRecover_frame (p : Nat) (b : Nat) (s : State) : (State.calRecover p b s).now = s.now ∧
    (State.calRecover p b s).pending = s.pending ∧ (State.calRecover p b s).tb = s.tb ∧
    (State.calRecover p b s).sheets = s.sheets ∧ (State.calRecover p b s).units = s.units ∧
    (State.calRecover p b s).pins = s.pins ∧ (State.calRecover p b s).pk = s.pk ∧
    (State.calRecover p b s).queues = s.queues ∧ (State.calRecover p b s).latches = s.latches ∧
    (State.calRecover p b s).errw = s.errw ∧ (State.calRecover p b s).sdio = s.sdio ∧
    (State.calRecover p b s).bulk = s.bulk ∧ (State.calRecover p b s).mgmt = s.mgmt ∧
    (State.calRecover p b s).power = s.power ∧ (State.calRecover p b s).sec = s.sec ∧
    (State.calRecover p b s).therm = s.therm ∧ (State.calRecover p b s).ports = s.ports ∧
    (State.calRecover p b s).streams = s.streams ∧ (State.calRecover p b s).services = s.services ∧
    (State.calRecover p b s).ptpPorts = s.ptpPorts ∧ (State.calRecover p b s).ptp = s.ptp ∧
    (State.calRecover p b s).chans = s.chans ∧ (State.calRecover p b s).seqs = s.seqs ∧
    (State.calRecover p b s).hc = s.hc ∧ (State.calRecover p b s).trim = s.trim ∧
    (State.calRecover p b s).bundles = s.bundles ∧ (State.calRecover p b s).slots = s.slots ∧
    (State.calRecover p b s).wt = s.wt ∧ (State.calRecover p b s).mem = s.mem ∧
    (State.calRecover p b s).fwMem = s.fwMem ∧ (State.calRecover p b s).ms = s.ms ∧
    (State.calRecover p b s).pricks = s.pricks ∧ (State.calRecover p b s).templates = s.templates ∧
    (State.calRecover p b s).jobs = s.jobs ∧ (State.calRecover p b s).order = s.order ∧
    (State.calRecover p b s).free = s.free := by
  have hF0 := @State.setBobbin_frame
  have hF1 := @State.regainSpare_frame
  unfold State.calRecover; simp [hF0, hF1]

theorem State.calFailOne_frame (p : Nat) (b : Nat) (s : State) : (State.calFailOne p b s).now = s.now ∧
    (State.calFailOne p b s).pending = s.pending ∧ (State.calFailOne p b s).tb = s.tb ∧
    (State.calFailOne p b s).sheets = s.sheets ∧ (State.calFailOne p b s).units = s.units ∧
    (State.calFailOne p b s).pins = s.pins ∧ (State.calFailOne p b s).pk = s.pk ∧
    (State.calFailOne p b s).errw = s.errw ∧ (State.calFailOne p b s).bulk = s.bulk ∧
    (State.calFailOne p b s).mgmt = s.mgmt ∧ (State.calFailOne p b s).power = s.power ∧
    (State.calFailOne p b s).sec = s.sec ∧ (State.calFailOne p b s).therm = s.therm ∧
    (State.calFailOne p b s).ports = s.ports ∧ (State.calFailOne p b s).streams = s.streams ∧
    (State.calFailOne p b s).services = s.services ∧ (State.calFailOne p b s).ptpPorts = s.ptpPorts ∧
    (State.calFailOne p b s).ptp = s.ptp ∧ (State.calFailOne p b s).chans = s.chans ∧
    (State.calFailOne p b s).seqs = s.seqs ∧ (State.calFailOne p b s).hc = s.hc ∧
    (State.calFailOne p b s).trim = s.trim ∧ (State.calFailOne p b s).bundles = s.bundles ∧
    (State.calFailOne p b s).slots = s.slots ∧ (State.calFailOne p b s).wt = s.wt ∧
    (State.calFailOne p b s).mem = s.mem ∧ (State.calFailOne p b s).fwMem = s.fwMem ∧
    (State.calFailOne p b s).ms = s.ms ∧ (State.calFailOne p b s).pricks = s.pricks ∧
    (State.calFailOne p b s).templates = s.templates ∧ (State.calFailOne p b s).jobs = s.jobs ∧
    (State.calFailOne p b s).order = s.order ∧ (State.calFailOne p b s).free = s.free := by
  have hF0 := @State.setBobbin_frame
  have hF1 := @State.loseSpare_frame
  have hF2 := @State.modBobbin_frame
  have hF3 := @State.setPillow_frame
  unfold State.calFailOne; dsimp only; (repeat' split) <;> simp [hF0, hF1, hF2, hF3]

theorem State.calPillow_frame (r : CalResult) (p : Nat) (s : State) : (State.calPillow r p s).now = s.now ∧
    (State.calPillow r p s).pending = s.pending ∧ (State.calPillow r p s).tb = s.tb ∧
    (State.calPillow r p s).sheets = s.sheets ∧ (State.calPillow r p s).units = s.units ∧
    (State.calPillow r p s).pins = s.pins ∧ (State.calPillow r p s).pk = s.pk ∧
    (State.calPillow r p s).errw = s.errw ∧ (State.calPillow r p s).bulk = s.bulk ∧
    (State.calPillow r p s).mgmt = s.mgmt ∧ (State.calPillow r p s).power = s.power ∧
    (State.calPillow r p s).sec = s.sec ∧ (State.calPillow r p s).therm = s.therm ∧
    (State.calPillow r p s).ports = s.ports ∧ (State.calPillow r p s).streams = s.streams ∧
    (State.calPillow r p s).services = s.services ∧ (State.calPillow r p s).ptpPorts = s.ptpPorts ∧
    (State.calPillow r p s).ptp = s.ptp ∧ (State.calPillow r p s).chans = s.chans ∧
    (State.calPillow r p s).seqs = s.seqs ∧ (State.calPillow r p s).hc = s.hc ∧
    (State.calPillow r p s).bundles = s.bundles ∧ (State.calPillow r p s).slots = s.slots ∧
    (State.calPillow r p s).wt = s.wt ∧ (State.calPillow r p s).mem = s.mem ∧
    (State.calPillow r p s).fwMem = s.fwMem ∧ (State.calPillow r p s).ms = s.ms ∧
    (State.calPillow r p s).pricks = s.pricks ∧ (State.calPillow r p s).templates = s.templates ∧
    (State.calPillow r p s).jobs = s.jobs ∧ (State.calPillow r p s).order = s.order ∧
    (State.calPillow r p s).free = s.free := by
  have hF0 := @State.calFailOne_frame
  have hF1 := @State.calRecover_frame
  have hF2 := @State.keepAll_frame
  have hF3 := @State.modBobbin_frame
  unfold State.calPillow; simp [hF0, hF1, hF2, hF3]

theorem State.afterTest_frame (pass : Bool) (s : State) : (State.afterTest pass s).now = s.now ∧
    (State.afterTest pass s).pending = s.pending ∧ (State.afterTest pass s).tb = s.tb ∧
    (State.afterTest pass s).sheets = s.sheets ∧ (State.afterTest pass s).units = s.units ∧
    (State.afterTest pass s).pins = s.pins ∧ (State.afterTest pass s).pk = s.pk ∧
    (State.afterTest pass s).errw = s.errw ∧ (State.afterTest pass s).bulk = s.bulk ∧
    (State.afterTest pass s).power = s.power ∧ (State.afterTest pass s).therm = s.therm ∧
    (State.afterTest pass s).ports = s.ports ∧ (State.afterTest pass s).streams = s.streams ∧
    (State.afterTest pass s).services = s.services ∧ (State.afterTest pass s).ptpPorts = s.ptpPorts ∧
    (State.afterTest pass s).ptp = s.ptp ∧ (State.afterTest pass s).chans = s.chans ∧
    (State.afterTest pass s).seqs = s.seqs ∧ (State.afterTest pass s).hc = s.hc ∧
    (State.afterTest pass s).trim = s.trim ∧ (State.afterTest pass s).bundles = s.bundles ∧
    (State.afterTest pass s).slots = s.slots ∧ (State.afterTest pass s).wt = s.wt ∧
    (State.afterTest pass s).mem = s.mem ∧ (State.afterTest pass s).fwMem = s.fwMem ∧
    (State.afterTest pass s).ms = s.ms ∧ (State.afterTest pass s).pricks = s.pricks ∧
    (State.afterTest pass s).templates = s.templates ∧ (State.afterTest pass s).jobs = s.jobs ∧
    (State.afterTest pass s).order = s.order ∧ (State.afterTest pass s).pillows = s.pillows ∧
    (State.afterTest pass s).free = s.free := by
  have hF0 := @State.burnAtService_frame
  unfold State.afterTest; simp [hF0]

theorem State.calPass_frame (r : CalResult) (d : DieValues) (s : State) :
    (State.calPass r d s).now = s.now ∧ (State.calPass r d s).pending = s.pending ∧
    (State.calPass r d s).tb = s.tb ∧ (State.calPass r d s).sheets = s.sheets ∧
    (State.calPass r d s).units = s.units ∧ (State.calPass r d s).pins = s.pins ∧
    (State.calPass r d s).pk = s.pk ∧ (State.calPass r d s).queues = s.queues ∧
    (State.calPass r d s).latches = s.latches ∧ (State.calPass r d s).errw = s.errw ∧
    (State.calPass r d s).sdio = s.sdio ∧ (State.calPass r d s).bulk = s.bulk ∧
    (State.calPass r d s).mgmt = s.mgmt ∧ (State.calPass r d s).power = s.power ∧
    (State.calPass r d s).sec = s.sec ∧ (State.calPass r d s).therm = s.therm ∧
    (State.calPass r d s).ports = s.ports ∧ (State.calPass r d s).streams = s.streams ∧
    (State.calPass r d s).services = s.services ∧ (State.calPass r d s).ptpPorts = s.ptpPorts ∧
    (State.calPass r d s).ptp = s.ptp ∧ (State.calPass r d s).chans = s.chans ∧
    (State.calPass r d s).seqs = s.seqs ∧ (State.calPass r d s).hc = s.hc ∧
    (State.calPass r d s).bundles = s.bundles ∧ (State.calPass r d s).slots = s.slots ∧
    (State.calPass r d s).wt = s.wt ∧ (State.calPass r d s).mem = s.mem ∧
    (State.calPass r d s).fwMem = s.fwMem ∧ (State.calPass r d s).ms = s.ms ∧
    (State.calPass r d s).pricks = s.pricks ∧ (State.calPass r d s).templates = s.templates ∧
    (State.calPass r d s).jobs = s.jobs ∧ (State.calPass r d s).order = s.order ∧
    (State.calPass r d s).free = s.free := by
  have hF0 := @State.modBobbin_frame
  unfold State.calPass; simp [hF0]

theorem State.calFail_frame (source : Bool) (s : State) : (State.calFail source s).now = s.now ∧
    (State.calFail source s).pending = s.pending ∧ (State.calFail source s).tb = s.tb ∧
    (State.calFail source s).sheets = s.sheets ∧ (State.calFail source s).units = s.units ∧
    (State.calFail source s).pins = s.pins ∧ (State.calFail source s).pk = s.pk ∧
    (State.calFail source s).queues = s.queues ∧ (State.calFail source s).latches = s.latches ∧
    (State.calFail source s).errw = s.errw ∧ (State.calFail source s).sdio = s.sdio ∧
    (State.calFail source s).bulk = s.bulk ∧ (State.calFail source s).mgmt = s.mgmt ∧
    (State.calFail source s).power = s.power ∧ (State.calFail source s).sec = s.sec ∧
    (State.calFail source s).therm = s.therm ∧ (State.calFail source s).ports = s.ports ∧
    (State.calFail source s).streams = s.streams ∧ (State.calFail source s).services = s.services ∧
    (State.calFail source s).ptpPorts = s.ptpPorts ∧ (State.calFail source s).ptp = s.ptp ∧
    (State.calFail source s).chans = s.chans ∧ (State.calFail source s).seqs = s.seqs ∧
    (State.calFail source s).hc = s.hc ∧ (State.calFail source s).bundles = s.bundles ∧
    (State.calFail source s).slots = s.slots ∧ (State.calFail source s).wt = s.wt ∧
    (State.calFail source s).mem = s.mem ∧ (State.calFail source s).fwMem = s.fwMem ∧
    (State.calFail source s).ms = s.ms ∧ (State.calFail source s).pricks = s.pricks ∧
    (State.calFail source s).templates = s.templates ∧ (State.calFail source s).jobs = s.jobs ∧
    (State.calFail source s).order = s.order ∧ (State.calFail source s).pillows = s.pillows ∧
    (State.calFail source s).free = s.free := by
  unfold State.calFail; simp

theorem State.calOver_frame (s : State) : (State.calOver s).now = s.now ∧
    (State.calOver s).pending = s.pending ∧ (State.calOver s).tb = s.tb ∧
    (State.calOver s).sheets = s.sheets ∧ (State.calOver s).units = s.units ∧
    (State.calOver s).pins = s.pins ∧ (State.calOver s).pk = s.pk ∧ (State.calOver s).queues = s.queues ∧
    (State.calOver s).latches = s.latches ∧ (State.calOver s).errw = s.errw ∧
    (State.calOver s).sdio = s.sdio ∧ (State.calOver s).bulk = s.bulk ∧ (State.calOver s).mgmt = s.mgmt ∧
    (State.calOver s).power = s.power ∧ (State.calOver s).sec = s.sec ∧ (State.calOver s).therm = s.therm ∧
    (State.calOver s).ports = s.ports ∧ (State.calOver s).streams = s.streams ∧
    (State.calOver s).services = s.services ∧ (State.calOver s).ptpPorts = s.ptpPorts ∧
    (State.calOver s).ptp = s.ptp ∧ (State.calOver s).chans = s.chans ∧ (State.calOver s).seqs = s.seqs ∧
    (State.calOver s).hc = s.hc ∧ (State.calOver s).bundles = s.bundles ∧
    (State.calOver s).slots = s.slots ∧ (State.calOver s).wt = s.wt ∧ (State.calOver s).mem = s.mem ∧
    (State.calOver s).fwMem = s.fwMem ∧ (State.calOver s).ms = s.ms ∧ (State.calOver s).pricks = s.pricks ∧
    (State.calOver s).templates = s.templates ∧ (State.calOver s).jobs = s.jobs ∧
    (State.calOver s).order = s.order ∧ (State.calOver s).pillows = s.pillows ∧
    (State.calOver s).free = s.free := by
  unfold State.calOver; simp

theorem State.calFailOuts_frame (x0 : List Nat) (x1 : List Nat × State) :
    (State.calFailOuts x0 x1).2.now = x1.2.now ∧ (State.calFailOuts x0 x1).2.pending = x1.2.pending ∧
    (State.calFailOuts x0 x1).2.tb = x1.2.tb ∧ (State.calFailOuts x0 x1).2.sheets = x1.2.sheets ∧
    (State.calFailOuts x0 x1).2.units = x1.2.units ∧ (State.calFailOuts x0 x1).2.errw = x1.2.errw ∧
    (State.calFailOuts x0 x1).2.bulk = x1.2.bulk ∧ (State.calFailOuts x0 x1).2.sec = x1.2.sec ∧
    (State.calFailOuts x0 x1).2.therm = x1.2.therm ∧ (State.calFailOuts x0 x1).2.streams = x1.2.streams ∧
    (State.calFailOuts x0 x1).2.ptpPorts = x1.2.ptpPorts ∧ (State.calFailOuts x0 x1).2.ptp = x1.2.ptp ∧
    (State.calFailOuts x0 x1).2.chans = x1.2.chans ∧ (State.calFailOuts x0 x1).2.seqs = x1.2.seqs ∧
    (State.calFailOuts x0 x1).2.hc = x1.2.hc ∧ (State.calFailOuts x0 x1).2.trim = x1.2.trim ∧
    (State.calFailOuts x0 x1).2.bundles = x1.2.bundles ∧ (State.calFailOuts x0 x1).2.slots = x1.2.slots ∧
    (State.calFailOuts x0 x1).2.wt = x1.2.wt ∧ (State.calFailOuts x0 x1).2.fwMem = x1.2.fwMem ∧
    (State.calFailOuts x0 x1).2.pricks = x1.2.pricks ∧
    (State.calFailOuts x0 x1).2.templates = x1.2.templates ∧
    (State.calFailOuts x0 x1).2.order = x1.2.order := by
  have hF0 := @State.failOut_frame
  induction x0 generalizing x1 <;> simp_all [State.calFailOuts]

@[simp] theorem State.calFailOuts_wf (x0 : List Nat) (x1 : List Nat × State) (hm : Memory.wf x1.2.mem = true) :
    Memory.wf (State.calFailOuts x0 x1).2.mem = true := by
  induction x0 generalizing x1 hm <;> simp_all [State.calFailOuts]

theorem State.calTake_frame (res : CalResult) (s : State) : (State.calTake res s).now = s.now ∧
    (State.calTake res s).pending = s.pending ∧ (State.calTake res s).tb = s.tb ∧
    (State.calTake res s).sheets = s.sheets ∧ (State.calTake res s).units = s.units ∧
    (State.calTake res s).pins = s.pins ∧ (State.calTake res s).pk = s.pk ∧
    (State.calTake res s).errw = s.errw ∧ (State.calTake res s).bulk = s.bulk ∧
    (State.calTake res s).mgmt = s.mgmt ∧ (State.calTake res s).power = s.power ∧
    (State.calTake res s).sec = s.sec ∧ (State.calTake res s).therm = s.therm ∧
    (State.calTake res s).ports = s.ports ∧ (State.calTake res s).streams = s.streams ∧
    (State.calTake res s).services = s.services ∧ (State.calTake res s).ptpPorts = s.ptpPorts ∧
    (State.calTake res s).ptp = s.ptp ∧ (State.calTake res s).chans = s.chans ∧
    (State.calTake res s).seqs = s.seqs ∧ (State.calTake res s).bundles = s.bundles ∧
    (State.calTake res s).slots = s.slots ∧ (State.calTake res s).wt = s.wt ∧
    (State.calTake res s).mem = s.mem ∧ (State.calTake res s).fwMem = s.fwMem ∧
    (State.calTake res s).ms = s.ms ∧ (State.calTake res s).pricks = s.pricks ∧
    (State.calTake res s).templates = s.templates ∧ (State.calTake res s).jobs = s.jobs ∧
    (State.calTake res s).order = s.order ∧ (State.calTake res s).free = s.free := by
  have hF0 := @State.calPillow_frame
  have hF1 := @State.keepAll_frame
  unfold State.calTake; simp [hF0, hF1]

theorem State.calEnd_frame (h : Hdr) (res : CalResult) (d : DieValues) (s : State) :
    (State.calEnd h res d s).2.now = s.now ∧ (State.calEnd h res d s).2.pending = s.pending ∧
    (State.calEnd h res d s).2.tb = s.tb ∧ (State.calEnd h res d s).2.sheets = s.sheets ∧
    (State.calEnd h res d s).2.units = s.units ∧ (State.calEnd h res d s).2.errw = s.errw ∧
    (State.calEnd h res d s).2.bulk = s.bulk ∧ (State.calEnd h res d s).2.therm = s.therm ∧
    (State.calEnd h res d s).2.streams = s.streams ∧ (State.calEnd h res d s).2.ptpPorts = s.ptpPorts ∧
    (State.calEnd h res d s).2.ptp = s.ptp ∧ (State.calEnd h res d s).2.chans = s.chans ∧
    (State.calEnd h res d s).2.bundles = s.bundles ∧ (State.calEnd h res d s).2.slots = s.slots ∧
    (State.calEnd h res d s).2.wt = s.wt ∧ (State.calEnd h res d s).2.fwMem = s.fwMem ∧
    (State.calEnd h res d s).2.pricks = s.pricks ∧ (State.calEnd h res d s).2.templates = s.templates ∧
    (State.calEnd h res d s).2.order = s.order := by
  have hF0 := @State.hcNext_frame
  have hF1 := @State.afterTest_frame
  have hF2 := @State.reply_frame
  have hF3 := @State.calFailOuts_frame
  have hF4 := @State.calOver_frame
  have hF5 := @State.calPass_frame
  have hF6 := @State.calFail_frame
  unfold State.calEnd; simp [hF0, hF1, hF2, hF3, hF4, hF5, hF6]

@[simp] theorem State.calEnd_wf (h : Hdr) (res : CalResult) (d : DieValues) (s : State) (hm : Memory.wf s.mem = true) :
    Memory.wf (State.calEnd h res d s).2.mem = true := by
  have hF0 := @State.hcNext_frame
  have hF1 := @State.afterTest_frame
  have hF2 := @State.reply_frame
  have hF3 := @State.calOver_frame
  have hF4 := @State.calPass_frame
  have hF5 := @State.calFail_frame
  unfold State.calEnd; simp [hF0, hF1, hF2, hF3, hF4, hF5, hm]

theorem trimReadDo_frame (h : Hdr) (offset : Nat) (length : Nat) (s : State) :
    (trimReadDo h offset length s).now = s.now ∧ (trimReadDo h offset length s).pending = s.pending ∧
    (trimReadDo h offset length s).tb = s.tb ∧ (trimReadDo h offset length s).sheets = s.sheets ∧
    (trimReadDo h offset length s).units = s.units ∧ (trimReadDo h offset length s).pins = s.pins ∧
    (trimReadDo h offset length s).pk = s.pk ∧ (trimReadDo h offset length s).latches = s.latches ∧
    (trimReadDo h offset length s).errw = s.errw ∧ (trimReadDo h offset length s).power = s.power ∧
    (trimReadDo h offset length s).sec = s.sec ∧ (trimReadDo h offset length s).therm = s.therm ∧
    (trimReadDo h offset length s).ports = s.ports ∧ (trimReadDo h offset length s).streams = s.streams ∧
    (trimReadDo h offset length s).services = s.services ∧
    (trimReadDo h offset length s).ptpPorts = s.ptpPorts ∧ (trimReadDo h offset length s).ptp = s.ptp ∧
    (trimReadDo h offset length s).chans = s.chans ∧ (trimReadDo h offset length s).seqs = s.seqs ∧
    (trimReadDo h offset length s).hc = s.hc ∧ (trimReadDo h offset length s).trim = s.trim ∧
    (trimReadDo h offset length s).bundles = s.bundles ∧ (trimReadDo h offset length s).slots = s.slots ∧
    (trimReadDo h offset length s).wt = s.wt ∧ (trimReadDo h offset length s).mem = s.mem ∧
    (trimReadDo h offset length s).fwMem = s.fwMem ∧ (trimReadDo h offset length s).ms = s.ms ∧
    (trimReadDo h offset length s).pricks = s.pricks ∧
    (trimReadDo h offset length s).templates = s.templates ∧ (trimReadDo h offset length s).jobs = s.jobs ∧
    (trimReadDo h offset length s).order = s.order ∧ (trimReadDo h offset length s).pillows = s.pillows ∧
    (trimReadDo h offset length s).free = s.free := by
  have hF0 := @State.done_frame
  unfold trimReadDo; simp [hF0]

theorem trimWriteDo_frame (h : Hdr) (s : State) : (trimWriteDo h s).now = s.now ∧
    (trimWriteDo h s).pending = s.pending ∧ (trimWriteDo h s).tb = s.tb ∧
    (trimWriteDo h s).sheets = s.sheets ∧ (trimWriteDo h s).units = s.units ∧
    (trimWriteDo h s).pins = s.pins ∧ (trimWriteDo h s).pk = s.pk ∧ (trimWriteDo h s).queues = s.queues ∧
    (trimWriteDo h s).latches = s.latches ∧ (trimWriteDo h s).errw = s.errw ∧
    (trimWriteDo h s).sdio = s.sdio ∧ (trimWriteDo h s).power = s.power ∧ (trimWriteDo h s).sec = s.sec ∧
    (trimWriteDo h s).therm = s.therm ∧ (trimWriteDo h s).ports = s.ports ∧
    (trimWriteDo h s).streams = s.streams ∧ (trimWriteDo h s).services = s.services ∧
    (trimWriteDo h s).ptpPorts = s.ptpPorts ∧ (trimWriteDo h s).ptp = s.ptp ∧
    (trimWriteDo h s).chans = s.chans ∧ (trimWriteDo h s).seqs = s.seqs ∧ (trimWriteDo h s).hc = s.hc ∧
    (trimWriteDo h s).trim = s.trim ∧ (trimWriteDo h s).bundles = s.bundles ∧
    (trimWriteDo h s).slots = s.slots ∧ (trimWriteDo h s).wt = s.wt ∧ (trimWriteDo h s).mem = s.mem ∧
    (trimWriteDo h s).fwMem = s.fwMem ∧ (trimWriteDo h s).ms = s.ms ∧ (trimWriteDo h s).pricks = s.pricks ∧
    (trimWriteDo h s).templates = s.templates ∧ (trimWriteDo h s).jobs = s.jobs ∧
    (trimWriteDo h s).order = s.order ∧ (trimWriteDo h s).pillows = s.pillows ∧
    (trimWriteDo h s).free = s.free := by
  have hF0 := @State.release_frame
  unfold trimWriteDo; simp [hF0]

theorem State.restoreTrim_frame (b : Bytes) (s : State) : (State.restoreTrim b s).now = s.now ∧
    (State.restoreTrim b s).pending = s.pending ∧ (State.restoreTrim b s).tb = s.tb ∧
    (State.restoreTrim b s).sheets = s.sheets ∧ (State.restoreTrim b s).units = s.units ∧
    (State.restoreTrim b s).errw = s.errw ∧ (State.restoreTrim b s).bulk = s.bulk ∧
    (State.restoreTrim b s).sec = s.sec ∧ (State.restoreTrim b s).therm = s.therm ∧
    (State.restoreTrim b s).streams = s.streams ∧ (State.restoreTrim b s).ptpPorts = s.ptpPorts ∧
    (State.restoreTrim b s).ptp = s.ptp ∧ (State.restoreTrim b s).chans = s.chans ∧
    (State.restoreTrim b s).seqs = s.seqs ∧ (State.restoreTrim b s).bundles = s.bundles ∧
    (State.restoreTrim b s).slots = s.slots ∧ (State.restoreTrim b s).wt = s.wt ∧
    (State.restoreTrim b s).fwMem = s.fwMem ∧ (State.restoreTrim b s).pricks = s.pricks ∧
    (State.restoreTrim b s).templates = s.templates ∧ (State.restoreTrim b s).order = s.order := by
  have hF0 := @State.modBobbin_frame
  unfold State.restoreTrim; simp [hF0]

@[simp] theorem State.restoreTrim_wf (b : Bytes) (s : State) (hm : Memory.wf s.mem = true) :
    Memory.wf (State.restoreTrim b s).mem = true := by
  have hF0 := @State.modBobbin_frame
  unfold State.restoreTrim; simp [hF0, hm]

theorem State.groupFail_frame (p : Nat) (b : Nat) (s : State) : (State.groupFail p b s).2.now = s.now ∧
    (State.groupFail p b s).2.pending = s.pending ∧ (State.groupFail p b s).2.tb = s.tb ∧
    (State.groupFail p b s).2.sheets = s.sheets ∧ (State.groupFail p b s).2.units = s.units ∧
    (State.groupFail p b s).2.errw = s.errw ∧ (State.groupFail p b s).2.bulk = s.bulk ∧
    (State.groupFail p b s).2.sec = s.sec ∧ (State.groupFail p b s).2.therm = s.therm ∧
    (State.groupFail p b s).2.streams = s.streams ∧ (State.groupFail p b s).2.ptpPorts = s.ptpPorts ∧
    (State.groupFail p b s).2.ptp = s.ptp ∧ (State.groupFail p b s).2.chans = s.chans ∧
    (State.groupFail p b s).2.seqs = s.seqs ∧ (State.groupFail p b s).2.hc = s.hc ∧
    (State.groupFail p b s).2.trim = s.trim ∧ (State.groupFail p b s).2.bundles = s.bundles ∧
    (State.groupFail p b s).2.slots = s.slots ∧ (State.groupFail p b s).2.wt = s.wt ∧
    (State.groupFail p b s).2.fwMem = s.fwMem ∧ (State.groupFail p b s).2.pricks = s.pricks ∧
    (State.groupFail p b s).2.templates = s.templates ∧ (State.groupFail p b s).2.order = s.order := by
  have hF0 := @State.bobbinFail_frame
  have hF1 := @State.failOut_frame
  have hF2 := @State.loseSpare_frame
  have hF3 := @State.setPillow_frame
  have hF4 := @State.setBobbin_frame
  unfold State.groupFail; simp [hF0, hF1, hF2, hF3, hF4]

@[simp] theorem State.groupFail_wf (p : Nat) (b : Nat) (s : State) (hm : Memory.wf s.mem = true) :
    Memory.wf (State.groupFail p b s).2.mem = true := by
  have hF0 := @State.loseSpare_frame
  have hF1 := @State.setPillow_frame
  have hF2 := @State.setBobbin_frame
  unfold State.groupFail; simp [hF0, hF1, hF2, hm]

theorem State.groupFails_frame (x0 : List Nat) (x1 : List Nat × State) :
    (State.groupFails x0 x1).2.now = x1.2.now ∧ (State.groupFails x0 x1).2.pending = x1.2.pending ∧
    (State.groupFails x0 x1).2.tb = x1.2.tb ∧ (State.groupFails x0 x1).2.sheets = x1.2.sheets ∧
    (State.groupFails x0 x1).2.units = x1.2.units ∧ (State.groupFails x0 x1).2.errw = x1.2.errw ∧
    (State.groupFails x0 x1).2.bulk = x1.2.bulk ∧ (State.groupFails x0 x1).2.sec = x1.2.sec ∧
    (State.groupFails x0 x1).2.therm = x1.2.therm ∧ (State.groupFails x0 x1).2.streams = x1.2.streams ∧
    (State.groupFails x0 x1).2.ptpPorts = x1.2.ptpPorts ∧ (State.groupFails x0 x1).2.ptp = x1.2.ptp ∧
    (State.groupFails x0 x1).2.chans = x1.2.chans ∧ (State.groupFails x0 x1).2.seqs = x1.2.seqs ∧
    (State.groupFails x0 x1).2.hc = x1.2.hc ∧ (State.groupFails x0 x1).2.trim = x1.2.trim ∧
    (State.groupFails x0 x1).2.bundles = x1.2.bundles ∧ (State.groupFails x0 x1).2.slots = x1.2.slots ∧
    (State.groupFails x0 x1).2.wt = x1.2.wt ∧ (State.groupFails x0 x1).2.fwMem = x1.2.fwMem ∧
    (State.groupFails x0 x1).2.pricks = x1.2.pricks ∧
    (State.groupFails x0 x1).2.templates = x1.2.templates ∧
    (State.groupFails x0 x1).2.order = x1.2.order := by
  have hF0 := @State.groupFail_frame
  induction x0 generalizing x1 <;> simp_all [State.groupFails]

@[simp] theorem State.groupFails_wf (x0 : List Nat) (x1 : List Nat × State) (hm : Memory.wf x1.2.mem = true) :
    Memory.wf (State.groupFails x0 x1).2.mem = true := by
  induction x0 generalizing x1 hm <;> simp_all [State.groupFails]

theorem State.sealBobbins_frame (e : Nat) (s : State) : (State.sealBobbins e s).now = s.now ∧
    (State.sealBobbins e s).pending = s.pending ∧ (State.sealBobbins e s).tb = s.tb ∧
    (State.sealBobbins e s).sheets = s.sheets ∧ (State.sealBobbins e s).units = s.units ∧
    (State.sealBobbins e s).pins = s.pins ∧ (State.sealBobbins e s).pk = s.pk ∧
    (State.sealBobbins e s).errw = s.errw ∧ (State.sealBobbins e s).bulk = s.bulk ∧
    (State.sealBobbins e s).mgmt = s.mgmt ∧ (State.sealBobbins e s).power = s.power ∧
    (State.sealBobbins e s).sec = s.sec ∧ (State.sealBobbins e s).therm = s.therm ∧
    (State.sealBobbins e s).ports = s.ports ∧ (State.sealBobbins e s).streams = s.streams ∧
    (State.sealBobbins e s).services = s.services ∧ (State.sealBobbins e s).ptpPorts = s.ptpPorts ∧
    (State.sealBobbins e s).ptp = s.ptp ∧ (State.sealBobbins e s).chans = s.chans ∧
    (State.sealBobbins e s).seqs = s.seqs ∧ (State.sealBobbins e s).hc = s.hc ∧
    (State.sealBobbins e s).bundles = s.bundles ∧ (State.sealBobbins e s).slots = s.slots ∧
    (State.sealBobbins e s).wt = s.wt ∧ (State.sealBobbins e s).mem = s.mem ∧
    (State.sealBobbins e s).fwMem = s.fwMem ∧ (State.sealBobbins e s).ms = s.ms ∧
    (State.sealBobbins e s).pricks = s.pricks ∧ (State.sealBobbins e s).templates = s.templates ∧
    (State.sealBobbins e s).jobs = s.jobs ∧ (State.sealBobbins e s).order = s.order ∧
    (State.sealBobbins e s).free = s.free := by
  have hF0 := @State.keepAll_frame
  have hF1 := @State.setBobbin_frame
  unfold State.sealBobbins; simp [hF0, hF1]

theorem State.sealEpoch_frame (s : State) : (State.sealEpoch s).now = s.now ∧
    (State.sealEpoch s).pending = s.pending ∧ (State.sealEpoch s).tb = s.tb ∧
    (State.sealEpoch s).sheets = s.sheets ∧ (State.sealEpoch s).units = s.units ∧
    (State.sealEpoch s).pins = s.pins ∧ (State.sealEpoch s).pk = s.pk ∧ (State.sealEpoch s).errw = s.errw ∧
    (State.sealEpoch s).bulk = s.bulk ∧ (State.sealEpoch s).mgmt = s.mgmt ∧
    (State.sealEpoch s).power = s.power ∧ (State.sealEpoch s).sec = s.sec ∧
    (State.sealEpoch s).therm = s.therm ∧ (State.sealEpoch s).ports = s.ports ∧
    (State.sealEpoch s).streams = s.streams ∧ (State.sealEpoch s).services = s.services ∧
    (State.sealEpoch s).ptpPorts = s.ptpPorts ∧ (State.sealEpoch s).ptp = s.ptp ∧
    (State.sealEpoch s).chans = s.chans ∧ (State.sealEpoch s).seqs = s.seqs ∧
    (State.sealEpoch s).hc = s.hc ∧ (State.sealEpoch s).bundles = s.bundles ∧
    (State.sealEpoch s).slots = s.slots ∧ (State.sealEpoch s).wt = s.wt ∧ (State.sealEpoch s).mem = s.mem ∧
    (State.sealEpoch s).fwMem = s.fwMem ∧ (State.sealEpoch s).ms = s.ms ∧
    (State.sealEpoch s).pricks = s.pricks ∧ (State.sealEpoch s).templates = s.templates ∧
    (State.sealEpoch s).jobs = s.jobs ∧ (State.sealEpoch s).order = s.order ∧
    (State.sealEpoch s).free = s.free := by
  have hF0 := @State.sealBobbins_frame
  have hF1 := @State.idleAdopt_frame
  unfold State.sealEpoch; simp [hF0, hF1]

theorem State.sealNow_frame (s : State) : (State.sealNow s).now = s.now ∧
    (State.sealNow s).pending = s.pending ∧ (State.sealNow s).tb = s.tb ∧
    (State.sealNow s).sheets = s.sheets ∧ (State.sealNow s).units = s.units ∧
    (State.sealNow s).errw = s.errw ∧ (State.sealNow s).bulk = s.bulk ∧ (State.sealNow s).sec = s.sec ∧
    (State.sealNow s).therm = s.therm ∧ (State.sealNow s).streams = s.streams ∧
    (State.sealNow s).ptpPorts = s.ptpPorts ∧ (State.sealNow s).ptp = s.ptp ∧
    (State.sealNow s).chans = s.chans ∧ (State.sealNow s).seqs = s.seqs ∧ (State.sealNow s).hc = s.hc ∧
    (State.sealNow s).bundles = s.bundles ∧ (State.sealNow s).slots = s.slots ∧
    (State.sealNow s).wt = s.wt ∧ (State.sealNow s).fwMem = s.fwMem ∧ (State.sealNow s).pricks = s.pricks ∧
    (State.sealNow s).templates = s.templates ∧ (State.sealNow s).order = s.order := by
  have hF0 := @State.settlePillows_frame
  have hF1 := @State.groupFails_frame
  have hF2 := @State.sealEpoch_frame
  unfold State.sealNow; simp [hF0, hF1, hF2]

@[simp] theorem State.sealNow_wf (s : State) (hm : Memory.wf s.mem = true) :
    Memory.wf (State.sealNow s).mem = true := by
  have hF0 := @State.sealEpoch_frame
  unfold State.sealNow; simp [hF0, hm]

/-! ## DmaEvents -/

theorem State.burstDone_frame (w : Work) (i : Nat) (x : DmaXfer) (n : Nat) (s : State) :
    (State.burstDone w i x n s).now = s.now ∧ (State.burstDone w i x n s).pending = s.pending ∧
    (State.burstDone w i x n s).tb = s.tb ∧ (State.burstDone w i x n s).sheets = s.sheets ∧
    (State.burstDone w i x n s).units = s.units ∧ (State.burstDone w i x n s).errw = s.errw ∧
    (State.burstDone w i x n s).bulk = s.bulk ∧ (State.burstDone w i x n s).sec = s.sec ∧
    (State.burstDone w i x n s).therm = s.therm ∧ (State.burstDone w i x n s).streams = s.streams ∧
    (State.burstDone w i x n s).ptpPorts = s.ptpPorts ∧ (State.burstDone w i x n s).ptp = s.ptp ∧
    (State.burstDone w i x n s).chans = s.chans ∧ (State.burstDone w i x n s).seqs = s.seqs ∧
    (State.burstDone w i x n s).hc = s.hc ∧ (State.burstDone w i x n s).trim = s.trim ∧
    (State.burstDone w i x n s).bundles = s.bundles ∧ (State.burstDone w i x n s).slots = s.slots ∧
    (State.burstDone w i x n s).wt = s.wt ∧ (State.burstDone w i x n s).fwMem = s.fwMem ∧
    (State.burstDone w i x n s).pricks = s.pricks ∧ (State.burstDone w i x n s).templates = s.templates ∧
    (State.burstDone w i x n s).order = s.order := by
  have hF0 := @State.settlePillows_frame
  have hF1 := @State.modRun_frame
  have hF2 := @State.xferNext_frame
  have hF3 := @State.boundary_frame
  unfold State.burstDone; simp [hF0, hF1, hF2, hF3]

@[simp] theorem State.burstDone_wf (w : Work) (i : Nat) (x : DmaXfer) (n : Nat) (s : State) (hm : Memory.wf s.mem = true) :
    Memory.wf (State.burstDone w i x n s).mem = true := by
  have hF0 := @State.modRun_frame
  have hF1 := @State.xferNext_frame
  unfold State.burstDone; simp [hF0, hF1, hm]

theorem State.burstFault_frame (w : Work) (i : Nat) (x : DmaXfer) (f : FaultRec) (s : State) :
    (State.burstFault w i x f s).now = s.now ∧ (State.burstFault w i x f s).pending = s.pending ∧
    (State.burstFault w i x f s).tb = s.tb ∧ (State.burstFault w i x f s).sheets = s.sheets ∧
    (State.burstFault w i x f s).units = s.units ∧ (State.burstFault w i x f s).errw = s.errw ∧
    (State.burstFault w i x f s).bulk = s.bulk ∧ (State.burstFault w i x f s).sec = s.sec ∧
    (State.burstFault w i x f s).therm = s.therm ∧ (State.burstFault w i x f s).streams = s.streams ∧
    (State.burstFault w i x f s).ptpPorts = s.ptpPorts ∧ (State.burstFault w i x f s).ptp = s.ptp ∧
    (State.burstFault w i x f s).chans = s.chans ∧ (State.burstFault w i x f s).seqs = s.seqs ∧
    (State.burstFault w i x f s).hc = s.hc ∧ (State.burstFault w i x f s).trim = s.trim ∧
    (State.burstFault w i x f s).bundles = s.bundles ∧ (State.burstFault w i x f s).slots = s.slots ∧
    (State.burstFault w i x f s).wt = s.wt ∧ (State.burstFault w i x f s).fwMem = s.fwMem ∧
    (State.burstFault w i x f s).pricks = s.pricks ∧ (State.burstFault w i x f s).templates = s.templates ∧
    (State.burstFault w i x f s).order = s.order := by
  have hF0 := @State.settlePillows_frame
  have hF1 := @State.unitFault_frame
  have hF2 := @State.modRun_frame
  unfold State.burstFault; simp [hF0, hF1, hF2]

@[simp] theorem State.burstFault_wf (w : Work) (i : Nat) (x : DmaXfer) (f : FaultRec) (s : State) (hm : Memory.wf s.mem = true) :
    Memory.wf (State.burstFault w i x f s).mem = true := by
  have hF0 := @State.unitFault_frame
  have hF1 := @State.modRun_frame
  unfold State.burstFault; simp [hF0, hF1, hm]

theorem State.setLen_frame (w : Work) (id : Nat) (v : Nat) (s : State) :
    (State.setLen w id v s).now = s.now ∧ (State.setLen w id v s).pending = s.pending ∧
    (State.setLen w id v s).tb = s.tb ∧ (State.setLen w id v s).sheets = s.sheets ∧
    (State.setLen w id v s).units = s.units ∧ (State.setLen w id v s).pins = s.pins ∧
    (State.setLen w id v s).pk = s.pk ∧ (State.setLen w id v s).queues = s.queues ∧
    (State.setLen w id v s).latches = s.latches ∧ (State.setLen w id v s).errw = s.errw ∧
    (State.setLen w id v s).sdio = s.sdio ∧ (State.setLen w id v s).bulk = s.bulk ∧
    (State.setLen w id v s).mgmt = s.mgmt ∧ (State.setLen w id v s).power = s.power ∧
    (State.setLen w id v s).sec = s.sec ∧ (State.setLen w id v s).therm = s.therm ∧
    (State.setLen w id v s).ports = s.ports ∧ (State.setLen w id v s).streams = s.streams ∧
    (State.setLen w id v s).services = s.services ∧ (State.setLen w id v s).ptpPorts = s.ptpPorts ∧
    (State.setLen w id v s).ptp = s.ptp ∧ (State.setLen w id v s).chans = s.chans ∧
    (State.setLen w id v s).seqs = s.seqs ∧ (State.setLen w id v s).hc = s.hc ∧
    (State.setLen w id v s).trim = s.trim ∧ (State.setLen w id v s).bundles = s.bundles ∧
    (State.setLen w id v s).slots = s.slots ∧ (State.setLen w id v s).wt = s.wt ∧
    (State.setLen w id v s).mem = s.mem ∧ (State.setLen w id v s).fwMem = s.fwMem ∧
    (State.setLen w id v s).ms = s.ms ∧ (State.setLen w id v s).pricks = s.pricks ∧
    (State.setLen w id v s).templates = s.templates ∧ (State.setLen w id v s).order = s.order ∧
    (State.setLen w id v s).free = s.free := by
  have hF0 := @State.modPillow_frame
  have hF1 := @State.modJob_frame
  unfold State.setLen; simp [hF0, hF1]

/-! ## Loader -/

theorem claimWindow_frame (holder : Nat) (pinned : Bool) (owner : Nat) (ws : List WinSpec) (s : State) (c : Nat × Nat) :
    (claimWindow holder pinned owner ws s c).now = s.now ∧
    (claimWindow holder pinned owner ws s c).pending = s.pending ∧
    (claimWindow holder pinned owner ws s c).tb = s.tb ∧
    (claimWindow holder pinned owner ws s c).sheets = s.sheets ∧
    (claimWindow holder pinned owner ws s c).units = s.units ∧
    (claimWindow holder pinned owner ws s c).pins = s.pins ∧
    (claimWindow holder pinned owner ws s c).pk = s.pk ∧
    (claimWindow holder pinned owner ws s c).queues = s.queues ∧
    (claimWindow holder pinned owner ws s c).latches = s.latches ∧
    (claimWindow holder pinned owner ws s c).errw = s.errw ∧
    (claimWindow holder pinned owner ws s c).sdio = s.sdio ∧
    (claimWindow holder pinned owner ws s c).bulk = s.bulk ∧
    (claimWindow holder pinned owner ws s c).mgmt = s.mgmt ∧
    (claimWindow holder pinned owner ws s c).power = s.power ∧
    (claimWindow holder pinned owner ws s c).sec = s.sec ∧
    (claimWindow holder pinned owner ws s c).therm = s.therm ∧
    (claimWindow holder pinned owner ws s c).ports = s.ports ∧
    (claimWindow holder pinned owner ws s c).streams = s.streams ∧
    (claimWindow holder pinned owner ws s c).services = s.services ∧
    (claimWindow holder pinned owner ws s c).ptpPorts = s.ptpPorts ∧
    (claimWindow holder pinned owner ws s c).ptp = s.ptp ∧
    (claimWindow holder pinned owner ws s c).chans = s.chans ∧
    (claimWindow holder pinned owner ws s c).seqs = s.seqs ∧
    (claimWindow holder pinned owner ws s c).hc = s.hc ∧
    (claimWindow holder pinned owner ws s c).trim = s.trim ∧
    (claimWindow holder pinned owner ws s c).bundles = s.bundles ∧
    (claimWindow holder pinned owner ws s c).slots = s.slots ∧
    (claimWindow holder pinned owner ws s c).wt = s.wt ∧
    (claimWindow holder pinned owner ws s c).mem = s.mem ∧
    (claimWindow holder pinned owner ws s c).fwMem = s.fwMem ∧
    (claimWindow holder pinned owner ws s c).ms = s.ms ∧
    (claimWindow holder pinned owner ws s c).pricks = s.pricks ∧
    (claimWindow holder pinned owner ws s c).templates = s.templates ∧
    (claimWindow holder pinned owner ws s c).jobs = s.jobs ∧
    (claimWindow holder pinned owner ws s c).order = s.order ∧
    (claimWindow holder pinned owner ws s c).free = s.free := by
  have hF0 := @State.modPillow_frame
  unfold claimWindow; simp [hF0]

theorem State.place_frame (p : Prick) (owner : Nat) (s : State) (q : Nat) :
    (State.place p owner s q).now = s.now ∧ (State.place p owner s q).pending = s.pending ∧
    (State.place p owner s q).tb = s.tb ∧ (State.place p owner s q).sheets = s.sheets ∧
    (State.place p owner s q).units = s.units ∧ (State.place p owner s q).pins = s.pins ∧
    (State.place p owner s q).pk = s.pk ∧ (State.place p owner s q).queues = s.queues ∧
    (State.place p owner s q).latches = s.latches ∧ (State.place p owner s q).errw = s.errw ∧
    (State.place p owner s q).sdio = s.sdio ∧ (State.place p owner s q).bulk = s.bulk ∧
    (State.place p owner s q).mgmt = s.mgmt ∧ (State.place p owner s q).power = s.power ∧
    (State.place p owner s q).sec = s.sec ∧ (State.place p owner s q).therm = s.therm ∧
    (State.place p owner s q).ports = s.ports ∧ (State.place p owner s q).streams = s.streams ∧
    (State.place p owner s q).services = s.services ∧ (State.place p owner s q).ptpPorts = s.ptpPorts ∧
    (State.place p owner s q).ptp = s.ptp ∧ (State.place p owner s q).chans = s.chans ∧
    (State.place p owner s q).seqs = s.seqs ∧ (State.place p owner s q).hc = s.hc ∧
    (State.place p owner s q).trim = s.trim ∧ (State.place p owner s q).bundles = s.bundles ∧
    (State.place p owner s q).slots = s.slots ∧ (State.place p owner s q).wt = s.wt ∧
    (State.place p owner s q).mem = s.mem ∧ (State.place p owner s q).fwMem = s.fwMem ∧
    (State.place p owner s q).ms = s.ms ∧ (State.place p owner s q).pricks = s.pricks ∧
    (State.place p owner s q).templates = s.templates ∧ (State.place p owner s q).jobs = s.jobs ∧
    (State.place p owner s q).order = s.order ∧ (State.place p owner s q).free = s.free := by
  have hF0 := @State.setPillow_frame
  unfold State.place; (repeat' split) <;> simp [hF0]

/-! ## Jobs -/

theorem State.setLooseBits_frame (s : State) : (State.setLooseBits s).now = s.now ∧
    (State.setLooseBits s).pending = s.pending ∧ (State.setLooseBits s).tb = s.tb ∧
    (State.setLooseBits s).sheets = s.sheets ∧ (State.setLooseBits s).units = s.units ∧
    (State.setLooseBits s).pins = s.pins ∧ (State.setLooseBits s).pk = s.pk ∧
    (State.setLooseBits s).queues = s.queues ∧ (State.setLooseBits s).latches = s.latches ∧
    (State.setLooseBits s).errw = s.errw ∧ (State.setLooseBits s).sdio = s.sdio ∧
    (State.setLooseBits s).bulk = s.bulk ∧ (State.setLooseBits s).mgmt = s.mgmt ∧
    (State.setLooseBits s).power = s.power ∧ (State.setLooseBits s).sec = s.sec ∧
    (State.setLooseBits s).therm = s.therm ∧ (State.setLooseBits s).ports = s.ports ∧
    (State.setLooseBits s).streams = s.streams ∧ (State.setLooseBits s).services = s.services ∧
    (State.setLooseBits s).ptpPorts = s.ptpPorts ∧ (State.setLooseBits s).ptp = s.ptp ∧
    (State.setLooseBits s).chans = s.chans ∧ (State.setLooseBits s).seqs = s.seqs ∧
    (State.setLooseBits s).hc = s.hc ∧ (State.setLooseBits s).trim = s.trim ∧
    (State.setLooseBits s).bundles = s.bundles ∧ (State.setLooseBits s).slots = s.slots ∧
    (State.setLooseBits s).wt = s.wt ∧ (State.setLooseBits s).mem = s.mem ∧
    (State.setLooseBits s).fwMem = s.fwMem ∧ (State.setLooseBits s).ms = s.ms ∧
    (State.setLooseBits s).pricks = s.pricks ∧ (State.setLooseBits s).templates = s.templates ∧
    (State.setLooseBits s).jobs = s.jobs ∧ (State.setLooseBits s).order = s.order ∧
    (State.setLooseBits s).free = s.free := by
  unfold State.setLooseBits; simp

theorem State.accept_frame (n : Nat) (s : State) : (State.accept n s).now = s.now ∧
    (State.accept n s).pending = s.pending ∧ (State.accept n s).tb = s.tb ∧
    (State.accept n s).sheets = s.sheets ∧ (State.accept n s).units = s.units ∧
    (State.accept n s).pins = s.pins ∧ (State.accept n s).pk = s.pk ∧
    (State.accept n s).latches = s.latches ∧ (State.accept n s).errw = s.errw ∧
    (State.accept n s).bulk = s.bulk ∧ (State.accept n s).power = s.power ∧ (State.accept n s).sec = s.sec ∧
    (State.accept n s).therm = s.therm ∧ (State.accept n s).ports = s.ports ∧
    (State.accept n s).streams = s.streams ∧ (State.accept n s).services = s.services ∧
    (State.accept n s).ptpPorts = s.ptpPorts ∧ (State.accept n s).ptp = s.ptp ∧
    (State.accept n s).chans = s.chans ∧ (State.accept n s).seqs = s.seqs ∧ (State.accept n s).hc = s.hc ∧
    (State.accept n s).trim = s.trim ∧ (State.accept n s).bundles = s.bundles ∧
    (State.accept n s).slots = s.slots ∧ (State.accept n s).wt = s.wt ∧ (State.accept n s).mem = s.mem ∧
    (State.accept n s).fwMem = s.fwMem ∧ (State.accept n s).ms = s.ms ∧
    (State.accept n s).pricks = s.pricks ∧ (State.accept n s).jobs = s.jobs ∧
    (State.accept n s).order = s.order ∧ (State.accept n s).pillows = s.pillows ∧
    (State.accept n s).free = s.free := by
  have hF0 := @State.done_frame
  have hF1 := @State.setTemplate_frame
  unfold State.accept; dsimp only; (repeat' split) <;> simp [hF0, hF1]

theorem State.stopLoose_frame (a : AdmitParams) (s : State) : (State.stopLoose a s).now = s.now ∧
    (State.stopLoose a s).pending = s.pending ∧ (State.stopLoose a s).tb = s.tb ∧
    (State.stopLoose a s).sheets = s.sheets ∧ (State.stopLoose a s).units = s.units ∧
    (State.stopLoose a s).errw = s.errw ∧ (State.stopLoose a s).bulk = s.bulk ∧
    (State.stopLoose a s).sec = s.sec ∧ (State.stopLoose a s).therm = s.therm ∧
    (State.stopLoose a s).streams = s.streams ∧ (State.stopLoose a s).ptpPorts = s.ptpPorts ∧
    (State.stopLoose a s).ptp = s.ptp ∧ (State.stopLoose a s).chans = s.chans ∧
    (State.stopLoose a s).seqs = s.seqs ∧ (State.stopLoose a s).hc = s.hc ∧
    (State.stopLoose a s).trim = s.trim ∧ (State.stopLoose a s).bundles = s.bundles ∧
    (State.stopLoose a s).slots = s.slots ∧ (State.stopLoose a s).wt = s.wt ∧
    (State.stopLoose a s).fwMem = s.fwMem ∧ (State.stopLoose a s).pricks = s.pricks ∧
    (State.stopLoose a s).templates = s.templates ∧ (State.stopLoose a s).order = s.order := by
  have hF0 := @State.settlePillows_frame
  unfold State.stopLoose; simp [hF0]

@[simp] theorem State.stopLoose_wf (a : AdmitParams) (s : State) (hm : Memory.wf s.mem = true) :
    Memory.wf (State.stopLoose a s).mem = true := by
  unfold State.stopLoose; simp [hm]

theorem State.admitDo_frame (h : Hdr) (a : AdmitParams) (s : State) : (State.admitDo h a s).now = s.now ∧
    (State.admitDo h a s).pending = s.pending ∧ (State.admitDo h a s).tb = s.tb ∧
    (State.admitDo h a s).sheets = s.sheets ∧ (State.admitDo h a s).units = s.units ∧
    (State.admitDo h a s).errw = s.errw ∧ (State.admitDo h a s).bulk = s.bulk ∧
    (State.admitDo h a s).sec = s.sec ∧ (State.admitDo h a s).therm = s.therm ∧
    (State.admitDo h a s).streams = s.streams ∧ (State.admitDo h a s).ptpPorts = s.ptpPorts ∧
    (State.admitDo h a s).ptp = s.ptp ∧ (State.admitDo h a s).chans = s.chans ∧
    (State.admitDo h a s).seqs = s.seqs ∧ (State.admitDo h a s).hc = s.hc ∧
    (State.admitDo h a s).trim = s.trim ∧ (State.admitDo h a s).bundles = s.bundles ∧
    (State.admitDo h a s).slots = s.slots ∧ (State.admitDo h a s).wt = s.wt ∧
    (State.admitDo h a s).fwMem = s.fwMem ∧ (State.admitDo h a s).pricks = s.pricks ∧
    (State.admitDo h a s).order = s.order := by
  have hF0 := @State.stopLoose_frame
  have hF1 := @State.setLooseBits_frame
  have hF2 := @State.release_frame
  have hF3 := @State.setTemplate_frame
  have hF4 := @State.modPillow_frame
  have hF5 := @State.place_frame
  have hF6 := @claimWindow_frame
  have hF7 := @State.accept_frame
  unfold State.admitDo; simp [hF0, hF1, hF2, hF3, hF4, hF5, hF6, hF7]

@[simp] theorem State.admitDo_wf (h : Hdr) (a : AdmitParams) (s : State) (hm : Memory.wf s.mem = true) :
    Memory.wf (State.admitDo h a s).mem = true := by
  have hF0 := @State.accept_frame
  have hF1 := @State.setLooseBits_frame
  have hF2 := @State.release_frame
  have hF3 := @State.setTemplate_frame
  have hF4 := @State.modPillow_frame
  have hF5 := @State.place_frame
  have hF6 := @claimWindow_frame
  unfold State.admitDo; simp [hF0, hF1, hF2, hF3, hF4, hF5, hF6, hm]

theorem State.startLoose_frame (c : Nat) (s : State) : (State.startLoose c s).now = s.now ∧
    (State.startLoose c s).pending = s.pending ∧ (State.startLoose c s).tb = s.tb ∧
    (State.startLoose c s).sheets = s.sheets ∧ (State.startLoose c s).units = s.units ∧
    (State.startLoose c s).errw = s.errw ∧ (State.startLoose c s).bulk = s.bulk ∧
    (State.startLoose c s).sec = s.sec ∧ (State.startLoose c s).therm = s.therm ∧
    (State.startLoose c s).streams = s.streams ∧ (State.startLoose c s).ptpPorts = s.ptpPorts ∧
    (State.startLoose c s).ptp = s.ptp ∧ (State.startLoose c s).chans = s.chans ∧
    (State.startLoose c s).seqs = s.seqs ∧ (State.startLoose c s).hc = s.hc ∧
    (State.startLoose c s).trim = s.trim ∧ (State.startLoose c s).bundles = s.bundles ∧
    (State.startLoose c s).slots = s.slots ∧ (State.startLoose c s).wt = s.wt ∧
    (State.startLoose c s).fwMem = s.fwMem ∧ (State.startLoose c s).pricks = s.pricks ∧
    (State.startLoose c s).templates = s.templates ∧ (State.startLoose c s).order = s.order := by
  have hF0 := @State.settlePillows_frame
  have hF1 := @State.makeReady_frame
  have hF2 := @State.setJob_frame
  unfold State.startLoose; dsimp only; (repeat' split) <;> simp [hF0, hF1, hF2]

@[simp] theorem State.startLoose_wf (c : Nat) (s : State) (hm : Memory.wf s.mem = true) :
    Memory.wf (State.startLoose c s).mem = true := by
  have hF0 := @State.makeReady_frame
  have hF1 := @State.setJob_frame
  unfold State.startLoose; dsimp only; (repeat' split) <;> simp [hF0, hF1, hm]

theorem State.submitDo_frame (h : Hdr) (op : Nat) (x : SubmitParams) (cap : Nat) (mode : Nat) (seed : BitVec 32) (s : State) :
    (State.submitDo h op x cap mode seed s).now = s.now ∧
    (State.submitDo h op x cap mode seed s).pending = s.pending ∧
    (State.submitDo h op x cap mode seed s).tb = s.tb ∧
    (State.submitDo h op x cap mode seed s).sheets = s.sheets ∧
    (State.submitDo h op x cap mode seed s).units = s.units ∧
    (State.submitDo h op x cap mode seed s).errw = s.errw ∧
    (State.submitDo h op x cap mode seed s).bulk = s.bulk ∧
    (State.submitDo h op x cap mode seed s).sec = s.sec ∧
    (State.submitDo h op x cap mode seed s).therm = s.therm ∧
    (State.submitDo h op x cap mode seed s).streams = s.streams ∧
    (State.submitDo h op x cap mode seed s).ptpPorts = s.ptpPorts ∧
    (State.submitDo h op x cap mode seed s).ptp = s.ptp ∧
    (State.submitDo h op x cap mode seed s).chans = s.chans ∧
    (State.submitDo h op x cap mode seed s).seqs = s.seqs ∧
    (State.submitDo h op x cap mode seed s).hc = s.hc ∧
    (State.submitDo h op x cap mode seed s).trim = s.trim ∧
    (State.submitDo h op x cap mode seed s).bundles = s.bundles ∧
    (State.submitDo h op x cap mode seed s).slots = s.slots ∧
    (State.submitDo h op x cap mode seed s).wt = s.wt ∧
    (State.submitDo h op x cap mode seed s).fwMem = s.fwMem ∧
    (State.submitDo h op x cap mode seed s).pricks = s.pricks ∧
    (State.submitDo h op x cap mode seed s).templates = s.templates := by
  have hF0 := @State.place_frame
  have hF1 := @claimWindow_frame
  have hF2 := @State.draw_frame
  have hF3 := @State.done_frame
  have hF4 := @State.startLoose_frame
  have hF5 := @State.unpoison_frame
  have hF6 := @State.setJob_frame
  unfold State.submitDo; dsimp only; (repeat' split) <;> simp [hF0, hF1, hF2, hF3, hF4, hF5, hF6]

@[simp] theorem State.submitDo_wf (h : Hdr) (op : Nat) (x : SubmitParams) (cap : Nat) (mode : Nat) (seed : BitVec 32) (s : State) (hm : Memory.wf s.mem = true) :
    Memory.wf (State.submitDo h op x cap mode seed s).mem = true := by
  have hF0 := @State.place_frame
  have hF1 := @claimWindow_frame
  have hF2 := @State.draw_frame
  have hF3 := @State.done_frame
  have hF4 := @State.unpoison_frame
  have hF5 := @State.setJob_frame
  unfold State.submitDo; dsimp only; (repeat' split) <;> simp [hF0, hF1, hF2, hF3, hF4, hF5, hm]

theorem State.abortLooseDo_frame (h : Hdr) (c : Nat) (s : State) : (State.abortLooseDo h c s).now = s.now ∧
    (State.abortLooseDo h c s).pending = s.pending ∧ (State.abortLooseDo h c s).tb = s.tb ∧
    (State.abortLooseDo h c s).sheets = s.sheets ∧ (State.abortLooseDo h c s).units = s.units ∧
    (State.abortLooseDo h c s).errw = s.errw ∧ (State.abortLooseDo h c s).bulk = s.bulk ∧
    (State.abortLooseDo h c s).sec = s.sec ∧ (State.abortLooseDo h c s).therm = s.therm ∧
    (State.abortLooseDo h c s).streams = s.streams ∧ (State.abortLooseDo h c s).ptpPorts = s.ptpPorts ∧
    (State.abortLooseDo h c s).ptp = s.ptp ∧ (State.abortLooseDo h c s).chans = s.chans ∧
    (State.abortLooseDo h c s).seqs = s.seqs ∧ (State.abortLooseDo h c s).hc = s.hc ∧
    (State.abortLooseDo h c s).trim = s.trim ∧ (State.abortLooseDo h c s).bundles = s.bundles ∧
    (State.abortLooseDo h c s).slots = s.slots ∧ (State.abortLooseDo h c s).wt = s.wt ∧
    (State.abortLooseDo h c s).fwMem = s.fwMem ∧ (State.abortLooseDo h c s).pricks = s.pricks ∧
    (State.abortLooseDo h c s).templates = s.templates ∧ (State.abortLooseDo h c s).order = s.order := by
  have hF0 := @State.release_frame
  have hF1 := @State.modJob_frame
  have hF2 := @State.abortAsked_frame
  have hF3 := @State.boundary_frame
  have hF4 := @State.done_frame
  have hF5 := @State.settlePillows_frame
  have hF6 := @State.abortJob_frame
  unfold State.abortLooseDo; dsimp only; (repeat' split) <;> simp (disch := (intros; (repeat' split) <;> simp [hF0, hF1, hF2, hF3, hF4, hF5, hF6])) [hF0, hF1, hF2, hF4, hF5, hF6]

@[simp] theorem State.abortLooseDo_wf (h : Hdr) (c : Nat) (s : State) (hm : Memory.wf s.mem = true) :
    Memory.wf (State.abortLooseDo h c s).mem = true := by
  have hF0 := @State.modJob_frame
  have hF1 := @State.release_frame
  have hF2 := @State.done_frame
  have hF3 := @State.abortJob_frame
  have hF4 := @State.abortAsked_frame
  unfold State.abortLooseDo; dsimp only; (repeat' split) <;> simp [hF0, hF1, hF2, hF3, hF4, hm]

theorem State.dropTemplate_frame (n : Nat) (t : Template) (s : State) :
    (State.dropTemplate n t s).now = s.now ∧ (State.dropTemplate n t s).pending = s.pending ∧
    (State.dropTemplate n t s).tb = s.tb ∧ (State.dropTemplate n t s).sheets = s.sheets ∧
    (State.dropTemplate n t s).units = s.units ∧ (State.dropTemplate n t s).errw = s.errw ∧
    (State.dropTemplate n t s).bulk = s.bulk ∧ (State.dropTemplate n t s).sec = s.sec ∧
    (State.dropTemplate n t s).therm = s.therm ∧ (State.dropTemplate n t s).streams = s.streams ∧
    (State.dropTemplate n t s).ptpPorts = s.ptpPorts ∧ (State.dropTemplate n t s).ptp = s.ptp ∧
    (State.dropTemplate n t s).chans = s.chans ∧ (State.dropTemplate n t s).seqs = s.seqs ∧
    (State.dropTemplate n t s).hc = s.hc ∧ (State.dropTemplate n t s).trim = s.trim ∧
    (State.dropTemplate n t s).bundles = s.bundles ∧ (State.dropTemplate n t s).slots = s.slots ∧
    (State.dropTemplate n t s).wt = s.wt ∧ (State.dropTemplate n t s).fwMem = s.fwMem ∧
    (State.dropTemplate n t s).pricks = s.pricks ∧ (State.dropTemplate n t s).order = s.order := by
  have hF0 := @State.freeOwner_frame
  have hF1 := @State.setTemplate_frame
  have hF2 := @State.settlePillows_frame
  have hF3 := @State.done_frame
  have hF4 := @State.setLooseBits_frame
  unfold State.dropTemplate; dsimp only; (repeat' split) <;> simp [hF0, hF1, hF2, hF3, hF4]

@[simp] theorem State.dropTemplate_wf (n : Nat) (t : Template) (s : State) (hm : Memory.wf s.mem = true) :
    Memory.wf (State.dropTemplate n t s).mem = true := by
  have hF0 := @State.freeOwner_frame
  have hF1 := @State.setTemplate_frame
  have hF2 := @State.done_frame
  have hF3 := @State.setLooseBits_frame
  unfold State.dropTemplate; dsimp only; (repeat' split) <;> simp [hF0, hF1, hF2, hF3, hm]

theorem State.qcCommit_frame (p : Nat) (s : State) : (State.qcCommit p s).now = s.now ∧
    (State.qcCommit p s).pending = s.pending ∧ (State.qcCommit p s).tb = s.tb ∧
    (State.qcCommit p s).sheets = s.sheets ∧ (State.qcCommit p s).units = s.units ∧
    (State.qcCommit p s).pins = s.pins ∧ (State.qcCommit p s).pk = s.pk ∧
    (State.qcCommit p s).queues = s.queues ∧ (State.qcCommit p s).latches = s.latches ∧
    (State.qcCommit p s).errw = s.errw ∧ (State.qcCommit p s).sdio = s.sdio ∧
    (State.qcCommit p s).bulk = s.bulk ∧ (State.qcCommit p s).mgmt = s.mgmt ∧
    (State.qcCommit p s).power = s.power ∧ (State.qcCommit p s).sec = s.sec ∧
    (State.qcCommit p s).therm = s.therm ∧ (State.qcCommit p s).ports = s.ports ∧
    (State.qcCommit p s).streams = s.streams ∧ (State.qcCommit p s).services = s.services ∧
    (State.qcCommit p s).ptpPorts = s.ptpPorts ∧ (State.qcCommit p s).ptp = s.ptp ∧
    (State.qcCommit p s).chans = s.chans ∧ (State.qcCommit p s).seqs = s.seqs ∧
    (State.qcCommit p s).hc = s.hc ∧ (State.qcCommit p s).trim = s.trim ∧
    (State.qcCommit p s).bundles = s.bundles ∧ (State.qcCommit p s).slots = s.slots ∧
    (State.qcCommit p s).wt = s.wt ∧ (State.qcCommit p s).mem = s.mem ∧
    (State.qcCommit p s).fwMem = s.fwMem ∧ (State.qcCommit p s).ms = s.ms ∧
    (State.qcCommit p s).pricks = s.pricks ∧ (State.qcCommit p s).templates = s.templates ∧
    (State.qcCommit p s).jobs = s.jobs ∧ (State.qcCommit p s).order = s.order ∧
    (State.qcCommit p s).free = s.free := by
  have hF0 := @State.setPillow_frame
  have hF1 := @State.idleAdopt_frame
  unfold State.qcCommit; simp [hF0, hF1]

/-! ## PicotPort -/

theorem State.pulse_frame (p : Nat) (s : State) : (State.pulse p s).now = s.now ∧
    (State.pulse p s).pending = s.pending ∧ (State.pulse p s).tb = s.tb ∧
    (State.pulse p s).sheets = s.sheets ∧ (State.pulse p s).units = s.units ∧ (State.pulse p s).pk = s.pk ∧
    (State.pulse p s).queues = s.queues ∧ (State.pulse p s).latches = s.latches ∧
    (State.pulse p s).errw = s.errw ∧ (State.pulse p s).sdio = s.sdio ∧ (State.pulse p s).bulk = s.bulk ∧
    (State.pulse p s).mgmt = s.mgmt ∧ (State.pulse p s).power = s.power ∧ (State.pulse p s).sec = s.sec ∧
    (State.pulse p s).therm = s.therm ∧ (State.pulse p s).ports = s.ports ∧
    (State.pulse p s).streams = s.streams ∧ (State.pulse p s).services = s.services ∧
    (State.pulse p s).ptpPorts = s.ptpPorts ∧ (State.pulse p s).ptp = s.ptp ∧
    (State.pulse p s).chans = s.chans ∧ (State.pulse p s).hc = s.hc ∧ (State.pulse p s).trim = s.trim ∧
    (State.pulse p s).bundles = s.bundles ∧ (State.pulse p s).slots = s.slots ∧
    (State.pulse p s).wt = s.wt ∧ (State.pulse p s).mem = s.mem ∧ (State.pulse p s).fwMem = s.fwMem ∧
    (State.pulse p s).ms = s.ms ∧ (State.pulse p s).pricks = s.pricks ∧
    (State.pulse p s).templates = s.templates ∧ (State.pulse p s).jobs = s.jobs ∧
    (State.pulse p s).order = s.order ∧ (State.pulse p s).pillows = s.pillows ∧
    (State.pulse p s).free = s.free := by
  have hF0 := @State.setPin_frame
  have hF1 := @State.hcEdge_frame
  unfold State.pulse; simp [hF0, hF1]

theorem State.claimUnit_frame (n : Nat) (holder : Nat) (action : Nat) (arg : Nat) (period : Nat) (target : Nat) (s : State) :
    (State.claimUnit n holder action arg period target s).now = s.now ∧
    (State.claimUnit n holder action arg period target s).pending = s.pending ∧
    (State.claimUnit n holder action arg period target s).tb = s.tb ∧
    (State.claimUnit n holder action arg period target s).sheets = s.sheets ∧
    (State.claimUnit n holder action arg period target s).pins = s.pins ∧
    (State.claimUnit n holder action arg period target s).pk = s.pk ∧
    (State.claimUnit n holder action arg period target s).queues = s.queues ∧
    (State.claimUnit n holder action arg period target s).latches = s.latches ∧
    (State.claimUnit n holder action arg period target s).errw = s.errw ∧
    (State.claimUnit n holder action arg period target s).sdio = s.sdio ∧
    (State.claimUnit n holder action arg period target s).bulk = s.bulk ∧
    (State.claimUnit n holder action arg period target s).mgmt = s.mgmt ∧
    (State.claimUnit n holder action arg period target s).power = s.power ∧
    (State.claimUnit n holder action arg period target s).sec = s.sec ∧
    (State.claimUnit n holder action arg period target s).therm = s.therm ∧
    (State.claimUnit n holder action arg period target s).ports = s.ports ∧
    (State.claimUnit n holder action arg period target s).streams = s.streams ∧
    (State.claimUnit n holder action arg period target s).services = s.services ∧
    (State.claimUnit n holder action arg period target s).ptpPorts = s.ptpPorts ∧
    (State.claimUnit n holder action arg period target s).ptp = s.ptp ∧
    (State.claimUnit n holder action arg period target s).chans = s.chans ∧
    (State.claimUnit n holder action arg period target s).seqs = s.seqs ∧
    (State.claimUnit n holder action arg period target s).hc = s.hc ∧
    (State.claimUnit n holder action arg period target s).trim = s.trim ∧
    (State.claimUnit n holder action arg period target s).bundles = s.bundles ∧
    (State.claimUnit n holder action arg period target s).slots = s.slots ∧
    (State.claimUnit n holder action arg period target s).wt = s.wt ∧
    (State.claimUnit n holder action arg period target s).mem = s.mem ∧
    (State.claimUnit n holder action arg period target s).fwMem = s.fwMem ∧
    (State.claimUnit n holder action arg period target s).ms = s.ms ∧
    (State.claimUnit n holder action arg period target s).pricks = s.pricks ∧
    (State.claimUnit n holder action arg period target s).templates = s.templates ∧
    (State.claimUnit n holder action arg period target s).jobs = s.jobs ∧
    (State.claimUnit n holder action arg period target s).order = s.order ∧
    (State.claimUnit n holder action arg period target s).pillows = s.pillows ∧
    (State.claimUnit n holder action arg period target s).free = s.free := by
  have hF0 := @State.setUnit_frame
  unfold State.claimUnit; simp [hF0]

theorem State.dropStrobe_frame (p : Nat) (s : State) : (State.dropStrobe p s).now = s.now ∧
    (State.dropStrobe p s).pending = s.pending ∧ (State.dropStrobe p s).tb = s.tb ∧
    (State.dropStrobe p s).sheets = s.sheets ∧ (State.dropStrobe p s).units = s.units ∧
    (State.dropStrobe p s).pk = s.pk ∧ (State.dropStrobe p s).queues = s.queues ∧
    (State.dropStrobe p s).latches = s.latches ∧ (State.dropStrobe p s).errw = s.errw ∧
    (State.dropStrobe p s).sdio = s.sdio ∧ (State.dropStrobe p s).bulk = s.bulk ∧
    (State.dropStrobe p s).mgmt = s.mgmt ∧ (State.dropStrobe p s).power = s.power ∧
    (State.dropStrobe p s).sec = s.sec ∧ (State.dropStrobe p s).therm = s.therm ∧
    (State.dropStrobe p s).ports = s.ports ∧ (State.dropStrobe p s).streams = s.streams ∧
    (State.dropStrobe p s).services = s.services ∧ (State.dropStrobe p s).ptpPorts = s.ptpPorts ∧
    (State.dropStrobe p s).ptp = s.ptp ∧ (State.dropStrobe p s).chans = s.chans ∧
    (State.dropStrobe p s).hc = s.hc ∧ (State.dropStrobe p s).trim = s.trim ∧
    (State.dropStrobe p s).bundles = s.bundles ∧ (State.dropStrobe p s).slots = s.slots ∧
    (State.dropStrobe p s).wt = s.wt ∧ (State.dropStrobe p s).mem = s.mem ∧
    (State.dropStrobe p s).fwMem = s.fwMem ∧ (State.dropStrobe p s).ms = s.ms ∧
    (State.dropStrobe p s).pricks = s.pricks ∧ (State.dropStrobe p s).templates = s.templates ∧
    (State.dropStrobe p s).jobs = s.jobs ∧ (State.dropStrobe p s).order = s.order ∧
    (State.dropStrobe p s).pillows = s.pillows ∧ (State.dropStrobe p s).free = s.free := by
  have hF0 := @State.setPin_frame
  unfold State.dropStrobe; simp [hF0]

theorem State.releaseUnit_frame (n : Nat) (s : State) : (State.releaseUnit n s).now = s.now ∧
    (State.releaseUnit n s).pending = s.pending ∧ (State.releaseUnit n s).tb = s.tb ∧
    (State.releaseUnit n s).sheets = s.sheets ∧ (State.releaseUnit n s).pk = s.pk ∧
    (State.releaseUnit n s).queues = s.queues ∧ (State.releaseUnit n s).latches = s.latches ∧
    (State.releaseUnit n s).errw = s.errw ∧ (State.releaseUnit n s).sdio = s.sdio ∧
    (State.releaseUnit n s).bulk = s.bulk ∧ (State.releaseUnit n s).mgmt = s.mgmt ∧
    (State.releaseUnit n s).power = s.power ∧ (State.releaseUnit n s).sec = s.sec ∧
    (State.releaseUnit n s).therm = s.therm ∧ (State.releaseUnit n s).ports = s.ports ∧
    (State.releaseUnit n s).streams = s.streams ∧ (State.releaseUnit n s).services = s.services ∧
    (State.releaseUnit n s).ptpPorts = s.ptpPorts ∧ (State.releaseUnit n s).ptp = s.ptp ∧
    (State.releaseUnit n s).chans = s.chans ∧ (State.releaseUnit n s).hc = s.hc ∧
    (State.releaseUnit n s).trim = s.trim ∧ (State.releaseUnit n s).bundles = s.bundles ∧
    (State.releaseUnit n s).slots = s.slots ∧ (State.releaseUnit n s).wt = s.wt ∧
    (State.releaseUnit n s).mem = s.mem ∧ (State.releaseUnit n s).fwMem = s.fwMem ∧
    (State.releaseUnit n s).ms = s.ms ∧ (State.releaseUnit n s).pricks = s.pricks ∧
    (State.releaseUnit n s).templates = s.templates ∧ (State.releaseUnit n s).jobs = s.jobs ∧
    (State.releaseUnit n s).order = s.order ∧ (State.releaseUnit n s).pillows = s.pillows ∧
    (State.releaseUnit n s).free = s.free := by
  have hF0 := @State.dropStrobe_frame
  have hF1 := @State.setUnit_frame
  unfold State.releaseUnit; simp [hF0, hF1]

theorem State.pkBegin_frame (f : Nat) (deferred : Bool) (s : State) :
    (State.pkBegin f deferred s).now = s.now ∧ (State.pkBegin f deferred s).pending = s.pending ∧
    (State.pkBegin f deferred s).tb = s.tb ∧ (State.pkBegin f deferred s).sheets = s.sheets ∧
    (State.pkBegin f deferred s).units = s.units ∧ (State.pkBegin f deferred s).pins = s.pins ∧
    (State.pkBegin f deferred s).queues = s.queues ∧ (State.pkBegin f deferred s).latches = s.latches ∧
    (State.pkBegin f deferred s).errw = s.errw ∧ (State.pkBegin f deferred s).sdio = s.sdio ∧
    (State.pkBegin f deferred s).bulk = s.bulk ∧ (State.pkBegin f deferred s).mgmt = s.mgmt ∧
    (State.pkBegin f deferred s).power = s.power ∧ (State.pkBegin f deferred s).sec = s.sec ∧
    (State.pkBegin f deferred s).therm = s.therm ∧ (State.pkBegin f deferred s).ports = s.ports ∧
    (State.pkBegin f deferred s).streams = s.streams ∧ (State.pkBegin f deferred s).services = s.services ∧
    (State.pkBegin f deferred s).ptpPorts = s.ptpPorts ∧ (State.pkBegin f deferred s).ptp = s.ptp ∧
    (State.pkBegin f deferred s).chans = s.chans ∧ (State.pkBegin f deferred s).seqs = s.seqs ∧
    (State.pkBegin f deferred s).hc = s.hc ∧ (State.pkBegin f deferred s).trim = s.trim ∧
    (State.pkBegin f deferred s).bundles = s.bundles ∧ (State.pkBegin f deferred s).slots = s.slots ∧
    (State.pkBegin f deferred s).wt = s.wt ∧ (State.pkBegin f deferred s).mem = s.mem ∧
    (State.pkBegin f deferred s).fwMem = s.fwMem ∧ (State.pkBegin f deferred s).ms = s.ms ∧
    (State.pkBegin f deferred s).pricks = s.pricks ∧ (State.pkBegin f deferred s).templates = s.templates ∧
    (State.pkBegin f deferred s).jobs = s.jobs ∧ (State.pkBegin f deferred s).order = s.order ∧
    (State.pkBegin f deferred s).pillows = s.pillows ∧ (State.pkBegin f deferred s).free = s.free := by
  unfold State.pkBegin; simp

theorem State.pkStop_frame (s : State) : (State.pkStop s).now = s.now ∧
    (State.pkStop s).pending = s.pending ∧ (State.pkStop s).tb = s.tb ∧ (State.pkStop s).sheets = s.sheets ∧
    (State.pkStop s).queues = s.queues ∧ (State.pkStop s).latches = s.latches ∧
    (State.pkStop s).errw = s.errw ∧ (State.pkStop s).sdio = s.sdio ∧ (State.pkStop s).bulk = s.bulk ∧
    (State.pkStop s).mgmt = s.mgmt ∧ (State.pkStop s).power = s.power ∧ (State.pkStop s).sec = s.sec ∧
    (State.pkStop s).therm = s.therm ∧ (State.pkStop s).ports = s.ports ∧
    (State.pkStop s).streams = s.streams ∧ (State.pkStop s).services = s.services ∧
    (State.pkStop s).ptpPorts = s.ptpPorts ∧ (State.pkStop s).ptp = s.ptp ∧
    (State.pkStop s).chans = s.chans ∧ (State.pkStop s).hc = s.hc ∧ (State.pkStop s).trim = s.trim ∧
    (State.pkStop s).bundles = s.bundles ∧ (State.pkStop s).slots = s.slots ∧ (State.pkStop s).wt = s.wt ∧
    (State.pkStop s).mem = s.mem ∧ (State.pkStop s).fwMem = s.fwMem ∧ (State.pkStop s).ms = s.ms ∧
    (State.pkStop s).pricks = s.pricks ∧ (State.pkStop s).templates = s.templates ∧
    (State.pkStop s).jobs = s.jobs ∧ (State.pkStop s).order = s.order ∧
    (State.pkStop s).pillows = s.pillows ∧ (State.pkStop s).free = s.free := by
  have hF0 := @State.releaseUnit_frame
  unfold State.pkStop; simp [hF0]

theorem State.pkFrameEnd_frame (s : State) : (State.pkFrameEnd s).now = s.now ∧
    (State.pkFrameEnd s).pending = s.pending ∧ (State.pkFrameEnd s).tb = s.tb ∧
    (State.pkFrameEnd s).sheets = s.sheets ∧ (State.pkFrameEnd s).queues = s.queues ∧
    (State.pkFrameEnd s).latches = s.latches ∧ (State.pkFrameEnd s).errw = s.errw ∧
    (State.pkFrameEnd s).sdio = s.sdio ∧ (State.pkFrameEnd s).bulk = s.bulk ∧
    (State.pkFrameEnd s).mgmt = s.mgmt ∧ (State.pkFrameEnd s).power = s.power ∧
    (State.pkFrameEnd s).sec = s.sec ∧ (State.pkFrameEnd s).therm = s.therm ∧
    (State.pkFrameEnd s).ports = s.ports ∧ (State.pkFrameEnd s).streams = s.streams ∧
    (State.pkFrameEnd s).services = s.services ∧ (State.pkFrameEnd s).ptpPorts = s.ptpPorts ∧
    (State.pkFrameEnd s).ptp = s.ptp ∧ (State.pkFrameEnd s).chans = s.chans ∧
    (State.pkFrameEnd s).hc = s.hc ∧ (State.pkFrameEnd s).trim = s.trim ∧
    (State.pkFrameEnd s).bundles = s.bundles ∧ (State.pkFrameEnd s).slots = s.slots ∧
    (State.pkFrameEnd s).wt = s.wt ∧ (State.pkFrameEnd s).mem = s.mem ∧
    (State.pkFrameEnd s).fwMem = s.fwMem ∧ (State.pkFrameEnd s).ms = s.ms ∧
    (State.pkFrameEnd s).pricks = s.pricks ∧ (State.pkFrameEnd s).templates = s.templates ∧
    (State.pkFrameEnd s).jobs = s.jobs ∧ (State.pkFrameEnd s).order = s.order ∧
    (State.pkFrameEnd s).pillows = s.pillows ∧ (State.pkFrameEnd s).free = s.free := by
  have hF0 := @State.pkBegin_frame
  have hF1 := @State.pkStop_frame
  unfold State.pkFrameEnd; dsimp only; (repeat' split) <;> simp [hF0, hF1]

theorem State.pkFire_frame (f : Nat) (s : State) : (State.pkFire f s).now = s.now ∧
    (State.pkFire f s).pending = s.pending ∧ (State.pkFire f s).tb = s.tb ∧
    (State.pkFire f s).sheets = s.sheets ∧ (State.pkFire f s).queues = s.queues ∧
    (State.pkFire f s).latches = s.latches ∧ (State.pkFire f s).errw = s.errw ∧
    (State.pkFire f s).sdio = s.sdio ∧ (State.pkFire f s).bulk = s.bulk ∧ (State.pkFire f s).mgmt = s.mgmt ∧
    (State.pkFire f s).power = s.power ∧ (State.pkFire f s).sec = s.sec ∧
    (State.pkFire f s).therm = s.therm ∧ (State.pkFire f s).ports = s.ports ∧
    (State.pkFire f s).streams = s.streams ∧ (State.pkFire f s).services = s.services ∧
    (State.pkFire f s).ptpPorts = s.ptpPorts ∧ (State.pkFire f s).ptp = s.ptp ∧
    (State.pkFire f s).chans = s.chans ∧ (State.pkFire f s).hc = s.hc ∧ (State.pkFire f s).trim = s.trim ∧
    (State.pkFire f s).bundles = s.bundles ∧ (State.pkFire f s).slots = s.slots ∧
    (State.pkFire f s).wt = s.wt ∧ (State.pkFire f s).mem = s.mem ∧ (State.pkFire f s).fwMem = s.fwMem ∧
    (State.pkFire f s).ms = s.ms ∧ (State.pkFire f s).pricks = s.pricks ∧
    (State.pkFire f s).templates = s.templates ∧ (State.pkFire f s).jobs = s.jobs ∧
    (State.pkFire f s).order = s.order ∧ (State.pkFire f s).pillows = s.pillows ∧
    (State.pkFire f s).free = s.free := by
  have hF0 := @State.pkBegin_frame
  have hF1 := @State.pkFrameEnd_frame
  unfold State.pkFire; dsimp only; (repeat' split) <;> simp [hF0, hF1]

theorem State.pkStall_frame (s : State) : (State.pkStall s).now = s.now ∧
    (State.pkStall s).pending = s.pending ∧ (State.pkStall s).tb = s.tb ∧
    (State.pkStall s).sheets = s.sheets ∧ (State.pkStall s).units = s.units ∧
    (State.pkStall s).pins = s.pins ∧ (State.pkStall s).queues = s.queues ∧
    (State.pkStall s).latches = s.latches ∧ (State.pkStall s).errw = s.errw ∧
    (State.pkStall s).sdio = s.sdio ∧ (State.pkStall s).bulk = s.bulk ∧ (State.pkStall s).mgmt = s.mgmt ∧
    (State.pkStall s).power = s.power ∧ (State.pkStall s).sec = s.sec ∧ (State.pkStall s).therm = s.therm ∧
    (State.pkStall s).ports = s.ports ∧ (State.pkStall s).streams = s.streams ∧
    (State.pkStall s).services = s.services ∧ (State.pkStall s).ptpPorts = s.ptpPorts ∧
    (State.pkStall s).ptp = s.ptp ∧ (State.pkStall s).chans = s.chans ∧ (State.pkStall s).seqs = s.seqs ∧
    (State.pkStall s).hc = s.hc ∧ (State.pkStall s).trim = s.trim ∧ (State.pkStall s).bundles = s.bundles ∧
    (State.pkStall s).slots = s.slots ∧ (State.pkStall s).wt = s.wt ∧ (State.pkStall s).mem = s.mem ∧
    (State.pkStall s).fwMem = s.fwMem ∧ (State.pkStall s).ms = s.ms ∧ (State.pkStall s).pricks = s.pricks ∧
    (State.pkStall s).templates = s.templates ∧ (State.pkStall s).jobs = s.jobs ∧
    (State.pkStall s).order = s.order ∧ (State.pkStall s).pillows = s.pillows ∧
    (State.pkStall s).free = s.free := by
  have hF0 := @State.pkBegin_frame
  unfold State.pkStall; dsimp only; (repeat' split) <;> simp [hF0]

theorem State.throwBurst_frame (x : PkFrame) (s : State) : (State.throwBurst x s).now = s.now ∧
    (State.throwBurst x s).pending = s.pending ∧ (State.throwBurst x s).tb = s.tb ∧
    (State.throwBurst x s).sheets = s.sheets ∧ (State.throwBurst x s).units = s.units ∧
    (State.throwBurst x s).pins = s.pins ∧ (State.throwBurst x s).queues = s.queues ∧
    (State.throwBurst x s).latches = s.latches ∧ (State.throwBurst x s).errw = s.errw ∧
    (State.throwBurst x s).sdio = s.sdio ∧ (State.throwBurst x s).bulk = s.bulk ∧
    (State.throwBurst x s).mgmt = s.mgmt ∧ (State.throwBurst x s).power = s.power ∧
    (State.throwBurst x s).sec = s.sec ∧ (State.throwBurst x s).therm = s.therm ∧
    (State.throwBurst x s).ports = s.ports ∧ (State.throwBurst x s).streams = s.streams ∧
    (State.throwBurst x s).services = s.services ∧ (State.throwBurst x s).ptpPorts = s.ptpPorts ∧
    (State.throwBurst x s).ptp = s.ptp ∧ (State.throwBurst x s).chans = s.chans ∧
    (State.throwBurst x s).seqs = s.seqs ∧ (State.throwBurst x s).hc = s.hc ∧
    (State.throwBurst x s).trim = s.trim ∧ (State.throwBurst x s).bundles = s.bundles ∧
    (State.throwBurst x s).slots = s.slots ∧ (State.throwBurst x s).wt = s.wt ∧
    (State.throwBurst x s).mem = s.mem ∧ (State.throwBurst x s).fwMem = s.fwMem ∧
    (State.throwBurst x s).ms = s.ms ∧ (State.throwBurst x s).pricks = s.pricks ∧
    (State.throwBurst x s).templates = s.templates ∧ (State.throwBurst x s).jobs = s.jobs ∧
    (State.throwBurst x s).order = s.order ∧ (State.throwBurst x s).pillows = s.pillows ∧
    (State.throwBurst x s).free = s.free := by
  unfold State.throwBurst; simp

theorem State.pkDeliver_frame (stream : Option Nat) (rec : Bytes) (s : State) :
    (State.pkDeliver stream rec s).now = s.now ∧ (State.pkDeliver stream rec s).pending = s.pending ∧
    (State.pkDeliver stream rec s).tb = s.tb ∧ (State.pkDeliver stream rec s).sheets = s.sheets ∧
    (State.pkDeliver stream rec s).units = s.units ∧ (State.pkDeliver stream rec s).pins = s.pins ∧
    (State.pkDeliver stream rec s).errw = s.errw ∧ (State.pkDeliver stream rec s).bulk = s.bulk ∧
    (State.pkDeliver stream rec s).mgmt = s.mgmt ∧ (State.pkDeliver stream rec s).power = s.power ∧
    (State.pkDeliver stream rec s).sec = s.sec ∧ (State.pkDeliver stream rec s).therm = s.therm ∧
    (State.pkDeliver stream rec s).ports = s.ports ∧ (State.pkDeliver stream rec s).streams = s.streams ∧
    (State.pkDeliver stream rec s).services = s.services ∧
    (State.pkDeliver stream rec s).ptpPorts = s.ptpPorts ∧ (State.pkDeliver stream rec s).ptp = s.ptp ∧
    (State.pkDeliver stream rec s).chans = s.chans ∧ (State.pkDeliver stream rec s).seqs = s.seqs ∧
    (State.pkDeliver stream rec s).hc = s.hc ∧ (State.pkDeliver stream rec s).trim = s.trim ∧
    (State.pkDeliver stream rec s).bundles = s.bundles ∧ (State.pkDeliver stream rec s).slots = s.slots ∧
    (State.pkDeliver stream rec s).wt = s.wt ∧ (State.pkDeliver stream rec s).mem = s.mem ∧
    (State.pkDeliver stream rec s).fwMem = s.fwMem ∧ (State.pkDeliver stream rec s).ms = s.ms ∧
    (State.pkDeliver stream rec s).pricks = s.pricks ∧
    (State.pkDeliver stream rec s).templates = s.templates ∧ (State.pkDeliver stream rec s).jobs = s.jobs ∧
    (State.pkDeliver stream rec s).order = s.order ∧ (State.pkDeliver stream rec s).pillows = s.pillows ∧
    (State.pkDeliver stream rec s).free = s.free := by
  have hF0 := @State.report_frame
  unfold State.pkDeliver; simp [hF0]

theorem State.pickUp_frame (f : Nat) (bytes : Bytes) (s : State) : (State.pickUp f bytes s).now = s.now ∧
    (State.pickUp f bytes s).pending = s.pending ∧ (State.pickUp f bytes s).tb = s.tb ∧
    (State.pickUp f bytes s).sheets = s.sheets ∧ (State.pickUp f bytes s).units = s.units ∧
    (State.pickUp f bytes s).pins = s.pins ∧ (State.pickUp f bytes s).queues = s.queues ∧
    (State.pickUp f bytes s).latches = s.latches ∧ (State.pickUp f bytes s).errw = s.errw ∧
    (State.pickUp f bytes s).sdio = s.sdio ∧ (State.pickUp f bytes s).bulk = s.bulk ∧
    (State.pickUp f bytes s).mgmt = s.mgmt ∧ (State.pickUp f bytes s).power = s.power ∧
    (State.pickUp f bytes s).sec = s.sec ∧ (State.pickUp f bytes s).therm = s.therm ∧
    (State.pickUp f bytes s).ports = s.ports ∧ (State.pickUp f bytes s).streams = s.streams ∧
    (State.pickUp f bytes s).services = s.services ∧ (State.pickUp f bytes s).ptpPorts = s.ptpPorts ∧
    (State.pickUp f bytes s).ptp = s.ptp ∧ (State.pickUp f bytes s).chans = s.chans ∧
    (State.pickUp f bytes s).seqs = s.seqs ∧ (State.pickUp f bytes s).hc = s.hc ∧
    (State.pickUp f bytes s).trim = s.trim ∧ (State.pickUp f bytes s).bundles = s.bundles ∧
    (State.pickUp f bytes s).slots = s.slots ∧ (State.pickUp f bytes s).wt = s.wt ∧
    (State.pickUp f bytes s).mem = s.mem ∧ (State.pickUp f bytes s).fwMem = s.fwMem ∧
    (State.pickUp f bytes s).ms = s.ms ∧ (State.pickUp f bytes s).pricks = s.pricks ∧
    (State.pickUp f bytes s).templates = s.templates ∧ (State.pickUp f bytes s).jobs = s.jobs ∧
    (State.pickUp f bytes s).order = s.order ∧ (State.pickUp f bytes s).pillows = s.pillows ∧
    (State.pickUp f bytes s).free = s.free := by
  unfold State.pickUp; simp

theorem pkEnableDo_frame (h : Hdr) (streams : BitVec 16) (origin : Nat) (s : State) :
    (pkEnableDo h streams origin s).now = s.now ∧ (pkEnableDo h streams origin s).pending = s.pending ∧
    (pkEnableDo h streams origin s).tb = s.tb ∧ (pkEnableDo h streams origin s).sheets = s.sheets ∧
    (pkEnableDo h streams origin s).pins = s.pins ∧ (pkEnableDo h streams origin s).latches = s.latches ∧
    (pkEnableDo h streams origin s).errw = s.errw ∧ (pkEnableDo h streams origin s).bulk = s.bulk ∧
    (pkEnableDo h streams origin s).sec = s.sec ∧ (pkEnableDo h streams origin s).therm = s.therm ∧
    (pkEnableDo h streams origin s).ports = s.ports ∧
    (pkEnableDo h streams origin s).services = s.services ∧
    (pkEnableDo h streams origin s).ptpPorts = s.ptpPorts ∧ (pkEnableDo h streams origin s).ptp = s.ptp ∧
    (pkEnableDo h streams origin s).chans = s.chans ∧ (pkEnableDo h streams origin s).seqs = s.seqs ∧
    (pkEnableDo h streams origin s).hc = s.hc ∧ (pkEnableDo h streams origin s).trim = s.trim ∧
    (pkEnableDo h streams origin s).bundles = s.bundles ∧ (pkEnableDo h streams origin s).slots = s.slots ∧
    (pkEnableDo h streams origin s).wt = s.wt ∧ (pkEnableDo h streams origin s).mem = s.mem ∧
    (pkEnableDo h streams origin s).fwMem = s.fwMem ∧ (pkEnableDo h streams origin s).ms = s.ms ∧
    (pkEnableDo h streams origin s).pricks = s.pricks ∧
    (pkEnableDo h streams origin s).templates = s.templates ∧
    (pkEnableDo h streams origin s).jobs = s.jobs ∧ (pkEnableDo h streams origin s).order = s.order ∧
    (pkEnableDo h streams origin s).pillows = s.pillows ∧
    (pkEnableDo h streams origin s).free = s.free := by
  have hF0 := @State.claimUnit_frame
  have hF1 := @State.done_frame
  have hF2 := @State.pkBegin_frame
  unfold pkEnableDo; dsimp only; (repeat' split) <;> simp [hF0, hF1, hF2]

/-! ## Release -/

theorem State.taintPillow_frame (p : Nat) (s : State) : (State.taintPillow p s).now = s.now ∧
    (State.taintPillow p s).pending = s.pending ∧ (State.taintPillow p s).tb = s.tb ∧
    (State.taintPillow p s).sheets = s.sheets ∧ (State.taintPillow p s).units = s.units ∧
    (State.taintPillow p s).pins = s.pins ∧ (State.taintPillow p s).pk = s.pk ∧
    (State.taintPillow p s).queues = s.queues ∧ (State.taintPillow p s).latches = s.latches ∧
    (State.taintPillow p s).errw = s.errw ∧ (State.taintPillow p s).sdio = s.sdio ∧
    (State.taintPillow p s).bulk = s.bulk ∧ (State.taintPillow p s).mgmt = s.mgmt ∧
    (State.taintPillow p s).power = s.power ∧ (State.taintPillow p s).sec = s.sec ∧
    (State.taintPillow p s).therm = s.therm ∧ (State.taintPillow p s).ports = s.ports ∧
    (State.taintPillow p s).streams = s.streams ∧ (State.taintPillow p s).services = s.services ∧
    (State.taintPillow p s).ptpPorts = s.ptpPorts ∧ (State.taintPillow p s).ptp = s.ptp ∧
    (State.taintPillow p s).chans = s.chans ∧ (State.taintPillow p s).seqs = s.seqs ∧
    (State.taintPillow p s).hc = s.hc ∧ (State.taintPillow p s).trim = s.trim ∧
    (State.taintPillow p s).bundles = s.bundles ∧ (State.taintPillow p s).slots = s.slots ∧
    (State.taintPillow p s).wt = s.wt ∧ (State.taintPillow p s).mem = s.mem ∧
    (State.taintPillow p s).fwMem = s.fwMem ∧ (State.taintPillow p s).ms = s.ms ∧
    (State.taintPillow p s).pricks = s.pricks ∧ (State.taintPillow p s).templates = s.templates ∧
    (State.taintPillow p s).order = s.order ∧ (State.taintPillow p s).free = s.free := by
  have hF0 := @State.modJob_frame
  have hF1 := @State.modPillow_frame
  unfold State.taintPillow; dsimp only; (repeat' split) <;> simp [hF0, hF1]

theorem State.startInst_frame (r : Rel) (c : Nat) (j : Job) (s : State) :
    (State.startInst r c j s).now = s.now ∧ (State.startInst r c j s).pending = s.pending ∧
    (State.startInst r c j s).tb = s.tb ∧ (State.startInst r c j s).sheets = s.sheets ∧
    (State.startInst r c j s).units = s.units ∧ (State.startInst r c j s).pins = s.pins ∧
    (State.startInst r c j s).pk = s.pk ∧ (State.startInst r c j s).queues = s.queues ∧
    (State.startInst r c j s).latches = s.latches ∧ (State.startInst r c j s).errw = s.errw ∧
    (State.startInst r c j s).sdio = s.sdio ∧ (State.startInst r c j s).bulk = s.bulk ∧
    (State.startInst r c j s).mgmt = s.mgmt ∧ (State.startInst r c j s).power = s.power ∧
    (State.startInst r c j s).sec = s.sec ∧ (State.startInst r c j s).therm = s.therm ∧
    (State.startInst r c j s).ports = s.ports ∧ (State.startInst r c j s).streams = s.streams ∧
    (State.startInst r c j s).services = s.services ∧ (State.startInst r c j s).ptpPorts = s.ptpPorts ∧
    (State.startInst r c j s).ptp = s.ptp ∧ (State.startInst r c j s).chans = s.chans ∧
    (State.startInst r c j s).seqs = s.seqs ∧ (State.startInst r c j s).hc = s.hc ∧
    (State.startInst r c j s).trim = s.trim ∧ (State.startInst r c j s).bundles = s.bundles ∧
    (State.startInst r c j s).slots = s.slots ∧ (State.startInst r c j s).wt = s.wt ∧
    (State.startInst r c j s).mem = s.mem ∧ (State.startInst r c j s).fwMem = s.fwMem ∧
    (State.startInst r c j s).pricks = s.pricks ∧ (State.startInst r c j s).templates = s.templates ∧
    (State.startInst r c j s).order = s.order ∧ (State.startInst r c j s).free = s.free := by
  have hF0 := @State.unpoison_frame
  have hF1 := @State.setJob_frame
  have hF2 := @State.modPillow_frame
  have hF3 := @State.taintPillow_frame
  unfold State.startInst; simp [hF0, hF1, hF2, hF3]

theorem State.reportFast_frame (n : Nat) (sr : Nat) (tRel : Nat) (s : State) :
    (State.reportFast n sr tRel s).now = s.now ∧ (State.reportFast n sr tRel s).pending = s.pending ∧
    (State.reportFast n sr tRel s).sheets = s.sheets ∧ (State.reportFast n sr tRel s).units = s.units ∧
    (State.reportFast n sr tRel s).pins = s.pins ∧ (State.reportFast n sr tRel s).pk = s.pk ∧
    (State.reportFast n sr tRel s).errw = s.errw ∧ (State.reportFast n sr tRel s).bulk = s.bulk ∧
    (State.reportFast n sr tRel s).mgmt = s.mgmt ∧ (State.reportFast n sr tRel s).power = s.power ∧
    (State.reportFast n sr tRel s).sec = s.sec ∧ (State.reportFast n sr tRel s).therm = s.therm ∧
    (State.reportFast n sr tRel s).ports = s.ports ∧ (State.reportFast n sr tRel s).streams = s.streams ∧
    (State.reportFast n sr tRel s).services = s.services ∧
    (State.reportFast n sr tRel s).ptpPorts = s.ptpPorts ∧ (State.reportFast n sr tRel s).ptp = s.ptp ∧
    (State.reportFast n sr tRel s).chans = s.chans ∧ (State.reportFast n sr tRel s).seqs = s.seqs ∧
    (State.reportFast n sr tRel s).hc = s.hc ∧ (State.reportFast n sr tRel s).trim = s.trim ∧
    (State.reportFast n sr tRel s).bundles = s.bundles ∧ (State.reportFast n sr tRel s).slots = s.slots ∧
    (State.reportFast n sr tRel s).wt = s.wt ∧ (State.reportFast n sr tRel s).mem = s.mem ∧
    (State.reportFast n sr tRel s).fwMem = s.fwMem ∧ (State.reportFast n sr tRel s).ms = s.ms ∧
    (State.reportFast n sr tRel s).pricks = s.pricks ∧
    (State.reportFast n sr tRel s).templates = s.templates ∧ (State.reportFast n sr tRel s).jobs = s.jobs ∧
    (State.reportFast n sr tRel s).order = s.order ∧
    (State.reportFast n sr tRel s).pillows = s.pillows := by
  have hF0 := @State.report_frame
  have hF1 := @State.draw_frame
  unfold State.reportFast; dsimp only; (repeat' split) <;> simp [hF0, hF1]

theorem State.releaseTime_frame (sr : Nat) (s : State) : (State.releaseTime sr s).2.now = s.now ∧
    (State.releaseTime sr s).2.pending = s.pending ∧ (State.releaseTime sr s).2.tb = s.tb ∧
    (State.releaseTime sr s).2.sheets = s.sheets ∧ (State.releaseTime sr s).2.units = s.units ∧
    (State.releaseTime sr s).2.pins = s.pins ∧ (State.releaseTime sr s).2.pk = s.pk ∧
    (State.releaseTime sr s).2.queues = s.queues ∧ (State.releaseTime sr s).2.latches = s.latches ∧
    (State.releaseTime sr s).2.errw = s.errw ∧ (State.releaseTime sr s).2.sdio = s.sdio ∧
    (State.releaseTime sr s).2.bulk = s.bulk ∧ (State.releaseTime sr s).2.mgmt = s.mgmt ∧
    (State.releaseTime sr s).2.power = s.power ∧ (State.releaseTime sr s).2.sec = s.sec ∧
    (State.releaseTime sr s).2.therm = s.therm ∧ (State.releaseTime sr s).2.ports = s.ports ∧
    (State.releaseTime sr s).2.streams = s.streams ∧ (State.releaseTime sr s).2.services = s.services ∧
    (State.releaseTime sr s).2.ptpPorts = s.ptpPorts ∧ (State.releaseTime sr s).2.ptp = s.ptp ∧
    (State.releaseTime sr s).2.chans = s.chans ∧ (State.releaseTime sr s).2.seqs = s.seqs ∧
    (State.releaseTime sr s).2.hc = s.hc ∧ (State.releaseTime sr s).2.trim = s.trim ∧
    (State.releaseTime sr s).2.bundles = s.bundles ∧ (State.releaseTime sr s).2.slots = s.slots ∧
    (State.releaseTime sr s).2.wt = s.wt ∧ (State.releaseTime sr s).2.mem = s.mem ∧
    (State.releaseTime sr s).2.fwMem = s.fwMem ∧ (State.releaseTime sr s).2.ms = s.ms ∧
    (State.releaseTime sr s).2.pricks = s.pricks ∧ (State.releaseTime sr s).2.templates = s.templates ∧
    (State.releaseTime sr s).2.jobs = s.jobs ∧ (State.releaseTime sr s).2.order = s.order ∧
    (State.releaseTime sr s).2.pillows = s.pillows := by
  have hF0 := @State.draw_frame
  unfold State.releaseTime; dsimp only; (repeat' split) <;> simp [hF0]

theorem State.lastLanding_frame (x : Stream) (f : Nat) (n : Nat) (s : State) :
    (State.lastLanding x f n s).2.now = s.now ∧ (State.lastLanding x f n s).2.pending = s.pending ∧
    (State.lastLanding x f n s).2.tb = s.tb ∧ (State.lastLanding x f n s).2.sheets = s.sheets ∧
    (State.lastLanding x f n s).2.units = s.units ∧ (State.lastLanding x f n s).2.pins = s.pins ∧
    (State.lastLanding x f n s).2.pk = s.pk ∧ (State.lastLanding x f n s).2.queues = s.queues ∧
    (State.lastLanding x f n s).2.latches = s.latches ∧ (State.lastLanding x f n s).2.errw = s.errw ∧
    (State.lastLanding x f n s).2.sdio = s.sdio ∧ (State.lastLanding x f n s).2.bulk = s.bulk ∧
    (State.lastLanding x f n s).2.mgmt = s.mgmt ∧ (State.lastLanding x f n s).2.power = s.power ∧
    (State.lastLanding x f n s).2.sec = s.sec ∧ (State.lastLanding x f n s).2.therm = s.therm ∧
    (State.lastLanding x f n s).2.ports = s.ports ∧ (State.lastLanding x f n s).2.streams = s.streams ∧
    (State.lastLanding x f n s).2.services = s.services ∧
    (State.lastLanding x f n s).2.ptpPorts = s.ptpPorts ∧ (State.lastLanding x f n s).2.ptp = s.ptp ∧
    (State.lastLanding x f n s).2.chans = s.chans ∧ (State.lastLanding x f n s).2.seqs = s.seqs ∧
    (State.lastLanding x f n s).2.hc = s.hc ∧ (State.lastLanding x f n s).2.trim = s.trim ∧
    (State.lastLanding x f n s).2.bundles = s.bundles ∧ (State.lastLanding x f n s).2.slots = s.slots ∧
    (State.lastLanding x f n s).2.wt = s.wt ∧ (State.lastLanding x f n s).2.mem = s.mem ∧
    (State.lastLanding x f n s).2.fwMem = s.fwMem ∧ (State.lastLanding x f n s).2.ms = s.ms ∧
    (State.lastLanding x f n s).2.pricks = s.pricks ∧
    (State.lastLanding x f n s).2.templates = s.templates ∧ (State.lastLanding x f n s).2.jobs = s.jobs ∧
    (State.lastLanding x f n s).2.order = s.order ∧ (State.lastLanding x f n s).2.pillows = s.pillows := by
  have hF0 := @State.draw_frame
  unfold State.lastLanding; dsimp only; (repeat' split) <;> simp [hF0]

theorem State.noteOld_frame (ofs : Nat) (sr : Nat) (s : State) : (State.noteOld ofs sr s).now = s.now ∧
    (State.noteOld ofs sr s).pending = s.pending ∧ (State.noteOld ofs sr s).sheets = s.sheets ∧
    (State.noteOld ofs sr s).units = s.units ∧ (State.noteOld ofs sr s).pins = s.pins ∧
    (State.noteOld ofs sr s).pk = s.pk ∧ (State.noteOld ofs sr s).queues = s.queues ∧
    (State.noteOld ofs sr s).latches = s.latches ∧ (State.noteOld ofs sr s).errw = s.errw ∧
    (State.noteOld ofs sr s).sdio = s.sdio ∧ (State.noteOld ofs sr s).bulk = s.bulk ∧
    (State.noteOld ofs sr s).mgmt = s.mgmt ∧ (State.noteOld ofs sr s).power = s.power ∧
    (State.noteOld ofs sr s).sec = s.sec ∧ (State.noteOld ofs sr s).therm = s.therm ∧
    (State.noteOld ofs sr s).ports = s.ports ∧ (State.noteOld ofs sr s).streams = s.streams ∧
    (State.noteOld ofs sr s).services = s.services ∧ (State.noteOld ofs sr s).ptpPorts = s.ptpPorts ∧
    (State.noteOld ofs sr s).ptp = s.ptp ∧ (State.noteOld ofs sr s).chans = s.chans ∧
    (State.noteOld ofs sr s).seqs = s.seqs ∧ (State.noteOld ofs sr s).hc = s.hc ∧
    (State.noteOld ofs sr s).trim = s.trim ∧ (State.noteOld ofs sr s).bundles = s.bundles ∧
    (State.noteOld ofs sr s).slots = s.slots ∧ (State.noteOld ofs sr s).wt = s.wt ∧
    (State.noteOld ofs sr s).mem = s.mem ∧ (State.noteOld ofs sr s).fwMem = s.fwMem ∧
    (State.noteOld ofs sr s).ms = s.ms ∧ (State.noteOld ofs sr s).pricks = s.pricks ∧
    (State.noteOld ofs sr s).templates = s.templates ∧ (State.noteOld ofs sr s).jobs = s.jobs ∧
    (State.noteOld ofs sr s).order = s.order ∧ (State.noteOld ofs sr s).pillows = s.pillows ∧
    (State.noteOld ofs sr s).free = s.free := by
  unfold State.noteOld; dsimp only; (repeat' split) <;> simp

theorem State.releaseRow_frame (n : Nat) (t : Template) (s : State) : (State.releaseRow n t s).now = s.now ∧
    (State.releaseRow n t s).pending = s.pending ∧ (State.releaseRow n t s).sheets = s.sheets ∧
    (State.releaseRow n t s).units = s.units ∧ (State.releaseRow n t s).pins = s.pins ∧
    (State.releaseRow n t s).pk = s.pk ∧ (State.releaseRow n t s).errw = s.errw ∧
    (State.releaseRow n t s).bulk = s.bulk ∧ (State.releaseRow n t s).mgmt = s.mgmt ∧
    (State.releaseRow n t s).power = s.power ∧ (State.releaseRow n t s).sec = s.sec ∧
    (State.releaseRow n t s).therm = s.therm ∧ (State.releaseRow n t s).ports = s.ports ∧
    (State.releaseRow n t s).streams = s.streams ∧ (State.releaseRow n t s).services = s.services ∧
    (State.releaseRow n t s).ptpPorts = s.ptpPorts ∧ (State.releaseRow n t s).ptp = s.ptp ∧
    (State.releaseRow n t s).chans = s.chans ∧ (State.releaseRow n t s).seqs = s.seqs ∧
    (State.releaseRow n t s).hc = s.hc ∧ (State.releaseRow n t s).trim = s.trim ∧
    (State.releaseRow n t s).bundles = s.bundles ∧ (State.releaseRow n t s).slots = s.slots ∧
    (State.releaseRow n t s).wt = s.wt ∧ (State.releaseRow n t s).mem = s.mem ∧
    (State.releaseRow n t s).fwMem = s.fwMem ∧ (State.releaseRow n t s).pricks = s.pricks ∧
    (State.releaseRow n t s).order = s.order := by
  have hF0 := @State.setTemplate_frame
  have hF1 := @State.startInst_frame
  have hF2 := @State.reportFast_frame
  have hF3 := @State.report_frame
  have hF4 := @State.noteOld_frame
  have hF5 := @State.lastLanding_frame
  have hF6 := @State.releaseTime_frame
  unfold State.releaseRow; simp [hF0, hF1, hF2, hF3, hF4, hF5, hF6]

theorem State.releaseRows_frame (n : Nat) (x0 : Nat) (x1 : State) :
    (State.releaseRows n x0 x1).now = x1.now ∧ (State.releaseRows n x0 x1).pending = x1.pending ∧
    (State.releaseRows n x0 x1).sheets = x1.sheets ∧ (State.releaseRows n x0 x1).units = x1.units ∧
    (State.releaseRows n x0 x1).pins = x1.pins ∧ (State.releaseRows n x0 x1).pk = x1.pk ∧
    (State.releaseRows n x0 x1).errw = x1.errw ∧ (State.releaseRows n x0 x1).bulk = x1.bulk ∧
    (State.releaseRows n x0 x1).mgmt = x1.mgmt ∧ (State.releaseRows n x0 x1).power = x1.power ∧
    (State.releaseRows n x0 x1).sec = x1.sec ∧ (State.releaseRows n x0 x1).therm = x1.therm ∧
    (State.releaseRows n x0 x1).ports = x1.ports ∧ (State.releaseRows n x0 x1).streams = x1.streams ∧
    (State.releaseRows n x0 x1).services = x1.services ∧
    (State.releaseRows n x0 x1).ptpPorts = x1.ptpPorts ∧ (State.releaseRows n x0 x1).ptp = x1.ptp ∧
    (State.releaseRows n x0 x1).chans = x1.chans ∧ (State.releaseRows n x0 x1).seqs = x1.seqs ∧
    (State.releaseRows n x0 x1).hc = x1.hc ∧ (State.releaseRows n x0 x1).trim = x1.trim ∧
    (State.releaseRows n x0 x1).bundles = x1.bundles ∧ (State.releaseRows n x0 x1).slots = x1.slots ∧
    (State.releaseRows n x0 x1).wt = x1.wt ∧ (State.releaseRows n x0 x1).mem = x1.mem ∧
    (State.releaseRows n x0 x1).fwMem = x1.fwMem ∧ (State.releaseRows n x0 x1).pricks = x1.pricks ∧
    (State.releaseRows n x0 x1).order = x1.order := by
  have hF0 := @State.releaseRow_frame
  induction x0 generalizing x1 <;> (unfold State.releaseRows; (repeat' split) <;> simp [*])

theorem State.releaseDue_frame (f : Nat → Bool) (s : State) : (State.releaseDue f s).now = s.now ∧
    (State.releaseDue f s).pending = s.pending ∧ (State.releaseDue f s).sheets = s.sheets ∧
    (State.releaseDue f s).units = s.units ∧ (State.releaseDue f s).pins = s.pins ∧
    (State.releaseDue f s).pk = s.pk ∧ (State.releaseDue f s).errw = s.errw ∧
    (State.releaseDue f s).bulk = s.bulk ∧ (State.releaseDue f s).mgmt = s.mgmt ∧
    (State.releaseDue f s).power = s.power ∧ (State.releaseDue f s).sec = s.sec ∧
    (State.releaseDue f s).therm = s.therm ∧ (State.releaseDue f s).ports = s.ports ∧
    (State.releaseDue f s).streams = s.streams ∧ (State.releaseDue f s).services = s.services ∧
    (State.releaseDue f s).ptpPorts = s.ptpPorts ∧ (State.releaseDue f s).ptp = s.ptp ∧
    (State.releaseDue f s).chans = s.chans ∧ (State.releaseDue f s).seqs = s.seqs ∧
    (State.releaseDue f s).hc = s.hc ∧ (State.releaseDue f s).trim = s.trim ∧
    (State.releaseDue f s).bundles = s.bundles ∧ (State.releaseDue f s).slots = s.slots ∧
    (State.releaseDue f s).wt = s.wt ∧ (State.releaseDue f s).mem = s.mem ∧
    (State.releaseDue f s).fwMem = s.fwMem ∧ (State.releaseDue f s).pricks = s.pricks ∧
    (State.releaseDue f s).order = s.order := by
  have hF0 := @State.releaseRows_frame
  unfold State.releaseDue; simp [hF0]

theorem State.rowDelivered_frame (j : Job) (s : State) : (State.rowDelivered j s).now = s.now ∧
    (State.rowDelivered j s).pending = s.pending ∧ (State.rowDelivered j s).tb = s.tb ∧
    (State.rowDelivered j s).sheets = s.sheets ∧ (State.rowDelivered j s).units = s.units ∧
    (State.rowDelivered j s).pins = s.pins ∧ (State.rowDelivered j s).pk = s.pk ∧
    (State.rowDelivered j s).queues = s.queues ∧ (State.rowDelivered j s).latches = s.latches ∧
    (State.rowDelivered j s).errw = s.errw ∧ (State.rowDelivered j s).sdio = s.sdio ∧
    (State.rowDelivered j s).bulk = s.bulk ∧ (State.rowDelivered j s).mgmt = s.mgmt ∧
    (State.rowDelivered j s).power = s.power ∧ (State.rowDelivered j s).sec = s.sec ∧
    (State.rowDelivered j s).therm = s.therm ∧ (State.rowDelivered j s).ports = s.ports ∧
    (State.rowDelivered j s).streams = s.streams ∧ (State.rowDelivered j s).services = s.services ∧
    (State.rowDelivered j s).ptpPorts = s.ptpPorts ∧ (State.rowDelivered j s).ptp = s.ptp ∧
    (State.rowDelivered j s).chans = s.chans ∧ (State.rowDelivered j s).seqs = s.seqs ∧
    (State.rowDelivered j s).hc = s.hc ∧ (State.rowDelivered j s).trim = s.trim ∧
    (State.rowDelivered j s).bundles = s.bundles ∧ (State.rowDelivered j s).slots = s.slots ∧
    (State.rowDelivered j s).wt = s.wt ∧ (State.rowDelivered j s).mem = s.mem ∧
    (State.rowDelivered j s).fwMem = s.fwMem ∧ (State.rowDelivered j s).ms = s.ms ∧
    (State.rowDelivered j s).pricks = s.pricks ∧ (State.rowDelivered j s).jobs = s.jobs ∧
    (State.rowDelivered j s).order = s.order ∧ (State.rowDelivered j s).pillows = s.pillows ∧
    (State.rowDelivered j s).free = s.free := by
  have hF0 := @State.modTemplate_frame
  unfold State.rowDelivered; simp [hF0]

end Sys2Proof.Machine
end

