-- ==== Sys2Proof/Laws/FrameNet.lean ====
section
/-! SUPPORT. Frames of the stream, Ethernet, thermal, integrity, paging, weight-loading, programming, record
and time-base operations. -/

namespace Sys2Proof.Machine

/-! ## Streams -/

theorem State.discard_frame (p : Nat) (s : State) : (State.discard p s).now = s.now ∧
    (State.discard p s).pending = s.pending ∧ (State.discard p s).tb = s.tb ∧
    (State.discard p s).sheets = s.sheets ∧ (State.discard p s).units = s.units ∧
    (State.discard p s).pins = s.pins ∧ (State.discard p s).pk = s.pk ∧
    (State.discard p s).queues = s.queues ∧ (State.discard p s).latches = s.latches ∧
    (State.discard p s).errw = s.errw ∧ (State.discard p s).sdio = s.sdio ∧
    (State.discard p s).bulk = s.bulk ∧ (State.discard p s).mgmt = s.mgmt ∧
    (State.discard p s).power = s.power ∧ (State.discard p s).sec = s.sec ∧
    (State.discard p s).therm = s.therm ∧ (State.discard p s).streams = s.streams ∧
    (State.discard p s).services = s.services ∧ (State.discard p s).ptpPorts = s.ptpPorts ∧
    (State.discard p s).ptp = s.ptp ∧ (State.discard p s).chans = s.chans ∧
    (State.discard p s).seqs = s.seqs ∧ (State.discard p s).hc = s.hc ∧ (State.discard p s).trim = s.trim ∧
    (State.discard p s).bundles = s.bundles ∧ (State.discard p s).slots = s.slots ∧
    (State.discard p s).wt = s.wt ∧ (State.discard p s).mem = s.mem ∧ (State.discard p s).fwMem = s.fwMem ∧
    (State.discard p s).ms = s.ms ∧ (State.discard p s).pricks = s.pricks ∧
    (State.discard p s).templates = s.templates ∧ (State.discard p s).jobs = s.jobs ∧
    (State.discard p s).order = s.order ∧ (State.discard p s).pillows = s.pillows ∧
    (State.discard p s).free = s.free := by
  have hF0 := @State.modPort_frame
  unfold State.discard; simp [hF0]

theorem State.accepted_frame (p : Nat) (s : State) : (State.accepted p s).now = s.now ∧
    (State.accepted p s).pending = s.pending ∧ (State.accepted p s).tb = s.tb ∧
    (State.accepted p s).sheets = s.sheets ∧ (State.accepted p s).units = s.units ∧
    (State.accepted p s).pins = s.pins ∧ (State.accepted p s).pk = s.pk ∧
    (State.accepted p s).queues = s.queues ∧ (State.accepted p s).latches = s.latches ∧
    (State.accepted p s).errw = s.errw ∧ (State.accepted p s).sdio = s.sdio ∧
    (State.accepted p s).bulk = s.bulk ∧ (State.accepted p s).mgmt = s.mgmt ∧
    (State.accepted p s).power = s.power ∧ (State.accepted p s).sec = s.sec ∧
    (State.accepted p s).therm = s.therm ∧ (State.accepted p s).streams = s.streams ∧
    (State.accepted p s).services = s.services ∧ (State.accepted p s).ptpPorts = s.ptpPorts ∧
    (State.accepted p s).ptp = s.ptp ∧ (State.accepted p s).chans = s.chans ∧
    (State.accepted p s).seqs = s.seqs ∧ (State.accepted p s).hc = s.hc ∧
    (State.accepted p s).trim = s.trim ∧ (State.accepted p s).bundles = s.bundles ∧
    (State.accepted p s).slots = s.slots ∧ (State.accepted p s).wt = s.wt ∧
    (State.accepted p s).mem = s.mem ∧ (State.accepted p s).fwMem = s.fwMem ∧
    (State.accepted p s).ms = s.ms ∧ (State.accepted p s).pricks = s.pricks ∧
    (State.accepted p s).templates = s.templates ∧ (State.accepted p s).jobs = s.jobs ∧
    (State.accepted p s).order = s.order ∧ (State.accepted p s).pillows = s.pillows ∧
    (State.accepted p s).free = s.free := by
  have hF0 := @State.modPort_frame
  unfold State.accepted; simp [hF0]

theorem State.lineReport_frame (port : Nat) (cause : Nat) (line : Nat) (s : State) :
    (State.lineReport port cause line s).now = s.now ∧
    (State.lineReport port cause line s).pending = s.pending ∧
    (State.lineReport port cause line s).tb = s.tb ∧
    (State.lineReport port cause line s).sheets = s.sheets ∧
    (State.lineReport port cause line s).units = s.units ∧
    (State.lineReport port cause line s).pins = s.pins ∧ (State.lineReport port cause line s).pk = s.pk ∧
    (State.lineReport port cause line s).errw = s.errw ∧
    (State.lineReport port cause line s).bulk = s.bulk ∧
    (State.lineReport port cause line s).mgmt = s.mgmt ∧
    (State.lineReport port cause line s).power = s.power ∧
    (State.lineReport port cause line s).sec = s.sec ∧
    (State.lineReport port cause line s).therm = s.therm ∧
    (State.lineReport port cause line s).ports = s.ports ∧
    (State.lineReport port cause line s).streams = s.streams ∧
    (State.lineReport port cause line s).services = s.services ∧
    (State.lineReport port cause line s).ptpPorts = s.ptpPorts ∧
    (State.lineReport port cause line s).ptp = s.ptp ∧
    (State.lineReport port cause line s).chans = s.chans ∧
    (State.lineReport port cause line s).seqs = s.seqs ∧ (State.lineReport port cause line s).hc = s.hc ∧
    (State.lineReport port cause line s).trim = s.trim ∧
    (State.lineReport port cause line s).bundles = s.bundles ∧
    (State.lineReport port cause line s).slots = s.slots ∧ (State.lineReport port cause line s).wt = s.wt ∧
    (State.lineReport port cause line s).mem = s.mem ∧
    (State.lineReport port cause line s).fwMem = s.fwMem ∧ (State.lineReport port cause line s).ms = s.ms ∧
    (State.lineReport port cause line s).pricks = s.pricks ∧
    (State.lineReport port cause line s).templates = s.templates ∧
    (State.lineReport port cause line s).jobs = s.jobs ∧
    (State.lineReport port cause line s).order = s.order ∧
    (State.lineReport port cause line s).pillows = s.pillows ∧
    (State.lineReport port cause line s).free = s.free := by
  have hF0 := @State.report_frame
  unfold State.lineReport; simp [hF0]

theorem State.landLine_frame (n : Nat) (port : Nat) (time : Nat) (s : State) :
    (State.landLine n port time s).now = s.now ∧ (State.landLine n port time s).pending = s.pending ∧
    (State.landLine n port time s).tb = s.tb ∧ (State.landLine n port time s).sheets = s.sheets ∧
    (State.landLine n port time s).units = s.units ∧ (State.landLine n port time s).pins = s.pins ∧
    (State.landLine n port time s).pk = s.pk ∧ (State.landLine n port time s).errw = s.errw ∧
    (State.landLine n port time s).bulk = s.bulk ∧ (State.landLine n port time s).mgmt = s.mgmt ∧
    (State.landLine n port time s).power = s.power ∧ (State.landLine n port time s).sec = s.sec ∧
    (State.landLine n port time s).therm = s.therm ∧ (State.landLine n port time s).ports = s.ports ∧
    (State.landLine n port time s).services = s.services ∧
    (State.landLine n port time s).ptpPorts = s.ptpPorts ∧ (State.landLine n port time s).ptp = s.ptp ∧
    (State.landLine n port time s).chans = s.chans ∧ (State.landLine n port time s).seqs = s.seqs ∧
    (State.landLine n port time s).hc = s.hc ∧ (State.landLine n port time s).trim = s.trim ∧
    (State.landLine n port time s).bundles = s.bundles ∧ (State.landLine n port time s).slots = s.slots ∧
    (State.landLine n port time s).wt = s.wt ∧ (State.landLine n port time s).mem = s.mem ∧
    (State.landLine n port time s).fwMem = s.fwMem ∧ (State.landLine n port time s).ms = s.ms ∧
    (State.landLine n port time s).pricks = s.pricks ∧
    (State.landLine n port time s).templates = s.templates ∧ (State.landLine n port time s).jobs = s.jobs ∧
    (State.landLine n port time s).order = s.order ∧ (State.landLine n port time s).pillows = s.pillows ∧
    (State.landLine n port time s).free = s.free := by
  have hF0 := @State.lineReport_frame
  have hF1 := @State.setStream_frame
  unfold State.landLine; simp [hF0, hF1]

theorem State.landMore_frame (n : Nat) (port : Nat) (x0 : Nat) (x1 : State) :
    (State.landMore n port x0 x1).now = x1.now ∧ (State.landMore n port x0 x1).pending = x1.pending ∧
    (State.landMore n port x0 x1).tb = x1.tb ∧ (State.landMore n port x0 x1).sheets = x1.sheets ∧
    (State.landMore n port x0 x1).units = x1.units ∧ (State.landMore n port x0 x1).pins = x1.pins ∧
    (State.landMore n port x0 x1).pk = x1.pk ∧ (State.landMore n port x0 x1).errw = x1.errw ∧
    (State.landMore n port x0 x1).bulk = x1.bulk ∧ (State.landMore n port x0 x1).mgmt = x1.mgmt ∧
    (State.landMore n port x0 x1).power = x1.power ∧ (State.landMore n port x0 x1).sec = x1.sec ∧
    (State.landMore n port x0 x1).therm = x1.therm ∧ (State.landMore n port x0 x1).ports = x1.ports ∧
    (State.landMore n port x0 x1).services = x1.services ∧
    (State.landMore n port x0 x1).ptpPorts = x1.ptpPorts ∧ (State.landMore n port x0 x1).ptp = x1.ptp ∧
    (State.landMore n port x0 x1).chans = x1.chans ∧ (State.landMore n port x0 x1).seqs = x1.seqs ∧
    (State.landMore n port x0 x1).hc = x1.hc ∧ (State.landMore n port x0 x1).trim = x1.trim ∧
    (State.landMore n port x0 x1).bundles = x1.bundles ∧ (State.landMore n port x0 x1).slots = x1.slots ∧
    (State.landMore n port x0 x1).wt = x1.wt ∧ (State.landMore n port x0 x1).mem = x1.mem ∧
    (State.landMore n port x0 x1).fwMem = x1.fwMem ∧ (State.landMore n port x0 x1).ms = x1.ms ∧
    (State.landMore n port x0 x1).pricks = x1.pricks ∧
    (State.landMore n port x0 x1).templates = x1.templates ∧ (State.landMore n port x0 x1).jobs = x1.jobs ∧
    (State.landMore n port x0 x1).order = x1.order ∧ (State.landMore n port x0 x1).pillows = x1.pillows ∧
    (State.landMore n port x0 x1).free = x1.free := by
  have hF0 := @State.landLine_frame
  have hF1 := @State.setStream_frame
  induction x0 generalizing x1 with
  | zero => simp [State.landMore]
  | succ k ih =>
    unfold State.landMore
    dsimp only
    (repeat' split) <;> simp [hF0, hF1, ih]

theorem State.missLine_frame (n : Nat) (port : Nat) (s : State) : (State.missLine n port s).now = s.now ∧
    (State.missLine n port s).pending = s.pending ∧ (State.missLine n port s).tb = s.tb ∧
    (State.missLine n port s).sheets = s.sheets ∧ (State.missLine n port s).units = s.units ∧
    (State.missLine n port s).pins = s.pins ∧ (State.missLine n port s).pk = s.pk ∧
    (State.missLine n port s).errw = s.errw ∧ (State.missLine n port s).bulk = s.bulk ∧
    (State.missLine n port s).mgmt = s.mgmt ∧ (State.missLine n port s).power = s.power ∧
    (State.missLine n port s).sec = s.sec ∧ (State.missLine n port s).therm = s.therm ∧
    (State.missLine n port s).ports = s.ports ∧ (State.missLine n port s).services = s.services ∧
    (State.missLine n port s).ptpPorts = s.ptpPorts ∧ (State.missLine n port s).ptp = s.ptp ∧
    (State.missLine n port s).chans = s.chans ∧ (State.missLine n port s).seqs = s.seqs ∧
    (State.missLine n port s).hc = s.hc ∧ (State.missLine n port s).trim = s.trim ∧
    (State.missLine n port s).bundles = s.bundles ∧ (State.missLine n port s).slots = s.slots ∧
    (State.missLine n port s).wt = s.wt ∧ (State.missLine n port s).mem = s.mem ∧
    (State.missLine n port s).fwMem = s.fwMem ∧ (State.missLine n port s).ms = s.ms ∧
    (State.missLine n port s).pricks = s.pricks ∧ (State.missLine n port s).templates = s.templates ∧
    (State.missLine n port s).jobs = s.jobs ∧ (State.missLine n port s).order = s.order ∧
    (State.missLine n port s).pillows = s.pillows ∧ (State.missLine n port s).free = s.free := by
  have hF0 := @State.landMore_frame
  have hF1 := @State.setStream_frame
  unfold State.missLine; simp [hF0, hF1]

theorem State.missTo_frame (n : Nat) (port : Nat) (top : Nat) (s : State) :
    (State.missTo n port top s).now = s.now ∧ (State.missTo n port top s).pending = s.pending ∧
    (State.missTo n port top s).tb = s.tb ∧ (State.missTo n port top s).sheets = s.sheets ∧
    (State.missTo n port top s).units = s.units ∧ (State.missTo n port top s).pins = s.pins ∧
    (State.missTo n port top s).pk = s.pk ∧ (State.missTo n port top s).errw = s.errw ∧
    (State.missTo n port top s).bulk = s.bulk ∧ (State.missTo n port top s).mgmt = s.mgmt ∧
    (State.missTo n port top s).power = s.power ∧ (State.missTo n port top s).sec = s.sec ∧
    (State.missTo n port top s).therm = s.therm ∧ (State.missTo n port top s).ports = s.ports ∧
    (State.missTo n port top s).services = s.services ∧ (State.missTo n port top s).ptpPorts = s.ptpPorts ∧
    (State.missTo n port top s).ptp = s.ptp ∧ (State.missTo n port top s).chans = s.chans ∧
    (State.missTo n port top s).seqs = s.seqs ∧ (State.missTo n port top s).hc = s.hc ∧
    (State.missTo n port top s).trim = s.trim ∧ (State.missTo n port top s).bundles = s.bundles ∧
    (State.missTo n port top s).slots = s.slots ∧ (State.missTo n port top s).wt = s.wt ∧
    (State.missTo n port top s).mem = s.mem ∧ (State.missTo n port top s).fwMem = s.fwMem ∧
    (State.missTo n port top s).ms = s.ms ∧ (State.missTo n port top s).pricks = s.pricks ∧
    (State.missTo n port top s).templates = s.templates ∧ (State.missTo n port top s).jobs = s.jobs ∧
    (State.missTo n port top s).order = s.order ∧ (State.missTo n port top s).pillows = s.pillows ∧
    (State.missTo n port top s).free = s.free := by
  have hF0 := @State.setStream_frame
  have hF1 := @State.missLine_frame
  unfold State.missTo; simp [hF0, hF1]

theorem State.openLine_frame (n : Nat) (line : Nat) (s : State) : (State.openLine n line s).now = s.now ∧
    (State.openLine n line s).pending = s.pending ∧ (State.openLine n line s).tb = s.tb ∧
    (State.openLine n line s).sheets = s.sheets ∧ (State.openLine n line s).pins = s.pins ∧
    (State.openLine n line s).pk = s.pk ∧ (State.openLine n line s).errw = s.errw ∧
    (State.openLine n line s).bulk = s.bulk ∧ (State.openLine n line s).mgmt = s.mgmt ∧
    (State.openLine n line s).power = s.power ∧ (State.openLine n line s).sec = s.sec ∧
    (State.openLine n line s).therm = s.therm ∧ (State.openLine n line s).ports = s.ports ∧
    (State.openLine n line s).services = s.services ∧ (State.openLine n line s).ptpPorts = s.ptpPorts ∧
    (State.openLine n line s).ptp = s.ptp ∧ (State.openLine n line s).chans = s.chans ∧
    (State.openLine n line s).seqs = s.seqs ∧ (State.openLine n line s).hc = s.hc ∧
    (State.openLine n line s).trim = s.trim ∧ (State.openLine n line s).bundles = s.bundles ∧
    (State.openLine n line s).slots = s.slots ∧ (State.openLine n line s).wt = s.wt ∧
    (State.openLine n line s).mem = s.mem ∧ (State.openLine n line s).fwMem = s.fwMem ∧
    (State.openLine n line s).ms = s.ms ∧ (State.openLine n line s).pricks = s.pricks ∧
    (State.openLine n line s).templates = s.templates ∧ (State.openLine n line s).jobs = s.jobs ∧
    (State.openLine n line s).order = s.order ∧ (State.openLine n line s).pillows = s.pillows ∧
    (State.openLine n line s).free = s.free := by
  have hF0 := @State.setStream_frame
  have hF1 := @State.report_frame
  unfold State.openLine; simp [hF0, hF1]

theorem State.takeUnit_frame (n : Nat) (port : Nat) (line : Nat) (unit : Nat) (data : Bytes) (s : State) :
    (State.takeUnit n port line unit data s).now = s.now ∧
    (State.takeUnit n port line unit data s).pending = s.pending ∧
    (State.takeUnit n port line unit data s).tb = s.tb ∧
    (State.takeUnit n port line unit data s).sheets = s.sheets ∧
    (State.takeUnit n port line unit data s).pins = s.pins ∧
    (State.takeUnit n port line unit data s).pk = s.pk ∧
    (State.takeUnit n port line unit data s).errw = s.errw ∧
    (State.takeUnit n port line unit data s).bulk = s.bulk ∧
    (State.takeUnit n port line unit data s).mgmt = s.mgmt ∧
    (State.takeUnit n port line unit data s).power = s.power ∧
    (State.takeUnit n port line unit data s).sec = s.sec ∧
    (State.takeUnit n port line unit data s).therm = s.therm ∧
    (State.takeUnit n port line unit data s).services = s.services ∧
    (State.takeUnit n port line unit data s).ptpPorts = s.ptpPorts ∧
    (State.takeUnit n port line unit data s).ptp = s.ptp ∧
    (State.takeUnit n port line unit data s).chans = s.chans ∧
    (State.takeUnit n port line unit data s).seqs = s.seqs ∧
    (State.takeUnit n port line unit data s).hc = s.hc ∧
    (State.takeUnit n port line unit data s).trim = s.trim ∧
    (State.takeUnit n port line unit data s).bundles = s.bundles ∧
    (State.takeUnit n port line unit data s).slots = s.slots ∧
    (State.takeUnit n port line unit data s).wt = s.wt ∧
    (State.takeUnit n port line unit data s).fwMem = s.fwMem ∧
    (State.takeUnit n port line unit data s).pricks = s.pricks ∧
    (State.takeUnit n port line unit data s).templates = s.templates ∧
    (State.takeUnit n port line unit data s).order = s.order ∧
    (State.takeUnit n port line unit data s).free = s.free := by
  have hF0 := @State.modPort_frame
  have hF1 := @State.setStream_frame
  have hF2 := @State.storeBy_frame
  unfold State.takeUnit; simp [hF0, hF1, hF2]

@[simp] theorem State.takeUnit_wf (n : Nat) (port : Nat) (line : Nat) (unit : Nat) (data : Bytes) (s : State) (hm : Memory.wf s.mem = true) :
    Memory.wf (State.takeUnit n port line unit data s).mem = true := by
  have hF0 := @State.modPort_frame
  have hF1 := @State.setStream_frame
  unfold State.takeUnit; simp [hF0, hF1, hm]

theorem State.completeLine_frame (n : Nat) (line : Nat) (s : State) :
    (State.completeLine n line s).now = s.now ∧ (State.completeLine n line s).pending = s.pending ∧
    (State.completeLine n line s).tb = s.tb ∧ (State.completeLine n line s).sheets = s.sheets ∧
    (State.completeLine n line s).units = s.units ∧ (State.completeLine n line s).pins = s.pins ∧
    (State.completeLine n line s).pk = s.pk ∧ (State.completeLine n line s).queues = s.queues ∧
    (State.completeLine n line s).latches = s.latches ∧ (State.completeLine n line s).errw = s.errw ∧
    (State.completeLine n line s).sdio = s.sdio ∧ (State.completeLine n line s).bulk = s.bulk ∧
    (State.completeLine n line s).mgmt = s.mgmt ∧ (State.completeLine n line s).power = s.power ∧
    (State.completeLine n line s).sec = s.sec ∧ (State.completeLine n line s).therm = s.therm ∧
    (State.completeLine n line s).ports = s.ports ∧ (State.completeLine n line s).services = s.services ∧
    (State.completeLine n line s).ptpPorts = s.ptpPorts ∧ (State.completeLine n line s).ptp = s.ptp ∧
    (State.completeLine n line s).chans = s.chans ∧ (State.completeLine n line s).seqs = s.seqs ∧
    (State.completeLine n line s).hc = s.hc ∧ (State.completeLine n line s).trim = s.trim ∧
    (State.completeLine n line s).bundles = s.bundles ∧ (State.completeLine n line s).slots = s.slots ∧
    (State.completeLine n line s).wt = s.wt ∧ (State.completeLine n line s).mem = s.mem ∧
    (State.completeLine n line s).fwMem = s.fwMem ∧ (State.completeLine n line s).ms = s.ms ∧
    (State.completeLine n line s).pricks = s.pricks ∧
    (State.completeLine n line s).templates = s.templates ∧ (State.completeLine n line s).jobs = s.jobs ∧
    (State.completeLine n line s).order = s.order ∧ (State.completeLine n line s).pillows = s.pillows ∧
    (State.completeLine n line s).free = s.free := by
  have hF0 := @State.modStream_frame
  unfold State.completeLine; simp [hF0]

theorem State.takePayload_frame (n : Nat) (port : Nat) (line : Nat) (ofs : Nat) (data : Bytes) (s : State) :
    (State.takePayload n port line ofs data s).now = s.now ∧
    (State.takePayload n port line ofs data s).pending = s.pending ∧
    (State.takePayload n port line ofs data s).tb = s.tb ∧
    (State.takePayload n port line ofs data s).sheets = s.sheets ∧
    (State.takePayload n port line ofs data s).pins = s.pins ∧
    (State.takePayload n port line ofs data s).pk = s.pk ∧
    (State.takePayload n port line ofs data s).errw = s.errw ∧
    (State.takePayload n port line ofs data s).bulk = s.bulk ∧
    (State.takePayload n port line ofs data s).mgmt = s.mgmt ∧
    (State.takePayload n port line ofs data s).power = s.power ∧
    (State.takePayload n port line ofs data s).sec = s.sec ∧
    (State.takePayload n port line ofs data s).therm = s.therm ∧
    (State.takePayload n port line ofs data s).services = s.services ∧
    (State.takePayload n port line ofs data s).ptpPorts = s.ptpPorts ∧
    (State.takePayload n port line ofs data s).ptp = s.ptp ∧
    (State.takePayload n port line ofs data s).chans = s.chans ∧
    (State.takePayload n port line ofs data s).seqs = s.seqs ∧
    (State.takePayload n port line ofs data s).hc = s.hc ∧
    (State.takePayload n port line ofs data s).trim = s.trim ∧
    (State.takePayload n port line ofs data s).bundles = s.bundles ∧
    (State.takePayload n port line ofs data s).slots = s.slots ∧
    (State.takePayload n port line ofs data s).wt = s.wt ∧
    (State.takePayload n port line ofs data s).fwMem = s.fwMem ∧
    (State.takePayload n port line ofs data s).pricks = s.pricks ∧
    (State.takePayload n port line ofs data s).templates = s.templates ∧
    (State.takePayload n port line ofs data s).order = s.order ∧
    (State.takePayload n port line ofs data s).free = s.free := by
  have hF0 := @State.landMore_frame
  have hF1 := @State.openLine_frame
  have hF2 := @State.completeLine_frame
  have hF3 := @State.takeUnit_frame
  unfold State.takePayload; simp [hF0, hF1, hF2, hF3]

@[simp] theorem State.takePayload_wf (n : Nat) (port : Nat) (line : Nat) (ofs : Nat) (data : Bytes) (s : State) (hm : Memory.wf s.mem = true) :
    Memory.wf (State.takePayload n port line ofs data s).mem = true := by
  have hF2 := @State.openLine_frame
  unfold State.takePayload
  dsimp only
  simp only [State.landMore_frame]
  split
  · split
    · exact hm
    · simp only [State.completeLine_frame]
      refine State.foldl_wf _ _ _ (fun t q ht => ?_) hm
      simp [ht]
  · split
    · simp [hF2, hm]
    · simp only [State.completeLine_frame]
      refine State.foldl_wf _ _ _ (fun t q ht => ?_) (by simp [hF2, hm])
      simp [ht]

theorem State.takeLine_frame (n : Nat) (port : Nat) (line : Int) (ofs : Nat) (data : Bytes) (s : State) :
    (State.takeLine n port line ofs data s).now = s.now ∧
    (State.takeLine n port line ofs data s).pending = s.pending ∧
    (State.takeLine n port line ofs data s).tb = s.tb ∧
    (State.takeLine n port line ofs data s).sheets = s.sheets ∧
    (State.takeLine n port line ofs data s).pins = s.pins ∧
    (State.takeLine n port line ofs data s).pk = s.pk ∧
    (State.takeLine n port line ofs data s).errw = s.errw ∧
    (State.takeLine n port line ofs data s).bulk = s.bulk ∧
    (State.takeLine n port line ofs data s).mgmt = s.mgmt ∧
    (State.takeLine n port line ofs data s).power = s.power ∧
    (State.takeLine n port line ofs data s).sec = s.sec ∧
    (State.takeLine n port line ofs data s).therm = s.therm ∧
    (State.takeLine n port line ofs data s).services = s.services ∧
    (State.takeLine n port line ofs data s).ptpPorts = s.ptpPorts ∧
    (State.takeLine n port line ofs data s).ptp = s.ptp ∧
    (State.takeLine n port line ofs data s).chans = s.chans ∧
    (State.takeLine n port line ofs data s).seqs = s.seqs ∧
    (State.takeLine n port line ofs data s).hc = s.hc ∧
    (State.takeLine n port line ofs data s).trim = s.trim ∧
    (State.takeLine n port line ofs data s).bundles = s.bundles ∧
    (State.takeLine n port line ofs data s).slots = s.slots ∧
    (State.takeLine n port line ofs data s).wt = s.wt ∧
    (State.takeLine n port line ofs data s).fwMem = s.fwMem ∧
    (State.takeLine n port line ofs data s).pricks = s.pricks ∧
    (State.takeLine n port line ofs data s).templates = s.templates ∧
    (State.takeLine n port line ofs data s).order = s.order ∧
    (State.takeLine n port line ofs data s).free = s.free := by
  have hF0 := @State.modPort_frame
  have hF1 := @State.setStream_frame
  have hF2 := @State.takePayload_frame
  have hF3 := @State.missTo_frame
  unfold State.takeLine; simp [hF0, hF1, hF2, hF3]

@[simp] theorem State.takeLine_wf (n : Nat) (port : Nat) (line : Int) (ofs : Nat) (data : Bytes) (s : State) (hm : Memory.wf s.mem = true) :
    Memory.wf (State.takeLine n port line ofs data s).mem = true := by
  have hF0 := @State.modPort_frame
  have hF1 := @State.setStream_frame
  have hF2 := @State.missTo_frame
  unfold State.takeLine; simp [hF0, hF1, hF2, hm]

theorem State.linePacket_frame (n : Nat) (port : Nat) (b : Bytes) (s : State) :
    (State.linePacket n port b s).now = s.now ∧ (State.linePacket n port b s).pending = s.pending ∧
    (State.linePacket n port b s).sheets = s.sheets ∧ (State.linePacket n port b s).pins = s.pins ∧
    (State.linePacket n port b s).pk = s.pk ∧ (State.linePacket n port b s).errw = s.errw ∧
    (State.linePacket n port b s).bulk = s.bulk ∧ (State.linePacket n port b s).mgmt = s.mgmt ∧
    (State.linePacket n port b s).power = s.power ∧ (State.linePacket n port b s).sec = s.sec ∧
    (State.linePacket n port b s).therm = s.therm ∧ (State.linePacket n port b s).services = s.services ∧
    (State.linePacket n port b s).ptpPorts = s.ptpPorts ∧ (State.linePacket n port b s).ptp = s.ptp ∧
    (State.linePacket n port b s).chans = s.chans ∧ (State.linePacket n port b s).seqs = s.seqs ∧
    (State.linePacket n port b s).hc = s.hc ∧ (State.linePacket n port b s).trim = s.trim ∧
    (State.linePacket n port b s).bundles = s.bundles ∧ (State.linePacket n port b s).slots = s.slots ∧
    (State.linePacket n port b s).wt = s.wt ∧ (State.linePacket n port b s).fwMem = s.fwMem ∧
    (State.linePacket n port b s).pricks = s.pricks ∧ (State.linePacket n port b s).order = s.order := by
  have hF0 := @State.lineReport_frame
  have hF1 := @State.setStream_frame
  have hF2 := @State.releaseDue_frame
  have hF3 := @State.takeLine_frame
  unfold State.linePacket; simp [hF0, hF1, hF2, hF3]

@[simp] theorem State.linePacket_wf (n : Nat) (port : Nat) (b : Bytes) (s : State) (hm : Memory.wf s.mem = true) :
    Memory.wf (State.linePacket n port b s).mem = true := by
  have hF0 := @State.lineReport_frame
  have hF1 := @State.setStream_frame
  have hF2 := @State.releaseDue_frame
  unfold State.linePacket; simp [hF0, hF1, hF2, hm]

theorem streamOpenDo_frame (h : Hdr) (p : StreamOpenParams) (s : State) : (streamOpenDo h p s).now = s.now ∧
    (streamOpenDo h p s).pending = s.pending ∧ (streamOpenDo h p s).tb = s.tb ∧
    (streamOpenDo h p s).sheets = s.sheets ∧ (streamOpenDo h p s).units = s.units ∧
    (streamOpenDo h p s).pins = s.pins ∧ (streamOpenDo h p s).pk = s.pk ∧
    (streamOpenDo h p s).latches = s.latches ∧ (streamOpenDo h p s).errw = s.errw ∧
    (streamOpenDo h p s).bulk = s.bulk ∧ (streamOpenDo h p s).power = s.power ∧
    (streamOpenDo h p s).sec = s.sec ∧ (streamOpenDo h p s).therm = s.therm ∧
    (streamOpenDo h p s).services = s.services ∧ (streamOpenDo h p s).ptpPorts = s.ptpPorts ∧
    (streamOpenDo h p s).ptp = s.ptp ∧ (streamOpenDo h p s).chans = s.chans ∧
    (streamOpenDo h p s).seqs = s.seqs ∧ (streamOpenDo h p s).hc = s.hc ∧
    (streamOpenDo h p s).trim = s.trim ∧ (streamOpenDo h p s).bundles = s.bundles ∧
    (streamOpenDo h p s).slots = s.slots ∧ (streamOpenDo h p s).wt = s.wt ∧
    (streamOpenDo h p s).mem = s.mem ∧ (streamOpenDo h p s).fwMem = s.fwMem ∧
    (streamOpenDo h p s).ms = s.ms ∧ (streamOpenDo h p s).pricks = s.pricks ∧
    (streamOpenDo h p s).templates = s.templates ∧ (streamOpenDo h p s).jobs = s.jobs ∧
    (streamOpenDo h p s).order = s.order ∧ (streamOpenDo h p s).pillows = s.pillows ∧
    (streamOpenDo h p s).free = s.free := by
  have hF0 := @State.done_frame
  have hF1 := @State.modPort_frame
  have hF2 := @State.modStream_frame
  unfold streamOpenDo; simp [hF0, hF1, hF2]

/-! ## Ethernet -/

theorem State.recordFrame_frame (sp : Nat) (c : Nat) (s : State) : (State.recordFrame sp c s).now = s.now ∧
    (State.recordFrame sp c s).pending = s.pending ∧ (State.recordFrame sp c s).tb = s.tb ∧
    (State.recordFrame sp c s).sheets = s.sheets ∧ (State.recordFrame sp c s).units = s.units ∧
    (State.recordFrame sp c s).pins = s.pins ∧ (State.recordFrame sp c s).pk = s.pk ∧
    (State.recordFrame sp c s).queues = s.queues ∧ (State.recordFrame sp c s).latches = s.latches ∧
    (State.recordFrame sp c s).errw = s.errw ∧ (State.recordFrame sp c s).sdio = s.sdio ∧
    (State.recordFrame sp c s).bulk = s.bulk ∧ (State.recordFrame sp c s).mgmt = s.mgmt ∧
    (State.recordFrame sp c s).power = s.power ∧ (State.recordFrame sp c s).sec = s.sec ∧
    (State.recordFrame sp c s).therm = s.therm ∧ (State.recordFrame sp c s).ports = s.ports ∧
    (State.recordFrame sp c s).streams = s.streams ∧ (State.recordFrame sp c s).ptpPorts = s.ptpPorts ∧
    (State.recordFrame sp c s).ptp = s.ptp ∧ (State.recordFrame sp c s).chans = s.chans ∧
    (State.recordFrame sp c s).seqs = s.seqs ∧ (State.recordFrame sp c s).hc = s.hc ∧
    (State.recordFrame sp c s).trim = s.trim ∧ (State.recordFrame sp c s).bundles = s.bundles ∧
    (State.recordFrame sp c s).slots = s.slots ∧ (State.recordFrame sp c s).wt = s.wt ∧
    (State.recordFrame sp c s).mem = s.mem ∧ (State.recordFrame sp c s).fwMem = s.fwMem ∧
    (State.recordFrame sp c s).ms = s.ms ∧ (State.recordFrame sp c s).pricks = s.pricks ∧
    (State.recordFrame sp c s).templates = s.templates ∧ (State.recordFrame sp c s).jobs = s.jobs ∧
    (State.recordFrame sp c s).order = s.order ∧ (State.recordFrame sp c s).pillows = s.pillows ∧
    (State.recordFrame sp c s).free = s.free := by
  have hF0 := @State.setService_frame
  unfold State.recordFrame; simp [hF0]

theorem State.startFrame_frame (sp : Nat) (c : Nat) (s : State) : (State.startFrame sp c s).now = s.now ∧
    (State.startFrame sp c s).pending = s.pending ∧ (State.startFrame sp c s).tb = s.tb ∧
    (State.startFrame sp c s).sheets = s.sheets ∧ (State.startFrame sp c s).units = s.units ∧
    (State.startFrame sp c s).pins = s.pins ∧ (State.startFrame sp c s).pk = s.pk ∧
    (State.startFrame sp c s).queues = s.queues ∧ (State.startFrame sp c s).latches = s.latches ∧
    (State.startFrame sp c s).errw = s.errw ∧ (State.startFrame sp c s).sdio = s.sdio ∧
    (State.startFrame sp c s).bulk = s.bulk ∧ (State.startFrame sp c s).mgmt = s.mgmt ∧
    (State.startFrame sp c s).power = s.power ∧ (State.startFrame sp c s).sec = s.sec ∧
    (State.startFrame sp c s).therm = s.therm ∧ (State.startFrame sp c s).ports = s.ports ∧
    (State.startFrame sp c s).streams = s.streams ∧ (State.startFrame sp c s).ptpPorts = s.ptpPorts ∧
    (State.startFrame sp c s).chans = s.chans ∧ (State.startFrame sp c s).seqs = s.seqs ∧
    (State.startFrame sp c s).hc = s.hc ∧ (State.startFrame sp c s).trim = s.trim ∧
    (State.startFrame sp c s).bundles = s.bundles ∧ (State.startFrame sp c s).slots = s.slots ∧
    (State.startFrame sp c s).wt = s.wt ∧ (State.startFrame sp c s).mem = s.mem ∧
    (State.startFrame sp c s).fwMem = s.fwMem ∧ (State.startFrame sp c s).ms = s.ms ∧
    (State.startFrame sp c s).pricks = s.pricks ∧ (State.startFrame sp c s).templates = s.templates ∧
    (State.startFrame sp c s).jobs = s.jobs ∧ (State.startFrame sp c s).order = s.order ∧
    (State.startFrame sp c s).pillows = s.pillows ∧ (State.startFrame sp c s).free = s.free := by
  have hF0 := @State.setService_frame
  have hF1 := @State.recordFrame_frame
  unfold State.startFrame; dsimp only; (repeat' split) <;> simp [hF0, hF1]

theorem State.egress_frame (sp : Nat) (s : State) : (State.egress sp s).now = s.now ∧
    (State.egress sp s).pending = s.pending ∧ (State.egress sp s).tb = s.tb ∧
    (State.egress sp s).sheets = s.sheets ∧ (State.egress sp s).units = s.units ∧
    (State.egress sp s).pins = s.pins ∧ (State.egress sp s).pk = s.pk ∧
    (State.egress sp s).queues = s.queues ∧ (State.egress sp s).latches = s.latches ∧
    (State.egress sp s).errw = s.errw ∧ (State.egress sp s).sdio = s.sdio ∧
    (State.egress sp s).bulk = s.bulk ∧ (State.egress sp s).mgmt = s.mgmt ∧
    (State.egress sp s).power = s.power ∧ (State.egress sp s).sec = s.sec ∧
    (State.egress sp s).therm = s.therm ∧ (State.egress sp s).ports = s.ports ∧
    (State.egress sp s).streams = s.streams ∧ (State.egress sp s).ptpPorts = s.ptpPorts ∧
    (State.egress sp s).chans = s.chans ∧ (State.egress sp s).seqs = s.seqs ∧
    (State.egress sp s).hc = s.hc ∧ (State.egress sp s).trim = s.trim ∧
    (State.egress sp s).bundles = s.bundles ∧ (State.egress sp s).slots = s.slots ∧
    (State.egress sp s).wt = s.wt ∧ (State.egress sp s).mem = s.mem ∧ (State.egress sp s).fwMem = s.fwMem ∧
    (State.egress sp s).ms = s.ms ∧ (State.egress sp s).pricks = s.pricks ∧
    (State.egress sp s).templates = s.templates ∧ (State.egress sp s).jobs = s.jobs ∧
    (State.egress sp s).order = s.order ∧ (State.egress sp s).pillows = s.pillows ∧
    (State.egress sp s).free = s.free := by
  have hF0 := @State.startFrame_frame
  have hF1 := @State.modService_frame
  unfold State.egress; dsimp only; (repeat' split) <;> simp [hF0, hF1]

theorem State.egressLoss_frame (sp : Nat) (s : State) : (State.egressLoss sp s).now = s.now ∧
    (State.egressLoss sp s).pending = s.pending ∧ (State.egressLoss sp s).tb = s.tb ∧
    (State.egressLoss sp s).sheets = s.sheets ∧ (State.egressLoss sp s).units = s.units ∧
    (State.egressLoss sp s).pins = s.pins ∧ (State.egressLoss sp s).pk = s.pk ∧
    (State.egressLoss sp s).errw = s.errw ∧ (State.egressLoss sp s).bulk = s.bulk ∧
    (State.egressLoss sp s).mgmt = s.mgmt ∧ (State.egressLoss sp s).power = s.power ∧
    (State.egressLoss sp s).sec = s.sec ∧ (State.egressLoss sp s).therm = s.therm ∧
    (State.egressLoss sp s).ports = s.ports ∧ (State.egressLoss sp s).streams = s.streams ∧
    (State.egressLoss sp s).ptpPorts = s.ptpPorts ∧ (State.egressLoss sp s).ptp = s.ptp ∧
    (State.egressLoss sp s).chans = s.chans ∧ (State.egressLoss sp s).seqs = s.seqs ∧
    (State.egressLoss sp s).hc = s.hc ∧ (State.egressLoss sp s).trim = s.trim ∧
    (State.egressLoss sp s).bundles = s.bundles ∧ (State.egressLoss sp s).slots = s.slots ∧
    (State.egressLoss sp s).wt = s.wt ∧ (State.egressLoss sp s).mem = s.mem ∧
    (State.egressLoss sp s).fwMem = s.fwMem ∧ (State.egressLoss sp s).ms = s.ms ∧
    (State.egressLoss sp s).pricks = s.pricks ∧ (State.egressLoss sp s).templates = s.templates ∧
    (State.egressLoss sp s).jobs = s.jobs ∧ (State.egressLoss sp s).order = s.order ∧
    (State.egressLoss sp s).pillows = s.pillows ∧ (State.egressLoss sp s).free = s.free := by
  have hF0 := @State.report_frame
  have hF1 := @State.setService_frame
  unfold State.egressLoss; simp [hF0, hF1]

theorem State.egressRecord_frame (sp : Nat) (r : EgRec) (s : State) :
    (State.egressRecord sp r s).now = s.now ∧ (State.egressRecord sp r s).pending = s.pending ∧
    (State.egressRecord sp r s).tb = s.tb ∧ (State.egressRecord sp r s).sheets = s.sheets ∧
    (State.egressRecord sp r s).units = s.units ∧ (State.egressRecord sp r s).pins = s.pins ∧
    (State.egressRecord sp r s).pk = s.pk ∧ (State.egressRecord sp r s).errw = s.errw ∧
    (State.egressRecord sp r s).bulk = s.bulk ∧ (State.egressRecord sp r s).mgmt = s.mgmt ∧
    (State.egressRecord sp r s).power = s.power ∧ (State.egressRecord sp r s).sec = s.sec ∧
    (State.egressRecord sp r s).therm = s.therm ∧ (State.egressRecord sp r s).ports = s.ports ∧
    (State.egressRecord sp r s).streams = s.streams ∧ (State.egressRecord sp r s).ptpPorts = s.ptpPorts ∧
    (State.egressRecord sp r s).chans = s.chans ∧ (State.egressRecord sp r s).seqs = s.seqs ∧
    (State.egressRecord sp r s).hc = s.hc ∧ (State.egressRecord sp r s).trim = s.trim ∧
    (State.egressRecord sp r s).bundles = s.bundles ∧ (State.egressRecord sp r s).slots = s.slots ∧
    (State.egressRecord sp r s).wt = s.wt ∧ (State.egressRecord sp r s).mem = s.mem ∧
    (State.egressRecord sp r s).fwMem = s.fwMem ∧ (State.egressRecord sp r s).ms = s.ms ∧
    (State.egressRecord sp r s).pricks = s.pricks ∧ (State.egressRecord sp r s).templates = s.templates ∧
    (State.egressRecord sp r s).jobs = s.jobs ∧ (State.egressRecord sp r s).order = s.order ∧
    (State.egressRecord sp r s).pillows = s.pillows ∧ (State.egressRecord sp r s).free = s.free := by
  have hF0 := @State.egress_frame
  have hF1 := @State.modService_frame
  have hF2 := @State.egressLoss_frame
  unfold State.egressRecord; simp [hF0, hF1, hF2]

theorem State.compareMasters_frame (s : State) : (State.compareMasters s).now = s.now ∧
    (State.compareMasters s).pending = s.pending ∧ (State.compareMasters s).tb = s.tb ∧
    (State.compareMasters s).sheets = s.sheets ∧ (State.compareMasters s).units = s.units ∧
    (State.compareMasters s).pins = s.pins ∧ (State.compareMasters s).pk = s.pk ∧
    (State.compareMasters s).queues = s.queues ∧ (State.compareMasters s).latches = s.latches ∧
    (State.compareMasters s).errw = s.errw ∧ (State.compareMasters s).sdio = s.sdio ∧
    (State.compareMasters s).bulk = s.bulk ∧ (State.compareMasters s).mgmt = s.mgmt ∧
    (State.compareMasters s).power = s.power ∧ (State.compareMasters s).sec = s.sec ∧
    (State.compareMasters s).therm = s.therm ∧ (State.compareMasters s).ports = s.ports ∧
    (State.compareMasters s).streams = s.streams ∧ (State.compareMasters s).services = s.services ∧
    (State.compareMasters s).chans = s.chans ∧ (State.compareMasters s).seqs = s.seqs ∧
    (State.compareMasters s).hc = s.hc ∧ (State.compareMasters s).trim = s.trim ∧
    (State.compareMasters s).bundles = s.bundles ∧ (State.compareMasters s).slots = s.slots ∧
    (State.compareMasters s).wt = s.wt ∧ (State.compareMasters s).mem = s.mem ∧
    (State.compareMasters s).fwMem = s.fwMem ∧ (State.compareMasters s).ms = s.ms ∧
    (State.compareMasters s).pricks = s.pricks ∧ (State.compareMasters s).templates = s.templates ∧
    (State.compareMasters s).jobs = s.jobs ∧ (State.compareMasters s).order = s.order ∧
    (State.compareMasters s).pillows = s.pillows ∧ (State.compareMasters s).free = s.free := by
  have hF0 := @State.modPtpPort_frame
  unfold State.compareMasters; simp [hF0]

theorem State.linkFalls_frame (port : Nat) (s : State) : (State.linkFalls port s).now = s.now ∧
    (State.linkFalls port s).pending = s.pending ∧ (State.linkFalls port s).tb = s.tb ∧
    (State.linkFalls port s).sheets = s.sheets ∧ (State.linkFalls port s).units = s.units ∧
    (State.linkFalls port s).pins = s.pins ∧ (State.linkFalls port s).pk = s.pk ∧
    (State.linkFalls port s).errw = s.errw ∧ (State.linkFalls port s).bulk = s.bulk ∧
    (State.linkFalls port s).mgmt = s.mgmt ∧ (State.linkFalls port s).power = s.power ∧
    (State.linkFalls port s).sec = s.sec ∧ (State.linkFalls port s).therm = s.therm ∧
    (State.linkFalls port s).streams = s.streams ∧ (State.linkFalls port s).services = s.services ∧
    (State.linkFalls port s).ptpPorts = s.ptpPorts ∧ (State.linkFalls port s).ptp = s.ptp ∧
    (State.linkFalls port s).chans = s.chans ∧ (State.linkFalls port s).seqs = s.seqs ∧
    (State.linkFalls port s).hc = s.hc ∧ (State.linkFalls port s).trim = s.trim ∧
    (State.linkFalls port s).bundles = s.bundles ∧ (State.linkFalls port s).slots = s.slots ∧
    (State.linkFalls port s).wt = s.wt ∧ (State.linkFalls port s).mem = s.mem ∧
    (State.linkFalls port s).fwMem = s.fwMem ∧ (State.linkFalls port s).ms = s.ms ∧
    (State.linkFalls port s).pricks = s.pricks ∧ (State.linkFalls port s).templates = s.templates ∧
    (State.linkFalls port s).jobs = s.jobs ∧ (State.linkFalls port s).order = s.order ∧
    (State.linkFalls port s).pillows = s.pillows ∧ (State.linkFalls port s).free = s.free := by
  have hF0 := @State.report_frame
  have hF1 := @State.setPort_frame
  unfold State.linkFalls; simp [hF0, hF1]

theorem linkDo_frame (h : Hdr) (p : LinkParams) (s : State) : (linkDo h p s).now = s.now ∧
    (linkDo h p s).pending = s.pending ∧ (linkDo h p s).tb = s.tb ∧ (linkDo h p s).sheets = s.sheets ∧
    (linkDo h p s).units = s.units ∧ (linkDo h p s).pins = s.pins ∧ (linkDo h p s).pk = s.pk ∧
    (linkDo h p s).errw = s.errw ∧ (linkDo h p s).bulk = s.bulk ∧ (linkDo h p s).sec = s.sec ∧
    (linkDo h p s).therm = s.therm ∧ (linkDo h p s).streams = s.streams ∧
    (linkDo h p s).services = s.services ∧ (linkDo h p s).chans = s.chans ∧ (linkDo h p s).seqs = s.seqs ∧
    (linkDo h p s).hc = s.hc ∧ (linkDo h p s).trim = s.trim ∧ (linkDo h p s).bundles = s.bundles ∧
    (linkDo h p s).slots = s.slots ∧ (linkDo h p s).wt = s.wt ∧ (linkDo h p s).mem = s.mem ∧
    (linkDo h p s).fwMem = s.fwMem ∧ (linkDo h p s).ms = s.ms ∧ (linkDo h p s).pricks = s.pricks ∧
    (linkDo h p s).templates = s.templates ∧ (linkDo h p s).jobs = s.jobs ∧ (linkDo h p s).order = s.order ∧
    (linkDo h p s).pillows = s.pillows ∧ (linkDo h p s).free = s.free := by
  have hF0 := @State.modPort_frame
  have hF1 := @State.modPtpPort_frame
  have hF2 := @State.done_frame
  have hF3 := @State.compareMasters_frame
  have hF4 := @State.linkFalls_frame
  unfold linkDo; simp [hF0, hF1, hF2, hF3, hF4]

theorem gatesDo_frame (h : Hdr) (p : GatesParams) (s : State) : (gatesDo h p s).now = s.now ∧
    (gatesDo h p s).pending = s.pending ∧ (gatesDo h p s).tb = s.tb ∧ (gatesDo h p s).sheets = s.sheets ∧
    (gatesDo h p s).units = s.units ∧ (gatesDo h p s).pins = s.pins ∧ (gatesDo h p s).pk = s.pk ∧
    (gatesDo h p s).latches = s.latches ∧ (gatesDo h p s).errw = s.errw ∧ (gatesDo h p s).bulk = s.bulk ∧
    (gatesDo h p s).power = s.power ∧ (gatesDo h p s).sec = s.sec ∧ (gatesDo h p s).therm = s.therm ∧
    (gatesDo h p s).ports = s.ports ∧ (gatesDo h p s).streams = s.streams ∧
    (gatesDo h p s).ptpPorts = s.ptpPorts ∧ (gatesDo h p s).chans = s.chans ∧
    (gatesDo h p s).seqs = s.seqs ∧ (gatesDo h p s).hc = s.hc ∧ (gatesDo h p s).trim = s.trim ∧
    (gatesDo h p s).bundles = s.bundles ∧ (gatesDo h p s).slots = s.slots ∧ (gatesDo h p s).wt = s.wt ∧
    (gatesDo h p s).mem = s.mem ∧ (gatesDo h p s).fwMem = s.fwMem ∧ (gatesDo h p s).ms = s.ms ∧
    (gatesDo h p s).pricks = s.pricks ∧ (gatesDo h p s).templates = s.templates ∧
    (gatesDo h p s).jobs = s.jobs ∧ (gatesDo h p s).order = s.order ∧ (gatesDo h p s).pillows = s.pillows ∧
    (gatesDo h p s).free = s.free := by
  have hF0 := @State.refuse_frame
  have hF1 := @State.egress_frame
  have hF2 := @State.setService_frame
  have hF3 := @State.done_frame
  unfold gatesDo; dsimp only; (repeat' split) <;> simp [hF0, hF1, hF2, hF3]

theorem State.queueReply_frame (sp : Nat) (f : EgFrame) (s : State) :
    (State.queueReply sp f s).now = s.now ∧ (State.queueReply sp f s).pending = s.pending ∧
    (State.queueReply sp f s).tb = s.tb ∧ (State.queueReply sp f s).sheets = s.sheets ∧
    (State.queueReply sp f s).units = s.units ∧ (State.queueReply sp f s).pins = s.pins ∧
    (State.queueReply sp f s).pk = s.pk ∧ (State.queueReply sp f s).queues = s.queues ∧
    (State.queueReply sp f s).latches = s.latches ∧ (State.queueReply sp f s).errw = s.errw ∧
    (State.queueReply sp f s).sdio = s.sdio ∧ (State.queueReply sp f s).bulk = s.bulk ∧
    (State.queueReply sp f s).mgmt = s.mgmt ∧ (State.queueReply sp f s).power = s.power ∧
    (State.queueReply sp f s).sec = s.sec ∧ (State.queueReply sp f s).therm = s.therm ∧
    (State.queueReply sp f s).ports = s.ports ∧ (State.queueReply sp f s).streams = s.streams ∧
    (State.queueReply sp f s).ptpPorts = s.ptpPorts ∧ (State.queueReply sp f s).chans = s.chans ∧
    (State.queueReply sp f s).seqs = s.seqs ∧ (State.queueReply sp f s).hc = s.hc ∧
    (State.queueReply sp f s).trim = s.trim ∧ (State.queueReply sp f s).bundles = s.bundles ∧
    (State.queueReply sp f s).slots = s.slots ∧ (State.queueReply sp f s).wt = s.wt ∧
    (State.queueReply sp f s).mem = s.mem ∧ (State.queueReply sp f s).fwMem = s.fwMem ∧
    (State.queueReply sp f s).ms = s.ms ∧ (State.queueReply sp f s).pricks = s.pricks ∧
    (State.queueReply sp f s).templates = s.templates ∧ (State.queueReply sp f s).jobs = s.jobs ∧
    (State.queueReply sp f s).order = s.order ∧ (State.queueReply sp f s).pillows = s.pillows ∧
    (State.queueReply sp f s).free = s.free := by
  have hF0 := @State.egress_frame
  have hF1 := @State.modService_frame
  unfold State.queueReply; simp [hF0, hF1]

theorem State.newRaster_frame (sp : Nat) (id : BitVec 32) (s : State) :
    (State.newRaster sp id s).now = s.now ∧ (State.newRaster sp id s).pending = s.pending ∧
    (State.newRaster sp id s).tb = s.tb ∧ (State.newRaster sp id s).sheets = s.sheets ∧
    (State.newRaster sp id s).units = s.units ∧ (State.newRaster sp id s).pins = s.pins ∧
    (State.newRaster sp id s).pk = s.pk ∧ (State.newRaster sp id s).latches = s.latches ∧
    (State.newRaster sp id s).errw = s.errw ∧ (State.newRaster sp id s).bulk = s.bulk ∧
    (State.newRaster sp id s).mgmt = s.mgmt ∧ (State.newRaster sp id s).power = s.power ∧
    (State.newRaster sp id s).sec = s.sec ∧ (State.newRaster sp id s).therm = s.therm ∧
    (State.newRaster sp id s).ports = s.ports ∧ (State.newRaster sp id s).streams = s.streams ∧
    (State.newRaster sp id s).ptpPorts = s.ptpPorts ∧ (State.newRaster sp id s).ptp = s.ptp ∧
    (State.newRaster sp id s).chans = s.chans ∧ (State.newRaster sp id s).seqs = s.seqs ∧
    (State.newRaster sp id s).hc = s.hc ∧ (State.newRaster sp id s).trim = s.trim ∧
    (State.newRaster sp id s).bundles = s.bundles ∧ (State.newRaster sp id s).slots = s.slots ∧
    (State.newRaster sp id s).wt = s.wt ∧ (State.newRaster sp id s).mem = s.mem ∧
    (State.newRaster sp id s).fwMem = s.fwMem ∧ (State.newRaster sp id s).ms = s.ms ∧
    (State.newRaster sp id s).pricks = s.pricks ∧ (State.newRaster sp id s).templates = s.templates ∧
    (State.newRaster sp id s).jobs = s.jobs ∧ (State.newRaster sp id s).order = s.order ∧
    (State.newRaster sp id s).pillows = s.pillows ∧ (State.newRaster sp id s).free = s.free := by
  have hF0 := @State.event_frame
  have hF1 := @State.setService_frame
  unfold State.newRaster; dsimp only; (repeat' split) <;> simp [hF0, hF1]

theorem State.storePages_frame (asid : Nat) (x0 : List (Nat × Nat)) (x1 : Bytes) (x2 : State) :
    (State.storePages asid x0 x1 x2).now = x2.now ∧ (State.storePages asid x0 x1 x2).pending = x2.pending ∧
    (State.storePages asid x0 x1 x2).tb = x2.tb ∧ (State.storePages asid x0 x1 x2).sheets = x2.sheets ∧
    (State.storePages asid x0 x1 x2).units = x2.units ∧ (State.storePages asid x0 x1 x2).pins = x2.pins ∧
    (State.storePages asid x0 x1 x2).pk = x2.pk ∧ (State.storePages asid x0 x1 x2).errw = x2.errw ∧
    (State.storePages asid x0 x1 x2).bulk = x2.bulk ∧ (State.storePages asid x0 x1 x2).mgmt = x2.mgmt ∧
    (State.storePages asid x0 x1 x2).power = x2.power ∧ (State.storePages asid x0 x1 x2).sec = x2.sec ∧
    (State.storePages asid x0 x1 x2).therm = x2.therm ∧
    (State.storePages asid x0 x1 x2).streams = x2.streams ∧
    (State.storePages asid x0 x1 x2).services = x2.services ∧
    (State.storePages asid x0 x1 x2).ptpPorts = x2.ptpPorts ∧
    (State.storePages asid x0 x1 x2).ptp = x2.ptp ∧ (State.storePages asid x0 x1 x2).chans = x2.chans ∧
    (State.storePages asid x0 x1 x2).seqs = x2.seqs ∧ (State.storePages asid x0 x1 x2).hc = x2.hc ∧
    (State.storePages asid x0 x1 x2).trim = x2.trim ∧
    (State.storePages asid x0 x1 x2).bundles = x2.bundles ∧
    (State.storePages asid x0 x1 x2).slots = x2.slots ∧ (State.storePages asid x0 x1 x2).wt = x2.wt ∧
    (State.storePages asid x0 x1 x2).fwMem = x2.fwMem ∧
    (State.storePages asid x0 x1 x2).pricks = x2.pricks ∧
    (State.storePages asid x0 x1 x2).templates = x2.templates ∧
    (State.storePages asid x0 x1 x2).order = x2.order ∧
    (State.storePages asid x0 x1 x2).free = x2.free := by
  have hF0 := @State.storeBy_frame
  induction x0 generalizing x1 x2 <;> (unfold State.storePages; (repeat' split) <;> simp [*])

@[simp] theorem State.storePages_wf (asid : Nat) (x0 : List (Nat × Nat)) (x1 : Bytes) (x2 : State) (hm : Memory.wf x2.mem = true) :
    Memory.wf (State.storePages asid x0 x1 x2).mem = true := by
  induction x0 generalizing x1 x2 hm <;> (unfold State.storePages; (repeat' split) <;> simp [*])

theorem State.takeRaster_frame (sp : Nat) (b : Bytes) (s : State) : (State.takeRaster sp b s).now = s.now ∧
    (State.takeRaster sp b s).pending = s.pending ∧ (State.takeRaster sp b s).tb = s.tb ∧
    (State.takeRaster sp b s).sheets = s.sheets ∧ (State.takeRaster sp b s).units = s.units ∧
    (State.takeRaster sp b s).pins = s.pins ∧ (State.takeRaster sp b s).pk = s.pk ∧
    (State.takeRaster sp b s).errw = s.errw ∧ (State.takeRaster sp b s).bulk = s.bulk ∧
    (State.takeRaster sp b s).mgmt = s.mgmt ∧ (State.takeRaster sp b s).power = s.power ∧
    (State.takeRaster sp b s).sec = s.sec ∧ (State.takeRaster sp b s).therm = s.therm ∧
    (State.takeRaster sp b s).streams = s.streams ∧ (State.takeRaster sp b s).ptpPorts = s.ptpPorts ∧
    (State.takeRaster sp b s).ptp = s.ptp ∧ (State.takeRaster sp b s).chans = s.chans ∧
    (State.takeRaster sp b s).seqs = s.seqs ∧ (State.takeRaster sp b s).hc = s.hc ∧
    (State.takeRaster sp b s).trim = s.trim ∧ (State.takeRaster sp b s).bundles = s.bundles ∧
    (State.takeRaster sp b s).slots = s.slots ∧ (State.takeRaster sp b s).wt = s.wt ∧
    (State.takeRaster sp b s).fwMem = s.fwMem ∧ (State.takeRaster sp b s).pricks = s.pricks ∧
    (State.takeRaster sp b s).templates = s.templates ∧ (State.takeRaster sp b s).order = s.order ∧
    (State.takeRaster sp b s).free = s.free := by
  have hF0 := @State.setService_frame
  have hF1 := @State.event_frame
  have hF2 := @State.newRaster_frame
  have hF3 := @State.storePages_frame
  unfold State.takeRaster; simp [hF0, hF1, hF2, hF3]

@[simp] theorem State.takeRaster_wf (sp : Nat) (b : Bytes) (s : State) (hm : Memory.wf s.mem = true) :
    Memory.wf (State.takeRaster sp b s).mem = true := by
  have hF0 := @State.setService_frame
  have hF1 := @State.event_frame
  have hF2 := @State.newRaster_frame
  unfold State.takeRaster; simp [hF0, hF1, hF2, hm]

theorem State.ptpReport_frame (cause : Nat) (s : State) : (State.ptpReport cause s).now = s.now ∧
    (State.ptpReport cause s).pending = s.pending ∧ (State.ptpReport cause s).tb = s.tb ∧
    (State.ptpReport cause s).sheets = s.sheets ∧ (State.ptpReport cause s).units = s.units ∧
    (State.ptpReport cause s).pins = s.pins ∧ (State.ptpReport cause s).pk = s.pk ∧
    (State.ptpReport cause s).errw = s.errw ∧ (State.ptpReport cause s).bulk = s.bulk ∧
    (State.ptpReport cause s).mgmt = s.mgmt ∧ (State.ptpReport cause s).power = s.power ∧
    (State.ptpReport cause s).sec = s.sec ∧ (State.ptpReport cause s).therm = s.therm ∧
    (State.ptpReport cause s).ports = s.ports ∧ (State.ptpReport cause s).streams = s.streams ∧
    (State.ptpReport cause s).services = s.services ∧ (State.ptpReport cause s).ptpPorts = s.ptpPorts ∧
    (State.ptpReport cause s).ptp = s.ptp ∧ (State.ptpReport cause s).chans = s.chans ∧
    (State.ptpReport cause s).seqs = s.seqs ∧ (State.ptpReport cause s).hc = s.hc ∧
    (State.ptpReport cause s).trim = s.trim ∧ (State.ptpReport cause s).bundles = s.bundles ∧
    (State.ptpReport cause s).slots = s.slots ∧ (State.ptpReport cause s).wt = s.wt ∧
    (State.ptpReport cause s).mem = s.mem ∧ (State.ptpReport cause s).fwMem = s.fwMem ∧
    (State.ptpReport cause s).ms = s.ms ∧ (State.ptpReport cause s).pricks = s.pricks ∧
    (State.ptpReport cause s).templates = s.templates ∧ (State.ptpReport cause s).jobs = s.jobs ∧
    (State.ptpReport cause s).order = s.order ∧ (State.ptpReport cause s).pillows = s.pillows ∧
    (State.ptpReport cause s).free = s.free := by
  have hF0 := @State.report_frame
  unfold State.ptpReport; simp [hF0]

theorem State.ptpUnlock_frame (s : State) : (State.ptpUnlock s).now = s.now ∧
    (State.ptpUnlock s).pending = s.pending ∧ (State.ptpUnlock s).tb = s.tb ∧
    (State.ptpUnlock s).sheets = s.sheets ∧ (State.ptpUnlock s).units = s.units ∧
    (State.ptpUnlock s).pins = s.pins ∧ (State.ptpUnlock s).pk = s.pk ∧ (State.ptpUnlock s).errw = s.errw ∧
    (State.ptpUnlock s).bulk = s.bulk ∧ (State.ptpUnlock s).mgmt = s.mgmt ∧
    (State.ptpUnlock s).power = s.power ∧ (State.ptpUnlock s).sec = s.sec ∧
    (State.ptpUnlock s).therm = s.therm ∧ (State.ptpUnlock s).ports = s.ports ∧
    (State.ptpUnlock s).streams = s.streams ∧ (State.ptpUnlock s).services = s.services ∧
    (State.ptpUnlock s).ptpPorts = s.ptpPorts ∧ (State.ptpUnlock s).chans = s.chans ∧
    (State.ptpUnlock s).seqs = s.seqs ∧ (State.ptpUnlock s).hc = s.hc ∧ (State.ptpUnlock s).trim = s.trim ∧
    (State.ptpUnlock s).bundles = s.bundles ∧ (State.ptpUnlock s).slots = s.slots ∧
    (State.ptpUnlock s).wt = s.wt ∧ (State.ptpUnlock s).mem = s.mem ∧ (State.ptpUnlock s).fwMem = s.fwMem ∧
    (State.ptpUnlock s).ms = s.ms ∧ (State.ptpUnlock s).pricks = s.pricks ∧
    (State.ptpUnlock s).templates = s.templates ∧ (State.ptpUnlock s).jobs = s.jobs ∧
    (State.ptpUnlock s).order = s.order ∧ (State.ptpUnlock s).pillows = s.pillows ∧
    (State.ptpUnlock s).free = s.free := by
  have hF0 := @State.ptpReport_frame
  unfold State.ptpUnlock; simp [hF0]

theorem State.servo_frame (origin : Int) (recv : Nat) (s : State) :
    (State.servo origin recv s).now = s.now ∧ (State.servo origin recv s).pending = s.pending ∧
    (State.servo origin recv s).tb = s.tb ∧ (State.servo origin recv s).sheets = s.sheets ∧
    (State.servo origin recv s).units = s.units ∧ (State.servo origin recv s).pins = s.pins ∧
    (State.servo origin recv s).pk = s.pk ∧ (State.servo origin recv s).errw = s.errw ∧
    (State.servo origin recv s).bulk = s.bulk ∧ (State.servo origin recv s).mgmt = s.mgmt ∧
    (State.servo origin recv s).power = s.power ∧ (State.servo origin recv s).sec = s.sec ∧
    (State.servo origin recv s).therm = s.therm ∧ (State.servo origin recv s).ports = s.ports ∧
    (State.servo origin recv s).streams = s.streams ∧ (State.servo origin recv s).services = s.services ∧
    (State.servo origin recv s).ptpPorts = s.ptpPorts ∧ (State.servo origin recv s).chans = s.chans ∧
    (State.servo origin recv s).seqs = s.seqs ∧ (State.servo origin recv s).hc = s.hc ∧
    (State.servo origin recv s).trim = s.trim ∧ (State.servo origin recv s).bundles = s.bundles ∧
    (State.servo origin recv s).slots = s.slots ∧ (State.servo origin recv s).wt = s.wt ∧
    (State.servo origin recv s).mem = s.mem ∧ (State.servo origin recv s).fwMem = s.fwMem ∧
    (State.servo origin recv s).ms = s.ms ∧ (State.servo origin recv s).pricks = s.pricks ∧
    (State.servo origin recv s).templates = s.templates ∧ (State.servo origin recv s).jobs = s.jobs ∧
    (State.servo origin recv s).order = s.order ∧ (State.servo origin recv s).pillows = s.pillows ∧
    (State.servo origin recv s).free = s.free := by
  have hF0 := @State.ptpReport_frame
  have hF1 := @State.ptpUnlock_frame
  unfold State.servo; simp [hF0, hF1]

theorem State.ptpTake_frame (k : Nat) (m : PtpMsg) (s : State) : (State.ptpTake k m s).now = s.now ∧
    (State.ptpTake k m s).pending = s.pending ∧ (State.ptpTake k m s).tb = s.tb ∧
    (State.ptpTake k m s).sheets = s.sheets ∧ (State.ptpTake k m s).units = s.units ∧
    (State.ptpTake k m s).pins = s.pins ∧ (State.ptpTake k m s).pk = s.pk ∧
    (State.ptpTake k m s).errw = s.errw ∧ (State.ptpTake k m s).bulk = s.bulk ∧
    (State.ptpTake k m s).mgmt = s.mgmt ∧ (State.ptpTake k m s).power = s.power ∧
    (State.ptpTake k m s).sec = s.sec ∧ (State.ptpTake k m s).therm = s.therm ∧
    (State.ptpTake k m s).ports = s.ports ∧ (State.ptpTake k m s).streams = s.streams ∧
    (State.ptpTake k m s).services = s.services ∧ (State.ptpTake k m s).chans = s.chans ∧
    (State.ptpTake k m s).seqs = s.seqs ∧ (State.ptpTake k m s).hc = s.hc ∧
    (State.ptpTake k m s).trim = s.trim ∧ (State.ptpTake k m s).bundles = s.bundles ∧
    (State.ptpTake k m s).slots = s.slots ∧ (State.ptpTake k m s).wt = s.wt ∧
    (State.ptpTake k m s).mem = s.mem ∧ (State.ptpTake k m s).fwMem = s.fwMem ∧
    (State.ptpTake k m s).ms = s.ms ∧ (State.ptpTake k m s).pricks = s.pricks ∧
    (State.ptpTake k m s).templates = s.templates ∧ (State.ptpTake k m s).jobs = s.jobs ∧
    (State.ptpTake k m s).order = s.order ∧ (State.ptpTake k m s).pillows = s.pillows ∧
    (State.ptpTake k m s).free = s.free := by
  have hF0 := @State.compareMasters_frame
  have hF1 := @State.modPtpPort_frame
  have hF2 := @State.servo_frame
  unfold State.ptpTake; dsimp only; (repeat' split) <;> simp [hF0, hF1, hF2]

/-! ## Thermal -/

theorem State.stepTime_frame (s : State) : (State.stepTime s).now = s.now ∧
    (State.stepTime s).pending = s.pending ∧ (State.stepTime s).tb = s.tb ∧
    (State.stepTime s).sheets = s.sheets ∧ (State.stepTime s).units = s.units ∧
    (State.stepTime s).pins = s.pins ∧ (State.stepTime s).pk = s.pk ∧ (State.stepTime s).queues = s.queues ∧
    (State.stepTime s).latches = s.latches ∧ (State.stepTime s).errw = s.errw ∧
    (State.stepTime s).sdio = s.sdio ∧ (State.stepTime s).bulk = s.bulk ∧ (State.stepTime s).mgmt = s.mgmt ∧
    (State.stepTime s).power = s.power ∧ (State.stepTime s).sec = s.sec ∧
    (State.stepTime s).ports = s.ports ∧ (State.stepTime s).streams = s.streams ∧
    (State.stepTime s).services = s.services ∧ (State.stepTime s).ptpPorts = s.ptpPorts ∧
    (State.stepTime s).ptp = s.ptp ∧ (State.stepTime s).chans = s.chans ∧ (State.stepTime s).seqs = s.seqs ∧
    (State.stepTime s).hc = s.hc ∧ (State.stepTime s).trim = s.trim ∧
    (State.stepTime s).bundles = s.bundles ∧ (State.stepTime s).slots = s.slots ∧
    (State.stepTime s).wt = s.wt ∧ (State.stepTime s).mem = s.mem ∧ (State.stepTime s).fwMem = s.fwMem ∧
    (State.stepTime s).pricks = s.pricks ∧ (State.stepTime s).templates = s.templates ∧
    (State.stepTime s).jobs = s.jobs ∧ (State.stepTime s).order = s.order ∧
    (State.stepTime s).pillows = s.pillows ∧ (State.stepTime s).free = s.free := by
  unfold State.stepTime; dsimp only; (repeat' split) <;> simp

/-! ## Integrity -/

theorem State.fillStaging_frame (p : Nat) (v : Byte) (s : State) : (State.fillStaging p v s).now = s.now ∧
    (State.fillStaging p v s).pending = s.pending ∧ (State.fillStaging p v s).tb = s.tb ∧
    (State.fillStaging p v s).sheets = s.sheets ∧ (State.fillStaging p v s).units = s.units ∧
    (State.fillStaging p v s).pins = s.pins ∧ (State.fillStaging p v s).pk = s.pk ∧
    (State.fillStaging p v s).queues = s.queues ∧ (State.fillStaging p v s).latches = s.latches ∧
    (State.fillStaging p v s).errw = s.errw ∧ (State.fillStaging p v s).sdio = s.sdio ∧
    (State.fillStaging p v s).bulk = s.bulk ∧ (State.fillStaging p v s).mgmt = s.mgmt ∧
    (State.fillStaging p v s).power = s.power ∧ (State.fillStaging p v s).sec = s.sec ∧
    (State.fillStaging p v s).therm = s.therm ∧ (State.fillStaging p v s).ports = s.ports ∧
    (State.fillStaging p v s).streams = s.streams ∧ (State.fillStaging p v s).services = s.services ∧
    (State.fillStaging p v s).ptpPorts = s.ptpPorts ∧ (State.fillStaging p v s).ptp = s.ptp ∧
    (State.fillStaging p v s).chans = s.chans ∧ (State.fillStaging p v s).seqs = s.seqs ∧
    (State.fillStaging p v s).hc = s.hc ∧ (State.fillStaging p v s).trim = s.trim ∧
    (State.fillStaging p v s).bundles = s.bundles ∧ (State.fillStaging p v s).slots = s.slots ∧
    (State.fillStaging p v s).wt = s.wt ∧ (State.fillStaging p v s).mem = s.mem ∧
    (State.fillStaging p v s).fwMem = s.fwMem ∧ (State.fillStaging p v s).ms = s.ms ∧
    (State.fillStaging p v s).pricks = s.pricks ∧ (State.fillStaging p v s).templates = s.templates ∧
    (State.fillStaging p v s).jobs = s.jobs ∧ (State.fillStaging p v s).order = s.order ∧
    (State.fillStaging p v s).free = s.free := by
  have hF0 := @State.modBobbin_frame
  unfold State.fillStaging; simp [hF0]

theorem State.marchFill_frame (target : Nat) (index : Nat) (s : State) :
    (State.marchFill target index s).now = s.now ∧ (State.marchFill target index s).pending = s.pending ∧
    (State.marchFill target index s).tb = s.tb ∧ (State.marchFill target index s).sheets = s.sheets ∧
    (State.marchFill target index s).units = s.units ∧ (State.marchFill target index s).pins = s.pins ∧
    (State.marchFill target index s).pk = s.pk ∧ (State.marchFill target index s).queues = s.queues ∧
    (State.marchFill target index s).latches = s.latches ∧ (State.marchFill target index s).errw = s.errw ∧
    (State.marchFill target index s).sdio = s.sdio ∧ (State.marchFill target index s).bulk = s.bulk ∧
    (State.marchFill target index s).mgmt = s.mgmt ∧ (State.marchFill target index s).power = s.power ∧
    (State.marchFill target index s).sec = s.sec ∧ (State.marchFill target index s).therm = s.therm ∧
    (State.marchFill target index s).ports = s.ports ∧
    (State.marchFill target index s).streams = s.streams ∧
    (State.marchFill target index s).services = s.services ∧
    (State.marchFill target index s).ptpPorts = s.ptpPorts ∧ (State.marchFill target index s).ptp = s.ptp ∧
    (State.marchFill target index s).chans = s.chans ∧ (State.marchFill target index s).seqs = s.seqs ∧
    (State.marchFill target index s).hc = s.hc ∧ (State.marchFill target index s).trim = s.trim ∧
    (State.marchFill target index s).bundles = s.bundles ∧
    (State.marchFill target index s).slots = s.slots ∧ (State.marchFill target index s).wt = s.wt ∧
    (State.marchFill target index s).fwMem = s.fwMem ∧ (State.marchFill target index s).pricks = s.pricks ∧
    (State.marchFill target index s).templates = s.templates ∧
    (State.marchFill target index s).jobs = s.jobs ∧ (State.marchFill target index s).order = s.order ∧
    (State.marchFill target index s).free = s.free := by
  have hF0 := @State.fillStaging_frame
  have hF1 := @State.fill_frame
  unfold State.marchFill; simp [hF0, hF1]

@[simp] theorem State.marchFill_wf (target : Nat) (index : Nat) (s : State) (hm : Memory.wf s.mem = true) :
    Memory.wf (State.marchFill target index s).mem = true := by
  have hF0 := @State.fillStaging_frame
  unfold State.marchFill; simp [hF0, hm]

theorem State.gateQuarter_frame (q : Nat) (s : State) : (State.gateQuarter q s).now = s.now ∧
    (State.gateQuarter q s).pending = s.pending ∧ (State.gateQuarter q s).tb = s.tb ∧
    (State.gateQuarter q s).sheets = s.sheets ∧ (State.gateQuarter q s).units = s.units ∧
    (State.gateQuarter q s).pins = s.pins ∧ (State.gateQuarter q s).pk = s.pk ∧
    (State.gateQuarter q s).queues = s.queues ∧ (State.gateQuarter q s).latches = s.latches ∧
    (State.gateQuarter q s).errw = s.errw ∧ (State.gateQuarter q s).sdio = s.sdio ∧
    (State.gateQuarter q s).bulk = s.bulk ∧ (State.gateQuarter q s).mgmt = s.mgmt ∧
    (State.gateQuarter q s).sec = s.sec ∧ (State.gateQuarter q s).therm = s.therm ∧
    (State.gateQuarter q s).streams = s.streams ∧ (State.gateQuarter q s).ptpPorts = s.ptpPorts ∧
    (State.gateQuarter q s).ptp = s.ptp ∧ (State.gateQuarter q s).chans = s.chans ∧
    (State.gateQuarter q s).seqs = s.seqs ∧ (State.gateQuarter q s).hc = s.hc ∧
    (State.gateQuarter q s).trim = s.trim ∧ (State.gateQuarter q s).bundles = s.bundles ∧
    (State.gateQuarter q s).slots = s.slots ∧ (State.gateQuarter q s).wt = s.wt ∧
    (State.gateQuarter q s).fwMem = s.fwMem ∧ (State.gateQuarter q s).pricks = s.pricks ∧
    (State.gateQuarter q s).templates = s.templates ∧ (State.gateQuarter q s).jobs = s.jobs ∧
    (State.gateQuarter q s).order = s.order ∧ (State.gateQuarter q s).free = s.free := by
  have hF0 := @State.loseDomain_frame
  unfold State.gateQuarter; simp [hF0]

@[simp] theorem State.gateQuarter_wf (q : Nat) (s : State) (hm : Memory.wf s.mem = true) :
    Memory.wf (State.gateQuarter q s).mem = true := by
  unfold State.gateQuarter; simp [hm]

theorem State.failMarched_frame (x0 : List Nat) (x1 : List Nat × State) :
    (State.failMarched x0 x1).2.now = x1.2.now ∧ (State.failMarched x0 x1).2.pending = x1.2.pending ∧
    (State.failMarched x0 x1).2.tb = x1.2.tb ∧ (State.failMarched x0 x1).2.sheets = x1.2.sheets ∧
    (State.failMarched x0 x1).2.units = x1.2.units ∧ (State.failMarched x0 x1).2.errw = x1.2.errw ∧
    (State.failMarched x0 x1).2.bulk = x1.2.bulk ∧ (State.failMarched x0 x1).2.sec = x1.2.sec ∧
    (State.failMarched x0 x1).2.therm = x1.2.therm ∧ (State.failMarched x0 x1).2.streams = x1.2.streams ∧
    (State.failMarched x0 x1).2.ptpPorts = x1.2.ptpPorts ∧ (State.failMarched x0 x1).2.ptp = x1.2.ptp ∧
    (State.failMarched x0 x1).2.chans = x1.2.chans ∧ (State.failMarched x0 x1).2.seqs = x1.2.seqs ∧
    (State.failMarched x0 x1).2.hc = x1.2.hc ∧ (State.failMarched x0 x1).2.trim = x1.2.trim ∧
    (State.failMarched x0 x1).2.bundles = x1.2.bundles ∧ (State.failMarched x0 x1).2.slots = x1.2.slots ∧
    (State.failMarched x0 x1).2.wt = x1.2.wt ∧ (State.failMarched x0 x1).2.fwMem = x1.2.fwMem ∧
    (State.failMarched x0 x1).2.pricks = x1.2.pricks ∧
    (State.failMarched x0 x1).2.templates = x1.2.templates ∧
    (State.failMarched x0 x1).2.order = x1.2.order := by
  have hF0 := @State.failOut_frame
  induction x0 generalizing x1 <;> simp_all [State.failMarched]

@[simp] theorem State.failMarched_wf (x0 : List Nat) (x1 : List Nat × State) (hm : Memory.wf x1.2.mem = true) :
    Memory.wf (State.failMarched x0 x1).2.mem = true := by
  induction x0 generalizing x1 hm <;> simp_all [State.failMarched]

theorem State.marchFailed_frame (target : Nat) (index : Nat) (fails : List Nat) (s : State) :
    (State.marchFailed target index fails s).2.now = s.now ∧
    (State.marchFailed target index fails s).2.pending = s.pending ∧
    (State.marchFailed target index fails s).2.tb = s.tb ∧
    (State.marchFailed target index fails s).2.sheets = s.sheets ∧
    (State.marchFailed target index fails s).2.units = s.units ∧
    (State.marchFailed target index fails s).2.errw = s.errw ∧
    (State.marchFailed target index fails s).2.bulk = s.bulk ∧
    (State.marchFailed target index fails s).2.sec = s.sec ∧
    (State.marchFailed target index fails s).2.therm = s.therm ∧
    (State.marchFailed target index fails s).2.streams = s.streams ∧
    (State.marchFailed target index fails s).2.ptpPorts = s.ptpPorts ∧
    (State.marchFailed target index fails s).2.ptp = s.ptp ∧
    (State.marchFailed target index fails s).2.chans = s.chans ∧
    (State.marchFailed target index fails s).2.seqs = s.seqs ∧
    (State.marchFailed target index fails s).2.hc = s.hc ∧
    (State.marchFailed target index fails s).2.trim = s.trim ∧
    (State.marchFailed target index fails s).2.bundles = s.bundles ∧
    (State.marchFailed target index fails s).2.slots = s.slots ∧
    (State.marchFailed target index fails s).2.wt = s.wt ∧
    (State.marchFailed target index fails s).2.fwMem = s.fwMem ∧
    (State.marchFailed target index fails s).2.pricks = s.pricks ∧
    (State.marchFailed target index fails s).2.templates = s.templates ∧
    (State.marchFailed target index fails s).2.order = s.order := by
  have hF0 := @State.failOut_frame
  have hF1 := @State.failMarched_frame
  have hF2 := @State.gateQuarter_frame
  have hF3 := @State.enterFatal_frame
  have hF4 := @State.draw_frame
  unfold State.marchFailed; simp [hF0, hF1, hF2, hF3, hF4]

@[simp] theorem State.marchFailed_wf (target : Nat) (index : Nat) (fails : List Nat) (s : State) (hm : Memory.wf s.mem = true) :
    Memory.wf (State.marchFailed target index fails s).2.mem = true := by
  have hF0 := @State.enterFatal_frame
  have hF1 := @State.draw_frame
  unfold State.marchFailed
  split
  · simp [hm]
  · split
    · simp [hm]
    · split
      · simp [hm]
      · split
        · exact State.foldl_wf _ _ _ (fun t d ht => by simp [ht]) hm
        · simp [hF0, hF1, hm]

theorem State.marchReplied_frame (s : State) : (State.marchReplied s).now = s.now ∧
    (State.marchReplied s).pending = s.pending ∧ (State.marchReplied s).tb = s.tb ∧
    (State.marchReplied s).sheets = s.sheets ∧ (State.marchReplied s).units = s.units ∧
    (State.marchReplied s).pins = s.pins ∧ (State.marchReplied s).pk = s.pk ∧
    (State.marchReplied s).queues = s.queues ∧ (State.marchReplied s).latches = s.latches ∧
    (State.marchReplied s).errw = s.errw ∧ (State.marchReplied s).sdio = s.sdio ∧
    (State.marchReplied s).bulk = s.bulk ∧ (State.marchReplied s).power = s.power ∧
    (State.marchReplied s).sec = s.sec ∧ (State.marchReplied s).therm = s.therm ∧
    (State.marchReplied s).ports = s.ports ∧ (State.marchReplied s).streams = s.streams ∧
    (State.marchReplied s).services = s.services ∧ (State.marchReplied s).ptpPorts = s.ptpPorts ∧
    (State.marchReplied s).ptp = s.ptp ∧ (State.marchReplied s).chans = s.chans ∧
    (State.marchReplied s).seqs = s.seqs ∧ (State.marchReplied s).hc = s.hc ∧
    (State.marchReplied s).trim = s.trim ∧ (State.marchReplied s).bundles = s.bundles ∧
    (State.marchReplied s).slots = s.slots ∧ (State.marchReplied s).wt = s.wt ∧
    (State.marchReplied s).mem = s.mem ∧ (State.marchReplied s).fwMem = s.fwMem ∧
    (State.marchReplied s).ms = s.ms ∧ (State.marchReplied s).pricks = s.pricks ∧
    (State.marchReplied s).templates = s.templates ∧ (State.marchReplied s).jobs = s.jobs ∧
    (State.marchReplied s).order = s.order ∧ (State.marchReplied s).pillows = s.pillows ∧
    (State.marchReplied s).free = s.free := by
  unfold State.marchReplied; simp

theorem State.marchEnd_frame (h : Hdr) (target : Nat) (form : Nat) (index : Nat) (fails : List Nat) (s : State) :
    (State.marchEnd h target form index fails s).now = s.now ∧
    (State.marchEnd h target form index fails s).pending = s.pending ∧
    (State.marchEnd h target form index fails s).tb = s.tb ∧
    (State.marchEnd h target form index fails s).sheets = s.sheets ∧
    (State.marchEnd h target form index fails s).units = s.units ∧
    (State.marchEnd h target form index fails s).errw = s.errw ∧
    (State.marchEnd h target form index fails s).bulk = s.bulk ∧
    (State.marchEnd h target form index fails s).sec = s.sec ∧
    (State.marchEnd h target form index fails s).therm = s.therm ∧
    (State.marchEnd h target form index fails s).streams = s.streams ∧
    (State.marchEnd h target form index fails s).ptpPorts = s.ptpPorts ∧
    (State.marchEnd h target form index fails s).ptp = s.ptp ∧
    (State.marchEnd h target form index fails s).chans = s.chans ∧
    (State.marchEnd h target form index fails s).seqs = s.seqs ∧
    (State.marchEnd h target form index fails s).hc = s.hc ∧
    (State.marchEnd h target form index fails s).trim = s.trim ∧
    (State.marchEnd h target form index fails s).bundles = s.bundles ∧
    (State.marchEnd h target form index fails s).slots = s.slots ∧
    (State.marchEnd h target form index fails s).wt = s.wt ∧
    (State.marchEnd h target form index fails s).fwMem = s.fwMem ∧
    (State.marchEnd h target form index fails s).pricks = s.pricks ∧
    (State.marchEnd h target form index fails s).templates = s.templates ∧
    (State.marchEnd h target form index fails s).order = s.order := by
  have hF0 := @State.reply_frame
  have hF1 := @State.storeBy_frame
  have hF2 := @State.settlePillows_frame
  have hF3 := @State.marchFill_frame
  have hF4 := @State.marchFailed_frame
  have hF5 := @State.marchReplied_frame
  have key : ∀ (l : List (Nat × Bytes)) (t : State), (fun z : State => z.now = t.now ∧ z.pending = t.pending ∧ z.tb = t.tb ∧ z.sheets = t.sheets ∧ z.units = t.units ∧ z.errw = t.errw ∧ z.bulk = t.bulk ∧ z.sec = t.sec ∧ z.therm = t.therm ∧ z.streams = t.streams ∧ z.ptpPorts = t.ptpPorts ∧ z.ptp = t.ptp ∧ z.chans = t.chans ∧ z.seqs = t.seqs ∧ z.hc = t.hc ∧ z.trim = t.trim ∧ z.bundles = t.bundles ∧ z.slots = t.slots ∧ z.wt = t.wt ∧ z.fwMem = t.fwMem ∧ z.pricks = t.pricks ∧ z.templates = t.templates ∧ z.order = t.order)
      (l.foldl (fun s x => s.storeBy 3 none x.1 x.2) t) := by
    intro l t
    refine foldl_keeps (fun z : State => z.now = t.now ∧ z.pending = t.pending ∧ z.tb = t.tb ∧ z.sheets = t.sheets ∧ z.units = t.units ∧ z.errw = t.errw ∧ z.bulk = t.bulk ∧ z.sec = t.sec ∧ z.therm = t.therm ∧ z.streams = t.streams ∧ z.ptpPorts = t.ptpPorts ∧ z.ptp = t.ptp ∧ z.chans = t.chans ∧ z.seqs = t.seqs ∧ z.hc = t.hc ∧ z.trim = t.trim ∧ z.bundles = t.bundles ∧ z.slots = t.slots ∧ z.wt = t.wt ∧ z.fwMem = t.fwMem ∧ z.pricks = t.pricks ∧ z.templates = t.templates ∧ z.order = t.order) _ l t (by simp) (fun u a hu => ?_)
    simp [hF1, hu]
  unfold State.marchEnd
  dsimp only
  dsimp only at key
  split <;> split <;> simp [hF0, hF2, hF3, hF4, hF5, key]

@[simp] theorem State.marchEnd_wf (h : Hdr) (target : Nat) (form : Nat) (index : Nat) (fails : List Nat) (s : State) (hm : Memory.wf s.mem = true) :
    Memory.wf (State.marchEnd h target form index fails s).mem = true := by
  have hF0 := @State.reply_frame
  have hF2 := @State.settlePillows_frame
  have hF4 := @State.marchFailed_frame
  have hF5 := @State.marchReplied_frame
  have key : ∀ (l : List (Nat × Bytes)) (t : State), Memory.wf t.mem = true →
      Memory.wf (l.foldl (fun s x => s.storeBy 3 none x.1 x.2) t).mem = true :=
    fun l t ht => State.foldl_wf _ l t (fun u a hu => State.storeBy_wf _ _ _ _ _ hu) ht
  unfold State.marchEnd
  lift_lets
  intro m1 s1 s2 s3 m4 s4 s5 x
  have h1 : Memory.wf s1.mem = true := hm
  have h2 : Memory.wf s2.mem = true := by
    unfold s2
    clear_value s1
    split
    · exact State.marchFill_wf _ _ _ h1
    · exact h1
  have h3 : Memory.wf s3.mem = true := key _ _ h2
  have h4 : Memory.wf s4.mem = true := h3
  have h5 : Memory.wf s5.mem = true := by
    unfold s5
    clear_value s4
    simp only [hF0, hF5]
    exact h4
  unfold x
  clear_value s5
  split
  · exact h5
  · exact State.settlePillows_wf _ _ (State.marchFailed_wf _ _ _ _ h5)

theorem State.countEcc_frame (mem : MemKind) (pillow : Nat) (addr : Nat) (ue : Bool) (s : State) :
    (State.countEcc mem pillow addr ue s).now = s.now ∧
    (State.countEcc mem pillow addr ue s).pending = s.pending ∧
    (State.countEcc mem pillow addr ue s).tb = s.tb ∧
    (State.countEcc mem pillow addr ue s).sheets = s.sheets ∧
    (State.countEcc mem pillow addr ue s).units = s.units ∧
    (State.countEcc mem pillow addr ue s).pins = s.pins ∧ (State.countEcc mem pillow addr ue s).pk = s.pk ∧
    (State.countEcc mem pillow addr ue s).queues = s.queues ∧
    (State.countEcc mem pillow addr ue s).latches = s.latches ∧
    (State.countEcc mem pillow addr ue s).errw = s.errw ∧
    (State.countEcc mem pillow addr ue s).sdio = s.sdio ∧
    (State.countEcc mem pillow addr ue s).bulk = s.bulk ∧
    (State.countEcc mem pillow addr ue s).mgmt = s.mgmt ∧
    (State.countEcc mem pillow addr ue s).power = s.power ∧
    (State.countEcc mem pillow addr ue s).sec = s.sec ∧
    (State.countEcc mem pillow addr ue s).therm = s.therm ∧
    (State.countEcc mem pillow addr ue s).ports = s.ports ∧
    (State.countEcc mem pillow addr ue s).streams = s.streams ∧
    (State.countEcc mem pillow addr ue s).services = s.services ∧
    (State.countEcc mem pillow addr ue s).ptpPorts = s.ptpPorts ∧
    (State.countEcc mem pillow addr ue s).ptp = s.ptp ∧
    (State.countEcc mem pillow addr ue s).chans = s.chans ∧
    (State.countEcc mem pillow addr ue s).seqs = s.seqs ∧ (State.countEcc mem pillow addr ue s).hc = s.hc ∧
    (State.countEcc mem pillow addr ue s).trim = s.trim ∧
    (State.countEcc mem pillow addr ue s).bundles = s.bundles ∧
    (State.countEcc mem pillow addr ue s).slots = s.slots ∧
    (State.countEcc mem pillow addr ue s).wt = s.wt ∧ (State.countEcc mem pillow addr ue s).mem = s.mem ∧
    (State.countEcc mem pillow addr ue s).fwMem = s.fwMem ∧
    (State.countEcc mem pillow addr ue s).pricks = s.pricks ∧
    (State.countEcc mem pillow addr ue s).templates = s.templates ∧
    (State.countEcc mem pillow addr ue s).jobs = s.jobs ∧
    (State.countEcc mem pillow addr ue s).order = s.order ∧
    (State.countEcc mem pillow addr ue s).free = s.free := by
  have hF0 := @State.modPillow_frame
  have hF1 := @State.countMem_frame
  have hF2 := @State.countHbm_frame
  unfold State.countEcc; dsimp only; (repeat' split) <;> simp [hF0, hF1, hF2]

theorem State.poisonStaging_frame (p : Nat) (addr : Nat) (s : State) :
    (State.poisonStaging p addr s).now = s.now ∧ (State.poisonStaging p addr s).pending = s.pending ∧
    (State.poisonStaging p addr s).tb = s.tb ∧ (State.poisonStaging p addr s).sheets = s.sheets ∧
    (State.poisonStaging p addr s).units = s.units ∧ (State.poisonStaging p addr s).pins = s.pins ∧
    (State.poisonStaging p addr s).pk = s.pk ∧ (State.poisonStaging p addr s).queues = s.queues ∧
    (State.poisonStaging p addr s).latches = s.latches ∧ (State.poisonStaging p addr s).errw = s.errw ∧
    (State.poisonStaging p addr s).sdio = s.sdio ∧ (State.poisonStaging p addr s).bulk = s.bulk ∧
    (State.poisonStaging p addr s).mgmt = s.mgmt ∧ (State.poisonStaging p addr s).power = s.power ∧
    (State.poisonStaging p addr s).sec = s.sec ∧ (State.poisonStaging p addr s).therm = s.therm ∧
    (State.poisonStaging p addr s).ports = s.ports ∧ (State.poisonStaging p addr s).streams = s.streams ∧
    (State.poisonStaging p addr s).services = s.services ∧
    (State.poisonStaging p addr s).ptpPorts = s.ptpPorts ∧ (State.poisonStaging p addr s).ptp = s.ptp ∧
    (State.poisonStaging p addr s).chans = s.chans ∧ (State.poisonStaging p addr s).seqs = s.seqs ∧
    (State.poisonStaging p addr s).hc = s.hc ∧ (State.poisonStaging p addr s).trim = s.trim ∧
    (State.poisonStaging p addr s).bundles = s.bundles ∧ (State.poisonStaging p addr s).slots = s.slots ∧
    (State.poisonStaging p addr s).wt = s.wt ∧ (State.poisonStaging p addr s).mem = s.mem ∧
    (State.poisonStaging p addr s).fwMem = s.fwMem ∧ (State.poisonStaging p addr s).ms = s.ms ∧
    (State.poisonStaging p addr s).pricks = s.pricks ∧
    (State.poisonStaging p addr s).templates = s.templates ∧ (State.poisonStaging p addr s).jobs = s.jobs ∧
    (State.poisonStaging p addr s).order = s.order ∧ (State.poisonStaging p addr s).free = s.free := by
  have hF0 := @State.modBobbin_frame
  unfold State.poisonStaging; simp [hF0]

theorem State.poisonBank_frame (p : Nat) (addr : Nat) (s : State) :
    (State.poisonBank p addr s).now = s.now ∧ (State.poisonBank p addr s).pending = s.pending ∧
    (State.poisonBank p addr s).tb = s.tb ∧ (State.poisonBank p addr s).sheets = s.sheets ∧
    (State.poisonBank p addr s).units = s.units ∧ (State.poisonBank p addr s).pins = s.pins ∧
    (State.poisonBank p addr s).pk = s.pk ∧ (State.poisonBank p addr s).queues = s.queues ∧
    (State.poisonBank p addr s).latches = s.latches ∧ (State.poisonBank p addr s).errw = s.errw ∧
    (State.poisonBank p addr s).sdio = s.sdio ∧ (State.poisonBank p addr s).bulk = s.bulk ∧
    (State.poisonBank p addr s).mgmt = s.mgmt ∧ (State.poisonBank p addr s).power = s.power ∧
    (State.poisonBank p addr s).sec = s.sec ∧ (State.poisonBank p addr s).therm = s.therm ∧
    (State.poisonBank p addr s).ports = s.ports ∧ (State.poisonBank p addr s).streams = s.streams ∧
    (State.poisonBank p addr s).services = s.services ∧ (State.poisonBank p addr s).ptpPorts = s.ptpPorts ∧
    (State.poisonBank p addr s).ptp = s.ptp ∧ (State.poisonBank p addr s).chans = s.chans ∧
    (State.poisonBank p addr s).seqs = s.seqs ∧ (State.poisonBank p addr s).hc = s.hc ∧
    (State.poisonBank p addr s).trim = s.trim ∧ (State.poisonBank p addr s).bundles = s.bundles ∧
    (State.poisonBank p addr s).slots = s.slots ∧ (State.poisonBank p addr s).wt = s.wt ∧
    (State.poisonBank p addr s).mem = s.mem ∧ (State.poisonBank p addr s).fwMem = s.fwMem ∧
    (State.poisonBank p addr s).ms = s.ms ∧ (State.poisonBank p addr s).pricks = s.pricks ∧
    (State.poisonBank p addr s).templates = s.templates ∧ (State.poisonBank p addr s).jobs = s.jobs ∧
    (State.poisonBank p addr s).order = s.order ∧ (State.poisonBank p addr s).free = s.free := by
  have hF0 := @State.modPillow_frame
  unfold State.poisonBank; simp [hF0]

theorem State.scrubFault_frame (mem : MemKind) (pillow : Nat) (addr : Nat) (s : State) :
    (State.scrubFault mem pillow addr s).now = s.now ∧
    (State.scrubFault mem pillow addr s).pending = s.pending ∧
    (State.scrubFault mem pillow addr s).tb = s.tb ∧
    (State.scrubFault mem pillow addr s).sheets = s.sheets ∧
    (State.scrubFault mem pillow addr s).units = s.units ∧
    (State.scrubFault mem pillow addr s).errw = s.errw ∧
    (State.scrubFault mem pillow addr s).bulk = s.bulk ∧
    (State.scrubFault mem pillow addr s).power = s.power ∧
    (State.scrubFault mem pillow addr s).sec = s.sec ∧
    (State.scrubFault mem pillow addr s).therm = s.therm ∧
    (State.scrubFault mem pillow addr s).ports = s.ports ∧
    (State.scrubFault mem pillow addr s).streams = s.streams ∧
    (State.scrubFault mem pillow addr s).services = s.services ∧
    (State.scrubFault mem pillow addr s).ptpPorts = s.ptpPorts ∧
    (State.scrubFault mem pillow addr s).ptp = s.ptp ∧
    (State.scrubFault mem pillow addr s).chans = s.chans ∧
    (State.scrubFault mem pillow addr s).seqs = s.seqs ∧ (State.scrubFault mem pillow addr s).hc = s.hc ∧
    (State.scrubFault mem pillow addr s).trim = s.trim ∧
    (State.scrubFault mem pillow addr s).bundles = s.bundles ∧
    (State.scrubFault mem pillow addr s).slots = s.slots ∧ (State.scrubFault mem pillow addr s).wt = s.wt ∧
    (State.scrubFault mem pillow addr s).mem = s.mem ∧
    (State.scrubFault mem pillow addr s).fwMem = s.fwMem ∧
    (State.scrubFault mem pillow addr s).pricks = s.pricks ∧
    (State.scrubFault mem pillow addr s).templates = s.templates ∧
    (State.scrubFault mem pillow addr s).jobs = s.jobs ∧
    (State.scrubFault mem pillow addr s).order = s.order ∧
    (State.scrubFault mem pillow addr s).free = s.free := by
  have hF0 := @State.report_frame
  have hF1 := @State.countEcc_frame
  have hF2 := @State.poisonStaging_frame
  have hF3 := @State.poisonBank_frame
  have hF4 := @State.markPoison_frame
  have hF5 := @State.enterFatal_frame
  unfold State.scrubFault; dsimp only; (repeat' split) <;> simp [hF0, hF1, hF2, hF3, hF4, hF5]

theorem State.dropErrs_frame (mem : MemKind) (pillow : Nat) (addr : Nat) (s : State) :
    (State.dropErrs mem pillow addr s).now = s.now ∧
    (State.dropErrs mem pillow addr s).pending = s.pending ∧ (State.dropErrs mem pillow addr s).tb = s.tb ∧
    (State.dropErrs mem pillow addr s).sheets = s.sheets ∧
    (State.dropErrs mem pillow addr s).units = s.units ∧ (State.dropErrs mem pillow addr s).pins = s.pins ∧
    (State.dropErrs mem pillow addr s).pk = s.pk ∧ (State.dropErrs mem pillow addr s).queues = s.queues ∧
    (State.dropErrs mem pillow addr s).latches = s.latches ∧
    (State.dropErrs mem pillow addr s).errw = s.errw ∧ (State.dropErrs mem pillow addr s).sdio = s.sdio ∧
    (State.dropErrs mem pillow addr s).bulk = s.bulk ∧ (State.dropErrs mem pillow addr s).mgmt = s.mgmt ∧
    (State.dropErrs mem pillow addr s).power = s.power ∧ (State.dropErrs mem pillow addr s).sec = s.sec ∧
    (State.dropErrs mem pillow addr s).therm = s.therm ∧
    (State.dropErrs mem pillow addr s).ports = s.ports ∧
    (State.dropErrs mem pillow addr s).streams = s.streams ∧
    (State.dropErrs mem pillow addr s).services = s.services ∧
    (State.dropErrs mem pillow addr s).ptpPorts = s.ptpPorts ∧
    (State.dropErrs mem pillow addr s).ptp = s.ptp ∧ (State.dropErrs mem pillow addr s).chans = s.chans ∧
    (State.dropErrs mem pillow addr s).seqs = s.seqs ∧ (State.dropErrs mem pillow addr s).hc = s.hc ∧
    (State.dropErrs mem pillow addr s).trim = s.trim ∧
    (State.dropErrs mem pillow addr s).bundles = s.bundles ∧
    (State.dropErrs mem pillow addr s).slots = s.slots ∧ (State.dropErrs mem pillow addr s).wt = s.wt ∧
    (State.dropErrs mem pillow addr s).mem = s.mem ∧ (State.dropErrs mem pillow addr s).fwMem = s.fwMem ∧
    (State.dropErrs mem pillow addr s).pricks = s.pricks ∧
    (State.dropErrs mem pillow addr s).templates = s.templates ∧
    (State.dropErrs mem pillow addr s).jobs = s.jobs ∧ (State.dropErrs mem pillow addr s).order = s.order ∧
    (State.dropErrs mem pillow addr s).free = s.free := by
  have hF0 := @State.modBobbin_frame
  unfold State.dropErrs; dsimp only; (repeat' split) <;> simp [hF0]

theorem State.scrubRead_frame (mem : MemKind) (pillow : Nat) (addr : Nat) (ecc : Ecc) (s : State) :
    (State.scrubRead mem pillow addr ecc s).now = s.now ∧
    (State.scrubRead mem pillow addr ecc s).pending = s.pending ∧
    (State.scrubRead mem pillow addr ecc s).tb = s.tb ∧
    (State.scrubRead mem pillow addr ecc s).sheets = s.sheets ∧
    (State.scrubRead mem pillow addr ecc s).units = s.units ∧
    (State.scrubRead mem pillow addr ecc s).errw = s.errw ∧
    (State.scrubRead mem pillow addr ecc s).bulk = s.bulk ∧
    (State.scrubRead mem pillow addr ecc s).power = s.power ∧
    (State.scrubRead mem pillow addr ecc s).sec = s.sec ∧
    (State.scrubRead mem pillow addr ecc s).therm = s.therm ∧
    (State.scrubRead mem pillow addr ecc s).ports = s.ports ∧
    (State.scrubRead mem pillow addr ecc s).streams = s.streams ∧
    (State.scrubRead mem pillow addr ecc s).services = s.services ∧
    (State.scrubRead mem pillow addr ecc s).ptpPorts = s.ptpPorts ∧
    (State.scrubRead mem pillow addr ecc s).ptp = s.ptp ∧
    (State.scrubRead mem pillow addr ecc s).chans = s.chans ∧
    (State.scrubRead mem pillow addr ecc s).seqs = s.seqs ∧
    (State.scrubRead mem pillow addr ecc s).hc = s.hc ∧
    (State.scrubRead mem pillow addr ecc s).trim = s.trim ∧
    (State.scrubRead mem pillow addr ecc s).bundles = s.bundles ∧
    (State.scrubRead mem pillow addr ecc s).slots = s.slots ∧
    (State.scrubRead mem pillow addr ecc s).wt = s.wt ∧
    (State.scrubRead mem pillow addr ecc s).mem = s.mem ∧
    (State.scrubRead mem pillow addr ecc s).fwMem = s.fwMem ∧
    (State.scrubRead mem pillow addr ecc s).pricks = s.pricks ∧
    (State.scrubRead mem pillow addr ecc s).templates = s.templates ∧
    (State.scrubRead mem pillow addr ecc s).jobs = s.jobs ∧
    (State.scrubRead mem pillow addr ecc s).order = s.order ∧
    (State.scrubRead mem pillow addr ecc s).free = s.free := by
  have hF0 := @State.countDie_frame
  have hF1 := @State.countEcc_frame
  have hF2 := @State.scrubFault_frame
  have hF3 := @State.dropErrs_frame
  unfold State.scrubRead; dsimp only; (repeat' split) <;> simp [hF0, hF1, hF2, hF3]

/-! ## Paging -/

theorem State.resumeAll_frame (s : State) : (State.resumeAll s).now = s.now ∧
    (State.resumeAll s).pending = s.pending ∧ (State.resumeAll s).tb = s.tb ∧
    (State.resumeAll s).sheets = s.sheets ∧ (State.resumeAll s).units = s.units ∧
    (State.resumeAll s).errw = s.errw ∧ (State.resumeAll s).bulk = s.bulk ∧
    (State.resumeAll s).sec = s.sec ∧ (State.resumeAll s).therm = s.therm ∧
    (State.resumeAll s).streams = s.streams ∧ (State.resumeAll s).ptpPorts = s.ptpPorts ∧
    (State.resumeAll s).ptp = s.ptp ∧ (State.resumeAll s).chans = s.chans ∧
    (State.resumeAll s).seqs = s.seqs ∧ (State.resumeAll s).hc = s.hc ∧ (State.resumeAll s).trim = s.trim ∧
    (State.resumeAll s).bundles = s.bundles ∧ (State.resumeAll s).slots = s.slots ∧
    (State.resumeAll s).wt = s.wt ∧ (State.resumeAll s).fwMem = s.fwMem ∧
    (State.resumeAll s).pricks = s.pricks ∧ (State.resumeAll s).templates = s.templates ∧
    (State.resumeAll s).order = s.order := by
  have hF0 := @State.settlePillows_frame
  have hF1 := @State.resumeLegal_frame
  unfold State.resumeAll; simp [hF0, hF1]

@[simp] theorem State.resumeAll_wf (s : State) (hm : Memory.wf s.mem = true) :
    Memory.wf (State.resumeAll s).mem = true := by
  have hF0 := @State.resumeLegal_frame
  unfold State.resumeAll; simp [hF0, hm]

theorem State.mapPageEffect_frame (q : MapPending) (s : State) : (State.mapPageEffect q s).now = s.now ∧
    (State.mapPageEffect q s).pending = s.pending ∧ (State.mapPageEffect q s).tb = s.tb ∧
    (State.mapPageEffect q s).sheets = s.sheets ∧ (State.mapPageEffect q s).units = s.units ∧
    (State.mapPageEffect q s).errw = s.errw ∧ (State.mapPageEffect q s).bulk = s.bulk ∧
    (State.mapPageEffect q s).sec = s.sec ∧ (State.mapPageEffect q s).therm = s.therm ∧
    (State.mapPageEffect q s).streams = s.streams ∧ (State.mapPageEffect q s).ptpPorts = s.ptpPorts ∧
    (State.mapPageEffect q s).ptp = s.ptp ∧ (State.mapPageEffect q s).chans = s.chans ∧
    (State.mapPageEffect q s).seqs = s.seqs ∧ (State.mapPageEffect q s).hc = s.hc ∧
    (State.mapPageEffect q s).trim = s.trim ∧ (State.mapPageEffect q s).bundles = s.bundles ∧
    (State.mapPageEffect q s).slots = s.slots ∧ (State.mapPageEffect q s).wt = s.wt ∧
    (State.mapPageEffect q s).fwMem = s.fwMem ∧ (State.mapPageEffect q s).pricks = s.pricks ∧
    (State.mapPageEffect q s).templates = s.templates ∧ (State.mapPageEffect q s).order = s.order := by
  have hF0 := @State.refuse_frame
  have hF1 := @State.done_frame
  have hF2 := @State.putEntries_frame
  have hF3 := @State.dropCached_frame
  have hF4 := @State.resumeAll_frame
  unfold State.mapPageEffect; dsimp only; (repeat' split) <;> simp [hF0, hF1, hF2, hF3, hF4]

@[simp] theorem State.mapPageEffect_wf (q : MapPending) (s : State) (hm : Memory.wf s.mem = true) :
    Memory.wf (State.mapPageEffect q s).mem = true := by
  have hF0 := @State.resumeAll_frame
  have hF1 := @State.done_frame
  have hF2 := @State.refuse_frame
  have hF3 := @State.dropCached_frame
  unfold State.mapPageEffect
  lift_lets
  intro m1 s1
  have h1 : Memory.wf s1.mem = true := hm
  clear_value s1
  split
  · simp only [hF2]
    exact State.putEntries_wf _ _ _ _ h1
  · intro s2 s3 s4
    have h2 : Memory.wf s2.mem = true := by
      unfold s2
      simp only [hF3]
      exact h1
    clear_value s2
    have h3 : Memory.wf s3.mem = true := by
      unfold s3
      exact State.putEntries_wf _ _ _ _ h2
    clear_value s3
    have h4 : Memory.wf s4.mem = true := by
      unfold s4
      exact State.putEntries_wf _ _ _ _ h3
    clear_value s4
    simp only [hF1]
    exact State.resumeAll_wf _ h4

theorem mapPinDo_frame (h : Hdr) (asid : Nat) (op : Nat) (va : Nat) (size : Nat) (s : State) :
    (mapPinDo h asid op va size s).now = s.now ∧ (mapPinDo h asid op va size s).pending = s.pending ∧
    (mapPinDo h asid op va size s).tb = s.tb ∧ (mapPinDo h asid op va size s).sheets = s.sheets ∧
    (mapPinDo h asid op va size s).units = s.units ∧ (mapPinDo h asid op va size s).errw = s.errw ∧
    (mapPinDo h asid op va size s).bulk = s.bulk ∧ (mapPinDo h asid op va size s).sec = s.sec ∧
    (mapPinDo h asid op va size s).therm = s.therm ∧ (mapPinDo h asid op va size s).streams = s.streams ∧
    (mapPinDo h asid op va size s).ptpPorts = s.ptpPorts ∧ (mapPinDo h asid op va size s).ptp = s.ptp ∧
    (mapPinDo h asid op va size s).chans = s.chans ∧ (mapPinDo h asid op va size s).seqs = s.seqs ∧
    (mapPinDo h asid op va size s).hc = s.hc ∧ (mapPinDo h asid op va size s).trim = s.trim ∧
    (mapPinDo h asid op va size s).bundles = s.bundles ∧ (mapPinDo h asid op va size s).slots = s.slots ∧
    (mapPinDo h asid op va size s).wt = s.wt ∧ (mapPinDo h asid op va size s).fwMem = s.fwMem ∧
    (mapPinDo h asid op va size s).pricks = s.pricks ∧
    (mapPinDo h asid op va size s).templates = s.templates ∧
    (mapPinDo h asid op va size s).order = s.order := by
  have hF0 := @State.done_frame
  have hF1 := @State.putEntries_frame
  have hF2 := @State.resumeAll_frame
  unfold mapPinDo; simp [hF0, hF1, hF2]

@[simp] theorem mapPinDo_wf (h : Hdr) (asid : Nat) (op : Nat) (va : Nat) (size : Nat) (s : State) (hm : Memory.wf s.mem = true) :
    Memory.wf (mapPinDo h asid op va size s).mem = true := by
  have hF0 := @State.resumeAll_frame
  have hF1 := @State.done_frame
  unfold mapPinDo
  lift_lets
  intro ch gs pages m1 s1 s2
  have h1 : Memory.wf s1.mem = true := hm
  clear_value s1
  have h2 : Memory.wf s2.mem = true := by
    unfold s2
    exact State.foldl_wf _ _ _ (fun u a hu => State.putEntries_wf _ _ _ _ hu) h1
  clear_value s2
  simp only [hF1]
  exact State.resumeAll_wf _ h2

/-! ## Weights -/

theorem State.bundleReady_frame (handle : Nat) (slot : Nat) (model : Nat) (s : State) :
    (State.bundleReady handle slot model s).now = s.now ∧
    (State.bundleReady handle slot model s).pending = s.pending ∧
    (State.bundleReady handle slot model s).tb = s.tb ∧
    (State.bundleReady handle slot model s).sheets = s.sheets ∧
    (State.bundleReady handle slot model s).units = s.units ∧
    (State.bundleReady handle slot model s).pins = s.pins ∧
    (State.bundleReady handle slot model s).pk = s.pk ∧
    (State.bundleReady handle slot model s).latches = s.latches ∧
    (State.bundleReady handle slot model s).errw = s.errw ∧
    (State.bundleReady handle slot model s).bulk = s.bulk ∧
    (State.bundleReady handle slot model s).mgmt = s.mgmt ∧
    (State.bundleReady handle slot model s).power = s.power ∧
    (State.bundleReady handle slot model s).sec = s.sec ∧
    (State.bundleReady handle slot model s).therm = s.therm ∧
    (State.bundleReady handle slot model s).ports = s.ports ∧
    (State.bundleReady handle slot model s).streams = s.streams ∧
    (State.bundleReady handle slot model s).services = s.services ∧
    (State.bundleReady handle slot model s).ptpPorts = s.ptpPorts ∧
    (State.bundleReady handle slot model s).ptp = s.ptp ∧
    (State.bundleReady handle slot model s).chans = s.chans ∧
    (State.bundleReady handle slot model s).seqs = s.seqs ∧
    (State.bundleReady handle slot model s).hc = s.hc ∧
    (State.bundleReady handle slot model s).trim = s.trim ∧
    (State.bundleReady handle slot model s).bundles = s.bundles ∧
    (State.bundleReady handle slot model s).slots = s.slots ∧
    (State.bundleReady handle slot model s).wt = s.wt ∧
    (State.bundleReady handle slot model s).mem = s.mem ∧
    (State.bundleReady handle slot model s).fwMem = s.fwMem ∧
    (State.bundleReady handle slot model s).ms = s.ms ∧
    (State.bundleReady handle slot model s).pricks = s.pricks ∧
    (State.bundleReady handle slot model s).templates = s.templates ∧
    (State.bundleReady handle slot model s).jobs = s.jobs ∧
    (State.bundleReady handle slot model s).order = s.order ∧
    (State.bundleReady handle slot model s).pillows = s.pillows ∧
    (State.bundleReady handle slot model s).free = s.free := by
  have hF0 := @State.event_frame
  unfold State.bundleReady; simp [hF0]

theorem State.failBundle_frame (handle : Nat) (i : Nat) (status : Nat) (cause : Nat) (s : State) :
    (State.failBundle handle i status cause s).now = s.now ∧
    (State.failBundle handle i status cause s).pending = s.pending ∧
    (State.failBundle handle i status cause s).tb = s.tb ∧
    (State.failBundle handle i status cause s).sheets = s.sheets ∧
    (State.failBundle handle i status cause s).pins = s.pins ∧
    (State.failBundle handle i status cause s).pk = s.pk ∧
    (State.failBundle handle i status cause s).errw = s.errw ∧
    (State.failBundle handle i status cause s).bulk = s.bulk ∧
    (State.failBundle handle i status cause s).mgmt = s.mgmt ∧
    (State.failBundle handle i status cause s).power = s.power ∧
    (State.failBundle handle i status cause s).sec = s.sec ∧
    (State.failBundle handle i status cause s).therm = s.therm ∧
    (State.failBundle handle i status cause s).ports = s.ports ∧
    (State.failBundle handle i status cause s).streams = s.streams ∧
    (State.failBundle handle i status cause s).services = s.services ∧
    (State.failBundle handle i status cause s).ptpPorts = s.ptpPorts ∧
    (State.failBundle handle i status cause s).ptp = s.ptp ∧
    (State.failBundle handle i status cause s).chans = s.chans ∧
    (State.failBundle handle i status cause s).seqs = s.seqs ∧
    (State.failBundle handle i status cause s).hc = s.hc ∧
    (State.failBundle handle i status cause s).trim = s.trim ∧
    (State.failBundle handle i status cause s).slots = s.slots ∧
    (State.failBundle handle i status cause s).wt = s.wt ∧
    (State.failBundle handle i status cause s).mem = s.mem ∧
    (State.failBundle handle i status cause s).fwMem = s.fwMem ∧
    (State.failBundle handle i status cause s).ms = s.ms ∧
    (State.failBundle handle i status cause s).pricks = s.pricks ∧
    (State.failBundle handle i status cause s).templates = s.templates ∧
    (State.failBundle handle i status cause s).jobs = s.jobs ∧
    (State.failBundle handle i status cause s).order = s.order ∧
    (State.failBundle handle i status cause s).pillows = s.pillows ∧
    (State.failBundle handle i status cause s).free = s.free := by
  have hF0 := @State.report_frame
  have hF1 := @State.event_frame
  have hF2 := @State.modBundle_frame
  unfold State.failBundle; simp [hF0, hF1, hF2]

theorem State.missShard_frame (handle : Nat) (i : Nat) (status : Nat) (cause : Nat) (s : State) :
    (State.missShard handle i status cause s).2.now = s.now ∧
    (State.missShard handle i status cause s).2.pending = s.pending ∧
    (State.missShard handle i status cause s).2.tb = s.tb ∧
    (State.missShard handle i status cause s).2.sheets = s.sheets ∧
    (State.missShard handle i status cause s).2.pins = s.pins ∧
    (State.missShard handle i status cause s).2.pk = s.pk ∧
    (State.missShard handle i status cause s).2.errw = s.errw ∧
    (State.missShard handle i status cause s).2.bulk = s.bulk ∧
    (State.missShard handle i status cause s).2.mgmt = s.mgmt ∧
    (State.missShard handle i status cause s).2.power = s.power ∧
    (State.missShard handle i status cause s).2.sec = s.sec ∧
    (State.missShard handle i status cause s).2.therm = s.therm ∧
    (State.missShard handle i status cause s).2.ports = s.ports ∧
    (State.missShard handle i status cause s).2.streams = s.streams ∧
    (State.missShard handle i status cause s).2.services = s.services ∧
    (State.missShard handle i status cause s).2.ptpPorts = s.ptpPorts ∧
    (State.missShard handle i status cause s).2.ptp = s.ptp ∧
    (State.missShard handle i status cause s).2.chans = s.chans ∧
    (State.missShard handle i status cause s).2.seqs = s.seqs ∧
    (State.missShard handle i status cause s).2.hc = s.hc ∧
    (State.missShard handle i status cause s).2.trim = s.trim ∧
    (State.missShard handle i status cause s).2.slots = s.slots ∧
    (State.missShard handle i status cause s).2.wt = s.wt ∧
    (State.missShard handle i status cause s).2.mem = s.mem ∧
    (State.missShard handle i status cause s).2.fwMem = s.fwMem ∧
    (State.missShard handle i status cause s).2.ms = s.ms ∧
    (State.missShard handle i status cause s).2.pricks = s.pricks ∧
    (State.missShard handle i status cause s).2.templates = s.templates ∧
    (State.missShard handle i status cause s).2.jobs = s.jobs ∧
    (State.missShard handle i status cause s).2.order = s.order ∧
    (State.missShard handle i status cause s).2.pillows = s.pillows ∧
    (State.missShard handle i status cause s).2.free = s.free := by
  have hF0 := @State.failBundle_frame
  have hF1 := @State.setBundle_frame
  unfold State.missShard; simp [hF0, hF1]

theorem State.countRetry_frame (left : Nat) (s : State) : (State.countRetry left s).now = s.now ∧
    (State.countRetry left s).pending = s.pending ∧ (State.countRetry left s).tb = s.tb ∧
    (State.countRetry left s).sheets = s.sheets ∧ (State.countRetry left s).units = s.units ∧
    (State.countRetry left s).pins = s.pins ∧ (State.countRetry left s).pk = s.pk ∧
    (State.countRetry left s).queues = s.queues ∧ (State.countRetry left s).latches = s.latches ∧
    (State.countRetry left s).errw = s.errw ∧ (State.countRetry left s).sdio = s.sdio ∧
    (State.countRetry left s).bulk = s.bulk ∧ (State.countRetry left s).mgmt = s.mgmt ∧
    (State.countRetry left s).power = s.power ∧ (State.countRetry left s).sec = s.sec ∧
    (State.countRetry left s).therm = s.therm ∧ (State.countRetry left s).ports = s.ports ∧
    (State.countRetry left s).streams = s.streams ∧ (State.countRetry left s).services = s.services ∧
    (State.countRetry left s).ptpPorts = s.ptpPorts ∧ (State.countRetry left s).ptp = s.ptp ∧
    (State.countRetry left s).chans = s.chans ∧ (State.countRetry left s).seqs = s.seqs ∧
    (State.countRetry left s).hc = s.hc ∧ (State.countRetry left s).trim = s.trim ∧
    (State.countRetry left s).bundles = s.bundles ∧ (State.countRetry left s).slots = s.slots ∧
    (State.countRetry left s).mem = s.mem ∧ (State.countRetry left s).fwMem = s.fwMem ∧
    (State.countRetry left s).ms = s.ms ∧ (State.countRetry left s).pricks = s.pricks ∧
    (State.countRetry left s).templates = s.templates ∧ (State.countRetry left s).jobs = s.jobs ∧
    (State.countRetry left s).order = s.order ∧ (State.countRetry left s).pillows = s.pillows ∧
    (State.countRetry left s).free = s.free := by
  unfold State.countRetry; simp

theorem State.openShard_frame (h : Hdr) (kind : Nat) (handle : Nat) (index : Nat) (total : Option Nat) (blocks : Nat) (s : State) :
    (State.openShard h kind handle index total blocks s).now = s.now ∧
    (State.openShard h kind handle index total blocks s).pending = s.pending ∧
    (State.openShard h kind handle index total blocks s).tb = s.tb ∧
    (State.openShard h kind handle index total blocks s).sheets = s.sheets ∧
    (State.openShard h kind handle index total blocks s).units = s.units ∧
    (State.openShard h kind handle index total blocks s).pins = s.pins ∧
    (State.openShard h kind handle index total blocks s).pk = s.pk ∧
    (State.openShard h kind handle index total blocks s).latches = s.latches ∧
    (State.openShard h kind handle index total blocks s).errw = s.errw ∧
    (State.openShard h kind handle index total blocks s).power = s.power ∧
    (State.openShard h kind handle index total blocks s).sec = s.sec ∧
    (State.openShard h kind handle index total blocks s).therm = s.therm ∧
    (State.openShard h kind handle index total blocks s).ports = s.ports ∧
    (State.openShard h kind handle index total blocks s).streams = s.streams ∧
    (State.openShard h kind handle index total blocks s).services = s.services ∧
    (State.openShard h kind handle index total blocks s).ptpPorts = s.ptpPorts ∧
    (State.openShard h kind handle index total blocks s).ptp = s.ptp ∧
    (State.openShard h kind handle index total blocks s).chans = s.chans ∧
    (State.openShard h kind handle index total blocks s).seqs = s.seqs ∧
    (State.openShard h kind handle index total blocks s).hc = s.hc ∧
    (State.openShard h kind handle index total blocks s).trim = s.trim ∧
    (State.openShard h kind handle index total blocks s).bundles = s.bundles ∧
    (State.openShard h kind handle index total blocks s).slots = s.slots ∧
    (State.openShard h kind handle index total blocks s).wt = s.wt ∧
    (State.openShard h kind handle index total blocks s).mem = s.mem ∧
    (State.openShard h kind handle index total blocks s).fwMem = s.fwMem ∧
    (State.openShard h kind handle index total blocks s).ms = s.ms ∧
    (State.openShard h kind handle index total blocks s).pricks = s.pricks ∧
    (State.openShard h kind handle index total blocks s).templates = s.templates ∧
    (State.openShard h kind handle index total blocks s).jobs = s.jobs ∧
    (State.openShard h kind handle index total blocks s).order = s.order ∧
    (State.openShard h kind handle index total blocks s).pillows = s.pillows ∧
    (State.openShard h kind handle index total blocks s).free = s.free := by
  have hF0 := @State.done_frame
  unfold State.openShard; simp [hF0]

theorem State.endManifest_frame (h : Hdr) (handle : Nat) (x : Xfer) (excess : Bool) (sigOk : Bool) (s : State) :
    (State.endManifest h handle x excess sigOk s).now = s.now ∧
    (State.endManifest h handle x excess sigOk s).pending = s.pending ∧
    (State.endManifest h handle x excess sigOk s).tb = s.tb ∧
    (State.endManifest h handle x excess sigOk s).sheets = s.sheets ∧
    (State.endManifest h handle x excess sigOk s).units = s.units ∧
    (State.endManifest h handle x excess sigOk s).pins = s.pins ∧
    (State.endManifest h handle x excess sigOk s).pk = s.pk ∧
    (State.endManifest h handle x excess sigOk s).latches = s.latches ∧
    (State.endManifest h handle x excess sigOk s).errw = s.errw ∧
    (State.endManifest h handle x excess sigOk s).bulk = s.bulk ∧
    (State.endManifest h handle x excess sigOk s).power = s.power ∧
    (State.endManifest h handle x excess sigOk s).sec = s.sec ∧
    (State.endManifest h handle x excess sigOk s).therm = s.therm ∧
    (State.endManifest h handle x excess sigOk s).ports = s.ports ∧
    (State.endManifest h handle x excess sigOk s).streams = s.streams ∧
    (State.endManifest h handle x excess sigOk s).services = s.services ∧
    (State.endManifest h handle x excess sigOk s).ptpPorts = s.ptpPorts ∧
    (State.endManifest h handle x excess sigOk s).ptp = s.ptp ∧
    (State.endManifest h handle x excess sigOk s).chans = s.chans ∧
    (State.endManifest h handle x excess sigOk s).seqs = s.seqs ∧
    (State.endManifest h handle x excess sigOk s).hc = s.hc ∧
    (State.endManifest h handle x excess sigOk s).trim = s.trim ∧
    (State.endManifest h handle x excess sigOk s).slots = s.slots ∧
    (State.endManifest h handle x excess sigOk s).wt = s.wt ∧
    (State.endManifest h handle x excess sigOk s).mem = s.mem ∧
    (State.endManifest h handle x excess sigOk s).fwMem = s.fwMem ∧
    (State.endManifest h handle x excess sigOk s).ms = s.ms ∧
    (State.endManifest h handle x excess sigOk s).pricks = s.pricks ∧
    (State.endManifest h handle x excess sigOk s).templates = s.templates ∧
    (State.endManifest h handle x excess sigOk s).jobs = s.jobs ∧
    (State.endManifest h handle x excess sigOk s).order = s.order ∧
    (State.endManifest h handle x excess sigOk s).pillows = s.pillows ∧
    (State.endManifest h handle x excess sigOk s).free = s.free := by
  have hF0 := @State.refuse_frame
  have hF1 := @State.done_frame
  have hF2 := @State.setBundle_frame
  unfold State.endManifest; dsimp only; (repeat' split) <;> simp [hF0, hF1, hF2]

theorem State.shardGood_frame (handle : Nat) (i : Nat) (s : State) :
    (State.shardGood handle i s).now = s.now ∧ (State.shardGood handle i s).pending = s.pending ∧
    (State.shardGood handle i s).tb = s.tb ∧ (State.shardGood handle i s).sheets = s.sheets ∧
    (State.shardGood handle i s).units = s.units ∧ (State.shardGood handle i s).pins = s.pins ∧
    (State.shardGood handle i s).pk = s.pk ∧ (State.shardGood handle i s).queues = s.queues ∧
    (State.shardGood handle i s).latches = s.latches ∧ (State.shardGood handle i s).errw = s.errw ∧
    (State.shardGood handle i s).sdio = s.sdio ∧ (State.shardGood handle i s).bulk = s.bulk ∧
    (State.shardGood handle i s).mgmt = s.mgmt ∧ (State.shardGood handle i s).power = s.power ∧
    (State.shardGood handle i s).sec = s.sec ∧ (State.shardGood handle i s).therm = s.therm ∧
    (State.shardGood handle i s).ports = s.ports ∧ (State.shardGood handle i s).streams = s.streams ∧
    (State.shardGood handle i s).services = s.services ∧
    (State.shardGood handle i s).ptpPorts = s.ptpPorts ∧ (State.shardGood handle i s).ptp = s.ptp ∧
    (State.shardGood handle i s).chans = s.chans ∧ (State.shardGood handle i s).seqs = s.seqs ∧
    (State.shardGood handle i s).hc = s.hc ∧ (State.shardGood handle i s).trim = s.trim ∧
    (State.shardGood handle i s).slots = s.slots ∧ (State.shardGood handle i s).wt = s.wt ∧
    (State.shardGood handle i s).mem = s.mem ∧ (State.shardGood handle i s).fwMem = s.fwMem ∧
    (State.shardGood handle i s).ms = s.ms ∧ (State.shardGood handle i s).pricks = s.pricks ∧
    (State.shardGood handle i s).templates = s.templates ∧ (State.shardGood handle i s).jobs = s.jobs ∧
    (State.shardGood handle i s).order = s.order ∧ (State.shardGood handle i s).pillows = s.pillows ∧
    (State.shardGood handle i s).free = s.free := by
  have hF0 := @State.setBundle_frame
  have hF1 := @State.store_frame
  unfold State.shardGood; simp [hF0, hF1]

theorem State.endShard_frame (h : Hdr) (x : Xfer) (excess : Bool) (s : State) :
    (State.endShard h x excess s).now = s.now ∧ (State.endShard h x excess s).pending = s.pending ∧
    (State.endShard h x excess s).tb = s.tb ∧ (State.endShard h x excess s).sheets = s.sheets ∧
    (State.endShard h x excess s).pins = s.pins ∧ (State.endShard h x excess s).pk = s.pk ∧
    (State.endShard h x excess s).errw = s.errw ∧ (State.endShard h x excess s).bulk = s.bulk ∧
    (State.endShard h x excess s).power = s.power ∧ (State.endShard h x excess s).sec = s.sec ∧
    (State.endShard h x excess s).therm = s.therm ∧ (State.endShard h x excess s).ports = s.ports ∧
    (State.endShard h x excess s).streams = s.streams ∧
    (State.endShard h x excess s).services = s.services ∧
    (State.endShard h x excess s).ptpPorts = s.ptpPorts ∧ (State.endShard h x excess s).ptp = s.ptp ∧
    (State.endShard h x excess s).chans = s.chans ∧ (State.endShard h x excess s).seqs = s.seqs ∧
    (State.endShard h x excess s).hc = s.hc ∧ (State.endShard h x excess s).trim = s.trim ∧
    (State.endShard h x excess s).slots = s.slots ∧ (State.endShard h x excess s).mem = s.mem ∧
    (State.endShard h x excess s).fwMem = s.fwMem ∧ (State.endShard h x excess s).ms = s.ms ∧
    (State.endShard h x excess s).pricks = s.pricks ∧
    (State.endShard h x excess s).templates = s.templates ∧ (State.endShard h x excess s).jobs = s.jobs ∧
    (State.endShard h x excess s).order = s.order ∧ (State.endShard h x excess s).pillows = s.pillows ∧
    (State.endShard h x excess s).free = s.free := by
  have hF0 := @State.done_frame
  have hF1 := @State.setBundle_frame
  have hF2 := @State.shardGood_frame
  have hF3 := @State.refuse_frame
  have hF4 := @State.countRetry_frame
  have hF5 := @State.missShard_frame
  unfold State.endShard; simp [hF0, hF1, hF2, hF3, hF4, hF5]

theorem shardEndDo_frame (h : Hdr) (handle : Nat) (sigOk : Bool) (s : State) :
    (shardEndDo h handle sigOk s).now = s.now ∧ (shardEndDo h handle sigOk s).pending = s.pending ∧
    (shardEndDo h handle sigOk s).tb = s.tb ∧ (shardEndDo h handle sigOk s).sheets = s.sheets ∧
    (shardEndDo h handle sigOk s).pins = s.pins ∧ (shardEndDo h handle sigOk s).pk = s.pk ∧
    (shardEndDo h handle sigOk s).errw = s.errw ∧ (shardEndDo h handle sigOk s).power = s.power ∧
    (shardEndDo h handle sigOk s).sec = s.sec ∧ (shardEndDo h handle sigOk s).therm = s.therm ∧
    (shardEndDo h handle sigOk s).ports = s.ports ∧ (shardEndDo h handle sigOk s).streams = s.streams ∧
    (shardEndDo h handle sigOk s).services = s.services ∧
    (shardEndDo h handle sigOk s).ptpPorts = s.ptpPorts ∧ (shardEndDo h handle sigOk s).ptp = s.ptp ∧
    (shardEndDo h handle sigOk s).chans = s.chans ∧ (shardEndDo h handle sigOk s).seqs = s.seqs ∧
    (shardEndDo h handle sigOk s).hc = s.hc ∧ (shardEndDo h handle sigOk s).trim = s.trim ∧
    (shardEndDo h handle sigOk s).slots = s.slots ∧ (shardEndDo h handle sigOk s).mem = s.mem ∧
    (shardEndDo h handle sigOk s).fwMem = s.fwMem ∧ (shardEndDo h handle sigOk s).ms = s.ms ∧
    (shardEndDo h handle sigOk s).pricks = s.pricks ∧
    (shardEndDo h handle sigOk s).templates = s.templates ∧ (shardEndDo h handle sigOk s).jobs = s.jobs ∧
    (shardEndDo h handle sigOk s).order = s.order ∧ (shardEndDo h handle sigOk s).pillows = s.pillows ∧
    (shardEndDo h handle sigOk s).free = s.free := by
  have hF0 := @State.release_frame
  have hF1 := @State.refuse_frame
  have hF2 := @State.endShard_frame
  have hF3 := @State.endManifest_frame
  unfold shardEndDo; dsimp only; (repeat' split) <;> simp [hF0, hF1, hF2, hF3]

theorem State.closeShard_frame (handle : Nat) (s : State) : (State.closeShard handle s).now = s.now ∧
    (State.closeShard handle s).pending = s.pending ∧ (State.closeShard handle s).tb = s.tb ∧
    (State.closeShard handle s).sheets = s.sheets ∧ (State.closeShard handle s).units = s.units ∧
    (State.closeShard handle s).pins = s.pins ∧ (State.closeShard handle s).pk = s.pk ∧
    (State.closeShard handle s).queues = s.queues ∧ (State.closeShard handle s).latches = s.latches ∧
    (State.closeShard handle s).errw = s.errw ∧ (State.closeShard handle s).sdio = s.sdio ∧
    (State.closeShard handle s).mgmt = s.mgmt ∧ (State.closeShard handle s).power = s.power ∧
    (State.closeShard handle s).sec = s.sec ∧ (State.closeShard handle s).therm = s.therm ∧
    (State.closeShard handle s).ports = s.ports ∧ (State.closeShard handle s).streams = s.streams ∧
    (State.closeShard handle s).services = s.services ∧ (State.closeShard handle s).ptpPorts = s.ptpPorts ∧
    (State.closeShard handle s).ptp = s.ptp ∧ (State.closeShard handle s).chans = s.chans ∧
    (State.closeShard handle s).seqs = s.seqs ∧ (State.closeShard handle s).hc = s.hc ∧
    (State.closeShard handle s).trim = s.trim ∧ (State.closeShard handle s).bundles = s.bundles ∧
    (State.closeShard handle s).slots = s.slots ∧ (State.closeShard handle s).wt = s.wt ∧
    (State.closeShard handle s).mem = s.mem ∧ (State.closeShard handle s).fwMem = s.fwMem ∧
    (State.closeShard handle s).ms = s.ms ∧ (State.closeShard handle s).pricks = s.pricks ∧
    (State.closeShard handle s).templates = s.templates ∧ (State.closeShard handle s).jobs = s.jobs ∧
    (State.closeShard handle s).order = s.order ∧ (State.closeShard handle s).pillows = s.pillows ∧
    (State.closeShard handle s).free = s.free := by
  unfold State.closeShard; simp

theorem State.loadSums_frame (b : Bundle) (map : List Nat) (t : Target) (s : State) :
    (State.loadSums b map t s).now = s.now ∧ (State.loadSums b map t s).pending = s.pending ∧
    (State.loadSums b map t s).tb = s.tb ∧ (State.loadSums b map t s).sheets = s.sheets ∧
    (State.loadSums b map t s).units = s.units ∧ (State.loadSums b map t s).pins = s.pins ∧
    (State.loadSums b map t s).pk = s.pk ∧ (State.loadSums b map t s).queues = s.queues ∧
    (State.loadSums b map t s).latches = s.latches ∧ (State.loadSums b map t s).errw = s.errw ∧
    (State.loadSums b map t s).sdio = s.sdio ∧ (State.loadSums b map t s).bulk = s.bulk ∧
    (State.loadSums b map t s).mgmt = s.mgmt ∧ (State.loadSums b map t s).power = s.power ∧
    (State.loadSums b map t s).sec = s.sec ∧ (State.loadSums b map t s).therm = s.therm ∧
    (State.loadSums b map t s).ports = s.ports ∧ (State.loadSums b map t s).streams = s.streams ∧
    (State.loadSums b map t s).services = s.services ∧ (State.loadSums b map t s).ptpPorts = s.ptpPorts ∧
    (State.loadSums b map t s).ptp = s.ptp ∧ (State.loadSums b map t s).chans = s.chans ∧
    (State.loadSums b map t s).seqs = s.seqs ∧ (State.loadSums b map t s).hc = s.hc ∧
    (State.loadSums b map t s).trim = s.trim ∧ (State.loadSums b map t s).bundles = s.bundles ∧
    (State.loadSums b map t s).slots = s.slots ∧ (State.loadSums b map t s).wt = s.wt ∧
    (State.loadSums b map t s).mem = s.mem ∧ (State.loadSums b map t s).fwMem = s.fwMem ∧
    (State.loadSums b map t s).ms = s.ms ∧ (State.loadSums b map t s).pricks = s.pricks ∧
    (State.loadSums b map t s).templates = s.templates ∧ (State.loadSums b map t s).jobs = s.jobs ∧
    (State.loadSums b map t s).order = s.order ∧ (State.loadSums b map t s).free = s.free := by
  have hF0 := @State.setPillow_frame
  unfold State.loadSums; simp [hF0]

theorem State.loadFactors_frame (b : Bundle) (map : List Nat) (f : FactorBlock) (s : State) :
    (State.loadFactors b map f s).now = s.now ∧ (State.loadFactors b map f s).pending = s.pending ∧
    (State.loadFactors b map f s).tb = s.tb ∧ (State.loadFactors b map f s).sheets = s.sheets ∧
    (State.loadFactors b map f s).units = s.units ∧ (State.loadFactors b map f s).pins = s.pins ∧
    (State.loadFactors b map f s).pk = s.pk ∧ (State.loadFactors b map f s).queues = s.queues ∧
    (State.loadFactors b map f s).latches = s.latches ∧ (State.loadFactors b map f s).errw = s.errw ∧
    (State.loadFactors b map f s).sdio = s.sdio ∧ (State.loadFactors b map f s).bulk = s.bulk ∧
    (State.loadFactors b map f s).mgmt = s.mgmt ∧ (State.loadFactors b map f s).power = s.power ∧
    (State.loadFactors b map f s).sec = s.sec ∧ (State.loadFactors b map f s).therm = s.therm ∧
    (State.loadFactors b map f s).ports = s.ports ∧ (State.loadFactors b map f s).streams = s.streams ∧
    (State.loadFactors b map f s).services = s.services ∧
    (State.loadFactors b map f s).ptpPorts = s.ptpPorts ∧ (State.loadFactors b map f s).ptp = s.ptp ∧
    (State.loadFactors b map f s).chans = s.chans ∧ (State.loadFactors b map f s).seqs = s.seqs ∧
    (State.loadFactors b map f s).hc = s.hc ∧ (State.loadFactors b map f s).trim = s.trim ∧
    (State.loadFactors b map f s).bundles = s.bundles ∧ (State.loadFactors b map f s).slots = s.slots ∧
    (State.loadFactors b map f s).wt = s.wt ∧ (State.loadFactors b map f s).mem = s.mem ∧
    (State.loadFactors b map f s).fwMem = s.fwMem ∧ (State.loadFactors b map f s).ms = s.ms ∧
    (State.loadFactors b map f s).pricks = s.pricks ∧
    (State.loadFactors b map f s).templates = s.templates ∧ (State.loadFactors b map f s).jobs = s.jobs ∧
    (State.loadFactors b map f s).order = s.order ∧ (State.loadFactors b map f s).free = s.free := by
  have hF0 := @State.setPillow_frame
  unfold State.loadFactors; simp [hF0]

theorem State.takeSpare_frame (p : Nat) (l : Nat) (s : State) : (State.takeSpare p l s).now = s.now ∧
    (State.takeSpare p l s).pending = s.pending ∧ (State.takeSpare p l s).tb = s.tb ∧
    (State.takeSpare p l s).sheets = s.sheets ∧ (State.takeSpare p l s).units = s.units ∧
    (State.takeSpare p l s).pins = s.pins ∧ (State.takeSpare p l s).pk = s.pk ∧
    (State.takeSpare p l s).errw = s.errw ∧ (State.takeSpare p l s).bulk = s.bulk ∧
    (State.takeSpare p l s).mgmt = s.mgmt ∧ (State.takeSpare p l s).power = s.power ∧
    (State.takeSpare p l s).sec = s.sec ∧ (State.takeSpare p l s).therm = s.therm ∧
    (State.takeSpare p l s).ports = s.ports ∧ (State.takeSpare p l s).streams = s.streams ∧
    (State.takeSpare p l s).services = s.services ∧ (State.takeSpare p l s).ptpPorts = s.ptpPorts ∧
    (State.takeSpare p l s).ptp = s.ptp ∧ (State.takeSpare p l s).chans = s.chans ∧
    (State.takeSpare p l s).seqs = s.seqs ∧ (State.takeSpare p l s).hc = s.hc ∧
    (State.takeSpare p l s).trim = s.trim ∧ (State.takeSpare p l s).bundles = s.bundles ∧
    (State.takeSpare p l s).slots = s.slots ∧ (State.takeSpare p l s).wt = s.wt ∧
    (State.takeSpare p l s).mem = s.mem ∧ (State.takeSpare p l s).fwMem = s.fwMem ∧
    (State.takeSpare p l s).ms = s.ms ∧ (State.takeSpare p l s).pricks = s.pricks ∧
    (State.takeSpare p l s).templates = s.templates ∧ (State.takeSpare p l s).jobs = s.jobs ∧
    (State.takeSpare p l s).order = s.order ∧ (State.takeSpare p l s).free = s.free := by
  have hF0 := @State.loseSpare_frame
  have hF1 := @State.modBobbin_frame
  have hF2 := @State.setPillow_frame
  unfold State.takeSpare; dsimp only; (repeat' split) <;> simp [hF0, hF1, hF2]

theorem State.askProgram_frame (n : Nat) (handle : Nat) (map : List Nat) (t : Target) (s : State) :
    (State.askProgram n handle map t s).now = s.now ∧
    (State.askProgram n handle map t s).pending = s.pending ∧
    (State.askProgram n handle map t s).tb = s.tb ∧ (State.askProgram n handle map t s).sheets = s.sheets ∧
    (State.askProgram n handle map t s).units = s.units ∧
    (State.askProgram n handle map t s).pins = s.pins ∧ (State.askProgram n handle map t s).pk = s.pk ∧
    (State.askProgram n handle map t s).errw = s.errw ∧ (State.askProgram n handle map t s).bulk = s.bulk ∧
    (State.askProgram n handle map t s).mgmt = s.mgmt ∧
    (State.askProgram n handle map t s).power = s.power ∧ (State.askProgram n handle map t s).sec = s.sec ∧
    (State.askProgram n handle map t s).therm = s.therm ∧
    (State.askProgram n handle map t s).ports = s.ports ∧
    (State.askProgram n handle map t s).streams = s.streams ∧
    (State.askProgram n handle map t s).services = s.services ∧
    (State.askProgram n handle map t s).ptpPorts = s.ptpPorts ∧
    (State.askProgram n handle map t s).ptp = s.ptp ∧ (State.askProgram n handle map t s).chans = s.chans ∧
    (State.askProgram n handle map t s).seqs = s.seqs ∧ (State.askProgram n handle map t s).hc = s.hc ∧
    (State.askProgram n handle map t s).trim = s.trim ∧
    (State.askProgram n handle map t s).bundles = s.bundles ∧
    (State.askProgram n handle map t s).slots = s.slots ∧ (State.askProgram n handle map t s).wt = s.wt ∧
    (State.askProgram n handle map t s).mem = s.mem ∧ (State.askProgram n handle map t s).fwMem = s.fwMem ∧
    (State.askProgram n handle map t s).ms = s.ms ∧ (State.askProgram n handle map t s).pricks = s.pricks ∧
    (State.askProgram n handle map t s).templates = s.templates ∧
    (State.askProgram n handle map t s).jobs = s.jobs ∧
    (State.askProgram n handle map t s).order = s.order ∧
    (State.askProgram n handle map t s).free = s.free := by
  have hF0 := @State.modPillow_frame
  have hF1 := @State.modBobbin_frame
  have hF2 := @State.takeSpare_frame
  unfold State.askProgram; simp [hF0, hF1, hF2]

theorem State.startProgram_frame (n : Nat) (handle : Nat) (map : List Nat) (s : State) :
    (State.startProgram n handle map s).now = s.now ∧
    (State.startProgram n handle map s).pending = s.pending ∧
    (State.startProgram n handle map s).tb = s.tb ∧ (State.startProgram n handle map s).sheets = s.sheets ∧
    (State.startProgram n handle map s).units = s.units ∧
    (State.startProgram n handle map s).pins = s.pins ∧ (State.startProgram n handle map s).pk = s.pk ∧
    (State.startProgram n handle map s).errw = s.errw ∧ (State.startProgram n handle map s).bulk = s.bulk ∧
    (State.startProgram n handle map s).mgmt = s.mgmt ∧
    (State.startProgram n handle map s).power = s.power ∧ (State.startProgram n handle map s).sec = s.sec ∧
    (State.startProgram n handle map s).therm = s.therm ∧
    (State.startProgram n handle map s).ports = s.ports ∧
    (State.startProgram n handle map s).streams = s.streams ∧
    (State.startProgram n handle map s).services = s.services ∧
    (State.startProgram n handle map s).ptpPorts = s.ptpPorts ∧
    (State.startProgram n handle map s).ptp = s.ptp ∧ (State.startProgram n handle map s).chans = s.chans ∧
    (State.startProgram n handle map s).seqs = s.seqs ∧ (State.startProgram n handle map s).hc = s.hc ∧
    (State.startProgram n handle map s).trim = s.trim ∧
    (State.startProgram n handle map s).bundles = s.bundles ∧
    (State.startProgram n handle map s).wt = s.wt ∧ (State.startProgram n handle map s).mem = s.mem ∧
    (State.startProgram n handle map s).fwMem = s.fwMem ∧ (State.startProgram n handle map s).ms = s.ms ∧
    (State.startProgram n handle map s).pricks = s.pricks ∧
    (State.startProgram n handle map s).templates = s.templates ∧
    (State.startProgram n handle map s).jobs = s.jobs ∧
    (State.startProgram n handle map s).order = s.order ∧
    (State.startProgram n handle map s).free = s.free := by
  have hF0 := @State.askProgram_frame
  have hF1 := @State.loadFactors_frame
  have hF2 := @State.loadSums_frame
  have hF3 := @State.modSlot_frame
  unfold State.startProgram; simp [hF0, hF1, hF2, hF3]

theorem State.slotDown_frame (n : Nat) (p : Nat) (phys : Nat) (s : State) :
    (State.slotDown n p phys s).now = s.now ∧ (State.slotDown n p phys s).pending = s.pending ∧
    (State.slotDown n p phys s).tb = s.tb ∧ (State.slotDown n p phys s).sheets = s.sheets ∧
    (State.slotDown n p phys s).units = s.units ∧ (State.slotDown n p phys s).pins = s.pins ∧
    (State.slotDown n p phys s).pk = s.pk ∧ (State.slotDown n p phys s).errw = s.errw ∧
    (State.slotDown n p phys s).bulk = s.bulk ∧ (State.slotDown n p phys s).mgmt = s.mgmt ∧
    (State.slotDown n p phys s).power = s.power ∧ (State.slotDown n p phys s).sec = s.sec ∧
    (State.slotDown n p phys s).therm = s.therm ∧ (State.slotDown n p phys s).ports = s.ports ∧
    (State.slotDown n p phys s).streams = s.streams ∧ (State.slotDown n p phys s).services = s.services ∧
    (State.slotDown n p phys s).ptpPorts = s.ptpPorts ∧ (State.slotDown n p phys s).ptp = s.ptp ∧
    (State.slotDown n p phys s).chans = s.chans ∧ (State.slotDown n p phys s).seqs = s.seqs ∧
    (State.slotDown n p phys s).hc = s.hc ∧ (State.slotDown n p phys s).trim = s.trim ∧
    (State.slotDown n p phys s).bundles = s.bundles ∧ (State.slotDown n p phys s).wt = s.wt ∧
    (State.slotDown n p phys s).mem = s.mem ∧ (State.slotDown n p phys s).fwMem = s.fwMem ∧
    (State.slotDown n p phys s).ms = s.ms ∧ (State.slotDown n p phys s).pricks = s.pricks ∧
    (State.slotDown n p phys s).templates = s.templates ∧ (State.slotDown n p phys s).jobs = s.jobs ∧
    (State.slotDown n p phys s).order = s.order ∧ (State.slotDown n p phys s).pillows = s.pillows ∧
    (State.slotDown n p phys s).free = s.free := by
  have hF0 := @State.report_frame
  have hF1 := @State.modSlot_frame
  unfold State.slotDown; simp [hF0, hF1]

theorem slotProgramDo_frame (h : Hdr) (n : Nat) (handle : Nat) (map : List Nat) (s : State) :
    (slotProgramDo h n handle map s).now = s.now ∧ (slotProgramDo h n handle map s).pending = s.pending ∧
    (slotProgramDo h n handle map s).tb = s.tb ∧ (slotProgramDo h n handle map s).sheets = s.sheets ∧
    (slotProgramDo h n handle map s).units = s.units ∧ (slotProgramDo h n handle map s).pins = s.pins ∧
    (slotProgramDo h n handle map s).pk = s.pk ∧ (slotProgramDo h n handle map s).errw = s.errw ∧
    (slotProgramDo h n handle map s).bulk = s.bulk ∧ (slotProgramDo h n handle map s).power = s.power ∧
    (slotProgramDo h n handle map s).sec = s.sec ∧ (slotProgramDo h n handle map s).therm = s.therm ∧
    (slotProgramDo h n handle map s).ports = s.ports ∧
    (slotProgramDo h n handle map s).streams = s.streams ∧
    (slotProgramDo h n handle map s).services = s.services ∧
    (slotProgramDo h n handle map s).ptpPorts = s.ptpPorts ∧ (slotProgramDo h n handle map s).ptp = s.ptp ∧
    (slotProgramDo h n handle map s).chans = s.chans ∧ (slotProgramDo h n handle map s).seqs = s.seqs ∧
    (slotProgramDo h n handle map s).hc = s.hc ∧ (slotProgramDo h n handle map s).trim = s.trim ∧
    (slotProgramDo h n handle map s).mem = s.mem ∧ (slotProgramDo h n handle map s).fwMem = s.fwMem ∧
    (slotProgramDo h n handle map s).pricks = s.pricks ∧
    (slotProgramDo h n handle map s).templates = s.templates ∧
    (slotProgramDo h n handle map s).jobs = s.jobs ∧ (slotProgramDo h n handle map s).order = s.order ∧
    (slotProgramDo h n handle map s).free = s.free := by
  have hF0 := @State.release_frame
  have hF1 := @State.startProgram_frame
  have hF2 := @State.modSlot_frame
  have hF3 := @State.digestShards_frame
  have hF4 := @State.refuse_frame
  have hF5 := @State.slotDown_frame
  unfold slotProgramDo; simp [hF0, hF1, hF2, hF3, hF4, hF5]

theorem State.wakeBobbins_frame (n : Nat) (s : State) : (State.wakeBobbins n s).now = s.now ∧
    (State.wakeBobbins n s).pending = s.pending ∧ (State.wakeBobbins n s).tb = s.tb ∧
    (State.wakeBobbins n s).sheets = s.sheets ∧ (State.wakeBobbins n s).units = s.units ∧
    (State.wakeBobbins n s).pins = s.pins ∧ (State.wakeBobbins n s).pk = s.pk ∧
    (State.wakeBobbins n s).queues = s.queues ∧ (State.wakeBobbins n s).latches = s.latches ∧
    (State.wakeBobbins n s).errw = s.errw ∧ (State.wakeBobbins n s).sdio = s.sdio ∧
    (State.wakeBobbins n s).bulk = s.bulk ∧ (State.wakeBobbins n s).mgmt = s.mgmt ∧
    (State.wakeBobbins n s).power = s.power ∧ (State.wakeBobbins n s).sec = s.sec ∧
    (State.wakeBobbins n s).therm = s.therm ∧ (State.wakeBobbins n s).ports = s.ports ∧
    (State.wakeBobbins n s).streams = s.streams ∧ (State.wakeBobbins n s).services = s.services ∧
    (State.wakeBobbins n s).ptpPorts = s.ptpPorts ∧ (State.wakeBobbins n s).ptp = s.ptp ∧
    (State.wakeBobbins n s).chans = s.chans ∧ (State.wakeBobbins n s).seqs = s.seqs ∧
    (State.wakeBobbins n s).hc = s.hc ∧ (State.wakeBobbins n s).trim = s.trim ∧
    (State.wakeBobbins n s).bundles = s.bundles ∧ (State.wakeBobbins n s).slots = s.slots ∧
    (State.wakeBobbins n s).wt = s.wt ∧ (State.wakeBobbins n s).mem = s.mem ∧
    (State.wakeBobbins n s).fwMem = s.fwMem ∧ (State.wakeBobbins n s).ms = s.ms ∧
    (State.wakeBobbins n s).pricks = s.pricks ∧ (State.wakeBobbins n s).templates = s.templates ∧
    (State.wakeBobbins n s).jobs = s.jobs ∧ (State.wakeBobbins n s).order = s.order ∧
    (State.wakeBobbins n s).free = s.free := by
  have hF0 := @State.modBobbin_frame
  unfold State.wakeBobbins; simp [hF0]

theorem State.dropSlotRefresh_frame (n : Nat) (s : State) : (State.dropSlotRefresh n s).now = s.now ∧
    (State.dropSlotRefresh n s).pending = s.pending ∧ (State.dropSlotRefresh n s).tb = s.tb ∧
    (State.dropSlotRefresh n s).sheets = s.sheets ∧ (State.dropSlotRefresh n s).units = s.units ∧
    (State.dropSlotRefresh n s).pins = s.pins ∧ (State.dropSlotRefresh n s).pk = s.pk ∧
    (State.dropSlotRefresh n s).queues = s.queues ∧ (State.dropSlotRefresh n s).latches = s.latches ∧
    (State.dropSlotRefresh n s).errw = s.errw ∧ (State.dropSlotRefresh n s).sdio = s.sdio ∧
    (State.dropSlotRefresh n s).bulk = s.bulk ∧ (State.dropSlotRefresh n s).mgmt = s.mgmt ∧
    (State.dropSlotRefresh n s).power = s.power ∧ (State.dropSlotRefresh n s).sec = s.sec ∧
    (State.dropSlotRefresh n s).therm = s.therm ∧ (State.dropSlotRefresh n s).ports = s.ports ∧
    (State.dropSlotRefresh n s).streams = s.streams ∧ (State.dropSlotRefresh n s).services = s.services ∧
    (State.dropSlotRefresh n s).ptpPorts = s.ptpPorts ∧ (State.dropSlotRefresh n s).ptp = s.ptp ∧
    (State.dropSlotRefresh n s).chans = s.chans ∧ (State.dropSlotRefresh n s).seqs = s.seqs ∧
    (State.dropSlotRefresh n s).hc = s.hc ∧ (State.dropSlotRefresh n s).trim = s.trim ∧
    (State.dropSlotRefresh n s).bundles = s.bundles ∧ (State.dropSlotRefresh n s).slots = s.slots ∧
    (State.dropSlotRefresh n s).wt = s.wt ∧ (State.dropSlotRefresh n s).mem = s.mem ∧
    (State.dropSlotRefresh n s).fwMem = s.fwMem ∧ (State.dropSlotRefresh n s).ms = s.ms ∧
    (State.dropSlotRefresh n s).pricks = s.pricks ∧ (State.dropSlotRefresh n s).templates = s.templates ∧
    (State.dropSlotRefresh n s).jobs = s.jobs ∧ (State.dropSlotRefresh n s).order = s.order ∧
    (State.dropSlotRefresh n s).free = s.free := by
  have hF0 := @State.dropRefresh_frame
  have hF1 := @State.modPillow_frame
  unfold State.dropSlotRefresh; simp [hF0, hF1]

theorem State.drain_frame (n : Nat) (op : Nat) (next : Option Nat) (hdr : Option Hdr) (s : State) :
    (State.drain n op next hdr s).now = s.now ∧ (State.drain n op next hdr s).pending = s.pending ∧
    (State.drain n op next hdr s).tb = s.tb ∧ (State.drain n op next hdr s).sheets = s.sheets ∧
    (State.drain n op next hdr s).units = s.units ∧ (State.drain n op next hdr s).pins = s.pins ∧
    (State.drain n op next hdr s).pk = s.pk ∧ (State.drain n op next hdr s).queues = s.queues ∧
    (State.drain n op next hdr s).latches = s.latches ∧ (State.drain n op next hdr s).errw = s.errw ∧
    (State.drain n op next hdr s).sdio = s.sdio ∧ (State.drain n op next hdr s).bulk = s.bulk ∧
    (State.drain n op next hdr s).mgmt = s.mgmt ∧ (State.drain n op next hdr s).power = s.power ∧
    (State.drain n op next hdr s).sec = s.sec ∧ (State.drain n op next hdr s).therm = s.therm ∧
    (State.drain n op next hdr s).ports = s.ports ∧ (State.drain n op next hdr s).streams = s.streams ∧
    (State.drain n op next hdr s).services = s.services ∧
    (State.drain n op next hdr s).ptpPorts = s.ptpPorts ∧ (State.drain n op next hdr s).ptp = s.ptp ∧
    (State.drain n op next hdr s).chans = s.chans ∧ (State.drain n op next hdr s).seqs = s.seqs ∧
    (State.drain n op next hdr s).hc = s.hc ∧ (State.drain n op next hdr s).trim = s.trim ∧
    (State.drain n op next hdr s).bundles = s.bundles ∧ (State.drain n op next hdr s).wt = s.wt ∧
    (State.drain n op next hdr s).mem = s.mem ∧ (State.drain n op next hdr s).fwMem = s.fwMem ∧
    (State.drain n op next hdr s).ms = s.ms ∧ (State.drain n op next hdr s).pricks = s.pricks ∧
    (State.drain n op next hdr s).templates = s.templates ∧ (State.drain n op next hdr s).jobs = s.jobs ∧
    (State.drain n op next hdr s).order = s.order ∧ (State.drain n op next hdr s).free = s.free := by
  have hF0 := @State.dropSlotRefresh_frame
  have hF1 := @State.modSlot_frame
  unfold State.drain; simp [hF0, hF1]

theorem slotActivateDo_frame (h : Hdr) (n : Nat) (handle : Option Nat) (s : State) :
    (slotActivateDo h n handle s).now = s.now ∧ (slotActivateDo h n handle s).pending = s.pending ∧
    (slotActivateDo h n handle s).tb = s.tb ∧ (slotActivateDo h n handle s).sheets = s.sheets ∧
    (slotActivateDo h n handle s).units = s.units ∧ (slotActivateDo h n handle s).pins = s.pins ∧
    (slotActivateDo h n handle s).pk = s.pk ∧ (slotActivateDo h n handle s).errw = s.errw ∧
    (slotActivateDo h n handle s).bulk = s.bulk ∧ (slotActivateDo h n handle s).power = s.power ∧
    (slotActivateDo h n handle s).sec = s.sec ∧ (slotActivateDo h n handle s).therm = s.therm ∧
    (slotActivateDo h n handle s).ports = s.ports ∧ (slotActivateDo h n handle s).streams = s.streams ∧
    (slotActivateDo h n handle s).services = s.services ∧
    (slotActivateDo h n handle s).ptpPorts = s.ptpPorts ∧ (slotActivateDo h n handle s).ptp = s.ptp ∧
    (slotActivateDo h n handle s).chans = s.chans ∧ (slotActivateDo h n handle s).seqs = s.seqs ∧
    (slotActivateDo h n handle s).hc = s.hc ∧ (slotActivateDo h n handle s).trim = s.trim ∧
    (slotActivateDo h n handle s).mem = s.mem ∧ (slotActivateDo h n handle s).fwMem = s.fwMem ∧
    (slotActivateDo h n handle s).pricks = s.pricks ∧
    (slotActivateDo h n handle s).templates = s.templates ∧ (slotActivateDo h n handle s).jobs = s.jobs ∧
    (slotActivateDo h n handle s).order = s.order ∧ (slotActivateDo h n handle s).free = s.free := by
  have hF0 := @State.done_frame
  have hF1 := @State.wakeBobbins_frame
  have hF2 := @State.modSlot_frame
  have hF3 := @State.drain_frame
  have hF4 := @State.digestShards_frame
  have hF5 := @State.refuse_frame
  unfold slotActivateDo; dsimp only; (repeat' split) <;> simp [hF0, hF1, hF2, hF3, hF4, hF5]

theorem State.restBobbins_frame (n : Nat) (s : State) : (State.restBobbins n s).now = s.now ∧
    (State.restBobbins n s).pending = s.pending ∧ (State.restBobbins n s).tb = s.tb ∧
    (State.restBobbins n s).sheets = s.sheets ∧ (State.restBobbins n s).units = s.units ∧
    (State.restBobbins n s).pins = s.pins ∧ (State.restBobbins n s).pk = s.pk ∧
    (State.restBobbins n s).queues = s.queues ∧ (State.restBobbins n s).latches = s.latches ∧
    (State.restBobbins n s).errw = s.errw ∧ (State.restBobbins n s).sdio = s.sdio ∧
    (State.restBobbins n s).bulk = s.bulk ∧ (State.restBobbins n s).mgmt = s.mgmt ∧
    (State.restBobbins n s).power = s.power ∧ (State.restBobbins n s).sec = s.sec ∧
    (State.restBobbins n s).therm = s.therm ∧ (State.restBobbins n s).ports = s.ports ∧
    (State.restBobbins n s).streams = s.streams ∧ (State.restBobbins n s).services = s.services ∧
    (State.restBobbins n s).ptpPorts = s.ptpPorts ∧ (State.restBobbins n s).ptp = s.ptp ∧
    (State.restBobbins n s).chans = s.chans ∧ (State.restBobbins n s).seqs = s.seqs ∧
    (State.restBobbins n s).hc = s.hc ∧ (State.restBobbins n s).trim = s.trim ∧
    (State.restBobbins n s).bundles = s.bundles ∧ (State.restBobbins n s).slots = s.slots ∧
    (State.restBobbins n s).wt = s.wt ∧ (State.restBobbins n s).mem = s.mem ∧
    (State.restBobbins n s).fwMem = s.fwMem ∧ (State.restBobbins n s).ms = s.ms ∧
    (State.restBobbins n s).pricks = s.pricks ∧ (State.restBobbins n s).templates = s.templates ∧
    (State.restBobbins n s).jobs = s.jobs ∧ (State.restBobbins n s).order = s.order ∧
    (State.restBobbins n s).free = s.free := by
  have hF0 := @State.modBobbin_frame
  have hF1 := @State.retireEnd_frame
  have hF2 := @State.swapIn_frame
  unfold State.restBobbins; simp [hF0, hF1, hF2]

theorem State.emptySlot_frame (n : Nat) (s : State) : (State.emptySlot n s).now = s.now ∧
    (State.emptySlot n s).pending = s.pending ∧ (State.emptySlot n s).tb = s.tb ∧
    (State.emptySlot n s).sheets = s.sheets ∧ (State.emptySlot n s).units = s.units ∧
    (State.emptySlot n s).pins = s.pins ∧ (State.emptySlot n s).pk = s.pk ∧
    (State.emptySlot n s).queues = s.queues ∧ (State.emptySlot n s).latches = s.latches ∧
    (State.emptySlot n s).errw = s.errw ∧ (State.emptySlot n s).sdio = s.sdio ∧
    (State.emptySlot n s).bulk = s.bulk ∧ (State.emptySlot n s).mgmt = s.mgmt ∧
    (State.emptySlot n s).power = s.power ∧ (State.emptySlot n s).sec = s.sec ∧
    (State.emptySlot n s).therm = s.therm ∧ (State.emptySlot n s).ports = s.ports ∧
    (State.emptySlot n s).streams = s.streams ∧ (State.emptySlot n s).services = s.services ∧
    (State.emptySlot n s).ptpPorts = s.ptpPorts ∧ (State.emptySlot n s).ptp = s.ptp ∧
    (State.emptySlot n s).chans = s.chans ∧ (State.emptySlot n s).seqs = s.seqs ∧
    (State.emptySlot n s).hc = s.hc ∧ (State.emptySlot n s).trim = s.trim ∧
    (State.emptySlot n s).bundles = s.bundles ∧ (State.emptySlot n s).wt = s.wt ∧
    (State.emptySlot n s).mem = s.mem ∧ (State.emptySlot n s).fwMem = s.fwMem ∧
    (State.emptySlot n s).ms = s.ms ∧ (State.emptySlot n s).pricks = s.pricks ∧
    (State.emptySlot n s).templates = s.templates ∧ (State.emptySlot n s).jobs = s.jobs ∧
    (State.emptySlot n s).order = s.order ∧ (State.emptySlot n s).free = s.free := by
  have hF0 := @State.setSlot_frame
  have hF1 := @State.restBobbins_frame
  unfold State.emptySlot; simp [hF0, hF1]

theorem slotRetireDo_frame (h : Hdr) (n : Nat) (s : State) : (slotRetireDo h n s).now = s.now ∧
    (slotRetireDo h n s).pending = s.pending ∧ (slotRetireDo h n s).tb = s.tb ∧
    (slotRetireDo h n s).sheets = s.sheets ∧ (slotRetireDo h n s).units = s.units ∧
    (slotRetireDo h n s).pins = s.pins ∧ (slotRetireDo h n s).pk = s.pk ∧
    (slotRetireDo h n s).latches = s.latches ∧ (slotRetireDo h n s).errw = s.errw ∧
    (slotRetireDo h n s).bulk = s.bulk ∧ (slotRetireDo h n s).power = s.power ∧
    (slotRetireDo h n s).sec = s.sec ∧ (slotRetireDo h n s).therm = s.therm ∧
    (slotRetireDo h n s).ports = s.ports ∧ (slotRetireDo h n s).streams = s.streams ∧
    (slotRetireDo h n s).services = s.services ∧ (slotRetireDo h n s).ptpPorts = s.ptpPorts ∧
    (slotRetireDo h n s).ptp = s.ptp ∧ (slotRetireDo h n s).chans = s.chans ∧
    (slotRetireDo h n s).seqs = s.seqs ∧ (slotRetireDo h n s).hc = s.hc ∧
    (slotRetireDo h n s).trim = s.trim ∧ (slotRetireDo h n s).bundles = s.bundles ∧
    (slotRetireDo h n s).wt = s.wt ∧ (slotRetireDo h n s).mem = s.mem ∧
    (slotRetireDo h n s).fwMem = s.fwMem ∧ (slotRetireDo h n s).ms = s.ms ∧
    (slotRetireDo h n s).pricks = s.pricks ∧ (slotRetireDo h n s).templates = s.templates ∧
    (slotRetireDo h n s).jobs = s.jobs ∧ (slotRetireDo h n s).order = s.order ∧
    (slotRetireDo h n s).free = s.free := by
  have hF0 := @State.release_frame
  have hF1 := @State.drain_frame
  have hF2 := @State.done_frame
  have hF3 := @State.emptySlot_frame
  unfold slotRetireDo; simp [hF0, hF1, hF2, hF3]

/-! ## Programming -/

theorem State.progBad_frame (p : Nat) (q : ProgReq) (x : RunEnd) (s : State) :
    (State.progBad p q x s).now = s.now ∧ (State.progBad p q x s).pending = s.pending ∧
    (State.progBad p q x s).tb = s.tb ∧ (State.progBad p q x s).sheets = s.sheets ∧
    (State.progBad p q x s).units = s.units ∧ (State.progBad p q x s).pins = s.pins ∧
    (State.progBad p q x s).pk = s.pk ∧ (State.progBad p q x s).errw = s.errw ∧
    (State.progBad p q x s).bulk = s.bulk ∧ (State.progBad p q x s).mgmt = s.mgmt ∧
    (State.progBad p q x s).power = s.power ∧ (State.progBad p q x s).sec = s.sec ∧
    (State.progBad p q x s).therm = s.therm ∧ (State.progBad p q x s).ports = s.ports ∧
    (State.progBad p q x s).streams = s.streams ∧ (State.progBad p q x s).services = s.services ∧
    (State.progBad p q x s).ptpPorts = s.ptpPorts ∧ (State.progBad p q x s).ptp = s.ptp ∧
    (State.progBad p q x s).chans = s.chans ∧ (State.progBad p q x s).seqs = s.seqs ∧
    (State.progBad p q x s).hc = s.hc ∧ (State.progBad p q x s).trim = s.trim ∧
    (State.progBad p q x s).bundles = s.bundles ∧ (State.progBad p q x s).wt = s.wt ∧
    (State.progBad p q x s).mem = s.mem ∧ (State.progBad p q x s).fwMem = s.fwMem ∧
    (State.progBad p q x s).ms = s.ms ∧ (State.progBad p q x s).pricks = s.pricks ∧
    (State.progBad p q x s).templates = s.templates ∧ (State.progBad p q x s).jobs = s.jobs ∧
    (State.progBad p q x s).order = s.order := by
  have hF0 := @State.slotFailed_frame
  have hF1 := @State.modPillow_frame
  have hF2 := @State.modBobbin_frame
  have hF3 := @State.draw_frame
  have hF4 := @State.loseSpare_frame
  unfold State.progBad; dsimp only; (repeat' split) <;> simp [hF0, hF1, hF2, hF3, hF4]

theorem State.slotStops_frame (n : Nat) (p : Nat) (b : Nat) (s : State) :
    (State.slotStops n p b s).now = s.now ∧ (State.slotStops n p b s).pending = s.pending ∧
    (State.slotStops n p b s).tb = s.tb ∧ (State.slotStops n p b s).sheets = s.sheets ∧
    (State.slotStops n p b s).units = s.units ∧ (State.slotStops n p b s).pins = s.pins ∧
    (State.slotStops n p b s).pk = s.pk ∧ (State.slotStops n p b s).errw = s.errw ∧
    (State.slotStops n p b s).bulk = s.bulk ∧ (State.slotStops n p b s).mgmt = s.mgmt ∧
    (State.slotStops n p b s).power = s.power ∧ (State.slotStops n p b s).sec = s.sec ∧
    (State.slotStops n p b s).therm = s.therm ∧ (State.slotStops n p b s).ports = s.ports ∧
    (State.slotStops n p b s).streams = s.streams ∧ (State.slotStops n p b s).services = s.services ∧
    (State.slotStops n p b s).ptpPorts = s.ptpPorts ∧ (State.slotStops n p b s).ptp = s.ptp ∧
    (State.slotStops n p b s).chans = s.chans ∧ (State.slotStops n p b s).seqs = s.seqs ∧
    (State.slotStops n p b s).hc = s.hc ∧ (State.slotStops n p b s).bundles = s.bundles ∧
    (State.slotStops n p b s).wt = s.wt ∧ (State.slotStops n p b s).mem = s.mem ∧
    (State.slotStops n p b s).fwMem = s.fwMem ∧ (State.slotStops n p b s).ms = s.ms ∧
    (State.slotStops n p b s).pricks = s.pricks ∧ (State.slotStops n p b s).templates = s.templates ∧
    (State.slotStops n p b s).jobs = s.jobs ∧ (State.slotStops n p b s).order = s.order ∧
    (State.slotStops n p b s).free = s.free := by
  have hF0 := @State.reply_frame
  have hF1 := @State.calFail_frame
  have hF2 := @State.slotDown_frame
  unfold State.slotStops; dsimp only; (repeat' split) <;> simp [hF0, hF1, hF2]

theorem State.checkSound_frame (p : Nat) (s : State) : (State.checkSound p s).now = s.now ∧
    (State.checkSound p s).pending = s.pending ∧ (State.checkSound p s).tb = s.tb ∧
    (State.checkSound p s).sheets = s.sheets ∧ (State.checkSound p s).units = s.units ∧
    (State.checkSound p s).errw = s.errw ∧ (State.checkSound p s).bulk = s.bulk ∧
    (State.checkSound p s).sec = s.sec ∧ (State.checkSound p s).therm = s.therm ∧
    (State.checkSound p s).streams = s.streams ∧ (State.checkSound p s).ptpPorts = s.ptpPorts ∧
    (State.checkSound p s).ptp = s.ptp ∧ (State.checkSound p s).chans = s.chans ∧
    (State.checkSound p s).seqs = s.seqs ∧ (State.checkSound p s).hc = s.hc ∧
    (State.checkSound p s).trim = s.trim ∧ (State.checkSound p s).bundles = s.bundles ∧
    (State.checkSound p s).slots = s.slots ∧ (State.checkSound p s).wt = s.wt ∧
    (State.checkSound p s).fwMem = s.fwMem ∧ (State.checkSound p s).pricks = s.pricks ∧
    (State.checkSound p s).templates = s.templates ∧ (State.checkSound p s).order = s.order := by
  have hF0 := @State.settlePillows_frame
  have hF1 := @State.failOut_frame
  unfold State.checkSound; simp [hF0, hF1]

@[simp] theorem State.checkSound_wf (p : Nat) (s : State) (hm : Memory.wf s.mem = true) :
    Memory.wf (State.checkSound p s).mem = true := by
  unfold State.checkSound; simp [hm]

theorem State.someRow_frame (s : State) : (State.someRow s).2.now = s.now ∧
    (State.someRow s).2.pending = s.pending ∧ (State.someRow s).2.tb = s.tb ∧
    (State.someRow s).2.sheets = s.sheets ∧ (State.someRow s).2.units = s.units ∧
    (State.someRow s).2.pins = s.pins ∧ (State.someRow s).2.pk = s.pk ∧
    (State.someRow s).2.queues = s.queues ∧ (State.someRow s).2.latches = s.latches ∧
    (State.someRow s).2.errw = s.errw ∧ (State.someRow s).2.sdio = s.sdio ∧
    (State.someRow s).2.bulk = s.bulk ∧ (State.someRow s).2.mgmt = s.mgmt ∧
    (State.someRow s).2.power = s.power ∧ (State.someRow s).2.sec = s.sec ∧
    (State.someRow s).2.therm = s.therm ∧ (State.someRow s).2.ports = s.ports ∧
    (State.someRow s).2.streams = s.streams ∧ (State.someRow s).2.services = s.services ∧
    (State.someRow s).2.ptpPorts = s.ptpPorts ∧ (State.someRow s).2.ptp = s.ptp ∧
    (State.someRow s).2.chans = s.chans ∧ (State.someRow s).2.seqs = s.seqs ∧
    (State.someRow s).2.hc = s.hc ∧ (State.someRow s).2.trim = s.trim ∧
    (State.someRow s).2.bundles = s.bundles ∧ (State.someRow s).2.slots = s.slots ∧
    (State.someRow s).2.wt = s.wt ∧ (State.someRow s).2.mem = s.mem ∧ (State.someRow s).2.fwMem = s.fwMem ∧
    (State.someRow s).2.ms = s.ms ∧ (State.someRow s).2.pricks = s.pricks ∧
    (State.someRow s).2.templates = s.templates ∧ (State.someRow s).2.jobs = s.jobs ∧
    (State.someRow s).2.order = s.order ∧ (State.someRow s).2.pillows = s.pillows := by
  have hF0 := @State.draw_frame
  unfold State.someRow; simp [hF0]

theorem State.progUnread_frame (p : Nat) (q : ProgReq) (row : Nat) (iters : Nat) (s : State) :
    (State.progUnread p q row iters s).now = s.now ∧
    (State.progUnread p q row iters s).pending = s.pending ∧ (State.progUnread p q row iters s).tb = s.tb ∧
    (State.progUnread p q row iters s).sheets = s.sheets ∧
    (State.progUnread p q row iters s).units = s.units ∧ (State.progUnread p q row iters s).pins = s.pins ∧
    (State.progUnread p q row iters s).pk = s.pk ∧ (State.progUnread p q row iters s).errw = s.errw ∧
    (State.progUnread p q row iters s).bulk = s.bulk ∧ (State.progUnread p q row iters s).mgmt = s.mgmt ∧
    (State.progUnread p q row iters s).power = s.power ∧ (State.progUnread p q row iters s).sec = s.sec ∧
    (State.progUnread p q row iters s).therm = s.therm ∧
    (State.progUnread p q row iters s).ports = s.ports ∧
    (State.progUnread p q row iters s).streams = s.streams ∧
    (State.progUnread p q row iters s).services = s.services ∧
    (State.progUnread p q row iters s).ptpPorts = s.ptpPorts ∧
    (State.progUnread p q row iters s).ptp = s.ptp ∧ (State.progUnread p q row iters s).chans = s.chans ∧
    (State.progUnread p q row iters s).seqs = s.seqs ∧ (State.progUnread p q row iters s).hc = s.hc ∧
    (State.progUnread p q row iters s).bundles = s.bundles ∧ (State.progUnread p q row iters s).wt = s.wt ∧
    (State.progUnread p q row iters s).mem = s.mem ∧ (State.progUnread p q row iters s).fwMem = s.fwMem ∧
    (State.progUnread p q row iters s).ms = s.ms ∧ (State.progUnread p q row iters s).pricks = s.pricks ∧
    (State.progUnread p q row iters s).templates = s.templates ∧
    (State.progUnread p q row iters s).jobs = s.jobs ∧
    (State.progUnread p q row iters s).order = s.order := by
  have hF0 := @State.progBad_frame
  have hF1 := @State.slotStops_frame
  unfold State.progUnread; dsimp only; (repeat' split) <;> simp [hF0, hF1]

theorem State.progEnd_frame (p : Nat) (q : ProgReq) (vfail : Nat) (iters : Nat) (s : State) :
    (State.progEnd p q vfail iters s).now = s.now ∧ (State.progEnd p q vfail iters s).pending = s.pending ∧
    (State.progEnd p q vfail iters s).tb = s.tb ∧ (State.progEnd p q vfail iters s).sheets = s.sheets ∧
    (State.progEnd p q vfail iters s).units = s.units ∧ (State.progEnd p q vfail iters s).errw = s.errw ∧
    (State.progEnd p q vfail iters s).bulk = s.bulk ∧ (State.progEnd p q vfail iters s).sec = s.sec ∧
    (State.progEnd p q vfail iters s).therm = s.therm ∧
    (State.progEnd p q vfail iters s).streams = s.streams ∧
    (State.progEnd p q vfail iters s).ptpPorts = s.ptpPorts ∧
    (State.progEnd p q vfail iters s).ptp = s.ptp ∧ (State.progEnd p q vfail iters s).chans = s.chans ∧
    (State.progEnd p q vfail iters s).seqs = s.seqs ∧ (State.progEnd p q vfail iters s).hc = s.hc ∧
    (State.progEnd p q vfail iters s).fwMem = s.fwMem ∧
    (State.progEnd p q vfail iters s).pricks = s.pricks ∧
    (State.progEnd p q vfail iters s).templates = s.templates ∧
    (State.progEnd p q vfail iters s).order = s.order := by
  have hF0 := @State.markStale_frame
  have hF1 := @State.meetShard_frame
  have hF2 := @State.progGood_frame
  have hF3 := @State.progBad_frame
  have hF4 := @State.checkSound_frame
  have hF5 := @State.someRow_frame
  have hF6 := @State.progUnread_frame
  unfold State.progEnd; dsimp only; (repeat' split) <;> simp [hF0, hF1, hF2, hF3, hF4, hF5, hF6]

@[simp] theorem State.progEnd_wf (p : Nat) (q : ProgReq) (vfail : Nat) (iters : Nat) (s : State) (hm : Memory.wf s.mem = true) :
    Memory.wf (State.progEnd p q vfail iters s).mem = true := by
  have hF0 := @State.markStale_frame
  have hF1 := @State.meetShard_frame
  have hF2 := @State.progGood_frame
  have hF3 := @State.progBad_frame
  have hF4 := @State.someRow_frame
  have hF5 := @State.progUnread_frame
  unfold State.progEnd; dsimp only; (repeat' split) <;> simp [hF0, hF1, hF2, hF3, hF4, hF5, hm]

/-! ## Records -/

theorem State.recordEpoch_frame (j : Job) (s : State) : (State.recordEpoch j s).2.now = s.now ∧
    (State.recordEpoch j s).2.pending = s.pending ∧ (State.recordEpoch j s).2.tb = s.tb ∧
    (State.recordEpoch j s).2.sheets = s.sheets ∧ (State.recordEpoch j s).2.units = s.units ∧
    (State.recordEpoch j s).2.pins = s.pins ∧ (State.recordEpoch j s).2.pk = s.pk ∧
    (State.recordEpoch j s).2.queues = s.queues ∧ (State.recordEpoch j s).2.latches = s.latches ∧
    (State.recordEpoch j s).2.errw = s.errw ∧ (State.recordEpoch j s).2.sdio = s.sdio ∧
    (State.recordEpoch j s).2.bulk = s.bulk ∧ (State.recordEpoch j s).2.mgmt = s.mgmt ∧
    (State.recordEpoch j s).2.power = s.power ∧ (State.recordEpoch j s).2.sec = s.sec ∧
    (State.recordEpoch j s).2.therm = s.therm ∧ (State.recordEpoch j s).2.ports = s.ports ∧
    (State.recordEpoch j s).2.streams = s.streams ∧ (State.recordEpoch j s).2.services = s.services ∧
    (State.recordEpoch j s).2.ptpPorts = s.ptpPorts ∧ (State.recordEpoch j s).2.ptp = s.ptp ∧
    (State.recordEpoch j s).2.chans = s.chans ∧ (State.recordEpoch j s).2.seqs = s.seqs ∧
    (State.recordEpoch j s).2.hc = s.hc ∧ (State.recordEpoch j s).2.trim = s.trim ∧
    (State.recordEpoch j s).2.bundles = s.bundles ∧ (State.recordEpoch j s).2.slots = s.slots ∧
    (State.recordEpoch j s).2.wt = s.wt ∧ (State.recordEpoch j s).2.mem = s.mem ∧
    (State.recordEpoch j s).2.fwMem = s.fwMem ∧ (State.recordEpoch j s).2.ms = s.ms ∧
    (State.recordEpoch j s).2.pricks = s.pricks ∧ (State.recordEpoch j s).2.templates = s.templates ∧
    (State.recordEpoch j s).2.jobs = s.jobs ∧ (State.recordEpoch j s).2.order = s.order ∧
    (State.recordEpoch j s).2.pillows = s.pillows := by
  have hF0 := @State.draw_frame
  unfold State.recordEpoch; simp [hF0]

theorem State.recordModel_frame (j : Job) (s : State) : (State.recordModel j s).2.now = s.now ∧
    (State.recordModel j s).2.pending = s.pending ∧ (State.recordModel j s).2.tb = s.tb ∧
    (State.recordModel j s).2.sheets = s.sheets ∧ (State.recordModel j s).2.units = s.units ∧
    (State.recordModel j s).2.pins = s.pins ∧ (State.recordModel j s).2.pk = s.pk ∧
    (State.recordModel j s).2.queues = s.queues ∧ (State.recordModel j s).2.latches = s.latches ∧
    (State.recordModel j s).2.errw = s.errw ∧ (State.recordModel j s).2.sdio = s.sdio ∧
    (State.recordModel j s).2.bulk = s.bulk ∧ (State.recordModel j s).2.mgmt = s.mgmt ∧
    (State.recordModel j s).2.power = s.power ∧ (State.recordModel j s).2.sec = s.sec ∧
    (State.recordModel j s).2.therm = s.therm ∧ (State.recordModel j s).2.ports = s.ports ∧
    (State.recordModel j s).2.streams = s.streams ∧ (State.recordModel j s).2.services = s.services ∧
    (State.recordModel j s).2.ptpPorts = s.ptpPorts ∧ (State.recordModel j s).2.ptp = s.ptp ∧
    (State.recordModel j s).2.chans = s.chans ∧ (State.recordModel j s).2.seqs = s.seqs ∧
    (State.recordModel j s).2.hc = s.hc ∧ (State.recordModel j s).2.trim = s.trim ∧
    (State.recordModel j s).2.bundles = s.bundles ∧ (State.recordModel j s).2.slots = s.slots ∧
    (State.recordModel j s).2.wt = s.wt ∧ (State.recordModel j s).2.mem = s.mem ∧
    (State.recordModel j s).2.fwMem = s.fwMem ∧ (State.recordModel j s).2.ms = s.ms ∧
    (State.recordModel j s).2.pricks = s.pricks ∧ (State.recordModel j s).2.templates = s.templates ∧
    (State.recordModel j s).2.jobs = s.jobs ∧ (State.recordModel j s).2.order = s.order ∧
    (State.recordModel j s).2.pillows = s.pillows := by
  have hF0 := @State.draw_frame
  unfold State.recordModel; simp [hF0]

theorem State.recordFigures_frame (j : Job) (s : State) : (State.recordFigures j s).2.now = s.now ∧
    (State.recordFigures j s).2.pending = s.pending ∧ (State.recordFigures j s).2.tb = s.tb ∧
    (State.recordFigures j s).2.sheets = s.sheets ∧ (State.recordFigures j s).2.units = s.units ∧
    (State.recordFigures j s).2.pins = s.pins ∧ (State.recordFigures j s).2.pk = s.pk ∧
    (State.recordFigures j s).2.queues = s.queues ∧ (State.recordFigures j s).2.latches = s.latches ∧
    (State.recordFigures j s).2.errw = s.errw ∧ (State.recordFigures j s).2.sdio = s.sdio ∧
    (State.recordFigures j s).2.bulk = s.bulk ∧ (State.recordFigures j s).2.mgmt = s.mgmt ∧
    (State.recordFigures j s).2.power = s.power ∧ (State.recordFigures j s).2.sec = s.sec ∧
    (State.recordFigures j s).2.therm = s.therm ∧ (State.recordFigures j s).2.ports = s.ports ∧
    (State.recordFigures j s).2.streams = s.streams ∧ (State.recordFigures j s).2.services = s.services ∧
    (State.recordFigures j s).2.ptpPorts = s.ptpPorts ∧ (State.recordFigures j s).2.ptp = s.ptp ∧
    (State.recordFigures j s).2.chans = s.chans ∧ (State.recordFigures j s).2.seqs = s.seqs ∧
    (State.recordFigures j s).2.hc = s.hc ∧ (State.recordFigures j s).2.trim = s.trim ∧
    (State.recordFigures j s).2.bundles = s.bundles ∧ (State.recordFigures j s).2.slots = s.slots ∧
    (State.recordFigures j s).2.wt = s.wt ∧ (State.recordFigures j s).2.mem = s.mem ∧
    (State.recordFigures j s).2.fwMem = s.fwMem ∧ (State.recordFigures j s).2.ms = s.ms ∧
    (State.recordFigures j s).2.pricks = s.pricks ∧ (State.recordFigures j s).2.templates = s.templates ∧
    (State.recordFigures j s).2.jobs = s.jobs ∧ (State.recordFigures j s).2.order = s.order ∧
    (State.recordFigures j s).2.pillows = s.pillows := by
  have hF0 := @State.recordEpoch_frame
  have hF1 := @State.recordModel_frame
  unfold State.recordFigures; dsimp only; (repeat' split) <;> simp [hF0, hF1]

theorem State.compactFirst_frame (p : Nat) (c : Nat) (j : Job) (payload : Bytes) (s : State) :
    (State.compactFirst p c j payload s).now = s.now ∧
    (State.compactFirst p c j payload s).pending = s.pending ∧
    (State.compactFirst p c j payload s).tb = s.tb ∧
    (State.compactFirst p c j payload s).sheets = s.sheets ∧
    (State.compactFirst p c j payload s).units = s.units ∧
    (State.compactFirst p c j payload s).pins = s.pins ∧ (State.compactFirst p c j payload s).pk = s.pk ∧
    (State.compactFirst p c j payload s).latches = s.latches ∧
    (State.compactFirst p c j payload s).errw = s.errw ∧
    (State.compactFirst p c j payload s).bulk = s.bulk ∧
    (State.compactFirst p c j payload s).mgmt = s.mgmt ∧
    (State.compactFirst p c j payload s).power = s.power ∧
    (State.compactFirst p c j payload s).sec = s.sec ∧
    (State.compactFirst p c j payload s).therm = s.therm ∧
    (State.compactFirst p c j payload s).ports = s.ports ∧
    (State.compactFirst p c j payload s).streams = s.streams ∧
    (State.compactFirst p c j payload s).services = s.services ∧
    (State.compactFirst p c j payload s).ptpPorts = s.ptpPorts ∧
    (State.compactFirst p c j payload s).ptp = s.ptp ∧
    (State.compactFirst p c j payload s).chans = s.chans ∧
    (State.compactFirst p c j payload s).seqs = s.seqs ∧ (State.compactFirst p c j payload s).hc = s.hc ∧
    (State.compactFirst p c j payload s).trim = s.trim ∧
    (State.compactFirst p c j payload s).bundles = s.bundles ∧
    (State.compactFirst p c j payload s).slots = s.slots ∧ (State.compactFirst p c j payload s).wt = s.wt ∧
    (State.compactFirst p c j payload s).mem = s.mem ∧
    (State.compactFirst p c j payload s).fwMem = s.fwMem ∧ (State.compactFirst p c j payload s).ms = s.ms ∧
    (State.compactFirst p c j payload s).pricks = s.pricks ∧
    (State.compactFirst p c j payload s).templates = s.templates ∧
    (State.compactFirst p c j payload s).order = s.order ∧
    (State.compactFirst p c j payload s).pillows = s.pillows := by
  have hF0 := @State.modQueue_frame
  have hF1 := @State.modJob_frame
  have hF2 := @State.present_frame
  have hF3 := @State.recordFigures_frame
  unfold State.compactFirst; simp [hF0, hF1, hF2, hF3]

theorem State.countCommit_frame (p : Nat) (c : Nat) (j : Job) (s : State) :
    (State.countCommit p c j s).now = s.now ∧ (State.countCommit p c j s).pending = s.pending ∧
    (State.countCommit p c j s).tb = s.tb ∧ (State.countCommit p c j s).sheets = s.sheets ∧
    (State.countCommit p c j s).units = s.units ∧ (State.countCommit p c j s).pins = s.pins ∧
    (State.countCommit p c j s).pk = s.pk ∧ (State.countCommit p c j s).errw = s.errw ∧
    (State.countCommit p c j s).bulk = s.bulk ∧ (State.countCommit p c j s).power = s.power ∧
    (State.countCommit p c j s).sec = s.sec ∧ (State.countCommit p c j s).therm = s.therm ∧
    (State.countCommit p c j s).ports = s.ports ∧ (State.countCommit p c j s).streams = s.streams ∧
    (State.countCommit p c j s).services = s.services ∧ (State.countCommit p c j s).ptpPorts = s.ptpPorts ∧
    (State.countCommit p c j s).ptp = s.ptp ∧ (State.countCommit p c j s).chans = s.chans ∧
    (State.countCommit p c j s).seqs = s.seqs ∧ (State.countCommit p c j s).hc = s.hc ∧
    (State.countCommit p c j s).trim = s.trim ∧ (State.countCommit p c j s).bundles = s.bundles ∧
    (State.countCommit p c j s).slots = s.slots ∧ (State.countCommit p c j s).wt = s.wt ∧
    (State.countCommit p c j s).mem = s.mem ∧ (State.countCommit p c j s).fwMem = s.fwMem ∧
    (State.countCommit p c j s).ms = s.ms ∧ (State.countCommit p c j s).pricks = s.pricks ∧
    (State.countCommit p c j s).templates = s.templates ∧ (State.countCommit p c j s).jobs = s.jobs ∧
    (State.countCommit p c j s).order = s.order ∧ (State.countCommit p c j s).free = s.free := by
  have hF0 := @State.modPillow_frame
  have hF1 := @State.report_frame
  unfold State.countCommit; simp [hF0, hF1]

theorem State.commitRecords_frame (p : Nat) (c : Nat) (j : Job) (payload : Bytes) (s : State) :
    (State.commitRecords p c j payload s).now = s.now ∧
    (State.commitRecords p c j payload s).pending = s.pending ∧
    (State.commitRecords p c j payload s).tb = s.tb ∧
    (State.commitRecords p c j payload s).sheets = s.sheets ∧
    (State.commitRecords p c j payload s).units = s.units ∧
    (State.commitRecords p c j payload s).pins = s.pins ∧ (State.commitRecords p c j payload s).pk = s.pk ∧
    (State.commitRecords p c j payload s).errw = s.errw ∧
    (State.commitRecords p c j payload s).bulk = s.bulk ∧
    (State.commitRecords p c j payload s).power = s.power ∧
    (State.commitRecords p c j payload s).sec = s.sec ∧
    (State.commitRecords p c j payload s).therm = s.therm ∧
    (State.commitRecords p c j payload s).ports = s.ports ∧
    (State.commitRecords p c j payload s).streams = s.streams ∧
    (State.commitRecords p c j payload s).services = s.services ∧
    (State.commitRecords p c j payload s).ptpPorts = s.ptpPorts ∧
    (State.commitRecords p c j payload s).ptp = s.ptp ∧
    (State.commitRecords p c j payload s).chans = s.chans ∧
    (State.commitRecords p c j payload s).seqs = s.seqs ∧ (State.commitRecords p c j payload s).hc = s.hc ∧
    (State.commitRecords p c j payload s).trim = s.trim ∧
    (State.commitRecords p c j payload s).bundles = s.bundles ∧
    (State.commitRecords p c j payload s).slots = s.slots ∧
    (State.commitRecords p c j payload s).wt = s.wt ∧ (State.commitRecords p c j payload s).mem = s.mem ∧
    (State.commitRecords p c j payload s).fwMem = s.fwMem ∧
    (State.commitRecords p c j payload s).ms = s.ms ∧
    (State.commitRecords p c j payload s).pricks = s.pricks ∧
    (State.commitRecords p c j payload s).jobs = s.jobs ∧
    (State.commitRecords p c j payload s).order = s.order := by
  have hF0 := @State.present_frame
  have hF1 := @State.rowDelivered_frame
  have hF2 := @State.recordFigures_frame
  have hF3 := @State.countCommit_frame
  unfold State.commitRecords; simp [hF0, hF1, hF2, hF3]

theorem State.readPayload_frame (w : Work) (s : State) (h : (State.readPayload w s).isWait = false) :
    (State.readPayload w s).okState.now = s.now ∧ (State.readPayload w s).okState.pending = s.pending ∧
    (State.readPayload w s).okState.tb = s.tb ∧ (State.readPayload w s).okState.sheets = s.sheets ∧
    (State.readPayload w s).okState.units = s.units ∧ (State.readPayload w s).okState.pins = s.pins ∧
    (State.readPayload w s).okState.pk = s.pk ∧ (State.readPayload w s).okState.errw = s.errw ∧
    (State.readPayload w s).okState.bulk = s.bulk ∧ (State.readPayload w s).okState.power = s.power ∧
    (State.readPayload w s).okState.sec = s.sec ∧ (State.readPayload w s).okState.therm = s.therm ∧
    (State.readPayload w s).okState.ports = s.ports ∧ (State.readPayload w s).okState.streams = s.streams ∧
    (State.readPayload w s).okState.services = s.services ∧
    (State.readPayload w s).okState.ptpPorts = s.ptpPorts ∧ (State.readPayload w s).okState.ptp = s.ptp ∧
    (State.readPayload w s).okState.chans = s.chans ∧ (State.readPayload w s).okState.seqs = s.seqs ∧
    (State.readPayload w s).okState.hc = s.hc ∧ (State.readPayload w s).okState.trim = s.trim ∧
    (State.readPayload w s).okState.bundles = s.bundles ∧ (State.readPayload w s).okState.slots = s.slots ∧
    (State.readPayload w s).okState.wt = s.wt ∧ (State.readPayload w s).okState.mem = s.mem ∧
    (State.readPayload w s).okState.fwMem = s.fwMem ∧ (State.readPayload w s).okState.pricks = s.pricks ∧
    (State.readPayload w s).okState.templates = s.templates ∧
    (State.readPayload w s).okState.order = s.order := by
  have hF0 := @State.readOpnd_frame
  revert h; unfold State.readPayload; dsimp only; (repeat' split) <;> (repeat (rename _ = Access.ok _ _ => hx; obtain ⟨hw, rfl⟩ := Access.ok_elim hx; clear hx)) <;> (intro h; simp [*])

theorem State.runRecord_frame (p : Nat) (w : Work) (s : State) : (State.runRecord p w s).now = s.now ∧
    (State.runRecord p w s).pending = s.pending ∧ (State.runRecord p w s).tb = s.tb ∧
    (State.runRecord p w s).sheets = s.sheets ∧ (State.runRecord p w s).units = s.units ∧
    (State.runRecord p w s).errw = s.errw ∧ (State.runRecord p w s).bulk = s.bulk ∧
    (State.runRecord p w s).sec = s.sec ∧ (State.runRecord p w s).therm = s.therm ∧
    (State.runRecord p w s).streams = s.streams ∧ (State.runRecord p w s).ptpPorts = s.ptpPorts ∧
    (State.runRecord p w s).ptp = s.ptp ∧ (State.runRecord p w s).chans = s.chans ∧
    (State.runRecord p w s).seqs = s.seqs ∧ (State.runRecord p w s).hc = s.hc ∧
    (State.runRecord p w s).trim = s.trim ∧ (State.runRecord p w s).bundles = s.bundles ∧
    (State.runRecord p w s).slots = s.slots ∧ (State.runRecord p w s).wt = s.wt ∧
    (State.runRecord p w s).fwMem = s.fwMem ∧ (State.runRecord p w s).pricks = s.pricks ∧
    (State.runRecord p w s).order = s.order := by
  have hF0 := @State.modRun_frame
  have hF1 := @State.unitFault_frame
  have hF2 := @State.unitWait_frame
  have hF3 := @State.settlePillows_frame
  have hF4 := @State.boundary_frame
  have hF5 := @State.compactFirst_frame
  have hF6 := @State.commitRecords_frame
  have hF7 := @State.readPayload_frame
  unfold State.runRecord; dsimp only; (repeat' split) <;> (repeat (rename _ = Access.ok _ _ => hx; obtain ⟨hw, rfl⟩ := Access.ok_elim hx; clear hx)) <;> (repeat (rename _ = Access.fault _ _ => hx; obtain ⟨hw, rfl⟩ := Access.fault_elim hx; clear hx)) <;> simp [*]

@[simp] theorem State.runRecord_wf (p : Nat) (w : Work) (s : State) (hm : Memory.wf s.mem = true) :
    Memory.wf (State.runRecord p w s).mem = true := by
  have hF0 := @State.modRun_frame
  have hF1 := @State.unitFault_frame
  have hF2 := @State.unitWait_frame
  have hF3 := @State.compactFirst_frame
  have hF4 := @State.commitRecords_frame
  have hF5 := @State.readPayload_frame
  unfold State.runRecord; dsimp only; (repeat' split) <;> (repeat (rename _ = Access.ok _ _ => hx; obtain ⟨hw, rfl⟩ := Access.ok_elim hx; clear hx)) <;> (repeat (rename _ = Access.fault _ _ => hx; obtain ⟨hw, rfl⟩ := Access.fault_elim hx; clear hx)) <;> simp [*]

theorem State.routeRecord_frame (q : QPacket) (s : State) : (State.routeRecord q s).now = s.now ∧
    (State.routeRecord q s).pending = s.pending ∧ (State.routeRecord q s).tb = s.tb ∧
    (State.routeRecord q s).sheets = s.sheets ∧ (State.routeRecord q s).units = s.units ∧
    (State.routeRecord q s).pins = s.pins ∧ (State.routeRecord q s).errw = s.errw ∧
    (State.routeRecord q s).bulk = s.bulk ∧ (State.routeRecord q s).mgmt = s.mgmt ∧
    (State.routeRecord q s).power = s.power ∧ (State.routeRecord q s).sec = s.sec ∧
    (State.routeRecord q s).therm = s.therm ∧ (State.routeRecord q s).ports = s.ports ∧
    (State.routeRecord q s).streams = s.streams ∧ (State.routeRecord q s).ptpPorts = s.ptpPorts ∧
    (State.routeRecord q s).chans = s.chans ∧ (State.routeRecord q s).seqs = s.seqs ∧
    (State.routeRecord q s).hc = s.hc ∧ (State.routeRecord q s).trim = s.trim ∧
    (State.routeRecord q s).bundles = s.bundles ∧ (State.routeRecord q s).slots = s.slots ∧
    (State.routeRecord q s).wt = s.wt ∧ (State.routeRecord q s).mem = s.mem ∧
    (State.routeRecord q s).fwMem = s.fwMem ∧ (State.routeRecord q s).ms = s.ms ∧
    (State.routeRecord q s).pricks = s.pricks ∧ (State.routeRecord q s).templates = s.templates ∧
    (State.routeRecord q s).jobs = s.jobs ∧ (State.routeRecord q s).order = s.order ∧
    (State.routeRecord q s).pillows = s.pillows ∧ (State.routeRecord q s).free = s.free := by
  have hF0 := @State.pkDeliver_frame
  have hF1 := @State.egressRecord_frame
  unfold State.routeRecord; simp [hF0, hF1]

/-! ## TimeBase -/

theorem State.pillowBoundary_frame (n : Nat) (p : Nat) (s : State) :
    (State.pillowBoundary n p s).now = s.now ∧ (State.pillowBoundary n p s).pending = s.pending ∧
    (State.pillowBoundary n p s).tb = s.tb ∧ (State.pillowBoundary n p s).sheets = s.sheets ∧
    (State.pillowBoundary n p s).units = s.units ∧ (State.pillowBoundary n p s).pins = s.pins ∧
    (State.pillowBoundary n p s).pk = s.pk ∧ (State.pillowBoundary n p s).queues = s.queues ∧
    (State.pillowBoundary n p s).latches = s.latches ∧ (State.pillowBoundary n p s).errw = s.errw ∧
    (State.pillowBoundary n p s).sdio = s.sdio ∧ (State.pillowBoundary n p s).bulk = s.bulk ∧
    (State.pillowBoundary n p s).power = s.power ∧ (State.pillowBoundary n p s).sec = s.sec ∧
    (State.pillowBoundary n p s).therm = s.therm ∧ (State.pillowBoundary n p s).ports = s.ports ∧
    (State.pillowBoundary n p s).streams = s.streams ∧ (State.pillowBoundary n p s).services = s.services ∧
    (State.pillowBoundary n p s).ptpPorts = s.ptpPorts ∧ (State.pillowBoundary n p s).ptp = s.ptp ∧
    (State.pillowBoundary n p s).chans = s.chans ∧ (State.pillowBoundary n p s).seqs = s.seqs ∧
    (State.pillowBoundary n p s).hc = s.hc ∧ (State.pillowBoundary n p s).trim = s.trim ∧
    (State.pillowBoundary n p s).bundles = s.bundles ∧ (State.pillowBoundary n p s).slots = s.slots ∧
    (State.pillowBoundary n p s).wt = s.wt ∧ (State.pillowBoundary n p s).mem = s.mem ∧
    (State.pillowBoundary n p s).fwMem = s.fwMem ∧ (State.pillowBoundary n p s).ms = s.ms ∧
    (State.pillowBoundary n p s).pricks = s.pricks ∧ (State.pillowBoundary n p s).templates = s.templates ∧
    (State.pillowBoundary n p s).jobs = s.jobs ∧ (State.pillowBoundary n p s).order = s.order ∧
    (State.pillowBoundary n p s).free = s.free := by
  have hF0 := @State.modPillow_frame
  have hF1 := @State.bindPending_frame
  have hF2 := @State.settle_frame
  unfold State.pillowBoundary; simp [hF0, hF1, hF2]

theorem State.sheetBoundary_frame (st : Nat) (s : State) : (State.sheetBoundary st s).now = s.now ∧
    (State.sheetBoundary st s).pending = s.pending ∧ (State.sheetBoundary st s).tb = s.tb ∧
    (State.sheetBoundary st s).units = s.units ∧ (State.sheetBoundary st s).pins = s.pins ∧
    (State.sheetBoundary st s).pk = s.pk ∧ (State.sheetBoundary st s).queues = s.queues ∧
    (State.sheetBoundary st s).latches = s.latches ∧ (State.sheetBoundary st s).errw = s.errw ∧
    (State.sheetBoundary st s).sdio = s.sdio ∧ (State.sheetBoundary st s).bulk = s.bulk ∧
    (State.sheetBoundary st s).power = s.power ∧ (State.sheetBoundary st s).sec = s.sec ∧
    (State.sheetBoundary st s).therm = s.therm ∧ (State.sheetBoundary st s).ports = s.ports ∧
    (State.sheetBoundary st s).streams = s.streams ∧ (State.sheetBoundary st s).services = s.services ∧
    (State.sheetBoundary st s).ptpPorts = s.ptpPorts ∧ (State.sheetBoundary st s).ptp = s.ptp ∧
    (State.sheetBoundary st s).chans = s.chans ∧ (State.sheetBoundary st s).seqs = s.seqs ∧
    (State.sheetBoundary st s).hc = s.hc ∧ (State.sheetBoundary st s).bundles = s.bundles ∧
    (State.sheetBoundary st s).slots = s.slots ∧ (State.sheetBoundary st s).wt = s.wt ∧
    (State.sheetBoundary st s).mem = s.mem ∧ (State.sheetBoundary st s).fwMem = s.fwMem ∧
    (State.sheetBoundary st s).ms = s.ms ∧ (State.sheetBoundary st s).pricks = s.pricks ∧
    (State.sheetBoundary st s).templates = s.templates ∧ (State.sheetBoundary st s).jobs = s.jobs ∧
    (State.sheetBoundary st s).order = s.order ∧ (State.sheetBoundary st s).free = s.free := by
  unfold State.sheetBoundary
  exact foldl_keeps (fun z : State => z.now = s.now ∧ z.pending = s.pending ∧ z.tb = s.tb ∧ z.units = s.units ∧ z.pins = s.pins ∧ z.pk = s.pk ∧ z.queues = s.queues ∧ z.latches = s.latches ∧ z.errw = s.errw ∧ z.sdio = s.sdio ∧ z.bulk = s.bulk ∧ z.power = s.power ∧ z.sec = s.sec ∧ z.therm = s.therm ∧ z.ports = s.ports ∧ z.streams = s.streams ∧ z.services = s.services ∧ z.ptpPorts = s.ptpPorts ∧ z.ptp = s.ptp ∧ z.chans = s.chans ∧ z.seqs = s.seqs ∧ z.hc = s.hc ∧ z.bundles = s.bundles ∧ z.slots = s.slots ∧ z.wt = s.wt ∧ z.mem = s.mem ∧ z.fwMem = s.fwMem ∧ z.ms = s.ms ∧ z.pricks = s.pricks ∧ z.templates = s.templates ∧ z.jobs = s.jobs ∧ z.order = s.order ∧ z.free = s.free) _ _ _ ⟨rfl, rfl, rfl, rfl, rfl, rfl, rfl, rfl, rfl, rfl, rfl, rfl, rfl, rfl, rfl, rfl, rfl, rfl, rfl, rfl, rfl, rfl, rfl, rfl, rfl, rfl, rfl, rfl, rfl, rfl, rfl, rfl, rfl⟩ (fun t p ht => by
    have hp := State.pillowBoundary_frame (s.sheets.begun st).sheet p t
    simp only [hp, ht, and_self])

theorem State.hostNote_frame (unit : Nat) (note : Nat) (s : State) :
    (State.hostNote unit note s).now = s.now ∧ (State.hostNote unit note s).pending = s.pending ∧
    (State.hostNote unit note s).tb = s.tb ∧ (State.hostNote unit note s).sheets = s.sheets ∧
    (State.hostNote unit note s).units = s.units ∧ (State.hostNote unit note s).pins = s.pins ∧
    (State.hostNote unit note s).pk = s.pk ∧ (State.hostNote unit note s).latches = s.latches ∧
    (State.hostNote unit note s).errw = s.errw ∧ (State.hostNote unit note s).bulk = s.bulk ∧
    (State.hostNote unit note s).mgmt = s.mgmt ∧ (State.hostNote unit note s).power = s.power ∧
    (State.hostNote unit note s).sec = s.sec ∧ (State.hostNote unit note s).therm = s.therm ∧
    (State.hostNote unit note s).ports = s.ports ∧ (State.hostNote unit note s).streams = s.streams ∧
    (State.hostNote unit note s).services = s.services ∧
    (State.hostNote unit note s).ptpPorts = s.ptpPorts ∧ (State.hostNote unit note s).ptp = s.ptp ∧
    (State.hostNote unit note s).chans = s.chans ∧ (State.hostNote unit note s).seqs = s.seqs ∧
    (State.hostNote unit note s).hc = s.hc ∧ (State.hostNote unit note s).trim = s.trim ∧
    (State.hostNote unit note s).bundles = s.bundles ∧ (State.hostNote unit note s).slots = s.slots ∧
    (State.hostNote unit note s).wt = s.wt ∧ (State.hostNote unit note s).mem = s.mem ∧
    (State.hostNote unit note s).fwMem = s.fwMem ∧ (State.hostNote unit note s).ms = s.ms ∧
    (State.hostNote unit note s).pricks = s.pricks ∧ (State.hostNote unit note s).templates = s.templates ∧
    (State.hostNote unit note s).jobs = s.jobs ∧ (State.hostNote unit note s).order = s.order ∧
    (State.hostNote unit note s).pillows = s.pillows ∧ (State.hostNote unit note s).free = s.free := by
  have hF0 := @State.modQueue_frame
  unfold State.hostNote; simp [hF0]

theorem State.unitActs_frame (n : Nat) (st : Nat) (pulsed : List Nat) (s : State) :
    (State.unitActs n st pulsed s).2.now = s.now ∧ (State.unitActs n st pulsed s).2.pending = s.pending ∧
    (State.unitActs n st pulsed s).2.tb = s.tb ∧ (State.unitActs n st pulsed s).2.latches = s.latches ∧
    (State.unitActs n st pulsed s).2.errw = s.errw ∧ (State.unitActs n st pulsed s).2.bulk = s.bulk ∧
    (State.unitActs n st pulsed s).2.power = s.power ∧ (State.unitActs n st pulsed s).2.sec = s.sec ∧
    (State.unitActs n st pulsed s).2.therm = s.therm ∧ (State.unitActs n st pulsed s).2.ports = s.ports ∧
    (State.unitActs n st pulsed s).2.streams = s.streams ∧
    (State.unitActs n st pulsed s).2.services = s.services ∧
    (State.unitActs n st pulsed s).2.ptpPorts = s.ptpPorts ∧ (State.unitActs n st pulsed s).2.ptp = s.ptp ∧
    (State.unitActs n st pulsed s).2.chans = s.chans ∧ (State.unitActs n st pulsed s).2.hc = s.hc ∧
    (State.unitActs n st pulsed s).2.bundles = s.bundles ∧
    (State.unitActs n st pulsed s).2.slots = s.slots ∧ (State.unitActs n st pulsed s).2.wt = s.wt ∧
    (State.unitActs n st pulsed s).2.mem = s.mem ∧ (State.unitActs n st pulsed s).2.fwMem = s.fwMem ∧
    (State.unitActs n st pulsed s).2.ms = s.ms ∧ (State.unitActs n st pulsed s).2.pricks = s.pricks ∧
    (State.unitActs n st pulsed s).2.templates = s.templates ∧
    (State.unitActs n st pulsed s).2.jobs = s.jobs ∧ (State.unitActs n st pulsed s).2.order = s.order ∧
    (State.unitActs n st pulsed s).2.free = s.free := by
  have hF0 := @State.hcAction_frame
  have hF1 := @State.pulse_frame
  have hF2 := @State.pkFire_frame
  have hF3 := @State.sheetBoundary_frame
  have hF4 := @State.hostNote_frame
  unfold State.unitActs; simp [hF0, hF1, hF2, hF3, hF4]

theorem State.fireUnit_frame (st : Nat) (m : List Nat × State) (n : Nat) :
    (State.fireUnit st m n).2.now = m.2.now ∧ (State.fireUnit st m n).2.pending = m.2.pending ∧
    (State.fireUnit st m n).2.tb = m.2.tb ∧ (State.fireUnit st m n).2.latches = m.2.latches ∧
    (State.fireUnit st m n).2.errw = m.2.errw ∧ (State.fireUnit st m n).2.bulk = m.2.bulk ∧
    (State.fireUnit st m n).2.power = m.2.power ∧ (State.fireUnit st m n).2.sec = m.2.sec ∧
    (State.fireUnit st m n).2.therm = m.2.therm ∧ (State.fireUnit st m n).2.ports = m.2.ports ∧
    (State.fireUnit st m n).2.streams = m.2.streams ∧ (State.fireUnit st m n).2.services = m.2.services ∧
    (State.fireUnit st m n).2.ptpPorts = m.2.ptpPorts ∧ (State.fireUnit st m n).2.ptp = m.2.ptp ∧
    (State.fireUnit st m n).2.chans = m.2.chans ∧ (State.fireUnit st m n).2.hc = m.2.hc ∧
    (State.fireUnit st m n).2.bundles = m.2.bundles ∧ (State.fireUnit st m n).2.slots = m.2.slots ∧
    (State.fireUnit st m n).2.wt = m.2.wt ∧ (State.fireUnit st m n).2.mem = m.2.mem ∧
    (State.fireUnit st m n).2.fwMem = m.2.fwMem ∧ (State.fireUnit st m n).2.ms = m.2.ms ∧
    (State.fireUnit st m n).2.pricks = m.2.pricks ∧ (State.fireUnit st m n).2.templates = m.2.templates ∧
    (State.fireUnit st m n).2.jobs = m.2.jobs ∧ (State.fireUnit st m n).2.order = m.2.order ∧
    (State.fireUnit st m n).2.free = m.2.free := by
  have hF0 := @State.unitActs_frame
  have hF1 := @State.setUnit_frame
  unfold State.fireUnit; simp [hF0, hF1]

theorem State.fireUnits_frame (st : Nat) (s : State) : (State.fireUnits st s).now = s.now ∧
    (State.fireUnits st s).pending = s.pending ∧ (State.fireUnits st s).tb = s.tb ∧
    (State.fireUnits st s).latches = s.latches ∧ (State.fireUnits st s).errw = s.errw ∧
    (State.fireUnits st s).bulk = s.bulk ∧ (State.fireUnits st s).power = s.power ∧
    (State.fireUnits st s).sec = s.sec ∧ (State.fireUnits st s).therm = s.therm ∧
    (State.fireUnits st s).ports = s.ports ∧ (State.fireUnits st s).streams = s.streams ∧
    (State.fireUnits st s).services = s.services ∧ (State.fireUnits st s).ptpPorts = s.ptpPorts ∧
    (State.fireUnits st s).ptp = s.ptp ∧ (State.fireUnits st s).chans = s.chans ∧
    (State.fireUnits st s).hc = s.hc ∧ (State.fireUnits st s).bundles = s.bundles ∧
    (State.fireUnits st s).slots = s.slots ∧ (State.fireUnits st s).wt = s.wt ∧
    (State.fireUnits st s).mem = s.mem ∧ (State.fireUnits st s).fwMem = s.fwMem ∧
    (State.fireUnits st s).ms = s.ms ∧ (State.fireUnits st s).pricks = s.pricks ∧
    (State.fireUnits st s).templates = s.templates ∧ (State.fireUnits st s).jobs = s.jobs ∧
    (State.fireUnits st s).order = s.order ∧ (State.fireUnits st s).free = s.free := by
  have hF0 := @State.fireUnit_frame
  unfold State.fireUnits; simp [hF0]

theorem State.askedBoundary_frame (st : Nat) (s : State) : (State.askedBoundary st s).now = s.now ∧
    (State.askedBoundary st s).pending = s.pending ∧ (State.askedBoundary st s).tb = s.tb ∧
    (State.askedBoundary st s).units = s.units ∧ (State.askedBoundary st s).pins = s.pins ∧
    (State.askedBoundary st s).pk = s.pk ∧ (State.askedBoundary st s).queues = s.queues ∧
    (State.askedBoundary st s).latches = s.latches ∧ (State.askedBoundary st s).errw = s.errw ∧
    (State.askedBoundary st s).sdio = s.sdio ∧ (State.askedBoundary st s).bulk = s.bulk ∧
    (State.askedBoundary st s).power = s.power ∧ (State.askedBoundary st s).sec = s.sec ∧
    (State.askedBoundary st s).therm = s.therm ∧ (State.askedBoundary st s).ports = s.ports ∧
    (State.askedBoundary st s).streams = s.streams ∧ (State.askedBoundary st s).services = s.services ∧
    (State.askedBoundary st s).ptpPorts = s.ptpPorts ∧ (State.askedBoundary st s).ptp = s.ptp ∧
    (State.askedBoundary st s).chans = s.chans ∧ (State.askedBoundary st s).seqs = s.seqs ∧
    (State.askedBoundary st s).hc = s.hc ∧ (State.askedBoundary st s).bundles = s.bundles ∧
    (State.askedBoundary st s).slots = s.slots ∧ (State.askedBoundary st s).wt = s.wt ∧
    (State.askedBoundary st s).mem = s.mem ∧ (State.askedBoundary st s).fwMem = s.fwMem ∧
    (State.askedBoundary st s).ms = s.ms ∧ (State.askedBoundary st s).pricks = s.pricks ∧
    (State.askedBoundary st s).templates = s.templates ∧ (State.askedBoundary st s).jobs = s.jobs ∧
    (State.askedBoundary st s).order = s.order ∧ (State.askedBoundary st s).free = s.free := by
  have hF0 := @State.sheetBoundary_frame
  unfold State.askedBoundary; simp [hF0]

theorem State.stamp_frame (s : State) : (State.stamp s).now = s.now ∧ (State.stamp s).pending = s.pending ∧
    (State.stamp s).sheets = s.sheets ∧ (State.stamp s).units = s.units ∧ (State.stamp s).pins = s.pins ∧
    (State.stamp s).pk = s.pk ∧ (State.stamp s).queues = s.queues ∧ (State.stamp s).latches = s.latches ∧
    (State.stamp s).errw = s.errw ∧ (State.stamp s).sdio = s.sdio ∧ (State.stamp s).bulk = s.bulk ∧
    (State.stamp s).mgmt = s.mgmt ∧ (State.stamp s).power = s.power ∧ (State.stamp s).sec = s.sec ∧
    (State.stamp s).therm = s.therm ∧ (State.stamp s).ports = s.ports ∧
    (State.stamp s).streams = s.streams ∧ (State.stamp s).services = s.services ∧
    (State.stamp s).ptpPorts = s.ptpPorts ∧ (State.stamp s).chans = s.chans ∧
    (State.stamp s).seqs = s.seqs ∧ (State.stamp s).hc = s.hc ∧ (State.stamp s).trim = s.trim ∧
    (State.stamp s).bundles = s.bundles ∧ (State.stamp s).slots = s.slots ∧ (State.stamp s).wt = s.wt ∧
    (State.stamp s).mem = s.mem ∧ (State.stamp s).fwMem = s.fwMem ∧ (State.stamp s).ms = s.ms ∧
    (State.stamp s).pricks = s.pricks ∧ (State.stamp s).templates = s.templates ∧
    (State.stamp s).jobs = s.jobs ∧ (State.stamp s).order = s.order ∧ (State.stamp s).pillows = s.pillows ∧
    (State.stamp s).free = s.free := by
  unfold State.stamp; simp

theorem State.newStitch_frame (s : State) : (State.newStitch s).now = s.now ∧
    (State.newStitch s).pending = s.pending ∧ (State.newStitch s).errw = s.errw ∧
    (State.newStitch s).bulk = s.bulk ∧ (State.newStitch s).power = s.power ∧
    (State.newStitch s).sec = s.sec ∧ (State.newStitch s).therm = s.therm ∧
    (State.newStitch s).ports = s.ports ∧ (State.newStitch s).streams = s.streams ∧
    (State.newStitch s).services = s.services ∧ (State.newStitch s).ptpPorts = s.ptpPorts ∧
    (State.newStitch s).chans = s.chans ∧ (State.newStitch s).hc = s.hc ∧
    (State.newStitch s).bundles = s.bundles ∧ (State.newStitch s).slots = s.slots ∧
    (State.newStitch s).wt = s.wt ∧ (State.newStitch s).mem = s.mem ∧ (State.newStitch s).fwMem = s.fwMem ∧
    (State.newStitch s).pricks = s.pricks ∧ (State.newStitch s).order = s.order := by
  have hF0 := @State.releaseDue_frame
  have hF1 := @State.fireUnits_frame
  have hF2 := @State.askedBoundary_frame
  have hF3 := @State.stamp_frame
  unfold State.newStitch; simp [hF0, hF1, hF2, hF3]

theorem State.countForward_frame (s : State) : (State.countForward s).now = s.now ∧
    (State.countForward s).pending = s.pending ∧ (State.countForward s).errw = s.errw ∧
    (State.countForward s).bulk = s.bulk ∧ (State.countForward s).power = s.power ∧
    (State.countForward s).sec = s.sec ∧ (State.countForward s).therm = s.therm ∧
    (State.countForward s).ports = s.ports ∧ (State.countForward s).streams = s.streams ∧
    (State.countForward s).services = s.services ∧ (State.countForward s).ptpPorts = s.ptpPorts ∧
    (State.countForward s).chans = s.chans ∧ (State.countForward s).hc = s.hc ∧
    (State.countForward s).bundles = s.bundles ∧ (State.countForward s).slots = s.slots ∧
    (State.countForward s).wt = s.wt ∧ (State.countForward s).mem = s.mem ∧
    (State.countForward s).fwMem = s.fwMem ∧ (State.countForward s).pricks = s.pricks ∧
    (State.countForward s).order = s.order := by
  have hF0 := @State.newStitch_frame
  unfold State.countForward; simp [hF0]

theorem State.countReverse_frame (s : State) : (State.countReverse s).now = s.now ∧
    (State.countReverse s).pending = s.pending ∧ (State.countReverse s).sheets = s.sheets ∧
    (State.countReverse s).units = s.units ∧ (State.countReverse s).pins = s.pins ∧
    (State.countReverse s).pk = s.pk ∧ (State.countReverse s).queues = s.queues ∧
    (State.countReverse s).latches = s.latches ∧ (State.countReverse s).errw = s.errw ∧
    (State.countReverse s).sdio = s.sdio ∧ (State.countReverse s).bulk = s.bulk ∧
    (State.countReverse s).mgmt = s.mgmt ∧ (State.countReverse s).power = s.power ∧
    (State.countReverse s).sec = s.sec ∧ (State.countReverse s).therm = s.therm ∧
    (State.countReverse s).ports = s.ports ∧ (State.countReverse s).streams = s.streams ∧
    (State.countReverse s).services = s.services ∧ (State.countReverse s).ptpPorts = s.ptpPorts ∧
    (State.countReverse s).ptp = s.ptp ∧ (State.countReverse s).chans = s.chans ∧
    (State.countReverse s).seqs = s.seqs ∧ (State.countReverse s).hc = s.hc ∧
    (State.countReverse s).trim = s.trim ∧ (State.countReverse s).bundles = s.bundles ∧
    (State.countReverse s).slots = s.slots ∧ (State.countReverse s).wt = s.wt ∧
    (State.countReverse s).mem = s.mem ∧ (State.countReverse s).fwMem = s.fwMem ∧
    (State.countReverse s).ms = s.ms ∧ (State.countReverse s).pricks = s.pricks ∧
    (State.countReverse s).templates = s.templates ∧ (State.countReverse s).jobs = s.jobs ∧
    (State.countReverse s).order = s.order ∧ (State.countReverse s).pillows = s.pillows ∧
    (State.countReverse s).free = s.free := by
  unfold State.countReverse; simp

theorem State.newSheets_frame (s : State) : (State.newSheets s).now = s.now ∧
    (State.newSheets s).pending = s.pending ∧ (State.newSheets s).tb = s.tb ∧
    (State.newSheets s).units = s.units ∧ (State.newSheets s).pins = s.pins ∧
    (State.newSheets s).pk = s.pk ∧ (State.newSheets s).queues = s.queues ∧
    (State.newSheets s).latches = s.latches ∧ (State.newSheets s).errw = s.errw ∧
    (State.newSheets s).sdio = s.sdio ∧ (State.newSheets s).bulk = s.bulk ∧
    (State.newSheets s).mgmt = s.mgmt ∧ (State.newSheets s).power = s.power ∧
    (State.newSheets s).sec = s.sec ∧ (State.newSheets s).therm = s.therm ∧
    (State.newSheets s).ports = s.ports ∧ (State.newSheets s).streams = s.streams ∧
    (State.newSheets s).services = s.services ∧ (State.newSheets s).ptpPorts = s.ptpPorts ∧
    (State.newSheets s).ptp = s.ptp ∧ (State.newSheets s).chans = s.chans ∧
    (State.newSheets s).seqs = s.seqs ∧ (State.newSheets s).hc = s.hc ∧
    (State.newSheets s).bundles = s.bundles ∧ (State.newSheets s).wt = s.wt ∧
    (State.newSheets s).mem = s.mem ∧ (State.newSheets s).fwMem = s.fwMem ∧ (State.newSheets s).ms = s.ms ∧
    (State.newSheets s).pricks = s.pricks ∧ (State.newSheets s).templates = s.templates ∧
    (State.newSheets s).order = s.order ∧ (State.newSheets s).free = s.free := by
  unfold State.newSheets; simp

theorem State.dropSheetSource_frame (keep : Option Nat) (s : State) :
    (State.dropSheetSource keep s).now = s.now ∧ (State.dropSheetSource keep s).pending = s.pending ∧
    (State.dropSheetSource keep s).tb = s.tb ∧ (State.dropSheetSource keep s).pk = s.pk ∧
    (State.dropSheetSource keep s).queues = s.queues ∧ (State.dropSheetSource keep s).latches = s.latches ∧
    (State.dropSheetSource keep s).errw = s.errw ∧ (State.dropSheetSource keep s).sdio = s.sdio ∧
    (State.dropSheetSource keep s).bulk = s.bulk ∧ (State.dropSheetSource keep s).mgmt = s.mgmt ∧
    (State.dropSheetSource keep s).power = s.power ∧ (State.dropSheetSource keep s).sec = s.sec ∧
    (State.dropSheetSource keep s).therm = s.therm ∧ (State.dropSheetSource keep s).ports = s.ports ∧
    (State.dropSheetSource keep s).streams = s.streams ∧
    (State.dropSheetSource keep s).services = s.services ∧
    (State.dropSheetSource keep s).ptpPorts = s.ptpPorts ∧ (State.dropSheetSource keep s).ptp = s.ptp ∧
    (State.dropSheetSource keep s).chans = s.chans ∧ (State.dropSheetSource keep s).hc = s.hc ∧
    (State.dropSheetSource keep s).trim = s.trim ∧ (State.dropSheetSource keep s).bundles = s.bundles ∧
    (State.dropSheetSource keep s).slots = s.slots ∧ (State.dropSheetSource keep s).wt = s.wt ∧
    (State.dropSheetSource keep s).mem = s.mem ∧ (State.dropSheetSource keep s).fwMem = s.fwMem ∧
    (State.dropSheetSource keep s).ms = s.ms ∧ (State.dropSheetSource keep s).pricks = s.pricks ∧
    (State.dropSheetSource keep s).templates = s.templates ∧ (State.dropSheetSource keep s).jobs = s.jobs ∧
    (State.dropSheetSource keep s).order = s.order ∧ (State.dropSheetSource keep s).pillows = s.pillows ∧
    (State.dropSheetSource keep s).free = s.free := by
  have hF0 := @State.modPin_frame
  have hF1 := @State.releaseUnit_frame
  unfold State.dropSheetSource; dsimp only; (repeat' split) <;> simp [hF0, hF1]

theorem State.takeSheetSource_frame (p : TbConfigParams) (s : State) :
    (State.takeSheetSource p s).now = s.now ∧ (State.takeSheetSource p s).pending = s.pending ∧
    (State.takeSheetSource p s).tb = s.tb ∧ (State.takeSheetSource p s).pk = s.pk ∧
    (State.takeSheetSource p s).queues = s.queues ∧ (State.takeSheetSource p s).latches = s.latches ∧
    (State.takeSheetSource p s).errw = s.errw ∧ (State.takeSheetSource p s).sdio = s.sdio ∧
    (State.takeSheetSource p s).bulk = s.bulk ∧ (State.takeSheetSource p s).mgmt = s.mgmt ∧
    (State.takeSheetSource p s).power = s.power ∧ (State.takeSheetSource p s).sec = s.sec ∧
    (State.takeSheetSource p s).therm = s.therm ∧ (State.takeSheetSource p s).ports = s.ports ∧
    (State.takeSheetSource p s).streams = s.streams ∧ (State.takeSheetSource p s).services = s.services ∧
    (State.takeSheetSource p s).ptpPorts = s.ptpPorts ∧ (State.takeSheetSource p s).ptp = s.ptp ∧
    (State.takeSheetSource p s).chans = s.chans ∧ (State.takeSheetSource p s).seqs = s.seqs ∧
    (State.takeSheetSource p s).hc = s.hc ∧ (State.takeSheetSource p s).trim = s.trim ∧
    (State.takeSheetSource p s).bundles = s.bundles ∧ (State.takeSheetSource p s).slots = s.slots ∧
    (State.takeSheetSource p s).wt = s.wt ∧ (State.takeSheetSource p s).mem = s.mem ∧
    (State.takeSheetSource p s).fwMem = s.fwMem ∧ (State.takeSheetSource p s).ms = s.ms ∧
    (State.takeSheetSource p s).pricks = s.pricks ∧ (State.takeSheetSource p s).templates = s.templates ∧
    (State.takeSheetSource p s).jobs = s.jobs ∧ (State.takeSheetSource p s).order = s.order ∧
    (State.takeSheetSource p s).pillows = s.pillows ∧ (State.takeSheetSource p s).free = s.free := by
  have hF0 := @State.modPin_frame
  have hF1 := @State.claimUnit_frame
  unfold State.takeSheetSource; dsimp only; (repeat' split) <;> simp [hF0, hF1]

theorem tbConfigDo_frame (h : Hdr) (p : TbConfigParams) (s : State) : (tbConfigDo h p s).now = s.now ∧
    (tbConfigDo h p s).pending = s.pending ∧ (tbConfigDo h p s).pk = s.pk ∧
    (tbConfigDo h p s).latches = s.latches ∧ (tbConfigDo h p s).errw = s.errw ∧
    (tbConfigDo h p s).bulk = s.bulk ∧ (tbConfigDo h p s).power = s.power ∧ (tbConfigDo h p s).sec = s.sec ∧
    (tbConfigDo h p s).therm = s.therm ∧ (tbConfigDo h p s).ports = s.ports ∧
    (tbConfigDo h p s).streams = s.streams ∧ (tbConfigDo h p s).services = s.services ∧
    (tbConfigDo h p s).ptpPorts = s.ptpPorts ∧ (tbConfigDo h p s).ptp = s.ptp ∧
    (tbConfigDo h p s).chans = s.chans ∧ (tbConfigDo h p s).hc = s.hc ∧
    (tbConfigDo h p s).bundles = s.bundles ∧ (tbConfigDo h p s).wt = s.wt ∧ (tbConfigDo h p s).mem = s.mem ∧
    (tbConfigDo h p s).fwMem = s.fwMem ∧ (tbConfigDo h p s).ms = s.ms ∧
    (tbConfigDo h p s).pricks = s.pricks ∧ (tbConfigDo h p s).templates = s.templates ∧
    (tbConfigDo h p s).order = s.order ∧ (tbConfigDo h p s).free = s.free := by
  have hF0 := @State.dropSheetSource_frame
  have hF1 := @State.done_frame
  have hF2 := @State.takeSheetSource_frame
  have hF3 := @State.newSheets_frame
  unfold tbConfigDo; simp [hF0, hF1, hF2, hF3]

theorem tbClaimDo_frame (h : Hdr) (unit : Option Nat) (action : Nat) (arg : Nat) (period : Nat) (target : Nat) (s : State) :
    (tbClaimDo h unit action arg period target s).now = s.now ∧
    (tbClaimDo h unit action arg period target s).pending = s.pending ∧
    (tbClaimDo h unit action arg period target s).tb = s.tb ∧
    (tbClaimDo h unit action arg period target s).sheets = s.sheets ∧
    (tbClaimDo h unit action arg period target s).pk = s.pk ∧
    (tbClaimDo h unit action arg period target s).latches = s.latches ∧
    (tbClaimDo h unit action arg period target s).errw = s.errw ∧
    (tbClaimDo h unit action arg period target s).bulk = s.bulk ∧
    (tbClaimDo h unit action arg period target s).power = s.power ∧
    (tbClaimDo h unit action arg period target s).sec = s.sec ∧
    (tbClaimDo h unit action arg period target s).therm = s.therm ∧
    (tbClaimDo h unit action arg period target s).ports = s.ports ∧
    (tbClaimDo h unit action arg period target s).streams = s.streams ∧
    (tbClaimDo h unit action arg period target s).services = s.services ∧
    (tbClaimDo h unit action arg period target s).ptpPorts = s.ptpPorts ∧
    (tbClaimDo h unit action arg period target s).ptp = s.ptp ∧
    (tbClaimDo h unit action arg period target s).chans = s.chans ∧
    (tbClaimDo h unit action arg period target s).hc = s.hc ∧
    (tbClaimDo h unit action arg period target s).trim = s.trim ∧
    (tbClaimDo h unit action arg period target s).bundles = s.bundles ∧
    (tbClaimDo h unit action arg period target s).slots = s.slots ∧
    (tbClaimDo h unit action arg period target s).wt = s.wt ∧
    (tbClaimDo h unit action arg period target s).mem = s.mem ∧
    (tbClaimDo h unit action arg period target s).fwMem = s.fwMem ∧
    (tbClaimDo h unit action arg period target s).ms = s.ms ∧
    (tbClaimDo h unit action arg period target s).pricks = s.pricks ∧
    (tbClaimDo h unit action arg period target s).templates = s.templates ∧
    (tbClaimDo h unit action arg period target s).jobs = s.jobs ∧
    (tbClaimDo h unit action arg period target s).order = s.order ∧
    (tbClaimDo h unit action arg period target s).pillows = s.pillows ∧
    (tbClaimDo h unit action arg period target s).free = s.free := by
  have hF0 := @State.done_frame
  have hF1 := @State.modPin_frame
  have hF2 := @State.claimUnit_frame
  unfold tbClaimDo; simp [hF0, hF1, hF2]

end Sys2Proof.Machine
end

