-- ==== Sys2Proof/Laws/FrameRegs.lean ====
section
/-! SUPPORT. Frames of the register, tatting and crossbar operations and of the translation walks. -/

namespace Sys2Proof.Machine

/-! ## RegsFront -/

theorem State.tbClear_frame (o : Nat) (s : State) : (State.tbClear o s).now = s.now ∧
    (State.tbClear o s).pending = s.pending ∧ (State.tbClear o s).sheets = s.sheets ∧
    (State.tbClear o s).units = s.units ∧ (State.tbClear o s).pins = s.pins ∧
    (State.tbClear o s).pk = s.pk ∧ (State.tbClear o s).queues = s.queues ∧
    (State.tbClear o s).latches = s.latches ∧ (State.tbClear o s).errw = s.errw ∧
    (State.tbClear o s).sdio = s.sdio ∧ (State.tbClear o s).bulk = s.bulk ∧
    (State.tbClear o s).mgmt = s.mgmt ∧ (State.tbClear o s).power = s.power ∧
    (State.tbClear o s).sec = s.sec ∧ (State.tbClear o s).therm = s.therm ∧
    (State.tbClear o s).ports = s.ports ∧ (State.tbClear o s).streams = s.streams ∧
    (State.tbClear o s).services = s.services ∧ (State.tbClear o s).ptpPorts = s.ptpPorts ∧
    (State.tbClear o s).ptp = s.ptp ∧ (State.tbClear o s).chans = s.chans ∧
    (State.tbClear o s).seqs = s.seqs ∧ (State.tbClear o s).hc = s.hc ∧ (State.tbClear o s).trim = s.trim ∧
    (State.tbClear o s).bundles = s.bundles ∧ (State.tbClear o s).slots = s.slots ∧
    (State.tbClear o s).wt = s.wt ∧ (State.tbClear o s).mem = s.mem ∧ (State.tbClear o s).fwMem = s.fwMem ∧
    (State.tbClear o s).ms = s.ms ∧ (State.tbClear o s).pricks = s.pricks ∧
    (State.tbClear o s).templates = s.templates ∧ (State.tbClear o s).jobs = s.jobs ∧
    (State.tbClear o s).order = s.order ∧ (State.tbClear o s).pillows = s.pillows ∧
    (State.tbClear o s).free = s.free := by
  unfold State.tbClear; dsimp only; (repeat' split) <;> simp

theorem State.tbPut_frame (o : Nat) (v : Nat) (s : State) : (State.tbPut o v s).now = s.now ∧
    (State.tbPut o v s).pending = s.pending ∧ (State.tbPut o v s).units = s.units ∧
    (State.tbPut o v s).pins = s.pins ∧ (State.tbPut o v s).pk = s.pk ∧
    (State.tbPut o v s).queues = s.queues ∧ (State.tbPut o v s).latches = s.latches ∧
    (State.tbPut o v s).errw = s.errw ∧ (State.tbPut o v s).sdio = s.sdio ∧
    (State.tbPut o v s).bulk = s.bulk ∧ (State.tbPut o v s).mgmt = s.mgmt ∧
    (State.tbPut o v s).power = s.power ∧ (State.tbPut o v s).sec = s.sec ∧
    (State.tbPut o v s).therm = s.therm ∧ (State.tbPut o v s).ports = s.ports ∧
    (State.tbPut o v s).streams = s.streams ∧ (State.tbPut o v s).services = s.services ∧
    (State.tbPut o v s).ptpPorts = s.ptpPorts ∧ (State.tbPut o v s).ptp = s.ptp ∧
    (State.tbPut o v s).chans = s.chans ∧ (State.tbPut o v s).seqs = s.seqs ∧
    (State.tbPut o v s).hc = s.hc ∧ (State.tbPut o v s).trim = s.trim ∧
    (State.tbPut o v s).bundles = s.bundles ∧ (State.tbPut o v s).slots = s.slots ∧
    (State.tbPut o v s).wt = s.wt ∧ (State.tbPut o v s).mem = s.mem ∧ (State.tbPut o v s).fwMem = s.fwMem ∧
    (State.tbPut o v s).ms = s.ms ∧ (State.tbPut o v s).pricks = s.pricks ∧
    (State.tbPut o v s).templates = s.templates ∧ (State.tbPut o v s).jobs = s.jobs ∧
    (State.tbPut o v s).order = s.order ∧ (State.tbPut o v s).pillows = s.pillows ∧
    (State.tbPut o v s).free = s.free := by
  unfold State.tbPut; dsimp only; (repeat' split) <;> simp

theorem State.pkClear_frame (o : Nat) (s : State) : (State.pkClear o s).now = s.now ∧
    (State.pkClear o s).pending = s.pending ∧ (State.pkClear o s).tb = s.tb ∧
    (State.pkClear o s).sheets = s.sheets ∧ (State.pkClear o s).units = s.units ∧
    (State.pkClear o s).queues = s.queues ∧ (State.pkClear o s).latches = s.latches ∧
    (State.pkClear o s).errw = s.errw ∧ (State.pkClear o s).sdio = s.sdio ∧
    (State.pkClear o s).bulk = s.bulk ∧ (State.pkClear o s).mgmt = s.mgmt ∧
    (State.pkClear o s).power = s.power ∧ (State.pkClear o s).sec = s.sec ∧
    (State.pkClear o s).therm = s.therm ∧ (State.pkClear o s).ports = s.ports ∧
    (State.pkClear o s).streams = s.streams ∧ (State.pkClear o s).services = s.services ∧
    (State.pkClear o s).ptpPorts = s.ptpPorts ∧ (State.pkClear o s).ptp = s.ptp ∧
    (State.pkClear o s).chans = s.chans ∧ (State.pkClear o s).seqs = s.seqs ∧
    (State.pkClear o s).hc = s.hc ∧ (State.pkClear o s).trim = s.trim ∧
    (State.pkClear o s).bundles = s.bundles ∧ (State.pkClear o s).slots = s.slots ∧
    (State.pkClear o s).wt = s.wt ∧ (State.pkClear o s).mem = s.mem ∧ (State.pkClear o s).fwMem = s.fwMem ∧
    (State.pkClear o s).ms = s.ms ∧ (State.pkClear o s).pricks = s.pricks ∧
    (State.pkClear o s).templates = s.templates ∧ (State.pkClear o s).jobs = s.jobs ∧
    (State.pkClear o s).order = s.order ∧ (State.pkClear o s).pillows = s.pillows ∧
    (State.pkClear o s).free = s.free := by
  have hF0 := @State.modPin_frame
  unfold State.pkClear; dsimp only; (repeat' split) <;> simp [hF0]

theorem State.pkPut_frame (o : Nat) (v : Nat) (s : State) : (State.pkPut o v s).now = s.now ∧
    (State.pkPut o v s).pending = s.pending ∧ (State.pkPut o v s).tb = s.tb ∧
    (State.pkPut o v s).sheets = s.sheets ∧ (State.pkPut o v s).units = s.units ∧
    (State.pkPut o v s).queues = s.queues ∧ (State.pkPut o v s).latches = s.latches ∧
    (State.pkPut o v s).errw = s.errw ∧ (State.pkPut o v s).sdio = s.sdio ∧
    (State.pkPut o v s).bulk = s.bulk ∧ (State.pkPut o v s).mgmt = s.mgmt ∧
    (State.pkPut o v s).power = s.power ∧ (State.pkPut o v s).sec = s.sec ∧
    (State.pkPut o v s).therm = s.therm ∧ (State.pkPut o v s).ports = s.ports ∧
    (State.pkPut o v s).streams = s.streams ∧ (State.pkPut o v s).services = s.services ∧
    (State.pkPut o v s).ptpPorts = s.ptpPorts ∧ (State.pkPut o v s).ptp = s.ptp ∧
    (State.pkPut o v s).chans = s.chans ∧ (State.pkPut o v s).seqs = s.seqs ∧
    (State.pkPut o v s).hc = s.hc ∧ (State.pkPut o v s).trim = s.trim ∧
    (State.pkPut o v s).bundles = s.bundles ∧ (State.pkPut o v s).slots = s.slots ∧
    (State.pkPut o v s).wt = s.wt ∧ (State.pkPut o v s).mem = s.mem ∧ (State.pkPut o v s).fwMem = s.fwMem ∧
    (State.pkPut o v s).ms = s.ms ∧ (State.pkPut o v s).pricks = s.pricks ∧
    (State.pkPut o v s).templates = s.templates ∧ (State.pkPut o v s).jobs = s.jobs ∧
    (State.pkPut o v s).order = s.order ∧ (State.pkPut o v s).pillows = s.pillows ∧
    (State.pkPut o v s).free = s.free := by
  have hF0 := @State.modPin_frame
  unfold State.pkPut; simp [hF0]

theorem State.hcClear_frame (o : Nat) (s : State) : (State.hcClear o s).now = s.now ∧
    (State.hcClear o s).pending = s.pending ∧ (State.hcClear o s).tb = s.tb ∧
    (State.hcClear o s).sheets = s.sheets ∧ (State.hcClear o s).units = s.units ∧
    (State.hcClear o s).pins = s.pins ∧ (State.hcClear o s).pk = s.pk ∧
    (State.hcClear o s).queues = s.queues ∧ (State.hcClear o s).latches = s.latches ∧
    (State.hcClear o s).errw = s.errw ∧ (State.hcClear o s).sdio = s.sdio ∧
    (State.hcClear o s).bulk = s.bulk ∧ (State.hcClear o s).mgmt = s.mgmt ∧
    (State.hcClear o s).power = s.power ∧ (State.hcClear o s).sec = s.sec ∧
    (State.hcClear o s).therm = s.therm ∧ (State.hcClear o s).ports = s.ports ∧
    (State.hcClear o s).streams = s.streams ∧ (State.hcClear o s).services = s.services ∧
    (State.hcClear o s).ptpPorts = s.ptpPorts ∧ (State.hcClear o s).ptp = s.ptp ∧
    (State.hcClear o s).chans = s.chans ∧ (State.hcClear o s).trim = s.trim ∧
    (State.hcClear o s).bundles = s.bundles ∧ (State.hcClear o s).slots = s.slots ∧
    (State.hcClear o s).wt = s.wt ∧ (State.hcClear o s).mem = s.mem ∧ (State.hcClear o s).fwMem = s.fwMem ∧
    (State.hcClear o s).ms = s.ms ∧ (State.hcClear o s).pricks = s.pricks ∧
    (State.hcClear o s).templates = s.templates ∧ (State.hcClear o s).jobs = s.jobs ∧
    (State.hcClear o s).order = s.order ∧ (State.hcClear o s).pillows = s.pillows ∧
    (State.hcClear o s).free = s.free := by
  have hF0 := @State.readHcData_frame
  have hF1 := @State.readHcWp_frame
  have hF2 := @State.modHseq_frame
  unfold State.hcClear; dsimp only; (repeat' split) <;> simp [hF0, hF1, hF2]

theorem State.hcPut_frame (o : Nat) (v : Nat) (s : State) : (State.hcPut o v s).now = s.now ∧
    (State.hcPut o v s).pending = s.pending ∧ (State.hcPut o v s).tb = s.tb ∧
    (State.hcPut o v s).sheets = s.sheets ∧ (State.hcPut o v s).units = s.units ∧
    (State.hcPut o v s).pins = s.pins ∧ (State.hcPut o v s).pk = s.pk ∧
    (State.hcPut o v s).queues = s.queues ∧ (State.hcPut o v s).latches = s.latches ∧
    (State.hcPut o v s).errw = s.errw ∧ (State.hcPut o v s).sdio = s.sdio ∧
    (State.hcPut o v s).bulk = s.bulk ∧ (State.hcPut o v s).mgmt = s.mgmt ∧
    (State.hcPut o v s).power = s.power ∧ (State.hcPut o v s).sec = s.sec ∧
    (State.hcPut o v s).therm = s.therm ∧ (State.hcPut o v s).ports = s.ports ∧
    (State.hcPut o v s).streams = s.streams ∧ (State.hcPut o v s).services = s.services ∧
    (State.hcPut o v s).ptpPorts = s.ptpPorts ∧ (State.hcPut o v s).ptp = s.ptp ∧
    (State.hcPut o v s).chans = s.chans ∧ (State.hcPut o v s).seqs = s.seqs ∧
    (State.hcPut o v s).trim = s.trim ∧ (State.hcPut o v s).bundles = s.bundles ∧
    (State.hcPut o v s).slots = s.slots ∧ (State.hcPut o v s).wt = s.wt ∧ (State.hcPut o v s).mem = s.mem ∧
    (State.hcPut o v s).fwMem = s.fwMem ∧ (State.hcPut o v s).ms = s.ms ∧
    (State.hcPut o v s).pricks = s.pricks ∧ (State.hcPut o v s).templates = s.templates ∧
    (State.hcPut o v s).jobs = s.jobs ∧ (State.hcPut o v s).order = s.order ∧
    (State.hcPut o v s).pillows = s.pillows ∧ (State.hcPut o v s).free = s.free := by
  unfold State.hcPut; simp

theorem State.trimClear_frame (o : Nat) (s : State) : (State.trimClear o s).now = s.now ∧
    (State.trimClear o s).pending = s.pending ∧ (State.trimClear o s).tb = s.tb ∧
    (State.trimClear o s).sheets = s.sheets ∧ (State.trimClear o s).units = s.units ∧
    (State.trimClear o s).pins = s.pins ∧ (State.trimClear o s).pk = s.pk ∧
    (State.trimClear o s).queues = s.queues ∧ (State.trimClear o s).latches = s.latches ∧
    (State.trimClear o s).errw = s.errw ∧ (State.trimClear o s).sdio = s.sdio ∧
    (State.trimClear o s).bulk = s.bulk ∧ (State.trimClear o s).mgmt = s.mgmt ∧
    (State.trimClear o s).power = s.power ∧ (State.trimClear o s).sec = s.sec ∧
    (State.trimClear o s).therm = s.therm ∧ (State.trimClear o s).ports = s.ports ∧
    (State.trimClear o s).streams = s.streams ∧ (State.trimClear o s).services = s.services ∧
    (State.trimClear o s).ptpPorts = s.ptpPorts ∧ (State.trimClear o s).ptp = s.ptp ∧
    (State.trimClear o s).chans = s.chans ∧ (State.trimClear o s).seqs = s.seqs ∧
    (State.trimClear o s).hc = s.hc ∧ (State.trimClear o s).bundles = s.bundles ∧
    (State.trimClear o s).slots = s.slots ∧ (State.trimClear o s).wt = s.wt ∧
    (State.trimClear o s).mem = s.mem ∧ (State.trimClear o s).fwMem = s.fwMem ∧
    (State.trimClear o s).ms = s.ms ∧ (State.trimClear o s).pricks = s.pricks ∧
    (State.trimClear o s).templates = s.templates ∧ (State.trimClear o s).jobs = s.jobs ∧
    (State.trimClear o s).order = s.order ∧ (State.trimClear o s).pillows = s.pillows ∧
    (State.trimClear o s).free = s.free := by
  unfold State.trimClear; dsimp only; (repeat' split) <;> simp

theorem State.trimPut_frame (o : Nat) (v : Nat) (s : State) : (State.trimPut o v s).now = s.now ∧
    (State.trimPut o v s).pending = s.pending ∧ (State.trimPut o v s).tb = s.tb ∧
    (State.trimPut o v s).sheets = s.sheets ∧ (State.trimPut o v s).units = s.units ∧
    (State.trimPut o v s).pins = s.pins ∧ (State.trimPut o v s).pk = s.pk ∧
    (State.trimPut o v s).queues = s.queues ∧ (State.trimPut o v s).latches = s.latches ∧
    (State.trimPut o v s).errw = s.errw ∧ (State.trimPut o v s).sdio = s.sdio ∧
    (State.trimPut o v s).bulk = s.bulk ∧ (State.trimPut o v s).mgmt = s.mgmt ∧
    (State.trimPut o v s).power = s.power ∧ (State.trimPut o v s).sec = s.sec ∧
    (State.trimPut o v s).therm = s.therm ∧ (State.trimPut o v s).ports = s.ports ∧
    (State.trimPut o v s).streams = s.streams ∧ (State.trimPut o v s).services = s.services ∧
    (State.trimPut o v s).ptpPorts = s.ptpPorts ∧ (State.trimPut o v s).ptp = s.ptp ∧
    (State.trimPut o v s).chans = s.chans ∧ (State.trimPut o v s).seqs = s.seqs ∧
    (State.trimPut o v s).hc = s.hc ∧ (State.trimPut o v s).bundles = s.bundles ∧
    (State.trimPut o v s).slots = s.slots ∧ (State.trimPut o v s).wt = s.wt ∧
    (State.trimPut o v s).mem = s.mem ∧ (State.trimPut o v s).fwMem = s.fwMem ∧
    (State.trimPut o v s).ms = s.ms ∧ (State.trimPut o v s).pricks = s.pricks ∧
    (State.trimPut o v s).templates = s.templates ∧ (State.trimPut o v s).jobs = s.jobs ∧
    (State.trimPut o v s).order = s.order ∧ (State.trimPut o v s).pillows = s.pillows ∧
    (State.trimPut o v s).free = s.free := by
  unfold State.trimPut; dsimp only; (repeat' split) <;> simp

/-! ## RegsBack -/

theorem State.netClear_frame (o : Nat) (s : State) : (State.netClear o s).now = s.now ∧
    (State.netClear o s).pending = s.pending ∧ (State.netClear o s).tb = s.tb ∧
    (State.netClear o s).sheets = s.sheets ∧ (State.netClear o s).units = s.units ∧
    (State.netClear o s).pins = s.pins ∧ (State.netClear o s).pk = s.pk ∧
    (State.netClear o s).queues = s.queues ∧ (State.netClear o s).latches = s.latches ∧
    (State.netClear o s).errw = s.errw ∧ (State.netClear o s).sdio = s.sdio ∧
    (State.netClear o s).bulk = s.bulk ∧ (State.netClear o s).mgmt = s.mgmt ∧
    (State.netClear o s).power = s.power ∧ (State.netClear o s).sec = s.sec ∧
    (State.netClear o s).therm = s.therm ∧ (State.netClear o s).ptpPorts = s.ptpPorts ∧
    (State.netClear o s).ptp = s.ptp ∧ (State.netClear o s).chans = s.chans ∧
    (State.netClear o s).seqs = s.seqs ∧ (State.netClear o s).hc = s.hc ∧
    (State.netClear o s).trim = s.trim ∧ (State.netClear o s).bundles = s.bundles ∧
    (State.netClear o s).slots = s.slots ∧ (State.netClear o s).wt = s.wt ∧
    (State.netClear o s).mem = s.mem ∧ (State.netClear o s).fwMem = s.fwMem ∧
    (State.netClear o s).ms = s.ms ∧ (State.netClear o s).pricks = s.pricks ∧
    (State.netClear o s).templates = s.templates ∧ (State.netClear o s).jobs = s.jobs ∧
    (State.netClear o s).order = s.order ∧ (State.netClear o s).pillows = s.pillows ∧
    (State.netClear o s).free = s.free := by
  have hF0 := @State.modPort_frame
  have hF1 := @State.modStream_frame
  have hF2 := @State.modService_frame
  unfold State.netClear; simp [hF0, hF1, hF2]

theorem State.netPut_frame (o : Nat) (v : Nat) (s : State) : (State.netPut o v s).now = s.now ∧
    (State.netPut o v s).pending = s.pending ∧ (State.netPut o v s).tb = s.tb ∧
    (State.netPut o v s).sheets = s.sheets ∧ (State.netPut o v s).units = s.units ∧
    (State.netPut o v s).pins = s.pins ∧ (State.netPut o v s).pk = s.pk ∧
    (State.netPut o v s).queues = s.queues ∧ (State.netPut o v s).latches = s.latches ∧
    (State.netPut o v s).errw = s.errw ∧ (State.netPut o v s).sdio = s.sdio ∧
    (State.netPut o v s).bulk = s.bulk ∧ (State.netPut o v s).mgmt = s.mgmt ∧
    (State.netPut o v s).power = s.power ∧ (State.netPut o v s).sec = s.sec ∧
    (State.netPut o v s).therm = s.therm ∧ (State.netPut o v s).streams = s.streams ∧
    (State.netPut o v s).services = s.services ∧ (State.netPut o v s).ptpPorts = s.ptpPorts ∧
    (State.netPut o v s).ptp = s.ptp ∧ (State.netPut o v s).chans = s.chans ∧
    (State.netPut o v s).seqs = s.seqs ∧ (State.netPut o v s).hc = s.hc ∧
    (State.netPut o v s).trim = s.trim ∧ (State.netPut o v s).bundles = s.bundles ∧
    (State.netPut o v s).slots = s.slots ∧ (State.netPut o v s).wt = s.wt ∧
    (State.netPut o v s).mem = s.mem ∧ (State.netPut o v s).fwMem = s.fwMem ∧
    (State.netPut o v s).ms = s.ms ∧ (State.netPut o v s).pricks = s.pricks ∧
    (State.netPut o v s).templates = s.templates ∧ (State.netPut o v s).jobs = s.jobs ∧
    (State.netPut o v s).order = s.order ∧ (State.netPut o v s).pillows = s.pillows ∧
    (State.netPut o v s).free = s.free := by
  have hF0 := @State.modPort_frame
  unfold State.netPut; simp [hF0]

theorem State.memClearReg_frame (o : Nat) (s : State) : (State.memClearReg o s).now = s.now ∧
    (State.memClearReg o s).pending = s.pending ∧ (State.memClearReg o s).tb = s.tb ∧
    (State.memClearReg o s).sheets = s.sheets ∧ (State.memClearReg o s).units = s.units ∧
    (State.memClearReg o s).pins = s.pins ∧ (State.memClearReg o s).pk = s.pk ∧
    (State.memClearReg o s).queues = s.queues ∧ (State.memClearReg o s).latches = s.latches ∧
    (State.memClearReg o s).errw = s.errw ∧ (State.memClearReg o s).sdio = s.sdio ∧
    (State.memClearReg o s).bulk = s.bulk ∧ (State.memClearReg o s).mgmt = s.mgmt ∧
    (State.memClearReg o s).power = s.power ∧ (State.memClearReg o s).sec = s.sec ∧
    (State.memClearReg o s).therm = s.therm ∧ (State.memClearReg o s).ports = s.ports ∧
    (State.memClearReg o s).services = s.services ∧ (State.memClearReg o s).ptpPorts = s.ptpPorts ∧
    (State.memClearReg o s).ptp = s.ptp ∧ (State.memClearReg o s).chans = s.chans ∧
    (State.memClearReg o s).seqs = s.seqs ∧ (State.memClearReg o s).hc = s.hc ∧
    (State.memClearReg o s).trim = s.trim ∧ (State.memClearReg o s).bundles = s.bundles ∧
    (State.memClearReg o s).slots = s.slots ∧ (State.memClearReg o s).mem = s.mem ∧
    (State.memClearReg o s).fwMem = s.fwMem ∧ (State.memClearReg o s).pricks = s.pricks ∧
    (State.memClearReg o s).templates = s.templates ∧ (State.memClearReg o s).jobs = s.jobs ∧
    (State.memClearReg o s).order = s.order ∧ (State.memClearReg o s).pillows = s.pillows ∧
    (State.memClearReg o s).free = s.free := by
  have hF0 := @State.scrubTime_frame
  have hF1 := @State.modStream_frame
  unfold State.memClearReg; dsimp only; (repeat' split) <;> simp [hF0, hF1]

theorem State.memPut_frame (o : Nat) (v : Nat) (s : State) : (State.memPut o v s).now = s.now ∧
    (State.memPut o v s).pending = s.pending ∧ (State.memPut o v s).tb = s.tb ∧
    (State.memPut o v s).sheets = s.sheets ∧ (State.memPut o v s).units = s.units ∧
    (State.memPut o v s).pins = s.pins ∧ (State.memPut o v s).pk = s.pk ∧
    (State.memPut o v s).queues = s.queues ∧ (State.memPut o v s).latches = s.latches ∧
    (State.memPut o v s).errw = s.errw ∧ (State.memPut o v s).sdio = s.sdio ∧
    (State.memPut o v s).bulk = s.bulk ∧ (State.memPut o v s).mgmt = s.mgmt ∧
    (State.memPut o v s).power = s.power ∧ (State.memPut o v s).sec = s.sec ∧
    (State.memPut o v s).therm = s.therm ∧ (State.memPut o v s).ports = s.ports ∧
    (State.memPut o v s).streams = s.streams ∧ (State.memPut o v s).services = s.services ∧
    (State.memPut o v s).ptpPorts = s.ptpPorts ∧ (State.memPut o v s).ptp = s.ptp ∧
    (State.memPut o v s).chans = s.chans ∧ (State.memPut o v s).seqs = s.seqs ∧
    (State.memPut o v s).hc = s.hc ∧ (State.memPut o v s).trim = s.trim ∧
    (State.memPut o v s).bundles = s.bundles ∧ (State.memPut o v s).slots = s.slots ∧
    (State.memPut o v s).mem = s.mem ∧ (State.memPut o v s).fwMem = s.fwMem ∧
    (State.memPut o v s).pricks = s.pricks ∧ (State.memPut o v s).templates = s.templates ∧
    (State.memPut o v s).jobs = s.jobs ∧ (State.memPut o v s).order = s.order ∧
    (State.memPut o v s).pillows = s.pillows ∧ (State.memPut o v s).free = s.free := by
  have hF0 := @State.scrubTime_frame
  unfold State.memPut; dsimp only; (repeat' split) <;> simp [hF0]

theorem State.sqClear_frame (o : Nat) (s : State) : (State.sqClear o s).now = s.now ∧
    (State.sqClear o s).pending = s.pending ∧ (State.sqClear o s).tb = s.tb ∧
    (State.sqClear o s).sheets = s.sheets ∧ (State.sqClear o s).units = s.units ∧
    (State.sqClear o s).pins = s.pins ∧ (State.sqClear o s).pk = s.pk ∧
    (State.sqClear o s).latches = s.latches ∧ (State.sqClear o s).errw = s.errw ∧
    (State.sqClear o s).sdio = s.sdio ∧ (State.sqClear o s).bulk = s.bulk ∧
    (State.sqClear o s).power = s.power ∧ (State.sqClear o s).sec = s.sec ∧
    (State.sqClear o s).therm = s.therm ∧ (State.sqClear o s).ports = s.ports ∧
    (State.sqClear o s).streams = s.streams ∧ (State.sqClear o s).services = s.services ∧
    (State.sqClear o s).ptpPorts = s.ptpPorts ∧ (State.sqClear o s).ptp = s.ptp ∧
    (State.sqClear o s).chans = s.chans ∧ (State.sqClear o s).seqs = s.seqs ∧
    (State.sqClear o s).hc = s.hc ∧ (State.sqClear o s).trim = s.trim ∧
    (State.sqClear o s).bundles = s.bundles ∧ (State.sqClear o s).slots = s.slots ∧
    (State.sqClear o s).wt = s.wt ∧ (State.sqClear o s).mem = s.mem ∧ (State.sqClear o s).fwMem = s.fwMem ∧
    (State.sqClear o s).ms = s.ms ∧ (State.sqClear o s).pricks = s.pricks ∧
    (State.sqClear o s).templates = s.templates ∧ (State.sqClear o s).jobs = s.jobs ∧
    (State.sqClear o s).order = s.order ∧ (State.sqClear o s).pillows = s.pillows ∧
    (State.sqClear o s).free = s.free := by
  have hF0 := @State.modQueue_frame
  unfold State.sqClear; dsimp only; (repeat' split) <;> simp [hF0]

theorem State.sqPut_frame (o : Nat) (v : Nat) (s : State) : (State.sqPut o v s).now = s.now ∧
    (State.sqPut o v s).pending = s.pending ∧ (State.sqPut o v s).tb = s.tb ∧
    (State.sqPut o v s).sheets = s.sheets ∧ (State.sqPut o v s).units = s.units ∧
    (State.sqPut o v s).pins = s.pins ∧ (State.sqPut o v s).pk = s.pk ∧ (State.sqPut o v s).bulk = s.bulk ∧
    (State.sqPut o v s).power = s.power ∧ (State.sqPut o v s).sec = s.sec ∧
    (State.sqPut o v s).therm = s.therm ∧ (State.sqPut o v s).ports = s.ports ∧
    (State.sqPut o v s).streams = s.streams ∧ (State.sqPut o v s).services = s.services ∧
    (State.sqPut o v s).ptpPorts = s.ptpPorts ∧ (State.sqPut o v s).ptp = s.ptp ∧
    (State.sqPut o v s).chans = s.chans ∧ (State.sqPut o v s).seqs = s.seqs ∧
    (State.sqPut o v s).hc = s.hc ∧ (State.sqPut o v s).trim = s.trim ∧
    (State.sqPut o v s).bundles = s.bundles ∧ (State.sqPut o v s).slots = s.slots ∧
    (State.sqPut o v s).wt = s.wt ∧ (State.sqPut o v s).mem = s.mem ∧ (State.sqPut o v s).fwMem = s.fwMem ∧
    (State.sqPut o v s).ms = s.ms ∧ (State.sqPut o v s).pricks = s.pricks ∧
    (State.sqPut o v s).templates = s.templates ∧ (State.sqPut o v s).jobs = s.jobs ∧
    (State.sqPut o v s).order = s.order ∧ (State.sqPut o v s).pillows = s.pillows ∧
    (State.sqPut o v s).free = s.free := by
  have hF0 := @State.errPop_frame
  have hF1 := @State.enterRecovery_frame
  have hF2 := @State.leaveRecovery_frame
  have hF3 := @State.modQueue_frame
  unfold State.sqPut; dsimp only; (repeat' split) <;> simp [hF0, hF1, hF2, hF3]

theorem State.secClear_frame (o : Nat) (s : State) : (State.secClear o s).now = s.now ∧
    (State.secClear o s).pending = s.pending ∧ (State.secClear o s).tb = s.tb ∧
    (State.secClear o s).sheets = s.sheets ∧ (State.secClear o s).units = s.units ∧
    (State.secClear o s).pins = s.pins ∧ (State.secClear o s).pk = s.pk ∧
    (State.secClear o s).queues = s.queues ∧ (State.secClear o s).latches = s.latches ∧
    (State.secClear o s).errw = s.errw ∧ (State.secClear o s).sdio = s.sdio ∧
    (State.secClear o s).bulk = s.bulk ∧ (State.secClear o s).mgmt = s.mgmt ∧
    (State.secClear o s).power = s.power ∧ (State.secClear o s).ports = s.ports ∧
    (State.secClear o s).streams = s.streams ∧ (State.secClear o s).services = s.services ∧
    (State.secClear o s).ptpPorts = s.ptpPorts ∧ (State.secClear o s).ptp = s.ptp ∧
    (State.secClear o s).chans = s.chans ∧ (State.secClear o s).seqs = s.seqs ∧
    (State.secClear o s).hc = s.hc ∧ (State.secClear o s).trim = s.trim ∧
    (State.secClear o s).bundles = s.bundles ∧ (State.secClear o s).slots = s.slots ∧
    (State.secClear o s).wt = s.wt ∧ (State.secClear o s).mem = s.mem ∧
    (State.secClear o s).fwMem = s.fwMem ∧ (State.secClear o s).pricks = s.pricks ∧
    (State.secClear o s).templates = s.templates ∧ (State.secClear o s).jobs = s.jobs ∧
    (State.secClear o s).order = s.order ∧ (State.secClear o s).pillows = s.pillows ∧
    (State.secClear o s).free = s.free := by
  have hF0 := @State.stepTime_frame
  unfold State.secClear; dsimp only; (repeat' split) <;> simp [hF0]

theorem State.pwrReqPut_frame (v : Nat) (s : State) : (State.pwrReqPut v s).now = s.now ∧
    (State.pwrReqPut v s).pending = s.pending ∧ (State.pwrReqPut v s).tb = s.tb ∧
    (State.pwrReqPut v s).sheets = s.sheets ∧ (State.pwrReqPut v s).units = s.units ∧
    (State.pwrReqPut v s).pins = s.pins ∧ (State.pwrReqPut v s).pk = s.pk ∧
    (State.pwrReqPut v s).queues = s.queues ∧ (State.pwrReqPut v s).latches = s.latches ∧
    (State.pwrReqPut v s).errw = s.errw ∧ (State.pwrReqPut v s).sdio = s.sdio ∧
    (State.pwrReqPut v s).bulk = s.bulk ∧ (State.pwrReqPut v s).mgmt = s.mgmt ∧
    (State.pwrReqPut v s).sec = s.sec ∧ (State.pwrReqPut v s).therm = s.therm ∧
    (State.pwrReqPut v s).streams = s.streams ∧ (State.pwrReqPut v s).ptpPorts = s.ptpPorts ∧
    (State.pwrReqPut v s).ptp = s.ptp ∧ (State.pwrReqPut v s).chans = s.chans ∧
    (State.pwrReqPut v s).seqs = s.seqs ∧ (State.pwrReqPut v s).hc = s.hc ∧
    (State.pwrReqPut v s).trim = s.trim ∧ (State.pwrReqPut v s).bundles = s.bundles ∧
    (State.pwrReqPut v s).slots = s.slots ∧ (State.pwrReqPut v s).wt = s.wt ∧
    (State.pwrReqPut v s).fwMem = s.fwMem ∧ (State.pwrReqPut v s).pricks = s.pricks ∧
    (State.pwrReqPut v s).templates = s.templates ∧ (State.pwrReqPut v s).jobs = s.jobs ∧
    (State.pwrReqPut v s).order = s.order ∧ (State.pwrReqPut v s).free = s.free := by
  have hF0 := @State.powerRequest_frame
  unfold State.pwrReqPut; simp [hF0]

@[simp] theorem State.pwrReqPut_wf (v : Nat) (s : State) (hm : Memory.wf s.mem = true) :
    Memory.wf (State.pwrReqPut v s).mem = true := by
  unfold State.pwrReqPut; simp [hm]

theorem State.secPut_frame (o : Nat) (v : Nat) (s : State) : (State.secPut o v s).now = s.now ∧
    (State.secPut o v s).pending = s.pending ∧ (State.secPut o v s).tb = s.tb ∧
    (State.secPut o v s).sheets = s.sheets ∧ (State.secPut o v s).units = s.units ∧
    (State.secPut o v s).pins = s.pins ∧ (State.secPut o v s).pk = s.pk ∧
    (State.secPut o v s).errw = s.errw ∧ (State.secPut o v s).bulk = s.bulk ∧
    (State.secPut o v s).mgmt = s.mgmt ∧ (State.secPut o v s).streams = s.streams ∧
    (State.secPut o v s).ptpPorts = s.ptpPorts ∧ (State.secPut o v s).ptp = s.ptp ∧
    (State.secPut o v s).chans = s.chans ∧ (State.secPut o v s).seqs = s.seqs ∧
    (State.secPut o v s).hc = s.hc ∧ (State.secPut o v s).trim = s.trim ∧
    (State.secPut o v s).bundles = s.bundles ∧ (State.secPut o v s).slots = s.slots ∧
    (State.secPut o v s).wt = s.wt ∧ (State.secPut o v s).fwMem = s.fwMem ∧
    (State.secPut o v s).pricks = s.pricks ∧ (State.secPut o v s).templates = s.templates ∧
    (State.secPut o v s).jobs = s.jobs ∧ (State.secPut o v s).order = s.order ∧
    (State.secPut o v s).free = s.free := by
  have hF0 := @State.secOp_frame
  have hF1 := @State.pwrReqPut_frame
  unfold State.secPut; dsimp only; (repeat' split) <;> simp [hF0, hF1]

@[simp] theorem State.secPut_wf (o : Nat) (v : Nat) (s : State) (hm : Memory.wf s.mem = true) :
    Memory.wf (State.secPut o v s).mem = true := by
  have hF0 := @State.secOp_frame
  unfold State.secPut; dsimp only; (repeat' split) <;> simp [hF0, hm]

/-! ## Tatting -/

theorem Access.then_keeps (R : State → Prop) {a : Access} {f : Bytes → State → Access}
    (ha : a.isWait = false → R a.okState) (hf : ∀ b t, R t → (f b t).isWait = false → R (f b t).okState)
    (h : (a.then f).isWait = false) : R (a.then f).okState := by
  cases a with
  | ok b t => exact hf b t (ha rfl) h
  | fault g t => exact ha rfl
  | wait n l d => cases h

theorem readPiece_frame (w : Work) (es : Nat) (idx : List Nat) (tok : Nat) (x0 : Nat) (x1 : Nat) (x2 : Nat) (x3 : State) (h : (readPiece w es idx tok x0 x1 x2 x3).isWait = false) :
    (readPiece w es idx tok x0 x1 x2 x3).okState.now = x3.now ∧
    (readPiece w es idx tok x0 x1 x2 x3).okState.pending = x3.pending ∧
    (readPiece w es idx tok x0 x1 x2 x3).okState.tb = x3.tb ∧
    (readPiece w es idx tok x0 x1 x2 x3).okState.sheets = x3.sheets ∧
    (readPiece w es idx tok x0 x1 x2 x3).okState.units = x3.units ∧
    (readPiece w es idx tok x0 x1 x2 x3).okState.pins = x3.pins ∧
    (readPiece w es idx tok x0 x1 x2 x3).okState.pk = x3.pk ∧
    (readPiece w es idx tok x0 x1 x2 x3).okState.errw = x3.errw ∧
    (readPiece w es idx tok x0 x1 x2 x3).okState.bulk = x3.bulk ∧
    (readPiece w es idx tok x0 x1 x2 x3).okState.power = x3.power ∧
    (readPiece w es idx tok x0 x1 x2 x3).okState.sec = x3.sec ∧
    (readPiece w es idx tok x0 x1 x2 x3).okState.therm = x3.therm ∧
    (readPiece w es idx tok x0 x1 x2 x3).okState.ports = x3.ports ∧
    (readPiece w es idx tok x0 x1 x2 x3).okState.streams = x3.streams ∧
    (readPiece w es idx tok x0 x1 x2 x3).okState.services = x3.services ∧
    (readPiece w es idx tok x0 x1 x2 x3).okState.ptpPorts = x3.ptpPorts ∧
    (readPiece w es idx tok x0 x1 x2 x3).okState.ptp = x3.ptp ∧
    (readPiece w es idx tok x0 x1 x2 x3).okState.chans = x3.chans ∧
    (readPiece w es idx tok x0 x1 x2 x3).okState.seqs = x3.seqs ∧
    (readPiece w es idx tok x0 x1 x2 x3).okState.hc = x3.hc ∧
    (readPiece w es idx tok x0 x1 x2 x3).okState.trim = x3.trim ∧
    (readPiece w es idx tok x0 x1 x2 x3).okState.bundles = x3.bundles ∧
    (readPiece w es idx tok x0 x1 x2 x3).okState.slots = x3.slots ∧
    (readPiece w es idx tok x0 x1 x2 x3).okState.wt = x3.wt ∧
    (readPiece w es idx tok x0 x1 x2 x3).okState.mem = x3.mem ∧
    (readPiece w es idx tok x0 x1 x2 x3).okState.fwMem = x3.fwMem ∧
    (readPiece w es idx tok x0 x1 x2 x3).okState.pricks = x3.pricks ∧
    (readPiece w es idx tok x0 x1 x2 x3).okState.templates = x3.templates ∧
    (readPiece w es idx tok x0 x1 x2 x3).okState.order = x3.order := by
  induction x0 generalizing x1 x2 x3 with
  | zero => simp [readPiece]
  | succ k ih =>
    revert h
    unfold readPiece
    split
    · simp
    · dsimp only
      generalize hqa : State.readOpnd w 2 w.op.a _ _ _ x3 = a
      have hka : a.isWait = false → (fun z : State => z.now = x3.now ∧ z.pending = x3.pending ∧ z.tb = x3.tb ∧ z.sheets = x3.sheets ∧ z.units = x3.units ∧ z.pins = x3.pins ∧ z.pk = x3.pk ∧ z.errw = x3.errw ∧ z.bulk = x3.bulk ∧ z.power = x3.power ∧ z.sec = x3.sec ∧ z.therm = x3.therm ∧ z.ports = x3.ports ∧ z.streams = x3.streams ∧ z.services = x3.services ∧ z.ptpPorts = x3.ptpPorts ∧ z.ptp = x3.ptp ∧ z.chans = x3.chans ∧ z.seqs = x3.seqs ∧ z.hc = x3.hc ∧ z.trim = x3.trim ∧ z.bundles = x3.bundles ∧ z.slots = x3.slots ∧ z.wt = x3.wt ∧ z.mem = x3.mem ∧ z.fwMem = x3.fwMem ∧ z.pricks = x3.pricks ∧ z.templates = x3.templates ∧ z.order = x3.order) a.okState := by
        intro ha
        subst hqa
        exact State.readOpnd_frame _ _ _ _ _ _ _ ha
      cases a with
      | ok bt t =>
        have ht := hka rfl
        dsimp only [Access.okState_ok] at ht ⊢
        generalize hqc : readPiece w es idx tok k _ _ t = c
        have hkc : c.isWait = false → (fun z : State => z.now = t.now ∧ z.pending = t.pending ∧ z.tb = t.tb ∧ z.sheets = t.sheets ∧ z.units = t.units ∧ z.pins = t.pins ∧ z.pk = t.pk ∧ z.errw = t.errw ∧ z.bulk = t.bulk ∧ z.power = t.power ∧ z.sec = t.sec ∧ z.therm = t.therm ∧ z.ports = t.ports ∧ z.streams = t.streams ∧ z.services = t.services ∧ z.ptpPorts = t.ptpPorts ∧ z.ptp = t.ptp ∧ z.chans = t.chans ∧ z.seqs = t.seqs ∧ z.hc = t.hc ∧ z.trim = t.trim ∧ z.bundles = t.bundles ∧ z.slots = t.slots ∧ z.wt = t.wt ∧ z.mem = t.mem ∧ z.fwMem = t.fwMem ∧ z.pricks = t.pricks ∧ z.templates = t.templates ∧ z.order = t.order) c.okState := by
          intro ha
          subst hqc
          exact ih _ _ t ha
        cases c with
        | ok bu u =>
          have hu := hkc rfl
          dsimp only [Access.okState_ok] at hu ⊢
          exact fun _ => by simp [hu, ht]
        | fault f u =>
          have hu := hkc rfl
          dsimp only [Access.okState_fault] at hu ⊢
          exact fun _ => by simp [hu, ht]
        | wait n l d => exact fun h => by cases h
      | fault f t =>
        have ht := hka rfl
        dsimp only [Access.okState_fault] at ht ⊢
        exact fun _ => by simp [ht]
      | wait n l d => exact fun h => by cases h

theorem State.readE_frame (w : Work) (es : Nat) (idx : List Nat) (tok : Nat) (lo : Nat) (n : Nat) (s : State) (h : (State.readE w es idx tok lo n s).isWait = false) :
    (State.readE w es idx tok lo n s).okState.now = s.now ∧
    (State.readE w es idx tok lo n s).okState.pending = s.pending ∧
    (State.readE w es idx tok lo n s).okState.tb = s.tb ∧
    (State.readE w es idx tok lo n s).okState.sheets = s.sheets ∧
    (State.readE w es idx tok lo n s).okState.units = s.units ∧
    (State.readE w es idx tok lo n s).okState.pins = s.pins ∧
    (State.readE w es idx tok lo n s).okState.pk = s.pk ∧
    (State.readE w es idx tok lo n s).okState.errw = s.errw ∧
    (State.readE w es idx tok lo n s).okState.bulk = s.bulk ∧
    (State.readE w es idx tok lo n s).okState.power = s.power ∧
    (State.readE w es idx tok lo n s).okState.sec = s.sec ∧
    (State.readE w es idx tok lo n s).okState.therm = s.therm ∧
    (State.readE w es idx tok lo n s).okState.ports = s.ports ∧
    (State.readE w es idx tok lo n s).okState.streams = s.streams ∧
    (State.readE w es idx tok lo n s).okState.services = s.services ∧
    (State.readE w es idx tok lo n s).okState.ptpPorts = s.ptpPorts ∧
    (State.readE w es idx tok lo n s).okState.ptp = s.ptp ∧
    (State.readE w es idx tok lo n s).okState.chans = s.chans ∧
    (State.readE w es idx tok lo n s).okState.seqs = s.seqs ∧
    (State.readE w es idx tok lo n s).okState.hc = s.hc ∧
    (State.readE w es idx tok lo n s).okState.trim = s.trim ∧
    (State.readE w es idx tok lo n s).okState.bundles = s.bundles ∧
    (State.readE w es idx tok lo n s).okState.slots = s.slots ∧
    (State.readE w es idx tok lo n s).okState.wt = s.wt ∧
    (State.readE w es idx tok lo n s).okState.mem = s.mem ∧
    (State.readE w es idx tok lo n s).okState.fwMem = s.fwMem ∧
    (State.readE w es idx tok lo n s).okState.pricks = s.pricks ∧
    (State.readE w es idx tok lo n s).okState.templates = s.templates ∧
    (State.readE w es idx tok lo n s).okState.order = s.order := by
  revert h
  unfold State.readE
  dsimp only
  exact fun h => State.readOpnd_frame _ _ _ _ _ _ _ h

theorem State.pieceE_frame (w : Work) (es : Nat) (idx : List Nat) (tok : Nat) (lo : Nat) (n : Nat) (s : State) (h : (State.pieceE w es idx tok lo n s).isWait = false) :
    (State.pieceE w es idx tok lo n s).okState.now = s.now ∧
    (State.pieceE w es idx tok lo n s).okState.pending = s.pending ∧
    (State.pieceE w es idx tok lo n s).okState.tb = s.tb ∧
    (State.pieceE w es idx tok lo n s).okState.sheets = s.sheets ∧
    (State.pieceE w es idx tok lo n s).okState.units = s.units ∧
    (State.pieceE w es idx tok lo n s).okState.pins = s.pins ∧
    (State.pieceE w es idx tok lo n s).okState.pk = s.pk ∧
    (State.pieceE w es idx tok lo n s).okState.errw = s.errw ∧
    (State.pieceE w es idx tok lo n s).okState.bulk = s.bulk ∧
    (State.pieceE w es idx tok lo n s).okState.power = s.power ∧
    (State.pieceE w es idx tok lo n s).okState.sec = s.sec ∧
    (State.pieceE w es idx tok lo n s).okState.therm = s.therm ∧
    (State.pieceE w es idx tok lo n s).okState.ports = s.ports ∧
    (State.pieceE w es idx tok lo n s).okState.streams = s.streams ∧
    (State.pieceE w es idx tok lo n s).okState.services = s.services ∧
    (State.pieceE w es idx tok lo n s).okState.ptpPorts = s.ptpPorts ∧
    (State.pieceE w es idx tok lo n s).okState.ptp = s.ptp ∧
    (State.pieceE w es idx tok lo n s).okState.chans = s.chans ∧
    (State.pieceE w es idx tok lo n s).okState.seqs = s.seqs ∧
    (State.pieceE w es idx tok lo n s).okState.hc = s.hc ∧
    (State.pieceE w es idx tok lo n s).okState.trim = s.trim ∧
    (State.pieceE w es idx tok lo n s).okState.bundles = s.bundles ∧
    (State.pieceE w es idx tok lo n s).okState.slots = s.slots ∧
    (State.pieceE w es idx tok lo n s).okState.wt = s.wt ∧
    (State.pieceE w es idx tok lo n s).okState.mem = s.mem ∧
    (State.pieceE w es idx tok lo n s).okState.fwMem = s.fwMem ∧
    (State.pieceE w es idx tok lo n s).okState.pricks = s.pricks ∧
    (State.pieceE w es idx tok lo n s).okState.templates = s.templates ∧
    (State.pieceE w es idx tok lo n s).okState.order = s.order := by
  have hF0 := @State.readE_frame
  revert h
  unfold State.pieceE
  dsimp only
  split
  · intro h
    simp [hF0, h]
  · split
    · intro h
      refine Access.then_keeps (fun z : State => z.now = s.now ∧ z.pending = s.pending ∧ z.tb = s.tb ∧ z.sheets = s.sheets ∧ z.units = s.units ∧ z.pins = s.pins ∧ z.pk = s.pk ∧ z.errw = s.errw ∧ z.bulk = s.bulk ∧ z.power = s.power ∧ z.sec = s.sec ∧ z.therm = s.therm ∧ z.ports = s.ports ∧ z.streams = s.streams ∧ z.services = s.services ∧ z.ptpPorts = s.ptpPorts ∧ z.ptp = s.ptp ∧ z.chans = s.chans ∧ z.seqs = s.seqs ∧ z.hc = s.hc ∧ z.trim = s.trim ∧ z.bundles = s.bundles ∧ z.slots = s.slots ∧ z.wt = s.wt ∧ z.mem = s.mem ∧ z.fwMem = s.fwMem ∧ z.pricks = s.pricks ∧ z.templates = s.templates ∧ z.order = s.order) (fun h => by simp [hF0, h]) (fun g t ht h => ?_) h
      split at h
      · split
        · simpa [hF0] using ht
        · contradiction
      · split
        · contradiction
        · refine Access.then_keeps (fun z : State => z.now = s.now ∧ z.pending = s.pending ∧ z.tb = s.tb ∧ z.sheets = s.sheets ∧ z.units = s.units ∧ z.pins = s.pins ∧ z.pk = s.pk ∧ z.errw = s.errw ∧ z.bulk = s.bulk ∧ z.power = s.power ∧ z.sec = s.sec ∧ z.therm = s.therm ∧ z.ports = s.ports ∧ z.streams = s.streams ∧ z.services = s.services ∧ z.ptpPorts = s.ptpPorts ∧ z.ptp = s.ptp ∧ z.chans = s.chans ∧ z.seqs = s.seqs ∧ z.hc = s.hc ∧ z.trim = s.trim ∧ z.bundles = s.bundles ∧ z.slots = s.slots ∧ z.wt = s.wt ∧ z.mem = s.mem ∧ z.fwMem = s.fwMem ∧ z.pricks = s.pricks ∧ z.templates = s.templates ∧ z.order = s.order) (fun h => by simp [hF0, h, ht]) (fun c u hu h => by simpa [hF0] using hu) h
    · simp

theorem State.countTat_frame (w : Work) (masked : Bool) (outs : List OutElem) (bad : Nat) (vec : Nat) (mat : Nat) (s : State) :
    (State.countTat w masked outs bad vec mat s).now = s.now ∧
    (State.countTat w masked outs bad vec mat s).pending = s.pending ∧
    (State.countTat w masked outs bad vec mat s).tb = s.tb ∧
    (State.countTat w masked outs bad vec mat s).sheets = s.sheets ∧
    (State.countTat w masked outs bad vec mat s).units = s.units ∧
    (State.countTat w masked outs bad vec mat s).pins = s.pins ∧
    (State.countTat w masked outs bad vec mat s).pk = s.pk ∧
    (State.countTat w masked outs bad vec mat s).queues = s.queues ∧
    (State.countTat w masked outs bad vec mat s).latches = s.latches ∧
    (State.countTat w masked outs bad vec mat s).errw = s.errw ∧
    (State.countTat w masked outs bad vec mat s).sdio = s.sdio ∧
    (State.countTat w masked outs bad vec mat s).bulk = s.bulk ∧
    (State.countTat w masked outs bad vec mat s).mgmt = s.mgmt ∧
    (State.countTat w masked outs bad vec mat s).power = s.power ∧
    (State.countTat w masked outs bad vec mat s).sec = s.sec ∧
    (State.countTat w masked outs bad vec mat s).therm = s.therm ∧
    (State.countTat w masked outs bad vec mat s).ports = s.ports ∧
    (State.countTat w masked outs bad vec mat s).streams = s.streams ∧
    (State.countTat w masked outs bad vec mat s).services = s.services ∧
    (State.countTat w masked outs bad vec mat s).ptpPorts = s.ptpPorts ∧
    (State.countTat w masked outs bad vec mat s).ptp = s.ptp ∧
    (State.countTat w masked outs bad vec mat s).chans = s.chans ∧
    (State.countTat w masked outs bad vec mat s).seqs = s.seqs ∧
    (State.countTat w masked outs bad vec mat s).hc = s.hc ∧
    (State.countTat w masked outs bad vec mat s).trim = s.trim ∧
    (State.countTat w masked outs bad vec mat s).bundles = s.bundles ∧
    (State.countTat w masked outs bad vec mat s).slots = s.slots ∧
    (State.countTat w masked outs bad vec mat s).wt = s.wt ∧
    (State.countTat w masked outs bad vec mat s).mem = s.mem ∧
    (State.countTat w masked outs bad vec mat s).fwMem = s.fwMem ∧
    (State.countTat w masked outs bad vec mat s).ms = s.ms ∧
    (State.countTat w masked outs bad vec mat s).pricks = s.pricks ∧
    (State.countTat w masked outs bad vec mat s).templates = s.templates ∧
    (State.countTat w masked outs bad vec mat s).order = s.order ∧
    (State.countTat w masked outs bad vec mat s).free = s.free := by
  have hF0 := @State.modPillow_frame
  have hF1 := @State.modJob_frame
  unfold State.countTat; simp [hF0, hF1]

theorem State.tatNext_frame (w : Work) (idx : List Nat) (tok : Nat) (nxt : Option (List Nat × Nat)) (s : State) :
    (State.tatNext w idx tok nxt s).now = s.now ∧ (State.tatNext w idx tok nxt s).pending = s.pending ∧
    (State.tatNext w idx tok nxt s).tb = s.tb ∧ (State.tatNext w idx tok nxt s).sheets = s.sheets ∧
    (State.tatNext w idx tok nxt s).units = s.units ∧ (State.tatNext w idx tok nxt s).pins = s.pins ∧
    (State.tatNext w idx tok nxt s).pk = s.pk ∧ (State.tatNext w idx tok nxt s).queues = s.queues ∧
    (State.tatNext w idx tok nxt s).latches = s.latches ∧ (State.tatNext w idx tok nxt s).errw = s.errw ∧
    (State.tatNext w idx tok nxt s).sdio = s.sdio ∧ (State.tatNext w idx tok nxt s).bulk = s.bulk ∧
    (State.tatNext w idx tok nxt s).mgmt = s.mgmt ∧ (State.tatNext w idx tok nxt s).power = s.power ∧
    (State.tatNext w idx tok nxt s).sec = s.sec ∧ (State.tatNext w idx tok nxt s).therm = s.therm ∧
    (State.tatNext w idx tok nxt s).ports = s.ports ∧ (State.tatNext w idx tok nxt s).streams = s.streams ∧
    (State.tatNext w idx tok nxt s).services = s.services ∧
    (State.tatNext w idx tok nxt s).ptpPorts = s.ptpPorts ∧ (State.tatNext w idx tok nxt s).ptp = s.ptp ∧
    (State.tatNext w idx tok nxt s).chans = s.chans ∧ (State.tatNext w idx tok nxt s).seqs = s.seqs ∧
    (State.tatNext w idx tok nxt s).hc = s.hc ∧ (State.tatNext w idx tok nxt s).trim = s.trim ∧
    (State.tatNext w idx tok nxt s).bundles = s.bundles ∧ (State.tatNext w idx tok nxt s).slots = s.slots ∧
    (State.tatNext w idx tok nxt s).wt = s.wt ∧ (State.tatNext w idx tok nxt s).mem = s.mem ∧
    (State.tatNext w idx tok nxt s).fwMem = s.fwMem ∧ (State.tatNext w idx tok nxt s).ms = s.ms ∧
    (State.tatNext w idx tok nxt s).pricks = s.pricks ∧
    (State.tatNext w idx tok nxt s).templates = s.templates ∧
    (State.tatNext w idx tok nxt s).order = s.order ∧ (State.tatNext w idx tok nxt s).free = s.free := by
  have hF0 := @State.landAt_frame
  have hF1 := @State.releaseAt_frame
  have hF2 := @State.releaseE_frame
  have hF3 := @State.modRun_frame
  unfold State.tatNext; dsimp only; (repeat' split) <;> simp [hF0, hF1, hF2, hF3]

theorem State.vectorStep_frame (w : Work) (idx : List Nat) (tok : Nat) (s : State) (h : (State.vectorStep w idx tok s).isWait = false) :
    (State.vectorStep w idx tok s).okState.now = s.now ∧
    (State.vectorStep w idx tok s).okState.pending = s.pending ∧
    (State.vectorStep w idx tok s).okState.tb = s.tb ∧
    (State.vectorStep w idx tok s).okState.sheets = s.sheets ∧
    (State.vectorStep w idx tok s).okState.units = s.units ∧
    (State.vectorStep w idx tok s).okState.pins = s.pins ∧
    (State.vectorStep w idx tok s).okState.pk = s.pk ∧
    (State.vectorStep w idx tok s).okState.errw = s.errw ∧
    (State.vectorStep w idx tok s).okState.bulk = s.bulk ∧
    (State.vectorStep w idx tok s).okState.power = s.power ∧
    (State.vectorStep w idx tok s).okState.sec = s.sec ∧
    (State.vectorStep w idx tok s).okState.therm = s.therm ∧
    (State.vectorStep w idx tok s).okState.streams = s.streams ∧
    (State.vectorStep w idx tok s).okState.services = s.services ∧
    (State.vectorStep w idx tok s).okState.ptpPorts = s.ptpPorts ∧
    (State.vectorStep w idx tok s).okState.ptp = s.ptp ∧
    (State.vectorStep w idx tok s).okState.chans = s.chans ∧
    (State.vectorStep w idx tok s).okState.seqs = s.seqs ∧
    (State.vectorStep w idx tok s).okState.hc = s.hc ∧
    (State.vectorStep w idx tok s).okState.trim = s.trim ∧
    (State.vectorStep w idx tok s).okState.bundles = s.bundles ∧
    (State.vectorStep w idx tok s).okState.slots = s.slots ∧
    (State.vectorStep w idx tok s).okState.wt = s.wt ∧
    (State.vectorStep w idx tok s).okState.fwMem = s.fwMem ∧
    (State.vectorStep w idx tok s).okState.pricks = s.pricks ∧
    (State.vectorStep w idx tok s).okState.templates = s.templates ∧
    (State.vectorStep w idx tok s).okState.order = s.order := by
  have hF0 := @readPiece_frame
  have hF1 := @State.pieceE_frame
  have hF2 := @State.tatNext_frame
  have hF3 := @State.modPillow_frame
  have hF4 := @State.countTat_frame
  have hF5 := @State.modRun_frame
  revert h
  unfold State.vectorStep
  dsimp only
  intro h
  refine Access.then_keeps (fun z : State => z.now = s.now ∧ z.pending = s.pending ∧ z.tb = s.tb ∧ z.sheets = s.sheets ∧ z.units = s.units ∧ z.pins = s.pins ∧ z.pk = s.pk ∧ z.errw = s.errw ∧ z.bulk = s.bulk ∧ z.power = s.power ∧ z.sec = s.sec ∧ z.therm = s.therm ∧ z.streams = s.streams ∧ z.services = s.services ∧ z.ptpPorts = s.ptpPorts ∧ z.ptp = s.ptp ∧ z.chans = s.chans ∧ z.seqs = s.seqs ∧ z.hc = s.hc ∧ z.trim = s.trim ∧ z.bundles = s.bundles ∧ z.slots = s.slots ∧ z.wt = s.wt ∧ z.fwMem = s.fwMem ∧ z.pricks = s.pricks ∧ z.templates = s.templates ∧ z.order = s.order) (fun h => by simp [hF0, h]) (fun b t ht h => ?_) h
  refine Access.then_keeps (fun z : State => z.now = s.now ∧ z.pending = s.pending ∧ z.tb = s.tb ∧ z.sheets = s.sheets ∧ z.units = s.units ∧ z.pins = s.pins ∧ z.pk = s.pk ∧ z.errw = s.errw ∧ z.bulk = s.bulk ∧ z.power = s.power ∧ z.sec = s.sec ∧ z.therm = s.therm ∧ z.streams = s.streams ∧ z.services = s.services ∧ z.ptpPorts = s.ptpPorts ∧ z.ptp = s.ptp ∧ z.chans = s.chans ∧ z.seqs = s.seqs ∧ z.hc = s.hc ∧ z.trim = s.trim ∧ z.bundles = s.bundles ∧ z.slots = s.slots ∧ z.wt = s.wt ∧ z.fwMem = s.fwMem ∧ z.pricks = s.pricks ∧ z.templates = s.templates ∧ z.order = s.order) (fun h => by simp [hF1, h, ht]) (fun c u hu h => ?_) h
  revert h
  clear * - hu hF0 hF1 hF2 hF3 hF4 hF5
  generalize hq : State.writeSpans w 2 w.op.o _ _ _ _ u = a
  have hk : a.isWait = false → (fun z : State => z.now = u.now ∧ z.pending = u.pending ∧ z.tb = u.tb ∧ z.sheets = u.sheets ∧ z.units = u.units ∧ z.pins = u.pins ∧ z.pk = u.pk ∧ z.errw = u.errw ∧ z.bulk = u.bulk ∧ z.mgmt = u.mgmt ∧ z.power = u.power ∧ z.sec = u.sec ∧ z.therm = u.therm ∧ z.streams = u.streams ∧ z.services = u.services ∧ z.ptpPorts = u.ptpPorts ∧ z.ptp = u.ptp ∧ z.chans = u.chans ∧ z.seqs = u.seqs ∧ z.hc = u.hc ∧ z.trim = u.trim ∧ z.bundles = u.bundles ∧ z.slots = u.slots ∧ z.wt = u.wt ∧ z.fwMem = u.fwMem ∧ z.pricks = u.pricks ∧ z.templates = u.templates ∧ z.order = u.order) a.okState := by
    intro ha
    subst hq
    exact State.writeSpans_frame _ _ _ _ _ _ _ _ ha
  cases a with
  | ok b v =>
    have hv := hk rfl
    dsimp only [Access.okState_ok] at hv ⊢
    intro _
    simp [hF2, hF3, hF4, hF5, hv, hu]
  | fault f v =>
    have hv := hk rfl
    dsimp only [Access.okState_fault] at hv ⊢
    intro _
    simp [hv, hu]
  | wait n l d =>
    intro h
    cases h

@[simp] theorem State.vectorStep_wf (w : Work) (idx : List Nat) (tok : Nat) (s : State) (hm : Memory.wf s.mem = true) (h : (State.vectorStep w idx tok s).isWait = false) :
    Memory.wf (State.vectorStep w idx tok s).okState.mem = true := by
  have hF0 := @readPiece_frame
  have hF1 := @State.pieceE_frame
  have hF2 := @State.tatNext_frame
  have hF3 := @State.modPillow_frame
  have hF4 := @State.countTat_frame
  have hF5 := @State.modRun_frame
  revert h
  unfold State.vectorStep
  dsimp only
  intro h
  refine Access.then_keeps (fun t : State => Memory.wf t.mem = true) (fun h => by simp [hF0, h, hm]) (fun b t ht h => ?_) h
  refine Access.then_keeps (fun t : State => Memory.wf t.mem = true) (fun h => by simp [hF1, h, ht]) (fun c u hu h => ?_) h
  revert h
  clear * - hu hF0 hF1 hF2 hF3 hF4 hF5
  generalize hq : State.writeSpans w 2 w.op.o _ _ _ _ u = a
  have hk : a.isWait = false → (fun t : State => Memory.wf t.mem = true) a.okState := by
    intro ha
    subst hq
    exact State.writeSpans_wf _ _ _ _ _ _ _ _ hu ha
  cases a with
  | ok b v =>
    have hv := hk rfl
    dsimp only [Access.okState_ok] at hv ⊢
    intro _
    simp [hF2, hF3, hF4, hF5, hv]
  | fault f v =>
    have hv := hk rfl
    exact fun _ => hv
  | wait n l d =>
    intro h
    cases h

theorem readRows_frame (w : Work) (idx : List Nat) (lo : Nat) (n : Nat) (x0 : Nat) (x1 : State) (h : (readRows w idx lo n x0 x1).isWait = false) :
    (readRows w idx lo n x0 x1).okState.now = x1.now ∧
    (readRows w idx lo n x0 x1).okState.pending = x1.pending ∧
    (readRows w idx lo n x0 x1).okState.tb = x1.tb ∧
    (readRows w idx lo n x0 x1).okState.sheets = x1.sheets ∧
    (readRows w idx lo n x0 x1).okState.units = x1.units ∧
    (readRows w idx lo n x0 x1).okState.pins = x1.pins ∧ (readRows w idx lo n x0 x1).okState.pk = x1.pk ∧
    (readRows w idx lo n x0 x1).okState.errw = x1.errw ∧
    (readRows w idx lo n x0 x1).okState.bulk = x1.bulk ∧
    (readRows w idx lo n x0 x1).okState.power = x1.power ∧
    (readRows w idx lo n x0 x1).okState.sec = x1.sec ∧
    (readRows w idx lo n x0 x1).okState.therm = x1.therm ∧
    (readRows w idx lo n x0 x1).okState.ports = x1.ports ∧
    (readRows w idx lo n x0 x1).okState.streams = x1.streams ∧
    (readRows w idx lo n x0 x1).okState.services = x1.services ∧
    (readRows w idx lo n x0 x1).okState.ptpPorts = x1.ptpPorts ∧
    (readRows w idx lo n x0 x1).okState.ptp = x1.ptp ∧
    (readRows w idx lo n x0 x1).okState.chans = x1.chans ∧
    (readRows w idx lo n x0 x1).okState.seqs = x1.seqs ∧ (readRows w idx lo n x0 x1).okState.hc = x1.hc ∧
    (readRows w idx lo n x0 x1).okState.trim = x1.trim ∧
    (readRows w idx lo n x0 x1).okState.bundles = x1.bundles ∧
    (readRows w idx lo n x0 x1).okState.slots = x1.slots ∧ (readRows w idx lo n x0 x1).okState.wt = x1.wt ∧
    (readRows w idx lo n x0 x1).okState.mem = x1.mem ∧
    (readRows w idx lo n x0 x1).okState.fwMem = x1.fwMem ∧
    (readRows w idx lo n x0 x1).okState.pricks = x1.pricks ∧
    (readRows w idx lo n x0 x1).okState.templates = x1.templates ∧
    (readRows w idx lo n x0 x1).okState.order = x1.order := by
  have hF0 := @readPiece_frame
  induction x0 generalizing x1 with
  | zero => simp [readRows]
  | succ m ih =>
    revert h
    unfold readRows
    intro h
    refine Access.then_keeps (fun z : State => z.now = x1.now ∧ z.pending = x1.pending ∧ z.tb = x1.tb ∧ z.sheets = x1.sheets ∧ z.units = x1.units ∧ z.pins = x1.pins ∧ z.pk = x1.pk ∧ z.errw = x1.errw ∧ z.bulk = x1.bulk ∧ z.power = x1.power ∧ z.sec = x1.sec ∧ z.therm = x1.therm ∧ z.ports = x1.ports ∧ z.streams = x1.streams ∧ z.services = x1.services ∧ z.ptpPorts = x1.ptpPorts ∧ z.ptp = x1.ptp ∧ z.chans = x1.chans ∧ z.seqs = x1.seqs ∧ z.hc = x1.hc ∧ z.trim = x1.trim ∧ z.bundles = x1.bundles ∧ z.slots = x1.slots ∧ z.wt = x1.wt ∧ z.mem = x1.mem ∧ z.fwMem = x1.fwMem ∧ z.pricks = x1.pricks ∧ z.templates = x1.templates ∧ z.order = x1.order) (fun h => ih _ h) (fun b t ht h => ?_) h
    refine Access.then_keeps (fun z : State => z.now = x1.now ∧ z.pending = x1.pending ∧ z.tb = x1.tb ∧ z.sheets = x1.sheets ∧ z.units = x1.units ∧ z.pins = x1.pins ∧ z.pk = x1.pk ∧ z.errw = x1.errw ∧ z.bulk = x1.bulk ∧ z.power = x1.power ∧ z.sec = x1.sec ∧ z.therm = x1.therm ∧ z.ports = x1.ports ∧ z.streams = x1.streams ∧ z.services = x1.services ∧ z.ptpPorts = x1.ptpPorts ∧ z.ptp = x1.ptp ∧ z.chans = x1.chans ∧ z.seqs = x1.seqs ∧ z.hc = x1.hc ∧ z.trim = x1.trim ∧ z.bundles = x1.bundles ∧ z.slots = x1.slots ∧ z.wt = x1.wt ∧ z.mem = x1.mem ∧ z.fwMem = x1.fwMem ∧ z.pricks = x1.pricks ∧ z.templates = x1.templates ∧ z.order = x1.order) (fun h => by simp [hF0, h, ht]) (fun c u hu h => by simpa [hF0] using hu) h

theorem readRowsE_frame (w : Work) (idx : List Nat) (j : Nat) (lo : Nat) (n : Nat) (x0 : Nat) (x1 : State) (h : (readRowsE w idx j lo n x0 x1).isWait = false) :
    (readRowsE w idx j lo n x0 x1).okState.now = x1.now ∧
    (readRowsE w idx j lo n x0 x1).okState.pending = x1.pending ∧
    (readRowsE w idx j lo n x0 x1).okState.tb = x1.tb ∧
    (readRowsE w idx j lo n x0 x1).okState.sheets = x1.sheets ∧
    (readRowsE w idx j lo n x0 x1).okState.units = x1.units ∧
    (readRowsE w idx j lo n x0 x1).okState.pins = x1.pins ∧
    (readRowsE w idx j lo n x0 x1).okState.pk = x1.pk ∧
    (readRowsE w idx j lo n x0 x1).okState.errw = x1.errw ∧
    (readRowsE w idx j lo n x0 x1).okState.bulk = x1.bulk ∧
    (readRowsE w idx j lo n x0 x1).okState.power = x1.power ∧
    (readRowsE w idx j lo n x0 x1).okState.sec = x1.sec ∧
    (readRowsE w idx j lo n x0 x1).okState.therm = x1.therm ∧
    (readRowsE w idx j lo n x0 x1).okState.ports = x1.ports ∧
    (readRowsE w idx j lo n x0 x1).okState.streams = x1.streams ∧
    (readRowsE w idx j lo n x0 x1).okState.services = x1.services ∧
    (readRowsE w idx j lo n x0 x1).okState.ptpPorts = x1.ptpPorts ∧
    (readRowsE w idx j lo n x0 x1).okState.ptp = x1.ptp ∧
    (readRowsE w idx j lo n x0 x1).okState.chans = x1.chans ∧
    (readRowsE w idx j lo n x0 x1).okState.seqs = x1.seqs ∧
    (readRowsE w idx j lo n x0 x1).okState.hc = x1.hc ∧
    (readRowsE w idx j lo n x0 x1).okState.trim = x1.trim ∧
    (readRowsE w idx j lo n x0 x1).okState.bundles = x1.bundles ∧
    (readRowsE w idx j lo n x0 x1).okState.slots = x1.slots ∧
    (readRowsE w idx j lo n x0 x1).okState.wt = x1.wt ∧
    (readRowsE w idx j lo n x0 x1).okState.mem = x1.mem ∧
    (readRowsE w idx j lo n x0 x1).okState.fwMem = x1.fwMem ∧
    (readRowsE w idx j lo n x0 x1).okState.pricks = x1.pricks ∧
    (readRowsE w idx j lo n x0 x1).okState.templates = x1.templates ∧
    (readRowsE w idx j lo n x0 x1).okState.order = x1.order := by
  have hF0 := @State.readE_frame
  induction x0 generalizing x1 with
  | zero => simp [readRowsE]
  | succ m ih =>
    revert h
    unfold readRowsE
    intro h
    refine Access.then_keeps (fun z : State => z.now = x1.now ∧ z.pending = x1.pending ∧ z.tb = x1.tb ∧ z.sheets = x1.sheets ∧ z.units = x1.units ∧ z.pins = x1.pins ∧ z.pk = x1.pk ∧ z.errw = x1.errw ∧ z.bulk = x1.bulk ∧ z.power = x1.power ∧ z.sec = x1.sec ∧ z.therm = x1.therm ∧ z.ports = x1.ports ∧ z.streams = x1.streams ∧ z.services = x1.services ∧ z.ptpPorts = x1.ptpPorts ∧ z.ptp = x1.ptp ∧ z.chans = x1.chans ∧ z.seqs = x1.seqs ∧ z.hc = x1.hc ∧ z.trim = x1.trim ∧ z.bundles = x1.bundles ∧ z.slots = x1.slots ∧ z.wt = x1.wt ∧ z.mem = x1.mem ∧ z.fwMem = x1.fwMem ∧ z.pricks = x1.pricks ∧ z.templates = x1.templates ∧ z.order = x1.order) (fun h => ih _ h) (fun b t ht h => ?_) h
    refine Access.then_keeps (fun z : State => z.now = x1.now ∧ z.pending = x1.pending ∧ z.tb = x1.tb ∧ z.sheets = x1.sheets ∧ z.units = x1.units ∧ z.pins = x1.pins ∧ z.pk = x1.pk ∧ z.errw = x1.errw ∧ z.bulk = x1.bulk ∧ z.power = x1.power ∧ z.sec = x1.sec ∧ z.therm = x1.therm ∧ z.ports = x1.ports ∧ z.streams = x1.streams ∧ z.services = x1.services ∧ z.ptpPorts = x1.ptpPorts ∧ z.ptp = x1.ptp ∧ z.chans = x1.chans ∧ z.seqs = x1.seqs ∧ z.hc = x1.hc ∧ z.trim = x1.trim ∧ z.bundles = x1.bundles ∧ z.slots = x1.slots ∧ z.wt = x1.wt ∧ z.mem = x1.mem ∧ z.fwMem = x1.fwMem ∧ z.pricks = x1.pricks ∧ z.templates = x1.templates ∧ z.order = x1.order) (fun h => by simp [hF0, h, ht]) (fun c u hu h => by simpa [hF0] using hu) h

theorem State.matrixStep_frame (w : Work) (idx : List Nat) (s : State) (h : (State.matrixStep w idx s).isWait = false) :
    (State.matrixStep w idx s).okState.now = s.now ∧
    (State.matrixStep w idx s).okState.pending = s.pending ∧ (State.matrixStep w idx s).okState.tb = s.tb ∧
    (State.matrixStep w idx s).okState.sheets = s.sheets ∧
    (State.matrixStep w idx s).okState.units = s.units ∧ (State.matrixStep w idx s).okState.pins = s.pins ∧
    (State.matrixStep w idx s).okState.pk = s.pk ∧ (State.matrixStep w idx s).okState.errw = s.errw ∧
    (State.matrixStep w idx s).okState.bulk = s.bulk ∧ (State.matrixStep w idx s).okState.power = s.power ∧
    (State.matrixStep w idx s).okState.sec = s.sec ∧ (State.matrixStep w idx s).okState.therm = s.therm ∧
    (State.matrixStep w idx s).okState.streams = s.streams ∧
    (State.matrixStep w idx s).okState.services = s.services ∧
    (State.matrixStep w idx s).okState.ptpPorts = s.ptpPorts ∧
    (State.matrixStep w idx s).okState.ptp = s.ptp ∧ (State.matrixStep w idx s).okState.chans = s.chans ∧
    (State.matrixStep w idx s).okState.seqs = s.seqs ∧ (State.matrixStep w idx s).okState.hc = s.hc ∧
    (State.matrixStep w idx s).okState.trim = s.trim ∧
    (State.matrixStep w idx s).okState.bundles = s.bundles ∧
    (State.matrixStep w idx s).okState.slots = s.slots ∧ (State.matrixStep w idx s).okState.wt = s.wt ∧
    (State.matrixStep w idx s).okState.fwMem = s.fwMem ∧
    (State.matrixStep w idx s).okState.pricks = s.pricks ∧
    (State.matrixStep w idx s).okState.templates = s.templates ∧
    (State.matrixStep w idx s).okState.order = s.order := by
  have hF0 := @readRows_frame
  have hF1 := @readRowsE_frame
  have hF2 := @State.tatNext_frame
  have hF3 := @State.countTat_frame
  have hF4 := @State.modPillow_frame
  have hF5 := @State.modRun_frame
  revert h
  unfold State.matrixStep
  dsimp only
  intro h
  refine Access.then_keeps (fun z : State => z.now = s.now ∧ z.pending = s.pending ∧ z.tb = s.tb ∧ z.sheets = s.sheets ∧ z.units = s.units ∧ z.pins = s.pins ∧ z.pk = s.pk ∧ z.errw = s.errw ∧ z.bulk = s.bulk ∧ z.power = s.power ∧ z.sec = s.sec ∧ z.therm = s.therm ∧ z.streams = s.streams ∧ z.services = s.services ∧ z.ptpPorts = s.ptpPorts ∧ z.ptp = s.ptp ∧ z.chans = s.chans ∧ z.seqs = s.seqs ∧ z.hc = s.hc ∧ z.trim = s.trim ∧ z.bundles = s.bundles ∧ z.slots = s.slots ∧ z.wt = s.wt ∧ z.fwMem = s.fwMem ∧ z.pricks = s.pricks ∧ z.templates = s.templates ∧ z.order = s.order) (fun h => by simp [hF0, h]) (fun b t ht h => ?_) h
  refine Access.then_keeps (fun z : State => z.now = s.now ∧ z.pending = s.pending ∧ z.tb = s.tb ∧ z.sheets = s.sheets ∧ z.units = s.units ∧ z.pins = s.pins ∧ z.pk = s.pk ∧ z.errw = s.errw ∧ z.bulk = s.bulk ∧ z.power = s.power ∧ z.sec = s.sec ∧ z.therm = s.therm ∧ z.streams = s.streams ∧ z.services = s.services ∧ z.ptpPorts = s.ptpPorts ∧ z.ptp = s.ptp ∧ z.chans = s.chans ∧ z.seqs = s.seqs ∧ z.hc = s.hc ∧ z.trim = s.trim ∧ z.bundles = s.bundles ∧ z.slots = s.slots ∧ z.wt = s.wt ∧ z.fwMem = s.fwMem ∧ z.pricks = s.pricks ∧ z.templates = s.templates ∧ z.order = s.order) (fun h => by
    by_cases hc : (w.op.arg == 10) = true
    · rw [if_pos hc] at h ⊢
      simp [hF1, h, ht]
    · rw [if_neg hc] at h ⊢
      simp [hF1, h, ht]) (fun c u hu h => ?_) h
  revert h
  clear * - hu hF0 hF1 hF2 hF3 hF4 hF5
  generalize hq : State.writeSpans w 2 w.op.o _ _ _ _ u = a
  have hk : a.isWait = false → (fun z : State => z.now = u.now ∧ z.pending = u.pending ∧ z.tb = u.tb ∧ z.sheets = u.sheets ∧ z.units = u.units ∧ z.pins = u.pins ∧ z.pk = u.pk ∧ z.errw = u.errw ∧ z.bulk = u.bulk ∧ z.mgmt = u.mgmt ∧ z.power = u.power ∧ z.sec = u.sec ∧ z.therm = u.therm ∧ z.streams = u.streams ∧ z.services = u.services ∧ z.ptpPorts = u.ptpPorts ∧ z.ptp = u.ptp ∧ z.chans = u.chans ∧ z.seqs = u.seqs ∧ z.hc = u.hc ∧ z.trim = u.trim ∧ z.bundles = u.bundles ∧ z.slots = u.slots ∧ z.wt = u.wt ∧ z.fwMem = u.fwMem ∧ z.pricks = u.pricks ∧ z.templates = u.templates ∧ z.order = u.order) a.okState := by
    intro ha
    subst hq
    exact State.writeSpans_frame _ _ _ _ _ _ _ _ ha
  cases a with
  | ok b v =>
    have hv := hk rfl
    dsimp only [Access.okState_ok] at hv ⊢
    intro _
    simp [hF2, hF3, hF4, hF5, hv, hu]
  | fault f v =>
    have hv := hk rfl
    dsimp only [Access.okState_fault] at hv ⊢
    intro _
    simp [hv, hu]
  | wait n l d =>
    intro h
    cases h

@[simp] theorem State.matrixStep_wf (w : Work) (idx : List Nat) (s : State) (hm : Memory.wf s.mem = true) (h : (State.matrixStep w idx s).isWait = false) :
    Memory.wf (State.matrixStep w idx s).okState.mem = true := by
  have hF0 := @readRows_frame
  have hF1 := @readRowsE_frame
  have hF2 := @State.tatNext_frame
  have hF3 := @State.countTat_frame
  have hF4 := @State.modPillow_frame
  have hF5 := @State.modRun_frame
  revert h
  unfold State.matrixStep
  dsimp only
  intro h
  refine Access.then_keeps (fun t : State => Memory.wf t.mem = true) (fun h => by simp [hF0, h, hm]) (fun b t ht h => ?_) h
  refine Access.then_keeps (fun t : State => Memory.wf t.mem = true) (fun h => by
    by_cases hc : (w.op.arg == 10) = true
    · rw [if_pos hc] at h ⊢
      simp [hF1, h, ht]
    · rw [if_neg hc] at h ⊢
      simp [hF1, h, ht]) (fun c u hu h => ?_) h
  revert h
  clear * - hu hF0 hF1 hF2 hF3 hF4 hF5
  generalize hq : State.writeSpans w 2 w.op.o _ _ _ _ u = a
  have hk : a.isWait = false → (fun t : State => Memory.wf t.mem = true) a.okState := by
    intro ha
    subst hq
    exact State.writeSpans_wf _ _ _ _ _ _ _ _ hu ha
  cases a with
  | ok b v =>
    have hv := hk rfl
    dsimp only [Access.okState_ok] at hv ⊢
    intro _
    simp [hF2, hF3, hF4, hF5, hv]
  | fault f v =>
    have hv := hk rfl
    exact fun _ => hv
  | wait n l d =>
    intro h
    cases h

theorem State.tatOne_frame (p : Nat) (w : Work) (idx : List Nat) (tok : Nat) (s : State) :
    (State.tatOne p w idx tok s).now = s.now ∧ (State.tatOne p w idx tok s).pending = s.pending ∧
    (State.tatOne p w idx tok s).tb = s.tb ∧ (State.tatOne p w idx tok s).sheets = s.sheets ∧
    (State.tatOne p w idx tok s).units = s.units ∧ (State.tatOne p w idx tok s).errw = s.errw ∧
    (State.tatOne p w idx tok s).bulk = s.bulk ∧ (State.tatOne p w idx tok s).sec = s.sec ∧
    (State.tatOne p w idx tok s).therm = s.therm ∧ (State.tatOne p w idx tok s).streams = s.streams ∧
    (State.tatOne p w idx tok s).ptpPorts = s.ptpPorts ∧ (State.tatOne p w idx tok s).ptp = s.ptp ∧
    (State.tatOne p w idx tok s).chans = s.chans ∧ (State.tatOne p w idx tok s).seqs = s.seqs ∧
    (State.tatOne p w idx tok s).hc = s.hc ∧ (State.tatOne p w idx tok s).trim = s.trim ∧
    (State.tatOne p w idx tok s).bundles = s.bundles ∧ (State.tatOne p w idx tok s).slots = s.slots ∧
    (State.tatOne p w idx tok s).wt = s.wt ∧ (State.tatOne p w idx tok s).fwMem = s.fwMem ∧
    (State.tatOne p w idx tok s).pricks = s.pricks ∧ (State.tatOne p w idx tok s).templates = s.templates ∧
    (State.tatOne p w idx tok s).order = s.order := by
  have hF0 := @State.settlePillows_frame
  have hF1 := @State.boundary_frame
  have hF2 := @State.unitFault_frame
  have hF3 := @State.unitWait_frame
  unfold State.tatOne
  have hk : (if w.op.arg ≤ 9 then s.vectorStep w idx tok else s.matrixStep w idx).isWait = false → (fun z : State => z.now = s.now ∧ z.pending = s.pending ∧ z.tb = s.tb ∧ z.sheets = s.sheets ∧ z.units = s.units ∧ z.errw = s.errw ∧ z.bulk = s.bulk ∧ z.sec = s.sec ∧ z.therm = s.therm ∧ z.streams = s.streams ∧ z.ptpPorts = s.ptpPorts ∧ z.ptp = s.ptp ∧ z.chans = s.chans ∧ z.seqs = s.seqs ∧ z.hc = s.hc ∧ z.trim = s.trim ∧ z.bundles = s.bundles ∧ z.slots = s.slots ∧ z.wt = s.wt ∧ z.fwMem = s.fwMem ∧ z.pricks = s.pricks ∧ z.templates = s.templates ∧ z.order = s.order) (if w.op.arg ≤ 9 then s.vectorStep w idx tok else s.matrixStep w idx).okState := by
    intro ha
    split at ha
    · rename_i h9
      simp only [if_pos h9]
      have := State.vectorStep_frame w idx tok s ha
      simp only [this, and_self]
    · rename_i h9
      simp only [if_neg h9]
      have := State.matrixStep_frame w idx s ha
      simp only [this, and_self]
  generalize (if w.op.arg ≤ 9 then s.vectorStep w idx tok else s.matrixStep w idx) = a at hk ⊢
  cases a with
  | ok b u =>
    have hu := hk rfl
    dsimp only [Access.okState_ok] at hu ⊢
    simp [hF0, hF1, hu]
  | fault f u =>
    have hu := hk rfl
    dsimp only [Access.okState_fault] at hu ⊢
    simp [hF0, hF2, hu]
  | wait n l d => simp [hF0, hF3]

@[simp] theorem State.tatOne_wf (p : Nat) (w : Work) (idx : List Nat) (tok : Nat) (s : State) (hm : Memory.wf s.mem = true) :
    Memory.wf (State.tatOne p w idx tok s).mem = true := by
  have hF0 := @State.unitFault_frame
  have hF1 := @State.unitWait_frame
  unfold State.tatOne
  have hk : (if w.op.arg ≤ 9 then s.vectorStep w idx tok else s.matrixStep w idx).isWait = false → (fun t : State => Memory.wf t.mem = true) (if w.op.arg ≤ 9 then s.vectorStep w idx tok else s.matrixStep w idx).okState := by
    intro ha
    split at ha
    · rename_i h9
      simp only [if_pos h9]
      exact State.vectorStep_wf w idx tok s hm ha
    · rename_i h9
      simp only [if_neg h9]
      exact State.matrixStep_wf w idx s hm ha
  generalize (if w.op.arg ≤ 9 then s.vectorStep w idx tok else s.matrixStep w idx) = a at hk ⊢
  cases a with
  | ok b u =>
    have hu := hk rfl
    dsimp only [Access.okState_ok] at hu ⊢
    simp [hu]
  | fault f u =>
    have hu := hk rfl
    dsimp only [Access.okState_fault] at hu ⊢
    simp [hF0, hu]
  | wait n l d => simp [hF1, hm]

/-! ## RegsPillow -/

theorem State.pilClear_frame (p : Nat) (o : Nat) (s : State) : (State.pilClear p o s).now = s.now ∧
    (State.pilClear p o s).pending = s.pending ∧ (State.pilClear p o s).tb = s.tb ∧
    (State.pilClear p o s).sheets = s.sheets ∧ (State.pilClear p o s).units = s.units ∧
    (State.pilClear p o s).pins = s.pins ∧ (State.pilClear p o s).pk = s.pk ∧
    (State.pilClear p o s).queues = s.queues ∧ (State.pilClear p o s).latches = s.latches ∧
    (State.pilClear p o s).errw = s.errw ∧ (State.pilClear p o s).sdio = s.sdio ∧
    (State.pilClear p o s).bulk = s.bulk ∧ (State.pilClear p o s).mgmt = s.mgmt ∧
    (State.pilClear p o s).power = s.power ∧ (State.pilClear p o s).sec = s.sec ∧
    (State.pilClear p o s).therm = s.therm ∧ (State.pilClear p o s).ports = s.ports ∧
    (State.pilClear p o s).streams = s.streams ∧ (State.pilClear p o s).services = s.services ∧
    (State.pilClear p o s).ptpPorts = s.ptpPorts ∧ (State.pilClear p o s).ptp = s.ptp ∧
    (State.pilClear p o s).chans = s.chans ∧ (State.pilClear p o s).seqs = s.seqs ∧
    (State.pilClear p o s).hc = s.hc ∧ (State.pilClear p o s).trim = s.trim ∧
    (State.pilClear p o s).bundles = s.bundles ∧ (State.pilClear p o s).slots = s.slots ∧
    (State.pilClear p o s).wt = s.wt ∧ (State.pilClear p o s).mem = s.mem ∧
    (State.pilClear p o s).fwMem = s.fwMem ∧ (State.pilClear p o s).ms = s.ms ∧
    (State.pilClear p o s).pricks = s.pricks ∧ (State.pilClear p o s).templates = s.templates ∧
    (State.pilClear p o s).jobs = s.jobs ∧ (State.pilClear p o s).order = s.order ∧
    (State.pilClear p o s).free = s.free := by
  have hF0 := @State.modPillow_frame
  have hF1 := @State.modBobbin_frame
  unfold State.pilClear; simp [hF0, hF1]

theorem State.pilPut_frame (p : Nat) (o : Nat) (v : Nat) (s : State) : (State.pilPut p o v s).now = s.now ∧
    (State.pilPut p o v s).pending = s.pending ∧ (State.pilPut p o v s).tb = s.tb ∧
    (State.pilPut p o v s).sheets = s.sheets ∧ (State.pilPut p o v s).units = s.units ∧
    (State.pilPut p o v s).pins = s.pins ∧ (State.pilPut p o v s).pk = s.pk ∧
    (State.pilPut p o v s).queues = s.queues ∧ (State.pilPut p o v s).latches = s.latches ∧
    (State.pilPut p o v s).errw = s.errw ∧ (State.pilPut p o v s).sdio = s.sdio ∧
    (State.pilPut p o v s).bulk = s.bulk ∧ (State.pilPut p o v s).mgmt = s.mgmt ∧
    (State.pilPut p o v s).power = s.power ∧ (State.pilPut p o v s).sec = s.sec ∧
    (State.pilPut p o v s).therm = s.therm ∧ (State.pilPut p o v s).streams = s.streams ∧
    (State.pilPut p o v s).services = s.services ∧ (State.pilPut p o v s).ptpPorts = s.ptpPorts ∧
    (State.pilPut p o v s).ptp = s.ptp ∧ (State.pilPut p o v s).chans = s.chans ∧
    (State.pilPut p o v s).seqs = s.seqs ∧ (State.pilPut p o v s).hc = s.hc ∧
    (State.pilPut p o v s).trim = s.trim ∧ (State.pilPut p o v s).bundles = s.bundles ∧
    (State.pilPut p o v s).slots = s.slots ∧ (State.pilPut p o v s).wt = s.wt ∧
    (State.pilPut p o v s).mem = s.mem ∧ (State.pilPut p o v s).fwMem = s.fwMem ∧
    (State.pilPut p o v s).ms = s.ms ∧ (State.pilPut p o v s).pricks = s.pricks ∧
    (State.pilPut p o v s).templates = s.templates ∧ (State.pilPut p o v s).jobs = s.jobs ∧
    (State.pilPut p o v s).order = s.order ∧ (State.pilPut p o v s).free = s.free := by
  have hF0 := @State.hostRefresh_frame
  have hF1 := @State.modPillow_frame
  have hF2 := @State.qcCommit_frame
  have hF3 := @State.modBobbin_frame
  unfold State.pilPut; dsimp only; (repeat' split) <;> simp [hF0, hF1, hF2, hF3]

/-! ## Registers -/

theorem State.regClear_frame (b : Nat) (o : Nat) (s : State) : (State.regClear b o s).now = s.now ∧
    (State.regClear b o s).pending = s.pending ∧ (State.regClear b o s).sheets = s.sheets ∧
    (State.regClear b o s).units = s.units ∧ (State.regClear b o s).latches = s.latches ∧
    (State.regClear b o s).errw = s.errw ∧ (State.regClear b o s).sdio = s.sdio ∧
    (State.regClear b o s).bulk = s.bulk ∧ (State.regClear b o s).power = s.power ∧
    (State.regClear b o s).ptpPorts = s.ptpPorts ∧ (State.regClear b o s).ptp = s.ptp ∧
    (State.regClear b o s).chans = s.chans ∧ (State.regClear b o s).bundles = s.bundles ∧
    (State.regClear b o s).slots = s.slots ∧ (State.regClear b o s).mem = s.mem ∧
    (State.regClear b o s).fwMem = s.fwMem ∧ (State.regClear b o s).pricks = s.pricks ∧
    (State.regClear b o s).templates = s.templates ∧ (State.regClear b o s).jobs = s.jobs ∧
    (State.regClear b o s).order = s.order ∧ (State.regClear b o s).free = s.free := by
  have hF0 := @State.tbClear_frame
  have hF1 := @State.pkClear_frame
  have hF2 := @State.hcClear_frame
  have hF3 := @State.trimClear_frame
  have hF4 := @State.netClear_frame
  have hF5 := @State.memClearReg_frame
  have hF6 := @State.sqClear_frame
  have hF7 := @State.secClear_frame
  have hF8 := @State.pilClear_frame
  unfold State.regClear; split <;> first | simp [hF0, hF1, hF2, hF3, hF4, hF5, hF6, hF7] | (cases blockPillow b <;> simp [hF8])

theorem State.regPut_frame (b : Nat) (o : Nat) (v : Nat) (s : State) : (State.regPut b o v s).now = s.now ∧
    (State.regPut b o v s).pending = s.pending ∧ (State.regPut b o v s).units = s.units ∧
    (State.regPut b o v s).bulk = s.bulk ∧ (State.regPut b o v s).streams = s.streams ∧
    (State.regPut b o v s).ptpPorts = s.ptpPorts ∧ (State.regPut b o v s).ptp = s.ptp ∧
    (State.regPut b o v s).chans = s.chans ∧ (State.regPut b o v s).seqs = s.seqs ∧
    (State.regPut b o v s).bundles = s.bundles ∧ (State.regPut b o v s).slots = s.slots ∧
    (State.regPut b o v s).fwMem = s.fwMem ∧ (State.regPut b o v s).pricks = s.pricks ∧
    (State.regPut b o v s).templates = s.templates ∧ (State.regPut b o v s).jobs = s.jobs ∧
    (State.regPut b o v s).order = s.order ∧ (State.regPut b o v s).free = s.free := by
  have hF0 := @State.tbPut_frame
  have hF1 := @State.pkPut_frame
  have hF2 := @State.hcPut_frame
  have hF3 := @State.trimPut_frame
  have hF4 := @State.netPut_frame
  have hF5 := @State.memPut_frame
  have hF6 := @State.sqPut_frame
  have hF7 := @State.secPut_frame
  have hF8 := @State.pilPut_frame
  unfold State.regPut; split <;> first | simp [hF0, hF1, hF2, hF3, hF4, hF5, hF6, hF7] | (cases blockPillow b <;> simp [hF8])

@[simp] theorem State.regPut_wf (b : Nat) (o : Nat) (v : Nat) (s : State) (hm : Memory.wf s.mem = true) :
    Memory.wf (State.regPut b o v s).mem = true := by
  have hF0 := @State.tbPut_frame
  have hF1 := @State.pkPut_frame
  have hF2 := @State.hcPut_frame
  have hF3 := @State.trimPut_frame
  have hF4 := @State.netPut_frame
  have hF5 := @State.memPut_frame
  have hF6 := @State.sqPut_frame
  have hF7 := @State.pilPut_frame
  unfold State.regPut; split <;> first | (simp [hF0, hF1, hF2, hF3, hF4, hF5, hF6, hm]; done) | (cases blockPillow b <;> simp [hF7, hm])

theorem State.readRegs_frame (b : Nat) (x0 : Nat) (x1 : Nat) (x2 : State) :
    (State.readRegs b x0 x1 x2).2.now = x2.now ∧ (State.readRegs b x0 x1 x2).2.pending = x2.pending ∧
    (State.readRegs b x0 x1 x2).2.sheets = x2.sheets ∧ (State.readRegs b x0 x1 x2).2.units = x2.units ∧
    (State.readRegs b x0 x1 x2).2.latches = x2.latches ∧ (State.readRegs b x0 x1 x2).2.errw = x2.errw ∧
    (State.readRegs b x0 x1 x2).2.sdio = x2.sdio ∧ (State.readRegs b x0 x1 x2).2.bulk = x2.bulk ∧
    (State.readRegs b x0 x1 x2).2.power = x2.power ∧ (State.readRegs b x0 x1 x2).2.ptpPorts = x2.ptpPorts ∧
    (State.readRegs b x0 x1 x2).2.ptp = x2.ptp ∧ (State.readRegs b x0 x1 x2).2.chans = x2.chans ∧
    (State.readRegs b x0 x1 x2).2.bundles = x2.bundles ∧ (State.readRegs b x0 x1 x2).2.slots = x2.slots ∧
    (State.readRegs b x0 x1 x2).2.mem = x2.mem ∧ (State.readRegs b x0 x1 x2).2.fwMem = x2.fwMem ∧
    (State.readRegs b x0 x1 x2).2.pricks = x2.pricks ∧
    (State.readRegs b x0 x1 x2).2.templates = x2.templates ∧ (State.readRegs b x0 x1 x2).2.jobs = x2.jobs ∧
    (State.readRegs b x0 x1 x2).2.order = x2.order ∧ (State.readRegs b x0 x1 x2).2.free = x2.free := by
  have hF0 := @State.regClear_frame
  induction x1 generalizing x0 x2 with
  | zero => simp [State.readRegs]
  | succ k ih => simp [hF0, State.readRegs, ih]

theorem State.writeRegs_frame (b : Nat) (x0 : Nat) (x1 : List (BitVec 32)) (x2 : State) :
    (State.writeRegs b x0 x1 x2).now = x2.now ∧ (State.writeRegs b x0 x1 x2).pending = x2.pending ∧
    (State.writeRegs b x0 x1 x2).units = x2.units ∧ (State.writeRegs b x0 x1 x2).bulk = x2.bulk ∧
    (State.writeRegs b x0 x1 x2).streams = x2.streams ∧
    (State.writeRegs b x0 x1 x2).ptpPorts = x2.ptpPorts ∧ (State.writeRegs b x0 x1 x2).ptp = x2.ptp ∧
    (State.writeRegs b x0 x1 x2).chans = x2.chans ∧ (State.writeRegs b x0 x1 x2).seqs = x2.seqs ∧
    (State.writeRegs b x0 x1 x2).bundles = x2.bundles ∧ (State.writeRegs b x0 x1 x2).slots = x2.slots ∧
    (State.writeRegs b x0 x1 x2).fwMem = x2.fwMem ∧ (State.writeRegs b x0 x1 x2).pricks = x2.pricks ∧
    (State.writeRegs b x0 x1 x2).templates = x2.templates ∧ (State.writeRegs b x0 x1 x2).jobs = x2.jobs ∧
    (State.writeRegs b x0 x1 x2).order = x2.order ∧ (State.writeRegs b x0 x1 x2).free = x2.free := by
  have hF0 := @State.regPut_frame
  induction x1 generalizing x0 x2 with
  | nil => simp [State.writeRegs]
  | cons k l ih => simp [hF0, State.writeRegs, ih]

@[simp] theorem State.writeRegs_wf (b : Nat) (x0 : Nat) (x1 : List (BitVec 32)) (x2 : State) (hm : Memory.wf x2.mem = true) :
    Memory.wf (State.writeRegs b x0 x1 x2).mem = true := by
  induction x1 generalizing x0 x2 with
  | nil => simpa [State.writeRegs] using hm
  | cons k l ih =>
    unfold State.writeRegs
    exact ih _ _ (by simp [hm])

theorem State.armAfter_frame (o : Nat) (vals : List (BitVec 32)) (s : State) :
    (State.armAfter o vals s).now = s.now ∧ (State.armAfter o vals s).pending = s.pending ∧
    (State.armAfter o vals s).tb = s.tb ∧ (State.armAfter o vals s).sheets = s.sheets ∧
    (State.armAfter o vals s).units = s.units ∧ (State.armAfter o vals s).pins = s.pins ∧
    (State.armAfter o vals s).pk = s.pk ∧ (State.armAfter o vals s).queues = s.queues ∧
    (State.armAfter o vals s).latches = s.latches ∧ (State.armAfter o vals s).errw = s.errw ∧
    (State.armAfter o vals s).sdio = s.sdio ∧ (State.armAfter o vals s).bulk = s.bulk ∧
    (State.armAfter o vals s).mgmt = s.mgmt ∧ (State.armAfter o vals s).power = s.power ∧
    (State.armAfter o vals s).therm = s.therm ∧ (State.armAfter o vals s).ports = s.ports ∧
    (State.armAfter o vals s).streams = s.streams ∧ (State.armAfter o vals s).services = s.services ∧
    (State.armAfter o vals s).ptpPorts = s.ptpPorts ∧ (State.armAfter o vals s).ptp = s.ptp ∧
    (State.armAfter o vals s).chans = s.chans ∧ (State.armAfter o vals s).seqs = s.seqs ∧
    (State.armAfter o vals s).hc = s.hc ∧ (State.armAfter o vals s).trim = s.trim ∧
    (State.armAfter o vals s).bundles = s.bundles ∧ (State.armAfter o vals s).slots = s.slots ∧
    (State.armAfter o vals s).wt = s.wt ∧ (State.armAfter o vals s).mem = s.mem ∧
    (State.armAfter o vals s).fwMem = s.fwMem ∧ (State.armAfter o vals s).ms = s.ms ∧
    (State.armAfter o vals s).pricks = s.pricks ∧ (State.armAfter o vals s).templates = s.templates ∧
    (State.armAfter o vals s).jobs = s.jobs ∧ (State.armAfter o vals s).order = s.order ∧
    (State.armAfter o vals s).pillows = s.pillows ∧ (State.armAfter o vals s).free = s.free := by
  have hF0 := @State.arm_frame
  have hF1 := @State.disarm_frame
  unfold State.armAfter; (repeat' split) <;> simp [hF0, hF1]

/-! ## Xbar -/

theorem State.tokenDone_frame (w : Work) (t : StagedTok) (acc : Tbl Int) (csum : Tbl Int) (leaves : Tbl Int) (s : State) :
    (State.tokenDone w t acc csum leaves s).now = s.now ∧
    (State.tokenDone w t acc csum leaves s).pending = s.pending ∧
    (State.tokenDone w t acc csum leaves s).tb = s.tb ∧
    (State.tokenDone w t acc csum leaves s).sheets = s.sheets ∧
    (State.tokenDone w t acc csum leaves s).units = s.units ∧
    (State.tokenDone w t acc csum leaves s).pins = s.pins ∧
    (State.tokenDone w t acc csum leaves s).pk = s.pk ∧
    (State.tokenDone w t acc csum leaves s).queues = s.queues ∧
    (State.tokenDone w t acc csum leaves s).latches = s.latches ∧
    (State.tokenDone w t acc csum leaves s).errw = s.errw ∧
    (State.tokenDone w t acc csum leaves s).sdio = s.sdio ∧
    (State.tokenDone w t acc csum leaves s).bulk = s.bulk ∧
    (State.tokenDone w t acc csum leaves s).mgmt = s.mgmt ∧
    (State.tokenDone w t acc csum leaves s).power = s.power ∧
    (State.tokenDone w t acc csum leaves s).sec = s.sec ∧
    (State.tokenDone w t acc csum leaves s).therm = s.therm ∧
    (State.tokenDone w t acc csum leaves s).ports = s.ports ∧
    (State.tokenDone w t acc csum leaves s).streams = s.streams ∧
    (State.tokenDone w t acc csum leaves s).services = s.services ∧
    (State.tokenDone w t acc csum leaves s).ptpPorts = s.ptpPorts ∧
    (State.tokenDone w t acc csum leaves s).ptp = s.ptp ∧
    (State.tokenDone w t acc csum leaves s).chans = s.chans ∧
    (State.tokenDone w t acc csum leaves s).seqs = s.seqs ∧
    (State.tokenDone w t acc csum leaves s).hc = s.hc ∧
    (State.tokenDone w t acc csum leaves s).trim = s.trim ∧
    (State.tokenDone w t acc csum leaves s).bundles = s.bundles ∧
    (State.tokenDone w t acc csum leaves s).slots = s.slots ∧
    (State.tokenDone w t acc csum leaves s).wt = s.wt ∧
    (State.tokenDone w t acc csum leaves s).mem = s.mem ∧
    (State.tokenDone w t acc csum leaves s).fwMem = s.fwMem ∧
    (State.tokenDone w t acc csum leaves s).ms = s.ms ∧
    (State.tokenDone w t acc csum leaves s).pricks = s.pricks ∧
    (State.tokenDone w t acc csum leaves s).templates = s.templates ∧
    (State.tokenDone w t acc csum leaves s).order = s.order ∧
    (State.tokenDone w t acc csum leaves s).free = s.free := by
  have hF0 := @State.setRun_frame
  have hF1 := @State.releaseAt_frame
  unfold State.tokenDone; simp [hF0, hF1]

theorem readLeaves_frame (w : Work) (n : Nat) (x0 : List Nat) (x1 : State) (h : (readLeaves w n x0 x1).isWait = false) :
    (readLeaves w n x0 x1).okState.now = x1.now ∧ (readLeaves w n x0 x1).okState.pending = x1.pending ∧
    (readLeaves w n x0 x1).okState.tb = x1.tb ∧ (readLeaves w n x0 x1).okState.sheets = x1.sheets ∧
    (readLeaves w n x0 x1).okState.units = x1.units ∧ (readLeaves w n x0 x1).okState.pins = x1.pins ∧
    (readLeaves w n x0 x1).okState.pk = x1.pk ∧ (readLeaves w n x0 x1).okState.errw = x1.errw ∧
    (readLeaves w n x0 x1).okState.bulk = x1.bulk ∧ (readLeaves w n x0 x1).okState.power = x1.power ∧
    (readLeaves w n x0 x1).okState.sec = x1.sec ∧ (readLeaves w n x0 x1).okState.therm = x1.therm ∧
    (readLeaves w n x0 x1).okState.ports = x1.ports ∧ (readLeaves w n x0 x1).okState.streams = x1.streams ∧
    (readLeaves w n x0 x1).okState.services = x1.services ∧
    (readLeaves w n x0 x1).okState.ptpPorts = x1.ptpPorts ∧ (readLeaves w n x0 x1).okState.ptp = x1.ptp ∧
    (readLeaves w n x0 x1).okState.chans = x1.chans ∧ (readLeaves w n x0 x1).okState.seqs = x1.seqs ∧
    (readLeaves w n x0 x1).okState.hc = x1.hc ∧ (readLeaves w n x0 x1).okState.trim = x1.trim ∧
    (readLeaves w n x0 x1).okState.bundles = x1.bundles ∧ (readLeaves w n x0 x1).okState.slots = x1.slots ∧
    (readLeaves w n x0 x1).okState.wt = x1.wt ∧ (readLeaves w n x0 x1).okState.mem = x1.mem ∧
    (readLeaves w n x0 x1).okState.fwMem = x1.fwMem ∧ (readLeaves w n x0 x1).okState.pricks = x1.pricks ∧
    (readLeaves w n x0 x1).okState.templates = x1.templates ∧
    (readLeaves w n x0 x1).okState.order = x1.order := by
  have hF0 := @State.readVa_frame
  induction x0 generalizing x1 with
  | nil => simp [readLeaves]
  | cons a l ih =>
    revert h
    unfold readLeaves
    (repeat' (first | split | dsimp only)) <;> (repeat (rename _ = Access.ok _ _ => hx; obtain ⟨hw, rfl⟩ := Access.ok_elim hx; clear hx)) <;> (intro h; simp [*])

theorem State.replayToken_frame (w : Work) (t : StagedTok) (s : State) (h : (State.replayToken w t s).isWait = false) :
    (State.replayToken w t s).okState.now = s.now ∧ (State.replayToken w t s).okState.pending = s.pending ∧
    (State.replayToken w t s).okState.tb = s.tb ∧ (State.replayToken w t s).okState.sheets = s.sheets ∧
    (State.replayToken w t s).okState.units = s.units ∧ (State.replayToken w t s).okState.pins = s.pins ∧
    (State.replayToken w t s).okState.pk = s.pk ∧ (State.replayToken w t s).okState.errw = s.errw ∧
    (State.replayToken w t s).okState.bulk = s.bulk ∧ (State.replayToken w t s).okState.power = s.power ∧
    (State.replayToken w t s).okState.sec = s.sec ∧ (State.replayToken w t s).okState.therm = s.therm ∧
    (State.replayToken w t s).okState.ports = s.ports ∧
    (State.replayToken w t s).okState.streams = s.streams ∧
    (State.replayToken w t s).okState.services = s.services ∧
    (State.replayToken w t s).okState.ptpPorts = s.ptpPorts ∧
    (State.replayToken w t s).okState.ptp = s.ptp ∧ (State.replayToken w t s).okState.chans = s.chans ∧
    (State.replayToken w t s).okState.seqs = s.seqs ∧ (State.replayToken w t s).okState.hc = s.hc ∧
    (State.replayToken w t s).okState.trim = s.trim ∧
    (State.replayToken w t s).okState.bundles = s.bundles ∧
    (State.replayToken w t s).okState.slots = s.slots ∧ (State.replayToken w t s).okState.wt = s.wt ∧
    (State.replayToken w t s).okState.mem = s.mem ∧ (State.replayToken w t s).okState.fwMem = s.fwMem ∧
    (State.replayToken w t s).okState.pricks = s.pricks ∧
    (State.replayToken w t s).okState.templates = s.templates ∧
    (State.replayToken w t s).okState.order = s.order := by
  have hF0 := @State.tokenDone_frame
  revert h
  unfold State.replayToken
  dsimp only
  generalize hqa : readLeaves w _ _ s = a
  have hka : a.isWait = false → (fun z : State => z.now = s.now ∧ z.pending = s.pending ∧ z.tb = s.tb ∧ z.sheets = s.sheets ∧ z.units = s.units ∧ z.pins = s.pins ∧ z.pk = s.pk ∧ z.errw = s.errw ∧ z.bulk = s.bulk ∧ z.power = s.power ∧ z.sec = s.sec ∧ z.therm = s.therm ∧ z.ports = s.ports ∧ z.streams = s.streams ∧ z.services = s.services ∧ z.ptpPorts = s.ptpPorts ∧ z.ptp = s.ptp ∧ z.chans = s.chans ∧ z.seqs = s.seqs ∧ z.hc = s.hc ∧ z.trim = s.trim ∧ z.bundles = s.bundles ∧ z.slots = s.slots ∧ z.wt = s.wt ∧ z.mem = s.mem ∧ z.fwMem = s.fwMem ∧ z.pricks = s.pricks ∧ z.templates = s.templates ∧ z.order = s.order) a.okState := by
    intro ha
    subst hqa
    exact readLeaves_frame _ _ _ _ ha
  cases a with
  | ok bt t =>
    have ht := hka rfl
    dsimp only [Access.okState_ok] at ht ⊢
    exact fun h => by simp [hF0, ht]
  | fault f t =>
    have ht := hka rfl
    dsimp only [Access.okState_fault] at ht ⊢
    exact fun _ => by simp [ht]
  | wait n l d => exact fun h => by cases h

theorem State.finishHead_frame (p : Nat) (s : State) : (State.finishHead p s).now = s.now ∧
    (State.finishHead p s).pending = s.pending ∧ (State.finishHead p s).tb = s.tb ∧
    (State.finishHead p s).sheets = s.sheets ∧ (State.finishHead p s).units = s.units ∧
    (State.finishHead p s).pins = s.pins ∧ (State.finishHead p s).pk = s.pk ∧
    (State.finishHead p s).errw = s.errw ∧ (State.finishHead p s).bulk = s.bulk ∧
    (State.finishHead p s).power = s.power ∧ (State.finishHead p s).sec = s.sec ∧
    (State.finishHead p s).therm = s.therm ∧ (State.finishHead p s).ports = s.ports ∧
    (State.finishHead p s).streams = s.streams ∧ (State.finishHead p s).services = s.services ∧
    (State.finishHead p s).ptpPorts = s.ptpPorts ∧ (State.finishHead p s).ptp = s.ptp ∧
    (State.finishHead p s).chans = s.chans ∧ (State.finishHead p s).seqs = s.seqs ∧
    (State.finishHead p s).hc = s.hc ∧ (State.finishHead p s).trim = s.trim ∧
    (State.finishHead p s).bundles = s.bundles ∧ (State.finishHead p s).slots = s.slots ∧
    (State.finishHead p s).wt = s.wt ∧ (State.finishHead p s).mem = s.mem ∧
    (State.finishHead p s).fwMem = s.fwMem ∧ (State.finishHead p s).pricks = s.pricks ∧
    (State.finishHead p s).templates = s.templates ∧ (State.finishHead p s).order = s.order := by
  have hF0 := @State.tokenDone_frame
  have hF1 := @State.replayToken_frame
  have hF2 := @State.unitFault_frame
  have hF3 := @State.unitWait_frame
  unfold State.finishHead; dsimp only; (repeat' split) <;> (repeat (rename _ = Access.ok _ _ => hx; obtain ⟨hw, rfl⟩ := Access.ok_elim hx; clear hx)) <;> (repeat (rename _ = Access.fault _ _ => hx; obtain ⟨hw, rfl⟩ := Access.fault_elim hx; clear hx)) <;> simp [*]

theorem State.xbarEnd_frame (p : Nat) (s : State) : (State.xbarEnd p s).now = s.now ∧
    (State.xbarEnd p s).pending = s.pending ∧ (State.xbarEnd p s).tb = s.tb ∧
    (State.xbarEnd p s).sheets = s.sheets ∧ (State.xbarEnd p s).units = s.units ∧
    (State.xbarEnd p s).errw = s.errw ∧ (State.xbarEnd p s).bulk = s.bulk ∧
    (State.xbarEnd p s).sec = s.sec ∧ (State.xbarEnd p s).therm = s.therm ∧
    (State.xbarEnd p s).streams = s.streams ∧ (State.xbarEnd p s).ptpPorts = s.ptpPorts ∧
    (State.xbarEnd p s).ptp = s.ptp ∧ (State.xbarEnd p s).chans = s.chans ∧
    (State.xbarEnd p s).seqs = s.seqs ∧ (State.xbarEnd p s).hc = s.hc ∧ (State.xbarEnd p s).trim = s.trim ∧
    (State.xbarEnd p s).bundles = s.bundles ∧ (State.xbarEnd p s).slots = s.slots ∧
    (State.xbarEnd p s).wt = s.wt ∧ (State.xbarEnd p s).fwMem = s.fwMem ∧
    (State.xbarEnd p s).pricks = s.pricks ∧ (State.xbarEnd p s).templates = s.templates ∧
    (State.xbarEnd p s).order = s.order := by
  have hF0 := @State.releaseE_frame
  have hF1 := @State.setRun_frame
  have hF2 := @State.boundary_frame
  unfold State.xbarEnd; dsimp only; (repeat' split) <;> simp [hF0, hF1, hF2]

@[simp] theorem State.xbarEnd_wf (p : Nat) (s : State) (hm : Memory.wf s.mem = true) :
    Memory.wf (State.xbarEnd p s).mem = true := by
  have hF0 := @State.releaseE_frame
  have hF1 := @State.setRun_frame
  unfold State.xbarEnd; dsimp only; (repeat' split) <;> simp [hF0, hF1, hm]

theorem State.countToken_frame (w : Work) (masked : Bool) (q : QDesc) (c : Conditioned) (s : State) :
    (State.countToken w masked q c s).now = s.now ∧ (State.countToken w masked q c s).pending = s.pending ∧
    (State.countToken w masked q c s).tb = s.tb ∧ (State.countToken w masked q c s).sheets = s.sheets ∧
    (State.countToken w masked q c s).units = s.units ∧ (State.countToken w masked q c s).pins = s.pins ∧
    (State.countToken w masked q c s).pk = s.pk ∧ (State.countToken w masked q c s).queues = s.queues ∧
    (State.countToken w masked q c s).latches = s.latches ∧
    (State.countToken w masked q c s).errw = s.errw ∧ (State.countToken w masked q c s).sdio = s.sdio ∧
    (State.countToken w masked q c s).bulk = s.bulk ∧ (State.countToken w masked q c s).mgmt = s.mgmt ∧
    (State.countToken w masked q c s).power = s.power ∧ (State.countToken w masked q c s).sec = s.sec ∧
    (State.countToken w masked q c s).therm = s.therm ∧ (State.countToken w masked q c s).ports = s.ports ∧
    (State.countToken w masked q c s).streams = s.streams ∧
    (State.countToken w masked q c s).services = s.services ∧
    (State.countToken w masked q c s).ptpPorts = s.ptpPorts ∧
    (State.countToken w masked q c s).ptp = s.ptp ∧ (State.countToken w masked q c s).chans = s.chans ∧
    (State.countToken w masked q c s).seqs = s.seqs ∧ (State.countToken w masked q c s).hc = s.hc ∧
    (State.countToken w masked q c s).trim = s.trim ∧
    (State.countToken w masked q c s).bundles = s.bundles ∧
    (State.countToken w masked q c s).slots = s.slots ∧ (State.countToken w masked q c s).wt = s.wt ∧
    (State.countToken w masked q c s).mem = s.mem ∧ (State.countToken w masked q c s).fwMem = s.fwMem ∧
    (State.countToken w masked q c s).ms = s.ms ∧ (State.countToken w masked q c s).pricks = s.pricks ∧
    (State.countToken w masked q c s).templates = s.templates ∧
    (State.countToken w masked q c s).order = s.order ∧
    (State.countToken w masked q c s).free = s.free := by
  have hF0 := @State.modPillow_frame
  have hF1 := @State.modJob_frame
  unfold State.countToken; simp [hF0, hF1]

theorem State.stageToken_frame (w : Work) (pos : List Nat × Nat) (raw : Bytes) (s : State) :
    (State.stageToken w pos raw s).now = s.now ∧ (State.stageToken w pos raw s).pending = s.pending ∧
    (State.stageToken w pos raw s).tb = s.tb ∧ (State.stageToken w pos raw s).sheets = s.sheets ∧
    (State.stageToken w pos raw s).units = s.units ∧ (State.stageToken w pos raw s).pins = s.pins ∧
    (State.stageToken w pos raw s).pk = s.pk ∧ (State.stageToken w pos raw s).queues = s.queues ∧
    (State.stageToken w pos raw s).latches = s.latches ∧ (State.stageToken w pos raw s).errw = s.errw ∧
    (State.stageToken w pos raw s).sdio = s.sdio ∧ (State.stageToken w pos raw s).bulk = s.bulk ∧
    (State.stageToken w pos raw s).mgmt = s.mgmt ∧ (State.stageToken w pos raw s).power = s.power ∧
    (State.stageToken w pos raw s).sec = s.sec ∧ (State.stageToken w pos raw s).therm = s.therm ∧
    (State.stageToken w pos raw s).ports = s.ports ∧ (State.stageToken w pos raw s).streams = s.streams ∧
    (State.stageToken w pos raw s).services = s.services ∧
    (State.stageToken w pos raw s).ptpPorts = s.ptpPorts ∧ (State.stageToken w pos raw s).ptp = s.ptp ∧
    (State.stageToken w pos raw s).chans = s.chans ∧ (State.stageToken w pos raw s).seqs = s.seqs ∧
    (State.stageToken w pos raw s).hc = s.hc ∧ (State.stageToken w pos raw s).trim = s.trim ∧
    (State.stageToken w pos raw s).bundles = s.bundles ∧ (State.stageToken w pos raw s).slots = s.slots ∧
    (State.stageToken w pos raw s).wt = s.wt ∧ (State.stageToken w pos raw s).mem = s.mem ∧
    (State.stageToken w pos raw s).fwMem = s.fwMem ∧ (State.stageToken w pos raw s).ms = s.ms ∧
    (State.stageToken w pos raw s).pricks = s.pricks ∧
    (State.stageToken w pos raw s).templates = s.templates ∧
    (State.stageToken w pos raw s).order = s.order := by
  have hF0 := @State.modRun_frame
  have hF1 := @State.countToken_frame
  have hF2 := @State.draw_frame
  have hF3 := @State.stageCodes_frame
  unfold State.stageToken; simp [hF0, hF1, hF2, hF3]

theorem State.tokenFault_frame (p : Nat) (w : Work) (f : FaultRec) (after : State) (before : State) (h : after.now = before.now ∧ after.pending = before.pending ∧ after.tb = before.tb ∧ after.sheets = before.sheets ∧ after.units = before.units ∧ after.errw = before.errw ∧ after.bulk = before.bulk ∧ after.sec = before.sec ∧ after.therm = before.therm ∧ after.streams = before.streams ∧ after.ptpPorts = before.ptpPorts ∧ after.ptp = before.ptp ∧ after.chans = before.chans ∧ after.seqs = before.seqs ∧ after.hc = before.hc ∧ after.trim = before.trim ∧ after.bundles = before.bundles ∧ after.slots = before.slots ∧ after.wt = before.wt ∧ after.fwMem = before.fwMem ∧ after.pricks = before.pricks ∧ after.templates = before.templates ∧ after.order = before.order) :
    (State.tokenFault p w f after before).now = before.now ∧
    (State.tokenFault p w f after before).pending = before.pending ∧
    (State.tokenFault p w f after before).tb = before.tb ∧
    (State.tokenFault p w f after before).sheets = before.sheets ∧
    (State.tokenFault p w f after before).units = before.units ∧
    (State.tokenFault p w f after before).errw = before.errw ∧
    (State.tokenFault p w f after before).bulk = before.bulk ∧
    (State.tokenFault p w f after before).sec = before.sec ∧
    (State.tokenFault p w f after before).therm = before.therm ∧
    (State.tokenFault p w f after before).streams = before.streams ∧
    (State.tokenFault p w f after before).ptpPorts = before.ptpPorts ∧
    (State.tokenFault p w f after before).ptp = before.ptp ∧
    (State.tokenFault p w f after before).chans = before.chans ∧
    (State.tokenFault p w f after before).seqs = before.seqs ∧
    (State.tokenFault p w f after before).hc = before.hc ∧
    (State.tokenFault p w f after before).trim = before.trim ∧
    (State.tokenFault p w f after before).bundles = before.bundles ∧
    (State.tokenFault p w f after before).slots = before.slots ∧
    (State.tokenFault p w f after before).wt = before.wt ∧
    (State.tokenFault p w f after before).fwMem = before.fwMem ∧
    (State.tokenFault p w f after before).pricks = before.pricks ∧
    (State.tokenFault p w f after before).templates = before.templates ∧
    (State.tokenFault p w f after before).order = before.order := by
  have hF0 := @State.settlePillows_frame
  have hF1 := @State.unitFault_frame
  unfold State.tokenFault
  split <;> simp [hF0, hF1, h]

@[simp] theorem State.tokenFault_wf (p : Nat) (w : Work) (f : FaultRec) (after : State) (before : State) (ha : Memory.wf after.mem = true) (hm : Memory.wf before.mem = true) :
    Memory.wf (State.tokenFault p w f after before).mem = true := by
  have hF1 := @State.unitFault_frame
  unfold State.tokenFault
  split <;> simp [hF1, ha, hm]

theorem State.conditionOne_frame (p : Nat) (w : Work) (pos : List Nat × Nat) (s : State) :
    (State.conditionOne p w pos s).now = s.now ∧ (State.conditionOne p w pos s).pending = s.pending ∧
    (State.conditionOne p w pos s).tb = s.tb ∧ (State.conditionOne p w pos s).sheets = s.sheets ∧
    (State.conditionOne p w pos s).units = s.units ∧ (State.conditionOne p w pos s).errw = s.errw ∧
    (State.conditionOne p w pos s).bulk = s.bulk ∧ (State.conditionOne p w pos s).sec = s.sec ∧
    (State.conditionOne p w pos s).therm = s.therm ∧ (State.conditionOne p w pos s).streams = s.streams ∧
    (State.conditionOne p w pos s).ptpPorts = s.ptpPorts ∧ (State.conditionOne p w pos s).ptp = s.ptp ∧
    (State.conditionOne p w pos s).chans = s.chans ∧ (State.conditionOne p w pos s).seqs = s.seqs ∧
    (State.conditionOne p w pos s).hc = s.hc ∧ (State.conditionOne p w pos s).trim = s.trim ∧
    (State.conditionOne p w pos s).bundles = s.bundles ∧ (State.conditionOne p w pos s).slots = s.slots ∧
    (State.conditionOne p w pos s).wt = s.wt ∧ (State.conditionOne p w pos s).fwMem = s.fwMem ∧
    (State.conditionOne p w pos s).pricks = s.pricks ∧
    (State.conditionOne p w pos s).templates = s.templates ∧
    (State.conditionOne p w pos s).order = s.order := by
  have hF0 := @State.readToken_frame
  have hF1 := @State.unitWait_frame
  have hF2 := @State.settlePillows_frame
  have hF3 := @State.boundary_frame
  have hF4 := @State.finishHead_frame
  have hF5 := @State.stageToken_frame
  have hF6 := @State.tokenFault_frame
  unfold State.conditionOne; (repeat' split) <;> (repeat (rename _ = Access.ok _ _ => hx; obtain ⟨hw, rfl⟩ := Access.ok_elim hx; clear hx)) <;> (repeat (rename _ = Access.fault _ _ => hx; obtain ⟨hw, rfl⟩ := Access.fault_elim hx; clear hx)) <;> simp [*]

@[simp] theorem State.conditionOne_wf (p : Nat) (w : Work) (pos : List Nat × Nat) (s : State) (hm : Memory.wf s.mem = true) :
    Memory.wf (State.conditionOne p w pos s).mem = true := by
  have hF0 := @State.readToken_frame
  have hF1 := @State.unitWait_frame
  have hF2 := @State.finishHead_frame
  have hF3 := @State.stageToken_frame
  unfold State.conditionOne; (repeat' split) <;> (repeat (rename _ = Access.ok _ _ => hx; obtain ⟨hw, rfl⟩ := Access.ok_elim hx; clear hx)) <;> (repeat (rename _ = Access.fault _ _ => hx; obtain ⟨hw, rfl⟩ := Access.fault_elim hx; clear hx)) <;> simp [*]

theorem State.passBobbin_frame (w : Work) (t : StagedTok) (waves : Nat) (noise : List (Nat × SparseInt)) (d : Drive) (a : PassSum) (s : State) :
    (State.passBobbin w t waves noise d a s).2.now = s.now ∧
    (State.passBobbin w t waves noise d a s).2.pending = s.pending ∧
    (State.passBobbin w t waves noise d a s).2.tb = s.tb ∧
    (State.passBobbin w t waves noise d a s).2.sheets = s.sheets ∧
    (State.passBobbin w t waves noise d a s).2.units = s.units ∧
    (State.passBobbin w t waves noise d a s).2.pins = s.pins ∧
    (State.passBobbin w t waves noise d a s).2.pk = s.pk ∧
    (State.passBobbin w t waves noise d a s).2.queues = s.queues ∧
    (State.passBobbin w t waves noise d a s).2.latches = s.latches ∧
    (State.passBobbin w t waves noise d a s).2.errw = s.errw ∧
    (State.passBobbin w t waves noise d a s).2.sdio = s.sdio ∧
    (State.passBobbin w t waves noise d a s).2.bulk = s.bulk ∧
    (State.passBobbin w t waves noise d a s).2.mgmt = s.mgmt ∧
    (State.passBobbin w t waves noise d a s).2.power = s.power ∧
    (State.passBobbin w t waves noise d a s).2.sec = s.sec ∧
    (State.passBobbin w t waves noise d a s).2.therm = s.therm ∧
    (State.passBobbin w t waves noise d a s).2.ports = s.ports ∧
    (State.passBobbin w t waves noise d a s).2.streams = s.streams ∧
    (State.passBobbin w t waves noise d a s).2.services = s.services ∧
    (State.passBobbin w t waves noise d a s).2.ptpPorts = s.ptpPorts ∧
    (State.passBobbin w t waves noise d a s).2.ptp = s.ptp ∧
    (State.passBobbin w t waves noise d a s).2.chans = s.chans ∧
    (State.passBobbin w t waves noise d a s).2.seqs = s.seqs ∧
    (State.passBobbin w t waves noise d a s).2.hc = s.hc ∧
    (State.passBobbin w t waves noise d a s).2.trim = s.trim ∧
    (State.passBobbin w t waves noise d a s).2.bundles = s.bundles ∧
    (State.passBobbin w t waves noise d a s).2.slots = s.slots ∧
    (State.passBobbin w t waves noise d a s).2.wt = s.wt ∧
    (State.passBobbin w t waves noise d a s).2.mem = s.mem ∧
    (State.passBobbin w t waves noise d a s).2.fwMem = s.fwMem ∧
    (State.passBobbin w t waves noise d a s).2.ms = s.ms ∧
    (State.passBobbin w t waves noise d a s).2.pricks = s.pricks ∧
    (State.passBobbin w t waves noise d a s).2.templates = s.templates ∧
    (State.passBobbin w t waves noise d a s).2.order = s.order ∧
    (State.passBobbin w t waves noise d a s).2.free = s.free := by
  have hF0 := @State.swapIn_frame
  have hF1 := @State.modJob_frame
  have hF2 := @State.modPillow_frame
  have hF3 := @State.setBobbin_frame
  unfold State.passBobbin; simp [hF0, hF1, hF2, hF3]

theorem State.passAll_frame (w : Work) (t : StagedTok) (waves : Nat) (noise : List (Nat × SparseInt)) (x0 : List Drive) (x1 : PassSum) (x2 : State) :
    (State.passAll w t waves noise x0 x1 x2).2.now = x2.now ∧
    (State.passAll w t waves noise x0 x1 x2).2.pending = x2.pending ∧
    (State.passAll w t waves noise x0 x1 x2).2.tb = x2.tb ∧
    (State.passAll w t waves noise x0 x1 x2).2.sheets = x2.sheets ∧
    (State.passAll w t waves noise x0 x1 x2).2.units = x2.units ∧
    (State.passAll w t waves noise x0 x1 x2).2.pins = x2.pins ∧
    (State.passAll w t waves noise x0 x1 x2).2.pk = x2.pk ∧
    (State.passAll w t waves noise x0 x1 x2).2.queues = x2.queues ∧
    (State.passAll w t waves noise x0 x1 x2).2.latches = x2.latches ∧
    (State.passAll w t waves noise x0 x1 x2).2.errw = x2.errw ∧
    (State.passAll w t waves noise x0 x1 x2).2.sdio = x2.sdio ∧
    (State.passAll w t waves noise x0 x1 x2).2.bulk = x2.bulk ∧
    (State.passAll w t waves noise x0 x1 x2).2.mgmt = x2.mgmt ∧
    (State.passAll w t waves noise x0 x1 x2).2.power = x2.power ∧
    (State.passAll w t waves noise x0 x1 x2).2.sec = x2.sec ∧
    (State.passAll w t waves noise x0 x1 x2).2.therm = x2.therm ∧
    (State.passAll w t waves noise x0 x1 x2).2.ports = x2.ports ∧
    (State.passAll w t waves noise x0 x1 x2).2.streams = x2.streams ∧
    (State.passAll w t waves noise x0 x1 x2).2.services = x2.services ∧
    (State.passAll w t waves noise x0 x1 x2).2.ptpPorts = x2.ptpPorts ∧
    (State.passAll w t waves noise x0 x1 x2).2.ptp = x2.ptp ∧
    (State.passAll w t waves noise x0 x1 x2).2.chans = x2.chans ∧
    (State.passAll w t waves noise x0 x1 x2).2.seqs = x2.seqs ∧
    (State.passAll w t waves noise x0 x1 x2).2.hc = x2.hc ∧
    (State.passAll w t waves noise x0 x1 x2).2.trim = x2.trim ∧
    (State.passAll w t waves noise x0 x1 x2).2.bundles = x2.bundles ∧
    (State.passAll w t waves noise x0 x1 x2).2.slots = x2.slots ∧
    (State.passAll w t waves noise x0 x1 x2).2.wt = x2.wt ∧
    (State.passAll w t waves noise x0 x1 x2).2.mem = x2.mem ∧
    (State.passAll w t waves noise x0 x1 x2).2.fwMem = x2.fwMem ∧
    (State.passAll w t waves noise x0 x1 x2).2.ms = x2.ms ∧
    (State.passAll w t waves noise x0 x1 x2).2.pricks = x2.pricks ∧
    (State.passAll w t waves noise x0 x1 x2).2.templates = x2.templates ∧
    (State.passAll w t waves noise x0 x1 x2).2.order = x2.order ∧
    (State.passAll w t waves noise x0 x1 x2).2.free = x2.free := by
  have hF0 := @State.passBobbin_frame
  induction x0 generalizing x1 x2 <;> simp_all [State.passAll]

theorem State.meetPass_frame (w : Work) (t : StagedTok) (waves : Nat) (ds : List Drive) (s : State) :
    (State.meetPass w t waves ds s).now = s.now ∧ (State.meetPass w t waves ds s).pending = s.pending ∧
    (State.meetPass w t waves ds s).tb = s.tb ∧ (State.meetPass w t waves ds s).sheets = s.sheets ∧
    (State.meetPass w t waves ds s).units = s.units ∧ (State.meetPass w t waves ds s).pins = s.pins ∧
    (State.meetPass w t waves ds s).pk = s.pk ∧ (State.meetPass w t waves ds s).queues = s.queues ∧
    (State.meetPass w t waves ds s).latches = s.latches ∧ (State.meetPass w t waves ds s).errw = s.errw ∧
    (State.meetPass w t waves ds s).sdio = s.sdio ∧ (State.meetPass w t waves ds s).bulk = s.bulk ∧
    (State.meetPass w t waves ds s).mgmt = s.mgmt ∧ (State.meetPass w t waves ds s).power = s.power ∧
    (State.meetPass w t waves ds s).sec = s.sec ∧ (State.meetPass w t waves ds s).therm = s.therm ∧
    (State.meetPass w t waves ds s).ports = s.ports ∧ (State.meetPass w t waves ds s).streams = s.streams ∧
    (State.meetPass w t waves ds s).services = s.services ∧
    (State.meetPass w t waves ds s).ptpPorts = s.ptpPorts ∧ (State.meetPass w t waves ds s).ptp = s.ptp ∧
    (State.meetPass w t waves ds s).chans = s.chans ∧ (State.meetPass w t waves ds s).seqs = s.seqs ∧
    (State.meetPass w t waves ds s).hc = s.hc ∧ (State.meetPass w t waves ds s).trim = s.trim ∧
    (State.meetPass w t waves ds s).bundles = s.bundles ∧ (State.meetPass w t waves ds s).slots = s.slots ∧
    (State.meetPass w t waves ds s).wt = s.wt ∧ (State.meetPass w t waves ds s).mem = s.mem ∧
    (State.meetPass w t waves ds s).fwMem = s.fwMem ∧ (State.meetPass w t waves ds s).ms = s.ms ∧
    (State.meetPass w t waves ds s).pricks = s.pricks ∧
    (State.meetPass w t waves ds s).templates = s.templates ∧
    (State.meetPass w t waves ds s).jobs = s.jobs ∧ (State.meetPass w t waves ds s).order = s.order ∧
    (State.meetPass w t waves ds s).free = s.free := by
  have hF0 := @State.meetStaging_frame
  unfold State.meetPass; simp [hF0]

theorem State.passNext_frame (w : Work) (t : StagedTok) (waves : Nat) (a : PassSum) (s : State) :
    (State.passNext w t waves a s).now = s.now ∧ (State.passNext w t waves a s).pending = s.pending ∧
    (State.passNext w t waves a s).tb = s.tb ∧ (State.passNext w t waves a s).sheets = s.sheets ∧
    (State.passNext w t waves a s).units = s.units ∧ (State.passNext w t waves a s).pins = s.pins ∧
    (State.passNext w t waves a s).pk = s.pk ∧ (State.passNext w t waves a s).queues = s.queues ∧
    (State.passNext w t waves a s).latches = s.latches ∧ (State.passNext w t waves a s).errw = s.errw ∧
    (State.passNext w t waves a s).sdio = s.sdio ∧ (State.passNext w t waves a s).bulk = s.bulk ∧
    (State.passNext w t waves a s).mgmt = s.mgmt ∧ (State.passNext w t waves a s).power = s.power ∧
    (State.passNext w t waves a s).sec = s.sec ∧ (State.passNext w t waves a s).therm = s.therm ∧
    (State.passNext w t waves a s).ports = s.ports ∧ (State.passNext w t waves a s).streams = s.streams ∧
    (State.passNext w t waves a s).services = s.services ∧
    (State.passNext w t waves a s).ptpPorts = s.ptpPorts ∧ (State.passNext w t waves a s).ptp = s.ptp ∧
    (State.passNext w t waves a s).chans = s.chans ∧ (State.passNext w t waves a s).seqs = s.seqs ∧
    (State.passNext w t waves a s).hc = s.hc ∧ (State.passNext w t waves a s).trim = s.trim ∧
    (State.passNext w t waves a s).bundles = s.bundles ∧ (State.passNext w t waves a s).slots = s.slots ∧
    (State.passNext w t waves a s).wt = s.wt ∧ (State.passNext w t waves a s).mem = s.mem ∧
    (State.passNext w t waves a s).fwMem = s.fwMem ∧ (State.passNext w t waves a s).ms = s.ms ∧
    (State.passNext w t waves a s).pricks = s.pricks ∧
    (State.passNext w t waves a s).templates = s.templates ∧
    (State.passNext w t waves a s).order = s.order ∧ (State.passNext w t waves a s).free = s.free := by
  have hF0 := @State.setRun_frame
  have hF1 := @State.tokenDone_frame
  unfold State.passNext; simp [hF0, hF1]

theorem State.passStep_frame (w : Work) (t : StagedTok) (waves : Nat) (ds : List Drive) (noise : List (Nat × SparseInt)) (s : State) :
    (State.passStep w t waves ds noise s).2.now = s.now ∧
    (State.passStep w t waves ds noise s).2.pending = s.pending ∧
    (State.passStep w t waves ds noise s).2.tb = s.tb ∧
    (State.passStep w t waves ds noise s).2.sheets = s.sheets ∧
    (State.passStep w t waves ds noise s).2.units = s.units ∧
    (State.passStep w t waves ds noise s).2.pins = s.pins ∧
    (State.passStep w t waves ds noise s).2.pk = s.pk ∧
    (State.passStep w t waves ds noise s).2.queues = s.queues ∧
    (State.passStep w t waves ds noise s).2.latches = s.latches ∧
    (State.passStep w t waves ds noise s).2.errw = s.errw ∧
    (State.passStep w t waves ds noise s).2.sdio = s.sdio ∧
    (State.passStep w t waves ds noise s).2.bulk = s.bulk ∧
    (State.passStep w t waves ds noise s).2.mgmt = s.mgmt ∧
    (State.passStep w t waves ds noise s).2.power = s.power ∧
    (State.passStep w t waves ds noise s).2.sec = s.sec ∧
    (State.passStep w t waves ds noise s).2.therm = s.therm ∧
    (State.passStep w t waves ds noise s).2.ports = s.ports ∧
    (State.passStep w t waves ds noise s).2.streams = s.streams ∧
    (State.passStep w t waves ds noise s).2.services = s.services ∧
    (State.passStep w t waves ds noise s).2.ptpPorts = s.ptpPorts ∧
    (State.passStep w t waves ds noise s).2.ptp = s.ptp ∧
    (State.passStep w t waves ds noise s).2.chans = s.chans ∧
    (State.passStep w t waves ds noise s).2.seqs = s.seqs ∧
    (State.passStep w t waves ds noise s).2.hc = s.hc ∧
    (State.passStep w t waves ds noise s).2.trim = s.trim ∧
    (State.passStep w t waves ds noise s).2.bundles = s.bundles ∧
    (State.passStep w t waves ds noise s).2.slots = s.slots ∧
    (State.passStep w t waves ds noise s).2.wt = s.wt ∧
    (State.passStep w t waves ds noise s).2.mem = s.mem ∧
    (State.passStep w t waves ds noise s).2.fwMem = s.fwMem ∧
    (State.passStep w t waves ds noise s).2.ms = s.ms ∧
    (State.passStep w t waves ds noise s).2.pricks = s.pricks ∧
    (State.passStep w t waves ds noise s).2.templates = s.templates ∧
    (State.passStep w t waves ds noise s).2.order = s.order ∧
    (State.passStep w t waves ds noise s).2.free = s.free := by
  have hF0 := @State.passNext_frame
  have hF1 := @State.modPillow_frame
  have hF2 := @State.modJob_frame
  have hF3 := @State.passAll_frame
  have hF4 := @State.setRun_frame
  unfold State.passStep; simp [hF0, hF1, hF2, hF3, hF4]

theorem State.failBobbins_frame (p : Nat) (x0 : List Nat) (x1 : List Nat × State) :
    (State.failBobbins p x0 x1).2.now = x1.2.now ∧ (State.failBobbins p x0 x1).2.pending = x1.2.pending ∧
    (State.failBobbins p x0 x1).2.tb = x1.2.tb ∧ (State.failBobbins p x0 x1).2.sheets = x1.2.sheets ∧
    (State.failBobbins p x0 x1).2.units = x1.2.units ∧ (State.failBobbins p x0 x1).2.errw = x1.2.errw ∧
    (State.failBobbins p x0 x1).2.bulk = x1.2.bulk ∧ (State.failBobbins p x0 x1).2.sec = x1.2.sec ∧
    (State.failBobbins p x0 x1).2.therm = x1.2.therm ∧
    (State.failBobbins p x0 x1).2.streams = x1.2.streams ∧
    (State.failBobbins p x0 x1).2.ptpPorts = x1.2.ptpPorts ∧ (State.failBobbins p x0 x1).2.ptp = x1.2.ptp ∧
    (State.failBobbins p x0 x1).2.chans = x1.2.chans ∧ (State.failBobbins p x0 x1).2.seqs = x1.2.seqs ∧
    (State.failBobbins p x0 x1).2.hc = x1.2.hc ∧ (State.failBobbins p x0 x1).2.trim = x1.2.trim ∧
    (State.failBobbins p x0 x1).2.bundles = x1.2.bundles ∧
    (State.failBobbins p x0 x1).2.slots = x1.2.slots ∧ (State.failBobbins p x0 x1).2.wt = x1.2.wt ∧
    (State.failBobbins p x0 x1).2.fwMem = x1.2.fwMem ∧ (State.failBobbins p x0 x1).2.pricks = x1.2.pricks ∧
    (State.failBobbins p x0 x1).2.templates = x1.2.templates ∧
    (State.failBobbins p x0 x1).2.order = x1.2.order := by
  have hF0 := @State.bobbinFail_frame
  induction x0 generalizing x1 <;> simp_all [State.failBobbins]

@[simp] theorem State.failBobbins_wf (p : Nat) (x0 : List Nat) (x1 : List Nat × State) (hm : Memory.wf x1.2.mem = true) :
    Memory.wf (State.failBobbins p x0 x1).2.mem = true := by
  induction x0 generalizing x1 hm <;> simp_all [State.failBobbins]

theorem State.passDone_frame (p : Nat) (w : Work) (k : StagedTok) (waves : Nat) (ds : List Drive) (noise : List (Nat × SparseInt)) (s : State) :
    (State.passDone p w k waves ds noise s).now = s.now ∧
    (State.passDone p w k waves ds noise s).pending = s.pending ∧
    (State.passDone p w k waves ds noise s).tb = s.tb ∧
    (State.passDone p w k waves ds noise s).sheets = s.sheets ∧
    (State.passDone p w k waves ds noise s).units = s.units ∧
    (State.passDone p w k waves ds noise s).errw = s.errw ∧
    (State.passDone p w k waves ds noise s).bulk = s.bulk ∧
    (State.passDone p w k waves ds noise s).sec = s.sec ∧
    (State.passDone p w k waves ds noise s).therm = s.therm ∧
    (State.passDone p w k waves ds noise s).streams = s.streams ∧
    (State.passDone p w k waves ds noise s).ptpPorts = s.ptpPorts ∧
    (State.passDone p w k waves ds noise s).ptp = s.ptp ∧
    (State.passDone p w k waves ds noise s).chans = s.chans ∧
    (State.passDone p w k waves ds noise s).seqs = s.seqs ∧
    (State.passDone p w k waves ds noise s).hc = s.hc ∧
    (State.passDone p w k waves ds noise s).trim = s.trim ∧
    (State.passDone p w k waves ds noise s).bundles = s.bundles ∧
    (State.passDone p w k waves ds noise s).slots = s.slots ∧
    (State.passDone p w k waves ds noise s).wt = s.wt ∧
    (State.passDone p w k waves ds noise s).fwMem = s.fwMem ∧
    (State.passDone p w k waves ds noise s).pricks = s.pricks ∧
    (State.passDone p w k waves ds noise s).templates = s.templates ∧
    (State.passDone p w k waves ds noise s).order = s.order := by
  have hF0 := @State.boundary_frame
  have hF1 := @State.finishHead_frame
  have hF2 := @State.passStep_frame
  have hF3 := @State.settlePillows_frame
  have hF4 := @State.failBobbins_frame
  unfold State.passDone; simp [hF0, hF1, hF2, hF3, hF4]

@[simp] theorem State.passDone_wf (p : Nat) (w : Work) (k : StagedTok) (waves : Nat) (ds : List Drive) (noise : List (Nat × SparseInt)) (s : State) (hm : Memory.wf s.mem = true) :
    Memory.wf (State.passDone p w k waves ds noise s).mem = true := by
  have hF0 := @State.finishHead_frame
  have hF1 := @State.passStep_frame
  unfold State.passDone
  dsimp only
  have h1 : Memory.wf (State.finishHead p (State.passStep w k waves ds noise s).2).mem = true := by simp [hF0, hF1, hm]
  split
  · simp [hF0, hF1, hm]
  · have h2 := State.failBobbins_wf p (State.passStep w k waves ds noise s).1 ([], State.finishHead p (State.passStep w k waves ds noise s).2) h1
    simp [h2]

theorem State.vectorDone_frame (p : Nat) (w : Work) (v : EpiVec) (rest : List EpiVec) (s : State) :
    (State.vectorDone p w v rest s).now = s.now ∧ (State.vectorDone p w v rest s).pending = s.pending ∧
    (State.vectorDone p w v rest s).tb = s.tb ∧ (State.vectorDone p w v rest s).sheets = s.sheets ∧
    (State.vectorDone p w v rest s).units = s.units ∧ (State.vectorDone p w v rest s).errw = s.errw ∧
    (State.vectorDone p w v rest s).bulk = s.bulk ∧ (State.vectorDone p w v rest s).sec = s.sec ∧
    (State.vectorDone p w v rest s).therm = s.therm ∧ (State.vectorDone p w v rest s).streams = s.streams ∧
    (State.vectorDone p w v rest s).ptpPorts = s.ptpPorts ∧ (State.vectorDone p w v rest s).ptp = s.ptp ∧
    (State.vectorDone p w v rest s).chans = s.chans ∧ (State.vectorDone p w v rest s).seqs = s.seqs ∧
    (State.vectorDone p w v rest s).hc = s.hc ∧ (State.vectorDone p w v rest s).trim = s.trim ∧
    (State.vectorDone p w v rest s).bundles = s.bundles ∧ (State.vectorDone p w v rest s).slots = s.slots ∧
    (State.vectorDone p w v rest s).wt = s.wt ∧ (State.vectorDone p w v rest s).fwMem = s.fwMem ∧
    (State.vectorDone p w v rest s).pricks = s.pricks ∧
    (State.vectorDone p w v rest s).templates = s.templates ∧
    (State.vectorDone p w v rest s).order = s.order := by
  have hF0 := @State.landAt_frame
  have hF1 := @State.modRun_frame
  have hF2 := @State.settlePillows_frame
  have hF3 := @State.boundary_frame
  have hF4 := @State.finishHead_frame
  have hF5 := @State.xbarEnd_frame
  unfold State.vectorDone; simp [hF0, hF1, hF2, hF3, hF4, hF5]

@[simp] theorem State.vectorDone_wf (p : Nat) (w : Work) (v : EpiVec) (rest : List EpiVec) (s : State) (hm : Memory.wf s.mem = true) :
    Memory.wf (State.vectorDone p w v rest s).mem = true := by
  have hF0 := @State.finishHead_frame
  have hF1 := @State.modRun_frame
  have hF2 := @State.landAt_frame
  have hF3 := @State.boundary_frame
  have hF4 := @State.xbarEnd_frame
  unfold State.vectorDone
  dsimp only
  split <;> (refine State.settlePillows_wf _ _ ?_; simp [hF0, hF1, hF2, hF3, hF4, hm])

theorem State.writeOldest_frame (p : Nat) (w : Work) (v : EpiVec) (rest : List EpiVec) (s : State) :
    (State.writeOldest p w v rest s).now = s.now ∧ (State.writeOldest p w v rest s).pending = s.pending ∧
    (State.writeOldest p w v rest s).tb = s.tb ∧ (State.writeOldest p w v rest s).sheets = s.sheets ∧
    (State.writeOldest p w v rest s).units = s.units ∧ (State.writeOldest p w v rest s).errw = s.errw ∧
    (State.writeOldest p w v rest s).bulk = s.bulk ∧ (State.writeOldest p w v rest s).sec = s.sec ∧
    (State.writeOldest p w v rest s).therm = s.therm ∧
    (State.writeOldest p w v rest s).streams = s.streams ∧
    (State.writeOldest p w v rest s).ptpPorts = s.ptpPorts ∧ (State.writeOldest p w v rest s).ptp = s.ptp ∧
    (State.writeOldest p w v rest s).chans = s.chans ∧ (State.writeOldest p w v rest s).seqs = s.seqs ∧
    (State.writeOldest p w v rest s).hc = s.hc ∧ (State.writeOldest p w v rest s).trim = s.trim ∧
    (State.writeOldest p w v rest s).bundles = s.bundles ∧
    (State.writeOldest p w v rest s).slots = s.slots ∧ (State.writeOldest p w v rest s).wt = s.wt ∧
    (State.writeOldest p w v rest s).fwMem = s.fwMem ∧ (State.writeOldest p w v rest s).pricks = s.pricks ∧
    (State.writeOldest p w v rest s).templates = s.templates ∧
    (State.writeOldest p w v rest s).order = s.order := by
  have hF0 := @State.settlePillows_frame
  have hF1 := @State.unitFault_frame
  have hF2 := @State.writeVector_frame
  have hF3 := @State.unitWait_frame
  have hF4 := @State.vectorDone_frame
  unfold State.writeOldest; (repeat' split) <;> (repeat (rename _ = Access.ok _ _ => hx; obtain ⟨hw, rfl⟩ := Access.ok_elim hx; clear hx)) <;> (repeat (rename _ = Access.fault _ _ => hx; obtain ⟨hw, rfl⟩ := Access.fault_elim hx; clear hx)) <;> simp [*]

@[simp] theorem State.writeOldest_wf (p : Nat) (w : Work) (v : EpiVec) (rest : List EpiVec) (s : State) (hm : Memory.wf s.mem = true) :
    Memory.wf (State.writeOldest p w v rest s).mem = true := by
  have hF0 := @State.unitFault_frame
  have hF1 := @State.unitWait_frame
  unfold State.writeOldest; (repeat' split) <;> (repeat (rename _ = Access.ok _ _ => hx; obtain ⟨hw, rfl⟩ := Access.ok_elim hx; clear hx)) <;> (repeat (rename _ = Access.fault _ _ => hx; obtain ⟨hw, rfl⟩ := Access.fault_elim hx; clear hx)) <;> simp [*]

/-! ## Walks -/

theorem State.walkFinding_frame (asid : Nat) (va : Nat) (ecc : Ecc) (s : State) :
    (State.walkFinding asid va ecc s).now = s.now ∧ (State.walkFinding asid va ecc s).pending = s.pending ∧
    (State.walkFinding asid va ecc s).tb = s.tb ∧ (State.walkFinding asid va ecc s).sheets = s.sheets ∧
    (State.walkFinding asid va ecc s).units = s.units ∧ (State.walkFinding asid va ecc s).pins = s.pins ∧
    (State.walkFinding asid va ecc s).pk = s.pk ∧ (State.walkFinding asid va ecc s).queues = s.queues ∧
    (State.walkFinding asid va ecc s).latches = s.latches ∧
    (State.walkFinding asid va ecc s).errw = s.errw ∧ (State.walkFinding asid va ecc s).sdio = s.sdio ∧
    (State.walkFinding asid va ecc s).bulk = s.bulk ∧ (State.walkFinding asid va ecc s).mgmt = s.mgmt ∧
    (State.walkFinding asid va ecc s).power = s.power ∧ (State.walkFinding asid va ecc s).sec = s.sec ∧
    (State.walkFinding asid va ecc s).therm = s.therm ∧ (State.walkFinding asid va ecc s).ports = s.ports ∧
    (State.walkFinding asid va ecc s).streams = s.streams ∧
    (State.walkFinding asid va ecc s).services = s.services ∧
    (State.walkFinding asid va ecc s).ptpPorts = s.ptpPorts ∧
    (State.walkFinding asid va ecc s).ptp = s.ptp ∧ (State.walkFinding asid va ecc s).chans = s.chans ∧
    (State.walkFinding asid va ecc s).seqs = s.seqs ∧ (State.walkFinding asid va ecc s).hc = s.hc ∧
    (State.walkFinding asid va ecc s).trim = s.trim ∧
    (State.walkFinding asid va ecc s).bundles = s.bundles ∧
    (State.walkFinding asid va ecc s).slots = s.slots ∧ (State.walkFinding asid va ecc s).wt = s.wt ∧
    (State.walkFinding asid va ecc s).mem = s.mem ∧ (State.walkFinding asid va ecc s).fwMem = s.fwMem ∧
    (State.walkFinding asid va ecc s).pricks = s.pricks ∧
    (State.walkFinding asid va ecc s).templates = s.templates ∧
    (State.walkFinding asid va ecc s).jobs = s.jobs ∧ (State.walkFinding asid va ecc s).order = s.order ∧
    (State.walkFinding asid va ecc s).pillows = s.pillows ∧
    (State.walkFinding asid va ecc s).free = s.free := by
  have hF0 := @State.countHbm_frame
  unfold State.walkFinding; dsimp only; (repeat' split) <;> simp [hF0]

/-- What a fault leaves has a property that its access and its handling keep. -/
theorem Access.faultAt_keeps (R : State → Prop) {asid va : Nat} {k : FaultRec → State → State} {a : Access} {t : State}
    (ha : a.isWait = false → R a.okState) (hk : ∀ f t, R t → R (k f t)) (h : a.faultAt asid va k = some t) : R t := by
  cases a with
  | fault f u =>
    simp only [Access.faultAt] at h
    split at h
    · cases h
      exact hk _ _ (ha rfl)
    · contradiction
  | ok b u => contradiction
  | wait n l d => contradiction

theorem State.dmaWalk_frame (w : Work) (asid va : Nat) {s t : State} (h : s.dmaWalk w asid va = some t) :
    t.now = s.now ∧ t.pending = s.pending ∧ t.tb = s.tb ∧ t.sheets = s.sheets ∧ t.units = s.units ∧
    t.errw = s.errw ∧ t.bulk = s.bulk ∧ t.sec = s.sec ∧ t.therm = s.therm ∧ t.streams = s.streams ∧
    t.ptpPorts = s.ptpPorts ∧ t.ptp = s.ptp ∧ t.chans = s.chans ∧ t.seqs = s.seqs ∧ t.hc = s.hc ∧
    t.trim = s.trim ∧ t.bundles = s.bundles ∧ t.slots = s.slots ∧ t.wt = s.wt ∧ t.fwMem = s.fwMem ∧
    t.pricks = s.pricks ∧ t.templates = s.templates ∧ t.order = s.order := by
  unfold State.dmaWalk at h
  (repeat' split at h)
  · contradiction
  · contradiction
  · exact Access.faultAt_keeps (fun z : State => z.now = s.now ∧ z.pending = s.pending ∧ z.tb = s.tb ∧ z.sheets = s.sheets ∧ z.units = s.units ∧ z.errw = s.errw ∧ z.bulk = s.bulk ∧ z.sec = s.sec ∧ z.therm = s.therm ∧ z.streams = s.streams ∧ z.ptpPorts = s.ptpPorts ∧ z.ptp = s.ptp ∧ z.chans = s.chans ∧ z.seqs = s.seqs ∧ z.hc = s.hc ∧ z.trim = s.trim ∧ z.bundles = s.bundles ∧ z.slots = s.slots ∧ z.wt = s.wt ∧ z.fwMem = s.fwMem ∧ z.pricks = s.pricks ∧ z.templates = s.templates ∧ z.order = s.order) (by intro ha; simp [@State.burst_frame, ha]) (fun f u hu => by simp [@State.burstFault_frame, hu]) h
  · contradiction

theorem State.tokenWalk_frame (w : Work) (asid va : Nat) {s t : State} (h : s.tokenWalk w asid va = some t) :
    t.now = s.now ∧ t.pending = s.pending ∧ t.tb = s.tb ∧ t.sheets = s.sheets ∧ t.units = s.units ∧
    t.errw = s.errw ∧ t.bulk = s.bulk ∧ t.sec = s.sec ∧ t.therm = s.therm ∧ t.streams = s.streams ∧
    t.ptpPorts = s.ptpPorts ∧ t.ptp = s.ptp ∧ t.chans = s.chans ∧ t.seqs = s.seqs ∧ t.hc = s.hc ∧
    t.trim = s.trim ∧ t.bundles = s.bundles ∧ t.slots = s.slots ∧ t.wt = s.wt ∧ t.fwMem = s.fwMem ∧
    t.pricks = s.pricks ∧ t.templates = s.templates ∧ t.order = s.order := by
  unfold State.tokenWalk at h
  (repeat' split at h)
  · contradiction
  · exact Access.faultAt_keeps (fun z : State => z.now = s.now ∧ z.pending = s.pending ∧ z.tb = s.tb ∧ z.sheets = s.sheets ∧ z.units = s.units ∧ z.errw = s.errw ∧ z.bulk = s.bulk ∧ z.sec = s.sec ∧ z.therm = s.therm ∧ z.streams = s.streams ∧ z.ptpPorts = s.ptpPorts ∧ z.ptp = s.ptp ∧ z.chans = s.chans ∧ z.seqs = s.seqs ∧ z.hc = s.hc ∧ z.trim = s.trim ∧ z.bundles = s.bundles ∧ z.slots = s.slots ∧ z.wt = s.wt ∧ z.fwMem = s.fwMem ∧ z.pricks = s.pricks ∧ z.templates = s.templates ∧ z.order = s.order) (by intro ha; simp [@State.readToken_frame, ha]) (fun f u hu => by
      have := State.tokenFault_frame w.p w f u s
      simp_all) h
  · contradiction

theorem State.epiWalk_frame (w : Work) (asid va : Nat) {s t : State} (h : s.epiWalk w asid va = some t) :
    t.now = s.now ∧ t.pending = s.pending ∧ t.tb = s.tb ∧ t.sheets = s.sheets ∧ t.units = s.units ∧
    t.errw = s.errw ∧ t.bulk = s.bulk ∧ t.sec = s.sec ∧ t.therm = s.therm ∧ t.streams = s.streams ∧
    t.ptpPorts = s.ptpPorts ∧ t.ptp = s.ptp ∧ t.chans = s.chans ∧ t.seqs = s.seqs ∧ t.hc = s.hc ∧
    t.trim = s.trim ∧ t.bundles = s.bundles ∧ t.slots = s.slots ∧ t.wt = s.wt ∧ t.fwMem = s.fwMem ∧
    t.pricks = s.pricks ∧ t.templates = s.templates ∧ t.order = s.order := by
  unfold State.epiWalk at h
  (repeat' split at h)
  · contradiction
  · exact Access.faultAt_keeps (fun z : State => z.now = s.now ∧ z.pending = s.pending ∧ z.tb = s.tb ∧ z.sheets = s.sheets ∧ z.units = s.units ∧ z.errw = s.errw ∧ z.bulk = s.bulk ∧ z.sec = s.sec ∧ z.therm = s.therm ∧ z.streams = s.streams ∧ z.ptpPorts = s.ptpPorts ∧ z.ptp = s.ptp ∧ z.chans = s.chans ∧ z.seqs = s.seqs ∧ z.hc = s.hc ∧ z.trim = s.trim ∧ z.bundles = s.bundles ∧ z.slots = s.slots ∧ z.wt = s.wt ∧ z.fwMem = s.fwMem ∧ z.pricks = s.pricks ∧ z.templates = s.templates ∧ z.order = s.order) (by intro ha; simp [@State.writeVector_frame, ha]) (fun f u hu => by simp [@State.unitFault_frame, @State.settlePillows_frame, hu]) h
  · contradiction

theorem State.tatWalk_frame (w : Work) (asid va : Nat) {s t : State} (h : s.tatWalk w asid va = some t) :
    t.now = s.now ∧ t.pending = s.pending ∧ t.tb = s.tb ∧ t.sheets = s.sheets ∧ t.units = s.units ∧
    t.errw = s.errw ∧ t.bulk = s.bulk ∧ t.sec = s.sec ∧ t.therm = s.therm ∧ t.streams = s.streams ∧
    t.ptpPorts = s.ptpPorts ∧ t.ptp = s.ptp ∧ t.chans = s.chans ∧ t.seqs = s.seqs ∧ t.hc = s.hc ∧
    t.trim = s.trim ∧ t.bundles = s.bundles ∧ t.slots = s.slots ∧ t.wt = s.wt ∧ t.fwMem = s.fwMem ∧
    t.pricks = s.pricks ∧ t.templates = s.templates ∧ t.order = s.order := by
  unfold State.tatWalk at h
  split at h
  · contradiction
  · split at h
    · refine Access.faultAt_keeps (fun z : State => z.now = s.now ∧ z.pending = s.pending ∧ z.tb = s.tb ∧ z.sheets = s.sheets ∧ z.units = s.units ∧ z.errw = s.errw ∧ z.bulk = s.bulk ∧ z.sec = s.sec ∧ z.therm = s.therm ∧ z.streams = s.streams ∧ z.ptpPorts = s.ptpPorts ∧ z.ptp = s.ptp ∧ z.chans = s.chans ∧ z.seqs = s.seqs ∧ z.hc = s.hc ∧ z.trim = s.trim ∧ z.bundles = s.bundles ∧ z.slots = s.slots ∧ z.wt = s.wt ∧ z.fwMem = s.fwMem ∧ z.pricks = s.pricks ∧ z.templates = s.templates ∧ z.order = s.order) (fun ha => ?_) (fun f u hu => by simp [@State.unitFault_frame, @State.settlePillows_frame, hu]) h
      split at ha <;> rename_i h9
      · simp only [if_pos h9]
        simp [@State.vectorStep_frame, ha]
      · simp only [if_neg h9]
        simp [@State.matrixStep_frame, ha]
    · contradiction

theorem State.setLenWalk_frame (w : Work) (asid va : Nat) {s t : State} (h : s.setLenWalk w asid va = some t) :
    t.now = s.now ∧ t.pending = s.pending ∧ t.tb = s.tb ∧ t.sheets = s.sheets ∧ t.units = s.units ∧
    t.errw = s.errw ∧ t.bulk = s.bulk ∧ t.sec = s.sec ∧ t.therm = s.therm ∧ t.streams = s.streams ∧
    t.ptpPorts = s.ptpPorts ∧ t.ptp = s.ptp ∧ t.chans = s.chans ∧ t.seqs = s.seqs ∧ t.hc = s.hc ∧
    t.trim = s.trim ∧ t.bundles = s.bundles ∧ t.slots = s.slots ∧ t.wt = s.wt ∧ t.fwMem = s.fwMem ∧
    t.pricks = s.pricks ∧ t.templates = s.templates ∧ t.order = s.order := by
  unfold State.setLenWalk at h
  split at h
  · rcases hq : w.address w.op.a Level.strA [] 0 with ⟨off, line⟩
    simp only [hq] at h
    exact Access.faultAt_keeps (fun z : State => z.now = s.now ∧ z.pending = s.pending ∧ z.tb = s.tb ∧ z.sheets = s.sheets ∧ z.units = s.units ∧ z.errw = s.errw ∧ z.bulk = s.bulk ∧ z.sec = s.sec ∧ z.therm = s.therm ∧ z.streams = s.streams ∧ z.ptpPorts = s.ptpPorts ∧ z.ptp = s.ptp ∧ z.chans = s.chans ∧ z.seqs = s.seqs ∧ z.hc = s.hc ∧ z.trim = s.trim ∧ z.bundles = s.bundles ∧ z.slots = s.slots ∧ z.wt = s.wt ∧ z.fwMem = s.fwMem ∧ z.pricks = s.pricks ∧ z.templates = s.templates ∧ z.order = s.order) (by intro ha; simp [@State.readOpnd_frame, ha]) (fun f u hu => by simp [@State.unitFault_frame, @State.settlePillows_frame, hu]) h
  · contradiction

theorem State.walkFault_frame (w : Work) (asid va : Nat) {s t : State} (h : s.walkFault w asid va = some t) :
    t.now = s.now ∧ t.pending = s.pending ∧ t.tb = s.tb ∧ t.sheets = s.sheets ∧ t.units = s.units ∧
    t.errw = s.errw ∧ t.bulk = s.bulk ∧ t.sec = s.sec ∧ t.therm = s.therm ∧ t.streams = s.streams ∧
    t.ptpPorts = s.ptpPorts ∧ t.ptp = s.ptp ∧ t.chans = s.chans ∧ t.seqs = s.seqs ∧ t.hc = s.hc ∧
    t.trim = s.trim ∧ t.bundles = s.bundles ∧ t.slots = s.slots ∧ t.wt = s.wt ∧ t.fwMem = s.fwMem ∧
    t.pricks = s.pricks ∧ t.templates = s.templates ∧ t.order = s.order := by
  unfold State.walkFault at h
  simp only [Option.or_eq_some_iff] at h
  obtain (((h | ⟨-, h⟩) | ⟨-, h⟩) | ⟨-, h⟩) | ⟨-, h⟩ := h
  · exact State.dmaWalk_frame _ _ _ h
  · exact State.tokenWalk_frame _ _ _ h
  · exact State.epiWalk_frame _ _ _ h
  · exact State.tatWalk_frame _ _ _ h
  · exact State.setLenWalk_frame _ _ _ h

theorem State.walkEnd_frame (w : Work) (asid va : Nat) (s : State) :
    (State.walkEnd w asid va s).now = s.now ∧ (State.walkEnd w asid va s).pending = s.pending ∧
    (State.walkEnd w asid va s).tb = s.tb ∧ (State.walkEnd w asid va s).sheets = s.sheets ∧
    (State.walkEnd w asid va s).units = s.units ∧ (State.walkEnd w asid va s).errw = s.errw ∧
    (State.walkEnd w asid va s).bulk = s.bulk ∧ (State.walkEnd w asid va s).sec = s.sec ∧
    (State.walkEnd w asid va s).therm = s.therm ∧ (State.walkEnd w asid va s).streams = s.streams ∧
    (State.walkEnd w asid va s).ptpPorts = s.ptpPorts ∧ (State.walkEnd w asid va s).ptp = s.ptp ∧
    (State.walkEnd w asid va s).chans = s.chans ∧ (State.walkEnd w asid va s).seqs = s.seqs ∧
    (State.walkEnd w asid va s).hc = s.hc ∧ (State.walkEnd w asid va s).trim = s.trim ∧
    (State.walkEnd w asid va s).bundles = s.bundles ∧ (State.walkEnd w asid va s).slots = s.slots ∧
    (State.walkEnd w asid va s).wt = s.wt ∧ (State.walkEnd w asid va s).fwMem = s.fwMem ∧
    (State.walkEnd w asid va s).pricks = s.pricks ∧ (State.walkEnd w asid va s).templates = s.templates ∧
    (State.walkEnd w asid va s).order = s.order := by
  unfold State.walkEnd
  split
  · simp [@State.walk_frame]
  · rcases hx : s.walkFault w asid va with _ | t
    · simp [@State.walk_frame]
    · have := State.walkFault_frame _ _ _ hx
      simp [this]

theorem State.dmaWalk_wf (w : Work) (asid va : Nat) {s t : State} (hm : Memory.wf s.mem = true) (h : s.dmaWalk w asid va = some t) :
    Memory.wf t.mem = true := by
  unfold State.dmaWalk at h
  (repeat' split at h)
  · contradiction
  · contradiction
  · exact Access.faultAt_keeps (fun z : State => Memory.wf z.mem = true) (by intro ha; simp [hm, ha]) (fun f u hu => by simp [hu]) h
  · contradiction

theorem State.tokenWalk_wf (w : Work) (asid va : Nat) {s t : State} (hm : Memory.wf s.mem = true) (h : s.tokenWalk w asid va = some t) :
    Memory.wf t.mem = true := by
  unfold State.tokenWalk at h
  (repeat' split at h)
  · contradiction
  · exact Access.faultAt_keeps (fun z : State => Memory.wf z.mem = true) (by intro ha; simp [@State.readToken_frame, hm, ha]) (fun f u hu => State.tokenFault_wf _ _ _ _ _ hu hm) h
  · contradiction

theorem State.epiWalk_wf (w : Work) (asid va : Nat) {s t : State} (hm : Memory.wf s.mem = true) (h : s.epiWalk w asid va = some t) :
    Memory.wf t.mem = true := by
  unfold State.epiWalk at h
  (repeat' split at h)
  · contradiction
  · exact Access.faultAt_keeps (fun z : State => Memory.wf z.mem = true) (by intro ha; simp [hm, ha]) (fun f u hu => by simp [@State.unitFault_frame, hu]) h
  · contradiction

theorem State.tatWalk_wf (w : Work) (asid va : Nat) {s t : State} (hm : Memory.wf s.mem = true) (h : s.tatWalk w asid va = some t) :
    Memory.wf t.mem = true := by
  unfold State.tatWalk at h
  split at h
  · contradiction
  · split at h
    · refine Access.faultAt_keeps (fun z : State => Memory.wf z.mem = true) (fun ha => ?_) (fun f u hu => by simp [@State.unitFault_frame, hu]) h
      split at ha <;> rename_i h9
      · simp only [if_pos h9]
        exact State.vectorStep_wf _ _ _ _ hm ha
      · simp only [if_neg h9]
        exact State.matrixStep_wf _ _ _ hm ha
    · contradiction

theorem State.setLenWalk_wf (w : Work) (asid va : Nat) {s t : State} (hm : Memory.wf s.mem = true) (h : s.setLenWalk w asid va = some t) :
    Memory.wf t.mem = true := by
  unfold State.setLenWalk at h
  split at h
  · rcases hq : w.address w.op.a Level.strA [] 0 with ⟨off, line⟩
    simp only [hq] at h
    exact Access.faultAt_keeps (fun z : State => Memory.wf z.mem = true) (by intro ha; simp [@State.readOpnd_frame, hm, ha]) (fun f u hu => by simp [@State.unitFault_frame, hu]) h
  · contradiction

theorem State.walkFault_wf (w : Work) (asid va : Nat) {s t : State} (hm : Memory.wf s.mem = true) (h : s.walkFault w asid va = some t) :
    Memory.wf t.mem = true := by
  unfold State.walkFault at h
  simp only [Option.or_eq_some_iff] at h
  obtain (((h | ⟨-, h⟩) | ⟨-, h⟩) | ⟨-, h⟩) | ⟨-, h⟩ := h
  · exact State.dmaWalk_wf _ _ _ hm h
  · exact State.tokenWalk_wf _ _ _ hm h
  · exact State.epiWalk_wf _ _ _ hm h
  · exact State.tatWalk_wf _ _ _ hm h
  · exact State.setLenWalk_wf _ _ _ hm h

@[simp] theorem State.walkEnd_wf (w : Work) (asid va : Nat) (s : State) (hm : Memory.wf s.mem = true) :
    Memory.wf (State.walkEnd w asid va s).mem = true := by
  unfold State.walkEnd
  split
  · simp [@State.walk_frame, hm]
  · rcases hx : s.walkFault w asid va with _ | t
    · simp [@State.walk_frame, hm]
    · exact State.walkFault_wf _ _ _ hm hx

end Sys2Proof.Machine
end

