-- ==== Sys2Proof/Laws/MeaningsEvents.lean ====
section
/-! SUPPORT. One lemma per meaning of Refresh, Sched, DmaEvents, Jobs, PicotPort, Streams, Ethernet,
Thermal, Integrity, Paging, Weights, Programming, Records, TimeBase, Tatting, Registers, Xbar,
Walks: it answers a next state, keeps the queue of waiting commands, moves device time to its own
time and never back, keeps the canonical form of the memories, and leaves every field alone that it
names. -/

namespace Sys2Proof.Machine

/-! ## Refresh -/

theorem execRefreshStart_next (t : Nat) (pillow : Nat) (s : State) :
    ∃ s', execRefreshStart t pillow s = .next s' ∧ s'.pending = s.pending ∧ s'.now = max s.now t ∧
    s'.mem = s.mem ∧ s'.fwMem = s.fwMem ∧ s'.tb = s.tb ∧ s'.sheets = s.sheets ∧ s'.units = s.units ∧
    s'.pins = s.pins ∧ s'.pk = s.pk ∧ s'.errw = s.errw ∧ s'.bulk = s.bulk ∧ s'.mgmt = s.mgmt ∧
    s'.power = s.power ∧ s'.sec = s.sec ∧ s'.therm = s.therm ∧ s'.ports = s.ports ∧ s'.streams = s.streams ∧
    s'.services = s.services ∧ s'.ptpPorts = s.ptpPorts ∧ s'.ptp = s.ptp ∧ s'.chans = s.chans ∧
    s'.seqs = s.seqs ∧ s'.hc = s.hc ∧ s'.trim = s.trim ∧ s'.slots = s.slots ∧ s'.pricks = s.pricks ∧
    s'.templates = s.templates ∧ s'.jobs = s.jobs ∧ s'.order = s.order ∧ s'.free = s.free := by
  have hF0 := @State.advance_frame
  have hF1 := @State.refreshBegin_frame
  unfold execRefreshStart; (refine ⟨_, rfl, ?_⟩; simp [hF0, hF1])

theorem execAgeRefreshRequest_next (t : Nat) (pillow : Nat) (logical : Nat) (s : State) :
    ∃ s', execAgeRefreshRequest t pillow logical s = .next s' ∧ s'.pending = s.pending ∧
    s'.now = max s.now t ∧ s'.mem = s.mem ∧ s'.fwMem = s.fwMem ∧ s'.tb = s.tb ∧ s'.sheets = s.sheets ∧
    s'.units = s.units ∧ s'.pins = s.pins ∧ s'.pk = s.pk ∧ s'.queues = s.queues ∧ s'.latches = s.latches ∧
    s'.errw = s.errw ∧ s'.sdio = s.sdio ∧ s'.bulk = s.bulk ∧ s'.mgmt = s.mgmt ∧ s'.power = s.power ∧
    s'.sec = s.sec ∧ s'.therm = s.therm ∧ s'.ports = s.ports ∧ s'.streams = s.streams ∧
    s'.services = s.services ∧ s'.ptpPorts = s.ptpPorts ∧ s'.ptp = s.ptp ∧ s'.chans = s.chans ∧
    s'.seqs = s.seqs ∧ s'.hc = s.hc ∧ s'.trim = s.trim ∧ s'.bundles = s.bundles ∧ s'.slots = s.slots ∧
    s'.wt = s.wt ∧ s'.ms = s.ms ∧ s'.pricks = s.pricks ∧ s'.templates = s.templates ∧ s'.jobs = s.jobs ∧
    s'.order = s.order ∧ s'.free = s.free := by
  have hF0 := @State.advance_frame
  have hF1 := @State.requestRefresh_frame
  unfold execAgeRefreshRequest; (refine ⟨_, rfl, ?_⟩; simp [hF0, hF1])

theorem execBobbinProgrammingStart_next (t : Nat) (pillow : Nat) (s : State) :
    ∃ s', execBobbinProgrammingStart t pillow s = .next s' ∧ s'.pending = s.pending ∧ s'.now = max s.now t ∧
    s'.mem = s.mem ∧ s'.fwMem = s.fwMem ∧ s'.tb = s.tb ∧ s'.sheets = s.sheets ∧ s'.units = s.units ∧
    s'.pins = s.pins ∧ s'.pk = s.pk ∧ s'.queues = s.queues ∧ s'.latches = s.latches ∧ s'.errw = s.errw ∧
    s'.sdio = s.sdio ∧ s'.bulk = s.bulk ∧ s'.mgmt = s.mgmt ∧ s'.power = s.power ∧ s'.sec = s.sec ∧
    s'.therm = s.therm ∧ s'.ports = s.ports ∧ s'.streams = s.streams ∧ s'.services = s.services ∧
    s'.ptpPorts = s.ptpPorts ∧ s'.ptp = s.ptp ∧ s'.chans = s.chans ∧ s'.seqs = s.seqs ∧ s'.hc = s.hc ∧
    s'.trim = s.trim ∧ s'.bundles = s.bundles ∧ s'.wt = s.wt ∧ s'.ms = s.ms ∧ s'.pricks = s.pricks ∧
    s'.templates = s.templates ∧ s'.jobs = s.jobs ∧ s'.order = s.order ∧ s'.free = s.free := by
  have hF0 := @State.advance_frame
  have hF1 := @State.modPillow_frame
  have hF2 := @State.modBobbin_frame
  have hF3 := @State.progRefused_frame
  unfold execBobbinProgrammingStart; dsimp only; (repeat' split) <;> (refine ⟨_, rfl, ?_⟩; simp [hF0, hF1, hF2, hF3])

theorem execWrReq_next (h : Hdr) (pillow : Nat) (logical : Nat) (s : State) :
    ∃ s', execWrReq h pillow logical s = .next s' ∧ s'.pending = s.pending ∧ s'.now = max s.now h.t ∧
    s'.mem = s.mem ∧ s'.fwMem = s.fwMem ∧ s'.tb = s.tb ∧ s'.sheets = s.sheets ∧ s'.units = s.units ∧
    s'.pins = s.pins ∧ s'.pk = s.pk ∧ s'.latches = s.latches ∧ s'.errw = s.errw ∧ s'.bulk = s.bulk ∧
    s'.power = s.power ∧ s'.therm = s.therm ∧ s'.ports = s.ports ∧ s'.streams = s.streams ∧
    s'.services = s.services ∧ s'.ptpPorts = s.ptpPorts ∧ s'.ptp = s.ptp ∧ s'.chans = s.chans ∧
    s'.seqs = s.seqs ∧ s'.hc = s.hc ∧ s'.trim = s.trim ∧ s'.bundles = s.bundles ∧ s'.slots = s.slots ∧
    s'.wt = s.wt ∧ s'.ms = s.ms ∧ s'.pricks = s.pricks ∧ s'.templates = s.templates ∧ s'.jobs = s.jobs ∧
    s'.order = s.order ∧ s'.free = s.free := by
  have hF0 := @State.refuse_frame
  have hF1 := @State.advance_frame
  have hF2 := @State.done_frame
  have hF3 := @State.hostRefresh_frame
  have hF4 := @State.disarm_frame
  unfold execWrReq hostCommand; dsimp only; split <;> (refine ⟨_, rfl, ?_⟩; simp [hF0, hF1, hF2, hF3, hF4])

/-! ## Sched -/

theorem execStageReady_next (t : Nat) (pillow : Nat) (ctx : Nat) (stage : Nat) (s : State) :
    ∃ s', execStageReady t pillow ctx stage s = .next s' ∧ s'.pending = s.pending ∧ s'.now = max s.now t ∧
    (Memory.wf s.mem = true → Memory.wf s'.mem = true) ∧ s'.fwMem = s.fwMem ∧ s'.tb = s.tb ∧
    s'.sheets = s.sheets ∧ s'.units = s.units ∧ s'.errw = s.errw ∧ s'.bulk = s.bulk ∧ s'.sec = s.sec ∧
    s'.therm = s.therm ∧ s'.streams = s.streams ∧ s'.ptpPorts = s.ptpPorts ∧ s'.ptp = s.ptp ∧
    s'.chans = s.chans ∧ s'.seqs = s.seqs ∧ s'.hc = s.hc ∧ s'.trim = s.trim ∧ s'.bundles = s.bundles ∧
    s'.slots = s.slots ∧ s'.wt = s.wt ∧ s'.pricks = s.pricks ∧ s'.templates = s.templates ∧
    s'.order = s.order := by
  have hF0 := @State.advance_frame
  have hF1 := @State.settlePillows_frame
  have hF2 := @State.makeReady_frame
  unfold execStageReady; dsimp only; (repeat' split) <;> (refine ⟨_, rfl, ?_⟩; simp +contextual [hF0, hF1, hF2])

theorem execSaveComplete_next (t : Nat) (pillow : Nat) (s : State) :
    ∃ s', execSaveComplete t pillow s = .next s' ∧ s'.pending = s.pending ∧ s'.now = max s.now t ∧
    (Memory.wf s.mem = true → Memory.wf s'.mem = true) ∧ s'.fwMem = s.fwMem ∧ s'.tb = s.tb ∧
    s'.sheets = s.sheets ∧ s'.units = s.units ∧ s'.errw = s.errw ∧ s'.bulk = s.bulk ∧ s'.sec = s.sec ∧
    s'.therm = s.therm ∧ s'.streams = s.streams ∧ s'.ptpPorts = s.ptpPorts ∧ s'.ptp = s.ptp ∧
    s'.chans = s.chans ∧ s'.seqs = s.seqs ∧ s'.hc = s.hc ∧ s'.trim = s.trim ∧ s'.bundles = s.bundles ∧
    s'.slots = s.slots ∧ s'.wt = s.wt ∧ s'.pricks = s.pricks ∧ s'.templates = s.templates ∧
    s'.order = s.order := by
  have hF0 := @State.advance_frame
  have hF1 := @State.modPillow_frame
  have hF2 := @State.abortAsked_frame
  have hF3 := @State.settlePillows_frame
  have hF4 := @State.writeImage_frame
  unfold execSaveComplete; dsimp only; (repeat' split) <;> (refine ⟨_, rfl, ?_⟩; simp +contextual [hF0, hF1, hF2, hF3, hF4])

theorem execRestoreComplete_next (t : Nat) (pillow : Nat) (ecc : Ecc) (s : State) :
    ∃ s', execRestoreComplete t pillow ecc s = .next s' ∧ s'.pending = s.pending ∧ s'.now = max s.now t ∧
    (Memory.wf s.mem = true → Memory.wf s'.mem = true) ∧ s'.fwMem = s.fwMem ∧ s'.tb = s.tb ∧
    s'.sheets = s.sheets ∧ s'.units = s.units ∧ s'.errw = s.errw ∧ s'.bulk = s.bulk ∧ s'.sec = s.sec ∧
    s'.therm = s.therm ∧ s'.streams = s.streams ∧ s'.ptpPorts = s.ptpPorts ∧ s'.ptp = s.ptp ∧
    s'.chans = s.chans ∧ s'.seqs = s.seqs ∧ s'.hc = s.hc ∧ s'.trim = s.trim ∧ s'.bundles = s.bundles ∧
    s'.slots = s.slots ∧ s'.wt = s.wt ∧ s'.pricks = s.pricks ∧ s'.templates = s.templates ∧
    s'.order = s.order := by
  have hF0 := @State.advance_frame
  have hF1 := @State.restored_frame
  have hF2 := @State.countHbm_frame
  have hF3 := @State.settlePillows_frame
  have hF4 := @State.saveArea_frame
  have hF5 := @State.meetErrs_frame
  unfold execRestoreComplete
  dsimp only
  split
  · split
    · refine ⟨_, rfl, ?_⟩
      rename_i v _ _
      have h1 : ∀ (u : State) (im : List (Nat × Bytes)) (a : Nat), (fun z : State => z.pending = u.pending ∧ z.tb = u.tb ∧ z.sheets = u.sheets ∧ z.units = u.units ∧ z.errw = u.errw ∧ z.bulk = u.bulk ∧ z.sec = u.sec ∧ z.therm = u.therm ∧ z.streams = u.streams ∧ z.ptpPorts = u.ptpPorts ∧ z.ptp = u.ptp ∧ z.chans = u.chans ∧ z.seqs = u.seqs ∧ z.hc = u.hc ∧ z.trim = u.trim ∧ z.bundles = u.bundles ∧ z.slots = u.slots ∧ z.wt = u.wt ∧ z.fwMem = u.fwMem ∧ z.pricks = u.pricks ∧ z.templates = u.templates ∧ z.order = u.order ∧ z.now = u.now ∧ z.mem = u.mem)
          (im.foldl (fun s x => s.meetErrs (a + x.1) x.2.length) u) := by
        intro u im a
        simp [hF5]
      have h2 : (fun z : State => z.pending = s.pending ∧ z.tb = s.tb ∧ z.sheets = s.sheets ∧ z.units = s.units ∧ z.errw = s.errw ∧ z.bulk = s.bulk ∧ z.sec = s.sec ∧ z.therm = s.therm ∧ z.streams = s.streams ∧ z.ptpPorts = s.ptpPorts ∧ z.ptp = s.ptp ∧ z.chans = s.chans ∧ z.seqs = s.seqs ∧ z.hc = s.hc ∧ z.trim = s.trim ∧ z.bundles = s.bundles ∧ z.slots = s.slots ∧ z.wt = s.wt ∧ z.fwMem = s.fwMem ∧ z.pricks = s.pricks ∧ z.templates = s.templates ∧ z.order = s.order ∧ z.now = max s.now t ∧ z.mem = s.mem)
          (if ecc = .clean then s.advance t else (s.advance t).countHbm (slotAddr pillow v.slot) (ecc == .uncorrectable)) := by
        split <;> simp [hF0, hF2]
      generalize (if ecc = .clean then s.advance t else (s.advance t).countHbm (slotAddr pillow v.slot) (ecc == .uncorrectable)) = u at h2 ⊢
      have h3 := h1 u ((u.workOf pillow v.run).elim [] fun w => w.saveImage v.suspended) (slotAddr pillow v.slot)
      clear h1
      generalize List.foldl (fun s x => State.meetErrs (slotAddr pillow v.slot + x.1) (List.length x.2) s) u
        ((u.workOf pillow v.run).elim [] fun w => w.saveImage v.suspended) = x at h3 ⊢
      split
      · simp +contextual [hF3, hF4, h2, h3]
      · simp +contextual [hF1, h2, h3]
    · exact ⟨_, rfl, by simp +contextual [hF0]⟩
  · exact ⟨_, rfl, by simp +contextual [hF0]⟩

theorem execFenceWaitEnd_next (t : Nat) (pillow : Nat) (s : State) :
    ∃ s', execFenceWaitEnd t pillow s = .next s' ∧ s'.pending = s.pending ∧ s'.now = max s.now t ∧
    (Memory.wf s.mem = true → Memory.wf s'.mem = true) ∧ s'.fwMem = s.fwMem ∧ s'.tb = s.tb ∧
    s'.sheets = s.sheets ∧ s'.units = s.units ∧ s'.errw = s.errw ∧ s'.bulk = s.bulk ∧ s'.sec = s.sec ∧
    s'.therm = s.therm ∧ s'.streams = s.streams ∧ s'.ptpPorts = s.ptpPorts ∧ s'.ptp = s.ptp ∧
    s'.chans = s.chans ∧ s'.seqs = s.seqs ∧ s'.hc = s.hc ∧ s'.trim = s.trim ∧ s'.bundles = s.bundles ∧
    s'.slots = s.slots ∧ s'.wt = s.wt ∧ s'.pricks = s.pricks ∧ s'.templates = s.templates ∧
    s'.order = s.order := by
  have hF0 := @State.settlePillows_frame
  have hF1 := @State.advance_frame
  have hF2 := @State.modJob_frame
  have hF3 := @State.boundary_frame
  have hF4 := @State.setRun_frame
  have hF5 := @State.modPillow_frame
  unfold execFenceWaitEnd; dsimp only; (repeat' split) <;> (refine ⟨_, rfl, ?_⟩; simp +contextual [hF0, hF1, hF2, hF3, hF4, hF5])

theorem execWindowWaitEnd_next (t : Nat) (pillow : Nat) (s : State) :
    ∃ s', execWindowWaitEnd t pillow s = .next s' ∧ s'.pending = s.pending ∧ s'.now = max s.now t ∧
    (Memory.wf s.mem = true → Memory.wf s'.mem = true) ∧ s'.fwMem = s.fwMem ∧ s'.tb = s.tb ∧
    s'.sheets = s.sheets ∧ s'.units = s.units ∧ s'.errw = s.errw ∧ s'.bulk = s.bulk ∧ s'.sec = s.sec ∧
    s'.therm = s.therm ∧ s'.streams = s.streams ∧ s'.ptpPorts = s.ptpPorts ∧ s'.ptp = s.ptp ∧
    s'.chans = s.chans ∧ s'.seqs = s.seqs ∧ s'.hc = s.hc ∧ s'.trim = s.trim ∧ s'.bundles = s.bundles ∧
    s'.slots = s.slots ∧ s'.wt = s.wt ∧ s'.pricks = s.pricks ∧ s'.templates = s.templates ∧
    s'.order = s.order := by
  have hF0 := @State.advance_frame
  have hF1 := @State.endWait_frame
  have hF2 := @State.settlePillows_frame
  unfold execWindowWaitEnd; dsimp only; (repeat' split) <;> (refine ⟨_, rfl, ?_⟩; simp +contextual [hF0, hF1, hF2])

theorem execFaultWaitExpiry_next (t : Nat) (ctx : Nat) (s : State) :
    ∃ s', execFaultWaitExpiry t ctx s = .next s' ∧ s'.pending = s.pending ∧ s'.now = max s.now t ∧
    (Memory.wf s.mem = true → Memory.wf s'.mem = true) ∧ s'.fwMem = s.fwMem ∧ s'.tb = s.tb ∧
    s'.sheets = s.sheets ∧ s'.units = s.units ∧ s'.errw = s.errw ∧ s'.bulk = s.bulk ∧ s'.sec = s.sec ∧
    s'.therm = s.therm ∧ s'.streams = s.streams ∧ s'.ptpPorts = s.ptpPorts ∧ s'.ptp = s.ptp ∧
    s'.chans = s.chans ∧ s'.seqs = s.seqs ∧ s'.hc = s.hc ∧ s'.trim = s.trim ∧ s'.bundles = s.bundles ∧
    s'.slots = s.slots ∧ s'.wt = s.wt ∧ s'.pricks = s.pricks ∧ s'.templates = s.templates ∧
    s'.order = s.order := by
  have hF0 := @State.advance_frame
  have hF1 := @State.settlePillows_frame
  have hF2 := @State.abortJob_frame
  have hF3 := @State.modPillow_frame
  unfold execFaultWaitExpiry; dsimp only; (repeat' split) <;> (refine ⟨_, rfl, ?_⟩; simp +contextual [hF0, hF1, hF2, hF3])

/-! ## DmaEvents -/

theorem execDmaBurstComplete_next (t : Nat) (pillow : Nat) (b : BurstIn) (s : State) :
    ∃ s', execDmaBurstComplete t pillow b s = .next s' ∧ s'.pending = s.pending ∧ s'.now = max s.now t ∧
    (Memory.wf s.mem = true → Memory.wf s'.mem = true) ∧ s'.fwMem = s.fwMem ∧ s'.tb = s.tb ∧
    s'.sheets = s.sheets ∧ s'.units = s.units ∧ s'.errw = s.errw ∧ s'.bulk = s.bulk ∧ s'.sec = s.sec ∧
    s'.therm = s.therm ∧ s'.streams = s.streams ∧ s'.ptpPorts = s.ptpPorts ∧ s'.ptp = s.ptp ∧
    s'.chans = s.chans ∧ s'.seqs = s.seqs ∧ s'.hc = s.hc ∧ s'.trim = s.trim ∧ s'.bundles = s.bundles ∧
    s'.slots = s.slots ∧ s'.wt = s.wt ∧ s'.pricks = s.pricks ∧ s'.templates = s.templates ∧
    s'.order = s.order := by
  have hF0 := @State.advance_frame
  have hF1 := @State.burstDone_frame
  have hF2 := @State.burst_frame
  have hF3 := @State.burstFault_frame
  have hF4 := @State.strike_frame
  have hF5 := @State.endWait_frame
  unfold execDmaBurstComplete
  dsimp only
  refine ⟨_, rfl, ?_⟩
  have h1 : (fun z : State => z.pending = s.pending ∧ z.tb = s.tb ∧ z.sheets = s.sheets ∧ z.units = s.units ∧ z.errw = s.errw ∧ z.bulk = s.bulk ∧ z.sec = s.sec ∧ z.therm = s.therm ∧ z.streams = s.streams ∧ z.ptpPorts = s.ptpPorts ∧ z.ptp = s.ptp ∧ z.chans = s.chans ∧ z.seqs = s.seqs ∧ z.hc = s.hc ∧ z.trim = s.trim ∧ z.bundles = s.bundles ∧ z.slots = s.slots ∧ z.wt = s.wt ∧ z.fwMem = s.fwMem ∧ z.pricks = s.pricks ∧ z.templates = s.templates ∧ z.order = s.order ∧ z.now = max s.now t ∧ z.mem = s.mem)
      (b.struck.foldl (fun s x => s.strike x) (s.advance t)) := by
    simp [hF0, hF4]
  generalize b.struck.foldl (fun s x => s.strike x) (s.advance t) = s1 at h1 ⊢
  split
  · simp +contextual [h1]
  · rename_i w _
    split
    · simp +contextual [h1]
    · rename_i x _
      split
      · simp +contextual [h1]
      · have h2 : (fun z : State => z.pending = s.pending ∧ z.tb = s.tb ∧ z.sheets = s.sheets ∧ z.units = s.units ∧ z.errw = s.errw ∧ z.bulk = s.bulk ∧ z.sec = s.sec ∧ z.therm = s.therm ∧ z.streams = s.streams ∧ z.ptpPorts = s.ptpPorts ∧ z.ptp = s.ptp ∧ z.chans = s.chans ∧ z.seqs = s.seqs ∧ z.hc = s.hc ∧ z.trim = s.trim ∧ z.bundles = s.bundles ∧ z.slots = s.slots ∧ z.wt = s.wt ∧ z.fwMem = s.fwMem ∧ z.pricks = s.pricks ∧ z.templates = s.templates ∧ z.order = s.order ∧ z.now = max s.now t ∧ z.mem = s.mem)
            (if w.op.kind = kDma ∨ w.prk.nOps ≤ w.run.op then s1.endWait pillow else s1) := by
          split <;> simp [hF5, h1]
        generalize (if w.op.kind = kDma ∨ w.prk.nOps ≤ w.run.op then s1.endWait pillow else s1) = s2 at h2 ⊢
        have h3 := fun hw => State.burst_frame (w.ofXfer x) x s2 hw
        have h4 := fun hm hw => State.burst_wf (w.ofXfer x) x s2 hm hw
        generalize State.burstLen (w.ofXfer x) x s2 = n
        rcases hb : State.burst (w.ofXfer x) x s2 with ⟨e, u⟩ | ⟨f, u⟩ | ⟨k, l, d⟩ <;> simp only [hb] at h3 h4
        · have h5 := h3 rfl
          have h6 := fun hm => h4 hm rfl
          simp only [Access.okState_ok] at h5 h6
          simp_all +contextual
        · have h5 := h3 rfl
          have h6 := fun hm => h4 hm rfl
          simp only [Access.okState_fault] at h5 h6
          simp_all +contextual
        · simp +contextual [h2]

theorem execSetlen_next (t : Nat) (pillow : Nat) (s : State) : ∃ s', execSetlen t pillow s = .next s' ∧
    s'.pending = s.pending ∧ s'.now = max s.now t ∧ (Memory.wf s.mem = true → Memory.wf s'.mem = true) ∧
    s'.fwMem = s.fwMem ∧ s'.tb = s.tb ∧ s'.sheets = s.sheets ∧ s'.units = s.units ∧ s'.errw = s.errw ∧
    s'.bulk = s.bulk ∧ s'.sec = s.sec ∧ s'.therm = s.therm ∧ s'.streams = s.streams ∧
    s'.ptpPorts = s.ptpPorts ∧ s'.ptp = s.ptp ∧ s'.chans = s.chans ∧ s'.seqs = s.seqs ∧ s'.hc = s.hc ∧
    s'.trim = s.trim ∧ s'.bundles = s.bundles ∧ s'.slots = s.slots ∧ s'.wt = s.wt ∧ s'.pricks = s.pricks ∧
    s'.templates = s.templates ∧ s'.order = s.order := by
  have hF0 := @State.advance_frame
  have hF1 := @State.boundary_frame
  have hF2 := @State.modRun_frame
  have hF3 := @State.setLen_frame
  have hF4 := @State.readOpnd_frame
  have hF5 := @State.settlePillows_frame
  have hF6 := @State.unitFault_frame
  have hF7 := @State.unitWait_frame
  unfold execSetlen; dsimp only; (repeat' split) <;> (repeat (rename _ = Access.ok _ _ => hx; obtain ⟨hw, rfl⟩ := Access.ok_elim hx; clear hx)) <;> (repeat (rename _ = Access.fault _ _ => hx; obtain ⟨hw, rfl⟩ := Access.fault_elim hx; clear hx)) <;> (refine ⟨_, rfl, ?_⟩; simp +contextual [*])

/-! ## Jobs -/

theorem execJobAdmit_next (h : Hdr) (p : AdmitParams) (s : State) : ∃ s', execJobAdmit h p s = .next s' ∧
    s'.pending = s.pending ∧ s'.now = max s.now h.t ∧ (Memory.wf s.mem = true → Memory.wf s'.mem = true) ∧
    s'.fwMem = s.fwMem ∧ s'.tb = s.tb ∧ s'.sheets = s.sheets ∧ s'.units = s.units ∧ s'.errw = s.errw ∧
    s'.bulk = s.bulk ∧ s'.sec = s.sec ∧ s'.therm = s.therm ∧ s'.streams = s.streams ∧
    s'.ptpPorts = s.ptpPorts ∧ s'.ptp = s.ptp ∧ s'.chans = s.chans ∧ s'.seqs = s.seqs ∧ s'.hc = s.hc ∧
    s'.trim = s.trim ∧ s'.bundles = s.bundles ∧ s'.slots = s.slots ∧ s'.wt = s.wt ∧ s'.pricks = s.pricks ∧
    s'.order = s.order := by
  have hF0 := @State.refuse_frame
  have hF1 := @State.advance_frame
  have hF2 := @State.admitDo_frame
  unfold execJobAdmit hostCommand; dsimp only; split <;> (refine ⟨_, rfl, ?_⟩; simp +contextual [hF0, hF1, hF2])

theorem execJobAdmitAccept_next (t : Nat) (template : Nat) (s : State) :
    ∃ s', execJobAdmitAccept t template s = .next s' ∧ s'.pending = s.pending ∧ s'.now = max s.now t ∧
    s'.mem = s.mem ∧ s'.fwMem = s.fwMem ∧ s'.tb = s.tb ∧ s'.sheets = s.sheets ∧ s'.units = s.units ∧
    s'.pins = s.pins ∧ s'.pk = s.pk ∧ s'.latches = s.latches ∧ s'.errw = s.errw ∧ s'.bulk = s.bulk ∧
    s'.power = s.power ∧ s'.sec = s.sec ∧ s'.therm = s.therm ∧ s'.streams = s.streams ∧
    s'.services = s.services ∧ s'.ptpPorts = s.ptpPorts ∧ s'.ptp = s.ptp ∧ s'.chans = s.chans ∧
    s'.seqs = s.seqs ∧ s'.hc = s.hc ∧ s'.trim = s.trim ∧ s'.bundles = s.bundles ∧ s'.slots = s.slots ∧
    s'.wt = s.wt ∧ s'.ms = s.ms ∧ s'.pricks = s.pricks ∧ s'.jobs = s.jobs ∧ s'.order = s.order ∧
    s'.pillows = s.pillows ∧ s'.free = s.free := by
  have hF0 := @State.advance_frame
  have hF1 := @State.accept_frame
  unfold execJobAdmitAccept; dsimp only; (repeat' split) <;> (refine ⟨_, rfl, ?_⟩; simp [hF0, hF1])

theorem execJobSubmit_next (h : Hdr) (p : SubmitParams) (s : State) : ∃ s', execJobSubmit h p s = .next s' ∧
    s'.pending = s.pending ∧ s'.now = max s.now h.t ∧ (Memory.wf s.mem = true → Memory.wf s'.mem = true) ∧
    s'.fwMem = s.fwMem ∧ s'.tb = s.tb ∧ s'.sheets = s.sheets ∧ s'.units = s.units ∧ s'.errw = s.errw ∧
    s'.bulk = s.bulk ∧ s'.sec = s.sec ∧ s'.therm = s.therm ∧ s'.streams = s.streams ∧
    s'.ptpPorts = s.ptpPorts ∧ s'.ptp = s.ptp ∧ s'.chans = s.chans ∧ s'.seqs = s.seqs ∧ s'.hc = s.hc ∧
    s'.trim = s.trim ∧ s'.bundles = s.bundles ∧ s'.slots = s.slots ∧ s'.wt = s.wt ∧ s'.pricks = s.pricks ∧
    s'.templates = s.templates := by
  have hF0 := @State.refuse_frame
  have hF1 := @State.advance_frame
  have hF2 := @State.submitDo_frame
  unfold execJobSubmit hostCommand; dsimp only; split <;> (refine ⟨_, rfl, ?_⟩; simp +contextual [hF0, hF1, hF2])

theorem execPartialCapture_next (h : Hdr) (p : SubmitParams) (capbuf : Nat) (mode : Nat) (s : State) :
    ∃ s', execPartialCapture h p capbuf mode s = .next s' ∧ s'.pending = s.pending ∧
    s'.now = max s.now h.t ∧ (Memory.wf s.mem = true → Memory.wf s'.mem = true) ∧ s'.fwMem = s.fwMem ∧
    s'.tb = s.tb ∧ s'.sheets = s.sheets ∧ s'.units = s.units ∧ s'.errw = s.errw ∧ s'.bulk = s.bulk ∧
    s'.sec = s.sec ∧ s'.therm = s.therm ∧ s'.streams = s.streams ∧ s'.ptpPorts = s.ptpPorts ∧
    s'.ptp = s.ptp ∧ s'.chans = s.chans ∧ s'.seqs = s.seqs ∧ s'.hc = s.hc ∧ s'.trim = s.trim ∧
    s'.bundles = s.bundles ∧ s'.slots = s.slots ∧ s'.wt = s.wt ∧ s'.pricks = s.pricks ∧
    s'.templates = s.templates := by
  have hF0 := @State.refuse_frame
  have hF1 := @State.advance_frame
  have hF2 := @State.submitDo_frame
  unfold execPartialCapture hostCommand; dsimp only; split <;> (refine ⟨_, rfl, ?_⟩; simp +contextual [hF0, hF1, hF2])

theorem execJobAbortLoose_next (h : Hdr) (ctx : Nat) (s : State) :
    ∃ s', execJobAbortLoose h ctx s = .next s' ∧ s'.pending = s.pending ∧ s'.now = max s.now h.t ∧
    (Memory.wf s.mem = true → Memory.wf s'.mem = true) ∧ s'.fwMem = s.fwMem ∧ s'.tb = s.tb ∧
    s'.sheets = s.sheets ∧ s'.units = s.units ∧ s'.errw = s.errw ∧ s'.bulk = s.bulk ∧ s'.sec = s.sec ∧
    s'.therm = s.therm ∧ s'.streams = s.streams ∧ s'.ptpPorts = s.ptpPorts ∧ s'.ptp = s.ptp ∧
    s'.chans = s.chans ∧ s'.seqs = s.seqs ∧ s'.hc = s.hc ∧ s'.trim = s.trim ∧ s'.bundles = s.bundles ∧
    s'.slots = s.slots ∧ s'.wt = s.wt ∧ s'.pricks = s.pricks ∧ s'.templates = s.templates ∧
    s'.order = s.order := by
  have hF0 := @State.refuse_frame
  have hF1 := @State.advance_frame
  have hF2 := @State.abortLooseDo_frame
  unfold execJobAbortLoose hostCommand; dsimp only; split <;> (refine ⟨_, rfl, ?_⟩; simp +contextual [hF0, hF1, hF2])

theorem execJobAbortTemplate_next (h : Hdr) (template : Nat) (s : State) :
    ∃ s', execJobAbortTemplate h template s = .next s' ∧ s'.pending = s.pending ∧ s'.now = max s.now h.t ∧
    s'.mem = s.mem ∧ s'.fwMem = s.fwMem ∧ s'.tb = s.tb ∧ s'.sheets = s.sheets ∧ s'.units = s.units ∧
    s'.pins = s.pins ∧ s'.pk = s.pk ∧ s'.latches = s.latches ∧ s'.errw = s.errw ∧ s'.bulk = s.bulk ∧
    s'.power = s.power ∧ s'.sec = s.sec ∧ s'.therm = s.therm ∧ s'.streams = s.streams ∧
    s'.services = s.services ∧ s'.ptpPorts = s.ptpPorts ∧ s'.ptp = s.ptp ∧ s'.chans = s.chans ∧
    s'.seqs = s.seqs ∧ s'.hc = s.hc ∧ s'.trim = s.trim ∧ s'.bundles = s.bundles ∧ s'.slots = s.slots ∧
    s'.wt = s.wt ∧ s'.ms = s.ms ∧ s'.pricks = s.pricks ∧ s'.jobs = s.jobs ∧ s'.order = s.order ∧
    s'.pillows = s.pillows ∧ s'.free = s.free := by
  have hF0 := @State.refuse_frame
  have hF1 := @State.advance_frame
  have hF2 := @State.release_frame
  have hF3 := @State.modTemplate_frame
  unfold execJobAbortTemplate hostCommand; dsimp only; split <;> (refine ⟨_, rfl, ?_⟩; simp [hF0, hF1, hF2, hF3])

theorem execTemplateWithdrawn_next (t : Nat) (template : Nat) (s : State) :
    ∃ s', execTemplateWithdrawn t template s = .next s' ∧ s'.pending = s.pending ∧ s'.now = max s.now t ∧
    (Memory.wf s.mem = true → Memory.wf s'.mem = true) ∧ s'.fwMem = s.fwMem ∧ s'.tb = s.tb ∧
    s'.sheets = s.sheets ∧ s'.units = s.units ∧ s'.errw = s.errw ∧ s'.bulk = s.bulk ∧ s'.sec = s.sec ∧
    s'.therm = s.therm ∧ s'.streams = s.streams ∧ s'.ptpPorts = s.ptpPorts ∧ s'.ptp = s.ptp ∧
    s'.chans = s.chans ∧ s'.seqs = s.seqs ∧ s'.hc = s.hc ∧ s'.trim = s.trim ∧ s'.bundles = s.bundles ∧
    s'.slots = s.slots ∧ s'.wt = s.wt ∧ s'.pricks = s.pricks ∧ s'.order = s.order := by
  have hF0 := @State.advance_frame
  have hF1 := @State.dropTemplate_frame
  unfold execTemplateWithdrawn; dsimp only; (repeat' split) <;> (refine ⟨_, rfl, ?_⟩; simp +contextual [hF0, hF1])

theorem execQcCommit_next (h : Hdr) (pillow : Nat) (s : State) : ∃ s', execQcCommit h pillow s = .next s' ∧
    s'.pending = s.pending ∧ s'.now = max s.now h.t ∧ s'.mem = s.mem ∧ s'.fwMem = s.fwMem ∧ s'.tb = s.tb ∧
    s'.sheets = s.sheets ∧ s'.units = s.units ∧ s'.pins = s.pins ∧ s'.pk = s.pk ∧ s'.latches = s.latches ∧
    s'.errw = s.errw ∧ s'.bulk = s.bulk ∧ s'.power = s.power ∧ s'.therm = s.therm ∧ s'.ports = s.ports ∧
    s'.streams = s.streams ∧ s'.services = s.services ∧ s'.ptpPorts = s.ptpPorts ∧ s'.ptp = s.ptp ∧
    s'.chans = s.chans ∧ s'.seqs = s.seqs ∧ s'.hc = s.hc ∧ s'.trim = s.trim ∧ s'.bundles = s.bundles ∧
    s'.slots = s.slots ∧ s'.wt = s.wt ∧ s'.ms = s.ms ∧ s'.pricks = s.pricks ∧ s'.templates = s.templates ∧
    s'.jobs = s.jobs ∧ s'.order = s.order ∧ s'.free = s.free := by
  have hF0 := @State.refuse_frame
  have hF1 := @State.advance_frame
  have hF2 := @State.done_frame
  have hF3 := @State.qcCommit_frame
  have hF4 := @State.disarm_frame
  unfold execQcCommit hostCommand; dsimp only; split <;> (refine ⟨_, rfl, ?_⟩; simp [hF0, hF1, hF2, hF3, hF4])

/-! ## PicotPort -/

theorem execPulseEnd_next (t : Nat) (pin : Nat) (s : State) : ∃ s', execPulseEnd t pin s = .next s' ∧
    s'.pending = s.pending ∧ s'.now = max s.now t ∧ s'.mem = s.mem ∧ s'.fwMem = s.fwMem ∧ s'.tb = s.tb ∧
    s'.sheets = s.sheets ∧ s'.units = s.units ∧ s'.pk = s.pk ∧ s'.queues = s.queues ∧
    s'.latches = s.latches ∧ s'.errw = s.errw ∧ s'.sdio = s.sdio ∧ s'.bulk = s.bulk ∧ s'.mgmt = s.mgmt ∧
    s'.power = s.power ∧ s'.sec = s.sec ∧ s'.therm = s.therm ∧ s'.ports = s.ports ∧ s'.streams = s.streams ∧
    s'.services = s.services ∧ s'.ptpPorts = s.ptpPorts ∧ s'.ptp = s.ptp ∧ s'.chans = s.chans ∧
    s'.hc = s.hc ∧ s'.trim = s.trim ∧ s'.bundles = s.bundles ∧ s'.slots = s.slots ∧ s'.wt = s.wt ∧
    s'.ms = s.ms ∧ s'.pricks = s.pricks ∧ s'.templates = s.templates ∧ s'.jobs = s.jobs ∧
    s'.order = s.order ∧ s'.pillows = s.pillows ∧ s'.free = s.free := by
  have hF0 := @State.advance_frame
  have hF1 := @State.hcEdge_frame
  have hF2 := @State.setPin_frame
  unfold execPulseEnd; dsimp only; (repeat' split) <;> (refine ⟨_, rfl, ?_⟩; simp [hF0, hF1, hF2])

theorem execThreadTriggerEdge_next (t : Nat) (pin : Nat) (rising : Bool) (s : State) :
    ∃ s', execThreadTriggerEdge t pin rising s = .next s' ∧ s'.pending = s.pending ∧ s'.now = max s.now t ∧
    s'.mem = s.mem ∧ s'.fwMem = s.fwMem ∧ s'.tb = s.tb ∧ s'.units = s.units ∧ s'.pk = s.pk ∧
    s'.queues = s.queues ∧ s'.latches = s.latches ∧ s'.errw = s.errw ∧ s'.sdio = s.sdio ∧ s'.bulk = s.bulk ∧
    s'.mgmt = s.mgmt ∧ s'.power = s.power ∧ s'.sec = s.sec ∧ s'.therm = s.therm ∧ s'.ports = s.ports ∧
    s'.streams = s.streams ∧ s'.services = s.services ∧ s'.ptpPorts = s.ptpPorts ∧ s'.ptp = s.ptp ∧
    s'.chans = s.chans ∧ s'.hc = s.hc ∧ s'.trim = s.trim ∧ s'.bundles = s.bundles ∧ s'.slots = s.slots ∧
    s'.wt = s.wt ∧ s'.ms = s.ms ∧ s'.pricks = s.pricks ∧ s'.templates = s.templates ∧ s'.jobs = s.jobs ∧
    s'.order = s.order ∧ s'.pillows = s.pillows ∧ s'.free = s.free := by
  have hF0 := @State.advance_frame
  have hF1 := @State.setPin_frame
  have hF2 := @State.hcEdge_frame
  unfold execThreadTriggerEdge; (refine ⟨_, rfl, ?_⟩; simp [hF0, hF1, hF2])

theorem execThrowBurstEnd_next (t : Nat) (s : State) : ∃ s', execThrowBurstEnd t s = .next s' ∧
    s'.pending = s.pending ∧ s'.now = max s.now t ∧ (Memory.wf s.mem = true → Memory.wf s'.mem = true) ∧
    s'.fwMem = s.fwMem ∧ s'.tb = s.tb ∧ s'.sheets = s.sheets ∧ s'.units = s.units ∧ s'.pins = s.pins ∧
    s'.errw = s.errw ∧ s'.bulk = s.bulk ∧ s'.power = s.power ∧ s'.sec = s.sec ∧ s'.therm = s.therm ∧
    s'.streams = s.streams ∧ s'.services = s.services ∧ s'.ptpPorts = s.ptpPorts ∧ s'.ptp = s.ptp ∧
    s'.chans = s.chans ∧ s'.seqs = s.seqs ∧ s'.hc = s.hc ∧ s'.trim = s.trim ∧ s'.bundles = s.bundles ∧
    s'.slots = s.slots ∧ s'.wt = s.wt ∧ s'.pricks = s.pricks ∧ s'.templates = s.templates ∧
    s'.order = s.order := by
  have hF0 := @State.advance_frame
  unfold execThrowBurstEnd; dsimp only; (repeat' split) <;> (refine ⟨_, rfl, ?_⟩; simp +contextual [hF0])

theorem execPicotSlotEnd_next (t : Nat) (picked : Bytes) (s : State) :
    ∃ s', execPicotSlotEnd t picked s = .next s' ∧ s'.pending = s.pending ∧ s'.now = max s.now t ∧
    s'.mem = s.mem ∧ s'.fwMem = s.fwMem ∧ s'.tb = s.tb ∧ s'.sheets = s.sheets ∧ s'.queues = s.queues ∧
    s'.latches = s.latches ∧ s'.errw = s.errw ∧ s'.sdio = s.sdio ∧ s'.bulk = s.bulk ∧ s'.mgmt = s.mgmt ∧
    s'.power = s.power ∧ s'.sec = s.sec ∧ s'.therm = s.therm ∧ s'.ports = s.ports ∧ s'.streams = s.streams ∧
    s'.services = s.services ∧ s'.ptpPorts = s.ptpPorts ∧ s'.ptp = s.ptp ∧ s'.chans = s.chans ∧
    s'.hc = s.hc ∧ s'.trim = s.trim ∧ s'.bundles = s.bundles ∧ s'.slots = s.slots ∧ s'.wt = s.wt ∧
    s'.ms = s.ms ∧ s'.pricks = s.pricks ∧ s'.templates = s.templates ∧ s'.jobs = s.jobs ∧
    s'.order = s.order ∧ s'.pillows = s.pillows ∧ s'.free = s.free := by
  have hF0 := @State.advance_frame
  have hF1 := @State.pickUp_frame
  have hF2 := @State.throwBurst_frame
  have hF3 := @State.pkFrameEnd_frame
  unfold execPicotSlotEnd; dsimp only; (repeat' split) <;> (refine ⟨_, rfl, ?_⟩; simp [hF0, hF1, hF2, hF3])

theorem execPkConfigEnable_next (h : Hdr) (streams : BitVec 16) (origin : Nat) (s : State) :
    ∃ s', execPkConfigEnable h streams origin s = .next s' ∧ s'.pending = s.pending ∧
    s'.now = max s.now h.t ∧ s'.mem = s.mem ∧ s'.fwMem = s.fwMem ∧ s'.tb = s.tb ∧ s'.sheets = s.sheets ∧
    s'.pins = s.pins ∧ s'.latches = s.latches ∧ s'.errw = s.errw ∧ s'.bulk = s.bulk ∧ s'.sec = s.sec ∧
    s'.therm = s.therm ∧ s'.ports = s.ports ∧ s'.services = s.services ∧ s'.ptpPorts = s.ptpPorts ∧
    s'.ptp = s.ptp ∧ s'.chans = s.chans ∧ s'.seqs = s.seqs ∧ s'.hc = s.hc ∧ s'.trim = s.trim ∧
    s'.bundles = s.bundles ∧ s'.slots = s.slots ∧ s'.wt = s.wt ∧ s'.ms = s.ms ∧ s'.pricks = s.pricks ∧
    s'.templates = s.templates ∧ s'.jobs = s.jobs ∧ s'.order = s.order ∧ s'.pillows = s.pillows ∧
    s'.free = s.free := by
  have hF0 := @State.refuse_frame
  have hF1 := @State.advance_frame
  have hF2 := @pkEnableDo_frame
  unfold execPkConfigEnable hostCommand; dsimp only; split <;> (refine ⟨_, rfl, ?_⟩; simp [hF0, hF1, hF2])

theorem execPkConfigDisable_next (h : Hdr) (s : State) : ∃ s', execPkConfigDisable h s = .next s' ∧
    s'.pending = s.pending ∧ s'.now = max s.now h.t ∧ s'.mem = s.mem ∧ s'.fwMem = s.fwMem ∧ s'.tb = s.tb ∧
    s'.sheets = s.sheets ∧ s'.latches = s.latches ∧ s'.errw = s.errw ∧ s'.bulk = s.bulk ∧
    s'.power = s.power ∧ s'.sec = s.sec ∧ s'.therm = s.therm ∧ s'.ports = s.ports ∧ s'.streams = s.streams ∧
    s'.services = s.services ∧ s'.ptpPorts = s.ptpPorts ∧ s'.ptp = s.ptp ∧ s'.chans = s.chans ∧
    s'.hc = s.hc ∧ s'.trim = s.trim ∧ s'.bundles = s.bundles ∧ s'.slots = s.slots ∧ s'.wt = s.wt ∧
    s'.ms = s.ms ∧ s'.pricks = s.pricks ∧ s'.templates = s.templates ∧ s'.jobs = s.jobs ∧
    s'.order = s.order ∧ s'.pillows = s.pillows ∧ s'.free = s.free := by
  have hF0 := @State.refuse_frame
  have hF1 := @State.advance_frame
  have hF2 := @State.done_frame
  have hF3 := @State.pkStop_frame
  unfold execPkConfigDisable hostCommand; dsimp only; split <;> (refine ⟨_, rfl, ?_⟩; simp [hF0, hF1, hF2, hF3])

/-! ## Streams -/

theorem execStreamFrame_next (t : Nat) (port : Nat) (frame : Bytes) (s : State) :
    ∃ s', execStreamFrame t port frame s = .next s' ∧ s'.pending = s.pending ∧ s'.now = max s.now t ∧
    (Memory.wf s.mem = true → Memory.wf s'.mem = true) ∧ s'.fwMem = s.fwMem ∧ s'.sheets = s.sheets ∧
    s'.pins = s.pins ∧ s'.pk = s.pk ∧ s'.errw = s.errw ∧ s'.bulk = s.bulk ∧ s'.mgmt = s.mgmt ∧
    s'.power = s.power ∧ s'.sec = s.sec ∧ s'.therm = s.therm ∧ s'.services = s.services ∧
    s'.ptpPorts = s.ptpPorts ∧ s'.ptp = s.ptp ∧ s'.chans = s.chans ∧ s'.seqs = s.seqs ∧ s'.hc = s.hc ∧
    s'.trim = s.trim ∧ s'.bundles = s.bundles ∧ s'.slots = s.slots ∧ s'.wt = s.wt ∧ s'.pricks = s.pricks ∧
    s'.order = s.order := by
  have hF0 := @State.advance_frame
  have hF1 := @State.linePacket_frame
  have hF2 := @State.accepted_frame
  have hF3 := @State.discard_frame
  unfold execStreamFrame; dsimp only; (repeat' split) <;> (refine ⟨_, rfl, ?_⟩; simp +contextual [hF0, hF1, hF2, hF3])

theorem execStreamOpen_next (h : Hdr) (p : StreamOpenParams) (s : State) :
    ∃ s', execStreamOpen h p s = .next s' ∧ s'.pending = s.pending ∧ s'.now = max s.now h.t ∧
    s'.mem = s.mem ∧ s'.fwMem = s.fwMem ∧ s'.tb = s.tb ∧ s'.sheets = s.sheets ∧ s'.units = s.units ∧
    s'.pins = s.pins ∧ s'.pk = s.pk ∧ s'.latches = s.latches ∧ s'.errw = s.errw ∧ s'.bulk = s.bulk ∧
    s'.power = s.power ∧ s'.sec = s.sec ∧ s'.therm = s.therm ∧ s'.services = s.services ∧
    s'.ptpPorts = s.ptpPorts ∧ s'.ptp = s.ptp ∧ s'.chans = s.chans ∧ s'.seqs = s.seqs ∧ s'.hc = s.hc ∧
    s'.trim = s.trim ∧ s'.bundles = s.bundles ∧ s'.slots = s.slots ∧ s'.wt = s.wt ∧ s'.ms = s.ms ∧
    s'.pricks = s.pricks ∧ s'.templates = s.templates ∧ s'.jobs = s.jobs ∧ s'.order = s.order ∧
    s'.pillows = s.pillows ∧ s'.free = s.free := by
  have hF0 := @State.refuse_frame
  have hF1 := @State.advance_frame
  have hF2 := @streamOpenDo_frame
  unfold execStreamOpen hostCommand; dsimp only; split <;> (refine ⟨_, rfl, ?_⟩; simp [hF0, hF1, hF2])

theorem execStreamClose_next (h : Hdr) (stream : Nat) (s : State) :
    ∃ s', execStreamClose h stream s = .next s' ∧ s'.pending = s.pending ∧ s'.now = max s.now h.t ∧
    s'.mem = s.mem ∧ s'.fwMem = s.fwMem ∧ s'.tb = s.tb ∧ s'.sheets = s.sheets ∧ s'.units = s.units ∧
    s'.pins = s.pins ∧ s'.pk = s.pk ∧ s'.latches = s.latches ∧ s'.errw = s.errw ∧ s'.bulk = s.bulk ∧
    s'.power = s.power ∧ s'.sec = s.sec ∧ s'.therm = s.therm ∧ s'.ports = s.ports ∧
    s'.services = s.services ∧ s'.ptpPorts = s.ptpPorts ∧ s'.ptp = s.ptp ∧ s'.chans = s.chans ∧
    s'.seqs = s.seqs ∧ s'.hc = s.hc ∧ s'.trim = s.trim ∧ s'.bundles = s.bundles ∧ s'.slots = s.slots ∧
    s'.wt = s.wt ∧ s'.ms = s.ms ∧ s'.pricks = s.pricks ∧ s'.templates = s.templates ∧ s'.jobs = s.jobs ∧
    s'.order = s.order ∧ s'.pillows = s.pillows ∧ s'.free = s.free := by
  have hF0 := @State.refuse_frame
  have hF1 := @State.advance_frame
  have hF2 := @State.release_frame
  have hF3 := @State.modStream_frame
  unfold execStreamClose hostCommand; dsimp only; split <;> (refine ⟨_, rfl, ?_⟩; simp [hF0, hF1, hF2, hF3])

theorem execStreamCloseEffect_next (t : Nat) (stream : Nat) (s : State) :
    ∃ s', execStreamCloseEffect t stream s = .next s' ∧ s'.pending = s.pending ∧ s'.now = max s.now t ∧
    s'.mem = s.mem ∧ s'.fwMem = s.fwMem ∧ s'.tb = s.tb ∧ s'.sheets = s.sheets ∧ s'.units = s.units ∧
    s'.pins = s.pins ∧ s'.pk = s.pk ∧ s'.latches = s.latches ∧ s'.errw = s.errw ∧ s'.bulk = s.bulk ∧
    s'.power = s.power ∧ s'.sec = s.sec ∧ s'.therm = s.therm ∧ s'.services = s.services ∧
    s'.ptpPorts = s.ptpPorts ∧ s'.ptp = s.ptp ∧ s'.chans = s.chans ∧ s'.seqs = s.seqs ∧ s'.hc = s.hc ∧
    s'.trim = s.trim ∧ s'.bundles = s.bundles ∧ s'.slots = s.slots ∧ s'.wt = s.wt ∧ s'.ms = s.ms ∧
    s'.pricks = s.pricks ∧ s'.templates = s.templates ∧ s'.jobs = s.jobs ∧ s'.order = s.order ∧
    s'.pillows = s.pillows ∧ s'.free = s.free := by
  have hF0 := @State.advance_frame
  have hF1 := @State.done_frame
  have hF2 := @State.setStream_frame
  have hF3 := @State.modPort_frame
  unfold execStreamCloseEffect
  dsimp only
  refine ⟨_, rfl, ?_⟩
  split
  · generalize (State.stream (State.advance t s) stream).primary :: (State.stream (State.advance t s) stream).secondary.toList = l
    split <;> simp [hF0, hF1, hF2, hF3]
  · simp [hF0]

theorem execLinkDown_next (t : Nat) (e : LinkEvent) (s : State) : ∃ s', execLinkDown t e s = .next s' ∧
    s'.pending = s.pending ∧ s'.now = max s.now t ∧ s'.mem = s.mem ∧ s'.fwMem = s.fwMem ∧ s'.tb = s.tb ∧
    s'.sheets = s.sheets ∧ s'.units = s.units ∧ s'.pins = s.pins ∧ s'.pk = s.pk ∧ s'.errw = s.errw ∧
    s'.bulk = s.bulk ∧ s'.mgmt = s.mgmt ∧ s'.power = s.power ∧ s'.sec = s.sec ∧ s'.therm = s.therm ∧
    s'.streams = s.streams ∧ s'.services = s.services ∧ s'.ptpPorts = s.ptpPorts ∧ s'.ptp = s.ptp ∧
    s'.chans = s.chans ∧ s'.seqs = s.seqs ∧ s'.hc = s.hc ∧ s'.trim = s.trim ∧ s'.bundles = s.bundles ∧
    s'.slots = s.slots ∧ s'.wt = s.wt ∧ s'.ms = s.ms ∧ s'.pricks = s.pricks ∧ s'.templates = s.templates ∧
    s'.jobs = s.jobs ∧ s'.order = s.order ∧ s'.pillows = s.pillows ∧ s'.free = s.free := by
  have hF0 := @State.report_frame
  have hF1 := @State.setPort_frame
  have hF2 := @State.advance_frame
  unfold execLinkDown; (refine ⟨_, rfl, ?_⟩; simp [hF0, hF1, hF2])

theorem execLinkUp_next (t : Nat) (e : LinkEvent) (s : State) : ∃ s', execLinkUp t e s = .next s' ∧
    s'.pending = s.pending ∧ s'.now = max s.now t ∧ s'.mem = s.mem ∧ s'.fwMem = s.fwMem ∧ s'.tb = s.tb ∧
    s'.sheets = s.sheets ∧ s'.units = s.units ∧ s'.pins = s.pins ∧ s'.pk = s.pk ∧ s'.queues = s.queues ∧
    s'.latches = s.latches ∧ s'.errw = s.errw ∧ s'.sdio = s.sdio ∧ s'.bulk = s.bulk ∧ s'.mgmt = s.mgmt ∧
    s'.power = s.power ∧ s'.sec = s.sec ∧ s'.therm = s.therm ∧ s'.streams = s.streams ∧
    s'.services = s.services ∧ s'.ptpPorts = s.ptpPorts ∧ s'.ptp = s.ptp ∧ s'.chans = s.chans ∧
    s'.seqs = s.seqs ∧ s'.hc = s.hc ∧ s'.trim = s.trim ∧ s'.bundles = s.bundles ∧ s'.slots = s.slots ∧
    s'.wt = s.wt ∧ s'.ms = s.ms ∧ s'.pricks = s.pricks ∧ s'.templates = s.templates ∧ s'.jobs = s.jobs ∧
    s'.order = s.order ∧ s'.pillows = s.pillows ∧ s'.free = s.free := by
  have hF0 := @State.modPort_frame
  have hF1 := @State.advance_frame
  unfold execLinkUp; (refine ⟨_, rfl, ?_⟩; simp [hF0, hF1])

/-! ## Ethernet -/

theorem execFrameTransmitEnd_next (t : Nat) (sp : Nat) (s : State) :
    ∃ s', execFrameTransmitEnd t sp s = .next s' ∧ s'.pending = s.pending ∧ s'.now = max s.now t ∧
    s'.mem = s.mem ∧ s'.fwMem = s.fwMem ∧ s'.tb = s.tb ∧ s'.sheets = s.sheets ∧ s'.units = s.units ∧
    s'.pins = s.pins ∧ s'.pk = s.pk ∧ s'.queues = s.queues ∧ s'.latches = s.latches ∧ s'.errw = s.errw ∧
    s'.sdio = s.sdio ∧ s'.bulk = s.bulk ∧ s'.mgmt = s.mgmt ∧ s'.power = s.power ∧ s'.sec = s.sec ∧
    s'.therm = s.therm ∧ s'.streams = s.streams ∧ s'.ptpPorts = s.ptpPorts ∧ s'.chans = s.chans ∧
    s'.seqs = s.seqs ∧ s'.hc = s.hc ∧ s'.trim = s.trim ∧ s'.bundles = s.bundles ∧ s'.slots = s.slots ∧
    s'.wt = s.wt ∧ s'.ms = s.ms ∧ s'.pricks = s.pricks ∧ s'.templates = s.templates ∧ s'.jobs = s.jobs ∧
    s'.order = s.order ∧ s'.pillows = s.pillows ∧ s'.free = s.free := by
  have hF0 := @State.egress_frame
  have hF1 := @State.modPort_frame
  have hF2 := @State.modService_frame
  have hF3 := @State.advance_frame
  unfold execFrameTransmitEnd; (refine ⟨_, rfl, ?_⟩; simp [hF0, hF1, hF2, hF3])

theorem execGateEntryChange_next (t : Nat) (sp : Nat) (s : State) :
    ∃ s', execGateEntryChange t sp s = .next s' ∧ s'.pending = s.pending ∧ s'.now = max s.now t ∧
    s'.mem = s.mem ∧ s'.fwMem = s.fwMem ∧ s'.tb = s.tb ∧ s'.sheets = s.sheets ∧ s'.units = s.units ∧
    s'.pins = s.pins ∧ s'.pk = s.pk ∧ s'.queues = s.queues ∧ s'.latches = s.latches ∧ s'.errw = s.errw ∧
    s'.sdio = s.sdio ∧ s'.bulk = s.bulk ∧ s'.mgmt = s.mgmt ∧ s'.power = s.power ∧ s'.sec = s.sec ∧
    s'.therm = s.therm ∧ s'.ports = s.ports ∧ s'.streams = s.streams ∧ s'.ptpPorts = s.ptpPorts ∧
    s'.chans = s.chans ∧ s'.seqs = s.seqs ∧ s'.hc = s.hc ∧ s'.trim = s.trim ∧ s'.bundles = s.bundles ∧
    s'.slots = s.slots ∧ s'.wt = s.wt ∧ s'.ms = s.ms ∧ s'.pricks = s.pricks ∧ s'.templates = s.templates ∧
    s'.jobs = s.jobs ∧ s'.order = s.order ∧ s'.pillows = s.pillows ∧ s'.free = s.free := by
  have hF0 := @State.egress_frame
  have hF1 := @State.advance_frame
  unfold execGateEntryChange; (refine ⟨_, rfl, ?_⟩; simp [hF0, hF1])

theorem execPortConfigLink_next (h : Hdr) (p : LinkParams) (s : State) :
    ∃ s', execPortConfigLink h p s = .next s' ∧ s'.pending = s.pending ∧ s'.now = max s.now h.t ∧
    s'.mem = s.mem ∧ s'.fwMem = s.fwMem ∧ s'.tb = s.tb ∧ s'.sheets = s.sheets ∧ s'.units = s.units ∧
    s'.pins = s.pins ∧ s'.pk = s.pk ∧ s'.errw = s.errw ∧ s'.bulk = s.bulk ∧ s'.sec = s.sec ∧
    s'.therm = s.therm ∧ s'.streams = s.streams ∧ s'.services = s.services ∧ s'.chans = s.chans ∧
    s'.seqs = s.seqs ∧ s'.hc = s.hc ∧ s'.trim = s.trim ∧ s'.bundles = s.bundles ∧ s'.slots = s.slots ∧
    s'.wt = s.wt ∧ s'.ms = s.ms ∧ s'.pricks = s.pricks ∧ s'.templates = s.templates ∧ s'.jobs = s.jobs ∧
    s'.order = s.order ∧ s'.pillows = s.pillows ∧ s'.free = s.free := by
  have hF0 := @State.refuse_frame
  have hF1 := @State.advance_frame
  have hF2 := @linkDo_frame
  unfold execPortConfigLink hostCommand; dsimp only; split <;> (refine ⟨_, rfl, ?_⟩; simp [hF0, hF1, hF2])

theorem execPortConfigService_next (h : Hdr) (p : ServiceParams) (s : State) :
    ∃ s', execPortConfigService h p s = .next s' ∧ s'.pending = s.pending ∧ s'.now = max s.now h.t ∧
    s'.mem = s.mem ∧ s'.fwMem = s.fwMem ∧ s'.tb = s.tb ∧ s'.sheets = s.sheets ∧ s'.units = s.units ∧
    s'.pins = s.pins ∧ s'.pk = s.pk ∧ s'.latches = s.latches ∧ s'.errw = s.errw ∧ s'.bulk = s.bulk ∧
    s'.power = s.power ∧ s'.sec = s.sec ∧ s'.therm = s.therm ∧ s'.ports = s.ports ∧ s'.streams = s.streams ∧
    s'.ptpPorts = s.ptpPorts ∧ s'.chans = s.chans ∧ s'.seqs = s.seqs ∧ s'.hc = s.hc ∧ s'.trim = s.trim ∧
    s'.bundles = s.bundles ∧ s'.slots = s.slots ∧ s'.wt = s.wt ∧ s'.ms = s.ms ∧ s'.pricks = s.pricks ∧
    s'.templates = s.templates ∧ s'.jobs = s.jobs ∧ s'.order = s.order ∧ s'.pillows = s.pillows ∧
    s'.free = s.free := by
  have hF0 := @State.refuse_frame
  have hF1 := @State.advance_frame
  have hF2 := @State.done_frame
  have hF3 := @State.egress_frame
  have hF4 := @State.modService_frame
  unfold execPortConfigService hostCommand; dsimp only; split <;> (refine ⟨_, rfl, ?_⟩; simp [hF0, hF1, hF2, hF3, hF4])

theorem execPortConfigGates_next (h : Hdr) (p : GatesParams) (s : State) :
    ∃ s', execPortConfigGates h p s = .next s' ∧ s'.pending = s.pending ∧ s'.now = max s.now h.t ∧
    s'.mem = s.mem ∧ s'.fwMem = s.fwMem ∧ s'.tb = s.tb ∧ s'.sheets = s.sheets ∧ s'.units = s.units ∧
    s'.pins = s.pins ∧ s'.pk = s.pk ∧ s'.latches = s.latches ∧ s'.errw = s.errw ∧ s'.bulk = s.bulk ∧
    s'.power = s.power ∧ s'.sec = s.sec ∧ s'.therm = s.therm ∧ s'.ports = s.ports ∧ s'.streams = s.streams ∧
    s'.ptpPorts = s.ptpPorts ∧ s'.chans = s.chans ∧ s'.seqs = s.seqs ∧ s'.hc = s.hc ∧ s'.trim = s.trim ∧
    s'.bundles = s.bundles ∧ s'.slots = s.slots ∧ s'.wt = s.wt ∧ s'.ms = s.ms ∧ s'.pricks = s.pricks ∧
    s'.templates = s.templates ∧ s'.jobs = s.jobs ∧ s'.order = s.order ∧ s'.pillows = s.pillows ∧
    s'.free = s.free := by
  have hF0 := @State.refuse_frame
  have hF1 := @State.advance_frame
  have hF2 := @gatesDo_frame
  unfold execPortConfigGates hostCommand; dsimp only; split <;> (refine ⟨_, rfl, ?_⟩; simp [hF0, hF1, hF2])

theorem execArpRequest_next (t : Nat) (port : Nat) (frame : Bytes) (s : State) :
    ∃ s', execArpRequest t port frame s = .next s' ∧ s'.pending = s.pending ∧ s'.now = max s.now t ∧
    s'.mem = s.mem ∧ s'.fwMem = s.fwMem ∧ s'.tb = s.tb ∧ s'.sheets = s.sheets ∧ s'.units = s.units ∧
    s'.pins = s.pins ∧ s'.pk = s.pk ∧ s'.queues = s.queues ∧ s'.latches = s.latches ∧ s'.errw = s.errw ∧
    s'.sdio = s.sdio ∧ s'.bulk = s.bulk ∧ s'.mgmt = s.mgmt ∧ s'.power = s.power ∧ s'.sec = s.sec ∧
    s'.therm = s.therm ∧ s'.streams = s.streams ∧ s'.ptpPorts = s.ptpPorts ∧ s'.chans = s.chans ∧
    s'.seqs = s.seqs ∧ s'.hc = s.hc ∧ s'.trim = s.trim ∧ s'.bundles = s.bundles ∧ s'.slots = s.slots ∧
    s'.wt = s.wt ∧ s'.ms = s.ms ∧ s'.pricks = s.pricks ∧ s'.templates = s.templates ∧ s'.jobs = s.jobs ∧
    s'.order = s.order ∧ s'.pillows = s.pillows ∧ s'.free = s.free := by
  have hF0 := @State.advance_frame
  have hF1 := @State.discard_frame
  have hF2 := @State.queueReply_frame
  have hF3 := @State.accepted_frame
  unfold execArpRequest; dsimp only; (repeat' split) <;> (refine ⟨_, rfl, ?_⟩; simp [hF0, hF1, hF2, hF3])

theorem execIcmpEcho_next (t : Nat) (port : Nat) (frame : Bytes) (s : State) :
    ∃ s', execIcmpEcho t port frame s = .next s' ∧ s'.pending = s.pending ∧ s'.now = max s.now t ∧
    s'.mem = s.mem ∧ s'.fwMem = s.fwMem ∧ s'.tb = s.tb ∧ s'.sheets = s.sheets ∧ s'.units = s.units ∧
    s'.pins = s.pins ∧ s'.pk = s.pk ∧ s'.queues = s.queues ∧ s'.latches = s.latches ∧ s'.errw = s.errw ∧
    s'.sdio = s.sdio ∧ s'.bulk = s.bulk ∧ s'.mgmt = s.mgmt ∧ s'.power = s.power ∧ s'.sec = s.sec ∧
    s'.therm = s.therm ∧ s'.streams = s.streams ∧ s'.ptpPorts = s.ptpPorts ∧ s'.chans = s.chans ∧
    s'.seqs = s.seqs ∧ s'.hc = s.hc ∧ s'.trim = s.trim ∧ s'.bundles = s.bundles ∧ s'.slots = s.slots ∧
    s'.wt = s.wt ∧ s'.ms = s.ms ∧ s'.pricks = s.pricks ∧ s'.templates = s.templates ∧ s'.jobs = s.jobs ∧
    s'.order = s.order ∧ s'.pillows = s.pillows ∧ s'.free = s.free := by
  have hF0 := @State.advance_frame
  have hF1 := @State.discard_frame
  have hF2 := @State.queueReply_frame
  have hF3 := @State.modPort_frame
  have hF4 := @State.accepted_frame
  unfold execIcmpEcho; dsimp only; (repeat' split) <;> (refine ⟨_, rfl, ?_⟩; simp [hF0, hF1, hF2, hF3, hF4])

theorem execRasterPacket_next (t : Nat) (port : Nat) (frame : Bytes) (s : State) :
    ∃ s', execRasterPacket t port frame s = .next s' ∧ s'.pending = s.pending ∧ s'.now = max s.now t ∧
    (Memory.wf s.mem = true → Memory.wf s'.mem = true) ∧ s'.fwMem = s.fwMem ∧ s'.tb = s.tb ∧
    s'.sheets = s.sheets ∧ s'.units = s.units ∧ s'.pins = s.pins ∧ s'.pk = s.pk ∧ s'.errw = s.errw ∧
    s'.bulk = s.bulk ∧ s'.mgmt = s.mgmt ∧ s'.power = s.power ∧ s'.sec = s.sec ∧ s'.therm = s.therm ∧
    s'.streams = s.streams ∧ s'.ptpPorts = s.ptpPorts ∧ s'.ptp = s.ptp ∧ s'.chans = s.chans ∧
    s'.seqs = s.seqs ∧ s'.hc = s.hc ∧ s'.trim = s.trim ∧ s'.bundles = s.bundles ∧ s'.slots = s.slots ∧
    s'.wt = s.wt ∧ s'.pricks = s.pricks ∧ s'.templates = s.templates ∧ s'.order = s.order ∧
    s'.free = s.free := by
  have hF0 := @State.advance_frame
  have hF1 := @State.discard_frame
  have hF2 := @State.takeRaster_frame
  have hF3 := @State.accepted_frame
  unfold execRasterPacket; dsimp only; (repeat' split) <;> (refine ⟨_, rfl, ?_⟩; simp +contextual [hF0, hF1, hF2, hF3])

theorem execPtpMessage_next (t : Nat) (port : Nat) (frame : Bytes) (s : State) :
    ∃ s', execPtpMessage t port frame s = .next s' ∧ s'.pending = s.pending ∧ s'.now = max s.now t ∧
    s'.mem = s.mem ∧ s'.fwMem = s.fwMem ∧ s'.tb = s.tb ∧ s'.sheets = s.sheets ∧ s'.units = s.units ∧
    s'.pins = s.pins ∧ s'.pk = s.pk ∧ s'.errw = s.errw ∧ s'.bulk = s.bulk ∧ s'.mgmt = s.mgmt ∧
    s'.power = s.power ∧ s'.sec = s.sec ∧ s'.therm = s.therm ∧ s'.streams = s.streams ∧
    s'.services = s.services ∧ s'.chans = s.chans ∧ s'.seqs = s.seqs ∧ s'.hc = s.hc ∧ s'.trim = s.trim ∧
    s'.bundles = s.bundles ∧ s'.slots = s.slots ∧ s'.wt = s.wt ∧ s'.ms = s.ms ∧ s'.pricks = s.pricks ∧
    s'.templates = s.templates ∧ s'.jobs = s.jobs ∧ s'.order = s.order ∧ s'.pillows = s.pillows ∧
    s'.free = s.free := by
  have hF0 := @State.advance_frame
  have hF1 := @State.discard_frame
  have hF2 := @State.accepted_frame
  have hF3 := @State.ptpTake_frame
  unfold execPtpMessage; dsimp only; (repeat' split) <;> (refine ⟨_, rfl, ?_⟩; simp [hF0, hF1, hF2, hF3])

theorem execDelayReq_next (t : Nat) (port : Nat) (s : State) : ∃ s', execDelayReq t port s = .next s' ∧
    s'.pending = s.pending ∧ s'.now = max s.now t ∧ s'.mem = s.mem ∧ s'.fwMem = s.fwMem ∧ s'.tb = s.tb ∧
    s'.sheets = s.sheets ∧ s'.units = s.units ∧ s'.pins = s.pins ∧ s'.pk = s.pk ∧ s'.queues = s.queues ∧
    s'.latches = s.latches ∧ s'.errw = s.errw ∧ s'.sdio = s.sdio ∧ s'.bulk = s.bulk ∧ s'.mgmt = s.mgmt ∧
    s'.power = s.power ∧ s'.sec = s.sec ∧ s'.therm = s.therm ∧ s'.ports = s.ports ∧ s'.streams = s.streams ∧
    s'.ptpPorts = s.ptpPorts ∧ s'.chans = s.chans ∧ s'.seqs = s.seqs ∧ s'.hc = s.hc ∧ s'.trim = s.trim ∧
    s'.bundles = s.bundles ∧ s'.slots = s.slots ∧ s'.wt = s.wt ∧ s'.ms = s.ms ∧ s'.pricks = s.pricks ∧
    s'.templates = s.templates ∧ s'.jobs = s.jobs ∧ s'.order = s.order ∧ s'.pillows = s.pillows ∧
    s'.free = s.free := by
  have hF0 := @State.advance_frame
  have hF1 := @State.queueReply_frame
  unfold execDelayReq; (refine ⟨_, rfl, ?_⟩; simp [hF0, hF1])

theorem execPtpSyncTimeout_next (t : Nat) (s : State) : ∃ s', execPtpSyncTimeout t s = .next s' ∧
    s'.pending = s.pending ∧ s'.now = max s.now t ∧ s'.mem = s.mem ∧ s'.fwMem = s.fwMem ∧ s'.tb = s.tb ∧
    s'.sheets = s.sheets ∧ s'.units = s.units ∧ s'.pins = s.pins ∧ s'.pk = s.pk ∧ s'.errw = s.errw ∧
    s'.bulk = s.bulk ∧ s'.mgmt = s.mgmt ∧ s'.power = s.power ∧ s'.sec = s.sec ∧ s'.therm = s.therm ∧
    s'.ports = s.ports ∧ s'.streams = s.streams ∧ s'.services = s.services ∧ s'.ptpPorts = s.ptpPorts ∧
    s'.chans = s.chans ∧ s'.seqs = s.seqs ∧ s'.hc = s.hc ∧ s'.trim = s.trim ∧ s'.bundles = s.bundles ∧
    s'.slots = s.slots ∧ s'.wt = s.wt ∧ s'.ms = s.ms ∧ s'.pricks = s.pricks ∧ s'.templates = s.templates ∧
    s'.jobs = s.jobs ∧ s'.order = s.order ∧ s'.pillows = s.pillows ∧ s'.free = s.free := by
  have hF0 := @State.advance_frame
  have hF1 := @State.ptpUnlock_frame
  unfold execPtpSyncTimeout; (refine ⟨_, rfl, ?_⟩; simp [hF0, hF1])

theorem execPtpMasterLost_next (t : Nat) (s : State) : ∃ s', execPtpMasterLost t s = .next s' ∧
    s'.pending = s.pending ∧ s'.now = max s.now t ∧ s'.mem = s.mem ∧ s'.fwMem = s.fwMem ∧ s'.tb = s.tb ∧
    s'.sheets = s.sheets ∧ s'.units = s.units ∧ s'.pins = s.pins ∧ s'.pk = s.pk ∧ s'.queues = s.queues ∧
    s'.latches = s.latches ∧ s'.errw = s.errw ∧ s'.sdio = s.sdio ∧ s'.bulk = s.bulk ∧ s'.mgmt = s.mgmt ∧
    s'.power = s.power ∧ s'.sec = s.sec ∧ s'.therm = s.therm ∧ s'.ports = s.ports ∧ s'.streams = s.streams ∧
    s'.services = s.services ∧ s'.chans = s.chans ∧ s'.seqs = s.seqs ∧ s'.hc = s.hc ∧ s'.trim = s.trim ∧
    s'.bundles = s.bundles ∧ s'.slots = s.slots ∧ s'.wt = s.wt ∧ s'.ms = s.ms ∧ s'.pricks = s.pricks ∧
    s'.templates = s.templates ∧ s'.jobs = s.jobs ∧ s'.order = s.order ∧ s'.pillows = s.pillows ∧
    s'.free = s.free := by
  have hF0 := @State.advance_frame
  have hF1 := @State.compareMasters_frame
  have hF2 := @State.modPtpPort_frame
  unfold execPtpMasterLost; dsimp only; (repeat' split) <;> (refine ⟨_, rfl, ?_⟩; simp [hF0, hF1, hF2])

/-! ## Thermal -/

theorem execThermalReading_next (t : Nat) (die : List Int) (hbm : List Int) (s : State) :
    ∃ s', execThermalReading t die hbm s = .next s' ∧ s'.pending = s.pending ∧ s'.now = max s.now t ∧
    (Memory.wf s.mem = true → Memory.wf s'.mem = true) ∧ s'.fwMem = s.fwMem ∧ s'.tb = s.tb ∧
    s'.sheets = s.sheets ∧ s'.units = s.units ∧ s'.errw = s.errw ∧ s'.bulk = s.bulk ∧ s'.sec = s.sec ∧
    s'.streams = s.streams ∧ s'.ptpPorts = s.ptpPorts ∧ s'.ptp = s.ptp ∧ s'.chans = s.chans ∧
    s'.seqs = s.seqs ∧ s'.hc = s.hc ∧ s'.trim = s.trim ∧ s'.bundles = s.bundles ∧ s'.slots = s.slots ∧
    s'.wt = s.wt ∧ s'.pricks = s.pricks ∧ s'.templates = s.templates ∧ s'.order = s.order := by
  have hF0 := @State.advance_frame
  have hF1 := @State.report_frame
  have hF2 := @State.scrubTime_frame
  have hF3 := @State.settlePillows_frame
  have hF4 := @State.stepTime_frame
  unfold execThermalReading; dsimp only; (repeat' split) <;> (refine ⟨_, rfl, ?_⟩; simp +contextual [hF0, hF1, hF2, hF3, hF4])

theorem execThrottleStepFall_next (t : Nat) (s : State) : ∃ s', execThrottleStepFall t s = .next s' ∧
    s'.pending = s.pending ∧ s'.now = max s.now t ∧ (Memory.wf s.mem = true → Memory.wf s'.mem = true) ∧
    s'.fwMem = s.fwMem ∧ s'.tb = s.tb ∧ s'.sheets = s.sheets ∧ s'.units = s.units ∧ s'.errw = s.errw ∧
    s'.bulk = s.bulk ∧ s'.sec = s.sec ∧ s'.streams = s.streams ∧ s'.ptpPorts = s.ptpPorts ∧ s'.ptp = s.ptp ∧
    s'.chans = s.chans ∧ s'.seqs = s.seqs ∧ s'.hc = s.hc ∧ s'.trim = s.trim ∧ s'.bundles = s.bundles ∧
    s'.slots = s.slots ∧ s'.wt = s.wt ∧ s'.pricks = s.pricks ∧ s'.templates = s.templates ∧
    s'.order = s.order := by
  have hF0 := @State.advance_frame
  have hF1 := @State.scrubTime_frame
  have hF2 := @State.stepTime_frame
  have hF3 := @State.settlePillows_frame
  unfold execThrottleStepFall; dsimp only; (repeat' split) <;> (refine ⟨_, rfl, ?_⟩; simp +contextual [hF0, hF1, hF2, hF3])

theorem execThermalTrip_next (t : Nat) (s : State) : ∃ s', execThermalTrip t s = .next s' ∧
    s'.pending = s.pending ∧ s'.now = max s.now t ∧ (Memory.wf s.mem = true → Memory.wf s'.mem = true) ∧
    (Memory.wf s.fwMem = true → Memory.wf s'.fwMem = true) := by
  have hF0 := @State.advance_frame
  have hF1 := @State.intoReset_frame
  unfold execThermalTrip; dsimp only; (repeat' split) <;> (refine ⟨_, rfl, ?_⟩; simp +contextual [hF0, hF1])

theorem execThermalTripEnd_next (t : Nat) (s : State) : ∃ s', execThermalTripEnd t s = .next s' ∧
    s'.pending = s.pending ∧ s'.now = max s.now t ∧ s'.mem = s.mem ∧ s'.fwMem = s.fwMem ∧ s'.tb = s.tb ∧
    s'.sheets = s.sheets ∧ s'.units = s.units ∧ s'.pins = s.pins ∧ s'.pk = s.pk ∧ s'.queues = s.queues ∧
    s'.latches = s.latches ∧ s'.errw = s.errw ∧ s'.sdio = s.sdio ∧ s'.bulk = s.bulk ∧ s'.power = s.power ∧
    s'.sec = s.sec ∧ s'.therm = s.therm ∧ s'.ports = s.ports ∧ s'.streams = s.streams ∧
    s'.services = s.services ∧ s'.ptpPorts = s.ptpPorts ∧ s'.ptp = s.ptp ∧ s'.chans = s.chans ∧
    s'.seqs = s.seqs ∧ s'.hc = s.hc ∧ s'.trim = s.trim ∧ s'.bundles = s.bundles ∧ s'.slots = s.slots ∧
    s'.wt = s.wt ∧ s'.pricks = s.pricks ∧ s'.templates = s.templates ∧ s'.jobs = s.jobs ∧
    s'.order = s.order ∧ s'.pillows = s.pillows ∧ s'.free = s.free := by
  have hF0 := @State.advance_frame
  have hF1 := @State.endReset_frame
  unfold execThermalTripEnd; (refine ⟨_, rfl, ?_⟩; simp [hF0, hF1])

/-! ## Integrity -/

theorem execMarchRunEnd_next (t : Nat) (fails : List Nat) (s : State) :
    ∃ s', execMarchRunEnd t fails s = .next s' ∧ s'.pending = s.pending ∧ s'.now = max s.now t ∧
    (Memory.wf s.mem = true → Memory.wf s'.mem = true) ∧ s'.fwMem = s.fwMem ∧ s'.tb = s.tb ∧
    s'.sheets = s.sheets ∧ s'.units = s.units ∧ s'.errw = s.errw ∧ s'.bulk = s.bulk ∧ s'.sec = s.sec ∧
    s'.therm = s.therm ∧ s'.streams = s.streams ∧ s'.ptpPorts = s.ptpPorts ∧ s'.ptp = s.ptp ∧
    s'.chans = s.chans ∧ s'.seqs = s.seqs ∧ s'.hc = s.hc ∧ s'.trim = s.trim ∧ s'.bundles = s.bundles ∧
    s'.slots = s.slots ∧ s'.wt = s.wt ∧ s'.pricks = s.pricks ∧ s'.templates = s.templates ∧
    s'.order = s.order := by
  have hF0 := @State.advance_frame
  have hF1 := @State.marchEnd_frame
  unfold execMarchRunEnd; dsimp only; (repeat' split) <;> (refine ⟨_, rfl, ?_⟩; simp +contextual [hF0, hF1])

theorem execSramScrub_next (t : Nat) (mem : MemKind) (pillow : Nat) (addr : Nat) (ecc : Ecc) (s : State) :
    ∃ s', execSramScrub t mem pillow addr ecc s = .next s' ∧ s'.pending = s.pending ∧ s'.now = max s.now t ∧
    s'.mem = s.mem ∧ s'.fwMem = s.fwMem ∧ s'.tb = s.tb ∧ s'.sheets = s.sheets ∧ s'.units = s.units ∧
    s'.errw = s.errw ∧ s'.bulk = s.bulk ∧ s'.power = s.power ∧ s'.sec = s.sec ∧ s'.therm = s.therm ∧
    s'.ports = s.ports ∧ s'.streams = s.streams ∧ s'.services = s.services ∧ s'.ptpPorts = s.ptpPorts ∧
    s'.ptp = s.ptp ∧ s'.chans = s.chans ∧ s'.seqs = s.seqs ∧ s'.hc = s.hc ∧ s'.trim = s.trim ∧
    s'.bundles = s.bundles ∧ s'.slots = s.slots ∧ s'.wt = s.wt ∧ s'.pricks = s.pricks ∧
    s'.templates = s.templates ∧ s'.jobs = s.jobs ∧ s'.order = s.order ∧ s'.free = s.free := by
  have hF0 := @State.advance_frame
  have hF1 := @State.scrubRead_frame
  unfold execSramScrub; (refine ⟨_, rfl, ?_⟩; simp [hF0, hF1])

theorem execHbmScrub_next (t : Nat) (addr : Nat) (ecc : Ecc) (s : State) :
    ∃ s', execHbmScrub t addr ecc s = .next s' ∧ s'.pending = s.pending ∧ s'.now = max s.now t ∧
    s'.mem = s.mem ∧ s'.fwMem = s.fwMem ∧ s'.tb = s.tb ∧ s'.sheets = s.sheets ∧ s'.units = s.units ∧
    s'.errw = s.errw ∧ s'.bulk = s.bulk ∧ s'.power = s.power ∧ s'.sec = s.sec ∧ s'.therm = s.therm ∧
    s'.ports = s.ports ∧ s'.streams = s.streams ∧ s'.services = s.services ∧ s'.ptpPorts = s.ptpPorts ∧
    s'.ptp = s.ptp ∧ s'.chans = s.chans ∧ s'.seqs = s.seqs ∧ s'.hc = s.hc ∧ s'.trim = s.trim ∧
    s'.bundles = s.bundles ∧ s'.slots = s.slots ∧ s'.wt = s.wt ∧ s'.pricks = s.pricks ∧
    s'.templates = s.templates ∧ s'.jobs = s.jobs ∧ s'.order = s.order ∧ s'.free = s.free := by
  have hF0 := @State.advance_frame
  have hF1 := @State.scrubRead_frame
  unfold execHbmScrub; (refine ⟨_, rfl, ?_⟩; simp [hF0, hF1])

theorem execHbmLinkRetrain_next (t : Nat) (stack : Nat) (channel : Nat) (ns : Nat) (ok : Bool) (s : State) :
    ∃ s', execHbmLinkRetrain t stack channel ns ok s = .next s' ∧ s'.pending = s.pending ∧
    s'.now = max s.now t ∧ s'.mem = s.mem ∧ s'.fwMem = s.fwMem ∧ s'.tb = s.tb ∧ s'.sheets = s.sheets ∧
    s'.units = s.units ∧ s'.errw = s.errw ∧ s'.bulk = s.bulk ∧ s'.power = s.power ∧ s'.sec = s.sec ∧
    s'.therm = s.therm ∧ s'.ports = s.ports ∧ s'.streams = s.streams ∧ s'.services = s.services ∧
    s'.ptpPorts = s.ptpPorts ∧ s'.ptp = s.ptp ∧ s'.chans = s.chans ∧ s'.seqs = s.seqs ∧ s'.hc = s.hc ∧
    s'.trim = s.trim ∧ s'.bundles = s.bundles ∧ s'.slots = s.slots ∧ s'.wt = s.wt ∧ s'.ms = s.ms ∧
    s'.pricks = s.pricks ∧ s'.templates = s.templates ∧ s'.jobs = s.jobs ∧ s'.order = s.order ∧
    s'.pillows = s.pillows ∧ s'.free = s.free := by
  have hF0 := @State.advance_frame
  have hF1 := @State.report_frame
  have hF2 := @State.enterFatal_frame
  unfold execHbmLinkRetrain; (refine ⟨_, rfl, ?_⟩; simp [hF0, hF1, hF2])

/-! ## Paging -/

theorem execMapPageDrainEnd_next (t : Nat) (tag : BitVec 32) (s : State) :
    ∃ s', execMapPageDrainEnd t tag s = .next s' ∧ s'.pending = s.pending ∧ s'.now = max s.now t ∧
    (Memory.wf s.mem = true → Memory.wf s'.mem = true) ∧ s'.fwMem = s.fwMem ∧ s'.tb = s.tb ∧
    s'.sheets = s.sheets ∧ s'.units = s.units ∧ s'.errw = s.errw ∧ s'.bulk = s.bulk ∧ s'.sec = s.sec ∧
    s'.therm = s.therm ∧ s'.streams = s.streams ∧ s'.ptpPorts = s.ptpPorts ∧ s'.ptp = s.ptp ∧
    s'.chans = s.chans ∧ s'.seqs = s.seqs ∧ s'.hc = s.hc ∧ s'.trim = s.trim ∧ s'.bundles = s.bundles ∧
    s'.slots = s.slots ∧ s'.wt = s.wt ∧ s'.pricks = s.pricks ∧ s'.templates = s.templates ∧
    s'.order = s.order := by
  have hF0 := @State.mapPageEffect_frame
  have hF1 := @State.advance_frame
  unfold execMapPageDrainEnd; dsimp only; (repeat' split) <;> (refine ⟨_, rfl, ?_⟩; simp +contextual [hF0, hF1])

theorem execMapPin_next (h : Hdr) (asid : Nat) (op : Nat) (va : Nat) (size : Nat) (s : State) :
    ∃ s', execMapPin h asid op va size s = .next s' ∧ s'.pending = s.pending ∧ s'.now = max s.now h.t ∧
    (Memory.wf s.mem = true → Memory.wf s'.mem = true) ∧ s'.fwMem = s.fwMem ∧ s'.tb = s.tb ∧
    s'.sheets = s.sheets ∧ s'.units = s.units ∧ s'.errw = s.errw ∧ s'.bulk = s.bulk ∧ s'.sec = s.sec ∧
    s'.therm = s.therm ∧ s'.streams = s.streams ∧ s'.ptpPorts = s.ptpPorts ∧ s'.ptp = s.ptp ∧
    s'.chans = s.chans ∧ s'.seqs = s.seqs ∧ s'.hc = s.hc ∧ s'.trim = s.trim ∧ s'.bundles = s.bundles ∧
    s'.slots = s.slots ∧ s'.wt = s.wt ∧ s'.pricks = s.pricks ∧ s'.templates = s.templates ∧
    s'.order = s.order := by
  have hF0 := @State.refuse_frame
  have hF1 := @State.advance_frame
  have hF2 := @mapPinDo_frame
  unfold execMapPin hostCommand; dsimp only; split <;> (refine ⟨_, rfl, ?_⟩; simp +contextual [hF0, hF1, hF2])

/-! ## Weights -/

theorem execShardBeginManifest_next (h : Hdr) (handle : Nat) (s : State) :
    ∃ s', execShardBeginManifest h handle s = .next s' ∧ s'.pending = s.pending ∧ s'.now = max s.now h.t ∧
    s'.mem = s.mem ∧ s'.fwMem = s.fwMem ∧ s'.tb = s.tb ∧ s'.sheets = s.sheets ∧ s'.units = s.units ∧
    s'.pins = s.pins ∧ s'.pk = s.pk ∧ s'.latches = s.latches ∧ s'.errw = s.errw ∧ s'.power = s.power ∧
    s'.sec = s.sec ∧ s'.therm = s.therm ∧ s'.ports = s.ports ∧ s'.streams = s.streams ∧
    s'.services = s.services ∧ s'.ptpPorts = s.ptpPorts ∧ s'.ptp = s.ptp ∧ s'.chans = s.chans ∧
    s'.seqs = s.seqs ∧ s'.hc = s.hc ∧ s'.trim = s.trim ∧ s'.bundles = s.bundles ∧ s'.slots = s.slots ∧
    s'.wt = s.wt ∧ s'.ms = s.ms ∧ s'.pricks = s.pricks ∧ s'.templates = s.templates ∧ s'.jobs = s.jobs ∧
    s'.order = s.order ∧ s'.pillows = s.pillows ∧ s'.free = s.free := by
  have hF0 := @State.refuse_frame
  have hF1 := @State.advance_frame
  have hF2 := @State.openShard_frame
  unfold execShardBeginManifest hostCommand; dsimp only; split <;> (refine ⟨_, rfl, ?_⟩; simp [hF0, hF1, hF2])

theorem execShardBeginShard_next (h : Hdr) (handle : Nat) (index : Nat) (s : State) :
    ∃ s', execShardBeginShard h handle index s = .next s' ∧ s'.pending = s.pending ∧
    s'.now = max s.now h.t ∧ s'.mem = s.mem ∧ s'.fwMem = s.fwMem ∧ s'.tb = s.tb ∧ s'.sheets = s.sheets ∧
    s'.units = s.units ∧ s'.pins = s.pins ∧ s'.pk = s.pk ∧ s'.latches = s.latches ∧ s'.errw = s.errw ∧
    s'.power = s.power ∧ s'.sec = s.sec ∧ s'.therm = s.therm ∧ s'.ports = s.ports ∧ s'.streams = s.streams ∧
    s'.services = s.services ∧ s'.ptpPorts = s.ptpPorts ∧ s'.ptp = s.ptp ∧ s'.chans = s.chans ∧
    s'.seqs = s.seqs ∧ s'.hc = s.hc ∧ s'.trim = s.trim ∧ s'.bundles = s.bundles ∧ s'.slots = s.slots ∧
    s'.wt = s.wt ∧ s'.ms = s.ms ∧ s'.pricks = s.pricks ∧ s'.templates = s.templates ∧ s'.jobs = s.jobs ∧
    s'.order = s.order ∧ s'.pillows = s.pillows ∧ s'.free = s.free := by
  have hF0 := @State.refuse_frame
  have hF1 := @State.advance_frame
  have hF2 := @State.openShard_frame
  unfold execShardBeginShard hostCommand; dsimp only; split <;> (refine ⟨_, rfl, ?_⟩; simp [hF0, hF1, hF2])

theorem execShardBeginDiscard_next (h : Hdr) (handle : Nat) (s : State) :
    ∃ s', execShardBeginDiscard h handle s = .next s' ∧ s'.pending = s.pending ∧ s'.now = max s.now h.t ∧
    s'.mem = s.mem ∧ s'.fwMem = s.fwMem ∧ s'.tb = s.tb ∧ s'.sheets = s.sheets ∧ s'.units = s.units ∧
    s'.pins = s.pins ∧ s'.pk = s.pk ∧ s'.latches = s.latches ∧ s'.errw = s.errw ∧ s'.bulk = s.bulk ∧
    s'.power = s.power ∧ s'.sec = s.sec ∧ s'.therm = s.therm ∧ s'.ports = s.ports ∧ s'.streams = s.streams ∧
    s'.services = s.services ∧ s'.ptpPorts = s.ptpPorts ∧ s'.ptp = s.ptp ∧ s'.chans = s.chans ∧
    s'.seqs = s.seqs ∧ s'.hc = s.hc ∧ s'.trim = s.trim ∧ s'.slots = s.slots ∧ s'.wt = s.wt ∧ s'.ms = s.ms ∧
    s'.pricks = s.pricks ∧ s'.templates = s.templates ∧ s'.jobs = s.jobs ∧ s'.order = s.order ∧
    s'.pillows = s.pillows ∧ s'.free = s.free := by
  have hF0 := @State.refuse_frame
  have hF1 := @State.advance_frame
  have hF2 := @State.done_frame
  have hF3 := @State.setBundle_frame
  unfold execShardBeginDiscard hostCommand; dsimp only; split <;> (refine ⟨_, rfl, ?_⟩; simp [hF0, hF1, hF2, hF3])

theorem execShardEnd_next (h : Hdr) (handle : Nat) (sigOk : Bool) (s : State) :
    ∃ s', execShardEnd h handle sigOk s = .next s' ∧ s'.pending = s.pending ∧ s'.now = max s.now h.t ∧
    s'.mem = s.mem ∧ s'.fwMem = s.fwMem ∧ s'.tb = s.tb ∧ s'.sheets = s.sheets ∧ s'.pins = s.pins ∧
    s'.pk = s.pk ∧ s'.errw = s.errw ∧ s'.power = s.power ∧ s'.sec = s.sec ∧ s'.therm = s.therm ∧
    s'.ports = s.ports ∧ s'.streams = s.streams ∧ s'.services = s.services ∧ s'.ptpPorts = s.ptpPorts ∧
    s'.ptp = s.ptp ∧ s'.chans = s.chans ∧ s'.seqs = s.seqs ∧ s'.hc = s.hc ∧ s'.trim = s.trim ∧
    s'.slots = s.slots ∧ s'.ms = s.ms ∧ s'.pricks = s.pricks ∧ s'.templates = s.templates ∧
    s'.jobs = s.jobs ∧ s'.order = s.order ∧ s'.pillows = s.pillows ∧ s'.free = s.free := by
  have hF0 := @State.refuse_frame
  have hF1 := @State.advance_frame
  have hF2 := @shardEndDo_frame
  unfold execShardEnd hostCommand; dsimp only; split <;> (refine ⟨_, rfl, ?_⟩; simp +contextual [hF0, hF1, hF2])

theorem execShardTimeout_next (t : Nat) (handle : Nat) (s : State) :
    ∃ s', execShardTimeout t handle s = .next s' ∧ s'.pending = s.pending ∧ s'.now = max s.now t ∧
    s'.mem = s.mem ∧ s'.fwMem = s.fwMem ∧ s'.tb = s.tb ∧ s'.sheets = s.sheets ∧ s'.pins = s.pins ∧
    s'.pk = s.pk ∧ s'.errw = s.errw ∧ s'.mgmt = s.mgmt ∧ s'.power = s.power ∧ s'.sec = s.sec ∧
    s'.therm = s.therm ∧ s'.ports = s.ports ∧ s'.streams = s.streams ∧ s'.services = s.services ∧
    s'.ptpPorts = s.ptpPorts ∧ s'.ptp = s.ptp ∧ s'.chans = s.chans ∧ s'.seqs = s.seqs ∧ s'.hc = s.hc ∧
    s'.trim = s.trim ∧ s'.slots = s.slots ∧ s'.ms = s.ms ∧ s'.pricks = s.pricks ∧
    s'.templates = s.templates ∧ s'.jobs = s.jobs ∧ s'.order = s.order ∧ s'.pillows = s.pillows ∧
    s'.free = s.free := by
  have hF0 := @State.advance_frame
  have hF1 := @State.event_frame
  have hF2 := @State.countRetry_frame
  have hF3 := @State.missShard_frame
  have hF4 := @State.setBundle_frame
  have hF5 := @State.closeShard_frame
  unfold execShardTimeout; dsimp only; (repeat' split) <;> (refine ⟨_, rfl, ?_⟩; simp [hF0, hF1, hF2, hF3, hF4, hF5])

theorem execBundleCheckEnd_next (t : Nat) (handle : Nat) (s : State) :
    ∃ s', execBundleCheckEnd t handle s = .next s' ∧ s'.pending = s.pending ∧ s'.now = max s.now t ∧
    s'.mem = s.mem ∧ s'.fwMem = s.fwMem ∧ s'.tb = s.tb ∧ s'.sheets = s.sheets ∧ s'.pins = s.pins ∧
    s'.pk = s.pk ∧ s'.errw = s.errw ∧ s'.bulk = s.bulk ∧ s'.mgmt = s.mgmt ∧ s'.power = s.power ∧
    s'.sec = s.sec ∧ s'.therm = s.therm ∧ s'.ports = s.ports ∧ s'.streams = s.streams ∧
    s'.services = s.services ∧ s'.ptpPorts = s.ptpPorts ∧ s'.ptp = s.ptp ∧ s'.chans = s.chans ∧
    s'.seqs = s.seqs ∧ s'.hc = s.hc ∧ s'.trim = s.trim ∧ s'.slots = s.slots ∧ s'.pricks = s.pricks ∧
    s'.templates = s.templates ∧ s'.jobs = s.jobs ∧ s'.order = s.order ∧ s'.free = s.free := by
  have hF0 := @State.advance_frame
  have hF1 := @State.setBundle_frame
  have hF2 := @State.markStale_frame
  have hF3 := @State.meetShard_frame
  have hF4 := @State.bundleReady_frame
  have hF5 := @State.failBundle_frame
  unfold execBundleCheckEnd; (refine ⟨_, rfl, ?_⟩; simp [hF0, hF1, hF2, hF3, hF4, hF5])

theorem execRedigestPass_next (t : Nat) (s : State) : ∃ s', execRedigestPass t s = .next s' ∧
    s'.pending = s.pending ∧ s'.now = max s.now t ∧ s'.mem = s.mem ∧ s'.fwMem = s.fwMem ∧ s'.tb = s.tb ∧
    s'.sheets = s.sheets ∧ s'.units = s.units ∧ s'.pins = s.pins ∧ s'.pk = s.pk ∧ s'.errw = s.errw ∧
    s'.bulk = s.bulk ∧ s'.mgmt = s.mgmt ∧ s'.power = s.power ∧ s'.sec = s.sec ∧ s'.therm = s.therm ∧
    s'.ports = s.ports ∧ s'.streams = s.streams ∧ s'.services = s.services ∧ s'.ptpPorts = s.ptpPorts ∧
    s'.ptp = s.ptp ∧ s'.chans = s.chans ∧ s'.seqs = s.seqs ∧ s'.hc = s.hc ∧ s'.trim = s.trim ∧
    s'.slots = s.slots ∧ s'.pricks = s.pricks ∧ s'.templates = s.templates ∧ s'.jobs = s.jobs ∧
    s'.order = s.order ∧ s'.free = s.free := by
  have hF0 := @State.advance_frame
  have hF1 := @State.digestShards_frame
  unfold execRedigestPass; (refine ⟨_, rfl, ?_⟩; simp [hF0, hF1])

theorem execSlotProgram_next (h : Hdr) (slot : Nat) (handle : Nat) (map : List Nat) (s : State) :
    ∃ s', execSlotProgram h slot handle map s = .next s' ∧ s'.pending = s.pending ∧ s'.now = max s.now h.t ∧
    s'.mem = s.mem ∧ s'.fwMem = s.fwMem ∧ s'.tb = s.tb ∧ s'.sheets = s.sheets ∧ s'.units = s.units ∧
    s'.pins = s.pins ∧ s'.pk = s.pk ∧ s'.errw = s.errw ∧ s'.bulk = s.bulk ∧ s'.power = s.power ∧
    s'.sec = s.sec ∧ s'.therm = s.therm ∧ s'.ports = s.ports ∧ s'.streams = s.streams ∧
    s'.services = s.services ∧ s'.ptpPorts = s.ptpPorts ∧ s'.ptp = s.ptp ∧ s'.chans = s.chans ∧
    s'.seqs = s.seqs ∧ s'.hc = s.hc ∧ s'.trim = s.trim ∧ s'.pricks = s.pricks ∧ s'.templates = s.templates ∧
    s'.jobs = s.jobs ∧ s'.order = s.order ∧ s'.free = s.free := by
  have hF0 := @State.refuse_frame
  have hF1 := @State.advance_frame
  have hF2 := @slotProgramDo_frame
  unfold execSlotProgram hostCommand; dsimp only; split <;> (refine ⟨_, rfl, ?_⟩; simp [hF0, hF1, hF2])

theorem execSlotProgramEnd_next (t : Nat) (slot : Nat) (s : State) :
    ∃ s', execSlotProgramEnd t slot s = .next s' ∧ s'.pending = s.pending ∧ s'.now = max s.now t ∧
    s'.mem = s.mem ∧ s'.fwMem = s.fwMem ∧ s'.tb = s.tb ∧ s'.sheets = s.sheets ∧ s'.units = s.units ∧
    s'.pins = s.pins ∧ s'.pk = s.pk ∧ s'.errw = s.errw ∧ s'.bulk = s.bulk ∧ s'.mgmt = s.mgmt ∧
    s'.power = s.power ∧ s'.sec = s.sec ∧ s'.therm = s.therm ∧ s'.ports = s.ports ∧ s'.streams = s.streams ∧
    s'.services = s.services ∧ s'.ptpPorts = s.ptpPorts ∧ s'.ptp = s.ptp ∧ s'.chans = s.chans ∧
    s'.seqs = s.seqs ∧ s'.hc = s.hc ∧ s'.bundles = s.bundles ∧ s'.wt = s.wt ∧ s'.ms = s.ms ∧
    s'.pricks = s.pricks ∧ s'.templates = s.templates ∧ s'.jobs = s.jobs ∧ s'.order = s.order ∧
    s'.pillows = s.pillows ∧ s'.free = s.free := by
  have hF0 := @State.reply_frame
  have hF1 := @State.slotDown_frame
  have hF2 := @State.advance_frame
  have hF3 := @State.setSlot_frame
  unfold execSlotProgramEnd; dsimp only; (repeat' split) <;> (refine ⟨_, rfl, ?_⟩; simp [hF0, hF1, hF2, hF3])

theorem execSlotActivate_next (h : Hdr) (slot : Nat) (handle : Option Nat) (s : State) :
    ∃ s', execSlotActivate h slot handle s = .next s' ∧ s'.pending = s.pending ∧ s'.now = max s.now h.t ∧
    s'.mem = s.mem ∧ s'.fwMem = s.fwMem ∧ s'.tb = s.tb ∧ s'.sheets = s.sheets ∧ s'.units = s.units ∧
    s'.pins = s.pins ∧ s'.pk = s.pk ∧ s'.errw = s.errw ∧ s'.bulk = s.bulk ∧ s'.power = s.power ∧
    s'.sec = s.sec ∧ s'.therm = s.therm ∧ s'.ports = s.ports ∧ s'.streams = s.streams ∧
    s'.services = s.services ∧ s'.ptpPorts = s.ptpPorts ∧ s'.ptp = s.ptp ∧ s'.chans = s.chans ∧
    s'.seqs = s.seqs ∧ s'.hc = s.hc ∧ s'.trim = s.trim ∧ s'.pricks = s.pricks ∧ s'.templates = s.templates ∧
    s'.jobs = s.jobs ∧ s'.order = s.order ∧ s'.free = s.free := by
  have hF0 := @State.refuse_frame
  have hF1 := @State.advance_frame
  have hF2 := @slotActivateDo_frame
  unfold execSlotActivate hostCommand; dsimp only; split <;> (refine ⟨_, rfl, ?_⟩; simp [hF0, hF1, hF2])

theorem execSlotDrainEnd_next (t : Nat) (slot : Nat) (s : State) :
    ∃ s', execSlotDrainEnd t slot s = .next s' ∧ s'.pending = s.pending ∧ s'.now = max s.now t ∧
    s'.mem = s.mem ∧ s'.fwMem = s.fwMem ∧ s'.tb = s.tb ∧ s'.sheets = s.sheets ∧ s'.units = s.units ∧
    s'.pins = s.pins ∧ s'.pk = s.pk ∧ s'.errw = s.errw ∧ s'.bulk = s.bulk ∧ s'.mgmt = s.mgmt ∧
    s'.power = s.power ∧ s'.sec = s.sec ∧ s'.therm = s.therm ∧ s'.ports = s.ports ∧ s'.streams = s.streams ∧
    s'.services = s.services ∧ s'.ptpPorts = s.ptpPorts ∧ s'.ptp = s.ptp ∧ s'.chans = s.chans ∧
    s'.seqs = s.seqs ∧ s'.hc = s.hc ∧ s'.trim = s.trim ∧ s'.bundles = s.bundles ∧ s'.wt = s.wt ∧
    s'.ms = s.ms ∧ s'.pricks = s.pricks ∧ s'.templates = s.templates ∧ s'.jobs = s.jobs ∧
    s'.order = s.order ∧ s'.free = s.free := by
  have hF0 := @State.advance_frame
  have hF1 := @State.slotDown_frame
  have hF2 := @State.restBobbins_frame
  have hF3 := @State.modSlot_frame
  have hF4 := @State.startProgram_frame
  unfold execSlotDrainEnd; dsimp only; (repeat' split) <;> (refine ⟨_, rfl, ?_⟩; simp [hF0, hF1, hF2, hF3, hF4])

theorem execSlotReprogramEnd_next (t : Nat) (slot : Nat) (s : State) :
    ∃ s', execSlotReprogramEnd t slot s = .next s' ∧ s'.pending = s.pending ∧ s'.now = max s.now t ∧
    s'.mem = s.mem ∧ s'.fwMem = s.fwMem ∧ s'.tb = s.tb ∧ s'.sheets = s.sheets ∧ s'.units = s.units ∧
    s'.pins = s.pins ∧ s'.pk = s.pk ∧ s'.errw = s.errw ∧ s'.bulk = s.bulk ∧ s'.mgmt = s.mgmt ∧
    s'.power = s.power ∧ s'.sec = s.sec ∧ s'.therm = s.therm ∧ s'.ports = s.ports ∧ s'.streams = s.streams ∧
    s'.services = s.services ∧ s'.ptpPorts = s.ptpPorts ∧ s'.ptp = s.ptp ∧ s'.chans = s.chans ∧
    s'.seqs = s.seqs ∧ s'.hc = s.hc ∧ s'.trim = s.trim ∧ s'.bundles = s.bundles ∧ s'.wt = s.wt ∧
    s'.ms = s.ms ∧ s'.pricks = s.pricks ∧ s'.templates = s.templates ∧ s'.jobs = s.jobs ∧
    s'.order = s.order ∧ s'.free = s.free := by
  have hF0 := @State.advance_frame
  have hF1 := @State.slotDown_frame
  have hF2 := @State.bundleReady_frame
  have hF3 := @State.wakeBobbins_frame
  have hF4 := @State.setSlot_frame
  unfold execSlotReprogramEnd; dsimp only; (repeat' split) <;> (refine ⟨_, rfl, ?_⟩; simp [hF0, hF1, hF2, hF3, hF4])

theorem execSlotRetire_next (h : Hdr) (slot : Nat) (s : State) : ∃ s', execSlotRetire h slot s = .next s' ∧
    s'.pending = s.pending ∧ s'.now = max s.now h.t ∧ s'.mem = s.mem ∧ s'.fwMem = s.fwMem ∧ s'.tb = s.tb ∧
    s'.sheets = s.sheets ∧ s'.units = s.units ∧ s'.pins = s.pins ∧ s'.pk = s.pk ∧ s'.latches = s.latches ∧
    s'.errw = s.errw ∧ s'.bulk = s.bulk ∧ s'.power = s.power ∧ s'.sec = s.sec ∧ s'.therm = s.therm ∧
    s'.ports = s.ports ∧ s'.streams = s.streams ∧ s'.services = s.services ∧ s'.ptpPorts = s.ptpPorts ∧
    s'.ptp = s.ptp ∧ s'.chans = s.chans ∧ s'.seqs = s.seqs ∧ s'.hc = s.hc ∧ s'.trim = s.trim ∧
    s'.bundles = s.bundles ∧ s'.wt = s.wt ∧ s'.ms = s.ms ∧ s'.pricks = s.pricks ∧
    s'.templates = s.templates ∧ s'.jobs = s.jobs ∧ s'.order = s.order ∧ s'.free = s.free := by
  have hF0 := @State.refuse_frame
  have hF1 := @State.advance_frame
  have hF2 := @slotRetireDo_frame
  unfold execSlotRetire hostCommand; dsimp only; split <;> (refine ⟨_, rfl, ?_⟩; simp [hF0, hF1, hF2])

theorem execSlotRetireEnd_next (t : Nat) (slot : Nat) (s : State) :
    ∃ s', execSlotRetireEnd t slot s = .next s' ∧ s'.pending = s.pending ∧ s'.now = max s.now t ∧
    s'.mem = s.mem ∧ s'.fwMem = s.fwMem ∧ s'.tb = s.tb ∧ s'.sheets = s.sheets ∧ s'.units = s.units ∧
    s'.pins = s.pins ∧ s'.pk = s.pk ∧ s'.latches = s.latches ∧ s'.errw = s.errw ∧ s'.bulk = s.bulk ∧
    s'.mgmt = s.mgmt ∧ s'.power = s.power ∧ s'.sec = s.sec ∧ s'.therm = s.therm ∧ s'.ports = s.ports ∧
    s'.streams = s.streams ∧ s'.services = s.services ∧ s'.ptpPorts = s.ptpPorts ∧ s'.ptp = s.ptp ∧
    s'.chans = s.chans ∧ s'.seqs = s.seqs ∧ s'.hc = s.hc ∧ s'.trim = s.trim ∧ s'.bundles = s.bundles ∧
    s'.wt = s.wt ∧ s'.ms = s.ms ∧ s'.pricks = s.pricks ∧ s'.templates = s.templates ∧ s'.jobs = s.jobs ∧
    s'.order = s.order ∧ s'.free = s.free := by
  have hF0 := @State.reply_frame
  have hF1 := @State.emptySlot_frame
  have hF2 := @State.advance_frame
  unfold execSlotRetireEnd; dsimp only; (repeat' split) <;> (refine ⟨_, rfl, ?_⟩; simp [hF0, hF1, hF2])

/-! ## Programming -/

theorem execBobbinProgrammingEnd_next (t : Nat) (pillow : Nat) (bobbin : Nat) (vfail : Nat) (iters : Nat) (s : State) :
    ∃ s', execBobbinProgrammingEnd t pillow bobbin vfail iters s = .next s' ∧ s'.pending = s.pending ∧
    s'.now = max s.now t ∧ (Memory.wf s.mem = true → Memory.wf s'.mem = true) ∧ s'.fwMem = s.fwMem ∧
    s'.tb = s.tb ∧ s'.sheets = s.sheets ∧ s'.units = s.units ∧ s'.errw = s.errw ∧ s'.bulk = s.bulk ∧
    s'.sec = s.sec ∧ s'.therm = s.therm ∧ s'.streams = s.streams ∧ s'.ptpPorts = s.ptpPorts ∧
    s'.ptp = s.ptp ∧ s'.chans = s.chans ∧ s'.seqs = s.seqs ∧ s'.hc = s.hc ∧ s'.pricks = s.pricks ∧
    s'.templates = s.templates ∧ s'.order = s.order := by
  have hF0 := @State.advance_frame
  have hF1 := @State.progEnd_frame
  have hF2 := @State.modSlot_frame
  have hF3 := @State.setPillow_frame
  unfold execBobbinProgrammingEnd; dsimp only; (repeat' split) <;> (refine ⟨_, rfl, ?_⟩; simp +contextual [hF0, hF1, hF2, hF3])

/-! ## Records -/

theorem execRecordCommit_next (t : Nat) (pillow : Nat) (s : State) :
    ∃ s', execRecordCommit t pillow s = .next s' ∧ s'.pending = s.pending ∧ s'.now = max s.now t ∧
    (Memory.wf s.mem = true → Memory.wf s'.mem = true) ∧ s'.fwMem = s.fwMem ∧ s'.tb = s.tb ∧
    s'.sheets = s.sheets ∧ s'.units = s.units ∧ s'.errw = s.errw ∧ s'.bulk = s.bulk ∧ s'.sec = s.sec ∧
    s'.therm = s.therm ∧ s'.streams = s.streams ∧ s'.ptpPorts = s.ptpPorts ∧ s'.ptp = s.ptp ∧
    s'.chans = s.chans ∧ s'.seqs = s.seqs ∧ s'.hc = s.hc ∧ s'.trim = s.trim ∧ s'.bundles = s.bundles ∧
    s'.slots = s.slots ∧ s'.wt = s.wt ∧ s'.pricks = s.pricks ∧ s'.order = s.order := by
  have hF0 := @State.advance_frame
  have hF1 := @State.dropJob_frame
  have hF2 := @State.settlePillows_frame
  have hF3 := @State.compactFirst_frame
  have hF4 := @State.commitRecords_frame
  have hF5 := @State.runRecord_frame
  unfold execRecordCommit; dsimp only; (repeat' split) <;> (refine ⟨_, rfl, ?_⟩; simp +contextual [hF0, hF1, hF2, hF3, hF4, hF5])

theorem execRecordMove_next (t : Nat) (pillow : Nat) (ecc : WordEcc) (s : State) :
    ∃ s', execRecordMove t pillow ecc s = .next s' ∧ s'.pending = s.pending ∧ s'.now = max s.now t ∧
    s'.mem = s.mem ∧ s'.fwMem = s.fwMem ∧ s'.tb = s.tb ∧ s'.sheets = s.sheets ∧ s'.units = s.units ∧
    s'.pins = s.pins ∧ s'.errw = s.errw ∧ s'.bulk = s.bulk ∧ s'.power = s.power ∧ s'.sec = s.sec ∧
    s'.therm = s.therm ∧ s'.ports = s.ports ∧ s'.streams = s.streams ∧ s'.ptpPorts = s.ptpPorts ∧
    s'.chans = s.chans ∧ s'.seqs = s.seqs ∧ s'.hc = s.hc ∧ s'.trim = s.trim ∧ s'.bundles = s.bundles ∧
    s'.slots = s.slots ∧ s'.wt = s.wt ∧ s'.ms = s.ms ∧ s'.pricks = s.pricks ∧ s'.templates = s.templates ∧
    s'.jobs = s.jobs ∧ s'.order = s.order ∧ s'.pillows = s.pillows ∧ s'.free = s.free := by
  have hF0 := @State.advance_frame
  have hF1 := @State.routeRecord_frame
  have hF2 := @State.takePacket_frame
  have hF3 := @State.afterLoss_frame
  unfold execRecordMove
  dsimp only
  refine ⟨_, rfl, ?_⟩
  split
  · rcases (State.takePacket (3 + pillow) ecc (State.advance t s)).2.1 with _ | q <;> simp [hF0, hF1, hF2, hF3]
  · simp [hF0]

/-! ## TimeBase -/

theorem execEncoderCount_next (t : Nat) (a : Bool) (b : Bool) (s : State) :
    ∃ s', execEncoderCount t a b s = .next s' ∧ s'.pending = s.pending ∧ s'.now = max s.now t ∧
    s'.mem = s.mem ∧ s'.fwMem = s.fwMem ∧ s'.errw = s.errw ∧ s'.bulk = s.bulk ∧ s'.power = s.power ∧
    s'.sec = s.sec ∧ s'.therm = s.therm ∧ s'.ports = s.ports ∧ s'.streams = s.streams ∧
    s'.services = s.services ∧ s'.ptpPorts = s.ptpPorts ∧ s'.chans = s.chans ∧ s'.hc = s.hc ∧
    s'.bundles = s.bundles ∧ s'.slots = s.slots ∧ s'.wt = s.wt ∧ s'.pricks = s.pricks ∧
    s'.order = s.order := by
  have hF0 := @State.advance_frame
  have hF1 := @State.countReverse_frame
  have hF2 := @State.countForward_frame
  unfold execEncoderCount; (refine ⟨_, rfl, ?_⟩; simp [hF0, hF1, hF2])

theorem execIndexPulse_next (t : Nat) (s : State) : ∃ s', execIndexPulse t s = .next s' ∧
    s'.pending = s.pending ∧ s'.now = max s.now t ∧ s'.mem = s.mem ∧ s'.fwMem = s.fwMem ∧ s'.tb = s.tb ∧
    s'.units = s.units ∧ s'.pins = s.pins ∧ s'.pk = s.pk ∧ s'.queues = s.queues ∧ s'.latches = s.latches ∧
    s'.errw = s.errw ∧ s'.sdio = s.sdio ∧ s'.bulk = s.bulk ∧ s'.mgmt = s.mgmt ∧ s'.power = s.power ∧
    s'.sec = s.sec ∧ s'.therm = s.therm ∧ s'.ports = s.ports ∧ s'.streams = s.streams ∧
    s'.services = s.services ∧ s'.ptpPorts = s.ptpPorts ∧ s'.ptp = s.ptp ∧ s'.chans = s.chans ∧
    s'.seqs = s.seqs ∧ s'.hc = s.hc ∧ s'.trim = s.trim ∧ s'.bundles = s.bundles ∧ s'.slots = s.slots ∧
    s'.wt = s.wt ∧ s'.ms = s.ms ∧ s'.pricks = s.pricks ∧ s'.templates = s.templates ∧ s'.jobs = s.jobs ∧
    s'.order = s.order ∧ s'.pillows = s.pillows ∧ s'.free = s.free := by
  have hF0 := @State.advance_frame
  unfold execIndexPulse; (refine ⟨_, rfl, ?_⟩; simp [hF0])

theorem execEncoderLoss_next (t : Nat) (pairs : BitVec 3) (s : State) :
    ∃ s', execEncoderLoss t pairs s = .next s' ∧ s'.pending = s.pending ∧ s'.now = max s.now t ∧
    s'.mem = s.mem ∧ s'.fwMem = s.fwMem ∧ s'.sheets = s.sheets ∧ s'.units = s.units ∧ s'.pins = s.pins ∧
    s'.pk = s.pk ∧ s'.errw = s.errw ∧ s'.bulk = s.bulk ∧ s'.mgmt = s.mgmt ∧ s'.power = s.power ∧
    s'.sec = s.sec ∧ s'.therm = s.therm ∧ s'.ports = s.ports ∧ s'.streams = s.streams ∧
    s'.services = s.services ∧ s'.ptpPorts = s.ptpPorts ∧ s'.ptp = s.ptp ∧ s'.chans = s.chans ∧
    s'.seqs = s.seqs ∧ s'.hc = s.hc ∧ s'.trim = s.trim ∧ s'.bundles = s.bundles ∧ s'.slots = s.slots ∧
    s'.wt = s.wt ∧ s'.ms = s.ms ∧ s'.pricks = s.pricks ∧ s'.templates = s.templates ∧ s'.jobs = s.jobs ∧
    s'.order = s.order ∧ s'.pillows = s.pillows ∧ s'.free = s.free := by
  have hF0 := @State.advance_frame
  have hF1 := @State.report_frame
  unfold execEncoderLoss; (refine ⟨_, rfl, ?_⟩; simp [hF0, hF1])

theorem execEncoderLossEnd_next (t : Nat) (s : State) : ∃ s', execEncoderLossEnd t s = .next s' ∧
    s'.pending = s.pending ∧ s'.now = max s.now t ∧ s'.mem = s.mem ∧ s'.fwMem = s.fwMem ∧
    s'.sheets = s.sheets ∧ s'.units = s.units ∧ s'.pins = s.pins ∧ s'.pk = s.pk ∧ s'.queues = s.queues ∧
    s'.latches = s.latches ∧ s'.errw = s.errw ∧ s'.sdio = s.sdio ∧ s'.bulk = s.bulk ∧ s'.mgmt = s.mgmt ∧
    s'.power = s.power ∧ s'.sec = s.sec ∧ s'.therm = s.therm ∧ s'.ports = s.ports ∧ s'.streams = s.streams ∧
    s'.services = s.services ∧ s'.ptpPorts = s.ptpPorts ∧ s'.ptp = s.ptp ∧ s'.chans = s.chans ∧
    s'.seqs = s.seqs ∧ s'.hc = s.hc ∧ s'.trim = s.trim ∧ s'.bundles = s.bundles ∧ s'.slots = s.slots ∧
    s'.wt = s.wt ∧ s'.ms = s.ms ∧ s'.pricks = s.pricks ∧ s'.templates = s.templates ∧ s'.jobs = s.jobs ∧
    s'.order = s.order ∧ s'.pillows = s.pillows ∧ s'.free = s.free := by
  have hF0 := @State.advance_frame
  unfold execEncoderLossEnd; (refine ⟨_, rfl, ?_⟩; simp [hF0])

theorem execStall_next (t : Nat) (s : State) : ∃ s', execStall t s = .next s' ∧ s'.pending = s.pending ∧
    s'.now = max s.now t ∧ s'.mem = s.mem ∧ s'.fwMem = s.fwMem ∧ s'.sheets = s.sheets ∧ s'.units = s.units ∧
    s'.pins = s.pins ∧ s'.queues = s.queues ∧ s'.latches = s.latches ∧ s'.errw = s.errw ∧ s'.sdio = s.sdio ∧
    s'.bulk = s.bulk ∧ s'.mgmt = s.mgmt ∧ s'.power = s.power ∧ s'.sec = s.sec ∧ s'.therm = s.therm ∧
    s'.ports = s.ports ∧ s'.streams = s.streams ∧ s'.services = s.services ∧ s'.ptpPorts = s.ptpPorts ∧
    s'.ptp = s.ptp ∧ s'.chans = s.chans ∧ s'.seqs = s.seqs ∧ s'.hc = s.hc ∧ s'.trim = s.trim ∧
    s'.bundles = s.bundles ∧ s'.slots = s.slots ∧ s'.wt = s.wt ∧ s'.ms = s.ms ∧ s'.pricks = s.pricks ∧
    s'.templates = s.templates ∧ s'.jobs = s.jobs ∧ s'.order = s.order ∧ s'.pillows = s.pillows ∧
    s'.free = s.free := by
  have hF0 := @State.advance_frame
  have hF1 := @State.pkStall_frame
  unfold execStall; (refine ⟨_, rfl, ?_⟩; simp [hF0, hF1])

theorem execTbConfig_next (h : Hdr) (p : TbConfigParams) (s : State) : ∃ s', execTbConfig h p s = .next s' ∧
    s'.pending = s.pending ∧ s'.now = max s.now h.t ∧ s'.mem = s.mem ∧ s'.fwMem = s.fwMem ∧ s'.pk = s.pk ∧
    s'.latches = s.latches ∧ s'.errw = s.errw ∧ s'.bulk = s.bulk ∧ s'.power = s.power ∧ s'.sec = s.sec ∧
    s'.therm = s.therm ∧ s'.ports = s.ports ∧ s'.streams = s.streams ∧ s'.services = s.services ∧
    s'.ptpPorts = s.ptpPorts ∧ s'.ptp = s.ptp ∧ s'.chans = s.chans ∧ s'.hc = s.hc ∧ s'.bundles = s.bundles ∧
    s'.wt = s.wt ∧ s'.ms = s.ms ∧ s'.pricks = s.pricks ∧ s'.templates = s.templates ∧ s'.order = s.order ∧
    s'.free = s.free := by
  have hF0 := @State.refuse_frame
  have hF1 := @State.advance_frame
  have hF2 := @tbConfigDo_frame
  unfold execTbConfig hostCommand; dsimp only; split <;> (refine ⟨_, rfl, ?_⟩; simp [hF0, hF1, hF2])

theorem execTbClaimClaim_next (h : Hdr) (unit : Option Nat) (action : Nat) (arg : Nat) (period : Nat) (target : Nat) (s : State) :
    ∃ s', execTbClaimClaim h unit action arg period target s = .next s' ∧ s'.pending = s.pending ∧
    s'.now = max s.now h.t ∧ s'.mem = s.mem ∧ s'.fwMem = s.fwMem ∧ s'.tb = s.tb ∧ s'.sheets = s.sheets ∧
    s'.pk = s.pk ∧ s'.latches = s.latches ∧ s'.errw = s.errw ∧ s'.bulk = s.bulk ∧ s'.power = s.power ∧
    s'.sec = s.sec ∧ s'.therm = s.therm ∧ s'.ports = s.ports ∧ s'.streams = s.streams ∧
    s'.services = s.services ∧ s'.ptpPorts = s.ptpPorts ∧ s'.ptp = s.ptp ∧ s'.chans = s.chans ∧
    s'.hc = s.hc ∧ s'.trim = s.trim ∧ s'.bundles = s.bundles ∧ s'.slots = s.slots ∧ s'.wt = s.wt ∧
    s'.ms = s.ms ∧ s'.pricks = s.pricks ∧ s'.templates = s.templates ∧ s'.jobs = s.jobs ∧
    s'.order = s.order ∧ s'.pillows = s.pillows ∧ s'.free = s.free := by
  have hF0 := @State.refuse_frame
  have hF1 := @State.advance_frame
  have hF2 := @tbClaimDo_frame
  unfold execTbClaimClaim hostCommand; dsimp only; split <;> (refine ⟨_, rfl, ?_⟩; simp [hF0, hF1, hF2])

theorem execTbClaimRelease_next (h : Hdr) (unit : Nat) (s : State) :
    ∃ s', execTbClaimRelease h unit s = .next s' ∧ s'.pending = s.pending ∧ s'.now = max s.now h.t ∧
    s'.mem = s.mem ∧ s'.fwMem = s.fwMem ∧ s'.tb = s.tb ∧ s'.sheets = s.sheets ∧ s'.pk = s.pk ∧
    s'.latches = s.latches ∧ s'.errw = s.errw ∧ s'.bulk = s.bulk ∧ s'.power = s.power ∧ s'.sec = s.sec ∧
    s'.therm = s.therm ∧ s'.ports = s.ports ∧ s'.streams = s.streams ∧ s'.services = s.services ∧
    s'.ptpPorts = s.ptpPorts ∧ s'.ptp = s.ptp ∧ s'.chans = s.chans ∧ s'.hc = s.hc ∧ s'.trim = s.trim ∧
    s'.bundles = s.bundles ∧ s'.slots = s.slots ∧ s'.wt = s.wt ∧ s'.ms = s.ms ∧ s'.pricks = s.pricks ∧
    s'.templates = s.templates ∧ s'.jobs = s.jobs ∧ s'.order = s.order ∧ s'.pillows = s.pillows ∧
    s'.free = s.free := by
  have hF0 := @State.refuse_frame
  have hF1 := @State.advance_frame
  have hF2 := @State.done_frame
  have hF3 := @State.releaseUnit_frame
  unfold execTbClaimRelease hostCommand; dsimp only; split <;> (refine ⟨_, rfl, ?_⟩; simp [hF0, hF1, hF2, hF3])

/-! ## Tatting -/

theorem execTattingInstructionEnd_next (t : Nat) (pillow : Nat) (s : State) :
    ∃ s', execTattingInstructionEnd t pillow s = .next s' ∧ s'.pending = s.pending ∧ s'.now = max s.now t ∧
    (Memory.wf s.mem = true → Memory.wf s'.mem = true) ∧ s'.fwMem = s.fwMem ∧ s'.tb = s.tb ∧
    s'.sheets = s.sheets ∧ s'.units = s.units ∧ s'.errw = s.errw ∧ s'.bulk = s.bulk ∧ s'.sec = s.sec ∧
    s'.therm = s.therm ∧ s'.streams = s.streams ∧ s'.ptpPorts = s.ptpPorts ∧ s'.ptp = s.ptp ∧
    s'.chans = s.chans ∧ s'.seqs = s.seqs ∧ s'.hc = s.hc ∧ s'.trim = s.trim ∧ s'.bundles = s.bundles ∧
    s'.slots = s.slots ∧ s'.wt = s.wt ∧ s'.pricks = s.pricks ∧ s'.templates = s.templates ∧
    s'.order = s.order := by
  have hF0 := @State.advance_frame
  have hF1 := @State.tatOne_frame
  unfold execTattingInstructionEnd; dsimp only; (repeat' split) <;> (refine ⟨_, rfl, ?_⟩; simp +contextual [hF0, hF1])

/-! ## Registers -/

theorem execRegRead_next (h : Hdr) (addr : BitVec 32) (count : Nat) (s : State) :
    ∃ s', execRegRead h addr count s = .next s' ∧ s'.pending = s.pending ∧ s'.now = max s.now h.t ∧
    s'.mem = s.mem ∧ s'.fwMem = s.fwMem ∧ s'.sheets = s.sheets ∧ s'.units = s.units ∧
    s'.latches = s.latches ∧ s'.errw = s.errw ∧ s'.bulk = s.bulk ∧ s'.power = s.power ∧
    s'.ptpPorts = s.ptpPorts ∧ s'.ptp = s.ptp ∧ s'.chans = s.chans ∧ s'.bundles = s.bundles ∧
    s'.slots = s.slots ∧ s'.pricks = s.pricks ∧ s'.templates = s.templates ∧ s'.jobs = s.jobs ∧
    s'.order = s.order ∧ s'.free = s.free := by
  have hF0 := @State.refuse_frame
  have hF1 := @State.advance_frame
  have hF2 := @State.done_frame
  have hF3 := @State.readRegs_frame
  unfold execRegRead hostCommand; dsimp only; split <;> (refine ⟨_, rfl, ?_⟩; simp [hF0, hF1, hF2, hF3])

theorem execRegWrite_next (h : Hdr) (addr : BitVec 32) (vals : List (BitVec 32)) (s : State) :
    ∃ s', execRegWrite h addr vals s = .next s' ∧ s'.pending = s.pending ∧ s'.now = max s.now h.t ∧
    (Memory.wf s.mem = true → Memory.wf s'.mem = true) ∧ s'.fwMem = s.fwMem ∧ s'.units = s.units ∧
    s'.bulk = s.bulk ∧ s'.streams = s.streams ∧ s'.ptpPorts = s.ptpPorts ∧ s'.ptp = s.ptp ∧
    s'.chans = s.chans ∧ s'.seqs = s.seqs ∧ s'.bundles = s.bundles ∧ s'.slots = s.slots ∧
    s'.pricks = s.pricks ∧ s'.templates = s.templates ∧ s'.jobs = s.jobs ∧ s'.order = s.order ∧
    s'.free = s.free := by
  have hF0 := @State.refuse_frame
  have hF1 := @State.advance_frame
  have hF2 := @State.done_frame
  have hF3 := @State.writeRegs_frame
  have hF4 := @State.armAfter_frame
  have hF5 := @State.disarm_frame
  unfold execRegWrite hostCommand; dsimp only; split <;> (refine ⟨_, rfl, ?_⟩; simp +contextual [hF0, hF1, hF2, hF3, hF4, hF5])

theorem execHcDataRead_next (h : Hdr) (s : State) : ∃ s', execHcDataRead h s = .next s' ∧
    s'.pending = s.pending ∧ s'.now = max s.now h.t ∧ s'.mem = s.mem ∧ s'.fwMem = s.fwMem ∧ s'.tb = s.tb ∧
    s'.sheets = s.sheets ∧ s'.units = s.units ∧ s'.pins = s.pins ∧ s'.pk = s.pk ∧ s'.latches = s.latches ∧
    s'.errw = s.errw ∧ s'.bulk = s.bulk ∧ s'.power = s.power ∧ s'.sec = s.sec ∧ s'.therm = s.therm ∧
    s'.ports = s.ports ∧ s'.streams = s.streams ∧ s'.services = s.services ∧ s'.ptpPorts = s.ptpPorts ∧
    s'.ptp = s.ptp ∧ s'.chans = s.chans ∧ s'.seqs = s.seqs ∧ s'.trim = s.trim ∧ s'.bundles = s.bundles ∧
    s'.slots = s.slots ∧ s'.wt = s.wt ∧ s'.ms = s.ms ∧ s'.pricks = s.pricks ∧ s'.templates = s.templates ∧
    s'.jobs = s.jobs ∧ s'.order = s.order ∧ s'.pillows = s.pillows ∧ s'.free = s.free := by
  have hF0 := @State.refuse_frame
  have hF1 := @State.advance_frame
  have hF2 := @State.done_frame
  have hF3 := @State.readHcData_frame
  unfold execHcDataRead hostCommand; dsimp only; split <;> (refine ⟨_, rfl, ?_⟩; simp [hF0, hF1, hF2, hF3])

theorem execTbWpLoRead_next (h : Hdr) (s : State) : ∃ s', execTbWpLoRead h s = .next s' ∧
    s'.pending = s.pending ∧ s'.now = max s.now h.t ∧ s'.mem = s.mem ∧ s'.fwMem = s.fwMem ∧
    s'.sheets = s.sheets ∧ s'.units = s.units ∧ s'.pins = s.pins ∧ s'.pk = s.pk ∧ s'.latches = s.latches ∧
    s'.errw = s.errw ∧ s'.bulk = s.bulk ∧ s'.power = s.power ∧ s'.sec = s.sec ∧ s'.therm = s.therm ∧
    s'.ports = s.ports ∧ s'.streams = s.streams ∧ s'.services = s.services ∧ s'.ptpPorts = s.ptpPorts ∧
    s'.ptp = s.ptp ∧ s'.chans = s.chans ∧ s'.seqs = s.seqs ∧ s'.hc = s.hc ∧ s'.trim = s.trim ∧
    s'.bundles = s.bundles ∧ s'.slots = s.slots ∧ s'.wt = s.wt ∧ s'.ms = s.ms ∧ s'.pricks = s.pricks ∧
    s'.templates = s.templates ∧ s'.jobs = s.jobs ∧ s'.order = s.order ∧ s'.pillows = s.pillows ∧
    s'.free = s.free := by
  have hF0 := @State.refuse_frame
  have hF1 := @State.advance_frame
  have hF2 := @State.done_frame
  have hF3 := @State.tbClear_frame
  unfold execTbWpLoRead hostCommand; dsimp only; split <;> (refine ⟨_, rfl, ?_⟩; simp [hF0, hF1, hF2, hF3])

theorem execPkPick0Read_next (h : Hdr) (s : State) : ∃ s', execPkPick0Read h s = .next s' ∧
    s'.pending = s.pending ∧ s'.now = max s.now h.t ∧ s'.mem = s.mem ∧ s'.fwMem = s.fwMem ∧ s'.tb = s.tb ∧
    s'.sheets = s.sheets ∧ s'.units = s.units ∧ s'.latches = s.latches ∧ s'.errw = s.errw ∧
    s'.bulk = s.bulk ∧ s'.power = s.power ∧ s'.sec = s.sec ∧ s'.therm = s.therm ∧ s'.ports = s.ports ∧
    s'.streams = s.streams ∧ s'.services = s.services ∧ s'.ptpPorts = s.ptpPorts ∧ s'.ptp = s.ptp ∧
    s'.chans = s.chans ∧ s'.seqs = s.seqs ∧ s'.hc = s.hc ∧ s'.trim = s.trim ∧ s'.bundles = s.bundles ∧
    s'.slots = s.slots ∧ s'.wt = s.wt ∧ s'.ms = s.ms ∧ s'.pricks = s.pricks ∧ s'.templates = s.templates ∧
    s'.jobs = s.jobs ∧ s'.order = s.order ∧ s'.pillows = s.pillows ∧ s'.free = s.free := by
  have hF0 := @State.refuse_frame
  have hF1 := @State.advance_frame
  have hF2 := @State.done_frame
  have hF3 := @State.pkClear_frame
  unfold execPkPick0Read hostCommand; dsimp only; split <;> (refine ⟨_, rfl, ?_⟩; simp [hF0, hF1, hF2, hF3])

/-! ## Xbar -/

theorem execTokenConditioned_next (t : Nat) (pillow : Nat) (s : State) :
    ∃ s', execTokenConditioned t pillow s = .next s' ∧ s'.pending = s.pending ∧ s'.now = max s.now t ∧
    (Memory.wf s.mem = true → Memory.wf s'.mem = true) ∧ s'.fwMem = s.fwMem ∧ s'.tb = s.tb ∧
    s'.sheets = s.sheets ∧ s'.units = s.units ∧ s'.errw = s.errw ∧ s'.bulk = s.bulk ∧ s'.sec = s.sec ∧
    s'.therm = s.therm ∧ s'.streams = s.streams ∧ s'.ptpPorts = s.ptpPorts ∧ s'.ptp = s.ptp ∧
    s'.chans = s.chans ∧ s'.seqs = s.seqs ∧ s'.hc = s.hc ∧ s'.trim = s.trim ∧ s'.bundles = s.bundles ∧
    s'.slots = s.slots ∧ s'.wt = s.wt ∧ s'.pricks = s.pricks ∧ s'.templates = s.templates ∧
    s'.order = s.order := by
  have hF0 := @State.advance_frame
  have hF1 := @State.conditionOne_frame
  unfold execTokenConditioned; dsimp only; (repeat' split) <;> (refine ⟨_, rfl, ?_⟩; simp +contextual [hF0, hF1])

theorem execPassComplete_next (t : Nat) (pillow : Nat) (noise : List (Nat × SparseInt)) (s : State) :
    ∃ s', execPassComplete t pillow noise s = .next s' ∧ s'.pending = s.pending ∧ s'.now = max s.now t ∧
    (Memory.wf s.mem = true → Memory.wf s'.mem = true) ∧ s'.fwMem = s.fwMem ∧ s'.tb = s.tb ∧
    s'.sheets = s.sheets ∧ s'.units = s.units ∧ s'.errw = s.errw ∧ s'.bulk = s.bulk ∧ s'.sec = s.sec ∧
    s'.therm = s.therm ∧ s'.streams = s.streams ∧ s'.ptpPorts = s.ptpPorts ∧ s'.ptp = s.ptp ∧
    s'.chans = s.chans ∧ s'.seqs = s.seqs ∧ s'.hc = s.hc ∧ s'.trim = s.trim ∧ s'.bundles = s.bundles ∧
    s'.slots = s.slots ∧ s'.wt = s.wt ∧ s'.pricks = s.pricks ∧ s'.templates = s.templates ∧
    s'.order = s.order := by
  have hF0 := @State.advance_frame
  have hF1 := @State.setRun_frame
  have hF2 := @State.settlePillows_frame
  have hF3 := @State.meetPass_frame
  have hF4 := @State.passDone_frame
  unfold execPassComplete; dsimp only; (repeat' split) <;> (refine ⟨_, rfl, ?_⟩; simp +contextual [hF0, hF1, hF2, hF3, hF4])

theorem execEpilogueWriteEnd_next (t : Nat) (pillow : Nat) (s : State) :
    ∃ s', execEpilogueWriteEnd t pillow s = .next s' ∧ s'.pending = s.pending ∧ s'.now = max s.now t ∧
    (Memory.wf s.mem = true → Memory.wf s'.mem = true) ∧ s'.fwMem = s.fwMem ∧ s'.tb = s.tb ∧
    s'.sheets = s.sheets ∧ s'.units = s.units ∧ s'.errw = s.errw ∧ s'.bulk = s.bulk ∧ s'.sec = s.sec ∧
    s'.therm = s.therm ∧ s'.streams = s.streams ∧ s'.ptpPorts = s.ptpPorts ∧ s'.ptp = s.ptp ∧
    s'.chans = s.chans ∧ s'.seqs = s.seqs ∧ s'.hc = s.hc ∧ s'.trim = s.trim ∧ s'.bundles = s.bundles ∧
    s'.slots = s.slots ∧ s'.wt = s.wt ∧ s'.pricks = s.pricks ∧ s'.templates = s.templates ∧
    s'.order = s.order := by
  have hF0 := @State.advance_frame
  have hF1 := @State.writeOldest_frame
  unfold execEpilogueWriteEnd; dsimp only; (repeat' split) <;> (refine ⟨_, rfl, ?_⟩; simp +contextual [hF0, hF1])

/-! ## Walks -/

theorem execTranslationWalkEnd_next (t : Nat) (pillow : Nat) (asid : Nat) (va : Nat) (ecc : Ecc) (s : State) :
    ∃ s', execTranslationWalkEnd t pillow asid va ecc s = .next s' ∧ s'.pending = s.pending ∧
    s'.now = max s.now t ∧ (Memory.wf s.mem = true → Memory.wf s'.mem = true) ∧ s'.fwMem = s.fwMem ∧
    s'.tb = s.tb ∧ s'.sheets = s.sheets ∧ s'.units = s.units ∧ s'.errw = s.errw ∧ s'.bulk = s.bulk ∧
    s'.sec = s.sec ∧ s'.therm = s.therm ∧ s'.streams = s.streams ∧ s'.ptpPorts = s.ptpPorts ∧
    s'.ptp = s.ptp ∧ s'.chans = s.chans ∧ s'.seqs = s.seqs ∧ s'.hc = s.hc ∧ s'.trim = s.trim ∧
    s'.bundles = s.bundles ∧ s'.slots = s.slots ∧ s'.wt = s.wt ∧ s'.pricks = s.pricks ∧
    s'.templates = s.templates ∧ s'.order = s.order := by
  have hF0 := @State.advance_frame
  have hF1 := @State.walkFinding_frame
  have hF2 := @State.walkEnd_frame
  unfold execTranslationWalkEnd; dsimp only; (repeat' split) <;> (refine ⟨_, rfl, ?_⟩; simp +contextual [hF0, hF1, hF2])

end Sys2Proof.Machine
end

