-- ==== Sys2Proof/Laws/MeaningsHost.lean ====
section
/-! SUPPORT. One lemma per meaning of House, Queues, Power, Mapping, Pricking, Security, Sdio,
Calibration: it answers a next state, keeps the queue of waiting commands, moves device time to its
own time and never back, keeps the canonical form of the memories, and leaves every field alone that
it names. -/

namespace Sys2Proof.Machine

/-! ## House -/

theorem execSequenceReady_next (t : Nat) (seq : Nat) (s : State) :
    ∃ s', execSequenceReady t seq s = .next s' ∧ s'.pending = s.pending ∧ s'.now = max s.now t ∧
    s'.mem = s.mem ∧ s'.fwMem = s.fwMem ∧ s'.tb = s.tb ∧ s'.sheets = s.sheets ∧ s'.units = s.units ∧
    s'.pins = s.pins ∧ s'.pk = s.pk ∧ s'.queues = s.queues ∧ s'.latches = s.latches ∧ s'.errw = s.errw ∧
    s'.sdio = s.sdio ∧ s'.bulk = s.bulk ∧ s'.mgmt = s.mgmt ∧ s'.power = s.power ∧ s'.sec = s.sec ∧
    s'.therm = s.therm ∧ s'.ports = s.ports ∧ s'.streams = s.streams ∧ s'.services = s.services ∧
    s'.ptpPorts = s.ptpPorts ∧ s'.ptp = s.ptp ∧ s'.chans = s.chans ∧ s'.trim = s.trim ∧
    s'.bundles = s.bundles ∧ s'.slots = s.slots ∧ s'.wt = s.wt ∧ s'.ms = s.ms ∧ s'.pricks = s.pricks ∧
    s'.templates = s.templates ∧ s'.jobs = s.jobs ∧ s'.order = s.order ∧ s'.pillows = s.pillows ∧
    s'.free = s.free := by
  have hF0 := @State.hcNext_frame
  have hF1 := @State.modHseq_frame
  have hF2 := @State.advance_frame
  unfold execSequenceReady; dsimp only; (repeat' split) <;> (refine ⟨_, rfl, ?_⟩; simp [hF0, hF1, hF2])

theorem execHcConfigEnable_next (h : Hdr) (p : HcEnableParams) (s : State) :
    ∃ s', execHcConfigEnable h p s = .next s' ∧ s'.pending = s.pending ∧ s'.now = max s.now h.t ∧
    s'.mem = s.mem ∧ s'.fwMem = s.fwMem ∧ s'.tb = s.tb ∧ s'.sheets = s.sheets ∧ s'.units = s.units ∧
    s'.pk = s.pk ∧ s'.latches = s.latches ∧ s'.errw = s.errw ∧ s'.bulk = s.bulk ∧ s'.power = s.power ∧
    s'.sec = s.sec ∧ s'.therm = s.therm ∧ s'.ports = s.ports ∧ s'.streams = s.streams ∧
    s'.services = s.services ∧ s'.ptpPorts = s.ptpPorts ∧ s'.ptp = s.ptp ∧ s'.hc = s.hc ∧ s'.trim = s.trim ∧
    s'.bundles = s.bundles ∧ s'.slots = s.slots ∧ s'.wt = s.wt ∧ s'.ms = s.ms ∧ s'.pricks = s.pricks ∧
    s'.templates = s.templates ∧ s'.jobs = s.jobs ∧ s'.order = s.order ∧ s'.pillows = s.pillows ∧
    s'.free = s.free := by
  have hF0 := @State.refuse_frame
  have hF1 := @State.advance_frame
  have hF2 := @hcEnableDo_frame
  unfold execHcConfigEnable hostCommand; dsimp only; split <;> (refine ⟨_, rfl, ?_⟩; simp [hF0, hF1, hF2])

theorem execHcConfigDisable_next (h : Hdr) (seq : Nat) (s : State) :
    ∃ s', execHcConfigDisable h seq s = .next s' ∧ s'.pending = s.pending ∧ s'.now = max s.now h.t ∧
    s'.mem = s.mem ∧ s'.fwMem = s.fwMem ∧ s'.tb = s.tb ∧ s'.sheets = s.sheets ∧ s'.units = s.units ∧
    s'.pk = s.pk ∧ s'.latches = s.latches ∧ s'.errw = s.errw ∧ s'.bulk = s.bulk ∧ s'.power = s.power ∧
    s'.sec = s.sec ∧ s'.therm = s.therm ∧ s'.ports = s.ports ∧ s'.streams = s.streams ∧
    s'.services = s.services ∧ s'.ptpPorts = s.ptpPorts ∧ s'.ptp = s.ptp ∧ s'.hc = s.hc ∧ s'.trim = s.trim ∧
    s'.bundles = s.bundles ∧ s'.slots = s.slots ∧ s'.wt = s.wt ∧ s'.ms = s.ms ∧ s'.pricks = s.pricks ∧
    s'.templates = s.templates ∧ s'.jobs = s.jobs ∧ s'.order = s.order ∧ s'.pillows = s.pillows ∧
    s'.free = s.free := by
  have hF0 := @State.refuse_frame
  have hF1 := @State.advance_frame
  have hF2 := @State.done_frame
  have hF3 := @State.modHseq_frame
  have hF4 := @State.endSeq_frame
  unfold execHcConfigDisable hostCommand; dsimp only; split <;> (refine ⟨_, rfl, ?_⟩; simp [hF0, hF1, hF2, hF3, hF4])

theorem execHcConfigMode_next (h : Hdr) (lp : Bool) (owTh : Nat) (s : State) :
    ∃ s', execHcConfigMode h lp owTh s = .next s' ∧ s'.pending = s.pending ∧ s'.now = max s.now h.t ∧
    s'.mem = s.mem ∧ s'.fwMem = s.fwMem ∧ s'.tb = s.tb ∧ s'.sheets = s.sheets ∧ s'.units = s.units ∧
    s'.pins = s.pins ∧ s'.pk = s.pk ∧ s'.latches = s.latches ∧ s'.errw = s.errw ∧ s'.bulk = s.bulk ∧
    s'.power = s.power ∧ s'.sec = s.sec ∧ s'.therm = s.therm ∧ s'.ports = s.ports ∧ s'.streams = s.streams ∧
    s'.services = s.services ∧ s'.ptpPorts = s.ptpPorts ∧ s'.ptp = s.ptp ∧ s'.chans = s.chans ∧
    s'.seqs = s.seqs ∧ s'.trim = s.trim ∧ s'.bundles = s.bundles ∧ s'.slots = s.slots ∧ s'.wt = s.wt ∧
    s'.ms = s.ms ∧ s'.pricks = s.pricks ∧ s'.templates = s.templates ∧ s'.jobs = s.jobs ∧
    s'.order = s.order ∧ s'.pillows = s.pillows ∧ s'.free = s.free := by
  have hF0 := @State.refuse_frame
  have hF1 := @State.advance_frame
  have hF2 := @State.done_frame
  unfold execHcConfigMode hostCommand; dsimp only; split <;> (refine ⟨_, rfl, ?_⟩; simp [hF0, hF1, hF2])

theorem execHcSelfcal_next (h : Hdr) (s : State) : ∃ s', execHcSelfcal h s = .next s' ∧
    s'.pending = s.pending ∧ s'.now = max s.now h.t ∧ s'.mem = s.mem ∧ s'.fwMem = s.fwMem ∧ s'.tb = s.tb ∧
    s'.sheets = s.sheets ∧ s'.units = s.units ∧ s'.pins = s.pins ∧ s'.pk = s.pk ∧ s'.latches = s.latches ∧
    s'.errw = s.errw ∧ s'.bulk = s.bulk ∧ s'.power = s.power ∧ s'.sec = s.sec ∧ s'.therm = s.therm ∧
    s'.ports = s.ports ∧ s'.streams = s.streams ∧ s'.services = s.services ∧ s'.ptpPorts = s.ptpPorts ∧
    s'.ptp = s.ptp ∧ s'.chans = s.chans ∧ s'.seqs = s.seqs ∧ s'.trim = s.trim ∧ s'.bundles = s.bundles ∧
    s'.slots = s.slots ∧ s'.wt = s.wt ∧ s'.ms = s.ms ∧ s'.pricks = s.pricks ∧ s'.templates = s.templates ∧
    s'.jobs = s.jobs ∧ s'.order = s.order ∧ s'.pillows = s.pillows ∧ s'.free = s.free := by
  have hF0 := @State.refuse_frame
  have hF1 := @State.advance_frame
  have hF2 := @State.release_frame
  unfold execHcSelfcal hostCommand; dsimp only; split <;> (refine ⟨_, rfl, ?_⟩; simp [hF0, hF1, hF2])

theorem execHcReadData_next (h : Hdr) (s : State) : ∃ s', execHcReadData h s = .next s' ∧
    s'.pending = s.pending ∧ s'.now = max s.now h.t ∧ s'.mem = s.mem ∧ s'.fwMem = s.fwMem ∧ s'.tb = s.tb ∧
    s'.sheets = s.sheets ∧ s'.units = s.units ∧ s'.pins = s.pins ∧ s'.pk = s.pk ∧ s'.latches = s.latches ∧
    s'.errw = s.errw ∧ s'.bulk = s.bulk ∧ s'.power = s.power ∧ s'.sec = s.sec ∧ s'.therm = s.therm ∧
    s'.ports = s.ports ∧ s'.streams = s.streams ∧ s'.services = s.services ∧ s'.ptpPorts = s.ptpPorts ∧
    s'.ptp = s.ptp ∧ s'.chans = s.chans ∧ s'.seqs = s.seqs ∧ s'.trim = s.trim ∧ s'.bundles = s.bundles ∧
    s'.slots = s.slots ∧ s'.wt = s.wt ∧ s'.ms = s.ms ∧ s'.pricks = s.pricks ∧ s'.templates = s.templates ∧
    s'.jobs = s.jobs ∧ s'.order = s.order ∧ s'.pillows = s.pillows ∧ s'.free = s.free := by
  have hF0 := @State.refuse_frame
  have hF1 := @State.advance_frame
  have hF2 := @State.done_frame
  have hF3 := @State.readHcWp_frame
  have hF4 := @State.readHcData_frame
  unfold execHcReadData hostCommand; dsimp only; split <;> (refine ⟨_, rfl, ?_⟩; simp [hF0, hF1, hF2, hF3, hF4])

theorem execHcReadConvert_next (h : Hdr) (ch : Nat) (opt : HcOpt) (s : State) :
    ∃ s', execHcReadConvert h ch opt s = .next s' ∧ s'.pending = s.pending ∧ s'.now = max s.now h.t ∧
    s'.mem = s.mem ∧ s'.fwMem = s.fwMem ∧ s'.tb = s.tb ∧ s'.sheets = s.sheets ∧ s'.units = s.units ∧
    s'.pins = s.pins ∧ s'.pk = s.pk ∧ s'.latches = s.latches ∧ s'.errw = s.errw ∧ s'.bulk = s.bulk ∧
    s'.power = s.power ∧ s'.sec = s.sec ∧ s'.therm = s.therm ∧ s'.ports = s.ports ∧ s'.streams = s.streams ∧
    s'.services = s.services ∧ s'.ptpPorts = s.ptpPorts ∧ s'.ptp = s.ptp ∧ s'.chans = s.chans ∧
    s'.trim = s.trim ∧ s'.bundles = s.bundles ∧ s'.slots = s.slots ∧ s'.wt = s.wt ∧ s'.ms = s.ms ∧
    s'.pricks = s.pricks ∧ s'.templates = s.templates ∧ s'.jobs = s.jobs ∧ s'.order = s.order ∧
    s'.pillows = s.pillows ∧ s'.free = s.free := by
  have hF0 := @State.refuse_frame
  have hF1 := @State.advance_frame
  have hF2 := @State.hcNext_frame
  unfold execHcReadConvert hostCommand; dsimp only; split <;> (refine ⟨_, rfl, ?_⟩; simp [hF0, hF1, hF2])

theorem execHcReadUrgent_next (h : Hdr) (ch : Nat) (opt : HcOpt) (s : State) :
    ∃ s', execHcReadUrgent h ch opt s = .next s' ∧ s'.pending = s.pending ∧ s'.now = max s.now h.t ∧
    s'.mem = s.mem ∧ s'.fwMem = s.fwMem ∧ s'.tb = s.tb ∧ s'.sheets = s.sheets ∧ s'.units = s.units ∧
    s'.pins = s.pins ∧ s'.pk = s.pk ∧ s'.latches = s.latches ∧ s'.errw = s.errw ∧ s'.bulk = s.bulk ∧
    s'.power = s.power ∧ s'.sec = s.sec ∧ s'.therm = s.therm ∧ s'.ports = s.ports ∧ s'.streams = s.streams ∧
    s'.services = s.services ∧ s'.ptpPorts = s.ptpPorts ∧ s'.ptp = s.ptp ∧ s'.chans = s.chans ∧
    s'.trim = s.trim ∧ s'.bundles = s.bundles ∧ s'.slots = s.slots ∧ s'.wt = s.wt ∧ s'.ms = s.ms ∧
    s'.pricks = s.pricks ∧ s'.templates = s.templates ∧ s'.jobs = s.jobs ∧ s'.order = s.order ∧
    s'.pillows = s.pillows ∧ s'.free = s.free := by
  have hF0 := @State.refuse_frame
  have hF1 := @State.advance_frame
  have hF2 := @State.hcNext_frame
  have hF3 := @State.convert_frame
  unfold execHcReadUrgent hostCommand; dsimp only; (repeat' split) <;> (refine ⟨_, rfl, ?_⟩; simp [hF0, hF1, hF2, hF3])

theorem execConversionEnd_next (t : Nat) (raw : BitVec 12) (rawLo : BitVec 12) (rawHi : BitVec 12) (s : State) :
    ∃ s', execConversionEnd t raw rawLo rawHi s = .next s' ∧ s'.pending = s.pending ∧ s'.now = max s.now t ∧
    s'.mem = s.mem ∧ s'.fwMem = s.fwMem ∧ s'.tb = s.tb ∧ s'.sheets = s.sheets ∧ s'.units = s.units ∧
    s'.pk = s.pk ∧ s'.errw = s.errw ∧ s'.bulk = s.bulk ∧ s'.power = s.power ∧ s'.sec = s.sec ∧
    s'.therm = s.therm ∧ s'.ports = s.ports ∧ s'.streams = s.streams ∧ s'.services = s.services ∧
    s'.ptpPorts = s.ptpPorts ∧ s'.ptp = s.ptp ∧ s'.trim = s.trim ∧ s'.bundles = s.bundles ∧
    s'.slots = s.slots ∧ s'.wt = s.wt ∧ s'.ms = s.ms ∧ s'.pricks = s.pricks ∧ s'.templates = s.templates ∧
    s'.jobs = s.jobs ∧ s'.order = s.order ∧ s'.pillows = s.pillows ∧ s'.free = s.free := by
  have hF0 := @State.advance_frame
  have hF1 := @State.hcNext_frame
  have hF2 := @State.stepEnd_frame
  have hF3 := @State.landResult_frame
  have hF4 := @State.openWire_frame
  have hF5 := @State.done_frame
  unfold execConversionEnd; dsimp only; (repeat' split) <;> (refine ⟨_, rfl, ?_⟩; simp [hF0, hF1, hF2, hF3, hF4, hF5])

/-! ## Queues -/

theorem execPacketEnter_next (t : Nat) (q : Nat) (s : State) : ∃ s', execPacketEnter t q s = .next s' ∧
    s'.pending = s.pending ∧ s'.now = max s.now t ∧ s'.mem = s.mem ∧ s'.fwMem = s.fwMem ∧ s'.tb = s.tb ∧
    s'.sheets = s.sheets ∧ s'.units = s.units ∧ s'.pins = s.pins ∧ s'.pk = s.pk ∧ s'.errw = s.errw ∧
    s'.bulk = s.bulk ∧ s'.mgmt = s.mgmt ∧ s'.power = s.power ∧ s'.sec = s.sec ∧ s'.therm = s.therm ∧
    s'.ports = s.ports ∧ s'.streams = s.streams ∧ s'.services = s.services ∧ s'.ptpPorts = s.ptpPorts ∧
    s'.ptp = s.ptp ∧ s'.chans = s.chans ∧ s'.seqs = s.seqs ∧ s'.hc = s.hc ∧ s'.trim = s.trim ∧
    s'.bundles = s.bundles ∧ s'.slots = s.slots ∧ s'.wt = s.wt ∧ s'.ms = s.ms ∧ s'.pricks = s.pricks ∧
    s'.templates = s.templates ∧ s'.jobs = s.jobs ∧ s'.order = s.order ∧ s'.pillows = s.pillows ∧
    s'.free = s.free := by
  have hF0 := @State.grantMailbox_frame
  have hF1 := @State.advance_frame
  have hF2 := @State.grantLatch_frame
  have hF3 := @State.grantWaiting_frame
  unfold execPacketEnter; (refine ⟨_, rfl, ?_⟩; simp [hF0, hF1, hF2, hF3])

theorem execErrorEntryEnter_next (t : Nat) (cls : Nat) (s : State) :
    ∃ s', execErrorEntryEnter t cls s = .next s' ∧ s'.pending = s.pending ∧ s'.now = max s.now t ∧
    s'.mem = s.mem ∧ s'.fwMem = s.fwMem ∧ s'.tb = s.tb ∧ s'.sheets = s.sheets ∧ s'.units = s.units ∧
    s'.pins = s.pins ∧ s'.pk = s.pk ∧ s'.errw = s.errw ∧ s'.bulk = s.bulk ∧ s'.mgmt = s.mgmt ∧
    s'.power = s.power ∧ s'.sec = s.sec ∧ s'.therm = s.therm ∧ s'.ports = s.ports ∧ s'.streams = s.streams ∧
    s'.services = s.services ∧ s'.ptpPorts = s.ptpPorts ∧ s'.ptp = s.ptp ∧ s'.chans = s.chans ∧
    s'.seqs = s.seqs ∧ s'.hc = s.hc ∧ s'.trim = s.trim ∧ s'.bundles = s.bundles ∧ s'.slots = s.slots ∧
    s'.wt = s.wt ∧ s'.ms = s.ms ∧ s'.pricks = s.pricks ∧ s'.templates = s.templates ∧ s'.jobs = s.jobs ∧
    s'.order = s.order ∧ s'.pillows = s.pillows ∧ s'.free = s.free := by
  have hF0 := @State.grantLatch_frame
  have hF1 := @State.advance_frame
  unfold execErrorEntryEnter; (refine ⟨_, rfl, ?_⟩; simp [hF0, hF1])

theorem execHostNoteDrain_next (t : Nat) (s : State) : ∃ s', execHostNoteDrain t s = .next s' ∧
    s'.pending = s.pending ∧ s'.now = max s.now t ∧ s'.mem = s.mem ∧ s'.fwMem = s.fwMem ∧ s'.tb = s.tb ∧
    s'.sheets = s.sheets ∧ s'.units = s.units ∧ s'.pins = s.pins ∧ s'.pk = s.pk ∧ s'.latches = s.latches ∧
    s'.errw = s.errw ∧ s'.bulk = s.bulk ∧ s'.mgmt = s.mgmt ∧ s'.power = s.power ∧ s'.sec = s.sec ∧
    s'.therm = s.therm ∧ s'.ports = s.ports ∧ s'.streams = s.streams ∧ s'.services = s.services ∧
    s'.ptpPorts = s.ptpPorts ∧ s'.ptp = s.ptp ∧ s'.chans = s.chans ∧ s'.seqs = s.seqs ∧ s'.hc = s.hc ∧
    s'.trim = s.trim ∧ s'.bundles = s.bundles ∧ s'.slots = s.slots ∧ s'.wt = s.wt ∧ s'.ms = s.ms ∧
    s'.pricks = s.pricks ∧ s'.templates = s.templates ∧ s'.jobs = s.jobs ∧ s'.order = s.order ∧
    s'.pillows = s.pillows ∧ s'.free = s.free := by
  have hF0 := @State.advance_frame
  have hF1 := @State.grantNote_frame
  unfold execHostNoteDrain; (refine ⟨_, rfl, ?_⟩; simp [hF0, hF1])

theorem execQueueFlush_next (h : Hdr) (q : Nat) (s : State) : ∃ s', execQueueFlush h q s = .next s' ∧
    s'.pending = s.pending ∧ s'.now = max s.now h.t ∧ s'.mem = s.mem ∧ s'.fwMem = s.fwMem ∧ s'.tb = s.tb ∧
    s'.sheets = s.sheets ∧ s'.units = s.units ∧ s'.pins = s.pins ∧ s'.pk = s.pk ∧ s'.latches = s.latches ∧
    s'.errw = s.errw ∧ s'.bulk = s.bulk ∧ s'.power = s.power ∧ s'.sec = s.sec ∧ s'.therm = s.therm ∧
    s'.ports = s.ports ∧ s'.streams = s.streams ∧ s'.services = s.services ∧ s'.ptpPorts = s.ptpPorts ∧
    s'.ptp = s.ptp ∧ s'.chans = s.chans ∧ s'.seqs = s.seqs ∧ s'.hc = s.hc ∧ s'.trim = s.trim ∧
    s'.bundles = s.bundles ∧ s'.slots = s.slots ∧ s'.wt = s.wt ∧ s'.ms = s.ms ∧ s'.pricks = s.pricks ∧
    s'.templates = s.templates ∧ s'.jobs = s.jobs ∧ s'.order = s.order ∧ s'.pillows = s.pillows ∧
    s'.free = s.free := by
  have hF0 := @State.refuse_frame
  have hF1 := @State.advance_frame
  have hF2 := @queueFlushDo_frame
  unfold execQueueFlush hostCommand; dsimp only; split <;> (refine ⟨_, rfl, ?_⟩; simp [hF0, hF1, hF2])

theorem execQueueFlushEffect_next (t : Nat) (q : Nat) (s : State) :
    ∃ s', execQueueFlushEffect t q s = .next s' ∧ s'.pending = s.pending ∧ s'.now = max s.now t ∧
    s'.mem = s.mem ∧ s'.fwMem = s.fwMem ∧ s'.tb = s.tb ∧ s'.sheets = s.sheets ∧ s'.units = s.units ∧
    s'.pins = s.pins ∧ s'.pk = s.pk ∧ s'.errw = s.errw ∧ s'.bulk = s.bulk ∧ s'.power = s.power ∧
    s'.sec = s.sec ∧ s'.therm = s.therm ∧ s'.ports = s.ports ∧ s'.streams = s.streams ∧
    s'.services = s.services ∧ s'.ptpPorts = s.ptpPorts ∧ s'.ptp = s.ptp ∧ s'.chans = s.chans ∧
    s'.seqs = s.seqs ∧ s'.hc = s.hc ∧ s'.trim = s.trim ∧ s'.bundles = s.bundles ∧ s'.slots = s.slots ∧
    s'.wt = s.wt ∧ s'.ms = s.ms ∧ s'.pricks = s.pricks ∧ s'.templates = s.templates ∧ s'.jobs = s.jobs ∧
    s'.order = s.order ∧ s'.pillows = s.pillows ∧ s'.free = s.free := by
  have hF0 := @State.flushQueue_frame
  have hF1 := @State.advance_frame
  unfold execQueueFlushEffect; (refine ⟨_, rfl, ?_⟩; simp [hF0, hF1])

theorem execQueueDrop_next (h : Hdr) (q : Nat) (write : Bool) (writer : Nat) (s : State) :
    ∃ s', execQueueDrop h q write writer s = .next s' ∧ s'.pending = s.pending ∧ s'.now = max s.now h.t ∧
    s'.mem = s.mem ∧ s'.fwMem = s.fwMem ∧ s'.tb = s.tb ∧ s'.sheets = s.sheets ∧ s'.units = s.units ∧
    s'.pins = s.pins ∧ s'.pk = s.pk ∧ s'.latches = s.latches ∧ s'.errw = s.errw ∧ s'.bulk = s.bulk ∧
    s'.power = s.power ∧ s'.sec = s.sec ∧ s'.therm = s.therm ∧ s'.ports = s.ports ∧ s'.streams = s.streams ∧
    s'.services = s.services ∧ s'.ptpPorts = s.ptpPorts ∧ s'.ptp = s.ptp ∧ s'.chans = s.chans ∧
    s'.seqs = s.seqs ∧ s'.hc = s.hc ∧ s'.trim = s.trim ∧ s'.bundles = s.bundles ∧ s'.slots = s.slots ∧
    s'.wt = s.wt ∧ s'.ms = s.ms ∧ s'.pricks = s.pricks ∧ s'.templates = s.templates ∧ s'.jobs = s.jobs ∧
    s'.order = s.order ∧ s'.pillows = s.pillows ∧ s'.free = s.free := by
  have hF0 := @State.refuse_frame
  have hF1 := @State.advance_frame
  have hF2 := @queueDropDo_frame
  unfold execQueueDrop hostCommand; dsimp only; split <;> (refine ⟨_, rfl, ?_⟩; simp [hF0, hF1, hF2])

theorem execShqErrPop_next (h : Hdr) (ecc : WordEcc) (s : State) : ∃ s', execShqErrPop h ecc s = .next s' ∧
    s'.pending = s.pending ∧ s'.now = max s.now h.t ∧ s'.mem = s.mem ∧ s'.fwMem = s.fwMem ∧ s'.tb = s.tb ∧
    s'.sheets = s.sheets ∧ s'.units = s.units ∧ s'.pins = s.pins ∧ s'.pk = s.pk ∧ s'.bulk = s.bulk ∧
    s'.power = s.power ∧ s'.therm = s.therm ∧ s'.ports = s.ports ∧ s'.streams = s.streams ∧
    s'.services = s.services ∧ s'.ptpPorts = s.ptpPorts ∧ s'.ptp = s.ptp ∧ s'.chans = s.chans ∧
    s'.seqs = s.seqs ∧ s'.hc = s.hc ∧ s'.trim = s.trim ∧ s'.bundles = s.bundles ∧ s'.slots = s.slots ∧
    s'.wt = s.wt ∧ s'.ms = s.ms ∧ s'.pricks = s.pricks ∧ s'.templates = s.templates ∧ s'.jobs = s.jobs ∧
    s'.order = s.order ∧ s'.pillows = s.pillows ∧ s'.free = s.free := by
  have hF0 := @State.refuse_frame
  have hF1 := @State.advance_frame
  have hF2 := @State.done_frame
  have hF3 := @State.errPop_frame
  have hF4 := @State.disarm_frame
  unfold execShqErrPop hostCommand; dsimp only; split <;> (refine ⟨_, rfl, ?_⟩; simp [hF0, hF1, hF2, hF3, hF4])

theorem execFrCtrlEnter_next (h : Hdr) (s : State) : ∃ s', execFrCtrlEnter h s = .next s' ∧
    s'.pending = s.pending ∧ s'.now = max s.now h.t ∧ s'.mem = s.mem ∧ s'.fwMem = s.fwMem ∧ s'.tb = s.tb ∧
    s'.sheets = s.sheets ∧ s'.units = s.units ∧ s'.pins = s.pins ∧ s'.pk = s.pk ∧ s'.errw = s.errw ∧
    s'.bulk = s.bulk ∧ s'.power = s.power ∧ s'.therm = s.therm ∧ s'.ports = s.ports ∧
    s'.streams = s.streams ∧ s'.services = s.services ∧ s'.ptpPorts = s.ptpPorts ∧ s'.ptp = s.ptp ∧
    s'.chans = s.chans ∧ s'.seqs = s.seqs ∧ s'.hc = s.hc ∧ s'.trim = s.trim ∧ s'.bundles = s.bundles ∧
    s'.slots = s.slots ∧ s'.wt = s.wt ∧ s'.ms = s.ms ∧ s'.pricks = s.pricks ∧ s'.templates = s.templates ∧
    s'.jobs = s.jobs ∧ s'.order = s.order ∧ s'.pillows = s.pillows ∧ s'.free = s.free := by
  have hF0 := @State.refuse_frame
  have hF1 := @State.advance_frame
  have hF2 := @State.done_frame
  have hF3 := @State.enterRecovery_frame
  have hF4 := @State.disarm_frame
  unfold execFrCtrlEnter hostCommand; dsimp only; split <;> (refine ⟨_, rfl, ?_⟩; simp [hF0, hF1, hF2, hF3, hF4])

theorem execFrCtrlLeave_next (h : Hdr) (s : State) : ∃ s', execFrCtrlLeave h s = .next s' ∧
    s'.pending = s.pending ∧ s'.now = max s.now h.t ∧ s'.mem = s.mem ∧ s'.fwMem = s.fwMem ∧ s'.tb = s.tb ∧
    s'.sheets = s.sheets ∧ s'.units = s.units ∧ s'.pins = s.pins ∧ s'.pk = s.pk ∧ s'.errw = s.errw ∧
    s'.bulk = s.bulk ∧ s'.power = s.power ∧ s'.therm = s.therm ∧ s'.ports = s.ports ∧
    s'.streams = s.streams ∧ s'.services = s.services ∧ s'.ptpPorts = s.ptpPorts ∧ s'.ptp = s.ptp ∧
    s'.chans = s.chans ∧ s'.seqs = s.seqs ∧ s'.hc = s.hc ∧ s'.trim = s.trim ∧ s'.bundles = s.bundles ∧
    s'.slots = s.slots ∧ s'.wt = s.wt ∧ s'.ms = s.ms ∧ s'.pricks = s.pricks ∧ s'.templates = s.templates ∧
    s'.jobs = s.jobs ∧ s'.order = s.order ∧ s'.pillows = s.pillows ∧ s'.free = s.free := by
  have hF0 := @State.refuse_frame
  have hF1 := @State.advance_frame
  have hF2 := @State.done_frame
  have hF3 := @State.leaveRecovery_frame
  have hF4 := @State.disarm_frame
  unfold execFrCtrlLeave hostCommand; dsimp only; split <;> (refine ⟨_, rfl, ?_⟩; simp [hF0, hF1, hF2, hF3, hF4])

theorem execMgmtCoreFault_next (t : Nat) (core : Nat) (cause : Nat) (s : State) :
    ∃ s', execMgmtCoreFault t core cause s = .next s' ∧ s'.pending = s.pending ∧ s'.now = max s.now t ∧
    s'.mem = s.mem ∧ s'.fwMem = s.fwMem ∧ s'.tb = s.tb ∧ s'.sheets = s.sheets ∧ s'.units = s.units ∧
    s'.errw = s.errw ∧ s'.bulk = s.bulk ∧ s'.power = s.power ∧ s'.sec = s.sec ∧ s'.therm = s.therm ∧
    s'.ports = s.ports ∧ s'.streams = s.streams ∧ s'.services = s.services ∧ s'.ptpPorts = s.ptpPorts ∧
    s'.ptp = s.ptp ∧ s'.chans = s.chans ∧ s'.seqs = s.seqs ∧ s'.hc = s.hc ∧ s'.trim = s.trim ∧
    s'.bundles = s.bundles ∧ s'.slots = s.slots ∧ s'.wt = s.wt ∧ s'.ms = s.ms ∧ s'.pricks = s.pricks ∧
    s'.templates = s.templates ∧ s'.jobs = s.jobs ∧ s'.order = s.order ∧ s'.pillows = s.pillows := by
  have hF0 := @State.advance_frame
  have hF1 := @State.coreFault_frame
  have hF2 := @State.report_frame
  unfold execMgmtCoreFault; (refine ⟨_, rfl, ?_⟩; simp [hF0, hF1, hF2])

theorem execDispatch_next (t : Nat) (ecc : WordEcc) (s : State) : ∃ s', execDispatch t ecc s = .next s' ∧
    s'.pending = s.pending ∧ s'.now = max s.now t ∧ s'.mem = s.mem ∧ s'.fwMem = s.fwMem ∧ s'.tb = s.tb ∧
    s'.sheets = s.sheets ∧ s'.units = s.units ∧ s'.pins = s.pins ∧ s'.pk = s.pk ∧ s'.errw = s.errw ∧
    s'.bulk = s.bulk ∧ s'.power = s.power ∧ s'.sec = s.sec ∧ s'.therm = s.therm ∧ s'.ports = s.ports ∧
    s'.streams = s.streams ∧ s'.services = s.services ∧ s'.ptpPorts = s.ptpPorts ∧ s'.ptp = s.ptp ∧
    s'.chans = s.chans ∧ s'.seqs = s.seqs ∧ s'.hc = s.hc ∧ s'.trim = s.trim ∧ s'.bundles = s.bundles ∧
    s'.slots = s.slots ∧ s'.wt = s.wt ∧ s'.ms = s.ms ∧ s'.pricks = s.pricks ∧ s'.templates = s.templates ∧
    s'.jobs = s.jobs ∧ s'.order = s.order ∧ s'.pillows = s.pillows ∧ s'.free = s.free := by
  have hF0 := @State.advance_frame
  have hF1 := @State.readCommand_frame
  have hF2 := @State.dispatchHeld_frame
  unfold execDispatch; dsimp only; (repeat' split) <;> (refine ⟨_, rfl, ?_⟩; simp [hF0, hF1, hF2])

/-! ## Power -/

theorem execPwrReq_next (h : Hdr) (domain : Nat) (ungate : Bool) (s : State) :
    ∃ s', execPwrReq h domain ungate s = .next s' ∧ s'.pending = s.pending ∧ s'.now = max s.now h.t ∧
    (Memory.wf s.mem = true → Memory.wf s'.mem = true) ∧ s'.fwMem = s.fwMem ∧ s'.tb = s.tb ∧
    s'.sheets = s.sheets ∧ s'.units = s.units ∧ s'.pins = s.pins ∧ s'.pk = s.pk ∧ s'.latches = s.latches ∧
    s'.errw = s.errw ∧ s'.bulk = s.bulk ∧ s'.therm = s.therm ∧ s'.streams = s.streams ∧
    s'.ptpPorts = s.ptpPorts ∧ s'.ptp = s.ptp ∧ s'.chans = s.chans ∧ s'.seqs = s.seqs ∧ s'.hc = s.hc ∧
    s'.trim = s.trim ∧ s'.bundles = s.bundles ∧ s'.slots = s.slots ∧ s'.wt = s.wt ∧ s'.pricks = s.pricks ∧
    s'.templates = s.templates ∧ s'.jobs = s.jobs ∧ s'.order = s.order ∧ s'.free = s.free := by
  have hF0 := @State.refuse_frame
  have hF1 := @State.advance_frame
  have hF2 := @State.done_frame
  have hF3 := @State.powerRequest_frame
  have hF4 := @State.disarm_frame
  unfold execPwrReq hostCommand; dsimp only; split <;> (refine ⟨_, rfl, ?_⟩; simp +contextual [hF0, hF1, hF2, hF3, hF4])

theorem execDomainSwitched_next (t : Nat) (s : State) : ∃ s', execDomainSwitched t s = .next s' ∧
    s'.pending = s.pending ∧ s'.now = max s.now t ∧ s'.mem = s.mem ∧ s'.fwMem = s.fwMem ∧ s'.tb = s.tb ∧
    s'.sheets = s.sheets ∧ s'.units = s.units ∧ s'.pins = s.pins ∧ s'.pk = s.pk ∧ s'.queues = s.queues ∧
    s'.latches = s.latches ∧ s'.errw = s.errw ∧ s'.sdio = s.sdio ∧ s'.bulk = s.bulk ∧ s'.mgmt = s.mgmt ∧
    s'.sec = s.sec ∧ s'.therm = s.therm ∧ s'.ports = s.ports ∧ s'.streams = s.streams ∧
    s'.services = s.services ∧ s'.ptpPorts = s.ptpPorts ∧ s'.ptp = s.ptp ∧ s'.chans = s.chans ∧
    s'.seqs = s.seqs ∧ s'.hc = s.hc ∧ s'.trim = s.trim ∧ s'.bundles = s.bundles ∧ s'.slots = s.slots ∧
    s'.wt = s.wt ∧ s'.ms = s.ms ∧ s'.pricks = s.pricks ∧ s'.templates = s.templates ∧ s'.jobs = s.jobs ∧
    s'.order = s.order ∧ s'.pillows = s.pillows ∧ s'.free = s.free := by
  have hF0 := @State.advance_frame
  unfold execDomainSwitched; dsimp only; (repeat' split) <;> (refine ⟨_, rfl, ?_⟩; simp [hF0])

theorem execDevReset_next (h : Hdr) (confirm : BitVec 32) (s : State) :
    ∃ s', execDevReset h confirm s = .next s' ∧ s'.pending = s.pending ∧ s'.now = max s.now h.t ∧
    (Memory.wf s.mem = true → Memory.wf s'.mem = true) ∧
    (Memory.wf s.fwMem = true → Memory.wf s'.fwMem = true) := by
  have hF0 := @State.advance_frame
  have hF1 := @State.refuse_frame
  have hF2 := @State.intoReset_frame
  unfold execDevReset hostCommand; dsimp only; split <;> (refine ⟨_, rfl, ?_⟩; simp +contextual [hF0, hF1, hF2])

theorem execNrstFall_next (t : Nat) (s : State) : ∃ s', execNrstFall t s = .next s' ∧
    s'.pending = s.pending ∧ s'.now = max s.now t ∧ (Memory.wf s.mem = true → Memory.wf s'.mem = true) ∧
    (Memory.wf s.fwMem = true → Memory.wf s'.fwMem = true) := by
  have hF0 := @State.advance_frame
  have hF1 := @State.intoReset_frame
  unfold execNrstFall; (refine ⟨_, rfl, ?_⟩; simp +contextual [hF0, hF1])

theorem execNrstRise_next (t : Nat) (s : State) : ∃ s', execNrstRise t s = .next s' ∧
    s'.pending = s.pending ∧ s'.now = max s.now t ∧ s'.mem = s.mem ∧ s'.fwMem = s.fwMem ∧ s'.tb = s.tb ∧
    s'.sheets = s.sheets ∧ s'.units = s.units ∧ s'.pins = s.pins ∧ s'.pk = s.pk ∧ s'.queues = s.queues ∧
    s'.latches = s.latches ∧ s'.errw = s.errw ∧ s'.sdio = s.sdio ∧ s'.bulk = s.bulk ∧ s'.sec = s.sec ∧
    s'.therm = s.therm ∧ s'.ports = s.ports ∧ s'.streams = s.streams ∧ s'.services = s.services ∧
    s'.ptpPorts = s.ptpPorts ∧ s'.ptp = s.ptp ∧ s'.chans = s.chans ∧ s'.seqs = s.seqs ∧ s'.hc = s.hc ∧
    s'.trim = s.trim ∧ s'.bundles = s.bundles ∧ s'.slots = s.slots ∧ s'.wt = s.wt ∧ s'.pricks = s.pricks ∧
    s'.templates = s.templates ∧ s'.jobs = s.jobs ∧ s'.order = s.order ∧ s'.pillows = s.pillows ∧
    s'.free = s.free := by
  have hF0 := @State.advance_frame
  have hF1 := @State.endReset_frame
  unfold execNrstRise; (refine ⟨_, rfl, ?_⟩; simp [hF0, hF1])

theorem execStrapLatch_next (t : Nat) (pkd : BitVec 8) (s : State) :
    ∃ s', execStrapLatch t pkd s = .next s' ∧ s'.pending = s.pending ∧ s'.now = max s.now t ∧
    s'.mem = s.mem ∧ s'.fwMem = s.fwMem ∧ s'.tb = s.tb ∧ s'.sheets = s.sheets ∧ s'.units = s.units ∧
    s'.pins = s.pins ∧ s'.pk = s.pk ∧ s'.queues = s.queues ∧ s'.latches = s.latches ∧ s'.errw = s.errw ∧
    s'.sdio = s.sdio ∧ s'.bulk = s.bulk ∧ s'.mgmt = s.mgmt ∧ s'.sec = s.sec ∧ s'.therm = s.therm ∧
    s'.ports = s.ports ∧ s'.streams = s.streams ∧ s'.services = s.services ∧ s'.ptpPorts = s.ptpPorts ∧
    s'.ptp = s.ptp ∧ s'.chans = s.chans ∧ s'.seqs = s.seqs ∧ s'.hc = s.hc ∧ s'.trim = s.trim ∧
    s'.bundles = s.bundles ∧ s'.slots = s.slots ∧ s'.wt = s.wt ∧ s'.ms = s.ms ∧ s'.pricks = s.pricks ∧
    s'.templates = s.templates ∧ s'.jobs = s.jobs ∧ s'.order = s.order ∧ s'.pillows = s.pillows ∧
    s'.free = s.free := by
  have hF0 := @State.advance_frame
  unfold execStrapLatch; (refine ⟨_, rfl, ?_⟩; simp [hF0])

theorem execWatchdog_next (t : Nat) (s : State) : ∃ s', execWatchdog t s = .next s' ∧
    s'.pending = s.pending ∧ s'.now = max s.now t ∧ (Memory.wf s.mem = true → Memory.wf s'.mem = true) ∧
    (Memory.wf s.fwMem = true → Memory.wf s'.fwMem = true) := by
  have hF0 := @State.advance_frame
  have hF1 := @State.intoReset_frame
  unfold execWatchdog; (refine ⟨_, rfl, ?_⟩; simp +contextual [hF0, hF1])

theorem execInternalResetEnd_next (t : Nat) (s : State) : ∃ s', execInternalResetEnd t s = .next s' ∧
    s'.pending = s.pending ∧ s'.now = max s.now t ∧ s'.mem = s.mem ∧ s'.fwMem = s.fwMem ∧ s'.tb = s.tb ∧
    s'.sheets = s.sheets ∧ s'.units = s.units ∧ s'.pins = s.pins ∧ s'.pk = s.pk ∧ s'.queues = s.queues ∧
    s'.latches = s.latches ∧ s'.errw = s.errw ∧ s'.sdio = s.sdio ∧ s'.bulk = s.bulk ∧ s'.power = s.power ∧
    s'.sec = s.sec ∧ s'.therm = s.therm ∧ s'.ports = s.ports ∧ s'.streams = s.streams ∧
    s'.services = s.services ∧ s'.ptpPorts = s.ptpPorts ∧ s'.ptp = s.ptp ∧ s'.chans = s.chans ∧
    s'.seqs = s.seqs ∧ s'.hc = s.hc ∧ s'.trim = s.trim ∧ s'.bundles = s.bundles ∧ s'.slots = s.slots ∧
    s'.wt = s.wt ∧ s'.pricks = s.pricks ∧ s'.templates = s.templates ∧ s'.jobs = s.jobs ∧
    s'.order = s.order ∧ s'.pillows = s.pillows ∧ s'.free = s.free := by
  have hF0 := @State.advance_frame
  have hF1 := @State.endReset_frame
  unfold execInternalResetEnd; (refine ⟨_, rfl, ?_⟩; simp [hF0, hF1])

theorem execPwrgdFall_next (t : Nat) (s : State) : ∃ s', execPwrgdFall t s = .next s' ∧
    s'.pending = s.pending ∧ s'.now = max s.now t ∧ s'.mem = s.mem ∧ s'.fwMem = s.fwMem ∧ s'.tb = s.tb ∧
    s'.sheets = s.sheets ∧ s'.units = s.units ∧ s'.pins = s.pins ∧ s'.pk = s.pk ∧ s'.errw = s.errw ∧
    s'.bulk = s.bulk ∧ s'.mgmt = s.mgmt ∧ s'.sec = s.sec ∧ s'.therm = s.therm ∧ s'.ports = s.ports ∧
    s'.streams = s.streams ∧ s'.services = s.services ∧ s'.ptpPorts = s.ptpPorts ∧ s'.ptp = s.ptp ∧
    s'.chans = s.chans ∧ s'.seqs = s.seqs ∧ s'.hc = s.hc ∧ s'.trim = s.trim ∧ s'.bundles = s.bundles ∧
    s'.slots = s.slots ∧ s'.wt = s.wt ∧ s'.ms = s.ms ∧ s'.pricks = s.pricks ∧ s'.templates = s.templates ∧
    s'.jobs = s.jobs ∧ s'.order = s.order ∧ s'.free = s.free := by
  have hF0 := @State.advance_frame
  have hF1 := @State.report_frame
  unfold execPwrgdFall; (refine ⟨_, rfl, ?_⟩; simp [hF0, hF1])

/-! ## Mapping -/

theorem execMapCreate_next (h : Hdr) (asid : Nat) (op : Nat) (s : State) :
    ∃ s', execMapCreate h asid op s = .next s' ∧ s'.pending = s.pending ∧ s'.now = max s.now h.t ∧
    (Memory.wf s.mem = true → Memory.wf s'.mem = true) ∧ s'.fwMem = s.fwMem ∧ s'.tb = s.tb ∧
    s'.sheets = s.sheets ∧ s'.units = s.units ∧ s'.pins = s.pins ∧ s'.pk = s.pk ∧ s'.latches = s.latches ∧
    s'.errw = s.errw ∧ s'.bulk = s.bulk ∧ s'.power = s.power ∧ s'.sec = s.sec ∧ s'.therm = s.therm ∧
    s'.ports = s.ports ∧ s'.streams = s.streams ∧ s'.services = s.services ∧ s'.ptpPorts = s.ptpPorts ∧
    s'.ptp = s.ptp ∧ s'.chans = s.chans ∧ s'.seqs = s.seqs ∧ s'.hc = s.hc ∧ s'.trim = s.trim ∧
    s'.bundles = s.bundles ∧ s'.slots = s.slots ∧ s'.wt = s.wt ∧ s'.pricks = s.pricks ∧
    s'.templates = s.templates ∧ s'.jobs = s.jobs ∧ s'.order = s.order ∧ s'.free = s.free := by
  have hF0 := @State.advance_frame
  have hF1 := @State.refuse_frame
  have hF2 := @State.done_frame
  have hF3 := @State.mapCreate_frame
  unfold execMapCreate hostCommand; dsimp only; split <;> (refine ⟨_, rfl, ?_⟩; simp +contextual [hF0, hF1, hF2, hF3])

theorem execMapPage_next (h : Hdr) (p : MapPageParams) (s : State) : ∃ s', execMapPage h p s = .next s' ∧
    s'.pending = s.pending ∧ s'.now = max s.now h.t ∧ (Memory.wf s.mem = true → Memory.wf s'.mem = true) ∧
    s'.fwMem = s.fwMem ∧ s'.tb = s.tb ∧ s'.sheets = s.sheets ∧ s'.units = s.units ∧ s'.pins = s.pins ∧
    s'.pk = s.pk ∧ s'.latches = s.latches ∧ s'.errw = s.errw ∧ s'.bulk = s.bulk ∧ s'.power = s.power ∧
    s'.sec = s.sec ∧ s'.therm = s.therm ∧ s'.ports = s.ports ∧ s'.streams = s.streams ∧
    s'.services = s.services ∧ s'.ptpPorts = s.ptpPorts ∧ s'.ptp = s.ptp ∧ s'.chans = s.chans ∧
    s'.seqs = s.seqs ∧ s'.hc = s.hc ∧ s'.trim = s.trim ∧ s'.bundles = s.bundles ∧ s'.slots = s.slots ∧
    s'.wt = s.wt ∧ s'.pricks = s.pricks ∧ s'.templates = s.templates ∧ s'.jobs = s.jobs ∧
    s'.order = s.order ∧ s'.pillows = s.pillows ∧ s'.free = s.free := by
  have hF0 := @State.advance_frame
  have hF1 := @State.refuse_frame
  have hF2 := @mapPageDo_frame
  unfold execMapPage hostCommand; dsimp only; split <;> (refine ⟨_, rfl, ?_⟩; simp +contextual [hF0, hF1, hF2])

theorem execMarchRun_next (h : Hdr) (target : Nat) (form : Nat) (index : Nat) (s : State) :
    ∃ s', execMarchRun h target form index s = .next s' ∧ s'.pending = s.pending ∧ s'.now = max s.now h.t ∧
    s'.mem = s.mem ∧ s'.fwMem = s.fwMem ∧ s'.tb = s.tb ∧ s'.sheets = s.sheets ∧ s'.units = s.units ∧
    s'.pins = s.pins ∧ s'.pk = s.pk ∧ s'.latches = s.latches ∧ s'.errw = s.errw ∧ s'.bulk = s.bulk ∧
    s'.power = s.power ∧ s'.sec = s.sec ∧ s'.therm = s.therm ∧ s'.ports = s.ports ∧ s'.streams = s.streams ∧
    s'.services = s.services ∧ s'.ptpPorts = s.ptpPorts ∧ s'.ptp = s.ptp ∧ s'.chans = s.chans ∧
    s'.seqs = s.seqs ∧ s'.hc = s.hc ∧ s'.trim = s.trim ∧ s'.bundles = s.bundles ∧ s'.slots = s.slots ∧
    s'.wt = s.wt ∧ s'.pricks = s.pricks ∧ s'.templates = s.templates ∧ s'.jobs = s.jobs ∧
    s'.order = s.order ∧ s'.pillows = s.pillows ∧ s'.free = s.free := by
  have hF0 := @State.refuse_frame
  have hF1 := @State.advance_frame
  have hF2 := @marchRunDo_frame
  unfold execMarchRun hostCommand; dsimp only; split <;> (refine ⟨_, rfl, ?_⟩; simp [hF0, hF1, hF2])

/-! ## Pricking -/

theorem execPrickLoadOpen_next (h : Hdr) (prk : Nat) (size : Nat) (s : State) :
    ∃ s', execPrickLoadOpen h prk size s = .next s' ∧ s'.pending = s.pending ∧ s'.now = max s.now h.t ∧
    s'.mem = s.mem ∧ s'.fwMem = s.fwMem ∧ s'.tb = s.tb ∧ s'.sheets = s.sheets ∧ s'.units = s.units ∧
    s'.pins = s.pins ∧ s'.pk = s.pk ∧ s'.latches = s.latches ∧ s'.errw = s.errw ∧ s'.bulk = s.bulk ∧
    s'.power = s.power ∧ s'.sec = s.sec ∧ s'.therm = s.therm ∧ s'.ports = s.ports ∧ s'.streams = s.streams ∧
    s'.services = s.services ∧ s'.ptpPorts = s.ptpPorts ∧ s'.ptp = s.ptp ∧ s'.chans = s.chans ∧
    s'.seqs = s.seqs ∧ s'.hc = s.hc ∧ s'.trim = s.trim ∧ s'.bundles = s.bundles ∧ s'.slots = s.slots ∧
    s'.wt = s.wt ∧ s'.ms = s.ms ∧ s'.templates = s.templates ∧ s'.jobs = s.jobs ∧ s'.order = s.order ∧
    s'.pillows = s.pillows ∧ s'.free = s.free := by
  have hF0 := @State.refuse_frame
  have hF1 := @State.advance_frame
  have hF2 := @State.done_frame
  have hF3 := @State.setPrick_frame
  unfold execPrickLoadOpen hostCommand; dsimp only; split <;> (refine ⟨_, rfl, ?_⟩; simp [hF0, hF1, hF2, hF3])

theorem execPrickLoadData_next (h : Hdr) (prk : Nat) (offset : Nat) (data : Bytes) (s : State) :
    ∃ s', execPrickLoadData h prk offset data s = .next s' ∧ s'.pending = s.pending ∧
    s'.now = max s.now h.t ∧ s'.mem = s.mem ∧ s'.fwMem = s.fwMem ∧ s'.tb = s.tb ∧ s'.sheets = s.sheets ∧
    s'.units = s.units ∧ s'.pins = s.pins ∧ s'.pk = s.pk ∧ s'.latches = s.latches ∧ s'.errw = s.errw ∧
    s'.bulk = s.bulk ∧ s'.power = s.power ∧ s'.sec = s.sec ∧ s'.therm = s.therm ∧ s'.ports = s.ports ∧
    s'.streams = s.streams ∧ s'.services = s.services ∧ s'.ptpPorts = s.ptpPorts ∧ s'.ptp = s.ptp ∧
    s'.chans = s.chans ∧ s'.seqs = s.seqs ∧ s'.hc = s.hc ∧ s'.trim = s.trim ∧ s'.bundles = s.bundles ∧
    s'.slots = s.slots ∧ s'.wt = s.wt ∧ s'.ms = s.ms ∧ s'.templates = s.templates ∧ s'.jobs = s.jobs ∧
    s'.order = s.order ∧ s'.pillows = s.pillows ∧ s'.free = s.free := by
  have hF0 := @State.refuse_frame
  have hF1 := @State.advance_frame
  have hF2 := @State.done_frame
  have hF3 := @State.modPrick_frame
  unfold execPrickLoadData hostCommand; dsimp only; split <;> (refine ⟨_, rfl, ?_⟩; simp [hF0, hF1, hF2, hF3])

theorem execPrickLoadClose_next (h : Hdr) (prk : Nat) (s : State) :
    ∃ s', execPrickLoadClose h prk s = .next s' ∧ s'.pending = s.pending ∧ s'.now = max s.now h.t ∧
    s'.mem = s.mem ∧ s'.fwMem = s.fwMem ∧ s'.tb = s.tb ∧ s'.sheets = s.sheets ∧ s'.units = s.units ∧
    s'.pins = s.pins ∧ s'.pk = s.pk ∧ s'.latches = s.latches ∧ s'.errw = s.errw ∧ s'.bulk = s.bulk ∧
    s'.power = s.power ∧ s'.sec = s.sec ∧ s'.therm = s.therm ∧ s'.ports = s.ports ∧ s'.streams = s.streams ∧
    s'.services = s.services ∧ s'.ptpPorts = s.ptpPorts ∧ s'.ptp = s.ptp ∧ s'.chans = s.chans ∧
    s'.seqs = s.seqs ∧ s'.hc = s.hc ∧ s'.trim = s.trim ∧ s'.bundles = s.bundles ∧ s'.slots = s.slots ∧
    s'.wt = s.wt ∧ s'.ms = s.ms ∧ s'.templates = s.templates ∧ s'.jobs = s.jobs ∧ s'.order = s.order ∧
    s'.pillows = s.pillows ∧ s'.free = s.free := by
  have hF0 := @State.refuse_frame
  have hF1 := @State.advance_frame
  have hF2 := @prickCloseDo_frame
  unfold execPrickLoadClose hostCommand; dsimp only; split <;> (refine ⟨_, rfl, ?_⟩; simp [hF0, hF1, hF2])

theorem execPrickLoadDiscard_next (h : Hdr) (prk : Nat) (s : State) :
    ∃ s', execPrickLoadDiscard h prk s = .next s' ∧ s'.pending = s.pending ∧ s'.now = max s.now h.t ∧
    s'.mem = s.mem ∧ s'.fwMem = s.fwMem ∧ s'.tb = s.tb ∧ s'.sheets = s.sheets ∧ s'.units = s.units ∧
    s'.pins = s.pins ∧ s'.pk = s.pk ∧ s'.latches = s.latches ∧ s'.errw = s.errw ∧ s'.bulk = s.bulk ∧
    s'.power = s.power ∧ s'.sec = s.sec ∧ s'.therm = s.therm ∧ s'.ports = s.ports ∧ s'.streams = s.streams ∧
    s'.services = s.services ∧ s'.ptpPorts = s.ptpPorts ∧ s'.ptp = s.ptp ∧ s'.chans = s.chans ∧
    s'.seqs = s.seqs ∧ s'.hc = s.hc ∧ s'.trim = s.trim ∧ s'.bundles = s.bundles ∧ s'.slots = s.slots ∧
    s'.wt = s.wt ∧ s'.ms = s.ms ∧ s'.templates = s.templates ∧ s'.jobs = s.jobs ∧ s'.order = s.order ∧
    s'.pillows = s.pillows ∧ s'.free = s.free := by
  have hF0 := @State.refuse_frame
  have hF1 := @State.advance_frame
  have hF2 := @State.done_frame
  have hF3 := @State.setPrick_frame
  unfold execPrickLoadDiscard hostCommand; dsimp only; split <;> (refine ⟨_, rfl, ?_⟩; simp [hF0, hF1, hF2, hF3])

/-! ## Security -/

theorem execFirmwareLoadEnd_next (t : Nat) (flash : FlashRead) (s : State) :
    ∃ s', execFirmwareLoadEnd t flash s = .next s' ∧ s'.pending = s.pending ∧ s'.now = max s.now t ∧
    s'.mem = s.mem ∧ s'.fwMem = s.fwMem ∧ s'.tb = s.tb ∧ s'.sheets = s.sheets ∧ s'.units = s.units ∧
    s'.pins = s.pins ∧ s'.pk = s.pk ∧ s'.errw = s.errw ∧ s'.bulk = s.bulk ∧ s'.therm = s.therm ∧
    s'.ports = s.ports ∧ s'.streams = s.streams ∧ s'.services = s.services ∧ s'.ptpPorts = s.ptpPorts ∧
    s'.ptp = s.ptp ∧ s'.chans = s.chans ∧ s'.seqs = s.seqs ∧ s'.hc = s.hc ∧ s'.trim = s.trim ∧
    s'.bundles = s.bundles ∧ s'.slots = s.slots ∧ s'.wt = s.wt ∧ s'.ms = s.ms ∧ s'.pricks = s.pricks ∧
    s'.templates = s.templates ∧ s'.jobs = s.jobs ∧ s'.order = s.order ∧ s'.pillows = s.pillows ∧
    s'.free = s.free := by
  have hF0 := @State.advance_frame
  have hF1 := @State.startFirmware_frame
  have hF2 := @State.bootFlash_frame
  unfold execFirmwareLoadEnd; dsimp only; (repeat' split) <;> (refine ⟨_, rfl, ?_⟩; simp [hF0, hF1, hF2])

theorem execFirmwareInitEnd_next (t : Nat) (s : State) : ∃ s', execFirmwareInitEnd t s = .next s' ∧
    s'.pending = s.pending ∧ s'.now = max s.now t ∧ (Memory.wf s.mem = true → Memory.wf s'.mem = true) ∧
    s'.fwMem = s.fwMem ∧ s'.tb = s.tb ∧ s'.sheets = s.sheets ∧ s'.units = s.units ∧ s'.pins = s.pins ∧
    s'.pk = s.pk ∧ s'.queues = s.queues ∧ s'.latches = s.latches ∧ s'.errw = s.errw ∧ s'.sdio = s.sdio ∧
    s'.bulk = s.bulk ∧ s'.sec = s.sec ∧ s'.therm = s.therm ∧ s'.ports = s.ports ∧ s'.streams = s.streams ∧
    s'.services = s.services ∧ s'.ptpPorts = s.ptpPorts ∧ s'.ptp = s.ptp ∧ s'.chans = s.chans ∧
    s'.seqs = s.seqs ∧ s'.hc = s.hc ∧ s'.trim = s.trim ∧ s'.bundles = s.bundles ∧ s'.slots = s.slots ∧
    s'.wt = s.wt ∧ s'.pricks = s.pricks ∧ s'.templates = s.templates ∧ s'.jobs = s.jobs ∧
    s'.order = s.order ∧ s'.pillows = s.pillows ∧ s'.free = s.free := by
  have hF0 := @State.advance_frame
  unfold execFirmwareInitEnd
  dsimp only
  refine ⟨_, rfl, ?_⟩
  split <;> simp +contextual [hF0]

theorem execPllLock_next (t : Nat) (marchOk : Bool) (s : State) : ∃ s', execPllLock t marchOk s = .next s' ∧
    s'.pending = s.pending ∧ s'.now = max s.now t ∧ s'.mem = s.mem ∧
    (Memory.wf s.fwMem = true → Memory.wf s'.fwMem = true) ∧ s'.tb = s.tb ∧ s'.sheets = s.sheets ∧
    s'.units = s.units ∧ s'.errw = s.errw ∧ s'.bulk = s.bulk ∧ s'.sec = s.sec ∧ s'.therm = s.therm ∧
    s'.ports = s.ports ∧ s'.streams = s.streams ∧ s'.services = s.services ∧ s'.ptpPorts = s.ptpPorts ∧
    s'.ptp = s.ptp ∧ s'.chans = s.chans ∧ s'.seqs = s.seqs ∧ s'.hc = s.hc ∧ s'.trim = s.trim ∧
    s'.bundles = s.bundles ∧ s'.slots = s.slots ∧ s'.wt = s.wt ∧ s'.ms = s.ms ∧ s'.pricks = s.pricks ∧
    s'.templates = s.templates ∧ s'.jobs = s.jobs ∧ s'.order = s.order ∧ s'.pillows = s.pillows ∧
    s'.free = s.free := by
  have hF0 := @State.advance_frame
  have hF1 := @State.enterFatal_frame
  unfold execPllLock; (refine ⟨_, rfl, ?_⟩; simp +contextual [hF0, hF1])

theorem execFwUpdateOpen_next (h : Hdr) (length : Nat) (s : State) :
    ∃ s', execFwUpdateOpen h length s = .next s' ∧ s'.pending = s.pending ∧ s'.now = max s.now h.t ∧
    s'.mem = s.mem ∧ s'.fwMem = s.fwMem ∧ s'.tb = s.tb ∧ s'.sheets = s.sheets ∧ s'.units = s.units ∧
    s'.pins = s.pins ∧ s'.pk = s.pk ∧ s'.latches = s.latches ∧ s'.errw = s.errw ∧ s'.power = s.power ∧
    s'.therm = s.therm ∧ s'.ports = s.ports ∧ s'.streams = s.streams ∧ s'.services = s.services ∧
    s'.ptpPorts = s.ptpPorts ∧ s'.ptp = s.ptp ∧ s'.chans = s.chans ∧ s'.seqs = s.seqs ∧ s'.hc = s.hc ∧
    s'.trim = s.trim ∧ s'.bundles = s.bundles ∧ s'.slots = s.slots ∧ s'.wt = s.wt ∧ s'.ms = s.ms ∧
    s'.pricks = s.pricks ∧ s'.templates = s.templates ∧ s'.jobs = s.jobs ∧ s'.order = s.order ∧
    s'.pillows = s.pillows ∧ s'.free = s.free := by
  have hF0 := @State.refuse_frame
  have hF1 := @State.advance_frame
  have hF2 := @fwUpdateOpenDo_frame
  unfold execFwUpdateOpen hostCommand; dsimp only; split <;> (refine ⟨_, rfl, ?_⟩; simp [hF0, hF1, hF2])

theorem execFwUpdateClose_next (h : Hdr) (sigOk : Bool) (s : State) :
    ∃ s', execFwUpdateClose h sigOk s = .next s' ∧ s'.pending = s.pending ∧ s'.now = max s.now h.t ∧
    s'.mem = s.mem ∧ s'.fwMem = s.fwMem ∧ s'.tb = s.tb ∧ s'.sheets = s.sheets ∧ s'.units = s.units ∧
    s'.pins = s.pins ∧ s'.pk = s.pk ∧ s'.errw = s.errw ∧ s'.power = s.power ∧ s'.therm = s.therm ∧
    s'.ports = s.ports ∧ s'.streams = s.streams ∧ s'.services = s.services ∧ s'.ptpPorts = s.ptpPorts ∧
    s'.ptp = s.ptp ∧ s'.chans = s.chans ∧ s'.seqs = s.seqs ∧ s'.hc = s.hc ∧ s'.trim = s.trim ∧
    s'.bundles = s.bundles ∧ s'.slots = s.slots ∧ s'.wt = s.wt ∧ s'.ms = s.ms ∧ s'.pricks = s.pricks ∧
    s'.templates = s.templates ∧ s'.jobs = s.jobs ∧ s'.order = s.order ∧ s'.pillows = s.pillows ∧
    s'.free = s.free := by
  have hF0 := @State.refuse_frame
  have hF1 := @State.advance_frame
  have hF2 := @fwUpdateCloseDo_frame
  unfold execFwUpdateClose hostCommand; dsimp only; split <;> (refine ⟨_, rfl, ?_⟩; simp [hF0, hF1, hF2])

theorem execFwUpdateDiscard_next (h : Hdr) (s : State) : ∃ s', execFwUpdateDiscard h s = .next s' ∧
    s'.pending = s.pending ∧ s'.now = max s.now h.t ∧ s'.mem = s.mem ∧ s'.fwMem = s.fwMem ∧ s'.tb = s.tb ∧
    s'.sheets = s.sheets ∧ s'.units = s.units ∧ s'.pins = s.pins ∧ s'.pk = s.pk ∧ s'.latches = s.latches ∧
    s'.errw = s.errw ∧ s'.power = s.power ∧ s'.therm = s.therm ∧ s'.ports = s.ports ∧
    s'.streams = s.streams ∧ s'.services = s.services ∧ s'.ptpPorts = s.ptpPorts ∧ s'.ptp = s.ptp ∧
    s'.chans = s.chans ∧ s'.seqs = s.seqs ∧ s'.hc = s.hc ∧ s'.trim = s.trim ∧ s'.bundles = s.bundles ∧
    s'.slots = s.slots ∧ s'.wt = s.wt ∧ s'.ms = s.ms ∧ s'.pricks = s.pricks ∧ s'.templates = s.templates ∧
    s'.jobs = s.jobs ∧ s'.order = s.order ∧ s'.pillows = s.pillows ∧ s'.free = s.free := by
  have hF0 := @State.refuse_frame
  have hF1 := @State.advance_frame
  have hF2 := @State.done_frame
  unfold execFwUpdateDiscard hostCommand; dsimp only; split <;> (refine ⟨_, rfl, ?_⟩; simp [hF0, hF1, hF2])

theorem execFlashWriteStageEnd_next (t : Nat) (ok : Bool) (s : State) :
    ∃ s', execFlashWriteStageEnd t ok s = .next s' ∧ s'.pending = s.pending ∧ s'.now = max s.now t ∧
    s'.mem = s.mem ∧ s'.fwMem = s.fwMem ∧ s'.tb = s.tb ∧ s'.sheets = s.sheets ∧ s'.units = s.units ∧
    s'.pins = s.pins ∧ s'.pk = s.pk ∧ s'.errw = s.errw ∧ s'.bulk = s.bulk ∧ s'.mgmt = s.mgmt ∧
    s'.power = s.power ∧ s'.therm = s.therm ∧ s'.ports = s.ports ∧ s'.streams = s.streams ∧
    s'.services = s.services ∧ s'.ptpPorts = s.ptpPorts ∧ s'.ptp = s.ptp ∧ s'.chans = s.chans ∧
    s'.seqs = s.seqs ∧ s'.hc = s.hc ∧ s'.trim = s.trim ∧ s'.bundles = s.bundles ∧ s'.slots = s.slots ∧
    s'.wt = s.wt ∧ s'.ms = s.ms ∧ s'.pricks = s.pricks ∧ s'.templates = s.templates ∧ s'.jobs = s.jobs ∧
    s'.order = s.order ∧ s'.pillows = s.pillows ∧ s'.free = s.free := by
  have hF0 := @State.advance_frame
  have hF1 := @State.security_frame
  unfold execFlashWriteStageEnd; (refine ⟨_, rfl, ?_⟩; simp [hF0, hF1])

theorem execSecArm_next (h : Hdr) (key : BitVec 32) (s : State) : ∃ s', execSecArm h key s = .next s' ∧
    s'.pending = s.pending ∧ s'.now = max s.now h.t ∧ s'.mem = s.mem ∧ s'.fwMem = s.fwMem ∧ s'.tb = s.tb ∧
    s'.sheets = s.sheets ∧ s'.units = s.units ∧ s'.pins = s.pins ∧ s'.pk = s.pk ∧ s'.latches = s.latches ∧
    s'.errw = s.errw ∧ s'.bulk = s.bulk ∧ s'.power = s.power ∧ s'.therm = s.therm ∧ s'.ports = s.ports ∧
    s'.streams = s.streams ∧ s'.services = s.services ∧ s'.ptpPorts = s.ptpPorts ∧ s'.ptp = s.ptp ∧
    s'.chans = s.chans ∧ s'.seqs = s.seqs ∧ s'.hc = s.hc ∧ s'.trim = s.trim ∧ s'.bundles = s.bundles ∧
    s'.slots = s.slots ∧ s'.wt = s.wt ∧ s'.ms = s.ms ∧ s'.pricks = s.pricks ∧ s'.templates = s.templates ∧
    s'.jobs = s.jobs ∧ s'.order = s.order ∧ s'.pillows = s.pillows ∧ s'.free = s.free := by
  have hF0 := @State.refuse_frame
  have hF1 := @State.advance_frame
  have hF2 := @State.done_frame
  have hF3 := @State.arm_frame
  unfold execSecArm hostCommand; dsimp only; split <;> (refine ⟨_, rfl, ?_⟩; simp [hF0, hF1, hF2, hF3])

theorem execSecOpSeal_next (h : Hdr) (s : State) : ∃ s', execSecOpSeal h s = .next s' ∧
    s'.pending = s.pending ∧ s'.now = max s.now h.t ∧ s'.mem = s.mem ∧ s'.fwMem = s.fwMem ∧ s'.tb = s.tb ∧
    s'.sheets = s.sheets ∧ s'.units = s.units ∧ s'.pins = s.pins ∧ s'.pk = s.pk ∧ s'.errw = s.errw ∧
    s'.bulk = s.bulk ∧ s'.power = s.power ∧ s'.therm = s.therm ∧ s'.ports = s.ports ∧
    s'.streams = s.streams ∧ s'.services = s.services ∧ s'.ptpPorts = s.ptpPorts ∧ s'.ptp = s.ptp ∧
    s'.chans = s.chans ∧ s'.seqs = s.seqs ∧ s'.hc = s.hc ∧ s'.trim = s.trim ∧ s'.bundles = s.bundles ∧
    s'.slots = s.slots ∧ s'.wt = s.wt ∧ s'.ms = s.ms ∧ s'.pricks = s.pricks ∧ s'.templates = s.templates ∧
    s'.jobs = s.jobs ∧ s'.order = s.order ∧ s'.pillows = s.pillows ∧ s'.free = s.free := by
  have hF0 := @State.refuse_frame
  have hF1 := @State.advance_frame
  have hF2 := @State.done_frame
  have hF3 := @State.sealOff_frame
  have hF4 := @State.disarm_frame
  unfold execSecOpSeal hostCommand; dsimp only; split <;> (refine ⟨_, rfl, ?_⟩; simp [hF0, hF1, hF2, hF3, hF4])

theorem execSecOpRevoke_next (h : Hdr) (mask : BitVec 8) (s : State) :
    ∃ s', execSecOpRevoke h mask s = .next s' ∧ s'.pending = s.pending ∧ s'.now = max s.now h.t ∧
    s'.mem = s.mem ∧ s'.fwMem = s.fwMem ∧ s'.tb = s.tb ∧ s'.sheets = s.sheets ∧ s'.units = s.units ∧
    s'.pins = s.pins ∧ s'.pk = s.pk ∧ s'.errw = s.errw ∧ s'.bulk = s.bulk ∧ s'.power = s.power ∧
    s'.therm = s.therm ∧ s'.ports = s.ports ∧ s'.streams = s.streams ∧ s'.services = s.services ∧
    s'.ptpPorts = s.ptpPorts ∧ s'.ptp = s.ptp ∧ s'.chans = s.chans ∧ s'.seqs = s.seqs ∧ s'.hc = s.hc ∧
    s'.trim = s.trim ∧ s'.bundles = s.bundles ∧ s'.slots = s.slots ∧ s'.wt = s.wt ∧ s'.ms = s.ms ∧
    s'.pricks = s.pricks ∧ s'.templates = s.templates ∧ s'.jobs = s.jobs ∧ s'.order = s.order ∧
    s'.pillows = s.pillows ∧ s'.free = s.free := by
  have hF0 := @State.refuse_frame
  have hF1 := @State.advance_frame
  have hF2 := @State.done_frame
  have hF3 := @State.revoke_frame
  have hF4 := @State.disarm_frame
  unfold execSecOpRevoke hostCommand; dsimp only; split <;> (refine ⟨_, rfl, ?_⟩; simp [hF0, hF1, hF2, hF3, hF4])

theorem execAttestForm_next (h : Hdr) (nonce : Bytes) (s : State) :
    ∃ s', execAttestForm h nonce s = .next s' ∧ s'.pending = s.pending ∧ s'.now = max s.now h.t ∧
    s'.mem = s.mem ∧ s'.fwMem = s.fwMem ∧ s'.tb = s.tb ∧ s'.sheets = s.sheets ∧ s'.units = s.units ∧
    s'.pins = s.pins ∧ s'.pk = s.pk ∧ s'.latches = s.latches ∧ s'.errw = s.errw ∧ s'.bulk = s.bulk ∧
    s'.power = s.power ∧ s'.therm = s.therm ∧ s'.ports = s.ports ∧ s'.streams = s.streams ∧
    s'.services = s.services ∧ s'.ptpPorts = s.ptpPorts ∧ s'.ptp = s.ptp ∧ s'.chans = s.chans ∧
    s'.seqs = s.seqs ∧ s'.hc = s.hc ∧ s'.trim = s.trim ∧ s'.bundles = s.bundles ∧ s'.slots = s.slots ∧
    s'.wt = s.wt ∧ s'.ms = s.ms ∧ s'.pricks = s.pricks ∧ s'.templates = s.templates ∧ s'.jobs = s.jobs ∧
    s'.order = s.order ∧ s'.pillows = s.pillows ∧ s'.free = s.free := by
  have hF0 := @State.refuse_frame
  have hF1 := @State.advance_frame
  have hF2 := @attestFormDo_frame
  unfold execAttestForm hostCommand; dsimp only; split <;> (refine ⟨_, rfl, ?_⟩; simp [hF0, hF1, hF2])

theorem execAttestRead_next (h : Hdr) (offset : Nat) (s : State) :
    ∃ s', execAttestRead h offset s = .next s' ∧ s'.pending = s.pending ∧ s'.now = max s.now h.t ∧
    s'.mem = s.mem ∧ s'.fwMem = s.fwMem ∧ s'.tb = s.tb ∧ s'.sheets = s.sheets ∧ s'.units = s.units ∧
    s'.pins = s.pins ∧ s'.pk = s.pk ∧ s'.latches = s.latches ∧ s'.errw = s.errw ∧ s'.bulk = s.bulk ∧
    s'.power = s.power ∧ s'.sec = s.sec ∧ s'.therm = s.therm ∧ s'.ports = s.ports ∧ s'.streams = s.streams ∧
    s'.services = s.services ∧ s'.ptpPorts = s.ptpPorts ∧ s'.ptp = s.ptp ∧ s'.chans = s.chans ∧
    s'.seqs = s.seqs ∧ s'.hc = s.hc ∧ s'.trim = s.trim ∧ s'.bundles = s.bundles ∧ s'.slots = s.slots ∧
    s'.wt = s.wt ∧ s'.ms = s.ms ∧ s'.pricks = s.pricks ∧ s'.templates = s.templates ∧ s'.jobs = s.jobs ∧
    s'.order = s.order ∧ s'.pillows = s.pillows ∧ s'.free = s.free := by
  have hF0 := @State.refuse_frame
  have hF1 := @State.advance_frame
  have hF2 := @State.done_frame
  unfold execAttestRead hostCommand; dsimp only; split <;> (refine ⟨_, rfl, ?_⟩; simp [hF0, hF1, hF2])

theorem execDebugToken_next (t : Nat) (device : BitVec 64) (challenge : BitVec 256) (key : Nat) (sigOk : Bool) (s : State) :
    ∃ s', execDebugToken t device challenge key sigOk s = .next s' ∧ s'.pending = s.pending ∧
    s'.now = max s.now t ∧ s'.mem = s.mem ∧ s'.fwMem = s.fwMem ∧ s'.tb = s.tb ∧ s'.sheets = s.sheets ∧
    s'.units = s.units ∧ s'.pins = s.pins ∧ s'.pk = s.pk ∧ s'.errw = s.errw ∧ s'.bulk = s.bulk ∧
    s'.mgmt = s.mgmt ∧ s'.power = s.power ∧ s'.therm = s.therm ∧ s'.ports = s.ports ∧
    s'.streams = s.streams ∧ s'.services = s.services ∧ s'.ptpPorts = s.ptpPorts ∧ s'.ptp = s.ptp ∧
    s'.chans = s.chans ∧ s'.seqs = s.seqs ∧ s'.hc = s.hc ∧ s'.trim = s.trim ∧ s'.bundles = s.bundles ∧
    s'.slots = s.slots ∧ s'.wt = s.wt ∧ s'.ms = s.ms ∧ s'.pricks = s.pricks ∧ s'.templates = s.templates ∧
    s'.jobs = s.jobs ∧ s'.order = s.order ∧ s'.pillows = s.pillows ∧ s'.free = s.free := by
  have hF0 := @State.advance_frame
  have hF1 := @State.security_frame
  unfold execDebugToken; dsimp only; (repeat' split) <;> (refine ⟨_, rfl, ?_⟩; simp [hF0, hF1])

theorem execTapInstruction_next (t : Nat) (ins : TapIns) (s : State) :
    ∃ s', execTapInstruction t ins s = .next s' ∧ s'.pending = s.pending ∧ s'.now = max s.now t ∧
    s'.mem = s.mem ∧ s'.fwMem = s.fwMem ∧ s'.tb = s.tb ∧ s'.sheets = s.sheets ∧ s'.units = s.units ∧
    s'.pins = s.pins ∧ s'.pk = s.pk ∧ s'.queues = s.queues ∧ s'.latches = s.latches ∧ s'.errw = s.errw ∧
    s'.sdio = s.sdio ∧ s'.bulk = s.bulk ∧ s'.mgmt = s.mgmt ∧ s'.power = s.power ∧ s'.therm = s.therm ∧
    s'.ports = s.ports ∧ s'.streams = s.streams ∧ s'.services = s.services ∧ s'.ptpPorts = s.ptpPorts ∧
    s'.ptp = s.ptp ∧ s'.chans = s.chans ∧ s'.seqs = s.seqs ∧ s'.hc = s.hc ∧ s'.trim = s.trim ∧
    s'.bundles = s.bundles ∧ s'.slots = s.slots ∧ s'.wt = s.wt ∧ s'.ms = s.ms ∧ s'.pricks = s.pricks ∧
    s'.templates = s.templates ∧ s'.jobs = s.jobs ∧ s'.order = s.order ∧ s'.pillows = s.pillows ∧
    s'.free = s.free := by
  have hF0 := @State.advance_frame
  unfold execTapInstruction; (refine ⟨_, rfl, ?_⟩; simp [hF0])

theorem execTapReset_next (t : Nat) (s : State) : ∃ s', execTapReset t s = .next s' ∧
    s'.pending = s.pending ∧ s'.now = max s.now t ∧ s'.mem = s.mem ∧ s'.fwMem = s.fwMem ∧ s'.tb = s.tb ∧
    s'.sheets = s.sheets ∧ s'.units = s.units ∧ s'.pins = s.pins ∧ s'.pk = s.pk ∧ s'.queues = s.queues ∧
    s'.latches = s.latches ∧ s'.errw = s.errw ∧ s'.sdio = s.sdio ∧ s'.bulk = s.bulk ∧ s'.mgmt = s.mgmt ∧
    s'.power = s.power ∧ s'.therm = s.therm ∧ s'.ports = s.ports ∧ s'.streams = s.streams ∧
    s'.services = s.services ∧ s'.ptpPorts = s.ptpPorts ∧ s'.ptp = s.ptp ∧ s'.chans = s.chans ∧
    s'.seqs = s.seqs ∧ s'.hc = s.hc ∧ s'.trim = s.trim ∧ s'.bundles = s.bundles ∧ s'.slots = s.slots ∧
    s'.wt = s.wt ∧ s'.ms = s.ms ∧ s'.pricks = s.pricks ∧ s'.templates = s.templates ∧ s'.jobs = s.jobs ∧
    s'.order = s.order ∧ s'.pillows = s.pillows ∧ s'.free = s.free := by
  have hF0 := @State.advance_frame
  unfold execTapReset; (refine ⟨_, rfl, ?_⟩; simp [hF0])

theorem execDevInfo_next (h : Hdr) (s : State) : ∃ s', execDevInfo h s = .next s' ∧ s'.pending = s.pending ∧
    s'.now = max s.now h.t ∧ s'.mem = s.mem ∧ s'.fwMem = s.fwMem ∧ s'.tb = s.tb ∧ s'.sheets = s.sheets ∧
    s'.units = s.units ∧ s'.pins = s.pins ∧ s'.pk = s.pk ∧ s'.latches = s.latches ∧ s'.errw = s.errw ∧
    s'.bulk = s.bulk ∧ s'.power = s.power ∧ s'.sec = s.sec ∧ s'.therm = s.therm ∧ s'.ports = s.ports ∧
    s'.streams = s.streams ∧ s'.services = s.services ∧ s'.ptpPorts = s.ptpPorts ∧ s'.ptp = s.ptp ∧
    s'.chans = s.chans ∧ s'.seqs = s.seqs ∧ s'.hc = s.hc ∧ s'.trim = s.trim ∧ s'.bundles = s.bundles ∧
    s'.slots = s.slots ∧ s'.wt = s.wt ∧ s'.ms = s.ms ∧ s'.pricks = s.pricks ∧ s'.templates = s.templates ∧
    s'.jobs = s.jobs ∧ s'.order = s.order ∧ s'.pillows = s.pillows ∧ s'.free = s.free := by
  have hF0 := @State.refuse_frame
  have hF1 := @State.advance_frame
  have hF2 := @State.done_frame
  unfold execDevInfo hostCommand; dsimp only; split <;> (refine ⟨_, rfl, ?_⟩; simp [hF0, hF1, hF2])

/-! ## Sdio -/

theorem execCmd0_next (t : Nat) (s : State) : ∃ s', execCmd0 t s = .next s' ∧ s'.pending = s.pending ∧
    s'.now = max s.now t ∧ s'.mem = s.mem ∧ s'.fwMem = s.fwMem ∧ s'.tb = s.tb ∧ s'.sheets = s.sheets ∧
    s'.units = s.units ∧ s'.pins = s.pins ∧ s'.pk = s.pk ∧ s'.queues = s.queues ∧ s'.latches = s.latches ∧
    s'.errw = s.errw ∧ s'.bulk = s.bulk ∧ s'.mgmt = s.mgmt ∧ s'.power = s.power ∧ s'.sec = s.sec ∧
    s'.therm = s.therm ∧ s'.ports = s.ports ∧ s'.streams = s.streams ∧ s'.services = s.services ∧
    s'.ptpPorts = s.ptpPorts ∧ s'.ptp = s.ptp ∧ s'.chans = s.chans ∧ s'.seqs = s.seqs ∧ s'.hc = s.hc ∧
    s'.trim = s.trim ∧ s'.bundles = s.bundles ∧ s'.slots = s.slots ∧ s'.wt = s.wt ∧ s'.ms = s.ms ∧
    s'.pricks = s.pricks ∧ s'.templates = s.templates ∧ s'.jobs = s.jobs ∧ s'.order = s.order ∧
    s'.pillows = s.pillows ∧ s'.free = s.free := by
  have hF0 := @State.advance_frame
  unfold execCmd0; (refine ⟨_, rfl, ?_⟩; simp [hF0])

theorem execCmd5_next (t : Nat) (s : State) : ∃ s', execCmd5 t s = .next s' ∧ s'.pending = s.pending ∧
    s'.now = max s.now t ∧ s'.mem = s.mem ∧ s'.fwMem = s.fwMem ∧ s'.tb = s.tb ∧ s'.sheets = s.sheets ∧
    s'.units = s.units ∧ s'.pins = s.pins ∧ s'.pk = s.pk ∧ s'.queues = s.queues ∧ s'.latches = s.latches ∧
    s'.errw = s.errw ∧ s'.bulk = s.bulk ∧ s'.mgmt = s.mgmt ∧ s'.power = s.power ∧ s'.sec = s.sec ∧
    s'.therm = s.therm ∧ s'.ports = s.ports ∧ s'.streams = s.streams ∧ s'.services = s.services ∧
    s'.ptpPorts = s.ptpPorts ∧ s'.ptp = s.ptp ∧ s'.chans = s.chans ∧ s'.seqs = s.seqs ∧ s'.hc = s.hc ∧
    s'.trim = s.trim ∧ s'.bundles = s.bundles ∧ s'.slots = s.slots ∧ s'.wt = s.wt ∧ s'.ms = s.ms ∧
    s'.pricks = s.pricks ∧ s'.templates = s.templates ∧ s'.jobs = s.jobs ∧ s'.order = s.order ∧
    s'.pillows = s.pillows := by
  have hF0 := @State.advance_frame
  have hF1 := @State.cmd5_frame
  unfold execCmd5; dsimp only; (repeat' split) <;> (refine ⟨_, rfl, ?_⟩; simp [hF0, hF1])

theorem execCmd3_next (t : Nat) (s : State) : ∃ s', execCmd3 t s = .next s' ∧ s'.pending = s.pending ∧
    s'.now = max s.now t ∧ s'.mem = s.mem ∧ s'.fwMem = s.fwMem ∧ s'.tb = s.tb ∧ s'.sheets = s.sheets ∧
    s'.units = s.units ∧ s'.pins = s.pins ∧ s'.pk = s.pk ∧ s'.queues = s.queues ∧ s'.latches = s.latches ∧
    s'.errw = s.errw ∧ s'.bulk = s.bulk ∧ s'.mgmt = s.mgmt ∧ s'.power = s.power ∧ s'.sec = s.sec ∧
    s'.therm = s.therm ∧ s'.ports = s.ports ∧ s'.streams = s.streams ∧ s'.services = s.services ∧
    s'.ptpPorts = s.ptpPorts ∧ s'.ptp = s.ptp ∧ s'.chans = s.chans ∧ s'.seqs = s.seqs ∧ s'.hc = s.hc ∧
    s'.trim = s.trim ∧ s'.bundles = s.bundles ∧ s'.slots = s.slots ∧ s'.wt = s.wt ∧ s'.ms = s.ms ∧
    s'.pricks = s.pricks ∧ s'.templates = s.templates ∧ s'.jobs = s.jobs ∧ s'.order = s.order ∧
    s'.pillows = s.pillows := by
  have hF0 := @State.advance_frame
  have hF1 := @State.draw_frame
  unfold execCmd3; dsimp only; (repeat' split) <;> (refine ⟨_, rfl, ?_⟩; simp [hF0, hF1])

theorem execCmd7_next (t : Nat) (select : Bool) (s : State) : ∃ s', execCmd7 t select s = .next s' ∧
    s'.pending = s.pending ∧ s'.now = max s.now t ∧ s'.mem = s.mem ∧ s'.fwMem = s.fwMem ∧ s'.tb = s.tb ∧
    s'.sheets = s.sheets ∧ s'.units = s.units ∧ s'.pins = s.pins ∧ s'.pk = s.pk ∧ s'.queues = s.queues ∧
    s'.latches = s.latches ∧ s'.errw = s.errw ∧ s'.bulk = s.bulk ∧ s'.mgmt = s.mgmt ∧ s'.power = s.power ∧
    s'.sec = s.sec ∧ s'.therm = s.therm ∧ s'.ports = s.ports ∧ s'.streams = s.streams ∧
    s'.services = s.services ∧ s'.ptpPorts = s.ptpPorts ∧ s'.ptp = s.ptp ∧ s'.chans = s.chans ∧
    s'.seqs = s.seqs ∧ s'.hc = s.hc ∧ s'.trim = s.trim ∧ s'.bundles = s.bundles ∧ s'.slots = s.slots ∧
    s'.wt = s.wt ∧ s'.ms = s.ms ∧ s'.pricks = s.pricks ∧ s'.templates = s.templates ∧ s'.jobs = s.jobs ∧
    s'.order = s.order ∧ s'.pillows = s.pillows ∧ s'.free = s.free := by
  have hF0 := @State.advance_frame
  have hF1 := @State.sdAnswer_frame
  unfold execCmd7; (refine ⟨_, rfl, ?_⟩; simp [hF0, hF1])

theorem execCmd11_next (t : Nat) (s : State) : ∃ s', execCmd11 t s = .next s' ∧ s'.pending = s.pending ∧
    s'.now = max s.now t ∧ s'.mem = s.mem ∧ s'.fwMem = s.fwMem ∧ s'.tb = s.tb ∧ s'.sheets = s.sheets ∧
    s'.units = s.units ∧ s'.pins = s.pins ∧ s'.pk = s.pk ∧ s'.queues = s.queues ∧ s'.latches = s.latches ∧
    s'.errw = s.errw ∧ s'.bulk = s.bulk ∧ s'.mgmt = s.mgmt ∧ s'.power = s.power ∧ s'.sec = s.sec ∧
    s'.therm = s.therm ∧ s'.ports = s.ports ∧ s'.streams = s.streams ∧ s'.services = s.services ∧
    s'.ptpPorts = s.ptpPorts ∧ s'.ptp = s.ptp ∧ s'.chans = s.chans ∧ s'.seqs = s.seqs ∧ s'.hc = s.hc ∧
    s'.trim = s.trim ∧ s'.bundles = s.bundles ∧ s'.slots = s.slots ∧ s'.wt = s.wt ∧ s'.ms = s.ms ∧
    s'.pricks = s.pricks ∧ s'.templates = s.templates ∧ s'.jobs = s.jobs ∧ s'.order = s.order ∧
    s'.pillows = s.pillows ∧ s'.free = s.free := by
  have hF0 := @State.advance_frame
  unfold execCmd11; (refine ⟨_, rfl, ?_⟩; simp [hF0])

theorem execCmd15_next (t : Nat) (s : State) : ∃ s', execCmd15 t s = .next s' ∧ s'.pending = s.pending ∧
    s'.now = max s.now t ∧ s'.mem = s.mem ∧ s'.fwMem = s.fwMem ∧ s'.tb = s.tb ∧ s'.sheets = s.sheets ∧
    s'.units = s.units ∧ s'.pins = s.pins ∧ s'.pk = s.pk ∧ s'.queues = s.queues ∧ s'.latches = s.latches ∧
    s'.errw = s.errw ∧ s'.bulk = s.bulk ∧ s'.mgmt = s.mgmt ∧ s'.power = s.power ∧ s'.sec = s.sec ∧
    s'.therm = s.therm ∧ s'.ports = s.ports ∧ s'.streams = s.streams ∧ s'.services = s.services ∧
    s'.ptpPorts = s.ptpPorts ∧ s'.ptp = s.ptp ∧ s'.chans = s.chans ∧ s'.seqs = s.seqs ∧ s'.hc = s.hc ∧
    s'.trim = s.trim ∧ s'.bundles = s.bundles ∧ s'.slots = s.slots ∧ s'.wt = s.wt ∧ s'.ms = s.ms ∧
    s'.pricks = s.pricks ∧ s'.templates = s.templates ∧ s'.jobs = s.jobs ∧ s'.order = s.order ∧
    s'.pillows = s.pillows ∧ s'.free = s.free := by
  have hF0 := @State.advance_frame
  have hF1 := @State.sdAnswer_frame
  unfold execCmd15; (refine ⟨_, rfl, ?_⟩; simp [hF0, hF1])

theorem execCmd19_next (t : Nat) (s : State) : ∃ s', execCmd19 t s = .next s' ∧ s'.pending = s.pending ∧
    s'.now = max s.now t ∧ s'.mem = s.mem ∧ s'.fwMem = s.fwMem ∧ s'.tb = s.tb ∧ s'.sheets = s.sheets ∧
    s'.units = s.units ∧ s'.pins = s.pins ∧ s'.pk = s.pk ∧ s'.queues = s.queues ∧ s'.latches = s.latches ∧
    s'.errw = s.errw ∧ s'.bulk = s.bulk ∧ s'.mgmt = s.mgmt ∧ s'.power = s.power ∧ s'.sec = s.sec ∧
    s'.therm = s.therm ∧ s'.ports = s.ports ∧ s'.streams = s.streams ∧ s'.services = s.services ∧
    s'.ptpPorts = s.ptpPorts ∧ s'.ptp = s.ptp ∧ s'.chans = s.chans ∧ s'.seqs = s.seqs ∧ s'.hc = s.hc ∧
    s'.trim = s.trim ∧ s'.bundles = s.bundles ∧ s'.slots = s.slots ∧ s'.wt = s.wt ∧ s'.ms = s.ms ∧
    s'.pricks = s.pricks ∧ s'.templates = s.templates ∧ s'.jobs = s.jobs ∧ s'.order = s.order ∧
    s'.pillows = s.pillows ∧ s'.free = s.free := by
  have hF0 := @State.advance_frame
  unfold execCmd19; (refine ⟨_, rfl, ?_⟩; simp [hF0])

theorem execF2BlockWrite_next (t : Nat) (data : Bytes) (crcOk : Bool) (s : State) :
    ∃ s', execF2BlockWrite t data crcOk s = .next s' ∧ s'.pending = s.pending ∧ s'.now = max s.now t ∧
    (Memory.wf s.mem = true → Memory.wf s'.mem = true) ∧ s'.fwMem = s.fwMem ∧ s'.tb = s.tb ∧
    s'.sheets = s.sheets ∧ s'.units = s.units ∧ s'.pins = s.pins ∧ s'.pk = s.pk ∧ s'.queues = s.queues ∧
    s'.latches = s.latches ∧ s'.errw = s.errw ∧ s'.mgmt = s.mgmt ∧ s'.power = s.power ∧ s'.sec = s.sec ∧
    s'.therm = s.therm ∧ s'.ports = s.ports ∧ s'.streams = s.streams ∧ s'.services = s.services ∧
    s'.ptpPorts = s.ptpPorts ∧ s'.ptp = s.ptp ∧ s'.chans = s.chans ∧ s'.seqs = s.seqs ∧ s'.hc = s.hc ∧
    s'.trim = s.trim ∧ s'.bundles = s.bundles ∧ s'.slots = s.slots ∧ s'.wt = s.wt ∧ s'.pricks = s.pricks ∧
    s'.templates = s.templates ∧ s'.jobs = s.jobs ∧ s'.order = s.order ∧ s'.pillows = s.pillows ∧
    s'.free = s.free := by
  have hF0 := @State.advance_frame
  have hF1 := @State.sdAnswer_frame
  have hF2 := @State.takeBlock_frame
  have hF3 := @State.crcFailed_frame
  unfold execF2BlockWrite; (refine ⟨_, rfl, ?_⟩; simp +contextual [hF0, hF1, hF2, hF3])

theorem execF2BlockRead_next (t : Nat) (s : State) : ∃ s', execF2BlockRead t s = .next s' ∧
    s'.pending = s.pending ∧ s'.now = max s.now t ∧ s'.mem = s.mem ∧ s'.fwMem = s.fwMem ∧ s'.tb = s.tb ∧
    s'.sheets = s.sheets ∧ s'.units = s.units ∧ s'.pins = s.pins ∧ s'.pk = s.pk ∧ s'.queues = s.queues ∧
    s'.latches = s.latches ∧ s'.errw = s.errw ∧ s'.sdio = s.sdio ∧ s'.mgmt = s.mgmt ∧ s'.power = s.power ∧
    s'.sec = s.sec ∧ s'.therm = s.therm ∧ s'.ports = s.ports ∧ s'.streams = s.streams ∧
    s'.services = s.services ∧ s'.ptpPorts = s.ptpPorts ∧ s'.ptp = s.ptp ∧ s'.chans = s.chans ∧
    s'.seqs = s.seqs ∧ s'.hc = s.hc ∧ s'.trim = s.trim ∧ s'.bundles = s.bundles ∧ s'.slots = s.slots ∧
    s'.wt = s.wt ∧ s'.ms = s.ms ∧ s'.pricks = s.pricks ∧ s'.templates = s.templates ∧ s'.jobs = s.jobs ∧
    s'.order = s.order ∧ s'.pillows = s.pillows ∧ s'.free = s.free := by
  have hF0 := @State.serveBlock_frame
  have hF1 := @State.advance_frame
  unfold execF2BlockRead; (refine ⟨_, rfl, ?_⟩; simp [hF0, hF1])

theorem execMailboxWrite_next (t : Nat) (data : Bytes) (crcOk : Bool) (s : State) :
    ∃ s', execMailboxWrite t data crcOk s = .next s' ∧ s'.pending = s.pending ∧ s'.now = max s.now t ∧
    s'.mem = s.mem ∧ s'.fwMem = s.fwMem ∧ s'.tb = s.tb ∧ s'.sheets = s.sheets ∧ s'.units = s.units ∧
    s'.pins = s.pins ∧ s'.pk = s.pk ∧ s'.latches = s.latches ∧ s'.errw = s.errw ∧ s'.bulk = s.bulk ∧
    s'.mgmt = s.mgmt ∧ s'.power = s.power ∧ s'.sec = s.sec ∧ s'.therm = s.therm ∧ s'.ports = s.ports ∧
    s'.streams = s.streams ∧ s'.services = s.services ∧ s'.ptpPorts = s.ptpPorts ∧ s'.ptp = s.ptp ∧
    s'.chans = s.chans ∧ s'.seqs = s.seqs ∧ s'.hc = s.hc ∧ s'.trim = s.trim ∧ s'.bundles = s.bundles ∧
    s'.slots = s.slots ∧ s'.wt = s.wt ∧ s'.ms = s.ms ∧ s'.pricks = s.pricks ∧ s'.templates = s.templates ∧
    s'.jobs = s.jobs ∧ s'.order = s.order ∧ s'.pillows = s.pillows ∧ s'.free = s.free := by
  have hF0 := @State.advance_frame
  have hF1 := @State.sdAnswer_frame
  have hF2 := @State.crcFailed_frame
  have hF3 := @State.mailboxTake_frame
  have hF4 := @State.mailboxWait_frame
  unfold execMailboxWrite; (refine ⟨_, rfl, ?_⟩; simp [hF0, hF1, hF2, hF3, hF4])

theorem execMailboxPacketEnter_next (t : Nat) (s : State) : ∃ s', execMailboxPacketEnter t s = .next s' ∧
    s'.pending = s.pending ∧ s'.now = max s.now t ∧ s'.mem = s.mem ∧ s'.fwMem = s.fwMem ∧ s'.tb = s.tb ∧
    s'.sheets = s.sheets ∧ s'.units = s.units ∧ s'.pins = s.pins ∧ s'.pk = s.pk ∧ s'.latches = s.latches ∧
    s'.errw = s.errw ∧ s'.bulk = s.bulk ∧ s'.mgmt = s.mgmt ∧ s'.power = s.power ∧ s'.sec = s.sec ∧
    s'.therm = s.therm ∧ s'.ports = s.ports ∧ s'.streams = s.streams ∧ s'.services = s.services ∧
    s'.ptpPorts = s.ptpPorts ∧ s'.ptp = s.ptp ∧ s'.chans = s.chans ∧ s'.seqs = s.seqs ∧ s'.hc = s.hc ∧
    s'.trim = s.trim ∧ s'.bundles = s.bundles ∧ s'.slots = s.slots ∧ s'.wt = s.wt ∧ s'.ms = s.ms ∧
    s'.pricks = s.pricks ∧ s'.templates = s.templates ∧ s'.jobs = s.jobs ∧ s'.order = s.order ∧
    s'.pillows = s.pillows ∧ s'.free = s.free := by
  have hF0 := @State.grantMailbox_frame
  have hF1 := @State.advance_frame
  unfold execMailboxPacketEnter; (refine ⟨_, rfl, ?_⟩; simp [hF0, hF1])

theorem execReplyWindowRead_next (t : Nat) (n : Nat) (ecc : WordEcc) (s : State) :
    ∃ s', execReplyWindowRead t n ecc s = .next s' ∧ s'.pending = s.pending ∧ s'.now = max s.now t ∧
    s'.mem = s.mem ∧ s'.fwMem = s.fwMem ∧ s'.tb = s.tb ∧ s'.sheets = s.sheets ∧ s'.units = s.units ∧
    s'.pins = s.pins ∧ s'.pk = s.pk ∧ s'.errw = s.errw ∧ s'.bulk = s.bulk ∧ s'.power = s.power ∧
    s'.sec = s.sec ∧ s'.therm = s.therm ∧ s'.ports = s.ports ∧ s'.streams = s.streams ∧
    s'.services = s.services ∧ s'.ptpPorts = s.ptpPorts ∧ s'.ptp = s.ptp ∧ s'.chans = s.chans ∧
    s'.seqs = s.seqs ∧ s'.hc = s.hc ∧ s'.trim = s.trim ∧ s'.bundles = s.bundles ∧ s'.slots = s.slots ∧
    s'.wt = s.wt ∧ s'.ms = s.ms ∧ s'.pricks = s.pricks ∧ s'.templates = s.templates ∧ s'.jobs = s.jobs ∧
    s'.order = s.order ∧ s'.pillows = s.pillows ∧ s'.free = s.free := by
  have hF0 := @State.advance_frame
  have hF1 := @State.sdAnswer_frame
  have hF2 := @State.windowRead_frame
  unfold execReplyWindowRead; (refine ⟨_, rfl, ?_⟩; simp [hF0, hF1, hF2])

theorem execTransportByteWrite_next (t : Nat) (fn : Nat) (addr : Nat) (value : Byte) (s : State) :
    ∃ s', execTransportByteWrite t fn addr value s = .next s' ∧ s'.pending = s.pending ∧
    s'.now = max s.now t ∧ s'.mem = s.mem ∧ s'.fwMem = s.fwMem ∧ s'.tb = s.tb ∧ s'.sheets = s.sheets ∧
    s'.units = s.units ∧ s'.pins = s.pins ∧ s'.pk = s.pk ∧ s'.queues = s.queues ∧ s'.latches = s.latches ∧
    s'.errw = s.errw ∧ s'.mgmt = s.mgmt ∧ s'.power = s.power ∧ s'.sec = s.sec ∧ s'.therm = s.therm ∧
    s'.ports = s.ports ∧ s'.streams = s.streams ∧ s'.services = s.services ∧ s'.ptpPorts = s.ptpPorts ∧
    s'.ptp = s.ptp ∧ s'.chans = s.chans ∧ s'.seqs = s.seqs ∧ s'.hc = s.hc ∧ s'.trim = s.trim ∧
    s'.bundles = s.bundles ∧ s'.slots = s.slots ∧ s'.wt = s.wt ∧ s'.ms = s.ms ∧ s'.pricks = s.pricks ∧
    s'.templates = s.templates ∧ s'.jobs = s.jobs ∧ s'.order = s.order ∧ s'.pillows = s.pillows ∧
    s'.free = s.free := by
  have hF0 := @State.advance_frame
  have hF1 := @State.f1Write_frame
  have hF2 := @State.f2Write_frame
  unfold execTransportByteWrite; (refine ⟨_, rfl, ?_⟩; simp [hF0, hF1, hF2])

theorem execIoAbort_next (t : Nat) (fn : Nat) (inCmd : Bool) (s : State) :
    ∃ s', execIoAbort t fn inCmd s = .next s' ∧ s'.pending = s.pending ∧ s'.now = max s.now t ∧
    s'.mem = s.mem ∧ s'.fwMem = s.fwMem ∧ s'.tb = s.tb ∧ s'.sheets = s.sheets ∧ s'.units = s.units ∧
    s'.pins = s.pins ∧ s'.pk = s.pk ∧ s'.queues = s.queues ∧ s'.latches = s.latches ∧ s'.errw = s.errw ∧
    s'.mgmt = s.mgmt ∧ s'.power = s.power ∧ s'.sec = s.sec ∧ s'.therm = s.therm ∧ s'.ports = s.ports ∧
    s'.streams = s.streams ∧ s'.services = s.services ∧ s'.ptpPorts = s.ptpPorts ∧ s'.ptp = s.ptp ∧
    s'.chans = s.chans ∧ s'.seqs = s.seqs ∧ s'.hc = s.hc ∧ s'.trim = s.trim ∧ s'.bundles = s.bundles ∧
    s'.slots = s.slots ∧ s'.wt = s.wt ∧ s'.ms = s.ms ∧ s'.pricks = s.pricks ∧ s'.templates = s.templates ∧
    s'.jobs = s.jobs ∧ s'.order = s.order ∧ s'.pillows = s.pillows ∧ s'.free = s.free := by
  have hF0 := @State.ioAbort_frame
  have hF1 := @State.advance_frame
  unfold execIoAbort; (refine ⟨_, rfl, ?_⟩; simp [hF0, hF1])

theorem execIoReset_next (t : Nat) (s : State) : ∃ s', execIoReset t s = .next s' ∧ s'.pending = s.pending ∧
    s'.now = max s.now t ∧ s'.mem = s.mem ∧ s'.fwMem = s.fwMem ∧ s'.tb = s.tb ∧ s'.sheets = s.sheets ∧
    s'.units = s.units ∧ s'.pins = s.pins ∧ s'.pk = s.pk ∧ s'.latches = s.latches ∧ s'.errw = s.errw ∧
    s'.mgmt = s.mgmt ∧ s'.power = s.power ∧ s'.therm = s.therm ∧ s'.ports = s.ports ∧
    s'.streams = s.streams ∧ s'.services = s.services ∧ s'.ptpPorts = s.ptpPorts ∧ s'.ptp = s.ptp ∧
    s'.chans = s.chans ∧ s'.seqs = s.seqs ∧ s'.hc = s.hc ∧ s'.trim = s.trim ∧ s'.bundles = s.bundles ∧
    s'.slots = s.slots ∧ s'.wt = s.wt ∧ s'.ms = s.ms ∧ s'.pricks = s.pricks ∧ s'.templates = s.templates ∧
    s'.jobs = s.jobs ∧ s'.order = s.order ∧ s'.pillows = s.pillows ∧ s'.free = s.free := by
  have hF0 := @State.ioReset_frame
  have hF1 := @State.advance_frame
  unfold execIoReset; (refine ⟨_, rfl, ?_⟩; simp [hF0, hF1])

theorem execCccrWrite_next (t : Nat) (addr : Nat) (value : Byte) (s : State) :
    ∃ s', execCccrWrite t addr value s = .next s' ∧ s'.pending = s.pending ∧ s'.now = max s.now t ∧
    s'.mem = s.mem ∧ s'.fwMem = s.fwMem ∧ s'.tb = s.tb ∧ s'.sheets = s.sheets ∧ s'.units = s.units ∧
    s'.pins = s.pins ∧ s'.pk = s.pk ∧ s'.latches = s.latches ∧ s'.errw = s.errw ∧ s'.mgmt = s.mgmt ∧
    s'.power = s.power ∧ s'.therm = s.therm ∧ s'.ports = s.ports ∧ s'.streams = s.streams ∧
    s'.services = s.services ∧ s'.ptpPorts = s.ptpPorts ∧ s'.ptp = s.ptp ∧ s'.chans = s.chans ∧
    s'.seqs = s.seqs ∧ s'.hc = s.hc ∧ s'.trim = s.trim ∧ s'.bundles = s.bundles ∧ s'.slots = s.slots ∧
    s'.wt = s.wt ∧ s'.ms = s.ms ∧ s'.pricks = s.pricks ∧ s'.templates = s.templates ∧ s'.jobs = s.jobs ∧
    s'.order = s.order ∧ s'.pillows = s.pillows ∧ s'.free = s.free := by
  have hF0 := @State.advance_frame
  have hF1 := @State.cccrWrite_frame
  unfold execCccrWrite; (refine ⟨_, rfl, ?_⟩; simp [hF0, hF1])

theorem execTransportByteRead_next (t : Nat) (fn : Nat) (addr : Nat) (s : State) :
    ∃ s', execTransportByteRead t fn addr s = .next s' ∧ s'.pending = s.pending ∧ s'.now = max s.now t ∧
    s'.mem = s.mem ∧ s'.fwMem = s.fwMem ∧ s'.tb = s.tb ∧ s'.sheets = s.sheets ∧ s'.units = s.units ∧
    s'.pins = s.pins ∧ s'.pk = s.pk ∧ s'.queues = s.queues ∧ s'.latches = s.latches ∧ s'.errw = s.errw ∧
    s'.mgmt = s.mgmt ∧ s'.power = s.power ∧ s'.sec = s.sec ∧ s'.therm = s.therm ∧ s'.ports = s.ports ∧
    s'.streams = s.streams ∧ s'.services = s.services ∧ s'.ptpPorts = s.ptpPorts ∧ s'.ptp = s.ptp ∧
    s'.chans = s.chans ∧ s'.seqs = s.seqs ∧ s'.hc = s.hc ∧ s'.trim = s.trim ∧ s'.bundles = s.bundles ∧
    s'.slots = s.slots ∧ s'.wt = s.wt ∧ s'.ms = s.ms ∧ s'.pricks = s.pricks ∧ s'.templates = s.templates ∧
    s'.jobs = s.jobs ∧ s'.order = s.order ∧ s'.pillows = s.pillows ∧ s'.free = s.free := by
  have hF0 := @State.f1Read_frame
  have hF1 := @State.f2Read_frame
  have hF2 := @State.advance_frame
  unfold execTransportByteRead; (refine ⟨_, rfl, ?_⟩; simp [hF0, hF1, hF2])

/-! ## Calibration -/

theorem execHcSelfcalEnd_next (t : Nat) (res : CalResult) (s : State) :
    ∃ s', execHcSelfcalEnd t res s = .next s' ∧ s'.pending = s.pending ∧ s'.now = max s.now t ∧
    s'.mem = s.mem ∧ s'.fwMem = s.fwMem ∧ s'.tb = s.tb ∧ s'.sheets = s.sheets ∧ s'.units = s.units ∧
    s'.pins = s.pins ∧ s'.pk = s.pk ∧ s'.errw = s.errw ∧ s'.bulk = s.bulk ∧ s'.mgmt = s.mgmt ∧
    s'.power = s.power ∧ s'.sec = s.sec ∧ s'.therm = s.therm ∧ s'.ports = s.ports ∧ s'.streams = s.streams ∧
    s'.services = s.services ∧ s'.ptpPorts = s.ptpPorts ∧ s'.ptp = s.ptp ∧ s'.chans = s.chans ∧
    s'.bundles = s.bundles ∧ s'.slots = s.slots ∧ s'.wt = s.wt ∧ s'.ms = s.ms ∧ s'.pricks = s.pricks ∧
    s'.templates = s.templates ∧ s'.jobs = s.jobs ∧ s'.order = s.order ∧ s'.pillows = s.pillows ∧
    s'.free = s.free := by
  have hF0 := @State.advance_frame
  have hF1 := @State.hcNext_frame
  have hF2 := @State.reply_frame
  have hF3 := @State.keepAll_frame
  unfold execHcSelfcalEnd; dsimp only; (repeat' split) <;> (refine ⟨_, rfl, ?_⟩; simp [hF0, hF1, hF2, hF3])

theorem execCalRun_next (h : Hdr) (s : State) : ∃ s', execCalRun h s = .next s' ∧ s'.pending = s.pending ∧
    s'.now = max s.now h.t ∧ s'.mem = s.mem ∧ s'.fwMem = s.fwMem ∧ s'.tb = s.tb ∧ s'.sheets = s.sheets ∧
    s'.units = s.units ∧ s'.pins = s.pins ∧ s'.pk = s.pk ∧ s'.latches = s.latches ∧ s'.errw = s.errw ∧
    s'.bulk = s.bulk ∧ s'.power = s.power ∧ s'.sec = s.sec ∧ s'.therm = s.therm ∧ s'.ports = s.ports ∧
    s'.streams = s.streams ∧ s'.services = s.services ∧ s'.ptpPorts = s.ptpPorts ∧ s'.ptp = s.ptp ∧
    s'.chans = s.chans ∧ s'.seqs = s.seqs ∧ s'.hc = s.hc ∧ s'.bundles = s.bundles ∧ s'.slots = s.slots ∧
    s'.wt = s.wt ∧ s'.ms = s.ms ∧ s'.pricks = s.pricks ∧ s'.templates = s.templates ∧ s'.jobs = s.jobs ∧
    s'.order = s.order ∧ s'.pillows = s.pillows ∧ s'.free = s.free := by
  have hF0 := @State.refuse_frame
  have hF1 := @State.advance_frame
  have hF2 := @calRunDo_frame
  unfold execCalRun hostCommand; dsimp only; split <;> (refine ⟨_, rfl, ?_⟩; simp [hF0, hF1, hF2])

theorem execCalRunEnd_next (t : Nat) (res : CalResult) (s : State) :
    ∃ s', execCalRunEnd t res s = .next s' ∧ s'.pending = s.pending ∧ s'.now = max s.now t ∧
    (Memory.wf s.mem = true → Memory.wf s'.mem = true) ∧ s'.fwMem = s.fwMem ∧ s'.tb = s.tb ∧
    s'.sheets = s.sheets ∧ s'.units = s.units ∧ s'.errw = s.errw ∧ s'.bulk = s.bulk ∧ s'.therm = s.therm ∧
    s'.streams = s.streams ∧ s'.ptpPorts = s.ptpPorts ∧ s'.ptp = s.ptp ∧ s'.chans = s.chans ∧
    s'.bundles = s.bundles ∧ s'.slots = s.slots ∧ s'.wt = s.wt ∧ s'.pricks = s.pricks ∧
    s'.templates = s.templates ∧ s'.order = s.order := by
  have hF0 := @State.advance_frame
  have hF1 := @State.settlePillows_frame
  have hF2 := @State.calEnd_frame
  have hF3 := @State.calTake_frame
  unfold execCalRunEnd; dsimp only; (repeat' split) <;> (refine ⟨_, rfl, ?_⟩; simp +contextual [hF0, hF1, hF2, hF3])

theorem execTrimRead_next (h : Hdr) (offset : Nat) (length : Nat) (s : State) :
    ∃ s', execTrimRead h offset length s = .next s' ∧ s'.pending = s.pending ∧ s'.now = max s.now h.t ∧
    s'.mem = s.mem ∧ s'.fwMem = s.fwMem ∧ s'.tb = s.tb ∧ s'.sheets = s.sheets ∧ s'.units = s.units ∧
    s'.pins = s.pins ∧ s'.pk = s.pk ∧ s'.latches = s.latches ∧ s'.errw = s.errw ∧ s'.power = s.power ∧
    s'.sec = s.sec ∧ s'.therm = s.therm ∧ s'.ports = s.ports ∧ s'.streams = s.streams ∧
    s'.services = s.services ∧ s'.ptpPorts = s.ptpPorts ∧ s'.ptp = s.ptp ∧ s'.chans = s.chans ∧
    s'.seqs = s.seqs ∧ s'.hc = s.hc ∧ s'.trim = s.trim ∧ s'.bundles = s.bundles ∧ s'.slots = s.slots ∧
    s'.wt = s.wt ∧ s'.ms = s.ms ∧ s'.pricks = s.pricks ∧ s'.templates = s.templates ∧ s'.jobs = s.jobs ∧
    s'.order = s.order ∧ s'.pillows = s.pillows ∧ s'.free = s.free := by
  have hF0 := @State.refuse_frame
  have hF1 := @State.advance_frame
  have hF2 := @trimReadDo_frame
  unfold execTrimRead hostCommand; dsimp only; split <;> (refine ⟨_, rfl, ?_⟩; simp [hF0, hF1, hF2])

theorem execTrimSnapshotReady_next (t : Nat) (s : State) : ∃ s', execTrimSnapshotReady t s = .next s' ∧
    s'.pending = s.pending ∧ s'.now = max s.now t ∧ s'.mem = s.mem ∧ s'.fwMem = s.fwMem ∧ s'.tb = s.tb ∧
    s'.sheets = s.sheets ∧ s'.units = s.units ∧ s'.pins = s.pins ∧ s'.pk = s.pk ∧ s'.queues = s.queues ∧
    s'.latches = s.latches ∧ s'.errw = s.errw ∧ s'.sdio = s.sdio ∧ s'.mgmt = s.mgmt ∧ s'.power = s.power ∧
    s'.sec = s.sec ∧ s'.therm = s.therm ∧ s'.ports = s.ports ∧ s'.streams = s.streams ∧
    s'.services = s.services ∧ s'.ptpPorts = s.ptpPorts ∧ s'.ptp = s.ptp ∧ s'.chans = s.chans ∧
    s'.seqs = s.seqs ∧ s'.hc = s.hc ∧ s'.trim = s.trim ∧ s'.bundles = s.bundles ∧ s'.slots = s.slots ∧
    s'.wt = s.wt ∧ s'.ms = s.ms ∧ s'.pricks = s.pricks ∧ s'.templates = s.templates ∧ s'.jobs = s.jobs ∧
    s'.order = s.order ∧ s'.pillows = s.pillows ∧ s'.free = s.free := by
  have hF0 := @State.advance_frame
  unfold execTrimSnapshotReady; dsimp only; (repeat' split) <;> (refine ⟨_, rfl, ?_⟩; simp [hF0])

theorem execTrimWrite_next (h : Hdr) (s : State) : ∃ s', execTrimWrite h s = .next s' ∧
    s'.pending = s.pending ∧ s'.now = max s.now h.t ∧ s'.mem = s.mem ∧ s'.fwMem = s.fwMem ∧ s'.tb = s.tb ∧
    s'.sheets = s.sheets ∧ s'.units = s.units ∧ s'.pins = s.pins ∧ s'.pk = s.pk ∧ s'.latches = s.latches ∧
    s'.errw = s.errw ∧ s'.power = s.power ∧ s'.sec = s.sec ∧ s'.therm = s.therm ∧ s'.ports = s.ports ∧
    s'.streams = s.streams ∧ s'.services = s.services ∧ s'.ptpPorts = s.ptpPorts ∧ s'.ptp = s.ptp ∧
    s'.chans = s.chans ∧ s'.seqs = s.seqs ∧ s'.hc = s.hc ∧ s'.trim = s.trim ∧ s'.bundles = s.bundles ∧
    s'.slots = s.slots ∧ s'.wt = s.wt ∧ s'.ms = s.ms ∧ s'.pricks = s.pricks ∧ s'.templates = s.templates ∧
    s'.jobs = s.jobs ∧ s'.order = s.order ∧ s'.pillows = s.pillows ∧ s'.free = s.free := by
  have hF0 := @State.refuse_frame
  have hF1 := @State.advance_frame
  have hF2 := @trimWriteDo_frame
  unfold execTrimWrite hostCommand; dsimp only; split <;> (refine ⟨_, rfl, ?_⟩; simp [hF0, hF1, hF2])

theorem execTrimWriteCheck_next (t : Nat) (s : State) : ∃ s', execTrimWriteCheck t s = .next s' ∧
    s'.pending = s.pending ∧ s'.now = max s.now t ∧ (Memory.wf s.mem = true → Memory.wf s'.mem = true) ∧
    s'.fwMem = s.fwMem ∧ s'.tb = s.tb ∧ s'.sheets = s.sheets ∧ s'.units = s.units ∧ s'.errw = s.errw ∧
    s'.sec = s.sec ∧ s'.therm = s.therm ∧ s'.streams = s.streams ∧ s'.ptpPorts = s.ptpPorts ∧
    s'.ptp = s.ptp ∧ s'.chans = s.chans ∧ s'.seqs = s.seqs ∧ s'.bundles = s.bundles ∧ s'.slots = s.slots ∧
    s'.wt = s.wt ∧ s'.pricks = s.pricks ∧ s'.templates = s.templates ∧ s'.order = s.order := by
  have hF0 := @State.advance_frame
  have hF1 := @State.reply_frame
  have hF2 := @State.restoreTrim_frame
  unfold execTrimWriteCheck; dsimp only; (repeat' split) <;> (refine ⟨_, rfl, ?_⟩; simp +contextual [hF0, hF1, hF2])

theorem execCalibrationPass_next (t : Nat) (pillow : Nat) (bobbin : Nat) (codes : SparseInt) (noise : SparseInt) (s : State) :
    ∃ s', execCalibrationPass t pillow bobbin codes noise s = .next s' ∧ s'.pending = s.pending ∧
    s'.now = max s.now t ∧ (Memory.wf s.mem = true → Memory.wf s'.mem = true) ∧ s'.fwMem = s.fwMem ∧
    s'.tb = s.tb ∧ s'.sheets = s.sheets ∧ s'.units = s.units ∧ s'.errw = s.errw ∧ s'.bulk = s.bulk ∧
    s'.sec = s.sec ∧ s'.therm = s.therm ∧ s'.streams = s.streams ∧ s'.ptpPorts = s.ptpPorts ∧
    s'.ptp = s.ptp ∧ s'.chans = s.chans ∧ s'.seqs = s.seqs ∧ s'.hc = s.hc ∧ s'.bundles = s.bundles ∧
    s'.slots = s.slots ∧ s'.wt = s.wt ∧ s'.pricks = s.pricks ∧ s'.templates = s.templates ∧
    s'.order = s.order := by
  have hF0 := @State.advance_frame
  have hF1 := @State.setBobbin_frame
  have hF2 := @State.settlePillows_frame
  have hF3 := @State.bobbinFail_frame
  unfold execCalibrationPass; (refine ⟨_, rfl, ?_⟩; simp +contextual [hF0, hF1, hF2, hF3])

theorem execDwellEnd_next (t : Nat) (pillow : Nat) (bobbin : Nat) (group : Nat) (res : List Meas) (s : State) :
    ∃ s', execDwellEnd t pillow bobbin group res s = .next s' ∧ s'.pending = s.pending ∧
    s'.now = max s.now t ∧ s'.mem = s.mem ∧ s'.fwMem = s.fwMem ∧ s'.tb = s.tb ∧ s'.sheets = s.sheets ∧
    s'.units = s.units ∧ s'.pins = s.pins ∧ s'.pk = s.pk ∧ s'.queues = s.queues ∧ s'.latches = s.latches ∧
    s'.errw = s.errw ∧ s'.sdio = s.sdio ∧ s'.bulk = s.bulk ∧ s'.mgmt = s.mgmt ∧ s'.power = s.power ∧
    s'.sec = s.sec ∧ s'.therm = s.therm ∧ s'.ports = s.ports ∧ s'.streams = s.streams ∧
    s'.services = s.services ∧ s'.ptpPorts = s.ptpPorts ∧ s'.ptp = s.ptp ∧ s'.chans = s.chans ∧
    s'.seqs = s.seqs ∧ s'.hc = s.hc ∧ s'.trim = s.trim ∧ s'.bundles = s.bundles ∧ s'.slots = s.slots ∧
    s'.wt = s.wt ∧ s'.ms = s.ms ∧ s'.pricks = s.pricks ∧ s'.templates = s.templates ∧ s'.jobs = s.jobs ∧
    s'.order = s.order ∧ s'.free = s.free := by
  have hF0 := @State.setBobbin_frame
  have hF1 := @State.advance_frame
  unfold execDwellEnd; (refine ⟨_, rfl, ?_⟩; simp [hF0, hF1])

theorem execLevelScanEnd_next (t : Nat) (pillow : Nat) (bobbin : Nat) (means : List Int) (s : State) :
    ∃ s', execLevelScanEnd t pillow bobbin means s = .next s' ∧ s'.pending = s.pending ∧
    s'.now = max s.now t ∧ s'.mem = s.mem ∧ s'.fwMem = s.fwMem ∧ s'.tb = s.tb ∧ s'.sheets = s.sheets ∧
    s'.units = s.units ∧ s'.pins = s.pins ∧ s'.pk = s.pk ∧ s'.queues = s.queues ∧ s'.latches = s.latches ∧
    s'.errw = s.errw ∧ s'.sdio = s.sdio ∧ s'.bulk = s.bulk ∧ s'.mgmt = s.mgmt ∧ s'.power = s.power ∧
    s'.sec = s.sec ∧ s'.therm = s.therm ∧ s'.ports = s.ports ∧ s'.streams = s.streams ∧
    s'.services = s.services ∧ s'.ptpPorts = s.ptpPorts ∧ s'.ptp = s.ptp ∧ s'.chans = s.chans ∧
    s'.seqs = s.seqs ∧ s'.hc = s.hc ∧ s'.trim = s.trim ∧ s'.bundles = s.bundles ∧ s'.slots = s.slots ∧
    s'.wt = s.wt ∧ s'.ms = s.ms ∧ s'.pricks = s.pricks ∧ s'.templates = s.templates ∧ s'.jobs = s.jobs ∧
    s'.order = s.order ∧ s'.free = s.free := by
  have hF0 := @State.setBobbin_frame
  have hF1 := @State.advance_frame
  have hF2 := @State.requestRefresh_frame
  unfold execLevelScanEnd; (refine ⟨_, rfl, ?_⟩; simp [hF0, hF1, hF2])

theorem execSealEpoch_next (t : Nat) (dev : Int) (s : State) : ∃ s', execSealEpoch t dev s = .next s' ∧
    s'.pending = s.pending ∧ s'.now = max s.now t ∧ (Memory.wf s.mem = true → Memory.wf s'.mem = true) ∧
    s'.fwMem = s.fwMem ∧ s'.tb = s.tb ∧ s'.sheets = s.sheets ∧ s'.units = s.units ∧ s'.errw = s.errw ∧
    s'.bulk = s.bulk ∧ s'.sec = s.sec ∧ s'.therm = s.therm ∧ s'.streams = s.streams ∧
    s'.ptpPorts = s.ptpPorts ∧ s'.ptp = s.ptp ∧ s'.chans = s.chans ∧ s'.seqs = s.seqs ∧
    s'.bundles = s.bundles ∧ s'.slots = s.slots ∧ s'.wt = s.wt ∧ s'.pricks = s.pricks ∧
    s'.templates = s.templates ∧ s'.order = s.order := by
  have hF0 := @State.advance_frame
  have hF1 := @State.report_frame
  have hF2 := @State.sealNow_frame
  unfold execSealEpoch; (refine ⟨_, rfl, ?_⟩; simp +contextual [hF0, hF1, hF2])

end Sys2Proof.Machine
end

