-- ==== Sys2Proof/Laws/Answers.lean ====
section
/-! SUPPORT. What an answered, an accepted and a refused command leave, once for all commands. -/

namespace Sys2Proof.Machine

/-! ## The reply queue -/

theorem State.putQueue_queue (q j : Nat) (x : Queue) (s : State) :
    (s.putQueue q x).queue j = if j = q then x else s.queue j := by
  unfold State.putQueue
  dsimp only
  split
  · exact State.queue_setQueue q j x s
  · exact State.queue_setQueue q j x s

/-- A presented packet joins its queue, and every other queue stays. -/
theorem State.present_queue (q j : Nat) (p : QPacket) (s : State) :
    (s.present q p).queue j = if j = q then (s.queue q).joined q p else s.queue j := by
  unfold State.present Queue.joined
  dsimp only
  split <;> exact State.putQueue_queue _ _ _ _

theorem State.present_sdio (q : Nat) (hq : q ≠ 0) (p : QPacket) (s : State) : (s.present q p).sdio = s.sdio := by
  have hF0 := @State.setQueue_frame
  unfold State.present State.putQueue
  dsimp only
  split <;> simp [hF0, hq]

theorem State.release_queue (op j : Nat) (tag : BitVec 32) (s : State) : (s.release op tag).queue j = s.queue j := rfl

theorem State.release_sameHands (op : Nat) (tag : BitVec 32) (s : State) : SameButHands s (s.release op tag) := by
  unfold SameButHands State.release
  dsimp only
  split <;> rfl

theorem State.reply_mgmt (h : Hdr) (op form status : Nat) (b : Bytes) (s : State) :
    (s.reply h op form status b).mgmt = s.mgmt := by
  have hF0 := @State.reply_frame
  simp [hF0]

/-- A refusal is the one reply it sends, and frees its core. -/
theorem State.refuse_replied (h : Hdr) (op form : Nat) (r : Reject) (s : State) :
    Replied h op r.status r.payload s (s.refuse h op form r) := by
  have hF0 := @State.release_frame
  have hF1 := @State.present_frame
  refine ⟨⟨s.replyWriter op form h.tag, ?_⟩, fun q hq => ?_⟩
  · simp [hF0, hF1, State.refuse, State.release_queue, State.reply, State.present_queue]
  · simp [State.refuse, State.release_queue, State.reply, State.present_queue, hq]

theorem State.refuse_sameHands (h : Hdr) (op form : Nat) (r : Reject) (s : State) :
    SameButHands s (s.refuse h op form r) := by
  have := State.release_sameHands op h.tag (s.reply h op form r.status r.payload)
  rwa [SameButHands, State.reply_mgmt] at this

theorem State.refuse_eq (h : Hdr) (op form : Nat) (r : Reject) (s : State) :
    s.refuse h op form r = { s with queues := (s.refuse h op form r).queues, mgmt := (s.refuse h op form r).mgmt } := by
  unfold State.refuse State.reply State.present State.putQueue State.release
  dsimp only
  split <;> simp [State.setQueue]

theorem State.done_replied (h : Hdr) (op form : Nat) (b : Bytes) (s : State) :
    Replied h op Status.ok b s (s.done h op form b) := State.refuse_replied h op form { status := Status.ok, payload := b } s

theorem State.done_sameHands (h : Hdr) (op form : Nat) (b : Bytes) (s : State) : SameButHands s (s.done h op form b) :=
  State.refuse_sameHands h op form { status := Status.ok, payload := b } s

theorem State.done_eq (h : Hdr) (op form : Nat) (b : Bytes) (s : State) :
    s.done h op form b = { s with queues := (s.done h op form b).queues, mgmt := (s.done h op form b).mgmt } :=
  State.refuse_eq h op form { status := Status.ok, payload := b } s

/-! ## Host commands -/

theorem State.accepts_advance (op : Nat) (sec : Bool) (t : Nat) (s : State) :
    (s.advance t).accepts op sec = s.accepts op sec := rfl

/-- A command that passes its checks has its effect (R404). -/
theorem hostCommand_accepted {h : Hdr} {op form : Nat} {sec : Bool} {params : Option Reject}
    {own : State → Option Reject} {eff : State → State} {s : State} (hp : params = none) (ha : s.accepts op sec = true)
    (ho : own (s.advance h.t) = none) : hostCommand h op form sec params own eff s = .next (eff (s.advance h.t)) := by
  simp [hostCommand, firstOf, require, State.accepts_advance, hp, ha, ho]

/-- A command that its device state does not accept is refused (R404, R417). -/
theorem hostCommand_unaccepted {h : Hdr} {op form : Nat} {sec : Bool} {params : Option Reject}
    {own : State → Option Reject} {eff : State → State} {s : State} (ha : s.accepts op sec = false) :
    hostCommand h op form sec params own eff s = .next ((s.advance h.t).refuse h op form (params.getD stateRefused)) := by
  cases params <;> simp [hostCommand, firstOf, require, State.accepts_advance, ha]

/-- A command whose effect ends in its reply answers with it and with its effect alone. -/
theorem Answers.of_done {c : Instr} {h : Hdr} {op form : Nat} {payload : State → Bytes} {f : State → State} {s : State}
    (hx : exec c s = .next ((f (s.advance h.t)).done h op form (payload (s.advance h.t)))) :
    Answers c h op payload f s :=
  ⟨_, hx, State.done_replied _ _ _ _ _, State.done_sameHands _ _ _ _ _, State.done_eq _ _ _ _ _⟩

/-- A command whose answer is a refusal is refused. -/
theorem Refuses.of_refuse {c : Instr} {h : Hdr} {op form : Nat} {r : Reject} {s : State}
    (hx : exec c s = .next ((s.advance h.t).refuse h op form r)) : Refuses c h op r s :=
  ⟨_, hx, State.refuse_replied h op form r (s.advance h.t), State.refuse_sameHands h op form r (s.advance h.t),
    State.refuse_eq h op form r (s.advance h.t)⟩

/-- A command whose effect ends in its acceptance replies later. -/
theorem Accepts.of_release {c : Instr} {h : Hdr} {op : Nat} {f : State → State} {s : State}
    (hx : exec c s = .next ((f (s.advance h.t)).release op h.tag)) : Accepts c h f s :=
  ⟨_, hx, State.release_sameHands _ _ _, rfl⟩

end Sys2Proof.Machine
end

