-- ==== Sys2Proof/Laws/PerInstr.lean ====
section
/-! SUPPORT. The per-command family `Header`: a command is a host packet exactly when it has an opcode, its PRIO then
fits the 3-bit field of R403, its opcode is one byte, and it comes about at its header's device time. -/

namespace Sys2Proof.Laws.Header

open Sys2Proof.Machine

/-- What the family says of a command. -/
def Statement (i : Instr) : Prop :=
  wellFormed i = true →
    (∀ h, hdrOf i = some h → h.prio < 8 ∧ timeOf i = h.t) ∧ (opcodeOf i).isSome = (hdrOf i).isSome
      ∧ ∀ o, opcodeOf i = some o → o.1 < 256

theorem ofHost {i : Instr} {h : Hdr} {o : Nat × Nat × Bool} (hw : wellFormed i = true → hdrOk h = true)
    (hh : hdrOf i = some h) (ht : timeOf i = h.t) (ho : opcodeOf i = some o) (hlt : o.1 < 256) : Statement i := by
  intro h1
  have hp : h.prio < 8 := by simpa [hdrOk, fitsBits] using hw h1
  refine ⟨fun g hg => ?_, by rw [hh, ho]; rfl, fun p hp => ?_⟩
  · rw [hh] at hg; cases hg; exact ⟨hp, ht⟩
  · rw [ho] at hp; cases hp; exact hlt

theorem ofEvent {i : Instr} (hh : hdrOf i = none) (ho : opcodeOf i = none) : Statement i := by
  intro _
  refine ⟨fun g hg => ?_, by rw [hh, ho]; rfl, fun p hp => ?_⟩
  · rw [hh] at hg; cases hg
  · rw [ho] at hp; cases hp

theorem left {a b : Bool} (h : (a && b) = true) : a = true := by revert h; cases a <;> simp

theorem devInfo (h : Hdr) : Statement (.devInfo h) :=
  ofHost (fun hw => hw) rfl rfl rfl (by decide)

theorem devReset (h : Hdr) (confirm : BitVec 32) : Statement (.devReset h confirm) :=
  ofHost (fun hw => hw) rfl rfl rfl (by decide)

theorem regRead (h : Hdr) (addr : BitVec 32) (count : Nat) : Statement (.regRead h addr count) :=
  ofHost (fun hw => left hw) rfl rfl rfl (by show _ < 256; simp [Op.regRead, Op.regWrite])

theorem regWrite (h : Hdr) (addr : BitVec 32) (vals : List (BitVec 32)) : Statement (.regWrite h addr vals) :=
  ofHost (fun hw => left hw) rfl rfl rfl (by show _ < 256; simp [Op.regRead, Op.regWrite])

theorem hcDataRead (h : Hdr) : Statement (.hcDataRead h) :=
  ofHost (fun hw => hw) rfl rfl rfl (by decide)

theorem tbWpLoRead (h : Hdr) : Statement (.tbWpLoRead h) :=
  ofHost (fun hw => hw) rfl rfl rfl (by decide)

theorem pkPick0Read (h : Hdr) : Statement (.pkPick0Read h) :=
  ofHost (fun hw => hw) rfl rfl rfl (by decide)

theorem qcCommit (h : Hdr) (pillow : Nat) : Statement (.qcCommit h pillow) :=
  ofHost (fun hw => left hw) rfl rfl rfl (by decide)

theorem wrReq (h : Hdr) (pillow : Nat) (logical : Nat) : Statement (.wrReq h pillow logical) :=
  ofHost (fun hw => left (left hw)) rfl rfl rfl (by decide)

theorem shqErrPop (h : Hdr) (ecc : WordEcc) : Statement (.shqErrPop h ecc) :=
  ofHost (fun hw => hw) rfl rfl rfl (by decide)

theorem pwrReq (h : Hdr) (domain : Nat) (ungate : Bool) : Statement (.pwrReq h domain ungate) :=
  ofHost (fun hw => left hw) rfl rfl rfl (by decide)

theorem frCtrlEnter (h : Hdr) : Statement (.frCtrlEnter h) :=
  ofHost (fun hw => hw) rfl rfl rfl (by decide)

theorem frCtrlLeave (h : Hdr) : Statement (.frCtrlLeave h) :=
  ofHost (fun hw => hw) rfl rfl rfl (by decide)

theorem secArm (h : Hdr) (key : BitVec 32) : Statement (.secArm h key) :=
  ofHost (fun hw => hw) rfl rfl rfl (by decide)

theorem secOpSeal (h : Hdr) : Statement (.secOpSeal h) :=
  ofHost (fun hw => hw) rfl rfl rfl (by decide)

theorem secOpRevoke (h : Hdr) (mask : BitVec 8) : Statement (.secOpRevoke h mask) :=
  ofHost (fun hw => hw) rfl rfl rfl (by decide)

theorem calRun (h : Hdr) : Statement (.calRun h) :=
  ofHost (fun hw => hw) rfl rfl rfl (by decide)

theorem calRunEnd (t : Nat) (res : CalResult) : Statement (.calRunEnd t res) := ofEvent rfl rfl

theorem trimRead (h : Hdr) (offset : Nat) (length : Nat) : Statement (.trimRead h offset length) :=
  ofHost (fun hw => left hw) rfl rfl rfl (by decide)

theorem trimSnapshotReady (t : Nat) : Statement (.trimSnapshotReady t) := ofEvent rfl rfl

theorem trimWrite (h : Hdr) : Statement (.trimWrite h) :=
  ofHost (fun hw => hw) rfl rfl rfl (by decide)

theorem trimWriteCheck (t : Nat) : Statement (.trimWriteCheck t) := ofEvent rfl rfl

theorem mapCreate (h : Hdr) (asid : Nat) (op : Nat) : Statement (.mapCreate h asid op) :=
  ofHost (fun hw => left (left hw)) rfl rfl rfl (by decide)

theorem mapPage (h : Hdr) (p : MapPageParams) : Statement (.mapPage h p) :=
  ofHost (fun hw => left (left (left hw))) rfl rfl rfl (by decide)

theorem mapPageDrainEnd (t : Nat) (tag : BitVec 32) : Statement (.mapPageDrainEnd t tag) := ofEvent rfl rfl

theorem mapPin (h : Hdr) (asid : Nat) (op : Nat) (va : Nat) (size : Nat) : Statement (.mapPin h asid op va size) :=
  ofHost (fun hw => left (left (left hw))) rfl rfl rfl (by decide)

theorem marchRun (h : Hdr) (target : Nat) (form : Nat) (index : Nat) : Statement (.marchRun h target form index) :=
  ofHost (fun hw => left hw) rfl rfl rfl (by decide)

theorem marchRunEnd (t : Nat) (fails : List Nat) : Statement (.marchRunEnd t fails) := ofEvent rfl rfl

theorem shardBeginManifest (h : Hdr) (handle : Nat) : Statement (.shardBeginManifest h handle) :=
  ofHost (fun hw => left hw) rfl rfl rfl (by decide)

theorem shardBeginShard (h : Hdr) (handle : Nat) (index : Nat) : Statement (.shardBeginShard h handle index) :=
  ofHost (fun hw => left (left hw)) rfl rfl rfl (by decide)

theorem shardBeginDiscard (h : Hdr) (handle : Nat) : Statement (.shardBeginDiscard h handle) :=
  ofHost (fun hw => left hw) rfl rfl rfl (by decide)

theorem shardEnd (h : Hdr) (handle : Nat) (sigOk : Bool) : Statement (.shardEnd h handle sigOk) :=
  ofHost (fun hw => left hw) rfl rfl rfl (by decide)

theorem shardTimeout (t : Nat) (handle : Nat) : Statement (.shardTimeout t handle) := ofEvent rfl rfl

theorem bundleCheckEnd (t : Nat) (handle : Nat) : Statement (.bundleCheckEnd t handle) := ofEvent rfl rfl

theorem redigestPass (t : Nat) : Statement (.redigestPass t) := ofEvent rfl rfl

theorem slotProgram (h : Hdr) (slot : Nat) (handle : Nat) (map : List Nat) : Statement (.slotProgram h slot handle map) :=
  ofHost (fun hw => left (left (left hw))) rfl rfl rfl (by decide)

theorem slotProgramEnd (t : Nat) (slot : Nat) : Statement (.slotProgramEnd t slot) := ofEvent rfl rfl

theorem slotActivate (h : Hdr) (slot : Nat) (handle : Option Nat) : Statement (.slotActivate h slot handle) :=
  ofHost (fun hw => left (left hw)) rfl rfl rfl (by decide)

theorem slotDrainEnd (t : Nat) (slot : Nat) : Statement (.slotDrainEnd t slot) := ofEvent rfl rfl

theorem slotReprogramEnd (t : Nat) (slot : Nat) : Statement (.slotReprogramEnd t slot) := ofEvent rfl rfl

theorem slotRetire (h : Hdr) (slot : Nat) : Statement (.slotRetire h slot) :=
  ofHost (fun hw => left hw) rfl rfl rfl (by decide)

theorem slotRetireEnd (t : Nat) (slot : Nat) : Statement (.slotRetireEnd t slot) := ofEvent rfl rfl

theorem prickLoadOpen (h : Hdr) (prk : Nat) (size : Nat) : Statement (.prickLoadOpen h prk size) :=
  ofHost (fun hw => left (left hw)) rfl rfl rfl (by decide)

theorem prickLoadData (h : Hdr) (prk : Nat) (offset : Nat) (data : Bytes) : Statement (.prickLoadData h prk offset data) :=
  ofHost (fun hw => left (left (left hw))) rfl rfl rfl (by decide)

theorem prickLoadClose (h : Hdr) (prk : Nat) : Statement (.prickLoadClose h prk) :=
  ofHost (fun hw => left hw) rfl rfl rfl (by decide)

theorem prickLoadDiscard (h : Hdr) (prk : Nat) : Statement (.prickLoadDiscard h prk) :=
  ofHost (fun hw => left hw) rfl rfl rfl (by decide)

theorem jobAdmit (h : Hdr) (p : AdmitParams) : Statement (.jobAdmit h p) :=
  ofHost (fun hw => left hw) rfl rfl rfl (by decide)

theorem jobAdmitAccept (t : Nat) (template : Nat) : Statement (.jobAdmitAccept t template) := ofEvent rfl rfl

theorem jobSubmit (h : Hdr) (p : SubmitParams) : Statement (.jobSubmit h p) :=
  ofHost (fun hw => left hw) rfl rfl rfl (by decide)

theorem partialCapture (h : Hdr) (p : SubmitParams) (capbuf : Nat) (mode : Nat) : Statement (.partialCapture h p capbuf mode) :=
  ofHost (fun hw => left (left (left hw))) rfl rfl rfl (by decide)

theorem jobAbortLoose (h : Hdr) (ctx : Nat) : Statement (.jobAbortLoose h ctx) :=
  ofHost (fun hw => left hw) rfl rfl rfl (by decide)

theorem jobAbortTemplate (h : Hdr) (template : Nat) : Statement (.jobAbortTemplate h template) :=
  ofHost (fun hw => left hw) rfl rfl rfl (by decide)

theorem templateWithdrawn (t : Nat) (template : Nat) : Statement (.templateWithdrawn t template) := ofEvent rfl rfl

theorem tbConfig (h : Hdr) (p : TbConfigParams) : Statement (.tbConfig h p) :=
  ofHost (fun hw => left (left (left (left hw)))) rfl rfl rfl (by decide)

theorem tbClaimClaim (h : Hdr) (unit : Option Nat) (action : Nat) (arg : Nat) (period : Nat) (target : Nat) : Statement (.tbClaimClaim h unit action arg period target) :=
  ofHost (fun hw => left (left (left (left hw)))) rfl rfl rfl (by decide)

theorem tbClaimRelease (h : Hdr) (unit : Nat) : Statement (.tbClaimRelease h unit) :=
  ofHost (fun hw => left hw) rfl rfl rfl (by decide)

theorem streamOpen (h : Hdr) (p : StreamOpenParams) : Statement (.streamOpen h p) :=
  ofHost (fun hw => left (left (left (left (left hw))))) rfl rfl rfl (by decide)

theorem streamClose (h : Hdr) (stream : Nat) : Statement (.streamClose h stream) :=
  ofHost (fun hw => left hw) rfl rfl rfl (by decide)

theorem streamCloseEffect (t : Nat) (stream : Nat) : Statement (.streamCloseEffect t stream) := ofEvent rfl rfl

theorem portConfigLink (h : Hdr) (p : LinkParams) : Statement (.portConfigLink h p) :=
  ofHost (fun hw => left (left (left (left (left hw))))) rfl rfl rfl (by decide)

theorem portConfigService (h : Hdr) (p : ServiceParams) : Statement (.portConfigService h p) :=
  ofHost (fun hw => left (left (left (left (left (left (left hw))))))) rfl rfl rfl (by decide)

theorem portConfigGates (h : Hdr) (p : GatesParams) : Statement (.portConfigGates h p) :=
  ofHost (fun hw => left (left (left (left (left hw))))) rfl rfl rfl (by decide)

theorem hcConfigEnable (h : Hdr) (p : HcEnableParams) : Statement (.hcConfigEnable h p) :=
  ofHost (fun hw => left (left (left (left (left hw))))) rfl rfl rfl (by decide)

theorem hcConfigDisable (h : Hdr) (seq : Nat) : Statement (.hcConfigDisable h seq) :=
  ofHost (fun hw => left hw) rfl rfl rfl (by decide)

theorem hcConfigMode (h : Hdr) (lp : Bool) (owTh : Nat) : Statement (.hcConfigMode h lp owTh) :=
  ofHost (fun hw => left hw) rfl rfl rfl (by decide)

theorem hcSelfcal (h : Hdr) : Statement (.hcSelfcal h) :=
  ofHost (fun hw => hw) rfl rfl rfl (by decide)

theorem hcSelfcalEnd (t : Nat) (res : CalResult) : Statement (.hcSelfcalEnd t res) := ofEvent rfl rfl

theorem hcReadData (h : Hdr) : Statement (.hcReadData h) :=
  ofHost (fun hw => hw) rfl rfl rfl (by decide)

theorem hcReadConvert (h : Hdr) (ch : Nat) (opt : HcOpt) : Statement (.hcReadConvert h ch opt) :=
  ofHost (fun hw => left (left hw)) rfl rfl rfl (by decide)

theorem hcReadUrgent (h : Hdr) (ch : Nat) (opt : HcOpt) : Statement (.hcReadUrgent h ch opt) :=
  ofHost (fun hw => left (left hw)) rfl rfl rfl (by decide)

theorem pkConfigEnable (h : Hdr) (streams : BitVec 16) (origin : Nat) : Statement (.pkConfigEnable h streams origin) :=
  ofHost (fun hw => left hw) rfl rfl rfl (by decide)

theorem pkConfigDisable (h : Hdr) : Statement (.pkConfigDisable h) :=
  ofHost (fun hw => hw) rfl rfl rfl (by decide)

theorem queueFlush (h : Hdr) (q : Nat) : Statement (.queueFlush h q) :=
  ofHost (fun hw => left hw) rfl rfl rfl (by decide)

theorem queueFlushEffect (t : Nat) (q : Nat) : Statement (.queueFlushEffect t q) := ofEvent rfl rfl

theorem queueDrop (h : Hdr) (q : Nat) (write : Bool) (writer : Nat) : Statement (.queueDrop h q write writer) :=
  ofHost (fun hw => left hw) rfl rfl rfl (by decide)

theorem fwUpdateOpen (h : Hdr) (length : Nat) : Statement (.fwUpdateOpen h length) :=
  ofHost (fun hw => left hw) rfl rfl rfl (by decide)

theorem fwUpdateClose (h : Hdr) (image : Bool) : Statement (.fwUpdateClose h image) :=
  ofHost (fun hw => hw) rfl rfl rfl (by decide)

theorem fwUpdateDiscard (h : Hdr) : Statement (.fwUpdateDiscard h) :=
  ofHost (fun hw => hw) rfl rfl rfl (by decide)

theorem flashWriteStageEnd (t : Nat) (ok : Bool) : Statement (.flashWriteStageEnd t ok) := ofEvent rfl rfl

theorem attestForm (h : Hdr) (nonce : Bytes) : Statement (.attestForm h nonce) :=
  ofHost (fun hw => left hw) rfl rfl rfl (by decide)

theorem attestRead (h : Hdr) (offset : Nat) : Statement (.attestRead h offset) :=
  ofHost (fun hw => left hw) rfl rfl rfl (by decide)

theorem dispatch (t : Nat) (ecc : WordEcc) : Statement (.dispatch t ecc) := ofEvent rfl rfl

theorem cmd0 (t : Nat) : Statement (.cmd0 t) := ofEvent rfl rfl

theorem cmd5 (t : Nat) : Statement (.cmd5 t) := ofEvent rfl rfl

theorem cmd11 (t : Nat) : Statement (.cmd11 t) := ofEvent rfl rfl

theorem cmd19 (t : Nat) : Statement (.cmd19 t) := ofEvent rfl rfl

theorem mailboxWrite (t : Nat) (data : Bytes) (crcOk : Bool) : Statement (.mailboxWrite t data crcOk) := ofEvent rfl rfl

theorem mailboxPacketEnter (t : Nat) : Statement (.mailboxPacketEnter t) := ofEvent rfl rfl

theorem replyWindowRead (t : Nat) (n : Nat) (ecc : WordEcc) : Statement (.replyWindowRead t n ecc) := ofEvent rfl rfl

theorem transportByteWrite (t : Nat) (fn : Nat) (addr : Nat) (value : Byte) : Statement (.transportByteWrite t fn addr value) := ofEvent rfl rfl

theorem f2BlockWrite (t : Nat) (data : Bytes) (crcOk : Bool) : Statement (.f2BlockWrite t data crcOk) := ofEvent rfl rfl

theorem f2BlockRead (t : Nat) : Statement (.f2BlockRead t) := ofEvent rfl rfl

theorem ioAbort (t : Nat) (fn : Nat) (inCmd : Bool) : Statement (.ioAbort t fn inCmd) := ofEvent rfl rfl

theorem ioReset (t : Nat) : Statement (.ioReset t) := ofEvent rfl rfl

theorem packetEnter (t : Nat) (q : Nat) : Statement (.packetEnter t q) := ofEvent rfl rfl

theorem errorEntryEnter (t : Nat) (cls : Nat) : Statement (.errorEntryEnter t cls) := ofEvent rfl rfl

theorem hostNoteDrain (t : Nat) : Statement (.hostNoteDrain t) := ofEvent rfl rfl

theorem recordMove (t : Nat) (pillow : Nat) (ecc : WordEcc) : Statement (.recordMove t pillow ecc) := ofEvent rfl rfl

theorem encoderCount (t : Nat) (a : Bool) (b : Bool) : Statement (.encoderCount t a b) := ofEvent rfl rfl

theorem indexPulse (t : Nat) : Statement (.indexPulse t) := ofEvent rfl rfl

theorem threadTriggerEdge (t : Nat) (pin : Nat) (rising : Bool) : Statement (.threadTriggerEdge t pin rising) := ofEvent rfl rfl

theorem pulseEnd (t : Nat) (pin : Nat) : Statement (.pulseEnd t pin) := ofEvent rfl rfl

theorem encoderLoss (t : Nat) (pairs : BitVec 3) : Statement (.encoderLoss t pairs) := ofEvent rfl rfl

theorem encoderLossEnd (t : Nat) : Statement (.encoderLossEnd t) := ofEvent rfl rfl

theorem stall (t : Nat) : Statement (.stall t) := ofEvent rfl rfl

theorem stageReady (t : Nat) (pillow : Nat) (ctx : Nat) (stage : Nat) : Statement (.stageReady t pillow ctx stage) := ofEvent rfl rfl

theorem saveComplete (t : Nat) (pillow : Nat) : Statement (.saveComplete t pillow) := ofEvent rfl rfl

theorem restoreComplete (t : Nat) (pillow : Nat) (ecc : Ecc) : Statement (.restoreComplete t pillow ecc) := ofEvent rfl rfl

theorem tokenConditioned (t : Nat) (pillow : Nat) : Statement (.tokenConditioned t pillow) := ofEvent rfl rfl

theorem passComplete (t : Nat) (pillow : Nat) (noise : List (Nat × SparseInt)) : Statement (.passComplete t pillow noise) := ofEvent rfl rfl

theorem epilogueWriteEnd (t : Nat) (pillow : Nat) : Statement (.epilogueWriteEnd t pillow) := ofEvent rfl rfl

theorem dmaBurstComplete (t : Nat) (pillow : Nat) (burst : BurstIn) : Statement (.dmaBurstComplete t pillow burst) := ofEvent rfl rfl

theorem translationWalkEnd (t : Nat) (pillow : Nat) (asid : Nat) (va : Nat) (ecc : Ecc) : Statement (.translationWalkEnd t pillow asid va ecc) := ofEvent rfl rfl

theorem tattingInstructionEnd (t : Nat) (pillow : Nat) : Statement (.tattingInstructionEnd t pillow) := ofEvent rfl rfl

theorem setlen (t : Nat) (pillow : Nat) : Statement (.setlen t pillow) := ofEvent rfl rfl

theorem fenceWaitEnd (t : Nat) (pillow : Nat) : Statement (.fenceWaitEnd t pillow) := ofEvent rfl rfl

theorem windowWaitEnd (t : Nat) (pillow : Nat) : Statement (.windowWaitEnd t pillow) := ofEvent rfl rfl

theorem recordCommit (t : Nat) (pillow : Nat) : Statement (.recordCommit t pillow) := ofEvent rfl rfl

theorem faultWaitExpiry (t : Nat) (ctx : Nat) : Statement (.faultWaitExpiry t ctx) := ofEvent rfl rfl

theorem streamFrame (t : Nat) (port : Nat) (frame : Bytes) : Statement (.streamFrame t port frame) := ofEvent rfl rfl

theorem linkDown (t : Nat) (link : LinkEvent) : Statement (.linkDown t link) := ofEvent rfl rfl

theorem linkUp (t : Nat) (link : LinkEvent) : Statement (.linkUp t link) := ofEvent rfl rfl

theorem arpRequest (t : Nat) (port : Nat) (frame : Bytes) : Statement (.arpRequest t port frame) := ofEvent rfl rfl

theorem icmpEcho (t : Nat) (port : Nat) (frame : Bytes) : Statement (.icmpEcho t port frame) := ofEvent rfl rfl

theorem rasterPacket (t : Nat) (port : Nat) (frame : Bytes) : Statement (.rasterPacket t port frame) := ofEvent rfl rfl

theorem ptpMessage (t : Nat) (port : Nat) (frame : Bytes) : Statement (.ptpMessage t port frame) := ofEvent rfl rfl

theorem delayReq (t : Nat) (port : Nat) : Statement (.delayReq t port) := ofEvent rfl rfl

theorem ptpSyncTimeout (t : Nat) : Statement (.ptpSyncTimeout t) := ofEvent rfl rfl

theorem gateEntryChange (t : Nat) (sp : Nat) : Statement (.gateEntryChange t sp) := ofEvent rfl rfl

theorem picotSlotEnd (t : Nat) (picked : Bytes) : Statement (.picotSlotEnd t picked) := ofEvent rfl rfl

theorem throwBurstEnd (t : Nat) : Statement (.throwBurstEnd t) := ofEvent rfl rfl

theorem sequenceReady (t : Nat) (seq : Nat) : Statement (.sequenceReady t seq) := ofEvent rfl rfl

theorem conversionEnd (t : Nat) (raw : BitVec 12) (rawLo : BitVec 12) (rawHi : BitVec 12) : Statement (.conversionEnd t raw rawLo rawHi) := ofEvent rfl rfl

theorem calibrationPass (t : Nat) (pillow : Nat) (bobbin : Nat) (codes : SparseInt) (noise : SparseInt) : Statement (.calibrationPass t pillow bobbin codes noise) := ofEvent rfl rfl

theorem dwellEnd (t : Nat) (pillow : Nat) (bobbin : Nat) (group : Nat) (res : List Meas) : Statement (.dwellEnd t pillow bobbin group res) := ofEvent rfl rfl

theorem levelScanEnd (t : Nat) (pillow : Nat) (bobbin : Nat) (means : List Int) : Statement (.levelScanEnd t pillow bobbin means) := ofEvent rfl rfl

theorem sealEpoch (t : Nat) (dev : Int) : Statement (.sealEpoch t dev) := ofEvent rfl rfl

theorem ageRefreshRequest (t : Nat) (pillow : Nat) (logical : Nat) : Statement (.ageRefreshRequest t pillow logical) := ofEvent rfl rfl

theorem refreshStart (t : Nat) (pillow : Nat) : Statement (.refreshStart t pillow) := ofEvent rfl rfl

theorem bobbinProgrammingStart (t : Nat) (pillow : Nat) : Statement (.bobbinProgrammingStart t pillow) := ofEvent rfl rfl

theorem bobbinProgrammingEnd (t : Nat) (pillow : Nat) (bobbin : Nat) (vfail : Nat) (iters : Nat) : Statement (.bobbinProgrammingEnd t pillow bobbin vfail iters) := ofEvent rfl rfl

theorem sramScrub (t : Nat) (mem : MemKind) (pillow : Nat) (addr : Nat) (ecc : Ecc) : Statement (.sramScrub t mem pillow addr ecc) := ofEvent rfl rfl

theorem hbmScrub (t : Nat) (addr : Nat) (ecc : Ecc) : Statement (.hbmScrub t addr ecc) := ofEvent rfl rfl

theorem hbmLinkRetrain (t : Nat) (stack : Nat) (channel : Nat) (ns : Nat) (ok : Bool) : Statement (.hbmLinkRetrain t stack channel ns ok) := ofEvent rfl rfl

theorem mgmtCoreFault (t : Nat) (core : Nat) (cause : Nat) : Statement (.mgmtCoreFault t core cause) := ofEvent rfl rfl

theorem domainSwitched (t : Nat) : Statement (.domainSwitched t) := ofEvent rfl rfl

theorem pwrgdFall (t : Nat) : Statement (.pwrgdFall t) := ofEvent rfl rfl

theorem nrstFall (t : Nat) : Statement (.nrstFall t) := ofEvent rfl rfl

theorem nrstRise (t : Nat) : Statement (.nrstRise t) := ofEvent rfl rfl

theorem strapLatch (t : Nat) (pkd : BitVec 8) : Statement (.strapLatch t pkd) := ofEvent rfl rfl

theorem watchdog (t : Nat) : Statement (.watchdog t) := ofEvent rfl rfl

theorem internalResetEnd (t : Nat) : Statement (.internalResetEnd t) := ofEvent rfl rfl

theorem thermalReading (t : Nat) (die : List Int) (hbm : List Int) : Statement (.thermalReading t die hbm) := ofEvent rfl rfl

theorem throttleStepFall (t : Nat) : Statement (.throttleStepFall t) := ofEvent rfl rfl

theorem thermalTrip (t : Nat) : Statement (.thermalTrip t) := ofEvent rfl rfl

theorem thermalTripEnd (t : Nat) : Statement (.thermalTripEnd t) := ofEvent rfl rfl

theorem pllLock (t : Nat) (marchOk : Bool) : Statement (.pllLock t marchOk) := ofEvent rfl rfl

theorem firmwareLoadEnd (t : Nat) (flash : FlashRead) : Statement (.firmwareLoadEnd t flash) := ofEvent rfl rfl

theorem firmwareInitEnd (t : Nat) : Statement (.firmwareInitEnd t) := ofEvent rfl rfl

theorem debugToken (t : Nat) (device : BitVec 64) (challenge : BitVec 256) (key : Nat) (sigOk : Bool) : Statement (.debugToken t device challenge key sigOk) := ofEvent rfl rfl

theorem tapInstruction (t : Nat) (ins : TapIns) : Statement (.tapInstruction t ins) := ofEvent rfl rfl

theorem ptpMasterLost (t : Nat) : Statement (.ptpMasterLost t) := ofEvent rfl rfl

theorem frameTransmitEnd (t : Nat) (sp : Nat) : Statement (.frameTransmitEnd t sp) := ofEvent rfl rfl

theorem cmd3 (t : Nat) : Statement (.cmd3 t) := ofEvent rfl rfl

theorem cmd7 (t : Nat) (select : Bool) : Statement (.cmd7 t select) := ofEvent rfl rfl

theorem cmd15 (t : Nat) : Statement (.cmd15 t) := ofEvent rfl rfl

theorem cccrWrite (t : Nat) (addr : Nat) (value : Byte) : Statement (.cccrWrite t addr value) := ofEvent rfl rfl

theorem transportByteRead (t : Nat) (fn : Nat) (addr : Nat) : Statement (.transportByteRead t fn addr) := ofEvent rfl rfl

theorem tapReset (t : Nat) : Statement (.tapReset t) := ofEvent rfl rfl

end Sys2Proof.Laws.Header
end

