-- ==== Sys2Proof/Laws/Quiet.lean ====
section
/-! SUPPORT. Pillows without work stand still. -/

namespace Sys2Proof.Machine

theorem State.advanceRun_quiet (p : Nat) {s : State} (h : Quiet s) : s.advanceRun p = ([], s) := by
  obtain ⟨h1, h2, h3, h4, _⟩ := h p
  have hp : s.nextPinned p = none := by simp [State.nextPinned, h2, h3]
  have hl : s.nextLoose p = none := by simp [State.nextLoose, h4]
  simp [State.advanceRun, h1, State.pick, hp, hl]

theorem State.pump_quiet {s : State} (h : Quiet s) : ∀ (n : Nat) (ps : List Nat), s.pump n ps = s
  | 0, _ => rfl
  | _ + 1, [] => rfl
  | n + 1, p :: r => by
    simp only [State.pump, State.advanceRun_quiet p h, List.nil_append]
    exact State.pump_quiet h n r

/-- With no work on any pillow the sequencers move nothing. -/
theorem State.settlePillows_quiet (ps : List Nat) {s : State} (h : Quiet s) : s.settlePillows ps = s :=
  State.pump_quiet h _ ps

end Sys2Proof.Machine
end

