-- ==== Sys2Proof/Tests/Slice0.lean ====
section
/-! SUPPORT. The tests: ill-formed terms that WellFormed refuses, the worked examples of the spec, and for every
statement with hypotheses a state and operands that meet all of them, clause by clause (`witness_<statement>`). -/

set_option linter.all false

namespace Sys2Proof.Tests

open Sys2Proof Sys2Proof.Machine

set_option Elab.async false

/-! ## States and operands -/

/-- A header of a command packet. -/
def hd : Hdr := { t := 5, tag := 7, prio := 1 }

/-- A device in state d, 10 ms after its reset, with every power domain on and the card selected. -/
def dev (d : Nat) : State := { State.reset with
  now := 10_000_000
  mgmt := { State.reset.mgmt with devState := d, fwStarted := d != 0 }
  power := { State.reset.power with on := BitVec.allOnes 314, latched := true, straps := 0x55 }
  sdio := { State.reset.sdio with card := .selected, ioReady := 6 } }

/-- An image that verifies. -/
def img : FwImage :=
  { formOk := true, key := 0, rollback := 0, fwVer := 1, revokeFw := 0, revokeBn := 0, bkeys := [true], sigOk := true
    digest := 0 }

/-- A function 2 transfer of a kind, one block long. -/
def xf (kind : Nat) : Xfer :=
  { kind := kind, handle := 0, index := 0, opcode := 0, hdr := hd, total := some 2048 }

/-- A packet of n data bytes. -/
def qp (n : Nat) : QPacket := { prio := 1, writer := 2, tag := 7, data := zeros n }

/-- The card in a state of its own. -/
def sd (c : CardState) : State := { dev 3 with sdio := { (dev 3).sdio with card := c } }

/-- A function 2 transfer is open. -/
def xfer (x : Xfer) : State := { dev 3 with bulk := { (dev 3).bulk with xfer := some x } }

/-- A command packet with no parameters. -/
def cmdPkt (op : BitVec 8) : QPacket := { prio := 0, writer := 0, tag := 7, data := [op, 0, 8, 0, 7, 0, 0, 0] }

/-- The encoder counts with a divider of num to 1, and A stands low, B low. -/
def enc (num : Nat) : State := { dev 3 with tb := { (dev 3).tb with encEn := true, num := num } }

/-- Parameters of TB_CONFIG in range. -/
def tbp : TbConfigParams :=
  { num := 65535, den := 1, encEn := true, dirInv := false, preset := true, filt := 15, sheetSrc := 0, sheetPin := 0
    rep := 0, wp := 100 }

/-- Parameters of JOB_ADMIT. -/
def adm : AdmitParams :=
  { template := 4, prk := 0, stream := 0, asid := 0, instances := 1, looseOk := true, period := 256, vRated := 118110
    d := 1_000_000, lag := 40_000, seed := 0, wmask := 0, len := [0, 0, 0, 0], instB := 0
    mapA := 0 :: List.replicate 47 255, mapB := 1 :: List.replicate 47 255, win := [] }

/-- An admitted template. -/
def tmpl : Template :=
  { p := adm, accepted := true, withdrawn := false, hdr := none, ctxs := [0], nextRow := 0, rowIdx := 0, rows := []
    reply := [] }

/-- A Picot frame at a slot. -/
def pkf (slot : Nat) : PkFrame :=
  { f := 16, slot := slot, start := 10_000_000, timer := false, deferred := false, burst := none, cut := false }

/-- The Picot port on, with WP at 100. -/
def pkOn (x : Option PkFrame) : State :=
  { (dev 3).setUnit 0 { claimed := true, armed := true, action := 4, target := 32, period := 16 } with
    pk := { (dev 3).pk with en := true, frame := x }, tb := { (dev 3).tb with wp := 100, hwm := 100 } }

/-- A house-converter step's options, none set. -/
def opt0 : HcOpt := { ext := 0, ow := 0, pullI := 0, pullDown := false }

/-- The hold that stands until the first CAL_RUN is over. -/
def freeHc : State := { dev 3 with trim := { (dev 3).trim with holdPwr := false } }

/-- A house converter with a conversion in progress and nothing waiting. -/
def conv (k : ConvKind) : Conv := { kind := k, ch := 0, opt := opt0 }

/-- The device with a conversion in progress. -/
def hcOn (k : ConvKind) : State := { freeHc with hc := { freeHc.hc with conv := some (conv k) } }

/-- An IPv4 packet of a protocol between addresses of zeros, in an untagged frame to a MAC of zeros, padded to the least
length. -/
def ipFrame (proto : BitVec 8) (body : Bytes) : Bytes :=
  let front : Bytes := [0x45, 0] ++ beBytes 2 (20 + body.length) ++ [0, 0, 0, 0, 64, proto]
  zeros 12 ++ [8, 0] ++ front ++ beBytes 2 (0xFFFF - onesSum front) ++ zeros 8 ++ body ++ zeros 40

/-- A UDP datagram to port 5000 with no checksum. -/
def udpFrame (data : Bytes) : Bytes :=
  ipFrame 17 ([0, 0] ++ beBytes 2 5000 ++ beBytes 2 (8 + data.length) ++ [0, 0] ++ data)

/-- A line packet of 64 bytes for a line of stream 1 (R282). -/
def linePkt (l : Nat) : Bytes :=
  [0x4C, 0x4E, 1, 0, 1, 0, 0, 0] ++ leBytes 4 l ++ zeros 4 ++ leBytes 2 64 ++ zeros 6 ++ List.replicate 64 0x5A

/-- Port p enabled and up. -/
def portOn (p : Nat) (stream : Option Nat) : State :=
  (dev 3).setPort p { en := true, link := true, stream := stream }

/-- Stream 1 open on port 15 with lines of 64 bytes. -/
def strm (next : Nat) : State := (portOn 15 (some 1)).setStream 1
  { bound := true, primary := 15, udp := 5000, pitch := 64, depth := 1, claimed := true, next := next }

/-- A 64 KiB page of the ground buffer, pinned. -/
def gbPage : Page := { asid := 0, va := 0, pa := gbBase, big := false, r := true, w := true, pin := true }

/-- Parameters of STREAM_OPEN. -/
def sop : StreamOpenParams :=
  { stream := 15, primary := 15, secondary := some 0, camera := 1, pixfmt := 1, rport := 3, udp := 5000, origin := 0
    sheetOfs := 0, gbBase := 0x200_0000 - 64, pitch := 64, depth := 1 }

/-- Parameters of PORT_CONFIG's sections. -/
def lnk (p : Nat) (en : Bool) : LinkParams :=
  { port := p, en := en, fast := true, fec := 2, mac := zeros 6, vid := 4094, ipv4 := zeros 4 }

def srv : ServiceParams :=
  { port := 17, rasterUdp := 5000, asid := 1023, domain := 0, pinClass := 6, looseClass := 2, intakeBase := 0
    intakeSize := 0, dstMac := zeros 6, maxRecs := 32, dstIp := zeros 4, srcUdp := 1, dstUdp := 2 }

def gts (first : Nat) (commit : Bool) : GatesParams :=
  { port := 17, first := first, entries := [{ mask := 0xFF, interval := 100 }], commit := commit, gateEn := true
    total := 1, baseSec := 0, baseNs := 0 }

/-- A raster packet of 64 bytes at offset 0 of raster 9. -/
def rasterPkt (ofs : Nat) : Bytes :=
  [0x4C, 0x52, 1, 0] ++ leBytes 4 9 ++ leBytes 6 ofs ++ leBytes 2 64 ++ zeros 8 ++ List.replicate 64 0xA5

/-- Service port 16 up, with an intake of one page. -/
def rasterOn : State :=
  { (portOn 16 none).setService 0 { rasterUdp := 5000, intakeSize := 0x1_0000, raster := some 9 } with
    ms := { (dev 3).ms with pages := [gbPage] } }

/-- Service port 17 up and sending a frame. -/
def sendOn : State := (portOn 17 none).setService 1 { sending := true }

/-- An ICMP echo request of no data. -/
def echoReq : Bytes := [8, 0, 0xF7, 0xFF, 0, 0, 0, 0]

/-- A loose job with no stages. -/
def jb : Job :=
  { pinned := false, template := 0, inst := 0, stream := 0, prk := 0, asid := 0, seed := 0, sr := 0, tRel := 0, tLast := 0
    firstLine := 0, deadline := 0, sheet := 0, slotTag := 0, recTag := 0, port := 0, order := 0, ctxIdx := 0
    map := 0 :: List.replicate 47 255, len := [0, 0, 0, 0], epochs := [1] }

/-- Every sequence but 3 is idle in the state that HouseConverter's witness takes. -/
theorem hseqIdle (p : Nat) (hp : p ≠ 3) :
    (((hcOn (.step 3 0)).setHseq 3 { en := true, steps := [0], phase := .running 0 }).hseq p).phase = .idle := by
  rw [State.hseq_setHseq, if_neg hp]
  rfl

/-- The one gate entry of GATES' witness. -/
theorem gtsEntry (i : Nat) (h : i < 1) :
    ([{ mask := 0xFF, interval := 100 }] : List GateEntry)[i]?
      = if 0 ≤ i ∧ i < 0 + 1 then (gts 0 true).entries[i - 0]?
        else tget (fun _ => none) ((dev 3).service 1).staged i := by
  obtain rfl : i = 0 := by omega
  rfl

/-- A MAP_PAGE of one page, its drop and drain not over. -/
def mp (op : Nat) : MapPageParams :=
  { asid := 0, op := op, big := false, r := true, w := true, va := 0, pa := if op = 0 then 0x8_0000_0000 else 0 }

/-- Address space 0 with its table and a page that is not pinned. -/
def asid0 : State := { dev 3 with ms := { (dev 3).ms with
  asids := [0], tables := [{ level := 1, asid := 0, pre := 0, ofs := 0 }], pages := [{ gbPage with pin := false }] } }

/-- A MAP_PAGE waits in address space 0. -/
def mapWaits (op : Nat) : State :=
  { asid0 with ms := { asid0.ms with pendings := [{ h := hd, p := mp op }] } }

/-- No pillow of a device without work has any. -/
theorem noWork {s : State} (h : s.pillows = []) : Quiet s := by
  intro p
  rw [show s.pillow p = {} by unfold State.pillow; rw [h]; rfl]
  exact ⟨rfl, rfl, rfl, rfl, rfl⟩

/-- The front of a manifest of one shard of 64 bytes. -/
def mfHead : Bytes :=
  leBytes 4 0x4E4D_5742 ++ [1, 0, 0, 0] ++ leBytes 8 1 ++ [5, 0, 0, 0] ++ leBytes 4 1 ++ leBytes 8 64 ++ zeros 16
    ++ leBytes 4 96 ++ leBytes 4 29792 ++ zeros 8

/-- A manifest, its signature blank. -/
def mf : Bytes := mfHead ++ zeros 29824

/-- The manifest's form is good: its fields stand in its front, and its length is as they say. -/
theorem mf_form : manifestForm mf = true := by
  have hl : mf.length = 29888 := by
    rw [mf, List.length_append, show mfHead.length = 64 from by decide, zeros, List.length_replicate]
  have e1 : numAt 0x14 4 mf = 1 := rfl
  have e2 : numAt 0x18 8 mf = 64 := rfl
  have e3 : numAt 0 4 mf = 0x4E4D_5742 := rfl
  have e4 : numAt 4 2 mf = 1 := rfl
  have e5 : numAt 0x12 2 mf = 0 := rfl
  have e6 : numAt 0x38 8 mf = 0 := rfl
  have e7 : numAt 0x30 4 mf = 96 := rfl
  have e8 : numAt 0x34 4 mf = 29792 := rfl
  simp only [manifestForm, e1, e2, e3, e4, e5, e6, e7, e8, hl]
  decide

/-- A shard of 64 bytes of zeros, and the bundle that waits for it. -/
def shardXf : Xfer := { xf 2 with total := some 64, taken := 1, buf := zeros 64 }
def staging (digests : List (BitVec 256)) : Bundle :=
  { state := 1, id := 1, shards := 1, bodySize := 64, units := [0], digests := digests }
def shardDig : BitVec 256 := digestOf ((staging []).shardHead 0 ++ shardXf.buf)

/-- A bundle of zeros, staged and found sound. -/
def ready : Bundle := { staging [shardDig] with state := 2, verified := [0] }
def bundleOn (b : Bundle) : State := (dev 3).setBundle 15 b

/-- The shard of the bundle of zeros is sound where HBM holds zeros. -/
theorem ready_sound (s : State) (h : s.shardPoisoned ready 0 = false)
    (hb : ready.shardHead 0 ++ s.body ready (shardBytes * 0) (ready.shardLen 0)
      = (staging []).shardHead 0 ++ shardXf.buf) : s.shardFault ready 0 = none := by
  unfold State.shardFault
  rw [if_neg (by rw [h]; decide), if_pos]
  exact congrArg digestOf hb

/-- A slot in a state, with nothing placed. -/
def slotIn (st : Nat) : State := (dev 3).setSlot 63 { state := st, handle := 15, hdr := some hd }

/-- A slot empty, and one ACTIVE, beside the bundle of zeros. -/
def ms0 : State := { bundleOn ready with trim := { (dev 3).trim with calDone := true } }
def ms3 : State := ms0.setSlot 63 { state := 3, handle := 0 }

/-- The shards that a programming reads from the bundle of zeros are sound. -/
theorem sound0 (i : Nat) (h : i ∈ ms0.shardsRead (ms0.bundle 15)) : ms0.shardFault (ms0.bundle 15) i = none := by
  rw [show ms0.shardsRead (ms0.bundle 15) = [0] from by decide +kernel] at h
  obtain rfl : i = 0 := by simpa using h
  rw [show ms0.bundle 15 = ready from rfl]
  exact ready_sound ms0 (by decide +kernel) (by decide +kernel)

theorem sound3 (i : Nat) (h : i ∈ ms3.shardsRead (ms3.bundle 15)) : ms3.shardFault (ms3.bundle 15) i = none := by
  rw [show ms3.shardsRead (ms3.bundle 15) = [0] from by decide +kernel] at h
  obtain rfl : i = 0 := by simpa using h
  rw [show ms3.bundle 15 = ready from rfl]
  exact ready_sound ms3 (by decide +kernel) (by decide +kernel)

/-- A target of placement pillow 0. -/
def tgt : Target :=
  { image := 0, ppil := 0, logical := 0, twin := 0, csum := 0, fmt := 0, rot := 0, kRows := 1, ncol := 1, ofs := 0 }

/-- A device whose seal is due after a second. -/
def seals : State := { freeHc with trim := { freeHc.trim with verdict := true } }

/-- An image of one RECORD operation in one stage on one pillow (R143, R146, R149). -/
def prkBytes : Bytes :=
  [0x50, 0x52, 0x49, 0x4B, 1, 0, 0, 0, 1, 0, 0, 0, 0, 0, 0, 0, 1, 1] ++ zeros 0x2E ++ leBytes 4 0x80 ++ zeros 0x10
    ++ leBytes 4 0x180 ++ leBytes 4 0x190 ++ zeros 0x24 ++ [6] ++ zeros 255 ++ [0, 0xFF] ++ zeros 14

/-- The pricking of that image. -/
def prk1 (loaded : Bool) : Prick :=
  { loaded := loaded, size := 0x190, bytes := prkBytes.zipIdx.map fun x => (x.2, some x.1) }

/-- Pricking 0 of the store holds it. -/
def prkOn (loaded : Bool) : State := (dev 3).setPrick 0 (some (prk1 loaded))

/-- A refresh request for logical bobbin 0 of pillow 0, whose image is the bundle of zeros' first target. -/
def rq : RefreshReq := { source := 3, logical := 0, age := 0 }
def refr : State :=
  (((ms0.setPillow 0 { refresh := [rq] }).setBobbin 0 16 { state := 1 }).setBobbin 0 0 { state := 0, slot := 63 }).setSlot
    63 { state := 3, handle := 15, targets := [tgt], map := [0] }

theorem soundR (i : Nat) (h : i ∈ tgt.shards) :
    refr.shardFault (refr.bundle (refr.slot (Bobbin.slot { state := 0, slot := 63 })).handle) i = none := by
  rw [show tgt.shards = [0] from by decide +kernel] at h
  obtain rfl : i = 0 := by simpa using h
  rw [show refr.bundle (refr.slot (Bobbin.slot { state := 0, slot := 63 })).handle = ready from by decide +kernel]
  exact ready_sound refr (by decide +kernel) (by decide +kernel)

/-- A programming of the spare of a pillow. -/
def pq (started : Bool) : ProgReq :=
  { bobbin := 16, logical := 0, forSlot := some 63, target := tgt, handle := 15, started := started }


/-- That image with PLAN set, and stream 0 deep enough for a template of it. -/
def prkP : Prick := { (prk1 true) with bytes := (prkBytes.set 6 1).zipIdx.map fun x => (x.2, some x.1) }
def ad0 : State :=
  { ((dev 3).setPrick 0 (some prkP)).setStream 0 { bound := true, pitch := 64, depth := 1024 } with ms := asid0.ms }

/-- A run and a saved stage of context 3. -/
def run3 : Run := { ctx := 3, stage := 0 }
def sav3 (suspended : Bool) : Saved := { slot := 5, run := run3, suspended := suspended, since := 0, bytes := 64 }

/-- Parameters of JOB_SUBMIT. -/
def sub : SubmitParams :=
  { prk := 0, port := 0, asid := 0, seed := 0, recTag := 9, wmask := 0, len := [0, 0, 0, 0]
    map := 0 :: List.replicate 47 255, win := [] }

/-- The pricking of one RECORD with a run-time length. -/
def prkL : Prick := { (prk1 true) with bytes := (prkBytes.set 0x12 1).zipIdx.map fun x => (x.2, some x.1) }

/-- An image of one operation of one segment of n elements at 0, its outputs at 0xF000, with the tokens of an M level and a
K level of 4 elements where asked for; a tile of 4 rows and 1 column on logical bobbin 0 under slot 63, a static 8-bit
descriptor of scale 1, and an epilogue descriptor of a format with scales of 1 (R143 to R159). Bytes not listed are 0. -/
def opPrk (kind arg n : Byte) (m k : Bool) (fmt : Byte) : Prick :=
  let b : List (Nat × Byte) :=
    [(0x06, 0), (0x08, 1), (0x0A, 1), (0x0C, 1), (0x0E, 1), (0x10, 1), (0x11, 1), (0x40, 0x80), (0x44, 0x80), (0x45, 1),
      (0x48, 0x90), (0x49, 1), (0x4C, 0xA0), (0x4D, 1), (0x54, 0xC0), (0x55, 1), (0x80, kind), (0x8A, 0xFF), (0x8B, arg),
      (0x8C, n), (0xB1, 0xF0), (0xC0, n), (0xC2, 1)]
    ++ (if m then [(0x118, 2), (0x11A, 4), (0x11C, 3)] else [])
    ++ (if k then [(0x148, 5), (0x14A, 4), (0x14C, 4)] else [])
    ++ [(0x180, 63), (0x184, 1), (0x188, 4), (0x196, 0x80), (0x197, 0x3F), (0x1A0, fmt), (0x1A6, 0x80), (0x1A7, 0x3F),
      (0x1AE, 0x80), (0x1AF, 0x3F), (0x1C1, 0xFF)]
  { loaded := true, size := 0x1D0, bytes := b.map fun x => (x.1, some x.2) }

/-- A RECORD without payload. -/
def recK : Prick := opPrk 6 0 0 false false 0

/-- Context 3 holds a job, and pillow p is as given. -/
def onPil (p : Nat) (j : Job) (x : Pillow) : State := (((dev 3).setPrick 0 (some recK)).setJob 3 (some j)).setPillow p x

/-- Context 3's work on pillow p. -/
def wk (p : Nat) (j : Job) (r : Run) : Work :=
  { p := p, job := j, prk := recK, run := r, op := recK.op r.op, len := if r.started then r.lens else j.len, tab := r.tab }

/-- A run of context 3 on pillow 47 under an image, with one page mapped. -/
def opOn (k : Prick) (r : Run) : State :=
  { (((dev 3).setPrick 0 (some k)).setJob 3 (some jb)).setPillow 47 { run := some r } with
    ms := { (dev 3).ms with pages := [gbPage] } }

/-- The work of that run. -/
def opWk (k : Prick) (r : Run) : Work :=
  { p := 47, job := jb, prk := k, run := r, op := k.op 0, len := if r.started then r.lens else jb.len, tab := r.tab }

/-- A run at its first position. -/
def runAt (tok : Nat) : Run := { run3 with started := true, next := some ([0, 0, 0, 0, 0, 0], tok) }

/-- What a completed access read, and the state after it. -/
def okB : Access → Bytes
  | .ok b _ => b
  | _ => []
def okS (d : State) : Access → State
  | .ok _ s => s
  | _ => d
def isOk : Access → Bool
  | .ok _ _ => true
  | _ => false
theorem ok_of {d : State} {a : Access} (h : isOk a = true) : a = .ok (okB a) (okS d a) := by
  cases a with
  | ok b s => rfl
  | fault f s => cases h
  | wait n l w => cases h

/-- The pieces of a translated write. -/
def exL : Except FaultRec (List (Nat × Nat)) → Option (List (Nat × Nat))
  | .ok l => some l
  | .error _ => none
theorem ex_of {a : Except FaultRec (List (Nat × Nat)) × State} {l : List (Nat × Nat)} (h : exL a.1 = some l) :
    a = (.ok l, a.2) := by
  obtain ⟨a, s⟩ := a
  cases a with
  | ok l => cases h; rfl
  | error f => cases h

/-- A pair with a first part. -/
theorem pr_of {α β : Type} {a : α × β} {x : α} (h : a.1 = x) : a = (x, a.2) := by rw [← h]

/-- The targets of a burst. -/
def tgL : Except Reach (List Nat) → List Nat
  | .ok l => l
  | .error _ => []
theorem tg_of {a : Except Reach (List Nat) × State} {x : Nat} (h : tgL a.1 = [x]) : a = (.ok [x], a.2) := by
  obtain ⟨a, s⟩ := a
  cases a with
  | ok l => cases h; rfl
  | error f => cases h

/-- A SETLEN; a DMA of 64 bytes; a TAT COPY of 128 elements, and one masked beyond its 3 tokens; an XBAR. -/
def setK : Prick := opPrk 5 3 0 false false 0
def dmaK : Prick := opPrk 3 0 64 false false 0
def tatK : Prick := opPrk 2 0 128 false false 0
def maskK : Prick := opPrk 2 0 128 true false 0
def xbK (fmt : Byte) : Prick := opPrk 1 0 4 true true fmt

/-- Their first indices. -/
def idx0 : List Nat := [0, 0, 0, 0, 0, 0]

/-- A transfer at its start. -/
def xfr0 : DmaXfer := { op := 0, idx := idx0, ofs := 0, async := false, fault := none }

/-- A token in the staging buffers, and its drive. -/
def tok0 : StagedTok :=
  { idx := idx0, tok := 0, masked := false, k := 4, half := 0, scale := 0x3F80_0000, zq := 0, degen := none }
def drv0 : Drive := { n := 0, k := 0, index := 0, tile := (xbK 0).tile 0, rows := 4, wave := 0 }

/-- The XBAR's run with that token staged, its bobbin serving the tile. -/
def stgR : Run := { (runAt 1) with staged := [tok0] }
def xbOn (x : Bobbin) : State :=
  ((opOn (xbK 0) stgR).setSlot 63 { state := 3, handle := 0 }).setBobbin 47 0 x

/-- A vector of one 64-bit value that leaves as a spill. -/
def vec0 : EpiVec := { idx := idx0, tok := 0, masked := false, scale := 0x3F80_0000, vals := [-1], degen := none, caps := none }
def epiR : Run := { run3 with started := true, epi := [vec0] }
def epiW : Work := opWk (xbK 3) epiR
def epiS : State := opOn (xbK 3) epiR

/-- The run of a DMA, its work and its state. -/
def dmaR : Run := { run3 with started := true, dma := [xfr0] }
def dmaW : Work := opWk dmaK dmaR
def dmaS : State := opOn dmaK dmaR

/-- A round keeps the 25 lanes. -/
theorem keccakRound_length (a : Lanes) (rc : BitVec 64) : (keccakRound a rc).length = 25 := by
  unfold keccakRound
  extract_lets col cols par theta rho pi chi
  have h : chi.length = 25 := by simp [chi, lanesOf]
  clear_value chi
  cases chi with
  | nil => cases h
  | cons l t => exact h

theorem foldl_keccakRound_length (l : List (BitVec 64)) :
    ∀ a : Lanes, a.length = 25 → (l.foldl keccakRound a).length = 25 := by
  induction l with
  | nil => exact fun _ h => h
  | cons r l ih => exact fun a _ => ih _ (keccakRound_length a r)

theorem absorbBlock_length (a : Lanes) (m : Bytes) : (absorbBlock a m).length = 25 :=
  foldl_keccakRound_length _ _ (by simp [lanesOf])

theorem absorb_length (n : Nat) : ∀ (a : Lanes) (m : Bytes), a.length = 25 → (absorb n a m).length = 25 := by
  induction n with
  | zero => exact fun _ _ h => h
  | succ n ih =>
    intro a m _
    unfold absorb
    split
    · exact ih _ _ (absorbBlock_length _ _)
    · exact absorbBlock_length _ _

theorem leBytes_len (n : Nat) : ∀ v, (leBytes n v).length = n := by
  induction n with
  | zero => exact fun _ => rfl
  | succ n ih => exact fun v => by simp [leBytes, ih]

/-- A digest has 32 octets. -/
theorem shake256_length (m : Bytes) : (shake256 m).length = 32 := by
  have h := absorb_length (m.length / 136 + 1) (List.replicate 25 0) m (by simp)
  unfold shake256
  extract_lets a
  have h4 : (a.take 4).length = 4 := by rw [List.length_take, show a.length = 25 from h]; rfl
  match a.take 4, h4 with
  | [w, x, y, z], _ => simp [leBytes_len]

theorem zeros_len (n : Nat) : (zeros n).length = n := List.length_replicate

theorem zeros_add (m n : Nat) : zeros (m + n) = zeros m ++ zeros n := List.replicate_add ..

/-- A slice that stands between two parts. -/
theorem sliceBytes_mid (x y z : Bytes) : sliceBytes x.length y.length (x ++ y ++ z) = y := by
  simp [sliceBytes]

theorem sliceBytes_end4 (w x y z : Bytes) :
    sliceBytes (w.length + x.length + y.length) z.length (w ++ x ++ (y ++ z)) = z := by
  simp [sliceBytes, Nat.add_assoc]

/-- A firmware image of 64 KiB of zeros that verifies: its header before the digest, and what follows the digest up to the
body. -/
def fwA : Bytes := leBytes 4 0x4D57_465A ++ [1, 0, 0, 0] ++ leBytes 4 1 ++ leBytes 4 65536 ++ zeros 8
def fwB : Bytes := zeros 30312
def fwBytes : Bytes := fwA ++ shake256 (zeros 65536) ++ (fwB ++ zeros 65536)

theorem fw_verifies (s : State) (hr : s.sec.revFw = 0) (hf : s.sec.floor = 0) :
    s.imageFails (fwImageOf true fwBytes) = none := by
  have hd := shake256_length (zeros 65536)
  have e1 : sliceBytes 0x18 32 fwBytes = shake256 (zeros 65536) := by
    have := sliceBytes_mid fwA (shake256 (zeros 65536)) (fwB ++ zeros 65536)
    rwa [hd, show fwA.length = 0x18 from by decide] at this
  have e2 : sliceBytes 0x76A0 65536 fwBytes = zeros 65536 := by
    have := sliceBytes_end4 fwA (shake256 (zeros 65536)) fwB (zeros 65536)
    rwa [hd, show fwA.length = 0x18 from by decide, zeros_len, fwB, zeros_len] at this
  have e3 : sliceBytes 0x38 8 fwBytes = zeros 8 := by
    have := sliceBytes_mid (fwA ++ shake256 (zeros 65536)) (zeros 8) (zeros 30304 ++ zeros 65536)
    rw [List.length_append, hd, show fwA.length = 0x18 from by decide, zeros_len, List.append_assoc _ (zeros 8),
      ← List.append_assoc (zeros 8), ← zeros_add] at this
    exact this
  have n0 : numAt 0 4 fwBytes = 0x4D57_465A := rfl
  have n1 : numAt 4 2 fwBytes = 1 := rfl
  have n2 : numAt 0x0C 4 fwBytes = 65536 := rfl
  have n3 : numAt 0x10 1 fwBytes = 0 := rfl
  have n4 : numAt 6 1 fwBytes = 0 := rfl
  have n5 : numAt 7 1 fwBytes = 0 := rfl
  have n6 : (sliceBytes 0x12 6 fwBytes).all (· == 0) = true := rfl
  simp only [State.imageFails, fwImageOf, n0, n1, n2, n3, n4, n5, n6, e1, e2, e3, hr, hf, beq_self_eq_true]
  decide

/-- A firmware image arrived by function 2. -/
def fwXf : Xfer := { xf 5 with total := some 95904, buf := fwBytes }
theorem fw_take : fwXf.buf.take (fwXf.total.getD 0) = fwBytes := by
  refine List.take_of_length_le ?_
  have hl : fwBytes.length = 95904 := by
    rw [fwBytes, List.length_append, List.length_append, List.length_append, shake256_length, zeros_len, fwB, zeros_len,
      show fwA.length = 24 from by decide]
  exact Nat.le_of_eq hl

/-- A UDP datagram to a port with no checksum, and a PTP message of a type with its flags and body (domain 0, sender 0,
sequence number 3, every second). -/
def udpTo (port : Nat) (data : Bytes) : Bytes :=
  ipFrame 17 ([0, 0] ++ beBytes 2 port ++ beBytes 2 (8 + data.length) ++ [0, 0] ++ data)
def ptpFrame (port : Nat) (ty flags : Byte) (body : Bytes) : Bytes :=
  udpTo port ([ty, 2] ++ beBytes 2 (34 + body.length) ++ [0, 0, flags, 0] ++ zeros 22 ++ [0, 3, 0, 0] ++ body)
def ptpMsg (body : PtpBody) : PtpMsg := { domain := 0, source := 0, seq := 3, log := 0, corr := 0, body := body }

/-- The XBAR's bobbins have no new error in their staging buffers. -/
theorem xbErrs {x : Bobbin} (h : x.stageErrs = []) (q : Nat) : ((xbOn x).bobbin 47 q).stageErrs = [] := by
  have e : (xbOn x).bobbin 47 q = if q = 0 then x else bobbinAtReset q := by
    simp only [xbOn, State.bobbin, State.setBobbin, State.modPillow, State.pillow_setPillow_same, tget_tset]
    rfl
  rw [e]
  split
  · exact h
  · unfold bobbinAtReset; split <;> rfl

/-- The columns that the vector of spills writes. -/
def sp0 : List (Nat × Bytes) :=
  spansOf (((epiW.columns vec0.idx).zip vec0.vals).map fun x => (x.1, leBytes 8 (ofSigned 64 x.2)))

/-- The pages that it writes. -/
theorem epi_ok :
    exL (writePages epiW 1 false (sp0.flatMap fun x =>
      vaPieces (vaOf ((epiW.address epiW.op.o Level.strO vec0.idx vec0.tok).1 + ((x.1 * 8 : Nat) : Int))) x.2.length)
      (epiS.advance 0)).1 = some [(gbBase + 0xF000, 8)] := by decide +kernel

/-! ## Ill-formed terms that WellFormed refuses, one for each check -/

/-- A header whose PRIO does not fit 3 bits. -/
def hd8 : Hdr := { hd with prio := 8 }

/-- Sixteen windows not given. -/
def win0 : List WinSpec := List.replicate 16 { base := 0, pitch := 0, depth := 0 }

/-- HC_CONFIG's parameters for sequence 15 with a thread trigger. -/
def hce (steps : List HcStep) : HcEnableParams :=
  { seq := 15, thread := true, pin := 3, edge := 3, delay := 65535, steps := steps }

/-- A step on channel ch with options. -/
def hcs (o : HcOpt) : HcStep := { ch := 255, opt := o, winEn := true, lo := 0, hi := 65535 }

/-- R403: PRIO is a 3-bit field, of whatever command. -/
theorem test_wf_prio :
    [Instr.devInfo hd8, .devReset hd8 0, .hcDataRead hd8, .tbWpLoRead hd8, .pkPick0Read hd8, .shqErrPop hd8 .clean,
      .frCtrlEnter hd8, .frCtrlLeave hd8, .secArm hd8 0, .secOpSeal hd8, .secOpRevoke hd8 0, .calRun hd8, .trimWrite hd8,
      .hcSelfcal hd8, .hcReadData hd8, .pkConfigDisable hd8, .fwUpdateDiscard hd8].all (fun i => !wellFormed i) = true := by
  decide

/-- R420 to R434: fields of the device, register, memory and weight commands. -/
theorem test_wf_fields :
    [Instr.regRead hd 0 65536, .regWrite hd 0 (List.replicate 65536 0), .qcCommit hd 48, .wrReq hd 48 0, .wrReq hd 0 16,
      .pwrReq hd 512 true, .trimRead hd (2 ^ 32) 4, .mapCreate hd 65536 0, .mapCreate hd 0 256,
      .mapPage hd { mp 0 with va := 2 ^ 64 }, .mapPage hd { mp 0 with op := 256 }, .mapPin hd 0 0 0 (2 ^ 64),
      .marchRun hd 256 0 0, .shardBeginManifest hd 256, .shardBeginShard hd 0 0xFFFF_FFFE, .shardBeginDiscard hd 256,
      .shardEnd hd 256 true, .slotProgram hd 0 0 [0], .slotProgram hd 256 0 (List.replicate 48 0),
      .slotProgram hd 0 0 (List.replicate 48 256), .slotActivate hd 0 (some 255), .slotRetire hd 256].all
      (fun i => !wellFormed i) = true := by
  decide +kernel

/-- R434 to R447: fields of the commands of work, streams, ports, converters, queues, firmware and attestation. -/
theorem test_wf_work :
    [Instr.prickLoadOpen hd 256 0, .prickLoadOpen hd 0 (2 ^ 32), .prickLoadData hd 0 0 (zeros 497), .prickLoadClose hd 256,
      .prickLoadDiscard hd 256, .jobAdmit hd { adm with win := win0, template := 65536 },
      .jobAdmit hd { adm with win := win0, len := [0] }, .jobAdmit hd adm, .jobAdmit hd { adm with win := win0, mapA := [0] },
      .jobAdmit hd { adm with win := { base := 2 ^ 48, pitch := 0, depth := 0 } :: win0.tail },
      .jobSubmit hd sub, .jobSubmit hd { sub with win := win0, port := 256 }, .partialCapture hd { sub with win := win0 } (2 ^ 48) 1,
      .partialCapture hd { sub with win := win0 } 0 256, .jobAbortLoose hd 65536, .jobAbortTemplate hd 65536,
      .tbConfig hd { tbp with num := 65536 }, .tbConfig hd { tbp with wp := 2 ^ 48 }, .tbClaimClaim hd (some 255) 0 0 0 0,
      .tbClaimClaim hd none 0 0 (2 ^ 32) 0, .tbClaimRelease hd 256, .streamOpen hd { sop with secondary := some 255 },
      .streamOpen hd { sop with origin := 2 ^ 48 }, .streamClose hd 256, .portConfigLink hd { lnk 0 true with fec := 4 },
      .portConfigLink hd { lnk 0 true with mac := zeros 5 }, .portConfigService hd { srv with pinClass := 8 },
      .portConfigService hd { srv with dstIp := zeros 5 }, .portConfigGates hd { gts 0 true with baseNs := 2 ^ 32 },
      .portConfigGates hd { gts 0 true with entries := [{ mask := 0, interval := 2 ^ 32 }] },
      .hcConfigEnable hd (hce (List.replicate 9 (hcs opt0))), .hcConfigEnable hd (hce [hcs { opt0 with ext := 8 }]),
      .hcConfigEnable hd { hce [] with edge := 4 }, .hcConfigDisable hd 256, .hcConfigMode hd true 65536,
      .hcReadConvert hd 256 opt0, .hcReadUrgent hd 0 { opt0 with ow := 4 }, .pkConfigEnable hd 0 (2 ^ 48), .queueFlush hd 256,
      .queueDrop hd 0 true 256, .fwUpdateOpen hd (2 ^ 32), .fwUpdateClose hd8 true,
      .attestForm hd (zeros 31), .attestRead hd (2 ^ 32)].all (fun i => !wellFormed i) = true := by
  decide +kernel

/-- R2, R13, R27, R55, R261, R277, R360: parts of the device that do not exist. -/
theorem test_wf_parts :
    [Instr.calRunEnd 0 { meas := [], failed6 := [(816, 0)], tj := 0 },
      .hcSelfcalEnd 0 { meas := [{ cls := .bobbinK, bobbin := 816, index := 0, value := 0, again := 0 }], failed6 := [], tj := 0 },
      .shardTimeout 0 16, .bundleCheckEnd 0 16, .slotProgramEnd 0 64, .slotDrainEnd 0 64, .slotReprogramEnd 0 64,
      .slotRetireEnd 0 64, .jobAdmitAccept 0 256, .templateWithdrawn 0 256, .streamCloseEffect 0 16, .queueFlushEffect 0 51,
      .mailboxWrite 0 (zeros 2049) true, .replyWindowRead 0 0 .clean, .replyWindowRead 0 2049 .clean,
      .transportByteWrite 0 3 0 0, .transportByteRead 0 0 (2 ^ 17), .cccrWrite 0 (2 ^ 17) 0, .f2BlockWrite 0 [] true,
      .ioAbort 0 8 true, .packetEnter 0 51, .errorEntryEnter 0 32, .recordMove 0 48 .clean, .threadTriggerEdge 0 4 true,
      .pulseEnd 0 4, .stageReady 0 48 0 0, .stageReady 0 0 16384 0, .saveComplete 0 48, .restoreComplete 0 48 .clean,
      .tokenConditioned 0 48, .passComplete 0 48 [], .epilogueWriteEnd 0 48, .dmaBurstComplete 0 48 { xfer := 0 },
      .translationWalkEnd 0 0 1024 0 .clean, .translationWalkEnd 0 0 0 (2 ^ 48) .clean, .tattingInstructionEnd 0 48,
      .setlen 0 48, .fenceWaitEnd 0 48, .windowWaitEnd 0 48, .recordCommit 0 48, .faultWaitExpiry 0 16384,
      .streamFrame 0 16 [], .linkDown 0 { port := 18 }, .linkUp 0 { port := 18 }, .linkUp 0 { port := 0, hiBer := true }, .arpRequest 0 15 [], .icmpEcho 0 18 [], .rasterPacket 0 15 [],
      .ptpMessage 0 18 [], .delayReq 0 15, .gateEntryChange 0 2, .frameTransmitEnd 0 2, .picotSlotEnd 0 [],
      .sequenceReady 0 16, .calibrationPass 0 0 17 [] [], .dwellEnd 0 48 0 0 [], .levelScanEnd 0 0 17 [],
      .ageRefreshRequest 0 0 16, .refreshStart 0 48, .bobbinProgrammingStart 0 48, .bobbinProgrammingEnd 0 0 17 0 0,
      .sramScrub 0 .staging 48 0 .clean, .hbmScrub 0 0xC_0000_0000 .clean, .hbmLinkRetrain 0 2 0 0 true,
      .hbmLinkRetrain 0 0 256 0 true, .mgmtCoreFault 0 0 0, .mgmtCoreFault 0 5 0, .thermalReading 0 [] [],
      .debugToken 0 0 0 256 true].all (fun i => !wellFormed i) = true := by
  decide +kernel

/-- The least and the largest of some operands are well formed. -/
theorem test_wf_bounds :
    [Instr.hbmScrub 0 0xB_FFFF_FFFF .clean, .bobbinProgrammingEnd 0 47 16 0 0, .queueFlushEffect 0 50, .mgmtCoreFault 0 4 0,
      .jobAdmit hd { adm with win := win0 }, .hcConfigEnable hd (hce (List.replicate 8 (hcs opt0))),
      .replyWindowRead 0 2048 .clean, .stageReady 0 47 16383 255].all wellFormed = true := by
  decide +kernel

/-! ## The spec's worked examples -/

/-- R508: the IDCODE of stepping 1. -/
theorem test_idcode : ({ dev 3 with sec := { (dev 3).sec with step := 1 } } : State).idcode = 0x1481_654B := by decide +kernel

/-- The worked pass after R75: the four partials of R68, and out_37 of R60. -/
theorem test_partials :
    [trimStage (-2) 5 16548 0, trimStage 1 5 16220 0, trimStage (-1) 5 16548 0, trimStage 1 5 16220 0]
      = [-134, 58, -70, 58] := by decide +kernel
theorem test_combine :
    combine false false [-106, 94] [-38, 82] 0 = -26158 ∧ combine false false [-134, 58] [-70, 58] 0 = -34438 := by
  decide +kernel

/-- The admission of the reference press (after R46, and the reply of JOB_ADMIT in chapter 15): pillow 00 with its twin lost. -/
theorem test_admission :
    admitPillow (List.replicate 13 { t := 2_167_471, d := 960_000, c := 61_400 }) true
      = { reason := 0, u := 24174, x := 0, slack := some 135_500 } := by decide +kernel
theorem test_contexts : ctxCount { adm with instances := 13 } = 26 := by decide +kernel

/-- R214, R287, the line of chapter 10: line 3,000,255 stands in slot 447, and its SEQ and LINE are read from the header. -/
theorem test_line :
    ({ bound := true, pitch := 3328, depth := 512, next := 3_000_255 } : Stream).lineAddr 3_000_255 0 = gbBase + 0x16_B300 ∧
    ({ bound := true, pitch := 3328, depth := 512, next := 3_000_255 } : Stream).lineOf
      (numAt 8 4 [0x4C, 0x4E, 1, 1, 0, 1, 0xBF, 0xC7, 0xBF, 0xC7, 0x2D, 0, 0, 0, 0, 0]) = 3_000_255 := by decide +kernel

/-- R299, the record of chapter 16's frame. -/
theorem test_compact_record :
    ({ jb with pinned := true, sr := 3_000_255, sheet := 251, deadline := 1_000_000 } : Job).compactRecord 42 7 0
        [3, 0x11, 0xF0, 0, 0, 0, 0, 0]
      = [0, 0, 0xBF, 0xC7, 0, 0xFB, 7, 0x2A, 3, 0x11, 0xF0, 0, 0, 0, 0, 0] := by decide +kernel

/-- R309 and FIPS 202: SHAKE256 of no message. -/
theorem test_digest :
    shake256 [] = [0x46, 0xB9, 0xDD, 0x2B, 0x0B, 0xA8, 0x8D, 0x13, 0x23, 0x3B, 0x3F, 0xEB, 0x74, 0x3E, 0xEB, 0x24, 0x3F, 0xCD,
      0x52, 0xEA, 0x62, 0xB8, 0x1B, 0x82, 0xB5, 0x0C, 0x27, 0x64, 0x6E, 0xD5, 0x76, 0x2F] := by decide +kernel

/-! ## Witnesses: what meets the hypotheses of every clause of a statement -/

/-- The hypotheses of StepRunsFront are met together. -/
theorem witness_StepRunsFront :
    (∃ (s : State), s.pending = []) :=
  ⟨State.reset, by decide +kernel⟩

/-- The hypotheses of StepKeepsMemoryCanonical are met together. -/
theorem witness_StepKeepsMemoryCanonical :
    (∃ (s : State) (t : State), Memory.wf s.mem = true ∧ Firmware.wf s.fwMem = true ∧ step s = .next t) :=
  ⟨{ dev 3 with pending := [.stall 20_000_000] }, _, by decide +kernel, by decide +kernel, rfl⟩

/-- The hypotheses of UnacceptedCommandsAreRefused are met together. -/
theorem witness_UnacceptedCommandsAreRefused :
    (∃ (c : Instr) (h : Hdr) (op : Nat) (form : Nat) (sec : Bool) (s : State), hdrOf c = some h ∧ opcodeOf c = some (op, form, sec) ∧ s.accepts op sec = false) :=
  ⟨.calRun hd, hd, Op.calRun, 0, false, State.reset, by decide +kernel⟩

/-- The hypotheses of OnlyResetLeavesStateFive are met together. -/
theorem witness_OnlyResetLeavesStateFive :
    (∃ (c : Instr) (s : State) (t : State), s.mgmt.devState = 5 ∧ exec c s = .next t) :=
  ⟨.cmd0 5, dev 5, _, rfl, rfl⟩

/-- The hypotheses of FusesNeverClear are met together. -/
theorem witness_FusesNeverClear :
    (∃ (c : Instr) (s : State) (t : State), exec c s = .next t) :=
  ⟨.secOpRevoke hd 0x81, { dev 1 with sec := { (dev 1).sec with armed := true } }, _, rfl⟩

/-- The hypotheses of PartsChangeOnlyByTheirCommands are met together. -/
theorem witness_PartsChangeOnlyByTheirCommands :
    (∃ (p : Part) (c : Instr) (s : State) (t : State), actsOn p c = false ∧ isReset c = false ∧ exec c s = .next t) :=
  ⟨.slots, .stall 20_000_000, dev 3, _, rfl, rfl, rfl⟩

/-- The hypotheses of DeviceInfoAndConfirm are met together. -/
theorem witness_DeviceInfoAndConfirm :
    (∃ (h : Hdr) (confirm : BitVec 32) (s : State), confirm ≠ 0x5445_5352) :=
  ⟨hd, 0, State.reset, by decide +kernel⟩

/-- The hypotheses of EveryResetKeepsOnly are met together. -/
theorem witness_EveryResetKeepsOnly :
    (∃ (n : Nat) (s : State), s.power.nrst = true) ∧
    (∃ (n : Nat) (s : State), s.up = true) ∧
    (∃ (n : Nat) (c : Nat) (s : State), s.up = true ∧ s.therm.tripSince = some c ∧ c + 1_000_000 ≤ max s.now n) :=
  ⟨⟨5, dev 3, by decide +kernel⟩,
   ⟨5, dev 3, by decide +kernel⟩,
   ⟨5, 9_000_000, { dev 3 with therm := { (dev 3).therm with tripSince := some 9_000_000 } }, by decide +kernel⟩⟩

/-- The hypotheses of ResetEnds are met together. -/
theorem witness_ResetEnds :
    (∃ (n : Nat) (s : State), s.power.nrst = false) ∧
    (∃ (n : Nat) (s : State), (s.mgmt.reset = some .devReset ∧ s.mgmt.resetAt + 10_000 ≤ max s.now n ∨ s.mgmt.reset = some .watchdog ∧ s.mgmt.resetAt + 20_000 ≤ max s.now n)) ∧
    (∃ (n : Nat) (s : State), s.mgmt.reset = some .thermal) ∧
    (∃ (n : Nat) (pkd : BitVec 8) (s : State), s.up = true ∧ s.power.latched = false ∧ s.mgmt.resetAt + 10_000 ≤ max s.now n) :=
  ⟨⟨5, { dev 3 with power := { (dev 3).power with nrst := false } }, by decide +kernel⟩,
   ⟨5, { dev 3 with mgmt := { (dev 3).mgmt with reset := some .watchdog, resetAt := 9_980_000 } }, by decide +kernel⟩,
   ⟨5, { dev 3 with mgmt := { (dev 3).mgmt with reset := some .thermal } }, by decide +kernel⟩,
   ⟨10_000, 0x55, State.reset, by decide +kernel⟩⟩

/-- The hypotheses of BootSequence are met together. -/
theorem witness_BootSequence :
    (∃ (n : Nat) (s : State), s.up = true ∧ s.mgmt.devState = 0 ∧ s.mgmt.pllLocked = false) ∧
    (∃ (n : Nat) (s : State), s.up = true ∧ s.mgmt.devState = 0 ∧ s.mgmt.pllLocked = false) ∧
    (∃ (n : Nat) (flash : FlashRead) (x : FwImage) (s : State), s.up = true ∧ s.mgmt.devState = 0 ∧ s.mgmt.romMarchOk = true ∧ s.mgmt.fwStarted = false ∧ s.sec.updImage = some x) ∧
    (∃ (n : Nat) (flash : FlashRead) (x : FwImage) (s : State), s.up = true ∧ s.mgmt.devState = 0 ∧ s.mgmt.romMarchOk = true ∧ s.mgmt.fwStarted = false ∧ s.sec.updImage = none ∧ (bitsOf 3 2 s.power.straps.toNat = 1 ∨ bitsOf 3 2 s.power.straps.toNat = 2) ∧ s.power.bootErr = 0 ∧ flash.sfdp = true ∧ x = fwImageOf flash.primary.sigOk flash.primary.bytes ∧ s.imageFails x = none) ∧
    (∃ (n : Nat) (s : State), s.up = true ∧ s.mgmt.devState = 0 ∧ s.mgmt.fwStarted = true) :=
  ⟨⟨5, State.reset, by decide +kernel⟩,
   ⟨5, State.reset, by decide +kernel⟩,
   ⟨5, { sfdp := true, width := 0, addr4 := false, primary := { bytes := [], sigOk := true }, secondary := { bytes := [], sigOk := true } }, img, { State.reset with mgmt := { State.reset.mgmt with romMarchOk := true }, sec := { State.reset.sec with updImage := some img } }, by decide +kernel⟩,
   ⟨5, { sfdp := true, width := 0, addr4 := false, primary := { bytes := fwBytes, sigOk := true }, secondary := { bytes := [], sigOk := false } }, _, { State.reset with mgmt := { State.reset.mgmt with romMarchOk := true }, power := { State.reset.power with straps := 0x08 } }, by decide +kernel, rfl, rfl, rfl, rfl, by decide +kernel, rfl, rfl, rfl, fw_verifies _ rfl rfl⟩,
   ⟨5, { State.reset with mgmt := { State.reset.mgmt with fwStarted := true } }, by decide +kernel⟩⟩

/-- The hypotheses of PowerDomains are met together. -/
theorem witness_PowerDomains :
    (∃ (h : Hdr) (d : Nat) (r : Nat) (ungate : Bool) (s : State), s.accepts Op.regWrite false = true ∧ d < 512 ∧ s.domainReason d ungate = r ∧ r ≠ 0) ∧
    (∃ (h : Hdr) (d : Nat) (ungate : Bool) (s : State), s.accepts Op.regWrite false = true ∧ d < 512 ∧ s.domainReason d ungate = 0 ∧ s.domainOn d = ungate) ∧
    (∃ (h : Hdr) (d : Nat) (s : State), s.accepts Op.regWrite false = true ∧ d < 512 ∧ s.domainReason d true = 0 ∧ s.domainOn d = false) ∧
    (∃ (h : Hdr) (d : Nat) (s : State), s.accepts Op.regWrite false = true ∧ d < 512 ∧ s.domainReason d false = 0 ∧ s.domainOn d = true) ∧
    (∃ (n : Nat) (d : Nat) (ungate : Bool) (s : State), s.power.switching = some (d, ungate)) ∧
    (∃ (n : Nat) (s : State), s.up = true) :=
  ⟨⟨hd, 511, 2, true, dev 3, by decide +kernel⟩,
   ⟨hd, 288, true, dev 3, by decide +kernel⟩,
   ⟨hd, 288, { dev 3 with power := { (dev 3).power with on := 0 } }, by decide +kernel⟩,
   ⟨hd, 0, dev 3, by decide +kernel⟩,
   ⟨5, 288, true, { dev 3 with power := { (dev 3).power with switching := some (288, true) } }, by decide +kernel⟩,
   ⟨5, dev 3, by decide +kernel⟩⟩

/-- The hypotheses of FuseOperations are met together. -/
theorem witness_FuseOperations :
    (∃ (h : Hdr) (key : BitVec 32) (s : State), s.accepts Op.regWrite true = true) ∧
    (∃ (h : Hdr) (s : State), s.accepts Op.regWrite true = true ∧ s.sec.armed = true ∧ s.sec.lock = 1 ∧ s.mgmt.devState ≠ 0 ∧ s.mgmt.devState ≠ 5) ∧
    (∃ (h : Hdr) (mask : BitVec 8) (s : State), s.accepts Op.regWrite true = true ∧ s.sec.armed = true ∧ s.mgmt.devState ≠ 0 ∧ s.mgmt.devState ≠ 5) ∧
    (∃ (h : Hdr) (mask : BitVec 8) (s : State), s.accepts Op.regWrite true = true ∧ s.sec.armed = false) :=
  ⟨⟨hd, 0x4C4F_434B, dev 3, by decide +kernel⟩,
   ⟨hd, { dev 4 with sec := { (dev 4).sec with armed := true } }, by decide +kernel⟩,
   ⟨hd, 0x81, { dev 1 with sec := { (dev 1).sec with armed := true } }, by decide +kernel⟩,
   ⟨hd, 1, dev 3, by decide +kernel⟩⟩

/-- The hypotheses of FirmwareUpdate are met together. -/
theorem witness_FirmwareUpdate :
    (∃ (h : Hdr) (length : Nat) (s : State), s.accepts Op.fwUpdate false = true ∧ (s.mgmt.devState = 0 ∨ bitsOf 3 2 s.power.straps.toNat = 1 ∨ bitsOf 3 2 s.power.straps.toNat = 2) ∧ s.bulk.xfer = none ∧ s.sec.upd ≠ 3 ∧ s.sec.upd ≠ 4) ∧
    (∃ (h : Hdr) (sigOk : Bool) (x : FwImage) (b : Xfer) (s : State), s.accepts Op.fwUpdate false = true ∧ s.bulk.image = some b ∧ x = fwImageOf sigOk (b.buf.take (b.total.getD 0)) ∧ s.imageFails x = none) ∧
    (∃ (h : Hdr) (sigOk : Bool) (s : State), s.accepts Op.fwUpdate false = true ∧ s.bulk.image = none) ∧
    (∃ (h : Hdr) (sigOk : Bool) (x : FwImage) (b : Xfer) (cause : Nat) (s : State), s.accepts Op.fwUpdate false = true ∧ s.bulk.image = some b ∧ x = fwImageOf sigOk (b.buf.take (b.total.getD 0)) ∧ s.imageFails x = some cause) ∧
    (∃ (h : Hdr) (s : State), s.accepts Op.fwUpdate false = true ∧ s.bulk.xfer = none ∧ s.bulk.image = none ∧ s.sec.upd = 2) ∧
    (∃ (n : Nat) (s : State), s.up = true ∧ (s.sec.upd = 3 ∨ s.sec.upd = 4)) ∧
    (∃ (n : Nat) (s : State), s.up = true ∧ (s.sec.upd = 3 ∨ s.sec.upd = 4)) :=
  ⟨⟨hd, 2048, dev 3, by decide +kernel⟩,
   ⟨hd, true, _, fwXf, { dev 3 with bulk := { (dev 3).bulk with image := some fwXf } }, by decide +kernel, rfl, (congrArg _ fw_take).symm, fw_verifies _ rfl rfl⟩,
   ⟨hd, true, dev 3, by decide +kernel⟩,
   ⟨hd, false, _, xf 5, 1, { dev 3 with bulk := { (dev 3).bulk with image := some (xf 5) } }, by decide +kernel, rfl, rfl, by decide +kernel⟩,
   ⟨hd, { dev 3 with sec := { (dev 3).sec with upd := 2 } }, by decide +kernel⟩,
   ⟨5, { dev 3 with sec := { (dev 3).sec with upd := 3 } }, by decide +kernel⟩,
   ⟨5, { dev 3 with sec := { (dev 3).sec with upd := 4 } }, by decide +kernel⟩⟩

/-- The hypotheses of Attestation are met together. -/
theorem witness_Attestation :
    (∃ (h : Hdr) (nonce : Bytes) (s : State), s.accepts Op.attest false = true ∧ nonce.length = 32) ∧
    (∃ (h : Hdr) (offset : Nat) (s : State), s.accepts Op.attest false = true ∧ s.sec.quote ≠ [] ∧ offset < 0x1_0000) ∧
    (∃ (h : Hdr) (offset : Nat) (s : State), s.accepts Op.attest false = true ∧ 0x1_0000 ≤ offset) ∧
    (∃ (h : Hdr) (offset : Nat) (s : State), s.accepts Op.attest false = true ∧ s.sec.quote = [] ∧ offset < 0x1_0000) :=
  ⟨⟨hd, List.replicate 32 0, dev 3, by decide +kernel⟩,
   ⟨hd, 0, { dev 3 with sec := { (dev 3).sec with quote := [1] } }, by decide +kernel⟩,
   ⟨hd, 0x1_0000, dev 3, by decide +kernel⟩,
   ⟨hd, 0xFFFF, dev 3, by decide +kernel⟩⟩

/-- The hypotheses of TestAccessPort are met together. -/
theorem witness_TestAccessPort :
    (∃ (n : Nat) (i : TapIns) (s : State), s.tapActs i = true) ∧
    (∃ (n : Nat) (i : TapIns) (s : State), s.tapActs i = false) ∧
    (∃ (i : TapIns) (s : State), s.sec.lock = 2) ∧
    (∃ (n : Nat) (device : BitVec 64) (challenge : BitVec 256) (key : Nat) (sigOk : Bool) (s : State), s.up = true ∧ s.sec.lock ≠ 0) ∧
    (∃ (s : State), s.sec.step < 16) :=
  ⟨⟨5, .extest, dev 1, by decide +kernel⟩,
   ⟨5, .extest, dev 2, by decide +kernel⟩,
   ⟨.sample, { dev 3 with sec := { (dev 3).sec with lock := 2 } }, by decide +kernel⟩,
   ⟨5, 0, 0, 3, true, dev 3, by decide +kernel⟩,
   ⟨{ dev 3 with sec := { (dev 3).sec with step := 15 } }, by decide +kernel⟩⟩

/-- The hypotheses of SdioCard are met together. -/
theorem witness_SdioCard :
    (∃ (n : Nat) (s : State), (s.advance n).sdServes = true ∧ s.sdio.card ≠ .inactive) ∧
    (∃ (n : Nat) (s : State), (s.advance n).sdServes = true ∧ (s.sdio.card = .idle ∨ s.sdio.card = .initialised) ∧ s.mgmt.resetAt + 5_000_000 ≤ max s.now n) ∧
    (∃ (n : Nat) (s : State), (s.advance n).sdServes = true ∧ (s.sdio.card = .initialised ∨ s.sdio.card = .standby)) ∧
    (∃ (n : Nat) (s : State), (s.advance n).sdServes = true ∧ s.sdio.card = .standby) ∧
    (∃ (n : Nat) (s : State), (s.advance n).sdServes = true ∧ s.sdio.card = .selected) ∧
    (∃ (n : Nat) (s : State), (s.advance n).sdServes = true ∧ s.sd18 = true ∧ s.sdio.card = .initialised) ∧
    (∃ (n : Nat) (s : State), (s.advance n).sdServes = true ∧ (s.sdio.card = .standby ∨ s.sdio.card = .selected)) ∧
    (∃ (n : Nat) (s : State), (s.advance n).sdSelected = true ∧ s.sdio.uhs = true) ∧
    (∃ (n : Nat) (v : Byte) (s : State), (s.advance n).sdSelected = true) ∧
    (∃ (n : Nat) (v : Byte) (s : State), (s.advance n).sdFunction 1 = true) ∧
    (∃ (n : Nat) (v : Byte) (s : State), (s.advance n).sdFunction 2 = true) ∧
    (∃ (n : Nat) (s : State), (s.advance n).sdFunction 1 = true) ∧
    (∃ (n : Nat) (s : State), (s.advance n).sdSelected = true) ∧
    (∃ (n : Nat) (inCmd : Bool) (s : State), (s.advance n).sdSelected = true) ∧
    (∃ (n : Nat) (x : Xfer) (s : State), (s.advance n).sdSelected = true ∧ s.bulk.xfer = some x) ∧
    (∃ (n : Nat) (x : Xfer) (s : State), (s.advance n).sdServes = true ∧ s.bulk.xfer = some x ∧ (x.kind = 3 ∨ x.kind = 4)) :=
  ⟨⟨5, dev 3, by decide +kernel⟩,
   ⟨5, sd .idle, by decide +kernel⟩,
   ⟨5, sd .initialised, by decide +kernel⟩,
   ⟨5, sd .standby, by decide +kernel⟩,
   ⟨5, dev 3, by decide +kernel⟩,
   ⟨5, { sd .initialised with power := { (dev 3).power with straps := 0x04 } }, by decide +kernel⟩,
   ⟨5, sd .standby, by decide +kernel⟩,
   ⟨5, { dev 3 with sdio := { (dev 3).sdio with uhs := true } }, by decide +kernel⟩,
   ⟨5, 6, dev 3, by decide +kernel⟩,
   ⟨5, 1, dev 3, by decide +kernel⟩,
   ⟨5, 1, dev 3, by decide +kernel⟩,
   ⟨5, dev 3, by decide +kernel⟩,
   ⟨5, dev 3, by decide +kernel⟩,
   ⟨5, true, dev 3, by decide +kernel⟩,
   ⟨5, xf 2, xfer (xf 2), by decide +kernel⟩,
   ⟨5, xf 3, xfer (xf 3), by decide +kernel⟩⟩

/-- The hypotheses of MailboxAndWindow are met together. -/
theorem witness_MailboxAndWindow :
    (∃ (n : Nat) (d : Bytes) (s : State), (s.advance n).sdFunction 1 = true ∧ 1 ≤ d.length ∧ d.length ≤ 512 ∧ s.sdio.mailbox = none ∧ (s.queue 0).wpart = none ∧ (s.queue 0).fits 0 (mailboxPacket d).items = true) ∧
    (∃ (n : Nat) (d : Bytes) (s : State), (s.advance n).sdFunction 1 = true ∧ 1 ≤ d.length ∧ d.length ≤ 512 ∧ s.sdio.mailbox = none ∧ (s.queue 0).fits 0 (mailboxPacket d).items = false) ∧
    (∃ (n : Nat) (d : Bytes) (p : QPacket) (s : State), (s.advance n).sdFunction 1 = true ∧ 1 ≤ d.length ∧ d.length ≤ 512 ∧ s.sdio.mailbox = some p ∧ s.sdio.mbxNext = none) ∧
    (∃ (n : Nat) (p : QPacket) (s : State), s.sdio.mailbox = some p ∧ s.sdio.mbxNext = none ∧ (s.queue 0).wpart = none ∧ (s.queue 0).fits 0 p.items = true) ∧
    (∃ (n : Nat) (k : Nat) (p : QPacket) (rest : List QPacket) (s : State), (s.advance n).sdFunction 1 = true ∧ 1 ≤ k ∧ k ≤ 512 ∧ (s.queue 1).part = none ∧ selectPacket (s.queue 1).vis = some (p, rest) ∧ p.data.length ≤ k) ∧
    (∃ (n : Nat) (k : Nat) (s : State), (s.advance n).sdFunction 1 = true ∧ 1 ≤ k ∧ k ≤ 512 ∧ (s.queue 1).part = none ∧ (s.queue 1).vis = []) :=
  ⟨⟨5, [0, 0, 8, 0, 7, 0, 0, 0], dev 3, by decide +kernel⟩,
   ⟨5, zeros 512, (dev 3).setQueue 0 { vis := List.replicate 25 (qp 8) }, by decide +kernel⟩,
   ⟨5, [0, 0, 8, 0, 7, 0, 0, 0], qp 8, { dev 3 with sdio := { (dev 3).sdio with mailbox := some (qp 8) } }, by decide +kernel⟩,
   ⟨5, qp 8, { dev 3 with sdio := { (dev 3).sdio with mailbox := some (qp 8) } }, by decide +kernel⟩,
   ⟨5, 512, qp 8, [], (dev 3).setQueue 1 { vis := [qp 8] }, by decide +kernel⟩,
   ⟨5, 1, dev 3, by decide +kernel⟩⟩

/-- The hypotheses of FunctionTwoBlocks are met together. -/
theorem witness_FunctionTwoBlocks :
    (∃ (n : Nat) (d : Bytes) (x : Xfer) (s : State), (s.advance n).sdFunction 2 = true ∧ d.length = 2048 ∧ s.bulk.xfer = some x ∧ (x.kind = 1 ∨ x.kind = 3 ∨ x.kind = 5) ∧ x.full = false ∧ (x.kind = 1 ∨ (x.take d).full = false)) ∧
    (∃ (n : Nat) (a : Nat) (d : Bytes) (x : Xfer) (b : Bundle) (s : State), (s.advance n).sdFunction 2 = true ∧ d.length = 2048 ∧ s.bulk.xfer = some x ∧ x.kind = 2 ∧ x.full = false ∧ b = s.bundle x.handle ∧ b.state = 1 ∧ b.verified.contains x.index = false ∧ a = b.addr (shardBytes * x.index) + 2048 * x.taken ∧ 2048 * x.taken + 2048 ≤ b.shardLen x.index) ∧
    (∃ (n : Nat) (d : Bytes) (x : Xfer) (s : State), (s.advance n).sdFunction 2 = true ∧ d.length = 2048 ∧ s.bulk.xfer = some x ∧ x.kind = 3 ∧ x.full = false ∧ (x.take d).full = true) ∧
    (∃ (n : Nat) (d : Bytes) (x : Xfer) (s : State), (s.advance n).sdFunction 2 = true ∧ d.length = 2048 ∧ s.bulk.xfer = some x ∧ x.kind = 5 ∧ x.full = false ∧ (x.take d).full = true) ∧
    (∃ (n : Nat) (d : Bytes) (s : State), (s.advance n).sdFunction 2 = true ∧ d.length = 2048 ∧ s.bulk.xfer = none) ∧
    (∃ (n : Nat) (d : Bytes) (s : State), (s.advance n).sdFunction 2 = true ∧ d.length = 2048) ∧
    (∃ (n : Nat) (x : Xfer) (s : State), (s.advance n).sdFunction 2 = true ∧ s.bulk.xfer = some x ∧ x.kind = 4 ∧ x.ready = true) :=
  ⟨⟨5, List.replicate 2048 0, { xf 5 with total := some 4096 }, xfer { xf 5 with total := some 4096 }, by decide +kernel⟩,
   ⟨5, _, List.replicate 2048 0, xf 2, { state := 1, shards := 1, bodySize := 2048, units := [0] }, (xfer (xf 2)).setBundle 0 { state := 1, shards := 1, bodySize := 2048, units := [0] }, by decide +kernel, by decide +kernel, rfl, rfl, by decide +kernel, rfl, rfl, by decide +kernel, rfl, by decide +kernel⟩,
   ⟨5, List.replicate 2048 0, xf 3, xfer (xf 3), by decide +kernel⟩,
   ⟨5, List.replicate 2048 0, xf 5, xfer (xf 5), by decide +kernel⟩,
   ⟨5, List.replicate 2048 0, dev 3, by decide +kernel⟩,
   ⟨5, List.replicate 2048 0, dev 3, by decide +kernel⟩,
   ⟨5, { xf 4 with ready := true }, xfer { xf 4 with ready := true }, by decide +kernel⟩⟩

/-- The hypotheses of ShuttleQueues are met together. -/
theorem witness_ShuttleQueues :
    (∃ (n : Nat) (p : QPacket) (s : State), s.sdio.mailbox = some p ∧ s.sdio.mbxNext = none ∧ (s.queue 0).wpart = none ∧ (s.queue 0).fits 0 p.items = true) ∧
    (∃ (n : Nat) (q : Nat) (p : QPacket) (rest : List QPacket) (s : State), q ≠ 0 ∧ q ≠ 2 ∧ (s.queue q).wait = p :: rest ∧ (s.queue q).wpart = none ∧ (s.queue q).fits q p.items = true) ∧
    (∃ (n : Nat) (cls : Nat) (s : State), s.outsideClass = some cls ∧ (s.queue 2).fits 2 (latchEntry cls (s.latch cls)).items = true) ∧
    (∃ (n : Nat) (p : QPacket) (rest : List QPacket) (s : State), s.sdio.notes = p :: rest ∧ (s.queue 1).wait = [] ∧ (s.queue 1).wpart = none ∧ (s.queue 1).fits 1 p.items = true) ∧
    (∃ (h : Hdr) (q : Nat) (s : State), s.accepts Op.queueFlush false = true ∧ q ≤ 50 ∧ (q ≤ 1 ∨ q = 2 ∧ s.offService = true ∨ 3 ≤ q ∧ s.stageOn (q - 3) = false)) ∧
    (∃ (h : Hdr) (s : State), s.accepts Op.queueFlush false = true ∧ s.offService = false) ∧
    (∃ (n : Nat) (h : Hdr) (s : State), (s.queue 1).flush = true ∧ (s.queue 1).part = none ∧ (s.queue 1).wait = [] ∧ (s.queue 1).wpart = none ∧ s.sdio.notes = [] ∧ (s.queue 1).flushReplies = [h]) ∧
    (∃ (h : Hdr) (q : Nat) (p : QPacket) (d : Nat) (s : State), s.accepts Op.queueDrop false = true ∧ q ≤ 50 ∧ s.offService = true ∧ (s.queue q).part = some (p, d)) ∧
    (∃ (h : Hdr) (q : Nat) (k : Nat) (p : QPacket) (s : State), s.accepts Op.queueDrop false = true ∧ q ≤ 50 ∧ s.offService = true ∧ (s.queue q).wpart = some (p, k)) ∧
    (∃ (h : Hdr) (q : Nat) (w : Nat) (s : State), s.accepts Op.queueDrop false = true ∧ q ≤ 50 ∧ s.offService = true ∧ (∀ x ∈ (s.queue q).wpart, x.1.writer ≠ w)) ∧
    (∃ (h : Hdr) (q : Nat) (side : Bool) (w : Nat) (s : State), s.accepts Op.queueDrop false = true ∧ q ≤ 50 ∧ s.offService = false) :=
  ⟨⟨5, qp 8, { dev 3 with sdio := { (dev 3).sdio with mailbox := some (qp 8) } }, by decide +kernel⟩,
   ⟨5, 1, qp 8, [], (dev 3).setQueue 1 { wait := [qp 8] }, by decide +kernel⟩,
   ⟨5, 31, (dev 3).setLatch 31 { held := true, outside := true, count := 1 }, by decide +kernel⟩,
   ⟨5, qp 8, [], { dev 3 with sdio := { (dev 3).sdio with notes := [qp 8] } }, by decide +kernel⟩,
   ⟨hd, 50, dev 3, by decide +kernel⟩,
   ⟨hd, dev 2, by decide +kernel⟩,
   ⟨5, hd, (dev 3).setQueue 1 { flush := true, flushReplies := [hd] }, by decide +kernel⟩,
   ⟨hd, 0, qp 80, 64, (dev 3).setQueue 0 { part := some (qp 80, 64) }, by decide +kernel⟩,
   ⟨hd, 50, 3, qp 128, (dev 3).setQueue 50 { wpart := some (qp 128, 3) }, by decide +kernel⟩,
   ⟨hd, 50, 1, dev 3, by decide +kernel⟩,
   ⟨hd, 1, true, 0, dev 2, by decide +kernel⟩⟩

/-- The hypotheses of Dispatcher are met together. -/
theorem witness_Dispatcher :
    (∃ (n : Nat) (p : QPacket) (rest : List QPacket) (s : State), s.up = true ∧ s.mgmt.fwStarted = false ∧ s.mgmt.held = [] ∧ selectPacket (s.queue 0).vis = some (p, rest) ∧ (bitOf 3 (numAt 1 1 p.data) = false ∨ s.inHand = false) ∧ checkPacket p.data = none ∧ s.goesFast p.data = true) ∧
    (∃ (n : Nat) (k : Nat) (p : QPacket) (rest : List QPacket) (s : State), s.up = true ∧ s.mgmt.devState ≠ 0 ∧ s.mgmt.held = [] ∧ selectPacket (s.queue 0).vis = some (p, rest) ∧ (bitOf 3 (numAt 1 1 p.data) = false ∨ s.inHand = false) ∧ checkPacket p.data = none ∧ s.goesFast p.data = false ∧ s.freeCore = some k) ∧
    (∃ (n : Nat) (p : QPacket) (rest : List QPacket) (s : State), s.up = true ∧ s.mgmt.devState ≠ 0 ∧ s.mgmt.held = [] ∧ selectPacket (s.queue 0).vis = some (p, rest) ∧ bitOf 3 (numAt 1 1 p.data) = true ∧ s.inHand = true) ∧
    (∃ (n : Nat) (k : Nat) (c : CmdPacket) (rest : List CmdPacket) (ecc : WordEcc) (s : State), s.up = true ∧ s.mgmt.devState ≠ 0 ∧ s.mgmt.held = c :: rest ∧ s.freeCore = some k ∧ s.goesFast c.data = false ∧ (bitOf 3 (numAt 1 1 c.data) = false ∨ s.inHand = false) ∧ checkPacket c.data = none) :=
  ⟨⟨5, cmdPkt 0, [], State.reset.setQueue 0 { vis := [cmdPkt 0] }, by decide +kernel⟩,
   ⟨5, 1, cmdPkt 0x10, [], (dev 3).setQueue 0 { vis := [cmdPkt 0x10] }, by decide +kernel⟩,
   ⟨5, { prio := 0, tag := 7, writer := 0, data := [0x10, 8, 8, 0, 7, 0, 0, 0] }, [], { (dev 3).setQueue 0 { vis := [{ prio := 0, tag := 7, writer := 0, data := [0x10, 8, 8, 0, 7, 0, 0, 0] }] } with mgmt := { (dev 3).mgmt with busy := [(1, some { prio := 0, tag := 7, data := (cmdPkt 0x10).data })] } }, by decide +kernel⟩,
   ⟨5, 1, { prio := 0, tag := 7, data := (cmdPkt 0x10).data }, [], .clean, { dev 3 with mgmt := { (dev 3).mgmt with held := [{ prio := 0, tag := 7, data := (cmdPkt 0x10).data }] } }, by decide +kernel⟩⟩

/-- The hypotheses of ErrorLatch are met together. -/
theorem witness_ErrorLatch :
    (∃ (r : ErrReport) (s : State), (s.latch r.cls).held = false) ∧
    (∃ (r : ErrReport) (s : State), (s.latch r.cls).held = true) :=
  ⟨⟨{ cls := 31, body := [] }, dev 3, by decide +kernel⟩,
   ⟨{ cls := 0, body := [] }, (dev 3).setLatch 0 { held := true, count := 0xFFFF }, by decide +kernel⟩⟩

/-- The hypotheses of PopRecoveryTakeover are met together. -/
theorem witness_PopRecoveryTakeover :
    (∃ (h : Hdr) (p : QPacket) (rest : List QPacket) (s : State), s.accepts Op.regWrite false = true ∧ selectPacket (s.queue 2).vis = some (p, rest)) ∧
    (∃ (h : Hdr) (s : State), s.accepts Op.regWrite false = true ∧ (s.queue 2).vis = []) ∧
    (∃ (h : Hdr) (s : State), (s.mgmt.devState = 1 ∨ s.mgmt.devState = 2 ∨ s.mgmt.devState = 3)) ∧
    (∃ (h : Hdr) (s : State), s.mgmt.devState = 4) ∧
    (∃ (h : Hdr) (s : State), s.accepts Op.regWrite false = true ∧ s.mgmt.devState = 5) ∧
    (∃ (n : Nat) (core : Nat) (cause : Nat) (s : State), s.up = true ∧ s.mgmt.devState ≠ 5 ∧ 1 ≤ core ∧ core ≤ 3 ∧ s.mgmt.cores.getLsbD (core - 1) = true ∧ s.mgmt.standby = true ∧ s.coreCmd 4 = none) ∧
    (∃ (n : Nat) (core : Nat) (cause : Nat) (s : State), s.up = true ∧ s.mgmt.devState ≠ 5 ∧ 1 ≤ core ∧ core ≤ 4 ∧ s.mgmt.cores = 1#4 <<< (core - 1) ∧ s.mgmt.standby = false) :=
  ⟨⟨hd, qp 8, [], (dev 3).setQueue 2 { vis := [qp 8] }, by decide +kernel⟩,
   ⟨hd, dev 3, by decide +kernel⟩,
   ⟨hd, dev 1, by decide +kernel⟩,
   ⟨hd, dev 4, by decide +kernel⟩,
   ⟨hd, dev 5, by decide +kernel⟩,
   ⟨5, 3, 1, dev 3, by decide +kernel⟩,
   ⟨5, 4, 1, { dev 3 with mgmt := { (dev 3).mgmt with cores := 8, standby := false } }, by decide +kernel⟩⟩

/-- The hypotheses of IllegalTransition are met together. -/
theorem witness_IllegalTransition :
    (∃ (n : Nat) (s : State), s.up = true ∧ s.tb.encEn = true ∧ s.tb.los = 0) :=
  ⟨5, enc 1, by decide +kernel⟩

/-- The hypotheses of WebPosition are met together. -/
theorem witness_WebPosition :
    (∃ (n : Nat) (a : Bool) (b : Bool) (s : State), s.up = true ∧ s.tb.encEn = true ∧ s.tb.los = 0 ∧ (s.tb.encA = a ↔ ¬ s.tb.encB = b) ∧ (aLeads s.tb.encA s.tb.encB a b != s.tb.dirInv) = true ∧ s.tb.acc + s.tb.den < s.tb.num) ∧
    (∃ (n : Nat) (a : Bool) (b : Bool) (s : State), s.up = true ∧ s.tb.encEn = true ∧ s.tb.los = 0 ∧ (s.tb.encA = a ↔ ¬ s.tb.encB = b) ∧ (aLeads s.tb.encA s.tb.encB a b != s.tb.dirInv) = true ∧ s.tb.num ≤ s.tb.acc + s.tb.den ∧ s.tb.wp + 1 ≤ s.tb.hwm) ∧
    (∃ (n : Nat) (a : Bool) (b : Bool) (s : State), s.up = true ∧ s.tb.encEn = true ∧ s.tb.los = 0 ∧ (s.tb.encA = a ↔ ¬ s.tb.encB = b) ∧ (aLeads s.tb.encA s.tb.encB a b != s.tb.dirInv) = true ∧ s.tb.num ≤ s.tb.acc + s.tb.den ∧ (s.tb.hwm : Int) < s.tb.wp + 1) ∧
    (∃ (n : Nat) (a : Bool) (b : Bool) (s : State), s.up = true ∧ s.tb.encEn = true ∧ s.tb.los = 0 ∧ (s.tb.encA = a ↔ ¬ s.tb.encB = b) ∧ (aLeads s.tb.encA s.tb.encB a b != s.tb.dirInv) = false) ∧
    (∃ (n : Nat) (a : Bool) (b : Bool) (s : State), s.up = true ∧ s.tb.los ≠ 0) :=
  ⟨⟨5, true, false, enc 2, by decide +kernel⟩,
   ⟨5, true, false, { enc 1 with tb := { (enc 1).tb with hwm := 1 } }, by decide +kernel⟩,
   ⟨5, true, false, enc 1, by decide +kernel⟩,
   ⟨5, false, true, enc 1, by decide +kernel⟩,
   ⟨5, true, true, { enc 1 with tb := { (enc 1).tb with los := 1 } }, by decide +kernel⟩⟩

/-- The hypotheses of CompareUnitFires are met together. -/
theorem witness_CompareUnitFires :
    (∃ (st : Nat) (k : Nat) (m : List Nat × State), (m.2.unit k).armed = true ∧ (m.2.unit k).target = st ∧ (m.2.unit k).action ≤ 2 ∨ (m.2.unit k).action = 5) ∧
    (∃ (st : Nat) (k : Nat) (m : List Nat × State), ((m.2.unit k).armed = false ∨ (m.2.unit k).target ≠ st)) :=
  ⟨⟨9, 63, ([], (dev 3).setUnit 63 { target := 9, claimed := true, armed := true }), by decide +kernel⟩,
   ⟨9, 0, ([], dev 3), by decide +kernel⟩⟩

/-- The hypotheses of EncoderAndPins are met together. -/
theorem witness_EncoderAndPins :
    (∃ (n : Nat) (pairs : BitVec 3) (s : State), s.up = true ∧ s.tb.los = 0 ∧ pairs ≠ 0) ∧
    (∃ (n : Nat) (pairs : BitVec 3) (s : State), s.up = true ∧ s.tb.los ≠ 0) ∧
    (∃ (n : Nat) (s : State), s.up = true) ∧
    (∃ (n : Nat) (s : State), s.up = true ∧ s.tb.stall = false ∧ max s.mgmt.resetAt s.tb.stallBase + 1_000_000 ≤ max s.now n) ∧
    (∃ (n : Nat) (s : State), s.up = true ∧ s.tb.encEn = true ∧ s.tb.los = 0 ∧ s.tb.sheetSrc = 2) ∧
    (∃ (n : Nat) (k : Nat) (s : State), s.alive = true ∧ (s.pin k).role = 2 ∧ (s.pin k).level = false) ∧
    (∃ (n : Nat) (k : Nat) (s : State), s.alive = true ∧ (s.pin k).role = 2 ∧ (s.pin k).level = true) ∧
    (∃ (n : Nat) (k : Nat) (e : Nat) (s : State), s.alive = true ∧ (s.pin k).pulse = some e ∧ e ≤ max s.now n) :=
  ⟨⟨5, 4, dev 3, by decide +kernel⟩,
   ⟨5, 1, { dev 3 with tb := { (dev 3).tb with los := 1 } }, by decide +kernel⟩,
   ⟨5, dev 3, by decide +kernel⟩,
   ⟨1_000_000, dev 3, by decide +kernel⟩,
   ⟨5, { enc 1 with tb := { (enc 1).tb with sheetSrc := 2 } }, by decide +kernel⟩,
   ⟨5, 3, (dev 3).setPin 3 { role := 2 }, by decide +kernel⟩,
   ⟨5, 0, (dev 3).setPin 0 { role := 2, level := true }, by decide +kernel⟩,
   ⟨5, 0, 9_000_000, (dev 3).setPin 0 { role := 1, pulse := some 9_000_000 }, by decide +kernel⟩⟩

/-- The hypotheses of TimeBaseConfig are met together. -/
theorem witness_TimeBaseConfig :
    (∃ (h : Hdr) (p : TbConfigParams) (s : State), s.accepts Op.tbConfig false = true ∧ 1 ≤ p.den ∧ p.den ≤ p.num ∧ p.num ≤ 65535 ∧ p.filt ≤ 15 ∧ p.sheetSrc ≤ 3 ∧ p.sheetPin ≤ 3 ∧ (p.sheetSrc = 1 → 1 ≤ p.rep) ∧ tbConfigCheck p s = none) ∧
    (∃ (h : Hdr) (p : TbConfigParams) (k : Nat) (x : Template) (rest : List (Nat × Template)) (s : State), s.accepts Op.tbConfig false = true ∧ tbConfigParams p = none ∧ s.admitted = (k, x) :: rest) :=
  ⟨⟨hd, tbp, dev 3, by decide +kernel⟩,
   ⟨hd, tbp, 4, tmpl, [], (dev 3).setTemplate 4 (some tmpl), by decide +kernel⟩⟩

/-- The hypotheses of ClaimTargets are met together. -/
theorem witness_ClaimTargets :
    (∃ (h : Hdr) (u : Option Nat) (k : Nat) (action : Nat) (arg : Nat) (target : Nat) (s : State), s.accepts Op.tbClaim false = true ∧ (u = some k ∧ k ≤ 63 ∧ (s.unit k).claimed = false ∨ u = none ∧ s.freeUnit = some k) ∧ (action = 0 ∨ action = 2 ∨ action = 5 ∨ action = 1 ∧ arg ≤ 3 ∧ ((s.pin arg).role = 0 ∨ (s.pin arg).role = 1)) ∧ arg ≤ 15 ∧ target ≤ s.tb.hwm + 1) ∧
    (∃ (h : Hdr) (u : Option Nat) (k : Nat) (action : Nat) (arg : Nat) (period : Nat) (target : Nat) (s : State), s.accepts Op.tbClaim false = true ∧ (u = some k ∧ k ≤ 63 ∧ (s.unit k).claimed = false ∨ u = none ∧ s.freeUnit = some k) ∧ (action = 0 ∨ action = 2 ∨ action = 5 ∨ action = 1 ∧ arg ≤ 3 ∧ ((s.pin arg).role = 0 ∨ (s.pin arg).role = 1)) ∧ arg ≤ 15 ∧ period ≠ 0 ∧ target ≤ s.tb.hwm + 1) :=
  ⟨⟨hd, none, 0, 1, 3, 1, dev 3, by decide +kernel⟩,
   ⟨hd, some 63, 63, 5, 15, 7, 1, dev 3, by decide +kernel⟩⟩

/-- The hypotheses of ClaimAndRelease are met together. -/
theorem witness_ClaimAndRelease :
    (∃ (h : Hdr) (k : Nat) (action : Nat) (arg : Nat) (period : Nat) (target : Nat) (s : State), s.accepts Op.tbClaim false = true ∧ k ≤ 63 ∧ (action = 0 ∨ action = 2 ∨ action = 5) ∧ arg ≤ 15 ∧ (s.unit k).claimed = false ∧ s.tb.hwm + 1 < target) ∧
    (∃ (h : Hdr) (k : Nat) (action : Nat) (arg : Nat) (period : Nat) (target : Nat) (s : State), s.accepts Op.tbClaim false = true ∧ (action = 0 ∨ action = 2 ∨ action = 5) ∧ arg ≤ 15 ∧ s.freeUnit = some k ∧ s.tb.hwm + 1 < target) ∧
    (∃ (h : Hdr) (k : Nat) (action : Nat) (arg : Nat) (period : Nat) (target : Nat) (s : State), s.accepts Op.tbClaim false = true ∧ k ≤ 63 ∧ (action = 0 ∨ action = 2 ∨ action = 5) ∧ arg ≤ 15 ∧ (s.unit k).claimed = true) ∧
    (∃ (h : Hdr) (k : Nat) (s : State), s.accepts Op.tbClaim false = true ∧ k ≤ 63 ∧ (s.unit k).claimed = true ∧ (s.unit k).holder = Op.tbClaim ∧ (s.unit k).action ≠ 1) ∧
    (∃ (h : Hdr) (k : Nat) (s : State), s.accepts Op.tbClaim false = true ∧ k ≤ 63 ∧ (s.unit k).claimed = true ∧ (s.unit k).holder = Op.tbClaim ∧ (s.unit k).action = 1 ∧ (s.pin (s.unit k).arg).users = 1 ∧ (s.pin (s.unit k).arg).pulse = none) ∧
    (∃ (h : Hdr) (k : Nat) (arg : Nat) (period : Nat) (target : Nat) (s : State), s.accepts Op.tbClaim false = true ∧ k ≤ 63 ∧ arg ≤ 3 ∧ (s.unit k).claimed = false ∧ ((s.pin arg).role = 0 ∨ (s.pin arg).role = 1) ∧ s.tb.hwm + 1 < target) ∧
    (∃ (h : Hdr) (k : Nat) (arg : Nat) (period : Nat) (target : Nat) (s : State), s.accepts Op.tbClaim false = true ∧ k ≤ 63 ∧ arg ≤ 3 ∧ (s.unit k).claimed = false ∧ (s.pin arg).role ≠ 0 ∧ (s.pin arg).role ≠ 1) ∧
    (∃ (h : Hdr) (k : Nat) (n : Nat) (s : State), s.accepts Op.tbClaim false = true ∧ k ≤ 63 ∧ (s.unit k).claimed = true ∧ (s.unit k).holder = Op.tbClaim ∧ (s.unit k).action = 1 ∧ (s.pin (s.unit k).arg).users = n + 1) :=
  ⟨⟨hd, 63, 5, 15, 0, 2, dev 3, by decide +kernel⟩,
   ⟨hd, 0, 0, 0, 0, 2, dev 3, by decide +kernel⟩,
   ⟨hd, 0, 2, 15, 0, 2, (dev 3).setUnit 0 { claimed := true, holder := 0x50, action := 3 }, by decide +kernel⟩,
   ⟨hd, 63, (dev 3).setUnit 63 { claimed := true, holder := Op.tbClaim, action := 5 }, by decide +kernel⟩,
   ⟨hd, 0, ((dev 3).setUnit 0 { claimed := true, holder := Op.tbClaim, action := 1, arg := 3 }).setPin 3 { role := 1, users := 1 }, by decide +kernel⟩,
   ⟨hd, 63, 3, 0, 2, dev 3, by decide +kernel⟩,
   ⟨hd, 0, 0, 0, 2, (dev 3).setPin 0 { role := 2, holder := Op.hcConfig }, by decide +kernel⟩,
   ⟨hd, 0, 1, ((dev 3).setUnit 0 { claimed := true, holder := Op.tbClaim, action := 1, arg := 3 }).setPin 3 { role := 1, users := 2 }, by decide +kernel⟩⟩

/-- The hypotheses of PicotPort are met together. -/
theorem witness_PicotPort :
    (∃ (h : Hdr) (m : BitVec 16) (origin : Nat) (k : Nat) (s : State), s.accepts Op.pkConfig false = true ∧ s.picotRole ≠ 0 ∧ s.pk.en = false ∧ s.freeUnit = some k ∧ s.tb.hwm + 1 < origin ∧ s.tb.stall = false) ∧
    (∃ (h : Hdr) (m : BitVec 16) (origin : Nat) (k : Nat) (s : State), s.accepts Op.pkConfig false = true ∧ s.picotRole ≠ 0 ∧ s.pk.en = false ∧ s.freeUnit = some k ∧ origin ≤ s.tb.hwm + 1) ∧
    (∃ (h : Hdr) (s : State), s.accepts Op.pkConfig false = true ∧ s.picotRole ≠ 0 ∧ s.pk.en = true ∧ s.pk.frame = none ∧ (s.unit s.pk.unit).action = 4) ∧
    (∃ (h : Hdr) (x : PkFrame) (s : State), s.accepts Op.pkConfig false = true ∧ s.picotRole ≠ 0 ∧ s.pk.en = true ∧ s.pk.frame = some x) ∧
    (∃ (n : Nat) (b : Bytes) (x : PkFrame) (s : State), s.alive = true ∧ s.pk.frame = some x ∧ x.slot = 0 ∧ (s.advance n).slotDue x = true ∧ s.picotRole = 1 ∧ b.length = 8) ∧
    (∃ (n : Nat) (b : Bytes) (x : PkFrame) (s : State), s.alive = true ∧ s.pk.frame = some x ∧ x.slot = 1 ∧ (s.advance n).slotDue x = true) ∧
    (∃ (n : Nat) (b : Bytes) (x : PkFrame) (s : State), s.alive = true ∧ s.pk.frame = some x ∧ x.slot = 3 ∧ (s.advance n).slotDue x = true ∧ s.pk.stopping = false ∧ s.pk.deferred = none ∧ s.tb.stall = false) ∧
    (∃ (n : Nat) (e : Nat) (x : PkFrame) (s : State), s.alive = true ∧ s.pk.frame = some x ∧ x.burst = some e ∧ e ≤ max s.now n) :=
  ⟨⟨hd, 0xFFFF, 2, 0, dev 3, by decide +kernel⟩,
   ⟨hd, 0xFFFF, 1, 0, dev 3, by decide +kernel⟩,
   ⟨hd, (pkOn none), by decide +kernel⟩,
   ⟨hd, pkf 0, pkOn (some (pkf 0)), by decide +kernel⟩,
   ⟨30_000_000, zeros 8, pkf 0, pkOn (some (pkf 0)), by decide +kernel⟩,
   ⟨30_000_000, [], pkf 1, pkOn (some (pkf 1)), by decide +kernel⟩,
   ⟨30_000_000, [], pkf 3, pkOn (some (pkf 3)), by decide +kernel⟩,
   ⟨30_000_000, 20_000_000, { pkf 2 with burst := some 20_000_000 }, pkOn (some { pkf 2 with burst := some 20_000_000 }), by decide +kernel⟩⟩

/-- The hypotheses of HouseConfig are met together. -/
theorem witness_HouseConfig :
    (∃ (h : Hdr) (p : HcEnableParams) (s : State), s.accepts Op.hcConfig false = true ∧ p.seq ≤ 15 ∧ (∀ x ∈ p.steps, x.ch ≤ 31 ∧ x.lo ≤ 4095 ∧ x.hi ≤ 4095) ∧ hcEnableCheck p s = none) ∧
    (∃ (h : Hdr) (q : Nat) (s : State), s.accepts Op.hcConfig false = true ∧ q ≤ 15 ∧ (s.hseq q).en = true ∧ s.seqConverting q = false) ∧
    (∃ (h : Hdr) (q : Nat) (s : State), s.accepts Op.hcConfig false = true ∧ q ≤ 15 ∧ (s.hseq q).en = true ∧ s.seqConverting q = true) ∧
    (∃ (h : Hdr) (lp : Bool) (owTh : Nat) (s : State), s.accepts Op.hcConfig false = true ∧ 1 ≤ owTh ∧ owTh ≤ 2047) :=
  ⟨⟨hd, { seq := 15, thread := true, pin := 3, edge := 3, delay := 0, steps := [{ ch := 27, opt := opt0, winEn := true, lo := 0, hi := 4095 }] }, freeHc, by decide +kernel⟩,
   ⟨hd, 15, freeHc.setHseq 15 { en := true }, by decide +kernel⟩,
   ⟨hd, 0, (hcOn (.step 0 0)).setHseq 0 { en := true, steps := [0], phase := .running 0 }, by decide +kernel⟩,
   ⟨hd, true, 2047, dev 3, by decide +kernel⟩⟩

/-- The hypotheses of HouseConverter are met together. -/
theorem witness_HouseConverter :
    (∃ (h : Hdr) (s : State), s.accepts Op.hcRead false = true) ∧
    (∃ (h : Hdr) (s : State), s.accepts Op.regRead false = true) ∧
    (∃ (h : Hdr) (ch : Nat) (opt : HcOpt) (s : State), s.accepts Op.hcRead false = true ∧ ch ≤ 31 ∧ hcReadCheck ch opt s = none ∧ s.trim.cal = none ∧ s.hc.conv = none ∧ s.hc.aborted = [] ∧ s.hc.urgents = [] ∧ s.hc.reads = [] ∧ s.runningSeq = none ∧ s.readySeq = none ∧ (∀ w, (s.advance h.t).checkWaits = some w → max s.now h.t < w + 1_000_000)) ∧
    (∃ (h : Hdr) (ch : Nat) (q : Nat) (i : Nat) (opt : HcOpt) (c : Conv) (s : State), s.accepts Op.hcRead false = true ∧ ch ≤ 31 ∧ hcReadCheck ch opt s = none ∧ s.hc.conv = some c ∧ c.kind = .step q i) ∧
    (∃ (n : Nat) (q : Nat) (u : Nat) (s : State), s.up = true ∧ (s.hseq q).phase = .delay u ∧ u ≤ max s.now n ∧ (s.hc.selfcal.isSome = true ∨ s.trim.cal.isSome = true)) ∧
    (∃ (n : Nat) (q : Nat) (u : Nat) (s : State), s.up = true ∧ q < 16 ∧ (s.hseq q).phase = .delay u ∧ u ≤ max s.now n ∧ s.hc.selfcal = none ∧ s.trim.cal = none ∧ s.hc.conv = none ∧ s.hc.aborted = [] ∧ s.hc.urgents = [] ∧ s.runningSeq = none ∧ s.readySeq = none ∧ (∀ w, (s.advance n).checkWaits = some w → max s.now n < w + 1_000_000)) ∧
    (∃ (n : Nat) (raw : BitVec 12) (lo : BitVec 12) (hi : BitVec 12) (c : Conv) (h : Hdr) (s : State), s.up = true ∧ s.hc.conv = some c ∧ c.kind = .read h ∧ c.opt.ow = 0 ∧ s.hc.aborted = [] ∧ s.hc.urgents = [] ∧ s.hc.reads = [] ∧ s.runningSeq = none ∧ s.readySeq = none ∧ (s.advance n).checkWaits = none) ∧
    (∃ (n : Nat) (q : Nat) (i : Nat) (raw : BitVec 12) (lo : BitVec 12) (hi : BitVec 12) (c : Conv) (s : State), s.up = true ∧ s.hc.conv = some c ∧ c.kind = .step q i ∧ c.opt.ow = 0 ∧ (s.chan c.ch).winEn = false ∧ (s.hseq q).ending = false ∧ (s.hseq q).steps.length = i + 1 ∧ s.hc.aborted = [] ∧ s.hc.urgents = [] ∧ s.hc.reads = [] ∧ (∀ p, p ≠ q → (s.hseq p).phase = .idle) ∧ (s.advance n).checkWaits = none) ∧
    (∃ (n : Nat) (raw : BitVec 12) (lo : BitVec 12) (hi : BitVec 12) (c : Conv) (s : State), s.up = true ∧ s.hc.conv = some c ∧ c.kind = .check ∧ s.hc.aborted = [] ∧ s.hc.urgents = [] ∧ s.hc.reads = [] ∧ s.runningSeq = none ∧ s.readySeq = none) :=
  ⟨⟨hd, dev 3, by decide +kernel⟩,
   ⟨hd, dev 3, by decide +kernel⟩,
   ⟨hd, 27, opt0, freeHc, by decide +kernel⟩,
   ⟨hd, 0, 3, 0, opt0, conv (.step 3 0), (hcOn (.step 3 0)).setHseq 3 { en := true, steps := [0], phase := .running 0 }, by decide +kernel⟩,
   ⟨5, 3, 9_000_000, { freeHc.setHseq 3 { en := true, steps := [0], phase := .delay 9_000_000 } with hc := { freeHc.hc with selfcal := some hd } }, by decide +kernel⟩,
   ⟨5, 15, 10_000_000, freeHc.setHseq 15 { en := true, steps := [0], phase := .delay 10_000_000 }, by decide +kernel⟩,
   ⟨20_000_000, 0xFFF, 0, 0, conv (.read hd), hd, hcOn (.read hd), by decide +kernel⟩,
   ⟨20_000_000, 3, 0, 0x800, 0, 0, conv (.step 3 0), (hcOn (.step 3 0)).setHseq 3 { en := true, steps := [0], phase := .running 0 }, by decide +kernel, rfl, rfl, rfl, by decide +kernel, by decide +kernel, by decide +kernel, rfl, rfl, rfl, fun p hp => hseqIdle p hp, by decide +kernel⟩,
   ⟨20_000_000, 0x800, 0, 0, conv .check, hcOn .check, by decide +kernel⟩⟩

/-- The hypotheses of RegisterAccess are met together. -/
theorem witness_RegisterAccess :
    (∃ (h : Hdr) (addr : BitVec 32) (n : Nat) (s : State), s.accepts Op.regRead (addr.toNat / 2 ^ 16 == 8) = true ∧ regParams addr n = none ∧ s.regGated addr = none) ∧
    (∃ (h : Hdr) (o : Nat) (s : State), s.accepts Op.regRead false = true ∧ o % 4 = 0 ∧ 0x500 ≤ o ∧ o < 4096) ∧
    (∃ (h : Hdr) (s : State), s.accepts Op.regRead false = true) ∧
    (∃ (h : Hdr) (v : BitVec 32) (s : State), s.accepts Op.regWrite false = true) ∧
    (∃ (h : Hdr) (v : BitVec 32) (s : State), s.accepts Op.regWrite false = true) ∧
    (∃ (h : Hdr) (addr : BitVec 32) (vals : List (BitVec 32)) (p : Nat) (s : State), s.accepts Op.regWrite false = true ∧ regParams addr vals.length = none ∧ addr.toNat / 2 ^ 16 = 0x100 + p ∧ s.pillowOn p = false) ∧
    (∃ (h : Hdr) (s : State), s.accepts Op.regRead false = true) ∧
    (∃ (h : Hdr) (s : State), s.accepts Op.regRead false = true) :=
  ⟨⟨hd, 0x0100_0000, 124, dev 3, by decide +kernel⟩,
   ⟨hd, 0x500, dev 3, by decide +kernel⟩,
   ⟨hd, dev 3, by decide +kernel⟩,
   ⟨hd, 0xFFFF_FFFF, dev 3, by decide +kernel⟩,
   ⟨hd, 0xFFFF_FFFF, dev 3, by decide +kernel⟩,
   ⟨hd, 0x012F_0000, [0], 47, { dev 3 with power := { (dev 3).power with on := 0 } }, by decide +kernel⟩,
   ⟨hd, dev 3, by decide +kernel⟩,
   ⟨hd, dev 3, by decide +kernel⟩⟩

/-- The hypotheses of PillowRequests are met together. -/
theorem witness_PillowRequests :
    (∃ (h : Hdr) (p : Nat) (s : State), s.accepts Op.regWrite false = true ∧ s.inService p = true ∧ (s.pillow p).commitRefused = false ∧ (s.tb.sheetSrc ≠ 0 ∨ s.busyPillow p = true)) ∧
    (∃ (h : Hdr) (p : Nat) (s : State), s.accepts Op.regWrite false = true ∧ s.inService p = true ∧ (s.pillow p).commitRefused = true) ∧
    (∃ (h : Hdr) (p : Nat) (l : Nat) (s : State), s.accepts Op.regWrite false = true ∧ s.inService p = true ∧ s.trim.calDone = false) ∧
    (∃ (h : Hdr) (p : Nat) (l : Nat) (s : State), s.accepts Op.regWrite false = true ∧ s.inService p = true ∧ l < 16 ∧ s.trim.calDone = true ∧ (s.bobbin p ((s.pillow p).physOf l)).state = 0 ∧ (s.slot (s.bobbin p ((s.pillow p).physOf l)).slot).state = 3 ∧ (∀ r ∈ (s.pillow p).refresh, r.logical ≠ l)) ∧
    (∃ (h : Hdr) (p : Nat) (l : Nat) (s : State), s.accepts Op.regWrite false = true ∧ s.inService p = true ∧ s.trim.calDone = true ∧ (s.bobbin p ((s.pillow p).physOf l)).state ≠ 0) :=
  ⟨⟨hd, 0, { (dev 3).setPillow 0 { qc := { scale := 0x3F80_0000 }, qdesc := [(0, some { owner := 0, index := 0, bytes := zeros 16, live := [] })] } with tb := { (dev 3).tb with sheetSrc := 1 } }, by decide +kernel⟩,
   ⟨hd, 47, dev 3, by decide +kernel⟩,
   ⟨hd, 0, 15, dev 3, by decide +kernel⟩,
   ⟨hd, 0, 15, ({ ms0 with ms := (dev 3).ms }.setBobbin 0 15 { state := 0, slot := 63 }).setSlot 63 { state := 3 }, by decide +kernel⟩,
   ⟨hd, 0, 15, ms0, by decide +kernel⟩⟩

/-- The hypotheses of Streams are met together. -/
theorem witness_Streams :
    (∃ (h : Hdr) (p : StreamOpenParams) (s : State), s.accepts Op.streamOpen false = true ∧ streamParams p = none ∧ streamOpenCheck p s = none) ∧
    (∃ (h : Hdr) (p : StreamOpenParams) (s : State), s.accepts Op.streamOpen false = true ∧ streamParams p = none ∧ (s.stream p.stream).bound = true) ∧
    (∃ (h : Hdr) (n : Nat) (s : State), s.accepts Op.streamClose false = true ∧ n ≤ 15 ∧ (s.stream n).bound = true ∧ (s.stream n).closing = none ∧ (∀ x ∈ s.admitted, x.2.p.stream ≠ n)) ∧
    (∃ (k : Nat) (n : Nat) (h : Hdr) (s : State), s.up = true ∧ (s.stream n).closing = some h ∧ s.streamBusy n = false) ∧
    (∃ (k : Nat) (n : Nat) (s : State), s.streamBusy n = true) ∧
    (∃ (k : Nat) (p : Nat) (f : Bytes) (s : State), p < 16 ∧ s.portUp p = true ∧ s.lineFrame p f = none) ∧
    (∃ (k : Nat) (p : Nat) (n : Nat) (f : Bytes) (b : Bytes) (s : State), p < 16 ∧ s.portUp p = true ∧ s.lineFrame p f = some (n, b) ∧ (s.stream n).badHeader n b = true) ∧
    (∃ (k : Nat) (p : Nat) (n : Nat) (f : Bytes) (b : Bytes) (s : State), p < 16 ∧ s.portUp p = true ∧ s.lineFrame p f = some (n, b) ∧ (s.stream n).badHeader n b = false ∧ (s.stream n).lineOf (numAt 8 4 b) = (s.stream n).next ∧ numAt 0x0C 4 b = 0 ∧ numAt 0x10 2 b = (s.stream n).pitch ∧ (s.stream n).inProg = [] ∧ (∀ l ∈ (s.stream n).landed, l.1 % max 1 (s.stream n).depth ≠ (s.stream n).next % max 1 (s.stream n).depth) ∧ (s.stream n).base + (s.stream n).depth * (s.stream n).pitch ≤ 0x200_0000 ∧ (s.stream n).depth ≠ 0) ∧
    (∃ (k : Nat) (p : Nat) (n : Nat) (f : Bytes) (b : Bytes) (s : State), p < 16 ∧ s.portUp p = true ∧ s.lineFrame p f = some (n, b) ∧ (s.stream n).badHeader n b = false ∧ (s.stream n).lineOf (numAt 8 4 b) < (s.stream n).next ∧ (s.stream n).secondary = none) :=
  ⟨⟨hd, sop, ((({ dev 3 with ms := { (dev 3).ms with pages := [] } }).setPort 15 { en := true }).setPort 0 { en := true }), by decide +kernel⟩,
   ⟨hd, { sop with stream := 1 }, strm 0, by decide +kernel⟩,
   ⟨hd, 1, strm 0, by decide +kernel⟩,
   ⟨5, 1, hd, (strm 0).modStream 1 fun x => { x with closing := some hd }, by decide +kernel⟩,
   ⟨5, 1, (strm 0).setJob 16383 (some { jb with pinned := true, stream := 1 }), by decide +kernel⟩,
   ⟨5, 15, zeros 60, strm 0, by decide +kernel⟩,
   ⟨5, 15, 1, udpFrame (zeros 24), zeros 24, strm 0, by decide +kernel⟩,
   ⟨5, 15, 1, udpFrame (linePkt 0), linePkt 0, strm 0, by decide +kernel⟩,
   ⟨5, 15, 1, udpFrame (linePkt 0), linePkt 0, strm 9, by decide +kernel⟩⟩

/-- The hypotheses of PortsAndLinks are met together. -/
theorem witness_PortsAndLinks :
    (∃ (h : Hdr) (p : LinkParams) (s : State), s.accepts Op.portConfig false = true ∧ p.port ≤ 17 ∧ p.fec ≤ 2 ∧ p.vid ≤ 4094 ∧ (s.port p.port).stream = none ∧ (p.fec = 2 → p.fast = true) ∧ p.en = true) ∧
    (∃ (h : Hdr) (p : LinkParams) (s : State), s.accepts Op.portConfig false = true ∧ p.port ≤ 17 ∧ p.fec ≤ 2 ∧ p.vid ≤ 4094 ∧ (s.port p.port).stream = none ∧ (p.fec = 2 → p.fast = true) ∧ p.en = false ∧ (s.port p.port).link = false) ∧
    (∃ (h : Hdr) (p : LinkParams) (n : Nat) (s : State), s.accepts Op.portConfig false = true ∧ p.port ≤ 17 ∧ p.fec ≤ 2 ∧ p.vid ≤ 4094 ∧ (s.port p.port).stream = some n) ∧
    (∃ (h : Hdr) (p : ServiceParams) (s : State), s.accepts Op.portConfig false = true ∧ 16 ≤ p.port ∧ p.port ≤ 17 ∧ p.asid ≤ 1023 ∧ p.intakeSize % 0x1_0000 = 0 ∧ p.intakeBase + p.intakeSize ≤ 2 ^ 48 ∧ 1 ≤ p.maxRecs ∧ p.maxRecs ≤ 32 ∧ s.intakeBad p.asid p.intakeBase p.intakeSize = none) ∧
    (∃ (h : Hdr) (p : GatesParams) (s : State), s.accepts Op.portConfig false = true ∧ 16 ≤ p.port ∧ p.port ≤ 17 ∧ p.first + p.entries.length ≤ 256 ∧ 1 ≤ p.entries.length ∧ p.entries.length ≤ 60 ∧ 1 ≤ p.total ∧ p.total ≤ 256 ∧ p.baseNs < 10 ^ 9 ∧ p.commit = false) ∧
    (∃ (h : Hdr) (p : GatesParams) (es : List GateEntry) (s : State), s.accepts Op.portConfig false = true ∧ 16 ≤ p.port ∧ p.port ≤ 17 ∧ p.first + p.entries.length ≤ 256 ∧ 1 ≤ p.entries.length ∧ p.entries.length ≤ 60 ∧ 1 ≤ p.total ∧ p.total ≤ 256 ∧ p.baseNs < 10 ^ 9 ∧ p.commit = true ∧ es.length = p.total ∧ (∀ i, i < p.total → es[i]? = if p.first ≤ i ∧ i < p.first + p.entries.length then p.entries[i - p.first]? else tget (fun _ => none) (s.service (p.port - 16)).staged i) ∧ (∀ e ∈ es, 100 ≤ e.interval ∧ e.interval ≤ 10_000_000) ∧ (es.map GateEntry.interval).sum ≤ 10 ^ 9) ∧
    (∃ (h : Hdr) (p : GatesParams) (i : Nat) (s : State), s.accepts Op.portConfig false = true ∧ 16 ≤ p.port ∧ p.port ≤ 17 ∧ p.first + p.entries.length ≤ 256 ∧ 1 ≤ p.entries.length ∧ p.entries.length ≤ 60 ∧ p.total ≤ 256 ∧ p.baseNs < 10 ^ 9 ∧ p.commit = true ∧ i < p.total ∧ (i < p.first ∨ p.first + p.entries.length ≤ i) ∧ tget (fun _ => none) (s.service (p.port - 16)).staged i = none) ∧
    (∃ (k : Nat) (p : Nat) (e : LinkEvent) (s : State), s.up = true ∧ e.port = p ∧ p < 18 ∧ (s.port p).link = true ∧ (s.port p).fec ≠ 0) ∧
    (∃ (k : Nat) (p : Nat) (e : LinkEvent) (s : State), s.up = true ∧ e.port = p ∧ p < 18 ∧ (s.port p).en = true ∧ s.domainOn (288 + p) = true ∧ e.hiBer = false ∧ (s.port p).fec ≠ 0) :=
  ⟨⟨hd, lnk 17 true, dev 3, by decide +kernel⟩,
   ⟨hd, lnk 0 false, dev 3, by decide +kernel⟩,
   ⟨hd, lnk 15 true, 1, strm 0, by decide +kernel⟩,
   ⟨hd, srv, dev 3, by decide +kernel⟩,
   ⟨hd, gts 255 false, dev 3, by decide +kernel⟩,
   ⟨hd, gts 0 true, [{ mask := 0xFF, interval := 100 }], dev 3, by decide +kernel, by decide, by decide, by decide, by decide, by decide, by decide, by decide, by decide, rfl, rfl, gtsEntry, by decide, by decide⟩,
   ⟨hd, gts 1 true, 0, dev 3, by decide +kernel⟩,
   ⟨5, 17, { port := 17, corr := 3 }, (dev 3).setPort 17 { en := true, link := true, fec := 1 }, by decide +kernel⟩,
   ⟨5, 0, { port := 0, corr := 3 }, (dev 3).setPort 0 { en := true, fec := 2 }, by decide +kernel⟩⟩

/-- The hypotheses of ServiceFrames are met together. -/
theorem witness_ServiceFrames :
    (∃ (k : Nat) (p : Nat) (f : Bytes) (mac : Bytes) (ip : Bytes) (s : State), 16 ≤ p ∧ p ≤ 17 ∧ s.portUp p = true ∧ arpFor (s.port p).ipv4 (ethOf f).rest = some (mac, ip) ∧ sizeOk f = true ∧ ((ethOf f).dst = (s.port p).mac ∨ (ethOf f).dst = List.replicate 6 0xFF) ∧ (s.port p).tagOk (ethOf f) = true ∧ (ethOf f).etype = 0x0806 ∧ (s.service (p - 16)).sending = true ∧ (s.service (p - 16)).pendingList = none) ∧
    (∃ (k : Nat) (p : Nat) (f : Bytes) (s : State), 16 ≤ p ∧ p ≤ 17 ∧ s.portUp p = true ∧ arpFor (s.port p).ipv4 (ethOf f).rest = none) ∧
    (∃ (k : Nat) (p : Nat) (f : Bytes) (b : Bytes) (x : IpPacket) (s : State), 16 ≤ p ∧ p ≤ 17 ∧ s.portUp p = true ∧ (s.port p).ipFor f = some x ∧ x.dst = (s.port p).ipv4 ∧ x.proto = 1 ∧ echoOf x.body = some b ∧ (((s.port p).icmp.filter fun u => decide (max s.now k < u + 10 ^ 9)).length < 100) ∧ (s.service (p - 16)).sending = true ∧ (s.service (p - 16)).pendingList = none) ∧
    (∃ (k : Nat) (p : Nat) (f : Bytes) (s : State), 16 ≤ p ∧ p ≤ 17 ∧ s.portUp p = true ∧ 100 ≤ ((s.port p).icmp.filter fun u => decide (max s.now k < u + 10 ^ 9)).length) ∧
    (∃ (k : Nat) (p : Nat) (va : Nat) (n : Nat) (f : Bytes) (d : Datagram) (g : Page) (s : State), 16 ≤ p ∧ p ≤ 17 ∧ s.portUp p = true ∧ (s.port p).udpFor f = some d ∧ d.dstPort = (s.service (p - 16)).rasterUdp ∧ rasterOk d.data = true ∧ n = numAt 0x0E 2 d.data ∧ va = (s.service (p - 16)).intakeBase + numAt 8 6 d.data ∧ numAt 8 6 d.data + n ≤ (s.service (p - 16)).intakeSize ∧ va / 65536 = (va + n - 1) / 65536 ∧ s.pageAt (s.service (p - 16)).asid va = some g ∧ g.w = true ∧ g.pin = true ∧ va + n ≤ g.va + pageBytes g.big ∧ s.marchAt (g.physical va) = false ∧ (s.advance k).cycleWrites = [] ∧ bitOf 0 (numAt 3 1 d.data) = false ∧ (s.service (p - 16)).raster = some (BitVec.ofNat 32 (numAt 4 4 d.data))) ∧
    (∃ (k : Nat) (p : Nat) (f : Bytes) (d : Datagram) (s : State), 16 ≤ p ∧ p ≤ 17 ∧ s.portUp p = true ∧ (s.port p).udpFor f = some d ∧ d.dstPort = (s.service (p - 16)).rasterUdp ∧ rasterOk d.data = true ∧ (s.service (p - 16)).intakeSize < numAt 8 6 d.data + numAt 0x0E 2 d.data) :=
  ⟨⟨5, 17, List.replicate 6 0xFF ++ zeros 6 ++ [8, 6, 0, 1, 8, 0, 6, 4, 0, 1] ++ zeros 38, zeros 6, zeros 4, sendOn, by decide +kernel⟩,
   ⟨5, 17, zeros 60, sendOn, by decide +kernel⟩,
   ⟨5, 17, ipFrame 1 echoReq, [0, 0, 0xFF, 0xFF, 0, 0, 0, 0], { src := zeros 4, dst := zeros 4, proto := 1, body := echoReq }, sendOn, by decide +kernel⟩,
   ⟨5, 16, zeros 60, (dev 3).setPort 16 { en := true, link := true, icmp := List.replicate 100 10_000_000 }, by decide +kernel⟩,
   ⟨5, 16, 0, 64, udpFrame (rasterPkt 0), { srcPort := 0, dstPort := 5000, data := rasterPkt 0 }, gbPage, rasterOn, by decide +kernel⟩,
   ⟨5, 16, udpFrame (rasterPkt 0x1_0000), { srcPort := 0, dstPort := 5000, data := rasterPkt 0x1_0000 }, rasterOn, by decide +kernel⟩⟩

/-- The hypotheses of Egress are met together. -/
theorem witness_Egress :
    (∃ (k : Nat) (sp : Nat) (s : State), s.alive = true ∧ (s.service sp).sending = true ∧ (s.service sp).replies = [] ∧ (s.service sp).buf = [] ∧ (s.service sp).pendingList = none) ∧
    (∃ (k : Nat) (sp : Nat) (c : Nat) (s : State), s.portUp (16 + sp) = true ∧ sp < 2 ∧ (s.service sp).sending = false ∧ (s.service sp).pendingList = none ∧ (s.service sp).replies = [] ∧ c ≤ 7 ∧ (s.advance k).mayStart sp c = true ∧ (∀ d, c < d → d ≤ 7 → (s.advance k).mayStart sp d = false)) ∧
    (∃ (k : Nat) (sp : Nat) (s : State), s.portUp (16 + sp) = true ∧ sp < 2 ∧ (s.service sp).pendingList = none ∧ (s.service sp).gates.en = true ∧ (∀ c, c ≤ 7 → ((s.service sp).gates.mask (s.ptpAt (max s.now k))).getLsbD c = false)) :=
  ⟨⟨5, 1, sendOn, by decide +kernel⟩,
   ⟨5, 1, 7, (portOn 17 none).setService 1 { pinClass := 7, maxRecs := 1, buf := [{ bytes := zeros 256, pinned := true }] }, by decide +kernel, by decide, rfl, rfl, rfl, by decide, by decide +kernel, fun d h1 h2 => absurd h2 (by omega)⟩,
   ⟨5, 1, (portOn 17 none).setService 1 { gates := { en := true, entries := [{ mask := 0, interval := 1000 }] } }, by decide +kernel⟩⟩

/-- The hypotheses of PrecisionTime are met together. -/
theorem witness_PrecisionTime :
    (∃ (k : Nat) (p : Nat) (f : Bytes) (s : State), 16 ≤ p ∧ p ≤ 17 ∧ s.portUp p = true ∧ (s.port p).ptpFor f = none) ∧
    (∃ (k : Nat) (p : Nat) (rank : Nat) (f : Bytes) (m : PtpMsg) (gm : BitVec 64) (s : State), 16 ≤ p ∧ p ≤ 17 ∧ s.portUp p = true ∧ (s.port p).ptpFor f = some m ∧ m.domain = (s.service (p - 16)).domain ∧ m.body = .announce gm rank ∧ ((s.ptpPort (p - 16)).master = none ∨ ∃ b, (s.ptpPort (p - 16)).master = some b ∧ (rank < b.2 ∨ rank = b.2 ∧ gm.toNat < b.1.toNat))) ∧
    (∃ (k : Nat) (p : Nat) (o : Int) (f : Bytes) (m : PtpMsg) (s : State), 16 ≤ p ∧ p ≤ 17 ∧ s.portUp p = true ∧ (s.port p).ptpFor f = some m ∧ m.domain = (s.service (p - 16)).domain ∧ m.body = .sync true o ∧ (s.ptpPort (p - 16)).state = 1 ∧ m.source = (s.ptpPort (p - 16)).source) ∧
    (∃ (k : Nat) (p : Nat) (o : Int) (c : Int) (r : Nat) (f : Bytes) (m : PtpMsg) (s : State), 16 ≤ p ∧ p ≤ 17 ∧ s.portUp p = true ∧ (s.port p).ptpFor f = some m ∧ m.domain = (s.service (p - 16)).domain ∧ m.body = .followUp o ∧ (s.ptpPort (p - 16)).state = 1 ∧ m.source = (s.ptpPort (p - 16)).source ∧ s.ptp.sync = some (m.seq, c, r)) ∧
    (∃ (k : Nat) (p : Nat) (t2 : Nat) (t3 : Nat) (r : Int) (t1 : Int) (f : Bytes) (m : PtpMsg) (s : State), 16 ≤ p ∧ p ≤ 17 ∧ s.portUp p = true ∧ (s.port p).ptpFor f = some m ∧ m.domain = (s.service (p - 16)).domain ∧ m.body = .delayResp r (s.ptpIdentity (p - 16)) ∧ (s.ptpPort (p - 16)).state = 1 ∧ m.source = (s.ptpPort (p - 16)).source ∧ s.ptp.req = some (m.seq, t3) ∧ s.ptp.syncPair = some (t1, t2)) ∧
    (∃ (k : Nat) (p : Nat) (q : Nat) (s : State), 16 ≤ p ∧ p ≤ 17 ∧ s.portUp p = true ∧ (s.ptpPort (p - 16)).state = 1 ∧ (∀ u ∈ s.ptp.lastReq, u + s.ptp.reqNs ≤ max s.now k) ∧ q = (s.ptp.reqSeq + 1) % 65536 ∧ (s.service (p - 16)).sending = true ∧ (s.service (p - 16)).pendingList = none) ∧
    (∃ (k : Nat) (s : State), s.up = true ∧ s.ptp.lock = true ∧ s.ptp.lastSync + 3 * s.ptp.interval ≤ max s.now k) ∧
    (∃ (k : Nat) (gm : BitVec 64) (rank : Nat) (s : State), s.up = true ∧ (s.ptpPort 0).state = 1 ∧ (s.ptpPort 1).state = 2 ∧ (s.ptpPort 1).master = some (gm, rank)) :=
  ⟨⟨5, 16, udpTo 318 [], portOn 16 none, by decide +kernel⟩,
   ⟨5, 17, 0, ptpFrame 320 11 0 (zeros 30), ptpMsg (.announce 0 0), 0, portOn 17 none, by decide, by decide, by decide +kernel, by decide +kernel, by decide +kernel, rfl, Or.inl rfl⟩,
   ⟨5, 16, 0, ptpFrame 319 0 2 (zeros 10), ptpMsg (.sync true 0), (portOn 16 none).setPtpPort 0 { state := 1 }, by decide +kernel⟩,
   ⟨5, 16, 0, 0, 9_000_000, ptpFrame 320 8 0 (zeros 10), ptpMsg (.followUp 0), { (portOn 16 none).setPtpPort 0 { state := 1 } with ptp := { (dev 3).ptp with sync := some (3, 0, 9_000_000) } }, by decide +kernel⟩,
   ⟨5, 17, 20, 30, 0, 10, ptpFrame 320 9 0 (zeros 13 ++ [0xFF, 0xFE, 0, 0, 0, 0, 2]), ptpMsg (.delayResp 0 0x000000FFFE0000000002), { (portOn 17 none).setPtpPort 1 { state := 1 } with ptp := { (dev 3).ptp with req := some (3, 30), syncPair := some (10, 20) } }, by decide +kernel⟩,
   ⟨5, 17, 1, sendOn.setPtpPort 1 { state := 1 }, by decide +kernel⟩,
   ⟨30, { dev 3 with ptp := { (dev 3).ptp with lock := true, interval := 10 } }, by decide +kernel⟩,
   ⟨5, 7, 1, ((dev 3).setPtpPort 0 { state := 1 }).setPtpPort 1 { state := 2, master := some (7, 1) }, by decide +kernel⟩⟩

/-- The hypotheses of ThermalMonitor are met together. -/
theorem witness_ThermalMonitor :
    (∃ (k : Nat) (d0 : Int) (d1 : Int) (d2 : Int) (d3 : Int) (h0 : Int) (h1 : Int) (s : State), s.up = true ∧ s.therm.step = 0 ∧ s.dieTh 2 ≤ d0 ∧ d0 < s.dieTh 3 ∧ d1 < s.dieTh 3 ∧ d2 < s.dieTh 3 ∧ d3 < s.dieTh 3 ∧ h0 < s.hbmTh 3 ∧ h1 < s.hbmTh 3) ∧
    (∃ (k : Nat) (d0 : Int) (d1 : Int) (d2 : Int) (d3 : Int) (h0 : Int) (h1 : Int) (s : State), s.up = true ∧ s.therm.step = 0 ∧ s.dieTh 1 ≤ d0 ∧ d0 < s.dieTh 2 ∧ d1 < s.dieTh 2 ∧ d2 < s.dieTh 2 ∧ d3 < s.dieTh 2 ∧ h0 < s.hbmTh 2 ∧ h1 < s.hbmTh 2) ∧
    (∃ (k : Nat) (d0 : Int) (d1 : Int) (d2 : Int) (d3 : Int) (h0 : Int) (h1 : Int) (s : State), s.up = true ∧ s.therm.step = 0 ∧ d0 < s.dieTh 1 ∧ d1 < s.dieTh 1 ∧ d2 < s.dieTh 1 ∧ d3 < s.dieTh 1 ∧ h0 < s.hbmTh 1 ∧ h1 < s.hbmTh 1) ∧
    (∃ (k : Nat) (c : Nat) (s : State), s.therm.cool = some c ∧ c + 10_000_000 ≤ max s.now k ∧ s.therm.step ≠ 0 ∧ s.therm.step ≠ 2) ∧
    (∃ (k : Nat) (c : Nat) (s : State), s.therm.cool = some c ∧ c + 10_000_000 ≤ max s.now k ∧ s.therm.step = 2) :=
  ⟨⟨5, 1049, 0, 0, 0, 0, 0, dev 3, by decide +kernel⟩,
   ⟨5, 949, 0, 0, 0, 0, 0, dev 3, by decide +kernel⟩,
   ⟨5, 0, 0, 0, 0, 0, 0, dev 3, by decide +kernel⟩,
   ⟨20_000_000, 10_000_000, { dev 3 with therm := { (dev 3).therm with step := 3, cool := some 10_000_000 } }, by decide +kernel⟩,
   ⟨20_000_000, 10_000_000, { dev 3 with therm := { (dev 3).therm with step := 2, cool := some 10_000_000 } }, by decide +kernel⟩⟩

/-- The hypotheses of MemoryIntegrity are met together. -/
theorem witness_MemoryIntegrity :
    (∃ (k : Nat) (p : Nat) (a : Nat) (s : State), s.up = true ∧ s.therm.step = 0 ∧ s.scrubBarred .scratchpad p a = false ∧ (∀ e ∈ s.ms.errs, e.1 ≠ a / 8 * 8)) ∧
    (∃ (k : Nat) (p : Nat) (a : Nat) (s : State), s.up = true ∧ s.therm.step = 0 ∧ s.scrubBarred .ground p a = false) ∧
    (∃ (k : Nat) (p : Nat) (a : Nat) (s : State), s.up = true ∧ s.therm.step = 0 ∧ s.mgmt.devState ≠ 5) ∧
    (∃ (k : Nat) (p : Nat) (a : Nat) (m : MemKind) (e : Ecc) (s : State), s.therm.step ≠ 0) ∧
    (∃ (k : Nat) (a : Nat) (s : State), s.up = true ∧ s.therm.step = 0 ∧ a < 0xC_0000_0000) ∧
    (∃ (k : Nat) (st : Nat) (ch : Nat) (ns : Nat) (s : State), s.alive = true) ∧
    (∃ (k : Nat) (st : Nat) (ch : Nat) (ns : Nat) (s : State), s.alive = true) ∧
    (∃ (k : Nat) (h : Hdr) (i : Nat) (s : State), s.alive = true ∧ s.mgmt.devState = 3 ∧ s.ms.march = some (h, 3, 0, i) ∧ i < 4 ∧ s.ms.marchWait = []) ∧
    (∃ (h : Hdr) (target : Nat) (form : Nat) (index : Nat) (s : State), s.accepts Op.marchRun false = true ∧ target ≤ 5 ∧ form ≤ 1 ∧ (target ≤ 1 → index < 48) ∧ (target = 3 → index < 4) ∧ (target = 2 ∨ 4 ≤ target → index = 0) ∧ s.therm.step < 2 ∧ s.marchHolder target index = none ∧ s.mgmt.devState = 2 ∧ s.admitted = []) ∧
    (∃ (h : Hdr) (target : Nat) (form : Nat) (index : Nat) (x : Hdr × Nat × Nat × Nat) (s : State), s.accepts Op.marchRun false = true ∧ target ≤ 5 ∧ form ≤ 1 ∧ (target ≤ 1 → index < 48) ∧ (target = 3 → index < 4) ∧ (target = 2 ∨ 4 ≤ target → index = 0) ∧ s.therm.step < 2 ∧ s.ms.march = some x) ∧
    (∃ (h : Hdr) (target : Nat) (form : Nat) (index : Nat) (s : State), s.accepts Op.marchRun false = true ∧ target ≤ 5 ∧ form ≤ 1 ∧ (target ≤ 1 → index < 48) ∧ (target = 3 → index < 4) ∧ (target = 2 ∨ 4 ≤ target → index = 0) ∧ 2 ≤ s.therm.step) :=
  ⟨⟨5, 47, 0, dev 3, by decide +kernel⟩,
   ⟨5, 0, gbBase, dev 3, by decide +kernel⟩,
   ⟨5, 0, 0, dev 3, by decide +kernel⟩,
   ⟨5, 0, 0, .hbm, .uncorrectable, { dev 3 with therm := { (dev 3).therm with step := 1 } }, by decide +kernel⟩,
   ⟨5, 0xB_FFFF_FFFF, dev 3, by decide +kernel⟩,
   ⟨5, 1, 0, 100, dev 3, by decide +kernel⟩,
   ⟨5, 1, 0, 100, dev 3, by decide +kernel⟩,
   ⟨5, hd, 3, { dev 3 with ms := { (dev 3).ms with march := some (hd, 3, 0, 3) } }, by decide +kernel⟩,
   ⟨hd, 0, 1, 47, dev 2, by decide +kernel⟩,
   ⟨hd, 5, 0, 0, (hd, 3, 0, 3), { dev 3 with ms := { (dev 3).ms with march := some (hd, 3, 0, 3) } }, by decide +kernel⟩,
   ⟨hd, 3, 0, 3, { dev 3 with therm := { (dev 3).therm with step := 2 } }, by decide +kernel⟩⟩

/-- The hypotheses of AddressSpaces are met together. -/
theorem witness_AddressSpaces :
    (∃ (h : Hdr) (asid : Nat) (x : PTable) (s : State), s.accepts Op.mapCreate false = true ∧ asid ≤ 1023 ∧ asid ∉ s.ms.asids ∧ allocTable s.ms.tables 1 asid 0 = some (x :: s.ms.tables) ∧ x ∉ s.ms.tables) ∧
    (∃ (h : Hdr) (asid : Nat) (s : State), s.accepts Op.mapCreate false = true ∧ asid ≤ 1023 ∧ asid ∈ s.ms.asids) ∧
    (∃ (h : Hdr) (asid : Nat) (s : State), s.accepts Op.mapCreate false = true ∧ asid ≤ 1023 ∧ asid ∈ s.ms.asids ∧ (∀ x ∈ s.admitted, x.2.p.asid ≠ asid) ∧ (∀ x ∈ s.liveJobs, x.2.pinned = false → x.2.asid ≠ asid)) ∧
    (∃ (h : Hdr) (p : MapPageParams) (s : State), s.accepts Op.mapPage false = true ∧ p.asid ≤ 1023 ∧ p.op ≤ 2 ∧ p.va < 2 ^ 48 ∧ p.pa < 2 ^ 48 ∧ (p.op = 0 ∨ p.pa = 0) ∧ mapPageCheck p s = none) ∧
    (∃ (n : Nat) (tag : BitVec 32) (q : MapPending) (s : State), Quiet s ∧ s.ms.pendings.find? (fun q => q.h.tag == tag) = some q ∧ q.p.op = 0 ∧ s.lateCheck q = none) ∧
    (∃ (n : Nat) (tag : BitVec 32) (q : MapPending) (s : State), Quiet s ∧ s.ms.pendings.find? (fun q => q.h.tag == tag) = some q ∧ q.p.op = 2 ∧ s.lateCheck q = none) ∧
    (∃ (h : Hdr) (asid : Nat) (op : Nat) (va : Nat) (size : Nat) (s : State), Quiet s ∧ s.accepts Op.mapPin false = true ∧ asid ≤ 1023 ∧ op ≤ 1 ∧ va % 0x1_0000 = 0 ∧ va < 2 ^ 48 ∧ size ≠ 0 ∧ size % 0x1_0000 = 0 ∧ mapPinCheck asid op va size s = none) :=
  ⟨⟨hd, 1, { level := 1, asid := 1, pre := 0, ofs := 0 }, dev 3, by decide +kernel⟩,
   ⟨hd, 0, asid0, by decide +kernel⟩,
   ⟨hd, 0, asid0, by decide +kernel⟩,
   ⟨hd, { mp 0 with va := 2 ^ 48 - 0x1_0000, pa := 0x8_0000_0000 }, asid0, by decide +kernel⟩,
   ⟨5, 7, { h := hd, p := mp 0 }, mapWaits 0, noWork rfl, by decide +kernel⟩,
   ⟨5, 7, { h := hd, p := mp 2 }, mapWaits 2, noWork rfl, by decide +kernel⟩,
   ⟨hd, 0, 0, 0, 0x1_0000, asid0, noWork rfl, by decide +kernel⟩⟩

/-- The hypotheses of StagedBundles are met together. -/
theorem witness_StagedBundles :
    (∃ (h : Hdr) (k : Nat) (s : State), s.accepts Op.shardBegin false = true ∧ k ≤ 15 ∧ s.bulk.xfer = none ∧ s.bulk.bar = none) ∧
    (∃ (h : Hdr) (k : Nat) (i : Nat) (s : State), s.accepts Op.shardBegin false = true ∧ k ≤ 15 ∧ s.bulk.xfer = none ∧ s.bulk.bar = none ∧ i < (s.bundle k).shards ∧ ((s.bundle k).state = 1 ∨ (s.bundle k).state = 3)) ∧
    (∃ (h : Hdr) (k : Nat) (x : Xfer) (s : State), s.accepts Op.shardBegin false = true ∧ k ≤ 15 ∧ s.bulk.xfer = some x) ∧
    (∃ (h : Hdr) (k : Nat) (s : State), s.accepts Op.shardBegin false = true ∧ k ≤ 15 ∧ s.bulk.xfer = none ∧ s.bulk.bar = none ∧ (s.bundle k).state ≠ 0 ∧ s.bundleSlot k = none) ∧
    (∃ (h : Hdr) (k : Nat) (x : Xfer) (s : State), s.accepts Op.shardEnd false = true ∧ k ≤ 15 ∧ s.bulk.xfer = some x ∧ x.kind = 1 ∧ x.handle = k ∧ x.total = none ∧ manifestForm x.buf = true ∧ s.bundleKey (numAt 6 2 x.buf) = true ∧ manifestRefused k x.buf s = none) ∧
    (∃ (h : Hdr) (k : Nat) (x : Xfer) (s : State), s.accepts Op.shardEnd false = true ∧ k ≤ 15 ∧ s.bulk.xfer = some x ∧ x.kind = 1 ∧ x.handle = k) ∧
    (∃ (h : Hdr) (k : Nat) (x : Xfer) (b : Bundle) (s : State), s.accepts Op.shardEnd false = true ∧ k ≤ 15 ∧ s.bulk.xfer = some x ∧ x.kind = 2 ∧ x.handle = k ∧ s.bundle k = b ∧ b.state = 1 ∧ b.stale = [] ∧ b.verified.contains x.index = false ∧ x.buf.length = b.shardLen x.index ∧ digestOf (b.shardHead x.index ++ x.buf) = b.digests.getD x.index 0) ∧
    (∃ (h : Hdr) (k : Nat) (x : Xfer) (b : Bundle) (s : State), s.accepts Op.shardEnd false = true ∧ k ≤ 15 ∧ s.bulk.xfer = some x ∧ x.kind = 2 ∧ x.handle = k ∧ s.bundle k = b ∧ b.state = 1 ∧ b.verified.contains x.index = false ∧ x.buf.length = b.shardLen x.index ∧ digestOf (b.shardHead x.index ++ x.buf) ≠ b.digests.getD x.index 0 ∧ tget (fun _ => 0) b.attempts x.index < 3) ∧
    (∃ (n : Nat) (k : Nat) (i : Nat) (b : Bundle) (s : State), s.alive = true ∧ s.bundle k = b ∧ b.state = 1 ∧ b.missing = some i ∧ b.timer + s.wt.shardTo * 1_000_000 ≤ max s.now n ∧ tget (fun _ => 0) b.attempts i < 3) ∧
    (∃ (n : Nat) (k : Nat) (s : State), s.alive = true ∧ (s.bundle k).state = 1 ∧ (s.bundle k).checking = true ∧ s.ms.errs = [] ∧ s.ms.poison = []) ∧
    (∃ (n : Nat) (s : State), s.alive = true ∧ s.mgmt.devState ≠ 0 ∧ s.therm.step = 0 ∧ max s.wt.redigestAt s.mgmt.resetAt + s.wt.redigest * 60_000_000_000 ≤ max s.now n ∧ (∀ k, k < 16 → ∀ i ∈ (s.bundle k).verifiedInOrder, s.shardFault (s.bundle k) i = none) ∧ s.ms.errs = []) :=
  ⟨⟨hd, 15, dev 3, by decide +kernel⟩,
   ⟨hd, 15, 0, bundleOn (staging []), by decide +kernel⟩,
   ⟨hd, 0, xf 2, xfer (xf 2), by decide +kernel⟩,
   ⟨hd, 15, bundleOn (staging []), by decide +kernel⟩,
   ⟨hd, 0, { xf 1 with total := none, buf := mf }, { xfer { xf 1 with total := none, buf := mf } with sec := { (dev 3).sec with bkeys := [true] } }, rfl, by decide, rfl, rfl, rfl, rfl, mf_form, by decide +kernel, by decide +kernel⟩,
   ⟨hd, 0, xf 1, xfer (xf 1), by decide +kernel⟩,
   ⟨hd, 15, { shardXf with handle := 15 }, staging [shardDig], (xfer { shardXf with handle := 15 }).setBundle 15 (staging [shardDig]), by decide +kernel, by decide, rfl, rfl, rfl, rfl, rfl, rfl, rfl, by decide +kernel, rfl⟩,
   ⟨hd, 15, { shardXf with handle := 15 }, staging [0], (xfer { shardXf with handle := 15 }).setBundle 15 (staging [0]), by decide +kernel, by decide, rfl, rfl, rfl, rfl, rfl, rfl, by decide +kernel, by decide +kernel, by decide +kernel⟩,
   ⟨3_000_000_000, 15, 0, staging [], bundleOn (staging []), by decide +kernel⟩,
   ⟨5, 15, bundleOn { staging [] with checking := true }, by decide +kernel⟩,
   ⟨600_000_000_000, dev 3, by decide +kernel⟩⟩

/-- The hypotheses of ModelSlots are met together. -/
theorem witness_ModelSlots :
    (∃ (h : Hdr) (n : Nat) (k : Nat) (map : List Nat) (s : State), s.accepts Op.slotProgram false = true ∧ n ≤ 63 ∧ k ≤ 15 ∧ (∀ i, i < 48 → map.getD i 0xFF ≤ 47 ∨ map.getD i 0xFF = 0xFF) ∧ slotProgramCheck n k map s = none ∧ (∀ i ∈ s.shardsRead (s.bundle k), s.shardFault (s.bundle k) i = none) ∧ s.ms.errs = [] ∧ (s.bundle k).state = 2) ∧
    (∃ (u : Nat) (n : Nat) (h : Hdr) (s : State), s.alive = true ∧ (s.slot n).state = 1 ∧ (s.slot n).left = [] ∧ (s.slot n).failedAt = none ∧ (s.slot n).hdr = some h) ∧
    (∃ (u : Nat) (n : Nat) (p : Nat) (b : Nat) (h : Hdr) (s : State), s.alive = true ∧ (s.slot n).state = 1 ∧ (s.slot n).left = [] ∧ (s.slot n).failedAt = some (p, b) ∧ (s.slot n).hdr = some h) ∧
    (∃ (h : Hdr) (n : Nat) (s : State), s.accepts Op.slotActivate false = true ∧ n ≤ 63 ∧ (s.slot n).state = 2) ∧
    (∃ (h : Hdr) (n : Nat) (k : Nat) (s : State), s.accepts Op.slotActivate false = true ∧ n ≤ 63 ∧ k ≤ 15 ∧ slotActivateCheck n (some k) s = none ∧ (∀ i ∈ s.shardsRead (s.bundle k), s.shardFault (s.bundle k) i = none) ∧ s.ms.errs = [] ∧ (s.bundle k).state = 2) ∧
    (∃ (u : Nat) (n : Nat) (k : Nat) (s : State), s.alive = true ∧ (s.slot n).next = some k ∧ (s.slot n).state = 4 ∧ s.drained n = true ∧ s.power.pwrgd = true ∧ (s.bundle k).state = 2 ∧ (((s.advance u).modSlot n fun y => { y with state := 5 }).restBobbins n).cannotProgram n = none) ∧
    (∃ (u : Nat) (n : Nat) (k : Nat) (s : State), s.alive = true ∧ (s.slot n).next = some k ∧ (s.slot n).state = 4 ∧ s.drained n = true ∧ (s.bundle k).state ≠ 2) ∧
    (∃ (u : Nat) (n : Nat) (k : Nat) (p : Nat) (g : Target) (s : State), s.alive = true ∧ (s.slot n).next = some k ∧ (s.slot n).state = 4 ∧ s.drained n = true ∧ g ∈ (s.slot n).targets ∧ p = (s.slot n).physPillow g.ppil ∧ s.inService p = false) ∧
    (∃ (u : Nat) (n : Nat) (k : Nat) (s : State), s.alive = true ∧ (s.slot n).next = some k ∧ (s.slot n).state = 5 ∧ (s.slot n).left = [] ∧ (s.slot n).failedAt = none) ∧
    (∃ (h : Hdr) (n : Nat) (s : State), s.accepts Op.slotRetire false = true ∧ n ≤ 63 ∧ ((s.slot n).state = 2 ∨ (s.slot n).state = 6) ∧ s.slotTemplate n = none) ∧
    (∃ (h : Hdr) (n : Nat) (s : State), s.accepts Op.slotRetire false = true ∧ n ≤ 63 ∧ (s.slot n).state = 3 ∧ s.slotTemplate n = none) ∧
    (∃ (u : Nat) (n : Nat) (h : Hdr) (s : State), s.alive = true ∧ (s.slot n).state = 4 ∧ (s.slot n).next = none ∧ s.drained n = true ∧ (s.slot n).hdr = some h) ∧
    (∃ (h : Hdr) (n : Nat) (s : State), s.accepts Op.slotRetire false = true ∧ n ≤ 63 ∧ ((s.slot n).state = 1 ∨ (s.slot n).state = 4 ∨ (s.slot n).state = 5)) :=
  ⟨⟨hd, 63, 15, List.replicate 48 0xFF, ms0, by decide +kernel, by decide, by decide, by decide +kernel, by decide +kernel, sound0, by decide +kernel⟩,
   ⟨5, 63, hd, slotIn 1, by decide +kernel⟩,
   ⟨5, 63, 47, 16, hd, (slotIn 1).modSlot 63 fun x => { x with failedAt := some (47, 16) }, by decide +kernel⟩,
   ⟨hd, 63, slotIn 2, by decide +kernel⟩,
   ⟨hd, 63, 15, ms3, by decide +kernel, by decide, by decide, by decide +kernel, sound3, by decide +kernel⟩,
   ⟨5, 63, 15, (bundleOn ready).setSlot 63 { state := 4, handle := 15, hdr := some hd, next := some 15 }, by decide +kernel⟩,
   ⟨5, 63, 15, (slotIn 4).modSlot 63 fun x => { x with next := some 15 }, by decide +kernel⟩,
   ⟨5, 63, 15, 0xFF, tgt, (slotIn 4).modSlot 63 fun x => { x with next := some 15, targets := [tgt] }, by decide +kernel⟩,
   ⟨5, 63, 15, (slotIn 5).modSlot 63 fun x => { x with next := some 15 }, by decide +kernel⟩,
   ⟨hd, 63, slotIn 2, by decide +kernel⟩,
   ⟨hd, 63, slotIn 3, by decide +kernel⟩,
   ⟨5, 63, hd, slotIn 4, by decide +kernel⟩,
   ⟨hd, 63, slotIn 5, by decide +kernel⟩⟩

/-- The hypotheses of CalibrationRuns are met together. -/
theorem witness_CalibrationRuns :
    (∃ (h : Hdr) (s : State), s.accepts Op.calRun false = true ∧ calRunCheck s = none) ∧
    (∃ (h : Hdr) (g : Hdr) (s : State), s.accepts Op.calRun false = true ∧ s.therm.step < 2 ∧ s.trim.cal = some g) ∧
    (∃ (n : Nat) (res : CalResult) (h : Hdr) (s : State), s.alive = true ∧ s.trim.cal = some h ∧ s.trim.calStart + 180_000_000 ≤ max s.now n ∧ (∀ m ∈ res.meas, plausible m.cls m.index m.value = true) ∧ res.failed6 = [] ∧ (∀ p, p < 48 → 16 ≤ s.soundCount p) ∧ (s.mgmt.devState = 1 ∨ s.mgmt.devState = 3)) ∧
    (∃ (h : Hdr) (s : State), s.accepts Op.hcSelfcal false = true ∧ s.hcHeld = false ∧ s.hc.selfcal = none) ∧
    (∃ (h : Hdr) (g : Hdr) (s : State), s.accepts Op.hcSelfcal false = true ∧ s.hcHeld = false ∧ s.hc.selfcal = some g) ∧
    (∃ (n : Nat) (res : CalResult) (h : Hdr) (s : State), s.up = true ∧ s.hc.selfcal = some h ∧ (∀ m ∈ res.meas, plausible m.cls m.index m.value = true) ∧ s.hc.conv = none ∧ s.hc.aborted = [] ∧ s.hc.urgents = [] ∧ s.hc.reads = [] ∧ s.runningSeq = none ∧ s.readySeq = none ∧ s.hc.selfcals = [] ∧ (s.advance n).checkWaits = none) ∧
    (∃ (n : Nat) (k : Nat) (v : Int) (h : Hdr) (s : State), s.up = true ∧ s.hc.selfcal = some h ∧ k < 12 ∧ plausible .hcFactor k v = false ∧ s.hc.factOk = BitVec.allOnes 12 ∧ s.hc.fact.length = 14 ∧ (∀ i, i < 12 → plausible .hcFactor i (s.hc.fact.getD i 0) = true) ∧ s.hc.conv = none ∧ s.hc.aborted = [] ∧ s.hc.urgents = [] ∧ s.hc.reads = [] ∧ s.runningSeq = none ∧ s.readySeq = none ∧ s.hc.selfcals = [] ∧ (s.advance n).checkWaits = none) :=
  ⟨⟨hd, dev 3, by decide +kernel⟩,
   ⟨hd, hd, { dev 3 with trim := { (dev 3).trim with cal := some hd } }, by decide +kernel⟩,
   ⟨200_000_000, { meas := [{ cls := .vread, bobbin := 0, index := 47, value := 0, again := 0 }], failed6 := [], tj := 0 }, hd, { dev 3 with trim := { (dev 3).trim with cal := some hd } }, by decide +kernel⟩,
   ⟨hd, freeHc, by decide +kernel⟩,
   ⟨hd, hd, { freeHc with hc := { freeHc.hc with selfcal := some hd } }, by decide +kernel⟩,
   ⟨5, { meas := [{ cls := .hcFactor, bobbin := 0, index := 0, value := 512, again := 0 }], failed6 := [], tj := 0 }, hd, { freeHc with hc := { freeHc.hc with selfcal := some hd } }, by decide +kernel⟩,
   ⟨5, 0, 513, hd, { freeHc with hc := { freeHc.hc with selfcal := some hd, factOk := BitVec.allOnes 12 } }, by decide +kernel⟩⟩

/-- The hypotheses of CalibrationInService are met together. -/
theorem witness_CalibrationInService :
    (∃ (n : Nat) (p : Nat) (b : Nat) (cs : SparseInt) (zs : SparseInt) (s : State), s.calServes = true ∧ s.calBobbin p b = true ∧ ((s.bobbin p b).state ≠ 0 ∨ ((s.bobbin p b).calPass s.trim s.sheets.sheet cs zs).passFails = false) ∧ (s.pillow p).run = none ∧ s.therm.step < 3) ∧
    (∃ (n : Nat) (p : Nat) (b : Nat) (g : Nat) (c : Nat) (s : State), s.calServes = true ∧ s.calBobbin p b = true ∧ g < 8 ∧ tget (fun _ => 0) (s.bobbin p b).dwell g + 1024 ≤ (s.bobbin p b).made ∧ c = 33 * g + ((s.bobbin p b).uOf g).1) ∧
    (∃ (n : Nat) (p : Nat) (b : Nat) (ms : List Int) (s : State), s.calServes = true ∧ s.calBobbin p b = true ∧ (s.bobbin p b).programmed = true ∧ (∀ l, l < 16 → 4096 ≤ tget (fun _ => 0) (s.bobbin p b).scanN l) ∧ ms = (s.bobbin p b).scanLevels ∧ (s.bobbin p b).base = [] ∧ (s.bobbin p b).scans.length = 3) ∧
    (∃ (n : Nat) (dev : Int) (s : State), (s.advance n).sealDue = true ∧ s.therm.step < 2 ∧ dev.natAbs ≤ 50 ∧ s.tb.sheetSrc ≠ 0) ∧
    (∃ (n : Nat) (dev : Int) (s : State), (s.advance n).sealDue = true ∧ s.therm.step < 2 ∧ 50 < dev.natAbs) ∧
    (∃ (n : Nat) (dev : Int) (s : State), (s.advance n).sealDue = true ∧ 2 ≤ s.therm.step) :=
  ⟨⟨5, 47, 16, [], [], freeHc, by decide +kernel⟩,
   ⟨5, 0, 0, 7, 263, freeHc.setBobbin 0 0 { state := 6, made := 1024 }, by decide +kernel⟩,
   ⟨5, 0, 0, _, freeHc.setBobbin 0 0 { state := 6, programmed := true, scans := [[], [], []], scanN := (List.range 16).map fun i => (i, 4096) }, by decide +kernel, by decide +kernel, by decide +kernel, by decide +kernel, rfl, by decide +kernel, by decide +kernel⟩,
   ⟨2_000_000_000, 50, { seals with tb := { (dev 3).tb with sheetSrc := 1 } }, by decide +kernel⟩,
   ⟨2_000_000_000, -51, seals, by decide +kernel⟩,
   ⟨2_000_000_000, 0, { seals with therm := { (dev 3).therm with step := 2 } }, by decide +kernel⟩⟩

/-- The hypotheses of TrimImage are met together. -/
theorem witness_TrimImage :
    (∃ (h : Hdr) (o : Nat) (l : Nat) (s : State), s.accepts Op.trimRead false = true ∧ o % 2048 = 0 ∧ l % 2048 = 0 ∧ 0 < l ∧ o + l ≤ trimBytes ∧ s.bulk.xfer = none ∧ s.bulk.bar = none ∧ s.bulk.arrived = none) ∧
    (∃ (n : Nat) (x : Xfer) (s : State), s.up = true ∧ s.bulk.xfer = some x ∧ x.kind = 4) ∧
    (∃ (h : Hdr) (s : State), s.accepts Op.trimWrite false = true ∧ trimWriteCheck s = none) ∧
    (∃ (n : Nat) (x : Xfer) (s : State), s.alive = true ∧ s.bulk.arrived = some x ∧ x.kind = 3) :=
  ⟨⟨hd, 0, 2048, dev 3, by decide +kernel⟩,
   ⟨5, xf 4, xfer (xf 4), by decide +kernel⟩,
   ⟨hd, dev 3, by decide +kernel⟩,
   ⟨5, { xf 3 with buf := [] }, { dev 3 with bulk := { (dev 3).bulk with arrived := some { xf 3 with buf := [] } } }, by decide +kernel⟩⟩

/-- The hypotheses of Prickings are met together. -/
theorem witness_Prickings :
    (∃ (h : Hdr) (k : Nat) (n : Nat) (s : State), s.accepts Op.prickLoad false = true ∧ k ≤ 255 ∧ 128 ≤ n ∧ n ≤ 393216 ∧ s.prick k = none ∧ s.storeUsed + n ≤ 0x200_0000 ∧ (s.stored.filter fun x => !x.2.loaded).length < 4) ∧
    (∃ (h : Hdr) (k : Nat) (n : Nat) (x : Prick) (s : State), s.accepts Op.prickLoad false = true ∧ k ≤ 255 ∧ 128 ≤ n ∧ n ≤ 393216 ∧ s.prick k = some x) ∧
    (∃ (h : Hdr) (k : Nat) (o : Nat) (b : Bytes) (x : Prick) (s : State), s.accepts Op.prickLoad false = true ∧ k ≤ 255 ∧ o % 16 = 0 ∧ s.prick k = some x ∧ x.loaded = false ∧ o + b.length ≤ x.size) ∧
    (∃ (h : Hdr) (k : Nat) (x : Prick) (s : State), s.accepts Op.prickLoad false = true ∧ k ≤ 255 ∧ s.prick k = some x ∧ x.loaded = false ∧ x.verify = none) ∧
    (∃ (h : Hdr) (k : Nat) (x : Prick) (r : Reject) (s : State), s.accepts Op.prickLoad false = true ∧ k ≤ 255 ∧ s.prick k = some x ∧ x.loaded = false ∧ x.verify = some r) ∧
    (∃ (h : Hdr) (k : Nat) (x : Prick) (s : State), s.accepts Op.prickLoad false = true ∧ k ≤ 255 ∧ s.prick k = some x ∧ s.prickUser k = none) :=
  ⟨⟨hd, 255, 128, dev 3, by decide +kernel⟩,
   ⟨hd, 0, 393216, prk1 true, prkOn true, by decide +kernel⟩,
   ⟨hd, 0, 0x190 - 16, List.replicate 16 0xAA, prk1 false, prkOn false, by decide +kernel⟩,
   ⟨hd, 0, prk1 false, prkOn false, by decide +kernel⟩,
   ⟨hd, 0, { loaded := false, size := 128, bytes := [] }, prickBad 0 0 0, (dev 3).setPrick 0 (some { loaded := false, size := 128, bytes := [] }), by decide +kernel⟩,
   ⟨hd, 0, prk1 true, prkOn true, by decide +kernel⟩⟩

/-- The hypotheses of BobbinProgramming are met together. -/
theorem witness_BobbinProgramming :
    (∃ (n : Nat) (p : Nat) (l : Nat) (b : Bobbin) (s : State), s.alive = true ∧ l < 16 ∧ s.wt.ageH ≠ 0 ∧ s.bobbin p ((s.pillow p).physOf l) = b ∧ b.progTime + s.wt.ageH * 3_600_000_000_000 < max s.now n ∧ b.state = 0 ∧ (s.slot b.slot).state = 3 ∧ (∀ r ∈ (s.pillow p).refresh, r.logical ≠ l)) ∧
    (∃ (n : Nat) (p : Nat) (sp : Nat) (q : RefreshReq) (g : Target) (b : Bobbin) (s : State), s.alive = true ∧ s.inService p = true ∧ s.trim.calDone = true ∧ s.power.pwrgd = true ∧ s.ms.errs = [] ∧ s.trim.cal = none ∧ s.therm.step = 0 ∧ (s.pillow p).spare = some sp ∧ (s.bobbin p sp).state = 1 ∧ (s.pillow p).refreshing = none ∧ (s.pillow p).refresh = [q] ∧ s.refreshable p q = true ∧ b = s.bobbin p ((s.pillow p).physOf q.logical) ∧ (s.slot b.slot).targetOf p q.logical = some g ∧ (s.bundle (s.slot b.slot).handle).state = 2 ∧ (∀ i ∈ g.shards, s.shardFault (s.bundle (s.slot b.slot).handle) i = none)) ∧
    (∃ (n : Nat) (p : Nat) (sp : Nat) (q : RefreshReq) (s : State), s.alive = true ∧ s.inService p = true ∧ s.trim.cal = none ∧ s.therm.step = 0 ∧ (s.pillow p).spare = some sp ∧ (s.bobbin p sp).state = 1 ∧ (s.pillow p).refreshing = none ∧ (s.pillow p).refresh = [q] ∧ s.refreshable p q = true ∧ (s.trim.calDone = false ∨ s.power.pwrgd = false)) ∧
    (∃ (n : Nat) (p : Nat) (m : Nat) (q : ProgReq) (rest : List ProgReq) (s : State), s.alive = true ∧ (s.pillow p).progs = q :: rest ∧ q.started = false ∧ rest.countP (·.started) < 4 ∧ (∀ r ∈ rest, r.started = true → r.bobbin ≠ q.bobbin) ∧ q.forSlot = some m ∧ m < 64 ∧ (s.power.pwrgd = false ∨ (s.bundle q.handle).state ≠ 2)) ∧
    (∃ (n : Nat) (p : Nat) (q : ProgReq) (rest : List ProgReq) (s : State), s.alive = true ∧ s.power.pwrgd = true ∧ (s.pillow p).progs = q :: rest ∧ q.started = false ∧ q ∉ rest ∧ rest.countP (·.started) < 4 ∧ (∀ r ∈ rest, r.started = true → r.bobbin ≠ q.bobbin) ∧ (s.bundle q.handle).state = 2) ∧
    (∃ (n : Nat) (p : Nat) (u : Nat) (q : ProgReq) (m : Nat) (s : State), (s.pillow p).progs = [q] ∧ q.started = true ∧ q.stopped = false ∧ q.cut = false ∧ q.forSlot = some m ∧ s.ms.errs = [] ∧ s.poisonedRow q = none ∧ (s.bundle q.handle).state = 2) ∧
    (∃ (n : Nat) (p : Nat) (u : Nat) (v : Nat) (q : ProgReq) (m : Nat) (s : State), (s.pillow p).progs = [q] ∧ q.started = true ∧ q.stopped = false ∧ q.cut = false ∧ q.forSlot = some m ∧ s.ms.errs = [] ∧ s.poisonedRow q = none ∧ (s.bundle q.handle).state = 2 ∧ v ≠ 0 ∧ (∀ c, c < 17 → c ≠ q.bobbin → (s.bobbin p c).state ≠ 5)) :=
  ⟨⟨100_000_000_000_000, 47, 15, { state := 0, slot := 63 }, ((dev 3).setBobbin 47 15 { state := 0, slot := 63 }).setSlot 63 { state := 3 }, by decide +kernel⟩,
   ⟨20_000_000, 0, 16, rq, tgt, { state := 0, slot := 63 }, refr, by decide +kernel, by decide +kernel, rfl, rfl, rfl, rfl, rfl, rfl, by decide +kernel, rfl, rfl, by decide +kernel, by decide +kernel, by decide +kernel, by decide +kernel, soundR⟩,
   ⟨5, 0, 16, rq, { refr with trim := { refr.trim with calDone := false } }, by decide +kernel⟩,
   ⟨5, 47, 63, pq false, [], (dev 3).setPillow 47 { progs := [pq false] }, by decide +kernel⟩,
   ⟨5, 47, pq false, [], (bundleOn ready).setPillow 47 { progs := [pq false] }, by decide +kernel⟩,
   ⟨5, 0, 11, pq true, 63, (bundleOn ready).setPillow 0 { progs := [pq true] }, by decide +kernel⟩,
   ⟨5, 0, 11, 1, pq true, 63, (bundleOn ready).setPillow 0 { progs := [pq true] }, by decide +kernel⟩⟩

/-- The hypotheses of Templates are met together. -/
theorem witness_Templates :
    (∃ (h : Hdr) (a : AdmitParams) (s : State), s.accepts Op.jobAdmit false = true ∧ admitParams a = none ∧ (s.advance h.t).admitCheck a = none ∧ (a.looseOk = true ∨ ∀ q, q ∈ a.mapA ++ a.mapB → (s.pillow q).run = none ∧ (s.pillow q).standby = none ∧ (s.pillow q).saving = none ∧ (s.pillow q).restoring = none ∧ (s.pillow q).readyQ = [])) ∧
    (∃ (h : Hdr) (a : AdmitParams) (p : Nat) (s : State), s.accepts Op.jobAdmit false = true ∧ admitParams a = none ∧ (s.advance h.t).admitCheck a = none ∧ a.looseOk = false ∧ (∀ q, q ∈ a.mapA ++ a.mapB → (s.pillow q).run = none ∧ (s.pillow q).standby = none ∧ (s.pillow q).readyQ = []) ∧ p ∈ a.mapA ∧ p < 48 ∧ (s.pillow p).saving.isSome = true) ∧
    (∃ (h : Hdr) (a : AdmitParams) (x : Template) (s : State), s.accepts Op.jobAdmit false = true ∧ admitParams a = none ∧ s.template a.template = some x) ∧
    (∃ (h : Hdr) (a : AdmitParams) (s : State), s.accepts Op.jobAdmit false = true ∧ admitParams a = none ∧ s.template a.template = none ∧ (s.loadedPrick a.prk).isSome = true ∧ (a.vRated < 1000 ∨ 1_000_000 < a.vRated)) ∧
    (∃ (n : Nat) (k : Nat) (x : Template) (h : Hdr) (s : State), s.alive = true ∧ s.template k = some x ∧ x.accepted = false ∧ x.hdr = some h ∧ s.acceptWaits x.p = false) ∧
    (∃ (h : Hdr) (k : Nat) (x : Template) (s : State), s.accepts Op.jobAbort false = true ∧ s.template k = some x ∧ x.accepted = true ∧ x.withdrawn = false) ∧
    (∃ (n : Nat) (k : Nat) (x : Template) (h : Hdr) (s : State), s.alive = true ∧ Quiet s ∧ s.template k = some x ∧ x.withdrawn = true ∧ x.hdr = some h ∧ (∀ y ∈ s.liveJobs, y.2.pinned = true → y.2.template ≠ k)) :=
  ⟨⟨hd, adm, ad0, by decide +kernel⟩,
   ⟨hd, { adm with looseOk := false }, 0, ad0.setPillow 0 { saving := some (sav3 false) }, by decide +kernel⟩,
   ⟨hd, adm, tmpl, ad0.setTemplate 4 (some tmpl), by decide +kernel⟩,
   ⟨hd, { adm with vRated := 999 }, ad0, by decide +kernel⟩,
   ⟨0, 4, { tmpl with accepted := false, hdr := some hd }, hd, ad0.setTemplate 4 (some { tmpl with accepted := false, hdr := some hd }), by decide +kernel⟩,
   ⟨hd, 4, tmpl, ad0.setTemplate 4 (some tmpl), by decide +kernel⟩,
   ⟨0, 4, { tmpl with withdrawn := true, hdr := some hd }, hd, ad0.setTemplate 4 (some { tmpl with withdrawn := true, hdr := some hd }), by decide +kernel, noWork rfl, by decide +kernel⟩⟩

/-- The hypotheses of LooseJobs are met together. -/
theorem witness_LooseJobs :
    (∃ (h : Hdr) (x : SubmitParams) (c : Nat) (l : List Nat) (s : State), s.accepts Op.jobSubmit false = true ∧ submitParams x [] = none ∧ (s.advance h.t).submitCheck Op.jobSubmit x = none ∧ s.freeCtxs 1 = c :: l) ∧
    (∃ (h : Hdr) (x : SubmitParams) (c : Nat) (l : List Nat) (s : State), s.accepts Op.jobSubmit false = true ∧ submitParams x [] = none ∧ (s.advance h.t).submitCheck Op.jobSubmit x = none ∧ s.freeCtxs 1 = c :: l ∧ ((s.loadedPrick x.prk).getD emptyPrick).emptyLen x.len = true) ∧
    (∃ (h : Hdr) (x : SubmitParams) (cap : Nat) (mode : Nat) (c : Nat) (l : List Nat) (s : State), s.accepts Op.partialCapture false = true ∧ submitParams x [] = none ∧ cap < 2 ^ 48 ∧ (mode = 1 ∨ mode = 2) ∧ (s.advance h.t).submitCheck Op.partialCapture x = none ∧ (s.advance h.t).replayCheck x cap mode = none ∧ s.freeCtxs 1 = c :: l) ∧
    (∃ (h : Hdr) (c : Nat) (j : Job) (s : State), s.accepts Op.jobAbort false = true ∧ s.job c = some j ∧ j.pinned = false ∧ j.aborting = none ∧ j.dead = false ∧ s.suspendedJob c = false ∧ (∀ e ∈ s.pillows, (∀ r, e.2.run = some r → r.ctx ≠ c) ∧ (∀ v, e.2.saving = some v → v.run.ctx ≠ c) ∧ (∀ v, e.2.restoring = some v → v.run.ctx ≠ c)) ∧ (∀ q ∈ j.pillows, (s.pillow q).run = none ∧ (s.pillow q).standby = none ∧ (s.pillow q).readyQ = [] ∧ ∀ e ∈ (s.pillow q).looseQ, e.1 = c)) ∧
    (∃ (h : Hdr) (c : Nat) (p : Nat) (v : Saved) (j : Job) (s : State), s.accepts Op.jobAbort false = true ∧ s.job c = some j ∧ j.pinned = false ∧ j.aborting = none ∧ j.dead = false ∧ j.result ≠ Status.dataPoisoned ∧ v ∈ (s.pillow p).saves ∧ v.suspended = true ∧ v.run.ctx = c ∧ s.inRun c = false) ∧
    (∃ (h : Hdr) (c : Nat) (p : Nat) (v : Saved) (j : Job) (s : State), s.accepts Op.jobAbort false = true ∧ s.job c = some j ∧ j.pinned = false ∧ j.aborting = none ∧ j.dead = false ∧ j.result ≠ Status.dataPoisoned ∧ v ∈ (s.pillow p).saves ∧ v.suspended = true ∧ v.run.ctx = c ∧ s.inRun c = true) ∧
    (∃ (n : Nat) (c : Nat) (p : Nat) (v : Saved) (j : Job) (s : State), s.alive = true ∧ p < 48 ∧ v ∈ (s.pillow p).saves ∧ v.suspended = true ∧ v.run.ctx = c ∧ v.since + s.ms.faultWait * 1_000_000 ≤ max s.now n ∧ (∀ q, q < p → (s.pillow q).saves = []) ∧ s.job c = some j ∧ j.aborting = none ∧ j.result ≠ Status.dataPoisoned) :=
  ⟨⟨hd, sub, 0, [], { prkOn true with ms := asid0.ms }, by decide +kernel⟩,
   ⟨hd, sub, 0, [], { (dev 3).setPrick 0 (some prkL) with ms := asid0.ms }, by decide +kernel⟩,
   ⟨hd, sub, 2 ^ 48 - 1, 1, 0, [], { prkOn true with ms := asid0.ms }, by decide +kernel⟩,
   ⟨hd, 3, jb, (prkOn true).setJob 3 (some jb), by decide +kernel, by decide +kernel, rfl, rfl, rfl, rfl, fun _ h => absurd h List.not_mem_nil, by decide +kernel⟩,
   ⟨hd, 3, 47, sav3 true, jb, onPil 47 jb { saves := [sav3 true] }, by decide +kernel⟩,
   ⟨hd, 3, 47, sav3 true, jb, (onPil 47 jb { saves := [sav3 true] }).setPillow 46 { run := some run3 }, by decide +kernel⟩,
   ⟨100_000_000, 3, 47, sav3 true, jb, onPil 47 jb { saves := [sav3 true] }, by decide +kernel⟩⟩

/-- The hypotheses of Stages are met together. -/
theorem witness_Stages :
    (∃ (n : Nat) (p : Nat) (c : Nat) (k : Nat) (j : Job) (s : State), s.alive = true ∧ s.job c = some j ∧ j.pinned = true ∧ j.dead = false ∧ (j.stage k).phase = .waiting ∧ (j.stage k).pillow = p ∧ (j.stage k).readyAt ≤ max s.now n) ∧
    (∃ (n : Nat) (p : Nat) (v : Saved) (w : Work) (s : State), s.alive = true ∧ (s.pillow p).saving = some v ∧ s.workOf p v.run = some w) ∧
    (∃ (n : Nat) (p : Nat) (v : Saved) (j : Job) (s : State), s.alive = true ∧ (s.pillow p).restoring = some v ∧ (∀ w, s.workOf p v.run = some w → ∀ x ∈ w.saveImage v.suspended, s.poisonIn (slotAddr p v.slot + x.1) x.2.length = none) ∧ s.ms.errs = [] ∧ s.job v.run.ctx = some j ∧ j.aborting = none ∧ j.pinned = false ∧ (s.pillow p).run = none ∧ (s.pillow p).standby = none ∧ (s.pillow p).readyQ = [] ∧ (s.pillow p).looseEn = true ∧ s.therm.step < 2) ∧
    (∃ (n : Nat) (p : Nat) (v : Saved) (j : Job) (s : State), s.alive = true ∧ (s.pillow p).restoring = some v ∧ (∀ w, s.workOf p v.run = some w → ∀ x ∈ w.saveImage v.suspended, s.poisonIn (slotAddr p v.slot + x.1) x.2.length = none) ∧ s.ms.errs = [] ∧ s.job v.run.ctx = some j ∧ j.aborting = none ∧ (s.pillow p).run.isSome = true) ∧
    (∃ (n : Nat) (p : Nat) (v : Saved) (s : State), s.alive = true ∧ (s.pillow p).restoring = some v ∧ p < 48 ∧ s.failedOut p = false) ∧
    (∃ (n : Nat) (p : Nat) (r : Run) (w : Work) (s : State), s.alive = true ∧ (s.advance n).settlePillows [p] = s.advance n ∧ (s.pillow p).run = some r ∧ s.workOf p r = some w ∧ r.waitFence = true ∧ r.stop = none ∧ w.op.count ≤ w.job.fence (fenceKey p w.op.fence)) ∧
    (∃ (n : Nat) (p : Nat) (r : Run) (x : Nat × Int × Bool) (j : Job) (s : State), s.alive = true ∧ (s.advance n).settlePillows [p] = s.advance n ∧ (s.pillow p).run = some r ∧ r.waitWin = some x ∧ s.job r.ctx = some j ∧ s.lineReady p j x = true) :=
  ⟨⟨0, 47, 3, 0, { jb with pinned := true, stages := [(0, { pillow := 47 })] }, onPil 47 { jb with pinned := true, stages := [(0, { pillow := 47 })] } {}, by decide +kernel⟩,
   ⟨0, 47, sav3 false, wk 47 jb run3, onPil 47 jb { saving := some (sav3 false) }, by decide +kernel, by decide +kernel, rfl⟩,
   ⟨0, 47, sav3 false, jb, onPil 47 jb { restoring := some (sav3 false) }, by decide +kernel⟩,
   ⟨0, 47, sav3 false, jb, onPil 47 jb { restoring := some (sav3 false), run := some run3 }, by decide +kernel⟩,
   ⟨0, 47, sav3 false, onPil 47 jb { restoring := some (sav3 false) }, by decide +kernel⟩,
   ⟨0, 47, { run3 with started := true, waitFence := true }, wk 47 jb { run3 with started := true, waitFence := true }, onPil 47 jb { run := some { run3 with started := true, waitFence := true } }, by decide +kernel, by decide +kernel, rfl, rfl, rfl, by decide +kernel⟩,
   ⟨0, 47, { run3 with started := true, waitWin := some (0, -1, false) }, (0, -1, false), jb, onPil 47 jb { run := some { run3 with started := true, waitWin := some (0, -1, false) } }, by decide +kernel⟩⟩

/-- The hypotheses of CrossbarPath are met together. -/
theorem witness_CrossbarPath_0 : ∃ (n : Nat) (p : Nat) (r : Run) (w : Work) (pos : List Nat × Nat) (b : Bytes) (v : State) (s : State), s.pillowAlive p = true ∧ (s.pillow p).run = some r ∧ s.workOf p r = some w ∧ r.next = some pos ∧ w.op.kind = kXbar ∧ r.started = true ∧ r.waitWin = none ∧ r.stop = none ∧ r.hasRoom pos = true ∧ w.badTile pos.1 = none ∧ (s.advance n).readToken w 0 (w.prk.qdesc w.op.qdesc).esize pos.1 pos.2 (w.kOf pos.1) = .ok b v :=
  ⟨0, 47, runAt 0, opWk (xbK 0) (runAt 0), (idx0, 0), _, okS State.reset _, opOn (xbK 0) (runAt 0), by decide +kernel, by decide +kernel, rfl, rfl, by decide +kernel, rfl, rfl, rfl, by decide +kernel, by decide +kernel, ok_of (by decide +kernel)⟩

/-- The hypotheses of CrossbarPath are met together. -/
theorem witness_CrossbarPath_1 : ∃ (n : Nat) (p : Nat) (r : Run) (w : Work) (k : StagedTok) (rest : List StagedTok) (d : Drive) (b : Nat) (o : PassOut) (x : Bobbin) (e : Nat) (s : State), s.pillowAlive p = true ∧ (s.pillow p).run = some r ∧ s.workOf p r = some w ∧ w.op.kind = kXbar ∧ r.stop = none ∧ r.staged = k :: rest ∧ k.degen = none ∧ w.job.capMode ≠ 2 ∧ w.drives k.idx = [d] ∧ (∀ q, (s.bobbin p q).stageErrs = []) ∧ d.wave = r.wave ∧ (w.prk.qdesc w.op.qdesc).a4 = false ∧ d.tile.a4 = false ∧ r.low = false ∧ r.attempt = 0 ∧ (s.advance n).stagePoisoned w k (waveCount [d]) [d] = false ∧ (s.advance n).canPass p d.tile w.job.sheet = true ∧ b = (s.advance n).routeOf p d.tile.logical w.job.sheet ∧ (s.bobbin p b).state ≠ 3 ∧ (s.bobbin p b).work s.trim w.job.sheet (nibbles false false ((s.bobbin p b).staged (stageAt k.half (k.tok * waveCount [d] + d.wave)) d.rows)) (min 3 d.tile.rangeH) (min 3 d.tile.rangeL) [] = (e, o, x) ∧ x.passFails = false :=
  ⟨0, 47, stgR, opWk (xbK 0) stgR, tok0, [], drv0, 0, (((xbOn { state := 0, slot := 63 }).bobbin 47 0).work (xbOn { state := 0, slot := 63 }).trim 0 [0, 0, 0, 0] 0 0 []).2.1, (((xbOn { state := 0, slot := 63 }).bobbin 47 0).work (xbOn { state := 0, slot := 63 }).trim 0 [0, 0, 0, 0] 0 0 []).2.2, (((xbOn { state := 0, slot := 63 }).bobbin 47 0).work (xbOn { state := 0, slot := 63 }).trim 0 [0, 0, 0, 0] 0 0 []).1, xbOn { state := 0, slot := 63 }, by decide +kernel, by decide +kernel, rfl, by decide +kernel, rfl, rfl, rfl, by decide +kernel, by decide +kernel, xbErrs rfl, rfl, by decide +kernel, by decide +kernel, rfl, rfl, by decide +kernel, by decide +kernel, by decide +kernel, by decide +kernel, by decide +kernel, by decide +kernel⟩

/-- The hypotheses of CrossbarPath are met together. -/
theorem witness_CrossbarPath_2 : ∃ (n : Nat) (p : Nat) (r : Run) (w : Work) (k : StagedTok) (rest : List StagedTok) (s : State), s.pillowAlive p = true ∧ (s.pillow p).run = some r ∧ s.workOf p r = some w ∧ w.op.kind = kXbar ∧ r.staged = k :: rest ∧ k.degen = none ∧ w.job.capMode ≠ 2 ∧ r.stop = none ∧ r.epi = [] ∧ (∀ q, (s.bobbin p q).stageErrs = []) ∧ (w.drives k.idx).filter (fun d => d.wave == r.wave) ≠ [] ∧ (s.advance n).stagePoisoned w k (waveCount (w.drives k.idx)) ((w.drives k.idx).filter fun d => d.wave == r.wave) = true :=
  ⟨0, 47, stgR, opWk (xbK 0) stgR, tok0, [], xbOn { state := 0, slot := 63, stagePoison := [0] }, by decide +kernel, by decide +kernel, rfl, by decide +kernel, rfl, rfl, by decide +kernel, rfl, rfl, xbErrs rfl, by decide +kernel, by decide +kernel⟩

/-- The hypotheses of CrossbarPath are met together. -/
theorem witness_CrossbarPath_3 : ∃ (n : Nat) (p : Nat) (r : Run) (w : Work) (v : EpiVec) (rest : List EpiVec) (sp : List (Nat × Bytes)) (l : List (Nat × Nat)) (y : State) (s : State), s.pillowAlive p = true ∧ (s.pillow p).run = some r ∧ s.workOf p r = some w ∧ w.op.kind = kXbar ∧ r.stop = none ∧ r.epi = v :: rest ∧ s.spillsReady w v = true ∧ v.caps = none ∧ v.masked = false ∧ w.op.parts = 1 ∧ ((s.advance n).edescOf w).spill = true ∧ ((s.advance n).edescOf w).narrow = false ∧ v.vals ≠ [] ∧ v.vals.length = (w.columns v.idx).length ∧ (∀ c ∈ w.columns v.idx, w.live v c = true) ∧ w.op.o.windowed = false ∧ sp = spansOf (((w.columns v.idx).zip v.vals).map fun x => (x.1, leBytes 8 (ofSigned 64 x.2))) ∧ writePages w 1 false (sp.flatMap fun x => vaPieces (vaOf ((w.address w.op.o Level.strO v.idx v.tok).1 + ((x.1 * 8 : Nat) : Int))) x.2.length) (s.advance n) = (.ok l, y) :=
  ⟨0, 47, epiR, epiW, vec0, [], sp0, [(gbBase + 0xF000, 8)], _, epiS, by decide +kernel, by decide +kernel, rfl, by decide +kernel, rfl, rfl, by decide +kernel, rfl, rfl, by decide +kernel, by decide +kernel, by decide +kernel, by decide +kernel, by decide +kernel, by decide +kernel, by decide +kernel, rfl, ex_of epi_ok⟩

/-- The hypotheses of TattingAndTransfers are met together. -/
theorem witness_TattingAndTransfers_0 : ∃ (n : Nat) (p : Nat) (r : Run) (w : Work) (idx : List Nat) (tok : Nat) (ab : Bytes) (eb : Bytes) (out : Bytes) (l : List (Nat × Nat)) (v : State) (x : State) (y : State) (s : State), s.pillowAlive p = true ∧ (s.pillow p).run = some r ∧ s.workOf p r = some w ∧ w.op.kind = kTat ∧ r.started = true ∧ r.waitWin = none ∧ r.stop = none ∧ r.next = some (idx, tok) ∧ w.op.arg ≤ 3 ∧ r.tatPos + 1 < w.op.tatPieces ∧ readPiece w (w.prk.qdesc w.op.qdesc).esize idx tok 65 (w.op.tatPiece r.tatPos).1 (w.op.tatPiece r.tatPos).2 (s.advance n) = .ok ab v ∧ v.pieceE w (w.prk.qdesc w.op.qdesc).esize idx tok (w.op.tatPiece r.tatPos).1 (w.op.tatPiece r.tatPos).2 = .ok eb x ∧ w.maskedTok idx tok = false ∧ w.op.o.windowed = false ∧ out = ((vectorInstr w (w.prk.qdesc w.op.qdesc).inFmt (w.op.tatPiece r.tatPos).2 ((s.advance n).edescOf w) ab eb).out.map (tatOutput ((s.advance n).edescOf w) (x.actOf w ((s.advance n).edescOf w)))).flatMap OutElem.bytes ∧ (vectorInstr w (w.prk.qdesc w.op.qdesc).inFmt (w.op.tatPiece r.tatPos).2 ((s.advance n).edescOf w) ab eb).out ≠ [] ∧ writePages w 2 false (vaPieces (vaOf ((w.address w.op.o Level.strO idx tok).1 + ((w.op.tatOut r.tatPos * ((s.advance n).edescOf w).outSize : Nat) : Int))) out.length) x = (.ok l, y) :=
  ⟨0, 47, runAt 0, opWk tatK (runAt 0), idx0, 0, _, _, zeros 64, [(gbBase + 0xF000, 64)], okS State.reset _, okS State.reset _, _, opOn tatK (runAt 0), by decide +kernel, by decide +kernel, rfl, by decide +kernel, rfl, rfl, rfl, rfl, by decide +kernel, by decide +kernel, ok_of (by decide +kernel), ok_of (by decide +kernel), by decide +kernel, by decide +kernel, by decide +kernel, by decide +kernel, ex_of (by decide +kernel)⟩

/-- The hypotheses of TattingAndTransfers are met together. -/
theorem witness_TattingAndTransfers_1 : ∃ (n : Nat) (p : Nat) (r : Run) (w : Work) (idx : List Nat) (tok : Nat) (ab : Bytes) (eb : Bytes) (v : State) (x : State) (s : State), s.pillowAlive p = true ∧ (s.pillow p).run = some r ∧ s.workOf p r = some w ∧ w.op.kind = kTat ∧ r.started = true ∧ r.waitWin = none ∧ r.stop = none ∧ r.next = some (idx, tok) ∧ w.op.arg ≤ 9 ∧ readPiece w (w.prk.qdesc w.op.qdesc).esize idx tok 65 (w.op.tatPiece r.tatPos).1 (w.op.tatPiece r.tatPos).2 (s.advance n) = .ok ab v ∧ v.pieceE w (w.prk.qdesc w.op.qdesc).esize idx tok (w.op.tatPiece r.tatPos).1 (w.op.tatPiece r.tatPos).2 = .ok eb x ∧ w.maskedTok idx tok = true :=
  ⟨0, 47, runAt 3, opWk maskK (runAt 3), idx0, 3, _, _, okS State.reset _, okS State.reset _, opOn maskK (runAt 3), by decide +kernel, by decide +kernel, rfl, by decide +kernel, rfl, rfl, rfl, rfl, by decide +kernel, ok_of (by decide +kernel), ok_of (by decide +kernel), by decide +kernel⟩

/-- The hypotheses of TattingAndTransfers are met together. -/
theorem witness_TattingAndTransfers_2 : ∃ (n : Nat) (p : Nat) (i : Nat) (sa : Nat) (pa : Nat) (r : Run) (w : Work) (wx : Work) (x : DmaXfer) (v : State) (y : State) (s : State), s.pillowAlive p = true ∧ (s.pillow p).run = some r ∧ s.workOf p r = some w ∧ r.stop = none ∧ (r.dma.drop i).head? = some x ∧ s.turnOf w = some i ∧ wx = w.ofXfer x ∧ (r.waitWin = none ∨ (w.op.kind ≠ kDma ∧ r.op < w.prk.nOps)) ∧ (s.advance n).reachRead wx wx.op.a (wx.burstEnds x).1.1 (wx.burstEnds x).1.2 = (.place sa, v) ∧ v.burstTarget wx x = (.ok [pa], y) ∧ y.poisonIn sa (s.burstLen wx x) = none ∧ s.ms.errs = [] ∧ (s.advance n).cycleWrites = [] :=
  ⟨0, 47, 0, gbBase, gbBase + 0xF000, dmaR, dmaW, dmaW.ofXfer xfr0, xfr0, ((dmaS.advance 0).reachRead (dmaW.ofXfer xfr0) (dmaW.ofXfer xfr0).op.a ((dmaW.ofXfer xfr0).burstEnds xfr0).1.1 ((dmaW.ofXfer xfr0).burstEnds xfr0).1.2).2, (((dmaS.advance 0).reachRead (dmaW.ofXfer xfr0) (dmaW.ofXfer xfr0).op.a ((dmaW.ofXfer xfr0).burstEnds xfr0).1.1 ((dmaW.ofXfer xfr0).burstEnds xfr0).1.2).2.burstTarget (dmaW.ofXfer xfr0) xfr0).2, dmaS, by decide +kernel, by decide +kernel, rfl, rfl, rfl, by decide +kernel, rfl, Or.inl rfl, pr_of (by decide +kernel), tg_of (by decide +kernel), by decide +kernel, rfl, by decide +kernel⟩

/-- The hypotheses of TattingAndTransfers are met together. -/
theorem witness_TattingAndTransfers_3 : ∃ (n : Nat) (p : Nat) (r : Run) (w : Work) (b : Bytes) (j : Job) (v : State) (s : State), s.pillowAlive p = true ∧ (s.pillow p).run = some r ∧ s.workOf p r = some w ∧ w.op.kind = kSetlen ∧ r.started = true ∧ r.waitWin = none ∧ r.stop = none ∧ w.op.arg < 4 ∧ (s.advance n).readOpnd w 1 w.op.a (w.address w.op.a Level.strA [] 0).1 (w.address w.op.a Level.strA [] 0).2 4 = .ok b v ∧ v.job r.ctx = some j :=
  ⟨0, 47, { run3 with started := true }, opWk setK { run3 with started := true }, _, jb, okS State.reset _, opOn setK { run3 with started := true }, by decide +kernel, by decide +kernel, rfl, by decide +kernel, rfl, rfl, rfl, by decide +kernel, ok_of (by decide +kernel), by decide +kernel⟩

/-- The hypotheses of TattingAndTransfers are met together. -/
theorem witness_TattingAndTransfers_4 : ∃ (n : Nat) (p : Nat) (asid : Nat) (va : Nat) (r : Run) (j : Job) (g : Page) (s : State), s.pillowAlive p = true ∧ (s.pillow p).run = some r ∧ s.job r.ctx = some j ∧ j.pinned = false ∧ j.asid = asid ∧ va < 2 ^ 48 ∧ (∀ e ∈ (s.pillow p).tc, e.covers asid va = false) ∧ s.pageAt asid va = some g ∧ s.ms.poison = [] :=
  ⟨0, 47, 0, 0, run3, jb, gbPage, { onPil 47 jb { run := some run3 } with ms := { (dev 3).ms with pages := [gbPage] } }, by decide +kernel⟩

/-- The hypotheses of TattingAndTransfers are met together. -/
theorem witness_TattingAndTransfers_5 : ∃ (n : Nat) (p : Nat) (asid : Nat) (va : Nat) (e : Ecc) (s : State), (s.pillow p).run = none :=
  ⟨0, 47, 0, 0, .clean, dev 3, by decide +kernel⟩

/-- The hypotheses of Records are met together. -/
theorem witness_Records :
    (∃ (n : Nat) (p : Nat) (c : Nat) (j : Job) (s : State), s.alive = true ∧ s.deadJob p = some (c, j) ∧ s.job c = some j ∧ j.pinned = false ∧ j.figures = none ∧ s.recordRoom p j = true ∧ j.epochs ≠ [] ∧ j.slotTag ≠ 0xFF) ∧
    (∃ (n : Nat) (p : Nat) (w : Work) (j : Job) (b : Bytes) (v : State) (s : State), s.alive = true ∧ s.deadJob p = none ∧ s.recordWork p = some w ∧ w.job.aborting = none ∧ w.run.stop = none ∧ (s.advance n).readPayload w = .ok b v ∧ v.job w.run.ctx = some j ∧ j.figures = none ∧ v.recordRoom p j = true ∧ j.epochs ≠ [] ∧ j.slotTag ≠ 0xFF ∧ j.pinned = false) ∧
    (∃ (n : Nat) (p : Nat) (c : Nat) (j : Job) (s : State), s.alive = true ∧ s.deadJob p = some (c, j) ∧ s.job c = some j ∧ j.figures = none ∧ s.recordRoom p j = false ∧ s.itemRoom p 1 = true ∧ j.epochs ≠ [] ∧ j.slotTag ≠ 0xFF) ∧
    (∃ (n : Nat) (p : Nat) (c : Nat) (j : Job) (s : State), s.alive = true ∧ s.deadJob p = some (c, j) ∧ s.recordRoom p j = false ∧ (j.figures.isSome = true ∨ s.itemRoom p 1 = false)) ∧
    (∃ (n : Nat) (p : Nat) (q : QPacket) (rest : List QPacket) (s : State), s.alive = true ∧ selectPacket (s.queue (3 + p)).vis = some (q, rest) ∧ q.data.length = 16 ∧ q.prio = 0) ∧
    (∃ (n : Nat) (p : Nat) (q : QPacket) (rest : List QPacket) (s : State), s.alive = true ∧ selectPacket (s.queue (3 + p)).vis = some (q, rest) ∧ q.data.length = 16 ∧ q.prio = 1 ∧ s.pk.en = true ∧ s.pk.streams.getLsbD ((q.data.headD 0).toNat % 16) = true ∧ s.pk.buf.length < 1024) ∧
    (∃ (n : Nat) (p : Nat) (q : QPacket) (rest : List QPacket) (s : State), s.alive = true ∧ selectPacket (s.queue (3 + p)).vis = some (q, rest) ∧ q.data.length ≠ 16 ∧ q.tag.getLsbD 22 = true ∧ q.tag.getLsbD 23 = false ∧ (s.service 0).buf.length < 4096) :=
  ⟨⟨0, 47, 3, { jb with dead := true, stages := [(0, { pillow := 47 })] }, onPil 47 { jb with dead := true, stages := [(0, { pillow := 47 })] } {}, by decide +kernel⟩,
   ⟨0, 47, wk 47 jb { run3 with started := true }, jb, [], (onPil 47 jb { run := some { run3 with started := true } }).advance 0, onPil 47 jb { run := some { run3 with started := true } }, by decide +kernel, by decide +kernel, by decide +kernel, rfl, rfl, rfl, rfl, rfl, by decide +kernel, by decide +kernel, by decide +kernel, rfl⟩,
   ⟨0, 47, 3, { jb with dead := true, stages := [(0, { pillow := 47 })] }, (onPil 47 { jb with dead := true, stages := [(0, { pillow := 47 })] } {}).setQueue 50 { vis := List.replicate 31 (qp 16) }, by decide +kernel⟩,
   ⟨0, 47, 3, { jb with dead := true, stages := [(0, { pillow := 47 })] }, (onPil 47 { jb with dead := true, stages := [(0, { pillow := 47 })] } {}).setQueue 50 { vis := List.replicate 64 (qp 16) }, by decide +kernel⟩,
   ⟨0, 47, { qp 16 with prio := 0 }, [], (dev 3).setQueue 50 { vis := [{ qp 16 with prio := 0 }] }, by decide +kernel⟩,
   ⟨0, 47, qp 16, [], { (dev 3).setQueue 50 { vis := [qp 16] } with pk := { (dev 3).pk with en := true, streams := 1 } }, by decide +kernel⟩,
   ⟨0, 47, { qp 24 with tag := 0x40_0000 }, [], (dev 3).setQueue 50 { vis := [{ qp 24 with tag := 0x40_0000 }] }, by decide +kernel⟩⟩

/-- The hypotheses of HostFormsComplete are met together. -/
theorem witness_HostFormsComplete :
    (∃ (n : Nat) (s : State), s.power.nrst = true) ∧
    (∃ (n : Nat) (s : State), s.up = true) ∧
    (∃ (n : Nat) (c : Nat) (s : State), s.up = true ∧ s.therm.tripSince = some c ∧ c + 1_000_000 ≤ max s.now n) ∧
    (∃ (h : Hdr) (addr : BitVec 32) (n : Nat) (s : State), s.accepts Op.regRead (addr.toNat / 2 ^ 16 == 8) = true ∧ regParams addr n = none ∧ s.regGated addr = none) ∧
    (∃ (h : Hdr) (v : BitVec 32) (s : State), s.accepts Op.regWrite false = true) ∧
    (∃ (h : Hdr) (s : State), s.accepts Op.regRead false = true) ∧
    (∃ (h : Hdr) (s : State), s.accepts Op.regRead false = true) ∧
    (∃ (h : Hdr) (key : BitVec 32) (s : State), s.accepts Op.regWrite true = true) ∧
    (∃ (h : Hdr) (s : State), s.accepts Op.regWrite true = true ∧ s.sec.armed = true ∧ s.sec.lock = 1 ∧ s.mgmt.devState ≠ 0 ∧ s.mgmt.devState ≠ 5) ∧
    (∃ (h : Hdr) (mask : BitVec 8) (s : State), s.accepts Op.regWrite true = true ∧ s.sec.armed = true ∧ s.mgmt.devState ≠ 0 ∧ s.mgmt.devState ≠ 5) ∧
    (∃ (h : Hdr) (length : Nat) (s : State), s.accepts Op.fwUpdate false = true ∧ (s.mgmt.devState = 0 ∨ bitsOf 3 2 s.power.straps.toNat = 1 ∨ bitsOf 3 2 s.power.straps.toNat = 2) ∧ s.bulk.xfer = none ∧ s.sec.upd ≠ 3 ∧ s.sec.upd ≠ 4) ∧
    (∃ (h : Hdr) (sigOk : Bool) (x : FwImage) (b : Xfer) (s : State), s.accepts Op.fwUpdate false = true ∧ s.bulk.image = some b ∧ x = fwImageOf sigOk (b.buf.take (b.total.getD 0)) ∧ s.imageFails x = none) ∧
    (∃ (h : Hdr) (s : State), s.accepts Op.fwUpdate false = true ∧ s.bulk.xfer = none ∧ s.bulk.image = none ∧ s.sec.upd = 2) ∧
    (∃ (n : Nat) (s : State), s.up = true ∧ (s.sec.upd = 3 ∨ s.sec.upd = 4)) ∧
    (∃ (h : Hdr) (nonce : Bytes) (s : State), s.accepts Op.attest false = true ∧ nonce.length = 32) ∧
    (∃ (h : Hdr) (offset : Nat) (s : State), s.accepts Op.attest false = true ∧ s.sec.quote ≠ [] ∧ offset < 0x1_0000) ∧
    (∃ (n : Nat) (p : QPacket) (rest : List QPacket) (s : State), s.up = true ∧ s.mgmt.fwStarted = false ∧ s.mgmt.held = [] ∧ selectPacket (s.queue 0).vis = some (p, rest) ∧ (bitOf 3 (numAt 1 1 p.data) = false ∨ s.inHand = false) ∧ checkPacket p.data = none ∧ s.goesFast p.data = true) ∧
    (∃ (h : Hdr) (k : Nat) (n : Nat) (s : State), s.accepts Op.prickLoad false = true ∧ k ≤ 255 ∧ 128 ≤ n ∧ n ≤ 393216 ∧ s.prick k = none ∧ s.storeUsed + n ≤ 0x200_0000 ∧ (s.stored.filter fun x => !x.2.loaded).length < 4) ∧
    (∃ (h : Hdr) (k : Nat) (o : Nat) (b : Bytes) (x : Prick) (s : State), s.accepts Op.prickLoad false = true ∧ k ≤ 255 ∧ o % 16 = 0 ∧ s.prick k = some x ∧ x.loaded = false ∧ o + b.length ≤ x.size) ∧
    (∃ (h : Hdr) (k : Nat) (x : Prick) (s : State), s.accepts Op.prickLoad false = true ∧ k ≤ 255 ∧ s.prick k = some x ∧ x.loaded = false ∧ x.verify = none) ∧
    (∃ (h : Hdr) (k : Nat) (x : Prick) (s : State), s.accepts Op.prickLoad false = true ∧ k ≤ 255 ∧ s.prick k = some x ∧ s.prickUser k = none) ∧
    (∃ (h : Hdr) (a : AdmitParams) (s : State), s.accepts Op.jobAdmit false = true ∧ admitParams a = none ∧ (s.advance h.t).admitCheck a = none ∧ (a.looseOk = true ∨ ∀ q, q ∈ a.mapA ++ a.mapB → (s.pillow q).run = none ∧ (s.pillow q).standby = none ∧ (s.pillow q).saving = none ∧ (s.pillow q).restoring = none ∧ (s.pillow q).readyQ = [])) ∧
    (∃ (n : Nat) (k : Nat) (x : Template) (h : Hdr) (s : State), s.alive = true ∧ s.template k = some x ∧ x.accepted = false ∧ x.hdr = some h ∧ s.acceptWaits x.p = false) ∧
    (∃ (h : Hdr) (k : Nat) (x : Template) (s : State), s.accepts Op.jobAbort false = true ∧ s.template k = some x ∧ x.accepted = true ∧ x.withdrawn = false) ∧
    (∃ (n : Nat) (k : Nat) (x : Template) (h : Hdr) (s : State), s.alive = true ∧ Quiet s ∧ s.template k = some x ∧ x.withdrawn = true ∧ x.hdr = some h ∧ (∀ y ∈ s.liveJobs, y.2.pinned = true → y.2.template ≠ k)) ∧
    (∃ (h : Hdr) (x : SubmitParams) (c : Nat) (l : List Nat) (s : State), s.accepts Op.jobSubmit false = true ∧ submitParams x [] = none ∧ (s.advance h.t).submitCheck Op.jobSubmit x = none ∧ s.freeCtxs 1 = c :: l) ∧
    (∃ (h : Hdr) (x : SubmitParams) (cap : Nat) (mode : Nat) (c : Nat) (l : List Nat) (s : State), s.accepts Op.partialCapture false = true ∧ submitParams x [] = none ∧ cap < 2 ^ 48 ∧ (mode = 1 ∨ mode = 2) ∧ (s.advance h.t).submitCheck Op.partialCapture x = none ∧ (s.advance h.t).replayCheck x cap mode = none ∧ s.freeCtxs 1 = c :: l) ∧
    (∃ (h : Hdr) (c : Nat) (j : Job) (s : State), s.accepts Op.jobAbort false = true ∧ s.job c = some j ∧ j.pinned = false ∧ j.aborting = none ∧ j.dead = false ∧ s.suspendedJob c = false ∧ (∀ e ∈ s.pillows, (∀ r, e.2.run = some r → r.ctx ≠ c) ∧ (∀ v, e.2.saving = some v → v.run.ctx ≠ c) ∧ (∀ v, e.2.restoring = some v → v.run.ctx ≠ c)) ∧ (∀ q ∈ j.pillows, (s.pillow q).run = none ∧ (s.pillow q).standby = none ∧ (s.pillow q).readyQ = [] ∧ ∀ e ∈ (s.pillow q).looseQ, e.1 = c)) ∧
    (∃ (n : Nat) (c : Nat) (p : Nat) (v : Saved) (j : Job) (s : State), s.alive = true ∧ p < 48 ∧ v ∈ (s.pillow p).saves ∧ v.suspended = true ∧ v.run.ctx = c ∧ v.since + s.ms.faultWait * 1_000_000 ≤ max s.now n ∧ (∀ q, q < p → (s.pillow q).saves = []) ∧ s.job c = some j ∧ j.aborting = none ∧ j.result ≠ Status.dataPoisoned) ∧
    (∃ (n : Nat) (s : State), (s.advance n).sdServes = true ∧ s.sdio.card ≠ .inactive) ∧
    (∃ (n : Nat) (s : State), (s.advance n).sdServes = true ∧ (s.sdio.card = .idle ∨ s.sdio.card = .initialised) ∧ s.mgmt.resetAt + 5_000_000 ≤ max s.now n) ∧
    (∃ (n : Nat) (s : State), (s.advance n).sdServes = true ∧ (s.sdio.card = .initialised ∨ s.sdio.card = .standby)) ∧
    (∃ (n : Nat) (s : State), (s.advance n).sdServes = true ∧ s.sdio.card = .standby) ∧
    (∃ (n : Nat) (s : State), (s.advance n).sdServes = true ∧ s.sd18 = true ∧ s.sdio.card = .initialised) ∧
    (∃ (n : Nat) (s : State), (s.advance n).sdServes = true ∧ (s.sdio.card = .standby ∨ s.sdio.card = .selected)) ∧
    (∃ (n : Nat) (s : State), (s.advance n).sdSelected = true ∧ s.sdio.uhs = true) ∧
    (∃ (n : Nat) (v : Byte) (s : State), (s.advance n).sdSelected = true) ∧
    (∃ (n : Nat) (v : Byte) (s : State), (s.advance n).sdFunction 1 = true) ∧
    (∃ (n : Nat) (s : State), (s.advance n).sdFunction 1 = true) ∧
    (∃ (n : Nat) (inCmd : Bool) (s : State), (s.advance n).sdSelected = true) ∧
    (∃ (n : Nat) (x : Xfer) (s : State), (s.advance n).sdServes = true ∧ s.bulk.xfer = some x ∧ (x.kind = 3 ∨ x.kind = 4)) ∧
    (∃ (n : Nat) (d : Bytes) (s : State), (s.advance n).sdFunction 1 = true ∧ 1 ≤ d.length ∧ d.length ≤ 512 ∧ s.sdio.mailbox = none ∧ (s.queue 0).wpart = none ∧ (s.queue 0).fits 0 (mailboxPacket d).items = true) ∧
    (∃ (n : Nat) (p : QPacket) (s : State), s.sdio.mailbox = some p ∧ s.sdio.mbxNext = none ∧ (s.queue 0).wpart = none ∧ (s.queue 0).fits 0 p.items = true) ∧
    (∃ (n : Nat) (k : Nat) (p : QPacket) (rest : List QPacket) (s : State), (s.advance n).sdFunction 1 = true ∧ 1 ≤ k ∧ k ≤ 512 ∧ (s.queue 1).part = none ∧ selectPacket (s.queue 1).vis = some (p, rest) ∧ p.data.length ≤ k) ∧
    (∃ (n : Nat) (d : Bytes) (x : Xfer) (s : State), (s.advance n).sdFunction 2 = true ∧ d.length = 2048 ∧ s.bulk.xfer = some x ∧ (x.kind = 1 ∨ x.kind = 3 ∨ x.kind = 5) ∧ x.full = false ∧ (x.kind = 1 ∨ (x.take d).full = false)) ∧
    (∃ (n : Nat) (x : Xfer) (s : State), (s.advance n).sdFunction 2 = true ∧ s.bulk.xfer = some x ∧ x.kind = 4 ∧ x.ready = true) :=
  ⟨witness_EveryResetKeepsOnly.1,
   witness_EveryResetKeepsOnly.2.1,
   witness_EveryResetKeepsOnly.2.2,
   witness_RegisterAccess.1,
   witness_RegisterAccess.2.2.2.1,
   witness_RegisterAccess.2.2.2.2.2.2.1,
   witness_RegisterAccess.2.2.2.2.2.2.2,
   witness_FuseOperations.1,
   witness_FuseOperations.2.1,
   witness_FuseOperations.2.2.1,
   witness_FirmwareUpdate.1,
   witness_FirmwareUpdate.2.1,
   witness_FirmwareUpdate.2.2.2.2.1,
   witness_FirmwareUpdate.2.2.2.2.2.1,
   witness_Attestation.1,
   witness_Attestation.2.1,
   witness_Dispatcher.1,
   witness_Prickings.1,
   witness_Prickings.2.2.1,
   witness_Prickings.2.2.2.1,
   witness_Prickings.2.2.2.2.2,
   witness_Templates.1,
   witness_Templates.2.2.2.2.1,
   witness_Templates.2.2.2.2.2.1,
   witness_Templates.2.2.2.2.2.2,
   witness_LooseJobs.1,
   witness_LooseJobs.2.2.1,
   witness_LooseJobs.2.2.2.1,
   witness_LooseJobs.2.2.2.2.2.2,
   witness_SdioCard.1,
   witness_SdioCard.2.1,
   witness_SdioCard.2.2.1,
   witness_SdioCard.2.2.2.1,
   witness_SdioCard.2.2.2.2.2.1,
   witness_SdioCard.2.2.2.2.2.2.1,
   witness_SdioCard.2.2.2.2.2.2.2.1,
   witness_SdioCard.2.2.2.2.2.2.2.2.1,
   witness_SdioCard.2.2.2.2.2.2.2.2.2.1,
   witness_SdioCard.2.2.2.2.2.2.2.2.2.2.2.1,
   witness_SdioCard.2.2.2.2.2.2.2.2.2.2.2.2.2.1,
   witness_SdioCard.2.2.2.2.2.2.2.2.2.2.2.2.2.2.2,
   witness_MailboxAndWindow.1,
   witness_MailboxAndWindow.2.2.2.1,
   witness_MailboxAndWindow.2.2.2.2.1,
   witness_FunctionTwoBlocks.1,
   witness_FunctionTwoBlocks.2.2.2.2.2.2⟩

/-- The hypotheses of EventFormsComplete are met together. -/
theorem witness_EventFormsComplete :
    (∃ (n : Nat) (s : State), s.power.nrst = false) ∧
    (∃ (n : Nat) (s : State), (s.mgmt.reset = some .devReset ∧ s.mgmt.resetAt + 10_000 ≤ max s.now n ∨ s.mgmt.reset = some .watchdog ∧ s.mgmt.resetAt + 20_000 ≤ max s.now n)) ∧
    (∃ (n : Nat) (s : State), s.mgmt.reset = some .thermal) ∧
    (∃ (n : Nat) (pkd : BitVec 8) (s : State), s.up = true ∧ s.power.latched = false ∧ s.mgmt.resetAt + 10_000 ≤ max s.now n) ∧
    (∃ (n : Nat) (s : State), s.up = true ∧ s.mgmt.devState = 0 ∧ s.mgmt.pllLocked = false) ∧
    (∃ (n : Nat) (flash : FlashRead) (x : FwImage) (s : State), s.up = true ∧ s.mgmt.devState = 0 ∧ s.mgmt.romMarchOk = true ∧ s.mgmt.fwStarted = false ∧ s.sec.updImage = some x) ∧
    (∃ (n : Nat) (s : State), s.up = true ∧ s.mgmt.devState = 0 ∧ s.mgmt.fwStarted = true) ∧
    (∃ (n : Nat) (i : TapIns) (s : State), s.tapActs i = true) ∧
    (∃ (n : Nat) (device : BitVec 64) (challenge : BitVec 256) (key : Nat) (sigOk : Bool) (s : State), s.up = true ∧ s.sec.lock ≠ 0) ∧
    (∃ (n : Nat) (a : Bool) (b : Bool) (s : State), s.up = true ∧ s.tb.encEn = true ∧ s.tb.los = 0 ∧ (s.tb.encA = a ↔ ¬ s.tb.encB = b) ∧ (aLeads s.tb.encA s.tb.encB a b != s.tb.dirInv) = true ∧ s.tb.num ≤ s.tb.acc + s.tb.den ∧ s.tb.wp + 1 ≤ s.tb.hwm) ∧
    (∃ (n : Nat) (pairs : BitVec 3) (s : State), s.up = true ∧ s.tb.los = 0 ∧ pairs ≠ 0) ∧
    (∃ (n : Nat) (s : State), s.up = true) ∧
    (∃ (n : Nat) (s : State), s.up = true ∧ s.tb.stall = false ∧ max s.mgmt.resetAt s.tb.stallBase + 1_000_000 ≤ max s.now n) ∧
    (∃ (n : Nat) (s : State), s.up = true ∧ s.tb.encEn = true ∧ s.tb.los = 0 ∧ s.tb.sheetSrc = 2) ∧
    (∃ (n : Nat) (k : Nat) (s : State), s.alive = true ∧ (s.pin k).role = 2 ∧ (s.pin k).level = false) ∧
    (∃ (n : Nat) (k : Nat) (e : Nat) (s : State), s.alive = true ∧ (s.pin k).pulse = some e ∧ e ≤ max s.now n) ∧
    (∃ (n : Nat) (p : Nat) (c : Nat) (k : Nat) (j : Job) (s : State), s.alive = true ∧ s.job c = some j ∧ j.pinned = true ∧ j.dead = false ∧ (j.stage k).phase = .waiting ∧ (j.stage k).pillow = p ∧ (j.stage k).readyAt ≤ max s.now n) ∧
    (∃ (n : Nat) (p : Nat) (v : Saved) (w : Work) (s : State), s.alive = true ∧ (s.pillow p).saving = some v ∧ s.workOf p v.run = some w) ∧
    (∃ (n : Nat) (p : Nat) (v : Saved) (j : Job) (s : State), s.alive = true ∧ (s.pillow p).restoring = some v ∧ (∀ w, s.workOf p v.run = some w → ∀ x ∈ w.saveImage v.suspended, s.poisonIn (slotAddr p v.slot + x.1) x.2.length = none) ∧ s.ms.errs = [] ∧ s.job v.run.ctx = some j ∧ j.aborting = none ∧ j.pinned = false ∧ (s.pillow p).run = none ∧ (s.pillow p).standby = none ∧ (s.pillow p).readyQ = [] ∧ (s.pillow p).looseEn = true ∧ s.therm.step < 2) ∧
    (∃ (n : Nat) (p : Nat) (r : Run) (w : Work) (s : State), s.alive = true ∧ (s.advance n).settlePillows [p] = s.advance n ∧ (s.pillow p).run = some r ∧ s.workOf p r = some w ∧ r.waitFence = true ∧ r.stop = none ∧ w.op.count ≤ w.job.fence (fenceKey p w.op.fence)) ∧
    (∃ (n : Nat) (p : Nat) (r : Run) (x : Nat × Int × Bool) (j : Job) (s : State), s.alive = true ∧ (s.advance n).settlePillows [p] = s.advance n ∧ (s.pillow p).run = some r ∧ r.waitWin = some x ∧ s.job r.ctx = some j ∧ s.lineReady p j x = true) ∧
    (∃ (n : Nat) (p : Nat) (r : Run) (w : Work) (pos : List Nat × Nat) (b : Bytes) (v : State) (s : State), s.pillowAlive p = true ∧ (s.pillow p).run = some r ∧ s.workOf p r = some w ∧ r.next = some pos ∧ w.op.kind = kXbar ∧ r.started = true ∧ r.waitWin = none ∧ r.stop = none ∧ r.hasRoom pos = true ∧ w.badTile pos.1 = none ∧ (s.advance n).readToken w 0 (w.prk.qdesc w.op.qdesc).esize pos.1 pos.2 (w.kOf pos.1) = .ok b v) ∧
    (∃ (n : Nat) (p : Nat) (r : Run) (w : Work) (k : StagedTok) (rest : List StagedTok) (d : Drive) (b : Nat) (o : PassOut) (x : Bobbin) (e : Nat) (s : State), s.pillowAlive p = true ∧ (s.pillow p).run = some r ∧ s.workOf p r = some w ∧ w.op.kind = kXbar ∧ r.stop = none ∧ r.staged = k :: rest ∧ k.degen = none ∧ w.job.capMode ≠ 2 ∧ w.drives k.idx = [d] ∧ (∀ q, (s.bobbin p q).stageErrs = []) ∧ d.wave = r.wave ∧ (w.prk.qdesc w.op.qdesc).a4 = false ∧ d.tile.a4 = false ∧ r.low = false ∧ r.attempt = 0 ∧ (s.advance n).stagePoisoned w k (waveCount [d]) [d] = false ∧ (s.advance n).canPass p d.tile w.job.sheet = true ∧ b = (s.advance n).routeOf p d.tile.logical w.job.sheet ∧ (s.bobbin p b).state ≠ 3 ∧ (s.bobbin p b).work s.trim w.job.sheet (nibbles false false ((s.bobbin p b).staged (stageAt k.half (k.tok * waveCount [d] + d.wave)) d.rows)) (min 3 d.tile.rangeH) (min 3 d.tile.rangeL) [] = (e, o, x) ∧ x.passFails = false) ∧
    (∃ (n : Nat) (p : Nat) (r : Run) (w : Work) (v : EpiVec) (rest : List EpiVec) (sp : List (Nat × Bytes)) (l : List (Nat × Nat)) (y : State) (s : State), s.pillowAlive p = true ∧ (s.pillow p).run = some r ∧ s.workOf p r = some w ∧ w.op.kind = kXbar ∧ r.stop = none ∧ r.epi = v :: rest ∧ s.spillsReady w v = true ∧ v.caps = none ∧ v.masked = false ∧ w.op.parts = 1 ∧ ((s.advance n).edescOf w).spill = true ∧ ((s.advance n).edescOf w).narrow = false ∧ v.vals ≠ [] ∧ v.vals.length = (w.columns v.idx).length ∧ (∀ c ∈ w.columns v.idx, w.live v c = true) ∧ w.op.o.windowed = false ∧ sp = spansOf (((w.columns v.idx).zip v.vals).map fun x => (x.1, leBytes 8 (ofSigned 64 x.2))) ∧ writePages w 1 false (sp.flatMap fun x => vaPieces (vaOf ((w.address w.op.o Level.strO v.idx v.tok).1 + ((x.1 * 8 : Nat) : Int))) x.2.length) (s.advance n) = (.ok l, y)) ∧
    (∃ (n : Nat) (p : Nat) (r : Run) (w : Work) (idx : List Nat) (tok : Nat) (ab : Bytes) (eb : Bytes) (out : Bytes) (l : List (Nat × Nat)) (v : State) (x : State) (y : State) (s : State), s.pillowAlive p = true ∧ (s.pillow p).run = some r ∧ s.workOf p r = some w ∧ w.op.kind = kTat ∧ r.started = true ∧ r.waitWin = none ∧ r.stop = none ∧ r.next = some (idx, tok) ∧ w.op.arg ≤ 3 ∧ r.tatPos + 1 < w.op.tatPieces ∧ readPiece w (w.prk.qdesc w.op.qdesc).esize idx tok 65 (w.op.tatPiece r.tatPos).1 (w.op.tatPiece r.tatPos).2 (s.advance n) = .ok ab v ∧ v.pieceE w (w.prk.qdesc w.op.qdesc).esize idx tok (w.op.tatPiece r.tatPos).1 (w.op.tatPiece r.tatPos).2 = .ok eb x ∧ w.maskedTok idx tok = false ∧ w.op.o.windowed = false ∧ out = ((vectorInstr w (w.prk.qdesc w.op.qdesc).inFmt (w.op.tatPiece r.tatPos).2 ((s.advance n).edescOf w) ab eb).out.map (tatOutput ((s.advance n).edescOf w) (x.actOf w ((s.advance n).edescOf w)))).flatMap OutElem.bytes ∧ (vectorInstr w (w.prk.qdesc w.op.qdesc).inFmt (w.op.tatPiece r.tatPos).2 ((s.advance n).edescOf w) ab eb).out ≠ [] ∧ writePages w 2 false (vaPieces (vaOf ((w.address w.op.o Level.strO idx tok).1 + ((w.op.tatOut r.tatPos * ((s.advance n).edescOf w).outSize : Nat) : Int))) out.length) x = (.ok l, y)) ∧
    (∃ (n : Nat) (p : Nat) (i : Nat) (sa : Nat) (pa : Nat) (r : Run) (w : Work) (wx : Work) (x : DmaXfer) (v : State) (y : State) (s : State), s.pillowAlive p = true ∧ (s.pillow p).run = some r ∧ s.workOf p r = some w ∧ r.stop = none ∧ (r.dma.drop i).head? = some x ∧ s.turnOf w = some i ∧ wx = w.ofXfer x ∧ (r.waitWin = none ∨ (w.op.kind ≠ kDma ∧ r.op < w.prk.nOps)) ∧ (s.advance n).reachRead wx wx.op.a (wx.burstEnds x).1.1 (wx.burstEnds x).1.2 = (.place sa, v) ∧ v.burstTarget wx x = (.ok [pa], y) ∧ y.poisonIn sa (s.burstLen wx x) = none ∧ s.ms.errs = [] ∧ (s.advance n).cycleWrites = []) ∧
    (∃ (n : Nat) (p : Nat) (r : Run) (w : Work) (b : Bytes) (j : Job) (v : State) (s : State), s.pillowAlive p = true ∧ (s.pillow p).run = some r ∧ s.workOf p r = some w ∧ w.op.kind = kSetlen ∧ r.started = true ∧ r.waitWin = none ∧ r.stop = none ∧ w.op.arg < 4 ∧ (s.advance n).readOpnd w 1 w.op.a (w.address w.op.a Level.strA [] 0).1 (w.address w.op.a Level.strA [] 0).2 4 = .ok b v ∧ v.job r.ctx = some j) ∧
    (∃ (n : Nat) (p : Nat) (asid : Nat) (va : Nat) (r : Run) (j : Job) (g : Page) (s : State), s.pillowAlive p = true ∧ (s.pillow p).run = some r ∧ s.job r.ctx = some j ∧ j.pinned = false ∧ j.asid = asid ∧ va < 2 ^ 48 ∧ (∀ e ∈ (s.pillow p).tc, e.covers asid va = false) ∧ s.pageAt asid va = some g ∧ s.ms.poison = []) ∧
    (∃ (n : Nat) (p : Nat) (c : Nat) (j : Job) (s : State), s.alive = true ∧ s.deadJob p = some (c, j) ∧ s.job c = some j ∧ j.pinned = false ∧ j.figures = none ∧ s.recordRoom p j = true ∧ j.epochs ≠ [] ∧ j.slotTag ≠ 0xFF) ∧
    (∃ (n : Nat) (p : Nat) (q : QPacket) (rest : List QPacket) (s : State), s.alive = true ∧ selectPacket (s.queue (3 + p)).vis = some (q, rest) ∧ q.data.length = 16 ∧ q.prio = 1 ∧ s.pk.en = true ∧ s.pk.streams.getLsbD ((q.data.headD 0).toNat % 16) = true ∧ s.pk.buf.length < 1024) ∧
    (∃ (k : Nat) (p : Nat) (n : Nat) (f : Bytes) (b : Bytes) (s : State), p < 16 ∧ s.portUp p = true ∧ s.lineFrame p f = some (n, b) ∧ (s.stream n).badHeader n b = false ∧ (s.stream n).lineOf (numAt 8 4 b) = (s.stream n).next ∧ numAt 0x0C 4 b = 0 ∧ numAt 0x10 2 b = (s.stream n).pitch ∧ (s.stream n).inProg = [] ∧ (∀ l ∈ (s.stream n).landed, l.1 % max 1 (s.stream n).depth ≠ (s.stream n).next % max 1 (s.stream n).depth) ∧ (s.stream n).base + (s.stream n).depth * (s.stream n).pitch ≤ 0x200_0000 ∧ (s.stream n).depth ≠ 0) ∧
    (∃ (k : Nat) (p : Nat) (f : Bytes) (mac : Bytes) (ip : Bytes) (s : State), 16 ≤ p ∧ p ≤ 17 ∧ s.portUp p = true ∧ arpFor (s.port p).ipv4 (ethOf f).rest = some (mac, ip) ∧ sizeOk f = true ∧ ((ethOf f).dst = (s.port p).mac ∨ (ethOf f).dst = List.replicate 6 0xFF) ∧ (s.port p).tagOk (ethOf f) = true ∧ (ethOf f).etype = 0x0806 ∧ (s.service (p - 16)).sending = true ∧ (s.service (p - 16)).pendingList = none) ∧
    (∃ (k : Nat) (p : Nat) (f : Bytes) (b : Bytes) (x : IpPacket) (s : State), 16 ≤ p ∧ p ≤ 17 ∧ s.portUp p = true ∧ (s.port p).ipFor f = some x ∧ x.dst = (s.port p).ipv4 ∧ x.proto = 1 ∧ echoOf x.body = some b ∧ (((s.port p).icmp.filter fun u => decide (max s.now k < u + 10 ^ 9)).length < 100) ∧ (s.service (p - 16)).sending = true ∧ (s.service (p - 16)).pendingList = none) ∧
    (∃ (k : Nat) (p : Nat) (va : Nat) (n : Nat) (f : Bytes) (d : Datagram) (g : Page) (s : State), 16 ≤ p ∧ p ≤ 17 ∧ s.portUp p = true ∧ (s.port p).udpFor f = some d ∧ d.dstPort = (s.service (p - 16)).rasterUdp ∧ rasterOk d.data = true ∧ n = numAt 0x0E 2 d.data ∧ va = (s.service (p - 16)).intakeBase + numAt 8 6 d.data ∧ numAt 8 6 d.data + n ≤ (s.service (p - 16)).intakeSize ∧ va / 65536 = (va + n - 1) / 65536 ∧ s.pageAt (s.service (p - 16)).asid va = some g ∧ g.w = true ∧ g.pin = true ∧ va + n ≤ g.va + pageBytes g.big ∧ s.marchAt (g.physical va) = false ∧ (s.advance k).cycleWrites = [] ∧ bitOf 0 (numAt 3 1 d.data) = false ∧ (s.service (p - 16)).raster = some (BitVec.ofNat 32 (numAt 4 4 d.data))) ∧
    (∃ (k : Nat) (p : Nat) (o : Int) (f : Bytes) (m : PtpMsg) (s : State), 16 ≤ p ∧ p ≤ 17 ∧ s.portUp p = true ∧ (s.port p).ptpFor f = some m ∧ m.domain = (s.service (p - 16)).domain ∧ m.body = .sync true o ∧ (s.ptpPort (p - 16)).state = 1 ∧ m.source = (s.ptpPort (p - 16)).source) ∧
    (∃ (k : Nat) (p : Nat) (q : Nat) (s : State), 16 ≤ p ∧ p ≤ 17 ∧ s.portUp p = true ∧ (s.ptpPort (p - 16)).state = 1 ∧ (∀ u ∈ s.ptp.lastReq, u + s.ptp.reqNs ≤ max s.now k) ∧ q = (s.ptp.reqSeq + 1) % 65536 ∧ (s.service (p - 16)).sending = true ∧ (s.service (p - 16)).pendingList = none) ∧
    (∃ (k : Nat) (s : State), s.up = true ∧ s.ptp.lock = true ∧ s.ptp.lastSync + 3 * s.ptp.interval ≤ max s.now k) ∧
    (∃ (k : Nat) (gm : BitVec 64) (rank : Nat) (s : State), s.up = true ∧ (s.ptpPort 0).state = 1 ∧ (s.ptpPort 1).state = 2 ∧ (s.ptpPort 1).master = some (gm, rank)) ∧
    (∃ (k : Nat) (sp : Nat) (s : State), s.alive = true ∧ (s.service sp).sending = true ∧ (s.service sp).replies = [] ∧ (s.service sp).buf = [] ∧ (s.service sp).pendingList = none) ∧
    (∃ (k : Nat) (sp : Nat) (c : Nat) (s : State), s.portUp (16 + sp) = true ∧ sp < 2 ∧ (s.service sp).sending = false ∧ (s.service sp).pendingList = none ∧ (s.service sp).replies = [] ∧ c ≤ 7 ∧ (s.advance k).mayStart sp c = true ∧ (∀ d, c < d → d ≤ 7 → (s.advance k).mayStart sp d = false)) ∧
    (∃ (n : Nat) (p : Nat) (b : Nat) (cs : SparseInt) (zs : SparseInt) (s : State), s.calServes = true ∧ s.calBobbin p b = true ∧ ((s.bobbin p b).state ≠ 0 ∨ ((s.bobbin p b).calPass s.trim s.sheets.sheet cs zs).passFails = false) ∧ (s.pillow p).run = none ∧ s.therm.step < 3) ∧
    (∃ (n : Nat) (p : Nat) (b : Nat) (g : Nat) (c : Nat) (s : State), s.calServes = true ∧ s.calBobbin p b = true ∧ g < 8 ∧ tget (fun _ => 0) (s.bobbin p b).dwell g + 1024 ≤ (s.bobbin p b).made ∧ c = 33 * g + ((s.bobbin p b).uOf g).1) ∧
    (∃ (n : Nat) (p : Nat) (b : Nat) (ms : List Int) (s : State), s.calServes = true ∧ s.calBobbin p b = true ∧ (s.bobbin p b).programmed = true ∧ (∀ l, l < 16 → 4096 ≤ tget (fun _ => 0) (s.bobbin p b).scanN l) ∧ ms = (s.bobbin p b).scanLevels ∧ (s.bobbin p b).base = [] ∧ (s.bobbin p b).scans.length = 3) ∧
    (∃ (n : Nat) (dev : Int) (s : State), (s.advance n).sealDue = true ∧ s.therm.step < 2 ∧ dev.natAbs ≤ 50 ∧ s.tb.sheetSrc ≠ 0) ∧
    (∃ (n : Nat) (p : Nat) (l : Nat) (b : Bobbin) (s : State), s.alive = true ∧ l < 16 ∧ s.wt.ageH ≠ 0 ∧ s.bobbin p ((s.pillow p).physOf l) = b ∧ b.progTime + s.wt.ageH * 3_600_000_000_000 < max s.now n ∧ b.state = 0 ∧ (s.slot b.slot).state = 3 ∧ (∀ r ∈ (s.pillow p).refresh, r.logical ≠ l)) ∧
    (∃ (n : Nat) (p : Nat) (sp : Nat) (q : RefreshReq) (g : Target) (b : Bobbin) (s : State), s.alive = true ∧ s.inService p = true ∧ s.trim.calDone = true ∧ s.power.pwrgd = true ∧ s.ms.errs = [] ∧ s.trim.cal = none ∧ s.therm.step = 0 ∧ (s.pillow p).spare = some sp ∧ (s.bobbin p sp).state = 1 ∧ (s.pillow p).refreshing = none ∧ (s.pillow p).refresh = [q] ∧ s.refreshable p q = true ∧ b = s.bobbin p ((s.pillow p).physOf q.logical) ∧ (s.slot b.slot).targetOf p q.logical = some g ∧ (s.bundle (s.slot b.slot).handle).state = 2 ∧ (∀ i ∈ g.shards, s.shardFault (s.bundle (s.slot b.slot).handle) i = none)) ∧
    (∃ (n : Nat) (p : Nat) (q : ProgReq) (rest : List ProgReq) (s : State), s.alive = true ∧ s.power.pwrgd = true ∧ (s.pillow p).progs = q :: rest ∧ q.started = false ∧ q ∉ rest ∧ rest.countP (·.started) < 4 ∧ (∀ r ∈ rest, r.started = true → r.bobbin ≠ q.bobbin) ∧ (s.bundle q.handle).state = 2) ∧
    (∃ (n : Nat) (p : Nat) (u : Nat) (q : ProgReq) (m : Nat) (s : State), (s.pillow p).progs = [q] ∧ q.started = true ∧ q.stopped = false ∧ q.cut = false ∧ q.forSlot = some m ∧ s.ms.errs = [] ∧ s.poisonedRow q = none ∧ (s.bundle q.handle).state = 2) :=
  ⟨witness_ResetEnds.1,
   witness_ResetEnds.2.1,
   witness_ResetEnds.2.2.1,
   witness_ResetEnds.2.2.2,
   witness_BootSequence.1,
   witness_BootSequence.2.2.1,
   witness_BootSequence.2.2.2.2,
   witness_TestAccessPort.1,
   witness_TestAccessPort.2.2.2.1,
   witness_WebPosition.2.1,
   witness_EncoderAndPins.1,
   witness_EncoderAndPins.2.2.1,
   witness_EncoderAndPins.2.2.2.1,
   witness_EncoderAndPins.2.2.2.2.1,
   witness_EncoderAndPins.2.2.2.2.2.1,
   witness_EncoderAndPins.2.2.2.2.2.2.2,
   witness_Stages.1,
   witness_Stages.2.1,
   witness_Stages.2.2.1,
   witness_Stages.2.2.2.2.2.1,
   witness_Stages.2.2.2.2.2.2,
   witness_CrossbarPath_0,
   witness_CrossbarPath_1,
   witness_CrossbarPath_3,
   witness_TattingAndTransfers_0,
   witness_TattingAndTransfers_2,
   witness_TattingAndTransfers_3,
   witness_TattingAndTransfers_4,
   witness_Records.1,
   witness_Records.2.2.2.2.2.1,
   witness_Streams.2.2.2.2.2.2.2.1,
   witness_ServiceFrames.1,
   witness_ServiceFrames.2.2.1,
   witness_ServiceFrames.2.2.2.2.1,
   witness_PrecisionTime.2.2.1,
   witness_PrecisionTime.2.2.2.2.2.1,
   witness_PrecisionTime.2.2.2.2.2.2.1,
   witness_PrecisionTime.2.2.2.2.2.2.2,
   witness_Egress.1,
   witness_Egress.2.1,
   witness_CalibrationInService.1,
   witness_CalibrationInService.2.1,
   witness_CalibrationInService.2.2.1,
   witness_CalibrationInService.2.2.2.1,
   witness_BobbinProgramming.1,
   witness_BobbinProgramming.2.1,
   witness_BobbinProgramming.2.2.2.2.1,
   witness_BobbinProgramming.2.2.2.2.2.1⟩

end Sys2Proof.Tests
end

section
/-! PROOF. O36: REG_READ, REG_WRITE and the reads that freeze a snapshot (R8 to R11, R32, R419, R420, R467, R511). -/

namespace Sys2Proof.Machine

/-! ## The checks of a command -/

@[simp] theorem require_eq_none (b : Bool) (r : Reject) : require b r = none ↔ b = true := by
  cases b <;> simp [require]

@[simp] theorem firstOf_cons_eq_none (c : Option Reject) (l : List (Option Reject)) :
    firstOf (c :: l) = none ↔ c = none ∧ firstOf l = none := by
  cases c <;> simp [firstOf]

/-- A command whose own check fails is refused with that check's answer (R404). -/
theorem hostCommand_refused {h : Hdr} {op form : Nat} {sec : Bool} {params : Option Reject}
    {own : State → Option Reject} {eff : State → State} {s : State} {r : Reject} (hp : params = none)
    (ha : s.accepts op sec = true) (ho : own (s.advance h.t) = some r) :
    hostCommand h op form sec params own eff s = .next ((s.advance h.t).refuse h op form r) := by
  simp [hostCommand, firstOf, require, State.accepts_advance, hp, ha, ho]

/-- The addresses and counts that R419 and R420 admit. -/
theorem regParams_eq_none {addr : BitVec 32} {n : Nat} :
    regParams addr n = none ↔
      knownBlock (addr.toNat / 2 ^ 16) = true ∧ bitsOf 12 4 addr.toNat = 0 ∧ addr.toNat % 4 = 0
        ∧ 1 ≤ n ∧ n ≤ 124 ∧ addr.toNat % 4096 + 4 * n ≤ 4096 := by
  rw [regParams, firstOf_cons_eq_none, firstOf_cons_eq_none, require_eq_none, require_eq_none]
  simp only [inRange, firstOf, Bool.and_eq_true, beq_iff_eq, decide_eq_true_eq, and_true, and_assoc]

/-! ## Registers of one block -/

@[simp] theorem length_leBytes (n v : Nat) : (leBytes n v).length = n := by
  induction n generalizing v with
  | zero => rfl
  | succ n ih => simp [leBytes, ih]

/-- Four bytes a register (R420). -/
theorem State.readRegs_length (b o n : Nat) (s : State) : (s.readRegs b o n).1.length = 4 * n := by
  induction n generalizing o s with
  | zero => rfl
  | succ n ih => simp only [State.readRegs, List.length_append, length_leBytes, ih]; omega

theorem State.readRegs_one (b o : Nat) (s : State) :
    s.readRegs b o 1 = (leBytes 4 (s.regValue b o), s.regClear b o) := by
  simp [State.readRegs]

/-- The map of block TB ends before 0x500 (R10, R32). -/
theorem State.tbValue_unmapped {o : Nat} (ho : 0x500 ≤ o) (s : State) : s.tbValue o = 0 := by
  unfold State.tbValue
  split
  any_goals omega
  exact if_neg (by simp [inRange]; omega)

/-- A read of an offset past the map of block TB clears nothing. -/
theorem State.tbClear_unmapped {o : Nat} (ho : 0x500 ≤ o) (s : State) : s.tbClear o = s := by
  unfold State.tbClear
  split
  any_goals omega
  rfl

/-- A W1C bit clears where the word written has a 1 (R9). -/
theorem w1c_toNat (v : BitVec 32) (i : Nat) (b : Bool) : w1c v.toNat i b = (b && !v.getLsbD i) := by
  simp [w1c, bitOf, BitVec.getLsbD, Nat.testBit_eq_decide_div_mod_eq, beq_eq_decide]

theorem State.tbPut_status (v : BitVec 32) (s : State) :
    s.tbPut 0x00C v.toNat = { s with tb := { s.tb with
      encIllegal := s.tb.encIllegal && !v.getLsbD 4
      sheetOld := s.tb.sheetOld && !v.getLsbD 5
      overspeedSeen := s.tb.overspeedSeen && !v.getLsbD 6 } } := by
  simp only [← w1c_toNat]; rfl

/-! ## REG_READ -/

/-- A REG_READ that passes its checks answers the registers and clears what reading them clears (R420). -/
theorem regRead_answers {h : Hdr} {addr : BitVec 32} {n : Nat} {s : State}
    (ha : s.accepts Op.regRead (addr.toNat / 2 ^ 16 == 8) = true) (hp : regParams addr n = none)
    (hg : s.regGated addr = none) :
    Answers (.regRead h addr n) h Op.regRead
      (fun s => (s.readRegs (addr.toNat / 2 ^ 16) (addr.toNat % 4096) n).1)
      (fun s => (s.readRegs (addr.toNat / 2 ^ 16) (addr.toNat % 4096) n).2) s := by
  refine Answers.of_done (form := 0) ?_
  rw [exec_regRead, execRegRead]
  exact hostCommand_accepted hp ha hg

/-- TB_WP_LO_READ answers TB_WP_LO as it stands and freezes the snapshot that is shown (R32). -/
theorem tbWpLoRead_answers {h : Hdr} {s : State} (ha : s.accepts Op.regRead false = true) :
    Answers (.tbWpLoRead h) h Op.regRead (fun s => leBytes 4 (s.tbValue 0x010)) (fun s => s.tbClear 0x010) s := by
  refine Answers.of_done (form := 0) ?_
  rw [exec_tbWpLoRead, execTbWpLoRead]
  exact hostCommand_accepted rfl ha rfl

/-- PK_PICK0_READ answers PK_PICK0 as it stands and freezes the pick-up that is shown (R467). -/
theorem pkPick0Read_answers {h : Hdr} {s : State} (ha : s.accepts Op.regRead false = true) :
    Answers (.pkPick0Read h) h Op.regRead (fun s => leBytes 4 (s.pkValue 0x018)) (fun s => s.pkClear 0x018) s := by
  refine Answers.of_done (form := 0) ?_
  rw [exec_pkPick0Read, execPkPick0Read]
  exact hostCommand_accepted rfl ha rfl

/-! ## Block TB -/

/-- The address of a register of block TB, taken apart (R419). -/
theorem tbAddr_parts {addr : BitVec 32} {o : Nat} (hadr : addr.toNat = 0x10000 + o) (hlt : o < 4096) :
    addr.toNat / 2 ^ 16 = 1 ∧ addr.toNat % 4096 = o := by omega

theorem tbAddr_params {addr : BitVec 32} {o : Nat} (hadr : addr.toNat = 0x10000 + o) (ho : o % 4 = 0)
    (hlt : o < 4096) : regParams addr 1 = none := by
  obtain ⟨hblk, hofs⟩ := tbAddr_parts hadr hlt
  rw [regParams_eq_none, hblk, hofs, bitsOf]
  exact ⟨rfl, by omega, by omega, by omega, by omega, by omega⟩

/-- Block TB belongs to no pillow and is never gated. -/
theorem tbAddr_notGated {addr : BitVec 32} (hblk : addr.toNat / 2 ^ 16 = 1) (s : State) :
    s.regGated addr = none := by
  rw [State.regGated, hblk]; rfl

/-- A REG_READ of one register of block TB. -/
theorem tbRead_answers {h : Hdr} {addr : BitVec 32} {o : Nat} {s : State} (ha : s.accepts Op.regRead false = true)
    (hadr : addr.toNat = 0x10000 + o) (ho : o % 4 = 0) (hlt : o < 4096) :
    Answers (.regRead h addr 1) h Op.regRead (fun s => leBytes 4 (s.tbValue o)) (fun s => s.tbClear o) s := by
  obtain ⟨hblk, hofs⟩ := tbAddr_parts hadr hlt
  have := regRead_answers (h := h) (by rwa [hblk]) (tbAddr_params hadr ho hlt) (tbAddr_notGated hblk s)
  simp only [hblk, hofs, State.readRegs_one] at this
  exact this

/-- A REG_WRITE of one register of block TB, which disarms SEC_OP (R511). -/
theorem tbWrite_answers {h : Hdr} {addr : BitVec 32} {o : Nat} {s : State} (v : BitVec 32)
    (ha : s.accepts Op.regWrite false = true) (hadr : addr.toNat = 0x10000 + o) (ho : o % 4 = 0) (hlt : o < 4096) :
    Answers (.regWrite h addr [v]) h Op.regWrite (fun _ => []) (fun s => s.disarm.tbPut o v.toNat) s := by
  obtain ⟨hblk, hofs⟩ := tbAddr_parts hadr hlt
  refine Answers.of_done (form := 0) ?_
  rw [exec_regWrite, execRegWrite, hblk, hofs]
  exact hostCommand_accepted (tbAddr_params hadr ho hlt) ha (by rw [tbAddr_notGated hblk]; rfl)

/-! ## Blocks PIL.nn -/

/-- A block code from 0x100 on that the parameter check admits is a pillow's (R419). -/
theorem blockPillow_of_regParams {addr : BitVec 32} {n p : Nat} (hp : regParams addr n = none)
    (hblk : addr.toNat / 2 ^ 16 = 0x100 + p) : blockPillow (0x100 + p) = some p := by
  obtain ⟨hknown, -⟩ := regParams_eq_none.mp hp
  have hlast : p ≤ 47 := by
    rw [hblk] at hknown
    by_contra hpast
    simp [knownBlock, blockPillow, inRange] at hknown
    omega
  have hin : inRange 0x100 (0x100 + p) 0x12F = true := by simp [inRange]; omega
  simp [blockPillow, hin]

theorem State.regGated_of_pillowOff {addr : BitVec 32} {p : Nat} {s : State}
    (hpil : blockPillow (addr.toNat / 2 ^ 16) = some p) (hoff : s.pillowOn p = false) :
    s.regGated addr = some stateRefused := by
  rw [State.regGated, hpil, Option.all_some, hoff]
  rfl

/-- A REG_WRITE to a block of a gated pillow is refused (R420). -/
theorem regWrite_gated_refused {h : Hdr} {addr : BitVec 32} {vals : List (BitVec 32)} {p : Nat} {s : State}
    (ha : s.accepts Op.regWrite false = true) (hp : regParams addr vals.length = none)
    (hblk : addr.toNat / 2 ^ 16 = 0x100 + p) (hoff : s.pillowOn p = false) :
    Refuses (.regWrite h addr vals) h Op.regWrite stateRefused s := by
  have hgate : (s.advance h.t).regGated addr = some stateRefused :=
    State.regGated_of_pillowOff (s := s.advance h.t) (hblk ▸ blockPillow_of_regParams hp hblk) hoff
  have hsec : (addr.toNat / 2 ^ 16 == 8) = false := by simp; omega
  refine Refuses.of_refuse (form := 0) ?_
  rw [exec_regWrite, execRegWrite, hsec]
  exact hostCommand_refused hp ha (by rw [hgate]; rfl)

/-! ## The obligation -/

/-- Settles O36: the TB clauses are `tbRead_answers` and `tbWrite_answers` with what each register reads, clears and
takes. -/
theorem registerAccess : Obligations.RegisterAccess := by
  unfold Obligations.RegisterAccess
  refine ⟨fun h addr n s ha hp hg => ⟨State.readRegs_length _ _ _ _, regRead_answers ha hp hg⟩,
    fun h o s ha ho hlo hlt => ?unmapped, fun h s ha => ?illegal, fun h v s ha => ?status,
    fun h v s ha => ?readOnly, fun h addr vals p s ha hp hblk hoff => regWrite_gated_refused ha hp hblk hoff,
    fun h s ha => ?wpLo, fun h s ha => ?pick0⟩
  case unmapped =>
    have hadr : (BitVec.ofNat 32 (0x10000 + o)).toNat = 0x10000 + o := by
      rw [BitVec.toNat_ofNat]; omega
    have := tbRead_answers (h := h) ha hadr ho hlt
    simp only [State.tbValue_unmapped hlo, State.tbClear_unmapped hlo] at this
    exact this
  case illegal => exact tbRead_answers (o := 0x03C) ha rfl rfl (by decide)
  case status =>
    have := tbWrite_answers (h := h) (addr := 0x1000C) (o := 0x00C) v ha rfl rfl (by decide)
    simp only [State.tbPut_status] at this
    exact this
  case readOnly => exact tbWrite_answers (o := 0x010) v ha rfl rfl (by decide)
  case wpLo => exact tbWpLoRead_answers ha
  case pick0 => exact pkPick0Read_answers ha

end Sys2Proof.Machine
end

section
/-! PROOF. O2: every command and event answers a next state at its own device time (R21, R404). -/

namespace Sys2Proof.Machine

/-- An outcome is a next state of s at device time t, and the queue of waiting commands is as it was. -/
def AnswersAt (t : Nat) (s : State) (o : Out) : Prop :=
  ∃ u, o = .next u ∧ u.pending = s.pending ∧ u.now = max s.now t

/-- A meaning's own law says more than `AnswersAt`. -/
theorem answersAt_of_next {t : Nat} {s : State} {o : Out} {more : State → Prop}
    (h : ∃ u, o = .next u ∧ u.pending = s.pending ∧ u.now = max s.now t ∧ more u) : AnswersAt t s o := by
  obtain ⟨u, hnext, hpending, hnow, -⟩ := h
  exact ⟨u, hnext, hpending, hnow⟩

/-- Every form answers at its own device time: each by the law of its meaning. -/
theorem exec_answersAt (c : Instr) (s : State) : AnswersAt (timeOf c) s (exec c s) := by
  cases c with
  | devInfo h => exact answersAt_of_next (execDevInfo_next h s)
  | devReset h confirm => exact answersAt_of_next (execDevReset_next h confirm s)
  | regRead h addr count => exact answersAt_of_next (execRegRead_next h addr count s)
  | regWrite h addr vals => exact answersAt_of_next (execRegWrite_next h addr vals s)
  | hcDataRead h => exact answersAt_of_next (execHcDataRead_next h s)
  | tbWpLoRead h => exact answersAt_of_next (execTbWpLoRead_next h s)
  | pkPick0Read h => exact answersAt_of_next (execPkPick0Read_next h s)
  | qcCommit h pillow => exact answersAt_of_next (execQcCommit_next h pillow s)
  | wrReq h pillow logical => exact answersAt_of_next (execWrReq_next h pillow logical s)
  | shqErrPop h ecc => exact answersAt_of_next (execShqErrPop_next h ecc s)
  | pwrReq h domain ungate => exact answersAt_of_next (execPwrReq_next h domain ungate s)
  | frCtrlEnter h => exact answersAt_of_next (execFrCtrlEnter_next h s)
  | frCtrlLeave h => exact answersAt_of_next (execFrCtrlLeave_next h s)
  | secArm h key => exact answersAt_of_next (execSecArm_next h key s)
  | secOpSeal h => exact answersAt_of_next (execSecOpSeal_next h s)
  | secOpRevoke h mask => exact answersAt_of_next (execSecOpRevoke_next h mask s)
  | calRun h => exact answersAt_of_next (execCalRun_next h s)
  | calRunEnd t res => exact answersAt_of_next (execCalRunEnd_next t res s)
  | trimRead h offset length => exact answersAt_of_next (execTrimRead_next h offset length s)
  | trimSnapshotReady t => exact answersAt_of_next (execTrimSnapshotReady_next t s)
  | trimWrite h => exact answersAt_of_next (execTrimWrite_next h s)
  | trimWriteCheck t => exact answersAt_of_next (execTrimWriteCheck_next t s)
  | mapCreate h asid op => exact answersAt_of_next (execMapCreate_next h asid op s)
  | mapPage h p => exact answersAt_of_next (execMapPage_next h p s)
  | mapPageDrainEnd t tag => exact answersAt_of_next (execMapPageDrainEnd_next t tag s)
  | mapPin h asid op va size => exact answersAt_of_next (execMapPin_next h asid op va size s)
  | marchRun h target form index => exact answersAt_of_next (execMarchRun_next h target form index s)
  | marchRunEnd t fails => exact answersAt_of_next (execMarchRunEnd_next t fails s)
  | shardBeginManifest h handle => exact answersAt_of_next (execShardBeginManifest_next h handle s)
  | shardBeginShard h handle index => exact answersAt_of_next (execShardBeginShard_next h handle index s)
  | shardBeginDiscard h handle => exact answersAt_of_next (execShardBeginDiscard_next h handle s)
  | shardEnd h handle sigOk => exact answersAt_of_next (execShardEnd_next h handle sigOk s)
  | shardTimeout t handle => exact answersAt_of_next (execShardTimeout_next t handle s)
  | bundleCheckEnd t handle => exact answersAt_of_next (execBundleCheckEnd_next t handle s)
  | redigestPass t => exact answersAt_of_next (execRedigestPass_next t s)
  | slotProgram h slot handle map => exact answersAt_of_next (execSlotProgram_next h slot handle map s)
  | slotProgramEnd t slot => exact answersAt_of_next (execSlotProgramEnd_next t slot s)
  | slotActivate h slot handle => exact answersAt_of_next (execSlotActivate_next h slot handle s)
  | slotDrainEnd t slot => exact answersAt_of_next (execSlotDrainEnd_next t slot s)
  | slotReprogramEnd t slot => exact answersAt_of_next (execSlotReprogramEnd_next t slot s)
  | slotRetire h slot => exact answersAt_of_next (execSlotRetire_next h slot s)
  | slotRetireEnd t slot => exact answersAt_of_next (execSlotRetireEnd_next t slot s)
  | prickLoadOpen h prk size => exact answersAt_of_next (execPrickLoadOpen_next h prk size s)
  | prickLoadData h prk offset data => exact answersAt_of_next (execPrickLoadData_next h prk offset data s)
  | prickLoadClose h prk => exact answersAt_of_next (execPrickLoadClose_next h prk s)
  | prickLoadDiscard h prk => exact answersAt_of_next (execPrickLoadDiscard_next h prk s)
  | jobAdmit h p => exact answersAt_of_next (execJobAdmit_next h p s)
  | jobAdmitAccept t template => exact answersAt_of_next (execJobAdmitAccept_next t template s)
  | jobSubmit h p => exact answersAt_of_next (execJobSubmit_next h p s)
  | partialCapture h p capbuf mode => exact answersAt_of_next (execPartialCapture_next h p capbuf mode s)
  | jobAbortLoose h ctx => exact answersAt_of_next (execJobAbortLoose_next h ctx s)
  | jobAbortTemplate h template => exact answersAt_of_next (execJobAbortTemplate_next h template s)
  | templateWithdrawn t template => exact answersAt_of_next (execTemplateWithdrawn_next t template s)
  | tbConfig h p => exact answersAt_of_next (execTbConfig_next h p s)
  | tbClaimClaim h unit action arg period target => exact answersAt_of_next (execTbClaimClaim_next h unit action arg period target s)
  | tbClaimRelease h unit => exact answersAt_of_next (execTbClaimRelease_next h unit s)
  | streamOpen h p => exact answersAt_of_next (execStreamOpen_next h p s)
  | streamClose h stream => exact answersAt_of_next (execStreamClose_next h stream s)
  | streamCloseEffect t stream => exact answersAt_of_next (execStreamCloseEffect_next t stream s)
  | portConfigLink h p => exact answersAt_of_next (execPortConfigLink_next h p s)
  | portConfigService h p => exact answersAt_of_next (execPortConfigService_next h p s)
  | portConfigGates h p => exact answersAt_of_next (execPortConfigGates_next h p s)
  | hcConfigEnable h p => exact answersAt_of_next (execHcConfigEnable_next h p s)
  | hcConfigDisable h seq => exact answersAt_of_next (execHcConfigDisable_next h seq s)
  | hcConfigMode h lp owTh => exact answersAt_of_next (execHcConfigMode_next h lp owTh s)
  | hcSelfcal h => exact answersAt_of_next (execHcSelfcal_next h s)
  | hcSelfcalEnd t res => exact answersAt_of_next (execHcSelfcalEnd_next t res s)
  | hcReadData h => exact answersAt_of_next (execHcReadData_next h s)
  | hcReadConvert h ch opt => exact answersAt_of_next (execHcReadConvert_next h ch opt s)
  | hcReadUrgent h ch opt => exact answersAt_of_next (execHcReadUrgent_next h ch opt s)
  | pkConfigEnable h streams origin => exact answersAt_of_next (execPkConfigEnable_next h streams origin s)
  | pkConfigDisable h => exact answersAt_of_next (execPkConfigDisable_next h s)
  | queueFlush h q => exact answersAt_of_next (execQueueFlush_next h q s)
  | queueFlushEffect t q => exact answersAt_of_next (execQueueFlushEffect_next t q s)
  | queueDrop h q write writer => exact answersAt_of_next (execQueueDrop_next h q write writer s)
  | fwUpdateOpen h length => exact answersAt_of_next (execFwUpdateOpen_next h length s)
  | fwUpdateClose h image => exact answersAt_of_next (execFwUpdateClose_next h image s)
  | fwUpdateDiscard h => exact answersAt_of_next (execFwUpdateDiscard_next h s)
  | flashWriteStageEnd t ok => exact answersAt_of_next (execFlashWriteStageEnd_next t ok s)
  | attestForm h nonce => exact answersAt_of_next (execAttestForm_next h nonce s)
  | attestRead h offset => exact answersAt_of_next (execAttestRead_next h offset s)
  | dispatch t ecc => exact answersAt_of_next (execDispatch_next t ecc s)
  | cmd0 t => exact answersAt_of_next (execCmd0_next t s)
  | cmd5 t => exact answersAt_of_next (execCmd5_next t s)
  | cmd11 t => exact answersAt_of_next (execCmd11_next t s)
  | cmd19 t => exact answersAt_of_next (execCmd19_next t s)
  | mailboxWrite t data crcOk => exact answersAt_of_next (execMailboxWrite_next t data crcOk s)
  | mailboxPacketEnter t => exact answersAt_of_next (execMailboxPacketEnter_next t s)
  | replyWindowRead t n ecc => exact answersAt_of_next (execReplyWindowRead_next t n ecc s)
  | transportByteWrite t fn addr value => exact answersAt_of_next (execTransportByteWrite_next t fn addr value s)
  | f2BlockWrite t data crcOk => exact answersAt_of_next (execF2BlockWrite_next t data crcOk s)
  | f2BlockRead t => exact answersAt_of_next (execF2BlockRead_next t s)
  | ioAbort t fn inCmd => exact answersAt_of_next (execIoAbort_next t fn inCmd s)
  | ioReset t => exact answersAt_of_next (execIoReset_next t s)
  | packetEnter t q => exact answersAt_of_next (execPacketEnter_next t q s)
  | errorEntryEnter t cls => exact answersAt_of_next (execErrorEntryEnter_next t cls s)
  | hostNoteDrain t => exact answersAt_of_next (execHostNoteDrain_next t s)
  | recordMove t pillow ecc => exact answersAt_of_next (execRecordMove_next t pillow ecc s)
  | encoderCount t a b => exact answersAt_of_next (execEncoderCount_next t a b s)
  | indexPulse t => exact answersAt_of_next (execIndexPulse_next t s)
  | threadTriggerEdge t pin rising => exact answersAt_of_next (execThreadTriggerEdge_next t pin rising s)
  | pulseEnd t pin => exact answersAt_of_next (execPulseEnd_next t pin s)
  | encoderLoss t pairs => exact answersAt_of_next (execEncoderLoss_next t pairs s)
  | encoderLossEnd t => exact answersAt_of_next (execEncoderLossEnd_next t s)
  | stall t => exact answersAt_of_next (execStall_next t s)
  | stageReady t pillow ctx stage => exact answersAt_of_next (execStageReady_next t pillow ctx stage s)
  | saveComplete t pillow => exact answersAt_of_next (execSaveComplete_next t pillow s)
  | restoreComplete t pillow ecc => exact answersAt_of_next (execRestoreComplete_next t pillow ecc s)
  | tokenConditioned t pillow => exact answersAt_of_next (execTokenConditioned_next t pillow s)
  | passComplete t pillow noise => exact answersAt_of_next (execPassComplete_next t pillow noise s)
  | epilogueWriteEnd t pillow => exact answersAt_of_next (execEpilogueWriteEnd_next t pillow s)
  | dmaBurstComplete t pillow burst => exact answersAt_of_next (execDmaBurstComplete_next t pillow burst s)
  | translationWalkEnd t pillow asid va ecc => exact answersAt_of_next (execTranslationWalkEnd_next t pillow asid va ecc s)
  | tattingInstructionEnd t pillow => exact answersAt_of_next (execTattingInstructionEnd_next t pillow s)
  | setlen t pillow => exact answersAt_of_next (execSetlen_next t pillow s)
  | fenceWaitEnd t pillow => exact answersAt_of_next (execFenceWaitEnd_next t pillow s)
  | windowWaitEnd t pillow => exact answersAt_of_next (execWindowWaitEnd_next t pillow s)
  | recordCommit t pillow => exact answersAt_of_next (execRecordCommit_next t pillow s)
  | faultWaitExpiry t ctx => exact answersAt_of_next (execFaultWaitExpiry_next t ctx s)
  | streamFrame t port frame => exact answersAt_of_next (execStreamFrame_next t port frame s)
  | linkDown t link => exact answersAt_of_next (execLinkDown_next t link s)
  | linkUp t link => exact answersAt_of_next (execLinkUp_next t link s)
  | arpRequest t port frame => exact answersAt_of_next (execArpRequest_next t port frame s)
  | icmpEcho t port frame => exact answersAt_of_next (execIcmpEcho_next t port frame s)
  | rasterPacket t port frame => exact answersAt_of_next (execRasterPacket_next t port frame s)
  | ptpMessage t port frame => exact answersAt_of_next (execPtpMessage_next t port frame s)
  | delayReq t port => exact answersAt_of_next (execDelayReq_next t port s)
  | ptpSyncTimeout t => exact answersAt_of_next (execPtpSyncTimeout_next t s)
  | gateEntryChange t sp => exact answersAt_of_next (execGateEntryChange_next t sp s)
  | picotSlotEnd t picked => exact answersAt_of_next (execPicotSlotEnd_next t picked s)
  | throwBurstEnd t => exact answersAt_of_next (execThrowBurstEnd_next t s)
  | sequenceReady t seq => exact answersAt_of_next (execSequenceReady_next t seq s)
  | conversionEnd t raw rawLo rawHi => exact answersAt_of_next (execConversionEnd_next t raw rawLo rawHi s)
  | calibrationPass t pillow bobbin codes noise => exact answersAt_of_next (execCalibrationPass_next t pillow bobbin codes noise s)
  | dwellEnd t pillow bobbin group res => exact answersAt_of_next (execDwellEnd_next t pillow bobbin group res s)
  | levelScanEnd t pillow bobbin means => exact answersAt_of_next (execLevelScanEnd_next t pillow bobbin means s)
  | sealEpoch t dev => exact answersAt_of_next (execSealEpoch_next t dev s)
  | ageRefreshRequest t pillow logical => exact answersAt_of_next (execAgeRefreshRequest_next t pillow logical s)
  | refreshStart t pillow => exact answersAt_of_next (execRefreshStart_next t pillow s)
  | bobbinProgrammingStart t pillow => exact answersAt_of_next (execBobbinProgrammingStart_next t pillow s)
  | bobbinProgrammingEnd t pillow bobbin vfail iters => exact answersAt_of_next (execBobbinProgrammingEnd_next t pillow bobbin vfail iters s)
  | sramScrub t mem pillow addr ecc => exact answersAt_of_next (execSramScrub_next t mem pillow addr ecc s)
  | hbmScrub t addr ecc => exact answersAt_of_next (execHbmScrub_next t addr ecc s)
  | hbmLinkRetrain t stack channel ns ok => exact answersAt_of_next (execHbmLinkRetrain_next t stack channel ns ok s)
  | mgmtCoreFault t core cause => exact answersAt_of_next (execMgmtCoreFault_next t core cause s)
  | domainSwitched t => exact answersAt_of_next (execDomainSwitched_next t s)
  | pwrgdFall t => exact answersAt_of_next (execPwrgdFall_next t s)
  | nrstFall t => exact answersAt_of_next (execNrstFall_next t s)
  | nrstRise t => exact answersAt_of_next (execNrstRise_next t s)
  | strapLatch t pkd => exact answersAt_of_next (execStrapLatch_next t pkd s)
  | watchdog t => exact answersAt_of_next (execWatchdog_next t s)
  | internalResetEnd t => exact answersAt_of_next (execInternalResetEnd_next t s)
  | thermalReading t die hbm => exact answersAt_of_next (execThermalReading_next t die hbm s)
  | throttleStepFall t => exact answersAt_of_next (execThrottleStepFall_next t s)
  | thermalTrip t => exact answersAt_of_next (execThermalTrip_next t s)
  | thermalTripEnd t => exact answersAt_of_next (execThermalTripEnd_next t s)
  | pllLock t marchOk => exact answersAt_of_next (execPllLock_next t marchOk s)
  | firmwareLoadEnd t flash => exact answersAt_of_next (execFirmwareLoadEnd_next t flash s)
  | firmwareInitEnd t => exact answersAt_of_next (execFirmwareInitEnd_next t s)
  | debugToken t device challenge key sigOk => exact answersAt_of_next (execDebugToken_next t device challenge key sigOk s)
  | tapInstruction t ins => exact answersAt_of_next (execTapInstruction_next t ins s)
  | ptpMasterLost t => exact answersAt_of_next (execPtpMasterLost_next t s)
  | frameTransmitEnd t sp => exact answersAt_of_next (execFrameTransmitEnd_next t sp s)
  | cmd3 t => exact answersAt_of_next (execCmd3_next t s)
  | cmd7 t select => exact answersAt_of_next (execCmd7_next t select s)
  | cmd15 t => exact answersAt_of_next (execCmd15_next t s)
  | cccrWrite t addr value => exact answersAt_of_next (execCccrWrite_next t addr value s)
  | transportByteRead t fn addr => exact answersAt_of_next (execTransportByteRead_next t fn addr s)
  | tapReset t => exact answersAt_of_next (execTapReset_next t s)

/-- Settles O2: `exec_answersAt`, form by form. -/
theorem everyCommandAnswers : Obligations.EveryCommandAnswers := by
  unfold Obligations.EveryCommandAnswers
  exact exec_answersAt

end Sys2Proof.Machine
end

section
/-! PROOF. The time base (R13 to R32): O25, O26, O28 to O31. -/

namespace Sys2Proof.Machine

/-! ## Equality of states, part by part -/

/-- Two states with the same parts are the same. -/
theorem State.eq_of_parts {s t : State} (h : s.now = t.now ∧ s.pending = t.pending ∧ s.tb = t.tb ∧ s.sheets = t.sheets ∧
    s.units = t.units ∧ s.pins = t.pins ∧ s.pk = t.pk ∧ s.queues = t.queues ∧ s.latches = t.latches ∧
    s.errw = t.errw ∧ s.sdio = t.sdio ∧ s.bulk = t.bulk ∧ s.mgmt = t.mgmt ∧ s.power = t.power ∧ s.sec = t.sec ∧
    s.therm = t.therm ∧ s.ports = t.ports ∧ s.streams = t.streams ∧ s.services = t.services ∧
    s.ptpPorts = t.ptpPorts ∧ s.ptp = t.ptp ∧ s.chans = t.chans ∧ s.seqs = t.seqs ∧ s.hc = t.hc ∧ s.trim = t.trim ∧
    s.bundles = t.bundles ∧ s.slots = t.slots ∧ s.wt = t.wt ∧ s.mem = t.mem ∧ s.fwMem = t.fwMem ∧ s.ms = t.ms ∧
    s.pricks = t.pricks ∧ s.templates = t.templates ∧ s.jobs = t.jobs ∧ s.order = t.order ∧
    s.pillows = t.pillows ∧ s.free = t.free) : s = t := (State.mk.injEq ..).mpr h

/-! ## Device time (R21) -/

@[simp] theorem State.advance_up (n : Nat) (s : State) : (s.advance n).up = s.up := rfl

@[simp] theorem State.advance_alive (n : Nat) (s : State) : (s.advance n).alive = s.alive := rfl

@[simp] theorem State.advance_tb (n : Nat) (s : State) : (s.advance n).tb = s.tb := rfl

@[simp] theorem State.advance_sheets (n : Nat) (s : State) : (s.advance n).sheets = s.sheets := rfl

@[simp] theorem State.advance_mgmt (n : Nat) (s : State) : (s.advance n).mgmt = s.mgmt := rfl

@[simp] theorem State.advance_pin (n k : Nat) (s : State) : (s.advance n).pin k = s.pin k := rfl

@[simp] theorem State.advance_unit (n k : Nat) (s : State) : (s.advance n).unit k = s.unit k := rfl

/-! ## Encoder counts (R13 to R17) -/

/-- The state whose encoder levels a transition has set. -/
def State.withLevels (n : Nat) (a b : Bool) (s : State) : State :=
  { s with now := max s.now n, tb := { s.tb with encA := a, encB := b } }

/-- A transition in which one level changes is a count, forward where A leads in the direction set (R13, R14). -/
theorem exec_encoderCount_counts {n : Nat} {a b : Bool} {s : State} (hup : s.up = true) (hen : s.tb.encEn = true)
    (hlos : s.tb.los = 0) (hone : s.tb.encA = a ↔ ¬ s.tb.encB = b) :
    exec (.encoderCount n a b) s = .next
      (if (aLeads s.tb.encA s.tb.encB a b != s.tb.dirInv) = true then (s.withLevels n a b).countForward
        else (s.withLevels n a b).countReverse) := by
  have hdown : ¬ (!s.up) = true := by simp [hup]
  have hcounts : ¬ (!s.tb.encEn || s.tb.los != 0) = true := by simp [hen, hlos]
  have hlegal : ¬ (s.tb.encA ≠ a ∧ s.tb.encB ≠ b) := fun h => h.1 (hone.mpr h.2)
  have hmoved : ¬ (s.tb.encA = a ∧ s.tb.encB = b) := fun h => hone.mp h.1 h.2
  exact congrArg Host.Outcome.next
    ((if_neg hdown).trans ((if_neg hcounts).trans ((if_neg hlegal).trans (if_neg hmoved))))

/-- A transition in which both levels change is illegal (R15). -/
theorem exec_encoderCount_illegal {n : Nat} {a b : Bool} {s : State} (hup : s.up = true) (hen : s.tb.encEn = true)
    (hlos : s.tb.los = 0) (ha : s.tb.encA ≠ a) (hb : s.tb.encB ≠ b) :
    exec (.encoderCount n a b) s = .next { s with
      now := max s.now n
      tb := { s.tb with encA := a, encB := b, encIllegal := true, illegal := min 0xFFFF (s.tb.illegal + 1) } } := by
  have hdown : ¬ (!s.up) = true := by simp [hup]
  have hcounts : ¬ (!s.tb.encEn || s.tb.los != 0) = true := by simp [hen, hlos]
  exact congrArg Host.Outcome.next ((if_neg hdown).trans ((if_neg hcounts).trans (if_pos ⟨ha, hb⟩)))

/-- While a pair is lost a transition moves the levels alone (R16). -/
theorem exec_encoderCount_lost {n : Nat} {a b : Bool} {s : State} (hup : s.up = true) (hlos : s.tb.los ≠ 0) :
    exec (.encoderCount n a b) s = .next (s.withLevels n a b) := by
  have hdown : ¬ (!s.up) = true := by simp [hup]
  have hstopped : (!s.tb.encEn || s.tb.los != 0) = true := by rw [bne_iff_ne.mpr hlos, Bool.or_true]
  exact congrArg Host.Outcome.next ((if_neg hdown).trans (if_pos hstopped))

/-- Settles O25: `exec_encoderCount_illegal` at the two inverted levels. -/
theorem illegalTransition : Obligations.IllegalTransition := by
  unfold Obligations.IllegalTransition
  intro n s hup hen hlos
  exact exec_encoderCount_illegal hup hen hlos (by simp) (by simp)

/-! ## The divider and new stitches (R17 to R19) -/

/-- A forward count that stays inside the divider (R17). -/
theorem State.countForward_inside {s : State} (h : s.tb.acc + s.tb.den < s.tb.num) :
    s.countForward = { s with tb := { s.tb with acc := s.tb.acc + s.tb.den } } :=
  if_neg (Nat.not_le.mpr h)

/-- A forward count that completes a stitch at or below HWM. -/
theorem State.countForward_stitch {s : State} (h : s.tb.num ≤ s.tb.acc + s.tb.den) (hold : s.tb.wp + 1 ≤ s.tb.hwm) :
    s.countForward
      = { s with tb := { s.tb with acc := s.tb.acc + s.tb.den - s.tb.num, wp := s.tb.wp + 1 } } := by
  rw [State.countForward, if_pos h]
  exact if_neg (Int.not_lt.mpr hold)

/-- A forward count that completes a stitch above HWM: a new stitch (R18). -/
theorem State.countForward_newStitch {s : State} (h : s.tb.num ≤ s.tb.acc + s.tb.den)
    (hnew : (s.tb.hwm : Int) < s.tb.wp + 1) :
    s.countForward = State.newStitch
      { s with tb := { s.tb with acc := s.tb.acc + s.tb.den - s.tb.num, wp := s.tb.wp + 1 } } := by
  rw [State.countForward, if_pos h]
  exact if_pos hnew

/-- A reverse count (R17). -/
theorem State.countReverse_eq (s : State) : s.countReverse = { s with
    tb := if s.tb.acc < s.tb.den then { s.tb with acc := s.tb.acc + s.tb.num - s.tb.den, wp := s.tb.wp - 1 }
      else { s.tb with acc := s.tb.acc - s.tb.den } } := by
  unfold State.countReverse
  split <;> simp_all

/-- What the release of rows may change in the time base: its overspeed and old-sheet marks (R26, R51). -/
def TimeBase.AsStamped (x y : TimeBase) : Prop :=
  y = { x with sheetOld := y.sheetOld, overspeedSeen := y.overspeedSeen, overspeed := y.overspeed }

theorem TimeBase.AsStamped.refl (x : TimeBase) : x.AsStamped x := rfl

theorem TimeBase.AsStamped.trans {x y z : TimeBase} (h : x.AsStamped y) (g : y.AsStamped z) : x.AsStamped z := by
  rw [AsStamped] at *
  rw [g, h]

theorem State.noteOld_asStamped (ofs sr : Nat) (s : State) : s.tb.AsStamped (s.noteOld ofs sr).tb := by
  unfold State.noteOld
  split
  · split <;> exact rfl
  · exact rfl

theorem State.reportFast_asStamped (n sr tRel : Nat) (s : State) : s.tb.AsStamped (s.reportFast n sr tRel).tb := by
  unfold State.reportFast
  dsimp only
  split <;> simp only [State.report_frame, State.draw_frame] <;> exact rfl


/-- A release marks the time base and moves nothing else of it. -/
theorem State.releaseRow_asStamped (n : Nat) (t : Template) (s : State) :
    s.tb.AsStamped (s.releaseRow n t).tb := by
  have hnoted (ofs sr f k : Nat) (x : Stream) :
      s.tb.AsStamped (((s.releaseTime sr).2.lastLanding x f k).2.noteOld ofs sr).tb := by
    have := State.noteOld_asStamped ofs sr ((s.releaseTime sr).2.lastLanding x f k).2
    simpa only [State.lastLanding_frame, State.releaseTime_frame] using this
  unfold State.releaseRow
  simp only [State.setTemplate_frame]
  rw [State.foldl_tb _ _ _ fun s a => by simp only [State.startInst_frame]]
  split
  · refine .trans ?_ (State.reportFast_asStamped ..)
    split
    · simp only [State.report_frame]; exact hnoted ..
    · exact hnoted ..
  · split
    · simp only [State.report_frame]; exact hnoted ..
    · exact hnoted ..

theorem State.releaseRows_asStamped (n fuel : Nat) (s : State) : s.tb.AsStamped (s.releaseRows n fuel).tb := by
  induction fuel generalizing s with
  | zero => exact .refl _
  | succ fuel ih =>
    unfold State.releaseRows
    split
    · split
      · exact (State.releaseRow_asStamped ..).trans (ih _)
      · exact .refl _
    · exact .refl _

theorem State.releaseDue_asStamped (f : Nat → Bool) (s : State) : s.tb.AsStamped (s.releaseDue f).tb := by
  unfold State.releaseDue
  refine foldl_keeps (fun u => s.tb.AsStamped u.tb) _ _ s (.refl _) fun u a hu => ?_
  dsimp only
  split
  · exact hu.trans (State.releaseRows_asStamped ..)
  · exact hu

/-- What a new stitch drives leaves the time base as its stamp left it, but for the marks of a release. -/
theorem State.newStitch_asStamped (s : State) : s.stamp.tb.AsStamped s.newStitch.tb := by
  unfold State.newStitch
  dsimp only
  split
  · have := State.releaseDue_asStamped (fun _ => true)
      ((s.stamp.askedBoundary s.stamp.tb.hwm).fireUnits s.stamp.tb.hwm)
    simpa only [State.fireUnits_frame, State.askedBoundary_frame] using this
  · exact .refl _

/-- Settles O26: each clause is one way a count can end (`State.countForward`, `State.countReverse`). -/
theorem webPosition : Obligations.WebPosition := by
  unfold Obligations.WebPosition
  refine ⟨fun n a b s hup hen hlos hone hfwd hin => ?inside, fun n a b s hup hen hlos hone hfwd hdone hold => ?old,
    fun n a b s hup hen hlos hone hfwd hdone hnew => ?new, fun n a b s hup hen hlos hone hrev => ?back,
    fun n a b s hup hlos => exec_encoderCount_lost hup hlos⟩
  case inside =>
    rw [exec_encoderCount_counts hup hen hlos hone, if_pos hfwd, State.countForward_inside (s := s.withLevels n a b) hin]
    rfl
  case old =>
    rw [exec_encoderCount_counts hup hen hlos hone, if_pos hfwd,
      State.countForward_stitch (s := s.withLevels n a b) hdone hold]
    rfl
  case new =>
    rw [exec_encoderCount_counts hup hen hlos hone, if_pos hfwd,
      State.countForward_newStitch (s := s.withLevels n a b) hdone hnew]
    refine ⟨_, rfl, ?_⟩
    rw [State.newStitch_asStamped]
    have hwp : ((s.tb.wp + 1).toNat : Int) = s.tb.wp + 1 := Int.toNat_of_nonneg (by omega)
    exact ⟨rfl, hwp, rfl, rfl, rfl, rfl, rfl⟩
  case back =>
    rw [exec_encoderCount_counts hup hen hlos hone, if_neg (by simp [hrev]), State.countReverse_eq]
    rfl

end Sys2Proof.Machine
end

section
/-! PROOF. O28: encoder losses, stalls and THREAD pins (R16, R24, R25, R464 to R466). -/

namespace Sys2Proof.Machine

/-! ## Error reports (R272, R273) -/

theorem State.putQueue_sdio {q : Nat} (hq : q ≠ 0) (x : Queue) (s : State) : (s.putQueue q x).sdio = s.sdio := by
  unfold State.putQueue
  dsimp only
  rw [if_neg fun h => hq h.1]
  rfl

theorem State.presentLatch_sdio (cls : Nat) (s : State) : (s.presentLatch cls).sdio = s.sdio := by
  unfold State.presentLatch
  dsimp only
  split
  · exact State.putQueue_sdio (by decide) _ s
  · rfl

theorem State.report_sdio (r : ErrReport) (s : State) : (s.report r).sdio = s.sdio := by
  unfold State.report
  dsimp only
  split
  · rfl
  · exact State.presentLatch_sdio ..

/-- Presenting a latch moves its marks of the error queue alone. -/
theorem State.presentLatch_held (cls : Nat) (s : State) : ((s.presentLatch cls).latch cls).held = (s.latch cls).held := by
  unfold State.presentLatch
  dsimp only
  split
  · rw [State.latch_setLatch_same]
  · change ((s.setLatch cls _).latch cls).held = _
    rw [State.latch_setLatch_same]

/-- A report leaves its class's latch held (R272). -/
theorem State.report_held (r : ErrReport) (s : State) : ((s.report r).latch r.cls).held = true := by
  unfold State.report
  dsimp only
  split
  · next h => rw [State.latch_setLatch_same]; exact h
  · rw [State.presentLatch_held, State.latch_setLatch_same]

/-! ## The encoder's losses and marks -/

/-- The first pair lost stops counting and raises class 12 (R16). -/
theorem exec_encoderLoss_first {n : Nat} {pairs : BitVec 3} {s : State} (hup : s.up = true) (hlos : s.tb.los = 0)
    (hp : pairs ≠ 0) :
    exec (.encoderLoss n pairs) s = .next (State.report { cls := 12, body := leBytes 1 pairs.toNat }
      { s with now := max s.now n, tb := { s.tb with los := s.tb.los ||| pairs } }) := by
  have hfirst : (s.tb.los == 0 && pairs != 0) = true := by rw [hlos, bne_iff_ne.mpr hp]; rfl
  exact congrArg Host.Outcome.next ((if_pos hup).trans (if_pos hfirst))

/-- A further pair joins the loss without a report (R16). -/
theorem exec_encoderLoss_further {n : Nat} {pairs : BitVec 3} {s : State} (hup : s.up = true) (hlos : s.tb.los ≠ 0) :
    exec (.encoderLoss n pairs) s = .next { s with
      now := max s.now n, tb := { s.tb with los := s.tb.los ||| pairs } } := by
  have hfirst : ¬ (s.tb.los == 0 && pairs != 0) = true := by rw [beq_eq_false_iff_ne.mpr hlos]; exact Bool.false_ne_true
  exact congrArg Host.Outcome.next ((if_pos hup).trans (if_neg hfirst))

theorem exec_encoderLossEnd_up {n : Nat} {s : State} (hup : s.up = true) :
    exec (.encoderLossEnd n) s = .next { s with now := max s.now n, tb := { s.tb with los := 0 } } :=
  congrArg Host.Outcome.next (if_pos hup)

theorem exec_stall_due {n : Nat} {s : State} (hup : s.up = true) (hrun : s.tb.stall = false)
    (hdue : max s.mgmt.resetAt s.tb.stallBase + 1_000_000 ≤ max s.now n) :
    exec (.stall n) s = .next
      (if s.alive then State.pkStall { s with now := max s.now n, tb := { s.tb with stall := true } }
        else { s with now := max s.now n, tb := { s.tb with stall := true } }) := by
  have hguard : (s.up && !s.tb.stall && decide (max s.mgmt.resetAt s.tb.stallBase + 1_000_000 ≤ max s.now n)) = true := by
    simp only [hup, hrun, hdue, decide_true, Bool.not_false, Bool.and_self]
  exact congrArg Host.Outcome.next (if_pos hguard)

theorem exec_indexPulse_asks {n : Nat} {s : State} (hup : s.up = true) (hen : s.tb.encEn = true) (hlos : s.tb.los = 0)
    (hsrc : s.tb.sheetSrc = 2) :
    exec (.indexPulse n) s = .next { s with now := max s.now n, sheets := { s.sheets with indexPend := true } } := by
  have hguard : (s.up && s.tb.encEn && s.tb.los == 0 && s.tb.sheetSrc == 2) = true := by simp [hup, hen, hlos, hsrc]
  exact congrArg Host.Outcome.next (if_pos hguard)

/-! ## THREAD pins (R464 to R466) -/

@[simp] theorem State.hcEdge_pin (p k : Nat) (rising : Bool) (s : State) : (s.hcEdge p rising).pin k = s.pin k := by
  simp only [State.pin, State.hcEdge_frame]

/-- An edge triggers sequences and acts on nothing else (R368). -/
theorem State.hcEdge_eq (p : Nat) (rising : Bool) (s : State) :
    s.hcEdge p rising = { s with seqs := (s.hcEdge p rising).seqs } :=
  State.eq_of_parts (by simp [State.hcEdge_frame])

/-- A boundary is asked for by a rising edge of the sheet pin (R25). -/
def Sheets.asked (pin : Nat) (rising : Bool) (x : Sheets) : Sheets :=
  { x with threadPend := x.threadPend || (rising && x.pin == some pin) }

/-- An edge of a pin in the TRIGGER role (R25, R466). -/
theorem exec_threadTriggerEdge_trigger {n k : Nat} {rising : Bool} {s : State} (hal : s.alive = true)
    (hrole : (s.pin k).role = 2) :
    exec (.threadTriggerEdge n k rising) s = .next (State.hcEdge k rising
      { s.setPin k { s.pin k with
          level := rising, edgeWp := if rising then ofSigned 32 s.tb.wp else (s.pin k).edgeWp } with
        now := max s.now n, sheets := s.sheets.asked k rising }) := by
  have hfree : ¬ (s.alive && (s.pin k).role == 0) = true := by simp [hrole]
  have htrig : (s.alive && (s.pin k).role == 2) = true := by simp [hal, hrole]
  refine congrArg Host.Outcome.next ((if_neg hfree).trans ((if_pos htrig).trans ?_))
  refine congrArg (State.hcEdge k rising) ?_
  by_cases hask : (rising && s.sheets.pin == some k) = true
  · exact (if_pos hask).trans (by rw [Sheets.asked, hask, Bool.or_true]; rfl)
  · exact (if_neg hask).trans (by rw [Sheets.asked, Bool.eq_false_iff.mpr hask, Bool.or_false]; rfl)

/-- The pin of a strobe whose pulse has ended: inactive, and free where no unit names it (R464, R465). -/
def ThreadPin.afterPulse (x : ThreadPin) : ThreadPin :=
  let x := { x with pulse := none, level := x.pol }
  if x.users = 0 then { x with role := 0, holder := 0 } else x

theorem exec_pulseEnd_due {n k e : Nat} {s : State} (hal : s.alive = true) (hpulse : (s.pin k).pulse = some e)
    (hdue : e ≤ max s.now n) :
    exec (.pulseEnd n k) s
      = .next (((s.advance n).setPin k (s.pin k).afterPulse).hcEdge k (s.pin k).afterPulse.pol) := by
  have hguard : (s.alive && decide (e ≤ max s.now n)) = true := by simp only [hal, hdue, decide_true, Bool.and_self]
  rw [exec_pulseEnd, execPulseEnd]
  simp only [State.advance_pin, hpulse]
  exact congrArg Host.Outcome.next (if_pos hguard)

/-! ## The obligation -/

/-- Settles O28: each clause reads off the state that its event leaves. -/
theorem encoderAndPins : Obligations.EncoderAndPins := by
  unfold Obligations.EncoderAndPins
  refine ⟨fun n pairs s hup hlos hp => ⟨_, exec_encoderLoss_first hup hlos hp, ?lossTb, State.report_held _ _, ?loss⟩,
    fun n pairs s hup hlos => exec_encoderLoss_further hup hlos, fun n s hup => exec_encoderLossEnd_up hup,
    fun n s hup hrun hdue => ⟨_, exec_stall_due hup hrun hdue, ?stallTb, ?stall⟩,
    fun n s hup hen hlos hsrc => exec_indexPulse_asks hup hen hlos hsrc,
    fun n k s hal hrole hlow => ⟨_, exec_threadTriggerEdge_trigger hal hrole, ?risePin, ?riseOthers, ?riseSheets, ?rise⟩,
    fun n k s hal hrole hhigh => ⟨_, exec_threadTriggerEdge_trigger hal hrole, ?fallPin, ?fall⟩,
    fun n k e s hal hpulse hdue =>
      ⟨_, exec_pulseEnd_due hal hpulse hdue, ?noPulse, ?inactive, ?free, ?kept, ?pulseOthers, ?pulse⟩⟩
  case lossTb => simp [State.report_frame, hlos]
  case loss => exact State.eq_of_parts (by simp [State.report_frame, State.report_sdio])
  case stallTb => split <;> simp [State.pkStall_frame]
  case stall => split <;> exact State.eq_of_parts (by simp [State.pkStall_frame])
  case risePin => rw [State.hcEdge_pin]; exact State.pin_setPin_same ..
  case riseOthers => intro j hj; rw [State.hcEdge_pin]; exact (State.pin_setPin ..).trans (if_neg hj)
  case riseSheets => rw [State.hcEdge_eq]; exact congrArg (fun b => { s.sheets with threadPend := s.sheets.threadPend || b }) (Bool.true_and _)
  case rise => exact State.eq_of_parts (by simp [State.hcEdge_frame, State.setPin_frame])
  case fallPin => rw [State.hcEdge_pin]; exact State.pin_setPin_same ..
  case fall => exact State.eq_of_parts (by simp [State.hcEdge_frame, State.setPin_frame, Sheets.asked])
  case pulseOthers => intro j hj; rw [State.hcEdge_pin, State.pin_setPin, if_neg hj]; rfl
  case pulse => exact State.eq_of_parts (by simp [State.hcEdge_frame, State.setPin_frame, State.advance_frame])
  all_goals rw [State.hcEdge_pin, State.pin_setPin_same, ThreadPin.afterPulse]
  case noPulse => split <;> rfl
  case inactive => split <;> rfl
  case free => intro hnone; simp [hnone]
  case kept => intro hsome; simp [hsome]

end Sys2Proof.Machine
end

section
/-! PROOF. O29: TB_CONFIG (R20, R438). -/

namespace Sys2Proof.Machine

/-! ## Replies -/

/-- A reply is told from the queues before it. -/
theorem Replied.of_queues {h : Hdr} {op status : Nat} {payload : Bytes} {s u t : State} (hq : u.queues = s.queues)
    (hr : Replied h op status payload u t) : Replied h op status payload s t := by
  have hqueue (q : Nat) : u.queue q = s.queue q := by rw [State.queue, State.queue, hq]
  simpa only [Replied, hqueue] using hr

/-! ## The sheet source -/

/-- A claim of the sheet source moves the unit and the pin that stand for it, and no sheet (R25). -/
theorem State.takeSheetSource_sheet (p : TbConfigParams) (s : State) :
    (s.takeSheetSource p).sheets.sheet = s.sheets.sheet := by
  unfold State.takeSheetSource
  split
  · split <;> rfl
  · split <;> rfl

theorem State.takeSheetSource_unit {p : TbConfigParams} (hp : p.sheetSrc ≠ 1) (s : State) :
    (s.takeSheetSource p).sheets.unit = s.sheets.unit := by
  rw [State.takeSheetSource, if_neg hp]
  split <;> rfl

theorem State.takeSheetSource_thread {p : TbConfigParams} (hp : p.sheetSrc = 3) (s : State) :
    (s.takeSheetSource p).sheets.pin = some p.sheetPin ∧ ((s.takeSheetSource p).pin p.sheetPin).role = 2 := by
  rw [State.takeSheetSource, if_neg (by omega), if_pos hp]
  exact ⟨rfl, congrArg ThreadPin.role (State.pin_setPin_same ..)⟩

/-! ## TB_CONFIG -/

theorem tbConfigParams_eq_none {p : TbConfigParams} :
    tbConfigParams p = none ↔ (1 ≤ p.num ∧ p.num ≤ 65535) ∧ (1 ≤ p.den ∧ p.den ≤ p.num) ∧ p.filt ≤ 15
      ∧ p.sheetSrc ≤ 3 ∧ p.sheetPin ≤ 3 ∧ (p.sheetSrc = 1 → 1 ≤ p.rep) := by
  simp only [tbConfigParams, firstOf_cons_eq_none, require_eq_none, inRange, firstOf, Bool.and_eq_true,
    decide_eq_true_eq, Bool.or_eq_true, bne_iff_ne, and_true, ← imp_iff_not_or]

/-- The time base that TB_CONFIG sets, at device time now (R20, R438). -/
def TimeBase.configured (p : TbConfigParams) (now : Nat) (x : TimeBase) : TimeBase :=
  { x with
    encEn := p.encEn, dirInv := p.dirInv, sheetSrc := p.sheetSrc, sheetPin := p.sheetPin, filt := p.filt
    num := p.num, den := p.den, rep := p.rep, acc := 0, stallBase := now
    wp := if p.preset then (p.wp : Int) else x.wp, hwm := if p.preset then p.wp else x.hwm }

/-- TB_CONFIG's state without its new sheet source: the earlier one is dropped, the time base is set, and TB_SHEET is
cleared (R438). -/
def State.configured (p : TbConfigParams) (s : State) : State :=
  let s := s.dropSheetSource (if p.sheetSrc = 3 then some p.sheetPin else none)
  { s with tb := s.tb.configured p s.now }.newSheets

theorem tbConfigDo_eq (h : Hdr) (p : TbConfigParams) (s : State) :
    tbConfigDo h p s = ((s.configured p).takeSheetSource p).done h Op.tbConfig 0
      (leBytes 1 (((s.configured p).takeSheetSource p).sheets.unit.getD 0xFF)) := rfl

/-- An admitted template bars TB_CONFIG (R438). -/
theorem tbConfigCheck_admitted {p : TbConfigParams} {k : Nat} {x : Template} {rest : List (Nat × Template)} {s : State}
    (h : s.admitted = (k, x) :: rest) :
    tbConfigCheck p s = some (resHeld Op.jobAdmit Op.tbConfig 17 k noPillow k) := by
  rw [tbConfigCheck, h]
  rfl

/-- Settles O29: the effect is `tbConfigDo_eq`, part by part. -/
theorem timeBaseConfig : Obligations.TimeBaseConfig := by
  unfold Obligations.TimeBaseConfig
  refine ⟨fun h p s ha hden hnum hnumMax hfilt hsrc hpin hrep hcheck => ?set, fun h p k x rest s ha hp hadm => ?refused⟩
  case set =>
    have hparams : tbConfigParams p = none :=
      tbConfigParams_eq_none.mpr ⟨⟨hden.trans hnum, hnumMax⟩, ⟨hden, hnum⟩, hfilt, hsrc, hpin, hrep⟩
    have hexec : exec (.tbConfig h p) s = .next (tbConfigDo h p (s.advance h.t)) :=
      hostCommand_accepted hparams ha hcheck
    rw [tbConfigDo_eq] at hexec
    refine ⟨_, hexec, ?reply, ?tb, ?sheet, ?unit, ?thread, ?frame⟩
    case reply =>
      refine Replied.of_queues (u := ((s.advance h.t).configured p).takeSheetSource p) ?_ ?_
      · simp [State.configured, State.takeSheetSource_frame, State.newSheets_frame, State.dropSheetSource_frame,
          State.advance_frame]
      · simp only [State.done_frame]
        exact State.done_replied ..
    case tb =>
      simp [State.configured, State.done_frame, State.takeSheetSource_frame, State.newSheets_frame,
        State.dropSheetSource_frame, TimeBase.configured]
    case sheet =>
      simp only [State.done_frame, State.takeSheetSource_sheet]
      rfl
    case unit =>
      intro hrepeat
      simp only [State.done_frame, State.takeSheetSource_unit hrepeat]
      rfl
    case thread =>
      intro hthread
      simp only [State.pin, State.done_frame]
      exact State.takeSheetSource_thread hthread _
    case frame =>
      simp [State.configured, State.done_frame, State.takeSheetSource_frame, State.newSheets_frame,
        State.dropSheetSource_frame, State.advance_frame]
  case refused =>
    exact .of_refuse (hostCommand_refused hp ha (tbConfigCheck_admitted hadm))

end Sys2Proof.Machine
end

section
/-! PROOF. O30 and O31: TB_CLAIM, its targets and its release (R29 to R31, R439, R464). -/

namespace Sys2Proof.Machine

/-! ## Targets (R31) -/

theorem State.armTarget_above {target period : Nat} {s : State} (h : s.tb.hwm + 1 < target) :
    s.armTarget target period = some target := if_pos h

theorem State.armTarget_past {target : Nat} {s : State} (h : target ≤ s.tb.hwm + 1) :
    s.armTarget target 0 = none := by
  rw [State.armTarget]
  exact (if_neg (by omega)).trans (if_pos rfl)

/-- How many periods lie between a past target and the first one above HWM + 1 (R31). -/
def State.skippedPeriods (target period : Nat) (s : State) : Nat := (s.tb.hwm + 1 - target) / period + 1

theorem State.armTarget_periodic {target period : Nat} {s : State} (h : target ≤ s.tb.hwm + 1) (hp : period ≠ 0) :
    s.armTarget target period = some (target + s.skippedPeriods target period * period) := by
  rw [State.armTarget]
  exact (if_neg (by omega)).trans (if_neg hp)

/-- After the skipped periods the target lies above HWM + 1. -/
theorem State.lt_skippedPeriods {target period : Nat} {s : State} (hp : period ≠ 0) :
    s.tb.hwm + 1 < target + s.skippedPeriods target period * period := by
  have := Nat.lt_div_mul_add (a := s.tb.hwm + 1 - target) (Nat.pos_of_ne_zero hp)
  rw [State.skippedPeriods, Nat.add_mul, Nat.one_mul]
  omega

/-- No earlier target of the period lies above HWM + 1. -/
theorem State.skippedPeriods_first {target period i : Nat} {s : State} (h : target ≤ s.tb.hwm + 1)
    (hi : i < s.skippedPeriods target period) : target + i * period ≤ s.tb.hwm + 1 := by
  have := Nat.mul_le_of_le_div period i _ (Nat.le_of_lt_succ hi)
  omega

/-! ## What a claim needs (R29, R30) -/

/-- Unit k is free and is the one that a claim takes: the one named, or the lowest free one. -/
def State.UnitFor (u : Option Nat) (k : Nat) (s : State) : Prop :=
  u = some k ∧ k ≤ 63 ∧ (s.unit k).claimed = false ∨ u = none ∧ s.freeUnit = some k

/-- The claim's action and its argument are in range, and a strobe pin is free or a strobe already. -/
def State.ActionFor (action arg : Nat) (s : State) : Prop :=
  (action = 0 ∨ action = 2 ∨ action = 5 ∨ action = 1 ∧ arg ≤ 3 ∧ ((s.pin arg).role = 0 ∨ (s.pin arg).role = 1))
    ∧ arg ≤ 15

theorem tbClaimParams_eq_none {u : Option Nat} {action arg : Nat} :
    tbClaimParams u action arg = none ↔ u.getD 0 ≤ 63 ∧ (action = 0 ∨ action = 1 ∨ action = 2 ∨ action = 5)
      ∧ arg ≤ (if action = 1 then 3 else 15) := by
  simp only [tbClaimParams, firstOf_cons_eq_none, require_eq_none, firstOf, decide_eq_true_eq, Bool.or_eq_true,
    beq_iff_eq, and_true, or_assoc]

theorem State.UnitFor.params {u : Option Nat} {k action arg : Nat} {s : State} (hu : s.UnitFor u k)
    (ha : s.ActionFor action arg) : tbClaimParams u action arg = none := by
  obtain ⟨hact, harg⟩ := ha
  refine tbClaimParams_eq_none.mpr ⟨?_, by omega, by split <;> omega⟩
  rcases hu with ⟨rfl, hk, -⟩ | ⟨rfl, -⟩
  · exact hk
  · exact Nat.zero_le _

theorem firstOf_singleton (c : Option Reject) : firstOf [c] = c := by cases c <;> rfl

/-- With a free unit and a free pin the target alone decides. -/
theorem tbClaimCheck_eq {u : Option Nat} {k action arg period target : Nat} {s : State} (hu : s.UnitFor u k)
    (ha : s.ActionFor action arg) :
    tbClaimCheck u action arg period target s
      = require (s.armTarget target period).isSome { status := Status.tbPast } := by
  have hpin : (action != 1 || (s.pin arg).role == 0 || (s.pin arg).role == 1) = true := by
    obtain ⟨rfl | rfl | rfl | ⟨-, -, h⟩, -⟩ := ha
    iterate 3 rfl
    simpa [or_assoc] using Or.inr h
  unfold tbClaimCheck
  rw [hpin]
  rcases hu with ⟨rfl, -, hfree⟩ | ⟨rfl, hfree⟩
  · simp only [hfree]
    exact firstOf_singleton _
  · simp only [hfree]
    exact firstOf_singleton _

/-! ## What a claim does -/

/-- The strobe pin of a claim has one more user, and a free one stands at its inactive level (R30, assumption 89). -/
def ThreadPin.claimed (x : ThreadPin) : ThreadPin :=
  { x with
    role := 1, holder := Op.tbClaim, users := x.users + 1
    level := if x.role = 0 ∧ x.pulse = none then x.pol else x.level }

/-- Unit k is armed for a claim, and its strobe pin claimed with it. -/
def State.claim (k action arg period g : Nat) (s : State) : State :=
  let v := s.setUnit k { target := g, period := period, claimed := true, armed := true, action := action, arg := arg,
                         holder := Op.tbClaim }
  if action = 1 then v.setPin arg (s.pin arg).claimed else v

theorem State.UnitFor.taken {u : Option Nat} {k : Nat} {s : State} (hu : s.UnitFor u k) :
    u.getD (s.freeUnit.getD 63) = k := by
  rcases hu with ⟨rfl, -⟩ | ⟨rfl, hfree⟩
  · rfl
  · rw [hfree]; rfl

/-- A claim of a free unit and pin whose target can be armed at g (R29 to R31, R439). -/
theorem tbClaim_answers {h : Hdr} {u : Option Nat} {k action arg period target g : Nat} {s : State}
    (hacc : s.accepts Op.tbClaim false = true) (hu : s.UnitFor u k) (ha : s.ActionFor action arg)
    (hg : s.armTarget target period = some g) :
    Answers (.tbClaimClaim h u action arg period target) h Op.tbClaim (fun _ => leBytes 1 k ++ zeros 7 ++ leBytes 8 g)
      (State.claim k action arg period g) s := by
  have hcheck : tbClaimCheck u action arg period target (s.advance h.t) = none :=
    (tbClaimCheck_eq (s := s) hu ha).trans (by rw [hg]; rfl)
  refine .of_done (form := 0) ((hostCommand_accepted (hu.params ha) hacc hcheck).trans ?_)
  have hunit : u.getD ((s.advance h.t).freeUnit.getD 63) = k := hu.taken
  have htarget : (s.advance h.t).armTarget target period = some g := hg
  rw [tbClaimDo, hunit, htarget]
  rfl

/-- A claim of a free unit and pin whose target is past (R31). -/
theorem tbClaim_past {h : Hdr} {u : Option Nat} {k action arg period target : Nat} {s : State}
    (hacc : s.accepts Op.tbClaim false = true) (hu : s.UnitFor u k) (ha : s.ActionFor action arg)
    (hg : s.armTarget target period = none) :
    Refuses (.tbClaimClaim h u action arg period target) h Op.tbClaim { status := Status.tbPast } s :=
  .of_refuse (hostCommand_refused (hu.params ha) hacc ((tbClaimCheck_eq (s := s) hu ha).trans (by rw [hg]; rfl)))

/-- Settles O30: a past one-shot target cannot be armed, and a periodic one skips the periods that have passed. -/
theorem claimTargets : Obligations.ClaimTargets := by
  unfold Obligations.ClaimTargets
  refine ⟨fun h u k action arg target s hacc hu hact harg hpast => ?_,
    fun h u k action arg period target s hacc hu hact harg hp hpast => ?_⟩
  · exact tbClaim_past hacc hu ⟨hact, harg⟩ (State.armTarget_past hpast)
  · exact ⟨s.skippedPeriods target period, _, rfl, State.lt_skippedPeriods hp,
      fun i hi => State.skippedPeriods_first hpast hi,
      tbClaim_answers hacc hu ⟨hact, harg⟩ (State.armTarget_periodic hpast hp)⟩

/-! ## A held unit, a held pin -/

theorem tbClaimCheck_unitHeld {k action arg period target : Nat} {s : State} (hheld : (s.unit k).claimed = true) :
    tbClaimCheck (some k) action arg period target s = some (s.unitHeld Op.tbClaim k) := by
  unfold tbClaimCheck
  simp only [hheld]
  rfl

theorem tbClaimCheck_pinHeld {k arg period target : Nat} {s : State} (hfree : (s.unit k).claimed = false)
    (hrole : (s.pin arg).role ≠ 0 ∧ (s.pin arg).role ≠ 1) :
    tbClaimCheck (some k) 1 arg period target s
      = some (resHeld (s.pin arg).holder Op.tbClaim 2 arg noPillow (s.pin arg).owner) := by
  have hpin : (((1 : Nat) != 1) || (s.pin arg).role == 0 || (s.pin arg).role == 1) = false := by simp [hrole]
  unfold tbClaimCheck
  simp only [hfree, hpin]
  rfl

/-! ## Releases -/

/-- The strobe pin of a released unit, of n + 1 users before: free with the last of them, but for a pulse in progress
(R464). -/
def ThreadPin.lostUser (n : Nat) (x : ThreadPin) : ThreadPin :=
  if n = 0 ∧ x.pulse = none then { x with users := 0, role := 0, holder := 0 } else { x with users := n }

theorem State.releaseUnit_plain {k : Nat} {s : State} (ha : (s.unit k).action ≠ 1) :
    s.releaseUnit k = s.setUnit k {} := if_neg fun h => ha h.2

theorem State.releaseUnit_strobe {k n : Nat} {s : State} (hc : (s.unit k).claimed = true) (ha : (s.unit k).action = 1)
    (hn : (s.pin (s.unit k).arg).users = n + 1) :
    s.releaseUnit k = (s.setUnit k {}).setPin (s.unit k).arg ((s.pin (s.unit k).arg).lostUser n) := by
  rw [State.releaseUnit]
  refine (if_pos ⟨hc, ha⟩).trans (congrArg (fun x => State.setPin _ x (s.setUnit k {})) ?_)
  have hless : (s.pin (s.unit k).arg).users - 1 = n := by rw [hn]; rfl
  change (if (s.pin (s.unit k).arg).users - 1 = 0 ∧ (s.pin (s.unit k).arg).pulse = none then
    { s.pin (s.unit k).arg with users := (s.pin (s.unit k).arg).users - 1, role := 0, holder := 0 }
    else { s.pin (s.unit k).arg with users := (s.pin (s.unit k).arg).users - 1 }) = _
  rw [hless, ThreadPin.lostUser]
  split
  · next h => rw [h.1]
  · rfl

/-- A unit that TB_CLAIM holds is released (R439). -/
theorem tbRelease_answers {h : Hdr} {k : Nat} {s : State} (hacc : s.accepts Op.tbClaim false = true) (hk : k ≤ 63)
    (hc : (s.unit k).claimed = true) (hh : (s.unit k).holder = Op.tbClaim) :
    Answers (.tbClaimRelease h k) h Op.tbClaim (fun _ => leBytes 1 k ++ zeros 15) (State.releaseUnit k) s := by
  refine .of_done (form := 1) ?_
  rw [exec_tbClaimRelease, execTbClaimRelease]
  refine hostCommand_accepted ?_ hacc ?_
  · exact (require_eq_none _ _).mpr (decide_eq_true hk)
  · simp [firstOf, hc, hh, require]

/-- An answer whose effect is another state's is that state's answer. -/
theorem Answers.of_eq {c : Instr} {h : Hdr} {op : Nat} {payload : State → Bytes} {f g : State → State} {s : State}
    (ha : Answers c h op payload f s) (hfg : f (s.advance h.t) = g (s.advance h.t)) : Answers c h op payload g s := by
  rwa [Answers, hfg] at ha

/-- The release of a unit that drives a strobe pin of n + 1 users (R439, R464). -/
theorem tbRelease_strobe {h : Hdr} {k n : Nat} {s : State} (hacc : s.accepts Op.tbClaim false = true) (hk : k ≤ 63)
    (hc : (s.unit k).claimed = true) (hh : (s.unit k).holder = Op.tbClaim) (ha : (s.unit k).action = 1)
    (hn : (s.pin (s.unit k).arg).users = n + 1) :
    Answers (.tbClaimRelease h k) h Op.tbClaim (fun _ => leBytes 1 k ++ zeros 15)
      (fun s => (s.setUnit k {}).setPin (s.unit k).arg ((s.pin (s.unit k).arg).lostUser n)) s :=
  (tbRelease_answers hacc hk hc hh).of_eq (State.releaseUnit_strobe (s := s.advance h.t) hc ha hn)

/-- Settles O31: claims by `tbClaim_answers`, refusals by the check that fails, releases by `State.releaseUnit`. -/
theorem claimAndRelease : Obligations.ClaimAndRelease := by
  unfold Obligations.ClaimAndRelease
  refine ⟨fun h k action arg period target s hacc hk hact harg hfree habove => ?named,
    fun h k action arg period target s hacc hact harg hfree habove => ?lowest,
    fun h k action arg period target s hacc hk hact harg hheld => ?unitHeld,
    fun h k s hacc hk hc hh ha => ?plain, fun h k s hacc hk hc hh ha hone hidle => ?lastUser,
    fun h k arg period target s hacc hk harg hfree hrole habove => ?strobe,
    fun h k arg period target s hacc hk harg hfree hrole0 hrole1 => ?pinHeld,
    fun h k n s hacc hk hc hh ha hn => ?released⟩
  case named =>
    have hne : action ≠ 1 := by omega
    refine (tbClaim_answers hacc (.inl ⟨rfl, hk, hfree⟩) ⟨by omega, harg⟩ (State.armTarget_above habove)).of_eq ?_
    exact if_neg hne
  case lowest =>
    have hne : action ≠ 1 := by omega
    refine (tbClaim_answers hacc (.inr ⟨rfl, hfree⟩) ⟨by omega, harg⟩ (State.armTarget_above habove)).of_eq ?_
    exact if_neg hne
  case unitHeld =>
    refine .of_refuse (hostCommand_refused (tbClaimParams_eq_none.mpr ⟨hk, by omega, ?_⟩) hacc
      (tbClaimCheck_unitHeld (s := s.advance h.t) hheld))
    split <;> omega
  case plain =>
    exact (tbRelease_answers hacc hk hc hh).of_eq (State.releaseUnit_plain (s := s.advance h.t) ha)
  case lastUser =>
    obtain ⟨t, hnext, -, -, ht⟩ := tbRelease_strobe (h := h) hacc hk hc hh ha hone
    refine ⟨t, hnext, ?_, ?_, fun j hj => ?_, ?_⟩ <;> rw [ht]
    · exact State.unit_setUnit_same k {} s
    · refine (congrArg ThreadPin.role (State.pin_setPin_same ..)).trans ?_
      exact congrArg ThreadPin.role (if_pos ⟨rfl, hidle⟩)
    · exact (State.unit_setUnit k j {} s).trans (if_neg hj)
    · rfl
  case strobe =>
    refine (tbClaim_answers hacc (.inl ⟨rfl, hk, hfree⟩) ⟨by omega, by omega⟩ (State.armTarget_above habove)).of_eq ?_
    rfl
  case pinHeld =>
    exact .of_refuse (hostCommand_refused (tbClaimParams_eq_none.mpr ⟨hk, by omega, harg⟩) hacc
      (tbClaimCheck_pinHeld (s := s.advance h.t) hfree ⟨hrole0, hrole1⟩))
  case released => exact tbRelease_strobe hacc hk hc hh ha hn

end Sys2Proof.Machine
end

section
/-! PROOF. Reading rules for the tables of pillows, jobs, queues and templates, for O53 to O58. -/

namespace Sys2Proof.Machine

/-! ## One entry changes -/

theorem State.pillow_modPillow (k j : Nat) (f : Pillow → Pillow) (s : State) :
    (s.modPillow k f).pillow j = if j = k then f (s.pillow k) else s.pillow j := State.pillow_setPillow k j _ s

@[simp] theorem State.pillow_modPillow_same (k : Nat) (f : Pillow → Pillow) (s : State) :
    (s.modPillow k f).pillow k = f (s.pillow k) := State.pillow_setPillow_same k _ s

theorem State.pillow_modPillow_ne {k j : Nat} (h : j ≠ k) (f : Pillow → Pillow) (s : State) :
    (s.modPillow k f).pillow j = s.pillow j := (State.pillow_modPillow k j f s).trans (if_neg h)

theorem State.job_modJob (k j : Nat) (f : Job → Job) (s : State) :
    (s.modJob k f).job j = if j = k then (s.job k).map f else s.job j := State.job_setJob k j _ s

@[simp] theorem State.job_modJob_same (k : Nat) (f : Job → Job) (s : State) :
    (s.modJob k f).job k = (s.job k).map f := State.job_setJob_same k _ s

theorem State.job_modJob_ne {k j : Nat} (h : j ≠ k) (f : Job → Job) (s : State) :
    (s.modJob k f).job j = s.job j := (State.job_modJob k j f s).trans (if_neg h)

theorem State.job_setJob_ne {k j : Nat} (h : j ≠ k) (x : Option Job) (s : State) :
    (s.setJob k x).job j = s.job j := (State.job_setJob k j x s).trans (if_neg h)

theorem State.queue_modQueue (k j : Nat) (f : Queue → Queue) (s : State) :
    (s.modQueue k f).queue j = if j = k then f (s.queue k) else s.queue j := State.queue_setQueue k j _ s

theorem State.service_modService (k j : Nat) (f : Service → Service) (s : State) :
    (s.modService k f).service j = if j = k then f (s.service k) else s.service j := State.service_setService k j _ s

/-! ## What stands outside a table is read as it was -/

theorem State.pillow_of_pillows {s t : State} (h : t.pillows = s.pillows) (p : Nat) : t.pillow p = s.pillow p := by
  rw [State.pillow, h]; rfl

theorem State.job_of_jobs {s t : State} (h : t.jobs = s.jobs) (c : Nat) : t.job c = s.job c :=
  congrArg (fun l => tget (fun _ => none) l c) h

theorem State.queue_of_queues {s t : State} (h : t.queues = s.queues) (q : Nat) : t.queue q = s.queue q := by
  rw [State.queue, h]; rfl

theorem State.template_of_templates {s t : State} (h : t.templates = s.templates) (k : Nat) :
    t.template k = s.template k := congrArg (fun l => tget (fun _ => none) l k) h

@[simp] theorem State.advance_pillow (n p : Nat) (s : State) : (s.advance n).pillow p = s.pillow p := rfl

@[simp] theorem State.advance_job (n c : Nat) (s : State) : (s.advance n).job c = s.job c := rfl

@[simp] theorem State.advance_queue (n q : Nat) (s : State) : (s.advance n).queue q = s.queue q := rfl

@[simp] theorem State.advance_template (n k : Nat) (s : State) : (s.advance n).template k = s.template k := rfl

theorem State.modPillow_job (k c : Nat) (f : Pillow → Pillow) (s : State) : (s.modPillow k f).job c = s.job c := rfl

theorem State.modJob_pillow (c p : Nat) (f : Job → Job) (s : State) : (s.modJob c f).pillow p = s.pillow p := rfl

theorem State.setJob_pillow (c p : Nat) (x : Option Job) (s : State) : (s.setJob c x).pillow p = s.pillow p := rfl

end Sys2Proof.Machine
end

section
/-! PROOF. O54: loose jobs. The abort of a job with no stage in progress (R254, R437) is stated for every job, one of
whose stages may stand on a pillow number past the 48; it fails there. -/

namespace Sys2Proof.Machine

/-- A loose job of one stage, which stands on pillow 255, the number of a map's unused entries. -/
def strayJob : Job :=
  { pinned := false, template := 0, inst := 0, stream := 0, prk := 0, asid := 0, seed := 0, sr := 0, tRel := 0
    tLast := 0, firstLine := 0, deadline := 0, sheet := 0, slotTag := 0, recTag := 0, port := 0, order := 0
    ctxIdx := 0, map := [], len := [], stages := [(0, { pillow := 255 })] }

/-- A running device whose context 3 holds that job, queued on its pillow; the first byte of the context is
poisoned. -/
def strayState : State :=
  { State.reset with
    mgmt := { State.reset.mgmt with devState := 3, fwStarted := true }
    jobs := [(3, some strayJob)]
    pillows := [(255, { looseQ := [(3, 0)] })]
    ms := { State.reset.ms with poison := [csBase + 768] } }

/-- The header of its JOB_ABORT. -/
def strayHdr : Hdr := { t := 0, tag := 7, prio := 1 }

/-- The abort clears the queues of the 48 pillows alone: the stage on pillow 255 starts, and the read of its context
takes the poison away (R257). -/
theorem abort_strayState_ms {t : State} (h : exec (.jobAbortLoose strayHdr 3) strayState = .next t) :
    t.ms.poison = [] := by
  have hrun : (match exec (.jobAbortLoose strayHdr 3) strayState with
    | .next u => u.ms.poison
    | _ => [0]) = [] := by decide +kernel
  rwa [h] at hrun

/-- Refutes O54: an abort of a job whose stage is queued on a pillow past the 48 starts that stage, and so changes
the memory system, which the clause of R254 says it leaves. -/
theorem not_looseJobs : ¬ Obligations.LooseJobs := by
  unfold Obligations.LooseJobs
  rintro ⟨-, -, -, habort, -⟩
  obtain ⟨t, hexec, -, -, -, -, -, ht⟩ := habort strayHdr 3 strayJob strayState (by decide +kernel) rfl rfl rfl rfl rfl
    (by simp [strayState]) (by decide +kernel)
  have hkept : t.ms.poison = strayState.ms.poison := by rw [ht]
  rw [abort_strayState_ms hexec] at hkept
  exact absurd hkept (by decide)

end Sys2Proof.Machine
end

section
/-! PROOF. O58: records, their commit and the mover (R47, R153, R253, R264, R269, R298, R300). -/

namespace Sys2Proof.Machine

/-! ## The two packets of a job (R269, R297, R299) -/

theorem length_inst? (j : Job) (w v : Nat) : (j.inst? w v).length = w := length_leBytes w _

theorem length_sliceBytes (o n : Nat) (b : Bytes) : (sliceBytes o n b).length = n := by
  have hle : ((b.drop o).take n).length ≤ n := List.length_take_le n _
  simp only [sliceBytes, List.length_append, List.length_replicate]
  omega

theorem length_compactRecord (e m n : Nat) (b : Bytes) (j : Job) : (j.compactRecord e m n b).length = 16 := by
  unfold Job.compactRecord
  simp only [List.length_append, length_leBytes, length_inst?, length_sliceBytes]

theorem length_releaseTime (j : Job) : (if j.pinned then leBytes 8 j.sr else leBytes 8 (2 ^ 48 - 1)).length = 8 := by
  cases j.pinned <;> exact length_leBytes 8 _

theorem length_fullRecord (c e m n : Nat) (b : Bytes) (j : Job) : (j.fullRecord c e m n b).length = 256 := by
  have hlens : ((List.range 4).flatMap fun i => leBytes 4 (nth j.len i)).length = 16 := by
    simp only [List.length_flatMap, length_leBytes, List.map_const', List.length_range, List.sum_replicate]
    rfl
  unfold Job.fullRecord
  simp only [List.length_append, length_leBytes, length_inst?, length_sliceBytes, length_releaseTime, hlens, zeros,
    List.length_replicate]

/-- The compact packet takes one item (R269). -/
theorem items_compactPacket (c e m n : Nat) (b : Bytes) (j : Job) :
    (recordPacket c j (j.compactRecord e m n b)).items = 1 := by
  simp only [recordPacket, QPacket.items, length_compactRecord]
  rfl

/-- The full packet takes four items (R269). -/
theorem items_fullPacket (c e m n : Nat) (b : Bytes) (j : Job) :
    (recordPacket c j (j.fullRecord c e m n b)).items = 4 := by
  simp only [recordPacket, QPacket.items, length_fullRecord]
  rfl

/-! ## Entering a queue (R263) -/

/-- The condition under which a packet enters at once. -/
def Queue.takes (q n : Nat) (x : Queue) : Bool := x.wait.isEmpty && x.wpart.isNone && x.fits q n

theorem Queue.joined_of_takes {q : Nat} {p : QPacket} {x : Queue} (h : x.takes q p.items = true) :
    x.joined q p = { x with vis := x.vis ++ [p] } := if_pos h

theorem Queue.takes_iff (q n : Nat) (x : Queue) :
    x.takes q n = true ↔ (x.wait.isEmpty && x.wpart.isNone) = true ∧ x.items + n ≤ queueCap q := by
  rw [Queue.takes, Queue.fits, Bool.and_eq_true, decide_eq_true_iff]

theorem Queue.items_append (x : Queue) (p : QPacket) :
    ({ x with vis := x.vis ++ [p] } : Queue).items = x.items + p.items := by
  simp only [Queue.items, Queue.partItems, List.map_append, List.map_cons, List.map_nil, List.sum_append,
    List.sum_cons, List.sum_nil]
  omega

/-- A queue with room for two packets takes both, one behind the other. -/
theorem Queue.joined_two {q m n : Nat} {a b : QPacket} {x : Queue} (ha : a.items = m) (hb : b.items = n)
    (h : x.takes q (m + n) = true) : (x.joined q a).joined q b = { x with vis := x.vis ++ [a, b] } := by
  obtain ⟨hfree, hroom⟩ := (Queue.takes_iff ..).mp h
  have hfirst : x.takes q a.items = true := (Queue.takes_iff ..).mpr ⟨hfree, by omega⟩
  have hnext : ({ x with vis := x.vis ++ [a] } : Queue).takes q b.items = true :=
    (Queue.takes_iff ..).mpr ⟨hfree, by rw [Queue.items_append]; omega⟩
  rw [Queue.joined_of_takes hfirst, Queue.joined_of_takes hnext]
  simp only [List.append_assoc, List.cons_append, List.nil_append]

/-- A presented packet changes no more than its queue, but for the credit of queue 0 (R391). -/
theorem State.present_eq {q : Nat} (hq : q ≠ 0) (p : QPacket) (s : State) :
    s.present q p = { s with queues := (s.present q p).queues } :=
  State.eq_of_parts (by simp [State.present_frame, State.present_sdio q hq])

/-! ## The figures of a job's records -/

/-- A job with passes and a slot has its figures from them; nothing is left open (R297). -/
theorem State.recordFigures_known {j : Job} {s : State} (hfig : j.figures = none) (he : j.epochs ≠ [])
    (hm : j.slotTag ≠ 0xFF) : s.recordFigures j = ((j.oldestEpoch, (s.slot j.slotTag).model), s) := by
  have hepoch : s.recordEpoch j = (j.oldestEpoch, s) := by
    unfold State.recordEpoch
    rw [if_neg (by simpa using he)]
  have hmodel : s.recordModel j = ((s.slot j.slotTag).model, s) := by
    unfold State.recordModel
    rw [if_neg hm]
  simp only [State.recordFigures, hfig, hepoch, hmodel]

/-! ## A commit -/

/-- What the commit of a loose job without figures leaves in its queue. -/
def Queue.committed (p c now : Nat) (j : Job) (m : Nat) (b : Bytes) (x : Queue) : Queue :=
  (x.joined (3 + p) (recordPacket c j (j.compactRecord j.oldestEpoch m now b))).joined (3 + p)
    (recordPacket c j (j.fullRecord c j.oldestEpoch m now b))

/-- With room for both packets they stand behind what the queue holds (R269). -/
theorem Queue.committed_of_room {p c now m : Nat} {j : Job} {b : Bytes} {x : Queue}
    (h : x.takes (3 + p) 5 = true) : x.committed p c now j m b = { x with vis := x.vis
      ++ [recordPacket c j (j.compactRecord j.oldestEpoch m now b),
          recordPacket c j (j.fullRecord c j.oldestEpoch m now b)] } :=
  Queue.joined_two (items_compactPacket ..) (items_fullPacket ..) h

/-- The records of a loose job counted: the counters alone move (R186, R497). -/
theorem State.countCommit_loose {p c : Nat} {j : Job} {s : State} (hp : j.pinned = false) :
    s.countCommit p c j = { s with
      mgmt := (s.countCommit p c j).mgmt, pillows := (s.countCommit p c j).pillows } := by
  unfold State.countCommit
  simp only [hp, Bool.false_and, Bool.false_eq_true, if_false]
  exact State.eq_of_parts (by simp [State.modPillow_frame])

theorem State.countCommit_run {p c : Nat} {j : Job} {s : State} (hp : j.pinned = false) (q : Nat) :
    ((s.countCommit p c j).pillow q).run = (s.pillow q).run := by
  unfold State.countCommit
  simp only [hp, Bool.false_and, Bool.false_eq_true, if_false, State.pillow_modPillow]
  split
  · next h => subst h; rfl
  · rfl

section

variable {p c : Nat} {j : Job} {b : Bytes} {s : State} (hp : j.pinned = false) (hfig : j.figures = none)
  (he : j.epochs ≠ []) (hm : j.slotTag ≠ 0xFF)

include hp hfig he hm

/-- The commit of a loose job without figures: both packets are presented, then it is counted. -/
theorem State.commitRecords_loose :
    s.commitRecords p c j b = State.countCommit p c j
      ((s.present (3 + p) (recordPacket c j (j.compactRecord j.oldestEpoch (s.slot j.slotTag).model s.now b))).present
        (3 + p) (recordPacket c j (j.fullRecord c j.oldestEpoch (s.slot j.slotTag).model s.now b))) := by
  simp only [State.commitRecords, State.recordFigures_known hfig he hm, hfig, hp, Option.isSome_none,
    Bool.false_eq_true, if_false, State.present_frame]

theorem State.commitRecords_eq : s.commitRecords p c j b = { s with
    queues := (s.commitRecords p c j b).queues, pillows := (s.commitRecords p c j b).pillows
    mgmt := (s.commitRecords p c j b).mgmt } := by
  rw [State.commitRecords_loose hp hfig he hm, State.countCommit_loose hp, State.present_eq (by omega),
    State.present_eq (by omega)]

theorem State.commitRecords_queue (q : Nat) : (s.commitRecords p c j b).queue q
    = if q = 3 + p then (s.queue (3 + p)).committed p c s.now j (s.slot j.slotTag).model b else s.queue q := by
  rw [State.commitRecords_loose hp hfig he hm, State.countCommit_loose hp]
  change State.queue ((s.present _ _).present _ _) q = _
  rw [State.present_queue, State.present_queue, State.present_queue, if_pos rfl]
  split
  · rfl
  · rfl

theorem State.commitRecords_run (q : Nat) : ((s.commitRecords p c j b).pillow q).run = (s.pillow q).run := by
  rw [State.commitRecords_loose hp hfig he hm, State.countCommit_run hp]
  exact congrArg Pillow.run (State.pillow_of_pillows (by simp [State.present_frame]) q)

end

/-! ## The end of a job's context -/

theorem State.settleAll_jobs (ps : List Nat) (s : State) : (ps.foldl (fun s p => s.settle p) s).jobs = s.jobs :=
  State.foldl_jobs _ _ _ fun s p => by simp [State.settle_frame]

/-- A job that is dropped leaves its context free, and every other context as it was. -/
theorem State.dropJob_job {c : Nat} {j : Job} {s : State} (hj : s.job c = some j) (d : Nat) :
    (s.dropJob c).job d = if d = c then none else s.job d := by
  have hset : ((s.countMonitors c j).setJob c none).job d = if d = c then none else s.job d := by
    rw [State.job_setJob, State.job_of_jobs (s := s) (by simp [State.countMonitors_frame])]
  simp only [State.dropJob, hj]
  rw [← hset]
  refine State.job_of_jobs ((State.settleAll_jobs _ _).trans ?_) d
  split
  · rfl
  · rfl

theorem State.dropJob_eq (c : Nat) (s : State) : s.dropJob c = { s with
    jobs := (s.dropJob c).jobs, pillows := (s.dropJob c).pillows, mgmt := (s.dropJob c).mgmt } :=
  State.eq_of_parts (by simp [State.dropJob_frame])

/-! ## RECORD_COMMIT (R253, R264) -/

section

variable {n p c : Nat} {j : Job} {s : State} (halive : s.alive = true)

include halive

/-- A record without work that finds room is committed, and its context is dropped. -/
theorem exec_recordCommit_dead (hdead : s.deadJob p = some (c, j)) (hroom : s.recordRoom p j = true) :
    exec (.recordCommit n p) s
      = .next ((((s.advance n).commitRecords p c j []).dropJob c).settlePillows j.pillows) := by
  have hd : (s.advance n).deadJob p = some (c, j) := hdead
  have hr : (s.advance n).recordRoom p j = true := hroom
  rw [exec_recordCommit, execRecordCommit]
  simp only [State.advance_alive, halive, Bool.not_true, Bool.false_eq_true, if_false, hd, hr, if_true]

/-- A record without work that finds no room for all of it waits. -/
theorem exec_recordCommit_wait (hdead : s.deadJob p = some (c, j)) (hroom : s.recordRoom p j = false) :
    exec (.recordCommit n p) s = .next ((s.advance n).compactFirst p c j []) := by
  have hd : (s.advance n).deadJob p = some (c, j) := hdead
  have hr : (s.advance n).recordRoom p j = false := hroom
  rw [exec_recordCommit, execRecordCommit]
  simp only [State.advance_alive, halive, Bool.not_true, Bool.false_eq_true, if_false, hd, hr]

/-- The RECORD that a stage has reached commits with the payload it reads, and the stage goes on (R153). -/
theorem exec_recordCommit_work {w : Work} {b : Bytes} {v : State} (hdead : s.deadJob p = none)
    (hwork : s.recordWork p = some w) (habort : w.job.aborting = none) (hstop : w.run.stop = none)
    (hread : (s.advance n).readPayload w = .ok b v) (hj : v.job w.run.ctx = some j) (hroom : v.recordRoom p j = true) :
    exec (.recordCommit n p) s
      = .next (((v.commitRecords p w.run.ctx j b).modRun p fun _ => w.nextOp).boundary p 6) := by
  have hd : (s.advance n).deadJob p = none := hdead
  have hw : (s.advance n).recordWork p = some w := hwork
  rw [exec_recordCommit, execRecordCommit]
  simp only [State.advance_alive, halive, Bool.not_true, Bool.false_eq_true, if_false, hd, hw, hstop, habort,
    Option.isSome_none, Bool.or_self, State.runRecord, hread, hj, Option.getD_some, hroom, if_true]

end

/-- A RECORD that waits: the compact packet enters where it can, and the queue notes the wait (R264, R269). -/
theorem State.compactFirst_enters {p c : Nat} {j : Job} {b : Bytes} {s : State} (hfig : j.figures = none)
    (he : j.epochs ≠ []) (hm : j.slotTag ≠ 0xFF) (hroom : s.itemRoom p 1 = true) :
    s.compactFirst p c j b = (((s.present (3 + p) (recordPacket c j
        (j.compactRecord j.oldestEpoch (s.slot j.slotTag).model s.now b))).modJob c
          fun k => { k with figures := some (j.oldestEpoch, (s.slot j.slotTag).model) }).modQueue (3 + p)
            fun x => { x with fullSeen := true }) := by
  simp only [State.compactFirst, hfig, hroom, Option.isNone_none, Bool.and_self, if_true,
    State.recordFigures_known hfig he hm]

theorem State.compactFirst_waits {p c : Nat} {j : Job} {b : Bytes} {s : State}
    (h : j.figures.isSome = true ∨ s.itemRoom p 1 = false) :
    s.compactFirst p c j b = s.modQueue (3 + p) fun x => { x with fullSeen := true } := by
  have hno : (j.figures.isNone && s.itemRoom p 1) = false := by
    rcases h with h | h
    · simp [Option.isSome_iff_ne_none.mp h]
    · simp [h]
  simp only [State.compactFirst, hno, Bool.false_eq_true, if_false]

/-! ## RECORD_MOVE (R300) -/

/-- The state whose queue the mover has taken a packet from, no word of it in error. -/
def State.moved (p n : Nat) (q : QPacket) (rest : List QPacket) (s : State) : State :=
  ((s.advance n).wordsCorrected (3 + p) 0).putQueue (3 + p)
    { ((s.advance n).wordsCorrected (3 + p) 0).queue (3 + p) with vis := rest, last := q.lastItem }

theorem State.wordsCorrected_queue (k m n : Nat) (s : State) : (s.wordsCorrected k n).queue m
    = if m = k then { s.queue k with ce := satAdd 0xFFFF (s.queue k).ce n } else s.queue m :=
  State.queue_modQueue ..

theorem State.moved_queue (p n : Nat) (q : QPacket) (rest : List QPacket) (s : State) :
    (s.moved p n q rest).queue (3 + p) = { s.queue (3 + p) with
      vis := rest, last := q.lastItem, ce := ((s.moved p n q rest).queue (3 + p)).ce } := by
  unfold State.moved
  rw [State.putQueue_queue, if_pos rfl, State.wordsCorrected_queue, if_pos rfl]
  rfl

theorem State.moved_queue_ne {p m : Nat} (h : m ≠ 3 + p) (n : Nat) (q : QPacket) (rest : List QPacket) (s : State) :
    (s.moved p n q rest).queue m = s.queue m := by
  unfold State.moved
  rw [State.putQueue_queue, if_neg h, State.wordsCorrected_queue, if_neg h]
  rfl

/-- The mover's taking changes the queues alone. -/
theorem State.moved_eq (p n : Nat) (q : QPacket) (rest : List QPacket) (s : State) : s.moved p n q rest
    = { s with now := max s.now n, queues := (s.moved p n q rest).queues } := by
  unfold State.moved
  exact State.eq_of_parts (by
    simp [State.putQueue_frame, State.putQueue_sdio (show 3 + p ≠ 0 by omega), State.wordsCorrected_frame,
      State.advance_frame])

theorem selectPacket_ne_nil {l : List QPacket} {x : QPacket × List QPacket} (h : selectPacket l = some x) :
    l.isEmpty = false := by
  cases l with
  | nil => exact absurd h (by simp [selectPacket])
  | cons => rfl

/-- A clean move routes the packet that R265 takes next. -/
theorem exec_recordMove_clean {n p : Nat} {q : QPacket} {rest : List QPacket} {s : State} (halive : s.alive = true)
    (hsel : selectPacket (s.queue (3 + p)).vis = some (q, rest)) :
    exec (.recordMove n p .clean) s = .next ((s.moved p n q rest).routeRecord q) := by
  have hvis : (s.alive && !(s.queue (3 + p)).vis.isEmpty) = true := by
    rw [halive, selectPacket_ne_nil hsel]; rfl
  have hsel' : selectPacket ((s.advance n).queue (3 + p)).vis = some (q, rest) := hsel
  have htaken : selectPacket (((s.advance n).wordsCorrected (3 + p) 0).queue (3 + p)).vis = some (q, rest) := by
    rw [State.wordsCorrected_queue, if_pos rfl]
    exact hsel
  have htake : (s.advance n).takePacket (3 + p) .clean = (none, some q, s.moved p n q rest) := by
    simp only [State.takePacket, hsel', State.takeClean, State.moved, WordEcc.words, WordEcc.lost, htaken,
      Bool.false_eq_true, if_false]
  rw [exec_recordMove, execRecordMove]
  simp only [State.advance_alive, State.advance_queue, hvis, if_true, htake, Option.elim_some, State.afterLoss,
    Option.elim_none]

/-! ## The clauses of O58 -/

section

variable {n p c : Nat} {j : Job} {s : State} (halive : s.alive = true) (hdead : s.deadJob p = some (c, j))

include halive hdead

theorem recordCommit_dead (hjob : s.job c = some j) (hloose : j.pinned = false) (hfig : j.figures = none)
    (hroom : s.recordRoom p j = true) (he : j.epochs ≠ []) (hm : j.slotTag ≠ 0xFF) :
    ∃ u : State, exec (.recordCommit n p) s = .next (u.settlePillows j.pillows)
      ∧ u.queue (3 + p) = { s.queue (3 + p) with vis := (s.queue (3 + p)).vis
          ++ [recordPacket c j (j.compactRecord j.oldestEpoch (s.slot j.slotTag).model (max s.now n) []),
              recordPacket c j (j.fullRecord c j.oldestEpoch (s.slot j.slotTag).model (max s.now n) [])] }
      ∧ (∀ q, q ≠ 3 + p → u.queue q = s.queue q) ∧ u.job c = none ∧ (∀ d, d ≠ c → u.job d = s.job d)
      ∧ u = { s with
          now := max s.now n, queues := u.queues, jobs := u.jobs, pillows := u.pillows, mgmt := u.mgmt } := by
  have hcommit := State.commitRecords_eq (p := p) (c := c) (b := []) (s := s.advance n) hloose hfig he hm
  have hqueue := State.commitRecords_queue (p := p) (c := c) (b := []) (s := s.advance n) hloose hfig he hm
  have hjob' : ((s.advance n).commitRecords p c j []).job c = some j := by rw [hcommit]; exact hjob
  have hdrop : ∀ q, (((s.advance n).commitRecords p c j []).dropJob c).queue q
      = ((s.advance n).commitRecords p c j []).queue q := fun q =>
    State.queue_of_queues (by rw [State.dropJob_eq]) q
  have hfive : (s.queue (3 + p)).takes (3 + p) 5 = true := by
    rw [State.recordRoom, hfig] at hroom
    exact hroom
  refine ⟨_, exec_recordCommit_dead halive hdead hroom, ?_, fun q hq => ?_, ?_, fun d hd => ?_, ?_⟩
  · rw [hdrop, hqueue, if_pos rfl]
    exact Queue.committed_of_room hfive
  · rw [hdrop, hqueue, if_neg hq]
    rfl
  · rw [State.dropJob_job hjob', if_pos rfl]
  · rw [State.dropJob_job hjob', if_neg hd, hcommit]
    rfl
  · rw [State.dropJob_eq, hcommit]
    rfl

theorem recordCommit_compactFirst (hjob : s.job c = some j) (hfig : j.figures = none) (hroom : s.recordRoom p j = false)
    (hone : s.itemRoom p 1 = true) (he : j.epochs ≠ []) (hm : j.slotTag ≠ 0xFF) :
    ∃ t : State, exec (.recordCommit n p) s = .next t
      ∧ t.queue (3 + p) = { s.queue (3 + p) with
          vis := (s.queue (3 + p)).vis
            ++ [recordPacket c j (j.compactRecord j.oldestEpoch (s.slot j.slotTag).model (max s.now n) [])]
          fullSeen := true }
      ∧ t.job c = some { j with figures := some (j.oldestEpoch, (s.slot j.slotTag).model) }
      ∧ (∀ q, q ≠ 3 + p → t.queue q = s.queue q) ∧ (∀ d, d ≠ c → t.job d = s.job d)
      ∧ t = { s with now := max s.now n, queues := t.queues, jobs := t.jobs } := by
  have hroom1 : (s.advance n).itemRoom p 1 = true := hone
  refine ⟨_, (exec_recordCommit_wait halive hdead hroom).trans
    (congrArg _ (State.compactFirst_enters hfig he hm hroom1)), ?_, ?_, fun q hq => ?_, fun d hd => ?_, ?_⟩
  · rw [State.queue_modQueue, if_pos rfl]
    change { State.queue (State.present _ _ _) (3 + p) with fullSeen := true } = _
    rw [State.present_queue, if_pos rfl, Queue.joined_of_takes (by rw [items_compactPacket]; exact hone)]
    rfl
  · change (State.modJob c _ _).job c = _
    rw [State.job_modJob_same, State.job_of_jobs (s := s) (by simp [State.present_frame, State.advance_frame]), hjob]
    rfl
  · rw [State.queue_modQueue, if_neg hq]
    change State.queue (State.present _ _ _) q = _
    rw [State.present_queue, if_neg hq]
    rfl
  · change (State.modJob c _ _).job d = _
    rw [State.job_modJob_ne hd, State.job_of_jobs (s := s) (by simp [State.present_frame, State.advance_frame])]
  · exact State.eq_of_parts (by
      simp [State.modQueue_frame, State.modJob_frame, State.present_frame, State.present_sdio (3 + p) (by omega),
        State.advance_frame])

theorem recordCommit_waits (hroom : s.recordRoom p j = false)
    (hno : j.figures.isSome = true ∨ s.itemRoom p 1 = false) :
    ∃ t : State, exec (.recordCommit n p) s = .next t ∧ t.queue (3 + p) = { s.queue (3 + p) with fullSeen := true }
      ∧ (∀ q, q ≠ 3 + p → t.queue q = s.queue q) ∧ t = { s with now := max s.now n, queues := t.queues } := by
  have hno' : j.figures.isSome = true ∨ (s.advance n).itemRoom p 1 = false := hno
  refine ⟨_, (exec_recordCommit_wait halive hdead hroom).trans
    (congrArg _ (State.compactFirst_waits hno')), ?_, fun q hq => ?_, rfl⟩
  · rw [State.queue_modQueue, if_pos rfl]
    rfl
  · rw [State.queue_modQueue, if_neg hq]
    rfl

end

theorem recordCommit_work {n p : Nat} {w : Work} {j : Job} {b : Bytes} {v s : State} (halive : s.alive = true)
    (hdead : s.deadJob p = none) (hwork : s.recordWork p = some w) (habort : w.job.aborting = none)
    (hstop : w.run.stop = none) (hread : (s.advance n).readPayload w = .ok b v) (hj : v.job w.run.ctx = some j)
    (hfig : j.figures = none) (hroom : v.recordRoom p j = true) (he : j.epochs ≠ []) (hm : j.slotTag ≠ 0xFF)
    (hloose : j.pinned = false) :
    ∃ u : State, exec (.recordCommit n p) s = .next (u.boundary p 6)
      ∧ u.queue (3 + p) = ((v.queue (3 + p)).joined (3 + p)
          (recordPacket w.run.ctx j (j.compactRecord j.oldestEpoch (v.slot j.slotTag).model (max s.now n) b))).joined (3 + p)
          (recordPacket w.run.ctx j (j.fullRecord w.run.ctx j.oldestEpoch (v.slot j.slotTag).model (max s.now n) b))
      ∧ (∀ q, q ≠ 3 + p → u.queue q = v.queue q) ∧ (u.pillow p).run = (v.pillow p).run.map (fun _ => w.nextOp)
      ∧ u.mem = v.mem ∧ u.jobs = v.jobs := by
  have hnow : v.now = max s.now n := by
    have h := (State.readPayload_frame w (s.advance n) (by rw [hread]; rfl)).1
    rwa [hread] at h
  have hcommit := State.commitRecords_eq (p := p) (c := w.run.ctx) (b := b) (s := v) hloose hfig he hm
  have hqueue := State.commitRecords_queue (p := p) (c := w.run.ctx) (b := b) (s := v) hloose hfig he hm
  refine ⟨_, exec_recordCommit_work halive hdead hwork habort hstop hread hj hroom, ?_, fun q hq => ?_, ?_, ?_, ?_⟩
  · rw [← hnow]
    exact (hqueue (3 + p)).trans (if_pos rfl)
  · exact (hqueue q).trans (if_neg hq)
  · rw [State.modRun, State.pillow_modPillow_same]
    exact congrArg (Option.map fun _ => w.nextOp) (State.commitRecords_run hloose hfig he hm p)
  · change (State.commitRecords p w.run.ctx j b v).mem = _
    rw [hcommit]
  · change (State.commitRecords p w.run.ctx j b v).jobs = _
    rw [hcommit]

/-- Settles O58: a commit presents the two packets, whose items are counted, and the mover routes what it takes. -/
theorem records : Obligations.Records := by
  unfold Obligations.Records
  refine ⟨fun n p c j s halive hdead hjob hloose hfig hroom he hm =>
      recordCommit_dead halive hdead hjob hloose hfig hroom he hm,
    fun n p w j b v s halive hdead hwork habort hstop hread hj hfig hroom he hm hloose =>
      recordCommit_work halive hdead hwork habort hstop hread hj hfig hroom he hm hloose,
    fun n p c j s halive hdead hjob hfig hroom hone he hm =>
      recordCommit_compactFirst halive hdead hjob hfig hroom hone he hm,
    fun n p c j s halive hdead hroom hno => recordCommit_waits halive hdead hroom hno,
    fun n p q rest s halive hsel hlen hprio => ?_,
    fun n p q rest s halive hsel hlen hprio hen hstream hbuf => ?_,
    fun n p q rest s halive hsel hlen h22 h23 hbuf => ?_⟩
  case refine_1 =>
    have hroute : (s.moved p n q rest).routeRecord q = s.moved p n q rest := by
      rw [State.routeRecord, if_pos hlen, if_neg (by omega)]
    exact ⟨_, (exec_recordMove_clean halive hsel).trans (congrArg _ hroute), State.moved_queue ..,
      fun m hm => State.moved_queue_ne hm .., State.moved_eq ..⟩
  case refine_2 =>
    have hpk : (s.moved p n q rest).pk = s.pk := by rw [State.moved_eq]
    have hroute : (s.moved p n q rest).routeRecord q
        = { s.moved p n q rest with pk := { s.pk with buf := s.pk.buf ++ [q.data] } } := by
      rw [State.routeRecord, if_pos hlen, if_pos hprio, State.pkDeliver]
      simp only [hpk, hen, hstream, hbuf, Option.any_some, Bool.and_self, Bool.not_true, Bool.false_eq_true, if_false,
        if_true]
    refine ⟨_, (exec_recordMove_clean halive hsel).trans (congrArg _ hroute), rfl, State.moved_queue ..,
      fun m hm => State.moved_queue_ne hm .., ?_⟩
    rw [State.moved_eq]
  case refine_3 =>
    have hservices : (s.moved p n q rest).services = s.services := by rw [State.moved_eq]
    have hservice : ∀ k, (s.moved p n q rest).service k = s.service k := fun k => by
      rw [State.service, hservices]; rfl
    have hroute : (s.moved p n q rest).routeRecord q = ((s.moved p n q rest).modService 0 fun x =>
        { x with buf := insertRec { bytes := q.data, pinned := q.prio == 1 } x.buf }).egress 0 := by
      rw [State.routeRecord, if_neg hlen]
      simp only [h22, h23, Bool.false_eq_true, if_true, if_false, State.egressRecord, hservice, hbuf]
    refine ⟨_, (exec_recordMove_clean halive hsel).trans (congrArg _ hroute), ?_, ?_, State.moved_queue .., ?_⟩
    · rw [State.service_modService, if_pos rfl, hservice]
    · rw [State.service_modService, if_neg (by decide), hservice]
    · rw [State.moved_eq]
      rfl

end Sys2Proof.Machine
end

section
/-! PROOF. Operations that leave the stages on the pillows where they are (R39, R246), for O53 and O55. -/

namespace Sys2Proof.Machine

/-! ## The stages on a pillow -/

/-- The stages on a pillow: those in its banks, its queues and its save slots, and nothing else of it. -/
def Pillow.work (x : Pillow) : Pillow :=
  { run := x.run, standby := x.standby, saving := x.saving, restoring := x.restoring, saves := x.saves
    readyQ := x.readyQ, looseQ := x.looseQ }

/-- Two states have the same stages on every pillow. -/
structure State.SameWork (s t : State) : Prop where
  work : ∀ p, (t.pillow p).work = (s.pillow p).work

theorem State.SameWork.refl (s : State) : s.SameWork s := ⟨fun _ => rfl⟩

theorem State.SameWork.trans {s t u : State} (h : s.SameWork t) (k : t.SameWork u) : s.SameWork u :=
  ⟨fun p => (k.work p).trans (h.work p)⟩

theorem State.SameWork.run {s t : State} (h : s.SameWork t) (p : Nat) : (t.pillow p).run = (s.pillow p).run :=
  show (t.pillow p).work.run = (s.pillow p).work.run by rw [h.work p]

theorem State.SameWork.standby {s t : State} (h : s.SameWork t) (p : Nat) :
    (t.pillow p).standby = (s.pillow p).standby :=
  show (t.pillow p).work.standby = (s.pillow p).work.standby by rw [h.work p]

theorem State.SameWork.saving {s t : State} (h : s.SameWork t) (p : Nat) : (t.pillow p).saving = (s.pillow p).saving :=
  show (t.pillow p).work.saving = (s.pillow p).work.saving by rw [h.work p]

theorem State.SameWork.restoring {s t : State} (h : s.SameWork t) (p : Nat) :
    (t.pillow p).restoring = (s.pillow p).restoring :=
  show (t.pillow p).work.restoring = (s.pillow p).work.restoring by rw [h.work p]

theorem State.SameWork.readyQ {s t : State} (h : s.SameWork t) (p : Nat) : (t.pillow p).readyQ = (s.pillow p).readyQ :=
  show (t.pillow p).work.readyQ = (s.pillow p).work.readyQ by rw [h.work p]

theorem State.SameWork.looseQ {s t : State} (h : s.SameWork t) (p : Nat) : (t.pillow p).looseQ = (s.pillow p).looseQ :=
  show (t.pillow p).work.looseQ = (s.pillow p).work.looseQ by rw [h.work p]

theorem State.SameWork.saves {s t : State} (h : s.SameWork t) (p : Nat) : (t.pillow p).saves = (s.pillow p).saves :=
  show (t.pillow p).work.saves = (s.pillow p).work.saves by rw [h.work p]

theorem State.SameWork.of_pillows {s t : State} (h : t.pillows = s.pillows) : s.SameWork t :=
  ⟨fun p => congrArg Pillow.work (State.pillow_of_pillows h p)⟩

theorem State.SameWork.modPillow {p : Nat} {f : Pillow → Pillow} {s : State}
    (h : (f (s.pillow p)).work = (s.pillow p).work) : s.SameWork (s.modPillow p f) where
  work q := by
    rw [State.pillow_modPillow]
    split
    · next e => rw [e, h]
    · rfl

theorem State.SameWork.setPillow {p : Nat} {x : Pillow} {s : State} (h : x.work = (s.pillow p).work) :
    s.SameWork (s.setPillow p x) := State.SameWork.modPillow (f := fun _ => x) h

theorem State.SameWork.setBobbin (p b : Nat) (x : Bobbin) (s : State) : s.SameWork (s.setBobbin p b x) :=
  State.SameWork.modPillow rfl

theorem State.SameWork.then_setBobbin {s t : State} (h : s.SameWork t) {p b : Nat} {x : Bobbin} :
    s.SameWork (t.setBobbin p b x) := h.trans (.setBobbin p b x t)

theorem State.SameWork.foldl {α : Type} {g : State → α → State} (h : ∀ (t : State) a, t.SameWork (g t a)) (l : List α)
    (s : State) : s.SameWork (l.foldl g s) :=
  foldl_keeps (fun t => s.SameWork t) g l s (State.SameWork.refl s) fun _ _ ht => ht.trans (h _ _)

theorem State.SameWork.ite {c : Prop} [Decidable c] {s t u : State} (ht : c → s.SameWork t) (hu : ¬ c → s.SameWork u) :
    s.SameWork (if c then t else u) := by
  split
  · next h => exact ht h
  · next h => exact hu h

/-! ## Tables rewritten entry by entry -/

theorem tget_tmapTo {α : Type} [DecidableEq α] (d : Nat → α) (f : Nat → α → α) (n : Nat) (t : Tbl α) (k : Nat) :
    tget d (tmapTo d f n t) k = if k < n then f k (tget d t k) else tget d t k := by
  induction n with
  | zero => rfl
  | succ n ih =>
    rw [tmapTo, tget_tset]
    by_cases hk : k = n
    · subst hk
      rw [if_pos rfl, if_pos (Nat.lt_succ_self k), ih, if_neg (Nat.lt_irrefl k)]
    · rw [if_neg hk, ih]
      exact if_congr (by omega) rfl rfl

/-- A change of every pillow. -/
def State.mapPillows (f : Nat → Pillow → Pillow) (s : State) : State :=
  { s with pillows := tmapTo (fun _ => {}) f nPillows s.pillows }

theorem State.pillow_mapPillows (f : Nat → Pillow → Pillow) (s : State) (p : Nat) :
    (s.mapPillows f).pillow p = if p < 48 then f p (s.pillow p) else s.pillow p := by
  unfold State.mapPillows State.pillow
  exact tget_tmapTo ..

theorem State.SameWork.mapPillows {f : Nat → Pillow → Pillow} (h : ∀ p x, (f p x).work = x.work) (s : State) :
    s.SameWork (s.mapPillows f) where
  work p := by
    rw [State.pillow_mapPillows]
    split
    · exact h _ _
    · rfl

/-! ## What the end of work frees leaves the stages (R54, R84, R109) -/

theorem State.work_bindSets (p key : Nat) (l : List (Nat × Option ScaleSet)) (x : Pillow) (s : State) :
    (s.bindSets p key l x).work = x.work := by
  induction l generalizing x with
  | nil => rfl
  | cons e l ih =>
    obtain ⟨d, v⟩ := e
    unfold State.bindSets
    split
    · refine (ih _).trans ?_
      split <;> rfl
    · exact (ih _).trans rfl

theorem State.bindPending_sameWork (p : Nat) (sheet : Option Nat) (s : State) : s.SameWork (s.bindPending p sheet) := by
  unfold State.bindPending
  refine State.SameWork.ite (fun _ => .refl s) fun _ => .ite (fun _ => ?_) fun _ => ?_
  · exact .setPillow (State.work_bindSets ..)
  · exact .setPillow (State.work_bindSets ..)

theorem State.swapIn_sameWork (p : Nat) (retire : Bool) (s : State) : s.SameWork (s.swapIn p retire) := by
  unfold State.swapIn
  dsimp only
  split
  · exact .refl s
  · refine State.SameWork.ite (fun _ => .refl s) fun _ => ?_
    refine State.SameWork.then_setBobbin (State.SameWork.then_setBobbin (State.SameWork.setPillow ?_))
    rfl

theorem State.idleAdopt_sameWork (p : Nat) (s : State) : s.SameWork (s.idleAdopt p) := by
  unfold State.idleAdopt
  refine State.SameWork.ite (fun _ => .refl s) fun _ => ?_
  refine ((State.bindPending_sameWork p none s).trans (State.swapIn_sameWork p false _)).trans ?_
  exact .foldl (fun t b => .ite (fun _ => .refl t) fun _ => .setBobbin ..) ..

theorem State.retireEnd_sameWork (p : Nat) (s : State) : s.SameWork (s.retireEnd p) := by
  unfold State.retireEnd
  dsimp only
  split
  · exact .refl s
  · refine State.SameWork.ite (fun _ => .refl s) fun _ => ?_
    refine State.SameWork.then_setBobbin (State.SameWork.setPillow ?_)
    rfl

theorem State.releaseTrims_sameWork (p : Nat) (s : State) : s.SameWork (s.releaseTrims p) := by
  unfold State.releaseTrims
  refine .foldl (fun t b => ?_) ..
  dsimp only
  split
  · exact .ite (fun _ => .refl t) fun _ => .setBobbin ..
  · exact .refl t

theorem State.settle_sameWork (p : Nat) (s : State) : s.SameWork (s.settle p) :=
  ((State.retireEnd_sameWork p s).trans (State.releaseTrims_sameWork p _)).trans (State.idleAdopt_sameWork p _)

theorem State.countMonitors_sameWork (c : Nat) (j : Job) (s : State) : s.SameWork (s.countMonitors c j) := by
  unfold State.countMonitors
  refine .foldl (fun t p => .modPillow ?_) ..
  split
  · split <;> rfl
  · rfl

theorem State.freeOwner_sameWork (owner : Nat) (pinned : Bool) (n : Nat) (s : State) :
    s.SameWork (s.freeOwner owner pinned n) :=
  State.SameWork.mapPillows (f := fun _ x => x.freeOwner owner pinned n) (fun _ _ => rfl) s

/-- What the end of an aborted loose job frees. -/
theorem State.freed_sameWork (c : Nat) (j : Job) (s : State) : s.SameWork
    (j.pillows.foldl (fun s p => s.settle p) ((s.countMonitors c j).freeOwner (j.owner c) false c)) :=
  ((State.countMonitors_sameWork c j s).trans (State.freeOwner_sameWork ..)).trans
    (.foldl (fun t p => State.settle_sameWork p t) ..)

theorem State.deadLeft_sameWork (c : Nat) (s : State) : s.SameWork (s.deadLeft c) := by
  unfold State.deadLeft
  split
  · exact .refl s
  · next j _ =>
    refine State.SameWork.ite (fun _ => .refl s) fun _ => ?_
    dsimp only
    split
    · refine (State.freed_sameWork c j s).trans (.of_pillows ?_)
      simp only [State.done_frame, State.modJob_frame]
    · exact State.freed_sameWork c j s

/-! ## What they leave of the dispatcher -/

theorem State.settle_mgmt (p : Nat) (s : State) : (s.settle p).mgmt = s.mgmt := by
  have hretire : (s.retireEnd p).mgmt = s.mgmt := by
    unfold State.retireEnd
    dsimp only
    split
    · rfl
    · split <;> rfl
  have htrims (t : State) : (t.releaseTrims p).mgmt = t.mgmt := by
    unfold State.releaseTrims
    refine State.foldl_mgmt _ _ _ fun u b => ?_
    dsimp only
    split
    · split <;> rfl
    · rfl
  simp only [State.settle, State.idleAdopt_frame, htrims, hretire]

/-- The end of an aborted loose job takes no pillow out of service. -/
theorem State.deadLeft_pilOut (c : Nat) (s : State) : (s.deadLeft c).mgmt.pilOut = s.mgmt.pilOut := by
  have hfreed (j : Job) : (j.pillows.foldl (fun s p => s.settle p)
      ((s.countMonitors c j).freeOwner (j.owner c) false c)).mgmt = s.mgmt := by
    rw [State.foldl_mgmt _ _ _ fun t p => State.settle_mgmt p t]
    simp only [State.freeOwner_frame, State.countMonitors_frame]
  unfold State.deadLeft
  split
  · rfl
  · split
    · rfl
    · dsimp only
      split
      · next j _ _ h _ =>
        have hdone (t : State) : (t.done h Op.jobAbort 1 []).mgmt.pilOut = t.mgmt.pilOut := by
          rw [State.done_sameHands h Op.jobAbort 1 [] t]
        simp only [hdone, State.modJob_frame, hfreed]
      · simp only [hfreed]

end Sys2Proof.Machine
end

section
/-! PROOF. O55: ready, saved and restored stages, fences and window waits (R38 to R41, R178, R212, R246 to R250,
R257). -/

namespace Sys2Proof.Machine

/-! ## Phases of a job's stages -/

theorem Job.stage_setPhase (k m : Nat) (ph : StagePhase) (j : Job) :
    (j.setPhase k ph).stage m = if m = k then { j.stage k with phase := ph } else j.stage m := by
  unfold Job.setPhase Job.stage
  exact tget_tset ..

/-- A stage's place in a queue does not depend on phases (R38). -/
theorem State.edfKey_setPhase {c k : Nat} {j : Job} {ph : StagePhase} {s : State} (hj : s.job c = some j)
    (e : Nat × Nat) : (s.setJob c (some (j.setPhase k ph))).edfKey e = s.edfKey e := by
  unfold State.edfKey
  rw [State.job_setJob]
  by_cases hc : e.1 = c
  · rw [if_pos hc, hc, hj]
    simp only [Job.stage_setPhase]
    split
    · next h => rw [h]; rfl
    · rfl
  · rw [if_neg hc]

/-! ## The queue of ready stages (R38) -/

theorem State.mem_insertPinned (s : State) (e : Nat × Nat) (l : List (Nat × Nat)) : e ∈ s.insertPinned e l := by
  induction l with
  | nil => exact List.mem_singleton.mpr rfl
  | cons x r ih =>
    unfold State.insertPinned
    split
    · exact List.mem_cons_self
    · exact List.mem_cons_of_mem _ ih

theorem State.length_insertPinned (s : State) (e : Nat × Nat) (l : List (Nat × Nat)) :
    (s.insertPinned e l).length = l.length + 1 := by
  induction l with
  | nil => rfl
  | cons x r ih =>
    unfold State.insertPinned
    split
    · rfl
    · exact congrArg (· + 1) ih

theorem State.mem_insertLoose (s : State) (e : Nat × Nat) (l : List (Nat × Nat)) : e ∈ s.insertLoose e l := by
  induction l with
  | nil => exact List.mem_singleton.mpr rfl
  | cons x r ih =>
    unfold State.insertLoose
    split
    · exact List.mem_cons_self
    · exact List.mem_cons_of_mem _ ih

/-- A pinned stage becomes ready: its phase and its pillow's queue change. -/
theorem State.makeReady_pinned {c k : Nat} {j : Job} {s : State} (hj : s.job c = some j) (hp : j.pinned = true) :
    s.makeReady c k = (s.setJob c (some (j.setPhase k .ready))).modPillow (j.stage k).pillow fun x =>
      { x with readyQ := (s.setJob c (some (j.setPhase k .ready))).insertPinned (c, k) x.readyQ } := by
  simp only [State.makeReady, hj, hp, if_true]

theorem exec_stageReady_due {n p c k : Nat} {j : Job} {s : State} (halive : s.alive = true) (hj : s.job c = some j)
    (hp : j.pinned = true) (hdead : j.dead = false) (hphase : (j.stage k).phase = .waiting)
    (hpil : (j.stage k).pillow = p) (hdue : (j.stage k).readyAt ≤ max s.now n) :
    exec (.stageReady n p c k) s = .next (((s.advance n).makeReady c k).settlePillows [p]) := by
  rw [exec_stageReady, execStageReady]
  simp only [State.advance_job, hj]
  exact congrArg Host.Outcome.next (if_pos (by simp [halive, hp, hdead, hphase, hpil, le_max_iff.mp hdue]))

theorem stageReady_due {n p c k : Nat} {j : Job} {s : State} (halive : s.alive = true) (hj : s.job c = some j)
    (hp : j.pinned = true) (hdead : j.dead = false) (hphase : (j.stage k).phase = .waiting)
    (hpil : (j.stage k).pillow = p) (hdue : (j.stage k).readyAt ≤ max s.now n) :
    ∃ u : State, exec (.stageReady n p c k) s = .next (u.settlePillows [p])
      ∧ u.job c = some (j.setPhase k .ready) ∧ (∀ d, d ≠ c → u.job d = s.job d)
      ∧ (c, k) ∈ (u.pillow p).readyQ ∧ (u.pillow p).readyQ.length = (s.pillow p).readyQ.length + 1
      ∧ (∀ e r, (s.pillow p).readyQ = e :: r → lexLt (s.edfKey (c, k)) (s.edfKey e) = true →
          (u.pillow p).readyQ = (c, k) :: e :: r)
      ∧ u.pillow p = { s.pillow p with readyQ := (u.pillow p).readyQ } ∧ (∀ q, q ≠ p → u.pillow q = s.pillow q)
      ∧ u = { s with now := max s.now n, jobs := u.jobs, pillows := u.pillows } := by
  refine ⟨_, exec_stageReady_due halive hj hp hdead hphase hpil hdue, ?_⟩
  rw [State.makeReady_pinned (s := s.advance n) hj hp, hpil]
  have hready (e : Nat × Nat) (r : List (Nat × Nat)) (hq : (s.pillow p).readyQ = e :: r)
      (hlt : lexLt (s.edfKey (c, k)) (s.edfKey e) = true) :
      ((s.advance n).setJob c (some (j.setPhase k .ready))).insertPinned (c, k) (s.pillow p).readyQ
        = (c, k) :: e :: r := by
    rw [hq, State.insertPinned, State.edfKey_setPhase (s := s.advance n) hj,
      State.edfKey_setPhase (s := s.advance n) hj]
    exact if_pos hlt
  refine ⟨?_, fun d hd => ?_, ?_, ?_, fun e r hq hlt => ?_, ?_, fun q hq => State.pillow_modPillow_ne hq .., rfl⟩
  · rw [State.modPillow_job, State.job_setJob_same]
  · rw [State.modPillow_job, State.job_setJob_ne hd]
    rfl
  · rw [State.pillow_modPillow_same]
    exact State.mem_insertPinned ..
  · rw [State.pillow_modPillow_same]
    exact State.length_insertPinned ..
  · rw [State.pillow_modPillow_same]
    exact hready e r hq hlt
  · rw [State.pillow_modPillow_same]
    rfl

/-! ## Saves (R248 to R250) -/

/-- A byte outside every part of an image stays. -/
theorem State.byteAt_writeImage {a b : Nat} {im : List (Nat × Bytes)}
    (h : ∀ x ∈ im, b < a + x.1 ∨ a + x.1 + x.2.length ≤ b) (s : State) : (s.writeImage a im).byteAt b = s.byteAt b := by
  induction im generalizing s with
  | nil => rfl
  | cons x im ih =>
    have hx := h x List.mem_cons_self
    refine (ih (fun y hy => h y (List.mem_cons_of_mem _ hy)) _).trans ?_
    rw [State.byteAt_store, if_neg (by omega)]

/-- The state in which the image of a saved stage stands in its slot and its bank is free. -/
def State.saveDone (p n : Nat) (v : Saved) (w : Work) (s : State) : State :=
  ((s.advance n).writeImage (slotAddr p v.slot) (w.saveImage v.suspended)).modPillow p fun x => { x with
    saving := none
    mem := { x.mem with saveMax := max x.mem.saveMax (min 0xFFFF (200 + ceilDiv v.bytes 32)) } }

theorem exec_saveComplete_saved {n p : Nat} {v : Saved} {w : Work} {s : State} (halive : s.alive = true)
    (hsave : (s.pillow p).saving = some v) (hwork : s.workOf p v.run = some w) :
    exec (.saveComplete n p) s = .next (((s.saveDone p n v w).abortAsked v.run.ctx).settlePillows [p]) := by
  have hw : (s.advance n).workOf p v.run = some w := hwork
  rw [exec_saveComplete, execSaveComplete]
  simp only [State.advance_pillow, State.advance_alive, hsave, halive, if_true, hw, State.saveDone]

theorem State.saveDone_pillow (p n q : Nat) (v : Saved) (w : Work) (s : State) : (s.saveDone p n v w).pillow q
    = if q = p then { s.pillow p with
        saving := none
        mem := { (s.pillow p).mem with
          saveMax := max (s.pillow p).mem.saveMax (min 0xFFFF (200 + ceilDiv v.bytes 32)) } }
      else s.pillow q := by
  have hpil (r : Nat) : ((s.advance n).writeImage (slotAddr p v.slot) (w.saveImage v.suspended)).pillow r
      = s.pillow r := State.pillow_of_pillows (by simp [State.writeImage_frame, State.advance_frame]) r
  unfold State.saveDone
  rw [State.pillow_modPillow, hpil, hpil]

theorem saveComplete_saved {n p : Nat} {v : Saved} {w : Work} {s : State} (halive : s.alive = true)
    (hsave : (s.pillow p).saving = some v) (hwork : s.workOf p v.run = some w) :
    ∃ u : State, exec (.saveComplete n p) s = .next ((u.abortAsked v.run.ctx).settlePillows [p])
      ∧ u.pillow p = { s.pillow p with saving := none, mem := (u.pillow p).mem }
      ∧ (∀ q, q ≠ p → u.pillow q = s.pillow q)
      ∧ u.mem = ((s.advance n).writeImage (slotAddr p v.slot) (w.saveImage v.suspended)).mem
      ∧ (∀ a, (∀ x ∈ w.saveImage v.suspended,
            a < slotAddr p v.slot + x.1 ∨ slotAddr p v.slot + x.1 + x.2.length ≤ a) → u.byteAt a = s.byteAt a)
      ∧ u = { s with now := max s.now n, mem := u.mem, ms := u.ms, pillows := u.pillows } := by
  have hmem : (s.saveDone p n v w).mem
      = ((s.advance n).writeImage (slotAddr p v.slot) (w.saveImage v.suspended)).mem := by
    simp only [State.saveDone, State.modPillow_frame]
  refine ⟨s.saveDone p n v w, exec_saveComplete_saved halive hsave hwork, ?_, fun q hq => ?_, hmem, fun a ha => ?_, ?_⟩
  · rw [State.saveDone_pillow, if_pos rfl]
  · rw [State.saveDone_pillow, if_neg hq]
  · rw [State.byteAt, hmem]
    exact State.byteAt_writeImage ha (s.advance n)
  · unfold State.saveDone
    exact State.eq_of_parts (by simp [State.modPillow_frame, State.writeImage_frame, State.advance_frame])

/-! ## Restores (R246, R249, R257) -/

/-- Where no error has arisen, a read meets none. -/
theorem State.meetErrs_sound {s : State} (h : s.ms.errs = []) (a n : Nat) : s.meetErrs a n = s := by
  unfold State.meetErrs
  rw [h]
  rfl

theorem State.meetAll_sound {s : State} (h : s.ms.errs = []) (a : Nat) (im : List (Nat × Bytes)) :
    im.foldl (fun s x => s.meetErrs (a + x.1) x.2.length) s = s := by
  induction im with
  | nil => rfl
  | cons x im ih => rw [List.foldl_cons, State.meetErrs_sound h, ih]

/-- The parts of a saved stage's image. -/
def State.imageOf (p : Nat) (v : Saved) (s : State) : List (Nat × Bytes) :=
  (s.workOf p v.run).elim [] fun w => w.saveImage v.suspended

/-- The state whose reads of a save slot have met what stands there (R219). -/
def State.slotRead (p : Nat) (v : Saved) (ecc : Ecc) (s : State) : State :=
  (if ecc = .clean then s else s.countHbm (slotAddr p v.slot) (ecc == .uncorrectable)).imageOf p v |>.foldl
    (fun s x => s.meetErrs (slotAddr p v.slot + x.1) x.2.length)
    (if ecc = .clean then s else s.countHbm (slotAddr p v.slot) (ecc == .uncorrectable))

/-- The stage goes on where its slot reads well, and the pillow fails out where it does not (R257). -/
theorem exec_restoreComplete_restoring {n p : Nat} {v : Saved} {ecc : Ecc} {s : State} (halive : s.alive = true)
    (hrest : (s.pillow p).restoring = some v) :
    exec (.restoreComplete n p ecc) s = .next
      (if ecc = .uncorrectable ∨ (((if ecc = .clean then s.advance n
            else (s.advance n).countHbm (slotAddr p v.slot) (ecc == .uncorrectable)).imageOf p v).any fun x =>
          (((s.advance n).slotRead p v ecc).poisonIn (slotAddr p v.slot + x.1) x.2.length).isSome) = true then
        (((s.advance n).slotRead p v ecc).saveArea p (slotAddr p v.slot) v.slot).2.settlePillows
          (p :: (((s.advance n).slotRead p v ecc).saveArea p (slotAddr p v.slot) v.slot).1)
      else ((s.advance n).slotRead p v ecc).restored p v) := by
  rw [exec_restoreComplete, execRestoreComplete]
  simp only [State.advance_pillow, hrest]
  exact congrArg Host.Outcome.next (if_pos halive)

/-- A slot without errors reads as it stands. -/
theorem State.slotRead_clean {p : Nat} {v : Saved} {s : State} (h : s.ms.errs = []) : s.slotRead p v .clean = s :=
  State.meetAll_sound h _ _

/-- A clean restore over a sound slot goes on with the stage. -/
theorem exec_restoreComplete_clean {n p : Nat} {v : Saved} {s : State} (halive : s.alive = true)
    (hrest : (s.pillow p).restoring = some v)
    (hsound : ∀ w, s.workOf p v.run = some w → ∀ x ∈ w.saveImage v.suspended,
      s.poisonIn (slotAddr p v.slot + x.1) x.2.length = none) (herrs : s.ms.errs = []) :
    exec (.restoreComplete n p .clean) s = .next ((s.advance n).restored p v) := by
  have hclean : ∀ x ∈ (s.advance n).imageOf p v, s.poisonIn (slotAddr p v.slot + x.1) x.2.length = none := by
    intro x hx
    change x ∈ (s.workOf p v.run).elim [] fun w => w.saveImage v.suspended at hx
    cases hw : s.workOf p v.run with
    | none => rw [hw] at hx; exact absurd hx List.not_mem_nil
    | some w => rw [hw] at hx; exact hsound w hw x hx
  have hgood : ¬ (Ecc.clean = Ecc.uncorrectable ∨ (((s.advance n).imageOf p v).any fun x =>
      ((s.advance n).poisonIn (slotAddr p v.slot + x.1) x.2.length).isSome) = true) := by
    rintro (h | h)
    · exact absurd h (by decide)
    · obtain ⟨x, hx, hp⟩ := List.any_eq_true.mp h
      change (s.poisonIn (slotAddr p v.slot + x.1) x.2.length).isSome = true at hp
      rw [hclean x hx] at hp
      exact absurd hp (by decide)
  rw [exec_restoreComplete_restoring halive hrest, State.slotRead_clean (s := s.advance n) herrs]
  exact congrArg Host.Outcome.next (if_neg hgood)

/-- The pillow whose stage has been read back. -/
def Pillow.readBack (v : Saved) (x : Pillow) : Pillow :=
  { x with restoring := none
           mem := { x.mem with restoreMax := max x.mem.restoreMax (min 0xFFFF (200 + ceilDiv v.bytes 32)) } }

theorem State.nextPinned_none {p : Nat} {s : State} (hstandby : (s.pillow p).standby = none)
    (hready : (s.pillow p).readyQ = []) : s.nextPinned p = none := by
  simp only [State.nextPinned, hstandby, hready, Option.filter_none, List.head?_nil]

section

variable {n p : Nat} {v : Saved} {j : Job} {s : State} (hj : s.job v.run.ctx = some j) (habort : j.aborting = none)

include hj habort

/-- A restored stage runs on a pillow that stands idle and may take loose work (R41, R249). -/
theorem State.restored_idle (hrun : (s.pillow p).run = none) (hstandby : (s.pillow p).standby = none)
    (hready : (s.pillow p).readyQ = []) (hen : (s.pillow p).looseEn = true) (hstep : s.therm.step < 2) :
    s.restored p v = ((s.modPillow p (Pillow.readBack v)).placeRun p v.run).settlePillows [p] := by
  have hpil : (s.modPillow p (Pillow.readBack v)).pillow p = (s.pillow p).readBack v :=
    State.pillow_modPillow_same ..
  have hno : ¬ ((((s.modPillow p (Pillow.readBack v)).job v.run.ctx).bind Job.aborting).isSome = true) := by
    rw [State.modPillow_job, hj, Option.bind_some, habort]
    exact Bool.false_ne_true
  have hnext : (s.modPillow p (Pillow.readBack v)).nextPinned p = none :=
    State.nextPinned_none (by rw [hpil]; exact hstandby) (by rw [hpil]; exact hready)
  have hmay : (s.modPillow p (Pillow.readBack v)).looseMay p = true := by
    rw [State.looseMay, hpil]
    exact Bool.and_eq_true_iff.mpr ⟨hen, decide_eq_true hstep⟩
  have hidle : ¬ ((((s.modPillow p (Pillow.readBack v)).pillow p).run.isSome
      || ((s.modPillow p (Pillow.readBack v)).nextPinned p).isSome
      || !(s.modPillow p (Pillow.readBack v)).looseMay p) = true) := by
    rw [hnext, hmay, hpil]
    change ¬ (((s.pillow p).run.isSome || _ || _) = true)
    rw [hrun]
    exact Bool.false_ne_true
  exact (if_neg hno).trans (if_neg hidle)

/-- A restored stage waits for its turn on a pillow where a stage runs (R249). -/
theorem State.restored_waits (hrun : (s.pillow p).run.isSome = true) :
    s.restored p v = ((s.modPillow p (Pillow.readBack v)).modPillow p fun x => { x with
      looseQ := (s.modPillow p (Pillow.readBack v)).insertLoose (v.run.ctx, v.run.stage)
        x.looseQ }).settlePillows [p] := by
  have hno : ¬ ((((s.modPillow p (Pillow.readBack v)).job v.run.ctx).bind Job.aborting).isSome = true) := by
    rw [State.modPillow_job, hj, Option.bind_some, habort]
    exact Bool.false_ne_true
  have hbusy : (((s.modPillow p (Pillow.readBack v)).pillow p).run.isSome
      || ((s.modPillow p (Pillow.readBack v)).nextPinned p).isSome
      || !(s.modPillow p (Pillow.readBack v)).looseMay p) = true := by
    rw [State.pillow_modPillow_same]
    change ((s.pillow p).run.isSome || _ || _) = true
    rw [hrun]
    rfl
  exact (if_neg hno).trans (if_pos hbusy)

end

/-- A loose stage is placed on a pillow: the pillow's run and the stage's phase change. -/
theorem State.placeRun_loose {p : Nat} {r : Run} {j : Job} {s : State} (hj : s.job r.ctx = some j)
    (hloose : j.pinned = false) : s.placeRun p r
      = (s.modPillow p fun x => { x with run := some r }).setJob r.ctx (some (j.setPhase r.stage .running)) := by
  have hphase : (j.setPhase r.stage .running).pinned = false := hloose
  have hjob : (s.setPillow p { s.pillow p with run := some r }).job r.ctx = some j := hj
  unfold State.placeRun State.modJob
  dsimp only
  rw [hjob, Option.map_some, hphase, Bool.and_false, if_neg Bool.false_ne_true]
  rfl

section

variable {n p : Nat} {v : Saved} {j : Job} {s : State} (halive : s.alive = true)
  (hrest : (s.pillow p).restoring = some v)
  (hsound : ∀ w, s.workOf p v.run = some w → ∀ x ∈ w.saveImage v.suspended,
    s.poisonIn (slotAddr p v.slot + x.1) x.2.length = none)
  (herrs : s.ms.errs = []) (hj : s.job v.run.ctx = some j) (habort : j.aborting = none)

include halive hrest hsound herrs hj habort

theorem restoreComplete_idle (hloose : j.pinned = false) (hrun : (s.pillow p).run = none)
    (hstandby : (s.pillow p).standby = none) (hready : (s.pillow p).readyQ = [])
    (hen : (s.pillow p).looseEn = true) (hstep : s.therm.step < 2) :
    ∃ u : State, exec (.restoreComplete n p .clean) s = .next (u.settlePillows [p])
      ∧ u.pillow p = { s.pillow p with run := some v.run, restoring := none, mem := (u.pillow p).mem }
      ∧ (∀ q, q ≠ p → u.pillow q = s.pillow q) ∧ u.job v.run.ctx = some (j.setPhase v.run.stage .running)
      ∧ (∀ d, d ≠ v.run.ctx → u.job d = s.job d)
      ∧ u = { s with now := max s.now n, jobs := u.jobs, pillows := u.pillows } := by
  have hplace := State.placeRun_loose (p := p) (r := v.run) (s := (s.advance n).modPillow p (Pillow.readBack v)) hj hloose
  refine ⟨_, (exec_restoreComplete_clean halive hrest hsound herrs).trans (congrArg _
    (State.restored_idle (s := s.advance n) hj habort hrun hstandby hready hen hstep)), ?_⟩
  rw [hplace]
  refine ⟨?_, fun q hq => ?_, State.job_setJob_same .., fun d hd => State.job_setJob_ne hd .., rfl⟩
  · rw [State.setJob_pillow, State.pillow_modPillow_same, State.pillow_modPillow_same]
    rfl
  · rw [State.setJob_pillow, State.pillow_modPillow_ne hq, State.pillow_modPillow_ne hq]
    rfl

theorem restoreComplete_busy (hrun : (s.pillow p).run.isSome = true) :
    ∃ u : State, exec (.restoreComplete n p .clean) s = .next (u.settlePillows [p])
      ∧ (v.run.ctx, v.run.stage) ∈ (u.pillow p).looseQ
      ∧ u.pillow p = { s.pillow p with restoring := none, looseQ := (u.pillow p).looseQ, mem := (u.pillow p).mem }
      ∧ (∀ q, q ≠ p → u.pillow q = s.pillow q) ∧ u = { s with now := max s.now n, pillows := u.pillows } := by
  refine ⟨_, (exec_restoreComplete_clean halive hrest hsound herrs).trans (congrArg _
    (State.restored_waits (s := s.advance n) hj habort hrun)), ?_, ?_, fun q hq => ?_, rfl⟩
  · rw [State.pillow_modPillow_same]
    exact State.mem_insertLoose ..
  · rw [State.pillow_modPillow_same, State.pillow_modPillow_same]
    rfl
  · rw [State.pillow_modPillow_ne hq, State.pillow_modPillow_ne hq]
    rfl

end

/-! ## Ends of waits (R178, R186, R212) -/

theorem State.workOf_parts {p : Nat} {r : Run} {w : Work} {s : State} (h : s.workOf p r = some w) :
    s.job r.ctx = some w.job ∧ w.run = r ∧ w.p = p := by
  unfold State.workOf at h
  cases hj : s.job r.ctx with
  | none => rw [hj] at h; exact absurd h (by simp)
  | some j =>
    rw [hj, Option.map_some, Option.some.injEq] at h
    rw [← h]
    exact ⟨rfl, rfl, rfl⟩

/-- A job whose FENCE has taken its count from its counter. -/
def Job.fenceTaken (k n : Nat) (j : Job) : Job := { j with fences := tset (fun _ => 0) k (j.fence k - n) j.fences }

/-- The state in which a FENCE has subtracted its count and completed. -/
def State.fenceDone (p : Nat) (w : Work) (s : State) : State :=
  (((s.modJob w.run.ctx (Job.fenceTaken (fenceKey p w.op.fence) w.op.count)).modPillow p fun x =>
    { x with cnt := { x.cnt with
      sqFenceWait := satAdd 0xFFFF_FFFF x.cnt.sqFenceWait (s.now - w.run.waitSince) } }).setRun p w.nextOp)

/-- The wait of the pillow's run ends, and its time is counted (R186). -/
theorem State.endWait_waiting {p : Nat} {r : Run} {x : Nat × Int × Bool} {s : State} (hrun : (s.pillow p).run = some r)
    (hwait : r.waitWin = some x) : s.endWait p = (s.setRun p { r with waitWin := none }).modPillow p fun y =>
      { y with cnt := { y.cnt with sqWinWait := satAdd 0xFFFF_FFFF y.cnt.sqWinWait (s.now - r.waitSince) } } := by
  unfold State.endWait
  simp only [hrun, hwait, Option.isNone_some, Bool.false_eq_true, if_false]

section

variable {n p : Nat} {r : Run} {s : State} (halive : s.alive = true)
  (hstands : (s.advance n).settlePillows [p] = s.advance n) (hrun : (s.pillow p).run = some r)

include halive hstands hrun

theorem exec_fenceWaitEnd_met {w : Work} (hwork : s.workOf p r = some w) (hwait : r.waitFence = true)
    (hstop : r.stop = none) (hmet : w.op.count ≤ w.job.fence (fenceKey p w.op.fence)) :
    exec (.fenceWaitEnd n p) s = .next (((s.advance n).fenceDone p w).boundary p 6) := by
  obtain ⟨-, hr, hwp⟩ := State.workOf_parts hwork
  have hbind : ((s.advance n).pillow p).run.bind (fun r => (s.advance n).workOf p r) = some w := by
    rw [State.advance_pillow, hrun]
    exact hwork
  have hguard : ((s.advance n).alive && w.run.waitFence && w.run.stop.isNone && State.fenceMet w) = true := by
    rw [State.fenceMet, hwp, decide_eq_true hmet, hr, hwait, hstop]
    exact Bool.and_eq_true_iff.mpr ⟨by rw [State.advance_alive, halive]; rfl, rfl⟩
  rw [exec_fenceWaitEnd, execFenceWaitEnd]
  simp only [halive, if_true, hstands, hbind]
  exact congrArg Host.Outcome.next (if_pos hguard)

theorem fenceWaitEnd_met {w : Work} (hwork : s.workOf p r = some w) (hwait : r.waitFence = true)
    (hstop : r.stop = none) (hmet : w.op.count ≤ w.job.fence (fenceKey p w.op.fence)) :
    ∃ u : State, exec (.fenceWaitEnd n p) s = .next (u.boundary p 6) ∧ (u.pillow p).run = some w.nextOp
      ∧ (∃ f, u.job r.ctx = some { w.job with fences := f }
          ∧ ∀ k, tget (fun _ => 0) f k = if k = fenceKey p w.op.fence then w.job.fence k - w.op.count else w.job.fence k)
      ∧ (∀ d, d ≠ r.ctx → u.job d = s.job d) ∧ (∀ q, q ≠ p → u.pillow q = s.pillow q)
      ∧ u = { s with now := max s.now n, jobs := u.jobs, pillows := u.pillows } := by
  obtain ⟨hj, hr, -⟩ := State.workOf_parts hwork
  refine ⟨_, exec_fenceWaitEnd_met halive hstands hrun hwork hwait hstop hmet, ?_,
    ⟨(w.job.fenceTaken (fenceKey p w.op.fence) w.op.count).fences, ?_, fun k => ?_⟩, fun d hd => ?_, fun q hq => ?_, rfl⟩
  · rw [State.fenceDone, State.setRun, State.pillow_modPillow_same]
  · change (State.modJob _ _ (s.advance n)).job r.ctx = some (w.job.fenceTaken (fenceKey p w.op.fence) w.op.count)
    rw [hr, State.job_modJob_same, State.advance_job, hj, Option.map_some]
  · rw [Job.fenceTaken, tget_tset]
    split
    · next h => rw [h]
    · rfl
  · change (State.modJob _ _ (s.advance n)).job d = s.job d
    rw [hr, State.job_modJob_ne hd, State.advance_job]
  · rw [State.fenceDone, State.setRun, State.pillow_modPillow_ne hq, State.pillow_modPillow_ne hq, State.modJob_pillow,
      State.advance_pillow]

theorem windowWaitEnd_ready {x : Nat × Int × Bool} {j : Job} (hwait : r.waitWin = some x)
    (hj : s.job r.ctx = some j) (hline : s.lineReady p j x = true) :
    ∃ u : State, exec (.windowWaitEnd n p) s = .next (u.settlePillows [p]) ∧ u.pillow p = { s.pillow p with
        run := some { r with waitWin := none }
        cnt := { (s.pillow p).cnt with
          sqWinWait := satAdd 0xFFFF_FFFF (s.pillow p).cnt.sqWinWait (max s.now n - r.waitSince) } }
      ∧ (∀ q, q ≠ p → u.pillow q = s.pillow q) ∧ u = { s with now := max s.now n, pillows := u.pillows } := by
  have hexec : exec (.windowWaitEnd n p) s = .next (((s.advance n).endWait p).settlePillows [p]) := by
    rw [exec_windowWaitEnd, execWindowWaitEnd]
    simp only [halive, if_true, hstands, State.advance_pillow, State.advance_job, hrun, hwait, hj]
    exact congrArg Host.Outcome.next (if_pos (Bool.and_eq_true_iff.mpr ⟨halive, hline⟩))
  refine ⟨_, hexec, ?_⟩
  rw [State.endWait_waiting (s := s.advance n) hrun hwait]
  refine ⟨?_, fun q hq => ?_, rfl⟩
  · rw [State.pillow_modPillow_same, State.setRun, State.pillow_modPillow_same]
    rfl
  · rw [State.pillow_modPillow_ne hq, State.setRun, State.pillow_modPillow_ne hq, State.advance_pillow]

end

/-! ## A pillow that fails out (R257, R496) -/

/-- Pillow p has failed out, and no stage is on it. -/
def State.OutOf (p : Nat) (s : State) : Prop := s.mgmt.pilOut.getLsbD p = true ∧ (s.pillow p).work = {}

theorem State.OutOf.of_same {p : Nat} {s t : State} (h : s.OutOf p) (hm : t.mgmt.pilOut = s.mgmt.pilOut)
    (hw : s.SameWork t) : t.OutOf p := ⟨by rw [hm]; exact h.1, (hw.work p).trans h.2⟩

theorem State.OutOf.report {p : Nat} {s : State} (h : s.OutOf p) (r : ErrReport) : (s.report r).OutOf p :=
  h.of_same (by simp only [State.report_frame]) (.of_pillows (by simp only [State.report_frame]))

theorem State.OutOf.reportOut {p : Nat} {s : State} (h : s.OutOf p) (q n : Nat) : (s.reportOut q n).OutOf p := by
  unfold State.reportOut
  split
  · exact h.report _
  · split
    · exact h
    · exact h.report _

theorem State.OutOf.deadLeft {p : Nat} {s : State} (h : s.OutOf p) (c : Nat) : (s.deadLeft c).OutOf p :=
  h.of_same (State.deadLeft_pilOut c s) (State.deadLeft_sameWork c s)

theorem State.OutOf.enterFatal {p : Nat} {s : State} (h : s.OutOf p) (cause a : Nat) : (s.enterFatal cause a).OutOf p := by
  unfold State.enterFatal
  split
  · exact h
  · refine State.OutOf.report ?_ _
    exact h

/-- The pillow's bit is set as it fails out. -/
theorem getLsbD_or_bit {p : Nat} (h : p < 48) (x : BitVec 48) : (x ||| (1#48 <<< p)).getLsbD p = true := by
  simp [h]

theorem State.loseDomains_mgmt (l : List Nat) (s : State) : (l.foldl (fun s d => s.loseDomain d) s).mgmt = s.mgmt :=
  State.foldl_mgmt _ _ _ fun t d => by simp only [State.loseDomain_frame]

theorem State.OutOf.fatalIf {p : Nat} {s : State} (h : s.OutOf p) :
    (if s.mgmt.pilOut = BitVec.allOnes 48 then s.enterFatal 5 0 else s).OutOf p := by
  split
  · exact h.enterFatal 5 0
  · exact h

theorem State.OutOf.coveredIf {p : Nat} {s : State} (h : s.OutOf p) (c : Prop) [Decidable c] (n : Nat) :
    (if c then s else s.covered n).OutOf p := by
  split
  · exact h
  · exact h

/-- A pillow without stages whose bit is set has failed out. -/
theorem State.outOf_cleared {p : Nat} (hp : p < 48) {f : Pillow → Pillow} (hf : ∀ x, (f x).work = {}) (on : BitVec 314)
    (l : List Nat) (s : State) (t : State)
    (ht : t = l.foldl (fun s d => s.loseDomain d)
      { s with mgmt := { s.mgmt with pilOut := s.mgmt.pilOut ||| (1#48 <<< p) } }) :
    (State.modPillow p f { t with power := { t.power with on := on } }).OutOf p := by
  refine ⟨?_, by rw [State.pillow_modPillow_same]; exact hf _⟩
  change t.mgmt.pilOut.getLsbD p = true
  rw [ht, State.loseDomains_mgmt]
  exact getLsbD_or_bit hp _

theorem State.failOut_outOf {p cause : Nat} {s : State} (hp : p < 48) (hin : s.failedOut p = false) :
    (s.failOut p cause).2.OutOf p := by
  unfold State.failOut
  rw [if_neg (by rw [hin]; exact Bool.false_ne_true)]
  generalize State.displace p [] _ = x
  refine State.OutOf.fatalIf (foldl_keeps (State.OutOf p) _ _ _ ?_ fun t e ht => ht.deadLeft e.1)
  refine State.OutOf.coveredIf (s := (State.draw _).2) ?_ _ _
  refine State.OutOf.reportOut (State.OutOf.report ?_ _) _ _
  exact State.outOf_cleared hp (fun _ => rfl) _ _ _ _ rfl

/-- Reading a save slot takes no pillow out of service. -/
theorem State.slotRead_mgmt (p : Nat) (v : Saved) (ecc : Ecc) (s : State) : (s.slotRead p v ecc).mgmt = s.mgmt := by
  unfold State.slotRead
  rw [State.foldl_mgmt _ _ _ fun t x => by simp only [State.meetErrs_frame]]
  split
  · rfl
  · simp only [State.countHbm_frame]

/-- A fault in a save area fails the pillow out (R257). -/
theorem State.saveArea_outOf {p a slot : Nat} {s : State} (hp : p < 48) (hin : s.failedOut p = false) :
    (s.saveArea p a slot).2.OutOf p :=
  State.failOut_outOf hp (by simp only [State.failedOut, State.report_frame]; exact hin)

theorem restoreComplete_uncorrectable {n p : Nat} {v : Saved} {s : State} (halive : s.alive = true)
    (hrest : (s.pillow p).restoring = some v) (hp : p < 48) (hin : s.failedOut p = false) :
    ∃ (u : State) (ps : List Nat), exec (.restoreComplete n p .uncorrectable) s = .next (u.settlePillows (p :: ps))
      ∧ u.mgmt.pilOut.getLsbD p = true ∧ (u.pillow p).run = none ∧ (u.pillow p).restoring = none := by
  have hread : ((s.advance n).slotRead p v .uncorrectable).failedOut p = false := by
    rw [State.failedOut, State.slotRead_mgmt]
    exact hin
  obtain ⟨hbit, hwork⟩ := State.saveArea_outOf (a := slotAddr p v.slot) (slot := v.slot) hp hread
  refine ⟨_, _, (exec_restoreComplete_restoring halive hrest).trans (congrArg Host.Outcome.next (if_pos (Or.inl rfl))),
    hbit, congrArg Pillow.run hwork, congrArg Pillow.restoring hwork⟩

/-- Settles O55: each event acts on its stage and its pillow, and the pillow's own next move follows. -/
theorem stages : Obligations.Stages := by
  unfold Obligations.Stages
  exact ⟨fun _ _ _ _ _ _ halive hj hp hdead hphase hpil hdue => stageReady_due halive hj hp hdead hphase hpil hdue,
    fun _ _ _ _ _ halive hsave hwork => saveComplete_saved halive hsave hwork,
    fun _ _ _ _ _ halive hrest hsound herrs hj habort hloose hrun hstandby hready hen hstep =>
      restoreComplete_idle halive hrest hsound herrs hj habort hloose hrun hstandby hready hen hstep,
    fun _ _ _ _ _ halive hrest hsound herrs hj habort hrun =>
      restoreComplete_busy halive hrest hsound herrs hj habort hrun,
    fun _ _ _ _ halive hrest hp hin => restoreComplete_uncorrectable halive hrest hp hin,
    fun _ _ _ _ _ halive hstands hrun hwork hwait hstop hmet =>
      fenceWaitEnd_met halive hstands hrun hwork hwait hstop hmet,
    fun _ _ _ _ _ _ halive hstands hrun hwait hj hline => windowWaitEnd_ready halive hstands hrun hwait hj hline⟩

end Sys2Proof.Machine
end

section
/-! PROOF. O53: templates, their admission, acceptance and withdrawal (R38, R41, R43 to R46, R435, R437). -/

namespace Sys2Proof.Machine

/-! ## The listed templates -/

theorem mem_tput {α : Type} (k : Nat) (v : α) (t : Tbl α) : (k, v) ∈ tput k v t := by
  induction t with
  | nil => exact List.mem_singleton.mpr rfl
  | cons e t ih =>
    unfold tput
    split
    · exact List.mem_cons_self
    · split
      · exact List.mem_cons_self
      · exact List.mem_cons_of_mem _ ih

theorem State.mem_admitted_setTemplate (k : Nat) (x : Template) (s : State) :
    (k, x) ∈ (s.setTemplate k (some x)).admitted := by
  refine List.mem_filterMap.mpr ⟨(k, some x), ?_, rfl⟩
  change (k, some x) ∈ tset (fun _ => none) k (some x) s.templates
  rw [tset, if_neg (by simp)]
  exact mem_tput ..

theorem State.template_setTemplate_ne {k m : Nat} (h : m ≠ k) (x : Option Template) (s : State) :
    (s.setTemplate k x).template m = s.template m := (State.template_setTemplate k m x s).trans (if_neg h)

/-! ## Hands -/

theorem SameButHands.trans {s t u : State} (h : SameButHands s t) (k : SameButHands t u) : SameButHands s u := by
  unfold SameButHands at *
  rw [k, h]

theorem SameButHands.of_mgmt {s t : State} (h : t.mgmt = s.mgmt) : SameButHands s t := by
  unfold SameButHands
  rw [h]

theorem State.done_template (h : Hdr) (op form : Nat) (b : Bytes) (s : State) (k : Nat) :
    (s.done h op form b).template k = s.template k := State.template_of_templates (by simp only [State.done_frame]) k

/-! ## Pillows that stand -/

/-- Pillows that stand are left as they are. -/
theorem State.settlePillows_stands {ps : List Nat} {s : State} (h : ∀ p ∈ ps, s.advanceRun p = ([], s)) :
    s.settlePillows ps = s := by
  have hpump (n : Nat) : s.pump n ps = s := by
    induction ps generalizing n with
    | nil => cases n <;> rfl
    | cons p ps ih =>
      cases n with
      | zero => rfl
      | succ n =>
        simp only [State.pump, h p List.mem_cons_self, List.nil_append]
        exact ih (fun q hq => h q (List.mem_cons_of_mem _ hq)) n
  exact hpump _

/-- An idle pillow without pinned work that takes no loose work stands (R41). -/
theorem State.advanceRun_stands {p : Nat} {s : State} (hrun : (s.pillow p).run = none)
    (hstandby : (s.pillow p).standby = none) (hready : (s.pillow p).readyQ = []) (hen : (s.pillow p).looseEn = false) :
    s.advanceRun p = ([], s) := by
  have hpinned : s.nextPinned p = none := by
    simp only [State.nextPinned, hstandby, hready, Option.filter_none, List.head?_nil]
  have hloose : s.nextLoose p = none := by
    simp only [State.nextLoose, State.looseMay, hen, Bool.false_and, Bool.not_false, if_true]
  simp only [State.advanceRun, hrun, State.pick, hpinned, hloose]

/-! ## Acceptance (R41, R435) -/

/-- A template as it is accepted: it releases from the row of HWM + 1 on. -/
def State.acceptedOf (x : Template) (s : State) : Template :=
  { x with accepted := true, hdr := none, nextRow := s.rowStart x (s.tb.hwm + 1) }

theorem State.accept_replying {k : Nat} {x : Template} {h : Hdr} {s : State} (hx : s.template k = some x)
    (hh : x.hdr = some h) :
    s.accept k = (s.setTemplate k (some (s.acceptedOf x))).done h Op.jobAdmit 0 x.reply := by
  simp only [State.accept, hx, Option.bind_some, hh]
  rfl

theorem jobAdmitAccept_due {n k : Nat} {x : Template} {h : Hdr} {s : State} (halive : s.alive = true)
    (hx : s.template k = some x) (hacc : x.accepted = false) (hh : x.hdr = some h) (hwait : s.acceptWaits x.p = false) :
    ∃ t : State, exec (.jobAdmitAccept n k) s = .next t ∧ Replied h Op.jobAdmit Status.ok x.reply s t ∧ SameButHands s t
      ∧ t.template k = some { x with accepted := true, hdr := none, nextRow := s.rowStart x (s.tb.hwm + 1) }
      ∧ (∀ m, m ≠ k → t.template m = s.template m)
      ∧ t = { s with now := max s.now n, templates := t.templates, queues := t.queues, mgmt := t.mgmt } := by
  have hexec : exec (.jobAdmitAccept n k) s = .next ((s.advance n).accept k) := by
    rw [exec_jobAdmitAccept, execJobAdmitAccept]
    simp only [State.advance_template, hx]
    have hguard : ((s.advance n).alive && !x.accepted && !(s.advance n).acceptWaits x.p) = true := by
      change (s.alive && !x.accepted && !s.acceptWaits x.p) = true
      rw [halive, hacc, hwait]
      rfl
    exact congrArg Host.Outcome.next (if_pos hguard)
  rw [State.accept_replying (s := s.advance n) hx hh] at hexec
  have hqueues : ((s.advance n).setTemplate k (some ((s.advance n).acceptedOf x))).queues = s.queues := rfl
  have hmgmt : ((s.advance n).setTemplate k (some ((s.advance n).acceptedOf x))).mgmt = s.mgmt := rfl
  refine ⟨_, hexec, Replied.of_queues hqueues (State.done_replied ..),
    (SameButHands.of_mgmt hmgmt).trans (State.done_sameHands ..), ?_, fun m hm => ?_, ?_⟩
  · rw [State.done_template, State.template_setTemplate_same]
    rfl
  · rw [State.done_template, State.template_setTemplate_ne hm, State.advance_template]
  · rw [State.done_eq]
    rfl

/-! ## Refusals (R46, R409) -/

theorem jobAdmit_numberInUse {h : Hdr} {a : AdmitParams} {x : Template} {s : State}
    (haccepts : s.accepts Op.jobAdmit false = true) (hparams : admitParams a = none)
    (hx : s.template a.template = some x) :
    Refuses (.jobAdmit h a) h Op.jobAdmit (resHeld Op.jobAdmit Op.jobAdmit 17 a.template 0xFF a.template) s := by
  refine Refuses.of_refuse (form := 0) ?_
  rw [exec_jobAdmit, execJobAdmit]
  refine hostCommand_refused hparams haccepts ?_
  simp only [State.admitCheck, State.advance_template, hx, Option.map_some, firstOf, noPillow]

theorem speedCheck_outOfRange {a : AdmitParams} (hv : a.vRated < 1000 ∨ 1_000_000 < a.vRated) (s : State) :
    s.speedCheck a = some { status := Status.admitSpeed, payload := leBytes 1 1 } := by
  have hrange : inRange 1000 a.vRated 1_000_000 = false := by
    unfold inRange
    rw [Bool.and_eq_false_iff, decide_eq_false_iff_not, decide_eq_false_iff_not]
    omega
  simp only [State.speedCheck, hrange, require, firstOf, Bool.false_eq_true, if_false]

theorem jobAdmit_speedOutOfRange {h : Hdr} {a : AdmitParams} {s : State}
    (haccepts : s.accepts Op.jobAdmit false = true) (hparams : admitParams a = none)
    (hfree : s.template a.template = none) (hprick : (s.loadedPrick a.prk).isSome = true)
    (hv : a.vRated < 1000 ∨ 1_000_000 < a.vRated) :
    Refuses (.jobAdmit h a) h Op.jobAdmit { status := Status.admitSpeed, payload := leBytes 1 1 } s := by
  have hloaded : ((s.advance h.t).loadedPrick a.prk).isSome = true := hprick
  refine Refuses.of_refuse (form := 0) ?_
  rw [exec_jobAdmit, execJobAdmit]
  refine hostCommand_refused hparams haccepts ?_
  simp only [State.admitCheck, State.advance_template, hfree, Option.map_none, hloaded, speedCheck_outOfRange hv, require,
    if_true, firstOf]

/-! ## Withdrawal (R437) -/

theorem jobAbortTemplate_accepted {h : Hdr} {k : Nat} {x : Template} {s : State}
    (haccepts : s.accepts Op.jobAbort false = true) (hx : s.template k = some x) (hacc : x.accepted = true)
    (hwith : x.withdrawn = false) :
    Accepts (.jobAbortTemplate h k) h
      (fun s => s.setTemplate k (some { x with withdrawn := true, hdr := some h })) s := by
  refine Accepts.of_release (op := Op.jobAbort) ?_
  rw [exec_jobAbortTemplate, execJobAbortTemplate]
  have hown : firstOf
      [require ((s.advance h.t).template k).isSome (paramBadAt 0x0A),
       require (((s.advance h.t).template k).any fun t => t.accepted && !t.withdrawn) stateRefused] = none := by
    simp only [State.advance_template, hx, Option.isSome_some, Option.any_some, hacc, hwith, Bool.not_false,
      Bool.and_self, require, if_true, firstOf]
  refine (hostCommand_accepted rfl haccepts hown).trans ?_
  rw [State.modTemplate, State.advance_template, hx, Option.map_some]

/-- The pillow that a withdrawn template has left: its entries, windows and locks are free. -/
def Pillow.leftBy (n : Nat) (x : Pillow) : Pillow := (x.freeOwner n true n).unlock n

theorem State.setLooseBits_pillow (p : Nat) (s : State) : s.setLooseBits.pillow p
    = if p < 48 then { s.pillow p with looseEn := looseUnder (s.admitted.map fun x => x.2.p) p } else s.pillow p :=
  State.pillow_mapPillows (fun q x => { x with looseEn := looseUnder (s.admitted.map fun x => x.2.p) q }) s p

theorem State.setLooseBits_sameWork (s : State) : s.SameWork s.setLooseBits :=
  State.SameWork.mapPillows (f := fun q x => { x with looseEn := looseUnder (s.admitted.map fun x => x.2.p) q })
    (fun _ _ => rfl) s

/-- The state in which a withdrawn template holds nothing any more. -/
def State.templateLeft (n : Nat) (s : State) : State :=
  (((s.setTemplate n none).freeOwner n true n).mapPillows fun _ x => x.unlock n).setLooseBits

theorem State.templateLeft_eq (n : Nat) (s : State) : s.templateLeft n
    = { s with templates := (s.setTemplate n none).templates, pillows := (s.templateLeft n).pillows } := by
  unfold State.templateLeft State.mapPillows
  exact State.eq_of_parts (by simp only [State.setLooseBits_frame, State.freeOwner_frame, State.setTemplate_frame,
    and_self])

theorem State.templateLeft_pillow {n p : Nat} (hp : p < 48) (s : State) : (s.templateLeft n).pillow p
    = { (s.pillow p).leftBy n with looseEn := looseUnder ((s.templateLeft n).admitted.map fun x => x.2.p) p } := by
  have hfree : ((s.setTemplate n none).freeOwner n true n).pillow p = (s.pillow p).freeOwner n true n :=
    (State.pillow_mapPillows (fun _ x => x.freeOwner n true n) (s.setTemplate n none) p).trans (if_pos hp)
  have hlisted : (s.templateLeft n).admitted
      = (((s.setTemplate n none).freeOwner n true n).mapPillows fun _ x => x.unlock n).admitted := by
    simp only [State.templateLeft, State.admitted, State.setLooseBits_frame]
  rw [hlisted, State.templateLeft, State.setLooseBits_pillow, if_pos hp, State.pillow_mapPillows, if_pos hp, hfree]
  rfl

theorem State.templateLeft_sameWork (n : Nat) (s : State) : s.SameWork (s.templateLeft n) :=
  (((State.SameWork.of_pillows (s := s) (t := s.setTemplate n none) rfl).trans
    (State.freeOwner_sameWork n true n (s.setTemplate n none))).trans
    (State.SameWork.mapPillows (f := fun _ x => x.unlock n) (fun _ _ => rfl) _)).trans (State.setLooseBits_sameWork _)

theorem Quiet.of_sameWork {s t : State} (hq : Quiet s) (h : s.SameWork t) : Quiet t := fun p => by
  obtain ⟨hrun, hstandby, hready, hloose, hsaves⟩ := hq p
  exact ⟨(h.run p).trans hrun, (h.standby p).trans hstandby, (h.readyQ p).trans hready, (h.looseQ p).trans hloose,
    (h.saves p).trans hsaves⟩

/-- With its last instance gone the template leaves, and the withdrawal is answered. -/
theorem State.dropTemplate_quiet {n : Nat} {x : Template} {h : Hdr} {s : State} (hq : Quiet s) (hh : x.hdr = some h) :
    s.dropTemplate n x = (s.templateLeft n).done h Op.jobAbort 0 [] := by
  have hquiet : Quiet ((s.templateLeft n).done h Op.jobAbort 0 []) :=
    (hq.of_sameWork (State.templateLeft_sameWork n s)).of_sameWork (.of_pillows (by simp only [State.done_frame]))
  refine Eq.trans ?_ (State.settlePillows_quiet (List.range nPillows) hquiet)
  simp only [State.dropTemplate, hh]
  rfl

theorem Pillow.leftBy_tc {n : Nat} {x : Pillow} : ∀ e ∈ (x.leftBy n).tc, n ∉ e.locks := by
  intro e he hn
  obtain ⟨y, -, rfl⟩ := List.mem_map.mp he
  exact absurd (List.mem_filter.mp hn).2 (by simp)

theorem Pillow.leftBy_windows {n : Nat} {x : Pillow} :
    ∀ e ∈ (x.leftBy n).windows, ¬ (e.2.claimed = true ∧ e.2.pinned = true ∧ e.2.owner = n) := by
  rintro e he ⟨hclaimed, hpinned, howner⟩
  have hkept := (List.mem_filter.mp he).2
  rw [hclaimed, hpinned, howner] at hkept
  exact absurd hkept (by simp)

theorem templateWithdrawn_last {n k : Nat} {x : Template} {h : Hdr} {s : State} (halive : s.alive = true)
    (hq : Quiet s) (hx : s.template k = some x) (hwith : x.withdrawn = true) (hh : x.hdr = some h)
    (hlast : ∀ y ∈ s.liveJobs, y.2.pinned = true → y.2.template ≠ k) :
    ∃ t : State, exec (.templateWithdrawn n k) s = .next t ∧ Replied h Op.jobAbort Status.ok [] s t ∧ SameButHands s t
      ∧ t.template k = none ∧ (∀ m, m ≠ k → t.template m = s.template m)
      ∧ (∀ p, p < 48 → (∀ e ∈ (t.pillow p).tc, k ∉ e.locks)
          ∧ (∀ e ∈ (t.pillow p).windows, ¬(e.2.claimed = true ∧ e.2.pinned = true ∧ e.2.owner = k))
          ∧ (t.pillow p).looseEn = looseUnder (t.admitted.map fun y => y.2.p) p)
      ∧ t = { s with
          now := max s.now n, templates := t.templates, pillows := t.pillows, queues := t.queues, mgmt := t.mgmt } := by
  have hgone : ((s.advance n).liveJobs.any fun (_, j) => j.pinned && j.template == k) = false := by
    change (s.liveJobs.any fun (_, j) => j.pinned && j.template == k) = false
    rw [List.any_eq_false]
    intro y hy hb
    obtain ⟨hpin, htempl⟩ := Bool.and_eq_true_iff.mp hb
    exact hlast y hy hpin (beq_iff_eq.mp htempl)
  have hguard : ((s.advance n).alive && x.withdrawn
      && !((s.advance n).liveJobs.any fun (_, j) => j.pinned && j.template == k)) = true := by
    rw [State.advance_alive, halive, hwith, hgone]
    rfl
  have hexec : exec (.templateWithdrawn n k) s = .next (((s.advance n).templateLeft k).done h Op.jobAbort 0 []) := by
    rw [exec_templateWithdrawn, execTemplateWithdrawn]
    simp only [State.advance_template, hx]
    exact congrArg Host.Outcome.next
      ((if_pos hguard).trans (State.dropTemplate_quiet (s := s.advance n) hq hh))
  have hpil (p : Nat) : (((s.advance n).templateLeft k).done h Op.jobAbort 0 []).pillow p
      = ((s.advance n).templateLeft k).pillow p := State.pillow_of_pillows (by simp only [State.done_frame]) p
  have htempl (m : Nat) : ((s.advance n).templateLeft k).template m = (s.setTemplate k none).template m :=
    State.template_of_templates (by rw [State.templateLeft_eq]; rfl) m
  have hqueues : ((s.advance n).templateLeft k).queues = s.queues := by rw [State.templateLeft_eq]; rfl
  have hmgmt : ((s.advance n).templateLeft k).mgmt = s.mgmt := by rw [State.templateLeft_eq]; rfl
  refine ⟨_, hexec, Replied.of_queues hqueues (State.done_replied ..),
    (SameButHands.of_mgmt hmgmt).trans (State.done_sameHands ..), ?_, fun m hm => ?_, fun p hp => ?_, ?_⟩
  · rw [State.done_template, htempl, State.template_setTemplate_same]
  · rw [State.done_template, htempl, State.template_setTemplate_ne hm]
  · rw [hpil, State.templateLeft_pillow hp]
    refine ⟨Pillow.leftBy_tc, Pillow.leftBy_windows, ?_⟩
    simp only [State.admitted, State.done_frame]
  · refine (State.done_eq ..).trans (State.eq_of_parts ?_)
    simp only [State.templateLeft, State.mapPillows, State.setLooseBits_frame, State.freeOwner_frame,
      State.setTemplate_frame, State.done_frame, State.advance_frame, State.advance_now, and_self]

/-! ## Admission (R43 to R46, R435) -/

/-- The pricking that a template runs. -/
def State.prickOf (a : AdmitParams) (s : State) : Prick := (s.loadedPrick a.prk).getD emptyPrick

/-- The template that an admission enters. -/
def State.offer (h : Hdr) (a : AdmitParams) (s : State) : Template :=
  { p := a, accepted := false, withdrawn := false, hdr := some h, ctxs := s.freeCtxs (ctxCount a), nextRow := 0
    rowIdx := 0, rows := []
    reply := s.admitReply a (s.prickOf a) (s.allVerdicts a (s.testPillows a (s.prickOf a))) }

/-- The windows of an admission are claimed. -/
def State.windowsClaimed (a : AdmitParams) (s : State) : State :=
  ((s.prickOf a).claims (bothMaps a)).foldl (claimWindow Op.jobAdmit true a.template a.win) s

/-- What an admission holds on the pillows: windows, table entries and locks. -/
def State.admitHeld (a : AdmitParams) (s : State) : State :=
  ((s.testPillows a (s.prickOf a)).map fun q => (q, s.locksOn a (s.prickOf a)
      ((s.prickOf a).pageNeeds a (ctxCount a)) q)).foldl
    (fun s x => s.modPillow x.1 (Pillow.locked a.template x.2))
    (((s.prickOf a).pillowsOf (bothMaps a)).foldl (State.place (s.prickOf a) a.template) (s.windowsClaimed a))

/-- The state in which an admitted template is listed. -/
def State.listed (h : Hdr) (a : AdmitParams) (s : State) : State :=
  ((s.admitHeld a).setTemplate a.template (some (s.offer h a))).release Op.jobAdmit h.tag

/-- The state in which an admitted template stands, with the loose-enable bits it needs. -/
def State.entered (h : Hdr) (a : AdmitParams) (s : State) : State := (s.listed h a).setLooseBits

theorem State.admitDo_eq (h : Hdr) (a : AdmitParams) (s : State) : s.admitDo h a
    = if ((s.entered h a).stopLoose a).acceptWaits a then (s.entered h a).stopLoose a
      else ((s.entered h a).stopLoose a).accept a.template := rfl

/-- A template has window c. -/
def State.HoldsWindow (n : Nat) (c : Nat × Nat) (s : State) : Prop :=
  ((s.pillow c.1).window c.2).claimed = true ∧ ((s.pillow c.1).window c.2).pinned = true
    ∧ ((s.pillow c.1).window c.2).owner = n

theorem State.HoldsWindow.of_windows {n : Nat} {c : Nat × Nat} {s t : State} (h : s.HoldsWindow n c)
    (hw : (t.pillow c.1).windows = (s.pillow c.1).windows) : t.HoldsWindow n c := by
  unfold State.HoldsWindow Pillow.window at *
  rwa [hw]

theorem holdsWindow_claimWindow (holder n : Nat) (ws : List WinSpec) (s : State) (c : Nat × Nat) :
    (claimWindow holder true n ws s c).HoldsWindow n c := by
  unfold claimWindow State.HoldsWindow Pillow.window
  dsimp only
  rw [State.pillow_modPillow_same]
  dsimp only
  rw [tget_tset_same]
  exact ⟨rfl, rfl, rfl⟩

/-- A claim takes no window from the template that makes it. -/
theorem State.HoldsWindow.claimWindow {n : Nat} {c : Nat × Nat} {s : State} (h : s.HoldsWindow n c) (holder : Nat)
    (ws : List WinSpec) (d : Nat × Nat) : (claimWindow holder true n ws s d).HoldsWindow n c := by
  by_cases hd : c = d
  · rw [hd]
    exact holdsWindow_claimWindow ..
  · unfold Machine.claimWindow State.HoldsWindow Pillow.window at *
    dsimp only
    rw [State.pillow_modPillow]
    split
    · next h1 =>
      dsimp only
      rw [tget_tset_ne _ _ _ fun h2 => hd (Prod.ext h1 h2), ← h1]
      exact h
    · exact h

theorem holdsWindow_claims {holder n : Nat} {ws : List WinSpec} {l : List (Nat × Nat)} {c : Nat × Nat} (hc : c ∈ l)
    (s : State) : (l.foldl (claimWindow holder true n ws) s).HoldsWindow n c := by
  induction l generalizing s with
  | nil => exact absurd hc List.not_mem_nil
  | cons d l ih =>
    rcases List.mem_cons.mp hc with rfl | hc
    · exact foldl_keeps (State.HoldsWindow n c) _ l _ (holdsWindow_claimWindow ..) fun t e h => h.claimWindow ..
    · exact ih hc _

/-! ### What placing and locking leave -/

theorem Pillow.placed_parts {p : Prick} {owner : Nat} {x y : Pillow} (h : x.placed p owner = some y) :
    y.work = x.work ∧ y.windows = x.windows := by
  unfold Pillow.placed at h
  dsimp only at h
  split at h
  · obtain rfl := Option.some.inj h
    exact ⟨rfl, rfl⟩
  · exact absurd h (by simp)

theorem State.place_parts (p : Prick) (owner : Nat) (s : State) (q k : Nat) :
    ((s.place p owner q).pillow k).work = (s.pillow k).work
      ∧ ((s.place p owner q).pillow k).windows = (s.pillow k).windows := by
  unfold State.place
  split
  · next y hy =>
    rw [State.pillow_setPillow]
    split
    · next e => rw [e]; exact Pillow.placed_parts hy
    · exact ⟨rfl, rfl⟩
  · exact ⟨rfl, rfl⟩

theorem State.admitHeld_sameWork (a : AdmitParams) (s : State) : s.SameWork (s.admitHeld a) := by
  unfold State.admitHeld State.windowsClaimed
  have hclaim (t : State) (c : Nat × Nat) : t.SameWork (claimWindow Op.jobAdmit true a.template a.win t c) := by
    unfold claimWindow
    exact .modPillow rfl
  have hplace (t : State) (q : Nat) : t.SameWork (t.place (s.prickOf a) a.template q) :=
    ⟨fun k => (State.place_parts _ _ t q k).1⟩
  have hlock (t : State) (x : Nat × List Page) : t.SameWork (t.modPillow x.1 (Pillow.locked a.template x.2)) :=
    .modPillow rfl
  exact ((State.SameWork.foldl hclaim _ s).trans (.foldl hplace ..)).trans (.foldl hlock ..)

theorem State.admitHeld_holdsWindow {a : AdmitParams} {s : State} {c : Nat × Nat}
    (hc : c ∈ (s.prickOf a).claims (bothMaps a)) : (s.admitHeld a).HoldsWindow a.template c := by
  unfold State.admitHeld State.windowsClaimed
  refine foldl_keeps (State.HoldsWindow a.template c) _ _ _ (foldl_keeps (State.HoldsWindow a.template c) _ _ _
    (holdsWindow_claims hc s) fun t q h => h.of_windows (State.place_parts _ _ t q c.1).2) fun t x h => ?_
  refine h.of_windows ?_
  rw [State.pillow_modPillow]
  split
  · next e => rw [e]; rfl
  · rfl

/-- Beside the pillows nothing is held. -/
theorem State.admitHeld_eq (a : AdmitParams) (s : State) : s.admitHeld a = { s with pillows := (s.admitHeld a).pillows } := by
  unfold State.admitHeld State.windowsClaimed
  exact State.eq_of_parts (by simp [claimWindow_frame, State.place_frame, State.modPillow_frame])

section

variable (h : Hdr) (a : AdmitParams) (s : State)

theorem State.listed_pillow (q : Nat) : (s.listed h a).pillow q = (s.admitHeld a).pillow q :=
  State.pillow_of_pillows (by simp only [State.listed, State.release_frame, State.setTemplate_frame]) q

theorem State.listed_template (m : Nat) :
    (s.listed h a).template m = if m = a.template then some (s.offer h a) else s.template m := by
  have hheld : (s.admitHeld a).template m = s.template m :=
    State.template_of_templates (by rw [State.admitHeld_eq]) m
  rw [← hheld, ← State.template_setTemplate]
  exact State.template_of_templates (by simp only [State.listed, State.release_frame]) m

theorem State.mem_listed : (a.template, s.offer h a) ∈ (s.listed h a).admitted := by
  have hadmitted : (s.listed h a).admitted = ((s.admitHeld a).setTemplate a.template (some (s.offer h a))).admitted := by
    simp only [State.admitted, State.listed, State.release_frame]
  rw [hadmitted]
  exact State.mem_admitted_setTemplate ..

theorem State.listed_eq : s.listed h a = { s with
    templates := (s.listed h a).templates, pillows := (s.listed h a).pillows, mgmt := (s.listed h a).mgmt } := by
  refine State.eq_of_parts ?_
  simp only [State.listed, State.release_frame, State.setTemplate_frame]
  rw [State.admitHeld_eq]
  simp only [and_self]

theorem State.listed_sameHands : SameButHands s (s.listed h a) := by
  refine SameButHands.trans (.of_mgmt (t := (s.admitHeld a).setTemplate a.template (some (s.offer h a))) ?_)
    (State.release_sameHands Op.jobAdmit h.tag _)
  rw [State.admitHeld_eq]
  rfl

theorem State.entered_sameWork : s.SameWork (s.entered h a) :=
  ((State.admitHeld_sameWork a s).trans (t := s.admitHeld a) (u := s.listed h a)
    ⟨fun q => congrArg Pillow.work (State.listed_pillow h a s q)⟩).trans (State.setLooseBits_sameWork (s.listed h a))

theorem State.entered_template (m : Nat) :
    (s.entered h a).template m = if m = a.template then some (s.offer h a) else s.template m := by
  rw [← State.listed_template]
  exact State.template_of_templates (by simp only [State.entered, State.setLooseBits_frame]) m

theorem State.entered_holdsWindow {c : Nat × Nat} (hc : c ∈ (s.prickOf a).claims (bothMaps a)) :
    (s.entered h a).HoldsWindow a.template c := by
  refine (State.admitHeld_holdsWindow hc).of_windows ?_
  rw [State.entered, State.setLooseBits_pillow, State.listed_pillow]
  split <;> rfl

theorem State.entered_eq : s.entered h a = { s with
    templates := (s.entered h a).templates, pillows := (s.entered h a).pillows, mgmt := (s.entered h a).mgmt } := by
  refine State.eq_of_parts ?_
  simp only [State.entered, State.setLooseBits_frame]
  rw [State.listed_eq]
  simp only [and_self]

theorem State.entered_sameHands : SameButHands s (s.entered h a) :=
  (State.listed_sameHands h a s).trans (.of_mgmt (by simp only [State.entered, State.setLooseBits_frame]))

/-- A template that leaves no room for loose work clears its pillows' bits (R435). -/
theorem State.entered_looseEn {q : Nat} (hq : q < 48) (hmap : q ∈ a.mapA ++ a.mapB) (hloose : a.looseOk = false) :
    ((s.entered h a).pillow q).looseEn = false := by
  rw [State.entered, State.setLooseBits_pillow, if_pos hq]
  dsimp only
  rw [looseUnder, Bool.not_eq_false', List.any_eq_true]
  refine ⟨a, List.mem_map.mpr ⟨_, State.mem_listed h a s, rfl⟩, ?_⟩
  rw [hloose]
  simpa using hmap

end

/-- Where no pinned work stands on the template's pillows, no stage moves (R41). -/
theorem State.stopLoose_entered {h : Hdr} {a : AdmitParams} {s : State} (hidle : a.looseOk = true ∨
      ∀ q, q ∈ a.mapA ++ a.mapB → (s.pillow q).run = none ∧ (s.pillow q).standby = none ∧ (s.pillow q).readyQ = []) :
    (s.entered h a).stopLoose a = s.entered h a := by
  unfold State.stopLoose
  split
  · rfl
  · next hloose =>
    have hloose : a.looseOk = false := Bool.eq_false_iff.mpr hloose
    have hidle := hidle.resolve_left (by rw [hloose]; exact Bool.false_ne_true)
    refine State.settlePillows_stands fun q hq => ?_
    obtain ⟨hlt, hmap⟩ := List.mem_filter.mp hq
    have hmap : q ∈ a.mapA ++ a.mapB := by simpa using hmap
    obtain ⟨hrun, hstandby, hready⟩ := hidle q hmap
    have hsame := State.entered_sameWork h a s
    exact State.advanceRun_stands ((hsame.run q).trans hrun) ((hsame.standby q).trans hstandby)
      ((hsame.readyQ q).trans hready)
      (State.entered_looseEn h a s (List.mem_range.mp hlt) hmap hloose)

/-- No loose work is left on pillows without any. -/
theorem State.acceptWaits_idle {a : AdmitParams} {s : State} (hidle : a.looseOk = true ∨
      ∀ q, q ∈ a.mapA ++ a.mapB → (s.pillow q).run = none ∧ (s.pillow q).saving = none
        ∧ (s.pillow q).restoring = none) : s.acceptWaits a = false := by
  rw [State.acceptWaits, Bool.and_eq_false_iff, Bool.not_eq_false', List.any_eq_false]
  refine hidle.imp_right fun hidle q _ hq => ?_
  obtain ⟨hmap, hleft⟩ := Bool.and_eq_true_iff.mp hq
  obtain ⟨hrun, hsaving, hrestoring⟩ := hidle q (by simpa using hmap)
  simp only [State.looseLeft, hrun, hsaving, hrestoring, Option.any_none, Option.isSome_none, Bool.or_self,
    Bool.false_eq_true] at hleft

/-- An acceptance waits for a stage that is being saved. -/
theorem State.acceptWaits_saving {a : AdmitParams} {p : Nat} {s : State} (hloose : a.looseOk = false) (hp : p < 48)
    (hmap : p ∈ a.mapA) (hsaving : (s.pillow p).saving.isSome = true) : s.acceptWaits a = true := by
  rw [State.acceptWaits, hloose, Bool.not_false, Bool.true_and, List.any_eq_true]
  refine ⟨p, List.mem_range.mpr hp, Bool.and_eq_true_iff.mpr ⟨by simp [hmap], ?_⟩⟩
  simp only [State.looseLeft, hsaving, Bool.or_true, Bool.true_or]

theorem take_admitReply (a : AdmitParams) (p : Prick) (vs : List (Nat × Verdict)) (s : State) :
    (s.admitReply a p vs).take 2 = leBytes 2 (ctxCount a) := by
  unfold State.admitReply
  dsimp only
  rw [List.append_assoc, List.append_assoc, List.append_assoc, List.append_assoc, List.take_left' (length_leBytes 2 _)]

section

variable {h : Hdr} {a : AdmitParams} {s : State} (haccepts : s.accepts Op.jobAdmit false = true)
  (hparams : admitParams a = none) (hcheck : (s.advance h.t).admitCheck a = none)

include haccepts hparams hcheck

theorem exec_jobAdmit_admitted : exec (.jobAdmit h a) s = .next ((s.advance h.t).admitDo h a) := by
  rw [exec_jobAdmit, execJobAdmit]
  exact hostCommand_accepted hparams haccepts hcheck

theorem jobAdmit_accepted (hidle : a.looseOk = true ∨ ∀ q, q ∈ a.mapA ++ a.mapB →
      (s.pillow q).run = none ∧ (s.pillow q).standby = none ∧ (s.pillow q).saving = none
        ∧ (s.pillow q).restoring = none ∧ (s.pillow q).readyQ = []) :
    ∃ (t : State) (x : Template), exec (.jobAdmit h a) s = .next t ∧ Replied h Op.jobAdmit Status.ok x.reply s t
      ∧ SameButHands s t
      ∧ t.template a.template = some x ∧ x.p = a ∧ x.accepted = true ∧ x.withdrawn = false ∧ x.hdr = none
      ∧ x.ctxs = s.freeCtxs (ctxCount a) ∧ x.rows = [] ∧ x.reply.take 2 = leBytes 2 (ctxCount a)
      ∧ (∀ c ∈ ((s.loadedPrick a.prk).getD emptyPrick).claims (bothMaps a),
          ((t.pillow c.1).window c.2).claimed = true ∧ ((t.pillow c.1).window c.2).pinned = true
            ∧ ((t.pillow c.1).window c.2).owner = a.template)
      ∧ (∀ m, m ≠ a.template → t.template m = s.template m)
      ∧ t = { s with
          now := max s.now h.t, templates := t.templates, pillows := t.pillows, queues := t.queues, mgmt := t.mgmt } := by
  have hstands : ((s.advance h.t).entered h a).stopLoose a = (s.advance h.t).entered h a :=
    State.stopLoose_entered (hidle.imp_right fun hidle q hq => by
      obtain ⟨hrun, hstandby, -, -, hready⟩ := hidle q hq
      exact ⟨hrun, hstandby, hready⟩)
  have hnow : ((s.advance h.t).entered h a).acceptWaits a = false :=
    State.acceptWaits_idle (hidle.imp_right fun hidle q hq => by
      obtain ⟨hrun, -, hsaving, hrestoring, -⟩ := hidle q hq
      have hsame := State.entered_sameWork h a (s.advance h.t)
      exact ⟨(hsame.run q).trans hrun, (hsame.saving q).trans hsaving, (hsame.restoring q).trans hrestoring⟩)
  have htempl : ((s.advance h.t).entered h a).template a.template = some ((s.advance h.t).offer h a) :=
    (State.entered_template ..).trans (if_pos rfl)
  have hexec : exec (.jobAdmit h a) s = .next ((((s.advance h.t).entered h a).setTemplate a.template
      (some (((s.advance h.t).entered h a).acceptedOf ((s.advance h.t).offer h a)))).done h Op.jobAdmit 0
        ((s.advance h.t).offer h a).reply) := by
    rw [exec_jobAdmit_admitted haccepts hparams hcheck, State.admitDo_eq, hstands, hnow, if_neg Bool.false_ne_true,
      State.accept_replying htempl rfl]
  have hpil (p : Nat) : ((((s.advance h.t).entered h a).setTemplate a.template
      (some (((s.advance h.t).entered h a).acceptedOf ((s.advance h.t).offer h a)))).done h Op.jobAdmit 0
        ((s.advance h.t).offer h a).reply).pillow p = ((s.advance h.t).entered h a).pillow p :=
    State.pillow_of_pillows (by simp only [State.done_frame, State.setTemplate_frame]) p
  have hqueues : (((s.advance h.t).entered h a).setTemplate a.template
      (some (((s.advance h.t).entered h a).acceptedOf ((s.advance h.t).offer h a)))).queues = s.queues := by
    simp only [State.setTemplate_frame]
    rw [State.entered_eq]
    rfl
  refine ⟨_, ((s.advance h.t).entered h a).acceptedOf ((s.advance h.t).offer h a), hexec,
    Replied.of_queues hqueues (State.done_replied ..), ?_, ?_, rfl, rfl, rfl, rfl, rfl, rfl,
    take_admitReply .., fun c hc => ?_, fun m hm => ?_, ?_⟩
  · refine ((State.entered_sameHands h a (s.advance h.t)).trans (.of_mgmt ?_)).trans (State.done_sameHands ..)
    simp only [State.setTemplate_frame]
  · rw [State.done_template, State.template_setTemplate_same]
  · rw [hpil]
    exact State.entered_holdsWindow h a (s.advance h.t) hc
  · rw [State.done_template, State.template_setTemplate_ne hm, State.entered_template, if_neg hm, State.advance_template]
  · refine (State.done_eq ..).trans (State.eq_of_parts ?_)
    simp only [State.done_frame, State.setTemplate_frame]
    rw [State.entered_eq]
    simp only [State.advance_frame, State.advance_now, and_self]

theorem jobAdmit_waits {p : Nat} (hloose : a.looseOk = false) (hidle : ∀ q, q ∈ a.mapA ++ a.mapB →
      (s.pillow q).run = none ∧ (s.pillow q).standby = none ∧ (s.pillow q).readyQ = [])
    (hmap : p ∈ a.mapA) (hp : p < 48) (hsaving : (s.pillow p).saving.isSome = true) :
    ∃ (t : State) (x : Template), exec (.jobAdmit h a) s = .next t ∧ t.template a.template = some x ∧ x.p = a
      ∧ x.accepted = false
      ∧ x.hdr = some h ∧ (t.pillow p).looseEn = false ∧ (∀ m, m ≠ a.template → t.template m = s.template m)
      ∧ t = { s with now := max s.now h.t, templates := t.templates, pillows := t.pillows, mgmt := t.mgmt } := by
  have hstands : ((s.advance h.t).entered h a).stopLoose a = (s.advance h.t).entered h a :=
    State.stopLoose_entered (Or.inr hidle)
  have hwait : ((s.advance h.t).entered h a).acceptWaits a = true :=
    State.acceptWaits_saving hloose hp hmap (by rw [(State.entered_sameWork h a (s.advance h.t)).saving]; exact hsaving)
  have hexec : exec (.jobAdmit h a) s = .next ((s.advance h.t).entered h a) := by
    rw [exec_jobAdmit_admitted haccepts hparams hcheck, State.admitDo_eq, hstands, if_pos hwait]
  refine ⟨_, _, hexec, (State.entered_template ..).trans (if_pos rfl), rfl, rfl, rfl,
    State.entered_looseEn h a (s.advance h.t) hp (List.mem_append_left _ hmap) hloose,
    fun m hm => (State.entered_template ..).trans (if_neg hm), State.entered_eq ..⟩

end

/-- Settles O53: an admission holds what it needs and enters its template; the loose-enable bits, the pillows' work
and the refusals follow from what each step leaves. -/
theorem templates : Obligations.Templates := by
  unfold Obligations.Templates
  exact ⟨fun _ _ _ haccepts hparams hcheck hidle => jobAdmit_accepted haccepts hparams hcheck hidle,
    fun _ _ _ _ haccepts hparams hcheck hloose hidle hmap hp hsaving =>
      jobAdmit_waits haccepts hparams hcheck hloose hidle hmap hp hsaving,
    fun _ _ _ _ haccepts hparams hx => jobAdmit_numberInUse haccepts hparams hx,
    fun _ _ _ haccepts hparams hfree hprick hv => jobAdmit_speedOutOfRange haccepts hparams hfree hprick hv,
    fun _ _ _ _ _ halive hx hacc hh hwait => jobAdmitAccept_due halive hx hacc hh hwait,
    fun _ _ _ _ haccepts hx hacc hwith => jobAbortTemplate_accepted haccepts hx hacc hwith,
    fun _ _ _ _ _ halive hq hx hwith hh hlast => templateWithdrawn_last halive hq hx hwith hh hlast⟩

end Sys2Proof.Machine
end

section
/-! PROOF. What the accesses to memory leave: the stages on the pillows, the bytes outside those written, and the
marks of a core cycle (R201, R205, R206, R234, R242, R491), for O56 and O57. -/

namespace Sys2Proof.Machine

/-! ## Translations -/

/-- What a translation leaves: the stages, device time, memory, and the marks of its errors and of the core cycle. -/
structure State.Translates (s t : State) : Prop where
  work : s.SameWork t
  now : t.now = s.now
  mem : t.mem = s.mem
  errs : t.ms.errs = s.ms.errs
  cycle : t.ms.cycle = s.ms.cycle
  cycleAt : t.ms.cycleAt = s.ms.cycleAt

theorem State.Translates.refl (s : State) : s.Translates s := ⟨.refl s, rfl, rfl, rfl, rfl, rfl⟩

theorem State.Translates.trans {s t u : State} (h : s.Translates t) (k : t.Translates u) : s.Translates u :=
  ⟨h.work.trans k.work, k.now.trans h.now, k.mem.trans h.mem, k.errs.trans h.errs, k.cycle.trans h.cycle,
    k.cycleAt.trans h.cycleAt⟩

theorem State.Translates.cycleWrites {s t : State} (h : s.Translates t) : t.cycleWrites = s.cycleWrites := by
  unfold State.cycleWrites
  rw [h.now, h.cycle, h.cycleAt]

theorem State.Translates.modPillow {p : Nat} {f : Pillow → Pillow} {s : State}
    (h : (f (s.pillow p)).work = (s.pillow p).work) : s.Translates (s.modPillow p f) :=
  ⟨.modPillow h, rfl, rfl, rfl, rfl, rfl⟩

theorem State.Translates.setPillow {p : Nat} {x : Pillow} {s : State} (h : x.work = (s.pillow p).work) :
    s.Translates (s.setPillow p x) := .modPillow (f := fun _ => x) h

theorem State.walkCheck_translates (asid va : Nat) (s : State) : s.Translates (s.walkCheck asid va).2 :=
  ⟨.of_pillows rfl, rfl, rfl, rfl, rfl, rfl⟩

theorem State.draw_translates (s : State) : s.Translates s.draw.2 := ⟨.of_pillows rfl, rfl, rfl, rfl, rfl, rfl⟩

theorem State.walk_translates (p asid va : Nat) (fresh : Bool) (s : State) :
    s.Translates (s.walk p asid va fresh).2 := by
  unfold State.walk
  dsimp only
  have hread := (s.draw_translates.trans (.modPillow (p := p) (f := fun x => { x with mem := { x.mem with
      ptMiss := satAdd 0xFFFF_FFFF x.mem.ptMiss 1
      ptWalkNs := satAdd 0xFFFF_FFFF x.mem.ptWalkNs
        (s.draw.1.toNat % (350 * (s.ms.walkEntries asid va).length + 1)) } }) rfl)).trans
    (State.walkCheck_translates asid va _)
  split
  · dsimp only
    split
    · exact hread.trans (.modPillow rfl)
    · exact hread
  · exact hread

theorem State.translate_translates (p unit : Nat) (win write : Bool) (asid va : Nat) (s : State) :
    s.Translates (s.translate p unit win write asid va).2 := by
  unfold State.translate
  cases hfind : (s.pillow p).tc.find? (TcEntry.covers asid va) with
  | some e =>
    simp only [hfind, Bool.not_true, Bool.false_eq_true, if_false]
    split <;> exact .setPillow rfl
  | none =>
    simp only [hfind]
    have hwalk := State.walk_translates p asid va false s
    split
    · exact hwalk
    · split <;> exact hwalk

theorem writePages_translates (w : Work) (unit : Nat) (win : Bool) (l : List (Nat × Nat)) (s : State) :
    s.Translates (writePages w unit win l s).2 := by
  induction l generalizing s with
  | nil => exact .refl s
  | cons a l ih =>
    have ht := State.translate_translates w.p unit win true w.asid a.1 s
    unfold writePages
    split
    · next heq => rw [heq] at ht; exact ht
    · next t heq =>
      rw [heq] at ht
      have hl := ht.trans (ih t)
      split
      · next heq => rw [heq] at hl; exact hl
      · exact hl

/-! ## Reads -/

theorem State.SameWork.modJob (c : Nat) (f : Job → Job) (s : State) : s.SameWork (s.modJob c f) := .of_pillows rfl

theorem State.countUnit_sameWork (a : Nat) (ue : Bool) (s : State) : s.SameWork (s.countUnit a ue) := by
  unfold State.countUnit
  refine .ite (fun _ => .modPillow ?_) fun _ => .ite (fun _ => .of_pillows ?_) fun _ => .of_pillows ?_
  · split <;> rfl
  · simp only [State.countHbm_frame]
  · simp only [State.countMem_frame]

theorem State.meetErr_sameWork (e : Nat × Strike) (s : State) : s.SameWork (s.meetErr e) := by
  unfold State.meetErr
  have herase : s.SameWork { s with ms := { s.ms with errs := s.ms.errs.erase e } } := .of_pillows rfl
  split
  · exact herase.trans (State.countUnit_sameWork ..)
  · exact herase.trans (.of_pillows rfl)
  · refine herase.trans (.trans (.of_pillows ?_) (State.countUnit_sameWork ..))
    simp only [State.markPoison_frame]

theorem State.meetErrs_sameWork (a n : Nat) (s : State) : s.SameWork (s.meetErrs a n) :=
  .foldl (fun _ e => State.meetErr_sameWork e _) ..

theorem State.poisonedUnit_sameWork (w : Work) (act : Bool) (u : Nat) (s : State) :
    s.SameWork (s.poisonedUnit w act u) :=
  .of_pillows (by simp only [State.poisonedUnit_frame])

theorem State.readPhys_sameWork {w : Work} {unit va pa n : Nat} {win : Bool} {b : Bytes} {s t : State}
    (h : s.readPhys w unit win va pa n = .ok b t) : s.SameWork t := by
  unfold State.readPhys at h
  dsimp only at h
  split at h
  · cases h
    exact State.meetErrs_sameWork ..
  · split at h
    · cases h
    · cases h
      exact (State.meetErrs_sameWork ..).trans (.foldl (fun t u => State.poisonedUnit_sameWork ..) ..)

theorem readPieces_sameWork {w : Work} {unit : Nat} {win : Bool} {l : List (Nat × Nat)} {b : Bytes} {s t : State}
    (h : readPieces w unit win l s = .ok b t) : s.SameWork t := by
  induction l generalizing s b with
  | nil =>
    cases h
    exact .refl _
  | cons a l ih =>
    have ht := (State.translate_translates w.p unit win false w.asid a.1 s).work
    unfold readPieces at h
    split at h
    · cases h
    · next heq =>
      rw [heq] at ht
      split at h
      · next hphys =>
        split at h
        · next hrest =>
          cases h
          exact (ht.trans (State.readPhys_sameWork hphys)).trans (ih hrest)
        · next hno => exact absurd h (hno _ _)
      · next hno => exact absurd h (hno _ _)

theorem State.readOpnd_sameWork {w : Work} {unit n : Nat} {x : Opnd} {off line : Int} {b : Bytes} {s t : State}
    (h : s.readOpnd w unit x off line n = .ok b t) : s.SameWork t := by
  unfold State.readOpnd at h
  split at h
  · exact readPieces_sameWork h
  · split at h
    · dsimp only at h
      split at h
      · split at h
        · cases h
          exact .refl s
        · exact State.readPhys_sameWork h
      · split at h
        · exact State.readPhys_sameWork h
        · cases h
    · dsimp only at h
      split at h
      · cases h
      · split at h
        · cases h
        · exact readPieces_sameWork h

/-! ## Writes -/

theorem State.collided_sameWork (port a n : Nat) (ctx : Option Nat) (s : State) :
    s.SameWork (s.collided port ctx a n) := by
  have hcount : s.SameWork (if memCode a = 1 then
      s.modPillow ((a - spBase 0) / 0x20_0000) fun x => { x with mem := { x.mem with
        wcoll := satAdd 0xFFFF x.mem.wcoll n, ports := x.mem.ports ||| (1#4 <<< port) } }
      else { s with ms := { s.ms with
        gbWcoll := satAdd 0xFFFF s.ms.gbWcoll n, gbPorts := s.ms.gbPorts ||| (1#4 <<< port) } }) :=
    .ite (fun _ => .modPillow rfl) fun _ => .of_pillows rfl
  unfold State.collided
  dsimp only
  split
  · exact hcount
  · split
    · exact hcount
    · split
      · exact hcount
      · exact hcount.trans (.of_pillows (by simp only [State.report_frame, State.setJob_frame]))

/-- A write by a port is a store of as many bytes, collisions, and the notes of its cycle (R205, R206). -/
theorem State.storeBy_keeps (P : State → Prop) {port a : Nat} {ctx : Option Nat} {b : Bytes} {s : State}
    (hstore : ∀ c : Bytes, c.length = b.length → P (s.store a c))
    (hcollided : ∀ (t : State) port ctx a n, P t → P (t.collided port ctx a n))
    (hms : ∀ (t : State) m, P t → P { t with ms := m }) : P (s.storeBy port ctx a b) := by
  unfold State.storeBy
  split
  · exact hstore b rfl
  · dsimp only
    refine hms _ _ (foldl_keeps P _ _ _ ?_ fun t x ht => ?_)
    · exact iteInduction (fun _ => hstore _ (by simp)) fun _ => hcollided _ _ _ _ _ (hstore _ (by simp))
    · exact iteInduction (fun _ => ht) fun _ => hcollided _ _ _ _ _ ht

theorem State.storeBy_sameWork (port a : Nat) (ctx : Option Nat) (b : Bytes) (s : State) :
    s.SameWork (s.storeBy port ctx a b) :=
  State.storeBy_keeps (fun t => s.SameWork t) (fun _ _ => .of_pillows rfl)
    (fun _ _ _ _ _ h => h.trans (State.collided_sameWork ..)) fun _ _ h => h.trans (.of_pillows rfl)

theorem storePieces_sameWork (w : Work) (unit : Nat) (l : List (Nat × Nat)) (b : Bytes) (s : State) :
    s.SameWork (storePieces w unit l b s) := by
  induction l generalizing b s with
  | nil => exact .refl s
  | cons a l ih => exact (State.storeBy_sameWork ..).trans (ih ..)

/-- A write by a port changes memory within its range alone (R205). -/
theorem State.byteAt_storeBy {port a x : Nat} {ctx : Option Nat} {b : Bytes} {s : State}
    (h : x < a ∨ a + b.length ≤ x) : (s.storeBy port ctx a b).byteAt x = s.byteAt x := by
  refine State.storeBy_keeps (fun t => t.byteAt x = s.byteAt x) (fun c hc => ?_) (fun t port ctx a n ht => ?_)
    fun _ _ ht => ht
  · rw [State.byteAt_store, if_neg (by omega)]
  · exact (congrArg (memByte · x) (by simp only [State.collided_frame])).trans ht

/-- A write that no other of its cycle meets stores its bytes (R205). -/
theorem State.byteAt_storeBy_alone {port a : Nat} {ctx : Option Nat} {b : Bytes} {s : State} (h : s.cycleWrites = [])
    (x : Nat) : (s.storeBy port ctx a b).byteAt x = (s.store a b).byteAt x := by
  unfold State.storeBy
  split
  · rfl
  · have hkept : b.zipIdx.map (fun v : Byte × Nat => v.1) = b := by simp
    simp only [h, List.filter_nil, List.any_nil, List.flatMap_nil, List.eraseDups_nil, List.foldl_nil,
      Bool.false_eq_true, if_false, if_true, hkept]
    rfl

/-- A write of pieces changes memory within them alone. -/
theorem byteAt_storePieces {w : Work} {unit x : Nat} {l : List (Nat × Nat)} (h : ∀ z ∈ l, x < z.1 ∨ z.1 + z.2 ≤ x)
    (b : Bytes) (s : State) : (storePieces w unit l b s).byteAt x = s.byteAt x := by
  induction l generalizing b s with
  | nil => rfl
  | cons a l ih =>
    refine (ih (fun z hz => h z (List.mem_cons_of_mem _ hz)) ..).trans (State.byteAt_storeBy ?_)
    have ha := h a List.mem_cons_self
    have hlen := List.length_take_le a.2 b
    omega

end Sys2Proof.Machine
end

section
/-! PROOF. O57: tatting instructions, DMA bursts, SETLEN and the walks of a pillow (R39, R169, R176 to R178, R188 to
R197, R234, R238 to R243). -/

namespace Sys2Proof.Machine

/-! ## Walks (R234) -/

/-- A walk whose entries are sound succeeds (R256). -/
theorem State.walkCheck_sound {s : State} (h : s.ms.poison = []) (asid va : Nat) : (s.walkCheck asid va).1 = true := by
  have hall (l : List Nat) : l.takeWhile (fun _ => true) = l := List.takeWhile_eq_self_iff.mpr fun _ _ => rfl
  simp [State.walkCheck, h, hall]

/-- A walk is counted with its time (R259). -/
def State.countWalk (p asid va : Nat) (s : State) : State :=
  s.draw.2.modPillow p fun x => { x with mem := { x.mem with
    ptMiss := satAdd 0xFFFF_FFFF x.mem.ptMiss 1
    ptWalkNs := satAdd 0xFFFF_FFFF x.mem.ptWalkNs
      (s.draw.1.toNat % (350 * (s.ms.walkEntries asid va).length + 1)) } }

/-- The entry that a walk makes. -/
def Page.entry (asid : Nat) (fresh : Bool) (g : Page) : TcEntry :=
  { asid := asid, va := g.va, big := g.big, locks := [], fresh := fresh }

section
variable {p asid va : Nat} {fresh : Bool} {g : Page} {s : State} (hpage : s.pageAt asid va = some g)
  (hsound : s.ms.poison = [])

include hpage hsound in
/-- A walk of an address with a page, all of whose entries are sound, fills the cache of its pillow. -/
theorem State.walk_filled : (s.walk p asid va fresh).2
    = ((s.countWalk p asid va).walkCheck asid va).2.modPillow p fun x =>
        { x with tc := fillTc (g.entry asid fresh) x.tc } := by
  have hok : ((s.countWalk p asid va).walkCheck asid va).1 = true := State.walkCheck_sound hsound ..
  unfold State.walk
  dsimp only
  split
  · next heq =>
    cases hpage.symm.trans heq
    exact if_pos hok
  · next heq => cases hpage.symm.trans heq

include hpage hsound in
theorem State.walk_pillow_same : ((s.walk p asid va fresh).2).pillow p = { s.pillow p with
    tc := fillTc (g.entry asid fresh) (s.pillow p).tc
    mem := ((s.countWalk p asid va).pillow p).mem } := by
  have hcount : ((s.countWalk p asid va).walkCheck asid va).2.pillow p
      = { s.pillow p with mem := ((s.countWalk p asid va).pillow p).mem } := by
    refine (State.pillow_of_pillows (s := s.countWalk p asid va) rfl p).trans ?_
    unfold State.countWalk
    rw [State.pillow_modPillow_same]
    rfl
  rw [State.walk_filled hpage hsound, State.pillow_modPillow_same, hcount]

include hpage hsound in
theorem State.walk_pillow_ne {q : Nat} (hq : q ≠ p) : ((s.walk p asid va fresh).2).pillow q = s.pillow q := by
  rw [State.walk_filled hpage hsound, State.pillow_modPillow_ne hq]
  exact (State.pillow_of_pillows (s := s.countWalk p asid va) rfl q).trans (State.pillow_modPillow_ne hq ..)

theorem State.countWalk_ptMiss :
    ((s.countWalk p asid va).pillow p).mem.ptMiss = min 0xFFFF_FFFF ((s.pillow p).mem.ptMiss + 1) := by
  unfold State.countWalk
  rw [State.pillow_modPillow_same]
  rfl

theorem State.walk_eq : (s.walk p asid va fresh).2 = { s with
    pillows := (s.walk p asid va fresh).2.pillows
    ms := (s.walk p asid va fresh).2.ms
    free := (s.walk p asid va fresh).2.free } := by
  exact State.eq_of_parts (by simp only [State.walk_frame, and_self])
end

/-- A walk that ends well for a loose stage whose cache has no entry for the address. -/
theorem exec_translationWalkEnd_page {n p asid va : Nat} {r : Run} {j : Job} {g : Page} {s : State}
    (halive : s.pillowAlive p = true) (hrun : (s.pillow p).run = some r) (hj : s.job r.ctx = some j)
    (hloose : j.pinned = false) (hasid : j.asid = asid) (hva : va < 2 ^ 48)
    (hmiss : ∀ e ∈ (s.pillow p).tc, e.covers asid va = false) (hpage : s.pageAt asid va = some g)
    (hsound : s.ms.poison = []) :
    exec (.translationWalkEnd n p asid va .clean) s = .next ((s.advance n).walk p asid va true).2 := by
  have hany : (s.pillow p).tc.any (TcEntry.covers asid va) = false := by simpa using hmiss
  obtain ⟨w, hw, hp, hjob⟩ : ∃ w, (s.advance n).workOf p r = some w ∧ w.p = p ∧ w.job = j :=
    ⟨_, by rw [State.workOf, State.advance_job, hj]; rfl, rfl, rfl⟩
  have harises : (s.pillowAlive p && !w.job.pinned && w.asid == asid
      && !(s.pillow p).tc.any (TcEntry.covers asid va)) = true := by
    simp [halive, hjob, hloose, hasid, hany, Work.asid]
  have hends : (((s.advance n).pageAt asid va).isSome && ((s.advance n).walkCheck asid va).1) = true := by
    rw [show (s.advance n).pageAt asid va = some g from hpage, State.walkCheck_sound (s := s.advance n) hsound]
    rfl
  rw [exec_translationWalkEnd, execTranslationWalkEnd]
  simp only [State.advance_pillow, hrun, Nat.mod_eq_of_lt hva, Option.bind_some, hw]
  refine congrArg Host.Outcome.next ((if_pos harises).trans ?_)
  rw [← hp]
  exact if_pos hends

theorem translationWalkEnd_page {n p asid va : Nat} {r : Run} {j : Job} {g : Page} {s : State}
    (halive : s.pillowAlive p = true) (hrun : (s.pillow p).run = some r) (hj : s.job r.ctx = some j)
    (hloose : j.pinned = false) (hasid : j.asid = asid) (hva : va < 2 ^ 48)
    (hmiss : ∀ e ∈ (s.pillow p).tc, e.covers asid va = false) (hpage : s.pageAt asid va = some g)
    (hsound : s.ms.poison = []) :
    ∃ t, exec (.translationWalkEnd n p asid va .clean) s = .next t
      ∧ (t.pillow p).tc.head? = some { asid := asid, va := g.va, big := g.big, locks := [], fresh := true }
      ∧ (t.pillow p).mem.ptMiss = min 0xFFFF_FFFF ((s.pillow p).mem.ptMiss + 1)
      ∧ (t.pillow p).run = some r ∧ (∀ q, q ≠ p → t.pillow q = s.pillow q)
      ∧ t = { s with now := max s.now n, pillows := t.pillows, ms := t.ms, free := t.free } := by
  have hpage' : (s.advance n).pageAt asid va = some g := hpage
  have hsame := State.walk_pillow_same (p := p) (fresh := true) hpage' hsound
  refine ⟨_, exec_translationWalkEnd_page halive hrun hj hloose hasid hva hmiss hpage hsound, ?_, ?_, ?_,
    fun q hq => State.walk_pillow_ne hpage' hsound hq, State.walk_eq⟩
  · rw [hsame]
    rfl
  · rw [hsame]
    exact State.countWalk_ptMiss
  · rw [hsame]
    exact hrun

/-! ## SETLEN (R164, R169) -/

theorem nth_setNth {l : List Nat} {i : Nat} (h : i < l.length) (v : Nat) : nth (setNth l i v) i = v := by
  induction l generalizing i with
  | nil => cases h
  | cons x l ih =>
    cases i with
    | zero => rfl
    | succ i => exact ih (Nat.lt_of_succ_lt_succ h)

theorem getLsbD_or_one {i : Nat} (h : i < 4) (x : BitVec 4) : (x ||| (1#4 <<< i)).getLsbD i = true := by
  simp [h]

/-- The state in which a SETLEN has set its length and the stage stands at the next operation. -/
def State.lengthSet (p : Nat) (w : Work) (b : Bytes) (s : State) : State :=
  (s.setLen w w.op.arg (leNat b)).modRun p fun _ => w.nextOp

theorem exec_setlen_read {n p : Nat} {r : Run} {w : Work} {b : Bytes} {v s : State} (halive : s.pillowAlive p = true)
    (hrun : (s.pillow p).run = some r) (hw : s.workOf p r = some w) (hkind : w.op.kind = kSetlen)
    (hstarted : r.started = true) (hwait : r.waitWin = none) (hstop : r.stop = none)
    (hread : (s.advance n).readOpnd w 1 w.op.a (w.address w.op.a Level.strA [] 0).1
      (w.address w.op.a Level.strA [] 0).2 4 = .ok b v) :
    exec (.setlen n p) s = .next ((v.lengthSet p w b).boundary p 6) := by
  obtain ⟨-, hr, -⟩ := State.workOf_parts hw
  have hidle : ¬ (!((s.advance n).pillowAlive p && w.op.kind == kSetlen && w.run.started && w.run.stop.isNone
      && w.run.waitWin.isNone)) = true := by
    rw [hr, hkind, hstarted, hwait, hstop, show (s.advance n).pillowAlive p = true from halive]
    decide
  rw [exec_setlen, execSetlen]
  simp only [State.advance_pillow, hrun, Option.bind_some, show (s.advance n).workOf p r = some w from hw]
  refine congrArg Host.Outcome.next ((if_neg hidle).trans ?_)
  simp only [hread]
  rfl

section
variable {p : Nat} {w : Work} {b : Bytes} {j : Job} {v : State}

/-- A job with its length set. -/
def Job.lengthSet (w : Work) (b : Bytes) (j : Job) : Job := { j with
  len := setNth (j.len ++ List.replicate (4 - j.len.length) 0) w.op.arg (w.clampLen w.op.arg (leNat b))
  zeroed := j.zeroed || w.clampLen w.op.arg (leNat b) == 0
  clamp := if (w.job.pinned && decide (w.prk.lenMax w.op.arg < leNat b)) = true then j.clamp ||| (1#4 <<< w.op.arg)
    else j.clamp }

theorem State.lengthSet_job_same (hj : v.job w.run.ctx = some j) :
    (v.lengthSet p w b).job w.run.ctx = some (j.lengthSet w b) := by
  refine (State.job_modJob_same w.run.ctx (Job.lengthSet w b) v).trans ?_
  rw [hj]
  rfl

theorem State.lengthSet_job_ne {d : Nat} (hd : d ≠ w.run.ctx) : (v.lengthSet p w b).job d = v.job d :=
  State.job_modJob_ne hd (Job.lengthSet w b) v

theorem State.lengthSet_run {r : Run} (hp : w.p = p) (hrun : (v.pillow p).run = some r) :
    ((v.lengthSet p w b).pillow p).run = some w.nextOp := by
  have hset : ((v.setLen w w.op.arg (leNat b)).pillow p).run = some r := by
    unfold State.setLen
    rw [hp, State.pillow_modPillow_same]
    exact hrun
  unfold State.lengthSet State.modRun
  rw [State.pillow_modPillow_same, hset]
  rfl

theorem nth_lengthSet (harg : w.op.arg < 4) : nth (j.lengthSet w b).len w.op.arg
    = if w.job.pinned then min (leNat b) (w.prk.lenMax w.op.arg) else leNat b :=
  nth_setNth (by simp; omega) _

theorem setlen_read {n : Nat} {r : Run} {s : State} (halive : s.pillowAlive p = true)
    (hrun : (s.pillow p).run = some r) (hw : s.workOf p r = some w) (hkind : w.op.kind = kSetlen)
    (hstarted : r.started = true) (hwait : r.waitWin = none) (hstop : r.stop = none) (harg : w.op.arg < 4)
    (hread : (s.advance n).readOpnd w 1 w.op.a (w.address w.op.a Level.strA [] 0).1
      (w.address w.op.a Level.strA [] 0).2 4 = .ok b v) (hj : v.job r.ctx = some j) :
    ∃ (u : State) (k : Job), exec (.setlen n p) s = .next (u.boundary p 6) ∧ (u.pillow p).run = some w.nextOp
      ∧ u.job r.ctx = some k
      ∧ nth k.len w.op.arg = (if w.job.pinned then min (leNat b) (w.prk.lenMax w.op.arg) else leNat b)
      ∧ k = { j with len := k.len, clamp := k.clamp, zeroed := j.zeroed || nth k.len w.op.arg == 0 }
      ∧ (w.job.pinned = true → w.prk.lenMax w.op.arg < leNat b → k.clamp.getLsbD w.op.arg = true)
      ∧ (∀ d, d ≠ r.ctx → u.job d = v.job d) ∧ u = { v with jobs := u.jobs, pillows := u.pillows } := by
  obtain ⟨-, hr, hp⟩ := State.workOf_parts hw
  subst hr
  have hv : (v.pillow p).run = some w.run := ((State.readOpnd_sameWork hread).run p).trans hrun
  refine ⟨_, j.lengthSet w b, exec_setlen_read halive hrun hw hkind hstarted hwait hstop hread,
    State.lengthSet_run hp hv, State.lengthSet_job_same hj, nth_lengthSet harg, ?_, fun hpin hlt => ?_,
    fun d hd => State.lengthSet_job_ne hd, rfl⟩
  · rw [nth_lengthSet harg]
    rfl
  · rw [Job.lengthSet, if_pos (by simp [hpin, hlt])]
    exact getLsbD_or_one harg _
end

/-! ## DMA bursts (R238 to R243) -/

theorem reachOf_state (x : Except FaultRec Nat × State) : (reachOf x).2 = x.2 := by
  unfold reachOf
  split <;> rfl

theorem reachOf_translates {s : State} {x : Except FaultRec Nat × State} (h : s.Translates x.2) :
    s.Translates (reachOf x).2 := by rwa [reachOf_state]

theorem State.reachRead_translates (w : Work) (x : Opnd) (off line : Int) (s : State) :
    s.Translates (s.reachRead w x off line).2 := by
  unfold State.reachRead
  dsimp only
  split
  · exact reachOf_translates (State.translate_translates ..)
  · split
    · split
      · exact .refl s
      · split <;> exact .refl s
    · split
      · exact .refl s
      · split
        · exact .refl s
        · exact reachOf_translates (State.translate_translates ..)

theorem State.reachWrite_translates (w : Work) (x : Opnd) (off line : Int) (s : State) :
    s.Translates (s.reachWrite w x off line).2 := by
  unfold State.reachWrite
  split
  · exact .refl s
  · exact reachOf_translates (State.translate_translates ..)
  · exact .refl s

theorem State.burstTarget_translates (w : Work) (x : DmaXfer) (s : State) : s.Translates (s.burstTarget w x).2 := by
  have hwrite := State.reachWrite_translates w w.op.o (w.burstEnds x).2.1 (w.burstEnds x).2.2 s
  unfold State.burstTarget
  dsimp only
  split
  · split
    · next heq => rwa [heq] at hwrite
    · next heq => rwa [heq] at hwrite
  · split <;> exact .refl s

/-- A read of sound units takes the bytes as they stand (R208). -/
theorem State.readPhys_sound {w : Work} {unit va pa n : Nat} {win : Bool} {s : State} (herrs : s.ms.errs = [])
    (hpoison : s.poisonIn pa n = none) : s.readPhys w unit win va pa n = .ok (s.load pa n) s := by
  have hnone : (s.ms.poison.filter fun u => decide (u < pa + n) && decide (pa < u + 8)).isEmpty = true :=
    List.isEmpty_iff.mpr (List.filter_eq_nil_iff.mpr (List.find?_eq_none.mp hpoison))
  unfold State.readPhys
  rw [State.meetErrs_sound herrs]
  exact if_pos hnone

theorem State.byteAt_load {pa n a b : Nat} {s t : State} (hm : t.mem = s.mem) (hc : t.cycleWrites = []) (port : Nat)
    (ctx : Option Nat) : (t.storeBy port ctx b (s.load pa n)).byteAt a
      = if b ≤ a ∧ a < b + n then s.byteAt (pa + (a - b)) else s.byteAt a := by
  have hlen : (s.load pa n).length = n := by simp [State.load, memRead]
  rw [State.byteAt_storeBy_alone hc, State.byteAt_store, hlen]
  split
  · next h => simp [State.load, memRead, State.byteAt, List.getD_eq_getElem?_getD, show a - b < n by omega]
  · exact congrArg (memByte · a) hm

section
variable {n p i sa pa : Nat} {r : Run} {w wx : Work} {x : DmaXfer} {v y s : State}

/-- The state after a burst whose bytes a memory has taken. -/
def State.burstStored (w : Work) (sa pa n : Nat) (s : State) : State :=
  s.storeBy (w.port 3 pa) (some w.run.ctx) pa (s.load sa n)

/-- The state in which a transfer has moved on after a burst. -/
def State.burstMoved (w : Work) (i : Nat) (x : DmaXfer) (n : Nat) (s : State) : State :=
  let m := s.xferNext (w.ofXfer x) x n
  let t := m.2.modRun w.p (Run.afterBurst i m.1)
  if m.1.isNone && !x.async then t.modRun w.p fun r => { w.nextOp with dma := r.dma, turn := r.turn } else t

theorem State.burstDone_eq (w : Work) (i : Nat) (x : DmaXfer) (n : Nat) (s : State) : s.burstDone w i x n
    = ((s.burstMoved w i x n).boundary w.p 3).settlePillows (w.p :: w.job.pillows) := rfl

theorem State.burstMoved_mem (w : Work) (i : Nat) (x : DmaXfer) (n : Nat) (s : State) :
    (s.burstMoved w i x n).mem = s.mem := by
  unfold State.burstMoved
  dsimp only
  split <;> simp only [State.modRun_frame, State.xferNext_frame]

theorem State.burst_placed (hread : s.reachRead wx wx.op.a (wx.burstEnds x).1.1 (wx.burstEnds x).1.2 = (.place sa, v))
    (htarget : v.burstTarget wx x = (.ok [pa], y)) (hpoison : y.poisonIn sa (s.burstLen wx x) = none)
    (herrs : y.ms.errs = []) : s.burst wx x = .ok [] (y.burstStored wx sa pa (s.burstLen wx x)) := by
  unfold State.burst
  simp only [hread, htarget, State.readPhys_sound herrs hpoison]
  rfl

theorem exec_dmaBurstComplete_moves (halive : s.pillowAlive p = true) (hrun : (s.pillow p).run = some r)
    (hw : s.workOf p r = some w) (hstop : r.stop = none) (hx : (r.dma.drop i).head? = some x)
    (hturn : s.turnOf w = some i) (hwait : r.waitWin = none ∨ (w.op.kind ≠ kDma ∧ r.op < w.prk.nOps)) {t : State}
    (hburst : (s.advance n).burst (w.ofXfer x) x = .ok [] t) :
    exec (.dmaBurstComplete n p { xfer := i }) s = .next
      (((t.burstMoved w i x (s.burstLen (w.ofXfer x) x)).boundary p 3).settlePillows (p :: w.job.pillows)) := by
  obtain ⟨-, hr, hp⟩ := State.workOf_parts hw
  subst hr hp
  have hidle : ¬ (!((s.advance n).pillowAlive w.p && w.run.may 3 && (s.advance n).turnOf w == some i)) = true := by
    rw [show (s.advance n).pillowAlive w.p = true from halive, show (s.advance n).turnOf w = some i from hturn, Run.may,
      hstop]
    simp
  have hwaits : (if w.op.kind = kDma ∨ w.prk.nOps ≤ w.run.op then (s.advance n).endWait w.p else s.advance n)
      = s.advance n := by
    rcases hwait with hnone | ⟨hkind, hop⟩
    · rw [State.endWait, State.advance_pillow, hrun]
      simp [hnone]
    · exact if_neg (not_or.mpr ⟨hkind, not_le.mpr hop⟩)
  rw [exec_dmaBurstComplete, execDmaBurstComplete]
  simp only [List.foldl_nil, State.advance_pillow, hrun, Option.bind_some,
    show (s.advance n).workOf w.p w.run = some w from hw, hx]
  refine congrArg Host.Outcome.next ((if_neg hidle).trans ?_)
  simp only [hwaits, hburst]
  exact State.burstDone_eq ..

theorem dmaBurstComplete_placed (halive : s.pillowAlive p = true) (hrun : (s.pillow p).run = some r)
    (hw : s.workOf p r = some w) (hstop : r.stop = none) (hx : (r.dma.drop i).head? = some x)
    (hturn : s.turnOf w = some i) (hwx : wx = w.ofXfer x)
    (hwait : r.waitWin = none ∨ (w.op.kind ≠ kDma ∧ r.op < w.prk.nOps))
    (hread : (s.advance n).reachRead wx wx.op.a (wx.burstEnds x).1.1 (wx.burstEnds x).1.2 = (.place sa, v))
    (htarget : v.burstTarget wx x = (.ok [pa], y)) (hpoison : y.poisonIn sa (s.burstLen wx x) = none)
    (herrs : s.ms.errs = []) (hcycle : (s.advance n).cycleWrites = []) :
    ∃ u : State, exec (.dmaBurstComplete n p { xfer := i }) s
        = .next ((u.boundary p 3).settlePillows (p :: w.job.pillows))
      ∧ (∀ a, u.byteAt a = if pa ≤ a ∧ a < pa + s.burstLen wx x then s.byteAt (sa + (a - pa)) else s.byteAt a) := by
  subst hwx
  have hv := State.reachRead_translates (w.ofXfer x) (w.ofXfer x).op.a ((w.ofXfer x).burstEnds x).1.1
    ((w.ofXfer x).burstEnds x).1.2 (s.advance n)
  have hy := State.burstTarget_translates (w.ofXfer x) x v
  rw [hread] at hv
  rw [htarget] at hy
  have hsy := hv.trans hy
  refine ⟨_, exec_dmaBurstComplete_moves halive hrun hw hstop hx hturn hwait
    (State.burst_placed hread htarget hpoison (hsy.errs.trans herrs)), fun a => ?_⟩
  refine (congrArg (memByte · a) (State.burstMoved_mem ..)).trans ?_
  refine (State.byteAt_load rfl (hsy.cycleWrites.trans hcycle) ..).trans ?_
  have hbyte (k : Nat) : y.byteAt k = s.byteAt k := congrArg (memByte · k) hsy.mem
  simp only [hbyte]
  rfl
end

/-! ## Tatting instructions (R187 to R199) -/

theorem Access.isWait_of_ok {a : Access} {b : Bytes} {t : State} (h : a = .ok b t) : a.isWait = false := by
  rw [h]
  rfl

theorem readPiece_sameWork {w : Work} {es tok fuel lo n : Nat} {idx : List Nat} {b : Bytes} {s t : State}
    (h : readPiece w es idx tok fuel lo n s = .ok b t) : s.SameWork t := by
  induction fuel generalizing lo n b s with
  | zero =>
    cases h
    exact .refl _
  | succ fuel ih =>
    unfold readPiece at h
    split at h
    · cases h
      exact .refl _
    · dsimp only at h
      split at h
      · next hopnd =>
        split at h
        · next hrest =>
          cases h
          exact (State.readOpnd_sameWork hopnd).trans (ih hrest)
        · next hno => exact absurd h (hno _ _)
      · next hno => exact absurd h (hno _ _)

/-- A second read follows a first one that has its bytes. -/
theorem Access.then_eq_ok {a : Access} {f : Bytes → State → Access} {b : Bytes} {t : State} (h : a.then f = .ok b t) :
    ∃ c u, a = .ok c u ∧ f c u = .ok b t := by
  cases a with
  | ok c u => exact ⟨c, u, rfl, h⟩
  | fault f s => cases h
  | wait k l d => cases h

theorem State.readE_sameWork {w : Work} {es tok lo n : Nat} {idx : List Nat} {b : Bytes} {s t : State}
    (h : s.readE w es idx tok lo n = .ok b t) : s.SameWork t := State.readOpnd_sameWork h

theorem State.pieceE_sameWork {w : Work} {es tok lo n : Nat} {idx : List Nat} {b : Bytes} {s t : State}
    (h : s.pieceE w es idx tok lo n = .ok b t) : s.SameWork t := by
  unfold State.pieceE at h
  dsimp only at h
  split at h
  · exact State.readE_sameWork h
  · split at h
    · obtain ⟨g, u, hfirst, h⟩ := Access.then_eq_ok h
      have hu := State.readE_sameWork hfirst
      split at h
      · cases h
        exact hu
      · obtain ⟨c, x, hsecond, h⟩ := Access.then_eq_ok h
        cases h
        exact hu.trans (State.readE_sameWork hsecond)
    · cases h
      exact .refl _

theorem State.mem_of_ite {c : Prop} [Decidable c] {s t u : State} (ht : t.mem = s.mem) (hu : u.mem = s.mem) :
    (if c then t else u).mem = s.mem :=
  iteInduction (motive := fun x : State => x.mem = s.mem) (fun _ => ht) fun _ => hu

theorem State.tatNext_mem (w : Work) (idx : List Nat) (tok : Nat) (nxt : Option (List Nat × Nat)) (s : State) :
    (s.tatNext w idx tok nxt).mem = s.mem := by simp only [State.tatNext_frame]

theorem State.countTat_sameWork (w : Work) (masked : Bool) (outs : List OutElem) (bad vec mat : Nat) (s : State) :
    s.SameWork (s.countTat w masked outs bad vec mat) := by
  unfold State.countTat
  exact .trans (.modJob ..) (.modPillow rfl)

/-- The reads of an instruction leave memory, the streams and the templates. -/
theorem tatReads_keep {w : Work} {es tok fuel lo n m k : Nat} {idx : List Nat} {ab eb : Bytes} {s v x : State}
    (ha : readPiece w es idx tok fuel lo n s = .ok ab v) (he : v.pieceE w es idx tok m k = .ok eb x) :
    x.mem = s.mem ∧ x.streams = s.streams ∧ x.templates = s.templates := by
  have hv := readPiece_frame w es idx tok fuel lo n s (Access.isWait_of_ok ha)
  have hx := State.pieceE_frame w es idx tok m k v (Access.isWait_of_ok he)
  rw [ha] at hv
  rw [he] at hx
  simp only [Access.okState] at hv hx
  simp only [hv, hx, and_self]

section
variable {w : Work} {idx : List Nat} {tok : Nat} {ab eb : Bytes} {v x s : State}
  (ha : readPiece w (w.prk.qdesc w.op.qdesc).esize idx tok 65 (w.op.tatPiece w.run.tatPos).1
    (w.op.tatPiece w.run.tatPos).2 s = .ok ab v)
  (he : v.pieceE w (w.prk.qdesc w.op.qdesc).esize idx tok (w.op.tatPiece w.run.tatPos).1
    (w.op.tatPiece w.run.tatPos).2 = .ok eb x)

include ha he in
/-- A masked token's instruction writes nothing (R165, R197). -/
theorem State.vectorStep_masked (hmask : w.maskedTok idx tok = true) :
    ∃ t, s.vectorStep w idx tok = .ok [] t ∧ t.mem = x.mem := by
  unfold State.vectorStep
  simp only [ha, Access.then, he, hmask, true_or, if_true, State.writeSpans]
  exact ⟨_, rfl, State.mem_of_ite ((State.tatNext_mem ..).trans (State.mem_of_ite rfl rfl)) (State.mem_of_ite rfl rfl)⟩

include ha he in
/-- An instruction that ends neither the read nor the token writes its outputs and takes the next piece (R197). -/
theorem State.vectorStep_piece (hmask : w.maskedTok idx tok = false) (hflat : w.op.o.windowed = false)
    (hpiece : w.run.tatPos + 1 < w.op.tatPieces) {d : EDesc} (hd : d = s.edescOf w) {i : Instruction}
    (hi : i = vectorInstr w (w.prk.qdesc w.op.qdesc).inFmt (w.op.tatPiece w.run.tatPos).2 d ab eb) {ys : List OutElem}
    (hys : ys = i.out.map (tatOutput d (x.actOf w d))) (hsome : ys ≠ []) {l : List (Nat × Nat)} {y : State}
    (hwrite : writePages w 2 false (vaPieces (vaOf ((w.address w.op.o Level.strO idx tok).1
      + ((w.op.tatOut w.run.tatPos * d.outSize : Nat) : Int))) (ys.flatMap OutElem.bytes).length) x = (.ok l, y)) :
    ∃ t acc scal, s.vectorStep w idx tok = .ok [] (t.modRun w.p fun r =>
        { r with acc := acc, scal := scal, tatPos := w.run.tatPos + 1 })
      ∧ t.mem = (storePieces w 2 l (ys.flatMap OutElem.bytes) y).mem ∧ y.SameWork t := by
  subst hd
  have hlast : decide (w.op.tatPieces ≤ w.run.tatPos + 1) = false := decide_eq_false (by omega)
  have hmore : ¬ (w.maskedTok idx tok = true ∨ ys = []) := by
    rw [hmask]
    exact not_or.mpr ⟨Bool.false_ne_true, hsome⟩
  unfold State.vectorStep
  simp only [ha, Access.then, he, ← hi, ← hys, if_neg hmore, State.writeSpans, State.writeTarget, hflat, Bool.not_false,
    if_true, List.cons_ne_nil, if_false, List.map_cons, List.map_nil, List.flatMap_cons, List.flatMap_nil,
    List.append_nil, Option.getD_some, hwrite, hlast, Bool.false_and, Bool.false_eq_true, false_and]
  exact ⟨_, _, _, rfl, by simp only [State.countTat_frame],
    (storePieces_sameWork ..).trans (State.countTat_sameWork ..)⟩
end

section
variable {n p tok : Nat} {r : Run} {w : Work} {idx : List Nat} {ab eb : Bytes} {v x s : State}
  (halive : s.pillowAlive p = true) (hrun : (s.pillow p).run = some r) (hw : s.workOf p r = some w)
  (hkind : w.op.kind = kTat) (hstarted : r.started = true) (hwait : r.waitWin = none) (hstop : r.stop = none)
  (hnext : r.next = some (idx, tok))

include halive hrun hw hkind hstarted hwait hstop hnext in
theorem exec_tattingInstructionEnd_vector (harg : w.op.arg ≤ 9) {u : State}
    (hstep : (s.advance n).vectorStep w idx tok = .ok [] u) :
    exec (.tattingInstructionEnd n p) s = .next ((u.boundary p 2).settlePillows w.job.pillows) := by
  obtain ⟨-, hr, -⟩ := State.workOf_parts hw
  subst hr
  have hidle : ¬ (!((s.advance n).pillowAlive p && w.op.kind == kTat && w.run.started && w.run.may 2
      && w.run.waitWin.isNone)) = true := by
    rw [show (s.advance n).pillowAlive p = true from halive, hkind, hstarted, hwait, Run.may, hstop]
    decide
  rw [exec_tattingInstructionEnd, execTattingInstructionEnd]
  simp only [State.advance_pillow, hrun, Option.bind_some, show (s.advance n).workOf p w.run = some w from hw, hnext]
  refine congrArg Host.Outcome.next ((if_neg hidle).trans ?_)
  unfold State.tatOne
  simp only [if_pos harg, hstep]

include halive hrun hw hkind hstarted hwait hstop hnext in
theorem tattingInstructionEnd_piece {d : EDesc} {i : Instruction} {ys : List OutElem} {l : List (Nat × Nat)} {y : State}
    (harg : w.op.arg ≤ 3) (hpiece : r.tatPos + 1 < w.op.tatPieces)
    (ha : readPiece w (w.prk.qdesc w.op.qdesc).esize idx tok 65 (w.op.tatPiece r.tatPos).1 (w.op.tatPiece r.tatPos).2
      (s.advance n) = .ok ab v)
    (he : v.pieceE w (w.prk.qdesc w.op.qdesc).esize idx tok (w.op.tatPiece r.tatPos).1 (w.op.tatPiece r.tatPos).2
      = .ok eb x) (hmask : w.maskedTok idx tok = false) (hflat : w.op.o.windowed = false)
    (hd : d = (s.advance n).edescOf w)
    (hi : i = vectorInstr w (w.prk.qdesc w.op.qdesc).inFmt (w.op.tatPiece r.tatPos).2 d ab eb)
    (hys : ys = i.out.map (tatOutput d (x.actOf w d))) (hsome : i.out ≠ [])
    (hwrite : writePages w 2 false (vaPieces (vaOf ((w.address w.op.o Level.strO idx tok).1
      + ((w.op.tatOut r.tatPos * d.outSize : Nat) : Int))) (ys.flatMap OutElem.bytes).length) x = (.ok l, y)) :
    ∃ u : State, exec (.tattingInstructionEnd n p) s = .next ((u.boundary p 2).settlePillows w.job.pillows)
      ∧ u.mem = (storePieces w 2 l (ys.flatMap OutElem.bytes) y).mem
      ∧ (∀ a, (∀ z ∈ l, a < z.1 ∨ z.1 + z.2 ≤ a) → u.byteAt a = s.byteAt a)
      ∧ (u.pillow p).run.map Run.tatPos = some (r.tatPos + 1)
      ∧ (u.pillow p).run.map Run.next = some (some (idx, tok)) := by
  obtain ⟨-, hr, hp⟩ := State.workOf_parts hw
  subst hr hp
  obtain ⟨t, acc, scal, hstep, hmem, hwork⟩ := State.vectorStep_piece ha he hmask hflat hpiece hd hi hys
    (fun h => hsome (List.map_eq_nil_iff.mp (hys ▸ h))) hwrite
  have hpages := writePages_translates w 2 false (vaPieces (vaOf ((w.address w.op.o Level.strO idx tok).1
    + ((w.op.tatOut w.run.tatPos * d.outSize : Nat) : Int))) (ys.flatMap OutElem.bytes).length) x
  rw [hwrite] at hpages
  have hreads : (s.advance n).SameWork x := (readPiece_sameWork ha).trans (State.pieceE_sameWork he)
  have hbytes : x.mem = s.mem := (tatReads_keep ha he).1
  have hrunt : (t.pillow w.p).run = some w.run := (((hreads.trans hpages.work).trans hwork).run w.p).trans hrun
  refine ⟨_, exec_tattingInstructionEnd_vector halive hrun hw hkind hstarted hwait hstop hnext (by omega) hstep, hmem,
    fun a ha => ?_, ?_, ?_⟩
  · refine (congrArg (memByte · a) hmem).trans ((byteAt_storePieces ha ..).trans ?_)
    exact congrArg (memByte · a) (hpages.mem.trans hbytes)
  · rw [State.modRun, State.pillow_modPillow_same, hrunt]
    rfl
  · rw [State.modRun, State.pillow_modPillow_same, hrunt]
    exact congrArg some hnext

include halive hrun hw hkind hstarted hwait hstop hnext in
theorem tattingInstructionEnd_masked (harg : w.op.arg ≤ 9)
    (ha : readPiece w (w.prk.qdesc w.op.qdesc).esize idx tok 65 (w.op.tatPiece r.tatPos).1 (w.op.tatPiece r.tatPos).2
      (s.advance n) = .ok ab v)
    (he : v.pieceE w (w.prk.qdesc w.op.qdesc).esize idx tok (w.op.tatPiece r.tatPos).1 (w.op.tatPiece r.tatPos).2
      = .ok eb x) (hmask : w.maskedTok idx tok = true) :
    ∃ u : State, exec (.tattingInstructionEnd n p) s = .next ((u.boundary p 2).settlePillows w.job.pillows)
      ∧ u.mem = s.mem ∧ u.streams = s.streams ∧ u.templates = s.templates := by
  obtain ⟨-, hr, -⟩ := State.workOf_parts hw
  subst hr
  obtain ⟨u, hstep, hmem⟩ := State.vectorStep_masked ha he hmask
  have hu := State.vectorStep_frame w idx tok (s.advance n) (Access.isWait_of_ok hstep)
  rw [hstep] at hu
  simp only [Access.okState] at hu
  refine ⟨u, exec_tattingInstructionEnd_vector halive hrun hw hkind hstarted hwait hstop hnext harg hstep,
    hmem.trans (tatReads_keep ha he).1, ?_, ?_⟩ <;> simp only [hu, State.advance_frame]
end

/-- A pillow without work walks for nothing. -/
theorem translationWalkEnd_idle {n p asid va : Nat} {e : Ecc} {s : State} (hrun : (s.pillow p).run = none) :
    exec (.translationWalkEnd n p asid va e) s = .next { s with now := max s.now n } := by
  rw [exec_translationWalkEnd, execTranslationWalkEnd]
  simp only [State.advance_pillow, hrun]
  rfl

/-- Settles O57: each unit's event reaches its own step, which the accesses before it cannot have disturbed. -/
theorem tattingAndTransfers : Obligations.TattingAndTransfers := by
  unfold Obligations.TattingAndTransfers
  refine ⟨?_, ?_, ?_, ?_, ?_, ?_⟩
  · intro n p r w idx tok ab eb out l v x y s halive hrun hw hkind hstarted hwait hstop hnext harg hpiece ha he hmask
      hflat hout hsome hwrite
    subst hout
    exact tattingInstructionEnd_piece halive hrun hw hkind hstarted hwait hstop hnext harg hpiece ha he hmask hflat rfl
      rfl rfl hsome hwrite
  · intro n p r w idx tok ab eb v x s halive hrun hw hkind hstarted hwait hstop hnext harg ha he hmask
    exact tattingInstructionEnd_masked halive hrun hw hkind hstarted hwait hstop hnext harg ha he hmask
  · intro n p i sa pa r w wx x v y s halive hrun hw hstop hx hturn hwx hwait hread htarget hpoison herrs hcycle
    exact dmaBurstComplete_placed halive hrun hw hstop hx hturn hwx hwait hread htarget hpoison herrs hcycle
  · intro n p r w b j v s halive hrun hw hkind hstarted hwait hstop harg hread hj
    exact setlen_read halive hrun hw hkind hstarted hwait hstop harg hread hj
  · intro n p asid va r j g s halive hrun hj hloose hasid hva hmiss hpage hsound
    exact translationWalkEnd_page halive hrun hj hloose hasid hva hmiss hpage hsound
  · intro n p asid va e s hrun
    exact translationWalkEnd_idle hrun

end Sys2Proof.Machine
end

section
/-! PROOF. O56: tokens staged, passes and their repeats, poisoned staging buffers, and spills in the wide format (R89
to R107, R117, R124, R133, R160, R208). -/

namespace Sys2Proof.Machine

/-! ## A token is conditioned (R89 to R107) -/

theorem State.stageCodes_sameWork (w : Work) (q : QDesc) (sheet half tok waves : Nat) (c : Conditioned) (ds : List Drive)
    (s : State) : s.SameWork (s.stageCodes w q sheet half tok waves c ds) := by
  induction ds generalizing s with
  | nil => exact .refl s
  | cons d ds ih => exact .trans (.setBobbin ..) (ih _)

theorem State.countToken_sameWork (w : Work) (masked : Bool) (q : QDesc) (c : Conditioned) (s : State) :
    s.SameWork (s.countToken w masked q c) := by
  unfold State.countToken
  refine .ite (fun _ => .refl s) fun _ => .ite (fun _ => .modPillow rfl) fun _ => ?_
  exact .trans (.modJob ..) (.modPillow rfl)

section
variable {n p : Nat} {r : Run} {w : Work} {pos : List Nat × Nat} {b : Bytes} {s v : State}

/-- What the conditioner makes of a token whose bytes it has read. -/
def State.conditioned (w : Work) (pos : List Nat × Nat) (b : Bytes) (v : State) : Conditioned :=
  conditionToken (w.prk.qdesc w.op.qdesc) (v.scaleOf w).1 (v.scaleOf w).2 v.draw.1.toNat (w.op.parts == 1)
    (if w.run.again = 0 then w.run.cond else none) (rawElems (w.prk.qdesc w.op.qdesc).esize (w.kOf pos.1) b)
    (slicesOf (w.prk.qdesc w.op.qdesc) (w.kOf pos.1) (w.drives pos.1))

/-- The token as it is staged. -/
def State.tokenStaged (w : Work) (pos : List Nat × Nat) (b : Bytes) (v : State) : StagedTok :=
  { idx := pos.1, tok := pos.2, masked := w.maskedTok pos.1 pos.2, k := w.kOf pos.1, half := w.run.halfFor pos.2
    scale := (v.conditioned w pos b).scale, zq := (v.conditioned w pos b).zq, degen := (v.conditioned w pos b).degen }

theorem State.stageToken_staged : ((v.stageToken w pos b).pillow w.p).run.map Run.staged
    = (v.pillow w.p).run.map fun x => x.staged ++ [v.tokenStaged w pos b] := by
  have hstage : v.SameWork (if ((v.conditioned w pos b).degen.isSome || w.job.capMode == 2) = true then v.draw.2
      else v.draw.2.stageCodes w (w.prk.qdesc w.op.qdesc) w.job.sheet (w.run.halfFor pos.2) pos.2
        (waveCount (w.drives pos.1)) (v.conditioned w pos b) (w.drives pos.1)) :=
    .trans v.draw_translates.work (.ite (fun _ => .refl _) fun _ => State.stageCodes_sameWork ..)
  have hcount := hstage.trans (State.countToken_sameWork w (w.maskedTok pos.1 pos.2) (w.prk.qdesc w.op.qdesc)
    (v.conditioned w pos b) _)
  unfold State.stageToken State.modRun
  dsimp only
  rw [State.pillow_modPillow_same]
  have hrun := hcount.run w.p
  unfold State.conditioned at hrun
  simp only [hrun, Option.map_map]
  rfl

theorem exec_tokenConditioned_read (halive : s.pillowAlive p = true) (hrun : (s.pillow p).run = some r)
    (hw : s.workOf p r = some w) (hnext : r.next = some pos) (hkind : w.op.kind = kXbar) (hstarted : r.started = true)
    (hwait : r.waitWin = none) (hstop : r.stop = none) (hroom : r.hasRoom pos = true) (htile : w.badTile pos.1 = none)
    (hread : (s.advance n).readToken w 0 (w.prk.qdesc w.op.qdesc).esize pos.1 pos.2 (w.kOf pos.1) = .ok b v) :
    exec (.tokenConditioned n p) s = .next (((v.stageToken w pos b).finishHead p).boundary p 0) := by
  obtain ⟨-, hr, -⟩ := State.workOf_parts hw
  subst hr
  have hidle : ¬ (!((s.advance n).pillowAlive p && w.atToken && w.run.may 0)) = true := by
    rw [show (s.advance n).pillowAlive p = true from halive, Work.atToken, hkind, hstarted, hwait, hnext, Run.may, hstop,
      Option.any_some, hroom]
    decide
  rw [exec_tokenConditioned, execTokenConditioned]
  simp only [State.advance_pillow, hrun, Option.bind_some, show (s.advance n).workOf p w.run = some w from hw, hnext]
  refine congrArg Host.Outcome.next ((if_neg hidle).trans ?_)
  unfold State.conditionOne
  simp only [htile, hread]

theorem tokenConditioned_read (halive : s.pillowAlive p = true) (hrun : (s.pillow p).run = some r)
    (hw : s.workOf p r = some w) (hnext : r.next = some pos) (hkind : w.op.kind = kXbar) (hstarted : r.started = true)
    (hwait : r.waitWin = none) (hstop : r.stop = none) (hroom : r.hasRoom pos = true) (htile : w.badTile pos.1 = none)
    (hread : (s.advance n).readToken w 0 (w.prk.qdesc w.op.qdesc).esize pos.1 pos.2 (w.kOf pos.1) = .ok b v) :
    ∃ (u : State) (t : StagedTok), exec (.tokenConditioned n p) s = .next ((u.finishHead p).boundary p 0)
      ∧ (t.idx = pos.1 ∧ t.tok = pos.2 ∧ t.k = w.kOf pos.1 ∧ t.half = r.halfFor pos.2
          ∧ t.masked = w.maskedTok pos.1 pos.2)
      ∧ (∃ d c, c = conditionToken (w.prk.qdesc w.op.qdesc) (v.scaleOf w).1 (v.scaleOf w).2 d (w.op.parts == 1)
            (if r.again = 0 then r.cond else none) (rawElems (w.prk.qdesc w.op.qdesc).esize t.k b)
            (slicesOf (w.prk.qdesc w.op.qdesc) t.k (w.drives pos.1))
          ∧ t.scale = c.scale ∧ t.zq = c.zq ∧ t.degen = c.degen)
      ∧ (u.pillow p).run.map Run.staged = (v.pillow p).run.map (fun x => x.staged ++ [t])
      ∧ u.mem = s.mem ∧ u.streams = s.streams ∧ u.templates = s.templates := by
  have hv := State.readToken_frame w 0 (w.prk.qdesc w.op.qdesc).esize pos.1 pos.2 (w.kOf pos.1) (s.advance n)
    (by rw [hread]; rfl)
  rw [hread] at hv
  simp only [Access.okState] at hv
  have hexec := exec_tokenConditioned_read halive hrun hw hnext hkind hstarted hwait hstop hroom htile hread
  obtain ⟨-, hr, hp⟩ := State.workOf_parts hw
  subst hr hp
  refine ⟨v.stageToken w pos b, v.tokenStaged w pos b, hexec, ⟨rfl, rfl, rfl, rfl, rfl⟩,
    ⟨v.draw.1.toNat, v.conditioned w pos b, rfl, rfl, rfl, rfl⟩, State.stageToken_staged, ?_, ?_, ?_⟩ <;>
    simp only [State.stageToken_frame, hv, State.advance_frame]
end

/-! ## Bobbins read after they are written -/

theorem State.bobbin_setBobbin (p b q c : Nat) (x : Bobbin) (s : State) :
    (s.setBobbin p b x).bobbin q c = if q = p ∧ c = b then x else s.bobbin q c := by
  unfold State.bobbin State.setBobbin
  rw [State.pillow_modPillow]
  by_cases hq : q = p
  · subst hq
    simp only [if_true, true_and]
    exact tget_tset ..
  · simp only [hq, false_and, if_false]

theorem State.bobbin_of_bobbins {q : Nat} {s t : State} (h : (t.pillow q).bobbins = (s.pillow q).bobbins) (c : Nat) :
    t.bobbin q c = s.bobbin q c := by
  unfold State.bobbin
  rw [h]

/-! ## Staging buffers without errors (R208) -/

/-- Two states differ at most in how the bobbins of a pillow are written down. -/
structure State.SameBobbins (p : Nat) (s t : State) : Prop where
  rest : t = { s with pillows := t.pillows }
  same : t.pillow p = { s.pillow p with bobbins := (t.pillow p).bobbins }
  other : ∀ q, q ≠ p → t.pillow q = s.pillow q
  bobbin : ∀ q c, t.bobbin q c = s.bobbin q c

theorem State.SameBobbins.refl (p : Nat) (s : State) : s.SameBobbins p s := ⟨rfl, rfl, fun _ _ => rfl, fun _ _ => rfl⟩

theorem State.SameBobbins.trans {p : Nat} {s t u : State} (h : s.SameBobbins p t) (k : t.SameBobbins p u) :
    s.SameBobbins p u where
  rest := by rw [k.rest, h.rest]
  same := by rw [k.same, h.same]
  other q hq := (k.other q hq).trans (h.other q hq)
  bobbin q c := (k.bobbin q c).trans (h.bobbin q c)

theorem State.sameBobbins_setBobbin {p b : Nat} {x : Bobbin} {s : State} (h : x = s.bobbin p b) :
    s.SameBobbins p (s.setBobbin p b x) where
  rest := rfl
  same := by
    rw [State.setBobbin, State.pillow_modPillow_same]
  other q hq := State.pillow_modPillow_ne hq ..
  bobbin q c := by
    rw [State.bobbin_setBobbin]
    split
    · next e => rw [h, e.1, e.2]
    · rfl

/-- A read of a staging buffer without errors meets none. -/
theorem State.meetStaging_sound {p b : Nat} {s : State} (h : (s.bobbin p b).stageErrs = []) (lo hi : Nat) :
    s.SameBobbins p (s.meetStaging p b lo hi) := by
  have hsame : { s.bobbin p b with
      stageErrs := (s.bobbin p b).stageErrs.filter fun e => !([] : List (Nat × Strike)).contains e
      stagePoison := (s.bobbin p b).stagePoison ++ [] } = s.bobbin p b := by
    rw [h, List.append_nil, List.filter_nil, ← h]
  unfold State.meetStaging State.modBobbin
  simp only [h, List.filter_nil, List.map_nil, if_true]
  rw [h] at hsame
  exact State.sameBobbins_setBobbin hsame

theorem State.meetPass_sound {w : Work} {t : StagedTok} {waves : Nat} {ds : List Drive} {s : State}
    (h : ∀ q, (s.bobbin w.p q).stageErrs = []) : s.SameBobbins w.p (s.meetPass w t waves ds) :=
  foldl_keeps (fun u => s.SameBobbins w.p u) _ ds s (.refl ..) fun u d hu =>
    hu.trans (State.meetStaging_sound (by rw [hu.bobbin]; exact h _) _ _)

section
variable {p : Nat} {s t : State} (h : s.SameBobbins p t)

include h in
theorem State.SameBobbins.routeOf (l sheet : Nat) : t.routeOf p l sheet = s.routeOf p l sheet := by
  have htb : t.tb = s.tb := by rw [h.rest]
  unfold State.routeOf Pillow.physOf
  simp only [h.bobbin, htb]
  rw [h.same]

include h in
theorem State.SameBobbins.canPass (d : TileD) (sheet : Nat) : t.canPass p d sheet = s.canPass p d sheet := by
  have hserves : t.serves d.slot sheet = s.serves d.slot sheet := by
    rw [h.rest]
    rfl
  unfold State.canPass
  rw [h.routeOf, h.bobbin, hserves]

include h in
theorem State.SameBobbins.stagePoisoned {w : Work} (hp : w.p = p) (k : StagedTok) (waves : Nat) (ds : List Drive) :
    t.stagePoisoned w k waves ds = s.stagePoisoned w k waves ds := by
  subst hp
  unfold State.stagePoisoned
  simp only [h.routeOf, h.bobbin]
end

/-! ## A pass of the bobbins (R61, R64, R117 to R121) -/

section
variable {n p : Nat} {r : Run} {w : Work} {k : StagedTok} {rest : List StagedTok} {s : State}
  (halive : s.pillowAlive p = true) (hrun : (s.pillow p).run = some r) (hw : s.workOf p r = some w)
  (hkind : w.op.kind = kXbar) (hstop : r.stop = none) (hstaged : r.staged = k :: rest) (hdegen : k.degen = none)
  (hcap : w.job.capMode ≠ 2)

include hrun hw hkind hstop hstaged hdegen hcap halive in
/-- A pass that has its head of work, and room for what it leaves, is made. -/
theorem exec_passComplete_due (hdrives : ((w.drives k.idx).filter fun d => d.wave == r.wave) ≠ [])
    (hroom : w.lastPass (waveCount (w.drives k.idx)) = false ∨ r.epi = []) {m : State}
    (hm : m = (s.advance n).meetPass w k (waveCount (w.drives k.idx))
      ((w.drives k.idx).filter fun d => d.wave == r.wave)) :
    exec (.passComplete n p []) s = .next
      (if m.stagePoisoned w k (waveCount (w.drives k.idx)) ((w.drives k.idx).filter fun d => d.wave == r.wave)
        then (m.setRun p r.stopped).settlePillows [p]
        else m.passDone p w k (waveCount (w.drives k.idx)) ((w.drives k.idx).filter fun d => d.wave == r.wave) []) := by
  obtain ⟨-, hr, -⟩ := State.workOf_parts hw
  subst hr hm
  have hany : ((w.drives k.idx).any fun d => d.wave == w.run.wave) = true := by
    obtain ⟨d, hd⟩ := List.exists_mem_of_ne_nil _ hdrives
    obtain ⟨hmem, hwave⟩ := List.mem_filter.mp hd
    exact List.any_eq_true.mpr ⟨d, hmem, hwave⟩
  have hlast : (!w.lastPass (waveCount (w.drives k.idx)) || w.run.epi.isEmpty) = true := by
    rcases hroom with h | h <;> simp [h]
  have hdue : (s.advance n).passDue w = true := by
    unfold State.passDue
    simp only [hstaged, hkind, hdegen, hany, hlast, Bool.true_or, bne_iff_ne.mpr hcap]
    rfl
  have hidle : ¬ (!((s.advance n).pillowAlive p && (s.advance n).passDue w && w.run.may 5
      && (!w.lastPass (waveCount (w.drives k.idx)) || w.run.epi.isEmpty))) = true := by
    rw [show (s.advance n).pillowAlive p = true from halive, hdue, hlast, Run.may, hstop]
    decide
  rw [exec_passComplete, execPassComplete]
  simp only [State.advance_pillow, hrun, Option.bind_some, show (s.advance n).workOf p w.run = some w from hw, hstaged]
  exact congrArg Host.Outcome.next (if_neg hidle)

include hrun hw hkind hstop hstaged hdegen hcap halive in
theorem passComplete_poisoned (hepi : r.epi = []) (herrs : ∀ q, (s.bobbin p q).stageErrs = [])
    (hdrives : ((w.drives k.idx).filter fun d => d.wave == r.wave) ≠ [])
    (hpoison : (s.advance n).stagePoisoned w k (waveCount (w.drives k.idx))
      ((w.drives k.idx).filter fun d => d.wave == r.wave) = true) :
    ∃ u : State, exec (.passComplete n p []) s = .next (u.settlePillows [p]) ∧ u.pillow p = { s.pillow p with
        bobbins := (u.pillow p).bobbins
        run := some { r with
          staged := [], again := r.again + (rest.length + 1), next := some (k.idx, k.tok) } }
      ∧ (∀ q c, u.bobbin q c = s.bobbin q c) ∧ (∀ q, q ≠ p → u.pillow q = s.pillow q)
      ∧ u = { s with now := max s.now n, pillows := u.pillows } := by
  have hexec := exec_passComplete_due (n := n) halive hrun hw hkind hstop hstaged hdegen hcap hdrives (.inr hepi) rfl
  obtain ⟨-, hr, hp⟩ := State.workOf_parts hw
  subst hp
  have hmet : (s.advance n).SameBobbins w.p _ := State.meetPass_sound (t := k) (waves := waveCount (w.drives k.idx))
    (ds := (w.drives k.idx).filter fun d => d.wave == r.wave) herrs
  generalize (s.advance n).meetPass w k (waveCount (w.drives k.idx)) ((w.drives k.idx).filter fun d => d.wave == r.wave)
    = m at hexec hmet
  rw [hmet.stagePoisoned rfl, if_pos hpoison] at hexec
  refine ⟨_, hexec, ?_, fun q c => ?_, fun q hq => ?_, ?_⟩
  · rw [State.setRun, State.pillow_modPillow_same, hmet.same, Run.stopped, hstaged]
    rfl
  · refine (State.bobbin_of_bobbins (s := m) ?_ c).trans (hmet.bobbin q c)
    rw [State.setRun, State.pillow_modPillow]
    split
    · next e => rw [e]
    · rfl
  · exact (State.pillow_modPillow_ne hq ..).trans (hmet.other q hq)
  · rw [hmet.rest]
    rfl
end

/-! ## One bobbin's pass of the high nibble (R60, R61, R64, R117 to R120) -/

section
variable {w : Work} {k : StagedTok} {waves b e : Nat} {d : Drive} {o : PassOut} {x : Bobbin} {a : PassSum} {s : State}

/-- Whether the pass of a bobbin in its first attempt is made again (R117). -/
def PassOut.again (o : PassOut) : Bool := o.sat && o.low

/-- The figures of a bobbin's pass that is its first attempt. -/
def State.bobbinPassed (w : Work) (b e : Nat) (o : PassOut) (x : Bobbin) (s : State) : State :=
  let kept := if (o.sat && !o.again) = true then 1 else 0
  (((s.setBobbin w.p b x).modJob w.run.ctx fun j =>
    { j.countEpoch e with satKept := satAdd 0xFFFF_FFFF j.satKept kept }).modPillow w.p fun y =>
      { y with cnt := { y.cnt with aeSatKept := satAdd 0xFFFF_FFFF y.cnt.aeSatKept kept } })

theorem State.passBobbin_high (hcan : s.canPass w.p d.tile w.job.sheet = true)
    (hb : b = s.routeOf w.p d.tile.logical w.job.sheet) (hstate : (s.bobbin w.p b).state ≠ 3) (ha4 : d.tile.a4 = false)
    (hlow : w.run.low = false) (hattempt : w.run.attempt = 0)
    (hwork : (s.bobbin w.p b).work s.trim w.job.sheet
      (nibbles false false ((s.bobbin w.p b).staged (stageAt k.half (k.tok * waves + d.wave)) d.rows))
      (min 3 d.tile.rangeH) (min 3 d.tile.rangeL) [] = (e, o, x)) (hfails : x.passFails = false) :
    s.passBobbin w k waves [] d a = (if o.again then { a with rep := a.rep ++ [d.tile.logical] }
      else { a with hi := tset (fun _ => []) d.tile.logical o.ps a.hi }, s.bobbinPassed w b e o x) := by
  subst hb
  have hagain : (o.sat && o.low && decide (0 < 2)) = o.again := Bool.and_true _
  unfold State.passBobbin
  simp only [hcan, Bool.not_true, Bool.false_eq_true, if_false, hstate, ha4, hlow, hattempt, Nat.add_zero,
    List.find?_nil, Option.map_none, Option.getD_none, hwork, hfails, hagain, State.usePartials, Bool.not_false,
    Bool.and_self, if_true]
  split <;> rfl

/-- The state after a pass of one bobbin, its run not yet moved on. -/
def State.passCounted (w : Work) (b e : Nat) (o : PassOut) (x : Bobbin) (s : State) : State :=
  ((s.bobbinPassed w b e o x).modJob w.run.ctx fun j =>
    { j with repeats := satAdd 0xFFFF_FFFF j.repeats 0 }).modPillow w.p fun y =>
      { y with cnt := { y.cnt with aeRepeat := satAdd 0xFFFF_FFFF y.cnt.aeRepeat 0 } }

/-- The run after the first attempt of a pass of one bobbin with the high nibble (R61, R117). -/
def Run.afterHigh (d : Drive) (o : PassOut) (r : Run) : Run :=
  if o.again then { r with attempt := 1, rep := [d.tile.logical] }
  else { r with low := true, rep := [], hi := tset (fun _ => []) d.tile.logical o.ps r.hi }

theorem State.passStep_high (hcan : s.canPass w.p d.tile w.job.sheet = true)
    (hb : b = s.routeOf w.p d.tile.logical w.job.sheet) (hstate : (s.bobbin w.p b).state ≠ 3) (ha4 : d.tile.a4 = false)
    (hlow : w.run.low = false) (hattempt : w.run.attempt = 0) (hq : (w.prk.qdesc w.op.qdesc).a4 = false)
    (hwork : (s.bobbin w.p b).work s.trim w.job.sheet
      (nibbles false false ((s.bobbin w.p b).staged (stageAt k.half (k.tok * waves + d.wave)) d.rows))
      (min 3 d.tile.rangeH) (min 3 d.tile.rangeL) [] = (e, o, x)) (hfails : x.passFails = false) :
    s.passStep w k waves [d] [] = ([], (s.passCounted w b e o x).setRun w.p (w.run.afterHigh d o)) := by
  have hpass := State.passBobbin_high (k := k) (a := ⟨w.run.hi, w.run.acc, w.run.csum, w.run.leaves, [], []⟩) hcan hb
    hstate ha4 hlow hattempt hwork hfails
  unfold State.passStep
  simp only [hattempt, BEq.rfl, Bool.true_or, List.filter_cons_of_pos, List.filter_nil, State.passAll, hpass, if_true]
  cases hagain : o.again with
  | true =>
    simp only [List.nil_append, List.cons_ne_nil, if_true, if_false, Run.afterHigh, hagain]
    rfl
  | false =>
    simp only [State.passNext, Run.afterHigh, hagain, hq, hlow, hattempt, Bool.not_false, Bool.and_self,
      Bool.false_eq_true, if_true, if_false]
    rfl
end

/-! ## What a pass leaves of its bobbin (R53, R64, R354) -/

/-- What a pass changes of a bobbin besides its counts: the trims it holds, and its figures. -/
structure Bobbin.SameCells (a b : Bobbin) : Prop where
  cells : b.cells = a.cells
  made : b.made = a.made
  passes : b.passes = a.passes

theorem Bobbin.SameCells.trans {a b c : Bobbin} (h : a.SameCells b) (k : b.SameCells c) : a.SameCells c :=
  ⟨k.cells.trans h.cells, k.made.trans h.made, k.passes.trans h.passes⟩

theorem Bobbin.adopt_sameCells (want n : Nat) (b : Bobbin) : b.SameCells (b.adopt want n).2 := by
  unfold Bobbin.adopt
  split
  · exact ⟨rfl, rfl, rfl⟩
  · split
    · exact ⟨rfl, rfl, rfl⟩
    · split
      · exact ⟨rfl, rfl, rfl⟩
      · split <;> exact ⟨rfl, rfl, rfl⟩

theorem Bobbin.takeRefs_sameCells (k : Nat) (refs : List (Int × Int)) (b : Bobbin) : b.SameCells (b.takeRefs k refs) :=
  foldl_keeps (fun c => b.SameCells c) _ _ _ ⟨rfl, rfl, rfl⟩ fun _ _ h =>
    iteInduction (motive := fun d => b.SameCells d) (fun _ => h) fun _ => ⟨h.cells, h.made, h.passes⟩

theorem Bobbin.work_parts {t : Trim} {sheet rh rl e : Nat} {codes : List Nat} {noise : SparseInt} {o : PassOut}
    {b x : Bobbin} (h : b.work t sheet codes rh rl noise = (e, o, x)) :
    x.cells = b.cells ∧ x.made = b.made + 1 ∧ x.passes = satAdd 0xFFFF_FFFF b.passes 1 := by
  have hx : x = (b.work t sheet codes rh rl noise).2.2 := by rw [h]
  have hadopt := Bobbin.adopt_sameCells (b.wants t sheet) sheet b
  unfold Bobbin.work at hx
  generalize b.adopt (b.wants t sheet) sheet = a at hx hadopt
  obtain ⟨m, c⟩ := a
  have hrefs := hadopt.trans (Bobbin.takeRefs_sameCells (c.set m).k (c.pass codes rh rl m noise).refs c)
  dsimp only at hx hrefs
  generalize c.takeRefs (c.set m).k (c.pass codes rh rl m noise).refs = y at hx hrefs
  subst hx
  refine ⟨hrefs.cells, congrArg (· + 1) hrefs.made, ?_⟩
  rw [← hrefs.passes]
  rfl

theorem State.bobbin_modPillow {p : Nat} {f : Pillow → Pillow} {s : State}
    (h : (f (s.pillow p)).bobbins = (s.pillow p).bobbins) (q c : Nat) : (s.modPillow p f).bobbin q c = s.bobbin q c := by
  refine State.bobbin_of_bobbins ?_ c
  rw [State.pillow_modPillow]
  split
  · next e => rw [h, e]
  · rfl

theorem State.bobbin_setRun (p q c : Nat) (r : Run) (s : State) : (s.setRun p r).bobbin q c = s.bobbin q c :=
  State.bobbin_modPillow rfl q c

theorem State.bobbin_modJob (c q b : Nat) (f : Job → Job) (s : State) : (s.modJob c f).bobbin q b = s.bobbin q b := rfl

theorem State.passCounted_bobbin (w : Work) (b e : Nat) (o : PassOut) (x : Bobbin) (s : State) (q c : Nat) :
    (s.passCounted w b e o x).bobbin q c = if q = w.p ∧ c = b then x else s.bobbin q c := by
  unfold State.passCounted State.bobbinPassed
  rw [State.bobbin_modPillow rfl, State.bobbin_modJob, State.bobbin_modPillow rfl, State.bobbin_modJob,
    State.bobbin_setBobbin]

theorem State.passCounted_eq (w : Work) (b e : Nat) (o : PassOut) (x : Bobbin) (s : State) : s.passCounted w b e o x
    = { s with jobs := (s.passCounted w b e o x).jobs, pillows := (s.passCounted w b e o x).pillows } := by
  refine State.eq_of_parts ?_
  unfold State.passCounted State.bobbinPassed
  simp only [State.modPillow_frame, State.modJob_frame, State.setBobbin_frame, and_self]

theorem State.setRun_of_rest {n : Nat} {s m z : State} (hm : m = { s.advance n with pillows := m.pillows })
    (hz : z = { m with jobs := z.jobs, pillows := z.pillows }) (p : Nat) (r : Run) : z.setRun p r = { s with
      now := max s.now n, jobs := (z.setRun p r).jobs, pillows := (z.setRun p r).pillows } := by
  have hs : z = { s with now := max s.now n, jobs := z.jobs, pillows := z.pillows } := hz.trans (by rw [hm]; rfl)
  exact (congrArg (State.setRun p r) hs).trans rfl

section
variable {n p b e : Nat} {r : Run} {w : Work} {k : StagedTok} {rest : List StagedTok} {d : Drive} {o : PassOut}
  {x : Bobbin} {s : State}

theorem passComplete_high (halive : s.pillowAlive p = true) (hrun : (s.pillow p).run = some r)
    (hw : s.workOf p r = some w) (hkind : w.op.kind = kXbar) (hstop : r.stop = none) (hstaged : r.staged = k :: rest)
    (hdegen : k.degen = none) (hcap : w.job.capMode ≠ 2) (hdrives : w.drives k.idx = [d])
    (herrs : ∀ q, (s.bobbin p q).stageErrs = []) (hwave : d.wave = r.wave) (hq : (w.prk.qdesc w.op.qdesc).a4 = false)
    (ha4 : d.tile.a4 = false) (hlow : r.low = false) (hattempt : r.attempt = 0)
    (hpoison : (s.advance n).stagePoisoned w k (waveCount [d]) [d] = false)
    (hcan : (s.advance n).canPass p d.tile w.job.sheet = true)
    (hb : b = (s.advance n).routeOf p d.tile.logical w.job.sheet) (hstate : (s.bobbin p b).state ≠ 3)
    (hwork : (s.bobbin p b).work s.trim w.job.sheet
      (nibbles false false ((s.bobbin p b).staged (stageAt k.half (k.tok * waveCount [d] + d.wave)) d.rows))
      (min 3 d.tile.rangeH) (min 3 d.tile.rangeL) [] = (e, o, x)) (hfails : x.passFails = false) :
    ∃ u : State, exec (.passComplete n p []) s = .next ((u.finishHead p).boundary p 5)
      ∧ (o.sat = false → (u.pillow p).run = some { r with
          low := true, rep := [], hi := tset (fun _ => []) d.tile.logical o.ps r.hi })
      ∧ (o.sat = true → o.low = true → (u.pillow p).run = some { r with attempt := 1, rep := [d.tile.logical] })
      ∧ u.bobbin p b = x ∧ x.cells = (s.bobbin p b).cells ∧ x.made = (s.bobbin p b).made + 1
      ∧ x.passes = satAdd 0xFFFF_FFFF (s.bobbin p b).passes 1
      ∧ (∀ q c, (q, c) ≠ (p, b) → u.bobbin q c = s.bobbin q c)
      ∧ u = { s with now := max s.now n, jobs := u.jobs, pillows := u.pillows } := by
  obtain ⟨-, hr, hp⟩ := State.workOf_parts hw
  subst hr hp
  have hfilter : (w.drives k.idx).filter (fun d => d.wave == w.run.wave) = [d] := by
    rw [hdrives, List.filter_cons_of_pos (by simp [hwave]), List.filter_nil]
  have hlast : w.lastPass (waveCount (w.drives k.idx)) = false := by simp [Work.lastPass, hq, hlow]
  have hexec := exec_passComplete_due (n := n) halive hrun hw hkind hstop hstaged hdegen hcap
    (by rw [hfilter]; exact List.cons_ne_nil d []) (.inl hlast) rfl
  rw [hfilter, hdrives] at hexec
  have hmet : (s.advance n).SameBobbins w.p _ := State.meetPass_sound (t := k) (waves := waveCount [d]) (ds := [d]) herrs
  generalize (s.advance n).meetPass w k (waveCount [d]) [d] = m at hexec hmet
  have htrim : m.trim = s.trim := by rw [hmet.rest]; rfl
  have hbob : m.bobbin w.p b = s.bobbin w.p b := hmet.bobbin ..
  rw [hmet.stagePoisoned rfl, hpoison, if_neg Bool.false_ne_true, State.passDone] at hexec
  rw [State.passStep_high (b := b) (e := e) (o := o) (x := x) (by rw [hmet.canPass, hcan]) (by rw [hmet.routeOf, hb])
    (by rwa [hbob]) ha4 hlow hattempt hq (by rwa [hbob, htrim]) hfails] at hexec
  obtain ⟨hcells, hmade, hpasses⟩ := Bobbin.work_parts hwork
  have hbobbin := State.passCounted_bobbin w b e o x m
  have hparts := State.passCounted_eq w b e o x m
  generalize m.passCounted w b e o x = z at hexec hbobbin hparts
  refine ⟨_, hexec, fun hsat => ?_, fun hsat hlo => ?_, ?_, hcells, hmade, hpasses, fun q c hqc => ?_, ?_⟩
  · rw [State.setRun, State.pillow_modPillow_same, Run.afterHigh, if_neg (by simp [PassOut.again, hsat])]
  · rw [State.setRun, State.pillow_modPillow_same, Run.afterHigh, if_pos (by simp [PassOut.again, hsat, hlo])]
  · rw [State.bobbin_setRun, hbobbin, if_pos ⟨rfl, rfl⟩]
  · rw [State.bobbin_setRun, hbobbin, if_neg fun h => hqc (by rw [h.1, h.2])]
    exact hmet.bobbin q c
  · exact State.setRun_of_rest hmet.rest hparts ..
end

/-! ## Spills in the wide format (R124, R133, R138) -/

theorem take_drop_flatMap {α β : Type} {m : Nat} {f : α → List β} (hf : ∀ x, (f x).length = m) {l : List α} {i : Nat}
    (h : i < l.length) : ((l.flatMap f).drop (m * i)).take m = f l[i] := by
  induction l generalizing i with
  | nil => cases h
  | cons x l ih =>
    rw [List.flatMap_cons]
    cases i with
    | zero => exact List.take_left' (hf x)
    | succ i =>
      rw [Nat.mul_succ, Nat.add_comm, ← List.drop_drop, List.drop_left' (hf x)]
      exact ih (Nat.lt_of_succ_lt_succ h)

/-- The wide values of a vector, cut out of its spill's bytes again. -/
theorem wideItems {cols : List Nat} {vals : List Int} (h : vals.length = cols.length) :
    (cols.zipIdx.map fun (c, i) => (c, ((vals.flatMap fun x => leBytes 8 (ofSigned 64 x)).drop (8 * i)).take 8))
      = (cols.zip vals).map fun x => (x.1, leBytes 8 (ofSigned 64 x.2)) := by
  refine List.ext_getElem (by simp [h]) fun i hi hj => ?_
  have hlt : i < vals.length := by simp at hj; omega
  simp only [List.getElem_map, List.getElem_zipIdx, List.getElem_zip, Nat.zero_add,
    take_drop_flatMap (fun x : Int => length_leBytes 8 (ofSigned 64 x)) hlt]

theorem spansOf_ne_nil {l : List (Nat × Bytes)} (h : l ≠ []) : spansOf l ≠ [] := by
  cases l with
  | nil => exact absurd rfl h
  | cons x l =>
    unfold spansOf
    split
    · split <;> exact List.cons_ne_nil _ _
    · exact List.cons_ne_nil _ _

/-- Spans at an operand outside every window are written over the pages of their addresses. -/
theorem State.writeSpans_flat {w : Work} {unit size : Nat} {x : Opnd} {off line : Int} {sp : List (Nat × Bytes)}
    {l : List (Nat × Nat)} {s y : State} (hflat : x.windowed = false) (hsome : sp ≠ [])
    (hwrite : writePages w unit false
      (sp.flatMap fun z => vaPieces (vaOf (off + ((z.1 * size : Nat) : Int))) z.2.length) s = (.ok l, y)) :
    s.writeSpans w unit x off line size sp = .ok [] (storePieces w unit l (sp.flatMap Prod.snd) y) := by
  unfold State.writeSpans State.writeTarget
  simp only [hflat, Bool.not_false, if_true, if_neg hsome, Option.getD_some, List.flatMap_map, hwrite]

theorem State.capture_none {w : Work} {v : EpiVec} {cols : List Nat} {s : State} (h : v.caps = none) :
    s.capture w v cols = .ok [] s := by
  unfold State.capture
  rw [h]

section
variable {n p : Nat} {r : Run} {w : Work} {v : EpiVec} {rest : List EpiVec} {sp : List (Nat × Bytes)}
  {l : List (Nat × Nat)} {s y : State}

/-- A vector of an operation without a split that leaves in the wide format is written at its columns. -/
theorem State.writeVector_wide (hcaps : v.caps = none) (hmask : v.masked = false) (hparts : w.op.parts = 1)
    (hspill : (s.edescOf w).spill = true) (hwide : (s.edescOf w).narrow = false) (hvals : v.vals ≠ [])
    (hlen : v.vals.length = (w.columns v.idx).length) (hlive : ∀ c ∈ w.columns v.idx, w.live v c = true)
    (hflat : w.op.o.windowed = false)
    (hsp : sp = spansOf (((w.columns v.idx).zip v.vals).map fun x => (x.1, leBytes 8 (ofSigned 64 x.2))))
    (hwrite : writePages w 1 false (sp.flatMap fun x =>
        vaPieces (vaOf ((w.address w.op.o Level.strO v.idx v.tok).1 + ((x.1 * 8 : Nat) : Int))) x.2.length) s
      = (.ok l, y)) : s.writeVector w v
    = .ok [] ((storePieces w 1 l (sp.flatMap Prod.snd) y).countSpill w false (w.columns v.idx).length []) := by
  have hpart : (w.op.part w.run.stage).2.2 = 0 := by simp [OpRec.part, hparts, Nat.mod_one]
  have hall : (w.columns v.idx).takeWhile (w.live v) = w.columns v.idx := List.takeWhile_eq_self_iff.mpr hlive
  have hsome : sp ≠ [] := by
    rw [hsp]
    refine spansOf_ne_nil fun h => hvals ?_
    rw [List.map_eq_nil_iff, List.zip_eq_nil_iff] at h
    rcases h with h | h
    · exact List.eq_nil_of_length_eq_zero (by rw [hlen, h]; rfl)
    · exact h
  have hspans := State.writeSpans_flat (line := (w.address w.op.o Level.strO v.idx v.tok).2) hflat hsome hwrite
  have hitems := wideItems hlen
  have hvalue : s.writeSpill w false v (w.columns v.idx) (w.columns v.idx).length v.vals
      = .ok [] ((storePieces w 1 l (sp.flatMap Prod.snd) y).countSpill w false (w.columns v.idx).length []) := by
    unfold State.writeSpill Work.spillBytes
    simp only [Bool.false_eq_true, if_false, List.take_of_length_le hlen.le, List.take_length, hitems, ← hsp, hspans]
  have hleave : s.leaveVector w v (w.columns v.idx)
      = .ok [] ((storePieces w 1 l (sp.flatMap Prod.snd) y).countSpill w false (w.columns v.idx).length []) := by
    unfold State.leaveVector
    simp only [hall, hmask, hpart, hparts, hspill, hwide, show recvStages 0 1 = [] from rfl, State.takeSpills,
      show sendStage 0 = none from rfl, Bool.not_true, Bool.false_eq_true, if_false, hvalue]
  unfold State.writeVector
  simp only [State.capture_none hcaps, hleave]

/-- The state in which a vector of the epilogue is done and the run holds the others. -/
def State.vectorLeft (p : Nat) (w : Work) (v : EpiVec) (rest : List EpiVec) (s : State) : State :=
  (if v.tok + 1 < w.tileToks then s else s.landAt w v.idx (w.nextIdx v.idx)).modRun p fun r => { r with epi := rest }

theorem exec_epilogueWriteEnd_written (halive : s.pillowAlive p = true) (hrun : (s.pillow p).run = some r)
    (hw : s.workOf p r = some w) (hkind : w.op.kind = kXbar) (hstop : r.stop = none) (hepi : r.epi = v :: rest)
    (hready : s.spillsReady w v = true) {t : State} (hwrite : (s.advance n).writeVector w v = .ok [] t) :
    exec (.epilogueWriteEnd n p) s = .next
      (((((t.vectorLeft p w v rest).finishHead p).xbarEnd p).boundary p 1).settlePillows w.job.pillows) := by
  obtain ⟨-, hr, -⟩ := State.workOf_parts hw
  subst hr
  have hidle : ¬ (!((s.advance n).pillowAlive p && w.op.kind == kXbar && w.run.may 1 && (s.advance n).spillsReady w v))
      = true := by
    rw [show (s.advance n).pillowAlive p = true from halive, show (s.advance n).spillsReady w v = true from hready, hkind,
      Run.may, hstop]
    decide
  rw [exec_epilogueWriteEnd, execEpilogueWriteEnd]
  simp only [State.advance_pillow, hrun, Option.bind_some, show (s.advance n).workOf p w.run = some w from hw, hepi]
  refine congrArg Host.Outcome.next ((if_neg hidle).trans ?_)
  unfold State.writeOldest
  simp only [hwrite]
  rfl

theorem State.countSpill_sameWork (w : Work) (narrow : Bool) (n : Nat) (es : List Nat) (s : State) :
    s.SameWork (s.countSpill w narrow n es) := .modPillow rfl

theorem State.landAt_sameWork (w : Work) (idx : List Nat) (nxt : Option (List Nat)) (s : State) :
    s.SameWork (s.landAt w idx nxt) := .of_pillows (by simp only [State.landAt_frame])

theorem State.vectorLeft_run (hrun : (s.pillow p).run = some r) :
    ((s.vectorLeft p w v rest).pillow p).run = some { r with epi := rest } := by
  have hland : s.SameWork (if v.tok + 1 < w.tileToks then s else s.landAt w v.idx (w.nextIdx v.idx)) :=
    .ite (fun _ => .refl s) fun _ => State.landAt_sameWork ..
  rw [State.vectorLeft, State.modRun, State.pillow_modPillow_same, hland.run p, hrun]
  rfl

theorem State.vectorLeft_keeps : (s.vectorLeft p w v rest).mem = s.mem ∧ (s.vectorLeft p w v rest).streams = s.streams
    ∧ (s.vectorLeft p w v rest).templates = s.templates := by
  unfold State.vectorLeft
  split <;> simp only [State.modRun_frame, State.landAt_frame, and_self]

theorem epilogueWriteEnd_wide (halive : s.pillowAlive p = true) (hrun : (s.pillow p).run = some r)
    (hw : s.workOf p r = some w) (hkind : w.op.kind = kXbar) (hstop : r.stop = none) (hepi : r.epi = v :: rest)
    (hready : s.spillsReady w v = true) (hcaps : v.caps = none) (hmask : v.masked = false) (hparts : w.op.parts = 1)
    (hspill : ((s.advance n).edescOf w).spill = true) (hwide : ((s.advance n).edescOf w).narrow = false)
    (hvals : v.vals ≠ []) (hlen : v.vals.length = (w.columns v.idx).length)
    (hlive : ∀ c ∈ w.columns v.idx, w.live v c = true) (hflat : w.op.o.windowed = false)
    (hsp : sp = spansOf (((w.columns v.idx).zip v.vals).map fun x => (x.1, leBytes 8 (ofSigned 64 x.2))))
    (hwrite : writePages w 1 false (sp.flatMap fun x =>
        vaPieces (vaOf ((w.address w.op.o Level.strO v.idx v.tok).1 + ((x.1 * 8 : Nat) : Int))) x.2.length) (s.advance n)
      = (.ok l, y)) :
    ∃ u : State, exec (.epilogueWriteEnd n p) s
        = .next ((((u.finishHead p).xbarEnd p).boundary p 1).settlePillows w.job.pillows)
      ∧ u.mem = (storePieces w 1 l (sp.flatMap Prod.snd) y).mem
      ∧ (∀ a, (∀ z ∈ l, a < z.1 ∨ z.1 + z.2 ≤ a) → u.byteAt a = s.byteAt a)
      ∧ (u.pillow p).run = some { r with epi := rest } ∧ u.streams = s.streams ∧ u.templates = s.templates := by
  have hvector := State.writeVector_wide hcaps hmask hparts hspill hwide hvals hlen hlive hflat hsp hwrite
  have hpages := writePages_translates w 1 false (sp.flatMap fun x =>
    vaPieces (vaOf ((w.address w.op.o Level.strO v.idx v.tok).1 + ((x.1 * 8 : Nat) : Int))) x.2.length) (s.advance n)
  have hframe := writePages_frame w 1 false (sp.flatMap fun x =>
    vaPieces (vaOf ((w.address w.op.o Level.strO v.idx v.tok).1 + ((x.1 * 8 : Nat) : Int))) x.2.length) (s.advance n)
  rw [hwrite] at hpages hframe
  dsimp only at hframe
  have hwork : (s.advance n).SameWork _ := (hpages.work.trans (storePieces_sameWork w 1 l (sp.flatMap Prod.snd) y)).trans
    (State.countSpill_sameWork w false (w.columns v.idx).length [] _)
  obtain ⟨hmem, hstreams, htemplates⟩ := State.vectorLeft_keeps (p := p) (w := w) (v := v) (rest := rest)
    (s := (storePieces w 1 l (sp.flatMap Prod.snd) y).countSpill w false (w.columns v.idx).length [])
  have hstored := hmem.trans
    (show _ = (storePieces w 1 l (sp.flatMap Prod.snd) y).mem by simp only [State.countSpill_frame])
  refine ⟨_, exec_epilogueWriteEnd_written halive hrun hw hkind hstop hepi hready hvector, hstored, fun a ha => ?_,
    State.vectorLeft_run ((hwork.run p).trans hrun), ?_, ?_⟩
  · refine (congrArg (memByte · a) hstored).trans ((byteAt_storePieces ha ..).trans ?_)
    exact congrArg (memByte · a) hpages.mem
  · simp only [hstreams, State.countSpill_frame, storePieces_frame, hframe, State.advance_frame]
  · simp only [htemplates, State.countSpill_frame, storePieces_frame, hframe, State.advance_frame]
end

/-- Settles O56: each event of the crossbar path reaches the state its unit leaves, the pillow's next move aside. -/
theorem crossbarPath : Obligations.CrossbarPath := by
  unfold Obligations.CrossbarPath
  refine ⟨?_, ?_, ?_, ?_⟩
  · intro n p r w pos b v s halive hrun hw hnext hkind hstarted hwait hstop hroom htile hread
    exact tokenConditioned_read halive hrun hw hnext hkind hstarted hwait hstop hroom htile hread
  · intro n p r w k rest d b o x e s halive hrun hw hkind hstop hstaged hdegen hcap hdrives herrs hwave hq ha4 hlow
      hattempt hpoison hcan hb hstate hwork hfails
    exact passComplete_high halive hrun hw hkind hstop hstaged hdegen hcap hdrives herrs hwave hq ha4 hlow hattempt
      hpoison hcan hb hstate hwork hfails
  · intro n p r w k rest s halive hrun hw hkind hstaged hdegen hcap hstop hepi herrs hdrives hpoison
    exact passComplete_poisoned halive hrun hw hkind hstop hstaged hdegen hcap hepi herrs hdrives hpoison
  · intro n p r w v rest sp l y s halive hrun hw hkind hstop hepi hready hcaps hmask hparts hspill hwide hvals hlen
      hlive hflat hsp hwrite
    exact epilogueWriteEnd_wide halive hrun hw hkind hstop hepi hready hcaps hmask hparts hspill hwide hvals hlen hlive
      hflat hsp hwrite

end Sys2Proof.Machine
end

section
/-! PROOF. Reading rules for slots, bobbins, images and a pillow written twice, for O52. -/

namespace Sys2Proof.Machine

/-! ## One entry written twice -/

theorem tput_tput {α : Type} (k : Nat) (v w : α) (t : Tbl α) : tput k w (tput k v t) = tput k w t := by
  induction t with
  | nil => simp [tput]
  | cons e t ih =>
    obtain ⟨j, x⟩ := e
    by_cases hlt : k < j
    · simp [tput, hlt]
    · by_cases heq : j = k
      · simp [tput, heq]
      · simp [tput, hlt, heq, ih]

theorem tdel_tput {α : Type} (k : Nat) (v : α) (t : Tbl α) : tdel k (tput k v t) = tdel k t := by
  induction t with
  | nil => simp [tput, tdel]
  | cons e t ih =>
    obtain ⟨j, x⟩ := e
    by_cases hlt : k < j
    · simp [tput, tdel, hlt]
    · by_cases heq : j = k
      · simp [tput, tdel, heq]
      · simp [tput, tdel, hlt, heq, ih]

/-- Of two writes of an entry the later one stands, where the first has listed its entry. -/
theorem tset_tset {α : Type} [DecidableEq α] {d : Nat → α} {k : Nat} {v : α} (hv : v ≠ d k) (w : α) (t : Tbl α) :
    tset d k w (tset d k v t) = tset d k w t := by
  unfold tset
  rw [if_neg hv, tdel_tput, tput_tput]

theorem State.setPillow_setPillow {k : Nat} {v : Pillow} (hv : v ≠ {}) (w : Pillow) (s : State) :
    (s.setPillow k v).setPillow k w = s.setPillow k w :=
  congrArg (fun l => { s with pillows := l }) (tset_tset hv w s.pillows)

/-- A pillow written as it stands is read as it was. -/
theorem State.pillow_setPillow_self (k j : Nat) (s : State) : (s.setPillow k (s.pillow k)).pillow j = s.pillow j := by
  rw [State.pillow_setPillow]
  split
  · next e => rw [e]
  · rfl

/-! ## Slots and bobbins -/

theorem State.advance_bundle (n k : Nat) (s : State) : (s.advance n).bundle k = s.bundle k := rfl

theorem State.advance_bobbin (n p b : Nat) (s : State) : (s.advance n).bobbin p b = s.bobbin p b := rfl

theorem State.draw_free (s : State) : s.draw.2.free = s.free + 1 := rfl

theorem State.draw_bobbin (p b : Nat) (s : State) : s.draw.2.bobbin p b = s.bobbin p b := rfl

theorem State.slot_modSlot (k j : Nat) (f : Slot → Slot) (s : State) :
    (s.modSlot k f).slot j = if j = k then f (s.slot k) else s.slot j := State.slot_setSlot k j _ s

@[simp] theorem State.slot_modSlot_same (k : Nat) (f : Slot → Slot) (s : State) :
    (s.modSlot k f).slot k = f (s.slot k) := State.slot_setSlot_same k _ s

theorem State.slot_modSlot_ne {k j : Nat} (h : j ≠ k) (f : Slot → Slot) (s : State) :
    (s.modSlot k f).slot j = s.slot j := (State.slot_modSlot k j f s).trans (if_neg h)

theorem State.bobbin_setBobbin_same (p b : Nat) (x : Bobbin) (s : State) : (s.setBobbin p b x).bobbin p b = x :=
  (State.bobbin_setBobbin p b p b x s).trans (if_pos ⟨rfl, rfl⟩)

theorem State.bobbin_modBobbin_same (p b : Nat) (f : Bobbin → Bobbin) (s : State) :
    (s.modBobbin p b f).bobbin p b = f (s.bobbin p b) := State.bobbin_setBobbin_same p b _ s

theorem State.bobbin_modBobbin_ne {p b r c : Nat} (h : (r, c) ≠ (p, b)) (f : Bobbin → Bobbin) (s : State) :
    (s.modBobbin p b f).bobbin r c = s.bobbin r c :=
  (State.bobbin_setBobbin p b r c _ s).trans (if_neg fun e => h (Prod.ext e.1 e.2))

/-- The programmings of a pillow are no part of its bobbins. -/
theorem State.progs_modBobbin (p b : Nat) (f : Bobbin → Bobbin) (s : State) :
    ((s.modBobbin p b f).pillow p).progs = (s.pillow p).progs := by
  rw [State.modBobbin, State.setBobbin, State.pillow_modPillow_same]

theorem State.slot_of_slots {s t : State} (h : t.slots = s.slots) (k : Nat) : t.slot k = s.slot k := by
  rw [State.slot, h]; rfl

theorem State.pillow_modSlot (k p : Nat) (f : Slot → Slot) (s : State) : (s.modSlot k f).pillow p = s.pillow p := rfl

/-! ## Images, shards and reports -/

/-- The fault of a shard is read off the memory and its poisoned units. -/
theorem State.shardFault_of_memory {b : Bundle} {i : Nat} {s t : State} (hmem : t.mem = s.mem) (hms : t.ms = s.ms) :
    t.shardFault b i = s.shardFault b i := by
  unfold State.shardFault State.shardPoisoned State.shardDigest State.body State.byteAt State.poisonIn
  rw [hmem, hms]

/-- The poisoned rows of an image are read off its bundle and the poisoned units. -/
theorem State.poisonedRow_of_memory {q : ProgReq} {s t : State} (hbundles : t.bundles = s.bundles) (hms : t.ms = s.ms) :
    t.poisonedRow q = s.poisonedRow q := by
  unfold State.poisonedRow State.poisonedUnits State.bundle
  rw [hbundles, hms]

/-- The levels of an image are read off the memory. -/
theorem State.imageCells_of_mem {b : Bundle} {o : Nat} {s t : State} (h : t.mem = s.mem) :
    t.imageCells b o = s.imageCells b o := by
  unfold State.imageCells State.imageLevel State.byteAt
  rw [h]

/-- Where no error has arisen, a read of a shard meets none. -/
theorem State.meetShard_sound {s : State} (herrs : s.ms.errs = []) (k i : Nat) : s.meetShard k i = s :=
  State.meetErrs_sound herrs _ _

theorem State.meetShards_sound {s : State} (herrs : s.ms.errs = []) (k : Nat) (l : List Nat) :
    l.foldl (fun s a => s.meetShard k (a / shardBytes)) s = s := by
  induction l with
  | nil => rfl
  | cons a l ih => rw [List.foldl_cons, State.meetShard_sound herrs, ih]

/-- A report changes the latches and the queues alone. -/
theorem State.report_eq (r : ErrReport) (s : State) :
    s.report r = { s with latches := (s.report r).latches, queues := (s.report r).queues } :=
  State.eq_of_parts (by simp only [State.report_frame, State.report_sdio, and_self])

end Sys2Proof.Machine
end

section
/-! PROOF. O52: requests for a refresh, programmings that start and programmings that end (R78 to R81, R333, R334). -/

namespace Sys2Proof.Machine

/-! ## A bobbin asks for its refresh (R333) -/

/-- A bobbin without a request adds its own at the end. -/
theorem State.requestRefresh_new {p : Nat} {q : RefreshReq} {s : State}
    (h : ∀ r ∈ (s.pillow p).refresh, r.logical ≠ q.logical) : s.requestRefresh p q
      = s.setPillow p { s.pillow p with refresh := (s.pillow p).refresh ++ [q] } := by
  have hfind : ((s.pillow p).refresh.find? fun r => r.logical == q.logical) = none :=
    List.find?_eq_none.mpr fun r hr => by simpa using h r hr
  unfold State.requestRefresh State.modPillow
  simp only [hfind]

theorem ageRefreshRequest_asks {n p l : Nat} {b : Bobbin} {s : State} (halive : s.alive = true) (hl : l < 16)
    (hage : s.wt.ageH ≠ 0) (hb : s.bobbin p ((s.pillow p).physOf l) = b)
    (hold : b.progTime + s.wt.ageH * 3_600_000_000_000 < max s.now n) (hactive : b.state = 0)
    (hslot : (s.slot b.slot).state = 3) (hnew : ∀ r ∈ (s.pillow p).refresh, r.logical ≠ l) :
    exec (.ageRefreshRequest n p l) s = .next { s.setPillow p { s.pillow p with
      refresh := (s.pillow p).refresh ++ [{ source := 4, logical := l, age := b.progTime }] } with
        now := max s.now n } := by
  subst hb
  have hcan : (s.advance n).refreshable p
      { source := 4, logical := l, age := (s.bobbin p ((s.pillow p).physOf l)).progTime } = true := by
    unfold State.refreshable
    exact Bool.and_eq_true_iff.mpr ⟨decide_eq_true hactive, beq_iff_eq.mpr hslot⟩
  have hdue : ((s.advance n).alive && decide (l < 16) && (s.advance n).wt.ageH != 0
      && decide ((s.bobbin p ((s.pillow p).physOf l)).progTime + (s.advance n).wt.ageH * 3_600_000_000_000
        < (s.advance n).now)) = true := by
    simp only [Bool.and_eq_true, decide_eq_true_eq, bne_iff_ne]
    exact ⟨⟨⟨halive, hl⟩, hage⟩, hold⟩
  refine congrArg Host.Outcome.next ((if_pos (Bool.and_eq_true_iff.mpr ⟨hdue, hcan⟩)).trans ?_)
  exact State.requestRefresh_new hnew

/-! ## A refresh starts (R334) -/

/-- Requests whose bobbins are all in the condition stay. -/
theorem State.dropRequests_kept {p : Nat} {s : State} (h : ∀ q ∈ (s.pillow p).refresh, s.refreshable p q = true) :
    s.dropRequests p = s.setPillow p (s.pillow p) := by
  unfold State.dropRequests State.modPillow
  dsimp only
  rw [List.filter_eq_self.mpr h]

/-- Shards without error, poison or mismatch are digested without a trace, whatever else has changed since. -/
theorem State.digestShards_sound {k : Nat} {l : List Nat} {s t : State} (hmem : t.mem = s.mem) (hms : t.ms = s.ms)
    (hbundles : t.bundles = s.bundles) (herrs : s.ms.errs = []) (h : ∀ i ∈ l, s.shardFault (s.bundle k) i = none) :
    t.digestShards k l = t := by
  have hbundle : t.bundle k = s.bundle k := by rw [State.bundle, hbundles]; rfl
  induction l with
  | nil => rfl
  | cons i l ih =>
    rw [List.forall_mem_cons] at h
    rw [State.digestShards, State.meetShard_sound (hms ▸ herrs), hbundle]
    simp only [State.shardFault_of_memory hmem hms, h.1]
    exact ih h.2

section
variable {n p sp : Nat} {q : RefreshReq} {s : State}

theorem exec_refreshStart_idle (halive : s.alive = true) (hservice : s.inService p = true) (hcal : s.trim.cal = none)
    (hspare : (s.pillow p).spare = some sp) (hempty : (s.bobbin p sp).state = 1)
    (hidle : (s.pillow p).refreshing = none) :
    exec (.refreshStart n p) s = .next ((s.advance n).refreshBegin p) := by
  refine congrArg Host.Outcome.next (if_pos ?_)
  have ha : (s.advance n).alive = true := halive
  have hi : (s.advance n).inService p = true := hservice
  have he : ((s.advance n).bobbin p sp).state = 1 := hempty
  simp only [State.advance_pillow, hspare, hidle, ha, hi, he, State.advance_frame, hcal]
  rfl

/-- What a request that is refused leaves: its place in the list goes, and no more. -/
theorem State.refreshBegin_refused (hstep : s.therm.step = 0) (hspare : (s.pillow p).spare = some sp)
    (hreq : (s.pillow p).refresh = [q]) (hcan : s.refreshable p q = true) (hbad : s.refreshRefused = true) :
    s.refreshBegin p = s.setPillow p { s.pillow p with refresh := [] } := by
  have hkept : s.dropRequests p = s.setPillow p (s.pillow p) :=
    State.dropRequests_kept (by simpa [hreq] using hcan)
  have hlisted : s.pillow p ≠ {} := fun h => by simp [h] at hreq
  have hstep' : (s.setPillow p (s.pillow p)).therm.step = 0 := hstep
  have hbad' : (s.setPillow p (s.pillow p)).refreshRefused = true := hbad
  unfold State.refreshBegin
  simp only [hkept, State.pillow_setPillow_same, hreq, hstep', hspare, hbad', firstRequest, List.filter_cons_of_pos,
    List.filter_nil, BEq.rfl, Bool.or_true, if_true]
  rw [State.modPillow, State.setPillow_setPillow hlisted, State.pillow_setPillow_same, hreq, List.erase_cons_head,
    ← hspare]

theorem refreshStart_refused (halive : s.alive = true) (hservice : s.inService p = true) (hcal : s.trim.cal = none)
    (hstep : s.therm.step = 0) (hspare : (s.pillow p).spare = some sp) (hempty : (s.bobbin p sp).state = 1)
    (hidle : (s.pillow p).refreshing = none) (hreq : (s.pillow p).refresh = [q]) (hcan : s.refreshable p q = true)
    (hbad : s.trim.calDone = false ∨ s.power.pwrgd = false) :
    exec (.refreshStart n p) s
      = .next { s.setPillow p { s.pillow p with refresh := [] } with now := max s.now n } := by
  have hrefused : (s.advance n).refreshRefused = true := by
    unfold State.refreshRefused
    simpa only [State.advance_frame, Bool.not_eq_true', Bool.and_eq_false_iff] using hbad
  rw [exec_refreshStart_idle halive hservice hcal hspare hempty hidle,
    State.refreshBegin_refused (s := s.advance n) hstep hspare hreq hcan hrefused]
  rfl

/-- A request that is served leaves the list, and the programming of its spare waits for its turn. -/
theorem State.refreshBegin_starts {g : Target} {b : Bobbin} (hstep : s.therm.step = 0)
    (hspare : (s.pillow p).spare = some sp) (hreq : (s.pillow p).refresh = [q]) (hcan : s.refreshable p q = true)
    (hgood : s.refreshRefused = false) (herrs : s.ms.errs = []) (hb : b = s.bobbin p ((s.pillow p).physOf q.logical))
    (htarget : (s.slot b.slot).targetOf p q.logical = some g) (hbundle : (s.bundle (s.slot b.slot).handle).state = 2)
    (hsound : ∀ i ∈ g.shards, s.shardFault (s.bundle (s.slot b.slot).handle) i = none) :
    s.refreshBegin p = ((s.setPillow p (s.pillow p)).modPillow p fun x =>
      { x with refresh := x.refresh.erase q }).modPillow p fun x => { x with
        refreshing := some q
        progs := x.progs ++ [{
          bobbin := sp, logical := q.logical, forSlot := none, target := g, handle := (s.slot b.slot).handle
          started := false }] } := by
  subst hb
  have hkept : s.dropRequests p = s.setPillow p (s.pillow p) :=
    State.dropRequests_kept (by simpa [hreq] using hcan)
  have hphys : (s.setPillow p (s.pillow p)).bobbin p ((s.pillow p).physOf q.logical)
      = s.bobbin p ((s.pillow p).physOf q.logical) :=
    State.bobbin_of_bobbins (by rw [State.pillow_setPillow_self]) _
  have hdigest : ∀ f : Pillow → Pillow, ((s.setPillow p (s.pillow p)).modPillow p f).digestShards
      (s.slot (s.bobbin p ((s.pillow p).physOf q.logical)).slot).handle g.shards
        = (s.setPillow p (s.pillow p)).modPillow p f :=
    fun f => State.digestShards_sound (s := s) rfl rfl rfl herrs hsound
  have hstep' : (s.setPillow p (s.pillow p)).therm.step = 0 := hstep
  have hgood' : (s.setPillow p (s.pillow p)).refreshRefused = false := hgood
  have hslot (k : Nat) : (s.setPillow p (s.pillow p)).slot k = s.slot k := rfl
  have hstaged (k : Nat) : (s.setPillow p (s.pillow p)).bundle k = s.bundle k := rfl
  have hstaged' (k : Nat) (f : Pillow → Pillow) :
      ((s.setPillow p (s.pillow p)).modPillow p f).bundle k = s.bundle k := rfl
  unfold State.refreshBegin
  simp only [hkept, State.pillow_setPillow_same, hreq, hstep', hspare, hgood', firstRequest, List.filter_cons_of_pos,
    List.filter_nil, BEq.rfl, Bool.or_true, Bool.false_eq_true, if_false, hphys, hslot, hstaged, htarget, hbundle,
    hdigest, hstaged', ne_eq, not_true_eq_false]

theorem refreshStart_starts {g : Target} {b : Bobbin} (halive : s.alive = true) (hservice : s.inService p = true)
    (hdone : s.trim.calDone = true) (hpwr : s.power.pwrgd = true) (herrs : s.ms.errs = []) (hcal : s.trim.cal = none)
    (hstep : s.therm.step = 0) (hspare : (s.pillow p).spare = some sp) (hempty : (s.bobbin p sp).state = 1)
    (hidle : (s.pillow p).refreshing = none) (hreq : (s.pillow p).refresh = [q]) (hcan : s.refreshable p q = true)
    (hb : b = s.bobbin p ((s.pillow p).physOf q.logical)) (htarget : (s.slot b.slot).targetOf p q.logical = some g)
    (hbundle : (s.bundle (s.slot b.slot).handle).state = 2)
    (hsound : ∀ i ∈ g.shards, s.shardFault (s.bundle (s.slot b.slot).handle) i = none) :
    ∃ t, exec (.refreshStart n p) s = .next t ∧ t.pillow p = { s.pillow p with
        refresh := [], refreshing := some q
        progs := (s.pillow p).progs ++ [{
          bobbin := sp, logical := q.logical, forSlot := none, target := g, handle := (s.slot b.slot).handle
          started := false }] }
      ∧ (∀ r, r ≠ p → t.pillow r = s.pillow r) ∧ t = { s with now := max s.now n, pillows := t.pillows } := by
  have hgood : (s.advance n).refreshRefused = false := by
    unfold State.refreshRefused
    simp only [State.advance_frame, hdone, hpwr, Bool.and_self, Bool.not_true]
  have hsound' : ∀ i ∈ g.shards,
      (s.advance n).shardFault ((s.advance n).bundle ((s.advance n).slot b.slot).handle) i = none :=
    fun i hi => (State.shardFault_of_memory (s := s) (t := s.advance n) rfl rfl).trans (hsound i hi)
  have hbegin := State.refreshBegin_starts (s := s.advance n) hstep hspare hreq hcan hgood herrs hb htarget hbundle
    hsound'
  refine ⟨_, (exec_refreshStart_idle halive hservice hcal hspare hempty hidle).trans (congrArg _ hbegin), ?_,
    fun r hr => ?_, rfl⟩
  · rw [State.pillow_modPillow_same, State.pillow_modPillow_same, State.pillow_setPillow_self, State.advance_pillow,
      hreq, List.erase_cons_head]
    rfl
  · rw [State.pillow_modPillow_ne hr, State.pillow_modPillow_ne hr, State.pillow_setPillow_self, State.advance_pillow]

end

/-! ## A programming starts (R79, R81, R320) -/

/-- A waiting programming at the head of the list is next where fewer than four run, none of them on its bobbin. -/
theorem Pillow.nextProg_head {x : Pillow} {q : ProgReq} {rest : List ProgReq} (hprogs : x.progs = q :: rest)
    (hwait : q.started = false) (hfour : rest.countP (·.started) < 4)
    (hbobbin : ∀ r ∈ rest, r.started = true → r.bobbin ≠ q.bobbin) : x.nextProg = some q := by
  have hroom : ¬4 ≤ (q :: rest).countP (·.started) := by
    rw [List.countP_cons_of_neg (by simp [hwait])]
    omega
  have hfree : ((q :: rest).any fun r => r.started && r.bobbin == q.bobbin) = false := by
    simpa [hwait] using hbobbin
  unfold Pillow.nextProg
  rw [hprogs, if_neg hroom, List.find?_cons_of_pos (by simp [hwait]), Option.filter_some, hfree]
  rfl

section
variable {n p : Nat} {q : ProgReq} {rest : List ProgReq} {s : State}

theorem exec_bobbinProgrammingStart_refused (halive : s.alive = true) (hnext : (s.pillow p).nextProg = some q)
    (hbad : s.power.pwrgd = false ∨ (s.bundle q.handle).state ≠ 2) :
    exec (.bobbinProgrammingStart n p) s = .next ((s.advance n).progRefused p q) := by
  have hdead : (!(s.advance n).alive) = false := by rw [Bool.not_eq_false']; exact halive
  have hno : ((s.advance n).power.pwrgd && ((s.advance n).bundle q.handle).state == 2) = false :=
    Bool.and_eq_false_iff.mpr (hbad.imp id beq_eq_false_iff_ne.mpr)
  rw [exec_bobbinProgrammingStart, execBobbinProgrammingStart]
  simp only [State.advance_pillow, hnext, hdead, hno, Bool.false_eq_true, if_false]

theorem exec_bobbinProgrammingStart_starts (halive : s.alive = true) (hnext : (s.pillow p).nextProg = some q)
    (hpwr : s.power.pwrgd = true) (hbundle : (s.bundle q.handle).state = 2) :
    exec (.bobbinProgrammingStart n p) s = .next (((s.advance n).modPillow p fun x =>
      { x with progs := x.progs.map fun r => if r = q then { r with started := true } else r }).modBobbin p q.bobbin
        fun b => { b with state := 2, logical := q.logical, progFail := false, image := some q.target }) := by
  have hdead : (!(s.advance n).alive) = false := by rw [Bool.not_eq_false']; exact halive
  have hyes : ((s.advance n).power.pwrgd && ((s.advance n).bundle q.handle).state == 2) = true :=
    Bool.and_eq_true_iff.mpr ⟨hpwr, beq_iff_eq.mpr hbundle⟩
  rw [exec_bobbinProgrammingStart, execBobbinProgrammingStart]
  simp only [State.advance_pillow, hnext, hdead, hyes, Bool.false_eq_true, if_false, if_true]

/-- A bobbin that fails for its slot is the slot's failed one, where no other was before. -/
theorem State.failedAt_slotFailed {m b : Nat} {s : State} (h : (s.slot m).failedAt = none) :
    ((s.slotFailed m p b).slot m).failedAt = some (p, b) := by
  rw [State.slotFailed, State.slot_modSlot_same, h]
  rfl

theorem State.left_slotFailed (m b : Nat) (s : State) : ((s.slotFailed m p b).slot m).left = (s.slot m).left := by
  rw [State.slotFailed, State.slot_modSlot_same]

theorem State.slot_slotFailed_ne {m b k : Nat} (h : k ≠ m) (s : State) : (s.slotFailed m p b).slot k = s.slot k :=
  State.slot_modSlot_ne h _ s

theorem State.pillow_slotFailed (m b r : Nat) (s : State) : (s.slotFailed m p b).pillow r = s.pillow r := rfl

theorem State.bobbin_slotFailed (m b r c : Nat) (s : State) : (s.slotFailed m p b).bobbin r c = s.bobbin r c := rfl

theorem bobbinProgrammingStart_refused {m : Nat} (halive : s.alive = true) (hnext : (s.pillow p).nextProg = some q)
    (hprogs : (s.pillow p).progs = q :: rest) (hm : q.forSlot = some m)
    (hbad : s.power.pwrgd = false ∨ (s.bundle q.handle).state ≠ 2) :
    ∃ t, exec (.bobbinProgrammingStart n p) s = .next t ∧ t.pillow p = { s.pillow p with progs := rest }
      ∧ (∀ r, r ≠ p → t.pillow r = s.pillow r) ∧ (t.slot m).left = (s.slot m).left.erase (p, q.logical)
      ∧ ((s.slot m).failedAt = none → (t.slot m).failedAt = some (p, q.bobbin))
      ∧ (∀ k, k ≠ m → t.slot k = s.slot k)
      ∧ t = { s with now := max s.now n, pillows := t.pillows, slots := t.slots } := by
  refine ⟨_, exec_bobbinProgrammingStart_refused halive hnext hbad, ?_⟩
  unfold State.progRefused
  simp only [hm, Option.isNone_some, Bool.false_eq_true, if_false]
  refine ⟨?_, fun r hr => ?_, ?_, fun hnone => ?_, fun k hk => ?_, rfl⟩
  · rw [State.pillow_slotFailed, State.pillow_modSlot, State.pillow_modPillow_same, State.advance_pillow, hprogs,
      List.erase_cons_head]
  · rw [State.pillow_slotFailed, State.pillow_modSlot, State.pillow_modPillow_ne hr, State.advance_pillow]
  · rw [State.left_slotFailed, State.slot_modSlot_same]
    rfl
  · refine State.failedAt_slotFailed ?_
    rw [State.slot_modSlot_same]
    exact hnone
  · rw [State.slot_slotFailed_ne hk, State.slot_modSlot_ne hk]
    rfl

theorem bobbinProgrammingStart_starts (halive : s.alive = true) (hnext : (s.pillow p).nextProg = some q)
    (hprogs : (s.pillow p).progs = q :: rest) (hfresh : q ∉ rest) (hpwr : s.power.pwrgd = true)
    (hbundle : (s.bundle q.handle).state = 2) :
    ∃ t, exec (.bobbinProgrammingStart n p) s = .next t
      ∧ (t.pillow p).progs = { q with started := true } :: rest
      ∧ t.bobbin p q.bobbin = { s.bobbin p q.bobbin with
          state := 2, logical := q.logical, progFail := false, image := some q.target }
      ∧ (∀ r c, (r, c) ≠ (p, q.bobbin) → t.bobbin r c = s.bobbin r c)
      ∧ t = { s with now := max s.now n, pillows := t.pillows } := by
  have hmark : (rest.map fun r => if r = q then { r with started := true } else r) = rest :=
    (List.map_congr_left fun r hr => if_neg fun e : r = q => hfresh (e ▸ hr)).trans (List.map_id rest)
  refine ⟨_, exec_bobbinProgrammingStart_starts halive hnext hpwr hbundle, ?_, ?_, fun r c hrc => ?_, rfl⟩
  · rw [State.progs_modBobbin, State.pillow_modPillow_same, State.advance_pillow, hprogs, List.map_cons, if_pos rfl,
      hmark]
  · rw [State.bobbin_modBobbin_same, State.bobbin_modPillow rfl]
    rfl
  · rw [State.bobbin_modBobbin_ne hrc, State.bobbin_modPillow rfl]
    rfl

end

/-! ## A programming ends (R78, R80) -/

/-- The request of a slot's programming that has ended leaves its pillow and its slot. -/
def State.progTaken (p m : Nat) (q : ProgReq) (s : State) : State :=
  (s.setPillow p { s.pillow p with progs := [] }).modSlot m fun y => { y with left := y.left.erase (p, q.logical) }

section
variable {n p u v m : Nat} {q : ProgReq} {s : State}

theorem exec_bobbinProgrammingEnd_only (hprogs : (s.pillow p).progs = [q]) (hstarted : q.started = true)
    (hrun : q.stopped = false) (hm : q.forSlot = some m) :
    exec (.bobbinProgrammingEnd n p q.bobbin v u) s
      = .next (((s.advance n).progTaken p m q).progEnd p q v u) := by
  have hfind : ([q].find? fun r => r.started && r.bobbin == q.bobbin) = some q :=
    List.find?_cons_of_pos (by simp [hstarted])
  rw [exec_bobbinProgrammingEnd, execBobbinProgrammingEnd, State.progTaken]
  simp only [State.advance_pillow, hprogs, hfind, hm, hrun, List.erase_cons_head, Bool.false_eq_true, if_false]

theorem State.progs_progTaken (s : State) : ((s.progTaken p m q).pillow p).progs = [] := by
  rw [State.progTaken, State.pillow_modSlot, State.pillow_setPillow_same]

theorem State.bobbin_progTaken (r c : Nat) (s : State) : (s.progTaken p m q).bobbin r c = s.bobbin r c :=
  State.bobbin_modPillow (f := fun x => { x with progs := [] }) rfl r c

theorem State.slot_progTaken_same (s : State) : (s.progTaken p m q).slot m
    = { s.slot m with left := (s.slot m).left.erase (p, q.logical) } := State.slot_modSlot_same m _ _

theorem State.slot_progTaken_ne {k : Nat} (h : k ≠ m) (s : State) : (s.progTaken p m q).slot k = s.slot k :=
  State.slot_modSlot_ne h _ _

theorem State.now_progTaken : ((s.advance n).progTaken p m q).now = max s.now n := rfl

theorem State.bundle_progTaken (k : Nat) (s : State) : (s.progTaken p m q).bundle k = s.bundle k := rfl

/-- A run to its last row that left v cells not accepted (R80). -/
def RunEnd.missed (v u : Nat) : RunEnd := { rows := 1024, vfail := v, iters := u, torn := false, fail := true }

/-- A run to its last row, with its image sound and its bundle VERIFIED, is judged by the cells it did not get. -/
theorem State.progEnd_judged (hcut : q.cut = false) (hrun : q.stopped = false) (herrs : s.ms.errs = [])
    (hsound : s.poisonedRow q = none) (hbundle : (s.bundle q.handle).state = 2) : s.progEnd p q v u
      = if v ≠ 0 then (s.progBad p q (.missed v u)).checkSound p else s.progGood p q u := by
  unfold State.progEnd RunEnd.missed
  simp only [hcut, hrun, Bool.false_eq_true, if_false, State.meetShards_sound herrs, hsound, hbundle,
    ne_eq, not_true_eq_false]

theorem exec_bobbinProgrammingEnd_judged (hprogs : (s.pillow p).progs = [q]) (hstarted : q.started = true)
    (hrun : q.stopped = false) (hcut : q.cut = false) (hm : q.forSlot = some m) (herrs : s.ms.errs = [])
    (hsound : s.poisonedRow q = none) (hbundle : (s.bundle q.handle).state = 2) :
    exec (.bobbinProgrammingEnd n p q.bobbin v u) s = .next (if v ≠ 0 then
        (((s.advance n).progTaken p m q).progBad p q (.missed v u)).checkSound p
      else ((s.advance n).progTaken p m q).progGood p q u) := by
  have hsound' : ((s.advance n).progTaken p m q).poisonedRow q = none :=
    (State.poisonedRow_of_memory (s := s) (t := (s.advance n).progTaken p m q) rfl rfl).trans hsound
  rw [exec_bobbinProgrammingEnd_only hprogs hstarted hrun hm,
    State.progEnd_judged (s := (s.advance n).progTaken p m q) hcut hrun herrs hsound' hbundle]

/-! ### Every cell was accepted -/

theorem State.reportLife_eq (p b : Nat) (s : State) : s.reportLife p b
    = { s with latches := (s.reportLife p b).latches, queues := (s.reportLife p b).queues } := by
  unfold State.reportLife
  dsimp only
  split
  · exact State.report_eq _ s
  · rfl

theorem State.progGood_slot (hm : q.forSlot = some m) : s.progGood p q u
    = ((s.setBobbin p q.bobbin (s.programmed q u (s.bobbin p q.bobbin))).reportLife p q.bobbin).modBobbin p q.bobbin
        fun b => { b with state := 6, slot := m, logical := q.logical } := by
  unfold State.progGood
  simp only [hm]

theorem State.bobbin_progGood (hm : q.forSlot = some m) : (s.progGood p q u).bobbin p q.bobbin
    = { s.programmed q u (s.bobbin p q.bobbin) with state := 6, slot := m, logical := q.logical } := by
  rw [State.progGood_slot hm, State.bobbin_modBobbin_same, State.reportLife_eq]
  exact congrArg (fun b : Bobbin => { b with state := 6, slot := m, logical := q.logical })
    (State.bobbin_setBobbin_same p q.bobbin _ s)

theorem State.progs_progGood (hm : q.forSlot = some m) :
    ((s.progGood p q u).pillow p).progs = (s.pillow p).progs := by
  rw [State.progGood_slot hm, State.progs_modBobbin, State.reportLife_eq]
  exact State.progs_modBobbin p q.bobbin (fun _ => s.programmed q u (s.bobbin p q.bobbin)) s

theorem State.progGood_slots (hm : q.forSlot = some m) : (s.progGood p q u).slots = s.slots := by
  simp only [State.progGood_slot hm, State.modBobbin_frame, State.reportLife_frame, State.setBobbin_frame]

theorem State.progGood_eq (hm : q.forSlot = some m) : s.progGood p q u = { s with
    pillows := (s.progGood p q u).pillows, latches := (s.progGood p q u).latches
    queues := (s.progGood p q u).queues } := by
  rw [State.progGood_slot hm, State.reportLife_eq]
  rfl

theorem bobbinProgrammingEnd_accepted (hprogs : (s.pillow p).progs = [q]) (hstarted : q.started = true)
    (hrun : q.stopped = false) (hcut : q.cut = false) (hm : q.forSlot = some m) (herrs : s.ms.errs = [])
    (hsound : s.poisonedRow q = none) (hbundle : (s.bundle q.handle).state = 2) :
    ∃ t, exec (.bobbinProgrammingEnd n p q.bobbin 0 u) s = .next t ∧ (t.pillow p).progs = []
      ∧ t.bobbin p q.bobbin = { s.bobbin p q.bobbin with
          cells := s.imageCells (s.bundle q.handle) q.target.ofs, w4 := q.target.fmt == 1, vfail := 0, iterMax := u
          progFail := false, calFailed := false, dead := false, pendK := some 16384
          sets := (s.bobbin p q.bobbin).sets.map fun x => { x with k := 16384 }
          base := [], scans := [], scanP := [], scanN := [], drift := 0, k0 := 16384, bad := [], strikes := []
          progCount := (s.bobbin p q.bobbin).progCount + 1, programmed := true, progTime := max s.now n
          state := 6, slot := m, logical := q.logical }
      ∧ t.slot m = { s.slot m with left := (s.slot m).left.erase (p, q.logical) }
      ∧ (∀ j, j ≠ m → t.slot j = s.slot j)
      ∧ t = { s with
          now := max s.now n, pillows := t.pillows, slots := t.slots, latches := t.latches, queues := t.queues } := by
  refine ⟨_, (exec_bobbinProgrammingEnd_judged hprogs hstarted hrun hcut hm herrs hsound hbundle).trans
    (congrArg _ (if_neg (not_not_intro rfl))), ?_, ?_, ?_,
    fun j hj => ?_, ?_⟩
  · rw [State.progs_progGood hm, State.progs_progTaken]
  · rw [State.bobbin_progGood hm, State.bobbin_progTaken]
    unfold State.programmed
    rw [State.imageCells_of_mem (s := s) (t := (s.advance n).progTaken p m q) rfl, State.bundle_progTaken,
      State.advance_bundle, State.advance_bobbin, State.now_progTaken]
  · exact (State.slot_of_slots (State.progGood_slots hm) m).trans (State.slot_progTaken_same _)
  · exact (State.slot_of_slots (State.progGood_slots hm) j).trans (State.slot_progTaken_ne hj _)
  · rw [State.progGood_eq hm]
    rfl

/-! ### A programming failed -/

/-- With one bobbin at most outside, 16 of a pillow's bobbins are sound. -/
theorem State.soundCount_ge {b : Nat} (h : ∀ c, c < 17 → c ≠ b → (s.bobbin p c).state ≠ 5) :
    16 ≤ s.soundCount p := by
  have hlen := List.length_eq_countP_add_countP (fun c => (s.bobbin p c).state != 5) (l := List.range 17)
  have hbad : (List.range 17).countP (fun c => !((s.bobbin p c).state != 5)) ≤ (List.range 17).count b := by
    refine List.countP_mono_left fun c hc hfail => ?_
    by_contra hne
    exact h c (List.mem_range.mp hc) (by simpa using hne) (by simpa using hfail)
  have hone := List.nodup_iff_count_le_one.mp (List.nodup_range (n := 17)) b
  rw [List.length_range] at hlen
  unfold State.soundCount
  simp only [Bool.decide_eq_true, decide_not] at hlen
  omega

/-- A pillow with 16 sound bobbins stays in service. -/
theorem State.checkSound_sound (h : 16 ≤ s.soundCount p) : s.checkSound p = s := by
  unfold State.checkSound
  rw [if_neg]
  simp [h]

/-- A slot's programming that failed leaves its bobbin FAILED, and names it to the slot. -/
theorem State.progBad_slot {e : RunEnd} (hm : q.forSlot = some m) (hfail : e.fail = true) : s.progBad p q e
    = (((s.draw.2.modBobbin p q.bobbin (Bobbin.progFailed (s.imageCells (s.bundle q.handle) q.target.ofs) e
        (s.draw.1.toNat % 2 ^ 32) 6)).modPillow p id).slotFailed m p q.bobbin) := by
  unfold State.progBad
  simp only [hm, hfail, Option.isNone_some, Option.isSome_some, Bool.false_eq_true, if_false, if_true]
  rw [State.imageCells_of_mem (s := s) (t := s.draw.2) rfl]
  rfl

theorem State.bobbin_progBad {e : RunEnd} (hm : q.forSlot = some m) (hfail : e.fail = true) :
    (s.progBad p q e).bobbin p q.bobbin = Bobbin.progFailed (s.imageCells (s.bundle q.handle) q.target.ofs) e
      (s.draw.1.toNat % 2 ^ 32) 6 (s.bobbin p q.bobbin) := by
  rw [State.progBad_slot hm hfail, State.bobbin_slotFailed, State.bobbin_modPillow (f := id) rfl,
    State.bobbin_modBobbin_same, State.draw_bobbin]

theorem State.bobbin_progBad_ne {e : RunEnd} (hm : q.forSlot = some m) (hfail : e.fail = true) {r c : Nat}
    (h : (r, c) ≠ (p, q.bobbin)) : (s.progBad p q e).bobbin r c = s.bobbin r c := by
  rw [State.progBad_slot hm hfail, State.bobbin_slotFailed, State.bobbin_modPillow (f := id) rfl,
    State.bobbin_modBobbin_ne h, State.draw_bobbin]

theorem State.failedAt_progBad {e : RunEnd} (hm : q.forSlot = some m) (hfail : e.fail = true)
    (h : (s.slot m).failedAt = none) : ((s.progBad p q e).slot m).failedAt = some (p, q.bobbin) := by
  rw [State.progBad_slot hm hfail]
  refine State.failedAt_slotFailed ((congrArg Slot.failedAt (State.slot_of_slots ?_ m)).trans h)
  simp only [State.modPillow_frame, State.modBobbin_frame, State.draw_frame]

theorem State.progBad_eq {e : RunEnd} (hm : q.forSlot = some m) (hfail : e.fail = true) : s.progBad p q e = { s with
    pillows := (s.progBad p q e).pillows, slots := (s.progBad p q e).slots, free := s.free + 1 } := by
  refine State.eq_of_parts ?_
  simp only [State.progBad_slot hm hfail, State.slotFailed_frame, State.modPillow_frame, State.modBobbin_frame,
    State.draw_frame, State.draw_free, and_self]

theorem Bobbin.progFailed_failed {t : Tbl Nat} {seed rest : Nat} {b : Bobbin} :
    (b.progFailed t (.missed v u) seed rest).state = 5 ∧ (b.progFailed t (.missed v u) seed rest).vfail = v
      ∧ (b.progFailed t (.missed v u) seed rest).progFail = true
      ∧ (b.progFailed t (.missed v u) seed rest).cells = runCells t b.cells 1024 v seed false := by
  simp only [Bobbin.progFailed, RunEnd.missed, if_true, and_self]

theorem bobbinProgrammingEnd_failed (hprogs : (s.pillow p).progs = [q]) (hstarted : q.started = true)
    (hrun : q.stopped = false) (hcut : q.cut = false) (hm : q.forSlot = some m) (herrs : s.ms.errs = [])
    (hsound : s.poisonedRow q = none) (hbundle : (s.bundle q.handle).state = 2) (hv : v ≠ 0)
    (hothers : ∀ c, c < 17 → c ≠ q.bobbin → (s.bobbin p c).state ≠ 5) :
    ∃ t, exec (.bobbinProgrammingEnd n p q.bobbin v u) s = .next t ∧ (t.bobbin p q.bobbin).state = 5
      ∧ (t.bobbin p q.bobbin).vfail = v ∧ (t.bobbin p q.bobbin).progFail = true
      ∧ (∃ d, (t.bobbin p q.bobbin).cells
          = runCells (s.imageCells (s.bundle q.handle) q.target.ofs) (s.bobbin p q.bobbin).cells 1024 v d false)
      ∧ ((s.slot m).failedAt = none → (t.slot m).failedAt = some (p, q.bobbin))
      ∧ (∀ r c, (r, c) ≠ (p, q.bobbin) → t.bobbin r c = s.bobbin r c)
      ∧ t = { s with now := max s.now n, pillows := t.pillows, slots := t.slots, free := s.free + 1 } := by
  have hothers' : ∀ r c, (r, c) ≠ (p, q.bobbin) →
      (((s.advance n).progTaken p m q).progBad p q (.missed v u)).bobbin r c = s.bobbin r c := fun r c hrc => by
    rw [State.bobbin_progBad_ne hm rfl hrc, State.bobbin_progTaken, State.advance_bobbin]
  have hcount : 16 ≤ (((s.advance n).progTaken p m q).progBad p q (.missed v u)).soundCount p :=
    State.soundCount_ge (b := q.bobbin) fun c hc hne => by
      rw [hothers' p c fun e => hne (congrArg Prod.snd e)]
      exact hothers c hc hne
  have hcells := State.imageCells_of_mem (b := s.bundle q.handle) (o := q.target.ofs) (s := s)
    (t := (s.advance n).progTaken p m q) rfl
  refine ⟨_, (exec_bobbinProgrammingEnd_judged hprogs hstarted hrun hcut hm herrs hsound hbundle).trans
    (congrArg _ ((if_pos hv).trans (State.checkSound_sound hcount))), ?_⟩
  rw [State.bobbin_progBad hm rfl, State.bundle_progTaken, State.advance_bundle, hcells, State.bobbin_progTaken,
    State.advance_bobbin]
  obtain ⟨hstate, hmissed, hfail, hleft⟩ := Bobbin.progFailed_failed (v := v) (u := u)
    (t := s.imageCells (s.bundle q.handle) q.target.ofs) (b := s.bobbin p q.bobbin)
  refine ⟨hstate, hmissed, hfail, ⟨_, hleft⟩, fun hnone => ?_, hothers', ?_⟩
  · refine State.failedAt_progBad hm rfl ?_
    rw [State.slot_progTaken_same]
    exact hnone
  · rw [State.progBad_eq hm rfl]
    rfl

end

/-- Settles O52: a bobbin's request, its refresh's start, and its programming's start and end, each by the rule of its
event. -/
theorem bobbinProgramming : Obligations.BobbinProgramming := by
  unfold Obligations.BobbinProgramming
  refine ⟨?asks, ?refresh, ?refused, ?dropped, ?starts, ?accepted, ?failed⟩
  case asks =>
    intro n p l b s halive hl hage hb hold hactive hslot hnew
    exact ageRefreshRequest_asks halive hl hage hb hold hactive hslot hnew
  case refresh =>
    intro n p sp q g b s halive hservice hdone hpwr herrs hcal hstep hspare hempty hidle hreq hcan hb htarget hbundle
      hsound
    exact refreshStart_starts halive hservice hdone hpwr herrs hcal hstep hspare hempty hidle hreq hcan hb htarget
      hbundle hsound
  case refused =>
    intro n p sp q s halive hservice hcal hstep hspare hempty hidle hreq hcan hbad
    exact refreshStart_refused halive hservice hcal hstep hspare hempty hidle hreq hcan hbad
  case dropped =>
    intro n p m q rest s halive hprogs hwait hfour hbobbin hm _ hbad
    exact bobbinProgrammingStart_refused halive (Pillow.nextProg_head hprogs hwait hfour hbobbin) hprogs hm hbad
  case starts =>
    intro n p q rest s halive hpwr hprogs hwait hfresh hfour hbobbin hbundle
    exact bobbinProgrammingStart_starts halive (Pillow.nextProg_head hprogs hwait hfour hbobbin) hprogs hfresh hpwr
      hbundle
  case accepted =>
    intro n p u q m s hprogs hstarted hrun hcut hm herrs hsound hbundle
    exact bobbinProgrammingEnd_accepted hprogs hstarted hrun hcut hm herrs hsound hbundle
  case failed =>
    intro n p u v q m s hprogs hstarted hrun hcut hm herrs hsound hbundle hv hothers
    exact bobbinProgrammingEnd_failed hprogs hstarted hrun hcut hm herrs hsound hbundle hv hothers

end Sys2Proof.Machine
end

section
/-! PROOF. O37: QC_COMMIT and WR_REQ, whose effects follow the disarming of every REG_WRITE (R109, R110, R333, R345,
R511). -/

namespace Sys2Proof.Machine

/-! ## The staged set (R109, R110) -/

/-- A pillow that has work, or sheet boundaries to wait for, adopts nothing yet. -/
theorem State.idleAdopt_waits {p : Nat} {s : State} (h : s.tb.sheetSrc ≠ 0 ∨ s.busyPillow p = true) :
    s.idleAdopt p = s := if_pos h

/-- Whether a pillow has work does not depend on its scale sets. -/
theorem State.busyPillow_setQc (p : Nat) (v) (s : State) :
    (s.setPillow p { s.pillow p with qc := v }).busyPillow p = s.busyPillow p := by
  simp only [State.busyPillow, State.pillow_setPillow_same]

theorem State.qcCommit_pends {p : Nat} {s : State} (hgood : (s.pillow p).commitRefused = false)
    (hwait : s.tb.sheetSrc ≠ 0 ∨ s.busyPillow p = true) :
    s.qcCommit p = s.setPillow p { s.pillow p with
      qc := { (s.pillow p).qc with
        pend := tput (s.pillow p).qc.desc
          (some { scale := (s.pillow p).qc.scale, zq := (s.pillow p).qc.zq }) (s.pillow p).qc.pend } } := by
  rw [State.qcCommit, if_neg (by simp [hgood]), State.idleAdopt_waits]
  rwa [State.busyPillow_setQc]

theorem State.qcCommit_refused {p : Nat} {s : State} (hbad : (s.pillow p).commitRefused = true) :
    s.qcCommit p = s.setPillow p { s.pillow p with qc := { (s.pillow p).qc with refused := true } } := if_pos hbad

/-- A QC_COMMIT to a pillow in service is answered OK, whether or not the set is refused (R110). -/
theorem qcCommit_answers {h : Hdr} {p : Nat} {s : State} (ha : s.accepts Op.regWrite false = true)
    (hin : s.inService p = true) :
    Answers (.qcCommit h p) h Op.regWrite (fun _ => []) (fun s => s.disarm.qcCommit p) s := by
  refine .of_done (form := 0) ?_
  rw [exec_qcCommit, execQcCommit]
  exact hostCommand_accepted rfl ha ((require_eq_none _ _).mpr hin)

/-! ## A host's request for a refresh (R333) -/

/-- A request of source 3 asks for an ACTIVE bobbin in an ACTIVE slot; only source 1 asks for a FAILED one. -/
theorem State.refreshable_host {p l a : Nat} {s : State} :
    s.refreshable p { source := 3, logical := l, age := a } = true ↔
      (s.bobbin p ((s.pillow p).physOf l)).state = 0
        ∧ (s.slot (s.bobbin p ((s.pillow p).physOf l)).slot).state = 3 := by
  simp [State.refreshable]

theorem State.hostRefresh_queues {p l : Nat} {s : State} (hl : l < 16)
    (hactive : (s.bobbin p ((s.pillow p).physOf l)).state = 0)
    (hslot : (s.slot (s.bobbin p ((s.pillow p).physOf l)).slot).state = 3)
    (hnew : ∀ r ∈ (s.pillow p).refresh, r.logical ≠ l) :
    s.hostRefresh p l = s.setPillow p { s.pillow p with
      refresh := (s.pillow p).refresh ++ [{ source := 3, logical := l, age := s.now }] } := by
  have hcan := State.refreshable_host (a := s.now).mpr ⟨hactive, hslot⟩
  exact (if_pos (Bool.and_eq_true_iff.mpr ⟨decide_eq_true hl, hcan⟩)).trans (State.requestRefresh_new hnew)

theorem State.hostRefresh_notActive {p l : Nat} {s : State}
    (hbad : (s.bobbin p ((s.pillow p).physOf l)).state ≠ 0) : s.hostRefresh p l = s := by
  refine if_neg fun hcan => ?_
  exact hbad (State.refreshable_host.mp (Bool.and_eq_true_iff.mp hcan).2).1

theorem State.wrReqRefused_of_calDone {p : Nat} {s : State} (hcal : s.trim.calDone = true) :
    s.wrReqRefused p = none := (require_eq_none _ _).mpr hcal

theorem State.wrReqRefused_of_not_calDone {p : Nat} {s : State} (hcal : s.trim.calDone = false) :
    s.wrReqRefused p = some { status := Status.calFail, payload := leBytes 1 p ++ leBytes 1 0xFF } := by
  rw [State.wrReqRefused, hcal]
  rfl

/-- With CAL_DONE a WR_REQ to a pillow in service is answered OK, whether or not its bobbin may be refreshed. -/
theorem wrReq_answers {h : Hdr} {p l : Nat} {s : State} (ha : s.accepts Op.regWrite false = true)
    (hin : s.inService p = true) (hcal : s.trim.calDone = true) :
    Answers (.wrReq h p l) h Op.regWrite (fun _ => []) (fun s => s.disarm.hostRefresh p l) s := by
  refine .of_done (form := 0) ?_
  rw [exec_wrReq, execWrReq]
  refine hostCommand_accepted rfl ha ?_
  rw [firstOf_cons_eq_none, require_eq_none, firstOf_singleton]
  exact ⟨hin, State.wrReqRefused_of_calDone hcal⟩

/-- Without CAL_DONE a WR_REQ is refused with CAL_FAIL (R345). -/
theorem wrReq_refused {h : Hdr} {p l : Nat} {s : State} (ha : s.accepts Op.regWrite false = true)
    (hin : s.inService p = true) (hcal : s.trim.calDone = false) :
    Refuses (.wrReq h p l) h Op.regWrite { status := Status.calFail, payload := leBytes 1 p ++ leBytes 1 0xFF } s := by
  refine .of_refuse (form := 0) ?_
  rw [exec_wrReq, execWrReq]
  refine hostCommand_refused rfl ha ?_
  have hon : require ((s.advance h.t).inService p) stateRefused = none := (require_eq_none _ _).mpr hin
  rw [hon, State.wrReqRefused_of_not_calDone (s := s.advance h.t) hcal]
  rfl

/-! ## The obligation -/

/-- Settles O37: the two commands answer with `State.qcCommit` and `State.hostRefresh` of the disarmed state, which the
staged set and the bobbin decide. -/
theorem pillowRequests : Obligations.PillowRequests := by
  unfold Obligations.PillowRequests
  refine ⟨?pends, ?refused, ?calFail, ?queues, ?notActive⟩
  case pends =>
    intro h p s ha hin hgood hwait
    exact (qcCommit_answers ha hin).of_eq (State.qcCommit_pends (s := (s.advance h.t).disarm) hgood hwait)
  case refused =>
    intro h p s ha hin hbad
    exact (qcCommit_answers ha hin).of_eq (State.qcCommit_refused (s := (s.advance h.t).disarm) hbad)
  case calFail =>
    intro h p l s ha hin hcal
    exact wrReq_refused ha hin hcal
  case queues =>
    intro h p l s ha hin hl hcal hactive hslot hnew
    exact (wrReq_answers ha hin hcal).of_eq
      (State.hostRefresh_queues (s := (s.advance h.t).disarm) hl hactive hslot hnew)
  case notActive =>
    intro h p l s ha hin hcal hbad
    exact (wrReq_answers ha hin hcal).of_eq (State.hostRefresh_notActive (s := (s.advance h.t).disarm) hbad)

end Sys2Proof.Machine
end

section
/-! PROOF. O3 and O4: the canonical form of the physical and the firmware memory (R200, R217). -/

namespace Sys2Proof.Machine

/-! ## The form and the outcomes that keep it -/

/-- The physical and the firmware memory are in canonical form. -/
def State.MemoryCanonical (s : State) : Prop := Memory.wf s.mem = true ∧ Firmware.wf s.fwMem = true

/-- An outcome is a next state whose memories are canonical if those of s are. -/
def KeepsMemory (s : State) (o : Out) : Prop := s.MemoryCanonical → ∃ t, o = .next t ∧ t.MemoryCanonical

theorem State.reset_memoryCanonical : State.reset.MemoryCanonical := ⟨rfl, rfl⟩

theorem State.intoReset_memoryCanonical (src : ResetSource) (s : State) : (s.intoReset src).MemoryCanonical :=
  ⟨rfl, rfl⟩

/-- Two states with the same memories are canonical together. -/
theorem State.MemoryCanonical.of_eq {s t : State} (h : s.MemoryCanonical) (hmem : t.mem = s.mem)
    (hfw : t.fwMem = s.fwMem) : t.MemoryCanonical := by
  rw [State.MemoryCanonical, hmem, hfw]
  exact h

/-- A meaning whose law says that it leaves both memories alone. -/
theorem KeepsMemory.of_frame {n : Nat} {s : State} {o : Out} {more : State → Prop}
    (h : ∃ t, o = .next t ∧ t.pending = s.pending ∧ t.now = max s.now n ∧ t.mem = s.mem ∧ t.fwMem = s.fwMem ∧ more t) :
    KeepsMemory s o := by
  obtain ⟨t, hnext, -, -, hmem, hfw, -⟩ := h
  exact fun hs => ⟨t, hnext, hs.of_eq hmem hfw⟩

/-- A meaning whose law says that it writes the physical memory and keeps its form. -/
theorem KeepsMemory.of_wf {n : Nat} {s : State} {o : Out} {more : State → Prop}
    (h : ∃ t, o = .next t ∧ t.pending = s.pending ∧ t.now = max s.now n ∧
      (Memory.wf s.mem = true → Memory.wf t.mem = true) ∧ t.fwMem = s.fwMem ∧ more t) : KeepsMemory s o := by
  obtain ⟨t, hnext, -, -, hmem, hfw, -⟩ := h
  exact fun hs => ⟨t, hnext, hmem hs.1, hfw ▸ hs.2⟩

/-! ## Resets and the boot ROM's March test (R221, R475, R479) -/

/-- A reset that comes about clears both memories; one that does not leaves the state. -/
theorem KeepsMemory.ite_intoReset (c : Prop) [Decidable c] (src : ResetSource) (n : Nat) (s : State) :
    KeepsMemory s (.next (if c then (s.advance n).intoReset src else s.advance n)) := fun hs =>
  ⟨_, rfl, iteInduction (fun _ => State.intoReset_memoryCanonical ..) fun _ => hs⟩

theorem execDevReset_keepsMemory (h : Hdr) (confirm : BitVec 32) (s : State) :
    KeepsMemory s (execDevReset h confirm s) := by
  intro hs
  unfold execDevReset hostCommand
  dsimp only
  split
  · exact ⟨_, rfl, hs.of_eq (by simp only [State.refuse_frame, State.advance_frame])
      (by simp only [State.refuse_frame, State.advance_frame])⟩
  · exact ⟨_, rfl, State.intoReset_memoryCanonical ..⟩

theorem execNrstFall_keepsMemory (n : Nat) (s : State) : KeepsMemory s (execNrstFall n s) := .ite_intoReset _ _ n s

theorem execWatchdog_keepsMemory (n : Nat) (s : State) : KeepsMemory s (execWatchdog n s) := .ite_intoReset _ _ n s

theorem execThermalTrip_keepsMemory (n : Nat) (s : State) : KeepsMemory s (execThermalTrip n s) := by
  unfold execThermalTrip
  dsimp only
  split
  · exact fun hs => ⟨_, rfl, hs⟩
  · exact .ite_intoReset _ _ n s

/-- The March test leaves 0x55 in every byte of the firmware memory, so none is listed (R221). -/
theorem execPllLock_keepsMemory (n : Nat) (marchOk : Bool) (s : State) : KeepsMemory s (execPllLock n marchOk s) := by
  intro hs
  refine ⟨_, rfl, iteInduction (fun _ => iteInduction (fun _ => ⟨hs.1, rfl⟩) fun _ => ?fails) fun _ => hs⟩
  case fails =>
    refine State.MemoryCanonical.of_eq (s := { s with fwMem := [] }) ⟨hs.1, rfl⟩ ?_ ?_ <;>
      simp only [State.enterFatal_frame, State.advance_frame]

/-! ## Every command and event -/

/-- Every form keeps the memories canonical: each by the law of its meaning. -/
theorem exec_keepsMemory (c : Instr) (s : State) : KeepsMemory s (exec c s) := by
  cases c with
  | devInfo => exact .of_frame (execDevInfo_next ..)
  | devReset => exact execDevReset_keepsMemory _ _ s
  | regRead => exact .of_frame (execRegRead_next ..)
  | regWrite => exact .of_wf (execRegWrite_next ..)
  | hcDataRead => exact .of_frame (execHcDataRead_next ..)
  | tbWpLoRead => exact .of_frame (execTbWpLoRead_next ..)
  | pkPick0Read => exact .of_frame (execPkPick0Read_next ..)
  | qcCommit => exact .of_frame (execQcCommit_next ..)
  | wrReq => exact .of_frame (execWrReq_next ..)
  | shqErrPop => exact .of_frame (execShqErrPop_next ..)
  | pwrReq => exact .of_wf (execPwrReq_next ..)
  | frCtrlEnter => exact .of_frame (execFrCtrlEnter_next ..)
  | frCtrlLeave => exact .of_frame (execFrCtrlLeave_next ..)
  | secArm => exact .of_frame (execSecArm_next ..)
  | secOpSeal => exact .of_frame (execSecOpSeal_next ..)
  | secOpRevoke => exact .of_frame (execSecOpRevoke_next ..)
  | calRun => exact .of_frame (execCalRun_next ..)
  | calRunEnd => exact .of_wf (execCalRunEnd_next ..)
  | trimRead => exact .of_frame (execTrimRead_next ..)
  | trimSnapshotReady => exact .of_frame (execTrimSnapshotReady_next ..)
  | trimWrite => exact .of_frame (execTrimWrite_next ..)
  | trimWriteCheck => exact .of_wf (execTrimWriteCheck_next ..)
  | mapCreate => exact .of_wf (execMapCreate_next ..)
  | mapPage => exact .of_wf (execMapPage_next ..)
  | mapPageDrainEnd => exact .of_wf (execMapPageDrainEnd_next ..)
  | mapPin => exact .of_wf (execMapPin_next ..)
  | marchRun => exact .of_frame (execMarchRun_next ..)
  | marchRunEnd => exact .of_wf (execMarchRunEnd_next ..)
  | shardBeginManifest => exact .of_frame (execShardBeginManifest_next ..)
  | shardBeginShard => exact .of_frame (execShardBeginShard_next ..)
  | shardBeginDiscard => exact .of_frame (execShardBeginDiscard_next ..)
  | shardEnd => exact .of_frame (execShardEnd_next ..)
  | shardTimeout => exact .of_frame (execShardTimeout_next ..)
  | bundleCheckEnd => exact .of_frame (execBundleCheckEnd_next ..)
  | redigestPass => exact .of_frame (execRedigestPass_next ..)
  | slotProgram => exact .of_frame (execSlotProgram_next ..)
  | slotProgramEnd => exact .of_frame (execSlotProgramEnd_next ..)
  | slotActivate => exact .of_frame (execSlotActivate_next ..)
  | slotDrainEnd => exact .of_frame (execSlotDrainEnd_next ..)
  | slotReprogramEnd => exact .of_frame (execSlotReprogramEnd_next ..)
  | slotRetire => exact .of_frame (execSlotRetire_next ..)
  | slotRetireEnd => exact .of_frame (execSlotRetireEnd_next ..)
  | prickLoadOpen => exact .of_frame (execPrickLoadOpen_next ..)
  | prickLoadData => exact .of_frame (execPrickLoadData_next ..)
  | prickLoadClose => exact .of_frame (execPrickLoadClose_next ..)
  | prickLoadDiscard => exact .of_frame (execPrickLoadDiscard_next ..)
  | jobAdmit => exact .of_wf (execJobAdmit_next ..)
  | jobAdmitAccept => exact .of_frame (execJobAdmitAccept_next ..)
  | jobSubmit => exact .of_wf (execJobSubmit_next ..)
  | partialCapture => exact .of_wf (execPartialCapture_next ..)
  | jobAbortLoose => exact .of_wf (execJobAbortLoose_next ..)
  | jobAbortTemplate => exact .of_frame (execJobAbortTemplate_next ..)
  | templateWithdrawn => exact .of_wf (execTemplateWithdrawn_next ..)
  | tbConfig => exact .of_frame (execTbConfig_next ..)
  | tbClaimClaim => exact .of_frame (execTbClaimClaim_next ..)
  | tbClaimRelease => exact .of_frame (execTbClaimRelease_next ..)
  | streamOpen => exact .of_frame (execStreamOpen_next ..)
  | streamClose => exact .of_frame (execStreamClose_next ..)
  | streamCloseEffect => exact .of_frame (execStreamCloseEffect_next ..)
  | portConfigLink => exact .of_frame (execPortConfigLink_next ..)
  | portConfigService => exact .of_frame (execPortConfigService_next ..)
  | portConfigGates => exact .of_frame (execPortConfigGates_next ..)
  | hcConfigEnable => exact .of_frame (execHcConfigEnable_next ..)
  | hcConfigDisable => exact .of_frame (execHcConfigDisable_next ..)
  | hcConfigMode => exact .of_frame (execHcConfigMode_next ..)
  | hcSelfcal => exact .of_frame (execHcSelfcal_next ..)
  | hcSelfcalEnd => exact .of_frame (execHcSelfcalEnd_next ..)
  | hcReadData => exact .of_frame (execHcReadData_next ..)
  | hcReadConvert => exact .of_frame (execHcReadConvert_next ..)
  | hcReadUrgent => exact .of_frame (execHcReadUrgent_next ..)
  | pkConfigEnable => exact .of_frame (execPkConfigEnable_next ..)
  | pkConfigDisable => exact .of_frame (execPkConfigDisable_next ..)
  | queueFlush => exact .of_frame (execQueueFlush_next ..)
  | queueFlushEffect => exact .of_frame (execQueueFlushEffect_next ..)
  | queueDrop => exact .of_frame (execQueueDrop_next ..)
  | fwUpdateOpen => exact .of_frame (execFwUpdateOpen_next ..)
  | fwUpdateClose => exact .of_frame (execFwUpdateClose_next ..)
  | fwUpdateDiscard => exact .of_frame (execFwUpdateDiscard_next ..)
  | flashWriteStageEnd => exact .of_frame (execFlashWriteStageEnd_next ..)
  | attestForm => exact .of_frame (execAttestForm_next ..)
  | attestRead => exact .of_frame (execAttestRead_next ..)
  | dispatch => exact .of_frame (execDispatch_next ..)
  | cmd0 => exact .of_frame (execCmd0_next ..)
  | cmd5 => exact .of_frame (execCmd5_next ..)
  | cmd11 => exact .of_frame (execCmd11_next ..)
  | cmd19 => exact .of_frame (execCmd19_next ..)
  | mailboxWrite => exact .of_frame (execMailboxWrite_next ..)
  | mailboxPacketEnter => exact .of_frame (execMailboxPacketEnter_next ..)
  | replyWindowRead => exact .of_frame (execReplyWindowRead_next ..)
  | transportByteWrite => exact .of_frame (execTransportByteWrite_next ..)
  | f2BlockWrite => exact .of_wf (execF2BlockWrite_next ..)
  | f2BlockRead => exact .of_frame (execF2BlockRead_next ..)
  | ioAbort => exact .of_frame (execIoAbort_next ..)
  | ioReset => exact .of_frame (execIoReset_next ..)
  | packetEnter => exact .of_frame (execPacketEnter_next ..)
  | errorEntryEnter => exact .of_frame (execErrorEntryEnter_next ..)
  | hostNoteDrain => exact .of_frame (execHostNoteDrain_next ..)
  | recordMove => exact .of_frame (execRecordMove_next ..)
  | encoderCount => exact .of_frame (execEncoderCount_next ..)
  | indexPulse => exact .of_frame (execIndexPulse_next ..)
  | threadTriggerEdge => exact .of_frame (execThreadTriggerEdge_next ..)
  | pulseEnd => exact .of_frame (execPulseEnd_next ..)
  | encoderLoss => exact .of_frame (execEncoderLoss_next ..)
  | encoderLossEnd => exact .of_frame (execEncoderLossEnd_next ..)
  | stall => exact .of_frame (execStall_next ..)
  | stageReady => exact .of_wf (execStageReady_next ..)
  | saveComplete => exact .of_wf (execSaveComplete_next ..)
  | restoreComplete => exact .of_wf (execRestoreComplete_next ..)
  | tokenConditioned => exact .of_wf (execTokenConditioned_next ..)
  | passComplete => exact .of_wf (execPassComplete_next ..)
  | epilogueWriteEnd => exact .of_wf (execEpilogueWriteEnd_next ..)
  | dmaBurstComplete => exact .of_wf (execDmaBurstComplete_next ..)
  | translationWalkEnd => exact .of_wf (execTranslationWalkEnd_next ..)
  | tattingInstructionEnd => exact .of_wf (execTattingInstructionEnd_next ..)
  | setlen => exact .of_wf (execSetlen_next ..)
  | fenceWaitEnd => exact .of_wf (execFenceWaitEnd_next ..)
  | windowWaitEnd => exact .of_wf (execWindowWaitEnd_next ..)
  | recordCommit => exact .of_wf (execRecordCommit_next ..)
  | faultWaitExpiry => exact .of_wf (execFaultWaitExpiry_next ..)
  | streamFrame => exact .of_wf (execStreamFrame_next ..)
  | linkDown => exact .of_frame (execLinkDown_next ..)
  | linkUp => exact .of_frame (execLinkUp_next ..)
  | arpRequest => exact .of_frame (execArpRequest_next ..)
  | icmpEcho => exact .of_frame (execIcmpEcho_next ..)
  | rasterPacket => exact .of_wf (execRasterPacket_next ..)
  | ptpMessage => exact .of_frame (execPtpMessage_next ..)
  | delayReq => exact .of_frame (execDelayReq_next ..)
  | ptpSyncTimeout => exact .of_frame (execPtpSyncTimeout_next ..)
  | gateEntryChange => exact .of_frame (execGateEntryChange_next ..)
  | picotSlotEnd => exact .of_frame (execPicotSlotEnd_next ..)
  | throwBurstEnd => exact .of_wf (execThrowBurstEnd_next ..)
  | sequenceReady => exact .of_frame (execSequenceReady_next ..)
  | conversionEnd => exact .of_frame (execConversionEnd_next ..)
  | calibrationPass => exact .of_wf (execCalibrationPass_next ..)
  | dwellEnd => exact .of_frame (execDwellEnd_next ..)
  | levelScanEnd => exact .of_frame (execLevelScanEnd_next ..)
  | sealEpoch => exact .of_wf (execSealEpoch_next ..)
  | ageRefreshRequest => exact .of_frame (execAgeRefreshRequest_next ..)
  | refreshStart => exact .of_frame (execRefreshStart_next ..)
  | bobbinProgrammingStart => exact .of_frame (execBobbinProgrammingStart_next ..)
  | bobbinProgrammingEnd => exact .of_wf (execBobbinProgrammingEnd_next ..)
  | sramScrub => exact .of_frame (execSramScrub_next ..)
  | hbmScrub => exact .of_frame (execHbmScrub_next ..)
  | hbmLinkRetrain => exact .of_frame (execHbmLinkRetrain_next ..)
  | mgmtCoreFault => exact .of_frame (execMgmtCoreFault_next ..)
  | domainSwitched => exact .of_frame (execDomainSwitched_next ..)
  | pwrgdFall => exact .of_frame (execPwrgdFall_next ..)
  | nrstFall => exact execNrstFall_keepsMemory _ s
  | nrstRise => exact .of_frame (execNrstRise_next ..)
  | strapLatch => exact .of_frame (execStrapLatch_next ..)
  | watchdog => exact execWatchdog_keepsMemory _ s
  | internalResetEnd => exact .of_frame (execInternalResetEnd_next ..)
  | thermalReading => exact .of_wf (execThermalReading_next ..)
  | throttleStepFall => exact .of_wf (execThrottleStepFall_next ..)
  | thermalTrip => exact execThermalTrip_keepsMemory _ s
  | thermalTripEnd => exact .of_frame (execThermalTripEnd_next ..)
  | pllLock => exact execPllLock_keepsMemory _ _ s
  | firmwareLoadEnd => exact .of_frame (execFirmwareLoadEnd_next ..)
  | firmwareInitEnd => exact .of_wf (execFirmwareInitEnd_next ..)
  | debugToken => exact .of_frame (execDebugToken_next ..)
  | tapInstruction => exact .of_frame (execTapInstruction_next ..)
  | ptpMasterLost => exact .of_frame (execPtpMasterLost_next ..)
  | frameTransmitEnd => exact .of_frame (execFrameTransmitEnd_next ..)
  | cmd3 => exact .of_frame (execCmd3_next ..)
  | cmd7 => exact .of_frame (execCmd7_next ..)
  | cmd15 => exact .of_frame (execCmd15_next ..)
  | cccrWrite => exact .of_frame (execCccrWrite_next ..)
  | transportByteRead => exact .of_frame (execTransportByteRead_next ..)
  | tapReset => exact .of_frame (execTapReset_next ..)

/-! ## The obligations -/

/-- Settles O3: the front command's meaning keeps the form (`exec_keepsMemory`), and idling changes nothing. -/
theorem stepKeepsMemoryCanonical : Obligations.StepKeepsMemoryCanonical := by
  unfold Obligations.StepKeepsMemoryCanonical
  intro s t hmem hfw hstep
  cases hp : s.pending with
  | nil =>
    simp only [step, hp, Host.Outcome.next.injEq] at hstep
    exact hstep ▸ ⟨hmem, hfw⟩
  | cons c rest =>
    obtain ⟨u, hnext, hu⟩ := exec_keepsMemory c { s with pending := rest } ⟨hmem, hfw⟩
    simp only [step, hp, hnext, Host.Outcome.next.injEq] at hstep
    exact hstep ▸ hu

/-- Settles O4: both memories are empty right after reset. -/
theorem resetMemoryCanonical : Obligations.ResetMemoryCanonical := State.reset_memoryCanonical

end Sys2Proof.Machine
end

section
/-! PROOF. Reading rules for streams and ports, for O38. -/

namespace Sys2Proof.Machine

theorem State.port_modPort (k j : Nat) (f : Port → Port) (s : State) :
    (s.modPort k f).port j = if j = k then f (s.port k) else s.port j := State.port_setPort k j _ s

theorem State.port_of_ports {s t : State} (h : t.ports = s.ports) (p : Nat) : t.port p = s.port p := by
  rw [State.port, h]; rfl

theorem State.stream_of_streams {s t : State} (h : t.streams = s.streams) (n : Nat) : t.stream n = s.stream n := by
  rw [State.stream, h]; rfl

theorem State.stream_setStream_ne {k j : Nat} (h : j ≠ k) (x : Stream) (s : State) :
    (s.setStream k x).stream j = s.stream j := (State.stream_setStream k j x s).trans (if_neg h)

theorem State.byteAt_of_mem {s t : State} (h : t.mem = s.mem) (a : Nat) : t.byteAt a = s.byteAt a :=
  congrArg (memByte · a) h

@[simp] theorem State.port_setStream (n p : Nat) (x : Stream) (s : State) : (s.setStream n x).port p = s.port p := rfl

@[simp] theorem State.advance_stream (k n : Nat) (s : State) : (s.advance k).stream n = s.stream n := rfl

@[simp] theorem State.advance_port (k p : Nat) (s : State) : (s.advance k).port p = s.port p := rfl

/-! ## Frames, their reports and their releases -/

@[simp] theorem State.accepted_stream (p n : Nat) (s : State) : (s.accepted p).stream n = s.stream n := rfl

theorem State.accepted_port (p : Nat) (s : State) :
    (s.accepted p).port p = { s.port p with rxf := min 0xFFFF_FFFF ((s.port p).rxf + 1) } := State.port_setPort_same ..

@[simp] theorem State.lineReport_stream (p c l n : Nat) (s : State) : (s.lineReport p c l).stream n = s.stream n :=
  State.stream_of_streams (by simp only [State.lineReport_frame]) n

@[simp] theorem State.lineReport_port (p c l q : Nat) (s : State) : (s.lineReport p c l).port q = s.port q :=
  State.port_of_ports (by simp only [State.lineReport_frame]) q

@[simp] theorem State.releaseDue_stream (f : Nat → Bool) (n : Nat) (s : State) :
    (s.releaseDue f).stream n = s.stream n :=
  State.stream_of_streams (by simp only [State.releaseDue_frame]) n

@[simp] theorem State.releaseDue_port (f : Nat → Bool) (p : Nat) (s : State) : (s.releaseDue f).port p = s.port p :=
  State.port_of_ports (by simp only [State.releaseDue_frame]) p

@[simp] theorem State.releaseDue_byteAt (f : Nat → Bool) (a : Nat) (s : State) :
    (s.releaseDue f).byteAt a = s.byteAt a :=
  State.byteAt_of_mem (by simp only [State.releaseDue_frame]) a

/-! ## The ports of a stream -/

/-- The ports of l stand in stream v, or in none. -/
def State.assignPorts (v : Option Nat) (l : List Nat) (s : State) : State :=
  l.foldl (fun s q => s.modPort q fun y => { y with stream := v }) s

theorem State.assignPorts_port (v : Option Nat) (l : List Nat) (s : State) (j : Nat) :
    (s.assignPorts v l).port j = if j ∈ l then { s.port j with stream := v } else s.port j := by
  induction l generalizing s with
  | nil => rfl
  | cons q l ih =>
    refine (ih _).trans ?_
    rw [State.port_modPort]
    by_cases hq : j = q
    · subst hq
      simp
    · simp [hq]

theorem State.assignPorts_eq (v : Option Nat) (l : List Nat) (s : State) :
    s.assignPorts v l = { s with ports := (s.assignPorts v l).ports } := by
  induction l generalizing s with
  | nil => rfl
  | cons q l ih => exact ih _

theorem State.setStream_assignPorts (n : Nat) (x : Stream) (v : Option Nat) (l : List Nat) (s : State) :
    (s.assignPorts v l).setStream n x = (s.setStream n x).assignPorts v l := by
  induction l generalizing s with
  | nil => rfl
  | cons q l ih => exact ih _

theorem mem_cons_toList {a q : Nat} {b : Option Nat} : q ∈ a :: b.toList ↔ q = a ∨ b = some q := by
  rw [List.mem_cons, Option.mem_toList]

end Sys2Proof.Machine
end

section
/-! PROOF. O38: STREAM_OPEN, STREAM_CLOSE and line frames (R213, R281, R283, R284, R286, R289, R440, R441). -/

namespace Sys2Proof.Machine

/-! ## STREAM_OPEN (R213, R284, R440) -/

/-- A stream as STREAM_OPEN binds it: its counts stay. -/
def Stream.opened (p : StreamOpenParams) (x : Stream) : Stream :=
  { bound := true, primary := p.primary, secondary := p.secondary, camera := p.camera, pixfmt := p.pixfmt
    rport := p.rport, udp := p.udp, origin := p.origin, sheetOfs := p.sheetOfs, base := p.gbBase
    pitch := p.pitch, depth := p.depth, claimed := true, holder := Op.streamOpen
    overrun := x.overrun, late := x.late, missing := x.missing, badHdr := x.badHdr, skew := x.skew }

/-- A stream as STREAM_CLOSE leaves it: its counts stay. -/
def Stream.closed (x : Stream) : Stream :=
  { overrun := x.overrun, late := x.late, missing := x.missing, badHdr := x.badHdr, skew := x.skew }

/-- Stream n becomes x, and the ports of l stand in stream v. -/
def State.rebind (n : Nat) (x : Stream) (v : Option Nat) (l : List Nat) (s : State) : State :=
  (s.setStream n x).assignPorts v l

theorem State.rebind_eq (n : Nat) (x : Stream) (v : Option Nat) (l : List Nat) (s : State) :
    s.rebind n x v l = { s with
      streams := (s.setStream n x).streams, ports := (s.rebind n x v l).ports } :=
  State.assignPorts_eq ..

/-- A command or event that rebinds a stream and answers changes the stream, its ports and what its reply changes. -/
theorem exec_rebind_done {c : Instr} {k n a op form : Nat} {x : Stream} {v b : Option Nat} {h : Hdr} {s : State}
    (hx : exec c s = .next (((s.advance k).rebind n x v (a :: b.toList)).done h op form [])) :
    ∃ t, exec c s = .next t ∧ Replied h op Status.ok [] s t ∧ t.stream n = x ∧ (∀ m, m ≠ n → t.stream m = s.stream m)
      ∧ (∀ q, t.port q = if q = a ∨ b = some q then { s.port q with stream := v } else s.port q)
      ∧ t = { s with
          now := max s.now k, streams := t.streams, ports := t.ports, queues := t.queues, mgmt := t.mgmt } := by
  have hbind := State.rebind_eq n x v (a :: b.toList) (s.advance k)
  have hdone := State.done_eq h op form [] ((s.advance k).rebind n x v (a :: b.toList))
  have hstream (m : Nat) : (((s.advance k).rebind n x v (a :: b.toList)).done h op form []).stream m
      = (s.setStream n x).stream m := by rw [hdone, hbind]; rfl
  refine ⟨_, hx, (State.done_replied ..).of_queues (by rw [hbind]; rfl),
    (hstream n).trans (State.stream_setStream_same ..), fun m hm => (hstream m).trans (State.stream_setStream_ne hm ..),
    fun q => ?ports, ?rest⟩
  case ports =>
    rw [State.port_of_ports (s := (s.advance k).rebind n x v (a :: b.toList)) (by rw [hdone]), State.rebind,
      State.assignPorts_port]
    exact if_congr mem_cons_toList rfl rfl
  case rest =>
    rw [hdone, hbind]
    rfl

/-- An open stream is refused before any other check (R440). -/
theorem streamOpenCheck_bound {p : StreamOpenParams} {s : State} (h : (s.stream p.stream).bound = true) :
    streamOpenCheck p s = some (resHeld Op.streamOpen Op.streamOpen 4 p.stream 0xFF p.stream) := by
  unfold streamOpenCheck
  rw [h]
  rfl

theorem exec_streamOpen_accepted {h : Hdr} {p : StreamOpenParams} {s : State}
    (ha : s.accepts Op.streamOpen false = true) (hparams : streamParams p = none)
    (hcheck : streamOpenCheck p s = none) :
    exec (.streamOpen h p) s = .next (((s.advance h.t).rebind p.stream ((s.stream p.stream).opened p) (some p.stream)
      (p.primary :: p.secondary.toList)).done h Op.streamOpen 0 []) :=
  (exec_streamOpen h p s).trans (hostCommand_accepted hparams ha hcheck)

theorem exec_streamOpen_bound {h : Hdr} {p : StreamOpenParams} {s : State}
    (ha : s.accepts Op.streamOpen false = true) (hparams : streamParams p = none)
    (hbound : (s.stream p.stream).bound = true) :
    Refuses (.streamOpen h p) h Op.streamOpen (resHeld Op.streamOpen Op.streamOpen 4 p.stream 0xFF p.stream) s :=
  .of_refuse (form := 0) ((exec_streamOpen h p s).trans
    (hostCommand_refused hparams ha (streamOpenCheck_bound (s := s.advance h.t) hbound)))

/-! ## STREAM_CLOSE (R289, R441) -/

theorem streamCloseCheck_eq_none {n : Nat} {s : State} : streamCloseCheck n s = none ↔
    ((s.stream n).bound = true ∧ (s.stream n).closing = none) ∧ ∀ x ∈ s.admitted, x.2.p.stream ≠ n := by
  simp only [streamCloseCheck, firstOf_cons_eq_none, require_eq_none, firstOf, Bool.and_eq_true,
    Option.isNone_iff_eq_none, Option.map_eq_none_iff, List.find?_eq_none, beq_iff_eq, and_true, ne_eq]

theorem exec_streamClose_accepted {h : Hdr} {n : Nat} {s : State} (ha : s.accepts Op.streamClose false = true)
    (hn : n ≤ 15) (hcheck : streamCloseCheck n s = none) :
    Accepts (.streamClose h n) h (fun s => s.setStream n { s.stream n with closing := some h }) s :=
  .of_release ((exec_streamClose h n s).trans
    (hostCommand_accepted ((require_eq_none ..).mpr (decide_eq_true hn)) ha hcheck))

theorem exec_streamCloseEffect_free {k n : Nat} {h : Hdr} {s : State} (hup : s.up = true)
    (hclosing : (s.stream n).closing = some h) (hidle : s.streamBusy n = false) :
    exec (.streamCloseEffect k n) s = .next (((s.advance k).rebind n (s.stream n).closed none
      ((s.stream n).primary :: (s.stream n).secondary.toList)).done h Op.streamClose 0 []) := by
  have hclosing' : ((s.advance k).stream n).closing = some h := hclosing
  have hguard : ((s.advance k).up && !(s.advance k).streamBusy n) = true := by
    rw [show (s.advance k).streamBusy n = false from hidle]
    exact Bool.and_eq_true_iff.mpr ⟨hup, rfl⟩
  rw [exec_streamCloseEffect, execStreamCloseEffect]
  dsimp only
  rw [hclosing', State.rebind, ← State.setStream_assignPorts]
  exact congrArg Host.Outcome.next (if_pos hguard)

/-- A pinned job on the stream keeps its ports and window (R289). -/
theorem exec_streamCloseEffect_busy {k n : Nat} {s : State} (hbusy : s.streamBusy n = true) :
    exec (.streamCloseEffect k n) s = .next (s.advance k) := by
  have hb : (s.advance k).streamBusy n = true := hbusy
  rw [exec_streamCloseEffect, execStreamCloseEffect]
  dsimp only
  split
  · rw [if_neg (by simp [hb])]
  · rfl

/-! ## Frames (R281, R283) -/

theorem State.frameArises (k : Nat) {p : Nat} {s : State} (hp : p < 16) (hup : s.portUp p = true) :
    (decide (p < 16) && (s.advance k).portUp p) = true := by
  rw [decide_eq_true hp]
  exact hup

theorem exec_streamFrame_line {k p n : Nat} {f b : Bytes} {s : State} (hp : p < 16) (hup : s.portUp p = true)
    (hline : s.lineFrame p f = some (n, b)) :
    exec (.streamFrame k p f) s = .next (((s.advance k).accepted p).linePacket n p b) := by
  have hline' : (s.advance k).lineFrame p f = some (n, b) := hline
  rw [exec_streamFrame, execStreamFrame, if_pos (State.frameArises k hp hup), hline']

theorem exec_streamFrame_other {k p : Nat} {f : Bytes} {s : State} (hp : p < 16) (hup : s.portUp p = true)
    (hline : s.lineFrame p f = none) : exec (.streamFrame k p f) s = .next ((s.advance k).discard p) := by
  have hline' : (s.advance k).lineFrame p f = none := hline
  rw [exec_streamFrame, execStreamFrame, if_pos (State.frameArises k hp hup), hline']

theorem State.linePacket_bad {n p : Nat} {b : Bytes} {s : State} (h : (s.stream n).badHeader n b = true) :
    s.linePacket n p b = (s.setStream n { s.stream n with
      badHdr := min 0xFFFF_FFFF ((s.stream n).badHdr + 1) }).lineReport p 1 (numAt 8 4 b) := if_pos h

theorem State.linePacket_good {n p : Nat} {b : Bytes} {s : State} (h : (s.stream n).badHeader n b = false) :
    s.linePacket n p b = (s.takeLine n p ((s.stream n).lineOf (numAt 8 4 b)) (numAt 0x0C 4 b) (b.drop 24)).releaseDue
      (· == n) := if_neg (by simp [h])

/-- The payload that a good header announces is a number of whole units and all that follows the header (R283). -/
theorem Stream.payload_of_goodHeader {n : Nat} {b : Bytes} {x : Stream} (h : x.badHeader n b = false) :
    numAt 0x10 2 b % 64 = 0 ∧ numAt 0x10 2 b + 24 = b.length := by
  simp only [Stream.badHeader, Bool.or_eq_false_iff, bne_eq_false_iff_eq] at h
  tauto

/-- Where a late line's stream has one port, the line is counted and nothing written (R286). -/
theorem State.takeLine_late {n p ofs : Nat} {line : Int} {data : Bytes} {s : State} (h : line < (s.stream n).next)
    (hone : (s.stream n).secondary = none) :
    s.takeLine n p line ofs data = s.setStream n { s.stream n with
      late := min 0xFFFF_FFFF ((s.stream n).late + 1) } := by
  rw [State.takeLine]
  dsimp only
  rw [if_pos h, if_neg (by simp [hone])]
  rfl

/-! ## The slot of a line (R213) -/

/-- Within a window that fits the ground buffer a line's bytes follow its first one. -/
theorem Stream.lineAddr_add {x : Stream} (hfits : x.base + x.depth * x.pitch ≤ 0x200_0000) (hdepth : x.depth ≠ 0)
    (l : Nat) {i : Nat} (hi : i < x.pitch) : x.lineAddr l i = x.lineAddr l 0 + i := by
  have hslot : l % max 1 x.depth < x.depth := by
    rw [Nat.max_eq_right (Nat.one_le_iff_ne_zero.mpr hdepth)]
    exact Nat.mod_lt _ (Nat.pos_of_ne_zero hdepth)
  have hend : (l % max 1 x.depth) * x.pitch + x.pitch ≤ x.depth * x.pitch := by
    rw [← Nat.succ_mul]
    exact Nat.mul_le_mul_right _ hslot
  have haddr (j : Nat) (hj : j < x.pitch) :
      x.lineAddr l j = gbBase + (x.base + (l % max 1 x.depth) * x.pitch + j) := by
    rw [Stream.lineAddr]
    have hcast : (x.base : Int) + (l : Int) % (max 1 x.depth : Int) * (x.pitch : Int) + (j : Int)
        = ((x.base + (l % max 1 x.depth) * x.pitch + j : Nat) : Int) := by push_cast; rfl
    rw [hcast, Int.toNat_natCast, Nat.mod_eq_of_lt (by omega)]
  have h0 := haddr 0 (by omega)
  rw [Int.ofNat_zero] at h0
  rw [haddr i hi, h0]
  omega

/-! ## Writes by port 0 (R205) -/

/-- Port 0 wins every word it writes. -/
theorem State.byteAt_storeBy_zero (ctx : Option Nat) (a : Nat) (b : Bytes) (s : State) (y : Nat) :
    (s.storeBy 0 ctx a b).byteAt y = (s.store a b).byteAt y := by
  have hwins (l : List CycleWrite) : l.filter (fun x => decide (x.port < 0)) = [] := by simp
  have hkept : b.zipIdx.map (fun v : Byte × Nat => v.1) = b := by simp
  unfold State.storeBy
  split
  · rfl
  · simp only [hwins, List.any_nil, Bool.false_eq_true, if_false, hkept]
    refine State.byteAt_of_mem ((State.foldl_mem _ _ _ fun u w => ?_).trans rfl) y
    simp only [State.ite_mem, State.collided_frame, ite_self]

/-! ## Line NEXT comes whole (R286) -/

/-- A stream with line NEXT alone in progress: the units that have come and the time of the last. -/
def Stream.taking (units : List Nat) (full : Option Nat) (x : Stream) : Stream :=
  { x with inProg := [{ line := x.next, units := units, refused := false, full := full }] }

/-- A stream whose line NEXT, alone in progress, has landed at a time. -/
def Stream.LandedNext (time : Nat) (x t : Stream) : Prop :=
  t.next = x.next + 1 ∧ t.landed = (x.next, time) :: x.landed ∧ t.inProg = []

/-- No landed line stands in the slot of line NEXT. -/
def Stream.SlotFree (x : Stream) : Prop := ∀ l ∈ x.landed, l.1 % max 1 x.depth ≠ x.next % max 1 x.depth

theorem Stream.SlotFree.landed_filter {x : Stream} (h : x.SlotFree) :
    x.landed.filter (fun l => l.1 % max 1 x.depth != x.next % max 1 x.depth) = x.landed :=
  List.filter_eq_self.mpr fun l hl => bne_iff_ne.mpr (h l hl)

/-- A line within four of NEXT makes no line missing. -/
theorem State.missTo_near {n p top : Nat} {s : State} (h : top < (s.stream n).next + 4) : s.missTo n p top = s := by
  have hfar : ¬ (s.stream n).next + 4 ≤ top := by omega
  have hfold (l : List Nat) :
      l.foldl (fun s _ => if (s.stream n).next + 4 ≤ top then s.missLine n p else s) s = s := by
    induction l with
    | nil => rfl
    | cons a l ih => rw [List.foldl_cons, if_neg hfar, ih]
  rw [State.missTo, hfold, if_neg hfar]

theorem State.openLine_next {n : Nat} {s : State} (hnone : (s.stream n).inProg = []) (hfree : (s.stream n).SlotFree) :
    s.openLine n (s.stream n).next = s.setStream n ((s.stream n).taking [] none) := by
  have hheld : ((s.stream n).landed.any fun l =>
      l.1 % max 1 (s.stream n).depth == (s.stream n).next % max 1 (s.stream n).depth && s.lineHeld n l.1) = false := by
    refine List.any_eq_false.mpr fun l hl => ?_
    rw [beq_false_of_ne (hfree l hl)]
    exact Bool.false_ne_true
  rw [State.openLine]
  dsimp only
  rw [if_neg (by rw [hheld]; exact Bool.false_ne_true), hfree.landed_filter, hnone]
  rfl

/-- The first j units of line NEXT have come, and their bytes stand in the line's slot. -/
def State.HasUnits (n : Nat) (x : Stream) (data : Bytes) (j : Nat) (s : State) : Prop :=
  s.stream n = x.taking (List.range j) none
    ∧ ∀ m, m < 64 * j → some (s.byteAt (x.lineAddr x.next 0 + m)) = data[m]?

/-- The next unit joins them. -/
theorem State.takeUnit_hasUnits {n p j : Nat} {x : Stream} {data : Bytes} {s : State}
    (haddr : x.lineAddr x.next ((64 * j : Nat) : Int) = x.lineAddr x.next 0 + 64 * j)
    (hdata : 64 * (j + 1) ≤ data.length) (hs : s.HasUnits n x data j) :
    (s.takeUnit n p x.next j (sliceBytes (64 * j) 64 data)).HasUnits n x data (j + 1) := by
  obtain ⟨hx, hbytes⟩ := hs
  have hnew : ((x.taking (List.range j) none).inProg.any fun m => m.line == x.next && m.units.contains j) = false := by
    simp [Stream.taking]
  have haddr' : (x.taking (List.range j) none).lineAddr x.next ((64 * j : Nat) : Int) = x.lineAddr x.next 0 + 64 * j :=
    haddr
  have hslice : sliceBytes (64 * j) 64 data = (data.drop (64 * j)).take 64 := by
    rw [sliceBytes, List.length_take, List.length_drop, show 64 - min 64 (data.length - 64 * j) = 0 by omega,
      List.replicate_zero, List.append_nil]
  rw [State.takeUnit]
  dsimp only
  rw [hx, hnew, haddr', Bool.false_and, if_neg Bool.false_ne_true]
  refine ⟨?_, fun m hm => ?_⟩
  · rw [State.stream_setStream_same, List.range_succ]
    simp [Stream.taking]
  · have hlen : (sliceBytes (64 * j) 64 data).length = 64 := by rw [hslice]; simp; omega
    change some ((s.storeBy 0 none _ _).byteAt _) = _
    rw [State.byteAt_storeBy_zero, State.byteAt_store, hlen]
    by_cases hj : m < 64 * j
    · rw [if_neg (by omega)]
      exact hbytes m hj
    · rw [if_pos (by omega), hslice, List.getD_eq_getElem?_getD, List.getElem?_take_of_lt (by omega),
        List.getElem?_drop, show 64 * j + (x.lineAddr x.next 0 + m - (x.lineAddr x.next 0 + 64 * j)) = m by omega,
        List.getElem?_eq_getElem (by omega)]
      rfl

/-- The whole line's units have come. -/
theorem State.takeUnits_hasUnits {n p k : Nat} {x : Stream} {data : Bytes} {s : State}
    (hfits : x.base + x.depth * x.pitch ≤ 0x200_0000) (hdepth : x.depth ≠ 0) (hpitch : x.pitch = 64 * k)
    (hdata : data.length = x.pitch) (hs : s.HasUnits n x data 0) (j : Nat) (hj : j ≤ k) :
    ((List.range j).foldl (fun s i => s.takeUnit n p x.next i (sliceBytes (64 * i) 64 data)) s).HasUnits n x data
      j := by
  induction j with
  | zero => exact hs
  | succ j ih =>
    rw [List.range_succ, List.foldl_append, List.foldl_cons, List.foldl_nil]
    exact State.takeUnit_hasUnits (Stream.lineAddr_add hfits hdepth x.next (by omega)) (by omega) (ih (by omega))

theorem State.completeLine_full {n : Nat} {x : Stream} {units : List Nat} {s : State}
    (hx : s.stream n = x.taking units none) (hfull : units.length * 64 = x.pitch) :
    s.completeLine n x.next = s.setStream n (x.taking units (some s.now)) := by
  rw [State.completeLine, State.modStream, hx]
  simp [Stream.taking, hfull]

theorem State.landMore_none {n p : Nat} {s : State} (h : (s.stream n).inProg = []) (fuel : Nat) :
    s.landMore n p fuel = s := by
  cases fuel with
  | zero => rfl
  | succ fuel =>
    rw [State.landMore, h]
    rfl

theorem State.landLine_landedNext {n p time : Nat} {x : Stream} {units : List Nat} {full : Option Nat} {s : State}
    (hx : s.stream n = x.taking units full) (hfree : x.SlotFree) :
    x.LandedNext time ((s.landLine n p time).stream n) := by
  have hstep : (x.taking units full).step.inProg = [] := by simp [Stream.step, Stream.taking]
  have hreport (c : Prop) [Decidable c] (u : State) (l : Nat) :
      (if c then u.lineReport p 2 l else u).stream n = u.stream n := by
    split
    · exact State.lineReport_stream ..
    · rfl
  rw [State.landLine]
  dsimp only
  rw [hx, hreport, State.stream_setStream_same]
  exact ⟨rfl, congrArg (List.cons _) hfree.landed_filter, hstep⟩

/-- A complete line NEXT lands, and no other line with it (R286). -/
theorem State.landMore_full {n p fuel time : Nat} {x : Stream} {units : List Nat} {s : State}
    (hx : s.stream n = x.taking units (some time)) (hfree : x.SlotFree) :
    x.LandedNext time ((s.landMore n p (fuel + 1)).stream n) := by
  have hland := State.landLine_landedNext (p := p) (time := time) hx hfree
  have hfind : ((x.taking units (some time)).inProg.find? fun m => m.line == (x.taking units (some time)).next)
      = some { line := x.next, units := units, refused := false, full := some time } := by
    simp [Stream.taking]
  rw [State.landMore, hx, hfind]
  dsimp only
  rw [if_neg Bool.false_ne_true, State.landMore_none hland.2.2]
  exact hland

/-- A payload from the start of line NEXT is written unit by unit (R285, R286). -/
theorem State.takePayload_next {n p : Nat} {data : Bytes} {x : Stream} {s : State} (hx : s.stream n = x)
    (hnone : x.inProg = []) (hfree : x.SlotFree) :
    s.takePayload n p x.next 0 data = (((List.range (data.length / 64)).foldl
      (fun u i => u.takeUnit n p x.next i (sliceBytes (64 * i) 64 data))
      (s.setStream n (x.taking [] none))).completeLine n x.next).landMore n p 8 := by
  subst hx
  have hhas : ((s.stream n).inProg.any fun m => m.line == (s.stream n).next) = false := by rw [hnone]; rfl
  have hsound : (((s.setStream n ((s.stream n).taking [] none)).stream n).inProg.any fun m =>
      m.line == (s.stream n).next && m.refused) = false := by
    rw [State.stream_setStream_same]
    simp [Stream.taking]
  rw [State.takePayload, hhas, if_neg Bool.false_ne_true, State.openLine_next hnone hfree, hsound,
    if_neg Bool.false_ne_true]
  simp only [Nat.zero_div, Nat.zero_add]

theorem State.takeLine_next {n p ofs : Nat} {data : Bytes} {s : State} :
    s.takeLine n p (s.stream n).next ofs data = s.takePayload n p (s.stream n).next ofs data := by
  rw [State.takeLine, if_neg (lt_irrefl _), Int.toNat_natCast, State.missTo_near (Nat.lt_add_of_pos_right (by decide))]

/-- The payload of the whole line NEXT lands it at the current device time, its bytes in the line's slot (R286). -/
theorem State.takePayload_lands {n p : Nat} {data : Bytes} {x : Stream} {s : State} (hx : s.stream n = x)
    (hunits : x.pitch % 64 = 0) (hdata : data.length = x.pitch) (hnone : x.inProg = []) (hfree : x.SlotFree)
    (hfits : x.base + x.depth * x.pitch ≤ 0x200_0000) (hdepth : x.depth ≠ 0) :
    x.LandedNext s.now ((s.takePayload n p x.next 0 data).stream n)
      ∧ ∀ m, m < x.pitch → some ((s.takePayload n p x.next 0 data).byteAt (x.lineAddr x.next m)) = data[m]? := by
  have hpitch : x.pitch = 64 * (data.length / 64) := by omega
  have hstart : (s.setStream n (x.taking [] none)).HasUnits n x data 0 :=
    ⟨State.stream_setStream_same .., fun m hm => absurd hm (by omega)⟩
  have hall := State.takeUnits_hasUnits (p := p) hfits hdepth hpitch hdata hstart _ le_rfl
  have hnow : ((List.range (data.length / 64)).foldl
      (fun u i => u.takeUnit n p x.next i (sliceBytes (64 * i) 64 data))
      (s.setStream n (x.taking [] none))).now = s.now :=
    State.foldl_now _ _ _ fun u i => by simp only [State.takeUnit_frame]
  rw [State.takePayload_next hx hnone hfree]
  generalize (List.range (data.length / 64)).foldl _ (s.setStream n (x.taking [] none)) = u at *
  obtain ⟨hu, hbytes⟩ := hall
  rw [State.completeLine_full hu (by rw [List.length_range]; omega), hnow]
  refine ⟨State.landMore_full (State.stream_setStream_same ..) hfree, fun m hm => ?_⟩
  rw [State.byteAt_of_mem (s := u) (by simp only [State.landMore_frame, State.setStream_frame]),
    Stream.lineAddr_add hfits hdepth x.next hm]
  exact hbytes m (by omega)

/-! ## Line packets (R282, R283, R286) -/

theorem exec_streamFrame_bad {k p n : Nat} {f b : Bytes} {s : State} (hp : p < 16) (hup : s.portUp p = true)
    (hline : s.lineFrame p f = some (n, b)) (hbad : (s.stream n).badHeader n b = true) :
    exec (.streamFrame k p f) s = .next ((((s.advance k).accepted p).setStream n { s.stream n with
      badHdr := min 0xFFFF_FFFF ((s.stream n).badHdr + 1) }).lineReport p 1 (numAt 8 4 b)) :=
  (exec_streamFrame_line hp hup hline).trans
    (congrArg _ (State.linePacket_bad (s := (s.advance k).accepted p) hbad))

theorem exec_streamFrame_late {k p n : Nat} {f b : Bytes} {s : State} (hp : p < 16) (hup : s.portUp p = true)
    (hline : s.lineFrame p f = some (n, b)) (hgood : (s.stream n).badHeader n b = false)
    (hlate : (s.stream n).lineOf (numAt 8 4 b) < (s.stream n).next) (hone : (s.stream n).secondary = none) :
    exec (.streamFrame k p f) s = .next ((((s.advance k).accepted p).setStream n { s.stream n with
      late := min 0xFFFF_FFFF ((s.stream n).late + 1) }).releaseDue (· == n)) :=
  (exec_streamFrame_line hp hup hline).trans (congrArg _
    ((State.linePacket_good (s := (s.advance k).accepted p) hgood).trans
      (congrArg _ (State.takeLine_late (s := (s.advance k).accepted p) hlate hone))))

theorem exec_streamFrame_next {k p n : Nat} {f b : Bytes} {s : State} (hp : p < 16) (hup : s.portUp p = true)
    (hline : s.lineFrame p f = some (n, b)) (hgood : (s.stream n).badHeader n b = false)
    (hnext : (s.stream n).lineOf (numAt 8 4 b) = (s.stream n).next) :
    exec (.streamFrame k p f) s = .next ((((s.advance k).accepted p).takePayload n p (s.stream n).next (numAt 0x0C 4 b)
      (b.drop 24)).releaseDue (· == n)) := by
  refine (exec_streamFrame_line hp hup hline).trans (congrArg _
    ((State.linePacket_good (s := (s.advance k).accepted p) hgood).trans (congrArg _ ?_)))
  rw [show ((s.advance k).accepted p).stream n = s.stream n from rfl, hnext]
  exact State.takeLine_next (s := (s.advance k).accepted p)

/-! ## The obligation -/

/-- Settles O38: a binding and its end answer by `exec_rebind_done`, a frame is a line packet or discarded, and the
whole line NEXT lands by `State.takePayload_lands`. -/
theorem streams : Obligations.Streams := by
  unfold Obligations.Streams
  refine ⟨?opens, ?held, ?closes, ?ends, ?waits, ?other, ?badHeader, ?lands, ?late⟩
  case opens =>
    intro h p s ha hparams hcheck
    exact exec_rebind_done (exec_streamOpen_accepted ha hparams hcheck)
  case held =>
    intro h p s ha hparams hbound
    exact exec_streamOpen_bound ha hparams hbound
  case closes =>
    intro h n s ha hn hbound hopen hnone
    exact exec_streamClose_accepted ha hn (streamCloseCheck_eq_none.mpr ⟨⟨hbound, hopen⟩, hnone⟩)
  case ends =>
    intro k n h s hup hclosing hidle
    exact exec_rebind_done (exec_streamCloseEffect_free hup hclosing hidle)
  case waits =>
    intro k n s hbusy
    exact exec_streamCloseEffect_busy hbusy
  case other =>
    intro k p f s hp hup hline
    exact exec_streamFrame_other hp hup hline
  case badHeader =>
    intro k p n f b s hp hup hline hbad
    refine ⟨_, exec_streamFrame_bad hp hup hline hbad, ?stream, fun m hm => ?others, ?port, State.report_held .., ?rest⟩
    case stream => rw [State.lineReport_stream, State.stream_setStream_same]
    case others =>
      rw [State.lineReport_stream, State.stream_setStream_ne hm, State.accepted_stream, State.advance_stream]
    case port => rw [State.lineReport_port, State.port_setStream, State.accepted_port, State.advance_port]
    case rest =>
      rw [State.lineReport, State.report_eq]
      rfl
  case lands =>
    intro k p n f b s hp hup hline hgood hnext hofs hlen hnone hfree hfits hdepth
    obtain ⟨hunits, hlength⟩ := Stream.payload_of_goodHeader hgood
    have hdata : (b.drop 24).length = (s.stream n).pitch := by rw [List.length_drop]; omega
    obtain ⟨⟨hmoved, hlanded, hempty⟩, hbytes⟩ := State.takePayload_lands (p := p) (s := (s.advance k).accepted p)
      (x := s.stream n) rfl (hlen ▸ hunits) hdata hnone hfree hfits hdepth
    refine ⟨_, exec_streamFrame_next hp hup hline hgood hnext, ?_⟩
    rw [hofs, State.releaseDue_stream]
    refine ⟨hmoved, hlanded, hempty, fun i hi => ?_⟩
    rw [State.releaseDue_byteAt, ← List.getElem?_drop]
    exact hbytes i hi
  case late =>
    intro k p n f b s hp hup hline hgood hlate hone
    refine ⟨_, exec_streamFrame_late hp hup hline hgood hlate hone, ?counted, ?accepted, ?mem⟩
    case counted => rw [State.releaseDue_stream, State.stream_setStream_same]
    case accepted => rw [State.releaseDue_port, State.port_setStream, State.accepted_port, State.advance_port]
    case mem => simp only [State.releaseDue_frame, State.setStream_frame, State.accepted_frame, State.advance_frame]

end Sys2Proof.Machine
end

section
/-! PROOF. What the changes of the tables leave as it was: memory below the table pool, and the pages and tables held
(R217, R230, R231); for O45. -/

namespace Sys2Proof.Machine

/-! ## Writes of the table pool -/

/-- Dropped bytes read 0, and every other byte as it was. -/
theorem memByte_memClear (m : List Host.Cell) (lo hi a : Nat) :
    memByte (memClear m lo hi) a = if lo ≤ a ∧ a < hi then 0 else memByte m a := by
  simp only [memByte, memClear]
  induction m with
  | nil => exact (ite_self _).symm
  | cons c m ih =>
    obtain ⟨k, v⟩ := c
    rw [List.filter_cons, tget_cons]
    by_cases hkept : k < lo ∨ hi ≤ k
    · rw [if_pos (by simpa using hkept), tget_cons, ih]
      by_cases hk : k = a
      · rw [if_pos hk, if_pos hk, if_neg (by omega)]
      · rw [if_neg hk, if_neg hk]
    · rw [if_neg (by simpa using hkept), ih]
      by_cases hin : lo ≤ a ∧ a < hi
      · rw [if_pos hin, if_pos hin]
      · rw [if_neg hin, if_neg hin, if_neg (by omega)]

/-- A wiped range reads 0, and every other byte as it was. -/
theorem State.byteAt_wipe (lo n a : Nat) (s : State) :
    (s.wipe lo n).byteAt a = if lo ≤ a ∧ a < lo + n then 0 else s.byteAt a := memByte_memClear ..

/-- State t is s after writes of the table pool or its mirror (R231): memory below the pool stands, and beside memory
only the marks of units in error may have gone. -/
structure State.PoolWrite (s t : State) : Prop where
  below : ∀ a, a < poolBase → t.byteAt a = s.byteAt a
  marks : t.ms = { s.ms with poison := t.ms.poison, errs := t.ms.errs }
  rest : t = { s with mem := t.mem, ms := t.ms }

theorem State.PoolWrite.refl (s : State) : s.PoolWrite s := ⟨fun _ _ => rfl, rfl, rfl⟩

theorem State.PoolWrite.trans {s t u : State} (h : s.PoolWrite t) (k : t.PoolWrite u) : s.PoolWrite u where
  below a ha := (k.below a ha).trans (h.below a ha)
  marks := by rw [k.marks, h.marks]
  rest := by rw [k.rest, h.rest]

theorem State.PoolWrite.pages {s t : State} (h : s.PoolWrite t) : t.ms.pages = s.ms.pages := by rw [h.marks]

theorem State.PoolWrite.tables {s t : State} (h : s.PoolWrite t) : t.ms.tables = s.ms.tables := by rw [h.marks]

theorem State.PoolWrite.pendings {s t : State} (h : s.PoolWrite t) : t.ms.pendings = s.ms.pendings := by rw [h.marks]

theorem State.PoolWrite.asids {s t : State} (h : s.PoolWrite t) : t.ms.asids = s.ms.asids := by rw [h.marks]

theorem State.PoolWrite.foldl {α : Type} {g : State → α → State} (h : ∀ (t : State) a, t.PoolWrite (g t a))
    (l : List α) (s : State) : s.PoolWrite (l.foldl g s) :=
  foldl_keeps (fun t => s.PoolWrite t) g l s (.refl s) fun _ _ ht => ht.trans (h _ _)

theorem State.PoolWrite.store {a : Nat} (ha : poolBase ≤ a) (b : Bytes) (s : State) : s.PoolWrite (s.store a b) where
  below x hx := by rw [State.byteAt_store, if_neg (by omega)]
  marks := rfl
  rest := rfl

theorem State.PoolWrite.wipe {lo : Nat} (hlo : poolBase ≤ lo) (n : Nat) (s : State) : s.PoolWrite (s.wipe lo n) where
  below x hx := by rw [State.byteAt_wipe, if_neg (by omega)]
  marks := rfl
  rest := rfl

theorem poolBase_le_mirror (o : Nat) : poolBase ≤ mirrorBase + o := Nat.le_add_right_of_le (by decide)

theorem State.putEntry_poolWrite (o v : Nat) (s : State) : s.PoolWrite (s.putEntry o v) :=
  (State.PoolWrite.store (Nat.le_add_right ..) _ s).trans (.store (poolBase_le_mirror o) _ _)

theorem State.putEntries_poolWrite (own : Bool) (asid va : Nat) (s : State) :
    s.PoolWrite (s.putEntries own asid va) := by
  rw [State.putEntries]
  refine State.PoolWrite.foldl (fun t x => ?_) _ s
  obtain ⟨e, -⟩ := x
  exact State.putEntry_poolWrite e.1 e.2 t

section
variable (own : Bool) (asid va : Nat) (s : State)

theorem State.putEntries_pages : (s.putEntries own asid va).ms.pages = s.ms.pages :=
  (State.putEntries_poolWrite own asid va s).pages

theorem State.putEntries_pendings : (s.putEntries own asid va).ms.pendings = s.ms.pendings :=
  (State.putEntries_poolWrite own asid va s).pendings

end

theorem State.byteAt_putEntries {own : Bool} {asid va a : Nat} {s : State} (ha : a < poolBase) :
    (s.putEntries own asid va).byteAt a = s.byteAt a := (State.putEntries_poolWrite own asid va s).below a ha

/-- The return of tables leaves the pages held. -/
theorem MemSys.returnTables_pages (m : MemSys) : m.returnTables.pages = m.pages := rfl

theorem MemSys.returnTables_pendings (m : MemSys) : m.returnTables.pendings = m.pendings := rfl

theorem State.clearTables_poolWrite (old : List PTable) (s : State) : s.PoolWrite (s.clearTables old) := by
  unfold State.clearTables
  refine .foldl (fun t x => ?_) _ s
  exact (State.PoolWrite.wipe (Nat.le_add_right ..) _ t).trans (.wipe (poolBase_le_mirror x.ofs) _ _)

/-- A list with one new table has that table cleared, in both copies (R231). -/
theorem State.byteAt_clearTables {x : PTable} {old : List PTable} {s : State} (hx : x ∉ old)
    (hs : s.ms.tables = x :: old) (a : Nat) :
    (s.clearTables old).byteAt a =
      if poolBase + x.ofs ≤ a ∧ a < poolBase + x.ofs + tableBytes x.level
        ∨ mirrorBase + x.ofs ≤ a ∧ a < mirrorBase + x.ofs + tableBytes x.level then 0 else s.byteAt a := by
  have hnew : (s.ms.tables.filter fun t => !old.contains t) = [x] := by
    rw [hs, List.filter_cons, if_pos (by simpa using hx), List.filter_eq_nil_iff.mpr fun t ht => by simpa using ht]
  rw [State.clearTables, hnew, List.foldl_cons, List.foldl_nil, State.byteAt_wipe, State.byteAt_wipe, ← ite_or]
  exact if_congr or_comm rfl rfl

/-! ## The cache entries dropped (R233) -/

/-- A pillow without the cache entries of an address space, or of one page of it. -/
def Pillow.uncached (asid : Nat) (va : Option Nat) (x : Pillow) : Pillow :=
  { x with tc := x.tc.filter fun e => !(e.asid == asid && va.elim true fun v => e.va == v) }

theorem State.dropCached_eq (asid : Nat) (va : Option Nat) (s : State) :
    s.dropCached asid va = s.mapPillows fun _ x => x.uncached asid va := rfl

theorem State.dropCached_rest (asid : Nat) (va : Option Nat) (s : State) :
    s.dropCached asid va = { s with pillows := (s.dropCached asid va).pillows } :=
  State.eq_of_parts (by simp only [State.dropCached_frame, and_self])

theorem State.pillow_dropCached {p : Nat} (hp : p < 48) (asid : Nat) (va : Option Nat) (s : State) :
    (s.dropCached asid va).pillow p = (s.pillow p).uncached asid va := by
  rw [State.dropCached_eq, State.pillow_mapPillows, if_pos hp]

theorem State.dropCached_sameWork (asid : Nat) (va : Option Nat) (s : State) : s.SameWork (s.dropCached asid va) :=
  State.SameWork.mapPillows (f := fun _ x => x.uncached asid va) (fun _ _ => rfl) s

theorem Pillow.uncached_space (asid : Nat) (x : Pillow) :
    x.uncached asid none = { x with tc := x.tc.filter (·.asid != asid) } := by
  simp only [Pillow.uncached, Option.elim_none, Bool.and_true, bne]

theorem Pillow.mem_uncached_page {asid va : Nat} {e : TcEntry} {x : Pillow} :
    e ∈ (x.uncached asid (some va)).tc ↔ e ∈ x.tc ∧ ¬ (e.asid = asid ∧ e.va = va) := by
  simp [Pillow.uncached, -not_and, not_and_or]

/-! ## What a reply leaves -/

section
variable (h : Hdr) (op form : Nat) (b : Bytes) (s : State)

theorem State.done_ms : (s.done h op form b).ms = s.ms := by simp only [State.done_frame]

theorem State.done_byteAt (a : Nat) : (s.done h op form b).byteAt a = s.byteAt a :=
  State.byteAt_of_mem (by simp only [State.done_frame]) a

theorem State.done_pillow (p : Nat) : (s.done h op form b).pillow p = s.pillow p :=
  State.pillow_of_pillows (by simp only [State.done_frame]) p

end

/-! ## Stages that may go on, where none is suspended (R251) -/

/-- Two states have the same pillows, however their tables list them, and agree in the rest. -/
structure State.SamePillows (s t : State) : Prop where
  pillow : ∀ p, t.pillow p = s.pillow p
  rest : t = { s with pillows := t.pillows }

theorem State.SamePillows.trans {s t u : State} (h : s.SamePillows t) (k : t.SamePillows u) : s.SamePillows u where
  pillow p := (k.pillow p).trans (h.pillow p)
  rest := by rw [k.rest, h.rest]

theorem State.SamePillows.ms {s t : State} (h : s.SamePillows t) : t.ms = s.ms := by rw [h.rest]

theorem State.SamePillows.queues {s t : State} (h : s.SamePillows t) : t.queues = s.queues := by rw [h.rest]

theorem State.SamePillows.byteAt {s t : State} (h : s.SamePillows t) (a : Nat) : t.byteAt a = s.byteAt a :=
  State.byteAt_of_mem (by rw [h.rest]) a

theorem State.SamePillows.quiet {s t : State} (h : s.SamePillows t) (hq : Quiet s) : Quiet t := fun p =>
  h.pillow p ▸ hq p

theorem State.resumeOn_quiet (p : Nat) {s : State} (hq : Quiet s) : s.SamePillows (s.resumeOn p) := by
  obtain ⟨-, -, -, -, hsaves⟩ := hq p
  have heq : s.resumeOn p = s.setPillow p (s.pillow p) := by
    rw [State.resumeOn, hsaves]
    change s.setPillow p { s.pillow p with saves := [] } = _
    rw [← hsaves]
  rw [heq]
  exact ⟨fun q => State.pillow_setPillow_self p q s, rfl⟩

theorem State.resumeLegal_quiet (n : Nat) {s : State} (hq : Quiet s) : s.SamePillows (s.resumeLegal n) := by
  induction n generalizing s with
  | zero => exact ⟨fun _ => rfl, rfl⟩
  | succ n ih =>
    have hon := State.resumeOn_quiet n hq
    exact hon.trans (ih (hon.quiet hq))

/-- With no work on any pillow nothing resumes. -/
theorem State.resumeAll_quiet {s : State} (hq : Quiet s) : s.SamePillows s.resumeAll := by
  have hlegal := State.resumeLegal_quiet nPillows hq
  rw [State.resumeAll, State.settlePillows_quiet _ (hlegal.quiet hq)]
  exact hlegal

end Sys2Proof.Machine
end

section
/-! PROOF. O45: MAP_CREATE, MAP_PAGE and MAP_PIN (R228 to R231, R233, R235, R425 to R427). -/

namespace Sys2Proof.Machine

/-! ## MAP_CREATE (R228, R425) -/

theorem mapCreateParams {asid op : Nat} (hasid : asid ≤ 1023) (hop : op ≤ 1) :
    firstOf [require (decide (asid ≤ 1023)) (paramBadAt 8), require (decide (op ≤ 1)) (paramBadAt 0x0A)] = none := by
  simp [hasid, hop, firstOf]

theorem mapCreate_accepted {h : Hdr} {asid op : Nat} {s : State} (ha : s.accepts Op.mapCreate false = true)
    (hasid : asid ≤ 1023) (hop : op ≤ 1) (hcheck : mapCreateCheck asid op s = none) :
    exec (.mapCreate h asid op) s = .next (((s.advance h.t).mapCreate asid op).done h Op.mapCreate 0 []) :=
  (exec_mapCreate h asid op s).trans (hostCommand_accepted (mapCreateParams hasid hop) ha hcheck)

/-- A space that does not exist and has room for its level-1 table may be created. -/
theorem mapCreateCheck_create {asid : Nat} {ts : List PTable} {s : State} (hnew : asid ∉ s.ms.asids)
    (halloc : allocTable s.ms.tables 1 asid 0 = some ts) : mapCreateCheck asid 0 s = none := by
  simp [mapCreateCheck, firstOf, hnew, halloc]

theorem mapCreateCheck_exists {asid : Nat} {s : State} (hold : asid ∈ s.ms.asids) :
    mapCreateCheck asid 0 s = some (resHeld Op.mapCreate Op.mapCreate 9 asid 0xFF 0xFFFF_FFFF) := by
  rw [mapCreateCheck, if_pos rfl, List.contains_eq_mem, decide_eq_true hold]
  rfl

/-- A space that no template and no loose job names may be deleted. -/
theorem mapCreateCheck_delete {asid : Nat} {s : State} (hold : asid ∈ s.ms.asids)
    (htempl : ∀ x ∈ s.admitted, x.2.p.asid ≠ asid) (hjobs : ∀ x ∈ s.liveJobs, x.2.pinned = false → x.2.asid ≠ asid) :
    mapCreateCheck asid 1 s = none := by
  have hnoTempl : s.asidTemplate asid = none := by
    rw [State.asidTemplate, Option.map_eq_none_iff, List.find?_eq_none]
    exact fun x hx he => htempl x hx (beq_iff_eq.mp he)
  have hnoJob : s.asidJob asid = none := by
    rw [State.asidJob, List.find?_eq_none]
    intro x hx he
    obtain ⟨hloose, hnames⟩ := Bool.and_eq_true_iff.mp he
    exact hjobs x hx ((Bool.not_eq_true' _).mp hloose) (beq_iff_eq.mp hnames)
  simp [mapCreateCheck, firstOf, State.needAsid, hold, hnoTempl, hnoJob]

/-- An address space is listed, and the tables are those of a list. -/
def State.withSpace (asid : Nat) (ts : List PTable) (s : State) : State :=
  { s with ms := { s.ms with asids := asid :: s.ms.asids, tables := ts } }

theorem State.mapCreate_create {asid : Nat} {ts : List PTable} {s : State}
    (halloc : allocTable s.ms.tables 1 asid 0 = some ts) :
    s.mapCreate asid 0 = (s.withSpace asid ts).clearTables s.ms.tables := by
  rw [State.mapCreate]
  dsimp only
  rw [if_pos rfl, halloc, Option.getD_some]
  rfl

/-- The pages and tables of an address space are gone, and a MAP_PAGE of it that waits maps nothing. -/
def State.withoutSpace (asid : Nat) (s : State) : State :=
  { s with ms := { s.ms with
    asids := s.ms.asids.filter (· != asid), pages := s.ms.pages.filter (·.asid != asid)
    tables := s.ms.tables.filter (·.asid != asid)
    pendings := s.ms.pendings.map fun q => if q.p.asid = asid then { q with gone := true } else q } }

theorem State.mapCreate_delete (asid : Nat) (s : State) :
    s.mapCreate asid 1 = (s.withoutSpace asid).dropCached asid none := rfl

/-! ## MAP_PAGE (R229, R233, R426) -/

theorem mapPageParams {p : MapPageParams} (hasid : p.asid ≤ 1023) (hop : p.op ≤ 2) (hva : p.va < 2 ^ 48)
    (hpa : p.pa < 2 ^ 48) (hzero : p.op = 0 ∨ p.pa = 0) :
    firstOf [require (decide (p.asid ≤ 1023)) (paramBadAt 8), require (decide (p.op ≤ 2)) (paramBadAt 0x0A),
      require (decide (p.va < 2 ^ 48)) (paramBadAt 0x0C),
      require (decide (p.pa < 2 ^ 48) && (p.op == 0 || p.pa == 0)) (paramBadAt 0x14)] = none := by
  simp only [firstOf_cons_eq_none, require_eq_none, decide_eq_true_eq, Bool.and_eq_true, Bool.or_eq_true, beq_iff_eq]
  exact ⟨hasid, hop, hva, ⟨hpa, hzero⟩, rfl⟩

/-- The tables that stand once a MAP_PAGE is accepted. -/
def mapPageTables (p : MapPageParams) (ts : List PTable) : List PTable :=
  if p.op = 0 then (pageTables p.asid p.va p.big ts).getD ts else ts

/-- An accepted MAP_PAGE waits: beside its tables and their entries nothing changes yet (R233). -/
theorem mapPageDo_poolWrite (h : Hdr) (p : MapPageParams) (s : State) :
    State.PoolWrite { s with ms := { s.ms with
      tables := mapPageTables p s.ms.tables, pendings := s.ms.pendings ++ [{ h := h, p := p }] } }
      (mapPageDo h p s) := by
  rw [mapPageDo]
  dsimp only
  by_cases hop : p.op = 0
  · rw [if_pos hop]
    exact (State.clearTables_poolWrite ..).trans (State.putEntries_poolWrite ..)
  · rw [if_neg hop]
    exact .refl _

/-! ## The end of its drain (R233) -/

/-- The pages held once a MAP_PAGE has taken effect (R426). -/
def changedPages (p : MapPageParams) (ps : List Page) : List Page := (MemSys.changePage p { pages := ps }).pages

/-- A MAP_PAGE's change is one of the pages alone. -/
theorem MemSys.changePage_eq (p : MapPageParams) (m : MemSys) :
    m.changePage p = { m with pages := changedPages p m.pages } := by
  unfold changedPages MemSys.changePage
  dsimp only
  split
  · rfl
  · split <;> rfl

theorem mem_changedPages_map {p : MapPageParams} {ps : List Page} {g : Page} (hop : p.op = 0) :
    g ∈ changedPages p ps ↔
      g = { asid := p.asid, va := p.va, pa := p.pa, big := p.big, r := p.r, w := p.w, pin := false }
        ∨ g ∈ ps ∧ ¬ (g.asid = p.asid ∧ g.va = p.va ∧ g.big = p.big) := by
  simp [changedPages, MemSys.changePage, hop, -not_and, not_and_or, or_assoc]

theorem mem_changedPages_unmap {p : MapPageParams} {ps : List Page} {g : Page} (hop : p.op = 2) :
    g ∈ changedPages p ps ↔ g ∈ ps ∧ ¬ (g.asid = p.asid ∧ g.va = p.va ∧ g.big = p.big) := by
  simp [changedPages, MemSys.changePage, hop, -not_and, not_and_or, or_assoc]

/-- A page and the entries that cover it change, and the tables whose last entry is gone are returned (R230, R231). -/
def State.rewritePage (p : MapPageParams) (s : State) : State :=
  let s := ({ s with ms := s.ms.changePage p }).putEntries true p.asid p.va
  ({ s with ms := s.ms.returnTables }).putEntries false p.asid p.va

/-- A MAP_PAGE waits no more, and the caches have dropped its page (R233). -/
def State.waitless (q : MapPending) (s : State) : State :=
  { s with ms := { s.ms with pendings := s.ms.pendings.erase q } }.dropCached q.p.asid (some q.p.va)

/-- What a MAP_PAGE that still passes its checks does when its drain ends. -/
theorem State.mapPageEffect_eq {q : MapPending} {s : State} (hlate : s.lateCheck q = none) :
    s.mapPageEffect q = ((s.waitless q).rewritePage q.p).resumeAll.done q.h Op.mapPage 0 [] := by
  have hlate' : State.lateCheck q { s with ms := { s.ms with pendings := s.ms.pendings.erase q } } = none := hlate
  rw [State.mapPageEffect]
  dsimp only
  rw [hlate']
  rfl

section
variable (p : MapPageParams) (s : State)

theorem State.rewritePage_pillows : (s.rewritePage p).pillows = s.pillows := by
  simp only [State.rewritePage, State.putEntries_frame]

theorem State.rewritePage_queues : (s.rewritePage p).queues = s.queues := by
  simp only [State.rewritePage, State.putEntries_frame]

theorem State.rewritePage_pages : (s.rewritePage p).ms.pages = changedPages p s.ms.pages := by
  rw [State.rewritePage, State.putEntries_pages, MemSys.returnTables_pages, State.putEntries_pages,
    MemSys.changePage_eq]

theorem State.rewritePage_pendings : (s.rewritePage p).ms.pendings = s.ms.pendings := by
  rw [State.rewritePage, State.putEntries_pendings, MemSys.returnTables_pendings, State.putEntries_pendings,
    MemSys.changePage_eq]

end

theorem State.byteAt_rewritePage {p : MapPageParams} {s : State} {a : Nat} (ha : a < poolBase) :
    (s.rewritePage p).byteAt a = s.byteAt a :=
  (State.byteAt_putEntries ha).trans (State.byteAt_putEntries ha)

/-- With no work on any pillow, the MAP_PAGE that a drain's end names and that still passes its checks takes effect:
its page changes, the caches have dropped it, and the reply goes (R233). -/
theorem exec_mapPageDrainEnd_quiet {n : Nat} {tag : BitVec 32} {q : MapPending} {s : State} (hq : Quiet s)
    (hfind : s.ms.pendings.find? (fun q => q.h.tag == tag) = some q) (hlate : s.lateCheck q = none) :
    ∃ t, exec (.mapPageDrainEnd n tag) s = .next t ∧ Replied q.h Op.mapPage Status.ok [] s t
      ∧ t.ms.pages = changedPages q.p s.ms.pages ∧ t.ms.pendings = s.ms.pendings.erase q
      ∧ (∀ a, a < poolBase → t.byteAt a = s.byteAt a)
      ∧ (∀ p, p < 48 → ∀ e ∈ (t.pillow p).tc, e ∈ (s.pillow p).tc ∧ ¬ (e.asid = q.p.asid ∧ e.va = q.p.va)) := by
  have hquiet : Quiet (((s.advance n).waitless q).rewritePage q.p) :=
    (hq.of_sameWork (State.dropCached_sameWork q.p.asid (some q.p.va) s)).of_sameWork
      (.of_pillows (State.rewritePage_pillows q.p ((s.advance n).waitless q)))
  have hresume := State.resumeAll_quiet hquiet
  have hexec : exec (.mapPageDrainEnd n tag) s
      = .next ((((s.advance n).waitless q).rewritePage q.p).resumeAll.done q.h Op.mapPage 0 []) := by
    have hfind' : (s.advance n).ms.pendings.find? (fun q => q.h.tag == tag) = some q := hfind
    rw [exec_mapPageDrainEnd, execMapPageDrainEnd, hfind']
    exact congrArg _ (State.mapPageEffect_eq (s := s.advance n) hlate)
  refine ⟨_, hexec, (State.done_replied ..).of_queues ?queues, ?pages, ?pendings, fun a ha => ?bytes,
    fun p hp e he => Pillow.mem_uncached_page.mp ?cached⟩
  case queues =>
    rw [hresume.queues, State.rewritePage_queues]
    rfl
  case pages => rw [State.done_ms, hresume.ms, State.rewritePage_pages]; rfl
  case pendings => rw [State.done_ms, hresume.ms, State.rewritePage_pendings]; rfl
  case bytes => rw [State.done_byteAt, hresume.byteAt, State.byteAt_rewritePage ha]; rfl
  case cached =>
    rw [State.done_pillow, hresume.pillow, State.pillow_of_pillows (State.rewritePage_pillows ..)] at he
    exact State.pillow_dropCached hp q.p.asid (some q.p.va) s ▸ he

/-! ## MAP_PIN (R235, R427) -/

/-- The pages held are those of a list. -/
def State.withPages (ps : List Page) (s : State) : State := { s with ms := { s.ms with pages := ps } }

/-- The pages that MAP_PIN changes have their PIN bits set, and their entries are rewritten (R230, R235). -/
def State.repin (asid op va size : Nat) (s : State) : State :=
  let ch := pinChanges asid op va (va + size)
  (s.ms.pages.filter ch).foldl (fun s g => s.putEntries true asid g.va)
    (s.withPages (s.ms.pages.map fun g => if ch g then { g with pin := op == 0 } else g))

theorem mapPinDo_eq (h : Hdr) (asid op va size : Nat) (s : State) :
    mapPinDo h asid op va size s = (s.repin asid op va size).resumeAll.done h Op.mapPin 0
      (leBytes 4 (s.ms.pages.filter (pinChanges asid op va (va + size))).length) := rfl

theorem State.repin_poolWrite (asid op va size : Nat) (s : State) :
    (s.withPages (s.ms.pages.map fun g =>
      if pinChanges asid op va (va + size) g then { g with pin := op == 0 } else g)).PoolWrite
      (s.repin asid op va size) := by
  rw [State.repin]
  refine State.PoolWrite.foldl (fun t g => ?_) _ _
  exact State.putEntries_poolWrite true asid g.va t

/-- A page that already has the PIN bit which MAP_PIN sets is as it leaves it. -/
theorem pinned_eq (asid op lo hi : Nat) (g : Page) :
    (if pinChanges asid op lo hi g = true then { g with pin := op == 0 } else g)
      = if g.asid = asid ∧ g.meets lo hi = true then { g with pin := op == 0 } else g := by
  by_cases hpin : g.pin = (op == 0)
  · rw [← hpin, ite_self, ite_self]
  · simp [pinChanges, hpin]

theorem State.firstHole_advance (n asid hi fuel va : Nat) (s : State) :
    (s.advance n).firstHole asid hi fuel va = s.firstHole asid hi fuel va := by
  induction fuel generalizing va with
  | zero => rfl
  | succ fuel ih =>
    have hpage : (s.advance n).pageAt asid va = s.pageAt asid va := rfl
    simp only [State.firstHole, hpage, ih]

/-- MAP_PIN's own checks do not depend on device time. -/
theorem mapPinCheck_advance (n asid op va size : Nat) (s : State) :
    mapPinCheck asid op va size (s.advance n) = mapPinCheck asid op va size s := by
  rw [mapPinCheck, State.firstHole_advance]
  rfl

theorem mapPinParams {asid op va size : Nat} (hasid : asid ≤ 1023) (hop : op ≤ 1) (hpage : va % 0x1_0000 = 0)
    (hva : va < 2 ^ 48) (hsome : size ≠ 0) (hwhole : size % 0x1_0000 = 0) :
    firstOf [require (decide (asid ≤ 1023)) (paramBadAt 8), require (decide (op ≤ 1)) (paramBadAt 0x0A),
      require (decide (va % 0x1_0000 = 0) && decide (va < 2 ^ 48)) (paramBadAt 0x0C),
      require (decide (size ≠ 0) && decide (size % 0x1_0000 = 0)) (paramBadAt 0x14)] = none := by
  simp only [firstOf_cons_eq_none, require_eq_none, decide_eq_true_eq, Bool.and_eq_true]
  exact ⟨hasid, hop, ⟨hpage, hva⟩, ⟨hsome, hwhole⟩, rfl⟩

/-! ## The obligation -/

/-- Settles O45: a change of the tables is a `State.PoolWrite`, whose bytes lie in the pool or its mirror; a drain's end
takes effect by `State.mapPageEffect_eq`, and where no pillow has work nothing resumes (`State.resumeAll_quiet`). -/
theorem addressSpaces : Obligations.AddressSpaces := by
  unfold Obligations.AddressSpaces
  refine ⟨?creates, ?held, ?deletes, ?waits, ?maps, ?unmaps, ?pins⟩
  case creates =>
    intro h asid x s ha hasid hnew halloc hx
    have hexec := mapCreate_accepted (h := h) ha hasid (Nat.zero_le 1) (mapCreateCheck_create hnew halloc)
    rw [State.mapCreate_create (s := s.advance h.t) halloc] at hexec
    have hwrite := State.clearTables_poolWrite s.ms.tables ((s.advance h.t).withSpace asid (x :: s.ms.tables))
    have htables : (s.advance h.t).ms.tables = s.ms.tables := rfl
    refine ⟨_, hexec, (State.done_replied ..).of_queues ?queues, ?asids, ?tables, ?pages, fun a => ?bytes, ?rest⟩
    case queues => rw [htables, hwrite.rest]; rfl
    case asids => rw [State.done_ms]; exact hwrite.asids
    case tables => rw [State.done_ms]; exact hwrite.tables
    case pages => rw [State.done_ms]; exact hwrite.pages
    case bytes => rw [State.done_byteAt]; exact State.byteAt_clearTables hx rfl a
    case rest =>
      rw [State.done_eq, htables, hwrite.rest]
      rfl
  case held =>
    intro h asid s ha hasid hold
    have hcheck := mapCreateCheck_exists (s := s.advance h.t) hold
    exact .of_refuse (form := 0) ((exec_mapCreate h asid 0 s).trans
      (hostCommand_refused (mapCreateParams hasid (Nat.zero_le 1)) ha hcheck))
  case deletes =>
    intro h asid s ha hasid hold htempl hjobs
    have hexec := mapCreate_accepted (h := h) ha hasid le_rfl (mapCreateCheck_delete hold htempl hjobs)
    rw [State.mapCreate_delete] at hexec
    refine ⟨_, hexec, (State.done_replied ..).of_queues ?queues, ?ms, fun p hp => ?pillow, ?rest⟩
    case queues => simp only [State.dropCached_frame]; rfl
    case ms => simp only [State.done_ms, State.dropCached_frame]; rfl
    case pillow =>
      rw [State.done_pillow, State.pillow_dropCached hp, Pillow.uncached_space]
      rfl
    case rest =>
      have hdrop := State.dropCached_rest asid none ((s.advance h.t).withoutSpace asid)
      generalize ((s.advance h.t).withoutSpace asid).dropCached asid none = u at hdrop ⊢
      rw [State.done_eq, hdrop]
      rfl
  case waits =>
    intro h p s ha hasid hop hva hpa hzero hcheck
    have hexec : exec (.mapPage h p) s = .next (mapPageDo h p (s.advance h.t)) :=
      (exec_mapPage h p s).trans (hostCommand_accepted (mapPageParams hasid hop hva hpa hzero) ha hcheck)
    have hwrite := mapPageDo_poolWrite h p (s.advance h.t)
    refine ⟨_, hexec, hwrite.pendings, hwrite.pages, hwrite.asids, hwrite.below, ?rest⟩
    rw [hwrite.rest]
    rfl
  case maps =>
    intro n tag q s hq hfind hop hlate
    obtain ⟨t, hexec, hreply, hpages, hpend, hbytes, hcached⟩ := exec_mapPageDrainEnd_quiet (n := n) hq hfind hlate
    refine ⟨t, hexec, hreply, fun g => ?_, hpend, hbytes, hcached⟩
    rw [hpages, mem_changedPages_map hop]
  case unmaps =>
    intro n tag q s hq hfind hop hlate
    obtain ⟨t, hexec, hreply, hpages, -, hbytes, hcached⟩ := exec_mapPageDrainEnd_quiet (n := n) hq hfind hlate
    refine ⟨t, hexec, hreply, fun g => ?_, hbytes, hcached⟩
    rw [hpages, mem_changedPages_unmap hop]
  case pins =>
    intro h asid op va size s hq ha hasid hop hpage hva hsome hwhole hcheck
    have hexec : exec (.mapPin h asid op va size) s = .next (mapPinDo h asid op va size (s.advance h.t)) :=
      (exec_mapPin h asid op va size s).trans
        (hostCommand_accepted (mapPinParams hasid hop hpage hva hsome hwhole) ha
          ((mapPinCheck_advance ..).trans hcheck))
    have hwrite := State.repin_poolWrite asid op va size (s.advance h.t)
    have hresume := State.resumeAll_quiet (s := (s.advance h.t).repin asid op va size)
      (hq.of_sameWork (.of_pillows (by rw [hwrite.rest]; rfl)))
    rw [mapPinDo_eq] at hexec
    refine ⟨_, hexec, ?reply, ?pages, ?tables, fun a ha => ?bytes, fun p hp => ?cached⟩
    case reply =>
      rw [List.countP_eq_length_filter]
      refine (State.done_replied ..).of_queues ?_
      rw [hresume.rest, hwrite.rest]
      rfl
    case pages =>
      rw [State.done_ms, hresume.ms, hwrite.pages]
      exact List.map_congr_left fun g _ => pinned_eq asid op va (va + size) g
    case tables => rw [State.done_ms, hresume.ms, hwrite.tables]; rfl
    case bytes => rw [State.done_byteAt, hresume.byteAt, hwrite.below a ha]; rfl
    case cached =>
      rw [State.done_pillow, hresume.pillow, hwrite.rest]
      rfl

end Sys2Proof.Machine
end

section
/-! PROOF. O23: an error-class latch keeps its first report and counts the rest (R272, R273). -/

namespace Sys2Proof.Machine

/-! ## The latch of a class -/

theorem State.latch_setLatch_ne {k j : Nat} (h : j ≠ k) (l : Latch) (s : State) :
    (s.setLatch k l).latch j = s.latch j := (State.latch_setLatch k j l s).trans (if_neg h)

@[simp] theorem State.putQueue_latch (q c : Nat) (x : Queue) (s : State) : (s.putQueue q x).latch c = s.latch c := by
  unfold State.putQueue
  dsimp only
  split <;> rfl

/-- Presenting a latch's entry moves that latch's marks of the error queue, and nothing else of any latch (R273). -/
theorem State.presentLatch_latch (cls : Nat) (s : State) : ∃ outside lost, ∀ c, (s.presentLatch cls).latch c
    = if c = cls then { s.latch cls with outside := outside, lost := lost } else s.latch c := by
  unfold State.presentLatch
  dsimp only
  split
  case isTrue =>
    refine ⟨false, (s.latch cls).lost, fun c => ?_⟩
    rw [State.latch_setLatch, State.putQueue_latch]
  case isFalse => exact ⟨true, true, fun c => State.latch_setLatch ..⟩

/-! ## A report (R272) -/

/-- The latch as an armed class's first report writes it, before its entry is presented. -/
def State.firstLatch (r : ErrReport) (s : State) : Latch :=
  { held := true, outside := false, count := 1, lost := false, time := s.now, detail := r.detail s.tb.wp }

theorem State.report_of_armed {r : ErrReport} {s : State} (h : (s.latch r.cls).held = false) :
    s.report r = (s.setLatch r.cls (s.firstLatch r)).presentLatch r.cls := if_neg (Bool.eq_false_iff.mp h)

theorem State.report_of_held {r : ErrReport} {s : State} (h : (s.latch r.cls).held = true) :
    s.report r = s.setLatch r.cls { s.latch r.cls with count := min 0xFFFF ((s.latch r.cls).count + 1) } := if_pos h

/-- An armed latch takes the whole report; where its entry stands is left to the error queue (R273). -/
theorem State.report_latch_of_armed {r : ErrReport} {s : State} (h : (s.latch r.cls).held = false) :
    ∃ outside lost, ∀ c, (s.report r).latch c
      = if c = r.cls then { s.firstLatch r with outside := outside, lost := lost } else s.latch c := by
  obtain ⟨outside, lost, hpresent⟩ := State.presentLatch_latch r.cls (s.setLatch r.cls (s.firstLatch r))
  refine ⟨outside, lost, fun c => ?_⟩
  rw [State.report_of_armed h, hpresent, State.latch_setLatch_same]
  split
  case isTrue => rfl
  case isFalse hc => exact State.latch_setLatch_ne hc ..

/-- Settles O23: `State.report_latch_of_armed` for the first report, `State.report_of_held` for the further ones. -/
theorem errorLatch : Obligations.ErrorLatch := by
  unfold Obligations.ErrorLatch
  refine ⟨fun r s harmed => ?first, fun r s hheld => ?further⟩
  case first =>
    obtain ⟨outside, lost, hlatch⟩ := State.report_latch_of_armed harmed
    rw [(hlatch r.cls).trans (if_pos rfl)]
    exact ⟨rfl, rfl, rfl, rfl, fun c hc => (hlatch c).trans (if_neg hc)⟩
  case further =>
    rw [State.report_of_held hheld]
    exact ⟨State.latch_setLatch_same .., fun c hc => State.latch_setLatch_ne hc .., fun _ => rfl⟩

end Sys2Proof.Machine
end

section
/-! PROOF. Reading rules for ports, service ports and PTP ports, for O39 to O42. -/

namespace Sys2Proof.Machine

/-! ## What stands outside a table is read as it was -/

theorem State.service_of_services {s t : State} (h : t.services = s.services) (k : Nat) :
    t.service k = s.service k := by
  rw [State.service, h]; rfl

theorem State.ptpPort_of_ptpPorts {s t : State} (h : t.ptpPorts = s.ptpPorts) (k : Nat) :
    t.ptpPort k = s.ptpPort k := by
  rw [State.ptpPort, h]; rfl

section
variable (n k : Nat) (s : State)

@[simp] theorem State.advance_service : (s.advance n).service k = s.service k := rfl

@[simp] theorem State.advance_ptpPort : (s.advance n).ptpPort k = s.ptpPort k := rfl

end

theorem State.report_port (r : ErrReport) (p : Nat) (s : State) : (s.report r).port p = s.port p :=
  State.port_of_ports (by simp only [State.report_frame]) p

theorem State.report_ptp (r : ErrReport) (s : State) : (s.report r).ptp = s.ptp := by simp only [State.report_frame]

/-! ## One entry changes -/

theorem State.port_setPort_ne {k j : Nat} (h : j ≠ k) (x : Port) (s : State) : (s.setPort k x).port j = s.port j :=
  (State.port_setPort k j x s).trans (if_neg h)

theorem State.service_setService_ne {k j : Nat} (h : j ≠ k) (x : Service) (s : State) :
    (s.setService k x).service j = s.service j := (State.service_setService k j x s).trans (if_neg h)

theorem State.ptpPort_setPtpPort_ne {k j : Nat} (h : j ≠ k) (x : PtpPort) (s : State) :
    (s.setPtpPort k x).ptpPort j = s.ptpPort j := (State.ptpPort_setPtpPort k j x s).trans (if_neg h)

theorem State.service_setService_self (k j : Nat) (s : State) :
    (s.setService k (s.service k)).service j = s.service j := by
  rw [State.service_setService]
  split
  · next h => rw [h]
  · rfl

/-- An accepted frame counts in NP_RXF. -/
theorem State.accepted_eq (p : Nat) (s : State) :
    s.accepted p = s.setPort p { s.port p with rxf := min 0xFFFF_FFFF ((s.port p).rxf + 1) } := rfl

end Sys2Proof.Machine
end

section
/-! PROOF. O41: what a service port sends (R302 to R304). -/

namespace Sys2Proof.Machine

/-! ## The list in force (R302) -/

theorem Service.adoptList_of_none {x : Service} (h : x.pendingList = none) (t : Int) : x.adoptList t = x := by
  rw [Service.adoptList, h]

theorem Service.listAt_of_none {x : Service} (h : x.pendingList = none) (t : Int) : x.listAt t = x.gates := by
  rw [Service.listAt, h]

/-- The adoption of a pending list moves the operational and the pending list alone. -/
theorem Service.adoptList_eq (t : Int) (x : Service) :
    x.adoptList t = { x with gates := (x.adoptList t).gates, pendingList := (x.adoptList t).pendingList } := by
  unfold Service.adoptList
  split
  · split <;> rfl
  · rfl

/-- The adoption of a list leaves the list in force from then on as it was. -/
theorem Service.listAt_adoptList {t u : Int} (h : t ≤ u) (x : Service) : (x.adoptList t).listAt u = x.listAt u := by
  cases hpend : x.pendingList with
  | none => rw [Service.adoptList_of_none hpend]
  | some l =>
    rw [Service.adoptList, hpend]
    dsimp only
    by_cases hbase : (l.base : Int) ≤ t
    · rw [if_pos hbase, Service.listAt_of_none rfl, Service.listAt, hpend]
      exact (if_pos (hbase.trans h)).symm
    · rw [if_neg hbase]

/-! ## What sending moves (R303) -/

/-- Service port y is x but for what sending moves: its answers, its records, their sequence number, and the frame
sent. -/
def Service.SentFrom (x y : Service) : Prop :=
  y = { x with seq := y.seq, buf := y.buf, sending := y.sending, lastTx := y.lastTx, replies := y.replies }

theorem Service.SentFrom.staged {x y : Service} (h : x.SentFrom y) : y.staged = x.staged := by rw [h]

theorem Service.SentFrom.listAt {x y : Service} (h : x.SentFrom y) (t : Int) : y.listAt t = x.listAt t := by
  rw [h]
  rfl

theorem State.startFrame_sentFrom (sp c : Nat) (s : State) :
    (s.service sp).SentFrom ((s.startFrame sp c).service sp) := by
  have hsets {x y : Service} {t : State} (ht : t.services = (s.setService sp y).services) (hxy : x.SentFrom y) :
      x.SentFrom (t.service sp) := by
    rwa [State.service_of_services ht, State.service_setService_same]
  unfold State.startFrame
  dsimp only
  split
  · split
    · exact hsets rfl rfl
    · exact hsets rfl rfl
  · exact hsets rfl rfl

theorem State.startFrame_service_ne {sp q : Nat} (h : q ≠ sp) (c : Nat) (s : State) :
    (s.startFrame sp c).service q = s.service q := by
  have hsets {y : Service} {t : State} (ht : t.services = (s.setService sp y).services) :
      t.service q = s.service q := (State.service_of_services ht q).trans (State.service_setService_ne h ..)
  unfold State.startFrame
  dsimp only
  split
  · split
    · exact hsets rfl
    · exact hsets rfl
  · exact hsets rfl

/-- A service port that may send adopts a pending list whose time has come, and then starts a frame or none. -/
theorem State.egress_cases (sp : Nat) (s : State) : ∃ u, u = s.modService sp (Service.adoptList (s.ptpAt s.now))
    ∧ (s.egress sp = u ∨ ∃ c, s.egress sp = u.startFrame sp c) := by
  refine ⟨_, rfl, ?_⟩
  unfold State.egress
  dsimp only
  split
  · exact .inl rfl
  · split
    · next c _ => exact .inr ⟨c, rfl⟩
    · exact .inl rfl

theorem State.egress_sentFrom (sp : Nat) (s : State) :
    ((s.service sp).adoptList (s.ptpAt s.now)).SentFrom ((s.egress sp).service sp) := by
  obtain ⟨u, hu, hcases⟩ := s.egress_cases sp
  have hadopted : u.service sp = (s.service sp).adoptList (s.ptpAt s.now) := by
    rw [hu, State.service_modService, if_pos rfl]
  rw [← hadopted]
  obtain hwaits | ⟨c, hstarts⟩ := hcases
  · rw [hwaits]
    rfl
  · rw [hstarts]
    exact State.startFrame_sentFrom ..

theorem State.egress_service_ne {sp q : Nat} (h : q ≠ sp) (s : State) : (s.egress sp).service q = s.service q := by
  obtain ⟨u, hu, hcases⟩ := s.egress_cases sp
  have hadopted : u.service q = s.service q := by rw [hu, State.service_modService, if_neg h]
  rw [← hadopted]
  obtain hwaits | ⟨c, hstarts⟩ := hcases
  · rw [hwaits]
  · rw [hstarts, State.startFrame_service_ne h]

theorem State.egress_eq (sp : Nat) (s : State) :
    s.egress sp = { s with services := (s.egress sp).services, ptp := (s.egress sp).ptp } :=
  State.eq_of_parts (by simp only [State.egress_frame, and_self])

/-! ## When a frame starts (R303) -/

/-- No frame of a class starts where nothing of it waits. -/
theorem State.mayStart_of_empty {sp : Nat} {s : State} (hreplies : (s.service sp).replies = [])
    (hbuf : (s.service sp).buf = []) (c : Nat) : s.mayStart sp c = false := by
  have hwire : (s.service sp).nextWire c = none := by
    rw [Service.nextWire, hreplies]
    simp [Service.records, hbuf]
  rw [State.mayStart, hwire]
  rfl

/-- No frame of a class starts behind a closed gate (R302). -/
theorem State.mayStart_of_closed {sp c : Nat} {s : State}
    (h : (((s.service sp).listAt (s.ptpAt s.now)).mask (s.ptpAt s.now)).getLsbD c = false) :
    s.mayStart sp c = false := by
  rw [State.mayStart, h]
  simp

/-- Where no answer waits, what may start is a frame of records. -/
theorem State.records_ne_nil_of_mayStart {sp c : Nat} {s : State} (hreplies : (s.service sp).replies = [])
    (h : s.mayStart sp c = true) : (s.service sp).records c ≠ [] := by
  intro hnone
  have hwire : (s.service sp).nextWire c = none := by
    rw [Service.nextWire, hreplies]
    simp [hnone]
  rw [State.mayStart, hwire] at h
  exact Bool.false_ne_true h

theorem State.startFrame_records {sp c : Nat} {s : State} (h : (s.service sp).replies = []) :
    s.startFrame sp c = s.recordFrame sp c := by
  rw [State.startFrame, h]
  rfl

/-- What may start does not depend on how the table lists the service ports. -/
theorem State.mayStart_setService_self (sp c : Nat) (s : State) :
    (s.setService sp (s.service sp)).mayStart sp c = s.mayStart sp c := by
  rw [State.mayStart, State.service_setService_same]
  rfl

/-- The highest number below n with a property is the first found from n downwards. -/
theorem find?_reverse_range {p : Nat → Bool} {c n : Nat} (hc : c < n) (hp : p c = true)
    (hhigher : ∀ d, c < d → d < n → p d = false) : (List.range n).reverse.find? p = some c := by
  induction n with
  | zero => exact absurd hc (Nat.not_lt_zero c)
  | succ n ih =>
    rw [List.range_succ, List.reverse_append, List.reverse_singleton, List.singleton_append]
    obtain hlast | hbelow := Nat.eq_or_lt_of_le (Nat.le_of_lt_succ hc)
    · rw [← hlast, List.find?_cons_of_pos hp]
    · rw [List.find?_cons_of_neg (by rw [hhigher n hbelow (Nat.lt_succ_self n)]; exact Bool.false_ne_true)]
      exact ih hbelow fun d hd hdn => hhigher d hd (Nat.lt_succ_of_lt hdn)

section
variable {sp : Nat} {s : State} (hnone : (s.service sp).pendingList = none)
include hnone

/-- A port that is sending, or that has no class that may start, only waits (R303). -/
theorem State.egress_waits (h : (s.service sp).sending = true ∨ ∀ c, c ≤ 7 → s.mayStart sp c = false) :
    s.egress sp = s.setService sp (s.service sp) := by
  have hnot : ∀ c ∈ (List.range 8).reverse, ¬ s.mayStart sp c = true ∨ (s.service sp).sending = true := by
    intro c hc
    obtain hsending | hclosed := h
    · exact .inr hsending
    · exact .inl (Bool.eq_false_iff.mp (hclosed c (by simpa [Nat.lt_succ_iff] using hc)))
  rw [State.egress, State.modService, Service.adoptList_of_none hnone]
  simp only [State.service_setService_same, State.mayStart_setService_self]
  split
  case isTrue => rfl
  case isFalse hfree =>
    obtain ⟨hsending, -⟩ := Bool.or_eq_false_iff.mp (Bool.eq_false_iff.mpr hfree)
    rw [List.find?_eq_none.mpr fun c hc => (hnot c hc).resolve_right (Bool.eq_false_iff.mp hsending)]

/-- A free port starts the frame of the highest class that may (R303). -/
theorem State.egress_starts {c : Nat} (hfree : (s.service sp).sending = false) (hup : s.portUp (16 + sp) = true)
    (hc : c ≤ 7) (hmay : s.mayStart sp c = true) (hhigher : ∀ d, c < d → d ≤ 7 → s.mayStart sp d = false) :
    s.egress sp = (s.setService sp (s.service sp)).startFrame sp c := by
  have hup' : (s.setService sp (s.service sp)).portUp (16 + sp) = true := hup
  rw [State.egress, State.modService, Service.adoptList_of_none hnone]
  simp only [State.service_setService_same, State.mayStart_setService_self]
  rw [hfree, hup', if_neg (by decide),
    find?_reverse_range (Nat.lt_succ_of_le hc) hmay fun d hd hd8 => hhigher d hd (Nat.le_of_lt_succ hd8)]

/-- An answer that comes while a frame is being sent waits behind the others (R303). -/
theorem State.queueReply_waits (f : EgFrame) (hsending : (s.service sp).sending = true) :
    s.queueReply sp f = (s.modService sp fun x => { x with replies := x.replies ++ [f] }).setService sp
      { s.service sp with replies := (s.service sp).replies ++ [f] } := by
  have hsame : (s.modService sp fun x => { x with replies := x.replies ++ [f] }).service sp
      = { s.service sp with replies := (s.service sp).replies ++ [f] } := State.service_setService_same ..
  rw [State.queueReply, State.egress_waits (by rw [hsame]; exact hnone) (.inl (by rw [hsame]; exact hsending)), hsame]

theorem State.queueReply_service (f : EgFrame) (hsending : (s.service sp).sending = true) (q : Nat) :
    (s.queueReply sp f).service q
      = if q = sp then { s.service sp with replies := (s.service sp).replies ++ [f] } else s.service q := by
  rw [State.queueReply_waits hnone f hsending, State.service_setService, State.service_modService]
  split <;> rfl

end

/-! ## The obligation -/

theorem State.alive_of_portUp {p : Nat} {s : State} (h : s.portUp p = true) : s.alive = true := by
  simp only [State.portUp, Bool.and_eq_true] at h
  obtain ⟨⟨⟨halive, -⟩, -⟩, -⟩ := h
  exact halive

theorem exec_gateEntryChange_up {k sp : Nat} {s : State} (hup : s.portUp (16 + sp) = true) (hsp : sp < 2) :
    exec (.gateEntryChange k sp) s = .next ((s.advance k).egress sp) := by
  have hguard : ((s.advance k).alive && decide (sp < 2)) = true := by
    rw [State.advance_alive, State.alive_of_portUp hup, decide_eq_true hsp]
    rfl
  exact (exec_gateEntryChange k sp s).trans (congrArg Host.Outcome.next (if_pos hguard))

/-- The port whose frame has been sent: it counts the frame and is free. -/
def State.frameSent (sp : Nat) (s : State) : State :=
  (s.modService sp fun x => { x with sending := false }).modPort (16 + sp) fun x =>
    { x with txf := min 0xFFFF_FFFF (x.txf + 1) }

theorem State.frameSent_service (sp q : Nat) (s : State) : (s.frameSent sp).service q
    = if q = sp then { s.service sp with sending := false } else s.service q :=
  State.service_modService sp q (fun x => { x with sending := false }) s

theorem State.frameSent_port (sp q : Nat) (s : State) : (s.frameSent sp).port q
    = if q = 16 + sp then { s.port (16 + sp) with txf := min 0xFFFF_FFFF ((s.port (16 + sp)).txf + 1) }
      else s.port q := State.port_modPort ..

theorem exec_frameTransmitEnd_sending {k sp : Nat} {s : State} (halive : s.alive = true)
    (hsending : (s.service sp).sending = true) :
    exec (.frameTransmitEnd k sp) s = .next (((s.advance k).frameSent sp).egress sp) := by
  have hguard : ((s.advance k).alive && ((s.advance k).service sp).sending) = true := by
    rw [State.advance_alive, halive, State.advance_service, hsending]
    rfl
  exact congrArg Host.Outcome.next (if_pos hguard)

/-- Settles O41: with nothing that may start a port waits (`State.egress_waits`), else the highest class that may
starts (`State.egress_starts`). -/
theorem egress : Obligations.Egress := by
  unfold Obligations.Egress
  refine ⟨?ends, ?opens, ?closed⟩
  case ends =>
    intro k sp s halive hsending hreplies hbuf hnone
    have hsent : ((s.advance k).frameSent sp).service sp = { s.service sp with sending := false } :=
      (State.frameSent_service ..).trans (if_pos rfl)
    have hwaits : ((s.advance k).frameSent sp).egress sp = ((s.advance k).frameSent sp).setService sp _ :=
      State.egress_waits (by rw [hsent]; exact hnone)
        (.inr fun c _ => State.mayStart_of_empty (by rw [hsent]; exact hreplies) (by rw [hsent]; exact hbuf) c)
    have hexec := exec_frameTransmitEnd_sending (k := k) halive hsending
    rw [hwaits] at hexec
    refine ⟨_, hexec, ?_, fun q hq => ?_, ?_, fun q hq => ?_, rfl⟩
    · rw [State.service_setService_same, hsent]
    · rw [State.service_setService_ne hq, State.frameSent_service, if_neg hq, State.advance_service]
    · exact (State.frameSent_port ..).trans (if_pos rfl)
    · exact (State.frameSent_port ..).trans (if_neg hq)
  case opens =>
    intro k sp c s hup hsp hfree hnone hreplies hc hmay hhigher
    have hstarts := State.egress_starts (s := s.advance k) hnone hfree hup hc hmay hhigher
    rw [State.startFrame_records (by rw [State.service_setService_same]; exact hreplies)] at hstarts
    refine ⟨_, (s.service sp).records c, exec_gateEntryChange_up hup hsp, rfl,
      State.records_ne_nil_of_mayStart (s := s.advance k) hreplies hmay, ?_, ?_⟩
    · rw [hstarts, State.recordFrame, State.service_setService_same, State.service_setService_same]
      rfl
    · rw [hstarts]
      rfl
  case closed =>
    intro k sp s hup hsp hnone _ hclosed
    have hwaits := State.egress_waits (s := s.advance k) hnone (.inr fun c hc => State.mayStart_of_closed (by
      rw [State.advance_service, Service.listAt_of_none hnone]
      exact hclosed c hc))
    refine ⟨_, exec_gateEntryChange_up hup hsp, fun q => ?_, ?_⟩
    · rw [hwaits, State.service_setService_self, State.advance_service]
    · rw [hwaits]
      rfl

end Sys2Proof.Machine
end

section
/-! PROOF. O39: PORT_CONFIG and the links (R279, R280, R284, R302, R306, R442). -/

namespace Sys2Proof.Machine

/-! ## The masters compared (R294) -/

/-- The port whose master is the better, where a port has one. -/
def State.bestPort (s : State) : Option Nat :=
  match (s.ptpPort 0).master, (s.ptpPort 1).master with
  | some a, some b => some (if betterMaster b a then 1 else 0)
  | some _, none => some 0
  | none, some _ => some 1
  | none, none => none

/-- A port after a comparison, which it has won or not. -/
def PtpPort.compared (won : Prop) [Decidable won] (x : PtpPort) : PtpPort :=
  if x.state = 3 then x else { x with state := if won then 1 else if x.master.isSome then 2 else 0 }

theorem PtpPort.compared_master (won : Prop) [Decidable won] (x : PtpPort) : (x.compared won).master = x.master := by
  unfold PtpPort.compared
  split <;> rfl

theorem PtpPort.compared_source (won : Prop) [Decidable won] (x : PtpPort) : (x.compared won).source = x.source := by
  unfold PtpPort.compared
  split <;> rfl

/-- Port k takes its state from the best port. -/
def State.ranked (best : Option Nat) (k : Nat) (s : State) : State := s.modPtpPort k (PtpPort.compared (best = some k))

theorem State.ranked_ptpPort (best : Option Nat) (k j : Nat) (s : State) : (s.ranked best k).ptpPort j
    = if j = k then (s.ptpPort k).compared (best = some k) else s.ptpPort j := State.ptpPort_setPtpPort ..

theorem State.compareMasters_ptpPorts (s : State) :
    s.compareMasters.ptpPorts = ((s.ranked s.bestPort 0).ranked s.bestPort 1).ptpPorts := by
  unfold State.compareMasters State.bestPort
  rfl

theorem State.compareMasters_ptpPort {k : Nat} (hk : k ≤ 1) (s : State) :
    s.compareMasters.ptpPort k = (s.ptpPort k).compared (s.bestPort = some k) := by
  rw [State.ptpPort_of_ptpPorts s.compareMasters_ptpPorts, State.ranked_ptpPort, State.ranked_ptpPort,
    State.ranked_ptpPort]
  obtain rfl | rfl := Nat.le_one_iff_eq_zero_or_eq_one.mp hk
  · rfl
  · rfl

/-- The comparison moves the grandmaster and the Syncs kept, and nothing else of the servo (R294). -/
theorem State.compareMasters_ptp (s : State) : s.compareMasters.ptp = { s.ptp with
    gm := ((s.bestPort.bind fun k => (s.ptpPort k).master).map Prod.fst).getD s.ptp.gm
    sync := none, syncPair := s.compareMasters.ptp.syncPair } := by
  unfold State.compareMasters State.bestPort
  rfl

theorem State.compareMasters_eq (s : State) :
    s.compareMasters = { s with ptpPorts := s.compareMasters.ptpPorts, ptp := s.compareMasters.ptp } :=
  State.eq_of_parts (by simp only [State.compareMasters_frame, and_self])

/-! ## LINK (R279, R284, R442) -/

/-- A port as LINK configures it. -/
def Port.configured (p : LinkParams) (x : Port) : Port :=
  { x with en := p.en, fast := p.fast, fec := p.fec, mac := p.mac, vid := p.vid, ipv4 := p.ipv4 }

/-- A service port's PTP port, enabled or disabled. -/
def PtpPort.enabled (en : Bool) (x : PtpPort) : PtpPort :=
  { x with
    state := if en then (if x.state = 3 then 0 else x.state) else 3, master := if en then x.master else none }

/-- LINK's changes beside its domain and its link. -/
def State.withLink (p : LinkParams) (s : State) : State :=
  if 16 ≤ p.port then
    ((s.modPort p.port (Port.configured p)).modPtpPort (p.port - 16) (PtpPort.enabled p.en)).compareMasters
  else s.modPort p.port (Port.configured p)

theorem State.withLink_port (p : LinkParams) (q : Nat) (s : State) :
    (s.withLink p).port q = if q = p.port then (s.port p.port).configured p else s.port q := by
  have hport := State.port_modPort p.port q (Port.configured p) s
  unfold State.withLink
  split
  · exact (State.port_of_ports (by simp only [State.compareMasters_frame, State.modPtpPort_frame]) q).trans hport
  · exact hport

theorem State.withLink_eq (p : LinkParams) (s : State) : s.withLink p = { s with
    ports := (s.withLink p).ports, ptpPorts := (s.withLink p).ptpPorts, ptp := (s.withLink p).ptp } := by
  unfold State.withLink
  split
  · exact State.eq_of_parts (by
      simp only [State.compareMasters_frame, State.modPtpPort_frame, State.modPort_frame, and_self])
  · rfl

/-- LINK on a stream port leaves PTP as it was. -/
theorem State.withLink_stream {p : LinkParams} (h : p.port < 16) (s : State) :
    (s.withLink p).ptp = s.ptp ∧ (s.withLink p).ptpPorts = s.ptpPorts := by
  rw [State.withLink, if_neg (by omega)]
  exact ⟨rfl, rfl⟩

/-- A disabled service port has no master and takes no part in the comparison (R294). -/
theorem State.withLink_ptpPort_of_disabled {p : LinkParams} (h : 16 ≤ p.port) (hport : p.port ≤ 17) (hen : p.en = false)
    (s : State) :
    (s.withLink p).ptpPort (p.port - 16) = { s.ptpPort (p.port - 16) with state := 3, master := none } := by
  rw [State.withLink, if_pos h, State.compareMasters_ptpPort (by omega), State.modPtpPort,
    State.ptpPort_setPtpPort_same, PtpPort.compared, hen]
  rfl

/-- A port's domain is on. -/
def State.ungated (d : Nat) (s : State) : State :=
  { s with power := { s.power with on := setDomains true [d] s.power.on } }

theorem linkDo_eq (h : Hdr) (p : LinkParams) (s : State) : linkDo h p s
    = ((if p.en then s.ungated (288 + p.port) else s.linkFalls p.port).withLink p).done h Op.portConfig 0 [] := rfl

theorem linkDo_of_enabled (h : Hdr) {p : LinkParams} (hen : p.en = true) (s : State) :
    linkDo h p s = ((s.ungated (288 + p.port)).withLink p).done h Op.portConfig 0 [] := by
  rw [linkDo_eq, if_pos hen]

theorem linkDo_of_disabled (h : Hdr) {p : LinkParams} (hen : p.en = false) {s : State}
    (hdown : (s.port p.port).link = false) : linkDo h p s = (s.withLink p).done h Op.portConfig 0 [] := by
  have hfalls : s.linkFalls p.port = s := if_neg (by rw [hdown]; exact Bool.false_ne_true)
  rw [linkDo_eq, if_neg (by rw [hen]; exact Bool.false_ne_true), hfalls]

section
variable {h : Hdr} {p : LinkParams} {s : State} (ha : s.accepts Op.portConfig false = true) (hport : p.port ≤ 17)
  (hfec : p.fec ≤ 2) (hvid : p.vid ≤ 4094)
include hport hfec hvid

theorem linkParams_eq_none : firstOf [require (decide (p.port ≤ 17)) (paramBadAt 8),
    require (decide (p.fec ≤ 2)) (paramBadAt 0x0A), require (decide (p.vid ≤ 4094)) (paramBadAt 0x12)] = none := by
  simp [firstOf, hport, hfec, hvid]

include ha

theorem exec_portConfigLink_accepted (hstream : (s.port p.port).stream = none) (hrate : p.fec = 2 → p.fast = true) :
    exec (.portConfigLink h p) s = .next (linkDo h p (s.advance h.t)) := by
  have hcheck : linkCheck p (s.advance h.t) = none := by
    simpa [linkCheck, firstOf, hstream, ← imp_iff_not_or] using hrate
  exact hostCommand_accepted (linkParams_eq_none hport hfec hvid) ha hcheck

theorem exec_portConfigLink_bound {n : Nat} (hstream : (s.port p.port).stream = some n) :
    Refuses (.portConfigLink h p) h Op.portConfig (resHeld Op.streamOpen Op.portConfig 8 p.port 0xFF n) s := by
  have hcheck : linkCheck p (s.advance h.t) = some (resHeld Op.streamOpen Op.portConfig 8 p.port 0xFF n) := by
    rw [linkCheck, State.advance_port, hstream]
    rfl
  exact .of_refuse (hostCommand_refused (linkParams_eq_none hport hfec hvid) ha hcheck)

end

/-- A LINK that answers has configured its port, and PTP has changed for a service port alone. -/
theorem exec_withLink_done {c : Instr} {h : Hdr} {p : LinkParams} {s u : State} (hports : u.ports = s.ports)
    (hqueues : u.queues = s.queues) (hptp : u.ptp = s.ptp ∧ u.ptpPorts = s.ptpPorts)
    (hx : exec c s = .next ((u.withLink p).done h Op.portConfig 0 [])) :
    ∃ t, exec c s = .next t ∧ Replied h Op.portConfig Status.ok [] s t
      ∧ t.port p.port = (s.port p.port).configured p ∧ (∀ q, q ≠ p.port → t.port q = s.port q)
      ∧ t.ptpPorts = (u.withLink p).ptpPorts ∧ (p.port < 16 → t.ptp = s.ptp ∧ t.ptpPorts = s.ptpPorts)
      ∧ t = { u with
          ports := t.ports, ptpPorts := t.ptpPorts, ptp := t.ptp, queues := t.queues, mgmt := t.mgmt } := by
  have hlink := u.withLink_eq p
  have hdone := State.done_eq h Op.portConfig 0 [] (u.withLink p)
  have hport (q : Nat) : ((u.withLink p).done h Op.portConfig 0 []).port q
      = if q = p.port then (s.port p.port).configured p else s.port q := by
    rw [State.port_of_ports (s := u.withLink p) (by rw [hdone]), State.withLink_port, State.port_of_ports hports,
      State.port_of_ports hports]
  refine ⟨_, hx, (State.done_replied ..).of_queues (by rw [hlink]; exact hqueues), (hport _).trans (if_pos rfl),
    fun q hq => (hport q).trans (if_neg hq), by rw [hdone], fun hstream => ?ptp, ?rest⟩
  case ptp =>
    obtain ⟨hservo, hpair⟩ := u.withLink_stream hstream
    rw [hdone]
    exact ⟨hservo.trans hptp.1, hpair.trans hptp.2⟩
  case rest =>
    rw [hdone, hlink]

/-! ## A service port changes and may send (R302, R442) -/

/-- A command that sets a service port and then answers changes that port by what sending moves alone. -/
theorem exec_egress_refuse {c : Instr} {h : Hdr} {op form k sp : Nat} {r : Reject} {x : Service} {s : State}
    (hx : exec c s = .next ((((s.advance k).setService sp x).egress sp).refuse h op form r)) :
    ∃ t, exec c s = .next t ∧ Replied h op r.status r.payload s t
      ∧ (x.adoptList (s.ptpAt (max s.now k))).SentFrom (t.service sp) ∧ (∀ q, q ≠ sp → t.service q = s.service q)
      ∧ t = { s with
          now := max s.now k, services := t.services, ptp := t.ptp, queues := t.queues, mgmt := t.mgmt } := by
  have hegress := State.egress_eq sp ((s.advance k).setService sp x)
  have hsent := State.egress_sentFrom sp ((s.advance k).setService sp x)
  have hothers (q : Nat) (hq : q ≠ sp) : (((s.advance k).setService sp x).egress sp).service q = s.service q :=
    (State.egress_service_ne hq _).trans (State.service_setService_ne hq ..)
  rw [State.service_setService_same] at hsent
  generalize ((s.advance k).setService sp x).egress sp = u at *
  have hrefuse := State.refuse_eq h op form r u
  have hservice (q : Nat) : (u.refuse h op form r).service q = u.service q :=
    State.service_of_services (by rw [hrefuse]) q
  refine ⟨_, hx, (State.refuse_replied h op form r u).of_queues (by rw [hegress]; rfl), by rw [hservice]; exact hsent,
    fun q hq => (hservice q).trans (hothers q hq), ?rest⟩
  rw [hrefuse, hegress]
  rfl

/-! ## SERVICE (R442) -/

/-- A service port as SERVICE configures it. -/
def Service.configured (p : ServiceParams) (x : Service) : Service :=
  { x with
    rasterUdp := p.rasterUdp, asid := p.asid, domain := p.domain, pinClass := p.pinClass
    looseClass := p.looseClass, intakeBase := p.intakeBase, intakeSize := p.intakeSize
    dstMac := p.dstMac, maxRecs := p.maxRecs, dstIp := p.dstIp, srcUdp := p.srcUdp, dstUdp := p.dstUdp }

/-- The intake range's check reads the pages alone. -/
theorem State.intakeHole_of_ms {s t : State} (h : t.ms = s.ms) (asid hi fuel va : Nat) :
    t.intakeHole asid hi fuel va = s.intakeHole asid hi fuel va := by
  have hpage (a : Nat) : t.pageAt asid a = s.pageAt asid a := by rw [State.pageAt, h]; rfl
  induction fuel generalizing va with
  | zero => rfl
  | succ fuel ih => simp only [State.intakeHole, hpage, ih]

theorem State.intakeBad_of_ms {s t : State} (h : t.ms = s.ms) (asid lo n : Nat) :
    t.intakeBad asid lo n = s.intakeBad asid lo n := by
  rw [State.intakeBad, State.intakeHole_of_ms h, h, State.intakeBad]

theorem exec_portConfigService_accepted {h : Hdr} {p : ServiceParams} {s : State}
    (ha : s.accepts Op.portConfig false = true) (hservice : 16 ≤ p.port) (hport : p.port ≤ 17) (hasid : p.asid ≤ 1023)
    (hsize : p.intakeSize % 0x1_0000 = 0) (hend : p.intakeBase + p.intakeSize ≤ 2 ^ 48) (hone : 1 ≤ p.maxRecs)
    (hmax : p.maxRecs ≤ 32) (hpages : s.intakeBad p.asid p.intakeBase p.intakeSize = none) :
    exec (.portConfigService h p) s = .next ((((s.advance h.t).setService (p.port - 16)
      ((s.service (p.port - 16)).configured p)).egress (p.port - 16)).done h Op.portConfig 1 []) := by
  have hparams : firstOf [require (decide (p.port ≤ 17)) (paramBadAt 8),
      require (decide (p.asid ≤ 1023)) (paramBadAt 0x0C),
      require (p.intakeSize % 0x1_0000 == 0 && decide (p.intakeBase + p.intakeSize ≤ 2 ^ 48)) (paramBadAt 0x18),
      require (inRange 1 p.maxRecs 32) (paramBadAt 0x26)] = none := by
    simp only [firstOf_cons_eq_none, require_eq_none, decide_eq_true_eq, Bool.and_eq_true, beq_iff_eq, inRange]
    exact ⟨hport, hasid, ⟨hsize, hend⟩, ⟨hone, hmax⟩, rfl⟩
  have hcheck : serviceCheck p (s.advance h.t) = none := by
    simp [serviceCheck, firstOf, hservice, State.intakeBad_of_ms (s := s) (t := s.advance h.t) rfl, hpages]
  exact (exec_portConfigService h p s).trans (hostCommand_accepted hparams ha hcheck)

/-! ## GATES (R302, R442) -/

theorem tget_foldl_tset {α : Type} [DecidableEq α] (first i : Nat) (es : List α) (k : Nat) (t : Tbl (Option α)) :
    tget (fun _ => none) ((es.zipIdx k).foldl (fun t x => tset (fun _ => none) (first + x.2) (some x.1) t) t) i
      = if first + k ≤ i ∧ i < first + k + es.length then es[i - (first + k)]? else tget (fun _ => none) t i := by
  induction es generalizing k t with
  | nil => rw [if_neg (by simp)]; rfl
  | cons e es ih =>
    rw [List.zipIdx_cons, List.foldl_cons, ih, tget_tset, List.length_cons]
    by_cases hfirst : i = first + k
    · rw [if_neg (by omega), if_pos hfirst, if_pos (by omega), hfirst, Nat.sub_self, List.getElem?_cons_zero]
    · by_cases hin : first + k ≤ i ∧ i < first + k + (es.length + 1)
      · rw [if_pos (by omega), if_pos hin, show i - (first + k) = i - (first + (k + 1)) + 1 by omega,
          List.getElem?_cons_succ]
      · rw [if_neg (by omega), if_neg hfirst, if_neg hin]

/-- The staged list holds a chunk's entries from its first index on, and its others as before (R442). -/
theorem tget_stagedWith (p : GatesParams) (t : Tbl (Option GateEntry)) (i : Nat) :
    tget (fun _ => none) (stagedWith p t) i
      = if p.first ≤ i ∧ i < p.first + p.entries.length then p.entries[i - p.first]?
        else tget (fun _ => none) t i := tget_foldl_tset p.first i p.entries 0 t

theorem filterMap_range_getElem? {α : Type} (l : List α) : (List.range l.length).filterMap (l[·]?) = l := by
  induction l with
  | nil => rfl
  | cons a l ih =>
    rw [List.length_cons, List.range_succ_eq_map, List.filterMap_cons, List.filterMap_map]
    exact congrArg (List.cons a) ih

/-- A staged list that is complete and in range is the one a commit makes (R302). -/
theorem gateListOf_complete {p : GatesParams} {t : Tbl (Option GateEntry)} {es : List GateEntry}
    (hlen : es.length = p.total) (hes : ∀ i, i < p.total → tget (fun _ => none) t i = es[i]?)
    (hrange : ∀ e ∈ es, 100 ≤ e.interval ∧ e.interval ≤ 10_000_000) (hsum : (es.map GateEntry.interval).sum ≤ 10 ^ 9) :
    gateListOf p t = some es := by
  have hlist : (List.range p.total).filterMap (fun i => tget (fun _ => none) t i) = es := by
    rw [List.filterMap_congr fun i hi => hes i (List.mem_range.mp hi), ← hlen, filterMap_range_getElem?]
  have hall : (es.all fun e => inRange 100 e.interval 10_000_000) = true := by
    simpa [inRange, List.all_eq_true] using hrange
  rw [gateListOf, hlist]
  exact if_pos ⟨hlen, hall, hsum⟩

/-- With an entry missing a commit makes no list. -/
theorem gateListOf_missing {p : GatesParams} {t : Tbl (Option GateEntry)} {i : Nat} (hi : i < p.total)
    (hmissing : tget (fun _ => none) t i = none) : gateListOf p t = none := by
  have hshort : ((List.range p.total).filterMap fun i => tget (fun _ => none) t i).length
      < (List.range p.total).length :=
    List.length_filterMap_lt_length_iff_exists.mpr ⟨i, List.mem_range.mpr hi, hmissing⟩
  rw [List.length_range] at hshort
  exact if_neg fun h => absurd h.1 hshort.ne

/-- A base time is moved forward by whole cycles, to the first such time that is not past (R302). -/
theorem movedBase_spec {base cycle : Nat} (hcycle : 1 ≤ cycle) (t : Int) :
    ∃ k, movedBase base cycle t = base + k * cycle
      ∧ (base : Int) + k * cycle < max (base : Int) t + cycle ∧ t ≤ (base : Int) + k * cycle := by
  unfold movedBase
  split
  case isFalse hfuture => exact ⟨0, by simp, by simp; omega, by simp; omega⟩
  case isTrue hpast =>
    rw [Nat.max_eq_right hcycle]
    refine ⟨_, rfl, ?_⟩
    obtain ⟨d, hd⟩ : ∃ d : Nat, t = base + d := ⟨(t - base).toNat, by omega⟩
    have hdiff : (t - (base : Int)).toNat = d := by omega
    rw [hdiff]
    have hup : d ≤ ceilDiv d cycle * cycle := by
      have := Nat.div_add_mod (d + cycle - 1) cycle
      have := Nat.mod_lt (d + cycle - 1) hcycle
      rw [ceilDiv, Nat.mul_comm]
      omega
    have hdown : ceilDiv d cycle * cycle ≤ d + cycle - 1 := Nat.div_mul_le_self ..
    have hcast : ((ceilDiv d cycle : Nat) : Int) * (cycle : Int) = ((ceilDiv d cycle * cycle : Nat) : Int) := by
      push_cast; rfl
    rw [hcast]
    omega

theorem Service.adoptList_staged (t : Int) (x : Service) : (x.adoptList t).staged = x.staged := by
  rw [Service.adoptList_eq]

/-- The service port of a GATES command, its chunk staged. -/
def State.chunked (p : GatesParams) (s : State) : Service :=
  let x := (s.service (p.port - 16)).adoptList (s.ptpAt s.now)
  { x with staged := stagedWith p x.staged }

/-- The service port of a GATES command that has committed a list. -/
def State.committed (p : GatesParams) (es : List GateEntry) (s : State) : Service :=
  { (s.service (p.port - 16)).adoptList (s.ptpAt s.now) with
    staged := []
    pendingList := some {
      entries := es, en := p.gateEn
      base := movedBase (p.baseSec * 10 ^ 9 + p.baseNs) (es.map GateEntry.interval).sum (s.ptpAt s.now) } }

theorem State.tget_chunked (p : GatesParams) (s : State) (i : Nat) : tget (fun _ => none) (s.chunked p).staged i
    = if p.first ≤ i ∧ i < p.first + p.entries.length then p.entries[i - p.first]?
      else tget (fun _ => none) (s.service (p.port - 16)).staged i := by
  rw [State.chunked, tget_stagedWith, Service.adoptList_staged]

section
variable {h : Hdr} {p : GatesParams} {s : State}

theorem gatesDo_uncommitted (hcommit : p.commit = false) : gatesDo h p s
    = ((s.setService (p.port - 16) (s.chunked p)).egress (p.port - 16)).done h Op.portConfig 2 [] := by
  rw [gatesDo, hcommit]
  rfl

theorem gatesDo_incomplete (hcommit : p.commit = true) (hlist : gateListOf p (s.chunked p).staged = none) :
    gatesDo h p s = ((s.setService (p.port - 16) (s.chunked p)).egress (p.port - 16)).refuse h Op.portConfig 2
      { status := Status.portBad } := by
  rw [gatesDo, hcommit]
  dsimp only [State.chunked] at hlist ⊢
  rw [hlist]
  rfl

theorem gatesDo_committed {es : List GateEntry} (hcommit : p.commit = true)
    (hlist : gateListOf p (s.chunked p).staged = some es) : gatesDo h p s
      = ((s.setService (p.port - 16) (s.committed p es)).egress (p.port - 16)).done h Op.portConfig 2 [] := by
  rw [gatesDo, hcommit]
  dsimp only [State.chunked] at hlist ⊢
  rw [hlist]
  rfl

theorem exec_portConfigGates_accepted (ha : s.accepts Op.portConfig false = true) (hservice : 16 ≤ p.port)
    (hport : p.port ≤ 17) (hlast : p.first + p.entries.length ≤ 256) (hsome : 1 ≤ p.entries.length)
    (hfew : p.entries.length ≤ 60) (htotal : 1 ≤ p.total) (hmax : p.total ≤ 256) (hns : p.baseNs < 10 ^ 9) :
    exec (.portConfigGates h p) s = .next (gatesDo h p (s.advance h.t)) := by
  have hparams : firstOf [require (decide (p.port ≤ 17)) (paramBadAt 8),
      require (decide (p.first + p.entries.length ≤ 256)) (paramBadAt 0x0C),
      require (inRange 1 p.entries.length 60) (paramBadAt 0x0E), require (inRange 1 p.total 256) (paramBadAt 0x10),
      require (decide (p.baseNs < 10 ^ 9)) (paramBadAt 0x18)] = none := by
    simp only [firstOf_cons_eq_none, require_eq_none, decide_eq_true_eq, Bool.and_eq_true, inRange]
    exact ⟨hport, hlast, ⟨hsome, hfew⟩, ⟨htotal, hmax⟩, hns, rfl⟩
  exact hostCommand_accepted hparams ha ((require_eq_none ..).mpr (decide_eq_true hservice))

end

/-! ## Links (R280, R306) -/

theorem Port.linkShows_of_fec {x : Port} (h : x.fec ≠ 0) (e : LinkEvent) : x.linkShows e = { x with
    hiBer := e.hiBer, fecCorr := min 0xFFFF (x.fecCorr + e.corr)
    fecUncorr := min 0xFFFF (x.fecUncorr + e.uncorr) } := by
  rw [Port.linkShows, if_neg h, if_neg h]
  rfl

/-- The port whose link an event has taken down. -/
def Port.fallen (e : LinkEvent) (x : Port) : Port :=
  { x.linkShows e with link := false, linkLost := true, downs := min 0xFFFF (x.downs + 1) }

/-- A link that goes down is reported under class 11 (R280). -/
theorem exec_linkDown_falls {k : Nat} {e : LinkEvent} {s : State} (hup : s.up = true) (hport : e.port < 18)
    (hlink : (s.port e.port).link = true) : ∃ r : ErrReport, r.cls = 11
      ∧ exec (.linkDown k e) s = .next (((s.advance k).setPort e.port ((s.port e.port).fallen e)).report r) := by
  have hguard : ((s.advance k).up && decide (e.port < 18)
      && (((s.advance k).port e.port).linkShows e).link) = true := by
    rw [State.advance_up, hup, decide_eq_true hport]
    exact hlink
  exact ⟨_, rfl, congrArg Host.Outcome.next (if_pos hguard)⟩

theorem exec_linkUp_rises {k : Nat} {e : LinkEvent} {s : State} (hup : s.up = true) (hport : e.port < 18)
    (hen : (s.port e.port).en = true) (hon : s.domainOn (288 + e.port) = true) (hber : e.hiBer = false) :
    exec (.linkUp k e) s = .next ((s.advance k).setPort e.port { (s.port e.port).linkShows e with link := true }) := by
  have hon' : (s.advance k).domainOn (288 + e.port) = true := hon
  have hguard : ((s.advance k).up && decide (e.port < 18) && ((s.advance k).port e.port).en
      && (s.advance k).domainOn (288 + e.port) && !e.hiBer) = true := by
    rw [State.advance_up, hup, decide_eq_true hport, State.advance_port, hen, hon', hber]
    rfl
  exact congrArg Host.Outcome.next (if_pos hguard)

/-! ## The obligation -/

/-- Settles O39: LINK by `exec_withLink_done`, SERVICE and GATES by `exec_egress_refuse`, whose service port differs by
what sending moves alone. -/
theorem portsAndLinks : Obligations.PortsAndLinks := by
  unfold Obligations.PortsAndLinks
  refine ⟨?enables, ?disables, ?bound, ?service, ?staged, ?commits, ?missing, ?down, ?up⟩
  case enables =>
    intro h p s ha hport hfec hvid hstream hrate hen
    have hexec := exec_portConfigLink_accepted (h := h) ha hport hfec hvid hstream hrate
    rw [linkDo_of_enabled h hen] at hexec
    obtain ⟨t, hx, hreply, hset, hothers, -, hptp, hrest⟩ :=
      exec_withLink_done (s := s) (u := (s.advance h.t).ungated (288 + p.port)) rfl rfl ⟨rfl, rfl⟩ hexec
    have hpower : t.power = { s.power with on := setDomains true [288 + p.port] s.power.on } := by
      rw [hrest]
      rfl
    refine ⟨t, hx, hreply, ?_, hothers, hpower, hptp, ?_⟩
    · rw [hset, Port.configured, hen]
    · rw [hpower]
      exact hrest
  case disables =>
    intro h p s ha hport hfec hvid hstream hrate hen hdown
    have hexec := exec_portConfigLink_accepted (h := h) ha hport hfec hvid hstream hrate
    rw [linkDo_of_disabled h hen (s := s.advance h.t) hdown] at hexec
    obtain ⟨t, hx, hreply, hset, -, hpair, hptp, hrest⟩ :=
      exec_withLink_done (s := s) (u := s.advance h.t) rfl rfl ⟨rfl, rfl⟩ hexec
    refine ⟨t, hx, hreply, ?_, fun hservice => ?_, hptp, hrest⟩
    · rw [hset, Port.configured, hen]
    · rw [State.ptpPort_of_ptpPorts hpair]
      exact State.withLink_ptpPort_of_disabled hservice hport hen _
  case bound =>
    intro h p n s ha hport hfec hvid hstream
    exact exec_portConfigLink_bound ha hport hfec hvid hstream
  case service =>
    intro h p s ha hservice hport hasid hsize hend hone hmax hpages
    obtain ⟨t, hx, hreply, hsent, hothers, hrest⟩ := exec_egress_refuse (r := { status := Status.ok })
      (exec_portConfigService_accepted (h := h) ha hservice hport hasid hsize hend hone hmax hpages)
    refine ⟨t, _, hx, hreply, rfl, ?_, hothers, hrest⟩
    rw [Service.adoptList_eq] at hsent
    rw [hsent]
    rfl
  case staged =>
    intro h p s ha hservice hport hlast hsome hfew htotal hmax hns hcommit
    have hexec := exec_portConfigGates_accepted (h := h) ha hservice hport hlast hsome hfew htotal hmax hns
    rw [gatesDo_uncommitted hcommit] at hexec
    obtain ⟨t, hx, hreply, hsent, hothers, hrest⟩ := exec_egress_refuse (r := { status := Status.ok }) hexec
    refine ⟨t, hx, hreply, fun i => ?_, hothers, hrest⟩
    rw [hsent.staged, Service.adoptList_staged, State.tget_chunked, State.advance_service]
  case commits =>
    intro h p es s ha hservice hport hlast hsome hfew htotal hmax hns hcommit hlen hes hrange hsum
    have hlist : gateListOf p ((s.advance h.t).chunked p).staged = some es := by
      refine gateListOf_complete hlen (fun i hi => ?_) hrange hsum
      rw [State.tget_chunked]
      exact (hes i hi).symm
    have hcycle : 1 ≤ (es.map GateEntry.interval).sum := by
      cases es with
      | nil => exact absurd hlen (by simp; omega)
      | cons e es =>
        have hfirst := (hrange e List.mem_cons_self).1
        rw [List.map_cons, List.sum_cons]
        omega
    have hexec := exec_portConfigGates_accepted (h := h) ha hservice hport hlast hsome hfew htotal hmax hns
    rw [gatesDo_committed hcommit hlist] at hexec
    obtain ⟨t, hx, hreply, hsent, hothers, -⟩ := exec_egress_refuse (r := { status := Status.ok }) hexec
    obtain ⟨k, hbase, hsoon, hfuture⟩ := movedBase_spec (base := p.baseSec * 10 ^ 9 + p.baseNs) hcycle
      (s.ptpAt (max s.now h.t))
    have hcast : s.ptpAt (max s.now h.t)
        ≤ ((p.baseSec * 10 ^ 9 + p.baseNs + k * (es.map GateEntry.interval).sum : Nat) : Int) := by
      push_cast at hfuture ⊢
      exact hfuture
    refine ⟨t, _, k, hx, hreply, rfl, hsoon, hcast, ?_, ?_, hothers⟩
    · rw [hsent.listAt, Service.listAt_adoptList hcast, ← hbase]
      exact if_pos le_rfl
    · rw [hsent.staged, Service.adoptList_staged, State.committed]
  case missing =>
    intro h p i s ha hservice hport hlast hsome hfew hmax hns hcommit hi hout hnone
    have hlist : gateListOf p ((s.advance h.t).chunked p).staged = none := by
      refine gateListOf_missing hi ?_
      rw [State.tget_chunked, if_neg (by omega)]
      exact hnone
    have hexec := exec_portConfigGates_accepted (h := h) ha hservice hport hlast hsome hfew (by omega) hmax hns
    rw [gatesDo_incomplete hcommit hlist] at hexec
    obtain ⟨t, hx, hreply, hsent, -, -⟩ := exec_egress_refuse hexec
    refine ⟨t, hx, hreply, fun j => ?_⟩
    rw [hsent.staged, Service.adoptList_staged, State.tget_chunked, State.advance_service]
  case down =>
    intro k p e s hup he hport hlink hfec
    subst he
    obtain ⟨r, hcls, hexec⟩ := exec_linkDown_falls (k := k) hup hport hlink
    have hreported (q : Nat) : ((((s.advance k).setPort e.port ((s.port e.port).fallen e))).report r).port q
        = if q = e.port then (s.port e.port).fallen e else s.port q :=
      (State.report_port ..).trans (State.port_setPort ..)
    refine ⟨_, hexec, ?_, fun q hq => (hreported q).trans (if_neg hq), hcls ▸ State.report_held .., ?_⟩
    · rw [hreported, if_pos rfl, Port.fallen, Port.linkShows_of_fec hfec]
    · rw [State.report_eq]
      rfl
  case up =>
    intro k p e s hup he hport hen hon hber hfec
    subst he
    rw [exec_linkUp_rises hup hport hen hon hber, Port.linkShows_of_fec hfec, hber]
    rfl

end Sys2Proof.Machine
end

section
/-! PROOF. O40: ARP, ICMP and raster frames on a service port (R290 to R293, R303). -/

namespace Sys2Proof.Machine

/-! ## Frames that arise (R281) -/

theorem State.serviceFrameArises (k : Nat) {p : Nat} {s : State} (hlo : 16 ≤ p) (hhi : p ≤ 17)
    (hup : s.portUp p = true) : (inRange 16 p 17 && (s.advance k).portUp p) = true := by
  rw [inRange, decide_eq_true hlo, decide_eq_true hhi]
  exact hup

/-- An answer that comes while another frame is being sent waits, and changes its service port alone. -/
theorem State.answer_waits {u : State} {sp : Nat} (hsending : (u.service sp).sending = true)
    (hnone : (u.service sp).pendingList = none) (f : EgFrame) : ∃ t, u.queueReply sp f = t
      ∧ t.service sp = { u.service sp with replies := (u.service sp).replies ++ [f] }
      ∧ (∀ q, q ≠ sp → t.service q = u.service q) ∧ t = { u with services := t.services } := by
  refine ⟨_, rfl, (State.queueReply_service hnone f hsending sp).trans (if_pos rfl),
    fun q hq => (State.queueReply_service hnone f hsending q).trans (if_neg hq), ?_⟩
  rw [State.queueReply_waits hnone f hsending]
  rfl

/-! ## ARP and ICMP (R290) -/

theorem exec_arpRequest_answered {k p : Nat} {f mac ip : Bytes} {s : State} (hlo : 16 ≤ p) (hhi : p ≤ 17)
    (hup : s.portUp p = true) (harp : arpFor (s.port p).ipv4 (ethOf f).rest = some (mac, ip)) (hsize : sizeOk f = true)
    (hdst : (ethOf f).dst = (s.port p).mac ∨ (ethOf f).dst = List.replicate 6 0xFF)
    (htag : (s.port p).tagOk (ethOf f) = true) (htype : (ethOf f).etype = 0x0806) :
    exec (.arpRequest k p f) s = .next (((s.advance k).accepted p).queueReply (p - 16)
      { cls := 0, wire := 72, dst := (ethOf f).src, req := none
        body := [0, 1, 8, 0, 6, 4, 0, 2] ++ (s.port p).mac ++ (s.port p).ipv4 ++ mac ++ ip }) := by
  have hours : (sizeOk f && ((ethOf f).dst == (s.port p).mac || (ethOf f).dst == List.replicate 6 0xFF)
      && (s.port p).tagOk (ethOf f) && (ethOf f).etype == 0x0806) = true := by
    simp only [hsize, htag, htype, Bool.and_eq_true, Bool.or_eq_true, beq_iff_eq, and_true, true_and]
    exact hdst
  rw [exec_arpRequest, execArpRequest]
  dsimp only
  rw [if_pos (State.serviceFrameArises k hlo hhi hup), State.advance_port, harp]
  exact congrArg Host.Outcome.next (if_pos hours)

theorem exec_arpRequest_other {k p : Nat} {f : Bytes} {s : State} (hlo : 16 ≤ p) (hhi : p ≤ 17)
    (hup : s.portUp p = true) (harp : arpFor (s.port p).ipv4 (ethOf f).rest = none) :
    exec (.arpRequest k p f) s = .next ((s.advance k).discard p) := by
  rw [exec_arpRequest, execArpRequest]
  dsimp only
  rw [if_pos (State.serviceFrameArises k hlo hhi hup), State.advance_port, harp]

/-- The echo requests that a port has answered within the last second. -/
def Port.echoes (now : Nat) (x : Port) : List Nat := x.icmp.filter fun u => decide (now < u + 10 ^ 9)

theorem exec_icmpEcho_answered {k p : Nat} {f b : Bytes} {x : IpPacket} {s : State} (hlo : 16 ≤ p) (hhi : p ≤ 17)
    (hup : s.portUp p = true) (hip : (s.port p).ipFor f = some x) (hdst : x.dst = (s.port p).ipv4)
    (hproto : x.proto = 1) (hecho : echoOf x.body = some b) (hfew : ((s.port p).echoes (max s.now k)).length < 100) :
    exec (.icmpEcho k p f) s = .next ((((s.advance k).accepted p).modPort p fun y =>
        { y with icmp := (s.port p).echoes (max s.now k) ++ [max s.now k] }).queueReply (p - 16)
      { cls := 0, wire := wireOf (20 + b.length), dst := (ethOf f).src ++ x.src, body := b, req := none }) := by
  have hfound : (((s.port p).ipFor f).bind fun q => if q.dst = (s.port p).ipv4 ∧ q.proto = 1 then
      (echoOf q.body).map fun b => (q.src, b) else none) = some (x.src, b) := by
    rw [hip, Option.bind_some, if_pos ⟨hdst, hproto⟩, hecho]
    rfl
  rw [exec_icmpEcho, execIcmpEcho]
  dsimp only
  rw [if_pos (State.serviceFrameArises k hlo hhi hup), State.advance_port, hfound]
  exact congrArg Host.Outcome.next (if_pos hfew)

/-- The 101st echo request within a second is discarded, as is every other frame (R290). -/
theorem exec_icmpEcho_many {k p : Nat} {f : Bytes} {s : State} (hlo : 16 ≤ p) (hhi : p ≤ 17) (hup : s.portUp p = true)
    (hmany : 100 ≤ ((s.port p).echoes (max s.now k)).length) :
    exec (.icmpEcho k p f) s = .next ((s.advance k).discard p) := by
  rw [exec_icmpEcho, execIcmpEcho]
  dsimp only
  rw [if_pos (State.serviceFrameArises k hlo hhi hup)]
  split
  · exact congrArg Host.Outcome.next (if_neg (Nat.not_lt.mpr hmany))
  · rfl

/-! ## The range of a raster packet (R292) -/

theorem State.intakeHole_past {hi va : Nat} (h : hi ≤ va) (asid fuel : Nat) (s : State) :
    s.intakeHole asid hi fuel va = none := by
  cases fuel with
  | zero => exact if_neg (Nat.not_lt.mpr h)
  | succ fuel => exact if_pos h

/-- A range within one pinned, writable page has no hole. -/
theorem State.intakeBad_of_page {asid va n : Nat} {g : Page} {s : State} (hn : n ≠ 0)
    (hpage : s.pageAt asid va = some g) (hw : g.w = true) (hpin : g.pin = true)
    (hend : va + n ≤ g.va + pageBytes g.big) : s.intakeBad asid va n = none := by
  rw [State.intakeBad, State.intakeHole, if_neg (by omega), hpage]
  dsimp only
  rw [hw, hpin]
  exact State.intakeHole_past hend ..

/-- A range within 64 KiB is one piece. -/
theorem vaPieces_one {va n : Nat} (hn : n ≠ 0) (h : va / 65536 = (va + n - 1) / 65536) : vaPieces va n = [(va, n)] := by
  have hmin : min n (0x1_0000 - va % 0x1_0000) = n := by omega
  rw [vaPieces, pieces, if_neg hn, hmin]
  dsimp only
  rw [Nat.sub_self, pieces, if_pos rfl]

/-! ## The write of a raster packet (R205, R292, R293) -/

/-- A write that no other of its cycle meets changes memory and its notes alone (R205). -/
theorem State.storeBy_alone {port a : Nat} {ctx : Option Nat} {b : Bytes} {s : State} (h : s.cycleWrites = []) :
    s.storeBy port ctx a b = { s with mem := (s.storeBy port ctx a b).mem, ms := (s.storeBy port ctx a b).ms } := by
  unfold State.storeBy
  split
  · rfl
  · simp only [h, List.filter_nil, List.flatMap_nil, List.eraseDups_nil, List.foldl_nil, if_true]
    rfl

theorem State.newRaster_same {sp : Nat} {id : BitVec 32} {s : State} (h : (s.service sp).raster = some id) :
    s.newRaster sp id = s := by
  rw [State.newRaster, h]
  exact if_pos rfl

theorem rasterOk_length {b : Bytes} (h : rasterOk b = true) : numAt 0x0E 2 b ≠ 0 ∧ numAt 0x0E 2 b + 24 = b.length := by
  simp only [rasterOk, inRange, Bool.and_eq_true, decide_eq_true_eq, beq_iff_eq] at h
  omega

/-- A packet of the raster in progress that does not end it is written into its one page and counted (R293). -/
theorem State.takeRaster_written {sp va n : Nat} {b : Bytes} {g : Page} {s : State} (hok : rasterOk b = true)
    (hn : n = numAt 0x0E 2 b) (hva : va = (s.service sp).intakeBase + numAt 8 6 b)
    (hsize : numAt 8 6 b + n ≤ (s.service sp).intakeSize) (hone : va / 65536 = (va + n - 1) / 65536)
    (hpage : s.pageAt (s.service sp).asid va = some g) (hw : g.w = true) (hpin : g.pin = true)
    (hend : va + n ≤ g.va + pageBytes g.big) (hmarch : s.marchAt (g.physical va) = false)
    (hlast : bitOf 0 (numAt 3 1 b) = false) (hraster : (s.service sp).raster = some (BitVec.ofNat 32 (numAt 4 4 b))) :
    s.takeRaster sp b = (s.storeBy 3 none (g.physical va) (b.drop 24)).setService sp { s.service sp with
      rbytes := ((s.service sp).rbytes + n) % 2 ^ 32 } := by
  obtain ⟨hsome, hlength⟩ := rasterOk_length hok
  have hall : (b.drop 24).take n = b.drop 24 := List.take_of_length_le (by rw [List.length_drop]; omega)
  have hservice : (s.storeBy 3 none (g.physical va) (b.drop 24)).service sp = s.service sp :=
    State.service_of_services (by simp only [State.storeBy_frame]) sp
  have hlies : ¬ ((s.service sp).intakeSize < numAt 8 6 b + n
      ∨ (s.intakeBad (s.service sp).asid va n).isSome = true) := by
    rw [State.intakeBad_of_page (by omega) hpage hw hpin hend]
    simpa using hsize
  have hstore : s.storePages (s.service sp).asid (vaPieces va n) (b.drop 24)
      = s.storeBy 3 none (g.physical va) (b.drop 24) := by
    rw [vaPieces_one (by omega) hone, State.storePages, hpage]
    dsimp only
    rw [hmarch, if_neg Bool.false_ne_true, hall]
    rfl
  rw [State.takeRaster]
  dsimp only
  rw [← hn, ← hva, if_neg hlies, hstore, State.newRaster_same (by rw [hservice]; exact hraster), hservice, hlast,
    Bool.false_and, Bool.or_false]
  rfl

theorem State.takeRaster_outside {sp : Nat} {b : Bytes} {s : State}
    (h : (s.service sp).intakeSize < numAt 8 6 b + numAt 0x0E 2 b) :
    s.takeRaster sp b = s.setService sp { s.service sp with rbad := min 0xFFFF_FFFF ((s.service sp).rbad + 1) } :=
  if_pos (.inl h)

theorem exec_rasterPacket_taken {k p : Nat} {f : Bytes} {d : Datagram} {s : State} (hlo : 16 ≤ p) (hhi : p ≤ 17)
    (hup : s.portUp p = true) (hudp : (s.port p).udpFor f = some d)
    (hdst : d.dstPort = (s.service (p - 16)).rasterUdp) (hok : rasterOk d.data = true) :
    exec (.rasterPacket k p f) s = .next (((s.advance k).accepted p).takeRaster (p - 16) d.data) := by
  have hours : (d.dstPort == ((s.advance k).service (p - 16)).rasterUdp && rasterOk d.data) = true := by
    rw [State.advance_service, hdst, hok, beq_self_eq_true]
    rfl
  rw [exec_rasterPacket, execRasterPacket, if_pos (State.serviceFrameArises k hlo hhi hup), State.advance_port, hudp]
  exact congrArg Host.Outcome.next (if_pos hours)

/-! ## The obligation -/

/-- Settles O40: an answer waits by `State.answer_waits`, and a raster packet is written by `State.takeRaster_written`,
which no other write of its cycle meets. -/
theorem serviceFrames : Obligations.ServiceFrames := by
  unfold Obligations.ServiceFrames
  refine ⟨?arp, ?other, ?echo, ?many, ?written, ?outside⟩
  case arp =>
    intro k p f mac ip s hlo hhi hup harp hsize hdst htag htype hsending hnone
    have hexec := exec_arpRequest_answered (k := k) hlo hhi hup harp hsize hdst htag htype
    obtain ⟨t, ht, hservice, hothers, hrest⟩ :=
      State.answer_waits (u := (s.advance k).accepted p) (sp := p - 16) hsending hnone _
    rw [ht] at hexec
    have hports : t.ports = ((s.advance k).accepted p).ports := by rw [hrest]
    refine ⟨t, hexec, hservice, hothers, ?_, fun q hq => ?_, ?_⟩
    · rw [State.port_of_ports hports, State.accepted_port, State.advance_port]
    · rw [State.port_of_ports hports, State.accepted_eq, State.port_setPort_ne hq, State.advance_port]
    · rw [hports]
      exact hrest
  case other =>
    intro k p f s hlo hhi hup harp
    exact exec_arpRequest_other hlo hhi hup harp
  case echo =>
    intro k p f b x s hlo hhi hup hip hdst hproto hecho hfew hsending hnone
    have hexec := exec_icmpEcho_answered (k := k) hlo hhi hup hip hdst hproto hecho hfew
    obtain ⟨t, ht, hservice, -, hrest⟩ := State.answer_waits (sp := p - 16) (u := ((s.advance k).accepted p).modPort p
      fun y => { y with icmp := (s.port p).echoes (max s.now k) ++ [max s.now k] }) hsending hnone _
    rw [ht] at hexec
    have hports : t.ports = (((s.advance k).accepted p).modPort p fun y =>
        { y with icmp := (s.port p).echoes (max s.now k) ++ [max s.now k] }).ports := by rw [hrest]
    refine ⟨t, hexec, hservice, ?_, ?_⟩
    · rw [State.port_of_ports hports, State.port_modPort, if_pos rfl, State.accepted_port, State.advance_port]
    · rw [hports]
      exact hrest
  case many =>
    intro k p f s hlo hhi hup hmany
    exact exec_icmpEcho_many hlo hhi hup hmany
  case written =>
    intro k p va n f d g s hlo hhi hup hudp hdst hok hn hva hsize hone hpage hw hpin hend hmarch hcycle hlast hraster
    obtain ⟨-, hlength⟩ := rasterOk_length hok
    have hexec := exec_rasterPacket_taken (k := k) hlo hhi hup hudp hdst hok
    rw [State.takeRaster_written (s := (s.advance k).accepted p) hok hn hva hsize hone hpage hw hpin hend hmarch hlast
      hraster] at hexec
    have halone : ((s.advance k).accepted p).storeBy 3 none (g.physical va) (d.data.drop 24) = _ :=
      State.storeBy_alone hcycle
    have hbytes := State.byteAt_storeBy_alone (s := (s.advance k).accepted p) (port := 3) (a := g.physical va)
      (ctx := none) (b := d.data.drop 24) hcycle
    generalize ((s.advance k).accepted p).storeBy 3 none (g.physical va) (d.data.drop 24) = u at hexec halone hbytes
    refine ⟨_, hexec, fun a => ?bytes, State.service_setService_same .., ?port, ?rest⟩
    case bytes =>
      refine (hbytes a).trans ?_
      rw [State.byteAt_store, List.length_drop, ← hlength, ← hn, Nat.add_sub_cancel, List.getD_eq_getElem?_getD,
        List.getElem?_drop]
      rfl
    case port =>
      have hports : u.ports = ((s.advance k).accepted p).ports := by rw [halone]
      exact congrArg Port.rxf ((State.port_of_ports hports p).trans (State.accepted_port ..))
    case rest =>
      rw [halone]
      rfl
  case outside =>
    intro k p f d s hlo hhi hup hudp hdst hok hout
    rw [exec_rasterPacket_taken hlo hhi hup hudp hdst hok,
      State.takeRaster_outside (s := (s.advance k).accepted p) hout]
    rfl

end Sys2Proof.Machine
end

section
/-! PROOF. O42: PTP messages, losses and the Delay_Req (R281, R290, R294, R296). -/

namespace Sys2Proof.Machine

/-! ## Messages that arise (R281, R290) -/

theorem exec_ptpMessage_taken {k p : Nat} {f : Bytes} {m : PtpMsg} {s : State} (hlo : 16 ≤ p) (hhi : p ≤ 17)
    (hup : s.portUp p = true) (hptp : (s.port p).ptpFor f = some m) :
    exec (.ptpMessage k p f) s = .next (((s.advance k).accepted p).ptpTake (p - 16) m) := by
  rw [exec_ptpMessage, execPtpMessage, if_pos (State.serviceFrameArises k hlo hhi hup), State.advance_port, hptp]

theorem exec_ptpMessage_other {k p : Nat} {f : Bytes} {s : State} (hlo : 16 ≤ p) (hhi : p ≤ 17)
    (hup : s.portUp p = true) (hptp : (s.port p).ptpFor f = none) :
    exec (.ptpMessage k p f) s = .next ((s.advance k).discard p) := by
  rw [exec_ptpMessage, execPtpMessage, if_pos (State.serviceFrameArises k hlo hhi hup), State.advance_port, hptp]

/-! ## The servo (R296) -/

theorem State.ptpUnlock_ptp (s : State) : s.ptpUnlock.ptp = { s.ptp with lock := false, good := 0 } := by
  unfold State.ptpUnlock
  dsimp only
  split
  · exact State.report_ptp ..
  · rfl

/-- A lock that is lost raises the PTP class with cause 1. -/
theorem State.ptpUnlock_of_lock {s : State} (h : s.ptp.lock = true) :
    s.ptpUnlock = { s with ptp := { s.ptp with lock := false, good := 0 } }.ptpReport 1 := if_pos h

/-- The servo y has taken a Sync's origin and receive times from x, whatever its lock and its rate came to. -/
def Ptp.Synced (origin : Int) (recv : Nat) (x y : Ptp) : Prop :=
  y.sync = x.sync ∧ y.syncPair = some (origin, recv) ∧ y.ref = recv ∧ y.offset = origin + x.mpd - (recv : Int)

theorem State.servo_synced (origin : Int) (recv : Nat) (s : State) :
    s.ptp.Synced origin recv (s.servo origin recv).ptp := by
  have hreport (c : Bool) (t : State) : (if c then t.ptpReport 2 else t).ptp = t.ptp := by
    split
    · exact State.report_ptp ..
    · rfl
  rw [State.servo]
  dsimp only
  rw [hreport]
  refine iteInduction (motive := fun t : State => s.ptp.Synced origin recv t.ptp) (fun _ => ?_) fun _ => ?_
  · rw [State.ptpUnlock_ptp]
    exact ⟨rfl, rfl, rfl, rfl⟩
  · exact ⟨rfl, rfl, rfl, rfl⟩

/-! ## The identity of a port -/

theorem State.ptpIdentity_of_mac {k : Nat} {s t : State} (h : (t.port (16 + k)).mac = (s.port (16 + k)).mac) :
    t.ptpIdentity k = s.ptpIdentity k := by
  rw [State.ptpIdentity, h]
  rfl

theorem State.accepted_mac (p q : Nat) (s : State) : ((s.accepted p).port q).mac = (s.port q).mac := by
  rw [State.accepted_eq, State.port_setPort]
  split
  · next h => rw [h]
  · rfl

/-! ## What a message does (R294, R296) -/

section
variable {k : Nat} {m : PtpMsg} {s : State} (hdomain : m.domain = (s.service k).domain)
include hdomain

/-- A better Announce replaces the port's master, and the ports compare again. -/
theorem State.ptpTake_announce {gm : BitVec 64} {rank : Nat} (hbody : m.body = .announce gm rank)
    (hbetter : (s.ptpPort k).master = none ∨ ∃ b, (s.ptpPort k).master = some b
      ∧ (rank < b.2 ∨ rank = b.2 ∧ gm.toNat < b.1.toNat)) :
    s.ptpTake k m
      = (s.modPtpPort k fun x => { x with master := some (gm, rank), source := m.source }).compareMasters := by
  rw [State.ptpTake]
  dsimp only
  rw [if_neg (not_not.mpr hdomain), hbody]
  dsimp only
  obtain hnone | ⟨b, hb, hrank⟩ := hbetter
  · rw [hnone]
    exact if_pos rfl
  · have hwins : betterMaster (gm, rank) b = true := by simpa [betterMaster] using hrank
    rw [hb]
    exact if_pos (Bool.or_eq_true_iff.mpr (.inr hwins))

variable (hslave : (s.ptpPort k).state = 1) (hsource : m.source = (s.ptpPort k).source)
include hslave hsource

/-- The SLAVE port stamps a two-step Sync of its master and waits for its Follow_Up. -/
theorem State.ptpTake_sync {o : Int} (hbody : m.body = .sync true o) :
    s.ptpTake k m = { s with ptp := { s.ptp with
      lastSync := s.now, interval := ptpInterval m.log, sync := some (m.seq, m.corr, s.now) } } := by
  rw [State.ptpTake]
  dsimp only
  rw [if_neg (not_not.mpr hdomain), hbody]
  exact if_pos (by rw [hslave, hsource, beq_self_eq_true, beq_self_eq_true]; rfl)

theorem State.ptpTake_followUp {o c : Int} {r : Nat} (hbody : m.body = .followUp o)
    (hsync : s.ptp.sync = some (m.seq, c, r)) :
    s.ptpTake k m = { s with ptp := { s.ptp with sync := none } }.servo (o + c) r := by
  rw [State.ptpTake]
  dsimp only
  rw [if_neg (not_not.mpr hdomain), hbody]
  dsimp only
  rw [if_pos (by rw [hslave, hsource, beq_self_eq_true, beq_self_eq_true]; rfl), hsync]
  exact if_pos rfl

/-- The Delay_Resp that answers the Delay_Req sets the mean path delay. -/
theorem State.ptpTake_delayResp {r t1 : Int} {t2 t3 : Nat} (hbody : m.body = .delayResp r (s.ptpIdentity k))
    (hreq : s.ptp.req = some (m.seq, t3)) (hpair : s.ptp.syncPair = some (t1, t2)) :
    s.ptpTake k m = { s with ptp := { s.ptp with
      req := none, reqNs := ptpInterval m.log
      mpd := min 0xFFFF_FFFF (roundHalfEven ((s.ptpAt t2 - t1) + (r - s.ptpAt t3)) 2).toNat } } := by
  rw [State.ptpTake]
  dsimp only
  rw [if_neg (not_not.mpr hdomain), hbody]
  dsimp only
  rw [if_pos (by rw [hslave, hsource, beq_self_eq_true, beq_self_eq_true, beq_self_eq_true]; rfl), hreq, hpair]
  exact if_pos rfl

end

/-! ## The Delay_Req (R294, R301) -/

/-- The servo whose Delay_Req q has been made. -/
def State.requested (q : Nat) (s : State) : State :=
  { s with ptp := { s.ptp with reqSeq := q, lastReq := some s.now } }

theorem exec_delayReq_due {k p : Nat} {s : State} (hlo : 16 ≤ p) (hhi : p ≤ 17) (hup : s.portUp p = true)
    (hslave : (s.ptpPort (p - 16)).state = 1) (hdue : ∀ u ∈ s.ptp.lastReq, u + s.ptp.reqNs ≤ max s.now k) :
    exec (.delayReq k p) s = .next (((s.advance k).requested ((s.ptp.reqSeq + 1) % 65536)).queueReply (p - 16) {
      cls := 7, wire := 98, dst := ptpGroupMac ++ ptpGroup, req := some ((s.ptp.reqSeq + 1) % 65536)
      body := s.delayReqBody (p - 16) ((s.ptp.reqSeq + 1) % 65536) }) := by
  have hall : ((s.advance k).ptp.lastReq.all fun u => decide (u + s.ptp.reqNs ≤ max s.now k)) = true := by
    rw [Option.all_eq_true]
    exact fun u hu => decide_eq_true (hdue u (Option.mem_def.mpr hu))
  have hguard : (inRange 16 p 17 && (s.advance k).portUp p && ((s.advance k).ptpPort (p - 16)).state == 1
      && (s.advance k).ptp.lastReq.all fun u => decide (u + s.ptp.reqNs ≤ max s.now k)) = true := by
    rw [State.serviceFrameArises k hlo hhi hup, State.advance_ptpPort, hslave, hall]
    rfl
  exact congrArg Host.Outcome.next (if_pos hguard)

/-! ## Losses (R294, R296) -/

theorem exec_ptpSyncTimeout_lost {k : Nat} {s : State} (hup : s.up = true) (hlock : s.ptp.lock = true)
    (hlate : s.ptp.lastSync + 3 * s.ptp.interval ≤ max s.now k) :
    exec (.ptpSyncTimeout k) s = .next (State.ptpReport 1
      { s.advance k with ptp := { s.ptp with lock := false, good := 0 } }) := by
  have hguard : ((s.advance k).up && (s.advance k).ptp.lock
      && decide ((s.advance k).ptp.lastSync + 3 * (s.advance k).ptp.interval ≤ (s.advance k).now)) = true := by
    rw [State.advance_up, hup]
    exact Bool.and_eq_true_iff.mpr ⟨hlock, decide_eq_true hlate⟩
  exact congrArg Host.Outcome.next ((if_pos hguard).trans (State.ptpUnlock_of_lock (s := s.advance k) hlock))

/-- A port whose master is gone. -/
def PtpPort.masterless (x : PtpPort) : PtpPort := { x with master := none }

theorem exec_ptpMasterLost_slave {k : Nat} {s : State} (hup : s.up = true) (hslave : (s.ptpPort 0).state = 1) :
    exec (.ptpMasterLost k) s = .next ((s.advance k).modPtpPort 0 PtpPort.masterless).compareMasters := by
  have hfind : [0, 1].find? (fun j => ((s.advance k).ptpPort j).state == 1) = some 0 :=
    List.find?_cons_of_pos (by rw [State.advance_ptpPort, hslave]; rfl)
  rw [exec_ptpMasterLost, execPtpMasterLost, hfind]
  exact congrArg Host.Outcome.next (if_pos hup)

/-! ## The obligation -/

/-- Settles O42: what a message does is `State.ptpTake`, case by case; the ports' masters are read after
`State.compareMasters_ptpPort`. -/
theorem precisionTime : Obligations.PrecisionTime := by
  unfold Obligations.PrecisionTime
  refine ⟨?other, ?announce, ?sync, ?followUp, ?delayResp, ?delayReq, ?timeout, ?masterLost⟩
  case other =>
    intro k p f s hlo hhi hup hptp
    exact exec_ptpMessage_other hlo hhi hup hptp
  case announce =>
    intro k p rank f m gm s hlo hhi hup hptp hdomain hbody hbetter
    have hexec := exec_ptpMessage_taken (k := k) hlo hhi hup hptp
    rw [State.ptpTake_announce (s := (s.advance k).accepted p) hdomain hbody hbetter] at hexec
    have hrest := State.compareMasters_eq (((s.advance k).accepted p).modPtpPort (p - 16) fun x =>
      { x with master := some (gm, rank), source := m.source })
    have hports := congrArg State.ports hrest
    have hservo := State.compareMasters_ptp (((s.advance k).accepted p).modPtpPort (p - 16) fun x =>
      { x with master := some (gm, rank), source := m.source })
    have hport := State.compareMasters_ptpPort (k := p - 16) (by omega) (((s.advance k).accepted p).modPtpPort (p - 16)
      fun x => { x with master := some (gm, rank), source := m.source })
    rw [State.modPtpPort, State.ptpPort_setPtpPort_same] at hport
    refine ⟨_, hexec, ?_, ?_, ?_, ?_, ?_, ?_, ?_⟩
    · rw [State.modPtpPort, hport, PtpPort.compared_master]
    · rw [State.modPtpPort, hport, PtpPort.compared_source]
    · exact congrArg Port.rxf ((State.port_of_ports hports p).trans (State.accepted_port ..))
    · rw [hservo]
      rfl
    · rw [hservo]
      rfl
    · rw [hservo]
      rfl
    · exact hrest
  case sync =>
    intro k p o f m s hlo hhi hup hptp hdomain hbody hslave hsource
    rw [exec_ptpMessage_taken hlo hhi hup hptp,
      State.ptpTake_sync (s := (s.advance k).accepted p) hdomain hslave hsource hbody]
    rfl
  case followUp =>
    intro k p o c r f m s hlo hhi hup hptp hdomain hbody hslave hsource hsync
    have hexec := exec_ptpMessage_taken (k := k) hlo hhi hup hptp
    rw [State.ptpTake_followUp (s := (s.advance k).accepted p) hdomain hslave hsource hbody hsync] at hexec
    obtain ⟨hwaits, hpair, href, hoffset⟩ := State.servo_synced (o + c) r
      { (s.advance k).accepted p with ptp := { s.ptp with sync := none } }
    refine ⟨_, hexec, hwaits, hpair, href, hoffset, ?_⟩
    have hports : (State.servo (o + c) r { (s.advance k).accepted p with ptp := { s.ptp with sync := none } }).ports
        = ((s.advance k).accepted p).ports := by simp only [State.servo_frame]
    exact congrArg Port.rxf ((State.port_of_ports hports p).trans (State.accepted_port ..))
  case delayResp =>
    intro k p t2 t3 r t1 f m s hlo hhi hup hptp hdomain hbody hslave hsource hreq hpair
    have hidentity : ((s.advance k).accepted p).ptpIdentity (p - 16) = s.ptpIdentity (p - 16) :=
      State.ptpIdentity_of_mac (State.accepted_mac ..)
    rw [exec_ptpMessage_taken hlo hhi hup hptp, State.ptpTake_delayResp (s := (s.advance k).accepted p) hdomain hslave
      hsource (by rw [hidentity]; exact hbody) hreq hpair]
    rfl
  case delayReq =>
    intro k p q s hlo hhi hup hslave hdue hq hsending hnone
    subst hq
    have hexec := exec_delayReq_due hlo hhi hup hslave hdue
    obtain ⟨t, ht, hservice, hothers, hrest⟩ := State.answer_waits (sp := p - 16)
      (u := (s.advance k).requested ((s.ptp.reqSeq + 1) % 65536)) hsending hnone _
    rw [ht] at hexec
    exact ⟨t, hexec, hservice, hothers, hrest⟩
  case timeout =>
    intro k s hup hlock hlate
    refine ⟨_, exec_ptpSyncTimeout_lost hup hlock hlate, State.report_ptp .., State.report_held .., ?_⟩
    rw [State.ptpReport, State.report_eq]
    rfl
  case masterLost =>
    intro k gm rank s hup hslave hpassive hmaster
    have hexec := exec_ptpMasterLost_slave (k := k) hup hslave
    have h0 : ((s.advance k).modPtpPort 0 PtpPort.masterless).ptpPort 0 = (s.ptpPort 0).masterless :=
      State.ptpPort_setPtpPort_same ..
    have h1 : ((s.advance k).modPtpPort 0 PtpPort.masterless).ptpPort 1 = s.ptpPort 1 :=
      State.ptpPort_setPtpPort_ne Nat.one_ne_zero ..
    have hframe : (s.advance k).modPtpPort 0 PtpPort.masterless = { s with
        now := max s.now k, ptpPorts := ((s.advance k).modPtpPort 0 PtpPort.masterless).ptpPorts } := rfl
    generalize (s.advance k).modPtpPort 0 PtpPort.masterless = u at hexec h0 h1 hframe
    have hbest : u.bestPort = some 1 := by
      rw [State.bestPort, h0, h1, hmaster]
      rfl
    have hservo := u.compareMasters_ptp
    rw [hbest, Option.bind_some, h1, hmaster] at hservo
    refine ⟨_, hexec, ?_, ?_, ?_, ?_, ?_⟩
    · rw [State.compareMasters_ptpPort (Nat.zero_le 1), hbest, h0, PtpPort.compared, PtpPort.masterless, hslave]
      rfl
    · rw [State.compareMasters_ptpPort le_rfl, hbest, h1, PtpPort.compared, hpassive]
      rfl
    · rw [hservo]
      rfl
    · rw [hservo, hframe]
    · have hrest := u.compareMasters_eq
      rw [hrest, hframe]

end Sys2Proof.Machine
end

section
/-! PROOF. O20: the data blocks of function 2 (R315, R392 to R395). -/

namespace Sys2Proof.Machine

/-! ## Where a block goes (R315) -/

section
variable {x : Xfer} {d : Bytes} {s : State}

/-- A block that is not a shard's goes to no place in HBM. -/
theorem State.placeBlock_elsewhere (h : x.kind ≠ 2) : s.placeBlock x d = s :=
  if_neg fun hshard => h hshard.1

/-- A whole block of a shard that is still to verify goes to its place in HBM. -/
theorem State.placeBlock_shard (hkind : x.kind = 2) (hstate : (s.bundle x.handle).state = 1)
    (hnew : (s.bundle x.handle).verified.contains x.index = false)
    (hfit : 2048 * x.taken + d.length ≤ (s.bundle x.handle).shardLen x.index) :
    s.placeBlock x d = s.store ((s.bundle x.handle).addr (shardBytes * x.index) + 2048 * x.taken) d := by
  have hshard : x.kind = 2 ∧ ((s.bundle x.handle).state = 1 ∨ (s.bundle x.handle).state = 3)
      ∧ (!(s.bundle x.handle).verified.contains x.index) = true := ⟨hkind, .inl hstate, by rw [hnew]; rfl⟩
  exact (if_pos hshard).trans (congrArg (s.store _) (List.take_of_length_le (by omega)))

/-! ## What a good block does (R392, R394) -/

theorem State.takeBlock_closed (hopen : s.bulk.xfer = none) :
    s.takeBlock d = { s with bulk := { s.bulk with noxfer := true } } := by
  simp only [State.takeBlock, hopen]

section
variable (hopen : s.bulk.xfer = some x) (hfull : x.full = false)
include hopen hfull

/-- A block enters an open transfer that it does not end. -/
theorem State.takeBlock_enters (hdir : x.kind ≠ 4) (hmore : (x.kind = 3 ∨ x.kind = 5) → (x.take d).full = false) :
    s.takeBlock d = { s.placeBlock x d with bulk := { s.bulk with xfer := some (x.take d) } } := by
  have htrim : ¬ ((x.take d).kind = 3 ∧ (x.take d).full = true) :=
    fun h => Bool.false_ne_true ((hmore (.inl h.1)).symm.trans h.2)
  have hboot : ¬ ((x.take d).kind = 5 ∧ (x.take d).full = true) :=
    fun h => Bool.false_ne_true ((hmore (.inr h.1)).symm.trans h.2)
  simp only [State.takeBlock, hopen, Xfer.toHost, beq_eq_false_iff_ne.mpr hdir, hfull, Bool.false_eq_true, if_false,
    htrim, hboot]

/-- The last block of a trim write closes it. -/
theorem State.takeBlock_trimWrite (hkind : x.kind = 3) (hlast : (x.take d).full = true) :
    s.takeBlock d = { s with bulk := { s.bulk with xfer := none, arrived := some (x.take d), closed := true } } := by
  have htrim : (x.take d).kind = 3 ∧ (x.take d).full = true := ⟨hkind, hlast⟩
  have hdir : x.toHost = false := by rw [Xfer.toHost, hkind]; rfl
  simp only [State.takeBlock, hopen, hdir, hfull, Bool.false_eq_true, if_false, htrim, and_self, if_true]

/-- The last block of a boot image closes it. -/
theorem State.takeBlock_bootImage (hkind : x.kind = 5) (hlast : (x.take d).full = true) :
    s.takeBlock d = { s with bulk := { s.bulk with xfer := none, image := some (x.take d), closed := true } } := by
  have hkind' : (x.take d).kind = 5 := hkind
  have hdir : x.toHost = false := by rw [Xfer.toHost, hkind]; rfl
  simp [State.takeBlock, hopen, hdir, hfull, hkind', hlast]

end

end

/-! ## The events -/

section
variable {n : Nat} {d : Bytes} {s : State}

theorem exec_f2BlockWrite_good (hfn : (s.advance n).sdFunction 2 = true) (hd : d.length = 2048) :
    exec (.f2BlockWrite n d true) s
      = .next (((s.advance n).takeBlock d).sdAnswer .selected (.crcStatus true)) := by
  rw [exec_f2BlockWrite, execF2BlockWrite]
  simp only [hfn, hd, Bool.not_true, Bool.false_eq_true, if_false, ne_eq, not_true_eq_false, if_true]

theorem exec_f2BlockWrite_bad (hfn : (s.advance n).sdFunction 2 = true) (hd : d.length = 2048) :
    exec (.f2BlockWrite n d false) s
      = .next ((s.advance n).crcFailed.sdAnswer .selected (.crcStatus false)) := by
  rw [exec_f2BlockWrite, execF2BlockWrite]
  simp only [hfn, hd, Bool.not_true, Bool.false_eq_true, if_false, ne_eq, not_true_eq_false]

/-- A block of a shard changes the transfer, and the memory at its 2,048 bytes. -/
theorem f2BlockWrite_shard {a : Nat} {x : Xfer} {b : Bundle} (hfn : (s.advance n).sdFunction 2 = true)
    (hd : d.length = 2048) (hopen : s.bulk.xfer = some x) (hkind : x.kind = 2) (hfull : x.full = false)
    (hb : b = s.bundle x.handle) (hstate : b.state = 1) (hnew : b.verified.contains x.index = false)
    (ha : a = b.addr (shardBytes * x.index) + 2048 * x.taken) (hfit : 2048 * x.taken + 2048 ≤ b.shardLen x.index) :
    ∃ t, exec (.f2BlockWrite n d true) s = .next t ∧ t.bulk = { s.bulk with xfer := some (x.take d) }
      ∧ (∀ i, t.byteAt i = if a ≤ i ∧ i < a + 2048 then (d[i - a]?).getD 0 else s.byteAt i)
      ∧ t.sdio = { s.sdio with card := .selected, resp := .crcStatus true }
      ∧ t = { s with now := max s.now n, bulk := t.bulk, sdio := t.sdio, mem := t.mem, ms := t.ms } := by
  subst hb ha
  have hstored : (s.advance n).placeBlock x d = (s.advance n).store _ d :=
    State.placeBlock_shard hkind hstate hnew (hd ▸ hfit)
  have hexec := exec_f2BlockWrite_good hfn hd
  rw [State.takeBlock_enters (s := s.advance n) hopen hfull (by omega) (by omega), hstored] at hexec
  refine ⟨_, hexec, rfl, fun i => ?_, rfl, rfl⟩
  have hbyte := State.byteAt_store (s.advance n) (((s.advance n).bundle x.handle).addr (shardBytes * x.index)
    + 2048 * x.taken) d i
  rw [hd] at hbyte
  exact hbyte

/-- The next block of a trim read that is ready is served; its last one closes the transfer. -/
theorem exec_f2BlockRead_serves {x : Xfer} (hfn : (s.advance n).sdFunction 2 = true) (hopen : s.bulk.xfer = some x)
    (hkind : x.kind = 4) (hready : x.ready = true) :
    exec (.f2BlockRead n) s = .next { s with
      now := max s.now n
      bulk := { s.bulk with
        readOut := sliceBytes (2048 * x.taken) 2048 x.buf
        closed := s.bulk.closed || ({ x with taken := x.taken + 1 } : Xfer).full
        xfer := if ({ x with taken := x.taken + 1 } : Xfer).full then none
          else some { x with taken := x.taken + 1 } } } := by
  have hserves : (x.toHost && x.ready) = true := by rw [Xfer.toHost, hkind, hready]; rfl
  refine congrArg Host.Outcome.next ((if_pos hfn).trans ?_)
  simp only [State.serveBlock, State.advance_frame, hopen, hserves, if_true]
  cases ({ x with taken := x.taken + 1 } : Xfer).full
  · simp only [Bool.false_eq_true, if_false, Bool.or_false]
    rfl
  · simp only [if_true, Bool.or_true]
    rfl

end

/-- Settles O20: a good block does what `State.takeBlock` does in its case, and a read serves what is ready. -/
theorem functionTwoBlocks : Obligations.FunctionTwoBlocks := by
  unfold Obligations.FunctionTwoBlocks
  refine ⟨fun n d x s hfn hd hopen hkind hfull hmore => ?enters, fun n a d x b s => f2BlockWrite_shard,
    fun n d x s hfn hd hopen hkind hfull hlast => ?trimWrite, fun n d x s hfn hd hopen hkind hfull hlast => ?bootImage,
    fun n d s hfn hd hopen => ?closed, fun n d s hfn hd => exec_f2BlockWrite_bad hfn hd,
    fun n x s => exec_f2BlockRead_serves⟩
  case enters =>
    have htaken := State.takeBlock_enters (d := d) (s := s.advance n) hopen hfull (by omega)
      fun hk => hmore.resolve_left (by omega)
    rw [State.placeBlock_elsewhere (by omega)] at htaken
    rw [exec_f2BlockWrite_good hfn hd, htaken]
    rfl
  case trimWrite =>
    rw [exec_f2BlockWrite_good hfn hd, State.takeBlock_trimWrite (s := s.advance n) hopen hfull hkind hlast]
    rfl
  case bootImage =>
    rw [exec_f2BlockWrite_good hfn hd, State.takeBlock_bootImage (s := s.advance n) hopen hfull hkind hlast]
    rfl
  case closed =>
    rw [exec_f2BlockWrite_good hfn hd, State.takeBlock_closed (s := s.advance n) hopen]
    rfl

end Sys2Proof.Machine
end

section
/-! PROOF. Rules for the operations on model slots (R325 to R331), for O47. -/

namespace Sys2Proof.Machine

/-! ## A slot and the pillows -/

/-- The state in which slot n holds x, and the pillows are ps. -/
def State.slotted (n : Nat) (x : Slot) (ps : Tbl Pillow) (s : State) : State := { s.setSlot n x with pillows := ps }

section
variable {n : Nat} {x : Slot} {ps : Tbl Pillow} {s : State}

@[simp] theorem State.slot_slotted_same : (s.slotted n x ps).slot n = x := State.slot_setSlot_same n x s

theorem State.slot_slotted_ne {m : Nat} (h : m ≠ n) : (s.slotted n x ps).slot m = s.slot m :=
  (State.slot_setSlot n m x s).trans (if_neg h)

end

theorem State.advance_slot (u n : Nat) (s : State) : (s.advance u).slot n = s.slot n := rfl

/-! ## Operations that change a slot and the pillows alone -/

theorem State.wakeBobbins_eq (n : Nat) (s : State) :
    s.wakeBobbins n = { s with pillows := (s.wakeBobbins n).pillows } :=
  State.eq_of_parts (by simp only [State.wakeBobbins_frame, and_self])

theorem State.restBobbins_eq (n : Nat) (s : State) :
    s.restBobbins n = { s with pillows := (s.restBobbins n).pillows } :=
  State.eq_of_parts (by simp only [State.restBobbins_frame, and_self])

theorem State.dropSlotRefresh_eq (n : Nat) (s : State) :
    s.dropSlotRefresh n = { s with pillows := (s.dropSlotRefresh n).pillows } :=
  State.eq_of_parts (by simp only [State.dropSlotRefresh_frame, and_self])

/-- A slot as it enters DRAINING (R328, R330). -/
def Slot.draining (op : Nat) (next : Option Nat) (hdr : Option Hdr) (sheet : Nat) (x : Slot) : Slot :=
  { x with state := 4, op := op, next := next, hdr := hdr, sheet := sheet }

theorem State.drain_eq (n op : Nat) (next : Option Nat) (hdr : Option Hdr) (s : State) : s.drain n op next hdr
    = s.slotted n ((s.slot n).draining op next hdr s.nextSheet) (s.drain n op next hdr).pillows :=
  State.dropSlotRefresh_eq n _

theorem State.emptySlot_eq (n : Nat) (s : State) :
    s.emptySlot n = s.slotted n { sheet := (s.slot n).sheet } (s.emptySlot n).pillows := by
  unfold State.emptySlot
  rw [State.restBobbins_eq]
  rfl

/-! ## A slot that fails (R486) -/

/-- A slot as it enters FAILED. -/
def Slot.failed (x : Slot) : Slot := { x with state := 6, next := none, left := [], hdr := none }

section
variable {n p b : Nat} {s : State}

theorem State.slotDown_eq : s.slotDown n p b = { s.setSlot n (s.slot n).failed with
    latches := (s.slotDown n p b).latches, queues := (s.slotDown n p b).queues } := State.report_eq ..

theorem State.slot_slotDown_same : (s.slotDown n p b).slot n = (s.slot n).failed := by
  refine (State.slot_of_slots (s := s.setSlot n (s.slot n).failed) ?_ n).trans (State.slot_setSlot_same ..)
  rw [State.slotDown_eq]

theorem State.slotDown_held : ((s.slotDown n p b).latch 28).held = true := State.report_held ..

end

/-! ## What a programming reads of its bundle (R310 to R312) -/

section
variable {b : Bundle} {s t : State} (hmem : t.mem = s.mem)
include hmem

theorem State.bodyNum_of_mem (a n : Nat) : t.bodyNum b a n = s.bodyNum b a n := by
  unfold State.bodyNum State.body State.byteAt
  rw [hmem]

theorem State.targetsOf_of_mem : t.targetsOf b = s.targetsOf b := by
  simp only [State.targetsOf, State.targetEntry, State.imageEntry, State.bodyNum_of_mem hmem]

theorem State.factorsOf_of_mem : t.factorsOf b = s.factorsOf b := by
  simp only [State.factorsOf, State.factorEntry, State.bodyNum_of_mem hmem]

end

/-! ## A slot's programming starts (R325) -/

/-- A slot whose programming from a bundle starts. -/
def Slot.programming (map : List Nat) (ts : List Target) (fs : List FactorBlock) (now : Nat) (x : Slot) : Slot :=
  { x with
    map := map, targets := ts, factors := fs, failedAt := none, start := now
    left := ts.map fun t => (map.getD t.ppil 0xFF, t.logical) }

/-- The sums, the factors and the requests of a programming reach the pillows. -/
def State.programAsked (n k : Nat) (map : List Nat) (s : State) : State :=
  let b := s.bundle k
  let s' := (s.targetsOf b).foldl (fun s t => s.loadSums b map t) s
  let s' := (s.factorsOf b).foldl (fun s f => s.loadFactors b map f) s'
  (s.targetsOf b).foldl (fun s t => s.askProgram n k map t) s'

section
variable {n k : Nat} {map : List Nat} {s : State}

theorem State.programAsked_now : (s.programAsked n k map).now = s.now := by
  simp [State.programAsked, State.askProgram_frame, State.loadFactors_frame, State.loadSums_frame]

theorem State.programAsked_slots : (s.programAsked n k map).slots = s.slots := by
  simp [State.programAsked, State.askProgram_frame, State.loadFactors_frame, State.loadSums_frame]

theorem State.startProgram_eq : s.startProgram n k map = (s.programAsked n k map).modSlot n
    (Slot.programming map (s.targetsOf (s.bundle k)) (s.factorsOf (s.bundle k)) (s.programAsked n k map).now) := rfl

theorem State.slot_startProgram_same : (s.startProgram n k map).slot n
    = (s.slot n).programming map (s.targetsOf (s.bundle k)) (s.factorsOf (s.bundle k)) s.now := by
  rw [State.startProgram_eq, State.slot_modSlot_same, State.slot_of_slots State.programAsked_slots,
    State.programAsked_now]

theorem State.slot_startProgram_ne {m : Nat} (h : m ≠ n) : (s.startProgram n k map).slot m = s.slot m := by
  rw [State.startProgram_eq, State.slot_modSlot_ne h, State.slot_of_slots State.programAsked_slots]

end

end Sys2Proof.Machine
end

section
/-! PROOF. O47: the commands and events of model slots (R323, R325 to R331, R431 to R433). -/

namespace Sys2Proof.Machine

/-! ## What a reply about a slot leaves -/

section
variable {c : Instr} {h : Hdr} {k n op form status : Nat} {b : Bytes} {x : Slot} {ps : Tbl Pillow} {s : State}

theorem State.reply_replied : Replied h op status b s (s.reply h op form status b) :=
  State.refuse_replied h op form { status := status, payload := b } s

theorem State.reply_eq : s.reply h op form status b = { s with queues := (s.reply h op form status b).queues } :=
  State.present_eq Nat.one_ne_zero _ s

theorem State.slot_release (tag : BitVec 32) (m : Nat) : (s.release op tag).slot m = s.slot m := rfl

/-- A state with the slots of a slotted one holds its slot, and the others as they were. -/
theorem State.slot_of_slotted {t : State} (hslots : t.slots = (s.slotted n x ps).slots) :
    t.slot n = x ∧ ∀ m, m ≠ n → t.slot m = s.slot m :=
  ⟨(State.slot_of_slots hslots n).trans State.slot_slotted_same,
    fun m hm => (State.slot_of_slots hslots m).trans (State.slot_slotted_ne hm)⟩

/-- A command that changes a slot and the pillows, and answers. -/
theorem exec_slotted_done (hx : exec c s = .next (((s.advance k).slotted n x ps).done h op form b)) :
    ∃ t, exec c s = .next t ∧ Replied h op Status.ok b s t ∧ t.slot n = x ∧ (∀ m, m ≠ n → t.slot m = s.slot m)
      ∧ t = { s with
          now := max s.now k, slots := t.slots, pillows := t.pillows, queues := t.queues, mgmt := t.mgmt } := by
  have hdone := State.done_eq h op form b ((s.advance k).slotted n x ps)
  have hslots : (((s.advance k).slotted n x ps).done h op form b).slots = (s.slotted n x ps).slots := by
    rw [hdone]; rfl
  have hqueues : ((s.advance k).slotted n x ps).queues = s.queues := rfl
  obtain ⟨hslot, hrest⟩ := State.slot_of_slotted hslots
  refine ⟨_, hx, .of_queues hqueues (State.done_replied ..), hslot, hrest, ?_⟩
  rw [hdone]
  rfl

/-- A state that differs from a slotted one by its queues. -/
theorem State.slotted_queues {t : State} (ht : t = { (s.advance k).slotted n x ps with queues := t.queues }) :
    t.slot n = x ∧ (∀ m, m ≠ n → t.slot m = s.slot m) ∧ t.pillows = ps
      ∧ t = { s with now := max s.now k, slots := t.slots, pillows := ps, queues := t.queues } := by
  have hslots : t.slots = (s.slotted n x ps).slots := by rw [ht]; rfl
  obtain ⟨hslot, hrest⟩ := State.slot_of_slotted hslots
  exact ⟨hslot, hrest, by rw [ht]; rfl, ht.trans (by rw [hslots]; rfl)⟩

/-- An event that changes a slot and the pillows, and replies to the command that waits. -/
theorem exec_slotted_reply (hx : exec c s = .next (((s.advance k).slotted n x ps).reply h op form status b)) :
    ∃ t, exec c s = .next t ∧ Replied h op status b s t ∧ t.slot n = x ∧ (∀ m, m ≠ n → t.slot m = s.slot m)
      ∧ t.pillows = ps
      ∧ t = { s with now := max s.now k, slots := t.slots, pillows := ps, queues := t.queues } := by
  have hqueues : ((s.advance k).slotted n x ps).queues = s.queues := rfl
  exact ⟨_, hx, .of_queues hqueues State.reply_replied, State.slotted_queues State.reply_eq⟩

end

/-! ## A slot in PROGRAMMING, DRAINING or STOPPED (R331) -/

theorem State.slotBusy_held {n : Nat} {s : State} (claim : Nat)
    (h : (s.slot n).state = 1 ∨ (s.slot n).state = 4 ∨ (s.slot n).state = 5) :
    s.slotBusy claim n = some (resHeld (s.slot n).op claim 11 n noPillow n) := by
  rcases h with h | h | h
  all_goals
    rw [State.slotBusy, h]
    rfl

theorem State.slotBusy_free {n : Nat} {s : State} (claim : Nat)
    (h : (s.slot n).state = 2 ∨ (s.slot n).state = 3 ∨ (s.slot n).state = 6) : s.slotBusy claim n = none := by
  rcases h with h | h | h
  all_goals
    rw [State.slotBusy, h]
    rfl

/-! ## SLOT_PROGRAM (R325, R431) -/

theorem firstOf_eq_none {l : List (Option Reject)} : firstOf l = none ↔ ∀ c ∈ l, c = none := by
  induction l with
  | nil => simp [firstOf]
  | cons c l ih => rw [firstOf_cons_eq_none, ih, List.forall_mem_cons]

section
variable {h : Hdr} {n k : Nat} {map : List Nat} {s : State}

theorem slotProgramParams_eq_none (hn : n ≤ 63) (hk : k ≤ 15)
    (hmap : ∀ i, i < 48 → map.getD i 0xFF ≤ 47 ∨ map.getD i 0xFF = 0xFF) :
    firstOf ([require (decide (n ≤ 63)) (paramBadAt 8), require (decide (k ≤ 15)) (paramBadAt 9)]
      ++ (List.range 48).map fun i =>
        require (decide (map.getD i 0xFF ≤ 47) || map.getD i 0xFF == 0xFF) (paramBadAt (0x0C + i))) = none := by
  rw [List.cons_append, firstOf_cons_eq_none, List.cons_append, firstOf_cons_eq_none, List.nil_append, firstOf_eq_none]
  simp only [require_eq_none, List.forall_mem_map, List.mem_range, Bool.or_eq_true, decide_eq_true_eq, beq_iff_eq]
  exact ⟨hn, hk, hmap⟩

/-- A slot as SLOT_PROGRAM takes it into PROGRAMMING. -/
def Slot.taken (h : Hdr) (k model : Nat) (x : Slot) : Slot :=
  { x with
    state := 1, handle := k, next := none, model := model, hdr := some h, op := Op.slotProgram, fromSheet := 0 }

/-- Shards that are sound are digested without a trace at any device time (R323). -/
theorem State.digestShards_advance (u : Nat)
    (hsound : ∀ i ∈ s.shardsRead (s.bundle k), s.shardFault (s.bundle k) i = none) (herrs : s.ms.errs = []) :
    (s.advance u).digestShards k ((s.advance u).shardsRead ((s.advance u).bundle k)) = s.advance u :=
  State.digestShards_sound (s := s) (l := s.shardsRead (s.bundle k)) rfl rfl rfl herrs hsound

section
variable (hacc : s.accepts Op.slotProgram false = true) (hn : n ≤ 63) (hk : k ≤ 15)
  (hmap : ∀ i, i < 48 → map.getD i 0xFF ≤ 47 ∨ map.getD i 0xFF = 0xFF) (hcheck : slotProgramCheck n k map s = none)
  (hsound : ∀ i ∈ s.shardsRead (s.bundle k), s.shardFault (s.bundle k) i = none) (herrs : s.ms.errs = [])
  (hstate : (s.bundle k).state = 2)
include hacc hn hk hmap hcheck hsound herrs hstate

theorem exec_slotProgram_taken :
    exec (.slotProgram h n k map) s = .next ((((s.advance h.t).modSlot n
      (Slot.taken h k (s.bundle k).model)).startProgram n k map).release Op.slotProgram h.tag) := by
  rw [exec_slotProgram, execSlotProgram, hostCommand_accepted (slotProgramParams_eq_none hn hk hmap) hacc hcheck,
    slotProgramDo, State.digestShards_advance h.t hsound herrs]
  exact congrArg Host.Outcome.next (if_neg (not_not_intro hstate))

theorem slotProgram_taken :
    ∃ t, exec (.slotProgram h n k map) s = .next t
      ∧ t.slot n = { s.slot n with
          state := 1, handle := k, next := none, model := (s.bundle k).model, hdr := some h, op := Op.slotProgram
          fromSheet := 0, map := map, targets := s.targetsOf (s.bundle k), factors := s.factorsOf (s.bundle k)
          failedAt := none, start := max s.now h.t
          left := (s.targetsOf (s.bundle k)).map fun g => (map.getD g.ppil 0xFF, g.logical) }
      ∧ (∀ m, m ≠ n → t.slot m = s.slot m) ∧ t.bundles = s.bundles ∧ t.mem = s.mem ∧ t.templates = s.templates
      ∧ t.jobs = s.jobs ∧ t.pricks = s.pricks ∧ t.ms = s.ms := by
  refine ⟨_, exec_slotProgram_taken hacc hn hk hmap hcheck hsound herrs hstate, ?_, fun m hm => ?_, ?_⟩
  · rw [State.slot_release, State.slot_startProgram_same, State.slot_modSlot_same, State.targetsOf_of_mem (s := s) rfl,
      State.factorsOf_of_mem (s := s) rfl]
    rfl
  · rw [State.slot_release, State.slot_startProgram_ne hm, State.slot_modSlot_ne hm, State.advance_slot]
  · simp only [State.release_frame, State.startProgram_frame, State.modSlot_frame, State.advance_frame, and_self]

end

end

/-! ## What is left of a programming -/

section
variable {n : Nat} {s : State}

theorem State.slotLeft_nil (hleft : (s.slot n).left = []) : s.slotLeft n = [] := by
  rw [State.slotLeft, hleft]
  rfl

theorem State.slotFault_none (hleft : (s.slot n).left = []) (hgood : (s.slot n).failedAt = none) :
    s.slotFault n = none := by
  rw [State.slotFault, hleft, hgood]
  rfl

theorem State.slotFault_some {e : Nat × Nat} (hbad : (s.slot n).failedAt = some e) : s.slotFault n = some e := by
  rw [State.slotFault, hbad]
  rfl

end

/-! ## SLOT_PROGRAM_END (R326, R431) -/

section
variable {u n : Nat} {h : Hdr} {s : State}

theorem slotProgramEnd_ready (halive : s.alive = true) (hstate : (s.slot n).state = 1) (hleft : (s.slot n).left = [])
    (hgood : (s.slot n).failedAt = none) (hhdr : (s.slot n).hdr = some h) :
    exec (.slotProgramEnd u n) s = .next (((s.advance u).slotted n { s.slot n with state := 2, hdr := none }
      s.pillows).reply h Op.slotProgram 0 Status.ok (slotBytes (s.slot n).model 0xFF 0xFF
        ((max s.now u - (s.slot n).start) / 1000))) := by
  rw [exec_slotProgramEnd, execSlotProgramEnd]
  simp only [State.slotLeft_nil (s := s.advance u) hleft, State.slotFault_none (s := s.advance u) hleft hgood,
    State.advance_slot, State.advance_alive, halive, hstate, hhdr]
  rfl

theorem exec_slotProgramEnd_failed {p b : Nat} (halive : s.alive = true) (hstate : (s.slot n).state = 1)
    (hleft : (s.slot n).left = []) (hbad : (s.slot n).failedAt = some (p, b)) (hhdr : (s.slot n).hdr = some h) :
    exec (.slotProgramEnd u n) s = .next (((s.advance u).slotDown n p b).reply h Op.slotProgram 0 Status.calFail
      (slotBytes (s.slot n).model p b ((max s.now u - (s.slot n).start) / 1000))) := by
  rw [exec_slotProgramEnd, execSlotProgramEnd]
  simp only [State.slotLeft_nil (s := s.advance u) hleft, State.slotFault_some (s := s.advance u) hbad,
    State.advance_slot, State.advance_alive, halive, hstate, hhdr]
  rfl

theorem slotProgramEnd_failed {p b : Nat} (halive : s.alive = true) (hstate : (s.slot n).state = 1)
    (hleft : (s.slot n).left = []) (hbad : (s.slot n).failedAt = some (p, b)) (hhdr : (s.slot n).hdr = some h) :
    ∃ t, exec (.slotProgramEnd u n) s = .next t
      ∧ t.slot n = { s.slot n with state := 6, next := none, left := [], hdr := none } ∧ (t.latch 28).held = true
      ∧ t = { s with now := max s.now u, slots := t.slots, queues := t.queues, latches := t.latches } := by
  refine ⟨_, exec_slotProgramEnd_failed halive hstate hleft hbad hhdr, ?_, ?_, ?_⟩
  · rw [State.reply_eq]
    exact State.slot_slotDown_same (s := s.advance u)
  · rw [State.reply_eq]
    exact State.slotDown_held
  · rw [State.reply_eq, State.slotDown_eq]
    rfl

end

/-! ## SLOT_ACTIVATE (R327, R328, R432) -/

theorem State.sheetBytes_eq (s : State) : s.sheetBytes
    = leBytes 4 (if s.tb.sheetSrc = 0 then 0xFFFF_FFFF else (s.sheets.sheet + 1) % 2 ^ 32) := by
  unfold State.sheetBytes State.nextSheet
  split <;> rfl

/-- A READY slot as it becomes ACTIVE from a sheet on (R327). -/
def Slot.activated (sheet : Nat) (x : Slot) : Slot :=
  { x with state := 3, fromSheet := sheet, sheet := sheet, op := Op.slotActivate }

section
variable {h : Hdr} {n k : Nat} {s : State}

theorem slotActivate_ready (hacc : s.accepts Op.slotActivate false = true) (hn : n ≤ 63)
    (hstate : (s.slot n).state = 2) :
    exec (.slotActivate h n none) s = .next (((s.advance h.t).slotted n ((s.slot n).activated s.nextSheet)
      (((s.advance h.t).modSlot n (Slot.activated s.nextSheet)).wakeBobbins n).pillows).done
      h Op.slotActivate 0 s.sheetBytes) := by
  have hparams : firstOf [require (decide (n ≤ 63)) (paramBadAt 8),
      require ((none : Option Nat).all fun k => decide (k ≤ 15)) (paramBadAt 9)] = none := by
    simp [firstOf, hn]
  have hcheck : slotActivateCheck n none (s.advance h.t) = none := by
    have hfree : (s.advance h.t).slotBusy Op.slotActivate n = none := State.slotBusy_free _ (.inl hstate)
    simp only [slotActivateCheck, firstOf_cons_eq_none, require_eq_none, beq_iff_eq]
    exact ⟨hfree, hstate, rfl⟩
  have hwoken := State.wakeBobbins_eq n ((s.advance h.t).modSlot n (Slot.activated s.nextSheet))
  rw [exec_slotActivate, execSlotActivate, hostCommand_accepted hparams hacc hcheck]
  exact congrArg (fun v : State => Host.Outcome.next (v.done h Op.slotActivate 0 s.sheetBytes)) hwoken

theorem slotActivate_drains (hacc : s.accepts Op.slotActivate false = true) (hn : n ≤ 63) (hk : k ≤ 15)
    (hcheck : slotActivateCheck n (some k) s = none)
    (hsound : ∀ i ∈ s.shardsRead (s.bundle k), s.shardFault (s.bundle k) i = none) (herrs : s.ms.errs = [])
    (hstate : (s.bundle k).state = 2) :
    exec (.slotActivate h n (some k)) s = .next (((s.advance h.t).slotted n
      ((s.slot n).draining Op.slotActivate (some k) none s.nextSheet)
      ((s.advance h.t).drain n Op.slotActivate (some k) none).pillows).done h Op.slotActivate 0 s.sheetBytes) := by
  have hparams : firstOf [require (decide (n ≤ 63)) (paramBadAt 8),
      require ((some k).all fun k => decide (k ≤ 15)) (paramBadAt 9)] = none := by
    simp [firstOf, hn, hk]
  rw [exec_slotActivate, execSlotActivate, hostCommand_accepted hparams hacc hcheck, slotActivateDo,
    State.digestShards_advance h.t hsound herrs, State.drain_eq]
  exact congrArg Host.Outcome.next (if_neg (not_not_intro hstate))

end

/-! ## The replacement (R328, R329) -/

/-- Slot n is STOPPED, and its bobbins rest. -/
def State.stopped (n : Nat) (s : State) : State := (s.modSlot n fun y => { y with state := 5 }).restBobbins n

/-- A STOPPED slot is programmed from bundle k, or FAILED where that cannot be (R79, R320, R329). -/
def State.reprogram (n k : Nat) (map : List Nat) (s : State) : State :=
  if s.power.pwrgd = true ∧ (s.bundle k).state = 2 then
    (s.cannotProgram n).elim (s.startProgram n k map) fun e => s.slotDown n e.1 e.2
  else s.slotDown n 0xFF 0xFF

section
variable {u n k : Nat} {s : State}

theorem State.stopped_eq : s.stopped n
    = s.slotted n { s.slot n with state := 5 } (s.stopped n).pillows := State.restBobbins_eq n _

theorem State.slot_stopped_same : (s.stopped n).slot n = { s.slot n with state := 5 } := by
  rw [State.stopped_eq, State.slot_slotted_same]

theorem State.slot_stopped_ne {m : Nat} (h : m ≠ n) : (s.stopped n).slot m = s.slot m := by
  rw [State.stopped_eq, State.slot_slotted_ne h]

theorem State.reprogram_fails {map : List Nat} (hbad : (s.bundle k).state ≠ 2 ∨ s.cannotProgram n ≠ none) :
    ∃ p b, s.reprogram n k map = s.slotDown n p b := by
  unfold State.reprogram
  split
  next hread =>
    obtain ⟨e, he⟩ := Option.ne_none_iff_exists'.mp (hbad.resolve_left (not_not_intro hread.2))
    exact ⟨e.1, e.2, by rw [he, Option.elim_some]⟩
  next => exact ⟨0xFF, 0xFF, rfl⟩

section
variable (halive : s.alive = true) (hnext : (s.slot n).next = some k)
  (hstate : (s.slot n).state = 4) (hdrained : s.drained n = true)
include halive hnext hstate hdrained

theorem exec_slotDrainEnd_drained :
    exec (.slotDrainEnd u n) s = .next (((s.advance u).stopped n).reprogram n k (s.slot n).map) := by
  have hguard : ¬ (!((s.advance u).alive && (s.slot n).state == 4 && (s.advance u).drained n)) = true := by
    change ¬ (!(s.alive && (s.slot n).state == 4 && s.drained n)) = true
    simp [halive, hstate, hdrained]
  rw [exec_slotDrainEnd, execSlotDrainEnd, State.stopped]
  simp only [State.advance_slot, hnext]
  refine congrArg Host.Outcome.next ((if_neg hguard).trans ?_)
  generalize ((s.advance u).modSlot n fun y => { y with state := 5 }).restBobbins n = v
  unfold State.reprogram
  by_cases hread : v.power.pwrgd = true ∧ (v.bundle k).state = 2
  · rw [if_pos hread, if_neg (by simp [hread])]
    cases v.cannotProgram n <;> rfl
  · rw [if_neg hread, if_pos (by simpa [or_iff_not_imp_left] using hread)]

theorem slotDrainEnd_programs (hpwr : s.power.pwrgd = true) (hbundle : (s.bundle k).state = 2)
    (htakes : ((s.advance u).stopped n).cannotProgram n = none) :
    ∃ t, exec (.slotDrainEnd u n) s = .next t
      ∧ t.slot n = { s.slot n with
          state := 5, targets := s.targetsOf (s.bundle k), factors := s.factorsOf (s.bundle k), failedAt := none
          start := max s.now u
          left := (s.targetsOf (s.bundle k)).map fun g => ((s.slot n).map.getD g.ppil 0xFF, g.logical) }
      ∧ (∀ m, m ≠ n → t.slot m = s.slot m) ∧ t.bundles = s.bundles ∧ t.mem = s.mem ∧ t.templates = s.templates
      ∧ t.jobs = s.jobs ∧ t.pricks = s.pricks ∧ t.ms = s.ms := by
  have hstopped := State.stopped_eq (n := n) (s := s.advance u)
  have hread : ((s.advance u).stopped n).power.pwrgd = true ∧ (((s.advance u).stopped n).bundle k).state = 2 := by
    rw [hstopped]
    exact ⟨hpwr, hbundle⟩
  have hexec := exec_slotDrainEnd_drained (u := u) halive hnext hstate hdrained
  rw [State.reprogram, if_pos hread, htakes, Option.elim_none] at hexec
  refine ⟨_, hexec, ?_, fun m hm => ?_, ?_⟩
  · have hmem : ((s.advance u).stopped n).mem = s.mem := by rw [hstopped]; rfl
    have hstaged : ((s.advance u).stopped n).bundle k = s.bundle k := by rw [hstopped]; rfl
    have hnow : ((s.advance u).stopped n).now = max s.now u := by rw [hstopped]; rfl
    rw [State.slot_startProgram_same, State.slot_stopped_same, State.targetsOf_of_mem hmem,
      State.factorsOf_of_mem hmem, hstaged, hnow, State.advance_slot]
    rfl
  · rw [State.slot_startProgram_ne hm, State.slot_stopped_ne hm, State.advance_slot]
  · simp only [State.startProgram_frame]
    rw [hstopped]
    exact ⟨rfl, rfl, rfl, rfl, rfl, rfl⟩

/-- A replacement that cannot be programmed leaves its slot FAILED, and raises class 28 (R79, R320, R329, R486). -/
theorem slotDrainEnd_fails (hbad : (s.bundle k).state ≠ 2 ∨ ((s.advance u).stopped n).cannotProgram n ≠ none) :
    ∃ t, exec (.slotDrainEnd u n) s = .next t
      ∧ t.slot n = { s.slot n with state := 6, next := none, left := [], hdr := none } ∧ (t.latch 28).held = true := by
  have hexec := exec_slotDrainEnd_drained (u := u) halive hnext hstate hdrained
  have hstaged : ((s.advance u).stopped n).bundle k = s.bundle k := by rw [State.stopped_eq]; rfl
  obtain ⟨p, b, hdown⟩ := State.reprogram_fails (map := (s.slot n).map) (hstaged ▸ hbad)
  refine ⟨_, hexec, ?_, ?_⟩
  · rw [hdown, State.slot_slotDown_same, State.slot_stopped_same]
    rfl
  · rw [hdown, State.slotDown_held]

end

/-- A target on a pillow out of service bars a replacement (R329). -/
theorem State.cannotProgram_outOfService {g : Target} (hg : g ∈ (s.slot n).targets)
    (hout : s.inService ((s.slot n).physPillow g.ppil) = false) : (s.stopped n).cannotProgram n ≠ none := by
  have hservice (p : Nat) : (s.stopped n).inService p = s.inService p := by rw [State.stopped_eq]; rfl
  unfold State.cannotProgram
  simp only [ne_eq, Option.map_eq_none_iff, State.slot_stopped_same, hservice]
  intro hnone
  have hall := List.find?_eq_none.mp hnone g hg
  exact hall (Bool.or_eq_true_iff.mpr (.inl (by rw [Bool.not_eq_true']; exact hout)))

/-- A STOPPED slot as its new model takes over. -/
def Slot.replaced (k model : Nat) (x : Slot) : Slot :=
  { x with state := 3, handle := k, next := none, model := model, fromSheet := 0 }

theorem exec_slotReprogramEnd_done (halive : s.alive = true) (hnext : (s.slot n).next = some k)
    (hstate : (s.slot n).state = 5) (hleft : (s.slot n).left = []) (hgood : (s.slot n).failedAt = none) :
    ∃ ps, exec (.slotReprogramEnd u n) s = .next (((s.advance u).slotted n ((s.slot n).replaced k (s.bundle k).model)
      ps).bundleReady k n (s.bundle k).model) := by
  have hwoken := State.wakeBobbins_eq n ((s.advance u).setSlot n ((s.slot n).replaced k (s.bundle k).model))
  refine ⟨_, Eq.trans ?_ (congrArg (Host.Outcome.next ∘ State.bundleReady k n (s.bundle k).model) hwoken)⟩
  rw [exec_slotReprogramEnd, execSlotReprogramEnd]
  simp only [State.slotLeft_nil (s := s.advance u) hleft, State.slotFault_none (s := s.advance u) hleft hgood,
    State.advance_slot, State.advance_alive, State.advance_bundle, halive, hstate, hnext]
  rfl

theorem State.bundleReady_eq (k n m : Nat) (s : State) :
    s.bundleReady k n m = { s with queues := (s.bundleReady k n m).queues } := State.present_eq Nat.one_ne_zero _ s

theorem slotReprogramEnd_done (halive : s.alive = true) (hnext : (s.slot n).next = some k)
    (hstate : (s.slot n).state = 5) (hleft : (s.slot n).left = []) (hgood : (s.slot n).failedAt = none) :
    ∃ t, exec (.slotReprogramEnd u n) s = .next t
      ∧ t.slot n = { s.slot n with
          state := 3, handle := k, next := none, model := (s.bundle k).model, fromSheet := 0 }
      ∧ (∀ m, m ≠ n → t.slot m = s.slot m)
      ∧ t = { s with now := max s.now u, slots := t.slots, pillows := t.pillows, queues := t.queues } := by
  obtain ⟨ps, hexec⟩ := exec_slotReprogramEnd_done (u := u) halive hnext hstate hleft hgood
  obtain ⟨hslot, hrest, hpil, ht⟩ := State.slotted_queues (State.bundleReady_eq k n (s.bundle k).model _)
  exact ⟨_, hexec, hslot, hrest, by rw [hpil]; exact ht⟩

end

/-! ## SLOT_RETIRE (R330, R433) -/

section
variable {h : Hdr} {u n : Nat} {s : State}

theorem slotRetireParams_eq_none (hn : n ≤ 63) : require (decide (n ≤ 63)) (paramBadAt 8) = none :=
  (require_eq_none ..).mpr (decide_eq_true hn)

/-- A READY, ACTIVE or FAILED slot that no admitted template names may retire. -/
theorem slotRetireCheck_eq_none (hstate : (s.slot n).state = 2 ∨ (s.slot n).state = 3 ∨ (s.slot n).state = 6)
    (hfree : s.slotTemplate n = none) : slotRetireCheck n s = none := by
  simp only [slotRetireCheck, firstOf_cons_eq_none, require_eq_none, bne_iff_ne, hfree, Option.map_none, firstOf,
    and_true]
  exact ⟨State.slotBusy_free _ hstate, by omega⟩

theorem exec_slotRetire_accepted (hacc : s.accepts Op.slotRetire false = true) (hn : n ≤ 63)
    (hstate : (s.slot n).state = 2 ∨ (s.slot n).state = 3 ∨ (s.slot n).state = 6) (hfree : s.slotTemplate n = none) :
    exec (.slotRetire h n) s = .next (slotRetireDo h n (s.advance h.t)) :=
  (exec_slotRetire h n s).trans (hostCommand_accepted (slotRetireParams_eq_none hn) hacc
    (slotRetireCheck_eq_none (s := s.advance h.t) hstate hfree))

theorem slotRetire_empties (hacc : s.accepts Op.slotRetire false = true) (hn : n ≤ 63)
    (hstate : (s.slot n).state = 2 ∨ (s.slot n).state = 6) (hfree : s.slotTemplate n = none) :
    exec (.slotRetire h n) s = .next (((s.advance h.t).slotted n { sheet := (s.slot n).sheet }
      ((s.advance h.t).emptySlot n).pillows).done h Op.slotRetire 0 []) := by
  have hidle : ¬ ((s.advance h.t).slot n).state = 3 := by rw [State.advance_slot]; omega
  rw [exec_slotRetire_accepted hacc hn (by omega) hfree, slotRetireDo, if_neg hidle, State.emptySlot_eq]
  rfl

theorem slotRetire_drains (hacc : s.accepts Op.slotRetire false = true) (hn : n ≤ 63) (hstate : (s.slot n).state = 3)
    (hfree : s.slotTemplate n = none) :
    exec (.slotRetire h n) s = .next (((s.advance h.t).slotted n
      ((s.slot n).draining Op.slotRetire none (some h) s.nextSheet)
      ((s.advance h.t).drain n Op.slotRetire none (some h)).pillows).release Op.slotRetire h.tag) := by
  have hactive : ((s.advance h.t).slot n).state = 3 := hstate
  rw [exec_slotRetire_accepted hacc hn (by omega) hfree, slotRetireDo, if_pos hactive, State.drain_eq]
  rfl

theorem slotRetireEnd_empties (halive : s.alive = true) (hstate : (s.slot n).state = 4)
    (hnext : (s.slot n).next = none) (hdrained : s.drained n = true) (hhdr : (s.slot n).hdr = some h) :
    exec (.slotRetireEnd u n) s = .next (((s.advance u).slotted n { sheet := (s.slot n).sheet }
      ((s.advance u).emptySlot n).pillows).reply h Op.slotRetire 0 Status.ok []) := by
  have hguard : ¬ (!((s.advance u).alive && (s.slot n).state == 4 && (s.slot n).next.isNone
      && (s.advance u).drained n)) = true := by
    change ¬ (!(s.alive && (s.slot n).state == 4 && (s.slot n).next.isNone && s.drained n)) = true
    simp [halive, hstate, hnext, hdrained]
  rw [exec_slotRetireEnd, execSlotRetireEnd]
  simp only [State.advance_slot, hhdr]
  refine congrArg Host.Outcome.next ((if_neg hguard).trans ?_)
  rw [State.emptySlot_eq]
  rfl

theorem slotRetire_held (hacc : s.accepts Op.slotRetire false = true) (hn : n ≤ 63)
    (hstate : (s.slot n).state = 1 ∨ (s.slot n).state = 4 ∨ (s.slot n).state = 5) :
    Refuses (.slotRetire h n) h Op.slotRetire (resHeld (s.slot n).op Op.slotRetire 11 n 0xFF n) s := by
  have hcheck : slotRetireCheck n (s.advance h.t) = some (resHeld (s.slot n).op Op.slotRetire 11 n noPillow n) := by
    rw [slotRetireCheck, State.slotBusy_held (s := s.advance h.t) _ hstate]
    rfl
  exact .of_refuse ((exec_slotRetire h n s).trans (hostCommand_refused (slotRetireParams_eq_none hn) hacc hcheck))

end

/-! ## The obligation -/

/-- Settles O47: each command and event leaves its slot as `Slot.taken`, `Slot.programming`, `Slot.draining` and
`Slot.failed` say, and beside it the pillows and its reply. -/
theorem modelSlots : Obligations.ModelSlots := by
  unfold Obligations.ModelSlots
  refine ⟨fun h n k map s => slotProgram_taken, fun u n h s halive hstate hleft hgood hhdr => ?ready,
    fun u n p b h s => slotProgramEnd_failed, fun h n s hacc hn hstate => ?activates,
    fun h n k s hacc hn hk hcheck hsound herrs hstate => ?drains, fun u n k s => slotDrainEnd_programs,
    fun u n k s halive hnext hstate hdrained hbad =>
      slotDrainEnd_fails halive hnext hstate hdrained (.inl hbad),
    fun u n k p g s halive hnext hstate hdrained hg hp hout => ?outOfService,
    fun u n k s => slotReprogramEnd_done,
    fun h n s hacc hn hstate hfree => exec_slotted_done (slotRetire_empties hacc hn hstate hfree),
    fun h n s hacc hn hstate hfree => ?retires, fun u n h s halive hstate hnext hdrained hhdr => ?retired,
    fun h n s => slotRetire_held⟩
  case ready =>
    obtain ⟨t, hx, hreply, hslot, hrest, -, ht⟩ :=
      exec_slotted_reply (slotProgramEnd_ready (u := u) halive hstate hleft hgood hhdr)
    exact ⟨t, hx, hreply, hslot, hrest, ht⟩
  case activates =>
    rw [← State.sheetBytes_eq]
    exact exec_slotted_done (slotActivate_ready hacc hn hstate)
  case drains =>
    rw [← State.sheetBytes_eq]
    exact exec_slotted_done (slotActivate_drains hacc hn hk hcheck hsound herrs hstate)
  case outOfService =>
    subst hp
    exact slotDrainEnd_fails halive hnext hstate hdrained
      (.inr (State.cannotProgram_outOfService (s := s.advance u) hg hout))
  case retires =>
    refine ⟨_, slotRetire_drains hacc hn hstate hfree, ?_, fun m hm => ?_, rfl, rfl⟩
    · rw [State.slot_release, State.slot_slotted_same]
      rfl
    · rw [State.slot_release, State.slot_slotted_ne hm, State.advance_slot]
  case retired =>
    obtain ⟨t, hx, hreply, hslot, hrest, hpil, ht⟩ :=
      exec_slotted_reply (slotRetireEnd_empties (u := u) halive hstate hnext hdrained hhdr)
    exact ⟨t, hx, hreply, hslot, hrest, by rw [hpil]; exact ht⟩

end Sys2Proof.Machine
end

section
/-! PROOF. O48: runs of the calibration (R341 to R346). The clause on a run that passes says that the latches stay; it
fails where the run takes the device to state 2 with fuses of its firmware still to burn, for each burn is a report of
the security class (R503, R512). -/

namespace Sys2Proof.Machine

/-! ## Fuses burned at the first entry into state 2 (R503) -/

/-- A burn leaves the security class held. -/
theorem State.burns_held {l : List Nat} (hl : l ≠ []) (s : State) : ((s.burns l).latch 27).held = true := by
  induction l generalizing s with
  | nil => exact absurd rfl hl
  | cons k l ih =>
    cases l with
    | nil => exact State.report_held ..
    | cons j l => exact ih (List.cons_ne_nil j l) _

/-- A running image whose rollback number is above the floor burns a fuse. -/
theorem State.burnAtService_held {s : State} (hpend : s.sec.fusePend = true)
    (hfloor : s.sec.floor < min 64 s.sec.runRb) : (s.burnAtService.latch 27).held = true := by
  unfold State.burnAtService
  rw [if_pos hpend]
  refine State.burns_held (fun hnone => ?_) _
  have hrange := congrArg List.length (List.append_eq_nil_iff.mp (List.append_eq_nil_iff.mp hnone).1).1
  simp only [List.length_map, List.length_range, List.length_nil] at hrange
  omega

/-- A run that passes in state 1 takes the device to state 2 for the first time (R478). -/
theorem State.afterTest_held {s : State} (hstate : s.mgmt.devState = 1) (hpend : s.sec.fusePend = true)
    (hfloor : s.sec.floor < min 64 s.sec.runRb) : ((s.afterTest true).latch 27).held = true := by
  unfold State.afterTest
  rw [if_pos ⟨rfl, .inl hstate⟩]
  exact State.burnAtService_held hpend hfloor

/-! ## The end of a run (R342, R345) -/

/-- With no pillow to look at the sequencers move nothing. -/
theorem State.settlePillows_nil (s : State) : s.settlePillows [] = s := by
  unfold State.settlePillows
  cases s.moves <;> rfl

section
variable {n : Nat} {res : CalResult} {h : Hdr} {d : DieValues} {s : State}

/-- Whether a run passes: every device-wide element has its value, and every pillow its 16 sound bobbins. -/
def State.calVerdict (d : DieValues) (s : State) : Bool :=
  !(calSourceBad d s.hc || d.vread.any Option.isNone) && s.calShort.isEmpty

/-- A run that does not pass clears CAL_DONE. -/
theorem State.calEnd_failed (hfail : s.calVerdict d = false) : (s.calEnd h res d).2.trim.calDone = false := by
  unfold State.calVerdict at hfail
  unfold State.calEnd
  simp only [hfail, Bool.false_eq_true, if_false, State.hcNext_frame, State.afterTest_frame, State.reply_frame,
    State.calFailOuts_frame]
  rfl

/-- A run that passes fails no pillow out, and replies OK. -/
theorem State.calEnd_passed (hpass : s.calVerdict d = true) : s.calEnd h res d
    = ([], (((s.calPass res d).calOver.reply h Op.calRun 0 Status.ok []).afterTest true).hcNext) := by
  obtain ⟨hvalues, hsound⟩ := Bool.and_eq_true_iff.mp hpass
  have hshort : s.calShort = [] := List.isEmpty_iff.mp hsound
  unfold State.calEnd
  simp only [hvalues, hshort, List.isEmpty_nil, Bool.and_self, if_true, State.calFailOuts]

/-- A run that passes in state 1 with a fuse to burn raises the security class. -/
theorem State.calEnd_burns (hdone : (s.calEnd h res d).2.trim.calDone = true) (hstate : s.mgmt.devState = 1)
    (hpend : s.sec.fusePend = true) (hfloor : s.sec.floor < min 64 s.sec.runRb) :
    (s.calEnd h res d).1 = [] ∧ ((s.calEnd h res d).2.latch 27).held = true := by
  cases hpass : s.calVerdict d with
  | false => rw [State.calEnd_failed hpass] at hdone; cases hdone
  | true =>
    rw [State.calEnd_passed hpass]
    refine ⟨rfl, ?_⟩
    have htest (u : State) : u.hcNext.latch 27 = u.latch 27 := by simp only [State.latch, State.hcNext_frame]
    rw [htest]
    refine State.afterTest_held ?_ ?_ ?_
    · simpa only [State.reply_frame, State.calOver_frame, State.calPass_frame] using hstate
    · simpa only [State.reply_frame, State.calOver_frame, State.calPass_frame] using hpend
    · simpa only [State.reply_frame, State.calOver_frame, State.calPass_frame] using hfloor

theorem exec_calRunEnd_due (halive : s.alive = true) (hcal : s.trim.cal = some h)
    (hdue : s.trim.calStart + 180_000_000 ≤ max s.now n) :
    exec (.calRunEnd n res) s = .next
      ((((s.advance n).calTake res).calEnd h res ((s.advance n).dieValues res)).2.settlePillows
        (((s.advance n).calTake res).calEnd h res ((s.advance n).dieValues res)).1) := by
  have hends : (!((s.advance n).alive && decide ((s.advance n).trim.calStart + 180_000_000 ≤ (s.advance n).now)))
      = false := by
    change (!(s.alive && decide (s.trim.calStart + 180_000_000 ≤ max s.now n))) = false
    simp [halive, hdue]
  have hrun : (s.advance n).trim.cal = some h := hcal
  rw [exec_calRunEnd, execCalRunEnd]
  simp only [hrun, hends, Bool.false_eq_true, if_false]

/-- The end of a run that passes in state 1 with a fuse to burn leaves the security class held. -/
theorem calRunEnd_burns {t : State} (halive : s.alive = true) (hcal : s.trim.cal = some h)
    (hdue : s.trim.calStart + 180_000_000 ≤ max s.now n) (hstate : s.mgmt.devState = 1)
    (hpend : s.sec.fusePend = true) (hfloor : s.sec.floor < min 64 s.sec.runRb)
    (hexec : exec (.calRunEnd n res) s = .next t) (hdone : t.trim.calDone = true) : (t.latch 27).held = true := by
  rw [exec_calRunEnd_due halive hcal hdue] at hexec
  cases hexec
  simp only [State.settlePillows_frame] at hdone
  have hmgmt : ((s.advance n).calTake res).mgmt = s.mgmt := by simp only [State.calTake_frame, State.advance_mgmt]
  have hsec : ((s.advance n).calTake res).sec = (s.advance n).sec := by simp only [State.calTake_frame]
  obtain ⟨hnone, hheld⟩ := State.calEnd_burns hdone (by rw [hmgmt]; exact hstate) (by rw [hsec]; exact hpend)
    (by rw [hsec]; exact hfloor)
  rw [hnone, State.settlePillows_nil]
  exact hheld

end

/-! ## The obligation fails -/

/-- The header of the CAL_RUN. -/
def firstRunHdr : Hdr := { t := 0, tag := 7, prio := 1 }

/-- A device in state 1, in the first CAL_RUN after its start-up, whose firmware raises the rollback floor from 0 to 1
when the device first reaches state 2. -/
def firstRunState : State :=
  { State.reset with
    mgmt := { State.reset.mgmt with devState := 1, fwStarted := true }
    sec := { State.reset.sec with fusePend := true, runRb := 1 }
    trim := { State.reset.trim with cal := some firstRunHdr } }

/-- Refutes O48: the run of `firstRunState`, which measures every element at its nominal value, passes and burns a
fuse, and so raises the security class, where the clause on a run that passes says that no latch changes. -/
theorem not_calibrationRuns : ¬ Obligations.CalibrationRuns := by
  unfold Obligations.CalibrationRuns
  rintro ⟨-, -, hpass, -⟩
  obtain ⟨t, hexec, -, -, hdone, -, -, -, -, -, -, hlatches, -⟩ :=
    hpass 180_000_000 { meas := [], failed6 := [], tj := 0 } firstRunHdr firstRunState (by decide +kernel) rfl
      (by decide +kernel) (fun m hm => absurd hm List.not_mem_nil) rfl (by decide +kernel) (.inl rfl)
  have hheld := calRunEnd_burns (s := firstRunState) (by decide +kernel) rfl (by decide +kernel) rfl rfl
    (by decide +kernel) hexec hdone
  rw [State.latch, hlatches] at hheld
  exact absurd hheld (by decide)

end Sys2Proof.Machine
end

section
/-! PROOF. O49: calibration in service: passes, dwells, level scans and seals (R351 to R357, R526). -/

namespace Sys2Proof.Machine

/-! ## Calibration passes (R351) -/

section
variable {n p b g : Nat} {cs zs : SparseInt} {s : State}

/-- The sums over the reference pairs leave a bobbin's state. -/
theorem Bobbin.takeRefs_state (k : Nat) (refs : List (Int × Int)) (b : Bobbin) : (b.takeRefs k refs).state = b.state :=
  foldl_keeps (fun c : Bobbin => c.state = b.state) _ _ _ rfl fun _ _ h =>
    iteInduction (motive := fun d : Bobbin => d.state = b.state) (fun _ => h) fun _ => h

theorem Bobbin.scanPass_parts (codes : List Nat) (refs : List (Int × Int)) (b : Bobbin) :
    (b.scanPass codes refs).made = b.made ∧ (b.scanPass codes refs).state = b.state := by
  unfold Bobbin.scanPass
  split <;> exact ⟨rfl, rfl⟩

/-- A calibration pass is one more pass of its bobbin, whose state it leaves. -/
theorem Bobbin.calPass_parts (x : Trim) (sheet : Nat) (b : Bobbin) :
    (b.calPass x sheet cs zs).made = b.made + 1 ∧ (b.calPass x sheet cs zs).state = b.state := by
  unfold Bobbin.calPass
  dsimp only
  rw [(Bobbin.scanPass_parts ..).1, (Bobbin.scanPass_parts ..).2]
  unfold Bobbin.countBad
  dsimp only
  rw [(Bobbin.takeRefs_sameCells ..).made, Bobbin.takeRefs_state]
  split <;> exact ⟨rfl, rfl⟩

theorem exec_calibrationPass_counts (hserves : s.calServes = true) (hbobbin : s.calBobbin p b = true)
    (hgood : (s.bobbin p b).state ≠ 0 ∨ ((s.bobbin p b).calPass s.trim s.sheets.sheet cs zs).passFails = false)
    (hidle : (s.pillow p).run = none) (hstep : s.therm.step < 3) :
    exec (.calibrationPass n p b cs zs) s = .next
      { (s.advance n).setBobbin p b ((s.bobbin p b).calPass s.trim s.sheets.sheet cs zs) with
        trim := { s.trim with calPasses := min 0xFFFF_FFFF (s.trim.calPasses + 1) } } := by
  have harises : ¬ (!((s.advance n).calServes && (s.advance n).calBobbin p b && ((s.advance n).pillow p).run.isNone
      && decide ((s.advance n).therm.step < 3))) = true := by
    change ¬ (!(s.calServes && s.calBobbin p b && (s.pillow p).run.isNone && decide (s.therm.step < 3))) = true
    simp [hserves, hbobbin, hidle, hstep]
  have hsound : ¬ (((s.bobbin p b).calPass s.trim s.sheets.sheet cs zs).passFails
      && ((s.bobbin p b).calPass s.trim s.sheets.sheet cs zs).state == 0) = true := by
    rw [(Bobbin.calPass_parts ..).2]
    rcases hgood with h | h <;> simp [h]
  exact congrArg Host.Outcome.next ((if_neg harises).trans (if_neg hsound))

/-- A bobbin that is set leaves every other bobbin. -/
theorem State.bobbin_setBobbin_ne {q c : Nat} (h : (q, c) ≠ (p, b)) (x : Bobbin) (s : State) :
    (s.setBobbin p b x).bobbin q c = s.bobbin q c :=
  (State.bobbin_setBobbin p b q c x s).trans (if_neg fun e => h (Prod.ext e.1 e.2))

/-! ## Dwells (R352, R353) -/

/-- What waits for the next seal of an element that no dwell has visited. -/
def noVisit (_ : Nat) : Int × Nat := (0, 0)

/-- What waits after one more visit, which found v. -/
def visited (v : Int) (x : Int × Nat) : Int × Nat := (x.1 + v, x.2 + 1)

theorem tget_addVisit (k : Nat) (v : Int) (t : Tbl (Int × Nat)) (j : Nat) :
    tget noVisit (addVisit k v t) j = if j = k then visited v (tget noVisit t k) else tget noVisit t j := tget_tput ..

/-- A visit of the first m words of a converter adds its finding to each of them once. -/
theorem tget_addVisits (c m : Nat) (v : Int) (t : Tbl (Int × Nat)) (r : Nat) :
    tget noVisit ((List.range m).foldl (fun t r => addVisit (4 * c + r) v t) t) (4 * c + r)
      = if r < m then visited v (tget noVisit t (4 * c + r)) else tget noVisit t (4 * c + r) := by
  induction m with
  | zero => rfl
  | succ m ih =>
    rw [List.range_succ, List.foldl_append, List.foldl_cons, List.foldl_nil, tget_addVisit]
    by_cases hr : r = m
    · subst hr
      rw [if_pos rfl, ih, if_neg (lt_irrefl r), if_pos (Nat.lt_succ_self r)]
    · rw [if_neg (by omega), ih]
      exact if_congr (by omega) rfl rfl

/-- A dwell that measures its converter at the nominal values waits with an offset of 0 for each range. -/
theorem Bobbin.dwellEnd_pendO {r : Nat} (hr : r < 4) (x : Bobbin) :
    tget noVisit (x.dwellEnd g []).pendO (4 * (33 * g + (x.uOf g).1) + r)
      = visited 0 (tget noVisit x.pendO (4 * (33 * g + (x.uOf g).1) + r)) :=
  (tget_addVisits _ 4 0 x.pendO r).trans (if_pos hr)

/-- It waits with 32 for each word of the linearity. -/
theorem Bobbin.dwellEnd_pendLin {r : Nat} (hr : r < 4) (x : Bobbin) :
    tget noVisit (x.dwellEnd g []).pendLin (4 * (33 * g + (x.uOf g).1) + r)
      = visited 32 (tget noVisit x.pendLin (4 * (33 * g + (x.uOf g).1) + r)) :=
  (tget_addVisits _ 4 32 x.pendLin r).trans (if_pos hr)

theorem exec_dwellEnd_due (hserves : s.calServes = true) (hbobbin : s.calBobbin p b = true) (hg : g < 8)
    (hdue : tget (fun _ => 0) (s.bobbin p b).dwell g + 1024 ≤ (s.bobbin p b).made) :
    exec (.dwellEnd n p b g []) s = .next ((s.advance n).setBobbin p b ((s.bobbin p b).dwellEnd g [])) := by
  refine congrArg Host.Outcome.next (if_pos ?_)
  change (s.calServes && (s.calBobbin p b || (s.inService p && (s.bobbin p b).state == 4)) && decide (g < 8)
    && decide (tget (fun _ => 0) (s.bobbin p b).dwell g + 1024 ≤ (s.bobbin p b).made)) = true
  simp [hserves, hbobbin, hg, hdue]

/-! ## Level scans (R354) -/

theorem Bobbin.scanDone_of_levels {b : Bobbin} (h : ∀ l, l < 16 → 4096 ≤ tget (fun _ => 0) b.scanN l) :
    b.scanDone = true :=
  List.all_eq_true.mpr fun l hl => decide_eq_true (h l (List.mem_range.mp hl))

/-- The fourth scan of a bobbin makes its BASE and K0. -/
theorem Bobbin.levelScan_fourth {b : Bobbin} (hbase : b.base = []) (hthree : b.scans.length = 3) :
    b.levelScan = { b with
      scanP := [], scanN := [], scans := b.scanLevels :: b.scans, base := scanMeans (b.scanLevels :: b.scans)
      k0 := b.kNow.getD 16384, drift := 0 } := by
  have hfour : (b.scanLevels :: b.scans).length = 4 := by rw [List.length_cons, hthree]
  unfold Bobbin.levelScan
  simp only [List.take_of_length_le hfour.le, hfour, hbase, lt_irrefl, if_false, if_true]

theorem exec_levelScanEnd_fourth (hserves : s.calServes = true) (hbobbin : s.calBobbin p b = true)
    (hprogrammed : (s.bobbin p b).programmed = true)
    (hlevels : ∀ l, l < 16 → 4096 ≤ tget (fun _ => 0) (s.bobbin p b).scanN l) (hbase : (s.bobbin p b).base = [])
    (hthree : (s.bobbin p b).scans.length = 3) :
    exec (.levelScanEnd n p b (s.bobbin p b).scanLevels) s
      = .next ((s.advance n).setBobbin p b (s.bobbin p b).levelScan) := by
  have harises : ¬ (!((s.advance n).calServes && (s.advance n).calBobbin p b && ((s.advance n).bobbin p b).programmed
      && ((s.advance n).bobbin p b).scanDone
      && (s.bobbin p b).scanLevels == ((s.advance n).bobbin p b).scanLevels)) = true := by
    change ¬ (!(s.calServes && s.calBobbin p b && (s.bobbin p b).programmed && (s.bobbin p b).scanDone
      && (s.bobbin p b).scanLevels == (s.bobbin p b).scanLevels)) = true
    simp [hserves, hbobbin, hprogrammed, Bobbin.scanDone_of_levels hlevels]
  have hdrift : (s.bobbin p b).levelScan.drift = 0 := by rw [Bobbin.levelScan_fourth hbase hthree]
  refine congrArg Host.Outcome.next ((if_neg harises).trans (if_neg ?_))
  rw [State.advance_bobbin, hdrift]
  simp

/-- The means of a list of four scans. -/
theorem scanMeans_four {l : List (List Int)} (h : l.length = 4) :
    scanMeans l = (List.range 128).map fun i => roundHalfEven (l.map fun x => x.getD i 0).sum 4 := by
  rw [scanMeans, h]
  rfl

/-! ## Seals (R354, R356, R357) -/

/-- Of the TRIM block only the count of measurements not adopted differs. -/
def Trim.SameButKept (x y : Trim) : Prop := y = { x with kept := y.kept }

theorem Trim.SameButKept.trans {x y z : Trim} (h : x.SameButKept y) (k : y.SameButKept z) : x.SameButKept z := by
  unfold Trim.SameButKept at *
  rw [k, h]

/-- Measurements not adopted are counted, and change no more of the TRIM block (R341). -/
theorem State.keepAll_trim (rs : List ErrReport) (s : State) : s.trim.SameButKept (s.keepAll rs).trim := by
  induction rs generalizing s with
  | nil => rfl
  | cons r rs ih =>
    refine Trim.SameButKept.trans ?_ (ih _)
    simp only [Trim.SameButKept, State.report_frame]

/-- The bobbins' part of a seal changes no more of the TRIM block than that count. -/
theorem State.sealBobbins_trim (e : Nat) (s : State) : s.trim.SameButKept (s.sealBobbins e).trim :=
  foldl_keeps (fun t : State => s.trim.SameButKept t.trim) _ _ _ rfl fun t m h => by
    refine h.trans ?_
    have hset := State.keepAll_trim (t.bobbin (m / 17) (m % 17) |>.sealed m e t.trim.grpTh).2
      (t.setBobbin (m / 17) (m % 17) (t.bobbin (m / 17) (m % 17) |>.sealed m e t.trim.grpTh).1)
    simpa only [State.setBobbin_frame] using hset

/-- The TRIM block with an epoch just sealed, which waits for a boundary (R356). -/
def Trim.waiting (e now : Nat) (x : Trim) : Trim :=
  { x with epoch := e, unbound := some e, bound := false, sealBase := now, sealHeld := false }

theorem Trim.SameButKept.waiting {x y : Trim} (h : x.SameButKept y) (e now : Nat) :
    (x.waiting e now).SameButKept (y.waiting e now) := by
  unfold Trim.SameButKept at *
  rw [h]
  rfl

/-- With a sheet source no bobbin adopts the epoch at its seal. -/
theorem State.sealEpoch_eq (hsource : s.tb.sheetSrc ≠ 0) : s.sealEpoch = { s.sealBobbins (s.trim.epoch + 1) with
    trim := (s.sealBobbins (s.trim.epoch + 1)).trim.waiting (s.trim.epoch + 1) s.now } := by
  have hwaits : ¬ (s.sealBobbins (s.trim.epoch + 1)).tb.sheetSrc = 0 := by
    simpa only [State.sealBobbins_frame] using hsource
  have hnow : (s.sealBobbins (s.trim.epoch + 1)).now = s.now := by simp only [State.sealBobbins_frame]
  rw [← hnow]
  unfold State.sealEpoch
  simp only [hwaits, if_false, Trim.waiting]

theorem State.sealEpoch_trim (hsource : s.tb.sheetSrc ≠ 0) :
    (s.trim.waiting (s.trim.epoch + 1) s.now).SameButKept s.sealEpoch.trim := by
  rw [State.sealEpoch_eq hsource]
  exact (State.sealBobbins_trim (s.trim.epoch + 1) s).waiting (s.trim.epoch + 1) s.now

/-- What the third strikes of a seal fail leaves the TRIM block as the seal has made it. -/
theorem State.sealNow_trim (s : State) : s.sealNow.trim = s.sealEpoch.trim := by
  simp only [State.sealNow, State.settlePillows_frame, State.groupFails_frame]

theorem exec_sealEpoch_seals {dev : Int} (hdue : (s.advance n).sealDue = true) (hstep : s.therm.step < 2)
    (hdev : dev.natAbs ≤ 50) :
    exec (.sealEpoch n dev) s = .next
      { s.advance n with trim := { s.trim with refDev := dev }, hc := { s.hc with checked := false } }.sealNow := by
  have hwaits : ¬ (!(s.advance n).sealDue) = true := by simp [hdue]
  exact congrArg Host.Outcome.next
    ((if_neg hwaits).trans ((if_neg (not_le.mpr hstep)).trans (if_neg (not_lt.mpr hdev))))

theorem sealEpoch_seals {dev : Int} (hdue : (s.advance n).sealDue = true) (hstep : s.therm.step < 2)
    (hdev : dev.natAbs ≤ 50) (hsource : s.tb.sheetSrc ≠ 0) :
    ∃ t, exec (.sealEpoch n dev) s = .next t ∧ t.trim = { s.trim with
        refDev := dev, epoch := s.trim.epoch + 1, unbound := some (s.trim.epoch + 1), bound := false
        sealBase := max s.now n, sealHeld := false, kept := t.trim.kept }
      ∧ t.hc = { s.hc with checked := false } := by
  refine ⟨_, exec_sealEpoch_seals hdue hstep hdev, ?_, by simp only [State.sealNow_frame]⟩
  rw [State.sealNow_trim]
  exact State.sealEpoch_trim hsource

theorem exec_sealEpoch_off {dev : Int} (hdue : (s.advance n).sealDue = true) (hstep : s.therm.step < 2)
    (hdev : 50 < dev.natAbs) :
    exec (.sealEpoch n dev) s = .next ({ s.advance n with
      trim := { s.trim with refDev := dev, sealHeld := true }
      hc := { s.hc with checked := false, checkFrom := max s.now n } }.report (calReport 1 noBobbin 0 dev)) := by
  have hwaits : ¬ (!(s.advance n).sealDue) = true := by simp [hdue]
  exact congrArg Host.Outcome.next
    ((if_neg hwaits).trans ((if_neg (not_le.mpr hstep)).trans (if_pos hdev)))

theorem sealEpoch_off {dev : Int} (hdue : (s.advance n).sealDue = true) (hstep : s.therm.step < 2)
    (hdev : 50 < dev.natAbs) :
    ∃ t, exec (.sealEpoch n dev) s = .next t ∧ t.trim = { s.trim with refDev := dev, sealHeld := true }
      ∧ (t.latch 15).held = true ∧ t.hc = { s.hc with checked := false, checkFrom := max s.now n }
      ∧ t = { s with
          now := max s.now n, trim := t.trim, hc := t.hc, latches := t.latches, queues := t.queues } := by
  refine ⟨_, exec_sealEpoch_off hdue hstep hdev, by simp only [State.report_frame], State.report_held .., by
    simp only [State.report_frame], ?_⟩
  simp only [State.report_frame]
  exact State.report_eq ..

theorem exec_sealEpoch_throttled {dev : Int} (hdue : (s.advance n).sealDue = true) (hstep : 2 ≤ s.therm.step) :
    exec (.sealEpoch n dev) s = .next { s with now := max s.now n, trim := { s.trim with sealHeld := true } } := by
  have hwaits : ¬ (!(s.advance n).sealDue) = true := by simp [hdue]
  exact congrArg Host.Outcome.next ((if_neg hwaits).trans (if_pos hstep))

end

/-! ## The obligation -/

/-- Settles O49: each event finds its guard met, and leaves what `Bobbin.calPass`, `Bobbin.dwellEnd`, `Bobbin.levelScan`
and `State.sealNow` make of its bobbin and of the TRIM block. -/
theorem calibrationInService : Obligations.CalibrationInService := by
  unfold Obligations.CalibrationInService
  refine ⟨fun n p b cs zs s hserves hbobbin hgood hidle hstep => ?pass,
    fun n p b g c s hserves hbobbin hg hdue hc => ?dwell,
    fun n p b ms s hserves hbobbin hprogrammed hlevels hms hbase hthree => ?scan,
    fun n dev s => sealEpoch_seals, fun n dev s => sealEpoch_off, fun n dev s => exec_sealEpoch_throttled⟩
  case pass =>
    refine ⟨_, exec_calibrationPass_counts hserves hbobbin hgood hidle hstep, ?_, rfl,
      fun q c h => State.bobbin_setBobbin_ne h _ (s.advance n), rfl⟩
    exact (congrArg Bobbin.made (State.bobbin_setBobbin_same p b _ (s.advance n))).trans (Bobbin.calPass_parts ..).1
  case dwell =>
    subst hc
    refine ⟨_, exec_dwellEnd_due hserves hbobbin hg hdue, ?_, ?_, fun r hr => ?_, fun r hr => ?_,
      fun q d h => State.bobbin_setBobbin_ne h _ _, rfl⟩ <;> rw [State.bobbin_setBobbin_same]
    · exact tget_tset_same ..
    · exact tget_tset_same ..
    · exact (Bobbin.dwellEnd_pendO hr _).trans (Prod.ext (add_zero _) rfl)
    · exact Bobbin.dwellEnd_pendLin hr _
  case scan =>
    subst hms
    refine ⟨_, exec_levelScanEnd_fourth hserves hbobbin hprogrammed hlevels hbase hthree, ?_, ?_, ?_, ?_,
      fun q d h => State.bobbin_setBobbin_ne h _ _, rfl⟩ <;>
      rw [State.bobbin_setBobbin_same, Bobbin.levelScan_fourth hbase hthree]
    exact scanMeans_four (by rw [List.length_cons, hthree])

end Sys2Proof.Machine
end

section
/-! PROOF. O50: the trim image (R347 to R350, R424, R478). -/

namespace Sys2Proof.Machine

/-! ## TRIM_READ (R349) -/

section
variable {h : Hdr} {x : Xfer} {o l n claim : Nat} {s : State}

/-- With no transfer open, due to end, or waiting for its check, nothing holds the trim image. -/
theorem State.trimHeld_free (hxfer : s.bulk.xfer = none) (hbar : s.bulk.bar = none) (harrived : s.bulk.arrived = none) :
    s.trimHeld claim = none := by
  unfold State.trimHeld
  rw [hxfer, hbar, harrived]
  rfl

/-- The offset and the length that R424 admits. -/
theorem trimReadParams_eq_none (ho : o % 2048 = 0) (hl : l % 2048 = 0) (hpos : 0 < l) (hfits : o + l ≤ trimBytes) :
    firstOf [require (decide (o % 2048 = 0) && decide (o < trimBytes)) (paramBadAt 8),
      require (decide (l % 2048 = 0) && decide (0 < l) && decide (o + l ≤ trimBytes)) (paramBadAt 0x0C)] = none := by
  have hinside : o < trimBytes := by omega
  simp only [firstOf_cons_eq_none, require_eq_none, Bool.and_eq_true, decide_eq_true_eq]
  exact ⟨⟨ho, hinside⟩, ⟨⟨hl, hpos⟩, hfits⟩, rfl⟩

theorem trimRead_answers (hacc : s.accepts Op.trimRead false = true) (ho : o % 2048 = 0) (hl : l % 2048 = 0)
    (hpos : 0 < l) (hfits : o + l ≤ trimBytes) (hxfer : s.bulk.xfer = none) (hbar : s.bulk.bar = none)
    (harrived : s.bulk.arrived = none) :
    Answers (.trimRead h o l) h Op.trimRead (fun s => leBytes 4 s.trim.epoch ++ leBytes 4 (f2Blocks l))
      (fun s => { s with bulk := { s.bulk with xfer := some {
        kind := 4, handle := 0, index := 0, opcode := Op.trimRead, hdr := h, total := some l
        buf := sliceBytes o l s.trimImage } } }) s := by
  refine Answers.of_done (form := 0) ?_
  rw [exec_trimRead, execTrimRead]
  exact hostCommand_accepted (trimReadParams_eq_none ho hl hpos hfits) hacc (State.trimHeld_free hxfer hbar harrived)

theorem exec_trimSnapshotReady_open (hup : s.up = true) (hopen : s.bulk.xfer = some x) (hkind : x.kind = 4) :
    exec (.trimSnapshotReady n) s = .next { s with
      now := max s.now n, bulk := { s.bulk with xfer := some { x with ready := true } } } := by
  have hready : ((s.advance n).up && x.kind == 4) = true := by simp [hup, hkind]
  have hbulk : (s.advance n).bulk.xfer = some x := hopen
  rw [exec_trimSnapshotReady, execTrimSnapshotReady]
  simp only [hbulk, hready, if_true]
  rfl

/-! ## TRIM_WRITE (R350, R478) -/

/-- A command whose core is free again leaves the device state. -/
theorem State.release_devState (op : Nat) (tag : BitVec 32) (s : State) :
    (s.release op tag).mgmt.devState = s.mgmt.devState := by
  rw [State.release_sameHands op tag s]

theorem trimWrite_opens (hacc : s.accepts Op.trimWrite false = true) (hcheck : trimWriteCheck s = none) :
    ∃ t, exec (.trimWrite h) s = .next t
      ∧ t.bulk = { s.bulk with xfer := some {
          kind := 3, handle := 0, index := 0, opcode := Op.trimWrite, hdr := h, total := some trimBytes } }
      ∧ t.mgmt.devState = (if s.mgmt.devState = 2 then 1 else s.mgmt.devState)
      ∧ t = { s with now := max s.now h.t, bulk := t.bulk, mgmt := t.mgmt } := by
  refine ⟨trimWriteDo h (s.advance h.t), ?_, rfl, State.release_devState .., rfl⟩
  rw [exec_trimWrite, execTrimWrite]
  exact hostCommand_accepted rfl hacc hcheck

/-! ## The check of an image (R350) -/

/-- An image that has arrived is taken for its check. -/
def State.imageTaken (s : State) : State := { s with bulk := { s.bulk with arrived := none } }

theorem exec_trimWriteCheck_arrived (halive : s.alive = true) (harrived : s.bulk.arrived = some x)
    (hkind : x.kind = 3) :
    exec (.trimWriteCheck n) s = .next (
      if s.trimGood (x.buf.take trimBytes) then
        ((s.advance n).imageTaken.restoreTrim (x.buf.take trimBytes)).reply x.hdr Op.trimWrite 0 Status.ok []
      else (s.advance n).imageTaken.reply x.hdr Op.trimWrite 0 Status.trimBad []) := by
  have hcheck : (!((s.advance n).alive && x.kind == 3)) = false := by simp [halive, hkind]
  have hbulk : (s.advance n).bulk.arrived = some x := harrived
  rw [exec_trimWriteCheck, execTrimWriteCheck]
  simp only [hbulk, hcheck, Bool.false_eq_true, if_false]
  rfl

/-- An accepted image changes the priors alone: the converter's factors, the device-wide values and the bobbins. -/
theorem State.restoreTrim_eq (b : Bytes) (s : State) : s.restoreTrim b = { s with
    hc := (s.restoreTrim b).hc, trim := (s.restoreTrim b).trim, pillows := (s.restoreTrim b).pillows } := by
  have hframe := @State.modBobbin_frame
  exact State.eq_of_parts (by unfold State.restoreTrim; simp [hframe])

/-- An accepted image sets RESTORED, clears CAL_DONE and keeps the epoch. -/
theorem State.restoreTrim_trim (b : Bytes) (s : State) : (s.restoreTrim b).trim.restored = true
    ∧ (s.restoreTrim b).trim.calDone = false ∧ (s.restoreTrim b).trim.epoch = s.trim.epoch := by
  have hframe := @State.modBobbin_frame
  unfold State.restoreTrim
  simp [hframe]

theorem trimWriteCheck_restores (halive : s.alive = true) (harrived : s.bulk.arrived = some x) (hkind : x.kind = 3)
    (hgood : s.trimGood (x.buf.take trimBytes) = true) :
    ∃ t, exec (.trimWriteCheck n) s = .next t ∧ Replied x.hdr Op.trimWrite Status.ok [] s t
      ∧ t.bulk = { s.bulk with arrived := none }
      ∧ t.trim.restored = true ∧ t.trim.calDone = false ∧ t.trim.epoch = s.trim.epoch
      ∧ t = { s with
          now := max s.now n, bulk := t.bulk, trim := t.trim, hc := t.hc, pillows := t.pillows
          queues := t.queues } := by
  have hrest := State.restoreTrim_eq (x.buf.take trimBytes) (s.advance n).imageTaken
  have htrim := State.restoreTrim_trim (x.buf.take trimBytes) (s.advance n).imageTaken
  refine ⟨_, (exec_trimWriteCheck_arrived halive harrived hkind).trans (congrArg _ (if_pos hgood)), ?_⟩
  generalize (s.advance n).imageTaken.restoreTrim (x.buf.take trimBytes) = u at hrest htrim
  have hreply : u.reply x.hdr Op.trimWrite 0 Status.ok [] = _ := State.reply_eq
  refine ⟨Replied.of_queues (by rw [hrest]; rfl) State.reply_replied, ?_, ?_⟩
  · rw [hreply, hrest]; rfl
  · obtain ⟨hset, hclear, hepoch⟩ := htrim
    generalize u.reply x.hdr Op.trimWrite 0 Status.ok [] = t at hreply
    rw [hreply]
    refine ⟨hset, hclear, hepoch, ?_⟩
    rw [hrest]
    rfl

theorem trimWriteCheck_refused (halive : s.alive = true) (harrived : s.bulk.arrived = some x) (hkind : x.kind = 3)
    (hbad : s.trimGood (x.buf.take trimBytes) = false) :
    ∃ t, exec (.trimWriteCheck n) s = .next t ∧ Replied x.hdr Op.trimWrite Status.trimBad [] s t
      ∧ t.bulk = { s.bulk with arrived := none }
      ∧ t = { s with now := max s.now n, bulk := t.bulk, queues := t.queues } := by
  have hnot : ¬ s.trimGood (x.buf.take trimBytes) = true := by rw [hbad]; exact Bool.false_ne_true
  have hreply : (s.advance n).imageTaken.reply x.hdr Op.trimWrite 0 Status.trimBad [] = _ := State.reply_eq
  refine ⟨_, (exec_trimWriteCheck_arrived halive harrived hkind).trans (congrArg _ (if_neg hnot)),
    Replied.of_queues (u := (s.advance n).imageTaken) rfl State.reply_replied, ?_, ?_⟩
  · rw [hreply]; rfl
  · generalize (s.advance n).imageTaken.reply x.hdr Op.trimWrite 0 Status.trimBad [] = t at hreply
    rw [hreply]; rfl

end

/-! ## The obligation -/

/-- Settles O50: both commands pass their checks, and an arrived image is restored or refused by `State.trimGood`. -/
theorem trimImage : Obligations.TrimImage := by
  unfold Obligations.TrimImage
  refine ⟨fun h o l s => trimRead_answers, fun n x s => exec_trimSnapshotReady_open, fun h s => trimWrite_opens,
    fun n x s halive harrived hkind => ?_⟩
  cases hgood : s.trimGood (x.buf.take trimBytes) with
  | true => simpa only [if_true] using trimWriteCheck_restores halive harrived hkind hgood
  | false => simpa only [Bool.false_eq_true, if_false] using trimWriteCheck_refused halive harrived hkind hgood

end Sys2Proof.Machine
end

section
/-! PROOF. O33: the house converter's code (R363). -/

namespace Sys2Proof.Machine

/-! ## The SAR bits as a number -/

theorem bitOf_toNat {w : Nat} (i : Nat) (v : BitVec w) : bitOf i v.toNat = v.getLsbD i := by
  simp [bitOf, BitVec.getLsbD, Nat.testBit_eq_decide_div_mod_eq, beq_eq_decide]

/-- The lowest n bits of a number, each at its weight. -/
theorem sum_testBit_eq_mod (v n : Nat) :
    ((List.range n).map fun i => if v.testBit i then (2 : Int) ^ i else 0).sum = ((v % 2 ^ n : Nat) : Int) := by
  induction n with
  | zero => simp [Nat.mod_one]
  | succ n ih =>
    rw [List.range_succ, List.map_append, List.sum_append, ih, Nat.mod_pow_succ, ← Nat.toNat_testBit]
    cases h : v.testBit n <;> simp [h]

theorem sum_getLsbD_eq_toNat {w : Nat} (v : BitVec w) :
    ((List.range w).map fun i => if v.getLsbD i then (2 : Int) ^ i else 0).sum = (v.toNat : Int) :=
  (sum_testBit_eq_mod v.toNat w).trans (congrArg Nat.cast (Nat.mod_eq_of_lt v.isLt))

/-! ## The corrected weights -/

theorem House.weights_toNat (x : House) (raw : BitVec 12) :
    x.weights raw.toNat
      = ((List.range 8).map fun k => if raw.getLsbD (11 - k) then x.fact.getD (4 + k) 0 else 0).sum := by
  simp only [House.weights, House.factor, bitOf_toNat]

theorem clampInt_nonneg {lo hi : Int} (h : 0 ≤ lo) (v : Int) : 0 ≤ clampInt lo hi v :=
  h.trans (le_max_left ..)

/-! ## The obligation -/

/-- Settles O33: the SAR bits sum to the raw word, and the held code is never negative. -/
theorem houseCode : Obligations.HouseCode := by
  unfold Obligations.HouseCode
  intro x lp raw
  dsimp only
  rw [sum_getLsbD_eq_toNat, ← House.weights_toNat, House.code, Int.toNat_of_nonneg (clampInt_nonneg le_rfl _)]
  rfl

end Sys2Proof.Machine
end

section
/-! PROOF. O35: HC_READ, the sequences' triggers and the ends of conversions (R357, R363 to R373). -/

namespace Sys2Proof.Machine

/-! ## Which sequence comes next (R368, R369) -/

theorem State.runningSeq_eq_none {s : State} :
    s.runningSeq = none ↔ ∀ q < 16, ∀ i, (s.hseq q).phase ≠ .running i := by
  rw [State.runningSeq, List.findSome?_eq_none_iff]
  refine ⟨fun h q hq i hrun => ?_, fun h q hq => ?_⟩
  · have := h q (List.mem_range.mpr hq)
    rw [hrun] at this
    cases this
  · have := h q (List.mem_range.mp hq)
    split
    · next i hrun => exact absurd hrun (this i)
    · rfl

/-- The search of `State.readySeq` past one sequence. -/
def State.readyStep (s : State) (m : Option (Nat × Nat)) (q : Nat) : Option (Nat × Nat) :=
  match (s.hseq q).phase, m with
  | .ready t, none => some (q, t)
  | .ready t, some (_, u) => if t < u then some (q, t) else m
  | _, _ => m

theorem State.readySeq_eq (s : State) :
    s.readySeq = ((List.range 16).foldl s.readyStep none).map Prod.fst := rfl

/-- The search finds nothing exactly where it had found nothing and the sequence is not ready. -/
theorem State.readyStep_eq_none {s : State} {m : Option (Nat × Nat)} {q : Nat} :
    s.readyStep m q = none ↔ m = none ∧ ∀ t, (s.hseq q).phase ≠ .ready t := by
  unfold State.readyStep
  split
  · next t hready => simp [hready]
  · next t p u hready => by_cases hlt : t < u <;> simp [hready, hlt]
  · next hnone _ => exact ⟨fun hm => ⟨hm, fun t hready => hnone t hready hm⟩, And.left⟩

theorem State.foldl_readyStep_eq_none {s : State} (l : List Nat) (m : Option (Nat × Nat)) :
    l.foldl s.readyStep m = none ↔ m = none ∧ ∀ q ∈ l, ∀ t, (s.hseq q).phase ≠ .ready t := by
  induction l generalizing m with
  | nil => simp
  | cons q l ih => rw [List.foldl_cons, ih, State.readyStep_eq_none, List.forall_mem_cons, and_assoc]

theorem State.readySeq_eq_none {s : State} :
    s.readySeq = none ↔ ∀ q < 16, ∀ t, (s.hseq q).phase ≠ .ready t := by
  rw [State.readySeq_eq, Option.map_eq_none_iff, State.foldl_readyStep_eq_none]
  simp only [true_and, List.mem_range]

theorem State.readyStep_eq_some {s : State} {m : Option (Nat × Nat)} {q : Nat} {x : Nat × Nat}
    (h : s.readyStep m q = some x) : m = some x ∨ (x.1 = q ∧ (s.hseq x.1).phase = .ready x.2) := by
  unfold State.readyStep at h
  split at h
  · next t hready => cases h; exact .inr ⟨rfl, hready⟩
  · next t p u hready =>
    split at h
    · cases h; exact .inr ⟨rfl, hready⟩
    · exact .inl h
  · exact .inl h

/-- What the search finds is one of the sequences that it has passed, and is ready. -/
theorem State.foldl_readyStep_eq_some {s : State} {l : List Nat} {m : Option (Nat × Nat)} {x : Nat × Nat}
    (h : l.foldl s.readyStep m = some x) : m = some x ∨ (x.1 ∈ l ∧ (s.hseq x.1).phase = .ready x.2) := by
  induction l generalizing m with
  | nil => exact .inl h
  | cons q l ih =>
    obtain hfound | ⟨hmem, hready⟩ := ih h
    · obtain hm | ⟨hq, hready⟩ := State.readyStep_eq_some hfound
      · exact .inl hm
      · exact .inr ⟨hq ▸ List.mem_cons_self, hready⟩
    · exact .inr ⟨List.mem_cons_of_mem q hmem, hready⟩

/-- The one sequence that is ready is the first. -/
theorem State.readySeq_eq_some {s : State} {q u : Nat} (hq : q < 16) (hready : (s.hseq q).phase = .ready u)
    (honly : ∀ p < 16, p ≠ q → ∀ t, (s.hseq p).phase ≠ .ready t) : s.readySeq = some q := by
  cases hfound : s.readySeq with
  | none => exact absurd hready (State.readySeq_eq_none.mp hfound q hq u)
  | some p =>
    rw [State.readySeq_eq, Option.map_eq_some_iff] at hfound
    obtain ⟨x, hx, rfl⟩ := hfound
    obtain hnone | ⟨hmem, hphase⟩ := State.foldl_readyStep_eq_some hx
    · cases hnone
    · by_contra hne
      exact honly x.1 (List.mem_range.mp hmem) (fun e => hne (congrArg some e)) x.2 hphase

/-! ## What the free converter takes (R369) -/

/-- A conversion of anything but the calibration machinery takes the mode set now (R362). -/
theorem State.convert_of_notCheck {c : Conv} (h : c.isCheck = false) (s : State) :
    s.convert c = { s with hc := { s.hc with
      conv := some { c with start := s.now, lp := s.hc.lp, owTh := s.hc.owTh } } } := by
  rw [State.convert, h, Bool.not_false, Bool.and_true]

/-- Nothing waits for the converter. -/
structure State.NoneWaits (s : State) : Prop where
  aborted : s.hc.aborted = []
  urgents : s.hc.urgents = []
  reads : s.hc.reads = []
  running : s.runningSeq = none
  ready : s.readySeq = none
  check : s.checkWaits = none

theorem State.hcNext_of_noneWaits {s : State} (h : s.NoneWaits) : s.hcNext = s := by
  obtain ⟨haborted, hurgents, hreads, hrunning, hready, hcheck⟩ := h
  unfold State.hcNext State.hcIdle
  simp only [haborted, hurgents, hreads, hrunning, hready, hcheck]
  split <;> rfl

/-- A calibration conversion that has waited less than 1 ms is not yet the next (R357, R369). -/
theorem State.checkWaits_notDue {s : State} (hcheck : ∀ w, s.checkWaits = some w → s.now < w + 1_000_000) :
    ¬ (s.checkWaits.any fun w => decide (w + 1_000_000 ≤ s.now)) = true := by
  cases hw : s.checkWaits with
  | none => exact Bool.false_ne_true
  | some w =>
    rw [Option.any_some, decide_eq_true_eq]
    exact Nat.not_le.mpr (hcheck w hw)

/-- A free converter without a conversion that R369 puts first takes what is in the last three positions. -/
theorem State.hcNext_eq_hcIdle {s : State} (hconv : s.hc.conv = none) (hself : s.hc.selfcal = none)
    (hcal : s.trim.cal = none) (haborted : s.hc.aborted = []) (hurgents : s.hc.urgents = [])
    (hrunning : s.runningSeq = none) (hcheck : ∀ w, s.checkWaits = some w → s.now < w + 1_000_000) :
    s.hcNext = s.hcIdle := by
  unfold State.hcNext
  simp only [hconv, hself, hcal, haborted, hurgents, hrunning, State.checkWaits_notDue hcheck]
  rfl

theorem State.hcIdle_of_ready {s : State} {q : Nat} (h : s.readySeq = some q) :
    s.hcIdle = (s.modHseq q fun y => { y with phase := .running 0 }).convert (s.stepConv q 0) := by
  rw [State.hcIdle, h]

theorem State.hcIdle_of_read {s : State} {c : Conv} {r : List Conv} (hready : s.readySeq = none)
    (hreads : s.hc.reads = c :: r) : s.hcIdle = ({ s with hc := { s.hc with reads := r } }).convert c := by
  rw [State.hcIdle, hready, hreads]

/-- A free converter for which nothing waited takes a host read at once. -/
theorem State.hcNext_of_read {c : Conv} {s : State} (hc : c.isCheck = false) (hconv : s.hc.conv = none)
    (hself : s.hc.selfcal = none) (hcal : s.trim.cal = none) (haborted : s.hc.aborted = [])
    (hurgents : s.hc.urgents = []) (hreads : s.hc.reads = []) (hrunning : s.runningSeq = none)
    (hready : s.readySeq = none) (hcheck : ∀ w, s.checkWaits = some w → s.now < w + 1_000_000) :
    ({ s with hc := { s.hc with reads := s.hc.reads ++ [c] } }).hcNext
      = { s with hc := { s.hc with
          conv := some { c with start := s.now, lp := s.hc.lp, owTh := s.hc.owTh } } } := by
  generalize hv : ({ s with hc := { s.hc with reads := s.hc.reads ++ [c] } } : State) = v
  have hnext : v.hcNext = v.hcIdle := by
    subst hv
    exact State.hcNext_eq_hcIdle hconv hself hcal haborted hurgents hrunning hcheck
  have hidle : v.hcIdle = ({ v with hc := { v.hc with reads := [] } }).convert c := by
    subst hv
    exact State.hcIdle_of_read hready (congrArg (· ++ [c]) hreads)
  rw [hnext, hidle, State.convert_of_notCheck hc, ← hreads, ← hv]

/-! ## HC_READ (R371, R373) -/

section
variable {h : Hdr} {ch q i n u : Nat} {opt : HcOpt} {c : Conv} {raw lo hi : BitVec 12} {s : State}

theorem hcReadData_answers (hacc : s.accepts Op.hcRead false = true) :
    Answers (.hcReadData h) h Op.hcRead
      (fun s => leBytes 4 s.hc.data.word ++ leBytes 4 (s.hc.data.frozenWp.getD s.hc.data.wp))
      (fun s => { s with hc := { s.hc with
        data := { s.hc.data with valid := false, overrun := false, frozenWp := none } } }) s := by
  refine Answers.of_done (form := 0) ?_
  rw [exec_hcReadData, execHcReadData]
  exact hostCommand_accepted rfl hacc rfl

theorem hcDataRead_answers (hacc : s.accepts Op.regRead false = true) :
    Answers (.hcDataRead h) h Op.regRead (fun s => leBytes 4 s.hc.data.word)
      (fun s => { s with hc := { s.hc with
        data := { s.hc.data with
          valid := false, overrun := false, frozenWp := some (s.hc.data.frozenWp.getD s.hc.data.wp) } } }) s := by
  refine Answers.of_done (form := 0) ?_
  rw [exec_hcDataRead, execHcDataRead]
  exact hostCommand_accepted rfl hacc rfl

theorem hcReadParams_eq_none (hch : ch ≤ 31) : require (decide (ch ≤ 31)) (paramBadAt 9) = none :=
  (require_eq_none ..).mpr (decide_eq_true hch)

/-- CONVERT and URGENT start no conversion during a self-calibration (R365). -/
theorem selfcal_of_hcReadCheck (h : hcReadCheck ch opt s = none) : s.hc.selfcal = none := by
  rw [hcReadCheck, firstOf_cons_eq_none, firstOf_cons_eq_none, firstOf_cons_eq_none] at h
  obtain ⟨-, -, hself, -⟩ := h
  exact Option.isNone_iff_eq_none.mp ((require_eq_none ..).mp hself)

theorem exec_hcReadConvert_starts (hacc : s.accepts Op.hcRead false = true) (hch : ch ≤ 31)
    (hown : hcReadCheck ch opt s = none) (hcal : s.trim.cal = none) (hconv : s.hc.conv = none)
    (haborted : s.hc.aborted = []) (hurgents : s.hc.urgents = []) (hreads : s.hc.reads = [])
    (hrunning : s.runningSeq = none) (hready : s.readySeq = none)
    (hcheck : ∀ w, (s.advance h.t).checkWaits = some w → max s.now h.t < w + 1_000_000) :
    exec (.hcReadConvert h ch opt) s = .next { s with
      now := max s.now h.t
      hc := { s.hc with conv := some {
        kind := .read h, ch := ch, opt := s.readOpt ch opt, start := max s.now h.t, lp := s.hc.lp
        owTh := s.hc.owTh } } } := by
  rw [exec_hcReadConvert, execHcReadConvert, hostCommand_accepted (hcReadParams_eq_none hch) hacc hown]
  exact congrArg Host.Outcome.next (State.hcNext_of_read (s := s.advance h.t) rfl hconv (selfcal_of_hcReadCheck hown)
    hcal haborted hurgents hreads hrunning hready hcheck)

theorem exec_hcReadUrgent_aborts (hacc : s.accepts Op.hcRead false = true) (hch : ch ≤ 31)
    (hown : hcReadCheck ch opt s = none) (hconv : s.hc.conv = some c) (hkind : c.kind = .step q i) :
    exec (.hcReadUrgent h ch opt) s = .next { s with
      now := max s.now h.t
      hc := { s.hc with
        aborted := s.hc.aborted ++ [{ c with restarted := true }], abort := min 0xFFFF (s.hc.abort + 1)
        conv := some {
          kind := .urgent h, ch := ch, opt := s.readOpt ch opt, start := max s.now h.t, lp := s.hc.lp
          owTh := s.hc.owTh } } } := by
  have hbusy : (s.advance h.t).hc.conv = some c := hconv
  rw [exec_hcReadUrgent, execHcReadUrgent, hostCommand_accepted (hcReadParams_eq_none hch) hacc hown]
  simp only [hbusy, hkind]
  rw [State.convert_of_notCheck rfl]
  rfl

/-! ## The end of a delay (R365, R368) -/

theorem exec_sequenceReady_due (hup : s.up = true) (hdelay : (s.hseq q).phase = .delay u) (hdue : u ≤ max s.now n) :
    exec (.sequenceReady n q) s = .next
      (if s.hc.selfcal.isSome || s.trim.cal.isSome then
        (s.advance n).modHseq q fun x => { x with phase := .idle, lost := satAdd 0xFFFF x.lost 1 }
      else ((s.advance n).modHseq q fun x => { x with phase := .ready u }).hcNext) := by
  have hphase : ((s.advance n).hseq q).phase = .delay u := hdelay
  have harises : ¬ (!((s.advance n).up && decide (u ≤ (s.advance n).now))) = true := by simp [hup, hdue]
  rw [exec_sequenceReady]
  unfold execSequenceReady
  simp only [hphase]
  exact congrArg Host.Outcome.next (if_neg harises)

theorem exec_sequenceReady_lost (hup : s.up = true) (hdelay : (s.hseq q).phase = .delay u) (hdue : u ≤ max s.now n)
    (hheld : s.hc.selfcal.isSome = true ∨ s.trim.cal.isSome = true) :
    exec (.sequenceReady n q) s = .next { s.setHseq q { s.hseq q with
      phase := .idle, lost := min 0xFFFF ((s.hseq q).lost + 1) } with now := max s.now n } := by
  rw [exec_sequenceReady_due hup hdelay hdue, if_pos ((Bool.or_eq_true ..).mpr hheld)]
  rfl

theorem exec_sequenceReady_starts (hup : s.up = true) (hq : q < 16) (hdelay : (s.hseq q).phase = .delay u)
    (hdue : u ≤ max s.now n) (hself : s.hc.selfcal = none) (hcal : s.trim.cal = none) (hconv : s.hc.conv = none)
    (haborted : s.hc.aborted = []) (hurgents : s.hc.urgents = []) (hrunning : s.runningSeq = none)
    (hready : s.readySeq = none)
    (hcheck : ∀ w, (s.advance n).checkWaits = some w → max s.now n < w + 1_000_000) :
    ∃ t, exec (.sequenceReady n q) s = .next t ∧ t.hseq q = { s.hseq q with phase := .running 0 }
      ∧ t.hc = { s.hc with conv := some {
          kind := .step q 0, ch := nth (s.hseq q).steps 0, opt := (s.chan (nth (s.hseq q).steps 0)).opt
          start := max s.now n, lp := s.hc.lp, owTh := s.hc.owTh } }
      ∧ t = { s with now := max s.now n, seqs := t.seqs, hc := t.hc } := by
  have hfree : ¬ (s.hc.selfcal.isSome || s.trim.cal.isSome) = true := by simp [hself, hcal]
  rw [exec_sequenceReady_due hup hdelay hdue, if_neg hfree]
  generalize hv : (s.advance n).modHseq q (fun x => { x with phase := .ready u }) = v
  have hseq (p : Nat) : v.hseq p = if p = q then { s.hseq q with phase := .ready u } else s.hseq p :=
    hv ▸ State.hseq_setHseq q p _ _
  have hsame : v.hseq q = { s.hseq q with phase := .ready u } := (hseq q).trans (if_pos rfl)
  have hother (p : Nat) (hp : p ≠ q) : v.hseq p = s.hseq p := (hseq p).trans (if_neg hp)
  have hnone : v.runningSeq = none := State.runningSeq_eq_none.mpr fun p hp i => by
    by_cases e : p = q
    · rw [e, hsame]; nofun
    · rw [hother p e]; exact State.runningSeq_eq_none.mp hrunning p hp i
  have hfirst : v.readySeq = some q := State.readySeq_eq_some hq (congrArg HcSeq.phase hsame) fun p hp e => by
    rw [hother p e]; exact State.readySeq_eq_none.mp hready p hp
  have hnext : v.hcNext = v.hcIdle := by
    subst hv
    exact State.hcNext_eq_hcIdle hconv hself hcal haborted hurgents hnone hcheck
  refine ⟨_, rfl, ?_⟩
  rw [hnext, State.hcIdle_of_ready hfirst, State.convert_of_notCheck rfl]
  refine ⟨?_, ?_, ?_⟩
  · exact (State.hseq_setHseq_same q _ v).trans (by rw [hsame])
  · rw [State.stepConv, hsame, ← hv]; rfl
  · rw [← hv]; rfl

/-! ## The end of a conversion (R363, R369 to R371) -/

theorem House.result_of_noTest (how : c.opt.ow = 0) (x : House) :
    x.result c raw lo hi = { code := x.code c.lp raw, isOpen := false, lo := x.code c.lp raw, hi := 0 } := by
  rw [House.result, how]
  rfl

theorem State.openWire_of_noTest (how : c.opt.ow = 0) (o : ConvOut) (s : State) : s.openWire c o = s :=
  if_pos (.inl how)

/-- A reply leaves what a calibration conversion's wait is read from. -/
theorem State.done_checkWaits (op form : Nat) (b : Bytes) (s : State) :
    (s.done h op form b).checkWaits = s.checkWaits := by
  have halive : (s.done h op form b).alive = s.alive := by
    rw [State.alive, State.up, State.done_sameHands h op form b s, State.done_eq]
    rfl
  rw [State.checkWaits, State.sealTime, halive, State.done_eq]
  rfl

theorem State.NoneWaits.done (hw : s.NoneWaits) (op form : Nat) (b : Bytes) : (s.done h op form b).NoneWaits where
  aborted := by rw [State.done_eq]; exact hw.aborted
  urgents := by rw [State.done_eq]; exact hw.urgents
  reads := by rw [State.done_eq]; exact hw.reads
  running := by rw [State.done_eq]; exact hw.running
  ready := by rw [State.done_eq]; exact hw.ready
  check := (State.done_checkWaits ..).trans hw.check

/-- The converter is free at device time n. -/
def State.converterFree (n : Nat) (s : State) : State :=
  { s with now := max s.now n, hc := { s.hc with conv := none } }

/-- What follows a conversion's result, by the kind of the conversion (R357, R370, R371). -/
def State.takeResult (c : Conv) (o : ConvOut) (s : State) : State :=
  match c.kind with
  | .check => ({ s with hc := { s.hc with checked := true } }).hcNext
  | .step q i => ((s.landResult c q o).stepEnd q i).hcNext
  | .read h => (s.done h Op.hcRead 1 (leBytes 4 (hcResult c 0 o 0).word ++ leBytes 4 0)).hcNext
  | .urgent h => (s.done h Op.hcRead 2 (leBytes 4 (hcResult c 0 o 0).word ++ leBytes 4 0)).hcNext

theorem exec_conversionEnd_takes (hup : s.up = true) (hconv : s.hc.conv = some c)
    (htest : c.isCheck = true ∨ c.opt.ow = 0) :
    exec (.conversionEnd n raw lo hi) s
      = .next ((s.converterFree n).takeResult c (s.hc.result c raw lo hi)) := by
  have hbusy : (s.advance n).hc.conv = some c := hconv
  have hruns : ¬ (!(s.advance n).up) = true := by simp [hup]
  have hwire : (if c.isCheck then s.converterFree n
      else (s.converterFree n).openWire c (s.hc.result c raw lo hi)) = s.converterFree n := by
    obtain hcheck | how := htest
    · exact if_pos hcheck
    · rw [State.openWire_of_noTest how, ite_self]
  rw [exec_conversionEnd]
  unfold execConversionEnd
  simp only [hbusy]
  refine congrArg Host.Outcome.next ((if_neg hruns).trans ?_)
  exact congrArg (State.takeResult c (s.hc.result c raw lo hi)) hwire

/-- A conversion of the calibration machinery is made for the seal now due, and no other follows it (R357). -/
theorem exec_conversionEnd_check (hup : s.up = true) (hconv : s.hc.conv = some c) (hkind : c.kind = .check)
    (haborted : s.hc.aborted = []) (hurgents : s.hc.urgents = []) (hreads : s.hc.reads = [])
    (hrunning : s.runningSeq = none) (hready : s.readySeq = none) :
    exec (.conversionEnd n raw lo hi) s = .next { s with
      now := max s.now n, hc := { s.hc with conv := none, checked := true } } := by
  have hcheck : c.isCheck = true := by rw [Conv.isCheck, hkind]; rfl
  have hnone : State.checkWaits { s with
      now := max s.now n, hc := { s.hc with conv := none, checked := true } } = none :=
    if_neg (by simp)
  rw [exec_conversionEnd_takes hup hconv (.inl hcheck), State.takeResult, hkind]
  exact congrArg Host.Outcome.next (State.hcNext_of_noneWaits ⟨haborted, hurgents, hreads, hrunning, hready, hnone⟩)

theorem hcResult_of_noTest (how : c.opt.ow = 0) (code l wp : Nat) :
    hcResult c q { code := code, isOpen := false, lo := l, hi := 0 } wp
      = { code := code, ch := c.ch, seq := q, restarted := c.restarted, lp := c.lp, valid := true, wp := wp } := by
  rw [hcResult, how]
  rfl

/-- A host read's answer names no sequence and no overrun (R373). -/
theorem hcResult_word_of_noTest (how : c.opt.ow = 0) (code l : Nat) :
    (hcResult c 0 { code := code, isOpen := false, lo := l, hi := 0 } 0).word
      = code % 4096 + fld 12 5 c.ch + flag 23 c.restarted + flag 24 c.lp + flag 31 true := by
  rw [hcResult_of_noTest how]
  simp [HcData.word, fld, flag]

theorem exec_conversionEnd_read (hup : s.up = true) (hconv : s.hc.conv = some c) (hkind : c.kind = .read h)
    (how : c.opt.ow = 0) (hwaits : (s.converterFree n).NoneWaits) :
    ∃ t, exec (.conversionEnd n raw lo hi) s = .next t ∧ t.hc = { s.hc with conv := none }
      ∧ Replied h Op.hcRead Status.ok
          (leBytes 4 (s.hc.code c.lp raw % 4096 + fld 12 5 c.ch + flag 23 c.restarted + flag 24 c.lp + flag 31 true)
            ++ leBytes 4 0) s t
      ∧ t = { s with now := max s.now n, hc := t.hc, queues := t.queues, mgmt := t.mgmt } := by
  refine ⟨_, exec_conversionEnd_takes hup hconv (.inr how), ?_⟩
  rw [State.takeResult, hkind]
  dsimp only
  rw [State.hcNext_of_noneWaits (hwaits.done ..), House.result_of_noTest how, hcResult_word_of_noTest how]
  refine ⟨?_, Replied.of_queues (u := s.converterFree n) rfl (State.done_replied ..), ?_⟩
  · rw [State.done_eq]; rfl
  · rw [State.done_eq]; rfl

/-! ## A sequence's last step (R370, R371) -/

/-- A sequence's result in HC_DATA, whose window is not tested. -/
def State.landed (c : Conv) (q : Nat) (o : ConvOut) (s : State) : State :=
  { s with hc := { s.hc with
    data := { hcResult c q o (s.hseq q).trigWp with overrun := s.hc.data.valid, frozenWp := s.hc.data.frozenWp }
    ovr := satAdd 0xFFFF s.hc.ovr (if s.hc.data.valid then 1 else 0) } }

theorem State.landed_data (how : c.opt.ow = 0) (code l : Nat) :
    (s.landed c q { code := code, isOpen := false, lo := l, hi := 0 }).hc.data
      = { code := code, ch := c.ch, seq := q, restarted := c.restarted, lp := c.lp, overrun := s.hc.data.valid,
          valid := true, wp := (s.hseq q).trigWp, frozenWp := s.hc.data.frozenWp } := by
  rw [State.landed, hcResult_of_noTest how]

theorem State.landResult_eq_landed {o : ConvOut} (hwin : (s.chan c.ch).winEn = false) :
    s.landResult c q o = s.landed c q o := by
  have hinside : ¬ (decide (c.ch < 16) && (s.chan c.ch).winEn
      && (decide (o.code < (s.chan c.ch).lo) || decide ((s.chan c.ch).hi < o.code))) = true := by simp [hwin]
  exact if_neg hinside

/-- A sequence whose last step has ended is idle, and one run is complete. -/
def HcSeq.runEnded (x : HcSeq) : HcSeq := { x with phase := .idle, runs := min 0xFFFF (x.runs + 1) }

theorem State.stepEnd_last (hend : (s.hseq q).ending = false) (hlast : (s.hseq q).steps.length = i + 1) :
    s.stepEnd q i = s.setHseq q (s.hseq q).runEnded := by
  simp [State.stepEnd, HcSeq.runEnded, hend, hlast, satAdd]

theorem State.runningSeq_of_idle (hidle : ∀ p, (s.hseq p).phase = .idle) : s.runningSeq = none :=
  State.runningSeq_eq_none.mpr fun p _ i => by rw [hidle p]; nofun

theorem State.readySeq_of_idle (hidle : ∀ p, (s.hseq p).phase = .idle) : s.readySeq = none :=
  State.readySeq_eq_none.mpr fun p _ t => by rw [hidle p]; nofun

/-- With the other sequences idle, the end of a sequence's last step leaves the converter free. -/
theorem State.takeResult_lastStep {o : ConvOut} (hkind : c.kind = .step q i) (hwin : (s.chan c.ch).winEn = false)
    (hend : (s.hseq q).ending = false) (hlast : (s.hseq q).steps.length = i + 1) (haborted : s.hc.aborted = [])
    (hurgents : s.hc.urgents = []) (hreads : s.hc.reads = []) (hidle : ∀ p, p ≠ q → (s.hseq p).phase = .idle)
    (hcheck : s.checkWaits = none) :
    s.takeResult c o = (s.landed c q o).setHseq q (s.hseq q).runEnded := by
  have hstep : (s.landed c q o).stepEnd q i = (s.landed c q o).setHseq q (s.hseq q).runEnded :=
    State.stepEnd_last (s := s.landed c q o) hend hlast
  have hallIdle (p : Nat) : (((s.landed c q o).setHseq q (s.hseq q).runEnded).hseq p).phase = .idle := by
    rw [State.hseq_setHseq]
    split
    · rfl
    · next hp => exact hidle p hp
  rw [State.takeResult, hkind]
  dsimp only
  rw [State.landResult_eq_landed hwin, hstep]
  exact State.hcNext_of_noneWaits
    ⟨haborted, hurgents, hreads, State.runningSeq_of_idle hallIdle, State.readySeq_of_idle hallIdle, hcheck⟩

theorem exec_conversionEnd_lastStep (hup : s.up = true) (hconv : s.hc.conv = some c) (hkind : c.kind = .step q i)
    (how : c.opt.ow = 0) (hwin : (s.chan c.ch).winEn = false) (hend : (s.hseq q).ending = false)
    (hlast : (s.hseq q).steps.length = i + 1) (haborted : s.hc.aborted = []) (hurgents : s.hc.urgents = [])
    (hreads : s.hc.reads = []) (hidle : ∀ p, p ≠ q → (s.hseq p).phase = .idle)
    (hcheck : (s.advance n).checkWaits = none) :
    ∃ t, exec (.conversionEnd n raw lo hi) s = .next t
      ∧ t.hc.data = { code := s.hc.code c.lp raw, ch := c.ch, seq := q, restarted := c.restarted, lp := c.lp,
                      overrun := s.hc.data.valid, valid := true, wp := (s.hseq q).trigWp,
                      frozenWp := s.hc.data.frozenWp }
      ∧ t.hseq q = { s.hseq q with phase := .idle, runs := min 0xFFFF ((s.hseq q).runs + 1) }
      ∧ t = { s with now := max s.now n, hc := t.hc, seqs := t.seqs } := by
  have htake := State.takeResult_lastStep (s := s.converterFree n) (o := s.hc.result c raw lo hi) hkind hwin hend hlast
    haborted hurgents hreads hidle hcheck
  refine ⟨_, (exec_conversionEnd_takes hup hconv (.inr how)).trans (congrArg _ htake), ?_,
    State.hseq_setHseq_same .., rfl⟩
  rw [House.result_of_noTest how]
  exact State.landed_data how _ _

end

/-! ## The obligation -/

/-- Settles O35: a host read and a due sequence find the converter free by `State.hcNext_eq_hcIdle`, and a conversion's
end leaves it free by `State.hcNext_of_noneWaits`. -/
theorem houseConverter : Obligations.HouseConverter := by
  unfold Obligations.HouseConverter
  refine ⟨fun h s => hcReadData_answers, fun h s => hcDataRead_answers, fun h ch opt s => exec_hcReadConvert_starts,
    fun h ch q i opt c s => exec_hcReadUrgent_aborts, fun n q u s => exec_sequenceReady_lost,
    fun n q u s => exec_sequenceReady_starts,
    fun n raw lo hi c h s hup hconv hkind how haborted hurgents hreads hrunning hready hcheck =>
      exec_conversionEnd_read hup hconv hkind how ⟨haborted, hurgents, hreads, hrunning, hready, hcheck⟩,
    fun n q i raw lo hi c s => exec_conversionEnd_lastStep, fun n raw lo hi c s => exec_conversionEnd_check⟩

end Sys2Proof.Machine
end

section
/-! PROOF. O6: only a reset leaves the fault state (R488). Every operation of the machinery leaves device state 5 as it
is: most leave the management block alone, and those that write the device state do so from another state. -/

namespace Sys2Proof.Machine

/-! ## The operations of the machinery -/

@[simp] theorem Mgmt.ite_devState (c : Prop) [Decidable c] (a b : Mgmt) :
    (if c then a else b).devState = if c then a.devState else b.devState := apply_ite Mgmt.devState c a b

section
variable {s : State} (hs : s.mgmt.devState = 5)
include hs

@[simp] theorem State.release_fault (op : Nat) (tag : BitVec 32) : (s.release op tag).mgmt.devState = 5 := by
  unfold State.release
  dsimp only
  split <;> exact hs

@[simp] theorem State.done_fault (h : Hdr) (op form : Nat) (b : Bytes) : (s.done h op form b).mgmt.devState = 5 :=
  State.release_fault (by rw [State.reply_mgmt]; exact hs) op h.tag

@[simp] theorem State.refuse_fault (h : Hdr) (op form : Nat) (r : Reject) :
    (s.refuse h op form r).mgmt.devState = 5 :=
  State.release_fault (by rw [State.reply_mgmt]; exact hs) op h.tag

/-- The fault state is entered once. -/
@[simp] theorem State.enterFatal_fault (cause addr : Nat) : (s.enterFatal cause addr).mgmt.devState = 5 := by
  simp [State.enterFatal, hs]

@[simp] theorem State.enterRecovery_fault (cause : Nat) : (s.enterRecovery cause).mgmt.devState = 5 := by
  simp [State.enterRecovery, hs]

@[simp] theorem State.leaveRecovery_fault : s.leaveRecovery.mgmt.devState = 5 := by
  simp [State.leaveRecovery, hs]

@[simp] theorem State.settle_fault (p : Nat) : (s.settle p).mgmt.devState = 5 := by
  rw [State.settle_mgmt]; exact hs

theorem State.foldl_settle_fault (ps : List Nat) : (ps.foldl (fun s p => s.settle p) s).mgmt.devState = 5 :=
  foldl_keeps (fun z : State => z.mgmt.devState = 5) _ _ _ hs fun _ p ht => State.settle_fault ht p

@[simp] theorem State.deadLeft_fault (c : Nat) : (s.deadLeft c).mgmt.devState = 5 := by
  unfold State.deadLeft
  have hsettled (j : Job) : (j.pillows.foldl (fun s p => s.settle p)
      ((s.countMonitors c j).freeOwner (j.owner c) false c)).mgmt.devState = 5 :=
    State.foldl_settle_fault (by simp [State.freeOwner_frame, State.countMonitors_frame, hs]) _
  dsimp only
  (repeat' split) <;> simp [State.modJob_frame, hsettled, hs]

@[simp] theorem State.dropJob_fault (c : Nat) : (s.dropJob c).mgmt.devState = 5 := by
  unfold State.dropJob
  dsimp only
  split
  · exact hs
  · exact State.foldl_settle_fault
      (by simp [State.freeOwner_frame, State.countMonitors_frame, State.setJob_frame, hs]) _

@[simp] theorem State.abortJob_fault (c status : Nat) : (s.abortJob c status).mgmt.devState = 5 := by
  unfold State.abortJob
  dsimp only
  split
  · exact hs
  · refine State.deadLeft_fault (foldl_keeps (fun z : State => z.mgmt.devState = 5) _ _ _ ?_ fun t p ht => ?_) c
    · simp [State.setJob_frame, hs]
    · split <;> simp [State.askStop_frame, ht]

@[simp] theorem State.abortLoose_fault (f : Nat → Job → Bool) : (s.abortLoose f).mgmt.devState = 5 :=
  foldl_keeps (fun z : State => z.mgmt.devState = 5) _ _ _ hs fun t ⟨c, j⟩ ht => by
    dsimp only
    split
    · exact State.abortJob_fault ht ..
    · exact ht

@[simp] theorem State.abortAsked_fault (c : Nat) : (s.abortAsked c).mgmt.devState = 5 := by
  unfold State.abortAsked
  dsimp only
  (repeat' split) <;> simp [State.stopJob_frame, hs]

/-! ### A pillow fails out (R496) -/

@[simp] theorem State.moveJob_fault (c p q : Nat) : (s.moveJob c p q).mgmt.devState = 5 := by
  unfold State.moveJob
  dsimp only
  split
  · exact hs
  · refine foldl_keeps (fun z : State => z.mgmt.devState = 5) _ _ _ ?_ fun t k ht => ?_
    · simp [State.setJob_frame, State.modPillow_frame, hs]
    · simp [State.makeReady_frame, ht]

@[simp] theorem State.displace_fault (p : Nat) (slots : List Nat) :
    (s.displace p slots).2.2.2.mgmt.devState = 5 := by
  unfold State.displace
  refine foldl_keeps (fun z : Nat × Nat × List Nat × State => z.2.2.2.mgmt.devState = 5) _ _ _ hs ?_
  rintro ⟨m, n, ps, t⟩ ⟨c, j⟩ ht
  dsimp only at ht ⊢
  (repeat' split) <;> simp only [State.offlineJob_frame, State.moveJob_fault, ht]

@[simp] theorem State.failOut_fault (p cause : Nat) : (s.failOut p cause).2.mgmt.devState = 5 := by
  unfold State.failOut
  split
  · exact hs
  · dsimp only
    have hmoved := State.displace_fault (State.abortLoose_fault (s := s.faultOn p) hs
      fun _ j => j.stages.any fun x => x.2.pillow == p) p []
    refine iteInduction (motive := fun z : State => z.mgmt.devState = 5) (fun _ => State.enterFatal_fault ?_ _ _)
      fun _ => ?_
    all_goals
      refine foldl_keeps (fun z : State => z.mgmt.devState = 5) _ _ _ ?_ fun t x ht => State.deadLeft_fault ht _
      simp [State.covered, State.draw_frame, State.reportOut_frame, State.report_frame, State.modPillow_frame,
        State.loseDomain_frame, hmoved]

@[simp] theorem State.saveArea_fault (p addr slot : Nat) : (s.saveArea p addr slot).2.mgmt.devState = 5 :=
  State.failOut_fault (by simp [State.report_frame, hs]) p 1

/-! ### Reads of the units, and the sequencers' moves (R39, R41, R246) -/

@[simp] theorem State.poisonedUnit_fault (w : Work) (act : Bool) (u : Nat) :
    (s.poisonedUnit w act u).mgmt.devState = 5 := by
  unfold State.poisonedUnit
  dsimp only
  split <;> simp [State.faultOn, State.covered, State.report_frame, State.withdrawCtx_frame, State.modJob_frame,
    State.draw_frame, hs]

end

/-- The state that an access leaves, if it ends, is in the fault state. -/
def Access.InFault : Access → Prop
  | .ok _ s => s.mgmt.devState = 5
  | .fault _ s => s.mgmt.devState = 5
  | .wait _ _ _ => True

section
variable {s : State} (hs : s.mgmt.devState = 5)
include hs

theorem State.readPhys_inFault (w : Work) (unit : Nat) (win : Bool) (va pa n : Nat) :
    (s.readPhys w unit win va pa n).InFault := by
  have hmet : (s.meetErrs pa n).mgmt.devState = 5 := by simp [State.meetErrs_frame, hs]
  unfold State.readPhys
  dsimp only
  split
  · exact hmet
  · split
    · exact hmet
    · exact foldl_keeps (fun z : State => z.mgmt.devState = 5) _ _ _ hmet fun t u ht =>
        State.poisonedUnit_fault ht w _ u

theorem readPieces_inFault (w : Work) (unit : Nat) (win : Bool) (l : List (Nat × Nat)) :
    (readPieces w unit win l s).InFault := by
  induction l generalizing s with
  | nil => exact hs
  | cons x r ih =>
    have hmapped : (s.translate w.p unit win false w.asid x.1).2.mgmt.devState = 5 := by
      simp [State.translate_frame, hs]
    unfold readPieces
    rcases htr : s.translate w.p unit win false w.asid x.1 with ⟨f | pa, t⟩ <;> rw [htr] at hmapped
    · exact hmapped
    · have hread := State.readPhys_inFault hmapped w unit win x.1 pa x.2
      dsimp only
      rcases hrd : t.readPhys w unit win x.1 pa x.2 with ⟨b, u⟩ | ⟨f, u⟩ | _ <;> rw [hrd] at hread
      · have hrest := ih hread
        dsimp only
        rcases hre : readPieces w unit win r u with ⟨c, v⟩ | ⟨f, v⟩ | _ <;> rw [hre] at hrest <;> exact hrest
      · exact hread
      · trivial

/-- An operation starts once its lengths are read. -/
theorem State.startOp_inFault (w : Work) (f : Work → State → State) (hf : ∀ w t, (f w t).mgmt = t.mgmt) :
    (s.startOp w f).InFault := by
  have hread : (s.readVa w 1 false w.op.ltab (4 * w.tableSpan)).InFault := readPieces_inFault hs w 1 false _
  unfold State.startOp
  rcases hrd : s.readVa w 1 false w.op.ltab (4 * w.tableSpan) with ⟨b, t⟩ | ⟨g, t⟩ | _ <;> rw [hrd] at hread
  · change (f _ _).mgmt.devState = 5
    rw [hf, (State.countStart_frame ..).2.2.2.2.2.2.2.2.2.2.2.2.1]
    exact hread
  · exact hread
  · trivial

@[simp] theorem State.unitFault_fault (p : Nat) (f : FaultRec) : (s.unitFault p f).mgmt.devState = 5 := by
  unfold State.unitFault
  dsimp only
  (repeat' split) <;> simp [State.askStop_frame, State.modJob_frame, State.modPillow_frame, State.modRun_frame,
    State.report_frame, hs]

@[simp] theorem State.stageEnd_fault (p : Nat) (r : Run) : (s.stageEnd p r).2.mgmt.devState = 5 := by
  unfold State.stageEnd
  dsimp only
  split
  · simp [State.modPillow_frame, hs]
  · rename_i j _
    have hnext (l : List Nat) : (l.foldl (fun s m => s.makeReady r.ctx m)
        ((s.setPillow p ((s.pillow p).without r.ctx (· == r.stage))).modJob r.ctx
          (Job.setPhase r.stage .done))).mgmt.devState = 5 :=
      foldl_keeps (fun z : State => z.mgmt.devState = 5) _ _ _
        (by simp [State.modJob_frame, State.setPillow_frame, hs]) fun t m ht => by simp [State.makeReady_frame, ht]
    (repeat' split) <;> simp [State.endTaint_frame, State.modJob_frame, State.setPillow_frame, hnext, hs]

/-- What an operation's start makes of the pillow, whose unit waits or meets a fault. -/
theorem State.startOp_moves_fault {w : Work} {f : Work → State → State} (hf : ∀ w t, (f w t).mgmt = t.mgmt) :
    (match s.startOp w f with
      | .ok _ s => ([w.p], s)
      | .fault f s => ([w.p], s.unitFault w.p f)
      | .wait n l d => ([], s.unitWait w.p 6 n l d)).2.mgmt.devState = 5 := by
  have hstart := State.startOp_inFault hs w f hf
  rcases hst : s.startOp w f with ⟨b, t⟩ | ⟨g, t⟩ | _ <;> rw [hst] at hstart
  · exact hstart
  · exact State.unitFault_fault hstart w.p g
  · simp [State.unitWait_frame, hs]

@[simp] theorem State.startNext_fault (w : Work) : (s.startNext w).2.mgmt.devState = 5 := by
  unfold State.startNext
  dsimp only
  split
  · split <;> simp [hs]
  · split
    · exact State.startOp_moves_fault hs fun w t => by simp [State.enterLoop_frame]
    · split
      · split
        · exact hs
        · exact State.startOp_moves_fault hs fun w t => by simp [State.enterDma_frame]
      · simp [State.setRun_frame, hs]

@[simp] theorem State.startRun_fault (p c k : Nat) : (s.startRun p c k).2.mgmt.devState = 5 := by
  unfold State.startRun
  dsimp only
  (repeat' split) <;> simp [State.placeRun_frame, State.setJob_frame, State.unpoison_frame, State.meetErrs_frame,
    State.idleAdopt_frame, hs]

@[simp] theorem State.resume_fault (p : Nat) (r : Run) : (s.resume p r).2.mgmt.devState = 5 := by
  unfold State.resume
  split <;> simp [State.placeRun_frame, State.modPillow_frame, hs]

@[simp] theorem State.pick_fault (p : Nat) : (s.pick p).2.mgmt.devState = 5 := by
  unfold State.pick
  dsimp only
  (repeat' split) <;> simp [State.setPillow_frame, hs]

@[simp] theorem State.parked_fault (w : Work) : (s.parked w).2.mgmt.devState = 5 := by
  unfold State.parked State.condState
  dsimp only
  (repeat' split) <;> simp [State.draw_frame, hs]

@[simp] theorem State.startSave_fault (w : Work) (b : Bool) : (s.startSave w b).mgmt.devState = 5 := by
  simp [State.startSave, State.modJob_frame, State.setPillow_frame, hs]

@[simp] theorem State.putAside_fault (w : Work) : (s.putAside w).mgmt.devState = 5 := by
  unfold State.putAside
  dsimp only
  split <;> simp [State.modPillow_frame, hs]

@[simp] theorem State.swapBanks_fault (w : Work) (q : Run) : (s.swapBanks w q).2.mgmt.devState = 5 := by
  simp [State.swapBanks, State.modPillow_frame, hs]

@[simp] theorem State.preempted_fault (w : Work) : (s.preempted w).2.mgmt.devState = 5 := by
  unfold State.preempted
  (repeat' split) <;> simp [State.countPreempt_frame, State.modRun_frame, hs]

@[simp] theorem State.leaveRun_fault (w : Work) : (s.leaveRun w).2.mgmt.devState = 5 := by
  unfold State.leaveRun
  dsimp only
  (repeat' split) <;> simp [State.modPillow_frame, State.setPillow_frame, hs]

/-- One move of a sequencer. -/
@[simp] theorem State.advanceRun_fault (p : Nat) : (s.advanceRun p).2.mgmt.devState = 5 := by
  unfold State.advanceRun
  (repeat' split) <;> simp [State.modPillow_frame, State.noteWait_frame, State.askStop_frame, hs]

@[simp] theorem State.pump_fault (fuel : Nat) (ps : List Nat) : (s.pump fuel ps).mgmt.devState = 5 := by
  induction fuel generalizing ps s with
  | zero => exact hs
  | succ fuel ih =>
    cases ps with
    | nil => exact hs
    | cons p ps => exact ih (State.advanceRun_fault hs p) _

@[simp] theorem State.settlePillows_fault (ps : List Nat) : (s.settlePillows ps).mgmt.devState = 5 :=
  State.pump_fault hs _ ps

/-! ### Scrubbing, programming, paging and the queues -/

@[simp] theorem State.scrubFault_fault (mem : MemKind) (pillow addr : Nat) :
    (s.scrubFault mem pillow addr).mgmt.devState = 5 := by
  unfold State.scrubFault
  dsimp only
  (repeat' split) <;> simp [State.report_frame, State.countEcc_frame, State.poisonStaging_frame,
    State.poisonBank_frame, State.markPoison_frame, hs]

@[simp] theorem State.scrubRead_fault (mem : MemKind) (pillow addr : Nat) (ecc : Ecc) :
    (s.scrubRead mem pillow addr ecc).mgmt.devState = 5 := by
  unfold State.scrubRead
  dsimp only
  (repeat' split) <;> simp [State.countEcc_frame, State.countDie_frame, State.dropErrs_frame, hs]

@[simp] theorem State.checkSound_fault (p : Nat) : (s.checkSound p).mgmt.devState = 5 := by
  unfold State.checkSound
  split <;> simp [hs]

@[simp] theorem State.progEnd_fault (p : Nat) (q : ProgReq) (vfail iters : Nat) :
    (s.progEnd p q vfail iters).mgmt.devState = 5 := by
  unfold State.progEnd
  dsimp only
  (repeat' split) <;> simp [State.progBad_frame, State.progUnread_frame, State.progGood_frame, State.someRow_frame,
    State.meetShard_frame, State.markStale_frame, hs]

@[simp] theorem State.mapPageEffect_fault (q : MapPending) : (s.mapPageEffect q).mgmt.devState = 5 := by
  unfold State.mapPageEffect State.resumeAll
  dsimp only
  split <;> simp [State.putEntries_frame, State.dropCached_frame, State.resumeLegal_frame, hs]

/-- A new stitch is stamped; in the fault state nothing comes of it (R28, R488). -/
@[simp] theorem State.newStitch_fault : s.newStitch.mgmt.devState = 5 := by
  simp [State.newStitch, State.alive, State.stamp_frame, hs]

@[simp] theorem State.countForward_fault : s.countForward.mgmt.devState = 5 := by
  unfold State.countForward
  dsimp only
  (repeat' split) <;> simp [hs]

@[simp] theorem State.flushAnswers_fault (n : Nat) (l : List Hdr) : (s.flushAnswers n l).mgmt.devState = 5 := by
  induction l generalizing s with
  | nil => exact hs
  | cons h l ih => exact ih (State.done_fault hs ..)

@[simp] theorem State.flushQueue_fault (q : Nat) : (s.flushQueue q).mgmt.devState = 5 := by
  unfold State.flushQueue
  refine State.flushAnswers_fault ?_ ..
  (repeat' split) <;> simp [State.putQueue_frame, State.rearmAll_frame, State.grantLatches_frame,
    State.grantMailbox_frame, State.grantAll_frame, State.grantNotes_frame, hs]

@[simp] theorem State.packetLost_fault (q : Nat) (p : QPacket) : (s.packetLost q p).mgmt.devState = 5 := by
  unfold State.packetLost
  dsimp only
  split <;> simp [State.report_frame, State.modQueue_frame, hs]

@[simp] theorem State.afterLoss_fault (q : Nat) (p : Option QPacket) : (s.afterLoss q p).mgmt.devState = 5 := by
  cases p <;> simp [State.afterLoss, hs]

@[simp] theorem State.takePacket_fault (q : Nat) (ecc : WordEcc) : (s.takePacket q ecc).2.2.mgmt.devState = 5 := by
  unfold State.takePacket
  dsimp only
  (repeat' split) <;> simp [State.takeClean_frame, State.putQueue_frame, State.wordsCorrected_frame, hs]

@[simp] theorem State.errPop_fault (ecc : WordEcc) : (s.errPop ecc).mgmt.devState = 5 := by
  have htaken := State.takePacket_fault hs 2 ecc
  unfold State.errPop
  rcases htk : s.takePacket 2 ecc with ⟨lost, e, t⟩
  rw [htk] at htaken
  cases e with
  | none => exact State.afterLoss_fault htaken 2 lost
  | some p => exact State.afterLoss_fault (by simpa [State.rearm_frame] using htaken) 2 lost

@[simp] theorem State.windowRead_fault (n : Nat) (ecc : WordEcc) : (s.windowRead n ecc).mgmt.devState = 5 := by
  unfold State.windowRead
  dsimp only
  (repeat' split) <;> simp [State.windowClean_frame, State.putQueue_frame, State.wordsCorrected_frame, hs]

/-! ### Registers -/

@[simp] theorem State.regClear_fault (b o : Nat) : (s.regClear b o).mgmt.devState = 5 := by
  unfold State.regClear
  split
  case h_7 => unfold State.sqClear; dsimp only; (repeat' split) <;> simp [State.modQueue_frame, hs]
  case h_9 => cases blockPillow b <;> simp [State.pilClear_frame, hs]
  all_goals simp [State.tbClear_frame, State.pkClear_frame, State.hcClear_frame, State.trimClear_frame,
    State.netClear_frame, State.memClearReg_frame, State.secClear_frame, hs]

@[simp] theorem State.regPut_fault (b o v : Nat) : (s.regPut b o v).mgmt.devState = 5 := by
  unfold State.regPut
  split
  case h_7 => unfold State.sqPut; dsimp only; (repeat' split) <;> simp [State.modQueue_frame, hs]
  case h_9 => cases blockPillow b <;> simp [State.pilPut_frame, hs]
  all_goals simp [State.tbPut_frame, State.pkPut_frame, State.hcPut_frame, State.trimPut_frame,
    State.netPut_frame, State.memPut_frame, State.secPut_frame, hs]

@[simp] theorem State.readRegs_fault (b o n : Nat) : (s.readRegs b o n).2.mgmt.devState = 5 := by
  induction n generalizing o s with
  | zero => exact hs
  | succ n ih => exact ih (State.regClear_fault hs b o) (o + 4)

@[simp] theorem State.writeRegs_fault (b o : Nat) (l : List (BitVec 32)) : (s.writeRegs b o l).mgmt.devState = 5 := by
  induction l generalizing o s with
  | nil => exact hs
  | cons v l ih => exact ih (State.regPut_fault hs b o v.toNat) (o + 4)

end

/-! ## Every command and event -/

/-- An outcome is a next state, which is in the fault state or in reset if s was in the fault state. -/
def StaysFaulted (s : State) (o : Out) : Prop :=
  s.mgmt.devState = 5 → ∃ t, o = .next t ∧ (t.mgmt.devState = 5 ∨ t.mgmt.reset.isSome = true)

@[simp] theorem State.setStream_mgmt (k : Nat) (x : Stream) (s : State) : (s.setStream k x).mgmt = s.mgmt := rfl

theorem StaysFaulted.of_next {s t : State} (h : s.mgmt.devState = 5 → t.mgmt.devState = 5) :
    StaysFaulted s (.next t) := fun hs => ⟨t, rfl, .inl (h hs)⟩

/-- A meaning whose law says that it leaves the management block alone. -/
theorem StaysFaulted.of_mgmt {s : State} {o : Out} {more : State → Prop} (h : ∃ t, o = .next t ∧ more t)
    (hm : ∀ t, more t → t.mgmt = s.mgmt := by simp +contextual) : StaysFaulted s o := fun hs => by
  obtain ⟨t, hnext, hmore⟩ := h
  exact ⟨t, hnext, .inl (by rw [hm t hmore]; exact hs)⟩

/-- The opcodes that the fault state may accept (R417, R488). -/
def faultOps : List Nat :=
  [Op.devInfo, Op.devReset, Op.regRead, Op.regWrite, Op.trimRead, Op.queueFlush, Op.queueDrop, Op.attest]

theorem State.accepts_fault {op : Nat} {sec : Bool} {s : State} (hs : s.mgmt.devState = 5)
    (hop : faultOps.contains op = false) : s.accepts op sec = false := by
  simp only [faultOps, List.contains_cons, List.contains_nil, Bool.or_eq_false_iff] at hop
  simp [State.accepts, hs, hop]

theorem StaysFaulted.of_effect {h : Hdr} {op form : Nat} {sec : Bool} {params : Option Reject}
    {own : State → Option Reject} {eff : State → State} {s : State}
    (heff : ∀ t, t.mgmt.devState = 5 → (eff t).mgmt.devState = 5) :
    StaysFaulted s (hostCommand h op form sec params own eff s) := fun hs => by
  have hnow : (s.advance h.t).mgmt.devState = 5 := hs
  unfold hostCommand
  dsimp only
  split
  · exact ⟨_, rfl, .inl (State.refuse_fault hnow ..)⟩
  · exact ⟨_, rfl, .inl (heff _ hnow)⟩

/-- A host command that the fault state does not accept is refused (R404, R417). -/
theorem StaysFaulted.of_unaccepted {h : Hdr} {op form : Nat} {sec : Bool} {params : Option Reject}
    {own : State → Option Reject} {eff : State → State} {s : State} (hop : faultOps.contains op = false) :
    StaysFaulted s (hostCommand h op form sec params own eff s) := fun hs =>
  ⟨_, hostCommand_unaccepted (State.accepts_fault hs hop), .inl (State.refuse_fault (s := s.advance h.t) hs ..)⟩

@[simp] theorem State.alive_fault {s : State} (hs : s.mgmt.devState = 5) : s.alive = false := by
  simp [State.alive, hs]

@[simp] theorem State.pillowAlive_fault {s : State} (hs : s.mgmt.devState = 5) (p : Nat) :
    s.pillowAlive p = false := by simp [State.pillowAlive, hs]

/-! ### Resets, the dispatcher and the thermal monitor -/

/-- A reset that comes about leaves the device in reset; one that does not leaves the state. -/
theorem StaysFaulted.ite_intoReset (c : Prop) [Decidable c] (src : ResetSource) (n : Nat) (s : State) :
    StaysFaulted s (.next (if c then (s.advance n).intoReset src else s.advance n)) := fun hs =>
  ⟨_, rfl, iteInduction (motive := fun t : State => t.mgmt.devState = 5 ∨ t.mgmt.reset.isSome = true)
    (fun _ => .inr rfl) fun _ => .inl hs⟩

theorem execDevReset_staysFaulted (h : Hdr) (confirm : BitVec 32) (s : State) :
    StaysFaulted s (execDevReset h confirm s) := by
  intro hs
  unfold execDevReset hostCommand
  dsimp only
  split
  · exact ⟨_, rfl, .inl (State.refuse_fault (s := s.advance h.t) hs ..)⟩
  · exact ⟨_, rfl, .inr rfl⟩

theorem execThermalTrip_staysFaulted (n : Nat) (s : State) : StaysFaulted s (execThermalTrip n s) := by
  unfold execThermalTrip
  dsimp only
  split
  · exact .of_next id
  · exact .ite_intoReset _ _ n s

theorem execNrstFall_staysFaulted (n : Nat) (s : State) : StaysFaulted s (execNrstFall n s) := .ite_intoReset _ _ n s

theorem execWatchdog_staysFaulted (n : Nat) (s : State) : StaysFaulted s (execWatchdog n s) := .ite_intoReset _ _ n s

section
variable {s : State} (hs : s.mgmt.devState = 5)
include hs

theorem queueDropDo_fault (h : Hdr) (q : Nat) (write : Bool) (w : Nat) :
    (queueDropDo h q write w s).mgmt.devState = 5 := by
  cases write <;> simp [queueDropDo, State.dropWrite_frame, State.dropRead_frame, hs]

theorem State.handFast_fault (c : CmdPacket) : (s.handFast c).mgmt.devState = 5 := by
  unfold State.handFast
  dsimp only
  split <;> simp [State.present_frame, hs]

theorem State.handCore_fault (k : Nat) (c : CmdPacket) : (s.handCore k c).mgmt.devState = 5 := by
  unfold State.handCore
  split <;> simp [State.present_frame, hs]

theorem State.handOn_fault (c : CmdPacket) : (s.handOn c).mgmt.devState = 5 := by
  unfold State.handOn
  (repeat' split) <;> simp [State.handFast_fault, State.handCore_fault, hs]

theorem State.readClean_fault : s.readClean.mgmt.devState = 5 := by
  unfold State.readClean
  split
  · exact hs
  · exact State.handOn_fault (by simp [State.takeClean_frame, hs]) _

theorem State.readCommand_fault (ecc : WordEcc) : (s.readCommand ecc).mgmt.devState = 5 := by
  unfold State.readCommand
  dsimp only
  (repeat' split) <;>
    simp [State.readClean_fault, State.modQueue_frame, State.putQueue_frame, State.wordsCorrected_frame, hs]

theorem State.dispatchHeld_fault (c : CmdPacket) (rest : List CmdPacket) (ecc : WordEcc) :
    (s.dispatchHeld c rest ecc).mgmt.devState = 5 := by
  unfold State.dispatchHeld
  dsimp only
  (repeat' split) <;> simp [State.handFast_fault, State.handCore_fault, State.readCommand_fault, hs]

end

theorem execDispatch_staysFaulted (n : Nat) (ecc : WordEcc) (s : State) : StaysFaulted s (execDispatch n ecc s) := by
  unfold execDispatch
  dsimp only
  split
  · exact .of_next id
  · split
    · exact .of_next fun hs => State.dispatchHeld_fault (s := s.advance n) hs _ _ ecc
    · exact .of_next fun hs => State.readCommand_fault (s := s.advance n) hs ecc

/-- A step up may settle the pillows (R526); the device state is no part of it. -/
theorem execThermalReading_staysFaulted (n : Nat) (die hbm : List Int) (s : State) :
    StaysFaulted s (execThermalReading n die hbm s) := by
  unfold execThermalReading
  dsimp only
  split
  · exact .of_next id
  · refine .of_next fun hs => ?_
    (repeat' split) <;> simp [State.report_frame, State.scrubTime_frame, State.stepTime_frame, hs]

theorem execThrottleStepFall_staysFaulted (n : Nat) (s : State) :
    StaysFaulted s (execThrottleStepFall n s) := by
  unfold execThrottleStepFall
  dsimp only
  split
  · exact .of_next id
  · split
    · refine .of_next fun hs => ?_
      split <;> simp [State.scrubTime_frame, State.stepTime_frame, hs]
    · exact .of_next id

/-- What has struck the units in a burst stands; the burst itself needs the pillow alive. -/
theorem execDmaBurstComplete_staysFaulted (n p : Nat) (b : BurstIn) (s : State) :
    StaysFaulted s (execDmaBurstComplete n p b s) := by
  unfold execDmaBurstComplete
  refine .of_next fun hs => ?_
  have hstruck : (b.struck.foldl (fun s x => s.strike x) (s.advance n)).mgmt.devState = 5 :=
    foldl_keeps (fun z : State => z.mgmt.devState = 5) _ _ _ hs fun t x ht => by simp [State.strike_frame, ht]
  dsimp only
  (repeat' split) <;> simp_all

theorem execStreamCloseEffect_staysFaulted (n q : Nat) (s : State) :
    StaysFaulted s (execStreamCloseEffect n q s) := by
  unfold execStreamCloseEffect
  refine .of_next fun hs => ?_
  dsimp only
  split
  · split
    · refine State.done_fault ?_ ..
      rw [State.setStream_mgmt, State.foldl_mgmt _ _ _ fun t p => by simp only [State.modPort_frame]]
      exact hs
    · exact hs
  · exact hs

/-! ### The forms -/

/-- Every form leaves a device in the fault state there, or in reset. -/
theorem exec_staysFaulted (c : Instr) (s : State) : StaysFaulted s (exec c s) := by
  cases c with
  | devInfo => rw [exec_devInfo, execDevInfo]; exact .of_effect fun t ht => by simp [ht]
  | devReset => exact execDevReset_staysFaulted _ _ s
  | regRead => rw [exec_regRead, execRegRead]; exact .of_effect fun t ht => by simp [ht]
  | regWrite =>
    rw [exec_regWrite, execRegWrite]
    exact .of_effect fun t ht => by split <;> simp [State.armAfter_frame, State.disarm_frame, ht]
  | hcDataRead =>
    rw [exec_hcDataRead, execHcDataRead]
    exact .of_effect fun t ht => by simp [State.readHcData_frame, ht]
  | tbWpLoRead =>
    rw [exec_tbWpLoRead, execTbWpLoRead]
    exact .of_effect fun t ht => by simp [State.tbClear_frame, ht]
  | pkPick0Read =>
    rw [exec_pkPick0Read, execPkPick0Read]
    exact .of_effect fun t ht => by simp [State.pkClear_frame, ht]
  | qcCommit =>
    rw [exec_qcCommit, execQcCommit]
    exact .of_effect fun t ht => by simp [State.qcCommit_frame, State.disarm_frame, ht]
  | wrReq =>
    rw [exec_wrReq, execWrReq]
    exact .of_effect fun t ht => by simp [State.hostRefresh_frame, State.disarm_frame, ht]
  | shqErrPop =>
    rw [exec_shqErrPop, execShqErrPop]
    exact .of_effect fun t ht => by simp [State.disarm_frame, ht]
  | pwrReq =>
    rw [exec_pwrReq, execPwrReq]
    exact .of_effect fun t ht => by simp [State.powerRequest_frame, State.disarm_frame, ht]
  | frCtrlEnter =>
    rw [exec_frCtrlEnter, execFrCtrlEnter]
    exact .of_effect fun t ht => by simp [State.disarm_frame, ht]
  | frCtrlLeave =>
    rw [exec_frCtrlLeave, execFrCtrlLeave]
    exact .of_effect fun t ht => by simp [State.disarm_frame, ht]
  | secArm => rw [exec_secArm, execSecArm]; exact .of_effect fun t ht => by simp [State.arm_frame, ht]
  | secOpSeal =>
    rw [exec_secOpSeal, execSecOpSeal]
    exact .of_effect fun t ht => by simp [State.sealOff_frame, State.disarm_frame, ht]
  | secOpRevoke =>
    rw [exec_secOpRevoke, execSecOpRevoke]
    exact .of_effect fun t ht => by simp [State.revoke_frame, State.disarm_frame, ht]
  | calRun => rw [exec_calRun, execCalRun]; exact .of_unaccepted rfl
  | calRunEnd => rw [exec_calRunEnd, execCalRunEnd]; exact .of_next fun hs => by split <;> simp [hs]
  | trimRead => rw [exec_trimRead, execTrimRead]; exact .of_effect fun t ht => by simp [trimReadDo, ht]
  | trimSnapshotReady => exact .of_mgmt (execTrimSnapshotReady_next ..)
  | trimWrite => rw [exec_trimWrite, execTrimWrite]; exact .of_unaccepted rfl
  | trimWriteCheck =>
    rw [exec_trimWriteCheck, execTrimWriteCheck]
    exact .of_next fun hs => by split <;> simp [hs]
  | mapCreate => rw [exec_mapCreate, execMapCreate]; exact .of_unaccepted rfl
  | mapPage => rw [exec_mapPage, execMapPage]; exact .of_unaccepted rfl
  | mapPageDrainEnd =>
    rw [exec_mapPageDrainEnd, execMapPageDrainEnd]
    exact .of_next fun hs => by split <;> simp [hs]
  | mapPin => rw [exec_mapPin, execMapPin]; exact .of_unaccepted rfl
  | marchRun => rw [exec_marchRun, execMarchRun]; exact .of_unaccepted rfl
  | marchRunEnd => rw [exec_marchRunEnd, execMarchRunEnd]; exact .of_next fun hs => by split <;> simp [hs]
  | shardBeginManifest => rw [exec_shardBeginManifest, execShardBeginManifest]; exact .of_unaccepted rfl
  | shardBeginShard => rw [exec_shardBeginShard, execShardBeginShard]; exact .of_unaccepted rfl
  | shardBeginDiscard => rw [exec_shardBeginDiscard, execShardBeginDiscard]; exact .of_unaccepted rfl
  | shardEnd => rw [exec_shardEnd, execShardEnd]; exact .of_unaccepted rfl
  | shardTimeout => exact .of_mgmt (execShardTimeout_next ..)
  | bundleCheckEnd => exact .of_mgmt (execBundleCheckEnd_next ..)
  | redigestPass => exact .of_mgmt (execRedigestPass_next ..)
  | slotProgram => rw [exec_slotProgram, execSlotProgram]; exact .of_unaccepted rfl
  | slotProgramEnd => exact .of_mgmt (execSlotProgramEnd_next ..)
  | slotActivate => rw [exec_slotActivate, execSlotActivate]; exact .of_unaccepted rfl
  | slotDrainEnd => exact .of_mgmt (execSlotDrainEnd_next ..)
  | slotReprogramEnd => exact .of_mgmt (execSlotReprogramEnd_next ..)
  | slotRetire => rw [exec_slotRetire, execSlotRetire]; exact .of_unaccepted rfl
  | slotRetireEnd => exact .of_mgmt (execSlotRetireEnd_next ..)
  | prickLoadOpen => rw [exec_prickLoadOpen, execPrickLoadOpen]; exact .of_unaccepted rfl
  | prickLoadData => rw [exec_prickLoadData, execPrickLoadData]; exact .of_unaccepted rfl
  | prickLoadClose => rw [exec_prickLoadClose, execPrickLoadClose]; exact .of_unaccepted rfl
  | prickLoadDiscard => rw [exec_prickLoadDiscard, execPrickLoadDiscard]; exact .of_unaccepted rfl
  | jobAdmit => rw [exec_jobAdmit, execJobAdmit]; exact .of_unaccepted rfl
  | jobAdmitAccept =>
    rw [exec_jobAdmitAccept, execJobAdmitAccept]
    exact .of_next fun hs => by split <;> simp [hs]
  | jobSubmit => rw [exec_jobSubmit, execJobSubmit]; exact .of_unaccepted rfl
  | partialCapture => rw [exec_partialCapture, execPartialCapture]; exact .of_unaccepted rfl
  | jobAbortLoose => rw [exec_jobAbortLoose, execJobAbortLoose]; exact .of_unaccepted rfl
  | jobAbortTemplate => rw [exec_jobAbortTemplate, execJobAbortTemplate]; exact .of_unaccepted rfl
  | templateWithdrawn =>
    rw [exec_templateWithdrawn, execTemplateWithdrawn]
    exact .of_next fun hs => by split <;> simp [hs]
  | tbConfig => rw [exec_tbConfig, execTbConfig]; exact .of_unaccepted rfl
  | tbClaimClaim => rw [exec_tbClaimClaim, execTbClaimClaim]; exact .of_unaccepted rfl
  | tbClaimRelease => rw [exec_tbClaimRelease, execTbClaimRelease]; exact .of_unaccepted rfl
  | streamOpen => rw [exec_streamOpen, execStreamOpen]; exact .of_unaccepted rfl
  | streamClose => rw [exec_streamClose, execStreamClose]; exact .of_unaccepted rfl
  | streamCloseEffect => exact execStreamCloseEffect_staysFaulted _ _ s
  | portConfigLink => rw [exec_portConfigLink, execPortConfigLink]; exact .of_unaccepted rfl
  | portConfigService => rw [exec_portConfigService, execPortConfigService]; exact .of_unaccepted rfl
  | portConfigGates => rw [exec_portConfigGates, execPortConfigGates]; exact .of_unaccepted rfl
  | hcConfigEnable => rw [exec_hcConfigEnable, execHcConfigEnable]; exact .of_unaccepted rfl
  | hcConfigDisable => rw [exec_hcConfigDisable, execHcConfigDisable]; exact .of_unaccepted rfl
  | hcConfigMode => rw [exec_hcConfigMode, execHcConfigMode]; exact .of_unaccepted rfl
  | hcSelfcal => rw [exec_hcSelfcal, execHcSelfcal]; exact .of_unaccepted rfl
  | hcSelfcalEnd => exact .of_mgmt (execHcSelfcalEnd_next ..)
  | hcReadData => rw [exec_hcReadData, execHcReadData]; exact .of_unaccepted rfl
  | hcReadConvert => rw [exec_hcReadConvert, execHcReadConvert]; exact .of_unaccepted rfl
  | hcReadUrgent => rw [exec_hcReadUrgent, execHcReadUrgent]; exact .of_unaccepted rfl
  | pkConfigEnable => rw [exec_pkConfigEnable, execPkConfigEnable]; exact .of_unaccepted rfl
  | pkConfigDisable => rw [exec_pkConfigDisable, execPkConfigDisable]; exact .of_unaccepted rfl
  | queueFlush =>
    rw [exec_queueFlush, execQueueFlush]
    exact .of_effect fun t ht => by unfold queueFlushDo; dsimp only; split <;> simp [State.modQueue_frame, ht]
  | queueFlushEffect =>
    rw [exec_queueFlushEffect, execQueueFlushEffect]
    exact .of_next fun hs => by split <;> simp [hs]
  | queueDrop => rw [exec_queueDrop, execQueueDrop]; exact .of_effect fun t ht => queueDropDo_fault ht ..
  | fwUpdateOpen => rw [exec_fwUpdateOpen, execFwUpdateOpen]; exact .of_unaccepted rfl
  | fwUpdateClose => rw [exec_fwUpdateClose, execFwUpdateClose]; exact .of_unaccepted rfl
  | fwUpdateDiscard => rw [exec_fwUpdateDiscard, execFwUpdateDiscard]; exact .of_unaccepted rfl
  | flashWriteStageEnd => exact .of_mgmt (execFlashWriteStageEnd_next ..)
  | attestForm => rw [exec_attestForm, execAttestForm]; exact .of_effect fun t ht => by simp [attestFormDo, ht]
  | attestRead => rw [exec_attestRead, execAttestRead]; exact .of_effect fun t ht => by simp [ht]
  | dispatch => exact execDispatch_staysFaulted _ _ s
  | cmd0 => exact .of_mgmt (execCmd0_next ..)
  | cmd5 => exact .of_mgmt (execCmd5_next ..)
  | cmd11 => exact .of_mgmt (execCmd11_next ..)
  | cmd19 => exact .of_mgmt (execCmd19_next ..)
  | mailboxWrite => exact .of_mgmt (execMailboxWrite_next ..)
  | mailboxPacketEnter => exact .of_mgmt (execMailboxPacketEnter_next ..)
  | replyWindowRead =>
    rw [exec_replyWindowRead, execReplyWindowRead]
    exact .of_next fun hs => by (repeat' split) <;> simp [State.sdAnswer_frame, hs]
  | transportByteWrite => exact .of_mgmt (execTransportByteWrite_next ..)
  | f2BlockWrite => exact .of_mgmt (execF2BlockWrite_next ..)
  | f2BlockRead => exact .of_mgmt (execF2BlockRead_next ..)
  | ioAbort => exact .of_mgmt (execIoAbort_next ..)
  | ioReset => exact .of_mgmt (execIoReset_next ..)
  | packetEnter => exact .of_mgmt (execPacketEnter_next ..)
  | errorEntryEnter => exact .of_mgmt (execErrorEntryEnter_next ..)
  | hostNoteDrain => exact .of_mgmt (execHostNoteDrain_next ..)
  | recordMove => rw [exec_recordMove, execRecordMove]; exact .of_next fun hs => by simp [hs]
  | encoderCount =>
    rw [exec_encoderCount, execEncoderCount]
    exact .of_next fun hs => by (repeat' split) <;> simp [State.countReverse_frame, hs]
  | indexPulse => exact .of_mgmt (execIndexPulse_next ..)
  | threadTriggerEdge => exact .of_mgmt (execThreadTriggerEdge_next ..)
  | pulseEnd => exact .of_mgmt (execPulseEnd_next ..)
  | encoderLoss => exact .of_mgmt (execEncoderLoss_next ..)
  | encoderLossEnd => exact .of_mgmt (execEncoderLossEnd_next ..)
  | stall => exact .of_mgmt (execStall_next ..)
  | stageReady => rw [exec_stageReady, execStageReady]; exact .of_next fun hs => by split <;> simp [hs]
  | saveComplete => rw [exec_saveComplete, execSaveComplete]; exact .of_next fun hs => by split <;> simp [hs]
  | restoreComplete =>
    rw [exec_restoreComplete, execRestoreComplete]
    exact .of_next fun hs => by split <;> simp [hs]
  | tokenConditioned =>
    rw [exec_tokenConditioned, execTokenConditioned]
    exact .of_next fun hs => by (repeat' split) <;> simp_all
  | passComplete =>
    rw [exec_passComplete, execPassComplete]
    exact .of_next fun hs => by (repeat' split) <;> simp_all
  | epilogueWriteEnd =>
    rw [exec_epilogueWriteEnd, execEpilogueWriteEnd]
    exact .of_next fun hs => by (repeat' split) <;> simp_all
  | dmaBurstComplete => exact execDmaBurstComplete_staysFaulted _ _ _ s
  | translationWalkEnd =>
    rw [exec_translationWalkEnd, execTranslationWalkEnd]
    exact .of_next fun hs => by split <;> simp [hs]
  | tattingInstructionEnd =>
    rw [exec_tattingInstructionEnd, execTattingInstructionEnd]
    exact .of_next fun hs => by (repeat' split) <;> simp_all
  | setlen => rw [exec_setlen, execSetlen]; exact .of_next fun hs => by split <;> simp [hs]
  | fenceWaitEnd => rw [exec_fenceWaitEnd, execFenceWaitEnd]; exact .of_next fun hs => by split <;> simp [hs]
  | windowWaitEnd =>
    rw [exec_windowWaitEnd, execWindowWaitEnd]
    exact .of_next fun hs => by (repeat' split) <;> simp_all
  | recordCommit => rw [exec_recordCommit, execRecordCommit]; exact .of_next fun hs => by simp [hs]
  | faultWaitExpiry =>
    rw [exec_faultWaitExpiry, execFaultWaitExpiry]
    exact .of_next fun hs => by split <;> simp [hs]
  | streamFrame => exact .of_mgmt (execStreamFrame_next ..)
  | linkDown => exact .of_mgmt (execLinkDown_next ..)
  | linkUp => exact .of_mgmt (execLinkUp_next ..)
  | arpRequest => exact .of_mgmt (execArpRequest_next ..)
  | icmpEcho => exact .of_mgmt (execIcmpEcho_next ..)
  | rasterPacket => exact .of_mgmt (execRasterPacket_next ..)
  | ptpMessage => exact .of_mgmt (execPtpMessage_next ..)
  | delayReq => exact .of_mgmt (execDelayReq_next ..)
  | ptpSyncTimeout => exact .of_mgmt (execPtpSyncTimeout_next ..)
  | gateEntryChange => exact .of_mgmt (execGateEntryChange_next ..)
  | picotSlotEnd => exact .of_mgmt (execPicotSlotEnd_next ..)
  | throwBurstEnd =>
    rw [exec_throwBurstEnd, execThrowBurstEnd]
    exact .of_next fun hs => by (repeat' split) <;> simp_all
  | sequenceReady => exact .of_mgmt (execSequenceReady_next ..)
  | conversionEnd =>
    rw [exec_conversionEnd, execConversionEnd]
    exact .of_next fun hs => by
      (repeat' split) <;> simp [State.hcNext_frame, State.stepEnd_frame, State.landResult_frame,
        State.openWire_frame, hs]
  | calibrationPass =>
    rw [exec_calibrationPass, execCalibrationPass]
    exact .of_next fun hs => by simp [State.calServes, hs]
  | dwellEnd => exact .of_mgmt (execDwellEnd_next ..)
  | levelScanEnd => exact .of_mgmt (execLevelScanEnd_next ..)
  | sealEpoch =>
    rw [exec_sealEpoch, execSealEpoch]
    exact .of_next fun hs => by simp [State.sealDue, State.sealTime, hs]
  | ageRefreshRequest => exact .of_mgmt (execAgeRefreshRequest_next ..)
  | refreshStart => exact .of_mgmt (execRefreshStart_next ..)
  | bobbinProgrammingStart => exact .of_mgmt (execBobbinProgrammingStart_next ..)
  | bobbinProgrammingEnd =>
    rw [exec_bobbinProgrammingEnd, execBobbinProgrammingEnd]
    exact .of_next fun hs => by (repeat' split) <;> simp [State.modSlot_frame, State.setPillow_frame, hs]
  | sramScrub => rw [exec_sramScrub, execSramScrub]; exact .of_next fun hs => by split <;> simp [hs]
  | hbmScrub => rw [exec_hbmScrub, execHbmScrub]; exact .of_next fun hs => by split <;> simp [hs]
  | hbmLinkRetrain => rw [exec_hbmLinkRetrain, execHbmLinkRetrain]; exact .of_next fun hs => by simp [hs]
  | mgmtCoreFault => rw [exec_mgmtCoreFault, execMgmtCoreFault]; exact .of_next fun hs => by simp [hs]
  | domainSwitched => exact .of_mgmt (execDomainSwitched_next ..)
  | pwrgdFall => exact .of_mgmt (execPwrgdFall_next ..)
  | nrstFall => exact execNrstFall_staysFaulted _ s
  | nrstRise =>
    rw [exec_nrstRise, execNrstRise]
    exact .of_next fun hs => by split <;> simp [State.endReset, hs]
  | strapLatch => exact .of_mgmt (execStrapLatch_next ..)
  | watchdog => exact execWatchdog_staysFaulted _ s
  | internalResetEnd =>
    rw [exec_internalResetEnd, execInternalResetEnd]
    exact .of_next fun hs => by split <;> simp [State.endReset, hs]
  | thermalReading => exact execThermalReading_staysFaulted _ _ _ s
  | throttleStepFall => exact execThrottleStepFall_staysFaulted _ s
  | thermalTrip => exact execThermalTrip_staysFaulted _ s
  | thermalTripEnd =>
    rw [exec_thermalTripEnd, execThermalTripEnd]
    exact .of_next fun hs => by split <;> simp [State.endReset, hs]
  | pllLock => rw [exec_pllLock, execPllLock]; exact .of_next fun hs => by split <;> simp [hs]
  | firmwareLoadEnd => rw [exec_firmwareLoadEnd, execFirmwareLoadEnd]; exact .of_next fun hs => by simp [hs]
  | firmwareInitEnd => rw [exec_firmwareInitEnd, execFirmwareInitEnd]; exact .of_next fun hs => by simp [hs]
  | debugToken => exact .of_mgmt (execDebugToken_next ..)
  | tapInstruction => exact .of_mgmt (execTapInstruction_next ..)
  | ptpMasterLost => exact .of_mgmt (execPtpMasterLost_next ..)
  | frameTransmitEnd => exact .of_mgmt (execFrameTransmitEnd_next ..)
  | cmd3 => exact .of_mgmt (execCmd3_next ..)
  | cmd7 => exact .of_mgmt (execCmd7_next ..)
  | cmd15 => exact .of_mgmt (execCmd15_next ..)
  | cccrWrite => exact .of_mgmt (execCccrWrite_next ..)
  | transportByteRead => exact .of_mgmt (execTransportByteRead_next ..)
  | tapReset => exact .of_mgmt (execTapReset_next ..)

/-- Settles O6: every form keeps the fault state (`exec_staysFaulted`). -/
theorem onlyResetLeavesStateFive : Obligations.OnlyResetLeavesStateFive := by
  unfold Obligations.OnlyResetLeavesStateFive
  intro c s t hs hexec
  obtain ⟨u, hnext, hu⟩ := exec_staysFaulted c s hs
  rw [hexec] at hnext
  cases hnext
  exact hu

end Sys2Proof.Machine
end

section
/-! PROOF. O7: fuses burn and are never restored (R498, R503, R511). Every operation that writes the security block
keeps its fuses and its identity, and every form is one of these operations or leaves the block alone. -/

namespace Sys2Proof.Machine

/-! ## Fuses that stay -/

/-- The fuses and the identity of x stand in y: the floor is no lower, no revocation fuse is clear again. -/
def Security.FusesStay (x y : Security) : Prop :=
  x.floor ≤ y.floor ∧ x.revFw &&& y.revFw = x.revFw ∧ x.revBn &&& y.revBn = x.revBn
    ∧ y.device = x.device ∧ y.grade = x.grade ∧ y.step = x.step

/-- A security block with the same fuses and identity. -/
theorem Security.FusesStay.refl (x : Security) : x.FusesStay x :=
  ⟨le_rfl, BitVec.and_self, BitVec.and_self, rfl, rfl, rfl⟩

theorem Security.FusesStay.of_eq {x y : Security} (h : y = x) : x.FusesStay y := h ▸ .refl x

theorem BitVec.and_eq_left_trans {w : Nat} {a b c : BitVec w} (hab : a &&& b = a) (hbc : b &&& c = b) :
    a &&& c = a := by
  rw [← hab, BitVec.and_assoc, hbc]

theorem Security.FusesStay.trans {x y z : Security} (hxy : x.FusesStay y) (hyz : y.FusesStay z) : x.FusesStay z := by
  obtain ⟨hfloor, hfw, hbn, hdevice, hgrade, hstep⟩ := hxy
  obtain ⟨hfloor', hfw', hbn', hdevice', hgrade', hstep'⟩ := hyz
  exact ⟨hfloor.trans hfloor', BitVec.and_eq_left_trans hfw hfw', BitVec.and_eq_left_trans hbn hbn',
    hdevice'.trans hdevice, hgrade'.trans hgrade, hstep'.trans hstep⟩

/-- What an operation does to the fuses of t it does to those of s, if t has the security block of s. -/
theorem Security.FusesStay.of_sec {s t : State} {f : State → State} (hf : ∀ u : State, u.sec.FusesStay (f u).sec)
    (ht : t.sec = s.sec := by rfl) : s.sec.FusesStay (f t).sec := ht ▸ hf t

theorem BitVec.and_or_left_self {w : Nat} (a b : BitVec w) : a &&& (a ||| b) = a := by
  ext i hi
  simp
  tauto

/-! ## The operations that write the security block -/

theorem State.disarm_fuses (s : State) : s.sec.FusesStay s.disarm.sec := .refl _

theorem State.armAfter_fuses (o : Nat) (vals : List (BitVec 32)) (s : State) :
    s.sec.FusesStay (s.armAfter o vals).sec := by
  unfold State.armAfter
  split <;> exact .refl _

theorem State.sealOff_fuses (s : State) : s.sec.FusesStay s.sealOff.sec := by
  simp only [State.sealOff, State.security_frame]
  exact .refl _

/-- OP 2 burns the fuses of MASK beside those that are burned (R511). -/
theorem State.revoke_fuses (mask : BitVec 8) (s : State) : s.sec.FusesStay (s.revoke mask).sec := by
  simp only [State.revoke, State.burns_frame]
  exact ⟨le_rfl, BitVec.and_self, BitVec.and_or_left_self _ _, rfl, rfl, rfl⟩

theorem State.secOp_fuses (op : Nat) (mask : BitVec 8) (s : State) : s.sec.FusesStay (s.secOp op mask).sec := by
  unfold State.secOp
  split
  · exact State.sealOff_fuses s
  · split
    · exact State.revoke_fuses mask s
    · exact .refl _

/-- The burns of the first entry into state 2 raise the floor and add revocation fuses (R503). -/
theorem State.burnAtService_fuses (s : State) : s.sec.FusesStay s.burnAtService.sec := by
  unfold State.burnAtService
  split
  · simp only [State.burns_frame]
    exact ⟨le_max_left _ _, BitVec.and_or_left_self _ _, BitVec.and_or_left_self _ _, rfl, rfl, rfl⟩
  · exact .refl _

theorem State.afterTest_fuses (pass : Bool) (s : State) : s.sec.FusesStay (s.afterTest pass).sec := by
  unfold State.afterTest
  dsimp only
  split
  · exact .of_sec State.burnAtService_fuses
  · (repeat' split) <;> exact .refl _

theorem State.calEnd_fuses (h : Hdr) (res : CalResult) (d : DieValues) (s : State) :
    s.sec.FusesStay (s.calEnd h res d).2.sec := by
  unfold State.calEnd
  dsimp only
  rw [(State.hcNext_frame _).2.2.2.2.2.2.2.2.2.2.2.2.2.2.1]
  refine .trans (.of_eq ?_) (State.afterTest_fuses _ _)
  (repeat' split) <;> simp [State.reply_frame, State.calFailOuts_frame, State.calOver_frame, State.calPass_frame,
    State.calFail_frame]

theorem State.imageFailed_fuses (cause : Nat) (x : FwImage) (s : State) :
    s.sec.FusesStay (s.imageFailed cause x).sec := by
  simp only [State.imageFailed, State.security_frame]
  split <;> exact .refl _

theorem State.startFirmware_fuses (source : Nat) (x : FwImage) (s : State) :
    s.sec.FusesStay (s.startFirmware source x).sec := .refl _

theorem State.tryImage_fuses (source : Nat) (x : FlashImage) (s : State) :
    s.sec.FusesStay (s.tryImage source x).sec := by
  unfold State.tryImage
  dsimp only
  split
  · exact State.startFirmware_fuses ..
  · exact .of_sec (State.imageFailed_fuses _ _)

theorem State.bootFlash_fuses (f : FlashRead) (s : State) : s.sec.FusesStay (s.bootFlash f).sec := by
  unfold State.bootFlash
  dsimp only
  split
  · exact .refl _
  · have hprimary := State.tryImage_fuses 1 f.primary
      { s with power := { s.power with qspi4b := f.addr4, qspiWidth := f.width } }
    split
    · exact hprimary
    · exact hprimary.trans (State.tryImage_fuses ..)

theorem State.endXfer_fuses (s : State) : s.sec.FusesStay s.endXfer.sec := by
  unfold State.endXfer
  split
  · exact .refl _
  · dsimp only
    split
    · exact .of_eq (by simp only [State.reply_frame])
    · split <;> exact .refl _

theorem State.ioReset_fuses (s : State) : s.sec.FusesStay s.ioReset.sec := by
  simp only [State.ioReset, State.dropPartRead_frame]
  exact State.endXfer_fuses s

theorem State.cccrWrite_fuses (addr v : Nat) (s : State) : s.sec.FusesStay (s.cccrWrite addr v).sec := by
  by_cases habort : addr = 0x06
  · subst habort
    have hreg : s.cccrWrite 0x06 v = if bitOf 3 v then s.ioReset else s.ioAbort (v % 8) true := rfl
    rw [hreg]
    split
    · exact State.ioReset_fuses s
    · exact .of_eq (by simp only [State.ioAbort_frame])
  · refine .of_eq ?_
    simp only [State.cccrWrite, if_neg habort]
    split_ifs <;> rfl

/-! ## Registers -/

theorem State.secClear_fuses (o : Nat) (s : State) : s.sec.FusesStay (s.secClear o).sec := by
  unfold State.secClear
  split
  case h_3 => exact .of_eq (by simp only [State.stepTime_frame])
  case h_4 => split <;> exact .refl _
  all_goals exact .refl _

theorem State.regClear_fuses (b o : Nat) (s : State) : s.sec.FusesStay (s.regClear b o).sec := by
  unfold State.regClear
  split
  case h_8 => exact State.secClear_fuses o s
  case h_9 => exact .of_eq (by cases blockPillow b <;> simp [State.pilClear_frame])
  all_goals exact .of_eq (by simp only [State.tbClear_frame, State.pkClear_frame, State.hcClear_frame,
    State.trimClear_frame, State.netClear_frame, State.memClearReg_frame, State.sqClear_frame])

theorem State.secPut_fuses (o v : Nat) (s : State) : s.sec.FusesStay (s.secPut o v).sec := by
  unfold State.secPut
  dsimp only
  split
  case h_1 => exact State.secOp_fuses ..
  case h_4 => exact .of_eq (by simp only [State.pwrReqPut_frame])
  all_goals exact .refl _

theorem State.regPut_fuses (b o v : Nat) (s : State) : s.sec.FusesStay (s.regPut b o v).sec := by
  unfold State.regPut
  split
  case h_8 => exact State.secPut_fuses o v s
  case h_9 => exact .of_eq (by cases blockPillow b <;> simp [State.pilPut_frame])
  all_goals exact .of_eq (by simp only [State.tbPut_frame, State.pkPut_frame, State.hcPut_frame,
    State.trimPut_frame, State.netPut_frame, State.memPut_frame, State.sqPut_frame])

theorem State.readRegs_fuses (b o n : Nat) (s : State) : s.sec.FusesStay (s.readRegs b o n).2.sec := by
  induction n generalizing o s with
  | zero => exact .refl _
  | succ n ih => exact (State.regClear_fuses b o s).trans (ih (o + 4) _)

theorem State.writeRegs_fuses (b o : Nat) (l : List (BitVec 32)) (s : State) :
    s.sec.FusesStay (s.writeRegs b o l).sec := by
  induction l generalizing o s with
  | nil => exact .refl _
  | cons v l ih => exact (State.regPut_fuses b o v.toNat s).trans (ih (o + 4) _)

/-! ## Every command and event -/

/-- An outcome is a next state in which the fuses and the identity of s stand. -/
def KeepsFuses (s : State) (o : Out) : Prop := ∃ t, o = .next t ∧ s.sec.FusesStay t.sec

theorem KeepsFuses.of_next {s t : State} (h : s.sec.FusesStay t.sec) : KeepsFuses s (.next t) := ⟨t, rfl, h⟩

/-- A meaning whose law says that it leaves the security block alone. -/
theorem KeepsFuses.of_sec {s : State} {o : Out} {more : State → Prop} (h : ∃ t, o = .next t ∧ more t)
    (hm : ∀ t, more t → t.sec = s.sec := by simp +contextual) : KeepsFuses s o := by
  obtain ⟨t, hnext, hmore⟩ := h
  exact ⟨t, hnext, .of_eq (hm t hmore)⟩

theorem KeepsFuses.of_effect {h : Hdr} {op form : Nat} {sec : Bool} {params : Option Reject}
    {own : State → Option Reject} {eff : State → State} {s : State}
    (heff : ∀ t : State, t.sec.FusesStay (eff t).sec) :
    KeepsFuses s (hostCommand h op form sec params own eff s) := by
  unfold hostCommand
  dsimp only
  split
  · exact ⟨_, rfl, .of_eq (by simp only [State.refuse_frame, State.advance_frame])⟩
  · exact ⟨_, rfl, heff (s.advance h.t)⟩

/-- A host command whose effect g leaves the fuses, answered at once. -/
theorem KeepsFuses.of_done {h : Hdr} {op form : Nat} {sec : Bool} {params : Option Reject}
    {own : State → Option Reject} {g : State → State} {b : State → Bytes} {s : State}
    (hg : ∀ t : State, t.sec.FusesStay (g t).sec) :
    KeepsFuses s (hostCommand h op form sec params own (fun t => (g t).done h op form (b t)) s) :=
  .of_effect fun t => (hg t).trans (.of_eq (by simp only [State.done_frame]))

/-! ### Resets, the boot and the security commands -/

/-- A reset keeps the fuses and the identity (R476). -/
theorem KeepsFuses.ite_intoReset (c : Prop) [Decidable c] (src : ResetSource) (n : Nat) (s : State) :
    KeepsFuses s (.next (if c then (s.advance n).intoReset src else s.advance n)) :=
  .of_next (iteInduction (motive := fun t : State => s.sec.FusesStay t.sec) (fun _ => .refl s.sec) fun _ => .refl _)

theorem execNrstFall_keepsFuses (n : Nat) (s : State) : KeepsFuses s (execNrstFall n s) := .ite_intoReset _ _ n s

theorem execWatchdog_keepsFuses (n : Nat) (s : State) : KeepsFuses s (execWatchdog n s) := .ite_intoReset _ _ n s

theorem execThermalTrip_keepsFuses (n : Nat) (s : State) : KeepsFuses s (execThermalTrip n s) := by
  unfold execThermalTrip
  dsimp only
  split
  · exact .of_next (.refl _)
  · exact .ite_intoReset _ _ n s

theorem execFirmwareLoadEnd_keepsFuses (n : Nat) (f : FlashRead) (s : State) :
    KeepsFuses s (execFirmwareLoadEnd n f s) := by
  unfold execFirmwareLoadEnd
  refine .of_next ?_
  split
  · split
    · exact .of_sec (State.startFirmware_fuses _ _)
    · split
      · exact State.bootFlash_fuses f (s.advance n)
      · exact .refl _
  · exact .refl _

theorem execFlashWriteStageEnd_keepsFuses (n : Nat) (ok : Bool) (s : State) :
    KeepsFuses s (execFlashWriteStageEnd n ok s) := by
  unfold execFlashWriteStageEnd
  refine .of_next ?_
  dsimp only
  split
  · split
    · exact .refl _
    · simp only [State.security_frame]
      exact .refl _
  · exact .refl _

theorem execFwUpdateClose_keepsFuses (h : Hdr) (sigOk : Bool) (s : State) :
    KeepsFuses s (execFwUpdateClose h sigOk s) := by
  refine .of_effect fun t => ?_
  unfold fwUpdateCloseDo
  dsimp only
  split
  · simp only [State.refuse_frame, State.imageFailed, State.security_frame]
    split <;> exact .refl _
  · simp only [State.done_frame]
    exact .refl _

theorem execDebugToken_keepsFuses (n : Nat) (device : BitVec 64) (challenge : BitVec 256) (key : Nat) (sigOk : Bool)
    (s : State) : KeepsFuses s (execDebugToken n device challenge key sigOk s) := by
  unfold execDebugToken
  dsimp only
  split
  · exact .of_next (.refl _)
  · refine .of_next ?_
    split <;> simp only [State.security_frame] <;> exact .refl _

theorem execTapInstruction_keepsFuses (n : Nat) (i : TapIns) (s : State) :
    KeepsFuses s (execTapInstruction n i s) := by
  unfold execTapInstruction
  refine .of_next ?_
  dsimp only
  split <;> exact .refl _

theorem execIoReset_keepsFuses (n : Nat) (s : State) : KeepsFuses s (execIoReset n s) := by
  unfold execIoReset
  refine .of_next ?_
  split
  · exact State.ioReset_fuses (s.advance n)
  · exact .refl _

theorem execCccrWrite_keepsFuses (n addr : Nat) (v : Byte) (s : State) : KeepsFuses s (execCccrWrite n addr v s) := by
  unfold execCccrWrite
  refine .of_next ?_
  dsimp only
  split
  · exact .of_sec (State.cccrWrite_fuses _ _)
  · exact .refl _

theorem execCalRunEnd_keepsFuses (n : Nat) (res : CalResult) (s : State) : KeepsFuses s (execCalRunEnd n res s) := by
  unfold execCalRunEnd
  refine .of_next ?_
  dsimp only
  split
  · exact .refl _
  · next h _ =>
    split
    · exact .refl _
    · have hend := State.calEnd_fuses h res ((s.advance n).dieValues res) ((s.advance n).calTake res)
      rw [show ((s.advance n).calTake res).sec = s.sec by simp only [State.calTake_frame, State.advance_frame]] at hend
      simpa only [State.settlePillows_frame] using hend

/-! ### The forms -/

/-- Every form keeps the fuses and the identity: by its own rule, or as it leaves the security block alone. -/
theorem exec_keepsFuses (c : Instr) (s : State) : KeepsFuses s (exec c s) := by
  cases c with
  | devInfo => exact .of_sec (execDevInfo_next ..)
  | devReset => rw [exec_devReset, execDevReset]; exact .of_effect fun t => .refl _
  | regRead =>
    rw [exec_regRead, execRegRead]
    exact .of_effect fun t => by simpa only [State.done_frame] using State.readRegs_fuses ..
  | regWrite =>
    rw [exec_regWrite, execRegWrite]
    exact .of_effect fun t => by
      simp only [State.done_frame]
      refine .trans ?_ (State.writeRegs_fuses ..)
      split
      · exact State.armAfter_fuses ..
      · exact State.disarm_fuses t
  | hcDataRead => exact .of_sec (execHcDataRead_next ..)
  | tbWpLoRead => exact .of_sec (execTbWpLoRead_next ..)
  | pkPick0Read => exact .of_sec (execPkPick0Read_next ..)
  | qcCommit =>
    rw [exec_qcCommit, execQcCommit]
    exact .of_done fun t => (State.disarm_fuses t).trans (.of_eq (by simp only [State.qcCommit_frame]))
  | wrReq =>
    rw [exec_wrReq, execWrReq]
    exact .of_done fun t => (State.disarm_fuses t).trans (.of_eq (by simp only [State.hostRefresh_frame]))
  | shqErrPop =>
    rw [exec_shqErrPop, execShqErrPop]
    exact .of_done fun t => (State.disarm_fuses t).trans (.of_eq (by simp only [State.errPop_frame]))
  | pwrReq =>
    rw [exec_pwrReq, execPwrReq]
    exact .of_done fun t => (State.disarm_fuses t).trans (.of_eq (by simp only [State.powerRequest_frame]))
  | frCtrlEnter =>
    rw [exec_frCtrlEnter, execFrCtrlEnter]
    exact .of_done fun t => (State.disarm_fuses t).trans (.of_eq (by simp only [State.enterRecovery_frame]))
  | frCtrlLeave =>
    rw [exec_frCtrlLeave, execFrCtrlLeave]
    exact .of_done fun t => (State.disarm_fuses t).trans (.of_eq (by simp only [State.leaveRecovery_frame]))
  | secArm => rw [exec_secArm, execSecArm]; exact .of_done fun t => .refl _
  | secOpSeal =>
    rw [exec_secOpSeal, execSecOpSeal]
    exact .of_done fun t => (State.disarm_fuses t).trans (State.sealOff_fuses _)
  | secOpRevoke =>
    rw [exec_secOpRevoke, execSecOpRevoke]
    exact .of_done fun t => (State.disarm_fuses t).trans (State.revoke_fuses ..)
  | calRun => exact .of_sec (execCalRun_next ..)
  | calRunEnd => exact execCalRunEnd_keepsFuses _ _ s
  | trimRead => exact .of_sec (execTrimRead_next ..)
  | trimSnapshotReady => exact .of_sec (execTrimSnapshotReady_next ..)
  | trimWrite => exact .of_sec (execTrimWrite_next ..)
  | trimWriteCheck => exact .of_sec (execTrimWriteCheck_next ..)
  | mapCreate => exact .of_sec (execMapCreate_next ..)
  | mapPage => exact .of_sec (execMapPage_next ..)
  | mapPageDrainEnd => exact .of_sec (execMapPageDrainEnd_next ..)
  | mapPin => exact .of_sec (execMapPin_next ..)
  | marchRun => exact .of_sec (execMarchRun_next ..)
  | marchRunEnd => exact .of_sec (execMarchRunEnd_next ..)
  | shardBeginManifest => exact .of_sec (execShardBeginManifest_next ..)
  | shardBeginShard => exact .of_sec (execShardBeginShard_next ..)
  | shardBeginDiscard => exact .of_sec (execShardBeginDiscard_next ..)
  | shardEnd => exact .of_sec (execShardEnd_next ..)
  | shardTimeout => exact .of_sec (execShardTimeout_next ..)
  | bundleCheckEnd => exact .of_sec (execBundleCheckEnd_next ..)
  | redigestPass => exact .of_sec (execRedigestPass_next ..)
  | slotProgram => exact .of_sec (execSlotProgram_next ..)
  | slotProgramEnd => exact .of_sec (execSlotProgramEnd_next ..)
  | slotActivate => exact .of_sec (execSlotActivate_next ..)
  | slotDrainEnd => exact .of_sec (execSlotDrainEnd_next ..)
  | slotReprogramEnd => exact .of_sec (execSlotReprogramEnd_next ..)
  | slotRetire => exact .of_sec (execSlotRetire_next ..)
  | slotRetireEnd => exact .of_sec (execSlotRetireEnd_next ..)
  | prickLoadOpen => exact .of_sec (execPrickLoadOpen_next ..)
  | prickLoadData => exact .of_sec (execPrickLoadData_next ..)
  | prickLoadClose => exact .of_sec (execPrickLoadClose_next ..)
  | prickLoadDiscard => exact .of_sec (execPrickLoadDiscard_next ..)
  | jobAdmit => exact .of_sec (execJobAdmit_next ..)
  | jobAdmitAccept => exact .of_sec (execJobAdmitAccept_next ..)
  | jobSubmit => exact .of_sec (execJobSubmit_next ..)
  | partialCapture => exact .of_sec (execPartialCapture_next ..)
  | jobAbortLoose => exact .of_sec (execJobAbortLoose_next ..)
  | jobAbortTemplate => exact .of_sec (execJobAbortTemplate_next ..)
  | templateWithdrawn => exact .of_sec (execTemplateWithdrawn_next ..)
  | tbConfig => exact .of_sec (execTbConfig_next ..)
  | tbClaimClaim => exact .of_sec (execTbClaimClaim_next ..)
  | tbClaimRelease => exact .of_sec (execTbClaimRelease_next ..)
  | streamOpen => exact .of_sec (execStreamOpen_next ..)
  | streamClose => exact .of_sec (execStreamClose_next ..)
  | streamCloseEffect => exact .of_sec (execStreamCloseEffect_next ..)
  | portConfigLink => exact .of_sec (execPortConfigLink_next ..)
  | portConfigService => exact .of_sec (execPortConfigService_next ..)
  | portConfigGates => exact .of_sec (execPortConfigGates_next ..)
  | hcConfigEnable => exact .of_sec (execHcConfigEnable_next ..)
  | hcConfigDisable => exact .of_sec (execHcConfigDisable_next ..)
  | hcConfigMode => exact .of_sec (execHcConfigMode_next ..)
  | hcSelfcal => exact .of_sec (execHcSelfcal_next ..)
  | hcSelfcalEnd => exact .of_sec (execHcSelfcalEnd_next ..)
  | hcReadData => exact .of_sec (execHcReadData_next ..)
  | hcReadConvert => exact .of_sec (execHcReadConvert_next ..)
  | hcReadUrgent => exact .of_sec (execHcReadUrgent_next ..)
  | pkConfigEnable => exact .of_sec (execPkConfigEnable_next ..)
  | pkConfigDisable => exact .of_sec (execPkConfigDisable_next ..)
  | queueFlush => exact .of_sec (execQueueFlush_next ..)
  | queueFlushEffect => exact .of_sec (execQueueFlushEffect_next ..)
  | queueDrop => exact .of_sec (execQueueDrop_next ..)
  | fwUpdateOpen =>
    rw [exec_fwUpdateOpen, execFwUpdateOpen]
    exact .of_effect fun t => by simpa only [fwUpdateOpenDo, State.done_frame] using .refl _
  | fwUpdateClose => exact execFwUpdateClose_keepsFuses _ _ s
  | fwUpdateDiscard => rw [exec_fwUpdateDiscard, execFwUpdateDiscard]; exact .of_done fun t => .refl _
  | flashWriteStageEnd => exact execFlashWriteStageEnd_keepsFuses _ _ s
  | attestForm =>
    rw [exec_attestForm, execAttestForm]
    exact .of_effect fun t => by simpa only [attestFormDo, State.done_frame] using .refl _
  | attestRead => exact .of_sec (execAttestRead_next ..)
  | dispatch => exact .of_sec (execDispatch_next ..)
  | cmd0 => exact .of_sec (execCmd0_next ..)
  | cmd5 => exact .of_sec (execCmd5_next ..)
  | cmd11 => exact .of_sec (execCmd11_next ..)
  | cmd19 => exact .of_sec (execCmd19_next ..)
  | mailboxWrite => exact .of_sec (execMailboxWrite_next ..)
  | mailboxPacketEnter => exact .of_sec (execMailboxPacketEnter_next ..)
  | replyWindowRead => exact .of_sec (execReplyWindowRead_next ..)
  | transportByteWrite => exact .of_sec (execTransportByteWrite_next ..)
  | f2BlockWrite => exact .of_sec (execF2BlockWrite_next ..)
  | f2BlockRead => exact .of_sec (execF2BlockRead_next ..)
  | ioAbort => exact .of_sec (execIoAbort_next ..)
  | ioReset => exact execIoReset_keepsFuses _ s
  | packetEnter => exact .of_sec (execPacketEnter_next ..)
  | errorEntryEnter => exact .of_sec (execErrorEntryEnter_next ..)
  | hostNoteDrain => exact .of_sec (execHostNoteDrain_next ..)
  | recordMove => exact .of_sec (execRecordMove_next ..)
  | encoderCount => exact .of_sec (execEncoderCount_next ..)
  | indexPulse => exact .of_sec (execIndexPulse_next ..)
  | threadTriggerEdge => exact .of_sec (execThreadTriggerEdge_next ..)
  | pulseEnd => exact .of_sec (execPulseEnd_next ..)
  | encoderLoss => exact .of_sec (execEncoderLoss_next ..)
  | encoderLossEnd => exact .of_sec (execEncoderLossEnd_next ..)
  | stall => exact .of_sec (execStall_next ..)
  | stageReady => exact .of_sec (execStageReady_next ..)
  | saveComplete => exact .of_sec (execSaveComplete_next ..)
  | restoreComplete => exact .of_sec (execRestoreComplete_next ..)
  | tokenConditioned => exact .of_sec (execTokenConditioned_next ..)
  | passComplete => exact .of_sec (execPassComplete_next ..)
  | epilogueWriteEnd => exact .of_sec (execEpilogueWriteEnd_next ..)
  | dmaBurstComplete => exact .of_sec (execDmaBurstComplete_next ..)
  | translationWalkEnd => exact .of_sec (execTranslationWalkEnd_next ..)
  | tattingInstructionEnd => exact .of_sec (execTattingInstructionEnd_next ..)
  | setlen => exact .of_sec (execSetlen_next ..)
  | fenceWaitEnd => exact .of_sec (execFenceWaitEnd_next ..)
  | windowWaitEnd => exact .of_sec (execWindowWaitEnd_next ..)
  | recordCommit => exact .of_sec (execRecordCommit_next ..)
  | faultWaitExpiry => exact .of_sec (execFaultWaitExpiry_next ..)
  | streamFrame => exact .of_sec (execStreamFrame_next ..)
  | linkDown => exact .of_sec (execLinkDown_next ..)
  | linkUp => exact .of_sec (execLinkUp_next ..)
  | arpRequest => exact .of_sec (execArpRequest_next ..)
  | icmpEcho => exact .of_sec (execIcmpEcho_next ..)
  | rasterPacket => exact .of_sec (execRasterPacket_next ..)
  | ptpMessage => exact .of_sec (execPtpMessage_next ..)
  | delayReq => exact .of_sec (execDelayReq_next ..)
  | ptpSyncTimeout => exact .of_sec (execPtpSyncTimeout_next ..)
  | gateEntryChange => exact .of_sec (execGateEntryChange_next ..)
  | picotSlotEnd => exact .of_sec (execPicotSlotEnd_next ..)
  | throwBurstEnd => exact .of_sec (execThrowBurstEnd_next ..)
  | sequenceReady => exact .of_sec (execSequenceReady_next ..)
  | conversionEnd => exact .of_sec (execConversionEnd_next ..)
  | calibrationPass => exact .of_sec (execCalibrationPass_next ..)
  | dwellEnd => exact .of_sec (execDwellEnd_next ..)
  | levelScanEnd => exact .of_sec (execLevelScanEnd_next ..)
  | sealEpoch => exact .of_sec (execSealEpoch_next ..)
  | ageRefreshRequest => exact .of_sec (execAgeRefreshRequest_next ..)
  | refreshStart => exact .of_sec (execRefreshStart_next ..)
  | bobbinProgrammingStart => exact .of_sec (execBobbinProgrammingStart_next ..)
  | bobbinProgrammingEnd => exact .of_sec (execBobbinProgrammingEnd_next ..)
  | sramScrub => exact .of_sec (execSramScrub_next ..)
  | hbmScrub => exact .of_sec (execHbmScrub_next ..)
  | hbmLinkRetrain => exact .of_sec (execHbmLinkRetrain_next ..)
  | mgmtCoreFault => exact .of_sec (execMgmtCoreFault_next ..)
  | domainSwitched => exact .of_sec (execDomainSwitched_next ..)
  | pwrgdFall => exact .of_sec (execPwrgdFall_next ..)
  | nrstFall => exact execNrstFall_keepsFuses _ s
  | nrstRise => exact .of_sec (execNrstRise_next ..)
  | strapLatch => exact .of_sec (execStrapLatch_next ..)
  | watchdog => exact execWatchdog_keepsFuses _ s
  | internalResetEnd => exact .of_sec (execInternalResetEnd_next ..)
  | thermalReading => exact .of_sec (execThermalReading_next ..)
  | throttleStepFall => exact .of_sec (execThrottleStepFall_next ..)
  | thermalTrip => exact execThermalTrip_keepsFuses _ s
  | thermalTripEnd => exact .of_sec (execThermalTripEnd_next ..)
  | pllLock => exact .of_sec (execPllLock_next ..)
  | firmwareLoadEnd => exact execFirmwareLoadEnd_keepsFuses _ _ s
  | firmwareInitEnd => exact .of_sec (execFirmwareInitEnd_next ..)
  | debugToken => exact execDebugToken_keepsFuses _ _ _ _ _ s
  | tapInstruction => exact execTapInstruction_keepsFuses _ _ s
  | ptpMasterLost => exact .of_sec (execPtpMasterLost_next ..)
  | frameTransmitEnd => exact .of_sec (execFrameTransmitEnd_next ..)
  | cmd3 => exact .of_sec (execCmd3_next ..)
  | cmd7 => exact .of_sec (execCmd7_next ..)
  | cmd15 => exact .of_sec (execCmd15_next ..)
  | cccrWrite => exact execCccrWrite_keepsFuses _ _ _ s
  | transportByteRead => exact .of_sec (execTransportByteRead_next ..)
  | tapReset => exact .of_next (.refl _)

/-- Settles O7: every form keeps the fuses and the identity (`exec_keepsFuses`). -/
theorem fusesNeverClear : Obligations.FusesNeverClear := by
  unfold Obligations.FusesNeverClear
  intro c s t hexec
  obtain ⟨u, hnext, hu⟩ := exec_keepsFuses c s
  rw [hexec] at hnext
  cases hnext
  exact hu

end Sys2Proof.Machine
end

section
/-! PROOF. O59: the host's forms. The clause on the abort of a loose job with no stage in progress (R254, R437) is that
of O54, and it fails on the same device, `strayState`. -/

namespace Sys2Proof.Machine

/-- The abort leaves the job in its context: the stage on pillow 255, whose queue it does not clear, starts, meets the
poisoned context and fails the pillow out (R257), and the job is then dead with its record still to come. -/
theorem abort_strayState_job {t : State} (h : exec (.jobAbortLoose strayHdr 3) strayState = .next t) :
    (t.job 3).isSome = true := by
  have hrun : (match exec (.jobAbortLoose strayHdr 3) strayState with
    | .next u => (u.job 3).isSome
    | _ => false) = true := by decide +kernel
  rwa [h] at hrun

/-- Refutes O59: the abort of `strayState`'s job does not free its context, as the clause of R254 says it does. -/
theorem not_hostFormsComplete : ¬ Obligations.HostFormsComplete := by
  unfold Obligations.HostFormsComplete
  rintro ⟨-, -, -, -, -, -, -, -, -, -, -, -, -, -, -, -, -, -, -, -, -, -, -, -, -, -, -, -, habort, -⟩
  obtain ⟨t, hexec, -, hfreed⟩ := habort strayHdr 3 strayJob strayState (by decide +kernel) rfl rfl rfl rfl rfl
    (by simp [strayState]) (by decide +kernel)
  have hstays := abort_strayState_job hexec
  rw [hfreed] at hstays
  exact absurd hstays (by decide)

end Sys2Proof.Machine
end

section

/-! PROOF. O1: the front of the queue of waiting commands. -/

namespace Sys2Proof.Machine

theorem step_cons (c : Instr) (rest : List Instr) (s : State) :
    step { s with pending := c :: rest } = exec c { s with pending := rest } := rfl

theorem step_nil {s : State} (h : s.pending = []) : step s = .next s := by simp [step, h]

/-- Settles O1: both clauses are the two cases of the queue of waiting commands. -/
theorem stepRunsFront : Obligations.StepRunsFront := by
  unfold Obligations.StepRunsFront
  exact ⟨step_cons, fun _ => step_nil⟩

end Sys2Proof.Machine
end

section

/-! PROOF. O9: DEV_INFO's payload and the CONFIRM of DEV_RESET. -/

namespace Sys2Proof.Machine

/-- A command whose parameters fail is refused for them, in whatever state the device is (R404). -/
theorem hostCommand_badParams {h : Hdr} {op form : Nat} {sec : Bool} {params : Option Reject}
    {own : State → Option Reject} {eff : State → State} {s : State} {r : Reject} (hp : params = some r) :
    hostCommand h op form sec params own eff s = .next ((s.advance h.t).refuse h op form r) := by
  simp [hostCommand, firstOf, hp]

/-- Every device state accepts DEV_INFO (R417, R488). -/
theorem State.accepts_devInfo (s : State) : s.accepts Op.devInfo false = true := by
  simp [State.accepts, Op.devInfo]

theorem exec_devInfo_done (h : Hdr) (s : State) :
    exec (.devInfo h) s = .next ((s.advance h.t).done h Op.devInfo 0 (s.advance h.t).devInfoBytes) :=
  (exec_devInfo h s).trans (hostCommand_accepted rfl s.accepts_devInfo rfl)

theorem exec_devReset_unconfirmed {h : Hdr} {confirm : BitVec 32} {s : State} (hc : confirm ≠ 0x5445_5352) :
    exec (.devReset h confirm) s = .next ((s.advance h.t).refuse h Op.devReset 0 (paramBadAt 8)) := by
  refine (exec_devReset h confirm s).trans (hostCommand_badParams ?_)
  rw [require, beq_false_of_ne hc]; rfl

/-- Settles O9: DEV_INFO is accepted in every state, and CONFIRM is DEV_RESET's one parameter. -/
theorem deviceInfoAndConfirm : Obligations.DeviceInfoAndConfirm := by
  unfold Obligations.DeviceInfoAndConfirm
  exact ⟨fun h s => Answers.of_done (f := id) (exec_devInfo_done h s),
    fun h confirm s hc => Refuses.of_refuse (exec_devReset_unconfirmed hc)⟩

end Sys2Proof.Machine
end

section

/-! PROOF. O11: the events that end a reset (R475, R478) and the strap window (R452). -/

namespace Sys2Proof.Machine

/-- The state after a reset that ends at time `n`: the boot ROM starts, and nothing else changes. -/
def State.bootsAt (n : Nat) (s : State) : State :=
  { s with
    now := max s.now n
    mgmt := { s.mgmt with reset := none, resetAt := max s.now n }
    ms := { s.ms with scrubAt := max s.now n } }

theorem State.endReset_advance (n : Nat) (s : State) : (s.advance n).endReset = s.bootsAt n := rfl

theorem exec_nrstRise_ends {n : Nat} {s : State} (h : s.power.nrst = false) :
    exec (.nrstRise n) s =
      .next { s.bootsAt n with power := { s.power with nrst := true, pwrgd := true } } := by
  simp [execNrstRise, State.advance, h, State.endReset, State.bootsAt]

theorem exec_internalResetEnd_ends {n : Nat} {s : State}
    (h : s.mgmt.reset = some .devReset ∧ s.mgmt.resetAt + 10_000 ≤ max s.now n
      ∨ s.mgmt.reset = some .watchdog ∧ s.mgmt.resetAt + 20_000 ≤ max s.now n) :
    exec (.internalResetEnd n) s = .next (s.bootsAt n) := by
  simp only [exec_internalResetEnd, execInternalResetEnd]
  rw [if_pos (by simpa [State.advance] using h), State.endReset_advance]

theorem exec_thermalTripEnd_ends {n : Nat} {s : State} (h : s.mgmt.reset = some .thermal) :
    exec (.thermalTripEnd n) s = .next (s.bootsAt n) := by
  simp only [exec_thermalTripEnd, execThermalTripEnd]
  rw [if_pos (by simpa [State.advance] using h), State.endReset_advance]

theorem exec_strapLatch_latches {n : Nat} {pkd : BitVec 8} {s : State} (hu : s.up = true)
    (hl : s.power.latched = false) (ht : s.mgmt.resetAt + 10_000 ≤ max s.now n) :
    exec (.strapLatch n pkd) s =
      .next { s.advance n with power := { s.power with straps := pkd, latched := true } } := by
  simp only [exec_strapLatch, execStrapLatch]
  rw [if_pos (by simpa [State.advance, State.up, hl, ht] using hu)]
  rfl

/-- Settles O11: each event's condition is the test of its meaning. -/
theorem resetEnds : Obligations.ResetEnds := by
  unfold Obligations.ResetEnds
  exact ⟨fun n s h => exec_nrstRise_ends h, fun n s h => exec_internalResetEnd_ends h,
    fun n s h => exec_thermalTripEnd_ends h, fun n pkd s hu hl ht => exec_strapLatch_latches hu hl ht⟩

end Sys2Proof.Machine
end

section

/-! PROOF. O17: the test access port (R508, R509) and debug tokens (R510). -/

namespace Sys2Proof.Machine

theorem exec_tapInstruction_acts {n : Nat} {i : TapIns} {s : State} (h : s.tapActs i = true) :
    exec (.tapInstruction n i) s = .next { s with
      now := max s.now n, sec := { s.sec with tapIns := i, scanPins := s.sec.scanPins || tapTakesPins i } } :=
  congrArg Host.Outcome.next (if_pos (show (s.advance n).tapActs i = true from h))

theorem exec_tapInstruction_bars {n : Nat} {i : TapIns} {s : State} (h : s.tapActs i = false) :
    exec (.tapInstruction n i) s = .next { s with
      now := max s.now n, sec := { s.sec with tapIns := .bypass, scanRefused := s.sec.scanRefused || tapTakesPins i } } :=
  congrArg Host.Outcome.next (if_neg (Bool.not_eq_true _ ▸ show (s.advance n).tapActs i = false from h))

/-- In lock state 2 IDCODE and BYPASS alone act (R509). -/
theorem State.tapActs_locked {i : TapIns} {s : State} (h : s.sec.lock = 2) :
    s.tapActs i = true ↔ i = .idcode ∨ i = .bypass := by
  cases i <;> simp [State.tapActs, h]

/-- Whether a debug token opens debug (R510). -/
def State.tokenGood (device : BitVec 64) (challenge : BitVec 256) (key : Nat) (sigOk : Bool) (s : State) : Bool :=
  s.sec.lock == 1 && device == s.sec.device && challenge == Config.challenge s.sec.challenge && decide (key < 4) && sigOk

/-- The state after a debug token, before its report: the challenge is used up (R510). -/
def State.afterToken (n : Nat) (good : Bool) (s : State) : State :=
  { s with now := max s.now n, sec := { s.sec with
      challenge := s.sec.challenge + 1, debug := s.sec.debug || good } }

/-- A token is used up and reported, whether it is good or not. -/
theorem exec_debugToken_attempts {n key : Nat} {device : BitVec 64} {challenge : BitVec 256} {sigOk : Bool} {s : State}
    (hu : s.up = true) (hl : s.sec.lock ≠ 0) :
    exec (.debugToken n device challenge key sigOk) s =
      .next ((s.afterToken n (s.tokenGood device challenge key sigOk)).security
        (if s.tokenGood device challenge key sigOk then 3 else 4) key 0
        (digestOf (leBytes 8 device.toNat ++ leBytes 32 challenge.toNat)).toNat) := by
  have hgo : ¬ (!(s.advance n).up || (s.advance n).sec.lock == 0) = true := by
    simp [show (s.advance n).up = true from hu, show (s.advance n).sec.lock ≠ 0 from hl]
  simp only [exec_debugToken, execDebugToken, if_neg hgo]
  change Host.Outcome.next (if s.tokenGood device challenge key sigOk = true then _ else _) = _
  cases s.tokenGood device challenge key sigOk with
  | true => simp [State.afterToken, State.advance]
  | false => simp [State.afterToken, State.advance]

/-- A report of the security class changes the latches and the queues, and its class is held. -/
theorem State.afterToken_security (n : Nat) (good : Bool) (cause key : Nat) (fwVer : BitVec 32) (digest : Nat)
    (s : State) {t : State} (ht : t = (s.afterToken n good).security cause key fwVer digest) :
    t.sec = { s.sec with challenge := s.sec.challenge + 1, debug := s.sec.debug || good }
      ∧ (t.latch 27).held = true
      ∧ t = { s with now := max s.now n, sec := t.sec, latches := t.latches, queues := t.queues, sdio := t.sdio } := by
  subst ht
  refine ⟨by simp only [State.security_frame, State.afterToken], State.report_held _ _, State.eq_of_parts ?_⟩
  simp only [State.security_frame, State.afterToken, and_self]

/-- The IDCODE of a stepping (R508). -/
def idcodeOf (step : Nat) : BitVec 32 :=
  BitVec.ofNat 32 (fld 28 4 step + fld 12 16 0x4816 + fld 1 11 0x2A5 + 1)

theorem State.idcode_eq (s : State) : s.idcode = idcodeOf s.sec.step := rfl

theorem idcodeOf_fields : ∀ step < 16,
    (idcodeOf step).extractLsb 31 28 = BitVec.ofNat 4 step ∧ (idcodeOf step).extractLsb 27 12 = 0x4816#16
      ∧ (idcodeOf step).extractLsb 11 1 = 0x2A5#11 ∧ (idcodeOf step).getLsbD 0 = true := by
  decide

/-- Settles O17: the two arms of a load, the one attempt of a challenge, and IDCODE over the sixteen steppings. -/
theorem testAccessPort : Obligations.TestAccessPort := by
  unfold Obligations.TestAccessPort
  refine ⟨fun n i s h => exec_tapInstruction_acts h, fun n i s h => exec_tapInstruction_bars h,
    fun i s h => State.tapActs_locked h, fun n s => rfl,
    fun n device challenge key sigOk s hu hl =>
      ⟨_, exec_debugToken_attempts hu hl, State.afterToken_security _ _ _ _ _ _ _ rfl⟩, fun s hs => ?_⟩
  rw [s.idcode_eq]
  obtain ⟨hstep, hpart, hmaker, hone⟩ := idcodeOf_fields s.sec.step hs
  exact ⟨hstep, hpart, hmaker, hone, fun h => h ▸ by decide⟩

end Sys2Proof.Machine
end

section

/-! PROOF. O12: the boot from the PLL's lock to state 1 (R478 to R483). -/

namespace Sys2Proof.Machine

theorem State.fwByte_blank {s : State} (h : s.fwMem = []) (a : Nat) : s.fwByte a = 0x55 :=
  (congrArg (tget fwDefault · a) h).trans (tget_nil ..)

theorem State.byteAt_blank {s : State} (h : s.mem = []) (a : Nat) : s.byteAt a = 0 :=
  (congrArg (memByte · a) h).trans (tget_nil ..)

/-- Entering state 5 records the fatal code (R488). -/
theorem State.enterFatal_mgmt {cause addr : Nat} {s : State} (h : s.mgmt.devState ≠ 5) :
    (s.enterFatal cause addr).mgmt = { s.mgmt with devState := 5, fatal := cause } := by
  simp only [State.enterFatal, if_neg h, State.report_frame]

theorem State.nfault_of_fatal {s : State} (h : s.mgmt.devState = 5) : s.nfault = true := by
  simp [State.nfault, h]

/-- The state after the boot ROM's March test of the firmware memory (R221, R479). -/
def State.marched (n : Nat) (marchOk : Bool) (s : State) : State :=
  { s.advance n with mgmt := { s.mgmt with pllLocked := true, romMarchOk := marchOk }, fwMem := [] }

theorem exec_pllLock_boots {n : Nat} {marchOk : Bool} {s : State} (hu : s.up = true) (hd : s.mgmt.devState = 0)
    (hp : s.mgmt.pllLocked = false) :
    exec (.pllLock n marchOk) s = .next (if marchOk then s.marched n marchOk
      else ({ s.marched n marchOk with power := { s.power with bootErr := 1 } }).enterFatal 4 0) := by
  simp only [exec_pllLock, execPllLock]
  rw [if_pos (by simp [hu, hd, hp])]
  rfl

/-- The events after the March test act in state 0 with the firmware not started. -/
theorem firmwareLoad_guard {n : Nat} {s : State} (hu : s.up = true) (hd : s.mgmt.devState = 0)
    (hm : s.mgmt.romMarchOk = true) (hf : s.mgmt.fwStarted = false) :
    ((s.advance n).up && (s.advance n).mgmt.devState == 0 && (s.advance n).mgmt.romMarchOk
      && !(s.advance n).mgmt.fwStarted) = true := by
  simp [hu, hd, hm, hf]

/-- The image that FW_UPDATE has verified is the one that starts (R482). -/
theorem exec_firmwareLoadEnd_updated {n : Nat} {flash : FlashRead} {x : FwImage} {s : State} (hu : s.up = true)
    (hd : s.mgmt.devState = 0) (hm : s.mgmt.romMarchOk = true) (hf : s.mgmt.fwStarted = false)
    (hx : s.sec.updImage = some x) :
    exec (.firmwareLoadEnd n flash) s = .next ((s.advance n).startFirmware 3 x) := by
  have hx' : (s.advance n).sec.updImage = some x := hx
  simp only [exec_firmwareLoadEnd, execFirmwareLoadEnd, if_pos (firmwareLoad_guard (n := n) hu hd hm hf), hx']

/-- With no such image and a QSPI source, the flash is read (R480). -/
theorem exec_firmwareLoadEnd_flash {n : Nat} {flash : FlashRead} {s : State} (hu : s.up = true)
    (hd : s.mgmt.devState = 0) (hm : s.mgmt.romMarchOk = true) (hf : s.mgmt.fwStarted = false)
    (hx : s.sec.updImage = none) (hsrc : bitsOf 3 2 s.power.straps.toNat = 1 ∨ bitsOf 3 2 s.power.straps.toNat = 2)
    (he : s.power.bootErr = 0) :
    exec (.firmwareLoadEnd n flash) s = .next ((s.advance n).bootFlash flash) := by
  have hx' : (s.advance n).sec.updImage = none := hx
  simp only [exec_firmwareLoadEnd, execFirmwareLoadEnd, if_pos (firmwareLoad_guard (n := n) hu hd hm hf), hx']
  exact congrArg Host.Outcome.next (if_pos ⟨hsrc, he⟩)

/-- A primary image that passes R502 is the one that starts, over the flash's geometry. -/
theorem State.bootFlash_primary {f : FlashRead} {s : State} (hs : f.sfdp = true)
    (hx : s.imageFails (fwImageOf f.primary.sigOk f.primary.bytes) = none) :
    s.bootFlash f = ({ s with power := { s.power with qspi4b := f.addr4, qspiWidth := f.width } }).startFirmware 1
      (fwImageOf f.primary.sigOk f.primary.bytes) := by
  have hx' (p : Power) : ({ s with power := p } : State).imageFails (fwImageOf f.primary.sigOk f.primary.bytes) = none := hx
  simp [State.bootFlash, hs, State.tryImage, hx', State.startFirmware]

/-- Firmware initialisation over every memory (R478, R483). -/
theorem exec_firmwareInitEnd_fills {n : Nat} {s : State} (hu : s.up = true) (hd : s.mgmt.devState = 0)
    (hf : s.mgmt.fwStarted = true) :
    exec (.firmwareInitEnd n) s = .next { s with
      now := max s.now n, mem := [], ms := { s.ms with poison := [], errs := [] }
      mgmt := { s.mgmt with devState := 1 }
      power := { s.power with initUs := (max s.now n - s.mgmt.resetAt) / 1000 } } := by
  simp only [exec_firmwareInitEnd, execFirmwareInitEnd]
  rw [if_pos (by simp [hu, hd, hf])]
  rfl

/-- Settles O12: each event of the boot, in order. -/
theorem bootSequence : Obligations.BootSequence := by
  unfold Obligations.BootSequence
  refine ⟨fun n s hu hd hp => ?_, fun n s hu hd hp => ?_, fun n flash x s hu hd hm hf hx => ?_,
    fun n flash x s hu hd hm hf hx hsrc he hs hxe hok => ?_, fun n s hu hd hf => ?_⟩
  case _ =>
    exact ⟨_, exec_pllLock_boots hu hd hp, by simp [State.marched, hd], State.fwByte_blank rfl, rfl⟩
  case _ =>
    have hfatal := State.enterFatal_mgmt (cause := 4) (addr := 0)
      (s := { s.marched n false with power := { s.power with bootErr := 1 } }) (by simp [State.marched, hd])
    have hstate := congrArg Mgmt.devState hfatal
    exact ⟨_, exec_pllLock_boots hu hd hp, hstate, congrArg Mgmt.fatal hfatal,
      by simp [State.enterFatal_frame], State.nfault_of_fatal hstate⟩
  case _ => exact ⟨_, exec_firmwareLoadEnd_updated hu hd hm hf hx, rfl, rfl, rfl, rfl, rfl, rfl⟩
  case _ =>
    subst hxe
    have hboot := exec_firmwareLoadEnd_flash (n := n) (flash := flash) hu hd hm hf hx hsrc he
    rw [State.bootFlash_primary hs (show (s.advance n).imageFails _ = none from hok)] at hboot
    exact ⟨_, hboot, rfl, rfl, rfl, rfl, rfl⟩
  case _ => exact ⟨_, exec_firmwareInitEnd_fills hu hd hf, rfl, State.byteAt_blank rfl, rfl, rfl, rfl⟩

end Sys2Proof.Machine
end

section

/-! PROOF. O13: power-domain requests (R473, R474) and the loss of PWRGD (R471). -/

namespace Sys2Proof.Machine

/-- An accepted PWR_REQ answers after its request (R474). -/
theorem exec_pwrReq_requests {h : Hdr} {d : Nat} {ungate : Bool} {s t : State} (ha : s.accepts Op.regWrite false = true)
    (hd : d < 512) (ht : (s.advance h.t).disarm.powerRequest d ungate = t) :
    exec (.pwrReq h d ungate) s = .next (t.done h Op.regWrite 0 []) := by
  subst ht
  refine (exec_pwrReq h d ungate s).trans ((hostCommand_accepted rfl ha rfl).trans ?_)
  rw [Nat.mod_eq_of_lt hd]

theorem State.powerRequest_refused {d r : Nat} {ungate : Bool} {s : State} (hr : s.domainReason d ungate = r)
    (h0 : r ≠ 0) :
    s.powerRequest d ungate = { s with power := { s.power with
      reqDomain := d, resDomain := d, reqUngate := ungate, refused := true, reason := r } } := by
  subst hr
  simp only [State.powerRequest, if_pos h0]

theorem State.powerRequest_stands {d : Nat} {ungate : Bool} {s : State} (hr : s.domainReason d ungate = 0)
    (hon : s.domainOn d = ungate) :
    s.powerRequest d ungate = { s with power := { s.power with
      reqDomain := d, resDomain := d, reqUngate := ungate, reason := 0 } } := by
  simp only [State.powerRequest, hr, ne_eq, not_true_eq_false, if_false]
  exact if_pos hon

theorem State.powerRequest_ungates {d : Nat} {s : State} (hr : s.domainReason d true = 0) (hon : s.domainOn d = false) :
    s.powerRequest d true = { s with power := { s.power with
      reqDomain := d, resDomain := d, reqUngate := true, reason := 0, switching := some (d, true) } } := by
  simp only [State.powerRequest, hr, ne_eq, not_true_eq_false, if_false]
  exact (if_neg fun hc => Bool.false_ne_true (hon.symm.trans hc)).trans (if_pos trivial)

/-- The state of a request to gate domain d, before the domain is taken off. -/
def State.gateAsked (d : Nat) (s : State) : State :=
  { s with power := { s.power with reqDomain := d, resDomain := d, reqUngate := false, reason := 0 } }

theorem State.powerRequest_gates {d : Nat} {s : State} (hr : s.domainReason d false = 0) (hon : s.domainOn d = true) :
    s.powerRequest d false = { (s.gateAsked d).loseDomain d with power := { ((s.gateAsked d).loseDomain d).power with
      switching := some (d, false)
      on := setDomains false (domainSet d) ((s.gateAsked d).loseDomain d).power.on } } := by
  simp only [State.powerRequest, hr, ne_eq, not_true_eq_false, if_false]
  exact (if_neg fun hc => Bool.false_ne_true (hc.symm.trans hon)).trans (if_neg Bool.false_ne_true)

theorem State.loseDomain_power (d : Nat) (s : State) : (s.loseDomain d).power = s.power := by
  simp only [State.loseDomain_frame]

/-! ## The ON bits -/

/-- A domain taken off stays off whatever else a request switches. -/
theorem setDomains_off_of_off {d : Nat} (l : List Nat) {on : BitVec 314} (h : on.getLsbD d = false) :
    (setDomains false l on).getLsbD d = false := by
  induction l generalizing on with
  | nil => exact h
  | cons e l ih => exact ih (by simp [h])

theorem setDomains_off {d : Nat} {l : List Nat} (hd : d ∈ l) (on : BitVec 314) :
    (setDomains false l on).getLsbD d = false := by
  induction l generalizing on with
  | nil => cases hd
  | cons e l ih =>
    cases hd with
    | head => exact setDomains_off_of_off l (by simp)
    | tail _ hl => exact ih hl _

theorem mem_domainSet (d : Nat) : d ∈ domainSet d := by
  unfold domainSet
  split
  · exact List.mem_map.mpr ⟨0, by decide, rfl⟩
  · exact List.mem_singleton_self d

/-! ## The bytes of a gated ground-buffer quarter -/

/-- A ground-buffer quarter gated loses its 8 MiB (R473). -/
theorem State.loseDomain_quarter {d : Nat} (hlo : 308 ≤ d) (hhi : d ≤ 311) (s : State) :
    s.loseDomain d = s.wipe (gbBase + 0x80_0000 * (d - 308)) 0x80_0000 := by
  simp [State.loseDomain, show ¬ d < 288 by omega, show ¬ d < 304 by omega, show ¬ d < 306 by omega, inRange, hlo,
    hhi]

/-- A domain past the ports that is no ground-buffer quarter holds no bytes. -/
theorem State.loseDomain_none {d : Nat} (hlo : 306 ≤ d) (hq : ¬ (308 ≤ d ∧ d ≤ 311)) (s : State) :
    s.loseDomain d = s := by
  simp [State.loseDomain, show ¬ d < 288 by omega, show ¬ d < 304 by omega, show ¬ d < 306 by omega, inRange, hq]

theorem State.byteAt_loseDomain_inside {d a : Nat} (hlo : 308 ≤ d) (hhi : d ≤ 311)
    (ha : gbBase + 0x80_0000 * (d - 308) ≤ a ∧ a < gbBase + 0x80_0000 * (d - 307)) (s : State) :
    (s.loseDomain d).byteAt a = 0 := by
  rw [State.loseDomain_quarter hlo hhi, State.byteAt_wipe, if_pos (by omega)]

theorem State.byteAt_loseDomain_outside {d a : Nat} (hlo : 306 ≤ d)
    (ha : ¬ (gbBase + 0x80_0000 * (d - 308) ≤ a ∧ a < gbBase + 0x80_0000 * (d - 307))) (s : State) :
    (s.loseDomain d).byteAt a = s.byteAt a := by
  by_cases hq : 308 ≤ d ∧ d ≤ 311
  · rw [State.loseDomain_quarter hq.1 hq.2, State.byteAt_wipe, if_neg (by omega)]
  · rw [State.loseDomain_none hlo hq]

/-! ## The events -/

theorem exec_domainSwitched_switches {n d : Nat} {ungate : Bool} {s : State}
    (h : s.power.switching = some (d, ungate)) :
    exec (.domainSwitched n) s = .next { s with
      now := max s.now n
      power := { s.power with
        switching := none, on := if ungate then setDomains true (domainSet d) s.power.on else s.power.on } } := by
  have h' : (s.advance n).power.switching = some (d, ungate) := h
  simp only [exec_domainSwitched, execDomainSwitched, h']
  rfl

/-- The state after PWRGD has fallen, before its report (R471). -/
def State.supplyLost (n : Nat) (s : State) : State :=
  { s with
    now := max s.now n
    power := { s.power with pwrgd := false, pwrgdLost := true }
    pillows := tmapTo (fun _ => {}) (fun _ x => x.progsStopped) nPillows s.pillows }

theorem exec_pwrgdFall_reports {n : Nat} {s : State} (hu : s.up = true) :
    exec (.pwrgdFall n) s = .next ((s.supplyLost n).report { cls := 17, body := leBytes 1 0 }) :=
  congrArg Host.Outcome.next (if_pos hu)

/-- Settles O13: a request's four arms, and the two events. -/
theorem powerDomains : Obligations.PowerDomains := by
  unfold Obligations.PowerDomains
  refine ⟨fun h d r ungate s ha hd hr h0 => ?_, fun h d ungate s ha hd hr hon => ?_,
    fun h d s ha hd hr hon => ?_, fun h d s ha hd hr hon => ?_,
    fun n d ungate s hsw => exec_domainSwitched_switches hsw, fun n s hu => ?_⟩
  case _ =>
    exact Answers.of_done
      (exec_pwrReq_requests ha hd (State.powerRequest_refused (s := (s.advance h.t).disarm) hr h0))
  case _ =>
    exact Answers.of_done
      (exec_pwrReq_requests ha hd (State.powerRequest_stands (s := (s.advance h.t).disarm) hr hon))
  case _ =>
    exact Answers.of_done
      (exec_pwrReq_requests ha hd (State.powerRequest_ungates (s := (s.advance h.t).disarm) hr hon))
  case _ =>
    refine ⟨_, exec_pwrReq_requests ha hd (State.powerRequest_gates (s := (s.advance h.t).disarm) hr hon), ?_, ?_,
      ?_, fun hlo hhi a hl hr => ?_, fun hlo a ho => ?_⟩
    · simp only [State.done_frame]
    · simp only [State.domainOn, State.done_frame]
      exact setDomains_off (mem_domainSet d) _
    · simp only [State.done_frame, State.loseDomain_power]
      rfl
    · refine (State.byteAt_of_mem (s := ((s.advance h.t).disarm.gateAsked d).loseDomain d) ?_ a).trans
        (State.byteAt_loseDomain_inside hlo hhi ⟨hl, hr⟩ _)
      simp only [State.done_frame]
    · refine (State.byteAt_of_mem (s := ((s.advance h.t).disarm.gateAsked d).loseDomain d) ?_ a).trans
        (State.byteAt_loseDomain_outside hlo ho _)
      simp only [State.done_frame]
  case _ =>
    refine ⟨_, exec_pwrgdFall_reports hu, by simp only [State.report_frame, State.supplyLost], State.report_held _ _,
      State.eq_of_parts ?_⟩
    simp only [State.report_frame, State.supplyLost, and_self]

end Sys2Proof.Machine
end

section

/-! PROOF. O15: firmware update from OPEN to the flash stages (R447, R502, R504, R505). -/

namespace Sys2Proof.Machine

/-! ## What a report leaves of the queues -/

theorem State.presentLatch_queue {q : Nat} (hq : q ≠ 2) (cls : Nat) (s : State) :
    (s.presentLatch cls).queue q = s.queue q := by
  unfold State.presentLatch
  dsimp only
  split
  · exact (State.putQueue_queue 2 q _ s).trans (if_neg hq)
  · rw [State.queue_modQueue, if_neg hq]
    rfl

/-- A report joins no queue but the error queue (R272). -/
theorem State.report_queue {q : Nat} (hq : q ≠ 2) (r : ErrReport) (s : State) : (s.report r).queue q = s.queue q := by
  unfold State.report
  dsimp only
  split
  · rfl
  · exact State.presentLatch_queue hq _ _

theorem State.latch_of_latches {s t : State} (h : t.latches = s.latches) (k : Nat) : t.latch k = s.latch k :=
  congrArg (fun l => tget (fun _ => ({} : Latch)) l k) h

@[simp] theorem State.refuse_latch (h : Hdr) (op form : Nat) (r : Reject) (s : State) (k : Nat) :
    (s.refuse h op form r).latch k = s.latch k := State.latch_of_latches (by simp only [State.refuse_frame]) k

/-! ## OPEN -/

/-- Where the boot flash may be written and no transfer is open, OPEN's own checks pass (R447, R504, R505). -/
theorem fwUpdateOpenCheck_passes {s : State}
    (hsrc : s.mgmt.devState = 0 ∨ bitsOf 3 2 s.power.straps.toNat = 1 ∨ bitsOf 3 2 s.power.straps.toNat = 2)
    (hx : s.bulk.xfer = none) (h3 : s.sec.upd ≠ 3) (h4 : s.sec.upd ≠ 4) : fwUpdateOpenCheck s = none := by
  simp only [fwUpdateOpenCheck, firstOf_cons_eq_none, require_eq_none, firstOf, and_true]
  exact ⟨by simpa [or_assoc] using hsrc, by simp [State.xferOpen, State.flashBusy, hx, h3, h4]⟩

theorem exec_fwUpdateOpen_opens {h : Hdr} {length : Nat} {s : State} (ha : s.accepts Op.fwUpdate false = true)
    (hsrc : s.mgmt.devState = 0 ∨ bitsOf 3 2 s.power.straps.toNat = 1 ∨ bitsOf 3 2 s.power.straps.toNat = 2)
    (hx : s.bulk.xfer = none) (h3 : s.sec.upd ≠ 3) (h4 : s.sec.upd ≠ 4) :
    exec (.fwUpdateOpen h length) s = .next (fwUpdateOpenDo h length (s.advance h.t)) :=
  (exec_fwUpdateOpen h length s).trans
    (hostCommand_accepted rfl ha (fwUpdateOpenCheck_passes (s := s.advance h.t) hsrc hx h3 h4))

/-! ## CLOSE -/

theorem State.updateImage_arrived {b : Xfer} {s : State} (hb : s.bulk.image = some b) (sigOk : Bool) :
    s.updateImage sigOk = fwImageOf sigOk (b.buf.take (b.total.getD 0)) := by
  simp [State.updateImage, hb]

theorem exec_fwUpdateClose_closes {h : Hdr} {sigOk : Bool} {b : Xfer} {s : State}
    (ha : s.accepts Op.fwUpdate false = true) (hb : s.bulk.image = some b) :
    exec (.fwUpdateClose h sigOk) s = .next (fwUpdateCloseDo h sigOk (s.advance h.t)) := by
  refine (exec_fwUpdateClose h sigOk s).trans (hostCommand_accepted rfl ha ?_)
  simp [require, State.imageArrived, State.advance, hb]

theorem exec_fwUpdateClose_empty {h : Hdr} {sigOk : Bool} {s : State}
    (ha : s.accepts Op.fwUpdate false = true) (hb : s.bulk.image = none) :
    exec (.fwUpdateClose h sigOk) s = .next ((s.advance h.t).refuse h Op.fwUpdate 0 stateRefused) := by
  refine (exec_fwUpdateClose h sigOk s).trans (hostCommand_refused rfl ha ?_)
  simp [require, State.imageArrived, State.advance, hb]

/-- The state in which CLOSE verifies the image: the transfer's bytes are let go. -/
def State.withoutImage (s : State) : State := { s with bulk := { s.bulk with image := none } }

theorem fwUpdateCloseDo_verified {h : Hdr} {sigOk : Bool} {x : FwImage} {s : State} (hx : s.updateImage sigOk = x)
    (hok : s.imageFails x = none) :
    fwUpdateCloseDo h sigOk s = ({ s.withoutImage with sec := { s.sec with
      upd := if s.mgmt.devState = 0 then 2 else 3, updImage := some x } }).done h Op.fwUpdate 0 [] := by
  subst hx
  have hok' (b : Bulk) : ({ s with bulk := b } : State).imageFails (s.updateImage sigOk) = none := hok
  simp only [fwUpdateCloseDo, hok']
  rfl

/-- The state in which CLOSE has found the image bad, before its report. -/
def State.imageDropped (s : State) : State := { s.withoutImage with sec := { s.sec with upd := 0, updImage := none } }

theorem fwUpdateCloseDo_failed {h : Hdr} {sigOk : Bool} {x : FwImage} {cause : Nat} {s : State}
    (hx : s.updateImage sigOk = x) (hfail : s.imageFails x = some cause) :
    fwUpdateCloseDo h sigOk s = (s.imageDropped.imageFailed cause x).refuse h Op.fwUpdate 0
        { status := if cause = 1 then Status.sigBad else Status.rollback } := by
  subst hx
  have hfail' (b : Bulk) : ({ s with bulk := b } : State).imageFails (s.updateImage sigOk) = some cause := hfail
  simp only [fwUpdateCloseDo, hfail']
  rfl

/-- A failed image is reported in the security class; the update's stage and the other queues stay (R512). -/
theorem State.imageFailed_reports (cause : Nat) (x : FwImage) (s : State) :
    (s.imageFailed cause x).sec.updImage = s.sec.updImage ∧ (s.imageFailed cause x).sec.upd = s.sec.upd
      ∧ ((s.imageFailed cause x).latch 27).held = true ∧ (s.imageFailed cause x).queue 1 = s.queue 1
      ∧ (s.imageFailed cause x).now = s.now := by
  refine ⟨?_, ?_, State.report_held _ _, State.report_queue (by decide) _ _, ?_⟩
  · simp only [State.imageFailed, State.security_frame, apply_ite Security.updImage, ite_self]
  · simp only [State.imageFailed, State.security_frame, apply_ite Security.upd, ite_self]
  · simp only [State.imageFailed, State.security_frame]

/-! ## DISCARD and the flash stages -/

theorem exec_fwUpdateDiscard_drops {h : Hdr} {s : State} (ha : s.accepts Op.fwUpdate false = true)
    (hx : s.bulk.xfer = none) (hi : s.bulk.image = none) (hu : s.sec.upd = 2) :
    exec (.fwUpdateDiscard h) s =
      .next (({ s.advance h.t with sec := { s.sec with upd := 0, updImage := none } }).done h Op.fwUpdate 0 []) := by
  refine (exec_fwUpdateDiscard h s).trans ((hostCommand_accepted rfl ha ?_).trans ?_)
  · simp [firstOf, require, State.flashBusy, State.hasUpdate, State.advance, hu]
  · have hbulk : { s.bulk with xfer := (if s.bulk.xfer.elim false fun x => x.kind == 5 then none else s.bulk.xfer)
                               image := none } = s.bulk := by
      cases hb : s.bulk
      simp_all
    exact congrArg (fun b => Host.Outcome.next (({ s.advance h.t with
      bulk := b, sec := { s.sec with upd := 0, updImage := none } } : State).done h Op.fwUpdate 0 [])) hbulk

theorem State.flashBusy_of_stage {s : State} (hf : s.sec.upd = 3 ∨ s.sec.upd = 4) : s.flashBusy = true := by
  simpa [State.flashBusy] using hf

theorem exec_flashWriteStageEnd_equal {n : Nat} {s : State} (hu : s.up = true) (hf : s.sec.upd = 3 ∨ s.sec.upd = 4) :
    exec (.flashWriteStageEnd n true) s = .next { s with
      now := max s.now n, sec := { s.sec with upd := s.sec.upd + 1 } } := by
  have hgo : ((s.advance n).up && (s.advance n).flashBusy) = true :=
    Bool.and_eq_true_iff.mpr ⟨hu, State.flashBusy_of_stage (s := s.advance n) hf⟩
  simp only [exec_flashWriteStageEnd, execFlashWriteStageEnd, if_pos hgo, if_true]
  rfl

theorem exec_flashWriteStageEnd_unequal {n : Nat} {s : State} (hu : s.up = true)
    (hf : s.sec.upd = 3 ∨ s.sec.upd = 4) :
    ∃ key fwVer digest, exec (.flashWriteStageEnd n false) s =
      .next (({ s.advance n with sec := { s.sec with upd := 6 } }).security 7 key fwVer digest) := by
  have hgo : ((s.advance n).up && (s.advance n).flashBusy) = true :=
    Bool.and_eq_true_iff.mpr ⟨hu, State.flashBusy_of_stage (s := s.advance n) hf⟩
  simp only [exec_flashWriteStageEnd, execFlashWriteStageEnd, if_pos hgo, Bool.false_eq_true, if_false]
  exact ⟨_, _, _, rfl⟩

/-- Settles O15: the update's forms in order, each by its checks and its effect. -/
theorem firmwareUpdate : Obligations.FirmwareUpdate := by
  unfold Obligations.FirmwareUpdate
  refine ⟨fun h length s ha hsrc hx h3 h4 => ?_, fun h sigOk x b s ha hb hx hok => ?_, fun h sigOk s ha hb => ?_,
    fun h sigOk x b cause s ha hb hx hfail => ?_, fun h s ha hx hi hu => ?_,
    fun n s hu hf => exec_flashWriteStageEnd_equal hu hf, fun n s hu hf => ?_⟩
  case _ => exact Answers.of_done (exec_fwUpdateOpen_opens ha hsrc hx h3 h4)
  case _ =>
    exact Answers.of_done ((exec_fwUpdateClose_closes ha hb).trans (congrArg Host.Outcome.next
      (fwUpdateCloseDo_verified (s := s.advance h.t) ((State.updateImage_arrived hb sigOk).trans hx.symm) hok)))
  case _ => exact Refuses.of_refuse (exec_fwUpdateClose_empty ha hb)
  case _ =>
    have himage : (s.advance h.t).updateImage sigOk = x := (State.updateImage_arrived hb sigOk).trans hx.symm
    obtain ⟨himg, hupd, hheld, hqueue, hnow⟩ := State.imageFailed_reports cause x (s.advance h.t).imageDropped
    obtain ⟨⟨w, hw⟩, -⟩ := State.refuse_replied h Op.fwUpdate 0
      { status := if cause = 1 then Status.sigBad else Status.rollback }
      ((s.advance h.t).imageDropped.imageFailed cause x)
    rw [hqueue] at hw
    simp only [State.refuse_frame, hnow] at hw
    refine ⟨_, (exec_fwUpdateClose_closes ha hb).trans (congrArg Host.Outcome.next
      (fwUpdateCloseDo_failed himage hfail)), Eq.trans ?_ himg, Eq.trans ?_ hupd, ?_, w, hw⟩
    · simp only [State.refuse_frame]
    · simp only [State.refuse_frame]
    · rwa [State.refuse_latch]
  case _ => exact Answers.of_done (exec_fwUpdateDiscard_drops ha hx hi hu)
  case _ =>
    obtain ⟨key, fwVer, digest, hexec⟩ := exec_flashWriteStageEnd_unequal (n := n) hu hf
    exact ⟨_, hexec, by simp only [State.security_frame], State.report_held _ _⟩

end Sys2Proof.Machine
end

section

/-! PROOF. O16: attestation (R448, R506, R507). -/

namespace Sys2Proof.Machine

/-! ## The quote's lengths (R506) -/

theorem State.length_quoteSlot (k : Nat) (s : State) : (s.quoteSlot k).length = 16 := by
  simp only [State.quoteSlot, List.length_append, length_leBytes, zeros, List.length_replicate]

theorem State.length_quoteSlots (s : State) : ((List.range 64).flatMap s.quoteSlot).length = 1024 := by
  simp only [List.length_flatMap, State.length_quoteSlot, List.map_const', List.sum_replicate, List.length_range,
    smul_eq_mul]

theorem length_zeros (n : Nat) : (zeros n).length = n := List.length_replicate

theorem State.length_quoteBody (nonce : Bytes) (s : State) : (s.quoteBody nonce).length = 1280 := by
  unfold State.quoteBody
  simp only [List.length_append, length_leBytes, length_sliceBytes, State.length_quoteSlots, length_zeros,
    Nat.reduceAdd]

/-- The quote over a nonce: its body and the signature over it (R506). -/
def State.quoteOver (nonce : Bytes) (s : State) : Bytes :=
  s.quoteBody nonce ++ sliceBytes 0 17088 (Config.quoteSignature s.sec.quotes (s.quoteBody nonce))

theorem State.take_quoteOver (nonce : Bytes) (s : State) : (s.quoteOver nonce).take 1280 = s.quoteBody nonce :=
  List.take_left' (s.length_quoteBody nonce)

theorem State.length_quoteOver (nonce : Bytes) (s : State) : (s.quoteOver nonce).length = 18368 := by
  rw [State.quoteOver, List.length_append, State.length_quoteBody, length_sliceBytes]

/-! ## FORM and READ -/

/-- The state with a quote formed, before its reply. -/
def State.quoted (nonce : Bytes) (s : State) : State :=
  { s with sec := { s.sec with quote := s.quoteOver nonce, quotes := s.sec.quotes + 1 } }

theorem exec_attestForm_forms {h : Hdr} {nonce : Bytes} {s : State} (ha : s.accepts Op.attest false = true) :
    exec (.attestForm h nonce) s =
      .next (((s.advance h.t).quoted nonce).done h Op.attest 0 (leBytes 4 18368)) :=
  (exec_attestForm h nonce s).trans (hostCommand_accepted rfl ha rfl)

theorem exec_attestRead_answers {h : Hdr} {offset : Nat} {s : State} (ha : s.accepts Op.attest false = true)
    (hq : 0x1_0000 ≤ offset ∨ s.sec.quote ≠ []) :
    exec (.attestRead h offset) s =
      .next ((s.advance h.t).done h Op.attest 0 ((s.advance h.t).attestBytes offset)) := by
  refine (exec_attestRead h offset s).trans (hostCommand_accepted rfl ha ?_)
  rw [require_eq_none]
  simpa [State.advance] using hq

theorem exec_attestRead_unformed {h : Hdr} {offset : Nat} {s : State} (ha : s.accepts Op.attest false = true)
    (hq : s.sec.quote = []) (ho : offset < 0x1_0000) :
    exec (.attestRead h offset) s = .next ((s.advance h.t).refuse h Op.attest 0 stateRefused) := by
  refine (exec_attestRead h offset s).trans (hostCommand_refused rfl ha ?_)
  simp [require, State.advance, hq, ho]

theorem State.attestBytes_quote {offset : Nat} (ho : offset < 0x1_0000) (s : State) :
    s.attestBytes offset = (s.sec.quote.drop offset).take 480 := if_pos ho

theorem State.attestBytes_identity {offset : Nat} (ho : 0x1_0000 ≤ offset) (s : State) :
    s.attestBytes offset = (List.range (min 480 (29856 - (offset - 0x1_0000)))).map fun i =>
      s.identityByte (offset - 0x1_0000 + i) := if_neg (by omega)

/-- What FORM leaves: its reply, the quote formed and counted, and the rest (R506). -/
theorem State.quoted_done (h : Hdr) (nonce b : Bytes) (s : State) :
    let t := ((s.advance h.t).quoted nonce).done h Op.attest 0 b
    Replied h Op.attest Status.ok b s t ∧ SameButHands s t
      ∧ t.sec.quote.take 1280 = (s.advance h.t).quoteBody nonce ∧ t.sec.quote.length = 18368
      ∧ t.sec = { s.sec with quote := t.sec.quote, quotes := s.sec.quotes + 1 }
      ∧ t = { s with now := max s.now h.t, queues := t.queues, mgmt := t.mgmt, sec := t.sec } := by
  intro t
  have hsec : t.sec = ((s.advance h.t).quoted nonce).sec := by simp only [t, State.done_frame]
  have hsame : SameButHands s ((s.advance h.t).quoted nonce) := .of_mgmt rfl
  refine ⟨(State.done_replied h Op.attest 0 b _).of_queues rfl, hsame.trans (State.done_sameHands ..),
    ?_, ?_, ?_, ?_⟩
  · rw [hsec]
    exact State.take_quoteOver nonce _
  · rw [hsec]
    exact State.length_quoteOver nonce _
  · rw [hsec]
    rfl
  · rw [hsec]
    exact State.done_eq h Op.attest 0 b ((s.advance h.t).quoted nonce)

/-- Settles O16: the quote's lengths, and the two regions that READ reads. -/
theorem attestation : Obligations.Attestation := by
  unfold Obligations.Attestation
  refine ⟨fun h nonce s ha _ => ?_, fun h offset s ha hq ho => ?_, fun h offset s ha ho => ?_,
    fun h offset s ha hq ho => Refuses.of_refuse (exec_attestRead_unformed ha hq ho)⟩
  case _ => exact ⟨_, exec_attestForm_forms ha, State.quoted_done h nonce _ s⟩
  case _ =>
    refine Answers.of_done (form := 0) (f := id) ((exec_attestRead_answers ha (.inr hq)).trans ?_)
    rw [State.attestBytes_quote ho]
    rfl
  case _ =>
    refine Answers.of_done (form := 0) (f := id) ((exec_attestRead_answers ha (.inl ho)).trans ?_)
    rw [State.attestBytes_identity ho]
    rfl

end Sys2Proof.Machine
end

section

/-! PROOF. O51: PRICK_LOAD, its checks and its effects (R434). -/

namespace Sys2Proof.Machine

/-! ## The checks -/

theorem prickParams_eq_none {prk : Nat} {more : List (Option Reject)} :
    prickParams prk more = none ↔ prk ≤ 255 ∧ firstOf more = none := by
  rw [prickParams, firstOf_cons_eq_none, require_eq_none, decide_eq_true_iff]

theorem prickOpenParams {prk n : Nat} (hk : prk ≤ 255) (hlo : 128 ≤ n) (hhi : n ≤ 393216) :
    prickParams prk [require (inRange 128 n 393216) (paramBadAt 0x0C)] = none := by
  rw [prickParams_eq_none, firstOf_cons_eq_none, require_eq_none]
  exact ⟨hk, by simp [inRange, hlo, hhi], rfl⟩

theorem prickOpenCheck_passes {prk n : Nat} {s : State} (hfree : s.prick prk = none)
    (hroom : s.storeUsed + n ≤ 0x200_0000) (hopen : (s.stored.filter fun x => !x.2.loaded).length < 4) :
    prickOpenCheck prk n s = none := by
  simp only [prickOpenCheck, firstOf_cons_eq_none, require_eq_none, decide_eq_true_iff]
  exact ⟨by rw [hfree]; rfl, hroom, hopen, rfl⟩

theorem prickOpenCheck_inUse {prk n : Nat} {x : Prick} {s : State} (hx : s.prick prk = some x) :
    prickOpenCheck prk n s = some (prickHeld prk noOwner) := by
  simp [prickOpenCheck, hx, require, firstOf]

theorem prickOpenOnly_passes {prk : Nat} {x : Prick} {s : State} (hx : s.prick prk = some x) (hl : x.loaded = false) :
    prickOpenOnly prk s = none := by
  simp [prickOpenOnly, hx, hl, require]

/-! ## Bytes written in place -/

/-- What a table holds after a run of entries has been set. -/
theorem tget_foldl_set (d : Nat → Option Byte) (b : Bytes) (o k : Nat) (m : Tbl (Option Byte)) (j : Nat) :
    tget d ((b.zipIdx k).foldl (fun t (x : Byte × Nat) => tset d (o + x.2) (some x.1) t) m) j
      = if o + k ≤ j ∧ j < o + k + b.length then b[j - (o + k)]? else tget d m j := by
  induction b generalizing k m with
  | nil => simp
  | cons x b ih =>
    rw [List.zipIdx_cons, List.foldl_cons, ih, tget_tset, List.length_cons]
    rcases Nat.lt_trichotomy j (o + k) with hlt | heq | hgt
    · rw [if_neg (by omega), if_neg (by omega), if_neg (by omega)]
    · rw [if_neg (by omega), if_pos heq, if_pos (by omega), heq, Nat.sub_self, List.getElem?_cons_zero]
    · obtain ⟨i, hi⟩ : ∃ i, j = o + k + (i + 1) := ⟨j - (o + k) - 1, by omega⟩
      rw [show j - (o + (k + 1)) = i by omega, show j - (o + k) = i + 1 by omega, List.getElem?_cons_succ,
        if_neg (show ¬ j = o + k by omega)]
      exact if_congr (by omega) rfl rfl

theorem Prick.write_bytes (o : Nat) (b : Bytes) (p : Prick) (i : Nat) :
    tget (fun _ => none) (p.write o b).bytes i
      = if o ≤ i ∧ i < o + b.length then b[i - o]? else tget (fun _ => none) p.bytes i :=
  tget_foldl_set (fun _ => none) b o 0 p.bytes i

theorem State.modPrick_some {prk : Nat} {x : Prick} {s : State} (hx : s.prick prk = some x) (f : Prick → Prick) :
    s.modPrick prk f = s.setPrick prk (some (f x)) := by
  rw [State.modPrick, hx]
  rfl

/-! ## The four forms -/

theorem exec_prickLoadOpen_reserves {h : Hdr} {k n : Nat} {s : State} (ha : s.accepts Op.prickLoad false = true)
    (hk : k ≤ 255) (hlo : 128 ≤ n) (hhi : n ≤ 393216) (hfree : s.prick k = none)
    (hroom : s.storeUsed + n ≤ 0x200_0000) (hopen : (s.stored.filter fun x => !x.2.loaded).length < 4) :
    exec (.prickLoadOpen h k n) s = .next
      (((s.advance h.t).setPrick k (some { loaded := false, size := n, bytes := [] })).done h Op.prickLoad 0 []) :=
  (exec_prickLoadOpen h k n s).trans (hostCommand_accepted (prickOpenParams hk hlo hhi) ha
    (prickOpenCheck_passes (s := s.advance h.t) hfree hroom hopen))

theorem exec_prickLoadOpen_inUse {h : Hdr} {k n : Nat} {x : Prick} {s : State}
    (ha : s.accepts Op.prickLoad false = true) (hk : k ≤ 255) (hlo : 128 ≤ n) (hhi : n ≤ 393216)
    (hx : s.prick k = some x) :
    exec (.prickLoadOpen h k n) s =
      .next ((s.advance h.t).refuse h Op.prickLoad 0 (resHeld Op.prickLoad Op.prickLoad 16 k 0xFF 0xFFFF_FFFF)) :=
  (exec_prickLoadOpen h k n s).trans (hostCommand_refused (prickOpenParams hk hlo hhi) ha
    (prickOpenCheck_inUse (s := s.advance h.t) hx))

theorem exec_prickLoadData_writes {h : Hdr} {k o : Nat} {b : Bytes} {x : Prick} {s : State}
    (ha : s.accepts Op.prickLoad false = true) (hk : k ≤ 255) (ho : o % 16 = 0) (hx : s.prick k = some x)
    (hl : x.loaded = false) (hfit : o + b.length ≤ x.size) :
    exec (.prickLoadData h k o b) s =
      .next (((s.advance h.t).setPrick k (some (x.write o b))).done h Op.prickLoad 1 []) := by
  have hx' : (s.advance h.t).prick k = some x := hx
  refine (exec_prickLoadData h k o b s).trans ((hostCommand_accepted ?_ ha ?_).trans ?_)
  · rw [prickParams_eq_none, firstOf_cons_eq_none, require_eq_none]
    exact ⟨hk, by simp [ho], rfl⟩
  · rw [firstOf_cons_eq_none, firstOf_cons_eq_none, require_eq_none, hx']
    exact ⟨prickOpenOnly_passes hx' hl, decide_eq_true hfit, rfl⟩
  · rw [State.modPrick_some hx']

theorem exec_prickLoadClose_closes {h : Hdr} {k : Nat} {x : Prick} {s : State}
    (ha : s.accepts Op.prickLoad false = true) (hk : k ≤ 255) (hx : s.prick k = some x) (hl : x.loaded = false) :
    exec (.prickLoadClose h k) s = .next (prickCloseDo h k (s.advance h.t)) :=
  (exec_prickLoadClose h k s).trans (hostCommand_accepted (prickParams_eq_none.mpr ⟨hk, rfl⟩) ha
    (prickOpenOnly_passes (s := s.advance h.t) hx hl))

theorem prickCloseDo_verified {h : Hdr} {k : Nat} {x : Prick} {s : State} (hx : s.prick k = some x)
    (hv : x.verify = none) :
    prickCloseDo h k s = (s.setPrick k (some { x with loaded := true })).done h Op.prickLoad 2 [] := by
  simp only [prickCloseDo, hx, Option.bind_some, hv]
  rw [State.modPrick_some hx]

theorem prickCloseDo_failed {h : Hdr} {k : Nat} {x : Prick} {r : Reject} {s : State} (hx : s.prick k = some x)
    (hv : x.verify = some r) : prickCloseDo h k s = (s.setPrick k none).refuse h Op.prickLoad 2 r := by
  simp only [prickCloseDo, hx, Option.bind_some, hv]

theorem exec_prickLoadDiscard_frees {h : Hdr} {k : Nat} {x : Prick} {s : State}
    (ha : s.accepts Op.prickLoad false = true) (hk : k ≤ 255) (hx : s.prick k = some x) (hu : s.prickUser k = none) :
    exec (.prickLoadDiscard h k) s = .next (((s.advance h.t).setPrick k none).done h Op.prickLoad 3 []) := by
  have hx' : (s.advance h.t).prick k = some x := hx
  have hu' : (s.advance h.t).prickUser k = none := hu
  refine (exec_prickLoadDiscard h k s).trans (hostCommand_accepted (prickParams_eq_none.mpr ⟨hk, rfl⟩) ha ?_)
  rw [firstOf_cons_eq_none, firstOf_cons_eq_none, require_eq_none, hx', hu']
  exact ⟨rfl, rfl, rfl⟩

/-- What a refusal after a number is freed leaves: its reply, and the other numbers. -/
theorem State.freed_refused (h : Hdr) (k form : Nat) (r : Reject) (s : State) :
    let t := ((s.advance h.t).setPrick k none).refuse h Op.prickLoad form r
    Replied h Op.prickLoad r.status r.payload s t ∧ t.prick k = none ∧ (∀ j, j ≠ k → t.prick j = s.prick j)
      ∧ t = { s with now := max s.now h.t, pricks := t.pricks, queues := t.queues, mgmt := t.mgmt } := by
  intro t
  have hpricks : t.pricks = ((s.advance h.t).setPrick k none).pricks := by simp only [t, State.refuse_frame]
  have hp (j : Nat) : t.prick j = ((s.advance h.t).setPrick k none).prick j :=
    congrArg (fun l => tget (fun _ => none) l j) hpricks
  refine ⟨(State.refuse_replied h Op.prickLoad form r _).of_queues rfl, ?_, fun j hj => ?_, ?_⟩
  · rw [hp, State.prick_setPrick_same]
  · rw [hp, State.prick_setPrick, if_neg hj]
    rfl
  · rw [hpricks]
    exact State.refuse_eq h Op.prickLoad form r ((s.advance h.t).setPrick k none)

/-- Settles O51: each form by its checks and its effect on the number it names. -/
theorem prickings : Obligations.Prickings := by
  unfold Obligations.Prickings
  refine ⟨fun h k n s ha hk hlo hhi hfree hroom hopen => ?_, fun h k n x s ha hk hlo hhi hx => ?_,
    fun h k o b x s ha hk ho hx hl hfit => ?_, fun h k x s ha hk hx hl hv => ?_, fun h k x r s ha hk hx hl hv => ?_,
    fun h k x s ha hk hx hu => ?_⟩
  case _ => exact Answers.of_done (exec_prickLoadOpen_reserves ha hk hlo hhi hfree hroom hopen)
  case _ => exact Refuses.of_refuse (exec_prickLoadOpen_inUse ha hk hlo hhi hx)
  case _ =>
    exact ⟨x.write o b, x.write_bytes o b, rfl, Answers.of_done (exec_prickLoadData_writes ha hk ho hx hl hfit)⟩
  case _ =>
    exact Answers.of_done ((exec_prickLoadClose_closes ha hk hx hl).trans
      (congrArg Host.Outcome.next (prickCloseDo_verified (s := s.advance h.t) hx hv)))
  case _ =>
    exact ⟨_, (exec_prickLoadClose_closes ha hk hx hl).trans
      (congrArg Host.Outcome.next (prickCloseDo_failed (s := s.advance h.t) hx hv)), State.freed_refused h k 2 r s⟩
  case _ => exact Answers.of_done (exec_prickLoadDiscard_frees ha hk hx hu)

end Sys2Proof.Machine
end

section

/-! PROOF. O22: the dispatcher reads a packet and hands it on, holds it, or hands on the held one (R412 to R417). -/

namespace Sys2Proof.Machine

/-! ## The read -/

/-- The packet that the dispatcher hands on. -/
def QPacket.command (p : QPacket) : CmdPacket := { prio := p.prio, tag := p.tag, data := p.data }

/-- The state after the read of the packet that R265 selects, no word of it in error. -/
def State.frontTaken (p : QPacket) (rest : List QPacket) (s : State) : State :=
  (s.wordsCorrected 0 0).putQueue 0 { (s.wordsCorrected 0 0).queue 0 with vis := rest, last := p.lastItem }

theorem State.frontTaken_eq (p : QPacket) (rest : List QPacket) (s : State) : s.frontTaken p rest =
    { s with queues := (s.frontTaken p rest).queues, sdio := (s.frontTaken p rest).sdio } :=
  State.eq_of_parts (by
    simp only [State.frontTaken, State.putQueue_frame, State.wordsCorrected_frame, and_self])

theorem State.frontTaken_vis (p : QPacket) (rest : List QPacket) (s : State) :
    ((s.frontTaken p rest).queue 0).vis = rest :=
  congrArg Queue.vis ((State.putQueue_queue 0 0 _ _).trans (if_pos rfl))

theorem State.readCommand_clean {p : QPacket} {rest : List QPacket} {s : State}
    (hsel : selectPacket (s.queue 0).vis = some (p, rest)) :
    s.readCommand .clean = (s.frontTaken p rest).handOn p.command := by
  have hvis : ((s.wordsCorrected 0 0).queue 0).vis = (s.queue 0).vis := by
    rw [State.wordsCorrected, State.queue_modQueue, if_pos rfl]
  have hsel' : selectPacket ((s.wordsCorrected 0 0).queue 0).vis = some (p, rest) := hvis ▸ hsel
  have htake : (s.wordsCorrected 0 0).takeClean 0 = (some p, s.frontTaken p rest) := by
    simp only [State.takeClean, hsel', State.frontTaken]
  simp only [State.readCommand, hsel, WordEcc.words, WordEcc.lost, Bool.not_false, if_true, State.readClean, hsel',
    htake, QPacket.command]

/-! ## Handing on -/

/-- The state with the packet in hand for the fast decoder. -/
def State.fastTakes (c : CmdPacket) (s : State) : State := { s with mgmt := { s.mgmt with fast := s.mgmt.fast ++ [c] } }

/-- The state with the packet in hand for core k. -/
def State.coreTakes (k : Nat) (c : CmdPacket) (s : State) : State :=
  { s with mgmt := { s.mgmt with busy := tset (fun _ => none) k (some c) s.mgmt.busy } }

/-- The state with the packet held. -/
def State.holds (c : CmdPacket) (s : State) : State := { s with mgmt := { s.mgmt with held := s.mgmt.held ++ [c] } }

theorem State.coreCmd_coreTakes (k j : Nat) (c : CmdPacket) (s : State) :
    (s.coreTakes k c).coreCmd j = if j = k then some c else s.coreCmd j := by
  rw [State.coreCmd, State.coreCmd]
  exact tget_tset (fun _ => none) k (some c) s.mgmt.busy j

section

variable {c : CmdPacket} {s : State}

theorem State.handCore_takes (k : Nat) (hc : checkPacket c.data = none) : s.handCore k c = s.coreTakes k c := by
  simp only [State.handCore, hc, State.coreTakes]

/-- A packet that does not wait for the commands before it passes the test of ORDER (R415). -/
theorem CmdPacket.goes (ho : c.ordered = false ∨ s.inHand = false) (hh : s.mgmt.held = []) :
    ¬ (c.ordered && (s.inHand || !s.mgmt.held.isEmpty)) = true := by
  rcases ho with ho | ho <;> simp [ho, hh]

theorem State.handOn_fast (ho : c.ordered = false ∨ s.inHand = false) (hh : s.mgmt.held = [])
    (hf : s.goesFast c.data = true) (hc : checkPacket c.data = none) : s.handOn c = s.fastTakes c := by
  rw [State.handOn, if_neg (CmdPacket.goes ho hh), if_pos hf, State.handFast, hc]
  rfl

theorem State.handOn_core {k : Nat} (ho : c.ordered = false ∨ s.inHand = false) (hh : s.mgmt.held = [])
    (hf : s.goesFast c.data = false) (hk : s.freeCore = some k) (hc : checkPacket c.data = none) :
    s.handOn c = s.coreTakes k c := by
  rw [State.handOn, if_neg (CmdPacket.goes ho hh), hf, if_neg Bool.false_ne_true, hk]
  exact State.handCore_takes k hc

theorem State.handOn_holds (ho : c.ordered = true) (hi : s.inHand = true) : s.handOn c = s.holds c := by
  rw [State.handOn, if_pos (by simp [ho, hi])]
  rfl

/-- A held packet that does not wait is handed to a core that has become free (R412, R415). -/
theorem State.dispatchHeld_core {k : Nat} {rest : List CmdPacket} {ecc : WordEcc}
    (ho : c.ordered = false ∨ s.inHand = false) (hf : s.goesFast c.data = false) (hk : s.freeCore = some k)
    (hc : checkPacket c.data = none) :
    s.dispatchHeld c rest ecc = ({ s with mgmt := { s.mgmt with held := rest } } : State).coreTakes k c := by
  have hgo : ¬ (c.ordered && s.inHand) = true := by rcases ho with ho | ho <;> simp [ho]
  simp only [State.dispatchHeld, if_neg hgo, hf, Bool.false_eq_true, if_false, hk]
  exact State.handCore_takes k hc

end

/-! ## DISPATCH -/

/-- The dispatcher acts outside reset, but for the time between the firmware's start and state 1 (R482). -/
theorem dispatch_guard {n : Nat} {s : State} (hu : s.up = true)
    (hd : s.mgmt.devState ≠ 0 ∨ s.mgmt.fwStarted = false) :
    ¬ (!(s.advance n).up || (s.advance n).mgmt.devState == 0 && (s.advance n).mgmt.fwStarted) = true := by
  rcases hd with hd | hd <;> simp [hu, hd]

/-- The state after a read that changed the command queue and the SDIO registers. -/
def State.readBy (n : Nat) (qs : Tbl Queue) (d : Sdio) (s : State) : State :=
  { s with now := max s.now n, queues := qs, sdio := d }

/-- A read changes the command queue and the SDIO registers, and hands the packet on. -/
theorem exec_dispatch_reads {n : Nat} {p : QPacket} {rest : List QPacket} {s : State} (hu : s.up = true)
    (hd : s.mgmt.devState ≠ 0 ∨ s.mgmt.fwStarted = false) (hh : s.mgmt.held = [])
    (hsel : selectPacket (s.queue 0).vis = some (p, rest)) :
    ∃ (qs : Tbl Queue) (d : Sdio), exec (.dispatch n .clean) s =
        .next ((s.readBy n qs d).handOn p.command)
      ∧ ((s.readBy n qs d).queue 0).vis = rest := by
  have hh' : (s.advance n).mgmt.held = [] := hh
  refine ⟨((s.advance n).frontTaken p rest).queues, ((s.advance n).frontTaken p rest).sdio, ?_,
    (s.advance n).frontTaken_vis p rest⟩
  simp only [exec_dispatch, execDispatch, if_neg (dispatch_guard (n := n) hu hd), hh',
    State.readCommand_clean (s := s.advance n) hsel]
  exact congrArg (fun t : State => Host.Outcome.next (t.handOn p.command)) (State.frontTaken_eq ..)

theorem exec_dispatch_held {n : Nat} {c : CmdPacket} {rest : List CmdPacket} {ecc : WordEcc} {s : State}
    (hu : s.up = true) (hd : s.mgmt.devState ≠ 0) (hh : s.mgmt.held = c :: rest) :
    exec (.dispatch n ecc) s = .next ((s.advance n).dispatchHeld c rest ecc) := by
  have hh' : (s.advance n).mgmt.held = c :: rest := hh
  simp only [exec_dispatch, execDispatch, if_neg (dispatch_guard (n := n) hu (.inl hd)), hh']

/-- Settles O22: a read is handed on in one of three ways, and a held packet goes to the core that is free. -/
theorem dispatcher : Obligations.Dispatcher := by
  unfold Obligations.Dispatcher
  refine ⟨fun n p rest s hu hfw hh hsel ho hc hf => ?_, fun n k p rest s hu hd hh hsel ho hc hf hk => ?_,
    fun n p rest s hu hd hh hsel ho hi => ?_, fun n k c rest ecc s hu hd hh hk hf ho hc => ?_⟩
  case _ =>
    obtain ⟨qs, d, hexec, hvis⟩ := exec_dispatch_reads (n := n) hu (.inr hfw) hh hsel
    have hon := State.handOn_fast (c := p.command) (s := s.readBy n qs d) ho hh hf hc
    exact ⟨_, hexec.trans (congrArg Host.Outcome.next hon), hvis, rfl, rfl⟩
  case _ =>
    obtain ⟨qs, d, hexec, hvis⟩ := exec_dispatch_reads (n := n) hu (.inl hd) hh hsel
    have hon := State.handOn_core (c := p.command) (s := s.readBy n qs d) ho hh hf hk hc
    exact ⟨_, hexec.trans (congrArg Host.Outcome.next hon), hvis, (State.coreCmd_coreTakes ..).trans (if_pos rfl),
      fun j hj => (State.coreCmd_coreTakes ..).trans (if_neg hj), rfl⟩
  case _ =>
    obtain ⟨qs, d, hexec, hvis⟩ := exec_dispatch_reads (n := n) hu (.inl hd) hh hsel
    have hon := State.handOn_holds (c := p.command) (s := s.readBy n qs d) ho hi
    refine ⟨_, hexec.trans (congrArg Host.Outcome.next hon), hvis, ?_, rfl⟩
    exact congrArg (fun l => { s.mgmt with held := l ++ [p.command] }) hh
  case _ =>
    have hon := State.dispatchHeld_core (s := s.advance n) (rest := rest) (ecc := ecc) ho hf hk hc
    exact ⟨_, (exec_dispatch_held hu hd hh).trans (congrArg Host.Outcome.next hon),
      (State.coreCmd_coreTakes ..).trans (if_pos rfl), rfl, rfl⟩

end Sys2Proof.Machine
end

section

/-! PROOF. O18: the SDIO card's commands, function 0, the transport bytes, aborts and the I/O reset. -/

namespace Sys2Proof.Machine

/-! ## The card's commands (R379 to R381, R400, R401) -/

section

variable {n : Nat} {s : State}

@[simp] theorem State.advance_sdio (n : Nat) (s : State) : (s.advance n).sdio = s.sdio := rfl

theorem exec_cmd0_idles (hs : (s.advance n).sdServes = true) (hc : s.sdio.card ≠ .inactive) :
    exec (.cmd0 n) s = .next { s with
      now := max s.now n, sdio := { s.sdio with card := .idle, rca := 0, resp := .silent } } := by
  have hgo : ((s.advance n).sdServes && (s.advance n).sdio.card != .inactive) = true := by
    simpa [hs] using hc
  exact congrArg Host.Outcome.next (if_pos hgo)

/-- From 5 ms after the reset's end the card is ready (R401). -/
theorem State.cardReady_late (h : s.mgmt.resetAt + 5_000_000 ≤ s.now) : s.cardReady = (true, s) :=
  if_pos (by omega)

theorem exec_cmd5_initialises (hs : (s.advance n).sdServes = true)
    (hc : s.sdio.card = .idle ∨ s.sdio.card = .initialised) (ht : s.mgmt.resetAt + 5_000_000 ≤ max s.now n) :
    exec (.cmd5 n) s = .next { s with
      now := max s.now n, sdio := { s.sdio with card := .initialised, resp := .cmd5 true 2 false s.sd18 } } := by
  have hgo : ((s.advance n).sdServes && ((s.advance n).sdio.card == .idle || (s.advance n).sdio.card == .initialised))
      = true := by simpa [hs] using hc
  have hready : (s.advance n).cardReady = (true, s.advance n) := State.cardReady_late ht
  refine congrArg Host.Outcome.next ((if_pos hgo).trans ?_)
  simp only [State.cmd5, hready, if_true]
  rfl

/-- The address that CMD3 publishes is never 0. -/
theorem rca_ne_zero (w : BitVec 16) : (if w = 0#16 then 1 else w) ≠ 0 := by
  split
  · decide
  · assumption

theorem exec_cmd3_publishes (hs : (s.advance n).sdServes = true)
    (hc : s.sdio.card = .initialised ∨ s.sdio.card = .standby) :
    ∃ r, r ≠ 0 ∧ exec (.cmd3 n) s = .next { s with
      now := max s.now n, free := s.free + 1
      sdio := { s.sdio with card := .standby, rca := r, resp := .address r } } := by
  have hgo : ((s.advance n).sdServes
      && ((s.advance n).sdio.card == .initialised || (s.advance n).sdio.card == .standby)) = true := by
    simpa [hs] using hc
  exact ⟨_, rca_ne_zero ((Config.freeWord s.free).truncate 16), if_pos hgo⟩

theorem exec_cmd7_selects (hs : (s.advance n).sdServes = true) (hc : s.sdio.card = .standby) :
    exec (.cmd7 n true) s = .next { s with
      now := max s.now n, sdio := { s.sdio with card := .selected, resp := .ack } } := by
  have hc' : (s.advance n).sdio.card = .standby := hc
  simp only [exec_cmd7, execCmd7, hs, hc', Bool.not_true, Bool.false_eq_true, if_false, beq_self_eq_true, Bool.and_self,
    if_true]
  rfl

theorem exec_cmd7_deselects (hs : (s.advance n).sdServes = true) (hc : s.sdio.card = .selected) :
    exec (.cmd7 n false) s = .next { s with
      now := max s.now n, sdio := { s.sdio with card := .standby, resp := .silent } } := by
  have hc' : (s.advance n).sdio.card = .selected := hc
  simp only [exec_cmd7, execCmd7, hs, hc', Bool.not_true, Bool.false_eq_true, if_false, Bool.false_and, Bool.not_false,
    beq_self_eq_true, Bool.and_self, if_true]
  rfl

theorem exec_cmd11_switches (hs : (s.advance n).sdServes = true) (hv : s.sd18 = true)
    (hc : s.sdio.card = .initialised) :
    exec (.cmd11 n) s = .next { s with
      now := max s.now n, sdio := { s.sdio with uhs := true, resp := .ack } } := by
  have hgo : ((s.advance n).sdServes && (s.advance n).sd18 && (s.advance n).sdio.card == .initialised) = true := by
    rw [hs, show (s.advance n).sd18 = true from hv, show (s.advance n).sdio.card = .initialised from hc]
    rfl
  exact congrArg Host.Outcome.next (if_pos hgo)

theorem exec_cmd15_inactivates (hs : (s.advance n).sdServes = true)
    (hc : s.sdio.card = .standby ∨ s.sdio.card = .selected) :
    exec (.cmd15 n) s = .next { s with
      now := max s.now n, sdio := { s.sdio with card := .inactive, resp := .silent } } := by
  have hgo : ((s.advance n).sdServes && ((s.advance n).sdio.card == .standby || (s.advance n).sdio.card == .selected))
      = true := by simpa [hs] using hc
  exact congrArg Host.Outcome.next (if_pos hgo)

theorem exec_cmd19_tunes (hs : (s.advance n).sdSelected = true) (hu : s.sdio.uhs = true) :
    exec (.cmd19 n) s = .next { s with
      now := max s.now n, sdio := { s.sdio with tuned := true, resp := .ack } } :=
  congrArg Host.Outcome.next (if_pos (Bool.and_eq_true_iff.mpr ⟨hs, hu⟩))

end

/-! ## Function 0 and the transport bytes (R384, R391, R397) -/

section

variable {n : Nat} {s : State}

/-- The byte that a register of eight bits reads. -/
theorem leBytes_one_toNat (v : Byte) : leBytes 1 v.toNat = [v] := by
  rw [leBytes, BitVec.ofNat_toNat, BitVec.setWidth_eq, leBytes]

/-- The lowest three bits of a byte. -/
theorem ofNat_mod_eight (v : Byte) : BitVec.ofNat 8 (v.toNat % 8) = v &&& 0b111 := by
  refine BitVec.eq_of_toNat_eq ?_
  rw [BitVec.toNat_and, BitVec.toNat_ofNat, show (0b111 : Byte).toNat = 2 ^ 3 - 1 from rfl,
    Nat.and_two_pow_sub_one_eq_mod]
  omega

theorem exec_cccrWrite_ioEnable {v : Byte} (hs : (s.advance n).sdSelected = true) :
    exec (.cccrWrite n 0x02 v) s = .next { s with
      now := max s.now n
      sdio := { s.sdio with resp := .r5 false, ioEnable := v &&& 0b110, ioReady := v &&& 0b110 } } := by
  have hv : BitVec.ofNat 8 v.toNat = v := by rw [BitVec.ofNat_toNat, BitVec.setWidth_eq]
  simp only [exec_cccrWrite, execCccrWrite, if_pos hs, State.cccrWrite, if_true, hv]
  rfl

/-- A transport byte of a function that can be reached is written after the card's answer. -/
theorem exec_transportByteWrite_acts {fn addr : Nat} {v : Byte} (hs : (s.advance n).sdFunction fn = true) :
    exec (.transportByteWrite n fn addr v) s = .next (
      let t : State := { s.advance n with sdio := { s.sdio with resp := .r5 false } }
      if fn = 1 then t.f1Write addr v.toNat else if fn = 2 then t.f2Write addr v.toNat else t) := by
  simp only [exec_transportByteWrite, execTransportByteWrite, hs, Bool.not_true, Bool.false_eq_true, if_false]
  rfl

theorem exec_transportByteWrite_intEn {v : Byte} (hs : (s.advance n).sdFunction 1 = true) :
    exec (.transportByteWrite n 1 0x1001 v) s = .next { s with
      now := max s.now n, sdio := { s.sdio with resp := .r5 false, f1IntEn := v &&& 0b111 } } := by
  rw [exec_transportByteWrite_acts hs, ← ofNat_mod_eight]
  rfl

theorem w1c_byte (v : Byte) (i : Nat) (b : Bool) : w1c v.toNat i b = (b && !v.getLsbD i) := by
  rw [w1c, bitOf_toNat]

theorem exec_transportByteWrite_stat {v : Byte} (hs : (s.advance n).sdFunction 2 = true) :
    exec (.transportByteWrite n 2 0x1000 v) s = .next { s with
      now := max s.now n, sdio := { s.sdio with resp := .r5 false }
      bulk := { s.bulk with
        excess := s.bulk.excess && !v.getLsbD 3, noxfer := s.bulk.noxfer && !v.getLsbD 4
        aborted := s.bulk.aborted && !v.getLsbD 5 } } := by
  rw [exec_transportByteWrite_acts hs, ← w1c_byte, ← w1c_byte, ← w1c_byte]
  rfl

theorem exec_transportByteRead_crcCnt (hs : (s.advance n).sdFunction 1 = true) :
    exec (.transportByteRead n 1 0x100A) s = .next { s with
      now := max s.now n
      sdio := { s.sdio with crcCnt := 0, resp := .r5 false, readOut := [BitVec.ofNat 8 s.sdio.crcCnt] } } := by
  simp only [exec_transportByteRead, execTransportByteRead, Nat.one_ne_zero, if_false, hs, Bool.not_true,
    Bool.false_eq_true, if_true]
  rfl

theorem exec_transportByteRead_ioReady (hs : (s.advance n).sdSelected = true) :
    exec (.transportByteRead n 0 0x03) s = .next { s with
      now := max s.now n, sdio := { s.sdio with resp := .r5 false, readOut := [s.sdio.ioReady] } } := by
  rw [← leBytes_one_toNat]
  simp only [exec_transportByteRead, execTransportByteRead, if_true, hs, Bool.not_true, Bool.false_eq_true, if_false]
  rfl

/-! ## Aborts and the I/O reset (R387, R396) -/

theorem exec_ioAbort_acts {fn : Nat} {inCmd : Bool} (hs : (s.advance n).sdSelected = true) :
    exec (.ioAbort n fn inCmd) s = .next ((s.advance n).ioAbort fn inCmd) :=
  congrArg Host.Outcome.next (if_pos hs)

theorem State.ioAbort_transfer {x : Xfer} (hx : s.bulk.xfer = some x) :
    s.ioAbort 2 true = { s with bulk := { s.bulk with aborted := true } } := by
  simp [State.ioAbort, hx]

/-- An open trim transfer that an I/O reset ends replies XFER_ABORTED (R424). -/
theorem State.endXfer_trim {x : Xfer} (hx : s.bulk.xfer = some x) (hk : x.kind = 3 ∨ x.kind = 4) :
    s.endXfer = ({ s with bulk := { s.bulk with xfer := none } } : State).reply x.hdr x.opcode 0
      Status.xferAborted [] := by
  simp only [State.endXfer, hx, if_pos hk]

theorem State.reply_sdio (h : Hdr) (op form status : Nat) (b : Bytes) (s : State) :
    (s.reply h op form status b).sdio = s.sdio := State.present_sdio 1 (by decide) _ s

theorem State.reply_queue (h : Hdr) (op form status : Nat) (b : Bytes) (s : State) :
    (s.reply h op form status b).queue 1 = (s.queue 1).joined 1 {
      prio := h.prio, writer := s.replyWriter op form h.tag, tag := h.tag
      data := replyBytes op status s.now h.tag b } :=
  (State.present_queue 1 1 _ s).trans (if_pos rfl)

theorem State.dropPartRead_sdio (s : State) : s.dropPartRead.sdio = s.sdio := State.putQueue_sdio (by decide) _ s

theorem State.dropPartRead_queue (s : State) : s.dropPartRead.queue 1 = { s.queue 1 with
    part := none, last := noItem, dropped := satAdd 0xFFFF (s.queue 1).dropped (s.queue 1).partItems } :=
  (State.putQueue_queue 1 1 _ s).trans (if_pos rfl)

/-- What an I/O reset leaves with a trim transfer open. -/
theorem State.ioReset_trim {x : Xfer} (hx : s.bulk.xfer = some x) (hk : x.kind = 3 ∨ x.kind = 4) :
    s.ioReset.bulk = { aborted := true, arrived := s.bulk.arrived, image := s.bulk.image }
      ∧ s.ioReset.sdio = { noteLost := s.sdio.noteLost, crcCnt := s.sdio.crcCnt, mailbox := s.sdio.mailbox,
                           notes := s.sdio.notes, uhs := s.sdio.uhs }
      ∧ (s.ioReset.queue 1).part = none
      ∧ (s.ioReset.queue 1).vis = ((s.queue 1).joined 1 {
          prio := x.hdr.prio, writer := s.replyWriter x.opcode 0 x.hdr.tag, tag := x.hdr.tag
          data := replyBytes x.opcode Status.xferAborted s.now x.hdr.tag [] }).vis
      ∧ s.ioReset = { s with sdio := s.ioReset.sdio, bulk := s.ioReset.bulk, queues := s.ioReset.queues } := by
  have hend := State.endXfer_trim hx hk
  have hqueue : s.ioReset.queue 1 = s.endXfer.dropPartRead.queue 1 := rfl
  refine ⟨?_, ?_, ?_, ?_, State.eq_of_parts ?_⟩
  · simp only [State.ioReset, State.dropPartRead_frame, hend, State.reply_frame, hx, Option.isSome_some]
  · simp only [State.ioReset, State.dropPartRead_sdio, hend, State.reply_sdio]
  · rw [hqueue, State.dropPartRead_queue]
  · rw [hqueue, State.dropPartRead_queue, hend, State.reply_queue]
    rfl
  · simp only [State.ioReset, State.dropPartRead_frame, hend, State.reply_frame, and_self]

end

/-- Settles O18: each form by the test of its meaning and what it then writes. -/
theorem sdioCard : Obligations.SdioCard := by
  unfold Obligations.SdioCard
  refine ⟨fun n s => exec_cmd0_idles, fun n s => exec_cmd5_initialises, fun n s => exec_cmd3_publishes,
    fun n s => exec_cmd7_selects, fun n s => exec_cmd7_deselects, fun n s => exec_cmd11_switches,
    fun n s => exec_cmd15_inactivates, fun n s => exec_cmd19_tunes, fun n v s => exec_cccrWrite_ioEnable,
    fun n v s => exec_transportByteWrite_intEn, fun n v s => exec_transportByteWrite_stat,
    fun n s => exec_transportByteRead_crcCnt, fun n s => exec_transportByteRead_ioReady,
    fun n inCmd s hs => exec_ioAbort_acts hs, fun n x s hs hx => ?_, fun n x s hs hx hk => ?_⟩
  case _ => exact (exec_ioAbort_acts hs).trans (congrArg _ (State.ioAbort_transfer (s := s.advance n) hx))
  case _ =>
    obtain ⟨hbulk, hsdio, hpart, hvis, heq⟩ := State.ioReset_trim (s := s.advance n) hx hk
    exact ⟨_, _, congrArg Host.Outcome.next (if_pos hs), hbulk, hsdio, hpart, hvis, heq⟩

end Sys2Proof.Machine
end

section

/-! PROOF. O19: the mailbox and the reply window (R383, R385 to R389). -/

namespace Sys2Proof.Machine

/-! ## The mailbox -/

section

variable {n : Nat} {d : Bytes} {s : State}

theorem inRange_of_le {a b c : Nat} (h : a ≤ b) (k : b ≤ c) : inRange a b c = true := by
  simp [inRange, h, k]

theorem State.sdAnswer_queue (c : CardState) (r : SdResp) (q : Nat) (s : State) :
    (s.sdAnswer c r).queue q = s.queue q := rfl

/-- A whole packet in the mailbox is taken where none is held, and answered (R386). -/
theorem exec_mailboxWrite_takes (hs : (s.advance n).sdFunction 1 = true) (hlo : 1 ≤ d.length) (hhi : d.length ≤ 512)
    (hm : s.sdio.mailbox = none) :
    exec (.mailboxWrite n d true) s = .next (((s.advance n).mailboxTake d).sdAnswer .selected (.crcStatus true)) := by
  have hm' : (s.advance n).sdio.mailbox = none := hm
  simp only [exec_mailboxWrite, execMailboxWrite, hs, inRange_of_le hlo hhi, hm', Option.isSome_none, Bool.not_true,
    Bool.false_eq_true, if_false]

theorem exec_mailboxWrite_waits {p : QPacket} (hs : (s.advance n).sdFunction 1 = true) (hlo : 1 ≤ d.length)
    (hhi : d.length ≤ 512) (hm : s.sdio.mailbox = some p) :
    exec (.mailboxWrite n d true) s = .next ((s.advance n).mailboxWait d) := by
  have hm' : (s.advance n).sdio.mailbox = some p := hm
  simp only [exec_mailboxWrite, execMailboxWrite, hs, inRange_of_le hlo hhi, hm', Option.isSome_some, Bool.not_true,
    Bool.false_eq_true, if_false, if_true]

theorem State.mailboxTake_fits (hw : (s.queue 0).wpart = none)
    (hf : (s.queue 0).fits 0 (mailboxPacket d).items = true) :
    s.mailboxTake d = s.putQueue 0 { s.queue 0 with vis := (s.queue 0).vis ++ [mailboxPacket d] } := by
  simp only [State.mailboxTake, hw, hf, Option.isNone_none, Bool.and_self, if_true]

/-- A packet that does not fit is held with the busy on (R387). -/
theorem State.mailboxTake_held (hf : (s.queue 0).fits 0 (mailboxPacket d).items = false) :
    s.mailboxTake d = ({ s with sdio := { s.sdio with mailbox := some (mailboxPacket d), mbxBusy := true } }).modQueue 0
      fun y => { y with fullSeen := true } := by
  simp only [State.mailboxTake, hf, Bool.and_false, Bool.false_eq_true, if_false]

theorem State.mailboxWait_next (hn : s.sdio.mbxNext = none) :
    s.mailboxWait d = { s with sdio := { s.sdio with
      mbxBusy := true, mbxNext := some (mailboxPacket d), resp := .crcStatus true } } := by
  simp only [State.mailboxWait, hn, Option.getD_none]

/-- A queue put back changes the SDIO registers in the credit flag alone (R391). -/
theorem State.putQueue_mailbox (q : Nat) (x : Queue) (s : State) :
    (s.putQueue q x).sdio.mailbox = s.sdio.mailbox ∧ (s.putQueue q x).sdio.mbxBusy = s.sdio.mbxBusy := by
  unfold State.putQueue
  dsimp only
  split <;> exact ⟨rfl, rfl⟩

/-- The state in which the held packet has left the mailbox, a further write's packet next to be held. -/
def State.mailboxFreed (s : State) : State :=
  { s with sdio := { s.sdio with mailbox := s.sdio.mbxNext, mbxBusy := s.sdio.mbxNext.isSome, mbxNext := none } }

theorem State.mailboxEnter_fits {p : QPacket} (hm : s.sdio.mailbox = some p) (hw : (s.queue 0).wpart = none)
    (hf : (s.queue 0).fits 0 p.items = true) :
    s.mailboxEnter = s.mailboxFreed.putQueue 0 { s.queue 0 with vis := (s.queue 0).vis ++ [p] } := by
  simp only [State.mailboxEnter, hm, hw, hf, Option.isNone_none, Bool.and_self, if_true, State.mailboxFreed]

theorem State.mailboxEnter_empty (hm : s.sdio.mailbox = none) : s.mailboxEnter = s := by
  simp only [State.mailboxEnter, hm]

/-- With no further write waiting, one packet enters and the mailbox is empty. -/
theorem State.grantMailbox_one {p : QPacket} (hm : s.sdio.mailbox = some p) (hn : s.sdio.mbxNext = none)
    (hw : (s.queue 0).wpart = none) (hf : (s.queue 0).fits 0 p.items = true) :
    s.grantMailbox = s.mailboxFreed.putQueue 0 { s.queue 0 with vis := (s.queue 0).vis ++ [p] } := by
  have hgone : (s.mailboxFreed.putQueue 0 { s.queue 0 with vis := (s.queue 0).vis ++ [p] }).sdio.mailbox = none :=
    (State.putQueue_mailbox ..).1.trans hn
  rw [State.grantMailbox, State.mailboxEnter_fits hm hw hf, State.mailboxEnter_empty hgone]

end

/-! ## The reply window -/

section

variable {n k : Nat} {p : QPacket} {rest : List QPacket} {s : State}

theorem exec_replyWindowRead_reads {ecc : WordEcc} (hs : (s.advance n).sdFunction 1 = true) (hlo : 1 ≤ k)
    (hhi : k ≤ 512) : exec (.replyWindowRead n k ecc) s = .next ((s.advance n).windowRead k ecc) := by
  simp only [exec_replyWindowRead, execReplyWindowRead, hs, inRange_of_le hlo hhi, Bool.not_true, Bool.false_eq_true,
    if_false]

theorem sliceBytes_whole {b : Bytes} (h : b.length ≤ k) :
    sliceBytes 0 k b = b ++ List.replicate (k - b.length) 0 := by
  rw [sliceBytes, List.drop_zero, List.take_of_length_le h]

/-- A packet delivered to its end leaves the window: its bytes are read, and zeros past them (R388). -/
theorem State.deliver_whole (h : p.data.length ≤ k) :
    s.deliver p 0 k = ({ s with sdio := { s.sdio with
      readOut := p.data ++ List.replicate (k - p.data.length) 0, resp := .r5 false } } : State).putQueue 1
        { s.queue 1 with part := none, last := p.lastItem } := by
  rw [← sliceBytes_whole h]
  exact if_pos (by rwa [Nat.zero_add])

/-- A read with no packet partly read takes the one that R265 selects. -/
theorem State.windowClean_next (hp : (s.queue 1).part = none)
    (hsel : selectPacket (s.queue 1).vis = some (p, rest)) :
    s.windowClean k = (s.putQueue 1 { s.queue 1 with vis := rest }).deliver p 0 k := by
  simp only [State.windowClean, hp, hsel]

/-- A read of an empty window answers the last item again and sets UNDERRUN (R389). -/
theorem State.windowClean_empty (hp : (s.queue 1).part = none) (hv : (s.queue 1).vis = []) :
    s.windowClean k = ({ s with sdio := { s.sdio with
      underrun := true, resp := .r5 false, readOut := sliceBytes 0 k (s.queue 1).last.data } } : State).putQueue 1
        { s.queue 1 with underrun := true } := by
  simp only [State.windowClean, hp, hv, selectPacket]

/-- A read with no word in error reads after the count of corrected words. -/
theorem State.windowRead_clean (hv : (s.queue 1).vis ≠ []) :
    s.windowRead k .clean = (s.wordsCorrected 1 0).windowClean k := by
  have hgo : ¬ ((s.queue 1).part.isNone && decide ((s.queue 1).vis = [])) = true := by simp [hv]
  simp only [State.windowRead, if_neg hgo, WordEcc.lost, WordEcc.words]

theorem State.windowRead_empty (hp : (s.queue 1).part = none) (hv : (s.queue 1).vis = []) :
    s.windowRead k .clean = s.windowClean k := by
  simp [State.windowRead, hp, hv, WordEcc.lost]

theorem ne_nil_of_selectPacket {l : List QPacket} (h : selectPacket l = some (p, rest)) : l ≠ [] := by
  rintro rfl
  cases h

/-- What a read of a whole packet leaves. -/
theorem State.windowRead_whole (hp : (s.queue 1).part = none) (hsel : selectPacket (s.queue 1).vis = some (p, rest))
    (hk : p.data.length ≤ k) :
    (s.windowRead k .clean).sdio.readOut = p.data ++ List.replicate (k - p.data.length) 0
      ∧ ((s.windowRead k .clean).queue 1).vis = rest ∧ ((s.windowRead k .clean).queue 1).part = none
      ∧ ((s.windowRead k .clean).queue 1).last = p.lastItem
      ∧ (∀ q, q ≠ 1 → (s.windowRead k .clean).queue q = s.queue q)
      ∧ s.windowRead k .clean = { s with
          queues := (s.windowRead k .clean).queues, sdio := (s.windowRead k .clean).sdio } := by
  have hone : (s.wordsCorrected 1 0).queue 1 = { s.queue 1 with ce := satAdd 0xFFFF (s.queue 1).ce 0 } :=
    (State.wordsCorrected_queue 1 1 0 s).trans (if_pos rfl)
  have hread : s.windowRead k .clean = ((s.wordsCorrected 1 0).putQueue 1
      { (s.wordsCorrected 1 0).queue 1 with vis := rest }).deliver p 0 k := by
    rw [State.windowRead_clean (ne_nil_of_selectPacket hsel)]
    exact State.windowClean_next (by rw [hone]; exact hp) (by rw [hone]; exact hsel)
  have hone' := (State.putQueue_queue 1 1 { (s.wordsCorrected 1 0).queue 1 with vis := rest }
    (s.wordsCorrected 1 0)).trans (if_pos rfl)
  refine ⟨?_, ?_, ?_, ?_, fun q hq => ?_, State.eq_of_parts ?_⟩
  · rw [hread, State.deliver_whole hk, State.putQueue_sdio (by decide)]
  · rw [hread, State.deliver_whole hk, State.putQueue_queue, if_pos rfl, hone']
  · rw [hread, State.deliver_whole hk, State.putQueue_queue, if_pos rfl]
  · rw [hread, State.deliver_whole hk, State.putQueue_queue, if_pos rfl]
  · rw [hread, State.deliver_whole hk, State.putQueue_queue, if_neg hq]
    exact (State.putQueue_queue 1 q _ _).trans ((if_neg hq).trans
      ((State.wordsCorrected_queue 1 q 0 s).trans (if_neg hq)))
  · simp only [State.windowRead_clean (ne_nil_of_selectPacket hsel), State.windowClean_frame,
      State.wordsCorrected_frame, and_self]

end

/-- Settles O19: the mailbox's three cases and its grant, and the reply window's two. -/
theorem mailboxAndWindow : Obligations.MailboxAndWindow := by
  unfold Obligations.MailboxAndWindow
  refine ⟨fun n d s hs hlo hhi hm hw hf => ?_, fun n d s hs hlo hhi hm hf => ?_,
    fun n d p s hs hlo hhi hm hn => ?_, fun n p s hm hn hw hf => ?_, fun n k p rest s hs hlo hhi hp hsel hk => ?_,
    fun n k s hs hlo hhi hp hv => ?_⟩
  case _ =>
    have hexec := exec_mailboxWrite_takes hs hlo hhi hm
    rw [State.mailboxTake_fits (s := s.advance n) hw hf] at hexec
    refine ⟨_, hexec, ?_, fun q hq => ?_, (State.putQueue_mailbox ..).1.trans hm, State.eq_of_parts ?_⟩
    · exact congrArg Queue.vis ((State.putQueue_queue 0 0 _ (s.advance n)).trans (if_pos rfl))
    · exact (State.putQueue_queue 0 q _ (s.advance n)).trans (if_neg hq)
    · simp only [State.sdAnswer, State.putQueue_frame, State.advance, and_self]
  case _ =>
    have hexec := exec_mailboxWrite_takes hs hlo hhi hm
    rw [State.mailboxTake_held (s := s.advance n) hf] at hexec
    refine ⟨_, hexec, rfl, rfl, ?_, rfl⟩
    rw [State.sdAnswer_queue, State.queue_modQueue, if_pos rfl]
    rfl
  case _ =>
    exact (exec_mailboxWrite_waits hs hlo hhi hm).trans
      (congrArg Host.Outcome.next (State.mailboxWait_next (s := s.advance n) hn))
  case _ =>
    have hgrant := State.grantMailbox_one (s := s.advance n) hm hn hw hf
    refine ⟨_, congrArg Host.Outcome.next hgrant, (State.putQueue_mailbox ..).1.trans hn,
      (State.putQueue_mailbox ..).2.trans (congrArg Option.isSome hn), ?_, State.eq_of_parts ?_⟩
    · exact (State.putQueue_queue 0 0 _ _).trans (if_pos rfl)
    · simp only [State.putQueue_frame, State.mailboxFreed, State.advance, and_self]
  case _ =>
    exact ⟨_, exec_replyWindowRead_reads hs hlo hhi, State.windowRead_whole (s := s.advance n) hp hsel hk⟩
  case _ =>
    have hexec := exec_replyWindowRead_reads (ecc := .clean) hs hlo hhi
    rw [State.windowRead_empty (s := s.advance n) hp hv, State.windowClean_empty (s := s.advance n) hp hv] at hexec
    refine ⟨_, hexec, (State.putQueue_queue 1 1 _ _).trans (if_pos rfl), State.putQueue_sdio (by decide) _ _,
      State.eq_of_parts ?_⟩
    simp only [State.putQueue_frame, State.advance, and_self]

end Sys2Proof.Machine
end

section

/-! PROOF. O60: the events' forms complete. -/

namespace Sys2Proof.Machine

/-- Settles O60: each clause is a clause settled above, or one of them less the parts that it does not claim. -/
theorem eventFormsComplete : Obligations.EventFormsComplete := by
  unfold Obligations.EventFormsComplete
  obtain ⟨hNrstRise, hInternalResetEnd, hThermalTripEnd, hStrapLatch⟩ := resetEnds
  obtain ⟨hPllLock, -, hFirmwareLoadEnd, -, hFirmwareInitEnd⟩ := bootSequence
  obtain ⟨hTapInstruction, -, -, hTapReset, hDebugToken, -⟩ := testAccessPort
  obtain ⟨-, hEncoderCount, -⟩ := webPosition
  obtain ⟨hEncoderLoss, -, hEncoderLossEnd, hStall, hIndexPulse, hThreadTriggerEdge, -, hPulseEnd⟩ := encoderAndPins
  obtain ⟨hStageReady, hSaveComplete, hRestoreComplete, -, -, hFenceWaitEnd, hWindowWaitEnd⟩ := stages
  obtain ⟨hTokenConditioned, hPassComplete, -, hEpilogueWriteEnd⟩ := crossbarPath
  obtain ⟨hTattingInstructionEnd, -, hDmaBurstComplete, hSetlen, hTranslationWalkEnd, -⟩ := tattingAndTransfers
  obtain ⟨hRecordCommit, -, -, -, -, hRecordMove, -⟩ := records
  obtain ⟨-, -, -, -, -, -, -, hStreamFrame, -⟩ := streams
  obtain ⟨hArpRequest, -, hIcmpEcho, -, hRasterPacket, -⟩ := serviceFrames
  obtain ⟨-, -, hPtpMessage, -, -, hDelayReq, hPtpSyncTimeout, hPtpMasterLost⟩ := precisionTime
  obtain ⟨hFrameTransmitEnd, hGateEntryChange, -⟩ := egress
  obtain ⟨hCalibrationPass, hDwellEnd, hLevelScanEnd, hSealEpoch, -⟩ := calibrationInService
  obtain ⟨hAgeRefreshRequest, hRefreshStart, -, -, hBobbinProgrammingStart, hBobbinProgrammingEnd, -⟩ :=
    bobbinProgramming
  exact ⟨hNrstRise,
    hInternalResetEnd,
    hThermalTripEnd,
    hStrapLatch,
    fun n s h1 h2 h3 =>
      (hPllLock n s h1 h2 h3).imp fun _ ⟨a, b, c, _⟩ => ⟨a, b, c⟩,
    fun n flash x s h1 h2 h3 h4 h5 =>
      (hFirmwareLoadEnd n flash x s h1 h2 h3 h4 h5).imp fun _ ⟨a, b, c, d, _⟩ => ⟨a, b, c, d⟩,
    fun n s h1 h2 h3 =>
      (hFirmwareInitEnd n s h1 h2 h3).imp fun _ ⟨a, b, c, _⟩ => ⟨a, b, c⟩,
    -- The test access port.
    hTapInstruction,
    hTapReset,
    fun n device challenge key sigOk s h1 h2 =>
      (hDebugToken n device challenge key sigOk s h1 h2).imp fun _ ⟨a, b, _⟩ => ⟨a, b⟩,
    -- The encoder and the pins.
    hEncoderCount,
    fun n pairs s h1 h2 h3 =>
      (hEncoderLoss n pairs s h1 h2 h3).imp fun _ ⟨a, b, c, _⟩ => ⟨a, b, c⟩,
    hEncoderLossEnd,
    fun n s h1 h2 h3 =>
      (hStall n s h1 h2 h3).imp fun _ ⟨a, b, _⟩ => ⟨a, b⟩,
    hIndexPulse,
    fun n k s h1 h2 h3 =>
      (hThreadTriggerEdge n k s h1 h2 h3).imp fun _ ⟨a, b, _⟩ => ⟨a, b⟩,
    fun n k e s h1 h2 h3 =>
      (hPulseEnd n k e s h1 h2 h3).imp fun _ ⟨a, b, c, _⟩ => ⟨a, b, c⟩,
    -- The stages of jobs.
    fun n p c k j s h1 h2 h3 h4 h5 h6 h7 =>
      (hStageReady n p c k j s h1 h2 h3 h4 h5 h6 h7).imp fun _ ⟨a, b, _, c, _, _, d, _⟩ => ⟨a, b, c, d⟩,
    fun n p v w s h1 h2 h3 =>
      (hSaveComplete n p v w s h1 h2 h3).imp fun _ ⟨a, b, _, c, _⟩ => ⟨a, b, c⟩,
    fun n p v j s h1 h2 h3 h4 h5 h6 h7 h8 h9 h10 h11 h12 =>
      (hRestoreComplete n p v j s h1 h2 h3 h4 h5 h6 h7 h8 h9 h10 h11 h12).imp fun _ ⟨a, b, _, c, _⟩ => ⟨a, b, c⟩,
    fun n p r w s h1 h2 h3 h4 h5 h6 h7 =>
      (hFenceWaitEnd n p r w s h1 h2 h3 h4 h5 h6 h7).imp fun _ ⟨a, b, c, _⟩ => ⟨a, b, c⟩,
    fun n p r x j s h1 h2 h3 h4 h5 h6 =>
      (hWindowWaitEnd n p r x j s h1 h2 h3 h4 h5 h6).imp fun _ ⟨a, b, _⟩ => ⟨a, b⟩,
    -- The crossbar path.
    fun n p r w pos b v s h1 h2 h3 h4 h5 h6 h7 h8 h9 h10 h11 =>
      (hTokenConditioned n p r w pos b v s h1 h2 h3 h4 h5 h6 h7 h8 h9 h10 h11).imp fun _ => .imp fun _ ⟨a, b, _, c, _⟩
        => ⟨a, b, c⟩,
    fun n p r w k rest d b o x e s h1 h2 h3 h4 h5 h6 h7 h8 h9 h10 h11 h12 h13 h14 h15 h16 h17 h18 h19 h20 h21 =>
      (hPassComplete n p r w k rest d b o x e s h1 h2 h3 h4 h5 h6 h7 h8 h9 h10 h11 h12 h13 h14 h15 h16 h17 h18 h19 h20
        h21).imp fun _ ⟨a, b, _, c, _⟩ => ⟨a, b, c⟩,
    fun n p r w v rest sp l y s h1 h2 h3 h4 h5 h6 h7 h8 h9 h10 h11 h12 h13 h14 h15 h16 h17 h18 =>
      (hEpilogueWriteEnd n p r w v rest sp l y s h1 h2 h3 h4 h5 h6 h7 h8 h9 h10 h11 h12 h13 h14 h15 h16 h17 h18).imp
        fun _ ⟨a, b, _, c, _⟩ => ⟨a, b, c⟩,
    -- The tatting unit, DMA, SETLEN and translation.
    fun n p r w idx tok ab eb out l v x y s h1 h2 h3 h4 h5 h6 h7 h8 h9 h10 h11 h12 h13 h14 h15 h16 h17 =>
      (hTattingInstructionEnd n p r w idx tok ab eb out l v x y s h1 h2 h3 h4 h5 h6 h7 h8 h9 h10 h11 h12 h13 h14 h15
        h16 h17).imp fun _ ⟨a, b, _, c, _⟩ => ⟨a, b, c⟩,
    hDmaBurstComplete,
    fun n p r w b j v s h1 h2 h3 h4 h5 h6 h7 h8 h9 h10 =>
      (hSetlen n p r w b j v s h1 h2 h3 h4 h5 h6 h7 h8 h9 h10).imp fun _ => .imp fun _ ⟨a, b, c, d, _⟩ => ⟨a, b, c,
        d⟩,
    fun n p asid va r j g s h1 h2 h3 h4 h5 h6 h7 h8 h9 =>
      (hTranslationWalkEnd n p asid va r j g s h1 h2 h3 h4 h5 h6 h7 h8 h9).imp fun _ ⟨a, b, c, _⟩ => ⟨a, b, c⟩,
    -- Records.
    fun n p c j s h1 h2 h3 h4 h5 h6 h7 h8 =>
      (hRecordCommit n p c j s h1 h2 h3 h4 h5 h6 h7 h8).imp fun _ ⟨a, b, _, c, _⟩ => ⟨a, b, c⟩,
    fun n p q rest s h1 h2 h3 h4 h5 h6 h7 =>
      (hRecordMove n p q rest s h1 h2 h3 h4 h5 h6 h7).imp fun _ ⟨a, b, c, _⟩ => ⟨a, b, c⟩,
    -- Frames on the ports, and time.
    fun k p n f b s h1 h2 h3 h4 h5 h6 h7 h8 h9 h10 h11 =>
      (hStreamFrame k p n f b s h1 h2 h3 h4 h5 h6 h7 h8 h9 h10 h11).imp fun _ ⟨a, b, c, _, d⟩ => ⟨a, b, c, d⟩,
    fun k p f mac ip s h1 h2 h3 h4 h5 h6 h7 h8 h9 h10 =>
      (hArpRequest k p f mac ip s h1 h2 h3 h4 h5 h6 h7 h8 h9 h10).imp fun _ ⟨a, b, _, c, _⟩ => ⟨a, b, c⟩,
    fun k p f b x s h1 h2 h3 h4 h5 h6 h7 h8 h9 h10 =>
      (hIcmpEcho k p f b x s h1 h2 h3 h4 h5 h6 h7 h8 h9 h10).imp fun _ ⟨a, b, c, _⟩ => ⟨a, b, c⟩,
    fun k p va n f d g s h1 h2 h3 h4 h5 h6 h7 h8 h9 h10 h11 h12 h13 h14 h15 h16 h17 h18 =>
      (hRasterPacket k p va n f d g s h1 h2 h3 h4 h5 h6 h7 h8 h9 h10 h11 h12 h13 h14 h15 h16 h17 h18).imp fun _ ⟨a, b,
        c, _⟩ => ⟨a, b, c⟩,
    hPtpMessage,
    fun k p q s h1 h2 h3 h4 h5 h6 h7 h8 =>
      (hDelayReq k p q s h1 h2 h3 h4 h5 h6 h7 h8).imp fun _ ⟨a, b, _⟩ => ⟨a, b⟩,
    fun k s h1 h2 h3 =>
      (hPtpSyncTimeout k s h1 h2 h3).imp fun _ ⟨a, b, c, _⟩ => ⟨a, b, c⟩,
    fun k gm rank s h1 h2 h3 h4 =>
      (hPtpMasterLost k gm rank s h1 h2 h3 h4).imp fun _ ⟨a, b, c, _⟩ => ⟨a, b, c⟩,
    fun k sp s h1 h2 h3 h4 h5 =>
      (hFrameTransmitEnd k sp s h1 h2 h3 h4 h5).imp fun _ ⟨a, b, _, c, _⟩ => ⟨a, b, c⟩,
    fun k sp c s h1 h2 h3 h4 h5 h6 h7 h8 =>
      (hGateEntryChange k sp c s h1 h2 h3 h4 h5 h6 h7 h8).imp fun _ => .imp fun _ ⟨a, b, c, d, _⟩ => ⟨a, b, c, d⟩,
    -- Calibration in service and programming.
    fun n p b cs zs s h1 h2 h3 h4 h5 =>
      (hCalibrationPass n p b cs zs s h1 h2 h3 h4 h5).imp fun _ ⟨a, b, c, _⟩ => ⟨a, b, c⟩,
    fun n p b g c s h1 h2 h3 h4 h5 =>
      (hDwellEnd n p b g c s h1 h2 h3 h4 h5).imp fun _ ⟨a, b, c, _⟩ => ⟨a, b, c⟩,
    fun n p b ms s h1 h2 h3 h4 h5 h6 h7 =>
      (hLevelScanEnd n p b ms s h1 h2 h3 h4 h5 h6 h7).imp fun _ ⟨a, b, _, _, c, _⟩ => ⟨a, b, c⟩,
    fun n dev s h1 h2 h3 h4 =>
      (hSealEpoch n dev s h1 h2 h3 h4).imp fun _ ⟨a, b, _⟩ => ⟨a, b⟩,
    hAgeRefreshRequest,
    fun n p sp q g b s h1 h2 h3 h4 h5 h6 h7 h8 h9 h10 h11 h12 h13 h14 h15 h16 =>
      (hRefreshStart n p sp q g b s h1 h2 h3 h4 h5 h6 h7 h8 h9 h10 h11 h12 h13 h14 h15 h16).imp fun _ ⟨a, b, _⟩ => ⟨a,
        b⟩,
    fun n p q rest s h1 h2 h3 h4 h5 h6 h7 h8 =>
      (hBobbinProgrammingStart n p q rest s h1 h2 h3 h4 h5 h6 h7 h8).imp fun _ ⟨a, b, c, _⟩ => ⟨a, b, c⟩,
    fun n p u q m s h1 h2 h3 h4 h5 h6 h7 h8 =>
      (hBobbinProgrammingEnd n p u q m s h1 h2 h3 h4 h5 h6 h7 h8).imp fun _ ⟨a, b, c, _⟩ => ⟨a, b, c⟩⟩

end Sys2Proof.Machine
end
